-- ==== Sys2Proof/Word.lean ====
section
/-! DEFINITION. Word.lean: the widths the spec gives its values and the sparse tables the state is made of. -/

namespace Sys2Proof

/-- One byte of memory or of a header. -/
abbrev Byte := BitVec 8

/-- A 48-bit device address (R377) as it is computed. -/
abbrev Addr := BitVec 48

/-- A scalar register value (R197). -/
abbrev Word := BitVec 64

/-- An FP32 value as its 32 bits (R47). -/
abbrev F32 := BitVec 32

/-- A sparse table: only the keys whose value differs from the table's default are listed, in rising order. -/
abbrev KMap (β : Type) := List (Nat × β)

/-- The value at key `k`, `d k` where the table lists none. -/
def KMap.find {β : Type} (d : Nat → β) : KMap β → Nat → β
  | [], k => d k
  | (j, v) :: m, k => if k = j then v else KMap.find d m k

/-- The table without key `k`. -/
def KMap.drop {β : Type} : KMap β → Nat → KMap β
  | [], _ => []
  | (j, v) :: m, k => if k = j then KMap.drop m k else (j, v) :: KMap.drop m k

/-- `(k, v)` placed before the first larger key. -/
def KMap.place {β : Type} (k : Nat) (v : β) : KMap β → KMap β
  | [] => [(k, v)]
  | (j, w) :: m => if k < j then (k, v) :: (j, w) :: m else (j, w) :: KMap.place k v m

/-- The table with `v` at `k`; a default value is not listed. -/
def KMap.put {β : Type} [DecidableEq β] (d : Nat → β) (m : KMap β) (k : Nat) (v : β) : KMap β :=
  if v = d k then KMap.drop m k else KMap.place k v (KMap.drop m k)

/-- The table without the keys from `lo` to `hi - 1`. -/
def KMap.dropRange {β : Type} (m : KMap β) (lo hi : Nat) : KMap β :=
  m.filter (fun e => decide (e.1 < lo ∨ hi ≤ e.1))

/-- The canonical form: keys strictly rising, no default value listed. -/
def KMap.wf {β : Type} [DecidableEq β] (d : Nat → β) : KMap β → Bool
  | [] => true
  | (k, v) :: m => decide (v ≠ d k) && m.all (fun e => decide (k < e.1)) && KMap.wf d m

/-- Bits `lo + w - 1 .. lo` of `n`. -/
def bits (n lo w : Nat) : Nat := n / 2 ^ lo % 2 ^ w

/-- Bit `i` of `n`. -/
def bit (n i : Nat) : Bool := n / 2 ^ i % 2 = 1

/-- `n` with the `w` bits from `lo` replaced by `v`. -/
def setBits (n lo w v : Nat) : Nat := n - bits n lo w * 2 ^ lo + v % 2 ^ w * 2 ^ lo

/-- 1 for true, 0 for false. -/
def b2n (b : Bool) : Nat := if b then 1 else 0

/-- `n` rounded up to a quotient. -/
def ceilDiv (n d : Nat) : Nat := (n + d - 1) / d

/-- The little-endian value of a byte list (R7). -/
def leNat : List Byte → Nat
  | [] => 0
  | b :: bs => b.toNat + 256 * leNat bs

/-- `n` bytes of `v`, least significant first (R7). -/
def leBytes : Nat → Nat → List Byte
  | 0, _ => []
  | n + 1, v => BitVec.ofNat 8 (v % 256) :: leBytes n (v / 256)

/-- The signed value of the low `w` bits of `n`. -/
def toSigned (w n : Nat) : Int :=
  if n % 2 ^ w < 2 ^ (w - 1) then (n % 2 ^ w : Int) else (n % 2 ^ w : Int) - 2 ^ w

/-- An integer taken modulo `2 ^ w`. -/
def wrap (w : Nat) (i : Int) : Nat := (i % (2 ^ w : Int)).toNat

end Sys2Proof
end

