-- ==== Sys2Proof/Syntax.lean ====
section
/-! DEFINITION. Syntax.lean: the commands the block takes, one constructor per row of the opcode table, and the operand
types they carry. A slot instruction carries where it stands (die, sequencer, slot), its predicate (R206) and whether
more slots of its bundle follow; an event carries what comes from outside the model. -/

namespace Sys2Proof

/-- Where a slot instruction stands and how it is predicated (R195, R205, R206). `more` true: further slots of the same
bundle follow, so the bundle issues with the last of them. -/
structure SlotCtl where
  die    : Fin 24
  q      : Fin 4
  slot   : Fin 4
  pe     : Bool
  pidx   : BitVec 3
  psense : Bool
  more   : Bool
deriving DecidableEq, Repr

/-- A flume operand: the immediate, or bits [12:0] of a scalar (R229). -/
inductive FlumeOp where
  | imm (f : BitVec 13)
  | reg (fs : BitVec 5)
deriving DecidableEq, Repr

/-- The second operand of a compare (R234, form C). -/
inductive CmpOp where
  | reg (rb : BitVec 5)
  | imm (v : BitVec 32)
deriving DecidableEq, Repr

/-- The two masters of S0's register arbiter (R454, R455). -/
inductive Master where
  | host
  | mgmt
deriving DecidableEq, Repr

/-- What a restore reads from outside (R364, R365): the commit ring, pieces of the namespace by byte offset, and the public key, in uncompressed SEC1
form, under which S0 verifies the tally's signature (log entry 57). -/
structure CkRead where
  ring   : List (BitVec 8)
  segs   : List (Nat × List (BitVec 8))
  signer : List (BitVec 8)
deriving DecidableEq, Repr

/-- The head of a reduction message as it arrives (R410): its context, the module it is addressed to (0xFFFF for every one), the module it comes from,
the job and its number. -/
structure RedHdr where
  ctx  : Fin 64
  dest : BitVec 16
  src  : BitVec 16
  job  : BitVec 32
  num  : BitVec 32
deriving DecidableEq, Repr

/-- What the peer of a Skidway link shows in CAPS (R411): its Skidway identity public key, in uncompressed SEC1 form, and its certificate chain. -/
structure SkwPeer where
  key   : List (BitVec 8)
  chain : List (BitVec 8)
deriving DecidableEq, Repr

/-- A re-key marker (R413): the link, and the fresh nonce of the end that sent it. -/
structure SkwMark where
  link  : Fin 24
  nonce : BitVec 256
deriving DecidableEq, Repr

/-- A frame that fails its CRC or has a reserved type (R402, R403): the link and the type, with the FEC symbols corrected and the codewords that could
not be since the last one (R426). -/
structure SkwBad where
  link   : Fin 24
  typ    : BitVec 4
  fec    : BitVec 16
  uncorr : BitVec 16
deriving DecidableEq, Repr

/-- The channel that an open exchange is for, and the sender's own channel (R148, R405). -/
structure OpenTo where
  chan : Fin 8192
  own  : BitVec 13
deriving DecidableEq, Repr

/-- A checkpoint message on the reduction channel (R358, R360, R364, R372): the key, an abort of an attempt whose part has been passed on, the outcome of
an attempt or restore, a candidate's commit record, a module's restore result. `down` says that it travels towards module 0. -/
inductive CkptMsg where
  | key (k : BitVec 256)
  | abort
  | outcome (code : BitVec 16) (step seq : BitVec 48) (down : Bool)
  | cand (record : List (BitVec 8))
  | result (code : BitVec 16)
deriving DecidableEq, Repr

/-- A request of a partner die (R423). -/
inductive PartReq where
  | read (a : BitVec 48) (n : BitVec 13)
  | write (a : BitVec 48) (data : List (BitVec 8))
  | push (f : BitVec 13)
  | cmt (f : BitVec 13) (hdr : BitVec 512)
  | pop (f : BitVec 13)
  | rel (f : BitVec 13)
deriving DecidableEq, Repr

/-- An Ethernet frame as a port sorts it (R414, R415): a request for an address, with the MAC and IP address of its sender, a frame of a source's
connection, a pause or resume of one priority (802.1Qbb), or anything else. -/
inductive EthKind where
  | arp (mac : BitVec 48) (sender target : List (BitVec 8))
  | solicit (mac : BitVec 48) (sender target : List (BitVec 8))
  | echo (mac : BitVec 48) (sender target data : List (BitVec 8))
  | conn (src : Fin 64)
  | pfc (prio : BitVec 3) (on : Bool)
  | fragment
  | other
deriving DecidableEq, Repr

/-- A queue pair of a source: 0 its admin queue, 1 to 16 its I/O queues (R326, R414). -/
structure EthQp where
  src   : Fin 64
  queue : Fin 17
deriving DecidableEq, Repr

/-- What comes from a partner die in one round of training a site: its claim and its echo, each a mask and an epoch, unless the round runs out first (R418,
R421). -/
structure SiteRound where
  claim : Option (BitVec 4 × BitVec 32)
  echo  : Option (BitVec 4 × BitVec 32)
deriving DecidableEq, Repr

/-- A training of a site: the modules that UCIe has trained at the landing die's end, and the rounds (R418, R421). -/
structure SiteTrain where
  own    : BitVec 4
  rounds : List SiteRound
deriving DecidableEq, Repr

/-- What R429 states of a capability whose place in configuration space it does not give: the largest payload and read request in bytes, link
width, link rate in tenths of GT/s, tag bits, MSI-X vectors, VFs, the first VF's offset and the stride, the Device Serial Number, a DOE mailbox,
and the log of the least, the greatest and the present size of BAR4 and of the VFs' BAR4 (R433). -/
inductive CfgItem where
  | maxPayload | maxRead | width | rate | tags | vectors | totalVfs | initialVfs | vfOffset | vfStride | serial | doe
  | bar4Min (vf : Bool) | bar4Max (vf : Bool) | bar4 (vf : Bool)
deriving DecidableEq, Repr

/-- A request that reaches the port (R429 to R435, R447): a configuration read by offset or of a capability, a write of the bits the spec gives a
meaning, or a read of the function's BAR0, which has no row of its own. -/
inductive CfgReq where
  | read (off : BitVec 12)
  | item (i : CfgItem)
  | busMaster (on : Bool)
  | msix (enable mask : Bool)
  | power (d3hot : Bool)
  | resize (vf : Bool) (log : BitVec 6)
  | bar0Read (off : BitVec 26) (size : BitVec 4)
deriving DecidableEq, Repr

/-- What a boot finds outside the model (R466, R470): bit h, whether steward h unseals its copy and the record's signature verifies, and, bit 2h + k,
whether the images of firmware bank k pass the steps of R470 on half h, with the step at which they fail (1 to 4) from bit 3(2h + k). -/
structure BootIn where
  sealed : BitVec 2
  banks  : BitVec 4
  steps  : BitVec 12
deriving DecidableEq, Repr

/-- What NEGOTIATE_ALGORITHMS offers beside the signature algorithm (R474): SHA-384, and the measurement specification DMTF. -/
structure AlgOffer where
  sha  : Bool
  dmtf : Bool
deriving DecidableEq, Repr

/-- How a Scaler starts (R514, R520, R527): the one that ran before, or another one with its identity, counts and certificates. -/
inductive ScalerId where
  | same
  | other (serial fwid : BitVec 64) (cksum : BitVec 32) (fine seq secs : BitVec 64) (evt : BitVec 32) (cert : List (BitVec 8))
deriving DecidableEq, Repr

/-- A PLDM request (R459): of type 2, a numeric sensor; of type 0, the terminus id set or read, the types, a type's version and its commands. -/
inductive PldmReq where
  | sensor (id : BitVec 8)
  | setTid (t : BitVec 8)
  | getTid
  | types
  | version (type : BitVec 6)
  | commands (type : BitVec 6)
deriving DecidableEq, Repr

/-- An MCTP control message (R459, R556): the endpoint ID set or read, the endpoint's UUID, the versions of a message type and the message types. -/
inductive MctpReq where
  | setEid (e : BitVec 8)
  | getEid
  | uuid
  | version (type : BitVec 8)
  | types
deriving DecidableEq, Repr

/-- A write of NUM_SCTL: the whole register, or its lower or upper half (R316, R435). -/
inductive SctlVal where
  | whole (v : BitVec 64)
  | low (v : BitVec 32)
  | high (v : BitVec 32)
deriving DecidableEq, Repr

/-- A write to an ownerless register (R456): one of the three clear registers of a die with its bits, MEM_ECC_CLR, or the RWC fields of the
RAS block. -/
inductive ClrReg where
  | mma (die : Fin 24) (clear : BitVec 9)
  | glz (die : Fin 24) (act : BitVec 2) (seq : BitVec 4)
  | ecc (die : Fin 24) (clear : BitVec 2)
  | mem (clear : BitVec 26)
  | ras (valid new : Bool)
  | alert (clear : BitVec 8)
deriving DecidableEq, Repr

/-- An operand that carries nothing: State holds all that the event needs. -/
abbrev Mute := Unit

/-- How a connection attempt of a source ends (R325): whether the target answers, and what it asks for or is that the device refuses: a discovery
controller, in-band authentication, TLS, a namespace with metadata bytes or protection information. -/
structure SrcAnswer where
  reached   : Bool
  discovery : Bool
  auth      : Bool
  tls       : Bool
  metadata  : BitVec 16
  protect   : BitVec 3
deriving DecidableEq, Repr

/-- The commands, one constructor for each row of the opcode table, chapter by chapter. -/
inductive Instr where
  | nop (c : SlotCtl)
  | br (c : SlotCtl) (target : BitVec 14)
  | brS (c : SlotCtl) (rs : BitVec 5)
  | call (c : SlotCtl) (target : BitVec 14)
  | ret (c : SlotCtl)
  | loop (c : SlotCtl) (rs : BitVec 5) (last : BitVec 14)
  | halt (c : SlotCtl)
  | trapRet (c : SlotCtl) (mode : Bool)
  | evtSig (c : SlotCtl) (tq : BitVec 2) (e : BitVec 3) (k : BitVec 16)
  | evtWait (c : SlotCtl) (e : BitVec 3) (k : BitVec 16)
  | wchSet (c : SlotCtl) (idx : BitVec 3) (kind : BitVec 2) (f : FlumeOp) (e : BitVec 3)
  | waitAny (c : SlotCtl) (sd : BitVec 5)
  | waitIdle (c : SlotCtl) (arrays glaze sap dma : Bool)
  | add (c : SlotCtl) (rd ra rb : BitVec 5)
  | sub (c : SlotCtl) (rd ra rb : BitVec 5)
  | and (c : SlotCtl) (rd ra rb : BitVec 5)
  | or (c : SlotCtl) (rd ra rb : BitVec 5)
  | xor (c : SlotCtl) (rd ra rb : BitVec 5)
  | shl (c : SlotCtl) (rd ra rb : BitVec 5)
  | shr (c : SlotCtl) (rd ra rb : BitVec 5)
  | sra (c : SlotCtl) (rd ra rb : BitVec 5)
  | mul (c : SlotCtl) (rd ra rb : BitVec 5)
  | min (c : SlotCtl) (rd ra rb : BitVec 5)
  | max (c : SlotCtl) (rd ra rb : BitVec 5)
  | addi (c : SlotCtl) (rd ra : BitVec 5) (imm : BitVec 32)
  | movi (c : SlotCtl) (rd : BitVec 5) (imm : BitVec 32)
  | movhi (c : SlotCtl) (rd : BitVec 5) (imm : BitVec 32)
  | andi (c : SlotCtl) (rd ra : BitVec 5) (imm : BitVec 32)
  | cmpEq (c : SlotCtl) (pd : BitVec 3) (ra : BitVec 5) (o : CmpOp)
  | cmpNe (c : SlotCtl) (pd : BitVec 3) (ra : BitVec 5) (o : CmpOp)
  | cmpLt (c : SlotCtl) (pd : BitVec 3) (ra : BitVec 5) (o : CmpOp)
  | cmpLtu (c : SlotCtl) (pd : BitVec 3) (ra : BitVec 5) (o : CmpOp)
  | cmpLe (c : SlotCtl) (pd : BitVec 3) (ra : BitVec 5) (o : CmpOp)
  | cmpLeu (c : SlotCtl) (pd : BitVec 3) (ra : BitVec 5) (o : CmpOp)
  | tst (c : SlotCtl) (pd : BitVec 3) (ra : BitVec 5) (b : BitVec 6)
  | plog (c : SlotCtl) (pd pa pb : BitVec 3) (na nb : Bool) (op : BitVec 2)
  | movA (c : SlotCtl) (ad : BitVec 4) (rs : BitVec 5)
  | movS (c : SlotCtl) (rd : BitVec 5) (ab : BitVec 4)
  | addA (c : SlotCtl) (ad ab : BitVec 4) (rs : BitVec 5)
  | addiA (c : SlotCtl) (ad ab : BitVec 4) (imm : BitVec 32)
  | mma (c : SlotCtl) (fa fb : BitVec 4) (t : BitVec 5) (init : Bool) (sd : BitVec 5)
  | mmaQ (c : SlotCtl) (fa fb : BitVec 4) (t : BitVec 5) (init : Bool) (sd : BitVec 5) (quad : BitVec 2)
  | raftSet (c : SlotCtl) (size : BitVec 4)
  | qtrSet (c : SlotCtl) (arr on : Bool)
  | bChunkLoaded (die : Fin 24) (arr : Fin 8) (quad : Fin 4)
  | passBegin (die : Fin 24) (arr : Fin 8) (quad : Fin 4)
  | operandRowAdmit (die : Fin 24) (arr : Fin 8)
  | accumulatorUpdate (die : Fin 24) (arr : Fin 8) (quad : Fin 4)
  | activityLevelStep (die : Fin 24) (arr : Fin 8)
  | fillerOperation (die : Fin 24) (arr : Fin 8)
  | fillerIdleTimeout (die : Fin 24) (arr : Fin 8)
  | sapMv (c : SlotCtl) (fw fx : BitVec 4) (init : Bool) (sd : BitVec 5) (cen : Bool) (e : BitVec 3)
  | sapVectorCopied (die : Fin 24)
  | sapWeightStep (die : Fin 24)
  | sapGroupWrite (die : Fin 24)
  | sapComplete (die : Fin 24)
  | glzRun (c : SlotCtl) (sd : BitVec 5) (cen : Bool) (e : BitVec 3)
  | glzTbl (c : SlotCtl) (tbl : BitVec 2) (sd : BitVec 5) (cen : Bool) (e : BitVec 3)
  | glzTblComplete (die : Fin 24) (v : Fin 2)
  | glzChainStart (die : Fin 24) (v : Fin 2)
  | glzGroupEnter (die : Fin 24) (v : Fin 2)
  | glzGroupWrite (die : Fin 24) (v : Fin 2)
  | glzChainComplete (die : Fin 24) (v : Fin 2)
  | ldTs (c : SlotCtl) (rd : BitVec 5) (mode : Bool) (rb : BitVec 5) (size : BitVec 2) (sx : Bool) (imm : BitVec 24)
  | ldTsReturn (die : Fin 24) (q : Fin 4)
  | stTs (c : SlotCtl) (rs : BitVec 5) (mode : Bool) (rb : BitVec 5) (size : BitVec 2) (imm : BitVec 24)
  | movSr (c : SlotCtl) (rd : BitVec 5) (idx : BitVec 6)
  | movHb (c : SlotCtl) (rd : BitVec 5) (sel : BitVec 6)
  | movOb (c : SlotCtl) (sel : BitVec 6) (rs : BitVec 5)
  | hbCp (c : SlotCtl)
  | obClr (c : SlotCtl)
  | dma (c : SlotCtl) (dk sk : Bool) (dr sr lr : BitVec 5) (cen : Bool) (e : BitVec 3)
  | dmaStart (die : Fin 24) (q : Fin 4)
  | dmaComplete (die : Fin 24) (q : Fin 4)
  | schW (c : SlotCtl) (sel : BitVec 3) (rs : BitVec 5) (idx : BitVec 8)
  | flmPush (c : SlotCtl) (ad : BitVec 4) (f : FlumeOp)
  | flmTry (c : SlotCtl) (ad : BitVec 4) (f : FlumeOp) (pd : BitVec 3)
  | flmCmt (c : SlotCtl) (f : FlumeOp)
  | flmPop (c : SlotCtl) (ad : BitVec 4) (f : FlumeOp)
  | flmTpop (c : SlotCtl) (ad : BitVec 4) (f : FlumeOp) (pd : BitVec 3)
  | flmNext (c : SlotCtl) (ad : BitVec 4) (pd : BitVec 3)
  | flmRel (c : SlotCtl) (f : FlumeOp)
  | verAdmit (c : SlotCtl) (sd : BitVec 5) (close : Bool)
  | verPin (c : SlotCtl) (pd : BitVec 3) (sd : BitVec 5) (f : FlumeOp)
  | verLook (c : SlotCtl) (pd : BitVec 3) (sd gs : BitVec 5)
  | verUnpin (c : SlotCtl) (gs : BitVec 5)
  | verBase (c : SlotCtl) (ad : BitVec 4) (ss is : BitVec 5)
  | verBuild (c : SlotCtl) (sd gs : BitVec 5)
  | verTbuild (c : SlotCtl) (sd gs : BitVec 5) (pd : BitVec 3)
  | verLive (c : SlotCtl) (ss : BitVec 5)
  | verDrop (c : SlotCtl) (ss : BitVec 5)
  | verSw (c : SlotCtl) (gs : BitVec 5)
  | verAdm (c : SlotCtl) (gs : BitVec 5) (barrier : Bool)
  | verLb (c : SlotCtl) (ss is : BitVec 5) (ab : BitVec 4)
  | verNl (c : SlotCtl) (ss ns : BitVec 5)
  | varLook (c : SlotCtl) (ad : BitVec 4) (sd : BitVec 5) (pd : BitVec 3) (vs : BitVec 5)
  | varCnt (c : SlotCtl) (vs : BitVec 5)
  | flmCommitArrival (f : Fin 8192)
  | flmReadyNotice (f : Fin 8192)
  | flmCreditReturn (f : Fin 8192)
  | flmSpillCopy (f : Fin 8192)
  | flmSpillCopyDone (f : Fin 8192)
  | flmHeldTimeout (f : Fin 8192)
  | flmCloseDone (f : Fin 8192)
  | flmZeroingDone (f : Fin 8192)
  | flmCommit (f : Fin 8192)
  | flmCmdClear (f : Fin 8192)
  | flmCmdClose (f : Fin 8192)
  | verPinTimeout (l : Fin 96)
  | verAdmitWrite (m : Master) (l : Fin 96) (gen : BitVec 32) (barrier : Bool)
  | verCmdLive (l : Fin 96) (sl : Fin 4)
  | verCmdDrop (l : Fin 96) (sl : Fin 4)
  | seqWaitTimeout (die : Fin 24) (q : Fin 4)
  | seqLoadComplete (die : Fin 24) (q : Fin 4)
  | seqBcommit (die : Fin 24) (q : Fin 4)
  | seqCmdRun (die : Fin 24) (q : Fin 4)
  | seqCmdHalt (die : Fin 24) (q : Fin 4)
  | seqCmdStep (die : Fin 24) (q : Fin 4)
  | seqCmdUnbind (die : Fin 24) (q : Fin 4)
  | seqPcWrite (m : Master) (die : Fin 24) (q : Fin 4) (pc : BitVec 14)
  | schedRegisterWrite (die : Fin 24) (q : Fin 4) (sel : Fin 5) (idx : BitVec 8) (v : BitVec 32)
  | foremanStepBoundary (c : Fin 64) (ac : BitVec 48)
  | cutCommit (c : Fin 64) (p : BitVec 2)
  | cutTableInForce (c : Fin 64) (p : Fin 3)
  | cutCmdStart (c : Fin 64) (p : BitVec 2)
  | phaseSwitch (l : Fin 96)
  | normChainMsg (h : RedHdr) (acc : BitVec 32) (strip : BitVec 32) (hops : BitVec 12)
  | normBroadcastMsg (h : RedHdr) (up : Bool) (sum norm clip : BitVec 32) (hops : BitVec 12)
  | varCommit (l : Fin 96) (v : BitVec 12)
  | verdictPoint (c : Fin 64)
  | verdictChainMsg (h : RedHdr) (cause : BitVec 4) (amax : List (BitVec 12 × BitVec 32))
  | verdictBroadcastMsg (h : RedHdr) (skip : Bool) (cause : BitVec 4) (amax : List (BitVec 12 × BitVec 32))
  | numCmdForceSkip (c : Fin 64)
  | numCmdClear (c : Fin 64)
  | numSctlWrite (m : Master) (die : Fin 24) (i : BitVec 8) (v : SctlVal)
  | haulTailWrite (m : Master) (ch : Fin 64) (tail : BitVec 16)
  | haulRequestHaul (ch : Fin 64)
  | haulRequestVerify (ch : Fin 64)
  | haulManifestFetched (ch : Fin 64) (io : Bool) (data : List (BitVec 8)) (keyOk tagOk : Mute)
  | haulBilletCheck (ch : Fin 64) (billet : BitVec 20) (tagOk data dec : Mute)
  | haulRequestComplete (ch : Fin 64)
  | nvmeReadCompletion (ch : Fin 64) (billet : BitVec 20) (part : BitVec 11) (ok : Option (List (BitVec 8)))
  | nvmeReadTimeout (ch : Fin 64) (billet : BitVec 20) (part : BitVec 11)
  | haulSourceTimeout (src : Fin 64)
  | haulSourceConnect (src : Fin 64) (ok : SrcAnswer) (lba : BitVec 8) (size : BitVec 48)
  | haulConnectionLoss (src : Fin 64)
  | haulScrubDue (r : Fin 256)
  | haulScrubPassEnd (r : Fin 256)
  | foremanRehaul (j : Fin 32)
  | foremanRefillLoad (l : Fin 96) (sl : Fin 4) (ch : Fin 64) (entry : BitVec 512)
  | foremanRefillLive (l : Fin 96) (sl : Fin 4)
  | haulCcommit (ch : Fin 64)
  | haulScommit (src : Fin 64)
  | ckptCmdTake (c : Fin 64) (key : BitVec 256)
  | ckptCmdRestore (c : Fin 64)
  | ckptCmdAbort (c : Fin 64)
  | ckptPositionRead (c : Fin 64)
  | ckptStorageWriteDone (c : Fin 64) (ok : Bool)
  | ckptShardListWrite (c : Fin 64)
  | tallyChainMsg (h : RedHdr) (parts : List (BitVec 8))
  | ckptTallyTimeout (c : Fin 64)
  | ckptTallyWrite (c : Fin 64) (draw nonce : List (BitVec 8)) (salt : BitVec 32) (signer : Mute)
  | ckptCommitRecordWrite (c : Fin 64)
  | ckptKeyOutcomeMsg (h : RedHdr) (msg : CkptMsg)
  | ckptRestoreLoad (c : Fin 64) (io : CkRead)
  | ckptAcommit (c : Fin 64)
  | buddyCopyMsg (h : RedHdr) (step : BitVec 48) (off : BitVec 48) (data : List (BitVec 8)) (last : Bool)
  | buddyAck (h : RedHdr) (recv : Option Bool)
  | layerStateMsg (h : RedHdr) (layer : BitVec 16) (kind : BitVec 2) (off : BitVec 48) (data : List (BitVec 8)) (next : Bool)
  | memPatrolRead (a : BitVec 48) (err : Fin 5) (last : Bool)
  | farTierEcsPass (f : Fin 2) (errs : BitVec 16)
  | memWcommit (c : Fin 64)
  | memWcommitDone
  | hbmGcommit (g : Fin 8)
  | farBuddyWrite (m : Master) (f : Fin 2) (size : Bool) (v : BitVec 48)
  | cageCommit (n : Fin 16)
  | skwCcommit (ch : Fin 8192)
  | redCommit (c : Fin 64)
  | skwCmdRetrain (k : Fin 24)
  | skwCmdRekey (k : Fin 24)
  | skwVersionWrite (m : Master) (k : Fin 24) (vmax vmin : BitVec 2)
  | skwLanesTrained (k : Fin 24)
  | skwCaps (k : Fin 24) (vmax vmin : BitVec 2) (recOk : Bool) (nonce : BitVec 256) (peer : SkwPeer) (chainOk : Bool)
  | skwKeyed (k : Fin 24)
  | skwChannelOpen (k : Fin 24) (chan : OpenTo) (dir : BitVec 2) (depth : BitVec 13) (size : BitVec 15) (pair : BitVec 13) (next : BitVec 32) (held : BitVec 13) (reply : Bool)
  | skwChannelClose (k : Fin 24) (chan : Fin 8192) (what : Fin 3)
  | skwDownNotice (k : Fin 24)
  | skwRekeyMark (k : SkwMark)
  | skwRecordArrival (k : Fin 24) (chan : Fin 8192) (hdr : BitVec 512) (data : List (BitVec 8))
  | skwRack (k : Fin 24) (chan : Fin 8192) (rseq : BitVec 32)
  | skwCredit (k : Fin 24) (chan : Fin 8192) (n : BitVec 13)
  | skwAck (k : Fin 24) (n : BitVec 32)
  | skwNak (k : Fin 24) (n : BitVec 32)
  | skwCorruptFrame (k : SkwBad)
  | skwTagCheck (k : Fin 24) (ok : Bool)
  | skwAckTimer (k : Fin 24)
  | skwReplayTimeout (k : Fin 24)
  | skwBlockIdleClose (k : Fin 24)
  | skwRekeyCount (k : Fin 24)
  | skwRecovery (k : Fin 24)
  | skwLockLoss (k : Fin 24)
  | skwSessionTimeout (k : Fin 24)
  | skwBringupRetry (k : Fin 24)
  | ethFrameReceive (k : Fin 24) (len : BitVec 14) (vlan : BitVec 12) (kind : EthKind)
  | ethCnpReceive (k : Fin 24) (q : EthQp)
  | ethRateIncrease (q : EthQp)
  | cagePresenceChange (n : Fin 12) (present : Bool)
  | cageModuleOverpower (n : Fin 12)
  | redMessageUnlistedKind (k : Fin 24) (c : Fin 64) (kind : BitVec 8) (len : BitVec 16)
  | spnFlitReceive (i : Fin 4) (hi : Bool) (ok : Bool)
  | spnTrainingStart (i : Fin 4) (hi : Bool) (mask : BitVec 4)
  | spnClaim (i : Fin 4) (hi : Bool) (round : BitVec 3) (mask : BitVec 4) (epoch : BitVec 32)
  | spnEcho (i : Fin 4) (hi : Bool) (round : BitVec 3) (mask : BitVec 4) (epoch : BitVec 32)
  | spnRoundTimeout (i : Fin 4) (hi : Bool)
  | partnerSiteTrained (u : Fin 2) (t : SiteTrain) (valid : Bool) (ver : BitVec 8) (kind : BitVec 16) (most : BitVec 16) (root : List (BitVec 8)) (spdm : Bool)
  | partnerSiteLost (u : Fin 2)
  | partnerPolicyWrite (m : Master) (u : Fin 2) (policy : BitVec 2) (en : Bool) (ctx : BitVec 6) (stage : BitVec 12)
  | partnerRequest (u : Fin 2) (r : PartReq)
  | moduleLostMsg (h : RedHdr) (f : BitVec 16) (k : Fin 24)
  | moduleLostDeclare (c : Fin 64) (which : Fin 3)
  | shrink (c : Fin 64) (bankOk : Bool)
  | pcieConfigRequest (c : Fin 64) (r : CfgReq)
  | vfEnable (on : Bool) (num : Fin 64)
  | bar4Read (c : Fin 64) (off : BitVec 48) (n : BitVec 12)
  | bar4Write (c : Fin 64) (off : BitVec 48) (data : List (BitVec 8))
  | registerWrite (m : Master) (c : Fin 64) (off : BitVec 26) (size : BitVec 4) (v : BitVec 64)
  | sqDoorbell (c : Fin 64) (q : Fin 16) (size : BitVec 4) (v : BitVec 13)
  | cqDoorbell (c : Fin 64) (q : Fin 16) (size : BitVec 4) (v : BitVec 13)
  | ringCommit (c : Fin 64) (cq : Bool) (q : Fin 16)
  | ringFetch (c : Fin 64) (q : Fin 16) (entries : List (BitVec 512))
  | cmdNop (c : Fin 64) (q : Fin 16)
  | cmdCopy (c : Fin 64) (q : Fin 16)
  | cmdFill (c : Fin 64) (q : Fin 16)
  | cmdPush (c : Fin 64) (q : Fin 16)
  | cmdPop (c : Fin 64) (q : Fin 16)
  | cmdFence (c : Fin 64) (q : Fin 16)
  | hostReadCompletion (c : Fin 64) (q : Fin 16) (ok : Bool) (data : List (BitVec 8))
  | cqEntryWrite (c : Fin 64) (q : Fin 16)
  | cqCoalesceTimer (c : Fin 64) (q : Fin 16)
  | dieCmdAssign (die : Fin 24) (c : Fin 64)
  | dieCmdRelease (die : Fin 24)
  | dieReleaseZeroed (die : Fin 24)
  | ownLockWrite (m : Master) (lockdown : Bool) (mgmt : BitVec 8)
  | orderSlotEnd
  | moduleWarmReset (b : BootIn)
  | halfReset (h : Fin 2)
  | halfResetReturn (h : Fin 2) (b : BootIn)
  | halfAccessReady (h : Fin 2)
  | computeDieReset (die : Fin 24)
  | contextTeardown (c : Fin 64)
  | teardownDrainDone (c : Fin 64)
  | teardownZeroingDone (c : Fin 64)
  | powerRung (r : Fin 5)
  | rungEntryComplete
  | powerCap (w : BitVec 12)
  | powerCapTick (watts volts amps : BitVec 16)
  | pwrCapUnmetTimer
  | pwrPdoffWrite (m : Master) (j : Fin 2) (v : BitVec 64)
  | inputUndervoltage
  | inputRecovered
  | inputFault
  | coldPowerOn (wake : Bool) (straps : BitVec 4) (ms : BitVec 32) (b : BootIn)
  | farZeroingDone
  | perstAssert (pin : Bool)
  | perstDeassert
  | vfFlr (c : Fin 64)
  | pfFlr
  | refclkLost
  | thermalSample (h : Fin 4) (grids : List (BitVec 256)) (junctions hbm : List (BitVec 16))
  | thermalTrip (h : Fin 4)
  | coreSampleComplete (hbmOk : Bool)
  | comparatorShutdown
  | coolantInletHigh (inlet outlet : BitVec 16)
  | coolantInletLow (inlet outlet : BitVec 16)
  | coolantInletNormal (inlet outlet : BitVec 16)
  | leakWet
  | leakDry
  | measurementPublish
  | getVersion (r : BitVec 8)
  | getCapabilities (r : BitVec 8)
  | negotiateAlgorithms (r : BitVec 8) (asym : Bool) (hash : AlgOffer)
  | getDigests (r : BitVec 8)
  | getCertificate (r : BitVec 8) (slot : BitVec 4) (off len : BitVec 16)
  | challenge (r : BitVec 8) (slot : BitVec 4) (nonce : BitVec 256)
  | getMeasurements (r : BitVec 8) (index : BitVec 8) (sign : Bool) (slot : BitVec 4) (nonce : BitVec 256)
  | respondIfReady (r : BitVec 8) (token : BitVec 8)
  | requestUpdate
  | verifyComplete (package key : List (BitVec 8)) (certOk : Bool)
  | activateFirmware
  | pldmSensorRead (r : PldmReq)
  | mctpControl (r : MctpReq)
  | msgRegisterRead (off : BitVec 26) (size : BitVec 4)
  | msgRegisterWrite (off : BitVec 26) (size : BitVec 4) (v : BitVec 64)
  | msgOrder (kind : BitVec 4) (arg : BitVec 16)
  | msgOrderStatus
  | secFwcmdCancel
  | secFwcmdRevert
  | counterClearWrite (m : Master) (r : ClrReg)
  | secLogclr
  | meterRecordReceived
  | meterLinkTimeout
  | scalerRecord (gain : BitVec 64) (power : BitVec 32) (volts amps : BitVec 16) (ovr : Bool)
  | scalerPulse
  | scalerPowerUp (ok : Bool) (id : ScalerId)
  | scalerPowerDown (volts : BitVec 16)
  | scalerSealBroken
  | scalerInputEvent (kind : Fin 3) (datum : BitVec 16)
  | pcieLinkUp
  | refclkInRange (b : BootIn)
  | computeDieResetEnd (die : Fin 24)
  | i3cDynamicAddress (sta : Option (BitVec 7)) (addr : BitVec 7)
  | scalerReverification (fwid : BitVec 64) (cksum : BitVec 32)
deriving DecidableEq, Repr

end Sys2Proof
end

