-- ==== Sys2Proof/Decode.lean ====
section
/-! DEFINITION. Decode.lean: commands spelled by the table's bits. spec/opcode_table.json gives no row any bits, so no word spells a command.
The encoding of a slot instruction in a bundle (R205 to R208) is in Machine/SlotCode.lean. -/

namespace Sys2Proof

/-- The command that a word spells by the table's bits. -/
def decodeTableWord (_nbits _w : Nat) : Option Instr := none

end Sys2Proof
end

