-- ==== Sys2Proof/Machine/Crypto.lean ====
section
/-! DEFINITION. Machine/Crypto.lean: the algorithms that the spec names beside SHA-384: HMAC and HKDF (R323, R413, R467), AES-256 with its
key wrap and GCM (R320, R324, R358, R413), and P-384 with ECDH and ECDSA (R323, R413, R467, R469). The spec names them only; they are written here
from the published standards (PRESUMED, log entry 5). -/

namespace Sys2Proof.Machine

/-- The big-endian value of a byte list. -/
def beNat (l : List Byte) : Nat := leNat l.reverse

/-- `n` bytes of `v`, most significant first. -/
def beBytes (n v : Nat) : List Byte := (leBytes n v).reverse

/-- The bytes of an ASCII string. -/
def ascii (t : String) : List Byte := t.toList.map (fun c => BitVec.ofNat 8 c.toNat)

/-- Two byte lists combined bit by bit; the longer one's rest is left out. -/
def xorBytes (a b : List Byte) : List Byte := List.zipWith (· ^^^ ·) a b

/-! ## HMAC and HKDF -/

/-- HMAC-SHA-384. -/
def hmac384 (key msg : List Byte) : List Byte :=
  let k := if 128 < key.length then sha384 key else key
  let k := k ++ List.replicate (128 - k.length) 0
  sha384 (k.map (· ^^^ 0x5C) ++ sha384 (k.map (· ^^^ 0x36) ++ msg))

/-- The blocks of HKDF's expansion from number `i` on, after block `t`. -/
def hkdfBlocks (prk info : List Byte) : Nat → Nat → List Byte → List Byte
  | 0, _, _ => []
  | n + 1, i, t =>
    let t := hmac384 prk (t ++ info ++ [BitVec.ofNat 8 i])
    t ++ hkdfBlocks prk info n (i + 1) t

/-- HKDF-SHA-384: `n` bytes from a salt, the input keying material and an info string. -/
def hkdf384 (salt ikm info : List Byte) (n : Nat) : List Byte :=
  (hkdfBlocks (hmac384 salt ikm) info (ceilDiv n 48) 1 []).take n

/-! ## AES-256 -/

/-- The S-box, entry i in bits 8i + 7 to 8i. -/
def aesBox : Nat :=
    0x16BB54B00F2D99416842E6BF0D89A18CDF2855CEE9871E9B948ED9691198F8E19E1DC186B95735610EF6034866B53E708A8BBD4B1F74DDE8C6B4A61C2E2578BA * 2 ^ 1536 +
    0x08AE7A65EAF4566CA94ED58D6D37C8E779E4959162ACD3C25C2406490A3A32E0DB0B5EDE14B8EE4688902A22DC4F816073195D643D7EA7C41744975FEC130CCD * 2 ^ 1024 +
    0xD2F3FF1021DAB6BCF5389D928F40A351A89F3C507F02F94585334D43FBAAEFD0CF584C4A39BECB6A5BB1FC20ED00D153842FE329B3D63B52A05A6E1B1A2C8309 * 2 ^ 512 +
    0x75B227EBE28012079A059618C323C7041531D871F1E5A534CCF73F362693FDB7C072A49CAFA2D4ADF04759FA7DC982CA76ABD7FE2B670130C56F6BF27B777C63

/-- The inverse S-box. -/
def aesUnbox : Nat :=
    0x7D0C2155631469E126D677BA7E042B17619953833CBBEBC8B0F52AAE4D3BE0A0EF9CC9939F7AE52D0D4AB519A97F51605FEC8027591012B131C7078833A8DD1F * 2 ^ 1536 +
    0xF45ACD78FEC0DB9A2079D2C64B3E56FC1BBE18AA0E62B76F89C5291D711AF1476EDF751CE837F9E28535ADE72274AC9673E6B4F0CECFF297EADC674F4111913A * 2 ^ 1024 +
    0x6B8A130103BDAFC1020F3FCA8F1E2CD00645B3B80558E4F70AD3BC8C00ABD890849D8DA75746155EDAB9EDFD5048706C92B6655DCC5CA4D41698688664F6F872 * 2 ^ 512 +
    0x25D18B6D49A25B76B224D92866A12E084EC3FA420B954CEE3D23C2A632947B54CBE9DEC444438E3487FF2F9B8239E37CFBD7F3819EA340BF38A53630D56A0952

/-- A byte through a box. -/
def aesSub (box : Nat) (b : Byte) : Byte := BitVec.ofNat 8 (box / 2 ^ (8 * b.toNat))

/-- Twice a byte in GF(2^8). -/
def aesDbl (b : Byte) : Byte := (b <<< 1) ^^^ (if b.getLsbD 7 then 0x1B else 0)

/-- A byte times the constant `c` (below 16). -/
def aesMul (c : Nat) (b : Byte) : Byte :=
  let b2 := aesDbl b
  let b4 := aesDbl b2
  (if bit c 0 then b else 0) ^^^ (if bit c 1 then b2 else 0) ^^^ (if bit c 2 then b4 else 0) ^^^ (if bit c 3 then aesDbl b4 else 0)

/-- The key schedule: `n` more words of four bytes after those of `w`, newest first, `i` counting from 8. -/
def aesExpand : Nat → Nat → Byte → List (List Byte) → List (List Byte)
  | 0, _, _, w => w.reverse
  | n + 1, i, rc, w =>
    let t := w.headD []
    let t := if i % 8 = 0 then List.zipWith (· ^^^ ·) ((t.drop 1 ++ t.take 1).map (aesSub aesBox)) [rc, 0, 0, 0]
             else if i % 8 = 4 then t.map (aesSub aesBox) else t
    aesExpand n (i + 1) (if i % 8 = 0 then aesDbl rc else rc) (xorBytes (w.getD 7 []) t :: w)

/-- The fifteen round keys of a 32-byte key. -/
def aesKeys (key : List Byte) : List (List Byte) :=
  let w := (List.range 8).map (fun i => (key.drop (4 * i)).take 4)
  let w := aesExpand 52 8 1 w.reverse
  (List.range 15).map (fun r => ((w.drop (4 * r)).take 4).flatten)

/-- The columns of a block through a matrix whose first row is `m`. -/
def aesMix (m : List Nat) (b : List Byte) : List Byte :=
  (List.range 16).map (fun i =>
    let c := (b.drop (i / 4 * 4)).take 4
    (List.range 4).foldl (fun x j => x ^^^ aesMul (m.getD ((j + 4 - i % 4) % 4) 0) (c.getD j 0)) 0)

/-- Row r of a block moved by r columns, `d` = 1 to the left and 3 to the right. -/
def aesShift (d : Nat) (b : List Byte) : List Byte :=
  (List.range 16).map (fun i => b.getD ((i / 4 + d * (i % 4)) % 4 * 4 + i % 4) 0)

/-- One block encrypted. -/
def aesEnc (keys : List (List Byte)) (b : List Byte) : List Byte :=
  let b := (List.range 13).foldl (fun b r =>
    xorBytes (aesMix [2, 3, 1, 1] (aesShift 1 (b.map (aesSub aesBox)))) (keys.getD (r + 1) [])) (xorBytes b (keys.getD 0 []))
  xorBytes (aesShift 1 (b.map (aesSub aesBox))) (keys.getD 14 [])

/-- One block decrypted. -/
def aesDec (keys : List (List Byte)) (b : List Byte) : List Byte :=
  let un := fun b r => xorBytes ((aesShift 3 b).map (aesSub aesUnbox)) (keys.getD r [])
  let b := (List.range 13).foldl (fun b r => aesMix [14, 11, 13, 9] (un b (13 - r))) (xorBytes b (keys.getD 14 []))
  un b 0

/-! ## Key wrap (RFC 3394) -/

/-- One step of the wrap: step number t from 1, register A and the semiblocks. -/
def wrapStep (keys : List (List Byte)) (n : Nat) (x : List Byte × List (List Byte)) (t : Nat) : List Byte × List (List Byte) :=
  let i := (t - 1) % n
  let b := aesEnc keys (x.1 ++ x.2.getD i [])
  (xorBytes (b.take 8) (beBytes 8 t), x.2.set i (b.drop 8))

/-- One step of the unwrap. -/
def unwrapStep (keys : List (List Byte)) (n : Nat) (x : List Byte × List (List Byte)) (t : Nat) : List Byte × List (List Byte) :=
  let i := (t - 1) % n
  let b := aesDec keys (xorBytes x.1 (beBytes 8 t) ++ x.2.getD i [])
  (b.take 8, x.2.set i (b.drop 8))

/-- The semiblocks of a byte list. -/
def semiblocks (l : List Byte) : List (List Byte) := (List.range (l.length / 8)).map (fun i => (l.drop (8 * i)).take 8)

/-- A key wrapped under a 32-byte key encryption key. -/
def keyWrap (kek key : List Byte) : List Byte :=
  let n := key.length / 8
  let x := (List.range (6 * n)).foldl (fun x j => wrapStep (aesKeys kek) n x (j + 1)) (List.replicate 8 0xA6, semiblocks key)
  x.1 ++ x.2.flatten

/-- The key that a wrapped key holds; none where the integrity check fails. -/
def keyUnwrap (kek wrapped : List Byte) : Option (List Byte) :=
  let l := semiblocks wrapped
  let n := l.length - 1
  let x := (List.range (6 * n)).foldl (fun x j => unwrapStep (aesKeys kek) n x (6 * n - j)) (l.headD [], l.drop 1)
  if x.1 = List.replicate 8 0xA6 then some x.2.flatten else none

/-! ## GCM -/

/-- One bit of the product in GCM's field: the factor, the running sum, and the bit of the other factor. -/
def gfStep (x : BitVec 128) (p : BitVec 128 × BitVec 128) (i : Nat) : BitVec 128 × BitVec 128 :=
  (if x.getLsbD (127 - i) then p.1 ^^^ p.2 else p.1,
   if p.2.getLsbD 0 then (p.2 >>> 1) ^^^ 0xE1000000000000000000000000000000#128 else p.2 >>> 1)

/-- The product in GCM's field. -/
def gfMul (x y : BitVec 128) : BitVec 128 := ((List.range 128).foldl (gfStep x) (0, y)).1

/-- GHASH of a byte list, its last block filled with zeros, going on from `y`. -/
def ghash (h : BitVec 128) (y : BitVec 128) (l : List Byte) : BitVec 128 :=
  (List.range (ceilDiv l.length 16)).foldl (fun y i =>
    let b := (l.drop (16 * i)).take 16
    gfMul (y ^^^ BitVec.ofNat 128 (beNat (b ++ List.replicate (16 - b.length) 0))) h) y

/-- `n` bytes of the key stream from byte `i` on: the counter blocks from number 2 on. -/
def gcmStream (keys : List (List Byte)) (nonce : List Byte) (i n : Nat) : List Byte :=
  (((List.range (ceilDiv (i % 16 + n) 16)).flatMap (fun j => aesEnc keys (nonce ++ beBytes 4 (i / 16 + j + 2)))).drop (i % 16)).take n

/-- The text combined with the key stream. -/
def gcmCtr (keys : List (List Byte)) (nonce text : List Byte) : List Byte := xorBytes text (gcmStream keys nonce 0 text.length)

/-- The tag over additional data and ciphertext. -/
def gcmTag (keys : List (List Byte)) (nonce aad ct : List Byte) : List Byte :=
  let h := BitVec.ofNat 128 (beNat (aesEnc keys (List.replicate 16 0)))
  let y := ghash h (ghash h (ghash h 0 aad) ct) (beBytes 8 (8 * aad.length) ++ beBytes 8 (8 * ct.length))
  xorBytes (aesEnc keys (nonce ++ beBytes 4 1)) (beBytes 16 y.toNat)

/-- AES-256-GCM under a 32-byte key and a 12-byte nonce: ciphertext and tag. -/
def gcmEncrypt (key nonce aad text : List Byte) : List Byte × List Byte :=
  let ct := gcmCtr (aesKeys key) nonce text
  (ct, gcmTag (aesKeys key) nonce aad ct)

/-- The plaintext of a ciphertext, and whether its tag is right. -/
def gcmDecrypt (key nonce aad ct tag : List Byte) : List Byte × Bool :=
  (gcmCtr (aesKeys key) nonce ct, decide (gcmTag (aesKeys key) nonce aad ct = tag))

/-! ## P-384 -/

/-- The field prime. -/
def p384p : Nat := 2 ^ 384 - 2 ^ 128 - 2 ^ 96 + 2 ^ 32 - 1

/-- The order of the group. -/
def p384n : Nat :=
  0xFFFFFFFFFFFFFFFFFFFFFFFFFFFFFFFFFFFFFFFFFFFFFFFFC7634D81F4372DDF581A0DB248B0A77AECEC196ACCC52973

/-- The constant b of the curve y^2 = x^3 - 3x + b. -/
def p384b : Nat :=
  0xB3312FA7E23EE7E4988E056BE3F82D19181D9C6EFE8141120314088F5013875AC656398D8A2ED19D2A85C8EDD3EC2AEF

/-- The base point. -/
def p384g : Option (Nat × Nat) :=
  some (0xAA87CA22BE8B05378EB1C71EF320AD746E1D3B628BA79B9859F741E082542A385502F25DBF55296C3A545E3872760AB7,
        0x3617DE4A96262C6F5D9E98BF9292DC29F8F41DBD289A147CE9DA3113B5F0B8C00A60B1CE1D7E819D7A431D7C90EA0E5F)

/-- b to the power e (below 2^384), modulo m. -/
def powMod (b e m : Nat) : Nat :=
  ((List.range 384).foldl (fun (x : Nat × Nat) i => (if bit e i then x.1 * x.2 % m else x.1, x.2 * x.2 % m)) (1, b % m)).1

/-- The inverse modulo a prime. -/
def invMod (a m : Nat) : Nat := powMod a (m - 2) m

/-- The sum of two points; none is the neutral one. -/
def ecAdd : Option (Nat × Nat) → Option (Nat × Nat) → Option (Nat × Nat)
  | none, q => q
  | p, none => p
  | some (x1, y1), some (x2, y2) =>
    let m := p384p
    if x1 = x2 ∧ (y1 + y2) % m = 0 then none
    else
      let l := if x1 = x2 then (3 * x1 * x1 + (m - 3)) % m * invMod (2 * y1 % m) m % m
               else (y2 + m - y1) % m * invMod ((x2 + m - x1) % m) m % m
      let x3 := (l * l + 2 * m - x1 - x2) % m
      some (x3, (l * ((x1 + m - x3) % m) + m - y1) % m)

/-- A point in Jacobian coordinates: x, y and z for the point (x / z^2, y / z^3); z = 0 for the neutral one. -/
abbrev JacPoint := Nat × Nat × Nat

/-- Twice a point. -/
def jacDbl (p : JacPoint) : JacPoint :=
  let m := p384p
  let (x, y, z) := p
  let a := y * y % m
  let b := 4 * x * a % m
  let c := z * z % m
  let d := 3 * (x + m - c) * (x + c) % m
  let u := (d * d + 2 * (m - b)) % m
  (u, (d * (b + m - u) + 8 * (m - a * a % m)) % m, 2 * y * z % m)

/-- The sum of two points. -/
def jacAdd (p q : JacPoint) : JacPoint :=
  let m := p384p
  let (x1, y1, z1) := p
  let (x2, y2, z2) := q
  if z1 = 0 then q
  else if z2 = 0 then p
  else
    let c1 := z1 * z1 % m
    let c2 := z2 * z2 % m
    let u1 := x1 * c2 % m
    let u2 := x2 * c1 % m
    let s1 := y1 * c2 * z2 % m
    let s2 := y2 * c1 * z1 % m
    if u1 = u2 then (if s1 = s2 then jacDbl p else (1, 1, 0))
    else
      let h := (u2 + m - u1) % m
      let r := (s2 + m - s1) % m
      let h2 := h * h % m
      let h3 := h2 * h % m
      let v := u1 * h2 % m
      let x := (r * r + (m - h3) + 2 * (m - v)) % m
      (x, (r * (v + m - x) + (m - s1 * h3 % m)) % m, h * z1 * z2 % m)

/-- A multiple of a point. -/
def ecMul (k : Nat) : Option (Nat × Nat) → Option (Nat × Nat)
  | none => none
  | some (x, y) =>
    let j := ((List.range 384).foldl (fun (t : JacPoint × JacPoint) i =>
      (if bit k i then jacAdd t.1 t.2 else t.1, jacDbl t.2)) ((1, 1, 0), (x, y, 1))).1
    if j.2.2 = 0 then none
    else
      let i := invMod j.2.2 p384p
      some (j.1 * (i * i) % p384p, j.2.1 * (i * i * i) % p384p)

/-- A point on the curve, from its uncompressed SEC1 form of 97 bytes. -/
def ecPoint (l : List Byte) : Option (Nat × Nat) :=
  let x := beNat ((l.drop 1).take 48)
  let y := beNat ((l.drop 49).take 48)
  if l.length = 97 ∧ l.head? = some 4 ∧ x < p384p ∧ y < p384p ∧ y * y % p384p = (x * x * x + (p384p - 3) * x + p384b) % p384p then
    some (x, y)
  else none

/-- The uncompressed SEC1 form of a point. -/
def ecBytes : Option (Nat × Nat) → List Byte
  | none => [0]
  | some (x, y) => 4 :: (beBytes 48 x ++ beBytes 48 y)

/-- The public key of a private scalar. -/
def ecPublic (d : Nat) : List Byte := ecBytes (ecMul d p384g)

/-- The ECDH shared secret: the x coordinate of the product, 48 bytes; none for a public key that is no point of the curve. -/
def ecdh (d : Nat) (pub : List Byte) : Option (List Byte) :=
  match ecMul d (ecPoint pub) with
  | some (x, _) => some (beBytes 48 x)
  | none => none

/-- An ECDSA signature, r then s, of a message by private key `d` with the per-signature number `k`. -/
def ecdsaSign (d k : Nat) (msg : List Byte) : List Byte :=
  let r := match ecMul k p384g with
    | some (x, _) => x % p384n
    | none => 0
  beBytes 48 r ++ beBytes 48 (invMod k p384n * (beNat (sha384 msg) + r * d) % p384n)

/-- True when an ECDSA signature, r then s, verifies. -/
def ecdsaOk (pub msg sig : List Byte) : Bool :=
  let r := beNat (sig.take 48)
  let t := beNat ((sig.drop 48).take 48)
  let w := invMod t p384n
  match ecPoint pub with
  | none => false
  | some q =>
    decide (0 < r ∧ r < p384n ∧ 0 < t ∧ t < p384n) &&
    (match ecAdd (ecMul (beNat (sha384 msg) * w % p384n) p384g) (ecMul (r * w % p384n) (some q)) with
     | some (x, _) => decide (x % p384n = r)
     | none => false)

/-- The private scalar of 56 bytes of key material (R467: FIPS 186-5, extra random bits). -/
def ecScalar (c : List Byte) : Nat := beNat c % (p384n - 1) + 1

end Sys2Proof.Machine
end

