-- ==== Sys2Proof/Machine/Float.lean ====
section
/-! DEFINITION. Machine/Float.lean: exact binary values and the single rounding to a floating format (R47, R54, R116). -/

namespace Sys2Proof.Machine

/-- An exact value: NaN, an infinity, or (−1)^neg × m × 2^e. A zero keeps its sign (R47). -/
inductive Num where
  | nan
  | inf (neg : Bool)
  | fin (neg : Bool) (m : Nat) (e : Int)
deriving DecidableEq, Repr

/-- `m` × 2^`e` in units of 2^`q`, rounded to nearest with ties to even. -/
def roundAt (m : Nat) (e q : Int) : Nat :=
  if q ≤ e then m * 2 ^ (e - q).toNat
  else
    let d := 2 ^ (q - e).toNat
    let f := m / d
    let r := m % d
    if 2 * r > d ∨ (2 * r = d ∧ f % 2 = 1) then f + 1 else f

/-- The magnitude code of a floating format with `fb` fraction bits whose smallest subnormal is 2^`qmin`: biased
exponent above fraction. The code is not bounded above; the caller compares it with the format's largest. -/
def roundPack (fb : Nat) (qmin : Int) (m : Nat) (e : Int) : Nat :=
  if m = 0 then 0
  else
    let q := max ((Nat.log2 m : Int) + e - fb) qmin
    (q - qmin).toNat * 2 ^ fb + roundAt m e q

/-- -1, 0 or 1 as `m` × 2^`e` is below, equal to or above `m'` × 2^`e'`. -/
def dyCmp (m : Nat) (e : Int) (m' : Nat) (e' : Int) : Ordering :=
  let q := min e e'
  compare (m * 2 ^ (e - q).toNat) (m' * 2 ^ (e' - q).toNat)

/-- The canonical NaN of FP32 (R47). -/
def canonNaN : F32 := 0x7FC0_0000

/-- Plus and minus infinity of FP32. -/
def f32Inf (neg : Bool) : F32 := if neg then 0xFF80_0000 else 0x7F80_0000

/-- The exact value of an FP32 pattern (R47). -/
def f32Num (x : F32) : Num :=
  let neg := bit x.toNat 31
  let ex := bits x.toNat 23 8
  let fr := bits x.toNat 0 23
  if ex = 255 then (if fr = 0 then .inf neg else .nan)
  else if ex = 0 then .fin neg fr (-149)
  else .fin neg (2 ^ 23 + fr) ((ex : Int) - 150)

/-- One rounding to FP32, to nearest even, subnormals kept; the flag says that a finite value became infinite
(R54, R127). -/
def numF32 : Num → F32 × Bool
  | .nan => (canonNaN, false)
  | .inf n => (f32Inf n, false)
  | .fin n m e =>
    let c := roundPack 23 (-149) m e
    if 0x7F80_0000 ≤ c then (f32Inf n, true) else (BitVec.ofNat 32 (b2n n * 2 ^ 31 + c), false)

/-- `numF32` without its flag. -/
def roundF32 (v : Num) : F32 := (numF32 v).1

/-- The signed mantissa. -/
def sgnInt (neg : Bool) (m : Nat) : Int := if neg then -(m : Int) else m

/-- The exact sum; a zero sum of a nonzero pair, or of zeros of unlike sign, is +0 (R54). -/
def Num.add : Num → Num → Num
  | .nan, _ => .nan
  | _, .nan => .nan
  | .inf a, .inf b => if a = b then .inf a else .nan
  | .inf a, .fin _ _ _ => .inf a
  | .fin _ _ _, .inf b => .inf b
  | .fin na ma ea, .fin nb mb eb =>
    if ma = 0 ∧ mb = 0 then .fin (na && nb) 0 0
    else
      let q := min ea eb
      let s := sgnInt na ma * 2 ^ (ea - q).toNat + sgnInt nb mb * 2 ^ (eb - q).toNat
      .fin (decide (s < 0)) s.natAbs q

/-- The exact product; zero times infinity is NaN. -/
def Num.mul : Num → Num → Num
  | .nan, _ => .nan
  | _, .nan => .nan
  | .inf a, .inf b => .inf (a != b)
  | .inf a, .fin n m _ => if m = 0 then .nan else .inf (a != n)
  | .fin n m _, .inf b => if m = 0 then .nan else .inf (n != b)
  | .fin na ma ea, .fin nb mb eb => .fin (na != nb) (ma * mb) (ea + eb)

/-- The value with its sign changed. -/
def Num.neg : Num → Num
  | .nan => .nan
  | .inf n => .inf (!n)
  | .fin n m e => .fin (!n) m e

/-- The value times 2^`k`. -/
def Num.scale (k : Int) : Num → Num
  | .fin n m e => .fin n m (e + k)
  | v => v

/-- True when the value is NaN. -/
def Num.isNaN : Num → Bool
  | .nan => true
  | _ => false

/-- True when the value is finite. -/
def Num.isFin : Num → Bool
  | .fin _ _ _ => true
  | _ => false

/-- True when the value is an infinity. -/
def Num.isInf : Num → Bool
  | .inf _ => true
  | _ => false

/-- True when the value is +0 or −0. -/
def Num.isZero : Num → Bool
  | .fin _ m _ => decide (m = 0)
  | _ => false

/-- Order of two values that are not NaN; +0 and −0 are equal. -/
def Num.cmp : Num → Num → Ordering
  | .inf a, .inf b => compare (b2n b) (b2n a)
  | .inf a, _ => if a then .lt else .gt
  | _, .inf b => if b then .gt else .lt
  | .fin na ma ea, .fin nb mb eb =>
    let q := min ea eb
    compare (sgnInt na ma * 2 ^ (ea - q).toNat) (sgnInt nb mb * 2 ^ (eb - q).toNat)
  | _, _ => .eq

/-- floor(√n), one result bit a step. -/
def isqrtAux : Nat → Nat → Nat → Nat
  | 0, _, r => r
  | i + 1, n, r => if (r + 2 ^ i) * (r + 2 ^ i) ≤ n then isqrtAux i n (r + 2 ^ i) else isqrtAux i n r

/-- floor(√n). -/
def isqrt (n : Nat) : Nat := isqrtAux (Nat.log2 n / 2 + 1) n 0

/-- A quotient with a sticky low bit: rounding the result once gives the correctly rounded quotient, as it keeps 64 or
more bits. -/
def divSticky (a b : Nat) (e : Int) : Num :=
  let k := 64 + Nat.log2 b
  let n := a * 2 ^ k
  .fin false (2 * (n / b) + b2n (decide (n % b ≠ 0))) (e - k - 1)

/-- 1 / √(m × 2^e) with a sticky low bit. -/
def rsqrtSticky (m : Nat) (e : Int) : Num :=
  let m' := if e % 2 = 0 then m else 2 * m
  let e' := if e % 2 = 0 then e else e - 1
  let k := 64 + Nat.log2 m'
  let r := isqrt (2 ^ (2 * k) / m')
  .fin false (2 * r + b2n (decide (r * r * m' ≠ 2 ^ (2 * k)))) (-(e' / 2) - k - 1)

/-- √(m × 2^e) with a sticky low bit. -/
def sqrtSticky (m : Nat) (e : Int) : Num :=
  let m' := (if e % 2 = 0 then m else 2 * m) * 2 ^ 128
  let e' := (if e % 2 = 0 then e else e - 1) - 128
  let r := isqrt m'
  .fin false (2 * r + b2n (decide (r * r ≠ m'))) (e' / 2 - 1)

/-- The product over the fraction bits of 2^(bit) in units of 2^-192: `root` is 2^(2^-i) at that precision, and one
square root a bit gives the next. -/
def exp2Bits : Nat → Nat → Nat → Nat → Nat → Nat
  | 0, _, _, _, acc => acc
  | n + 1, f, w, root, acc =>
    let r := isqrt (root * 2 ^ 192)
    exp2Bits n f (w - 1) r (if bit f (w - 1) then acc * r / 2 ^ 192 else acc)

/-- 2^(m × 2^e), signed `neg`: to about 180 bits with a sticky low bit, which fixes the FP32 rounding (a case closer to
a tie than that is not known to exist). Below 2^-26 in magnitude the result rounds to 1. -/
def exp2Num (neg : Bool) (m : Nat) (e : Int) : Num :=
  if m = 0 then .fin false 1 0
  else if (Nat.log2 m : Int) + e < -26 then
    .fin false (if neg then 2 ^ 60 - 1 else 2 ^ 60 + 1) (-60)
  else if 9 ≤ (Nat.log2 m : Int) + e then (if neg then .fin false 1 (-400) else .fin false 1 400)
  else if 0 ≤ e then .fin false 1 (sgnInt neg (m * 2 ^ e.toNat))
  else
    let w := (-e).toNat
    let s := sgnInt neg m
    let i := s / 2 ^ w
    let f := (s % 2 ^ w).toNat
    if f = 0 then .fin false 1 i
    else .fin false (2 * exp2Bits w f w (2 ^ 193) (2 ^ 192) + 1) (i - 193)

/-- Fraction bits of log2 of `x` in [1, 2), `x` in units of 2^-512: square and halve. -/
def log2Bits : Nat → Nat → Nat → Nat
  | 0, _, acc => acc
  | n + 1, x, acc =>
    let y := x * x / 2 ^ 512
    if 2 ^ 513 ≤ y then log2Bits n (y / 2) (2 * acc + 1) else log2Bits n y (2 * acc)

/-- log2(m × 2^e) to 128 fraction bits with a sticky low bit, m not 0. -/
def log2Num (m : Nat) (e : Int) : Num :=
  let k := Nat.log2 m
  let i : Int := (k : Int) + e
  if m = 2 ^ k then .fin (decide (i < 0)) i.natAbs 0
  else
    let f := log2Bits 128 (m * 2 ^ 512 / 2 ^ k) 0
    let s : Int := (i * 2 ^ 128 + f) * 2 + 1
    .fin (decide (s < 0)) s.natAbs (-129)

end Sys2Proof.Machine
end

