-- ==== Sys2Proof/Machine/Operands.lean ====
section
/-! DEFINITION. Machine/Operands.lean: the number formats (R37 to R50), operand pairs and products (R51 to R53), the
reference order (R54 to R58) and the conversions (R60 to R65). -/

namespace Sys2Proof.Machine

/-- One element of an operand. A log element keeps its exponent in eighths of an octave (R43). -/
inductive Elem where
  | nan
  | inf (neg : Bool)
  | zero (neg : Bool)
  | log (neg : Bool) (e : Int)
  | lin (neg : Bool) (m : Nat) (e : Int)
deriving DecidableEq, Repr

/-- Class of a format code (R37). -/
inductive FmtClass where
  | log
  | linear
  | bf16
  | fp32
  | reserved
deriving DecidableEq, Repr

/-- R37. -/
def fmtClass (f : Nat) : FmtClass :=
  if f ≤ 2 ∨ f = 9 ∨ f = 10 then .log
  else if f ≤ 8 then .linear
  else if f = 11 then .bf16
  else if f = 12 then .fp32
  else .reserved

/-- True for the formats that an expansion table or scale expands (0x2, 0x9, 0xA). -/
def fmtExpands (f : Nat) : Bool := f = 2 || f = 9 || f = 10

/-- True for the formats with a block scale (R37). -/
def fmtBlock (f : Nat) : Bool := decide (f ≤ 10)

/-- Element bits in memory of a format that is not expanded (R37). -/
def fmtBits (f : Nat) : Nat :=
  if f = 1 ∨ f = 7 then 4 else if f = 5 ∨ f = 6 then 6 else if f = 11 then 16 else if f = 12 then 32 else 8

/-- Bytes that a block of 32 elements of `b` bits takes (R40). -/
def blockBytes (b : Nat) : Nat := 4 * b

/-- The exponent table T, in units of 2^-12 (R42). -/
def expT (f : Nat) : Nat :=
  match f % 8 with
  | 0 => 4096 | 1 => 4467 | 2 => 4871 | 3 => 5312 | 4 => 5793 | 5 => 6317 | 6 => 6889 | _ => 7512

/-- Exact magnitude of exponent `e` in eighths: T[f] × 2^(I − 12) (R43). -/
def logMag (e : Int) : Nat × Int := (expT (e % 8).toNat, e / 8 - 12)

/-- L8 element (R44). -/
def l8Elem (b : Nat) : Elem :=
  let s := bit b 7
  let c := bits b 0 7
  if c = 0 then (if s then .nan else .zero false)
  else if c = 127 then .inf s
  else .log s ((c : Int) - 64)

/-- L4 element (R45). -/
def l4Elem (b : Nat) : Elem :=
  let s := bit b 3
  let c := bits b 0 3
  if c = 0 then .zero s else .log s (4 * ((c : Int) - 4))

/-- A small floating element: `fb` fraction bits, smallest subnormal 2^`qmin` (R46). -/
def mxFloat (neg : Bool) (fb : Nat) (qmin : Int) (c : Nat) : Elem :=
  if c = 0 then .zero neg
  else if c < 2 ^ fb then .lin neg c qmin
  else .lin neg (2 ^ fb + c % 2 ^ fb) (qmin + (c / 2 ^ fb : Nat) - 1)

/-- The element that code `c` of a format that is not expanded spells (R44 to R47). -/
def elemOf (f c : Nat) : Elem :=
  match f with
  | 0 => l8Elem c
  | 1 => l4Elem c
  | 3 => if bits c 0 7 = 127 then .nan else mxFloat (bit c 7) 3 (-9) (bits c 0 7)
  | 4 => if bits c 0 7 = 124 then .inf (bit c 7) else if 124 < bits c 0 7 then .nan
         else mxFloat (bit c 7) 2 (-16) (bits c 0 7)
  | 5 => mxFloat (bit c 5) 2 (-4) (bits c 0 5)
  | 6 => mxFloat (bit c 5) 3 (-3) (bits c 0 5)
  | 7 => mxFloat (bit c 3) 1 (-1) (bits c 0 3)
  | 8 => if bits c 0 8 = 0 then .zero false
         else .lin (bit c 7) (toSigned 8 c).natAbs (-6)
  | 11 => if bits c 7 8 = 255 then (if bits c 0 7 = 0 then .inf (bit c 15) else .nan)
          else mxFloat (bit c 15) 7 (-133) (bits c 0 15)
  | 12 => match f32Num (BitVec.ofNat 32 c) with
          | .nan => .nan
          | .inf n => .inf n
          | .fin n m e => if m = 0 then .zero n else .lin n m e
  | _ => .nan

/-- The exact value of an element (R43 to R47). -/
def Elem.num : Elem → Num
  | .nan => .nan
  | .inf n => .inf n
  | .zero n => .fin n 0 0
  | .log n e => .fin n (logMag e).1 (logMag e).2
  | .lin n m e => .fin n m e

/-- True for a zero element. -/
def Elem.isZero : Elem → Bool
  | .zero _ => true
  | _ => false

/-- The expansion descriptor (R48): 16 table entries, the FP32 scale, zero point and element width. -/
structure ExpDesc where
  table : List Nat
  scale : F32
  zp    : Nat
  b     : Nat
deriving DecidableEq, Repr

/-- An expansion descriptor from its 32 bytes. -/
def expDescOf (bs : List Byte) : ExpDesc :=
  { table := (bs.take 16).map BitVec.toNat, scale := BitVec.ofNat 32 (leNat ((bs.drop 16).take 4)),
    zp := leNat ((bs.drop 20).take 1) % 16, b := leNat ((bs.drop 21).take 1) % 4 + 1 }

/-- The refusals of R50 for a descriptor of format `f`. -/
def expDescBad (f : Nat) (bs : List Byte) : Bool :=
  let x := expDescOf bs
  let b20 := leNat ((bs.drop 20).take 1)
  let b21 := leNat ((bs.drop 21).take 1)
  decide (b21 % 4 = 0) || decide (leNat ((bs.drop 22).take 1) ≠ 1) || decide (b20 / 16 ≠ 0) || decide (b21 / 4 ≠ 0)
  || decide (leNat (bs.drop 23) ≠ 0)
  || (decide (f = 10) && (decide (2 ^ x.b ≤ x.zp) || !(f32Num x.scale).isFin || (f32Num x.scale).isZero))
  || (decide (f = 9) && (x.table.take (2 ^ x.b)).any (fun t => decide (16 ≤ t)))

/-! Conversions to block formats (R62, R64). -/

/-- Count of the codes from 1 to `n` whose lower midpoint |u| passes: above it, or on it with an even code. -/
def codeCount (mid : Nat → Nat × Int) (m : Nat) (e : Int) : Nat → Nat
  | 0 => 0
  | c + 1 =>
    let p := mid (c + 1)
    let o := dyCmp m e p.1 p.2
    codeCount mid m e c + b2n (decide (o = .gt ∨ (o = .eq ∧ (c + 1) % 2 = 0)))

/-- Midpoint below a log code whose exponent is `e`, the code below having exponent `e0`, or zero. -/
def logMid (e : Int) (e0 : Option Int) : Nat × Int :=
  let a := logMag e
  match e0 with
  | none => (a.1, a.2 - 1)
  | some e0 =>
    let b := logMag e0
    let q := min a.2 b.2
    (a.1 * 2 ^ (a.2 - q).toNat + b.1 * 2 ^ (b.2 - q).toNat, q - 1)

/-- Midpoint below L8 code `c`. -/
def l8Mid (c : Nat) : Nat × Int := logMid ((c : Int) - 64) (if c = 1 then none else some ((c : Int) - 65))

/-- Midpoint below L4 code `c`. -/
def l4Mid (c : Nat) : Nat × Int := logMid (4 * ((c : Int) - 4)) (if c = 1 then none else some (4 * ((c : Int) - 5)))

/-- What one element converts to: its code, whether it counts a saturation event, and whether it sets the block's scale
to 0xFF (R64). -/
structure Conv where
  code   : Nat
  sat    : Bool
  block  : Bool
deriving DecidableEq, Repr

/-- A float MX target: `fb`, `qmin`, sign position, largest finite code and its value. -/
def convMx (neg : Bool) (fb : Nat) (qmin : Int) (sp maxc : Nat) (m : Nat) (e : Int) : Conv :=
  let c := roundPack fb qmin m e
  let big := dyCmp m e (2 ^ fb + maxc % 2 ^ fb) (qmin + (maxc / 2 ^ fb : Nat) - 1) = .gt
  ⟨b2n neg * 2 ^ sp + (if big then maxc else c), decide big, false⟩

/-- Conversion of a finite u = (−1)^neg × m × 2^e (R62, R64). A negative u of MXINT8 from −127 × 2^−6 down to −2, which the format holds, counts no
event: R64 gives one bound for |u| (DESIGN CHOICE, log entry 106). -/
def convFin (f : Nat) (neg : Bool) (m : Nat) (e : Int) : Conv :=
  match f with
  | 0 => let c := codeCount l8Mid m e 127
         ⟨if c = 0 then 0 else b2n neg * 128 + c, decide (c = 127), false⟩
  | 1 => let c := codeCount l4Mid m e 7
         ⟨b2n neg * 8 + c, decide (dyCmp m e 5793 (-11) = .gt), false⟩
  | 3 => convMx neg 3 (-9) 7 126 m e
  | 4 => let c := roundPack 2 (-16) m e
         ⟨b2n neg * 128 + (if 124 ≤ c then 124 else c), decide (124 ≤ c), false⟩
  | 5 => convMx neg 2 (-4) 5 31 m e
  | 6 => convMx neg 3 (-3) 5 31 m e
  | 7 => convMx neg 1 (-1) 3 7 m e
  | 8 => let k := roundAt m e (-6)
         if neg then ⟨wrap 8 (-(min k 128 : Nat) : Int), decide (dyCmp m e 2 0 = .gt), false⟩
         else ⟨min k 127, decide (dyCmp m e 127 (-6) = .gt), false⟩
  | _ => ⟨0, false, false⟩

/-- Conversion of an FP32 value to a block format with block exponent X (R62, R64). -/
def convElem (f X : Nat) (v : F32) : Conv :=
  match f32Num v with
  | .nan => match f with
    | 0 => ⟨0x80, false, false⟩
    | 3 => ⟨0x7F, false, false⟩
    | 4 => ⟨0x7F, false, false⟩
    | _ => ⟨0, false, true⟩
  | .inf n => match f with
    | 0 => ⟨b2n n * 128 + 127, false, false⟩
    | 4 => ⟨b2n n * 128 + 124, false, false⟩
    | _ => ⟨0, false, true⟩
  | .fin n m e => convFin f n m (e + 127 - X)

/-- Conversion to BF16 and its overflow flag (R63). -/
def convBF16 (v : F32) : Nat × Bool :=
  match f32Num v with
  | .nan => (0x7FC0, false)
  | .inf n => (b2n n * 2 ^ 15 + 0x7F80, false)
  | .fin n m e =>
    let c := roundPack 7 (-133) m e
    if 0x7F80 ≤ c then (b2n n * 2 ^ 15 + 0x7F80, true) else (b2n n * 2 ^ 15 + c, false)

/-- The m of a computed block exponent (R65). -/
def fmtM (f : Nat) : Nat :=
  match f with
  | 0 => 6 | 3 => 8 | 4 => 15 | 5 => 4 | 6 => 2 | 7 => 2 | _ => 0

/-- floor(log2 |v|) of a finite nonzero FP32 value, none otherwise. -/
def f32Log2 (v : F32) : Option Int :=
  match f32Num v with
  | .fin _ m e => if m = 0 then none else some ((Nat.log2 m : Int) + e)
  | _ => none

/-- The computed block exponent over the unmasked values (R65). -/
def computedX (f : Nat) (vs : List F32) : Nat :=
  match (vs.filterMap f32Log2).max? with
  | none => 127
  | some l => (min (max (127 + l - fmtM f) 0) 254).toNat

/-- Decode to FP32 (R61): the value × 2^(X − 127), one rounding, and the overflow flag. -/
def decodeF32 (f X : Nat) (el : Elem) : F32 × Bool :=
  if fmtBlock f then (if X = 255 then (canonNaN, false) else numF32 (el.num.scale ((X : Int) - 127)))
  else numF32 el.num

/-- A CVT stage (R115, R61 to R64): convert with block exponent X, then decode. The flags are saturation and overflow. A lane whose conversion
sets the block scale to 0xFF becomes NaN itself and leaves the other lanes alone (DESIGN CHOICE, log entry 107). -/
def cvtF32 (f X : Nat) (v : F32) : F32 × Bool × Bool :=
  if f = 12 then (roundF32 (f32Num v), false, false)
  else if f = 11 then
    let c := convBF16 v
    (roundF32 (elemOf 11 c.1).num, false, c.2)
  else
    let c := convElem f X v
    if c.block then (canonNaN, c.sat, false)
    else
      let d := decodeF32 f X (elemOf f c.code)
      (d.1, c.sat, d.2)

/-- The element a code of an expanded format becomes, and its saturation event (R49). -/
def expandElem (f : Nat) (x : ExpDesc) (q : Nat) : Elem × Bool :=
  if f = 2 then (l8Elem (x.table.getD q 0), false)
  else if f = 9 then (l4Elem (x.table.getD q 0), false)
  else
    let d : Int := (q : Int) - x.zp
    let v := roundF32 ((f32Num x.scale).mul (.fin (decide (d < 0)) d.natAbs 0))
    let c := convElem 0 127 v
    (l8Elem c.code, decide (bits c.code 0 7 = 127))

/-! Operand pairs, products and the reference order. -/

/-- Rate class of a legal pair (R51). -/
inductive RateClass where
  | r8
  | r4
  | bf16
deriving DecidableEq, Repr

/-- R51: the rate class of a legal pair, none for MMA_FMT_PAIR. -/
def pairClass (fa fb : Nat) : Option RateClass :=
  match fmtClass fa, fmtClass fb with
  | .log, .log => some (if (fa = 1 ∨ fa = 9) ∧ (fb = 1 ∨ fb = 9) then .r4 else .r8)
  | .linear, .linear => some (if fa = 7 ∧ fb = 7 then .r4 else .r8)
  | .bf16, .bf16 => some .bf16
  | _, _ => none

/-- The product of two elements (R52, R53). Its zero has no sign that matters. -/
def prodElem : Elem → Elem → Num
  | .nan, _ => .nan
  | _, .nan => .nan
  | .log sa ea, .log sb eb => .fin (sa != sb) (logMag (ea + eb)).1 (logMag (ea + eb)).2
  | a, b => a.num.mul b.num

/-- E of R55. -/
def fmtE (f : Nat) : Nat :=
  match f with
  | 0 => 8 | 2 => 8 | 10 => 8 | 1 => 2 | 9 => 2 | 3 => 9 | 4 => 16 | 5 => 5 | 6 => 3 | 7 => 3 | _ => 2

/-- One block of an operand as an array sees it: the scale, 32 elements, and whether an uncorrectable word makes it
contribute NaN (R109). -/
structure Blk where
  scale : Nat
  elems : List Elem
  bad   : Bool
deriving DecidableEq, Repr

/-- The sum of finite products placed on the grid 2^`q`, in units of 2^`q` (R55, R56). -/
def gridSum (q : Int) : List Num → Int
  | [] => 0
  | .fin n m e :: ps => sgnInt n (roundAt m e q) + gridSum q ps
  | _ :: ps => gridSum q ps

/-- Largest floor(log2 |p|) of the finite nonzero products (R56). -/
def emaxOf (ps : List Num) : Option Int :=
  (ps.filterMap (fun p => match p with
    | .fin _ m e => if m = 0 then none else some ((Nat.log2 m : Int) + e)
    | _ => none)).max?

/-- The grid of a block: 2^-F with F = 42 − EA − EB, or 2^(Emax − 41) for BF16 (R55, R56). -/
def gridOf (fa fb : Nat) (ps : List Num) : Int :=
  if fa = 11 then (match emaxOf ps with | none => 0 | some x => x - 41)
  else (fmtE fa : Int) + fmtE fb - 42

/-- What one block adds to an accumulator: V, or the special value of the first row of R58 that matches. -/
def blockValue (fa fb : Nat) (a b : Blk) : Num :=
  let ps := List.zipWith prodElem a.elems b.elems
  if a.bad || b.bad then .nan
  else if fa ≠ 11 ∧ (a.scale = 255 ∨ b.scale = 255) then .nan
  else if ps.any Num.isNaN then .nan
  else if ps.any (fun p => p = .inf true) && ps.any (fun p => p = .inf false) then .nan
  else if ps.any (fun p => p = .inf true) then .inf true
  else if ps.any (fun p => p = .inf false) then .inf false
  else
    let q := gridOf fa fb ps
    let s := gridSum q ps
    let x : Int := if fa = 11 then 0 else (a.scale : Int) + b.scale - 254
    .fin (decide (s < 0)) s.natAbs (q + x)

/-- Step 3 of R54: one rounding of the exact sum. -/
def accAdd (acc : F32) (v : Num) : F32 := roundF32 ((f32Num acc).add v)

/-- The blocks of one reduction, chained in ascending k (R54). -/
def accChain (acc : F32) (vs : List Num) : F32 := vs.foldl accAdd acc

end Sys2Proof.Machine
end

