-- ==== Sys2Proof/Machine/State.lean ====
section
/-! DEFINITION. Machine/State.lean: everything the spec gives the block, as plain data. A register field whose value
is simply kept lives in `regs` (its shadow in `shadow`, for STG fields, R8); what the spec describes as queues, records,
tables and units in progress has a structure of its own. -/

namespace Sys2Proof.Machine

/-- Why a step faults. No command of the spec stops the block: every error the spec describes is an effect on the state,
so nothing raises this. -/
inductive Fault where
  /-- Raised by nothing; a step that stopped for a reason the spec does not name would be safe. -/
  | none
deriving DecidableEq, Repr

/-- Why a step is refused. -/
inductive Refusal where
  /-- A command that has no meaning in the model yet, by its mnemonic. Safe: the model stops. -/
  | notModelled (mnemonic : String)
deriving DecidableEq, Repr

/-! ## Sequencers (R195 to R227) -/

/-- A record header (R134). -/
structure Hdr where
  last     : Bool
  poison   : Bool
  switchMk : Bool
  phaseMk  : Bool
  redeliv  : Bool
  phase    : Nat
  slot     : Nat
  mb       : Nat
  step     : Nat
  group    : Nat
  gen      : Nat
  variant  : Nat
  prod     : Nat
  seqOff   : Nat
  len      : Nat
  rseq     : Nat
deriving DecidableEq, Repr

/-- A header of zeros. -/
def Hdr.zero : Hdr :=
  { last := false, poison := false, switchMk := false, phaseMk := false, redeliv := false, phase := 0, slot := 0, mb := 0,
    step := 0, group := 0, gen := 0, variant := 0, prod := 0, seqOff := 0, len := 0, rseq := 0 }

/-- An entry of the watch set (R218). -/
inductive Watch where
  | off
  | record (f : Nat)
  | credit (f : Nat)
  | event (e : Nat)
deriving DecidableEq, Repr

/-- An open loop level (R214, R232). -/
structure LoopLvl where
  first : Nat
  last  : Nat
  count : Nat
deriving DecidableEq, Repr

/-- A queued DMA transfer (R251). A device end is a device address, the other kind a tile-store offset. -/
structure DmaOp where
  srcDev  : Bool
  dstDev  : Bool
  src     : Nat
  dst     : Nat
  len     : Nat
  cen     : Bool
  e       : Nat
  started : Bool
deriving DecidableEq, Repr

/-- A mode-1 load whose read has not returned (R230, R249); `val` is its data once the home landing die has read it, which it
does before a later store of the same sequencer to the granule (R18). -/
structure PendLoad where
  rd   : Nat
  addr : Nat
  size : Nat
  sx   : Bool
  val  : Option Word
deriving DecidableEq, Repr

/-- A tile-store access of LD.TS or ST.TS that follows, in slot order, accesses its own bundle has queued (R107, R213): its issue
number, whether it stores, its register, its offset and size, and for a load whether it extends the sign, for a store its data. -/
structure TsAcc where
  ino  : Nat
  wr   : Bool
  rd   : Nat
  addr : Nat
  size : Nat
  sx   : Bool
  data : List Byte
deriving DecidableEq, Repr

/-- The hidden state of one sequencer: register files, header buffers, stacks, image and what waits (R195, R197 to
R199, R216, R218). `staged` holds the slots of a bundle not complete yet, `held` the bundles waiting to issue, oldest
first (the model's own, as the table gives one slot a command); `late` the slot-3 accesses that wait for those of their own bundle
(R213); `fetchErr` the slot, code and bits of the first slot of a stepped bundle that does not decode (R208). -/
structure Seq where
  s         : KMap Word
  a         : KMap Addr
  p         : KMap Bool
  hb        : Hdr
  hbVer     : Nat
  hbFlume   : Nat
  ob        : Hdr
  ev        : KMap Nat
  watch     : KMap Watch
  loops     : List LoopLvl
  calls     : List Nat
  epc       : Nat
  ecode     : Nat
  einfo     : Nat
  cycle     : Nat
  nbundles  : Nat
  entry     : Nat
  trapEn    : Bool
  trap      : Nat
  store     : KMap (BitVec 256)
  staged    : List Instr
  held      : List (List Instr)
  waitSince : Nat
  stepping  : Bool
  dma       : List DmaOp
  loads     : List PendLoad
  stepEnded : Bool
  loadedNoNext : Bool
  ino       : Nat
  past      : Bool
  late      : List TsAcc
  fetchErr  : Option (Nat × Nat × Nat)
deriving DecidableEq, Repr

/-- A sequencer with nothing loaded. -/
def Seq.empty : Seq :=
  { s := [], a := [], p := [], hb := Hdr.zero, hbVer := 0, hbFlume := 0, ob := Hdr.zero, ev := [], watch := [], loops := [], calls := [], epc := 0,
    ecode := 0, einfo := 0, cycle := 0, nbundles := 0, entry := 0, trapEn := false, trap := 0, store := [],
    staged := [], held := [], waitSince := 0, stepping := false, dma := [], loads := [], stepEnded := false,
    loadedNoNext := false, ino := 0, past := false, late := [], fetchErr := none }

/-! ## Arrays and the sap line (R67 to R97) -/

/-- One operand block of a product descriptor (R236). -/
structure OpBlk where
  addr    : Nat
  stride  : Nat
  scale   : Nat
  sstride : Nat
  exp     : Nat
deriving DecidableEq, Repr

/-- An admitted operand row whose accumulators are not written yet: for each column, its block values in ascending k
(R68, R72). -/
structure FlightRow where
  m    : Nat
  pass : Nat
  vals : List (List Num)
deriving DecidableEq, Repr

/-- A chunk that the PEs hold: the blocks of each column for one pass (R68). -/
structure Chunk where
  pass : Nat
  cols : List (List Blk)
deriving DecidableEq, Repr

/-- An array instruction that an array, raft or quadrant has taken (R68 to R84). `raft` is 1, 2, 4 or 8. -/
structure ArrOp where
  seq    : Nat
  ino    : Nat
  raft   : Nat
  quad   : Option Nat
  fa     : Nat
  fb     : Nat
  t      : Nat
  M      : Nat
  N      : Nat
  K      : Nat
  init   : Bool
  a      : OpBlk
  b      : OpBlk
  xa     : Option ExpDesc
  xb     : Option ExpDesc
  loaded : Nat
  pass   : Nat
  row    : Nat
  chunks : List Chunk
  flight : List FlightRow
deriving DecidableEq, Repr

/-- The states of the activity ramp (R94). -/
inductive LvlMode where
  | idle
  | rising
  | full
  | falling
deriving DecidableEq, Repr

/-- An array: what it runs, whether it is quartered, and its activity ramp (R93 to R97). `sum8` and `adm` count from
the start of the ramp, in eighths of an admission and in admissions; `g` is the ramp length that the ramp took; `nextAdmit` is the
first ac of the next admission, `quadNext` that of each quadrant's next row (R70, R82). -/
structure Arr where
  ops       : List ArrOp
  quartered : Bool
  level     : Nat
  mode      : LvlMode
  sum8      : Nat
  adm       : Nat
  acLvl     : Nat
  g         : Nat
  nextAdmit : Nat
  quadNext  : KMap Nat
  noRowAc   : Nat
  filling   : Bool
deriving DecidableEq, Repr

/-- An array after reset: unquartered, idle, at level 0 (R83). -/
def Arr.empty : Arr :=
  { ops := [], quartered := false, level := 0, mode := .idle, sum8 := 0, adm := 0, acLvl := 0, g := 32, nextAdmit := 0,
    quadNext := [], noRowAc := 0, filling := false }

/-- The SAP.MV in progress (R87 to R92). `acc` holds the running Y values of the group by vector. -/
structure SapOp where
  seq    : Nat
  fw     : Nat
  fx     : Nat
  init   : Bool
  V      : Nat
  N      : Nat
  K      : Nat
  w      : Nat
  ws     : Nat
  x      : Nat
  xs     : Nat
  xsc    : Nat
  y      : Nat
  ys     : Nat
  xw     : Option ExpDesc
  cen    : Bool
  e      : Nat
  xv     : Option (List (List Blk))
  group  : Nat
  kb     : Nat
  bad    : Bool
  acc    : List (List F32)
deriving DecidableEq, Repr

/-- The sap line of a die: what it runs and the sequencer it served last (R91). -/
structure Sap where
  op   : Option SapOp
  last : Nat
deriving DecidableEq, Repr

/-! ## Glaze units (R110 to R128) -/

/-- A source of a chain (R112); the value of a scalar source is read at issue. -/
structure GSrc where
  fmt    : Nat
  kind   : Nat
  index  : Nat
  addr   : Nat
  stride : Nat
  scale  : Nat
  val    : F32
deriving DecidableEq, Repr

/-- A sink of a chain (R113). -/
structure GSink where
  fmt     : Nat
  kind    : Nat
  index   : Nat
  tag     : Nat
  expMode : Bool
  check   : Bool
  maskZ   : Bool
  addr    : Nat
  sreg    : Nat
  stride  : Nat
  scale   : Nat
deriving DecidableEq, Repr

/-- A stage entry (R114). -/
structure GStage where
  imm : F32
  fmt : Nat
  c   : Nat
  b   : Nat
  a   : Nat
  op  : Nat
deriving DecidableEq, Repr

/-- The header of a chain descriptor (R111). -/
structure GHead where
  version : Nat
  nstages : Nat
  quarter : Nat
  extent  : Nat
  rows    : Nat
  m0      : Nat
  maskEn  : Bool
  rangeEn : Bool
  mv      : Nat
  nv      : Nat
  mask    : Nat
  redAcc  : Bool
  redAxis : Bool
  redOp   : Nat
  red     : Nat
deriving DecidableEq, Repr

/-- One lane of a group in flight: its element, the value the sinks receive, whether it is masked, and the overflow,
invalid and saturation events its stages counted (R127). -/
structure Lane where
  m      : Nat
  n      : Nat
  val    : F32
  masked : Bool
  ovf    : Nat
  inv    : Nat
  sat    : Nat
deriving DecidableEq, Repr

/-- A queued or running chain (R110). `rowVecs` are the row vectors read once per chain (R112), by source; `kept` the
values a reduction still needs. -/
structure Chain where
  seq     : Nat
  ino     : Nat
  mask    : List Byte
  head    : GHead
  srcs    : List GSrc
  sinks   : List GSink
  stages  : List GStage
  cen     : Bool
  e       : Nat
  entered : Nat
  written : Nat
  rowVecs : List (List (F32 × Bool))
  flight  : List (List Lane)
  kept    : KMap F32
deriving DecidableEq, Repr

/-- A queued table load (R247). -/
structure TblLoad where
  seq  : Nat
  ino  : Nat
  tbl  : Nat
  addr : Nat
  cen  : Bool
  e    : Nat
deriving DecidableEq, Repr

/-- What a glaze unit starts next, in issue order (R110, R247). -/
inductive GlzItem where
  | chain (c : Chain)
  | table (t : TblLoad)
deriving DecidableEq, Repr

/-- A glaze unit: its queue, what it runs, oldest first, and its four lookup tables (R117), entry 256 × table + i. -/
structure Glz where
  queue : List GlzItem
  run   : List GlzItem
  luts  : KMap F32
deriving DecidableEq, Repr

/-- A register field: the bit address 8 × offset + lo at which it lies in BAR0, and its width (R6). -/
structure Fld where
  a : Nat
  w : Nat
deriving DecidableEq, Repr

/-! ## Flumes (R131 to R164) -/

/-- A slot of a flume from its reservation to its release (R137, R143, R146). `owner` and `holder` are the sequencers
4n + q that reserved and that took it (96 + c for the host stage of context c). `sent` is set by FLM.CMT, `cmt` when the
commit has reached the home landing die, `ready` when the notice has reached the consumer (R141). `bad` says a payload
write returned an uncorrectable indication (R135); `pin` is the generation VER.PIN pinned for it (R176). -/
structure FlmRec where
  hdr    : Hdr
  owner  : Nat
  holder : Nat
  sent   : Bool
  cmt    : Bool
  ready  : Bool
  held   : Bool
  spill  : Bool
  slot   : Nat
  bad    : Bool
  pin    : Option Nat
deriving DecidableEq, Repr

/-- The hidden state of one flume: its records in order, the credits taken and not returned at the producer end and
those on their way back (R141, R146), a spill copy in progress (record's reservation index and store slot, R143), how
long it has been HELD and why (R158), the copies a remote producer keeps until they are acknowledged and the next rseq
a remote consumer expects (R148, R149), and the foreman's run of steps with its sign (R157). `was` is the channel that a closed
remote flume had (R162), `zero` the regions that its close zeroes (R158). -/
structure Flume where
  recs      : List FlmRec
  out       : Nat
  ret       : Nat
  copy      : Option (Nat × Nat)
  heldSince : Nat
  linkDown  : Bool
  opening   : Bool
  halfDown  : Bool
  peerHeld  : Bool
  mismatch  : Bool
  staged    : List FlmRec
  expect    : Nat
  peer      : Option (Nat × Nat × Nat × Nat)
  peerAck   : Bool
  was       : Option Nat
  zero      : List (Nat × Nat)
  run       : Nat
  runSlow   : Bool
deriving DecidableEq, Repr

/-- A flume that holds nothing. -/
def Flume.empty : Flume :=
  { recs := [], out := 0, ret := 0, copy := none, heldSince := 0, linkDown := false, opening := false, halfDown := false, peerHeld := false,
    mismatch := false, staged := [], expect := 0, peer := none, peerAck := false, was := none,
    zero := [], run := 0, runSlow := false }
/-! ## Cut tables, the norm and the verdict (R261 to R285, R300 to R307) -/

/-- A cut table as S0 read it: the header, the rows and the layer list (R261 to R263). -/
structure CutTable where
  hdr    : List Byte
  rows   : List (List Byte)
  layers : List (List Byte)
deriving DecidableEq, Repr

/-- What S0 keeps of a context's job between its events. Norm chain (R283): whether the module takes part, with the table it
uses, and a message (acc, strip, hops) that came too soon. Norm block of the row areas (R285): flags and step. Verdict
(R300 to R307): forced skip, half-reset cause, verdict point reached with its cause bits and step amax by scale id, a chain
message that came too soon. `redraw` is the table and the runs of steps that a foreman move replaced (R305); `drawn` and `moves` are the
table the foreman has drawn and not committed yet, and the moves (row of the giver, row of the taker, first layer, layers) that led to it
(R266, R271). Telemetry (R543): the counts at the start of the step, the expert counts of the last boundary and the last slot's values.
`lost` names the modules reported lost (R544); `done` is the last committed step (R369), `redrawn` the one
at which the job was redrawn (R370); `remake` holds the flumes that a redraw creates
again, with the descriptor fields they get (R272). -/
structure Job where
  ready   : Bool
  ntab    : Option CutTable
  nmsg    : Option (Nat × Nat × Nat)
  nflags  : Nat
  nstep   : Nat
  forced  : Bool
  rstHalf : Bool
  point   : Bool
  cause   : Nat
  amax    : List (Nat × Nat)
  vmsg    : Option (Nat × List (Nat × Nat))
  redraw  : Option (CutTable × List (Nat × Nat × Bool))
  drawn   : Option CutTable
  moves   : List (List Byte × List Byte × Nat × Nat)
  poison0 : Nat
  ver0    : Nat
  experts : List (Nat × Nat)
  tel     : List Byte
  telExp  : List (Nat × Nat)
  lost    : List Nat
  done    : Option Nat
  redrawn : Option Nat
  remake  : List (Nat × List Nat)
deriving DecidableEq, Repr

/-- A context without a job. -/
def Job.empty : Job :=
  { ready := false, ntab := none, nmsg := none, nflags := 0, nstep := 0, forced := false, rstHalf := false, point := false,
    cause := 0, amax := [], vmsg := none, redraw := none, drawn := none, moves := [], poison0 := 0, ver0 := 0, experts := [], tel := [],
    telExp := [], lost := [], done := none, redrawn := none, remake := [] }

/-! ## Hauling (R318 to R342) -/

/-- Where a haul request comes from: its ring, a re-haul of a quarantine entry (R340), or a refill of a version slot (R188). -/
inductive HOrigin where
  | ring
  | rehaul (j : Nat)
  | refill (l slot : Nat)
deriving DecidableEq, Repr

/-- A read of one part (up to 1 MiB) of a billet: whether it has failed once, the I/O queue it is on or failed on, and whether it is in flight
(R325, R326). -/
structure HRead where
  billet : Nat
  part   : Nat
  again  : Bool
  queue  : Nat
  sent   : Bool
deriving DecidableEq, Repr

/-- A billet being fetched: parts asked for and come, failed attempts, the stored bytes of the parts that have come, those that wait for a gated haul
die (R494), and whether the windows have refused one of its writes (R328, R332). -/
structure HBillet where
  i      : Nat
  asked  : Nat
  got    : Nat
  tries  : Nat
  parts  : List (Nat × List Byte)
  late   : List Nat
  barred : Bool
deriving DecidableEq, Repr

/-- A billet of which nothing has been asked for. -/
def HBillet.fresh (i : Nat) : HBillet := { i := i, asked := 0, got := 0, tries := 0, parts := [], late := [], barred := false }

/-- A request in progress. `phase` is 0 until the manifest is checked, 1 while billets are fetched, 2 when the entry can be
completed; `man` is what has come of the manifest, `mread` its read that is in flight or waits to be tried again (R326); `keys` the
stand key and the manifest key, held until the request completes (R323); `next` is the next billet to fetch, `status` the code so far (R330 to
R333). -/
structure HaulReq where
  origin : HOrigin
  entry  : List Byte
  man    : List Byte
  mread  : Option HRead
  keys   : Option (List Byte × List Byte)
  phase  : Nat
  next   : Nat
  opn    : List HBillet
  reads  : List HRead
  bad    : Nat
  status : Nat
deriving DecidableEq, Repr

/-- A haul channel: its request and the foreman's requests that wait, oldest first (R330, R340). -/
structure Haul where
  req : Option HaulReq
  fq  : List (HOrigin × List Byte)
deriving DecidableEq, Repr

/-- What a stand record keeps beside its registers: the entries of the requests whose billets it holds, newest first, the device addresses of those
billets (R337, R338), whether a scrub pass runs, the ranges that hauls have written since it began (R341), and the billets that are bad and not yet
repaired, with the addresses they land at (R344). -/
structure HRec where
  entries : List (List Byte)
  spans   : List (Nat × Nat)
  pass    : Bool
  skip    : List (Nat × Nat)
  bads    : List (Nat × Nat)
deriving DecidableEq, Repr

/-- A record that holds nothing. -/
def HRec.empty : HRec := { entries := [], spans := [], pass := false, skip := [], bads := [] }

/-- The entry of a record's latest request. -/
def HRec.entry (x : HRec) : List Byte := x.entries.headD []

/-! ## Checkpoints and buddy copies (R346 to R372) -/

/-- A storage or far-tier write that is not durable yet, and whether it has been retried (R360). -/
structure CkWrite where
  off   : Nat
  data  : List Byte
  again : Bool
deriving DecidableEq, Repr

/-- What S0 keeps of a context's attempt, restore and buddy copy. Attempt and restore: the checkpoint key (R358). Attempt: the module record (R350),
whether a module lost has broken it (R372), the layers not read yet with their positions, in ascending order (R360), the next offset in the region, the shard-list entries, writes not durable, the own part entry once the shard
list is issued, the tally chain received, and the tally once written (length, digest), the commit record once issued. Buddy
copy being sent: positions left, offset, its step, whether it is not acknowledged; being held: whether its last message has
come, and its step, and whether it does not fit its bank. Restore: the lowest sequence number tried and the highest complete one, the candidate's commit record and its tally's step, the own
result and the results chained, the module-record entries read. -/
structure Ckpt where
  key     : Option (List Byte)
  recd    : List Byte
  reading : Bool
  broken  : Bool
  todo    : List ((Nat × Nat) × Nat)
  cur     : Nat
  list    : List (List Byte)
  writes  : List CkWrite
  part    : Option (List Byte)
  chain   : Option (List Byte)
  tally   : Option (Nat × List Byte)
  crec    : Bool
  bread   : Bool
  btodo   : List (Nat × Nat)
  boff    : Nat
  bstep   : Nat
  bwait   : Bool
  bin     : Option Nat
  bover   : Bool
  tried   : Option Nat
  top     : Option Nat
  cand    : Option (List Byte)
  tstep   : Nat
  res     : Option Nat
  chainR  : Option Nat
  modrec  : List (List Byte)
deriving DecidableEq, Repr

/-- Nothing in progress. -/
def Ckpt.empty : Ckpt :=
  { key := none, recd := [], reading := false, broken := false, todo := [], cur := 0, list := [], writes := [], part := none, chain := none,
    tally := none, crec := false, bread := false, btodo := [], boff := 0, bstep := 0, bwait := false, bin := none, bover := false,
    tried := none, top := none, cand := none, tstep := 0, res := none, chainR := none, modrec := [] }


/-! ## Links (R398 to R423) -/

/-- A sequenced frame with its sequence number, what it says, and its 256 bytes as they went out (R401 to R403, R413). -/
structure SkwFrame where
  seq   : Nat
  typ   : Nat
  body  : List Nat
  bytes : List Byte
deriving DecidableEq, Repr

/-- A reduction message that is not acknowledged yet (R404, R410). -/
structure SkwMsg where
  ctx  : Nat
  num  : Nat
  kind : Nat
  body : List Nat
deriving DecidableEq, Repr

/-- What an end of a Skidway link keeps beside its registers (R403 to R413): the next number to send and to accept; the replay
buffer; the frames that wait, with their classes, the frames sent since a bulk one and the channel served last; bytes 0 to 251 of the frames
of the open secure block and the blocks of both directions; the frame resent last and how often; frames accepted since the
last ACK; when the last NAK went; when TAG checks failed; FAILED until retrain; the own nonce; a peer accepted in CAPS; a re-key
under way; the keys of the sending and the receiving direction; the kid and nonce of the peer and the shared secret; the sending key that takes over
at the next block boundary, and whether its marker is in the open block (R413); the messages not acknowledged; a DOWN notice received; the frames
discarded for their channel (R405). -/
structure SkwLink where
  tx     : Nat
  rx     : Nat
  replay : List SkwFrame
  queue  : List (Nat × Nat × List Nat)
  bulk   : Nat
  served : Nat
  opened : List (List Byte)
  txBlk  : Nat
  rxBlk  : Nat
  resent : Nat × Nat
  unack  : Nat
  nakAt  : Option Nat
  fails  : List Nat
  locked : Bool
  nonce  : Nat
  caps   : Bool
  rekey  : Bool
  keys   : Option (List Byte × List Byte)
  peer   : Nat × Nat
  secret : List Byte
  newKey : Option (List Byte)
  marked : Bool
  red    : List SkwMsg
  notice : Bool
  strays : Nat
deriving DecidableEq, Repr

/-- A link without a session. -/
def SkwLink.empty : SkwLink :=
  { tx := 0, rx := 0, replay := [], queue := [], bulk := 0, served := 8191, opened := [], txBlk := 0, rxBlk := 0, resent := (0, 0),
    unack := 0, nakAt := none, fails := [], locked := false, nonce := 0, caps := false, rekey := false, keys := none, peer := (0, 0), secret := [],
    newKey := none, marked := false, red := [], notice := false, strays := 0 }

/-- Frames of the open secure block (R413). -/
def SkwLink.block (x : SkwLink) : Nat := x.opened.length

/-- What an end of a landing-die link has sent (R417): the number of its next flit, the flits that it keeps for a resend (number, kind, packet),
oldest first, and the flits that it has accepted and not acknowledged yet. -/
structure SpnTx where
  next : Nat
  kept : List (Nat × Nat × Nat)
  got  : Nat
deriving DecidableEq, Repr

/-- An end that has sent nothing. -/
def SpnTx.empty : SpnTx := { next := 0, kept := [], got := 0 }

/-- An end of a landing-die link in training: its claim, its round, the claim the peer sent in this round, and whether it
has agreed (R418). -/
structure SpnEnd where
  busy   : Bool
  round  : Nat
  mask   : Nat
  peer   : Option (Nat × Nat)
  agreed : Bool
deriving DecidableEq, Repr

/-- An end that does not train. -/
def SpnEnd.empty : SpnEnd := { busy := false, round := 0, mask := 0, peer := none, agreed := false }

/-- What the steward keeps of a partner site: the descriptor read (whether it is valid, version, kind, most outstanding requests), the
outcome of SPDM (digest of the chain's root, and whether the challenge passed) and the requests that wait (R422, R423). -/
structure Part where
  valid  : Bool
  ver    : Nat
  kind   : Nat
  most   : Nat
  root   : List Byte
  spdm   : Bool
  wait   : List PartReq
deriving DecidableEq, Repr

/-- A packet between landing dies that is not acknowledged (R17, R20): its link sequence number, its source (sequencer k, or 96 for
S0), what it is for (0 an access that completes at once, 1 a load, 2 a DMA, 3 a commit), the landing dies it leaves and goes to, the links of
its path, and how often it was sent. -/
structure Packet where
  seq     : Nat
  src     : Nat
  use     : Nat
  here    : Nat
  home    : Nat
  path    : List Nat
  copies  : Nat
deriving DecidableEq, Repr

/-- A site of which nothing is known. -/
def Part.empty : Part := { valid := false, ver := 0, kind := 0, most := 0, root := [], spdm := false, wait := [] }

/-- A core sample being gathered: the code, S0's tick at detection, and the halves that are absent (R538, R542). -/
structure Sample where
  code : Nat
  tick : Nat
  gone : List Nat
deriving DecidableEq, Repr

/-! ## The host interface (R429 to R462) -/

/-- A command fetched from a submission ring: its number among the context's fetched commands, the ring index after it, and its
64 bytes (R443, R444). -/
structure RCmd where
  num   : Nat
  after : Nat
  entry : List Byte
deriving DecidableEq, Repr

/-- A submission ring beside its registers: entries asked for, commands fetched, oldest first (the first one runs), whether that one
waits, whether its host read is out, and its completion (status, result0, result1) once it has one (R444, R445). -/
structure SRing where
  asked : Nat
  cmds  : List RCmd
  waits : Bool
  io    : Bool
  done  : Option (Nat × Nat × Nat)
deriving DecidableEq, Repr

/-- A ring that holds nothing. -/
def SRing.empty : SRing := { asked := 0, cmds := [], waits := false, io := false, done := none }

/-- A completion ring beside its registers: the phase of the next entry, and the entries written since the last vector (R445, R448). -/
structure CRing where
  phase : Bool
  since : Nat
deriving DecidableEq, Repr

/-- A PCIe function: Bus Master Enable, MSI-X Enable and Function Mask (R432, R447). -/
structure Fn where
  master : Bool
  msix   : Bool
  fmask  : Bool
  d3     : Bool
deriving DecidableEq, Repr

/-- A function as a reset leaves it: in D0, with nothing enabled. -/
def Fn.off : Fn := ⟨false, false, false, false⟩

/-- True while the function may reach host memory: Bus Master Enable, in D0 (R432; D3hot PRESUMED, PCIe). -/
def Fn.bme (f : Fn) : Bool := f.master && !f.d3

/-- An order: its kind and argument, and whose it is: 0 the host's, 1 the management controller's, 3 one whose result its master no longer reads,
having given a later one, 2 that of the block itself (a conventional
reset that makes a module warm reset, R505). Kind 15 is a conventional reset that waits for Bake (R509). -/
structure Order where
  kind : Nat
  arg  : Nat
  src  : Nat
deriving DecidableEq, Repr

/-! ## Security (R464 to R486) -/

/-- An SPDM request that can be deferred (R474, R478). -/
inductive SpdmReq where
  | algorithms (asym hash meas : Nat)
  | digests
  | certificate (slot off len : Nat)
  | challenge (slot nonce : Nat)
  | measurements (index : Nat) (sign : Bool) (slot nonce : Nat)
deriving DecidableEq, Repr

/-- Connection state of one requester on one transport: how far it has negotiated (0 nothing, 1 version, 2 capabilities, 3
algorithms), whether its next request is answered with RequestResynch, and its deferred requests by token (R474, R478, R479). -/
structure Conn where
  stage  : Nat
  resync : Bool
  defer  : List (Nat × SpdmReq)
deriving DecidableEq, Repr

/-- Firmware beside its registers: the package in each bank, whole, where an update has brought it; the selected bank; the bank that an update in
progress writes; what happened to the staged package in this command slot (0 nothing, 1 activated, 2 cancelled); and whether the
other bank is selected at the next module warm reset (R471, R472, R484, R485). -/
structure Fw where
  banks  : KMap (List Byte)
  sel    : Nat
  upd    : Option Nat
  slot   : Nat
  revert : Bool
deriving DecidableEq, Repr

/-! ## The Scaler and apportionment (R512 to R530) -/

/-- The Scaler: whether it runs; the finer energy register in µWh (DESIGN CHOICE, log entry 80); records signed, seconds, newest
event number, the log, newest first; the two flags; its identity and certificates; the pulses given (R514 to R521). -/
structure Scaler where
  on      : Bool
  fine    : Nat
  seq     : Nat
  secs    : Nat
  evt     : Nat
  log     : List (List Byte)
  broken  : Bool
  stopped : Bool
  fwid    : Nat
  cksum   : Nat
  serial  : Nat
  cert    : List Byte
  pulses  : Nat
deriving DecidableEq, Repr

/-- What S0 keeps of apportionment: the last record processed, whether the next interval is a gap, each context's total, closed
total and instance number, overhead, intervals, the activity since the last boundary in pJ, and the counters at their last
sample with their owner then, 0 for none, c + 1 for a context (R523 to R527). -/
structure Meter where
  prev      : Option (List Byte)
  gap       : Bool
  total     : KMap Nat
  closed    : KMap Nat
  inst      : KMap Nat
  overhead  : Nat
  intervals : Nat
  act       : KMap Nat
  last      : KMap (Nat × Nat)
deriving DecidableEq, Repr

/-- Nothing metered. -/
def Meter.empty : Meter :=
  { prev := none, gap := false, total := [], closed := [], inst := [], overhead := 0, intervals := 0, act := [], last := [] }


/-! ## Errors and what leaves the block (R531 to R546) -/

/-- One entry of the RAS log (R537). -/
structure LogEntry where
  seq    : Nat
  code   : Nat
  cls    : Nat
  ctx    : Option Nat
  tick   : Nat
  half   : Nat
  unit   : Nat
  index  : Nat
  detail : Nat
deriving DecidableEq, Repr

/-! ## The manufacturing record (R4, R465) -/

/-- The signed manufacturing record: serial, variant, grade, fills, coolant, disabled arrays (bit 8n + a set when array
A(a) of CD(n) works), stepping, the ports' MAC addresses, the SHA-384 of the identity public keys of dies (by 64 times its kind and its index; that of a die without an entry
is the digest of the key it has: log entry 153), the DeviceID and Skidway identity certificates and the record's signature; with it the other immutable sealed items: the device identity secret, the binding key root, the
Skidway identity key and the far-tier key pairs. -/
structure Record where
  serial    : Nat
  stepping  : Nat
  nstacks   : Nat
  nedges    : Nat
  grade     : Nat
  u0Partner : Bool
  u1Partner : Bool
  warm      : Bool
  working   : Nat
  debugClosed : Bool
  macs      : List Nat
  haul      : List Bool
  dieKeys   : KMap (List Byte)
  devCert   : List Byte
  skwCert   : List Byte
  sig       : List Byte
  idSecret  : List Byte
  bindRoot  : List Byte
  skwKey    : Nat
  farKeys   : List (List Byte)
deriving DecidableEq, Repr

/-- The binding key: the private scalar derived from the binding key root (R467). HKDF without a salt is a DESIGN CHOICE (log entry 153). -/
def Record.bindKey (m : Record) : Nat := ecScalar (hkdf384 [] m.bindRoot (ascii "Caerlen binding v1") 56)

/-- The DeviceID key (R467). -/
def Record.deviceKey (m : Record) : Nat := ecScalar (hkdf384 [] m.idSecret (ascii "Caerlen deviceid v1") 56)

/-- The binding public key, 97 bytes in uncompressed SEC1 form (R320, R467). -/
def Record.publicKey (m : Record) : List Byte := ecPublic m.bindKey

/-- A kid: the first 16 bytes of the SHA-384 of a public key in uncompressed SEC1 form (R320). -/
def kidOf (key : List Byte) : List Byte := (sha384 key).take 16

/-- The items of the manufacturing record (R465), as a list of numbers. -/
def Record.items (m : Record) : List Nat :=
  [m.serial, m.stepping, m.nstacks, m.nedges, m.grade, (if m.u0Partner then 1 else 0), (if m.u1Partner then 1 else 0), (if m.warm then 1 else 0), m.working,
   (if m.debugClosed then 1 else 0)] ++ m.macs ++ m.haul.map (fun b => if b then 1 else 0)
    ++ m.dieKeys.flatMap (fun e => [e.1, leNat e.2]) ++ [leNat m.devCert, leNat m.skwCert, leNat m.sig]

/-- The words of SEC_BKEY (R485). -/
def Record.bkey (m : Record) : List Nat := (List.range 13).map (fun j => leNat ((m.publicKey.drop (8 * j)).take 8))

/-- The words of SEC_BKID (R485). -/
def Record.bkid (m : Record) : List Nat := (List.range 2).map (fun j => leNat (((kidOf m.publicKey).drop (8 * j)).take 8))

/-- SEC_SKID: the first 8 bytes of the Skidway identity kid (R485). -/
def Record.skid (m : Record) : Nat := leNat ((kidOf (ecPublic m.skwKey)).take 8)

/-- What leaves the block, newest first in `State.out` (the model's own record of its outputs): an MSI-X vector of a
function (R447), a write to host memory, a frame or message on a link, a read request, a response. -/
inductive Out where
  | vector (ctx vec : Nat)
  | hostWrite (ctx addr : Nat) (data : List Byte)
  | hostRead (ctx addr len tag : Nat)
  | frame (link kind : Nat) (body : List Nat)
  | ethFrame (port kind : Nat) (body : List Nat)
  | nvme (src : Nat) (op addr len : Nat)
  | fabric (src transport cage : Nat) (desc : List Byte)
  | store (src addr : Nat) (enc : Bool) (data : List Byte)
  | flit (link kind : Nat) (body : List Nat)
  | site (u kind : Nat) (body : List Nat)
  | pcie (kind : Nat) (body : List Nat)
  | message (kind : Nat) (body : List Nat)
  | pin (name value : Nat)
deriving DecidableEq, Repr

/-- The state of the block. `pending` is the queue of commands, `out` what has left the block, newest first. `now`
counts ac since power was applied; `tick0` is the ac at which each half's local counter was last zero. `free` is the
model's own counter of the free values it has taken. `bad` and `plist` are the bad units (R385, R389), `soft` the words of HBM, flume
and tile stores with a single-bit error (R384, R109), `linkErr` the far-tier granules whose next read meets a double error on the
link (R390); `tileBad` and `tileSoft` are the like words of the tile registers; `pkts` the packets under way between landing dies, oldest
first (R17); `scaleDue` the scale registers of a reset half (die, index, context, scale id) that are still to be copied (R307). `srcConn` holds
each source's connection descriptor (R326), `idKeys` the identity key that each die holds, by 64 times its kind and its index (R464), `farKey` the
key registers of the far-memory dies (R468).
`mfg1` is S1's copy of the record (R465), `recov` the halves in recovery (R473), `ownHid` the dies whose ownership registers a PF FLR has reset
while their teardown runs (R462), `haulTurn` the channel that a source served last (R336), `ethPause` and `ethHeld` the ports whose storage
priority is paused and what they hold back (R414), `spnTx` the flits of a landing-die link's end (R417), `redTx` and `redRx` the numbers of the
next reduction messages (R410), `vfOn` VF Enable (R437), `b4size` the sizes of BAR4 (R433) and `tid` the PLDM terminus id (R459). -/
structure State where
  pending : List Instr
  out     : List Out
  now     : Nat
  tick0   : KMap Nat
  free    : Nat
  regs    : KMap Nat
  shadow  : KMap Nat
  mem     : KMap Byte
  bad     : List Nat
  soft    : List Nat
  plist   : List Nat
  linkErr : List Nat
  tiles   : KMap F32
  tileBad : List Nat
  tileSoft : List Nat
  pkts    : List Packet
  pktNext : Nat
  seqs    : KMap Seq
  arrs    : KMap Arr
  raft    : KMap Nat
  saps    : KMap Sap
  glzs    : KMap Glz
  flumes  : KMap Flume
  log     : List LogEntry
  mfg     : Record
  mfg1 : Record
  oldWin  : KMap (List (Nat × Nat × Bool × Bool))
  halfRst : KMap Bool
  recov   : KMap Bool
  dieRst  : KMap Bool
  phaseIn  : KMap (List (Nat × Nat))
  phaseOut : KMap (List (Nat × Nat))
  cutForce : KMap (Option CutTable)
  cutPend : KMap (Option CutTable)
  jobs    : KMap Job
  owed    : KMap Bool
  redTx   : KMap Nat
  redRx : (KMap Nat)
  sctlPend : KMap (List SctlVal)
  scaleDue : List (Nat × Nat × Nat × Nat)
  pinEnd  : KMap Nat
  refill  : KMap Nat
  limitAt : KMap Nat
  unitAdm : KMap (Nat × Nat)
  hauls   : KMap Haul
  haulTurn : KMap Nat
  ckpts   : KMap Ckpt
  hrecs   : KMap HRec
  quarLen : KMap (Nat × Nat)
  srcConn : KMap (List Byte)
  idKeys  : KMap Nat
  farKey  : KMap Nat
  links   : KMap SkwLink
  ethRate : KMap (Nat × Nat)
  ethPause : KMap Bool
  ethHeld : KMap (List Out)
  spn     : KMap SpnEnd
  spnBurst : KMap (List Nat)
  spnTx : (KMap SpnTx)
  parts   : KMap Part
  sample  : Option Sample
  hbmHot  : KMap Bool
  srings  : KMap SRing
  crings  : KMap CRing
  fetched : KMap Nat
  fns     : KMap Fn
  vfOn : Bool
  vfs     : Nat
  b4size : Nat × Nat
  msixTab : KMap (Nat × Nat)
  unmask  : KMap Bool
  pba     : KMap Bool
  linkUp  : Bool
  boot    : Nat
  hostOrd : List Order
  mgmtOrd : List Order
  mgmtRes : Nat × Nat
  won     : List Order
  ownHid : List Nat
  refclk  : Bool
  offBy   : Nat
  bootEvt : Nat
  wasRun  : List Nat
  rerun   : List Nat
  halfBack : KMap Bool
  inHold  : Bool
  coolHold : Bool
  leakHold : Bool
  tripped : Bool
  slotId  : Nat
  tid : Nat
  eid     : Nat
  i3c     : Option Nat
  fw      : Fw
  picture : List (Nat × Nat)
  spdm    : KMap Conn
  tokens  : Nat
  scaler  : Scaler
  wire    : Option (List Byte)
  meter   : Meter
  mtrRec  : KMap (List Byte)
  mtrLog  : KMap (List Byte)
  stmts   : KMap (List Byte)
deriving DecidableEq, Repr

/-- The record of the modelled part: CX4-M24-E6-A192-HH-C with every array working (DESIGN CHOICE, log entry 2). -/
def Record.full : Record :=
  { serial := 1, stepping := 0, nstacks := 6, nedges := 6, grade := 0, u0Partner := false, u1Partner := false, warm := false,
    working := 2 ^ 192 - 1, debugClosed := true, macs := [], haul := [true, true], dieKeys := [], devCert := [], skwCert := [],
    sig := List.replicate 96 0, idSecret := List.replicate 48 0, bindRoot := List.replicate 32 0, skwKey := 1,
    farKeys := List.replicate 2 (List.replicate 64 0) }

/-- A Scaler that has signed nothing and does not run yet (R512; log entry 80). -/
def Scaler.fresh : Scaler :=
  { on := false, fine := 0, seq := 0, secs := 0, evt := 0, log := [], broken := false, stopped := false, fwid := 0, cksum := 0, serial := 1,
    cert := [], pulses := 0 }

/-- The block right after reset: every register field at its reset value, every memory at what an unlisted address reads, nothing
queued; the start-up of R508 has not run, so no context exists and the port is not ready. Values that no reset column gives are
those of log entries 2, 3 and 80. -/
def State.reset : State :=
  { pending := [], out := [], now := 0, tick0 := [], free := 0, regs := [], shadow := [], mem := [], bad := [], soft := [], plist := [],
    linkErr := [], tiles := [], tileBad := [], tileSoft := [], pkts := [], pktNext := 0, seqs := [], arrs := [], raft := [], saps := [], glzs := [], flumes := [], log := [], mfg1 := Record.full, mfg := Record.full, oldWin := [],
    halfRst := [], recov := [], dieRst := [], phaseIn := [], phaseOut := [], cutForce := [], cutPend := [], jobs := [], owed := [], redRx := [], redTx := [],
    sctlPend := [], scaleDue := [], pinEnd := [], refill := [], limitAt := [], unitAdm := [], haulTurn := [], hauls := [], ckpts := [], hrecs := [], quarLen := [], srcConn := [], idKeys := [], farKey := [],
    links := [], ethHeld := [], ethPause := [], ethRate := [], spn := [], spnTx := [], spnBurst := [], parts := [], sample := none, hbmHot := [], srings := [], crings := [],
    fetched := [], vfOn := false, fns := [], b4size := (30, 30), vfs := 0, msixTab := [], unmask := [], pba := [], linkUp := false, boot := 0, hostOrd := [], mgmtOrd := [],
    mgmtRes := (0, 0), ownHid := [], won := [], refclk := true, offBy := 0, bootEvt := 0, wasRun := [], rerun := [], halfBack := [], inHold := false,
    coolHold := false, leakHold := false, tripped := false, tid := 0, slotId := 0, eid := 0x10, i3c := none,
    fw := { banks := [], sel := 0, upd := none, slot := 0, revert := false }, picture := [], spdm := [], tokens := 0,
    scaler := Scaler.fresh, wire := none, meter := Meter.empty, mtrRec := [], mtrLog := [], stmts := [] }

end Sys2Proof.Machine
end

