-- ==== Sys2Proof/Machine/RegMap.lean ====
section
/-! DEFINITION. Machine/RegMap.lean: where every register field of BAR0 lies and what it resets to (R98, R129, R131,
R165, R166, R193, R227, R290, R315, R316, R343, R344, R373, R374, R396, R426, R427, R450, R461, R462, R485, R510, R529,
R546, R560). A field is named REGISTER.field and takes the register's indices. -/

namespace Sys2Proof.Machine

namespace R

def MMA_CTL.filler_en (n : Nat) : Fld := ⟨8 * (0x2001000 + 0x80000 * n) + 15, 1⟩
def MMA_CTL.ramp_len (n : Nat) : Fld := ⟨8 * (0x2001000 + 0x80000 * n), 7⟩
def MMA_EXPSAT.count (n i : Nat) : Fld := ⟨8 * (0x2001040 + 0x80000 * n + 0x8 * i), 48⟩
def MMA_ACT.count (n i : Nat) : Fld := ⟨8 * (0x2001100 + 0x80000 * n + 0x8 * i), 48⟩
def MMA_FILL.count (n a : Nat) : Fld := ⟨8 * (0x2001180 + 0x80000 * n + 0x8 * a), 48⟩
def MMA_CNT_CLR.clear (n : Nat) : Fld := ⟨8 * (0x20010f0 + 0x80000 * n), 9⟩
def GLZ_STEPFLAG.sat (n : Nat) : Fld := ⟨8 * (0x2002008 + 0x80000 * n) + 12, 4⟩
def GLZ_STEPFLAG.inv (n : Nat) : Fld := ⟨8 * (0x2002008 + 0x80000 * n) + 8, 4⟩
def GLZ_STEPFLAG.ovf (n : Nat) : Fld := ⟨8 * (0x2002008 + 0x80000 * n) + 4, 4⟩
def GLZ_STEPFLAG.nonfin (n : Nat) : Fld := ⟨8 * (0x2002008 + 0x80000 * n), 4⟩
def GLZ_NONFIN.count (n q : Nat) : Fld := ⟨8 * (0x2002040 + 0x80000 * n + 0x8 * q), 48⟩
def GLZ_OVF.count (n q : Nat) : Fld := ⟨8 * (0x2002060 + 0x80000 * n + 0x8 * q), 48⟩
def GLZ_INV.count (n q : Nat) : Fld := ⟨8 * (0x2002080 + 0x80000 * n + 0x8 * q), 48⟩
def GLZ_SAT.count (n q : Nat) : Fld := ⟨8 * (0x20020a0 + 0x80000 * n + 0x8 * q), 48⟩
def GLZ_ACT.count (n v : Nat) : Fld := ⟨8 * (0x20020c0 + 0x80000 * n + 0x8 * v), 48⟩
def GLZ_CNT_CLR.act (n : Nat) : Fld := ⟨8 * (0x20020f0 + 0x80000 * n) + 4, 2⟩
def GLZ_CNT_CLR.seq (n : Nat) : Fld := ⟨8 * (0x20020f0 + 0x80000 * n), 4⟩
def TS_ECC.uncorr (n : Nat) : Fld := ⟨8 * (0x2003000 + 0x80000 * n) + 48, 16⟩
def TS_ECC.corr (n : Nat) : Fld := ⟨8 * (0x2003000 + 0x80000 * n) + 32, 16⟩
def TS_ECC.last (n : Nat) : Fld := ⟨8 * (0x2003000 + 0x80000 * n), 26⟩
def TR_ECC.uncorr (n : Nat) : Fld := ⟨8 * (0x2003008 + 0x80000 * n) + 48, 16⟩
def TR_ECC.corr (n : Nat) : Fld := ⟨8 * (0x2003008 + 0x80000 * n) + 32, 16⟩
def TR_ECC.array (n : Nat) : Fld := ⟨8 * (0x2003008 + 0x80000 * n) + 4, 3⟩
def TR_ECC.reg (n : Nat) : Fld := ⟨8 * (0x2003008 + 0x80000 * n), 4⟩
def ECC_CLR.clear (n : Nat) : Fld := ⟨8 * (0x2003010 + 0x80000 * n), 2⟩
def GLZ_TCNT.nonfin (n i : Nat) : Fld := ⟨8 * (0x200c000 + 0x80000 * n + 0x8 * i) + 32, 32⟩
def GLZ_TCNT.sat (n i : Nat) : Fld := ⟨8 * (0x200c000 + 0x80000 * n + 0x8 * i), 32⟩
def FLM_STAT.state (f : Nat) : Fld := ⟨8 * (0x3080000 + 0x10 * f) + 61, 3⟩
def FLM_STAT.pair_ok (f : Nat) : Fld := ⟨8 * (0x3080000 + 0x10 * f) + 60, 1⟩
def FLM_STAT.above_hi (f : Nat) : Fld := ⟨8 * (0x3080000 + 0x10 * f) + 59, 1⟩
def FLM_STAT.spilling (f : Nat) : Fld := ⟨8 * (0x3080000 + 0x10 * f) + 58, 1⟩
def FLM_STAT.peer_closed (f : Nat) : Fld := ⟨8 * (0x3080000 + 0x10 * f) + 57, 1⟩
def FLM_SEQ.next_cmt (f : Nat) : Fld := ⟨8 * (0x3080008 + 0x10 * f) + 32, 32⟩
def FLM_SEQ.next_pop (f : Nat) : Fld := ⟨8 * (0x3080008 + 0x10 * f), 32⟩
def FLM_CNT.full (f : Nat) : Fld := ⟨8 * (0x3100000 + 0x40 * f), 48⟩
def FLM_CNT.empty (f : Nat) : Fld := ⟨8 * (0x3100008 + 0x40 * f), 48⟩
def FLM_CNT.spill (f : Nat) : Fld := ⟨8 * (0x3100010 + 0x40 * f), 48⟩
def FLM_CNT.poison (f : Nat) : Fld := ⟨8 * (0x3100018 + 0x40 * f), 48⟩
def FLM_CNT.discard (f : Nat) : Fld := ⟨8 * (0x3100020 + 0x40 * f), 48⟩
def FLM_CNT.records (f : Nat) : Fld := ⟨8 * (0x3100028 + 0x40 * f), 48⟩
def FLM_COMMIT.flume : Fld := ⟨8 * (0x3700000), 13⟩
def FLM_CSTAT.busy : Fld := ⟨8 * (0x3700004) + 31, 1⟩
def FLM_CSTAT.result : Fld := ⟨8 * (0x3700004) + 13, 2⟩
def FLM_CSTAT.flume : Fld := ⟨8 * (0x3700004), 13⟩
def FLM_CMD.cmd : Fld := ⟨8 * (0x3700008) + 28, 4⟩
def FLM_CMD.flume : Fld := ⟨8 * (0x3700008), 13⟩
def FLM_TMO.ticks : Fld := ⟨8 * (0x3700010), 32⟩
def FLM_BAL_CTL.pin : Fld := ⟨8 * (0x3710000) + 31, 1⟩
def FLM_BAL_CTL.steps : Fld := ⟨8 * (0x3710000) + 16, 8⟩
def FLM_BAL_CTL.thresh : Fld := ⟨8 * (0x3710000), 16⟩
def FLM_BAL_LAST0.step : Fld := ⟨8 * (0x3710008), 48⟩
def FLM_BAL_LAST1.src : Fld := ⟨8 * (0x3710010) + 32, 12⟩
def FLM_BAL_LAST1.dst : Fld := ⟨8 * (0x3710010) + 16, 12⟩
def FLM_BAL_LAST1.layers : Fld := ⟨8 * (0x3710010), 8⟩
def SCHED_BASE.base (n q : Nat) : Fld := ⟨8 * (0x2005000 + 0x80000 * n + 0x20 * q), 32⟩
def SCHED_COUNT.count (n q : Nat) : Fld := ⟨8 * (0x2005004 + 0x80000 * n + 0x20 * q), 32⟩
def SCHED_CTL.stride (n q : Nat) : Fld := ⟨8 * (0x2005008 + 0x80000 * n + 0x20 * q) + 24, 8⟩
def SCHED_CTL.last (n q : Nat) : Fld := ⟨8 * (0x2005008 + 0x80000 * n + 0x20 * q) + 16, 8⟩
def SCHED_CTL.ptr (n q : Nat) : Fld := ⟨8 * (0x2005008 + 0x80000 * n + 0x20 * q) + 8, 8⟩
def SCHED_CTL.mode (n q : Nat) : Fld := ⟨8 * (0x2005008 + 0x80000 * n + 0x20 * q), 2⟩
def SCHED_ROUND.round (n q : Nat) : Fld := ⟨8 * (0x200500c + 0x80000 * n + 0x20 * q), 32⟩
def SCHED_ENT.flume (n q i : Nat) : Fld := ⟨8 * (0x2006000 + 0x80000 * n + 0x400 * q + 0x4 * i) + 16, 13⟩
def SCHED_ENT.offset (n q i : Nat) : Fld := ⟨8 * (0x2006000 + 0x80000 * n + 0x400 * q + 0x4 * i), 16⟩
def VER_HDR.top (l : Nat) : Fld := ⟨8 * (0x3800000 + 0x2000 * l) + 32, 32⟩
def VER_HDR.bar_hold (l : Nat) : Fld := ⟨8 * (0x3800000 + 0x2000 * l) + 5, 1⟩
def VER_HDR.gate_hold (l : Nat) : Fld := ⟨8 * (0x3800000 + 0x2000 * l) + 4, 1⟩
def VER_HDR.entry (l : Nat) : Fld := ⟨8 * (0x3800000 + 0x2000 * l), 1⟩
def VER_ADMIT.gen (l : Nat) : Fld := ⟨8 * (0x3800008 + 0x2000 * l) + 32, 32⟩
def VER_ADMIT.barrier (l : Nat) : Fld := ⟨8 * (0x3800008 + 0x2000 * l) + 31, 1⟩
def VER_ADMIT.pend (l : Nat) : Fld := ⟨8 * (0x3800008 + 0x2000 * l) + 30, 1⟩
def VER_CUR.gen (l : Nat) : Fld := ⟨8 * (0x3800010 + 0x2000 * l) + 32, 32⟩
def VER_CUR.group (l : Nat) : Fld := ⟨8 * (0x3800010 + 0x2000 * l) + 16, 16⟩
def VER_SLOT.gen (l s : Nat) : Fld := ⟨8 * (0x3800040 + 0x2000 * l + 0x40 * s) + 32, 32⟩
def VER_SLOT.count (l s : Nat) : Fld := ⟨8 * (0x3800040 + 0x2000 * l + 0x40 * s) + 16, 16⟩
def VER_SLOT.nlayers (l s : Nat) : Fld := ⟨8 * (0x3800040 + 0x2000 * l + 0x40 * s) + 8, 8⟩
def VER_SLOT.refill (l s : Nat) : Fld := ⟨8 * (0x3800040 + 0x2000 * l + 0x40 * s) + 7, 1⟩
def VER_SLOT.state (l s : Nat) : Fld := ⟨8 * (0x3800040 + 0x2000 * l + 0x40 * s), 2⟩
def VER_SLOT.next_gen (l s : Nat) : Fld := ⟨8 * (0x3800048 + 0x2000 * l + 0x40 * s) + 32, 32⟩
def VER_LBASE.base (l s i : Nat) : Fld := ⟨8 * (0x3800200 + 0x2000 * l + 0x780 * s + 0x8 * i), 48⟩
def VER_CTL.pin : Fld := ⟨8 * (0x38c0000) + 31, 1⟩
def VER_TMO.ticks : Fld := ⟨8 * (0x38c0008), 32⟩
def VER_CMD.cmd : Fld := ⟨8 * (0x38c0010) + 28, 4⟩
def VER_CMD.stage : Fld := ⟨8 * (0x38c0010) + 2, 7⟩
def VER_CMD.slot : Fld := ⟨8 * (0x38c0010), 2⟩
def VER_CSTAT.busy : Fld := ⟨8 * (0x38c0018) + 31, 1⟩
def VER_CSTAT.result : Fld := ⟨8 * (0x38c0018) + 8, 2⟩
def VER_CSTAT.stage : Fld := ⟨8 * (0x38c0018), 7⟩
def VER_LOG0.gen : Fld := ⟨8 * (0x38c0020) + 32, 32⟩
def VER_LOG0.mb : Fld := ⟨8 * (0x38c0020), 32⟩
def VER_LOG1.cause : Fld := ⟨8 * (0x38c0028) + 8, 3⟩
def VER_LOG1.stage : Fld := ⟨8 * (0x38c0028), 7⟩
def VER_CNT.missing (l : Nat) : Fld := ⟨8 * (0x38d0000 + 0x20 * l), 48⟩
def VER_CNT.stale (l : Nat) : Fld := ⟨8 * (0x38d0008 + 0x20 * l), 48⟩
def VER_CNT.gate (l : Nat) : Fld := ⟨8 * (0x38d0010 + 0x20 * l), 48⟩
def VER_CNT.bar (l : Nat) : Fld := ⟨8 * (0x38d0018 + 0x20 * l), 48⟩
def SEQ_IMG.img_addr (n q : Nat) : Fld := ⟨8 * (0x2008000 + 0x80000 * n + 0x100 * q), 48⟩
def SEQ_BIND.en (n q : Nat) : Fld := ⟨8 * (0x2008008 + 0x80000 * n + 0x100 * q) + 31, 1⟩
def SEQ_BIND.ctx (n q : Nat) : Fld := ⟨8 * (0x2008008 + 0x80000 * n + 0x100 * q) + 12, 6⟩
def SEQ_BIND.stage (n q : Nat) : Fld := ⟨8 * (0x2008008 + 0x80000 * n + 0x100 * q), 12⟩
def SEQ_BCOMMIT.commit (n q : Nat) : Fld := ⟨8 * (0x2008010 + 0x80000 * n + 0x100 * q), 1⟩
def SEQ_BSTAT.busy (n q : Nat) : Fld := ⟨8 * (0x2008014 + 0x80000 * n + 0x100 * q) + 31, 1⟩
def SEQ_BSTAT.cause (n q : Nat) : Fld := ⟨8 * (0x2008014 + 0x80000 * n + 0x100 * q) + 4, 4⟩
def SEQ_BSTAT.result (n q : Nat) : Fld := ⟨8 * (0x2008014 + 0x80000 * n + 0x100 * q), 2⟩
def SEQ_CMD.cmd (n q : Nat) : Fld := ⟨8 * (0x2008018 + 0x80000 * n + 0x100 * q), 4⟩
def SEQ_STAT.state (n q : Nat) : Fld := ⟨8 * (0x2008020 + 0x80000 * n + 0x100 * q) + 61, 3⟩
def SEQ_STAT.in_trap (n q : Nat) : Fld := ⟨8 * (0x2008020 + 0x80000 * n + 0x100 * q) + 60, 1⟩
def SEQ_STAT.wait (n q : Nat) : Fld := ⟨8 * (0x2008020 + 0x80000 * n + 0x100 * q) + 56, 4⟩
def SEQ_STAT.pc (n q : Nat) : Fld := ⟨8 * (0x2008020 + 0x80000 * n + 0x100 * q), 14⟩
def SEQ_PC.pc (n q : Nat) : Fld := ⟨8 * (0x2008028 + 0x80000 * n + 0x100 * q), 14⟩
def SEQ_EXC0.code (n q : Nat) : Fld := ⟨8 * (0x2008030 + 0x80000 * n + 0x100 * q) + 32, 16⟩
def SEQ_EXC0.slot (n q : Nat) : Fld := ⟨8 * (0x2008030 + 0x80000 * n + 0x100 * q) + 14, 2⟩
def SEQ_EXC0.pc (n q : Nat) : Fld := ⟨8 * (0x2008030 + 0x80000 * n + 0x100 * q), 14⟩
def SEQ_EXC1.info (n q : Nat) : Fld := ⟨8 * (0x2008038 + 0x80000 * n + 0x100 * q), 64⟩
def SEQ_WDOG.ticks (n q : Nat) : Fld := ⟨8 * (0x2008040 + 0x80000 * n + 0x100 * q), 32⟩
def SEQ_CNT.issued (n q : Nat) : Fld := ⟨8 * (0x2008048 + 0x80000 * n + 0x100 * q), 48⟩
def SEQ_CNT.waited (n q : Nat) : Fld := ⟨8 * (0x2008050 + 0x80000 * n + 0x100 * q), 48⟩
def CUT_BASE.base (c p : Nat) : Fld := ⟨8 * (0x140000 + 0x20 * c + 0x8 * p), 48⟩
def CUT_CTL.module (c : Nat) : Fld := ⟨8 * (0x140018 + 0x20 * c) + 16, 12⟩
def CUT_COMMIT.phase : Fld := ⟨8 * (0x141000) + 8, 2⟩
def CUT_COMMIT.ctx : Fld := ⟨8 * (0x141000), 6⟩
def CUT_CSTAT.busy : Fld := ⟨8 * (0x141004) + 31, 1⟩
def CUT_CSTAT.result : Fld := ⟨8 * (0x141004) + 16, 2⟩
def CUT_CSTAT.cause : Fld := ⟨8 * (0x141004) + 12, 4⟩
def CUT_CSTAT.phase : Fld := ⟨8 * (0x141004) + 8, 2⟩
def CUT_CSTAT.ctx : Fld := ⟨8 * (0x141004), 6⟩
def CUT_CMD.cmd : Fld := ⟨8 * (0x141008) + 28, 4⟩
def CUT_CMD.phase : Fld := ⟨8 * (0x141008) + 8, 2⟩
def CUT_CMD.ctx : Fld := ⟨8 * (0x141008), 6⟩
def CUT_EPOCH.pend (c : Nat) : Fld := ⟨8 * (0x142000 + 0x8 * c) + 48, 3⟩
def CUT_EPOCH.epoch (c : Nat) : Fld := ⟨8 * (0x142000 + 0x8 * c), 48⟩
def CUT_PH.active (l : Nat) : Fld := ⟨8 * (0x143000 + 0x8 * l) + 3, 1⟩
def CUT_PH.wait (l : Nat) : Fld := ⟨8 * (0x143000 + 0x8 * l) + 2, 1⟩
def CUT_PH.phase (l : Nat) : Fld := ⟨8 * (0x143000 + 0x8 * l), 2⟩
def CUT_ROW.evt_en (l : Nat) : Fld := ⟨8 * (0x143400 + 0x8 * l) + 31, 1⟩
def CUT_ROW.evt (l : Nat) : Fld := ⟨8 * (0x143400 + 0x8 * l) + 26, 3⟩
def CUT_ROW.row_ts (l : Nat) : Fld := ⟨8 * (0x143400 + 0x8 * l), 26⟩
def NORM_MAX.max (c : Nat) : Fld := ⟨8 * (0x144000 + 0x10 * c), 32⟩
def NORM_RES.norm (c : Nat) : Fld := ⟨8 * (0x144008 + 0x10 * c) + 32, 32⟩
def NORM_RES.clip (c : Nat) : Fld := ⟨8 * (0x144008 + 0x10 * c), 32⟩
def NORM_SUM.sum (c : Nat) : Fld := ⟨8 * (0x145000 + 0x8 * c) + 32, 32⟩
def NORM_SUM.nonfin (c : Nat) : Fld := ⟨8 * (0x145000 + 0x8 * c) + 31, 1⟩
def NORM_SUM.hops (c : Nat) : Fld := ⟨8 * (0x145000 + 0x8 * c), 12⟩
def VAR_ENT.count (l v : Nat) : Fld := ⟨8 * (0x1100000 + 0x400000 * (l / 24) + 0x20000 * (l % 24) + 0x20 * v) + 32, 32⟩
def VAR_ENT.rank (l v : Nat) : Fld := ⟨8 * (0x1100000 + 0x400000 * (l / 24) + 0x20000 * (l % 24) + 0x20 * v) + 16, 9⟩
def VAR_ENT.fmt (l v : Nat) : Fld := ⟨8 * (0x1100000 + 0x400000 * (l / 24) + 0x20000 * (l % 24) + 0x20 * v) + 4, 4⟩
def VAR_ENT.train (l v : Nat) : Fld := ⟨8 * (0x1100000 + 0x400000 * (l / 24) + 0x20000 * (l % 24) + 0x20 * v) + 1, 1⟩
def VAR_ENT.valid (l v : Nat) : Fld := ⟨8 * (0x1100000 + 0x400000 * (l / 24) + 0x20000 * (l % 24) + 0x20 * v), 1⟩
def VAR_ENT.addr (l v : Nat) : Fld := ⟨8 * (0x1100008 + 0x400000 * (l / 24) + 0x20000 * (l % 24) + 0x20 * v), 48⟩
def VAR_ENT.grad (l v : Nat) : Fld := ⟨8 * (0x1100010 + 0x400000 * (l / 24) + 0x20000 * (l % 24) + 0x20 * v), 48⟩
def VAR_COMMIT.j (h : Nat) : Fld := ⟨8 * (0x10f0000 + 0x400000 * h) + 12, 5⟩
def VAR_COMMIT.variant (h : Nat) : Fld := ⟨8 * (0x10f0000 + 0x400000 * h), 12⟩
def VAR_CSTAT.busy (h : Nat) : Fld := ⟨8 * (0x10f0004 + 0x400000 * h) + 31, 1⟩
def VAR_CSTAT.result (h : Nat) : Fld := ⟨8 * (0x10f0004 + 0x400000 * h), 2⟩
def NUM_CTL.skip_pin (c : Nat) : Fld := ⟨8 * (0x150000 + 0x40 * c) + 31, 1⟩
def NUM_CTL.noprom (c : Nat) : Fld := ⟨8 * (0x150000 + 0x40 * c) + 30, 1⟩
def NUM_CTL.shn (c : Nat) : Fld := ⟨8 * (0x150000 + 0x40 * c) + 16, 5⟩
def NUM_CTL.plim (c : Nat) : Fld := ⟨8 * (0x150000 + 0x40 * c), 16⟩
def NUM_SHTHR.tau (c : Nat) : Fld := ⟨8 * (0x150004 + 0x40 * c), 32⟩
def NUM_BASE.base (c : Nat) : Fld := ⟨8 * (0x150008 + 0x40 * c), 48⟩
def NUM_STEP.step (c : Nat) : Fld := ⟨8 * (0x150010 + 0x40 * c), 48⟩
def NUM_STAT.busy (c : Nat) : Fld := ⟨8 * (0x150018 + 0x40 * c) + 63, 1⟩
def NUM_STAT.skip (c : Nat) : Fld := ⟨8 * (0x150018 + 0x40 * c) + 62, 1⟩
def NUM_STAT.cause (c : Nat) : Fld := ⟨8 * (0x150018 + 0x40 * c) + 48, 8⟩
def NUM_STAT.step (c : Nat) : Fld := ⟨8 * (0x150018 + 0x40 * c), 48⟩
def NUM_SKIP.ovr (c : Nat) : Fld := ⟨8 * (0x150020 + 0x40 * c) + 48, 16⟩
def NUM_SKIP.count (c : Nat) : Fld := ⟨8 * (0x150020 + 0x40 * c), 48⟩
def NUM_SKLAST.step (c : Nat) : Fld := ⟨8 * (0x150028 + 0x40 * c) + 16, 48⟩
def NUM_SKLAST.cause (c : Nat) : Fld := ⟨8 * (0x150028 + 0x40 * c), 8⟩
def NUM_PROM.layer (c : Nat) : Fld := ⟨8 * (0x150030 + 0x40 * c) + 48, 16⟩
def NUM_PROM.step (c : Nat) : Fld := ⟨8 * (0x150030 + 0x40 * c), 48⟩
def NUM_PROMCNT.count (c : Nat) : Fld := ⟨8 * (0x150038 + 0x40 * c), 48⟩
def NUM_CMD.cmd : Fld := ⟨8 * (0x151000) + 28, 4⟩
def NUM_CMD.ctx : Fld := ⟨8 * (0x151000), 6⟩
def NUM_SCTL.sid (n i : Nat) : Fld := ⟨8 * (0x2010000 + 0x80000 * n + 0x80 * i) + 48, 12⟩
def NUM_SCTL.x_pin (n i : Nat) : Fld := ⟨8 * (0x2010000 + 0x80000 * n + 0x80 * i) + 40, 8⟩
def NUM_SCTL.fmt (n i : Nat) : Fld := ⟨8 * (0x2010000 + 0x80000 * n + 0x80 * i) + 36, 4⟩
def NUM_SCTL.mode (n i : Nat) : Fld := ⟨8 * (0x2010000 + 0x80000 * n + 0x80 * i) + 34, 2⟩
def NUM_SCTL.lower_en (n i : Nat) : Fld := ⟨8 * (0x2010000 + 0x80000 * n + 0x80 * i) + 33, 1⟩
def NUM_SCTL.h (n i : Nat) : Fld := ⟨8 * (0x2010000 + 0x80000 * n + 0x80 * i) + 28, 4⟩
def NUM_SCTL.k (n i : Nat) : Fld := ⟨8 * (0x2010000 + 0x80000 * n + 0x80 * i) + 24, 4⟩
def NUM_SCTL.clean_lim (n i : Nat) : Fld := ⟨8 * (0x2010000 + 0x80000 * n + 0x80 * i), 16⟩
def NUM_SSTAT.x (n i : Nat) : Fld := ⟨8 * (0x2010008 + 0x80000 * n + 0x80 * i) + 56, 8⟩
def NUM_SSTAT.b (n i : Nat) : Fld := ⟨8 * (0x2010008 + 0x80000 * n + 0x80 * i) + 48, 8⟩
def NUM_SSTAT.clean (n i : Nat) : Fld := ⟨8 * (0x2010008 + 0x80000 * n + 0x80 * i) + 32, 16⟩
def NUM_SSTAT.nhist (n i : Nat) : Fld := ⟨8 * (0x2010008 + 0x80000 * n + 0x80 * i) + 16, 5⟩
def NUM_SAMAX.wamax (n i : Nat) : Fld := ⟨8 * (0x2010010 + 0x80000 * n + 0x80 * i) + 32, 32⟩
def NUM_SAMAX.samax (n i : Nat) : Fld := ⟨8 * (0x2010010 + 0x80000 * n + 0x80 * i), 32⟩
def NUM_SHIST.amax (n i j : Nat) : Fld := ⟨8 * (0x2010040 + 0x80000 * n + 0x80 * i + 0x4 * j), 32⟩
def NUM_GUARD.guard (n j : Nat) : Fld := ⟨8 * (0x2018000 + 0x80000 * n + 0x8 * j), 64⟩
def HAUL_CHAN.en (c : Nat) : Fld := ⟨8 * (0x3900000 + 0x40 * c) + 31, 1⟩
def HAUL_CHAN.priv (c : Nat) : Fld := ⟨8 * (0x3900000 + 0x40 * c) + 30, 1⟩
def HAUL_CHAN.ctx (c : Nat) : Fld := ⟨8 * (0x3900000 + 0x40 * c) + 24, 6⟩
def HAUL_CHAN.vec (c : Nat) : Fld := ⟨8 * (0x3900000 + 0x40 * c) + 11, 11⟩
def HAUL_RING.base (c : Nat) : Fld := ⟨8 * (0x3900008 + 0x40 * c), 48⟩
def HAUL_RLEN.len (c : Nat) : Fld := ⟨8 * (0x3900010 + 0x40 * c), 16⟩
def HAUL_PTR.head (c : Nat) : Fld := ⟨8 * (0x3900018 + 0x40 * c) + 16, 16⟩
def HAUL_PTR.tail (c : Nat) : Fld := ⟨8 * (0x3900018 + 0x40 * c), 16⟩
def HAUL_CSTAT.state (c : Nat) : Fld := ⟨8 * (0x3900020 + 0x40 * c) + 62, 2⟩
def HAUL_CSTAT.last (c : Nat) : Fld := ⟨8 * (0x3900020 + 0x40 * c) + 32, 16⟩
def HAUL_CSTAT.done (c : Nat) : Fld := ⟨8 * (0x3900020 + 0x40 * c), 32⟩
def HAUL_BYTES.count (c : Nat) : Fld := ⟨8 * (0x3900028 + 0x40 * c), 48⟩
def HAUL_SAT.count (c : Nat) : Fld := ⟨8 * (0x3900030 + 0x40 * c), 48⟩
def HAUL_CCOMMIT.chan : Fld := ⟨8 * (0x3901000), 6⟩
def HAUL_CCSTAT.busy : Fld := ⟨8 * (0x3901004) + 31, 1⟩
def HAUL_CCSTAT.chan : Fld := ⟨8 * (0x3901004) + 8, 6⟩
def HAUL_CCSTAT.result : Fld := ⟨8 * (0x3901004), 2⟩
def HAUL_SRC.en (i : Nat) : Fld := ⟨8 * (0x3910000 + 0x40 * i) + 31, 1⟩
def HAUL_SRC.transport (i : Nat) : Fld := ⟨8 * (0x3910000 + 0x40 * i) + 29, 2⟩
def HAUL_SRC.cage (i : Nat) : Fld := ⟨8 * (0x3910000 + 0x40 * i) + 21, 4⟩
def HAUL_SRC.ctx (i : Nat) : Fld := ⟨8 * (0x3910000 + 0x40 * i), 6⟩
def HAUL_CONN.addr (i : Nat) : Fld := ⟨8 * (0x3910008 + 0x40 * i), 48⟩
def HAUL_NSID.nsid (i : Nat) : Fld := ⟨8 * (0x3910010 + 0x40 * i), 32⟩
def HAUL_SSTAT.state (i : Nat) : Fld := ⟨8 * (0x3910018 + 0x40 * i) + 62, 2⟩
def HAUL_SSTAT.lba (i : Nat) : Fld := ⟨8 * (0x3910018 + 0x40 * i) + 61, 1⟩
def HAUL_SSTAT.size (i : Nat) : Fld := ⟨8 * (0x3910018 + 0x40 * i), 48⟩
def HAUL_SCOMMIT.src : Fld := ⟨8 * (0x3911000), 6⟩
def HAUL_SCSTAT.busy : Fld := ⟨8 * (0x3911004) + 31, 1⟩
def HAUL_SCSTAT.src : Fld := ⟨8 * (0x3911004) + 8, 6⟩
def HAUL_SCSTAT.result : Fld := ⟨8 * (0x3911004), 2⟩
def HAUL_STREC.stand_id (r : Nat) : Fld := ⟨8 * (0x3920000 + 0x40 * r), 64⟩
def HAUL_STREC.valid (r : Nat) : Fld := ⟨8 * (0x3920008 + 0x40 * r) + 63, 1⟩
def HAUL_STREC.scrub (r : Nat) : Fld := ⟨8 * (0x3920008 + 0x40 * r) + 62, 1⟩
def HAUL_STREC.ctx (r : Nat) : Fld := ⟨8 * (0x3920008 + 0x40 * r) + 56, 6⟩
def HAUL_STREC.chan (r : Nat) : Fld := ⟨8 * (0x3920008 + 0x40 * r) + 50, 6⟩
def HAUL_STREC.bad (r : Nat) : Fld := ⟨8 * (0x3920008 + 0x40 * r), 32⟩
def HAUL_STREC.mbuf (r : Nat) : Fld := ⟨8 * (0x3920010 + 0x40 * r), 48⟩
def HAUL_STREC.due (r : Nat) : Fld := ⟨8 * (0x3920018 + 0x40 * r), 64⟩
def HAUL_STREC.last (r : Nat) : Fld := ⟨8 * (0x3920020 + 0x40 * r), 64⟩
def HAUL_QUAR.active (j : Nat) : Fld := ⟨8 * (0x3930000 + 0x10 * j) + 63, 1⟩
def HAUL_QUAR.cause (j : Nat) : Fld := ⟨8 * (0x3930000 + 0x10 * j) + 61, 2⟩
def HAUL_QUAR.rec (j : Nat) : Fld := ⟨8 * (0x3930000 + 0x10 * j) + 52, 9⟩
def HAUL_QUAR.ref (j : Nat) : Fld := ⟨8 * (0x3930000 + 0x10 * j) + 51, 1⟩
def HAUL_QUAR.slot (j : Nat) : Fld := ⟨8 * (0x3930000 + 0x10 * j) + 49, 2⟩
def HAUL_QUAR.stage (j : Nat) : Fld := ⟨8 * (0x3930000 + 0x10 * j) + 42, 7⟩
def HAUL_QUAR.billet (j : Nat) : Fld := ⟨8 * (0x3930000 + 0x10 * j), 20⟩
def HAUL_QUAR.tries (j : Nat) : Fld := ⟨8 * (0x3930008 + 0x10 * j) + 48, 2⟩
def HAUL_QUAR.base (j : Nat) : Fld := ⟨8 * (0x3930008 + 0x10 * j), 48⟩
def HAUL_CTL.rehaul_pin : Fld := ⟨8 * (0x3940000) + 31, 1⟩
def HAUL_CTL.scrub_off : Fld := ⟨8 * (0x3940000) + 30, 1⟩
def HAUL_CTL.retries : Fld := ⟨8 * (0x3940000) + 24, 4⟩
def HAUL_CTL.scrub_rate : Fld := ⟨8 * (0x3940000), 16⟩
def HAUL_SCRUB_DEF.seconds : Fld := ⟨8 * (0x3940008), 32⟩
def CKPT_AREA.en (c : Nat) : Fld := ⟨8 * (0x3a00000 + 0x100 * c) + 31, 1⟩
def CKPT_AREA.target (c : Nat) : Fld := ⟨8 * (0x3a00000 + 0x100 * c) + 30, 1⟩
def CKPT_AREA.enc (c : Nat) : Fld := ⟨8 * (0x3a00000 + 0x100 * c) + 29, 1⟩
def CKPT_AREA.sign (c : Nat) : Fld := ⟨8 * (0x3a00000 + 0x100 * c) + 28, 1⟩
def CKPT_AREA.sig_req (c : Nat) : Fld := ⟨8 * (0x3a00000 + 0x100 * c) + 27, 1⟩
def CKPT_AREA.nmom (c : Nat) : Fld := ⟨8 * (0x3a00000 + 0x100 * c) + 25, 2⟩
def CKPT_AREA.nbanks (c : Nat) : Fld := ⟨8 * (0x3a00000 + 0x100 * c) + 20, 4⟩
def CKPT_AREA.src (c : Nat) : Fld := ⟨8 * (0x3a00000 + 0x100 * c), 6⟩
def CKPT_BASE.base (c : Nat) : Fld := ⟨8 * (0x3a00008 + 0x100 * c), 48⟩
def CKPT_BSIZE.bsize (c : Nat) : Fld := ⟨8 * (0x3a00010 + 0x100 * c), 48⟩
def CKPT_MSIZE.msize (c : Nat) : Fld := ⟨8 * (0x3a00018 + 0x100 * c), 48⟩
def CKPT_TSIZE.tsize (c : Nat) : Fld := ⟨8 * (0x3a00020 + 0x100 * c), 48⟩
def CKPT_RING.ring (c : Nat) : Fld := ⟨8 * (0x3a00028 + 0x100 * c), 48⟩
def CKPT_NW.addr (c : Nat) : Fld := ⟨8 * (0x3a00030 + 0x100 * c), 48⟩
def CKPT_XREG.n (c : Nat) : Fld := ⟨8 * (0x3a00038 + 0x100 * c) + 56, 8⟩
def CKPT_XREG.addr (c : Nat) : Fld := ⟨8 * (0x3a00038 + 0x100 * c), 48⟩
def CKPT_KEYS.n (c : Nat) : Fld := ⟨8 * (0x3a00040 + 0x100 * c) + 56, 8⟩
def CKPT_KEYS.addr (c : Nat) : Fld := ⟨8 * (0x3a00040 + 0x100 * c), 48⟩
def CKPT_SIGNERS.n (c : Nat) : Fld := ⟨8 * (0x3a00048 + 0x100 * c) + 56, 8⟩
def CKPT_SIGNERS.addr (c : Nat) : Fld := ⟨8 * (0x3a00048 + 0x100 * c), 48⟩
def CKPT_RDY.addr (c : Nat) : Fld := ⟨8 * (0x3a00050 + 0x100 * c), 48⟩
def CKPT_STAT.state (c : Nat) : Fld := ⟨8 * (0x3a00080 + 0x100 * c) + 60, 4⟩
def CKPT_STAT.step (c : Nat) : Fld := ⟨8 * (0x3a00080 + 0x100 * c), 48⟩
def CKPT_RES.code (c : Nat) : Fld := ⟨8 * (0x3a00088 + 0x100 * c) + 48, 16⟩
def CKPT_RES.step (c : Nat) : Fld := ⟨8 * (0x3a00088 + 0x100 * c), 48⟩
def CKPT_CUR.seq (c : Nat) : Fld := ⟨8 * (0x3a00090 + 0x100 * c) + 16, 48⟩
def CKPT_CUR.attempt (c : Nat) : Fld := ⟨8 * (0x3a00090 + 0x100 * c), 16⟩
def CKPT_CSTEP.step (c : Nat) : Fld := ⟨8 * (0x3a00098 + 0x100 * c), 48⟩
def CKPT_BYTES.count (c : Nat) : Fld := ⟨8 * (0x3a000a0 + 0x100 * c), 48⟩
def CKPT_LOG.layer (c : Nat) : Fld := ⟨8 * (0x3a000a8 + 0x100 * c) + 32, 32⟩
def CKPT_LOG.kind (c : Nat) : Fld := ⟨8 * (0x3a000a8 + 0x100 * c) + 24, 8⟩
def CKPT_LOG.cause (c : Nat) : Fld := ⟨8 * (0x3a000a8 + 0x100 * c) + 16, 8⟩
def CKPT_LOG.module (c : Nat) : Fld := ⟨8 * (0x3a000a8 + 0x100 * c), 16⟩
def CKPT_BUDDY.en (c : Nat) : Fld := ⟨8 * (0x3a000c0 + 0x100 * c) + 31, 1⟩
def CKPT_BBASE.base (c : Nat) : Fld := ⟨8 * (0x3a000c8 + 0x100 * c), 48⟩
def CKPT_BBSIZE.size (c : Nat) : Fld := ⟨8 * (0x3a000d0 + 0x100 * c), 48⟩
def CKPT_BSTEP.valid (c : Nat) : Fld := ⟨8 * (0x3a000d8 + 0x100 * c) + 63, 1⟩
def CKPT_BSTEP.bank (c : Nat) : Fld := ⟨8 * (0x3a000d8 + 0x100 * c) + 62, 1⟩
def CKPT_BSTEP.step (c : Nat) : Fld := ⟨8 * (0x3a000d8 + 0x100 * c), 48⟩
def CKPT_ACOMMIT.ctx : Fld := ⟨8 * (0x3a10000), 6⟩
def CKPT_ACSTAT.busy : Fld := ⟨8 * (0x3a10004) + 31, 1⟩
def CKPT_ACSTAT.result : Fld := ⟨8 * (0x3a10004) + 6, 2⟩
def CKPT_ACSTAT.ctx : Fld := ⟨8 * (0x3a10004), 6⟩
def CKPT_CMD.cmd : Fld := ⟨8 * (0x3a10008) + 28, 4⟩
def CKPT_CMD.ctx : Fld := ⟨8 * (0x3a10008), 6⟩
def CKPT_TMO.ticks : Fld := ⟨8 * (0x3a10010), 48⟩
def MEM_WIN.en (c w : Nat) : Fld := ⟨8 * (0x160000 + 0x100 * c + 0x10 * w) + 63, 1⟩
def MEM_WIN.r (c w : Nat) : Fld := ⟨8 * (0x160000 + 0x100 * c + 0x10 * w) + 62, 1⟩
def MEM_WIN.w (c w : Nat) : Fld := ⟨8 * (0x160000 + 0x100 * c + 0x10 * w) + 61, 1⟩
def MEM_WIN.base (c w : Nat) : Fld := ⟨8 * (0x160000 + 0x100 * c + 0x10 * w) + 12, 36⟩
def MEM_WIN.size (c w : Nat) : Fld := ⟨8 * (0x160008 + 0x100 * c + 0x10 * w), 36⟩
def MEM_WCOMMIT.ctx : Fld := ⟨8 * (0x164000), 6⟩
def MEM_WCSTAT.busy : Fld := ⟨8 * (0x164004) + 31, 1⟩
def MEM_WCSTAT.cause : Fld := ⟨8 * (0x164004) + 12, 4⟩
def MEM_WCSTAT.window : Fld := ⟨8 * (0x164004) + 8, 4⟩
def MEM_WCSTAT.result : Fld := ⟨8 * (0x164004) + 6, 2⟩
def MEM_WCSTAT.ctx : Fld := ⟨8 * (0x164004), 6⟩
def HBM_GREG.en (g : Nat) : Fld := ⟨8 * (0x165000 + 0x10 * g) + 63, 1⟩
def HBM_GREG.off (g : Nat) : Fld := ⟨8 * (0x165000 + 0x10 * g) + 16, 9⟩
def HBM_GREG.size (g : Nat) : Fld := ⟨8 * (0x165000 + 0x10 * g), 9⟩
def HBM_GCOMMIT.region : Fld := ⟨8 * (0x165080), 3⟩
def HBM_GCSTAT.busy : Fld := ⟨8 * (0x165084) + 31, 1⟩
def HBM_GCSTAT.result : Fld := ⟨8 * (0x165084) + 3, 2⟩
def HBM_GCSTAT.region : Fld := ⟨8 * (0x165084), 3⟩
def FAR_BUDDY.base (f : Nat) : Fld := ⟨8 * (0x166000 + 0x10 * f), 48⟩
def FAR_BUDDY.size (f : Nat) : Fld := ⟨8 * (0x166008 + 0x10 * f), 48⟩
def MEM_SCRUB_HBM.seconds : Fld := ⟨8 * (0x166100), 32⟩
def MEM_SCRUB_FAR.seconds : Fld := ⟨8 * (0x166104), 32⟩
def HBM_ECC.uncorr (i : Nat) : Fld := ⟨8 * (0x167000 + 0x10 * i) + 48, 16⟩
def HBM_ECC.corr (i : Nat) : Fld := ⟨8 * (0x167000 + 0x10 * i) + 32, 16⟩
def HBM_ECC.passes (i : Nat) : Fld := ⟨8 * (0x167000 + 0x10 * i), 32⟩
def HBM_ECC.last (i : Nat) : Fld := ⟨8 * (0x167008 + 0x10 * i), 48⟩
def FAR_ECC.uncorr (f : Nat) : Fld := ⟨8 * (0x167200 + 0x10 * f) + 48, 16⟩
def FAR_ECC.corr (f : Nat) : Fld := ⟨8 * (0x167200 + 0x10 * f) + 32, 16⟩
def FAR_ECC.ovf (f : Nat) : Fld := ⟨8 * (0x167200 + 0x10 * f) + 31, 1⟩
def FAR_ECC.plist (f : Nat) : Fld := ⟨8 * (0x167200 + 0x10 * f), 11⟩
def FAR_ECC.last (f : Nat) : Fld := ⟨8 * (0x167208 + 0x10 * f), 48⟩
def MEM_ECC_CLR.clear : Fld := ⟨8 * (0x167300), 26⟩
def CAGE_CTL.mode (n : Nat) : Fld := ⟨8 * (0x3b00000 + 0x10 * n), 4⟩
def CAGE_STAT.present (n : Nat) : Fld := ⟨8 * (0x3b00008 + 0x10 * n) + 31, 1⟩
def CAGE_STAT.lock (n : Nat) : Fld := ⟨8 * (0x3b00008 + 0x10 * n), 2⟩
def CAGE_COMMIT.cage : Fld := ⟨8 * (0x3b00100), 4⟩
def CAGE_CSTAT.busy : Fld := ⟨8 * (0x3b00104) + 31, 1⟩
def CAGE_CSTAT.result : Fld := ⟨8 * (0x3b00104) + 4, 2⟩
def CAGE_CSTAT.cage : Fld := ⟨8 * (0x3b00104), 4⟩
def SKW_LINK.state (k : Nat) : Fld := ⟨8 * (0x3b01000 + 0x40 * k) + 61, 3⟩
def SKW_LINK.ver (k : Nat) : Fld := ⟨8 * (0x3b01000 + 0x40 * k) + 59, 2⟩
def SKW_LINK.peer (k : Nat) : Fld := ⟨8 * (0x3b01008 + 0x40 * k), 64⟩
def SKW_LINK.pin (k : Nat) : Fld := ⟨8 * (0x3b01010 + 0x40 * k), 64⟩
def SKW_LINK.ver_max (k : Nat) : Fld := ⟨8 * (0x3b01018 + 0x40 * k) + 2, 2⟩
def SKW_LINK.ver_min (k : Nat) : Fld := ⟨8 * (0x3b01018 + 0x40 * k), 2⟩
def SKW_LINK.fec (k : Nat) : Fld := ⟨8 * (0x3b01020 + 0x40 * k), 48⟩
def SKW_LINK.uncorr (k : Nat) : Fld := ⟨8 * (0x3b01028 + 0x40 * k), 48⟩
def SKW_LINK.resend (k : Nat) : Fld := ⟨8 * (0x3b01030 + 0x40 * k), 48⟩
def SKW_LINK.tagfail (k : Nat) : Fld := ⟨8 * (0x3b01038 + 0x40 * k) + 32, 32⟩
def SKW_LINK.recov (k : Nat) : Fld := ⟨8 * (0x3b01038 + 0x40 * k), 32⟩
def SKW_CMD.cmd : Fld := ⟨8 * (0x3b02000) + 28, 4⟩
def SKW_CMD.link : Fld := ⟨8 * (0x3b02000), 5⟩
def SKW_CHAN.en (ch : Nat) : Fld := ⟨8 * (0x3b10000 + 0x8 * ch) + 63, 1⟩
def SKW_CHAN.ctx (ch : Nat) : Fld := ⟨8 * (0x3b10000 + 0x8 * ch) + 57, 6⟩
def SKW_CHAN.link (ch : Nat) : Fld := ⟨8 * (0x3b10000 + 0x8 * ch) + 52, 5⟩
def SKW_CHAN.peer (ch : Nat) : Fld := ⟨8 * (0x3b10000 + 0x8 * ch) + 16, 13⟩
def SKW_CCOMMIT.chan : Fld := ⟨8 * (0x3b20000), 13⟩
def SKW_CCSTAT.busy : Fld := ⟨8 * (0x3b20004) + 31, 1⟩
def SKW_CCSTAT.result : Fld := ⟨8 * (0x3b20004) + 13, 2⟩
def SKW_CCSTAT.chan : Fld := ⟨8 * (0x3b20004), 13⟩
def RED_CTL.en (c : Nat) : Fld := ⟨8 * (0x3b30000 + 0x10 * c) + 31, 1⟩
def RED_CTL.wrap (c : Nat) : Fld := ⟨8 * (0x3b30000 + 0x10 * c) + 16, 5⟩
def RED_CTL.prev (c : Nat) : Fld := ⟨8 * (0x3b30000 + 0x10 * c) + 8, 5⟩
def RED_CTL.next (c : Nat) : Fld := ⟨8 * (0x3b30000 + 0x10 * c), 5⟩
def RED_COMMIT.ctx : Fld := ⟨8 * (0x3b31000), 6⟩
def RED_CSTAT.busy : Fld := ⟨8 * (0x3b31004) + 31, 1⟩
def RED_CSTAT.result : Fld := ⟨8 * (0x3b31004) + 6, 2⟩
def RED_CSTAT.ctx : Fld := ⟨8 * (0x3b31004), 6⟩
def ETH_PORT.pfc_en (k : Nat) : Fld := ⟨8 * (0x3b40008 + 0x40 * k) + 31, 1⟩
def ETH_PORT.pcp (k : Nat) : Fld := ⟨8 * (0x3b40008 + 0x40 * k) + 28, 3⟩
def ETH_PORT.vlan (k : Nat) : Fld := ⟨8 * (0x3b40008 + 0x40 * k) + 16, 12⟩
def ETH_PORT.mtu (k : Nat) : Fld := ⟨8 * (0x3b40008 + 0x40 * k), 14⟩
def ETH_CNT.rx (k : Nat) : Fld := ⟨8 * (0x3b40010 + 0x40 * k), 48⟩
def ETH_CNT.tx (k : Nat) : Fld := ⟨8 * (0x3b40018 + 0x40 * k), 48⟩
def ETH_CNT.drop (k : Nat) : Fld := ⟨8 * (0x3b40020 + 0x40 * k), 48⟩
def ETH_CNT.cnp (k : Nat) : Fld := ⟨8 * (0x3b40028 + 0x40 * k), 48⟩
def SPN_LINK.state (i : Nat) : Fld := ⟨8 * (0x170000 + 0x40 * i) + 61, 3⟩
def SPN_LINK.mask (i : Nat) : Fld := ⟨8 * (0x170000 + 0x40 * i) + 57, 4⟩
def SPN_LINK.width (i : Nat) : Fld := ⟨8 * (0x170000 + 0x40 * i) + 54, 3⟩
def SPN_LINK.rounds (i : Nat) : Fld := ⟨8 * (0x170000 + 0x40 * i) + 52, 2⟩
def SPN_LINK.epoch (i : Nat) : Fld := ⟨8 * (0x170000 + 0x40 * i), 32⟩
def SPN_LINK.epoch_hi (i : Nat) : Fld := ⟨8 * (0x170008 + 0x40 * i) + 32, 32⟩
def SPN_LINK.trains (i : Nat) : Fld := ⟨8 * (0x170008 + 0x40 * i), 32⟩
def SPN_LINK.resend (i : Nat) : Fld := ⟨8 * (0x170010 + 0x40 * i), 48⟩
def PART_CTL.policy (u : Nat) : Fld := ⟨8 * (0x171000 + 0x100 * u) + 30, 2⟩
def PART_CTL.en (u : Nat) : Fld := ⟨8 * (0x171000 + 0x100 * u) + 29, 1⟩
def PART_CTL.ctx (u : Nat) : Fld := ⟨8 * (0x171000 + 0x100 * u) + 12, 6⟩
def PART_CTL.stage (u : Nat) : Fld := ⟨8 * (0x171000 + 0x100 * u), 12⟩
def PART_STAT.state (u : Nat) : Fld := ⟨8 * (0x171008 + 0x100 * u) + 61, 3⟩
def PART_STAT.mask (u : Nat) : Fld := ⟨8 * (0x171008 + 0x100 * u) + 56, 4⟩
def PART_STAT.pver (u : Nat) : Fld := ⟨8 * (0x171008 + 0x100 * u) + 48, 8⟩
def PART_STAT.kind (u : Nat) : Fld := ⟨8 * (0x171008 + 0x100 * u) + 32, 16⟩
def PART_STAT.epoch (u : Nat) : Fld := ⟨8 * (0x171008 + 0x100 * u), 32⟩
def PART_ROOT.digest (u j : Nat) : Fld := ⟨8 * (0x171040 + 0x100 * u + 0x8 * j), 64⟩
def HOST_STAT.ready : Fld := ⟨8 * (0x48) + 31, 1⟩
def HOST_STAT.error : Fld := ⟨8 * (0x48) + 30, 1⟩
def SQ_CFG.base (c q : Nat) : Fld := ⟨8 * (0x100000 + 0x1000 * c + 0x20 * q) + 6, 58⟩
def SQ_CFG.en (c q : Nat) : Fld := ⟨8 * (0x100008 + 0x1000 * c + 0x20 * q) + 31, 1⟩
def SQ_CFG.cq (c q : Nat) : Fld := ⟨8 * (0x100008 + 0x1000 * c + 0x20 * q) + 24, 4⟩
def SQ_CFG.ver (c q : Nat) : Fld := ⟨8 * (0x100008 + 0x1000 * c + 0x20 * q) + 16, 8⟩
def SQ_CFG.size (c q : Nat) : Fld := ⟨8 * (0x100008 + 0x1000 * c + 0x20 * q), 13⟩
def SQ_CFG.head (c q : Nat) : Fld := ⟨8 * (0x100010 + 0x1000 * c + 0x20 * q) + 16, 13⟩
def SQ_CFG.tail (c q : Nat) : Fld := ⟨8 * (0x100010 + 0x1000 * c + 0x20 * q), 13⟩
def CQ_CFG.base (c q : Nat) : Fld := ⟨8 * (0x100200 + 0x1000 * c + 0x20 * q) + 6, 58⟩
def CQ_CFG.coal_us (c q : Nat) : Fld := ⟨8 * (0x100208 + 0x1000 * c + 0x20 * q) + 32, 16⟩
def CQ_CFG.en (c q : Nat) : Fld := ⟨8 * (0x100208 + 0x1000 * c + 0x20 * q) + 31, 1⟩
def CQ_CFG.vec (c q : Nat) : Fld := ⟨8 * (0x100208 + 0x1000 * c + 0x20 * q) + 24, 5⟩
def CQ_CFG.coal_cnt (c q : Nat) : Fld := ⟨8 * (0x100208 + 0x1000 * c + 0x20 * q) + 16, 8⟩
def CQ_CFG.size (c q : Nat) : Fld := ⟨8 * (0x100208 + 0x1000 * c + 0x20 * q), 13⟩
def CQ_CFG.tail (c q : Nat) : Fld := ⟨8 * (0x100210 + 0x1000 * c + 0x20 * q) + 16, 13⟩
def CQ_CFG.head (c q : Nat) : Fld := ⟨8 * (0x100210 + 0x1000 * c + 0x20 * q), 13⟩
def RING_COMMIT.kind (c : Nat) : Fld := ⟨8 * (0x100400 + 0x1000 * c) + 4, 1⟩
def RING_COMMIT.ring (c : Nat) : Fld := ⟨8 * (0x100400 + 0x1000 * c), 4⟩
def RING_CSTAT.busy (c : Nat) : Fld := ⟨8 * (0x100404 + 0x1000 * c) + 31, 1⟩
def RING_CSTAT.result (c : Nat) : Fld := ⟨8 * (0x100404 + 0x1000 * c) + 6, 2⟩
def RING_CSTAT.kind (c : Nat) : Fld := ⟨8 * (0x100404 + 0x1000 * c) + 4, 1⟩
def RING_CSTAT.ring (c : Nat) : Fld := ⟨8 * (0x100404 + 0x1000 * c), 4⟩
def CTX_EVT.events (c : Nat) : Fld := ⟨8 * (0x100410 + 0x1000 * c), 4⟩
def CTX_EVTV.en (c : Nat) : Fld := ⟨8 * (0x100418 + 0x1000 * c) + 31, 1⟩
def CTX_EVTV.vec (c : Nat) : Fld := ⟨8 * (0x100418 + 0x1000 * c), 5⟩
def CTX_FAULT.faulted (c j : Nat) : Fld := ⟨8 * (0x100420 + 0x1000 * c + 0x8 * j), 64⟩
def CTX_STATE.state (c : Nat) : Fld := ⟨8 * (0x100430 + 0x1000 * c), 2⟩
def CTX_B4BASE.base (c : Nat) : Fld := ⟨8 * (0x180000 + 0x20 * c) + 12, 36⟩
def CTX_HSTAGE.en (c : Nat) : Fld := ⟨8 * (0x180008 + 0x20 * c) + 31, 1⟩
def CTX_HSTAGE.stage (c : Nat) : Fld := ⟨8 * (0x180008 + 0x20 * c), 12⟩
def DIE_OWN.assigned (n : Nat) : Fld := ⟨8 * (0x181000 + 0x8 * n) + 31, 1⟩
def DIE_OWN.zeroing (n : Nat) : Fld := ⟨8 * (0x181000 + 0x8 * n) + 30, 1⟩
def DIE_OWN.ctx (n : Nat) : Fld := ⟨8 * (0x181000 + 0x8 * n), 6⟩
def DIE_CMD.cmd : Fld := ⟨8 * (0x181100) + 28, 4⟩
def DIE_CMD.die : Fld := ⟨8 * (0x181100) + 8, 5⟩
def DIE_CMD.ctx : Fld := ⟨8 * (0x181100), 6⟩
def DIE_CSTAT.busy : Fld := ⟨8 * (0x181104) + 31, 1⟩
def DIE_CSTAT.result : Fld := ⟨8 * (0x181104) + 6, 2⟩
def DIE_CSTAT.die : Fld := ⟨8 * (0x181104), 5⟩
def OWN_LOCK.lockdown : Fld := ⟨8 * (0x182000) + 31, 1⟩
def OWN_LOCK.mgmt : Fld := ⟨8 * (0x182000), 8⟩
def OWN_LOG.count : Fld := ⟨8 * (0x182008) + 48, 16⟩
def OWN_LOG.master : Fld := ⟨8 * (0x182008) + 47, 1⟩
def OWN_LOG.offset : Fld := ⟨8 * (0x182008), 26⟩
def ORD.kind : Fld := ⟨8 * (0x182010) + 28, 4⟩
def ORD.arg : Fld := ⟨8 * (0x182010), 16⟩
def ORD_STAT.busy : Fld := ⟨8 * (0x182014) + 31, 1⟩
def ORD_STAT.result : Fld := ⟨8 * (0x182014) + 4, 2⟩
def ORD_STAT.kind : Fld := ⟨8 * (0x182014), 4⟩
def SEC_STAT.measuring : Fld := ⟨8 * (0x3c00000) + 63, 1⟩
def SEC_STAT.recovery : Fld := ⟨8 * (0x3c00000) + 62, 1⟩
def SEC_STAT.pending : Fld := ⟨8 * (0x3c00000) + 59, 2⟩
def SEC_STAT.bank_b : Fld := ⟨8 * (0x3c00000) + 57, 1⟩
def SEC_STAT.bank_a : Fld := ⟨8 * (0x3c00000) + 56, 1⟩
def SEC_STAT.svn_floor : Fld := ⟨8 * (0x3c00000), 32⟩
def SEC_MGEN.gen : Fld := ⟨8 * (0x3c00008), 64⟩
def SEC_BANK.fwver (k : Nat) : Fld := ⟨8 * (0x3c00010 + 0x8 * k) + 32, 32⟩
def SEC_BANK.valid (k : Nat) : Fld := ⟨8 * (0x3c00010 + 0x8 * k) + 31, 1⟩
def SEC_BANK.mixable (k : Nat) : Fld := ⟨8 * (0x3c00010 + 0x8 * k) + 30, 1⟩
def SEC_BANK.svn (k : Nat) : Fld := ⟨8 * (0x3c00010 + 0x8 * k), 16⟩
def SEC_FWCMD.cmd : Fld := ⟨8 * (0x3c00040) + 28, 4⟩
def SEC_PERMLOG0.addr : Fld := ⟨8 * (0x3c00200), 48⟩
def SEC_PERMLOG1.count : Fld := ⟨8 * (0x3c00208) + 48, 16⟩
def SEC_PERMLOG1.kind : Fld := ⟨8 * (0x3c00208) + 9, 4⟩
def SEC_PERMLOG1.write : Fld := ⟨8 * (0x3c00208) + 8, 1⟩
def SEC_PERMLOG1.ctx : Fld := ⟨8 * (0x3c00208), 6⟩
def SEC_LOGCLR.clear : Fld := ⟨8 * (0x3c00210), 1⟩
def PWR_STAT.rung : Fld := ⟨8 * (0x190000) + 61, 3⟩
def PWR_STAT.target : Fld := ⟨8 * (0x190000) + 58, 3⟩
def PWR_STAT.busy : Fld := ⟨8 * (0x190000) + 57, 1⟩
def PWR_STAT.fzero : Fld := ⟨8 * (0x190000) + 56, 1⟩
def PWR_STAT.ceiling : Fld := ⟨8 * (0x190000) + 52, 4⟩
def PWR_CAP.watts : Fld := ⟨8 * (0x190008), 12⟩
def PWR_CTL.perst_warm : Fld := ⟨8 * (0x190010) + 31, 1⟩
def PWR_CTL.cap_us : Fld := ⟨8 * (0x190010), 8⟩
def PWR_MEAS.volts : Fld := ⟨8 * (0x190018) + 48, 16⟩
def PWR_MEAS.amps : Fld := ⟨8 * (0x190018) + 32, 16⟩
def PWR_MEAS.watts : Fld := ⟨8 * (0x190018), 16⟩
def PWR_PD.on (j : Nat) : Fld := ⟨8 * (0x190020 + 0x8 * j), 64⟩
def PWR_PDOFF.hold (j : Nat) : Fld := ⟨8 * (0x190030 + 0x8 * j), 64⟩
def PWR_BOOT.cause : Fld := ⟨8 * (0x190040) + 60, 4⟩
def PWR_BOOT.last : Fld := ⟨8 * (0x190040) + 56, 4⟩
def PWR_BOOT.ms : Fld := ⟨8 * (0x190040), 32⟩
def LOCAL_CNT.ticks (s : Nat) : Fld := ⟨8 * (0x190100 + 0x8 * s), 64⟩
def THM_CD.limit (n : Nat) : Fld := ⟨8 * (0x191000 + 0x40 * n) + 62, 2⟩
def THM_CD.hot (n : Nat) : Fld := ⟨8 * (0x191000 + 0x40 * n) + 48, 4⟩
def THM_CD.grid_max (n : Nat) : Fld := ⟨8 * (0x191000 + 0x40 * n) + 32, 16⟩
def THM_CD.cd_temp (n : Nat) : Fld := ⟨8 * (0x191000 + 0x40 * n) + 16, 16⟩
def THM_CD.row (n r : Nat) : Fld := ⟨8 * (0x191008 + 0x40 * n + 0x8 * r), 64⟩
def THM_CD.throttled (n : Nat) : Fld := ⟨8 * (0x191028 + 0x40 * n), 48⟩
def THM_LD.max (h : Nat) : Fld := ⟨8 * (0x192000 + 0x8 * h) + 48, 16⟩
def THM_HBM.temp (i : Nat) : Fld := ⟨8 * (0x192100 + 0x8 * i), 16⟩
def THM_COOL.inlet : Fld := ⟨8 * (0x192200) + 48, 16⟩
def THM_COOL.outlet : Fld := ⟨8 * (0x192200) + 32, 16⟩
def THM_COOL.inlet_hi : Fld := ⟨8 * (0x192200) + 1, 1⟩
def THM_COOL.leak : Fld := ⟨8 * (0x192200), 1⟩
def MTR_ID.fwid : Fld := ⟨8 * (0x3d00000), 64⟩
def MTR_STAT.cksum : Fld := ⟨8 * (0x3d00008) + 32, 32⟩
def MTR_STAT.link : Fld := ⟨8 * (0x3d00008) + 31, 1⟩
def MTR_STAT.seal_broken : Fld := ⟨8 * (0x3d00008) + 30, 1⟩
def MTR_STAT.over_range : Fld := ⟨8 * (0x3d00008) + 29, 1⟩
def MTR_STAT.stopped : Fld := ⟨8 * (0x3d00008) + 28, 1⟩
def MTR_STAT.cls : Fld := ⟨8 * (0x3d00008), 8⟩
def MTR_IDX.app : Fld := ⟨8 * (0x3d00010) + 1, 1⟩
def MTR_IDX.rec : Fld := ⟨8 * (0x3d00010), 1⟩
def MTR_LOGHD.newest : Fld := ⟨8 * (0x3d00018), 32⟩
def MTR_APCFG.w_arr : Fld := ⟨8 * (0x3d00020) + 48, 16⟩
def MTR_APCFG.w_sap : Fld := ⟨8 * (0x3d00020) + 32, 16⟩
def MTR_APCFG.w_glz : Fld := ⟨8 * (0x3d00020) + 16, 16⟩
def MTR_APCFG.w_bnd : Fld := ⟨8 * (0x3d00020), 16⟩
def MTR_APCFG2.p_base : Fld := ⟨8 * (0x3d00028) + 16, 12⟩
def MTR_APCFG2.w_haul : Fld := ⟨8 * (0x3d00028), 16⟩
def MTR_CLEN.len : Fld := ⟨8 * (0x3d00030), 12⟩
def RAS_STAT.fatal : Fld := ⟨8 * (0x3e00000) + 63, 1⟩
def RAS_STAT.valid : Fld := ⟨8 * (0x3e00000) + 62, 1⟩
def RAS_STAT.new : Fld := ⟨8 * (0x3e00000) + 61, 1⟩
def RAS_STAT.code : Fld := ⟨8 * (0x3e00000) + 32, 16⟩
def RAS_STAT.samples : Fld := ⟨8 * (0x3e00000) + 16, 16⟩
def RAS_STAT.supp : Fld := ⟨8 * (0x3e00000), 16⟩
def RAS_CTL.vec_en : Fld := ⟨8 * (0x3e00008) + 31, 1⟩
def RAS_CTL.shrink_pin : Fld := ⟨8 * (0x3e00008) + 30, 1⟩
def RAS_CTL.vec : Fld := ⟨8 * (0x3e00008), 5⟩
def RAS_MFAIL.ticks : Fld := ⟨8 * (0x3e00010), 64⟩
def RAS_LOGHD.lost : Fld := ⟨8 * (0x3e00018) + 48, 16⟩
def RAS_LOGHD.newest : Fld := ⟨8 * (0x3e00018), 32⟩
def RAS_TEL.base (c : Nat) : Fld := ⟨8 * (0x3e00100 + 0x20 * c), 48⟩
def RAS_TEL.n (c : Nat) : Fld := ⟨8 * (0x3e00108 + 0x20 * c) + 16, 16⟩
def RAS_TEL.size (c : Nat) : Fld := ⟨8 * (0x3e00108 + 0x20 * c), 16⟩
def RAS_TEL.last (c : Nat) : Fld := ⟨8 * (0x3e00110 + 0x20 * c), 48⟩
def MOD_PIN.perst : Fld := ⟨8 * (0x3e30000) + 11, 1⟩
def MOD_PIN.alert : Fld := ⟨8 * (0x3e30000) + 10, 1⟩
def MOD_PIN.therm : Fld := ⟨8 * (0x3e30000) + 9, 1⟩
def MOD_PIN.leak : Fld := ⟨8 * (0x3e30000) + 8, 1⟩
def MOD_ALERT.meter : Fld := ⟨8 * (0x3e30008) + 7, 1⟩
def MOD_ALERT.input : Fld := ⟨8 * (0x3e30008) + 6, 1⟩
def MOD_ALERT.cap : Fld := ⟨8 * (0x3e30008) + 5, 1⟩
def MOD_ALERT.coolant : Fld := ⟨8 * (0x3e30008) + 4, 1⟩
def MOD_ALERT.leak : Fld := ⟨8 * (0x3e30008) + 3, 1⟩
def MOD_ALERT.therm : Fld := ⟨8 * (0x3e30008) + 2, 1⟩
def MOD_ALERT.fatal : Fld := ⟨8 * (0x3e30008) + 1, 1⟩
def MOD_ALERT.mlost : Fld := ⟨8 * (0x3e30008), 1⟩
def FLM_DESC.version (f : Nat) : Fld := ⟨8 * (0x3000000 + 0x40 * f), 8⟩
def FLM_DESC.en (f : Nat) : Fld := ⟨8 * (0x3000000 + 0x40 * f) + 15, 1⟩
def FLM_DESC.dir (f : Nat) : Fld := ⟨8 * (0x3000000 + 0x40 * f) + 13, 2⟩
def FLM_DESC.remote (f : Nat) : Fld := ⟨8 * (0x3000000 + 0x40 * f) + 12, 1⟩
def FLM_DESC.bal_pin (f : Nat) : Fld := ⟨8 * (0x3000000 + 0x40 * f) + 11, 1⟩
def FLM_DESC.prod (f : Nat) : Fld := ⟨8 * (0x3000000 + 0x40 * f) + 16, 12⟩
def FLM_DESC.cons (f : Nat) : Fld := ⟨8 * (0x3000000 + 0x40 * f) + 32, 12⟩
def FLM_DESC.depth (f : Nat) : Fld := ⟨8 * (0x3000000 + 0x40 * f) + 48, 13⟩
def FLM_DESC.rec_size (f : Nat) : Fld := ⟨8 * (0x3000008 + 0x40 * f), 15⟩
def FLM_DESC.ctx (f : Nat) : Fld := ⟨8 * (0x3000008 + 0x40 * f) + 16, 6⟩
def FLM_DESC.pair_en (f : Nat) : Fld := ⟨8 * (0x3000008 + 0x40 * f) + 47, 1⟩
def FLM_DESC.pair (f : Nat) : Fld := ⟨8 * (0x3000008 + 0x40 * f) + 32, 13⟩
def FLM_DESC.floor (f : Nat) : Fld := ⟨8 * (0x3000008 + 0x40 * f) + 48, 13⟩
def FLM_DESC.store_base (f : Nat) : Fld := ⟨8 * (0x3000010 + 0x40 * f), 48⟩
def FLM_DESC.store_slots (f : Nat) : Fld := ⟨8 * (0x3000018 + 0x40 * f), 13⟩
def FLM_DESC.spill_lim (f : Nat) : Fld := ⟨8 * (0x3000018 + 0x40 * f) + 16, 13⟩
def FLM_DESC.hiwm (f : Nat) : Fld := ⟨8 * (0x3000018 + 0x40 * f) + 32, 13⟩
def FLM_DESC.lowm (f : Nat) : Fld := ⟨8 * (0x3000018 + 0x40 * f) + 48, 13⟩
def FLM_DESC.spill_base (f : Nat) : Fld := ⟨8 * (0x3000020 + 0x40 * f), 48⟩
def FLM_DESC.chan (f : Nat) : Fld := ⟨8 * (0x3000028 + 0x40 * f), 13⟩

end R

/-- One row of the reset values that are not 0: first bit address, up to two strides with their counts, the value. -/
structure ResetRow where
  a  : Nat
  s1 : Nat
  n1 : Nat
  s2 : Nat
  n2 : Nat
  v  : Nat
deriving DecidableEq, Repr

/-- The fields whose Reset column is not 0; the last row is the sealed field SEC_BANK[0].valid (log entry 3). -/
def resetRows : List ResetRow :=
  [⟨268468224, 4194304, 24, 0, 1, 32⟩,
   ⟨461373568, 0, 1, 0, 1, 175000000⟩,
   ⟨461897744, 0, 1, 0, 1, 8⟩,
   ⟨461897728, 0, 1, 0, 1, 2048⟩,
   ⟨476053568, 0, 1, 0, 1, 175000000⟩,
   ⟨10616832, 128, 64, 0, 1, 2139095040⟩,
   ⟨11010064, 512, 64, 0, 1, 10⟩,
   ⟨11010048, 512, 64, 0, 1, 16⟩,
   ⟨11010080, 512, 64, 0, 1, 1040187392⟩,
   ⟨268959784, 4194304, 24, 1024, 256, 127⟩,
   ⟨268959772, 4194304, 24, 1024, 256, 1⟩,
   ⟨268959768, 4194304, 24, 1024, 256, 1⟩,
   ⟨268959744, 4194304, 24, 1024, 256, 1000⟩,
   ⟨268959864, 4194304, 24, 1024, 256, 127⟩,
   ⟨478150686, 512, 4, 0, 1, 1⟩,
   ⟨480247832, 0, 1, 0, 1, 2⟩,
   ⟨480247808, 0, 1, 0, 1, 16⟩,
   ⟨480247872, 0, 1, 0, 1, 3600⟩,
   ⟨487063680, 0, 1, 0, 1, 10500000000⟩,
   ⟨11732992, 0, 1, 0, 1, 86400⟩,
   ⟨11733024, 0, 1, 0, 1, 86400⟩,
   ⟨494960834, 512, 24, 0, 1, 3⟩,
   ⟨494960832, 512, 24, 0, 1, 1⟩,
   ⟨496500752, 128, 64, 0, 1, 31⟩,
   ⟨496500744, 128, 64, 0, 1, 31⟩,
   ⟨496500736, 128, 64, 0, 1, 31⟩,
   ⟨497025116, 512, 24, 0, 1, 3⟩,
   ⟨497025088, 512, 24, 0, 1, 9216⟩,
   ⟨13107252, 0, 1, 0, 1, 8⟩,
   ⟨13107264, 0, 1, 0, 1, 3800⟩,
   ⟨13107359, 0, 1, 0, 1, 1⟩,
   ⟨13107328, 0, 1, 0, 1, 10⟩,
   ⟨511705152, 0, 1, 0, 1, 5⟩,
   ⟨511705392, 0, 1, 0, 1, 8600⟩,
   ⟨511705376, 0, 1, 0, 1, 7000⟩,
   ⟨511705360, 0, 1, 0, 1, 1400⟩,
   ⟨511705344, 0, 1, 0, 1, 100⟩,
   ⟨511705424, 0, 1, 0, 1, 600⟩,
   ⟨511705408, 0, 1, 0, 1, 20⟩,
   ⟨520093824, 0, 1, 0, 1, 350000000⟩,
   ⟨402653184, 512, 8192, 0, 1, 1⟩,
   ⟨503316639, 0, 1, 0, 1, 1⟩]

/-- True when the row names bit address `x`. -/
def ResetRow.hits (r : ResetRow) (x : Nat) : Bool :=
  decide (r.a ≤ x) &&
    (let d := x - r.a
     let i := if r.s1 = 0 then 0 else min (d / r.s1) (r.n1 - 1)
     let d2 := d - i * r.s1
     if r.s2 = 0 then decide (d2 = 0) else decide (d2 % r.s2 = 0 ∧ d2 / r.s2 < r.n2))

/-- The reset value of the field at bit address `x` (the Reset columns; 0 where they give none). -/
def resetVal (x : Nat) : Nat :=
  match resetRows.find? (fun r => r.hits x) with
  | some r => r.v
  | none => 0

end Sys2Proof.Machine
end

