-- ==== Sys2Proof/Machine/RegTable.lean ====
section
/-! DEFINITION. Machine/RegTable.lean: the register words of BAR0 with the bits, access code (R8) and place of every field,
row for row as the register maps of the chapters give them; reserved bits are in no field (R9). -/

namespace Sys2Proof.Machine

/-- Access codes (R8). -/
inductive Acc where
  | ro
  | rw
  | wo
  | rwc
  | stg
  | own
deriving DecidableEq, Repr

/-- One field of a register word. -/
structure FldRow where
  lo  : Nat
  w   : Nat
  acc : Acc
deriving DecidableEq, Repr

/-- One register word: its first address, the strides of its indices with their counts, its width and its fields. -/
structure RegRow where
  name    : String
  base    : Nat
  strides : List (Nat × Nat)
  bits    : Nat
  fields  : List FldRow
deriving DecidableEq, Repr

/-- Part 0 of the register map. -/
def regTable0 : List RegRow :=
  [⟨"MMA_CTL", 0x2001000, [(0x80000, 24)], 32,
     [⟨15, 1, .own⟩, ⟨0, 7, .own⟩]⟩,
   ⟨"MMA_STAT", 0x2001004, [(0x80000, 24)], 32,
     [⟨24, 8, .ro⟩, ⟨16, 8, .ro⟩, ⟨0, 8, .ro⟩]⟩,
   ⟨"MMA_MODE", 0x2001008, [(0x80000, 24)], 32,
     [⟨6, 1, .ro⟩, ⟨4, 2, .ro⟩, ⟨0, 4, .ro⟩]⟩,
   ⟨"MMA_LEVEL", 0x200100c, [(0x80000, 24)], 32,
     [⟨0, 32, .ro⟩]⟩,
   ⟨"MMA_EXPSAT", 0x2001040, [(0x80000, 24), (0x8, 9)], 64,
     [⟨0, 48, .ro⟩]⟩,
   ⟨"MMA_ACT", 0x2001100, [(0x80000, 24), (0x8, 9)], 64,
     [⟨0, 48, .ro⟩]⟩,
   ⟨"MMA_FILL", 0x2001180, [(0x80000, 24), (0x8, 8)], 64,
     [⟨0, 48, .ro⟩]⟩,
   ⟨"MMA_CNT_CLR", 0x20010f0, [(0x80000, 24)], 32,
     [⟨0, 9, .wo⟩]⟩,
   ⟨"GLZ_STAT", 0x2002000, [(0x80000, 24)], 32,
     [⟨16, 2, .ro⟩, ⟨0, 16, .ro⟩]⟩,
   ⟨"GLZ_STEPFLAG", 0x2002008, [(0x80000, 24)], 32,
     [⟨12, 4, .rwc⟩, ⟨8, 4, .rwc⟩, ⟨4, 4, .rwc⟩, ⟨0, 4, .rwc⟩]⟩,
   ⟨"GLZ_NONFIN", 0x2002040, [(0x80000, 24), (0x8, 4)], 64,
     [⟨0, 48, .ro⟩]⟩,
   ⟨"GLZ_OVF", 0x2002060, [(0x80000, 24), (0x8, 4)], 64,
     [⟨0, 48, .ro⟩]⟩,
   ⟨"GLZ_INV", 0x2002080, [(0x80000, 24), (0x8, 4)], 64,
     [⟨0, 48, .ro⟩]⟩,
   ⟨"GLZ_SAT", 0x20020a0, [(0x80000, 24), (0x8, 4)], 64,
     [⟨0, 48, .ro⟩]⟩,
   ⟨"GLZ_ACT", 0x20020c0, [(0x80000, 24), (0x8, 2)], 64,
     [⟨0, 48, .ro⟩]⟩,
   ⟨"GLZ_CNT_CLR", 0x20020f0, [(0x80000, 24)], 32,
     [⟨4, 2, .wo⟩, ⟨0, 4, .wo⟩]⟩,
   ⟨"TS_ECC", 0x2003000, [(0x80000, 24)], 64,
     [⟨48, 16, .ro⟩, ⟨32, 16, .ro⟩, ⟨0, 26, .ro⟩]⟩,
   ⟨"TR_ECC", 0x2003008, [(0x80000, 24)], 64,
     [⟨48, 16, .ro⟩, ⟨32, 16, .ro⟩, ⟨4, 3, .ro⟩, ⟨0, 4, .ro⟩]⟩,
   ⟨"ECC_CLR", 0x2003010, [(0x80000, 24)], 32,
     [⟨0, 2, .wo⟩]⟩,
   ⟨"GLZ_TCNT", 0x200c000, [(0x80000, 24), (0x8, 1024)], 64,
     [⟨32, 32, .rwc⟩, ⟨0, 32, .rwc⟩]⟩,
   ⟨"FLM_STAT", 0x3080000, [(0x10, 8192)], 64,
     [⟨61, 3, .ro⟩, ⟨60, 1, .ro⟩, ⟨59, 1, .ro⟩, ⟨58, 1, .ro⟩, ⟨57, 1, .ro⟩, ⟨32, 13, .ro⟩, ⟨16, 13, .ro⟩, ⟨0, 13, .ro⟩]⟩,
   ⟨"FLM_SEQ", 0x3080008, [(0x10, 8192)], 64,
     [⟨32, 32, .ro⟩, ⟨0, 32, .ro⟩]⟩,
   ⟨"FLM_CNT", 0x3100000, [(0x40, 8192)], 64,
     [⟨0, 48, .ro⟩]⟩,
   ⟨"FLM_CNT", 0x3100008, [(0x40, 8192)], 64,
     [⟨0, 48, .ro⟩]⟩,
   ⟨"FLM_CNT", 0x3100010, [(0x40, 8192)], 64,
     [⟨0, 48, .ro⟩]⟩,
   ⟨"FLM_CNT", 0x3100018, [(0x40, 8192)], 64,
     [⟨0, 48, .ro⟩]⟩,
   ⟨"FLM_CNT", 0x3100020, [(0x40, 8192)], 64,
     [⟨0, 48, .ro⟩]⟩,
   ⟨"FLM_CNT", 0x3100028, [(0x40, 8192)], 64,
     [⟨0, 48, .ro⟩]⟩,
   ⟨"FLM_COMMIT", 0x3700000, [], 32,
     [⟨0, 13, .wo⟩]⟩,
   ⟨"FLM_CSTAT", 0x3700004, [], 32,
     [⟨31, 1, .ro⟩, ⟨13, 2, .ro⟩, ⟨0, 13, .ro⟩]⟩]

/-- Part 1 of the register map. -/
def regTable1 : List RegRow :=
  [⟨"FLM_CMD", 0x3700008, [], 32,
     [⟨28, 4, .wo⟩, ⟨0, 13, .wo⟩]⟩,
   ⟨"FLM_TMO", 0x3700010, [], 32,
     [⟨0, 32, .own⟩]⟩,
   ⟨"FLM_BAL_CTL", 0x3710000, [], 32,
     [⟨31, 1, .own⟩, ⟨16, 8, .own⟩, ⟨0, 16, .own⟩]⟩,
   ⟨"FLM_BAL_LAST0", 0x3710008, [], 64,
     [⟨0, 48, .ro⟩]⟩,
   ⟨"FLM_BAL_LAST1", 0x3710010, [], 64,
     [⟨32, 12, .ro⟩, ⟨16, 12, .ro⟩, ⟨0, 8, .ro⟩]⟩,
   ⟨"SCHED_BASE", 0x2005000, [(0x80000, 24), (0x20, 4)], 32,
     [⟨0, 32, .rw⟩]⟩,
   ⟨"SCHED_COUNT", 0x2005004, [(0x80000, 24), (0x20, 4)], 32,
     [⟨0, 32, .rw⟩]⟩,
   ⟨"SCHED_CTL", 0x2005008, [(0x80000, 24), (0x20, 4)], 32,
     [⟨24, 8, .rw⟩, ⟨16, 8, .rw⟩, ⟨8, 8, .ro⟩, ⟨0, 2, .rw⟩]⟩,
   ⟨"SCHED_ROUND", 0x200500c, [(0x80000, 24), (0x20, 4)], 32,
     [⟨0, 32, .rw⟩]⟩,
   ⟨"SCHED_ENT", 0x2006000, [(0x80000, 24), (0x400, 4), (0x4, 256)], 32,
     [⟨16, 13, .rw⟩, ⟨0, 16, .rw⟩]⟩,
   ⟨"VER_HDR", 0x3800000, [(0x2000, 96)], 64,
     [⟨32, 32, .ro⟩, ⟨5, 1, .ro⟩, ⟨4, 1, .ro⟩, ⟨0, 1, .own⟩]⟩,
   ⟨"VER_ADMIT", 0x3800008, [(0x2000, 96)], 64,
     [⟨32, 32, .own⟩, ⟨31, 1, .own⟩, ⟨30, 1, .ro⟩]⟩,
   ⟨"VER_CUR", 0x3800010, [(0x2000, 96)], 64,
     [⟨32, 32, .ro⟩, ⟨16, 16, .ro⟩]⟩,
   ⟨"VER_SLOT", 0x3800040, [(0x2000, 96), (0x40, 4)], 64,
     [⟨32, 32, .ro⟩, ⟨16, 16, .ro⟩, ⟨8, 8, .stg⟩, ⟨7, 1, .ro⟩, ⟨0, 2, .ro⟩]⟩,
   ⟨"VER_SLOT", 0x3800048, [(0x2000, 96), (0x40, 4)], 64,
     [⟨32, 32, .ro⟩]⟩,
   ⟨"VER_LBASE", 0x3800200, [(0x2000, 96), (0x780, 4), (0x8, 240)], 64,
     [⟨0, 48, .stg⟩]⟩,
   ⟨"VER_CTL", 0x38c0000, [], 32,
     [⟨31, 1, .own⟩]⟩,
   ⟨"VER_TMO", 0x38c0008, [], 32,
     [⟨0, 32, .own⟩]⟩,
   ⟨"VER_CMD", 0x38c0010, [], 32,
     [⟨28, 4, .wo⟩, ⟨2, 7, .wo⟩, ⟨0, 2, .wo⟩]⟩,
   ⟨"VER_CSTAT", 0x38c0018, [], 32,
     [⟨31, 1, .ro⟩, ⟨8, 2, .ro⟩, ⟨0, 7, .ro⟩]⟩,
   ⟨"VER_LOG0", 0x38c0020, [], 64,
     [⟨32, 32, .ro⟩, ⟨0, 32, .ro⟩]⟩,
   ⟨"VER_LOG1", 0x38c0028, [], 64,
     [⟨8, 3, .ro⟩, ⟨0, 7, .ro⟩]⟩,
   ⟨"VER_CNT", 0x38d0000, [(0x20, 96)], 64,
     [⟨0, 48, .ro⟩]⟩,
   ⟨"VER_CNT", 0x38d0008, [(0x20, 96)], 64,
     [⟨0, 48, .ro⟩]⟩,
   ⟨"VER_CNT", 0x38d0010, [(0x20, 96)], 64,
     [⟨0, 48, .ro⟩]⟩,
   ⟨"VER_CNT", 0x38d0018, [(0x20, 96)], 64,
     [⟨0, 48, .ro⟩]⟩,
   ⟨"SEQ_IMG", 0x2008000, [(0x80000, 24), (0x100, 4)], 64,
     [⟨0, 48, .stg⟩]⟩,
   ⟨"SEQ_BIND", 0x2008008, [(0x80000, 24), (0x100, 4)], 32,
     [⟨31, 1, .stg⟩, ⟨12, 6, .stg⟩, ⟨0, 12, .stg⟩]⟩,
   ⟨"SEQ_BCOMMIT", 0x2008010, [(0x80000, 24), (0x100, 4)], 32,
     [⟨0, 1, .wo⟩]⟩,
   ⟨"SEQ_BSTAT", 0x2008014, [(0x80000, 24), (0x100, 4)], 32,
     [⟨31, 1, .ro⟩, ⟨4, 4, .ro⟩, ⟨0, 2, .ro⟩]⟩]

/-- Part 2 of the register map. -/
def regTable2 : List RegRow :=
  [⟨"SEQ_CMD", 0x2008018, [(0x80000, 24), (0x100, 4)], 32,
     [⟨0, 4, .wo⟩]⟩,
   ⟨"SEQ_STAT", 0x2008020, [(0x80000, 24), (0x100, 4)], 64,
     [⟨61, 3, .ro⟩, ⟨60, 1, .ro⟩, ⟨56, 4, .ro⟩, ⟨0, 14, .ro⟩]⟩,
   ⟨"SEQ_PC", 0x2008028, [(0x80000, 24), (0x100, 4)], 32,
     [⟨0, 14, .own⟩]⟩,
   ⟨"SEQ_EXC0", 0x2008030, [(0x80000, 24), (0x100, 4)], 64,
     [⟨32, 16, .ro⟩, ⟨14, 2, .ro⟩, ⟨0, 14, .ro⟩]⟩,
   ⟨"SEQ_EXC1", 0x2008038, [(0x80000, 24), (0x100, 4)], 64,
     [⟨0, 64, .ro⟩]⟩,
   ⟨"SEQ_WDOG", 0x2008040, [(0x80000, 24), (0x100, 4)], 32,
     [⟨0, 32, .own⟩]⟩,
   ⟨"SEQ_CNT", 0x2008048, [(0x80000, 24), (0x100, 4)], 64,
     [⟨0, 48, .ro⟩]⟩,
   ⟨"SEQ_CNT", 0x2008050, [(0x80000, 24), (0x100, 4)], 64,
     [⟨0, 48, .ro⟩]⟩,
   ⟨"CUT_BASE", 0x140000, [(0x20, 64), (0x8, 3)], 64,
     [⟨0, 48, .stg⟩]⟩,
   ⟨"CUT_CTL", 0x140018, [(0x20, 64)], 32,
     [⟨16, 12, .own⟩]⟩,
   ⟨"CUT_COMMIT", 0x141000, [], 32,
     [⟨8, 2, .wo⟩, ⟨0, 6, .wo⟩]⟩,
   ⟨"CUT_CSTAT", 0x141004, [], 32,
     [⟨31, 1, .ro⟩, ⟨16, 2, .ro⟩, ⟨12, 4, .ro⟩, ⟨8, 2, .ro⟩, ⟨0, 6, .ro⟩]⟩,
   ⟨"CUT_CMD", 0x141008, [], 32,
     [⟨28, 4, .wo⟩, ⟨8, 2, .wo⟩, ⟨0, 6, .wo⟩]⟩,
   ⟨"CUT_EPOCH", 0x142000, [(0x8, 64)], 64,
     [⟨48, 3, .ro⟩, ⟨0, 48, .ro⟩]⟩,
   ⟨"CUT_PH", 0x143000, [(0x8, 96)], 32,
     [⟨3, 1, .ro⟩, ⟨2, 1, .ro⟩, ⟨0, 2, .ro⟩]⟩,
   ⟨"CUT_ROW", 0x143400, [(0x8, 96)], 32,
     [⟨31, 1, .own⟩, ⟨26, 3, .own⟩, ⟨0, 26, .own⟩]⟩,
   ⟨"NORM_MAX", 0x144000, [(0x10, 64)], 32,
     [⟨0, 32, .own⟩]⟩,
   ⟨"NORM_RES", 0x144008, [(0x10, 64)], 64,
     [⟨32, 32, .ro⟩, ⟨0, 32, .ro⟩]⟩,
   ⟨"NORM_SUM", 0x145000, [(0x8, 64)], 64,
     [⟨32, 32, .ro⟩, ⟨31, 1, .ro⟩, ⟨0, 12, .ro⟩]⟩,
   ⟨"VAR_ENT", 0x1100000, [(0x400000, 4), (0x20000, 24), (0x20, 4096)], 64,
     [⟨32, 32, .ro⟩, ⟨16, 9, .stg⟩, ⟨4, 4, .stg⟩, ⟨1, 1, .stg⟩, ⟨0, 1, .stg⟩]⟩,
   ⟨"VAR_ENT", 0x1100008, [(0x400000, 4), (0x20000, 24), (0x20, 4096)], 64,
     [⟨0, 48, .stg⟩]⟩,
   ⟨"VAR_ENT", 0x1100010, [(0x400000, 4), (0x20000, 24), (0x20, 4096)], 64,
     [⟨0, 48, .stg⟩]⟩,
   ⟨"VAR_COMMIT", 0x10f0000, [(0x400000, 4)], 32,
     [⟨12, 5, .wo⟩, ⟨0, 12, .wo⟩]⟩,
   ⟨"VAR_CSTAT", 0x10f0004, [(0x400000, 4)], 32,
     [⟨31, 1, .ro⟩, ⟨0, 2, .ro⟩]⟩,
   ⟨"NUM_CTL", 0x150000, [(0x40, 64)], 32,
     [⟨31, 1, .own⟩, ⟨30, 1, .own⟩, ⟨16, 5, .own⟩, ⟨0, 16, .own⟩]⟩,
   ⟨"NUM_SHTHR", 0x150004, [(0x40, 64)], 32,
     [⟨0, 32, .own⟩]⟩,
   ⟨"NUM_BASE", 0x150008, [(0x40, 64)], 64,
     [⟨0, 48, .own⟩]⟩,
   ⟨"NUM_STEP", 0x150010, [(0x40, 64)], 64,
     [⟨0, 48, .own⟩]⟩,
   ⟨"NUM_STAT", 0x150018, [(0x40, 64)], 64,
     [⟨63, 1, .ro⟩, ⟨62, 1, .ro⟩, ⟨48, 8, .ro⟩, ⟨0, 48, .ro⟩]⟩,
   ⟨"NUM_SKIP", 0x150020, [(0x40, 64)], 64,
     [⟨48, 16, .ro⟩, ⟨0, 48, .ro⟩]⟩]

/-- Part 3 of the register map. -/
def regTable3 : List RegRow :=
  [⟨"NUM_SKLAST", 0x150028, [(0x40, 64)], 64,
     [⟨16, 48, .ro⟩, ⟨0, 8, .ro⟩]⟩,
   ⟨"NUM_PROM", 0x150030, [(0x40, 64)], 64,
     [⟨48, 16, .ro⟩, ⟨0, 48, .ro⟩]⟩,
   ⟨"NUM_PROMCNT", 0x150038, [(0x40, 64)], 64,
     [⟨0, 48, .ro⟩]⟩,
   ⟨"NUM_CMD", 0x151000, [], 32,
     [⟨28, 4, .wo⟩, ⟨0, 6, .wo⟩]⟩,
   ⟨"NUM_SCTL", 0x2010000, [(0x80000, 24), (0x80, 256)], 64,
     [⟨48, 12, .own⟩, ⟨40, 8, .own⟩, ⟨36, 4, .own⟩, ⟨34, 2, .own⟩, ⟨33, 1, .own⟩, ⟨28, 4, .own⟩, ⟨24, 4, .own⟩, ⟨0, 16, .own⟩]⟩,
   ⟨"NUM_SSTAT", 0x2010008, [(0x80000, 24), (0x80, 256)], 64,
     [⟨56, 8, .ro⟩, ⟨48, 8, .ro⟩, ⟨32, 16, .ro⟩, ⟨16, 5, .ro⟩]⟩,
   ⟨"NUM_SAMAX", 0x2010010, [(0x80000, 24), (0x80, 256)], 64,
     [⟨32, 32, .ro⟩, ⟨0, 32, .ro⟩]⟩,
   ⟨"NUM_SHIST", 0x2010040, [(0x80000, 24), (0x80, 256), (0x4, 16)], 32,
     [⟨0, 32, .ro⟩]⟩,
   ⟨"NUM_GUARD", 0x2018000, [(0x80000, 24), (0x8, 16)], 64,
     [⟨0, 64, .own⟩]⟩,
   ⟨"HAUL_CHAN", 0x3900000, [(0x40, 64)], 32,
     [⟨31, 1, .stg⟩, ⟨30, 1, .ro⟩, ⟨24, 6, .stg⟩, ⟨11, 11, .stg⟩]⟩,
   ⟨"HAUL_RING", 0x3900008, [(0x40, 64)], 64,
     [⟨0, 48, .stg⟩]⟩,
   ⟨"HAUL_RLEN", 0x3900010, [(0x40, 64)], 32,
     [⟨0, 16, .stg⟩]⟩,
   ⟨"HAUL_PTR", 0x3900018, [(0x40, 64)], 32,
     [⟨16, 16, .ro⟩, ⟨0, 16, .own⟩]⟩,
   ⟨"HAUL_CSTAT", 0x3900020, [(0x40, 64)], 64,
     [⟨62, 2, .ro⟩, ⟨32, 16, .ro⟩, ⟨0, 32, .ro⟩]⟩,
   ⟨"HAUL_BYTES", 0x3900028, [(0x40, 64)], 64,
     [⟨0, 48, .ro⟩]⟩,
   ⟨"HAUL_SAT", 0x3900030, [(0x40, 64)], 64,
     [⟨0, 48, .ro⟩]⟩,
   ⟨"HAUL_CCOMMIT", 0x3901000, [], 32,
     [⟨0, 6, .wo⟩]⟩,
   ⟨"HAUL_CCSTAT", 0x3901004, [], 32,
     [⟨31, 1, .ro⟩, ⟨8, 6, .ro⟩, ⟨0, 2, .ro⟩]⟩,
   ⟨"HAUL_SRC", 0x3910000, [(0x40, 64)], 32,
     [⟨31, 1, .stg⟩, ⟨29, 2, .stg⟩, ⟨21, 4, .stg⟩, ⟨0, 6, .stg⟩]⟩,
   ⟨"HAUL_CONN", 0x3910008, [(0x40, 64)], 64,
     [⟨0, 48, .stg⟩]⟩,
   ⟨"HAUL_NSID", 0x3910010, [(0x40, 64)], 32,
     [⟨0, 32, .stg⟩]⟩,
   ⟨"HAUL_SSTAT", 0x3910018, [(0x40, 64)], 64,
     [⟨62, 2, .ro⟩, ⟨61, 1, .ro⟩, ⟨0, 48, .ro⟩]⟩,
   ⟨"HAUL_SCOMMIT", 0x3911000, [], 32,
     [⟨0, 6, .wo⟩]⟩,
   ⟨"HAUL_SCSTAT", 0x3911004, [], 32,
     [⟨31, 1, .ro⟩, ⟨8, 6, .ro⟩, ⟨0, 2, .ro⟩]⟩,
   ⟨"HAUL_STREC", 0x3920000, [(0x40, 256)], 64,
     [⟨0, 64, .ro⟩]⟩,
   ⟨"HAUL_STREC", 0x3920008, [(0x40, 256)], 64,
     [⟨63, 1, .ro⟩, ⟨62, 1, .ro⟩, ⟨56, 6, .ro⟩, ⟨50, 6, .ro⟩, ⟨0, 32, .ro⟩]⟩,
   ⟨"HAUL_STREC", 0x3920010, [(0x40, 256)], 64,
     [⟨0, 48, .ro⟩]⟩,
   ⟨"HAUL_STREC", 0x3920018, [(0x40, 256)], 64,
     [⟨0, 64, .ro⟩]⟩,
   ⟨"HAUL_STREC", 0x3920020, [(0x40, 256)], 64,
     [⟨0, 64, .ro⟩]⟩,
   ⟨"HAUL_QUAR", 0x3930000, [(0x10, 32)], 64,
     [⟨63, 1, .ro⟩, ⟨61, 2, .ro⟩, ⟨52, 9, .ro⟩, ⟨51, 1, .ro⟩, ⟨49, 2, .ro⟩, ⟨42, 7, .ro⟩, ⟨0, 20, .ro⟩]⟩]

/-- Part 4 of the register map. -/
def regTable4 : List RegRow :=
  [⟨"HAUL_QUAR", 0x3930008, [(0x10, 32)], 64,
     [⟨48, 2, .ro⟩, ⟨0, 48, .ro⟩]⟩,
   ⟨"HAUL_CTL", 0x3940000, [], 32,
     [⟨31, 1, .own⟩, ⟨30, 1, .own⟩, ⟨24, 4, .own⟩, ⟨0, 16, .own⟩]⟩,
   ⟨"HAUL_SCRUB_DEF", 0x3940008, [], 32,
     [⟨0, 32, .own⟩]⟩,
   ⟨"CKPT_AREA", 0x3a00000, [(0x100, 64)], 32,
     [⟨31, 1, .stg⟩, ⟨30, 1, .stg⟩, ⟨29, 1, .stg⟩, ⟨28, 1, .stg⟩, ⟨27, 1, .stg⟩, ⟨25, 2, .stg⟩, ⟨20, 4, .stg⟩, ⟨0, 6, .stg⟩]⟩,
   ⟨"CKPT_BASE", 0x3a00008, [(0x100, 64)], 64,
     [⟨0, 48, .stg⟩]⟩,
   ⟨"CKPT_BSIZE", 0x3a00010, [(0x100, 64)], 64,
     [⟨0, 48, .stg⟩]⟩,
   ⟨"CKPT_MSIZE", 0x3a00018, [(0x100, 64)], 64,
     [⟨0, 48, .stg⟩]⟩,
   ⟨"CKPT_TSIZE", 0x3a00020, [(0x100, 64)], 64,
     [⟨0, 48, .stg⟩]⟩,
   ⟨"CKPT_RING", 0x3a00028, [(0x100, 64)], 64,
     [⟨0, 48, .stg⟩]⟩,
   ⟨"CKPT_NW", 0x3a00030, [(0x100, 64)], 64,
     [⟨0, 48, .stg⟩]⟩,
   ⟨"CKPT_XREG", 0x3a00038, [(0x100, 64)], 64,
     [⟨56, 8, .stg⟩, ⟨0, 48, .stg⟩]⟩,
   ⟨"CKPT_KEYS", 0x3a00040, [(0x100, 64)], 64,
     [⟨56, 8, .stg⟩, ⟨0, 48, .stg⟩]⟩,
   ⟨"CKPT_SIGNERS", 0x3a00048, [(0x100, 64)], 64,
     [⟨56, 8, .stg⟩, ⟨0, 48, .stg⟩]⟩,
   ⟨"CKPT_RDY", 0x3a00050, [(0x100, 64)], 64,
     [⟨0, 48, .stg⟩]⟩,
   ⟨"CKPT_STAT", 0x3a00080, [(0x100, 64)], 64,
     [⟨60, 4, .ro⟩, ⟨0, 48, .ro⟩]⟩,
   ⟨"CKPT_RES", 0x3a00088, [(0x100, 64)], 64,
     [⟨48, 16, .ro⟩, ⟨0, 48, .ro⟩]⟩,
   ⟨"CKPT_CUR", 0x3a00090, [(0x100, 64)], 64,
     [⟨16, 48, .ro⟩, ⟨0, 16, .ro⟩]⟩,
   ⟨"CKPT_CSTEP", 0x3a00098, [(0x100, 64)], 64,
     [⟨0, 48, .ro⟩]⟩,
   ⟨"CKPT_BYTES", 0x3a000a0, [(0x100, 64)], 64,
     [⟨0, 48, .ro⟩]⟩,
   ⟨"CKPT_LOG", 0x3a000a8, [(0x100, 64)], 64,
     [⟨32, 32, .ro⟩, ⟨24, 8, .ro⟩, ⟨16, 8, .ro⟩, ⟨0, 16, .ro⟩]⟩,
   ⟨"CKPT_BUDDY", 0x3a000c0, [(0x100, 64)], 32,
     [⟨31, 1, .own⟩]⟩,
   ⟨"CKPT_BBASE", 0x3a000c8, [(0x100, 64)], 64,
     [⟨0, 48, .own⟩]⟩,
   ⟨"CKPT_BBSIZE", 0x3a000d0, [(0x100, 64)], 64,
     [⟨0, 48, .own⟩]⟩,
   ⟨"CKPT_BSTEP", 0x3a000d8, [(0x100, 64)], 64,
     [⟨63, 1, .ro⟩, ⟨62, 1, .ro⟩, ⟨0, 48, .ro⟩]⟩,
   ⟨"CKPT_ACOMMIT", 0x3a10000, [], 32,
     [⟨0, 6, .wo⟩]⟩,
   ⟨"CKPT_ACSTAT", 0x3a10004, [], 32,
     [⟨31, 1, .ro⟩, ⟨6, 2, .ro⟩, ⟨0, 6, .ro⟩]⟩,
   ⟨"CKPT_CMD", 0x3a10008, [], 32,
     [⟨28, 4, .wo⟩, ⟨0, 6, .wo⟩]⟩,
   ⟨"CKPT_TMO", 0x3a10010, [], 64,
     [⟨0, 48, .own⟩]⟩,
   ⟨"MEM_WIN", 0x160000, [(0x100, 64), (0x10, 16)], 64,
     [⟨63, 1, .stg⟩, ⟨62, 1, .stg⟩, ⟨61, 1, .stg⟩, ⟨12, 36, .stg⟩]⟩,
   ⟨"MEM_WIN", 0x160008, [(0x100, 64), (0x10, 16)], 64,
     [⟨0, 36, .stg⟩]⟩]

/-- Part 5 of the register map. -/
def regTable5 : List RegRow :=
  [⟨"MEM_WCOMMIT", 0x164000, [], 32,
     [⟨0, 6, .wo⟩]⟩,
   ⟨"MEM_WCSTAT", 0x164004, [], 32,
     [⟨31, 1, .ro⟩, ⟨12, 4, .ro⟩, ⟨8, 4, .ro⟩, ⟨6, 2, .ro⟩, ⟨0, 6, .ro⟩]⟩,
   ⟨"HBM_GREG", 0x165000, [(0x10, 8)], 64,
     [⟨63, 1, .stg⟩, ⟨16, 9, .stg⟩, ⟨0, 9, .stg⟩]⟩,
   ⟨"HBM_GCOMMIT", 0x165080, [], 32,
     [⟨0, 3, .wo⟩]⟩,
   ⟨"HBM_GCSTAT", 0x165084, [], 32,
     [⟨31, 1, .ro⟩, ⟨3, 2, .ro⟩, ⟨0, 3, .ro⟩]⟩,
   ⟨"FAR_BUDDY", 0x166000, [(0x10, 2)], 64,
     [⟨0, 48, .own⟩]⟩,
   ⟨"FAR_BUDDY", 0x166008, [(0x10, 2)], 64,
     [⟨0, 48, .own⟩]⟩,
   ⟨"MEM_SCRUB_HBM", 0x166100, [], 32,
     [⟨0, 32, .own⟩]⟩,
   ⟨"MEM_SCRUB_FAR", 0x166104, [], 32,
     [⟨0, 32, .own⟩]⟩,
   ⟨"HBM_ECC", 0x167000, [(0x10, 24)], 64,
     [⟨48, 16, .ro⟩, ⟨32, 16, .ro⟩, ⟨0, 32, .ro⟩]⟩,
   ⟨"HBM_ECC", 0x167008, [(0x10, 24)], 64,
     [⟨0, 48, .ro⟩]⟩,
   ⟨"FAR_ECC", 0x167200, [(0x10, 2)], 64,
     [⟨48, 16, .ro⟩, ⟨32, 16, .ro⟩, ⟨31, 1, .ro⟩, ⟨0, 11, .ro⟩]⟩,
   ⟨"FAR_ECC", 0x167208, [(0x10, 2)], 64,
     [⟨0, 48, .ro⟩]⟩,
   ⟨"MEM_ECC_CLR", 0x167300, [], 32,
     [⟨0, 26, .wo⟩]⟩,
   ⟨"CAGE_CTL", 0x3b00000, [(0x10, 12)], 32,
     [⟨0, 4, .stg⟩]⟩,
   ⟨"CAGE_STAT", 0x3b00008, [(0x10, 12)], 32,
     [⟨31, 1, .ro⟩, ⟨0, 2, .ro⟩]⟩,
   ⟨"CAGE_COMMIT", 0x3b00100, [], 32,
     [⟨0, 4, .wo⟩]⟩,
   ⟨"CAGE_CSTAT", 0x3b00104, [], 32,
     [⟨31, 1, .ro⟩, ⟨4, 2, .ro⟩, ⟨0, 4, .ro⟩]⟩,
   ⟨"SKW_LINK", 0x3b01000, [(0x40, 24)], 64,
     [⟨61, 3, .ro⟩, ⟨59, 2, .ro⟩]⟩,
   ⟨"SKW_LINK", 0x3b01008, [(0x40, 24)], 64,
     [⟨0, 64, .ro⟩]⟩,
   ⟨"SKW_LINK", 0x3b01010, [(0x40, 24)], 64,
     [⟨0, 64, .own⟩]⟩,
   ⟨"SKW_LINK", 0x3b01018, [(0x40, 24)], 32,
     [⟨2, 2, .own⟩, ⟨0, 2, .own⟩]⟩,
   ⟨"SKW_LINK", 0x3b01020, [(0x40, 24)], 64,
     [⟨0, 48, .ro⟩]⟩,
   ⟨"SKW_LINK", 0x3b01028, [(0x40, 24)], 64,
     [⟨0, 48, .ro⟩]⟩,
   ⟨"SKW_LINK", 0x3b01030, [(0x40, 24)], 64,
     [⟨0, 48, .ro⟩]⟩,
   ⟨"SKW_LINK", 0x3b01038, [(0x40, 24)], 64,
     [⟨32, 32, .ro⟩, ⟨0, 32, .ro⟩]⟩,
   ⟨"SKW_CMD", 0x3b02000, [], 32,
     [⟨28, 4, .wo⟩, ⟨0, 5, .wo⟩]⟩,
   ⟨"SKW_CHAN", 0x3b10000, [(0x8, 8192)], 64,
     [⟨63, 1, .stg⟩, ⟨57, 6, .stg⟩, ⟨52, 5, .stg⟩, ⟨16, 13, .stg⟩]⟩,
   ⟨"SKW_CCOMMIT", 0x3b20000, [], 32,
     [⟨0, 13, .wo⟩]⟩,
   ⟨"SKW_CCSTAT", 0x3b20004, [], 32,
     [⟨31, 1, .ro⟩, ⟨13, 2, .ro⟩, ⟨0, 13, .ro⟩]⟩]

/-- Part 6 of the register map. -/
def regTable6 : List RegRow :=
  [⟨"RED_CTL", 0x3b30000, [(0x10, 64)], 32,
     [⟨31, 1, .stg⟩, ⟨16, 5, .stg⟩, ⟨8, 5, .stg⟩, ⟨0, 5, .stg⟩]⟩,
   ⟨"RED_COMMIT", 0x3b31000, [], 32,
     [⟨0, 6, .wo⟩]⟩,
   ⟨"RED_CSTAT", 0x3b31004, [], 32,
     [⟨31, 1, .ro⟩, ⟨6, 2, .ro⟩, ⟨0, 6, .ro⟩]⟩,
   ⟨"ETH_PORT", 0x3b40000, [(0x40, 24)], 64,
     [⟨0, 48, .ro⟩]⟩,
   ⟨"ETH_PORT", 0x3b40008, [(0x40, 24)], 32,
     [⟨31, 1, .own⟩, ⟨28, 3, .own⟩, ⟨16, 12, .own⟩, ⟨0, 14, .own⟩]⟩,
   ⟨"ETH_CNT", 0x3b40010, [(0x40, 24)], 64,
     [⟨0, 48, .ro⟩]⟩,
   ⟨"ETH_CNT", 0x3b40018, [(0x40, 24)], 64,
     [⟨0, 48, .ro⟩]⟩,
   ⟨"ETH_CNT", 0x3b40020, [(0x40, 24)], 64,
     [⟨0, 48, .ro⟩]⟩,
   ⟨"ETH_CNT", 0x3b40028, [(0x40, 24)], 64,
     [⟨0, 48, .ro⟩]⟩,
   ⟨"SPN_LINK", 0x170000, [(0x40, 4)], 64,
     [⟨61, 3, .ro⟩, ⟨57, 4, .ro⟩, ⟨54, 3, .ro⟩, ⟨52, 2, .ro⟩, ⟨0, 32, .ro⟩]⟩,
   ⟨"SPN_LINK", 0x170008, [(0x40, 4)], 64,
     [⟨32, 32, .ro⟩, ⟨0, 32, .ro⟩]⟩,
   ⟨"SPN_LINK", 0x170010, [(0x40, 4)], 64,
     [⟨0, 48, .ro⟩]⟩,
   ⟨"PART_CTL", 0x171000, [(0x100, 2)], 32,
     [⟨30, 2, .own⟩, ⟨29, 1, .own⟩, ⟨12, 6, .own⟩, ⟨0, 12, .own⟩]⟩,
   ⟨"PART_STAT", 0x171008, [(0x100, 2)], 64,
     [⟨61, 3, .ro⟩, ⟨60, 1, .ro⟩, ⟨56, 4, .ro⟩, ⟨48, 8, .ro⟩, ⟨32, 16, .ro⟩, ⟨0, 32, .ro⟩]⟩,
   ⟨"PART_ROOT", 0x171040, [(0x100, 2), (0x8, 6)], 64,
     [⟨0, 64, .own⟩]⟩,
   ⟨"ID_DEV", 0x0, [], 32,
     [⟨16, 8, .ro⟩, ⟨0, 16, .ro⟩]⟩,
   ⟨"ID_SERIAL", 0x8, [], 64,
     [⟨0, 64, .ro⟩]⟩,
   ⟨"ID_VARIANT", 0x10, [], 32,
     [⟨30, 1, .ro⟩, ⟨29, 1, .ro⟩, ⟨28, 1, .ro⟩, ⟨16, 8, .ro⟩, ⟨8, 4, .ro⟩, ⟨4, 4, .ro⟩, ⟨0, 4, .ro⟩]⟩,
   ⟨"ID_AWORK", 0x18, [(0x8, 3)], 64,
     [⟨0, 64, .ro⟩]⟩,
   ⟨"ID_FITTED", 0x30, [], 64,
     [⟨36, 12, .ro⟩, ⟨30, 6, .ro⟩, ⟨0, 24, .ro⟩]⟩,
   ⟨"ID_VER", 0x38, [], 64,
     [⟨56, 8, .ro⟩, ⟨48, 8, .ro⟩, ⟨40, 8, .ro⟩, ⟨32, 8, .ro⟩, ⟨28, 4, .ro⟩, ⟨24, 4, .ro⟩, ⟨20, 4, .ro⟩, ⟨16, 4, .ro⟩, ⟨12, 4, .ro⟩, ⟨8, 4, .ro⟩, ⟨4, 4, .ro⟩, ⟨0, 4, .ro⟩]⟩,
   ⟨"ID_FW", 0x40, [], 64,
     [⟨32, 32, .ro⟩, ⟨0, 1, .ro⟩]⟩,
   ⟨"HOST_STAT", 0x48, [], 32,
     [⟨31, 1, .ro⟩, ⟨30, 1, .ro⟩]⟩,
   ⟨"SQ_CFG", 0x100000, [(0x1000, 64), (0x20, 16)], 64,
     [⟨6, 58, .stg⟩]⟩,
   ⟨"SQ_CFG", 0x100008, [(0x1000, 64), (0x20, 16)], 32,
     [⟨31, 1, .stg⟩, ⟨24, 4, .stg⟩, ⟨16, 8, .stg⟩, ⟨0, 13, .stg⟩]⟩,
   ⟨"SQ_CFG", 0x100010, [(0x1000, 64), (0x20, 16)], 32,
     [⟨16, 13, .ro⟩, ⟨0, 13, .ro⟩]⟩,
   ⟨"CQ_CFG", 0x100200, [(0x1000, 64), (0x20, 16)], 64,
     [⟨6, 58, .stg⟩]⟩,
   ⟨"CQ_CFG", 0x100208, [(0x1000, 64), (0x20, 16)], 64,
     [⟨32, 16, .stg⟩, ⟨31, 1, .stg⟩, ⟨24, 5, .stg⟩, ⟨16, 8, .stg⟩, ⟨0, 13, .stg⟩]⟩,
   ⟨"CQ_CFG", 0x100210, [(0x1000, 64), (0x20, 16)], 32,
     [⟨16, 13, .ro⟩, ⟨0, 13, .ro⟩]⟩,
   ⟨"RING_COMMIT", 0x100400, [(0x1000, 64)], 32,
     [⟨4, 1, .wo⟩, ⟨0, 4, .wo⟩]⟩]

/-- Part 7 of the register map. -/
def regTable7 : List RegRow :=
  [⟨"RING_CSTAT", 0x100404, [(0x1000, 64)], 32,
     [⟨31, 1, .ro⟩, ⟨6, 2, .ro⟩, ⟨4, 1, .ro⟩, ⟨0, 4, .ro⟩]⟩,
   ⟨"CTX_EVT", 0x100410, [(0x1000, 64)], 32,
     [⟨0, 4, .rwc⟩]⟩,
   ⟨"CTX_EVTV", 0x100418, [(0x1000, 64)], 32,
     [⟨31, 1, .rw⟩, ⟨0, 5, .rw⟩]⟩,
   ⟨"CTX_FAULT", 0x100420, [(0x1000, 64), (0x8, 2)], 64,
     [⟨0, 64, .ro⟩]⟩,
   ⟨"CTX_STATE", 0x100430, [(0x1000, 64)], 32,
     [⟨0, 2, .ro⟩]⟩,
   ⟨"CTX_B4BASE", 0x180000, [(0x20, 64)], 64,
     [⟨12, 36, .rw⟩]⟩,
   ⟨"CTX_HSTAGE", 0x180008, [(0x20, 64)], 32,
     [⟨31, 1, .rw⟩, ⟨0, 12, .rw⟩]⟩,
   ⟨"DIE_OWN", 0x181000, [(0x8, 24)], 32,
     [⟨31, 1, .ro⟩, ⟨30, 1, .ro⟩, ⟨0, 6, .ro⟩]⟩,
   ⟨"DIE_CMD", 0x181100, [], 32,
     [⟨28, 4, .wo⟩, ⟨8, 5, .wo⟩, ⟨0, 6, .wo⟩]⟩,
   ⟨"DIE_CSTAT", 0x181104, [], 32,
     [⟨31, 1, .ro⟩, ⟨6, 2, .ro⟩, ⟨0, 5, .ro⟩]⟩,
   ⟨"OWN_LOCK", 0x182000, [], 32,
     [⟨31, 1, .ro⟩, ⟨0, 8, .ro⟩]⟩,
   ⟨"OWN_LOG", 0x182008, [], 64,
     [⟨48, 16, .ro⟩, ⟨47, 1, .ro⟩, ⟨0, 26, .ro⟩]⟩,
   ⟨"ORD", 0x182010, [], 32,
     [⟨28, 4, .wo⟩, ⟨0, 16, .wo⟩]⟩,
   ⟨"ORD_STAT", 0x182014, [], 32,
     [⟨31, 1, .ro⟩, ⟨4, 2, .ro⟩, ⟨0, 4, .ro⟩]⟩,
   ⟨"SEC_STAT", 0x3c00000, [], 64,
     [⟨63, 1, .ro⟩, ⟨62, 1, .ro⟩, ⟨61, 1, .ro⟩, ⟨59, 2, .ro⟩, ⟨57, 1, .ro⟩, ⟨56, 1, .ro⟩, ⟨0, 32, .ro⟩]⟩,
   ⟨"SEC_MGEN", 0x3c00008, [], 64,
     [⟨0, 64, .ro⟩]⟩,
   ⟨"SEC_BANK", 0x3c00010, [(0x8, 2)], 64,
     [⟨32, 32, .ro⟩, ⟨31, 1, .ro⟩, ⟨30, 1, .ro⟩, ⟨0, 16, .ro⟩]⟩,
   ⟨"SEC_FWCMD", 0x3c00040, [], 32,
     [⟨28, 4, .wo⟩]⟩,
   ⟨"SEC_BKEY", 0x3c00100, [(0x8, 13)], 64,
     [⟨0, 64, .ro⟩]⟩,
   ⟨"SEC_BKID", 0x3c00180, [(0x8, 2)], 64,
     [⟨0, 64, .ro⟩]⟩,
   ⟨"SEC_SKID", 0x3c00190, [], 64,
     [⟨0, 64, .ro⟩]⟩,
   ⟨"SEC_PERMLOG0", 0x3c00200, [], 64,
     [⟨0, 48, .ro⟩]⟩,
   ⟨"SEC_PERMLOG1", 0x3c00208, [], 64,
     [⟨48, 16, .ro⟩, ⟨9, 4, .ro⟩, ⟨8, 1, .ro⟩, ⟨0, 6, .ro⟩]⟩,
   ⟨"SEC_LOGCLR", 0x3c00210, [], 32,
     [⟨0, 1, .wo⟩]⟩,
   ⟨"PWR_STAT", 0x190000, [], 64,
     [⟨61, 3, .ro⟩, ⟨58, 3, .ro⟩, ⟨57, 1, .ro⟩, ⟨56, 1, .ro⟩, ⟨52, 4, .ro⟩]⟩,
   ⟨"PWR_CAP", 0x190008, [], 32,
     [⟨0, 12, .ro⟩]⟩,
   ⟨"PWR_CTL", 0x190010, [], 32,
     [⟨31, 1, .own⟩, ⟨0, 8, .own⟩]⟩,
   ⟨"PWR_MEAS", 0x190018, [], 64,
     [⟨48, 16, .ro⟩, ⟨32, 16, .ro⟩, ⟨0, 16, .ro⟩]⟩,
   ⟨"PWR_PD", 0x190020, [(0x8, 2)], 64,
     [⟨0, 64, .ro⟩]⟩,
   ⟨"PWR_PDOFF", 0x190030, [(0x8, 2)], 64,
     [⟨0, 64, .own⟩]⟩]

/-- Part 8 of the register map. -/
def regTable8 : List RegRow :=
  [⟨"PWR_BOOT", 0x190040, [], 64,
     [⟨60, 4, .ro⟩, ⟨56, 4, .ro⟩, ⟨0, 32, .ro⟩]⟩,
   ⟨"LOCAL_CNT", 0x190100, [(0x8, 2)], 64,
     [⟨0, 64, .ro⟩]⟩,
   ⟨"THM_CD", 0x191000, [(0x40, 24)], 64,
     [⟨62, 2, .ro⟩, ⟨48, 4, .ro⟩, ⟨32, 16, .ro⟩, ⟨16, 16, .ro⟩]⟩,
   ⟨"THM_CD", 0x191008, [(0x40, 24), (0x8, 4)], 64,
     [⟨0, 64, .ro⟩]⟩,
   ⟨"THM_CD", 0x191028, [(0x40, 24)], 64,
     [⟨0, 48, .ro⟩]⟩,
   ⟨"THM_LD", 0x192000, [(0x8, 4)], 64,
     [⟨48, 16, .ro⟩]⟩,
   ⟨"THM_HBM", 0x192100, [(0x8, 24)], 64,
     [⟨0, 16, .ro⟩]⟩,
   ⟨"THM_COOL", 0x192200, [], 64,
     [⟨48, 16, .ro⟩, ⟨32, 16, .ro⟩, ⟨1, 1, .ro⟩, ⟨0, 1, .ro⟩]⟩,
   ⟨"MTR_ID", 0x3d00000, [], 64,
     [⟨0, 64, .ro⟩]⟩,
   ⟨"MTR_STAT", 0x3d00008, [], 64,
     [⟨32, 32, .ro⟩, ⟨31, 1, .ro⟩, ⟨30, 1, .ro⟩, ⟨29, 1, .ro⟩, ⟨28, 1, .ro⟩, ⟨0, 8, .ro⟩]⟩,
   ⟨"MTR_IDX", 0x3d00010, [], 64,
     [⟨1, 1, .ro⟩, ⟨0, 1, .ro⟩]⟩,
   ⟨"MTR_LOGHD", 0x3d00018, [], 64,
     [⟨0, 32, .ro⟩]⟩,
   ⟨"MTR_APCFG", 0x3d00020, [], 64,
     [⟨48, 16, .ro⟩, ⟨32, 16, .ro⟩, ⟨16, 16, .ro⟩, ⟨0, 16, .ro⟩]⟩,
   ⟨"MTR_APCFG2", 0x3d00028, [], 64,
     [⟨16, 12, .ro⟩, ⟨0, 16, .ro⟩]⟩,
   ⟨"MTR_REC", 0x3d00100, [(0x100, 2)], 2048,
     [⟨0, 2048, .ro⟩]⟩,
   ⟨"MTR_LOG", 0x3d01000, [(0x20, 256)], 256,
     [⟨0, 256, .ro⟩]⟩,
   ⟨"MTR_CLEN", 0x3d00030, [], 64,
     [⟨0, 12, .ro⟩]⟩,
   ⟨"MTR_CERT", 0x3d03000, [], 16384,
     [⟨0, 16384, .ro⟩]⟩,
   ⟨"APP_STMT", 0x3d04000, [(0x1000, 2)], 32768,
     [⟨0, 32768, .ro⟩]⟩,
   ⟨"RAS_STAT", 0x3e00000, [], 64,
     [⟨63, 1, .ro⟩, ⟨62, 1, .rwc⟩, ⟨61, 1, .rwc⟩, ⟨32, 16, .ro⟩, ⟨16, 16, .ro⟩, ⟨0, 16, .ro⟩]⟩,
   ⟨"RAS_CTL", 0x3e00008, [], 32,
     [⟨31, 1, .rw⟩, ⟨30, 1, .rw⟩, ⟨0, 5, .rw⟩]⟩,
   ⟨"RAS_MFAIL", 0x3e00010, [], 64,
     [⟨0, 64, .rw⟩]⟩,
   ⟨"RAS_LOGHD", 0x3e00018, [], 64,
     [⟨48, 16, .ro⟩, ⟨0, 32, .ro⟩]⟩,
   ⟨"RAS_TEL", 0x3e00100, [(0x20, 64)], 64,
     [⟨0, 48, .rw⟩]⟩,
   ⟨"RAS_TEL", 0x3e00108, [(0x20, 64)], 32,
     [⟨16, 16, .rw⟩, ⟨0, 16, .rw⟩]⟩,
   ⟨"RAS_TEL", 0x3e00110, [(0x20, 64)], 64,
     [⟨0, 48, .ro⟩]⟩,
   ⟨"RAS_LOG", 0x3e01000, [(0x20, 4096)], 256,
     [⟨0, 256, .ro⟩]⟩,
   ⟨"MOD_PIN", 0x3e30000, [], 32,
     [⟨11, 1, .ro⟩, ⟨10, 1, .ro⟩, ⟨9, 1, .ro⟩, ⟨8, 1, .ro⟩, ⟨0, 4, .ro⟩]⟩,
   ⟨"MOD_ALERT", 0x3e30008, [], 32,
     [⟨7, 1, .rwc⟩, ⟨6, 1, .rwc⟩, ⟨5, 1, .rwc⟩, ⟨4, 1, .rwc⟩, ⟨3, 1, .rwc⟩, ⟨2, 1, .rwc⟩, ⟨1, 1, .rwc⟩, ⟨0, 1, .rwc⟩]⟩,
   ⟨"FLM_DESC", 0x3000000, [(0x40, 8192)], 64,
     [⟨0, 8, .ro⟩, ⟨15, 1, .stg⟩, ⟨13, 2, .stg⟩, ⟨12, 1, .stg⟩, ⟨11, 1, .stg⟩, ⟨16, 12, .stg⟩, ⟨32, 12, .stg⟩, ⟨48, 13, .stg⟩]⟩]

/-- Part 9 of the register map. -/
def regTable9 : List RegRow :=
  [⟨"FLM_DESC", 0x3000008, [(0x40, 8192)], 64,
     [⟨0, 15, .stg⟩, ⟨16, 6, .stg⟩, ⟨47, 1, .stg⟩, ⟨32, 13, .stg⟩, ⟨48, 13, .stg⟩]⟩,
   ⟨"FLM_DESC", 0x3000010, [(0x40, 8192)], 64,
     [⟨0, 48, .stg⟩]⟩,
   ⟨"FLM_DESC", 0x3000018, [(0x40, 8192)], 64,
     [⟨0, 13, .stg⟩, ⟨16, 13, .stg⟩, ⟨32, 13, .stg⟩, ⟨48, 13, .stg⟩]⟩,
   ⟨"FLM_DESC", 0x3000020, [(0x40, 8192)], 64,
     [⟨0, 48, .stg⟩]⟩,
   ⟨"FLM_DESC", 0x3000028, [(0x40, 8192)], 64,
     [⟨0, 13, .stg⟩]⟩,
   ⟨"FLM_DESC", 0x3000030, [(0x40, 8192)], 64,
     []⟩,
   ⟨"FLM_DESC", 0x3000038, [(0x40, 8192)], 64,
     []⟩]

/-- Every register word of BAR0. -/
def regTable : List RegRow :=
  regTable0 ++ regTable1 ++ regTable2 ++ regTable3 ++ regTable4 ++ regTable5 ++ regTable6 ++ regTable7 ++ regTable8 ++ regTable9

end Sys2Proof.Machine
end

