-- ==== Sys2Proof/Machine/RegFind.lean ====
section
/-! DEFINITION. Machine/RegFind.lean: which register of the map covers an offset of BAR0 (R434). -/

namespace Sys2Proof.Machine

/-- The indices of an offset `x` past a row's base, outermost first, and what is left inside the register. -/
def rowIndices : List (Nat × Nat) → Nat → Option (List Nat × Nat)
  | [], x => some ([], x)
  | (d, n) :: l, x => if x / d < n then (rowIndices l (x % d)).map (fun p => (x / d :: p.1, p.2)) else none

/-- A register: its row, its indices and its first offset. -/
structure RegAt where
  row : RegRow
  idx : List Nat
  off : Nat
deriving DecidableEq, Repr

/-- The register of a row that covers an offset. -/
def RegRow.covers (r : RegRow) (off : Nat) : Option RegAt :=
  if off < r.base then none
  else match rowIndices r.strides (off - r.base) with
    | some (idx, x) => if x < r.bits / 8 then some ⟨r, idx, off - x⟩ else none
    | none => none

/-- The register that covers an offset (R434). -/
def regAt (off : Nat) : Option RegAt := regTable.findSome? (fun r => r.covers off)

/-- An index of a register. -/
def RegAt.ix (x : RegAt) (i : Nat) : Nat := x.idx.getD i 0

end Sys2Proof.Machine
end

