-- ==== Sys2Proof/Config.lean ====
section
/-! DEFINITION. Config.lean: the values the spec leaves open, as constants without a body, so that no proof can see them.
A fresh value is the constant at `State.free`, which counts the values taken; the others are functions of the operands that their docstrings name. -/

namespace Sys2Proof.Config

/-- The upset of memory that an ac brings: what (none, or one of seven kinds) and where (R109, R384, R385, R390, R534): the spec says that errors
come, and not when. -/
opaque upset : Nat → BitVec 51

/-- A random nonce of a Skidway session (R411): the spec gives no value. -/
opaque nonce : Nat → BitVec 256

/-- The Apkoco root certificate and the Caerlen product CA certificate under it, one after the other (R469): how many bytes. -/
opaque caLen : BitVec 16

/-- Their bytes. -/
opaque caByte : Nat → BitVec 8

/-- The status with which a host PUSH ends when the producer end refuses its switch marker with LINK_FEATURE (R412): R446 lists none. -/
opaque featureStatus : Nat → BitVec 16

/-- A configuration register the spec gives no value (R429 lists the capabilities only): function, offset. -/
opaque cfgReg : Nat → Nat → BitVec 32

/-- The version and the commands of a PLDM type, the endpoint's UUID by its serial number, and the version of an MCTP message type (R459): the spec
gives none of them. -/
opaque pldmVersion : Nat → BitVec 32
opaque pldmCommands : Nat → BitVec 256
opaque mctpUuid : Nat → BitVec 128
opaque mctpVersion : Nat → BitVec 32

/-! ## Attestation (R464 to R479, R526): values that need keys or images the model does not hold -/

/-- The key material of a Scaler's signing key, by its serial number, and the random bytes that it draws for a signature (R512, R518). -/
opaque scalerKey : Nat → BitVec 448
opaque scalerNonce : Nat → BitVec 448

/-- A signature over an SPDM transcript, which the model does not hold: its r and s. -/
opaque signature : Nat → BitVec 768

/-- The random bytes that S0 draws for a signature of the alias key (R526). -/
opaque sigNonce : Nat → BitVec 448

/-- The length of the attestation chain whose alias certificate names these digests (R469). -/
opaque chainLen : List Nat → BitVec 16

/-- Its bytes. -/
opaque chainByte : List Nat → Nat → BitVec 8

/-- The measured digest of the steward ROM of a half (R475, block 16h + 1). -/
opaque romDigest : Nat → BitVec 384

/-- The digest of image t (1 to 4) of the package that bank k held at manufacture. -/
opaque imageDigest : Nat → Nat → BitVec 384

/-- The digest over the items of a manufacturing record, whose serialisation R475 leaves open (block 33). -/
opaque recordDigest : List Nat → BitVec 384

/-- The digest over a firmware configuration whose serialisation R475 leaves open (blocks 16h + 6 and 34). -/
opaque configDigest : List Nat → BitVec 384

/-- S0's estimate, in µs, of the time to the next publication (R478). -/
opaque publishEstimate : Nat → BitVec 32

/-- The capability flags of the SPDM CAPABILITIES response (R474). -/
opaque spdmCapabilities : Nat → BitVec 32

/-- The PCI-SIG vendor id of Apkoco (R459, R477). -/
opaque vendorId : Nat → BitVec 16

/-- The duration, in ms, of a start-up that begins at a module warm reset (R510, PWR_BOOT.ms): the spec gives no value. -/
opaque startMs : Nat → BitVec 32

/-- A byte of the landing range of a form-1 billet of which parts are still to come (R332): what the haul die has written there by then is open. -/
opaque haulByte : Nat → Nat → BitVec 8

/-- The identity key that a die derives from its PUF (R464): kind of die, index. -/
opaque identityKey : Nat → Nat → BitVec 384

/-- The key that S0 draws for a checkpoint which a write of CKPT_CMD starts (R358): the spec gives no value. -/
opaque ckptKey : Nat → BitVec 256

/-- How far the local counter of S1 is ahead of that of S0, in ticks (R489): the two are not aligned. -/
opaque tickSkew : BitVec 32

/-- The interval, in ac, at which a source that is up sends Keep Alive (R325): the spec gives no value. -/
opaque keepAlive : BitVec 48

end Sys2Proof.Config
end

