-- ==== Sys2Proof/Machine/Errors.lean ====
section
/-! DEFINITION. Machine/Errors.lean: the numeric codes and the classes of every error (R531, R535, R536). -/

namespace Sys2Proof.Machine

namespace E

def MMA_FMT_CODE : Nat := 0x0101
def MMA_FMT_PAIR : Nat := 0x0102
def MMA_EXP_DESC : Nat := 0x0103
def MMA_DESC : Nat := 0x0104
def MMA_ARRAY_OFF : Nat := 0x0105
def MMA_RAFT_SHAPE : Nat := 0x0106
def MMA_RAFT_BUSY : Nat := 0x0107
def MMA_QTR_MODE : Nat := 0x0108
def MMA_SHAPE : Nat := 0x0109
def MMA_SAP_SIZE : Nat := 0x010A
def GLZ_FMT_CODE : Nat := 0x0201
def GLZ_CHAIN_DESC : Nat := 0x0202
def GLZ_EXTENT : Nat := 0x0203
def GLZ_OVERLAP : Nat := 0x0204
def GLZ_SREG : Nat := 0x0205
def SEQ_OPCODE : Nat := 0x0301
def SEQ_BUNDLE : Nat := 0x0302
def SEQ_OPERAND : Nat := 0x0303
def SEQ_PC : Nat := 0x0304
def SEQ_LOOP : Nat := 0x0305
def SEQ_STACK : Nat := 0x0306
def SEQ_EVT : Nat := 0x0307
def SEQ_WAIT : Nat := 0x0308
def SEQ_IMAGE : Nat := 0x0309
def SEQ_TS_RANGE : Nat := 0x030A
def SEQ_TS_ALIGN : Nat := 0x030B
def SEQ_DEV_ALIGN : Nat := 0x030C
def SEQ_TS_ECC : Nat := 0x030D
def SEQ_TR_ECC : Nat := 0x030E
def SEQ_HBM_ECC : Nat := 0x030F
def SEQ_FAR_ECC : Nat := 0x0310
def SEQ_LIMIT : Nat := 0x0311
def FLM_UNBOUND : Nat := 0x0401
def FLM_CLOSED : Nat := 0x0402
def FLM_STAGE : Nat := 0x0403
def FLM_CTX : Nat := 0x0404
def FLM_ORDER : Nat := 0x0405
def FLM_REC_LEN : Nat := 0x0406
def FLM_HOLD : Nat := 0x0407
def FLM_SCHED_ORDER : Nat := 0x0408
def FLM_HELD : Nat := 0x0409
def FLM_PEER_DESC : Nat := 0x040A
def FLM_SEQ : Nat := 0x040B
def FLM_PHASE : Nat := 0x040C
def VER_MISSING : Nat := 0x0501
def VER_STALE : Nat := 0x0502
def VER_REF : Nat := 0x0503
def VER_STATE : Nat := 0x0504
def VER_GEN_ORDER : Nat := 0x0505
def VER_ENTRY : Nat := 0x0506
def HAUL_MANIFEST : Nat := 0x0601
def HAUL_KEY : Nat := 0x0602
def HAUL_TAG : Nat := 0x0603
def HAUL_DIGEST : Nat := 0x0604
def HAUL_PERM : Nat := 0x0605
def HAUL_RANGE : Nat := 0x0606
def HAUL_IO : Nat := 0x0607
def HAUL_ABORT : Nat := 0x0608
def HAUL_XFORM : Nat := 0x0609
def HAUL_REQ : Nat := 0x060B
def HAUL_SCRUB : Nat := 0x060C
def HAUL_QUAR : Nat := 0x060D
def HAUL_REHAUL : Nat := 0x060E
def CKPT_MIXED : Nat := 0x0701
def CKPT_NONE : Nat := 0x0702
def CKPT_SHARD : Nat := 0x0703
def CKPT_DIGEST : Nat := 0x0704
def CKPT_TAG : Nat := 0x0705
def CKPT_TALLY : Nat := 0x0706
def CKPT_SIG : Nat := 0x0707
def CKPT_KEY : Nat := 0x0708
def CKPT_IO : Nat := 0x0709
def CKPT_ABORT : Nat := 0x070A
def CKPT_SPACE : Nat := 0x070B
def CKPT_BUSY : Nat := 0x070C
def CKPT_BUDDY_LOST : Nat := 0x070D
def LINK_HALF_DOWN : Nat := 0x0801
def LINK_VERSION : Nat := 0x0802
def LINK_AUTH : Nat := 0x0803
def LINK_DOWN : Nat := 0x0804
def LINK_CHAN : Nat := 0x0805
def LINK_FEATURE : Nat := 0x0806
def LINK_WIDTH_DEGRADED : Nat := 0x0807
def LINK_PARTNER : Nat := 0x0808
def LINK_FATAL : Nat := 0x0809
def LINK_MODULE_LOST : Nat := 0x080A
def CFG_ZERO : Nat := 0x0901
def CFG_COMMIT : Nat := 0x0902
def CFG_RANGE : Nat := 0x0903
def CFG_ABSENT : Nat := 0x0904
def CFG_CMD : Nat := 0x0905
def CFG_HOST_DMA : Nat := 0x0906
def CFG_OWNER : Nat := 0x0907
def CFG_STATE_ECC : Nat := 0x0908
def SEC_PERM : Nat := 0x0A01
def SEC_BOOT : Nat := 0x0A02
def SEC_UPDATE : Nat := 0x0A03
def SEC_ROLLBACK : Nat := 0x0A04
def SEC_SEALED : Nat := 0x0A05
def PWR_ASLEEP : Nat := 0x0B01
def PWR_DIE_OFF : Nat := 0x0B02
def PWR_CLOCK : Nat := 0x0B03
def PWR_THERM_TRIP : Nat := 0x0B04
def PWR_CAP_UNMET : Nat := 0x0B05
def PWR_INPUT : Nat := 0x0B06
def PWR_COOLANT : Nat := 0x0B07
def PWR_LEAK : Nat := 0x0B08
def PWR_METER_LINK : Nat := 0x0B09
def PWR_METER_SEAL : Nat := 0x0B0A
def PWR_METER_FAIL : Nat := 0x0B0B

end E

/-- The class of an error in the order of R531: 0 C, 1 L, 2 M, 3 K, 4 X, 5 P, 6 F (R536). SEQ_TS_ECC is 4 here, the class
of its precise occurrence. -/
def errClass (code : Nat) : Nat :=
  if code = E.LINK_WIDTH_DEGRADED then 0
  else if code = E.FLM_PEER_DESC ∨ code = E.FLM_SEQ ∨ code = E.FLM_PHASE ∨ code = E.HAUL_QUAR
      ∨ code = E.HAUL_REHAUL ∨ code = E.CKPT_BUDDY_LOST ∨ code = E.LINK_VERSION ∨ code = E.LINK_AUTH
      ∨ code = E.LINK_DOWN ∨ code = E.LINK_CHAN ∨ code = E.LINK_MODULE_LOST ∨ code = E.CFG_RANGE
      ∨ code = E.CFG_OWNER ∨ code = E.SEC_BOOT ∨ code = E.SEC_UPDATE ∨ code = E.SEC_ROLLBACK
      ∨ code = E.PWR_ASLEEP ∨ code = E.PWR_CAP_UNMET ∨ code = E.PWR_INPUT ∨ code = E.PWR_COOLANT
      ∨ code = E.PWR_LEAK ∨ code = E.PWR_METER_LINK ∨ code = E.PWR_METER_SEAL ∨ code = E.PWR_METER_FAIL then 1
  else if code = E.SEQ_TR_ECC ∨ code = E.SEQ_HBM_ECC ∨ code = E.SEQ_FAR_ECC ∨ code = E.VER_MISSING
      ∨ code = E.VER_STALE then 2
  else if code = E.SEQ_LIMIT ∨ code = E.CFG_CMD ∨ code = E.CFG_HOST_DMA then 3
  else if code = E.LINK_PARTNER then 5
  else if code = E.LINK_FATAL ∨ code = E.CFG_STATE_ECC ∨ code = E.SEC_SEALED ∨ code = E.PWR_CLOCK
      ∨ code = E.PWR_THERM_TRIP then 6
  else 4

end Sys2Proof.Machine
end

