-- ==== Sys2Proof/Machine/Ops.lean ====
section
/-! DEFINITION. Machine/Ops.lean: the named operations over registers, memory, the log and the units, which every command's
meaning is written with. -/

namespace Sys2Proof.Machine

/-- The outcome of a command: it always completes, so its meaning is a next state. -/
abbrev Result := Host.Outcome State Fault Refusal

/-! ## Registers (R6, R8, R9) -/

/-- The current (for a staged field the committed) value of a register field. -/
def State.get (s : State) (f : Fld) : Nat := KMap.find resetVal s.regs f.a % 2 ^ f.w

/-- The field with a new value, its width kept; for a staged field, the committed copy. -/
def State.put (s : State) (f : Fld) (v : Nat) : State :=
  { s with regs := KMap.put resetVal s.regs f.a (v % 2 ^ f.w) }

/-- The shadow copy of a staged field: the committed value until a write differs (R8, R451). -/
def State.sget (s : State) (f : Fld) : Nat := KMap.find (fun a => KMap.find resetVal s.regs a) s.shadow f.a % 2 ^ f.w

/-- A staged field's shadow with a new value (R8). -/
def State.sput (s : State) (f : Fld) (v : Nat) : State :=
  { s with shadow := KMap.put (fun a => KMap.find resetVal s.regs a) s.shadow f.a (v % 2 ^ f.w) }

/-- Fields put in order. -/
def State.puts (s : State) (l : List (Fld × Nat)) : State := l.foldl (fun s p => s.put p.1 p.2) s

/-- An accepted commit of a group: every field's shadow becomes its committed value (R451). -/
def State.commit (s : State) (fs : List Fld) : State :=
  fs.foldl (fun s f => let v := s.sget f
                       { s.put f v with shadow := KMap.drop s.shadow f.a }) s

/-- The fields at bit addresses `lo` to `hi - 1`, and their shadows, back at their reset values. -/
def State.regReset (s : State) (lo hi : Nat) : State :=
  { s with regs := KMap.dropRange s.regs (8 * lo) (8 * hi), shadow := KMap.dropRange s.shadow (8 * lo) (8 * hi) }

/-- A counter of the field's width that holds at its greatest value. -/
def State.count (s : State) (f : Fld) (k : Nat) : State := s.put f (min (s.get f + k) (2 ^ f.w - 1))

/-- A flag field. -/
def State.flag (s : State) (f : Fld) : Bool := decide (s.get f = 1)

/-- What leaves the block. -/
def State.emit (s : State) (o : Out) : State := { s with out := o :: s.out }

/-- True while port `k` holds back storage traffic: its priority is paused, and priority flow control is on (R414). -/
def State.portPaused (s : State) (k : Nat) : Bool := s.get (R.ETH_PORT.pfc_en k) == 1 && KMap.find (fun _ => false) s.ethPause k

/-- True while both ports of cage `n` are paused; a source uses either (DESIGN CHOICE, log entry 163: R414 does not say which). -/
def State.cagePaused (s : State) (n : Nat) : Bool := s.portPaused (2 * n) && s.portPaused (2 * n + 1)

/-- Storage traffic of source `i`: it leaves by the source's cage, or waits while that is paused (R414). -/
def State.emitSrc (s : State) (i : Nat) (o : Out) : State :=
  let n := s.get (R.HAUL_SRC.cage i)
  if s.cagePaused n then { s with ethHeld := KMap.put (fun _ => []) s.ethHeld n (KMap.find (fun _ => []) s.ethHeld n ++ [o]) } else s.emit o

/-- What a cage holds back leaves once one of its ports may send (R414). -/
def State.ethRelease (s : State) (n : Nat) : State :=
  if s.cagePaused n then s
  else (KMap.find (fun _ => []) s.ethHeld n).foldl State.emit { s with ethHeld := KMap.drop s.ethHeld n }

/-! ## Places (R12, R22, R23) -/

/-- Half of a compute die. -/
def halfOfDie (n : Nat) : Nat := if n < 12 then 0 else 1

/-- Landing die under a compute die (R12). -/
def ldOfDie (n : Nat) : Nat := n / 6

/-- Landing die of an edge die (R12). -/
def ldOfEdge (k : Nat) : Nat := 2 * (k / 3) + (if k % 3 = 1 then 1 else 0)

/-- Landing die of a far-memory die (R12, R15). -/
def ldOfFar (f : Nat) : Nat := 2 * f + 1

/-- Landing die of a partner site (R12, R36). -/
def ldOfSite (u : Nat) : Nat := 2 * u + 1

/-- Landing die through which steward `h` reaches landing die `j`: of the two under it (R12), the one on `j`'s side, so that the
steward's traffic crosses at most one link (DESIGN CHOICE, log entry 102). -/
def ldOfSteward (h j : Nat) : Nat := 2 * h + j % 2

/-- Home landing die of a flume (R23). -/
def ldOfFlume (f : Nat) : Nat := f / 2048

/-- Half of a flume (R22). -/
def halfOfFlume (f : Nat) : Nat := f / 4096

/-- The local counter of a half (R489): it counts ticks of 8 ac from cold power-on. The two are not aligned: that of S1 is ahead by an open number of
ticks (log entry 155). -/
def State.tick (s : State) (half : Nat) : Nat :=
  (s.now - KMap.find (fun _ => 0) s.tick0 half) / 8 + (if half = 1 then Config.tickSkew.toNat else 0)

/-! ## Vectors and the RAS log (R447, R449, R537, R546) -/

/-- PCIe function `c`. -/
def State.fn (s : State) (c : Nat) : Fn := KMap.find (fun _ => Fn.off) s.fns c

/-- True when function `c` may send the message of vector `v` now: MSI-X on, neither masked, and Bus Master Enable (R432, R447). -/
def State.mayVector (s : State) (c v : Nat) : Bool :=
  (s.fn c).msix && (s.fn c).bme && !(s.fn c).fmask && KMap.find (fun _ => false) s.unmask (32 * c + v)

/-- Vector `v` of function `c` raised: its message, or its pending bit while it is masked (R447). -/
def State.vector (s : State) (c v : Nat) : State :=
  if s.mayVector c v then s.emit (.vector c v)
  else if (s.fn c).msix then { s with pba := KMap.put (fun _ => false) s.pba (32 * c + v) true }
  else s

/-- Vectors of function `c` that are pending and may be sent now are sent (R447). -/
def State.flushVectors (s : State) (c : Nat) : State :=
  (List.range 32).foldl (fun s v =>
    if KMap.find (fun _ => false) s.pba (32 * c + v) && s.mayVector c v then
      { s with pba := KMap.drop s.pba (32 * c + v) }.emit (.vector c v)
    else s) s

/-- Bit `b` of CTX_EVT of context `c` set; a bit that becomes 1 raises the context's vector (R449). -/
def State.ctxEvent (s : State) (c b : Nat) : State :=
  let old := s.get (R.CTX_EVT.events c)
  if bit old b then s
  else
    let s := s.put (R.CTX_EVT.events c) (old + 2 ^ b)
    if s.flag (R.CTX_EVTV.en c) then s.vector c (s.get (R.CTX_EVTV.vec c)) else s

/-- True while context `c` is in TEARDOWN: a resource command that reaches its block then is refused, with CFG_COMMIT where its chapter gives no
other reason (R440, which names the ac of step 1; DEDUCED, log entry 139). -/
def State.leaving (s : State) (c : Nat) : Bool := decide (s.get (R.CTX_STATE.state c) = 2)

/-- Where an error is raised: unit kind and index of R537. -/
structure Where where
  half  : Nat
  unit  : Nat
  index : Nat
deriving DecidableEq, Repr

/-- The place of compute die `n`. -/
def atDie (n : Nat) : Where := ⟨halfOfDie n, 2, n⟩

/-- The place of landing die `h`. -/
def atLd (h : Nat) : Where := ⟨h / 2, 1, h⟩

/-- The place where an access that S0 makes to landing die `h` enters the fabric (R12, R25). -/
def atEntry (h : Nat) : Where := atLd (ldOfSteward 0 h)

/-- The landing die that a die or stack is attached to (R12); a landing die itself. -/
def Where.ld (w : Where) : Nat :=
  match w.unit with
  | 1 => w.index
  | 2 => ldOfDie w.index
  | 3 => ldOfEdge w.index
  | 4 => ldOfFar w.index
  | 5 => ldOfSite w.index
  | 6 => w.index / 6
  | _ => 2 * w.index

/-- The place of steward `h`. -/
def atSteward (h : Nat) : Where := ⟨h, 0, h⟩

/-- The place of edge die `k` (R11). -/
def atEdge (k : Nat) : Where := ⟨k / 3, 3, k⟩

/-- True when edge die `k` is fitted (R2, R35). -/
def State.edgeFitted (s : State) (k : Nat) : Bool := decide (k % 3 < s.mfg.nedges / 2)

/-- The place of a partner site (R11). -/
def atSite (u : Nat) : Where := ⟨u, 5, u⟩

/-- The MOD_ALERT bit that logging a code sets (R560). -/
def alertOf (code : Nat) : Option Fld :=
  if code = E.PWR_METER_SEAL ∨ code = E.PWR_METER_FAIL then some R.MOD_ALERT.meter
  else if code = E.PWR_INPUT then some R.MOD_ALERT.input
  else if code = E.PWR_CAP_UNMET then some R.MOD_ALERT.cap
  else if code = E.PWR_COOLANT then some R.MOD_ALERT.coolant
  else if code = E.LINK_MODULE_LOST then some R.MOD_ALERT.mlost
  else none

/-- An entry added to the RAS log of S0 (R537), its class given; `new` becomes 1 and may raise the PF vector (R546); the codes of R560 set
their alert bit. -/
def State.logAs (s : State) (code cls : Nat) (ctx : Option Nat) (w : Where) (detail : Nat) : State :=
  let n := s.get R.RAS_LOGHD.newest
  let seq := if n = 2 ^ 32 - 1 then 1 else n + 1
  let e : LogEntry := { seq := seq, code := code, cls := cls, ctx := ctx, tick := s.tick w.half, half := w.half,
                        unit := w.unit, index := w.index, detail := detail }
  let s := if 4096 ≤ s.log.length then s.count R.RAS_LOGHD.lost 1 else s
  let s := { s with log := (e :: s.log).take 4096 }
  let s := s.put R.RAS_LOGHD.newest seq
  let was := s.flag R.RAS_STAT.new
  let s := s.put R.RAS_STAT.new 1
  let s := match alertOf code with
    | some f => s.put f 1
    | none => s
  if !was && s.flag R.RAS_CTL.vec_en then s.vector 0 (s.get R.RAS_CTL.vec) else s

/-- An error of the class R536 gives its code. -/
def State.raise (s : State) (code : Nat) (ctx : Option Nat) (w : Where) (detail : Nat) : State :=
  s.logAs code (errClass code) ctx w detail

/-- CFG_RANGE of a dropped write or ignored command, logged by S0's register block (R435, R451). -/
def State.cfgRange (s : State) (ctx : Option Nat) (detail : Nat) : State := s.raise E.CFG_RANGE ctx (atSteward 0) detail

/-- What becomes of a write to a register or command register: before DEVICE_READY it is dropped (R430), in the error state it is dropped
and CFG_RANGE logged (R539); otherwise it has its effect `t`. -/
def State.gated (s : State) (off : Nat) (t : State) : State :=
  if s.flag R.HOST_STAT.ready = false then s else if s.flag R.RAS_STAT.fatal then s.cfgRange none off else t

/-! ## The device address map (R377 to R382) -/

/-- What lies at a device address (R377). -/
inductive Region where
  | hbm (h : Nat)
  | far (f : Nat)
  | flume (h : Nat)
  | tile (n : Nat)
  | unmapped
deriving DecidableEq, Repr

/-- First device address of the flume store of H(h). -/
def flumeBase (h : Nat) : Nat := 0x0400_0000_0000 + 0x4000_0000 * h

/-- First device address of the tile-store window of CD(n). -/
def tileBase (n : Nat) : Nat := 0x0410_0000_0000 + 0x0400_0000 * n

/-- Bytes of a tile store (R104). -/
def tileBytes : Nat := 0x0300_0000

/-- R377. -/
def regionOf (a : Nat) : Region :=
  if a < 0x0180_0000_0000 then .hbm (a / 0x60_0000_0000)
  else if 0x0200_0000_0000 ≤ a ∧ a < 0x0300_0000_0000 then .far 0
  else if 0x0300_0000_0000 ≤ a ∧ a < 0x0400_0000_0000 then .far 1
  else if 0x0400_0000_0000 ≤ a ∧ a < 0x0401_0000_0000 then
    let h := (a - 0x0400_0000_0000) / 0x4000_0000
    if a - flumeBase h < 0x1800_0000 then .flume h else .unmapped
  else if 0x0410_0000_0000 ≤ a ∧ a < tileBase 24 then
    let n := (a - 0x0410_0000_0000) / 0x0400_0000
    if a - tileBase n < tileBytes then .tile n else .unmapped
  else .unmapped

/-- True when an HBM address is backed by a fitted stack (R34, R378). -/
def State.backed (s : State) (a : Nat) : Bool := decide (a % 0x60_0000_0000 < s.mfg.nstacks * 0x10_0000_0000)

/-- True when the steward finds memory at the address (R378). -/
def State.mapped (s : State) (a : Nat) : Bool :=
  match regionOf a with
  | .hbm _ => s.backed a
  | .unmapped => false
  | _ => true

/-- The global region that holds offset `x` of an HBM range, with its O and Q in bytes (R382). -/
def State.gregOf (s : State) (x : Nat) : Option (Nat × Nat) :=
  (List.range 8).findSome? (fun g =>
    let o := s.get (R.HBM_GREG.off g) * 2 ^ 30
    let q := s.get (R.HBM_GREG.size g) * 2 ^ 30
    if s.flag (R.HBM_GREG.en g) && decide (o ≤ x) && decide (x < o + q) then some (o, q) else none)

/-- Where an HBM address is placed (R381, R382): landing die, stack, byte address in the stack, pseudo-channel. -/
def State.place (s : State) (a : Nat) : Nat × Nat × Nat × Nat :=
  let n := s.mfg.nstacks
  let h := a / 0x60_0000_0000
  let x := a - h * 0x60_0000_0000
  let hu := match s.gregOf x with
    | none => (h, x / 4096)
    | some (o, q) => let v := ((x - o) + h * q) / 4096
                     (v % 4, o / 4096 + v / 4)
  let sa := hu.2 / n * 4096 + x % 4096
  (hu.1, 6 * hu.1 + hu.2 % n, sa, sa / 256 % 64)

/-- R389: the LPDDR5X channel and the package of a far-tier address, counted inside its own
far-memory die. -/
def farPlace (f a : Nat) : Nat × Nat :=
  let ch := (a - (0x200_0000_0000 + f * 0x100_0000_0000)) / 256 % 32
  (ch, ch / 2)

/-- Home landing die of an address (R15, R382). -/
def State.homeLd (s : State) (a : Nat) : Nat :=
  match regionOf a with
  | .hbm _ => (s.place a).1
  | .far f => ldOfFar f
  | .flume h => h
  | .tile n => ldOfDie n
  | .unmapped => 0

/-! ## Memory (R385, R386, R389) -/

/-- The byte at a device address. A byte nothing has written reads 0: HBM and far tier are zeroed at cold power-on
(R507), tile stores at reset (R103); the flume store's is a DESIGN CHOICE (log entry 4). -/
def State.byte (s : State) (a : Nat) : Byte := KMap.find (fun _ => 0) s.mem a

/-- `n` bytes from `a` up. -/
def State.bytes (s : State) (a n : Nat) : List Byte := (List.range n).map (fun i => s.byte (a + i))

/-- Little-endian value of `n` bytes from `a` up. -/
def State.le (s : State) (a n : Nat) : Nat := leNat (s.bytes a n)

/-- First address of the error unit of an address, and its size (R385). -/
def errUnit (a : Nat) : Nat × Nat :=
  match regionOf a with
  | .far _ => (a / 64 * 64, 64)
  | _ => (a / 8 * 8, 8)

/-- True when the unit of an address is bad (R385, R389, R390, R109). -/
def State.isBad (s : State) (a : Nat) : Bool :=
  match regionOf a with
  | .far _ => s.plist.contains (a / 64 * 64) || s.linkErr.contains (a / 64 * 64)
  | _ => s.bad.contains (a / 8 * 8)

/-- The bad units that `n` bytes from `a` touch, lowest first: bad words, listed granules, and granules whose transfer meets a double
error on the link (R385, R389, R390). -/
def State.badIn (s : State) (a n : Nat) : List Nat :=
  if n = 0 then [] else
  ((s.bad.filter (fun u => decide (a < u + 8 ∧ u < a + n)))
    ++ (s.plist.filter (fun u => decide (a < u + 64 ∧ u < a + n)))
    ++ (s.linkErr.filter (fun u => decide (a < u + 64 ∧ u < a + n) && !s.plist.contains u))).mergeSort (· ≤ ·)

/-- True when a write of `n` bytes at `a` covers the unit of `u` whole. -/
def coversUnit (a n u : Nat) : Bool :=
  let e := errUnit u
  decide (a ≤ e.1 ∧ e.1 + e.2 ≤ a + n)

/-- True when the write leaves the byte at `x` alone because its unit is bad and not covered whole (R386, R109). -/
def State.dropsByte (s : State) (a n x : Nat) : Bool := s.isBad x && !coversUnit a n x

/-- Bytes written from `a` up, byte by byte; `keep` says which are dropped. -/
def putBytes (keep : Nat → Bool) : List Byte → Nat → KMap Byte → KMap Byte
  | [], _, m => m
  | b :: bs, a, m => putBytes keep bs (a + 1) (if keep a then m else KMap.put (fun _ => 0) m a b)

/-- A write (R386): bad units it covers whole are replaced and cleared, bad units it covers in part are left. A word it touches
is stored with new check bits, so a single-bit error there is gone without being counted (R388; log entry 103). -/
def State.write (s : State) (a : Nat) (bs : List Byte) : State :=
  let n := bs.length
  { s with mem := putBytes (s.dropsByte a n) bs a s.mem
           bad := s.bad.filter (fun u => !coversUnit a n u)
           soft := s.soft.filter (fun u => !decide (a < u + 8 ∧ u < a + n))
           plist := s.plist.filter (fun u => !coversUnit a n u)
           linkErr := s.linkErr.filter (fun u => !coversUnit a n u) }

/-- True when the write would return an uncorrectable indication to its issuer (R386). -/
def State.writeBad (s : State) (a n : Nat) : Bool := (s.badIn a n).any (fun u => !coversUnit a n u)

/-- True when the poison list of far-memory die `f` has no room (R389). -/
def State.plistFull (s : State) (f : Nat) : Bool :=
  decide (1024 ≤ (s.plist.filter (fun u => decide (regionOf u = .far f))).length)

/-- The place of far-memory die `f` (R537). -/
def atFar (f : Nat) : Where := ⟨f, 4, f⟩

/-- A unit made bad (R385, R389): a far-tier granule enters the poison list, or is written as all ones when the list of
its die is full. -/
def State.markBad (s : State) (a : Nat) : State :=
  match regionOf a with
  | .far f =>
    let g := a / 64 * 64
    if s.plist.contains g then s
    else if s.plistFull f then
      let s := { s with mem := putBytes (fun _ => false) (List.replicate 64 0xFF) g s.mem, linkErr := s.linkErr.filter (· ≠ g) }
      (s.put (R.FAR_ECC.ovf f) 1).raise E.SEQ_FAR_ECC none (atFar f) g
    else { s with plist := (g :: s.plist).mergeSort (· ≤ ·), linkErr := s.linkErr.filter (· ≠ g) }
  | _ =>
    let w := a / 8 * 8
    if s.bad.contains w then s else { s with bad := (w :: s.bad).mergeSort (· ≤ ·), soft := s.soft.filter (· ≠ w) }

/-- The counter of corrected errors of the unit of a word: its stack's, its landing die's first stack's for the flume store, its die's for
the tile store (R109, R384, R396). -/
def State.corrFld (s : State) (u : Nat) : Option Fld :=
  match regionOf u with
  | .hbm _ => some (R.HBM_ECC.corr (s.place u).2.1)
  | .flume h => some (R.HBM_ECC.corr (6 * h))
  | .tile n => some (R.TS_ECC.corr n)
  | _ => none

/-- A single-bit error found by a read: the word is corrected, counted once and written back (R109, R384, R388). -/
def State.fixWord (s : State) (u : Nat) : State :=
  let s := { s with soft := s.soft.filter (· ≠ u) }
  match s.corrFld u with
  | some f => s.count f 1
  | none => s

/-- Every single-bit error that a read of `n` bytes at `a` meets (R109, R384). -/
def State.fixSoft (s : State) (a n : Nat) : State :=
  if n = 0 then s else (s.soft.filter (fun u => decide (a < u + 8 ∧ u < a + n))).foldl (fun s u => s.fixWord u) s

/-- The log and counters of one uncorrectable error found in HBM, flume store or far tier; a far-tier granule not listed yet enters the
poison list of its die while that has room (R385, R389, R390, R396). -/
def State.noteBad (s : State) (ctx : Option Nat) (u : Nat) : State :=
  match regionOf u with
  | .hbm _ =>
    let p := s.place u
    ((s.count (R.HBM_ECC.uncorr p.2.1) 1).put (R.HBM_ECC.last p.2.1) u).raise E.SEQ_HBM_ECC ctx ⟨p.1 / 2, 6, p.2.1⟩ u
  | .flume h =>
    ((s.count (R.HBM_ECC.uncorr (6 * h)) 1).put (R.HBM_ECC.last (6 * h)) u).raise E.SEQ_HBM_ECC ctx (atLd h) u
  | .far f =>
    let s := if s.plist.contains u then s
      else if s.plistFull f then { s with linkErr := s.linkErr.filter (· ≠ u) }.put (R.FAR_ECC.ovf f) 1
      else { s with plist := (u :: s.plist).mergeSort (· ≤ ·), linkErr := s.linkErr.filter (· ≠ u) }
    ((s.count (R.FAR_ECC.uncorr f) 1).put (R.FAR_ECC.last f) u).raise E.SEQ_FAR_ECC ctx (atFar f) u
  | .tile n =>
    ((s.count (R.TS_ECC.uncorr n) 1).put (R.TS_ECC.last n) (u - tileBase n)).logAs E.SEQ_TS_ECC 2 ctx (atDie n) u
  | .unmapped => s

/-- A read of `n` bytes at `a` corrects every single-bit error it meets and finds every bad unit (R384, R385, R109). -/
def State.noteRead (s : State) (ctx : Option Nat) (a n : Nat) : State :=
  (s.badIn a n).foldl (fun s u => s.noteBad ctx u) (s.fixSoft a n)

/-- True when quarantine entry `j` covers the address (R339). -/
def State.quarHas (s : State) (j a : Nat) : Bool :=
  let b := s.get (R.HAUL_QUAR.base j)
  s.flag (R.HAUL_QUAR.active j) && decide (b ≤ a ∧ a < b + (KMap.find (fun _ => (0, 0)) s.quarLen j).1)

/-- The error units of the 64 bytes at `a` that are quarantined (R339). -/
def State.quarUnits (s : State) (a : Nat) : List Nat :=
  if s.quarLen.isEmpty then []
  else ((List.range 8).map (fun i => (errUnit (a + 8 * i)).1)).dedup.filter (fun u => (List.range 32).any (fun j => s.quarHas j u))

/-- What a read by a sequencer, sap line, DMA or BAR4 access finds: bad units, and the first unit of each quarantined range
that it meets (R339, R385). -/
def State.readBad (s : State) (a n : Nat) : List Nat :=
  s.badIn a n ++ (s.quarLen.filterMap (fun e =>
    let b := s.get (R.HAUL_QUAR.base e.1)
    if s.flag (R.HAUL_QUAR.active e.1) && decide (b < a + n ∧ a < b + e.2.1) then some (errUnit (max a b)).1 else none))

/-- Such a read corrects and logs every error it meets (R339, R384, R385). -/
def State.noteUse (s : State) (ctx : Option Nat) (a n : Nat) : State :=
  (s.readBad a n).foldl (fun s u => s.noteBad ctx u) (s.fixSoft a n)

/-- The units of the granule at `dst` that receive a byte of a bad unit `u` of the granule at `src` (R385). -/
def spoilt (src dst u : Nat) : List Nat :=
  ((List.range 64).filter (fun i => decide (u ≤ src + i ∧ src + i < u + (errUnit u).2))).map (fun i => (errUnit (dst + i)).1)

/-- Units made bad, each once. -/
def State.markAll (s : State) (us : List Nat) : State := us.dedup.foldl (fun s u => s.markBad u) s

/-- One 64-byte granule copied with its bad units (R251, R385). -/
def State.copyGranule (s : State) (src dst : Nat) : State :=
  let bads := s.badIn src 64 ++ s.quarUnits src
  (s.write dst (s.bytes src 64)).markAll (bads.flatMap (spoilt src dst))

/-- A copy that carries bad units with the data (R385): `n` bytes at `src` to `dst`, in ascending 64-byte granules
(R251). -/
def State.copyGranules : Nat → State → Nat → Nat → State
  | 0, s, _, _ => s
  | k + 1, s, src, dst => State.copyGranules k (s.copyGranule src dst) (src + 64) (dst + 64)

/-! ## Permission windows (R393 to R395, R480) -/

/-- The enabled windows that grant a right, as (first byte, one past the last). -/
def State.windows (s : State) (c : Nat) (wr : Bool) : List (Nat × Nat) :=
  (List.range 16).filterMap (fun w =>
    if s.flag (R.MEM_WIN.en c w) && s.flag (if wr then R.MEM_WIN.w c w else R.MEM_WIN.r c w) then
      let b := s.get (R.MEM_WIN.base c w) * 4096
      some (b, b + s.get (R.MEM_WIN.size c w) * 4096)
    else none)

/-- The furthest end of the windows that hold `a`. -/
def reach (ws : List (Nat × Nat)) (a : Nat) : Nat :=
  ws.foldl (fun e w => if w.1 ≤ a ∧ a < w.2 then max e w.2 else e) a

/-- True when every byte from `a` to `b - 1` lies in a window (R393). -/
def covered (ws : List (Nat × Nat)) : Nat → Nat → Nat → Bool
  | 0, a, b => decide (b ≤ a)
  | k + 1, a, b => decide (b ≤ a) || (decide (a < reach ws a) && covered ws k (reach ws a) b)

/-- The device addresses that are mapped and backed, as (first byte, one past the last) (R377, R378). -/
def State.mappedRanges (s : State) : List (Nat × Nat) :=
  (List.range 4).map (fun h => (0x60_0000_0000 * h, 0x60_0000_0000 * h + s.mfg.nstacks * 0x10_0000_0000))
  ++ [(0x0200_0000_0000, 0x0400_0000_0000)]
  ++ (List.range 4).map (fun h => (flumeBase h, flumeBase h + 0x1800_0000))
  ++ (List.range 24).map (fun n => (tileBase n, tileBase n + tileBytes))

/-- The reserved regions (R379). -/
def State.reservedRanges (s : State) : List (Nat × Nat) :=
  [(0, 0x2000_0000), (0x02FF_F000_0000, 0x0300_0000_0000)]
  ++ (List.range 2).map (fun f => (s.get (R.FAR_BUDDY.base f), s.get (R.FAR_BUDDY.base f) + s.get (R.FAR_BUDDY.size f)))

/-- True when two ranges have a byte in common. -/
def meet (x y : Nat × Nat) : Bool := decide (max x.1 y.1 < min x.2 y.2)

/-- True when the access passes the context's windows; while a commit is in progress the old group must allow it too
(R393, R395). No window covers a reserved region, not even one that was committed before FAR_BUDDY was set (R379, R391; DEDUCED, log entry
123). -/
def State.permits (s : State) (c a n : Nat) (wr : Bool) : Bool :=
  decide (a + n ≤ 2 ^ 48) && !s.reservedRanges.any (meet (a, a + n)) && covered (s.windows c wr) 17 a (a + n) &&
  (match (s.oldWin.find? (fun p => p.1 = c)).map Prod.snd with
   | none => true
   | some l => covered ((l.filter (fun w => if wr then w.2.2.2 else w.2.2.1)).map (fun w => (w.1, w.2.1))) 17 a (a + n))

/-- The first address of an access that is refused (R485): where it starts, or one at which a window ends or a reserved region starts. -/
def State.firstRefused (s : State) (c a n : Nat) (wr : Bool) : Nat :=
  let old := match (s.oldWin.find? (fun p => p.1 = c)).map Prod.snd with
    | none => []
    | some l => l.map (fun w => w.2.1)
  let cuts := a :: ((s.windows c wr).map Prod.snd ++ s.reservedRanges.map Prod.fst ++ old ++ [2 ^ 48]).filter (fun b => decide (a < b ∧ b < a + n))
  ((cuts.filter (fun b => !s.permits c b 1 wr)).min?).getD a

/-- The refusal of an access of `n` bytes at `a` in the permission log, with its first refused address, raised by landing die `ld`, where the access
enters the fabric (R16, R480, R485). A refusal at a commit or of a haul request has no kind in the table: it logs 0 (DESIGN CHOICE, log entry 156). -/
def State.permLog (s : State) (ld c a n kind : Nat) (wr : Bool) : State :=
  let x := s.firstRefused c a n wr
  ((s.puts [(R.SEC_PERMLOG0.addr, x), (R.SEC_PERMLOG1.kind, kind), (R.SEC_PERMLOG1.write, b2n wr),
            (R.SEC_PERMLOG1.ctx, c)]).count R.SEC_PERMLOG1.count 1).raise E.SEC_PERM (some c) (atLd ld) x

/-- The first of some ranges (address, length, write) that the windows refuse is logged (R480). -/
def State.permNote (s : State) (ld : Nat → Nat) (c : Nat) (rs : List (Nat × Nat × Bool)) : State :=
  match rs.find? (fun r => !s.permits c r.1 r.2.1 r.2.2) with
  | some r => s.permLog (ld r.1) c r.1 r.2.1 0 r.2.2
  | none => s

/-- The landing die where an access of S0 to an address enters the fabric (R12, R16). -/
def State.entryLd (s : State) (a : Nat) : Nat := ldOfSteward 0 (s.homeLd a)

/-! ## Tile registers (R100, R109) -/

/-- Key of element (m, col) of tile register `j` (0 to 15) of array `a` of die `n`. -/
def tileKey (n a j m col : Nat) : Nat := (((8 * n + a) * 16 + j) * 128 + m) * 128 + col

/-- An element of a tile register; a bad word reads canonical NaN (R109). -/
def State.tile (s : State) (n a j m col : Nat) : F32 :=
  let k := tileKey n a j m col
  if s.tileBad.contains (k / 2) then canonNaN else KMap.find (fun _ => 0) s.tiles k

/-- The log and count of a bad word of the tile registers (R109, R129). -/
def State.noteTileBad (s : State) (ctx : Option Nat) (n a j : Nat) : State :=
  (((s.count (R.TR_ECC.uncorr n) 1).put (R.TR_ECC.array n) a).put (R.TR_ECC.reg n) j).raise E.SEQ_TR_ECC ctx (atDie n)
    (16 * a + j)

/-- The single-bit errors among these words of the tile registers of die `n`: corrected, counted once and written back (R109). -/
def State.fixTile (s : State) (n : Nat) (p : Nat → Bool) : State :=
  let ws := s.tileSoft.filter p
  if ws.isEmpty then s else { s with tileSoft := s.tileSoft.filter (fun w => !p w) }.count (R.TR_ECC.corr n) ws.length

/-- A read of columns `c0` to `c1 - 1` of row `m` of a tile register finds the errors of its words (R109). -/
def State.noteTileRow (s : State) (ctx : Option Nat) (n a j m c0 c1 : Nat) : State :=
  let hit := fun w => decide (tileKey n a j m c0 < 2 * w + 2 ∧ 2 * w < tileKey n a j m c1)
  (s.tileBad.filter hit).foldl (fun s _ => s.noteTileBad ctx n a j) (s.fixTile n hit)

/-- Elements of one row written from column `col` up: a bad word is replaced when both its elements are written and stays
bad, unwritten and logged, otherwise (R109). -/
def State.putTileRow (s : State) (ctx : Option Nat) (n a j m col : Nat) (vs : List F32) : State :=
  let k0 := tileKey n a j m col
  let k1 := k0 + vs.length
  let whole := fun w => decide (k0 ≤ 2 * w ∧ 2 * w + 2 ≤ k1)
  let part := s.tileBad.filter (fun w => decide (k0 < 2 * w + 2 ∧ 2 * w < k1) && !whole w)
  let s := { s with
    tiles := (vs.foldl (fun (p : Nat × KMap F32) v =>
      (p.1 + 1, if part.contains (p.1 / 2) then p.2 else KMap.put (fun _ => 0) p.2 p.1 v)) (k0, s.tiles)).2
    tileBad := s.tileBad.filter (fun w => !whole w)
    tileSoft := s.tileSoft.filter (fun w => !decide (k0 < 2 * w + 2 ∧ 2 * w < k1)) }
  part.foldl (fun s _ => s.raise E.SEQ_TR_ECC ctx (atDie n) (16 * a + j)) s

/-! ## Sequencers (R195 to R199) -/

/-- Sequencer 4n + q. -/
def State.seq (s : State) (k : Nat) : Seq := KMap.find (fun _ => Seq.empty) s.seqs k

/-- Sequencer 4n + q replaced. -/
def State.setSeq (s : State) (k : Nat) (x : Seq) : State := { s with seqs := KMap.put (fun _ => Seq.empty) s.seqs k x }

/-- A sequencer changed. -/
def State.modSeq (s : State) (k : Nat) (f : Seq → Seq) : State := s.setSeq k (f (s.seq k))

/-- s0 reads 0 (R197). -/
def Seq.sreg (x : Seq) (i : Nat) : Word := if i = 0 then 0 else KMap.find (fun _ => 0) x.s i

/-- A write of s0 is discarded (R197). -/
def Seq.setS (x : Seq) (i : Nat) (v : Word) : Seq := if i = 0 then x else { x with s := KMap.put (fun _ => 0) x.s i v }

/-- An address register (R197). -/
def Seq.areg (x : Seq) (i : Nat) : Addr := KMap.find (fun _ => 0) x.a i

/-- An address register written (R197). -/
def Seq.setA (x : Seq) (i : Nat) (v : Addr) : Seq := { x with a := KMap.put (fun _ => 0) x.a i v }

/-- p0 reads 1 (R197). -/
def Seq.preg (x : Seq) (i : Nat) : Bool := if i = 0 then true else KMap.find (fun _ => false) x.p i

/-- A write of p0 is discarded (R197). -/
def Seq.setP (x : Seq) (i : Nat) (v : Bool) : Seq :=
  if i = 0 then x else { x with p := KMap.put (fun _ => false) x.p i v }

/-- An event counter (R216). -/
def Seq.evc (x : Seq) (e : Nat) : Nat := KMap.find (fun _ => 0) x.ev e

/-- An event counter set. -/
def Seq.setEv (x : Seq) (e v : Nat) : Seq := { x with ev := KMap.put (fun _ => 0) x.ev e v }

/-- A watch entry (R218). -/
def Seq.watchAt (x : Seq) (i : Nat) : Watch := KMap.find (fun _ => Watch.off) x.watch i

/-- States of a sequencer as SEQ_STAT.state numbers them (R203, R227). -/
def seqUNBOUND : Nat := 0
/-- R227. -/
def seqLOADING : Nat := 1
/-- R227. -/
def seqHALTED : Nat := 2
/-- R227. -/
def seqRUNNING : Nat := 3
/-- R227. -/
def seqFAULTED : Nat := 4

/-- State of sequencer k = 4n + q. -/
def State.seqState (s : State) (k : Nat) : Nat := s.get (R.SEQ_STAT.state (k / 4) (k % 4))

/-- State of a sequencer set; one that leaves FAULTED leaves its context's CTX_FAULT (R461). -/
def State.setSeqState (s : State) (k v : Nat) : State :=
  let f := R.CTX_FAULT.faulted (s.get (R.SEQ_BIND.ctx (k / 4) (k % 4))) (k / 64)
  let s := if v ≠ 4 ∧ bit (s.get f) (k % 64) = true then s.put f (s.get f - 2 ^ (k % 64)) else s
  s.put (R.SEQ_STAT.state (k / 4) (k % 4)) v

/-- Index of the next bundle (R227). The 14-bit field cannot hold 16,384, the index past the last bundle of the largest
image; `past` does. -/
def State.pc (s : State) (k : Nat) : Nat :=
  s.get (R.SEQ_STAT.pc (k / 4) (k % 4)) + (if (s.seq k).past then 2 ^ 14 else 0)

/-- The program counter set, in SEQ_STAT and in SEQ_PC. -/
def State.setPc (s : State) (k v : Nat) : State :=
  ((s.modSeq k (fun x => { x with past := decide (2 ^ 14 ≤ v) })).put (R.SEQ_STAT.pc (k / 4) (k % 4)) v).put
    (R.SEQ_PC.pc (k / 4) (k % 4)) v

/-- The context that a sequencer is bound for (R201). -/
def State.seqCtx (s : State) (k : Nat) : Nat := s.get (R.SEQ_BIND.ctx (k / 4) (k % 4))

/-- The stage a sequencer runs (R201). -/
def State.seqStage (s : State) (k : Nat) : Nat := s.get (R.SEQ_BIND.stage (k / 4) (k % 4))

/-- True when the sequencer is in a bound state (R203). -/
def State.seqBound (s : State) (k : Nat) : Bool := decide (s.seqState k ≠ seqUNBOUND)

/-- The sequencer bound to a stage of a context (R195). -/
def State.seqOfStage (s : State) (c stage : Nat) : Option Nat :=
  (List.range 96).find? (fun k => s.seqBound k && decide (s.seqCtx k = c) && decide (s.seqStage k = stage))

/-- A completion counter signalled (R217). At 65,535 it holds: R216 raises SEQ_EVT at a signalling bundle, and a unit's signal comes from no bundle
(DESIGN CHOICE, log entry 150). -/
def State.signal (s : State) (k : Nat) (cen : Bool) (e : Nat) : State :=
  if cen then s.modSeq k (fun x => x.setEv e (min (x.evc e + 1) 65535)) else s

/-! ## Arrays, sap lines, glaze units -/

/-- Array `a` of die `n`. -/
def State.arr (s : State) (n a : Nat) : Arr := KMap.find (fun _ => Arr.empty) s.arrs (8 * n + a)

/-- An array replaced. -/
def State.setArr (s : State) (n a : Nat) (x : Arr) : State :=
  { s with arrs := KMap.put (fun _ => Arr.empty) s.arrs (8 * n + a) x }

/-- True when the array works (R4, R85). -/
def State.works (s : State) (n a : Nat) : Bool := bit s.mfg.working (8 * n + a)

/-- Size of the raft that sequencer 4n + q leads; 1 where it leads none. -/
def State.raftOf (s : State) (n q : Nat) : Nat := KMap.find (fun _ => 1) s.raft (4 * n + q)

/-- The sap line of a die. -/
def State.sap (s : State) (n : Nat) : Sap := KMap.find (fun _ => ⟨none, 3⟩) s.saps n

/-- The sap line of a die replaced. -/
def State.setSap (s : State) (n : Nat) (x : Sap) : State := { s with saps := KMap.put (fun _ => ⟨none, 3⟩) s.saps n x }

/-- Glaze unit `v` of die `n`. -/
def State.glz (s : State) (n v : Nat) : Glz := KMap.find (fun _ => ⟨[], [], []⟩) s.glzs (2 * n + v)

/-- A glaze unit replaced. -/
def State.setGlz (s : State) (n v : Nat) (x : Glz) : State :=
  { s with glzs := KMap.put (fun _ => ⟨[], [], []⟩) s.glzs (2 * n + v) x }

/-- A flume. -/
def State.flume (s : State) (f : Nat) : Flume := KMap.find (fun _ => Flume.empty) s.flumes f

/-- A flume replaced. -/
def State.setFlume (s : State) (f : Nat) (x : Flume) : State :=
  { s with flumes := KMap.put (fun _ => Flume.empty) s.flumes f x }

/-! ## Taking a sequencer exception (R203, R220 to R222, R449) -/

/-- An exception of a slot: its code, SEQ_EXC1.info, and the refusal to log when it is SEC_PERM (address, length, kind, write). -/
structure Exc where
  code : Nat
  info : Nat
  perm : Option (Nat × Nat × Nat × Bool)
deriving DecidableEq, Repr

/-- An exception without a permission refusal. -/
def exc (code info : Nat) : Exc := ⟨code, info, none⟩

/-- A sequencer enters FAULTED and its context learns of it (R203, R449). -/
def State.faulted (s : State) (k : Nat) : State :=
  let c := s.seqCtx k
  let f := R.CTX_FAULT.faulted c (k / 64)
  let s := s.setSeqState k seqFAULTED
  let s := if bit (s.get f) (k % 64) then s else s.put f (s.get f + 2 ^ (k % 64))
  s.ctxEvent c 0

/-- Where an exception of an instruction is raised: at the flume's home landing die (R167), at the landing die under the compute die that is
home to its stage (R194, R23), and at the compute die otherwise. The detail of a flume error is the flume. -/
def excAt (n code info : Nat) : Where :=
  if code ∈ [E.FLM_UNBOUND, E.FLM_CLOSED, E.FLM_STAGE, E.FLM_CTX, E.FLM_REC_LEN, E.FLM_HELD, E.LINK_FEATURE] then atLd (ldOfFlume info)
  else if code ∈ [E.VER_REF, E.VER_STATE, E.VER_GEN_ORDER, E.VER_ENTRY, E.CFG_COMMIT, E.LINK_HALF_DOWN] then atLd (ldOfDie n)
  else atDie n

/-- Issue given up: nothing staged, held or waiting, and the gate and the end of a pin that concerned the waiting bundle gone (R172, R180, R203,
R220). -/
def State.stopIssue (s : State) (k : Nat) : State :=
  let s := s.modSeq k (fun x => { x with staged := [], held := [], stepping := false, fetchErr := none })
  let s := (s.put (R.SEQ_STAT.wait (k / 4) (k % 4)) 0).put (R.VER_HDR.gate_hold k) 0
  { s with pinEnd := KMap.drop s.pinEnd k }

/-- An exception is taken at the bundle that sequencer `k` was to issue: SEQ_EXC0 and SEQ_EXC1 record it (R221, R227); it goes to the trap
handler when the image has one and none runs, else to FAULTED (R203, R222). Bundles that waited behind it do not issue (R220). R203 lists an
exception in RUNNING only: one of a bundle that SEQ_CMD step issues makes a HALTED sequencer FAULTED, or leaves it HALTED at its trap handler with
in_trap set (DESIGN CHOICE, log entry 149). -/
def State.takeExc (s : State) (k slot : Nat) (x : Exc) : State :=
  let pc := s.pc k
  let n := k / 4
  let q := k % 4
  let s := match x.perm with
    | some (a, len, kind, wr) => s.permLog (ldOfDie n) (s.seqCtx k) a len kind wr
    | none => s
  let s := if x.perm.isSome ∧ x.code = E.SEC_PERM then s else s.raise x.code (some (s.seqCtx k)) (excAt n x.code x.info) x.info
  let s := if x.code = E.SEQ_TS_ECC then (s.count (R.TS_ECC.uncorr n) 1).put (R.TS_ECC.last n) x.info else s
  let s := (s.stopIssue k).puts [(R.SEQ_EXC0.code n q, x.code), (R.SEQ_EXC0.slot n q, slot), (R.SEQ_EXC0.pc n q, pc), (R.SEQ_EXC1.info n q, x.info)]
  if (s.seq k).trapEn && !s.flag (R.SEQ_STAT.in_trap n q) then
    let s := s.modSeq k (fun y => { y with epc := pc, ecode := x.code, einfo := x.info })
    (s.put (R.SEQ_STAT.in_trap n q) 1).setPc k (s.seq k).trap
  else s.faulted k

end Sys2Proof.Machine
end

