-- ==== Sys2Proof/Machine/Skw.lean ====
section
/-! DEFINITION. Machine/Skw.lean: sending and accepting on a Skidway link: sequence numbers, replay buffer, secure blocks, classes and
reduction messages (R401 to R413). -/

namespace Sys2Proof.Machine

/-- Frame types (R402). IDLE frames fill the gaps between the others (R400): when they go is a matter of time, which the model leaves out. -/
def ftIDLE : Nat := 0
/-- R402. -/
def ftACK : Nat := 1
/-- R402. -/
def ftNAK : Nat := 2
/-- R402. -/
def ftCTRL : Nat := 3
/-- R402. -/
def ftHDR : Nat := 4
/-- R402. -/
def ftDATA : Nat := 5
/-- R402. -/
def ftRACK : Nat := 6
/-- R402. -/
def ftCREDIT : Nat := 7
/-- R402. -/
def ftRED : Nat := 8
/-- R402. -/
def ftTAG : Nat := 9

/-- The CTRL messages, the first element of a CTRL frame's body; the spec gives no numbers (log entry 60). -/
inductive Ctrl where
  | caps
  | keyed
  | openReq
  | openAck
  | close
  | closeAck
  | held
  | down
  | rekey
  | mark
deriving DecidableEq, Repr

/-- The sub field of a CTRL message. -/
def Ctrl.sub : Ctrl → Nat
  | .caps => 0 | .keyed => 1 | .openReq => 2 | .openAck => 3 | .close => 4 | .closeAck => 5 | .held => 6 | .down => 7
  | .rekey => 8 | .mark => 9

/-! ## Frames as bytes (R401, R402) -/

/-- One byte of a CRC-32 with the IEEE 802.3 polynomial, least significant bit first. -/
def crcByte (c : BitVec 32) (b : Byte) : BitVec 32 :=
  (List.range 8).foldl (fun c _ => if c.getLsbD 0 then (c >>> 1) ^^^ 0xEDB88320#32 else c >>> 1) (c ^^^ b.setWidth 32)

/-- The CRC-32 of IEEE 802.3 (R401, which names the polynomial; the rest PRESUMED, log entry 134). -/
def crc32 (l : List Byte) : BitVec 32 := ~~~ (l.foldl crcByte (BitVec.allOnes 32))

/-- The chan field of a frame (R401): the peer channel, or the context of a RED frame. -/
def frameChan (typ : Nat) (body : List Nat) : Nat :=
  if typ = ftHDR ∨ typ = ftDATA ∨ typ = ftRACK ∨ typ = ftCREDIT ∨ typ = ftRED then body.headD 0 else 0

/-- The sub field of a frame (R402): the message of a CTRL frame, the frames that a TAG frame covers. -/
def frameSub (typ : Nat) (body : List Nat) : Nat := if typ = ftCTRL ∨ typ = ftTAG then body.headD 0 else 0

/-- The payload of a frame (R402), in clear; a TAG frame's is the tag itself. -/
def framePayload (typ : Nat) (body : List Nat) : List Byte :=
  if typ = ftACK ∨ typ = ftNAK then leBytes 4 (body.headD 0)
  else if typ = ftRACK then leBytes 4 (body.getD 1 0)
  else if typ = ftCREDIT then leBytes 2 (body.getD 1 0)
  else if typ = ftRED then (body.drop 3).map (BitVec.ofNat 8)
  else (body.drop 1).map (BitVec.ofNat 8)

/-- Bytes 0 to 251 of a frame in clear (R401). -/
def frameFront (typ : Nat) (body : List Nat) : List Byte :=
  let p := (framePayload typ body).take 248
  leBytes 4 (typ * 2 ^ 28 + frameChan typ body % 2 ^ 13 * 2 ^ 15 + p.length * 2 ^ 7 + frameSub typ body % 2 ^ 7) ++ p
    ++ List.replicate (248 - p.length) 0

/-- The 256 bytes of a frame from its first 252 (R401): a link frame's CRC is over the sequence number 0xFFFF_FFFF. -/
def frameBytes (typ seq : Nat) (front : List Byte) : List Byte :=
  front ++ leBytes 4 (crc32 (leBytes 4 (if typ ≤ ftNAK then 2 ^ 32 - 1 else seq) ++ front)).toNat

/-- What goes out for a frame. -/
def frameOut (k typ : Nat) (bytes : List Byte) : Out := .frame k typ (bytes.map BitVec.toNat)

/-- What goes out for a link frame that names sequence number `n` (R402). -/
def linkOut (k typ n : Nat) : Out := frameOut k typ (frameBytes typ n (frameFront typ [n]))

/-- The nonce of a secure block: 32 zero bits and the block counter (R413). -/
def blockNonce (n : Nat) : List Byte := List.replicate 4 0 ++ beBytes 8 n

/-- The first 252 bytes of the frame that comes next in an open block of `i` frames, its payload enciphered in the block's key stream (R413). -/
def sealFront (key : List Byte) (n i : Nat) (front : List Byte) : List Byte :=
  let stream := gcmStream (aesKeys key) (blockNonce n) (248 * i) 248
  front.take 4 ++ xorBytes (front.drop 4) stream

/-- The tag of a secure block: the frames' heads are the additional data, their payloads the ciphertext (R413). -/
def blockTag (key : List Byte) (n : Nat) (frames : List (List Byte)) : List Byte :=
  gcmTag (aesKeys key) (blockNonce n) (frames.flatMap (fun f => f.take 4)) (frames.flatMap (fun f => f.drop 4))

/-- What an end keeps of link `k`. -/
def State.skw (s : State) (k : Nat) : SkwLink := KMap.find (fun _ => SkwLink.empty) s.links k

/-- The link replaced. -/
def State.setSkw (s : State) (k : Nat) (x : SkwLink) : State := { s with links := KMap.put (fun _ => SkwLink.empty) s.links k x }

/-- True when the session is up (R411). -/
def State.skwUp (s : State) (k : Nat) : Bool := decide (s.get (R.SKW_LINK.state k) = 3)

/-- True while sequenced frames pass, in bring-up too (R403, R411). -/
def State.skwLive (s : State) (k : Nat) : Bool := decide (s.get (R.SKW_LINK.state k) = 2) || s.skwUp k

/-- A frame leaves: while a bulk frame waits it counts towards the 64 of which one is bulk (R407). -/
def SkwLink.sent (x : SkwLink) (bulk : Bool) : SkwLink :=
  { x with bulk := if bulk then 0 else if x.queue.any (fun f => decide (f.1 = 3)) then x.bulk + 1 else 0 }

/-- A link frame goes out (R402, R403). -/
def State.skwLinkFrame (s : State) (k typ n : Nat) : State := (s.setSkw k ((s.skw k).sent false)).emit (linkOut k typ n)

/-- A sequenced frame with these first 252 bytes leaves with the next number and stays in the replay buffer (R403). -/
def State.skwPut (s : State) (k typ : Nat) (body : List Nat) (front : List Byte) : State :=
  let x := s.skw k
  let b := frameBytes typ x.tx front
  (s.setSkw k { x with tx := (x.tx + 1) % 2 ^ 32, replay := x.replay ++ [⟨x.tx, typ, body, b⟩] }).emit (frameOut k typ b)

/-- The open secure block closes with its TAG frame when the replay buffer has room for it (R403, R413). A block that holds the marker of a re-key is
the last under the old key. -/
def State.skwTag (s : State) (k : Nat) : State :=
  let x := s.skw k
  if x.block = 0 ∨ 4096 ≤ x.replay.length then s
  else
    let tag := blockTag ((x.keys.map Prod.fst).getD []) x.txBlk x.opened
    let body := x.block :: tag.map BitVec.toNat
    let y := if x.marked then { x with keys := x.keys.map (fun q => (x.newKey.getD q.1, q.2)), newKey := none, marked := false, txBlk := 0 }
             else { x with txBlk := x.txBlk + 1 }
    (s.setSkw k ({ y with opened := [] }.sent false)).skwPut k ftTAG body (frameFront ftTAG body)

/-- A frame of the session: it is enciphered and joins the open block, which closes at 63 frames or behind the marker of a re-key (R413). -/
def State.skwFrame (s : State) (k typ : Nat) (body : List Nat) : State :=
  let x := s.skw k
  let clear := frameFront typ body
  let front := match x.keys with
    | some q => sealFront q.1 x.txBlk x.block clear
    | none => clear
  let mark := decide (typ = ftCTRL ∧ body.headD 0 = Ctrl.mark.sub)
  let s := (s.setSkw k { x with opened := x.opened ++ [front], marked := x.marked || mark }).skwPut k typ body front
  if 63 ≤ x.block + 1 ∨ mark then s.skwTag k else s

/-- The channel that class 2 serves next: the first after the one served last that has a frame (R407). -/
def nextChan (served : Nat) (l : List Nat) : Nat :=
  match (l.filter (fun c => decide (served < c))).min? with
  | some c => c
  | none => l.min?.getD 0

/-- The position in the queue of the frame to send next, by class: a bulk frame when one of any other class, with the TAG frame that it may bring,
would leave none among 64 (R407). -/
def SkwLink.pick (x : SkwLink) : Option Nat :=
  let first := fun c => x.queue.findIdx? (fun (f : Nat × Nat × List Nat) => decide (f.1 = c))
  let chans := (x.queue.filter (fun f => decide (f.1 = 2))).map (fun f => f.2.2.headD 0)
  let c2 := x.queue.findIdx? (fun (f : Nat × Nat × List Nat) => decide (f.1 = 2 ∧ f.2.2.headD 0 = nextChan x.served chans))
  if 63 < x.bulk + 1 + b2n (decide (62 ≤ x.block)) ∧ (first 3).isSome then first 3
  else ((first 0).or (first 1)).or (c2.or (first 3))

/-- Waiting frames leave while the replay buffer has room, the TAG of a full block first (R403, R407, R413). -/
def State.skwPump (k : Nat) : Nat → State → State
  | 0, s => s
  | n + 1, s =>
    let s := if 63 ≤ (s.skw k).block ∨ (s.skw k).marked then s.skwTag k else s
    let x := s.skw k
    match x.pick with
    | none => s
    | some i =>
      if 4096 ≤ x.replay.length ∨ 63 ≤ x.block ∨ x.marked ∨ !s.skwUp k then s
      else match x.queue[i]? with
        | none => s
        | some f =>
          let s := s.setSkw k ({ x with queue := x.queue.eraseIdx i, served := if f.1 = 2 then f.2.2.headD 0 else x.served }.sent (decide (f.1 = 3)))
          State.skwPump k n (s.skwFrame k f.2.1 f.2.2)

/-- A frame given to the link. Without a session it is not sent: records and credits are reconciled when the session is up (R149,
R404), and a close is learnt at the next open exchange (R425). -/
def State.skwSend (s : State) (k cls typ : Nat) (body : List Nat) : State :=
  if s.skwUp k then
    let x := s.skw k
    let s := s.setSkw k { x with queue := x.queue ++ [(cls, typ, body)] }
    State.skwPump k (x.queue.length + 1) s
  else s

/-- A CTRL message of the session with its bytes (R402). -/
def State.skwCtrlBytes (s : State) (k : Nat) (m : Ctrl) (bs : List Byte) : State := s.skwSend k 0 ftCTRL (m.sub :: bs.map BitVec.toNat)

/-- A CTRL message of the session with its fields, 8 bytes each (R402; the widths are a DESIGN CHOICE, log entry 60). -/
def State.skwCtrl (s : State) (k : Nat) (m : Ctrl) (body : List Nat) : State := s.skwCtrlBytes k m (body.flatMap (leBytes 8))

/-- True for the bulk kinds (R410). -/
def redBulk (kind : Nat) : Bool := decide (kind = 7 ∨ kind = 8)

/-- Bytes of the fields that follow a message's header: 8 a field; a bulk message has three of them and then its data (R410; the widths are a DESIGN
CHOICE, log entry 61). -/
def redBytes (kind n : Nat) : Nat := if redBulk kind then 8 * min n 3 + (n - 3) else 8 * n

/-- Frames that a reduction message of `n` body elements fills, of which destination, source and job lie in its 32-byte header (R401, R410). -/
def redFrames (kind n : Nat) : Nat := ceilDiv (32 + redBytes kind (n - 3)) 248

/-- The bytes of a reduction message: its header (R410) and its fields. -/
def SkwMsg.bytes (m : SkwMsg) : List Byte :=
  let fields := m.body.drop 3
  let n := if redBulk m.kind then 3 else fields.length
  leBytes 2 (m.body.getD 0 0) ++ leBytes 2 (m.body.getD 1 0) ++ leBytes 4 (m.body.getD 2 0) ++ leBytes 1 m.kind ++ leBytes 3 0 ++ leBytes 4 m.num
    ++ leBytes 8 (32 + redBytes m.kind fields.length) ++ leBytes 8 0
    ++ (fields.take n).flatMap (leBytes 8) ++ (fields.drop n).flatMap (leBytes 1)

/-- The frames of a reduction message, each with its fragment; the first begins with the header (R410). -/
def State.redPut (s : State) (k : Nat) (m : SkwMsg) : State :=
  let bs := m.bytes
  (List.range (redFrames m.kind m.body.length)).foldl
    (fun s i => s.skwSend k (if redBulk m.kind then 3 else 1) ftRED (m.ctx :: m.num :: i :: ((bs.drop (248 * i)).take 248).map BitVec.toNat)) s

/-- A reduction message given to a link: it is sent when the session is up, and kept until it is acknowledged (R404, R410). -/
def State.redGive (s : State) (k : Nat) (m : SkwMsg) : State :=
  let x := s.skw k
  (s.setSkw k { x with red := x.red ++ [m] }).redPut k m

/-- Sequenced frames accepted from the peer: the expected number advances, and an ACK goes out at every 64th since the last one (R403). -/
def State.skwTake (s : State) (k n : Nat) : State :=
  let x := s.skw k
  let acks := (x.unack + n) / 64
  let s := s.setSkw k { x with rx := (x.rx + n) % 2 ^ 32, unack := (x.unack + n) % 64 }
  (List.range acks).foldl (fun s i => s.skwLinkFrame k ftACK ((x.rx + 64 * (i + 1) - x.unack + 2 ^ 32 - 1) % 2 ^ 32)) s

/-- True when message frame `f` belongs to message `m`. -/
def SkwMsg.owns (m : SkwMsg) (typ : Nat) (body : List Nat) : Bool :=
  decide (typ = ftRED) && decide (body.take 2 = [m.ctx, m.num])

/-- Messages with no frame left to send or to acknowledge are acknowledged (R404, R410). In a session that is not up yet none has been sent: all are kept. -/
def SkwLink.settle (x : SkwLink) : SkwLink :=
  { x with red := x.red.filter (fun m => x.replay.any (fun f => m.owns f.typ f.body) || x.queue.any (fun f => m.owns f.2.1 f.2.2)) }

/-- Frames up to number `n` leave the replay buffer (R403); a number that no frame of it has frees none. -/
def SkwLink.ackTo (x : SkwLink) (n : Nat) : SkwLink :=
  match x.replay.findIdx? (fun f => decide (f.seq = n)) with
  | some i => { x with replay := x.replay.drop (i + 1), resent := (0, 0) }
  | none => x

end Sys2Proof.Machine
end

