-- ==== Sys2Proof/Machine/Route.lean ====
section
/-! DEFINITION. Machine/Route.lean: the paths of packets between landing dies (R17), what the loss of a link does to them (R20, R21), and the
packets that are under way. Link 0 joins H0 and H1, link 1 H2 and H3, link 2 H0 and H2, link 3 H1 and H3 (R416). -/

namespace Sys2Proof.Machine

/-- True while a half is held in a half reset (R25). -/
def State.halfInReset (s : State) (h : Nat) : Bool := KMap.find (fun _ => false) s.halfRst h

/-- The landing die of an end (R416). -/
def spnDie (i : Nat) (hi : Bool) : Nat :=
  if i = 0 then b2n hi else if i = 1 then 2 + b2n hi else if i = 2 then 2 * b2n hi else 1 + 2 * b2n hi

/-- Key of an end. -/
def spnKey (i : Nat) (hi : Bool) : Nat := 2 * i + b2n hi

/-- True when the landing-die link carries nothing: lost (R418). -/
def State.spnLost (s : State) (i : Nat) : Bool := decide (s.get (R.SPN_LINK.state i) = 3)

/-- True when the links that are lost leave some two landing dies without the path that R20 or R21 gives (R428). -/
def State.noPath (s : State) : Bool :=
  (s.spnLost 2 && s.spnLost 3) || (s.spnLost 0 && s.spnLost 1) || ((s.spnLost 2 || s.spnLost 3) && (s.spnLost 0 || s.spnLost 1))

/-- The links that a packet from landing die `x` to landing die `y` takes, given the links that are lost (R17, R20, R21). For two landing dies of
opposite halves that are not mirror-opposite, with the within-half link of the target's half lost, R20 and R21 give no path: the packet takes
the within-half link of its own half and then the spine link at the target, which is up (DESIGN CHOICE, log entry 143). -/
def ldPath (lost : Nat → Bool) (x y : Nat) : List Nat :=
  if x = y then []
  else if x / 2 = y / 2 then (if lost (x / 2) then [2 + x % 2, 1 - x / 2, 2 + y % 2] else [x / 2])
  else if x % 2 = y % 2 then (if lost (2 + x % 2) then [x / 2, 3 - x % 2, y / 2] else [2 + x % 2])
  else if lost (2 + x % 2) || lost (y / 2) then [x / 2, 2 + y % 2]
  else [2 + x % 2, y / 2]

/-- The path between two landing dies now. -/
def State.path (s : State) (x y : Nat) : List Nat := ldPath s.spnLost x y

/-- What an end has sent. -/
def State.spnTxAt (s : State) (e : Nat) : SpnTx := KMap.find (fun _ => SpnTx.empty) s.spnTx e

/-- That, replaced. -/
def State.setSpnTx (s : State) (e : Nat) (x : SpnTx) : State := { s with spnTx := KMap.put (fun _ => SpnTx.empty) s.spnTx e x }

/-- The flits of a link are gone with it. -/
def State.dropFlits (s : State) (i : Nat) : State := (s.setSpnTx (spnKey i false) SpnTx.empty).setSpnTx (spnKey i true) SpnTx.empty

/-- An end of link `i` sends the next flit, of kind `kind` and packet `n`: it bears a 16-bit number, acknowledges what the end has accepted, and is
kept for a resend among the last 1,024 (R417; the sender waits for no acknowledgement here: DESIGN CHOICE, log entry 143). -/
def State.flit (s : State) (i : Nat) (hi : Bool) (kind n : Nat) : State :=
  let x := s.spnTxAt (spnKey i hi)
  let y := s.spnTxAt (spnKey i !hi)
  let kept := x.kept ++ [(x.next, kind, n)]
  let s := s.setSpnTx (spnKey i !hi) { y with kept := y.kept.drop x.got }
  (s.setSpnTx (spnKey i hi) { next := (x.next + 1) % 65536, kept := kept.drop (kept.length - 1024), got := 0 }).emit (.flit i kind [n, x.next])

/-- A flit of packet `n` on each link of a path from landing die `x`: kind 3 a request, 4 a response, 5 a request resent, 6 a duplicate
discarded. -/
def State.flits (s : State) (kind n x : Nat) (links : List Nat) : State :=
  (links.foldl (fun (p : State × Nat) i =>
    let hi := decide (spnDie i true = p.2)
    (p.1.flit i hi kind n, spnDie i !hi)) (s, x)).1

/-- A source sends a request from landing die `x` to the home landing die `y` (R17). A request that crosses no link is no packet, and none leaves
for a half in reset, as its access completes at `x` (R25). -/
def State.sendPkt (s : State) (src use x y : Nat) : State :=
  if x = y ∨ s.halfInReset (y / 2) = true then s
  else
    let p : Packet := { seq := s.pktNext, src := src, use := use, here := x, home := y, path := s.path x y, copies := 1 }
    { s with pkts := s.pkts ++ [p], pktNext := s.pktNext + 1 }.flits 3 p.seq x p.path

/-- The oldest packet of a source from `x` to `y` that is for `use` is acknowledged: its home landing die has applied the first copy and discards
the others by their sequence number (R20), and the response takes its own path back (R17). No response comes from a half in reset (R25). -/
def State.ackPkt (s : State) (src use x y : Nat) : State :=
  match s.pkts.find? (fun p => decide (p.src = src ∧ p.use = use ∧ p.here = x ∧ p.home = y)) with
  | none => s
  | some p =>
    let s := { s with pkts := s.pkts.filter (fun (r : Packet) => decide (r.seq ≠ p.seq)) }
    if s.halfInReset (y / 2) then s
    else
      let s := if 1 < p.copies then s.flits 6 p.seq y (p.path.reverse.take 1) else s
      s.flits 4 p.seq y (s.path y x)

/-- The packets of a source whose accesses end without an answer to it (R203, R505). -/
def State.dropPkts (s : State) (src : Nat) : State := { s with pkts := s.pkts.filter (fun p => decide (p.src ≠ src)) }

/-- A link is lost: the packets whose path it was on are resent on the path that is left, in the order they were sent (R20, R21). -/
def State.reroute (s : State) (i : Nat) : State :=
  s.pkts.foldl (fun s p =>
    if p.path.contains i then
      let q := { p with path := s.path p.here p.home, copies := p.copies + 1 }
      { s with pkts := s.pkts.map (fun (r : Packet) => if r.seq = p.seq then q else r) }.flits 5 p.seq p.here q.path
    else s) s

/-- The addresses at which the placement of memory changes: the ends of the slices, and of the global regions in them (R377, R382). -/
def State.seams (s : State) : List Nat :=
  let gs := (List.range 8).filter (fun g => s.flag (R.HBM_GREG.en g))
  (List.range 5).flatMap (fun h => 0x60_0000_0000 * h :: gs.flatMap (fun g =>
    let o := 0x60_0000_0000 * h + s.get (R.HBM_GREG.off g) * 2 ^ 30
    [o, o + s.get (R.HBM_GREG.size g) * 2 ^ 30])) ++ [0x0200_0000_0000, 0x0300_0000_0000]

/-- The home landing dies of a range (R15, R382): between two seams the placement repeats after four 4 KiB units at most. -/
def State.homesOf (s : State) (a n : Nat) : List Nat :=
  if n = 0 then []
  else
    let starts := a :: s.seams.filter (fun b => decide (a < b ∧ b < a + n))
    let units := starts.flatMap (fun b => (List.range 4).map (fun i => b + 4096 * i))
    (((a + n - 1) :: units).filter (fun b => decide (b < a + n) && s.mapped b)).map s.homeLd |>.dedup

/-- Requests of a source to every home of a range (R17). -/
def State.sendAll (s : State) (src use x a n : Nat) : State := (s.homesOf a n).foldl (fun s y => s.sendPkt src use x y) s

/-- Their acknowledgements. -/
def State.ackAll (s : State) (src use x a n : Nat) : State := (s.homesOf a n).foldl (fun s y => s.ackPkt src use x y) s

/-- An access that completes at once, by a source that stands at landing die `x`: its requests and responses cross the links (R17). -/
def State.crossFrom (s : State) (src x a n : Nat) : State := (s.sendAll src 0 x a n).ackAll src 0 x a n

/-- An access of S0 that completes at once: its requests and responses cross the links (R17). -/
def State.crossing (s : State) (a n : Nat) : State :=
  (s.homesOf a n).foldl (fun s y => (s.sendPkt 96 0 (ldOfSteward 0 y) y).ackPkt 96 0 (ldOfSteward 0 y) y) s

end Sys2Proof.Machine
end

