-- ==== Sys2Proof/Machine/Slot.lean ====
section
/-! DEFINITION. Machine/Slot.lean: what a slot instruction is to the issue of its bundle: the registers it names, the checks made
before it waits, what it waits for, its effect and its control flow (R207 to R215). -/

namespace Sys2Proof.Machine

/-- Index 4n + q of the sequencer that a slot instruction is given to (R195). -/
def seqKey (c : SlotCtl) : Nat := 4 * c.die.val + c.q.val

/-- Where control goes after the bundle (R214, R231, R232). -/
inductive Ctl where
  | seq
  | branch (target : Nat)
  | jump (target : Nat)
  | loop (count last : Nat)
  | halt
  | trapRet (target : Nat)
deriving DecidableEq, Repr

/-- One slot instruction as the issue logic sees it. `slots` are the slots R207 allows. `sR` are the scalar registers it
reads, `sW`, `aW`, `pW` the registers it writes, `tW` and `tG` the tile-register quarters that an array instruction
writes and a chain touches (R242). `desc` marks a slot that reads a descriptor (R238), `reads` the tile-store ranges (offset and length) that its
checks read. `chk` gives the exception of the first check that fails, `free` that of the first whose outcome is known while a register that the
slot reads is awaited (R215). Waits are codes of SEQ_STAT.wait (0: none): `wait` the one that comes before the checks of a descriptor slot,
`hold` the one that its descriptor, found good, asks for (R75), `late` the one that follows the checks (R245); `waitPush` and `waitPop`
are the flumes it waits on. `eff` takes the state its sources are read in and the state it changes (R211, R213). -/
structure SlotOp where
  slots    : List Nat := [3]
  sR       : List Nat := []
  sW       : List Nat := []
  aW       : List Nat := []
  pW       : List Nat := []
  tW       : State → List Nat := fun _ => []
  tG       : State → List Nat := fun _ => []
  desc     : Bool := false
  reads    : State → List (Nat × Nat) := fun _ => []
  free     : State → Option Exc := fun _ => none
  chk      : State → Option Exc := fun _ => none
  wait     : State → Nat := fun _ => 0
  hold     : State → Nat := fun _ => 0
  late     : State → Nat := fun _ => 0
  waitPush : State → List Nat := fun _ => []
  waitPop  : State → List Nat := fun _ => []
  eff      : State → State → State := fun _ s => s
  ctl      : State → Ctl := fun _ => .seq

/-- The exception of the first condition that holds. -/
def firstExc : List (Bool × Exc) → Option Exc
  | [] => none
  | (b, e) :: l => if b then some e else firstExc l

/-- A scalar source of sequencer `k` (R211). -/
def State.s (pre : State) (k : Nat) (r : BitVec 5) : Word := (pre.seq k).sreg r.toNat

/-- An address source of sequencer `k`. -/
def State.a (pre : State) (k : Nat) (r : Nat) : Addr := (pre.seq k).areg r

/-- A predicate source of sequencer `k`. -/
def State.p (pre : State) (k : Nat) (r : BitVec 3) : Bool := (pre.seq k).preg r.toNat

/-- A scalar result (R197). -/
def State.wS (s : State) (k : Nat) (r : BitVec 5) (v : Word) : State := s.modSeq k (fun x => x.setS r.toNat v)

/-- An address result. -/
def State.wA (s : State) (k : Nat) (r : BitVec 4) (v : Addr) : State := s.modSeq k (fun x => x.setA r.toNat v)

/-- A predicate result. -/
def State.wP (s : State) (k : Nat) (r : BitVec 3) (v : Bool) : State := s.modSeq k (fun x => x.setP r.toNat v)

/-- Bundles of the image the sequencer runs. -/
def State.nbundles (s : State) (k : Nat) : Nat := (s.seq k).nbundles

end Sys2Proof.Machine
end

