-- ==== Sys2Proof/Machine/FlumeOps.lean ====
section
/-! DEFINITION. Machine/FlumeOps.lean: the shared operations on a flume (R131 to R164): checks, gates, placement, reservation,
commit, taking and releasing a record. -/

namespace Sys2Proof.Machine

/-- States of a flume as FLM_STAT.state numbers them (R158, R165). -/
def flmUNBOUND : Nat := 0
/-- R165. -/
def flmOPEN : Nat := 1
/-- R165. -/
def flmHELD : Nat := 2
/-- R165. -/
def flmCLOSING : Nat := 3
/-- R165. -/
def flmZEROING : Nat := 4

/-- State of a flume. -/
def State.flmState (s : State) (f : Nat) : Nat := s.get (R.FLM_STAT.state f)

/-- The flumes that are not UNBOUND. -/
def State.boundFlumes (s : State) : List Nat :=
  s.regs.filterMap (fun e =>
    let f := (e.1 - (R.FLM_STAT.state 0).a) / 128
    if (R.FLM_STAT.state 0).a ≤ e.1 ∧ f < 8192 ∧ e.1 = (R.FLM_STAT.state f).a then some f else none)

/-- True while the landing dies of a half are in reset: until the half returns (R506). -/
def State.halfDead (s : State) (h : Nat) : Bool := s.halfInReset h && !KMap.find (fun _ => false) s.halfBack h

/-- Committed, unreleased records (FLM_STAT.occ). -/
def Flume.occ (x : Flume) : Nat := (x.recs.filter (fun r => r.cmt)).length

/-- Reserved, uncommitted slots (FLM_STAT.resv). -/
def Flume.resv (x : Flume) : Nat := (x.recs.filter (fun r => !r.cmt)).length

/-- Free credits at the producer end (R146). -/
def State.credits (s : State) (f : Nat) : Nat := s.get (R.FLM_DESC.depth f) - (s.flume f).out

/-- R133: both members name each other and agree. -/
def State.pairOk (s : State) (f : Nat) : Bool :=
  let p := s.get (R.FLM_DESC.pair f)
  let on := fun x => s.flag (R.FLM_DESC.pair_en x) && decide (s.flmState x = flmOPEN ∨ s.flmState x = flmHELD)
  let d := fun x => s.get (R.FLM_DESC.dir x)
  on f && on p && decide (s.get (R.FLM_DESC.pair p) = f)
  && (decide (d f = 0 ∧ d p = 1) || decide (d f = 1 ∧ d p = 0))
  && decide (s.get (R.FLM_DESC.prod f) = s.get (R.FLM_DESC.cons p))
  && decide (s.get (R.FLM_DESC.cons f) = s.get (R.FLM_DESC.prod p))
  && decide (s.get (R.FLM_DESC.ctx f) = s.get (R.FLM_DESC.ctx p))
  && decide (s.get (R.FLM_DESC.depth f) = s.get (R.FLM_DESC.depth p))
  && (if s.flag (R.FLM_DESC.remote f) then
        s.flag (R.FLM_DESC.remote p) &&
        decide (s.get (R.SKW_CHAN.link (s.get (R.FLM_DESC.chan f))) = s.get (R.SKW_CHAN.link (s.get (R.FLM_DESC.chan p))))
      else !s.flag (R.FLM_DESC.remote p))

/-- Records of the partner counted at this end: for a local pair its credits taken and not returned, for a remote pair
the records stored here and not released (R150). -/
def State.partnerHeld (s : State) (p : Nat) : Nat :=
  if s.flag (R.FLM_DESC.remote p) then (s.flume p).recs.length else (s.flume p).out

/-- The pair gate of R150; a flume whose pair rules are not in force has none. -/
def State.gateOk (s : State) (f : Nat) : Bool :=
  if s.pairOk f then
    let p := s.get (R.FLM_DESC.pair f)
    let d := s.get (R.FLM_DESC.depth f)
    let n := (s.flume f).out + s.partnerHeld p
    if s.get (R.FLM_DESC.dir f) = 0 then decide (n < d - s.get (R.FLM_DESC.floor f)) else decide (n < d)
  else true

/-- A push may proceed: a free credit that passes the gates (R146, R150). -/
def State.canPush (s : State) (f : Nat) : Bool := decide (0 < s.credits f) && s.gateOk f

/-- True when record `r` is in the regions' slot `(spill, i)`. -/
def FlmRec.inSlot (r : FlmRec) (spill : Bool) (i : Nat) : Bool := decide (r.spill = spill ∧ r.slot = i)

/-- True when a record or a staged copy lies in the slot. -/
def Flume.used (x : Flume) (spill : Bool) (i : Nat) : Bool :=
  x.recs.any (fun r => r.inSlot spill i) || x.staged.any (fun r => r.inSlot spill i)

/-- The lowest free slot: the flume-store region first, then the spill region (R143, R144). A slot that a spill copy is filling comes last:
it is taken when no other is free, and the copy is abandoned (DESIGN CHOICE, log entry 117). -/
def State.freeSlot (s : State) (f : Nat) : Option (Bool × Nat) :=
  let x := s.flume f
  let filling := fun i => match x.copy with
    | some (_, j) => decide (j = i)
    | none => false
  match (List.range (s.get (R.FLM_DESC.store_slots f))).find? (fun i => !x.used false i && !filling i) with
  | some i => some (false, i)
  | none => match (List.range (s.get (R.FLM_DESC.spill_lim f))).find? (fun i => !x.used true i) with
    | some i => some (true, i)
    | none => ((List.range (s.get (R.FLM_DESC.store_slots f))).find? (fun i => !x.used false i)).map (fun i => (false, i))

/-- The spill copy that goes on when a record is placed in a slot: one that was filling the slot is abandoned. -/
def Flume.copyAfter (x : Flume) (slot : Bool × Nat) : Option (Nat × Nat) :=
  match x.copy with
  | some (q, j) => if slot = (false, j) then none else some (q, j)
  | none => none

/-- Device address of a slot (R145). -/
def State.slotAddr (s : State) (f : Nat) (spill : Bool) (i : Nat) : Nat :=
  (if spill then s.get (R.FLM_DESC.spill_base f) else s.get (R.FLM_DESC.store_base f))
    + i * s.get (R.FLM_DESC.rec_size f) * 4096

/-- True while a record, or a staged copy of one, lies in the spill region (R148, R155, R165). -/
def Flume.spilling (x : Flume) : Bool := x.recs.any (fun r => r.spill) || x.staged.any (fun r => r.spill)

/-- The above_hi latch follows the records (R165). Where both its conditions hold (hiwm = lowm) it is set, and with no record it reads 0
though hiwm be 0: the spec gives neither case (DESIGN CHOICE, log entry 113). -/
def State.flmSync (s : State) (f : Nat) : State :=
  let n := (s.flume f).occ
  s.put (R.FLM_STAT.above_hi f)
    (if s.get (R.FLM_DESC.hiwm f) ≤ n ∧ 0 < n then 1
     else if n ≤ s.get (R.FLM_DESC.lowm f) then 0 else s.get (R.FLM_STAT.above_hi f))

/-- A flume replaced and its status brought up to date. -/
def State.setFlm (s : State) (f : Nat) (x : Flume) : State := (s.setFlume f x).flmSync f

/-- The checks of R140 for stage `stage` of context `c`, as producer or consumer; a flume homed on a half in half reset
refuses with LINK_HALF_DOWN (R164). -/
def State.flmCheck (s : State) (c stage f : Nat) (prod : Bool) : Option Exc :=
  let st := s.flmState f
  firstExc [
    (s.halfInReset (halfOfFlume f), exc E.LINK_HALF_DOWN f),
    (decide (st = flmUNBOUND ∨ st = flmZEROING), exc E.FLM_UNBOUND f),
    (decide (st = flmCLOSING), exc E.FLM_CLOSED f),
    (decide (stage ≠ s.get (if prod then R.FLM_DESC.prod f else R.FLM_DESC.cons f)), exc E.FLM_STAGE f),
    (decide (c ≠ s.get (R.FLM_DESC.ctx f)), exc E.FLM_CTX f)]

/-- R140 for sequencer `k`. -/
def State.flmSeqCheck (s : State) (k f : Nat) (prod : Bool) : Option Exc :=
  s.flmCheck (s.seqCtx k) (s.seqStage k) f prod

/-- A wait on a HELD flume with FLM_TMO 0 ends at once (R159). -/
def State.heldAtOnce (s : State) (f : Nat) (would : Bool) : Option Exc :=
  if would && decide (s.flmState f = flmHELD ∧ s.get R.FLM_TMO.ticks = 0) then some (exc E.FLM_HELD f) else none

/-- A reservation by `owner` (R136, R143): the slot's record at the end of the order, a credit taken. -/
def State.reserve (s : State) (owner f : Nat) : State × Nat :=
  match s.freeSlot f with
  | none => (s, 0)
  | some (sp, i) =>
    let x := s.flume f
    let r : FlmRec := { hdr := Hdr.zero, owner := owner, holder := 0, sent := false, cmt := false, ready := false,
                        held := false, spill := sp, slot := i, bad := false, pin := none }
    (s.setFlm f { x with recs := x.recs ++ [r], out := x.out + 1, copy := x.copyAfter (sp, i) }, s.slotAddr f sp i)

/-- The first record for which `p` holds, replaced by `g` of it. -/
def modFirst (p : FlmRec → Bool) (g : FlmRec → FlmRec) : List FlmRec → List FlmRec
  | [] => []
  | r :: rs => if p r then g r :: rs else r :: modFirst p g rs

/-- The first record for which `p` holds, left out. -/
def dropFirst (p : FlmRec → Bool) : List FlmRec → List FlmRec
  | [] => []
  | r :: rs => if p r then rs else r :: dropFirst p rs

/-- The oldest reserved slot of `owner` whose commit has not been sent. -/
def Flume.oldestResv (x : Flume) (owner : Nat) : Option FlmRec :=
  x.recs.find? (fun r => decide (r.owner = owner) && !r.sent)

/-- FLM.CMT: the commit leaves with the program's fields (R134, R136). -/
def State.sendCommit (s : State) (owner f : Nat) (h : Hdr) : State :=
  let x := s.flume f
  let recs := modFirst (fun r => decide (r.owner = owner) && !r.sent) (fun r => { r with hdr := h, sent := true }) x.recs
  s.setFlm f { x with recs := recs }

/-- Records already numbered and delivered in order: those ahead of the oldest uncommitted reservation. -/
def Flume.front (x : Flume) : List FlmRec := x.recs.takeWhile (fun r => r.cmt)

/-- The records from the oldest uncommitted reservation on. -/
def Flume.back (x : Flume) : List FlmRec := x.recs.dropWhile (fun r => r.cmt)

/-- Commit of the first record that `p` names, one not yet committed (R141): version, prod, rseq and poison are written, the record joins the
order and the counters (R135, R165). Records are numbered in their order (R137), in which a remote end takes them (R149, R406): next_cmt is
the number of the oldest uncommitted reservation (DEDUCED, log entry 118). The answer is the record's number. -/
def State.commitRec (s : State) (f : Nat) (p : FlmRec → Bool) : State × Nat :=
  let x := s.flume f
  match x.recs.find? p with
  | none => (s, 0)
  | some r =>
    let n := s.get (R.FLM_SEQ.next_cmt f)
    let num := (n + x.back.findIdx p) % 2 ^ 32
    let h := { r.hdr with prod := s.get (R.FLM_DESC.prod f), rseq := num, redeliv := false, poison := r.hdr.poison || r.bad }
    let recs := modFirst p (fun r => { r with hdr := h, cmt := true }) x.recs
    let s := s.setFlm f { x with recs := recs }
    let s := s.put (R.FLM_SEQ.next_cmt f) (n + ((recs.drop x.front.length).takeWhile (fun r => r.cmt)).length)
    let s := s.count (R.FLM_CNT.records f) 1
    (if h.poison then s.count (R.FLM_CNT.poison f) 1 else s, num)

/-- The oldest commit on its way reaches the home landing die. -/
def State.arriveCommit (s : State) (f : Nat) : State := (s.commitRec f (fun r => r.sent && !r.cmt)).1

/-- Records numbered by their places from `n` on. -/
def numberFrom (n : Nat) : List FlmRec → List FlmRec
  | [] => []
  | r :: rs => (if r.cmt then { r with hdr := { r.hdr with rseq := n % 2 ^ 32 } } else r) :: numberFrom (n + 1) rs

/-- Reservations given up with their credits (R163, R446); those behind them move up in the order. -/
def State.dropResv (s : State) (f : Nat) (lost : FlmRec → Bool) : State :=
  let x := s.flume f
  if !x.recs.any lost then s
  else
    let n := s.get (R.FLM_SEQ.next_cmt f)
    let l := numberFrom n (x.back.filter (fun r => !lost r))
    (s.setFlm f { x with recs := x.front ++ l, out := x.out - (x.recs.filter lost).length, copy := none }).put (R.FLM_SEQ.next_cmt f)
      (n + (l.takeWhile (fun r => r.cmt)).length)

/-- The ready notice of the oldest committed record without one, all records ahead of it committed (R137, R141). -/
def readyFirst : List FlmRec → List FlmRec
  | [] => []
  | r :: rs => if !r.cmt then r :: rs else if r.ready then r :: readyFirst rs else { r with ready := true } :: rs

/-- The record at the head of the order, held ones passed over (R136). -/
def Flume.head (x : Flume) : Option FlmRec := x.recs.find? (fun r => !r.held)

/-- The ready record of a flume (R136). -/
def Flume.readyHead (x : Flume) : Option FlmRec :=
  match x.head with
  | some r => if r.cmt && r.ready then some r else none
  | none => none

/-- Records that `holder` holds (R139). -/
def Flume.heldBy (x : Flume) (holder : Nat) : Nat := (x.recs.filter (fun r => r.held && decide (r.holder = holder))).length

/-- True for a marker record (payload length 0). -/
def Hdr.marker (h : Hdr) : Bool := decide (h.len = 0)

/-- The ready record taken and held by `holder`; a copy of it in progress is abandoned (R136, R143). -/
def State.takeRec (s : State) (holder f : Nat) : State :=
  let x := s.flume f
  match x.readyHead with
  | none => s
  | some r =>
    let s := s.setFlm f { x with
      recs := modFirst (fun r => !r.held) (fun r => { r with held := true, holder := holder, pin := none }) x.recs
      copy := match x.copy with
        | some (q, i) => if q = r.hdr.rseq then none else some (q, i)
        | none => none }
    s.put (R.FLM_SEQ.next_pop f) (r.hdr.rseq + 1)

/-- The oldest record that `holder` holds. -/
def Flume.oldestHeld (x : Flume) (holder : Nat) : Option FlmRec :=
  x.recs.find? (fun r => r.held && decide (r.holder = holder))

/-- FLM.REL: the oldest held record leaves and its credit sets out for the producer (R136, R141); a remote flume's credit
goes over the channel (R148). -/
def State.releaseRec (s : State) (holder f : Nat) : State :=
  let x := s.flume f
  match x.oldestHeld holder with
  | none => s
  | some _ =>
    let recs := dropFirst (fun r => r.held && decide (r.holder = holder)) x.recs
    if s.flag (R.FLM_DESC.remote f) then
      let ch := s.get (R.FLM_DESC.chan f)
      (s.setFlm f { x with recs := recs }).skwSend (s.get (R.SKW_CHAN.link ch)) 0 ftCREDIT [s.get (R.SKW_CHAN.peer ch), 1]
    else s.setFlm f { x with recs := recs, ret := x.ret + 1 }

/-- The header as the record's first 36 bytes give it, in HB (R134, R199). -/
def State.toHB (s : State) (k f : Nat) (h : Hdr) : State :=
  s.modSeq k (fun x => { x with hb := h, hbVer := 1, hbFlume := f })

/-- The flume number that a flume operand names (R229). -/
def flumeNum (pre : State) (k : Nat) : FlumeOp → Nat
  | .imm f => f.toNat
  | .reg fs => (pre.s k fs).toNat % 2 ^ 13

/-- The scalars a flume operand reads. -/
def flumeReads : FlumeOp → List Nat
  | .imm _ => []
  | .reg fs => [fs.toNat]

/-! ## The schedule (R151 to R154, R166) -/

/-- What FLM.NEXT finds: the step is finished, a flume to wait on, or a record to take; with the pointer and round that
stand when it issues. -/
inductive Pick where
  | finished (ptr round : Nat)
  | waitOn (f : Nat)
  | order (f : Nat)
  | take (f : Nat) (ptr round : Nat)
  | endless
deriving DecidableEq, Repr

/-- One entry after the other (R152); `whole` is true when every entry of the round so far was skipped at or beyond the
end, counted from entry 0. -/
def tablePick (s : State) (n q : Nat) : Nat → Nat → Int → Bool → Pick
  | 0, _, _, _ => .endless
  | fuel + 1, ptr, round, whole =>
    let base : Int := s.get (R.SCHED_BASE.base n q)
    let cnt : Int := s.get (R.SCHED_COUNT.count n q)
    let last := s.get (R.SCHED_CTL.last n q)
    let e := base + round * s.get (R.SCHED_CTL.stride n q) + toSigned 16 (s.get (R.SCHED_ENT.offset n q ptr))
    let f := s.get (R.SCHED_ENT.flume n q ptr)
    let ptr' := if last < ptr + 1 then 0 else ptr + 1
    let round' := if last < ptr + 1 then round + 1 else round
    if e < base ∨ base + cnt ≤ e then
      let w := (whole || decide (ptr = 0)) && decide (base + cnt ≤ e)
      if w && decide (last < ptr + 1) then .finished ptr' (wrap 32 round')
      else tablePick s n q fuel ptr' round' w
    else match (s.flume f).readyHead with
      | none => .waitOn f
      | some r =>
        if r.hdr.marker then .take f ptr (wrap 32 round)
        else if (r.hdr.mb : Int) ≠ e then .order f
        else .take f ptr' (wrap 32 round')

/-- Class of a ready record in ready-first order (R153). -/
def readyClass (s : State) (f : Nat) (r : FlmRec) : Nat :=
  if r.hdr.marker ∨ s.get (R.FLM_DESC.dir f) = 2 then 0 else if s.get (R.FLM_DESC.dir f) = 1 then 1 else 2

/-- The flumes whose consumer is the stage of sequencer `k` (R153). -/
def State.inFlumes (s : State) (k : Nat) : List Nat := s.boundFlumes.filter (fun f => (s.flmSeqCheck k f false).isNone)

/-- Ready-first order: class, then micro-batch, then flume number (R153). -/
def readyPick (s : State) (k : Nat) : Option Nat :=
  let l := (s.inFlumes k).filterMap (fun f => match (s.flume f).readyHead with
    | some r => some (readyClass s f r, r.hdr.mb, f)
    | none => none)
  (l.foldl (fun (b : Option (Nat × Nat × Nat)) x => match b with
    | none => some x
    | some y => if x.1 < y.1 ∨ (x.1 = y.1 ∧ (x.2.1 < y.2.1 ∨ (x.2.1 = y.2.1 ∧ x.2.2 < y.2.2))) then some x else b) none).map
    (fun x => x.2.2)

/-- What FLM.NEXT of sequencer `k` finds; a count of 0 finishes the step whatever the entries are (R166). The pointer and the round then stand
where R152's walk leaves them, or where they were when it has no end (DESIGN CHOICE, log entry 119). -/
def State.pick (s : State) (k : Nat) : Pick :=
  let n := k / 4
  let q := k % 4
  let ptr := s.get (R.SCHED_CTL.ptr n q)
  let round := toSigned 32 (s.get (R.SCHED_ROUND.round n q))
  if s.get (R.SCHED_CTL.mode n q) = 1 then
    match tablePick s n q (2 ^ 41) ptr round false with
    | .endless => if s.get (R.SCHED_COUNT.count n q) = 0 then .finished ptr (wrap 32 round) else .endless
    | x => x
  else match readyPick s k with
    | some f => .take f ptr (wrap 32 round)
    | none => .waitOn 8192

end Sys2Proof.Machine
end

