-- ==== Sys2Proof/Machine/Order.lean ====
section
/-! DEFINITION. Machine/Order.lean: the tile-store ranges and tile registers that queued array instructions and glaze chains
still have to read or write, and the order R75 and R107 give their accesses. -/

namespace Sys2Proof.Machine

/-- Tile-store bytes of die `n` from offset `o`. -/
def State.ts (s : State) (n o len : Nat) : List Byte := s.bytes (tileBase n + o) len

/-- A bad word in tile-store bytes. -/
def State.tsBad (s : State) (n o len : Nat) : Bool := !(s.badIn (tileBase n + o) len).isEmpty

/-- SEQ_TS_ECC for a descriptor or mask of `len` bytes at `o`, with the offset of its first bad word (R109). -/
def State.tsEcc (s : State) (n o len : Nat) : Bool × Exc :=
  (s.tsBad n o len, exc E.SEQ_TS_ECC ((s.badIn (tileBase n + o) len).headD 0 - tileBase n))

/-- Bits of an element in memory: the format's, or the expansion descriptor's (R37). -/
def elemBits (f : Nat) (x : Option ExpDesc) : Nat := match x with | some d => d.b | none => fmtBits f

/-- The range that rows `lo` to `hi - 1` of a strided operand span, `off` bytes into a row and `len` bytes long. -/
def rowSpan (addr stride lo hi off len : Nat) : List (Nat × Nat) :=
  if lo < hi ∧ 0 < len then [(addr + lo * stride + off, addr + (hi - 1) * stride + off + len)] else []

/-- Two lists of ranges share a 64-byte granule (R107). -/
def spansMeet (l r : List (Nat × Nat)) : Bool :=
  l.any (fun x => r.any (fun y => decide (x.1 / 64 * 64 < y.2 ∧ y.1 / 64 * 64 < x.2)))

/-! ## Array instructions -/

/-- Pass depth d of an instruction's target (R68, R76, R82). -/
def ArrOp.depth (o : ArrOp) : Nat :=
  let c := pairClass o.fa o.fb
  let d := if c = some .r4 then 256 else 128
  match o.quad with
  | some _ => d / 2
  | none => if 4 ≤ o.raft then 2 * d else d

/-- Number of passes. -/
def ArrOp.passes (o : ArrOp) : Nat := ceilDiv o.K o.depth

/-- Every row of every pass has been admitted. -/
def ArrOp.admitted (o : ArrOp) : Bool := decide (o.pass = o.passes ∧ o.row = o.M)

/-- Ranges of one operand of `rows` rows. -/
def OpBlk.spans (o : OpBlk) (f : Nat) (x : Option ExpDesc) (rows K : Nat) : List (Nat × Nat) :=
  let nb := ceilDiv K 32
  rowSpan o.addr o.stride 0 rows 0 (nb * blockBytes (elemBits f x))
    ++ (if fmtBlock f then rowSpan o.scale o.sstride 0 rows 0 nb else [])

/-- What an array instruction has still to read. -/
def ArrOp.reads (o : ArrOp) : List (Nat × Nat) :=
  (if o.admitted then [] else o.a.spans o.fa o.xa o.M o.K)
    ++ (if o.loaded < o.passes then o.b.spans o.fb o.xb o.N o.K else [])

/-! ## Glaze chains -/

/-- Rows and columns of a chain's extent (R118): first row, one past the last, first column, one past the last. -/
def GHead.box (h : GHead) : Nat × Nat × Nat × Nat :=
  match h.extent with
  | 0 => (0, 128, 0, 128)
  | 1 => (h.m0, h.m0 + h.rows, 0, 128)
  | _ => (64 * (h.quarter / 2), 64 * (h.quarter / 2) + 64, 64 * (h.quarter % 2), 64 * (h.quarter % 2) + 64)

/-- Groups of a chain (R118). -/
def GHead.groups (h : GHead) : Nat := match h.extent with | 0 => 16 | 1 => h.rows / 8 | _ => 4

/-- Groups of a chain (R118). -/
def Chain.groups (c : Chain) : Nat := c.head.groups

/-- Whole blocks of a tensor that an extent touches, with their scales (R40, R112). -/
def tensorSpans (fmt addr stride scale ra rb ca cb : Nat) : List (Nat × Nat) :=
  let w := blockBytes (fmtBits fmt)
  rowSpan addr stride ra rb (ca / 32 * w) ((ceilDiv cb 32 - ca / 32) * w)
    ++ (if fmtBlock fmt then rowSpan scale 4 ra rb (ca / 32) (ceilDiv cb 32 - ca / 32) else [])

/-- Ranges of a source (R112). -/
def GSrc.spans (x : GSrc) (b : Nat × Nat × Nat × Nat) : List (Nat × Nat) :=
  if b.1 = b.2.1 then []
  else match x.kind with
    | 2 => tensorSpans x.fmt x.addr x.stride x.scale b.1 b.2.1 b.2.2.1 b.2.2.2
    | 3 => tensorSpans x.fmt x.addr 0 x.scale 0 1 b.2.2.1 b.2.2.2
    | 4 => tensorSpans x.fmt x.addr 0 x.scale 0 1 b.1 b.2.1
    | _ => []

/-- Ranges of a sink (R113). -/
def GSink.spans (x : GSink) (b : Nat × Nat × Nat × Nat) : List (Nat × Nat) :=
  if x.kind = 2 ∧ b.1 ≠ b.2.1 then tensorSpans x.fmt x.addr x.stride x.scale b.1 b.2.1 b.2.2.1 b.2.2.2 else []

/-- Range of the mask bit array that a chain reads (R122). -/
def GHead.maskSpan (h : GHead) : List (Nat × Nat) :=
  if h.maskEn then rowSpan h.mask 16 h.box.1 h.box.2.1 0 16 else []

/-- Results of a chain's reduction (R124). -/
def GHead.redCount (h : GHead) : Nat := if h.redAxis then h.box.2.2.2 - h.box.2.2.1 else h.box.2.1 - h.box.1

/-- Range of the reduction vector (R124). -/
def GHead.redSpan (h : GHead) : List (Nat × Nat) := if h.redOp = 0 then [] else rowSpan h.red 0 0 1 0 (4 * h.redCount)

/-- What a chain has still to read. -/
def Chain.reads (c : Chain) : List (Nat × Nat) :=
  (if c.entered = c.groups then [] else c.srcs.flatMap (fun x => x.spans c.head.box)) ++ c.head.redSpan

/-- What a chain writes. -/
def Chain.writes (c : Chain) : List (Nat × Nat) := c.sinks.flatMap (fun x => x.spans c.head.box) ++ c.head.redSpan

/-- Keys of a tile register of sequencer `q` that a chain's extent covers (R75, R102): (array × 16 + register) × 4 + quarter. -/
def GHead.keys (h : GHead) (q i : Nat) : List Nat :=
  let r := (2 * q + i / 16) * 16 + i % 16
  if h.extent = 2 then [r * 4 + h.quarter] else (List.range 4).map (fun j => r * 4 + j)

/-- Keys that a chain reads. -/
def Chain.srcRegs (c : Chain) (q : Nat) : List Nat :=
  (c.srcs.filter (fun x => decide (x.kind = 1))).flatMap (fun x => c.head.keys q x.index)

/-- Keys that a chain writes. -/
def Chain.sinkRegs (c : Chain) (q : Nat) : List Nat :=
  (c.sinks.filter (fun x => decide (x.kind = 1))).flatMap (fun x => c.head.keys q x.index)

/-- Keys that a chain reads or writes (R75, R102); an empty extent touches none (R242). -/
def Chain.regs (c : Chain) (q : Nat) : List Nat := if c.groups = 0 then [] else c.srcRegs q ++ c.sinkRegs q

/-- Keys that a chain has not finished with: those it reads until its last group has entered, those it writes until its last group is
written (R75). -/
def Chain.held (c : Chain) (q : Nat) : List Nat :=
  (if c.entered = c.groups then [] else c.srcRegs q) ++ (if c.written = c.groups then [] else c.sinkRegs q)

/-! ## The order (R107) -/

/-- The sequencer that issued a glaze item. -/
def GlzItem.seq : GlzItem → Nat
  | .chain c => c.seq
  | .table t => t.seq

/-- Issue number, reads and writes of a glaze item that is not complete. -/
def GlzItem.access : GlzItem → Nat × List (Nat × Nat) × List (Nat × Nat)
  | .chain c => (c.ino, c.reads, c.writes)
  | .table t => (t.ino, [(t.addr, t.addr + 1024)], [])

/-- Issue number, reads and writes of a slot-3 access that waits (R213). -/
def TsAcc.access (t : TsAcc) : Nat × List (Nat × Nat) × List (Nat × Nat) :=
  let r := [(t.addr, t.addr + t.size)]
  (t.ino, if t.wr then [] else r, if t.wr then r else [])

/-- The scalar registers that a load not done yet writes (R212). -/
def Seq.awaited (x : Seq) : List Nat := x.loads.map PendLoad.rd ++ (x.late.filter (fun t => !t.wr)).map TsAcc.rd

/-- A load to the scalar register is pending; s0 is never awaited (R212). -/
def State.awaits (s : State) (k r : Nat) : Bool := decide (r ≠ 0) && (s.seq k).awaited.contains r

/-- The accesses that sequencer `k` has outstanding, each with its issue number. -/
def State.outstanding (s : State) (k : Nat) : List (Nat × List (Nat × Nat) × List (Nat × Nat)) :=
  let n := k / 4
  let g := s.glz n (k % 4 / 2)
  ((List.range 8).flatMap (fun a => ((s.arr n a).ops.filter (fun o => decide (o.seq = k))).map (fun o => (o.ino, o.reads, []))))
    ++ (((g.run ++ g.queue).filter (fun i => decide (i.seq = k))).map GlzItem.access)
    ++ (s.seq k).late.map TsAcc.access

/-- True when the accesses may take effect: no earlier one of sequencer `k` that they conflict with is outstanding (R107). -/
def State.tsFree (s : State) (k ino : Nat) (reads writes : List (Nat × Nat)) : Bool :=
  (s.outstanding k).all (fun o =>
    decide (ino ≤ o.1) || !(spansMeet o.2.2 reads || spansMeet o.2.2 writes || spansMeet o.2.1 writes))

/-- The wait of an instruction whose own tile-store access at issue must follow earlier ones of its sequencer (R107). -/
def State.tsWait (s : State) (k : Nat) (reads writes : List (Nat × Nat)) : Nat :=
  if s.tsFree k (s.seq k).ino reads writes then 0 else 6

/-- The next issue number of sequencer `k` is taken. -/
def State.nextIno (s : State) (k : Nat) : State := s.modSeq k (fun x => { x with ino := x.ino + 1 })

end Sys2Proof.Machine
end

