-- ==== Sys2Proof/Machine/Move.lean ====
section
/-! DEFINITION. Machine/Move.lean: the move-class instructions, legal in slot 3 (R248 to R251), and the DMA transfers and loads
they start. -/

namespace Sys2Proof.Machine

/-- True when a compute die's tile-store window cannot be reached: its control domain is off, or keeps only its retention cells (Rest), or
the die is in reset (R22, R392, R491). -/
def State.dieOff (s : State) (n : Nat) : Bool :=
  let pd := 2 * n + 1
  KMap.find (fun _ => false) s.dieRst n || !bit (s.get (R.PWR_PD.on (pd / 64))) (pd % 64)
    || decide (s.get R.PWR_STAT.rung = 2)

/-- True in the rungs in which HBM and the far tier are in self-refresh or off, and only the save and restore of R379 reach them (R392). -/
def State.asleep (s : State) : Bool := decide (2 ≤ s.get R.PWR_STAT.rung)

/-- The error with which an access to an address that is not available completes (R25, R392, R565). -/
def State.unavailable (s : State) (a : Nat) : Option Nat :=
  if s.halfInReset (s.homeLd a / 2) then some E.LINK_HALF_DOWN
  else match regionOf a with
    | .tile n => if s.dieOff n then some E.PWR_DIE_OFF else none
    | .hbm _ => if s.asleep then some E.PWR_ASLEEP else none
    | .far _ => if s.asleep then some E.PWR_ASLEEP else none
    | _ => none

/-- The 64-byte granules of a range whose home is not available, each by its first address (R19, R565). -/
def State.refused (s : State) (a n : Nat) : List Nat :=
  ((List.range (ceilDiv (a % 64 + n) 64)).map (fun i => max a (a / 64 * 64 + 64 * i))).filter (fun b => (s.unavailable b).isSome)

/-- What a write of `n` bytes at `a` finds in the units that it covers in part. A far-tier granule is read to be merged: a double error on the link
is found by that read, and the granule listed (R390). In a bad word of a tile store the write is not applied, which is logged (R109). -/
def State.mergeNote (s : State) (ctx : Option Nat) (a n : Nat) : State :=
  let s := match regionOf a with
    | .tile d => if (s.unavailable a).isNone && s.writeBad a n then s.logAs E.SEQ_TS_ECC 2 ctx (atDie d) (a - tileBase d) else s
    | _ => s
  if n = 0 then s
  else (s.linkErr.filter (fun u => decide (a < u + 64 ∧ u < a + n) && !coversUnit a n u && (s.unavailable u).isNone)).foldl (fun s u => s.noteBad ctx u) s

/-- Where an access of S0 that is refused with `e` at address `a` is logged: a half in reset, and an address where nothing is, is met where the access enters the
fabric (R25, R378), a die that is off by the landing die under it (R397; of the landing dies that take part R397 does not say which: DESIGN CHOICE, log entry 144). -/
def State.downAt (s : State) (e a : Nat) : Where :=
  if e = E.PWR_DIE_OFF then atLd (s.homeLd a) else atLd (s.entryLd a)

/-- True in the rungs in which patrol is paused or memory is off (R392): Rest, Freeze and Off. -/
def State.patrolPaused (s : State) : Bool := decide (2 ≤ s.get R.PWR_STAT.rung)

/-! ## Accesses of S0 (R378, R384 to R386) -/

/-- The error with which an access of S0 to an address completes: nothing is mapped or backed there (R378), or it is not available. -/
def State.s0Stop (s : State) (a : Nat) : Option Nat := if s.mapped a then s.unavailable a else some E.CFG_ABSENT

/-- The granules of an access of S0 that do not complete, each by its first address. -/
def State.s0Refused (s : State) (a n : Nat) : List Nat :=
  if n = 0 then []
  else ((List.range (ceilDiv (a % 64 + n) 64)).map (fun i => max a (a / 64 * 64 + 64 * i))).filter (fun b => (s.s0Stop b).isSome)

/-- True when S0 reads every byte of a range. -/
def State.s0Ok (s : State) (a n : Nat) : Bool := (s.s0Refused a n).isEmpty && (s.badIn a n).isEmpty

/-- Where an access that enters the fabric at landing die `x` and is refused with `e` at `a` is logged (R25, R378, R397). -/
def State.downFrom (s : State) (x e a : Nat) : Where := if e = E.PWR_DIE_OFF then atLd (s.homeLd a) else atLd x

/-- The granules that do not complete logged, each with its error (R25, R378, R397); `at'` says where. -/
def State.logDown (s : State) (ctx : Option Nat) (at' : Nat → Nat → Where) (a n : Nat) : State :=
  (s.s0Refused a n).foldl (fun s b => match s.s0Stop b with
    | some e => s.raise e ctx (at' e b) b
    | none => s) s

/-- Those of an access of S0. -/
def State.s0Log (s : State) (ctx : Option Nat) (a n : Nat) : State := s.logDown ctx s.downAt a n

/-- What a read leaves behind: the refused granules logged where `at'` says, single-bit errors corrected and uncorrectable ones found elsewhere
(R25, R378, R384, R385). -/
def State.readNote (s : State) (ctx : Option Nat) (at' : Nat → Nat → Where) (a n : Nat) : State :=
  let met := fun u => (s.s0Stop u).isNone
  let s := s.logDown ctx at' a n
  let s := ((s.soft.filter (fun u => decide (0 < n ∧ a < u + 8 ∧ u < a + n) && met u))).foldl (fun s u => s.fixWord u) s
  ((s.badIn a n).filter met).foldl (fun s u => s.noteBad ctx u) s

/-- What a read by S0 leaves behind; its requests and responses cross the links (R17). -/
def State.s0Note (s : State) (ctx : Option Nat) (a n : Nat) : State := (s.readNote ctx s.downAt a n).crossing a n

/-- What reads by S0 of several ranges leave behind. -/
def State.s0Notes (s : State) (ctx : Option Nat) (rs : List (Nat × Nat)) : State := rs.foldl (fun s r => s.s0Note ctx r.1 r.2) s

/-- True when S0 reads every byte of every range. -/
def State.s0AllOk (s : State) (rs : List (Nat × Nat)) : Bool := rs.all (fun r => s.s0Ok r.1 r.2)

/-- Bytes that S0 takes as it finds them: those it cannot read are all ones (DESIGN CHOICE, log entry 124). -/
def State.s0Bytes (s : State) (a n : Nat) : List Byte :=
  (List.range n).map (fun i => if (s.s0Stop (a + i)).isSome || s.isBad (a + i) then 0xFF else s.byte (a + i))

/-- A write by S0 or an edge die: the granules that do not complete are dropped and logged (R25, R378, R386). -/
def State.writeFrom (s : State) (ctx : Option Nat) (at' : Nat → Nat → Where) (a : Nat) (bs : List Byte) : State :=
  let out := s.s0Refused a bs.length
  if out.isEmpty then (s.mergeNote ctx a bs.length).write a bs
  else
    let s := s.mergeNote ctx a bs.length
    let all := (List.range (ceilDiv (a % 64 + bs.length) 64)).map (fun i => max a (a / 64 * 64 + 64 * i))
    ((all.filter (fun b => !out.contains b)).foldl (fun s b => s.write b ((bs.drop (b - a)).take (64 - b % 64))) s).logDown ctx at' a bs.length

/-- A write by S0; it crosses the links (R17). -/
def State.s0Write (s : State) (ctx : Option Nat) (a : Nat) (bs : List Byte) : State := (s.writeFrom ctx s.downAt a bs).crossing a bs.length

/-- In Bake or Proof with no deeper rung being entered: resets and teardowns are applied, and S0 takes haul requests (R495, R509). -/
def State.awake (s : State) : Bool :=
  decide (s.get R.PWR_STAT.rung < 2) && !(s.flag R.PWR_STAT.busy && decide (2 ≤ s.get R.PWR_STAT.target))

/-- The tile-store address of a mode-0 access, before its range check (R249). -/
def tsAddr (pre : State) (k : Nat) (rb : BitVec 5) (imm : BitVec 24) : Int :=
  ((pre.s k rb).toNat % 2 ^ 26 : Nat) + imm.toInt

/-- The device address of a mode-1 access (R249). -/
def devAddr (pre : State) (k : Nat) (rb : BitVec 5) (imm : BitVec 24) : Nat :=
  (pre.a k rb.toNat + imm.signExtend 48).toNat

/-- The checks of LD.TS and ST.TS (R228, R249). -/
def tsCheck (s : State) (k : Nat) (mode : Bool) (rb : BitVec 5) (size : BitVec 2) (imm : BitVec 24) (wr : Bool) : Option Exc :=
  let n := 2 ^ size.toNat
  if mode then
    let a := devAddr s k rb imm
    firstExc [(decide (16 ≤ rb.toNat), exc E.SEQ_OPERAND 0),
              (decide (a % n ≠ 0), exc E.SEQ_DEV_ALIGN a),
              (!s.permits (s.seqCtx k) a n wr, ⟨E.SEC_PERM, a, some (a, n, 1, wr)⟩)]
  else
    let a := tsAddr s k rb imm
    firstExc [(decide (a % n ≠ 0), exc E.SEQ_TS_ALIGN (wrap 64 a)),
              (decide (a < 0 ∨ (tileBytes : Int) < a + n), exc E.SEQ_TS_RANGE (wrap 64 a))]

/-- Loaded data extended to 64 bits (R249). -/
def extend (sx : Bool) (n v : Nat) : Word := if sx then BitVec.ofInt 64 (toSigned (8 * n) v) else BitVec.ofNat 64 v

/-- A mode-0 access takes effect (R109, R249): a load extends what it reads, or gives all ones for a bad word; a store into a bad word that it
does not cover is not applied. -/
def State.tsDo (s : State) (k : Nat) (t : TsAcc) : State :=
  let n := k / 4
  let a := tileBase n + t.addr
  if t.wr then
    let s' := s.write a t.data
    if s.writeBad a t.size then s'.logAs E.SEQ_TS_ECC 2 (some (s.seqCtx k)) (atDie n) t.addr else s'
  else (s.noteUse (some (s.seqCtx k)) a t.size).wS k (BitVec.ofNat 5 t.rd)
    (if (s.readBad a t.size).isEmpty then extend t.sx t.size (s.le a t.size) else BitVec.allOnes 64)

/-- A mode-0 access at issue: it takes effect, or follows the accesses that its own bundle has just queued (R107, R213). -/
def State.tsAccess (s : State) (k : Nat) (t : TsAcc) : State :=
  let a := t.access
  if s.tsFree k t.ino a.2.1 a.2.2 then s.tsDo k t else (s.modSeq k (fun x => { x with late := x.late ++ [t] })).nextIno k

/-- The accesses that waited for their own bundle take effect once they may, oldest first (R213). -/
def State.lateDo (s : State) (k : Nat) : State :=
  match (s.seq k).late with
  | [] => s
  | t :: ts =>
    if s.tsFree k t.ino t.access.2.1 t.access.2.2 then (s.modSeq k (fun x => { x with late := ts })).tsDo k t else s

/-- LD.TS (R230, R249): a mode-1 load leaves its destination pending until the read returns. -/
def opLdTs (k : Nat) (rd : BitVec 5) (mode : Bool) (rb : BitVec 5) (size : BitVec 2) (sx : Bool) (imm : BitVec 24) :
    SlotOp :=
  { sR := if mode then [] else [rb.toNat], sW := [rd.toNat]
    chk := fun s => tsCheck s k mode rb size imm false
    wait := fun s => if mode then 0 else let a := (tsAddr s k rb imm).toNat
      s.tsWait k [(a, a + 2 ^ size.toNat)] []
    eff := fun pre s =>
      let n := 2 ^ size.toNat
      if mode then
        let ld : PendLoad := { rd := rd.toNat, addr := devAddr pre k rb imm, size := n, sx := sx, val := none }
        (s.sendPkt k 1 (ldOfDie (k / 4)) (s.homeLd ld.addr)).modSeq k (fun x => { x with loads := x.loads ++ [ld] })
      else
        let a := (tsAddr pre k rb imm).toNat
        s.tsAccess k { ino := (s.seq k).ino, wr := false, rd := rd.toNat, addr := a, size := n, sx := sx, data := [] } }

/-- What a mode-1 read gives when its home landing die reads it: an unavailable target or an uncorrectable error gives all ones (R249,
R565). R397 has a landing die log PWR_DIE_OFF and does not say which: for an access of a stage program it is the one at which the program
issues it (DESIGN CHOICE, log entry 144). -/
def State.sampleLoad (s : State) (k : Nat) (ld : PendLoad) : State × Word :=
  match s.unavailable ld.addr with
  | some e => (s.raise e (some (s.seqCtx k)) (atLd (ldOfDie (k / 4))) ld.addr, BitVec.allOnes 64)
  | none =>
    (s.noteUse (some (s.seqCtx k)) ld.addr ld.size,
      if (s.readBad ld.addr ld.size).isEmpty then extend ld.sx ld.size (s.le ld.addr ld.size) else BitVec.allOnes 64)

/-- The pending reads of sequencer `k` from the granules of `n` bytes at `a` are made before a later store or DMA of it writes those
granules (R18). -/
def State.sampleLoads (s : State) (k a n : Nat) : State :=
  let r := (s.seq k).loads.foldl (fun (p : State × List PendLoad) ld =>
    if ld.val.isNone && decide (0 < n ∧ a / 64 ≤ ld.addr / 64 ∧ ld.addr / 64 ≤ (a + n - 1) / 64) then
      let v := p.1.sampleLoad k ld
      (v.1, p.2 ++ [{ ld with val := some v.2 }])
    else (p.1, p.2 ++ [ld])) (s, [])
  r.1.modSeq k (fun x => { x with loads := r.2 })

/-- LD_TS_RETURN: the oldest mode-1 read of the sequencer returns (R230). -/
def execLdTsReturn (die : Fin 24) (q : Fin 4) (s : State) : Result :=
  let k := 4 * die.val + q.val
  .next (match (s.seq k).loads with
    | [] => s
    | ld :: rest =>
      let s := (s.modSeq k (fun x => { x with loads := rest })).ackPkt k 1 (ldOfDie die.val) (s.homeLd ld.addr)
      let v := match ld.val with
        | some v => (s, v)
        | none => s.sampleLoad k ld
      v.1.wS k (BitVec.ofNat 5 ld.rd) v.2)

/-- A payload write of sequencer `k` returned an uncorrectable indication: the reserved slots it touches are marked
(R135, R386). -/
def State.payloadBad (s : State) (k a n : Nat) : State :=
  (s.flumes.map Prod.fst).foldl (fun s f =>
    let x := s.flume f
    let b := s.get (R.FLM_DESC.rec_size f) * 4096
    let hit := fun (r : FlmRec) => decide (r.owner = k) && !r.cmt &&
      decide (s.slotAddr f r.spill r.slot < a + n ∧ a < s.slotAddr f r.spill r.slot + b)
    if x.recs.any hit then s.setFlume f { x with recs := x.recs.map (fun r => if hit r then { r with bad := true } else r) }
    else s) s

/-- ST.TS (R249, R565): a write into a bad unit that it does not cover is not applied (R109, R386). -/
def opStTs (k : Nat) (rs : BitVec 5) (mode : Bool) (rb : BitVec 5) (size : BitVec 2) (imm : BitVec 24) : SlotOp :=
  { sR := if mode then [rs.toNat] else [rs.toNat, rb.toNat]
    free := fun s => if mode then tsCheck s k mode rb size imm true else none
    chk := fun s => tsCheck s k mode rb size imm true
    wait := fun s => if mode then 0 else let a := (tsAddr s k rb imm).toNat
      s.tsWait k [] [(a, a + 2 ^ size.toNat)]
    eff := fun pre s =>
      let n := 2 ^ size.toNat
      let data := leBytes n (pre.s k rs).toNat
      if mode then
        let a := devAddr pre k rb imm
        let x := ldOfDie (k / 4)
        let s := ((s.sampleLoads k a n).sendPkt k 0 x (s.homeLd a)).ackPkt k 0 x (s.homeLd a)
        match s.unavailable a with
        | some e => s.raise e (some (s.seqCtx k)) (atLd x) a
        | none =>
          let s' := (s.mergeNote (some (s.seqCtx k)) a n).write a data
          if s.writeBad a n then s'.payloadBad k a n else s'
      else
        let a := (tsAddr pre k rb imm).toNat
        s.tsAccess k { ino := (s.seq k).ino, wr := true, rd := 0, addr := a, size := n, sx := false, data := data } }

/-- The special registers (R198). -/
def State.special (s : State) (k i : Nat) : Nat :=
  let x := s.seq k
  match i with
  | 0 => s.seqStage k
  | 1 => s.seqCtx k
  | 2 => k
  | 3 => x.cycle
  | 4 => s.tick (halfOfDie (k / 4))
  | 5 => x.epc
  | 6 => x.ecode
  | 7 => x.einfo
  | _ => ((x.loops.reverse.map (fun l => l.count)).getD (i - 8) 0)

/-- MOV.SR (R198). -/
def opMovSr (k : Nat) (rd : BitVec 5) (idx : BitVec 6) : SlotOp :=
  { sW := [rd.toNat]
    chk := fun _ => if 12 ≤ idx.toNat then some (exc E.SEQ_OPERAND 0) else none
    eff := fun pre s => s.wS k rd (BitVec.ofNat 64 (pre.special k idx.toNat)) }

/-- The flags byte of a header, bits [4:0] (R134). -/
def Hdr.flags (h : Hdr) : Nat :=
  b2n h.last + 2 * b2n h.poison + 4 * b2n h.switchMk + 8 * b2n h.phaseMk + 16 * b2n h.redeliv

/-- The header field of a selector (R250). -/
def Hdr.field (h : Hdr) (ver flume sel : Nat) : Nat :=
  match sel with
  | 0 => ver | 1 => h.flags | 2 => h.phase | 3 => h.slot | 4 => h.mb | 5 => h.step | 6 => h.group | 7 => h.gen
  | 8 => h.variant | 9 => h.prod | 10 => h.seqOff | 11 => h.len | 12 => h.rseq | _ => flume

/-- A header with the program field of a selector written from the low bits of `v`; redeliv is ignored (R250). -/
def Hdr.setField (h : Hdr) (sel v : Nat) : Hdr :=
  match sel with
  | 1 => { h with last := bit v 0, poison := bit v 1, switchMk := bit v 2, phaseMk := bit v 3 }
  | 2 => { h with phase := v % 4 }
  | 3 => { h with slot := v % 4 }
  | 4 => { h with mb := v % 2 ^ 32 }
  | 5 => { h with step := v % 2 ^ 48 }
  | 6 => { h with group := v % 2 ^ 16 }
  | 7 => { h with gen := v % 2 ^ 32 }
  | 8 => { h with variant := v % 2 ^ 12 }
  | 10 => { h with seqOff := v % 2 ^ 20 }
  | 11 => { h with len := v % 2 ^ 32 }
  | _ => h

/-- MOV.HB (R250). -/
def opMovHb (k : Nat) (rd : BitVec 5) (sel : BitVec 6) : SlotOp :=
  { sW := [rd.toNat]
    chk := fun _ => if 14 ≤ sel.toNat then some (exc E.SEQ_OPERAND 0) else none
    eff := fun pre s =>
      let x := pre.seq k
      s.wS k rd (BitVec.ofNat 64 (x.hb.field x.hbVer x.hbFlume sel.toNat)) }

/-- MOV.OB (R250). -/
def opMovOb (k : Nat) (sel : BitVec 6) (rs : BitVec 5) : SlotOp :=
  { sR := [rs.toNat]
    free := fun _ => if [1, 2, 3, 4, 5, 6, 7, 8, 10, 11].contains sel.toNat then none else some (exc E.SEQ_OPERAND 0)
    chk := fun _ => if [1, 2, 3, 4, 5, 6, 7, 8, 10, 11].contains sel.toNat then none else some (exc E.SEQ_OPERAND 0)
    eff := fun pre s => s.modSeq k (fun x => { x with ob := x.ob.setField sel.toNat (pre.s k rs).toNat }) }

/-- HB.CP: every program field of HB into OB (R199, R250). -/
def opHbCp (k : Nat) : SlotOp :=
  { eff := fun _ s => s.modSeq k (fun x =>
      { x with ob := { x.hb with redeliv := x.ob.redeliv, prod := x.ob.prod, rseq := x.ob.rseq } }) }

/-- OB.CLR (R250). -/
def opObClr (k : Nat) : SlotOp := { eff := fun _ s => s.modSeq k (fun x => { x with ob := Hdr.zero }) }

/-! ## DMA (R251) -/

/-- One end of a DMA: the tile-store offset or device address it names. -/
def dmaEnd (s : State) (k : Nat) (dev : Bool) (r : BitVec 5) : Nat :=
  if dev then (s.a k r.toNat).toNat else (s.s k r).toNat % 2 ^ 26

/-- Alignment of one end (R251). -/
def dmaAlign (dev : Bool) (a : Nat) : Bool × Exc := (decide (a % 64 ≠ 0), exc (if dev then E.SEQ_DEV_ALIGN else E.SEQ_TS_ALIGN) a)

/-- Range of one end: the tile store, or the context's windows (R225, R251). R251 does not say what becomes of the check for an empty transfer: a
tile-store end is checked, and an empty range of device addresses lies in every window (DESIGN CHOICE, log entry 145). -/
def dmaRange (s : State) (k : Nat) (dev : Bool) (a n : Nat) (wr : Bool) : Bool × Exc :=
  if dev then (decide (0 < n) && !s.permits (s.seqCtx k) a n wr, ⟨E.SEC_PERM, a, some (a, n, 2, wr)⟩)
  else (decide (tileBytes < a + n), exc E.SEQ_TS_RANGE a)

/-- Device address of a transfer's end. -/
def endAddr (n : Nat) (dev : Bool) (a : Nat) : Nat := if dev then a else tileBase n + a

/-- Zero-length transfers at the front complete at once (R251). -/
def dmaSkip (k : Nat) : List DmaOp → State → State
  | [], s => s
  | d :: ds, s =>
    if d.len = 0 then dmaSkip k ds ((s.modSeq k (fun x => { x with dma := ds })).signal k d.cen d.e) else s

/-- The checks of a DMA, in their order (R251), each with the scalar registers it depends on. -/
def dmaChecks (s : State) (k : Nat) (dk sk : Bool) (dr sr lr : BitVec 5) : List (List Nat × (Bool × Exc)) :=
  let src := dmaEnd s k sk sr
  let dst := dmaEnd s k dk dr
  let n := (s.s k lr).toNat % 2 ^ 32
  let S := if sk then [] else [sr.toNat]
  let D := if dk then [] else [dr.toNat]
  [([], (decide ((sk ∧ 16 ≤ sr.toNat) ∨ (dk ∧ 16 ≤ dr.toNat)), exc E.SEQ_OPERAND 0)),
   (S, dmaAlign sk src), (D, dmaAlign dk dst),
   ([lr.toNat], (decide (n % 64 ≠ 0), exc (if sk || dk then E.SEQ_DEV_ALIGN else E.SEQ_TS_ALIGN) n)),
   (lr.toNat :: S, dmaRange s k sk src n false), (lr.toNat :: D, dmaRange s k dk dst n true)]

/-- DMA (R251): the transfer joins the sequencer's queue of eight. -/
def opDma (k : Nat) (dk sk : Bool) (dr sr lr : BitVec 5) (cen : Bool) (e : BitVec 3) : SlotOp :=
  { sR := [lr.toNat] ++ (if dk then [] else [dr.toNat]) ++ (if sk then [] else [sr.toNat])
    free := fun s => firstExc (((dmaChecks s k dk sk dr sr lr).filter (fun c => c.1.all (fun r => !s.awaits k r))).map Prod.snd)
    chk := fun s => firstExc ((dmaChecks s k dk sk dr sr lr).map Prod.snd)
    wait := fun s => if 8 ≤ (s.seq k).dma.length then 8 else 0
    eff := fun pre s =>
      let d : DmaOp := { srcDev := sk, dstDev := dk, src := dmaEnd pre k sk sr, dst := dmaEnd pre k dk dr,
                         len := (pre.s k lr).toNat % 2 ^ 32, cen := cen, e := e.toNat, started := false }
      let s := if dk then s.sampleLoads k d.dst d.len else s
      let q := (s.seq k).dma ++ [d]
      dmaSkip k q (s.modSeq k (fun x => { x with dma := q })) }

/-- The requests of a started transfer (R17). -/
def State.dmaSend (s : State) (k : Nat) (d : DmaOp) : State :=
  let x := ldOfDie (k / 4)
  let s := if d.srcDev then s.sendAll k 2 x d.src d.len else s
  if d.dstDev then s.sendAll k 2 x d.dst d.len else s

/-- Their acknowledgements. -/
def State.dmaAck (s : State) (k : Nat) (d : DmaOp) : State :=
  let x := ldOfDie (k / 4)
  let s := if d.srcDev then s.ackAll k 2 x d.src d.len else s
  if d.dstDev then s.ackAll k 2 x d.dst d.len else s

/-- DMA_START: the transfer at the front starts (R251). -/
def execDmaStart (die : Fin 24) (q : Fin 4) (s : State) : Result :=
  let k := 4 * die.val + q.val
  .next (match (s.seq k).dma with
    | [] => s
    | d :: ds =>
      let s := if d.started then s else s.dmaSend k d
      s.modSeq k (fun x => { x with dma := { d with started := true } :: ds }))

/-- One granule of a transfer (R251, R385, R565): a refused destination write is dropped and returns the uncorrectable indication; a refused
source makes the destination's units bad; otherwise the granule is copied with its errors. Each refused access is logged. -/
def State.dmaGranule (s : State) (k : Nat) (d : DmaOp) (src dst : Nat) : State :=
  let c := some (s.seqCtx k)
  let w := atLd (ldOfDie (k / 4))
  let no := fun (dev : Bool) a => if dev then s.unavailable a else none
  let t := match no d.srcDev src with
    | some e => s.raise e c w src
    | none => s.fixSoft src 64
  match no d.dstDev dst with
  | some e => (t.raise e c w dst).payloadBad k dst 64
  | none => if (no d.srcDev src).isSome then t.markAll ((List.range 64).map (fun i => (errUnit (dst + i)).1)) else t.copyGranule src dst

/-- The granules of a transfer, ascending. -/
def State.dmaGranules (k : Nat) (d : DmaOp) : Nat → State → Nat → Nat → State
  | 0, s, _, _ => s
  | i + 1, s, src, dst => State.dmaGranules k d i (s.dmaGranule k d src dst) (src + 64) (dst + 64)

/-- What a transfer leaves behind (R251, R385, R565): its granules, and the log of the errors that its reads met. -/
def State.dmaCopy (s : State) (k : Nat) (d : DmaOp) : State :=
  let src := endAddr (k / 4) d.srcDev d.src
  let dst := endAddr (k / 4) d.dstDev d.dst
  let bads := (s.readBad src d.len).filter (fun u => !d.srcDev || (s.unavailable u).isNone)
  bads.foldl (fun t u => t.noteBad (some (s.seqCtx k)) u) (State.dmaGranules k d (d.len / 64) s src dst)

/-- DMA_COMPLETE: the started transfer's last write is visible and its counter is signalled (R217, R251). -/
def execDmaComplete (die : Fin 24) (q : Fin 4) (s : State) : Result :=
  let k := 4 * die.val + q.val
  .next (match (s.seq k).dma with
    | [] => s
    | d :: ds =>
      if d.started then
        let s := (((s.dmaCopy k d).dmaAck k d).modSeq k (fun x => { x with dma := ds })).signal k d.cen d.e
        dmaSkip k ds s
      else s)

end Sys2Proof.Machine
end

