-- ==== Sys2Proof/Machine/Array.lean ====
section
/-! DEFINITION. Machine/Array.lean: the MAC arrays: targets and descriptors (R76, R235 to R242), rafts and quartering (R78 to R84), and
the passes, rows, updates, activity ramp and filler of a running instruction (R68 to R75, R93 to R97). -/

namespace Sys2Proof.Machine

/-! ## Rafts (R76) -/

/-- Members of the raft of size `sz` that sequencer `q` leads; its own arrays' first for size 1 is never asked. -/
def raftMembers (q sz : Nat) : List Nat :=
  match sz with
  | 2 => [2 * q, 2 * q + 1]
  | 4 => [4 * (q / 2), 4 * (q / 2) + 1, 4 * (q / 2) + 2, 4 * (q / 2) + 3]
  | 8 => [0, 1, 2, 3, 4, 5, 6, 7]
  | _ => []

/-- Depth-0 members in column order. -/
def raftDepth0 (q sz : Nat) : List Nat :=
  match sz with
  | 2 => [2 * q, 2 * q + 1]
  | 4 => [4 * (q / 2), 4 * (q / 2) + 1]
  | 8 => [0, 1, 4, 5]
  | _ => []

/-- The array whose queue holds a raft's instructions: the lead's first array. -/
def raftHome (q sz : Nat) : Nat :=
  match sz with
  | 4 => 4 * (q / 2)
  | 8 => 0
  | _ => 2 * q

/-- The sequencer that leads the raft holding array `a`, if one does. -/
def State.raftLead (s : State) (n a : Nat) : Option Nat :=
  (List.range 4).find? (fun q => (raftMembers q (s.raftOf n q)).contains a)

/-- The array that carries the level and the queue of array `a`: its own, or its raft's (R96). -/
def State.homeArr (s : State) (n a : Nat) : Nat :=
  match s.raftLead n a with
  | some q => raftHome q (s.raftOf n q)
  | none => a

/-- Members that admit with home array `a`. -/
def State.gang (s : State) (n a : Nat) : List Nat :=
  match s.raftLead n a with
  | some q => raftMembers q (s.raftOf n q)
  | none => [a]

/-! ## Level limit (R95, R499, R501) -/

/-- Level cap of the thermal limit of a die. -/
def thermalCap (v : Nat) : Nat := match v with | 0 => 8 | 1 => 6 | 2 => 4 | _ => 0

/-- The level limit of a die: the smallest of the ceiling, the thermal limit of the die and that of a hot HBM stack of its landing
die (R499, R501, R502); 0 in the error state (R538). -/
def State.levelLimit (s : State) (n : Nat) : Nat :=
  if s.flag R.RAS_STAT.fatal then 0
  else min (min (s.get R.PWR_STAT.ceiling) (thermalCap (s.get (R.THM_CD.limit n))))
    (if (List.range 6).any (fun i => KMap.find (fun _ => false) s.hbmHot (6 * ldOfDie n + i)) then 4 else 8)

/-- True when a unit that follows its die's level limit may admit in this ac (R499); units 2n + v are the glaze units,
48 + n the sap lines. -/
def State.unitMay (s : State) (n u : Nat) : Bool :=
  let lim := s.levelLimit n
  let since := KMap.find (fun _ => 0) s.limitAt n
  let p := KMap.find (fun _ => (0, 0)) s.unitAdm u
  let adm := if p.1 = since then p.2 else 0
  decide (lim = 8) || decide (adm + 1 ≤ lim * (s.now - since + 1) / 8)

/-- The admission counted. -/
def State.unitAdmit (s : State) (n u : Nat) : State :=
  let since := KMap.find (fun _ => 0) s.limitAt n
  let p := KMap.find (fun _ => (0, 0)) s.unitAdm u
  { s with unitAdm := KMap.put (fun _ => (0, 0)) s.unitAdm u (since, (if p.1 = since then p.2 else 0) + 1) }

/-! ## Descriptors (R236 to R238) -/

/-- One operand block from its 24 bytes. -/
def opBlkOf (b : List Byte) : OpBlk :=
  let w := fun i => leNat ((b.drop (4 * i)).take 4)
  { addr := w 0 % 2 ^ 26, stride := w 1 % 2 ^ 24, scale := w 2 % 2 ^ 26, sstride := w 3 % 2 ^ 24, exp := w 4 % 2 ^ 26 }

/-- True when a reserved bit of an operand block is set. -/
def opBlkRsv (b : List Byte) : Bool :=
  let w := fun i => leNat ((b.drop (4 * i)).take 4)
  decide (2 ^ 26 ≤ w 0 ∨ 2 ^ 24 ≤ w 1 ∨ 2 ^ 26 ≤ w 2 ∨ 2 ^ 24 ≤ w 3 ∨ 2 ^ 26 ≤ w 4 ∨ w 5 ≠ 0)

/-- The product descriptor (R236). -/
structure ProdDesc where
  bad : Bool
  M   : Nat
  N   : Nat
  K   : Nat
  a   : OpBlk
  b   : OpBlk
deriving DecidableEq, Repr

/-- The descriptor from its 64 bytes; `bad` is a version not 1 or a reserved bit set (MMA_DESC). -/
def prodDescOf (d : List Byte) : ProdDesc :=
  let f := fun i n => leNat ((d.drop i).take n)
  { bad := decide (f 0 1 ≠ 1 ∨ f 1 1 ≠ 0 ∨ 512 ≤ f 2 2 ∨ 1024 ≤ f 4 2 ∨ f 6 2 ≠ 0 ∨ f 12 4 ≠ 0)
             || opBlkRsv ((d.drop 16).take 24) || opBlkRsv (d.drop 40)
    M := f 2 2 % 512, N := f 4 2 % 1024, K := f 8 4, a := opBlkOf ((d.drop 16).take 24), b := opBlkOf (d.drop 40) }

/-- The expansion descriptor at a tile-store offset, when the format has one. -/
def State.expOf (s : State) (n f exp : Nat) : Option ExpDesc :=
  if fmtExpands f then some (expDescOf (s.ts n exp 32)) else none

/-- Address and bad-word checks of a 64-byte descriptor (R109, R238). -/
def descAddr (s : State) (n o : Nat) : List (Bool × Exc) :=
  [(decide (o % 64 ≠ 0), exc E.SEQ_TS_ALIGN o), (decide (tileBytes < o + 64), exc E.SEQ_TS_RANGE o),
   s.tsEcc n o 64]

/-- Alignment and range of the expansion descriptors of some operands, each with its format and exp_addr: alignment before range (R238). -/
def expChecks (l : List (Nat × Nat)) : List (Bool × Exc) :=
  let l := l.filter (fun p => fmtExpands p.1)
  l.map (fun p => (decide (p.2 % 32 ≠ 0), exc E.SEQ_TS_ALIGN p.2)) ++ l.map (fun p => (decide (tileBytes < p.2 + 32), exc E.SEQ_TS_RANGE p.2))

/-- Their contents (R50, R109). -/
def expDescChecks (s : State) (n : Nat) (l : List (Nat × Nat)) : List (Bool × Exc) :=
  (l.filter (fun p => fmtExpands p.1)).flatMap (fun p =>
    [s.tsEcc n p.2 32, (expDescBad p.1 (s.ts n p.2 32), exc E.MMA_EXP_DESC p.2)])

/-- Ranges of the expansion descriptors. -/
def expSpans (l : List (Nat × Nat)) : List (Nat × Nat) := (l.filter (fun p => fmtExpands p.1)).map (fun p => (p.2, p.2 + 32))

/-- True when the last of `rows` rows of `len` bytes runs beyond the tile store. -/
def rowsBeyond (addr stride rows len : Nat) : Bool := decide (0 < rows ∧ 0 < len ∧ tileBytes < addr + (rows - 1) * stride + len)

/-- Alignment of one operand (R237). -/
def operandAlign (f : Nat) (o : OpBlk) : List (Bool × Exc) :=
  [(decide (o.addr % 16 ≠ 0 ∨ o.stride % 16 ≠ 0), exc E.SEQ_TS_ALIGN o.addr),
   (fmtBlock f && decide (o.scale % 4 ≠ 0 ∨ o.sstride % 4 ≠ 0), exc E.SEQ_TS_ALIGN o.scale)]

/-- Range of one operand (R237); that of an instruction with M, N or K of 0, which reads no byte, is checked like any other (DESIGN CHOICE, log
entry 148). -/
def operandRange (f : Nat) (x : Option ExpDesc) (o : OpBlk) (rows K : Nat) : List (Bool × Exc) :=
  let nb := ceilDiv K 32
  [(rowsBeyond o.addr o.stride rows (nb * blockBytes (elemBits f x)), exc E.SEQ_TS_RANGE o.addr),
   (fmtBlock f && rowsBeyond o.scale o.sstride rows nb, exc E.SEQ_TS_RANGE o.scale)]

/-! ## Targets (R239) -/

/-- Where an array instruction of sequencer `k` goes: its home array, raft size and quadrant. -/
structure Target where
  home : Nat
  raft : Nat
  quad : Option Nat
deriving DecidableEq, Repr

/-- R239. -/
def State.target (s : State) (k t : Nat) (quad : Option Nat) : Target :=
  let n := k / 4
  let q := k % 4
  let sz := s.raftOf n q
  if 1 < sz then ⟨raftHome q sz, sz, quad⟩ else ⟨2 * q + t / 16, 1, quad⟩

/-- The errors of R239, in the order of R238's row. -/
def State.targetChecks (s : State) (k t : Nat) (quad : Option Nat) : List (Bool × Exc) :=
  let n := k / 4
  let q := k % 4
  let a := 2 * q + t / 16
  if 1 < s.raftOf n q then [(quad.isSome, exc E.MMA_QTR_MODE a)]
  else
    [(!s.works n a, exc E.MMA_ARRAY_OFF a), ((s.raftLead n a).isSome, exc E.MMA_RAFT_BUSY a),
     ((s.arr n a).quartered != quad.isSome, exc E.MMA_QTR_MODE a)]

/-- Largest N of a target (R76, R82). -/
def maxN (t : Target) : Nat := match t.quad with
  | some _ => 64
  | none => match t.raft with | 1 => 128 | 8 => 512 | _ => 256

/-- MMA_SHAPE (R99, R238, R239). -/
def shapeBad (t : Target) (d : ProdDesc) (tr : Nat) : Bool :=
  decide (maxN t < d.N) || decide ((if t.quad.isSome then 64 else 128) < d.M) || (decide (1 < t.raft) && decide (16 ≤ tr))

/-- Keys of the tile-register quarters that hold the columns below `N` of an array instruction (R75, R76): (array × 16 + register) × 4 +
quarter. -/
def writtenRegs (t : Target) (q tr N : Nat) : List Nat :=
  let keys := fun a n => (if n ≤ 64 then [0, 2] else [0, 1, 2, 3]).map (fun i => (a * 16 + tr % 16) * 4 + i)
  match t.quad with
  | some i => [(t.home * 16 + tr % 16) * 4 + i]
  | none =>
    if t.raft = 1 then keys t.home N
    else ((raftDepth0 q t.raft).zipIdx.filter (fun p => decide (128 * p.2 < N))).flatMap (fun p => keys p.1 (N - 128 * p.2))

/-- Tile-register keys that chains of a die have not finished with (R75). -/
def State.chainRegs (s : State) (n : Nat) : List Nat :=
  (List.range 2).flatMap (fun v => (s.glz n v).queue ++ (s.glz n v).run |>.flatMap (fun i => match i with
    | .table _ => []
    | .chain c => c.held (c.seq % 4)))

/-- True when an unquartered instruction has no update left to make in rows 0 to 63: the last pass has gone past them and none of them is in
flight. -/
def ArrOp.upperDone (o : ArrOp) : Bool := decide (o.passes ≤ o.pass ∧ min 64 o.M ≤ o.row) && o.flight.all (fun f => decide (64 ≤ f.m))

/-- Keys that array instructions of a die have still to update (R75): no update goes into the lower quarters when M is at most 64, and none into
the upper ones once their rows are done (R102). -/
def State.arrayRegs (s : State) (n : Nat) : List Nat :=
  (List.range 8).flatMap (fun a => (s.arr n a).ops.flatMap (fun o =>
    (writtenRegs ⟨a, o.raft, o.quad⟩ (o.seq % 4) o.t o.N).filter (fun r =>
      o.quad.isSome || (if r % 4 < 2 then !o.upperDone else decide (64 < o.M)))))

/-- Offset that a descriptor operand names. -/
def descOff (s : State) (k : Nat) (sd : BitVec 5) : Nat := (s.s k sd).toNat % 2 ^ 26

/-- An instruction issued while the array falls (R94): the level is held for g/8 ac and rises again. -/
def Arr.resume (x : Arr) (g : Nat) : Arr :=
  if x.mode = .falling then
    { x with mode := .rising, acLvl := 0, sum8 := 0, adm := 0, filling := false, g := g }
  else x

/-- Single-bit errors of the expansion descriptors read (R109). -/
def State.fixExp (s : State) (n : Nat) (l : List (Nat × Nat)) : State :=
  (expSpans l).foldl (fun s r => s.fixSoft (tileBase n + r.1) 32) s

/-- The wait of an instruction for the bytes of its descriptor, and for those of what the descriptor names, which earlier accesses of its
sequencer have still to write (R107, R238); none for a descriptor out of place, which is not read. -/
def State.descWait (s : State) (k o len : Nat) (more : List (Nat × Nat)) : Nat :=
  if o % 64 ≠ 0 ∨ tileBytes < o + len then 0
  else if s.tsWait k [(o, o + len)] [] ≠ 0 then 6
  else s.tsWait k more []

/-- The checks of a product descriptor up to the addresses of its expansion descriptors (R238). -/
def mmaFields (o A B : Nat) (d : ProdDesc) : List (Bool × Exc) :=
  [(d.bad, exc E.MMA_DESC o), (decide (12 ≤ A ∨ 12 ≤ B), exc E.MMA_FMT_CODE (16 * A + B)),
   ((pairClass A B).isNone, exc E.MMA_FMT_PAIR (16 * A + B))] ++ expChecks [(A, d.a.exp), (B, d.b.exp)]

/-- What the checks of a product read: the descriptor, and the expansion descriptors it names once its fields are good (R238). -/
def descReads (s : State) (n o : Nat) (fields : List (Bool × Exc)) (exps : List (Nat × Nat)) : List (Nat × Nat) :=
  if o % 64 ≠ 0 ∨ tileBytes < o + 64 then []
  else (o, 64) :: (if (firstExc (descAddr s n o ++ fields)).isSome then [] else (expSpans exps).map (fun r => (r.1, 32)))

/-- MMA and MMA.Q (R238 to R240). -/
def opMmaAny (k : Nat) (fa fb : BitVec 4) (t : BitVec 5) (init : Bool) (sd : BitVec 5) (quad : Option Nat) : SlotOp :=
  let n := k / 4
  let A := fa.toNat
  let B := fb.toNat
  let desc := fun s => prodDescOf (s.ts n (descOff s k sd) 64)
  { slots := [1], sR := [sd.toNat], desc := true
    tW := fun s => let d := desc s
      if d.M = 0 ∨ d.N = 0 ∨ d.K = 0 then [] else writtenRegs (s.target k t.toNat quad) (k % 4) t.toNat d.N
    reads := fun s => let d := desc s
      let o := descOff s k sd
      descReads s n o (mmaFields o A B d) [(A, d.a.exp), (B, d.b.exp)]
    free := fun s => firstExc (s.targetChecks k t.toNat quad)
    chk := fun s =>
      let d := desc s
      let o := descOff s k sd
      (firstExc (descAddr s n o)).orElse (fun _ => (firstExc (mmaFields o A B d)).orElse (fun _ =>
      firstExc (expDescChecks s n [(A, d.a.exp), (B, d.b.exp)] ++ operandAlign A d.a ++ operandAlign B d.b
        ++ operandRange A (s.expOf n A d.a.exp) d.a d.M d.K ++ operandRange B (s.expOf n B d.b.exp) d.b d.N d.K
        ++ s.targetChecks k t.toNat quad ++ [(shapeBad (s.target k t.toNat quad) d t.toNat, exc E.MMA_SHAPE d.N)])))
    wait := fun s =>
      let d := desc s
      let o := descOff s k sd
      s.descWait k o 64 (if (firstExc (descAddr s n o ++ mmaFields o A B d)).isSome then [] else expSpans [(A, d.a.exp), (B, d.b.exp)])
    hold := fun s =>
      let d := desc s
      if d.M = 0 ∨ d.N = 0 ∨ d.K = 0 then 0
      else if (writtenRegs (s.target k t.toNat quad) (k % 4) t.toNat d.N).any (fun r => (s.chainRegs n).contains r) then 5
      else 0
    eff := fun pre s =>
      let d := desc pre
      let tg := s.target k t.toNat quad
      if d.M = 0 ∨ d.N = 0 ∨ d.K = 0 then s
      else
        let o : ArrOp := { seq := k, ino := (s.seq k).ino, raft := tg.raft, quad := quad, fa := A, fb := B, t := t.toNat, M := d.M, N := d.N, K := d.K,
                           init := init, a := d.a, b := d.b, xa := pre.expOf n A d.a.exp, xb := pre.expOf n B d.b.exp,
                           loaded := 0, pass := 0, row := 0, chunks := [], flight := [] }
        let x := s.arr n tg.home
        let x := { x with ops := x.ops ++ [o] }
        let s := ((s.nextIno k).fixSoft (tileBase n + descOff pre k sd) 64).fixExp n [(A, d.a.exp), (B, d.b.exp)]
        s.setArr n tg.home (x.resume (s.get (R.MMA_CTL.ramp_len n))) }

/-- MMA (R239). -/
def opMma (k : Nat) (fa fb : BitVec 4) (t : BitVec 5) (init : Bool) (sd : BitVec 5) : SlotOp :=
  opMmaAny k fa fb t init sd none

/-- MMA.Q (R239). -/
def opMmaQ (k : Nat) (fa fb : BitVec 4) (t : BitVec 5) (init : Bool) (sd : BitVec 5) (quad : BitVec 2) : SlotOp :=
  opMmaAny k fa fb t init sd (some quad.toNat)

/-- Nothing queued or in flight in these arrays (R78, R83). -/
def State.quiet (s : State) (n : Nat) (l : List Nat) : Bool := l.all (fun a => (s.arr n a).ops.isEmpty)

/-- The members' level and state when a raft forms: the lowest level (R96). -/
def State.formRaft (s : State) (n q sz : Nat) : State :=
  let ms := raftMembers q sz
  let lv := ms.foldl (fun m a => min m (s.arr n a).level) 8
  let h := raftHome q sz
  let x := s.arr n h
  let s := s.setArr n h { x with level := lv, mode := if lv = 0 then .idle else .falling, acLvl := 0, sum8 := 0, adm := 0 }
  { s with raft := KMap.put (fun _ => 1) s.raft (4 * n + q) sz }

/-- Every member takes the raft's level and state (R96). -/
def State.dissolveRaft (s : State) (n q : Nat) : State :=
  let sz := s.raftOf n q
  let x := s.arr n (raftHome q sz)
  let s := (raftMembers q sz).foldl (fun s a => s.setArr n a { x with ops := (s.arr n a).ops, quartered := (s.arr n a).quartered }) s
  { s with raft := KMap.drop s.raft (4 * n + q) }

/-- RAFT.SET (R78, R241). -/
def opRaftSet (k : Nat) (size : BitVec 4) : SlotOp :=
  let n := k / 4
  let q := k % 4
  let sz := size.toNat
  let noop := fun (s : State) => decide (sz = s.raftOf n q)
  { slots := [1]
    chk := fun s =>
      let ms := raftMembers q sz
      firstExc [(decide (sz = 0), exc E.CFG_ZERO 0),
        (decide (sz ≠ 1 ∧ sz ≠ 2 ∧ sz ≠ 4 ∧ sz ≠ 8), exc E.MMA_RAFT_SHAPE sz),
        (decide ((sz = 4 ∧ q % 2 ≠ 0) ∨ (sz = 8 ∧ q ≠ 0)), exc E.MMA_RAFT_SHAPE sz),
        (ms.any (fun a => !s.works n a || (s.arr n a).quartered ||
          (match s.raftLead n a with
           | some p => decide (p ≠ q)
           | none => false)), exc E.MMA_RAFT_SHAPE sz),
        (decide (1 < s.raftOf n q ∧ sz ≠ 1 ∧ sz ≠ s.raftOf n q), exc E.MMA_RAFT_SHAPE sz)]
    wait := fun s =>
      if noop s then 0
      else if s.quiet n (raftMembers q (if sz = 1 then s.raftOf n q else sz)) then 0 else 5
    eff := fun _ s =>
      if noop s then s else if sz = 1 then s.dissolveRaft n q else s.formRaft n q sz }

/-- QTR.SET (R83, R241). On a raft member, which is unquartered, QTR.SET to the unquartered state is refused like the other: R83 says both
that it has no effect and that it is refused (DESIGN CHOICE, log entry 147). -/
def opQtrSet (k : Nat) (arr on : Bool) : SlotOp :=
  let n := k / 4
  let a := 2 * (k % 4) + b2n arr
  { slots := [1]
    chk := fun s => firstExc [(!s.works n a, exc E.MMA_ARRAY_OFF a), ((s.raftLead n a).isSome, exc E.MMA_QTR_MODE a)]
    wait := fun s => if (s.arr n a).quartered = on then 0 else if s.quiet n [a] then 0 else 5
    eff := fun _ s => let x := s.arr n a
      if x.quartered = on then s else s.setArr n a { x with quartered := on } }

/-! ## A running instruction (R68 to R75) -/

/-- Row cost c (R70). -/
def ArrOp.cost (o : ArrOp) : Nat := if pairClass o.fa o.fb = some .bf16 then 4 else 1

/-- The blocks of pass `p` that lie below ceil(K / 32) (R69). -/
def ArrOp.blocks (o : ArrOp) (p : Nat) : List Nat :=
  let b0 := p * o.depth / 32
  let b1 := min ((p + 1) * o.depth / 32) (ceilDiv o.K 32)
  (List.range (b1 - b0)).map (fun i => b0 + i)

/-- One block of an operand row read from the tile store of die `n`, with the count of its expansion saturations (R49,
R109, R237); elements of bad words are not expanded. -/
def State.readBlk (s : State) (n f : Nat) (x : Option ExpDesc) (row srow b : Nat) : Blk × Nat :=
  let w := elemBits f x
  let base := tileBase n + row + b * blockBytes w
  let v := s.le base (blockBytes w)
  let code := fun i => v / 2 ^ (w * i) % 2 ^ w
  let bad := !(s.badIn base (blockBytes w)).isEmpty || (fmtBlock f && s.isBad (tileBase n + srow + b))
  let okAt := fun i => !s.isBad (base + w * i / 8) && !s.isBad (base + (w * i + w - 1) / 8)
  let sc := if fmtBlock f then (s.byte (tileBase n + srow + b)).toNat else 127
  match x with
  | none => (⟨sc, (List.range 32).map (fun i => elemOf f (code i)), bad⟩, 0)
  | some d =>
    let es := (List.range 32).map (fun i => expandElem f d (code i))
    (⟨sc, es.map Prod.fst, bad⟩, ((List.range 32).filter (fun i => okAt i && (expandElem f d (code i)).2)).length)

/-- One operand row's blocks of a pass. -/
def State.readRow (s : State) (n f : Nat) (x : Option ExpDesc) (o : OpBlk) (r : Nat) (bs : List Nat) : List Blk × Nat :=
  let l := bs.map (fun b => s.readBlk n f x (o.addr + r * o.stride) (o.scale + r * o.sstride) b)
  (l.map Prod.fst, (l.map Prod.snd).sum)

/-- The bad words that reading a row's blocks meets are counted and logged (R109). -/
def State.noteRow (s : State) (k f : Nat) (x : Option ExpDesc) (o : OpBlk) (r : Nat) (bs : List Nat) : State :=
  let n := k / 4
  let w := blockBytes (elemBits f x)
  match bs with
  | [] => s
  | b :: _ =>
    let s := s.noteRead (some (s.seqCtx k)) (tileBase n + o.addr + r * o.stride + b * w) (bs.length * w)
    if fmtBlock f then s.noteRead (some (s.seqCtx k)) (tileBase n + o.scale + r * o.sstride + b) bs.length else s

/-- True when an instruction belongs to quadrant `quad` of its array, or to the whole of it. -/
def ArrOp.inQuad (o : ArrOp) (quad : Nat) : Bool := match o.quad with | some i => decide (i = quad) | none => true

/-- The instruction whose next chunk may load (R73, R74): the first with one left, once those ahead of it have begun their
last pass; a chunk waits until the pass before the one ahead of it has begun, as a PE holds two. -/
def nextLoad (quad : Nat) : List ArrOp → Option (List ArrOp × ArrOp × List ArrOp)
  | [] => none
  | o :: os =>
    if o.inQuad quad && decide (o.loaded < o.passes) then (if o.loaded ≤ o.pass then some ([], o, os) else none)
    else if o.inQuad quad && decide (o.pass < o.passes) then none
    else match nextLoad quad os with
      | none => none
      | some (pre, p, post) => some (o :: pre, p, post)

/-- The instruction whose rows come next: the first not wholly admitted. -/
def nextRows (quad : Nat) : List ArrOp → Option (List ArrOp × ArrOp × List ArrOp)
  | [] => none
  | o :: os =>
    if o.inQuad quad && !o.admitted then some ([], o, os)
    else match nextRows quad os with
      | none => none
      | some (pre, p, post) => some (o :: pre, p, post)

/-- A row of quadrant `quad` is ready: its pass may begin, or has begun with rows left (R73). -/
def Arr.rowReady (x : Arr) (quad : Nat) : Bool :=
  match nextRows quad x.ops with
  | none => false
  | some (_, o, _) => decide (0 < o.pass ∧ o.row < o.M) || o.chunks.any (fun c => decide (c.pass = o.pass))

/-- The next row of quadrant `quad` may be admitted in the ac `now`: its row bus is free (R70, R82). -/
def Arr.busFree (x : Arr) (quad now : Nat) : Bool := decide (KMap.find (fun _ => 0) x.quadNext quad ≤ now)

/-- The quadrants to look at: all four, or the array as a whole. -/
def Arr.quads (x : Arr) : List Nat := if x.quartered then [0, 1, 2, 3] else [0]

/-- Some row is ready. -/
def Arr.anyReady (x : Arr) : Bool := x.quads.any x.rowReady

/-- An idle array with a row ready rises from level 1, this ac the first at it (R93, R94); a halted one keeps its state (R95). -/
def Arr.rise (x : Arr) (g limit : Nat) : Arr :=
  if x.mode = .idle ∧ x.anyReady = true ∧ 0 < limit then
    { x with level := 1, mode := .rising, sum8 := 1, adm := 0, acLvl := 1, g := g, noRowAc := 0, filling := false }
  else x

/-- The parts of a chunk that the members of a target load, each with its array, its columns and its blocks (R68, R76, R77, R98): 128
columns to a depth-0 member, the upper half of the pass to the depth-1 member under it. -/
def ArrOp.loaders (o : ArrOp) (home p : Nat) : List (Nat × List Nat × List Nat) :=
  let bs := o.blocks p
  if o.raft = 1 then [(home, List.range o.N, bs)]
  else ((raftDepth0 (o.seq % 4) o.raft).zipIdx.filter (fun r => decide (128 * r.2 < o.N))).flatMap (fun r =>
    let cs := (List.range (min 128 (o.N - 128 * r.2))).map (fun i => 128 * r.2 + i)
    let low := fun b => decide (o.raft < 4 ∨ 32 * b < p * o.depth + o.depth / 2)
    [(r.1, cs, bs.filter low), (r.1 + 2, cs, bs.filter (fun b => !low b))])

/-- Expansion saturations of the elements that each member loads (R49, R98). -/
def State.countLoads (s : State) (n home : Nat) (o : ArrOp) : State :=
  (o.loaders home o.loaded).foldl (fun t m =>
    let k := (m.2.1.map (fun j => (s.readRow n o.fb o.xb o.b j m.2.2).2)).sum
    if k = 0 then t else t.count (R.MMA_EXPSAT.count n m.1) k) s

/-- B_CHUNK_LOADED (R68, R73, R74): the next chunk is held by the PEs. -/
def execBChunkLoaded (die : Fin 24) (arr : Fin 8) (quad : Fin 4) (s : State) : Result :=
  let n := die.val
  let h := s.homeArr n arr.val
  let x := s.arr n h
  .next (match nextLoad quad.val x.ops with
    | none => s
    | some (pre, o, post) =>
      if s.tsFree o.seq o.ino (o.b.spans o.fb o.xb o.N o.K) [] = false then s else
      let bs := o.blocks o.loaded
      let cols := (List.range o.N).map (fun j => (s.readRow n o.fb o.xb o.b j bs).1)
      let c : Chunk := { pass := o.loaded, cols := cols }
      let s := s.countLoads n h o
      let s := (List.range o.N).foldl (fun s j => s.noteRow o.seq o.fb o.xb o.b j bs) s
      let x := { x with ops := pre ++ { o with loaded := o.loaded + 1, chunks := o.chunks ++ [c] } :: post }
      s.setArr n h (x.rise (s.get (R.MMA_CTL.ramp_len n)) (s.levelLimit n)))

/-- PASS_BEGIN (R73): the chunk is loaded and the previous pass's last row has been admitted. -/
def execPassBegin (die : Fin 24) (arr : Fin 8) (quad : Fin 4) (s : State) : Result :=
  let n := die.val
  let h := s.homeArr n arr.val
  let x := s.arr n h
  .next (match nextRows quad.val x.ops with
    | none => s
    | some (pre, o, post) =>
      if decide (o.pass < o.passes ∧ (o.pass = 0 ∨ o.row = o.M)) && o.chunks.any (fun c => decide (c.pass = o.pass)) then
        let cs := o.chunks.filter (fun c => decide (o.pass ≤ c.pass))
        s.setArr n h { x with ops := pre ++ { o with pass := o.pass + 1, row := 0, chunks := cs } :: post }
      else s)

/-- True while the clocks of the compute dies run: they are gated once Proof is entered (R491, R494). -/
def State.clocked (s : State) : Bool := decide (s.get R.PWR_STAT.rung = 0)

/-- An admission is allowed in this ac (R93, R95): below the level's count, none made in it yet, not halted, clocks running. -/
def State.mayAdmit (s : State) (n : Nat) (x : Arr) : Bool :=
  s.clocked && decide (x.mode ≠ .idle ∧ 0 < s.levelLimit n ∧ x.nextAdmit ≤ s.now) &&
  (decide (x.mode = .full ∧ s.levelLimit n = 8) || decide (x.adm + 1 ≤ x.sum8 / 8))

/-- One row of one instruction admitted: its products are formed with the held chunk (R68, R72). -/
def State.admitRow (s : State) (n : Nat) (o : ArrOp) : ArrOp × Nat :=
  let bs := o.blocks (o.pass - 1)
  let a := s.readRow n o.fa o.xa o.a o.row bs
  let cols := match o.chunks.find? (fun c => decide (c.pass = o.pass - 1)) with
    | some c => c.cols
    | none => []
  let vals := cols.map (fun col => List.zipWith (blockValue o.fa o.fb) a.1 col)
  ({ o with row := o.row + 1, flight := o.flight ++ [⟨o.row, o.pass, vals⟩] }, a.2)

/-- Rows left to admit in an instruction (R94). -/
def ArrOp.rowsLeft (o : ArrOp) : Nat := (o.passes - o.pass) * o.M + (if o.pass = 0 then 0 else o.M - o.row)

/-- A full array whose stream ends begins to fall (R94, R96), after an admission or once it is full: nothing queued behind, and no quadrant
has more than 9g/16 rows left. -/
def Arr.maybeFall (x : Arr) (g : Nat) : Arr :=
  let live := x.ops.filter (fun o => !o.admitted)
  let alone := x.quads.all (fun q => decide ((live.filter (fun o => o.inQuad q)).length ≤ 1))
  if decide (x.mode = .full) && alone && live.all (fun o => decide (16 * o.rowsLeft ≤ 9 * g)) then
    { x with mode := .falling, sum8 := 0, adm := 0, acLvl := 0, g := g }
  else x

/-- The next row of a quadrant can be admitted now: its pass has begun, its row bus is free and its reads follow earlier writes (R70, R73,
R107). -/
def State.canAdmit (s : State) (x : Arr) (q : Nat) : Bool :=
  match nextRows q x.ops with
  | some (_, o, _) => decide (0 < o.pass ∧ o.row < o.M) && x.busFree q s.now && s.tsFree o.seq o.ino (o.a.spans o.fa o.xa o.M o.K) []
  | none => false

/-- The next row of a quadrant admitted at home array `h` (R68, R82, R98). -/
def State.admitQuad (n h : Nat) (p : State × Arr) (q : Nat) : State × Arr :=
  if p.1.canAdmit p.2 q then
    match nextRows q p.2.ops with
    | some (pre, o, post) =>
      let a := p.1.admitRow n o
      let s := p.1.noteRow o.seq o.fa o.xa o.a o.row (o.blocks (o.pass - 1))
      (s.count (R.MMA_EXPSAT.count n h) a.2,
        { p.2 with ops := pre ++ a.1 :: post, quadNext := KMap.put (fun _ => 0) p.2.quadNext q (s.now + o.cost) })
    | none => p
  else p

/-- OPERAND_ROW_ADMIT (R93, R96): every quadrant with a row ready admits one; the ac counts once, in every member of a
raft. -/
def execOperandRowAdmit (die : Fin 24) (arr : Fin 8) (s : State) : Result :=
  let n := die.val
  let h := s.homeArr n arr.val
  let x := s.arr n h
  .next (if s.mayAdmit n x && x.quads.any (s.canAdmit x) then
      let r := x.quads.foldl (State.admitQuad n h) (s, x)
      let s := (s.gang n h).foldl (fun s a => s.count (R.MMA_ACT.count n a) 1) r.1
      let y := { r.2 with adm := x.adm + 1, nextAdmit := s.now + 1, noRowAc := 0 }
      s.setArr n h (y.maybeFall (s.get (R.MMA_CTL.ramp_len n)))
    else s)

/-- Columns of an accumulator row: the first tile-register column of the target (R76, R81). -/
def ArrOp.accAt (o : ArrOp) (n m : Nat) (home : Nat) : List (Nat × Nat × Nat × Nat × Nat) :=
  match o.quad with
  | some i => [(n, home, m + 64 * (i / 2), 64 * (i % 2), o.N)]
  | none =>
    if o.raft = 1 then [(n, home, m, 0, o.N)]
    else ((raftDepth0 (o.seq % 4) o.raft).zipIdx.filter (fun p => decide (128 * p.2 < o.N))).map (fun p =>
      (n, p.1, m, 0, min 128 (o.N - 128 * p.2)))

/-- A row's accumulators written: each element chained over its blocks (R54, R72). -/
def State.updateRow (s : State) (n home : Nat) (o : ArrOp) (f : FlightRow) : State :=
  let parts := o.accAt n f.m home
  (parts.foldl (fun (p : State × List (List Num)) t =>
    let vs := p.2.take t.2.2.2.2
    let c := some (p.1.seqCtx o.seq)
    let s := if f.pass = 1 ∧ o.init = false then p.1 else p.1.noteTileRow c n t.2.1 (o.t % 16) t.2.2.1 t.2.2.2.1 (t.2.2.2.1 + vs.length)
    let row := vs.zipIdx.map (fun v =>
      let acc := if f.pass = 1 ∧ o.init = false then (0 : F32) else p.1.tile n t.2.1 (o.t % 16) t.2.2.1 (t.2.2.2.1 + v.2)
      accChain acc v.1)
    (s.putTileRow c n t.2.1 (o.t % 16) t.2.2.1 t.2.2.2.1 row, p.2.drop t.2.2.2.2)) (s, f.vals)).1

/-- The instruction of a quadrant with rows in flight. -/
def nextUpdate (quad : Nat) : List ArrOp → Option (List ArrOp × ArrOp × List ArrOp)
  | [] => none
  | o :: os =>
    if o.inQuad quad && !o.flight.isEmpty then some ([], o, os)
    else match nextUpdate quad os with
      | none => none
      | some (pre, p, post) => some (o :: pre, p, post)

/-- ACCUMULATOR_UPDATE (R72, R75): the oldest admitted row is written; an instruction whose last row is written is
complete. -/
def execAccumulatorUpdate (die : Fin 24) (arr : Fin 8) (quad : Fin 4) (s : State) : Result :=
  let n := die.val
  let h := s.homeArr n arr.val
  let x := s.arr n h
  .next (match nextUpdate quad.val x.ops with
    | none => s
    | some (pre, o, post) =>
      match o.flight with
      | [] => s
      | f :: fs =>
        let s := s.updateRow n h o f
        let o := { o with flight := fs }
        s.setArr n h { x with ops := pre ++ (if o.admitted && fs.isEmpty then post else o :: post) })

/-- The next level of an array that has been g/8 ac at its own (R94): a rise stops below the level limit (R95, R499; log entry 105). -/
def Arr.stepLevel (x : Arr) (g limit : Nat) : Arr :=
  if limit = 0 ∨ x.acLvl < x.g / 8 then x
  else match x.mode with
    | .rising =>
      if 8 ≤ x.level then Arr.maybeFall { x with acLvl := 0, mode := .full } g
      else if limit ≤ x.level then x
      else Arr.maybeFall { x with level := x.level + 1, acLvl := 0, mode := if 8 ≤ x.level + 1 then .full else .rising } g
    | .falling => Arr.rise { x with level := x.level - 1, acLvl := 0, mode := if x.level ≤ 1 then .idle else .falling } g limit
    | _ => x

/-- ACTIVITY_LEVEL_STEP (R94, R96); nothing while clocks are gated (R494). -/
def execActivityLevelStep (die : Fin 24) (arr : Fin 8) (s : State) : Result :=
  let n := die.val
  let h := s.homeArr n arr.val
  .next (if s.clocked then s.setArr n h ((s.arr n h).stepLevel (s.get (R.MMA_CTL.ramp_len n)) (s.levelLimit n)) else s)

/-- FILLER_OPERATION (R97): with filler enabled, an array that is neither idle nor halted and has no row ready admits a
filler operation at its level. -/
def execFillerOperation (die : Fin 24) (arr : Fin 8) (s : State) : Result :=
  let n := die.val
  let h := s.homeArr n arr.val
  let x := s.arr n h
  .next (if s.flag (R.MMA_CTL.filler_en n) && !x.anyReady && s.mayAdmit n x then
      let s := (s.gang n h).foldl (fun s a => s.count (R.MMA_FILL.count n a) 1) s
      s.setArr n h { x with adm := x.adm + 1, nextAdmit := s.now + 1 }
    else s)

/-- FILLER_IDLE_TIMEOUT (R97): after 256 ac with no real row ready the array falls to idle on filler. -/
def execFillerIdleTimeout (die : Fin 24) (arr : Fin 8) (s : State) : Result :=
  let n := die.val
  let h := s.homeArr n arr.val
  let x := s.arr n h
  .next (if s.clocked && s.flag (R.MMA_CTL.filler_en n) && decide (256 ≤ x.noRowAc ∧ (x.mode = .rising ∨ x.mode = .full)) then
      s.setArr n h { x with mode := .falling, filling := true, sum8 := 0, adm := 0, acLvl := 0,
                            g := s.get (R.MMA_CTL.ramp_len n) }
    else s)

/-- One ac of the ramp of an array (R93, R94, R97): a level that is over gives way to the next, and the ac counts at the current level; a
halted array keeps its state (R95). An array that rises in this ac has counted it (`Arr.rise`). -/
def State.tickArr (s : State) (n a : Nat) : State :=
  let lim := s.levelLimit n
  let x := (s.arr n a).rise (s.get (R.MMA_CTL.ramp_len n)) lim
  if lim = 0 ∨ x.mode = .idle ∨ s.homeArr n a ≠ a ∨ s.clocked = false then s
  else
    let y := if (s.arr n a).mode = .idle then x else x.stepLevel (s.get (R.MMA_CTL.ramp_len n)) lim
    let fresh := decide ((s.arr n a).mode = .idle ∨ (x.mode = .falling ∧ y.mode = .rising))
    s.setArr n a (if fresh then y else
      { y with sum8 := y.sum8 + min y.level lim, acLvl := y.acLvl + 1, noRowAc := if y.anyReady then 0 else y.noRowAc + 1 })

end Sys2Proof.Machine
end

