-- ==== Sys2Proof/Machine/Fatal.lean ====
section
/-! DEFINITION. Machine/Fatal.lean: what a change of the level limits restarts (R499), and the fatal error (R538, R542). -/

namespace Sys2Proof.Machine

/-- The running counts of the dies whose level limit differs from that of `old` restart (R499). -/
def State.relimit (s old : State) : State :=
  (List.range 24).foldl (fun (s : State) n =>
    if s.levelLimit n = old.levelLimit n then s else { s with limitAt := KMap.put (fun _ => 0) s.limitAt n s.now }) s

/-- A fatal error other than SEC_SEALED (R538). A second one is logged; with a sample held none is written (R542). -/
def State.fatal (s : State) (code : Nat) (w : Where) (detail : Nat) : State :=
  let old := s
  let s := s.raise code none w detail
  if s.flag R.RAS_STAT.fatal then s
  else
    let gone := (List.range 2).filter (fun h => s.halfInReset h || (decide (h = 1) && s.spnLost 2 && s.spnLost 3))
    let s := s.puts [(R.RAS_STAT.fatal, 1), (R.RAS_STAT.code, code), (R.HOST_STAT.error, 1), (R.MOD_ALERT.fatal, 1)]
    let s := (List.range 64).foldl (fun s c => if s.get (R.CTX_STATE.state c) = 0 then s else s.ctxEvent c 3) s
    let s := (List.range 24).foldl (fun s k => s.skwCtrl k .down []) s
    let s := if s.flag R.RAS_STAT.valid then s.count R.RAS_STAT.supp 1
             else { s with sample := some { code := code, tick := s.tick 0, gone := gone } }
    s.relimit old

end Sys2Proof.Machine
end

