-- ==== Sys2Proof/Machine/Version.lean ====
section
/-! DEFINITION. Machine/Version.lean: the version tables (R168 to R193), their instructions (R175, R254), the register commands
on them, and the variant instructions (R256). The table of sequencer k = 4n + q has local index l = k. -/

namespace Sys2Proof.Machine

/-- Slot states as VER_SLOT.state numbers them (R193). -/
def verFREE : Nat := 0
/-- R193. -/
def verBUILDING : Nat := 1
/-- R193. -/
def verLIVE : Nat := 2
/-- R193. -/
def verDRAINING : Nat := 3

/-- State of a slot. -/
def State.vst (s : State) (l i : Nat) : Nat := s.get (R.VER_SLOT.state l i)

/-- Generation of a slot. -/
def State.vgen (s : State) (l i : Nat) : Nat := s.get (R.VER_SLOT.gen l i)

/-- Reference count of a slot. -/
def State.vcount (s : State) (l i : Nat) : Nat := s.get (R.VER_SLOT.count l i)

/-- The slot whose generation is `g`, among those not FREE; generation 0 is held by none (R169, R172). -/
def State.vfind (s : State) (l g : Nat) : Option Nat :=
  if g = 0 then none
  else (List.range 4).find? (fun i => decide (s.vst l i ≠ verFREE ∧ s.vgen l i = g))

/-- A slot becomes BUILDING under generation `g` with count 0; top becomes `g` (R175, R188). Its next_gen returns to 0, of which R191 says nothing
(DESIGN CHOICE, log entry 115). -/
def State.vbuild (s : State) (l i g : Nat) : State :=
  s.puts [(R.VER_SLOT.state l i, verBUILDING), (R.VER_SLOT.gen l i, g), (R.VER_SLOT.count l i, 0),
          (R.VER_SLOT.refill l i, 0), (R.VER_SLOT.next_gen l i, 0), (R.VER_HDR.top l, g)]

/-- A refill slot with count 0 becomes BUILDING and the foreman is notified (R188, R191). -/
def State.vrefill (s : State) (l i g : Nat) : State :=
  let s := s.vbuild l i g
  { s with refill := KMap.put (fun _ => 0) s.refill (4 * l + i) 1 }

/-- One pin less; a DRAINING slot that reaches 0 is freed or refilled (R186, R188, R191). -/
def State.vunpin (s : State) (l i : Nat) : State :=
  let c := s.vcount l i - 1
  let s := s.put (R.VER_SLOT.count l i) c
  if c = 0 ∧ s.vst l i = verDRAINING then
    if s.flag (R.VER_SLOT.refill l i) then s.vrefill l i (s.get (R.VER_SLOT.next_gen l i))
    else s.put (R.VER_SLOT.state l i) verFREE
  else s

/-- A LIVE slot left behind by a switch (R185). -/
def State.vdrain (s : State) (l i : Nat) : State :=
  s.put (R.VER_SLOT.state l i) (if s.vcount l i = 0 then verFREE else verDRAINING)

/-- The newest LIVE slot older than `g` (R188). -/
def State.vnewest (s : State) (l g : Nat) : Option Nat :=
  (List.range 4).foldl (fun b i =>
    if decide (s.vst l i = verLIVE ∧ s.vgen l i < g) && (match b with
        | none => true
        | some j => decide (s.vgen l j < s.vgen l i))
    then some i else b) none

/-- A switch to `g` (R185, R188): older LIVE slots drain; with no slot holding `g`, the newest of them is refilled. -/
def State.vswitch (s : State) (l g : Nat) : State :=
  let holds := (List.range 4).any (fun i => decide ((s.vst l i = verLIVE ∨ s.vst l i = verBUILDING) ∧ s.vgen l i = g))
  let keep := if holds then none else s.vnewest l g
  let s := (List.range 4).foldl (fun s i =>
    if s.vst l i = verLIVE ∧ s.vgen l i < g ∧ keep ≠ some i then s.vdrain l i else s) s
  match keep with
  | none => s
  | some i =>
    if s.vcount l i = 0 then s.vrefill l i g
    else s.puts [(R.VER_SLOT.state l i, verDRAINING), (R.VER_SLOT.refill l i, 1), (R.VER_SLOT.next_gen l i, g)]

/-- The LIVE slot that holds the admit generation in force. -/
def State.admitSlot (s : State) (l : Nat) : Option Nat :=
  match s.vfind l (s.get (R.VER_CUR.gen l)) with
  | some i => if s.vst l i = verLIVE then some i else none
  | none => none

/-- The pending pointer comes into force (R184, R189): the older slots drain or one is refilled, and a barrier pointer holds admission until
a LIVE slot holds its generation. -/
def State.pointerIn (s : State) (l : Nat) : State :=
  let g := s.get (R.VER_ADMIT.gen l)
  let bar := s.flag (R.VER_ADMIT.barrier l)
  let s := s.puts [(R.VER_CUR.gen l, g), (R.VER_ADMIT.pend l, 0)]
  let s := s.vswitch l g
  if bar && (s.admitSlot l).isNone then s.put (R.VER_HDR.bar_hold l) 1 else s

/-- BATCH_CLOSE (R183, R184). -/
def State.batchClose (s : State) (l : Nat) : State :=
  let s := s.put (R.VER_CUR.group l) (s.get (R.VER_CUR.group l) + 1)
  if s.flag (R.VER_ADMIT.pend l) then s.pointerIn l else s

/-- DEDUCED (log entry 44): with no generation in force there is no group whose close could bring a pointer into force, so a pending one comes
into force at the VER.ADMIT that meets it, the group id unchanged. -/
def State.admitStart (s : State) (l : Nat) : State :=
  if s.flag (R.VER_ADMIT.pend l) && decide (s.get (R.VER_CUR.gen l) = 0) then s.pointerIn l else s

/-- The run-ahead gate holds: all four slots LIVE or DRAINING (R180). -/
def State.gateHeld (s : State) (l : Nat) : Bool :=
  (List.range 4).all (fun i => decide (s.vst l i = verLIVE ∨ s.vst l i = verDRAINING))

/-- A failed resolution (R174): poison in the held record, the counter, VER_LOG and the log; the code follows the cause. -/
def State.verFail (s : State) (k : Nat) (f : Option Nat) (g mb cause : Nat) : State :=
  let s := match f with
    | none => s
    | some f =>
      let x := s.flume f
      let recs := modFirst (fun r => r.held && decide (r.holder = k)) (fun r => { r with hdr := { r.hdr with poison := true } }) x.recs
      s.setFlume f { x with recs := recs }
  let s := if cause = 2 then s.count (R.VER_CNT.stale k) 1 else s.count (R.VER_CNT.missing k) 1
  let s := s.puts [(R.VER_LOG0.gen, g), (R.VER_LOG0.mb, mb), (R.VER_LOG1.cause, cause), (R.VER_LOG1.stage, k)]
  s.raise (if cause = 2 then E.VER_STALE else E.VER_MISSING) (some (s.seqCtx k)) (atLd (ldOfDie (k / 4))) g

/-- The exceptions of an instruction on the table that the half's reset makes (R192), then its own. -/
def verCheck (s : State) (k : Nat) (l : List (Bool × Exc)) : Option Exc :=
  firstExc ((s.halfInReset (halfOfDie (k / 4)), exc E.LINK_HALF_DOWN k) :: l)

/-- VER.ADMIT (R175, R180, R183, R189). It also waits while no LIVE slot holds the generation in force, as there is none
to pin then. -/
def opVerAdmit (k : Nat) (sd : BitVec 5) (close : Bool) : SlotOp :=
  { sW := [sd.toNat]
    chk := fun s => verCheck s k [(!s.flag (R.VER_HDR.entry k), exc E.VER_ENTRY k),
      (match (s.admitStart k).admitSlot k with
       | some i => decide ((s.admitStart k).vcount k i = 65535)
       | none => false, exc E.VER_REF k)]
    wait := fun s =>
      let s := s.admitStart k
      if s.gateHeld k || s.flag (R.VER_HDR.bar_hold k) || (s.admitSlot k).isNone then 4 else 0
    eff := fun _ s =>
      let s := (s.admitStart k).put (R.VER_HDR.gate_hold k) 0
      match s.admitSlot k with
      | none => s
      | some i =>
        let g := s.get (R.VER_CUR.gen k)
        let s := s.put (R.VER_SLOT.count k i) (s.vcount k i + 1)
        let s := s.modSeq k (fun x => { x with ob := { x.ob with gen := g, group := s.get (R.VER_CUR.group k), slot := i } })
        let s := s.wS k sd (BitVec.ofNat 64 g)
        if close then s.batchClose k else s }

/-- Cause of a pin or look that finds no slot (R174). -/
def missCause (g : Nat) : Nat := if g = 0 then 5 else 1

/-- The slot that a VER.PIN of sequencer `k` resolves to (R172). -/
def State.pinSlot (s : State) (k : Nat) (o : FlumeOp) : Option Nat :=
  ((s.flume (flumeNum s k o)).oldestHeld k).bind (fun r => s.vfind k r.hdr.gen)

/-- VER.PIN (R172 to R175); a pin that has ended while it waited fails with the cause it ended with, 3 or 4 (R173, R174). -/
def opVerPin (k : Nat) (pd : BitVec 3) (sd : BitVec 5) (o : FlumeOp) : SlotOp :=
  { sR := flumeReads o, sW := [sd.toNat], pW := [pd.toNat]
    chk := fun s => let f := flumeNum s k o
      (s.flmSeqCheck k f false).orElse (fun _ => verCheck s k
        [(((s.flume f).oldestHeld k).isNone, exc E.FLM_ORDER f),
         (match (s.flume f).oldestHeld k with
          | none => false
          | some r => match s.vfind k r.hdr.gen with
            | some i => decide (s.vst k i = verLIVE ∧ s.vcount k i = 65535)
            | none => false, exc E.VER_REF k)])
    wait := fun s => if KMap.find (fun _ => 0) s.pinEnd k ≠ 0 then 0 else match s.pinSlot k o with
      | some i => if s.vst k i = verBUILDING then 4 else 0
      | none => 0
    eff := fun pre s =>
      let f := flumeNum pre k o
      let ended := KMap.find (fun _ => 0) s.pinEnd k
      let s := { s with pinEnd := KMap.drop s.pinEnd k }
      match (s.flume f).oldestHeld k with
      | none => s
      | some r =>
        let fail := fun cause => (s.verFail k (some f) r.hdr.gen r.hdr.mb cause).wP k pd false
        if ended ≠ 0 then fail ended
        else match s.vfind k r.hdr.gen with
        | none => fail (missCause r.hdr.gen)
        | some i =>
          if s.vst k i = verLIVE then
            let s := s.put (R.VER_SLOT.count k i) (s.vcount k i + 1)
            let x := s.flume f
            let recs := modFirst (fun r => r.held && decide (r.holder = k)) (fun r => { r with pin := some r.hdr.gen }) x.recs
            ((s.setFlume f { x with recs := recs }).wS k sd (BitVec.ofNat 64 i)).wP k pd true
          else if s.vst k i = verDRAINING then fail 2
          else fail 4 }

/-- VER.LOOK (R172); the micro-batch of the log is that of HB, as the instruction names no record. -/
def opVerLook (k : Nat) (pd : BitVec 3) (sd gs : BitVec 5) : SlotOp :=
  { sR := [gs.toNat], sW := [sd.toNat], pW := [pd.toNat]
    chk := fun s => verCheck s k []
    eff := fun pre s =>
      let g := (pre.s k gs).toNat % 2 ^ 32
      let fail := fun cause => (s.verFail k none g (s.seq k).hb.mb cause).wP k pd false
      match s.vfind k g with
      | none => fail (missCause g)
      | some i =>
        if s.vst k i = verLIVE ∨ (s.vst k i = verDRAINING ∧ 0 < s.vcount k i) then
          (s.wS k sd (BitVec.ofNat 64 i)).wP k pd true
        else fail 6 }

/-- VER.UNPIN (R172, R175). -/
def opVerUnpin (k : Nat) (gs : BitVec 5) : SlotOp :=
  { sR := [gs.toNat]
    chk := fun s =>
      let g := (s.s k gs).toNat % 2 ^ 32
      verCheck s k [(match s.vfind k g with
        | none => true
        | some i => decide (s.vst k i = verBUILDING ∨ s.vcount k i = 0), exc E.VER_REF g)]
    eff := fun pre s => match s.vfind k ((pre.s k gs).toNat % 2 ^ 32) with
      | none => s
      | some i => s.vunpin k i }

/-- VER.BASE (R175). -/
def opVerBase (k : Nat) (ad : BitVec 4) (ss is : BitVec 5) : SlotOp :=
  { sR := [ss.toNat, is.toNat], aW := [ad.toNat]
    chk := fun s =>
      let i := (s.s k ss).toNat % 4
      let j := (s.s k is).toNat % 256
      verCheck s k [(decide (s.vst k i = verFREE ∨ s.get (R.VER_SLOT.nlayers k i) ≤ j), exc E.VER_STATE i)]
    eff := fun pre s =>
      s.wA k ad (BitVec.ofNat 48 (s.get (R.VER_LBASE.base k ((pre.s k ss).toNat % 4) ((pre.s k is).toNat % 256)))) }

/-- The lowest FREE slot. -/
def State.vfree (s : State) (l : Nat) : Option Nat := (List.range 4).find? (fun i => decide (s.vst l i = verFREE))

/-- VER.BUILD (R175). -/
def opVerBuild (k : Nat) (sd gs : BitVec 5) : SlotOp :=
  { sR := [gs.toNat], sW := [sd.toNat]
    chk := fun s =>
      let g := (s.s k gs).toNat % 2 ^ 32
      verCheck s k [(decide (g ≤ s.get (R.VER_HDR.top k)), exc E.VER_GEN_ORDER g)]
    wait := fun s => if (s.vfree k).isSome then 0 else 4
    eff := fun pre s => match s.vfree k with
      | none => s
      | some i => (s.vbuild k i ((pre.s k gs).toNat % 2 ^ 32)).wS k sd (BitVec.ofNat 64 i) }

/-- VER.TBUILD (R175, R254). -/
def opVerTbuild (k : Nat) (sd gs : BitVec 5) (pd : BitVec 3) : SlotOp :=
  { sR := [gs.toNat], sW := [sd.toNat], pW := [pd.toNat]
    chk := fun s =>
      let g := (s.s k gs).toNat % 2 ^ 32
      verCheck s k [(decide (g ≤ s.get (R.VER_HDR.top k)), exc E.VER_GEN_ORDER g)]
    eff := fun pre s => match s.vfree k with
      | none => s.wP k pd false
      | some i => ((s.vbuild k i ((pre.s k gs).toNat % 2 ^ 32)).wS k sd (BitVec.ofNat 64 i)).wP k pd true }

/-- The staged layer group of a slot (R193). -/
def layerGroup (l i : Nat) : List Fld :=
  R.VER_SLOT.nlayers l i :: (List.range 240).map (fun j => R.VER_LBASE.base l i j)

/-- Refusal of the staged layer group (R193). A base is outside the windows when its first byte is not readable through them: R193 gives neither the
right nor the extent of a layer (DESIGN CHOICE, log entry 152). -/
def State.layersBad (s : State) (c l i : Nat) : Bool :=
  let n := s.sget (R.VER_SLOT.nlayers l i)
  decide (240 < n) || (List.range (min n 240)).any (fun j =>
    let b := s.sget (R.VER_LBASE.base l i j)
    decide (b % 4096 ≠ 0) || !s.permits c b 1 false)

/-- The layer bases of the staged group, each as the range that is checked (R193, R480). -/
def State.layerRanges (s : State) (l i : Nat) : List (Nat × Nat × Bool) :=
  (List.range (min (s.sget (R.VER_SLOT.nlayers l i)) 240)).map (fun j => (s.sget (R.VER_LBASE.base l i j), 1, false))

/-- The exception of VER.LIVE on a bad layer group (R193), with the base that the windows refuse (R480). -/
def State.layersExc (s : State) (c l i : Nat) : Exc :=
  ⟨E.CFG_COMMIT, i, ((s.layerRanges l i).find? (fun r => !s.permits c r.1 r.2.1 r.2.2)).map (fun r => (r.1, r.2.1, 0, r.2.2))⟩

/-- A BUILDING slot becomes LIVE with its staged layer group; the barrier hold ends when it holds the admit generation
(R175, R189, R191). -/
def State.vlive (s : State) (l i : Nat) : State :=
  let s := (s.commit (layerGroup l i)).put (R.VER_SLOT.state l i) verLIVE
  let s := { s with refill := KMap.drop s.refill (4 * l + i) }
  if s.vgen l i = s.get (R.VER_CUR.gen l) then s.put (R.VER_HDR.bar_hold l) 0 else s

/-- VER.LIVE (R175, R191, R193). -/
def opVerLive (k : Nat) (ss : BitVec 5) : SlotOp :=
  { sR := [ss.toNat]
    chk := fun s =>
      let i := (s.s k ss).toNat % 4
      verCheck s k [(decide (s.vst k i ≠ verBUILDING), exc E.VER_STATE i),
                    (s.layersBad (s.seqCtx k) k i, s.layersExc (s.seqCtx k) k i)]
    eff := fun pre s => s.vlive k ((pre.s k ss).toNat % 4) }

/-- VER.DROP (R175, R191). -/
def opVerDrop (k : Nat) (ss : BitVec 5) : SlotOp :=
  { sR := [ss.toNat]
    chk := fun s =>
      let i := (s.s k ss).toNat % 4
      verCheck s k [(decide (s.vst k i ≠ verBUILDING), exc E.VER_STATE i)]
    eff := fun pre s => s.put (R.VER_SLOT.state k ((pre.s k ss).toNat % 4)) verFREE }

/-- VER.SW (R175, R185, R188, R190). -/
def opVerSw (k : Nat) (gs : BitVec 5) : SlotOp :=
  { sR := [gs.toNat]
    chk := fun s =>
      let g := (s.s k gs).toNat % 2 ^ 32
      let holds := (List.range 4).any (fun i =>
        decide ((s.vst k i = verLIVE ∨ s.vst k i = verBUILDING) ∧ s.vgen k i = g))
      verCheck s k [(s.flag (R.VER_HDR.entry k), exc E.VER_ENTRY g),
        (decide (g ≤ s.get (R.VER_CUR.gen k)) || (!holds && (s.vnewest k g).isNone), exc E.VER_STATE g)]
    eff := fun pre s =>
      let g := (pre.s k gs).toNat % 2 ^ 32
      (s.vswitch k g).put (R.VER_CUR.gen k) g }

/-- The conditions of R182 on a write of the admit pointer. -/
def State.admitOk (s : State) (l g : Nat) (bar : Bool) : Bool :=
  s.flag (R.VER_HDR.entry l) && decide (s.get (R.VER_CUR.gen l) < g) && !s.flag (R.VER_HDR.bar_hold l)
  && (if bar then decide (s.get (R.VER_HDR.top l) < g)
      else match s.vfind l g with
        | some i => decide (s.vst l i = verLIVE)
        | none => false)

/-- The admit pointer pending (R182). -/
def State.setAdmit (s : State) (l g : Nat) (bar : Bool) : State :=
  s.puts [(R.VER_ADMIT.gen l, g), (R.VER_ADMIT.barrier l, b2n bar), (R.VER_ADMIT.pend l, 1)]

/-- Result of the last VER_CMD or pointer write (R193). -/
def State.verResult (s : State) (l r : Nat) : State := s.puts [(R.VER_CSTAT.result, r), (R.VER_CSTAT.stage, l)]

/-- VER.ADM (R175, R182); a refusal is reported in VER_CSTAT too, when its exception is taken. -/
def opVerAdm (k : Nat) (gs : BitVec 5) (barrier : Bool) : SlotOp :=
  { sR := [gs.toNat]
    chk := fun s =>
      let g := (s.s k gs).toNat % 2 ^ 32
      verCheck s k [(!s.flag (R.VER_HDR.entry k), exc E.VER_ENTRY g), (!s.admitOk k g barrier, exc E.CFG_COMMIT g)]
    eff := fun pre s => (s.setAdmit k ((pre.s k gs).toNat % 2 ^ 32) barrier).verResult k 1 }

/-- VER.LB (R255). -/
def opVerLb (k : Nat) (ss is : BitVec 5) (ab : BitVec 4) : SlotOp :=
  { sR := [ss.toNat, is.toNat]
    chk := fun s =>
      let i := (s.s k ss).toNat % 4
      firstExc [(decide (240 ≤ (s.s k is).toNat % 256), exc E.SEQ_OPERAND 0),
                (decide (s.vst k i ≠ verBUILDING), exc E.VER_STATE i)]
    eff := fun pre s =>
      s.sput (R.VER_LBASE.base k ((pre.s k ss).toNat % 4) ((pre.s k is).toNat % 256)) (pre.a k ab.toNat).toNat }

/-- VER.NL (R255). -/
def opVerNl (k : Nat) (ss ns : BitVec 5) : SlotOp :=
  { sR := [ss.toNat, ns.toNat]
    chk := fun s =>
      let i := (s.s k ss).toNat % 4
      firstExc [(decide (s.vst k i ≠ verBUILDING), exc E.VER_STATE i)]
    eff := fun pre s => s.sput (R.VER_SLOT.nlayers k ((pre.s k ss).toNat % 4)) ((pre.s k ns).toNat % 256) }

/-- VAR.LOOK (R256, R287). -/
def opVarLook (k : Nat) (ad : BitVec 4) (sd : BitVec 5) (pd : BitVec 3) (vs : BitVec 5) : SlotOp :=
  { sR := [vs.toNat], sW := [sd.toNat], aW := [ad.toNat], pW := [pd.toNat]
    eff := fun pre s =>
      let v := (pre.s k vs).toNat % 4096
      if s.flag (R.VAR_ENT.valid k v) then
        ((s.wA k ad (BitVec.ofNat 48 (s.get (R.VAR_ENT.addr k v)))).wS k sd
          (BitVec.ofNat 64 (s.get (R.VAR_ENT.rank k v)))).wP k pd true
      else s.wP k pd false }

/-- VAR.CNT (R256): the count saturates. -/
def opVarCnt (k : Nat) (vs : BitVec 5) : SlotOp :=
  { sR := [vs.toNat], eff := fun pre s => s.count (R.VAR_ENT.count k ((pre.s k vs).toNat % 4096)) 1 }

/-! ## Register commands -/

/-- A write dropped because its master does not own the field: counted in OWN_LOG and logged (R455). -/
def State.ownDrop (s : State) (m : Master) (off : Nat) : State :=
  ((s.puts [(R.OWN_LOG.master, b2n (decide (m = .mgmt))), (R.OWN_LOG.offset, off)]).count R.OWN_LOG.count 1).raise
    E.CFG_OWNER none (atSteward 0) off

/-- True when the master owns domain `d` (R455). -/
def State.owns (s : State) (m : Master) (d : Nat) : Bool :=
  bit (s.get R.OWN_LOCK.mgmt) d == decide (m = .mgmt)

/-- VER_ADMIT written by a master (R182, R192, R455). -/
def execVerAdmitWrite (m : Master) (l : Fin 96) (gen : BitVec 32) (barrier : Bool) (s : State) : Result :=
  let l := l.val
  .next (s.gated (0x0380_0008 + 0x2000 * l) (
    if s.halfInReset (halfOfDie (l / 4)) then s.raise E.LINK_HALF_DOWN none (atEntry (ldOfDie (l / 4))) l
    else if !s.owns m 2 then s.ownDrop m (0x0380_0008 + 0x2000 * l)
    else if s.admitOk l gen.toNat barrier then (s.setAdmit l gen.toNat barrier).verResult l 1
    else (s.raise E.CFG_COMMIT (some (s.seqCtx l)) (atLd (ldOfDie (l / 4))) l).verResult l 2))

/-- A slot made LIVE by VER_CMD, of the host or of the foreman (R188, R191, R193). -/
def State.cmdLive (s : State) (l i : Nat) : State :=
  if s.halfInReset (halfOfDie (l / 4)) then s.raise E.LINK_HALF_DOWN none (atEntry (ldOfDie (l / 4))) l
  else if s.vst l i ≠ verBUILDING then
    (s.raise E.VER_STATE (some (s.seqCtx l)) (atLd (ldOfDie (l / 4))) i).verResult l 3
  else if s.seqBound l && s.leaving (s.seqCtx l) then
    (s.raise E.CFG_COMMIT (some (s.seqCtx l)) (atLd (ldOfDie (l / 4))) i).verResult l 2
  else if s.layersBad (s.seqCtx l) l i then
    ((s.permNote s.entryLd (s.seqCtx l) (s.layerRanges l i)).raise E.CFG_COMMIT (some (s.seqCtx l)) (atLd (ldOfDie (l / 4))) i).verResult l 2
  else (s.vlive l i).verResult l 1

/-- VER_CMD live (R191, R193, R440). -/
def execVerCmdLive (l : Fin 96) (sl : Fin 4) (s : State) : Result :=
  .next (s.gated 0x038C_0010 (s.cmdLive l.val sl.val))

end Sys2Proof.Machine
end

