-- ==== Sys2Proof/Machine/Memory.lean ====
section
/-! DEFINITION. Machine/Memory.lean: patrol and error check (R387, R390, R392), permission windows (R393 to R395), global regions
(R382, R383) and the buddy regions of the far tier (R391). -/

namespace Sys2Proof.Machine

/-! ## Patrol (R384 to R392) -/

/-- MEM_PATROL_READ (R387, R385): patrol has read the word at `a` and found no error (0), a single-bit error (1), which it counts and
corrects by write-back, or an uncorrectable one (2), which is logged and left in place. An error in a control structure of the word's
landing die is corrected and counted (3) or fatal (4) (R534). `last` ends a pass over the stack. -/
def execMemPatrolRead (a : BitVec 48) (err : Fin 5) (last : Bool) (s : State) : Result :=
  let a := a.toNat / 8 * 8
  let unit := match regionOf a with
    | .hbm _ => if s.backed a then some (s.place a).2.1 else none
    | .flume h => some (6 * h)
    | _ => none
  .next (match unit with
    | none => s
    | some i =>
      if s.get R.MEM_SCRUB_HBM.seconds = 0 ∨ s.patrolPaused ∨ s.halfInReset (s.homeLd a / 2) then s
      else
        let s := if err = 3 then s.logAs E.CFG_STATE_ECC 0 none (atLd (s.homeLd a)) a
                 else if err = 4 then s.fatal E.CFG_STATE_ECC (atLd (s.homeLd a)) a
                 else if err = 2 ∨ s.isBad a then (s.markBad a).noteBad none a
                 else if err = 1 ∨ s.soft.contains a then s.fixWord a else s
        if last then s.count (R.HBM_ECC.passes i) 1 else s)

/-- FAR_TIER_ECS_PASS (R390): the errors that the packages report are added to FAR_ECC.corr. -/
def execFarTierEcsPass (f : Fin 2) (errs : BitVec 16) (s : State) : Result :=
  .next (if s.get R.MEM_SCRUB_FAR.seconds = 0 ∨ s.patrolPaused ∨ s.halfInReset f.val then s
         else s.count (R.FAR_ECC.corr f.val) errs.toNat)

/-- A single-bit error strikes a word of HBM, flume store or tile store: a second one makes it uncorrectable (R109, R384, R385). -/
def State.strike (s : State) (a : Nat) : State :=
  if s.isBad a then s
  else if s.soft.contains (a / 8 * 8) then s.markBad a
  else { s with soft := (a / 8 * 8 :: s.soft).mergeSort (· ≤ ·) }

/-- The like for word `w` of the tile registers (R109). -/
def State.strikeTile (s : State) (w : Nat) (two : Bool) : State :=
  if s.tileBad.contains w then s
  else if two || s.tileSoft.contains w then
    { s with tileSoft := s.tileSoft.filter (· ≠ w), tileBad := (w :: s.tileBad).mergeSort (· ≤ ·) }
  else { s with tileSoft := (w :: s.tileSoft).mergeSort (· ≤ ·) }

/-- Words of the tile registers (R100). -/
def tileWords : Nat := 24 * 8 * 16 * 128 * 128 / 2

/-- The upset that one ac brings, as `Config.upset` has it (log entry 112): none, one or two bits of a word of HBM, flume store or tile
store (R109, R384, R385), a double error on the next transfer of a far-tier granule (R390), one or two bits of a tile-register word, or one or two bits of a control
structure (R534). -/
def State.upset (s : State) : State :=
  let u := (Config.upset s.free).toNat
  let kind := u / 2 ^ 48
  let a := u % 2 ^ 48
  let far := match regionOf a with
    | .far _ => true
    | _ => false
  let s := { s with free := s.free + 1 }
  if s.get R.PWR_STAT.rung = 4 then s
  else match kind with
    | 1 => if s.mapped a && !far then s.strike a else s
    | 2 => if s.mapped a && !far then s.markBad a else s
    | 3 => if far && !s.isBad a then { s with linkErr := (a / 64 * 64 :: s.linkErr).mergeSort (· ≤ ·) } else s
    | 4 => s.strikeTile (a % tileWords) false
    | 5 => s.strikeTile (a % tileWords) true
    | 6 => if 2 ≤ s.boot then s.logAs E.CFG_STATE_ECC 0 none (atLd (a % 4)) 0 else s
    | 7 => if 2 ≤ s.boot then s.fatal E.CFG_STATE_ECC (atLd (a % 4)) 0 else s
    | _ => s

/-! ## Permission windows (R394, R395) -/

/-- A window as it is committed, or staged, for a check: enabled, read, write, first byte, one past the last. -/
def State.winOf (s : State) (staged : Bool) (c w : Nat) : Bool × Bool × Bool × (Nat × Nat) :=
  let g := fun f => if staged then s.sget f else s.get f
  let b := g (R.MEM_WIN.base c w) * 4096
  (decide (g (R.MEM_WIN.en c w) = 1), decide (g (R.MEM_WIN.r c w) = 1), decide (g (R.MEM_WIN.w c w) = 1),
    (b, b + g (R.MEM_WIN.size c w) * 4096))

/-- The enabled committed windows of the other contexts: whether they grant writes, and their ranges. -/
def State.otherWindows (s : State) (c : Nat) : List (Bool × (Nat × Nat)) :=
  ((List.range 64).filter (· ≠ c)).flatMap (fun d => (List.range 16).filterMap (fun w =>
    let x := s.winOf false d w
    if x.1 then some (x.2.2.1, x.2.2.2) else none))

/-- The cause for which window `w` of the staged group is refused, 0 for none (R394). -/
def State.winCause (s : State) (c w : Nat) : Nat :=
  let x := s.winOf true c w
  let r := x.2.2.2
  if !x.1 ∨ r.1 = r.2 then 0
  else if 2 ^ 48 < r.2 ∨ !covered s.mappedRanges 40 r.1 r.2 then 1
  else if s.reservedRanges.any (meet r) then 2
  else if (s.otherWindows c).any (fun y => meet r y.2 && (x.2.2.1 || (x.2.1 && y.1))) then 3
  else if (List.range 24).any (fun n => meet r (tileBase n, tileBase n + tileBytes)
      && !(s.flag (R.DIE_OWN.assigned n) && decide (s.get (R.DIE_OWN.ctx n) = c))) then 4
  else 0

/-- The fields of a context's window group. -/
def winGroup (c : Nat) : List Fld :=
  (List.range 16).flatMap (fun w =>
    [R.MEM_WIN.en c w, R.MEM_WIN.r c w, R.MEM_WIN.w c w, R.MEM_WIN.base c w, R.MEM_WIN.size c w])

/-- MEM_WCOMMIT (R394, R395): an accepted group is in progress until the accesses admitted under the old one have completed. A
context that is ZEROING or in TEARDOWN is refused (R439, R440). -/
def execMemWcommit (c : Fin 64) (s : State) : Result :=
  let c := c.val
  .next (s.gated 0x0016_4000 (
    if s.flag R.MEM_WCSTAT.busy then s.cfgRange none c
    else
      let bad := (List.range 16).find? (fun w => s.winCause c w ≠ 0)
      let stat := fun (s : State) r busy cause w =>
        s.puts [(R.MEM_WCSTAT.busy, busy), (R.MEM_WCSTAT.cause, cause), (R.MEM_WCSTAT.window, w), (R.MEM_WCSTAT.result, r),
                (R.MEM_WCSTAT.ctx, c)]
      if s.leaving c ∨ s.get (R.CTX_STATE.state c) = 3 then stat (s.raise E.CFG_COMMIT (some c) (atSteward 0) c) 2 0 0 0
      else match bad with
        | some w => stat (s.raise E.CFG_COMMIT (some c) (atSteward 0) c) 2 0 (s.winCause c w) w
        | none =>
          let old := (List.range 16).filterMap (fun w =>
            let x := s.winOf false c w
            if x.1 then some (x.2.2.2.1, x.2.2.2.2, x.2.1, x.2.2.1) else none)
          let s := s.commit (winGroup c)
          stat { s with oldWin := KMap.place c old (KMap.drop s.oldWin c) } 0 1 0 0))

/-- True when an enabled window of the committed group covers an address of the far tier. -/
def State.coversFar (s : State) (c : Nat) : Bool :=
  (List.range 16).any (fun w => let x := s.winOf false c w
                                x.1 && meet x.2.2.2 (0x0200_0000_0000, 0x0400_0000_0000))

/-- True while an access of context `c` that was admitted before is under way (R395): a transfer or load of its sequencers, the SAP.MV of one of
them, or a ring command whose host read is out. -/
def State.underWay (s : State) (c : Nat) : Bool :=
  s.seqs.any (fun e => decide (s.seqCtx e.1 = c) && !(e.2.dma.isEmpty && e.2.loads.isEmpty))
  || s.saps.any (fun e => match e.2.op with
    | some o => decide (s.seqCtx o.seq = c)
    | none => false)
  || s.srings.any (fun e => decide (e.1 / 16 = c) && e.2.io)

/-- MEM_WCOMMIT_DONE (R395, R507): every access admitted under the old group has completed; a group that covers the far tier stays busy
while that is zeroed. -/
def execMemWcommitDone (s : State) : Result :=
  .next (if s.flag R.MEM_WCSTAT.busy && !(s.flag R.PWR_STAT.fzero && s.coversFar (s.get R.MEM_WCSTAT.ctx))
      && !s.underWay (s.get R.MEM_WCSTAT.ctx) then
      ({ s with oldWin := KMap.drop s.oldWin (s.get R.MEM_WCSTAT.ctx) }).puts
        [(R.MEM_WCSTAT.busy, 0), (R.MEM_WCSTAT.result, 1)]
    else s)

/-! ## Global regions (R381 to R383) -/

/-- The device address that the placement of `s` gives to byte `sa` of stack `st`: the inverse of R381 and R382. -/
def State.unplace (s : State) (st sa : Nat) : Nat :=
  let n := s.mfg.nstacks
  let h := st / 6
  let u := sa / 4096 * n + st % 6
  match s.gregOf (u * 4096) with
  | none => h * 0x60_0000_0000 + u * 4096 + sa % 4096
  | some (o, q) =>
    let r := (4 * (u - o / 4096) + h) * 4096 + sa % 4096
    r / q * 0x60_0000_0000 + o + r % q

/-- The address under the placement of `t` of the storage that lies at `a` under that of `s`. -/
def State.moved (s t : State) (a : Nat) : Nat :=
  match regionOf a with
  | .hbm _ => let p := s.place a
              t.unplace p.2.1 p.2.2.1
  | _ => a

/-- `t`, whose placement has just changed from that of `s`, with every byte and every error where it is stored (R382). -/
def State.replace (s t : State) : State :=
  { t with mem := (t.mem.map (fun e => (s.moved t e.1, e.2))).foldl (fun m e => KMap.put (fun _ => 0) m e.1 e.2) []
           bad := (t.bad.map (fun a => s.moved t a)).mergeSort (· ≤ ·)
           soft := (t.soft.map (fun a => s.moved t a)).mergeSort (· ≤ ·) }

/-- The slices of offset range `[o, o + q)` in the four landing dies. -/
def slices (o q : Nat) : List (Nat × Nat) := (List.range 4).map (fun h => (0x60_0000_0000 * h + o, 0x60_0000_0000 * h + o + q))

/-- True when HBM_GCOMMIT is refused (R383); a region of size 0 is legal with any offset. -/
def State.gregBad (s : State) (g : Nat) : Bool :=
  let gib := 2 ^ 30
  let o := s.sget (R.HBM_GREG.off g)
  let q := s.sget (R.HBM_GREG.size g)
  let en := s.sget (R.HBM_GREG.en g) = 1
  let new := if en then slices (o * gib) (q * gib) else []
  let old := if s.flag (R.HBM_GREG.en g) then slices (s.get (R.HBM_GREG.off g) * gib) (s.get (R.HBM_GREG.size g) * gib) else []
  decide (0 < q ∧ s.mfg.nstacks * 64 < o + q) || decide (o = 0 ∧ 0 < q)
  || (List.range 8).any (fun j => decide (j ≠ g) && s.flag (R.HBM_GREG.en j) &&
      (slices (s.get (R.HBM_GREG.off j) * gib) (s.get (R.HBM_GREG.size j) * gib)).any (fun x => new.any (meet x)))
  || (s.otherWindows 64).any (fun y => (new ++ old).any (meet y.2))

/-- HBM_GCOMMIT (R383). -/
def execHbmGcommit (g : Fin 8) (s : State) : Result :=
  let g := g.val
  let res := fun (s : State) r => s.puts [(R.HBM_GCSTAT.result, r), (R.HBM_GCSTAT.region, g)]
  .next (s.gated 0x0016_5080 (
    if s.flag R.HBM_GCSTAT.busy then s.cfgRange none g
    else if s.gregBad g then res (s.raise E.CFG_COMMIT none (atSteward 0) g) 2
    else res (s.replace (s.commit [R.HBM_GREG.en g, R.HBM_GREG.off g, R.HBM_GREG.size g])) 1))

/-! ## Buddy regions (R391) -/

/-- FAR_BUDDY_WRITE (R391): one of the region's two words written by a master of domain 3; a base or size that is not a multiple of
4 KiB is not a legal value of its field. -/
def execFarBuddyWrite (m : Master) (f : Fin 2) (size : Bool) (v : BitVec 48) (s : State) : Result :=
  let f := f.val
  let v := v.toNat
  let b := if size then s.get (R.FAR_BUDDY.base f) else v
  let n := if size then v else s.get (R.FAR_BUDDY.size f)
  let lo := 0x0200_0000_0000 + f * 0x0100_0000_0000
  let hi := if f = 0 then 0x02FF_F000_0000 else lo + 0x0100_0000_0000
  .next (s.gated (0x0016_6000 + 16 * f + 8 * b2n size) (
    if !s.owns m 3 then s.ownDrop m (0x0016_6000 + 16 * f + 8 * b2n size)
    else if v % 4096 ≠ 0 ∨ (0 < n ∧ ¬ (lo ≤ b ∧ b + n ≤ hi)) ∨ (List.range 64).any (fun c => s.flag (R.CKPT_BUDDY.en c)) then
      s.cfgRange none (0x0016_6000 + 16 * f + 8 * b2n size)
    else s.put (if size then R.FAR_BUDDY.size f else R.FAR_BUDDY.base f) v))

end Sys2Proof.Machine
end

