-- ==== Sys2Proof/Machine/Domains.lean ====
section
/-! DEFINITION. Machine/Domains.lean: power domains as a rung and PWR_PDOFF set them (R491, R492), and the dies' identity keys (R464). -/

namespace Sys2Proof.Machine

/-- True when a partner die fills the site (R1). -/
def State.partnerFitted (s : State) (u : Nat) : Bool := if u = 0 then s.mfg.u0Partner else s.mfg.u1Partner

/-- The haul die of a privileged channel: none where the build has none (R327). -/
def State.haulDie (s : State) (ch : Nat) : Option Nat :=
  match s.mfg.u0Partner, s.mfg.u1Partner with
  | false, false => some (ch % 2)
  | false, true => some 0
  | true, false => some 1
  | true, true => none

/-- True when domain `d` is not off in rung `r` (0 Bake to 3 Freeze, 4 Off), were its part fitted and not held off. -/
def pdInRung (d r : Nat) : Bool :=
  if d < 48 then decide (r ≤ 1 + d % 2)
  else if d < 64 then decide (r ≤ if d % 4 < 2 then 2 else 1)
  else if d < 88 then decide (r ≤ 3)
  else if d < 100 then decide (r ≤ 1)
  else if d < 102 then decide (r ≤ 3)
  else decide (r ≤ 1)

/-- True when stack `i` is fitted (R34). -/
def State.stackFitted (s : State) (i : Nat) : Bool := decide (i % 6 < s.mfg.nstacks)

/-- True when the part of domain `d` is fitted (R35). -/
def State.pdFitted (s : State) (d : Nat) : Bool :=
  if 64 ≤ d ∧ d < 88 then s.stackFitted (d - 64) else if 88 ≤ d ∧ d < 100 then s.edgeFitted ((d - 88) / 2) else true

/-- True when the host may hold domain `d` off (R492). -/
def State.pdMayHold (s : State) (d : Nat) : Bool :=
  if d < 48 then !s.flag (R.DIE_OWN.assigned (d / 2))
  else if 88 ≤ d ∧ d < 100 then
    let k := (d - 88) / 2
    decide (s.get (R.CAGE_CTL.mode (2 * k)) = 0 ∧ s.get (R.CAGE_CTL.mode (2 * k + 1)) = 0)
  else if d = 102 ∨ d = 103 then
    let u := d - 102
    if s.partnerFitted u then decide (s.get (R.PART_STAT.state u) = 0 ∨ s.get (R.PART_STAT.state u) = 3)
    else (List.range 4).all (fun ch => !(s.flag (R.HAUL_CHAN.en ch) && decide (s.haulDie ch = some u)))
  else false

/-- True when PWR_PDOFF holds domain `d` off now (R492). -/
def State.pdHeld (s : State) (d : Nat) : Bool := bit (s.get (R.PWR_PDOFF.hold (d / 64))) (d % 64) && s.pdMayHold d

/-- The dies with a PUF, by kind (as in a log entry), index and power domain: every die but a partner die (R11, R464, R491). The stewards and
landing dies have power until Off. -/
def State.pufDies (s : State) : List (Nat × Nat × Option Nat) :=
  (List.range 2).map (fun i => (0, i, none)) ++ (List.range 4).map (fun i => (1, i, none)) ++ (List.range 24).map (fun i => (2, i, some (2 * i + 1)))
    ++ ((List.range 6).filter (fun k => s.edgeFitted k)).map (fun i => (3, i, some (88 + 2 * i))) ++ (List.range 2).map (fun i => (4, i, some (100 + i)))
    ++ ((List.range 2).filter (fun u => !s.partnerFitted u)).map (fun i => (5, i, some (102 + i)))

/-- Each die holds the identity key that it derives from its PUF at power-on, as long as it has power (R464). -/
def State.deriveKeys (s : State) : State :=
  let on := fun d => bit (s.get (R.PWR_PD.on (d / 64))) (d % 64)
  { s with idKeys := (s.pufDies.filter (fun d => d.2.2.all on)).map (fun d => (64 * d.1 + d.2.1, (Config.identityKey d.1 d.2.1).toNat)) }

/-- The domains in the states of rung `r` (R491, R492): PWR_PD shows which are not off. -/
def State.setDomains (s : State) (r : Nat) : State :=
  let on := fun d => s.pdFitted d && pdInRung d r && !(decide (r ≤ 1) && s.pdHeld d)
  let word := fun j => ((List.range 64).map (fun b => if 64 * j + b < 104 ∧ on (64 * j + b) = true then 2 ^ b else 0)).sum
  ((s.put (R.PWR_PD.on 0) (word 0)).put (R.PWR_PD.on 1) (word 1)).deriveKeys

/-- PWR_PDOFF takes effect again after a change of ownership (R492). -/
def State.holdDomains (s : State) : State := s.setDomains (s.get R.PWR_STAT.rung)

end Sys2Proof.Machine
end

