-- ==== Sys2Proof/Machine/CutTab.lean ====
section
/-! DEFINITION. Machine/CutTab.lean: the fields of a cut table, its rows and its layer list (R261 to R263), and the tables in force. -/

namespace Sys2Proof.Machine

/-- The little-endian field of `n` bytes at byte `i`. -/
def fieldAt (d : List Byte) (i n : Nat) : Nat := leNat ((d.drop i).take n)

/-- `d` with the bytes from `i` on replaced by `v`. -/
def patchAt (d : List Byte) (i : Nat) (v : List Byte) : List Byte := d.take i ++ v ++ d.drop (i + v.length)

/-- Stage ids of a table (R261). -/
def CutTable.nstages (t : CutTable) : Nat := fieldAt t.hdr 2 2 % 2 ^ 13
/-- Layers of the model (R261). -/
def CutTable.nlayers (t : CutTable) : Nat := fieldAt t.hdr 4 2
/-- Modules of the job (R261). -/
def CutTable.nmodules (t : CutTable) : Nat := fieldAt t.hdr 6 2 % 2 ^ 13
/-- Job id (R261). -/
def CutTable.job (t : CutTable) : Nat := fieldAt t.hdr 8 4
/-- Replicas (R261). -/
def CutTable.nreplicas (t : CutTable) : Nat := fieldAt t.hdr 12 1
/-- Device address of the layer list (R261). -/
def CutTable.layersAddr (t : CutTable) : Nat := fieldAt t.hdr 16 6
/-- Device address of the expert section, 0 for none (R261). -/
def CutTable.expAddr (t : CutTable) : Nat := fieldAt t.hdr 24 6
/-- Device address of the norm vector, 0 for none (R261). -/
def CutTable.normAddr (t : CutTable) : Nat := fieldAt t.hdr 32 6

/-- The stage id that a row states (R262). -/
def rowStage (r : List Byte) : Nat := fieldAt r 0 2 % 2 ^ 12
/-- Pipeline position (R262). -/
def rowPos (r : List Byte) : Nat := fieldAt r 2 2 % 2 ^ 12
/-- Module index (R262). -/
def rowModule (r : List Byte) : Nat := fieldAt r 4 2 % 2 ^ 12
/-- Sequencer (R262). -/
def rowSeq (r : List Byte) : Nat := bits (fieldAt r 6 1) 6 2
/-- Compute die (R262). -/
def rowDie (r : List Byte) : Nat := fieldAt r 6 1 % 2 ^ 5
/-- First layer (R262). -/
def rowFirst (r : List Byte) : Nat := fieldAt r 8 2
/-- Layers of the stage (R262). -/
def rowLayers (r : List Byte) : Nat := fieldAt r 10 1
/-- Replica (R262). -/
def rowReplica (r : List Byte) : Nat := fieldAt r 11 1
/-- Shard index (R262). -/
def rowShard (r : List Byte) : Nat := fieldAt r 12 1
/-- Shards of the position (R262). -/
def rowCount (r : List Byte) : Nat := fieldAt r 13 1
/-- Accumulation passes (R262). -/
def rowK (r : List Byte) : Nat := fieldAt r 14 2

/-- The valid flume entries among the two-byte entries at the offsets `l` (R262). -/
def rowFlumes (r : List Byte) (l : List Nat) : List Nat :=
  l.filterMap (fun i => let e := fieldAt r i 2
                        if bit e 15 then some (e % 2 ^ 13) else none)

/-- Valid input flumes and ctrl_in (R262). -/
def rowIns (r : List Byte) : List Nat := rowFlumes r [16, 18, 20, 22, 32]
/-- Valid output flumes and ctrl_out (R262). -/
def rowOuts (r : List Byte) : List Nat := rowFlumes r [24, 26, 28, 30, 34]

/-- Cost of a layer-list entry (R263). -/
def layCost (e : List Byte) : F32 := BitVec.ofNat 32 (fieldAt e 0 4)
/-- First norm strip of a layer (R263). -/
def layStrip0 (e : List Byte) : Nat := fieldAt e 4 4
/-- Norm strips of a layer (R263). -/
def layStrips (e : List Byte) : Nat := fieldAt e 24 4

/-- Norm strips of the model. -/
def CutTable.strips (t : CutTable) : Nat := (t.layers.map layStrips).sum

/-- The row of a stage id. -/
def CutTable.row (t : CutTable) (st : Nat) : Option (List Byte) := t.rows[st]?

/-- The row of replica 0 that holds a layer. -/
def CutTable.holder (t : CutTable) (layer : Nat) : Option (List Byte) :=
  t.rows.find? (fun r => decide (rowReplica r = 0 ∧ rowFirst r ≤ layer ∧ layer < rowFirst r + rowLayers r))

/-- The table in force for phase `p` of context `c` (R265). -/
def State.cutTable (s : State) (c p : Nat) : Option CutTable := KMap.find (fun _ => none) s.cutForce (3 * c + p)

/-- The table pending for phase `p` of context `c` (R265). -/
def State.cutPending (s : State) (c p : Nat) : Option CutTable := KMap.find (fun _ => none) s.cutPend (3 * c + p)

/-- Stage count of the context's FWD/BWD table in force, if it has one (R132, R260). -/
def State.stageCount (s : State) (c : Nat) : Option Nat := (s.cutTable c 0).map CutTable.nstages

/-- What S0 keeps of a context's job. -/
def State.job (s : State) (c : Nat) : Job := KMap.find (fun _ => Job.empty) s.jobs c

/-- The job of a context replaced. -/
def State.setJob (s : State) (c : Nat) (j : Job) : State := { s with jobs := KMap.put (fun _ => Job.empty) s.jobs c j }

/-- The job of a context changed. -/
def State.modJob (s : State) (c : Nat) (f : Job → Job) : State := s.setJob c (f (s.job c))

/-- Index of this module in the job of a context (R290). -/
def State.moduleOf (s : State) (c : Nat) : Nat := s.get (R.CUT_CTL.module c)

end Sys2Proof.Machine
end

