-- ==== Sys2Proof/Machine/Flume.lean ====
section
/-! DEFINITION. Machine/Flume.lean: the flume instructions (R136, R253), the schedule write (R252) and what happens to a flume's
records on the way and in storage (R141, R143, R158). -/

namespace Sys2Proof.Machine

/-! ## Phase markers taken and committed (R267, R270) -/

/-- The markers of one side of a stage. -/
def marksOf (m : KMap (List (Nat × Nat))) (k : Nat) : List (Nat × Nat) := KMap.find (fun _ => []) m k

/-- A marker of phase `p` on flume `f` put among those of one side. -/
def withMark (m : KMap (List (Nat × Nat))) (k f p : Nat) : KMap (List (Nat × Nat)) :=
  KMap.put (fun _ => []) m k ((f, p) :: (marksOf m k).filter (fun x => decide (x.1 ≠ f)))

/-- FLM_PHASE is logged at the home of flume `f` when one of the markers is of another phase than `p` (R270, R291). -/
def State.phaseClash (s : State) (k f p : Nat) (l : List (Nat × Nat)) : State :=
  if l.any (fun x => decide (x.2 ≠ p)) then s.raise E.FLM_PHASE (some (s.seqCtx k)) (atLd (ldOfFlume f)) f else s

/-- Marker of phase `p` on flume `f` noted; one of another phase than a marker taken or committed before is FLM_PHASE (R270). -/
def State.noteTaken (s : State) (k f p : Nat) : State :=
  { s with phaseIn := withMark s.phaseIn k f p }.phaseClash k f p (marksOf s.phaseIn k ++ marksOf s.phaseOut k)

/-- Marker of phase `p` committed on flume `f`; one of a phase other than the one taken is FLM_PHASE (R270). -/
def State.noteSent (s : State) (k f p : Nat) : State :=
  { s with phaseOut := withMark s.phaseOut k f p }.phaseClash k f p (marksOf s.phaseIn k)

/-- A sequencer takes the ready record of `f`: HB is written, a phase marker is noted, the payload address comes back
(R136, R143, R199). -/
def State.seqTake (s : State) (k f : Nat) : State × Nat :=
  match (s.flume f).readyHead with
  | none => (s, 0)
  | some r =>
    let s := (s.takeRec k f).toHB k f r.hdr
    let s := if r.hdr.phaseMk then s.noteTaken k f r.hdr.phase else s
    (s, s.slotAddr f r.spill r.slot)

/-! ## Instructions -/

/-- FLM.PUSH (R136, R146, R150). -/
def opFlmPush (k : Nat) (ad : BitVec 4) (o : FlumeOp) : SlotOp :=
  { sR := flumeReads o, aW := [ad.toNat]
    chk := fun s => let f := flumeNum s k o
      (s.flmSeqCheck k f true).orElse (fun _ => s.heldAtOnce f (!s.canPush f))
    wait := fun s => if s.canPush (flumeNum s k o) then 0 else 2
    waitPush := fun s => [flumeNum s k o]
    eff := fun pre s => let r := s.reserve k (flumeNum pre k o)
      r.1.wA k ad (BitVec.ofNat 48 r.2) }

/-- FLM.TRY: fails without a credit, under a gate, or while the flume is HELD; a refused one counts a full-cycle
(R136, R155, R158). -/
def opFlmTry (k : Nat) (ad : BitVec 4) (o : FlumeOp) (pd : BitVec 3) : SlotOp :=
  { sR := flumeReads o, aW := [ad.toNat], pW := [pd.toNat]
    chk := fun s => s.flmSeqCheck k (flumeNum s k o) true
    eff := fun pre s =>
      let f := flumeNum pre k o
      if s.canPush f ∧ s.flmState f = flmOPEN then
        let r := s.reserve k f
        (r.1.wA k ad (BitVec.ofNat 48 r.2)).wP k pd true
      else
        let s := if s.flmState f = flmOPEN then s.count (R.FLM_CNT.full f) 1 else s
        s.wP k pd false }

/-- Payload writes of sequencer `k` to the slot of its oldest reservation that have not completed (R138, R251). -/
def State.payloadPending (s : State) (k f : Nat) : Bool :=
  match (s.flume f).oldestResv k with
  | none => false
  | some r =>
    let a := s.slotAddr f r.spill r.slot
    let b := a + s.get (R.FLM_DESC.rec_size f) * 4096
    (s.seq k).dma.any (fun d => d.dstDev && decide (d.dst < b ∧ a < d.dst + d.len))

/-- The source number of the control lane of an owner's commits (R17, R141). -/
def laneOf (owner : Nat) : Nat := 1024 + owner

/-- FLM.CMT (R136, R138); on a version 1 link a switch marker is refused (R412). -/
def opFlmCmt (k : Nat) (o : FlumeOp) : SlotOp :=
  { sR := flumeReads o
    chk := fun s => let f := flumeNum s k o
      let h := (s.seq k).ob
      (s.flmSeqCheck k f true).orElse (fun _ => firstExc [
        (((s.flume f).oldestResv k).isNone, exc E.FLM_ORDER f),
        (decide (s.get (R.FLM_DESC.rec_size f) * 4096 < h.len), exc E.FLM_REC_LEN f),
        (s.flag (R.FLM_DESC.remote f) && h.switchMk &&
          decide (s.get (R.SKW_LINK.ver (s.get (R.SKW_CHAN.link (s.get (R.FLM_DESC.chan f))))) = 1), exc E.LINK_FEATURE f)])
    wait := fun s => if s.payloadPending k (flumeNum s k o) then 8 else 0
    eff := fun pre s =>
      let f := flumeNum pre k o
      let h := (s.seq k).ob
      let s := (s.sendCommit k f h).sendPkt (laneOf k) 3 (ldOfDie (k / 4)) (ldOfFlume f)
      if h.phaseMk then s.noteSent k f h.phase else s }

/-- An operation that waits for a record to take would take a 17th: it is refused before it waits (R139, R215). -/
def State.holdFull (s : State) (k f : Nat) : Option Exc := if 16 ≤ (s.flume f).heldBy k then some (exc E.FLM_HOLD f) else none

/-- An operation that would take a 17th record is refused; one that finds none ready and does not wait takes none (R139). -/
def State.holdCheck (s : State) (k f : Nat) : Option Exc := if (s.flume f).readyHead.isSome then s.holdFull k f else none

/-- FLM.POP (R136, R139). -/
def opFlmPop (k : Nat) (ad : BitVec 4) (o : FlumeOp) : SlotOp :=
  { sR := flumeReads o, aW := [ad.toNat]
    chk := fun s => let f := flumeNum s k o
      ((s.flmSeqCheck k f false).orElse (fun _ => s.holdFull k f)).orElse
        (fun _ => s.heldAtOnce f (s.flume f).readyHead.isNone)
    wait := fun s => if (s.flume (flumeNum s k o)).readyHead.isSome then 0 else 3
    waitPop := fun s => [flumeNum s k o]
    eff := fun pre s => let r := s.seqTake k (flumeNum pre k o)
      r.1.wA k ad (BitVec.ofNat 48 r.2) }

/-- FLM.TPOP: fails when nothing is ready, or while the flume is HELD (R136, R158); a failure leaves HB (R199). -/
def opFlmTpop (k : Nat) (ad : BitVec 4) (o : FlumeOp) (pd : BitVec 3) : SlotOp :=
  { sR := flumeReads o, aW := [ad.toNat], pW := [pd.toNat]
    chk := fun s => let f := flumeNum s k o
      (s.flmSeqCheck k f false).orElse (fun _ => if s.flmState f = flmOPEN then s.holdCheck k f else none)
    eff := fun pre s =>
      let f := flumeNum pre k o
      if (s.flume f).readyHead.isSome ∧ s.flmState f = flmOPEN then
        let r := s.seqTake k f
        (r.1.wA k ad (BitVec.ofNat 48 r.2)).wP k pd true
      else s.wP k pd false }

/-- FLM.NEXT (R152, R153, R166). Mode 3 is reserved and is refused as mode 0 is (DESIGN CHOICE, log entry 119). -/
def opFlmNext (k : Nat) (ad : BitVec 4) (pd : BitVec 3) : SlotOp :=
  { aW := [ad.toNat], pW := [pd.toNat]
    chk := fun s =>
      let m := s.get (R.SCHED_CTL.mode (k / 4) (k % 4))
      if m = 0 ∨ m = 3 then some (exc E.FLM_SCHED_ORDER 0)
      else match s.pick k with
        | .order f => (s.flmSeqCheck k f false).orElse (fun _ => some (exc E.FLM_SCHED_ORDER f))
        | .take f _ _ => (s.flmSeqCheck k f false).orElse (fun _ => s.holdCheck k f)
        | .waitOn f => if m = 1 then (s.flmSeqCheck k f false).orElse (fun _ => (s.holdFull k f).orElse (fun _ => s.heldAtOnce f true))
            else (s.inFlumes k).findSome? (fun f => s.heldAtOnce f true)
        | _ => none
    wait := fun s => match s.pick k with
      | .waitOn _ => 3
      | .endless => 3
      | _ => 0
    waitPop := fun s => match s.pick k with
      | .waitOn f => if f < 8192 then [f] else s.inFlumes k
      | _ => []
    eff := fun pre s =>
      let n := k / 4
      let q := k % 4
      match pre.pick k with
      | .finished ptr round =>
        let s := (s.put (R.SCHED_CTL.ptr n q) ptr).put (R.SCHED_ROUND.round n q) round
        (s.modSeq k (fun x => { x with stepEnded := true, loadedNoNext := false })).wP k pd false
      | .take f ptr round =>
        let s := (s.put (R.SCHED_CTL.ptr n q) ptr).put (R.SCHED_ROUND.round n q) round
        let s := s.modSeq k (fun x => { x with stepEnded := false, loadedNoNext := false })
        let r := s.seqTake k f
        (r.1.wA k ad (BitVec.ofNat 48 r.2)).wP k pd true
      | _ => s }

/-- FLM.REL (R136). -/
def opFlmRel (k : Nat) (o : FlumeOp) : SlotOp :=
  { sR := flumeReads o
    chk := fun s => let f := flumeNum s k o
      (s.flmSeqCheck k f false).orElse (fun _ => firstExc [(((s.flume f).oldestHeld k).isNone, exc E.FLM_ORDER f)])
    eff := fun pre s => s.releaseRec k (flumeNum pre k o) }

/-- When a schedule register of a sequencer may be written (R154). -/
def State.schedOpen (s : State) (k : Nat) : Bool :=
  let st := s.seqState k
  decide (st = seqUNBOUND ∨ st = seqHALTED ∨ st = seqFAULTED) || decide (s.get (R.SCHED_CTL.mode (k / 4) (k % 4)) = 0)
  || (s.seq k).stepEnded || (s.seq k).loadedNoNext

/-- SCH.W (R252). -/
def opSchW (k : Nat) (sel : BitVec 3) (rs : BitVec 5) (idx : BitVec 8) : SlotOp :=
  { sR := [rs.toNat]
    free := fun _ => if 5 ≤ sel.toNat then some (exc E.SEQ_OPERAND 0) else none
    chk := fun _ => if 5 ≤ sel.toNat then some (exc E.SEQ_OPERAND 0) else none
    eff := fun pre s =>
      let n := k / 4
      let q := k % 4
      let v := (pre.s k rs).toNat
      if s.schedOpen k then
        match sel.toNat with
        | 0 => s.put (R.SCHED_BASE.base n q) v
        | 1 => s.put (R.SCHED_COUNT.count n q) v
        | 2 => s.puts [(R.SCHED_CTL.stride n q, bits v 24 8), (R.SCHED_CTL.last n q, bits v 16 8),
                       (R.SCHED_CTL.mode n q, bits v 0 2), (R.SCHED_CTL.ptr n q, 0)]
        | 3 => s.put (R.SCHED_ROUND.round n q) v
        | 4 => s.puts [(R.SCHED_ENT.flume n q idx.toNat, bits v 16 13), (R.SCHED_ENT.offset n q idx.toNat, bits v 0 16)]
        | _ => s
      else s.raise E.CFG_RANGE (some (s.seqCtx k)) (atDie n) sel.toNat }

/-! ## Happenings on the way and in storage -/

/-- The 64 bytes of a record header (R134). -/
def Hdr.bytes (h : Hdr) : List Byte :=
  [1, BitVec.ofNat 8 (b2n h.last + 2 * b2n h.poison + 4 * b2n h.switchMk + 8 * b2n h.phaseMk + 16 * b2n h.redeliv),
   BitVec.ofNat 8 (4 * h.phase + h.slot), 0]
  ++ leBytes 4 h.mb ++ leBytes 6 h.step ++ leBytes 2 h.group ++ leBytes 4 h.gen ++ leBytes 2 h.variant ++ leBytes 2 h.prod
  ++ leBytes 4 h.seqOff ++ leBytes 4 h.len ++ leBytes 4 h.rseq ++ List.replicate 28 0

/-- The header that 64 bytes hold, as a little-endian number (R134). -/
def Hdr.ofNat (n : Nat) : Hdr :=
  { last := bit n 8, poison := bit n 9, switchMk := bit n 10, phaseMk := bit n 11, redeliv := bit n 12, phase := bits n 18 2,
    slot := bits n 16 2, mb := bits n 32 32, step := bits n 64 48, group := bits n 112 16, gen := bits n 128 32,
    variant := bits n 160 12, prod := bits n 176 12, seqOff := bits n 192 20, len := bits n 224 32, rseq := bits n 256 32 }

/-- A remote record as one HDR frame and ceil(len / 248) DATA frames on its channel's link (R406); the payload is read from its slot, with the errors
that the read finds (R384, R385). -/
def State.recFrames (s : State) (f : Nat) (r : FlmRec) : State :=
  let ch := s.get (R.FLM_DESC.chan f)
  let k := s.get (R.SKW_CHAN.link ch)
  let peer := s.get (R.SKW_CHAN.peer ch)
  let a := s.slotAddr f r.spill r.slot
  let s := s.noteRead (some (s.get (R.FLM_DESC.ctx f))) a r.hdr.len
  let s := s.skwSend k 2 ftHDR (peer :: r.hdr.bytes.map BitVec.toNat)
  (List.range (ceilDiv r.hdr.len 248)).foldl
    (fun s i => s.skwSend k 2 ftDATA (peer :: (s.bytes (a + 248 * i) (min 248 (r.hdr.len - 248 * i))).map BitVec.toNat)) s

/-- The open exchange of a channel as this end sends it: its own channel number, direction, depth, record size and pair, the next rseq it expects and
the records it holds, by which the ends reconcile (R148, R149, R405; log entry 62). -/
def State.openMsg (s : State) (f : Nat) (m : Ctrl) : State :=
  let ch := s.get (R.FLM_DESC.chan f)
  s.skwCtrl (s.get (R.SKW_CHAN.link ch)) m
    [s.get (R.SKW_CHAN.peer ch), ch, s.get (R.FLM_DESC.dir f), s.get (R.FLM_DESC.depth f), s.get (R.FLM_DESC.rec_size f),
     s.get (R.FLM_DESC.pair f), (s.flume f).expect, (s.flume f).recs.length]

/-- Sends the remote records that are committed at the producer end with none uncommitted ahead of them, as HDR and DATA frames (R137, R148,
R406); those of a consumer end are ready and stay. -/
def State.sendRemote (s : State) (f : Nat) : State :=
  let x := s.flume f
  if s.flag (R.FLM_DESC.remote f) then
    let go := x.front.filter (fun r => !r.ready)
    if go.isEmpty then s
    else
      let s := s.setFlm f { x with recs := x.front.filter (fun r => r.ready) ++ x.back, staged := x.staged ++ go }
      if s.flmState f = flmOPEN then go.foldl (fun s r => s.recFrames f r) s else s
  else s

/-- The landing die at which the commits of an owner set out: the owner is a sequencer, a site or a host ring (R12, R17, R23). -/
def ldOfOwner (owner f : Nat) : Nat :=
  if owner < 96 then ldOfDie (owner / 4) else if owner < 256 then ldOfSite (owner - 160) else ldOfSteward 0 (ldOfFlume f)

/-- FLM_COMMIT_ARRIVAL (R17, R141). A record whose commit was sent becomes committed; a remote one is sent on. -/
def execFlmCommitArrival (f : Fin 8192) (s : State) : Result :=
  let f := f.val
  let s := match (s.flume f).recs.find? (fun r => r.sent && !r.cmt) with
    | some r => s.ackPkt (laneOf r.owner) 3 (ldOfOwner r.owner f) (ldOfFlume f)
    | none => s
  .next ((s.arriveCommit f).sendRemote f)

/-- FLM_READY_NOTICE (R141). -/
def execFlmReadyNotice (f : Fin 8192) (s : State) : Result :=
  let x := s.flume f.val
  .next (s.setFlm f.val { x with recs := readyFirst x.recs })

/-- FLM_CREDIT_RETURN: a credit on its way reaches the producer's end (R141, R146). -/
def execFlmCreditReturn (f : Fin 8192) (s : State) : Result :=
  let x := s.flume f.val
  .next (if 0 < x.ret then s.setFlm f.val { x with ret := x.ret - 1, out := x.out - 1 } else s)

/-- The oldest committed spilled record that nobody holds (R143). -/
def Flume.oldestSpilled (x : Flume) : Option FlmRec := x.recs.find? (fun r => r.cmt && r.spill && !r.held)

/-- FLM_SPILL_COPY: with a flume-store slot free and a committed record spilled, its copy begins (R143). -/
def execFlmSpillCopy (f : Fin 8192) (s : State) : Result :=
  let x := s.flume f.val
  .next (match x.oldestSpilled, s.freeSlot f.val, x.copy with
    | some r, some (false, i), none => s.setFlm f.val { x with copy := some (r.hdr.rseq, i) }
    | _, _, _ => s)

/-- FLM_SPILL_COPY_DONE: the payload lies in the flume store and the spill slot is free (R143); the read of the spill slot corrects and logs what it
finds (R384, R385), and bad units travel with the data (R385). -/
def execFlmSpillCopyDone (f : Fin 8192) (s : State) : Result :=
  let x := s.flume f.val
  .next (match x.copy with
    | none => s
    | some (q, i) =>
      match x.recs.find? (fun r => r.cmt && r.spill && !r.held && decide (r.hdr.rseq = q)) with
      | none => s.setFlm f.val { x with copy := none }
      | some r =>
        let n := s.get (R.FLM_DESC.rec_size f.val) * 64
        let s := s.noteRead (some (s.get (R.FLM_DESC.ctx f.val))) (s.slotAddr f.val true r.slot) (64 * n)
        let s := State.copyGranules n s (s.slotAddr f.val true r.slot) (s.slotAddr f.val false i)
        let recs := modFirst (fun r => r.cmt && r.spill && !r.held && decide (r.hdr.rseq = q))
          (fun r => { r with spill := false, slot := i }) x.recs
        s.setFlm f.val { x with recs := recs, copy := none })

/-- FLM_CMD clear, and the ownerless clear of a flume's counters (R165); dropped while the flume's home half is in reset (R25). -/
def execFlmCmdClear (f : Fin 8192) (s : State) : Result :=
  .next (s.gated 0x0370_0008 (if s.halfInReset (halfOfFlume f.val) then s.raise E.LINK_HALF_DOWN none (atEntry (ldOfFlume f.val)) f.val else s.puts [(R.FLM_CNT.full f.val, 0), (R.FLM_CNT.empty f.val, 0), (R.FLM_CNT.spill f.val, 0),
                 (R.FLM_CNT.poison f.val, 0), (R.FLM_CNT.discard f.val, 0), (R.FLM_CNT.records f.val, 0)]))

/-- The two regions of a flume, as address and length (R145). -/
def State.flmRegions (s : State) (f : Nat) : List (Nat × Nat) :=
  let g := s.get (R.FLM_DESC.rec_size f) * 4096
  [(s.get (R.FLM_DESC.store_base f), s.get (R.FLM_DESC.store_slots f) * g), (s.get (R.FLM_DESC.spill_base f), s.get (R.FLM_DESC.spill_lim f) * g)]

/-- The channel of a flume's remote end; a closing flume keeps the one it had (R162). -/
def State.flmChan (s : State) (f : Nat) : Option Nat :=
  if s.flmState f = flmCLOSING ∨ s.flmState f = flmZEROING then (s.flume f).was
  else if s.flag (R.FLM_DESC.remote f) then some (s.get (R.FLM_DESC.chan f)) else none

/-- Closing a flume: every reservation and record is discarded and counted, and a remote end is told (R162). -/
def State.closeFlume (s : State) (f : Nat) : State :=
  if s.flmState f = flmOPEN ∨ s.flmState f = flmHELD then
    let x := s.flume f
    let ch := s.flmChan f
    let zero := s.flmRegions f
    let s := s.count (R.FLM_CNT.discard f) (x.recs.length + x.staged.length)
    let s := s.put (R.FLM_STAT.state f) flmCLOSING
    let s := s.setFlm f { x with recs := [], staged := [], copy := none, ret := 0, peerAck := ch.isNone, was := ch, zero := zero }
    match ch with
    | some c => s.skwCtrl (s.get (R.SKW_CHAN.link c)) .close [s.get (R.SKW_CHAN.peer c)]
    | none => s
  else s

/-- FLM_CMD close (R162, R165); dropped while the flume's home half is in reset (R25). -/
def execFlmCmdClose (f : Fin 8192) (s : State) : Result :=
  .next (s.gated 0x0370_0008 (if s.halfInReset (halfOfFlume f.val) then s.raise E.LINK_HALF_DOWN none (atEntry (ldOfFlume f.val)) f.val
    else s.closeFlume f.val))

/-- FLM_CLOSE_DONE: everything is discarded and the peer has acknowledged, or its link is down (R158). -/
def execFlmCloseDone (f : Fin 8192) (s : State) : Result :=
  let x := s.flume f.val
  .next (if s.flmState f.val = flmCLOSING ∧ (x.peerAck ∨ x.linkDown) then s.put (R.FLM_STAT.state f.val) flmZEROING else s)

/-- Zeros written over `n` bytes from `a` through the write path (R158, R482): bad units covered whole are cleared (R386). The ranges the
spec zeroes are aligned to 4 KiB, so they cover every unit whole. -/
def State.wipe (s : State) (a n : Nat) : State :=
  { s with mem := KMap.dropRange s.mem a (a + n)
           bad := s.bad.filter (fun u => !coversUnit a n u)
           linkErr := s.linkErr.filter (fun u => !coversUnit a n u)
           soft := s.soft.filter (fun u => decide (u < a ∨ a + n ≤ u))
           plist := s.plist.filter (fun u => !coversUnit a n u) }

/-- Both regions of a closing flume zeroed (R158). -/
def State.wipeFlume (s : State) (f : Nat) : State := (s.flume f).zero.foldl (fun s r => s.wipe r.1 r.2) s

/-- A flume back to UNBOUND with its descriptor at reset values; the counters are kept (R131, R158). FLM_STAT and FLM_SEQ go back to 0 with it,
which the spec does not say (DESIGN CHOICE, log entry 120). -/
def State.unbindFlume (s : State) (f : Nat) : State :=
  let s := s.regReset (0x0300_0000 + 64 * f) (0x0300_0000 + 64 * f + 64)
  let s := s.regReset (0x0308_0000 + 16 * f) (0x0308_0000 + 16 * f + 16)
  s.setFlume f { Flume.empty with was := (s.flume f).was }

/-! ## The descriptor commit (R132, R158) -/

/-- The staged fields of a descriptor. -/
def flmGroup (f : Nat) : List Fld :=
  [R.FLM_DESC.en f, R.FLM_DESC.dir f, R.FLM_DESC.remote f, R.FLM_DESC.bal_pin f, R.FLM_DESC.prod f, R.FLM_DESC.cons f,
   R.FLM_DESC.depth f, R.FLM_DESC.rec_size f, R.FLM_DESC.ctx f, R.FLM_DESC.pair_en f, R.FLM_DESC.pair f,
   R.FLM_DESC.floor f, R.FLM_DESC.store_base f, R.FLM_DESC.store_slots f, R.FLM_DESC.spill_lim f, R.FLM_DESC.hiwm f,
   R.FLM_DESC.lowm f, R.FLM_DESC.spill_base f, R.FLM_DESC.chan f]

/-- True when the flume holds a record, a reservation or an outstanding credit (R132). -/
def Flume.busy (x : Flume) : Bool := !x.recs.isEmpty || decide (0 < x.out) || !x.staged.isEmpty

/-- The CFG_COMMIT causes of R132 for a shadow descriptor with en = 1. A base that is not 4 KiB aligned (R131) is refused too, and the stage
numbers are not checked while the context has no cut table in force: the spec says neither (DESIGN CHOICE, log entry 114). -/
def State.flmDescBad (s : State) (f : Nat) : Bool :=
  let g := fun x => s.sget x
  let depth := g (R.FLM_DESC.depth f)
  let rs := g (R.FLM_DESC.rec_size f) * 4096
  let c := g (R.FLM_DESC.ctx f)
  let ss := g (R.FLM_DESC.store_slots f)
  let sl := g (R.FLM_DESC.spill_lim f)
  let sb := g (R.FLM_DESC.store_base f)
  let pb := g (R.FLM_DESC.spill_base f)
  let fb := flumeBase (ldOfFlume f)
  let x := s.flume f
  let st := s.flmState f
  let stageBad := fun v => match s.stageCount c with
    | some n => decide (n ≤ v)
    | none => false
  decide (4096 < depth) || decide (16384 < g (R.FLM_DESC.rec_size f)) || decide (g (R.FLM_DESC.dir f) = 3)
  || stageBad (g (R.FLM_DESC.prod f)) || stageBad (g (R.FLM_DESC.cons f))
  || decide (ss + sl < depth) || decide (g (R.FLM_DESC.hiwm f) < g (R.FLM_DESC.lowm f))
  || decide (depth < g (R.FLM_DESC.hiwm f))
  || (decide (g (R.FLM_DESC.floor f) ≠ 0) && !(decide (g (R.FLM_DESC.pair_en f) = 1 ∧ g (R.FLM_DESC.dir f) = 0)))
  || decide (g (R.FLM_DESC.floor f) ≠ 0 ∧ depth ≤ g (R.FLM_DESC.floor f))
  || (decide (0 < ss) && !(decide (fb ≤ sb ∧ sb + ss * rs ≤ fb + 0x1800_0000 ∧ sb % 4096 = 0)))
  || (decide (0 < ss) && !(s.permits c sb (ss * rs) true && s.permits c sb (ss * rs) false))
  || (decide (0 < sl) && !(s.permits c pb (sl * rs) true && s.permits c pb (sl * rs) false && decide (pb % 4096 = 0)))
  || (decide (g (R.FLM_DESC.remote f) = 1) &&
      !(s.flag (R.SKW_CHAN.en (g (R.FLM_DESC.chan f))) && decide (s.get (R.SKW_CHAN.ctx (g (R.FLM_DESC.chan f))) = c)))
  || (decide (st = flmOPEN ∨ st = flmHELD) && x.busy &&
      (flmGroup f).any (fun fl => decide (fl ≠ R.FLM_DESC.hiwm f ∧ fl ≠ R.FLM_DESC.lowm f) && decide (s.sget fl ≠ s.get fl)))
  || decide (st = flmCLOSING ∨ st = flmZEROING)

/-- The payload ranges of a staged descriptor, for writes and for reads (R132, R480). -/
def State.flmRanges (s : State) (f : Nat) : List (Nat × Nat × Bool) :=
  let rs := s.sget (R.FLM_DESC.rec_size f) * 4096
  [(R.FLM_DESC.store_slots f, R.FLM_DESC.store_base f), (R.FLM_DESC.spill_lim f, R.FLM_DESC.spill_base f)].flatMap (fun x =>
    if s.sget x.1 = 0 then [] else [(s.sget x.2, s.sget x.1 * rs, true), (s.sget x.2, s.sget x.1 * rs, false)])

/-- A flume just bound: OPEN, or HELD while a remote flume's channel opens (R148, R158). -/
def State.openFlume (s : State) (f : Nat) : State :=
  let rem := s.flag (R.FLM_DESC.remote f)
  let s := s.put (R.FLM_STAT.state f) (if rem then flmHELD else flmOPEN)
  let s := s.puts [(R.FLM_SEQ.next_cmt f, 0), (R.FLM_SEQ.next_pop f, 0)]
  let up := s.skwUp (s.get (R.SKW_CHAN.link (s.get (R.FLM_DESC.chan f))))
  let s := s.setFlume f { Flume.empty with heldSince := s.now, linkDown := rem && !up, opening := rem }
  if rem then s.openMsg f .openReq else s

/-- FLM_COMMIT (R132, R158, R165, R440, R480): refused with CFG_ZERO or CFG_COMMIT, or applied. A first binding sets the flume OPEN, or
HELD while a remote flume's channel opens; en = 0 closes the flume with the descriptor it had and commits the whole group. -/
def execFlmCommit (f : Fin 8192) (s : State) : Result :=
  let f := f.val
  let res := fun (s : State) r => s.puts [(R.FLM_CSTAT.result, r), (R.FLM_CSTAT.flume, f)]
  let c := s.sget (R.FLM_DESC.ctx f)
  .next (s.gated 0x0370_0000 (
    if s.halfInReset (halfOfFlume f) then s.raise E.LINK_HALF_DOWN none (atEntry (ldOfFlume f)) f
    else if s.flag R.FLM_CSTAT.busy then s.cfgRange none f
    else if s.leaving c then res (s.raise E.CFG_COMMIT (some c) (atLd (ldOfFlume f)) f) 3
    else if s.sget (R.FLM_DESC.en f) = 0 then res ((s.closeFlume f).commit (flmGroup f)) 1
    else if s.sget (R.FLM_DESC.depth f) = 0 ∨ s.sget (R.FLM_DESC.rec_size f) = 0 then
      res (s.raise E.CFG_ZERO (some c) (atLd (ldOfFlume f)) f) 2
    else if s.flmDescBad f then res ((s.permNote s.entryLd c (s.flmRanges f)).raise E.CFG_COMMIT (some c) (atLd (ldOfFlume f)) f) 3
    else
      let fresh := decide (s.flmState f = flmUNBOUND)
      let s := s.commit (flmGroup f)
      let s := if fresh then s.openFlume f else s
      res (s.flmSync f) 1))

end Sys2Proof.Machine
end

