-- ==== Sys2Proof/Machine/Control.lean ====
section
/-! DEFINITION. Machine/Control.lean: the control instructions, legal in slot 0 (R214, R216, R218, R222, R231 to R233). -/

namespace Sys2Proof.Machine

/-- An empty slot (R206). -/
def opNop : SlotOp := { slots := [0, 1, 2, 3] }

/-- A target beyond the image (R214). -/
def pcExc (s : State) (k t : Nat) : Bool × Exc := (decide (s.nbundles k ≤ t), exc E.SEQ_PC t)

def opBr (k : Nat) (target : BitVec 14) : SlotOp :=
  { slots := [0], chk := fun s => firstExc [pcExc s k target.toNat], ctl := fun _ => .branch target.toNat }

def opBrS (k : Nat) (rs : BitVec 5) : SlotOp :=
  { slots := [0], sR := [rs.toNat]
    chk := fun s => firstExc [pcExc s k ((s.s k rs).toNat % 2 ^ 14)]
    ctl := fun s => .branch ((s.s k rs).toNat % 2 ^ 14) }

/-- CALL pushes the index of the next bundle; a 17th push is SEQ_STACK (R214). -/
def opCall (k : Nat) (target : BitVec 14) : SlotOp :=
  { slots := [0]
    chk := fun s => firstExc [pcExc s k target.toNat,
      (decide (16 ≤ (s.seq k).calls.length), exc E.SEQ_STACK (s.seq k).calls.length)]
    eff := fun pre s => s.modSeq k (fun x => { x with calls := (pre.pc k + 1) :: x.calls })
    ctl := fun _ => .jump target.toNat }

/-- RET pops an index; an empty stack is SEQ_STACK (R214). -/
def opRet (k : Nat) : SlotOp :=
  { slots := [0]
    chk := fun s => match (s.seq k).calls with
      | [] => some (exc E.SEQ_STACK 0)
      | t :: _ => firstExc [pcExc s k t]
    eff := fun _ s => s.modSeq k (fun x => { x with calls := x.calls.drop 1 })
    ctl := fun s => .jump ((s.seq k).calls.headD 0) }

/-- LOOP (R214, R232): a count of 0 skips the body and opens no level. -/
def opLoop (k : Nat) (rs : BitVec 5) (last : BitVec 14) : SlotOp :=
  { slots := [0], sR := [rs.toNat]
    free := fun s => firstExc [(decide (last.toNat ≤ s.pc k ∨ s.nbundles k ≤ last.toNat), exc E.SEQ_PC last.toNat)]
    chk := fun s =>
      let n := (s.s k rs).toNat % 2 ^ 32
      firstExc [(decide (last.toNat ≤ s.pc k ∨ s.nbundles k ≤ last.toNat), exc E.SEQ_PC last.toNat),
                (decide (n ≠ 0 ∧ 4 ≤ (s.seq k).loops.length), exc E.SEQ_LOOP n)]
    ctl := fun s => .loop ((s.s k rs).toNat % 2 ^ 32) last.toNat }

def opHalt : SlotOp := { slots := [0], ctl := fun _ => .halt }

/-- TRAP.RET (R222). -/
def opTrapRet (k : Nat) (mode : Bool) : SlotOp :=
  { slots := [0]
    chk := fun s => if s.flag (R.SEQ_STAT.in_trap (k / 4) (k % 4)) then none else some (exc E.SEQ_OPERAND 0)
    eff := fun _ s => s.put (R.SEQ_STAT.in_trap (k / 4) (k % 4)) 0
    ctl := fun s => .trapRet ((s.seq k).epc + b2n mode) }

/-- EVT.SIG to a sequencer of the same die; above 65,535 it is SEQ_EVT and changes nothing (R216). -/
def opEvtSig (k : Nat) (tq : BitVec 2) (e : BitVec 3) (n : BitVec 16) : SlotOp :=
  let t := k / 4 * 4 + tq.toNat
  { slots := [0]
    chk := fun s => if 65535 < (s.seq t).evc e.toNat + n.toNat then some (exc E.SEQ_EVT (tq.toNat * 256 + e.toNat)) else none
    eff := fun _ s => s.modSeq t (fun x => x.setEv e.toNat (x.evc e.toNat + n.toNat)) }

/-- EVT.WAIT (R216). -/
def opEvtWait (k : Nat) (e : BitVec 3) (n : BitVec 16) : SlotOp :=
  { slots := [0]
    wait := fun s => if (s.seq k).evc e.toNat < n.toNat then 9 else 0
    eff := fun _ s => s.modSeq k (fun x => x.setEv e.toNat (x.evc e.toNat - n.toNat)) }

/-- The entry that WCH.SET writes (R218). -/
def watchOf (kind f e : Nat) : Watch :=
  match kind with
  | 0 => .off
  | 1 => .record f
  | 2 => .credit f
  | _ => .event e

/-- WCH.SET: a flume entry passes the checks of R140 first (R218). -/
def opWchSet (k : Nat) (idx : BitVec 3) (kind : BitVec 2) (o : FlumeOp) (e : BitVec 3) : SlotOp :=
  { slots := [0], sR := if kind = 1 ∨ kind = 2 then flumeReads o else []
    chk := fun s =>
      if kind = 1 then s.flmSeqCheck k (flumeNum s k o) false
      else if kind = 2 then s.flmSeqCheck k (flumeNum s k o) true
      else none
    eff := fun pre s =>
      let w := watchOf kind.toNat (flumeNum pre k o) e.toNat
      s.modSeq k (fun x => { x with watch := KMap.put (fun _ => Watch.off) x.watch idx.toNat w }) }

/-- True when a watch entry holds (R218). -/
def State.watchHolds (s : State) (k : Nat) : Watch → Bool
  | .off => false
  | .record f => (s.flume f).readyHead.isSome
  | .credit f => s.canPush f
  | .event e => decide (0 < (s.seq k).evc e)

/-- The lowest watch entry that holds. -/
def State.watchFirst (s : State) (k : Nat) : Option Nat :=
  (List.range 8).find? (fun i => s.watchHolds k ((s.seq k).watchAt i))

/-- WAIT.ANY: with every entry off it is SEQ_OPERAND (R218). -/
def opWaitAny (k : Nat) (sd : BitVec 5) : SlotOp :=
  { slots := [0], sW := [sd.toNat]
    chk := fun s => if (List.range 8).all (fun i => decide ((s.seq k).watchAt i = Watch.off)) then some (exc E.SEQ_OPERAND 0)
      else none
    wait := fun s => if (s.watchFirst k).isSome then 0 else 10
    eff := fun pre s => s.wS k sd (BitVec.ofNat 64 ((pre.watchFirst k).getD 0)) }

/-- Array instructions of sequencer `k` are in flight or queued (R233). -/
def State.arraysBusy (s : State) (k : Nat) : Bool :=
  (List.range 8).any (fun a => (s.arr (k / 4) a).ops.any (fun o => decide (o.seq = k)))

/-- Chains or table loads of sequencer `k` are not complete (R233). -/
def State.glazeBusy (s : State) (k : Nat) : Bool :=
  let g := s.glz (k / 4) (k % 4 / 2)
  (g.queue ++ g.run).any (fun i => decide (i.seq = k))

/-- The sap line runs a SAP.MV of sequencer `k`. -/
def State.sapBusy (s : State) (k : Nat) : Bool :=
  match (s.sap (k / 4)).op with
  | some o => decide (o.seq = k)
  | none => false

/-- WAIT.IDLE: the wait code is that of the first incomplete kind (R233). -/
def opWaitIdle (k : Nat) (arrays glaze sap dma : Bool) : SlotOp :=
  { slots := [0]
    wait := fun s =>
      if arrays && s.arraysBusy k then 5
      else if glaze && s.glazeBusy k then 6
      else if sap && s.sapBusy k then 7
      else if dma && !(s.seq k).dma.isEmpty then 8
      else 0 }

end Sys2Proof.Machine
end

