-- ==== Sys2Proof/Machine/Scalar.lean ====
section
/-! DEFINITION. Machine/Scalar.lean: the scalar and address instructions (R234). Each is legal in slots 0 and 3. -/

namespace Sys2Proof.Machine

/-- Form R: rd from ra and rb. -/
def formR (k : Nat) (rd ra rb : BitVec 5) (f : Word → Word → Word) : SlotOp :=
  { slots := [0, 3], sR := [ra.toNat, rb.toNat], sW := [rd.toNat]
    eff := fun pre s => s.wS k rd (f (pre.s k ra) (pre.s k rb)) }

/-- Form I: rd from ra and the sign-extended immediate (R229). -/
def formI (k : Nat) (rd ra : BitVec 5) (imm : BitVec 32) (f : Word → Word → Word) : SlotOp :=
  { slots := [0, 3], sR := [ra.toNat], sW := [rd.toNat]
    eff := fun pre s => s.wS k rd (f (pre.s k ra) (imm.signExtend 64)) }

/-- The value of a compare's second operand. -/
def cmpVal (pre : State) (k : Nat) : CmpOp → Word
  | .reg rb => pre.s k rb
  | .imm v => v.signExtend 64

/-- The scalar a compare's second operand reads. -/
def cmpReads : CmpOp → List Nat
  | .reg rb => [rb.toNat]
  | .imm _ => []

/-- Form C: pd from a comparison. -/
def formC (k : Nat) (pd : BitVec 3) (ra : BitVec 5) (o : CmpOp) (f : Word → Word → Bool) : SlotOp :=
  { slots := [0, 3], sR := ra.toNat :: cmpReads o, pW := [pd.toNat]
    eff := fun pre s => s.wP k pd (f (pre.s k ra) (cmpVal pre k o)) }

def opAdd (k : Nat) (rd ra rb : BitVec 5) : SlotOp := formR k rd ra rb (fun a b => a + b)
def opSub (k : Nat) (rd ra rb : BitVec 5) : SlotOp := formR k rd ra rb (fun a b => a - b)
def opAnd (k : Nat) (rd ra rb : BitVec 5) : SlotOp := formR k rd ra rb (fun a b => a &&& b)
def opOr (k : Nat) (rd ra rb : BitVec 5) : SlotOp := formR k rd ra rb (fun a b => a ||| b)
def opXor (k : Nat) (rd ra rb : BitVec 5) : SlotOp := formR k rd ra rb (fun a b => a ^^^ b)
/-- Shifts use bits [5:0] of the count. -/
def opShl (k : Nat) (rd ra rb : BitVec 5) : SlotOp := formR k rd ra rb (fun a b => a <<< (b.toNat % 64))
def opShr (k : Nat) (rd ra rb : BitVec 5) : SlotOp := formR k rd ra rb (fun a b => a >>> (b.toNat % 64))
def opSra (k : Nat) (rd ra rb : BitVec 5) : SlotOp := formR k rd ra rb (fun a b => a.sshiftRight (b.toNat % 64))
def opMul (k : Nat) (rd ra rb : BitVec 5) : SlotOp := formR k rd ra rb (fun a b => a * b)
def opMin (k : Nat) (rd ra rb : BitVec 5) : SlotOp := formR k rd ra rb (fun a b => if a.slt b then a else b)
def opMax (k : Nat) (rd ra rb : BitVec 5) : SlotOp := formR k rd ra rb (fun a b => if a.slt b then b else a)
def opAddi (k : Nat) (rd ra : BitVec 5) (imm : BitVec 32) : SlotOp := formI k rd ra imm (fun a b => a + b)
def opAndi (k : Nat) (rd ra : BitVec 5) (imm : BitVec 32) : SlotOp := formI k rd ra imm (fun a b => a &&& b)

def opMovi (k : Nat) (rd : BitVec 5) (imm : BitVec 32) : SlotOp :=
  { slots := [0, 3], sW := [rd.toNat], eff := fun _ s => s.wS k rd (imm.signExtend 64) }

/-- rd[63:32] = imm32, rd[31:0] kept. -/
def opMovhi (k : Nat) (rd : BitVec 5) (imm : BitVec 32) : SlotOp :=
  { slots := [0, 3], sR := [rd.toNat], sW := [rd.toNat]
    eff := fun pre s => s.wS k rd (imm ++ (pre.s k rd).extractLsb' 0 32) }

def opCmpEq (k : Nat) (pd : BitVec 3) (ra : BitVec 5) (o : CmpOp) : SlotOp := formC k pd ra o (fun a b => a == b)
def opCmpNe (k : Nat) (pd : BitVec 3) (ra : BitVec 5) (o : CmpOp) : SlotOp := formC k pd ra o (fun a b => a != b)
def opCmpLt (k : Nat) (pd : BitVec 3) (ra : BitVec 5) (o : CmpOp) : SlotOp := formC k pd ra o (fun a b => a.slt b)
def opCmpLtu (k : Nat) (pd : BitVec 3) (ra : BitVec 5) (o : CmpOp) : SlotOp := formC k pd ra o (fun a b => a.ult b)
def opCmpLe (k : Nat) (pd : BitVec 3) (ra : BitVec 5) (o : CmpOp) : SlotOp := formC k pd ra o (fun a b => a.sle b)
def opCmpLeu (k : Nat) (pd : BitVec 3) (ra : BitVec 5) (o : CmpOp) : SlotOp := formC k pd ra o (fun a b => a.ule b)

def opTst (k : Nat) (pd : BitVec 3) (ra : BitVec 5) (b : BitVec 6) : SlotOp :=
  { slots := [0, 3], sR := [ra.toNat], pW := [pd.toNat]
    eff := fun pre s => s.wP k pd ((pre.s k ra).getLsbD b.toNat) }

/-- PLOG with op 3 raises SEQ_OPERAND. -/
def opPlog (k : Nat) (pd pa pb : BitVec 3) (na nb : Bool) (op : BitVec 2) : SlotOp :=
  { slots := [0, 3], pW := [pd.toNat]
    chk := fun _ => if op = 3 then some (exc E.SEQ_OPERAND 0) else none
    eff := fun pre s =>
      let a := pre.p k pa != na
      let b := pre.p k pb != nb
      s.wP k pd (if op = 0 then a && b else if op = 1 then a || b else a != b) }

def opMovA (k : Nat) (ad : BitVec 4) (rs : BitVec 5) : SlotOp :=
  { slots := [0, 3], sR := [rs.toNat], aW := [ad.toNat], eff := fun pre s => s.wA k ad ((pre.s k rs).setWidth 48) }

def opMovS (k : Nat) (rd : BitVec 5) (ab : BitVec 4) : SlotOp :=
  { slots := [0, 3], sW := [rd.toNat], eff := fun pre s => s.wS k rd ((pre.a k ab.toNat).setWidth 64) }

def opAddA (k : Nat) (ad ab : BitVec 4) (rs : BitVec 5) : SlotOp :=
  { slots := [0, 3], sR := [rs.toNat], aW := [ad.toNat]
    eff := fun pre s => s.wA k ad (pre.a k ab.toNat + (pre.s k rs).setWidth 48) }

def opAddiA (k : Nat) (ad ab : BitVec 4) (imm : BitVec 32) : SlotOp :=
  { slots := [0, 3], aW := [ad.toNat], eff := fun pre s => s.wA k ad (pre.a k ab.toNat + imm.signExtend 48) }

end Sys2Proof.Machine
end

