-- ==== Sys2Proof/Machine/Sap.lean ====
section
/-! DEFINITION. Machine/Sap.lean: the sap line: SAP.MV (R87 to R92, R243 to R245) and the progress of the one it runs. -/

namespace Sys2Proof.Machine

/-- The sap descriptor (R244). -/
structure SapDesc where
  bad  : Bool
  V    : Nat
  N    : Nat
  K    : Nat
  w    : Nat
  ws   : Nat
  x    : Nat
  xs   : Nat
  xsc  : Nat
  y    : Nat
  ys   : Nat
  exp  : Nat
deriving DecidableEq, Repr

/-- The descriptor from its 64 bytes; `bad` is a version not 1 or a reserved bit set (MMA_DESC). -/
def sapDescOf (d : List Byte) : SapDesc :=
  let f := fun i n => leNat ((d.drop i).take n)
  { bad := decide (f 0 1 ≠ 1 ∨ 8 ≤ f 1 1 ∨ f 2 2 ≠ 0 ∨ f 12 4 ≠ 0 ∨ 2 ^ 48 ≤ f 16 8 ∨ 2 ^ 48 ≤ f 24 8 ∨ 2 ^ 26 ≤ f 32 4
             ∨ 2 ^ 24 ≤ f 36 4 ∨ 2 ^ 26 ≤ f 40 4 ∨ 2 ^ 26 ≤ f 44 4 ∨ 2 ^ 24 ≤ f 48 4 ∨ 2 ^ 26 ≤ f 52 4 ∨ f 56 8 ≠ 0)
    V := f 1 1 % 8, N := f 4 4, K := f 8 4, w := f 16 8 % 2 ^ 48, ws := f 24 8 % 2 ^ 48, x := f 32 4 % 2 ^ 26
    xs := f 36 4 % 2 ^ 24, xsc := f 40 4 % 2 ^ 26, y := f 44 4 % 2 ^ 26, ys := f 48 4 % 2 ^ 24, exp := f 52 4 % 2 ^ 26 }

/-- Group width G (R88). -/
def sapG (fw fx : Nat) : Nat := if pairClass fw fx = some .r4 then 128 else 64

/-- Bytes of X in the vector buffer (R90). -/
def sapXBytes (d : SapDesc) (fx : Nat) : Nat := d.V * ceilDiv d.K 32 * (blockBytes (fmtBits fx) + 1)

/-- An empty operation (R90). -/
def SapDesc.empty (d : SapDesc) : Bool := decide (d.V = 0 ∨ d.N = 0 ∨ d.K = 0)

/-- Row-blocks of W, its padding included (R88). -/
def sapBlocks (d : SapDesc) (g : Nat) : Nat := ceilDiv d.N g * ceilDiv d.K 32 * g

/-- Checks 6 to 9 of R245. -/
def sapChecks (s : State) (k fw fx : Nat) (xw : Option ExpDesc) (d : SapDesc) : Option Exc :=
  let nb := ceilDiv d.K 32
  let g := sapG fw fx
  let wn := sapBlocks d g * blockBytes (elemBits fw xw)
  let sn := sapBlocks d g
  let c := s.seqCtx k
  firstExc [(decide (4 < d.V ∨ 2 ^ 20 < sapXBytes d fx), exc E.MMA_SAP_SIZE d.V),
    (decide (d.x % 16 ≠ 0 ∨ d.xs % 16 ≠ 0), exc E.SEQ_TS_ALIGN d.x),
    (decide (d.y % 16 ≠ 0 ∨ d.ys % 16 ≠ 0), exc E.SEQ_TS_ALIGN d.y),
    (rowsBeyond d.x d.xs d.V (nb * blockBytes (fmtBits fx)), exc E.SEQ_TS_RANGE d.x),
    (rowsBeyond d.xsc nb d.V nb, exc E.SEQ_TS_RANGE d.xsc),
    (rowsBeyond d.y d.ys d.V (4 * d.N), exc E.SEQ_TS_RANGE d.y),
    (decide (d.w % 64 ≠ 0), exc E.SEQ_DEV_ALIGN d.w),
    (decide (d.ws % 64 ≠ 0), exc E.SEQ_DEV_ALIGN d.ws),
    (!d.empty && !s.permits c d.w wn false, ⟨E.SEC_PERM, d.w, some (d.w, wn, 3, false)⟩),
    (!d.empty && !s.permits c d.ws sn false, ⟨E.SEC_PERM, d.ws, some (d.ws, sn, 3, false)⟩)]

/-- The sequencers of a die in the round-robin order of its sap line (R91). -/
def State.sapOrder (s : State) (n : Nat) : List Nat :=
  (List.range 4).map (fun i => 4 * n + ((s.sap n).last + 1 + i) % 4)

/-- True when the oldest waiting bundle of a sequencer waits for the sap line (R91, R245). -/
def State.waitsSap (s : State) (k : Nat) : Bool :=
  decide (s.get (R.SEQ_STAT.wait (k / 4) (k % 4)) = 7) &&
  (match (s.seq k).held with
   | [] => false
   | b :: _ => b.any (fun i => match i with
     | .sapMv .. => true
     | _ => false))

/-- True when the sap line takes sequencer `k` now: it is free, and no sequencer before it in the round robin waits for it
(R91). -/
def State.sapTurn (s : State) (k : Nat) : Bool :=
  (s.sap (k / 4)).op.isNone &&
  decide ((s.sapOrder (k / 4)).find? (fun j => decide (j = k) || s.waitsSap j) = some k)

/-- Checks 2 to 5 of R245, up to the address of the expansion descriptor. -/
def sapFields (o W X : Nat) (d : SapDesc) : List (Bool × Exc) :=
  [(d.bad, exc E.MMA_DESC o), (decide (11 ≤ W ∨ 11 ≤ X) || fmtExpands X, exc E.MMA_FMT_CODE (16 * W + X)),
   ((pairClass W X).isNone, exc E.MMA_FMT_PAIR (16 * W + X))] ++ expChecks [(W, d.exp)]

/-- SAP.MV (R243 to R245). -/
def opSapMv (k : Nat) (fw fx : BitVec 4) (init : Bool) (sd : BitVec 5) (cen : Bool) (e : BitVec 3) : SlotOp :=
  let n := k / 4
  let W := fw.toNat
  let X := fx.toNat
  let desc := fun s => sapDescOf (s.ts n (descOff s k sd) 64)
  { slots := [1], sR := [sd.toNat], desc := true
    reads := fun s => let o := descOff s k sd
      descReads s n o (sapFields o W X (desc s)) [(W, (desc s).exp)]
    chk := fun s =>
      let d := desc s
      let o := descOff s k sd
      (firstExc (descAddr s n o)).orElse (fun _ => (firstExc (sapFields o W X d)).orElse (fun _ =>
      (firstExc (expDescChecks s n [(W, d.exp)])).orElse (fun _ => sapChecks s k W X (s.expOf n W d.exp) d)))
    wait := fun s =>
      let o := descOff s k sd
      s.descWait k o 64 (if (firstExc (descAddr s n o ++ sapFields o W X (desc s))).isSome then [] else expSpans [(W, (desc s).exp)])
    late := fun s => if (desc s).empty || s.sapTurn k then 0 else 7
    eff := fun pre s =>
      let d := desc pre
      let s := (s.fixSoft (tileBase n + descOff pre k sd) 64).fixExp n [(W, d.exp)]
      if d.empty then s.signal k cen e.toNat
      else
        let o : SapOp := { seq := k, fw := W, fx := X, init := init, V := d.V, N := d.N, K := d.K, w := d.w, ws := d.ws,
                           x := d.x, xs := d.xs, xsc := d.xsc, y := d.y, ys := d.ys, xw := pre.expOf n W d.exp,
                           cen := cen, e := e.toNat, xv := none, group := 0, kb := 0, bad := false, acc := [] }
        s.setSap n ⟨some o, k % 4⟩ }

/-- SAP_VECTOR_COPIED (R245): the copy of X into the vector buffer is done. -/
def execSapVectorCopied (die : Fin 24) (s : State) : Result :=
  let n := die.val
  let u := s.sap n
  .next (match u.op with
    | none => s
    | some o =>
      if o.xv.isSome then s
      else
        let nb := ceilDiv o.K 32
        let x : OpBlk := { addr := o.x, stride := o.xs, scale := o.xsc, sstride := nb, exp := 0 }
        let bs := List.range nb
        let rows := (List.range o.V).map (fun v => (s.readRow n o.fx none x v bs).1)
        let s := (List.range o.V).foldl (fun s v => s.noteRow o.seq o.fx none x v bs) s
        s.setSap n { u with op := some { o with xv := some rows } })

/-- Rows of W in the group being streamed, its padding left out (R88). -/
def SapOp.rows (o : SapOp) : Nat := min (sapG o.fw o.fx) (o.N - o.group * sapG o.fw o.fx)

/-- One row-block of W, with its expansion saturations (R88); elements of bad units are not expanded (R49, R92). -/
def State.sapBlk (s : State) (o : SapOp) (i : Nat) : Blk × Nat :=
  let w := elemBits o.fw o.xw
  let base := o.w + i * blockBytes w
  let v := s.le base (blockBytes w)
  let okAt := fun j => (s.readBad (base + w * j / 8) ((w * j + w - 1) / 8 - w * j / 8 + 1)).isEmpty && (s.unavailable (base + w * j / 8)).isNone
  let code := fun j => v / 2 ^ (w * j) % 2 ^ w
  let sc := (s.byte (o.ws + i)).toNat
  match o.xw with
  | none => (⟨sc, (List.range 32).map (fun j => elemOf o.fw (code j)), false⟩, 0)
  | some d =>
    let es := (List.range 32).map (fun j => expandElem o.fw d (code j))
    (⟨sc, es.map Prod.fst, false⟩, ((List.range 32).filter (fun j => (expandElem o.fw d (code j)).2 && okAt j)).length)

/-- The Y value a row starts from: +0, or the FP32 value at its output address (R87, R109). -/
def State.sapStart (s : State) (n : Nat) (o : SapOp) (v r : Nat) : F32 :=
  let a := tileBase n + o.y + v * o.ys + 4 * (o.group * sapG o.fw o.fx + r)
  if !o.init then 0 else if s.isBad a then canonNaN else BitVec.ofNat 32 (s.le a 4)

/-- SAP_WEIGHT_STEP (R88, R89): one weight step is applied to each vector. A read that fails makes the group's values NaN
(R92). Its first step in a group reads the Y values to add to, with their errors (R109). -/
def execSapWeightStep (die : Fin 24) (s : State) : Result :=
  let n := die.val
  let u := s.sap n
  .next (match u.op with
    | none => s
    | some o => match o.xv with
      | none => s
      | some xv =>
        let nb := ceilDiv o.K 32
        let g := sapG o.fw o.fx
        if nb ≤ o.kb ∨ ceilDiv o.N g ≤ o.group ∨ s.unitMay n (48 + n) = false then s
        else
          let i0 := (o.group * nb + o.kb) * g
          let bb := blockBytes (elemBits o.fw o.xw)
          let blks := (List.range o.rows).map (fun r => s.sapBlk o (i0 + r))
          let acc := (List.range o.V).map (fun v =>
            let start := if o.kb = 0 then (List.range o.rows).map (fun r => s.sapStart n o v r) else o.acc.getD v []
            match (xv.getD v [])[o.kb]? with
            | none => start
            | some xb => List.zipWith (fun a (b : Blk × Nat) => accAdd a (blockValue o.fw o.fx b.1 xb)) start blks)
          let reads := [(o.w + i0 * bb, g * bb), (o.ws + i0, g)]
          let bad := reads.any (fun r => !(s.refused r.1 r.2).isEmpty || !(s.readBad r.1 r.2).isEmpty)
          let c := some (s.seqCtx o.seq)
          let s := reads.foldl (fun s r => match s.refused r.1 r.2 with
            | [] => (s.noteUse c r.1 r.2).crossFrom o.seq (ldOfDie n) r.1 r.2
            | l => l.foldl (fun s a => s.raise ((s.unavailable a).getD 0) c (atLd (ldOfDie n)) a) s) s
          let s := if o.init && decide (o.kb = 0) then (List.range o.V).foldl (fun s v =>
              s.noteRead c (tileBase n + o.y + v * o.ys + 4 * (o.group * g)) (4 * o.rows)) s else s
          let s := (s.count (R.MMA_EXPSAT.count n 8) (blks.map Prod.snd).sum).count (R.MMA_ACT.count n 8) 1
          let s := s.unitAdmit n (48 + n)
          s.setSap n { u with op := some { o with kb := o.kb + 1, bad := o.bad || bad, acc := acc } })

/-- Tile-store bytes written by a unit of die `n`: a write refused by a bad word is logged (R109). -/
def State.tsPut (s : State) (c : Option Nat) (n off : Nat) (bs : List Byte) : State :=
  let a := tileBase n + off
  let s' := s.write a bs
  if s.writeBad a bs.length then s'.logAs E.SEQ_TS_ECC 2 c (atDie n) off else s'

/-- SAP_GROUP_WRITE (R89, R92): the group's Y values are written. -/
def execSapGroupWrite (die : Fin 24) (s : State) : Result :=
  let n := die.val
  let u := s.sap n
  .next (match u.op with
    | none => s
    | some o =>
      if o.kb = ceilDiv o.K 32 ∧ o.xv.isSome then
        let c := some (s.seqCtx o.seq)
        let s := (o.acc.zipIdx).foldl (fun s p =>
          s.tsPut c n (o.y + p.2 * o.ys + 4 * (o.group * sapG o.fw o.fx))
            (p.1.flatMap (fun v => leBytes 4 (if o.bad then canonNaN else v).toNat))) s
        s.setSap n { u with op := some { o with group := o.group + 1, kb := 0, bad := false, acc := [] } }
      else s)

/-- SAP_COMPLETE: the last group is written; the line is free and the counter signalled (R91, R217). -/
def execSapComplete (die : Fin 24) (s : State) : Result :=
  let n := die.val
  let u := s.sap n
  .next (match u.op with
    | none => s
    | some o =>
      if ceilDiv o.N (sapG o.fw o.fx) ≤ o.group then (s.setSap n { u with op := none }).signal o.seq o.cen o.e else s)

end Sys2Proof.Machine
end

