-- ==== Sys2Proof/Machine/GlazeLane.lean ====
section
/-! DEFINITION. Machine/GlazeLane.lean: the arithmetic of one glaze lane: stage operations (R114 to R117) and the events they
count (R127), and the reduction tree (R124, R125). -/

namespace Sys2Proof.Machine

/-- A stage's result and the events it counts (R127): overflow, invalid, saturation. -/
structure StageOut where
  val : F32
  ovf : Bool
  inv : Bool
  sat : Bool
deriving DecidableEq, Repr

/-- 1.0 in FP32. -/
def f32One : F32 := 0x3F80_0000

/-- The value with any NaN made canonical (R47). -/
def canon (x : F32) : F32 := if (f32Num x).isNaN then canonNaN else x

/-- A rounded result; NaN from operands none of which is NaN is an invalid operation (R116, R127). -/
def stageNum (ops : List F32) (v : Num) : StageOut :=
  let r := numF32 v
  { val := r.1, ovf := r.2, inv := v.isNaN && !(ops.any (fun x => (f32Num x).isNaN)), sat := false }

/-- A result that is an operand or a constant. -/
def stageVal (v : F32) : StageOut := { val := canon v, ovf := false, inv := false, sat := false }

/-- 1 / v (R116). -/
def rcpNum : Num → Num
  | .nan => .nan
  | .inf n => .fin n 0 0
  | .fin n m e => if m = 0 then .inf n else
      match divSticky 1 m (-e) with
      | .fin _ a b => .fin n a b
      | x => x

/-- 1 / √v (R116). -/
def rsqrtNum : Num → Num
  | .nan => .nan
  | .inf n => if n then .nan else .fin false 0 0
  | .fin n m e => if m = 0 then .inf n else if n then .nan else rsqrtSticky m e

/-- 2^v (R116). -/
def exp2Of : Num → Num
  | .nan => .nan
  | .inf n => if n then .fin false 0 0 else .inf false
  | .fin n m e => exp2Num n m e

/-- log2 v (R116). -/
def log2Of : Num → Num
  | .nan => .nan
  | .inf n => if n then .nan else .inf false
  | .fin n m e => if m = 0 then .inf true else if n then .nan else log2Num m e

/-- The sign of an FP32 pattern. -/
def f32Neg (x : F32) : Bool := bit x.toNat 31

/-- MAX, or MIN when `low`; +0 is larger than −0 (R116). -/
def maxMin (low : Bool) (a b : F32) : F32 :=
  if (f32Num a).isNaN || (f32Num b).isNaN then canonNaN
  else
    let aLess := match (f32Num a).cmp (f32Num b) with
      | .lt => true
      | .gt => false
      | .eq => f32Neg a && !f32Neg b
    if aLess = low then a else b

/-- A comparison: 1.0 or +0, +0 for a NaN operand (R115, R116). -/
def cmpF32 (p : Ordering → Bool) (a b : F32) : F32 :=
  if (f32Num a).isNaN || (f32Num b).isNaN then 0 else if p ((f32Num a).cmp (f32Num b)) then f32One else 0

/-- Interpolation in table `T` (R117). -/
def lutStage (T : Nat → F32) (a : F32) : StageOut :=
  if (f32Num a).isNaN then stageVal canonNaN
  else
    let x := f32Num (maxMin true (maxMin false a 0) 0x437F_0000)
    match x with
    | .fin _ m e =>
      let i := min (if 0 ≤ e then m * 2 ^ e.toNat else m / 2 ^ (-e).toNat) 254
      let f := x.add (.fin true i 0)
      let lo := T i
      let hi := T (i + 1)
      let d := numF32 ((f32Num hi).add (f32Num lo).neg)
      let v := (f.mul (f32Num d.1)).add (f32Num lo)
      let r := numF32 v
      let nanIn := (f32Num lo).isNaN || (f32Num hi).isNaN
      let fin := (f32Num lo).isFin && (f32Num hi).isFin
      { val := r.1, ovf := fin && (d.2 || r.2), inv := v.isNaN && !nanIn, sat := false }
    | _ => stageVal canonNaN

/-- One stage on one lane (R115, R116). `T` gives the entries of the unit's tables. -/
def stageOp (T : Nat → Nat → F32) (g : GStage) (a b c : F32) : StageOut :=
  let x := f32Num a
  let y := f32Num b
  match g.op with
  | 0x00 => stageVal a
  | 0x01 => stageNum [a, b] (x.add y)
  | 0x02 => stageNum [a, b] (x.add y.neg)
  | 0x03 => stageNum [a, b] (x.mul y)
  | 0x04 => stageNum [a, b, c] ((x.mul y).add (f32Num c))
  | 0x05 => stageNum [a] (exp2Of x)
  | 0x06 => stageNum [a] (log2Of x)
  | 0x07 => stageNum [a] (rcpNum x)
  | 0x08 => stageNum [a] (rsqrtNum x)
  | 0x09 => stageVal (maxMin false a b)
  | 0x0A => stageVal (maxMin true a b)
  | 0x0B => stageVal (cmpF32 (fun o => o = .lt) a b)
  | 0x0C => stageVal (cmpF32 (fun o => o ≠ .gt) a b)
  | 0x0D => stageVal (cmpF32 (fun o => o = .eq) a b)
  | 0x0E => if (f32Num c).isNaN then stageVal canonNaN else stageVal (if (f32Num c).isZero then b else a)
  | 0x0F => let r := cvtF32 g.fmt (g.imm.toNat % 256) a
            { val := r.1, ovf := r.2.2, inv := false, sat := r.2.1 }
  | 0x10 => lutStage (T (g.imm.toNat % 4)) a
  | _ => stageVal (if x.isNaN then a else a &&& 0x7FFF_FFFF)

/-- Operands that an operation uses (R115); none for an illegal code. -/
def opArity (op : Nat) : Option Nat :=
  if op ∈ [0x00, 0x05, 0x06, 0x07, 0x08, 0x0F, 0x10, 0x11] then some 1
  else if op ∈ [0x04, 0x0E] then some 3
  else if op < 0x12 then some 2
  else none

/-- An index as FP32 (R114). -/
def idxF32 (i : Nat) : F32 := roundF32 (.fin false i 0)

/-- The operand that a selector names (R114). -/
def selVal (vs srcs : List F32) (imm : F32) (m n sel : Nat) : F32 :=
  if sel < 8 then vs.getD sel 0
  else if sel < 11 then srcs.getD (sel - 8) 0
  else match sel with
    | 11 => imm
    | 12 => idxF32 m
    | 13 => idxF32 n
    | _ => 0

/-- The stages of a chain on one lane: their results and counted events, in order. -/
def runStages (T : Nat → Nat → F32) (srcs : List F32) (m n : Nat) : List GStage → List StageOut → List StageOut
  | [], done => done
  | g :: gs, done =>
    let vs := done.map StageOut.val
    let v := fun sel => selVal vs srcs g.imm m n sel
    runStages T srcs m n gs (done ++ [stageOp T g (v g.a) (v g.b) (v g.c)])

/-! ## Reductions (R124, R125) -/

/-- The identity of a reduction: −0, −Inf or +Inf (R125). -/
def redIdent (op : Nat) : F32 := match op with | 3 => f32Inf true | 4 => f32Inf false | _ => 0x8000_0000

/-- One pairwise step and whether it counts an invalid event; a rounding that overflows counts none, as R127 does not name reductions
(DESIGN CHOICE, log entry 111). -/
def redStep (op : Nat) (a b : F32) : F32 × Bool :=
  match op with
  | 3 => (maxMin false a b, false)
  | 4 => (maxMin true a b, false)
  | _ => let r := stageNum [a, b] ((f32Num a).add (f32Num b))
         (r.val, r.inv)

/-- One level of the tree: adjacent pairs reduced, and the invalid events counted. -/
def redLevel (op : Nat) : List F32 → List F32 × Nat
  | a :: b :: l =>
    let r := redStep op a b
    let t := redLevel op l
    (r.1 :: t.1, b2n r.2 + t.2)
  | l => (l, 0)

/-- The levels from the leaves to the root. -/
def redTree (op : Nat) : Nat → List F32 → Nat → F32 × Nat
  | 0, l, n => (l.headD (redIdent op), n)
  | k + 1, l, n =>
    match l with
    | [x] => (x, n)
    | l => let r := redLevel op l
           redTree op k r.1 (n + r.2)

/-- A reduction over at most 128 lanes, a masked one entering as the identity (R124, R125). -/
def reduceVals (op : Nat) (l : List (Option F32)) : F32 × Nat :=
  let xs := l.map (fun x => match x with
    | none => redIdent op
    | some v => if op = 2 then roundF32 ((f32Num v).mul (f32Num v)) else canon v)
  let w := if l.length ≤ 1 then 1 else 2 ^ (Nat.log2 (l.length - 1) + 1)
  redTree op 7 (xs ++ List.replicate (w - xs.length) (redIdent op)) 0

end Sys2Proof.Machine
end

