-- ==== Sys2Proof/Machine/Glaze.lean ====
section
/-! DEFINITION. Machine/Glaze.lean: GLZ.RUN and GLZ.TBL with the checks of a chain descriptor (R110 to R120, R246, R247, R296), and
the groups, sinks, reductions and flags of a running chain (R118 to R128). -/

namespace Sys2Proof.Machine

/-! ## The descriptor (R111 to R114) -/

/-- A chain descriptor. -/
structure GDesc where
  head   : GHead
  srcs   : List GSrc
  sinks  : List GSink
  stages : List GStage
deriving DecidableEq, Repr

/-- A source from its 16 bytes (R112); the value of a scalar source is filled in at issue. -/
def gSrcOf (d : List Byte) : GSrc :=
  let f := fun i n => leNat ((d.drop i).take n)
  { fmt := f 0 1 / 16, kind := f 0 1 % 16, index := f 1 1 % 32, addr := f 4 4 % 2 ^ 26, stride := f 8 4 % 2 ^ 24
    scale := f 12 4 % 2 ^ 26, val := 0 }

/-- A sink from its 16 bytes (R113). -/
def gSinkOf (d : List Byte) : GSink :=
  let f := fun i n => leNat ((d.drop i).take n)
  { fmt := f 0 1 / 16, kind := f 0 1 % 16, index := f 1 1 % 32, tag := f 2 2 / 64, expMode := bit (f 2 2) 2
    check := bit (f 2 2) 1, maskZ := bit (f 2 2) 0, addr := f 4 4 % 2 ^ 26, sreg := f 11 1, stride := f 8 3
    scale := f 12 4 % 2 ^ 26 }

/-- A stage entry (R114). -/
def gStageOf (d : List Byte) : GStage :=
  let v := leNat d
  { imm := BitVec.ofNat 32 (bits v 32 32), fmt := bits v 28 4, c := bits v 24 4, b := bits v 20 4, a := bits v 16 4
    op := bits v 0 8 }

/-- A chain descriptor from its 160 bytes (R111). -/
def gDescOf (d : List Byte) : GDesc :=
  let f := fun i n => leNat ((d.drop i).take n)
  let r := f 12 4
  { head :=
      { version := f 0 1, nstages := f 1 1 % 16, quarter := bits (f 2 1) 2 2, extent := f 2 1 % 4, rows := f 3 1, m0 := f 4 1
        maskEn := bit (f 5 1) 1, rangeEn := bit (f 5 1) 0, mv := f 6 1, nv := f 7 1, mask := f 8 4 % 2 ^ 26
        redAcc := bit r 30, redAxis := bit r 29, redOp := bits r 26 3, red := r % 2 ^ 26 }
    srcs := [gSrcOf (d.drop 16), gSrcOf (d.drop 32), gSrcOf (d.drop 48)]
    sinks := [gSinkOf (d.drop 64), gSinkOf (d.drop 80)]
    stages := (List.range (min (f 1 1 % 16) 8)).map (fun i => gStageOf ((d.drop (96 + 8 * i)).take 8)) }

/-- A format code that a source, sink or CVT may not have (R38, R120). -/
def gFmtBad (f : Nat) : Bool := fmtExpands f || decide (13 ≤ f)

/-- A source read from the tile store. -/
def GSrc.stored (x : GSrc) : Bool := decide (2 ≤ x.kind ∧ x.kind ≤ 4)

/-- The first row of R120's table. -/
def GDesc.fmtBad (d : GDesc) : Bool :=
  d.srcs.any (fun x => x.stored && gFmtBad x.fmt)
    || d.sinks.any (fun x => decide (1 ≤ x.kind ∧ x.kind ≤ 2) && gFmtBad x.fmt)
    || d.stages.any (fun g => decide (g.op = 0x0F) && gFmtBad g.fmt)

/-- A sink that takes its exponent from a scale register (R113). -/
def GSink.scaled (x : GSink) : Bool := decide (x.kind = 2) && x.expMode && fmtBlock x.fmt

/-- GLZ_SREG (R296). -/
def GDesc.sregBad (s : State) (n : Nat) (d : GDesc) : Bool :=
  d.sinks.any (fun x => x.scaled &&
    decide (s.get (R.NUM_SCTL.mode n x.sreg) = 0 ∨ s.get (R.NUM_SCTL.fmt n x.sreg) ≠ x.fmt))

/-- A selector of stage `i` that is not legal (R114, R120). -/
def GDesc.selBad (d : GDesc) (i sel : Nat) : Bool :=
  decide (sel = 15 ∨ (sel < 8 ∧ i ≤ sel)) ||
  (decide (8 ≤ sel ∧ sel ≤ 10) && decide ((d.srcs[sel - 8]?).map GSrc.kind = some 0))

/-- GLZ_CHAIN_DESC (R120). -/
def GDesc.chainBad (d : GDesc) : Bool :=
  let h := d.head
  decide (h.version ≠ 1 ∨ 8 < h.nstages ∨ h.extent = 3 ∨ 4 < h.redOp ∨ 128 < h.mv ∨ 128 < h.nv)
    || d.srcs.any (fun x => decide (5 < x.kind)) || d.sinks.any (fun x => decide (2 < x.kind))
    || d.sinks.any (fun x => decide (x.kind = 1 ∧ x.fmt ≠ 12))
    || d.stages.zipIdx.any (fun p => match opArity p.1.op with
      | none => true
      | some k => ([p.1.a, p.1.b, p.1.c].take k).any (fun sel => d.selBad p.2 sel))

/-- GLZ_EXTENT (R120). -/
def GDesc.extentBad (d : GDesc) : Bool :=
  decide (d.head.extent = 1 ∧ (d.head.rows % 8 ≠ 0 ∨ d.head.m0 % 8 ≠ 0 ∨ 128 < d.head.m0 + d.head.rows))

/-- Ranges share a byte. -/
def rangesMeet (l r : List (Nat × Nat)) : Bool := l.any (fun x => r.any (fun y => decide (x.1 < y.2 ∧ y.1 < x.2)))

/-- GLZ_OVERLAP (R120). -/
def GDesc.overlapBad (d : GDesc) : Bool :=
  let b := d.head.box
  d.sinks.any (fun k => decide (k.kind = 2) &&
    (d.srcs.any (fun x => x.stored && rangesMeet (k.spans b) (x.spans b) &&
       !decide (x.addr = k.addr ∧ x.stride = k.stride ∧ x.fmt = k.fmt ∧ x.scale = k.scale))
     || rangesMeet (k.spans b) (d.head.maskSpan ++ d.head.redSpan)))

/-- Tile registers that a chain names. -/
def GDesc.tregs (d : GDesc) : List Nat :=
  (d.srcs.filter (fun x => decide (x.kind = 1))).map GSrc.index ++ (d.sinks.filter (fun x => decide (x.kind = 1))).map GSink.index

/-- Tile-store addresses that R108 wants aligned. -/
def GDesc.addrs (d : GDesc) : List Nat :=
  (d.srcs.filter GSrc.stored).map GSrc.addr ++ (d.sinks.filter (fun x => decide (x.kind = 2))).map GSink.addr
    ++ (if d.head.maskEn then [d.head.mask] else []) ++ (if d.head.redOp = 0 then [] else [d.head.red])

/-- Tile-store ranges of a chain. -/
def GDesc.spans (d : GDesc) : List (Nat × Nat) :=
  d.srcs.flatMap (fun x => x.spans d.head.box) ++ d.sinks.flatMap (fun x => x.spans d.head.box)
    ++ d.head.maskSpan ++ d.head.redSpan

/-- The checks of R120 and R296 on a descriptor that has been read, in order. -/
def GDesc.check (s : State) (k : Nat) (off : Nat) (d : GDesc) : Option Exc :=
  let n := k / 4
  let bad := d.addrs.find? (fun a => decide (a % 64 ≠ 0))
  let far := d.spans.find? (fun r => decide (tileBytes < r.2))
  (firstExc [(d.fmtBad, exc E.GLZ_FMT_CODE off), (d.sregBad s n, exc E.GLZ_SREG off), (d.chainBad, exc E.GLZ_CHAIN_DESC off)]).orElse
    (fun _ => firstExc [(d.extentBad, exc E.GLZ_EXTENT off), (d.overlapBad, exc E.GLZ_OVERLAP off),
      (d.tregs.any (fun i => !s.works n (2 * (k % 4) + i / 16)), exc E.MMA_ARRAY_OFF off),
      (far.isSome, exc E.SEQ_TS_RANGE ((far.map Prod.fst).getD 0)), (bad.isSome, exc E.SEQ_TS_ALIGN (bad.getD 0))])

/-- A bad word in the mask that a chain reads at issue (R109, R122). -/
def GDesc.maskCheck (s : State) (n : Nat) (d : GDesc) : Option Exc := firstExc (d.head.maskSpan.map (fun r => s.tsEcc n r.1 (r.2 - r.1)))

/-- The descriptor at an offset. -/
def State.gDesc (s : State) (n off : Nat) : GDesc := gDescOf (s.ts n off 160)

/-- The checks of a chain descriptor at an offset, its own place and bad words first (R109, R120). -/
def State.gCheck (s : State) (k o : Nat) : Option Exc :=
  (firstExc [(decide (o % 64 ≠ 0), exc E.SEQ_TS_ALIGN o), (decide (tileBytes < o + 160), exc E.SEQ_TS_RANGE o), s.tsEcc (k / 4) o 160]).orElse
    (fun _ => (s.gDesc (k / 4) o).check s k o)

/-- The chain that a descriptor makes: scalar sources and mask bits are read at issue (R112, R122). -/
def GDesc.chain (pre : State) (k ino : Nat) (d : GDesc) (cen : Bool) (e : Nat) : Chain :=
  let h := d.head
  { seq := k, ino := ino, head := h, sinks := d.sinks, stages := d.stages, cen := cen, e := e
    srcs := d.srcs.map (fun x => if x.kind = 5 then
      { x with val := BitVec.ofNat 32 (((pre.seq k).sreg x.index).toNat % 2 ^ 32) } else x)
    mask := h.maskSpan.flatMap (fun r => pre.ts (k / 4) r.1 (r.2 - r.1))
    entered := 0, written := 0, rowVecs := [], flight := [], kept := [] }

/-- Items of sequencer `k` that its glaze unit has not started (R110). R110 has GLZ.RUN wait for four queued chains; a table load that waits in the
same queue is one of the four, for GLZ.TBL too, though GLZ_STAT.queued does not count it (DESIGN CHOICE, log entry 151). -/
def State.glzQueued (s : State) (k : Nat) : Nat :=
  ((s.glz (k / 4) (k % 4 / 2)).queue.filter (fun i => decide (i.seq = k))).length

/-- An item joins the queue of the sequencer's unit (R110). -/
def State.glzPush (s : State) (k : Nat) (i : GlzItem) : State :=
  let g := s.glz (k / 4) (k % 4 / 2)
  (s.setGlz (k / 4) (k % 4 / 2) { g with queue := g.queue ++ [i] }).nextIno k

/-- Scalar registers that a chain at the descriptor reads. -/
def GDesc.sregs (d : GDesc) : List Nat := (d.srcs.filter (fun x => decide (x.kind = 5))).map GSrc.index

/-- GLZ.RUN (R110, R120, R246). -/
def opGlzRun (k : Nat) (sd : BitVec 5) (cen : Bool) (e : BitVec 3) : SlotOp :=
  let n := k / 4
  let chain := fun (s : State) => (s.gDesc n (descOff s k sd)).chain s k (s.seq k).ino cen e.toNat
  { slots := [2], sR := [sd.toNat], desc := true
    tG := fun s => (chain s).regs (k % 4)
    reads := fun s => let o := descOff s k sd
      if o % 64 ≠ 0 ∨ tileBytes < o + 160 then []
      else (o, 160) :: (if (s.gCheck k o).isSome then [] else (s.gDesc n o).head.maskSpan.map (fun r => (r.1, r.2 - r.1)))
    chk := fun s => let o := descOff s k sd
      (s.gCheck k o).orElse (fun _ => (s.gDesc n o).maskCheck s n)
    wait := fun s =>
      let o := descOff s k sd
      if 4 ≤ s.glzQueued k then 6
      else s.descWait k o 160 (if (s.gCheck k o).isSome then [] else (s.gDesc n o).head.maskSpan)
    hold := fun s =>
      if (s.gDesc n (descOff s k sd)).sregs.any (fun r => decide (r ≠ 0) && (s.seq k).awaited.contains r) then 1
      else if ((chain s).regs (k % 4)).any (fun r => (s.arrayRegs n).contains r) then 5
      else 0
    eff := fun pre s =>
      let o := descOff pre k sd
      let c := (pre.gDesc n o).chain pre k (s.seq k).ino cen e.toNat
      let s := c.head.maskSpan.foldl (fun s r => s.fixSoft (tileBase n + r.1) (r.2 - r.1)) (s.fixSoft (tileBase n + o) 160)
      if c.groups = 0 then s.signal k cen e.toNat else s.glzPush k (.chain c) }

/-- GLZ.TBL (R246, R247). -/
def opGlzTbl (k : Nat) (tbl : BitVec 2) (sd : BitVec 5) (cen : Bool) (e : BitVec 3) : SlotOp :=
  { slots := [2], sR := [sd.toNat]
    chk := fun s =>
      let o := descOff s k sd
      firstExc [(decide (o % 64 ≠ 0), exc E.SEQ_TS_ALIGN o), (decide (tileBytes < o + 1024), exc E.SEQ_TS_RANGE o)]
    wait := fun s => if 4 ≤ s.glzQueued k then 6 else 0
    eff := fun pre s => s.glzPush k (.table { seq := k, ino := (s.seq k).ino, tbl := tbl.toNat, addr := descOff pre k sd,
                                              cen := cen, e := e.toNat }) }

/-! ## A running chain -/

/-- True when the chain has no group left to enter stage 0. -/
def GlzItem.entered : GlzItem → Bool
  | .chain c => decide (c.entered = c.groups)
  | .table _ => true

/-- GLZ_TBL_COMPLETE (R247): a table load at the front of the queue, every chain before it entered, replaces the table. -/
def execGlzTblComplete (die : Fin 24) (v : Fin 2) (s : State) : Result :=
  let n := die.val
  let g := s.glz n v.val
  .next (match g.queue with
    | .table t :: rest =>
      if g.run.all GlzItem.entered && s.tsFree t.seq t.ino [(t.addr, t.addr + 1024)] [] then
        let c := some (s.seqCtx t.seq)
        let a := tileBase n + t.addr
        let luts := (List.range 256).foldl (fun m i =>
          KMap.put (fun _ => 0) m (256 * t.tbl + i)
            (if s.isBad (a + 4 * i) then canonNaN else BitVec.ofNat 32 (s.le (a + 4 * i) 4))) g.luts
        ((s.noteRead c a 1024).setGlz n v.val { g with queue := rest, luts := luts }).signal t.seq t.cen t.e
      else s
    | _ => s)

/-- GLZ_CHAIN_START (R110): the chain at the front of the queue starts. -/
def execGlzChainStart (die : Fin 24) (v : Fin 2) (s : State) : Result :=
  let n := die.val
  let g := s.glz n v.val
  .next (match g.queue with
    | .chain c :: rest => s.setGlz n v.val { g with queue := rest, run := g.run ++ [.chain c] }
    | _ => s)

/-- The counters of one event kind: GLZ_STEPFLAG and the sequencer's counter (R128). -/
def State.glzCount (s : State) (flag cnt : Fld) (q k : Nat) : State :=
  if k = 0 then s
  else
    let s := if bit (s.get flag) q then s else s.put flag (s.get flag + 2 ^ q)
    s.count cnt k

/-- Overflow events of a sequencer. -/
def State.glzOvf (s : State) (k c : Nat) : State :=
  s.glzCount (R.GLZ_STEPFLAG.ovf (k / 4)) (R.GLZ_OVF.count (k / 4) (k % 4)) (k % 4) c

/-- Invalid events of a sequencer. -/
def State.glzInv (s : State) (k c : Nat) : State :=
  s.glzCount (R.GLZ_STEPFLAG.inv (k / 4)) (R.GLZ_INV.count (k / 4) (k % 4)) (k % 4) c

/-- Saturation events of a sequencer; a sink's count at its tag too. -/
def State.glzSat (s : State) (k c : Nat) (tag : Option Nat) : State :=
  let s := s.glzCount (R.GLZ_STEPFLAG.sat (k / 4)) (R.GLZ_SAT.count (k / 4) (k % 4)) (k % 4) c
  match tag with
  | some t => if c = 0 then s else s.count (R.GLZ_TCNT.sat (k / 4) t) c
  | none => s

/-- Non-finite events of a checked sink. -/
def State.glzNonfin (s : State) (k c tag : Nat) : State :=
  let s := s.glzCount (R.GLZ_STEPFLAG.nonfin (k / 4)) (R.GLZ_NONFIN.count (k / 4) (k % 4)) (k % 4) c
  if c = 0 then s else s.count (R.GLZ_TCNT.nonfin (k / 4) tag) c

/-- Element `i` of a tile-store row, decoded, with its overflow flag (R40, R61, R109, R112). -/
def State.tsElem (s : State) (n fmt addr scale i : Nat) : F32 × Bool :=
  let w := fmtBits fmt
  let base := tileBase n + addr + i / 32 * blockBytes w
  let a := base + w * (i % 32) / 8
  if fmtBlock fmt then
    let sa := tileBase n + scale + i / 32
    if !(s.badIn base (blockBytes w)).isEmpty || s.isBad sa then (canonNaN, false)
    else decodeF32 fmt (s.byte sa).toNat (elemOf fmt (s.le base (blockBytes w) / 2 ^ (w * (i % 32)) % 2 ^ w))
  else if s.isBad a then (canonNaN, false)
  else decodeF32 fmt 127 (elemOf fmt (s.le a (w / 8)))

/-- Row and column of lane `l` of group `g` (R118). -/
def GHead.lane (h : GHead) (g l : Nat) : Nat × Nat :=
  if h.extent = 2 then (64 * (h.quarter / 2) + 16 * g + l / 64, 64 * (h.quarter % 2) + l % 64)
  else (h.box.1 + 8 * g + l / 128, l % 128)

/-- First row and one past the last of group `g`. -/
def GHead.groupRows (h : GHead) (g : Nat) : Nat × Nat :=
  let r := if h.extent = 2 then 16 else 8
  (h.box.1 + r * g, h.box.1 + r * g + r)

/-- True when the element is masked (R122). -/
def Chain.masked (c : Chain) (m n : Nat) : Bool :=
  let h := c.head
  (h.rangeEn && decide (h.mv ≤ m ∨ h.nv ≤ n)) ||
  (h.maskEn && !bit ((c.mask.getD (16 * (m - h.box.1) + n / 8) 0).toNat) (n % 8))

/-- The row vectors of a chain, read once (R112); an empty list for another source. -/
def Chain.readRows (s : State) (c : Chain) : List (List (F32 × Bool)) :=
  let n := c.seq / 4
  let b := c.head.box
  c.srcs.map (fun x => if x.kind = 3 then
    (List.range (b.2.2.2 - b.2.2.1)).map (fun i => s.tsElem n x.fmt x.addr x.scale (b.2.2.1 + i)) else [])

/-- A source's value on a lane, with its decode's overflow flag (R112). -/
def Chain.srcVal (s : State) (c : Chain) (i : Nat) (x : GSrc) (m col : Nat) : F32 × Bool :=
  let n := c.seq / 4
  match x.kind with
  | 1 => (canon (s.tile n (2 * (c.seq % 4) + x.index / 16) (x.index % 16) m col), false)
  | 2 => s.tsElem n x.fmt (x.addr + m * x.stride) (x.scale + 4 * m) col
  | 3 => ((c.rowVecs.getD i []).getD (col - c.head.box.2.2.1) (0, false))
  | 4 => s.tsElem n x.fmt x.addr x.scale m
  | 5 => (canon x.val, false)
  | _ => (0, false)

/-- Sources whose values the stages use (R127); source 0 where there is no stage. -/
def Chain.usedSrcs (c : Chain) : List Nat :=
  if c.stages.isEmpty then [0]
  else (List.range 3).filter (fun i => c.stages.any (fun g =>
    ([g.a, g.b, g.c].take ((opArity g.op).getD 0)).contains (i + 8)))

/-- One lane computed through the stages (R113 to R117, R123, R127). With no stage and a source 0 of kind 0 the sinks receive +0, as the spec
neither refuses the chain nor gives a value (DESIGN CHOICE, log entry 110). -/
def Chain.lane (s : State) (c : Chain) (T : Nat → Nat → F32) (m n : Nat) : Lane :=
  let srcs := c.srcs.zipIdx.map (fun p => Chain.srcVal s c p.2 p.1 m n)
  let outs := runStages T (srcs.map Prod.fst) m n c.stages []
  let masked := c.masked m n
  let dec := (c.usedSrcs.filter (fun i => (srcs.getD i (0, false)).2)).length
  let cnt := fun (p : StageOut → Bool) => (outs.filter p).length
  { m := m, n := n, masked := masked
    val := match outs.getLast? with
      | some o => o.val
      | none => (srcs.getD 0 (0, false)).1
    ovf := if masked then 0 else dec + cnt StageOut.ovf
    inv := if masked then 0 else cnt StageOut.inv
    sat := if masked then 0 else cnt StageOut.sat }

/-- Bad words that a group's reads meet are counted and logged (R109). -/
def Chain.noteGroup (s : State) (c : Chain) (g : Nat) : State :=
  let n := c.seq / 4
  let ctx := some (s.seqCtx c.seq)
  let r := c.head.groupRows g
  let b := c.head.box
  c.srcs.foldl (fun s x => match x.kind with
    | 1 => (List.range (r.2 - r.1)).foldl (fun s i =>
        s.noteTileRow ctx n (2 * (c.seq % 4) + x.index / 16) (x.index % 16) (r.1 + i) b.2.2.1 b.2.2.2) s
    | 2 => (List.range (r.2 - r.1)).foldl (fun s i =>
        (GSrc.spans x (r.1 + i, r.1 + i + 1, b.2.2.1, b.2.2.2)).foldl (fun s p => s.noteRead ctx (tileBase n + p.1) (p.2 - p.1)) s) s
    | 3 => if g = 0 then (x.spans b).foldl (fun s p => s.noteRead ctx (tileBase n + p.1) (p.2 - p.1)) s else s
    | 4 => (GSrc.spans x (r.1, r.2, b.2.2.1, b.2.2.2)).foldl (fun s p => s.noteRead ctx (tileBase n + p.1) (p.2 - p.1)) s
    | _ => s) s

/-- The oldest chain of a unit with a group left to enter. -/
def nextEnter : List GlzItem → Option (List GlzItem × Chain × List GlzItem)
  | [] => none
  | .chain c :: is =>
    if c.entered = c.groups then
      match nextEnter is with
      | none => none
      | some (pre, d, post) => some (.chain c :: pre, d, post)
    else some ([], c, is)
  | .table t :: is =>
    match nextEnter is with
    | none => none
    | some (pre, d, post) => some (.table t :: pre, d, post)

/-- GLZ_GROUP_ENTER (R110, R118, R121): the next group enters stage 0; its lanes are computed and their events counted. A saturation event of a
CVT stage is added to no GLZ_TCNT, as it concerns no one sink (R128; DESIGN CHOICE, log entry 108). -/
def execGlzGroupEnter (die : Fin 24) (v : Fin 2) (s : State) : Result :=
  let n := die.val
  let g := s.glz n v.val
  .next (match nextEnter g.run with
    | none => s
    | some (pre, c, post) =>
      if s.unitMay n (2 * n + v.val) && s.tsFree c.seq c.ino (c.srcs.flatMap (fun x => x.spans c.head.box)) [] then
        let c := if c.entered = 0 then { c with rowVecs := c.readRows s } else c
        let T := fun t i => KMap.find (fun _ => (0 : F32)) g.luts (256 * t + i)
        let lanes := (List.range 1024).map (fun l => c.lane s T (c.head.lane c.entered l).1 (c.head.lane c.entered l).2)
        let s := c.noteGroup s c.entered
        let s := (s.glzOvf c.seq (lanes.map Lane.ovf).sum).glzInv c.seq (lanes.map Lane.inv).sum
        let s := (s.glzSat c.seq (lanes.map Lane.sat).sum none).count (R.GLZ_ACT.count n v.val) 1
        let s := s.unitAdmit n (2 * n + v.val)
        let c := { c with entered := c.entered + 1, flight := c.flight ++ [lanes] }
        s.setGlz n v.val { g with run := pre ++ .chain c :: post }
      else s)

/-- Maximal runs of written lanes: (first column, values). -/
def laneRuns : List (Nat × Option F32) → List (Nat × List F32)
  | [] => []
  | (_, none) :: l => laneRuns l
  | (c, some v) :: l =>
    match laneRuns l with
    | (c', vs) :: rest => if c' = c + 1 then (c, v :: vs) :: rest else (c, [v]) :: (c', vs) :: rest
    | [] => [(c, [v])]

/-- What a FP32 or BF16 sink or a tile-register sink writes on a lane: nothing where mask_mode 0 keeps it (R119). -/
def GSink.wide (x : GSink) (l : Lane) : Option F32 :=
  if l.masked then (if x.maskZ then some 0 else none) else some (canon l.val)

/-- True for an FP32 pattern that is not finite. -/
def f32NonFin (x : F32) : Bool := !(f32Num x).isFin

/-- True for an element that is not finite (R44 to R47). -/
def Elem.nonFin : Elem → Bool
  | .nan => true
  | .inf _ => true
  | _ => false

/-- One block of a block-format sink: exponent, codes, saturation events and non-finite values written (R64, R65, R119,
R127). A block whose scale becomes 0xFF writes NaN on every unmasked lane, and each counts (DESIGN CHOICE, log entry 109). -/
def sinkBlock (fmt : Nat) (x : Option Nat) (ls : List Lane) : Nat × List Nat × Nat × Nat :=
  let live := (ls.filter (fun l => !l.masked)).map Lane.val
  let X := match x with
    | some v => v
    | none => computedX fmt live
  let cs := ls.map (fun l => if l.masked then (⟨0, false, false⟩ : Conv) else convElem fmt X l.val)
  let ff := cs.any Conv.block
  let codes := cs.map (fun c => if ff then 0 else c.code)
  let X' := if ff then 255 else X
  (X', codes, (cs.filter Conv.sat).length,
    ((ls.zip codes).filter (fun p => !p.1.masked && (decide (X' = 255) || (elemOf fmt p.2).nonFin))).length)

/-- Codes of `w` bits packed little-endian into bytes (R40). -/
def packCodes (w : Nat) (cs : List Nat) : List Byte :=
  leBytes (w * cs.length / 8) (cs.foldr (fun c n => c % 2 ^ w + 2 ^ w * n) 0)

/-- The largest finite magnitude enters the step amax of a scale register (R295). -/
def State.stepAmax (s : State) (n i : Nat) (ls : List Lane) : State :=
  let vs := (ls.filter (fun l => !l.masked && !f32NonFin l.val)).map (fun l => l.val.toNat % 2 ^ 31)
  s.put (R.NUM_SAMAX.samax n i) (vs.foldl max (s.get (R.NUM_SAMAX.samax n i)))

/-- One row of a group written by a sink; `ls` are its lanes in column order. -/
def State.sinkRow (s : State) (c : Chain) (x : GSink) (m : Nat) (ls : List Lane) : State :=
  let n := c.seq / 4
  let ctx := some (s.seqCtx c.seq)
  let live := ls.filter (fun l => !l.masked)
  let nf := fun (f : Lane → F32) => if x.check then (live.filter (fun l => f32NonFin (f l))).length else 0
  let runs := laneRuns (ls.map (fun l => (l.n, x.wide l)))
  if x.kind = 1 then
    let s := runs.foldl (fun s r => s.putTileRow ctx n (2 * (c.seq % 4) + x.index / 16) (x.index % 16) m r.1 r.2) s
    s.glzNonfin c.seq (nf Lane.val) x.tag
  else if x.fmt = 12 then
    let s := runs.foldl (fun s r => s.tsPut ctx n (x.addr + m * x.stride + 4 * r.1) (r.2.flatMap (fun v => leBytes 4 v.toNat))) s
    s.glzNonfin c.seq (nf Lane.val) x.tag
  else if x.fmt = 11 then
    let s := runs.foldl (fun s r =>
      s.tsPut ctx n (x.addr + m * x.stride + 2 * r.1) (r.2.flatMap (fun v => leBytes 2 (convBF16 v).1))) s
    let s := s.glzOvf c.seq (live.filter (fun l => (convBF16 l.val).2)).length
    s.glzNonfin c.seq (nf (fun l => BitVec.ofNat 32 ((convBF16 l.val).1 * 65536))) x.tag
  else
    let w := fmtBits x.fmt
    let n0 := c.head.box.2.2.1
    let X := if x.expMode then some (s.get (R.NUM_SSTAT.x n x.sreg)) else none
    let bs := (List.range (ls.length / 32)).map (fun i => sinkBlock x.fmt X ((ls.drop (32 * i)).take 32))
    let s := s.tsPut ctx n (x.addr + m * x.stride + n0 / 32 * blockBytes w) (bs.flatMap (fun b => packCodes w b.2.1))
    let s := s.tsPut ctx n (x.scale + 4 * m + n0 / 32) (bs.map (fun b => BitVec.ofNat 8 b.1))
    let s := s.glzSat c.seq (bs.map (fun b => b.2.2.1)).sum (some x.tag)
    let s := if x.expMode then s.stepAmax n x.sreg ls else s
    s.glzNonfin c.seq (if x.check then (bs.map (fun b => b.2.2.2)).sum else 0) x.tag

/-- The oldest chain of a unit with a group in flight. -/
def nextWrite : List GlzItem → Option (List GlzItem × Chain × List GlzItem)
  | [] => none
  | .chain c :: is =>
    if c.flight.isEmpty then
      match nextWrite is with
      | none => none
      | some (pre, d, post) => some (.chain c :: pre, d, post)
    else some ([], c, is)
  | .table t :: is =>
    match nextWrite is with
    | none => none
    | some (pre, d, post) => some (.table t :: pre, d, post)

/-- True when no chain ahead of these has a group left to write: groups are written in chain order. -/
def allWritten (l : List GlzItem) : Bool := l.all (fun i => match i with
  | .chain c => decide (c.written = c.groups)
  | .table _ => true)

/-- A group written by every sink, and its values kept for the reduction (R113, R119, R124). -/
def State.writeGroup (s : State) (c : Chain) (lanes : List Lane) : State :=
  let w := if c.head.extent = 2 then 64 else 128
  let rows := (List.range (1024 / w)).map (fun i => (lanes.drop (w * i)).take w)
  c.sinks.foldl (fun s x => if x.kind = 0 then s else
    rows.foldl (fun s ls => match ls with
      | [] => s
      | l :: _ => s.sinkRow c x l.m ls) s) s

/-- GLZ_GROUP_WRITE (R118, R119, R121). -/
def execGlzGroupWrite (die : Fin 24) (v : Fin 2) (s : State) : Result :=
  let n := die.val
  let g := s.glz n v.val
  .next (match nextWrite g.run with
    | none => s
    | some (pre, c, post) =>
      match c.flight with
      | [] => s
      | lanes :: rest =>
        if allWritten pre && s.tsFree c.seq c.ino [] c.writes then
          let s := s.writeGroup c lanes
          let kept := if c.head.redOp = 0 then c.kept else
            lanes.foldl (fun m l => KMap.put (fun _ => 0) m (128 * l.m + l.n)
              (if l.masked then redIdent c.head.redOp else canon l.val)) c.kept
          let c := { c with written := c.written + 1, flight := rest, kept := kept }
          s.setGlz n v.val { g with run := pre ++ .chain c :: post }
        else s)

/-- One result of a chain's reduction and its invalid events (R124, R125). -/
def State.reduceOne (s : State) (c : Chain) (i : Nat) : F32 × Nat :=
  let h := c.head
  let b := h.box
  let get := fun m n => if c.masked m n then none else some (KMap.find (fun _ => (0 : F32)) c.kept (128 * m + n))
  let xs := if h.redAxis then (List.range (b.2.1 - b.1)).map (fun j => get (b.1 + j) (b.2.2.1 + i))
    else (List.range (b.2.2.2 - b.2.2.1)).map (fun j => get (b.1 + i) (b.2.2.1 + j))
  let r := reduceVals h.redOp xs
  if h.redAcc then
    let a := tileBase (c.seq / 4) + h.red + 4 * i
    let old := if s.isBad a then canonNaN else BitVec.ofNat 32 (s.le a 4)
    let t := redStep h.redOp old r.1
    (t.1, r.2 + b2n t.2)
  else r

/-- GLZ_CHAIN_COMPLETE (R121, R126, R217): the oldest chain, its last group written, writes its reduction and is done. -/
def execGlzChainComplete (die : Fin 24) (v : Fin 2) (s : State) : Result :=
  let n := die.val
  let g := s.glz n v.val
  .next (match g.run with
    | .chain c :: rest =>
      if c.written = c.groups ∧ s.tsFree c.seq c.ino [] c.head.redSpan = true then
        let h := c.head
        let ctx := some (s.seqCtx c.seq)
        let s' := if h.redOp = 0 then s else
          let rs := (List.range h.redCount).map (fun i => s.reduceOne c i)
          let s1 := if h.redAcc then s.noteRead ctx (tileBase n + h.red) (4 * h.redCount) else s
          (s1.tsPut ctx n h.red (rs.flatMap (fun r => leBytes 4 r.1.toNat))).glzInv c.seq (rs.map Prod.snd).sum
        (s'.setGlz n v.val { g with run := rest }).signal c.seq c.cen c.e
      else s
    | _ => s)

end Sys2Proof.Machine
end

