-- ==== Sys2Proof/Machine/SlotCode.lean ====
section
/-! DEFINITION. Machine/SlotCode.lean: the 64-bit encodings of the slot instructions (R206, R208, R231, R234, R235, R243, R246, R248,
R253, R254, R256): what a slot of the instruction store decodes to, and the bits of a slot instruction. -/

namespace Sys2Proof.Machine

/-- Bits [63:51] of a slot: opcode and predicate fields (R206). -/
def slotHead (op : Nat) (c : SlotCtl) : Nat :=
  op * 2 ^ 56 + b2n c.pe * 2 ^ 55 + c.pidx.toNat * 2 ^ 52 + b2n c.psense * 2 ^ 51

/-- A slot: its head and its operand fields, each a value and the place of its low bit. -/
def slotBits (op : Nat) (c : SlotCtl) (fs : List (Nat × Nat)) : Nat := slotHead op c + (fs.map (fun f => f.1 * 2 ^ f.2)).sum

/-- A flume operand: fsrc, fimm and fs at their places (R229). -/
def encFlume (o : FlumeOp) (src imm fs : Nat) : Nat :=
  match o with
  | .imm f => f.toNat * 2 ^ imm
  | .reg r => 2 ^ src + r.toNat * 2 ^ fs

/-- The second operand of form C, with its imm bit (R234). -/
def encCmp (o : CmpOp) : Nat :=
  match o with
  | .reg r => r.toNat * 2 ^ 36
  | .imm v => 2 ^ 47 + v.toNat * 2 ^ 9

/-- A flume operand read back. -/
def decFlume (w src imm fs : Nat) : FlumeOp :=
  if bit w src then .reg (BitVec.ofNat 5 (bits w fs 5)) else .imm (BitVec.ofNat 13 (bits w imm 13))

/-- The second operand of form C read back. -/
def decCmp (w : Nat) : CmpOp :=
  if bit w 47 then .imm (BitVec.ofNat 32 (bits w 9 32)) else .reg (BitVec.ofNat 5 (bits w 36 5))

/-- The bits of a slot instruction, 0 for a command that is none. -/
def encSlot (i : Instr) : Nat :=
  match i with
  | .nop c => slotBits 0x00 c []
  | .br c target => slotBits 0x01 c [(target.toNat, 37)]
  | .brS c rs => slotBits 0x02 c [(rs.toNat, 46)]
  | .call c target => slotBits 0x03 c [(target.toNat, 37)]
  | .ret c => slotBits 0x04 c []
  | .loop c rs last => slotBits 0x05 c [(rs.toNat, 46), (last.toNat, 32)]
  | .halt c => slotBits 0x08 c []
  | .trapRet c mode => slotBits 0x09 c [(b2n mode, 50)]
  | .evtSig c tq e n => slotBits 0x0A c [(tq.toNat, 49), (e.toNat, 46), (n.toNat, 30)]
  | .evtWait c e n => slotBits 0x0B c [(e.toNat, 48), (n.toNat, 32)]
  | .wchSet c idx kind f e => slotBits 0x0C c [(idx.toNat, 48), (kind.toNat, 46), (encFlume f 45 32 27, 0), (e.toNat, 24)]
  | .waitAny c sd => slotBits 0x0D c [(sd.toNat, 46)]
  | .waitIdle c arrays glaze sap dma => slotBits 0x0E c [(b2n arrays, 50), (b2n glaze, 49), (b2n sap, 48), (b2n dma, 47)]
  | .add c rd ra rb => slotBits 0x20 c [(rd.toNat, 46), (ra.toNat, 41), (rb.toNat, 36)]
  | .sub c rd ra rb => slotBits 0x21 c [(rd.toNat, 46), (ra.toNat, 41), (rb.toNat, 36)]
  | .and c rd ra rb => slotBits 0x22 c [(rd.toNat, 46), (ra.toNat, 41), (rb.toNat, 36)]
  | .or c rd ra rb => slotBits 0x23 c [(rd.toNat, 46), (ra.toNat, 41), (rb.toNat, 36)]
  | .xor c rd ra rb => slotBits 0x24 c [(rd.toNat, 46), (ra.toNat, 41), (rb.toNat, 36)]
  | .shl c rd ra rb => slotBits 0x25 c [(rd.toNat, 46), (ra.toNat, 41), (rb.toNat, 36)]
  | .shr c rd ra rb => slotBits 0x26 c [(rd.toNat, 46), (ra.toNat, 41), (rb.toNat, 36)]
  | .sra c rd ra rb => slotBits 0x27 c [(rd.toNat, 46), (ra.toNat, 41), (rb.toNat, 36)]
  | .mul c rd ra rb => slotBits 0x28 c [(rd.toNat, 46), (ra.toNat, 41), (rb.toNat, 36)]
  | .min c rd ra rb => slotBits 0x29 c [(rd.toNat, 46), (ra.toNat, 41), (rb.toNat, 36)]
  | .max c rd ra rb => slotBits 0x2A c [(rd.toNat, 46), (ra.toNat, 41), (rb.toNat, 36)]
  | .addi c rd ra imm => slotBits 0x2B c [(rd.toNat, 46), (ra.toNat, 41), (imm.toNat, 9)]
  | .movi c rd imm => slotBits 0x2C c [(rd.toNat, 46), (imm.toNat, 9)]
  | .movhi c rd imm => slotBits 0x2D c [(rd.toNat, 46), (imm.toNat, 9)]
  | .andi c rd ra imm => slotBits 0x2E c [(rd.toNat, 46), (ra.toNat, 41), (imm.toNat, 9)]
  | .cmpEq c pd ra o => slotBits 0x30 c [(pd.toNat, 48), (ra.toNat, 41), (encCmp o, 0)]
  | .cmpNe c pd ra o => slotBits 0x31 c [(pd.toNat, 48), (ra.toNat, 41), (encCmp o, 0)]
  | .cmpLt c pd ra o => slotBits 0x32 c [(pd.toNat, 48), (ra.toNat, 41), (encCmp o, 0)]
  | .cmpLtu c pd ra o => slotBits 0x33 c [(pd.toNat, 48), (ra.toNat, 41), (encCmp o, 0)]
  | .cmpLe c pd ra o => slotBits 0x34 c [(pd.toNat, 48), (ra.toNat, 41), (encCmp o, 0)]
  | .cmpLeu c pd ra o => slotBits 0x35 c [(pd.toNat, 48), (ra.toNat, 41), (encCmp o, 0)]
  | .tst c pd ra b => slotBits 0x38 c [(pd.toNat, 48), (ra.toNat, 41), (b.toNat, 35)]
  | .plog c pd pa pb na nb op => slotBits 0x39 c [(pd.toNat, 48), (pa.toNat, 45), (pb.toNat, 42), (b2n na, 41), (b2n nb, 40), (op.toNat, 38)]
  | .movA c ad rs => slotBits 0x3A c [(ad.toNat, 47), (rs.toNat, 41)]
  | .movS c rd ab => slotBits 0x3B c [(rd.toNat, 46), (ab.toNat, 42)]
  | .addA c ad ab rs => slotBits 0x3C c [(ad.toNat, 47), (ab.toNat, 43), (rs.toNat, 38)]
  | .addiA c ad ab imm => slotBits 0x3D c [(ad.toNat, 47), (ab.toNat, 43), (imm.toNat, 11)]
  | .mma c fa fb t init sd => slotBits 0x40 c [(fa.toNat, 47), (fb.toNat, 43), (t.toNat, 38), (b2n init, 37), (sd.toNat, 32)]
  | .mmaQ c fa fb t init sd quad => slotBits 0x41 c [(fa.toNat, 47), (fb.toNat, 43), (t.toNat, 38), (b2n init, 37), (sd.toNat, 32), (quad.toNat, 30)]
  | .raftSet c size => slotBits 0x48 c [(size.toNat, 47)]
  | .qtrSet c arr on => slotBits 0x49 c [(b2n arr, 50), (b2n on, 49)]
  | .sapMv c fw fx init sd cen e => slotBits 0x58 c [(fw.toNat, 47), (fx.toNat, 43), (b2n init, 42), (sd.toNat, 37), (b2n cen, 36), (e.toNat, 33)]
  | .glzRun c sd cen e => slotBits 0x60 c [(sd.toNat, 46), (b2n cen, 45), (e.toNat, 42)]
  | .glzTbl c tbl sd cen e => slotBits 0x61 c [(tbl.toNat, 49), (sd.toNat, 44), (b2n cen, 43), (e.toNat, 40)]
  | .ldTs c rd mode rb size sx imm => slotBits 0x70 c [(rd.toNat, 46), (b2n mode, 45), (rb.toNat, 40), (size.toNat, 38), (b2n sx, 37), (imm.toNat, 13)]
  | .stTs c rs mode rb size imm => slotBits 0x71 c [(rs.toNat, 46), (b2n mode, 45), (rb.toNat, 40), (size.toNat, 38), (imm.toNat, 13)]
  | .movSr c rd idx => slotBits 0x72 c [(rd.toNat, 46), (idx.toNat, 40)]
  | .movHb c rd sel => slotBits 0x73 c [(rd.toNat, 46), (sel.toNat, 40)]
  | .movOb c sel rs => slotBits 0x74 c [(sel.toNat, 45), (rs.toNat, 40)]
  | .hbCp c => slotBits 0x75 c []
  | .dma c dk sk dr sr lr cen e => slotBits 0x76 c [(b2n dk, 50), (b2n sk, 49), (dr.toNat, 44), (sr.toNat, 39), (lr.toNat, 34), (b2n cen, 33), (e.toNat, 30)]
  | .schW c sel rs idx => slotBits 0x77 c [(sel.toNat, 48), (rs.toNat, 43), (idx.toNat, 35)]
  | .obClr c => slotBits 0x78 c []
  | .flmPush c ad f => slotBits 0x90 c [(ad.toNat, 47), (encFlume f 46 33 28, 0)]
  | .flmTry c ad f pd => slotBits 0x91 c [(ad.toNat, 47), (encFlume f 46 33 28, 0), (pd.toNat, 25)]
  | .flmCmt c f => slotBits 0x92 c [(encFlume f 46 33 28, 0)]
  | .flmPop c ad f => slotBits 0x93 c [(ad.toNat, 47), (encFlume f 46 33 28, 0)]
  | .flmTpop c ad f pd => slotBits 0x94 c [(ad.toNat, 47), (encFlume f 46 33 28, 0), (pd.toNat, 25)]
  | .flmNext c ad pd => slotBits 0x95 c [(ad.toNat, 47), (pd.toNat, 25)]
  | .flmRel c f => slotBits 0x96 c [(encFlume f 46 33 28, 0)]
  | .verAdmit c sd close => slotBits 0xA0 c [(sd.toNat, 46), (b2n close, 45)]
  | .verPin c pd sd f => slotBits 0xA1 c [(pd.toNat, 48), (sd.toNat, 43), (encFlume f 42 29 24, 0)]
  | .verLook c pd sd gs => slotBits 0xA2 c [(pd.toNat, 48), (sd.toNat, 43), (gs.toNat, 38)]
  | .verUnpin c gs => slotBits 0xA3 c [(gs.toNat, 46)]
  | .verBase c ad ss is => slotBits 0xA4 c [(ad.toNat, 47), (ss.toNat, 42), (is.toNat, 37)]
  | .verBuild c sd gs => slotBits 0xA5 c [(sd.toNat, 46), (gs.toNat, 41)]
  | .verTbuild c sd gs pd => slotBits 0xA6 c [(sd.toNat, 46), (gs.toNat, 41), (pd.toNat, 38)]
  | .verLive c ss => slotBits 0xA7 c [(ss.toNat, 46)]
  | .verDrop c ss => slotBits 0xA8 c [(ss.toNat, 46)]
  | .verSw c gs => slotBits 0xA9 c [(gs.toNat, 46)]
  | .verAdm c gs barrier => slotBits 0xAA c [(gs.toNat, 46), (b2n barrier, 45)]
  | .verLb c ss is ab => slotBits 0xAB c [(ss.toNat, 46), (is.toNat, 41), (ab.toNat, 37)]
  | .verNl c ss ns => slotBits 0xAC c [(ss.toNat, 46), (ns.toNat, 41)]
  | .varLook c ad sd pd vs => slotBits 0xB0 c [(ad.toNat, 47), (sd.toNat, 42), (pd.toNat, 39), (vs.toNat, 34)]
  | .varCnt c vs => slotBits 0xB1 c [(vs.toNat, 46)]
  | _ => 0

/-- Where a slot instruction stands, none for another command. -/
def slotCtlOf (i : Instr) : Option SlotCtl :=
  match i with
  | .nop c => some c
  | .br c _ => some c
  | .brS c _ => some c
  | .call c _ => some c
  | .ret c => some c
  | .loop c _ _ => some c
  | .halt c => some c
  | .trapRet c _ => some c
  | .evtSig c _ _ _ => some c
  | .evtWait c _ _ => some c
  | .wchSet c _ _ _ _ => some c
  | .waitAny c _ => some c
  | .waitIdle c _ _ _ _ => some c
  | .add c _ _ _ => some c
  | .sub c _ _ _ => some c
  | .and c _ _ _ => some c
  | .or c _ _ _ => some c
  | .xor c _ _ _ => some c
  | .shl c _ _ _ => some c
  | .shr c _ _ _ => some c
  | .sra c _ _ _ => some c
  | .mul c _ _ _ => some c
  | .min c _ _ _ => some c
  | .max c _ _ _ => some c
  | .addi c _ _ _ => some c
  | .movi c _ _ => some c
  | .movhi c _ _ => some c
  | .andi c _ _ _ => some c
  | .cmpEq c _ _ _ => some c
  | .cmpNe c _ _ _ => some c
  | .cmpLt c _ _ _ => some c
  | .cmpLtu c _ _ _ => some c
  | .cmpLe c _ _ _ => some c
  | .cmpLeu c _ _ _ => some c
  | .tst c _ _ _ => some c
  | .plog c _ _ _ _ _ _ => some c
  | .movA c _ _ => some c
  | .movS c _ _ => some c
  | .addA c _ _ _ => some c
  | .addiA c _ _ _ => some c
  | .mma c _ _ _ _ _ => some c
  | .mmaQ c _ _ _ _ _ _ => some c
  | .raftSet c _ => some c
  | .qtrSet c _ _ => some c
  | .sapMv c _ _ _ _ _ _ => some c
  | .glzRun c _ _ _ => some c
  | .glzTbl c _ _ _ _ => some c
  | .ldTs c _ _ _ _ _ _ => some c
  | .stTs c _ _ _ _ _ => some c
  | .movSr c _ _ => some c
  | .movHb c _ _ => some c
  | .movOb c _ _ => some c
  | .hbCp c => some c
  | .dma c _ _ _ _ _ _ _ => some c
  | .schW c _ _ _ => some c
  | .obClr c => some c
  | .flmPush c _ _ => some c
  | .flmTry c _ _ _ => some c
  | .flmCmt c _ => some c
  | .flmPop c _ _ => some c
  | .flmTpop c _ _ _ => some c
  | .flmNext c _ _ => some c
  | .flmRel c _ => some c
  | .verAdmit c _ _ => some c
  | .verPin c _ _ _ => some c
  | .verLook c _ _ _ => some c
  | .verUnpin c _ => some c
  | .verBase c _ _ _ => some c
  | .verBuild c _ _ => some c
  | .verTbuild c _ _ _ => some c
  | .verLive c _ => some c
  | .verDrop c _ => some c
  | .verSw c _ => some c
  | .verAdm c _ _ => some c
  | .verLb c _ _ _ => some c
  | .verNl c _ _ => some c
  | .varLook c _ _ _ _ => some c
  | .varCnt c _ => some c
  | _ => none

/-- The slots that an opcode is legal in (R207). -/
def opcodeSlots (op : Nat) : List Nat :=
  if op = 0 then [0, 1, 2, 3]
  else if op < 0x20 then [0]
  else if op < 0x40 then [0, 3]
  else if op < 0x60 then [1]
  else if op < 0x70 then [2]
  else if op < 0xB8 then [3]
  else []

/-- Slots with opcodes 0x00 to 0x1F, their reserved operand bits not looked at. -/
def decControl (c : SlotCtl) (op w : Nat) : Option Instr :=
  if op = 0x00 then some (.nop c)
  else if op = 0x01 then some (.br c (BitVec.ofNat 14 (bits w 37 14)))
  else if op = 0x02 then some (.brS c (BitVec.ofNat 5 (bits w 46 5)))
  else if op = 0x03 then some (.call c (BitVec.ofNat 14 (bits w 37 14)))
  else if op = 0x04 then some (.ret c)
  else if op = 0x05 then some (.loop c (BitVec.ofNat 5 (bits w 46 5)) (BitVec.ofNat 14 (bits w 32 14)))
  else if op = 0x08 then some (.halt c)
  else if op = 0x09 then some (.trapRet c (bit w 50))
  else if op = 0x0A then some (.evtSig c (BitVec.ofNat 2 (bits w 49 2)) (BitVec.ofNat 3 (bits w 46 3)) (BitVec.ofNat 16 (bits w 30 16)))
  else if op = 0x0B then some (.evtWait c (BitVec.ofNat 3 (bits w 48 3)) (BitVec.ofNat 16 (bits w 32 16)))
  else if op = 0x0C then some (.wchSet c (BitVec.ofNat 3 (bits w 48 3)) (BitVec.ofNat 2 (bits w 46 2)) (decFlume w 45 32 27) (BitVec.ofNat 3 (bits w 24 3)))
  else if op = 0x0D then some (.waitAny c (BitVec.ofNat 5 (bits w 46 5)))
  else if op = 0x0E then some (.waitIdle c (bit w 50) (bit w 49) (bit w 48) (bit w 47))
  else none

/-- Slots with opcodes 0x20 to 0x2F, their reserved operand bits not looked at. -/
def decScalar (c : SlotCtl) (op w : Nat) : Option Instr :=
  if op = 0x20 then some (.add c (BitVec.ofNat 5 (bits w 46 5)) (BitVec.ofNat 5 (bits w 41 5)) (BitVec.ofNat 5 (bits w 36 5)))
  else if op = 0x21 then some (.sub c (BitVec.ofNat 5 (bits w 46 5)) (BitVec.ofNat 5 (bits w 41 5)) (BitVec.ofNat 5 (bits w 36 5)))
  else if op = 0x22 then some (.and c (BitVec.ofNat 5 (bits w 46 5)) (BitVec.ofNat 5 (bits w 41 5)) (BitVec.ofNat 5 (bits w 36 5)))
  else if op = 0x23 then some (.or c (BitVec.ofNat 5 (bits w 46 5)) (BitVec.ofNat 5 (bits w 41 5)) (BitVec.ofNat 5 (bits w 36 5)))
  else if op = 0x24 then some (.xor c (BitVec.ofNat 5 (bits w 46 5)) (BitVec.ofNat 5 (bits w 41 5)) (BitVec.ofNat 5 (bits w 36 5)))
  else if op = 0x25 then some (.shl c (BitVec.ofNat 5 (bits w 46 5)) (BitVec.ofNat 5 (bits w 41 5)) (BitVec.ofNat 5 (bits w 36 5)))
  else if op = 0x26 then some (.shr c (BitVec.ofNat 5 (bits w 46 5)) (BitVec.ofNat 5 (bits w 41 5)) (BitVec.ofNat 5 (bits w 36 5)))
  else if op = 0x27 then some (.sra c (BitVec.ofNat 5 (bits w 46 5)) (BitVec.ofNat 5 (bits w 41 5)) (BitVec.ofNat 5 (bits w 36 5)))
  else if op = 0x28 then some (.mul c (BitVec.ofNat 5 (bits w 46 5)) (BitVec.ofNat 5 (bits w 41 5)) (BitVec.ofNat 5 (bits w 36 5)))
  else if op = 0x29 then some (.min c (BitVec.ofNat 5 (bits w 46 5)) (BitVec.ofNat 5 (bits w 41 5)) (BitVec.ofNat 5 (bits w 36 5)))
  else if op = 0x2A then some (.max c (BitVec.ofNat 5 (bits w 46 5)) (BitVec.ofNat 5 (bits w 41 5)) (BitVec.ofNat 5 (bits w 36 5)))
  else if op = 0x2B then some (.addi c (BitVec.ofNat 5 (bits w 46 5)) (BitVec.ofNat 5 (bits w 41 5)) (BitVec.ofNat 32 (bits w 9 32)))
  else if op = 0x2C then some (.movi c (BitVec.ofNat 5 (bits w 46 5)) (BitVec.ofNat 32 (bits w 9 32)))
  else if op = 0x2D then some (.movhi c (BitVec.ofNat 5 (bits w 46 5)) (BitVec.ofNat 32 (bits w 9 32)))
  else if op = 0x2E then some (.andi c (BitVec.ofNat 5 (bits w 46 5)) (BitVec.ofNat 5 (bits w 41 5)) (BitVec.ofNat 32 (bits w 9 32)))
  else none

/-- Slots with opcodes 0x30 to 0x3F, their reserved operand bits not looked at. -/
def decCompare (c : SlotCtl) (op w : Nat) : Option Instr :=
  if op = 0x30 then some (.cmpEq c (BitVec.ofNat 3 (bits w 48 3)) (BitVec.ofNat 5 (bits w 41 5)) (decCmp w))
  else if op = 0x31 then some (.cmpNe c (BitVec.ofNat 3 (bits w 48 3)) (BitVec.ofNat 5 (bits w 41 5)) (decCmp w))
  else if op = 0x32 then some (.cmpLt c (BitVec.ofNat 3 (bits w 48 3)) (BitVec.ofNat 5 (bits w 41 5)) (decCmp w))
  else if op = 0x33 then some (.cmpLtu c (BitVec.ofNat 3 (bits w 48 3)) (BitVec.ofNat 5 (bits w 41 5)) (decCmp w))
  else if op = 0x34 then some (.cmpLe c (BitVec.ofNat 3 (bits w 48 3)) (BitVec.ofNat 5 (bits w 41 5)) (decCmp w))
  else if op = 0x35 then some (.cmpLeu c (BitVec.ofNat 3 (bits w 48 3)) (BitVec.ofNat 5 (bits w 41 5)) (decCmp w))
  else if op = 0x38 then some (.tst c (BitVec.ofNat 3 (bits w 48 3)) (BitVec.ofNat 5 (bits w 41 5)) (BitVec.ofNat 6 (bits w 35 6)))
  else if op = 0x39 then some (.plog c (BitVec.ofNat 3 (bits w 48 3)) (BitVec.ofNat 3 (bits w 45 3)) (BitVec.ofNat 3 (bits w 42 3)) (bit w 41) (bit w 40) (BitVec.ofNat 2 (bits w 38 2)))
  else if op = 0x3A then some (.movA c (BitVec.ofNat 4 (bits w 47 4)) (BitVec.ofNat 5 (bits w 41 5)))
  else if op = 0x3B then some (.movS c (BitVec.ofNat 5 (bits w 46 5)) (BitVec.ofNat 4 (bits w 42 4)))
  else if op = 0x3C then some (.addA c (BitVec.ofNat 4 (bits w 47 4)) (BitVec.ofNat 4 (bits w 43 4)) (BitVec.ofNat 5 (bits w 38 5)))
  else if op = 0x3D then some (.addiA c (BitVec.ofNat 4 (bits w 47 4)) (BitVec.ofNat 4 (bits w 43 4)) (BitVec.ofNat 32 (bits w 11 32)))
  else none

/-- Slots with opcodes 0x40 to 0x5F, their reserved operand bits not looked at. -/
def decArray (c : SlotCtl) (op w : Nat) : Option Instr :=
  if op = 0x40 then some (.mma c (BitVec.ofNat 4 (bits w 47 4)) (BitVec.ofNat 4 (bits w 43 4)) (BitVec.ofNat 5 (bits w 38 5)) (bit w 37) (BitVec.ofNat 5 (bits w 32 5)))
  else if op = 0x41 then some (.mmaQ c (BitVec.ofNat 4 (bits w 47 4)) (BitVec.ofNat 4 (bits w 43 4)) (BitVec.ofNat 5 (bits w 38 5)) (bit w 37) (BitVec.ofNat 5 (bits w 32 5)) (BitVec.ofNat 2 (bits w 30 2)))
  else if op = 0x48 then some (.raftSet c (BitVec.ofNat 4 (bits w 47 4)))
  else if op = 0x49 then some (.qtrSet c (bit w 50) (bit w 49))
  else if op = 0x58 then some (.sapMv c (BitVec.ofNat 4 (bits w 47 4)) (BitVec.ofNat 4 (bits w 43 4)) (bit w 42) (BitVec.ofNat 5 (bits w 37 5)) (bit w 36) (BitVec.ofNat 3 (bits w 33 3)))
  else none

/-- Slots with opcodes 0x60 to 0x6F, their reserved operand bits not looked at. -/
def decGlaze (c : SlotCtl) (op w : Nat) : Option Instr :=
  if op = 0x60 then some (.glzRun c (BitVec.ofNat 5 (bits w 46 5)) (bit w 45) (BitVec.ofNat 3 (bits w 42 3)))
  else if op = 0x61 then some (.glzTbl c (BitVec.ofNat 2 (bits w 49 2)) (BitVec.ofNat 5 (bits w 44 5)) (bit w 43) (BitVec.ofNat 3 (bits w 40 3)))
  else none

/-- Slots with opcodes 0x70 to 0x8F, their reserved operand bits not looked at. -/
def decMove (c : SlotCtl) (op w : Nat) : Option Instr :=
  if op = 0x70 then some (.ldTs c (BitVec.ofNat 5 (bits w 46 5)) (bit w 45) (BitVec.ofNat 5 (bits w 40 5)) (BitVec.ofNat 2 (bits w 38 2)) (bit w 37) (BitVec.ofNat 24 (bits w 13 24)))
  else if op = 0x71 then some (.stTs c (BitVec.ofNat 5 (bits w 46 5)) (bit w 45) (BitVec.ofNat 5 (bits w 40 5)) (BitVec.ofNat 2 (bits w 38 2)) (BitVec.ofNat 24 (bits w 13 24)))
  else if op = 0x72 then some (.movSr c (BitVec.ofNat 5 (bits w 46 5)) (BitVec.ofNat 6 (bits w 40 6)))
  else if op = 0x73 then some (.movHb c (BitVec.ofNat 5 (bits w 46 5)) (BitVec.ofNat 6 (bits w 40 6)))
  else if op = 0x74 then some (.movOb c (BitVec.ofNat 6 (bits w 45 6)) (BitVec.ofNat 5 (bits w 40 5)))
  else if op = 0x75 then some (.hbCp c)
  else if op = 0x76 then some (.dma c (bit w 50) (bit w 49) (BitVec.ofNat 5 (bits w 44 5)) (BitVec.ofNat 5 (bits w 39 5)) (BitVec.ofNat 5 (bits w 34 5)) (bit w 33) (BitVec.ofNat 3 (bits w 30 3)))
  else if op = 0x77 then some (.schW c (BitVec.ofNat 3 (bits w 48 3)) (BitVec.ofNat 5 (bits w 43 5)) (BitVec.ofNat 8 (bits w 35 8)))
  else if op = 0x78 then some (.obClr c)
  else none

/-- Slots with opcodes 0x90 to 0x9F, their reserved operand bits not looked at. -/
def decFlm (c : SlotCtl) (op w : Nat) : Option Instr :=
  if op = 0x90 then some (.flmPush c (BitVec.ofNat 4 (bits w 47 4)) (decFlume w 46 33 28))
  else if op = 0x91 then some (.flmTry c (BitVec.ofNat 4 (bits w 47 4)) (decFlume w 46 33 28) (BitVec.ofNat 3 (bits w 25 3)))
  else if op = 0x92 then some (.flmCmt c (decFlume w 46 33 28))
  else if op = 0x93 then some (.flmPop c (BitVec.ofNat 4 (bits w 47 4)) (decFlume w 46 33 28))
  else if op = 0x94 then some (.flmTpop c (BitVec.ofNat 4 (bits w 47 4)) (decFlume w 46 33 28) (BitVec.ofNat 3 (bits w 25 3)))
  else if op = 0x95 then some (.flmNext c (BitVec.ofNat 4 (bits w 47 4)) (BitVec.ofNat 3 (bits w 25 3)))
  else if op = 0x96 then some (.flmRel c (decFlume w 46 33 28))
  else none

/-- Slots with opcodes 0xA0 to 0xB7, their reserved operand bits not looked at. -/
def decVersion (c : SlotCtl) (op w : Nat) : Option Instr :=
  if op = 0xA0 then some (.verAdmit c (BitVec.ofNat 5 (bits w 46 5)) (bit w 45))
  else if op = 0xA1 then some (.verPin c (BitVec.ofNat 3 (bits w 48 3)) (BitVec.ofNat 5 (bits w 43 5)) (decFlume w 42 29 24))
  else if op = 0xA2 then some (.verLook c (BitVec.ofNat 3 (bits w 48 3)) (BitVec.ofNat 5 (bits w 43 5)) (BitVec.ofNat 5 (bits w 38 5)))
  else if op = 0xA3 then some (.verUnpin c (BitVec.ofNat 5 (bits w 46 5)))
  else if op = 0xA4 then some (.verBase c (BitVec.ofNat 4 (bits w 47 4)) (BitVec.ofNat 5 (bits w 42 5)) (BitVec.ofNat 5 (bits w 37 5)))
  else if op = 0xA5 then some (.verBuild c (BitVec.ofNat 5 (bits w 46 5)) (BitVec.ofNat 5 (bits w 41 5)))
  else if op = 0xA6 then some (.verTbuild c (BitVec.ofNat 5 (bits w 46 5)) (BitVec.ofNat 5 (bits w 41 5)) (BitVec.ofNat 3 (bits w 38 3)))
  else if op = 0xA7 then some (.verLive c (BitVec.ofNat 5 (bits w 46 5)))
  else if op = 0xA8 then some (.verDrop c (BitVec.ofNat 5 (bits w 46 5)))
  else if op = 0xA9 then some (.verSw c (BitVec.ofNat 5 (bits w 46 5)))
  else if op = 0xAA then some (.verAdm c (BitVec.ofNat 5 (bits w 46 5)) (bit w 45))
  else if op = 0xAB then some (.verLb c (BitVec.ofNat 5 (bits w 46 5)) (BitVec.ofNat 5 (bits w 41 5)) (BitVec.ofNat 4 (bits w 37 4)))
  else if op = 0xAC then some (.verNl c (BitVec.ofNat 5 (bits w 46 5)) (BitVec.ofNat 5 (bits w 41 5)))
  else if op = 0xB0 then some (.varLook c (BitVec.ofNat 4 (bits w 47 4)) (BitVec.ofNat 5 (bits w 42 5)) (BitVec.ofNat 3 (bits w 39 3)) (BitVec.ofNat 5 (bits w 34 5)))
  else if op = 0xB1 then some (.varCnt c (BitVec.ofNat 5 (bits w 46 5)))
  else none

/-- The instruction that a slot with a defined opcode spells. -/
def decOp (c : SlotCtl) (w : Nat) : Option Instr :=
  let op := bits w 56 8
  if op < 0x20 then decControl c op w
  else if op < 0x30 then decScalar c op w
  else if op < 0x40 then decCompare c op w
  else if op < 0x60 then decArray c op w
  else if op < 0x70 then decGlaze c op w
  else if op < 0x90 then decMove c op w
  else if op < 0xA0 then decFlm c op w
  else decVersion c op w

/-- Operand bits that an opcode's map names (R228 to R256), but for form C. -/
def opMasks : List (Nat × Nat) :=
  [(0x00, 0x0), (0x01, 0x7FFE000000000), (0x02, 0x7C00000000000), (0x03, 0x7FFE000000000),
   (0x04, 0x0), (0x05, 0x7FFFF00000000), (0x08, 0x0), (0x09, 0x4000000000000),
   (0x0A, 0x7FFFFC0000000), (0x0B, 0x7FFFF00000000), (0x0C, 0x7FFFFFF000000), (0x0D, 0x7C00000000000),
   (0x0E, 0x7800000000000), (0x20, 0x7FFF000000000), (0x21, 0x7FFF000000000), (0x22, 0x7FFF000000000),
   (0x23, 0x7FFF000000000), (0x24, 0x7FFF000000000), (0x25, 0x7FFF000000000), (0x26, 0x7FFF000000000),
   (0x27, 0x7FFF000000000), (0x28, 0x7FFF000000000), (0x29, 0x7FFF000000000), (0x2A, 0x7FFF000000000),
   (0x2B, 0x7FFFFFFFFFE00), (0x2C, 0x7C1FFFFFFFE00), (0x2D, 0x7C1FFFFFFFE00), (0x2E, 0x7FFFFFFFFFE00),
   (0x38, 0x73FF800000000), (0x39, 0x7FFC000000000), (0x3A, 0x7BE0000000000), (0x3B, 0x7FC0000000000),
   (0x3C, 0x7FFC000000000), (0x3D, 0x7FFFFFFFFF800), (0x40, 0x7FFFF00000000), (0x41, 0x7FFFFC0000000),
   (0x48, 0x7800000000000), (0x49, 0x6000000000000), (0x58, 0x7FFFE00000000), (0x60, 0x7FC0000000000),
   (0x61, 0x7FF0000000000), (0x70, 0x7FFFFFFFFE000), (0x71, 0x7FFDFFFFFE000), (0x72, 0x7FF0000000000),
   (0x73, 0x7FF0000000000), (0x74, 0x7FF0000000000), (0x75, 0x0), (0x76, 0x7FFFFC0000000),
   (0x77, 0x7FFF800000000), (0x78, 0x0), (0x90, 0x7FFFFF0000000), (0x91, 0x7FFFFFE000000),
   (0x92, 0x7FFFF0000000), (0x93, 0x7FFFFF0000000), (0x94, 0x7FFFFFE000000), (0x95, 0x780000E000000),
   (0x96, 0x7FFFF0000000), (0xA0, 0x7E00000000000), (0xA1, 0x7FFFFFF000000), (0xA2, 0x7FFC000000000),
   (0xA3, 0x7C00000000000), (0xA4, 0x7FFE000000000), (0xA5, 0x7FE0000000000), (0xA6, 0x7FFC000000000),
   (0xA7, 0x7C00000000000), (0xA8, 0x7C00000000000), (0xA9, 0x7C00000000000), (0xAA, 0x7E00000000000),
   (0xAB, 0x7FFE000000000), (0xAC, 0x7FE0000000000), (0xB0, 0x7FFFC00000000), (0xB1, 0x7C00000000000)]

/-- The operand bits that the map of a slot's opcode names; form C names its second operand by the imm bit (R234). -/
def opMask (w : Nat) : Nat :=
  let op := bits w 56 8
  if 0x30 ≤ op ∧ op ≤ 0x35 then (if bit w 47 then 0x7BFFFFFFFFE00 else 0x7BFF000000000)
  else KMap.find (fun _ => 0) opMasks op

/-- What the sequencer's decoder makes of slot `slot` of a bundle (R208): an instruction, or the code it raises. `more` says
whether further slots follow. -/
def decSlot (die : Fin 24) (q : Fin 4) (slot : Fin 4) (more : Bool) (w : Nat) : Except Nat Instr :=
  let c : SlotCtl := { die := die, q := q, slot := slot, pe := bit w 55, pidx := BitVec.ofNat 3 (bits w 52 3),
                       psense := bit w 51, more := more }
  if bits w 56 8 = 0 ∧ w ≠ 0 then .error E.SEQ_BUNDLE
  else if !(opcodeSlots (bits w 56 8)).contains slot.val then .error E.SEQ_OPCODE
  else match decOp c w with
    | none => .error E.SEQ_OPCODE
    | some i => if (bits w 0 51) &&& (opMask w ^^^ (2 ^ 51 - 1)) ≠ 0 then .error E.SEQ_OPERAND else .ok i

end Sys2Proof.Machine
end

