-- ==== Sys2Proof/Machine/Issue.lean ====
section
/-! DEFINITION. Machine/Issue.lean: how a bundle issues (R206 to R215, R220, R221, R232, R238, R242): the checks, the waits, the
effects in slot order and the next bundle. A slot instruction is given to its sequencer as a command; its bundle issues
with the last of its slots. -/

namespace Sys2Proof.Machine

/-- What a slot instruction is to the issue logic, none for another command. -/
def semOf (i : Instr) : Option SlotOp :=
  match i with
  | .nop _ => some (opNop)
  | .br c target => some (opBr (seqKey c) target)
  | .brS c rs => some (opBrS (seqKey c) rs)
  | .call c target => some (opCall (seqKey c) target)
  | .ret c => some (opRet (seqKey c))
  | .loop c rs last => some (opLoop (seqKey c) rs last)
  | .halt _ => some (opHalt)
  | .trapRet c mode => some (opTrapRet (seqKey c) mode)
  | .evtSig c tq e n => some (opEvtSig (seqKey c) tq e n)
  | .evtWait c e n => some (opEvtWait (seqKey c) e n)
  | .wchSet c idx kind f e => some (opWchSet (seqKey c) idx kind f e)
  | .waitAny c sd => some (opWaitAny (seqKey c) sd)
  | .waitIdle c arrays glaze sap dma => some (opWaitIdle (seqKey c) arrays glaze sap dma)
  | .add c rd ra rb => some (opAdd (seqKey c) rd ra rb)
  | .sub c rd ra rb => some (opSub (seqKey c) rd ra rb)
  | .and c rd ra rb => some (opAnd (seqKey c) rd ra rb)
  | .or c rd ra rb => some (opOr (seqKey c) rd ra rb)
  | .xor c rd ra rb => some (opXor (seqKey c) rd ra rb)
  | .shl c rd ra rb => some (opShl (seqKey c) rd ra rb)
  | .shr c rd ra rb => some (opShr (seqKey c) rd ra rb)
  | .sra c rd ra rb => some (opSra (seqKey c) rd ra rb)
  | .mul c rd ra rb => some (opMul (seqKey c) rd ra rb)
  | .min c rd ra rb => some (opMin (seqKey c) rd ra rb)
  | .max c rd ra rb => some (opMax (seqKey c) rd ra rb)
  | .addi c rd ra imm => some (opAddi (seqKey c) rd ra imm)
  | .movi c rd imm => some (opMovi (seqKey c) rd imm)
  | .movhi c rd imm => some (opMovhi (seqKey c) rd imm)
  | .andi c rd ra imm => some (opAndi (seqKey c) rd ra imm)
  | .cmpEq c pd ra o => some (opCmpEq (seqKey c) pd ra o)
  | .cmpNe c pd ra o => some (opCmpNe (seqKey c) pd ra o)
  | .cmpLt c pd ra o => some (opCmpLt (seqKey c) pd ra o)
  | .cmpLtu c pd ra o => some (opCmpLtu (seqKey c) pd ra o)
  | .cmpLe c pd ra o => some (opCmpLe (seqKey c) pd ra o)
  | .cmpLeu c pd ra o => some (opCmpLeu (seqKey c) pd ra o)
  | .tst c pd ra b => some (opTst (seqKey c) pd ra b)
  | .plog c pd pa pb na nb op => some (opPlog (seqKey c) pd pa pb na nb op)
  | .movA c ad rs => some (opMovA (seqKey c) ad rs)
  | .movS c rd ab => some (opMovS (seqKey c) rd ab)
  | .addA c ad ab rs => some (opAddA (seqKey c) ad ab rs)
  | .addiA c ad ab imm => some (opAddiA (seqKey c) ad ab imm)
  | .mma c fa fb t init sd => some (opMma (seqKey c) fa fb t init sd)
  | .mmaQ c fa fb t init sd quad => some (opMmaQ (seqKey c) fa fb t init sd quad)
  | .raftSet c size => some (opRaftSet (seqKey c) size)
  | .qtrSet c arr on => some (opQtrSet (seqKey c) arr on)
  | .sapMv c fw fx init sd cen e => some (opSapMv (seqKey c) fw fx init sd cen e)
  | .glzRun c sd cen e => some (opGlzRun (seqKey c) sd cen e)
  | .glzTbl c tbl sd cen e => some (opGlzTbl (seqKey c) tbl sd cen e)
  | .ldTs c rd mode rb size sx imm => some (opLdTs (seqKey c) rd mode rb size sx imm)
  | .stTs c rs mode rb size imm => some (opStTs (seqKey c) rs mode rb size imm)
  | .movSr c rd idx => some (opMovSr (seqKey c) rd idx)
  | .movHb c rd sel => some (opMovHb (seqKey c) rd sel)
  | .movOb c sel rs => some (opMovOb (seqKey c) sel rs)
  | .hbCp c => some (opHbCp (seqKey c))
  | .dma c dk sk dr sr lr cen e => some (opDma (seqKey c) dk sk dr sr lr cen e)
  | .schW c sel rs idx => some (opSchW (seqKey c) sel rs idx)
  | .obClr c => some (opObClr (seqKey c))
  | .flmPush c ad f => some (opFlmPush (seqKey c) ad f)
  | .flmTry c ad f pd => some (opFlmTry (seqKey c) ad f pd)
  | .flmCmt c f => some (opFlmCmt (seqKey c) f)
  | .flmPop c ad f => some (opFlmPop (seqKey c) ad f)
  | .flmTpop c ad f pd => some (opFlmTpop (seqKey c) ad f pd)
  | .flmNext c ad pd => some (opFlmNext (seqKey c) ad pd)
  | .flmRel c f => some (opFlmRel (seqKey c) f)
  | .verAdmit c sd close => some (opVerAdmit (seqKey c) sd close)
  | .verPin c pd sd f => some (opVerPin (seqKey c) pd sd f)
  | .verLook c pd sd gs => some (opVerLook (seqKey c) pd sd gs)
  | .verUnpin c gs => some (opVerUnpin (seqKey c) gs)
  | .verBase c ad ss is => some (opVerBase (seqKey c) ad ss is)
  | .verBuild c sd gs => some (opVerBuild (seqKey c) sd gs)
  | .verTbuild c sd gs pd => some (opVerTbuild (seqKey c) sd gs pd)
  | .verLive c ss => some (opVerLive (seqKey c) ss)
  | .verDrop c ss => some (opVerDrop (seqKey c) ss)
  | .verSw c gs => some (opVerSw (seqKey c) gs)
  | .verAdm c gs barrier => some (opVerAdm (seqKey c) gs barrier)
  | .verLb c ss is ab => some (opVerLb (seqKey c) ss is ab)
  | .verNl c ss ns => some (opVerNl (seqKey c) ss ns)
  | .varLook c ad sd pd vs => some (opVarLook (seqKey c) ad sd pd vs)
  | .varCnt c vs => some (opVarCnt (seqKey c) vs)
  | _ => none

/-- One slot of a bundle with its instruction: where it stands, what it is to the issue logic, its bits. -/
structure SlotIn where
  i    : Instr
  c    : SlotCtl
  op   : SlotOp
  w    : Nat

/-- The slots of a bundle. -/
def slotsOf (b : List Instr) : List SlotIn :=
  b.filterMap (fun i => match slotCtlOf i, semOf i with
    | some c, some o => some ⟨i, c, o, encSlot i⟩
    | _, _ => none)

/-- The code that decoding a slot raises whether it is enabled or not (R208). -/
def SlotIn.decodeExc (x : SlotIn) : Option Exc :=
  if bits x.w 56 8 = 0 ∧ x.w ≠ 0 then some (exc E.SEQ_BUNDLE x.w)
  else if x.op.slots.contains x.c.slot.val then none
  else some (exc E.SEQ_OPCODE x.w)

/-- A slot is enabled when pe is 0, or when its predicate differs from psense (R209). -/
def State.enabled (s : State) (k : Nat) (c : SlotCtl) : Bool := !c.pe || (s.p k c.pidx != c.psense)

/-- Registers that two slots would both write, s0 and p0 apart (R211). -/
def writeClash (a b : SlotOp) : Bool :=
  a.sW.any (fun r => decide (r ≠ 0) && b.sW.contains r) || a.aW.any (fun r => b.aW.contains r)
    || a.pW.any (fun r => decide (r ≠ 0) && b.pW.contains r)

/-- The lowest enabled slot that writes a register another one writes too (R211). -/
def clashSlot : List SlotIn → Option SlotIn
  | [] => none
  | x :: xs => if xs.any (fun y => writeClash x.op y.op) then some x else clashSlot xs

/-- A register named by the slot has a load pending (R212). -/
def State.regWait (s : State) (k : Nat) (o : SlotOp) : Bool :=
  (s.seq k).awaited.any (fun r => decide (r ≠ 0) && (o.sR.contains r || o.sW.contains r))

/-- An exception with the detail R223 gives it: the slot's bits for the three decoder codes. -/
def SlotIn.detail (x : SlotIn) (e : Exc) : Exc :=
  if e.code = E.SEQ_OPCODE ∨ e.code = E.SEQ_BUNDLE ∨ e.code = E.SEQ_OPERAND then { e with info := x.w } else e

/-- What becomes of a bundle that stands at issue. -/
inductive Verdict where
  | raise (slot : Nat) (e : Exc)
  | wait (slot code : Nat)
  | go

/-- A register that the slot reads has a load pending: the checks that depend on it are not made yet (R212, R215). -/
def State.srcWait (s : State) (k : Nat) (o : SlotOp) : Bool := (s.seq k).awaited.any (fun r => decide (r ≠ 0) && o.sR.contains r)

/-- The exception of a slot that waits for a register, by the checks that do not depend on it (R215). -/
def State.freeExc (s : State) (k : Nat) (x : SlotIn) : Option Exc := if s.srcWait k x.op then (x.op.free s).map x.detail else none

/-- The first wait that `w` finds. -/
def firstWait (w : SlotIn → Nat) : List SlotIn → Option Verdict
  | [] => none
  | x :: xs => if w x ≠ 0 then some (.wait x.c.slot.val (w x)) else firstWait w xs

/-- R242: the array slot writes a tile register that the glaze slot's chain reads or writes; both descriptors have passed their checks. -/
def tileClash (s : State) (on : List SlotIn) (x : SlotIn) : Bool :=
  let ok := fun (y : SlotIn) => (y.op.chk s).isNone
  ok x && (x.op.tW s).any (fun r => on.any (fun y => ok y && (y.op.tG s).contains r))

/-- The exception of one slot: its decoding (R208), a register that another slot writes too (R211), then, when it is enabled, its own checks and the
tile registers of R242. -/
def State.slotExc (s : State) (k : Nat) (on : List SlotIn) (x : SlotIn) : Option Exc :=
  x.decodeExc.orElse (fun _ =>
    if s.enabled k x.c then
      if ((clashSlot on).map (fun y => y.c.slot)) = some x.c.slot then some (exc E.SEQ_BUNDLE x.w)
      else if s.srcWait k x.op then s.freeExc k x
      else ((x.op.chk s).map x.detail).orElse (fun _ => if tileClash s on x then some (exc E.SEQ_BUNDLE x.w) else none)
    else none)

/-- The exception of the lowest slot that raises one (R221); the slot at which a stepped bundle stopped decoding is one of them. -/
def State.firstRaise (s : State) (k : Nat) (on all : List SlotIn) : Option Verdict :=
  match all.findSome? (fun x => (s.slotExc k on x).map (fun e => (x.c.slot.val, e))), (s.seq k).fetchErr with
  | some r, some f => some (if f.1 < r.1 then .raise f.1 (exc f.2.1 f.2.2) else .raise r.1 r.2)
  | some r, none => some (.raise r.1 r.2)
  | none, some f => some (.raise f.1 (exc f.2.1 f.2.2))
  | none, none => none

/-- The waits of the enabled slots: for registers first (R212), then, lowest slot first, their own. A slot that fails a check does not wait (R215), but
for one that has to wait before it reads its descriptor (R238). -/
def State.firstHold (s : State) (k : Nat) (on : List SlotIn) : Option Verdict :=
  (firstWait (fun x => if s.regWait k x.op then 1 else 0) on).orElse (fun _ =>
    (firstWait (fun x => if x.op.desc || (x.op.chk s).isNone then x.op.wait s else 0) on).orElse (fun _ =>
      firstWait (fun x => if (x.op.chk s).isNone then x.op.hold s else 0) on))

/-- What becomes of a bundle: a run past the image (R214); else its exceptions before its waits (R215), or after them where a slot reads a descriptor, and
then the wait that follows the checks (R238, R245). -/
def State.judge (s : State) (k : Nat) (b : List Instr) : Verdict :=
  let all := slotsOf b
  let on := all.filter (fun x => s.enabled k x.c)
  let raise := s.firstRaise k on all
  let hold := s.firstHold k on
  if s.nbundles k ≤ s.pc k then .raise 0 (exc E.SEQ_PC (s.pc k))
  else if on.any (fun x => x.op.desc) && on.all (fun x => (s.freeExc k x).isNone) then ((hold.orElse (fun _ => raise)).orElse (fun _ => firstWait (fun x => x.op.late s) on)).getD .go
  else (raise.orElse (fun _ => hold)).getD .go

/-- The loop levels after the bundle at `pc` has issued and is not a taken branch, innermost first, and the next index (R232). -/
def loopEnd (pc : Nat) : List LoopLvl → Nat → List LoopLvl × Nat
  | [], nx => ([], nx)
  | l :: ls, nx =>
    if l.last = pc then
      if l.count ≤ 1 then loopEnd pc ls nx else ({ l with count := l.count - 1 } :: ls, l.first)
    else let r := loopEnd pc ls nx
         (l :: r.1, r.2)

/-- A taken branch closes every level whose body does not hold its target, and every level inside it (R232). -/
def loopsKept (t : Nat) (ls : List LoopLvl) : List LoopLvl :=
  let out := (ls.zipIdx.filter (fun p => decide (t < p.1.first ∨ p.1.last < t))).map Prod.snd
  match out.getLast? with
  | some i => ls.drop (i + 1)
  | none => ls

/-- The next bundle after control flow `c` from `pc` (R203, R214, R222, R232). -/
def State.flow (s : State) (k : Nat) (c : Ctl) : State :=
  let pc := s.pc k
  let ls := (s.seq k).loops
  let go := fun (s : State) (r : List LoopLvl × Nat) => (s.modSeq k (fun x => { x with loops := r.1 })).setPc k r.2
  match c with
  | .seq => go s (loopEnd pc ls (pc + 1))
  | .branch t => go s (loopsKept t ls, t)
  | .jump t => s.setPc k t
  | .loop n last =>
    if n = 0 then go s (loopEnd pc ls (last + 1))
    else let r := loopEnd pc ls (pc + 1)
         go s ({ first := pc + 1, last := last, count := n } :: r.1, r.2)
  | .halt => (go s (loopEnd pc ls (pc + 1))).setSeqState k seqHALTED
  | .trapRet t => s.setPc k t

/-- The bundle issues: its enabled slots take effect in slot order with their sources read before (R210, R211, R213). -/
def State.issueBundle (s : State) (k : Nat) (b : List Instr) : State :=
  let on := (slotsOf b).filter (fun x => s.enabled k x.c)
  let ctl := ((on.map (fun x => x.op.ctl s)).find? (fun c => decide (c ≠ Ctl.seq))).getD .seq
  let s' := on.foldl (fun t x => x.op.eff s t) s
  let s' := (s'.flow k ctl).count (R.SEQ_CNT.issued (k / 4) (k % 4)) 1
  let s' := (s'.put (R.SEQ_STAT.wait (k / 4) (k % 4)) 0).put (R.VER_HDR.gate_hold k) 0
  if (s.seq k).stepping then (s'.modSeq k (fun x => { x with stepping := false, held := [] })).setSeqState k seqHALTED else s'

/-- The slots of a bundle that wait: enabled, their checks made and passed (R215). -/
def State.waitsOf (s : State) (k : Nat) (b : List Instr) : List SlotIn :=
  (slotsOf b).filter (fun x => s.enabled k x.c && !s.srcWait k x.op && (x.op.chk s).isNone && decide (x.op.wait s ≠ 0))

/-- The slots that wait in the bundle of sequencer `k` that stands at issue. -/
def State.waiting (s : State) (k : Nat) : List SlotIn := match (s.seq k).held with
  | [] => []
  | b :: _ => s.waitsOf k b

/-- A VER.ADMIT is among them. -/
def admitAmong (l : List SlotIn) : Bool := l.any (fun x => match x.i with
  | .verAdmit .. => true
  | _ => false)

/-- What a bundle that waits leaves behind: the wait code, since when, and the gate of a VER.ADMIT that waits (R180, R227). -/
def State.noteWait (s : State) (k code : Nat) (b : List Instr) (fresh : Bool) : State :=
  let s := s.put (R.SEQ_STAT.wait (k / 4) (k % 4)) code
  let s := if fresh then s.modSeq k (fun x => { x with waitSince := s.now }) else s
  s.put (R.VER_HDR.gate_hold k) (b2n (admitAmong (s.waitsOf k b) && (s.admitStart k).gateHeld k))

/-- The bundle has a VER.ADM. -/
def hasAdm (b : List Instr) : Bool := b.any (fun i => match i with
  | .verAdm .. => true
  | _ => false)

/-- The single-bit errors that the refused slot's reads have met are corrected and counted (R109). -/
def State.noteRefused (s : State) (k slot : Nat) (b : List Instr) : State :=
  ((slotsOf b).filter (fun x => decide (x.c.slot.val = slot) && !s.srcWait k x.op)).foldl (fun t x =>
    (x.op.reads s).foldl (fun t r => t.fixSoft (tileBase (k / 4) + r.1) r.2) t) s

/-- A bundle stands at issue: it issues, waits, or raises its exception; a pointer that VER.ADM was refused is reported in VER_CSTAT (R182). -/
def State.tryBundle (s : State) (k : Nat) (b : List Instr) (fresh : Bool) : State :=
  match s.judge k b with
  | .raise slot e => ((if e.code = E.CFG_COMMIT ∧ hasAdm b = true then s.verResult k 2 else s).noteRefused k slot b).takeExc k slot e
  | .wait _ code =>
    let s := s.noteWait k code b fresh
    if fresh then s.modSeq k (fun x => { x with held := x.held ++ [b] }) else s
  | .go => (if fresh then s else s.modSeq k (fun x => { x with held := x.held.drop 1 })).issueBundle k b

/-- True when the sequencer issues bundles: RUNNING, or stepping (R203). -/
def State.issues (s : State) (k : Nat) : Bool :=
  decide (s.seqState k = seqRUNNING) || (decide (s.seqState k = seqHALTED) && (s.seq k).stepping)

/-- True while sequencers issue: in Bake, with no deeper rung being entered (R494, R495), and not in the error state (R538). -/
def State.live (s : State) : Bool :=
  !s.flag R.RAS_STAT.fatal && decide (s.get R.PWR_STAT.rung = 0) && !(s.flag R.PWR_STAT.busy && decide (s.get R.PWR_STAT.target ≠ 0))

/-- A slot instruction given to its sequencer. A sequencer that does not run takes nothing; slots come in rising order; the
bundle issues with its last slot, behind the bundles that wait. -/
def issue (c : SlotCtl) (i : Instr) (s : State) : Result :=
  let k := seqKey c
  let x := s.seq k
  let inOrder := match (x.staged.getLast?).bind slotCtlOf with
    | some d => decide (d.slot.val < c.slot.val)
    | none => true
  .next (
    if s.seqState k ≠ seqRUNNING ∨ inOrder = false then s
    else if c.more then s.modSeq k (fun x => { x with staged := x.staged ++ [i] })
    else
      let b := x.staged ++ [i]
      let s := if x.staged.isEmpty then s else s.modSeq k (fun x => { x with staged := [] })
      if x.held.isEmpty && s.live then s.tryBundle k b true
      else s.modSeq k (fun x => { x with held := x.held ++ [b] }))

/-- The oldest waiting bundle of a sequencer is looked at again. -/
def State.retry (s : State) (k : Nat) : State :=
  match (s.seq k).held with
  | [] => s
  | b :: _ => if s.issues k && s.live then s.tryBundle k b false else s

end Sys2Proof.Machine
end

