-- ==== Sys2Proof/Machine/SeqCtl.lean ====
section
/-! DEFINITION. Machine/SeqCtl.lean: binding, loading and commanding a sequencer (R200 to R204), its register writes (R154, R227), the
ends of waits (R158, R219), and one ac of the block with no command (R155, R180, R189, R227). -/

namespace Sys2Proof.Machine

/-! ## Register state of a sequencer -/

/-- The registers, stacks, buffers and sets of a sequencer at their values after load (R197, R202); its store and image
are kept. -/
def Seq.clearRegs (x : Seq) : Seq :=
  { Seq.empty with nbundles := x.nbundles, entry := x.entry, trapEn := x.trapEn, trap := x.trap, store := x.store, ino := x.ino,
                   dma := x.dma, late := x.late.filter TsAcc.wr }

/-- The loads of a sequencer that have not returned are dropped; their packets are acknowledged (R17, R203). -/
def State.dropLoads (s : State) (k : Nat) : State :=
  ((s.seq k).loads.foldl (fun s ld => s.ackPkt k 1 (ldOfDie (k / 4)) (s.homeLd ld.addr)) s).modSeq k (fun x => { x with loads := [] })

/-- The instruction store and registers zeroed, the sequencer UNBOUND, no load in progress (R203). -/
def State.unbindSeq (s : State) (k : Nat) : State :=
  let s := ((s.stopIssue k).dropLoads k).modSeq k (fun x => { Seq.empty with dma := x.dma, late := x.late.filter TsAcc.wr, ino := x.ino })
  let s := (s.setPc k 0).puts [(R.SEQ_STAT.in_trap (k / 4) (k % 4), 0), (R.SEQ_BSTAT.busy (k / 4) (k % 4), 0)]
  s.setSeqState k seqUNBOUND

/-- A load begins (R202, R203). -/
def State.startLoad (s : State) (k : Nat) : State :=
  ((s.stopIssue k).setSeqState k seqLOADING).put (R.SEQ_BSTAT.busy (k / 4) (k % 4)) 1

/-! ## Binding (R201) -/

/-- The CFG_COMMIT causes of R201, and that of R440. -/
def State.bindBad (s : State) (k : Nat) : Bool :=
  let n := k / 4
  let q := k % 4
  let c := s.sget (R.SEQ_BIND.ctx n q)
  let st := s.sget (R.SEQ_BIND.stage n q)
  let en := decide (s.sget (R.SEQ_BIND.en n q) = 1)
  (en && !(s.flag (R.DIE_OWN.assigned n) && decide (s.get (R.DIE_OWN.ctx n) = c)))
  || (en && (List.range 96).any (fun j => decide (j ≠ k) && s.seqBound j && decide (s.seqCtx j = c) && decide (s.seqStage j = st)))
  || s.leaving c || decide (s.sget (R.SEQ_IMG.img_addr n q) % 4096 ≠ 0) || decide (s.seqState k = seqLOADING ∨ s.seqState k = seqRUNNING)

/-- BAR0 offset of a register of sequencer `k` (R227). -/
def seqReg (k o : Nat) : Nat := 0x0200_8000 + 0x8_0000 * (k / 4) + 0x100 * (k % 4) + o

/-- What becomes of a write to a register of a compute die: dropped while its half is in reset or the die is gated or in reset (R25, R565). -/
def State.dieGated (s : State) (n off : Nat) (t : State) : State :=
  s.gated off (
    if s.halfInReset (halfOfDie n) then s.raise E.LINK_HALF_DOWN none (atEntry (ldOfDie n)) off
    else if s.dieOff n then s.raise E.PWR_DIE_OFF none (atLd (ldOfDie n)) off
    else t)

/-- SEQ_BCOMMIT (R201, R203, R451): a commit in LOADING is one of the refusals of R201, reported in SEQ_BSTAT. -/
def execSeqBcommit (die : Fin 24) (q : Fin 4) (s : State) : Result :=
  let n := die.val
  let q := q.val
  let k := 4 * n + q
  let c := s.sget (R.SEQ_BIND.ctx n q)
  .next (s.gated (seqReg k 0x10) (
    if s.halfInReset (halfOfDie n) then s.raise E.LINK_HALF_DOWN none (atEntry (ldOfDie n)) k
    else if s.flag (R.SEQ_BSTAT.busy n q) && decide (s.seqState k ≠ seqLOADING) then s.cfgRange none k
    else if s.bindBad k then
      (s.raise E.CFG_COMMIT (some c) (atLd (ldOfDie n)) k).puts [(R.SEQ_BSTAT.result n q, 2), (R.SEQ_BSTAT.cause n q, 0)]
    else
      let en := decide (s.sget (R.SEQ_BIND.en n q) = 1)
      let s := if en || decide (s.seqState k = seqUNBOUND) then s else s.unbindSeq k
      let s := if s.seqState k = seqFAULTED then s.setSeqState k seqHALTED else s
      let s := s.commit [R.SEQ_IMG.img_addr n q, R.SEQ_BIND.en n q, R.SEQ_BIND.ctx n q, R.SEQ_BIND.stage n q]
      let s := s.puts [(R.SEQ_BSTAT.result n q, if en then 0 else 1), (R.SEQ_BSTAT.cause n q, 0)]
      if en then s.startLoad k else s))

/-! ## Loading (R200, R202) -/

/-- The image header (R200). -/
structure ImgHead where
  magic    : Nat
  version  : Nat
  isa      : Nat
  trapEn   : Bool
  arrays   : Nat
  nbundles : Nat
  entry    : Nat
  trap     : Nat
  constLen : Nat
  constTs  : Nat
  digest   : List Byte
deriving DecidableEq, Repr

/-- The header from its 128 bytes. -/
def imgHeadOf (d : List Byte) : ImgHead :=
  let f := fun i n => leNat ((d.drop i).take n)
  { magic := f 0 4, version := f 4 1, isa := f 5 1, trapEn := bit (f 6 1) 3, arrays := f 6 1 % 4, nbundles := f 8 2, entry := f 10 2
    trap := f 12 2, constLen := f 16 4, constTs := f 20 4 % 2 ^ 26, digest := (d.drop 24).take 48 }

/-- The refusal cause of a load (R202), 0 for none: the header's reading first, its fields, the whole range, the reading of the
body, its digest, the arrays. The flag says that the constants have been copied by then. -/
def State.loadCause (s : State) (k : Nat) : Nat × Bool :=
  let n := k / 4
  let q := k % 4
  let c := s.seqCtx k
  let a := s.get (R.SEQ_IMG.img_addr n q)
  let h := imgHeadOf (s.bytes a 128)
  let len := 32 * h.nbundles + h.constLen
  if !s.permits c a 128 false then (5, false)
  else if !s.s0Ok a 128 then (8, false)
  else if h.magic ≠ 0x4E47_4449 ∨ h.version ≠ 1 then (1, false)
  else if 1 < h.isa then (2, false)
  else if 16384 < h.nbundles ∨ (0 < h.nbundles ∧ h.nbundles ≤ h.entry) ∨ (h.trapEn = true ∧ h.nbundles ≤ h.trap) then (3, false)
  else if h.constTs % 64 ≠ 0 ∨ tileBytes < h.constTs + h.constLen then (4, false)
  else if 0 < len ∧ s.permits c (a + 128) len false = false then (5, false)
  else if !s.s0Ok (a + 128) len then (8, false)
  else if sha384 (s.bytes (a + 128) len) ≠ h.digest then (6, true)
  else if (bit h.arrays 0 && !s.works n (2 * q)) || (bit h.arrays 1 && !s.works n (2 * q + 1)) then (7, true)
  else (0, true)

/-- The ranges that a load reads: the header, and the rest of the image once the header is right and its range permitted (R202). -/
def State.loadReads (s : State) (k : Nat) : List (Nat × Nat) :=
  let a := s.get (R.SEQ_IMG.img_addr (k / 4) (k % 4))
  let h := imgHeadOf (s.bytes a 128)
  if !s.permits (s.seqCtx k) a 128 false then []
  else if s.s0Ok a 128 && [0, 6, 7, 8].contains (s.loadCause k).1 then [(a, 128), (a + 128, 32 * h.nbundles + h.constLen)]
  else [(a, 128)]

/-- What those reads leave behind (R17, R25, R384, R385). -/
def State.loadNotes (s : State) (k : Nat) : State :=
  (s.loadReads k).foldl (fun s r =>
    (s.readNote (some (s.seqCtx k)) (s.downFrom (ldOfDie (k / 4))) r.1 r.2).crossFrom k (ldOfDie (k / 4)) r.1 r.2) s

/-- The instruction store from the bundles of an image; a bundle of zeros is not listed. -/
def State.storeOf (s : State) (a nb : Nat) : KMap (BitVec 256) :=
  (List.range nb).filterMap (fun i =>
    let v : BitVec 256 := BitVec.ofNat 256 (s.le (a + 128 + 32 * i) 32)
    if v = 0 then none else some (i, v))

/-- SEQ_LOAD_COMPLETE (R202, R203, R392, R480): while memory is awake the image of the binding is read, checked and loaded, or refused. A sequencer that ran when the module
left Bake for Rest or Freeze is run again (R496). -/
def execSeqLoadComplete (die : Fin 24) (q : Fin 4) (s : State) : Result :=
  let n := die.val
  let q := q.val
  let k := 4 * n + q
  .next (
    if s.seqState k ≠ seqLOADING ∨ KMap.find (fun _ => false) s.dieRst n = true ∨ s.asleep = true then s
    else
      let a := s.get (R.SEQ_IMG.img_addr n q)
      let h := imgHeadOf (s.bytes a 128)
      let r := s.loadCause k
      let consts := s.bytes (a + 128 + 32 * h.nbundles) h.constLen
      let store := s.storeOf a h.nbundles
      let s := (s.loadNotes k).permNote s.entryLd (s.seqCtx k)
        (if r.1 = 5 then [(a, 128, false), (a + 128, 32 * h.nbundles + h.constLen, false)] else [])
      let s := if r.2 then s.write (tileBase n + h.constTs) consts else s
      let s := (s.put (R.SEQ_BSTAT.busy n q) 0).put (R.SEQ_BSTAT.cause n q) r.1
      let s := (s.put (R.SEQ_STAT.in_trap n q) 0).put (R.SEQ_STAT.wait n q) 0
      if r.1 = 0 then
        let s := s.modSeq k (fun x =>
          { x.clearRegs with nbundles := h.nbundles, entry := h.entry, trapEn := h.trapEn, trap := h.trap, store := store,
                             loadedNoNext := true })
        let s := ((s.setPc k h.entry).put (R.SEQ_BSTAT.result n q) 1).setSeqState k seqHALTED
        if s.rerun.contains k then { s.setSeqState k (if h.nbundles = 0 then seqHALTED else seqRUNNING) with rerun := s.rerun.filter (· ≠ k) }
        else s
      else
        let s := s.modSeq k (fun x => { x.clearRegs with nbundles := 0, store := [] })
        let s := (s.put (R.SEQ_BSTAT.result n q) 3).raise E.SEQ_IMAGE (some (s.seqCtx k)) (atLd (ldOfDie n)) r.1
        let s := { s with rerun := s.rerun.filter (· ≠ k) }
        s.setSeqState k seqUNBOUND)

/-! ## Commands (R203, R204) -/

/-- A SEQ_CMD not listed for the state (R204). -/
def State.cmdIgnored (s : State) (k : Nat) : State := s.raise E.CFG_RANGE (some (s.seqCtx k)) (atDie (k / 4)) (seqReg k 0x18)

/-- SEQ_CMD run: an image with no bundles goes back to HALTED at once (R202). -/
def execSeqCmdRun (die : Fin 24) (q : Fin 4) (s : State) : Result :=
  let k := 4 * die.val + q.val
  .next (s.dieGated die.val (seqReg k 0x18) (
    if s.seqState k = seqHALTED ∨ s.seqState k = seqFAULTED then
      if s.nbundles k = 0 then s.setSeqState k seqHALTED
      else (s.stopIssue k).setSeqState k seqRUNNING
    else s.cmdIgnored k))

/-- SEQ_CMD halt: a bundle waiting at issue does not issue. -/
def execSeqCmdHalt (die : Fin 24) (q : Fin 4) (s : State) : Result :=
  let k := 4 * die.val + q.val
  .next (s.dieGated die.val (seqReg k 0x18) (if s.seqState k = seqRUNNING then (s.stopIssue k).setSeqState k seqHALTED else s.cmdIgnored k))

/-- The bundle at the program counter, decoded (R205, R208): the slots that decode, and the first that does not with its code and bits. -/
def State.fetchBundle (s : State) (die : Fin 24) (q : Fin 4) : List Instr × Option (Nat × Nat × Nat) :=
  let k := 4 * die.val + q.val
  let w := (KMap.find (fun _ => (0 : BitVec 256)) (s.seq k).store (s.pc k)).toNat
  let slot := fun (i : Fin 4) => w / 2 ^ (64 * i.val) % 2 ^ 64
  [(0 : Fin 4), 1, 2, 3].foldl (fun r i => match decSlot die q i (decide (i.val < 3)) (slot i) with
    | .ok x => (r.1 ++ [x], r.2)
    | .error e => (r.1, r.2.orElse (fun _ => some (i.val, e, slot i)))) ([], none)

/-- SEQ_CMD step: the bundle at the program counter issues when it can (R203). -/
def execSeqCmdStep (die : Fin 24) (q : Fin 4) (s : State) : Result :=
  let k := 4 * die.val + q.val
  .next (s.dieGated die.val (seqReg k 0x18) (
    if s.seqState k ≠ seqHALTED then s.cmdIgnored k
    else
      let r := s.fetchBundle die q
      let s := (s.stopIssue k).modSeq k (fun x => { x with stepping := true, fetchErr := r.2 })
      if s.nbundles k ≤ s.pc k then s.takeExc k 0 (exc E.SEQ_PC (s.pc k))
      else if s.live then s.tryBundle k r.1 true else s.modSeq k (fun x => { x with held := [r.1] })))

/-- SEQ_CMD unbind. -/
def execSeqCmdUnbind (die : Fin 24) (q : Fin 4) (s : State) : Result :=
  let k := 4 * die.val + q.val
  .next (s.dieGated die.val (seqReg k 0x18) (if s.seqState k = seqHALTED ∨ s.seqState k = seqFAULTED then s.unbindSeq k else s.cmdIgnored k))

/-! ## Register writes -/

/-- SEQ_PC written by a master (R203, R227, R455). -/
def execSeqPcWrite (m : Master) (die : Fin 24) (q : Fin 4) (pc : BitVec 14) (s : State) : Result :=
  let k := 4 * die.val + q.val
  let off := 0x0200_8028 + 0x8_0000 * die.val + 0x100 * q.val
  .next (s.dieGated die.val off (
    if !s.owns m 0 then s.ownDrop m off
    else if s.seqState k = seqHALTED ∨ s.seqState k = seqFAULTED then (s.stopIssue k).setPc k pc.toNat
    else s.raise E.CFG_RANGE (some (s.seqCtx k)) (atDie die.val) off))

/-- A schedule register written through BAR0 (R154, R166, R252): 0 SCHED_BASE, 1 SCHED_COUNT, 2 SCHED_CTL, 3 SCHED_ROUND,
4 SCHED_ENT. -/
def execSchedRegisterWrite (die : Fin 24) (q : Fin 4) (sel : Fin 5) (idx : BitVec 8) (v : BitVec 32) (s : State) : Result :=
  let n := die.val
  let k := 4 * n + q.val
  let q := q.val
  let v := v.toNat
  .next (s.dieGated n (0x0200_5000 + 0x8_0000 * n + 32 * q) (
    if s.schedOpen k then
      match sel with
      | 0 => s.put (R.SCHED_BASE.base n q) v
      | 1 => s.put (R.SCHED_COUNT.count n q) v
      | 2 => s.puts [(R.SCHED_CTL.stride n q, bits v 24 8), (R.SCHED_CTL.last n q, bits v 16 8),
                     (R.SCHED_CTL.mode n q, bits v 0 2), (R.SCHED_CTL.ptr n q, 0)]
      | 3 => s.put (R.SCHED_ROUND.round n q) v
      | 4 => s.puts [(R.SCHED_ENT.flume n q idx.toNat, bits v 16 13), (R.SCHED_ENT.offset n q idx.toNat, bits v 0 16)]
    else s.raise E.CFG_RANGE (some (s.seqCtx k)) (atDie n) (0x0200_5000 + 0x8_0000 * n + 32 * q)))

/-! ## Waits that end -/

/-- The lowest slot of a waiting bundle that has a wait left. -/
def State.waitSlot (s : State) (k : Nat) (b : List Instr) : Nat :=
  match s.judge k b with
  | .wait slot _ => slot
  | _ => 0

/-- SEQ_WAIT_TIMEOUT (R219): a bundle that has waited SEQ_WDOG ticks raises SEQ_WAIT. -/
def execSeqWaitTimeout (die : Fin 24) (q : Fin 4) (s : State) : Result :=
  let n := die.val
  let k := 4 * n + q.val
  let w := s.get (R.SEQ_WDOG.ticks n q.val)
  .next (match (s.seq k).held with
    | [] => s
    | b :: _ =>
      if 0 < w then
        s.takeExc k (s.waitSlot k b) (exc E.SEQ_WAIT (s.get (R.SEQ_STAT.wait n q.val)))
      else s)

/-- The slot of a sequencer that waits on flume `f`. -/
def State.waitsFlume (s : State) (k f : Nat) : Option Nat :=
  (s.waiting k).findSome? (fun x => if (x.op.waitPush s).contains f || (x.op.waitPop s).contains f then some x.c.slot.val else none)

/-- Every operation of a sequencer that waits on flume `f` ends with FLM_HELD (R158). -/
def State.endHeldWaits (s : State) (f : Nat) : State :=
  (List.range 96).foldl (fun s k => match s.waitsFlume k f with
    | some slot => s.takeExc k slot (exc E.FLM_HELD f)
    | none => s) s

/-! ## Pins that end (R173) -/

/-- True when a VER.PIN of sequencer `l` waits on slot `i` (R172), whatever else its bundle waits for. -/
def State.pinWaits (s : State) (l i : Nat) : Bool :=
  (s.waiting l).any (fun x => match x.i with
    | .verPin _ _ _ o => decide (s.pinSlot l o = some i)
    | _ => false)

/-- VER_CMD drop: a pin that waits on the slot ends with cause 3 before the slot is freed (R173, R177, R191). -/
def execVerCmdDrop (l : Fin 96) (sl : Fin 4) (s : State) : Result :=
  let i := sl.val
  let l := l.val
  .next (s.gated 0x038C_0010 (
    if s.halfInReset (halfOfDie (l / 4)) then s.raise E.LINK_HALF_DOWN none (atEntry (ldOfDie (l / 4))) l
    else if s.vst l i ≠ verBUILDING then
      (s.raise E.VER_STATE (some (s.seqCtx l)) (atLd (ldOfDie (l / 4))) i).verResult l 3
    else
      let s := if s.pinWaits l i then { s with pinEnd := KMap.put (fun _ => 0) s.pinEnd l 3 } else s
      (s.put (R.VER_SLOT.state l i) verFREE).verResult l 1))

/-- VER_PIN_TIMEOUT: a pin that has waited VER_TMO ticks on a BUILDING slot ends with cause 4 (R173). -/
def execVerPinTimeout (l : Fin 96) (s : State) : Result :=
  let l := l.val
  .next (if (List.range 4).any (s.pinWaits l) then { s with pinEnd := KMap.put (fun _ => 0) s.pinEnd l 4 } else s)

/-! ## One ac with no command -/

/-- Counters of one sequencer in one ac (R198, R227). -/
def State.tickSeq (s : State) (k : Nat) : State :=
  let s := if s.seqState k = seqRUNNING then s.modSeq k (fun x => { x with cycle := x.cycle + 1 }) else s
  if (s.seq k).held.isEmpty then s else s.count (R.SEQ_CNT.waited (k / 4) (k % 4)) 1

/-- The flumes that waiting slots want to push to or take from, as `w` says. -/
def State.wanted (s : State) (w : SlotOp → State → List Nat) : List Nat :=
  (s.seqs.map Prod.fst).flatMap (fun k => (s.waiting k).flatMap (fun x => w x.op s))

/-- The counters of one flume in one ac (R155). -/
def State.tickFlume (pushes pops : List Nat) (s : State) (f : Nat) : State :=
  if s.flmState f ≠ flmOPEN then s
  else
    let s := if pushes.contains f && !s.canPush f then s.count (R.FLM_CNT.full f) 1 else s
    let s := if pops.contains f && (s.flume f).readyHead.isNone then s.count (R.FLM_CNT.empty f) 1 else s
    if (s.flume f).spilling then s.count (R.FLM_CNT.spill f) 1 else s

/-- The gate and barrier counters of an entry stage (R180, R189). -/
def State.tickVer (s : State) (l : Nat) : State :=
  if !admitAmong (s.waiting l) then s
  else
    let held := (s.admitStart l).gateHeld l
    let s := s.put (R.VER_HDR.gate_hold l) (b2n held)
    let s := if held then s.count (R.VER_CNT.gate l) 1 else s
    if s.flag (R.VER_HDR.bar_hold l) then s.count (R.VER_CNT.bar l) 1 else s

/-- One ac on the compute dies: what counts time counts, then every waiting bundle is looked at again. `outPush` and `outPop` are the flumes that
host stages and partners wait on. -/
def State.tickDies (s : State) (outPush outPop : List Nat) : State :=
  let busySeqs := s.seqs.map Prod.fst
  let s := (s.arrs.map Prod.fst).foldl (fun s a => s.tickArr (a / 8) (a % 8)) s
  let pushes := outPush ++ s.wanted SlotOp.waitPush
  let pops := outPop ++ s.wanted SlotOp.waitPop
  let s := s.boundFlumes.foldl (State.tickFlume pushes pops) s
  let s := busySeqs.foldl State.tickVer s
  let s := busySeqs.foldl State.tickSeq s
  let s := busySeqs.foldl State.lateDo s
  busySeqs.foldl State.retry s

end Sys2Proof.Machine
end

