-- ==== Sys2Proof/Machine/Cut.lean ====
section
/-! DEFINITION. Machine/Cut.lean: cut tables and their commits (R261 to R266), phases and row areas (R267 to R270), the foreman at a step
boundary (R156, R157, R271, R277), the norm chain (R283 to R285) and the variant table's commit (R286 to R288). -/

namespace Sys2Proof.Machine

/-! ## The reduction channel (R409, R410) -/

/-- A reduction message of context `c` given to a link, with its source and job (R410). A context with no enabled route sends nothing. -/
def State.redGo (s : State) (c link src dst job kind : Nat) (body : List Nat) : State :=
  if s.flag (R.RED_CTL.en c) ∧ link < 24 then
    let key := 64 * link + c
    let num := KMap.find (fun _ => 0) s.redTx key
    ({ s with redTx := KMap.put (fun _ => 0) s.redTx key (num + 1) }).redGive link ⟨c, num, kind, dst :: src :: job :: body⟩
  else s

/-- A reduction message of this module on a link: destination, source, job, message number and body (R410). -/
def State.redOn (s : State) (c link dst kind : Nat) (body : List Nat) : State :=
  let job := match s.cutTable c 0 with
    | some t => t.job
    | none => 0
  s.redGo c link (s.moduleOf c) dst job kind body

/-- The reduction link towards a module: next to a higher index, prev to a lower one (R409). -/
def State.redLinkTo (s : State) (c dst : Nat) : Nat := if s.moduleOf c < dst then s.get (R.RED_CTL.next c) else s.get (R.RED_CTL.prev c)

/-- A message to module `dst` (R409). -/
def State.redSend (s : State) (c dst kind : Nat) (body : List Nat) : State := s.redOn c (s.redLinkTo c dst) dst kind body

/-- The link on which a message came: over prev from a lower index and over next from a higher one (R409). -/
def State.redDir (s : State) (h : RedHdr) : Nat :=
  if h.src.toNat < s.moduleOf h.ctx.val then s.get (R.RED_CTL.prev h.ctx.val) else s.get (R.RED_CTL.next h.ctx.val)

/-- The number that the next message of a context on a link has (R410). -/
def State.redNext (s : State) (c link : Nat) : Nat := KMap.find (fun _ => 0) s.redRx (64 * link + c)

/-- True when a message is addressed to this module, or to every one (R409, R410). -/
def State.redHere (s : State) (h : RedHdr) : Bool := decide (h.dest = 0xFFFF ∨ h.dest.toNat = s.moduleOf h.ctx.val)

/-- True when a message that comes on a link is taken here: the session is up, the number is new, and the message is for this module (R409, R410). -/
def State.redMine (s : State) (h : RedHdr) (link : Nat) : Bool :=
  decide (link < 24) && s.skwUp link && decide (s.redNext h.ctx.val link ≤ h.num.toNat) && s.redHere h

/-- A message of `n` elements, its destination, source and job among them, taken off its link: its frames are accepted and its number is taken (R403, R410). -/
def State.redGot (s : State) (h : RedHdr) (link kind n : Nat) : State :=
  let s := s.skwTake link (redFrames kind n)
  { s with redRx := KMap.put (fun _ => 0) s.redRx (64 * link + h.ctx.val) (h.num.toNat + 1) }

/-- A reduction message that comes on a link (R409, R410): one whose number has been taken already is discarded, one for another module is forwarded
with its source and job, and the others have their effect. -/
def State.redIn (s : State) (h : RedHdr) (link kind : Nat) (body : List Nat) (go : State → State) : State :=
  let c := h.ctx.val
  if link < 24 ∧ s.skwUp link = true then
    if h.num.toNat < s.redNext c link then s.skwTake link (redFrames kind (body.length + 3))
    else
      let s := s.redGot h link kind (body.length + 3)
      if s.redHere h then go s
      else s.redGo c (s.redLinkTo c h.dest.toNat) h.src.toNat h.dest.toNat h.job.toNat kind body
  else s

/-! ## The check of a staged table (R264) -/

/-- A range that S0 reads: 64-byte aligned, in the context's windows, and read whole. -/
def State.tableRange (s : State) (c a n : Nat) : Bool := decide (a % 64 = 0) && s.permits c a n false && s.s0Ok a n

/-- The reads that S0 makes of ranges taken in order: it reads no further than the first that it cannot use. -/
def State.readsUpTo (s : State) (c : Nat) : List (Nat × Nat) → List (Nat × Nat)
  | [] => []
  | r :: rs => if r.1 % 64 = 0 ∧ s.permits c r.1 r.2 false = true then (if s.s0Ok r.1 r.2 then r :: s.readsUpTo c rs else [r]) else []

/-- The staged table of context `c` and phase `p` as it stands in memory; unread parts are empty. -/
def State.readTable (s : State) (c p : Nat) : CutTable :=
  let a := s.sget (R.CUT_BASE.base c p)
  let h : CutTable := { hdr := s.bytes a 64, rows := [], layers := [] }
  let rows := (List.range h.nstages).map (fun i => s.bytes (a + 64 + 64 * i) 64)
  let layers := (List.range h.nlayers).map (fun i => s.bytes (h.layersAddr + 32 * i) 32)
  { h with rows := rows, layers := layers }

/-- Cause 3 (R264). -/
def CutTable.rowsBad (t : CutTable) : Bool :=
  t.rows.zipIdx.any (fun x => let r := x.1
    decide (rowStage r ≠ x.2 ∨ 23 < rowDie r ∨ 240 < rowLayers r ∨ rowCount r = 0 ∨ rowCount r ≤ rowShard r
      ∨ t.nmodules ≤ rowModule r ∨ t.nreplicas ≤ rowReplica r))

/-- The rows of one position. -/
def CutTable.position (t : CutTable) (rep pos : Nat) : List (List Byte) :=
  t.rows.filter (fun r => decide (rowReplica r = rep ∧ rowPos r = pos))

/-- The positions of a replica in ascending order. -/
def CutTable.positions (t : CutTable) (rep : Nat) : List Nat :=
  (((t.rows.filter (fun r => decide (rowReplica r = rep))).map rowPos).mergeSort (· ≤ ·)).dedup

/-- The shards of a position agree and take each shard index once. -/
def shardsOk (rs : List (List Byte)) : Bool :=
  match rs with
  | [] => true
  | r :: _ =>
    rs.all (fun x => decide (rowFirst x = rowFirst r ∧ rowLayers x = rowLayers r ∧ rowCount x = rowCount r))
    && decide (rs.length = rowCount r) && (List.range (rowCount r)).all (fun i => rs.any (fun x => decide (rowShard x = i)))

/-- Where the layers covered end when the positions follow on from `n`; none when they do not. -/
def coverEnd (t : CutTable) (rep : Nat) : List Nat → Nat → Option Nat
  | [], n => some n
  | p :: ps, n => match t.position rep p with
    | [] => coverEnd t rep ps n
    | r :: _ => if rowLayers r = 0 then coverEnd t rep ps n
                else if rowFirst r = n then coverEnd t rep ps (n + rowLayers r) else none

/-- Cause 4 (R264). -/
def CutTable.coverBad (t : CutTable) : Bool :=
  (List.range t.nreplicas).any (fun rep =>
    let ps := t.positions rep
    ps.any (fun p => !shardsOk (t.position rep p)) || decide (coverEnd t rep ps 0 ≠ some t.nlayers))

/-- Cause 5 (R264). -/
def CutTable.placeBad (t : CutTable) : Bool :=
  decide (¬ (t.rows.map (fun r => (rowModule r, rowDie r, rowSeq r))).Nodup)

/-- Cause 7 (R264); an unbound flume has no context. -/
def State.flumesBad (s : State) (c : Nat) (t : CutTable) : Bool :=
  t.rows.any (fun r => decide (rowModule r = s.moduleOf c) &&
    (rowIns r ++ rowOuts r).any (fun f => decide (s.flmState f ≠ flmUNBOUND ∧ s.get (R.FLM_DESC.ctx f) ≠ c)))

/-- The layer list keeps R263. -/
def layersOk : List (List Byte) → Nat → Bool
  | [], _ => true
  | e :: es, n =>
    (match f32Num (layCost e) with
     | .fin neg m _ => !(neg && decide (m ≠ 0))
     | _ => false) && decide (layStrip0 e = n) && layersOk es (n + layStrips e)

/-- Entries of the expert section at `a`: layer, first, nsh (R275). -/
def State.expEntries (s : State) (a : Nat) : List (Nat × Nat × Nat) :=
  (List.range (s.le (a + 2) 2)).map (fun i =>
    (s.le (a + 16 + 8 * i) 2, s.le (a + 18 + 8 * i) 1, s.le (a + 19 + 8 * i) 1))

/-- The expert section keeps R275. -/
def State.expertsOk (s : State) (t : CutTable) : Bool :=
  let a := t.expAddr
  decide (a = 0) ||
  (let es := s.expEntries a
   decide (s.le a 1 = 1) && decide (List.Pairwise (fun x y => x.1 ≤ y.1) es) &&
   es.all (fun e => decide (e.1 < t.nlayers) &&
     t.rows.all (fun r => !decide (rowFirst r ≤ e.1 ∧ e.1 < rowFirst r + rowLayers r) || decide (e.2.1 + e.2.2 ≤ rowCount r))))

/-- Result and cause of a commit: (1, 0) accepted, (2, 0) CFG_ZERO, (3, cause) CFG_COMMIT (R264, R290), with cause 0 under R440. The ranges that a check
reads are looked at before it, and rows with K = 0 between causes 2 and 3: the spec orders only the causes (DESIGN CHOICE, log entries 48, 165). -/
def State.cutResult (s : State) (c p : Nat) : Nat × Nat :=
  let a := s.sget (R.CUT_BASE.base c p)
  let t := s.readTable c p
  if s.leaving c then (3, 0)
  else if 3 ≤ p then (3, 1)
  else if !s.tableRange c a 64 then (3, 6)
  else if fieldAt t.hdr 0 1 ≠ 1 ∨ fieldAt t.hdr 1 1 % 4 ≠ p then (3, 1)
  else if t.nstages = 0 ∨ 4096 < t.nstages ∨ t.nlayers = 0 ∨ t.nmodules = 0 ∨ 4096 < t.nmodules ∨ t.nreplicas = 0 then (3, 2)
  else if !s.tableRange c (a + 64) (64 * t.nstages) then (3, 6)
  else if t.rows.any (fun r => decide (rowK r = 0)) then (2, 0)
  else if t.rowsBad then (3, 3)
  else if t.coverBad then (3, 4)
  else if t.placeBad then (3, 5)
  else if !s.tableRange c t.layersAddr (32 * t.nlayers)
      || (decide (t.expAddr ≠ 0) &&
          !(s.tableRange c t.expAddr 16 && s.tableRange c t.expAddr (16 + 8 * s.le (t.expAddr + 2) 2)))
      || (decide (t.normAddr ≠ 0) && !s.tableRange c t.normAddr (4 * t.strips)) then (3, 6)
  else if s.flumesBad c t then (3, 7)
  else if !layersOk t.layers 0 || !s.expertsOk t then (3, 8)
  else (1, 0)

/-- The ranges that the check of a staged table reads, as address and length (R264). -/
def State.cutReads (s : State) (c p : Nat) : List (Nat × Nat) :=
  let a := s.sget (R.CUT_BASE.base c p)
  let t := s.readTable c p
  let r := s.cutResult c p
  let rows := (a + 64, 64 * t.nstages)
  let rest := [(t.layersAddr, 32 * t.nlayers)]
    ++ (if t.expAddr = 0 then [] else [(t.expAddr, 16 + 8 * s.le (t.expAddr + 2) 2)])
    ++ (if t.normAddr = 0 then [] else [(t.normAddr, 4 * t.strips)])
  s.readsUpTo c (
    if 3 ≤ p then []
    else if r.2 = 1 ∨ r.2 = 2 then [(a, 64)]
    else if r.1 = 2 ∨ r.2 = 3 ∨ r.2 = 4 ∨ r.2 = 5 then [(a, 64), rows]
    else [(a, 64), rows] ++ rest)

/-- The ranges of a table refused with cause 6, for the permission log (R264, R480). -/
def State.cutRanges (s : State) (c p : Nat) : List (Nat × Nat × Bool) :=
  let a := s.sget (R.CUT_BASE.base c p)
  let t := s.readTable c p
  let rd := fun (r : Nat × Nat) => (r.1, r.2, false)
  if s.cutResult c p ≠ (3, 6) then []
  else if !s.tableRange c a 64 then [rd (a, 64)]
  else if !s.tableRange c (a + 64) (64 * t.nstages) then [rd (a + 64, 64 * t.nstages)]
  else ([(t.layersAddr, 32 * t.nlayers)] ++ (if t.expAddr = 0 then [] else [(t.expAddr, 16)])
    ++ (if t.normAddr = 0 then [] else [(t.normAddr, 4 * t.strips)])).map rd

/-! ## Row areas and phases (R265, R268) -/

/-- The sequencers of context `c` whose stage has entered a phase. -/
def State.activeStages (s : State) (c : Nat) : List Nat :=
  (List.range 96).filter (fun k => s.seqBound k && decide (s.seqCtx k = c) && s.flag (R.CUT_PH.active k))

/-- The norm block (R285, R302). -/
def State.normBlock (s : State) (c : Nat) : List Byte :=
  leBytes 4 (s.get (R.NORM_SUM.sum c)) ++ leBytes 4 (s.get (R.NORM_RES.norm c)) ++ leBytes 4 (s.get (R.NORM_RES.clip c))
    ++ leBytes 4 (s.job c).nflags ++ leBytes 6 (s.job c).nstep ++ List.replicate 42 0

/-- The 64 bytes of a stage's row for phase `p`: zeros without a table in force or a row. -/
def State.rowBytes (s : State) (c p st : Nat) : List Byte :=
  match (s.cutTable c p).bind (fun t => t.row st) with
  | some r => r
  | none => List.replicate 64 0

/-- The row area of sequencer `k`'s stage written, and its event signalled (R268). -/
def State.writeRow (s : State) (k : Nat) : State :=
  let c := s.seqCtx k
  let st := s.seqStage k
  if s.halfInReset (halfOfDie (k / 4)) || s.dieOff (k / 4) then s
  else
    let area := s.rowBytes c 0 st ++ s.rowBytes c 1 st ++ s.rowBytes c 2 st ++ s.normBlock c
    let s := s.write (tileBase (k / 4) + s.get (R.CUT_ROW.row_ts k)) area
    s.signal k (s.flag (R.CUT_ROW.evt_en k)) (s.get (R.CUT_ROW.evt k))

/-- Row areas of every stage that has entered a phase. -/
def State.writeRows (s : State) (c : Nat) : State := (s.activeStages c).foldl State.writeRow s

/-- The pending table of phase `p` comes into force when no stage of the context is in `p` (R265). -/
def State.tryForce (s : State) (c p : Nat) : State :=
  match s.cutPending c p with
  | none => s
  | some t =>
    if (s.activeStages c).any (fun k => decide (s.get (R.CUT_PH.phase k) = p)) then s
    else
      let e := s.get (R.CUT_EPOCH.epoch c)
      let s := { s with cutForce := KMap.put (fun _ => none) s.cutForce (3 * c + p) (some t)
                        cutPend := KMap.drop s.cutPend (3 * c + p) }
      let s := s.puts [(R.CUT_EPOCH.epoch c, setBits e (16 * p) 16 (bits e (16 * p) 16 + 1)),
                       (R.CUT_EPOCH.pend c, setBits (s.get (R.CUT_EPOCH.pend c)) p 1 0)]
      s.writeRows c

/-- An accepted table becomes pending, and comes into force at once when it can (R265). -/
def State.setPending (s : State) (c p : Nat) (t : CutTable) : State :=
  let s := { s with cutPend := KMap.put (fun _ => none) s.cutPend (3 * c + p) (some t) }
  let s := s.put (R.CUT_EPOCH.pend c) (setBits (s.get (R.CUT_EPOCH.pend c)) p 1 1)
  s.tryForce c p

/-- CUT_COMMIT (R264, R265, R480). A table that the host commits takes the place of a foreman's (R305). -/
def execCutCommit (c : Fin 64) (p : BitVec 2) (s : State) : Result :=
  let c := c.val
  let p := p.toNat
  let r := s.cutResult c p
  let t := s.readTable c p
  .next (s.gated 0x0014_1000 (
    if s.flag R.CUT_CSTAT.busy then s.cfgRange (some c) 0x14_1000
    else
      let s := ((s.s0Notes (some c) (s.cutReads c p)).permNote s.entryLd c (s.cutRanges c p)).puts
        [(R.CUT_CSTAT.result, r.1), (R.CUT_CSTAT.cause, r.2), (R.CUT_CSTAT.phase, p), (R.CUT_CSTAT.ctx, c)]
      if r.1 = 1 then
        let s := s.commit [R.CUT_BASE.base c p]
        let s := if p = 0 then s.modJob c (fun j => { j with redraw := none, drawn := none, moves := [] }) else s
        s.setPending c p t
      else s.raise (if r.1 = 2 then E.CFG_ZERO else E.CFG_COMMIT) (some c) (atSteward 0) r.2))

/-! ## Layers that move (R266, R271) -/

/-- Weights of a layer (R346). -/
def State.layerNw (s : State) (c L : Nat) : Nat := s.le (s.get (R.CKPT_NW.addr c) + 8 * L) 8

/-- Address of a layer's master weights (kind 0) or of its moments (kinds 1, 2) (R263, R346). -/
def State.layerAddr (s : State) (c : Nat) (t : CutTable) (L kind : Nat) : Nat :=
  let e := t.layers.getD L []
  if kind = 0 then fieldAt e 8 6 else fieldAt e 16 6 + (if kind = 2 then 4 * s.layerNw c L else 0)

/-- One array of a layer's state sent to another module as a reduction message of kind 8 (R271, R410): the layer, the kind, its bytes. An array
that cannot be read is logged and not sent (DESIGN CHOICE, log entry 124). -/
def State.sendLayer (c dst : Nat) (t : CutTable) (L : Nat) (s : State) (kind : Nat) : State :=
  let n := 4 * s.layerNw c L
  let a := s.layerAddr c t L kind
  let ok := s.s0Ok a n
  let bs := s.bytes a n
  let s := s.s0Note (some c) a n
  if ok then s.redSend c dst 8 ([L, kind, 0] ++ bs.map BitVec.toNat) else s

/-- Layers whose state goes to another module: the master weights and the optimizer state of each, from the module that gives them (R271). -/
def State.sendLayers (s : State) (c : Nat) (t : CutTable) (src dst : List Byte) (lo n : Nat) : State :=
  if rowModule src ≠ rowModule dst ∧ rowModule src = s.moduleOf c then
    (List.range n).foldl (fun s i =>
      (List.range (1 + s.get (R.CKPT_AREA.nmom c))).foldl (State.sendLayer c (rowModule dst) t (lo + i)) s) s
  else s

/-- The foreman commits the table it has drawn during the OPT phase, once no stage of the context is in FWD/BWD; the state of the layers that
cross a module boundary goes first (R266, R271). -/
def State.tryDrawn (s : State) (c : Nat) : State :=
  let ps := (s.activeStages c).map (fun k => s.get (R.CUT_PH.phase k))
  match (s.job c).drawn with
  | none => s
  | some t =>
    if ps.contains 1 && !ps.contains 0 then
      let s := (s.job c).moves.foldl (fun s x => s.sendLayers c t x.1 x.2.1 x.2.2.1 x.2.2.2) s
      (s.modJob c (fun j => { j with drawn := none, moves := [] })).setPending c 0 t
    else s

/-- CUT_TABLE_IN_FORCE (R265). -/
def execCutTableInForce (c : Fin 64) (p : Fin 3) (s : State) : Result := .next (s.tryForce c.val p.val)

/-- The marks of a stage's switch forgotten. -/
def State.clearMarks (s : State) (k : Nat) : State :=
  { s with phaseIn := KMap.drop s.phaseIn k, phaseOut := KMap.drop s.phaseOut k }

/-- A stage enters phase `p`; a stage in OPT owes a verdict before it leaves (R302). -/
def State.enterPhase (s : State) (k p : Nat) : State :=
  let s := (s.clearMarks k).puts [(R.CUT_PH.active k, 1), (R.CUT_PH.wait k, 0), (R.CUT_PH.phase k, p)]
  { s with owed := KMap.put (fun _ => false) s.owed k (decide (p = 1)) }

/-- A start: every bound stage of the context that has a row of this module in the table enters phase `p`, and its row area is written (R269). -/
def State.startPhase (s : State) (c p : Nat) (t : CutTable) : State :=
  let ks := (List.range 96).filter (fun k => s.seqBound k && decide (s.seqCtx k = c) &&
    (match t.row (s.seqStage k) with
     | some r => decide (rowModule r = s.moduleOf c)
     | none => false))
  let s := ks.foldl (fun s k => s.enterPhase k p) s
  let s := ks.foldl State.writeRow s
  ([0, 1, 2].foldl (fun s q => s.tryForce c q) s).tryDrawn c

/-- CUT_CMD start (R269, R440). -/
def execCutCmdStart (c : Fin 64) (p : BitVec 2) (s : State) : Result :=
  let c := c.val
  let p := p.toNat
  .next (s.gated 0x0014_1008 (
    if s.leaving c then s.raise E.CFG_COMMIT (some c) (atSteward 0) p
    else match (if p < 3 then s.cutTable c p else none) with
    | none => s.cfgRange (some c) 0x14_1008
    | some t => s.startPhase c p t))

/-! ## The norm chain (R283, R284) -/

/-- The norm of a sum (R284). -/
def normOf (sum : F32) : F32 :=
  match f32Num sum with
  | .nan => canonNaN
  | .inf neg => if neg then canonNaN else f32Inf false
  | .fin neg m e => if m = 0 then sum else if neg then canonNaN else roundF32 (sqrtSticky m e)

/-- A quotient of two values, correctly rounded. -/
def quotF32 (a b : F32) : F32 :=
  match f32Num a, f32Num b with
  | .nan, _ => canonNaN
  | _, .nan => canonNaN
  | .inf _, .inf _ => canonNaN
  | .inf n, .fin n' _ _ => f32Inf (n != n')
  | .fin n _ _, .inf n' => roundF32 (.fin (n != n') 0 0)
  | .fin n m e, .fin n' m' e' =>
    if m' = 0 then (if m = 0 then canonNaN else f32Inf (n != n'))
    else if m = 0 then roundF32 (.fin (n != n') 0 0)
    else match divSticky m m' (e - e') with
      | .fin _ x y => roundF32 (.fin (n != n') x y)
      | x => roundF32 x

/-- The clip factor (R284). -/
def clipOf (sum norm lim : F32) : F32 :=
  if !(f32Num sum).isFin then canonNaN
  else if !(f32Num norm).isNaN && !(f32Num lim).isNaN && decide ((f32Num norm).cmp (f32Num lim) ≠ .gt) then f32One
  else quotF32 lim norm

/-- The value of a norm strip in this module's memory; one that cannot be read is NaN. -/
def State.strip (s : State) (t : CutTable) (i : Nat) : F32 :=
  let a := t.normAddr + 4 * i
  if s.s0Ok a 4 then BitVec.ofNat 32 (s.le a 4) else canonNaN

/-- The chain from strip `i` on over the layers (module, strip0, strips): the sum, the next strip, and the module it lies on,
none after the last. -/
def normGo (mine : Nat) (val : Nat → F32) : List (Nat × Nat × Nat) → F32 → Nat → F32 × Nat × Option Nat
  | [], acc, i => (acc, i, none)
  | (m, s0, n) :: ls, acc, i =>
    if s0 + n ≤ i then normGo mine val ls acc i
    else if m = mine then
      normGo mine val ls ((List.range (s0 + n - i)).foldl (fun a j => accAdd a (f32Num (val (i + j)))) acc) (s0 + n)
    else (acc, i, some m)

/-- The layers of a table with their modules; the layers of a replica are those of replica 0 (R282). -/
def CutTable.normLayers (t : CutTable) : List (Nat × Nat × Nat) :=
  t.layers.zipIdx.map (fun x => ((match t.holder x.2 with
    | some r => rowModule r
    | none => 0), layStrip0 x.1, layStrips x.1))

/-- The norm result in the registers and the row areas (R284, R285). -/
def State.normResult (s : State) (c : Nat) (sum norm clip : F32) (hops : Nat) : State :=
  let nf := b2n (!(f32Num sum).isFin)
  let s := s.puts [(R.NORM_SUM.sum c, sum.toNat), (R.NORM_SUM.nonfin c, nf), (R.NORM_SUM.hops c, hops),
                   (R.NORM_RES.norm c, norm.toNat), (R.NORM_RES.clip c, clip.toNat)]
  let s := s.modJob c (fun j => { j with ready := false, ntab := none, nmsg := none, nflags := nf, nstep := s.get (R.NUM_STEP.step c) })
  s.writeRows c

/-- The norm result sent on: towards module 0 over prev, away from it over next (R284, R409). -/
def State.normSend (s : State) (c : Nat) (up : Bool) (last : Nat) (body : List Nat) : State :=
  let m := s.moduleOf c
  if up then (if m < last then s.redSend c (m + 1) 2 body else s) else (if 0 < m then s.redSend c (m - 1) 2 body else s)

/-- The chain on this module from `acc` and strip `i` (R283, R284). -/
def State.normRun (s : State) (c : Nat) (t : CutTable) (acc : F32) (i hops : Nat) : State :=
  let r := normGo (s.moduleOf c) (s.strip t) t.normLayers acc i
  let s := s.s0Note (some c) (t.normAddr + 4 * i) (4 * (r.2.1 - i))
  match r.2.2 with
  | some m => s.redSend c m 1 [r.1.toNat, r.2.1, hops + 1]
  | none =>
    let norm := normOf r.1
    let clip := clipOf r.1 norm (BitVec.ofNat 32 (s.get (R.NORM_MAX.max c)))
    let body := [r.1.toNat, norm.toNat, clip.toNat, hops]
    let s := s.normResult c r.1 norm clip hops
    (s.normSend c true (t.nmodules - 1) body).normSend c false (t.nmodules - 1) body

/-- The module takes part in the norm chain: it starts it with strip 0, or goes on with a message that has come (R283). -/
def State.normReady (s : State) (c : Nat) (t : CutTable) : State :=
  if t.normAddr = 0 ∨ t.strips = 0 then s
  else
    let s := s.modJob c (fun j => { j with ready := true, ntab := some t })
    match (s.job c).nmsg with
    | some (acc, i, hops) => (s.modJob c (fun j => { j with nmsg := none })).normRun c t (BitVec.ofNat 32 acc) i hops
    | none =>
      match t.normLayers.find? (fun x => decide (0 < x.2.2)) with
      | some (m, _, _) => if m = s.moduleOf c then s.normRun c t 0 0 0 else s
      | none => s

/-- NORM_CHAIN_MSG (R283, R409): the chain goes on here with the step's table, at once when the module takes part already. -/
def execNormChainMsg (h : RedHdr) (acc : BitVec 32) (strip : BitVec 32) (hops : BitVec 12) (s : State) : Result :=
  let c := h.ctx.val
  .next (s.redIn h (s.redDir h) 1 [acc.toNat, strip.toNat, hops.toNat] (fun s => match (s.job c).ready, (s.job c).ntab with
      | true, some t => s.normRun c t acc strip.toNat hops.toNat
      | _, _ => s.modJob c (fun j => { j with nmsg := some (acc.toNat, strip.toNat, hops.toNat) })))

/-- NORM_BROADCAST_MSG (R284, R409): taken, then forwarded the way it travels. -/
def execNormBroadcastMsg (h : RedHdr) (up : Bool) (sum norm clip : BitVec 32) (hops : BitVec 12) (s : State) : Result :=
  let c := h.ctx.val
  let last := match s.cutTable c 0 with
    | some t => t.nmodules - 1
    | none => 0
  let body := [sum.toNat, norm.toNat, clip.toNat, hops.toNat]
  .next (s.redIn h (s.redDir h) 2 body (fun s => (s.normResult c sum norm clip hops.toNat).normSend c up last body))

/-! ## The switch (R267, R268, R283, R288) -/

/-- The phase that every marker of a switch names: the stage has taken one on each flume of `ins` and committed one on each of
`outs` (R267). -/
def switchTo (taken sent : List (Nat × Nat)) (ins outs : List Nat) : Option Nat :=
  match (taken ++ sent).head? with
  | none => none
  | some (_, q) =>
    if ins.all (fun f => taken.contains (f, q)) && outs.all (fun f => sent.contains (f, q))
      && taken.all (fun x => decide (x.2 = q)) && sent.all (fun x => decide (x.2 = q)) then some q else none

/-- The phase a stage would switch to now. -/
def State.switchPhase (s : State) (k : Nat) : Option Nat :=
  let p := s.get (R.CUT_PH.phase k)
  if !(s.seqBound k && s.flag (R.CUT_PH.active k)) then none
  else match (s.cutTable (s.seqCtx k) p).bind (fun t => t.row (s.seqStage k)) with
    | none => none
    | some r => match switchTo (marksOf s.phaseIn k) (marksOf s.phaseOut k) (rowIns r) (rowOuts r) with
      | some q => if q ≠ p ∧ q < 3 then some q else none
      | none => none

/-- Every count of a stage's variant table at 0 (R288). -/
def State.zeroVarCounts (s : State) (k : Nat) : State :=
  let lo := (R.VAR_ENT.valid k 0).a
  { s with regs := s.regs.filter (fun e => !decide (lo ≤ e.1 ∧ e.1 < lo + 4096 * 256 ∧ (e.1 - lo) % 256 = 32)) }

/-- PHASE_SWITCH (R267): the stage of sequencer `l` switches, or waits for a pending table or the verdict (R302). -/
def execPhaseSwitch (l : Fin 96) (s : State) : Result :=
  let k := l.val
  let c := s.seqCtx k
  let p := s.get (R.CUT_PH.phase k)
  .next (match s.switchPhase k with
    | none => s
    | some q =>
      if (s.cutPending c q).isSome || (decide (p = 1) && KMap.find (fun _ => false) s.owed k) then s.put (R.CUT_PH.wait k) 1
      else
        let fwd := s.cutTable c 0
        let s := s.enterPhase k q
        let s := if q = 0 then s.zeroVarCounts k else s
        let s := s.tryForce c p
        let s := (s.writeRow k).tryDrawn c
        match fwd with
        | some t =>
          if p = 0 ∧ q = 1 ∧ (s.activeStages c).all (fun j => decide (s.get (R.CUT_PH.phase j) ≠ 0)) then s.normReady c t else s
        | none => s)

/-! ## The foreman at a step boundary (R156, R157, R271, R277) -/

/-- Cost of layers `lo` to `lo + n - 1` in units of 2^-149, the smallest FP32 value (R263). -/
def CutTable.cost (t : CutTable) (lo n : Nat) : Nat :=
  ((t.layers.drop lo).take n).foldl (fun acc e => acc + (match f32Num (layCost e) with
    | .fin _ m x => m * 2 ^ (x + 149).toNat
    | _ => 0)) 0

/-- The layers to move from the slower to the faster of two neighbouring positions (R157): the smallest number among those that
make the larger stage time smallest, 0 when none makes it smaller. `consSlow` says that the consumer gives its first layers;
else the producer gives its last. -/
def CutTable.moveCount (t : CutTable) (prod cons : List Byte) (consSlow : Bool) : Nat :=
  let slow := if consSlow then cons else prod
  let fast := if consSlow then prod else cons
  let lo := rowFirst slow
  let n := rowLayers slow
  let time := fun m =>
    let moved := if consSlow then t.cost lo m else t.cost (lo + n - m) m
    max (t.cost lo n - moved) (t.cost (rowFirst fast) (rowLayers fast) + moved)
  let top := min n (240 - rowLayers fast)
  (List.range (top + 1)).foldl (fun b m => if time m < time b then m else b) 0

/-- The table with `m` layers moved between the two positions; every shard of each follows. -/
def CutTable.moved (t : CutTable) (prod cons : List Byte) (consSlow : Bool) (m : Nat) : CutTable :=
  let set := fun (r : List Byte) first n => patchAt r 8 (leBytes 2 first ++ leBytes 1 n)
  let same := fun (r x : List Byte) => decide (rowReplica r = rowReplica x ∧ rowPos r = rowPos x)
  let pf := if rowLayers prod = 0 then rowFirst cons else rowFirst prod
  { t with rows := t.rows.map (fun r =>
      if same r prod then (if consSlow then set r pf (rowLayers r + m) else set r pf (rowLayers r - m))
      else if same r cons then
        (if consSlow then set r (rowFirst r + m) (rowLayers r - m)
         else set r (rowFirst prod + rowLayers prod - m) (rowLayers r + m))
      else r) }

/-- Every flume that joins one of the two stages, with its run of steps. -/
def State.runsOf (s : State) (c a b : Nat) : List (Nat × Nat × Bool) :=
  (s.flumes.map Prod.fst).filterMap (fun f =>
    let p := s.get (R.FLM_DESC.prod f)
    let q := s.get (R.FLM_DESC.cons f)
    if s.get (R.FLM_DESC.ctx f) = c ∧ (p = a ∨ p = b ∨ q = a ∨ q = b) then some (f, (s.flume f).run, (s.flume f).runSlow) else none)

/-- Runs of steps put back, or cleared when `zero`. -/
def State.setRuns (s : State) (zero : Bool) (l : List (Nat × Nat × Bool)) : State :=
  l.foldl (fun s x => s.setFlume x.1 { s.flume x.1 with run := if zero then 0 else x.2.1, runSlow := !zero && x.2.2 }) s

/-- A flume's run is long enough: the foreman draws a table with layers moved, or finds that no move helps, and clears the runs (R157). The
table is committed in the OPT phase (R271). -/
def State.foremanMove (s : State) (c f : Nat) (t : CutTable) (prod cons : List Byte) (consSlow : Bool) : State :=
  let a := s.get (R.FLM_DESC.prod f)
  let b := s.get (R.FLM_DESC.cons f)
  let m := t.moveCount prod cons consSlow
  let runs := s.runsOf c a b
  let s := s.setRuns true runs
  if m = 0 then s
  else
    let src := if consSlow then cons else prod
    let dst := if consSlow then prod else cons
    let lo := if consSlow then rowFirst cons else rowFirst prod + rowLayers prod - m
    let s := s.puts [(R.FLM_BAL_LAST0.step, s.get (R.NUM_STEP.step c)), (R.FLM_BAL_LAST1.src, if consSlow then b else a),
                     (R.FLM_BAL_LAST1.dst, if consSlow then a else b), (R.FLM_BAL_LAST1.layers, m)]
    let base := match (s.job c).redraw with
      | some x => x
      | none => (t, [])
    s.modJob c (fun j => { j with redraw := some (base.1, base.2 ++ runs.filter (fun x => !base.2.any (fun y => decide (y.1 = x.1))))
                                  drawn := some (t.moved prod cons consSlow m), moves := j.moves ++ [(src, dst, lo, m)] })

/-- One forward flume at the boundary: I against the threshold, the run of steps, a move (R156, R157). Neighbours are those of the current
table; moves of one boundary are made one on the other. -/
def State.foremanFlume (c ac : Nat) (s : State) (f : Nat) : State :=
  let prod := s.get (R.FLM_DESC.prod f)
  let cons := s.get (R.FLM_DESC.cons f)
  match s.cutTable c 0 with
  | none => s
  | some cur =>
    let t := (s.job c).drawn.getD ((s.cutPending c 0).getD cur)
    match cur.row prod, cur.row cons with
    | some rp, some rc =>
      if rowReplica rp = rowReplica rc ∧ rowPos rc = rowPos rp + 1 then
        let d : Int := (s.get (R.FLM_CNT.full f) : Int) - s.get (R.FLM_CNT.empty f)
        let lim : Int := s.get R.FLM_BAL_CTL.thresh * ac
        let s := s.puts [(R.FLM_CNT.full f, 0), (R.FLM_CNT.empty f, 0), (R.FLM_CNT.spill f, 0)]
        let hi := decide (lim < d * 65536)
        let lo := decide (d * 65536 < -lim)
        let x := s.flume f
        let run := if hi ∨ lo then (if 0 < x.run ∧ x.runSlow = hi then x.run + 1 else 1) else 0
        let s := s.setFlume f { x with run := run, runSlow := hi }
        let n := s.get R.FLM_BAL_CTL.steps
        if 0 < run ∧ 0 < n ∧ n ≤ run ∧ s.flag R.FLM_BAL_CTL.pin = false ∧ s.flag (R.FLM_DESC.bal_pin f) = false then
          s.foremanMove c f t ((t.row prod).getD rp) ((t.row cons).getD rc) hi
        else s
      else s
    | _, _ => s

/-- The expert counts read and set to 0 (R277). What cannot be read counts 0 (DESIGN CHOICE, log entry 124). -/
def State.takeExperts (s : State) (c : Nat) : State :=
  match s.cutTable c 0 with
  | none => s
  | some t =>
    let h := s.s0Note (some c) t.expAddr 16
    if t.expAddr = 0 then s.modJob c (fun j => { j with experts := [] })
    else if !s.s0Ok t.expAddr 16 then h.modJob c (fun j => { j with experts := [] })
    else
      let n := s.le (t.expAddr + 2) 2
      let a := s.le (t.expAddr + 8) 6
      let l := (List.range n).map (fun i => if s.s0Ok (a + 8 * i) 8 then (s.le (a + 8 * i) 4, s.le (a + 8 * i + 4) 4) else (0, 0))
      ((h.s0Note (some c) a (8 * n)).modJob c (fun j => { j with experts := l })).s0Write (some c) a (List.replicate (8 * n) 0)

/-- FOREMAN_STEP_BOUNDARY (R156, R157, R271, R277): `ac` is the length of the step. -/
def execForemanStepBoundary (c : Fin 64) (ac : BitVec 48) (s : State) : Result :=
  let c := c.val
  let fs := s.boundFlumes.filter (fun f =>
    decide (s.flmState f = flmOPEN ∨ s.flmState f = flmHELD) && decide (s.get (R.FLM_DESC.ctx f) = c)
    && decide (s.get (R.FLM_DESC.dir f) = 0))
  .next (((fs.foldl (State.foremanFlume c ac.toNat) s).takeExperts c).tryDrawn c)

/-! ## Variant entries (R287) -/

/-- The staged fields of a variant entry (R286). -/
def varGroup (l v : Nat) : List Fld :=
  [R.VAR_ENT.rank l v, R.VAR_ENT.fmt l v, R.VAR_ENT.train l v, R.VAR_ENT.valid l v, R.VAR_ENT.addr l v, R.VAR_ENT.grad l v]

/-- VAR_COMMIT (R287, R480). -/
def execVarCommit (l : Fin 96) (v : BitVec 12) (s : State) : Result :=
  let l := l.val
  let v := v.toNat
  let h := ldOfDie (l / 4)
  let c := s.seqCtx l
  let out := fun a => decide (a % 64 ≠ 0) || !s.permits c a 1 false
  .next (s.gated (0x010F_0000 + 0x40_0000 * h) (
    if s.halfInReset (h / 2) then s.raise E.LINK_HALF_DOWN none (atEntry h) l
    else if s.flag (R.VAR_CSTAT.busy h) then s.cfgRange (some c) l
    else if (s.seqBound l && s.leaving c) || (decide (s.sget (R.VAR_ENT.valid l v) = 1) && decide (12 ≤ s.sget (R.VAR_ENT.fmt l v)))
        || decide (256 < s.sget (R.VAR_ENT.rank l v)) || out (s.sget (R.VAR_ENT.addr l v)) || out (s.sget (R.VAR_ENT.grad l v)) then
      ((s.permNote s.entryLd c [(s.sget (R.VAR_ENT.addr l v), 1, false), (s.sget (R.VAR_ENT.grad l v), 1, false)]).raise
        E.CFG_COMMIT (some c) (atLd h) v).put (R.VAR_CSTAT.result h) 3
    else (s.commit (varGroup l v)).put (R.VAR_CSTAT.result h) 1))

end Sys2Proof.Machine
end

