-- ==== Sys2Proof/Machine/CkptRec.lean ====
section
/-! DEFINITION. Machine/CkptRec.lean: what a checkpoint and a buddy copy read (R346 to R351), the module record, and what the delivery of a
commit verdict starts (R359, R360, R368). -/

namespace Sys2Proof.Machine

/-- The compute dies of a context. -/
def State.diesOf (s : State) (c : Nat) : List Nat :=
  (List.range 24).filter (fun n => s.flag (R.DIE_OWN.assigned n) && decide (s.get (R.DIE_OWN.ctx n) = c))

/-- The history of a scale register, newest first (R316). -/
def State.scaleHist (s : State) (n i : Nat) : List Nat :=
  (List.range (s.get (R.NUM_SSTAT.nhist n i))).map (fun j => s.get (R.NUM_SHIST.amax n i j))

/-- A context's checkpoint state. -/
def State.ckpt (s : State) (c : Nat) : Ckpt := KMap.find (fun _ => Ckpt.empty) s.ckpts c

/-- A context's checkpoint state replaced. -/
def State.setCkpt (s : State) (c : Nat) (x : Ckpt) : State := { s with ckpts := KMap.put (fun _ => Ckpt.empty) s.ckpts c x }

/-- A context's checkpoint state changed. -/
def State.modCkpt (s : State) (c : Nat) (f : Ckpt → Ckpt) : State := s.setCkpt c (f (s.ckpt c))

/-- Checkpoint states (R373). -/
def ckIDLE : Nat := 0
/-- R373. -/
def ckARMED : Nat := 1
/-- R373. -/
def ckREADING : Nat := 2
/-- R373. -/
def ckCHAINING : Nat := 3
/-- R373. -/
def ckCOMMITTING : Nat := 4
/-- R373. -/
def ckRESTORING : Nat := 5

/-- State of a context's checkpoint engine. -/
def State.ckState (s : State) (c : Nat) : Nat := s.get (R.CKPT_STAT.state c)

/-! ## Positions, layers and ready words (R346, R350) -/

/-- The positions on a module as (position, replica), in ascending order. -/
def CutTable.ckPositions (t : CutTable) (mine : Nat) : List (Nat × Nat) :=
  (((t.rows.filter (fun r => decide (rowModule r = mine))).map (fun r => (rowPos r, rowReplica r))).mergeSort
    (fun x y => decide (x.1 < y.1 ∨ (x.1 = y.1 ∧ x.2 ≤ y.2)))).dedup

/-- The layers of one position. -/
def CutTable.posLayers (t : CutTable) (p : Nat × Nat) : List Nat :=
  match t.position p.2 p.1 with
  | [] => []
  | r :: _ => (List.range (rowLayers r)).map (fun i => rowFirst r + i)

/-- The layers that are read at a position: those that no earlier position of the module holds. -/
def CutTable.ckLayers (t : CutTable) (mine : Nat) (p : Nat × Nat) : List Nat :=
  let before := ((t.ckPositions mine).takeWhile (fun x => decide (x ≠ p))).flatMap t.posLayers
  (t.posLayers p).filter (fun l => !before.contains l)

/-- The layers that an attempt reads on a module, with their positions, in ascending order (R360). -/
def CutTable.ckItems (t : CutTable) (mine : Nat) : List ((Nat × Nat) × Nat) :=
  ((t.ckPositions mine).flatMap (fun p => (t.ckLayers mine p).map (fun L => (p, L)))).mergeSort (fun x y => decide (x.2 ≤ y.2))

/-- The ready words of a position, as address and length (R350). -/
def State.readyWords (s : State) (c : Nat) (t : CutTable) (p : Nat × Nat) : List (Nat × Nat) :=
  (t.position p.2 p.1).map (fun r => (s.get (R.CKPT_RDY.addr c) + 8 * rowStage r, 8))

/-- Every stage of a position has written `step` to its ready word (R350); one that cannot be read holds no step. -/
def State.posReady (s : State) (c : Nat) (t : CutTable) (p : Nat × Nat) (step : Nat) : Bool :=
  (s.readyWords c t p).all (fun w => s.s0Ok w.1 w.2 && decide (s.le w.1 w.2 = step))

/-- What an engine reads for one array of a layer: its entry of the weight-count list, and the array (R346). -/
def State.arrayReads (s : State) (c : Nat) (t : CutTable) (L kind : Nat) : List (Nat × Nat) :=
  [(s.get (R.CKPT_NW.addr c) + 8 * L, 8), (s.layerAddr c t L kind, 4 * s.layerNw c L)]

/-- The extra-region list, as address and length (R347). -/
def State.xregList (s : State) (c : Nat) : Nat × Nat := (s.get (R.CKPT_XREG.addr c), 32 * s.get (R.CKPT_XREG.n c))

/-- The extra regions: id, address, length (R347). -/
def State.extraRegions (s : State) (c : Nat) : List (Nat × Nat × Nat) :=
  let a := s.get (R.CKPT_XREG.addr c)
  (List.range (s.get (R.CKPT_XREG.n c))).map (fun i => (s.le (a + 32 * i) 4, s.le (a + 32 * i + 8) 6, s.le (a + 32 * i + 16) 8))

/-! ## The module record (R348) -/

/-- NUM_SCTL as a word (R316). -/
def State.sctlWord (s : State) (n i : Nat) : Nat :=
  s.get (R.NUM_SCTL.sid n i) * 2 ^ 48 + s.get (R.NUM_SCTL.x_pin n i) * 2 ^ 40 + s.get (R.NUM_SCTL.fmt n i) * 2 ^ 36
    + s.get (R.NUM_SCTL.mode n i) * 2 ^ 34 + s.get (R.NUM_SCTL.lower_en n i) * 2 ^ 33 + s.get (R.NUM_SCTL.h n i) * 2 ^ 28
    + s.get (R.NUM_SCTL.k n i) * 2 ^ 24 + s.get (R.NUM_SCTL.clean_lim n i)

/-- NUM_SSTAT as a word (R316). -/
def State.sstatWord (s : State) (n i : Nat) : Nat :=
  s.get (R.NUM_SSTAT.x n i) * 2 ^ 56 + s.get (R.NUM_SSTAT.b n i) * 2 ^ 48 + s.get (R.NUM_SSTAT.clean n i) * 2 ^ 32
    + s.get (R.NUM_SSTAT.nhist n i) * 2 ^ 16

/-- Bytes of one scale entry of the module record; the fields that R348 lists do not fit the 64 bytes it gives them (log entry 63). -/
def scaleEntryLen : Nat := 84

/-- One scale entry. -/
def State.scaleEntry (s : State) (n i : Nat) : List Byte :=
  leBytes 8 (s.sctlWord n i) ++ leBytes 8 (s.sstatWord n i) ++ leBytes 4 (s.get (R.NUM_SAMAX.wamax n i))
    ++ (List.range 16).flatMap (fun j => leBytes 4 (s.get (R.NUM_SHIST.amax n i j)))

/-- The registers of a context that serve a scale id, one for each id in ascending order. -/
def State.scaleIds (s : State) (c : Nat) : List (Nat × Nat × Nat) :=
  (((s.diesOf c).flatMap (fun n => (List.range 256).filterMap (fun i =>
    if s.get (R.NUM_SCTL.mode n i) ≠ 0 then some (s.get (R.NUM_SCTL.sid n i), n, i) else none))).foldl
    (fun (l : List (Nat × Nat × Nat)) x => if l.any (fun y => decide (y.1 = x.1)) then l else l ++ [x]) []).mergeSort
    (fun x y => decide (x.1 ≤ y.1))

/-- Bytes of a context's numerics block (R314), 0 without one. -/
def State.numBlockLen (s : State) (c : Nat) : Nat :=
  let a := s.get (R.NUM_BASE.base c)
  let nl := s.le (a + 2) 2
  if a = 0 then 0 else 64 + 16 * nl + 16 * nl * s.le (a + 4) 1

/-- The module record: NUM_STEP, the number of scale entries, the entries, and on module 0 the numerics block (R348). -/
def State.moduleRecord (s : State) (c : Nat) : List Byte :=
  let ids := s.scaleIds c
  leBytes 8 (s.get (R.NUM_STEP.step c)) ++ leBytes 8 ids.length ++ ids.flatMap (fun x => s.scaleEntry x.2.1 x.2.2)
    ++ (if s.moduleOf c = 0 then s.s0Bytes (s.get (R.NUM_BASE.base c)) (s.numBlockLen c) else [])

/-! ## At the delivery of a commit verdict -/

/-- The buddy transfer of a step begins (R367, R368). Whether the copy fits its bank is the holder's to find. -/
def State.buddyStart (s : State) (c : Nat) (t : CutTable) (recd : List Byte) : State :=
  if s.flag (R.CKPT_BUDDY.en c) ∧ 2 ≤ t.nmodules then
    s.modCkpt c (fun x => { x with recd := recd, bread := true, btodo := t.ckPositions (s.moduleOf c), boff := 0
                                   bstep := s.get (R.NUM_STEP.step c), bwait := true })
  else s

/-- The delivery of a verdict: on commit the module record is taken, an armed attempt starts reading (R350, R359, R360), and the
buddy transfer begins (R368). -/
def State.ckptDeliver (s : State) (c : Nat) (skip : Bool) : State :=
  match s.cutTable c 0 with
  | none => s
  | some t =>
    if skip then s
    else
      let recd := s.moduleRecord c
      let s := if s.moduleOf c = 0 then s.s0Note (some c) (s.get (R.NUM_BASE.base c)) (s.numBlockLen c) else s
      let s :=
        if s.ckState c = ckARMED ∧ (s.ckpt c).broken = false then
          (s.puts [(R.CKPT_STAT.state c, ckREADING), (R.CKPT_STAT.step c, s.get (R.NUM_STEP.step c))]).modCkpt c (fun x =>
            { x with recd := recd, reading := true, todo := t.ckItems (s.moduleOf c), cur := 0, list := [], writes := [], part := none
                     tally := none, crec := false })
        else s
      s.buddyStart c t recd

/-- True while reads of the last committed step hold the verdict point (R351). -/
def State.ckptHolds (s : State) (c : Nat) : Bool := (s.ckpt c).reading || (s.ckpt c).bwait

end Sys2Proof.Machine
end

