-- ==== Sys2Proof/Machine/Numerics.lean ====
section
/-! DEFINITION. Machine/Numerics.lean: scale registers (R293 to R297, R303), the step verdict (R300 to R307), the numerics block's shadow
counters and promotions (R312, R314) and the step slot (R543). -/

namespace Sys2Proof.Machine

/-! ## Scale registers -/

/-- The largest finite magnitude M of a target format as mantissa and exponent (R294). -/
def fmtMax (f : Nat) : Option (Nat × Int) :=
  match f with
  | 0 => some (6889, -5)
  | 1 => some (5793, -11)
  | 3 => some (448, 0)
  | 4 => some (57344, 0)
  | 5 => some (28, 0)
  | 6 => some (15, -1)
  | 7 => some (6, 0)
  | 8 => some (127, -6)
  | _ => none

/-- floor(log2((m × 2^e) / (a × 2^f))), exactly (R294). -/
def floorLog2Quot (m : Nat) (e : Int) (a : Nat) (f : Int) : Int :=
  let k : Int := (Nat.log2 m : Int) + e - Nat.log2 a - f
  if dyCmp m e a (f + k) = .lt then k - 1 else k

/-- A value clamped to 0 to 254 (R294). -/
def clampX (i : Int) : Nat := (min (max i 0) 254).toNat

/-- X recomputed by the last lines of R303 (R297); mode 0 keeps it. -/
def State.scaleX (s : State) (n i : Nat) : State :=
  let mode := s.get (R.NUM_SCTL.mode n i)
  let b := s.get (R.NUM_SSTAT.b n i)
  let pin := s.get (R.NUM_SCTL.x_pin n i)
  if mode = 2 then s.put (R.NUM_SSTAT.x n i) pin
  else if mode = 1 then
    match (s.scaleHist n i).max?, fmtMax (s.get (R.NUM_SCTL.fmt n i)) with
    | some a, some (m, e) =>
      match f32Num (BitVec.ofNat 32 a) with
      | .fin _ am ae =>
        if am = 0 then s.put (R.NUM_SSTAT.x n i) (clampX (pin + b))
        else (s.put (R.NUM_SAMAX.wamax n i) a).put (R.NUM_SSTAT.x n i)
          (clampX (127 - floorLog2Quot m e am ae + s.get (R.NUM_SCTL.h n i) + b))
      | _ => s
    | _, _ => s.put (R.NUM_SSTAT.x n i) (clampX (pin + b))
  else s

/-- The value that a write of NUM_SCTL carries, each half at its place. -/
def sctlBits : SctlVal → Nat
  | .whole v => v.toNat
  | .low v => v.toNat
  | .high v => v.toNat * 2 ^ 32

/-- The fields of the lower half of NUM_SCTL. -/
def State.sctlLow (s : State) (n i v : Nat) : State :=
  s.puts [(R.NUM_SCTL.h n i, bits v 28 4), (R.NUM_SCTL.k n i, bits v 24 4), (R.NUM_SCTL.clean_lim n i, bits v 0 16)]

/-- The fields of the upper half of NUM_SCTL; an illegal fmt or mode leaves its field, and CFG_RANGE is logged (R316). -/
def State.sctlHigh (s : State) (n i v : Nat) : State :=
  let fmt := bits v 36 4
  let mode := bits v 34 2
  let s := s.puts [(R.NUM_SCTL.sid n i, bits v 48 12), (R.NUM_SCTL.x_pin n i, bits v 40 8), (R.NUM_SCTL.lower_en n i, bits v 33 1)]
  let s := if (fmtMax fmt).isSome then s.put (R.NUM_SCTL.fmt n i) fmt else s
  let s := if mode = 3 then s else s.put (R.NUM_SCTL.mode n i) mode
  if (fmtMax fmt).isNone ∨ mode = 3 then s.raise E.CFG_RANGE none (atLd (ldOfDie n)) (256 * n + i) else s

/-- A write of NUM_SCTL applied: the fields of the halves that it touches (R297, R316, R435). -/
def State.setSctl (s : State) (n i : Nat) (w : SctlVal) : State := match w with
  | .whole _ => (s.sctlLow n i (sctlBits w)).sctlHigh n i (sctlBits w)
  | .low _ => s.sctlLow n i (sctlBits w)
  | .high _ => s.sctlHigh n i (sctlBits w)

/-- True while no sequencer of a die is LOADING or RUNNING (R297). -/
def State.dieQuiet (s : State) (n : Nat) : Bool :=
  (List.range 4).all (fun q => decide (s.seqState (4 * n + q) ≠ seqLOADING ∧ s.seqState (4 * n + q) ≠ seqRUNNING))

/-- NUM_SCTL written (R297, R316): at once on a quiet die, else at the next delivery, after the writes that wait for it already. -/
def execNumSctlWrite (m : Master) (die : Fin 24) (i : BitVec 8) (v : SctlVal) (s : State) : Result :=
  let n := die.val
  let i := i.toNat
  .next (s.gated (0x0201_0000 + 0x8_0000 * n + 0x80 * i) (
    if s.halfInReset (halfOfDie n) then s.raise E.LINK_HALF_DOWN none (atEntry (ldOfDie n)) n
    else if !s.owns m 2 then s.ownDrop m (0x0201_0000 + 0x8_0000 * n + 0x80 * i)
    else if s.dieQuiet n then (s.setSctl n i v).scaleX n i
    else { s with sctlPend := KMap.put (fun _ => []) s.sctlPend (256 * n + i) (KMap.find (fun _ => []) s.sctlPend (256 * n + i) ++ [v]) }))

/-- A sample pushed into the history, the 16 newest kept (R303). -/
def State.pushHist (s : State) (n i a : Nat) : State :=
  let l := (a :: s.scaleHist n i).take 16
  (s.puts (l.zipIdx.map (fun x => (R.NUM_SHIST.amax n i x.2, x.1)))).put (R.NUM_SSTAT.nhist n i) l.length

/-- One scale register at a delivery (R303). The step amax of a register with mode 0 goes back to +0 too (R295). -/
def State.scaleDeliver (skip : Bool) (amax : List (Nat × Nat)) (s : State) (n i : Nat) : State :=
  if s.get (R.NUM_SCTL.mode n i) = 0 then s.put (R.NUM_SAMAX.samax n i) 0
  else
    let a := ((amax.find? (fun x => decide (x.1 = s.get (R.NUM_SCTL.sid n i)))).map Prod.snd).getD 0
    let b := s.get (R.NUM_SSTAT.b n i)
    let s :=
      if skip then
        (if s.flag (R.NUM_SCTL.lower_en n i) then s.put (R.NUM_SSTAT.b n i) (min (b + s.get (R.NUM_SCTL.k n i)) 127) else s).put
          (R.NUM_SSTAT.clean n i) 0
      else
        let s := if 0 < a ∧ a < 0x7F80_0000 then s.pushHist n i a else s
        let s := s.count (R.NUM_SSTAT.clean n i) 1
        let lim := s.get (R.NUM_SCTL.clean_lim n i)
        if lim ≠ 0 ∧ lim ≤ s.get (R.NUM_SSTAT.clean n i) then
          (s.put (R.NUM_SSTAT.b n i) (b - 1)).put (R.NUM_SSTAT.clean n i) 0
        else s
    (s.scaleX n i).put (R.NUM_SAMAX.samax n i) 0

/-- The writes that wait for a delivery, on the context's dies (R297). -/
def State.applySctl (s : State) (c : Nat) : State :=
  let mine := s.sctlPend.filter (fun e => (s.diesOf c).contains (e.1 / 256))
  let s := mine.foldl (fun s e => e.2.foldl (fun s w => s.setSctl (e.1 / 256) (e.1 % 256) w) s) s
  { s with sctlPend := s.sctlPend.filter (fun e => !mine.contains e) }

/-- Step 1 of R302. -/
def State.scalesDeliver (s : State) (c : Nat) (skip : Bool) (amax : List (Nat × Nat)) : State :=
  (s.diesOf c).foldl (fun s n => (List.range 256).foldl (fun s i => s.scaleDeliver skip amax n i) s) (s.applySctl c)

/-! ## The numerics block (R312, R314) -/

/-- True when the foreman can use the block (R314). -/
def State.numBlockOk (s : State) (c base nl : Nat) : Bool :=
  let n := 64 + 16 * nl + 16 * nl * s.le (base + 4) 1
  s.permits c base 64 false && decide (s.le base 1 = 1 ∧ s.le (base + 2) 2 = nl) && s.permits c base n false && s.permits c base n true
  && s.s0Ok base n

/-- What the foreman reads of the block (R314): its header, and all of it when the header and the windows are right. -/
def State.numBlockRead (s : State) (c base nl : Nat) : Nat :=
  let n := 64 + 16 * nl + 16 * nl * s.le (base + 4) 1
  if s.permits c base 64 false = false then 0
  else if s.le base 1 = 1 ∧ s.le (base + 2) 2 = nl ∧ s.permits c base n false = true then n else 64

/-- The ranges of the block, for the permission log (R314, R480): its header, and all of it once the header is right. -/
def State.numBlockRanges (s : State) (base nl : Nat) : List (Nat × Nat × Bool) :=
  let n := 64 + 16 * nl + 16 * nl * s.le (base + 4) 1
  (base, 64, false) :: (if s.le base 1 = 1 ∧ s.le (base + 2) 2 = nl then [(base, n, false), (base, n, true)] else [])

/-- One layer's counters, and its promotion (R312). -/
def State.shadowLayer (c base nl smax : Nat) (s : State) (L : Nat) : State :=
  let e := base + 64 + 16 * L
  let sh := fun j => base + 64 + 16 * nl + 16 * (L * smax + j)
  let ex := (List.range smax).foldl (fun a j => a + s.le (sh j + 4) 4) 0
  let total := min (s.le (e + 4) 4 + ex) (2 ^ 32 - 1)
  let s := (List.range smax).foldl (fun s j => s.write (sh j) (List.replicate 12 0)) s
  let plim := s.get (R.NUM_CTL.plim c)
  let fmt := s.le e 1
  let fl := s.le (e + 1) 1
  if plim ≤ total ∧ plim ≠ 0 ∧ fmt % 16 = 1 ∧ bit fl 0 = false ∧ s.flag (R.NUM_CTL.noprom c) = false then
    let step := s.get (R.NUM_STEP.step c)
    let s := s.write e (leBytes 1 (setBits fmt 0 4 0) ++ leBytes 1 (setBits fl 1 1 1) ++ s.bytes (e + 2) 2 ++ leBytes 4 0
      ++ leBytes 6 step ++ s.bytes (e + 14) 2)
    (s.puts [(R.NUM_PROM.layer c, L), (R.NUM_PROM.step c, step)]).count (R.NUM_PROMCNT.count c) 1
  else s.write (e + 4) (leBytes 4 total)

/-- Step 2 of R302. -/
def State.shadowDeliver (s : State) (c : Nat) : State :=
  let base := s.get (R.NUM_BASE.base c)
  match s.cutTable c 0 with
  | none => s
  | some t =>
    if base = 0 then s
    else
      let ok := s.numBlockOk c base t.nlayers
      let s := s.s0Note (some c) base (s.numBlockRead c base t.nlayers)
      if !ok then (s.permNote s.entryLd c (s.numBlockRanges base t.nlayers)).cfgRange (some c) base
      else
        let smax := s.le (base + 4) 1
        let mine := (List.range t.nlayers).filter (fun L => t.rows.any (fun r =>
          decide (rowModule r = s.moduleOf c ∧ rowFirst r ≤ L ∧ L < rowFirst r + rowLayers r)))
        let s := mine.foldl (State.shadowLayer c base t.nlayers smax) s
        (s.write (base + 1) (leBytes 1 (s.get (R.NUM_CTL.shn c)))).write (base + 8) (leBytes 6 (s.get (R.NUM_STEP.step c)))

/-! ## Step telemetry (R543) -/

/-- The poison counts of a context's flumes. -/
def State.poisonSum (s : State) (c : Nat) : Nat :=
  (s.boundFlumes.filter (fun f => decide (s.flmState f ≠ flmUNBOUND ∧ s.get (R.FLM_DESC.ctx f) = c))).foldl
    (fun a f => a + s.get (R.FLM_CNT.poison f)) 0

/-- The missing and stale counts of a context's version tables. -/
def State.verSum (s : State) (c : Nat) : Nat :=
  ((List.range 96).filter (fun k => s.seqBound k && decide (s.seqCtx k = c))).foldl
    (fun a k => a + s.get (R.VER_CNT.missing k) + s.get (R.VER_CNT.stale k)) 0

/-- The fixed 64 bytes of a step slot, the truncated bit left 0. -/
def telHead (step : Nat) (skip : Bool) (cause poison ver norm nexp : Nat) : List Byte :=
  leBytes 6 step ++ leBytes 1 (b2n skip) ++ leBytes 1 cause ++ leBytes 8 poison ++ leBytes 8 ver ++ leBytes 4 norm ++ leBytes 2 nexp
    ++ List.replicate 34 0

/-- The values of the step that ends, for its slot; the counts of the next step start here. -/
def State.telTake (s : State) (c : Nat) (skip : Bool) (cause : Nat) : State :=
  let p := s.poisonSum c
  let v := s.verSum c
  s.modJob c (fun j => { j with
    tel := telHead (s.get (R.NUM_STEP.step c)) skip cause (p - j.poison0) (v - j.ver0) (s.get (R.NORM_RES.norm c)) j.experts.length
    telExp := j.experts, poison0 := p, ver0 := v })

/-- The step slot of the last values taken (R543). -/
def State.telWrite (s : State) (c : Nat) : State :=
  let j := s.job c
  let base := s.get (R.RAS_TEL.base c)
  let n := s.get (R.RAS_TEL.n c)
  let size := s.get (R.RAS_TEL.size c)
  if base = 0 ∨ n = 0 ∨ size = 0 ∨ j.tel = [] then s
  else
    let step := fieldAt j.tel 0 6
    let a := base + step % n * (64 * size)
    if !s.permits c a (64 * size) true then (s.permNote s.entryLd c [(a, 64 * size, true)]).cfgRange (some c) a
    else
      let fit := 8 * (size - 1)
      let flags := setBits (fieldAt j.tel 6 1) 1 1 (b2n (decide (fit < j.telExp.length)))
      let body := (j.telExp.take fit).flatMap (fun x => leBytes 4 x.1 ++ leBytes 4 x.2)
      (s.s0Write (some c) a (patchAt j.tel 6 (leBytes 1 flags) ++ body)).put (R.RAS_TEL.last c) step

/-! ## The verdict (R300 to R307) -/

/-- Last module of the context's job. -/
def State.lastModule (s : State) (c : Nat) : Nat :=
  match s.cutTable c 0 with
  | some t => t.nmodules - 1
  | none => 0

/-- True when a stage in OPT has committed the phase markers that end it (R300). -/
def State.optEnded (s : State) (k : Nat) : Bool :=
  decide (s.get (R.CUT_PH.phase k) = 1) && KMap.find (fun _ => false) s.owed k &&
  (match (s.cutTable (s.seqCtx k) 1).bind (fun t => t.row (s.seqStage k)) with
   | none => false
   | some r => (rowOuts r).all (fun f => (marksOf s.phaseOut k).any (fun x => decide (x.1 = f ∧ x.2 ≠ 1))))

/-- Cause bit 0: a guard tag of one of the context's dies counted a non-finite event (R298, R300). -/
def State.guardHit (s : State) (c : Nat) : Bool :=
  (s.diesOf c).any (fun n => (List.range 1024).any (fun t =>
    bit (s.get (R.NUM_GUARD.guard n (t / 64))) (t % 64) && decide (s.get (R.GLZ_TCNT.nonfin n t) ≠ 0)))

/-- The larger step amax of a scale id in a list in ascending ids. -/
def amaxPut : List (Nat × Nat) → Nat → Nat → List (Nat × Nat)
  | [], i, a => [(i, a)]
  | (j, b) :: l, i, a => if i < j then (i, a) :: (j, b) :: l else if i = j then (j, max a b) :: l else (j, b) :: amaxPut l i a

/-- The step amax of each scale id used on the module: that of every register that serves the id, or has served it in this step (R300). -/
def State.moduleAmax (s : State) (c : Nat) : List (Nat × Nat) :=
  (s.diesOf c).foldl (fun l n => (List.range 256).foldl (fun l i =>
    if s.get (R.NUM_SCTL.mode n i) ≠ 0 ∨ s.get (R.NUM_SAMAX.samax n i) ≠ 0 then amaxPut l (s.get (R.NUM_SCTL.sid n i)) (s.get (R.NUM_SAMAX.samax n i)) else l) l) []

/-- The foreman's table of a skipped step is taken back, or is not committed at all (R305). -/
def State.undoRedraw (s : State) (c : Nat) : State :=
  match (s.job c).redraw with
  | none => s
  | some (t, runs) =>
    let s := if (s.job c).drawn.isSome then s else s.setPending c 0 t
    (s.setRuns false runs).modJob c (fun j => { j with redraw := none, drawn := none, moves := [] })

/-- The fields that R307 copies. -/
def scaleFields (n i : Nat) : List Fld :=
  [R.NUM_SCTL.fmt n i, R.NUM_SCTL.mode n i, R.NUM_SCTL.h n i, R.NUM_SCTL.k n i, R.NUM_SCTL.clean_lim n i, R.NUM_SSTAT.b n i,
   R.NUM_SSTAT.clean n i, R.NUM_SSTAT.nhist n i] ++ (List.range 16).map (R.NUM_SHIST.amax n i)

/-- The first surviving scale register of a context with a scale id, one in use before one whose mode is 0 (R307; of several the spec does not say which:
DESIGN CHOICE, log entry 92). -/
def State.survivor (s : State) (c sid : Nat) : Option (Nat × Nat) :=
  let find := fun (used : Bool) => (s.diesOf c).findSome? (fun n => (List.range 256).findSome? (fun i =>
    if s.get (R.NUM_SCTL.sid n i) = sid ∧ (used → s.get (R.NUM_SCTL.mode n i) ≠ 0)
        ∧ s.scaleDue.any (fun y => decide (y.1 = n ∧ y.2.1 = i)) = false ∧ s.halfInReset (halfOfDie n) = false then some (n, i) else none))
  match find true with
  | some k => some k
  | none => find false

/-- The registers of a half that was reset filled from a surviving register of the same scale id in the context when the half takes accesses again, which
is before its job resumes (R307; DEDUCED, log entry 126: the id is the one the register had). -/
def State.copyDue (s : State) (c : Nat) : State :=
  let mine := s.scaleDue.filter (fun x => decide (x.2.2.1 = c) && !s.halfInReset (halfOfDie x.1))
  let rest := s.scaleDue.filter (fun x => !mine.contains x)
  mine.foldl (fun t x => match s.survivor c x.2.2.2 with
    | none => t
    | some k => t.puts ((scaleFields x.1 x.2.1).zip ((scaleFields k.1 k.2).map s.get))) { s with scaleDue := rest }

/-- The delivery of a verdict, in the order of R302. -/
def State.deliver (s : State) (c : Nat) (skip : Bool) (cause : Nat) (amax : List (Nat × Nat)) : State :=
  let s := (s.scalesDeliver c skip amax).ckptDeliver c skip
  let s := s.shadowDeliver c
  let s := (s.diesOf c).foldl (fun s n =>
    let s := s.puts [(R.GLZ_STEPFLAG.sat n, 0), (R.GLZ_STEPFLAG.inv n, 0), (R.GLZ_STEPFLAG.ovf n, 0), (R.GLZ_STEPFLAG.nonfin n, 0)]
    let lo := (R.GLZ_TCNT.nonfin n 0).a / 64 * 64
    { s with regs := KMap.dropRange s.regs lo (lo + 1024 * 64) }) s
  let step := s.get (R.NUM_STEP.step c)
  let s := if skip then (s.count (R.NUM_SKIP.count c) 1).puts [(R.NUM_SKLAST.step c, step), (R.NUM_SKLAST.cause c, cause)]
           else if cause ≠ 0 then s.count (R.NUM_SKIP.ovr c) 1 else s
  let s := (s.telTake c skip cause).telWrite c
  let s := s.puts [(R.NUM_STAT.skip c, b2n skip), (R.NUM_STAT.cause c, cause), (R.NUM_STAT.step c, step), (R.NUM_STEP.step c, step + 1)]
  let s := if skip then s.undoRedraw c else s
  let s := s.modJob c (fun j => { j with nflags := j.nflags % 2 + 2 * b2n skip + 4, nstep := step, point := false, cause := 0, amax := []
                                         vmsg := none, rstHalf := false, redraw := if j.drawn.isSome then j.redraw else none
                                         done := if skip then j.done else some step })
  let s := { s with owed := s.owed.filter (fun e => !(s.activeStages c).contains e.1) }
  s.put (R.NUM_STAT.busy c) 0

/-- The verdict that cause bits give (R301). -/
def verdictSkip (cause : Nat) (pin : Bool) : Bool := bit cause 2 || bit cause 3 || ((bit cause 0 || bit cause 1) && !pin)

/-- The result sent towards module 0 (R301, R409). -/
def State.verdictSend (s : State) (c : Nat) (skip : Bool) (cause : Nat) (amax : List (Nat × Nat)) : State :=
  if 0 < s.moduleOf c then s.redSend c (s.moduleOf c - 1) 4 (b2n skip :: cause :: amax.flatMap (fun x => [x.1, x.2])) else s

/-- The verdict chain on this module, once its verdict point is reached and the chain has come (R301). -/
def State.verdictChain (s : State) (c : Nat) : State :=
  let j := s.job c
  let m := s.moduleOf c
  let come := if m = 0 then some (0, []) else j.vmsg
  match j.point, come with
  | true, some (cause, amax) =>
    let cause := cause ||| j.cause
    let amax := j.amax.foldl (fun l x => amaxPut l x.1 x.2) amax
    if m < s.lastModule c then
      (s.modJob c (fun j => { j with vmsg := none })).redSend c (m + 1) 3 (cause :: amax.flatMap (fun x => [x.1, x.2]))
    else
      let skip := verdictSkip cause (s.flag (R.NUM_CTL.skip_pin c))
      (s.verdictSend c skip cause amax).deliver c skip cause amax
  | _, _ => s

/-- VERDICT_POINT (R300): reached when every stage of the context has ended its OPT phase, and not before the reads of the last
step's state are complete (R351). -/
def execVerdictPoint (c : Fin 64) (s : State) : Result :=
  let c := c.val
  let ks := s.activeStages c
  .next (
    if s.flag (R.NUM_STAT.busy c) || ks.isEmpty || !ks.all s.optEnded then s
    else if s.ckptHolds c then ks.foldl (fun s k => s.put (R.CUT_PH.wait k) 1) s
    else
      let j := s.job c
      let cause := b2n (s.guardHit c) + 2 * b2n (s.flag (R.NORM_SUM.nonfin c)) + 4 * b2n j.forced + 8 * b2n j.rstHalf
      let s := (s.put (R.NUM_STAT.busy c) 1).setJob c { j with point := true, cause := cause, amax := s.moduleAmax c, forced := false }
      s.verdictChain c)

/-- The operand list of step amax values as numbers. -/
def amaxOf (l : List (BitVec 12 × BitVec 32)) : List (Nat × Nat) := l.map (fun x => (x.1.toNat, x.2.toNat))

/-- VERDICT_CHAIN_MSG (R301): combined and sent on, at once when the verdict point has been reached. -/
def execVerdictChainMsg (h : RedHdr) (cause : BitVec 4) (amax : List (BitVec 12 × BitVec 32)) (s : State) : Result :=
  let c := h.ctx.val
  let l := (amaxOf amax).foldl (fun l x => amaxPut l x.1 x.2) []
  .next (s.redIn h (s.redDir h) 3 (cause.toNat :: (amaxOf amax).flatMap (fun x => [x.1, x.2]))
    (fun s => (s.modJob c (fun j => { j with vmsg := some (cause.toNat, l) })).verdictChain c))

/-- VERDICT_BROADCAST_MSG (R301, R302): forwarded, and delivered on a module that has reached its verdict point. -/
def execVerdictBroadcastMsg (h : RedHdr) (skip : Bool) (cause : BitVec 4) (amax : List (BitVec 12 × BitVec 32)) (s : State) :
    Result :=
  let c := h.ctx.val
  let l := amaxOf amax
  .next (s.redIn h (s.redDir h) 4 (b2n skip :: cause.toNat :: l.flatMap (fun x => [x.1, x.2]))
    (fun s => if (s.job c).point then (s.verdictSend c skip cause.toNat l).deliver c skip cause.toNat l else s))

/-- NUM_CMD force skip (R306): for the step whose verdict point is not reached yet. -/
def execNumCmdForceSkip (c : Fin 64) (s : State) : Result := .next (s.gated 0x0015_1000 (s.modJob c.val (fun j => { j with forced := true })))

/-- NUM_CMD clear (R315). -/
def execNumCmdClear (c : Fin 64) (s : State) : Result :=
  .next (s.gated 0x0015_1000 (s.puts [(R.NUM_SKIP.ovr c.val, 0), (R.NUM_SKIP.count c.val, 0), (R.NUM_SKLAST.step c.val, 0), (R.NUM_SKLAST.cause c.val, 0)]))

end Sys2Proof.Machine
end

