-- ==== Sys2Proof/Machine/Zstd.lean ====
section
/-! DEFINITION. Machine/Zstd.lean: the Zstandard decoder that a haul die runs (R334): one or more frames as RFC 8878 defines them, windows of up to
8 MiB, no dictionaries. The spec names the format only; it is written here from the published RFC (PRESUMED, log entry 5). -/

namespace Sys2Proof.Machine.Zstd

/-! ## Bit streams -/

/-- A stream read from its end: its bits as a number, and how many are left below the reading point. A read beyond the beginning gives zeros, and
`miss` counts the bits so read. -/
structure Back where
  val  : Nat
  left : Nat
  miss : Nat
deriving DecidableEq, Repr

/-- The stream of some bytes: the highest bit set in the last one marks the end. -/
def Back.ofBytes (l : List Byte) : Option Back :=
  let v := leNat l
  if l.getLastD 0 = 0 then none else some ⟨v, Nat.log2 v, 0⟩

/-- The next `n` bits, without taking them. -/
def Back.peek (b : Back) (n : Nat) : Nat :=
  if n ≤ b.left then bits b.val (b.left - n) n else b.val % 2 ^ b.left * 2 ^ (n - b.left)

/-- The stream after `n` bits. -/
def Back.skip (b : Back) (n : Nat) : Back := ⟨b.val, b.left - n, b.miss + (n - b.left)⟩

/-! ## Finite state entropy tables -/

/-- A state of a decoding table: its symbol, the bits that its successor takes, and what they are added to. -/
structure Cell where
  sym  : Nat
  nb   : Nat
  base : Nat
deriving DecidableEq, Repr

/-- A decoding table and its accuracy. -/
structure Table where
  log   : Nat
  cells : List Cell
deriving DecidableEq, Repr

/-- The table of one symbol. -/
def Table.one (v : Nat) : Table := ⟨0, [⟨v, 0, 0⟩]⟩

/-- Zero counts that the two-bit flags at bit `p` of `v` add: how many, and the bits they take. -/
def zeroRun : Nat → Nat → Nat → Nat × Nat
  | 0, _, _ => (0, 0)
  | n + 1, v, p =>
    let z := bits v p 2
    if z = 3 then let r := zeroRun n v (p + 2)
                  (r.1 + 3, r.2 + 2)
    else (z, 2)

/-- The normalised counts from bit `p` on, while `rem` of the sum is left; a count of -1 is a share below one. -/
def counts (v : Nat) : Nat → Nat → Nat → List Int → Option (List Int × Nat)
  | 0, _, _, _ => none
  | n + 1, p, rem, acc =>
    if rem = 0 then some (acc, p)
    else
      let b := Nat.log2 (rem + 1) + 1
      let low := 2 ^ (b - 1) - 1
      let thr := 2 ^ b - 1 - (rem + 1)
      let x := bits v p b
      let small := decide (x % 2 ^ (b - 1) < thr)
      let y := if small then x % 2 ^ (b - 1) else if low < x then x - thr else x
      let p := p + (if small then b - 1 else b)
      let c : Int := (y : Int) - 1
      if rem < c.natAbs then none
      else if c = 0 then
        let z := zeroRun 128 v p
        counts v n (p + z.2) rem (acc ++ List.replicate (z.1 + 1) 0)
      else counts v n p (rem - c.natAbs) (acc ++ [c])

/-- The places of a table of `size` cells in the order in which symbols are spread, starting at `p`. -/
def spread (size step : Nat) : Nat → Nat → List Nat
  | 0, _ => []
  | n + 1, p => p :: spread size step n ((p + step) % size)

/-- How often each symbol has been met, counted on. -/
def bump (l : List Nat) (i : Nat) : List Nat := l.set i (l.getD i 0 + 1)

/-- The decoding table of normalised counts. -/
def tableOf (log : Nat) (cs : List Int) : Table :=
  let size := 2 ^ log
  let lows := (List.range cs.length).filter (fun i => decide (cs.getD i 0 = -1))
  let high := size - lows.length
  let places := (spread size (size / 2 + size / 8 + 3) size 0).filter (fun p => decide (p < high))
  let syms := (List.range cs.length).flatMap (fun i => List.replicate (cs.getD i 0).toNat i)
  let at_ := (places.zip syms) ++ (List.range lows.length).map (fun j => (size - 1 - j, lows.getD j 0))
  let sym := fun p => ((at_.find? (fun e => decide (e.1 = p))).map Prod.snd).getD 0
  let start := cs.map (fun c => if c = -1 then 1 else c.toNat)
  let r := (List.range size).foldl (fun (x : List Cell × List Nat) p =>
    let i := sym p
    let n := x.2.getD i 0
    let nb := log - Nat.log2 n
    (⟨i, nb, n * 2 ^ nb - size⟩ :: x.1, bump x.2 i)) ([], start)
  ⟨log, r.1.reverse⟩

/-- A table description at the head of some bytes: the table, and the bytes it takes. -/
def readTable (maxLog maxSym : Nat) (l : List Byte) : Option (Table × Nat) :=
  let v := leNat (l.take 512)
  let log := bits v 0 4 + 5
  if maxLog < log then none
  else (counts v 1024 4 (2 ^ log) []).bind (fun c =>
    let used := ceilDiv c.2 8
    if l.length < used ∨ maxSym + 1 < c.1.length then none else some (tableOf log c.1, used))

/-- The state read at the start of a stream. -/
def Table.start (t : Table) (b : Back) : Nat × Back := (b.peek t.log, b.skip t.log)

/-- The cell of a state. -/
def Table.cell (t : Table) (i : Nat) : Cell := t.cells.getD i ⟨0, 0, 0⟩

/-- The next state. -/
def Table.next (t : Table) (i : Nat) (b : Back) : Nat × Back :=
  let c := t.cell i
  (c.base + b.peek c.nb, b.skip c.nb)

/-! ## Huffman-coded literals -/

/-- The weights of a description in two interleaved states: `i` is the one to use next. -/
def weights (t : Table) : Nat → Nat → Nat → Back → List Nat → Option (List Nat)
  | 0, _, _, _, _ => none
  | n + 1, i, j, b, acc =>
    let acc := acc ++ [(t.cell i).sym]
    let r := t.next i b
    if 0 < r.2.miss then some (acc ++ [(t.cell j).sym]) else weights t n j r.1 r.2 acc

/-- A Huffman table: the longest code, and for each value of that many bits the symbol and the length of its code. -/
structure Huff where
  log   : Nat
  cells : List (Nat × Nat)
deriving DecidableEq, Repr

/-- The table of weights, the last of which is not given. -/
def huffOf (ws : List Nat) : Option Huff :=
  let sum := (ws.map (fun w => if w = 0 then 0 else 2 ^ (w - 1))).sum
  if sum = 0 then none
  else
    let log := Nat.log2 sum + 1
    let rest := 2 ^ log - sum
    let ws := ws ++ [Nat.log2 rest + 1]
    if 11 < log ∨ 256 < ws.length ∨ 2 ^ Nat.log2 rest ≠ rest then none
    else some ⟨log, (List.range log).flatMap (fun w =>
      (List.range ws.length).flatMap (fun i => if ws.getD i 0 = w + 1 then List.replicate (2 ^ w) (i, log - w) else []))⟩

/-- A Huffman tree description: the table, and the bytes it takes. -/
def readHuff (l : List Byte) : Option (Huff × Nat) :=
  let h := (l.headD 0).toNat
  if l = [] then none
  else if 128 ≤ h then
    let n := h - 127
    let k := ceilDiv n 2
    if l.length < 1 + k then none
    else (huffOf (((l.drop 1).take k).flatMap (fun b => [b.toNat / 16, b.toNat % 16]) |>.take n)).map (fun x => (x, 1 + k))
  else
    let d := (l.drop 1).take h
    if d.length < h then none
    else (readTable 6 255 d).bind (fun t =>
      (Back.ofBytes (d.drop t.2)).bind (fun b =>
        let i := t.1.start b
        let j := t.1.start i.2
        if 0 < j.2.miss then none
        else ((weights t.1 255 i.1 j.1 j.2 []).bind huffOf).map (fun x => (x, 1 + h))))

/-- The symbols of a stream, to its very beginning. -/
def huffStream (t : Huff) : Nat → Back → List Byte → Option (List Byte)
  | 0, b, acc => if b.left = 0 then some acc.reverse else none
  | n + 1, b, acc =>
    if b.left = 0 then none
    else
      let c := t.cells.getD (b.peek t.log) (0, 0)
      let b := b.skip c.2
      if 0 < b.miss ∨ c.2 = 0 then none else huffStream t n b (BitVec.ofNat 8 c.1 :: acc)

/-- `n` literals in one stream. -/
def lits1 (t : Huff) (n : Nat) (l : List Byte) : Option (List Byte) := (Back.ofBytes l).bind (fun b => huffStream t n b [])

/-- `n` literals in four streams behind a table of their sizes. -/
def lits4 (t : Huff) (n : Nat) (l : List Byte) : Option (List Byte) :=
  let q := (n + 3) / 4
  let a := leNat (l.take 2)
  let b := leNat ((l.drop 2).take 2)
  let c := leNat ((l.drop 4).take 2)
  if l.length < 6 + a + b + c ∨ n < 3 * q then none
  else
    let l := l.drop 6
    (lits1 t q (l.take a)).bind (fun x => (lits1 t q ((l.drop a).take b)).bind (fun y =>
      (lits1 t q ((l.drop (a + b)).take c)).bind (fun z => (lits1 t (n - 3 * q) (l.drop (a + b + c))).map (fun w => x ++ y ++ z ++ w))))

/-- A literals section: the literals, the Huffman table that stands after it, and the bytes it takes. -/
def literals (old : Option Huff) (l : List Byte) : Option (List Byte × Option Huff × Nat) :=
  let v := leNat (l.take 5)
  let kind := bits v 0 2
  let fmt := bits v 2 2
  if l = [] then none
  else if kind < 2 then
    let hd := if fmt = 1 then (2, bits v 4 12) else if fmt = 3 then (3, bits v 4 20) else (1, bits v 3 5)
    let body := if kind = 0 then hd.2 else 1
    if l.length < hd.1 + body then none
    else some (if kind = 0 then (l.drop hd.1).take hd.2 else List.replicate hd.2 (l.getD hd.1 0), old, hd.1 + body)
  else
    let w := if fmt < 2 then 10 else if fmt = 2 then 14 else 18
    let head := if fmt < 2 then 3 else if fmt = 2 then 4 else 5
    let n := bits v 4 w
    let size := bits v (4 + w) w
    let d := (l.drop head).take size
    if l.length < head + size then none
    else
      let tree : Option (Huff × Nat) := if kind = 2 then readHuff d else old.map (fun t => (t, 0))
      tree.bind (fun t => ((if fmt = 0 then lits1 t.1 n (d.drop t.2) else lits4 t.1 n (d.drop t.2))).map (fun x =>
        (x, some t.1, head + size)))

/-! ## Sequences -/

/-- Literal length codes from 16 on: base and extra bits. -/
def llCodes : List (Nat × Nat) :=
  [(16, 1), (18, 1), (20, 1), (22, 1), (24, 2), (28, 2), (32, 3), (40, 3), (48, 4), (64, 6), (128, 7), (256, 8), (512, 9), (1024, 10),
   (2048, 11), (4096, 12), (8192, 13), (16384, 14), (32768, 15), (65536, 16)]

/-- Match length codes from 32 on: base and extra bits. -/
def mlCodes : List (Nat × Nat) :=
  [(35, 1), (37, 1), (39, 1), (41, 1), (43, 2), (47, 2), (51, 3), (59, 3), (67, 4), (83, 4), (99, 5), (131, 7), (259, 8), (515, 9),
   (1027, 10), (2051, 11), (4099, 12), (8195, 13), (16387, 14), (32771, 15), (65539, 16)]

/-- Base and extra bits of a literal length code. -/
def llCode (c : Nat) : Nat × Nat := if c < 16 then (c, 0) else llCodes.getD (c - 16) (0, 0)

/-- Base and extra bits of a match length code. -/
def mlCode (c : Nat) : Nat × Nat := if c < 32 then (c + 3, 0) else mlCodes.getD (c - 32) (0, 0)

/-- The predefined table of literal lengths. -/
def llDefault : Table :=
  tableOf 6 ([4, 3] ++ List.replicate 11 2 ++ [1, 1, 1, 2, 2, 2, 2, 2, 2, 2, 2, 2, 3, 2, 1, 1, 1, 1, 1, -1, -1, -1, -1])

/-- The predefined table of match lengths. -/
def mlDefault : Table :=
  tableOf 6 ([1, 4, 3, 2, 2, 2, 2, 2, 2] ++ List.replicate 37 1 ++ List.replicate 7 (-1))

/-- The predefined table of offsets. -/
def ofDefault : Table :=
  tableOf 5 ([1, 1, 1, 1, 1, 1, 2, 2, 2] ++ List.replicate 15 1 ++ List.replicate 5 (-1))

/-- The tables that a later block may use again: Huffman, literal lengths, offsets, match lengths; with the three last offsets. -/
structure Ctx where
  huff : Option Huff
  ll   : Option Table
  off  : Option Table
  ml   : Option Table
  rep  : Nat × Nat × Nat
deriving DecidableEq, Repr

/-- A table of a sequences section by its mode: predefined, one symbol, described, or the last one. -/
def seqTable (mode : Nat) (dflt : Table) (old : Option Table) (maxLog maxSym : Nat) (l : List Byte) : Option (Table × Nat) :=
  if mode = 0 then some (dflt, 0)
  else if mode = 1 then (if l = [] ∨ maxSym < (l.headD 0).toNat then none else some (Table.one (l.headD 0).toNat, 1))
  else if mode = 2 then readTable maxLog maxSym l
  else old.map (fun t => (t, 0))

/-- The offset of a sequence, and the three last offsets after it; 0 is no offset. -/
def offsetOf (v ll : Nat) (r : Nat × Nat × Nat) : Nat × (Nat × Nat × Nat) :=
  if 3 < v then (v - 3, (v - 3, r.1, r.2.1))
  else
    let i := if ll = 0 then v + 1 else v
    if i = 1 then (r.1, r)
    else if i = 2 then (r.2.1, (r.2.1, r.1, r.2.2))
    else if i = 3 then (r.2.2, (r.2.2, r.1, r.2.1))
    else (r.1 - 1, (r.1 - 1, r.1, r.2.1))

/-- What the sequences give: the output so far, the literals left and the three last offsets. -/
structure Run where
  out  : List Byte
  lits : List Byte
  rep  : Nat × Nat × Nat
deriving DecidableEq, Repr

/-- One sequence carried out: literals, then a match, which may overlap what it writes. -/
def Run.seq (x : Run) (window ll ml v : Nat) : Option Run :=
  let o := offsetOf v ll x.rep
  let out := x.out ++ x.lits.take ll
  if x.lits.length < ll ∨ o.1 = 0 ∨ out.length < o.1 ∨ window < o.1 then none
  else
    let seg := out.drop (out.length - o.1)
    some ⟨out ++ (List.range ml).map (fun i => seg.getD (i % o.1) 0), x.lits.drop ll, o.2⟩

/-- `n` sequences from their states. -/
def sequences (window : Nat) (lt ot mt : Table) : Nat → Nat → Nat → Nat → Back → Run → Option (Run × Back)
  | 0, _, _, _, b, x => some (x, b)
  | n + 1, i, j, k, b, x =>
    let oc := (ot.cell j).sym
    let mc := mlCode (mt.cell k).sym
    let lc := llCode (lt.cell i).sym
    let v := 2 ^ oc + b.peek oc
    let b := b.skip oc
    let ml := mc.1 + b.peek mc.2
    let b := b.skip mc.2
    let ll := lc.1 + b.peek lc.2
    let b := b.skip lc.2
    (x.seq window ll ml v).bind (fun x =>
      if n = 0 then some (x, b)
      else
        let p := lt.next i b
        let q := mt.next k p.2
        let r := ot.next j q.2
        sequences window lt ot mt n p.1 r.1 q.1 r.2 x)

/-- The number of sequences, and the bytes that give it. -/
def seqCount (l : List Byte) : Nat × Nat :=
  let a := (l.headD 0).toNat
  if a < 128 then (a, 1)
  else if a < 255 then ((a - 128) * 256 + (l.getD 1 0).toNat, 2)
  else ((l.getD 1 0).toNat + (l.getD 2 0).toNat * 256 + 0x7F00, 3)

/-- A compressed block after what the frame has given so far. -/
def compressed (window : Nat) (c : Ctx) (out l : List Byte) : Option (List Byte × Ctx) :=
  (literals c.huff l).bind (fun lt =>
    let d := l.drop lt.2.2
    let n := seqCount d
    let c := { c with huff := lt.2.1 }
    if d.length < n.2 then none
    else if n.1 = 0 then (if d.length = n.2 then some (out ++ lt.1, c) else none)
    else
      let m := (d.getD n.2 0).toNat
      let d := d.drop (n.2 + 1)
      if m % 4 ≠ 0 then none
      else
        (seqTable (m / 64) llDefault c.ll 9 35 d).bind (fun a =>
        (seqTable (m / 16 % 4) ofDefault c.off 8 31 (d.drop a.2)).bind (fun o =>
        (seqTable (m / 4 % 4) mlDefault c.ml 9 52 (d.drop (a.2 + o.2))).bind (fun e =>
        (Back.ofBytes (d.drop (a.2 + o.2 + e.2))).bind (fun b =>
          let i := a.1.start b
          let j := o.1.start i.2
          let k := e.1.start j.2
          (sequences window a.1 o.1 e.1 n.1 i.1 j.1 k.1 k.2 ⟨out, lt.1, c.rep⟩).bind (fun x =>
            if 0 < x.2.miss ∨ 0 < x.2.left then none
            else some (x.1.out ++ x.1.lits, ⟨c.huff, some a.1, some o.1, some e.1, x.1.rep⟩)))))))

/-! ## Frames -/

/-- The blocks of a frame: the output, and what follows the last one. -/
def blocks (window : Nat) : Nat → Ctx → List Byte → List Byte → Option (List Byte × List Byte)
  | 0, _, _, _ => none
  | n + 1, c, out, l =>
    let h := leNat (l.take 3)
    let size := h / 8
    let d := l.drop 3
    let kind := h / 2 % 4
    let cap := min window 131072
    let len := if kind = 1 then 1 else size
    if l.length < 3 ∨ d.length < len ∨ cap < size ∨ kind = 3 then none
    else
      let r : Option (List Byte × Ctx) :=
        if kind = 0 then some (out ++ d.take size, c)
        else if kind = 1 then some (out ++ List.replicate size (d.headD 0), c)
        else (compressed window c out (d.take size)).bind (fun x => if x.1.length ≤ out.length + cap then some x else none)
      r.bind (fun x => if h % 2 = 1 then some (x.1, d.drop len) else blocks window n x.2 x.1 (d.drop len))

/-- The first 64-bit prime of XXH64. -/
def xxP1 : BitVec 64 := 0x9E3779B185EBCA87
/-- The second. -/
def xxP2 : BitVec 64 := 0xC2B2AE3D27D4EB4F
/-- The third. -/
def xxP3 : BitVec 64 := 0x165667B19E3779F9
/-- The fourth. -/
def xxP4 : BitVec 64 := 0x85EBCA77C2B2AE63
/-- The fifth. -/
def xxP5 : BitVec 64 := 0x27D4EB2F165667C5

/-- One lane step of XXH64. -/
def xxRound (a v : BitVec 64) : BitVec 64 := ((a + v * xxP2).rotateLeft 31) * xxP1

/-- Eight little-endian bytes of a list from place `i`. -/
def word64 (l : List Byte) (i : Nat) : BitVec 64 := BitVec.ofNat 64 (leNat ((l.drop i).take 8))

/-- The last bytes of XXH64: eight, four or one at a time. -/
def xxTail : Nat → BitVec 64 → List Byte → BitVec 64
  | 0, h, _ => h
  | n + 1, h, l =>
    if 8 ≤ l.length then xxTail n (((h ^^^ xxRound 0 (word64 l 0)).rotateLeft 27) * xxP1 + xxP4) (l.drop 8)
    else if 4 ≤ l.length then
      xxTail n (((h ^^^ BitVec.ofNat 64 (leNat (l.take 4)) * xxP1).rotateLeft 23) * xxP2 + xxP3) (l.drop 4)
    else match l with
      | [] => h
      | b :: r => xxTail n (((h ^^^ (b.setWidth 64) * xxP5).rotateLeft 11) * xxP1) r

/-- XXH64 with seed 0, of which a frame's checksum is the low four bytes. -/
def xxh64 (l : List Byte) : BitVec 64 :=
  let n := l.length / 32
  let v := (List.range n).foldl (fun (v : BitVec 64 × BitVec 64 × BitVec 64 × BitVec 64) i =>
    (xxRound v.1 (word64 l (32 * i)), xxRound v.2.1 (word64 l (32 * i + 8)), xxRound v.2.2.1 (word64 l (32 * i + 16)),
     xxRound v.2.2.2 (word64 l (32 * i + 24)))) (xxP1 + xxP2, xxP2, 0, 0 - xxP1)
  let m := fun (h a : BitVec 64) => (h ^^^ xxRound 0 a) * xxP1 + xxP4
  let h := if n = 0 then xxP5
    else m (m (m (m (v.1.rotateLeft 1 + v.2.1.rotateLeft 7 + v.2.2.1.rotateLeft 12 + v.2.2.2.rotateLeft 18) v.1) v.2.1) v.2.2.1) v.2.2.2
  let h := xxTail 32 (h + BitVec.ofNat 64 l.length) (l.drop (32 * n))
  let h := (h ^^^ (h >>> 33)) * xxP2
  let h := (h ^^^ (h >>> 29)) * xxP3
  h ^^^ (h >>> 32)

/-- One frame behind its magic number: its content, and what follows it. -/
def frame (l : List Byte) : Option (List Byte × List Byte) :=
  let d := (l.headD 0).toNat
  let single := bit d 5
  let wb := (l.getD 1 0).toNat
  let dictLen := [0, 1, 2, 4].getD (d % 4) 0
  let fcsLen := if d / 64 = 0 then b2n single else 2 ^ (d / 64)
  let w := if single then 0 else 1
  let dict := leNat ((l.drop (1 + w)).take dictLen)
  let fcs := leNat ((l.drop (1 + w + dictLen)).take fcsLen) + (if fcsLen = 2 then 256 else 0)
  let window := if single then fcs else 2 ^ (10 + wb / 8) + 2 ^ (10 + wb / 8) / 8 * (wb % 8)
  let head := 1 + w + dictLen + fcsLen
  if l.length < head ∨ bit d 3 ∨ dict ≠ 0 ∨ 2 ^ 23 < window then none
  else (blocks window (l.length + 1) ⟨none, none, none, none, (1, 4, 8)⟩ [] (l.drop head)).bind (fun x =>
    if 0 < fcsLen ∧ x.1.length ≠ fcs then none
    else if bit d 2 then
      (if x.2.length < 4 ∨ leNat (x.2.take 4) ≠ (xxh64 x.1).toNat % 2 ^ 32 then none else some (x.1, x.2.drop 4))
    else some x)

/-- Frames one after the other, skippable ones skipped. -/
def frames : Nat → List Byte → List Byte → Option (List Byte)
  | 0, _, _ => none
  | n + 1, out, l =>
    let m := leNat (l.take 4)
    if l = [] then some out
    else if l.length < 8 ∧ m ≠ 0xFD2FB528 then none
    else if m / 16 = 0x184D2A5 then
      let k := leNat ((l.drop 4).take 4)
      if l.length < 8 + k then none else frames n out (l.drop (8 + k))
    else if m = 0xFD2FB528 then (frame (l.drop 4)).bind (fun x => frames n (out ++ x.1) x.2)
    else none

/-- The content of one or more frames; none where they are not valid. -/
def decode (l : List Byte) : Option (List Byte) := if l = [] then none else frames (l.length + 1) [] l

end Sys2Proof.Machine.Zstd
end

