-- ==== Sys2Proof/Machine/HaulXform.lean ====
section
/-! DEFINITION. Machine/HaulXform.lean: the stand manifest and its checks (R319 to R322), and the keys and ciphers (R323, R324), and the transforms of the haul dies (R334). -/

namespace Sys2Proof.Machine

/-! ## The manifest header (R319) -/

/-- Stand identifier. -/
def manStand (m : List Byte) : Nat := fieldAt m 8 8
/-- Billets. -/
def manBillets (m : List Byte) : Nat := fieldAt m 16 4
/-- Wrapped-key entries. -/
def manKeys (m : List Byte) : Nat := fieldAt m 20 4
/-- Scrub interval in seconds. -/
def manScrub (m : List Byte) : Nat := fieldAt m 28 4
/-- Landed bytes in HBM. -/
def manHbmSpan (m : List Byte) : Nat := fieldAt m 32 8
/-- Landed bytes in the far tier. -/
def manFarSpan (m : List Byte) : Nat := fieldAt m 40 8
/-- Landed bytes of the whole image. -/
def manImgSpan (m : List Byte) : Nat := fieldAt m 48 8
/-- Offset of the billet table. -/
def manBtab (m : List Byte) : Nat := fieldAt m 56 8
/-- Offset of the key table. -/
def manKtab (m : List Byte) : Nat := fieldAt m 64 8
/-- Manifest length. -/
def manLen (m : List Byte) : Nat := fieldAt m 72 8

/-! ## Billet entries (R321) -/

/-- Billet entry `i`. -/
def billetAt (m : List Byte) (i : Nat) : List Byte := (m.drop (manBtab m + 128 * i)).take 128

/-- Offset on storage. -/
def bSoff (b : List Byte) : Nat := fieldAt b 0 8
/-- Plaintext bytes. -/
def bClen (b : List Byte) : Nat := fieldAt b 8 8
/-- Offset in the stand image. -/
def bDoff (b : List Byte) : Nat := fieldAt b 16 8
/-- Landed bytes. -/
def bDlen (b : List Byte) : Nat := fieldAt b 24 4
/-- Format of the landed data. -/
def bFmt (b : List Byte) : Nat := bits (fieldAt b 28 1) 4 4
/-- Format of the source data. -/
def bSfmt (b : List Byte) : Nat := bits (fieldAt b 28 1) 0 4
/-- True for the far tier. -/
def bTier (b : List Byte) : Bool := bit (fieldAt b 29 1) 7
/-- True for form 1. -/
def bForm (b : List Byte) : Bool := bit (fieldAt b 29 1) 6
/-- Transforms permitted: bit 0 decompress, bit 1 re-layout, bit 2 quantise. -/
def bPerm (b : List Byte) : Nat := bits (fieldAt b 30 1) 0 3
/-- Layout. -/
def bLay (b : List Byte) : Nat := bits (fieldAt b 31 1) 6 2
/-- Source rows. -/
def bRows (b : List Byte) : Nat := fieldAt b 32 4
/-- Source columns. -/
def bCols (b : List Byte) : Nat := fieldAt b 36 4
/-- Bytes between operand rows. -/
def bStride (b : List Byte) : Nat := fieldAt b 40 4
/-- Offset of the scales. -/
def bSoffs (b : List Byte) : Nat := fieldAt b 44 4
/-- SHA-384 of the plaintext. -/
def bDigest (b : List Byte) : List Byte := (b.drop 48).take 48

/-- Bytes of a source element. -/
def srcBytes (f : Nat) : Nat := if f = 12 then 4 else 2

/-- An entry that breaks R318, R321 or the last part of R334. -/
def billetBad (b : List Byte) : Bool :=
  decide (bSoff b % 4096 ≠ 0 ∨ bClen b = 0 ∨ 2 ^ 30 < bClen b ∨ bDoff b % 4096 ≠ 0 ∨ bDlen b < 4096 ∨ 2 ^ 30 < bDlen b
    ∨ bDlen b % 4096 ≠ 0 ∨ 13 ≤ bFmt b ∨ bLay b = 3)
  || (if bForm b then
        decide (bPerm b = 0 ∨ ¬ (bSfmt b = 11 ∨ bSfmt b = 12)) ||
        (if bit (bPerm b) 2 then decide (bLay b = 0) || (fmtMax (bFmt b)).isNone else decide (bFmt b ≠ bSfmt b))
      else decide (13 ≤ bSfmt b ∨ bClen b ≠ bDlen b ∨ bPerm b ≠ 0))

/-- The greatest end of the landed ranges. -/
def spanOf (bs : List (List Byte)) : Nat := bs.foldl (fun a b => max a (bDoff b + bDlen b)) 0

/-- True when two ranges, in ascending order of their starts, overlap. -/
def rangesClash : List (Nat × Nat) → Bool
  | x :: y :: l => decide (y.1 < x.1 + x.2) || rangesClash (y :: l)
  | _ => false

/-- The kid of a device (R320): that of its binding public key. -/
def Record.kid (m : Record) : List Byte := kidOf m.publicKey

/-- The first key entry with this device's kid (R320, R323 step 1). -/
def keyEntry (m : List Byte) (kid : List Byte) : Option (List Byte) :=
  ((List.range (min (manKeys m) (m.length / 160))).map (fun i => (m.drop (manKtab m + 160 * i)).take 160)).find? (fun e => decide (e.take 16 = kid))

/-- The ephemeral public key of a key entry (R320). -/
def keyEpk (e : List Byte) : List Byte := (e.drop 16).take 97

/-- The wrapped stand key of a key entry (R320). -/
def keyWkey (e : List Byte) : List Byte := (e.drop 120).take 40

/-! ## Keys and encryption (R323, R324) -/

/-- stand_id as a salt (R323). -/
def manSalt (m : List Byte) : List Byte := leBytes 8 (manStand m)

/-- The stand key that a key entry gives a device with binding key `d` (R323 steps 2 to 4); none when the unwrap fails. -/
def standKey (d : Nat) (m e : List Byte) : Option (List Byte) :=
  (ecdh d (keyEpk e)).bind (fun z => keyUnwrap (hkdf384 (manSalt m) z (ascii "Caerlen stand wrap v1") 32) (keyWkey e))

/-- The manifest key (R323). -/
def manKey (m k : List Byte) : List Byte := hkdf384 (manSalt m) k (ascii "Caerlen manifest v1") 48

/-- The stand key and the manifest key of a device with binding key `d` (R323); none when it has no key entry or the unwrap fails. -/
def standKeys (d : Nat) (m kid : List Byte) : Option (List Byte × List Byte) :=
  ((keyEntry m kid).bind (standKey d m)).map (fun k => (k, manKey m k))

/-- True when mtag is the HMAC under the manifest key over mlen bytes with its own 48 taken as zero (R323). -/
def mtagOk (m k : List Byte) : Bool :=
  decide (hmac384 k (patchAt (m.take (manLen m)) 80 (List.replicate 48 0)) = (m.drop 80).take 48)

/-- The nonce of a billet: salt, then its index (R324). -/
def billetNonce (m : List Byte) (i : Nat) : List Byte := (m.drop 24).take 4 ++ leBytes 8 i

/-- The additional data of a billet: stand_id, its index and clen (R324). -/
def billetAad (m : List Byte) (i : Nat) : List Byte := leBytes 8 (manStand m) ++ leBytes 8 i ++ leBytes 8 (bClen (billetAt m i))

/-- The plaintext of stored bytes `data` of billet `i` that begin at offset `o` (R324, R332). -/
def billetPlain (m key : List Byte) (i o : Nat) (data : List Byte) : List Byte :=
  let ct := data.take (bClen (billetAt m i) - o)
  xorBytes ct (gcmStream (aesKeys key) (billetNonce m i) o ct.length)

/-- True when the tag behind the ciphertext of a stored billet is right (R324). -/
def billetTagOk (m key : List Byte) (i : Nat) (stored : List Byte) : Bool :=
  let n := bClen (billetAt m i)
  decide (gcmTag (aesKeys key) (billetNonce m i) (billetAad m i) (stored.take n) = (stored.drop n).take 16)

/-! ## The checks of a manifest (R322) -/

/-- Status of the checks of R322 in their order, 0 when all pass: 1 HAUL_MANIFEST, 2 HAUL_KEY, 10 CFG_ZERO (R345). With nkeys = 0, HAUL_MANIFEST
comes before the search that no entry can meet (R453). -/
def manCheck (m : List Byte) (keys : Option (List Byte × List Byte)) : Nat :=
  let n := manBillets m
  if fieldAt m 0 4 ≠ 0x444E_5453 ∨ fieldAt m 4 1 ≠ 1 ∨ 2 ^ 28 < manLen m ∨ m.length < manLen m ∨ m.length < 256 then 1
  else if n = 0 then 10
  else if manKeys m = 0 then 1
  else match keys with
    | none => 2
    | some k =>
      if mtagOk m k.2 = false then 1
      else if 2 ^ 20 < n ∨ 4096 < manKeys m ∨ manLen m < manBtab m + 128 * n ∨ manLen m < manKtab m + 160 * manKeys m
        ∨ manBtab m % 64 ≠ 0 ∨ manKtab m % 16 ≠ 0 then 1
      else
        let bs := (List.range n).map (billetAt m)
        if bs.any billetBad || decide (spanOf (bs.filter (fun b => !bTier b)) ≠ manHbmSpan m)
          || decide (spanOf (bs.filter bTier) ≠ manFarSpan m) || decide (spanOf bs ≠ manImgSpan m)
          || rangesClash ((bs.map (fun b => (bDoff b, bDlen b))).mergeSort (fun x y => decide (x.1 ≤ y.1))) then 1
        else 0

/-! ## Transforms (R334) -/

/-- Element code (r, c) of row-major source data. -/
def srcCode (b src : List Byte) (r c : Nat) : Nat := fieldAt src ((r * bCols b + c) * srcBytes (bSfmt b)) (srcBytes (bSfmt b))

/-- A source code as FP32 (R61). -/
def srcF32 (sfmt code : Nat) : F32 := if sfmt = 12 then BitVec.ofNat 32 code else (decodeF32 11 127 (elemOf 11 code)).1

/-- One landed block of 32 along k, row `r` from column `c0`: scale, codes, saturation events. Rows and columns beyond the source
are zero codes. -/
def landBlock (b src : List Byte) (r c0 : Nat) : Nat × List Nat × Nat :=
  let cs := (List.range 32).map (fun i => if r < bRows b ∧ c0 + i < bCols b then some (srcCode b src r (c0 + i)) else none)
  if bit (bPerm b) 2 then
    let vs := cs.filterMap (Option.map (srcF32 (bSfmt b)))
    let x := computedX (bFmt b) vs
    let conv := cs.map (fun c => match c with
      | some v => convElem (bFmt b) x (srcF32 (bSfmt b) v)
      | none => ⟨0, false, false⟩)
    let ff := conv.any Conv.block
    (if ff then 255 else x, conv.map (fun c => if ff then 0 else c.code), (conv.filter Conv.sat).length)
  else (0, cs.map (fun c => c.getD 0), 0)

/-- Pieces of a billet that is quantised and keeps the order of its source: the codes row after row, and the scales, one a block, from soffs
(DESIGN CHOICE, log entry 128). -/
def flatPieces (b src : List Byte) : List (Nat × List Byte) × Nat :=
  let blocks := (List.range (bRows b)).flatMap (fun r => (List.range (ceilDiv (bCols b) 32)).map (fun k =>
    let y := landBlock b src r (32 * k)
    (y.1, y.2.1.take (bCols b - 32 * k), y.2.2)))
  ([(0, packCodes (fmtBits (bFmt b)) (blocks.flatMap (fun y => y.2.1))), (bSoffs b, blocks.map (fun y => BitVec.ofNat 8 y.1))],
   (blocks.map (fun y => y.2.2)).sum)

/-- Pieces of the landed billet, each with its offset, and the saturation events: operand rows (lay 1) or sap order (lay 2). -/
def landPieces (b src : List Byte) : List (Nat × List Byte) × Nat :=
  let nb := ceilDiv (bCols b) 32
  let w := fmtBits (bFmt b)
  let q := bit (bPerm b) 2
  if bLay b = 1 then
    let rows := (List.range (bRows b)).map (fun r => (r, (List.range nb).map (fun k => landBlock b src r (32 * k))))
    let sc := 4 * ceilDiv nb 4
    (rows.flatMap (fun x =>
      let els := (bStride b * x.1, x.2.flatMap (fun y => packCodes w y.2.1))
      if q then [els, (bSoffs b + sc * x.1, x.2.map (fun y => BitVec.ofNat 8 y.1))] else [els]),
     (rows.flatMap (fun x => x.2.map (fun y => y.2.2))).sum)
  else
    let g := if w = 4 then 128 else 64
    let blocks := (List.range (ceilDiv (bRows b) g)).flatMap (fun i => (List.range nb).flatMap (fun k =>
      (List.range g).map (fun r => landBlock b src (g * i + r) (32 * k))))
    let els := (0, blocks.flatMap (fun y => packCodes w y.2.1))
    (if q then [els, (bSoffs b, blocks.map (fun y => BitVec.ofNat 8 y.1))] else [els], (blocks.map (fun y => y.2.2)).sum)

/-- The landed bytes of a form-1 billet from its decompressed source data, and its saturation events: the transforms are exactly its perm
bits (R321). Bytes that no piece covers are zero. -/
def landed (b src : List Byte) : List Byte × Nat :=
  let zero := List.replicate (bDlen b) (0 : Byte)
  let p := if bit (bPerm b) 1 ∧ bLay b ≠ 0 then landPieces b src else if bit (bPerm b) 2 then flatPieces b src else ([(0, src)], 0)
  (p.1.foldl (fun d x => if x.1 ≤ d.length then (patchAt d x.1 x.2).take (bDlen b) else d) zero, p.2)

/-- True when decompressed data has the size that rows, cols and sfmt imply (R332). -/
def srcSizeOk (b src : List Byte) : Bool := decide (src.length = bRows b * bCols b * srcBytes (bSfmt b))

end Sys2Proof.Machine
end

