-- ==== Sys2Proof/Machine/Haul.lean ====
section
/-! DEFINITION. Machine/Haul.lean: the haul engine: channels and requests (R327 to R333), reads and sources (R325, R326), stand records,
scrubs and quarantine (R337 to R340), and the happenings that meet (R341, R342). -/

namespace Sys2Proof.Machine

/-! ## The request entry (R329) -/

/-- op. -/
def rqOp (e : List Byte) : Nat := fieldAt e 0 1
/-- Flag `i` of byte 1: 0 hbm_only, 1 scrub, 2 irq, 3 ref, 4 mres. -/
def rqFlag (e : List Byte) (i : Nat) : Bool := bit (fieldAt e 1 1) i
/-- Transforms authorised. -/
def rqXform (e : List Byte) : Nat := fieldAt e 2 1 % 8
/-- Source index. -/
def rqSrc (e : List Byte) : Nat := fieldAt e 3 1 % 64
/-- First billet. -/
def rqFirst (e : List Byte) : Nat := fieldAt e 4 4
/-- Billets. -/
def rqCount (e : List Byte) : Nat := fieldAt e 8 4
/-- Version table that the load fills. -/
def rqStage (e : List Byte) : Nat := fieldAt e 12 1 % 128
/-- Its slot. -/
def rqSlot (e : List Byte) : Nat := fieldAt e 13 1 % 4
/-- Offset of the stand in the namespace. -/
def rqSbase (e : List Byte) : Nat := fieldAt e 16 8
/-- Offset of the manifest from the stand. -/
def rqMoff (e : List Byte) : Nat := fieldAt e 24 8
/-- Manifest buffer. -/
def rqMbuf (e : List Byte) : Nat := fieldAt e 32 8
/-- HBM base. -/
def rqHbm (e : List Byte) : Nat := fieldAt e 40 8
/-- Far-tier base. -/
def rqFar (e : List Byte) : Nat := fieldAt e 48 8

/-- Device address where a billet lands (R331). -/
def landAddr (e b : List Byte) : Nat := (if bTier b && !rqFlag e 0 then rqFar e else rqHbm e) + bDoff b

/-- The error code of a status (R345). -/
def haulCode (st : Nat) : Nat :=
  [0, E.HAUL_MANIFEST, E.HAUL_KEY, E.HAUL_TAG, E.HAUL_DIGEST, E.HAUL_PERM, E.HAUL_RANGE, E.HAUL_IO, E.HAUL_ABORT, E.HAUL_XFORM,
   E.CFG_ZERO, E.HAUL_REQ, E.HAUL_SCRUB].getD st 0

/-! ## Channels -/

/-- A haul channel. -/
def State.haul (s : State) (ch : Nat) : Haul := KMap.find (fun _ => ⟨none, []⟩) s.hauls ch

/-- A haul channel replaced. -/
def State.setHaul (s : State) (ch : Nat) (x : Haul) : State := { s with hauls := KMap.put (fun _ => ⟨none, []⟩) s.hauls ch x }

/-- The request of a channel replaced. -/
def State.setReq (s : State) (ch : Nat) (r : HaulReq) : State := s.setHaul ch { s.haul ch with req := some r }

/-- Owning context of a channel. -/
def State.chanCtx (s : State) (ch : Nat) : Nat := s.get (R.HAUL_CHAN.ctx ch)

/-- Edge die of a source (R325). -/
def State.srcEdge (s : State) (src : Nat) : Nat := s.get (R.HAUL_SRC.cage src) / 2

/-- Edge die of a source, as the place of what it logs. -/
def State.srcPlace (s : State) (src : Nat) : Where := atEdge (s.srcEdge src)

/-- The haul die that the billets of a channel pass through (R327): none on a standard channel. -/
def State.xformDie (s : State) (ch : Nat) : Option Nat := if ch < 4 then s.haulDie ch else none

/-- Where a billet's error is raised (R345): a transform's by the haul die, the others by the source's edge die. -/
def State.billetPlace (s : State) (ch src st : Nat) : Where :=
  match s.xformDie ch with
  | some u => if st = 9 then atSite u else s.srcPlace src
  | none => s.srcPlace src

/-- A stand record. -/
def State.hrec (s : State) (r : Nat) : HRec := KMap.find (fun _ => HRec.empty) s.hrecs r

/-- A stand record replaced. -/
def State.setHrec (s : State) (r : Nat) (x : HRec) : State := { s with hrecs := KMap.put (fun _ => HRec.empty) s.hrecs r x }

/-- The record of the same stand, bases and context (R337). -/
def State.findRec (s : State) (c stand : Nat) (e : List Byte) : Option Nat :=
  (s.hrecs.map Prod.fst).find? (fun r => s.flag (R.HAUL_STREC.valid r) && decide (s.get (R.HAUL_STREC.stand_id r) = stand)
    && decide (s.get (R.HAUL_STREC.ctx r) = c) && decide (rqHbm (s.hrec r).entry = rqHbm e ∧ rqFar (s.hrec r).entry = rqFar e))

/-! ## Halting a context, quarantine (R339) -/

/-- S0 halts every running sequencer of a context and reports it (R339, R449). -/
def State.haltCtx (s : State) (c : Nat) : State :=
  ((List.range 96).foldl (fun s k => if s.seqBound k ∧ s.seqCtx k = c ∧ s.seqState k = seqRUNNING
    then (s.stopIssue k).setSeqState k seqHALTED else s) s).ctxEvent c 2

/-- The bad billets of a record: HAUL_STREC.bad is their number (R344). -/
def State.setBads (s : State) (r : Nat) (l : List (Nat × Nat)) : State :=
  (s.setHrec r { s.hrec r with bads := l }).put (R.HAUL_STREC.bad r) l.length

/-- A billet of a record turns bad (R338, R344). -/
def State.addBad (s : State) (r i a : Nat) : State :=
  if (s.hrec r).bads.contains (i, a) then s else s.setBads r ((s.hrec r).bads ++ [(i, a)])

/-- A bad billet's landed range quarantined (R339): cause 1 arrival, 2 scrub, 3 verify. A billet already listed keeps its entry. -/
def State.quarantine (s : State) (c : Nat) (e b : List Byte) (i cause : Nat) (rec_ : Option Nat) : State :=
  let a := landAddr e b
  let s := match rec_ with
    | some r => s.addBad r i a
    | none => s
  let same := fun j => s.flag (R.HAUL_QUAR.active j) && decide (s.get (R.HAUL_QUAR.base j) = a ∧ s.get (R.HAUL_QUAR.billet j) = i)
  if (List.range 32).any same then s
  else
    match (List.range 32).find? (fun j => !s.flag (R.HAUL_QUAR.active j)) with
    | none => (s.raise E.HAUL_QUAR (some c) (atSteward 0) a).haltCtx c
    | some j =>
      let s := s.puts [(R.HAUL_QUAR.active j, 1), (R.HAUL_QUAR.cause j, cause), (R.HAUL_QUAR.rec j, rec_.getD 511),
                       (R.HAUL_QUAR.ref j, b2n (rqFlag e 3)), (R.HAUL_QUAR.slot j, rqSlot e), (R.HAUL_QUAR.stage j, rqStage e),
                       (R.HAUL_QUAR.billet j, i), (R.HAUL_QUAR.tries j, 0), (R.HAUL_QUAR.base j, a)]
      { s with quarLen := KMap.put (fun _ => (0, 0)) s.quarLen j (bDlen b, c) }

/-- Quarantine entry `j` lifted. -/
def State.liftQuar (s : State) (j : Nat) : State :=
  let s := s.regReset (0x0393_0000 + 16 * j) (0x0393_0000 + 16 * j + 16)
  { s with quarLen := KMap.drop s.quarLen j }

/-- A billet that passes its checks is repaired in every record that has it as bad (R344), and lifts its entry (R339). -/
def State.liftBillet (s : State) (a i : Nat) : State :=
  let s := (s.hrecs.map Prod.fst).foldl (fun s r =>
    if (s.hrec r).bads.contains (i, a) then s.setBads r ((s.hrec r).bads.filter (fun x => decide (x ≠ (i, a)))) else s) s
  (List.range 32).foldl (fun s j =>
    if s.flag (R.HAUL_QUAR.active j) ∧ s.get (R.HAUL_QUAR.base j) = a ∧ s.get (R.HAUL_QUAR.billet j) = i then s.liftQuar j else s) s

/-! ## Reads (R325, R330) -/

/-- Bytes of a stored billet: ciphertext and tag, padded to 4 KiB (R318). -/
def billetStored (b : List Byte) : Nat := ceilDiv (bClen b + 16) 4096 * 4096

/-- Parts of up to 1 MiB of the stored billet (R325). -/
def billetParts (b : List Byte) : Nat := ceilDiv (billetStored b) (2 ^ 20)

/-- Bytes of part `p`. -/
def partBytes (b : List Byte) (p : Nat) : Nat := min (2 ^ 20) (billetStored b - p * 2 ^ 20)

/-- The read command of one part. -/
def State.readPart (s : State) (r : HaulReq) (i p : Nat) : State :=
  let b := billetAt r.man i
  s.emitSrc (rqSrc r.entry) (.nvme (rqSrc r.entry) 1 (rqSbase r.entry + bSoff b + p * 2 ^ 20) (partBytes b p))

/-- Commands per I/O queue of a source, and its queues (R326). -/
def State.srcQueues (s : State) (src : Nat) : Nat × Nat :=
  let d := KMap.find (fun _ => []) s.srcConn src
  (fieldAt d 546 2, fieldAt d 548 1)

/-- Reads of a request in flight on queue `q`, of its billets and of its manifest. -/
def HaulReq.onQueue (r : HaulReq) (q : Nat) : Nat := ((r.mread.toList ++ r.reads).filter (fun x => x.sent && decide (x.queue = q))).length

/-- Reads in flight on queue `q` of a source. -/
def State.queueLoad (s : State) (src q : Nat) : Nat :=
  (s.hauls.map (fun e => match e.2.req with
    | some r => if rqSrc r.entry = src then r.onQueue q else 0
    | none => 0)).sum

/-- The queue that a read goes out on: while the source is up, the first with room; a read tried again takes another than the one it failed
on where another has room (R326; which one is a DESIGN CHOICE, log entry 131). -/
def State.queueFor (s : State) (src : Nat) (failed : Option Nat) : Option Nat :=
  let dq := s.srcQueues src
  let room := fun q => decide (s.queueLoad src q < dq.1)
  if s.get (R.HAUL_SSTAT.state src) ≠ 2 then none
  else ((List.range dq.2).find? (fun q => room q && decide (failed ≠ some q))).orElse (fun _ => failed.filter (fun q => room q && decide (q < dq.2)))

/-- A read that waits to be tried again goes out on queue `q`. -/
def State.resendRead (s : State) (ch : Nat) (r : HaulReq) (x : HRead) (q : Nat) : State :=
  let r := { r with reads := r.reads.map (fun y => if y.billet = x.billet ∧ y.part = x.part then { y with queue := q, sent := true } else y) }
  (s.setReq ch r).readPart r x.billet x.part

/-- True when a request takes its manifest from mbuf: mres, or a verify (R329, R338). -/
def rqHeld (e : List Byte) : Bool := rqFlag e 4 || decide (rqOp e = 2)

/-- Bytes of the next read of a manifest of which `m` has come: its header's 4 KiB first, then the rest in reads of at most 1 MiB (R325, R330). -/
def manAsk (m : List Byte) : Nat := if m = [] then 4096 else min (2 ^ 20) (ceilDiv (manLen m) 4096 * 4096 - m.length)

/-- A read of the manifest goes out on queue `q`, for the first time or again (R326). -/
def State.manRead (s : State) (ch : Nat) (r : HaulReq) (again : Bool) (q : Nat) : State :=
  let e := r.entry
  (s.setReq ch { r with mread := some ⟨0, 0, again, q, true⟩ }).emitSrc (rqSrc e) (.nvme (rqSrc e) 1 (rqSbase e + rqMoff e + r.man.length) (manAsk r.man))

/-- The next read of a manifest, when one is to go out and a queue has room (R326, R330). -/
def State.manNext (s : State) (ch : Nat) (r : HaulReq) : Option State :=
  if rqHeld r.entry then none
  else match r.mread with
    | none => (s.queueFor (rqSrc r.entry) none).map (s.manRead ch r false)
    | some x => if x.sent then none else (s.queueFor (rqSrc r.entry) (some x.queue)).map (s.manRead ch r x.again)

/-- A request with its next billet open, when the billets that are open have all been asked for (R330). -/
def HaulReq.openNext (r : HaulReq) : HaulReq :=
  if r.opn.any (fun b => decide (b.asked < billetParts (billetAt r.man b.i))) then r
  else if r.next < rqFirst r.entry + rqCount r.entry then { r with next := r.next + 1, opn := r.opn ++ [HBillet.fresh r.next] }
  else r

/-- The next part of billet `b` is asked for on queue `q`. -/
def State.askPart (s : State) (ch : Nat) (r : HaulReq) (b : HBillet) (q : Nat) : State :=
  let r := { r with opn := r.opn.map (fun x => if x.i = b.i then { x with asked := x.asked + 1 } else x)
                    reads := r.reads ++ [⟨b.i, b.asked, false, q, true⟩] }
  (s.setReq ch r).readPart r b.i b.asked

/-- The next read of a billet, when fewer than 64 are in flight and a queue has room: one to be tried again first, then a part of an open billet,
then of the next one (R326, R330). -/
def State.billetNext (s : State) (ch : Nat) (r : HaulReq) : Option State :=
  let src := rqSrc r.entry
  match r.reads.find? (fun x => !x.sent) with
  | some x => (s.queueFor src (some x.queue)).map (s.resendRead ch r x)
  | none =>
    if 64 ≤ r.reads.length then none
    else
      let r := r.openNext
      match r.opn.find? (fun b => decide (b.asked < billetParts (billetAt r.man b.i))) with
      | some b => (s.queueFor src none).map (s.askPart ch r b)
      | none => none

/-- True while a privileged channel waits, since the partner sites are gated (R494). -/
def State.haulGated (s : State) (ch : Nat) : Bool := decide (ch < 4) && decide (s.get R.PWR_STAT.rung ≠ 0)

/-- One read of a channel's request goes out, if one can. -/
def State.issueOne (s : State) (ch : Nat) : Option State :=
  match (s.haul ch).req with
  | none => none
  | some r => if s.haulGated ch then none else if r.phase = 0 then s.manNext ch r else if r.phase = 1 then s.billetNext ch r else none

/-- The channels with a request on a source, in the order of their turns: from the one behind the channel served last (R336). -/
def State.turns (s : State) (src : Nat) : List Nat :=
  let chs := (s.hauls.filter (fun e => match e.2.req with
    | some r => decide (rqSrc r.entry = src)
    | none => false)).map Prod.fst
  let last := KMap.find (fun _ => 63) s.haulTurn src
  chs.filter (fun c => decide (last < c)) ++ chs.filter (fun c => decide (c ≤ last))

/-- The reads that a source has room for go out, one channel after another in turn (R326, R336). -/
def State.serve (src : Nat) : Nat → State → State
  | 0, s => s
  | n + 1, s => match (s.turns src).findSome? (fun ch => (s.issueOne ch).map (fun t => (ch, t))) with
    | none => s
    | some (ch, t) => State.serve src n { t with haulTurn := KMap.put (fun _ => 63) t.haulTurn src ch }

/-- Every request on a source goes on: the source is up again, or has room for a read (R326); at most 64 reads of each of 64 channels. -/
def State.srcGo (s : State) (src : Nat) : State := State.serve src 4096 s

/-- A request whose billets have all passed or turned bad can be completed (R333). -/
def State.haulDone (s : State) (ch : Nat) : State :=
  match (s.haul ch).req with
  | some r => if r.phase = 1 ∧ r.opn = [] ∧ rqFirst r.entry + rqCount r.entry ≤ r.next then s.setReq ch { r with phase := 2 } else s
  | none => s

/-- What follows a change of a request: more reads, or its end (R330, R333). -/
def State.haulGo (s : State) (ch : Nat) : State :=
  match (s.haul ch).req with
  | some r => (s.srcGo (rqSrc r.entry)).haulDone ch
  | none => s

/-- Requests that waited while the partner sites were gated go on (R494). -/
def State.haulResume (s : State) : State := (List.range 64).foldl State.srcGo s

/-- A request ends with a status before any billet (R330). -/
def State.haulRefuse (s : State) (ch : Nat) (r : HaulReq) (st : Nat) : State :=
  ((s.setReq ch { r with phase := 2, status := st, opn := [], reads := [], mread := none }).raise (haulCode st) (some (s.chanCtx ch))
    (s.srcPlace (rqSrc r.entry)) (rqMbuf r.entry)).srcGo (rqSrc r.entry)

/-- A billet of a request turns bad (R332): counted, quarantined, logged; the first one gives the status. -/
def State.billetFails (s : State) (ch : Nat) (r : HaulReq) (i st cause : Nat) : State :=
  let c := s.chanCtx ch
  let b := billetAt r.man i
  let r := { r with bad := min (r.bad + 1) 65535, status := if r.status = 0 then st else r.status
                    opn := r.opn.filter (fun x => decide (x.i ≠ i)), reads := r.reads.filter (fun x => decide (x.billet ≠ i)) }
  ((s.setReq ch r).raise (haulCode st) (some c) (s.billetPlace ch (rqSrc r.entry) st) i).quarantine c r.entry b i cause
    (s.findRec c (manStand r.man) r.entry)

/-! ## Taking a request (R330, R338) -/

/-- A request begins: op and source are checked, the manifest is asked for (R330). -/
def State.haulTake (s : State) (ch : Nat) (o : HOrigin) (e : List Byte) : State :=
  let src := rqSrc e
  let r : HaulReq := { origin := o, entry := e, man := [], mread := none, keys := none, phase := 0, next := rqFirst e, opn := [], reads := [], bad := 0
                       status := 0 }
  let s := (s.setReq ch r).put (R.HAUL_CSTAT.state ch) 2
  if ¬ (rqOp e = 1 ∨ rqOp e = 2) ∨ s.flag (R.HAUL_SRC.en src) = false ∨ s.get (R.HAUL_SRC.ctx src) ≠ s.chanCtx ch then
    s.haulRefuse ch r 11
  else s.haulGo ch

/-- Address of the entry that a channel takes next (R329). -/
def State.ringAt (s : State) (ch : Nat) : Nat := s.get (R.HAUL_RING.base ch) + 64 * s.get (R.HAUL_PTR.head ch)

/-- The next ring entry of a channel, if one is to be taken. -/
def State.ringEntry (s : State) (ch : Nat) : Option (List Byte) :=
  if s.get (R.HAUL_RLEN.len ch) = 0 ∨ s.get (R.HAUL_PTR.head ch) = s.get (R.HAUL_PTR.tail ch) then none
  else some (s.s0Bytes (s.ringAt ch) 64)

/-- True while a context is being torn down (R341, R439, R440). -/
def State.tearing (s : State) (c : Nat) : Bool := decide (2 ≤ s.get (R.CTX_STATE.state c))

/-- True when a channel takes its next request: enabled, with none in progress, outside Rest, Freeze and their entry (R495); a privileged
channel also outside Proof (R494); no request is taken during a teardown of its context (R342). -/
def State.chanFree (s : State) (ch : Nat) : Bool :=
  s.flag (R.HAUL_CHAN.en ch) && (s.haul ch).req.isNone && s.awake && (decide (4 ≤ ch) || decide (s.get R.PWR_STAT.rung = 0))
    && !s.tearing (s.chanCtx ch)

/-- A ring entry is read and taken (R329, R330, R385). -/
def State.takeRing (s : State) (ch : Nat) (e : List Byte) : State := (s.s0Note (some (s.chanCtx ch)) (s.ringAt ch) 64).haulTake ch .ring e

/-- HAUL_REQUEST_HAUL: a foreman request before the next ring entry; any entry but a verify (R329, R330). -/
def execHaulRequestHaul (ch : Fin 64) (s : State) : Result :=
  let ch := ch.val
  .next (
    if !s.chanFree ch then s
    else match (s.haul ch).fq with
      | (o, e) :: rest => (s.setHaul ch { s.haul ch with fq := rest }).haulTake ch o e
      | [] => match s.ringEntry ch with
        | some e => if rqOp e = 2 then s else s.takeRing ch e
        | none => s)

/-- HAUL_REQUEST_VERIFY (R338). -/
def execHaulRequestVerify (ch : Fin 64) (s : State) : Result :=
  let ch := ch.val
  .next (
    if !s.chanFree ch || !(s.haul ch).fq.isEmpty then s
    else match s.ringEntry ch with
      | some e => if rqOp e = 2 then s.takeRing ch e else s
      | none => s)

/-- HAUL_TAIL_WRITE (R329, R343, R455). A write that meets a teardown of the channel's context is dropped (R341; from its command to its end,
DEDUCED, log entry 133). -/
def execHaulTailWrite (m : Master) (ch : Fin 64) (tail : BitVec 16) (s : State) : Result :=
  .next (s.gated (0x0390_0018 + 0x40 * ch.val) (if s.owns m 2 then
    if s.flag (R.HAUL_CHAN.en ch.val) && s.tearing (s.chanCtx ch.val) then s else s.put (R.HAUL_PTR.tail ch.val) tail.toNat else s.ownDrop m (0x0390_0018 + 0x40 * ch.val)))

/-- Address of the landed digest of a billet (R329). -/
def digestAt (e m : List Byte) (i : Nat) : Nat := rqMbuf e + ceilDiv (manLen m) 64 * 64 + 48 * i

/-- What a check of a landed billet reads: the billet, and for form 1 its landed digest (R338). -/
def checkReads (e m : List Byte) (i : Nat) : List (Nat × Nat) :=
  let b := billetAt m i
  (landAddr e b, bDlen b) :: (if bForm b then [(digestAt e m i, 48)] else [])

/-- Landed bytes of a billet against its digest; what cannot be read does not match (R338). -/
def State.landedOk (s : State) (e m : List Byte) (i : Nat) : Bool :=
  let b := billetAt m i
  let a := landAddr e b
  let want := if bForm b then s.bytes (digestAt e m i) 48 else bDigest b
  s.s0AllOk (checkReads e m i) && decide (sha384 (s.bytes a (bDlen b)) = want)

/-- A verify request's billets checked at once (R338). -/
def State.verifyAll (s : State) (ch : Nat) : State :=
  match (s.haul ch).req with
  | none => s
  | some r0 =>
    let is := (List.range (rqCount r0.entry)).map (fun i => rqFirst r0.entry + i)
    let s := is.foldl (fun s i => match (s.haul ch).req with
      | some r =>
        let ok := s.landedOk r.entry r.man i
        let s := s.s0Notes (some (s.chanCtx ch)) (checkReads r.entry r.man i)
        if ok then s else s.billetFails ch r i 12 3
      | none => s) s
    match (s.haul ch).req with
    | some r => s.setReq ch { r with phase := 2 }
    | none => s

/-- The ranges of a request that must lie in the context's windows, for reading and for writing: mbuf and those of R331 (R330 step 4). -/
def requestRanges (e m : List Byte) : List (Nat × Nat × Bool) :=
  ((rqMbuf e, ceilDiv (manLen m) 64 * 64 + 48 * manBillets m)
    :: (if rqFlag e 0 then [(rqHbm e, manImgSpan m)] else [(rqHbm e, manHbmSpan m), (rqFar e, manFarSpan m)])).flatMap
    (fun r => [(r.1, r.2, true), (r.1, r.2, false)])

/-- They do. -/
def State.rangesOk (s : State) (c : Nat) (e m : List Byte) : Bool := (requestRanges e m).all (fun r => s.permits c r.1 r.2.1 r.2.2)

/-- A request refused for ranges outside the windows, which is logged (R330, R480). -/
def State.rangeRefuse (s : State) (ch : Nat) (r : HaulReq) (rs : List (Nat × Nat × Bool)) : State :=
  (s.permNote s.entryLd (s.chanCtx ch) rs).haulRefuse ch r 6

/-- A billet of the request that R330 step 5 refuses. -/
def permRefused (ch : Nat) (e m : List Byte) : Bool :=
  (List.range (rqCount e)).any (fun i =>
    let b := billetAt m (rqFirst e + i)
    bForm b && (decide (4 ≤ ch) || (List.range 3).any (fun j => bit (bPerm b) j && !bit (rqXform e) j)))

/-- Where what a source's edge die writes enters the fabric, and its number as the source of the packets (R328). -/
def State.edgeLane (s : State) (src : Nat) : Nat × Nat := (101 + s.srcEdge src, ldOfEdge (s.srcEdge src))

/-- Where a channel's landed bytes enter the fabric (R328): its haul die's landing die, or its source's edge die's. -/
def State.haulLane (s : State) (ch src : Nat) : Nat × Nat :=
  match s.xformDie ch with
  | some u => (99 + u, ldOfSite u)
  | none => s.edgeLane src

/-- On a privileged channel the edge die writes the decrypted bytes to the haul die's landing die (R17, R328). -/
def State.feedDie (s : State) (ch src : Nat) : State :=
  match s.xformDie ch with
  | some u => let x := s.edgeLane src
              (s.sendPkt x.1 0 x.2 (ldOfSite u)).ackPkt x.1 0 x.2 (ldOfSite u)
  | none => s

/-- A scrub pass leaves a range that a haul writes (R341). -/
def State.scrubSkips (s : State) (a n : Nat) : State :=
  { s with hrecs := s.hrecs.map (fun x => (x.1, if x.2.pass then { x.2 with skip := x.2.skip ++ [(a, a + n)] } else x.2)) }

/-- A write of a channel that enters the fabric as `x` says (R328): checked against the windows of its context (R16), carried to its home (R17). -/
def State.haulWrite (s : State) (ch : Nat) (x : Nat × Nat) (a : Nat) (bs : List Byte) : State :=
  let c := s.chanCtx ch
  if bs = [] then s
  else if !s.permits c a bs.length true then s.permLog x.2 c a bs.length 0 true
  else ((s.writeFrom (some c) (s.downFrom x.2) a bs).crossFrom x.1 x.2 a bs.length).scrubSkips a bs.length

/-- A checked manifest is accepted or the request refused (R322, R323, R330 steps 2 to 5); its keys are held from here on. -/
def State.manJudge (s : State) (ch : Nat) (r : HaulReq) (m : List Byte) : State :=
  let e := r.entry
  let keys := standKeys s.mfg.bindKey m s.mfg.kid
  let st := manCheck m keys
  if st ≠ 0 then s.haulRefuse ch r st
  else if manBillets m < rqFirst e + rqCount e then s.haulRefuse ch r 11
  else if !s.rangesOk (s.chanCtx ch) e m then s.rangeRefuse ch r (requestRanges e m)
  else if permRefused ch e m then s.haulRefuse ch r 5
  else
    let s := s.setReq ch { r with man := m, phase := 1, mread := none, keys := keys }
    if rqOp e = 2 then s.verifyAll ch else s.haulGo ch

/-- True when a manifest goes on beyond the bytes that have come, and they were as many as were asked for (R330). -/
def manMore (old m : List Byte) : Bool :=
  decide (old.length + manAsk old ≤ m.length ∧ m.length < manLen m ∧ manLen m ≤ 2 ^ 28 ∧ fieldAt m 0 4 = 0x444E_5453 ∧ fieldAt m 4 1 = 1)

/-- What a read of a manifest writes to mbuf: no byte beyond mlen rounded up to 64 (R329). -/
def manWrites (old data : List Byte) : List Byte := data.take (ceilDiv (manLen (old ++ data)) 64 * 64 - old.length)

/-- HAUL_MANIFEST_FETCHED (R322, R330): a read of the manifest has come, or the manifest at mbuf is checked. `io` says that the read failed or had no
completion in 2 s, which is tried once more on another queue (R326). -/
def execHaulManifestFetched (ch : Fin 64) (io : Bool) (data : List (BitVec 8)) (_ _ : Mute) (s : State) : Result :=
  let ch := ch.val
  let c := s.chanCtx ch
  .next (match (s.haul ch).req with
    | none => s
    | some r =>
      let e := r.entry
      let src := rqSrc e
      if r.phase ≠ 0 then s
      else if rqHeld e then
        if !s.permits c (rqMbuf e) 256 false then s.rangeRefuse ch r [(rqMbuf e, 256, false)]
        else
          let n := min (leNat (s.s0Bytes (rqMbuf e + 72) 8)) (2 ^ 28)
          (s.s0Note (some c) (rqMbuf e) n).manJudge ch r (s.s0Bytes (rqMbuf e) n)
      else match r.mread with
        | none => s
        | some x =>
          if x.sent = false then s
          else if io then
            (if x.again then s.haulRefuse ch r 7 else (s.setReq ch { r with mread := some { x with again := true, sent := false } }).srcGo src)
          else
            let s := s.haulWrite ch (s.edgeLane src) (rqMbuf e + r.man.length) (manWrites r.man data)
            let m := r.man ++ data
            let r := { r with mread := none }
            if manMore r.man m then (s.setReq ch { r with man := m }).srcGo src else s.manJudge ch r m)

/-! ## Billets (R326, R332) -/

/-- A read of a part ends badly: once retried, its billet ends with HAUL_IO (R326). -/
def State.readFails (s : State) (ch i p : Nat) : State :=
  match (s.haul ch).req with
  | none => s
  | some r =>
    match r.reads.find? (fun x => decide (x.billet = i ∧ x.part = p)) with
    | none => s
    | some x =>
      if x.again then ((s.billetFails ch r i 7 1).haulGo ch).srcGo (rqSrc r.entry)
      else
        let r := { r with reads := r.reads.map (fun y => if y.billet = i ∧ y.part = p then { y with again := true, sent := false } else y) }
        (s.setReq ch r).srcGo (rqSrc r.entry)

/-- The stand key of a request. -/
def HaulReq.key (r : HaulReq) : List Byte := (r.keys.map Prod.fst).getD []

/-- An open billet of a request changed. -/
def State.modBillet (s : State) (ch i : Nat) (g : HBillet → HBillet) : State :=
  match (s.haul ch).req with
  | some r => s.setReq ch { r with opn := r.opn.map (fun x => if x.i = i then g x else x) }
  | none => s

/-- Landed bytes of a billet are written and counted; the windows may refuse them (R328, R332). -/
def State.landBytes (s : State) (ch : Nat) (r : HaulReq) (i a : Nat) (bs : List Byte) : State :=
  let ok := bs.isEmpty || s.permits (s.chanCtx ch) a bs.length true
  let s := s.haulWrite ch (s.haulLane ch (rqSrc r.entry)) a bs
  if ok then s.count (R.HAUL_BYTES.count ch) bs.length else s.modBillet ch i (fun x => { x with barred := true })

/-- A part of a form-0 billet lands as it is decrypted (R332). -/
def State.landPlain (s : State) (ch : Nat) (r : HaulReq) (i p : Nat) (data : List Byte) : State :=
  s.landBytes ch r i (landAddr r.entry (billetAt r.man i) + p * 2 ^ 20) (billetPlain r.man r.key i (p * 2 ^ 20) data)

/-- What a part that has come does (R328, R332): it goes to the haul die on a privileged channel; a form-0 billet lands its plaintext; of a form-1
billet any byte may be written before all parts have come (free values, log entry 132). A gated haul die lands nothing yet (R494). -/
def State.landPart (s : State) (ch : Nat) (r : HaulReq) (i p : Nat) (data : List Byte) : State :=
  let b := billetAt r.man i
  let s := s.feedDie ch (rqSrc r.entry)
  if s.haulGated ch then s.modBillet ch i (fun x => { x with late := x.late ++ [p] })
  else if bForm b = false then s.landPlain ch r i p data
  else if s.permits (s.chanCtx ch) (landAddr r.entry b) (bDlen b) true = false then s
  else ({ s with free := s.free + 1 } : State).haulWrite ch (s.haulLane ch (rqSrc r.entry)) (landAddr r.entry b)
    ((List.range (bDlen b)).map (Config.haulByte s.free))

/-- NVME_READ_COMPLETION (R326): the bytes of a part have come, or the read has failed; one that brings another number of bytes than were asked for has
failed. -/
def execNvmeReadCompletion (ch : Fin 64) (billet : BitVec 20) (part : BitVec 11) (ok : Option (List (BitVec 8))) (s : State) : Result :=
  let ch := ch.val
  let i := billet.toNat
  let p := part.toNat
  .next (match (s.haul ch).req with
      | none => s
      | some r =>
        match ok.filter (fun d => decide (d.length = partBytes (billetAt r.man i) p)) with
        | none => s.readFails ch i p
        | some d =>
          if r.reads.any (fun x => decide (x.billet = i ∧ x.part = p)) then
            let s := s.setReq ch { r with reads := r.reads.filter (fun x => !decide (x.billet = i ∧ x.part = p)) }
            let s := s.modBillet ch i (fun x => { x with got := x.got + 1, parts := x.parts ++ [(p, d)] })
            (s.landPart ch r i p d).srcGo (rqSrc r.entry)
          else s)

/-- NVME_READ_TIMEOUT: no completion after 2 s (R326). -/
def execNvmeReadTimeout (ch : Fin 64) (billet : BitVec 20) (part : BitVec 11) (s : State) : Result :=
  .next (s.readFails ch.val billet.toNat part.toNat)

/-- The stored bytes of a billet of which every part has come. -/
def HBillet.stored (x : HBillet) (n : Nat) : List Byte :=
  (List.range n).flatMap (fun p => ((x.parts.find? (fun y => decide (y.1 = p))).map Prod.snd).getD [])

/-- The source data of a form-1 billet from its plaintext, none for an invalid Zstandard frame or a size that rows, cols and sfmt do not imply (R332,
R334). -/
def sourceOf (b plain : List Byte) : Option (List Byte) :=
  (if bit (bPerm b) 0 then Zstd.decode plain else some plain).filter (srcSizeOk b)

/-- The checks of a billet whose parts have come (R332): 0, 3 HAUL_TAG, 4 HAUL_DIGEST or 9 HAUL_XFORM. -/
def billetStatus (m key : List Byte) (i : Nat) (stored plain : List Byte) : Nat :=
  let b := billetAt m i
  if billetTagOk m key i stored = false then 3 else if sha384 plain ≠ bDigest b then 4
  else if bForm b = true ∧ sourceOf b plain = none then 9 else 0

/-- A billet judged with status `st` (R328, R332, R339): it passes, is fetched again, or is bad. A destination write that the windows refuse makes it
bad with HAUL_RANGE (DESIGN CHOICE, log entry 129). -/
def State.billetJudged (s : State) (ch i st : Nat) : State :=
  match (s.haul ch).req with
  | none => s
  | some r =>
    match r.opn.find? (fun x => decide (x.i = i)) with
    | none => s
    | some x =>
      if x.barred then (s.billetFails ch r i 6 1).haulGo ch
      else if st = 0 then
        ((s.setReq ch { r with opn := r.opn.filter (fun y => decide (y.i ≠ i)) }).liftBillet (landAddr r.entry (billetAt r.man i)) i).haulGo ch
      else if x.tries < s.get R.HAUL_CTL.retries then
        (s.setReq ch { r with opn := r.opn.map (fun y => if y.i = i then { HBillet.fresh i with tries := x.tries + 1 } else y) }).haulGo ch
      else (s.billetFails ch r i st 1).haulGo ch

/-- HAUL_BILLET_CHECK (R324, R332, R334): what is still to land is written, then the tag, the digest and the source data are judged; the landed digest
of a form-1 billet that passes is written behind the manifest (R329). -/
def execHaulBilletCheck (ch : Fin 64) (billet : BitVec 20) (_ _ _ : Mute) (s : State) : Result :=
  let ch := ch.val
  let i := billet.toNat
  .next (match (s.haul ch).req with
    | none => s
    | some r =>
      let b := billetAt r.man i
      let n := billetParts b
      match r.opn.find? (fun x => decide (x.i = i ∧ x.got = n)) with
      | none => s
      | some x =>
        if s.haulGated ch then s
        else
          let stored := x.stored n
          let plain := billetPlain r.man r.key i 0 stored
          let st := billetStatus r.man r.key i stored plain
          if bForm b then
            let out := ((sourceOf b plain).map (landed b)).getD ([], 0)
            let s := (s.landBytes ch r i (landAddr r.entry b) out.1).count (R.HAUL_SAT.count ch) out.2
            let dg := if st = 0 then sha384 out.1 else []
            let ok := dg.isEmpty || s.permits (s.chanCtx ch) (digestAt r.entry r.man i) dg.length true
            let s := s.haulWrite ch (s.haulLane ch (rqSrc r.entry)) (digestAt r.entry r.man i) dg
            (if ok then s else s.modBillet ch i (fun x => { x with barred := true })).billetJudged ch i st
          else
            let s := x.late.foldl (fun s p => s.landPlain ch r i p ((stored.drop (p * 2 ^ 20)).take (partBytes b p))) s
            s.billetJudged ch i st)

/-! ## Completion (R333, R337) -/

/-- Ticks of a record's scrub interval (R338), 0 for none. -/
def State.scrubTicks (s : State) (m : List Byte) : Nat :=
  (if manScrub m ≠ 0 then manScrub m else s.get R.HAUL_SCRUB_DEF.seconds) * 175_000_000

/-- The billets of a request's range. -/
def rqBillets (e : List Byte) : List Nat := (List.range (rqCount e)).map (fun i => rqFirst e + i)

/-- The billets of a record, each with the entry that landed it, the latest one for each address it landed at (R338). -/
def HRec.landings (x : HRec) (m : List Byte) : List (List Byte × Nat) :=
  (x.entries.flatMap (fun e => (rqBillets e).map (fun i => (e, i)))).foldl (fun l p =>
    if l.any (fun q => decide (q.2 = p.2 ∧ landAddr q.1 (billetAt m p.2) = landAddr p.1 (billetAt m p.2))) then l else l ++ [p]) []

/-- Where billets of a manifest land. -/
def landedRanges (e m : List Byte) (is : List Nat) : List (Nat × Nat) :=
  is.map (fun i => let b := billetAt m i
                   (landAddr e b, landAddr e b + bDlen b))

/-- The manifest of a record, as mbuf holds it (R337). -/
def State.recMan (s : State) (i : Nat) : List Byte :=
  let mb := s.get (R.HAUL_STREC.mbuf i)
  s.s0Bytes mb (min (leNat (s.s0Bytes (mb + 72) 8)) (2 ^ 28))

/-- A record deleted: its quarantine entries have none from here on (R341, R342). -/
def State.dropRec (s : State) (i : Nat) : State :=
  let s := (List.range 32).foldl (fun s j =>
    if s.flag (R.HAUL_QUAR.active j) ∧ s.get (R.HAUL_QUAR.rec j) = i then s.put (R.HAUL_QUAR.rec j) 511 else s) s
  { s.regReset (0x0392_0000 + 0x40 * i) (0x0392_0000 + 0x40 * i + 0x40) with hrecs := KMap.drop s.hrecs i }

/-- The records that a request's record replaces: those with a landed range that its own overlap (R341). -/
def State.recsMet (s : State) (r : HaulReq) (keep : Option Nat) : List Nat :=
  let mine := landedRanges r.entry r.man (rqBillets r.entry)
  (s.hrecs.map Prod.fst).filter (fun i => s.flag (R.HAUL_STREC.valid i) && decide (some i ≠ keep) && rangesMeet mine (s.hrec i).spans)

/-- A stand record for a request that succeeded: the record it has already, whose interval goes on from its last pass (R338), or a free one
(R337). It replaces the records whose ranges it overlaps (R341; DEDUCED, log entry 133). -/
def State.makeRec (s : State) (ch : Nat) (r : HaulReq) : State × Nat :=
  let c := s.chanCtx ch
  let own := s.findRec c (manStand r.man) r.entry
  let s := (s.recsMet r own).foldl State.dropRec s
  let free := (List.range 256).find? (fun i => !s.flag (R.HAUL_STREC.valid i))
  match own.orElse (fun _ => free) with
  | none => (s, 0xFFFF)
  | some i =>
    let x := if own.isSome then s.hrec i else HRec.empty
    let ticks := s.scrubTicks r.man
    let due := if own.isNone then s.tick 0 + ticks
      else if s.get (R.HAUL_STREC.last i) = 0 then s.get (R.HAUL_STREC.due i) else s.get (R.HAUL_STREC.last i) + ticks
    let s := s.puts [(R.HAUL_STREC.stand_id i, manStand r.man), (R.HAUL_STREC.valid i, 1), (R.HAUL_STREC.scrub i, b2n (decide (ticks ≠ 0))),
                     (R.HAUL_STREC.ctx i, c), (R.HAUL_STREC.chan i, ch), (R.HAUL_STREC.mbuf i, rqMbuf r.entry), (R.HAUL_STREC.due i, due)]
    let same := fun e => decide (rqFirst e = rqFirst r.entry ∧ rqCount e = rqCount r.entry ∧ rqFlag e 0 = rqFlag r.entry 0)
    (s.setHrec i { x with entries := r.entry :: x.entries.filter (fun e => !same e)
                          spans := (landedRanges r.entry r.man (rqBillets r.entry) ++ x.spans).dedup }, i)

/-- The end of a request: its record, its entry and pointer, its vector, and what the foreman waits for (R333, R340, R188). -/
def State.haulEnd (s : State) (ch : Nat) (r : HaulReq) : State :=
  let e := r.entry
  let c := s.chanCtx ch
  let p := if rqOp e = 1 ∧ r.status = 0 ∧ rqFlag e 1 then s.makeRec ch r else (s, 0xFFFF)
  let s := p.1
  let s := (s.setHaul ch { s.haul ch with req := none }).puts
    [(R.HAUL_CSTAT.state ch, if s.flag (R.HAUL_CHAN.en ch) then 1 else 0), (R.HAUL_CSTAT.last ch, r.status),
     (R.HAUL_CSTAT.done ch, s.get (R.HAUL_CSTAT.done ch) + 1)]
  match r.origin with
  | .ring =>
    let head := s.get (R.HAUL_PTR.head ch)
    let a := s.get (R.HAUL_RING.base ch) + 64 * head
    let s := s.s0Write (some c) (a + 56) (leBytes 2 p.2 ++ leBytes 2 r.bad ++ leBytes 2 r.status ++ leBytes 1 0)
    let s := s.s0Write (some c) (a + 63) [1]
    let s := s.put (R.HAUL_PTR.head ch) (if s.get (R.HAUL_RLEN.len ch) ≤ head + 1 then 0 else head + 1)
    if rqFlag e 2 then s.vector c (s.get (R.HAUL_CHAN.vec ch) % 32) else s
  | .rehaul j =>
    if r.status ≠ 0 ∧ s.flag (R.HAUL_QUAR.active j) ∧ 3 ≤ s.get (R.HAUL_QUAR.tries j) then
      s.raise E.HAUL_REHAUL (some c) (atSteward 0) (s.get (R.HAUL_QUAR.base j))
    else s
  | .refill l i =>
    let k := 4 * l + i
    if KMap.find (fun _ => 0) s.refill k = 2 then
      { s with refill := KMap.put (fun _ => 0) s.refill k (if r.status = 0 then 3 else 1) }
    else s

/-- HAUL_REQUEST_COMPLETE (R333). -/
def execHaulRequestComplete (ch : Fin 64) (s : State) : Result :=
  .next (match (s.haul ch.val).req with
    | none => s
    | some r => if r.phase = 2 then s.haulEnd ch.val r else s)

/-- The request in progress ends with HAUL_ABORT and its entry is completed (R341, R342). -/
def State.haulAbort (s : State) (ch : Nat) : State :=
  match (s.haul ch).req with
  | none => s
  | some r => (s.raise E.HAUL_ABORT (some (s.chanCtx ch)) (s.srcPlace (rqSrc r.entry)) ch).haulEnd ch { r with status := 8 }

/-! ## Sources (R326, R343) -/

/-- What a source sends to connect (R325, R326): Fabrics Connect with what its descriptor names, Property Set and Get, Identify of controller and
namespace (in NVMe's order, PRESUMED, log entry 131). -/
def State.connectOut (s : State) (i : Nat) : List Out :=
  [.fabric i (s.get (R.HAUL_SRC.transport i)) (s.get (R.HAUL_SRC.cage i)) ((KMap.find (fun _ => []) s.srcConn i).take 549), .nvme i 3 0 0, .nvme i 4 0 0,
   .nvme i 5 0 0, .nvme i 6 (s.get (R.HAUL_NSID.nsid i)) 0]

/-- A source starts to connect; its queue pairs start at the line rate (R326; R414 gives no rate to start at: DESIGN CHOICE, log entry 163). -/
def State.connect (s : State) (i : Nat) : State :=
  (s.connectOut i).foldl (fun s o => s.emitSrc i o)
    { s.put (R.HAUL_SSTAT.state i) 1 with ethRate := KMap.dropRange s.ethRate (17 * i) (17 * i + 17) }

/-- The connection descriptor of a source can be read, and its queues are in range (R326). -/
def State.connOk (s : State) (i : Nat) : Bool :=
  let a := s.get (R.HAUL_CONN.addr i)
  let qd := s.le (a + 546) 2
  let nq := s.le (a + 548) 1
  s.s0Ok a 1024 && decide (1 ≤ qd ∧ qd ≤ 1024 ∧ 1 ≤ nq ∧ nq ≤ 16)

/-- True when the device uses a source that answers so (R325): the namespace has blocks of 512 bytes (`lba` 9, a power of two) or 4 KiB (12), and nothing
that is refused. -/
def sourceOk (a : SrcAnswer) (lba : BitVec 8) : Bool :=
  a.reached && !a.discovery && !a.auth && !a.tls && decide (a.metadata = 0 ∧ a.protect = 0 ∧ (lba = 9 ∨ lba = 12))

/-- HAUL_SOURCE_CONNECT: the connection comes up with the namespace's block size and size, and what waits on it goes on, or its controller or namespace is
refused (R325, R326). -/
def execHaulSourceConnect (src : Fin 64) (ok : SrcAnswer) (lba : BitVec 8) (size : BitVec 48) (s : State) : Result :=
  let i := src.val
  .next (if s.get (R.HAUL_SSTAT.state i) = 1 then
      (if sourceOk ok lba then
        (s.puts [(R.HAUL_SSTAT.state i, 2), (R.HAUL_SSTAT.lba i, b2n (decide (lba = 12))), (R.HAUL_SSTAT.size i, size.toNat)]).srcGo i
       else s.put (R.HAUL_SSTAT.state i) 3)
    else s)

/-- Sources that are up send Keep Alive at an interval that the spec leaves open (R325). -/
def State.keepAlive (s : State) : State :=
  if s.now % Config.keepAlive.toNat ≠ 0 then s
  else ((List.range 64).filter (fun i => decide (s.get (R.HAUL_SSTAT.state i) = 2))).foldl (fun s i => s.emitSrc i (.nvme i 7 0 0)) s

/-- HAUL_CONNECTION_LOSS: the source connects again by itself (R326). -/
def execHaulConnectionLoss (src : Fin 64) (s : State) : Result :=
  let i := src.val
  .next (if s.get (R.HAUL_SSTAT.state i) = 2 then s.connect i else s)

/-- The billets of a request that wait on its source: open ones of which parts are missing, and those not begun (R326, R330). -/
def waitingBillets (r : HaulReq) : List Nat :=
  (r.opn.filter (fun x => decide (x.got < billetParts (billetAt r.man x.i)))).map HBillet.i
    ++ (List.range (rqFirst r.entry + rqCount r.entry - r.next)).map (fun i => r.next + i)

/-- HAUL_SOURCE_TIMEOUT: after 10 s unconnected, everything that waits on the source ends with HAUL_IO (R326). -/
def execHaulSourceTimeout (src : Fin 64) (s : State) : Result :=
  let i := src.val
  .next (if s.get (R.HAUL_SSTAT.state i) = 2 then s
    else (s.hauls.map Prod.fst).foldl (fun s ch => match (s.haul ch).req with
      | none => s
      | some r =>
        if rqSrc r.entry ≠ i then s
        else if r.phase = 0 then (if rqHeld r.entry then s else s.haulRefuse ch r 7)
        else if r.phase = 1 then
          let s := s.setReq ch { r with next := max r.next (rqFirst r.entry + rqCount r.entry) }
          let s := (waitingBillets r).foldl (fun s b => match (s.haul ch).req with
            | some r => s.billetFails ch r b 7 1
            | none => s) s
          s.haulGo ch
        else s) s)

/-- The staged fields of a channel (R343). -/
def chanGroup (ch : Nat) : List Fld :=
  [R.HAUL_CHAN.en ch, R.HAUL_CHAN.ctx ch, R.HAUL_CHAN.vec ch, R.HAUL_RING.base ch, R.HAUL_RLEN.len ch]

/-- HAUL_CCOMMIT (R341, R343, R447). -/
def execHaulCcommit (ch : Fin 64) (s : State) : Result :=
  let ch := ch.val
  let c := s.sget (R.HAUL_CHAN.ctx ch)
  let en := decide (s.sget (R.HAUL_CHAN.en ch) = 1)
  let base := s.sget (R.HAUL_RING.base ch)
  let n := 64 * s.sget (R.HAUL_RLEN.len ch)
  let busy := (s.haul ch).req.isSome
  let res := fun (s : State) r => s.puts [(R.HAUL_CCSTAT.chan, ch), (R.HAUL_CCSTAT.result, r)]
  .next (s.gated 0x0390_1000 (
    if s.flag R.HAUL_CCSTAT.busy then s.cfgRange none 0x0390_1000
    else if en && decide (ch < 4) && (s.haulDie ch).isNone then res (s.raise E.CFG_ABSENT (some c) (atSteward 0) ch) 3
    else if s.leaving c || decide (base % 64 ≠ 0) || !(s.permits c base n true && s.permits c base n false)
        || decide (s.sget (R.HAUL_CHAN.vec ch) / 32 ≠ c) || (en && busy) then
      res ((s.permNote s.entryLd c [(base, n, true), (base, n, false)]).raise E.CFG_COMMIT (some c) (atSteward 0) ch) 2
    else if en then ((res (s.commit (chanGroup ch)) 1).put (R.HAUL_CSTAT.state ch) 1).holdDomains
    else
      let s := (s.commit [R.HAUL_CHAN.en ch]).haulAbort ch
      ((res (s.commit (chanGroup ch)) 1).put (R.HAUL_CSTAT.state ch) 0).holdDomains))

/-- True when a cage is fitted (R2, R35). -/
def State.cageFitted (s : State) (n : Nat) : Bool :=
  let half := s.mfg.nedges / 2
  decide (n < 12) && decide (n / 2 % 3 < half)

/-- True when a cage is in an Ethernet mode (R398). -/
def State.cageEther (s : State) (n : Nat) : Bool := decide (s.get (R.CAGE_CTL.mode n) = 3 ∨ s.get (R.CAGE_CTL.mode n) = 4)

/-- The staged fields of a source (R343). -/
def srcGroup (i : Nat) : List Fld :=
  [R.HAUL_SRC.en i, R.HAUL_SRC.transport i, R.HAUL_SRC.cage i, R.HAUL_SRC.ctx i, R.HAUL_CONN.addr i, R.HAUL_NSID.nsid i]

/-- HAUL_SCOMMIT (R326, R343): a source committed with en = 1 reads its connection descriptor and connects, or is failed where that cannot be used
(DESIGN CHOICE, log entry 131); with en = 0 its connection closes. -/
def execHaulScommit (src : Fin 64) (s : State) : Result :=
  let i := src.val
  let c := s.sget (R.HAUL_SRC.ctx i)
  let en := decide (s.sget (R.HAUL_SRC.en i) = 1)
  let cage := s.sget (R.HAUL_SRC.cage i)
  let t := s.sget (R.HAUL_SRC.transport i)
  let was := s.get (R.HAUL_SSTAT.state i)
  let res := fun (s : State) r => s.puts [(R.HAUL_SCSTAT.src, i), (R.HAUL_SCSTAT.result, r)]
  .next (s.gated 0x0391_1000 (
    if s.flag R.HAUL_SCSTAT.busy then s.cfgRange none 0x0391_1000
    else if !s.cageFitted cage then res (s.raise E.CFG_ABSENT (some c) (atSteward 0) i) 3
    else if s.leaving c || !s.permits c (s.sget (R.HAUL_CONN.addr i)) 1024 false || !s.cageEther cage || (en && decide (t = 0 ∨ t = 3)) then
      res ((s.permNote s.entryLd c [(s.sget (R.HAUL_CONN.addr i), 1024, false)]).raise E.CFG_COMMIT (some c) (atSteward 0) i) 2
    else
      let s := (res (s.commit (srcGroup i)) 1).puts [(R.HAUL_SSTAT.state i, 0), (R.HAUL_SSTAT.lba i, 0), (R.HAUL_SSTAT.size i, 0)]
      let s := { s with srcConn := KMap.drop s.srcConn i }
      if en then
        let a := s.get (R.HAUL_CONN.addr i)
        if s.connOk i then
          ({ s with srcConn := KMap.put (fun _ => []) s.srcConn i (s.bytes a 1024) }.s0Note (some c) a 1024).connect i
        else (s.s0Note (some c) a 1024).put (R.HAUL_SSTAT.state i) 3
      else
        if was = 0 then s else s.emitSrc i (.nvme i 2 0 0)))

/-! ## Scrubs and re-hauls (R338, R340) -/

/-- The ranges of billets being hauled now: a scrub leaves them to the haul's own checks (R341). -/
def State.haulRanges (s : State) : List (Nat × Nat) :=
  s.hauls.flatMap (fun x => match x.2.req with
    | some r => landedRanges r.entry r.man (r.opn.map HBillet.i)
    | none => [])

/-- HAUL_SCRUB_DUE: a record's interval has passed and its pass starts (R338, R344), not in the rungs in which memory is asleep (R392). -/
def execHaulScrubDue (r : Fin 256) (s : State) : Result :=
  let i := r.val
  let m := s.s0Bytes (s.get (R.HAUL_STREC.mbuf i)) 256
  .next (if s.flag (R.HAUL_STREC.valid i) ∧ s.scrubTicks m ≠ 0 ∧ s.flag R.HAUL_CTL.scrub_off = false ∧ s.patrolPaused = false then
      s.setHrec i { s.hrec i with pass := true, skip := s.haulRanges } else s)

/-- True when a billet of a request waits on edge die `k` (R336): scrub reads take no turn there. -/
def State.edgeBusy (s : State) (k : Nat) : Bool :=
  s.hauls.any (fun x => match x.2.req with
    | some r => decide (r.phase = 1 ∧ rqOp r.entry = 1 ∧ s.srcEdge (rqSrc r.entry) = k) && !(waitingBillets r).isEmpty
    | none => false)

/-- HAUL_SCRUB_PASS_END: every landed billet of the record has been read and checked (R338, R339), which no billet of a request on that edge
die (R336) and no rung (R392) has kept from its turns. -/
def execHaulScrubPassEnd (r : Fin 256) (s : State) : Result :=
  let i := r.val
  let x := s.hrec i
  let m := s.recMan i
  let c := s.get (R.HAUL_STREC.ctx i)
  .next (if !x.pass || s.patrolPaused || s.edgeBusy (s.srcEdge (rqSrc x.entry)) then s
    else
      let s := s.s0Note (some c) (s.get (R.HAUL_STREC.mbuf i)) m.length
      let hauled := x.skip ++ s.haulRanges
      let s := (x.landings m).foldl (fun s p =>
        let e := p.1
        let j := p.2
        if rangesMeet (landedRanges e m [j]) hauled then s
        else
          let ok := s.landedOk e m j
          let s := s.s0Notes (some c) (checkReads e m j)
          if ok then s
          else (s.raise E.HAUL_SCRUB (some c) (s.srcPlace (rqSrc x.entry)) (landAddr e (billetAt m j))).quarantine c e (billetAt m j) j 2
            (some i)) s
      let now := s.tick 0
      (s.setHrec i { s.hrec i with pass := false, skip := [] }).puts
        [(R.HAUL_STREC.last i, now), (R.HAUL_STREC.due i, now + s.scrubTicks m)])

/-- The entry of a re-haul: the record's, for one billet, with the manifest at mbuf (R340). -/
def rehaulEntry (e : List Byte) (i : Nat) : List Byte :=
  patchAt (patchAt e 0 (leBytes 1 1 ++ leBytes 1 (setBits (setBits (fieldAt e 1 1) 4 1 1) 1 2 0))) 4 (leBytes 4 i ++ leBytes 4 1)

/-- FOREMAN_REHAUL (R340): of a quarantined billet that has a stand record. -/
def execForemanRehaul (j : Fin 32) (s : State) : Result :=
  let j := j.val
  let r := s.get (R.HAUL_QUAR.rec j)
  let ch := s.get (R.HAUL_STREC.chan r)
  let queued := (s.haul ch).fq.any (fun x => decide (x.1 = .rehaul j)) || (match (s.haul ch).req with
    | some q => decide (q.origin = .rehaul j)
    | none => false)
  .next (if s.flag (R.HAUL_QUAR.active j) = true ∧ r < 256 ∧ s.flag R.HAUL_CTL.rehaul_pin = false ∧ s.get (R.HAUL_QUAR.tries j) < 3
        ∧ queued = false then
      let x := s.hrec r
      let m := s.recMan r
      let i := s.get (R.HAUL_QUAR.billet j)
      let from_ := (x.landings m).find? (fun p => decide (p.2 = i ∧ landAddr p.1 (billetAt m i) = s.get (R.HAUL_QUAR.base j)))
      let e := rehaulEntry ((from_.map Prod.fst).getD x.entry) i
      (s.setHaul ch { s.haul ch with fq := (s.haul ch).fq ++ [(.rehaul j, e)] }).put (R.HAUL_QUAR.tries j) (s.get (R.HAUL_QUAR.tries j) + 1)
    else s)

/-! ## Refills of version slots (R188, R333) -/

/-- FOREMAN_REFILL_LOAD: on a refill notice the foreman queues the haul request `entry` that loads the slot. -/
def execForemanRefillLoad (l : Fin 96) (sl : Fin 4) (ch : Fin 64) (entry : BitVec 512) (s : State) : Result :=
  let k := 4 * l.val + sl.val
  .next (if KMap.find (fun _ => 0) s.refill k = 1 then
      let s := { s with refill := KMap.put (fun _ => 0) s.refill k 2 }
      s.setHaul ch.val { s.haul ch.val with fq := (s.haul ch.val).fq ++ [(.refill l.val sl.val, leBytes 64 entry.toNat)] }
    else s)

/-- FOREMAN_REFILL_LIVE: after the haul has completed with status 0, the slot is made LIVE with VER_CMD (R188), which the foreman does not issue
while VER_CTL.pin is 1 (R193). -/
def execForemanRefillLive (l : Fin 96) (sl : Fin 4) (s : State) : Result :=
  .next (if KMap.find (fun _ => 0) s.refill (4 * l.val + sl.val) = 3 ∧ s.flag R.VER_CTL.pin = false then s.cmdLive l.val sl.val else s)

/-! ## Teardown and half reset (R342) -/

/-- True when a range touches a half (R342, R382). -/
def State.touchesHalf (s : State) (a n h : Nat) : Bool := (s.homesOf a n).any (fun x => decide (x / 2 = h))

/-- The ranges that a request's billets land in, known once its manifest has been checked (R331, R342). -/
def HaulReq.lands (r : HaulReq) : List (Nat × Nat) :=
  if r.phase = 0 then [] else (rqBillets r.entry).map (fun i => (landAddr r.entry (billetAt r.man i), bDlen (billetAt r.man i)))

/-- Bytes of the manifest buffer (R329): the manifest's rounded up to 64, and 48 for each billet; before the header has come, its first 64. -/
def mbufBytes (m : List Byte) : Nat := if m = [] then 64 else ceilDiv (manLen m) 64 * 64 + 48 * manBillets m

/-- The haul engine at a context's teardown (R342); a haul die that serves no channel any more is held off again where PWR_PDOFF says so (R492). The entries not yet taken are passed over: head moves to tail (DESIGN CHOICE, log entry 133). -/
def State.haulTeardown (s : State) (c : Nat) : State :=
  let s := (List.range 64).foldl (fun s ch => if s.flag (R.HAUL_CHAN.en ch) ∧ s.chanCtx ch = c then
      (s.setHaul ch ⟨none, []⟩).puts [(R.HAUL_CHAN.en ch, 0), (R.HAUL_CSTAT.state ch, 0), (R.HAUL_PTR.head ch, s.get (R.HAUL_PTR.tail ch))]
      else s) s
  let s := (List.range 64).foldl (fun s i => if s.flag (R.HAUL_SRC.en i) ∧ s.get (R.HAUL_SRC.ctx i) = c then
      ({ s with srcConn := KMap.drop s.srcConn i }.puts [(R.HAUL_SRC.en i, 0), (R.HAUL_SSTAT.state i, 0)]).emitSrc i (.nvme i 2 0 0) else s) s
  let rs := (s.hrecs.map Prod.fst).filter (fun r => decide (s.get (R.HAUL_STREC.ctx r) = c))
  let js := (s.quarLen.filter (fun e => decide (e.2.2 = c))).map Prod.fst
  let s := js.foldl State.liftQuar s
  (rs.foldl State.dropRec s).holdDomains

/-- The haul engine at a half reset (R342). -/
def State.haulHalfReset (s : State) (h : Nat) : State :=
  (s.hauls.map Prod.fst).foldl (fun s ch => match (s.haul ch).req with
    | none => s
    | some r =>
      let e := r.entry
      let m := r.man
      let die := match s.xformDie ch with
        | some u => decide (u = h)
        | none => false
      if decide (s.srcEdge (rqSrc e) / 3 = h) || die || ((rqMbuf e, mbufBytes m) :: r.lands).any (fun x => s.touchesHalf x.1 x.2 h) then
        s.haulAbort ch
      else s) s

/-- Records whose ranges touch a half that returns are due at once (R342). -/
def State.haulHalfReturn (s : State) (h : Nat) : State :=
  (s.hrecs.map Prod.fst).foldl (fun s r =>
    if (s.hrec r).spans.any (fun x => s.touchesHalf x.1 (x.2 - x.1) h) then s.put (R.HAUL_STREC.due r) (s.tick 0) else s) s

end Sys2Proof.Machine
end

