-- ==== Sys2Proof/Machine/Ckpt.lean ====
section
/-! DEFINITION. Machine/Ckpt.lean: checkpoints: the area's commit (R352), writing (R353 to R361) and restore (R363 to R366); buddy copies
(R367, R368) and moved layer state (R271). -/

namespace Sys2Proof.Machine

/-! ## The end of an attempt or restore -/

/-- The error code of a CKPT_RES code (R376). -/
def ckptCode (n : Nat) : Nat :=
  [0, E.CKPT_MIXED, E.CKPT_NONE, E.CKPT_SHARD, E.CKPT_DIGEST, E.CKPT_TAG, E.CKPT_TALLY, E.CKPT_SIG, E.CKPT_KEY, E.CKPT_IO,
   E.CKPT_ABORT, E.CKPT_SPACE, E.CKPT_BUSY].getD n 0

/-- True when the area lies in the far tier (R352). -/
def State.ckFar (s : State) (c : Nat) : Bool := s.flag (R.CKPT_AREA.target c)

/-- Where a code is raised (R376): a tag's by the edge die of the source, a failed access by it or by the far-memory die, a refused shard and a part
too long by the landing die through which S0 works (log entry 157), the others by S0. -/
def State.ckptAt (s : State) (c code : Nat) : Where :=
  if code = 3 ∨ code = 4 ∨ code = 11 then atLd 0
  else if code = 5 ∨ code = 9 then
    (if s.ckFar c then (match regionOf (s.get (R.CKPT_BASE.base c)) with
      | .far f => atFar f
      | _ => atSteward 0)
     else s.srcPlace (s.get (R.CKPT_AREA.src c)))
  else atSteward 0

/-- A code of R376 raised. -/
def State.ckRaise (s : State) (c code detail : Nat) : State := s.raise (ckptCode code) (some c) (s.ckptAt c code) detail

/-- IDLE with a result; what a buddy copy needs stays (R360, R376). The key is erased (R481). -/
def State.ckFinish (s : State) (c code step : Nat) : State :=
  let s := s.puts [(R.CKPT_STAT.state c, ckIDLE), (R.CKPT_STAT.step c, 0), (R.CKPT_RES.code c, code), (R.CKPT_RES.step c, step)]
  let s := s.modCkpt c (fun x => { Ckpt.empty with recd := x.recd, bread := x.bread, btodo := x.btodo, boff := x.boff, bstep := x.bstep
                                                   bwait := x.bwait, bin := x.bin, bover := x.bover })
  if code = 0 then s else s.ckRaise c code step

/-- The outcome sent to the modules on one side (R360). -/
def State.ckTell (s : State) (c code step seq : Nat) (down : Bool) : State :=
  let m := s.moduleOf c
  if down then (if 0 < m then s.redSend c (m - 1) 6 [1, code, step, seq, 1] else s)
  else if m < s.lastModule c then s.redSend c (m + 1) 6 [1, code, step, seq, 0] else s

/-- The attempt ends here with a code and every module is told (R360, R372). -/
def State.ckEnd (s : State) (c code : Nat) : State :=
  let step := s.get (R.CKPT_STAT.step c)
  let seq := s.get (R.CKPT_CUR.seq c)
  ((s.ckFinish c code step).ckTell c code step seq true).ckTell c code step seq false

/-- Sequence number of the attempt in progress (R353). -/
def State.ckSeq (s : State) (c : Nat) : Nat := s.get (R.CKPT_CUR.seq c) + 1

/-- Banks of the area; 0 means 16 (R373). -/
def nbanksOf (n : Nat) : Nat := if n = 0 then 16 else n

/-- Start of the attempt's bank (R353). -/
def State.ckBank (s : State) (c : Nat) : Nat :=
  s.get (R.CKPT_BASE.base c) + s.ckSeq c % nbanksOf (s.get (R.CKPT_AREA.nbanks c)) * s.get (R.CKPT_BSIZE.bsize c)

/-- Start of this module's region in the attempt's bank (R352). -/
def State.ckRegion (s : State) (c : Nat) : Nat :=
  s.ckBank c + s.get (R.CKPT_TSIZE.tsize c) + s.moduleOf c * s.get (R.CKPT_MSIZE.msize c)

/-- tally_id (R354). -/
def State.tallyId (s : State) (c : Nat) : Nat := s.ckSeq c * 2 ^ 16 + s.get (R.CKPT_CUR.attempt c)

/-- Job id of the context's cut tables. -/
def State.jobId (s : State) (c : Nat) : Nat :=
  match s.cutTable c 0 with
  | some t => t.job
  | none => 0

/-- True when shards are encrypted; never in the far tier (R358). -/
def State.ckEnc (s : State) (c : Nat) : Bool := s.flag (R.CKPT_AREA.enc c) && !s.ckFar c

/-- One write command sent, or the far-tier write made (R360). A far-tier range that the windows no longer give the context takes nothing and is logged
(R391, R480). -/
def State.ckSend (s : State) (c off : Nat) (data : List Byte) : State :=
  if s.ckFar c then
    (if s.permits c off data.length true then s.s0Write (some c) off data else s.permNote s.entryLd c [(off, data.length, true)])
  else s.emitSrc (s.get (R.CKPT_AREA.src c)) (.store (s.get (R.CKPT_AREA.src c)) off (s.ckEnc c) data)

/-- True when a far-tier write has been made: only then is it acknowledged (R360). -/
def State.ckMade (s : State) (c : Nat) (w : CkWrite) : Bool :=
  !s.ckFar c || (s.permits c w.off w.data.length true && (s.s0Refused w.off w.data.length).isEmpty)

/-- Data in pieces of at most 1 MiB. -/
def mibPieces : Nat → Nat → List Byte → List (Nat × List Byte)
  | 0, _, _ => []
  | n + 1, off, d => if d = [] then [] else (off, d.take (2 ^ 20)) :: mibPieces n (off + 2 ^ 20) (d.drop (2 ^ 20))

/-- A part written at an address of the area, in commands of at most 1 MiB (R360). -/
def State.ckWrite (s : State) (c off : Nat) (data : List Byte) : State :=
  (mibPieces (data.length / 2 ^ 20 + 1) off data).foldl (fun s p =>
    (s.ckSend c p.1 p.2).modCkpt c (fun x => { x with writes := x.writes ++ [⟨p.1, p.2, false⟩] })) s

/-! ## The area's commit (R352) -/

/-- The staged fields of the area (R373). -/
def ckptGroup (c : Nat) : List Fld :=
  [R.CKPT_AREA.en c, R.CKPT_AREA.target c, R.CKPT_AREA.enc c, R.CKPT_AREA.sign c, R.CKPT_AREA.sig_req c, R.CKPT_AREA.nmom c,
   R.CKPT_AREA.nbanks c, R.CKPT_AREA.src c, R.CKPT_BASE.base c, R.CKPT_BSIZE.bsize c, R.CKPT_MSIZE.msize c, R.CKPT_TSIZE.tsize c,
   R.CKPT_RING.ring c, R.CKPT_NW.addr c, R.CKPT_XREG.n c, R.CKPT_XREG.addr c, R.CKPT_KEYS.n c, R.CKPT_KEYS.addr c,
   R.CKPT_SIGNERS.n c, R.CKPT_SIGNERS.addr c, R.CKPT_RDY.addr c]

/-- The ranges of a staged area group that the windows are to give the context (R352, R480): the lists, to read, and a far-tier area and ring. -/
def State.ckAreaRanges (s : State) (c : Nat) : List (Nat × Nat × Bool) :=
  let g := fun f => s.sget f
  let cnt := fun (f : CutTable → Nat) => match s.cutTable c 0 with
    | some t => f t
    | none => 1
  let nb := nbanksOf (g (R.CKPT_AREA.nbanks c))
  let far := if g (R.CKPT_AREA.target c) = 0 then []
    else [(g (R.CKPT_BASE.base c), nb * g (R.CKPT_BSIZE.bsize c)), (g (R.CKPT_RING.ring c), nb * 512)]
  far.flatMap (fun r => [(r.1, r.2, true), (r.1, r.2, false)]) ++
    ([(g (R.CKPT_NW.addr c), 8 * cnt CutTable.nlayers), (g (R.CKPT_RDY.addr c), 8 * cnt CutTable.nstages),
      (g (R.CKPT_XREG.addr c), 32 * g (R.CKPT_XREG.n c)), (g (R.CKPT_KEYS.addr c), 128 * g (R.CKPT_KEYS.n c)),
      (g (R.CKPT_SIGNERS.addr c), 16 * g (R.CKPT_SIGNERS.n c))].filter (fun r => decide (r.2 ≠ 0))).map (fun r => (r.1, r.2, false))

/-- The CFG_COMMIT causes of R352 for the staged group. -/
def State.ckAreaBad (s : State) (c : Nat) : Bool :=
  let g := fun f => s.sget f
  let t := s.cutTable c 0
  let cnt := fun (f : CutTable → Nat) => match t with
    | some t => f t
    | none => 1
  let nb := nbanksOf (g (R.CKPT_AREA.nbanks c))
  let base := g (R.CKPT_BASE.base c)
  let bs := g (R.CKPT_BSIZE.bsize c)
  let ms := g (R.CKPT_MSIZE.msize c)
  let ts := g (R.CKPT_TSIZE.tsize c)
  let src := g (R.CKPT_AREA.src c)
  let far := fun a n => match regionOf a, regionOf (a + n - 1) with
    | .far x, .far y => decide (x = y)
    | _, _ => false
  decide (nb < 2 ∨ bs < ts + cnt CutTable.nmodules * ms ∨ base % 4096 ≠ 0 ∨ bs % 4096 ≠ 0 ∨ ts % 4096 ≠ 0 ∨ ms % 4096 ≠ 0
    ∨ g (R.CKPT_AREA.nmom c) = 3 ∨ 64 < g (R.CKPT_XREG.n c) ∨ 63 < g (R.CKPT_KEYS.n c) ∨ 8 < g (R.CKPT_SIGNERS.n c))
  || (if g (R.CKPT_AREA.target c) = 0 then
        !(s.flag (R.HAUL_SRC.en src) && decide (s.get (R.HAUL_SRC.ctx src) = c))
      else !(far base (nb * bs) && far (g (R.CKPT_RING.ring c)) (nb * 512)))
  || !(s.ckAreaRanges c).all (fun r => s.permits c r.1 r.2.1 r.2.2)

/-- CKPT_ACOMMIT (R352, R372, R440). In the far tier enc reads 0 (R358). -/
def execCkptAcommit (c : Fin 64) (s : State) : Result :=
  let c := c.val
  let res := fun (s : State) r => s.puts [(R.CKPT_ACSTAT.ctx, c), (R.CKPT_ACSTAT.result, r)]
  .next (s.gated 0x03A1_0000 (
    if s.flag R.CKPT_ACSTAT.busy then s.cfgRange (some c) 0x03A1_0000
    else if s.leaving c ∨ s.ckState c ≠ ckIDLE then res (s.raise E.CFG_COMMIT (some c) (atSteward 0) c) 2
    else if s.ckAreaBad c then
      res ((s.permNote s.entryLd c (s.ckAreaRanges c)).raise E.CFG_COMMIT (some c) (atSteward 0) c) 2
    else
      let s := s.commit (ckptGroup c)
      res (if s.ckFar c then s.put (R.CKPT_AREA.enc c) 0 else s) 1))

/-! ## Writing (R354 to R361) -/

/-- The 128-byte shard header in a 4 KiB unit (R354). -/
def shardHead (kind fmt enc job m step tid id count plen index : Nat) : List Byte :=
  leBytes 4 0x4452_4853 ++ leBytes 1 1 ++ leBytes 1 kind ++ leBytes 1 fmt ++ leBytes 1 enc ++ leBytes 4 job ++ leBytes 4 m
    ++ leBytes 8 step ++ leBytes 8 tid ++ leBytes 4 id ++ leBytes 4 0 ++ leBytes 8 count ++ leBytes 8 plen ++ leBytes 8 index
    ++ List.replicate (4096 - 64) 0

/-- The nonce of a shard: its module, then its index (R358). -/
def shardNonce (m index : Nat) : List Byte := leBytes 4 m ++ leBytes 8 index

/-- The additional data of a shard (R358). -/
def shardAad (job step index : Nat) : List Byte := leBytes 8 job ++ leBytes 8 step ++ leBytes 8 index

/-- What is stored for a payload: itself, or its ciphertext under the checkpoint key with the tag after it (R354, R358). -/
def State.ckSeal (s : State) (c index : Nat) (payload : List Byte) : List Byte :=
  if s.ckEnc c then
    let e := gcmEncrypt ((s.ckpt c).key.getD []) (shardNonce (s.moduleOf c) index) (shardAad (s.jobId c) (s.get (R.CKPT_STAT.step c)) index) payload
    e.1 ++ e.2
  else payload

/-- A shard appended to the region and its entry to the shard list (R354, R355); one that runs past msize ends the attempt (R360). -/
def State.ckShard (c kind fmt id count : Nat) (s : State) (payload : List Byte) : State :=
  if s.ckState c ≠ ckREADING then s
  else
    let x := s.ckpt c
    let enc := b2n (s.ckEnc c)
    let plen := payload.length
    let body := s.ckSeal c x.list.length payload
    let len := 4096 + ceilDiv body.length 4096 * 4096
    if s.get (R.CKPT_MSIZE.msize c) < x.cur + len then s.ckEnd c 11
    else
      let step := s.get (R.CKPT_STAT.step c)
      let h := shardHead kind fmt enc (s.jobId c) (s.moduleOf c) step (s.tallyId c) id count plen x.list.length
      let off := s.ckRegion c + x.cur
      let ent := leBytes 1 kind ++ leBytes 1 fmt ++ leBytes 1 enc ++ leBytes 1 0 ++ leBytes 4 id ++ leBytes 8 count
        ++ leBytes 8 (off - s.get (R.CKPT_BASE.base c)) ++ leBytes 8 len ++ sha384 payload ++ List.replicate 16 0
      (s.ckWrite c off (h ++ body ++ List.replicate (len - 4096 - body.length) 0)).modCkpt c (fun x =>
        { x with cur := x.cur + len, list := x.list ++ [ent] })

/-- A moment narrowed to L8 in blocks of 32 with a computed exponent: the elements, then the scales (R349, R354). -/
def narrowL8 (bs : List Byte) (nw : Nat) : List Byte :=
  let blocks := (List.range (ceilDiv nw 32)).map (fun b =>
    let vs := (List.range (min 32 (nw - 32 * b))).map (fun i => (BitVec.ofNat 32 (fieldAt bs (4 * (32 * b + i)) 4) : F32))
    let x := computedX 0 vs
    (x, vs.map (fun v => (convElem 0 x v).code)))
  blocks.flatMap (fun b => b.2.map (BitVec.ofNat 8) ++ List.replicate (32 - b.2.length) 0) ++ blocks.map (fun b => BitVec.ofNat 8 b.1)

/-- A narrowed moment widened to FP32 (R61, R349). -/
def widenL8 (p : List Byte) (nw : Nat) : List Byte :=
  let nb := ceilDiv nw 32
  (List.range nw).flatMap (fun i =>
    leBytes 4 (decodeF32 0 (fieldAt p (32 * nb + i / 32) 1) (elemOf 0 (fieldAt p i 1))).1.toNat)

/-- The shards of one layer in ascending kinds (R346, R360). What cannot be read ends the attempt with CKPT_IO. -/
def State.ckLayer (c : Nat) (t : CutTable) (s : State) (L : Nat) : State :=
  let nw := s.layerNw c L
  (List.range (1 + s.get (R.CKPT_AREA.nmom c))).foldl (fun s kind =>
    let rs := s.arrayReads c t L kind
    let ok := s.s0AllOk rs
    if s.ckState c ≠ ckREADING then s
    else
      let s := s.s0Notes (some c) rs
      let bs := s.bytes (s.layerAddr c t L kind) (4 * nw)
      if !ok then s.ckEnd c 9
      else if kind = 0 then s.ckShard c 0 12 L nw bs else s.ckShard c kind 0 L nw (narrowL8 bs nw)) s

/-- The extra regions and the module record, after every layer (R360). What cannot be read ends the attempt with CKPT_IO. -/
def State.ckTail (s : State) (c : Nat) : State :=
  let lst := s.xregList c
  let ok := s.s0Ok lst.1 lst.2
  let rs := s.extraRegions c
  let s := s.s0Note (some c) lst.1 lst.2
  let s := if ok then s else s.ckEnd c 9
  let s := rs.foldl (fun s r =>
    let ok := s.s0Ok r.2.1 r.2.2
    if s.ckState c ≠ ckREADING then s
    else
      let s := s.s0Note (some c) r.2.1 r.2.2
      if ok then s.ckShard c 3 12 r.1 r.2.2 (s.bytes r.2.1 r.2.2) else s.ckEnd c 9) s
  let s := s.ckShard c 4 12 0 (s.ckpt c).recd.length (s.ckpt c).recd
  if s.ckState c = ckREADING then s.modCkpt c (fun x => { x with reading := false }) else s

/-- The next layers of an attempt in ascending order, as far as they lie at one position, once its ready words hold the step (R350, R360); a module
waits for the checkpoint key when it encrypts (R358). -/
def State.ckReadNext (s : State) (c : Nat) : State :=
  match s.cutTable c 0 with
  | none => s
  | some t =>
    if s.ckState c ≠ ckREADING ∨ (s.ckpt c).reading = false ∨ (s.ckEnc c = true ∧ (s.ckpt c).key = none) then s
    else match (s.ckpt c).todo with
      | [] => s.ckTail c
      | (p, L) :: more =>
        let ready := s.posReady c t p (s.get (R.CKPT_STAT.step c))
        let s := s.s0Notes (some c) (s.readyWords c t p)
        if ready then
          let run := (p, L) :: more.takeWhile (fun x => decide (x.1 = p))
          let s := (run.map Prod.snd).foldl (State.ckLayer c t) s
          if s.ckState c ≠ ckREADING then s
          else
            let rest := more.dropWhile (fun x => decide (x.1 = p))
            let s := s.modCkpt c (fun x => { x with todo := rest })
            if rest.isEmpty then s.ckTail c else s
        else s

/-- The link of kind 7 messages between the last module and module 0: wrap, or the ordinary direction `other` where the ring has no wrap link
(R409, R545). -/
def State.wrapLink (s : State) (c : Nat) (other : Fld) : Nat :=
  let w := s.get (R.RED_CTL.wrap c)
  if w < 24 then w else s.get other

/-- A piece of a buddy copy sent to the module that holds it, by the link that its copies take (R367, R409, R545). -/
def State.buddySend (s : State) (c : Nat) (t : CutTable) (body : List Nat) : State :=
  let m := s.moduleOf c
  if m + 1 < t.nmodules then s.redOn c (s.get (R.RED_CTL.next c)) (m + 1) 7 body
  else s.redOn c (s.wrapLink c (R.RED_CTL.prev c)) 0 7 body

/-- One item of a buddy copy sent; `last` ends the copy (R368). -/
def State.buddyItem (c : Nat) (t : CutTable) (last : Bool) (s : State) (bs : List Byte) : State :=
  let x := s.ckpt c
  (s.buddySend c t ([x.bstep, x.boff, b2n last] ++ bs.map BitVec.toNat)).modCkpt c (fun x => { x with boff := x.boff + bs.length })

/-- A buddy copy given up: the module goes on without one (R368). -/
def State.buddyDrop (s : State) (c : Nat) : State := s.modCkpt c (fun x => { x with bread := false, bwait := false, btodo := [] })

/-- Ranges that a buddy copy reads and sends as one item each; one that cannot be read gives the copy up (R368, R385; DESIGN CHOICE, log entry
125). -/
def State.buddyRead (c : Nat) (t : CutTable) (s : State) (x : List (Nat × Nat) × (Nat × Nat)) : State :=
  if (s.ckpt c).bread = false then s
  else
    let ok := s.s0AllOk x.1
    let s := s.s0Notes (some c) x.1
    if ok then s.buddyItem c t false (s.bytes x.2.1 x.2.2) else s.buddyDrop c

/-- The next position of a buddy copy, once its ready words hold the step (R368). -/
def State.buddyReadNext (s : State) (c : Nat) : State :=
  let x := s.ckpt c
  let tail := fun (t : CutTable) (s : State) =>
    let s := (s.extraRegions c).foldl (fun s r => State.buddyRead c t s ([s.xregList c, r.2], r.2)) s
    if (s.ckpt c).bread then (s.buddyItem c t true (s.ckpt c).recd).modCkpt c (fun x => { x with bread := false }) else s
  match s.cutTable c 0 with
  | none => s
  | some t =>
    if x.bread = false then s
    else match x.btodo with
      | [] => tail t s
      | p :: rest =>
        let ready := s.posReady c t p x.bstep
        let s := s.s0Notes (some c) (s.readyWords c t p)
        if ready then
          let s := (t.ckLayers (s.moduleOf c) p).foldl (fun s L => (List.range (1 + s.get (R.CKPT_AREA.nmom c))).foldl (fun s kind =>
            State.buddyRead c t s (s.arrayReads c t L kind, (s.layerAddr c t L kind, 4 * s.layerNw c L))) s) s
          if (s.ckpt c).bread = false then s
          else
            let s := s.modCkpt c (fun x => { x with btodo := rest })
            if rest.isEmpty then tail t s else s
        else s

/-- CKPT_POSITION_READ (R350, R360, R368): the attempt and the buddy copy each read their next position. Memory in self-refresh is not read (R392). -/
def execCkptPositionRead (c : Fin 64) (s : State) : Result :=
  .next (if s.patrolPaused then s else (s.ckReadNext c.val).buddyReadNext c.val)

/-- The tally chain on a module whose shard list is durable (R361). -/
def State.tallyChain (s : State) (c : Nat) : State :=
  let x := s.ckpt c
  let m := s.moduleOf c
  let come := if m = s.lastModule c then some [] else x.chain
  match x.part, come with
  | some p, some l =>
    if s.ckState c ≠ ckCHAINING ∨ m = 0 ∨ x.broken = true then s
    else s.redSend c (m - 1) 5 ((p ++ l).map BitVec.toNat)
  | _, _ => s

/-- CKPT_SHARD_LIST_WRITE (R355, R360): once every shard is durable. -/
def execCkptShardListWrite (c : Fin 64) (s : State) : Result :=
  let c := c.val
  let x := s.ckpt c
  .next (
    if s.ckState c ≠ ckREADING ∨ x.reading = true ∨ x.writes ≠ [] ∨ x.part ≠ none then s
    else
      let l := leBytes 4 1 ++ leBytes 4 (s.moduleOf c) ++ leBytes 4 x.list.length ++ leBytes 4 0 ++ leBytes 8 (s.get (R.CKPT_STAT.step c))
        ++ leBytes 8 (s.tallyId c) ++ List.replicate 32 0 ++ x.list.flatten
      let off := s.ckRegion c + x.cur
      if s.get (R.CKPT_MSIZE.msize c) < x.cur + l.length then s.ckEnd c 11
      else
        let part := leBytes 4 (s.moduleOf c) ++ leBytes 4 x.list.length ++ leBytes 8 (off - s.get (R.CKPT_BASE.base c)) ++ leBytes 8 l.length
          ++ sha384 l ++ List.replicate 8 0
        (s.ckWrite c off l).modCkpt c (fun x => { x with part := some part }))

/-- Success: every module takes the new checkpoint (R360). -/
def State.ckSuccess (s : State) (c step seq : Nat) : State :=
  (s.ckFinish c 0 step).puts [(R.CKPT_CUR.seq c, seq), (R.CKPT_CSTEP.step c, step)]

/-- CKPT_STORAGE_WRITE_DONE (R360): the oldest write becomes durable, or fails and is retried once. What waits for it goes on. -/
def execCkptStorageWriteDone (c : Fin 64) (ok : Bool) (s : State) : Result :=
  let c := c.val
  .next (match (s.ckpt c).writes with
    | [] => s
    | w :: ws =>
      if ok && s.ckMade c w then
        let s := (s.count (R.CKPT_BYTES.count c) w.data.length).modCkpt c (fun x => { x with writes := ws })
        let x := s.ckpt c
        if ws ≠ [] then s
        else if s.ckState c = ckREADING ∧ x.part ≠ none then (s.put (R.CKPT_STAT.state c) ckCHAINING).tallyChain c
        else if s.ckState c = ckCOMMITTING ∧ x.crec = true then
          let step := s.get (R.CKPT_STAT.step c)
          let seq := s.ckSeq c
          (s.ckSuccess c step seq).ckTell c 0 step seq false
        else s
      else if w.again then s.ckEnd c 9
      else (s.ckSend c w.off w.data).modCkpt c (fun x => { x with writes := { w with again := true } :: ws }))

/-- TALLY_CHAIN_MSG (R361). -/
def execTallyChainMsg (h : RedHdr) (parts : List (BitVec 8)) (s : State) : Result :=
  let c := h.ctx.val
  .next (s.redIn h (s.redDir h) 5 (parts.map BitVec.toNat) (fun s => if ckARMED ≤ s.ckState c ∧ s.ckState c ≤ ckCHAINING ∧ (s.ckpt c).broken = false then
      (s.modCkpt c (fun x => { x with chain := some parts })).tallyChain c else s))

/-- True when module 0 waits for a tally chain that has not come (R361), or for one that a lost module has broken (R372; log entry 158). -/
def State.chainMissing (s : State) (c : Nat) : Bool :=
  decide (s.moduleOf c = 0) &&
  ((decide (s.ckState c = ckCHAINING ∧ s.lastModule c ≠ 0) && (s.ckpt c).chain.isNone) ||
   (decide (ckARMED ≤ s.ckState c ∧ s.ckState c ≤ ckCHAINING) && (s.ckpt c).broken))

/-- CKPT_TALLY_TIMEOUT (R361, R372). -/
def execCkptTallyTimeout (c : Fin 64) (s : State) : Result :=
  let c := c.val
  .next (if s.chainMissing c then s.ckEnd c 10 else s)

/-- The three cut tables in force, each followed by its layer list; a phase without one has a header of zeros (R356). -/
def State.cutBytes (s : State) (c : Nat) : List Byte :=
  [0, 1, 2].flatMap (fun p => match s.cutTable c p with
    | some t => t.hdr ++ t.rows.flatten ++ t.layers.flatten
    | none => List.replicate 64 0)

/-! ## Keys and signature of a tally (R356, R358, R467) -/

/-- The digests that the alias key is derived over: blocks 2 to 5 and 18 to 21 of the published picture (R476). -/
def State.aliasBlocks (s : State) : List Nat :=
  (s.picture.filter (fun b => [2, 3, 4, 5, 18, 19, 20, 21].contains b.1)).map Prod.snd

/-- The device alias key: the private scalar derived from the device identity secret and the firmware measurements (R467, R476; log entry 153). -/
def State.aliasKey (s : State) : Nat :=
  ecScalar (hkdf384 [] (s.mfg.idSecret ++ s.aliasBlocks.flatMap (leBytes 48)) (ascii "Caerlen alias v1") 56)

/-- The kid of the alias key (R320, R356). -/
def State.aliasKid (s : State) : List Byte := kidOf (ecPublic s.aliasKey)

/-- The key encryption key of a key entry (R323, R358): from the shared secret, with the job as the salt. -/
def ckKek (job : Nat) (z : List Byte) : List Byte := hkdf384 (leBytes 8 job) z (ascii "Caerlen checkpoint wrap v1") 32

/-- A key entry in the form of R320 for one public key, its ephemeral key `e` (R358); a key that is no point of the curve gets none. -/
def ckKeyEntry (job e : Nat) (key pub : List Byte) : Option (List Byte) :=
  (ecdh e pub).map (fun z => (kidOf pub ++ ecPublic e ++ List.replicate 7 0) ++ keyWrap (ckKek job z) key)

/-- The key that a tally's entry for this device gives it (R320, R358, R364): none without one, or when it does not unwrap. -/
def State.ckUnwrap (s : State) (t : List Byte) : Option (List Byte) :=
  let entries := (List.range (min (fieldAt t 40 4) (t.length / 160))).map (fun i => (t.drop (fieldAt t 72 8 + 160 * i)).take 160)
  (entries.find? (fun e => decide (e.take 16 = s.mfg.kid))).bind (fun e =>
    (ecdh s.mfg.bindKey (keyEpk e)).bind (fun z => keyUnwrap (ckKek (fieldAt t 8 4) z) (keyWkey e)))

/-- The key entries of a tally (R358): for every public key of the list, then for the device's own; `draw` gives 56 random bytes for each
ephemeral key. -/
def State.ckEntries (s : State) (c : Nat) (draw : List Byte) : List (List Byte) :=
  let pubs := (List.range (s.get (R.CKPT_KEYS.n c))).map (fun i => s.s0Bytes (s.get (R.CKPT_KEYS.addr c) + 128 * i) 97) ++ [s.mfg.publicKey]
  pubs.zipIdx.filterMap (fun x =>
    ckKeyEntry (s.jobId c) (ecScalar ((draw.drop (56 * x.2)).take 56)) ((s.ckpt c).key.getD []) x.1)

/-- The tally (R356): header, cut tables, part entries, key entries. The signature and its signer are not in it yet. -/
def State.tallyBytes (s : State) (c : Nat) (parts : List Byte) (entries : List (List Byte)) (salt : Nat) : List Byte :=
  let cut := s.cutBytes c
  let nl := match s.cutTable c 0 with
    | some t => t.nlayers
    | none => 0
  let enc := s.ckEnc c
  let koff := ceilDiv (256 + cut.length + parts.length) 16 * 16
  let keys := if enc then entries else []
  let entry := (List.range 96).find? (fun k => s.seqBound k && decide (s.seqCtx k = c) && s.flag (R.VER_HDR.entry k))
  let gen := match entry with
    | some k => s.get (R.VER_HDR.top k)
    | none => 0
  let h := leBytes 4 0x594C_4154 ++ leBytes 1 1 ++ leBytes 1 (b2n enc + 2 * b2n (s.flag (R.CKPT_AREA.sign c))) ++ leBytes 2 0 ++ leBytes 4 (s.jobId c)
    ++ leBytes 4 (s.lastModule c + 1) ++ leBytes 8 (s.get (R.CKPT_STAT.step c)) ++ leBytes 8 (s.tallyId c) ++ leBytes 4 gen ++ leBytes 4 nl
    ++ leBytes 4 keys.length ++ leBytes 4 (if enc then salt else 0) ++ leBytes 8 256 ++ leBytes 8 cut.length
    ++ leBytes 8 (256 + cut.length) ++ leBytes 8 koff ++ leBytes 8 (koff + 160 * keys.length) ++ leBytes 8 0
  h ++ List.replicate 160 0 ++ cut ++ parts ++ List.replicate (koff - 256 - cut.length - parts.length) 0 ++ keys.flatten

/-- The bytes that the tally digest is taken over (R356). -/
def tallyPlain (t : List Byte) : List Byte := patchAt t 96 (List.replicate 112 0)

/-- The tally digest (R356). -/
def tallyDigest (t : List Byte) : List Byte := sha384 (tallyPlain t)

/-- A tally with the signature of the alias key over its digest, and the kid of that key (R356, R358); `nonce` is ECDSA's per-signature secret. -/
def State.tallySigned (s : State) (c : Nat) (nonce t : List Byte) : List Byte :=
  if s.flag (R.CKPT_AREA.sign c) then patchAt t 96 (ecdsaSign s.aliasKey (ecScalar nonce) (tallyPlain t) ++ s.aliasKid) else t

/-- CKPT_TALLY_WRITE (R356, R358, R360) on module 0. `draw` and `nonce` are the random bytes of the ephemeral keys and of the signature, `salt` the
nonce prefix, as S0's generator gives them. -/
def execCkptTallyWrite (c : Fin 64) (draw nonce : List (BitVec 8)) (salt : BitVec 32) (_ : Mute) (s : State) : Result :=
  let c := c.val
  let x := s.ckpt c
  let come := if s.lastModule c = 0 then some [] else x.chain
  .next (match x.part, come with
    | some p, some l =>
      if s.ckState c ≠ ckCHAINING ∨ s.moduleOf c ≠ 0 ∨ x.writes ≠ [] ∨ x.broken = true then s
      else
        let t := s.tallySigned c nonce (s.tallyBytes c (p ++ l) (s.ckEntries c draw) salt.toNat)
        let s := if s.ckEnc c then s.s0Note (some c) (s.get (R.CKPT_KEYS.addr c)) (128 * s.get (R.CKPT_KEYS.n c)) else s
        if s.get (R.CKPT_TSIZE.tsize c) < t.length then s.ckEnd c 11
        else ((s.put (R.CKPT_STAT.state c) ckCOMMITTING).ckWrite c (s.ckBank c) t).modCkpt c (fun x =>
          { x with tally := some (t.length, tallyDigest t) })
    | _, _ => s)

/-- Logical block of the commit ring (R352). -/
def State.ckBlock (s : State) (c : Nat) : Nat :=
  if s.ckFar c then 512 else if s.flag (R.HAUL_SSTAT.lba (s.get (R.CKPT_AREA.src c))) then 4096 else 512

/-- CKPT_COMMIT_RECORD_WRITE (R357, R360): once the tally is durable. -/
def execCkptCommitRecordWrite (c : Fin 64) (s : State) : Result :=
  let c := c.val
  let x := s.ckpt c
  .next (match x.tally with
    | none => s
    | some (tlen, dig) =>
      if s.ckState c ≠ ckCOMMITTING ∨ x.writes ≠ [] ∨ x.crec = true then s
      else
        let b := leBytes 4 0x544D_4D43 ++ leBytes 4 1 ++ leBytes 8 (s.jobId c) ++ leBytes 8 (s.ckSeq c) ++ leBytes 8 (s.tallyId c)
          ++ leBytes 8 (s.get (R.CKPT_STAT.step c)) ++ leBytes 8 (s.ckBank c - s.get (R.CKPT_BASE.base c)) ++ leBytes 8 tlen ++ dig
        let r := b ++ sha384 b ++ List.replicate (s.ckBlock c - 152) 0
        let off := s.get (R.CKPT_RING.ring c) + s.ckSeq c % nbanksOf (s.get (R.CKPT_AREA.nbanks c)) * s.ckBlock c
        (s.ckWrite c off r).modCkpt c (fun x => { x with crec := true }))

/-- The body of a checkpoint key on the channel (R358). -/
def keyBody (key : List Byte) : List Nat := 0 :: (List.range 4).map (fun i => fieldAt key (8 * i) 8)

/-- CKPT_CMD take (R358, R359): ignored while anything is in progress, without an area, and from the entry to Rest
or Freeze on (R495); refused for a context that is leaving (R440). `key` is what S0's generator draws when module 0 needs a checkpoint key. -/
def execCkptCmdTake (c : Fin 64) (key : BitVec 256) (s : State) : Result :=
  let c := c.val
  .next (s.gated 0x03A1_0008 (
    if s.leaving c then s.raise E.CFG_COMMIT (some c) (atSteward 0) c
    else if s.ckState c ≠ ckIDLE ∨ s.flag (R.CKPT_AREA.en c) = false ∨ s.awake = false then s.cfgRange (some c) 0x03A1_0008
    else
      let s := s.puts [(R.CKPT_STAT.state c, ckARMED), (R.CKPT_CUR.attempt c, s.get (R.CKPT_CUR.attempt c) + 1)]
      if s.ckEnc c && decide (s.moduleOf c = 0) then
        let k := leBytes 32 key.toNat
        let s := s.modCkpt c (fun x => { x with key := some k })
        if 0 < s.lastModule c then s.redSend c 1 6 (keyBody k) else s
      else s))

/-- An attempt in progress ended by an abort (R372). A module whose part has gone along the chain cannot know whether the commit record is durable: it asks
module 0, where an attempt that is still in progress ends (log entry 159). -/
def State.ckAbort (s : State) (c : Nat) : State :=
  if ckARMED ≤ s.ckState c ∧ s.ckState c ≤ ckCOMMITTING then
    (if s.moduleOf c ≠ 0 ∧ s.ckState c = ckCHAINING ∧ (s.moduleOf c = s.lastModule c ∨ (s.ckpt c).chain ≠ none) then s.redSend c 0 6 [4]
     else s.ckEnd c 10)
  else s

/-- CKPT_CMD abort (R372): ends an attempt; a restore and an idle engine are left alone. -/
def execCkptCmdAbort (c : Fin 64) (s : State) : Result := .next (s.gated 0x03A1_0008 (s.ckAbort c.val))

/-! ## Restore (R363 to R366) -/

/-- CKPT_CMD restore (R363); not taken from the entry to Rest or Freeze on (R495; reported as a command not taken, DESIGN CHOICE, log entry 141). -/
def execCkptCmdRestore (c : Fin 64) (s : State) : Result :=
  let c := c.val
  .next (s.gated 0x03A1_0008 (
    if s.leaving c then s.raise E.CFG_COMMIT (some c) (atSteward 0) c
    else if !s.awake then s.cfgRange (some c) 0x03A1_0008
    else if !(s.activeStages c).isEmpty || decide (s.ckState c ≠ ckIDLE) then
      (s.puts [(R.CKPT_RES.code c, 12), (R.CKPT_RES.step c, 0)]).ckRaise c 12 c
    else (s.put (R.CKPT_STAT.state c) ckRESTORING).modCkpt c (fun x =>
      { x with tried := none, top := none, cand := none, res := none, chainR := none, modrec := [] })))

/-- Bytes of the area that a restore reads: far-tier memory, or what storage returned; none when the read fails (R352). Far-tier bytes that the windows
no longer give the context fail (R391). A bad unit of the far tier is no failed read: its bytes are all ones, and the digest over them fails (R385). -/
def State.ckRead (s : State) (c : Nat) (io : CkRead) (a n : Nat) : Option (List Byte) :=
  if s.ckFar c then (if s.permits c a n false && (s.s0Refused a n).isEmpty then some (s.s0Bytes a n) else none)
  else (io.segs.find? (fun x => decide (x.1 ≤ a ∧ a + n ≤ x.1 + x.2.length))).map (fun x => (x.2.drop (a - x.1)).take n)

/-- What such a read leaves behind in the far tier: refusals, corrections and uncorrectable units are logged (R378, R384, R385, R389, R390, R480). -/
def State.ckNote (s : State) (c a n : Nat) : State :=
  if s.ckFar c then (if s.permits c a n false then s.s0Note (some c) a n else s.permNote s.entryLd c [(a, n, false)]) else s

/-- A read of the area: the state after it, and its bytes. -/
def State.ckGet (s : State) (c : Nat) (io : CkRead) (a n : Nat) : State × Option (List Byte) := (s.ckNote c a n, s.ckRead c io a n)

/-- A complete commit record of the job (R357, R364). -/
def recordOk (job : Nat) (r : List Byte) : Bool :=
  decide (fieldAt r 0 4 = 0x544D_4D43 ∧ fieldAt r 4 1 = 1 ∧ sha384 (r.take 104) = (r.drop 104).take 48 ∧ fieldAt r 8 4 = job)

/-- Sequence number of a commit record. -/
def recSeq (r : List Byte) : Nat := fieldAt r 16 8

/-- The complete records of the ring in descending sequence number (R364). -/
def State.candidates (s : State) (c : Nat) (io : CkRead) : List (List Byte) :=
  let lb := s.ckBlock c
  let rs := (List.range (nbanksOf (s.get (R.CKPT_AREA.nbanks c)))).filterMap (fun k =>
    if s.ckFar c then s.ckRead c io (s.get (R.CKPT_RING.ring c) + k * lb) lb else some ((io.ring.drop (k * lb)).take lb))
  (rs.filter (recordOk (s.jobId c))).mergeSort (fun x y => decide (recSeq y ≤ recSeq x))

/-- What reading the ring leaves behind. -/
def State.ringNote (s : State) (c : Nat) : State := s.ckNote c (s.get (R.CKPT_RING.ring c)) (nbanksOf (s.get (R.CKPT_AREA.nbanks c)) * s.ckBlock c)

/-- The tally that a commit record names, with its length. -/
def State.candAt (s : State) (c : Nat) (r : List Byte) : Nat × Nat := (s.get (R.CKPT_BASE.base c) + fieldAt r 40 8, fieldAt r 48 8)

/-- True when a tally is signed, its signer is in CKPT_SIGNERS, and the signature verifies under the key of that kid (R364). -/
def State.sigGood (s : State) (c : Nat) (io : CkRead) (t : List Byte) : Bool :=
  let signers := (List.range (s.get (R.CKPT_SIGNERS.n c))).map (fun i => s.s0Bytes (s.get (R.CKPT_SIGNERS.addr c) + 16 * i) 16)
  let kid := (t.drop 192).take 16
  bit (fieldAt t 5 1) 1 && signers.contains kid && decide (kidOf io.signer = kid) && ecdsaOk io.signer (tallyPlain t) ((t.drop 96).take 96)

/-- Why a candidate is passed over before it is loaded (R364), 0 when it is not. A tally of another version is CKPT_TALLY too (R424). -/
def State.candCause (s : State) (c : Nat) (io : CkRead) (r : List Byte) : Nat :=
  match s.ckRead c io (s.candAt c r).1 (s.candAt c r).2 with
  | none => 9
  | some t =>
    if tallyDigest t ≠ (r.drop 56).take 48 ∨ fieldAt t 0 4 ≠ 0x594C_4154 ∨ fieldAt t 4 1 ≠ 1 then 6
    else if s.flag (R.CKPT_AREA.sig_req c) && !s.sigGood c io t then 7
    else if bit (fieldAt t 5 1) 0 && (s.ckUnwrap t).isNone then 8
    else 0

/-- What judging a candidate leaves behind: its tally and the signer list are read. -/
def State.candNote (s : State) (c : Nat) (r : List Byte) : State :=
  let s := s.ckNote c (s.candAt c r).1 (s.candAt c r).2
  if s.flag (R.CKPT_AREA.sig_req c) then s.s0Note (some c) (s.get (R.CKPT_SIGNERS.addr c)) (16 * s.get (R.CKPT_SIGNERS.n c)) else s

/-- A refusal of a shard: code, layer, kind, module (R365, R373). -/
structure ShardErr where
  code  : Nat
  layer : Nat
  kind  : Nat
  mod   : Nat
deriving DecidableEq, Repr

/-- The shard lists of a tally: module and entries, or the refusal of one (R355, R356). -/
def State.shardLists (s : State) (c : Nat) (io : CkRead) (t : List Byte) : State × Except ShardErr (List (Nat × List (List Byte))) :=
  (List.range (fieldAt t 12 4)).foldl (fun acc i => match acc with
    | (s, .error e) => (s, .error e)
    | (s, .ok l) =>
      let p := (t.drop (fieldAt t 64 8 + 80 * i)).take 80
      let m := fieldAt p 0 4
      match s.ckGet c io (s.get (R.CKPT_BASE.base c) + fieldAt p 8 8) (fieldAt p 16 8) with
      | (s, none) => (s, .error ⟨9, 0, 0, m⟩)
      | (s, some d) =>
        if sha384 d ≠ (p.drop 24).take 48 then (s, .error ⟨4, 0, 0, m⟩)
        else (s, .ok (l ++ [(m, (List.range (fieldAt p 4 4)).map (fun j => (d.drop (64 + 96 * j)).take 96))]))) (s, .ok [])

/-- The format of a shard of a kind (R354). -/
def shardFmt (kind : Nat) : Nat := if kind = 1 ∨ kind = 2 then 0 else 12

/-- The payload of a shard `d` of module `m`, checked against the tally and its list entry (R365); one whose format code is not that of its kind is
rejected (R38, R354). `count` is what the restoring side expects, `key` the checkpoint key of an encrypted tally (R358). -/
def shardCheck (key : Option (List Byte)) (t : List Byte) (m : Nat) (e : List Byte) (count : Nat) (d : List Byte) : Except ShardErr (List Byte) :=
  let kind := fieldAt e 0 1
  let id := fieldAt e 4 4
  let n := fieldAt d 48 8
  let body := (d.drop 4096).take n
  let p := match key with
    | none => (body, true)
    | some k => gcmDecrypt k (shardNonce m (fieldAt d 56 8)) (shardAad (fieldAt t 8 4) (fieldAt t 16 8) (fieldAt d 56 8)) body
        ((d.drop (4096 + n)).take 16)
  if fieldAt d 0 4 ≠ 0x4452_4853 ∨ fieldAt d 4 1 ≠ 1 ∨ fieldAt d 8 4 ≠ fieldAt t 8 4 ∨ fieldAt d 16 8 ≠ fieldAt t 16 8
      ∨ fieldAt d 24 8 ≠ fieldAt t 24 8 ∨ fieldAt d 5 1 ≠ kind ∨ fieldAt d 32 4 ≠ id ∨ fieldAt d 40 8 ≠ fieldAt e 8 8
      ∨ fieldAt e 8 8 ≠ count then .error ⟨3, id, kind, m⟩
  else if shardFmt kind ≠ fieldAt d 6 1 ∨ shardFmt kind ≠ fieldAt e 1 1 then .error ⟨3, id, kind, m⟩
  else if p.2 = false then .error ⟨5, id, kind, m⟩
  else if sha384 p.1 ≠ (e.drop 32).take 48 then .error ⟨4, id, kind, m⟩
  else .ok p.1

/-- A shard read and checked (R365). -/
def State.shardPayload (s : State) (c : Nat) (io : CkRead) (t : List Byte) (m : Nat) (e : List Byte) (count : Nat) :
    State × Except ShardErr (List Byte) :=
  match s.ckGet c io (s.get (R.CKPT_BASE.base c) + fieldAt e 16 8) (fieldAt e 24 8) with
  | (s', none) => (s', .error ⟨9, fieldAt e 4 4, fieldAt e 0 1, m⟩)
  | (s', some d) => (s', shardCheck (if bit (fieldAt t 5 1) 0 then (s.ckpt c).key else none) t m e count d)

/-- The list entry of a kind and id, with its module. -/
def findShard (ls : List (Nat × List (List Byte))) (kind id : Nat) : Option (Nat × List Byte) :=
  ls.findSome? (fun x => (x.2.find? (fun e => decide (fieldAt e 0 1 = kind ∧ fieldAt e 4 4 = id))).map (fun e => (x.1, e)))

/-- One layer's master or moment loaded (R365). -/
def State.loadLayer (c : Nat) (io : CkRead) (t : CutTable) (tally : List Byte) (ls : List (Nat × List (List Byte)))
    (acc : State × Option ShardErr) (x : Nat × Nat) : State × Option ShardErr :=
  match acc with
  | (s, some e) => (s, some e)
  | (s, none) =>
    let L := x.1
    let kind := x.2
    let nw := s.layerNw c L
    match findShard ls kind L with
    | none => (s, some ⟨3, L, kind, 0⟩)
    | some (m, e) => match s.shardPayload c io tally m e nw with
      | (s, .error err) => (s, some err)
      | (s, .ok p) => (s.s0Write (some c) (s.layerAddr c t L kind) (if kind = 0 then p else widenL8 p nw), none)

/-- One extra region loaded by its id (R347, R365). -/
def State.loadRegion (c : Nat) (io : CkRead) (tally : List Byte) (ls : List (Nat × List (List Byte)))
    (acc : State × Option ShardErr) (r : Nat × Nat × Nat) : State × Option ShardErr :=
  match acc with
  | (s, some e) => (s, some e)
  | (s, none) => match findShard ls 3 r.1 with
    | none => (s, some ⟨3, r.1, 3, 0⟩)
    | some (m, e) => match s.shardPayload c io tally m e r.2.2 with
      | (s, .error err) => (s, some err)
      | (s, .ok p) => (s.s0Write (some c) r.2.1 p, none)

/-- Every module record of the tally, in ascending module index (R348, R365). -/
def State.loadRecords (s : State) (c : Nat) (io : CkRead) (tally : List Byte) (ls : List (Nat × List (List Byte))) :
    State × Except ShardErr (List (List Byte)) :=
  ls.foldl (fun acc x => match acc with
    | (s, .error e) => (s, .error e)
    | (s, .ok l) => match x.2.find? (fun e => decide (fieldAt e 0 1 = 4)) with
      | none => (s, .error ⟨3, 0, 4, x.1⟩)
      | some e => match s.shardPayload c io tally x.1 e (fieldAt e 8 8) with
        | (s, .error err) => (s, .error err)
        | (s, .ok p) => (s, .ok (l ++ [p]))) (s, .ok [])

/-- The scale entries of a module record by scale id. -/
def recEntries (r : List Byte) : List (Nat × List Byte) :=
  (List.range (fieldAt r 8 8)).map (fun i =>
    let e := (r.drop (16 + scaleEntryLen * i)).take scaleEntryLen
    (bits (fieldAt e 0 8) 48 12, e))

/-- A module's own result when a shard is refused (R365, R373). -/
def State.loadFails (s : State) (c : Nat) (e : ShardErr) : State :=
  ((s.puts [(R.CKPT_LOG.layer c, e.layer), (R.CKPT_LOG.kind c, e.kind), (R.CKPT_LOG.cause c, e.code), (R.CKPT_LOG.module c, e.mod)]).ckRaise c
    e.code e.layer).modCkpt c (fun x => { x with res := some e.code })

/-- The shards of a tally loaded into this module (R365): its own result, 0 for success. -/
def State.loadTally (s : State) (c : Nat) (io : CkRead) (t : CutTable) (tally : List Byte) : State :=
  match s.shardLists c io tally with
  | (s, .error e) => s.loadFails c e
  | (s, .ok ls) =>
    let m := s.moduleOf c
    let items := (t.ckItems m).flatMap (fun x => (List.range (1 + s.get (R.CKPT_AREA.nmom c))).map (fun k => (x.2, k)))
    let a := items.foldl (State.loadLayer c io t tally ls) (s, none)
    let a := (a.1.extraRegions c).foldl (State.loadRegion c io tally ls) a
    match a.2 with
    | some e => a.1.loadFails c e
    | none => match a.1.loadRecords c io tally ls with
      | (s, .error e) => s.loadFails c e
      | (s, .ok rs) =>
        if (s.scaleIds c).all (fun x => rs.any (fun r => (recEntries r).any (fun y => decide (y.1 = x.1)))) then
          s.modCkpt c (fun x => { x with res := some 0, modrec := rs })
        else s.loadFails c ⟨3, 0, 4, m⟩

/-- A candidate loaded into this module (R364, R365): its key is unwrapped first, and held until the restore ends (R481). -/
def State.restoreLoad (s : State) (c : Nat) (io : CkRead) (r : List Byte) : State :=
  match s.cutTable c 0, s.ckGet c io (s.candAt c r).1 (s.candAt c r).2 with
  | some t, (s, some tally) =>
    let key := s.ckUnwrap tally
    let s := s.modCkpt c (fun x => { x with key := key, tstep := fieldAt tally 16 8 })
    if bit (fieldAt tally 5 1) 0 && key.isNone then s.loadFails c ⟨8, 0, 0, s.moduleOf c⟩ else s.loadTally c io t tally
  | _, (s, _) => s.loadFails c ⟨9, 0, 0, s.moduleOf c⟩

/-- The scale registers of an id written from its entry (R366). -/
def State.putScaleEntry (c : Nat) (s : State) (x : Nat × List Byte) : State :=
  let w := fieldAt x.2 0 8
  let st := fieldAt x.2 8 8
  (s.diesOf c).foldl (fun s n => (List.range 256).foldl (fun s i =>
    if s.get (R.NUM_SCTL.mode n i) ≠ 0 ∧ s.get (R.NUM_SCTL.sid n i) = x.1 then
      let s := s.setSctl n i (.whole (BitVec.ofNat 64 w))
      (s.puts [(R.NUM_SSTAT.x n i, bits st 56 8), (R.NUM_SSTAT.b n i, bits st 48 8), (R.NUM_SSTAT.clean n i, bits st 32 16),
               (R.NUM_SSTAT.nhist n i, bits st 16 5), (R.NUM_SAMAX.wamax n i, fieldAt x.2 16 4)]).puts
        ((List.range 16).map (fun j => (R.NUM_SHIST.amax n i j, fieldAt x.2 (20 + 4 * j) 4)))
    else s) s) s

/-- What every module sets when a restore succeeds (R366). -/
def State.restoreApply (s : State) (c code step seq : Nat) : State :=
  let rs := (s.ckpt c).modrec
  let s := (rs.flatMap recEntries).foldl (State.putScaleEntry c) s
  let s := if s.moduleOf c = 0 then (match rs with
    | r :: _ =>
      let nb := r.drop (16 + scaleEntryLen * fieldAt r 8 8)
      if nb = [] ∨ s.get (R.NUM_BASE.base c) = 0 then s else s.s0Write (some c) (s.get (R.NUM_BASE.base c)) nb
    | [] => s) else s
  (s.ckFinish c code step).puts [(R.CKPT_CUR.seq c, seq), (R.CKPT_CSTEP.step c, step), (R.NUM_STEP.step c, step + 1)] |>.modJob c (fun j => { j with done := some step })

/-- The next candidate on module 0 (R364): those passed over leave their cause in CKPT_LOG; the first that is not is broadcast and
loaded; with none left the restore ends with CKPT_NONE. -/
def State.nextCand (s : State) (c : Nat) (io : CkRead) : List (List Byte) → State
  | [] => (s.ckFinish c 2 0).ckTell c 2 0 0 false
  | r :: rs =>
    let cause := s.candCause c io r
    let s := (s.candNote c r).modCkpt c (fun x => { x with tried := some (recSeq r), top := some (x.top.getD (recSeq r)) })
    if cause ≠ 0 then
      State.nextCand ((s.put (R.CKPT_LOG.cause c) cause).ckRaise c cause (recSeq r)) c io rs
    else
      let s := s.modCkpt c (fun x => { x with cand := some r, chainR := none })
      let s := if 0 < s.lastModule c then s.redSend c 1 6 (2 :: r.map BitVec.toNat) else s
      s.restoreLoad c io r

/-- The results of a candidate as far as they are known on this module (R364): sent towards module 0, which ends the restore or gives the
candidate up. -/
def State.restoreChain (s : State) (c : Nat) : State :=
  let x := s.ckpt c
  let m := s.moduleOf c
  let come := if m = s.lastModule c then some 0 else x.chainR
  match x.res, come, x.cand with
  | some own, some up, some r =>
    let code := if up ≠ 0 then up else own
    if 0 < m then (s.redSend c (m - 1) 6 [3, code]).modCkpt c (fun x => { x with res := none, chainR := none })
    else if code = 0 then
      let step := x.tstep
      let res := if x.top = some (recSeq r) then 0 else 1
      (s.restoreApply c res step (recSeq r)).ckTell c res step (recSeq r) false
    else (s.put (R.CKPT_LOG.cause c) code).modCkpt c (fun x => { x with cand := none, res := none, chainR := none })
  | _, _, _ => s

/-- CKPT_RESTORE_LOAD (R364, R365): module 0 without a candidate takes the next one; every module loads its candidate and reports. -/
def execCkptRestoreLoad (c : Fin 64) (io : CkRead) (s : State) : Result :=
  let c := c.val
  let x := s.ckpt c
  .next (
    if s.ckState c ≠ ckRESTORING then s
    else match x.cand with
      | some r => if s.moduleOf c ≠ 0 ∧ x.res = none then (s.restoreLoad c io r).restoreChain c else s
      | none =>
        if s.moduleOf c = 0 then
          let rs := (s.candidates c io).filter (fun r => match x.tried with
            | some n => decide (recSeq r < n)
            | none => true)
          ((s.ringNote c).nextCand c io rs).restoreChain c
        else s)

/-- What a checkpoint message says, as its body on the channel. -/
def ckptBody : CkptMsg → List Nat
  | .key k => keyBody (leBytes 32 k.toNat)
  | .abort => [4]
  | .outcome code step seq down => [1, code.toNat, step.toNat, seq.toNat, b2n down]
  | .cand r => 2 :: r.map BitVec.toNat
  | .result code => [3, code.toNat]

/-- What a checkpoint message does on a module that takes it (R358, R360, R364, R372): it is then passed on the way it travels. A key may come before the
module's own take command; the outcome erases it there too (R481). -/
def State.ckTake (s : State) (c : Nat) (msg : CkptMsg) : State :=
  let m := s.moduleOf c
  let up := fun (s : State) => if m < s.lastModule c then s.redSend c (m + 1) 6 (ckptBody msg) else s
  match msg with
  | .key k => up (if s.ckState c = ckRESTORING then s else s.modCkpt c (fun x => { x with key := some (leBytes 32 k.toNat) }))
  | .abort => if m = 0 ∧ ckARMED ≤ s.ckState c ∧ s.ckState c ≤ ckCOMMITTING then s.ckEnd c 10 else s
  | .outcome code step seq down =>
    let s :=
      if s.ckState c = ckIDLE then s.modCkpt c (fun x => { x with key := none })
      else if s.ckState c = ckRESTORING then
        (if code.toNat ≤ 1 then s.restoreApply c code.toNat step.toNat seq.toNat else s.ckFinish c code.toNat step.toNat)
      else if code = 0 then s.ckSuccess c step.toNat seq.toNat else s.ckFinish c code.toNat step.toNat
    s.ckTell c code.toNat step.toNat seq.toNat down
  | .cand r => up (if s.ckState c = ckRESTORING then s.modCkpt c (fun x => { x with cand := some r, res := none, chainR := none }) else s)
  | .result code =>
    if s.ckState c = ckRESTORING then (s.modCkpt c (fun x => { x with chainR := some code.toNat })).restoreChain c else s

/-- CKPT_KEY_OUTCOME_MSG (R358, R360, R364, R409). -/
def execCkptKeyOutcomeMsg (h : RedHdr) (msg : CkptMsg) (s : State) : Result :=
  .next (s.redIn h (s.redDir h) 6 (ckptBody msg) (fun s => s.ckTake h.ctx.val msg))

/-! ## Buddy copies and moved layers -/

/-- True when both buddy banks of a context lie in the buddy region of one far-memory die (R367, R391). -/
def State.banksOk (s : State) (c : Nat) : Bool :=
  let b := s.get (R.CKPT_BBASE.base c)
  let n := 2 * s.get (R.CKPT_BBSIZE.size c)
  (List.range 2).any (fun f => decide (s.get (R.FAR_BUDDY.base f) ≤ b ∧ b + n ≤ s.get (R.FAR_BUDDY.base f) + s.get (R.FAR_BUDDY.size f)))

/-- The bank of a context's buddy copies that is not current. -/
def State.otherBank (s : State) (c : Nat) : Nat := if s.flag (R.CKPT_BSTEP.valid c) then 1 - s.get (R.CKPT_BSTEP.bank c) else 0

/-- The acknowledgement of a copy of `step`, sent to the module copied, with whether the copy fits its bank (R368, R409, R545). -/
def State.buddyAck (s : State) (c step : Nat) (fits : Bool) : State :=
  let m := s.moduleOf c
  if 0 < m then s.redOn c (s.get (R.RED_CTL.prev c)) (m - 1) 7 [step, b2n fits]
  else s.redOn c (s.wrapLink c (R.RED_CTL.next c)) (s.lastModule c) 7 [step, b2n fits]

/-- A piece of a copy at the holder (R368, R391, R392): it goes into the bank that is not current. A copy that does not fit its bank is CKPT_SPACE,
once a copy; banks outside the buddy region, and memory in self-refresh, take nothing. The holder answers such a copy at its last piece too, so that the
module copied goes on without it (DESIGN CHOICE, log entry 125). A copy of a step before a redraw is dropped (R370). -/
def State.buddyTake (s : State) (c step off : Nat) (data : List Byte) (last : Bool) : State :=
  let size := s.get (R.CKPT_BBSIZE.size c)
  if s.flag (R.CKPT_BUDDY.en c) = false ∨ ((s.job c).redrawn.any (fun L => decide (step ≤ L))) = true then s
  else
    let tooBig := decide (size < off + data.length)
    let out := !s.banksOk c || s.patrolPaused
    let was := (s.ckpt c).bover
    let s := if tooBig && !was then s.ckRaise c 11 step
             else if !s.banksOk c && !was then s.cfgRange (some c) (s.get (R.CKPT_BBASE.base c)) else s
    if tooBig || out || was then
      let s := s.modCkpt c (fun x => { x with bin := none, bover := !last })
      if last then s.buddyAck c step false else s
    else
      let s := s.s0Write (some c) (s.get (R.CKPT_BBASE.base c) + s.otherBank c * size + off) data
      s.modCkpt c (fun x => { x with bin := if last then some step else none })

/-- The link on which copies come: prev, or the wrap link at module 0 (R409, R545). -/
def State.copyLink (s : State) (c : Nat) : Nat := if 0 < s.moduleOf c then s.get (R.RED_CTL.prev c) else s.wrapLink c (R.RED_CTL.next c)

/-- The link on which acknowledgements of copies come: next, or the wrap link at the last module. -/
def State.ackLink (s : State) (c : Nat) : Nat := if s.moduleOf c < s.lastModule c then s.get (R.RED_CTL.next c) else s.wrapLink c (R.RED_CTL.prev c)

/-- BUDDY_COPY_MSG (R368, R391, R392, R409). -/
def execBuddyCopyMsg (h : RedHdr) (step off : BitVec 48) (data : List (BitVec 8)) (last : Bool) (s : State) : Result :=
  let c := h.ctx.val
  .next (s.redIn h (s.copyLink c) 7 (step.toNat :: off.toNat :: b2n last :: data.map BitVec.toNat)
    (fun s => s.buddyTake c step.toNat off.toNat data last))

/-- An acknowledgement at the module copied (R351, R368): its wait ends; a copy that the holder could not take is CKPT_SPACE here too, at each step. -/
def State.buddyAcked (s : State) (c : Nat) (fits : Bool) : State :=
  if (s.ckpt c).bread then s
  else
    let s := if fits || !(s.ckpt c).bwait then s else s.ckRaise c 11 (s.ckpt c).bstep
    s.modCkpt c (fun x => { x with bwait := false })

/-- BUDDY_ACK (R351, R368): without `recv`, the holder makes the bank current and acknowledges; with it, the acknowledgement arrives at the module copied,
saying whether the copy fits. -/
def execBuddyAck (h : RedHdr) (recv : Option Bool) (s : State) : Result :=
  let c := h.ctx.val
  .next (match recv with
    | some fits => s.redIn h (s.ackLink c) 7 [(s.ckpt c).bstep, b2n fits] (fun s => s.buddyAcked c fits)
    | none => match (s.ckpt c).bin with
      | none => s
      | some step =>
        let bank := s.otherBank c
        let s := s.puts [(R.CKPT_BSTEP.valid c, 1), (R.CKPT_BSTEP.bank c, bank), (R.CKPT_BSTEP.step c, step)]
        (s.modCkpt c (fun x => { x with bin := none })).buddyAck c step true)

/-- A piece of moved layer state written (R271): a layer's master weights (kind 0) or a moment (kinds 1 and 2) at the layer list's address. Memory in
self-refresh takes nothing (R392). -/
def State.layerTake (s : State) (c layer kind off : Nat) (data : List Byte) : State :=
  match (s.cutTable c 0).filter (fun t => decide (layer < t.layers.length)) with
  | none => s
  | some t =>
    let a := s.layerAddr c t layer kind + off
    if s.permits c a data.length true && !s.patrolPaused then s.s0Write (some c) a data else s

/-- LAYER_STATE_MSG (R271, R409). -/
def execLayerStateMsg (h : RedHdr) (layer : BitVec 16) (kind : BitVec 2) (off : BitVec 48) (data : List (BitVec 8)) (next : Bool)
    (s : State) : Result :=
  let c := h.ctx.val
  .next (s.redIn h (if next then s.get (R.RED_CTL.next c) else s.get (R.RED_CTL.prev c)) 8
    (layer.toNat :: kind.toNat :: off.toNat :: data.map BitVec.toNat) (fun s => s.layerTake c layer.toNat kind.toNat off.toNat data))

end Sys2Proof.Machine
end

