-- ==== Sys2Proof/Machine/Links.lean ====
section
/-! DEFINITION. Machine/Links.lean: cages (R398, R399), Skidway sessions, channels and reduction routes (R400 to R413, R425, R426) and the
Ethernet ports (R414, R415). -/

namespace Sys2Proof.Machine

/-! ## Cages and modes (R398) -/

/-- True when link `k` exists in a Skidway mode of its cage (R398). -/
def State.skwMode (s : State) (k : Nat) : Bool :=
  let m := s.get (R.CAGE_CTL.mode (k / 2))
  decide (k < 24) && (decide (m = 2) || (decide (m = 1) && decide (k % 2 = 0)))

/-- True when link `k` exists in an Ethernet mode of its cage (R398). -/
def State.ethMode (s : State) (k : Nat) : Bool :=
  let m := s.get (R.CAGE_CTL.mode (k / 2))
  decide (k < 24) && (decide (m = 4) || (decide (m = 3) && decide (k % 2 = 0)))

/-- The edge die of a link (R548). -/
def atLink (k : Nat) : Where := atEdge (k / 4)

/-- The lock bit of a link. -/
def State.setLock (s : State) (k : Nat) (on : Bool) : State :=
  let f := R.CAGE_STAT.lock (k / 2)
  s.put f (setBits (s.get f) (k % 2) 1 (b2n on))

/-! ## Flumes on a link (R148, R149, R158) -/

/-- The channels committed to link `k`. -/
def State.chansOn (s : State) (k : Nat) : List Nat :=
  s.regs.filterMap (fun e =>
    let ch := (e.1 - 8 * 0x03B1_0000) / 64
    if 8 * 0x03B1_0000 ≤ e.1 ∧ ch < 8192 ∧ e.1 = (R.SKW_CHAN.en ch).a ∧ s.get (R.SKW_CHAN.link ch) = k then some ch else none)

/-- The flume that a channel carries. -/
def State.flumeOn (s : State) (ch : Nat) : Option Nat := s.boundFlumes.find? (fun f => decide (s.flmChan f = some ch))

/-- The flume that a channel carried until its close ended (R162). -/
def State.flumeWas (s : State) (ch : Nat) : Option Nat :=
  (s.flumes.map Prod.fst).find? (fun f => decide (s.flmState f = flmUNBOUND ∧ (s.flume f).was = some ch))

/-- The remote flumes of link `k`. -/
def State.flumesOn (s : State) (k : Nat) : List Nat :=
  s.boundFlumes.filter (fun f => match s.flmChan f with
    | some ch => s.flag (R.SKW_CHAN.en ch) && decide (s.get (R.SKW_CHAN.link ch) = k)
    | none => false)

/-- A flume goes HELD (R158). -/
def State.holdFlume (s : State) (f : Nat) (g : Flume → Flume) : State :=
  let open_ := s.flmState f = flmOPEN
  let x := g (s.flume f)
  let s := s.setFlume f (if open_ then { x with heldSince := s.now } else x)
  if open_ then (s.put (R.FLM_STAT.state f) flmHELD).flmSync f else s

/-- A flume goes HELD for a cause of its own end, and its remote end is told (R158). -/
def State.holdHere (s : State) (f : Nat) (g : Flume → Flume) : State :=
  let tell := s.flmState f = flmOPEN
  let s := s.holdFlume f g
  match s.flmChan f with
  | some ch => if tell then s.skwCtrl (s.get (R.SKW_CHAN.link ch)) .held [s.get (R.SKW_CHAN.peer ch)] else s
  | none => s

/-- A HELD flume none of whose causes holds goes OPEN, and its staged records are sent again in order (R149, R158). -/
def State.freeFlume (s : State) (f : Nat) : State :=
  let x := s.flume f
  if s.flmState f = flmHELD ∧ !x.linkDown ∧ !x.opening ∧ !x.halfDown ∧ !x.peerHeld ∧ !x.mismatch ∧ s.flag (R.FLM_STAT.peer_closed f) = false then
    let s := (s.put (R.FLM_STAT.state f) flmOPEN).flmSync f
    x.staged.foldl (fun s r => s.recFrames f r) s
  else s

/-! ## Sessions (R403, R404, R411 to R413) -/

/-- A session is gone: its numbers, its buffer and its blocks; the messages not acknowledged are kept (R404). Its flumes are HELD
(R158). -/
def State.skwDrop (s : State) (k st : Nat) : State :=
  let x := s.skw k
  let s := s.setSkw k { SkwLink.empty with red := x.red, locked := x.locked, fails := x.fails, notice := x.notice, strays := x.strays }
  let s := s.put (R.SKW_LINK.state k) st
  (s.flumesOn k).foldl (fun s f => s.holdFlume f (fun x => { x with linkDown := true, opening := true })) s

/-- A link enters recovery (R404). -/
def State.skwRecover (s : State) (k : Nat) : State := (s.skwDrop k 4).count (R.SKW_LINK.recov k) 1

/-- A fresh nonce (R411). -/
def State.takeNonce (s : State) : State × Nat := ({ s with free := s.free + 1 }, (Config.nonce s.free).toNat)

/-- The kid of this device's Skidway identity, as a number (R320, R413). -/
def State.skwKid (s : State) : Nat := beNat (kidOf (ecPublic s.mfg.skwKey))

/-- The two keys that a shared secret gives with the nonces of this end and of the peer: that of the sending direction and that of the receiving one
(R413). The end with the lower kid has its nonce first and its key in the first half; kids compare as big-endian numbers (DESIGN CHOICE, log
entry 60). -/
def State.skwKeys (s : State) (k : Nat) (secret : List Byte) (mine theirs : Nat) : List Byte × List Byte :=
  let low := decide (s.skwKid < (s.skw k).peer.1)
  let salt := if low then leBytes 32 mine ++ leBytes 32 theirs else leBytes 32 theirs ++ leBytes 32 mine
  let ks := hkdf384 salt secret (ascii "Caerlen skidway v3") 64
  if low then (ks.take 32, ks.drop 32) else (ks.drop 32, ks.take 32)

/-- The bytes of a CAPS message with a chain (R411): ver_min, ver_max, the record format version, the nonce and the chain. -/
def capsBytes (vmin vmax nonce : Nat) (chain : List Byte) : List Byte := leBytes 1 vmin ++ leBytes 1 vmax ++ [1] ++ leBytes 32 nonce ++ chain

/-- Frames of a CAPS message whose chain has `n` bytes. -/
def capsFrames (n : Nat) : Nat := ceilDiv (35 + n) 248

/-- The Skidway identity certificate chain: root and product CA, then the device's own certificate (R411, R469). -/
def State.skwChain (s : State) : List Byte := (List.range Config.caLen.toNat).map Config.caByte ++ s.mfg.skwCert

/-- A message in clear CTRL frames, 248 bytes each (R411, R413). -/
def State.skwClear (s : State) (k : Nat) (m : Ctrl) (bs : List Byte) : State :=
  (List.range (ceilDiv bs.length 248)).foldl (fun s i =>
    let body := m.sub :: ((bs.drop (248 * i)).take 248).map BitVec.toNat
    s.skwPut k ftCTRL body (frameFront ftCTRL body)) s

/-- A write that names a link as its target: refused where the link's edge die is absent (R35), dropped while that die's half is in reset
(R25). -/
def State.onLink (s : State) (k : Nat) (go : State) : State :=
  if s.edgeFitted (k / 4) = false then s.raise E.CFG_ABSENT none (atEdge (k / 4)) k
  else if s.halfInReset (k / 12) then s.raise E.LINK_HALF_DOWN none (atEntry (ldOfEdge (k / 4))) k
  else go

/-- SKW_CMD retrain (R404, R411, R413). -/
def execSkwCmdRetrain (k : Fin 24) (s : State) : Result :=
  let k := k.val
  .next (s.gated 0x03B0_2000 (s.onLink k (if s.skwMode k then
      let s := s.skwRecover k
      s.setSkw k { s.skw k with locked := false, fails := [] }
    else s)))

/-- A re-key of the sending direction: a message with a fresh nonce, and a marker behind which the open block closes and the new key takes over
(R413). The key comes from the shared secret with the fresh nonce of the sending end and the session's nonce of the other (DESIGN CHOICE, log entry
60). -/
def State.skwRekey (s : State) (k : Nat) (mine : Bool) : State :=
  let (s, n) := s.takeNonce
  let x := s.skw k
  let s := s.setSkw k { x with rekey := mine, newKey := some (s.skwKeys k x.secret n x.peer.2).1 }
  (s.skwCtrlBytes k .rekey (leBytes 32 n)).skwCtrl k .mark []

/-- SKW_CMD rekey (R413). -/
def execSkwCmdRekey (k : Fin 24) (s : State) : Result := .next (s.gated 0x03B0_2000 (s.onLink k.val (if s.skwUp k.val then s.skwRekey k.val true else s)))

/-- SKW_REKEY_COUNT (R413): at 2^31 blocks. -/
def execSkwRekeyCount (k : Fin 24) (s : State) : Result :=
  let x := s.skw k.val
  .next (if s.skwUp k.val ∧ (2 ^ 31 ≤ x.txBlk ∨ 2 ^ 31 ≤ x.rxBlk) then s.skwRekey k.val true else s)

/-- SKW_REKEY_MARK (R413): the two frames of the peer's re-key give its direction a new key; an end that has not re-keyed yet answers with its own. -/
def execSkwRekeyMark (m : SkwMark) (s : State) : Result :=
  let k := m.link.val
  .next (if s.skwUp k then
      let s := s.skwTake k 2
      let x := s.skw k
      let key := (s.skwKeys k x.secret x.nonce m.nonce.toNat).2
      let s := s.setSkw k { x with rxBlk := 0, rekey := false, keys := x.keys.map (fun q => (q.1, key)) }
      if x.rekey then s else s.skwRekey k false
    else s)

/-- SKW_LANES_TRAINED (R411 step 2): a new session's numbers start at 0 and the CAPS message goes out in clear. -/
def execSkwLanesTrained (k : Fin 24) (s : State) : Result :=
  let k := k.val
  .next (
    if s.ethMode k then s.setLock k true
    else if s.skwMode k ∧ (s.get (R.SKW_LINK.state k) = 1 ∨ s.get (R.SKW_LINK.state k) = 4) then
      let s := (s.setLock k true).put (R.SKW_LINK.state k) 2
      let (s, n) := s.takeNonce
      let x := s.skw k
      let s := s.setSkw k { SkwLink.empty with red := x.red, locked := x.locked, fails := x.fails, strays := x.strays, nonce := n }
      s.skwClear k .caps (capsBytes (s.get (R.SKW_LINK.ver_min k)) (s.get (R.SKW_LINK.ver_max k)) n s.skwChain)
    else s)

/-- SKW_CAPS (R411 steps 3 to 5): the highest common version, the record format version 1, the peer's chain, its kid against the pin, and the keys of
the session; `recOk` says that the peer accepts record format version 1 and `chainOk` that its chain leads to an accepted root and names its key. -/
def execSkwCaps (k : Fin 24) (vmax vmin : BitVec 2) (recOk : Bool) (nonce : BitVec 256) (peer : SkwPeer) (chainOk : Bool) (s : State) :
    Result :=
  let k := k.val
  let v := min vmax.toNat (s.get (R.SKW_LINK.ver_max k))
  let pin := s.get (R.SKW_LINK.pin k)
  let kid := kidOf peer.key
  let front := leNat (kid.take 8)
  .next (
    if s.get (R.SKW_LINK.state k) ≠ 2 ∨ (s.skw k).caps then s
    else
      let s := s.skwTake k (capsFrames peer.chain.length)
      if v < max vmin.toNat (s.get (R.SKW_LINK.ver_min k)) ∨ !recOk then (s.raise E.LINK_VERSION none (atLink k) k).skwDrop k 0
      else match ecdh s.mfg.skwKey peer.key, chainOk && decide (pin = 0 ∨ pin = front) with
        | some secret, true =>
          let s := s.puts [(R.SKW_LINK.ver k, v), (R.SKW_LINK.peer k, front)]
          let s := s.setSkw k { s.skw k with caps := true, peer := (beNat kid, nonce.toNat), secret := secret }
          let s := s.setSkw k { s.skw k with keys := some (s.skwKeys k secret (s.skw k).nonce nonce.toNat) }
          s.skwFrame k ftCTRL [Ctrl.keyed.sub]
        | _, _ => (s.raise E.LINK_AUTH none (atLink k) k).skwDrop k 0)

/-- The open exchange of a flume when its link comes up; a flume that closes tells the other end so (R148, R162, R425). -/
def State.reopen (s : State) (f : Nat) : State :=
  let s := s.setFlume f { s.flume f with linkDown := false }
  if s.flmState f = flmCLOSING then
    (match s.flmChan f with
    | some ch => s.skwCtrl (s.get (R.SKW_CHAN.link ch)) .close [s.get (R.SKW_CHAN.peer ch)]
    | none => s)
  else if s.flmState f = flmZEROING then s
  else s.openMsg f .openReq

/-- SKW_KEYED (R411 step 5): UP; every channel performs its open exchange and the messages not acknowledged are sent whole (R404). -/
def execSkwKeyed (k : Fin 24) (s : State) : Result :=
  let k := k.val
  .next (
    if s.get (R.SKW_LINK.state k) ≠ 2 ∨ (s.skw k).caps = false then s
    else
      let s := (s.skwTake k 1).put (R.SKW_LINK.state k) 3
      let s := (s.flumesOn k).foldl State.reopen s
      (s.skw k).red.foldl (fun s m => s.redPut k m) s)

/-- SKW_RECOVERY (R404). -/
def execSkwRecovery (k : Fin 24) (s : State) : Result :=
  .next (if s.skwMode k.val ∧ (s.get (R.SKW_LINK.state k.val) = 2 ∨ s.get (R.SKW_LINK.state k.val) = 3) then s.skwRecover k.val else s)

/-- The lanes of a link lose lock (R404). -/
def State.loseLock (s : State) (k : Nat) : State :=
  let st := s.get (R.SKW_LINK.state k)
  let s := s.setLock k false
  if s.skwMode k ∧ (st = 2 ∨ st = 3) then s.skwRecover k else s

/-- SKW_LOCK_LOSS (R404). -/
def execSkwLockLoss (k : Fin 24) (s : State) : Result :=
  .next (if bit (s.get (R.CAGE_STAT.lock (k.val / 2))) (k.val % 2) then s.loseLock k.val else s)

/-- SKW_SESSION_TIMEOUT (R404): not up within 100 ms. -/
def execSkwSessionTimeout (k : Fin 24) (s : State) : Result :=
  let k := k.val
  let st := s.get (R.SKW_LINK.state k)
  .next (if st = 1 ∨ st = 2 ∨ st = 4 then (s.skwDrop k 5).raise E.LINK_DOWN none (atLink k) k else s)

/-- SKW_BRINGUP_RETRY (R404, R413): a link that three TAG failures stopped waits for SKW_CMD retrain. -/
def execSkwBringupRetry (k : Fin 24) (s : State) : Result :=
  .next (if s.get (R.SKW_LINK.state k.val) = 5 ∧ (s.skw k.val).locked = false then s.put (R.SKW_LINK.state k.val) 1 else s)

/-- SKW_VERSION_WRITE (R25, R35, R411, R412, R426, R455). -/
def execSkwVersionWrite (m : Master) (k : Fin 24) (vmax vmin : BitVec 2) (s : State) : Result :=
  let k := k.val
  let off := 0x03B0_1018 + 0x40 * k
  let routed := (List.range 64).any (fun c => s.flag (R.RED_CTL.en c) &&
    decide (s.get (R.RED_CTL.next c) = k ∨ s.get (R.RED_CTL.prev c) = k ∨ s.get (R.RED_CTL.wrap c) = k))
  .next (s.gated off (s.onLink k (
    if !s.owns m 4 then s.ownDrop m off
    else if routed ∧ vmin.toNat < 3 then s.cfgRange none off
    else
      let s := s.puts [(R.SKW_LINK.ver_max k, vmax.toNat), (R.SKW_LINK.ver_min k, vmin.toNat)]
      if s.skwMode k ∧ s.get (R.SKW_LINK.state k) = 0 then s.put (R.SKW_LINK.state k) 1 else s)))

/-! ## Retry (R403) -/

/-- Frames resent from number `n` on; when eight resends of one frame have failed the link recovers (R403, R404). -/
def State.skwResend (s : State) (k n : Nat) : State :=
  let x := s.skw k
  match x.replay.findIdx? (fun f => decide (f.seq = n)) with
  | none => s
  | some i =>
    let fs := x.replay.drop i
    let tries := if x.resent.2 ≠ 0 ∧ x.resent.1 = n then x.resent.2 else 0
    if 8 ≤ tries then s.skwRecover k
    else
      let s := (s.setSkw k { x with resent := (n, tries + 1) }).count (R.SKW_LINK.resend k) fs.length
      fs.foldl (fun s f => s.emit (frameOut k f.typ f.bytes)) s

/-- The peer has acknowledged the frames up to number `n`; once the session is up, the messages whose last frame is among them are done (R403, R410). -/
def State.skwAcked (s : State) (k n : Nat) : State :=
  let x := (s.skw k).ackTo n
  s.setSkw k (if s.skwUp k then x.settle else x)

/-- SKW_ACK (R403). -/
def execSkwAck (k : Fin 24) (n : BitVec 32) (s : State) : Result :=
  let k := k.val
  .next (if s.skwLive k then
      let s := s.skwAcked k n.toNat
      State.skwPump k ((s.skw k).queue.length + 1) s
    else s)

/-- SKW_NAK (R403): every frame before the one named has been accepted. -/
def execSkwNak (k : Fin 24) (n : BitVec 32) (s : State) : Result :=
  let k := k.val
  .next (if s.skwLive k then
      let tries := (s.skw k).resent
      let s := s.skwAcked k ((n.toNat + 2 ^ 32 - 1) % 2 ^ 32)
      let s := (s.setSkw k { s.skw k with resent := tries }).skwResend k n.toNat
      State.skwPump k ((s.skw k).queue.length + 1) s
    else s)

/-- SKW_REPLAY_TIMEOUT (R403). -/
def execSkwReplayTimeout (k : Fin 24) (s : State) : Result :=
  let k := k.val
  .next (if s.skwLive k then (match (s.skw k).replay with
      | [] => s
      | f :: _ => s.skwResend k f.seq) else s)

/-- SKW_CORRUPT_FRAME (R402, R403, R426): what the FEC corrected and could not is counted; a link frame is discarded, and for any other one a NAK goes at
most once per 1 µs (1,400 ac). -/
def execSkwCorruptFrame (b : SkwBad) (s : State) : Result :=
  let k := b.link.val
  let may : Bool := match (s.skw k).nakAt with
    | some t => decide (t + 1400 ≤ s.now)
    | none => true
  .next (if s.skwMode k then
      let s := (s.count (R.SKW_LINK.fec k) b.fec.toNat).count (R.SKW_LINK.uncorr k) b.uncorr.toNat
      if s.skwLive k && may && decide (ftNAK < b.typ.toNat) then (s.setSkw k { s.skw k with nakAt := some s.now }).skwLinkFrame k ftNAK (s.skw k).rx else s
    else s)

/-- SKW_ACK_TIMER (R403). -/
def execSkwAckTimer (k : Fin 24) (s : State) : Result :=
  let k := k.val
  let x := s.skw k
  .next (if s.skwLive k ∧ 0 < x.unack then
      (s.setSkw k { x with unack := 0 }).skwLinkFrame k ftACK ((x.rx + 2 ^ 32 - 1) % 2 ^ 32) else s)

/-- SKW_BLOCK_IDLE_CLOSE (R413): the sender has had nothing to send for 64 ns. -/
def execSkwBlockIdleClose (k : Fin 24) (s : State) : Result := .next (if s.skwLive k.val then s.skwTag k.val else s)

/-- SKW_TAG_CHECK (R413): a failure is counted and starts recovery; the third within 1 s (1,400,000,000 ac) stops the link. -/
def execSkwTagCheck (k : Fin 24) (ok : Bool) (s : State) : Result :=
  let k := k.val
  .next (
    if !s.skwLive k then s
    else if ok then let s := s.skwTake k 1
                    s.setSkw k { s.skw k with rxBlk := (s.skw k).rxBlk + 1 }
    else
      let s := (s.count (R.SKW_LINK.tagfail k) 1).raise E.LINK_AUTH none (atLink k) k
      let fails := s.now :: (s.skw k).fails.filter (fun t => decide (s.now < t + 1400000000))
      let s := s.setSkw k { s.skw k with fails := fails }
      if 3 ≤ fails.length then let s := s.skwDrop k 5
                               s.setSkw k { s.skw k with locked := true }
      else s.skwRecover k)

/-! ## Channels (R148, R149, R162, R405, R406) -/

/-- True when channel `ch` is enabled on the link that delivered a frame for it (R405). -/
def State.chanOk (s : State) (k ch : Nat) : Bool := s.flag (R.SKW_CHAN.en ch) && decide (s.get (R.SKW_CHAN.link ch) = k)

/-- A frame whose channel is not bound on its link is discarded, counted and logged (R405). -/
def State.chanDrop (s : State) (k ch : Nat) : State :=
  (s.setSkw k { s.skw k with strays := (s.skw k).strays + 1 }).raise E.LINK_CHAN none (atLink k) ch

/-- Several such frames, each of them. -/
def State.chanDrops (s : State) (k ch n : Nat) : State := (List.range n).foldl (fun s _ => s.chanDrop k ch) s

/-- True when rseq `a` comes before `b` on a flume. -/
def before (a b : Nat) : Bool := let d := (b + 2 ^ 32 - a) % 2 ^ 32
                                 decide (0 < d ∧ d ≤ 2 ^ 31)

/-- What the peer's open exchange says of a channel: its own channel, direction, depth, record size and pair (R148, R405). -/
structure Peer where
  own   : Nat
  dir   : Nat
  depth : Nat
  size  : Nat
  pair  : Nat
deriving DecidableEq, Repr

/-- True when the peer's end matches flume `f` on channel `ch` (R148, R405). -/
def State.sameEnd (s : State) (f ch : Nat) (p : Peer) : Bool :=
  decide (p.own = s.get (R.SKW_CHAN.peer ch) ∧ p.dir = s.get (R.FLM_DESC.dir f) ∧ p.depth = s.get (R.FLM_DESC.depth f)
    ∧ p.size = s.get (R.FLM_DESC.rec_size f) ∧ p.pair = s.get (R.FLM_DESC.pair f))

/-- A matching open exchange: the two ends reconcile by rseq (R149). -/
def Flume.reconcile (x : Flume) (p : Peer) (next held : Nat) : Flume :=
  let left := x.staged.filter (fun r => !before r.hdr.rseq next)
  { x with staged := left, out := if x.out = 0 then 0 else x.recs.length + left.length + held,
           linkDown := false, opening := false, mismatch := false, peerHeld := false, peer := some (p.dir, p.depth, p.size, p.pair) }

/-- SKW_CHANNEL_OPEN (R148, R149, R158, R405): each end answers a request with its own fields; matching ends reconcile by rseq and go OPEN, others stay
HELD with FLM_PEER_DESC at both. A channel whose flume has closed, or closes, answers with that (R425); one whose flume is not bound yet
gives its fields when it is. -/
def execSkwChannelOpen (k : Fin 24) (chan : OpenTo) (dir : BitVec 2) (depth : BitVec 13) (size : BitVec 15) (pair : BitVec 13)
    (next : BitVec 32) (held : BitVec 13) (reply : Bool) (s : State) : Result :=
  let k := k.val
  let ch := chan.chan.val
  let shut := fun (s : State) => s.skwCtrl k .close [s.get (R.SKW_CHAN.peer ch)]
  .next (
    if !s.skwUp k then s
    else
      let s := s.skwTake k 1
      if !s.chanOk k ch then s.chanDrop k ch
      else match s.flumeOn ch with
        | none => if (s.flumeWas ch).isSome && !reply then shut s else s
        | some f =>
          if s.flmState f ≠ flmOPEN ∧ s.flmState f ≠ flmHELD then (if reply then s else shut s)
          else
            let p : Peer := ⟨chan.own.toNat, dir.toNat, depth.toNat, size.toNat, pair.toNat⟩
            if s.sameEnd f ch p then
              let s := (s.setFlm f ((s.flume f).reconcile p next.toNat held.toNat)).put (R.FLM_STAT.peer_closed f) 0
              let s := if reply then s else s.openMsg f .openAck
              s.freeFlume f
            else
              let s := if reply then s else s.openMsg f .openAck
              let s := s.raise E.FLM_PEER_DESC (some (s.get (R.FLM_DESC.ctx f))) (atLd (ldOfFlume f)) f
              s.holdHere f (fun x => { x with mismatch := true }))

/-- SKW_CHANNEL_CLOSE (R158, R162): a close (0), its acknowledgement (1), or the notice that the peer end is HELD (2). -/
def execSkwChannelClose (k : Fin 24) (chan : Fin 8192) (what : Fin 3) (s : State) : Result :=
  let k := k.val
  .next (
    if !s.skwUp k then s
    else
      let s := s.skwTake k 1
      if !s.chanOk k chan.val then s.chanDrop k chan.val
      else match s.flumeOn chan.val with
        | none => if what = 0 then s.skwCtrl k .closeAck [s.get (R.SKW_CHAN.peer chan.val)] else s
        | some f =>
          let live := s.flmState f = flmOPEN ∨ s.flmState f = flmHELD
          if what = 2 then (if live then s.holdFlume f (fun x => { x with peerHeld := true }) else s)
          else
            let s := if s.flmState f = flmCLOSING then s.setFlume f { s.flume f with peerAck := true } else s
            if what = 1 then s
            else
              let s := s.skwCtrl k .closeAck [s.get (R.SKW_CHAN.peer chan.val)]
              if live then (s.holdFlume f id).put (R.FLM_STAT.peer_closed f) 1 else s)

/-- A verified record stored at the consumer end: a slot, the payload, RACK (R406); a slot write that finds a bad unit poisons it
(R135). -/
def State.storeRemote (s : State) (k f : Nat) (h : Hdr) (data : List Byte) : State :=
  match s.freeSlot f with
  | none => s
  | some (sp, i) =>
    let a := s.slotAddr f sp i
    let bad := s.writeBad a data.length
    let s := s.write a data
    let h := { h with poison := h.poison || bad }
    let x := s.flume f
    let r : FlmRec := { hdr := h, owner := 0, holder := 0, sent := true, cmt := true, ready := true, held := false, spill := sp,
                        slot := i, bad := bad, pin := none }
    let s := s.setFlm f { x with recs := x.recs ++ [r], expect := (x.expect + 1) % 2 ^ 32, copy := x.copyAfter (sp, i) }
    let s := (s.put (R.FLM_SEQ.next_cmt f) (h.rseq + 1)).count (R.FLM_CNT.records f) 1
    let s := if h.poison then s.count (R.FLM_CNT.poison f) 1 else s
    s.skwSend k 0 ftRACK [s.get (R.SKW_CHAN.peer (s.get (R.FLM_DESC.chan f))), h.rseq]

/-- SKW_RECORD_ARRIVAL (R149, R162, R405, R406): at a closed end the record is discarded and counted; the next rseq is stored; one already stored is discarded and acknowledged again; one
ahead is logged as FLM_SEQ, discarded, and the flume goes HELD. -/
def execSkwRecordArrival (k : Fin 24) (chan : Fin 8192) (hdr : BitVec 512) (data : List (BitVec 8)) (s : State) : Result :=
  let k := k.val
  let h := Hdr.ofNat hdr.toNat
  .next (
    if !s.skwUp k then s
    else
      let n := 1 + ceilDiv data.length 248
      let s := s.skwTake k n
      if !s.chanOk k chan.val then s.chanDrops k chan.val n
      else match s.flumeOn chan.val with
        | none => match s.flumeWas chan.val with
          | some f => s.count (R.FLM_CNT.discard f) 1
          | none => s
        | some f =>
          let x := s.flume f
          if s.flmState f = flmCLOSING ∨ s.flmState f = flmZEROING then s.count (R.FLM_CNT.discard f) 1
          else if h.rseq = x.expect then s.storeRemote k f h data
          else if before h.rseq x.expect then
            s.skwSend k 0 ftRACK [s.get (R.SKW_CHAN.peer chan.val), h.rseq]
          else
            let s := s.raise E.FLM_SEQ (some (s.get (R.FLM_DESC.ctx f))) (atLd (ldOfFlume f)) f
            s.holdHere f (fun x => { x with mismatch := true }))

/-- SKW_RACK (R148, R406). -/
def execSkwRack (k : Fin 24) (chan : Fin 8192) (rseq : BitVec 32) (s : State) : Result :=
  let k := k.val
  .next (
    if !s.skwUp k then s
    else
      let s := s.skwTake k 1
      if !s.chanOk k chan.val then s.chanDrop k chan.val
      else match s.flumeOn chan.val with
        | none => s
        | some f => let x := s.flume f
                    s.setFlm f { x with staged := x.staged.filter (fun r => decide (r.hdr.rseq ≠ rseq.toNat)) })

/-- SKW_CREDIT (R146, R406). -/
def execSkwCredit (k : Fin 24) (chan : Fin 8192) (n : BitVec 13) (s : State) : Result :=
  let k := k.val
  .next (
    if !s.skwUp k then s
    else
      let s := s.skwTake k 1
      if !s.chanOk k chan.val then s.chanDrop k chan.val
      else match s.flumeOn chan.val with
        | none => s
        | some f => let x := s.flume f
                    s.setFlm f { x with out := x.out - n.toNat })

/-- SKW_DOWN_NOTICE (R538, R544): the peer has stopped; the notice is kept for the module's loss to be declared. -/
def execSkwDownNotice (k : Fin 24) (s : State) : Result :=
  let k := k.val
  .next (if s.skwUp k then
      let s := s.skwTake k 1
      s.setSkw k { s.skw k with notice := true }
    else s)

/-- RED_MESSAGE_UNLISTED_KIND (R410): discarded and logged. -/
def execRedMessageUnlistedKind (k : Fin 24) (c : Fin 64) (kind : BitVec 8) (len : BitVec 16) (s : State) : Result :=
  let k := k.val
  .next (if s.skwUp k ∧ (kind.toNat = 0 ∨ 9 < kind.toNat) then
      (s.skwTake k (ceilDiv (32 + len.toNat) 248)).raise E.LINK_CHAN (some c.val) (atLink k) kind.toNat
    else s)

/-! ## Commits (R399, R405, R409, R412, R425, R426) -/

/-- True when a committed reduction route names a link of cage `n`, an enabled channel or an enabled haul source uses it. -/
def State.cageUsed (s : State) (n : Nat) : Bool :=
  (List.range 64).any (fun i => s.flag (R.HAUL_SRC.en i) && decide (s.get (R.HAUL_SRC.cage i) = n))
  || !(s.chansOn (2 * n)).isEmpty || !(s.chansOn (2 * n + 1)).isEmpty
  || (List.range 64).any (fun c => s.flag (R.RED_CTL.en c) &&
      decide (s.get (R.RED_CTL.next c) / 2 = n ∨ s.get (R.RED_CTL.prev c) / 2 = n ∨ s.get (R.RED_CTL.wrap c) / 2 = n))

/-- A link goes down; in a Skidway mode bring-up starts (R399, R411). -/
def State.linkRestart (s : State) (k : Nat) : State :=
  let s := (s.skwDrop k 0).setLock k false
  if s.skwMode k then s.put (R.SKW_LINK.state k) 1 else s

/-- The sources of a cage lose their connections (R326). -/
def State.cageSources (s : State) (n : Nat) : State :=
  (List.range 64).foldl (fun s i =>
    if s.flag (R.HAUL_SRC.en i) ∧ s.get (R.HAUL_SRC.cage i) = n ∧ s.get (R.HAUL_SSTAT.state i) = 2 then
      s.connect i else s) { s with ethPause := KMap.drop (KMap.drop s.ethPause (2 * n)) (2 * n + 1), ethHeld := KMap.drop s.ethHeld n }

/-- CAGE_COMMIT (R399). -/
def execCageCommit (n : Fin 16) (s : State) : Result :=
  let n := n.val
  let m := s.sget (R.CAGE_CTL.mode n)
  let res := fun (s : State) r => s.puts [(R.CAGE_CSTAT.result, r), (R.CAGE_CSTAT.cage, n)]
  .next (s.gated 0x03B0_0100 (
    if s.flag R.CAGE_CSTAT.busy then s.cfgRange none n
    else if s.cageFitted n = false then res (s.raise E.CFG_ABSENT none (atEdge (n / 2)) n) 3
    else if s.halfInReset (n / 6) then s.raise E.LINK_HALF_DOWN none (atEntry (ldOfEdge (n / 2))) n
    else if 4 < m ∨ (m ≠ s.get (R.CAGE_CTL.mode n) ∧ s.cageUsed n) then res (s.raise E.CFG_COMMIT none (atEdge (n / 2)) n) 2
    else
      let s := ((s.commit [R.CAGE_CTL.mode n]).linkRestart (2 * n)).linkRestart (2 * n + 1)
      (res (s.cageSources n) 1).holdDomains))

/-- SKW_CCOMMIT (R405, R425, R426): refused for a link outside a Skidway mode, a channel of another context, or a channel that a bound
remote flume names. -/
def execSkwCcommit (ch : Fin 8192) (s : State) : Result :=
  let ch := ch.val
  let c := s.sget (R.SKW_CHAN.ctx ch)
  let k := s.sget (R.SKW_CHAN.link ch)
  let res := fun (s : State) r => s.puts [(R.SKW_CCSTAT.result, r), (R.SKW_CCSTAT.chan, ch)]
  .next (s.gated 0x03B2_0000 (
    if s.flag R.SKW_CCSTAT.busy then s.cfgRange none ch
    else if k < 24 ∧ s.halfInReset (k / 12) = true then s.raise E.LINK_HALF_DOWN (some c) (atEntry (ldOfEdge (k / 4))) ch
    else if s.leaving c || !s.skwMode k || (s.flag (R.SKW_CHAN.en ch) && decide (s.get (R.SKW_CHAN.ctx ch) ≠ c))
        || (s.flumeOn ch).isSome then
      res (s.raise E.CFG_COMMIT (some c) (atLink k) ch) 2
    else res (s.commit [R.SKW_CHAN.en ch, R.SKW_CHAN.ctx ch, R.SKW_CHAN.link ch, R.SKW_CHAN.peer ch]) 1))

/-- RED_COMMIT (R409, R412, R425, R426). The message numbers of the context start again at 0 with an accepted route (DESIGN CHOICE, log entry 154). -/
def execRedCommit (c : Fin 64) (s : State) : Result :=
  let c := c.val
  let links := [s.sget (R.RED_CTL.next c), s.sget (R.RED_CTL.prev c), s.sget (R.RED_CTL.wrap c)].filter (· ≠ 31)
  let flying := (List.range 24).any (fun k => (s.skw k).red.any (fun m => decide (m.ctx = c)))
  let res := fun (s : State) r => s.puts [(R.RED_CSTAT.result, r), (R.RED_CSTAT.ctx, c)]
  .next (s.gated 0x03B3_1000 (
    if s.flag R.RED_CSTAT.busy then s.cfgRange none c
    else if s.leaving c || flying || links.any (fun k => !s.skwMode k || decide (s.get (R.SKW_LINK.ver_min k) < 3)) then
      res (s.raise E.CFG_COMMIT (some c) (atSteward 0) c) 2
    else
      let s := s.commit [R.RED_CTL.en c, R.RED_CTL.wrap c, R.RED_CTL.prev c, R.RED_CTL.next c]
      res { s with redTx := s.redTx.filter (fun e => decide (e.1 % 64 ≠ c)), redRx := s.redRx.filter (fun e => decide (e.1 % 64 ≠ c)) } 1))

/-! ## The cage itself (R549) -/

/-- CAGE_PRESENCE_CHANGE: a cable or module is plugged in or taken out; without one the links of the cage lose lock. -/
def execCagePresenceChange (n : Fin 12) (present : Bool) (s : State) : Result :=
  let n := n.val
  .next (if s.cageFitted n = false then s
    else
      let s := s.put (R.CAGE_STAT.present n) (b2n present)
      if present then s else ((s.loseLock (2 * n)).loseLock (2 * n + 1)).cageSources n)

/-- CAGE_MODULE_OVERPOWER (R549, R563): the module loses its power and reads not present; in mode 0 it has none to draw. -/
def execCageModuleOverpower (n : Fin 12) (s : State) : Result :=
  let n := n.val
  .next (if s.cageFitted n = false ∨ s.get (R.CAGE_CTL.mode n) = 0 then s
    else (((s.put (R.CAGE_STAT.present n) 0).loseLock (2 * n)).loseLock (2 * n + 1)).cageSources n)

/-! ## Ethernet (R414, R415) -/

/-- The local addresses of a port: the laddr of the enabled sources on its cage (R326, R415). -/
def State.portAddrs (s : State) (k : Nat) : List (List Byte) :=
  (List.range 64).filterMap (fun i =>
    if s.flag (R.HAUL_SRC.en i) && decide (s.get (R.HAUL_SRC.cage i) = k / 2) then some (((KMap.find (fun _ => []) s.srcConn i).drop 530).take 16)
    else none)

/-- True when a source has an open connection through port `k` (R326, R415). -/
def State.connHere (s : State) (k i : Nat) : Bool :=
  s.flag (R.HAUL_SRC.en i) && decide (s.get (R.HAUL_SRC.cage i) = k / 2 ∧ s.get (R.HAUL_SSTAT.state i) = 2)

/-- A reply of a port to a request for `target`, if that is one of its addresses: to the sender, from the port's MAC address, on its VLAN (R415). -/
def State.ethReply (s : State) (k kind : Nat) (mac : BitVec 48) (sender target data : List Byte) : Option Out :=
  if (s.portAddrs k).contains target then
    some (.ethFrame k kind ([mac.toNat, s.mfg.macs.getD k 0, s.get (R.ETH_PORT.vlan k)] ++ (target ++ sender ++ data).map BitVec.toNat))
  else none

/-- The answer of port `k` to a request for one of its addresses (R415): an ARP reply (1) and a Neighbour
Advertisement (2) give the port's MAC address for the target, an echo reply (3) returns the data. -/
def State.ethAnswer (s : State) (k : Nat) : EthKind → Option Out
  | .arp mac sender target => s.ethReply k 1 mac sender target []
  | .solicit mac sender target => s.ethReply k 2 mac sender target []
  | .echo mac sender target data => s.ethReply k 3 mac sender target data
  | .conn _ | .pfc _ _ | .fragment | .other => none

/-- True for a frame that belongs to an open connection (R415). -/
def State.ethTaken (s : State) (k : Nat) : EthKind → Bool
  | .conn i => s.connHere k i.val
  | .arp _ _ _ | .solicit _ _ _ | .echo _ _ _ _ | .pfc _ _ | .fragment | .other => false

/-- ETH_FRAME_RECEIVE (R414, R415): a request for an address of the port is answered, a frame of an open connection taken, and every other dropped, as is one
beyond the port's length or on another VLAN. A frame of priority flow control holds back or lets go the storage traffic of its priority; when a
pause ends by itself is not in the model (DESIGN CHOICE, log entry 163). -/
def execEthFrameReceive (k : Fin 24) (len : BitVec 14) (vlan : BitVec 12) (kind : EthKind) (s : State) : Result :=
  let k := k.val
  let drop := fun (s : State) => s.count (R.ETH_CNT.drop k) 1
  .next (if s.ethMode k then
      let s := s.count (R.ETH_CNT.rx k) 1
      match kind with
      | .pfc prio on =>
        if s.flag (R.ETH_PORT.pfc_en k) ∧ prio.toNat = s.get (R.ETH_PORT.pcp k) then
          ({ s with ethPause := KMap.put (fun _ => false) s.ethPause k on } : State).ethRelease (k / 2)
        else drop s
      | _ =>
        if s.get (R.ETH_PORT.mtu k) < len.toNat ∨ vlan.toNat ≠ s.get (R.ETH_PORT.vlan k) then drop s
        else match s.ethAnswer k kind with
          | some o => (s.count (R.ETH_CNT.tx k) 1).emit o
          | none => if s.ethTaken k kind then s else drop s
    else s)

/-- The number of a queue pair. -/
def qpKey (q : EthQp) : Nat := 17 * q.src.val + q.queue.val

/-- The rate of a queue pair, as the fraction m / 2^e of the line rate (R414). -/
def State.rate (s : State) (q : EthQp) : Nat × Nat := KMap.find (fun _ => (1, 0)) s.ethRate (qpKey q)

/-- True for an open queue pair of a source on RoCEv2 through port `k` (R326, R414). -/
def State.qpOpen (s : State) (k : Nat) (q : EthQp) : Bool :=
  s.connHere k q.src.val && decide (s.get (R.HAUL_SRC.transport q.src.val) = 1) &&
    decide (q.queue.val ≤ fieldAt (KMap.find (fun _ => []) s.srcConn q.src.val) 548 1)

/-- ETH_CNP_RECEIVE (R414, R415): the queue pair's rate is halved; a notification for a queue pair that is not open is dropped. -/
def execEthCnpReceive (k : Fin 24) (q : EthQp) (s : State) : Result :=
  let k := k.val
  .next (if s.ethMode k then
      let s := (s.count (R.ETH_CNT.rx k) 1).count (R.ETH_CNT.cnp k) 1
      if s.qpOpen k q then { s with ethRate := KMap.put (fun _ => (1, 0)) s.ethRate (qpKey q) ((s.rate q).1, (s.rate q).2 + 1) }
      else s.count (R.ETH_CNT.drop k) 1
    else s)

/-- ETH_RATE_INCREASE (R414): 55 µs without a notification raise the rate by 1/16 of the line rate, to the line rate at most. -/
def execEthRateIncrease (q : EthQp) (s : State) : Result :=
  let r := s.rate q
  let e := max r.2 4
  let m := r.1 * 2 ^ (e - r.2) + 2 ^ (e - 4)
  .next { s with ethRate := KMap.put (fun _ => (1, 0)) s.ethRate (qpKey q) (if 2 ^ e ≤ m then (1, 0) else (m, e)) }

end Sys2Proof.Machine
end

