-- ==== Sys2Proof/Machine/Spine.lean ====
section
/-! DEFINITION. Machine/Spine.lean: the four landing-die links: retry (R417), training rounds and width claims (R418), loss (R20, R21) and
holding (R419). Link i has a lower-numbered and a higher-numbered end (`hi`), each with its own epoch. -/

namespace Sys2Proof.Machine

/-- The half of an end of a landing-die link (R416). -/
def spnHalf (i : Nat) (hi : Bool) : Nat := if i = 1 then 1 else if i = 0 then 0 else b2n hi

/-- An end of a link in training. -/
def State.spnEnd (s : State) (i : Nat) (hi : Bool) : SpnEnd := KMap.find (fun _ => SpnEnd.empty) s.spn (spnKey i hi)

/-- An end replaced. -/
def State.setSpn (s : State) (i : Nat) (hi : Bool) (x : SpnEnd) : State :=
  { s with spn := KMap.put (fun _ => SpnEnd.empty) s.spn (spnKey i hi) x }

/-- The register that holds the epoch of an end (R427). -/
def epochFld (i : Nat) (hi : Bool) : Fld := if hi then R.SPN_LINK.epoch_hi i else R.SPN_LINK.epoch i

/-- Quarters in a mask. -/
def popcount4 (m : Nat) : Nat := b2n (bit m 0) + b2n (bit m 1) + b2n (bit m 2) + b2n (bit m 3)

/-- The lowest quarter of a mask, quarter 0 of an empty one (R418). -/
def lowestQuarter (m : Nat) : Nat := if bit m 0 then 1 else if bit m 1 then 2 else if bit m 2 then 4 else if bit m 3 then 8 else 1

/-- An end sends its claim of the current round (R418). -/
def State.spnSendClaim (s : State) (i : Nat) (hi : Bool) : State :=
  let x := s.spnEnd i hi
  s.emit (.flit i 0 [b2n hi, x.round, x.mask, s.get (epochFld i hi)])

/-- A link is lost (R20, R21, R428): both spine links, both within-half links, or a within-half link together with a spine link, leave no path;
otherwise its packets take another. Of the two landing dies of the link lost last, the lower-numbered raises LINK_FATAL: the spec says only 'landing die' (DESIGN
CHOICE, log entry 104). -/
def State.spnLose (s : State) (i : Nat) : State :=
  let s := (s.setSpn i false SpnEnd.empty).setSpn i true SpnEnd.empty
  let s := (s.puts [(R.SPN_LINK.state i, 3), (R.SPN_LINK.width i, 0), (R.SPN_LINK.mask i, 0)]).dropFlits i
  if s.noPath then s.fatal E.LINK_FATAL (atLd (spnDie i false)) i else s.reroute i

/-- SPN_TRAINING_START (R417, R418): at start-up and on a half's return, after 32 resends within 1 µs, or because the other end has
started. The epoch rises and round 1 begins with the quarters that pass the end's lane test. -/
def execSpnTrainingStart (i : Fin 4) (hi : Bool) (mask : BitVec 4) (s : State) : Result :=
  let i := i.val
  let st := s.get (R.SPN_LINK.state i)
  let x := s.spnEnd i hi
  let burst := decide (32 ≤ (KMap.find (fun _ => []) s.spnBurst i).length)
  .next (
    if s.halfDead (spnHalf i hi) || s.halfDead (spnHalf i (!hi)) then s
    else if st = 0 ∨ (st = 2 ∧ burst = true) ∨ (st = 1 ∧ x.busy = false ∧ x.agreed = false) then
      let s := if st = 1 then s else
        { (s.setSpn i (!hi) SpnEnd.empty).puts [(R.SPN_LINK.state i, 1), (R.SPN_LINK.rounds i, 0), (R.SPN_LINK.width i, 0), (R.SPN_LINK.mask i, 0)]
          with spnBurst := KMap.drop s.spnBurst i }
      let s := s.put (epochFld i hi) (s.get (epochFld i hi) + 1)
      (s.setSpn i hi { busy := true, round := 1, mask := mask.toNat, peer := none, agreed := false }).spnSendClaim i hi
    else s)

/-- A round of an end fails (R418): the claim narrows to what both claimed; the fourth failure loses the link. -/
def State.spnFail (s : State) (i : Nat) (hi : Bool) (peerMask : Nat) : State :=
  let x := s.spnEnd i hi
  let s := s.put (R.SPN_LINK.rounds i) (max (s.get (R.SPN_LINK.rounds i)) (min x.round 3))
  if 4 ≤ x.round then s.spnLose i
  else
    let m := x.mask &&& peerMask
    let m := if x.round = 3 then lowestQuarter m else m
    (s.setSpn i hi { x with round := x.round + 1, mask := m, peer := none }).spnSendClaim i hi

/-- SPN_CLAIM (R418): a claim of the end's own round is kept and echoed. -/
def execSpnClaim (i : Fin 4) (hi : Bool) (round : BitVec 3) (mask : BitVec 4) (epoch : BitVec 32) (s : State) : Result :=
  let i := i.val
  let x := s.spnEnd i hi
  .next (if x.busy ∧ round.toNat = x.round then
      (s.setSpn i hi { x with peer := some (mask.toNat, epoch.toNat) }).emit (.flit i 1 [b2n hi, round.toNat, mask.toNat, epoch.toNat])
    else s)

/-- Both ends have agreed: the link is up at the width (R418). -/
def State.spnSettle (s : State) (i mask : Nat) : State :=
  let s := (s.setSpn i false SpnEnd.empty).setSpn i true SpnEnd.empty
  let w := popcount4 mask
  let s := (s.puts [(R.SPN_LINK.state i, 2), (R.SPN_LINK.mask i, mask), (R.SPN_LINK.width i, w)]).count (R.SPN_LINK.trains i) 1
  if w = 0 then s.spnLose i
  else if w < 4 then s.raise E.LINK_WIDTH_DEGRADED none (atLd (spnDie i false)) mask else s

/-- SPN_ECHO (R418): with the peer's claim equal to its own and its own mask and epoch echoed, the end agrees. -/
def execSpnEcho (i : Fin 4) (hi : Bool) (round : BitVec 3) (mask : BitVec 4) (epoch : BitVec 32) (s : State) : Result :=
  let i := i.val
  let x := s.spnEnd i hi
  .next (if x.busy ∧ round.toNat = x.round then
      (match x.peer with
       | none => s
       | some p =>
         if p.1 = x.mask ∧ mask.toNat = x.mask ∧ epoch.toNat = s.get (epochFld i hi) then
           let s := s.setSpn i hi { x with busy := false, agreed := true }
           if (s.spnEnd i (!hi)).agreed then s.spnSettle i x.mask else s
         else s.spnFail i hi p.1)
    else s)

/-- SPN_ROUND_TIMEOUT (R418): the round ran past its 20 µs, so the claim is not narrowed. -/
def execSpnRoundTimeout (i : Fin 4) (hi : Bool) (s : State) : Result :=
  let x := s.spnEnd i.val hi
  .next (if x.busy then s.spnFail i.val hi x.mask else s)

/-- The flits that the sender towards end `hi` keeps and that the end has not accepted, oldest first (R417). -/
def State.flitsDue (s : State) (i : Nat) (hi : Bool) : List (Nat × Nat × Nat) :=
  (s.spnTxAt (spnKey i !hi)).kept.drop (s.spnTxAt (spnKey i hi)).got

/-- SPN_FLIT_RECEIVE (R417): the next flit of the link arrives at its end `hi`. It is accepted, and its acknowledgement leaves inside the next flit
the other way; where its CRC fails the sender resends from it on, and the resends of the last 1 µs (1,400 ac) are counted. A flit that carries
none of the packets of R17, an acknowledgement alone, is one flit without a number here. -/
def execSpnFlitReceive (i : Fin 4) (hi : Bool) (ok : Bool) (s : State) : Result :=
  let i := i.val
  let due := s.flitsDue i hi
  .next (if s.get (R.SPN_LINK.state i) ≠ 2 then s
    else if ok then
      let x := s.spnTxAt (spnKey i hi)
      if due = [] then s else s.setSpnTx (spnKey i hi) { x with got := x.got + 1 }
    else
      let n := max 1 due.length
      let l := List.replicate n s.now ++ (KMap.find (fun _ => []) s.spnBurst i).filter (fun t => decide (s.now < t + 1400))
      let s := { s with spnBurst := KMap.put (fun _ => []) s.spnBurst i l }.count (R.SPN_LINK.resend i) n
      if due = [] then s.emit (.flit i 2 [b2n hi]) else due.foldl (fun s f => s.emit (.flit i 2 [b2n hi, f.1, f.2.1, f.2.2])) s)

/-- The links of a half at its half reset (R419, R427): fields but the epochs reset; a spine link is held. -/
def State.spnHold (s : State) (h : Nat) : State :=
  (List.range 4).foldl (fun s i =>
    if spnHalf i false = h ∨ spnHalf i true = h then
      let s := (s.setSpn i false SpnEnd.empty).setSpn i true SpnEnd.empty
      { s.puts [(R.SPN_LINK.state i, if i < 2 then 0 else 4), (R.SPN_LINK.mask i, 0), (R.SPN_LINK.width i, 0), (R.SPN_LINK.rounds i, 0),
                (R.SPN_LINK.trains i, 0), (R.SPN_LINK.resend i, 0)] with spnBurst := KMap.drop s.spnBurst i }.dropFlits i
    else s) s

/-- The half returns: a held link waits for both ends to start training (R419). -/
def State.spnReturn (s : State) : State :=
  (List.range 4).foldl (fun s i => if s.get (R.SPN_LINK.state i) = 4 then s.put (R.SPN_LINK.state i) 0 else s) s

end Sys2Proof.Machine
end

