-- ==== Sys2Proof/Machine/Partner.lean ====
section
/-! DEFINITION. Machine/Partner.lean: the partner sites (R420 to R423), and the flume operations of a stage that no sequencer runs. -/

namespace Sys2Proof.Machine

/-! ## Flume operations of a host stage or a partner's stage (R423, R443) -/

/-- True when a sequencer of context `c` is bound to the stage. -/
def State.stageBound (s : State) (c stage : Nat) : Bool := (s.seqOfStage c stage).isSome

/-- The checks of R140 for such a stage; a stage that is bound to a sequencer is refused as FLM_STAGE (R423, R443). -/
def State.outCheck (s : State) (c stage f : Nat) (prod : Bool) : Option Exc :=
  (s.flmCheck c stage f prod).orElse (fun _ => if s.stageBound c stage then some (exc E.FLM_STAGE f) else none)

/-- The checks of a commit by `owner` with header `h` (R136, R138, R412). -/
def State.outCmtCheck (s : State) (c stage owner f : Nat) (h : Hdr) : Option Exc :=
  (s.outCheck c stage f true).orElse (fun _ => firstExc [
    (((s.flume f).oldestResv owner).isNone, exc E.FLM_ORDER f),
    (decide (s.get (R.FLM_DESC.rec_size f) * 4096 < h.len), exc E.FLM_REC_LEN f),
    (s.flag (R.FLM_DESC.remote f) && h.switchMk &&
      decide (s.get (R.SKW_LINK.ver (s.get (R.SKW_CHAN.link (s.get (R.FLM_DESC.chan f))))) = 1), exc E.LINK_FEATURE f)])

/-! ## Admission (R421, R422) -/

/-- What the steward keeps of a site. -/
def State.part (s : State) (u : Nat) : Part := KMap.find (fun _ => Part.empty) s.parts u

/-- The site replaced. -/
def State.setPart (s : State) (u : Nat) (x : Part) : State := { s with parts := KMap.put (fun _ => Part.empty) s.parts u x }

/-- The accepted root digest (R427). -/
def State.partRoot (s : State) (u : Nat) : List Byte := (List.range 6).flatMap (fun j => leBytes 8 (s.get (R.PART_ROOT.digest u j)))

/-- A DISCOVERED site is judged (R422). -/
def State.judgeSite (s : State) (u : Nat) : State :=
  let x := s.part u
  let p := s.get (R.PART_CTL.policy u)
  let s := s.puts [(R.PART_STAT.state u, 1), (R.PART_STAT.pver u, x.ver), (R.PART_STAT.kind u, x.kind)]
  if !x.valid ∨ x.ver ≠ 1 ∨ p = 0 ∨ (p = 2 ∧ ¬ (x.spdm = true ∧ x.root = s.partRoot u)) then
    ((s.put (R.PART_STAT.state u) 3).raise E.LINK_PARTNER none (atSite u) u).holdDomains
  else (s.put (R.PART_STAT.state u) 2).holdDomains

/-- The rounds of R418 over sideband from round `r` with a claim of `mask`: the modules agreed, none where the fourth round fails, and the claims (kind 5)
and echoes (kind 6) that the landing die's end sends. -/
def siteAgree (u epoch : Nat) : Nat → Nat → Nat → List SiteRound → Nat × List Out
  | 0, _, _, _ => (0, [])
  | n + 1, r, mask, xs =>
    let x : SiteRound := xs.headD ⟨none, none⟩
    let claim := Out.site u 5 [r, mask, epoch]
    let sent := match x.claim with
      | none => [claim]
      | some p => [claim, .site u 6 [r, p.1.toNat, p.2.toNat]]
    let seen := match x.claim, x.echo with
      | some p, some e => some (p.1.toNat, e.1.toNat, e.2.toNat)
      | _, _ => none
    if seen = some (mask, mask, epoch) then (mask, sent)
    else
      let m := mask &&& (match seen with
        | some p => p.1
        | none => mask)
      let go := siteAgree u epoch n (r + 1) (if r = 3 then lowestQuarter m else m) xs.tail
      (go.1, sent ++ go.2)

/-- A site with no module left: EMPTY, and what was read of its die is gone (R421, R422). -/
def State.siteDown (s : State) (u : Nat) : State :=
  (((s.puts [(R.PART_STAT.mask u, 0), (R.PART_STAT.state u, 0)]).setPart u Part.empty).raise E.LINK_DOWN none (atSite u) u).holdDomains

/-- PARTNER_SITE_TRAINED (R418, R421, R422): the claims agree on modules, under a new epoch; then the descriptor of a partner die in an EMPTY site is read
by sideband and judged. A site that trains again keeps its state while a module is left. The outcome of the SPDM exchange that policy 2 makes comes
with the event. -/
def execPartnerSiteTrained (u : Fin 2) (t : SiteTrain) (valid : Bool) (ver : BitVec 8) (kind most : BitVec 16) (root : List (BitVec 8))
    (spdm : Bool) (s : State) : Result :=
  let u := u.val
  .next (
    if s.halfDead u then s
    else
      let epoch := (s.get (R.PART_STAT.epoch u) + 1) % 2 ^ 32
      let a := siteAgree u epoch 4 1 t.own.toNat t.rounds
      let s := a.2.foldl State.emit (s.puts [(R.PART_STAT.epoch u, epoch), (R.PART_STAT.mask u, a.1)])
      if a.1 = 0 then s.siteDown u
      else
        let s := if popcount4 a.1 < 4 then s.raise E.LINK_WIDTH_DEGRADED none (atSite u) a.1 else s
        if s.partnerFitted u ∧ s.get (R.PART_STAT.state u) = 0 then
          (s.setPart u { valid := valid, ver := ver.toNat, kind := kind.toNat, most := most.toNat, root := root, spdm := spdm, wait := [] }).judgeSite u
        else s)

/-- PARTNER_SITE_LOST (R421, R422). -/
def execPartnerSiteLost (u : Fin 2) (s : State) : Result :=
  .next (if s.get (R.PART_STAT.mask u.val) = 0 then s else s.siteDown u.val)

/-! ## Requests (R423) -/

/-- The owner number of the stage that a partner acts for: after those of sequencers and host stages. -/
def partOwner (u : Nat) : Nat := 160 + u

/-- True for the errors of flume instructions, which the flume's home landing die raises (R167, R428). -/
def flmCode (code : Nat) : Bool := decide (code / 256 = E.FLM_CTX / 256 ∨ code = E.LINK_FEATURE)

/-- A refused request: logged for its context, by the flume's home landing die or the site's, and answered with the code. -/
def State.siteRefuse (s : State) (u : Nat) (e : Exc) : State :=
  (s.raise e.code (some (s.get (R.PART_CTL.ctx u))) (atLd (if flmCode e.code then ldOfFlume e.info else ldOfSite u)) e.info).emit (.site u 2 [e.code, e.info])

/-- A read or write of device addresses passes the checks of R16; a target that is not available is refused (R25, R392). -/
def State.siteAccess (s : State) (u a n : Nat) (wr : Bool) (go : State → State) : State :=
  let c := s.get (R.PART_CTL.ctx u)
  if !s.permits c a n wr then (s.permLog (ldOfSite u) c a n 6 wr).emit (.site u 2 [E.SEC_PERM, a])
  else match s.refused a n with
    | x :: _ => s.siteRefuse u (exc ((s.unavailable x).getD 0) x)
    | [] => (go s).crossFrom (97 + u) (ldOfSite u) a n

/-- A request that can be carried out is; one that must wait answers none (R136, R423). -/
def State.siteDo (s : State) (u : Nat) (r : PartReq) : Option State :=
  let c := s.get (R.PART_CTL.ctx u)
  let stage := s.get (R.PART_CTL.stage u)
  let o := partOwner u
  match r with
  | .read a n => some (s.siteAccess u a.toNat n.toNat false (fun s =>
      let a := a.toNat
      (s.noteUse (some c) a n.toNat).emit
        (if (s.readBad a n.toNat).isEmpty then .site u 0 ((s.bytes a n.toNat).map BitVec.toNat) else .site u 2 [E.SEQ_HBM_ECC, a])))
  | .write a data => some (s.siteAccess u a.toNat data.length true (fun s =>
      let bad := s.writeBad a.toNat data.length
      let s := s.mergeNote (some c) a.toNat data.length
      ((if bad then (s.write a.toNat data).payloadBad o a.toNat data.length else s.write a.toNat data)).emit (.site u 1 [b2n bad])))
  | .push f =>
    let f := f.toNat
    match s.outCheck c stage f true with
    | some e => some (s.siteRefuse u e)
    | none =>
      if s.canPush f then let r := s.reserve o f
                          some (r.1.emit (.site u 3 [r.2]))
      else match s.heldAtOnce f true with
        | some e => some (s.siteRefuse u e)
        | none => none
  | .cmt f hdr =>
    let f := f.toNat
    let h := Hdr.ofNat hdr.toNat
    match s.outCmtCheck c stage o f h with
    | some e => some (s.siteRefuse u e)
    | none => some (((s.sendCommit o f h).sendPkt (laneOf o) 3 (ldOfSite u) (ldOfFlume f)).emit (.site u 3 []))
  | .pop f =>
    let f := f.toNat
    match (s.outCheck c stage f false).orElse (fun _ => s.holdFull o f) with
    | some e => some (s.siteRefuse u e)
    | none => match (s.flume f).readyHead with
      | some x =>
        let a := s.slotAddr f x.spill x.slot
        some ((s.takeRec o f).emit (.site u 3 (a :: x.hdr.bytes.map BitVec.toNat)))
      | none => match s.heldAtOnce f true with
        | some e => some (s.siteRefuse u e)
        | none => none
  | .rel f =>
    let f := f.toNat
    match (s.outCheck c stage f false).orElse (fun _ => firstExc [(((s.flume f).oldestHeld o).isNone, exc E.FLM_ORDER f)]) with
    | some e => some (s.siteRefuse u e)
    | none => some ((s.releaseRec o f).emit (.site u 3 []))

/-- PARTNER_REQUEST (R422, R423): an admitted die's request is carried out, waits, or is refused with LINK_PARTNER while en is 0; any
other die receives no response. At most 256 requests wait. -/
def execPartnerRequest (u : Fin 2) (r : PartReq) (s : State) : Result :=
  let u := u.val
  .next (
    if s.get (R.PART_STAT.state u) ≠ 2 then s
    else if s.flag (R.PART_CTL.en u) = false then s.raise E.LINK_PARTNER none (atSite u) u
    else match s.siteDo u r with
      | some t => t
      | none => let x := s.part u
                if 256 ≤ x.wait.length then s else s.setPart u { x with wait := x.wait ++ [r] })

/-- The waiting requests of a site are looked at again, oldest first; while en is 0 they are refused (R423). -/
def State.siteRetry (s : State) (u : Nat) : State :=
  let l := (s.part u).wait
  let s := s.setPart u { s.part u with wait := [] }
  l.foldl (fun s r =>
    if s.flag (R.PART_CTL.en u) = false then s.raise E.LINK_PARTNER none (atSite u) u
    else match s.siteDo u r with
      | some t => t
      | none => s.setPart u { s.part u with wait := (s.part u).wait ++ [r] }) s

/-- PARTNER_POLICY_WRITE (R422, R427, R455): the word PART_CTL written; a REFUSED site starts again from the descriptor. -/
def execPartnerPolicyWrite (m : Master) (u : Fin 2) (policy : BitVec 2) (en : Bool) (ctx : BitVec 6) (stage : BitVec 12) (s : State) :
    Result :=
  let u := u.val
  let off := 0x0017_1000 + 0x100 * u
  .next (s.gated off (
    if s.halfInReset u then s.raise E.LINK_HALF_DOWN none (atEntry (ldOfSite u)) off
    else if !s.owns m 4 then s.ownDrop m off
    else
      let s := s.puts [(R.PART_CTL.en u, b2n en), (R.PART_CTL.ctx u, ctx.toNat), (R.PART_CTL.stage u, stage.toNat)]
      if policy = 3 then s.cfgRange none off
      else
        let s := s.put (R.PART_CTL.policy u) policy.toNat
        if s.get (R.PART_STAT.state u) = 3 then s.judgeSite u else s))

/-- A site at a context's teardown (R423): its waiting requests complete and it is disabled. -/
def State.siteTeardown (s : State) (c : Nat) : State :=
  (List.range 2).foldl (fun s u =>
    if s.get (R.PART_CTL.ctx u) = c ∧ (s.flag (R.PART_CTL.en u) = true ∨ (s.part u).wait ≠ []) then
      let s := (s.part u).wait.foldl (fun s _ => s.emit (.site u 2 [E.LINK_PARTNER, 0])) s
      (s.setPart u { s.part u with wait := [] }).put (R.PART_CTL.en u) 0
    else s) s

end Sys2Proof.Machine
end

