-- ==== Sys2Proof/Machine/Ring.lean ====
section
/-! DEFINITION. Machine/Ring.lean: submission and completion rings and the commands they carry (R441 to R448). -/

namespace Sys2Proof.Machine

/-! ## Rings (R441, R442, R444) -/

/-- Submission ring `q` of context `c` beside its registers. -/
def State.sring (s : State) (c q : Nat) : SRing := KMap.find (fun _ => SRing.empty) s.srings (16 * c + q)

/-- A submission ring replaced. -/
def State.setSring (s : State) (c q : Nat) (x : SRing) : State :=
  { s with srings := KMap.put (fun _ => SRing.empty) s.srings (16 * c + q) x }

/-- Completion ring `q` of context `c` beside its registers. -/
def State.cring (s : State) (c q : Nat) : CRing := KMap.find (fun _ => ⟨true, 0⟩) s.crings (16 * c + q)

/-- A completion ring replaced. -/
def State.setCring (s : State) (c q : Nat) (x : CRing) : State :=
  { s with crings := KMap.put (fun _ => ⟨true, 0⟩) s.crings (16 * c + q) x }

/-- True while ring commands are taken: the device is ready and not in the error state, in Bake or Proof with no deeper rung being
entered, and the context is ACTIVE (R430, R439, R494, R495, R538). -/
def State.ringsRun (s : State) (c : Nat) : Bool :=
  s.flag R.HOST_STAT.ready && !s.flag R.RAS_STAT.fatal && decide (s.get R.PWR_STAT.rung < 2)
  && !(s.flag R.PWR_STAT.busy && decide (2 ≤ s.get R.PWR_STAT.target)) && decide (s.get (R.CTX_STATE.state c) = 1)

/-- Entries of a ring from `a` up to `b`. -/
def ringDist (n a b : Nat) : Nat := if a ≤ b then b - a else b + n - a

/-- Host reads for entries that lie in the ring and are not fetched, at most four ahead of the command that runs (R444); none without
Bus Master Enable (R432). -/
def State.askFetch (s : State) (c q : Nat) : State :=
  let n := s.get (R.SQ_CFG.size c q)
  let head := s.get (R.SQ_CFG.head c q)
  let x := s.sring c q
  let have_ := x.cmds.length + x.asked
  let k := min (ringDist n head (s.get (R.SQ_CFG.tail c q)) - x.asked) (5 - have_)
  if s.ringsRun c && (s.fn c).bme && s.flag (R.SQ_CFG.en c q) && decide (0 < n ∧ 0 < k) then
    (List.range k).foldl (fun s i =>
      s.emit (.hostRead c (s.get (R.SQ_CFG.base c q) * 64 + 64 * ((head + x.asked + i) % n)) 64 q))
      (s.setSring c q { x with asked := x.asked + k })
  else s

/-- True when a doorbell write of `size` bytes with value `v` to a ring of `n` entries is taken (R442). -/
def bellOk (size n v : Nat) (en : Bool) : Bool := decide (size = 4 ∨ size = 8) && en && decide (v < n)

/-- True while doorbells of the context reach the rings (R430, R439). -/
def State.bellsOpen (s : State) (c : Nat) : Bool :=
  s.flag R.HOST_STAT.ready && decide (s.get (R.CTX_STATE.state c) = 1) && !(s.fn c).d3

/-- SQ_DOORBELL (R442, R495). -/
def execSqDoorbell (c : Fin 64) (q : Fin 16) (size : BitVec 4) (v : BitVec 13) (s : State) : Result :=
  let c := c.val
  let q := q.val
  .next (
    if !s.bellsOpen c then s
    else if !bellOk size.toNat (s.get (R.SQ_CFG.size c q)) v.toNat (s.flag (R.SQ_CFG.en c q)) then s.cfgRange (some c) (8 * q)
    else (s.put (R.SQ_CFG.tail c q) v.toNat).askFetch c q)

/-- CQ_DOORBELL (R442, R448). -/
def execCqDoorbell (c : Fin 64) (q : Fin 16) (size : BitVec 4) (v : BitVec 13) (s : State) : Result :=
  let c := c.val
  let q := q.val
  .next (
    if !s.bellsOpen c then s
    else if !bellOk size.toNat (s.get (R.CQ_CFG.size c q)) v.toNat (s.flag (R.CQ_CFG.en c q)) then s.cfgRange (some c) (0x100 + 8 * q)
    else
      let s := s.put (R.CQ_CFG.head c q) v.toNat
      if v.toNat = s.get (R.CQ_CFG.tail c q) then s.setCring c q { s.cring c q with since := 0 } else s)

/-- The staged fields of a ring (R441). -/
def ringGroup (c q : Nat) (cq : Bool) : List Fld :=
  if cq then [R.CQ_CFG.base c q, R.CQ_CFG.coal_us c q, R.CQ_CFG.en c q, R.CQ_CFG.vec c q, R.CQ_CFG.coal_cnt c q, R.CQ_CFG.size c q]
  else [R.SQ_CFG.base c q, R.SQ_CFG.en c q, R.SQ_CFG.cq c q, R.SQ_CFG.ver c q, R.SQ_CFG.size c q]

/-- True when a ring commit is refused (R439 to R441). A base is 64-byte aligned by its field; a commit that disables a ring whose command
waits ends that command (R444). -/
def State.ringBad (s : State) (c q : Nat) (cq : Bool) : Bool :=
  let en := decide (s.sget (if cq then R.CQ_CFG.en c q else R.SQ_CFG.en c q) = 1)
  let size := s.sget (if cq then R.CQ_CFG.size c q else R.SQ_CFG.size c q)
  let x := s.sring c q
  let used := if cq then decide (s.get (R.CQ_CFG.head c q) ≠ s.get (R.CQ_CFG.tail c q))
              else !x.cmds.isEmpty || decide (s.get (R.SQ_CFG.head c q) ≠ s.get (R.SQ_CFG.tail c q))
  let change := (ringGroup c q cq).any (fun f => decide (s.sget f ≠ s.get f))
  let named := (List.range 16).any (fun i => s.flag (R.SQ_CFG.en c i) && decide (s.get (R.SQ_CFG.cq c i) = q))
  (en && decide (4096 < size))
  || (en && !cq && decide (s.sget (R.SQ_CFG.ver c q) ≠ 4)) || (!cq && !s.flag (R.CQ_CFG.en c (s.sget (R.SQ_CFG.cq c q))))
  || (!en && cq && named)
  || (used && change && !(!en && !cq && x.waits))
  || s.leaving c || decide (s.get (R.CTX_STATE.state c) = 3)

/-- RING_COMMIT (R441, R444, R451). -/
def execRingCommit (c : Fin 64) (cq : Bool) (q : Fin 16) (s : State) : Result :=
  let c := c.val
  let q := q.val
  let res := fun (s : State) r => s.puts [(R.RING_CSTAT.result c, r), (R.RING_CSTAT.kind c, b2n cq), (R.RING_CSTAT.ring c, q)]
  .next (s.gated (0x0010_0400 + 0x1000 * c) (
    if s.flag (R.RING_CSTAT.busy c) then s.cfgRange (some c) q
    else if s.ringBad c q cq then res (s.raise E.CFG_COMMIT (some c) (atSteward 0) q) 2
    else
      let s := s.commit (ringGroup c q cq)
      let s :=
        if cq then (if s.flag (R.CQ_CFG.en c q) then
            (s.puts [(R.CQ_CFG.head c q, 0), (R.CQ_CFG.tail c q, 0)]).setCring c q ⟨true, 0⟩ else s)
        else if s.flag (R.SQ_CFG.en c q) then s.puts [(R.SQ_CFG.head c q, 0), (R.SQ_CFG.tail c q, 0)]
        else let x := s.sring c q
             if x.waits then s.setSring c q { x with asked := 0, cmds := x.cmds.take 1, waits := false, done := some (3, 0, 0) } else s
      res s 1))

/-! ## Commands (R443 to R446) -/

/-- The opcode of an entry. -/
def rcOp (e : List Byte) : Nat := fieldAt e 0 1
/-- The try flag of an entry. -/
def rcTry (e : List Byte) : Bool := bit (fieldAt e 1 1) 0
/-- The device address of an entry (48 bits). -/
def rcDev (e : List Byte) : Nat := fieldAt e 16 6

/-- The command of a ring that runs: its first, while it has no completion. -/
def State.rcur (s : State) (c q : Nat) : Option (List Byte) :=
  let x := s.sring c q
  match x.cmds, x.done with
  | r :: _, none => some r.entry
  | _, _ => none

/-- The running command ends with a status and results (R445, R446). -/
def State.rcEnd (s : State) (c q st r0 r1 : Nat) : State :=
  s.setSring c q { s.sring c q with waits := false, io := false, done := some (st, r0, r1) }

/-- It ends with a status whose code is logged (R531, R537). -/
def State.rcFail (s : State) (c q code st r0 : Nat) : State := (s.raise code (some c) (atSteward 0) q).rcEnd c q st r0 0

/-- It meets a device address that is not available, after `m` bytes (R25, R446, R565). -/
def State.rcDown (s : State) (c q code a m : Nat) : State := (s.raise code (some c) (s.downAt code a) a).rcEnd c q 35 m 0

/-- The running command waits (R443, R444). -/
def State.rcWait (s : State) (c q : Nat) : State := s.setSring c q { s.sring c q with waits := true }

/-- A command with a reserved opcode or flag, or a FILL not aligned, ends with CFG_CMD when it starts (R443, R446). -/
def State.rcStart (s : State) (c q : Nat) : State :=
  match s.rcur c q with
  | none => s
  | some e =>
    let bad := decide (5 < rcOp e ∨ fieldAt e 1 1 / 2 ≠ 0) || (decide (rcOp e = 2) && decide (rcDev e % 4 ≠ 0 ∨ fieldAt e 24 8 % 4 ≠ 0))
    if bad then s.rcFail c q E.CFG_CMD 16 0 else s

/-- RING_FETCH (R444): entries that were asked for arrive; the head passes them. -/
def execRingFetch (c : Fin 64) (q : Fin 16) (entries : List (BitVec 512)) (s : State) : Result :=
  let c := c.val
  let q := q.val
  let x := s.sring c q
  let es := entries.take x.asked
  let n := s.get (R.SQ_CFG.size c q)
  .next (
    if es = [] ∨ !s.ringsRun c ∨ s.flag (R.SQ_CFG.en c q) = false then s
    else
      let first := x.cmds.isEmpty
      let s := es.foldl (fun s e =>
        let x := s.sring c q
        let num := KMap.find (fun _ => 0) s.fetched c
        let after := (s.get (R.SQ_CFG.head c q) + 1) % n
        { (s.put (R.SQ_CFG.head c q) after).setSring c q
            { x with asked := x.asked - 1, cmds := x.cmds ++ [⟨num, after, leBytes 64 e.toNat⟩] }
          with fetched := KMap.put (fun _ => 0) s.fetched c (num + 1) }) s
      let s := if first then s.rcStart c q else s
      s.askFetch c q)

/-- What runs a command of opcode `op` at the head of a ring, when it can run now. -/
def State.rcRun (s : State) (c q op : Nat) (go : List Byte → State → State) : State :=
  match s.rcur c q with
  | some e => if rcOp e = op ∧ s.ringsRun c ∧ (s.sring c q).io = false then go e s else s
  | none => s

/-- CMD_NOP (R443). -/
def execCmdNop (c : Fin 64) (q : Fin 16) (s : State) : Result :=
  .next (s.rcRun c.val q.val 0 (fun _ s => s.rcEnd c.val q.val 0 0 0))

/-- What a write in granules has done: the state, the bytes written, the code it met, and whether a write returned the uncorrectable indication. -/
structure Moved where
  st   : State
  n    : Nat
  code : Option Nat
  bad  : Bool

/-- Bytes written from `a` up in granules of at most 64 bytes until one is not available (R25, R386, R446, R565). -/
def State.moveIn : Nat → Nat → List Byte → State → Moved
  | 0, _, _, s => ⟨s, 0, none, false⟩
  | k + 1, a, bs, s =>
    if bs = [] then ⟨s, 0, none, false⟩
    else match s.unavailable a with
      | some e => ⟨s, 0, some e, false⟩
      | none =>
        let n := 64 - a % 64
        let r := State.moveIn k (a + n) (bs.drop n) (s.write a (bs.take n))
        ⟨r.st, min n bs.length + r.n, r.code, r.bad || s.writeBad a (bs.take n).length⟩

/-- A write of S0 that crosses the links to the homes of the granules it reaches (R17). -/
def State.moveTo (s : State) (c a : Nat) (bs : List Byte) : Moved :=
  let r := (s.mergeNote (some c) a bs.length).moveIn (bs.length / 64 + 2) a bs
  { r with st := r.st.crossing a r.n, bad := r.bad || s.writeBad a r.n }

/-- Bytes read from `a` up in granules until one is not available; the bytes of bad units read all ones (R385, R446). -/
def State.moveOut (s : State) : Nat → Nat → Nat → List Byte × Option Nat
  | 0, _, _ => ([], none)
  | k + 1, a, n =>
    if n = 0 then ([], none)
    else match s.unavailable a with
      | some e => ([], some e)
      | none =>
        let m := min n (64 - a % 64)
        let bads := s.readBad a m
        let bs := (List.range m).map (fun i => if bads.any (fun u => decide (u ≤ a + i ∧ a + i < u + (errUnit u).2)) then 0xFF else s.byte (a + i))
        let r := State.moveOut s k (a + m) (n - m)
        (bs ++ r.1, r.2)

/-- Granules that `n` bytes can touch. -/
def granules (n : Nat) : Nat := n / 64 + 2

/-- What a write command from `a` up that has done `r` ends with (R446). R386 returns the uncorrectable indication to its issuer, and R446 has no
status for a write: it ends with 34 (DESIGN CHOICE, log entry 116). -/
def State.wroteEnd (c q a : Nat) (r : Moved) : State :=
  match r.code with
  | some e => r.st.rcDown c q e (a + r.n) r.n
  | none => r.st.rcEnd c q (if r.bad then 34 else 0) r.n 0

/-- CMD_COPY (R432, R443, R446): host to device reads the host first; device to host writes it. -/
def execCmdCopy (c : Fin 64) (q : Fin 16) (s : State) : Result :=
  let c := c.val
  let q := q.val
  .next (s.rcRun c q 1 (fun e s =>
    let a := rcDev e
    let n := fieldAt e 24 8
    let h := fieldAt e 8 8
    let out := bit (fieldAt e 32 1) 0
    if n = 0 then s.rcEnd c q 0 0 0
    else if !s.permits c a n (!out) then (s.permLog (s.entryLd a) c a n 5 (!out)).rcEnd c q 32 0 0
    else if (s.fn c).bme = false then s.rcWait c q
    else if out then
      let r := s.moveOut (granules n) a n
      let bad := !(s.readBad a r.1.length).isEmpty
      let s := ((s.noteUse (some c) a r.1.length).crossing a r.1.length).emit (.hostWrite c h r.1)
      match r.2 with
      | some code => s.rcDown c q code (a + r.1.length) r.1.length
      | none => s.rcEnd c q (if bad then 34 else 0) n 0
    else (s.setSring c q { s.sring c q with io := true, waits := false }).emit (.hostRead c h n (16 + q))))

/-- The 32-bit pattern over `n` bytes. -/
def fillBytes (p : List Byte) (n : Nat) : List Byte := (List.replicate (n / 4) p).flatten

/-- CMD_FILL (R443, R446). -/
def execCmdFill (c : Fin 64) (q : Fin 16) (s : State) : Result :=
  let c := c.val
  let q := q.val
  .next (s.rcRun c q 2 (fun e s =>
    let a := rcDev e
    let n := fieldAt e 24 8
    if n = 0 then s.rcEnd c q 0 0 0
    else if !s.permits c a n true then (s.permLog (s.entryLd a) c a n 5 true).rcEnd c q 32 0 0
    else State.wroteEnd c q a (s.moveTo c a (fillBytes (leBytes 4 (fieldAt e 32 4)) n))))

/-- The status of a flume code (R446); a flume homed on a half in reset ends as a device range there does. -/
def State.flmStatus (s : State) (code : Nat) : Nat :=
  if code = E.FLM_UNBOUND then 18 else if code = E.FLM_CLOSED then 19 else if code = E.FLM_STAGE then 20
  else if code = E.FLM_CTX then 21 else if code = E.FLM_REC_LEN then 22 else if code = E.FLM_HELD then 23
  else if code = E.LINK_HALF_DOWN then 35 else (Config.featureStatus s.free).toNat

/-- The command ends with a flume code; the status that the spec leaves open counts as a value taken. -/
def State.flmFail (s : State) (c q : Nat) (e : Exc) : State :=
  let st := s.flmStatus e.code
  let s := if e.code = E.LINK_FEATURE then { s with free := s.free + 1 } else s
  (s.raise e.code (some c) (if e.code = E.LINK_HALF_DOWN then atEntry (ldOfFlume e.info) else atLd (ldOfFlume e.info)) e.info).rcEnd c q st 0 0

/-- The checks of a PUSH or POP as the context's host stage (R140, R443). -/
def State.hostCheck (s : State) (c f : Nat) (prod : Bool) : Option Exc :=
  if s.flag (R.CTX_HSTAGE.en c) then s.outCheck c (s.get (R.CTX_HSTAGE.stage c)) f prod
  else match s.flmCheck c (s.get (if prod then R.FLM_DESC.prod f else R.FLM_DESC.cons f)) f prod with
    | some e => if e.code = E.FLM_CTX then some (exc E.FLM_STAGE f) else some e
    | none => some (exc E.FLM_STAGE f)

/-- The owner number of ring `q` of a context's host stage: each ring's PUSH fills its own reservation (R136, R444). -/
def hostOwner (c q : Nat) : Nat := 256 + 16 * c + q

/-- Address of the slot that the next reservation takes. -/
def State.nextSlot (s : State) (f : Nat) : Nat := match s.freeSlot f with
  | some x => s.slotAddr f x.1 x.2
  | none => 0

/-- True when a context may not write the `n` bytes that its PUSH puts into the next slot (R480). -/
def State.slotRefused (s : State) (c f n : Nat) : Bool := decide (0 < n) && !s.permits c (s.nextSlot f) n true

/-- CMD_PUSH (R289, R443, R480): the declared length, the checks, then a slot; the header and payload are read from the host. -/
def execCmdPush (c : Fin 64) (q : Fin 16) (s : State) : Result :=
  let c := c.val
  let q := q.val
  .next (s.rcRun c q 3 (fun e s =>
    let f := fieldAt e 8 2 % 8192
    let n := fieldAt e 24 4
    if 1048576 < fieldAt e 28 4 then s.rcFail c q E.SEQ_LIMIT 17 0
    else match s.hostCheck c f true with
      | some x => s.flmFail c q x
      | none =>
        if s.get (R.FLM_DESC.rec_size f) * 4096 < n then s.flmFail c q (exc E.FLM_REC_LEN f)
        else if rcTry e ∧ ¬ (s.canPush f = true ∧ s.flmState f = flmOPEN) then s.rcEnd c q 2 0 0
        else if !s.canPush f then (match s.heldAtOnce f true with
          | some x => s.flmFail c q x
          | none => s.rcWait c q)
        else if s.slotRefused c f n then ((s.permLog (s.entryLd (s.nextSlot f)) c (s.nextSlot f) n 5 true).rcEnd c q 32 0 0)
        else if (s.fn c).bme = false then s.rcWait c q
        else
          let s := (s.reserve (hostOwner c q) f).1
          (s.setSring c q { s.sring c q with io := true, waits := false }).emit (.hostRead c (fieldAt e 16 8) (64 + n) (16 + q))))

/-- The reservation of a PUSH given back with its credit; a ring has one at a time. -/
def State.unreserve (s : State) (o f : Nat) : State := (s.dropResv f (fun r => decide (r.owner = o) && !r.sent)).sendRemote f

/-- The commit of a host PUSH, which reaches the home landing die (R135, R141). -/
def State.hostCommit (s : State) (o f : Nat) (h : Hdr) (bad : Bool) : State × Nat :=
  let x := s.flume f
  let mine := fun (r : FlmRec) => decide (r.owner = o) && !r.sent
  let s := s.setFlume f { x with recs := modFirst mine (fun r => { r with hdr := h, sent := true, bad := bad }) x.recs }
  let r := s.commitRec f (fun r => decide (r.owner = o) && !r.cmt)
  (r.1.sendRemote f, r.2)

/-- HOST_READ_COMPLETION (R446): the data of a COPY or PUSH; an error or poison leaves the device unchanged. -/
def execHostReadCompletion (c : Fin 64) (q : Fin 16) (ok : Bool) (data : List (BitVec 8)) (s : State) : Result :=
  let c := c.val
  let q := q.val
  .next (match s.rcur c q with
    | none => s
    | some e =>
      if (s.sring c q).io = false then s
      else if rcOp e = 1 then
        if ok then State.wroteEnd c q (rcDev e) (s.moveTo c (rcDev e) data) else s.rcFail c q E.CFG_HOST_DMA 33 0
      else
        let f := fieldAt e 8 2 % 8192
        let o := hostOwner c q
        if !ok then (s.unreserve o f).rcFail c q E.CFG_HOST_DMA 33 0
        else
          let h := Hdr.ofNat (leNat (data.take 64))
          match s.outCmtCheck c (s.get (R.CTX_HSTAGE.stage c)) o f h with
          | some x => (s.unreserve o f).flmFail c q x
          | none => match (s.flume f).oldestResv o with
            | none => s
            | some r =>
              let a := s.slotAddr f r.spill r.slot
              let p := data.drop 64
              let w := s.moveTo c a p
              match w.code with
              | some code => (w.st.unreserve o f).rcDown c q code (a + w.n) w.n
              | none => let d := w.st.hostCommit o f h w.bad
                        d.1.rcEnd c q 0 d.2 0)

/-- CMD_POP (R443, R446, R480): the oldest ready record's header and payload go to the host, and it is released. -/
def execCmdPop (c : Fin 64) (q : Fin 16) (s : State) : Result :=
  let c := c.val
  let q := q.val
  .next (s.rcRun c q 4 (fun e s =>
    let f := fieldAt e 8 2 % 8192
    let o := hostOwner c q
    match s.hostCheck c f false with
    | some x => s.flmFail c q x
    | none => match (s.flume f).readyHead with
      | none =>
        if rcTry e then s.rcEnd c q 1 0 0
        else (match s.heldAtOnce f true with
          | some x => s.flmFail c q x
          | none => s.rcWait c q)
      | some r =>
        if rcTry e ∧ s.flmState f ≠ flmOPEN then s.rcEnd c q 1 0 0
        else if fieldAt e 24 4 < r.hdr.len then s.flmFail c q (exc E.FLM_REC_LEN f)
        else if 0 < r.hdr.len ∧ s.permits c (s.slotAddr f r.spill r.slot) r.hdr.len false = false then
          (s.permLog (s.entryLd (s.slotAddr f r.spill r.slot)) c (s.slotAddr f r.spill r.slot) r.hdr.len 5 false).rcEnd c q 32 0 0
        else if (s.fn c).bme = false then s.rcWait c q
        else
          let a := s.slotAddr f r.spill r.slot
          let m := s.moveOut (granules r.hdr.len) a r.hdr.len
          match m.2 with
          | some code => s.rcDown c q code (a + m.1.length) 0
          | none =>
            let bad := !(s.readBad a r.hdr.len).isEmpty
            let s := ((s.noteUse (some c) a r.hdr.len).crossing a r.hdr.len).emit (.hostWrite c (fieldAt e 16 8) (r.hdr.bytes ++ m.1))
            ((s.takeRec o f).releaseRec o f).rcEnd c q (if bad then 34 else 0) r.hdr.len r.hdr.rseq))

/-- CMD_FENCE (R443): every earlier-fetched command of every ring of the context has completed. -/
def execCmdFence (c : Fin 64) (q : Fin 16) (s : State) : Result :=
  let c := c.val
  let q := q.val
  .next (s.rcRun c q 5 (fun _ s =>
    let mine := match (s.sring c q).cmds with
      | r :: _ => r.num
      | [] => 0
    if (List.range 16).any (fun i => (s.sring c i).cmds.any (fun r => decide (r.num < mine))) then s.rcWait c q
    else s.rcEnd c q 0 0 0))

/-! ## Completions (R445, R448) -/

/-- The 32 bytes of a completion entry (R445). -/
def complEntry (r : RCmd) (q : Nat) (phase : Bool) (d : Nat × Nat × Nat) : List Byte :=
  (r.entry.drop 4).take 4 ++ leBytes 1 q ++ leBytes 1 (b2n phase) ++ leBytes 2 d.1 ++ leBytes 2 r.after ++ List.replicate 6 0
    ++ leBytes 8 d.2.1 ++ leBytes 8 d.2.2

/-- The running command leaves its ring and the next one starts (R444). -/
def State.rcNext (s : State) (c q : Nat) : State :=
  let x := s.sring c q
  ((s.setSring c q { x with cmds := x.cmds.drop 1, done := none, waits := false, io := false }).rcStart c q).askFetch c q

/-- A CQ's vector is raised and its counts restart (R448). -/
def State.cqVector (s : State) (c k : Nat) : State := (s.setCring c k { s.cring c k with since := 0 }).vector c (s.get (R.CQ_CFG.vec c k))

/-- CQ_ENTRY_WRITE (R445, R448): the completed command of SQ `q` writes its entry when its CQ has room; a CQ of size 0 receives
none (R441). -/
def execCqEntryWrite (c : Fin 64) (q : Fin 16) (s : State) : Result :=
  let c := c.val
  let q := q.val
  let x := s.sring c q
  let k := s.get (R.SQ_CFG.cq c q)
  let n := s.get (R.CQ_CFG.size c k)
  let t := s.get (R.CQ_CFG.tail c k)
  .next (match x.cmds, x.done with
    | r :: _, some d =>
      if n = 0 then s.rcNext c q
      else if (s.fn c).bme = false ∨ n ≤ ringDist n (s.get (R.CQ_CFG.head c k)) t + 1 then s
      else
        let y := s.cring c k
        let s := s.emit (.hostWrite c (s.get (R.CQ_CFG.base c k) * 64 + 32 * t) (complEntry r q y.phase d))
        let s := s.put (R.CQ_CFG.tail c k) ((t + 1) % n)
        let s := s.setCring c k { phase := if t + 1 = n then !y.phase else y.phase, since := y.since + 1 }
        let m := s.get (R.CQ_CFG.coal_cnt c k)
        let s := if m ≠ 0 ∧ m ≤ y.since + 1 then s.cqVector c k else s
        s.rcNext c q
    | _, _ => s)

/-- CQ_COALESCE_TIMER (R448): coal_us after the first unsignalled entry. -/
def execCqCoalesceTimer (c : Fin 64) (q : Fin 16) (s : State) : Result :=
  let c := c.val
  let k := q.val
  .next (if 0 < (s.cring c k).since ∧ s.get (R.CQ_CFG.coal_us c k) ≠ 0 ∧ s.get (R.CQ_CFG.coal_cnt c k) ≠ 0 then s.cqVector c k else s)

/-! ## Waits on a flume (R155, R158) -/

/-- The flume that the waiting command of a ring wants to push to (opcode 3) or take from (4). -/
def State.ringWants (s : State) (op : Nat) : List Nat :=
  (s.srings.map Prod.fst).filterMap (fun i => match s.rcur (i / 16) (i % 16) with
    | some e => if (s.sring (i / 16) (i % 16)).waits && decide (rcOp e = op) then some (fieldAt e 8 2 % 8192) else none
    | none => none)

/-- The flumes that waiting requests of the partner sites want to push to or take from. -/
def State.siteWants (s : State) (push : Bool) : List Nat :=
  (List.range 2).flatMap (fun u => (s.part u).wait.filterMap (fun r => match r with
    | .push g => if push then some g.toNat else none
    | .pop g => if push then none else some g.toNat
    | _ => none))

/-- True when the running command of a ring waits on flume `f`. -/
def State.rcWaitsOn (s : State) (c q f : Nat) : Bool :=
  match s.rcur c q with
  | some e => (s.sring c q).waits && decide (rcOp e = 3 ∨ rcOp e = 4) && decide (fieldAt e 8 2 % 8192 = f)
  | none => false

/-- The ring commands that wait on a flume end with FLM_HELD. -/
def State.endRingWaits (s : State) (f : Nat) : State :=
  (s.srings.map Prod.fst).foldl (fun s i =>
    if s.rcWaitsOn (i / 16) (i % 16) f then s.flmFail (i / 16) (i % 16) (exc E.FLM_HELD f) else s) s

/-- The partner requests that wait on a flume end with FLM_HELD. -/
def State.endSiteWaits (s : State) (f : Nat) : State :=
  let on : PartReq → Bool := fun r => match r with
    | .push g => decide (g.toNat = f)
    | .pop g => decide (g.toNat = f)
    | _ => false
  (List.range 2).foldl (fun s u =>
    let l := (s.part u).wait
    let s := (l.filter on).foldl (fun s _ => s.siteRefuse u (exc E.FLM_HELD f)) s
    if l.any on then s.setPart u { s.part u with wait := l.filter (fun r => !on r) } else s) s

/-- FLM_HELD_TIMEOUT (R158): every waiting operation on a HELD flume ends with FLM_HELD. -/
def execFlmHeldTimeout (f : Fin 8192) (s : State) : Result :=
  .next (if s.flmState f.val = flmHELD then ((s.endHeldWaits f.val).endRingWaits f.val).endSiteWaits f.val else s)

end Sys2Proof.Machine
end

