-- ==== Sys2Proof/Machine/Shrink.lean ====
section
/-! DEFINITION. Machine/Shrink.lean: a module lost (R544) and the shrink past it (R272, R369, R370, R545). -/

namespace Sys2Proof.Machine

/-! ## A lost module (R544) -/

/-- The reduction links of a context that are named. -/
def State.redLinks (s : State) (c : Nat) : List Nat :=
  if s.flag (R.RED_CTL.en c) then
    ([s.get (R.RED_CTL.next c), s.get (R.RED_CTL.prev c), s.get (R.RED_CTL.wrap c)].filter (fun k => decide (k < 24))).dedup
  else []

/-- The module-lost message on every reduction link but `k` (R410, R544). -/
def State.tellLost (s : State) (c f k : Nat) : State :=
  ((s.redLinks c).filter (fun j => decide (j ≠ k))).foldl (fun s j => s.redOn c j 0xFFFF 9 [f]) s

/-- MODULE_LOST_MSG (R544): the first message for a module is forwarded, repeats are discarded. -/
def execModuleLostMsg (h : RedHdr) (f : BitVec 16) (k : Fin 24) (s : State) : Result :=
  let c := h.ctx.val
  .next (s.redIn h k.val 9 [f.toNat] (fun s => if (s.job c).lost.contains f.toNat then s
    else (s.modJob c (fun j => { j with lost := j.lost ++ [f.toNat] })).tellLost c f.toNat k.val))

/-- MODULE_LOST_DECLARE (R544): a DOWN notice came on, or RAS_MFAIL ticks have passed without, the reduction link next (0), prev (1)
or wrap (2), so the module at its end is declared lost. -/
def execModuleLostDeclare (c : Fin 64) (which : Fin 3) (s : State) : Result :=
  let c := c.val
  let k := s.get (if which = 0 then R.RED_CTL.next c else if which = 1 then R.RED_CTL.prev c else R.RED_CTL.wrap c)
  let m := s.moduleOf c
  .next (match s.cutTable c 0 with
    | none => s
    | some t =>
      let f := if which = 0 then m + 1 else if which = 1 then m - 1 else if m = 0 then t.nmodules - 1 else 0
      if s.flag (R.RED_CTL.en c) = false ∨ 24 ≤ k ∨ (s.skwUp k ∧ (s.skw k).notice = false) ∨ (s.job c).lost.contains f then s
      else
        let s := s.raise E.LINK_MODULE_LOST (some c) (atSteward 0) f
        (s.modJob c (fun j => { j with lost := j.lost ++ [f] })).tellLost c f k)

/-! ## The tables without the module (R369, R545) -/

/-- How many of `n` layers the position on the left takes: the split after which the two position costs are closest, the fewest on
a tie (R369). `lo` is the left's first layer, `nl` and `nr` what the two hold already. -/
def CutTable.splitAt (t : CutTable) (lo nl n nr : Nat) : Nat :=
  let gap := fun m =>
    let a := t.cost lo (nl + m)
    let b := t.cost (lo + nl + m) (n - m + nr)
    max a b - min a b
  (List.range (n + 1)).foldl (fun b m => if gap m < gap b then m else b) 0

/-- The positions that stay, with their layers: (position, first, count). `left` is the last one that stays so far, `n` the lost layers
behind it; a run of lost positions at an end of the pipeline goes to its one neighbour. -/
def CutTable.absorb (t : CutTable) : Option (Nat × Nat × Nat) → Nat → List (Nat × Nat × Bool) → List (Nat × Nat × Nat)
  | none, _, [] => []
  | some (p, lo, k), n, [] => [(p, lo, k + n)]
  | left, n, (_, k, true) :: ps => t.absorb left (n + k) ps
  | none, n, (p, k, false) :: ps => t.absorb (some (p, 0, n + k)) 0 ps
  | some (q, lo, j), n, (p, k, false) :: ps =>
    let m := t.splitAt lo j n k
    (q, lo, j + m) :: t.absorb (some (p, lo + j + m, n - m + k)) 0 ps

/-- The layers of every position of a replica that stays. -/
def CutTable.survivors (t : CutTable) (f rep : Nat) : List (Nat × Nat × Nat) :=
  t.absorb none 0 ((t.positions rep).map (fun p => match t.position rep p with
    | [] => (p, 0, false)
    | r :: _ => (p, rowLayers r, decide (rowModule r = f))))

/-- The index of an old module among the survivors, counted along the ring from `f` + 1 (R545). -/
def ringIndex (n f m : Nat) : Nat := (m + n - f - 1) % n

/-- A flag of a row set where a lost row beyond the row's position had it and no position that stays lies between: `b` is 1 for the last position,
0 for the pipeline entry (R262). -/
def CutTable.takesFlag (t : CutTable) (f : Nat) (r : List Byte) (b : Nat) : Bool :=
  let beyond := t.rows.filter (fun y => decide (rowReplica y = rowReplica r) && decide (if b = 1 then rowPos r < rowPos y else rowPos y < rowPos r))
  bit (fieldAt r 7 1) b || (beyond.any (fun y => bit (fieldAt y 7 1) b) && beyond.all (fun y => decide (rowModule y = f)))

/-- The table that every survivor draws: the rows of `f` are gone, the stage ids that remain are counted anew, and its layers lie with the
positions on either side (R369, R545; log entry 70). -/
def CutTable.without (t : CutTable) (f : Nat) : CutTable :=
  let keep := t.rows.filter (fun r => decide (rowModule r ≠ f))
  let rows := keep.zipIdx.map (fun x =>
    let r := x.1
    let lay := match (t.survivors f (rowReplica r)).find? (fun y => decide (y.1 = rowPos r)) with
      | some y => leBytes 2 y.2.1 ++ leBytes 1 y.2.2
      | none => leBytes 2 (rowFirst r) ++ leBytes 1 (rowLayers r)
    let ends := fieldAt r 7 1 / 4 * 4 + 2 * b2n (t.takesFlag f r 1) + b2n (t.takesFlag f r 0)
    patchAt (patchAt (patchAt (patchAt r 0 (leBytes 2 x.2)) 4 (leBytes 2 (ringIndex t.nmodules f (rowModule r)))) 7 (leBytes 1 ends)) 8 lay)
  { t with hdr := patchAt (patchAt t.hdr 2 (leBytes 2 rows.length)) 6 (leBytes 2 (t.nmodules - 1)), rows := rows }

/-- The stage that stands for `st` once module `f` is lost, seen from stage `other` of the same flume: itself where it stays; for a lost one the stage of
the nearest position that stays on its far side, in the same replica and, as far as there is one, of the same shard (R369; log entry 160). -/
def CutTable.heir (t : CutTable) (f st other : Nat) : Option Nat :=
  match t.row st, t.row other with
  | some r, some o =>
    if rowModule r ≠ f then some st
    else
      let up := decide (rowPos o < rowPos r)
      let far := t.rows.filter (fun y => decide (rowReplica y = rowReplica r ∧ rowModule y ≠ f) &&
        decide (if up then rowPos r < rowPos y else rowPos y < rowPos r))
      let at' := if up then (far.map rowPos).min? else (far.map rowPos).max?
      at'.bind (fun p => ((t.position (rowReplica r) p).find? (fun y => decide (rowShard y = rowShard r % rowCount y))).map rowStage)
  | _, _ => none

/-- The flume entries of a module's rows renamed, those without a new name no longer valid (R262). -/
def CutTable.relink (t : CutTable) (m : Nat) (names : Nat → Option Nat) : CutTable :=
  { t with rows := t.rows.map (fun r =>
      if rowModule r = m then [16, 18, 20, 22, 32, 24, 26, 28, 30, 34].foldl (fun r i =>
        let e := fieldAt r i 2
        if bit e 15 then patchAt r i (leBytes 2 (match names (e % 2 ^ 13) with
          | some f => 2 ^ 15 + f
          | none => 0)) else r) r
      else r) }

/-! ## The shrink (R272, R369, R370, R545) -/

/-- The routes of the surviving ring for old module `m`: the links to `f` are gone and the wrap link is an inner one (R545). -/
def State.shrinkRoute (s : State) (c n f m : Nat) : State :=
  let wrap := s.get (R.RED_CTL.wrap c)
  let next := if (m + 1) % n = f then 31 else if m + 1 = n then wrap else s.get (R.RED_CTL.next c)
  let prev := if m = (f + 1) % n then 31 else if m = 0 then wrap else s.get (R.RED_CTL.prev c)
  s.puts [(R.RED_CTL.next c, next), (R.RED_CTL.prev c, prev), (R.RED_CTL.wrap c, 31)]

/-- The modules that hold layer `L` of the lost module's replicas `reps` under the new table (R369). -/
def CutTable.takers (new : CutTable) (reps : List Nat) (L : Nat) : List Nat :=
  ((new.rows.filter (fun r => decide (rowFirst r ≤ L ∧ L < rowFirst r + rowLayers r) && reps.contains (rowReplica r))).map rowModule).dedup

/-- The state of the lost module's layers, from the current bank at its holder: written here for the layers that come here, sent to
each new module of theirs for the others (R271, R369). The bank holds the layers in the order of a copy (R368). -/
def State.recoverLayers (s : State) (c f : Nat) (old new : CutTable) : State :=
  let base := s.get (R.CKPT_BBASE.base c) + s.get (R.CKPT_BSTEP.bank c) * s.get (R.CKPT_BBSIZE.size c)
  let items := (old.ckPositions f).flatMap (fun p => (old.ckLayers f p).flatMap (fun L =>
    (List.range (1 + s.get (R.CKPT_AREA.nmom c))).map (fun kind => (L, kind))))
  let reps := fun L => ((old.rows.filter (fun r => decide (rowModule r = f ∧ rowFirst r ≤ L ∧ L < rowFirst r + rowLayers r))).map rowReplica)
  (items.foldl (fun (x : State × Nat) it =>
    let s := x.1
    let L := it.1
    let kind := it.2
    let n := 4 * s.layerNw c L
    let data := s.s0Bytes (base + x.2) n
    let s := s.s0Note (some c) (base + x.2) n
    let s := (new.takers (reps L) L).foldl (fun s dst =>
      if dst = s.moduleOf c then s.s0Write (some c) (s.layerAddr c new L kind) data
      else s.redSend c dst 8 ([L, kind, 0] ++ data.map BitVec.toNat)) s
    (s, x.2 + n)) (s, 0)).1

/-- Every sequencer of a context halted (R272). -/
def State.haltSeqs (s : State) (c : Nat) : State :=
  (List.range 96).foldl (fun s k => if s.seqBound k ∧ s.seqCtx k = c ∧ s.seqState k = seqRUNNING
    then (s.stopIssue k).setSeqState k seqHALTED else s) s

/-- The BUILDING slots of a context's tables dropped (R272). -/
def State.dropBuilding (s : State) (c : Nat) : State :=
  (List.range 96).foldl (fun s k => if s.seqBound k ∧ s.seqCtx k = c then
      [0, 1, 2, 3].foldl (fun s i => if s.vst k i = verBUILDING then
        (let s := if s.pinWaits k i then { s with pinEnd := KMap.put (fun _ => 0) s.pinEnd k 3 } else s
         s.put (R.VER_SLOT.state k i) verFREE) else s) s
    else s) s

/-- The flumes of a context that are bound. -/
def State.ctxFlumes (s : State) (c : Nat) : List Nat :=
  s.regs.filterMap (fun e =>
    let f := (e.1 - (R.FLM_STAT.state 0).a) / 128
    if (R.FLM_STAT.state 0).a ≤ e.1 ∧ f < 8192 ∧ e.1 = (R.FLM_STAT.state f).a ∧ s.get (R.FLM_DESC.ctx f) = c then some f else none)

/-- The stages that flume `f` joins once a module is lost, producer and consumer, by their old ids (R272, R369). -/
def State.newEnds (s : State) (t : CutTable) (lost f : Nat) : Option (Nat × Nat) :=
  let p := s.get (R.FLM_DESC.prod f)
  let q := s.get (R.FLM_DESC.cons f)
  match t.heir lost p q, t.heir lost q p with
  | some a, some b => some (a, b)
  | _, _ => none

/-- True when a stage lies on module `m`. -/
def CutTable.onModule (t : CutTable) (m st : Nat) : Bool :=
  match t.row st with
  | some r => decide (rowModule r = m)
  | none => false

/-- The flumes of `fs` whose one stage was on the lost module, and that join two stages of module `m` now: those whose consumer (`out`) or whose producer
is gone. -/
def State.halfLost (s : State) (t : CutTable) (lost m : Nat) (out : Bool) (fs : List Nat) : List Nat :=
  fs.filter (fun f => t.onModule lost (s.get (if out then R.FLM_DESC.cons f else R.FLM_DESC.prod f)) && (match s.newEnds t lost f with
    | some (a, b) => t.onModule m a && t.onModule m b
    | none => false))

/-- Where two flumes, one to a lost stage and one from it, join the same stages of this module now, they become one: (to, from), in the order of their numbers
(R272, R369; log entry 160). -/
def State.flumeJoins (s : State) (t : CutTable) (lost m : Nat) (fs : List Nat) : List (Nat × Nat) :=
  let key := fun f => (s.newEnds t lost f, s.get (R.FLM_DESC.dir f))
  (s.halfLost t lost m false fs).foldl (fun l f =>
    match (s.halfLost t lost m true fs).find? (fun g => decide (key g = key f) && !(l.any (fun x => decide (x.1 = g)))) with
    | some g => l ++ [(g, f)]
    | none => l) []

/-- The name of flume `f` in the redrawn rows of this module: none for one that is not made again. -/
def State.flumeName (s : State) (t : CutTable) (lost m : Nat) (fs : List Nat) (f : Nat) : Option Nat :=
  let joins := s.flumeJoins t lost m fs
  match joins.find? (fun x => decide (x.1 = f)) with
  | some x => some x.2
  | none =>
    if !fs.contains f then some f
    else if joins.any (fun x => decide (x.2 = f)) then some f
    else if (s.halfLost t lost m true fs).contains f || (s.halfLost t lost m false fs).contains f then none
    else (s.newEnds t lost f).map (fun _ => f)

/-- A flume's descriptor for the redrawn job: as it stands, with the stages renumbered by `rank`, a lost one replaced by the stage that stands for it,
and local where both lie on this module; none for one that is not made again (R272, R369). -/
def State.remakeDesc (s : State) (t : CutTable) (lost m : Nat) (fs : List Nat) (rank : Nat → Nat) (f : Nat) : Option (Nat × List Nat) :=
  match s.newEnds t lost f with
  | some (a, b) =>
    if s.flumeName t lost m fs f = some f then
      some (f, (flmGroup f).map (fun x =>
        if x = R.FLM_DESC.prod f then rank a else if x = R.FLM_DESC.cons f then rank b
        else if x = R.FLM_DESC.remote f then (if t.onModule m a && t.onModule m b then 0 else s.get x)
        else if x = R.FLM_DESC.pair f then (s.flumeName t lost m fs (s.get x)).getD (s.get x) else s.get x))
    else none
  | none => none

/-- FWD/BWD starts on the context's stages (R269, R272). -/
def State.startAgain (s : State) (c : Nat) : State :=
  match s.cutTable c 0 with
  | some t => s.startPhase c 0 t
  | none => s

/-- A flume that a redraw creates again is bound with the descriptor kept for it; FWD/BWD starts with the last one (R272). -/
def State.remakeFlume (s : State) (f : Nat) : State :=
  match (s.jobs.map Prod.fst).find? (fun c => (s.job c).remake.any (fun x => decide (x.1 = f))) with
  | none => s
  | some c =>
    let rest := (s.job c).remake.filter (fun x => decide (x.1 ≠ f))
    let vs := ((s.job c).remake.find? (fun x => decide (x.1 = f))).map Prod.snd
    let s := s.puts ((flmGroup f).zip (vs.getD []))
    let s := ((s.openFlume f).flmSync f).modJob c (fun j => { j with remake := rest })
    if rest.isEmpty then s.startAgain c else s

/-- FLM_ZEROING_DONE: both regions are zero and the flume is UNBOUND (R158); one that a redraw creates again is bound at once (R272). -/
def execFlmZeroingDone (f : Fin 8192) (s : State) : Result :=
  .next (if s.flmState f.val = flmZEROING then ((s.wipeFlume f.val).unbindFlume f.val).remakeFlume f.val else s)

/-- No buddy copy outlives a redraw: the ones under way are dropped, and none is current until the first commit under the new tables (R370). A checkpoint
attempt whose chain is not complete is broken: what it still had to read is not read, and module 0 ends it by its timeout (R372; log entry 158). -/
def State.breakCkpt (s : State) (c : Nat) : State :=
  let s := (s.buddyDrop c).modCkpt c (fun x => { x with bin := none, bover := false })
  let s := s.put (R.CKPT_BSTEP.valid c) 0
  if ckARMED ≤ s.ckState c ∧ s.ckState c ≤ ckCHAINING then s.modCkpt c (fun x => { x with broken := true, reading := false, todo := [] }) else s

/-- The redraw (R272, R369): issue stops, flumes close, building slots drop, tables and routes are renumbered, the lost layers are
recovered at the holder, and FWD/BWD starts once the flumes of the new tables exist again (log entries 70 and 160). -/
def State.redrawWithout (s : State) (c f : Nat) (t : CutTable) : State :=
  let m := s.moduleOf c
  let n := t.nmodules
  let s := s.haltSeqs c
  let rank := fun st => ((t.rows.take st).filter (fun r => decide (rowModule r ≠ f))).length
  let fs := (s.ctxFlumes c).filter (fun x => decide (s.flmState x = flmOPEN ∨ s.flmState x = flmHELD))
  let again := fs.filterMap (s.remakeDesc t f m fs rank)
  let tabs := [0, 1, 2].map (fun p => (s.cutTable c p).map (fun u => (u.relink m (s.flumeName t f m fs)).without f))
  let s := (s.ctxFlumes c).foldl State.closeFlume s
  let s := s.dropBuilding c
  let ks := (List.range 96).filter (fun k => s.seqBound k && decide (s.seqCtx k = c))
  let s := ks.foldl (fun s k => (s.clearMarks k).puts [(R.CUT_PH.active k, 0), (R.CUT_PH.wait k, 0),
    (R.SEQ_BIND.stage (k / 4) (k % 4), rank (s.seqStage k))]) s
  let s := s.shrinkRoute c n f m
  let s := (s.setJob c { Job.empty with poison0 := (s.job c).poison0, ver0 := (s.job c).ver0, done := (s.job c).done, redrawn := (s.job c).done, remake := again }).put
    (R.CUT_CTL.module c) (ringIndex n f m)
  let s := tabs.zipIdx.foldl (fun s x => match x.1 with
    | some u => ({ s with cutPend := KMap.drop s.cutPend (3 * c + x.2) }).setPending c x.2 u
    | none => s) s
  let s := if m = (f + 1) % n then s.recoverLayers c f t ((tabs.headD none).getD t) else s
  let s := s.breakCkpt c
  if again.isEmpty then s.startAgain c else s

/-- SHRINK (R369, R370, R545): with shrink_pin the context is halted; with a buddy copy of the last committed step at the lost module's holder
the job is redrawn; without one the copy is lost and the context is halted. `bankOk` is what the holder reports to the others. Banks that are not in the
buddy region hold no copy (R391), and memory in self-refresh makes the redraw wait (R392). -/
def execShrink (c : Fin 64) (bankOk : Bool) (s : State) : Result :=
  let c := c.val
  .next (match (s.job c).lost, s.cutTable c 0 with
    | f :: more, some t =>
      let n := t.nmodules
      let m := s.moduleOf c
      let h := (f + 1) % n
      let good := s.flag (R.CKPT_BUDDY.en c) && !more.contains h &&
        (if m = h then s.flag (R.CKPT_BSTEP.valid c) && decide (some (s.get (R.CKPT_BSTEP.step c)) = (s.job c).done) && s.banksOk c else bankOk)
      if n ≤ f ∨ f = m ∨ s.patrolPaused = true then s
      else if s.flag R.RAS_CTL.shrink_pin then s.haltCtx c
      else if good then s.redrawWithout c f t
      else (s.raise E.CKPT_BUDDY_LOST (some c) (atSteward 0) f).haltCtx c
    | _, _ => s)

end Sys2Proof.Machine
end

