-- ==== Sys2Proof/Machine/Meter.lean ====
section
/-! DEFINITION. Machine/Meter.lean: the meter records as S0 receives them, the mirror and apportionment (R523 to R530). -/

namespace Sys2Proof.Machine

/-- The place of the Scaler link in the log (R537). -/
def atScaler : Where := ⟨0, 7, 0⟩

/-! ## Activity (R523 to R525) -/

/-- Counter `i` of die `n`: 0 to 7 the arrays', 8 the sap line's, 9 and 10 the glaze units', 11 to 14 the sequencers' (R524). -/
def actCounter (n i : Nat) : Fld :=
  if i < 9 then R.MMA_ACT.count n i else if i < 11 then R.GLZ_ACT.count n (i - 9) else R.SEQ_CNT.issued n (i - 11)

/-- pJ for each unit of counter `i` of a die (R525). -/
def State.actWeight (s : State) (i : Nat) : Nat :=
  if i < 8 then s.get R.MTR_APCFG.w_arr else if i = 8 then s.get R.MTR_APCFG.w_sap
  else if i < 11 then s.get R.MTR_APCFG.w_glz else s.get R.MTR_APCFG.w_bnd

/-- One counter sampled (R524): its difference goes to the owner at the earlier sample, and the owner now is kept with its value. -/
def State.sampleOne (s : State) (key : Nat) (f : Fld) (w owner : Nat) : State :=
  let cur := s.get f
  let m := s.meter
  let old := KMap.find (fun _ => (0, 0)) m.last key
  let d := if cur < old.1 then cur else cur - old.1
  let act := if old.2 = 0 then m.act
             else KMap.put (fun _ => 0) m.act (old.2 - 1) (KMap.find (fun _ => 0) m.act (old.2 - 1) + w * d)
  { s with meter := { m with act := act, last := KMap.put (fun _ => (0, 0)) m.last key (cur, owner) } }

/-- The owner of a die as a sample keeps it. -/
def State.dieOwner (s : State) (n : Nat) : Nat := if s.flag (R.DIE_OWN.assigned n) then s.get (R.DIE_OWN.ctx n) + 1 else 0

/-- The counters of the dies from `lo` to `hi - 1` sampled. -/
def State.sampleDies (s : State) (lo hi : Nat) : State :=
  (List.range 24).foldl (fun s n =>
    if lo ≤ n ∧ n < hi then
      (List.range 15).foldl (fun s i => s.sampleOne (16 * n + i) (actCounter n i) (s.actWeight i) (s.dieOwner n)) s
    else s) s

/-- Every counter sampled (R524). -/
def State.sampleActivity (s : State) : State :=
  (List.range 64).foldl (fun s ch =>
    s.sampleOne (1024 + ch) (R.HAUL_BYTES.count ch) (s.get R.MTR_APCFG2.w_haul)
      (if s.flag (R.HAUL_CHAN.en ch) then s.chanCtx ch + 1 else 0)) (s.sampleDies 0 24)

/-! ## Intervals (R523, R526, R527) -/

/-- The fields of a meter record that S0 uses (R518): flags, number, energy, seconds, serial number. -/
def mrFlags (r : List Byte) : Nat := fieldAt r 5 1
/-- R518. -/
def mrSeq (r : List Byte) : Nat := fieldAt r 8 8
/-- R518. -/
def mrEnergy (r : List Byte) : Nat := fieldAt r 16 8
/-- R518. -/
def mrSecs (r : List Byte) : Nat := fieldAt r 24 8
/-- R518. -/
def mrSerial (r : List Byte) : Nat := fieldAt r 56 8

/-- A signature over bytes that the model does not hold (an SPDM transcript): a value the model leaves open. -/
def State.takeSig (s : State) : State × List Byte := ({ s with free := s.free + 1 }, leBytes 96 (Config.signature s.free).toNat)

/-- Bytes signed with the alias key: the signature and the key's kid (R467, R526). -/
def State.aliasSign (s : State) (msg : List Byte) : State × List Byte :=
  ({ s with free := s.free + 1 }, ecdsaSign s.aliasKey (ecScalar (leBytes 56 (Config.sigNonce s.free).toNat)) msg ++ s.aliasKid)

/-- The apportionment statement (R526) without its signature. -/
def State.stmtBody (s : State) (r : List Byte) (gap : Bool) : List Byte :=
  let m := s.meter
  leBytes 4 0x5050_4141 ++ leBytes 1 1 ++ leBytes 1 (1 + 2 * b2n gap + 4 * (mrFlags r % 2)) ++ leBytes 2 0 ++ leBytes 8 (mrSeq r)
    ++ leBytes 8 (mrEnergy r) ++ leBytes 8 m.overhead ++ leBytes 8 m.intervals ++ leBytes 8 (s.get R.SEC_MGEN.gen) ++ leBytes 16 0
    ++ (List.range 64).flatMap (fun c => leBytes 8 (KMap.find (fun _ => 0) m.total c) ++ leBytes 8 (KMap.find (fun _ => 0) m.closed c)
      ++ leBytes 4 (KMap.find (fun _ => 0) m.inst c) ++ leBytes 12 0)

/-- The statement signed and published in the buffer that the index does not name (R526, R528). -/
def State.publishStmt (s : State) (r : List Byte) (gap : Bool) : State :=
  let k := 1 - s.get R.MTR_IDX.app
  let body := s.stmtBody r gap
  let s' := s.aliasSign body
  let s := { s'.1 with stmts := KMap.put (fun _ => []) s.stmts k (body ++ s'.2) }
  s.put R.MTR_IDX.app k

/-- The interval from record `p` to record `r` (R523): a gap interval goes to overhead whole, and a record of a stopped meter gives no energy
(R527, R528). -/
def State.interval (s : State) (p r : List Byte) : State :=
  let s := s.sampleActivity
  let m := s.meter
  let em := if bit (mrFlags r) 2 then 0 else mrEnergy r - mrEnergy p
  let t := mrSecs r - mrSecs p
  let d := em - s.get R.MTR_APCFG2.p_base * t * 10 / 36
  let tot := (m.act.map Prod.snd).sum
  let e := fun c => if m.gap ∨ tot = 0 then 0 else d * KMap.find (fun _ => 0) m.act c / tot
  let total := (List.range 64).foldl (fun k c => KMap.put (fun _ => 0) k c (KMap.find (fun _ => 0) k c + e c)) m.total
  let over_ := em - ((List.range 64).map e).sum
  let m' := { m with prev := some r, gap := false, total := total, overhead := m.overhead + over_, intervals := m.intervals + 1, act := [] }
  { s with meter := m' }.publishStmt r m.gap

/-- A record processed: the first one of a series starts the first interval, one of another Scaler a new series (R527). -/
def State.apportion (s : State) (r : List Byte) : State :=
  let start := fun (s : State) =>
    let s := s.sampleActivity
    { s with meter := { s.meter with prev := some r, gap := false, act := [] } }
  match s.meter.prev with
  | none => start s
  | some p => if mrSerial p ≠ mrSerial r then start (s.raise E.PWR_METER_LINK none atScaler (mrSerial r)) else s.interval p r

/-! ## The mirror (R528, R529) -/

/-- The log entries of the Scaler copied whole, each to the place of its number (R521, R528). -/
def State.copyLog (s : State) : State :=
  let s := s.scaler.log.foldl (fun s e => { s with mtrLog := KMap.put (fun _ => []) s.mtrLog (fieldAt e 0 4 % 256) e }) s
  s.put R.MTR_LOGHD.newest s.scaler.evt

/-- The mirror refreshed from a record (R529). -/
def State.mirror (s : State) (r : List Byte) : State :=
  let k := 1 - s.get R.MTR_IDX.rec
  let f := mrFlags r
  let s := { s with mtrRec := KMap.put (fun _ => []) s.mtrRec k r }
  let s := s.puts [(R.MTR_IDX.rec, k), (R.MTR_ID.fwid, fieldAt r 44 8), (R.MTR_STAT.cksum, fieldAt r 52 4), (R.MTR_STAT.link, 1),
    (R.MTR_STAT.seal_broken, f % 2), (R.MTR_STAT.over_range, b2n (bit f 1)), (R.MTR_STAT.stopped, b2n (bit f 2)),
    (R.MTR_CLEN.len, min s.scaler.cert.length 2048)]
  s.copyLog

/-- True when S0 processes records: it runs, half A is not in reset, and the module is not in Freeze (R527). -/
def State.metering (s : State) : Bool :=
  decide (2 ≤ s.boot ∧ s.boot ≤ 5) && decide (s.get R.PWR_STAT.rung ≠ 3) && !s.halfInReset 0

/-- METER_RECORD_RECEIVED (R523, R527 to R530): the record on the link. One that S0 cannot process leaves a gap. -/
def execMeterRecordReceived (s : State) : Result :=
  .next (match s.wire with
    | none => s
    | some r =>
      let s := { s with wire := none }
      if !s.metering then { s with meter := { s.meter with gap := s.meter.gap || s.meter.prev.isSome } }
      else
        let first := bit (mrFlags r) 0 && !s.flag R.MTR_STAT.seal_broken
        let s := s.mirror r
        let s := if first then s.raise E.PWR_METER_SEAL none atScaler (mrSeq r) else s
        let s := if bit (mrFlags r) 2 then s.raise E.PWR_METER_FAIL none atScaler (mrSeq r) else s
        s.apportion r)

/-- METER_LINK_TIMEOUT (R527, R530): no record for 3 s. -/
def execMeterLinkTimeout (s : State) : Result :=
  .next (if s.metering ∧ (s.flag R.MTR_STAT.link = true ∨ s.meter.gap = false) then
      let s := (s.put R.MTR_STAT.link 0).raise E.PWR_METER_LINK none atScaler 0
      { s with meter := { s.meter with gap := true } }
    else s)

/-- The instance of a context closed (R526). -/
def State.closeInstance (s : State) (c : Nat) : State :=
  let m := s.meter
  { s with meter := { m with total := KMap.drop m.total c
                             closed := KMap.put (fun _ => 0) m.closed c (KMap.find (fun _ => 0) m.total c)
                             inst := KMap.put (fun _ => 0) m.inst c (KMap.find (fun _ => 0) m.inst c + 1) } }

end Sys2Proof.Machine
end

