-- ==== Sys2Proof/Machine/Scaler.lean ====
section
/-! DEFINITION. Machine/Scaler.lean: the energy meter (R512 to R521). It meters and signs whatever the module does, and nothing of the module
reaches it. -/

namespace Sys2Proof.Machine

/-- The Scaler changed. -/
def State.modScaler (s : State) (f : Scaler → Scaler) : State := { s with scaler := f s.scaler }

/-- An event in the log of 256 entries (R521). -/
def Scaler.note (x : Scaler) (typ datum : Nat) : Scaler :=
  let e := leBytes 4 (x.evt + 1) ++ leBytes 1 typ ++ leBytes 1 0 ++ leBytes 2 datum ++ leBytes 8 (x.fine / 1000) ++ leBytes 8 x.secs ++ leBytes 8 0
  { x with evt := x.evt + 1, log := (e :: x.log).take 256 }

/-- The meter record without its signature (R518). -/
def Scaler.recordBody (x : Scaler) (power volts amps : Nat) (ovr : Bool) : List Byte :=
  leBytes 4 0x5245_544D ++ leBytes 1 1 ++ leBytes 1 (b2n x.broken + 2 * b2n ovr + 4 * b2n x.stopped) ++ leBytes 2 0 ++ leBytes 8 x.seq
    ++ leBytes 8 (x.fine / 1000) ++ leBytes 8 x.secs ++ leBytes 4 power ++ leBytes 2 volts ++ leBytes 2 amps ++ leBytes 4 x.evt
    ++ leBytes 8 x.fwid ++ leBytes 4 x.cksum ++ leBytes 8 x.serial ++ leBytes 96 0

/-- A Scaler's signature (R512, R518). -/
def Scaler.sign (x : Scaler) (n : Nat) (body : List Byte) : List Byte :=
  let num := fun (v : BitVec 448) => ecScalar (leBytes 56 v.toNat)
  ecdsaSign (num (Config.scalerKey x.serial)) (num (Config.scalerNonce n)) body

/-- SCALER_RECORD (R515, R516, R518, R520): a second of the Scaler's clock. `gain` is the energy of the second in the finer unit, which a
stopped meter does not register. -/
def execScalerRecord (gain : BitVec 64) (power : BitVec 32) (volts amps : BitVec 16) (ovr : Bool) (s : State) : Result :=
  .next (
    if !s.scaler.on then s
    else
      let s := s.modScaler (fun x => { x with fine := if x.stopped then x.fine else x.fine + gain.toNat, seq := x.seq + 1, secs := x.secs + 1 })
      let body := s.scaler.recordBody power.toNat volts.toNat amps.toNat ovr
      { s with free := s.free + 1, wire := some (body ++ s.scaler.sign s.free body) })

/-- SCALER_PULSE (R517, R520): one pulse for each multiple of 10 mWh that the register has crossed. -/
def execScalerPulse (s : State) : Result :=
  let x := s.scaler
  .next (
    if x.on ∧ x.stopped = false ∧ x.pulses < x.fine / 10000 then
      (s.modScaler (fun x => { x with pulses := x.pulses + 1 })).emit (.pin 0 1)
    else s)

/-- SCALER_POWER_UP (R512, R516, R520, R521, R527): the Scaler that ran before resumes, or another one starts; a failed self-test stops
metering. -/
def execScalerPowerUp (ok : Bool) (id : ScalerId) (s : State) : Result :=
  .next (
    if s.scaler.on then s
    else s.modScaler (fun x =>
      let x := match id with
        | .same => x
        | .other serial fwid cksum fine seq secs evt cert =>
          { on := false, fine := fine.toNat, seq := seq.toNat, secs := secs.toNat, evt := evt.toNat, log := [], broken := false, stopped := false
            fwid := fwid.toNat, cksum := cksum.toNat, serial := serial.toNat, cert := cert, pulses := fine.toNat / 10000 }
      let x := { x with on := true }.note 1 0
      if ok then x else { x with stopped := true }.note 7 0))

/-- SCALER_POWER_DOWN (R516, R521): input below 40 V. -/
def execScalerPowerDown (volts : BitVec 16) (s : State) : Result :=
  .next (if s.scaler.on ∧ volts.toNat < 4000 then s.modScaler (fun x => { x.note 2 0 with on := false }) else s)

/-- SCALER_SEAL_BROKEN (R514, R521). -/
def execScalerSealBroken (s : State) : Result :=
  .next (if s.scaler.broken then s else s.modScaler (fun x => { x with broken := true }.note 6 0))

/-- SCALER_INPUT_EVENT (R521): types 3 input fault, 4 input out of range, 5 overcurrent. -/
def execScalerInputEvent (kind : Fin 3) (datum : BitVec 16) (s : State) : Result :=
  .next (if s.scaler.on then s.modScaler (fun x => x.note (3 + kind.val) datum.toNat) else s)

/-- SCALER_REVERIFICATION (R514, R521): the flags are cleared and metering resumes. -/
def execScalerReverification (fwid : BitVec 64) (cksum : BitVec 32) (s : State) : Result :=
  .next (s.modScaler (fun x => { x with broken := false, stopped := false, fwid := fwid.toNat, cksum := cksum.toNat }.note 8 0))

end Sys2Proof.Machine
end

