-- ==== Sys2Proof/Machine/Host.lean ====
section
/-! DEFINITION. Machine/Host.lean: the port (R429 to R433), BAR4 (R436), power domains as a rung and PWR_PDOFF set them (R491, R492), die
ownership (R438), ownership domains (R455) and orders (R457, R458). -/

namespace Sys2Proof.Machine

/-! ## The port (R429 to R433) -/

/-- True while the port answers: past the PCIe row of the start-up, with the link up (R430, R508). -/
def State.portUp (s : State) : Bool := s.linkUp && decide (2 ≤ s.boot ∧ s.boot ≤ 5)

/-- True when PCIe function `c` exists (R431). -/
def State.funcExists (s : State) (c : Nat) : Bool := decide (c = 0 ∨ c ≤ s.vfs)

/-- True when function `c` answers memory requests: it exists, and it is in D0 (R429; what D3hot leaves is PCIe's: PRESUMED, log entry 161). -/
def State.answers (s : State) (c : Nat) : Bool := s.funcExists c && !(s.fn c).d3

/-- A configuration register (R429, R433): device id, class code, interrupt pin, Bus Master Enable and the kinds of the PF's BARs have the values
of the spec. -/
def State.cfgWord (s : State) (c off : Nat) : Nat :=
  let w := (Config.cfgReg c off).toNat
  if off = 0x00 then setBits w 16 16 (if c = 0 then 0xC540 else 0xC541)
  else if off = 0x04 then setBits w 2 1 (b2n (s.fn c).master)
  else if off = 0x08 then setBits w 8 24 0x12_0000
  else if c = 0 ∧ (off = 0x10 ∨ off = 0x18) then setBits w 0 4 4
  else if c = 0 ∧ off = 0x20 then setBits w 0 4 12
  else if off = 0x3C then setBits w 8 8 0
  else w

/-- Log of the size of BAR4 of the PF, or of each VF's (R433). -/
def State.barSize (s : State) (vf : Bool) : Nat := if vf then s.b4size.2 else s.b4size.1

/-- Greatest log of the size of a BAR4; the least is 30 (R433). -/
def barMost (vf : Bool) : Nat := if vf then 38 else 41

/-- The size of a BAR4 changed; a size that R433 does not give is not taken. -/
def State.resizeBar (s : State) (vf : Bool) (n : Nat) : State :=
  if 30 ≤ n ∧ n ≤ barMost vf then { s with b4size := if vf then (s.b4size.1, n) else (n, s.b4size.2) } else s

/-- What R429 and R433 state of a capability. -/
def State.cfgItem (s : State) : CfgItem → Nat
  | .maxPayload => 512
  | .maxRead => 4096
  | .width => 8
  | .rate => 640
  | .tags => 14
  | .vectors => 32
  | .totalVfs => 63
  | .initialVfs => 63
  | .vfOffset => 1
  | .vfStride => 1
  | .serial => s.mfg.serial
  | .doe => 1
  | .bar4Min _ => 30
  | .bar4Max vf => barMost vf
  | .bar4 vf => s.barSize vf

/-- True for a capability that only the PF has (R429, R433). -/
def CfgItem.pfOnly : CfgItem → Bool
  | .totalVfs | .initialVfs | .vfOffset | .vfStride | .doe | .bar4Min _ | .bar4Max _ | .bar4 _ => true
  | .maxPayload | .maxRead | .width | .rate | .tags | .vectors | .serial => false

/-- The rings of a context ask for the entries they may fetch (R444). -/
def State.askAll (s : State) (c : Nat) : State := (List.range 16).foldl (fun s q => s.askFetch c q) s

/-- A function's configuration changed: vectors that are no longer held back are sent, and fetching goes on (R432, R447). -/
def State.setFn (s : State) (c : Nat) (f : Fn) : State :=
  (({ s with fns := KMap.put (fun _ => Fn.off) s.fns c f }).flushVectors c).askAll c

/-! ## Starting a teardown (R437, R439 steps 1 and 2, R440) -/

/-- An ACTIVE context enters TEARDOWN: no work is taken from it, ring commands in progress end without completions, and its sequencers are
halted. A context in TEARDOWN or ZEROING stays in the teardown in progress. -/
def State.beginTeardown (s : State) (c : Nat) : State :=
  if s.get (R.CTX_STATE.state c) = 1 then
    let s := s.put (R.CTX_STATE.state c) 2
    let s := { s with srings := KMap.dropRange s.srings (16 * c) (16 * c + 16), fetched := KMap.drop s.fetched c }
    s.haltSeqs c
  else s

/-- The VFs cease to exist, and with them their PCIe state (R431, R447). -/
def State.dropVfs (s : State) : State :=
  let pf := fun (k : Nat) => decide (k < 32)
  { s with vfOn := false, vfs := 0, fns := s.fns.filter (fun e => decide (e.1 = 0)), msixTab := s.msixTab.filter (fun e => pf e.1)
           unmask := s.unmask.filter (fun e => pf e.1), pba := s.pba.filter (fun e => pf e.1) }

/-- VF_ENABLE (R431, R437, R447): VF contexts come into existence; a clear of VF Enable tears down every context that exists, the PF's own
included. NumVFs does not change while VF Enable is set (PRESUMED, PCIe; log entry 81). -/
def execVfEnable (on : Bool) (num : Fin 64) (s : State) : Result :=
  .next (
    if !s.portUp then s
    else if on then
      if s.vfOn = false then
        (List.range 64).foldl (fun s c =>
          if 0 < c ∧ c ≤ num.val ∧ s.get (R.CTX_STATE.state c) = 0 then s.put (R.CTX_STATE.state c) 1 else s) { s with vfOn := true, vfs := num.val }
      else s
    else if s.vfOn = false then s
    else (List.range 64).foldl State.beginTeardown s.dropVfs)

/-! ## BAR4 (R25, R385, R386, R392, R436, R539, R565) -/

/-- True when BAR4 of function `c` holds the bytes (R433): a request beyond it is none of this function's. -/
def State.inBar4 (s : State) (c off n : Nat) : Bool := s.answers c && decide (off + n ≤ 2 ^ s.barSize (decide (0 < c)))

/-- The device address of an offset (R436). -/
def State.bar4Addr (s : State) (c off : Nat) : Nat := s.get (R.CTX_B4BASE.base c) * 4096 + off

/-- The first error of an access to `n` bytes at `a` whose target is not available, and the address that meets it (R25, R565). -/
def State.rangeDown (s : State) (a n : Nat) : Option (Nat × Nat) :=
  ((s.refused a n).head?).bind (fun x => (s.unavailable x).map (fun e => (e, x)))

/-- The core-sample region or its far-tier copy holds the whole range (R379, R436). -/
def inSample (a n : Nat) : Bool := decide (a + n ≤ 0x1000_0000) || decide (0x02FF_F000_0000 ≤ a ∧ a + n ≤ 0x0300_0000_0000)

/-- A refused or failed read completes with Unsupported Request (R25, R436). -/
def State.bar4Ur (s : State) (c : Nat) : State := s.emit (.pcie 2 [c])

/-- BAR4_READ (R436): all ones before DEVICE_READY and in Rest, Freeze and Off; a read that meets a bad unit completes poisoned with all ones
(R385). -/
def execBar4Read (c : Fin 64) (off : BitVec 48) (n : BitVec 12) (s : State) : Result :=
  let c := c.val
  let n := n.toNat
  let a := s.bar4Addr c off.toNat
  let ones := List.replicate n 0xFF
  .next (
    if !s.portUp then s
    else if !s.inBar4 c off.toNat n then s.bar4Ur c
    else if !s.flag R.HOST_STAT.ready then s.emit (.pcie 0 (c :: ones))
    else if 2 ≤ s.get R.PWR_STAT.rung then (s.raise E.PWR_ASLEEP (some c) (atSteward 0) a).emit (.pcie 0 (c :: ones))
    else if s.flag R.RAS_STAT.fatal ∧ ¬ (c = 0 ∧ inSample a n = true) then s.bar4Ur c
    else if s.get (R.CTX_STATE.state c) ≠ 1 ∨ 2 ^ 48 < a + n ∨ !((decide (c = 0) && inSample a n) || s.permits c a n false) then
      (s.permLog (s.entryLd a) c a n 4 false).bar4Ur c
    else match s.rangeDown a n with
      | some (e, x) => (s.raise e (some c) (s.downAt e x) a).bar4Ur c
      | none =>
        ((s.noteUse (some c) a n).crossing a n).emit
          (if (s.readBad a n).isEmpty then .pcie 0 (c :: (s.bytes a n).map BitVec.toNat) else .pcie 1 (c :: ones)))

/-- BAR4_WRITE (R436): dropped before DEVICE_READY, in Rest, Freeze and Off, in the error state and where refused. -/
def execBar4Write (c : Fin 64) (off : BitVec 48) (data : List (BitVec 8)) (s : State) : Result :=
  let c := c.val
  let n := data.length
  let a := s.bar4Addr c off.toNat
  .next (
    if !s.portUp ∨ !s.inBar4 c off.toNat n ∨ !s.flag R.HOST_STAT.ready then s
    else if 2 ≤ s.get R.PWR_STAT.rung then s.raise E.PWR_ASLEEP (some c) (atSteward 0) a
    else if s.flag R.RAS_STAT.fatal then s
    else if s.get (R.CTX_STATE.state c) ≠ 1 ∨ 2 ^ 48 < a + n ∨ !s.permits c a n true then s.permLog (s.entryLd a) c a n 4 true
    else match s.rangeDown a n with
      | some (e, x) => s.raise e (some c) (s.downAt e x) a
      | none =>
        let lost := (s.badIn a n).filter (fun u => !coversUnit a n u)
        lost.foldl (fun s u => s.noteBad (some c) u) ((s.write a data).crossing a n))

/-! ## Power domains that the host holds off (R492) -/

/-- PWR_PDOFF_WRITE (R492, R510): a bit set outside the cases of R492 is ignored and CFG_RANGE logged. -/
def execPwrPdoffWrite (m : Master) (j : Fin 2) (v : BitVec 64) (s : State) : Result :=
  let j := j.val
  let off := 0x0019_0030 + 8 * j
  let old := s.get (R.PWR_PDOFF.hold j)
  let real := fun b => decide (64 * j + b < 104)
  let bad := fun b => v.getLsbD b && real b && !s.pdMayHold (64 * j + b)
  let new := ((List.range 64).map (fun b =>
    if real b && (if bad b then bit old b else v.getLsbD b) then 2 ^ b else 0)).sum
  .next (s.gated off (
    if !s.owns m 5 then s.ownDrop m off
    else
      let s := if (List.range 64).any bad then s.cfgRange none off else s
      (s.put (R.PWR_PDOFF.hold j) new).holdDomains))

/-! ## Die ownership (R438) -/

/-- The result of a die command. -/
def State.dieResult (s : State) (n r : Nat) : State := s.puts [(R.DIE_CSTAT.result, r), (R.DIE_CSTAT.die, n)]

/-- DIE_CMD assign (R438, R439, R492, R524): a die held off is powered first. -/
def execDieCmdAssign (die : Fin 24) (c : Fin 64) (s : State) : Result :=
  let n := die.val
  let c := c.val
  .next (s.gated 0x0018_1100 (
    if s.halfInReset (halfOfDie n) then s.raise E.LINK_HALF_DOWN (some c) (atEntry (ldOfDie n)) n
    else if s.flag R.DIE_CSTAT.busy then s.cfgRange (some c) 0x0018_1100
    else if s.flag (R.DIE_OWN.assigned n) ∨ s.flag (R.DIE_OWN.zeroing n) ∨ s.get (R.CTX_STATE.state c) ≠ 1 then
      (s.raise E.CFG_COMMIT (some c) (atLd (ldOfDie n)) n).dieResult n 2
    else
      let s := (s.puts [(R.DIE_OWN.assigned n, 1), (R.DIE_OWN.ctx n, c)]).holdDomains
      s.sampleActivity.dieResult n 1))

/-- True when an enabled window of context `c` covers a byte of the tile-store window of die `n`. -/
def State.windowOnDie (s : State) (c n : Nat) : Bool :=
  (List.range 16).any (fun w => let x := s.winOf false c w
                                x.1 && meet x.2.2.2 (tileBase n, tileBase n + tileBytes))

/-- DIE_CMD release (R438, R524): the die's zeroing begins. -/
def execDieCmdRelease (die : Fin 24) (s : State) : Result :=
  let n := die.val
  let c := s.get (R.DIE_OWN.ctx n)
  .next (s.gated 0x0018_1100 (
    if s.halfInReset (halfOfDie n) then s.raise E.LINK_HALF_DOWN none (atEntry (ldOfDie n)) n
    else if s.flag R.DIE_CSTAT.busy then s.cfgRange none 0x0018_1100
    else if (List.range 4).any (fun q => s.seqBound (4 * n + q)) ∨ (s.flag (R.DIE_OWN.assigned n) && s.windowOnDie c n) then
      (s.raise E.CFG_COMMIT (some c) (atLd (ldOfDie n)) n).dieResult n 2
    else (s.put (R.DIE_OWN.zeroing n) 1).sampleActivity.dieResult n 1))

/-- The tile store and tile registers of a die set to zero (R103, R438, R439). -/
def State.wipeDie (s : State) (n : Nat) : State :=
  let s := s.wipe (tileBase n) tileBytes
  let lo := tileKey n 0 0 0 0
  let hi := tileKey (n + 1) 0 0 0 0
  { s with tiles := KMap.dropRange s.tiles lo hi, tileBad := s.tileBad.filter (fun w => decide (2 * w < lo ∨ hi ≤ 2 * w)),
           tileSoft := s.tileSoft.filter (fun w => decide (2 * w < lo ∨ hi ≤ 2 * w)) }

/-- A die without an owner; PWR_PDOFF takes effect again (R438, R492). -/
def State.unassign (s : State) (n : Nat) : State :=
  ({ s.puts [(R.DIE_OWN.assigned n, 0), (R.DIE_OWN.zeroing n, 0), (R.DIE_OWN.ctx n, 0)] with ownHid := s.ownHid.filter (fun m => m ≠ n) }
    : State).holdDomains

/-- DIE_RELEASE_ZEROED (R438). -/
def execDieReleaseZeroed (die : Fin 24) (s : State) : Result :=
  let n := die.val
  .next (if s.flag (R.DIE_OWN.zeroing n) ∧ s.halfInReset (halfOfDie n) = false then (s.wipeDie n).unassign n else s)

/-! ## Ownership domains (R455) -/

/-- OWN_LOCK_WRITE (R455, R462): the field is RO to the host, and locked down until module warm reset. -/
def execOwnLockWrite (m : Master) (lockdown : Bool) (mgmt : BitVec 8) (s : State) : Result :=
  .next (s.gated 0x0018_2000 (match m with
    | .host => s
    | .mgmt => if s.flag R.OWN_LOCK.lockdown then s
               else s.puts [(R.OWN_LOCK.lockdown, b2n lockdown), (R.OWN_LOCK.mgmt, mgmt.toNat)]))

/-! ## Orders (R457, R458, R509, R539) -/

/-- True when kind and argument name an order (R457, R493). -/
def orderOk (kind arg : Nat) : Bool :=
  if kind = 1 then true else if kind = 2 then decide (arg < 2) else if kind = 3 then decide (arg < 24) else if kind = 4 then decide (arg < 64)
  else if kind = 5 then decide (arg < 5) else if kind = 6 then decide (1 ≤ arg ∧ arg ≤ 3800) else false

/-- True when the error state leaves the order open (R509, R539). -/
def State.orderTaken (s : State) (kind arg : Nat) : Bool :=
  !s.flag R.RAS_STAT.fatal || decide (kind = 1) || decide (kind = 5 ∧ arg = 4)

/-- What the last order of a master came to: 1 applied, 2 superseded, 3 refused (R460). -/
def State.orderResult (s : State) (o : Order) (r : Nat) : State :=
  if o.src = 0 then s.puts [(R.ORD_STAT.busy, 0), (R.ORD_STAT.result, r)]
  else if o.src = 1 then { s with mgmtRes := (o.kind, r) }
  else s

/-- The orders of master `src` are no longer its last: their results are not reported (R457, R460). -/
def untell (src : Nat) (l : List Order) : List Order := l.map (fun o => if o.src = src then { o with src := 3 } else o)

/-- A later order of one kind replaces the earlier one of its master in a slot (R458). -/
def putOrder (o : Order) (l : List Order) : List Order := l.filter (fun x => decide (x.kind ≠ o.kind)) ++ [o]

/-- An order given by a master (R457, R458). -/
def State.giveOrder (s : State) (m : Master) (kind arg : Nat) : State :=
  let arg := if kind = 1 then 0 else arg
  let ok := orderOk kind arg && s.orderTaken kind arg
  let s := match m with
    | .host => { s with won := untell 0 s.won, hostOrd := untell 0 s.hostOrd }
    | .mgmt => { s with won := untell 1 s.won, mgmtOrd := untell 1 s.mgmtOrd }
  let s := match m with
    | .host => s.puts [(R.ORD_STAT.kind, kind), (R.ORD_STAT.busy, b2n ok), (R.ORD_STAT.result, if ok then 0 else 3)]
    | .mgmt => { s with mgmtRes := (kind, if ok then 0 else 3) }
  if !ok then s.cfgRange none (16 * arg + kind)
  else match m with
    | .host => { s with hostOrd := putOrder ⟨kind, arg, 0⟩ s.hostOrd }
    | .mgmt => { s with mgmtOrd := putOrder ⟨kind, arg, 1⟩ s.mgmtOrd }

/-- True when the scope of order `y` lies inside that of `x` (R458). -/
def Order.covers (x y : Order) : Bool :=
  decide (x.kind = 1) || decide (x.kind = y.kind ∧ x.arg = y.arg) || decide (x.kind = 2 ∧ y.kind = 3 ∧ halfOfDie y.arg = x.arg)

/-- Resets and teardowns in the order of application, widest scope first and the management controller's before the host's; the second
list holds those that one already applied covers. -/
def resolveResets : List Order → List Order → List Order → List Order × List Order
  | [], won, lost => (won, lost)
  | o :: os, won, lost => if won.any (fun w => w.covers o) then resolveResets os won (lost ++ [o]) else resolveResets os (won ++ [o]) lost

/-- Of two orders of one kind the one that `better` prefers, the first where they are equal, and the other. -/
def resolvePair (better : Nat → Nat → Bool) : List Order → List Order × List Order
  | [] => ([], [])
  | [a] => ([a], [])
  | a :: b :: _ => if better b.arg a.arg then ([b], [a]) else ([a], [b])

/-- The winners of a slot in the order of application, and the superseded orders (R458). -/
def resolveOrders (mgmt host : List Order) : List Order × List Order :=
  let all := mgmt ++ host
  let of := fun k => all.filter (fun o => decide (o.kind = k))
  let resets := of 1 ++ of 2 ++ of 3 ++ of 4
  if resets.isEmpty then
    let r := resolvePair (fun x y => decide (y < x)) (of 5)
    let c := resolvePair (fun x y => decide (x < y)) (of 6)
    (r.1 ++ c.1, r.2 ++ c.2)
  else
    let r := resolveResets resets [] []
    (r.1, r.2 ++ of 5 ++ of 6)

/-- The return to Bake begins when a reset, a teardown or a conventional reset waits in Rest or Freeze (R509). -/
def State.wakeFor (s : State) : State :=
  if 2 ≤ s.get R.PWR_STAT.rung ∧ s.get R.PWR_STAT.rung < 4 ∧ s.flag R.PWR_STAT.busy = false
      ∧ s.won.any (fun o => decide (o.kind ≤ 4 ∨ o.kind = 15)) = true then
    s.puts [(R.PWR_STAT.busy, 1), (R.PWR_STAT.target, 0)]
  else s

/-- ORDER_SLOT_END (R457, R458, R484). -/
def execOrderSlotEnd (s : State) : Result :=
  let r := resolveOrders s.mgmtOrd s.hostOrd
  let s := r.2.foldl (fun s o => s.orderResult o 2) s
  .next ({ s with won := s.won ++ r.1, hostOrd := [], mgmtOrd := [], fw := { s.fw with slot := 0 } }.wakeFor)

/-- True when the winner `o` may be applied: no reset or teardown stands before it. -/
def orderFirst (k : Nat) (a : Nat) : List Order → Option Order
  | [] => none
  | o :: os => if o.kind = k ∧ o.arg = a then some o else if o.kind ≤ 4 ∧ k ≤ 4 then none else orderFirst k a os

/-- The winner that a reset or teardown row applies now. -/
def State.orderDue (s : State) (k a : Nat) : Option Order := if s.awake then orderFirst k a s.won else none

/-- A winner applied: it leaves the list and is reported (R457). -/
def State.orderDone (s : State) (o : Order) : State := { s with won := s.won.erase o }.orderResult o 1

end Sys2Proof.Machine
end

