-- ==== Sys2Proof/Machine/Teardown.lean ====
section
/-! DEFINITION. Machine/Teardown.lean: the teardown of a context, from its order or reset to the release of its resources (R437, R439,
R440, R461, R462, R481 to R483, R505). -/

namespace Sys2Proof.Machine

/-- The sequencers bound for a context. -/
def State.seqsOf (s : State) (c : Nat) : List Nat := (List.range 96).filter (fun k => s.seqBound k && decide (s.seqCtx k = c))

/-- True when the array, glaze, sap-line and DMA work and the loads of a context's sequencers have completed (R439 step 2). -/
def State.drained (s : State) (c : Nat) : Bool :=
  (s.seqsOf c).all (fun k => !s.arraysBusy k && !s.glazeBusy k && !s.sapBusy k && (s.seq k).dma.isEmpty && (s.seq k).loads.isEmpty)

/-- The version table and the variant table of stage `l` zeroed (R192, R288). -/
def State.resetTables (s : State) (l : Nat) : State :=
  let v := 0x0110_0000 + 0x40_0000 * (l / 24) + 0x2_0000 * (l % 24)
  let s := ((s.regReset (0x0380_0000 + 0x2000 * l) (0x0380_0000 + 0x2000 * l + 0x2000)).regReset (0x038D_0000 + 0x20 * l)
    (0x038D_0000 + 0x20 * l + 0x20)).regReset v (v + 0x2_0000)
  { s with pinEnd := KMap.drop s.pinEnd l, refill := KMap.dropRange s.refill (4 * l) (4 * l + 4) }

/-- The scale registers and guard tags of a die at their reset values (R293, R307). -/
def State.resetScales (s : State) (n : Nat) : State :=
  let a := 0x0201_0000 + 0x8_0000 * n
  let s := s.regReset a (a + 0x8080)
  { s with sctlPend := KMap.dropRange s.sctlPend (256 * n) (256 * n + 256) }

/-- What the foreman and S0 keep of a stage's phases (R265 to R269). -/
def State.resetPhase (s : State) (l : Nat) : State :=
  let s := (s.regReset (0x0014_3000 + 8 * l) (0x0014_3000 + 8 * l + 8)).regReset (0x0014_3400 + 8 * l) (0x0014_3400 + 8 * l + 8)
  { s.clearMarks l with owed := KMap.drop s.owed l }

/-- The CUT_, NORM_, NUM_ and CKPT_ registers of a context, its job and its attempts, ended with no outcome (R307, R372, R439). -/
def State.resetJob (s : State) (c : Nat) : State :=
  let r := fun (s : State) a n => s.regReset a (a + n)
  let s := r (r (r (r (r (r s (0x0014_0000 + 0x20 * c) 0x20) (0x0014_2000 + 8 * c) 8) (0x0014_4000 + 0x10 * c) 0x10)
    (0x0014_5000 + 8 * c) 8) (0x0015_0000 + 0x40 * c) 0x40) (0x03A0_0000 + 0x100 * c) 0x100
  { s with cutForce := KMap.dropRange s.cutForce (3 * c) (3 * c + 3), cutPend := KMap.dropRange s.cutPend (3 * c) (3 * c + 3)
           jobs := KMap.drop s.jobs c, ckpts := KMap.drop s.ckpts c, scaleDue := s.scaleDue.filter (fun x => decide (x.2.2.1 ≠ c)) }

/-- True while a flume that is closing waits for the acknowledgement of its close on channel `ch` (R158). -/
def State.chanCloses (s : State) (ch : Nat) : Bool := match s.flumeOn ch with
  | some f => decide (s.flmState f = flmCLOSING) && !(s.flume f).peerAck && !(s.flume f).linkDown
  | none => false

/-- The Skidway channels and the reduction route of a context (R439). A channel on which the acknowledgement of a close is awaited is taken back
once it has come (DESIGN CHOICE, log entry 121). -/
def State.resetChannels (s : State) (c : Nat) : State :=
  let keys := (s.regs.map Prod.fst).filterMap (fun a =>
    let ch := (a / 8 - 0x03B1_0000) / 8
    if 0x03B1_0000 ≤ a / 8 ∧ ch < 8192 ∧ a = (R.SKW_CHAN.en ch).a ∧ s.get (R.SKW_CHAN.ctx ch) = c ∧ s.chanCloses ch = false then some ch
    else none)
  let s := keys.foldl (fun s ch => s.regReset (0x03B1_0000 + 8 * ch) (0x03B1_0000 + 8 * ch + 8)) s
  s.regReset (0x03B3_0000 + 0x10 * c) (0x03B3_0000 + 0x10 * c + 0x10)

/-- The context page at its reset values, the state aside (R461). -/
def State.resetPage (s : State) (c : Nat) : State :=
  let st := s.get (R.CTX_STATE.state c)
  let a := 0x0010_0000 + 0x1000 * c
  let s := (s.regReset a (a + 0x1000)).put (R.CTX_STATE.state c) st
  { s with srings := KMap.dropRange s.srings (16 * c) (16 * c + 16), crings := KMap.dropRange s.crings (16 * c) (16 * c + 16)
           fetched := KMap.drop s.fetched c }

/-- CONTEXT_TEARDOWN (R439, R457): order kind 4. -/
def execContextTeardown (c : Fin 64) (s : State) : Result :=
  .next (match s.orderDue 4 c.val with
    | some o => (s.beginTeardown c.val).orderDone o
    | none => s)

/-- TEARDOWN_DRAIN_DONE (R439 steps 3 and 4, R423, R526): resources are taken back, sequencers unbound, and the counters sampled. -/
def execTeardownDrainDone (c : Fin 64) (s : State) : Result :=
  let c := c.val
  .next (
    if s.get (R.CTX_STATE.state c) ≠ 2 ∨ s.drained c = false then s
    else
      let ks := s.seqsOf c
      let s := (s.ctxFlumes c).foldl State.closeFlume s
      let s := ((s.haulTeardown c).resetChannels c).siteTeardown c
      let s := ks.foldl (fun s k => (s.resetTables k).resetPhase k) s
      let s := (s.diesOf c).foldl State.resetScales s
      let s := s.resetJob c
      let s := ks.foldl State.unbindSeq s
      let s := (s.resetPage c).put (R.CTX_STATE.state c) 3
      s.sampleActivity)

/-- The device addresses that a context may write, as (first byte, length) (R439 step 5). -/
def State.ownRanges (s : State) (c : Nat) : List (Nat × Nat) :=
  (List.range 16).filterMap (fun w =>
    let x := s.winOf false c w
    if x.1 && x.2.2.1 then some (x.2.2.2.1, x.2.2.2.2 - x.2.2.2.1) else none)

/-- TEARDOWN_ZEROING_DONE (R437, R439 step 5, R482, R483, R526): the context's ranges, dies and flume regions are zero. It waits for its
flumes to close and for a half in reset to return. -/
def execTeardownZeroingDone (c : Fin 64) (s : State) : Result :=
  let c := c.val
  let fs := s.ctxFlumes c
  .next (
    if s.get (R.CTX_STATE.state c) ≠ 3 ∨ (s.halfInReset 0 || s.halfInReset 1) = true ∨ fs.any (fun f => decide (s.flmState f ≠ flmZEROING)) = true
    then s
    else
      let s := (s.ownRanges c).foldl (fun s r => s.wipe r.1 r.2) s
      let s := s.resetChannels c
      let s := fs.foldl (fun s f => (s.wipeFlume f).unbindFlume f) s
      let s := (s.diesOf c).foldl (fun s n => (s.wipeDie n).unassign n) s
      let s := s.regReset (0x0016_0000 + 0x100 * c) (0x0016_0000 + 0x100 * c + 0x100)
      let s := { s with oldWin := KMap.drop s.oldWin c }
      let s := s.put (R.CTX_STATE.state c) (if s.funcExists c then 1 else 0)
      (s.closeInstance c).ctxEvent 0 1)

/-- The PCIe state of function `c` at its reset (R505, and PCIe for MSI-X: PRESUMED): Bus Master Enable and MSI-X off, its vector table
at reset values. -/
def State.resetFn (s : State) (c : Nat) : State :=
  { s with fns := KMap.drop s.fns c, msixTab := KMap.dropRange s.msixTab (32 * c) (32 * c + 32)
           unmask := KMap.dropRange s.unmask (32 * c) (32 * c + 32), pba := KMap.dropRange s.pba (32 * c) (32 * c + 32) }

/-- VF_FLR (R437, R440, R461, R505). -/
def execVfFlr (c : Fin 64) (s : State) : Result :=
  let c := c.val
  .next (if s.portUp ∧ 0 < c ∧ s.funcExists c then ((s.beginTeardown c).resetFn c).resetPage c else s)

/-- Every context that exists is torn down and every function loses its PCIe state (R437, R505); VF Enable and the sizes of the BARs return to
their reset values (PRESUMED, PCIe; log entries 74, 161). -/
def State.resetFunctions (s : State) : State :=
  let s := (List.range 64).foldl State.beginTeardown s
  { s with vfOn := false, vfs := 0, b4size := (30, 30), fns := [], msixTab := [], unmask := [], pba := [] }

/-- The host-control registers of R462 that a PF FLR resets. DIE_OWN reads its reset values from here on; the dies themselves stay with their
contexts until the zeroing of R439 is done (log entry 74). -/
def State.resetHostControl (s : State) : State :=
  let s := ((s.regReset 0x0018_0000 0x0018_1000).regReset 0x0018_1100 0x0018_2000).regReset 0x0018_2010 0x0018_2018
  { s with ownHid := (List.range 24).filter (fun n => s.flag (R.DIE_OWN.assigned n) || s.flag (R.DIE_OWN.zeroing n)) }

/-- PF_FLR (R437, R461, R462, R505). -/
def execPfFlr (s : State) : Result :=
  .next (if s.portUp then (s.resetFunctions.resetHostControl).resetPage 0 else s)

end Sys2Proof.Machine
end

