-- ==== Sys2Proof/Machine/Reset.lean ====
section
/-! DEFINITION. Machine/Reset.lean: the resets of R505, from compute die to cold power-on, and the start-up (R466, R470 to R473, R505 to R508,
R522, R556, R563). -/

namespace Sys2Proof.Machine

/-! ## Compute-die reset (R83, R98, R103, R129, R163, R166, R176, R203, R227) -/

/-- What sequencer `k` had of flume `f` when its die was reset (R163, R176): reservations not committed are discarded with their credits,
held records go back to their place with redeliv set, and the pins made for them are taken back. -/
def State.giveBack (s : State) (k f : Nat) : State :=
  let x := s.flume f
  let lost := fun (r : FlmRec) => decide (r.owner = k) && !r.cmt && !r.sent
  let back := fun (r : FlmRec) => r.held && decide (r.holder = k)
  if !x.recs.any (fun r => lost r || back r) then s
  else
    let s := (x.recs.filter back).foldl (fun s r => match r.pin with
      | some g => (match s.vfind k g with
        | some i => s.vunpin k i
        | none => s)
      | none => s) s
    let s := match x.recs.find? back with
      | some r => s.put (R.FLM_SEQ.next_pop f) r.hdr.rseq
      | none => s
    let recs := x.recs.map (fun r => if back r then { r with held := false, pin := none, hdr := { r.hdr with redeliv := true } } else r)
    ((s.setFlm f { x with recs := recs }).dropResv f lost).sendRemote f

/-- A sequencer of a die in reset (R203, R227): its registers are lost. The binding group stays, and the image is loaded again, unless the
half is reset. -/
def State.resetSeq (unbind : Bool) (s : State) (k : Nat) : State :=
  let was := s.seqBound k
  let sq := 0x0200_8000 + 0x8_0000 * (k / 4) + 0x100 * (k % 4)
  let s := ((s.stopIssue k).dropPkts k).setSeqState k seqUNBOUND
  let s := s.regReset (if unbind then sq else sq + 0x14) (sq + 0x58)
  let s := { s with seqs := KMap.drop s.seqs k }
  if was && !unbind then s.startLoad k else s

/-- A compute die reset: MMA_CTL, the schedule registers and the binding groups go with it where the reset says so (R98, R166, R227). -/
def State.dieReset (s : State) (n : Nat) (mma sched unbind : Bool) : State :=
  let b := 0x0200_0000 + 0x8_0000 * n
  let ks := (List.range 4).map (fun q => 4 * n + q)
  let fs := s.flumes.map Prod.fst
  let s := ks.foldl (fun s k => fs.foldl (fun s f => s.giveBack k f) s) s
  let s := s.wipeDie n
  let s := { s with
    arrs := KMap.dropRange s.arrs (8 * n) (8 * n + 8), raft := KMap.dropRange s.raft (4 * n) (4 * n + 4), saps := KMap.drop s.saps n
    glzs := KMap.dropRange s.glzs (2 * n) (2 * n + 2)
    unitAdm := KMap.drop (KMap.dropRange s.unitAdm (2 * n) (2 * n + 2)) (48 + n), limitAt := KMap.put (fun _ => 0) s.limitAt n s.now }
  let s := (((s.regReset (b + 0x1040) (b + 0x1200)).regReset (b + 0x2000) (b + 0x2100)).regReset (b + 0x3000) (b + 0x3018)).regReset
    (b + 0xC000) (b + 0xE000)
  let s := if mma then s.regReset (b + 0x1000) (b + 0x1004) else s
  let s := if sched then s.regReset (b + 0x5000) (b + 0x7000) else s
  ks.foldl (State.resetSeq unbind) s

/-- What every reset but a function-level one leaves behind: PWR_BOOT.last, and a picture to be taken (R477, R478, R505). -/
def State.noteReset (s : State) (last : Nat) : State := s.puts [(R.PWR_BOOT.last, last), (R.SEC_STAT.measuring, 1)]

/-- COMPUTE_DIE_RESET (R505): order kind 3. -/
def execComputeDieReset (die : Fin 24) (s : State) : Result :=
  let n := die.val
  .next (match s.orderDue 3 n with
    | none => s
    | some o =>
      let s := if s.halfInReset (halfOfDie n) then s
               else let s := s.dieReset n false true false
                    ({ s with dieRst := KMap.put (fun _ => false) s.dieRst n true }).noteReset 4
      s.orderDone o)

/-- COMPUTE_DIE_RESET_END (R505): the die leaves reset; its sequencers, LOADING since the reset, load. -/
def execComputeDieResetEnd (die : Fin 24) (s : State) : Result := .next { s with dieRst := KMap.drop s.dieRst die.val }

/-! ## Half reset (R25, R131, R158, R163 to R165, R192, R288, R293, R307, R372, R419, R422, R483, R506, R527) -/

/-- The stages bound on half `h`, as context and stage. A stage that a host ring or a partner site runs is given no half by the spec and counts for
none (DESIGN CHOICE, log entry 164). -/
def State.stagesOn (s : State) (h : Nat) : List (Nat × Nat) :=
  ((List.range 96).filter (fun k => decide (k / 48 = h) && s.seqBound k)).map (fun k => (s.seqCtx k, s.seqStage k))

/-- The flumes homed on half `h` cleared (R164, R165). -/
def State.clearFlumes (s : State) (h : Nat) : State :=
  let lo := 4096 * h
  let s := ((s.regReset (0x0300_0000 + 64 * lo) (0x0300_0000 + 64 * lo + 64 * 4096)).regReset (0x0308_0000 + 16 * lo)
    (0x0308_0000 + 16 * lo + 16 * 4096)).regReset (0x0310_0000 + 64 * lo) (0x0310_0000 + 64 * lo + 64 * 4096)
  let s := { s with flumes := KMap.dropRange s.flumes lo (lo + 4096) }
  (s.wipe (flumeBase (2 * h)) 0x1800_0000).wipe (flumeBase (2 * h + 1)) 0x1800_0000

/-- A scale register that is not at its reset values, as die and index. -/
def State.scaleKeys (s : State) : List (Nat × Nat) :=
  ((s.regs.filterMap (fun e =>
    let x := e.1 / 8 - 0x0201_0000
    if 0x0201_0000 ≤ e.1 / 8 ∧ x / 0x8_0000 < 24 ∧ x % 0x8_0000 < 0x8000 then some (x / 0x8_0000, x % 0x8_0000 / 0x80) else none))).dedup

/-- The scale registers of half `h` that are lost and have a context, each with the scale id it had, beside those that wait already (R307). -/
def State.scalesLost (s : State) (h : Nat) : List (Nat × Nat × Nat × Nat) :=
  let keys := s.scaleKeys.filter (fun k => decide (halfOfDie k.1 = h) && s.flag (R.DIE_OWN.assigned k.1)
    && !s.scaleDue.any (fun y => decide (y.1 = k.1 ∧ y.2.1 = k.2)))
  s.scaleDue ++ keys.map (fun k => (k.1, k.2, s.get (R.DIE_OWN.ctx k.1), s.get (R.NUM_SCTL.sid k.1 k.2)))

/-- The cages, links and ports of a half's edge dies at their reset values (R425); a link's flumes go HELD. -/
def State.resetEdges (s : State) (h : Nat) : State :=
  let s := (List.range 12).foldl (fun s i => (s.skwDrop (12 * h + i) 0).setSkw (12 * h + i) SkwLink.empty) s
  let s := (List.range 6).foldl (fun s i => s.cageSources (6 * h + i)) s
  let s := s.regReset (0x03B0_0000 + 0x60 * h) (0x03B0_0000 + 0x60 * h + 0x60)
  let s := s.regReset (0x03B0_1000 + 0x300 * h) (0x03B0_1000 + 0x300 * h + 0x300)
  s.regReset (0x03B4_0000 + 0x300 * h) (0x03B4_0000 + 0x300 * h + 0x300)

/-- True while a half is in recovery (R473). -/
def State.recovering (s : State) (h : Nat) : Bool := KMap.find (fun _ => false) s.recov h

/-- A half enters or leaves recovery; SEC_STAT.recovery shows whether either is in it (R473, R485). -/
def State.setRecov (s : State) (h : Nat) (on : Bool) : State :=
  let s := { s with recov := KMap.put (fun _ => false) s.recov h on }
  s.put R.SEC_STAT.recovery (b2n (s.recovering 0 || s.recovering 1))

/-- A context with a stage on a half loses the step in progress (R307). -/
def State.markReset (s : State) (stages : List (Nat × Nat)) : State :=
  (stages.map Prod.fst).dedup.foldl (fun s c => s.modJob c (fun j => { j with rstHalf := true })) s

/-- HALF_RESET (R505): order kind 2. -/
def State.resetHalf (s : State) (h : Nat) : State :=
  let old := s
  let stages := s.stagesOn h
  let s := if h = 1 then s.sampleDies 12 24 else { s with meter := { s.meter with gap := s.meter.gap || s.meter.prev.isSome } }
  let s := { s with halfRst := KMap.put (fun _ => false) s.halfRst h true, halfBack := KMap.drop s.halfBack h
                    dieRst := KMap.dropRange s.dieRst (12 * h) (12 * h + 12) }
  let s := s.haulHalfReset h
  let s := (List.range 64).foldl (fun s c =>
    if s.ckState c = ckIDLE ∨ s.ckState c = ckRESTORING then s.modCkpt c (fun x => { x with key := none }) else s.ckAbort c) s
  let s := (s.markReset stages).clearFlumes h
  let s := ((List.range 24).filter (fun n => decide (halfOfDie n = h))).foldl (fun s n => (s.dieReset n true true true).resetScales n) s
  let s := ((List.range 96).filter (fun k => decide (k / 48 = h))).foldl (fun s k => (s.resetTables k).resetPhase k) s
  let s := { s with scaleDue := old.scalesLost h }
  let hit := fun f => stages.any (fun x => decide (x.1 = s.get (R.FLM_DESC.ctx f)) &&
    (decide (x.2 = s.get (R.FLM_DESC.prod f)) || decide (x.2 = s.get (R.FLM_DESC.cons f))))
  let s := (s.boundFlumes.filter hit).foldl (fun s f => s.holdHere f (fun x => { x with halfDown := true })) s
  let s := (s.spnHold h).resetEdges h
  let s := s.regReset (0x0017_1000 + 0x100 * h) (0x0017_1000 + 0x100 * h + 0x100)
  let s := s.setPart h Part.empty
  ((s.setRecov h false).noteReset (2 + h)).holdDomains

/-- HALF_RESET (R505): order kind 2. -/
def execHalfReset (h : Fin 2) (s : State) : Result :=
  .next (match s.orderDue 2 h.val with
    | none => s
    | some o => (s.resetHalf h.val).orderDone o)

/-! ## Booting a half (R466, R470 to R473) -/

/-- The security version of the package in bank `k` (R471, R472): of one that an update did not bring, what SEC_BANK shows. -/
def State.bankSvn (s : State) (k : Nat) : Nat :=
  let p := KMap.find (fun _ => []) s.fw.banks k
  if p = [] then s.get (R.SEC_BANK.svn k) else fieldAt p 12 4

/-- The boot step that the identity of a die belongs to, by its kind (R466, R470, R508): the steward's 1, a landing die's or far-memory die's 2, a compute
die's 3, an edge die's or haul die's 4 (which step a die without an image of its own fails is a DESIGN CHOICE, log entry 140). -/
def idStep (kind : Nat) : Nat := if kind = 0 then 1 else if kind = 1 ∨ kind = 4 then 2 else if kind = 2 then 3 else 4

/-- The half that a die lies on. -/
def idHalf (kind i : Nat) : Nat := if kind = 1 then i / 2 else if kind = 2 then halfOfDie i else if kind = 3 then i / 3 else i

/-- The lowest step at which a fitted die of half `h` shows an identity key that is not the record's (R466, R470). -/
def State.badId (s : State) (h : Nat) : Option Nat :=
  ((s.pufDies.filter (fun d => decide (idHalf d.1 d.2.1 = h) && s.mfg.dieKeys.any (fun e =>
    decide (e.1 = 64 * d.1 + d.2.1 ∧ e.2 ≠ sha384 (ecPublic (Config.identityKey d.1 d.2.1).toNat))))).map (fun d => idStep d.1)).min?

/-- The step at which the images of bank `k` fail on half `h`, as the boot finds it. -/
def imgStep (b : BootIn) (h k : Nat) : Nat := bits b.steps.toNat (3 * (2 * h + k)) 3

/-- The images of bank `k` pass on half `h` (R470): step 4 is taken only where a haul die fills the site. -/
def State.imgPass (s : State) (b : BootIn) (h k : Nat) : Bool := b.banks.getLsbD (2 * h + k) || (decide (imgStep b h k = 4) && s.partnerFitted h)

/-- True when half `h` boots bank `k` (R470): it is valid, its security version reaches the floor, the dies of the half are the record's, and its images
pass. -/
def State.bankBoots (s : State) (b : BootIn) (h k : Nat) : Bool :=
  s.flag (R.SEC_BANK.valid k) && decide (s.get R.SEC_STAT.svn_floor ≤ s.bankSvn k) && (s.badId h).isNone && s.imgPass b h k

/-- A bank that fails on half `h` is logged with the step and the bank, at the steward in steps 1 and 2 and at the landing die in steps 3 and 4
(R470, R486); of step 3 at the lower-numbered one of the half (DESIGN CHOICE, log entry 140). -/
def State.bankFails (s : State) (b : BootIn) (h k : Nat) : State :=
  let n := if s.bankSvn k < s.get R.SEC_STAT.svn_floor then 1 else (s.badId h).getD (imgStep b h k)
  s.raise E.SEC_BOOT none (if n ≤ 2 then atSteward h else atLd (2 * h + (n - 3) % 2)) (16 * n + k)

/-- Half `h` boots bank `k`, or the other bank, which is selected from then on; the bank that runs, or none (R473). -/
def State.bootHalf (s : State) (b : BootIn) (h k : Nat) : State × Option Nat :=
  if s.bankBoots b h k then (s, some k)
  else
    let s := s.bankFails b h k
    if s.bankBoots b h (1 - k) then ({ s with fw := { s.fw with sel := 1 - k } }, some (1 - k))
    else if s.flag (R.SEC_BANK.valid (1 - k)) then (s.bankFails b h (1 - k), none)
    else (s, none)

/-- The bank running on a half (R485). -/
def bankFld (h : Nat) : Fld := if h = 0 then R.SEC_STAT.bank_a else R.SEC_STAT.bank_b

/-- The bank that a returning half boots: an armed package that is mixable, else, while one is armed, what the half ran before (R472). -/
def State.returnBank (s : State) (h : Nat) : Nat :=
  let new := 1 - s.fw.sel
  if s.get R.SEC_STAT.pending = 2 then (if s.flag (R.SEC_BANK.mixable new) then new else s.get (bankFld h)) else s.fw.sel

/-! ## Keys (R467, R468) -/

/-- The immutable sealed items of a steward's own copy (R465). -/
def State.sealedOf (s : State) (h : Nat) : Record := if h = 0 then s.mfg else s.mfg1

/-- A steward loads the far-tier keys of its half, from its own sealed copy, into the far-memory die (R468, R506). -/
def State.loadFarKey (s : State) (h : Nat) : State :=
  { s with farKey := KMap.put (fun _ => 0) s.farKey h (leNat ((s.sealedOf h).farKeys.getD h [])) }

/-- What steward `h` finds of its sealed items (R466): it unseals them, the record's signature verifies, and the two copies do not differ. -/
def State.sealOk (s : State) (b : BootIn) (h : Nat) : Bool := b.sealed.getLsbD h && decide (s.mfg = s.mfg1)

/-- HALF_RESET_RETURN (R419, R470, R472, R473, R506): the landing dies leave reset and the half boots. A steward whose sealed items fail holds, and the
device is not ready any more (R466, R486); with every half booted, a start-up that recovery held goes on. -/
def execHalfResetReturn (h : Fin 2) (b : BootIn) (s : State) : Result :=
  let h := h.val
  .next (
    if s.halfDead h = false then s
    else if !s.sealOk b h then { (s.fatal E.SEC_SEALED (atSteward h) h).put R.HOST_STAT.ready 0 with boot := if h = 0 then 6 else 5 }
    else
      let k := s.returnBank h
      let armed := s.get R.SEC_STAT.pending = 2 ∧ s.flag (R.SEC_BANK.mixable (1 - s.fw.sel)) = true
      let s := if armed then { s.put R.SEC_STAT.pending 0 with fw := { s.fw with sel := 1 - s.fw.sel } } else s
      let s := { s with halfBack := KMap.put (fun _ => false) s.halfBack h true }
      let s := (s.loadFarKey h).spnReturn.haulHalfReturn h
      let r := s.bootHalf b h k
      match r.2 with
      | some run =>
        let s := r.1.put (bankFld h) run
        if s.boot = 5 ∧ (s.recovering 0 || s.recovering 1) = false then { s with boot := 2 } else s
      | none => r.1.setRecov h true)

/-- HALF_ACCESS_READY (R395, R483, R506): windows and ownership are restored, contexts being zeroed are finished on the half, lost scale
registers are filled (R307), and held flumes are free of it; a remote one opens its exchange again (R149, R158). -/
def execHalfAccessReady (h : Fin 2) (s : State) : Result :=
  let h := h.val
  .next (
    if s.halfInReset h = false ∨ s.halfDead h = true ∨ s.recovering h = true then s
    else
      let s := { s with halfRst := KMap.drop s.halfRst h, halfBack := KMap.drop s.halfBack h }
      let s := (List.range 64).foldl (fun s c =>
        if s.get (R.CTX_STATE.state c) = 3 then (s.ownRanges c).foldl (fun s r => s.wipe r.1 r.2) s else s) s
      ((s.flumes.filter (fun e => e.2.halfDown)).map Prod.fst).foldl (fun s f =>
        let s := s.setFlume f { s.flume f with halfDown := false }
        let s := if (s.flmChan f).isSome && !(s.flume f).linkDown then (s.setFlume f { s.flume f with opening := true }).reopen f else s
        s.freeFlume f) ((List.range 64).foldl State.copyDue s))

/-! ## Start-up (R466, R470 to R473, R507, R508) -/

/-- The SVN floor rises to the package that both halves run once DEVICE_READY is reached; a bank below it is not valid (R472). -/
def State.raiseFloor (s : State) : State :=
  let k := s.get R.SEC_STAT.bank_a
  if s.get R.SEC_STAT.bank_b ≠ k ∨ s.flag R.HOST_STAT.ready = false then s
  else
    let floor := max (s.get R.SEC_STAT.svn_floor) (s.bankSvn k)
    let s := s.put R.SEC_STAT.svn_floor floor
    if s.bankSvn (1 - k) < floor then s.put (R.SEC_BANK.valid (1 - k)) 0 else s

/-- DEVICE_READY (R430, R507, R508): far-tier zeroing begins. -/
def State.deviceReady (s : State) : State :=
  { s.puts [(R.HOST_STAT.ready, 1), (R.PWR_STAT.fzero, 1)] with boot := 4 }.raiseFloor

/-- The ceiling that the holds of input, coolant and leak leave (R500, R503). -/
def State.ceilingTop (s : State) : Nat := if s.leakHold then 0 else if s.inHold || s.coolHold then 4 else 8

/-- The start-up from the steward ROM row (R464, R466, R508): the stewards derive their identity keys and check their sealed items; one that fails holds,
before any other die has power. Otherwise both halves boot the selected bank, the domains power up, and context 0 exists. -/
def State.bootUp (s : State) (b : BootIn) : State :=
  if !(s.sealOk b 0 && s.sealOk b 1) then
    let keys := { s with idKeys := (List.range 2).map (fun i => (i, (Config.identityKey 0 i).toNat)) }
    { ((List.range 2).filter (fun h => !s.sealOk b h)).foldl (fun s h => s.raise E.SEC_SEALED none (atSteward h) h) keys with boot := 6 }
  else
    let s := (s.loadFarKey 0).loadFarKey 1
    let k := s.fw.sel
    let r0 := s.bootHalf b 0 k
    let r1 := r0.1.bootHalf b 1 k
    let s := r1.1.puts [(R.SEC_STAT.bank_a, r0.2.getD k), (R.SEC_STAT.bank_b, r1.2.getD k), (R.SEC_STAT.measuring, 1),
      (R.PWR_STAT.ceiling, r1.1.ceilingTop), (R.CTX_STATE.state 0, 1)]
    let s := s.setDomains 0
    if r0.2.isSome && r1.2.isSome then { s with boot := 2 }
    else { (s.setRecov 0 r0.2.isNone).setRecov 1 r1.2.isNone with boot := 5 }

/-- Field values carried over a reset. -/
def State.carry (s old : State) (fs : List Fld) : State := s.puts (fs.map (fun f => (f, old.get f)))

/-- The sealed and kept fields (R4, R477, R485). -/
def sealedFields : List Fld :=
  [R.SEC_STAT.pending, R.SEC_STAT.svn_floor, R.SEC_STAT.bank_a, R.SEC_STAT.bank_b, R.SEC_MGEN.gen]
  ++ (List.range 2).flatMap (fun k => [R.SEC_BANK.fwver k, R.SEC_BANK.valid k, R.SEC_BANK.mixable k, R.SEC_BANK.svn k])

/-- The registers of R560, which reset at cold power-on only. -/
def pinFields : List Fld :=
  [R.MOD_PIN.perst, R.MOD_PIN.leak, R.MOD_ALERT.meter, R.MOD_ALERT.input, R.MOD_ALERT.cap, R.MOD_ALERT.coolant, R.MOD_ALERT.leak,
   R.MOD_ALERT.therm, R.MOD_ALERT.fatal, R.MOD_ALERT.mlost]

/-- What a module warm reset keeps in registers besides (R418, R505, R510, R546); THM_COOL.leak shows the sensor, which no reset dries (R562;
DEDUCED, log entry 142). -/
def warmFields : List Fld :=
  [R.PWR_BOOT.cause, R.RAS_STAT.valid, R.RAS_STAT.samples, R.THM_COOL.leak]
  ++ (List.range 4).flatMap (fun i => [R.SPN_LINK.epoch i, R.SPN_LINK.epoch_hi i])

/-- Far-tier addresses (R377). -/
def inFar (a : Nat) : Bool := decide (0x0200_0000_0000 ≤ a ∧ a < 0x0400_0000_0000)

/-- An update in progress is lost, and its bank is not valid (R484). -/
def State.loseUpdate (s : State) : State :=
  match s.fw.upd with
  | none => s
  | some k => { s.put (R.SEC_BANK.valid k) 0 with fw := { s.fw with upd := none, slot := 0 } }

/-- Everything a module warm reset leaves (R505): what is not kept is as at reset. The last picture and the SPDM connections stay until the
next picture is published (R476, R478, R479). An armed package is selected for both halves (R472), and
a revert takes effect (R485). -/
def State.warm (s : State) : State :=
  let s := s.loseUpdate
  let armed := decide (s.get R.SEC_STAT.pending = 2)
  let fw := { s.fw with sel := if armed || s.fw.revert then 1 - s.fw.sel else s.fw.sel, revert := false, slot := 0 }
  let t := { State.reset with
    pending := s.pending, out := s.out, now := s.now, tick0 := s.tick0, free := s.free + 1, mfg := s.mfg, mfg1 := s.mfg1
    mem := s.mem.filter (fun e => decide (e.1 < 0x1000_0000) || inFar e.1)
    bad := s.bad.filter (fun a => decide (a < 0x1000_0000)), plist := s.plist
    mgmtRes := s.mgmtRes, refclk := s.refclk, bootEvt := s.bootEvt, inHold := s.inHold, coolHold := s.coolHold, leakHold := s.leakHold
    tid := s.tid, slotId := s.slotId, eid := s.eid, i3c := s.i3c, idKeys := s.idKeys, farKey := s.farKey, fw := fw, picture := s.picture, spdm := s.spdm, tokens := s.tokens, scaler := s.scaler
    wire := s.wire }
  let t := t.carry s (sealedFields ++ pinFields ++ warmFields)
  let t := if armed || s.fw.revert then t.put R.SEC_STAT.pending 0 else t
  t.puts [(R.PWR_BOOT.last, 1), (R.PWR_BOOT.ms, (Config.startMs s.free).toNat)]

/-- MODULE_WARM_RESET (R505, R542): order kind 1, once a core sample being written is complete. -/
def execModuleWarmReset (b : BootIn) (s : State) : Result :=
  .next (match s.orderDue 1 0, s.sample with
    | some o, none => (s.orderDone o).warm.bootUp b
    | _, _ => s)

/-- The event number and type of an entry of the Scaler's log (R521). -/
def logNumType (e : List Byte) : Nat × Nat := (fieldAt e 0 4, fieldAt e 4 1)

/-- An input fault stopped the module (R522): a type 3 entry is newer than the last power-up before the present one. `bootEvt` is the
newest event at the last start-up, so a power-up after it is the present one. -/
def State.inputFaulted (s : State) : Bool :=
  let l := s.scaler.log.map logNumType
  let ups := (l.filter (fun e => decide (e.2 = 1))).map Prod.fst
  let last := match ups with
    | [] => 0
    | u :: us => if s.bootEvt < u then us.headD 0 else u
  l.any (fun e => decide (e.2 = 3 ∧ last < e.1))

/-- What survives Off (R418, R505, R556, R560): sealed memory, the Scaler, the pins. -/
def State.cold (s : State) (wake : Bool) (straps ms : Nat) : State :=
  let s := s.loseUpdate
  let cause := if s.inputFaulted then 1 else if wake then 4 else if s.offBy = 2 then 2 else if s.offBy = 3 then 3 else 0
  let leak := s.flag R.MOD_PIN.leak
  let t := { State.reset with
    pending := s.pending, out := s.out, now := s.now, tick0 := if s.now = 0 then [] else [(0, s.now), (1, s.now)], free := s.free, mfg := s.mfg, mfg1 := s.mfg1
    refclk := s.refclk, bootEvt := s.scaler.evt, leakHold := leak, slotId := straps, eid := 0x10 + straps
    fw := { s.fw with slot := 0 }, scaler := s.scaler, wire := s.wire }
  let t := t.carry s (sealedFields ++ [R.MOD_PIN.perst, R.MOD_PIN.leak])
  t.puts [(R.PWR_BOOT.cause, cause), (R.PWR_BOOT.last, 0), (R.PWR_BOOT.ms, ms), (R.THM_COOL.leak, b2n leak)]

/-- A leak sensor that is wet at start-up is noticed (R562). -/
def State.noteLeak (s : State) : State := if s.flag R.MOD_PIN.leak then s.raise E.PWR_LEAK none (atSteward 0) 0 else s

/-- COLD_POWER_ON (R497, R508, R563): the module is Off. Start-up holds at the steward ROM row while REFCLK is out of range. -/
def execColdPowerOn (wake : Bool) (straps : BitVec 4) (ms : BitVec 32) (b : BootIn) (s : State) : Result :=
  .next (
    if s.boot ≠ 0 then s
    else
      let s := s.cold wake straps.toNat ms.toNat
      if s.refclk then (s.bootUp b).noteLeak else { s with boot := 1 })

/-- REFCLK_IN_RANGE (R563): in range for 1 ms. -/
def execRefclkInRange (b : BootIn) (s : State) : Result :=
  let s := { s with refclk := true }
  .next (if s.boot = 1 then (s.bootUp b).noteLeak else s)

/-- PCIE_LINK_UP (R508): with the measurements published, the device is ready. -/
def execPcieLinkUp (s : State) : Result :=
  .next (
    if s.flag R.MOD_PIN.perst = false ∨ s.boot < 2 ∨ 5 < s.boot then s
    else
      let s := { s with linkUp := true }
      if s.boot = 3 then s.deviceReady else if s.boot = 4 then (s.put R.HOST_STAT.ready 1).raiseFloor else s)

/-- FAR_ZEROING_DONE (R507): every byte of the far tier is zero but the core-sample copy. -/
def execFarZeroingDone (s : State) : Result :=
  .next (
    if s.flag R.PWR_STAT.fzero then
      ((s.wipe 0x0200_0000_0000 0xFF_F000_0000).wipe 0x0300_0000_0000 0x0100_0000_0000).put R.PWR_STAT.fzero 0
    else s)

/-! ## Conventional reset (R430, R505, R509, R563) -/

/-- A conventional reset: every context and the PCIe state of every function are lost; with perst_warm = 1 a module warm reset follows. -/
def State.conventional (s : State) : State :=
  let s := s.resetFunctions.noteReset 5
  if s.flag R.PWR_CTL.perst_warm then { s with won := s.won ++ [⟨1, 0, 2⟩] } else s

/-- PERST_ASSERT (R505, R509, R563): PERST_N asserted (`pin`), Hot Reset or link down. In Rest and Freeze the reset is taken after the return
to Bake; during start-up there is nothing to lose. -/
def execPerstAssert (pin : Bool) (s : State) : Result :=
  let s := if pin then s.put R.MOD_PIN.perst 0 else s
  let s : State := { s.put R.HOST_STAT.ready 0 with linkUp := false }
  .next (
    if s.boot < 3 ∨ 4 < s.boot then s
    else if s.awake then s.conventional
    else ({ s with won := s.won ++ [⟨15, 0, 2⟩] } : State).wakeFor)

/-- PERST_DEASSERT (R430). -/
def execPerstDeassert (s : State) : Result := .next (s.put R.MOD_PIN.perst 1)

end Sys2Proof.Machine
end

