-- ==== Sys2Proof/Machine/Power.lean ====
section
/-! DEFINITION. Machine/Power.lean: rungs and their entry and exit (R493 to R497, R509), the cap and the input (R498 to R500), heat, coolant
and leak (R490, R501 to R504, R562). -/

namespace Sys2Proof.Machine

/-! ## Off (R497, R500, R502, R505) -/

/-- The main regulators go off: what is left is sealed memory, the Scaler and the pins; `why` is 1 input, 2 comparator, 3 order. THERM_N stays
asserted after the comparator (R563). -/
def State.powerOff (s : State) (why : Nat) : State :=
  let s := s.loseUpdate
  let t := { State.reset with
    pending := s.pending, out := s.out, now := s.now, tick0 := s.tick0, free := s.free, mfg := s.mfg, mfg1 := s.mfg1, refclk := s.refclk, offBy := why
    bootEvt := s.bootEvt, slotId := s.slotId, fw := { s.fw with slot := 0 }, scaler := s.scaler, wire := s.wire }
  (t.carry s (sealedFields ++ pinFields)).puts [(R.PWR_STAT.rung, 4), (R.MOD_PIN.therm, b2n (decide (why = 2)))]

/-! ## Rungs (R493 to R497, R509) -/

/-- Issued array, glaze, sap-line and DMA work and loads of every sequencer have completed (R494, R495 step 3). -/
def State.workDone (s : State) : Bool :=
  (s.seqs.map Prod.fst).all (fun k => (s.seq k).dma.isEmpty && (s.seq k).loads.isEmpty)
  && s.arrs.all (fun e => e.2.ops.isEmpty) && s.glzs.all (fun e => e.2.queue.isEmpty && e.2.run.isEmpty) && s.saps.all (fun e => e.2.op.isNone)

/-- No haul request, and no checkpoint attempt or restore past ARMED, is in progress (R495 step 2). -/
def State.transfersDone (s : State) : Bool :=
  s.hauls.all (fun e => e.2.req.isNone) && (List.range 64).all (fun c => decide (s.ckState c ≤ ckARMED))

/-- POWER_RUNG (R493, R509): order kind 5. It waits for a change in progress; a Bake order ends the hold of a leak (R503). -/
def execPowerRung (r : Fin 5) (s : State) : Result :=
  let r := r.val
  .next (match orderFirst 5 r s.won with
    | none => s
    | some o =>
      if s.flag R.PWR_STAT.busy then s
      else if s.flag R.RAS_STAT.fatal ∧ r ≠ 4 then
        (({ s with won := s.won.erase o } : State).orderResult o 3).cfgRange none (16 * r + 5)
      else
        let s := s.orderDone o
        let s := if r = 0 then { s with leakHold := false } else s
        if r = s.get R.PWR_STAT.rung then s else s.puts [(R.PWR_STAT.busy, 1), (R.PWR_STAT.target, r)])

/-- Entry to Rest, Freeze or Off (R495 steps 3 and 4): the sequencers are halted, which ran is recorded, and the links are closed. -/
def State.enterRest (s : State) : State :=
  let s := { s with wasRun := (List.range 96).filter (fun k => decide (s.seqState k = seqRUNNING)) }
  let s := s.wasRun.foldl (fun s k => (s.stopIssue k).setSeqState k seqHALTED) s
  let s := (List.range 24).foldl (fun s k => (s.skwDrop k 0).setLock k false) s
  (List.range 12).foldl State.cageSources s

/-- The tables that firmware saves across Freeze, as ranges of BAR0: version tables with their counters (R192), variant tables (R288), scale
registers and guard tags (R293). -/
def savedRanges : List (Nat × Nat) :=
  [(0x0380_0000, 0x038C_0000), (0x038D_0000, 0x038D_0C00)]
  ++ (List.range 4).map (fun h => (0x0110_0000 + 0x40_0000 * h, 0x0140_0000 + 0x40_0000 * h))
  ++ (List.range 24).map (fun n => (0x0201_0000 + 0x8_0000 * n, 0x0201_8080 + 0x8_0000 * n))

/-- Where the save region holds the 8 bytes at a BAR0 offset (R379). The spec gives the region and no layout: each table lies at its BAR0
offset, as the difference from its reset values (DESIGN CHOICE, log entry 122). -/
def saveAddr (off : Nat) : Nat := 0x1000_0000 + off

/-- The two's-place difference of a register value from its reset value; the same again gives the value back. -/
def resetDiff (a v : Nat) : Nat := v ^^^ resetVal a

/-- Where the second image lies: the staged values that are not committed, each as its difference from the committed one (R192, R193; log
entry 122). -/
def savedShadow : Nat := 0x0400_0000

/-- The entries of a register map in the saved ranges, as 8-byte words: the word's number and its value, by the two's-place difference `d` of each
entry. -/
def savedWords (m : KMap Nat) (d : Nat → Nat → Nat) : List (Nat × Nat) :=
  let img := m.filter (fun e => savedRanges.any (fun r => decide (8 * r.1 ≤ e.1 ∧ e.1 < 8 * r.2)))
  ((img.map (fun e => e.1 / 64)).dedup).map (fun w =>
    (w, ((img.filter (fun e => decide (e.1 / 64 = w))).map (fun e => d e.1 e.2 * 2 ^ (e.1 % 64))).sum))

/-- R495 step 5: the tables, staged values with them, are written to the save region, and are lost with their domains. -/
def State.saveTables (s : State) : State :=
  let a := savedWords s.regs resetDiff
  let b := savedWords s.shadow (fun a v => v ^^^ KMap.find resetVal s.regs a)
  let s := s.wipe (saveAddr 0) (2 * savedShadow)
  let s := a.foldl (fun s e => s.write (saveAddr (8 * e.1)) (leBytes 8 e.2)) s
  let s := b.foldl (fun s e => s.write (saveAddr (8 * e.1) + savedShadow) (leBytes 8 e.2)) s
  savedRanges.foldl (fun s r => s.regReset r.1 r.2) s

/-- The register of an offset read back from the save region, committed and staged. -/
def State.restoreReg (s : State) (x : RegAt) : State :=
  let v := s.le (saveAddr x.off) (x.row.bits / 8)
  let d := s.le (saveAddr x.off + savedShadow) (x.row.bits / 8)
  x.row.fields.foldl (fun s f =>
    let g : Fld := ⟨8 * x.off + f.lo, f.w⟩
    let s := s.put g (resetDiff g.a (bits v f.lo f.w))
    if bits d f.lo f.w = 0 then s else s.sput g (s.get g ^^^ bits d f.lo f.w)) s

/-- R496: the tables saved at entry are restored. The reads meet the errors of the save region: a single-bit error is corrected (R384); a word
that reads uncorrectable is logged (R385) and leaves the structure it belongs to without its value, which is fatal as any uncorrectable error of
that structure (R534; DESIGN CHOICE, log entry 122). -/
def State.restoreTables (s : State) : State :=
  let kept := s.mem.filter (fun e => savedRanges.any (fun r =>
    decide (saveAddr r.1 ≤ e.1 ∧ e.1 < saveAddr r.2 ∨ saveAddr r.1 + savedShadow ≤ e.1 ∧ e.1 < saveAddr r.2 + savedShadow)))
  let words := (kept.map (fun e => (e.1 - saveAddr 0) % savedShadow / 8)).dedup
  let bad := s.badIn (saveAddr 0) (2 * savedShadow)
  let s := s.noteRead none (saveAddr 0) (2 * savedShadow)
  let s := words.foldl (fun s w => (([regAt (8 * w), regAt (8 * w + 4)].filterMap id).dedup).foldl State.restoreReg s) s
  if bad.isEmpty then s else s.fatal E.CFG_STATE_ECC (atLd 0) (bad.headD 0)

/-- Leaving Rest or Freeze as far as the compute dies go (R496): they leave as from a compute-die reset; from Freeze the schedule registers and
MMA_CTL are lost too, and so are the flumes. -/
def State.wakeDies (s : State) (freeze : Bool) : State :=
  let s := if freeze then (s.clearFlumes 0).clearFlumes 1 else s
  let s := ((List.range 24).filter (fun n => !s.halfInReset (halfOfDie n))).foldl (fun s n => s.dieReset n freeze freeze false) s
  s.noteReset 4

/-- Back in Bake or Proof (R496): what ran is run again once it has loaded, the links come up, and fetching goes on. -/
def State.leaveRest (s : State) : State :=
  let s := { s with rerun := s.wasRun.filter s.seqBound, wasRun := [] }
  let s := (List.range 24).foldl State.linkRestart s
  (List.range 64).foldl State.askAll s

/-- A conventional reset that waited is taken in Bake (R509). -/
def State.takeWaiting (s : State) : State :=
  if s.awake ∧ s.won.any (fun o => decide (o.kind = 15)) = true then
    ({ s with won := s.won.filter (fun o => decide (o.kind ≠ 15)) } : State).conventional
  else s

/-- RUNG_ENTRY_COMPLETE (R494 to R497): in the error state the work of the context has stopped for good, so an Off order waits for the core sample alone (R539;
DESIGN CHOICE, log entry 166). Drains are over and the domains take the states of the rung; the tables are saved for Freeze and restored
after it, and the meter has a gap (R527). -/
def execRungEntryComplete (s : State) : Result :=
  let t := s.get R.PWR_STAT.target
  let r := s.get R.PWR_STAT.rung
  let old := s
  .next (
    if s.flag R.PWR_STAT.busy = false ∨ (s.flag R.RAS_STAT.fatal = true ∧ s.sample.isSome = true) then s
    else if r < t ∧ r = 0 ∧ s.workDone = false ∧ s.flag R.RAS_STAT.fatal = false then s
    else if r < 2 ∧ 2 ≤ t ∧ (s.workDone && s.transfersDone) = false ∧ s.flag R.RAS_STAT.fatal = false then s
    else if t = 4 then (if r < 2 then s.enterRest else s).powerOff 3
    else
      let s := if r < 2 ∧ 2 ≤ t then s.enterRest else s
      let s := if t = 3 ∧ r < 3 then { s.saveTables with meter := { s.meter with gap := s.meter.gap || s.meter.prev.isSome } } else s
      let s := if t < r ∧ 2 ≤ r then (if r = 3 ∨ t < 2 then s.wakeDies (decide (r = 3)) else s) else s
      let s := if r = 3 ∧ t < 3 then s.restoreTables else s
      let s := s.puts [(R.PWR_STAT.rung, t), (R.PWR_STAT.busy, 0)]
      let s := (s.put R.PWR_STAT.ceiling s.ceilingTop).setDomains t
      let s := if t < 2 ∧ 2 ≤ r then s.leaveRest else s
      let s := if t = 0 then s.haulResume else s
      (s.relimit old).takeWaiting.wakeFor)

/-! ## The cap and the input (R498 to R500) -/

/-- POWER_CAP (R498): order kind 6. -/
def execPowerCap (w : BitVec 12) (s : State) : Result :=
  .next (match orderFirst 6 w.toNat s.won with
    | none => s
    | some o =>
      if s.flag R.RAS_STAT.fatal then (({ s with won := s.won.erase o } : State).orderResult o 3).cfgRange none (16 * w.toNat + 6)
      else (s.put R.PWR_CAP.watts w.toNat).orderDone o)

/-- True while S0 runs: past the steward ROM row, and not held by SEC_SEALED (R466, R508). -/
def State.s0Runs (s : State) : Bool := decide (2 ≤ s.boot ∧ s.boot ≤ 5)

/-- The ceiling changed; the running counts of the dies whose limit changes restart (R499). -/
def State.setCeiling (s : State) (v : Nat) : State := (s.put R.PWR_STAT.ceiling v).relimit s

/-- POWER_CAP_TICK (R498): the adjustment applies in Bake, below what input, coolant and leak allow. -/
def execPowerCapTick (watts volts amps : BitVec 16) (s : State) : Result :=
  let p := watts.toNat
  let cap := s.get R.PWR_CAP.watts
  let c := s.get R.PWR_STAT.ceiling
  .next (
    if !s.s0Runs then s
    else
      let s := s.puts [(R.PWR_MEAS.volts, volts.toNat), (R.PWR_MEAS.amps, amps.toNat), (R.PWR_MEAS.watts, p)]
      if s.get R.PWR_STAT.rung ≠ 0 then s
      else if cap < p ∧ 0 < c then s.setCeiling (c - 1)
      else if 100 * p < 95 * cap ∧ c < 8 then s.setCeiling (min (c + 1) s.ceilingTop)
      else s)

/-- PWR_CAP_UNMET_TIMER (R499). -/
def execPwrCapUnmetTimer (s : State) : Result :=
  .next (if s.s0Runs ∧ s.get R.PWR_STAT.rung = 0 ∧ s.get R.PWR_STAT.ceiling = 0 ∧ s.get R.PWR_CAP.watts < s.get R.PWR_MEAS.watts then
      s.raise E.PWR_CAP_UNMET none (atSteward 0) (s.get R.PWR_MEAS.watts)
    else s)

/-- INPUT_UNDERVOLTAGE (R500): below 47 V for 100 µs. -/
def execInputUndervoltage (s : State) : Result :=
  .next (if s.s0Runs then
      (({ s with inHold := true } : State).raise E.PWR_INPUT none (atSteward 0) 0).setCeiling (min (s.get R.PWR_STAT.ceiling) 4)
    else s)

/-- INPUT_RECOVERED (R500): 48 V or more for 1 ms. -/
def execInputRecovered (s : State) : Result := .next { s with inHold := false }

/-- INPUT_FAULT (R500, R509): the module is in Off at once. -/
def execInputFault (s : State) : Result := .next (if s.boot = 0 then s else s.powerOff 1)

/-- REFCLK_LOST (R490, R563): fatal from the first PLL lock on. -/
def execRefclkLost (s : State) : Result :=
  let s := { s with refclk := false }
  .next (if 2 ≤ s.boot then s.fatal E.PWR_CLOCK (atSteward 0) 0 else s)

/-! ## Heat (R501, R502, R504) -/

/-- A temperature in 1/16 °C of a whole number of degrees. -/
def deg (t : Int) : Int := 16 * t

/-- A threshold with the release rule of R501: reached at `t`, released 3 °C below it. -/
def overHeat (g t : Int) (was : Bool) : Bool := decide (deg t ≤ g) || (was && decide (deg (t - 3) < g))

/-- The thermal limit of a grid maximum, from the one in force (R501). -/
def thermalLimit (g : Int) (old : Nat) : Nat :=
  if overHeat g 108 (decide (3 ≤ old)) then 3 else if overHeat g 100 (decide (2 ≤ old)) then 2
  else if overHeat g 90 (decide (1 ≤ old)) then 1 else 0

/-- THERM_N as R504 gives it, with its alert bit (R559, R560). -/
def State.thermPin (s : State) : State :=
  let on := s.tripped || (List.range 24).any (fun n => decide (s.get (R.THM_CD.limit n) = 3))
  let s := s.put R.MOD_PIN.therm (b2n on)
  if on then s.put R.MOD_ALERT.therm 1 else s

/-- The position of the largest value, the first of equals (R501). -/
def hottest (l : List Int) : Nat := l.findIdx (fun x => l.all (fun y => decide (y ≤ x)))

/-- The grid and the junction of die `n` (R501, R510). -/
def State.thermalDie (s : State) (n : Nat) (grid : BitVec 256) (junction : Option (BitVec 16)) : State :=
  let temps := (List.range 16).map (fun i => toSigned 16 (grid.toNat / 2 ^ (16 * i)))
  let hot := hottest temps
  let g := temps.getD hot 0
  let s := (List.range 4).foldl (fun s r => s.put (R.THM_CD.row n r) (grid.toNat / 2 ^ (64 * r) % 2 ^ 64)) s
  let s := s.puts [(R.THM_CD.hot n, hot), (R.THM_CD.grid_max n, wrap 16 g), (R.THM_CD.limit n, thermalLimit g (s.get (R.THM_CD.limit n)))]
  match junction with
  | some j => s.put (R.THM_CD.cd_temp n) j.toNat
  | none => s

/-- A thermal trip (R502, R504, R509): fatal; an entry to Rest or Freeze is abandoned. -/
def State.trip (s : State) (h : Nat) : State :=
  let s := ({ s with tripped := true } : State).thermPin
  let t := s.get R.PWR_STAT.target
  let r := s.get R.PWR_STAT.rung
  let s := if s.flag R.PWR_STAT.busy ∧ r < t ∧ (t = 2 ∨ t = 3) then s.puts [(R.PWR_STAT.busy, 0), (R.PWR_STAT.target, r)] else s
  s.fatal E.PWR_THERM_TRIP (atLd h) h

/-- True when a reading of landing die `h`, or of its dies and stacks, has reached its trip temperature (R502). -/
def State.tripNow (s : State) (h : Nat) : Bool :=
  decide (deg 110 ≤ toSigned 16 (s.get (R.THM_LD.max h)))
  || (List.range 6).any (fun i => decide (deg 105 ≤ toSigned 16 (s.get (R.THM_CD.cd_temp (6 * h + i)))
       ∨ deg 105 ≤ toSigned 16 (s.get (R.THM_HBM.temp (6 * h + i)))))

/-- THERMAL_SAMPLE (R501, R502, R504): the grids under the six dies of landing die `h`, their junctions, and its stacks' reports. A
reading at its trip temperature trips the device. -/
def execThermalSample (h : Fin 4) (grids : List (BitVec 256)) (junctions hbm : List (BitVec 16)) (s : State) : Result :=
  let h := h.val
  let old := s
  .next (
    if !s.s0Runs ∨ s.halfDead (h / 2) ∨ 2 ≤ s.get R.PWR_STAT.rung then s
    else
      let s := (List.range 6).foldl (fun s i => match grids[i]? with
        | some g => s.thermalDie (6 * h + i) g junctions[i]?
        | none => s) s
      let maxes := (List.range 6).map (fun i => toSigned 16 (s.get (R.THM_CD.grid_max (6 * h + i))))
      let s := s.put (R.THM_LD.max h) (wrap 16 (maxes.getD (hottest maxes) 0))
      let s := (List.range 6).foldl (fun s i => match hbm[i]? with
        | some t =>
          let hot := overHeat t.toInt 95 (KMap.find (fun _ => false) s.hbmHot (6 * h + i))
          ({ s with hbmHot := KMap.put (fun _ => false) s.hbmHot (6 * h + i) hot } : State).put (R.THM_HBM.temp (6 * h + i)) t.toNat
        | none => s) s
      let s := s.thermPin.relimit old
      if s.tripNow h ∧ s.tripped = false then s.trip h else s)

/-- THERMAL_TRIP (R502). -/
def execThermalTrip (h : Fin 4) (s : State) : Result := .next (if !s.s0Runs then s else s.trip h.val)

/-- COMPARATOR_SHUTDOWN (R502, R563). -/
def execComparatorShutdown (s : State) : Result := .next (if s.boot = 0 then s else s.powerOff 2)

/-! ## Coolant and leak (R503, R562) -/

/-- The inlet range of the coolant grade in degrees (R503). -/
def State.inletRange (s : State) : Int × Int := if s.mfg.warm then (40, 60) else (25, 45)

/-- The coolant temperatures recorded. -/
def State.noteCoolant (s : State) (inlet outlet : BitVec 16) : State :=
  s.puts [(R.THM_COOL.inlet, inlet.toNat), (R.THM_COOL.outlet, outlet.toNat), (R.THM_COOL.inlet_hi, b2n (decide (deg s.inletRange.2 < inlet.toInt)))]

/-- COOLANT_INLET_HIGH (R503). -/
def execCoolantInletHigh (inlet outlet : BitVec 16) (s : State) : Result :=
  .next (
    if !s.s0Runs then s
    else
      let s := s.noteCoolant inlet outlet
      if deg s.inletRange.2 < inlet.toInt then
        (({ s with coolHold := true } : State).raise E.PWR_COOLANT none (atSteward 0) inlet.toNat).setCeiling (min (s.get R.PWR_STAT.ceiling) 4)
      else s)

/-- COOLANT_INLET_LOW (R503). -/
def execCoolantInletLow (inlet outlet : BitVec 16) (s : State) : Result :=
  .next (
    if !s.s0Runs then s
    else
      let s := s.noteCoolant inlet outlet
      if inlet.toInt < deg s.inletRange.1 then s.raise E.PWR_COOLANT none (atSteward 0) inlet.toNat else s)

/-- COOLANT_INLET_NORMAL (R503): 2 °C below the maximum. -/
def execCoolantInletNormal (inlet outlet : BitVec 16) (s : State) : Result :=
  .next (
    if !s.s0Runs then s
    else
      let s := s.noteCoolant inlet outlet
      if inlet.toInt ≤ deg (s.inletRange.2 - 2) then { s with coolHold := false } else s)

/-- LEAK_WET (R503, R562): LEAK_N at once; S0 logs it and holds the ceiling at 0 until a Bake order. -/
def execLeakWet (s : State) : Result :=
  .next (
    if s.flag R.MOD_PIN.leak then s
    else
      let s := s.put R.MOD_PIN.leak 1
      if !s.s0Runs then s
      else
        let s := s.puts [(R.THM_COOL.leak, 1), (R.MOD_ALERT.leak, 1)]
        (({ s with leakHold := true } : State).raise E.PWR_LEAK none (atSteward 0) 0).setCeiling 0)

/-- LEAK_DRY (R562). -/
def execLeakDry (s : State) : Result := .next (s.puts [(R.MOD_PIN.leak, 0), (R.THM_COOL.leak, 0)])

end Sys2Proof.Machine
end

