-- ==== Sys2Proof/Machine/Security.lean ====
section
/-! DEFINITION. Machine/Security.lean: the published picture (R475 to R477), SPDM (R474, R478, R479), firmware update (R471, R472, R484,
R485), and the other message types of the MCTP endpoint (R459). Messages leave as `Out.message`: kind 1 an SPDM response and 2 an SPDM
ERROR, 3 PLDM, 4 vendor-defined, 5 MCTP control. -/

namespace Sys2Proof.Machine

/-! ## The picture (R475 to R477) -/

/-- The bank running on half `h`. -/
def State.runBank (s : State) (h : Nat) : Nat := s.get (bankFld h)

/-- Header and component table of the package in bank `k` (R471). -/
def State.bankHead (s : State) (k : Nat) : List Byte := (KMap.find (fun _ => []) s.fw.banks k).take 512

/-- The digest of image `t` in bank `k`; of a package that an update did not bring, a value the model leaves open. -/
def State.imageOf (s : State) (k t : Nat) : Nat :=
  if s.bankHead k = [] then (Config.imageDigest k t).toNat else fieldAt (s.bankHead k) (256 + 64 * (t - 1) + 16) 48

/-- Block 36: the staged package's header and component table, while one is staged or armed. -/
def State.stagedBlock (s : State) : List (Nat × Nat) :=
  if s.get R.SEC_STAT.pending = 0 then [] else [(36, leNat (sha384 (s.bankHead (1 - s.fw.sel))))]

/-- The measurement blocks as they are now (R475). -/
def State.measure (s : State) : List (Nat × Nat) :=
  (List.range 2).flatMap (fun h =>
    let k := s.runBank h
    [(16 * h + 1, (Config.romDigest h).toNat)]
    ++ (List.range 4).filterMap (fun i => if i = 3 ∧ s.partnerFitted h = true then none else some (16 * h + 2 + i, s.imageOf k (i + 1)))
    ++ [(16 * h + 6, (Config.configDigest ([6, h, s.get (R.PART_CTL.policy h), s.get (R.PART_STAT.state h)]
          ++ (List.range 6).map (fun j => s.get (R.PART_ROOT.digest h j)))).toNat)])
  ++ [(33, (Config.recordDigest s.mfg.items).toNat),
      (34, (Config.configDigest [34, s.get R.SEC_STAT.svn_floor, s.get (R.SEC_BANK.valid 0), s.get (R.SEC_BANK.valid 1), s.fw.sel,
        s.get R.OWN_LOCK.lockdown, s.get R.OWN_LOCK.mgmt]).toNat),
      (35, s.get R.SEC_MGEN.gen)]
  ++ s.stagedBlock

/-- Staging and cancelling change block 36 of the picture and nothing else (R475, R477). -/
def State.restage (s : State) : State := { s with picture := s.picture.filter (fun b => decide (b.1 ≠ 36)) ++ s.stagedBlock }

/-- MEASUREMENT_PUBLISH (R472, R476, R477, R479, R508): a new picture, with the generation raised by one. A changed alias key discards the
negotiated state of every requester. -/
def execMeasurementPublish (s : State) : Result :=
  .next (
    if s.flag R.SEC_STAT.measuring = false ∨ s.boot < 2 ∨ 4 < s.boot ∨ (s.halfDead 0 || s.halfDead 1) = true
        ∨ s.flag R.SEC_STAT.recovery = true then s
    else
      let old := s.aliasBlocks
      let s := s.puts [(R.SEC_MGEN.gen, s.get R.SEC_MGEN.gen + 1), (R.SEC_STAT.measuring, 0)]
      let s : State := { s with picture := s.measure }
      let s : State := if old = [] ∨ old = s.aliasBlocks then s
               else { s with spdm := s.spdm.map (fun e => (e.1, { stage := 0, resync := true, defer := [] })) }
      if s.boot = 2 then (if s.linkUp then s.deviceReady else { s with boot := 3 }) else s.raiseFloor)

/-! ## SPDM (R474, R478, R479) -/

/-- The connection of a requester. -/
def State.conn (s : State) (r : Nat) : Conn := KMap.find (fun _ => ⟨0, false, []⟩) s.spdm r

/-- A connection replaced. -/
def State.setConn (s : State) (r : Nat) (x : Conn) : State := { s with spdm := KMap.put (fun _ => ⟨0, false, []⟩) s.spdm r x }

/-- True while S0 answers SPDM: it runs, half A is not in reset, and no half is in recovery (R473, R478). -/
def State.spdmOn (s : State) : Bool := decide (2 ≤ s.boot ∧ s.boot ≤ 4) && !s.halfDead 0 && !s.flag R.SEC_STAT.recovery

/-- An SPDM response: its code and the rest (codes of DSP0274, PRESUMED). -/
def State.spdmSay (s : State) (r code : Nat) (body : List Nat) : State := s.emit (.message 1 (r :: code :: body))

/-- An SPDM ERROR: 1 InvalidRequest, 4 UnexpectedRequest, 0x42 ResponseNotReady, 0x43 RequestResynch (DSP0274, PRESUMED). -/
def State.spdmError (s : State) (r code : Nat) (body : List Nat) : State := s.emit (.message 2 (r :: code :: body))

/-- The request code of a request that can be deferred (DSP0274, PRESUMED). -/
def SpdmReq.code : SpdmReq → Nat
  | .algorithms _ _ _ => 0xE3
  | .digests => 0x81
  | .certificate _ _ _ => 0x82
  | .challenge _ _ => 0x83
  | .measurements _ _ _ _ => 0xE0

/-- The attestation chain of slot 0 (R469). -/
def State.chain (s : State) : List Byte :=
  (List.range (Config.chainLen s.aliasBlocks).toNat).map (Config.chainByte s.aliasBlocks)

/-- The OpaqueData element of a signed response: Apkoco's vendor id and the generation (R477). -/
def State.opaqueData (s : State) : List Nat := [(Config.vendorId 0).toNat, s.get R.SEC_MGEN.gen]

/-- The smallest exponent for which 2^e µs is at least the estimate (R478). -/
def rdtExponent (est : Nat) : Nat := ((List.range 33).find? (fun e => decide (est ≤ 2 ^ e))).getD 32

/-- ResponseNotReady (R478): exponent, request code, token, RDTM. -/
def State.notReady (s : State) (r code token : Nat) : State :=
  ({ s with free := s.free + 1 } : State).spdmError r 0x42 [rdtExponent (Config.publishEstimate s.free).toNat, code, token, 2]

/-- The type of a measurement block (R475): 0 immutable ROM, 1 mutable firmware, 2 hardware configuration, 3 firmware configuration (the codes of
DSP0274, PRESUMED). -/
def blockType (i : Nat) : Nat := if i = 1 ∨ i = 17 then 0 else if i = 33 then 2 else if i = 6 ∨ i = 22 ∨ i = 34 ∨ i = 35 then 3 else 1

/-- A deferrable request answered from the published picture (R474 to R477). -/
def State.spdmAnswer (s : State) (r : Nat) (q : SpdmReq) : State :=
  let x := s.conn r
  let need := match q with
    | .algorithms _ _ _ => 2
    | _ => 3
  if x.stage < need then s.spdmError r 4 []
  else match q with
  | .algorithms asym hash meas =>
    if asym = 1 ∧ hash = 1 then (s.setConn r { x with stage := 3 }).spdmSay r 0x63 [1, 1, meas] else s.spdmError r 1 []
  | .digests => s.spdmSay r 0x01 (1 :: (sha384 s.chain).map BitVec.toNat)
  | .certificate slot off len =>
    let c := s.chain
    if slot ≠ 0 ∨ c.length ≤ off then s.spdmError r 1 []
    else
      let part := (c.drop off).take len
      s.spdmSay r 0x02 (slot :: part.length :: (c.length - off - part.length) :: part.map BitVec.toNat)
  | .challenge slot nonce =>
    if slot ≠ 0 then s.spdmError r 1 []
    else
      let g := s.takeSig
      g.1.spdmSay r 0x03 ([slot, nonce] ++ (sha384 s.chain).map BitVec.toNat ++ s.opaqueData ++ g.2.map BitVec.toNat)
  | .measurements index sign slot nonce =>
    let blocks := if index = 0xFF then s.picture else s.picture.filter (fun b => decide (b.1 = index))
    if (index ≠ 0 ∧ blocks = []) ∨ (sign = true ∧ slot ≠ 0) then s.spdmError r 1 []
    else
      let g := if sign then s.takeSig else (s, [])
      g.1.spdmSay r 0x60 ([index, s.picture.length, blocks.length, nonce] ++ blocks.flatMap (fun b => [b.1, blockType b.1, b.2]) ++ s.opaqueData
        ++ g.2.map BitVec.toNat)

/-- A request other than GET_VERSION and GET_CAPABILITIES: deferred while a picture is being taken (R478), answered with RequestResynch once
after a change of the alias key (R479), or answered. -/
def State.spdmRequest (s : State) (r : Nat) (q : SpdmReq) : State :=
  if !s.spdmOn then s
  else
    let x := s.conn r
    if s.flag R.SEC_STAT.measuring then
      let t := s.tokens % 256
      let s := { s.setConn r { x with defer := x.defer.filter (fun d => decide (d.1 ≠ t)) ++ [(t, q)] } with tokens := s.tokens + 1 }
      s.notReady r q.code t
    else if x.resync then (s.setConn r { x with resync := false }).spdmError r 0x43 []
    else s.spdmAnswer r q

/-- GET_VERSION (R474): 1.3; negotiation starts over. -/
def execGetVersion (r : BitVec 8) (s : State) : Result :=
  .next (if s.spdmOn then (s.setConn r.toNat ⟨1, false, []⟩).spdmSay r.toNat 0x04 [0x13] else s)

/-- GET_CAPABILITIES (R474, R478, R479). -/
def execGetCapabilities (r : BitVec 8) (s : State) : Result :=
  let r := r.toNat
  let x := s.conn r
  .next (
    if !s.spdmOn then s
    else if x.resync then (s.setConn r { x with resync := false }).spdmError r 0x43 []
    else if x.stage = 0 then s.spdmError r 4 []
    else (s.setConn r { x with stage := max x.stage 2 }).spdmSay r 0x61 [(Config.spdmCapabilities 0).toNat])

/-- NEGOTIATE_ALGORITHMS (R474): ECDSA P-384 and SHA-384 when both are offered, and the measurement specification DMTF when it is. -/
def execNegotiateAlgorithms (r : BitVec 8) (asym : Bool) (hash : AlgOffer) (s : State) : Result :=
  .next (s.spdmRequest r.toNat (.algorithms (b2n asym) (b2n hash.sha) (b2n hash.dmtf)))

/-- GET_DIGESTS (R474). -/
def execGetDigests (r : BitVec 8) (s : State) : Result := .next (s.spdmRequest r.toNat .digests)

/-- GET_CERTIFICATE (R474): slot 0 only. -/
def execGetCertificate (r : BitVec 8) (slot : BitVec 4) (off len : BitVec 16) (s : State) : Result :=
  .next (s.spdmRequest r.toNat (.certificate slot.toNat off.toNat len.toNat))

/-- CHALLENGE (R474, R477). -/
def execChallenge (r : BitVec 8) (slot : BitVec 4) (nonce : BitVec 256) (s : State) : Result :=
  .next (s.spdmRequest r.toNat (.challenge slot.toNat nonce.toNat))

/-- GET_MEASUREMENTS (R475, R478). -/
def execGetMeasurements (r : BitVec 8) (index : BitVec 8) (sign : Bool) (slot : BitVec 4) (nonce : BitVec 256) (s : State) : Result :=
  .next (s.spdmRequest r.toNat (.measurements index.toNat sign slot.toNat nonce.toNat))

/-- RESPOND_IF_READY (R478, R479): while a picture is being taken every token is answered with ResponseNotReady, one that names no deferred request
too. -/
def execRespondIfReady (r : BitVec 8) (token : BitVec 8) (s : State) : Result :=
  let r := r.toNat
  let x := s.conn r
  .next (
    if !s.spdmOn then s
    else if x.resync ∧ s.flag R.SEC_STAT.measuring = false then (s.setConn r { x with resync := false }).spdmError r 0x43 []
    else match x.defer.find? (fun d => decide (d.1 = token.toNat)) with
      | none => if s.flag R.SEC_STAT.measuring then s.notReady r 0xFF token.toNat else s.spdmError r 1 []
      | some d =>
        if s.flag R.SEC_STAT.measuring then s.notReady r d.2.code d.1
        else (s.setConn r { x with defer := x.defer.filter (fun e => decide (e.1 ≠ d.1)) }).spdmAnswer r d.2)

/-! ## Firmware update (R459, R471 to R473, R484, R485) -/

/-- True while the MCTP endpoint answers: during every reset, from the PCIe row of a start-up on (R459, R508). -/
def State.mctpOn (s : State) : Bool := s.s0Runs

/-- True while the vendor-defined messages are answered: not in recovery (R460, R473). -/
def State.vdmOn (s : State) : Bool := s.mctpOn && !s.flag R.SEC_STAT.recovery

/-- A PLDM response: command and completion code (DSP0240 and DSP0267, PRESUMED). -/
def State.pldmSay (s : State) (cmd code : Nat) : State := s.emit (.message 3 [cmd, code])

/-- REQUEST_UPDATE (R472, R484): the bank that runs on neither half is written (a half in recovery runs none); with none free the update cannot start (0x8A, PRESUMED). -/
def execRequestUpdate (s : State) : Result :=
  .next (
    if !s.mctpOn then s
    else if s.fw.upd.isSome then s.pldmSay 0x10 0x81
    else match (List.range 2).find? (fun k => (List.range 2).all (fun h => s.recovering h || decide (s.runBank h ≠ k))) with
      | none => s.pldmSay 0x10 0x8A
      | some k =>
        let s := (s.put (R.SEC_BANK.valid k) 0).put R.SEC_STAT.pending 0
        ({ s with fw := { s.fw with upd := some k, revert := false, slot := 0 } } : State).restage.pldmSay 0x10 0)

/-- Entry `i` of the component table of a package (R471). -/
def pkgEntry (p : List Byte) (i : Nat) : List Byte := (p.drop (256 + 64 * i)).take 64

/-- The conditions of R471 on header and component table. -/
def packageOk (p : List Byte) : Bool :=
  decide (fieldAt p 0 4 = 0x5057_4643 ∧ fieldAt p 4 1 = 1 ∧ fieldAt p 6 2 = 4)
  && (List.range 4).all (fun i => decide (fieldAt (pkgEntry p i) 0 1 = i + 1 ∧ fieldAt (pkgEntry p i) 8 8 % 4096 = 0))

/-- Each image lies in the package and has the digest that the table gives it (R470, R471). -/
def imagesOk (p : List Byte) : Bool :=
  (List.range 4).all (fun i =>
    let e := pkgEntry p i
    let image := (p.drop (fieldAt e 8 8)).take (fieldAt e 4 4)
    decide (fieldAt e 8 8 + fieldAt e 4 4 ≤ p.length ∧ sha384 image = (e.drop 16).take 48))

/-- The package's signature over its header and component table verifies under a signing key, whose kid it names (R471). -/
def packageSigOk (p key : List Byte) : Bool :=
  decide ((p.drop 192).take 16 = kidOf key) && ecdsaOk key (p.take 96 ++ (p.drop 256).take 256) ((p.drop 96).take 96)

/-- VERIFY_COMPLETE (R471, R472): the package as it was transferred, the public key of its signing certificate, and whether that certificate stands under
the firmware chain (R469), come with the message; a package that passes is stored whole. -/
def execVerifyComplete (package key : List (BitVec 8)) (certOk : Bool) (s : State) : Result :=
  .next (match s.fw.upd with
    | none => s
    | some k =>
      if !s.mctpOn then s
      else
        let s := { s with fw := { s.fw with upd := none } }
        if !(packageOk package && imagesOk package && packageSigOk package key && certOk) then (s.raise E.SEC_UPDATE none (atSteward 0) k).pldmSay 0x18 1
        else if fieldAt package 12 4 < s.get R.SEC_STAT.svn_floor then (s.raise E.SEC_ROLLBACK none (atSteward 0) k).pldmSay 0x18 1
        else
          let s := { s with fw := { s.fw with banks := KMap.put (fun _ => []) s.fw.banks k package } }
          let s := s.puts [(R.SEC_BANK.fwver k, fieldAt package 8 4), (R.SEC_BANK.valid k, 1), (R.SEC_BANK.mixable k, fieldAt package 5 1 % 2),
            (R.SEC_BANK.svn k, fieldAt package 12 4), (R.SEC_STAT.pending, 1)]
          s.restage.pldmSay 0x18 0)

/-- ACTIVATE_FIRMWARE (R472, R484): a package cancelled in the same command slot is armed all the same. -/
def execActivateFirmware (s : State) : Result :=
  .next (
    if !s.mctpOn then s
    else if s.get R.SEC_STAT.pending = 1 ∨ (s.get R.SEC_STAT.pending = 0 ∧ s.fw.slot = 2) then
      ({ s.put R.SEC_STAT.pending 2 with fw := { s.fw with slot := 1 } } : State).restage.pldmSay 0x1A 0
    else s.pldmSay 0x1A 0x82)

/-- SEC_FWCMD cancel (R484, R485). -/
def execSecFwcmdCancel (s : State) : Result :=
  .next (s.gated 0x03C0_0040 (
    if s.get R.SEC_STAT.pending = 0 ∨ (s.get R.SEC_STAT.pending = 2 ∧ s.fw.slot = 1) then s
    else ({ s.put R.SEC_STAT.pending 0 with fw := { s.fw with slot := 2 } } : State).restage))

/-- SEC_FWCMD revert (R484, R485). -/
def execSecFwcmdRevert (s : State) : Result :=
  .next (s.gated 0x03C0_0040 (
    if s.get R.SEC_STAT.pending = 2 then s.raise E.SEC_UPDATE none (atSteward 0) 0
    else if s.flag (R.SEC_BANK.valid (1 - s.fw.sel)) then { s with fw := { s.fw with revert := true } }
    else s))

/-- SEC_LOGCLR (R485). -/
def execSecLogclr (s : State) : Result :=
  .next (s.gated 0x03C0_0210 (s.puts [(R.SEC_PERMLOG0.addr, 0), (R.SEC_PERMLOG1.count, 0), (R.SEC_PERMLOG1.kind, 0), (R.SEC_PERMLOG1.write, 0),
    (R.SEC_PERMLOG1.ctx, 0)]))

/-! ## The other messages (R459, R556) -/

/-- The PLDM types that the endpoint answers (R459). -/
def pldmTypes : List Nat := [0, 2, 5]

/-- The MCTP message types that the endpoint answers (R459): control, PLDM, SPDM, Vendor Defined PCI. -/
def mctpTypes : List Nat := [0, 1, 5, 0x7E]

/-- The numeric sensors (R459): 0 to 3 landing dies, 4 to 27 stacks, 28 to 51 grid maxima, 52 to 75 junctions, 76 inlet, 77 outlet, 78 to 80 input
power, voltage and current, 81 ceiling, 82 to 86 energy, power, voltage, current and seal of the meter. The numbers are the model's. -/
def State.sensor (s : State) (i : Nat) : Option Nat :=
  let r := KMap.find (fun _ => []) s.mtrRec (s.get R.MTR_IDX.rec)
  ((List.range 4).map (fun h => s.get (R.THM_LD.max h)) ++ (List.range 24).map (fun i => s.get (R.THM_HBM.temp i))
    ++ (List.range 24).map (fun n => s.get (R.THM_CD.grid_max n)) ++ (List.range 24).map (fun n => s.get (R.THM_CD.cd_temp n))
    ++ [s.get R.THM_COOL.inlet, s.get R.THM_COOL.outlet, s.get R.PWR_MEAS.watts, s.get R.PWR_MEAS.volts, s.get R.PWR_MEAS.amps,
        s.get R.PWR_STAT.ceiling, fieldAt r 16 8, fieldAt r 32 4, fieldAt r 36 2, fieldAt r 38 2, s.get R.MTR_STAT.seal_broken])[i]?

/-- PLDM_SENSOR_READ (R459, R473): a numeric sensor, or a command of PLDM base; not answered in recovery. A sensor or type that does not exist is
refused (0x80 and 0x83), and terminus id, types and commands have the form of DSP0240 (PRESUMED, log entry 162). -/
def execPldmSensorRead (r : PldmReq) (s : State) : Result :=
  .next (
    if !s.mctpOn ∨ s.flag R.SEC_STAT.recovery then s
    else match r with
      | .sensor id => (match s.sensor id.toNat with
        | some v => s.emit (.message 3 [2, id.toNat, v])
        | none => s.emit (.message 3 [2, id.toNat, 0x80]))
      | .setTid t => if t.toNat = 0 ∨ t.toNat = 0xFF then s.emit (.message 3 [0, 1, 2])
                     else ({ s with tid := t.toNat } : State).emit (.message 3 [0, 1, 0])
      | .getTid => s.emit (.message 3 [0, 2, 0, s.tid])
      | .types => s.emit (.message 3 [0, 4, 0, 2 ^ 0 + 2 ^ 2 + 2 ^ 5])
      | .version t => if pldmTypes.contains t.toNat then s.emit (.message 3 [0, 3, 0, (Config.pldmVersion t.toNat).toNat])
                      else s.emit (.message 3 [0, 3, 0x83])
      | .commands t => if pldmTypes.contains t.toNat then s.emit (.message 3 [0, 5, 0, (Config.pldmCommands t.toNat).toNat])
                       else s.emit (.message 3 [0, 5, 0x83]))

/-- MCTP_CONTROL (R459, R556): an endpoint ID is assigned or read, or the UUID, the versions of a message type or the message types are; 0x00 to 0x07
and 0xFF are no endpoint IDs (DSP0236, PRESUMED, log entry 162). -/
def execMctpControl (r : MctpReq) (s : State) : Result :=
  .next (
    if !s.mctpOn then s
    else match r with
      | .getEid => s.emit (.message 5 [2, s.eid])
      | .setEid e => if e.toNat < 8 ∨ e.toNat = 0xFF then s.emit (.message 5 [1, 1, s.eid])
                     else ({ s with eid := e.toNat } : State).emit (.message 5 [1, 0, e.toNat])
      | .uuid => s.emit (.message 5 [3, 0, (Config.mctpUuid s.mfg.serial).toNat])
      | .version t => if t.toNat = 0xFF ∨ mctpTypes.contains t.toNat then s.emit (.message 5 [4, 0, (Config.mctpVersion t.toNat).toNat])
                      else s.emit (.message 5 [4, 0x80])
      | .types => s.emit (.message 5 ([5, 0] ++ mctpTypes)))

/-- I3C_DYNAMIC_ADDRESS (R556): SETDASA names the static address 0x30 + slot_id; ENTDAA reaches an endpoint that has no address yet
(PRESUMED, I3C). -/
def execI3cDynamicAddress (sta : Option (BitVec 7)) (addr : BitVec 7) (s : State) : Result :=
  .next (
    if !s.mctpOn ∨ s.i3c.isSome then s
    else match sta with
      | some a => if a.toNat = 0x30 + s.slotId then { s with i3c := some addr.toNat } else s
      | none => { s with i3c := some addr.toNat })

end Sys2Proof.Machine
end

