-- ==== Sys2Proof/Machine/RegRead.lean ====
section
/-! DEFINITION. Machine/RegRead.lean: what a read of a register of BAR0 returns (R8, R9, R434, R435), and
which targets cannot be reached (R25, R434, R460, R565). -/

namespace Sys2Proof.Machine

/-! ## Values that a structure of the state or the manufacturing record holds -/

/-- The sum of 2^i over the indices below `n` that pass. -/
def maskOf (n : Nat) (p : Nat → Bool) : Nat := ((List.range n).map (fun i => if p i then 2 ^ i else 0)).sum

/-- MMA_STAT (R98); rafts and quartering do not survive a reset of the die. -/
def State.viewMmaStat (s : State) (n : Nat) : Nat :=
  maskOf 8 (fun a => !(s.arr n (s.homeArr n a)).ops.isEmpty) * 2 ^ 24 + maskOf 8 (fun a => (s.arr n a).quartered) * 2 ^ 16
    + maskOf 8 (fun a => s.works n a)

/-- MMA_MODE (R98). -/
def State.viewMmaMode (s : State) (n : Nat) : Nat :=
  b2n (decide (s.raftOf n 0 = 8)) * 2 ^ 6 + maskOf 2 (fun b => decide (s.raftOf n (2 * b) = 4)) * 2 ^ 4
    + maskOf 4 (fun q => decide (s.raftOf n q = 2))

/-- MMA_LEVEL (R96, R98, R499): the level of the array or of its raft, never above the limit. -/
def State.viewMmaLevel (s : State) (n : Nat) : Nat :=
  ((List.range 8).map (fun a => min (s.arr n (s.homeArr n a)).level (s.levelLimit n) * 16 ^ a)).sum

/-- True for a chain. -/
def GlzItem.isChain : GlzItem → Bool
  | .chain _ => true
  | .table _ => false

/-- GLZ_STAT (R129). -/
def State.viewGlzStat (s : State) (n : Nat) : Nat :=
  maskOf 2 (fun v => (s.glz n v).run.any GlzItem.isChain) * 2 ^ 16
    + ((List.range 4).map (fun q =>
        (((s.glz n (q / 2)).queue.filter (fun i => i.isChain && decide (i.seq = 4 * n + q))).length) * 16 ^ q)).sum

/-- FLM_STAT.occ, resv and credits (R165). -/
def State.viewFlmStat (s : State) (f : Nat) : Nat :=
  b2n (s.pairOk f) * 2 ^ 60 + b2n (s.flume f).spilling * 2 ^ 58 + (s.flume f).occ * 2 ^ 32 + (s.flume f).resv * 2 ^ 16 + s.credits f

/-- ID_VARIANT (R450). -/
def State.viewVariant (s : State) : Nat :=
  b2n s.mfg.warm * 2 ^ 30 + b2n s.mfg.u1Partner * 2 ^ 29 + b2n s.mfg.u0Partner * 2 ^ 28
    + ((List.range 192).filter (fun i => bit s.mfg.working i)).length * 2 ^ 16 + s.mfg.nedges / 2 * 2 ^ 8 + s.mfg.nstacks * 2 ^ 4 + s.mfg.grade

/-- ID_FITTED (R450). -/
def State.viewFitted (s : State) : Nat :=
  maskOf 12 (fun n => s.cageFitted n) * 2 ^ 36 + maskOf 6 (fun k => s.edgeFitted k) * 2 ^ 30 + maskOf 24 (fun i => s.stackFitted i)

/-- ID_VER (R450), least significant field first. -/
def verWord : Nat := 1 + 1 * 2 ^ 4 + 1 * 2 ^ 8 + 1 * 2 ^ 12 + 1 * 2 ^ 16 + 1 * 2 ^ 20 + 3 * 2 ^ 24 + 1 * 2 ^ 28 + 4 * 2 ^ 32 + 4 * 2 ^ 40 + 1 * 2 ^ 56

/-- The 32 bytes of a RAS log entry (R537). -/
def LogEntry.bytes (e : LogEntry) : List Byte :=
  leBytes 4 e.seq ++ leBytes 2 e.code ++ leBytes 1 e.cls ++ leBytes 1 (e.ctx.getD 0xFF) ++ leBytes 8 e.tick ++ leBytes 1 e.half
    ++ leBytes 1 e.unit ++ leBytes 2 e.index ++ leBytes 4 0 ++ leBytes 8 e.detail

/-- RAS_LOG[j] (R537, R546). -/
def State.rasEntry (s : State) (j : Nat) : List Byte :=
  match s.log.find? (fun e => decide (e.seq % 4096 = j)) with
  | some e => e.bytes
  | none => []

/-- A byte string read as registers. -/
def State.blob (s : State) (x : RegAt) : Option (List Byte) :=
  if x.row.base = 0x03D0_0100 then some (KMap.find (fun _ => []) s.mtrRec (x.ix 0))
  else if x.row.base = 0x03D0_1000 then some (KMap.find (fun _ => []) s.mtrLog (x.ix 0))
  else if x.row.base = 0x03D0_3000 then some (if s.get R.MTR_CLEN.len = 0 then [] else s.scaler.cert)
  else if x.row.base = 0x03D0_4000 then some (KMap.find (fun _ => []) s.stmts (x.ix 0))
  else if x.row.base = 0x03E0_1000 then some (s.rasEntry (x.ix 0))
  else none

/-- What a register reads beside its stored fields. -/
def State.view (s : State) (x : RegAt) : Nat :=
  let b := x.row.base
  let i := x.ix 0
  if b = 0x0200_1004 then s.viewMmaStat i
  else if b = 0x0200_1008 then s.viewMmaMode i
  else if b = 0x0200_100C then s.viewMmaLevel i
  else if b = 0x0200_2000 then s.viewGlzStat i
  else if b = 0x0308_0000 then s.viewFlmStat i
  else if b = 0x0000_0000 then s.mfg.stepping * 2 ^ 16 + 0xC540
  else if b = 0x0000_0008 then s.mfg.serial
  else if b = 0x0000_0010 then s.viewVariant
  else if b = 0x0000_0018 then s.mfg.working / 2 ^ (64 * i) % 2 ^ 64
  else if b = 0x0000_0030 then s.viewFitted
  else if b = 0x0000_0038 then verWord
  else if b = 0x0000_0040 then s.get (R.SEC_BANK.fwver (s.get R.SEC_STAT.bank_a)) * 2 ^ 32 + s.get R.SEC_STAT.bank_a
  else if b = 0x0016_7200 then (s.plist.filter (fun u => decide (regionOf u = .far i))).length
  else if b = 0x0019_0100 then s.tick i
  else if b = 0x0017_1008 then b2n (!s.partnerFitted i) * 2 ^ 60
  else if b = 0x03E3_0000 then
    b2n ((List.range 8).any (fun j => decide (s.get ⟨8 * 0x03E3_0008 + j, 1⟩ = 1))) * 2 ^ 10 + s.slotId
  else if b = 0x03B4_0000 then s.mfg.macs.getD i 0
  else if b = 0x03C0_0000 then b2n s.mfg.debugClosed * 2 ^ 61
  else if b = 0x03C0_0100 then s.mfg.bkey.getD i 0
  else if b = 0x03C0_0180 then s.mfg.bkid.getD i 0
  else if b = 0x03C0_0190 then s.mfg.skid
  else 0

/-! ## Reads -/

/-- A stored field as a read returns it (R8). -/
def State.readField (s : State) (off : Nat) (f : FldRow) : Nat :=
  match f.acc with
  | .wo => 0
  | .ro => if 0x0018_1000 ≤ off ∧ off < 0x0018_10C0 ∧ s.ownHid.contains ((off - 0x0018_1000) / 8) = true then 0 else s.get ⟨8 * off + f.lo, f.w⟩
  | .stg => s.sget ⟨8 * off + f.lo, f.w⟩
  | _ => s.get ⟨8 * off + f.lo, f.w⟩

/-- The value of a register: its fields at their places, reserved bits 0 (R8, R9). -/
def State.regValue (s : State) (x : RegAt) : Nat :=
  match s.blob x with
  | some l => leNat l
  | none => (x.row.fields.map (fun f => s.readField x.off f * 2 ^ f.lo)).sum + s.view x

/-- Four bytes of the MSI-X table of function `c` (R433, R434, R447): address low, address high, data, vector control. -/
def State.msixAt (s : State) (c o : Nat) : Nat :=
  let v := 32 * c + o / 16
  let t := KMap.find (fun _ => (0, 0)) s.msixTab v
  match o % 16 / 4 with
  | 0 => t.1 % 2 ^ 32
  | 1 => t.1 / 2 ^ 32
  | 2 => t.2
  | _ => b2n (!KMap.find (fun _ => false) s.unmask v)

/-- The first four bytes of the MSI-X PBA of function `c` (R433, R434, R447); the rest reads 0. -/
def State.pbaAt (s : State) (c : Nat) : Nat := maskOf 32 (fun v => KMap.find (fun _ => false) s.pba (32 * c + v))

/-- The 32 bits at a 4-byte offset of BAR0; an offset that no block assigns reads 0 (R434). -/
def State.word (s : State) (off : Nat) : Nat :=
  match regAt off with
  | some x => bits (s.regValue x) (8 * (off - x.off)) 32
  | none =>
    if 0x03F0_0000 ≤ off ∧ off < 0x03F0_0200 then s.msixAt 0 (off - 0x03F0_0000)
    else if off = 0x03F0_1000 then s.pbaAt 0
    else 0

/-- A BAR0 access that is 4 or 8 bytes long and naturally aligned (R435). -/
def accessOk (off size : Nat) : Bool := decide ((size = 4 ∨ size = 8) ∧ off % size = 0)

/-- The value of 4 or 8 bytes of BAR0 (R7, R434). -/
def State.read48 (s : State) (off size : Nat) : Nat := s.word off + (if size = 8 then 2 ^ 32 * s.word (off + 4) else 0)

/-! ## Targets that cannot be reached -/

/-- How an access to a register ends before it reaches its field. -/
inductive Reach where
  | ok
  | absent
  | down (code : Nat) (w : Where)
deriving DecidableEq, Repr

/-- The half whose reset makes the register unreachable, with the place that logs it (R22, R25). -/
def homeOf (off : Nat) : Option (Nat × Where) :=
  if 0x0100_0000 ≤ off ∧ off < 0x0200_0000 then
    let h := (off - 0x0100_0000) / 0x40_0000
    some (h / 2, atLd h)
  else if 0x0200_0000 ≤ off ∧ off < 0x02C0_0000 then
    let n := (off - 0x0200_0000) / 0x8_0000
    some (halfOfDie n, atLd (ldOfDie n))
  else if 0x0300_0000 ≤ off ∧ off < 0x0308_0000 then
    let f := (off - 0x0300_0000) / 0x40
    some (halfOfFlume f, atLd (ldOfFlume f))
  else if 0x0308_0000 ≤ off ∧ off < 0x030A_0000 then
    let f := (off - 0x0308_0000) / 0x10
    some (halfOfFlume f, atLd (ldOfFlume f))
  else if 0x0310_0000 ≤ off ∧ off < 0x0318_0000 then
    let f := (off - 0x0310_0000) / 0x40
    some (halfOfFlume f, atLd (ldOfFlume f))
  else if 0x0380_0000 ≤ off ∧ off < 0x038C_0000 then
    let l := (off - 0x0380_0000) / 0x2000
    some (halfOfDie (l / 4), atLd (ldOfDie (l / 4)))
  else if 0x038D_0000 ≤ off ∧ off < 0x038D_0C00 then
    let l := (off - 0x038D_0000) / 32
    some (halfOfDie (l / 4), atLd (ldOfDie (l / 4)))
  else if 0x03B0_0000 ≤ off ∧ off < 0x03B0_00C0 then
    let n := (off - 0x03B0_0000) / 16
    some (n / 6, atEdge (n / 2))
  else if 0x03B0_1000 ≤ off ∧ off < 0x03B0_1600 then
    let k := (off - 0x03B0_1000) / 64
    some (k / 12, atEdge (k / 4))
  else if 0x03B4_0000 ≤ off ∧ off < 0x03B4_0600 then
    let k := (off - 0x03B4_0000) / 64
    some (k / 12, atEdge (k / 4))
  else if 0x0017_1000 ≤ off ∧ off < 0x0017_1200 then
    let u := (off - 0x0017_1000) / 0x100
    some (u, ⟨u, 5, u⟩)
  else none

/-- The cage whose edge die holds the register, if one does (R398, R434). -/
def cageOf (off : Nat) : Option Nat :=
  if 0x03B0_0000 ≤ off ∧ off < 0x03B0_00C0 then some ((off - 0x03B0_0000) / 16)
  else if 0x03B0_1000 ≤ off ∧ off < 0x03B0_1600 then some ((off - 0x03B0_1000) / 128)
  else if 0x03B4_0000 ≤ off ∧ off < 0x03B4_0600 then some ((off - 0x03B4_0000) / 128)
  else none

/-- True for an offset in a compute-die window whose register the landing die holds: MMA_CTL (R98), the binding group and its commit
(R204) and the scale registers (R293). -/
def heldBelow (x : Nat) : Bool :=
  decide (x / 4 = 0x1000 / 4) || decide (0x1_0000 ≤ x) || (decide (0x8000 ≤ x ∧ x < 0x8400) && decide (x % 0x100 < 0x14))

/-- Whether the register at an offset can be reached (R25, R434, R460, R565). -/
def State.reachReg (s : State) (off : Nat) : Reach :=
  if (cageOf off).any (fun n => !s.cageFitted n) then .absent
  else match homeOf off with
    | none => .ok
    | some (h, w) =>
      if s.halfInReset h then .down E.LINK_HALF_DOWN (atEntry w.ld)
      else if 0x0200_0000 ≤ off ∧ off < 0x02C0_0000 then
        let n := (off - 0x0200_0000) / 0x8_0000
        if s.dieOff n && !heldBelow (off % 0x8_0000) then .down E.PWR_DIE_OFF (atLd (ldOfDie n)) else .ok
      else .ok

/-- The value a section of the core sample or a message reads at an offset: 0 where the register cannot be reached (R25, R434). -/
def State.peek (s : State) (off size : Nat) : Nat := if s.reachReg off = .ok then s.read48 off size else 0

end Sys2Proof.Machine
end

