-- ==== Sys2Proof/Machine/RegAccess.lean ====
section
/-! DEFINITION. Machine/RegAccess.lean: register writes of the two masters (R8, R25, R430, R434, R435, R447, R454 to R456, R539), the register
messages (R460) and the ownerless clear registers (R456). A write that reaches a command register has the effect of that command. -/

namespace Sys2Proof.Machine

/-! ## The ownerless registers (R98, R129, R396, R456, R546, R559) -/

/-- Fields set to 0. -/
def State.zero (s : State) (l : List Fld) : State := s.puts (l.map (fun f => (f, 0)))

/-- A field written with ones for the bits to clear (R8). -/
def State.clearBits (s : State) (f : Fld) (v : Nat) : State := s.put f (Nat.land (s.get f) (2 ^ f.w - 1 - v % 2 ^ f.w))

/-- The counters that a write of a clear register names are cleared. -/
def State.clearReg (s : State) : ClrReg → State
  | .mma n v => s.zero ((List.range 9).flatMap (fun i =>
      if v.getLsbD i then [R.MMA_EXPSAT.count n i, R.MMA_ACT.count n i] ++ (if i < 8 then [R.MMA_FILL.count n i] else []) else []))
  | .glz n a q => s.zero ((List.range 2).flatMap (fun v => if a.getLsbD v then [R.GLZ_ACT.count n v] else [])
      ++ (List.range 4).flatMap (fun i => if q.getLsbD i then
          [R.GLZ_NONFIN.count n i, R.GLZ_OVF.count n i, R.GLZ_INV.count n i, R.GLZ_SAT.count n i] else []))
  | .ecc n v => s.zero ((if v.getLsbD 0 then [R.TS_ECC.uncorr n, R.TS_ECC.corr n, R.TS_ECC.last n] else [])
      ++ (if v.getLsbD 1 then [R.TR_ECC.uncorr n, R.TR_ECC.corr n, R.TR_ECC.array n, R.TR_ECC.reg n] else []))
  | .mem v => s.zero ((List.range 24).flatMap (fun i =>
        if v.getLsbD i then [R.HBM_ECC.uncorr i, R.HBM_ECC.corr i, R.HBM_ECC.passes i, R.HBM_ECC.last i] else [])
      ++ (List.range 2).flatMap (fun f => if v.getLsbD (24 + f) then [R.FAR_ECC.uncorr f, R.FAR_ECC.corr f, R.FAR_ECC.ovf f] else []))
  | .ras valid new => s.zero ((if valid then [R.RAS_STAT.valid] else []) ++ (if new then [R.RAS_STAT.new] else []))
  | .alert v => s.zero ((List.range 8).flatMap (fun i => if v.getLsbD i then [⟨8 * 0x03E3_0008 + i, 1⟩] else []))

/-- BAR0 offset of a clear register. -/
def clrOff : ClrReg → Nat
  | .mma n _ => 0x0200_10F0 + 0x8_0000 * n
  | .glz n _ _ => 0x0200_20F0 + 0x8_0000 * n
  | .ecc n _ => 0x0200_3010 + 0x8_0000 * n
  | .mem _ => 0x0016_7300
  | .ras _ _ => 0x03E0_0000
  | .alert _ => 0x03E3_0008

/-- True for the RWC fields of the RAS block, which the error state leaves open (R539). -/
def isRas : ClrReg → Bool
  | .ras _ _ => true
  | .alert _ => true
  | _ => false

/-- A target that cannot be reached: the write is dropped and logged (R25, R565). -/
def State.noReach (s : State) (off : Nat) : Reach → State
  | .down e w => s.raise e none w off
  | _ => s

/-- COUNTER_CLEAR_WRITE (R456): either master's write clears what its ones name. -/
def execCounterClearWrite (_m : Master) (r : ClrReg) (s : State) : Result :=
  .next (
    if isRas r then (if s.flag R.HOST_STAT.ready then s.clearReg r else s)
    else s.gated (clrOff r) (
      match s.reachReg (clrOff r) with
      | .ok => s.clearReg r
      | e => s.noReach (clrOff r) e))

/-! ## Fields without a behaviour of their own -/

/-- The ownership domain of the OWN fields of a row (R455). -/
def ownDomain (base : Nat) : Nat :=
  if [0x0200_1000, 0x0200_8028, 0x0200_8040].contains base then 0
  else if [0x0371_0000, 0x0370_0010, 0x038C_0000, 0x038C_0008, 0x0394_0000, 0x0394_0008, 0x03A1_0010].contains base then 1
  else if [0x0016_6000, 0x0016_6008, 0x0016_6100, 0x0016_6104].contains base then 3
  else if [0x03B0_1010, 0x03B0_1018, 0x03B4_0008, 0x0017_1000, 0x0017_1040].contains base then 4
  else if [0x0019_0010, 0x0019_0030].contains base then 5
  else 2

/-- A write of bits `lo` to `lo + n - 1` of a register: the value the register would have, STG fields from their shadow, WO fields from 0. -/
structure RegWr where
  reg  : RegAt
  lo   : Nat
  n    : Nat
  v    : Nat
  m    : Master
deriving DecidableEq, Repr

/-- The fields that the write touches. -/
def RegWr.touched (x : RegWr) : List FldRow := x.reg.row.fields.filter (fun f => decide (f.lo < x.lo + x.n ∧ x.lo < f.lo + f.w))

/-- The register's value with the written bits replaced (R435). -/
def State.merged (s : State) (x : RegWr) : Nat :=
  setBits (x.reg.row.fields.map (fun f => s.readField x.reg.off f * 2 ^ f.lo)).sum x.lo x.n x.v

/-- A write of NUM_SCTL as the bits it carries (R297, R435). -/
def RegWr.sctl (x : RegWr) : SctlVal :=
  if x.n = 64 then .whole (BitVec.ofNat 64 x.v) else if x.lo = 0 then .low (BitVec.ofNat 32 x.v) else .high (BitVec.ofNat 32 x.v)

/-- The written bits alone. -/
def RegWr.ones (x : RegWr) : Nat := x.v % 2 ^ x.n * 2 ^ x.lo

/-- A field written by its access code (R8); ownership has been judged. -/
def State.writeField (x : RegWr) (w : Nat) (s : State) (f : FldRow) : State :=
  let fld : Fld := ⟨8 * x.reg.off + f.lo, f.w⟩
  match f.acc with
  | .ro => s
  | .wo => s
  | .rw => s.put fld (bits w f.lo f.w)
  | .own => s.put fld (bits w f.lo f.w)
  | .stg => s.sput fld (bits w f.lo f.w)
  | .rwc => s.clearBits fld (bits x.ones f.lo f.w)

/-- Every touched field written. -/
def State.writePlain (s : State) (x : RegWr) : State := x.touched.foldl (State.writeField x (s.merged x)) s

/-! ## Registers with a behaviour of their own -/

/-- The state after a command. -/
def State.after (s : State) : Result → State
  | .next t => t
  | _ => s

/-- MMA_CTL (R98): an illegal ramp length leaves its field. -/
def State.writeMmaCtl (s : State) (n w off : Nat) : State :=
  let g := bits w 0 7
  let s := s.put (R.MMA_CTL.filler_en n) (bits w 15 1)
  if 16 ≤ g ∧ g ≤ 64 ∧ g % 8 = 0 then s.put (R.MMA_CTL.ramp_len n) g else s.raise E.CFG_RANGE none (atLd (ldOfDie n)) off

/-- NUM_CTL (R315): an illegal shn leaves its field. -/
def State.writeNumCtl (s : State) (c w off : Nat) : State :=
  let n := bits w 16 5
  let s := s.puts [(R.NUM_CTL.skip_pin c, bits w 31 1), (R.NUM_CTL.noprom c, bits w 30 1), (R.NUM_CTL.plim c, bits w 0 16)]
  if n = 0 ∨ (4 ≤ n ∧ n ≤ 20) then s.put (R.NUM_CTL.shn c) n else s.cfgRange (some c) off

/-- ETH_PORT (R426): an illegal MTU leaves its field. -/
def State.writeEthPort (s : State) (k w off : Nat) : State :=
  let t := bits w 0 14
  let s := s.puts [(R.ETH_PORT.pfc_en k, bits w 31 1), (R.ETH_PORT.pcp k, bits w 28 3), (R.ETH_PORT.vlan k, bits w 16 12)]
  let s := if bits w 31 1 = 0 then ({ s with ethPause := KMap.drop s.ethPause k } : State).ethRelease (k / 2) else s
  if 1500 ≤ t ∧ t ≤ 9216 then s.put (R.ETH_PORT.mtu k) t else s.raise E.CFG_RANGE none (atLink k) off

/-- PWR_CTL (R510): a control period of 0 leaves its field. -/
def State.writePwrCtl (s : State) (w off : Nat) : State :=
  let s := s.put R.PWR_CTL.perst_warm (bits w 31 1)
  if bits w 0 8 = 0 then s.cfgRange none off else s.put R.PWR_CTL.cap_us (bits w 0 8)

/-- DIE_CMD (R462): a die number that no die has is refused (R438). -/
def State.writeDieCmd (s : State) (w : Nat) : State :=
  let cmd := bits w 28 4
  let n := bits w 8 5
  if cmd = 1 ∨ cmd = 2 then
    if h : n < 24 then
      s.after (if cmd = 1 then execDieCmdAssign ⟨n, h⟩ (Fin.ofNat 64 w) s else execDieCmdRelease ⟨n, h⟩ s)
    else (s.raise E.CFG_COMMIT none (atSteward 0) n).dieResult n 2
  else s

/-- Commands in a compute-die window (R98, R129, R166, R227, R316); none for another row. -/
def State.writeDie (s : State) (x : RegWr) (w : Nat) : Option State :=
  let b := x.reg.row.base
  let n : Fin 24 := Fin.ofNat 24 (x.reg.ix 0)
  let q : Fin 4 := Fin.ofNat 4 (x.reg.ix 1)
  let sched := fun (sel : Fin 5) => some (s.after (execSchedRegisterWrite n q sel (BitVec.ofNat 8 (x.reg.ix 2)) (BitVec.ofNat 32 w) s))
  if b = 0x0200_1000 then some (s.writeMmaCtl n w x.reg.off)
  else if b = 0x0200_10F0 then some (s.clearReg (.mma n (BitVec.ofNat 9 w)))
  else if b = 0x0200_20F0 then some (s.clearReg (.glz n (BitVec.ofNat 2 (w / 16)) (BitVec.ofNat 4 w)))
  else if b = 0x0200_3010 then some (s.clearReg (.ecc n (BitVec.ofNat 2 w)))
  else if b = 0x0200_5000 then sched 0
  else if b = 0x0200_5004 then sched 1
  else if b = 0x0200_5008 then sched 2
  else if b = 0x0200_500C then sched 3
  else if b = 0x0200_6000 then sched 4
  else if b = 0x0200_8010 then some (if bit w 0 then s.after (execSeqBcommit n q s) else s)
  else if b = 0x0200_8018 then
    let cmd := bits w 0 4
    some (if cmd = 1 then s.after (execSeqCmdRun n q s) else if cmd = 2 then s.after (execSeqCmdHalt n q s)
          else if cmd = 3 then s.after (execSeqCmdStep n q s) else if cmd = 4 then s.after (execSeqCmdUnbind n q s) else s)
  else if b = 0x0200_8028 then some (s.after (execSeqPcWrite x.m n q (BitVec.ofNat 14 w) s))
  else if b = 0x0201_0000 then some (s.after (execNumSctlWrite x.m n (BitVec.ofNat 8 (x.reg.ix 1)) x.sctl s))
  else none

/-- Commands of the flume and version blocks (R165, R193). -/
def State.writeTables (s : State) (x : RegWr) (w : Nat) : Option State :=
  let b := x.reg.row.base
  let f : Fin 8192 := Fin.ofNat 8192 w
  if b = 0x0370_0000 then some (s.after (execFlmCommit f s))
  else if b = 0x0370_0008 then
    some (if bits w 28 4 = 1 then s.after (execFlmCmdClear f s) else if bits w 28 4 = 2 then s.after (execFlmCmdClose f s) else s)
  else if b = 0x0380_0008 then
    some (s.after (execVerAdmitWrite x.m (Fin.ofNat 96 (x.reg.ix 0)) (BitVec.ofNat 32 (w / 2 ^ 32)) (bit w 31) s))
  else if b = 0x038C_0010 then
    let l := bits w 2 7
    some (if h : l < 96 then
        (if bits w 28 4 = 1 then s.after (execVerCmdLive ⟨l, h⟩ (Fin.ofNat 4 w) s)
         else if bits w 28 4 = 2 then s.after (execVerCmdDrop ⟨l, h⟩ (Fin.ofNat 4 w) s) else s)
      else s)
  else if b = 0x010F_0000 then
    let j := bits w 12 5
    some (if j < 24 then s.after (execVarCommit (Fin.ofNat 96 (24 * x.reg.ix 0 + j)) (BitVec.ofNat 12 w) s) else s)
  else none

/-- Commands of the blocks held by the stewards (R290, R315, R374, R396, R462, R485, R510). -/
def State.writeSteward (s : State) (x : RegWr) (w : Nat) : Option State :=
  let b := x.reg.row.base
  let c : Fin 64 := Fin.ofNat 64 w
  let i := x.reg.ix 0
  let cmd := bits w 28 4
  if b = 0x0014_1000 then some (s.after (execCutCommit c (BitVec.ofNat 2 (w / 2 ^ 8)) s))
  else if b = 0x0014_1008 then some (if cmd = 1 then s.after (execCutCmdStart c (BitVec.ofNat 2 (w / 2 ^ 8)) s) else s)
  else if b = 0x0015_0000 then some (s.writeNumCtl i w x.reg.off)
  else if b = 0x0015_0010 then
    some (if s.flag (R.NUM_STAT.busy i) then s.cfgRange (some i) x.reg.off else s.writePlain x)
  else if b = 0x0015_1000 then
    some (if cmd = 1 then s.after (execNumCmdForceSkip c s) else if cmd = 2 then s.after (execNumCmdClear c s) else s)
  else if b = 0x0016_4000 then some (s.after (execMemWcommit c s))
  else if b = 0x0016_5080 then some (s.after (execHbmGcommit (Fin.ofNat 8 w) s))
  else if b = 0x0016_6000 then some (s.after (execFarBuddyWrite x.m (Fin.ofNat 2 i) false (BitVec.ofNat 48 w) s))
  else if b = 0x0016_6008 then some (s.after (execFarBuddyWrite x.m (Fin.ofNat 2 i) true (BitVec.ofNat 48 w) s))
  else if b = 0x0016_7300 then some (s.clearReg (.mem (BitVec.ofNat 26 w)))
  else if b = 0x0017_1000 then
    some (s.after (execPartnerPolicyWrite x.m (Fin.ofNat 2 i) (BitVec.ofNat 2 (w / 2 ^ 30)) (bit w 29) (BitVec.ofNat 6 (w / 2 ^ 12))
      (BitVec.ofNat 12 w) s))
  else if b = 0x0010_0400 then some (s.after (execRingCommit (Fin.ofNat 64 i) (bit w 4) (Fin.ofNat 16 w) s))
  else if b = 0x0018_1100 then some (s.writeDieCmd w)
  else if b = 0x0018_2000 then some (s.after (execOwnLockWrite x.m (bit w 31) (BitVec.ofNat 8 w) s))
  else if b = 0x0018_2010 then some (s.giveOrder .host cmd (bits w 0 16))
  else if b = 0x0019_0010 then some (s.writePwrCtl w x.reg.off)
  else if b = 0x0019_0030 then some (s.after (execPwrPdoffWrite x.m (Fin.ofNat 2 i) (BitVec.ofNat 64 w) s))
  else if b = 0x03A1_0000 then some (s.after (execCkptAcommit c s))
  else if b = 0x03A1_0008 then
    some (if cmd = 1 then ({ s with free := s.free + 1 } : State).after (execCkptCmdTake c (Config.ckptKey s.free) { s with free := s.free + 1 })
          else if cmd = 2 then s.after (execCkptCmdRestore c s) else if cmd = 3 then s.after (execCkptCmdAbort c s) else s)
  else if b = 0x03C0_0040 then
    some (if cmd = 1 then s.after (execSecFwcmdCancel s) else if cmd = 2 then s.after (execSecFwcmdRevert s) else s)
  else if b = 0x03C0_0210 then some (if bit w 0 then s.after (execSecLogclr s) else s)
  else none

/-- Commands of the haul and edge blocks (R343, R426). -/
def State.writeEdge (s : State) (x : RegWr) (w : Nat) : Option State :=
  let b := x.reg.row.base
  let i := x.reg.ix 0
  if b = 0x0390_0018 then some (s.after (execHaulTailWrite x.m (Fin.ofNat 64 i) (BitVec.ofNat 16 w) s))
  else if b = 0x0390_1000 then some (s.after (execHaulCcommit (Fin.ofNat 64 w) s))
  else if b = 0x0391_1000 then some (s.after (execHaulScommit (Fin.ofNat 64 w) s))
  else if b = 0x03B0_0100 then some (s.after (execCageCommit (Fin.ofNat 16 w) s))
  else if b = 0x03B0_1018 then
    some (s.after (execSkwVersionWrite x.m (Fin.ofNat 24 i) (BitVec.ofNat 2 (w / 4)) (BitVec.ofNat 2 w) s))
  else if b = 0x03B0_2000 then
    let k := bits w 0 5
    some (if h : k < 24 then
        (if bits w 28 4 = 1 then s.after (execSkwCmdRetrain ⟨k, h⟩ s)
         else if bits w 28 4 = 2 then s.after (execSkwCmdRekey ⟨k, h⟩ s) else s)
      else s)
  else if b = 0x03B2_0000 then some (s.after (execSkwCcommit (Fin.ofNat 8192 w) s))
  else if b = 0x03B3_1000 then some (s.after (execRedCommit (Fin.ofNat 64 w) s))
  else if b = 0x03B4_0008 then some (s.writeEthPort i w x.reg.off)
  else none

/-- A write whose target is reached and whose master may make it: the command it stands for, or its fields. -/
def State.writeReg (s : State) (x : RegWr) : State :=
  let w := s.merged x
  match s.writeDie x w with
  | some t => t
  | none => match s.writeTables x w with
    | some t => t
    | none => match s.writeSteward x w with
      | some t => t
      | none => match s.writeEdge x w with
        | some t => t
        | none => s.writePlain x

/-! ## Masters and ownership (R454 to R456) -/

/-- True for the ownerless registers (R456). -/
def ownerless (base : Nat) : Bool :=
  [0x0200_10F0, 0x0200_20F0, 0x0200_3010, 0x0016_7300, 0x03E0_0000, 0x03E3_0008].contains base

/-- True when the master may not make the write (R454, R455): the management controller writes OWN fields of its domains, OWN_LOCK and the ownerless
registers alone. OWN_LOCK is RO to the host, which has its write ignored. -/
def State.forbidden (s : State) (x : RegWr) : Bool :=
  let b := x.reg.row.base
  if ownerless b ∨ b = 0x0018_2000 then false
  else x.touched.any (fun f => match f.acc with
    | .ro => false
    | .own => !s.owns x.m (ownDomain b)
    | _ => decide (x.m = .mgmt))
    || (decide (x.m = .mgmt) && !x.touched.any (fun f => decide (f.acc = .own)))

/-- True for the writes that the error state leaves open (R539). -/
def fatalOpen (base off : Nat) : Bool := decide (off / 8 = 0x0018_0000 / 8) || [0x03E0_0000, 0x03E3_0008, 0x0018_2010].contains base

/-- One register written: the state, and 0 done, 1 dropped, 3 not reached (R460). -/
def State.writeOne (s : State) (x : RegWr) : State × Nat :=
  if s.flag R.RAS_STAT.fatal && !fatalOpen x.reg.row.base x.reg.off then (s.cfgRange none x.reg.off, 1)
  else match s.reachReg x.reg.off with
    | .ok => if s.forbidden x then (s.ownDrop x.m x.reg.off, 1) else (s.writeReg x, 0)
    | .absent => if x.m = .mgmt ∧ s.forbidden x = true then (s.ownDrop x.m x.reg.off, 1) else (s, 1)
    | .down e w => (s.raise e none w x.reg.off, 3)

/-! ## The MSI-X tables (R433, R434, R447) -/

/-- Four bytes of an MSI-X table entry: address low, address high, data, vector control. -/
def State.msixWord (s : State) (c o v : Nat) : State :=
  let k := 32 * c + o / 16
  let t := KMap.find (fun _ => (0, 0)) s.msixTab k
  let put := fun (t : Nat × Nat) => ({ s with msixTab := KMap.put (fun _ => (0, 0)) s.msixTab k t } : State)
  if o % 16 / 4 = 0 then put (t.1 / 2 ^ 32 * 2 ^ 32 + v % 2 ^ 32, t.2)
  else if o % 16 / 4 = 1 then put (t.1 % 2 ^ 32 + v % 2 ^ 32 * 2 ^ 32, t.2)
  else if o % 16 / 4 = 2 then put (t.1, v % 2 ^ 32)
  else ({ s with unmask := KMap.put (fun _ => false) s.unmask k (v % 2 = 0) } : State).flushVectors c

/-- 4 or 8 bytes of the table. -/
def State.msixWrite (s : State) (c o size v : Nat) : State :=
  let s := s.msixWord c o (v % 2 ^ 32)
  if size = 8 then s.msixWord c (o + 4) (v / 2 ^ 32) else s

/-! ## BAR0 -/

/-- The writes of an access: one register, or two 32-bit registers side by side (R435). -/
def regWrites (m : Master) (off size v : Nat) : List RegWr :=
  match regAt off with
  | some x =>
    if x.row.bits = 32 then
      ⟨x, 0, 32, v % 2 ^ 32, m⟩ :: (if size = 8 then (regAt (off + 4)).toList.map (fun y => ⟨y, 0, 32, v / 2 ^ 32, m⟩) else [])
    else [⟨x, 8 * (off - x.off), 8 * size, v, m⟩]
  | none => if size = 8 then (regAt (off + 4)).toList.map (fun y => ⟨y, 0, 32, v / 2 ^ 32, m⟩) else []

/-- The result of a list of writes: the greatest code. -/
def State.writeAll (s : State) (l : List RegWr) : State × Nat :=
  l.foldl (fun (p : State × Nat) x => let q := p.1.writeOne x; (q.1, max p.2 q.2)) (s, 0)

/-- A write of `size` bytes at an offset of PF BAR0 once the port is ready (R434, R435, R529). One by the management controller to the Scaler
mirror, an MSI-X table or an offset that no block assigns is none that R454 lets it make. -/
def State.bar0Write (s : State) (m : Master) (off size v : Nat) : State × Nat :=
  if m = .mgmt ∧ (regWrites m off size v).isEmpty = true then (s.ownDrop m off, 1)
  else if 0x03D0_0000 ≤ off ∧ off < 0x03E0_0000 then (if m = .mgmt then (s.ownDrop m off, 1) else (s.cfgRange none off, 1))
  else if 0x03F0_0000 ≤ off ∧ off < 0x03F0_0200 then
    (if s.flag R.RAS_STAT.fatal then (s.cfgRange none off, 1) else (s.msixWrite 0 (off - 0x03F0_0000) size v, 0))
  else s.writeAll (regWrites m off size v)

/-- REGISTER_WRITE (R8, R430, R433 to R435, R454, R461): a write through BAR0 of function `c`, or by the management controller. A VF reaches its
context page and its MSI-X table. -/
def execRegisterWrite (m : Master) (c : Fin 64) (off : BitVec 26) (size : BitVec 4) (v : BitVec 64) (s : State) : Result :=
  let c := c.val
  let off := off.toNat
  let size := size.toNat
  let v := v.toNat
  .next (
    if s.flag R.HOST_STAT.ready = false then s
    else if accessOk off size = false then s.cfgRange (if c = 0 then none else some c) off
    else match m with
      | .mgmt => (s.bar0Write .mgmt off size v).1
      | .host =>
        if !s.portUp ∨ !s.answers c then s
        else if c = 0 then (s.bar0Write .host off size v).1
        else if off < 0x1000 then (s.bar0Write .host (0x0010_0000 + 0x1000 * c + off) size v).1
        else if 0x2000 ≤ off ∧ off < 0x2200 then (if s.flag R.RAS_STAT.fatal then s.cfgRange (some c) off else s.msixWrite c (off - 0x2000) size v)
        else s)

/-! ## Configuration requests and reads of BAR0 (R429 to R435, R447) -/

/-- A read of PF BAR0 at an offset whose register may not be reached: it is logged and returns 0 (R25, R434). -/
def State.bar0Get (s : State) (off size : Nat) : State × Nat :=
  match s.reachReg off with
  | .ok => (s, s.read48 off size)
  | .absent => (s, 0)
  | .down e w => (s.raise e none w off, 0)

/-- A read through BAR0 of function `c` (R430, R433 to R435): 0 outside the identity block before the device is ready; a VF reads its context page,
the identity block from 0x1000, its MSI-X table from 0x2000 and its PBA at 0x3000. -/
def State.bar0Read (s : State) (c off size : Nat) : State × Nat :=
  let ready := s.flag R.HOST_STAT.ready
  let both := fun (g : Nat → Nat) => g off + (if size = 8 then 2 ^ 32 * g (off + 4) else 0)
  let ident := if c = 0 then decide (off < 0x1000) else decide (0x1000 ≤ off ∧ off < 0x2000)
  if !ready && !ident then (s, 0)
  else if accessOk off size = false then (s.cfgRange (if c = 0 then none else some c) off, 0)
  else if c = 0 then s.bar0Get off size
  else if off < 0x1000 then s.bar0Get (0x0010_0000 + 0x1000 * c + off) size
  else if off < 0x2000 then s.bar0Get (off - 0x1000) size
  else if off < 0x2200 then (s, both (fun o => s.msixAt c (o - 0x2000)))
  else (s, both (fun o => if o = 0x3000 then s.pbaAt c else 0))

/-- PCIE_CONFIG_REQUEST (R429 to R435, R447): a configuration read, a write of the bits the spec gives a meaning, or a read of BAR0, which completes
with its data. -/
def execPcieConfigRequest (c : Fin 64) (r : CfgReq) (s : State) : Result :=
  let c := c.val
  .next (
    if !s.portUp then s
    else if !s.funcExists c then s.emit (.pcie 2 [c])
    else match r with
      | .read off => let o := off.toNat / 4 * 4
                     s.emit (.pcie 3 [c, o, s.cfgWord c o])
      | .item i => if CfgItem.pfOnly i = true ∧ c ≠ 0 then s.emit (.pcie 3 [c, 0]) else s.emit (.pcie 3 [c, s.cfgItem i])
      | .busMaster on => s.setFn c { s.fn c with master := on }
      | .msix en mask => s.setFn c { s.fn c with msix := en, fmask := mask }
      | .power d => s.setFn c { s.fn c with d3 := d }
      | .resize vf n => if c = 0 then s.resizeBar vf n.toNat else s
      | .bar0Read off size =>
        if !s.answers c then s.emit (.pcie 2 [c])
        else
          let r := s.bar0Read c off.toNat size.toNat
          r.1.emit (.pcie 0 (c :: (leBytes size.toNat r.2).map BitVec.toNat)))

/-! ## The vendor-defined message (R460) -/

/-- A response of the vendor-defined message. -/
def State.answer (s : State) (body : List Nat) : State := s.emit (.message 4 body)

/-- MSG_REGISTER_READ (R434, R454, R460): the security mailbox block and an offset that no block assigns read 0. -/
def execMsgRegisterRead (off : BitVec 26) (size : BitVec 4) (s : State) : Result :=
  let off := off.toNat
  let size := size.toNat
  .next (
    if !s.vdmOn then s
    else if accessOk off size = false then (s.cfgRange none off).answer [2]
    else if s.flag R.HOST_STAT.ready = false then s.answer [3]
    else match s.reachReg off with
      | .down e w => (s.raise e none w off).answer [3]
      | .absent => s.answer [0, 0]
      | .ok => s.answer [0, if 0x03C0_0000 ≤ off ∧ off < 0x03D0_0000 then 0 else s.read48 off size])

/-- MSG_REGISTER_WRITE (R454, R455, R460). -/
def execMsgRegisterWrite (off : BitVec 26) (size : BitVec 4) (v : BitVec 64) (s : State) : Result :=
  let off := off.toNat
  let size := size.toNat
  .next (
    if !s.vdmOn then s
    else if accessOk off size = false then (s.cfgRange none off).answer [2]
    else if s.flag R.HOST_STAT.ready = false then s.answer [3]
    else
      let r := s.bar0Write .mgmt off size v.toNat
      r.1.answer [r.2])

/-- MSG_ORDER (R457, R460): the order waits for the end of its slot; its outcome is read with MSG_ORDER_STATUS. -/
def execMsgOrder (kind : BitVec 4) (arg : BitVec 16) (s : State) : Result :=
  .next (
    if !s.vdmOn then s
    else if s.flag R.HOST_STAT.ready = false then s.answer [3]
    else (s.giveOrder .mgmt kind.toNat arg.toNat).answer [0])

/-- MSG_ORDER_STATUS (R460): result of the management controller's last order, 0 none, 1 applied, 2 superseded, 3 refused. -/
def execMsgOrderStatus (s : State) : Result := .next (if !s.vdmOn then s else s.answer [0, s.mgmtRes.2])

end Sys2Proof.Machine
end

