-- ==== Sys2Proof/Machine/CoreSample.lean ====
section
/-! DEFINITION. Machine/CoreSample.lean: the core sample of a fatal error (R538, R540 to R542). The inner layout of the sections is the model's
(log entry 90). -/

namespace Sys2Proof.Machine

/-- The registers of BAR0 from `lo` to `hi - 1`, as bytes (R7). -/
def State.block (s : State) (lo hi : Nat) : List Byte := (List.range ((hi - lo) / 8)).flatMap (fun i => leBytes 8 (s.peek (lo + 8 * i) 8))

/-- Bytes cut or filled with zeros to a length. -/
def fit (n : Nat) (l : List Byte) : List Byte := (l ++ List.replicate n 0).take n

/-- A watch entry as a word: kind and argument (R218). -/
def Watch.word : Watch → Nat
  | .off => 0
  | .record f => 1 + 16 * f
  | .credit f => 2 + 16 * f
  | .event e => 3 + 16 * e

/-- The architectural state of sequencer `k`, 1 KiB (R540): s, a and p registers, HB, OB, event counters, watch set, stacks and pc. -/
def State.seqImage (s : State) (k : Nat) : List Byte :=
  let x := s.seq k
  let loops := x.loops.flatMap (fun l => leBytes 8 l.first ++ leBytes 8 l.last ++ leBytes 8 l.count)
  let calls := x.calls.flatMap (fun a => leBytes 8 a)
  fit 1024 ((List.range 32).flatMap (fun i => leBytes 8 (x.sreg i).toNat) ++ (List.range 16).flatMap (fun i => leBytes 8 (x.areg i).toNat)
    ++ leBytes 8 (maskOf 8 x.preg) ++ x.hb.bytes ++ x.ob.bytes ++ (List.range 8).flatMap (fun i => leBytes 8 (x.evc i))
    ++ (List.range 8).flatMap (fun i => leBytes 8 (x.watchAt i).word) ++ fit 96 loops ++ fit 128 calls ++ leBytes 8 (s.pc k))

/-- A flume's part of section type 6: its registers and the headers of its 16 oldest records (R540). -/
def State.flumeImage (s : State) (f : Nat) : List Byte :=
  s.block (0x0300_0000 + 64 * f) (0x0300_0040 + 64 * f) ++ s.block (0x0308_0000 + 16 * f) (0x0308_0010 + 16 * f)
    ++ s.block (0x0310_0000 + 64 * f) (0x0310_0040 + 64 * f) ++ fit 1024 (((s.flume f).recs.take 16).flatMap (fun r => r.hdr.bytes))

/-- Version tables, variant tables and scale registers: section type 7 (R540). -/
def State.tableImage (s : State) : List Byte :=
  s.block 0x0380_0000 0x038D_0C00 ++ (List.range 4).flatMap (fun h => s.block (0x0110_0000 + 0x40_0000 * h) (0x0140_0000 + 0x40_0000 * h))
    ++ (List.range 24).flatMap (fun n => s.block (0x0201_0000 + 0x8_0000 * n) (0x0201_8080 + 0x8_0000 * n))

/-- The registers of an edge die and its links: section type 8 (R540). -/
def State.edgeImage (s : State) (k : Nat) : List Byte :=
  s.block (0x03B0_0000 + 32 * k) (0x03B0_0020 + 32 * k) ++ s.block (0x03B0_1000 + 256 * k) (0x03B0_1100 + 256 * k)
    ++ s.block (0x03B4_0000 + 256 * k) (0x03B4_0100 + 256 * k)

/-- A section: type, half, index, absent, contents (R540). -/
structure Section where
  typ    : Nat
  half   : Nat
  index  : Nat
  absent : Bool
  data   : List Byte
deriving DecidableEq, Repr

/-- The sections of a sample; those of an absent half are marked and empty (R540, R542). -/
def State.sections (s : State) (x : Sample) : List Section :=
  let sec := fun typ half index (d : List Byte) =>
    let gone := x.gone.contains half
    (⟨typ, half, index, gone, if gone then [] else d⟩ : Section)
  [sec 1 0 0 ((List.range 4096).flatMap (fun j => fit 32 (s.rasEntry j))), sec 2 0 0 (s.block 0x0010_0000 0x0100_0000)]
    ++ (List.range 4).map (fun h => sec 3 (h / 2) h (s.block (0x0100_0000 + 0x40_0000 * h) (0x0140_0000 + 0x40_0000 * h)))
    ++ (List.range 24).map (fun n => sec 4 (halfOfDie n) n (s.block (0x0200_0000 + 0x8_0000 * n) (0x0208_0000 + 0x8_0000 * n)))
    ++ (List.range 96).map (fun k => sec 5 (halfOfDie (k / 4)) k (s.seqImage k))
    ++ [sec 6 0 0 ((List.range 8192).flatMap s.flumeImage), sec 7 0 0 s.tableImage]
    ++ ((List.range 6).filter (fun k => s.edgeFitted k)).map (fun k => sec 8 (k / 3) k (s.edgeImage k))
    ++ [sec 9 0 0 (s.block 0x0017_0000 0x0017_0100 ++ s.block 0x0017_1000 0x0017_1200 ++ s.block 0x0019_1000 0x0019_2208)]

/-- The section entries of the header, each with the offset of its contents (R540). -/
def sectionEntries : List Section → Nat → List Byte
  | [], _ => []
  | x :: l, o =>
    leBytes 2 x.typ ++ leBytes 1 x.half ++ leBytes 1 (b2n x.absent) ++ leBytes 4 x.index ++ leBytes 8 o ++ leBytes 8 x.data.length ++ leBytes 8 0
      ++ sectionEntries l (o + x.data.length)

/-- The 8 KiB header (R540). -/
def State.sampleHead (s : State) (x : Sample) (hbmOk : Bool) (l : List Section) : List Byte :=
  let body := l.flatMap Section.data
  let flags := 1 + 2 + 4 * b2n (!hbmOk) + 8 * b2n (x.gone.contains 0) + 16 * b2n (x.gone.contains 1)
  fit 8192 (leBytes 4 0x4C50_4D53 ++ leBytes 1 1 ++ leBytes 1 flags ++ leBytes 2 l.length ++ leBytes 2 x.code ++ leBytes 6 0 ++ leBytes 8 x.tick
    ++ leBytes 8 s.mfg.serial ++ leBytes 8 (s.get R.SEC_MGEN.gen) ++ leBytes 4 (s.get (R.SEC_BANK.fwver (s.get R.SEC_STAT.bank_a)))
    ++ leBytes 4 0 ++ sha384 body ++ leBytes 8 (8192 + body.length) ++ leBytes 24 0 ++ sectionEntries l 8192)

/-- CORE_SAMPLE_COMPLETE (R538, R542): `hbmOk` false: the HBM region returned an uncorrectable write, and the far-tier copy alone is written. -/
def execCoreSampleComplete (hbmOk : Bool) (s : State) : Result :=
  .next (match s.sample with
    | none => s
    | some x =>
      let l := s.sections x
      let img := s.sampleHead x hbmOk l ++ l.flatMap Section.data
      let s := if hbmOk then s.write 0 img else s
      let s := s.write 0x02FF_F000_0000 img
      ({ s with sample := none } : State).put R.RAS_STAT.valid 1 |>.count R.RAS_STAT.samples 1)

end Sys2Proof.Machine
end

