-- ==== Sys2Proof/Machine/SlotCmd.lean ====
section
/-! DEFINITION. Machine/SlotCmd.lean: the slot instructions as commands (R205 to R209, R218 to R225). Each is one slot of a bundle; what it does at
issue is its operation in Issue.lean, and the bundle issues with its last slot. -/

namespace Sys2Proof.Machine

/-- NOP (R206). -/
def execNop (c : SlotCtl) (s : State) : Result := issue c (.nop c) s

/-- BR (R231). -/
def execBr (c : SlotCtl) (target : BitVec 14) (s : State) : Result := issue c (.br c target) s

/-- BR_S (R231). -/
def execBrS (c : SlotCtl) (rs : BitVec 5) (s : State) : Result := issue c (.brS c rs) s

/-- CALL (R214). -/
def execCall (c : SlotCtl) (target : BitVec 14) (s : State) : Result := issue c (.call c target) s

/-- RET (R214). -/
def execRet (c : SlotCtl) (s : State) : Result := issue c (.ret c) s

/-- LOOP (R232). -/
def execLoop (c : SlotCtl) (rs : BitVec 5) (last : BitVec 14) (s : State) : Result := issue c (.loop c rs last) s

/-- HALT (R203). -/
def execHalt (c : SlotCtl) (s : State) : Result := issue c (.halt c) s

/-- TRAP_RET (R222). -/
def execTrapRet (c : SlotCtl) (mode : Bool) (s : State) : Result := issue c (.trapRet c mode) s

/-- EVT_SIG (R216). -/
def execEvtSig (c : SlotCtl) (tq : BitVec 2) (e : BitVec 3) (k : BitVec 16) (s : State) : Result := issue c (.evtSig c tq e k) s

/-- EVT_WAIT (R216). -/
def execEvtWait (c : SlotCtl) (e : BitVec 3) (k : BitVec 16) (s : State) : Result := issue c (.evtWait c e k) s

/-- WCH_SET (R218). -/
def execWchSet (c : SlotCtl) (idx : BitVec 3) (kind : BitVec 2) (f : FlumeOp) (e : BitVec 3) (s : State) : Result := issue c (.wchSet c idx kind f e) s

/-- WAIT_ANY (R218). -/
def execWaitAny (c : SlotCtl) (sd : BitVec 5) (s : State) : Result := issue c (.waitAny c sd) s

/-- WAIT_IDLE (R233). -/
def execWaitIdle (c : SlotCtl) (arrays glaze sap dma : Bool) (s : State) : Result := issue c (.waitIdle c arrays glaze sap dma) s

/-- ADD (R234). -/
def execAdd (c : SlotCtl) (rd ra rb : BitVec 5) (s : State) : Result := issue c (.add c rd ra rb) s

/-- SUB (R234). -/
def execSub (c : SlotCtl) (rd ra rb : BitVec 5) (s : State) : Result := issue c (.sub c rd ra rb) s

/-- AND (R234). -/
def execAnd (c : SlotCtl) (rd ra rb : BitVec 5) (s : State) : Result := issue c (.and c rd ra rb) s

/-- OR (R234). -/
def execOr (c : SlotCtl) (rd ra rb : BitVec 5) (s : State) : Result := issue c (.or c rd ra rb) s

/-- XOR (R234). -/
def execXor (c : SlotCtl) (rd ra rb : BitVec 5) (s : State) : Result := issue c (.xor c rd ra rb) s

/-- SHL (R234). -/
def execShl (c : SlotCtl) (rd ra rb : BitVec 5) (s : State) : Result := issue c (.shl c rd ra rb) s

/-- SHR (R234). -/
def execShr (c : SlotCtl) (rd ra rb : BitVec 5) (s : State) : Result := issue c (.shr c rd ra rb) s

/-- SRA (R234). -/
def execSra (c : SlotCtl) (rd ra rb : BitVec 5) (s : State) : Result := issue c (.sra c rd ra rb) s

/-- MUL (R234). -/
def execMul (c : SlotCtl) (rd ra rb : BitVec 5) (s : State) : Result := issue c (.mul c rd ra rb) s

/-- MIN (R234). -/
def execMin (c : SlotCtl) (rd ra rb : BitVec 5) (s : State) : Result := issue c (.min c rd ra rb) s

/-- MAX (R234). -/
def execMax (c : SlotCtl) (rd ra rb : BitVec 5) (s : State) : Result := issue c (.max c rd ra rb) s

/-- ADDI (R234). -/
def execAddi (c : SlotCtl) (rd ra : BitVec 5) (imm : BitVec 32) (s : State) : Result := issue c (.addi c rd ra imm) s

/-- MOVI (R234). -/
def execMovi (c : SlotCtl) (rd : BitVec 5) (imm : BitVec 32) (s : State) : Result := issue c (.movi c rd imm) s

/-- MOVHI (R234). -/
def execMovhi (c : SlotCtl) (rd : BitVec 5) (imm : BitVec 32) (s : State) : Result := issue c (.movhi c rd imm) s

/-- ANDI (R234). -/
def execAndi (c : SlotCtl) (rd ra : BitVec 5) (imm : BitVec 32) (s : State) : Result := issue c (.andi c rd ra imm) s

/-- CMP_EQ (R234). -/
def execCmpEq (c : SlotCtl) (pd : BitVec 3) (ra : BitVec 5) (o : CmpOp) (s : State) : Result := issue c (.cmpEq c pd ra o) s

/-- CMP_NE (R234). -/
def execCmpNe (c : SlotCtl) (pd : BitVec 3) (ra : BitVec 5) (o : CmpOp) (s : State) : Result := issue c (.cmpNe c pd ra o) s

/-- CMP_LT (R234). -/
def execCmpLt (c : SlotCtl) (pd : BitVec 3) (ra : BitVec 5) (o : CmpOp) (s : State) : Result := issue c (.cmpLt c pd ra o) s

/-- CMP_LTU (R234). -/
def execCmpLtu (c : SlotCtl) (pd : BitVec 3) (ra : BitVec 5) (o : CmpOp) (s : State) : Result := issue c (.cmpLtu c pd ra o) s

/-- CMP_LE (R234). -/
def execCmpLe (c : SlotCtl) (pd : BitVec 3) (ra : BitVec 5) (o : CmpOp) (s : State) : Result := issue c (.cmpLe c pd ra o) s

/-- CMP_LEU (R234). -/
def execCmpLeu (c : SlotCtl) (pd : BitVec 3) (ra : BitVec 5) (o : CmpOp) (s : State) : Result := issue c (.cmpLeu c pd ra o) s

/-- TST (R234). -/
def execTst (c : SlotCtl) (pd : BitVec 3) (ra : BitVec 5) (b : BitVec 6) (s : State) : Result := issue c (.tst c pd ra b) s

/-- PLOG (R234). -/
def execPlog (c : SlotCtl) (pd pa pb : BitVec 3) (na nb : Bool) (op : BitVec 2) (s : State) : Result := issue c (.plog c pd pa pb na nb op) s

/-- MOV_A (R234). -/
def execMovA (c : SlotCtl) (ad : BitVec 4) (rs : BitVec 5) (s : State) : Result := issue c (.movA c ad rs) s

/-- MOV_S (R234). -/
def execMovS (c : SlotCtl) (rd : BitVec 5) (ab : BitVec 4) (s : State) : Result := issue c (.movS c rd ab) s

/-- ADD_A (R234). -/
def execAddA (c : SlotCtl) (ad ab : BitVec 4) (rs : BitVec 5) (s : State) : Result := issue c (.addA c ad ab rs) s

/-- ADDI_A (R234). -/
def execAddiA (c : SlotCtl) (ad ab : BitVec 4) (imm : BitVec 32) (s : State) : Result := issue c (.addiA c ad ab imm) s

/-- MMA (R238). -/
def execMma (c : SlotCtl) (fa fb : BitVec 4) (t : BitVec 5) (init : Bool) (sd : BitVec 5) (s : State) : Result := issue c (.mma c fa fb t init sd) s

/-- MMA_Q (R239). -/
def execMmaQ (c : SlotCtl) (fa fb : BitVec 4) (t : BitVec 5) (init : Bool) (sd : BitVec 5) (quad : BitVec 2) (s : State) : Result := issue c (.mmaQ c fa fb t init sd quad) s

/-- RAFT_SET (R78). -/
def execRaftSet (c : SlotCtl) (size : BitVec 4) (s : State) : Result := issue c (.raftSet c size) s

/-- QTR_SET (R83). -/
def execQtrSet (c : SlotCtl) (arr on : Bool) (s : State) : Result := issue c (.qtrSet c arr on) s

/-- SAP_MV (R245). -/
def execSapMv (c : SlotCtl) (fw fx : BitVec 4) (init : Bool) (sd : BitVec 5) (cen : Bool) (e : BitVec 3) (s : State) : Result := issue c (.sapMv c fw fx init sd cen e) s

/-- GLZ_RUN (R110). -/
def execGlzRun (c : SlotCtl) (sd : BitVec 5) (cen : Bool) (e : BitVec 3) (s : State) : Result := issue c (.glzRun c sd cen e) s

/-- GLZ_TBL (R247). -/
def execGlzTbl (c : SlotCtl) (tbl : BitVec 2) (sd : BitVec 5) (cen : Bool) (e : BitVec 3) (s : State) : Result := issue c (.glzTbl c tbl sd cen e) s

/-- LD_TS (R249). -/
def execLdTs (c : SlotCtl) (rd : BitVec 5) (mode : Bool) (rb : BitVec 5) (size : BitVec 2) (sx : Bool) (imm : BitVec 24) (s : State) : Result := issue c (.ldTs c rd mode rb size sx imm) s

/-- ST_TS (R249). -/
def execStTs (c : SlotCtl) (rs : BitVec 5) (mode : Bool) (rb : BitVec 5) (size : BitVec 2) (imm : BitVec 24) (s : State) : Result := issue c (.stTs c rs mode rb size imm) s

/-- MOV_SR (R198). -/
def execMovSr (c : SlotCtl) (rd : BitVec 5) (idx : BitVec 6) (s : State) : Result := issue c (.movSr c rd idx) s

/-- MOV_HB (R250). -/
def execMovHb (c : SlotCtl) (rd : BitVec 5) (sel : BitVec 6) (s : State) : Result := issue c (.movHb c rd sel) s

/-- MOV_OB (R250). -/
def execMovOb (c : SlotCtl) (sel : BitVec 6) (rs : BitVec 5) (s : State) : Result := issue c (.movOb c sel rs) s

/-- HB_CP (R199). -/
def execHbCp (c : SlotCtl) (s : State) : Result := issue c (.hbCp c) s

/-- OB_CLR (R250). -/
def execObClr (c : SlotCtl) (s : State) : Result := issue c (.obClr c) s

/-- DMA (R251). -/
def execDma (c : SlotCtl) (dk sk : Bool) (dr sr lr : BitVec 5) (cen : Bool) (e : BitVec 3) (s : State) : Result := issue c (.dma c dk sk dr sr lr cen e) s

/-- SCH_W (R252). -/
def execSchW (c : SlotCtl) (sel : BitVec 3) (rs : BitVec 5) (idx : BitVec 8) (s : State) : Result := issue c (.schW c sel rs idx) s

/-- FLM_PUSH (R136). -/
def execFlmPush (c : SlotCtl) (ad : BitVec 4) (f : FlumeOp) (s : State) : Result := issue c (.flmPush c ad f) s

/-- FLM_TRY (R136). -/
def execFlmTry (c : SlotCtl) (ad : BitVec 4) (f : FlumeOp) (pd : BitVec 3) (s : State) : Result := issue c (.flmTry c ad f pd) s

/-- FLM_CMT (R138). -/
def execFlmCmt (c : SlotCtl) (f : FlumeOp) (s : State) : Result := issue c (.flmCmt c f) s

/-- FLM_POP (R136). -/
def execFlmPop (c : SlotCtl) (ad : BitVec 4) (f : FlumeOp) (s : State) : Result := issue c (.flmPop c ad f) s

/-- FLM_TPOP (R136). -/
def execFlmTpop (c : SlotCtl) (ad : BitVec 4) (f : FlumeOp) (pd : BitVec 3) (s : State) : Result := issue c (.flmTpop c ad f pd) s

/-- FLM_NEXT (R152). -/
def execFlmNext (c : SlotCtl) (ad : BitVec 4) (pd : BitVec 3) (s : State) : Result := issue c (.flmNext c ad pd) s

/-- FLM_REL (R136). -/
def execFlmRel (c : SlotCtl) (f : FlumeOp) (s : State) : Result := issue c (.flmRel c f) s

/-- VER_ADMIT (R175). -/
def execVerAdmit (c : SlotCtl) (sd : BitVec 5) (close : Bool) (s : State) : Result := issue c (.verAdmit c sd close) s

/-- VER_PIN (R172). -/
def execVerPin (c : SlotCtl) (pd : BitVec 3) (sd : BitVec 5) (f : FlumeOp) (s : State) : Result := issue c (.verPin c pd sd f) s

/-- VER_LOOK (R172). -/
def execVerLook (c : SlotCtl) (pd : BitVec 3) (sd gs : BitVec 5) (s : State) : Result := issue c (.verLook c pd sd gs) s

/-- VER_UNPIN (R172). -/
def execVerUnpin (c : SlotCtl) (gs : BitVec 5) (s : State) : Result := issue c (.verUnpin c gs) s

/-- VER_BASE (R175). -/
def execVerBase (c : SlotCtl) (ad : BitVec 4) (ss is : BitVec 5) (s : State) : Result := issue c (.verBase c ad ss is) s

/-- VER_BUILD (R175). -/
def execVerBuild (c : SlotCtl) (sd gs : BitVec 5) (s : State) : Result := issue c (.verBuild c sd gs) s

/-- VER_TBUILD (R175). -/
def execVerTbuild (c : SlotCtl) (sd gs : BitVec 5) (pd : BitVec 3) (s : State) : Result := issue c (.verTbuild c sd gs pd) s

/-- VER_LIVE (R191). -/
def execVerLive (c : SlotCtl) (ss : BitVec 5) (s : State) : Result := issue c (.verLive c ss) s

/-- VER_DROP (R191). -/
def execVerDrop (c : SlotCtl) (ss : BitVec 5) (s : State) : Result := issue c (.verDrop c ss) s

/-- VER_SW (R185). -/
def execVerSw (c : SlotCtl) (gs : BitVec 5) (s : State) : Result := issue c (.verSw c gs) s

/-- VER_ADM (R182). -/
def execVerAdm (c : SlotCtl) (gs : BitVec 5) (barrier : Bool) (s : State) : Result := issue c (.verAdm c gs barrier) s

/-- VER_LB (R255). -/
def execVerLb (c : SlotCtl) (ss is : BitVec 5) (ab : BitVec 4) (s : State) : Result := issue c (.verLb c ss is ab) s

/-- VER_NL (R255). -/
def execVerNl (c : SlotCtl) (ss ns : BitVec 5) (s : State) : Result := issue c (.verNl c ss ns) s

/-- VAR_LOOK (R256). -/
def execVarLook (c : SlotCtl) (ad : BitVec 4) (sd : BitVec 5) (pd : BitVec 3) (vs : BitVec 5) (s : State) : Result := issue c (.varLook c ad sd pd vs) s

/-- VAR_CNT (R256). -/
def execVarCnt (c : SlotCtl) (vs : BitVec 5) (s : State) : Result := issue c (.varCnt c vs) s

end Sys2Proof.Machine
end

