-- ==== Sys2Proof/Machine/Dispatch.lean ====
section
/-! DEFINITION. Machine/Dispatch.lean: which meaning runs a command. -/

namespace Sys2Proof.Machine

def exec (i : Instr) (s : State) : Host.Outcome State Fault Refusal :=
  match i with
  | .nop c => Sys2Proof.Machine.execNop c s
  | .br c target => Sys2Proof.Machine.execBr c target s
  | .brS c rs => Sys2Proof.Machine.execBrS c rs s
  | .call c target => Sys2Proof.Machine.execCall c target s
  | .ret c => Sys2Proof.Machine.execRet c s
  | .loop c rs last => Sys2Proof.Machine.execLoop c rs last s
  | .halt c => Sys2Proof.Machine.execHalt c s
  | .trapRet c mode => Sys2Proof.Machine.execTrapRet c mode s
  | .evtSig c tq e k => Sys2Proof.Machine.execEvtSig c tq e k s
  | .evtWait c e k => Sys2Proof.Machine.execEvtWait c e k s
  | .wchSet c idx kind f e => Sys2Proof.Machine.execWchSet c idx kind f e s
  | .waitAny c sd => Sys2Proof.Machine.execWaitAny c sd s
  | .waitIdle c arrays glaze sap dma => Sys2Proof.Machine.execWaitIdle c arrays glaze sap dma s
  | .add c rd ra rb => Sys2Proof.Machine.execAdd c rd ra rb s
  | .sub c rd ra rb => Sys2Proof.Machine.execSub c rd ra rb s
  | .and c rd ra rb => Sys2Proof.Machine.execAnd c rd ra rb s
  | .or c rd ra rb => Sys2Proof.Machine.execOr c rd ra rb s
  | .xor c rd ra rb => Sys2Proof.Machine.execXor c rd ra rb s
  | .shl c rd ra rb => Sys2Proof.Machine.execShl c rd ra rb s
  | .shr c rd ra rb => Sys2Proof.Machine.execShr c rd ra rb s
  | .sra c rd ra rb => Sys2Proof.Machine.execSra c rd ra rb s
  | .mul c rd ra rb => Sys2Proof.Machine.execMul c rd ra rb s
  | .min c rd ra rb => Sys2Proof.Machine.execMin c rd ra rb s
  | .max c rd ra rb => Sys2Proof.Machine.execMax c rd ra rb s
  | .addi c rd ra imm => Sys2Proof.Machine.execAddi c rd ra imm s
  | .movi c rd imm => Sys2Proof.Machine.execMovi c rd imm s
  | .movhi c rd imm => Sys2Proof.Machine.execMovhi c rd imm s
  | .andi c rd ra imm => Sys2Proof.Machine.execAndi c rd ra imm s
  | .cmpEq c pd ra o => Sys2Proof.Machine.execCmpEq c pd ra o s
  | .cmpNe c pd ra o => Sys2Proof.Machine.execCmpNe c pd ra o s
  | .cmpLt c pd ra o => Sys2Proof.Machine.execCmpLt c pd ra o s
  | .cmpLtu c pd ra o => Sys2Proof.Machine.execCmpLtu c pd ra o s
  | .cmpLe c pd ra o => Sys2Proof.Machine.execCmpLe c pd ra o s
  | .cmpLeu c pd ra o => Sys2Proof.Machine.execCmpLeu c pd ra o s
  | .tst c pd ra b => Sys2Proof.Machine.execTst c pd ra b s
  | .plog c pd pa pb na nb op => Sys2Proof.Machine.execPlog c pd pa pb na nb op s
  | .movA c ad rs => Sys2Proof.Machine.execMovA c ad rs s
  | .movS c rd ab => Sys2Proof.Machine.execMovS c rd ab s
  | .addA c ad ab rs => Sys2Proof.Machine.execAddA c ad ab rs s
  | .addiA c ad ab imm => Sys2Proof.Machine.execAddiA c ad ab imm s
  | .mma c fa fb t init sd => Sys2Proof.Machine.execMma c fa fb t init sd s
  | .mmaQ c fa fb t init sd quad => Sys2Proof.Machine.execMmaQ c fa fb t init sd quad s
  | .raftSet c size => Sys2Proof.Machine.execRaftSet c size s
  | .qtrSet c arr on => Sys2Proof.Machine.execQtrSet c arr on s
  | .bChunkLoaded die arr quad => Sys2Proof.Machine.execBChunkLoaded die arr quad s
  | .passBegin die arr quad => Sys2Proof.Machine.execPassBegin die arr quad s
  | .operandRowAdmit die arr => Sys2Proof.Machine.execOperandRowAdmit die arr s
  | .accumulatorUpdate die arr quad => Sys2Proof.Machine.execAccumulatorUpdate die arr quad s
  | .activityLevelStep die arr => Sys2Proof.Machine.execActivityLevelStep die arr s
  | .fillerOperation die arr => Sys2Proof.Machine.execFillerOperation die arr s
  | .fillerIdleTimeout die arr => Sys2Proof.Machine.execFillerIdleTimeout die arr s
  | .sapMv c fw fx init sd cen e => Sys2Proof.Machine.execSapMv c fw fx init sd cen e s
  | .sapVectorCopied die => Sys2Proof.Machine.execSapVectorCopied die s
  | .sapWeightStep die => Sys2Proof.Machine.execSapWeightStep die s
  | .sapGroupWrite die => Sys2Proof.Machine.execSapGroupWrite die s
  | .sapComplete die => Sys2Proof.Machine.execSapComplete die s
  | .glzRun c sd cen e => Sys2Proof.Machine.execGlzRun c sd cen e s
  | .glzTbl c tbl sd cen e => Sys2Proof.Machine.execGlzTbl c tbl sd cen e s
  | .glzTblComplete die v => Sys2Proof.Machine.execGlzTblComplete die v s
  | .glzChainStart die v => Sys2Proof.Machine.execGlzChainStart die v s
  | .glzGroupEnter die v => Sys2Proof.Machine.execGlzGroupEnter die v s
  | .glzGroupWrite die v => Sys2Proof.Machine.execGlzGroupWrite die v s
  | .glzChainComplete die v => Sys2Proof.Machine.execGlzChainComplete die v s
  | .ldTs c rd mode rb size sx imm => Sys2Proof.Machine.execLdTs c rd mode rb size sx imm s
  | .ldTsReturn die q => Sys2Proof.Machine.execLdTsReturn die q s
  | .stTs c rs mode rb size imm => Sys2Proof.Machine.execStTs c rs mode rb size imm s
  | .movSr c rd idx => Sys2Proof.Machine.execMovSr c rd idx s
  | .movHb c rd sel => Sys2Proof.Machine.execMovHb c rd sel s
  | .movOb c sel rs => Sys2Proof.Machine.execMovOb c sel rs s
  | .hbCp c => Sys2Proof.Machine.execHbCp c s
  | .obClr c => Sys2Proof.Machine.execObClr c s
  | .dma c dk sk dr sr lr cen e => Sys2Proof.Machine.execDma c dk sk dr sr lr cen e s
  | .dmaStart die q => Sys2Proof.Machine.execDmaStart die q s
  | .dmaComplete die q => Sys2Proof.Machine.execDmaComplete die q s
  | .schW c sel rs idx => Sys2Proof.Machine.execSchW c sel rs idx s
  | .flmPush c ad f => Sys2Proof.Machine.execFlmPush c ad f s
  | .flmTry c ad f pd => Sys2Proof.Machine.execFlmTry c ad f pd s
  | .flmCmt c f => Sys2Proof.Machine.execFlmCmt c f s
  | .flmPop c ad f => Sys2Proof.Machine.execFlmPop c ad f s
  | .flmTpop c ad f pd => Sys2Proof.Machine.execFlmTpop c ad f pd s
  | .flmNext c ad pd => Sys2Proof.Machine.execFlmNext c ad pd s
  | .flmRel c f => Sys2Proof.Machine.execFlmRel c f s
  | .verAdmit c sd close => Sys2Proof.Machine.execVerAdmit c sd close s
  | .verPin c pd sd f => Sys2Proof.Machine.execVerPin c pd sd f s
  | .verLook c pd sd gs => Sys2Proof.Machine.execVerLook c pd sd gs s
  | .verUnpin c gs => Sys2Proof.Machine.execVerUnpin c gs s
  | .verBase c ad ss is => Sys2Proof.Machine.execVerBase c ad ss is s
  | .verBuild c sd gs => Sys2Proof.Machine.execVerBuild c sd gs s
  | .verTbuild c sd gs pd => Sys2Proof.Machine.execVerTbuild c sd gs pd s
  | .verLive c ss => Sys2Proof.Machine.execVerLive c ss s
  | .verDrop c ss => Sys2Proof.Machine.execVerDrop c ss s
  | .verSw c gs => Sys2Proof.Machine.execVerSw c gs s
  | .verAdm c gs barrier => Sys2Proof.Machine.execVerAdm c gs barrier s
  | .verLb c ss is ab => Sys2Proof.Machine.execVerLb c ss is ab s
  | .verNl c ss ns => Sys2Proof.Machine.execVerNl c ss ns s
  | .varLook c ad sd pd vs => Sys2Proof.Machine.execVarLook c ad sd pd vs s
  | .varCnt c vs => Sys2Proof.Machine.execVarCnt c vs s
  | .flmCommitArrival f => Sys2Proof.Machine.execFlmCommitArrival f s
  | .flmReadyNotice f => Sys2Proof.Machine.execFlmReadyNotice f s
  | .flmCreditReturn f => Sys2Proof.Machine.execFlmCreditReturn f s
  | .flmSpillCopy f => Sys2Proof.Machine.execFlmSpillCopy f s
  | .flmSpillCopyDone f => Sys2Proof.Machine.execFlmSpillCopyDone f s
  | .flmHeldTimeout f => Sys2Proof.Machine.execFlmHeldTimeout f s
  | .flmCloseDone f => Sys2Proof.Machine.execFlmCloseDone f s
  | .flmZeroingDone f => Sys2Proof.Machine.execFlmZeroingDone f s
  | .flmCommit f => Sys2Proof.Machine.execFlmCommit f s
  | .flmCmdClear f => Sys2Proof.Machine.execFlmCmdClear f s
  | .flmCmdClose f => Sys2Proof.Machine.execFlmCmdClose f s
  | .verPinTimeout l => Sys2Proof.Machine.execVerPinTimeout l s
  | .verAdmitWrite m l gen barrier => Sys2Proof.Machine.execVerAdmitWrite m l gen barrier s
  | .verCmdLive l sl => Sys2Proof.Machine.execVerCmdLive l sl s
  | .verCmdDrop l sl => Sys2Proof.Machine.execVerCmdDrop l sl s
  | .seqWaitTimeout die q => Sys2Proof.Machine.execSeqWaitTimeout die q s
  | .seqLoadComplete die q => Sys2Proof.Machine.execSeqLoadComplete die q s
  | .seqBcommit die q => Sys2Proof.Machine.execSeqBcommit die q s
  | .seqCmdRun die q => Sys2Proof.Machine.execSeqCmdRun die q s
  | .seqCmdHalt die q => Sys2Proof.Machine.execSeqCmdHalt die q s
  | .seqCmdStep die q => Sys2Proof.Machine.execSeqCmdStep die q s
  | .seqCmdUnbind die q => Sys2Proof.Machine.execSeqCmdUnbind die q s
  | .seqPcWrite m die q pc => Sys2Proof.Machine.execSeqPcWrite m die q pc s
  | .schedRegisterWrite die q sel idx v => Sys2Proof.Machine.execSchedRegisterWrite die q sel idx v s
  | .foremanStepBoundary c ac => Sys2Proof.Machine.execForemanStepBoundary c ac s
  | .cutCommit c p => Sys2Proof.Machine.execCutCommit c p s
  | .cutTableInForce c p => Sys2Proof.Machine.execCutTableInForce c p s
  | .cutCmdStart c p => Sys2Proof.Machine.execCutCmdStart c p s
  | .phaseSwitch l => Sys2Proof.Machine.execPhaseSwitch l s
  | .normChainMsg c acc strip hops => Sys2Proof.Machine.execNormChainMsg c acc strip hops s
  | .normBroadcastMsg c up sum norm clip hops => Sys2Proof.Machine.execNormBroadcastMsg c up sum norm clip hops s
  | .varCommit l v => Sys2Proof.Machine.execVarCommit l v s
  | .verdictPoint c => Sys2Proof.Machine.execVerdictPoint c s
  | .verdictChainMsg c cause amax => Sys2Proof.Machine.execVerdictChainMsg c cause amax s
  | .verdictBroadcastMsg c skip cause amax => Sys2Proof.Machine.execVerdictBroadcastMsg c skip cause amax s
  | .numCmdForceSkip c => Sys2Proof.Machine.execNumCmdForceSkip c s
  | .numCmdClear c => Sys2Proof.Machine.execNumCmdClear c s
  | .numSctlWrite m die x v => Sys2Proof.Machine.execNumSctlWrite m die x v s
  | .haulTailWrite m ch tail => Sys2Proof.Machine.execHaulTailWrite m ch tail s
  | .haulRequestHaul ch => Sys2Proof.Machine.execHaulRequestHaul ch s
  | .haulRequestVerify ch => Sys2Proof.Machine.execHaulRequestVerify ch s
  | .haulManifestFetched ch io data keyOk tagOk => Sys2Proof.Machine.execHaulManifestFetched ch io data keyOk tagOk s
  | .haulBilletCheck ch billet tagOk data dec => Sys2Proof.Machine.execHaulBilletCheck ch billet tagOk data dec s
  | .haulRequestComplete ch => Sys2Proof.Machine.execHaulRequestComplete ch s
  | .nvmeReadCompletion ch billet part ok => Sys2Proof.Machine.execNvmeReadCompletion ch billet part ok s
  | .nvmeReadTimeout ch billet part => Sys2Proof.Machine.execNvmeReadTimeout ch billet part s
  | .haulSourceTimeout src => Sys2Proof.Machine.execHaulSourceTimeout src s
  | .haulSourceConnect src ok lba size => Sys2Proof.Machine.execHaulSourceConnect src ok lba size s
  | .haulConnectionLoss src => Sys2Proof.Machine.execHaulConnectionLoss src s
  | .haulScrubDue r => Sys2Proof.Machine.execHaulScrubDue r s
  | .haulScrubPassEnd r => Sys2Proof.Machine.execHaulScrubPassEnd r s
  | .foremanRehaul j => Sys2Proof.Machine.execForemanRehaul j s
  | .foremanRefillLoad l sl ch entry => Sys2Proof.Machine.execForemanRefillLoad l sl ch entry s
  | .foremanRefillLive l sl => Sys2Proof.Machine.execForemanRefillLive l sl s
  | .haulCcommit ch => Sys2Proof.Machine.execHaulCcommit ch s
  | .haulScommit src => Sys2Proof.Machine.execHaulScommit src s
  | .ckptCmdTake c key => Sys2Proof.Machine.execCkptCmdTake c key s
  | .ckptCmdRestore c => Sys2Proof.Machine.execCkptCmdRestore c s
  | .ckptCmdAbort c => Sys2Proof.Machine.execCkptCmdAbort c s
  | .ckptPositionRead c => Sys2Proof.Machine.execCkptPositionRead c s
  | .ckptStorageWriteDone c ok => Sys2Proof.Machine.execCkptStorageWriteDone c ok s
  | .ckptShardListWrite c => Sys2Proof.Machine.execCkptShardListWrite c s
  | .tallyChainMsg c parts => Sys2Proof.Machine.execTallyChainMsg c parts s
  | .ckptTallyTimeout c => Sys2Proof.Machine.execCkptTallyTimeout c s
  | .ckptTallyWrite c keys sig salt signer => Sys2Proof.Machine.execCkptTallyWrite c keys sig salt signer s
  | .ckptCommitRecordWrite c => Sys2Proof.Machine.execCkptCommitRecordWrite c s
  | .ckptKeyOutcomeMsg c msg => Sys2Proof.Machine.execCkptKeyOutcomeMsg c msg s
  | .ckptRestoreLoad c io => Sys2Proof.Machine.execCkptRestoreLoad c io s
  | .ckptAcommit c => Sys2Proof.Machine.execCkptAcommit c s
  | .buddyCopyMsg c step off data last => Sys2Proof.Machine.execBuddyCopyMsg c step off data last s
  | .buddyAck c recv => Sys2Proof.Machine.execBuddyAck c recv s
  | .layerStateMsg c layer kind off data next => Sys2Proof.Machine.execLayerStateMsg c layer kind off data next s
  | .memPatrolRead a err last => Sys2Proof.Machine.execMemPatrolRead a err last s
  | .farTierEcsPass f errs => Sys2Proof.Machine.execFarTierEcsPass f errs s
  | .memWcommit c => Sys2Proof.Machine.execMemWcommit c s
  | .memWcommitDone => Sys2Proof.Machine.execMemWcommitDone s
  | .hbmGcommit g => Sys2Proof.Machine.execHbmGcommit g s
  | .farBuddyWrite m f size v => Sys2Proof.Machine.execFarBuddyWrite m f size v s
  | .cageCommit n => Sys2Proof.Machine.execCageCommit n s
  | .skwCcommit ch => Sys2Proof.Machine.execSkwCcommit ch s
  | .redCommit c => Sys2Proof.Machine.execRedCommit c s
  | .skwCmdRetrain k => Sys2Proof.Machine.execSkwCmdRetrain k s
  | .skwCmdRekey k => Sys2Proof.Machine.execSkwCmdRekey k s
  | .skwVersionWrite m k vmax vmin => Sys2Proof.Machine.execSkwVersionWrite m k vmax vmin s
  | .skwLanesTrained k => Sys2Proof.Machine.execSkwLanesTrained k s
  | .skwCaps k vmax vmin recOk nonce kid chainOk => Sys2Proof.Machine.execSkwCaps k vmax vmin recOk nonce kid chainOk s
  | .skwKeyed k => Sys2Proof.Machine.execSkwKeyed k s
  | .skwChannelOpen k chan dir depth size pair next held reply => Sys2Proof.Machine.execSkwChannelOpen k chan dir depth size pair next held reply s
  | .skwChannelClose k chan what => Sys2Proof.Machine.execSkwChannelClose k chan what s
  | .skwDownNotice k => Sys2Proof.Machine.execSkwDownNotice k s
  | .skwRekeyMark k => Sys2Proof.Machine.execSkwRekeyMark k s
  | .skwRecordArrival k chan hdr data => Sys2Proof.Machine.execSkwRecordArrival k chan hdr data s
  | .skwRack k chan rseq => Sys2Proof.Machine.execSkwRack k chan rseq s
  | .skwCredit k chan n => Sys2Proof.Machine.execSkwCredit k chan n s
  | .skwAck k n => Sys2Proof.Machine.execSkwAck k n s
  | .skwNak k n => Sys2Proof.Machine.execSkwNak k n s
  | .skwCorruptFrame k => Sys2Proof.Machine.execSkwCorruptFrame k s
  | .skwTagCheck k ok => Sys2Proof.Machine.execSkwTagCheck k ok s
  | .skwAckTimer k => Sys2Proof.Machine.execSkwAckTimer k s
  | .skwReplayTimeout k => Sys2Proof.Machine.execSkwReplayTimeout k s
  | .skwBlockIdleClose k => Sys2Proof.Machine.execSkwBlockIdleClose k s
  | .skwRekeyCount k => Sys2Proof.Machine.execSkwRekeyCount k s
  | .skwRecovery k => Sys2Proof.Machine.execSkwRecovery k s
  | .skwLockLoss k => Sys2Proof.Machine.execSkwLockLoss k s
  | .skwSessionTimeout k => Sys2Proof.Machine.execSkwSessionTimeout k s
  | .skwBringupRetry k => Sys2Proof.Machine.execSkwBringupRetry k s
  | .ethFrameReceive k len vlan kind => Sys2Proof.Machine.execEthFrameReceive k len vlan kind s
  | .ethCnpReceive k q => Sys2Proof.Machine.execEthCnpReceive k q s
  | .ethRateIncrease q => Sys2Proof.Machine.execEthRateIncrease q s
  | .cagePresenceChange n present => Sys2Proof.Machine.execCagePresenceChange n present s
  | .cageModuleOverpower n => Sys2Proof.Machine.execCageModuleOverpower n s
  | .redMessageUnlistedKind k c kind len => Sys2Proof.Machine.execRedMessageUnlistedKind k c kind len s
  | .spnFlitReceive x hi ok => Sys2Proof.Machine.execSpnFlitReceive x hi ok s
  | .spnTrainingStart x hi mask => Sys2Proof.Machine.execSpnTrainingStart x hi mask s
  | .spnClaim x hi round mask epoch => Sys2Proof.Machine.execSpnClaim x hi round mask epoch s
  | .spnEcho x hi round mask epoch => Sys2Proof.Machine.execSpnEcho x hi round mask epoch s
  | .spnRoundTimeout x hi => Sys2Proof.Machine.execSpnRoundTimeout x hi s
  | .partnerSiteTrained u t valid ver kind most root spdm => Sys2Proof.Machine.execPartnerSiteTrained u t valid ver kind most root spdm s
  | .partnerSiteLost u => Sys2Proof.Machine.execPartnerSiteLost u s
  | .partnerPolicyWrite m u policy en ctx stage => Sys2Proof.Machine.execPartnerPolicyWrite m u policy en ctx stage s
  | .partnerRequest u r => Sys2Proof.Machine.execPartnerRequest u r s
  | .moduleLostMsg c f k => Sys2Proof.Machine.execModuleLostMsg c f k s
  | .moduleLostDeclare c which => Sys2Proof.Machine.execModuleLostDeclare c which s
  | .shrink c bankOk => Sys2Proof.Machine.execShrink c bankOk s
  | .pcieConfigRequest c r => Sys2Proof.Machine.execPcieConfigRequest c r s
  | .vfEnable on num => Sys2Proof.Machine.execVfEnable on num s
  | .bar4Read c off n => Sys2Proof.Machine.execBar4Read c off n s
  | .bar4Write c off data => Sys2Proof.Machine.execBar4Write c off data s
  | .registerWrite m c off size v => Sys2Proof.Machine.execRegisterWrite m c off size v s
  | .sqDoorbell c q size v => Sys2Proof.Machine.execSqDoorbell c q size v s
  | .cqDoorbell c q size v => Sys2Proof.Machine.execCqDoorbell c q size v s
  | .ringCommit c cq q => Sys2Proof.Machine.execRingCommit c cq q s
  | .ringFetch c q entries => Sys2Proof.Machine.execRingFetch c q entries s
  | .cmdNop c q => Sys2Proof.Machine.execCmdNop c q s
  | .cmdCopy c q => Sys2Proof.Machine.execCmdCopy c q s
  | .cmdFill c q => Sys2Proof.Machine.execCmdFill c q s
  | .cmdPush c q => Sys2Proof.Machine.execCmdPush c q s
  | .cmdPop c q => Sys2Proof.Machine.execCmdPop c q s
  | .cmdFence c q => Sys2Proof.Machine.execCmdFence c q s
  | .hostReadCompletion c q ok data => Sys2Proof.Machine.execHostReadCompletion c q ok data s
  | .cqEntryWrite c q => Sys2Proof.Machine.execCqEntryWrite c q s
  | .cqCoalesceTimer c q => Sys2Proof.Machine.execCqCoalesceTimer c q s
  | .dieCmdAssign die c => Sys2Proof.Machine.execDieCmdAssign die c s
  | .dieCmdRelease die => Sys2Proof.Machine.execDieCmdRelease die s
  | .dieReleaseZeroed die => Sys2Proof.Machine.execDieReleaseZeroed die s
  | .ownLockWrite m lockdown mgmt => Sys2Proof.Machine.execOwnLockWrite m lockdown mgmt s
  | .orderSlotEnd => Sys2Proof.Machine.execOrderSlotEnd s
  | .moduleWarmReset b => Sys2Proof.Machine.execModuleWarmReset b s
  | .halfReset h => Sys2Proof.Machine.execHalfReset h s
  | .halfResetReturn h b => Sys2Proof.Machine.execHalfResetReturn h b s
  | .halfAccessReady h => Sys2Proof.Machine.execHalfAccessReady h s
  | .computeDieReset die => Sys2Proof.Machine.execComputeDieReset die s
  | .contextTeardown c => Sys2Proof.Machine.execContextTeardown c s
  | .teardownDrainDone c => Sys2Proof.Machine.execTeardownDrainDone c s
  | .teardownZeroingDone c => Sys2Proof.Machine.execTeardownZeroingDone c s
  | .powerRung r => Sys2Proof.Machine.execPowerRung r s
  | .rungEntryComplete => Sys2Proof.Machine.execRungEntryComplete s
  | .powerCap w => Sys2Proof.Machine.execPowerCap w s
  | .powerCapTick watts volts amps => Sys2Proof.Machine.execPowerCapTick watts volts amps s
  | .pwrCapUnmetTimer => Sys2Proof.Machine.execPwrCapUnmetTimer s
  | .pwrPdoffWrite m j v => Sys2Proof.Machine.execPwrPdoffWrite m j v s
  | .inputUndervoltage => Sys2Proof.Machine.execInputUndervoltage s
  | .inputRecovered => Sys2Proof.Machine.execInputRecovered s
  | .inputFault => Sys2Proof.Machine.execInputFault s
  | .coldPowerOn wake straps ms b => Sys2Proof.Machine.execColdPowerOn wake straps ms b s
  | .farZeroingDone => Sys2Proof.Machine.execFarZeroingDone s
  | .perstAssert pin => Sys2Proof.Machine.execPerstAssert pin s
  | .perstDeassert => Sys2Proof.Machine.execPerstDeassert s
  | .vfFlr c => Sys2Proof.Machine.execVfFlr c s
  | .pfFlr => Sys2Proof.Machine.execPfFlr s
  | .refclkLost => Sys2Proof.Machine.execRefclkLost s
  | .thermalSample h grids junctions hbm => Sys2Proof.Machine.execThermalSample h grids junctions hbm s
  | .thermalTrip h => Sys2Proof.Machine.execThermalTrip h s
  | .coreSampleComplete hbmOk => Sys2Proof.Machine.execCoreSampleComplete hbmOk s
  | .comparatorShutdown => Sys2Proof.Machine.execComparatorShutdown s
  | .coolantInletHigh inlet outlet => Sys2Proof.Machine.execCoolantInletHigh inlet outlet s
  | .coolantInletLow inlet outlet => Sys2Proof.Machine.execCoolantInletLow inlet outlet s
  | .coolantInletNormal inlet outlet => Sys2Proof.Machine.execCoolantInletNormal inlet outlet s
  | .leakWet => Sys2Proof.Machine.execLeakWet s
  | .leakDry => Sys2Proof.Machine.execLeakDry s
  | .measurementPublish => Sys2Proof.Machine.execMeasurementPublish s
  | .getVersion r => Sys2Proof.Machine.execGetVersion r s
  | .getCapabilities r => Sys2Proof.Machine.execGetCapabilities r s
  | .negotiateAlgorithms r asym hash => Sys2Proof.Machine.execNegotiateAlgorithms r asym hash s
  | .getDigests r => Sys2Proof.Machine.execGetDigests r s
  | .getCertificate r slot off len => Sys2Proof.Machine.execGetCertificate r slot off len s
  | .challenge r slot nonce => Sys2Proof.Machine.execChallenge r slot nonce s
  | .getMeasurements r index sign slot nonce => Sys2Proof.Machine.execGetMeasurements r index sign slot nonce s
  | .respondIfReady r token => Sys2Proof.Machine.execRespondIfReady r token s
  | .requestUpdate => Sys2Proof.Machine.execRequestUpdate s
  | .verifyComplete header imagesOk sigOk => Sys2Proof.Machine.execVerifyComplete header imagesOk sigOk s
  | .activateFirmware => Sys2Proof.Machine.execActivateFirmware s
  | .pldmSensorRead r => Sys2Proof.Machine.execPldmSensorRead r s
  | .mctpControl r => Sys2Proof.Machine.execMctpControl r s
  | .msgRegisterRead off size => Sys2Proof.Machine.execMsgRegisterRead off size s
  | .msgRegisterWrite off size v => Sys2Proof.Machine.execMsgRegisterWrite off size v s
  | .msgOrder kind arg => Sys2Proof.Machine.execMsgOrder kind arg s
  | .msgOrderStatus => Sys2Proof.Machine.execMsgOrderStatus s
  | .secFwcmdCancel => Sys2Proof.Machine.execSecFwcmdCancel s
  | .secFwcmdRevert => Sys2Proof.Machine.execSecFwcmdRevert s
  | .counterClearWrite m r => Sys2Proof.Machine.execCounterClearWrite m r s
  | .secLogclr => Sys2Proof.Machine.execSecLogclr s
  | .meterRecordReceived => Sys2Proof.Machine.execMeterRecordReceived s
  | .meterLinkTimeout => Sys2Proof.Machine.execMeterLinkTimeout s
  | .scalerRecord gain power volts amps ovr => Sys2Proof.Machine.execScalerRecord gain power volts amps ovr s
  | .scalerPulse => Sys2Proof.Machine.execScalerPulse s
  | .scalerPowerUp ok id => Sys2Proof.Machine.execScalerPowerUp ok id s
  | .scalerPowerDown volts => Sys2Proof.Machine.execScalerPowerDown volts s
  | .scalerSealBroken => Sys2Proof.Machine.execScalerSealBroken s
  | .scalerInputEvent kind datum => Sys2Proof.Machine.execScalerInputEvent kind datum s
  | .pcieLinkUp => Sys2Proof.Machine.execPcieLinkUp s
  | .refclkInRange b => Sys2Proof.Machine.execRefclkInRange b s
  | .computeDieResetEnd die => Sys2Proof.Machine.execComputeDieResetEnd die s
  | .i3cDynamicAddress sta addr => Sys2Proof.Machine.execI3cDynamicAddress sta addr s
  | .scalerReverification fwid cksum => Sys2Proof.Machine.execScalerReverification fwid cksum s

end Sys2Proof.Machine
end

