-- ==== Sys2Proof/Machine/Tick.lean ====
section
/-! DEFINITION. Machine/Tick.lean: one ac in which no command comes (log entry 1): the counters count, waiting bundles and partner requests are
looked at again, and the alerts that follow a level are set (R198, R218, R423, R510, R559). -/

namespace Sys2Proof.Machine

/-- THM_CD.throttled of one die: an ac with a thermal limit below 8 (R510). -/
def State.tickHeat (s : State) (n : Nat) : State :=
  if s.get (R.THM_CD.limit n) = 0 then s else s.count (R.THM_CD.throttled n) 1

/-- The MOD_ALERT bits that follow a level (R559). -/
def State.tickAlert (s : State) : State :=
  let s := if s.flag R.MOD_PIN.therm then s.put R.MOD_ALERT.therm 1 else s
  if s.flag R.MOD_PIN.leak then s.put R.MOD_ALERT.leak 1 else s

/-- One ac, with the upset of memory it brings. -/
def State.tickAll (s : State) : State :=
  let s : State := { s with now := s.now + 1 }
  let s := s.tickDies (s.ringWants 3 ++ s.siteWants true) (s.ringWants 4 ++ s.siteWants false)
  let s := (s.siteRetry 0).siteRetry 1
  ((List.range 24).foldl State.tickHeat s).tickAlert.keepAlive.upset

end Sys2Proof.Machine
end

