-- ==== Sys2Proof/WellFormed.lean ====
section
/-! DEFINITION. WellFormed.lean: the commands that can be given at all. A slot instruction stands in a slot its class is legal in (R207) and a NOP
carries no other bit (R208); what an event carries has the length the spec gives it. Operand values that the spec lets an instruction refuse are
well formed: the refusal is its meaning. -/

namespace Sys2Proof

/-- A slot instruction in a legal slot; a NOP slot is all zeros (R207, R208). -/
def slotFormed (i : Instr) : Bool :=
  match Machine.slotCtlOf i with
  | none => true
  | some c =>
    let w := Machine.encSlot i
    (Machine.opcodeSlots (bits w 56 8)).contains c.slot.val && (decide (bits w 56 8 ≠ 0) || decide (w = 0))

/-- Lists of the lengths that the spec gives: the six dies over a landing die with 16 readings each (R31, R501), at most the stacks under it;
a BAR4 access of at most 4,096 bytes (R429); a payload of at most 64 MiB (R131); a ring of at most 4,096
entries (R440). -/
def listsFormed (i : Instr) : Bool :=
  match i with
  | .thermalSample _ grids junctions hbm =>
    decide (grids.length = 6) && decide (junctions.length = 6) && decide (hbm.length ≤ 6)
  | .bar4Write _ _ data => decide (data.length ≤ 4096)
  | .skwRecordArrival _ _ _ data => decide (data.length ≤ 2 ^ 26)
  | .ringFetch _ _ entries => decide (entries.length ≤ 4096)
  | _ => true

/-- The well-formed commands. -/
def WellFormed (i : Instr) : Bool := slotFormed i && listsFormed i

end Sys2Proof
end

