-- ==== Sys2Proof/Safety.lean ====
section
/-! DEFINITION. Safety.lean: the words that the statements use: when a slot instruction issues as a bundle of its own, when commands of the host take
effect, and what two states have in common. -/

namespace Sys2Proof.Machine

/-! ## Issue of one slot (R203, R206, R209, R214, R220) -/

/-- The sequencer of `c` runs and issues, nothing is staged or waits before this slot, the slot is the last and only one of its bundle, its
predicate holds, and the program counter is inside the image. -/
structure State.Alone (s : State) (c : SlotCtl) : Prop where
  running : s.seqState (seqKey c) = seqRUNNING
  live    : s.live = true
  staged  : (s.seq (seqKey c)).staged = []
  held    : (s.seq (seqKey c)).held = []
  noStep  : (s.seq (seqKey c)).stepping = false
  last    : c.more = false
  on      : s.enabled (seqKey c) c = true
  inImage : s.pc (seqKey c) < s.nbundles (seqKey c)
  image   : s.nbundles (seqKey c) ≤ 16384
  fetch   : (s.seq (seqKey c)).fetchErr = none

/-- No loop level of the sequencer ends at the bundle that issues (R232). -/
def State.NoLoopEnd (s : State) (k : Nat) : Prop := ∀ l ∈ (s.seq k).loops, l.last ≠ s.pc k

/-- What every slot of a bundle leaves alone: memory, every other sequencer, every unit, and every register field but the program counter, the
count of bundles issued and the wait code of its own sequencer, and the gate hold of its stage's table (R180). -/
structure IssueFrame (s t : State) (k : Nat) : Prop where
  mem  : ∀ a, t.byte a = s.byte a
  seqs : ∀ j, j ≠ k → t.seq j = s.seq j
  regs : ∀ g : Fld, g.a ≠ (R.SEQ_STAT.pc (k / 4) (k % 4)).a → g.a ≠ (R.SEQ_PC.pc (k / 4) (k % 4)).a →
    g.a ≠ (R.SEQ_CNT.issued (k / 4) (k % 4)).a → g.a ≠ (R.SEQ_STAT.wait (k / 4) (k % 4)).a →
    g.a ≠ (R.VER_HDR.gate_hold k).a → t.get g = s.get g
  rest : { t with regs := s.regs, seqs := s.seqs } = s

/-- What a slot leaves alone whose access goes to another landing die: as IssueFrame, but for the packets between landing dies and the flits that
carry them (R17). -/
structure RouteFrame (s t : State) (k : Nat) : Prop where
  mem  : ∀ a, t.byte a = s.byte a
  seqs : ∀ j, j ≠ k → t.seq j = s.seq j
  regs : ∀ g : Fld, g.a ≠ (R.SEQ_STAT.pc (k / 4) (k % 4)).a → g.a ≠ (R.SEQ_PC.pc (k / 4) (k % 4)).a →
    g.a ≠ (R.SEQ_CNT.issued (k / 4) (k % 4)).a → g.a ≠ (R.SEQ_STAT.wait (k / 4) (k % 4)).a →
    g.a ≠ (R.VER_HDR.gate_hold k).a → t.get g = s.get g
  rest : { t with regs := s.regs, seqs := s.seqs, pkts := s.pkts, pktNext := s.pktNext, spnTx := s.spnTx, out := s.out } = s

/-- The words with a single-bit error that a read of `n` bytes at `a` meets (R109, R384). -/
def State.softIn (s : State) (a n : Nat) : List Nat := s.soft.filter (fun u => decide (a < u + 8 ∧ u < a + n))

/-- An exception of sequencer `k` is reported in SEQ_EXC0 and SEQ_EXC1, which hold the last exception taken (R227; log entry 32), and in SR_ECODE and
SR_EINFO when the trap handler of the image takes it (R203). -/
def State.ExcReported (s t : State) (k code info : Nat) : Prop :=
  t.get (R.SEQ_EXC0.code (k / 4) (k % 4)) = code ∧ t.get (R.SEQ_EXC1.info (k / 4) (k % 4)) = info ∧
  ((s.seq k).trapEn = true ∧ s.get (R.SEQ_STAT.in_trap (k / 4) (k % 4)) = 0 → (t.seq k).ecode = code ∧ (t.seq k).einfo = info)

/-- The bundle has been counted, control is at bundle `n`, and nothing waits (R180, R214, R227). -/
def State.Issued (s t : State) (k n : Nat) : Prop :=
  t.pc k = n ∧ t.get (R.SEQ_CNT.issued (k / 4) (k % 4)) = min (s.get (R.SEQ_CNT.issued (k / 4) (k % 4)) + 1) (2 ^ 48 - 1)
    ∧ t.get (R.SEQ_STAT.wait (k / 4) (k % 4)) = 0 ∧ t.get (R.VER_HDR.gate_hold k) = 0

/-! ## Results of the scalar and address instructions (R234) -/

/-- Destination and result of an instruction that writes a scalar register, in integers (R229, R234). -/
def scalarResult (s : State) (i : Instr) : Option (SlotCtl × BitVec 5 × Word) :=
  let r := fun (c : SlotCtl) (x : BitVec 5) => s.s (seqKey c) x
  match i with
  | .add c rd ra rb => some (c, rd, BitVec.ofInt 64 ((r c ra).toInt + (r c rb).toInt))
  | .sub c rd ra rb => some (c, rd, BitVec.ofInt 64 ((r c ra).toInt - (r c rb).toInt))
  | .and c rd ra rb => some (c, rd, BitVec.ofNat 64 ((r c ra).toNat &&& (r c rb).toNat))
  | .or c rd ra rb => some (c, rd, BitVec.ofNat 64 ((r c ra).toNat ||| (r c rb).toNat))
  | .xor c rd ra rb => some (c, rd, BitVec.ofNat 64 ((r c ra).toNat ^^^ (r c rb).toNat))
  | .shl c rd ra rb => some (c, rd, BitVec.ofNat 64 ((r c ra).toNat * 2 ^ ((r c rb).toNat % 64)))
  | .shr c rd ra rb => some (c, rd, BitVec.ofNat 64 ((r c ra).toNat / 2 ^ ((r c rb).toNat % 64)))
  | .sra c rd ra rb => some (c, rd, BitVec.ofInt 64 ((r c ra).toInt / 2 ^ ((r c rb).toNat % 64)))
  | .mul c rd ra rb => some (c, rd, BitVec.ofNat 64 ((r c ra).toNat * (r c rb).toNat))
  | .min c rd ra rb => some (c, rd, BitVec.ofInt 64 (min (r c ra).toInt (r c rb).toInt))
  | .max c rd ra rb => some (c, rd, BitVec.ofInt 64 (max (r c ra).toInt (r c rb).toInt))
  | .addi c rd ra imm => some (c, rd, BitVec.ofInt 64 ((r c ra).toInt + imm.toInt))
  | .movi c rd imm => some (c, rd, BitVec.ofInt 64 imm.toInt)
  | .movhi c rd imm => some (c, rd, BitVec.ofNat 64 (imm.toNat * 2 ^ 32 + (r c rd).toNat % 2 ^ 32))
  | .andi c rd ra imm => some (c, rd, r c ra &&& BitVec.ofInt 64 imm.toInt)
  | .movS c rd ab => some (c, rd, BitVec.ofNat 64 (s.a (seqKey c) ab.toNat).toNat)
  | _ => none

/-- Destination and result of an instruction that writes a predicate (R234). -/
def predResult (s : State) (i : Instr) : Option (SlotCtl × BitVec 3 × Bool) :=
  let r := fun (c : SlotCtl) (x : BitVec 5) => s.s (seqKey c) x
  let o := fun (c : SlotCtl) (x : CmpOp) => match x with
    | .reg rb => r c rb
    | .imm v => BitVec.ofInt 64 v.toInt
  match i with
  | .cmpEq c pd ra b => some (c, pd, decide ((r c ra).toInt = (o c b).toInt))
  | .cmpNe c pd ra b => some (c, pd, decide ((r c ra).toInt ≠ (o c b).toInt))
  | .cmpLt c pd ra b => some (c, pd, decide ((r c ra).toInt < (o c b).toInt))
  | .cmpLtu c pd ra b => some (c, pd, decide ((r c ra).toNat < (o c b).toNat))
  | .cmpLe c pd ra b => some (c, pd, decide ((r c ra).toInt ≤ (o c b).toInt))
  | .cmpLeu c pd ra b => some (c, pd, decide ((r c ra).toNat ≤ (o c b).toNat))
  | .tst c pd ra b => some (c, pd, decide ((r c ra).toNat / 2 ^ b.toNat % 2 = 1))
  | .plog c pd pa pb na nb op =>
    let x := s.p (seqKey c) pa ^^ na
    let y := s.p (seqKey c) pb ^^ nb
    if op = 0 then some (c, pd, x && y) else if op = 1 then some (c, pd, x || y) else if op = 2 then some (c, pd, x ^^ y) else none
  | _ => none

/-- Destination and result of an instruction that writes an address register (R234). -/
def addrResult (s : State) (i : Instr) : Option (SlotCtl × BitVec 4 × Addr) :=
  match i with
  | .movA c ad rs => some (c, ad, BitVec.ofNat 48 (s.s (seqKey c) rs).toNat)
  | .addA c ad ab rs => some (c, ad, BitVec.ofNat 48 ((s.a (seqKey c) ab.toNat).toNat + (s.s (seqKey c) rs).toNat))
  | .addiA c ad ab imm => some (c, ad, BitVec.ofInt 48 ((s.a (seqKey c) ab.toNat).toNat + imm.toInt))
  | _ => none

/-- No register that the instruction names has a load pending (R212). -/
def State.NoPending (s : State) (c : SlotCtl) (i : Instr) : Prop := ∀ o, semOf i = some o → s.regWait (seqKey c) o = false

/-- No check of the instruction's rules fails, no register it names has a load pending and it waits for nothing (R215, R238, R245). -/
def State.Accepts (s : State) (c : SlotCtl) (i : Instr) : Prop :=
  s.NoPending c i ∧ ∀ o, semOf i = some o → o.chk s = none ∧ o.wait s = 0 ∧ o.hold s = 0 ∧ o.late s = 0

/-- What a completion signals: its counter is one higher, at most 65,535, when `cen` is set (R217). -/
def State.Signalled (s t : State) (k : Nat) (cen : Bool) (e : Nat) : Prop :=
  (t.seq k).evc e = if cen then min ((s.seq k).evc e + 1) 65535 else (s.seq k).evc e

/-! ## Commands of the host and the management controller (R430, R539) -/

/-- Register and command writes have their effect: after DEVICE_READY and outside the error state. -/
def State.Open (s : State) : Prop := s.flag R.HOST_STAT.ready = true ∧ s.flag R.RAS_STAT.fatal = false

/-! ## What two states have in common -/

/-- Every byte of memory, and which units are bad, is as before. -/
def SameMem (s t : State) : Prop := (∀ a, t.byte a = s.byte a) ∧ t.bad = s.bad ∧ t.plist = s.plist ∧ t.linkErr = s.linkErr

/-- Every byte of memory outside `n` bytes at `a` is as before. -/
def SameMemBut (s t : State) (a n : Nat) : Prop := ∀ x, x < a ∨ a + n ≤ x → t.byte x = s.byte x

/-- Every register field but those listed is as before. -/
def SameRegsBut (s t : State) (fs : List Fld) : Prop := ∀ g : Fld, (∀ f ∈ fs, g.a ≠ f.a) → t.get g = s.get g

/-- Every other sequencer is as before. -/
def SameSeqsBut (s t : State) (k : Nat) : Prop := ∀ j, j ≠ k → t.seq j = s.seq j

/-- The scalar, address and predicate registers of a sequencer are as before. -/
def SameFiles (s t : State) (k : Nat) : Prop :=
  (t.seq k).s = (s.seq k).s ∧ (t.seq k).a = (s.seq k).a ∧ (t.seq k).p = (s.seq k).p

/-- A counter field is `n` higher, or holds at its greatest value. -/
def State.Counted (s t : State) (f : Fld) (n : Nat) : Prop := t.get f = min (s.get f + n) (2 ^ f.w - 1)

/-- Everything but the registers and the sequencers is as before. -/
def SameUnits (s t : State) : Prop := { t with regs := s.regs, seqs := s.seqs } = s

/-- Register fields that an entry of the error log may change (R537, R546). -/
def logRegs : List Fld := [R.RAS_LOGHD.newest, R.RAS_LOGHD.lost, R.RAS_STAT.new]

/-- The status fields of the flumes on link `k` (R158). -/
def State.linkRegs (s : State) (k : Nat) : List Fld := (s.flumesOn k).flatMap (fun f => [R.FLM_STAT.state f, R.FLM_STAT.above_hi f])

/-- What an event of Skidway link `k` leaves alone: every other link, and all but the registers, the flumes, the error log and what leaves the
block. -/
structure LinkFrame (s t : State) (k : Nat) : Prop where
  links : ∀ j, j ≠ k → t.skw j = s.skw j
  rest : { t with regs := s.regs, links := s.links, flumes := s.flumes, log := s.log, out := s.out, pba := s.pba, free := s.free } = s

/-! ## Reduction messages (R409, R410) -/

/-- A reduction message that arrives: its head, the link it comes on, its kind and the elements of its body behind destination, source and job. -/
def redMsg (s : State) (i : Instr) : Option (RedHdr × Nat × Nat × List Nat) :=
  let pairs := fun (l : List (BitVec 12 × BitVec 32)) => l.flatMap (fun x => [x.1.toNat, x.2.toNat])
  match i with
  | .normChainMsg h acc strip hops => some (h, s.redDir h, 1, [acc.toNat, strip.toNat, hops.toNat])
  | .normBroadcastMsg h _ sum norm clip hops => some (h, s.redDir h, 2, [sum.toNat, norm.toNat, clip.toNat, hops.toNat])
  | .verdictChainMsg h cause amax => some (h, s.redDir h, 3, cause.toNat :: pairs amax)
  | .verdictBroadcastMsg h skip cause amax => some (h, s.redDir h, 4, b2n skip :: cause.toNat :: pairs amax)
  | .tallyChainMsg h parts => some (h, s.redDir h, 5, parts.map BitVec.toNat)
  | .ckptKeyOutcomeMsg h msg => some (h, s.redDir h, 6, ckptBody msg)
  | .buddyCopyMsg h step off data last => some (h, s.copyLink h.ctx.val, 7, step.toNat :: off.toNat :: b2n last :: data.map BitVec.toNat)
  | .buddyAck h (some fits) => some (h, s.ackLink h.ctx.val, 7, [(s.ckpt h.ctx.val).bstep, b2n fits])
  | .layerStateMsg h layer kind off data next => some (h, s.get (if next then R.RED_CTL.next h.ctx.val else R.RED_CTL.prev h.ctx.val), 8,
      layer.toNat :: kind.toNat :: off.toNat :: data.map BitVec.toNat)
  | .moduleLostMsg h f k => some (h, k.val, 9, [f.toNat])
  | _ => none

/-- The module-lost message for `f` has gone out on every reduction link of context `c` but `k` (R544). -/
def State.LostTold (s t : State) (c f k : Nat) : Prop :=
  ∀ j ∈ s.redLinks c, j ≠ k → ∃ job, (t.skw j).red.getLast?.map (fun x => (x.ctx, x.kind, x.body)) = some (c, 9, [0xFFFF, s.moduleOf c, job, f])

/-! ## Invariants -/

/-- Memory, the tile registers and the register fields are in canonical form. -/
def State.Canon (s : State) : Prop :=
  KMap.wf (fun _ => (0 : Byte)) s.mem = true ∧ KMap.wf (fun _ => (0 : F32)) s.tiles = true ∧ KMap.wf resetVal s.regs = true

end Sys2Proof.Machine
end

