-- ==== Sys2Proof/Certificates/Slice0/Obligations.lean ====
section
/-! DEFINITION. Certificates/Slice0/Obligations.lean: the statements for the provers. -/

open Sys2Proof Sys2Proof.Machine

/-! ## Slot instructions -/

/-- R197, R234: a scalar instruction that issues alone writes its result to rd (s0 discards it) and nothing else but the program counter. A compare, TST or PLOG that issues alone writes its result to pd (p0 discards it) and nothing else but the program counter. MOV.A, ADD.A and ADDI.A that issue alone write 48 bits to ad and nothing else but the program counter. Where the spec is silent or can be read two ways, the clauses rest on log entries 7, 97 (the model's choice). -/
def Obligations.RegisterResults : Prop :=
  (∀ (s : State) (i : Instr) (c : SlotCtl) (rd : BitVec 5) (v : Word), scalarResult s i = some (c, rd, v) → slotFormed i = true →
    s.Alone c → s.NoPending c i → s.NoLoopEnd (seqKey c) →
    ∃ t, exec i s = .next t ∧ t.s (seqKey c) rd = (if rd = 0 then 0 else v) ∧ s.Issued t (seqKey c) (s.pc (seqKey c) + 1) ∧
      IssueFrame s t (seqKey c) ∧ ∃ x b, t.seq (seqKey c) = { s.seq (seqKey c) with s := x, past := b } ∧
        ∀ r : BitVec 5, r ≠ rd → t.s (seqKey c) r = s.s (seqKey c) r) ∧
  (∀ (s : State) (i : Instr) (c : SlotCtl) (pd : BitVec 3) (v : Bool), predResult s i = some (c, pd, v) → slotFormed i = true →
    s.Alone c → s.NoPending c i → s.NoLoopEnd (seqKey c) →
    ∃ t, exec i s = .next t ∧ t.p (seqKey c) pd = (if pd = 0 then true else v) ∧ s.Issued t (seqKey c) (s.pc (seqKey c) + 1) ∧
      IssueFrame s t (seqKey c) ∧ ∃ x b, t.seq (seqKey c) = { s.seq (seqKey c) with p := x, past := b } ∧
        ∀ r : BitVec 3, r ≠ pd → t.p (seqKey c) r = s.p (seqKey c) r) ∧
  (∀ (s : State) (i : Instr) (c : SlotCtl) (ad : BitVec 4) (v : Addr), addrResult s i = some (c, ad, v) → slotFormed i = true →
    s.Alone c → s.NoPending c i → s.NoLoopEnd (seqKey c) →
    ∃ t, exec i s = .next t ∧ t.a (seqKey c) ad.toNat = v ∧ s.Issued t (seqKey c) (s.pc (seqKey c) + 1) ∧
      IssueFrame s t (seqKey c) ∧ ∃ x b, t.seq (seqKey c) = { s.seq (seqKey c) with a := x, past := b } ∧
        ∀ r : BitVec 4, r ≠ ad → t.a (seqKey c) r.toNat = s.a (seqKey c) r.toNat)

/-- R209, R214, R231, R232: control instructions that issue alone, where no loop level ends: where control goes, and what becomes of the call stack
and the loop levels. NOP only advances. A taken BR or BR.S keeps the levels that hold its target. Where the spec is silent or can be read two ways, the clauses rest on log entry 7 (the model's choice). -/
def Obligations.ControlFlow : Prop :=
  ∀ (s : State) (c : SlotCtl), s.Alone c → s.NoLoopEnd (seqKey c) → let k := seqKey c
    (slotFormed (.nop c) = true → ∃ t, exec (.nop c) s = .next t ∧ s.Issued t k (s.pc k + 1) ∧ IssueFrame s t k ∧
      ∃ b, t.seq k = { s.seq k with past := b }) ∧
    (c.slot = 0 → ∀ n : BitVec 14, n.toNat < s.nbundles k → ∃ t, exec (.br c n) s = .next t ∧ s.Issued t k n.toNat ∧ IssueFrame s t k ∧
      (t.seq k).loops <:+ (s.seq k).loops ∧ (∀ l ∈ (t.seq k).loops, l.first ≤ n.toNat ∧ n.toNat ≤ l.last) ∧
      ((∀ l ∈ (s.seq k).loops, l.first ≤ n.toNat ∧ n.toNat ≤ l.last) → (t.seq k).loops = (s.seq k).loops)) ∧
    (c.slot = 0 → ∀ r : BitVec 5, s.NoPending c (.brS c r) → (s.s k r).toNat % 2 ^ 14 < s.nbundles k →
      ∃ t, exec (.brS c r) s = .next t ∧ s.Issued t k ((s.s k r).toNat % 2 ^ 14) ∧ IssueFrame s t k ∧
        (t.seq k).loops <:+ (s.seq k).loops) ∧
    (c.slot = 0 → ∀ n : BitVec 14, n.toNat < s.nbundles k → (s.seq k).calls.length < 16 →
      ∃ t b, exec (.call c n) s = .next t ∧ s.Issued t k n.toNat ∧ IssueFrame s t k ∧
        t.seq k = { s.seq k with calls := (s.pc k + 1) :: (s.seq k).calls, past := b }) ∧
    (c.slot = 0 → ∀ r l, (s.seq k).calls = r :: l → r < s.nbundles k →
      ∃ t b, exec (.ret c) s = .next t ∧ s.Issued t k r ∧ IssueFrame s t k ∧ t.seq k = { s.seq k with calls := l, past := b })

/-- R214, R231, R232: LOOP opens a level with the count of bits [31:0] of its register over the bundles after it, or skips the body when that is 0. What happens when a bundle at the last index of the innermost open level issues: the count is decremented, and control returns to the first
bundle of the body while it is not zero; else the level closes. Where the spec is silent or can be read two ways, the clauses rest on log entries 7, 35 (the model's choice). -/
def Obligations.Loops : Prop :=
  (∀ (s : State) (c : SlotCtl) (r : BitVec 5) (last : BitVec 14), s.Alone c → c.slot = 0 → s.NoPending c (.loop c r last) →
    s.NoLoopEnd (seqKey c) → s.pc (seqKey c) < last.toNat → last.toNat < s.nbundles (seqKey c) →
    let k := seqKey c
    let n := (s.s k r).toNat % 2 ^ 32
    (n = 0 → ∃ t b, exec (.loop c r last) s = .next t ∧ s.Issued t k (last.toNat + 1) ∧ IssueFrame s t k ∧
      t.seq k = { s.seq k with past := b }) ∧
    (n ≠ 0 → (s.seq k).loops.length < 4 → ∃ t b, exec (.loop c r last) s = .next t ∧ s.Issued t k (s.pc k + 1) ∧ IssueFrame s t k ∧
      t.seq k = { s.seq k with loops := ⟨s.pc k + 1, last.toNat, n⟩ :: (s.seq k).loops, past := b })) ∧
  (∀ (s : State) (c : SlotCtl) (l : LoopLvl) (ls : List LoopLvl), s.Alone c → slotFormed (.nop c) = true →
    (s.seq (seqKey c)).loops = l :: ls → l.last = s.pc (seqKey c) → l.first < 16384 → (∀ m ∈ ls, m.last ≠ s.pc (seqKey c)) →
    let k := seqKey c
    (1 < l.count → ∃ t b, exec (.nop c) s = .next t ∧ s.Issued t k l.first ∧
      t.seq k = { s.seq k with loops := { l with count := l.count - 1 } :: ls, past := b }) ∧
    (l.count = 1 → ∃ t b, exec (.nop c) s = .next t ∧ s.Issued t k (s.pc k + 1) ∧ t.seq k = { s.seq k with loops := ls, past := b }))

/-- R203, R216, R218, R222, R233: HALT leaves the sequencer HALTED at the next bundle; TRAP.RET clears in_trap and resumes at SR_EPC, or after it in mode 1. Event counters, the watch set and the waits that end at once. Where the spec is silent or can be read two ways, the clauses rest on log entry 7 (the model's choice). -/
def Obligations.HaltReturnAndEvents : Prop :=
  (∀ (s : State) (c : SlotCtl), s.Alone c → c.slot = 0 → s.NoLoopEnd (seqKey c) → let k := seqKey c
    (∃ t, exec (.halt c) s = .next t ∧ t.seqState k = seqHALTED ∧ s.Issued t k (s.pc k + 1) ∧ SameMem s t ∧ SameSeqsBut s t k ∧
      ∃ b, t.seq k = { s.seq k with past := b }) ∧
    (∀ mode, s.get (R.SEQ_STAT.in_trap c.die.val c.q.val) = 1 → (s.seq k).epc < 16384 →
      ∃ t, exec (.trapRet c mode) s = .next t ∧ t.get (R.SEQ_STAT.in_trap c.die.val c.q.val) = 0 ∧ s.Issued t k ((s.seq k).epc + b2n mode) ∧
        t.seqState k = seqRUNNING ∧ SameMem s t ∧ SameSeqsBut s t k ∧ ∃ b, t.seq k = { s.seq k with past := b }) ∧
    (∀ mode, s.get (R.SEQ_STAT.in_trap c.die.val c.q.val) = 0 →
      exec (.trapRet c mode) s = .next (s.takeExc k 0 (exc E.SEQ_OPERAND (encSlot (.trapRet c mode)))))) ∧
  (∀ (s : State) (c : SlotCtl), s.Alone c → c.slot = 0 → s.NoLoopEnd (seqKey c) → let k := seqKey c
    (∀ (tq : BitVec 2) (e : BitVec 3) (n : BitVec 16), let j := 4 * c.die.val + tq.toNat
      (s.seq j).evc e.toNat + n.toNat ≤ 65535 → ∃ t, exec (.evtSig c tq e n) s = .next t ∧
        (t.seq j).evc e.toNat = (s.seq j).evc e.toNat + n.toNat ∧ (∀ x, x ≠ e.toNat → (t.seq j).evc x = (s.seq j).evc x) ∧
        s.Issued t k (s.pc k + 1) ∧ SameMem s t ∧ ∀ i, i ≠ j → i ≠ k → t.seq i = s.seq i) ∧
    (∀ (tq : BitVec 2) (e : BitVec 3) (n : BitVec 16), 65535 < (s.seq (4 * c.die.val + tq.toNat)).evc e.toNat + n.toNat →
      exec (.evtSig c tq e n) s = .next (s.takeExc k 0 (exc E.SEQ_EVT (tq.toNat * 256 + e.toNat)))) ∧
    (∀ (e : BitVec 3) (n : BitVec 16), n.toNat ≤ (s.seq k).evc e.toNat → ∃ t, exec (.evtWait c e n) s = .next t ∧
      (t.seq k).evc e.toNat = (s.seq k).evc e.toNat - n.toNat ∧ (∀ x, x ≠ e.toNat → (t.seq k).evc x = (s.seq k).evc x) ∧
      s.Issued t k (s.pc k + 1) ∧ IssueFrame s t k) ∧
    (∀ (idx : BitVec 3) (kind : BitVec 2) (f : FlumeOp) (e : BitVec 3), s.NoPending c (.wchSet c idx kind f e) →
      (kind = 1 → s.flmSeqCheck k (flumeNum s k f) false = none) → (kind = 2 → s.flmSeqCheck k (flumeNum s k f) true = none) →
      ∃ t, exec (.wchSet c idx kind f e) s = .next t ∧ IssueFrame s t k ∧ s.Issued t k (s.pc k + 1) ∧
        (∀ j, j ≠ idx.toNat → (t.seq k).watchAt j = (s.seq k).watchAt j) ∧
        (t.seq k).watchAt idx.toNat = (if kind = 0 then .off else if kind = 1 then .record (flumeNum s k f)
          else if kind = 2 then .credit (flumeNum s k f) else .event e.toNat)) ∧
    (∀ (sd : BitVec 5) (n : Nat), s.NoPending c (.waitAny c sd) → n < 8 → s.watchHolds k ((s.seq k).watchAt n) = true →
      (∀ m, m < n → s.watchHolds k ((s.seq k).watchAt m) = false) → ∃ t, exec (.waitAny c sd) s = .next t ∧
        t.s k sd = (if sd = 0 then 0 else BitVec.ofNat 64 n) ∧ IssueFrame s t k ∧ s.Issued t k (s.pc k + 1)) ∧
    (∀ a g p d : Bool, (a = true → s.arraysBusy k = false) → (g = true → s.glazeBusy k = false) → (p = true → s.sapBusy k = false) →
      (d = true → (s.seq k).dma = []) → ∃ t, exec (.waitIdle c a g p d) s = .next t ∧ IssueFrame s t k ∧ s.Issued t k (s.pc k + 1)))

/-- R154, R198, R199, R250, R252: MOV.SR, MOV.HB, MOV.OB, HB.CP and OB.CLR that issue alone; a reserved selector raises SEQ_OPERAND. SCH.W writes the schedule register that sel names while the schedule is open, and is dropped with CFG_RANGE otherwise. Where the spec is silent or can be read two ways, the clauses rest on log entries 7, 39 (the model's choice). -/
def Obligations.MovesAndScheduleWrites : Prop :=
  (∀ (s : State) (c : SlotCtl), s.Alone c → c.slot = 3 → s.NoLoopEnd (seqKey c) → let k := seqKey c
    (∀ (rd : BitVec 5) (idx : BitVec 6), s.NoPending c (.movSr c rd idx) → idx.toNat < 12 → ∃ t, exec (.movSr c rd idx) s = .next t ∧
      s.Issued t k (s.pc k + 1) ∧ IssueFrame s t k ∧ t.s k rd = (if rd = 0 then 0 else BitVec.ofNat 64 (match idx.toNat with
        | 0 => s.seqStage k | 1 => s.seqCtx k | 2 => k | 3 => (s.seq k).cycle | 4 => s.tick (halfOfDie c.die.val)
        | 5 => (s.seq k).epc | 6 => (s.seq k).ecode | 7 => (s.seq k).einfo
        | _ => (((s.seq k).loops.reverse[idx.toNat - 8]?).map LoopLvl.count).getD 0))) ∧
    (∀ (rd : BitVec 5) (idx : BitVec 6), s.NoPending c (.movSr c rd idx) → 12 ≤ idx.toNat →
      exec (.movSr c rd idx) s = .next (s.takeExc k 3 (exc E.SEQ_OPERAND (encSlot (.movSr c rd idx))))) ∧
    (∀ (rd : BitVec 5) (sel : BitVec 6), s.NoPending c (.movHb c rd sel) → sel.toNat < 14 → ∃ t, exec (.movHb c rd sel) s = .next t ∧
      s.Issued t k (s.pc k + 1) ∧ IssueFrame s t k ∧ let h := (s.seq k).hb
      t.s k rd = (if rd = 0 then 0 else BitVec.ofNat 64 (match sel.toNat with
        | 0 => (s.seq k).hbVer
        | 1 => b2n h.last + 2 * b2n h.poison + 4 * b2n h.switchMk + 8 * b2n h.phaseMk + 16 * b2n h.redeliv
        | 2 => h.phase | 3 => h.slot | 4 => h.mb | 5 => h.step | 6 => h.group | 7 => h.gen | 8 => h.variant | 9 => h.prod
        | 10 => h.seqOff | 11 => h.len | 12 => h.rseq | _ => (s.seq k).hbFlume))) ∧
    (∀ (sel : BitVec 6) (rs : BitVec 5), s.NoPending c (.movOb c sel rs) → ∃ t, exec (.movOb c sel rs) s = .next t ∧
      if sel.toNat ∈ [1, 2, 3, 4, 5, 6, 7, 8, 10, 11] then s.Issued t k (s.pc k + 1) ∧ IssueFrame s t k ∧
        (t.seq k).hb = (s.seq k).hb ∧ (t.seq k).ob.field 0 0 sel.toNat = (match sel.toNat with
          | 1 => (s.s k rs).toNat % 16 + 16 * b2n (s.seq k).ob.redeliv
          | 2 => (s.s k rs).toNat % 4 | 3 => (s.s k rs).toNat % 4 | 5 => (s.s k rs).toNat % 2 ^ 48 | 6 => (s.s k rs).toNat % 2 ^ 16
          | 8 => (s.s k rs).toNat % 2 ^ 12 | 10 => (s.s k rs).toNat % 2 ^ 20 | _ => (s.s k rs).toNat % 2 ^ 32) ∧
        ∀ x, x ≠ sel.toNat → (t.seq k).ob.field 0 0 x = (s.seq k).ob.field 0 0 x
      else t = s.takeExc k 3 (exc E.SEQ_OPERAND (encSlot (.movOb c sel rs)))) ∧
    (∃ t, exec (.hbCp c) s = .next t ∧ s.Issued t k (s.pc k + 1) ∧ IssueFrame s t k ∧ (t.seq k).hb = (s.seq k).hb ∧
      (t.seq k).ob = { (s.seq k).hb with redeliv := (s.seq k).ob.redeliv, prod := (s.seq k).ob.prod, rseq := (s.seq k).ob.rseq }) ∧
    (∃ t, exec (.obClr c) s = .next t ∧ s.Issued t k (s.pc k + 1) ∧ IssueFrame s t k ∧ (t.seq k).hb = (s.seq k).hb ∧ (t.seq k).ob = Hdr.zero)) ∧
  (∀ (s : State) (c : SlotCtl) (sel : BitVec 3) (rs : BitVec 5) (idx : BitVec 8), s.Alone c → c.slot = 3 → s.NoLoopEnd (seqKey c) →
    s.NoPending c (.schW c sel rs idx) → sel.toNat < 5 →
    let k := seqKey c
    let n := c.die.val
    let q := c.q.val
    let v := (s.s k rs).toNat
    ((s.get (R.SCHED_CTL.mode n q) = 0 ∨ (s.seq k).stepEnded = true ∨ (s.seq k).loadedNoNext = true) →
      ∃ t, exec (.schW c sel rs idx) s = .next t ∧ s.Issued t k (s.pc k + 1) ∧ SameMem s t ∧
        (sel = 0 → t.get (R.SCHED_BASE.base n q) = v % 2 ^ 32) ∧ (sel = 1 → t.get (R.SCHED_COUNT.count n q) = v % 2 ^ 32) ∧
        (sel = 2 → t.get (R.SCHED_CTL.stride n q) = v / 2 ^ 24 % 256 ∧ t.get (R.SCHED_CTL.last n q) = v / 2 ^ 16 % 256 ∧
          t.get (R.SCHED_CTL.mode n q) = v % 4 ∧ t.get (R.SCHED_CTL.ptr n q) = 0) ∧
        (sel = 3 → t.get (R.SCHED_ROUND.round n q) = v % 2 ^ 32) ∧
        (sel = 4 → t.get (R.SCHED_ENT.flume n q idx.toNat) = v / 2 ^ 16 % 2 ^ 13 ∧ t.get (R.SCHED_ENT.offset n q idx.toNat) = v % 2 ^ 16)) ∧
    (s.get (R.SCHED_CTL.mode n q) ≠ 0 → (s.seq k).stepEnded = false → (s.seq k).loadedNoNext = false →
      ∃ t, exec (.schW c sel rs idx) s = .next t ∧ s.Issued t k (s.pc k + 1) ∧ SameMem s t ∧
        t.get (R.SCHED_BASE.base n q) = s.get (R.SCHED_BASE.base n q) ∧ t.get (R.SCHED_CTL.mode n q) = s.get (R.SCHED_CTL.mode n q) ∧
        t.get (R.SCHED_ROUND.round n q) = s.get (R.SCHED_ROUND.round n q) ∧ (t.log.head?.map LogEntry.code) = some E.CFG_RANGE))

/-- R230, R249: tile-store loads, and loads from a device address, which return with LD_TS_RETURN; a load changes no byte of memory. ST.TS stores the low bytes of rs at the tile-store offset or device address, and no other byte of memory changes. Where the spec is silent or can be read two ways, the clauses rest on log entries 7, 26, 144 (the model's choice). -/
def Obligations.LoadsAndStores : Prop :=
  ((∀ (s : State) (c : SlotCtl) (rd rb : BitVec 5) (size : BitVec 2) (sx : Bool) (imm : BitVec 24), s.Alone c → c.slot = 3 →
    s.NoLoopEnd (seqKey c) → s.NoPending c (.ldTs c rd false rb size sx imm) →
    let k := seqKey c
    let n : Nat := 2 ^ size.toNat
    let a : Int := ((s.s k rb).toNat % 2 ^ 26 : Nat) + imm.toInt
    let x := tileBase c.die.val + a.toNat
    a % n = 0 → 0 ≤ a → a + n ≤ 0x0300_0000 → s.tsWait k [(a.toNat, a.toNat + n)] [] = 0 → s.readBad x n = [] →
    ∃ t, exec (.ldTs c rd false rb size sx imm) s = .next t ∧ s.Issued t k (s.pc k + 1) ∧ SameMem s t ∧ SameSeqsBut s t k ∧
      (s.softIn x n = [] → IssueFrame s t k) ∧
      t.s k rd = (if rd = 0 then 0 else if sx then BitVec.ofInt 64 (toSigned (8 * n) (s.le x n)) else BitVec.ofNat 64 (s.le x n))) ∧
  (∀ (s : State) (c : SlotCtl) (rd rb : BitVec 5) (size : BitVec 2) (sx : Bool) (imm : BitVec 24), s.Alone c → c.slot = 3 →
    s.NoLoopEnd (seqKey c) → s.NoPending c (.ldTs c rd true rb size sx imm) → rb.toNat < 16 →
    let k := seqKey c
    let n : Nat := 2 ^ size.toNat
    let a := (s.a k rb.toNat + imm.signExtend 48).toNat
    a % n = 0 → s.permits (s.seqCtx k) a n false = true → ∃ t, exec (.ldTs c rd true rb size sx imm) s = .next t ∧
      s.Issued t k (s.pc k + 1) ∧ RouteFrame s t k ∧ (t.seq k).s = (s.seq k).s ∧
      (t.seq k).loads = (s.seq k).loads ++ [{ rd := rd.toNat, addr := a, size := n, sx := sx, val := none }]) ∧
  (∀ (s : State) (d : Fin 24) (q : Fin 4) (l : PendLoad) (ls : List PendLoad), let k := 4 * d.val + q.val
    (s.seq k).loads = l :: ls → l.rd < 32 → l.val = none → s.unavailable l.addr = none → s.readBad l.addr l.size = [] →
    ∃ t, exec (.ldTsReturn d q) s = .next t ∧ (t.seq k).loads = ls ∧ SameMem s t ∧ SameSeqsBut s t k ∧
      (s.softIn l.addr l.size = [] → t.regs = s.regs) ∧
      t.s k (BitVec.ofNat 5 l.rd) = (if l.rd = 0 then 0
        else if l.sx then BitVec.ofInt 64 (toSigned (8 * l.size) (s.le l.addr l.size)) else BitVec.ofNat 64 (s.le l.addr l.size))) ∧
  (∀ (s : State) (d : Fin 24) (q : Fin 4) (l : PendLoad) (ls : List PendLoad) (v : Word), let k := 4 * d.val + q.val
    (s.seq k).loads = l :: ls → l.rd < 32 → l.val = some v →
    ∃ t, exec (.ldTsReturn d q) s = .next t ∧ (t.seq k).loads = ls ∧ SameMem s t ∧ SameSeqsBut s t k ∧ t.regs = s.regs ∧
      t.s k (BitVec.ofNat 5 l.rd) = (if l.rd = 0 then 0 else v))) ∧
  (∀ (s : State) (c : SlotCtl) (rs rb : BitVec 5) (size : BitVec 2) (imm : BitVec 24), s.Alone c → c.slot = 3 → s.NoLoopEnd (seqKey c) →
    let k := seqKey c
    let n : Nat := 2 ^ size.toNat
    (s.NoPending c (.stTs c rs false rb size imm) →
      let a : Int := ((s.s k rb).toNat % 2 ^ 26 : Nat) + imm.toInt
      let x := tileBase c.die.val + a.toNat
      a % n = 0 → 0 ≤ a → a + n ≤ 0x0300_0000 → s.tsWait k [] [(a.toNat, a.toNat + n)] = 0 → s.badIn x n = [] →
      ∃ t, exec (.stTs c rs false rb size imm) s = .next t ∧ s.Issued t k (s.pc k + 1) ∧
        (∀ i, i < n → t.byte (x + i) = BitVec.ofNat 8 ((s.s k rs).toNat / 256 ^ i)) ∧ SameMemBut s t x n ∧ SameSeqsBut s t k) ∧
    (s.NoPending c (.stTs c rs true rb size imm) → rb.toNat < 16 →
      let x := (s.a k rb.toNat + imm.signExtend 48).toNat
      x % n = 0 → s.permits (s.seqCtx k) x n true = true → s.unavailable x = none → s.badIn x n = [] →
      ∃ t, exec (.stTs c rs true rb size imm) s = .next t ∧ s.Issued t k (s.pc k + 1) ∧
        (∀ i, i < n → t.byte (x + i) = BitVec.ofNat 8 ((s.s k rs).toNat / 256 ^ i)) ∧ SameMemBut s t x n ∧ SameSeqsBut s t k))

/-- R217, R251: a DMA joins its queue; the transfer at the front starts, and when it completes its bytes stand at the destination, no other byte of
memory has changed, and its counter is signalled. Where the spec is silent or can be read two ways, the clauses rest on log entries 7, 26, 145, 150 (the model's choice). -/
def Obligations.DmaTransfers : Prop :=
  (∀ (s : State) (c : SlotCtl) (dk sk : Bool) (dr sr lr : BitVec 5) (cen : Bool) (e : BitVec 3), s.Alone c → c.slot = 3 →
    s.NoLoopEnd (seqKey c) → s.NoPending c (.dma c dk sk dr sr lr cen e) →
    let k := seqKey c
    let at_ := fun (dev : Bool) (r : BitVec 5) => if dev then (s.a k r.toNat).toNat else (s.s k r).toNat % 2 ^ 26
    let n := (s.s k lr).toNat % 2 ^ 32
    (dk = true → dr.toNat < 16) → (sk = true → sr.toNat < 16) → at_ sk sr % 64 = 0 → at_ dk dr % 64 = 0 → n % 64 = 0 → 0 < n →
    (if sk then s.permits (s.seqCtx k) (at_ sk sr) n false = true else at_ sk sr + n ≤ 0x0300_0000) →
    (if dk then s.permits (s.seqCtx k) (at_ dk dr) n true = true else at_ dk dr + n ≤ 0x0300_0000) →
    (s.seq k).dma.length < 8 → (∀ d ∈ (s.seq k).dma, d.len ≠ 0) →
    ∃ t, exec (.dma c dk sk dr sr lr cen e) s = .next t ∧ s.Issued t k (s.pc k + 1) ∧ IssueFrame s t k ∧
      (t.seq k).dma = (s.seq k).dma ++ [DmaOp.mk sk dk (at_ sk sr) (at_ dk dr) n cen e.toNat false]) ∧
  (∀ (s : State) (d : Fin 24) (q : Fin 4) (x : DmaOp) (l : List DmaOp), let k := 4 * d.val + q.val
    (s.seq k).dma = x :: l → ∃ t, exec (.dmaStart d q) s = .next t ∧ (t.seq k).dma = { x with started := true } :: l ∧ SameMem s t ∧
      SameSeqsBut s t k ∧ t.regs = s.regs) ∧
  (∀ (s : State) (d : Fin 24) (q : Fin 4) (x : DmaOp) (l : List DmaOp), let k := 4 * d.val + q.val
    let src := if x.srcDev then x.src else tileBase d.val + x.src
    let dst := if x.dstDev then x.dst else tileBase d.val + x.dst
    (s.seq k).dma = x :: l → x.started = true → x.len % 64 = 0 → (∀ y ∈ l, y.len ≠ 0) → s.quarLen = [] →
    (x.srcDev = true → ∀ i, i < x.len → s.unavailable (src + i) = none) → (x.dstDev = true → ∀ i, i < x.len → s.unavailable (dst + i) = none) →
    s.badIn src x.len = [] → s.badIn dst x.len = [] → (src + x.len ≤ dst ∨ dst + x.len ≤ src) →
    ∃ t, exec (.dmaComplete d q) s = .next t ∧ (t.seq k).dma = l ∧ (∀ i, i < x.len → t.byte (dst + i) = s.byte (src + i)) ∧
      SameMemBut s t dst x.len ∧ SameSeqsBut s t k ∧ (s.softIn src x.len = [] → t.regs = s.regs) ∧
      (t.seq k).evc x.e = (if x.cen then min ((s.seq k).evc x.e + 1) 65535 else (s.seq k).evc x.e))

/-! ## Flumes -/

/-- R136, R138, R143, R145, R199: FLM.PUSH, and FLM.TRY that succeeds, reserve a free slot, take a credit and return the slot's address; FLM.TRY without a
credit on an OPEN flume fails and counts a full-cycle. No byte of memory and no other flume changes. FLM.CMT sends the program fields of OB with the oldest reserved slot of the sequencer on the flume, and OB stays. Where the spec is silent or can be read two ways, the clauses rest on log entries 7, 40, 41, 117, 118 (the model's choice). -/
def Obligations.FlumeReserveAndCommit : Prop :=
  (∀ (s : State) (c : SlotCtl) (ad : BitVec 4) (o : FlumeOp) (pd : BitVec 3), s.Alone c → c.slot = 3 → s.NoLoopEnd (seqKey c) →
    let k := seqKey c
    let f := match o with
      | .imm n => n.toNat
      | .reg r => (s.s k r).toNat % 2 ^ 13
    s.flmSeqCheck k f true = none → s.flmState f = flmOPEN →
    (∀ sp i, s.canPush f = true → s.freeSlot f = some (sp, i) →
      let after := fun t : State => s.Issued t k (s.pc k + 1) ∧ SameMem s t ∧ SameSeqsBut s t k ∧
        t.a k ad.toNat = BitVec.ofNat 48 (s.slotAddr f sp i) ∧ (t.flume f).out = (s.flume f).out + 1 ∧
        (∃ r : FlmRec, (t.flume f).recs = (s.flume f).recs ++ [r] ∧ r.owner = k ∧ r.spill = sp ∧ r.slot = i ∧ r.cmt = false ∧ r.held = false) ∧
        ∀ g, g ≠ f → t.flume g = s.flume g
      (s.NoPending c (.flmPush c ad o) → ∃ t, exec (.flmPush c ad o) s = .next t ∧ after t) ∧
      (s.NoPending c (.flmTry c ad o pd) → ∃ t, exec (.flmTry c ad o pd) s = .next t ∧ after t ∧ t.p k pd = true)) ∧
    (s.canPush f = false → s.NoPending c (.flmTry c ad o pd) → ∃ t, exec (.flmTry c ad o pd) s = .next t ∧ s.Issued t k (s.pc k + 1) ∧
      t.p k pd = decide (pd = 0) ∧ t.flumes = s.flumes ∧ SameMem s t ∧ (∀ r : BitVec 4, t.a k r.toNat = s.a k r.toNat) ∧
      t.get (R.FLM_CNT.full f) = min (s.get (R.FLM_CNT.full f) + 1) (2 ^ 48 - 1))) ∧
  (∀ (s : State) (c : SlotCtl) (f : BitVec 13) (r : FlmRec), s.Alone c → c.slot = 3 → s.NoLoopEnd (seqKey c) →
    let k := seqKey c
    let h := (s.seq k).ob
    s.flmSeqCheck k f.toNat true = none → (s.flume f.toNat).oldestResv k = some r → h.len ≤ s.get (R.FLM_DESC.rec_size f.toNat) * 4096 →
    s.get (R.FLM_DESC.remote f.toNat) = 0 → s.payloadPending k f.toNat = false → h.phaseMk = false →
    ∃ t, exec (.flmCmt c (.imm f)) s = .next t ∧ s.Issued t k (s.pc k + 1) ∧ SameMem s t ∧ SameSeqsBut s t k ∧ (t.seq k).ob = h ∧
      ({ r with hdr := h, sent := true } : FlmRec) ∈ (t.flume f.toNat).recs ∧ (t.flume f.toNat).recs.length = (s.flume f.toNat).recs.length ∧
      ∀ g, g ≠ f.toNat → t.flume g = s.flume g)

/-- R136, R139, R152, R153, R166, R199: FLM.POP, and FLM.TPOP on an OPEN flume, take and hold the ready record: its header and flume number go to HB, its address to ad;
an FLM.POP with 16 held, one ready or not, and an FLM.TPOP that would take a 17th record are refused with FLM_HOLD; FLM.TPOP with none ready fails and leaves HB. FLM.NEXT takes the record that the schedule names and advances the schedule, or ends the step with its predicate false;
with mode 0, or the reserved mode 3, it is refused with FLM_SCHED_ORDER. Where the spec is silent or can be read two ways, the clauses rest on log entries 7, 38, 39, 119 (the model's choice). -/
def Obligations.FlumeTakeAndNext : Prop :=
  (∀ (s : State) (c : SlotCtl) (ad : BitVec 4) (f : BitVec 13) (pd : BitVec 3), s.Alone c → c.slot = 3 → s.NoLoopEnd (seqKey c) →
    let k := seqKey c
    let x := s.flume f.toNat
    s.flmSeqCheck k f.toNat false = none → s.flmState f.toNat = flmOPEN →
    (16 ≤ x.heldBy k → exec (.flmPop c ad (.imm f)) s = .next (s.takeExc k 3 (exc E.FLM_HOLD f.toNat)) ∧
      (∀ r, x.readyHead = some r → exec (.flmTpop c ad (.imm f) pd) s = .next (s.takeExc k 3 (exc E.FLM_HOLD f.toNat)))) ∧
    (∀ r, x.readyHead = some r → x.heldBy k < 16 → r.hdr.phaseMk = false →
      let after := fun t : State => s.Issued t k (s.pc k + 1) ∧ SameMem s t ∧ SameSeqsBut s t k ∧ (t.seq k).hb = r.hdr ∧
        (t.seq k).hbFlume = f.toNat ∧ (t.seq k).ob = (s.seq k).ob ∧ t.a k ad.toNat = BitVec.ofNat 48 (s.slotAddr f.toNat r.spill r.slot) ∧
        (t.flume f.toNat).heldBy k = x.heldBy k + 1 ∧ (t.flume f.toNat).recs.length = x.recs.length ∧
        t.get (R.FLM_SEQ.next_pop f.toNat) = (r.hdr.rseq + 1) % 2 ^ 32 ∧ ∀ g, g ≠ f.toNat → t.flume g = s.flume g
      (∃ t, exec (.flmPop c ad (.imm f)) s = .next t ∧ after t) ∧ (∃ t, exec (.flmTpop c ad (.imm f) pd) s = .next t ∧ after t ∧ t.p k pd = true)) ∧
    (x.readyHead = none → ∃ t, exec (.flmTpop c ad (.imm f) pd) s = .next t ∧ s.Issued t k (s.pc k + 1) ∧ IssueFrame s t k ∧
      t.p k pd = decide (pd = 0) ∧ (t.seq k).hb = (s.seq k).hb ∧ (t.seq k).hbFlume = (s.seq k).hbFlume)) ∧
  (∀ (s : State) (c : SlotCtl) (ad : BitVec 4) (pd : BitVec 3), s.Alone c → c.slot = 3 → s.NoLoopEnd (seqKey c) →
    let k := seqKey c
    let m := s.get (R.SCHED_CTL.mode c.die.val c.q.val)
    (m = 0 ∨ m = 3 → exec (.flmNext c ad pd) s = .next (s.takeExc k 3 (exc E.FLM_SCHED_ORDER 0))) ∧
    (∀ ptr round, (m = 1 ∨ m = 2) → s.pick k = .finished ptr round → ∃ t, exec (.flmNext c ad pd) s = .next t ∧ s.Issued t k (s.pc k + 1) ∧
      t.p k pd = decide (pd = 0) ∧ (t.seq k).stepEnded = true ∧ (t.seq k).hb = (s.seq k).hb ∧ t.flumes = s.flumes ∧ SameMem s t ∧
      t.get (R.SCHED_CTL.ptr c.die.val c.q.val) = ptr % 256 ∧ t.get (R.SCHED_ROUND.round c.die.val c.q.val) = round % 2 ^ 32) ∧
    (∀ f ptr round r, (m = 1 ∨ m = 2) → s.pick k = .take f ptr round → s.flmSeqCheck k f false = none → (s.flume f).heldBy k < 16 →
      (s.flume f).readyHead = some r → r.hdr.phaseMk = false → ∃ t, exec (.flmNext c ad pd) s = .next t ∧ s.Issued t k (s.pc k + 1) ∧
      t.p k pd = true ∧ (t.seq k).stepEnded = false ∧ (t.seq k).hb = r.hdr ∧ (t.seq k).hbFlume = f ∧ SameMem s t ∧
      t.a k ad.toNat = BitVec.ofNat 48 (s.slotAddr f r.spill r.slot) ∧ (t.flume f).heldBy k = (s.flume f).heldBy k + 1 ∧
      t.get (R.SCHED_CTL.ptr c.die.val c.q.val) = ptr % 256 ∧ t.get (R.SCHED_ROUND.round c.die.val c.q.val) = round % 2 ^ 32))

/-- R136, R141, R143, R146: FLM.REL drops the oldest record the sequencer holds and sets its credit on the way; the commit arrives, is numbered and becomes
ready: its number is next_cmt and its place after the oldest record not committed, and next_cmt stays the number of that one; the credit returns. The background copy of the oldest committed spilled record that nobody holds into a free flume-store slot: the record keeps its place in the
order, its spill slot becomes free, and its payload stands at the new address. Where the spec is silent or can be read two ways, the clauses rest on log entries 7, 40, 117, 118 (the model's choice). -/
def Obligations.FlumeHandOffAndSpill : Prop :=
  ((∀ (s : State) (c : SlotCtl) (f : BitVec 13) (r : FlmRec), s.Alone c → c.slot = 3 → s.NoLoopEnd (seqKey c) → let k := seqKey c
    s.flmSeqCheck k f.toNat false = none → (s.flume f.toNat).oldestHeld k = some r → s.get (R.FLM_DESC.remote f.toNat) = 0 →
    ∃ t, exec (.flmRel c (.imm f)) s = .next t ∧ s.Issued t k (s.pc k + 1) ∧ SameMem s t ∧ SameSeqsBut s t k ∧
      (t.flume f.toNat).ret = (s.flume f.toNat).ret + 1 ∧ (t.flume f.toNat).recs.length + 1 = (s.flume f.toNat).recs.length ∧
      (t.flume f.toNat).out = (s.flume f.toNat).out) ∧
  (∀ (s : State) (f : Fin 8192) (r : FlmRec), (s.flume f.val).recs.find? (fun r => r.sent && !r.cmt) = some r →
    s.get (R.FLM_DESC.remote f.val) = 0 →
    let n := s.get (R.FLM_SEQ.next_cmt f.val)
    let back := (s.flume f.val).recs.dropWhile (fun r => r.cmt)
    ∃ t, exec (.flmCommitArrival f) s = .next t ∧ SameMem s t ∧ t.seqs = s.seqs ∧
      (back.head? = some r → t.get (R.FLM_SEQ.next_cmt f.val) = (n + 1 + (back.tail.takeWhile (fun r => r.cmt)).length) % 2 ^ 32) ∧
      (back.head? ≠ some r → t.get (R.FLM_SEQ.next_cmt f.val) = n % 2 ^ 32) ∧
      t.get (R.FLM_CNT.records f.val) = min (s.get (R.FLM_CNT.records f.val) + 1) (2 ^ 48 - 1) ∧
      ∃ x ∈ (t.flume f.val).recs, x.cmt = true ∧ x.hdr.rseq = (n + back.findIdx (fun r => r.sent && !r.cmt)) % 2 ^ 32 ∧
        x.hdr.prod = s.get (R.FLM_DESC.prod f.val) ∧ x.hdr.mb = r.hdr.mb ∧ x.hdr.poison = (r.hdr.poison || r.bad) ∧ x.slot = r.slot) ∧
  (∀ (s : State) (f : Fin 8192) (r : FlmRec) (l : List FlmRec), (s.flume f.val).recs = r :: l → r.cmt = true → r.ready = false →
    ∃ t, exec (.flmReadyNotice f) s = .next t ∧ (t.flume f.val).recs = { r with ready := true } :: l ∧ SameMem s t ∧ t.seqs = s.seqs) ∧
  (∀ (s : State) (f : Fin 8192), 0 < (s.flume f.val).ret → ∃ t, exec (.flmCreditReturn f) s = .next t ∧
    (t.flume f.val).ret = (s.flume f.val).ret - 1 ∧ (t.flume f.val).out = (s.flume f.val).out - 1 ∧
    (t.flume f.val).recs = (s.flume f.val).recs ∧ SameMem s t ∧ t.seqs = s.seqs)) ∧
  (∀ (s : State) (f : Fin 8192),
    (∀ r i, (s.flume f.val).oldestSpilled = some r → s.freeSlot f.val = some (false, i) → (s.flume f.val).copy = none →
      ∃ t, exec (.flmSpillCopy f) s = .next t ∧ (t.flume f.val).copy = some (r.hdr.rseq, i) ∧
        (t.flume f.val).recs = (s.flume f.val).recs ∧ SameMem s t) ∧
    (∀ r i l, (s.flume f.val).copy = some (r.hdr.rseq, i) → (s.flume f.val).recs = r :: l → r.cmt = true → r.spill = true → r.held = false →
      s.quarLen = [] → let b := s.get (R.FLM_DESC.rec_size f.val) * 4096
      let src := s.slotAddr f.val true r.slot
      let dst := s.slotAddr f.val false i
      s.badIn src b = [] → s.badIn dst b = [] → (src + b ≤ dst ∨ dst + b ≤ src) →
      ∃ t, exec (.flmSpillCopyDone f) s = .next t ∧ (t.flume f.val).copy = none ∧
        (t.flume f.val).recs = { r with spill := false, slot := i } :: l ∧ (∀ j, j < b → t.byte (dst + j) = s.byte (src + j)) ∧
        SameMemBut s t dst b))

/-- R25, R132, R158, R162, R165: closing, zeroing and unbinding a flume, and clearing its counters. A commit of a flume's shadow descriptor: while the context is leaving it is refused with CFG_COMMIT; with en = 0 it commits the group and closes the flume; with depth or rec_size 0 it is refused with CFG_ZERO, on the
other causes with CFG_COMMIT, and the committed descriptor stays; an accepted first commit of a local flume makes it OPEN with no record. Where the spec is silent or can be read two ways, the clauses rest on log entries 42, 114, 120 (the model's choice). -/
def Obligations.FlumeCloseAndDescriptor : Prop :=
  (∀ (s : State) (f : Fin 8192), let n := f.val
    (s.Open → s.halfInReset (halfOfFlume n) = false → (s.flmState n = flmOPEN ∨ s.flmState n = flmHELD) → s.get (R.FLM_DESC.remote n) = 0 →
      ∃ t, exec (.flmCmdClose f) s = .next t ∧ t.flmState n = flmCLOSING ∧ (t.flume n).recs = [] ∧ SameMem s t ∧
        t.get (R.FLM_CNT.discard n) = min (s.get (R.FLM_CNT.discard n) + (s.flume n).recs.length + (s.flume n).staged.length) (2 ^ 48 - 1)) ∧
    (s.flmState n = flmCLOSING → ((s.flume n).peerAck = true ∨ (s.flume n).linkDown = true) →
      ∃ t, exec (.flmCloseDone f) s = .next t ∧ t.flmState n = flmZEROING ∧ SameMem s t ∧ t.flumes = s.flumes ∧
        SameRegsBut s t [R.FLM_STAT.state n] ∧ t.seqs = s.seqs) ∧
    (¬(s.flmState n = flmCLOSING ∧ ((s.flume n).peerAck = true ∨ (s.flume n).linkDown = true)) → exec (.flmCloseDone f) s = .next s) ∧
    (s.flmState n = flmZEROING → (∀ e ∈ s.jobs, ∀ x ∈ (s.job e.1).remake, x.1 ≠ n) →
      ∃ t, exec (.flmZeroingDone f) s = .next t ∧ t.flmState n = flmUNBOUND ∧ t.flume n = { Flume.empty with was := (s.flume n).was } ∧
      (∀ g, g ≠ n → t.flume g = s.flume g) ∧ t.seqs = s.seqs ∧
      (∀ r ∈ (s.flume n).zero, ∀ i, i < r.2 → t.byte (r.1 + i) = 0) ∧
      (∀ a, (∀ r ∈ (s.flume n).zero, a < r.1 ∨ r.1 + r.2 ≤ a) → t.byte a = s.byte a)) ∧
    (s.flmState n = flmZEROING → ∀ c, (s.jobs.map Prod.fst).find? (fun c => (s.job c).remake.any (fun x => decide (x.1 = n))) = some c →
      (s.job c).remake.filter (fun x => decide (x.1 ≠ n)) ≠ [] → ∃ t, exec (.flmZeroingDone f) s = .next t ∧
        (t.flmState n = flmOPEN ∨ t.flmState n = flmHELD) ∧ (t.flume n).recs = [] ∧ (t.job c).remake = (s.job c).remake.filter (fun x => decide (x.1 ≠ n))) ∧
    (s.flmState n ≠ flmZEROING → exec (.flmZeroingDone f) s = .next s) ∧
    (s.Open → s.halfInReset (halfOfFlume n) = false → s.flmState n ≠ flmOPEN → s.flmState n ≠ flmHELD → exec (.flmCmdClose f) s = .next s) ∧
    (s.Open → s.halfInReset (halfOfFlume n) = true → ∀ i, (i = .flmCmdClose f ∨ i = .flmCmdClear f) → ∃ t, exec i s = .next t ∧
      t.flumes = s.flumes ∧ t.flmState n = s.flmState n ∧ t.get (R.FLM_CNT.full n) = s.get (R.FLM_CNT.full n) ∧ SameMem s t ∧
      (t.log.head?.map LogEntry.code) = some E.LINK_HALF_DOWN) ∧
    (s.Open → s.halfInReset (halfOfFlume n) = false → ∃ t, exec (.flmCmdClear f) s = .next t ∧ t.get (R.FLM_CNT.full n) = 0 ∧ t.get (R.FLM_CNT.empty n) = 0 ∧
      t.get (R.FLM_CNT.spill n) = 0 ∧ t.get (R.FLM_CNT.poison n) = 0 ∧ t.get (R.FLM_CNT.discard n) = 0 ∧ t.get (R.FLM_CNT.records n) = 0 ∧
      SameRegsBut s t [R.FLM_CNT.full n, R.FLM_CNT.empty n, R.FLM_CNT.spill n, R.FLM_CNT.poison n, R.FLM_CNT.discard n, R.FLM_CNT.records n] ∧
      { t with regs := s.regs } = s)) ∧
  (∀ (s : State) (f : Fin 8192), let n := f.val
    s.Open → s.halfInReset (halfOfFlume n) = false → s.get R.FLM_CSTAT.busy = 0 →
    (s.leaving (s.sget (R.FLM_DESC.ctx n)) = true →
      ∃ t, exec (.flmCommit f) s = .next t ∧ t.get R.FLM_CSTAT.result = 3 ∧ t.get R.FLM_CSTAT.flume = n ∧
        (∀ g ∈ flmGroup n, t.get g = s.get g) ∧ t.flmState n = s.flmState n ∧ (t.log.head?.map LogEntry.code) = some E.CFG_COMMIT) ∧
    (s.leaving (s.sget (R.FLM_DESC.ctx n)) = false → s.sget (R.FLM_DESC.en n) = 0 →
      ∃ t, exec (.flmCommit f) s = .next t ∧ t.get R.FLM_CSTAT.result = 1 ∧ t.get R.FLM_CSTAT.flume = n ∧ (∀ g ∈ flmGroup n, t.get g = s.sget g) ∧
        t.flmState n = (if s.flmState n = flmOPEN ∨ s.flmState n = flmHELD then flmCLOSING else s.flmState n) ∧
        (t.flmState n = flmCLOSING → s.flmState n ≠ flmCLOSING → (t.flume n).recs = []) ∧ SameMem s t) ∧
    (s.leaving (s.sget (R.FLM_DESC.ctx n)) = false → s.sget (R.FLM_DESC.en n) = 1 → (s.sget (R.FLM_DESC.depth n) = 0 ∨ s.sget (R.FLM_DESC.rec_size n) = 0) →
      ∃ t, exec (.flmCommit f) s = .next t ∧ t.get R.FLM_CSTAT.result = 2 ∧ t.get R.FLM_CSTAT.flume = n ∧
        (∀ g ∈ flmGroup n, t.get g = s.get g) ∧ t.flmState n = s.flmState n ∧ (t.log.head?.map LogEntry.code) = some E.CFG_ZERO) ∧
    (s.leaving (s.sget (R.FLM_DESC.ctx n)) = false → s.sget (R.FLM_DESC.en n) = 1 → s.sget (R.FLM_DESC.depth n) ≠ 0 → s.sget (R.FLM_DESC.rec_size n) ≠ 0 → s.flmDescBad n = true →
      ∃ t, exec (.flmCommit f) s = .next t ∧ t.get R.FLM_CSTAT.result = 3 ∧ t.get R.FLM_CSTAT.flume = n ∧
        (∀ g ∈ flmGroup n, t.get g = s.get g) ∧ t.flmState n = s.flmState n ∧ (t.log.head?.map LogEntry.code) = some E.CFG_COMMIT) ∧
    (s.leaving (s.sget (R.FLM_DESC.ctx n)) = false → s.sget (R.FLM_DESC.en n) = 1 → s.sget (R.FLM_DESC.depth n) ≠ 0 → s.sget (R.FLM_DESC.rec_size n) ≠ 0 → s.flmDescBad n = false →
      s.flmState n = flmUNBOUND → s.sget (R.FLM_DESC.remote n) = 0 →
      ∃ t, exec (.flmCommit f) s = .next t ∧ t.get R.FLM_CSTAT.result = 1 ∧ t.get R.FLM_CSTAT.flume = n ∧ t.flmState n = flmOPEN ∧
        (∀ g ∈ flmGroup n, t.get g = s.sget g) ∧ (t.flume n).recs = [] ∧ (t.flume n).out = 0 ∧ t.get (R.FLM_SEQ.next_cmt n) = 0 ∧
        t.get (R.FLM_SEQ.next_pop n) = 0 ∧ SameMem s t))

/-! ## Versions and variants -/

/-- R169, R172, R174, R175, R191, R193, R255: VER.PIN, VER.LOOK, VER.UNPIN and VER.BASE by the state of the slot that holds the generation: a LIVE slot is pinned and its
number returned; a DRAINING one fails a pin with VER_STALE and poisons the held record, and so does, with VER_MISSING, a pin that has ended while it waited; a look at a DRAINING slot with pins resolves. VER.BUILD and VER.TBUILD take the lowest free slot into BUILDING under a generation above top; VER.LB and VER.NL
write its staged layer group; VER.LIVE commits the group; VER.DROP frees the slot. Where the spec is silent or can be read two ways, the clauses rest on log entries 7, 44, 45, 46, 115, 152 (the model's choice). -/
def Obligations.VersionResolveAndBuild : Prop :=
  (∀ (s : State) (c : SlotCtl), s.Alone c → c.slot = 3 → s.NoLoopEnd (seqKey c) → s.halfInReset (halfOfDie c.die.val) = false →
    let k := seqKey c
    (∀ (pd : BitVec 3) (sd : BitVec 5) (f : BitVec 13) (r : FlmRec) (i : Nat), s.NoPending c (.verPin c pd sd (.imm f)) →
      s.flmSeqCheck k f.toNat false = none → (s.flume f.toNat).oldestHeld k = some r → s.vfind k r.hdr.gen = some i →
      KMap.find (fun _ => 0) s.pinEnd k = 0 →
      (s.vst k i = verLIVE → s.vcount k i < 65535 → ∃ t, exec (.verPin c pd sd (.imm f)) s = .next t ∧ s.Issued t k (s.pc k + 1) ∧
        t.vcount k i = s.vcount k i + 1 ∧ t.vst k i = verLIVE ∧ t.p k pd = true ∧ t.s k sd = (if sd = 0 then 0 else BitVec.ofNat 64 i) ∧ SameMem s t) ∧
      (s.vst k i = verDRAINING → ∃ t, exec (.verPin c pd sd (.imm f)) s = .next t ∧ s.Issued t k (s.pc k + 1) ∧ t.p k pd = decide (pd = 0) ∧
        t.vcount k i = s.vcount k i ∧ t.get (R.VER_LOG0.gen) = r.hdr.gen % 2 ^ 32 ∧ t.get R.VER_LOG1.cause = 2 ∧
        t.get (R.VER_CNT.stale k) = min (s.get (R.VER_CNT.stale k) + 1) (2 ^ 48 - 1) ∧ (t.log.head?.map LogEntry.code) = some E.VER_STALE ∧
        ({ r with hdr := { r.hdr with poison := true } } : FlmRec) ∈ (t.flume f.toNat).recs)) ∧
    (∀ (pd : BitVec 3) (sd : BitVec 5) (f : BitVec 13) (r : FlmRec), s.NoPending c (.verPin c pd sd (.imm f)) →
      s.flmSeqCheck k f.toNat false = none → (s.flume f.toNat).oldestHeld k = some r → (∀ i, s.vfind k r.hdr.gen = some i → s.vcount k i < 65535) →
      let e := KMap.find (fun _ => 0) s.pinEnd k
      e ≠ 0 → e ≠ 2 → e < 8 → ∃ t, exec (.verPin c pd sd (.imm f)) s = .next t ∧ s.Issued t k (s.pc k + 1) ∧ t.p k pd = decide (pd = 0) ∧
        t.get R.VER_LOG1.cause = e ∧ KMap.find (fun _ => 0) t.pinEnd k = 0 ∧ (t.log.head?.map LogEntry.code) = some E.VER_MISSING ∧
        ({ r with hdr := { r.hdr with poison := true } } : FlmRec) ∈ (t.flume f.toNat).recs) ∧
    (∀ (pd : BitVec 3) (sd gs : BitVec 5) (i : Nat), s.NoPending c (.verLook c pd sd gs) → s.vfind k ((s.s k gs).toNat % 2 ^ 32) = some i →
      (s.vst k i = verLIVE ∨ (s.vst k i = verDRAINING ∧ 0 < s.vcount k i)) → ∃ t, exec (.verLook c pd sd gs) s = .next t ∧
        s.Issued t k (s.pc k + 1) ∧ IssueFrame s t k ∧ t.p k pd = true ∧ t.s k sd = (if sd = 0 then 0 else BitVec.ofNat 64 i)) ∧
    (∀ (pd : BitVec 3) (sd gs : BitVec 5), s.NoPending c (.verLook c pd sd gs) → s.vfind k ((s.s k gs).toNat % 2 ^ 32) = none →
      ∃ t, exec (.verLook c pd sd gs) s = .next t ∧ s.Issued t k (s.pc k + 1) ∧ t.p k pd = decide (pd = 0) ∧
        t.get R.VER_LOG1.cause = (if (s.s k gs).toNat % 2 ^ 32 = 0 then 5 else 1) ∧ (∀ x : BitVec 5, t.s k x = s.s k x) ∧
        (t.log.head?.map LogEntry.code) = some E.VER_MISSING) ∧
    (∀ (gs : BitVec 5) (i : Nat), s.NoPending c (.verUnpin c gs) → s.vfind k ((s.s k gs).toNat % 2 ^ 32) = some i → s.vst k i ≠ verBUILDING →
      0 < s.vcount k i → ∃ t, exec (.verUnpin c gs) s = .next t ∧ s.Issued t k (s.pc k + 1) ∧ SameMem s t ∧
        ((s.vst k i = verLIVE ∨ 1 < s.vcount k i) → t.vcount k i = s.vcount k i - 1 ∧ t.vst k i = s.vst k i) ∧
        (s.vst k i = verDRAINING → s.vcount k i = 1 → s.get (R.VER_SLOT.refill k i) = 0 → t.vst k i = verFREE)) ∧
    (∀ (ad : BitVec 4) (ss is : BitVec 5), s.NoPending c (.verBase c ad ss is) → let i := (s.s k ss).toNat % 4
      let j := (s.s k is).toNat % 256
      s.vst k i ≠ verFREE → j < s.get (R.VER_SLOT.nlayers k i) → ∃ t, exec (.verBase c ad ss is) s = .next t ∧ s.Issued t k (s.pc k + 1) ∧
        IssueFrame s t k ∧ t.a k ad.toNat = BitVec.ofNat 48 (s.get (R.VER_LBASE.base k i j)))) ∧
  (∀ (s : State) (c : SlotCtl), s.Alone c → c.slot = 3 → s.NoLoopEnd (seqKey c) → s.halfInReset (halfOfDie c.die.val) = false →
    let k := seqKey c
    (∀ (sd gs : BitVec 5) (pd : BitVec 3) (i : Nat), let g := (s.s k gs).toNat % 2 ^ 32
      s.get (R.VER_HDR.top k) < g → i < 4 → s.vst k i = verFREE → (∀ j, j < i → s.vst k j ≠ verFREE) →
      let after := fun t : State => s.Issued t k (s.pc k + 1) ∧ SameMem s t ∧ t.vst k i = verBUILDING ∧ t.vgen k i = g ∧ t.vcount k i = 0 ∧
        t.get (R.VER_HDR.top k) = g ∧ t.s k sd = (if sd = 0 then 0 else BitVec.ofNat 64 i) ∧ ∀ j, j < 4 → j ≠ i → t.vst k j = s.vst k j
      (s.NoPending c (.verBuild c sd gs) → ∃ t, exec (.verBuild c sd gs) s = .next t ∧ after t) ∧
      (s.NoPending c (.verTbuild c sd gs pd) → ∃ t, exec (.verTbuild c sd gs pd) s = .next t ∧ after t ∧ t.p k pd = true)) ∧
    (∀ (sd gs : BitVec 5), s.NoPending c (.verBuild c sd gs) → (s.s k gs).toNat % 2 ^ 32 ≤ s.get (R.VER_HDR.top k) →
      exec (.verBuild c sd gs) s = .next (s.takeExc k 3 (exc E.VER_GEN_ORDER ((s.s k gs).toNat % 2 ^ 32)))) ∧
    (∀ (ss : BitVec 5), let i := (s.s k ss).toNat % 4
      s.vst k i = verBUILDING →
      (s.NoPending c (.verLive c ss) → s.layersBad (s.seqCtx k) k i = false → ∃ t, exec (.verLive c ss) s = .next t ∧
        s.Issued t k (s.pc k + 1) ∧ SameMem s t ∧ t.vst k i = verLIVE ∧ t.get (R.VER_SLOT.nlayers k i) = s.sget (R.VER_SLOT.nlayers k i) ∧
        (∀ j, j < 240 → t.get (R.VER_LBASE.base k i j) = s.sget (R.VER_LBASE.base k i j)) ∧
        (s.vgen k i = s.get (R.VER_CUR.gen k) → t.get (R.VER_HDR.bar_hold k) = 0)) ∧
      (s.NoPending c (.verDrop c ss) → ∃ t, exec (.verDrop c ss) s = .next t ∧ s.Issued t k (s.pc k + 1) ∧ SameMem s t ∧ t.vst k i = verFREE ∧ SameSeqsBut s t k) ∧
      (∀ (is : BitVec 5) (ab : BitVec 4), s.NoPending c (.verLb c ss is ab) → (s.s k is).toNat % 256 < 240 →
        ∃ t, exec (.verLb c ss is ab) s = .next t ∧ IssueFrame s { t with shadow := s.shadow } k ∧ s.Issued t k (s.pc k + 1) ∧
          t.sget (R.VER_LBASE.base k i ((s.s k is).toNat % 256)) = (s.a k ab.toNat).toNat) ∧
      (∀ (ns : BitVec 5), s.NoPending c (.verNl c ss ns) → ∃ t, exec (.verNl c ss ns) s = .next t ∧
        IssueFrame s { t with shadow := s.shadow } k ∧ s.Issued t k (s.pc k + 1) ∧
        t.sget (R.VER_SLOT.nlayers k i) = (s.s k ns).toNat % 256)))

/-- R173, R175, R180, R182 to R185, R188, R191, R193, R440, R455: VER.ADMIT pins the LIVE slot of the generation in force and, without close, changes nothing else of the table (a pointer pending while none is in force comes in first); VER.ADM
makes a pointer pending, or is refused with CFG_COMMIT, and VER_CSTAT says which; VER.SW drains the older LIVE slots when a slot holds the generation. The register commands on a version table: the admit pointer written by its owner, and VER_CMD live (refused with CFG_COMMIT while the context is leaving, R440) and drop. Where the spec is silent or can be read two ways, the clauses rest on log entries 7, 44, 152 (the model's choice). -/
def Obligations.VersionAdmitSwitchAndCommands : Prop :=
  (∀ (s : State) (c : SlotCtl), s.Alone c → c.slot = 3 → s.NoLoopEnd (seqKey c) → s.halfInReset (halfOfDie c.die.val) = false →
    let k := seqKey c
    (∀ (sd : BitVec 5) (i : Nat), s.NoPending c (.verAdmit c sd false) → s.get (R.VER_HDR.entry k) = 1 →
      let u := if s.get (R.VER_ADMIT.pend k) = 1 ∧ s.get (R.VER_CUR.gen k) = 0 then s.pointerIn k else s
      u.gateHeld k = false → u.get (R.VER_HDR.bar_hold k) = 0 → u.admitSlot k = some i → u.vcount k i < 65535 → let g := u.get (R.VER_CUR.gen k)
      ∃ t, exec (.verAdmit c sd false) s = .next t ∧ s.Issued t k (s.pc k + 1) ∧ SameMem s t ∧ t.vcount k i = u.vcount k i + 1 ∧
        t.s k sd = (if sd = 0 then 0 else BitVec.ofNat 64 g) ∧ (t.seq k).ob.gen = g ∧ (t.seq k).ob.slot = i ∧
        (t.seq k).ob.group = s.get (R.VER_CUR.group k) ∧ t.get (R.VER_CUR.gen k) = g ∧ t.get (R.VER_CUR.group k) = s.get (R.VER_CUR.group k)) ∧
    (∀ (sd : BitVec 5) (close : Bool), s.NoPending c (.verAdmit c sd close) → s.get (R.VER_HDR.entry k) = 0 →
      exec (.verAdmit c sd close) s = .next (s.takeExc k 3 (exc E.VER_ENTRY k))) ∧
    (∀ (gs : BitVec 5) (b : Bool), s.NoPending c (.verAdm c gs b) → let g := (s.s k gs).toNat % 2 ^ 32
      s.get (R.VER_HDR.entry k) = 1 → s.get (R.VER_CUR.gen k) < g → s.get (R.VER_HDR.bar_hold k) = 0 →
      (if b then s.get (R.VER_HDR.top k) < g else ∃ i, s.vfind k g = some i ∧ s.vst k i = verLIVE) →
      ∃ t, exec (.verAdm c gs b) s = .next t ∧ s.Issued t k (s.pc k + 1) ∧ SameMem s t ∧ t.get (R.VER_ADMIT.gen k) = g ∧
        t.get (R.VER_ADMIT.barrier k) = b2n b ∧ t.get (R.VER_ADMIT.pend k) = 1 ∧ t.get (R.VER_CUR.gen k) = s.get (R.VER_CUR.gen k) ∧
        t.get R.VER_CSTAT.result = 1 ∧ t.get R.VER_CSTAT.stage = k) ∧
    (∀ (gs : BitVec 5) (b : Bool), s.NoPending c (.verAdm c gs b) → let g := (s.s k gs).toNat % 2 ^ 32
      s.get (R.VER_HDR.entry k) = 1 → s.admitOk k g b = false →
      exec (.verAdm c gs b) s = .next ((s.verResult k 2).takeExc k 3 (exc E.CFG_COMMIT g))) ∧
    (∀ (gs : BitVec 5) (i : Nat), s.NoPending c (.verSw c gs) → let g := (s.s k gs).toNat % 2 ^ 32
      s.get (R.VER_HDR.entry k) = 0 → s.get (R.VER_CUR.gen k) < g → i < 4 → s.vgen k i = g → (s.vst k i = verLIVE ∨ s.vst k i = verBUILDING) →
      ∃ t, exec (.verSw c gs) s = .next t ∧ s.Issued t k (s.pc k + 1) ∧ SameMem s t ∧ t.get (R.VER_CUR.gen k) = g ∧
        ∀ j, j < 4 → t.vcount k j = s.vcount k j ∧ t.vgen k j = s.vgen k j ∧
          t.vst k j = (if s.vst k j = verLIVE ∧ s.vgen k j < g then (if s.vcount k j = 0 then verFREE else verDRAINING) else s.vst k j))) ∧
  (∀ (s : State) (l : Fin 96), let n := l.val
    s.Open → s.halfInReset (halfOfDie (n / 4)) = false →
    (∀ (m : Master) (g : BitVec 32) (b : Bool), s.owns m 2 = true → ∃ t, exec (.verAdmitWrite m l g b) s = .next t ∧
      t.get R.VER_CSTAT.stage = n ∧ SameMem s t ∧ if s.admitOk n g.toNat b then t.get (R.VER_ADMIT.gen n) = g.toNat ∧
        t.get (R.VER_ADMIT.barrier n) = b2n b ∧ t.get (R.VER_ADMIT.pend n) = 1 ∧ t.get R.VER_CSTAT.result = 1
      else t.get (R.VER_ADMIT.gen n) = s.get (R.VER_ADMIT.gen n) ∧ t.get (R.VER_ADMIT.pend n) = s.get (R.VER_ADMIT.pend n) ∧
        t.get R.VER_CSTAT.result = 2) ∧
    (∀ (m : Master) (g : BitVec 32) (b : Bool), s.owns m 2 = false → ∃ t, exec (.verAdmitWrite m l g b) s = .next t ∧
      t.get (R.VER_ADMIT.gen n) = s.get (R.VER_ADMIT.gen n) ∧ t.get (R.VER_ADMIT.pend n) = s.get (R.VER_ADMIT.pend n) ∧
      t.get R.OWN_LOG.count = min (s.get R.OWN_LOG.count + 1) (2 ^ R.OWN_LOG.count.w - 1) ∧ (t.log.head?.map LogEntry.code) = some E.CFG_OWNER) ∧
    (∀ sl : Fin 4, s.vst n sl.val = verBUILDING → (s.seqBound n = true → s.leaving (s.seqCtx n) = false) → s.layersBad (s.seqCtx n) n sl.val = false →
      ∃ t, exec (.verCmdLive l sl) s = .next t ∧ t.vst n sl.val = verLIVE ∧ t.get R.VER_CSTAT.result = 1 ∧ SameMem s t) ∧
    (∀ sl : Fin 4, s.vst n sl.val = verBUILDING → s.seqBound n = true → s.leaving (s.seqCtx n) = true →
      ∃ t, exec (.verCmdLive l sl) s = .next t ∧ t.vst n sl.val = verBUILDING ∧ t.get R.VER_CSTAT.result = 2 ∧ SameMem s t ∧
        (t.log.head?.map LogEntry.code) = some E.CFG_COMMIT) ∧
    (∀ sl : Fin 4, s.vst n sl.val = verBUILDING → ∃ t, exec (.verCmdDrop l sl) s = .next t ∧ t.vst n sl.val = verFREE ∧
      t.get R.VER_CSTAT.result = 1 ∧ SameMem s t ∧ t.seqs = s.seqs) ∧
    (∀ sl : Fin 4, s.vst n sl.val ≠ verBUILDING → ∃ t u, exec (.verCmdLive l sl) s = .next t ∧ exec (.verCmdDrop l sl) s = .next u ∧
      t.vst n sl.val = s.vst n sl.val ∧ u.vst n sl.val = s.vst n sl.val ∧ t.get R.VER_CSTAT.result = 3 ∧ u.get R.VER_CSTAT.result = 3) ∧
    (∀ i, i < 4 → s.pinWaits n i = true → ∃ t, exec (.verPinTimeout l) s = .next t ∧ KMap.find (fun _ => 0) t.pinEnd n = 4 ∧
      SameMem s t ∧ t.regs = s.regs))

/-- R256: VAR.LOOK returns the adapter address and rank of a valid variant and fails otherwise; VAR.CNT adds 1 to its count, which saturates. Where the spec is silent or can be read two ways, the clauses rest on log entry 7 (the model's choice). -/
def Obligations.VariantInstructions : Prop :=
  ∀ (s : State) (c : SlotCtl) (ad : BitVec 4) (sd vs : BitVec 5) (pd : BitVec 3), s.Alone c → c.slot = 3 → s.NoLoopEnd (seqKey c) →
    let k := seqKey c
    let v := (s.s k vs).toNat % 4096
    (s.NoPending c (.varLook c ad sd pd vs) → s.get (R.VAR_ENT.valid k v) = 1 → ∃ t, exec (.varLook c ad sd pd vs) s = .next t ∧
      s.Issued t k (s.pc k + 1) ∧ IssueFrame s t k ∧ t.p k pd = true ∧ t.a k ad.toNat = BitVec.ofNat 48 (s.get (R.VAR_ENT.addr k v)) ∧
      t.s k sd = (if sd = 0 then 0 else BitVec.ofNat 64 (s.get (R.VAR_ENT.rank k v)))) ∧
    (s.NoPending c (.varLook c ad sd pd vs) → s.get (R.VAR_ENT.valid k v) = 0 → ∃ t, exec (.varLook c ad sd pd vs) s = .next t ∧
      s.Issued t k (s.pc k + 1) ∧ IssueFrame s t k ∧ t.p k pd = decide (pd = 0) ∧ (t.seq k).a = (s.seq k).a ∧ (t.seq k).s = (s.seq k).s) ∧
    (s.NoPending c (.varCnt c vs) → ∃ t, exec (.varCnt c vs) s = .next t ∧ s.Issued t k (s.pc k + 1) ∧ SameMem s t ∧ SameSeqsBut s t k ∧
      t.get (R.VAR_ENT.count k v) = min (s.get (R.VAR_ENT.count k v) + 1) (2 ^ 32 - 1) ∧
      ∀ u, u < 4096 → u ≠ v → t.get (R.VAR_ENT.count k u) = s.get (R.VAR_ENT.count k u))

/-! ## The arrays, the sap lines and the glaze units -/

/-- R78, R83, R238 to R241: the array instructions of a sequencer. An accepted MMA or MMA.Q joins the queue of its target with what its descriptor
says, or changes nothing when M, N or K is 0; RAFT.SET forms and dissolves a raft; QTR.SET quarters an array. Where the spec is silent or can be read two ways, the clauses rest on log entries 7, 23, 34, 147, 148 (the model's choice). -/
def Obligations.ArrayInstructions : Prop :=
  ∀ (s : State) (c : SlotCtl), s.Alone c → c.slot = 1 → s.NoLoopEnd (seqKey c) →
    let k := seqKey c
    let n := c.die.val
    let q := c.q.val
    (∀ (i : Instr) (fa fb : BitVec 4) (t : BitVec 5) (init : Bool) (sd : BitVec 5) (quad : Option Nat),
      (i = .mma c fa fb t init sd ∧ quad = none ∨ ∃ qd, i = .mmaQ c fa fb t init sd qd ∧ quad = some qd.toNat) →
      let d := prodDescOf (s.ts n (descOff s k sd) 64)
      let g := s.target k t.toNat quad
      (s.Accepts c i → ∃ u, exec i s = .next u ∧ s.Issued u k (s.pc k + 1) ∧ SameMem s u ∧ SameSeqsBut s u k ∧ SameFiles s u k ∧ u.tiles = s.tiles ∧
        (if d.M = 0 ∨ d.N = 0 ∨ d.K = 0 then IssueFrame s u k
         else ∃ o, (u.arr n g.home).ops = (s.arr n g.home).ops ++ [o] ∧ o.seq = k ∧ o.fa = fa.toNat ∧ o.fb = fb.toNat ∧ o.t = t.toNat ∧
           o.M = d.M ∧ o.N = d.N ∧ o.K = d.K ∧ o.init = init ∧ o.raft = g.raft ∧ o.quad = quad ∧ o.a = d.a ∧ o.b = d.b ∧ o.loaded = 0 ∧
           o.pass = 0 ∧ o.row = 0 ∧ ∀ m a, a < 8 → (m ≠ n ∨ a ≠ g.home) → u.arr m a = s.arr m a)) ∧
      (s.NoPending c i → descOff s k sd % 64 ≠ 0 → exec i s = .next (s.takeExc k 1 (exc E.SEQ_TS_ALIGN (descOff s k sd)))) ∧
      (s.NoPending c i → firstExc (descAddr s n (descOff s k sd)) = none → s.tsWait k [(descOff s k sd, descOff s k sd + 64)] [] = 0 →
        d.bad = false → (12 ≤ fa.toNat ∨ 12 ≤ fb.toNat) →
        exec i s = .next (s.takeExc k 1 (exc E.MMA_FMT_CODE (16 * fa.toNat + fb.toNat))))) ∧
    (∀ size : BitVec 4, let z := size.toNat
      let was := s.raftOf n q
      (s.Accepts c (.raftSet c size) → ∃ u, exec (.raftSet c size) s = .next u ∧ s.Issued u k (s.pc k + 1) ∧ SameMem s u ∧ u.raftOf n q = z ∧
        (z = was → IssueFrame s u k) ∧
        (z ≠ was → z = 1 → ∀ a ∈ raftMembers q was, (u.arr n a).level = (s.arr n (raftHome q was)).level ∧ (u.arr n a).ops = (s.arr n a).ops ∧
          (u.arr n a).quartered = (s.arr n a).quartered) ∧
        (z ≠ was → z ≠ 1 → (u.arr n (raftHome q z)).level = (raftMembers q z).foldl (fun m a => min m (s.arr n a).level) 8)) ∧
      (z = 0 → exec (.raftSet c size) s = .next (s.takeExc k 1 (exc E.CFG_ZERO 0))) ∧
      (z ∉ [0, 1, 2, 4, 8] → exec (.raftSet c size) s = .next (s.takeExc k 1 (exc E.MMA_RAFT_SHAPE z)))) ∧
    (∀ hi on : Bool, let a := 2 * q + b2n hi
      (s.Accepts c (.qtrSet c hi on) → ∃ u, exec (.qtrSet c hi on) s = .next u ∧ s.Issued u k (s.pc k + 1) ∧ SameMem s u ∧
        u.arr n a = { s.arr n a with quartered := on } ∧ ∀ m b, b < 8 → (m ≠ n ∨ b ≠ a) → u.arr m b = s.arr m b) ∧
      (s.works n a = false → exec (.qtrSet c hi on) s = .next (s.takeExc k 1 (exc E.MMA_ARRAY_OFF a))))

/-- R68, R72, R73, R93, R94, R97: the events of a running array: a B chunk is held, a pass begins, an operand row is admitted, its accumulators are
written, the level steps under the level limit, filler is admitted and ends; a member of a raft acts in the array that carries the raft's queue and level (R96). Where the spec is silent or can be read two ways, the clauses rest on log entries 8, 23, 105, 150 (the model's choice). -/
def Obligations.ArrayProgress : Prop :=
  ∀ (s : State) (die : Fin 24) (ar : Fin 8), let n := die.val
    let a := s.homeArr n ar.val
    let x := s.arr n a
    let lim := s.levelLimit n
    let g := s.get (R.MMA_CTL.ramp_len n)
    (∀ (qd : Fin 4) pre o post, nextLoad qd.val x.ops = some (pre, o, post) → s.tsFree o.seq o.ino (o.b.spans o.fb o.xb o.N o.K) [] = true →
      ∃ t, exec (.bChunkLoaded die ar qd) s = .next t ∧ SameMem s t ∧ t.seqs = s.seqs ∧ t.tiles = s.tiles ∧
        (let cols := (List.range o.N).map (fun j => (s.readRow n o.fb o.xb o.b j (o.blocks o.loaded)).1)
        (t.arr n a).ops = pre ++ { o with loaded := o.loaded + 1, chunks := o.chunks ++ [⟨o.loaded, cols⟩] } :: post)) ∧
    (∀ (qd : Fin 4) pre o post, nextRows qd.val x.ops = some (pre, o, post) → o.pass < o.passes → (o.pass = 0 ∨ o.row = o.M) →
      (∃ c ∈ o.chunks, c.pass = o.pass) → exec (.passBegin die ar qd) s = .next (s.setArr n a { x with ops :=
        pre ++ { o with pass := o.pass + 1, row := 0, chunks := o.chunks.filter (fun c => decide (o.pass ≤ c.pass)) } :: post })) ∧
    (∀ pre o post, x.quartered = false → nextRows 0 x.ops = some (pre, o, post) → 0 < o.pass → o.row < o.M →
      KMap.find (fun _ => 0) x.quadNext 0 ≤ s.now → s.tsFree o.seq o.ino (o.a.spans o.fa o.xa o.M o.K) [] = true → s.mayAdmit n x = true →
      ∃ t, exec (.operandRowAdmit die ar) s = .next t ∧
        SameMem s t ∧ t.seqs = s.seqs ∧ t.tiles = s.tiles ∧ (t.arr n a).ops = pre ++ (s.admitRow n o).1 :: post ∧
        (t.arr n a).nextAdmit = s.now + 1 ∧ KMap.find (fun _ => 0) (t.arr n a).quadNext 0 = s.now + o.cost ∧
        ∀ b ∈ s.gang n a, s.Counted t (R.MMA_ACT.count n b) 1) ∧
    (∀ (qd : Fin 4) pre o post f fs, nextUpdate qd.val x.ops = some (pre, o, post) → o.flight = f :: fs → ∃ t,
      exec (.accumulatorUpdate die ar qd) s = .next t ∧ SameMem s t ∧ t.seqs = s.seqs ∧
        (t.arr n a).ops = pre ++ (if o.admitted ∧ fs = [] then post else { o with flight := fs } :: post) ∧
        (s.tileBad = [] → o.quad = none → o.raft = 1 → ∀ j, j < o.N → j < f.vals.length → t.tile n a (o.t % 16) f.m j =
          accChain (if f.pass = 1 ∧ o.init = false then 0 else s.tile n a (o.t % 16) f.m j) (f.vals.getD j []))) ∧
    (0 < lim → x.g / 8 ≤ x.acLvl → x.mode = .rising → x.level < lim →
      (x.level < 7 → exec (.activityLevelStep die ar) s = .next (s.setArr n a { x with level := x.level + 1, acLvl := 0 })) ∧
      (7 ≤ x.level → ∃ t, exec (.activityLevelStep die ar) s = .next t ∧ (t.arr n a).level = x.level + 1 ∧ (t.arr n a).acLvl = 0 ∧
        ((t.arr n a).mode = .full ∨ (t.arr n a).mode = .falling) ∧ (t.arr n a).ops = x.ops ∧ { t with arrs := s.arrs } = s)) ∧
    (0 < lim → x.g / 8 ≤ x.acLvl → x.mode = .falling → exec (.activityLevelStep die ar) s =
      .next (s.setArr n a (if 1 < x.level then { x with level := x.level - 1, acLvl := 0 }
        else if x.anyReady then { x with level := 1, mode := .rising, sum8 := 1, adm := 0, acLvl := 1, g := g, noRowAc := 0, filling := false }
        else { x with level := x.level - 1, acLvl := 0, mode := .idle }))) ∧
    ((lim = 0 ∨ x.acLvl < x.g / 8 ∨ x.mode = .idle ∨ x.mode = .full ∨ (x.mode = .rising ∧ lim ≤ x.level)) →
      exec (.activityLevelStep die ar) s = .next (s.setArr n a x)) ∧
    (s.get (R.MMA_CTL.filler_en n) = 1 → x.anyReady = false → s.mayAdmit n x = true → ∃ t, exec (.fillerOperation die ar) s = .next t ∧
      t.arr n a = { x with adm := x.adm + 1, nextAdmit := s.now + 1 } ∧ SameMem s t ∧ t.seqs = s.seqs ∧ t.tiles = s.tiles ∧
      ∀ b ∈ s.gang n a, s.Counted t (R.MMA_FILL.count n b) 1) ∧
    (s.get (R.MMA_CTL.filler_en n) = 1 → 256 ≤ x.noRowAc → (x.mode = .rising ∨ x.mode = .full) → exec (.fillerIdleTimeout die ar) s =
      .next (s.setArr n a { x with mode := .falling, filling := true, sum8 := 0, adm := 0, acLvl := 0, g := g }))

/-- R87 to R92, R110, R119, R121, R217, R245, R246, R247: SAP.MV takes the sap line, or only signals when it is empty; the copy of X, a weight step, the write of a group's Y values
and the completion, which frees the line and signals. GLZ.RUN and GLZ.TBL join the queue of the sequencer's unit; the unit starts a chain, lets a group enter, writes a
group, completes a chain and replaces a lookup table. Where the spec is silent or can be read two ways, the clauses rest on log entries 24, 28, 29, 106, 107, 108, 109, 110, 111, 148, 150, 151 (the model's choice). -/
def Obligations.SapLineAndGlazeUnits : Prop :=
  ((∀ (s : State) (c : SlotCtl) (fw fx : BitVec 4) (init : Bool) (sd : BitVec 5) (cen : Bool) (e : BitVec 3), s.Alone c → c.slot = 1 →
    s.NoLoopEnd (seqKey c) → s.Accepts c (.sapMv c fw fx init sd cen e) →
    let k := seqKey c
    let n := c.die.val
    let d := sapDescOf (s.ts n (descOff s k sd) 64)
    ∃ t, exec (.sapMv c fw fx init sd cen e) s = .next t ∧ s.Issued t k (s.pc k + 1) ∧ SameMem s t ∧ SameSeqsBut s t k ∧ SameFiles s t k ∧
      if d.V = 0 ∨ d.N = 0 ∨ d.K = 0 then s.Signalled t k cen e.toNat ∧ t.saps = s.saps
      else t.seq k = { s.seq k with past := (t.seq k).past } ∧ (t.sap n).last = c.q.val ∧ ∃ o, (t.sap n).op = some o ∧ o.seq = k ∧
        o.fw = fw.toNat ∧ o.fx = fx.toNat ∧ o.init = init ∧ o.V = d.V ∧ o.N = d.N ∧ o.K = d.K ∧ o.w = d.w ∧ o.ws = d.ws ∧ o.x = d.x ∧ o.y = d.y ∧
        o.cen = cen ∧ o.e = e.toNat ∧ o.xv = none ∧ o.group = 0 ∧ o.kb = 0) ∧
  ∀ (s : State) (die : Fin 24) (o : SapOp), let n := die.val
    let nb := ceilDiv o.K 32
    let g := sapG o.fw o.fx
    (s.sap n).op = some o →
    (o.xv = none → ∃ t, exec (.sapVectorCopied die) s = .next t ∧ SameMem s t ∧ t.seqs = s.seqs ∧ ∃ xv, (t.sap n).op = some { o with xv := some xv } ∧
      xv = (List.range o.V).map (fun v => (s.readRow n o.fx none ⟨o.x, o.xs, o.xsc, nb, 0⟩ v (List.range nb)).1)) ∧
    (∀ xv, o.xv = some xv → o.kb < nb → o.group < ceilDiv o.N g → s.unitMay n (48 + n) = true → ∃ t b,
      exec (.sapWeightStep die) s = .next t ∧ (∀ a, t.byte a = s.byte a) ∧ t.seqs = s.seqs ∧ (o.bad = true → b = true) ∧
      (t.sap n).op = some { o with kb := o.kb + 1, bad := b, acc := (List.range o.V).map (fun v =>
        let start := if o.kb = 0 then (List.range o.rows).map (fun r => s.sapStart n o v r) else o.acc.getD v []
        match (xv.getD v [])[o.kb]? with
        | none => start
        | some xb => List.zipWith (fun y (w : Blk × Nat) => accAdd y (blockValue o.fw o.fx w.1 xb)) start
            ((List.range o.rows).map (fun r => s.sapBlk o ((o.group * nb + o.kb) * g + r)))) }) ∧
    (o.xv ≠ none → o.kb = nb → ∃ t, exec (.sapGroupWrite die) s = .next t ∧ t.seqs = s.seqs ∧
      (t.sap n).op = some { o with group := o.group + 1, kb := 0, bad := false, acc := [] } ∧
      ∀ vs, o.acc = [vs] → let y := tileBase n + o.y + 4 * (o.group * g)
        let bs := vs.flatMap (fun v => leBytes 4 (if o.bad then canonNaN else v).toNat)
        s.badIn y bs.length = [] → (∀ i, i < bs.length → t.byte (y + i) = bs.getD i 0) ∧ SameMemBut s t y bs.length) ∧
    (ceilDiv o.N g ≤ o.group → ∃ t, exec (.sapComplete die) s = .next t ∧ (t.sap n).op = none ∧ s.Signalled t o.seq o.cen o.e ∧ SameMem s t ∧
      t.regs = s.regs ∧ SameSeqsBut s t o.seq) ∧
    (o.group < ceilDiv o.N g → exec (.sapComplete die) s = .next s)) ∧
  ((∀ (s : State) (c : SlotCtl) (sd : BitVec 5) (cen : Bool) (e : BitVec 3), s.Alone c → c.slot = 2 → s.NoLoopEnd (seqKey c) →
    let k := seqKey c
    let n := c.die.val
    let v := c.q.val / 2
    let ch := (s.gDesc n (descOff s k sd)).chain s k (s.seq k).ino cen e.toNat
    (s.Accepts c (.glzRun c sd cen e) → ∃ t, exec (.glzRun c sd cen e) s = .next t ∧ s.Issued t k (s.pc k + 1) ∧ SameMem s t ∧ SameSeqsBut s t k ∧
      SameFiles s t k ∧ t.tiles = s.tiles ∧ (if ch.groups = 0 then s.Signalled t k cen e.toNat ∧ t.glzs = s.glzs
        else t.glz n v = { s.glz n v with queue := (s.glz n v).queue ++ [.chain ch] } ∧ s.Signalled t k false e.toNat)) ∧
    (∀ tb : BitVec 2, s.Accepts c (.glzTbl c tb sd cen e) → ∃ t, exec (.glzTbl c tb sd cen e) s = .next t ∧ s.Issued t k (s.pc k + 1) ∧
      SameMem s t ∧ SameSeqsBut s t k ∧ SameFiles s t k ∧ t.glz n v = { s.glz n v with queue := (s.glz n v).queue ++
        [.table { seq := k, ino := (s.seq k).ino, tbl := tb.toNat, addr := descOff s k sd, cen := cen, e := e.toNat }] }) ∧
    (s.NoPending c (.glzRun c sd cen e) → s.glzQueued k < 4 → descOff s k sd % 64 ≠ 0 →
      exec (.glzRun c sd cen e) s = .next (s.takeExc k 2 (exc E.SEQ_TS_ALIGN (descOff s k sd))))) ∧
  ∀ (s : State) (die : Fin 24) (v : Fin 2), let n := die.val
    let g := s.glz n v.val
    (∀ l rest, g.queue = .table l :: rest → g.run.all GlzItem.entered = true → s.tsFree l.seq l.ino [(l.addr, l.addr + 1024)] [] = true →
      ∃ t, exec (.glzTblComplete die v) s = .next t ∧ SameMem s t ∧ (t.glz n v.val).queue = rest ∧ (t.glz n v.val).run = g.run ∧
        s.Signalled t l.seq l.cen l.e ∧ (let a := tileBase n + l.addr
        ∀ i, KMap.find (fun _ => 0) (t.glz n v.val).luts i = if i / 256 = l.tbl then (if s.isBad (a + 4 * (i % 256)) then canonNaN
          else BitVec.ofNat 32 (s.le (a + 4 * (i % 256)) 4)) else KMap.find (fun _ => 0) g.luts i)) ∧
    (∀ c rest, g.queue = .chain c :: rest →
      exec (.glzChainStart die v) s = .next (s.setGlz n v.val { g with queue := rest, run := g.run ++ [.chain c] })) ∧
    (∀ pre c post, nextEnter g.run = some (pre, c, post) → s.unitMay n (2 * n + v.val) = true → c.seq / 4 = n →
      s.tsFree c.seq c.ino (c.srcs.flatMap (fun x => x.spans c.head.box)) [] = true → ∃ t, exec (.glzGroupEnter die v) s = .next t ∧ SameMem s t ∧
        t.seqs = s.seqs ∧ t.tiles = s.tiles ∧ s.Counted t (R.GLZ_ACT.count n v.val) 1 ∧
        let d := if c.entered = 0 then { c with rowVecs := c.readRows s } else c
        let lanes := (List.range 1024).map (fun l =>
          d.lane s (fun b i => KMap.find (fun _ => (0 : F32)) g.luts (256 * b + i)) (c.head.lane c.entered l).1 (c.head.lane c.entered l).2)
        (t.glz n v.val).run = pre ++ .chain { d with entered := c.entered + 1, flight := c.flight ++ [lanes] } :: post) ∧
    (∀ pre c post lanes rest, nextWrite g.run = some (pre, c, post) → c.flight = lanes :: rest → allWritten pre = true →
      s.tsFree c.seq c.ino [] c.writes = true → ∃ t d, exec (.glzGroupWrite die v) s = .next t ∧ t.seqs = s.seqs ∧
        (t.glz n v.val).run = pre ++ .chain d :: post ∧ d.written = c.written + 1 ∧ d.flight = rest ∧ d.entered = c.entered ∧ d.head = c.head ∧
        (c.sinks.all (fun x => decide (x.kind = 0)) = true → SameMem s t ∧ t.tiles = s.tiles ∧ t.regs = s.regs) ∧
        (∀ a, t.byte a = (s.writeGroup c lanes).byte a) ∧ t.tiles = (s.writeGroup c lanes).tiles) ∧
    (∀ c rest, g.run = .chain c :: rest → c.written = c.groups → s.tsFree c.seq c.ino [] c.head.redSpan = true → ∃ t,
      exec (.glzChainComplete die v) s = .next t ∧ (t.glz n v.val).run = rest ∧ (t.glz n v.val).queue = g.queue ∧ s.Signalled t c.seq c.cen c.e ∧
      (c.head.redOp = 0 → SameMem s t ∧ t.regs = s.regs) ∧
      (c.head.redOp ≠ 0 → let a := tileBase n + c.head.red
        let bs := ((List.range c.head.redCount).map (fun i => s.reduceOne c i)).flatMap (fun r => leBytes 4 r.1.toNat)
        s.badIn a bs.length = [] → (∀ i, i < bs.length → t.byte (a + i) = bs.getD i 0) ∧ SameMemBut s t a bs.length)))

/-! ## Sequencers from outside -/

/-- R158, R203, R204, R219, R221, R222: SEQ_CMD run, halt, step and unbind in the states that list them, and CFG_RANGE in the others. A step issues the bundle at the program
counter; one of four NOPs only advances it. A bundle that has waited SEQ_WDOG ticks raises SEQ_WAIT with its wait code; an operation that waits on a flume HELD for FLM_TMO
ticks ends with FLM_HELD. Where the spec is silent or can be read two ways, the clauses rest on log entries 9, 36, 149 (the model's choice). -/
def Obligations.SequencerCommandsAndWaits : Prop :=
  (∀ (s : State) (die : Fin 24) (q : Fin 4), let k := 4 * die.val + q.val
    s.Open → s.halfInReset (halfOfDie die.val) = false → s.dieOff die.val = false →
    ((s.seqState k = seqHALTED ∨ s.seqState k = seqFAULTED) → s.nbundles k ≠ 0 → ∃ t, exec (.seqCmdRun die q) s = .next t ∧
      t.seqState k = seqRUNNING ∧ t.pc k = s.pc k ∧ SameMem s t ∧ SameSeqsBut s t k ∧ SameFiles s t k) ∧
    ((s.seqState k = seqHALTED ∨ s.seqState k = seqFAULTED) → s.nbundles k = 0 → ∃ t, exec (.seqCmdRun die q) s = .next t ∧
      t.seqState k = seqHALTED) ∧
    (s.seqState k = seqRUNNING → ∃ t, exec (.seqCmdHalt die q) s = .next t ∧ t.seqState k = seqHALTED ∧ t.pc k = s.pc k ∧ SameMem s t ∧
      SameSeqsBut s t k ∧ SameFiles s t k ∧ (t.seq k).held = [] ∧ (t.seq k).staged = [] ∧ (t.seq k).dma = (s.seq k).dma) ∧
    (s.seqState k = seqHALTED → let r := s.fetchBundle die q
      let u := (s.stopIssue k).modSeq k (fun x => { x with stepping := true, fetchErr := r.2 })
      (s.nbundles k ≤ s.pc k → exec (.seqCmdStep die q) s = .next (u.takeExc k 0 (exc E.SEQ_PC (s.pc k)))) ∧
      (s.pc k < s.nbundles k → s.live = false → exec (.seqCmdStep die q) s = .next (u.modSeq k (fun x => { x with held := [r.1] }))) ∧
      (s.pc k < s.nbundles k → s.live = true → exec (.seqCmdStep die q) s = .next (u.tryBundle k r.1 true)) ∧
      (s.pc k < s.nbundles k → s.live = true → s.nbundles k ≤ 16384 → s.NoLoopEnd k → KMap.find (fun _ => (0 : BitVec 256)) (s.seq k).store (s.pc k) = 0 → ∃ t, exec (.seqCmdStep die q) s = .next t ∧
        t.seqState k = seqHALTED ∧ s.Issued t k (s.pc k + 1) ∧ SameMem s t ∧ SameSeqsBut s t k ∧ SameFiles s t k)) ∧
    ((s.seqState k = seqHALTED ∨ s.seqState k = seqFAULTED) → ∃ t, exec (.seqCmdUnbind die q) s = .next t ∧ t.seqState k = seqUNBOUND ∧
      t.pc k = 0 ∧ (t.seq k).store = [] ∧ t.nbundles k = 0 ∧ (∀ r, t.s k r = 0) ∧ SameMem s t ∧ SameSeqsBut s t k) ∧
    (∀ i, (i = .seqCmdHalt die q ∧ s.seqState k ≠ seqRUNNING ∨ i = .seqCmdStep die q ∧ s.seqState k ≠ seqHALTED ∨
      (i = .seqCmdRun die q ∨ i = .seqCmdUnbind die q) ∧ s.seqState k ≠ seqHALTED ∧ s.seqState k ≠ seqFAULTED) →
      ∃ t, exec i s = .next t ∧ t.seqState k = s.seqState k ∧ t.seqs = s.seqs ∧ SameMem s t ∧ (t.log.head?.map LogEntry.code) = some E.CFG_RANGE)) ∧
  ((∀ (s : State) (die : Fin 24) (q : Fin 4) (b : List Instr) (bs : List (List Instr)), let k := 4 * die.val + q.val
    (s.seq k).held = b :: bs →
    (0 < s.get (R.SEQ_WDOG.ticks die.val q.val) → ∃ t, exec (.seqWaitTimeout die q) s = .next t ∧
      t = s.takeExc k (s.waitSlot k b) (exc E.SEQ_WAIT (s.get (R.SEQ_STAT.wait die.val q.val))) ∧ (t.seq k).held = [] ∧
      s.ExcReported t k E.SEQ_WAIT (s.get (R.SEQ_STAT.wait die.val q.val)) ∧
      SameMem s t ∧ SameSeqsBut s t k) ∧
    (s.get (R.SEQ_WDOG.ticks die.val q.val) = 0 → exec (.seqWaitTimeout die q) s = .next s)) ∧
  ∀ (s : State) (f : Fin 8192),
    (s.flmState f.val ≠ flmHELD → exec (.flmHeldTimeout f) s = .next s) ∧
    (s.flmState f.val = flmHELD → ∃ t, exec (.flmHeldTimeout f) s = .next t ∧ SameMem s t ∧ t.flumes = s.flumes ∧
      ((∀ k, k < 96 → s.waitsFlume k f.val = none) → t.seqs = s.seqs) ∧
      ∀ k slot, k < 96 → s.waitsFlume k f.val = some slot → (t.seq k).held = [] ∧ s.ExcReported t k E.FLM_HELD f.val))

/-- R154, R201, R202, R203, R227, R455: a binding commit starts a load, unbinds or is refused with CFG_COMMIT; a load puts the image into the instruction store and its constants
into the tile store, or leaves the sequencer UNBOUND with the cause. SEQ_PC is written by its owner in HALTED or FAULTED only; the schedule registers while R154 opens them; otherwise the write
is dropped and logged. Where the spec is silent or can be read two ways, the clauses rest on log entry 37 (the model's choice). -/
def Obligations.SequencerBindingAndRegisters : Prop :=
  (∀ (s : State) (die : Fin 24) (q : Fin 4), let k := 4 * die.val + q.val
    let n := die.val
    (s.Open → s.halfInReset (halfOfDie n) = false → s.get (R.SEQ_BSTAT.busy n q.val) = 0 →
      (s.bindBad k = false → s.sget (R.SEQ_BIND.en n q.val) = 1 → ∃ t, exec (.seqBcommit die q) s = .next t ∧ t.seqState k = seqLOADING ∧
        t.get (R.SEQ_BSTAT.busy n q.val) = 1 ∧ t.get (R.SEQ_BSTAT.result n q.val) = 0 ∧ t.get (R.SEQ_IMG.img_addr n q.val) = s.sget (R.SEQ_IMG.img_addr n q.val) ∧
        t.seqCtx k = s.sget (R.SEQ_BIND.ctx n q.val) ∧ t.seqStage k = s.sget (R.SEQ_BIND.stage n q.val) ∧ SameMem s t ∧ SameSeqsBut s t k) ∧
      (s.bindBad k = false → s.sget (R.SEQ_BIND.en n q.val) = 0 → ∃ t, exec (.seqBcommit die q) s = .next t ∧ t.seqState k = seqUNBOUND ∧
        t.get (R.SEQ_BIND.en n q.val) = 0 ∧ t.get (R.SEQ_BSTAT.result n q.val) = 1 ∧ SameMem s t ∧ SameSeqsBut s t k)) ∧
    (s.Open → s.halfInReset (halfOfDie n) = false →
      (s.get (R.SEQ_BSTAT.busy n q.val) = 1 → s.seqState k ≠ seqLOADING → ∃ t, exec (.seqBcommit die q) s = .next t ∧ t.seqs = s.seqs ∧
        SameMem s t ∧ t.seqState k = s.seqState k ∧ (t.log.head?.map LogEntry.code) = some E.CFG_RANGE) ∧
      (s.bindBad k = true → s.get (R.SEQ_BSTAT.busy n q.val) = 0 ∨ s.seqState k = seqLOADING → ∃ t, exec (.seqBcommit die q) s = .next t ∧ t.seqState k = s.seqState k ∧ t.get (R.SEQ_BSTAT.result n q.val) = 2 ∧
        t.get (R.SEQ_BIND.en n q.val) = s.get (R.SEQ_BIND.en n q.val) ∧ t.seqCtx k = s.seqCtx k ∧ t.seqStage k = s.seqStage k ∧
        t.get (R.SEQ_IMG.img_addr n q.val) = s.get (R.SEQ_IMG.img_addr n q.val) ∧ t.seqs = s.seqs ∧ SameMem s t ∧
        (t.log.head?.map LogEntry.code) = some E.CFG_COMMIT)) ∧
    (s.seqState k = seqLOADING → KMap.find (fun _ => false) s.dieRst n = false →
      let a := s.get (R.SEQ_IMG.img_addr n q.val)
      let h := imgHeadOf (s.bytes a 128)
      let cs := tileBase n + h.constTs
      (s.loadCause k = (0, true) → s.badIn cs h.constLen = [] → ∃ t, exec (.seqLoadComplete die q) s = .next t ∧
        t.seqState k = (if k ∈ s.rerun ∧ 0 < h.nbundles then seqRUNNING else seqHALTED) ∧ (0 < h.nbundles → t.pc k = h.entry) ∧ t.nbundles k = h.nbundles ∧ t.get (R.SEQ_BSTAT.result n q.val) = 1 ∧
        t.get (R.SEQ_BSTAT.busy n q.val) = 0 ∧ (t.seq k).trapEn = h.trapEn ∧ (t.seq k).trap = h.trap ∧ (∀ r, t.s k r = 0) ∧
        (∀ i, i < h.nbundles → KMap.find (fun _ => (0 : BitVec 256)) (t.seq k).store i = BitVec.ofNat 256 (s.le (a + 128 + 32 * i) 32)) ∧
        (∀ i, i < h.constLen → t.byte (cs + i) = s.byte (a + 128 + 32 * h.nbundles + i)) ∧ SameMemBut s t cs h.constLen ∧ SameSeqsBut s t k) ∧
      (∀ cause b, s.loadCause k = (cause, b) → cause ≠ 0 → ∃ t, exec (.seqLoadComplete die q) s = .next t ∧ t.seqState k = seqUNBOUND ∧
        t.get (R.SEQ_BSTAT.result n q.val) = 3 ∧ t.get (R.SEQ_BSTAT.cause n q.val) = cause ∧ (t.seq k).store = [] ∧ t.nbundles k = 0 ∧
        (t.log.head?.map LogEntry.code) = some E.SEQ_IMAGE ∧ SameSeqsBut s t k ∧
        (if b = true then SameMemBut s t cs h.constLen else ∀ x, t.byte x = s.byte x)))) ∧
  (∀ (s : State) (die : Fin 24) (q : Fin 4), let k := 4 * die.val + q.val
    let n := die.val
    let c := q.val
    s.Open → s.halfInReset (halfOfDie n) = false → s.dieOff n = false →
    (∀ (m : Master) (pc : BitVec 14), s.owns m 0 = true →
      ((s.seqState k = seqHALTED ∨ s.seqState k = seqFAULTED) → ∃ t, exec (.seqPcWrite m die q pc) s = .next t ∧ t.pc k = pc.toNat ∧
        t.get (R.SEQ_PC.pc n c) = pc.toNat ∧ t.seqState k = s.seqState k ∧ SameMem s t ∧ SameSeqsBut s t k ∧ SameFiles s t k) ∧
      (s.seqState k ≠ seqHALTED → s.seqState k ≠ seqFAULTED → ∃ t, exec (.seqPcWrite m die q pc) s = .next t ∧ t.pc k = s.pc k ∧
        t.seqs = s.seqs ∧ SameMem s t ∧ (t.log.head?.map LogEntry.code) = some E.CFG_RANGE)) ∧
    (∀ (m : Master) (pc : BitVec 14), s.owns m 0 = false → ∃ t, exec (.seqPcWrite m die q pc) s = .next t ∧ t.pc k = s.pc k ∧
      t.seqs = s.seqs ∧ SameMem s t ∧ s.Counted t R.OWN_LOG.count 1 ∧ (t.log.head?.map LogEntry.code) = some E.CFG_OWNER) ∧
    (∀ (sel : Fin 5) (idx : BitVec 8) (v : BitVec 32), s.schedOpen k = true → ∃ t, exec (.schedRegisterWrite die q sel idx v) s = .next t ∧
      { t with regs := s.regs } = s ∧ match sel with
        | 0 => t.get (R.SCHED_BASE.base n c) = v.toNat
        | 1 => t.get (R.SCHED_COUNT.count n c) = v.toNat
        | 2 => t.get (R.SCHED_CTL.stride n c) = v.toNat / 2 ^ 24 ∧ t.get (R.SCHED_CTL.last n c) = v.toNat / 2 ^ 16 % 256 ∧
            t.get (R.SCHED_CTL.mode n c) = v.toNat % 4 ∧ t.get (R.SCHED_CTL.ptr n c) = 0
        | 3 => t.get (R.SCHED_ROUND.round n c) = v.toNat
        | 4 => t.get (R.SCHED_ENT.flume n c idx.toNat) = v.toNat / 2 ^ 16 % 2 ^ 13 ∧ t.get (R.SCHED_ENT.offset n c idx.toNat) = v.toNat % 2 ^ 16) ∧
    (∀ (sel : Fin 5) (idx : BitVec 8) (v : BitVec 32), s.schedOpen k = false → ∃ t, exec (.schedRegisterWrite die q sel idx v) s = .next t ∧
      t.seqs = s.seqs ∧ SameMem s t ∧ (∀ f, (f = R.SCHED_BASE.base n c ∨ f = R.SCHED_COUNT.count n c ∨ f = R.SCHED_ROUND.round n c ∨
        f = R.SCHED_CTL.mode n c ∨ f = R.SCHED_CTL.ptr n c ∨ f = R.SCHED_ENT.flume n c idx.toNat) → t.get f = s.get f) ∧
      (t.log.head?.map LogEntry.code) = some E.CFG_RANGE))

/-- R203, R220 to R223, R449, R537: a sequencer exception is logged and recorded in SEQ_EXC0 and SEQ_EXC1; nothing that waited behind it issues. With a trap
handler that does not run it saves its place in SR_EPC, SR_ECODE and SR_EINFO and runs the handler, otherwise the sequencer is FAULTED and CTX_FAULT says so. Where the spec is silent or can be read two ways, the clauses rest on log entry 32 (the model's choice). -/
def Obligations.TakingAnException : Prop :=
  ∀ (s : State) (die : Fin 24) (q : Fin 4) (slot : Fin 4) (x : Exc), let k := 4 * die.val + q.val
    let n := die.val
    let t := s.takeExc k slot.val x
    x.code < 2 ^ 16 → x.info < 2 ^ 64 → s.pc k < 2 ^ 14 → (s.seq k).trap < 2 ^ 14 → s.get (R.RAS_LOGHD.newest) < 2 ^ 32 - 1 →
    t.get (R.SEQ_STAT.wait n q.val) = 0 ∧ (t.seq k).staged = [] ∧ (t.seq k).held = [] ∧
    SameMem s t ∧ SameSeqsBut s t k ∧ SameFiles s t k ∧ t.get (R.RAS_LOGHD.newest) = s.get (R.RAS_LOGHD.newest) + 1 ∧
    (t.log.head?.map LogEntry.ctx) = some (some (s.seqCtx k)) ∧
    ((s.seq k).trapEn = true ∧ s.get (R.SEQ_STAT.in_trap n q.val) = 0 → t.get (R.SEQ_STAT.in_trap n q.val) = 1 ∧ t.pc k = (s.seq k).trap ∧
      (t.seq k).epc = s.pc k ∧ (t.seq k).ecode = x.code ∧ (t.seq k).einfo = x.info ∧ t.seqState k = s.seqState k) ∧
    t.get (R.SEQ_EXC0.code n q.val) = x.code ∧ t.get (R.SEQ_EXC0.slot n q.val) = slot.val ∧ t.get (R.SEQ_EXC0.pc n q.val) = s.pc k ∧
    t.get (R.SEQ_EXC1.info n q.val) = x.info ∧
    ((s.seq k).trapEn = false ∨ s.get (R.SEQ_STAT.in_trap n q.val) = 1 → t.seqState k = seqFAULTED ∧ t.pc k = s.pc k ∧ (t.seq k).epc = (s.seq k).epc ∧ (t.seq k).ecode = (s.seq k).ecode ∧ (t.seq k).einfo = (s.seq k).einfo ∧
      bit (t.get (R.CTX_FAULT.faulted (s.seqCtx k) (k / 64))) (k % 64) = true ∧ bit (t.get (R.CTX_EVT.events (s.seqCtx k))) 0 = true)

/-! ## The rings of the host -/

/-- R430, R439, R441, R442, R444, R448: doorbells move a tail or a head, or are ignored with CFG_RANGE; a ring commit is taken or refused with CFG_COMMIT;
a fetched entry joins its ring. Where the spec is silent or can be read two ways, the clauses rest on log entry 69 (the model's choice). -/
def Obligations.Rings : Prop :=
  ∀ (s : State) (c : Fin 64) (q : Fin 16), let C := c.val
    let Q := q.val
    (∀ (size : BitVec 4) (v : BitVec 13), s.bellsOpen C = true →
      ((size = 4 ∨ size = 8) → s.get (R.SQ_CFG.en C Q) = 1 → v.toNat < s.get (R.SQ_CFG.size C Q) → ∃ t, exec (.sqDoorbell c q size v) s = .next t ∧
        t.get (R.SQ_CFG.tail C Q) = v.toNat ∧ SameMem s t ∧ t.seqs = s.seqs ∧ (t.sring C Q).cmds = (s.sring C Q).cmds) ∧
      ((size ≠ 4 ∧ size ≠ 8 ∨ s.get (R.SQ_CFG.en C Q) = 0 ∨ s.get (R.SQ_CFG.size C Q) ≤ v.toNat) → ∃ t, exec (.sqDoorbell c q size v) s = .next t ∧
        t.get (R.SQ_CFG.tail C Q) = s.get (R.SQ_CFG.tail C Q) ∧ (t.log.head?.map LogEntry.code) = some E.CFG_RANGE) ∧
      ((size = 4 ∨ size = 8) → s.get (R.CQ_CFG.en C Q) = 1 → v.toNat < s.get (R.CQ_CFG.size C Q) → ∃ t, exec (.cqDoorbell c q size v) s = .next t ∧
        t.get (R.CQ_CFG.head C Q) = v.toNat ∧ SameMem s t ∧ t.seqs = s.seqs ∧
        (t.cring C Q).since = (if v.toNat = s.get (R.CQ_CFG.tail C Q) then 0 else (s.cring C Q).since)) ∧
      ((size ≠ 4 ∧ size ≠ 8 ∨ s.get (R.CQ_CFG.en C Q) = 0 ∨ s.get (R.CQ_CFG.size C Q) ≤ v.toNat) → ∃ t, exec (.cqDoorbell c q size v) s = .next t ∧
        t.get (R.CQ_CFG.head C Q) = s.get (R.CQ_CFG.head C Q) ∧ (t.log.head?.map LogEntry.code) = some E.CFG_RANGE)) ∧
    (∀ (size : BitVec 4) (v : BitVec 13), s.bellsOpen C = false → exec (.sqDoorbell c q size v) s = .next s ∧ exec (.cqDoorbell c q size v) s = .next s) ∧
    (s.Open → s.get (R.RING_CSTAT.busy C) = 0 → ∀ cq : Bool,
      (s.ringBad C Q cq = false → ∃ t, exec (.ringCommit c cq q) s = .next t ∧ (∀ f ∈ ringGroup C Q cq, t.get f = s.sget f) ∧
        t.get (R.RING_CSTAT.result C) = 1 ∧ t.get (R.RING_CSTAT.ring C) = Q ∧ SameMem s t ∧ t.seqs = s.seqs ∧
        (cq = true → s.sget (R.CQ_CFG.en C Q) = 1 → t.get (R.CQ_CFG.head C Q) = 0 ∧ t.get (R.CQ_CFG.tail C Q) = 0 ∧ t.cring C Q = ⟨true, 0⟩) ∧
        (cq = false → s.sget (R.SQ_CFG.en C Q) = 1 → t.get (R.SQ_CFG.head C Q) = 0 ∧ t.get (R.SQ_CFG.tail C Q) = 0) ∧
        (cq = false → s.sget (R.SQ_CFG.en C Q) = 0 → (s.sring C Q).waits = true → (t.sring C Q).done = some (3, 0, 0))) ∧
      (s.ringBad C Q cq = true → ∃ t, exec (.ringCommit c cq q) s = .next t ∧ (∀ f ∈ ringGroup C Q cq, t.get f = s.get f) ∧
        t.get (R.RING_CSTAT.result C) = 2 ∧ SameMem s t ∧ t.seqs = s.seqs ∧ (t.log.head?.map LogEntry.code) = some E.CFG_COMMIT)) ∧
    (∀ e : BitVec 512, s.ringsRun C = true → s.get (R.SQ_CFG.en C Q) = 1 → 0 < (s.sring C Q).asked → 0 < s.get (R.SQ_CFG.size C Q) →
      let next := (s.get (R.SQ_CFG.head C Q) + 1) % s.get (R.SQ_CFG.size C Q)
      ∃ t, exec (.ringFetch c q [e]) s = .next t ∧ t.get (R.SQ_CFG.head C Q) = next ∧ SameMem s t ∧ t.seqs = s.seqs ∧
        (t.sring C Q).cmds = (s.sring C Q).cmds ++ [⟨KMap.find (fun _ => 0) s.fetched C, next, leBytes 64 e.toNat⟩] ∧
        KMap.find (fun _ => 0) t.fetched C = KMap.find (fun _ => 0) s.fetched C + 1)

/-- R432, R443, R446: NOP, COPY, FILL and FENCE at the head of a ring, and the host's answer to a COPY. Where the spec is silent or can be read two ways, the clauses rest on log entries 69, 116, 156 (the model's choice). -/
def Obligations.RingTransfers : Prop :=
  ∀ (s : State) (c : Fin 64) (q : Fin 16) (e : List Byte), let C := c.val
    let Q := q.val
    let a := rcDev e
    let n := fieldAt e 24 8
    let ends := fun (t : State) (st r0 : Nat) => (t.sring C Q).done = some (st, r0, 0) ∧ (t.sring C Q).waits = false ∧ t.seqs = s.seqs
    s.rcur C Q = some e → s.ringsRun C = true →
    ((s.sring C Q).io = false →
      (rcOp e = 0 → ∃ t, exec (.cmdNop c q) s = .next t ∧ ends t 0 0 ∧ SameMem s t ∧ t.regs = s.regs) ∧
      (rcOp e = 2 → n = 0 → ∃ t, exec (.cmdFill c q) s = .next t ∧ ends t 0 0 ∧ SameMem s t) ∧
      (rcOp e = 2 → 0 < n → n % 4 = 0 → s.permits C a n true = true → (∀ i, i < n → s.unavailable (a + i) = none) → s.badIn a n = [] →
        ∃ t, exec (.cmdFill c q) s = .next t ∧ ends t 0 n ∧ SameMemBut s t a n ∧
          ∀ i, i < n → t.byte (a + i) = BitVec.ofNat 8 (fieldAt e 32 4 / 256 ^ (i % 4))) ∧
      (rcOp e = 2 → 0 < n → s.permits C a n true = false → ∃ t, exec (.cmdFill c q) s = .next t ∧ ends t 32 0 ∧ SameMem s t ∧
        (t.log.head?.map LogEntry.code) = some E.SEC_PERM) ∧
      (rcOp e = 1 → 0 < n → bit (fieldAt e 32 1) 0 = true → s.permits C a n false = true → (s.fn C).bme = true →
        (∀ i, i < n → s.unavailable (a + i) = none) → s.readBad a n = [] → ∃ t, exec (.cmdCopy c q) s = .next t ∧ ends t 0 n ∧ SameMem s t ∧
          t.out.head? = some (.hostWrite C (fieldAt e 8 8) (s.bytes a n))) ∧
      (rcOp e = 1 → 0 < n → bit (fieldAt e 32 1) 0 = false → s.permits C a n true = true → (s.fn C).bme = true →
        ∃ t, exec (.cmdCopy c q) s = .next t ∧ (t.sring C Q).io = true ∧ SameMem s t ∧ t.out = .hostRead C (fieldAt e 8 8) n (16 + Q) :: s.out) ∧
      (rcOp e = 5 → ∀ r rs, (s.sring C Q).cmds = r :: rs →
        ((∀ i, i < 16 → ∀ x ∈ (s.sring C i).cmds, r.num ≤ x.num) → ∃ t, exec (.cmdFence c q) s = .next t ∧ ends t 0 0 ∧ SameMem s t) ∧
        (∀ i x, i < 16 → x ∈ (s.sring C i).cmds → x.num < r.num → ∃ t, exec (.cmdFence c q) s = .next t ∧ (t.sring C Q).waits = true ∧
          (t.sring C Q).done = none ∧ SameMem s t))) ∧
    ((s.sring C Q).io = true → rcOp e = 1 → ∀ data : List Byte,
      ((∀ i, i < data.length → s.unavailable (a + i) = none) → s.badIn a data.length = [] → ∃ t,
        exec (.hostReadCompletion c q true data) s = .next t ∧ ends t 0 data.length ∧ SameMemBut s t a data.length ∧
        ∀ i, i < data.length → t.byte (a + i) = data.getD i 0) ∧
      (∃ t, exec (.hostReadCompletion c q false data) s = .next t ∧ ends t 33 0 ∧ SameMem s t ∧
        (t.log.head?.map LogEntry.code) = some E.CFG_HOST_DMA))

/-- R140, R289, R441, R443, R444, R445, R446, R448: PUSH and POP at the head of a ring as the context's host stage, their try forms, and the commit of a PUSH when the host's data
has come. A completed command writes its entry to its completion ring when there is room, and the next command takes its place; the
coalescing timer raises the vector. Where the spec is silent or can be read two ways, the clauses rest on log entries 12, 69, 71, 156 (the model's choice). -/
def Obligations.RingRecordsAndCompletions : Prop :=
  (∀ (s : State) (c : Fin 64) (q : Fin 16) (e : List Byte), let C := c.val
    let Q := q.val
    let f := fieldAt e 8 2 % 8192
    let n := fieldAt e 24 4
    let o := hostOwner C Q
    s.rcur C Q = some e → s.ringsRun C = true →
    ((s.sring C Q).io = false → rcOp e = 3 → fieldAt e 28 4 ≤ 1048576 → s.hostCheck C f true = none → n ≤ s.get (R.FLM_DESC.rec_size f) * 4096 →
      (s.canPush f = true → (rcTry e = true → s.flmState f = flmOPEN) → s.slotRefused C f n = true → ∃ t, exec (.cmdPush c q) s = .next t ∧
        (t.sring C Q).done = some (32, 0, 0) ∧ SameMem s t ∧ t.flumes = s.flumes ∧ (t.log.head?.map LogEntry.code) = some E.SEC_PERM) ∧
      (s.canPush f = true → (rcTry e = true → s.flmState f = flmOPEN) → s.slotRefused C f n = false → (s.fn C).bme = true → ∃ t, exec (.cmdPush c q) s = .next t ∧
        (t.sring C Q).io = true ∧ (t.sring C Q).done = none ∧ SameMem s t ∧ t.flumes = (s.reserve o f).1.flumes ∧
        t.out.head? = some (.hostRead C (fieldAt e 16 8) (64 + n) (16 + Q))) ∧
      (rcTry e = true → (s.canPush f = false ∨ s.flmState f ≠ flmOPEN) → ∃ t, exec (.cmdPush c q) s = .next t ∧
        (t.sring C Q).done = some (2, 0, 0) ∧ SameMem s t ∧ t.flumes = s.flumes) ∧
      (rcTry e = false → s.canPush f = false → s.heldAtOnce f true = none → exec (.cmdPush c q) s = .next (s.rcWait C Q))) ∧
    ((s.sring C Q).io = true → rcOp e = 3 → ∀ (hdr pay : List Byte) (r : FlmRec), hdr.length = 64 →
      s.outCmtCheck C (s.get (R.CTX_HSTAGE.stage C)) o f (Hdr.ofNat (leNat hdr)) = none → (s.flume f).oldestResv o = some r →
      let a := s.slotAddr f r.spill r.slot
      (∀ i, i < pay.length → s.unavailable (a + i) = none) → s.badIn a pay.length = [] → ∃ t,
        let l := (s.flume f).back
        let i := l.findIdx (fun r => decide (r.owner = o) && !r.cmt)
        exec (.hostReadCompletion c q true (hdr ++ pay)) s = .next t ∧ (t.sring C Q).done = some (0, (s.get (R.FLM_SEQ.next_cmt f) + i) % 2 ^ 32, 0) ∧
        t.get (R.FLM_SEQ.next_cmt f) = (if i = 0 then (s.get (R.FLM_SEQ.next_cmt f) + 1 + ((l.drop 1).takeWhile (fun r => r.cmt)).length) % 2 ^ 32
          else s.get (R.FLM_SEQ.next_cmt f)) ∧ SameMemBut s t a pay.length ∧
        ∀ i, i < pay.length → t.byte (a + i) = pay.getD i 0) ∧
    ((s.sring C Q).io = false → rcOp e = 4 → s.hostCheck C f false = none →
      (∀ r, (s.flume f).readyHead = some r → (rcTry e = true → s.flmState f = flmOPEN) → r.hdr.len ≤ n → (s.fn C).bme = true →
        let a := s.slotAddr f r.spill r.slot
        (0 < r.hdr.len → s.permits C a r.hdr.len false = true) → (∀ i, i < r.hdr.len → s.unavailable (a + i) = none) → s.readBad a r.hdr.len = [] →
        exec (.cmdPop c q) s = .next ((((((s.noteUse (some C) a r.hdr.len).crossing a r.hdr.len).emit (.hostWrite C (fieldAt e 16 8) (r.hdr.bytes ++ s.bytes a r.hdr.len))).takeRec o f).releaseRec o f).rcEnd
          C Q 0 r.hdr.len r.hdr.rseq)) ∧
      (∀ r, (s.flume f).readyHead = some r → (rcTry e = true → s.flmState f = flmOPEN) → r.hdr.len ≤ n → 0 < r.hdr.len →
        s.permits C (s.slotAddr f r.spill r.slot) r.hdr.len false = false → ∃ t, exec (.cmdPop c q) s = .next t ∧
        (t.sring C Q).done = some (32, 0, 0) ∧ SameMem s t ∧ t.flumes = s.flumes ∧ (t.log.head?.map LogEntry.code) = some E.SEC_PERM) ∧
      ((s.flume f).readyHead = none → rcTry e = true → exec (.cmdPop c q) s = .next (s.rcEnd C Q 1 0 0)) ∧
      ((s.flume f).readyHead = none → rcTry e = false → s.heldAtOnce f true = none → exec (.cmdPop c q) s = .next (s.rcWait C Q)))) ∧
  (∀ (s : State) (c : Fin 64) (q : Fin 16), let C := c.val
    let Q := q.val
    (∀ r rs d, (s.sring C Q).cmds = r :: rs → (s.sring C Q).done = some d →
      let k := s.get (R.SQ_CFG.cq C Q)
      let n := s.get (R.CQ_CFG.size C k)
      let w := s.get (R.CQ_CFG.tail C k)
      (n = 0 → ∃ t, exec (.cqEntryWrite c q) s = .next t ∧ (t.sring C Q).cmds = rs ∧ SameMem s t ∧ t.get (R.CQ_CFG.tail C k) = w) ∧
      (0 < n → (s.fn C).bme = true → ringDist n (s.get (R.CQ_CFG.head C k)) w + 1 < n → ∃ t, exec (.cqEntryWrite c q) s = .next t ∧
        (t.sring C Q).cmds = rs ∧ SameMem s t ∧ t.seqs = s.seqs ∧ t.get (R.CQ_CFG.tail C k) = (w + 1) % n ∧
        Out.hostWrite C (s.get (R.CQ_CFG.base C k) * 64 + 32 * w) (complEntry r Q (s.cring C k).phase d) ∈ t.out ∧
        (t.cring C k).phase = (if w + 1 = n then !(s.cring C k).phase else (s.cring C k).phase)) ∧
      (0 < n → ((s.fn C).bme = false ∨ n ≤ ringDist n (s.get (R.CQ_CFG.head C k)) w + 1) → exec (.cqEntryWrite c q) s = .next s)) ∧
    (s.rcur C Q = none → ∀ i ∈ [.cmdNop c q, .cmdCopy c q, .cmdFill c q, .cmdPush c q, .cmdPop c q, .cmdFence c q], exec i s = .next s) ∧
    (0 < (s.cring C Q).since → s.get (R.CQ_CFG.coal_us C Q) ≠ 0 → s.get (R.CQ_CFG.coal_cnt C Q) ≠ 0 → ∃ t,
      exec (.cqCoalesceTimer c q) s = .next t ∧ (t.cring C Q).since = 0 ∧ SameMem s t ∧ t.regs = s.regs ∧ t.seqs = s.seqs ∧
      (s.mayVector C (s.get (R.CQ_CFG.vec C Q)) = true → t.out = .vector C (s.get (R.CQ_CFG.vec C Q)) :: s.out)) ∧
    (((s.cring C Q).since = 0 ∨ s.get (R.CQ_CFG.coal_us C Q) = 0 ∨ s.get (R.CQ_CFG.coal_cnt C Q) = 0) → exec (.cqCoalesceTimer c q) s = .next s))

/-! ## Links -/

/-- R398, R399, R405, R409, R412, R425, R426, R451, R549: a cage's mode is committed or refused and its links restart; a module that goes, or that draws too much, takes the locks of
its links with it. A channel's and a reduction route's staged fields are committed, or refused with CFG_COMMIT and kept. Where the spec is silent or can be read two ways, the clauses rest on log entries 8, 154 (the model's choice). -/
def Obligations.CagesAndLinkCommits : Prop :=
  ((∀ (s : State) (n : Fin 16), let m := s.sget (R.CAGE_CTL.mode n.val)
    s.Open → s.get R.CAGE_CSTAT.busy = 0 →
    (s.cageFitted n.val = true → s.halfInReset (n.val / 6) = false → m ≤ 4 → (m = s.get (R.CAGE_CTL.mode n.val) ∨ s.cageUsed n.val = false) → ∃ t,
      exec (.cageCommit n) s = .next t ∧ t.get (R.CAGE_CTL.mode n.val) = m ∧ t.get R.CAGE_CSTAT.result = 1 ∧ t.get R.CAGE_CSTAT.cage = n.val ∧
      t.get (R.SKW_LINK.state (2 * n.val)) = (if m = 1 ∨ m = 2 then 1 else 0) ∧ t.get (R.SKW_LINK.state (2 * n.val + 1)) = (if m = 2 then 1 else 0) ∧
      SameMem s t ∧ t.seqs = s.seqs) ∧
    (s.cageFitted n.val = false → ∃ t, exec (.cageCommit n) s = .next t ∧ t.get (R.CAGE_CTL.mode n.val) = s.get (R.CAGE_CTL.mode n.val) ∧
      t.get R.CAGE_CSTAT.result = 3 ∧ (t.log.head?.map LogEntry.code) = some E.CFG_ABSENT) ∧
    (s.cageFitted n.val = true → s.halfInReset (n.val / 6) = true → ∃ t, exec (.cageCommit n) s = .next t ∧
      t.get (R.CAGE_CTL.mode n.val) = s.get (R.CAGE_CTL.mode n.val) ∧ t.get R.CAGE_CSTAT.result = s.get R.CAGE_CSTAT.result ∧
      (t.log.head?.map LogEntry.code) = some E.LINK_HALF_DOWN) ∧
    (s.cageFitted n.val = true → s.halfInReset (n.val / 6) = false → (4 < m ∨ m ≠ s.get (R.CAGE_CTL.mode n.val) ∧ s.cageUsed n.val = true) → ∃ t,
      exec (.cageCommit n) s = .next t ∧ t.get (R.CAGE_CTL.mode n.val) = s.get (R.CAGE_CTL.mode n.val) ∧ t.get R.CAGE_CSTAT.result = 2 ∧
      (t.log.head?.map LogEntry.code) = some E.CFG_COMMIT)) ∧
  ∀ (s : State) (n : Fin 12),
    (s.cageFitted n.val = true → ∃ t, exec (.cagePresenceChange n true) s = .next t ∧ t.get (R.CAGE_STAT.present n.val) = 1 ∧ SameMem s t ∧
      t.get (R.CAGE_STAT.lock n.val) = s.get (R.CAGE_STAT.lock n.val)) ∧
    (s.cageFitted n.val = false → exec (.cageModuleOverpower n) s = .next s ∧ ∀ b, exec (.cagePresenceChange n b) s = .next s) ∧
    (s.get (R.CAGE_CTL.mode n.val) = 0 → exec (.cageModuleOverpower n) s = .next s) ∧
    ∀ i ∈ [Instr.cagePresenceChange n false, .cageModuleOverpower n], s.cageFitted n.val = true →
      (i = .cageModuleOverpower n → s.get (R.CAGE_CTL.mode n.val) ≠ 0) → ∃ t, exec i s = .next t ∧ t.get (R.CAGE_STAT.present n.val) = 0 ∧
      t.get (R.CAGE_STAT.lock n.val) = 0 ∧ SameMem s t ∧ t.seqs = s.seqs ∧ ∀ k, k / 2 = n.val → s.skwMode k = true →
        t.get (R.SKW_LINK.state k) = (if s.get (R.SKW_LINK.state k) = 2 ∨ s.get (R.SKW_LINK.state k) = 3 then 4 else s.get (R.SKW_LINK.state k))) ∧
  (∀ s : State, s.Open →
    (∀ ch : Fin 8192, let n := ch.val
      let K := s.sget (R.SKW_CHAN.link n)
      let down := K < 24 ∧ s.halfInReset (K / 12) = true
      let ok := s.leaving (s.sget (R.SKW_CHAN.ctx n)) = false ∧ s.skwMode K = true ∧
        (s.get (R.SKW_CHAN.en n) = 1 → s.get (R.SKW_CHAN.ctx n) = s.sget (R.SKW_CHAN.ctx n)) ∧ s.flumeOn n = none
      let fs := [R.SKW_CHAN.en n, R.SKW_CHAN.ctx n, R.SKW_CHAN.link n, R.SKW_CHAN.peer n]
      s.get R.SKW_CCSTAT.busy = 0 → ∃ t, exec (.skwCcommit ch) s = .next t ∧ SameMem s t ∧
        (down → (∀ f ∈ fs, t.get f = s.get f) ∧ t.get R.SKW_CCSTAT.result = s.get R.SKW_CCSTAT.result ∧ (t.log.head?.map LogEntry.code) = some E.LINK_HALF_DOWN) ∧
        (¬down → t.get R.SKW_CCSTAT.chan = n) ∧
        (¬down → ok → (∀ f ∈ fs, t.get f = s.sget f) ∧ t.get R.SKW_CCSTAT.result = 1) ∧
        (¬down → ¬ok → (∀ f ∈ fs, t.get f = s.get f) ∧ t.get R.SKW_CCSTAT.result = 2 ∧ (t.log.head?.map LogEntry.code) = some E.CFG_COMMIT)) ∧
    (∀ c : Fin 64, let n := c.val
      let ok := s.leaving n = false ∧ (∀ k, k < 24 → ∀ m ∈ (s.skw k).red, m.ctx ≠ n) ∧
        (∀ l ∈ [s.sget (R.RED_CTL.next n), s.sget (R.RED_CTL.prev n), s.sget (R.RED_CTL.wrap n)], l ≠ 31 →
          s.skwMode l = true ∧ 3 ≤ s.get (R.SKW_LINK.ver_min l))
      let fs := [R.RED_CTL.en n, R.RED_CTL.wrap n, R.RED_CTL.prev n, R.RED_CTL.next n]
      s.get R.RED_CSTAT.busy = 0 → ∃ t, exec (.redCommit c) s = .next t ∧ SameMem s t ∧ t.get R.RED_CSTAT.ctx = n ∧
        (ok → (∀ f ∈ fs, t.get f = s.sget f) ∧ t.get R.RED_CSTAT.result = 1) ∧
        (¬ok → (∀ f ∈ fs, t.get f = s.get f) ∧ t.get R.RED_CSTAT.result = 2 ∧ (t.log.head?.map LogEntry.code) = some E.CFG_COMMIT)))

/-- R404, R411, R412, R426: bring-up of a Skidway session: lanes trained, CAPS in clear with the link's versions, nonce and chain, the highest common version,
the keys of the session, KEYED; its limits and its pin refused by name; retries and time-outs; the versions are written by their owner. What each
leaves alone stands with it. Where the spec is silent or can be read two ways, the clauses rest on log entries 11, 60, 65, 135, 153 (the model's choice). -/
def Obligations.SkidwayBringUp : Prop :=
  ∀ (s : State) (k : Fin 24), let K := k.val
    let st := s.get (R.SKW_LINK.state K)
    let x := s.skw K
    let kept : SkwLink := { SkwLink.empty with red := x.red, locked := x.locked, fails := x.fails, strays := x.strays }
    let n := (Config.nonce s.free).toNat
    let caps := capsBytes (s.get (R.SKW_LINK.ver_min K)) (s.get (R.SKW_LINK.ver_max K)) n s.skwChain
    let frames := (List.range (ceilDiv caps.length 248)).map (fun i =>
      let body := Ctrl.caps.sub :: ((caps.drop (248 * i)).take 248).map BitVec.toNat
      (⟨i % 2 ^ 32, ftCTRL, body, frameBytes ftCTRL (i % 2 ^ 32) (frameFront ftCTRL body)⟩ : SkwFrame))
    (s.skwMode K = true → s.ethMode K = false → (st = 1 ∨ st = 4) → ∃ t, exec (.skwLanesTrained k) s = .next t ∧ t.get (R.SKW_LINK.state K) = 2 ∧
      bit (t.get (R.CAGE_STAT.lock (K / 2))) (K % 2) = true ∧ t.skw K = { kept with nonce := n, tx := frames.length % 2 ^ 32, replay := frames } ∧
      t.out = (frames.map (fun f => frameOut K f.typ f.bytes)).reverse ++ s.out ∧ t.free = s.free + 1 ∧ t.flumes = s.flumes ∧ t.log = s.log ∧
      SameRegsBut s t [R.SKW_LINK.state K, R.CAGE_STAT.lock (K / 2)] ∧ LinkFrame s t K ∧ SameMem s t ∧ t.seqs = s.seqs) ∧
    (s.ethMode K = true → ∃ t, exec (.skwLanesTrained k) s = .next t ∧ bit (t.get (R.CAGE_STAT.lock (K / 2))) (K % 2) = true ∧
      SameRegsBut s t [R.CAGE_STAT.lock (K / 2)] ∧ { t with regs := s.regs } = s) ∧
    (s.ethMode K = false → (s.skwMode K = false ∨ (st ≠ 1 ∧ st ≠ 4)) → exec (.skwLanesTrained k) s = .next s) ∧
    ((st ≠ 2 ∨ x.caps = true) → ∀ vx vn r m p c, exec (.skwCaps k vx vn r m p c) s = .next s) ∧
    ((st ≠ 2 ∨ x.caps = false) → exec (.skwKeyed k) s = .next s) ∧
    ((st = 0 ∨ st = 3 ∨ 4 < st) → exec (.skwSessionTimeout k) s = .next s) ∧
    (∀ (vmax vmin : BitVec 2) (recOk : Bool) (nonce : BitVec 256) (p : SkwPeer) (chainOk : Bool), st = 2 → x.caps = false →
      let v := min vmax.toNat (s.get (R.SKW_LINK.ver_max K))
      let fits := max vmin.toNat (s.get (R.SKW_LINK.ver_min K)) ≤ v ∧ recOk = true
      let kid := kidOf p.key
      let front := leNat (kid.take 8)
      let known := chainOk = true ∧ (s.get (R.SKW_LINK.pin K) = 0 ∨ s.get (R.SKW_LINK.pin K) = front)
      ∃ t, exec (.skwCaps k vmax vmin recOk nonce p chainOk) s = .next t ∧ LinkFrame s t K ∧ SameMem s t ∧ t.seqs = s.seqs ∧
        (∀ secret, fits → known → ecdh s.mfg.skwKey p.key = some secret → (t.skw K).caps = true ∧ t.get (R.SKW_LINK.ver K) = v ∧
          t.get (R.SKW_LINK.peer K) = front ∧ t.get (R.SKW_LINK.state K) = 2 ∧ t.flumes = s.flumes ∧ t.log = s.log ∧
          SameRegsBut s t [R.SKW_LINK.ver K, R.SKW_LINK.peer K] ∧
          let low := decide (s.skwKid < beNat kid)
          let salt := if low then leBytes 32 x.nonce ++ leBytes 32 nonce.toNat else leBytes 32 nonce.toNat ++ leBytes 32 x.nonce
          let ks := hkdf384 salt secret (ascii "Caerlen skidway v3") 64
          (x.marked = false → (t.skw K).keys = some (if low then (ks.take 32, ks.drop 32) else (ks.drop 32, ks.take 32)))) ∧
        (¬fits → t.get (R.SKW_LINK.state K) = 0 ∧ (t.log.head?.map LogEntry.code) = some E.LINK_VERSION) ∧
        (fits → (¬known ∨ ecdh s.mfg.skwKey p.key = none) → t.get (R.SKW_LINK.state K) = 0 ∧ (t.log.head?.map LogEntry.code) = some E.LINK_AUTH) ∧
        ((¬fits ∨ ¬known ∨ ecdh s.mfg.skwKey p.key = none) → (t.skw K).caps = false ∧ (t.skw K).replay = [] ∧ (t.skw K).red = x.red ∧
          SameRegsBut s t (R.SKW_LINK.state K :: logRegs ++ s.linkRegs K))) ∧
    (st = 2 → x.caps = true → ∃ t, exec (.skwKeyed k) s = .next t ∧ t.get (R.SKW_LINK.state K) = 3 ∧ (t.skw K).rx = (x.rx + 1) % 2 ^ 32 ∧
      (t.skw K).red = x.red ∧ (∀ f, t.flume f = if f ∈ s.flumesOn K then { s.flume f with linkDown := false } else s.flume f) ∧ t.log = s.log ∧
      SameRegsBut s t [R.SKW_LINK.state K] ∧ LinkFrame s t K ∧ SameMem s t ∧ t.seqs = s.seqs) ∧
    ((st = 1 ∨ st = 2 ∨ st = 4) → ∃ t, exec (.skwSessionTimeout k) s = .next t ∧ t.get (R.SKW_LINK.state K) = 5 ∧ SameMem s t ∧
      (t.log.head?.map LogEntry.code) = some E.LINK_DOWN ∧ t.skw K = { kept with notice := x.notice } ∧
      (∀ f ∈ s.flumesOn K, s.flmState f = flmOPEN → t.flmState f = flmHELD) ∧
      SameRegsBut s t (R.SKW_LINK.state K :: logRegs ++ s.linkRegs K) ∧ LinkFrame s t K ∧ t.seqs = s.seqs) ∧
    (st = 5 → x.locked = false → exec (.skwBringupRetry k) s = .next (s.put (R.SKW_LINK.state K) 1)) ∧
    ((st ≠ 5 ∨ x.locked = true) → exec (.skwBringupRetry k) s = .next s) ∧
    (∀ (m : Master) (vmax vmin : BitVec 2), s.Open → let i := Instr.skwVersionWrite m k vmax vmin
      let no := fun (t : State) (code : Nat) => { t with regs := s.regs, log := s.log, out := s.out, pba := s.pba } = s ∧
        t.get (R.SKW_LINK.ver_max K) = s.get (R.SKW_LINK.ver_max K) ∧ t.get (R.SKW_LINK.ver_min K) = s.get (R.SKW_LINK.ver_min K) ∧
        t.get (R.SKW_LINK.state K) = st ∧ (t.log.head?.map LogEntry.code) = some code
      let here := s.edgeFitted (K / 4) = true ∧ s.halfInReset (K / 12) = false
      (s.edgeFitted (K / 4) = false → ∃ t, exec i s = .next t ∧ no t E.CFG_ABSENT) ∧
      (s.edgeFitted (K / 4) = true → s.halfInReset (K / 12) = true → ∃ t, exec i s = .next t ∧ no t E.LINK_HALF_DOWN) ∧
      (here → s.owns m 4 = false → ∃ t, exec i s = .next t ∧ no t E.CFG_OWNER) ∧
      (here → s.owns m 4 = true → vmin.toNat < 3 → (∃ c, c < 64 ∧ s.get (R.RED_CTL.en c) = 1 ∧
        (s.get (R.RED_CTL.next c) = K ∨ s.get (R.RED_CTL.prev c) = K ∨ s.get (R.RED_CTL.wrap c) = K)) → ∃ t, exec i s = .next t ∧ no t E.CFG_RANGE) ∧
      (here → s.owns m 4 = true → (vmin = 3 ∨ ∀ c, c < 64 → s.get (R.RED_CTL.en c) = 1 →
        s.get (R.RED_CTL.next c) ≠ K ∧ s.get (R.RED_CTL.prev c) ≠ K ∧ s.get (R.RED_CTL.wrap c) ≠ K) → ∃ t, exec i s = .next t ∧
        t.get (R.SKW_LINK.ver_max K) = vmax.toNat ∧ t.get (R.SKW_LINK.ver_min K) = vmin.toNat ∧
        t.get (R.SKW_LINK.state K) = (if s.skwMode K = true ∧ st = 0 then 1 else st) ∧ { t with regs := s.regs } = s ∧
        SameRegsBut s t [R.SKW_LINK.ver_max K, R.SKW_LINK.ver_min K, R.SKW_LINK.state K]))

/-- R404, R413, R538, R544: recovery of a session, which HOLDs its open flumes; re-keying of both directions; secure blocks whose TAG holds or fails, in
bring-up too; the peer's DOWN notice. Where the spec is silent or can be read two ways, the clauses rest on log entries 11, 60, 65 (the model's choice). -/
def Obligations.SkidwaySessions : Prop :=
  ∀ (s : State) (k : Fin 24), let K := k.val
    let st := s.get (R.SKW_LINK.state K)
    let x := s.skw K
    let lost := fun (t : State) => t.get (R.SKW_LINK.state K) = 4 ∧ s.Counted t (R.SKW_LINK.recov K) 1 ∧ (t.skw K).tx = 0 ∧ (t.skw K).rx = 0 ∧
      (t.skw K).replay = [] ∧ (t.skw K).keys = none ∧ (t.skw K).red = x.red ∧ SameMem s t ∧ t.seqs = s.seqs ∧ LinkFrame s t K ∧
      (∀ f ∈ s.flumesOn K, s.flmState f = flmOPEN → t.flmState f = flmHELD) ∧ (∀ f, f ∉ s.flumesOn K → t.flume f = s.flume f)
    let rekeyed := fun (t : State) => LinkFrame s t K ∧ SameMem s t ∧ t.regs = s.regs ∧ t.flumes = s.flumes ∧
      (x.queue = [] → x.replay.length + 5 ≤ 4096 → (t.skw K).txBlk = 0 ∧ (t.skw K).newKey = none ∧
        ∀ q, x.keys = some q → (t.skw K).keys = some ((s.skwKeys K x.secret (Config.nonce s.free).toNat x.peer.2).1, q.2))
    (s.Open → s.edgeFitted (K / 4) = true → s.halfInReset (K / 12) = false → s.skwMode K = true → ∃ t, exec (.skwCmdRetrain k) s = .next t ∧
      lost t ∧ (t.skw K).locked = false ∧ (t.skw K).fails = []) ∧
    (s.Open → s.edgeFitted (K / 4) = true → s.halfInReset (K / 12) = false →
      (s.skwMode K = false → exec (.skwCmdRetrain k) s = .next s) ∧ (st ≠ 3 → exec (.skwCmdRekey k) s = .next s)) ∧
    (s.Open → ∀ i ∈ [Instr.skwCmdRetrain k, .skwCmdRekey k], (s.edgeFitted (K / 4) = false ∨ s.halfInReset (K / 12) = true) → ∃ t,
      exec i s = .next t ∧ t.links = s.links ∧ t.get (R.SKW_LINK.state K) = st ∧ SameMem s t ∧ t.seqs = s.seqs ∧ (t.log.head?.map LogEntry.code) =
        some (if s.edgeFitted (K / 4) = false then E.CFG_ABSENT else E.LINK_HALF_DOWN)) ∧
    ((s.skwMode K = false ∨ (st ≠ 2 ∧ st ≠ 3)) → exec (.skwRecovery k) s = .next s) ∧
    (bit (s.get (R.CAGE_STAT.lock (K / 2))) (K % 2) = false → exec (.skwLockLoss k) s = .next s) ∧
    (bit (s.get (R.CAGE_STAT.lock (K / 2))) (K % 2) = true → (s.skwMode K = false ∨ (st ≠ 2 ∧ st ≠ 3)) →
      exec (.skwLockLoss k) s = .next (s.setLock K false)) ∧
    (st ≠ 3 → (∀ i ∈ [Instr.skwRekeyCount k, .skwDownNotice k], exec i s = .next s) ∧ ∀ n, exec (.skwRekeyMark ⟨k, n⟩) s = .next s) ∧
    (st ≠ 2 → st ≠ 3 → ∀ ok, exec (.skwTagCheck k ok) s = .next s) ∧
    (x.txBlk < 2 ^ 31 → x.rxBlk < 2 ^ 31 → exec (.skwRekeyCount k) s = .next s) ∧
    (s.skwMode K = true → (st = 2 ∨ st = 3) → ∃ t, exec (.skwRecovery k) s = .next t ∧ lost t) ∧
    (s.skwMode K = true → (st = 2 ∨ st = 3) → bit (s.get (R.CAGE_STAT.lock (K / 2))) (K % 2) = true → ∃ t, exec (.skwLockLoss k) s = .next t ∧
      lost t ∧ bit (t.get (R.CAGE_STAT.lock (K / 2))) (K % 2) = false) ∧
    (s.Open → s.edgeFitted (K / 4) = true → s.halfInReset (K / 12) = false → st = 3 → ∃ t, exec (.skwCmdRekey k) s = .next t ∧
      (t.skw K).rekey = true ∧ t.free = s.free + 1 ∧ rekeyed t) ∧
    (st = 3 → (2 ^ 31 ≤ x.txBlk ∨ 2 ^ 31 ≤ x.rxBlk) → ∃ t, exec (.skwRekeyCount k) s = .next t ∧ (t.skw K).rekey = true ∧ t.free = s.free + 1 ∧
      rekeyed t) ∧
    (∀ n : BitVec 256, st = 3 → ∃ t, exec (.skwRekeyMark ⟨k, n⟩) s = .next t ∧ (t.skw K).rxBlk = 0 ∧ (t.skw K).rekey = false ∧ SameMem s t ∧
      t.regs = s.regs ∧ t.flumes = s.flumes ∧ LinkFrame s t K ∧ (t.skw K).rx = (x.rx + 2) % 2 ^ 32 ∧ t.free = s.free + (if x.rekey then 0 else 1) ∧
      ∀ q, x.keys = some q → ∃ a, (t.skw K).keys = some (a, (s.skwKeys K x.secret x.nonce n.toNat).2)) ∧
    ((st = 2 ∨ st = 3) → ∃ t, exec (.skwTagCheck k true) s = .next t ∧ (t.skw K).rxBlk = x.rxBlk + 1 ∧ (t.skw K).rx = (x.rx + 1) % 2 ^ 32 ∧
      SameMem s t ∧ t.regs = s.regs ∧ t.flumes = s.flumes ∧ LinkFrame s t K) ∧
    ((st = 2 ∨ st = 3) → ∃ t, exec (.skwTagCheck k false) s = .next t ∧ s.Counted t (R.SKW_LINK.tagfail K) 1 ∧ SameMem s t ∧
      LinkFrame s t K ∧ (t.log.head?.map LogEntry.code) = some E.LINK_AUTH ∧
      if 2 ≤ (x.fails.filter (fun y => decide (s.now < y + 1400000000))).length then t.get (R.SKW_LINK.state K) = 5 ∧ (t.skw K).locked = true
      else t.get (R.SKW_LINK.state K) = 4) ∧
    (st = 3 → ∃ t, exec (.skwDownNotice k) s = .next t ∧ (t.skw K).notice = true ∧ SameMem s t ∧ t.regs = s.regs ∧ t.flumes = s.flumes ∧
      LinkFrame s t K)

/-- R403, R410, R413, R426: ACK frees the frames up to its number and the messages that they complete, NAK and the replay timer send frames again, a corrupt
frame is counted and answered with NAK unless it is a link frame, the ACK timer sends an ACK, and an idle secure block closes with its TAG. All of it
from bring-up on. Where the spec is silent or can be read two ways, the clauses rest on log entries 9, 60, 134 (the model's choice). -/
def Obligations.SkidwayRetry : Prop :=
  ∀ (s : State) (k : Fin 24), let K := k.val
    let x := s.skw K
    let again := fun (fs : List SkwFrame) => (fs.map (fun f => frameOut K f.typ f.bytes)).reverse
    let still := fun (t : State) => SameMem s t ∧ t.regs = s.regs ∧ t.flumes = s.flumes ∧ t.seqs = s.seqs ∧ LinkFrame s t K
    let idle := x.queue = [] ∧ x.block < 63 ∧ x.marked = false
    (s.skwLive K = false → (∀ i ∈ [Instr.skwReplayTimeout k, .skwAckTimer k, .skwBlockIdleClose k], exec i s = .next s) ∧
      ∀ n, exec (.skwAck k n) s = .next s ∧ exec (.skwNak k n) s = .next s) ∧
    (s.skwLive K = true →
    (∀ pre f post, x.replay = pre ++ f :: post → (∀ g ∈ pre, g.seq ≠ f.seq) → f.seq < 2 ^ 32 → idle →
      ∃ t, exec (.skwAck k (BitVec.ofNat 32 f.seq)) s = .next t ∧ (t.skw K).replay = post ∧ t.out = s.out ∧ still t ∧
        (t.skw K).red = (if s.skwUp K then x.red.filter (fun m => post.any (fun g => m.owns g.typ g.body)) else x.red)) ∧
    (∀ n, ∃ t, exec (.skwAck k n) s = .next t ∧ still t ∧
      ((∀ g ∈ x.replay, g.seq ≠ n.toNat) → ∀ g ∈ x.replay, g ∈ (t.skw K).replay)) ∧
    (∀ n, x.replay = [] → idle → ∃ t, exec (.skwNak k n) s = .next t ∧ still t ∧ t.out = s.out ∧ (t.skw K).replay = []) ∧
    (∀ f fs, x.replay = f :: fs → f.seq < 2 ^ 32 → ¬(x.resent.1 = f.seq ∧ 8 ≤ x.resent.2) →
      (idle → (∀ g ∈ x.replay, g.seq ≠ (f.seq + 2 ^ 32 - 1) % 2 ^ 32) → ∃ t, exec (.skwNak k (BitVec.ofNat 32 f.seq)) s = .next t ∧
        t.out = again x.replay ++ s.out ∧ (t.skw K).replay = x.replay ∧ s.Counted t (R.SKW_LINK.resend K) x.replay.length ∧
        SameRegsBut s t [R.SKW_LINK.resend K] ∧ t.flumes = s.flumes ∧ LinkFrame s t K ∧ SameMem s t) ∧
      ∃ t, exec (.skwReplayTimeout k) s = .next t ∧ t.out = again x.replay ++ s.out ∧ (t.skw K).replay = x.replay ∧
        s.Counted t (R.SKW_LINK.resend K) x.replay.length ∧ SameRegsBut s t [R.SKW_LINK.resend K] ∧ t.flumes = s.flumes ∧ LinkFrame s t K ∧
        SameMem s t ∧ t.seqs = s.seqs) ∧
    (∀ f fs, x.replay = f :: fs → x.resent.1 = f.seq → 8 ≤ x.resent.2 → ∃ t, exec (.skwReplayTimeout k) s = .next t ∧
      t.get (R.SKW_LINK.state K) = 4 ∧ (t.skw K).replay = [] ∧ (t.skw K).red = x.red ∧ LinkFrame s t K ∧ SameMem s t) ∧
    (0 < x.unack → ∃ t, exec (.skwAckTimer k) s = .next t ∧ t.out = linkOut K ftACK ((x.rx + 2 ^ 32 - 1) % 2 ^ 32) :: s.out ∧ (t.skw K).unack = 0 ∧
      (t.skw K).replay = x.replay ∧ still t) ∧
    (x.unack = 0 → exec (.skwAckTimer k) s = .next s) ∧
    (x.replay = [] → exec (.skwReplayTimeout k) s = .next s) ∧
    ((x.opened = [] ∨ 4096 ≤ x.replay.length) → exec (.skwBlockIdleClose k) s = .next s) ∧
    (x.opened ≠ [] → x.replay.length < 4096 → ∃ t, exec (.skwBlockIdleClose k) s = .next t ∧ (t.skw K).opened = [] ∧ still t ∧
      (t.skw K).txBlk = (if x.marked then 0 else x.txBlk + 1) ∧
      let tag := blockTag ((x.keys.map Prod.fst).getD []) x.txBlk x.opened
      t.out = frameOut K ftTAG (frameBytes ftTAG x.tx (frameFront ftTAG (x.opened.length :: tag.map BitVec.toNat))) :: s.out)) ∧
    ∀ (typ : BitVec 4) (fec uncorr : BitVec 16), let i := Instr.skwCorruptFrame ⟨k, typ, fec, uncorr⟩
      let nak := s.skwLive K = true ∧ ftNAK < typ.toNat ∧ ∀ n, x.nakAt = some n → n + 1400 ≤ s.now
      (s.skwMode K = false → exec i s = .next s) ∧
      (s.skwMode K = true → ∃ t, exec i s = .next t ∧ s.Counted t (R.SKW_LINK.fec K) fec.toNat ∧ s.Counted t (R.SKW_LINK.uncorr K) uncorr.toNat ∧
        SameRegsBut s t [R.SKW_LINK.fec K, R.SKW_LINK.uncorr K] ∧ t.flumes = s.flumes ∧ SameMem s t ∧ LinkFrame s t K ∧
        (nak → t.out = linkOut K ftNAK x.rx :: s.out ∧ (t.skw K).nakAt = some s.now) ∧ (¬nak → t.out = s.out ∧ t.links = s.links))

/-- R148, R149, R158, R162, R405, R406, R410, R425: what arrives for a channel of a session that is up: an open exchange, answered by this end's own fields and
compared, channel numbers too; a close, a record, RACK, CREDIT; every frame for a channel that is not bound on its link, and a message of an unlisted
kind, is logged as LINK_CHAN. Where the spec is silent or can be read two ways, the clauses rest on log entries 43, 60, 62, 121, 136, 137 (the model's choice). -/
def Obligations.SkidwayChannels : Prop :=
  ∀ (s : State) (k : Fin 24) (ch : Fin 8192), let K := k.val
    (s.skwUp K = false → (∀ o d z r p n h y, exec (.skwChannelOpen k ⟨ch, o⟩ d z r p n h y) s = .next s) ∧
      (∀ w, exec (.skwChannelClose k ch w) s = .next s) ∧ (∀ h d, exec (.skwRecordArrival k ch h d) s = .next s) ∧
      (∀ r, exec (.skwRack k ch r) s = .next s) ∧ (∀ n, exec (.skwCredit k ch n) s = .next s) ∧
      ∀ c q l, exec (.redMessageUnlistedKind k c q l) s = .next s) ∧
    (∀ (c : Fin 64) (kind : BitVec 8) (len : BitVec 16), kind ≠ 0 → kind.toNat ≤ 9 → exec (.redMessageUnlistedKind k c kind len) s = .next s) ∧
    (s.skwUp K = true →
    (∀ f, s.flumeOn ch.val = some f → s.chanOk K ch.val = true → s.flmState f = flmCLOSING ∨ s.flmState f = flmZEROING →
      ∀ (hdr : BitVec 512) (data : List Byte), ∃ t, exec (.skwRecordArrival k ch hdr data) s = .next t ∧ SameMem s t ∧
        s.Counted t (R.FLM_CNT.discard f) 1 ∧ t.flumes = s.flumes ∧ SameRegsBut s t [R.FLM_CNT.discard f] ∧ LinkFrame s t K) ∧
    (∀ f, s.flumeWas ch.val = some f → s.chanOk K ch.val = true → s.flumeOn ch.val = none →
      (∀ (hdr : BitVec 512) (data : List Byte), ∃ t, exec (.skwRecordArrival k ch hdr data) s = .next t ∧ SameMem s t ∧
        s.Counted t (R.FLM_CNT.discard f) 1 ∧ t.flumes = s.flumes ∧ SameRegsBut s t [R.FLM_CNT.discard f] ∧ LinkFrame s t K) ∧
      ∀ o d z r p n h y, ∃ t, exec (.skwChannelOpen k ⟨ch, o⟩ d z r p n h y) s = .next t ∧ SameMem s t ∧ t.regs = s.regs ∧ t.flumes = s.flumes ∧
        LinkFrame s t K) ∧
    (∀ f, s.flumeOn ch.val = some f → s.chanOk K ch.val = true → (s.flmState f = flmOPEN ∨ s.flmState f = flmHELD) → let x := s.flume f
      (∀ (own : BitVec 13) (dir : BitVec 2) (depth : BitVec 13) (size : BitVec 15) (pair : BitVec 13) (next : BitVec 32) (held : BitVec 13) (reply : Bool),
        let same := own.toNat = s.get (R.SKW_CHAN.peer ch.val) ∧ dir.toNat = s.get (R.FLM_DESC.dir f) ∧ depth.toNat = s.get (R.FLM_DESC.depth f) ∧
          size.toNat = s.get (R.FLM_DESC.rec_size f) ∧ pair.toNat = s.get (R.FLM_DESC.pair f)
        ∃ t, exec (.skwChannelOpen k ⟨ch, own⟩ dir depth size pair next held reply) s = .next t ∧ (∀ a, t.byte a = s.byte a) ∧ t.seqs = s.seqs ∧
          (∀ g, g ≠ f → t.flume g = s.flume g) ∧
          ((∀ r ∈ x.staged, s.badIn (s.slotAddr f r.spill r.slot) r.hdr.len = []) → SameMem s t) ∧
          (same → x.halfDown = false → t.flmState f = flmOPEN ∧ t.get (R.FLM_STAT.peer_closed f) = 0 ∧ (t.flume f).mismatch = false ∧
            (t.flume f).linkDown = false ∧ (t.flume f).opening = false ∧ (t.flume f).peerHeld = false ∧
            (t.flume f).staged = x.staged.filter (fun r => !before r.hdr.rseq next.toNat)) ∧
          (¬same → t.flmState f = flmHELD ∧ (t.flume f).mismatch = true ∧ (t.flume f).staged = x.staged ∧
            (t.log.head?.map LogEntry.code) = some E.FLM_PEER_DESC)) ∧
      (∃ t, exec (.skwChannelClose k ch 0) s = .next t ∧ t.flmState f = flmHELD ∧ t.get (R.FLM_STAT.peer_closed f) = 1 ∧ SameMem s t ∧ LinkFrame s t K) ∧
      (∃ t, exec (.skwChannelClose k ch 2) s = .next t ∧ t.flmState f = flmHELD ∧ (t.flume f).peerHeld = true ∧ SameMem s t ∧ LinkFrame s t K) ∧
      (∀ (hdr : BitVec 512) (data : List Byte), let h := Hdr.ofNat hdr.toNat
        (∀ sp i, h.rseq = x.expect → s.freeSlot f = some (sp, i) → s.badIn (s.slotAddr f sp i) data.length = [] → ∃ t,
          exec (.skwRecordArrival k ch hdr data) s = .next t ∧ (t.flume f).recs.length = x.recs.length + 1 ∧
          (t.flume f).expect = (x.expect + 1) % 2 ^ 32 ∧ t.get (R.FLM_SEQ.next_cmt f) = (h.rseq + 1) % 2 ^ 32 ∧
          (∀ j, j < data.length → t.byte (s.slotAddr f sp i + j) = data.getD j 0) ∧ SameMemBut s t (s.slotAddr f sp i) data.length) ∧
        (h.rseq ≠ x.expect → before h.rseq x.expect = true → ∃ t, exec (.skwRecordArrival k ch hdr data) s = .next t ∧ SameMem s t ∧
          t.flumes = s.flumes ∧ t.regs = s.regs ∧ LinkFrame s t K) ∧
        (h.rseq ≠ x.expect → before h.rseq x.expect = false → ∃ t, exec (.skwRecordArrival k ch hdr data) s = .next t ∧ SameMem s t ∧
          t.flmState f = flmHELD ∧ (t.flume f).expect = x.expect ∧ (t.flume f).recs = x.recs ∧ (t.log.head?.map LogEntry.code) = some E.FLM_SEQ ∧
          LinkFrame s t K)) ∧
      (∀ rseq : BitVec 32, ∃ t, exec (.skwRack k ch rseq) s = .next t ∧ SameMem s t ∧ LinkFrame s t K ∧
        (t.flume f).staged = x.staged.filter (fun r => decide (r.hdr.rseq ≠ rseq.toNat)) ∧ (t.flume f).out = x.out) ∧
      (∀ n : BitVec 13, ∃ t, exec (.skwCredit k ch n) s = .next t ∧ SameMem s t ∧ LinkFrame s t K ∧ (t.flume f).out = x.out - n.toNat ∧
        (t.flume f).staged = x.staged)) ∧
    (s.chanOk K ch.val = false → ∀ (r : BitVec 32) (n : BitVec 13) (h : BitVec 512) (d : List Byte) (w : Fin 3) (o : BitVec 2) (z : BitVec 15) (y : Bool),
      ∀ i ∈ [(Instr.skwRack k ch r, 1), (.skwCredit k ch n, 1), (.skwRecordArrival k ch h d, 1 + ceilDiv d.length 248), (.skwChannelClose k ch w, 1),
        (.skwChannelOpen k ⟨ch, n⟩ o n z n r n y, 1)],
      ∃ t, exec i.1 s = .next t ∧ SameMem s t ∧ t.flumes = s.flumes ∧ (t.skw K).strays = (s.skw K).strays + i.2 ∧
      (t.skw K).rx = ((s.skw K).rx + i.2) % 2 ^ 32 ∧ LinkFrame s t K ∧ (t.log.head?.map LogEntry.code) = some E.LINK_CHAN) ∧
    (∀ (c : Fin 64) (kind : BitVec 8) (len : BitVec 16), (kind = 0 ∨ 9 < kind.toNat) → ∃ t, exec (.redMessageUnlistedKind k c kind len) s = .next t ∧
      SameMem s t ∧ t.jobs = s.jobs ∧ t.flumes = s.flumes ∧ LinkFrame s t K ∧ (t.log.head?.map LogEntry.code) = some E.LINK_CHAN))

/-- R414, R415, R417 to R419: an Ethernet port counts every frame, answers a request for one of its addresses with its MAC address or the data, takes its
connections' frames, holds back the storage traffic of a paused priority and drops the rest; a CNP halves the rate of an open queue pair, which rises
by 1/16 of the line rate up to all of it. A landing-die link trains: an end claims, echoes, agrees or narrows its claim, and is lost after its
fourth round; a flit that fails its CRC is sent again with all after it. Where the spec is silent or can be read two ways, the clauses rest on log entries 66, 67, 143, 163 (the model's choice). -/
def Obligations.EthernetAndLandingDieLinks : Prop :=
  ((∀ (s : State) (k : Fin 24), let K := k.val
    (s.ethMode K = false → (∀ len vlan kind, exec (.ethFrameReceive k len vlan kind) s = .next s) ∧ ∀ q, exec (.ethCnpReceive k q) s = .next s) ∧
    (s.ethMode K = true →
    (∀ (len : BitVec 14) (vlan : BitVec 12) (kind : EthKind), let i := Instr.ethFrameReceive k len vlan kind
      let mine := decide (len.toNat ≤ s.get (R.ETH_PORT.mtu K) ∧ vlan.toNat = s.get (R.ETH_PORT.vlan K))
      let drop := fun (t : State) => s.Counted t (R.ETH_CNT.drop K) 1 ∧ t.out = s.out
      let head := [s.mfg.macs.getD K 0, s.get (R.ETH_PORT.vlan K)]
      let reply := fun (t : State) (what : Nat) (m : BitVec 48) (l : List Byte) => s.Counted t (R.ETH_CNT.tx K) 1 ∧
        t.get (R.ETH_CNT.drop K) = s.get (R.ETH_CNT.drop K) ∧ t.out = .ethFrame K what (m.toNat :: head ++ l.map BitVec.toNat) :: s.out
      ∃ t, exec i s = .next t ∧ s.Counted t (R.ETH_CNT.rx K) 1 ∧
        { t with regs := s.regs, out := s.out, ethPause := s.ethPause, ethHeld := s.ethHeld } = s ∧
        SameRegsBut s t [R.ETH_CNT.rx K, R.ETH_CNT.tx K, R.ETH_CNT.drop K] ∧
        match kind with
        | .pfc prio on =>
          if s.get (R.ETH_PORT.pfc_en K) = 1 ∧ prio.toNat = s.get (R.ETH_PORT.pcp K) then
            t.portPaused K = on ∧ (∀ j, j ≠ K → t.portPaused j = s.portPaused j) ∧ t.get (R.ETH_CNT.drop K) = s.get (R.ETH_CNT.drop K) ∧
            (t.cagePaused (K / 2) = true → t.out = s.out ∧ t.ethHeld = s.ethHeld) ∧
            (t.cagePaused (K / 2) = false → t.out = (KMap.find (fun _ => []) s.ethHeld (K / 2)).reverse ++ s.out ∧
              KMap.find (fun _ => []) t.ethHeld (K / 2) = [])
          else drop t ∧ t.ethPause = s.ethPause
        | .arp m from_ dst => if mine = true ∧ dst ∈ s.portAddrs K then reply t 1 m (dst ++ from_) else drop t
        | .solicit m from_ dst => if mine = true ∧ dst ∈ s.portAddrs K then reply t 2 m (dst ++ from_) else drop t
        | .echo m from_ dst data => if mine = true ∧ dst ∈ s.portAddrs K then reply t 3 m (dst ++ from_ ++ data) else drop t
        | .conn j => if mine = true ∧ s.get (R.HAUL_SRC.en j.val) = 1 ∧ s.get (R.HAUL_SRC.cage j.val) = K / 2 ∧ s.get (R.HAUL_SSTAT.state j.val) = 2 then
            t.out = s.out ∧ t.get (R.ETH_CNT.drop K) = s.get (R.ETH_CNT.drop K) else drop t
        | .fragment | .other => drop t) ∧
    (∀ q : EthQp, ∃ t, exec (.ethCnpReceive k q) s = .next t ∧ s.Counted t (R.ETH_CNT.rx K) 1 ∧ s.Counted t (R.ETH_CNT.cnp K) 1 ∧
      (∀ j, j ≠ q → t.rate j = s.rate j) ∧ { t with regs := s.regs, ethRate := s.ethRate } = s ∧
      SameRegsBut s t [R.ETH_CNT.rx K, R.ETH_CNT.cnp K, R.ETH_CNT.drop K] ∧
      if s.qpOpen K q then t.rate q = ((s.rate q).1, (s.rate q).2 + 1) ∧ t.get (R.ETH_CNT.drop K) = s.get (R.ETH_CNT.drop K)
      else t.rate q = s.rate q ∧ s.Counted t (R.ETH_CNT.drop K) 1))) ∧
  ∀ (s : State) (q : EthQp), let frac := fun (r : Nat × Nat) => (r.1 : ℚ) / 2 ^ r.2
    ∃ t, exec (.ethRateIncrease q) s = .next t ∧ frac (t.rate q) = min 1 (frac (s.rate q) + 1 / 16) ∧ { t with ethRate := s.ethRate } = s ∧
      SameMem s t ∧ ∀ j, j ≠ q → t.rate j = s.rate j) ∧
  (∀ (s : State) (l : Fin 4) (hi : Bool), let i := l.val
    let x := s.spnEnd i hi
    let only := fun (t : State) => { t with regs := s.regs, spn := s.spn, spnBurst := s.spnBurst, out := s.out } = s
    (∀ mask : BitVec 4, s.halfDead (spnHalf i hi) = false → s.halfDead (spnHalf i (!hi)) = false → s.get (R.SPN_LINK.state i) = 0 → ∃ t,
      exec (.spnTrainingStart l hi mask) s = .next t ∧ t.get (R.SPN_LINK.state i) = 1 ∧
      t.get (epochFld i hi) = (s.get (epochFld i hi) + 1) % 2 ^ 32 ∧ t.spnEnd i hi = ⟨true, 1, mask.toNat, none, false⟩ ∧ SameMem s t ∧ only t ∧
      SameRegsBut s t [R.SPN_LINK.state i, R.SPN_LINK.rounds i, R.SPN_LINK.width i, R.SPN_LINK.mask i, epochFld i hi] ∧
      t.out = .flit i 0 [b2n hi, 1, mask.toNat, (s.get (epochFld i hi) + 1) % 2 ^ 32] :: s.out) ∧
    (∀ mask : BitVec 4, (s.halfDead (spnHalf i hi) = true ∨ s.halfDead (spnHalf i (!hi)) = true) →
      exec (.spnTrainingStart l hi mask) s = .next s) ∧
    (∀ (round : BitVec 3) (mask : BitVec 4) (epoch : BitVec 32), x.busy = true → round.toNat = x.round →
      (∃ t, exec (.spnClaim l hi round mask epoch) s = .next t ∧ t.spnEnd i hi = { x with peer := some (mask.toNat, epoch.toNat) } ∧
        t.out = .flit i 1 [b2n hi, round.toNat, mask.toNat, epoch.toNat] :: s.out ∧ t.regs = s.regs ∧ SameMem s t ∧ only t) ∧
      ∀ pm pe, x.peer = some (pm, pe) → let agree := pm = x.mask ∧ mask.toNat = x.mask ∧ epoch.toNat = s.get (epochFld i hi)
        (agree → (s.spnEnd i (!hi)).agreed = false → ∃ t, exec (.spnEcho l hi round mask epoch) s = .next t ∧
          t.spnEnd i hi = { x with busy := false, agreed := true } ∧ t.regs = s.regs ∧ SameMem s t ∧ only t) ∧
        (agree → (s.spnEnd i (!hi)).agreed = true → 0 < x.mask → x.mask < 16 → ∃ t, exec (.spnEcho l hi round mask epoch) s = .next t ∧
          t.get (R.SPN_LINK.state i) = 2 ∧ t.get (R.SPN_LINK.mask i) = x.mask ∧ t.get (R.SPN_LINK.width i) = popcount4 x.mask ∧
          s.Counted t (R.SPN_LINK.trains i) 1 ∧ SameMem s t ∧ t.seqs = s.seqs) ∧
        (¬agree → x.round < 4 → ∃ t, exec (.spnEcho l hi round mask epoch) s = .next t ∧ SameMem s t ∧ only t ∧
          let m := if x.round = 3 then lowestQuarter (x.mask &&& pm) else x.mask &&& pm
          t.spnEnd i hi = { x with round := x.round + 1, peer := none, mask := m })) ∧
    ((x.busy = false → exec (.spnRoundTimeout l hi) s = .next s ∧ ∀ r m e, exec (.spnClaim l hi r m e) s = .next s ∧ exec (.spnEcho l hi r m e) s = .next s)) ∧
    (x.busy = true → x.round < 4 → ∃ t, exec (.spnRoundTimeout l hi) s = .next t ∧ SameMem s t ∧ only t ∧
      t.spnEnd i hi = { x with round := x.round + 1, peer := none, mask := if x.round = 3 then lowestQuarter x.mask else x.mask }) ∧
    (x.busy = true → 4 ≤ x.round → ∃ t, exec (.spnRoundTimeout l hi) s = .next t ∧ t.get (R.SPN_LINK.state i) = 3 ∧
      t.get (R.SPN_LINK.width i) = 0 ∧ t.get (R.SPN_LINK.mask i) = 0) ∧
    (s.get (R.SPN_LINK.state i) ≠ 2 → ∀ ok, exec (.spnFlitReceive l hi ok) s = .next s) ∧
    (s.get (R.SPN_LINK.state i) = 2 → let due := s.flitsDue i hi
      (∃ t, exec (.spnFlitReceive l hi true) s = .next t ∧ { t with spnTx := s.spnTx } = s ∧
        (t.spnTxAt (spnKey i hi)).got = (s.spnTxAt (spnKey i hi)).got + (if due = [] then 0 else 1)) ∧
      ∃ t, exec (.spnFlitReceive l hi false) s = .next t ∧ s.Counted t (R.SPN_LINK.resend i) (max 1 due.length) ∧ only t ∧
        SameRegsBut s t [R.SPN_LINK.resend i] ∧
        (due = [] → t.out = .flit i 2 [b2n hi] :: s.out) ∧
        (due ≠ [] → t.out = (due.map (fun f => Out.flit i 2 [b2n hi, f.1, f.2.1, f.2.2])).reverse ++ s.out))
)

/-- R421 to R423, R427, R455: a partner site is judged by its policy when it has trained in rounds of claims, and forgotten when it is lost; the policy is written by its owner;
an admitted site's reads and writes pass the permission windows of its context. Where the spec is silent or can be read two ways, the clauses rest on log entries 68, 144, 156 (the model's choice). -/
def Obligations.PartnerSites : Prop :=
  ∀ (s : State) (u : Fin 2), let U := u.val
    let ctx := s.get (R.PART_CTL.ctx U)
    (∀ (x : SiteTrain) (valid : Bool) (ver : BitVec 8) (kind most : BitVec 16) (root : List Byte) (spdm : Bool),
      let i := Instr.partnerSiteTrained u x valid ver kind most root spdm
      let e := (s.get (R.PART_STAT.epoch U) + 1) % 2 ^ 32
      let a := (siteAgree U e 4 1 x.own.toNat x.rounds).1
      (∀ c cs, x.rounds = ⟨some (x.own, c), some (x.own, BitVec.ofNat 32 e)⟩ :: cs → a = x.own.toNat) ∧ (x.rounds = [] → a = 0) ∧
      (s.halfDead U = true → exec i s = .next s) ∧
      (s.halfDead U = false → ∃ t, exec i s = .next t ∧ SameMem s t ∧ t.seqs = s.seqs ∧ t.get (R.PART_STAT.mask U) = a ∧
        t.get (R.PART_STAT.epoch U) = e ∧
        (a = 0 → t.get (R.PART_STAT.state U) = 0 ∧ t.part U = Part.empty ∧ (t.log.head?.map LogEntry.code) = some E.LINK_DOWN) ∧
        (a ≠ 0 → (s.get (R.PART_STAT.state U) ≠ 0 ∨ s.partnerFitted U = false) → t.get (R.PART_STAT.state U) = s.get (R.PART_STAT.state U) ∧
          t.parts = s.parts) ∧
        (a ≠ 0 → s.get (R.PART_STAT.state U) = 0 → s.partnerFitted U = true → t.get (R.PART_STAT.pver U) = ver.toNat ∧
          t.get (R.PART_STAT.kind U) = kind.toNat ∧ let p := s.get (R.PART_CTL.policy U)
          if valid = true ∧ ver = 1 ∧ p ≠ 0 ∧ (p = 2 → spdm = true ∧ root = s.partRoot U) then t.get (R.PART_STAT.state U) = 2
          else t.get (R.PART_STAT.state U) = 3 ∧ (t.log.head?.map LogEntry.code) = some E.LINK_PARTNER))) ∧
    (s.get (R.PART_STAT.mask U) = 0 → exec (.partnerSiteLost u) s = .next s) ∧
    (s.get (R.PART_STAT.mask U) ≠ 0 → ∃ t, exec (.partnerSiteLost u) s = .next t ∧ t.get (R.PART_STAT.mask U) = 0 ∧
      t.get (R.PART_STAT.state U) = 0 ∧ t.part U = Part.empty ∧ SameMem s t ∧ (t.log.head?.map LogEntry.code) = some E.LINK_DOWN) ∧
    (∀ (m : Master) (policy : BitVec 2) (en : Bool) (c : BitVec 6) (stage : BitVec 12), s.Open → s.halfInReset U = true → ∃ t,
      exec (.partnerPolicyWrite m u policy en c stage) s = .next t ∧ SameMem s t ∧ t.parts = s.parts ∧
      (∀ f ∈ [R.PART_CTL.policy U, R.PART_CTL.en U, R.PART_CTL.ctx U, R.PART_CTL.stage U, R.PART_STAT.state U], t.get f = s.get f) ∧
      (t.log.head?.map LogEntry.code) = some E.LINK_HALF_DOWN) ∧
    (∀ (m : Master) (policy : BitVec 2) (en : Bool) (c : BitVec 6) (stage : BitVec 12), s.Open → s.halfInReset U = false →
      (s.owns m 4 = true → ∃ t, exec (.partnerPolicyWrite m u policy en c stage) s = .next t ∧
        t.get (R.PART_CTL.en U) = b2n en ∧ t.get (R.PART_CTL.ctx U) = c.toNat ∧ t.get (R.PART_CTL.stage U) = stage.toNat ∧ SameMem s t ∧
        t.get (R.PART_CTL.policy U) = (if policy = 3 then s.get (R.PART_CTL.policy U) else policy.toNat) ∧
        (policy = 3 → (t.log.head?.map LogEntry.code) = some E.CFG_RANGE) ∧
        let x := s.part U
        t.get (R.PART_STAT.state U) =
          (if policy ≠ 3 ∧ s.get (R.PART_STAT.state U) = 3 ∧ x.valid = true ∧ x.ver = 1 ∧ policy ≠ 0 ∧ (policy = 2 → x.spdm = true ∧ x.root = s.partRoot U)
           then 2 else s.get (R.PART_STAT.state U))) ∧
      (s.owns m 4 = false → ∃ t, exec (.partnerPolicyWrite m u policy en c stage) s = .next t ∧ SameMem s t ∧
        t.get (R.PART_CTL.policy U) = s.get (R.PART_CTL.policy U) ∧ t.get (R.PART_CTL.en U) = s.get (R.PART_CTL.en U) ∧
        (t.log.head?.map LogEntry.code) = some E.CFG_OWNER)) ∧
    (s.get (R.PART_STAT.state U) ≠ 2 → ∀ r, exec (.partnerRequest u r) s = .next s) ∧
    (s.get (R.PART_STAT.state U) = 2 → s.get (R.PART_CTL.en U) = 0 → ∀ r, exec (.partnerRequest u r) s =
      .next (s.raise E.LINK_PARTNER none (atSite U) U)) ∧
    (s.get (R.PART_STAT.state U) = 2 → s.get (R.PART_CTL.en U) = 1 →
      (∀ (a : BitVec 48) (n : BitVec 13), s.permits ctx a.toNat n.toNat false = true → s.refused a.toNat n.toNat = [] →
        (s.readBad a.toNat n.toNat = [] → exec (.partnerRequest u (.read a n)) s =
          .next (((s.fixSoft a.toNat n.toNat).emit (.site U 0 ((s.bytes a.toNat n.toNat).map BitVec.toNat))).crossFrom (97 + U) (ldOfSite U) a.toNat n.toNat)) ∧
        (s.readBad a.toNat n.toNat ≠ [] → ∃ t, exec (.partnerRequest u (.read a n)) s = .next t ∧ (∀ x, t.byte x = s.byte x) ∧
          Out.site U 2 [E.SEQ_HBM_ECC, a.toNat] ∈ t.out)) ∧
      (∀ (a : BitVec 48) (data : List Byte), s.permits ctx a.toNat data.length true = true → s.refused a.toNat data.length = [] →
        s.badIn a.toNat data.length = [] → ∃ t, exec (.partnerRequest u (.write a data)) s = .next t ∧ Out.site U 1 [0] ∈ t.out ∧
          (∀ i, i < data.length → t.byte (a.toNat + i) = data.getD i 0) ∧ SameMemBut s t a.toNat data.length ∧ t.regs = s.regs) ∧
      (∀ (a : BitVec 48) (n : BitVec 13) (data : List Byte) (r : PartReq) (k : Nat) (wr : Bool),
        (r = .read a n ∧ k = n.toNat ∧ wr = false ∨ r = .write a data ∧ k = data.length ∧ wr = true) → ∃ t,
          exec (.partnerRequest u r) s = .next t ∧
          (s.permits ctx a.toNat k wr = false → SameMem s t ∧ (t.log.head?.map LogEntry.code) = some E.SEC_PERM ∧
            t.get R.SEC_PERMLOG0.addr = s.firstRefused ctx a.toNat k wr % 2 ^ 48 ∧ t.get R.SEC_PERMLOG1.ctx = ctx) ∧
          (∀ x xs, s.permits ctx a.toNat k wr = true → s.refused a.toNat k = x :: xs → SameMem s t ∧
            t.out.head? = some (.site U 2 [(s.unavailable x).getD 0, x]))) ∧
      ∀ f : BitVec 13, let o := partOwner U
        let stage := s.get (R.PART_CTL.stage U)
        (∀ e, s.outCheck ctx stage f.toNat true = some e → ∃ t, exec (.partnerRequest u (.push f)) s = .next t ∧ SameMem s t ∧ t.flumes = s.flumes ∧
          t.out.head? = some (.site U 2 [e.code, e.info])) ∧
        (s.outCheck ctx stage f.toNat true = none → s.canPush f.toNat = true → exec (.partnerRequest u (.push f)) s =
          .next ((s.reserve o f.toNat).1.emit (.site U 3 [(s.reserve o f.toNat).2]))) ∧
        (s.outCheck ctx stage f.toNat true = none → s.canPush f.toNat = false → s.heldAtOnce f.toNat true = none → (s.part U).wait.length < 256 →
          exec (.partnerRequest u (.push f)) s = .next (s.setPart U { s.part U with wait := (s.part U).wait ++ [.push f] })) ∧
        (∀ x, s.outCheck ctx stage f.toNat false = none → s.holdCheck o f.toNat = none → (s.flume f.toNat).readyHead = some x →
          exec (.partnerRequest u (.pop f)) s = .next ((s.takeRec o f.toNat).emit
            (.site U 3 (s.slotAddr f.toNat x.spill x.slot :: x.hdr.bytes.map BitVec.toNat)))) ∧
        (s.outCheck ctx stage f.toNat false = none → (s.flume f.toNat).oldestHeld o ≠ none →
          exec (.partnerRequest u (.rel f)) s = .next ((s.releaseRec o f.toNat).emit (.site U 3 []))) ∧
        ∀ hdr : BitVec 512, s.outCmtCheck ctx stage o f.toNat (Hdr.ofNat hdr.toNat) = none → exec (.partnerRequest u (.cmt f hdr)) s =
          .next (((s.sendCommit o f.toNat (Hdr.ofNat hdr.toNat)).sendPkt (laneOf o) 3 (ldOfSite U) (ldOfFlume f.toNat)).emit (.site U 3 [])))

/-! ## Jobs across modules: cut tables, the norm and the verdict -/

/-- R154, R156, R157, R264 to R269, R277, R286, R287, R302: a cut table is committed, or refused by its result and cause; it comes into force when no stage is
in its phase; a start and a switch put stages into a phase; the foreman's counters at a step boundary; a variant entry's commit. Where the spec is silent or can be read two ways, the clauses rest on log entries 48, 49, 52, 124, 165 (the model's choice). -/
def Obligations.CutTables : Prop :=
  (∀ (s : State) (c : Fin 64) (p : BitVec 2), let C := c.val
    let P := p.toNat
    let r := s.cutResult C P
    let inP := ∃ k ∈ s.activeStages C, s.get (R.CUT_PH.phase k) = P
    s.Open →
    (s.get R.CUT_CSTAT.busy = 0 → ∃ t, exec (.cutCommit c p) s = .next t ∧ t.get R.CUT_CSTAT.result = r.1 ∧ t.get R.CUT_CSTAT.cause = r.2 ∧
      t.get R.CUT_CSTAT.phase = P ∧ t.get R.CUT_CSTAT.ctx = C ∧
      (r.1 = 1 → t.get (R.CUT_BASE.base C P) = s.sget (R.CUT_BASE.base C P) ∧
        (inP → t.cutPending C P = some (s.readTable C P) ∧ t.cutTable C P = s.cutTable C P ∧ ∀ a, t.byte a = s.byte a) ∧
        (¬inP → t.cutPending C P = none ∧ t.cutTable C P = some (s.readTable C P))) ∧
      (r.1 ≠ 1 → t.get (R.CUT_BASE.base C P) = s.get (R.CUT_BASE.base C P) ∧ t.cutForce = s.cutForce ∧ t.cutPend = s.cutPend ∧
        (∀ a, t.byte a = s.byte a) ∧
        (t.log.head?.map LogEntry.code) = some (if r.1 = 2 then E.CFG_ZERO else E.CFG_COMMIT))) ∧
    (s.leaving C = true → exec (.cutCmdStart c p) s = .next (s.raise E.CFG_COMMIT (some C) (atSteward 0) P)) ∧
    (s.leaving C = false → (P = 3 ∨ s.cutTable C P = none) → exec (.cutCmdStart c p) s = .next (s.cfgRange (some C) 0x14_1008)) ∧
    (∀ tb, s.leaving C = false → s.cutTable C P = some tb → P < 3 → ∃ t, exec (.cutCmdStart c p) s = .next t ∧ ∀ k, k < 96 →
      let mine := s.seqBound k = true ∧ s.seqCtx k = C ∧ ∃ row, tb.row (s.seqStage k) = some row ∧ rowModule row = s.moduleOf C
      (mine → t.get (R.CUT_PH.active k) = 1 ∧ t.get (R.CUT_PH.phase k) = P ∧ t.get (R.CUT_PH.wait k) = 0) ∧
      (¬mine → t.get (R.CUT_PH.active k) = s.get (R.CUT_PH.active k) ∧ t.get (R.CUT_PH.phase k) = s.get (R.CUT_PH.phase k)))) ∧
  (∀ (s : State) (c : Fin 64) (p : Fin 3) (tb : CutTable), let C := c.val
    let P := p.val
    (s.cutPending C P = none → exec (.cutTableInForce c p) s = .next s) ∧
    (s.cutPending C P = some tb →
    ((∀ k ∈ s.activeStages C, s.get (R.CUT_PH.phase k) ≠ P) → ∃ t, exec (.cutTableInForce c p) s = .next t ∧ t.cutTable C P = some tb ∧
      t.cutPending C P = none ∧ bits (t.get (R.CUT_EPOCH.epoch C)) (16 * P) 16 = (bits (s.get (R.CUT_EPOCH.epoch C)) (16 * P) 16 + 1) % 2 ^ 16 ∧
      bit (t.get (R.CUT_EPOCH.pend C)) P = false) ∧
    ((∃ k ∈ s.activeStages C, s.get (R.CUT_PH.phase k) = P) → exec (.cutTableInForce c p) s = .next s))) ∧
  (∀ (s : State) (l : Fin 96), let k := l.val
    (s.switchPhase k = none → exec (.phaseSwitch l) s = .next s) ∧
    ∀ q, s.switchPhase k = some q →
      let owes := s.get (R.CUT_PH.phase k) = 1 ∧ KMap.find (fun _ => false) s.owed k = true
      let waits := s.cutPending (s.seqCtx k) q ≠ none ∨ owes
      (waits → exec (.phaseSwitch l) s = .next (s.put (R.CUT_PH.wait k) 1)) ∧
      (¬waits → ∃ t, exec (.phaseSwitch l) s = .next t ∧ t.get (R.CUT_PH.phase k) = q ∧ t.get (R.CUT_PH.wait k) = 0 ∧
        t.get (R.CUT_PH.active k) = 1 ∧ ∀ j, j < 96 → j ≠ k → t.get (R.CUT_PH.phase j) = s.get (R.CUT_PH.phase j))) ∧
  (∀ (s : State) (c : Fin 64) (ac : BitVec 48) (f : Nat) (tb : CutTable) (rp rc : List Byte), let C := c.val
    s.boundFlumes = [f] → f < 8192 → s.flmState f = flmOPEN → s.get (R.FLM_DESC.ctx f) = C → s.get (R.FLM_DESC.dir f) = 0 →
    s.cutPending C 0 = none → s.cutTable C 0 = some tb → tb.expAddr = 0 → tb.row (s.get (R.FLM_DESC.prod f)) = some rp →
    tb.row (s.get (R.FLM_DESC.cons f)) = some rc → rowReplica rp = rowReplica rc → rowPos rc = rowPos rp + 1 → s.get R.FLM_BAL_CTL.steps = 0 →
    let d : Int := (s.get (R.FLM_CNT.full f) : Int) - s.get (R.FLM_CNT.empty f)
    let lim : Int := s.get R.FLM_BAL_CTL.thresh * ac.toNat
    let x := s.flume f
    ∃ t, exec (.foremanStepBoundary c ac) s = .next t ∧ t.get (R.FLM_CNT.full f) = 0 ∧ t.get (R.FLM_CNT.empty f) = 0 ∧
      t.get (R.FLM_CNT.spill f) = 0 ∧ t.cutForce = s.cutForce ∧ SameMem s t ∧
      (lim < d * 65536 → (t.flume f).run = (if 0 < x.run ∧ x.runSlow = true then x.run + 1 else 1) ∧ (t.flume f).runSlow = true) ∧
      (d * 65536 < -lim → ¬ lim < d * 65536 → (t.flume f).run = (if 0 < x.run ∧ x.runSlow = false then x.run + 1 else 1) ∧ (t.flume f).runSlow = false) ∧
      (¬ lim < d * 65536 → ¬ d * 65536 < -lim → (t.flume f).run = 0)) ∧
  (∀ (s : State) (c : Fin 64) (ac : BitVec 48) (tb : CutTable), s.boundFlumes = [] → s.cutTable c.val 0 = some tb → tb.expAddr ≠ 0 → (s.job c.val).drawn = none →
    let n := s.le (tb.expAddr + 2) 2
    let a := s.le (tb.expAddr + 8) 6
    s.s0Ok tb.expAddr 16 = true → s.s0Ok a (8 * n) = true → (∀ i, i < n → s.s0Ok (a + 8 * i) 8 = true) → ∃ t, exec (.foremanStepBoundary c ac) s = .next t ∧
      (t.job c.val).experts = (List.range n).map (fun i => (s.le (a + 8 * i) 4, s.le (a + 8 * i + 4) 4)) ∧
      (∀ i, i < 8 * n → t.byte (a + i) = 0) ∧ SameMemBut s t a (8 * n) ∧ t.seqs = s.seqs ∧ t.flumes = s.flumes) ∧
  (∀ (s : State) (l : Fin 96) (v : BitVec 12), let L := l.val
    let V := v.toNat
    let h := ldOfDie (L / 4)
    let ok := fun a => a % 64 = 0 ∧ s.permits (s.seqCtx L) a 1 false = true
    let good := ¬(s.seqBound L = true ∧ s.leaving (s.seqCtx L) = true) ∧ (s.sget (R.VAR_ENT.valid L V) = 1 → s.sget (R.VAR_ENT.fmt L V) < 12) ∧ s.sget (R.VAR_ENT.rank L V) ≤ 256 ∧
      ok (s.sget (R.VAR_ENT.addr L V)) ∧ ok (s.sget (R.VAR_ENT.grad L V))
    (s.Open → s.halfInReset (h / 2) = true → exec (.varCommit l v) s = .next (s.raise E.LINK_HALF_DOWN none (atEntry h) L)) ∧
    (s.Open → s.halfInReset (h / 2) = false → s.get (R.VAR_CSTAT.busy h) = 0 → ∃ t, exec (.varCommit l v) s = .next t ∧ SameMem s t ∧
      t.seqs = s.seqs ∧ (good → (∀ f ∈ varGroup L V, t.get f = s.sget f) ∧ t.get (R.VAR_CSTAT.result h) = 1) ∧
      (¬good → (∀ f ∈ varGroup L V, t.get f = s.get f) ∧ t.get (R.VAR_CSTAT.result h) = 3 ∧
        (t.log.head?.map LogEntry.code) = some E.CFG_COMMIT)))

/-- R283 to R285, R409, R410: the norm chain goes on at once on a module that takes part, else its message waits; the module of the last strip has the result,
and a broadcast result is taken. Every reduction message: without a session it does not come; one whose number has been taken is discarded; one for
another module is forwarded with its source and job. Where the spec is silent or can be read two ways, the clauses rest on log entries 50, 61, 137 (the model's choice). -/
def Obligations.NormChain : Prop :=
  (∀ (s : State) (c : Fin 64) (h : RedHdr), h.ctx = c → s.redMine h (s.redDir h) = true → let C := c.val
    let sent := fun (t : State) (m : Nat) (body : List Nat) =>
      let l := if s.moduleOf C < m then s.get (R.RED_CTL.next C) else s.get (R.RED_CTL.prev C)
      s.get (R.RED_CTL.en C) = 1 → l < 24 → ((t.skw l).red.getLast?.map (fun x => (x.ctx, x.kind, x.body.getD 0 0, x.body.drop 3))) = some (C, 1, m, body)
    (∀ (acc strip : BitVec 32) (hops : BitVec 12),
      (((s.job C).ready = false ∨ (s.job C).ntab = none) → ∃ t, exec (.normChainMsg h acc strip hops) s = .next t ∧ SameMem s t ∧ t.regs = s.regs ∧
        (t.job C).nmsg = some (acc.toNat, strip.toNat, hops.toNat) ∧ ∀ d, d ≠ C → t.job d = s.job d) ∧
      ∀ tb, (s.job C).ntab = some tb → (s.job C).ready = true →
        let r := normGo (s.moduleOf C) (s.strip tb) tb.normLayers acc strip.toNat
        (∀ m, r.2.2 = some m → ∃ t, exec (.normChainMsg h acc strip hops) s = .next t ∧ (∀ a, t.byte a = s.byte a) ∧ t.jobs = s.jobs ∧
          sent t m [r.1.toNat, r.2.1, hops.toNat + 1]) ∧
        (r.2.2 = none → ∃ t, exec (.normChainMsg h acc strip hops) s = .next t ∧ t.get (R.NORM_SUM.sum C) = r.1.toNat ∧
          t.get (R.NORM_SUM.hops C) = hops.toNat ∧ t.get (R.NORM_SUM.nonfin C) = b2n (!(f32Num r.1).isFin) ∧
          t.get (R.NORM_RES.norm C) = (normOf r.1).toNat ∧ (t.job C).ready = false ∧
          t.get (R.NORM_RES.clip C) = (clipOf r.1 (normOf r.1) (BitVec.ofNat 32 (s.get (R.NORM_MAX.max C)))).toNat)) ∧
    (∀ (up : Bool) (sum norm clip : BitVec 32) (hops : BitVec 12), ∃ t, exec (.normBroadcastMsg h up sum norm clip hops) s = .next t ∧
      t.get (R.NORM_SUM.sum C) = sum.toNat ∧ t.get (R.NORM_RES.norm C) = norm.toNat ∧ t.get (R.NORM_RES.clip C) = clip.toNat ∧
      t.get (R.NORM_SUM.hops C) = hops.toNat ∧ (t.job C).ready = false ∧ (t.job C).nstep = s.get (R.NUM_STEP.step C))) ∧
  (∀ (s : State) (i : Instr) (h : RedHdr) (link kind : Nat) (body : List Nat), redMsg s i = some (h, link, kind, body) → let c := h.ctx.val
    ((24 ≤ link ∨ s.skwUp link = false) → exec i s = .next s) ∧
    (link < 24 → s.skwUp link = true →
      (h.num.toNat < s.redNext c link → exec i s = .next (s.skwTake link (redFrames kind (body.length + 3)))) ∧
      (s.redNext c link ≤ h.num.toNat → s.redHere h = false → ∃ t, exec i s = .next t ∧ SameMem s t ∧ t.regs = s.regs ∧ t.seqs = s.seqs ∧
        t.flumes = s.flumes ∧ t.jobs = s.jobs ∧ t.ckpts = s.ckpts ∧ t.redNext c link = h.num.toNat + 1 ∧
        let l := s.redLinkTo c h.dest.toNat
        (s.get (R.RED_CTL.en c) = 1 → l < 24 → ((t.skw l).red.getLast?.map (fun x => (x.ctx, x.kind, x.body))) =
          some (c, kind, h.dest.toNat :: h.src.toNat :: h.job.toNat :: body)))))

/-- R297, R300 to R302, R306, R315, R316: a module alone delivers the verdict of its causes at the verdict point; messages of the chain wait, go on, or are
delivered; NUM_CMD and NUM_SCTL. Where the spec is silent or can be read two ways, the clauses rest on log entries 53, 54, 92, 126 (the model's choice). -/
def Obligations.StepVerdict : Prop :=
  ∀ (s : State) (c : Fin 64), let C := c.val
    let delivered := fun (t : State) (skip : Bool) (cause : Nat) => t.get (R.NUM_STAT.skip C) = b2n skip ∧ t.get (R.NUM_STAT.cause C) = cause ∧
      t.get (R.NUM_STAT.step C) = s.get (R.NUM_STEP.step C) ∧ t.get (R.NUM_STEP.step C) = (s.get (R.NUM_STEP.step C) + 1) % 2 ^ 48 ∧
      t.get (R.NUM_STAT.busy C) = 0 ∧ (t.job C).point = false ∧
      (skip = true → s.Counted t (R.NUM_SKIP.count C) 1 ∧ t.get (R.NUM_SKLAST.step C) = s.get (R.NUM_STEP.step C) ∧
        t.get (R.NUM_SKLAST.cause C) = cause) ∧
      (skip = false → t.get (R.NUM_SKIP.count C) = s.get (R.NUM_SKIP.count C) ∧ (cause ≠ 0 → s.Counted t (R.NUM_SKIP.ovr C) 1))
    (s.get (R.NUM_STAT.busy C) = 0 → s.activeStages C ≠ [] → (s.activeStages C).all s.optEnded = true → s.ckptHolds C = false →
      s.moduleOf C = 0 → s.lastModule C = 0 →
      let cause := b2n (s.guardHit C) + 2 * b2n (s.flag (R.NORM_SUM.nonfin C)) + 4 * b2n (s.job C).forced + 8 * b2n (s.job C).rstHalf
      ∃ t, exec (.verdictPoint c) s = .next t ∧ (t.job C).forced = false ∧
        delivered t ((s.job C).forced || (s.job C).rstHalf ||
          ((s.guardHit C || s.flag (R.NORM_SUM.nonfin C)) && !s.flag (R.NUM_CTL.skip_pin C))) cause) ∧
    ((∃ k ∈ s.activeStages C, s.optEnded k = false) → exec (.verdictPoint c) s = .next s) ∧
    ((s.get (R.NUM_STAT.busy C) = 1 ∨ s.activeStages C = []) → exec (.verdictPoint c) s = .next s) ∧
    (s.get (R.NUM_STAT.busy C) = 0 → s.activeStages C ≠ [] → (s.activeStages C).all s.optEnded = true →
      (s.ckptHolds C = true → ∃ t, exec (.verdictPoint c) s = .next t ∧ SameMem s t ∧ t.jobs = s.jobs ∧
        ∀ k ∈ s.activeStages C, t.get (R.CUT_PH.wait k) = 1) ∧
      (s.ckptHolds C = false → (s.moduleOf C < s.lastModule C ∨ (s.moduleOf C ≠ 0 ∧ (s.job C).vmsg = none)) → ∃ t,
        exec (.verdictPoint c) s = .next t ∧ SameMem s t ∧ t.get (R.NUM_STAT.busy C) = 1 ∧ (t.job C).point = true ∧ (t.job C).forced = false ∧
        (t.job C).cause = b2n (s.guardHit C) + 2 * b2n (s.flag (R.NORM_SUM.nonfin C)) + 4 * b2n (s.job C).forced + 8 * b2n (s.job C).rstHalf)) ∧
    (∀ (h : RedHdr) (cause : BitVec 4) (amax : List (BitVec 12 × BitVec 32)), h.ctx = c → s.redMine h (s.redDir h) = true → (s.job C).point = false → ∃ t,
      exec (.verdictChainMsg h cause amax) s = .next t ∧ SameMem s t ∧ t.regs = s.regs ∧ (t.job C).point = false ∧
      (t.job C).vmsg.map Prod.fst = some cause.toNat) ∧
    (∀ (h : RedHdr) (cause : BitVec 4) (amax : List (BitVec 12 × BitVec 32)), h.ctx = c → s.redMine h (s.redDir h) = true → (s.job C).point = true →
      s.moduleOf C ≠ 0 → (s.moduleOf C < s.lastModule C → ∃ t, exec (.verdictChainMsg h cause amax) s = .next t ∧ SameMem s t ∧ t.regs = s.regs ∧
        (t.job C).vmsg = none ∧ (t.job C).point = true) ∧
      (s.lastModule C ≤ s.moduleOf C → (s.job C).cause < 16 → ∃ t, exec (.verdictChainMsg h cause amax) s = .next t ∧
        delivered t (verdictSkip (cause.toNat ||| (s.job C).cause) (s.flag (R.NUM_CTL.skip_pin C))) (cause.toNat ||| (s.job C).cause))) ∧
    (∀ (h : RedHdr) (skip : Bool) (cause : BitVec 4) (amax : List (BitVec 12 × BitVec 32)), h.ctx = c → s.redMine h (s.redDir h) = true →
      ((s.job C).point = true → ∃ t, exec (.verdictBroadcastMsg h skip cause amax) s = .next t ∧ delivered t skip cause.toNat) ∧
      ((s.job C).point = false → ∃ t, exec (.verdictBroadcastMsg h skip cause amax) s = .next t ∧ SameMem s t ∧ t.regs = s.regs ∧ t.jobs = s.jobs)) ∧
    (s.Open → (∃ t, exec (.numCmdForceSkip c) s = .next t ∧ (t.job C).forced = true ∧ t.regs = s.regs ∧ SameMem s t ∧ t.seqs = s.seqs) ∧
      ∃ t, exec (.numCmdClear c) s = .next t ∧ t.get (R.NUM_SKIP.ovr C) = 0 ∧ t.get (R.NUM_SKIP.count C) = 0 ∧ t.get (R.NUM_SKLAST.step C) = 0 ∧
        t.get (R.NUM_SKLAST.cause C) = 0 ∧ { t with regs := s.regs } = s) ∧
    (∀ (m : Master) (die : Fin 24) (i : BitVec 8) (v : SctlVal), let n := die.val
      let x := sctlBits v
      let lo := match v with
        | .high _ => false
        | .low _ | .whole _ => true
      let hi := match v with
        | .low _ => false
        | .high _ | .whole _ => true
      let is := fun (t : State) (f : Fld) (half : Bool) (w : Nat) => t.get f = if half then w else s.get f
      (s.Open → s.halfInReset (halfOfDie n) = true → exec (.numSctlWrite m die i v) s =
        .next (s.raise E.LINK_HALF_DOWN none (atEntry (ldOfDie n)) n)) ∧
      (s.Open → s.halfInReset (halfOfDie n) = false →
      (s.owns m 2 = true → s.dieQuiet n = true → ∃ t, exec (.numSctlWrite m die i v) s = .next t ∧ SameMem s t ∧ t.seqs = s.seqs ∧
        is t (R.NUM_SCTL.lower_en n i.toNat) hi (bits x 33 1) ∧ is t (R.NUM_SCTL.sid n i.toNat) hi (bits x 48 12) ∧
        is t (R.NUM_SCTL.x_pin n i.toNat) hi (bits x 40 8) ∧ is t (R.NUM_SCTL.h n i.toNat) lo (bits x 28 4) ∧
        is t (R.NUM_SCTL.k n i.toNat) lo (bits x 24 4) ∧ is t (R.NUM_SCTL.clean_lim n i.toNat) lo (bits x 0 16) ∧
        is t (R.NUM_SCTL.fmt n i.toNat) (hi && (fmtMax (bits x 36 4)).isSome) (bits x 36 4) ∧
        is t (R.NUM_SCTL.mode n i.toNat) (hi && decide (bits x 34 2 ≠ 3)) (bits x 34 2) ∧
        (hi = true → (fmtMax (bits x 36 4) = none ∨ bits x 34 2 = 3) → (t.log.head?.map LogEntry.code) = some E.CFG_RANGE)) ∧
      (s.owns m 2 = true → s.dieQuiet n = false → ∃ t, exec (.numSctlWrite m die i v) s = .next t ∧ t.regs = s.regs ∧ SameMem s t ∧
        KMap.find (fun _ => []) t.sctlPend (256 * n + i.toNat) = KMap.find (fun _ => []) s.sctlPend (256 * n + i.toNat) ++ [v]) ∧
      (s.owns m 2 = false → ∃ t, exec (.numSctlWrite m die i v) s = .next t ∧ t.sctlPend = s.sctlPend ∧ SameMem s t ∧
        t.get (R.NUM_SCTL.mode n i.toNat) = s.get (R.NUM_SCTL.mode n i.toNat) ∧ (t.log.head?.map LogEntry.code) = some E.CFG_OWNER)))

/-! ## Hauling -/

/-- R322, R326, R329 to R333, R338, R345, R455: a channel takes its next request; its manifest is accepted or refused with a status; reads come or are tried
again; a checked billet lands; the end of a request writes its entry back. Where the spec is silent or can be read two ways, the clauses rest on log entries 14, 56, 127, 128, 129, 132, 133, 144, 163 (the model's choice). -/
def Obligations.HaulRequests : Prop :=
  (∀ (s : State) (m : Master) (ch : Fin 64) (tail : BitVec 16), s.Open → let c := ch.val
    let torn := s.get (R.HAUL_CHAN.en c) = 1 ∧ 2 ≤ s.get (R.CTX_STATE.state (s.chanCtx c))
    (s.owns m 2 = true → ¬torn → exec (.haulTailWrite m ch tail) s = .next (s.put (R.HAUL_PTR.tail c) tail.toNat)) ∧
    (s.owns m 2 = true → torn → exec (.haulTailWrite m ch tail) s = .next s) ∧
    (s.owns m 2 = false → ∃ t, exec (.haulTailWrite m ch tail) s = .next t ∧ t.get (R.HAUL_PTR.tail c) = s.get (R.HAUL_PTR.tail c) ∧
      (t.log.head?.map LogEntry.code) = some E.CFG_OWNER)) ∧
  (∀ (s : State) (ch : Fin 64) (e : List Byte) (o : HOrigin), let c := ch.val
    let src := rqSrc e
    let go := s.get (R.HAUL_SSTAT.state src) = 2 ∧ 0 < (s.srcQueues src).1 ∧ 0 < (s.srcQueues src).2
    (s.chanFree c = false → exec (.haulRequestHaul ch) s = .next s ∧ exec (.haulRequestVerify ch) s = .next s) ∧
    (s.chanFree c = true → (∃ rest, (s.haul c).fq = (o, e) :: rest) ∨ (s.haul c).fq = [] ∧ s.ringEntry c = some e ∧ o = .ring →
    ∀ i, (i = .haulRequestHaul ch ∧ ((s.haul c).fq = [] → rqOp e ≠ 2) ∨ i = .haulRequestVerify ch ∧ (s.haul c).fq = [] ∧ rqOp e = 2) →
      ∃ t, exec i s = .next t ∧ (∀ x, t.byte x = s.byte x) ∧ t.get (R.HAUL_CSTAT.state c) = 2 ∧ (t.haul c).fq = (s.haul c).fq.tail ∧
        ∃ r, (t.haul c).req = some r ∧ r.origin = o ∧ r.entry = e ∧ r.next = rqFirst e ∧ r.man = [] ∧ r.keys = none ∧
        if (rqOp e = 1 ∨ rqOp e = 2) ∧ s.get (R.HAUL_SRC.en src) = 1 ∧ s.get (R.HAUL_SRC.ctx src) = s.chanCtx c then
          r.phase = 0 ∧ r.status = 0 ∧ (rqHeld e = true → r.mread = none) ∧
          (rqHeld e = false → (∀ d, d ≠ c → ∀ q, (s.haul d).req = some q → rqSrc q.entry ≠ src) →
            (¬go → r.mread = none) ∧
            (go → (∃ x, r.mread = some x ∧ x.sent = true ∧ x.again = false) ∧
              (s.cagePaused (s.get (R.HAUL_SRC.cage src)) = false → t.out.head? = some (.nvme src 1 (rqSbase e + rqMoff e) 4096))))
        else r.phase = 2 ∧ r.status = 11 ∧ (t.log.head?.map LogEntry.code) = some E.HAUL_REQ)) ∧
  (∀ (s : State) (ch : Fin 64) (r : HaulReq) (data : List Byte), let c := ch.val
    let ctx := s.chanCtx c
    let e := r.entry
    let i := fun (io : Bool) => Instr.haulManifestFetched ch io data () ()
    let judged := fun (t : State) (u : HaulReq) (m : List Byte) =>
      let keys := standKeys s.mfg.bindKey m s.mfg.kid
      let st := manCheck m keys
      let cause := if st ≠ 0 then st else if manBillets m < rqFirst e + rqCount e then 11 else if s.rangesOk ctx e m = false then 6
        else if permRefused c e m = true then 5 else 0
      (cause ≠ 0 → u.phase = 2 ∧ u.status = cause ∧ (t.log.head?.map LogEntry.code) = some (haulCode cause)) ∧
      (cause = 0 → rqOp e = 1 → u.man = m ∧ u.entry = e ∧ u.status = r.status ∧ u.keys = keys ∧ (u.phase = 1 ∨ u.phase = 2))
    (s.haul c).req = some r →
    (r.phase ≠ 0 → ∀ io, exec (i io) s = .next s) ∧
    (r.phase = 0 → rqHeld e = false → (r.mread = none ∨ ∃ x, r.mread = some x ∧ x.sent = false) → ∀ io, exec (i io) s = .next s) ∧
    (∀ x, r.phase = 0 → rqHeld e = false → r.mread = some x → x.sent = true → let a := rqMbuf e + r.man.length
      let w := manWrites r.man data
      (x.again = false → ∃ t, exec (i true) s = .next t ∧ SameMem s t ∧ t.regs = s.regs ∧ ∃ u, (t.haul c).req = some u ∧ u.phase = 0 ∧ u.man = r.man ∧
        u.status = r.status ∧ ∃ y, u.mread = some y ∧ y.again = true) ∧
      (x.again = true → ∃ t, exec (i true) s = .next t ∧ SameMem s t ∧ (t.log.head?.map LogEntry.code) = some E.HAUL_IO ∧
        ∃ u, (t.haul c).req = some u ∧ u.phase = 2 ∧ u.status = 7) ∧
      (s.permits ctx a w.length true = true → s.s0Refused a w.length = [] → s.badIn a w.length = [] → ∃ t,
        exec (i false) s = .next t ∧ (∀ j, j < w.length → t.byte (a + j) = w.getD j 0) ∧ SameMemBut s t a w.length ∧
        ∃ u, (t.haul c).req = some u ∧
        (manMore r.man (r.man ++ data) = true → u.phase = 0 ∧ u.man = r.man ++ data ∧ u.status = r.status) ∧
        (manMore r.man (r.man ++ data) = false → judged t u (r.man ++ data)))) ∧
    (r.phase = 0 → rqHeld e = true → ∀ io, ∃ t, exec (i io) s = .next t ∧ (∀ x, t.byte x = s.byte x) ∧
      ∃ u, (t.haul c).req = some u ∧
      (s.permits ctx (rqMbuf e) 256 false = false → u.phase = 2 ∧ u.status = 6) ∧
      (s.permits ctx (rqMbuf e) 256 false = true →
        judged t u (s.s0Bytes (rqMbuf e) (min (leNat (s.s0Bytes (rqMbuf e + 72) 8)) (2 ^ 28)))))) ∧
  (∀ (s : State) (ch : Fin 64) (b : BitVec 20) (p : BitVec 11) (r : HaulReq), let c := ch.val
    let v := billetAt r.man b.toNat
    let a := landAddr r.entry v
    let mine := fun (x : HRead) => decide (x.billet = b.toNat ∧ x.part = p.toNat)
    (s.haul c).req = some r →
    (∀ d : List Byte, d.length = partBytes v p.toNat → r.reads.any mine = true →
      let plain := billetPlain r.man r.key b.toNat (p.toNat * 2 ^ 20) d
      let w := if bForm v then (a, (List.range (bDlen v)).map (Config.haulByte s.free)) else (a + p.toNat * 2 ^ 20, plain)
      ∃ t, exec (.nvmeReadCompletion ch b p (some d)) s = .next t ∧ SameMemBut s t w.1 w.2.length ∧
      (s.haulGated c = true → ∀ x, t.byte x = s.byte x) ∧
      (s.haulGated c = false → s.permits (s.chanCtx c) w.1 w.2.length true = true → s.s0Refused w.1 w.2.length = [] →
        s.badIn w.1 w.2.length = [] → ∀ j, j < w.2.length → t.byte (w.1 + j) = w.2.getD j 0) ∧
      ∃ u, (t.haul c).req = some u ∧ u.man = r.man ∧ u.status = r.status ∧ u.bad = r.bad ∧
        ∀ y ∈ r.opn, y.i = b.toNat → ∃ z ∈ u.opn, z.i = b.toNat ∧ z.got = y.got + 1 ∧ z.parts = y.parts ++ [(p.toNat, d)]) ∧
    ((∀ x ∈ r.reads, mine x = false) → ∀ d, exec (.nvmeReadTimeout ch b p) s = .next s ∧ exec (.nvmeReadCompletion ch b p d) s = .next s) ∧
    (∀ x, r.reads.find? mine = some x → ∀ (d : List Byte), d.length ≠ partBytes v p.toNat →
      ∀ i ∈ [Instr.nvmeReadTimeout ch b p, .nvmeReadCompletion ch b p none, .nvmeReadCompletion ch b p (some d)],
      (x.again = false → ∃ t, exec i s = .next t ∧ SameMem s t ∧ t.regs = s.regs ∧ ∃ u, (t.haul c).req = some u ∧ u.status = r.status ∧ u.bad = r.bad ∧
        (∃ y ∈ u.reads, mine y = true ∧ y.again = true) ∧
        (s.get (R.HAUL_SSTAT.state (rqSrc r.entry)) ≠ 2 → t.out = s.out ∧ ∃ y ∈ u.reads, mine y = true ∧ y.sent = false)) ∧
      (x.again = true → ∃ t, exec i s = .next t ∧ SameMem s t ∧ ∃ u, (t.haul c).req = some u ∧ u.bad = min (r.bad + 1) 65535 ∧
        u.status = (if r.status = 0 then 7 else r.status)))) ∧
  (∀ (s : State) (ch : Fin 64) (i : BitVec 20) (r : HaulReq) (x : HBillet), let c := ch.val
    let b := billetAt r.man i.toNat
    let a := landAddr r.entry b
    let stored := x.stored (billetParts b)
    let plain := billetPlain r.man r.key i.toNat 0 stored
    let src := if bit (bPerm b) 0 then Zstd.decode plain else some plain
    let good := ∃ d, src = some d ∧ srcSizeOk b d = true
    let st := if billetTagOk r.man r.key i.toNat stored = false then 3 else if sha384 plain ≠ bDigest b then 4
      else if bForm b = true ∧ sourceOf b plain = none then 9 else 0
    let put := if bForm b then ((sourceOf b plain).map (landed b)).getD ([], 0) else ([], 0)
    let at' := digestAt r.entry r.man i.toNat
    let dg := if bForm b = true ∧ st = 0 then sha384 put.1 else []
    let may := fun (y : Nat) (l : List Byte) => l = [] ∨ s.permits (s.chanCtx c) y l.length true = true
    let free := fun (y : Nat) (l : List Byte) => s.s0Refused y l.length = [] ∧ s.badIn y l.length = []
    (s.haul c).req = some r → r.opn.find? (fun y => decide (y.i = i.toNat)) = some x → i.toNat < r.next →
    (sourceOf b plain = none ↔ ¬good) ∧
    ((∀ y ∈ r.opn, y.i = i.toNat → y.got ≠ billetParts b) ∨ s.haulGated c = true → exec (.haulBilletCheck ch i () () ()) s = .next s) ∧
    (x.got = billetParts b → s.haulGated c = false → x.late = [] → ∃ t, exec (.haulBilletCheck ch i () () ()) s = .next t ∧
      (may a put.1 → may at' dg → free a put.1 → free at' dg →
        (∀ j, j < put.1.length → (a + j < at' ∨ at' + dg.length ≤ a + j) → t.byte (a + j) = put.1.getD j 0) ∧
        (∀ j, j < dg.length → t.byte (at' + j) = dg.getD j 0) ∧
        (∀ y, (y < a ∨ a + put.1.length ≤ y) → (y < at' ∨ at' + dg.length ≤ y) → t.byte y = s.byte y) ∧
        s.Counted t (R.HAUL_BYTES.count c) put.1.length ∧ s.Counted t (R.HAUL_SAT.count c) put.2) ∧
      ∃ u, (t.haul c).req = some u ∧
      (x.barred = false → may a put.1 → may at' dg →
        (st = 0 → (∀ y ∈ u.opn, y.i ≠ i.toNat) ∧ u.bad = r.bad ∧ u.status = r.status) ∧
        (st ≠ 0 → x.tries < s.get R.HAUL_CTL.retries → (∃ y ∈ u.opn, y.i = i.toNat ∧ y.tries = x.tries + 1 ∧ y.got = 0) ∧ u.bad = r.bad) ∧
        (st ≠ 0 → s.get R.HAUL_CTL.retries ≤ x.tries → (∀ y ∈ u.opn, y.i ≠ i.toNat) ∧ u.bad = min (r.bad + 1) 65535 ∧
          u.status = (if r.status = 0 then st else r.status))) ∧
      (x.barred = true ∨ ¬may a put.1 ∨ ¬may at' dg → (∀ y ∈ u.opn, y.i ≠ i.toNat) ∧
        u.bad = min (r.bad + 1) 65535 ∧ u.status = (if r.status = 0 then 6 else r.status))) ∧
    (∀ p, x.got = billetParts b → s.haulGated c = false → bForm b = false → x.late = [p] →
      let l := billetPlain r.man r.key i.toNat (p * 2 ^ 20) ((stored.drop (p * 2 ^ 20)).take (partBytes b p))
      ∃ t, exec (.haulBilletCheck ch i () () ()) s = .next t ∧ SameMemBut s t (a + p * 2 ^ 20) l.length ∧
        (may (a + p * 2 ^ 20) l → free (a + p * 2 ^ 20) l → ∀ j, j < l.length → t.byte (a + p * 2 ^ 20 + j) = l.getD j 0))) ∧
  (∀ (s : State) (ch : Fin 64) (r : HaulReq), let c := ch.val
    (s.haul c).req = some r →
    (r.phase ≠ 2 → exec (.haulRequestComplete ch) s = .next s) ∧
    (r.phase = 2 → ∃ t, exec (.haulRequestComplete ch) s = .next t ∧ (t.haul c).req = none ∧ (t.haul c).fq = (s.haul c).fq ∧
      t.get (R.HAUL_CSTAT.last c) = r.status % 2 ^ (R.HAUL_CSTAT.last c).w ∧
      t.get (R.HAUL_CSTAT.state c) = (if s.get (R.HAUL_CHAN.en c) = 1 then 1 else 0) ∧
      (r.origin = .ring → let head := s.get (R.HAUL_PTR.head c)
        let a := s.get (R.HAUL_RING.base c) + 64 * head
        t.get (R.HAUL_PTR.head c) = (if s.get (R.HAUL_RLEN.len c) ≤ head + 1 then 0 else head + 1) % 2 ^ 16 ∧
        (s.s0Refused (a + 56) 8 = [] → s.badIn (a + 56) 8 = [] → t.byte (a + 63) = 1 ∧ t.byte (a + 60) = BitVec.ofNat 8 r.status ∧
          SameMemBut s t (a + 56) 8)) ∧
      (∀ l i, r.origin = .refill l i → KMap.find (fun _ => 0) s.refill (4 * l + i) = 2 →
        KMap.find (fun _ => 0) t.refill (4 * l + i) = (if r.status = 0 then 3 else 1)))) ∧
  (∀ (s : State) (ch : Fin 64), (s.haul ch.val).req = none → ∀ io b p ok data, exec (.haulManifestFetched ch io data () ()) s = .next s ∧
    exec (.nvmeReadCompletion ch b p ok) s = .next s ∧ exec (.nvmeReadTimeout ch b p) s = .next s ∧
    exec (.haulBilletCheck ch b () () ()) s = .next s ∧ exec (.haulRequestComplete ch) s = .next s)

/-- R188, R325, R326, R338 to R341, R343, R344, R447: sources connect, are lost and time out; the commits of channels and sources; scrubs; what the foreman
hauls again and refills. Where the spec is silent or can be read two ways, the clauses rest on log entries 56, 131, 133, 152, 163 (the model's choice). -/
def Obligations.HaulSources : Prop :=
  (∀ (s : State) (src : Fin 64), let i := src.val
    let st := s.get (R.HAUL_SSTAT.state i)
    (∀ (x : SrcAnswer) (lba : BitVec 8) (size : BitVec 48),
      let ok := x.reached = true ∧ x.discovery = false ∧ x.auth = false ∧ x.tls = false ∧ x.metadata = 0 ∧ x.protect = 0 ∧ (lba = 9 ∨ lba = 12)
      (st = 1 → ok → exec (.haulSourceConnect src x lba size) s = .next ((s.puts [(R.HAUL_SSTAT.state i, 2),
        (R.HAUL_SSTAT.lba i, b2n (decide (lba = 12))), (R.HAUL_SSTAT.size i, size.toNat)]).srcGo i)) ∧
      (st = 1 → ¬ok → exec (.haulSourceConnect src x lba size) s = .next (s.put (R.HAUL_SSTAT.state i) 3)) ∧
      (st ≠ 1 → exec (.haulSourceConnect src x lba size) s = .next s)) ∧
    (st = 2 → ∃ t, exec (.haulConnectionLoss src) s = .next t ∧ t.get (R.HAUL_SSTAT.state i) = 1 ∧ SameRegsBut s t [R.HAUL_SSTAT.state i] ∧
      (s.cagePaused (s.get (R.HAUL_SRC.cage i)) = false → t.out = (s.connectOut i).reverse ++ s.out) ∧ SameMem s t ∧ t.hauls = s.hauls) ∧
    (st ≠ 2 → exec (.haulConnectionLoss src) s = .next s) ∧
    (∀ ch r fq, s.hauls = [(ch, ⟨some r, fq⟩)] → st ≠ 2 → rqSrc r.entry = i → ∃ t u, exec (.haulSourceTimeout src) s = .next t ∧
      (t.haul ch).req = some u ∧ SameMem s t ∧
      (r.phase = 0 → rqHeld r.entry = false → u.phase = 2 ∧ u.status = 7 ∧ (t.log.head?.map LogEntry.code) = some E.HAUL_IO) ∧
      (r.phase = 1 → waitingBillets r ≠ [] → u.status = (if r.status = 0 then 7 else r.status) ∧
        u.bad = min (r.bad + (waitingBillets r).length) 65535 ∧ ∀ b ∈ waitingBillets r, ∀ y ∈ u.opn, y.i ≠ b) ∧
      ((r.phase = 0 ∧ rqHeld r.entry = true ∨ r.phase = 2) → t = s)) ∧
    (st = 2 → exec (.haulSourceTimeout src) s = .next s) ∧
    (s.Open → s.get R.HAUL_SCSTAT.busy = 0 →
      let en := s.sget (R.HAUL_SRC.en i) = 1
      let ctx := s.sget (R.HAUL_SRC.ctx i)
      let cage := s.sget (R.HAUL_SRC.cage i)
      let a := s.sget (R.HAUL_CONN.addr i)
      let t' := s.sget (R.HAUL_SRC.transport i)
      let good := s.leaving ctx = false ∧ s.permits ctx a 1024 false = true ∧ s.cageEther cage = true ∧ (en → t' ≠ 0 ∧ t' ≠ 3)
      let read := s.s0Ok a 1024 = true ∧ 1 ≤ s.le (a + 546) 2 ∧ s.le (a + 546) 2 ≤ 1024 ∧ 1 ≤ s.le (a + 548) 1 ∧ s.le (a + 548) 1 ≤ 16
      ∃ t, exec (.haulScommit src) s = .next t ∧ (∀ x, t.byte x = s.byte x) ∧
        (s.cageFitted cage = false → (∀ f ∈ srcGroup i, t.get f = s.get f) ∧ t.get R.HAUL_SCSTAT.result = 3 ∧
          (t.log.head?.map LogEntry.code) = some E.CFG_ABSENT) ∧
        (s.cageFitted cage = true → ¬good → (∀ f ∈ srcGroup i, t.get f = s.get f) ∧ t.get R.HAUL_SCSTAT.result = 2 ∧
          (t.log.head?.map LogEntry.code) = some E.CFG_COMMIT) ∧
        (s.cageFitted cage = true → good → (∀ f ∈ srcGroup i, t.get f = s.sget f) ∧ t.get R.HAUL_SCSTAT.result = 1 ∧
          t.get (R.HAUL_SSTAT.state i) = (if ¬en then 0 else if read then 1 else 3) ∧
          (en → read → KMap.find (fun _ => []) t.srcConn i = s.bytes a 1024) ∧ (¬en → KMap.find (fun _ => []) t.srcConn i = [])))) ∧
  (∀ (s : State) (ch : Fin 64), let c := ch.val
    let en := s.sget (R.HAUL_CHAN.en c) = 1
    let ctx := s.sget (R.HAUL_CHAN.ctx c)
    let base := s.sget (R.HAUL_RING.base c)
    let n := 64 * s.sget (R.HAUL_RLEN.len c)
    let good := s.leaving ctx = false ∧ base % 64 = 0 ∧ s.permits ctx base n true = true ∧ s.permits ctx base n false = true ∧
      s.sget (R.HAUL_CHAN.vec c) / 32 = ctx ∧ (en → (s.haul c).req = none)
    s.Open → s.get R.HAUL_CCSTAT.busy = 0 → ∃ t, exec (.haulCcommit ch) s = .next t ∧
      (en → c < 4 → s.haulDie c = none → (∀ f ∈ chanGroup c, t.get f = s.get f) ∧ t.get R.HAUL_CCSTAT.result = 3 ∧ SameMem s t ∧
        (t.log.head?.map LogEntry.code) = some E.CFG_ABSENT) ∧
      ((en → c < 4 → s.haulDie c ≠ none) → ¬good → (∀ f ∈ chanGroup c, t.get f = s.get f) ∧ t.get R.HAUL_CCSTAT.result = 2 ∧ SameMem s t ∧
        (t.log.head?.map LogEntry.code) = some E.CFG_COMMIT) ∧
      ((en → c < 4 → s.haulDie c ≠ none) → good → (∀ f ∈ chanGroup c, t.get f = s.sget f) ∧ t.get R.HAUL_CCSTAT.result = 1 ∧
        (en → t.get (R.HAUL_CSTAT.state c) = 1 ∧ SameMem s t) ∧ (¬en → t.get (R.HAUL_CSTAT.state c) = 0 ∧ (t.haul c).req = none))) ∧
  (∀ (s : State) (r : Fin 256), let i := r.val
    let runs := s.get (R.HAUL_STREC.valid i) = 1 ∧ s.scrubTicks (s.s0Bytes (s.get (R.HAUL_STREC.mbuf i)) 256) ≠ 0 ∧ s.get R.HAUL_CTL.scrub_off = 0 ∧
      s.get R.PWR_STAT.rung < 2
    (runs → exec (.haulScrubDue r) s = .next (s.setHrec i { s.hrec i with pass := true, skip := s.haulRanges })) ∧
    (¬runs → exec (.haulScrubDue r) s = .next s) ∧
    let waits := s.edgeBusy (s.srcEdge (rqSrc (s.hrec i).entry)) = true
    ((s.hrec i).pass = true → s.get R.PWR_STAT.rung < 2 → ¬waits → ∃ t, exec (.haulScrubPassEnd r) s = .next t ∧ (t.hrec i).pass = false ∧
      (t.hrec i).skip = [] ∧ (∀ x, t.byte x = s.byte x) ∧ t.get (R.HAUL_STREC.last i) = s.tick 0 % 2 ^ (R.HAUL_STREC.last i).w ∧
      ((s.hrec i).entries = [] → t.quarLen = s.quarLen)) ∧
    (((s.hrec i).pass = false ∨ 2 ≤ s.get R.PWR_STAT.rung ∨ waits) → exec (.haulScrubPassEnd r) s = .next s)) ∧
  (∀ (s : State) (q : Fin 32), let j := q.val
    let r := s.get (R.HAUL_QUAR.rec j)
    let ch := s.get (R.HAUL_STREC.chan r)
    s.get (R.HAUL_QUAR.active j) = 1 → r < 256 → s.get R.HAUL_CTL.rehaul_pin = 0 → s.get (R.HAUL_QUAR.tries j) < 3 →
    (∀ x ∈ (s.haul ch).fq, x.1 ≠ .rehaul j) → (∀ x, (s.haul ch).req = some x → x.origin ≠ .rehaul j) → ∃ t,
      exec (.foremanRehaul q) s = .next t ∧ SameMem s t ∧ t.get (R.HAUL_QUAR.tries j) = s.get (R.HAUL_QUAR.tries j) + 1 ∧
      (let n := s.get (R.HAUL_QUAR.billet j)
       let m := s.recMan r
       let at' := fun (e : List Byte) => landAddr e (billetAt m n) = s.get (R.HAUL_QUAR.base j)
       ∃ e, (t.haul ch).fq = (s.haul ch).fq ++ [(.rehaul j, rehaulEntry e n)] ∧
         ((∃ p ∈ (s.hrec r).landings m, p.2 = n ∧ at' p.1) → at' e ∧ ∃ p ∈ (s.hrec r).landings m, p = (e, n)) ∧
         (¬(∃ p ∈ (s.hrec r).landings m, p.2 = n ∧ at' p.1) → e = (s.hrec r).entry)) ∧
      (t.haul ch).req = (s.haul ch).req) ∧
  (∀ (s : State) (l : Fin 96) (sl : Fin 4), let k := 4 * l.val + sl.val
    let at' := KMap.find (fun _ => 0) s.refill k
    (∀ (ch : Fin 64) (entry : BitVec 512), at' = 1 → ∃ t, exec (.foremanRefillLoad l sl ch entry) s = .next t ∧
      KMap.find (fun _ => 0) t.refill k = 2 ∧ SameMem s t ∧ t.regs = s.regs ∧
      (t.haul ch.val).fq = (s.haul ch.val).fq ++ [(.refill l.val sl.val, leBytes 64 entry.toNat)]) ∧
    (∀ (ch : Fin 64) (entry : BitVec 512), at' ≠ 1 → exec (.foremanRefillLoad l sl ch entry) s = .next s) ∧
    (at' = 3 → s.get R.VER_CTL.pin = 0 → s.leaving (s.seqCtx l.val) = false → s.halfInReset (halfOfDie (l.val / 4)) = false → s.vst l.val sl.val = verBUILDING →
      s.layersBad (s.seqCtx l.val) l.val sl.val = false → ∃ t,
      exec (.foremanRefillLive l sl) s = .next t ∧ t.vst l.val sl.val = verLIVE ∧ t.get R.VER_CSTAT.result = 1 ∧ SameMem s t) ∧
    ((at' ≠ 3 ∨ s.get R.VER_CTL.pin = 1) → exec (.foremanRefillLive l sl) s = .next s))

/-! ## Checkpoints and buddy copies -/

/-- R352, R358 to R361, R372, R376: the area's commit; an attempt from its command to its commit record; how it ends. Where the spec is silent or can be read two ways, the clauses rest on log entries 14, 17, 63, 64, 141, 153, 157, 158, 159 (the model's choice). -/
def Obligations.CheckpointAttempts : Prop :=
  (∀ (s : State) (c : Fin 64), let C := c.val
    let st := s.ckState C
    let ended := fun (t : State) (code : Nat) => t.ckState C = ckIDLE ∧ t.get (R.CKPT_RES.code C) = code ∧
      t.get (R.CKPT_RES.step C) = s.get (R.CKPT_STAT.step C) ∧ t.get (R.CKPT_CUR.seq C) = s.get (R.CKPT_CUR.seq C) ∧ SameMem s t
    (s.Open →
      (s.get R.CKPT_ACSTAT.busy = 0 → ∃ t, exec (.ckptAcommit c) s = .next t ∧ SameMem s t ∧
        if s.leaving C = false ∧ st = ckIDLE ∧ s.ckAreaBad C = false then
          (∀ f ∈ ckptGroup C, f.a ≠ (R.CKPT_AREA.enc C).a → t.get f = s.sget f) ∧ t.get R.CKPT_ACSTAT.result = 1 ∧
          t.get (R.CKPT_AREA.enc C) = (if s.sget (R.CKPT_AREA.target C) = 1 then 0 else s.sget (R.CKPT_AREA.enc C))
        else (∀ f ∈ ckptGroup C, t.get f = s.get f) ∧ t.get R.CKPT_ACSTAT.result = 2 ∧ (t.log.head?.map LogEntry.code) = some E.CFG_COMMIT) ∧
      (∀ key, s.leaving C = false → st = ckIDLE → s.get (R.CKPT_AREA.en C) = 1 → s.awake = true → ∃ t, exec (.ckptCmdTake c key) s = .next t ∧ SameMem s t ∧
        t.ckState C = ckARMED ∧ t.get (R.CKPT_CUR.attempt C) = (s.get (R.CKPT_CUR.attempt C) + 1) % 2 ^ 16 ∧
        t.get (R.CKPT_CUR.seq C) = s.get (R.CKPT_CUR.seq C) ∧
        (t.ckpt C).key = if s.ckEnc C = true ∧ s.moduleOf C = 0 then some (leBytes 32 key.toNat) else (s.ckpt C).key) ∧
      (∀ key, (s.leaving C = true ∨ st ≠ ckIDLE ∨ s.get (R.CKPT_AREA.en C) = 0 ∨ s.awake = false) → ∃ t, exec (.ckptCmdTake c key) s = .next t ∧
        SameMem s t ∧ t.ckState C = st ∧ t.ckpts = s.ckpts ∧ t.get (R.CKPT_CUR.attempt C) = s.get (R.CKPT_CUR.attempt C) ∧
        (t.log.head?.map LogEntry.code) = some (if s.leaving C then E.CFG_COMMIT else E.CFG_RANGE)) ∧
      (let gone := s.moduleOf C ≠ 0 ∧ st = ckCHAINING ∧ (s.moduleOf C = s.lastModule C ∨ (s.ckpt C).chain ≠ none)
       ckARMED ≤ st → st ≤ ckCOMMITTING → (¬gone → ∃ t, exec (.ckptCmdAbort c) s = .next t ∧ ended t 10) ∧
        (gone → ∃ t, exec (.ckptCmdAbort c) s = .next t ∧ SameMem s t ∧ t.regs = s.regs ∧ t.ckpts = s.ckpts)) ∧
      (¬(ckARMED ≤ st ∧ st ≤ ckCOMMITTING) → exec (.ckptCmdAbort c) s = .next s)) ∧
    ((s.ckpt C).bread = false → s.cutTable C 0 ≠ none →
      ((s.ckpt C).reading = false → exec (.ckptPositionRead c) s = .next s) ∧
      (s.ckEnc C = true → (s.ckpt C).key = none → exec (.ckptPositionRead c) s = .next s) ∧
      (s.patrolPaused = true → exec (.ckptPositionRead c) s = .next s) ∧
      (∀ tb, s.cutTable C 0 = some tb → ∀ p L rest, (s.ckpt C).todo = (p, L) :: rest → st = ckREADING →
        ¬(s.ckEnc C = true ∧ (s.ckpt C).key = none) → s.patrolPaused = false →
        ((s.ckpt C).reading = true → s.posReady C tb p (s.get (R.CKPT_STAT.step C)) = false →
          exec (.ckptPositionRead c) s = .next (s.s0Notes (some C) (s.readyWords C tb p))) ∧
        (∃ t, exec (.ckptPositionRead c) s = .next t ∧ (t.ckState C = ckREADING → (s.ckpt C).reading = true →
          s.posReady C tb p (s.get (R.CKPT_STAT.step C)) = true → (t.ckpt C).todo = rest.dropWhile (fun x => decide (x.1 = p))))) ∧
      (let len := 4096 + ceilDiv ((s.ckpt C).recd.length + 16 * b2n (s.ckEnc C)) 4096 * 4096
       st = ckREADING → (s.ckpt C).reading = true → (s.ckpt C).todo = [] → s.get (R.CKPT_XREG.n C) = 0 →
        ¬(s.ckEnc C = true ∧ (s.ckpt C).key = none) → s.patrolPaused = false → ∃ t,
        exec (.ckptPositionRead c) s = .next t ∧
        ((s.ckpt C).cur + len ≤ s.get (R.CKPT_MSIZE.msize C) → t.ckState C = ckREADING ∧ (t.ckpt C).reading = false ∧
          (t.ckpt C).cur = (s.ckpt C).cur + len ∧ (t.ckpt C).list.length = (s.ckpt C).list.length + 1 ∧
          (t.ckpt C).writes.take (s.ckpt C).writes.length = (s.ckpt C).writes ∧
          (((t.ckpt C).writes.drop (s.ckpt C).writes.length).flatMap (fun w => w.data)).length = len) ∧
        (s.get (R.CKPT_MSIZE.msize C) < (s.ckpt C).cur + len → ended t 11))) ∧
    (let more := 64 + ((s.ckpt C).list.flatten).length
     (st = ckREADING ∧ (s.ckpt C).reading = false ∧ (s.ckpt C).writes = [] ∧ (s.ckpt C).part = none → ∃ t,
        exec (.ckptShardListWrite c) s = .next t ∧
        ((s.ckpt C).cur + more ≤ s.get (R.CKPT_MSIZE.msize C) → t.ckState C = ckREADING ∧ (∃ p, (t.ckpt C).part = some p ∧ p.length = 80) ∧
          ((t.ckpt C).writes.head?.map CkWrite.off) = some (s.ckRegion C + (s.ckpt C).cur)) ∧
        (s.get (R.CKPT_MSIZE.msize C) < (s.ckpt C).cur + more → ended t 11)) ∧
     (¬(st = ckREADING ∧ (s.ckpt C).reading = false ∧ (s.ckpt C).writes = [] ∧ (s.ckpt C).part = none) →
        exec (.ckptShardListWrite c) s = .next s)) ∧
    (∀ w ws, (s.ckpt C).writes = w :: ws →
      (s.ckMade C w = true → ∃ t, exec (.ckptStorageWriteDone c true) s = .next t ∧ SameMem s t ∧ s.Counted t (R.CKPT_BYTES.count C) w.data.length ∧
        (ws ≠ [] → (t.ckpt C).writes = ws ∧ t.ckState C = st) ∧
        (ws = [] → st = ckREADING → (s.ckpt C).part ≠ none → t.ckState C = ckCHAINING) ∧
        (ws = [] → st = ckCOMMITTING → (s.ckpt C).crec = true → t.ckState C = ckIDLE ∧ t.get (R.CKPT_RES.code C) = 0 ∧
          t.get (R.CKPT_CUR.seq C) = (s.get (R.CKPT_CUR.seq C) + 1) % 2 ^ 48 ∧ t.get (R.CKPT_CSTEP.step C) = s.get (R.CKPT_STAT.step C))) ∧
      ∀ ok, (ok = false ∨ s.ckMade C w = false) →
        (w.again = false → ∃ t, exec (.ckptStorageWriteDone c ok) s = .next t ∧ t.ckState C = st ∧ (t.ckpt C).writes = { w with again := true } :: ws ∧
          t.get (R.CKPT_BYTES.count C) = s.get (R.CKPT_BYTES.count C)) ∧
        (w.again = true → ∃ t, exec (.ckptStorageWriteDone c ok) s = .next t ∧ ended t 9)) ∧
    ((s.ckpt C).writes = [] → ∀ ok, exec (.ckptStorageWriteDone c ok) s = .next s) ∧
    (∀ (h : RedHdr) (parts : List Byte), h.ctx = c → s.redMine h (s.redDir h) = true → ∃ t, exec (.tallyChainMsg h parts) s = .next t ∧
      SameMem s t ∧ t.ckState C = st ∧
      (t.ckpt C).chain = if ckARMED ≤ st ∧ st ≤ ckCHAINING ∧ (s.ckpt C).broken = false then some parts else (s.ckpt C).chain) ∧
    (let missing := s.moduleOf C = 0 ∧ (st = ckCHAINING ∧ s.lastModule C ≠ 0 ∧ (s.ckpt C).chain = none ∨
       ckARMED ≤ st ∧ st ≤ ckCHAINING ∧ (s.ckpt C).broken = true)
     (missing → ∃ t, exec (.ckptTallyTimeout c) s = .next t ∧ ended t 10) ∧ (¬missing → exec (.ckptTallyTimeout c) s = .next s)) ∧
    (∀ draw nonce salt, (st ≠ ckCHAINING ∨ s.moduleOf C ≠ 0 ∨ (s.ckpt C).writes ≠ [] ∨ (s.ckpt C).part = none ∨ (s.ckpt C).broken = true ∨
      s.lastModule C ≠ 0 ∧ (s.ckpt C).chain = none) → exec (.ckptTallyWrite c draw nonce salt ()) s = .next s) ∧
    (∀ draw nonce salt p l, let ta := s.tallySigned C nonce (s.tallyBytes C (p ++ l) (s.ckEntries C draw) salt.toNat)
      st = ckCHAINING → s.moduleOf C = 0 → (s.ckpt C).writes = [] → (s.ckpt C).part = some p → (s.ckpt C).broken = false →
      (s.lastModule C = 0 ∧ l = [] ∨ s.lastModule C ≠ 0 ∧ (s.ckpt C).chain = some l) → ∃ t,
      exec (.ckptTallyWrite c draw nonce salt ()) s = .next t ∧
      (ta.length ≤ s.get (R.CKPT_TSIZE.tsize C) → t.ckState C = ckCOMMITTING ∧ (t.ckpt C).tally = some (ta.length, tallyDigest ta) ∧
        (t.ckpt C).writes ≠ [] ∧ ((t.ckpt C).writes.head?.map CkWrite.off) = some (s.ckBank C)) ∧
      (s.get (R.CKPT_TSIZE.tsize C) < ta.length → ended t 11)) ∧
    (∀ ta, st = ckCOMMITTING → (s.ckpt C).writes = [] → (s.ckpt C).crec = false → (s.ckpt C).tally = some ta → ∃ t,
      exec (.ckptCommitRecordWrite c) s = .next t ∧ t.ckState C = ckCOMMITTING ∧ (t.ckpt C).crec = true ∧
      ((t.ckpt C).writes.head?.map CkWrite.off) = some (s.get (R.CKPT_RING.ring C) +
        (s.get (R.CKPT_CUR.seq C) + 1) % nbanksOf (s.get (R.CKPT_AREA.nbanks C)) * s.ckBlock C)) ∧
    (((s.ckpt C).tally = none ∨ st ≠ ckCOMMITTING ∨ (s.ckpt C).writes ≠ [] ∨ (s.ckpt C).crec = true) →
      exec (.ckptCommitRecordWrite c) s = .next s)) ∧
  (∀ (s : State) (c : Fin 64), let C := c.val
    let st := s.ckState C
    (∀ (h : RedHdr), h.ctx = c → s.redMine h (s.redDir h) = true → let msg := fun (m : CkptMsg) => exec (.ckptKeyOutcomeMsg h m) s
      let kept := fun (t : State) => SameMem s t ∧ t.regs = s.regs ∧ t.ckpts = s.ckpts
      let ends := fun (t : State) (code step : Nat) => t.ckState C = ckIDLE ∧ t.get (R.CKPT_RES.code C) = code ∧
        t.get (R.CKPT_RES.step C) = step ∧ (t.ckpt C).key = none
      (∀ k, st ≠ ckRESTORING → ∃ t, msg (.key k) = .next t ∧ SameMem s t ∧ t.ckState C = st ∧ (t.ckpt C).key = some (leBytes 32 k.toNat)) ∧
      (∀ code step seq down, st ≠ ckIDLE → st ≠ ckRESTORING → ∃ t, msg (.outcome code step seq down) = .next t ∧ SameMem s t ∧
        ends t code.toNat step.toNat ∧ t.get (R.CKPT_CUR.seq C) = if code = 0 then seq.toNat else s.get (R.CKPT_CUR.seq C)) ∧
      (∀ code step seq down, st = ckIDLE → ∃ t, msg (.outcome code step seq down) = .next t ∧ SameMem s t ∧ t.regs = s.regs ∧ (t.ckpt C).key = none) ∧
      (∀ code step seq down, st = ckRESTORING → ∃ t, msg (.outcome code step seq down) = .next t ∧ ends t code.toNat step.toNat ∧
        (code.toNat ≤ 1 → t.get (R.CKPT_CUR.seq C) = seq.toNat ∧ t.get (R.CKPT_CSTEP.step C) = step.toNat ∧
          t.get (R.NUM_STEP.step C) = (step.toNat + 1) % 2 ^ 48) ∧
        (1 < code.toNat → SameMem s t ∧ t.get (R.CKPT_CUR.seq C) = s.get (R.CKPT_CUR.seq C) ∧ t.get (R.NUM_STEP.step C) = s.get (R.NUM_STEP.step C))) ∧
      (∀ k, st = ckRESTORING → ∃ t, msg (.key k) = .next t ∧ kept t) ∧
      (∀ (r : List Byte) (code : BitVec 16), st ≠ ckRESTORING → (∃ t, msg (.cand r) = .next t ∧ kept t) ∧ ∃ t, msg (.result code) = .next t ∧ kept t) ∧
      (∀ r, st = ckRESTORING → ∃ t, msg (.cand r) = .next t ∧ SameMem s t ∧ t.ckState C = st ∧ (t.ckpt C).cand = some r ∧ (t.ckpt C).res = none) ∧
      (∀ code, st = ckRESTORING → (s.ckpt C).res = none → ∃ t, msg (.result code) = .next t ∧ SameMem s t ∧ t.ckState C = st ∧
        (t.ckpt C).chainR = some code.toNat) ∧
      (s.moduleOf C = 0 → ckARMED ≤ st → st ≤ ckCOMMITTING → ∃ t, msg .abort = .next t ∧ SameMem s t ∧ ends t 10 (s.get (R.CKPT_STAT.step C))) ∧
      (s.moduleOf C ≠ 0 ∨ ¬(ckARMED ≤ st ∧ st ≤ ckCOMMITTING) → ∃ t, msg .abort = .next t ∧ kept t)))

/-- R351, R363, R364, R367, R368, R271, R376: a restore is refused while a stage is in a phase; one without a candidate ends; buddy copies and moved layers. Where the spec is silent or can be read two ways, the clauses rest on log entries 57, 61, 70, 124, 125, 157, 158 (the model's choice). -/
def Obligations.RestoreAndBuddy : Prop :=
  (∀ (s : State) (c : Fin 64), let C := c.val
    let st := s.ckState C
    (s.Open →
      (s.leaving C = true → exec (.ckptCmdRestore c) s = .next (s.raise E.CFG_COMMIT (some C) (atSteward 0) C)) ∧
      (s.leaving C = false → s.awake = false → exec (.ckptCmdRestore c) s = .next (s.cfgRange (some C) 0x03A1_0008)) ∧
      (s.leaving C = false → s.awake = true → s.activeStages C = [] → st = ckIDLE → ∃ t, exec (.ckptCmdRestore c) s = .next t ∧ SameMem s t ∧ t.ckState C = ckRESTORING ∧
        (t.ckpt C).cand = none ∧ (t.ckpt C).tried = none ∧ t.log = s.log) ∧
      (s.leaving C = false → s.awake = true → (s.activeStages C ≠ [] ∨ st ≠ ckIDLE) → ∃ t, exec (.ckptCmdRestore c) s = .next t ∧ SameMem s t ∧ t.ckState C = st ∧ t.ckpts = s.ckpts ∧
        t.get (R.CKPT_RES.code C) = 12 ∧ (t.log.head?.map LogEntry.code) = some E.CKPT_BUSY)) ∧
    (∀ io, st ≠ ckRESTORING → exec (.ckptRestoreLoad c io) s = .next s) ∧
    (∀ io, st = ckRESTORING → s.moduleOf C ≠ 0 → (s.ckpt C).cand = none → exec (.ckptRestoreLoad c io) s = .next s) ∧
    (∀ io r, (s.ckpt C).cand = some r → (s.moduleOf C = 0 ∨ (s.ckpt C).res ≠ none) → exec (.ckptRestoreLoad c io) s = .next s) ∧
    (∀ io r rs, s.candidates C io = r :: rs → st = ckRESTORING → s.moduleOf C = 0 → (s.ckpt C).cand = none → (s.ckpt C).tried = none →
      let u := s.ringNote C
      u.candCause C io r = 0 → ∃ t, exec (.ckptRestoreLoad c io) s = .next t ∧
        ((t.ckState C = ckRESTORING ∧ (t.ckpt C).tried = some (recSeq r) ∧ (t.ckpt C).top = some ((s.ckpt C).top.getD (recSeq r))) ∨
         (t.ckState C = ckIDLE ∧ t.get (R.CKPT_CUR.seq C) = recSeq r % 2 ^ 48 ∧
          ∀ ta, (u.candNote C r).ckRead C io (u.candAt C r).1 (u.candAt C r).2 = some ta →
            t.get (R.NUM_STEP.step C) = (fieldAt ta 16 8 + 1) % 2 ^ 48))) ∧
    (∀ io, st = ckRESTORING → s.moduleOf C = 0 → (s.ckpt C).cand = none → s.candidates C io = [] → ∃ t,
      exec (.ckptRestoreLoad c io) s = .next t ∧ SameMem s t ∧ t.ckState C = ckIDLE ∧ t.get (R.CKPT_RES.code C) = 2 ∧
      t.get (R.CKPT_CUR.seq C) = s.get (R.CKPT_CUR.seq C))) ∧
  (∀ (s : State) (h : RedHdr) (step off : BitVec 48) (data : List (BitVec 8)) (last : Bool), let C := h.ctx.val
    let size := s.get (R.CKPT_BBSIZE.size C)
    let bank := s.otherBank C
    let a := s.get (R.CKPT_BBASE.base C) + bank * size + off.toNat
    let big := size < off.toNat + data.length
    let no := big ∨ s.banksOk C = false ∨ s.patrolPaused = true ∨ (s.ckpt C).bover = true
    let en := s.get (R.CKPT_BUDDY.en C) = 1 ∧ ∀ L, (s.job C).redrawn = some L → L < step.toNat
    (s.redMine h (s.copyLink C) = true →
      (en → ¬no → s.s0Refused a data.length = [] → s.badIn a data.length = [] → ∃ t,
        exec (.buddyCopyMsg h step off data last) s = .next t ∧ (∀ i, i < data.length → t.byte (a + i) = data.getD i 0) ∧
        SameMemBut s t a data.length ∧ t.regs = s.regs ∧ (t.ckpt C).bin = if last then some step.toNat else none) ∧
      (en → no → ∃ t, exec (.buddyCopyMsg h step off data last) s = .next t ∧ SameMem s t ∧
        (t.ckpt C).bin = none ∧ (t.ckpt C).bover = !last ∧
        ((s.ckpt C).bover = true → t.log = s.log) ∧
        ((s.ckpt C).bover = false → big → (t.log.head?.map LogEntry.code) = some E.CKPT_SPACE) ∧
        ((s.ckpt C).bover = false → ¬big → s.banksOk C = false → (t.log.head?.map LogEntry.code) = some E.CFG_RANGE)) ∧
      (¬en → ∃ t, exec (.buddyCopyMsg h step off data last) s = .next t ∧ SameMem s t ∧ t.ckpts = s.ckpts)) ∧
    (∀ fits, s.redMine h (s.ackLink C) = true →
      ((s.ckpt C).bread = false → ∃ t, exec (.buddyAck h (some fits)) s = .next t ∧ SameMem s t ∧ (t.ckpt C).bwait = false ∧
        (fits = false → (s.ckpt C).bwait = true → (t.log.head?.map LogEntry.code) = some E.CKPT_SPACE) ∧
        ((fits = true ∨ (s.ckpt C).bwait = false) → t.log = s.log)) ∧
      ((s.ckpt C).bread = true → ∃ t, exec (.buddyAck h (some fits)) s = .next t ∧ SameMem s t ∧ t.ckpts = s.ckpts)) ∧
    (∀ n, (s.ckpt C).bin = some n → ∃ t, exec (.buddyAck h none) s = .next t ∧ SameMem s t ∧ t.get (R.CKPT_BSTEP.valid C) = 1 ∧
      t.get (R.CKPT_BSTEP.bank C) = bank % 2 ∧ t.get (R.CKPT_BSTEP.step C) = n % 2 ^ 48 ∧ (t.ckpt C).bin = none) ∧
    ((s.ckpt C).bin = none → exec (.buddyAck h none) s = .next s)) ∧
  (∀ (s : State) (h : RedHdr) (layer : BitVec 16) (kind : BitVec 2) (off : BitVec 48) (data : List (BitVec 8)) (next : Bool), let C := h.ctx.val
    s.redMine h (s.get (if next then R.RED_CTL.next C else R.RED_CTL.prev C)) = true →
    (∀ tb, s.cutTable C 0 = some tb → layer.toNat < tb.layers.length → let a := s.layerAddr C tb layer.toNat kind.toNat + off.toNat
      (s.permits C a data.length true = true → s.patrolPaused = false → s.s0Refused a data.length = [] → s.badIn a data.length = [] → ∃ t,
        exec (.layerStateMsg h layer kind off data next) s = .next t ∧
        (∀ i, i < data.length → t.byte (a + i) = data.getD i 0) ∧ SameMemBut s t a data.length ∧ t.regs = s.regs) ∧
      ((s.permits C a data.length true = false ∨ s.patrolPaused = true) → ∃ t, exec (.layerStateMsg h layer kind off data next) s = .next t ∧
        SameMem s t ∧ t.regs = s.regs) ∧
      (∃ t, exec (.layerStateMsg h layer kind off data next) s = .next t ∧ SameMemBut s t a data.length)) ∧
    ((s.cutTable C 0).all (fun tb => decide (tb.layers.length ≤ layer.toNat)) = true → ∃ t,
      exec (.layerStateMsg h layer kind off data next) s = .next t ∧ SameMem s t ∧ t.regs = s.regs))

/-! ## Memory: patrol, windows, regions -/

/-- R383, R385, R387, R390 to R392, R394, R395, R435, R534: patrol and the error-check pass count and log what they find; a window group is committed or
refused, and both groups must allow an access until the commit is done; global and buddy regions. Where the spec is silent or can be read two ways, the clauses rest on log entries 58, 59, 103, 112, 123 (the model's choice). -/
def Obligations.MemoryUpkeep : Prop :=
  (∀ (s : State) (a : BitVec 48) (err : Fin 5) (last : Bool), let x := a.toNat / 8 * 8
    let unit := match regionOf x with
      | .hbm _ => if s.backed x then some (s.place x).2.1 else none
      | .flume h => some (6 * h)
      | _ => none
    (∀ i, unit = some i →
      let bump := fun (t : State) => t.get (R.HBM_ECC.passes i) = if last then min (s.get (R.HBM_ECC.passes i) + 1) (2 ^ (R.HBM_ECC.passes i).w - 1)
        else s.get (R.HBM_ECC.passes i)
      ((s.get R.MEM_SCRUB_HBM.seconds = 0 ∨ s.patrolPaused = true ∨ s.halfInReset (s.homeLd x / 2) = true) →
        exec (.memPatrolRead a err last) s = .next s) ∧
      (s.get R.MEM_SCRUB_HBM.seconds ≠ 0 → s.patrolPaused = false → s.halfInReset (s.homeLd x / 2) = false → ∃ t,
        exec (.memPatrolRead a err last) s = .next t ∧ t.mem = s.mem ∧
        (err = 0 → s.isBad x = false → s.soft.contains x = false → bump t ∧ SameMem s t ∧ t.log = s.log ∧
          t.get (R.HBM_ECC.corr i) = s.get (R.HBM_ECC.corr i)) ∧
        ((err = 1 ∨ err = 0 ∧ s.soft.contains x = true) → s.isBad x = false → bump t ∧ SameMem s t ∧ t.log = s.log ∧
          s.Counted t (R.HBM_ECC.corr i) 1 ∧ t.soft.contains x = false) ∧
        ((err = 2 ∨ err.val < 2 ∧ s.isBad x = true) → bump t ∧ t.isBad x = true ∧ s.Counted t (R.HBM_ECC.uncorr i) 1 ∧
          (t.log.head?.map LogEntry.code) = some E.SEQ_HBM_ECC) ∧
        (err = 3 → bump t ∧ SameMem s t ∧ (t.log.head?.map LogEntry.code) = some E.CFG_STATE_ECC ∧ t.get R.RAS_STAT.fatal = s.get R.RAS_STAT.fatal) ∧
        (err = 4 → SameMem s t ∧ t.get R.RAS_STAT.fatal = 1))) ∧
    (unit = none → exec (.memPatrolRead a err last) s = .next s)) ∧
  (∀ (s : State) (f : Fin 2) (errs : BitVec 16),
    (s.get R.MEM_SCRUB_FAR.seconds ≠ 0 → s.patrolPaused = false → s.halfInReset f.val = false → ∃ t, exec (.farTierEcsPass f errs) s = .next t ∧
      s.Counted t (R.FAR_ECC.corr f.val) errs.toNat ∧ { t with regs := s.regs } = s ∧ SameRegsBut s t [R.FAR_ECC.corr f.val]) ∧
    ((s.get R.MEM_SCRUB_FAR.seconds = 0 ∨ s.patrolPaused = true ∨ s.halfInReset f.val = true) → exec (.farTierEcsPass f errs) s = .next s)) ∧
  (∀ (s : State) (c : Fin 64), let C := c.val
    s.Open →
    (s.get R.MEM_WCSTAT.busy = 0 → ∃ t, exec (.memWcommit c) s = .next t ∧ SameMem s t ∧ t.get R.MEM_WCSTAT.ctx = C ∧
      if s.leaving C = false ∧ s.get (R.CTX_STATE.state C) ≠ 3 ∧ ∀ w ∈ List.range 16, s.winCause C w = 0 then
        (∀ f ∈ winGroup C, t.get f = s.sget f) ∧ t.get R.MEM_WCSTAT.busy = 1 ∧ t.log = s.log ∧
          (s.oldWin.find? (fun p => decide (p.1 = C)) = none → ∀ a n wr, t.permits C a n wr = true → s.permits C a n wr = true)
      else (∀ f ∈ winGroup C, t.get f = s.get f) ∧ t.get R.MEM_WCSTAT.result = 2 ∧ t.get R.MEM_WCSTAT.busy = 0 ∧
        (t.log.head?.map LogEntry.code) = some E.CFG_COMMIT) ∧
    (s.get R.MEM_WCSTAT.busy = 1 → ∃ t, exec (.memWcommit c) s = .next t ∧ SameMem s t ∧ (∀ f ∈ winGroup C, t.get f = s.get f) ∧
      t.get R.MEM_WCSTAT.busy = 1 ∧ (t.log.head?.map LogEntry.code) = some E.CFG_RANGE)) ∧
  (∀ s : State,
    (s.get R.MEM_WCSTAT.busy = 1 → (s.get R.PWR_STAT.fzero = 0 ∨ s.coversFar (s.get R.MEM_WCSTAT.ctx) = false) →
      s.underWay (s.get R.MEM_WCSTAT.ctx) = false → ∃ t,
      exec .memWcommitDone s = .next t ∧ t.get R.MEM_WCSTAT.busy = 0 ∧ t.get R.MEM_WCSTAT.result = 1 ∧ SameMem s t ∧
      (∀ p ∈ t.oldWin, p.1 ≠ s.get R.MEM_WCSTAT.ctx)) ∧
    ((s.get R.MEM_WCSTAT.busy = 0 ∨ s.get R.PWR_STAT.fzero = 1 ∧ s.coversFar (s.get R.MEM_WCSTAT.ctx) = true ∨
        s.underWay (s.get R.MEM_WCSTAT.ctx) = true) →
      exec .memWcommitDone s = .next s)) ∧
  (∀ (s : State) (g : Fin 8), let G := g.val
    let fs := [R.HBM_GREG.en G, R.HBM_GREG.off G, R.HBM_GREG.size G]
    s.Open → s.get R.HBM_GCSTAT.busy = 0 → ∃ t, exec (.hbmGcommit g) s = .next t ∧ t.get R.HBM_GCSTAT.region = G ∧
      if s.gregBad G then (∀ f ∈ fs, t.get f = s.get f) ∧ t.get R.HBM_GCSTAT.result = 2 ∧ SameMem s t ∧
        (t.log.head?.map LogEntry.code) = some E.CFG_COMMIT
      else (∀ f ∈ fs, t.get f = s.sget f) ∧ t.get R.HBM_GCSTAT.result = 1 ∧ t.log = s.log) ∧
  (∀ (s : State) (m : Master) (f : Fin 2) (size : Bool) (v : BitVec 48), let F := f.val
    let fld := if size then R.FAR_BUDDY.size F else R.FAR_BUDDY.base F
    let b := if size then s.get (R.FAR_BUDDY.base F) else v.toNat
    let n := if size then v.toNat else s.get (R.FAR_BUDDY.size F)
    let lo := 0x0200_0000_0000 + F * 0x0100_0000_0000
    let hi := if F = 0 then 0x02FF_F000_0000 else 0x0400_0000_0000
    let legal := v.toNat % 4096 = 0 ∧ (n = 0 ∨ lo ≤ b ∧ b + n ≤ hi) ∧ ∀ c, c < 64 → s.get (R.CKPT_BUDDY.en c) = 0
    s.Open →
    (s.owns m 3 = true → legal → exec (.farBuddyWrite m f size v) s = .next (s.put fld v.toNat)) ∧
    (s.owns m 3 = true → ¬legal → ∃ t, exec (.farBuddyWrite m f size v) s = .next t ∧ t.get fld = s.get fld ∧
      (t.log.head?.map LogEntry.code) = some E.CFG_RANGE) ∧
    (s.owns m 3 = false → ∃ t, exec (.farBuddyWrite m f size v) s = .next t ∧ t.get fld = s.get fld ∧
      (t.log.head?.map LogEntry.code) = some E.CFG_OWNER))

/-! ## The host port, registers, ownership and orders -/

/-- R25, R385, R429 to R433, R436, R437: configuration requests; VFs come and go; BAR4 reads and writes under the context's windows. Where the spec is silent or can be read two ways, the clauses rest on log entries 13, 81, 82, 144, 161 (the model's choice). -/
def Obligations.HostPort : Prop :=
  (∀ (s : State) (c : Fin 64) (r : CfgReq), let C := c.val
    (s.portUp = false → exec (.pcieConfigRequest c r) s = .next s) ∧
    (s.portUp = true → s.funcExists C = false → exec (.pcieConfigRequest c r) s = .next (s.emit (.pcie 2 [C]))) ∧
    (s.portUp = true → s.funcExists C = true →
      (∃ w, exec (.pcieConfigRequest c (.read 0)) s = .next (s.emit (.pcie 3 [C, 0, w])) ∧ w / 2 ^ 16 = if C = 0 then 0xC540 else 0xC541) ∧
      (∃ w, exec (.pcieConfigRequest c (.read 8)) s = .next (s.emit (.pcie 3 [C, 8, w])) ∧ w / 2 ^ 8 = 0x12_0000) ∧
      (∀ on en mask d3 x f, (x = .busMaster on ∧ f = { s.fn C with master := on } ∨ x = .msix en mask ∧ f = { s.fn C with msix := en, fmask := mask } ∨
          x = .power d3 ∧ f = { s.fn C with d3 := d3 }) → ∃ t, exec (.pcieConfigRequest c x) s = .next t ∧ t.fn C = f ∧ SameMem s t ∧
        ∀ d, d ≠ C → t.fn d = s.fn d) ∧
      (∀ x, exec (.pcieConfigRequest c (.item x)) s = .next (s.emit (.pcie 3 (if CfgItem.pfOnly x = true ∧ C ≠ 0 then [C, 0] else [C, s.cfgItem x])))) ∧
      (∀ vf (n : BitVec 6), ∃ t, exec (.pcieConfigRequest c (.resize vf n)) s = .next t ∧ { t with b4size := s.b4size } = s ∧
        t.barSize (!vf) = s.barSize (!vf) ∧
        t.barSize vf = if C = 0 ∧ 30 ≤ n.toNat ∧ n.toNat ≤ (if vf then 38 else 41) then n.toNat else s.barSize vf) ∧
      (∀ (off : BitVec 26) (size : BitVec 4), let x := Instr.pcieConfigRequest c (.bar0Read off size)
        let ident := if C = 0 then off.toNat < 0x1000 else 0x1000 ≤ off.toNat ∧ off.toNat < 0x2000
        let zeros := Out.pcie 0 (C :: List.replicate size.toNat 0)
        ((s.fn C).d3 = true → exec x s = .next (s.emit (.pcie 2 [C]))) ∧
        ((s.fn C).d3 = false → s.get R.HOST_STAT.ready = 0 → ¬ident → exec x s = .next (s.emit zeros)) ∧
        ((s.fn C).d3 = false → (s.get R.HOST_STAT.ready = 1 ∨ ident) → accessOk off.toNat size.toNat = false → ∃ t, exec x s = .next t ∧
          SameMem s t ∧ t.out.head? = some zeros ∧ (t.log.head?.map LogEntry.code) = some E.CFG_RANGE) ∧
        (C = 0 → (s.fn C).d3 = false → s.get R.HOST_STAT.ready = 1 → accessOk off.toNat size.toNat = true →
          s.reachReg off.toNat = .ok → exec x s = .next (s.emit (.pcie 0 (0 :: (leBytes size.toNat (s.read48 off.toNat size.toNat)).map BitVec.toNat))))))) ∧
  (∀ (s : State) (on : Bool) (num : Fin 64),
    (s.portUp = false → exec (.vfEnable on num) s = .next s) ∧
    (s.portUp = true → s.vfOn = false → ∃ t, exec (.vfEnable true num) s = .next t ∧ t.vfOn = true ∧ t.vfs = num.val ∧ SameMem s t ∧ ∀ c, c < 64 →
      t.get (R.CTX_STATE.state c) = if 0 < c ∧ c ≤ num.val ∧ s.get (R.CTX_STATE.state c) = 0 then 1 else s.get (R.CTX_STATE.state c)) ∧
    (s.portUp = true → s.vfOn = true → exec (.vfEnable true num) s = .next s) ∧
    (s.portUp = true → s.vfOn = false → exec (.vfEnable false num) s = .next s) ∧
    (s.portUp = true → s.vfOn = true → ∃ t, exec (.vfEnable false num) s = .next t ∧ t.vfOn = false ∧ t.vfs = 0 ∧ SameMem s t ∧ ∀ c, c < 64 →
      t.get (R.CTX_STATE.state c) = if s.get (R.CTX_STATE.state c) = 1 then 2 else s.get (R.CTX_STATE.state c))) ∧
  (∀ (s : State) (c : Fin 64) (off : BitVec 48) (n : BitVec 12), let C := c.val
    let a := s.get (R.CTX_B4BASE.base C) * 4096 + off.toNat
    let ones := List.replicate n.toNat 0xFF
    let sample := decide (C = 0) && inSample a n.toNat
    let may := s.get (R.CTX_STATE.state C) = 1 ∧ a + n.toNat ≤ 2 ^ 48 ∧ (sample = true ∨ s.permits C a n.toNat false = true)
    s.portUp = true →
    (s.inBar4 C off.toNat n.toNat = false → exec (.bar4Read c off n) s = .next (s.emit (.pcie 2 [C]))) ∧
    (s.inBar4 C off.toNat n.toNat = true →
    (s.get R.HOST_STAT.ready = 0 → exec (.bar4Read c off n) s = .next (s.emit (.pcie 0 (C :: ones)))) ∧
    (s.get R.HOST_STAT.ready = 1 → 2 ≤ s.get R.PWR_STAT.rung → ∃ t, exec (.bar4Read c off n) s = .next t ∧ SameMem s t ∧
      t.out.head? = some (.pcie 0 (C :: ones)) ∧ (t.log.head?.map LogEntry.code) = some E.PWR_ASLEEP) ∧
    (s.get R.HOST_STAT.ready = 1 → s.get R.PWR_STAT.rung < 2 →
      (s.get R.RAS_STAT.fatal = 1 → sample = false → exec (.bar4Read c off n) s = .next (s.emit (.pcie 2 [C]))) ∧
      ((s.get R.RAS_STAT.fatal = 0 ∨ sample = true) →
        (may → s.rangeDown a n.toNat = none → s.readBad a n.toNat = [] →
          exec (.bar4Read c off n) s = .next (((s.fixSoft a n.toNat).crossing a n.toNat).emit (.pcie 0 (C :: (s.bytes a n.toNat).map BitVec.toNat)))) ∧
        (may → s.rangeDown a n.toNat = none → s.readBad a n.toNat ≠ [] → ∃ t, exec (.bar4Read c off n) s = .next t ∧ (∀ x, t.byte x = s.byte x) ∧
          t.out.head? = some (.pcie 1 (C :: ones))) ∧
        (may → ∀ e x, s.rangeDown a n.toNat = some (e, x) → ∃ t, exec (.bar4Read c off n) s = .next t ∧ SameMem s t ∧ t.out.head? = some (.pcie 2 [C]) ∧
          (t.log.head?.map LogEntry.code) = some e) ∧
        (¬may → ∃ t, exec (.bar4Read c off n) s = .next t ∧ SameMem s t ∧ t.out.head? = some (.pcie 2 [C]) ∧
          (t.log.head?.map LogEntry.code) = some E.SEC_PERM))))) ∧
  (∀ (s : State) (c : Fin 64) (off : BitVec 48) (data : List (BitVec 8)), let C := c.val
    let a := s.get (R.CTX_B4BASE.base C) * 4096 + off.toNat
    let may := s.get (R.CTX_STATE.state C) = 1 ∧ a + data.length ≤ 2 ^ 48 ∧ s.permits C a data.length true = true
    ((s.portUp = false ∨ s.inBar4 C off.toNat data.length = false ∨ s.get R.HOST_STAT.ready = 0) → exec (.bar4Write c off data) s = .next s) ∧
    (s.portUp = true → s.inBar4 C off.toNat data.length = true → s.get R.HOST_STAT.ready = 1 → 2 ≤ s.get R.PWR_STAT.rung → ∃ t,
      exec (.bar4Write c off data) s = .next t ∧ SameMem s t ∧ (t.log.head?.map LogEntry.code) = some E.PWR_ASLEEP) ∧
    (s.portUp = true → s.inBar4 C off.toNat data.length = true → s.get R.HOST_STAT.ready = 1 → s.get R.PWR_STAT.rung < 2 →
      (s.get R.RAS_STAT.fatal = 1 → exec (.bar4Write c off data) s = .next s) ∧
      (s.get R.RAS_STAT.fatal = 0 → may → s.rangeDown a data.length = none → s.badIn a data.length = [] → ∃ t, exec (.bar4Write c off data) s = .next t ∧
        (∀ i, i < data.length → t.byte (a + i) = data.getD i 0) ∧ SameMemBut s t a data.length ∧
        { t with mem := s.mem, bad := s.bad, plist := s.plist, soft := s.soft, linkErr := s.linkErr, pkts := s.pkts, pktNext := s.pktNext, spnTx := s.spnTx, out := s.out } = s) ∧
      (s.get R.RAS_STAT.fatal = 0 → may → ∀ e x, s.rangeDown a data.length = some (e, x) → ∃ t, exec (.bar4Write c off data) s = .next t ∧ SameMem s t ∧
        (t.log.head?.map LogEntry.code) = some e) ∧
      (s.get R.RAS_STAT.fatal = 0 → ¬may → ∃ t, exec (.bar4Write c off data) s = .next t ∧ SameMem s t ∧
        (t.log.head?.map LogEntry.code) = some E.SEC_PERM)))

/-- R8, R430, R433 to R435, R454 to R456, R461, R462: a register write reaches its field by the field's access code and its master's rights; clear registers. Where the spec is silent or can be read two ways, the clauses rest on log entries 76, 83, 84, 85, 161 (the model's choice). -/
def Obligations.RegisterWrites : Prop :=
  (∀ (s : State) (m : Master) (c : Fin 64) (off : BitVec 26) (size : BitVec 4) (v : BitVec 64),
    (s.get R.HOST_STAT.ready = 0 → exec (.registerWrite m c off size v) s = .next s) ∧
    (s.get R.HOST_STAT.ready = 1 → accessOk off.toNat size.toNat = false → ∃ t, exec (.registerWrite m c off size v) s = .next t ∧ SameMem s t ∧
      (t.log.head?.map LogEntry.code) = some E.CFG_RANGE) ∧
    (s.get R.HOST_STAT.ready = 1 → accessOk off.toNat size.toNat = true → m = .host → c ≠ 0 → 0x1000 ≤ off.toNat → (off.toNat < 0x2000 ∨ 0x2200 ≤ off.toNat) →
      exec (.registerWrite m c off size v) s = .next s) ∧
    (s.Open → m = .mgmt → ∀ x, regAt off.toNat = some x → x.off = off.toNat → x.row.bits = 8 * size.toNat → (size = 4 ∨ size = 8) →
      off.toNat % size.toNat = 0 → s.reachReg off.toNat = .ok → ¬(0x03D0_0000 ≤ off.toNat ∧ off.toNat < 0x03E0_0000) →
      ¬(0x03F0_0000 ≤ off.toNat ∧ off.toNat < 0x03F0_0200) → s.forbidden ⟨x, 0, 8 * size.toNat, v.toNat % 2 ^ (8 * size.toNat), .mgmt⟩ = true → ∃ t,
      exec (.registerWrite m c off size v) s = .next t ∧ SameMem s t ∧ s.Counted t R.OWN_LOG.count 1 ∧ t.get R.OWN_LOG.master = 1 ∧
      t.get R.OWN_LOG.offset = off.toNat ∧ (t.log.head?.map LogEntry.code) = some E.CFG_OWNER) ∧
    (s.get R.HOST_STAT.ready = 1 → accessOk off.toNat size.toNat = true → m = .mgmt →
      (regWrites .mgmt off.toNat size.toNat v.toNat = [] ∨ 0x03D0_0000 ≤ off.toNat ∧ off.toNat < 0x03E0_0000) → ∃ t,
      exec (.registerWrite m c off size v) s = .next t ∧ SameMem s t ∧ s.Counted t R.OWN_LOG.count 1 ∧ t.get R.OWN_LOG.master = 1 ∧
      t.get R.OWN_LOG.offset = off.toNat ∧ (t.log.head?.map LogEntry.code) = some E.CFG_OWNER)) ∧
  (∀ (s : State) (c : Fin 64) (q : Fin 16) (v : BitVec 64), s.Open → s.portUp = true → s.answers 0 = true →
    (exec (.registerWrite .host 0 (BitVec.ofNat 26 (0x0018_0000 + 0x20 * c.val)) 8 v) s = .next (s.put (R.CTX_B4BASE.base c.val) (bits v.toNat 12 36))) ∧
    (s.answers c.val = true → c ≠ 0 → ∃ t, exec (.registerWrite .host c (BitVec.ofNat 26 (32 * q.val)) 8 v) s = .next t ∧
      t.sget (R.SQ_CFG.base c.val q.val) = bits v.toNat 6 58 ∧ t.get (R.SQ_CFG.base c.val q.val) = s.get (R.SQ_CFG.base c.val q.val)) ∧
    (s.answers c.val = true → c ≠ 0 → ∃ t, exec (.registerWrite .host c 0x410 4 v) s = .next t ∧ ∀ b, b < 4 →
      bit (t.get (R.CTX_EVT.events c.val)) b = (bit (s.get (R.CTX_EVT.events c.val)) b && !bit v.toNat b)) ∧
    (s.funcExists c.val = true → (s.fn c.val).d3 = true → ∀ off size, exec (.registerWrite .host c off size v) s =
      if accessOk off.toNat size.toNat = true then .next s else .next (s.cfgRange (if c.val = 0 then none else some c.val) off.toNat)) ∧
    (∀ m, s.owns m 1 = true → exec (.registerWrite m 0 0x03A1_0010 8 v) s = .next (s.put R.CKPT_TMO.ticks (v.toNat % 2 ^ 48))) ∧
    (∀ m, s.owns m 1 = false → ∃ t, exec (.registerWrite m 0 0x03A1_0010 8 v) s = .next t ∧ t.get R.CKPT_TMO.ticks = s.get R.CKPT_TMO.ticks ∧
      s.Counted t R.OWN_LOG.count 1 ∧ (t.log.head?.map LogEntry.code) = some E.CFG_OWNER)) ∧
  (∀ (s : State) (m : Master) (r : ClrReg), s.get R.HOST_STAT.ready = 1 →
    (isRas r = true ∨ s.get R.RAS_STAT.fatal = 0 ∧ s.reachReg (clrOff r) = .ok) → ∃ t, exec (.counterClearWrite m r) s = .next t ∧
      { t with regs := s.regs } = s ∧ match r with
      | .mma n v => ∀ i, i < 9 → t.get (R.MMA_EXPSAT.count n i) = (if v.getLsbD i then 0 else s.get (R.MMA_EXPSAT.count n i)) ∧
          t.get (R.MMA_ACT.count n i) = (if v.getLsbD i then 0 else s.get (R.MMA_ACT.count n i))
      | .glz n a q => (∀ i, i < 2 → t.get (R.GLZ_ACT.count n i) = if a.getLsbD i then 0 else s.get (R.GLZ_ACT.count n i)) ∧
          ∀ i, i < 4 → ∀ f ∈ [R.GLZ_NONFIN.count n i, R.GLZ_OVF.count n i, R.GLZ_INV.count n i, R.GLZ_SAT.count n i],
            t.get f = if q.getLsbD i then 0 else s.get f
      | .ecc n v => (∀ f ∈ [R.TS_ECC.uncorr n, R.TS_ECC.corr n, R.TS_ECC.last n], t.get f = if v.getLsbD 0 then 0 else s.get f) ∧
          ∀ f ∈ [R.TR_ECC.uncorr n, R.TR_ECC.corr n, R.TR_ECC.array n, R.TR_ECC.reg n], t.get f = if v.getLsbD 1 then 0 else s.get f
      | .mem v => ∀ i, i < 24 → ∀ f ∈ [R.HBM_ECC.uncorr i, R.HBM_ECC.corr i, R.HBM_ECC.passes i, R.HBM_ECC.last i],
          t.get f = if v.getLsbD i then 0 else s.get f
      | .ras valid new => t.get R.RAS_STAT.valid = (if valid then 0 else s.get R.RAS_STAT.valid) ∧
          t.get R.RAS_STAT.new = if new then 0 else s.get R.RAS_STAT.new
      | .alert v => t.get R.MOD_ALERT.fatal = s.get R.MOD_ALERT.fatal * b2n (!(v.getLsbD (R.MOD_ALERT.fatal.a % 8)))) ∧
  (∀ (s : State) (m : Master) (r : ClrReg), s.get R.HOST_STAT.ready = 0 → exec (.counterClearWrite m r) s = .next s)

/-- R438, R439, R455, R457, R458, R462: dies are assigned, released and zeroed; the ownership lock; how a slot's orders are resolved. Where the spec is silent or can be read two ways, the clauses rest on log entries 73, 75, 76 (the model's choice). -/
def Obligations.OwnershipAndOrders : Prop :=
  (∀ (s : State) (die : Fin 24) (c : Fin 64), let n := die.val
    let down := s.halfInReset (halfOfDie n)
    s.Open →
    (down = true → (∃ t, exec (.dieCmdAssign die c) s = .next t ∧ SameMem s t ∧ (t.log.head?.map LogEntry.code) = some E.LINK_HALF_DOWN ∧
        t.get (R.DIE_OWN.assigned n) = s.get (R.DIE_OWN.assigned n)) ∧
      ∃ t, exec (.dieCmdRelease die) s = .next t ∧ SameMem s t ∧ (t.log.head?.map LogEntry.code) = some E.LINK_HALF_DOWN) ∧
    (down = false → s.get R.DIE_CSTAT.busy = 0 → ∃ t, exec (.dieCmdAssign die c) s = .next t ∧ SameMem s t ∧ t.get R.DIE_CSTAT.die = n ∧
      if s.get (R.DIE_OWN.assigned n) = 0 ∧ s.get (R.DIE_OWN.zeroing n) = 0 ∧ s.get (R.CTX_STATE.state c.val) = 1 then
        t.get (R.DIE_OWN.assigned n) = 1 ∧ t.get (R.DIE_OWN.ctx n) = c.val ∧ t.get R.DIE_CSTAT.result = 1
      else t.get (R.DIE_OWN.assigned n) = s.get (R.DIE_OWN.assigned n) ∧ t.get (R.DIE_OWN.ctx n) = s.get (R.DIE_OWN.ctx n) ∧
        t.get R.DIE_CSTAT.result = 2 ∧ (t.log.head?.map LogEntry.code) = some E.CFG_COMMIT) ∧
    (down = false → s.get R.DIE_CSTAT.busy = 0 → ∃ t, exec (.dieCmdRelease die) s = .next t ∧ SameMem s t ∧ t.get R.DIE_CSTAT.die = n ∧
      t.get (R.DIE_OWN.assigned n) = s.get (R.DIE_OWN.assigned n) ∧
      if (∀ q ∈ List.range 4, s.seqBound (4 * n + q) = false) ∧ ¬(s.get (R.DIE_OWN.assigned n) = 1 ∧ s.windowOnDie (s.get (R.DIE_OWN.ctx n)) n = true) then
        t.get (R.DIE_OWN.zeroing n) = 1 ∧ t.get R.DIE_CSTAT.result = 1
      else t.get (R.DIE_OWN.zeroing n) = s.get (R.DIE_OWN.zeroing n) ∧ t.get R.DIE_CSTAT.result = 2 ∧
        (t.log.head?.map LogEntry.code) = some E.CFG_COMMIT)) ∧
  (∀ (s : State) (die : Fin 24), let n := die.val
    (s.get (R.DIE_OWN.zeroing n) = 1 → s.halfInReset (halfOfDie n) = false → ∃ t, exec (.dieReleaseZeroed die) s = .next t ∧
      t.get (R.DIE_OWN.assigned n) = 0 ∧ t.get (R.DIE_OWN.zeroing n) = 0 ∧ (∀ i, i < tileBytes → t.byte (tileBase n + i) = 0) ∧
      SameMemBut s t (tileBase n) tileBytes ∧ ∀ a j m col, a < 8 → j < 16 → m < 128 → col < 128 → t.tile n a j m col = 0) ∧
    ((s.get (R.DIE_OWN.zeroing n) = 0 ∨ s.halfInReset (halfOfDie n) = true) → exec (.dieReleaseZeroed die) s = .next s)) ∧
  (∀ (s : State) (lockdown : Bool) (mgmt : BitVec 8), s.Open →
    exec (.ownLockWrite .host lockdown mgmt) s = .next s ∧
    (s.get R.OWN_LOCK.lockdown = 1 → exec (.ownLockWrite .mgmt lockdown mgmt) s = .next s) ∧
    (s.get R.OWN_LOCK.lockdown = 0 → exec (.ownLockWrite .mgmt lockdown mgmt) s =
      .next (s.puts [(R.OWN_LOCK.lockdown, b2n lockdown), (R.OWN_LOCK.mgmt, mgmt.toNat)]))) ∧
  (∀ s : State, let all := s.mgmtOrd ++ s.hostOrd
    ∃ t l, exec .orderSlotEnd s = .next t ∧ SameMem s t ∧ t.hostOrd = [] ∧ t.mgmtOrd = [] ∧ t.won = s.won ++ l ∧ (∀ o ∈ l, o ∈ all) ∧
      ((∃ o ∈ all, 1 ≤ o.kind ∧ o.kind ≤ 4) → (∀ o ∈ l, 1 ≤ o.kind ∧ o.kind ≤ 4) ∧ l.Pairwise (fun x y => x.covers y = false) ∧
        ∀ o ∈ all, 1 ≤ o.kind → o.kind ≤ 4 → ∃ x ∈ l, x.covers o = true) ∧
      (∀ a b, s.mgmtOrd = [a] → s.hostOrd = [b] →
        (a.kind = 6 → b.kind = 6 → l = [if b.arg < a.arg then b else a]) ∧ (a.kind = 5 → b.kind = 5 → l = [if a.arg < b.arg then b else a]) ∧
        (a.kind = 6 → b.kind = 5 → l = [b, a]) ∧ (a.kind = 5 → b.kind = 6 → l = [a, b])))

/-! ## Teardown and resets -/

/-- R437, R439, R440, R457, R461, R462, R482, R483, R505: a context's teardown from its order to the release of its memory; function-level resets. Where the spec is silent or can be read two ways, the clauses rest on log entries 72, 74, 121, 139 (the model's choice). -/
def Obligations.Teardowns : Prop :=
  (∀ (s : State) (c : Fin 64), let C := c.val
    let st := s.get (R.CTX_STATE.state C)
    (s.orderDue 4 C = none → exec (.contextTeardown c) s = .next s) ∧
    (∀ o, s.orderDue 4 C = some o → ∃ t, exec (.contextTeardown c) s = .next t ∧ SameMem s t ∧ t.won = s.won.erase o ∧
      t.get (R.CTX_STATE.state C) = (if st = 1 then 2 else st) ∧
      (st = 1 → ∀ k, k < 96 → s.seqBound k = true → s.seqCtx k = C → s.seqState k = seqRUNNING → t.seqState k = seqHALTED)) ∧
    ((st ≠ 2 ∨ s.drained C = false) → exec (.teardownDrainDone c) s = .next s) ∧
    (st = 2 → s.drained C = true → ∃ t, exec (.teardownDrainDone c) s = .next t ∧ t.get (R.CTX_STATE.state C) = 3 ∧
      (∀ k ∈ s.seqsOf C, t.seqState k = seqUNBOUND) ∧ t.ckState C = ckIDLE ∧ t.ckpt C = Ckpt.empty ∧
      (∀ p, p < 3 → t.cutTable C p = none ∧ t.cutPending C p = none) ∧
      ∀ w, w < 16 → t.get (R.MEM_WIN.en C w) = s.get (R.MEM_WIN.en C w)) ∧
    (let wait := (s.halfInReset 0 || s.halfInReset 1) = true ∨ ∃ f ∈ s.ctxFlumes C, s.flmState f ≠ flmZEROING
     ((st ≠ 3 ∨ wait) → exec (.teardownZeroingDone c) s = .next s) ∧
     (st = 3 → ¬wait → ∃ t, exec (.teardownZeroingDone c) s = .next t ∧ t.get (R.CTX_STATE.state C) = (if s.funcExists C then 1 else 0) ∧
      (∀ r ∈ s.ownRanges C, ∀ i, i < r.2 → t.byte (r.1 + i) = 0) ∧
      (∀ n ∈ s.diesOf C, t.get (R.DIE_OWN.assigned n) = 0 ∧ ∀ i, i < tileBytes → t.byte (tileBase n + i) = 0) ∧
      (∀ w, w < 16 → t.get (R.MEM_WIN.en C w) = 0) ∧ bit (t.get (R.CTX_EVT.events 0)) 1 = true ∧
      (s.ctxFlumes C = [] → ∀ x, x < 0x0400_0000_0000 → (∀ r ∈ s.ownRanges C, x < r.1 ∨ r.1 + r.2 ≤ x) → t.byte x = s.byte x)))) ∧
  (∀ (s : State) (c : Fin 64), let C := c.val
    ((s.portUp = false ∨ C = 0 ∨ s.funcExists C = false) → exec (.vfFlr c) s = .next s) ∧
    (s.portUp = true → 0 < C → s.funcExists C = true → ∃ t, exec (.vfFlr c) s = .next t ∧ SameMem s t ∧ t.fn C = Fn.off ∧
      t.get (R.CTX_STATE.state C) = (if s.get (R.CTX_STATE.state C) = 1 then 2 else s.get (R.CTX_STATE.state C)) ∧
      (∀ q, q < 16 → t.get (R.SQ_CFG.en C q) = 0) ∧ ∀ d, d ≠ C → t.fn d = s.fn d)) ∧
  (∀ s : State,
    (s.portUp = false → exec .pfFlr s = .next s) ∧
    (s.portUp = true → ∃ t, exec .pfFlr s = .next t ∧ SameMem s t ∧ t.vfOn = false ∧ t.vfs = 0 ∧ t.fns = [] ∧
      (∀ c, c < 64 → t.get (R.CTX_STATE.state c) = (if s.get (R.CTX_STATE.state c) = 1 then 2 else s.get (R.CTX_STATE.state c)) ∧
        t.get (R.CTX_B4BASE.base c) = 0) ∧
      t.get R.OWN_LOCK.mgmt = s.get R.OWN_LOCK.mgmt ∧ t.get R.OWN_LOCK.lockdown = s.get R.OWN_LOCK.lockdown ∧
      t.get R.OWN_LOG.count = s.get R.OWN_LOG.count))

/-- R103, R163, R203, R395, R418, R419, R466, R470 to R473, R477, R505, R506: compute-die and half resets, the return of a half, and when it takes accesses. Where the spec is silent or can be read two ways, the clauses rest on log entries 89, 91, 92, 99, 126, 138, 140, 159, 164 (the model's choice). -/
def Obligations.DieAndHalfResets : Prop :=
  (∀ (s : State) (die : Fin 24), let n := die.val
    (s.orderDue 3 n = none → exec (.computeDieReset die) s = .next s) ∧
    (∀ o, s.orderDue 3 n = some o → ∃ t, exec (.computeDieReset die) s = .next t ∧ t.won = s.won.erase o ∧
      (s.halfInReset (halfOfDie n) = true → SameMem s t ∧ t.dieRst = s.dieRst) ∧
      (s.halfInReset (halfOfDie n) = false → KMap.find (fun _ => false) t.dieRst n = true ∧ t.get R.PWR_BOOT.last = 4 ∧
        t.get R.SEC_STAT.measuring = 1 ∧ (∀ i, i < tileBytes → t.byte (tileBase n + i) = 0) ∧ SameMemBut s t (tileBase n) tileBytes ∧
        (∀ a j m col, a < 8 → j < 16 → m < 128 → col < 128 → t.tile n a j m col = 0) ∧
        (∀ q, q < 4 → t.seqState (4 * n + q) = (if s.seqBound (4 * n + q) then seqLOADING else seqUNBOUND) ∧
          (∀ r : BitVec 5, t.s (4 * n + q) r = 0) ∧ t.get (R.SEQ_BIND.ctx n q) = s.get (R.SEQ_BIND.ctx n q)) ∧
        (∀ f, (t.flume f).occ = (s.flume f).occ) ∧ t.get (R.DIE_OWN.assigned n) = s.get (R.DIE_OWN.assigned n))) ∧
    exec (.computeDieResetEnd die) s = .next { s with dieRst := KMap.drop s.dieRst n }) ∧
  (∀ (s : State) (h : Fin 2), let H := h.val
    (s.orderDue 2 H = none → exec (.halfReset h) s = .next s) ∧
    (∀ o, s.orderDue 2 H = some o → ∃ t, exec (.halfReset h) s = .next t ∧ t.won = s.won.erase o ∧ t.halfInReset H = true ∧ t.halfDead H = true ∧
      t.get R.PWR_BOOT.last = 2 + H ∧ t.get R.SEC_STAT.measuring = 1 ∧
      (∀ f, 4096 * H ≤ f → f < 4096 * H + 4096 → t.flmState f = flmUNBOUND) ∧
      (∀ i, i < 0x1800_0000 → t.byte (flumeBase (2 * H) + i) = 0 ∧ t.byte (flumeBase (2 * H + 1) + i) = 0) ∧
      (∀ k, 48 * H ≤ k → k < 48 * H + 48 → t.seqState k = seqUNBOUND ∧ t.get (R.VER_HDR.top k) = 0) ∧
      (∀ c, c < 64 → t.get (R.CTX_STATE.state c) = s.get (R.CTX_STATE.state c) ∧
        t.ckState c = (if s.ckState c = ckRESTORING ∨ s.moduleOf c ≠ 0 ∧ s.ckState c = ckCHAINING ∧
          (s.moduleOf c = s.lastModule c ∨ (s.ckpt c).chain ≠ none) then s.ckState c else ckIDLE)) ∧
      (∀ c w, c < 64 → w < 16 → t.get (R.MEM_WIN.base c w) = s.get (R.MEM_WIN.base c w) ∧ t.get (R.MEM_WIN.en c w) = s.get (R.MEM_WIN.en c w)) ∧
      ∀ n, n < 24 → t.get (R.DIE_OWN.ctx n) = s.get (R.DIE_OWN.ctx n) ∧ t.get (R.DIE_OWN.assigned n) = s.get (R.DIE_OWN.assigned n))) ∧
  (∀ (s : State) (h : Fin 2) (b : BootIn), let H := h.val
    let k := s.returnBank H
    (s.halfDead H = false → exec (.halfResetReturn h b) s = .next s) ∧
    (s.halfDead H = true → s.sealOk b H = false → ∃ t, exec (.halfResetReturn h b) s = .next t ∧ t.halfDead H = true ∧ SameMem s t ∧
      t.get R.HOST_STAT.ready = 0 ∧ (t.log.head?.map LogEntry.code) = some E.SEC_SEALED) ∧
    (s.halfDead H = true → s.sealOk b H = true → ∃ t, exec (.halfResetReturn h b) s = .next t ∧ t.halfDead H = false ∧ t.halfInReset H = true ∧ SameMem s t ∧
      (s.bankBoots b H k = true → t.get (bankFld H) = k % 2) ∧
      (s.bankBoots b H k = false → s.bankBoots b H (1 - k) = true → t.get (bankFld H) = (1 - k) % 2 ∧
        (t.log.head?.map LogEntry.code) = some E.SEC_BOOT) ∧
      (s.bankBoots b H k = false → s.bankBoots b H (1 - k) = false → t.get R.SEC_STAT.recovery = 1 ∧
        t.recovering H = true ∧ (t.log.head?.map LogEntry.code) = some E.SEC_BOOT))) ∧
  (∀ (s : State) (h : Fin 2), let H := h.val
    ((s.halfInReset H = false ∨ s.halfDead H = true ∨ s.recovering H = true) → exec (.halfAccessReady h) s = .next s) ∧
    (s.halfInReset H = true → s.halfDead H = false → s.recovering H = false → ∃ t, exec (.halfAccessReady h) s = .next t ∧
      t.halfInReset H = false ∧ ((∀ c, c < 64 → s.get (R.CTX_STATE.state c) ≠ 3) → SameMem s t) ∧
      ∀ c w, c < 64 → w < 16 → t.get (R.MEM_WIN.base c w) = s.get (R.MEM_WIN.base c w)))

/-- R430, R466, R470, R472, R505, R507 to R509, R563: cold power-on, module warm reset, the start-up's last steps, far-tier zeroing and the conventional
reset. Where the spec is silent or can be read two ways, the clauses rest on log entries 2, 3, 16, 78, 89, 93, 138, 140, 155 (the model's choice). -/
def Obligations.StartUp : Prop :=
  (∀ (s : State) (wake : Bool) (straps : BitVec 4) (ms : BitVec 32) (b : BootIn), let u := s.cold wake straps.toNat ms.toNat
    let whole := s.sealOk b 0 = true ∧ s.sealOk b 1 = true
    (s.boot ≠ 0 → exec (.coldPowerOn wake straps ms b) s = .next s) ∧
    (s.boot = 0 → ∃ t, exec (.coldPowerOn wake straps ms b) s = .next t ∧ (∀ a, t.byte a = 0) ∧ t.seqs = [] ∧ t.flumes = [] ∧ t.scaler = s.scaler ∧
      t.pending = s.pending ∧ t.slotId = straps.toNat ∧ t.get R.PWR_BOOT.last = 0 ∧ t.get R.PWR_BOOT.ms = ms.toNat ∧ t.get R.HOST_STAT.ready = 0 ∧
      (s.refclk = false → t.boot = 1) ∧ (s.refclk = true → ¬whole → t.boot = 6) ∧
      (s.refclk = true → whole → u.bankBoots b 0 s.fw.sel = true → u.bankBoots b 1 s.fw.sel = true →
        t.boot = 2 ∧ t.get (R.CTX_STATE.state 0) = 1 ∧ t.get R.SEC_STAT.recovery = 0 ∧ t.get R.SEC_STAT.bank_a = s.fw.sel % 2 ∧
        t.get R.SEC_STAT.bank_b = s.fw.sel % 2))) ∧
  (∀ (s : State) (b : BootIn),
    ((s.orderDue 1 0 = none ∨ s.sample ≠ none) → exec (.moduleWarmReset b) s = .next s) ∧
    (∀ o, s.orderDue 1 0 = some o → s.sample = none → let u := (s.orderDone o).warm
      let whole := s.sealOk b 0 = true ∧ s.sealOk b 1 = true
      ∃ t, exec (.moduleWarmReset b) s = .next t ∧
      (∀ a, t.byte a = if a < 0x1000_0000 ∨ inFar a = true then s.byte a else 0) ∧ t.seqs = [] ∧ t.flumes = [] ∧ t.won = [] ∧ t.log.length ≤ 4 ∧
      t.tick0 = s.tick0 ∧ t.now = s.now ∧ t.scaler = s.scaler ∧ t.pending = s.pending ∧ t.get R.PWR_BOOT.last = 1 ∧ t.get R.HOST_STAT.ready = 0 ∧
      (∀ c, 0 < c → c < 64 → t.get (R.CTX_STATE.state c) = 0) ∧ (¬whole → t.boot = 6) ∧
      (whole → u.bankBoots b 0 u.fw.sel = true → u.bankBoots b 1 u.fw.sel = true →
        u.fw.sel = (if s.get R.SEC_STAT.pending = 2 ∨ s.fw.revert = true then 1 - s.fw.sel else s.fw.sel) ∧ t.boot = 2 ∧ t.get (R.CTX_STATE.state 0) = 1))) ∧
  (∀ (s : State) (b : BootIn),
    (s.boot ≠ 1 → exec (.refclkInRange b) s = .next { s with refclk := true }) ∧
    (s.boot = 1 → s.sealOk b 0 = true → s.sealOk b 1 = true → s.bankBoots b 0 s.fw.sel = true → s.bankBoots b 1 s.fw.sel = true → ∃ t, exec (.refclkInRange b) s = .next t ∧
      t.refclk = true ∧ t.boot = 2 ∧ t.get (R.CTX_STATE.state 0) = 1 ∧ SameMem s t)) ∧
  (∀ s : State,
    ((s.get R.MOD_PIN.perst = 0 ∨ s.boot < 2 ∨ 5 < s.boot) → exec .pcieLinkUp s = .next s) ∧
    (s.get R.MOD_PIN.perst = 1 → (s.boot = 2 ∨ s.boot = 5) → exec .pcieLinkUp s = .next { s with linkUp := true }) ∧
    (s.get R.MOD_PIN.perst = 1 → s.boot = 3 → ∃ t, exec .pcieLinkUp s = .next t ∧ t.linkUp = true ∧ t.boot = 4 ∧ t.get R.HOST_STAT.ready = 1 ∧
      t.get R.PWR_STAT.fzero = 1 ∧ SameMem s t) ∧
    (s.get R.MOD_PIN.perst = 1 → s.boot = 4 → ∃ t, exec .pcieLinkUp s = .next t ∧ t.linkUp = true ∧ t.boot = 4 ∧ t.get R.HOST_STAT.ready = 1) ∧
    (s.get R.PWR_STAT.fzero = 0 → exec .farZeroingDone s = .next s) ∧
    (s.get R.PWR_STAT.fzero = 1 → ∃ t, exec .farZeroingDone s = .next t ∧ t.get R.PWR_STAT.fzero = 0 ∧ ∀ a,
      t.byte a = if inFar a = true ∧ ¬(0x02FF_F000_0000 ≤ a ∧ a < 0x0300_0000_0000) then 0 else s.byte a) ∧
    exec .perstDeassert s = .next (s.put R.MOD_PIN.perst 1)) ∧
  (∀ (s : State) (pin : Bool), ∃ t, exec (.perstAssert pin) s = .next t ∧ SameMem s t ∧ t.linkUp = false ∧ t.get R.HOST_STAT.ready = 0 ∧
    t.get R.MOD_PIN.perst = (if pin then 0 else s.get R.MOD_PIN.perst) ∧
    ((s.boot < 3 ∨ 4 < s.boot) → t.won = s.won ∧ t.fns = s.fns) ∧
    (3 ≤ s.boot → s.boot ≤ 4 → s.awake = true → t.vfs = 0 ∧ t.fns = [] ∧ t.get R.PWR_BOOT.last = 5 ∧
      t.won = (if s.get R.PWR_CTL.perst_warm = 1 then s.won ++ [⟨1, 0, 2⟩] else s.won) ∧
      ∀ c, c < 64 → t.get (R.CTX_STATE.state c) = if s.get (R.CTX_STATE.state c) = 1 then 2 else s.get (R.CTX_STATE.state c)) ∧
    (3 ≤ s.boot → s.boot ≤ 4 → s.awake = false → t.won = s.won ++ [⟨15, 0, 2⟩] ∧ t.fns = s.fns))

/-! ## Power, heat and the core sample -/

/-- R458, R492 to R500, R509: power rungs and their entry, domains held off, the cap and the input. Where the spec is silent or can be read two ways, the clauses rest on log entries 8, 94, 122, 141, 166 (the model's choice). -/
def Obligations.PowerRungs : Prop :=
  (∀ (s : State) (r : Fin 5), let n := r.val
    (orderFirst 5 n s.won = none → exec (.powerRung r) s = .next s) ∧
    (∀ o, orderFirst 5 n s.won = some o →
      (s.get R.PWR_STAT.busy = 1 → exec (.powerRung r) s = .next s) ∧
      (s.get R.PWR_STAT.busy = 0 → s.get R.RAS_STAT.fatal = 1 → n ≠ 4 → ∃ t, exec (.powerRung r) s = .next t ∧ t.won = s.won.erase o ∧ SameMem s t ∧
        t.get R.PWR_STAT.busy = 0 ∧ t.get R.PWR_STAT.rung = s.get R.PWR_STAT.rung ∧ (t.log.head?.map LogEntry.code) = some E.CFG_RANGE) ∧
      (s.get R.PWR_STAT.busy = 0 → (s.get R.RAS_STAT.fatal = 0 ∨ n = 4) → ∃ t, exec (.powerRung r) s = .next t ∧ t.won = s.won.erase o ∧ SameMem s t ∧
        t.get R.PWR_STAT.rung = s.get R.PWR_STAT.rung ∧ t.leakHold = (s.leakHold && decide (n ≠ 0)) ∧
        (n = s.get R.PWR_STAT.rung → t.get R.PWR_STAT.busy = 0) ∧
        (n ≠ s.get R.PWR_STAT.rung → t.get R.PWR_STAT.busy = 1 ∧ t.get R.PWR_STAT.target = n)))) ∧
  (∀ s : State, let r := s.get R.PWR_STAT.rung
    let t := s.get R.PWR_STAT.target
    let calm := ∀ o ∈ s.won, o.kind ≠ 15
    let kept := fun (u : State) => (∀ x, (x < 0x1000_0000 ∨ 0x1400_0000 ≤ x) → u.byte x = s.byte x) ∧ u.meter.gap = (s.meter.gap || s.meter.prev.isSome)
    (s.get R.PWR_STAT.busy = 0 → exec .rungEntryComplete s = .next s) ∧
    (s.get R.PWR_STAT.busy = 1 →
      (r = 0 → 0 < t → s.workDone = false → exec .rungEntryComplete s = .next s) ∧
      (r < 2 → 2 ≤ t → s.transfersDone = false → exec .rungEntryComplete s = .next s) ∧
      (calm → (r = 0 ∧ t = 1 ∧ s.workDone = true ∨ r = 1 ∧ t = 0) → ∃ u, exec .rungEntryComplete s = .next u ∧ u.get R.PWR_STAT.rung = t ∧
        u.get R.PWR_STAT.busy = 0 ∧ u.get R.PWR_STAT.ceiling = s.ceilingTop ∧ SameMem s u ∧ u.tiles = s.tiles ∧ ∀ k, k < 96 → u.seqState k = s.seqState k) ∧
      (calm → (∀ o ∈ s.won, 4 < o.kind) → r < 2 → (t = 2 ∨ t = 3) → s.workDone = true → s.transfersDone = true →
        ∃ u, exec .rungEntryComplete s = .next u ∧ u.get R.PWR_STAT.rung = t ∧ u.get R.PWR_STAT.busy = 0 ∧ (t = 2 → SameMem s u) ∧
        (t = 3 → kept u ∧ ∀ k i, k < 96 → i < 4 → u.vst k i = verFREE) ∧
        ∀ k, k < 96 → u.seqState k = (if s.seqState k = seqRUNNING then seqHALTED else s.seqState k) ∧ (k ∈ u.wasRun ↔ s.seqState k = seqRUNNING)) ∧
      (calm → (∀ o ∈ s.won, 4 < o.kind) → r = 2 → t = 3 → ∃ u, exec .rungEntryComplete s = .next u ∧ u.get R.PWR_STAT.rung = 3 ∧
        u.get R.PWR_STAT.busy = 0 ∧ kept u ∧ u.wasRun = s.wasRun ∧ ∀ k, k < 96 → u.seqState k = s.seqState k) ∧
      (calm → (∀ o ∈ s.won, 4 < o.kind) → r = 3 → t = 2 → ∃ u, exec .rungEntryComplete s = .next u ∧ u.get R.PWR_STAT.rung = 2 ∧
        u.get R.PWR_STAT.busy = 0 ∧ u.wasRun = s.wasRun ∧ u.get R.PWR_BOOT.last = 4) ∧
      (calm → (r = 2 ∨ r = 3) → t < 2 → ∃ u, exec .rungEntryComplete s = .next u ∧ u.get R.PWR_STAT.rung = t ∧ u.get R.PWR_STAT.busy = 0 ∧
        u.get R.PWR_BOOT.last = 4 ∧ (∀ k, k < 96 → s.seqBound k = true → s.halfInReset (halfOfDie (k / 4)) = false → u.seqState k = seqLOADING) ∧
        (r = 2 → ∀ x, x < 0x0400_0000_0000 → u.byte x = s.byte x)) ∧
      (t = 4 → r < 4 → (2 ≤ r ∨ s.workDone = true ∧ s.transfersDone = true) → ∃ u, exec .rungEntryComplete s = .next u ∧ u.get R.PWR_STAT.rung = 4 ∧
        u.boot = 0 ∧ (∀ x, u.byte x = 0) ∧ u.scaler = s.scaler ∧ u.pending = s.pending))) ∧
  (∀ (s : State) (m : Master) (j : Fin 2) (v : BitVec 64), let J := j.val
    s.Open →
    (s.owns m 5 = true → ∃ t, exec (.pwrPdoffWrite m j v) s = .next t ∧ SameMem s t ∧ ∀ b, b < 64 → 64 * J + b < 104 →
      bit (t.get (R.PWR_PDOFF.hold J)) b = if v.getLsbD b = true ∧ s.pdMayHold (64 * J + b) = false then bit (s.get (R.PWR_PDOFF.hold J)) b else v.getLsbD b) ∧
    (s.owns m 5 = false → ∃ t, exec (.pwrPdoffWrite m j v) s = .next t ∧ t.get (R.PWR_PDOFF.hold J) = s.get (R.PWR_PDOFF.hold J) ∧ SameMem s t ∧
      (t.log.head?.map LogEntry.code) = some E.CFG_OWNER)) ∧
  (∀ (s : State) (w : BitVec 12),
    (orderFirst 6 w.toNat s.won = none → exec (.powerCap w) s = .next s) ∧
    (∀ o, orderFirst 6 w.toNat s.won = some o → ∃ t, exec (.powerCap w) s = .next t ∧ t.won = s.won.erase o ∧ SameMem s t ∧
      t.get R.PWR_CAP.watts = if s.get R.RAS_STAT.fatal = 1 then s.get R.PWR_CAP.watts else w.toNat)) ∧
  (∀ (s : State) (watts volts amps : BitVec 16), let cap := s.get R.PWR_CAP.watts
    let c := s.get R.PWR_STAT.ceiling
    (s.s0Runs = false → exec (.powerCapTick watts volts amps) s = .next s) ∧
    (s.s0Runs = true → ∃ t, exec (.powerCapTick watts volts amps) s = .next t ∧ SameMem s t ∧ t.log = s.log ∧
      t.get R.PWR_MEAS.watts = watts.toNat ∧ t.get R.PWR_MEAS.volts = volts.toNat ∧ t.get R.PWR_MEAS.amps = amps.toNat ∧
      t.get R.PWR_STAT.ceiling = if s.get R.PWR_STAT.rung ≠ 0 then c else if cap < watts.toNat ∧ 0 < c then c - 1
        else if 100 * watts.toNat < 95 * cap ∧ c < 8 then min (c + 1) s.ceilingTop else c)) ∧
  (∀ s : State, let unmet := s.s0Runs = true ∧ s.get R.PWR_STAT.rung = 0 ∧ s.get R.PWR_STAT.ceiling = 0 ∧ s.get R.PWR_CAP.watts < s.get R.PWR_MEAS.watts
    (unmet → ∃ t, exec .pwrCapUnmetTimer s = .next t ∧ SameMem s t ∧ (t.log.head?.map LogEntry.code) = some E.PWR_CAP_UNMET) ∧
    (¬unmet → exec .pwrCapUnmetTimer s = .next s) ∧
    (s.s0Runs = true → ∃ t, exec .inputUndervoltage s = .next t ∧ t.inHold = true ∧ t.get R.PWR_STAT.ceiling = min (s.get R.PWR_STAT.ceiling) 4 ∧
      (t.log.head?.map LogEntry.code) = some E.PWR_INPUT ∧ SameMem s t) ∧
    (s.s0Runs = false → exec .inputUndervoltage s = .next s) ∧
    exec .inputRecovered s = .next { s with inHold := false } ∧
    (s.boot = 0 → exec .inputFault s = .next s ∧ exec .comparatorShutdown s = .next s) ∧
    (s.boot ≠ 0 → (∃ t, exec .inputFault s = .next t ∧ t.boot = 0 ∧ t.offBy = 1 ∧ t.get R.PWR_STAT.rung = 4 ∧ (∀ x, t.byte x = 0) ∧ t.scaler = s.scaler ∧
        t.pending = s.pending ∧ t.get R.MOD_PIN.therm = 0) ∧
      ∃ t, exec .comparatorShutdown s = .next t ∧ t.boot = 0 ∧ t.offBy = 2 ∧ t.get R.PWR_STAT.rung = 4 ∧ (∀ x, t.byte x = 0) ∧ t.scaler = s.scaler ∧
        t.pending = s.pending ∧ t.get R.MOD_PIN.therm = 1) ∧
    (s.boot < 2 → exec .refclkLost s = .next { s with refclk := false }) ∧
    (2 ≤ s.boot → ∃ t, exec .refclkLost s = .next t ∧ t.refclk = false ∧ t.get R.RAS_STAT.fatal = 1 ∧ SameMem s t ∧
      (t.log.head?.map LogEntry.code) = some E.PWR_CLOCK))

/-- R501 to R504, R538, R540, R542, R559, R560, R562: heat limits the dies, a trip is fatal, coolant and leak hold the ceiling, and a core sample is written. Where the spec is silent or can be read two ways, the clauses rest on log entries 90, 94, 95, 142 (the model's choice). -/
def Obligations.HeatAndSample : Prop :=
  (∀ (s : State) (h : Fin 4) (grids : List (BitVec 256)) (junctions hbm : List (BitVec 16)), let H := h.val
    let off := s.s0Runs = false ∨ s.halfDead (H / 2) = true ∨ 2 ≤ s.get R.PWR_STAT.rung
    (off → exec (.thermalSample h grids junctions hbm) s = .next s) ∧
    (¬off → ∃ t, exec (.thermalSample h grids junctions hbm) s = .next t ∧ SameMem s t ∧ (t.tripped = s.tripped → t.log = s.log) ∧
      (∀ i g, i < 6 → grids[i]? = some g → let T := fun r => toSigned 16 (g.toNat / 2 ^ (16 * r))
        ∃ m, m < 16 ∧ (∀ r, r < 16 → T r ≤ T m) ∧ t.get (R.THM_CD.hot (6 * H + i)) = m ∧
          t.get (R.THM_CD.limit (6 * H + i)) = thermalLimit (T m) (s.get (R.THM_CD.limit (6 * H + i)))) ∧
      (∀ i x, i < 6 → hbm[i]? = some x → t.get (R.THM_HBM.temp (6 * H + i)) = x.toNat ∧
        (16 * 95 ≤ x.toInt → ∀ n, ldOfDie n = H → t.levelLimit n ≤ 4)) ∧
      (t.get R.MOD_PIN.therm = 1 ↔ t.tripped = true ∨ ∃ n, n < 24 ∧ t.get (R.THM_CD.limit n) = 3))) ∧
  (∀ (s : State) (h : Fin 4),
    (s.s0Runs = false → exec (.thermalTrip h) s = .next s) ∧
    (s.s0Runs = true → ∃ t, exec (.thermalTrip h) s = .next t ∧ SameMem s t ∧ t.get R.RAS_STAT.fatal = 1 ∧ t.get R.MOD_PIN.therm = 1 ∧
      t.tripped = true ∧ (∀ n, t.levelLimit n = 0) ∧ (t.log.head?.map LogEntry.code) = some E.PWR_THERM_TRIP ∧
      (s.get R.PWR_STAT.busy = 1 → s.get R.PWR_STAT.rung < s.get R.PWR_STAT.target → s.get R.PWR_STAT.target < 4 → 2 ≤ s.get R.PWR_STAT.target →
        t.get R.PWR_STAT.busy = 0 ∧ t.get R.PWR_STAT.rung = s.get R.PWR_STAT.rung))) ∧
  (∀ (s : State) (inlet outlet : BitVec 16), let lo := if s.mfg.warm then 40 else 25
    let hi := if s.mfg.warm then 60 else 45
    let seen := fun (t : State) => t.get R.THM_COOL.inlet = inlet.toNat ∧ t.get R.THM_COOL.outlet = outlet.toNat ∧ SameMem s t
    (s.s0Runs = false → exec (.coolantInletHigh inlet outlet) s = .next s ∧ exec (.coolantInletLow inlet outlet) s = .next s ∧
      exec (.coolantInletNormal inlet outlet) s = .next s) ∧
    (s.s0Runs = true →
      (16 * hi < inlet.toInt → ∃ t, exec (.coolantInletHigh inlet outlet) s = .next t ∧ seen t ∧ t.coolHold = true ∧
        t.get R.PWR_STAT.ceiling = min (s.get R.PWR_STAT.ceiling) 4 ∧ (t.log.head?.map LogEntry.code) = some E.PWR_COOLANT) ∧
      (inlet.toInt ≤ 16 * hi → ∃ t, exec (.coolantInletHigh inlet outlet) s = .next t ∧ seen t ∧ t.coolHold = s.coolHold ∧ t.log = s.log) ∧
      (inlet.toInt < 16 * lo → ∃ t, exec (.coolantInletLow inlet outlet) s = .next t ∧ seen t ∧
        t.get R.PWR_STAT.ceiling = s.get R.PWR_STAT.ceiling ∧ (t.log.head?.map LogEntry.code) = some E.PWR_COOLANT) ∧
      (∃ t, exec (.coolantInletNormal inlet outlet) s = .next t ∧ seen t ∧ t.log = s.log ∧
        t.coolHold = if inlet.toInt ≤ 16 * (hi - 2) then false else s.coolHold))) ∧
  (∀ s : State,
    (s.get R.MOD_PIN.leak = 1 → exec .leakWet s = .next s) ∧
    (s.get R.MOD_PIN.leak = 0 → s.s0Runs = false → exec .leakWet s = .next (s.put R.MOD_PIN.leak 1)) ∧
    (s.get R.MOD_PIN.leak = 0 → s.s0Runs = true → ∃ t, exec .leakWet s = .next t ∧ t.get R.MOD_PIN.leak = 1 ∧ t.get R.THM_COOL.leak = 1 ∧
      t.leakHold = true ∧ t.get R.PWR_STAT.ceiling = 0 ∧ SameMem s t ∧ (t.log.head?.map LogEntry.code) = some E.PWR_LEAK) ∧
    exec .leakDry s = .next (s.puts [(R.MOD_PIN.leak, 0), (R.THM_COOL.leak, 0)])) ∧
  (∀ (s : State) (hbmOk : Bool),
    (s.sample = none → exec (.coreSampleComplete hbmOk) s = .next s) ∧
    (∀ x, s.sample = some x → ∃ t, exec (.coreSampleComplete hbmOk) s = .next t ∧ t.sample = none ∧ t.get R.RAS_STAT.valid = 1 ∧
      s.Counted t R.RAS_STAT.samples 1 ∧
      (s.bad = [] → s.plist = [] → t.le 0x02FF_F000_0000 4 = 0x4C50_4D53 ∧ fieldAt (t.bytes 0x02FF_F000_0000 10) 8 2 = x.code % 2 ^ 16) ∧
      (hbmOk = false → ∀ a, a < 0x02FF_F000_0000 → t.byte a = s.byte a)))

/-! ## Security and management messages -/

/-- R472, R474 to R479, R508: the picture is published; SPDM requests are answered from it, deferred while it is taken, or refused. Where the spec is silent or can be read two ways, the clauses rest on log entries 14, 15, 86, 87, 153 (the model's choice). -/
def Obligations.Attestation : Prop :=
  (∀ s : State, let off := s.get R.SEC_STAT.measuring = 0 ∨ s.boot < 2 ∨ 4 < s.boot ∨ (s.halfDead 0 || s.halfDead 1) = true ∨ s.get R.SEC_STAT.recovery = 1
    (off → exec .measurementPublish s = .next s) ∧
    (¬off → ∃ t, exec .measurementPublish s = .next t ∧ SameMem s t ∧ t.get R.SEC_STAT.measuring = 0 ∧
      t.get R.SEC_MGEN.gen = (s.get R.SEC_MGEN.gen + 1) % 2 ^ 64 ∧ (35, t.get R.SEC_MGEN.gen) ∈ t.picture ∧
      (s.aliasBlocks = t.aliasBlocks → t.spdm = s.spdm) ∧
      (s.aliasBlocks ≠ [] → s.aliasBlocks ≠ t.aliasBlocks → ∀ e ∈ t.spdm, e.2.resync = true ∧ e.2.stage = 0 ∧ e.2.defer = []) ∧
      (s.boot = 2 → s.linkUp = true → t.boot = 4 ∧ t.get R.HOST_STAT.ready = 1) ∧ (s.boot = 2 → s.linkUp = false → t.boot = 3) ∧
      (s.boot ≠ 2 → t.boot = s.boot))) ∧
  (∀ (s : State) (r : BitVec 8), let x := s.conn r.toNat
    (s.spdmOn = false → exec (.getVersion r) s = .next s ∧ exec (.getCapabilities r) s = .next s ∧ ∀ token, exec (.respondIfReady r token) s = .next s) ∧
    (s.spdmOn = true →
      (∃ t, exec (.getVersion r) s = .next t ∧ t.conn r.toNat = ⟨1, false, []⟩ ∧ t.out = .message 1 [r.toNat, 0x04, 0x13] :: s.out ∧ SameMem s t ∧
        t.regs = s.regs) ∧
      (x.resync = true → ∃ t, exec (.getCapabilities r) s = .next t ∧ t.conn r.toNat = { x with resync := false } ∧
        t.out = .message 2 [r.toNat, 0x43] :: s.out) ∧
      (x.resync = false → x.stage = 0 → exec (.getCapabilities r) s = .next (s.emit (.message 2 [r.toNat, 4]))) ∧
      (x.resync = false → x.stage ≠ 0 → ∃ t v, exec (.getCapabilities r) s = .next t ∧ t.conn r.toNat = { x with stage := max x.stage 2 } ∧
        t.out = .message 1 [r.toNat, 0x61, v] :: s.out) ∧
      (∀ token : BitVec 8, (∀ d ∈ x.defer, d.1 ≠ token.toNat) →
        (s.get R.SEC_STAT.measuring = 0 → x.resync = false → exec (.respondIfReady r token) s = .next (s.emit (.message 2 [r.toNat, 1]))) ∧
        (s.get R.SEC_STAT.measuring = 1 → ∃ t e, exec (.respondIfReady r token) s = .next t ∧ t.spdm = s.spdm ∧ t.regs = s.regs ∧
          t.out = .message 2 [r.toNat, 0x42, e, 0xFF, token.toNat, 2] :: s.out)) ∧
      (∀ token d, s.get R.SEC_STAT.measuring = 1 → x.defer.find? (fun d => decide (d.1 = token.toNat)) = some d → ∃ t e,
        exec (.respondIfReady r token) s = .next t ∧ t.spdm = s.spdm ∧ t.out = .message 2 [r.toNat, 0x42, e, d.2.code, d.1, 2] :: s.out) ∧
      (∀ token d, s.get R.SEC_STAT.measuring = 0 → x.resync = false → x.defer.find? (fun d => decide (d.1 = token.toNat)) = some d → ∃ t,
        exec (.respondIfReady r token) s = .next t ∧ (t.conn r.toNat).defer = x.defer.filter (fun e => decide (e.1 ≠ d.1)) ∧
        t.out.length = s.out.length + 1))) ∧
  (∀ (s : State) (r : BitVec 8) (i : Instr) (q : SpdmReq), let x := s.conn r.toNat
    ((∃ a h, i = .negotiateAlgorithms r a h ∧ q = .algorithms (b2n a) (b2n h.sha) (b2n h.dmtf)) ∨ (i = .getDigests r ∧ q = .digests) ∨
      (∃ sl off len, i = .getCertificate r sl off len ∧ q = .certificate sl.toNat off.toNat len.toNat) ∨
      (∃ sl nonce, i = .challenge r sl nonce ∧ q = .challenge sl.toNat nonce.toNat) ∨
      (∃ ix sign sl nonce, i = .getMeasurements r ix sign sl nonce ∧ q = .measurements ix.toNat sign sl.toNat nonce.toNat)) →
    (s.spdmOn = false → exec i s = .next s) ∧
    (s.spdmOn = true → s.get R.SEC_STAT.measuring = 1 → ∃ t e, exec i s = .next t ∧ (s.tokens % 256, q) ∈ (t.conn r.toNat).defer ∧
      t.tokens = s.tokens + 1 ∧ t.regs = s.regs ∧ t.out = .message 2 [r.toNat, 0x42, e, q.code, s.tokens % 256, 2] :: s.out) ∧
    (s.spdmOn = true → s.get R.SEC_STAT.measuring = 0 → x.resync = true → ∃ t, exec i s = .next t ∧ t.conn r.toNat = { x with resync := false } ∧
      t.out = .message 2 [r.toNat, 0x43] :: s.out) ∧
    (s.spdmOn = true → s.get R.SEC_STAT.measuring = 0 → x.resync = false →
      (x.stage < (match q with | .algorithms _ _ _ => 2 | _ => 3) → exec i s = .next (s.emit (.message 2 [r.toNat, 4]))) ∧
      (2 ≤ x.stage → ∀ m, q = .algorithms 1 1 m → ∃ t, exec i s = .next t ∧ (t.conn r.toNat).stage = 3 ∧
        t.out = .message 1 [r.toNat, 0x63, 1, 1, m] :: s.out) ∧
      (2 ≤ x.stage → ∀ a h m, q = .algorithms a h m → (a, h) ≠ (1, 1) → exec i s = .next (s.emit (.message 2 [r.toNat, 1]))) ∧
      (3 ≤ x.stage → q = .digests → exec i s = .next (s.emit (.message 1 (r.toNat :: 0x01 :: 1 :: (sha384 s.chain).map BitVec.toNat)))) ∧
      (3 ≤ x.stage → ∀ sl off len, q = .certificate sl off len →
        exec i s = .next (s.emit (if sl ≠ 0 ∨ s.chain.length ≤ off then .message 2 [r.toNat, 1]
          else let part := (s.chain.drop off).take len
               .message 1 (r.toNat :: 0x02 :: sl :: part.length :: (s.chain.length - off - part.length) :: part.map BitVec.toNat)))) ∧
      (3 ≤ x.stage → ∀ sl nonce, q = .challenge sl nonce →
        (sl ≠ 0 → exec i s = .next (s.emit (.message 2 [r.toNat, 1]))) ∧
        (sl = 0 → ∃ t rest, exec i s = .next t ∧ t.out = .message 1 (r.toNat :: 0x03 :: 0 :: nonce :: rest) :: s.out ∧ t.regs = s.regs)) ∧
      (3 ≤ x.stage → ∀ ix sign sl nonce, q = .measurements ix sign sl nonce →
        let blocks := if ix = 0xFF then s.picture else s.picture.filter (fun b => decide (b.1 = ix))
        ((ix ≠ 0 ∧ blocks = []) ∨ (sign = true ∧ sl ≠ 0) → exec i s = .next (s.emit (.message 2 [r.toNat, 1]))) ∧
        (¬((ix ≠ 0 ∧ blocks = []) ∨ (sign = true ∧ sl ≠ 0)) → ∃ t rest, exec i s = .next t ∧ t.regs = s.regs ∧
          t.out = .message 1 ([r.toNat, 0x60, ix, s.picture.length, blocks.length, nonce] ++ blocks.flatMap (fun b => [b.1, blockType b.1, b.2]) ++ rest) :: s.out))))

/-- R459, R471 to R473, R484, R485: a firmware package is staged, verified, armed, cancelled and reverted; the permission log is cleared. Where the spec is silent or can be read two ways, the clauses rest on log entries 86, 88 (the model's choice). -/
def Obligations.FirmwareUpdate : Prop :=
  (∀ s : State,
    (s.mctpOn = false → exec .requestUpdate s = .next s ∧ exec .activateFirmware s = .next s ∧
      ∀ hd a b, exec (.verifyComplete hd a b) s = .next s) ∧
    (s.mctpOn = true →
      (s.fw.upd ≠ none → exec .requestUpdate s = .next (s.emit (.message 3 [0x10, 0x81]))) ∧
      (s.fw.upd = none → ∀ k, k < 2 → (∀ h, h < 2 → s.recovering h = false → s.runBank h ≠ k) →
        (k = 1 → ∃ h, h < 2 ∧ s.recovering h = false ∧ s.runBank h = 0) → ∃ t, exec .requestUpdate s = .next t ∧ t.fw.upd = some k ∧
        t.get (R.SEC_BANK.valid k) = 0 ∧ t.get R.SEC_STAT.pending = 0 ∧ t.out = .message 3 [0x10, 0] :: s.out ∧ SameMem s t) ∧
      (s.fw.upd = none → s.recovering 0 = false → s.recovering 1 = false → s.runBank 0 ≠ s.runBank 1 → exec .requestUpdate s = .next (s.emit (.message 3 [0x10, 0x8A]))) ∧
      ((s.get R.SEC_STAT.pending = 1 ∨ s.get R.SEC_STAT.pending = 0 ∧ s.fw.slot = 2) → ∃ t, exec .activateFirmware s = .next t ∧
        t.get R.SEC_STAT.pending = 2 ∧ t.out = .message 3 [0x1A, 0] :: s.out ∧ SameMem s t) ∧
      (¬(s.get R.SEC_STAT.pending = 1 ∨ s.get R.SEC_STAT.pending = 0 ∧ s.fw.slot = 2) →
        exec .activateFirmware s = .next (s.emit (.message 3 [0x1A, 0x82]))))) ∧
  (∀ (s : State) (hd key : List (BitVec 8)) (cert : Bool),
    (s.fw.upd = none → exec (.verifyComplete hd key cert) s = .next s) ∧
    (∀ k, s.fw.upd = some k → k < 2 → s.mctpOn = true →
      let good := packageOk hd = true ∧ imagesOk hd = true ∧ packageSigOk hd key = true ∧ cert = true
      (¬good → ∃ t, exec (.verifyComplete hd key cert) s = .next t ∧ t.fw.upd = none ∧ t.get (R.SEC_BANK.valid k) = s.get (R.SEC_BANK.valid k) ∧
        t.get R.SEC_STAT.pending = s.get R.SEC_STAT.pending ∧ (t.log.head?.map LogEntry.code) = some E.SEC_UPDATE) ∧
      (good → fieldAt hd 12 4 < s.get R.SEC_STAT.svn_floor → ∃ t, exec (.verifyComplete hd key cert) s = .next t ∧ t.fw.upd = none ∧
        t.get (R.SEC_BANK.valid k) = s.get (R.SEC_BANK.valid k) ∧ (t.log.head?.map LogEntry.code) = some E.SEC_ROLLBACK) ∧
      (good → s.get R.SEC_STAT.svn_floor ≤ fieldAt hd 12 4 → ∃ t, exec (.verifyComplete hd key cert) s = .next t ∧ t.fw.upd = none ∧
        t.get (R.SEC_BANK.valid k) = 1 ∧ t.get (R.SEC_BANK.fwver k) = fieldAt hd 8 4 % 2 ^ 32 ∧ t.get R.SEC_STAT.pending = 1 ∧
        KMap.find (fun _ => []) t.fw.banks k = hd ∧ t.out = .message 3 [0x18, 0] :: s.out ∧ t.log = s.log))) ∧
  (∀ s : State, s.Open →
    ((s.get R.SEC_STAT.pending = 0 ∨ s.get R.SEC_STAT.pending = 2 ∧ s.fw.slot = 1) → exec .secFwcmdCancel s = .next s) ∧
    (s.get R.SEC_STAT.pending ≠ 0 → ¬(s.get R.SEC_STAT.pending = 2 ∧ s.fw.slot = 1) → ∃ t, exec .secFwcmdCancel s = .next t ∧
      t.get R.SEC_STAT.pending = 0 ∧ (∀ b ∈ t.picture, b.1 ≠ 36) ∧ t.log = s.log) ∧
    (s.get R.SEC_STAT.pending = 2 → ∃ t, exec .secFwcmdRevert s = .next t ∧ t.fw = s.fw ∧ (t.log.head?.map LogEntry.code) = some E.SEC_UPDATE) ∧
    (s.get R.SEC_STAT.pending ≠ 2 → s.get (R.SEC_BANK.valid (1 - s.fw.sel)) = 1 →
      exec .secFwcmdRevert s = .next { s with fw := { s.fw with revert := true } }) ∧
    (s.get R.SEC_STAT.pending ≠ 2 → s.get (R.SEC_BANK.valid (1 - s.fw.sel)) = 0 → exec .secFwcmdRevert s = .next s) ∧
    (∃ t, exec .secLogclr s = .next t ∧ { t with regs := s.regs } = s ∧ t.get R.SEC_PERMLOG0.addr = 0 ∧ t.get R.SEC_PERMLOG1.count = 0 ∧
      t.get R.SEC_PERMLOG1.ctx = 0))

/-- R454, R455, R457 to R460, R473, R556: the messages of the management endpoint: register access, orders, sensors, addresses. Where the spec is silent or can be read two ways, the clauses rest on log entries 77, 86, 87, 162 (the model's choice). -/
def Obligations.ManagementMessages : Prop :=
  (∀ s : State, s.mctpOn = false →
    (∀ id, exec (.pldmSensorRead id) s = .next s) ∧ (∀ e, exec (.mctpControl e) s = .next s) ∧ (∀ a b, exec (.i3cDynamicAddress a b) s = .next s)) ∧
  (∀ s : State, s.vdmOn = false →
    (∀ off size, exec (.msgRegisterRead off size) s = .next s) ∧ (∀ off size v, exec (.msgRegisterWrite off size v) s = .next s) ∧
    (∀ k a, exec (.msgOrder k a) s = .next s) ∧ exec .msgOrderStatus s = .next s) ∧
  (∀ s : State, s.mctpOn = true →
    (s.get R.SEC_STAT.recovery = 1 → ∀ id, exec (.pldmSensorRead id) s = .next s) ∧
    (s.get R.SEC_STAT.recovery = 0 →
      (∀ i : Fin 24, exec (.pldmSensorRead (.sensor (BitVec.ofNat 8 (4 + i.val)))) s = .next (s.emit (.message 3 [2, 4 + i.val, s.get (R.THM_HBM.temp i.val)]))) ∧
      exec (.pldmSensorRead (.sensor 76)) s = .next (s.emit (.message 3 [2, 76, s.get R.THM_COOL.inlet])) ∧
      exec (.pldmSensorRead (.sensor 78)) s = .next (s.emit (.message 3 [2, 78, s.get R.PWR_MEAS.watts])) ∧
      (∀ id : BitVec 8, 87 ≤ id.toNat → exec (.pldmSensorRead (.sensor id)) s = .next (s.emit (.message 3 [2, id.toNat, 0x80]))) ∧
      (∀ d : BitVec 8, d ≠ 0 → d ≠ 0xFF → exec (.pldmSensorRead (.setTid d)) s = .next (({ s with tid := d.toNat } : State).emit (.message 3 [0, 1, 0]))) ∧
      exec (.pldmSensorRead .getTid) s = .next (s.emit (.message 3 [0, 2, 0, s.tid])) ∧
      exec (.pldmSensorRead .types) s = .next (s.emit (.message 3 [0, 4, 0, 0x25])) ∧
      ∀ y : BitVec 6, y ≠ 0 → y ≠ 2 → y ≠ 5 → exec (.pldmSensorRead (.version y)) s = .next (s.emit (.message 3 [0, 3, 0x83])) ∧
        exec (.pldmSensorRead (.commands y)) s = .next (s.emit (.message 3 [0, 5, 0x83]))) ∧
    exec (.mctpControl .getEid) s = .next (s.emit (.message 5 [2, s.eid])) ∧
    exec (.mctpControl .types) s = .next (s.emit (.message 5 [5, 0, 0, 1, 5, 0x7E])) ∧
    (∃ u, exec (.mctpControl .uuid) s = .next (s.emit (.message 5 [3, 0, u]))) ∧
    (∀ y : BitVec 8, (y = 0xFF ∨ y = 0 ∨ y = 1 ∨ y = 5 ∨ y = 0x7E → ∃ v, exec (.mctpControl (.version y)) s = .next (s.emit (.message 5 [4, 0, v]))) ∧
      (y ≠ 0xFF → y ≠ 0 → y ≠ 1 → y ≠ 5 → y ≠ 0x7E → exec (.mctpControl (.version y)) s = .next (s.emit (.message 5 [4, 0x80])))) ∧
    (∀ e : BitVec 8, 8 ≤ e.toNat → e.toNat ≠ 0xFF → ∃ t, exec (.mctpControl (.setEid e)) s = .next t ∧ t.eid = e.toNat ∧
      t.out = .message 5 [1, 0, e.toNat] :: s.out ∧ t.regs = s.regs) ∧
    (∀ e : BitVec 8, (e.toNat < 8 ∨ e.toNat = 0xFF) → exec (.mctpControl (.setEid e)) s = .next (s.emit (.message 5 [1, 1, s.eid]))) ∧
    (∀ (sta : Option (BitVec 7)) (addr : BitVec 7),
      (s.i3c = none → (sta = none ∨ ∃ a, sta = some a ∧ a.toNat = 0x30 + s.slotId) →
        exec (.i3cDynamicAddress sta addr) s = .next { s with i3c := some addr.toNat }) ∧
      ((s.i3c ≠ none ∨ ∃ a, sta = some a ∧ a.toNat ≠ 0x30 + s.slotId) → exec (.i3cDynamicAddress sta addr) s = .next s)) ∧
    (s.vdmOn = true → exec .msgOrderStatus s = .next (s.emit (.message 4 [0, s.mgmtRes.2])))) ∧
  (∀ (s : State) (off : BitVec 26) (size : BitVec 4), let o := off.toNat
    let n := size.toNat
    s.vdmOn = true →
    (accessOk o n = false → ∃ t, exec (.msgRegisterRead off size) s = .next t ∧ t.out.head? = some (.message 4 [2]) ∧
      (t.log.head?.map LogEntry.code) = some E.CFG_RANGE) ∧
    (accessOk o n = true → s.get R.HOST_STAT.ready = 0 → exec (.msgRegisterRead off size) s = .next (s.emit (.message 4 [3])) ∧
      ∀ v, exec (.msgRegisterWrite off size v) s = .next (s.emit (.message 4 [3]))) ∧
    (accessOk o n = true → s.get R.HOST_STAT.ready = 1 →
      (regWrites .mgmt o n 0 = [] → ∀ v, ∃ t, exec (.msgRegisterWrite off size v) s = .next t ∧ SameMem s t ∧ s.Counted t R.OWN_LOG.count 1 ∧
        t.out.head? = some (.message 4 [1]) ∧ (t.log.head?.map LogEntry.code) = some E.CFG_OWNER) ∧
      (s.reachReg o = .ok → exec (.msgRegisterRead off size) s =
        .next (s.emit (.message 4 [0, if 0x03C0_0000 ≤ o ∧ o < 0x03D0_0000 then 0 else s.read48 o n]))) ∧
      (s.reachReg o = .absent → exec (.msgRegisterRead off size) s = .next (s.emit (.message 4 [0, 0]))) ∧
      (∀ e w, s.reachReg o = .down e w → ∃ t, exec (.msgRegisterRead off size) s = .next t ∧
        t.out.head? = some (.message 4 [3]) ∧ (t.log.head?.map LogEntry.code) = some e))) ∧
  (∀ (s : State) (v : BitVec 64), s.vdmOn = true → s.Open →
    (s.owns .mgmt 1 = true → exec (.msgRegisterWrite 0x03A1_0010 8 v) s = .next ((s.put R.CKPT_TMO.ticks (v.toNat % 2 ^ 48)).emit (.message 4 [0]))) ∧
    (s.owns .mgmt 1 = false → ∃ t, exec (.msgRegisterWrite 0x03A1_0010 8 v) s = .next t ∧ t.get R.CKPT_TMO.ticks = s.get R.CKPT_TMO.ticks ∧
      t.out.head? = some (.message 4 [1]) ∧ (t.log.head?.map LogEntry.code) = some E.CFG_OWNER)) ∧
  (∀ (s : State) (kind : BitVec 4) (arg : BitVec 16), let o : Order := ⟨kind.toNat, if kind = 1 then 0 else arg.toNat, 1⟩
    let ok := orderOk kind.toNat o.arg = true ∧ s.orderTaken kind.toNat o.arg = true
    s.vdmOn = true →
    (s.get R.HOST_STAT.ready = 0 → exec (.msgOrder kind arg) s = .next (s.emit (.message 4 [3]))) ∧
    (s.get R.HOST_STAT.ready = 1 → ok → ∃ t, exec (.msgOrder kind arg) s = .next t ∧ o ∈ t.mgmtOrd ∧ (∀ x ∈ t.mgmtOrd, x.kind = o.kind → x = o) ∧
      t.mgmtRes = (kind.toNat, 0) ∧ t.hostOrd = s.hostOrd ∧ t.out = .message 4 [0] :: s.out ∧ t.regs = s.regs) ∧
    (s.get R.HOST_STAT.ready = 1 → ¬ok → ∃ t, exec (.msgOrder kind arg) s = .next t ∧ t.mgmtRes = (kind.toNat, 3) ∧
      t.mgmtOrd.map (fun x => (x.kind, x.arg)) = s.mgmtOrd.map (fun x => (x.kind, x.arg)) ∧ t.hostOrd = s.hostOrd ∧
      (t.log.head?.map LogEntry.code) = some E.CFG_RANGE ∧ t.out.head? = some (.message 4 [0])))

/-! ## The meter -/

/-- R514 to R518, R520, R521, R523, R526 to R530: the Scaler's register only grows and nothing of the module reaches it; S0 mirrors its records and
apportions each interval's energy without loss. Where the spec is silent or can be read two ways, the clauses rest on log entries 14, 79, 80, 96 (the model's choice). -/
def Obligations.Metering : Prop :=
  (∀ s : State, let x := s.scaler
    let quiet := fun (t : State) => SameMem s t ∧ t.regs = s.regs ∧ t.meter = s.meter ∧ t.log = s.log
    let noted := fun (y : Scaler) (typ : Nat) => y.evt = x.evt + 1 ∧ (y.log.head?.map logNumType) = some ((x.evt + 1) % 2 ^ 32, typ)
    (∀ gain power volts amps ovr, x.on = false → exec (.scalerRecord gain power volts amps ovr) s = .next s) ∧
    (∀ (gain : BitVec 64) power volts amps ovr, x.on = true → ∃ t r, exec (.scalerRecord gain power volts amps ovr) s = .next t ∧ quiet t ∧
      t.scaler = { x with fine := if x.stopped then x.fine else x.fine + gain.toNat, seq := x.seq + 1, secs := x.secs + 1 } ∧ t.wire = some r ∧
      mrSeq r = (x.seq + 1) % 2 ^ 64 ∧ mrEnergy r = t.scaler.fine / 1000 % 2 ^ 64 ∧ mrSecs r = (x.secs + 1) % 2 ^ 64 ∧ r.length = 256) ∧
    ((x.on = true ∧ x.stopped = false ∧ x.pulses < x.fine / 10000) → ∃ t, exec .scalerPulse s = .next t ∧ quiet t ∧
      t.scaler = { x with pulses := x.pulses + 1 } ∧ t.out = .pin 0 1 :: s.out) ∧
    (¬(x.on = true ∧ x.stopped = false ∧ x.pulses < x.fine / 10000) → exec .scalerPulse s = .next s) ∧
    (x.on = true → ∀ ok id, exec (.scalerPowerUp ok id) s = .next s) ∧
    (x.on = false → ∀ ok, ∃ t, exec (.scalerPowerUp ok .same) s = .next t ∧ quiet t ∧ t.scaler.on = true ∧ t.scaler.fine = x.fine ∧
      t.scaler.seq = x.seq ∧ t.scaler.stopped = (x.stopped || !ok) ∧ t.scaler.broken = x.broken ∧ t.scaler.evt = x.evt + (if ok then 1 else 2)) ∧
    (x.on = false → ∀ serial fwid cksum fine seq secs evt cert, ∃ t, exec (.scalerPowerUp true (.other serial fwid cksum fine seq secs evt cert)) s = .next t ∧
      quiet t ∧ t.scaler.on = true ∧ t.scaler.fine = fine.toNat ∧ t.scaler.serial = serial.toNat ∧ t.scaler.broken = false) ∧
    (∀ volts : BitVec 16, x.on = true → volts.toNat < 4000 → ∃ t, exec (.scalerPowerDown volts) s = .next t ∧ quiet t ∧ t.scaler.on = false ∧
      t.scaler.fine = x.fine ∧ noted t.scaler 2) ∧
    (∀ volts : BitVec 16, (x.on = false ∨ 4000 ≤ volts.toNat) → exec (.scalerPowerDown volts) s = .next s) ∧
    (x.broken = true → exec .scalerSealBroken s = .next s) ∧
    (x.broken = false → ∃ t, exec .scalerSealBroken s = .next t ∧ quiet t ∧ t.scaler.broken = true ∧ t.scaler.fine = x.fine ∧ noted t.scaler 6) ∧
    (∀ (kind : Fin 3) datum, x.on = true → ∃ t, exec (.scalerInputEvent kind datum) s = .next t ∧ quiet t ∧ t.scaler.fine = x.fine ∧
      noted t.scaler (3 + kind.val)) ∧
    (∀ (kind : Fin 3) datum, x.on = false → exec (.scalerInputEvent kind datum) s = .next s) ∧
    (∀ fwid cksum, ∃ t, exec (.scalerReverification fwid cksum) s = .next t ∧ quiet t ∧ t.scaler.broken = false ∧ t.scaler.stopped = false ∧
      t.scaler.fwid = fwid.toNat ∧ t.scaler.fine = x.fine ∧ noted t.scaler 8)) ∧
  (∀ s : State, let total := fun (t : State) => ((List.range 64).map (fun c => KMap.find (fun _ => 0) t.meter.total c)).sum
    (s.wire = none → exec .meterRecordReceived s = .next s) ∧
    (s.wire ≠ none → s.metering = false → exec .meterRecordReceived s =
      .next { s with wire := none, meter := { s.meter with gap := s.meter.gap || s.meter.prev.isSome } }) ∧
    (∀ r, s.wire = some r → s.metering = true → ∃ t, exec .meterRecordReceived s = .next t ∧ t.wire = none ∧ t.meter.prev = some r ∧ t.meter.gap = false ∧
      SameMem s t ∧ t.scaler = s.scaler ∧ t.get R.MTR_IDX.rec = 1 - s.get R.MTR_IDX.rec ∧
      KMap.find (fun _ => []) t.mtrRec (1 - s.get R.MTR_IDX.rec) = r ∧ t.get R.MTR_STAT.link = 1 ∧ t.get R.MTR_STAT.seal_broken = mrFlags r % 2 ∧
      (s.meter.prev = none → total t = total s ∧ t.meter.overhead = s.meter.overhead ∧ t.meter.intervals = s.meter.intervals) ∧
      (∀ p, s.meter.prev = some p → mrSerial p = mrSerial r → t.meter.intervals = s.meter.intervals + 1 ∧
        total t + t.meter.overhead = total s + s.meter.overhead + (if bit (mrFlags r) 2 then 0 else mrEnergy r - mrEnergy p) ∧
        t.get R.MTR_IDX.app = 1 - s.get R.MTR_IDX.app ∧ (s.meter.gap = true → total t = total s))) ∧
    (let due := s.metering = true ∧ (s.get R.MTR_STAT.link = 1 ∨ s.meter.gap = false)
     (due → ∃ t, exec .meterLinkTimeout s = .next t ∧ t.get R.MTR_STAT.link = 0 ∧ t.meter = { s.meter with gap := true } ∧ SameMem s t ∧
       (t.log.head?.map LogEntry.code) = some E.PWR_METER_LINK) ∧
     (¬due → exec .meterLinkTimeout s = .next s)))

/-! ## A lost module -/

/-- R272, R369, R370, R544, R545: a lost module is told of once; the survivors redraw the job without it, or halt the context. Where the spec is silent or can be read two ways, the clauses rest on log entries 70, 158, 160 (the model's choice). -/
def Obligations.LostModules : Prop :=
  (∀ (s : State) (h : RedHdr) (f : BitVec 16) (k : Fin 24), let C := h.ctx.val
    let quiet := fun (t : State) => SameMem s t ∧ t.regs = s.regs ∧ t.seqs = s.seqs ∧ t.flumes = s.flumes ∧ t.cutForce = s.cutForce ∧ t.log = s.log
    s.redMine h k.val = true →
    (f.toNat ∉ (s.job C).lost → ∃ t, exec (.moduleLostMsg h f k) s = .next t ∧ quiet t ∧ (t.job C).lost = (s.job C).lost ++ [f.toNat] ∧
      (∀ d, d ≠ C → t.job d = s.job d) ∧ s.LostTold t C f.toNat k.val) ∧
    (f.toNat ∈ (s.job C).lost → ∃ t, exec (.moduleLostMsg h f k) s = .next t ∧ quiet t ∧ t.jobs = s.jobs ∧ ∀ j, j ≠ k.val → t.skw j = s.skw j)) ∧
  (∀ (s : State) (c : Fin 64) (w : Fin 3) (tb : CutTable), let C := c.val
    let k := s.get (if w = 0 then R.RED_CTL.next C else if w = 1 then R.RED_CTL.prev C else R.RED_CTL.wrap C)
    let m := s.moduleOf C
    let f := if w = 0 then m + 1 else if w = 1 then m - 1 else if m = 0 then tb.nmodules - 1 else 0
    let gone := s.get (R.RED_CTL.en C) = 1 ∧ k < 24 ∧ (s.skwUp k = false ∨ (s.skw k).notice = true) ∧ f ∉ (s.job C).lost
    s.cutTable C 0 = some tb →
    (gone → ∃ t, exec (.moduleLostDeclare c w) s = .next t ∧ SameMem s t ∧ t.seqs = s.seqs ∧ t.flumes = s.flumes ∧ t.cutForce = s.cutForce ∧
      (t.job C).lost = (s.job C).lost ++ [f] ∧ (∀ d, d ≠ C → t.job d = s.job d) ∧ s.LostTold t C f k ∧
      (t.log.head?.map LogEntry.code) = some E.LINK_MODULE_LOST) ∧
    (¬gone → exec (.moduleLostDeclare c w) s = .next s)) ∧
  (∀ (s : State) (c : Fin 64) (bankOk : Bool) (f : Nat) (more : List Nat) (tb : CutTable), let C := c.val
    let m := s.moduleOf C
    let n := tb.nmodules
    let h := (f + 1) % n
    let good := s.get (R.CKPT_BUDDY.en C) = 1 ∧ h ∉ more ∧
      (if m = h then s.get (R.CKPT_BSTEP.valid C) = 1 ∧ (s.job C).done = some (s.get (R.CKPT_BSTEP.step C)) ∧ s.banksOk C = true else bankOk = true)
    let halted := fun (t : State) => ∀ k, k < 96 → s.seqBound k = true → s.seqCtx k = C → s.seqState k = seqRUNNING → t.seqState k = seqHALTED
    let fs := (s.ctxFlumes C).filter (fun x => decide (s.flmState x = flmOPEN ∨ s.flmState x = flmHELD))
    let new := (tb.relink m (s.flumeName tb f m fs)).without f
    (s.job C).lost = f :: more → s.cutTable C 0 = some tb →
    ((n ≤ f ∨ f = m ∨ s.patrolPaused = true) → exec (.shrink c bankOk) s = .next s) ∧
    (f < n → f ≠ m → s.patrolPaused = false →
      (s.get R.RAS_CTL.shrink_pin = 1 → ∃ t, exec (.shrink c bankOk) s = .next t ∧ halted t ∧ t.cutForce = s.cutForce ∧ SameMem s t) ∧
      (s.get R.RAS_CTL.shrink_pin = 0 → ¬good → ∃ t, exec (.shrink c bankOk) s = .next t ∧ halted t ∧ t.cutForce = s.cutForce ∧ SameMem s t ∧
        (t.log.head?.map LogEntry.code) = some E.CKPT_BUDDY_LOST) ∧
      (s.get R.RAS_CTL.shrink_pin = 0 → good → ∃ t, exec (.shrink c bankOk) s = .next t ∧ halted t ∧ t.cutTable C 0 = some new ∧
        t.moduleOf C = ringIndex n f m % 2 ^ 12 ∧ t.get (R.RED_CTL.wrap C) = 31 ∧ (t.job C).lost = [] ∧ (t.job C).redrawn = (s.job C).done ∧
        t.get (R.CKPT_BSTEP.valid C) = 0 ∧ (m ≠ h → SameMem s t) ∧ (∀ g ∈ s.ctxFlumes C, t.flmState g ≠ flmOPEN) ∧
        (s.ctxFlumes C = [] → ∀ k, k < 96 → s.seqBound k = true → s.seqCtx k = C → ∀ row, new.row (t.seqStage k) = some row →
          rowModule row = t.moduleOf C → t.get (R.CUT_PH.active k) = 1 ∧ t.get (R.CUT_PH.phase k) = 0)))) ∧
  (∀ (s : State) (c : Fin 64) (bankOk : Bool), ((s.job c.val).lost = [] ∨ s.cutTable c.val 0 = none) → exec (.shrink c bankOk) s = .next s)

/-! ## The machine as a whole -/

/-- The queue is first in, first out: a step runs the command at the front on the state with the rest of the queue; with no command one array clock passes. Where the spec is silent or can be read two ways, the clauses rest on log entries 1, 98 (the model's choice). -/
def Obligations.StepTakesTheFront : Prop :=
  (∀ (s : State) (i : Instr) (rest : List Instr), s.pending = i :: rest → step s = exec i { s with pending := rest }) ∧
  (∀ s : State, s.pending = [] → ∃ t, step s = .next t ∧ t.now = s.now + 1 ∧ t.pending = [])

/-- R1, R207, R214, R430, R539: every command answers a next state from every state, and none touches the queue: what the spec refuses is raised, dropped or logged. Where the spec is silent or can be read two ways, the clauses rest on log entry 8 (the model's choice). -/
def Obligations.EveryCommandAnswers : Prop :=
  ∀ (i : Instr) (s : State), ∃ t, exec i s = .next t ∧ t.pending = s.pending

/-- R205 to R208, R228 to R257: every well-formed slot instruction, with every operand at every value, decodes from its slot to itself. Where the spec is silent or can be read two ways, the clauses rest on log entry 33 (the model's choice). -/
def Obligations.SlotRoundTrip : Prop :=
  ∀ (i : Instr) (c : SlotCtl), slotCtlOf i = some c → slotFormed i = true → decSlot c.die c.q c.slot c.more (encSlot i) = .ok i

/-- R206, R228 to R257: slots written out bit by bit from the encodings of one instruction of each class decode to those instructions. -/
def Obligations.SlotWords : Prop :=
  let c := fun (n : Fin 4) => ({ die := 5, q := 2, slot := n, pe := false, pidx := 0, psense := false, more := true } : SlotCtl)
  let d := fun (n : Fin 4) (w : Nat) => (decSlot 5 2 n true w).toOption
  d 1 0 = some (.nop (c 1)) ∧ d 0 0x01BA_4680_0000_0000 = some (.br { c 0 with pe := true, pidx := 3, psense := true } 0x1234) ∧
  d 0 0x2000_4430_0000_0000 = some (.add (c 0) 1 2 3) ∧ d 3 0x3002_8BFF_FFFF_FE00 = some (.cmpEq (c 3) 2 5 (.imm 0xFFFF_FFFF)) ∧
  d 1 0x4006_0469_0000_0000 = some (.mma (c 1) 12 0 17 true 9) ∧ d 1 0x5806_1D5A_0000_0000 = some (.sapMv (c 1) 12 3 true 10 true 5) ∧
  d 2 0x6001_F800_0000_0000 = some (.glzRun (c 2) 7 true 6) ∧ d 3 0x7001_28A2_468A_C000 = some (.ldTs (c 3) 4 true 8 2 true 0x123456) ∧
  d 3 0x7703_2640_0000_0000 = some (.schW (c 3) 3 4 200) ∧ d 3 0x9301_C000_6000_0000 = some (.flmPop (c 3) 3 (.reg 6)) ∧
  d 3 0xA101_1357_8000_0000 = some (.verPin (c 3) 1 2 (.imm 0x1ABC)) ∧ d 3 0xB002_9BA0_0000_0000 = some (.varLook (c 3) 5 6 7 8)

/-- R207: a slot whose opcode is not legal in it never decodes to an instruction, and none of the reserved opcodes is legal in any slot. -/
def Obligations.SlotClasses : Prop :=
  (∀ (d : Fin 24) (q n : Fin 4) (m : Bool) (w : Nat) (i : Instr), decSlot d q n m w = .ok i →
    (w / 2 ^ 56 % 256 = 0 ∨ (1 ≤ w / 2 ^ 56 % 256 ∧ w / 2 ^ 56 % 256 ≤ 0x1F ∧ n = 0) ∨
      (0x20 ≤ w / 2 ^ 56 % 256 ∧ w / 2 ^ 56 % 256 ≤ 0x3F ∧ (n = 0 ∨ n = 3)) ∨
      (0x40 ≤ w / 2 ^ 56 % 256 ∧ w / 2 ^ 56 % 256 ≤ 0x5F ∧ n = 1) ∨ (0x60 ≤ w / 2 ^ 56 % 256 ∧ w / 2 ^ 56 % 256 ≤ 0x6F ∧ n = 2) ∨
      (0x70 ≤ w / 2 ^ 56 % 256 ∧ w / 2 ^ 56 % 256 ≤ 0xB7 ∧ n = 3)) ∧
    ∀ c, slotCtlOf i = some c → c.slot = n ∧ slotFormed i = true) ∧
  (∀ (i : Instr) (c : SlotCtl), slotCtlOf i = some c → slotFormed i = true → c.slot.val ∈ opcodeSlots (encSlot i / 2 ^ 56 % 256)) ∧
  (∀ op, op < 256 → (opcodeSlots op = [0, 1, 2, 3] ↔ op = 0) ∧ (opcodeSlots op = [0] ↔ 0x01 ≤ op ∧ op ≤ 0x1F) ∧
    (opcodeSlots op = [0, 3] ↔ 0x20 ≤ op ∧ op ≤ 0x3F) ∧ (opcodeSlots op = [1] ↔ 0x40 ≤ op ∧ op ≤ 0x5F) ∧
    (opcodeSlots op = [2] ↔ 0x60 ≤ op ∧ op ≤ 0x6F) ∧ (opcodeSlots op = [3] ↔ 0x70 ≤ op ∧ op ≤ 0xB7) ∧ (opcodeSlots op = [] ↔ 0xB8 ≤ op))

/-- Memory, the tile registers and the register fields stay in canonical form: every step from a canonical state, whatever command is in front, ends in a canonical state. Where the spec is silent or can be read two ways, the clauses rest on log entry 4 (the model's choice). -/
def Obligations.CanonKept : Prop :=
  ∀ s t : State, s.Canon → step s = .next t → t.Canon

/-- R154, R159, R173, R202, R361, R498, R505 and the reset columns of the register tables: what the machine holds at reset; a byte nothing has written reads 0 (the model's choice, log entry 2). Where the spec is silent or can be read two ways, the clauses rest on log entries 2, 3, 4, 80, 97 (the model's choice). -/
def Obligations.ResetState : Prop :=
  let s := State.reset
  s.Canon ∧ s.pending = [] ∧ (∀ a, s.byte a = 0) ∧ s.bad = [] ∧ s.portUp = false ∧
  (∀ f : Fld, s.get f = resetVal f.a % 2 ^ f.w) ∧
  s.get R.PWR_CAP.watts = 3800 ∧ s.get R.FLM_TMO.ticks = 175000000 ∧ s.get R.VER_TMO.ticks = 175000000 ∧ s.get R.PWR_CTL.perst_warm = 1 ∧
  s.get R.CKPT_TMO.ticks = 10500000000 ∧ (∀ c, c < 64 → s.get (R.RED_CTL.wrap c) = 31) ∧
  (∀ k, k < 96 → s.seqState k = 0 ∧ ∀ r : BitVec 5, s.s k r = 0)

/-- R431: PF0 is context 0 and VF n is context n: a function other than PF0 answers configuration requests exactly while VF Enable is set and NumVFs is at least its number
(`vfs` is NumVFs while it is set and 0 otherwise). Where the spec is silent or can be read two ways, the clauses rest on log entry 161 (the model's choice). -/
def Obligations.FunctionsExist : Prop :=
  (∀ (s : State) (n : Fin 64), s.portUp = true →
    (n ≠ 0 ∧ ¬(s.vfs ≠ 0 ∧ n.val ≤ s.vfs) → ∀ r, exec (.pcieConfigRequest n r) s = .next (s.emit (.pcie 2 [n.val]))) ∧
    (n = 0 ∨ (s.vfs ≠ 0 ∧ n.val ≤ s.vfs) → ∀ off, ∃ o w, exec (.pcieConfigRequest n (.read off)) s = .next (s.emit (.pcie 3 [n.val, o, w])))) ∧
  (∀ (s : State) (n num : Fin 64), s.portUp = true → s.vfOn = false → n ≠ 0 → n ≤ num →
    ∃ t, exec (.vfEnable true num) s = .next t ∧ t.vfOn = true ∧ t.vfs = num.val ∧ t.funcExists n.val = true) ∧
  (∀ (s : State) (n num : Fin 64), s.portUp = true → s.vfOn = true → n ≠ 0 →
    ∃ t, exec (.vfEnable false num) s = .next t ∧ t.vfOn = false ∧ t.vfs = 0 ∧ t.funcExists n.val = false)

/-- R34: which logical stacks are fitted: 6h to 6h+n-1 under landing die h; M16 and M20 parts lack the stacks the rule lists. -/
def Obligations.FittedStacks : Prop :=
  (∀ (s : State) (h i : Nat), h < 4 → s.mfg.nstacks ≤ 6 → i < 24 → i / 6 = h →
    (s.stackFitted i = true ↔ 6 * h ≤ i ∧ i + 1 ≤ 6 * h + s.mfg.nstacks)) ∧
  (∀ s : State, s.mfg.nstacks = 4 → ∀ i, i < 24 → (s.stackFitted i = false ↔ i = 4 ∨ i = 5 ∨ i = 10 ∨ i = 11 ∨ i = 16 ∨ i = 17 ∨ i = 22 ∨ i = 23)) ∧
  (∀ s : State, s.mfg.nstacks = 5 → ∀ i, i < 24 → (s.stackFitted i = false ↔ i = 5 ∨ i = 11 ∨ i = 17 ∨ i = 23))
end

