-- ==== Sys2Proof/Laws/KMap.lean ====
section
/-! SUPPORT. Laws/KMap.lean: reading a sparse table after each of its updates, and the canonical form. -/

namespace Sys2Proof.KMap

variable {β : Type}

@[simp] theorem find_nil (d : Nat → β) (k : Nat) : find d [] k = d k := rfl

/-- Reading after a key is dropped. -/
theorem find_drop (d : Nat → β) (m : KMap β) (k j : Nat) : find d (drop m k) j = if j = k then d j else find d m j := by
  induction m with
  | nil => simp [drop]
  | cons e m ih =>
    obtain ⟨i, v⟩ := e
    by_cases h : k = i
    · subst h
      by_cases hj : j = k <;> simp_all [drop, find]
    · by_cases hj : j = i
      · subst hj; simp [drop, find, h, Ne.symm h]
      · simp [drop, find, h, hj, ih]

/-- Reading after a pair is placed: its key reads its value, where the table did not hold it before. -/
theorem find_place (d : Nat → β) (m : KMap β) (k j : Nat) (v : β) (hk : ∀ e ∈ m, e.1 ≠ k) :
    find d (place k v m) j = if j = k then v else find d m j := by
  induction m with
  | nil => by_cases h : j = k <;> simp [place, find, h]
  | cons e m ih =>
    obtain ⟨i, w⟩ := e
    have hi : i ≠ k := hk (i, w) (by simp)
    have ht := ih (fun e he => hk e (by simp [he]))
    by_cases hlt : k < i
    · by_cases h : j = k <;> simp [place, find, hlt, h]
    · by_cases h : j = i
      · subst h; simp [place, find, hlt, hi]
      · simp [place, find, hlt, h, ht]

theorem mem_drop (m : KMap β) (k : Nat) (e : Nat × β) : e ∈ drop m k ↔ e ∈ m ∧ e.1 ≠ k := by
  induction m with
  | nil => simp [drop]
  | cons x m ih =>
    obtain ⟨i, v⟩ := x
    by_cases h : k = i
    · subst h; rw [show drop ((k, v) :: m) k = drop m k by simp [drop], ih]
      constructor
      · rintro ⟨h1, h2⟩; exact ⟨by simp [h1], h2⟩
      · rintro ⟨h1, h2⟩; rcases List.mem_cons.1 h1 with rfl | h1
        · exact absurd rfl h2
        · exact ⟨h1, h2⟩
    · rw [show drop ((i, v) :: m) k = (i, v) :: drop m k by simp [drop, h]]
      simp only [List.mem_cons, ih]
      constructor
      · rintro (rfl | ⟨h1, h2⟩)
        · exact ⟨Or.inl rfl, fun e => h e.symm⟩
        · exact ⟨Or.inr h1, h2⟩
      · rintro ⟨rfl | h1, h2⟩
        · exact Or.inl rfl
        · exact Or.inr ⟨h1, h2⟩

/-- Reading after a write. -/
@[simp] theorem find_put [DecidableEq β] (d : Nat → β) (m : KMap β) (k j : Nat) (v : β) :
    find d (put d m k v) j = if j = k then v else find d m j := by
  unfold put
  split
  · rename_i h; rw [find_drop]; split
    · rename_i hj; subst hj; exact h.symm
    · rfl
  · rw [find_place, find_drop]
    · by_cases h : j = k <;> simp [h]
    · intro e he; exact ((mem_drop m k e).1 he).2

/-- Reading a table whose entries were filtered by key. -/
theorem find_filter_key (d : Nat → β) (m : KMap β) (p : Nat → Bool) (j : Nat) :
    find d (m.filter (fun e => p e.1)) j = if p j then find d m j else d j := by
  induction m with
  | nil => simp
  | cons e m ih =>
    obtain ⟨i, v⟩ := e
    by_cases hp : p i = true
    · by_cases hj : j = i
      · subst hj; simp [List.filter, hp, find]
      · simp [List.filter, hp, find, hj, ih]
    · by_cases hj : j = i
      · subst hj; simp [List.filter, hp, ih]
      · simp [List.filter, hp, find, hj, ih]

/-- Reading after a range of keys is dropped. -/
@[simp] theorem find_dropRange (d : Nat → β) (m : KMap β) (lo hi j : Nat) :
    find d (dropRange m lo hi) j = if lo ≤ j ∧ j < hi then d j else find d m j := by
  have := find_filter_key d m (fun k => decide (k < lo ∨ hi ≤ k)) j
  simp only [dropRange]
  rw [this]
  by_cases h : lo ≤ j ∧ j < hi
  · rw [if_pos h, if_neg]; simp; omega
  · rw [if_neg h, if_pos]; simp; omega

/-! ## The canonical form -/

@[simp] theorem wf_nil [DecidableEq β] (d : Nat → β) : wf d ([] : KMap β) = true := rfl

theorem wf_cons [DecidableEq β] (d : Nat → β) (k : Nat) (v : β) (m : KMap β) :
    wf d ((k, v) :: m) = true ↔ v ≠ d k ∧ (∀ e ∈ m, k < e.1) ∧ wf d m = true := by
  simp [wf, and_assoc]

/-- Filtering keeps the canonical form. -/
theorem wf_filter [DecidableEq β] (d : Nat → β) (m : KMap β) (p : Nat × β → Bool) (h : wf d m = true) : wf d (m.filter p) = true := by
  induction m with
  | nil => rfl
  | cons e m ih =>
    obtain ⟨k, v⟩ := e
    obtain ⟨h1, h2, h3⟩ := (wf_cons d k v m).1 h
    by_cases hp : p (k, v) = true
    · rw [List.filter_cons_of_pos hp, wf_cons]
      exact ⟨h1, fun e he => h2 e (List.mem_filter.1 he).1, ih h3⟩
    · rw [List.filter_cons_of_neg hp]; exact ih h3

/-- Dropping a key keeps the canonical form. -/
theorem wf_drop [DecidableEq β] (d : Nat → β) (m : KMap β) (k : Nat) (h : wf d m = true) : wf d (drop m k) = true := by
  induction m with
  | nil => rfl
  | cons e m ih =>
    obtain ⟨i, v⟩ := e
    obtain ⟨h1, h2, h3⟩ := (wf_cons d i v m).1 h
    by_cases hk : k = i
    · rw [show drop ((i, v) :: m) k = drop m k by simp [drop, hk]]; exact ih h3
    · rw [show drop ((i, v) :: m) k = (i, v) :: drop m k by simp [drop, hk], wf_cons]
      exact ⟨h1, fun e he => h2 e ((mem_drop m k e).1 he).1, ih h3⟩

theorem mem_place (m : KMap β) (k : Nat) (v : β) (e : Nat × β) : e ∈ place k v m ↔ e = (k, v) ∨ e ∈ m := by
  induction m with
  | nil => simp [place]
  | cons x m ih =>
    obtain ⟨i, w⟩ := x
    by_cases h : k < i
    · simp [place, h]
    · simp only [place, h, if_false, List.mem_cons, ih]; tauto

/-- Placing a pair keeps the canonical form where its key is not listed. -/
theorem wf_place [DecidableEq β] (d : Nat → β) (m : KMap β) (k : Nat) (v : β) (h : wf d m = true) (hv : v ≠ d k) (hk : ∀ e ∈ m, e.1 ≠ k) :
    wf d (place k v m) = true := by
  induction m with
  | nil => simp [place, wf_cons, hv]
  | cons e m ih =>
    obtain ⟨i, w⟩ := e
    obtain ⟨h1, h2, h3⟩ := (wf_cons d i w m).1 h
    have hi : i ≠ k := hk (i, w) (by simp)
    by_cases hlt : k < i
    · simp only [place, hlt, if_true]
      rw [wf_cons]
      refine ⟨hv, fun e he => ?_, h⟩
      rcases List.mem_cons.1 he with rfl | he
      · exact hlt
      · exact lt_trans hlt (h2 e he)
    · simp only [place, hlt, if_false]
      rw [wf_cons]
      refine ⟨h1, fun e he => ?_, ih h3 (fun e he => hk e (by simp [he]))⟩
      rcases (mem_place m k v e).1 he with rfl | he
      · show i < k; omega
      · exact h2 e he

/-- A write keeps the canonical form. -/
theorem wf_put [DecidableEq β] (d : Nat → β) (m : KMap β) (k : Nat) (v : β) (h : wf d m = true) : wf d (put d m k v) = true := by
  unfold put
  split
  · exact wf_drop d m k h
  · rename_i hv
    exact wf_place d _ k v (wf_drop d m k h) hv (fun e he => ((mem_drop m k e).1 he).2)

/-- Dropping a range keeps the canonical form. -/
theorem wf_dropRange [DecidableEq β] (d : Nat → β) (m : KMap β) (lo hi : Nat) (h : wf d m = true) : wf d (dropRange m lo hi) = true :=
  wf_filter d m _ h

end Sys2Proof.KMap
end

