-- ==== Sys2Proof/Laws/State.lean ====
section
/-! SUPPORT. Laws/State.lean: what each plain update of State leaves unchanged, one lemma per field and update, and what reading a register,
a byte, a sequencer or a unit gives after it. -/

namespace Sys2Proof.Machine

open Sys2Proof

/-! ## put -/

@[simp] theorem State.put_pending (s : State) (f : Fld) (v : Nat) : (s.put f v).pending = s.pending := rfl
@[simp] theorem State.put_out (s : State) (f : Fld) (v : Nat) : (s.put f v).out = s.out := rfl
@[simp] theorem State.put_now (s : State) (f : Fld) (v : Nat) : (s.put f v).now = s.now := rfl
@[simp] theorem State.put_tick0 (s : State) (f : Fld) (v : Nat) : (s.put f v).tick0 = s.tick0 := rfl
@[simp] theorem State.put_free (s : State) (f : Fld) (v : Nat) : (s.put f v).free = s.free := rfl
@[simp] theorem State.put_shadow (s : State) (f : Fld) (v : Nat) : (s.put f v).shadow = s.shadow := rfl
@[simp] theorem State.put_mem (s : State) (f : Fld) (v : Nat) : (s.put f v).mem = s.mem := rfl
@[simp] theorem State.put_bad (s : State) (f : Fld) (v : Nat) : (s.put f v).bad = s.bad := rfl
@[simp] theorem State.put_soft (s : State) (f : Fld) (v : Nat) : (s.put f v).soft = s.soft := rfl
@[simp] theorem State.put_plist (s : State) (f : Fld) (v : Nat) : (s.put f v).plist = s.plist := rfl
@[simp] theorem State.put_linkErr (s : State) (f : Fld) (v : Nat) : (s.put f v).linkErr = s.linkErr := rfl
@[simp] theorem State.put_tiles (s : State) (f : Fld) (v : Nat) : (s.put f v).tiles = s.tiles := rfl
@[simp] theorem State.put_tileBad (s : State) (f : Fld) (v : Nat) : (s.put f v).tileBad = s.tileBad := rfl
@[simp] theorem State.put_tileSoft (s : State) (f : Fld) (v : Nat) : (s.put f v).tileSoft = s.tileSoft := rfl
@[simp] theorem State.put_pkts (s : State) (f : Fld) (v : Nat) : (s.put f v).pkts = s.pkts := rfl
@[simp] theorem State.put_pktNext (s : State) (f : Fld) (v : Nat) : (s.put f v).pktNext = s.pktNext := rfl
@[simp] theorem State.put_seqs (s : State) (f : Fld) (v : Nat) : (s.put f v).seqs = s.seqs := rfl
@[simp] theorem State.put_arrs (s : State) (f : Fld) (v : Nat) : (s.put f v).arrs = s.arrs := rfl
@[simp] theorem State.put_raft (s : State) (f : Fld) (v : Nat) : (s.put f v).raft = s.raft := rfl
@[simp] theorem State.put_saps (s : State) (f : Fld) (v : Nat) : (s.put f v).saps = s.saps := rfl
@[simp] theorem State.put_glzs (s : State) (f : Fld) (v : Nat) : (s.put f v).glzs = s.glzs := rfl
@[simp] theorem State.put_flumes (s : State) (f : Fld) (v : Nat) : (s.put f v).flumes = s.flumes := rfl
@[simp] theorem State.put_log (s : State) (f : Fld) (v : Nat) : (s.put f v).log = s.log := rfl
@[simp] theorem State.put_mfg (s : State) (f : Fld) (v : Nat) : (s.put f v).mfg = s.mfg := rfl
@[simp] theorem State.put_mfg1 (s : State) (f : Fld) (v : Nat) : (s.put f v).mfg1 = s.mfg1 := rfl
@[simp] theorem State.put_oldWin (s : State) (f : Fld) (v : Nat) : (s.put f v).oldWin = s.oldWin := rfl
@[simp] theorem State.put_halfRst (s : State) (f : Fld) (v : Nat) : (s.put f v).halfRst = s.halfRst := rfl
@[simp] theorem State.put_recov (s : State) (f : Fld) (v : Nat) : (s.put f v).recov = s.recov := rfl
@[simp] theorem State.put_dieRst (s : State) (f : Fld) (v : Nat) : (s.put f v).dieRst = s.dieRst := rfl
@[simp] theorem State.put_phaseIn (s : State) (f : Fld) (v : Nat) : (s.put f v).phaseIn = s.phaseIn := rfl
@[simp] theorem State.put_phaseOut (s : State) (f : Fld) (v : Nat) : (s.put f v).phaseOut = s.phaseOut := rfl
@[simp] theorem State.put_cutForce (s : State) (f : Fld) (v : Nat) : (s.put f v).cutForce = s.cutForce := rfl
@[simp] theorem State.put_cutPend (s : State) (f : Fld) (v : Nat) : (s.put f v).cutPend = s.cutPend := rfl
@[simp] theorem State.put_jobs (s : State) (f : Fld) (v : Nat) : (s.put f v).jobs = s.jobs := rfl
@[simp] theorem State.put_owed (s : State) (f : Fld) (v : Nat) : (s.put f v).owed = s.owed := rfl
@[simp] theorem State.put_redTx (s : State) (f : Fld) (v : Nat) : (s.put f v).redTx = s.redTx := rfl
@[simp] theorem State.put_redRx (s : State) (f : Fld) (v : Nat) : (s.put f v).redRx = s.redRx := rfl
@[simp] theorem State.put_sctlPend (s : State) (f : Fld) (v : Nat) : (s.put f v).sctlPend = s.sctlPend := rfl
@[simp] theorem State.put_scaleDue (s : State) (f : Fld) (v : Nat) : (s.put f v).scaleDue = s.scaleDue := rfl
@[simp] theorem State.put_pinEnd (s : State) (f : Fld) (v : Nat) : (s.put f v).pinEnd = s.pinEnd := rfl
@[simp] theorem State.put_refill (s : State) (f : Fld) (v : Nat) : (s.put f v).refill = s.refill := rfl
@[simp] theorem State.put_limitAt (s : State) (f : Fld) (v : Nat) : (s.put f v).limitAt = s.limitAt := rfl
@[simp] theorem State.put_unitAdm (s : State) (f : Fld) (v : Nat) : (s.put f v).unitAdm = s.unitAdm := rfl
@[simp] theorem State.put_hauls (s : State) (f : Fld) (v : Nat) : (s.put f v).hauls = s.hauls := rfl
@[simp] theorem State.put_haulTurn (s : State) (f : Fld) (v : Nat) : (s.put f v).haulTurn = s.haulTurn := rfl
@[simp] theorem State.put_ckpts (s : State) (f : Fld) (v : Nat) : (s.put f v).ckpts = s.ckpts := rfl
@[simp] theorem State.put_hrecs (s : State) (f : Fld) (v : Nat) : (s.put f v).hrecs = s.hrecs := rfl
@[simp] theorem State.put_quarLen (s : State) (f : Fld) (v : Nat) : (s.put f v).quarLen = s.quarLen := rfl
@[simp] theorem State.put_srcConn (s : State) (f : Fld) (v : Nat) : (s.put f v).srcConn = s.srcConn := rfl
@[simp] theorem State.put_idKeys (s : State) (f : Fld) (v : Nat) : (s.put f v).idKeys = s.idKeys := rfl
@[simp] theorem State.put_farKey (s : State) (f : Fld) (v : Nat) : (s.put f v).farKey = s.farKey := rfl
@[simp] theorem State.put_links (s : State) (f : Fld) (v : Nat) : (s.put f v).links = s.links := rfl
@[simp] theorem State.put_ethRate (s : State) (f : Fld) (v : Nat) : (s.put f v).ethRate = s.ethRate := rfl
@[simp] theorem State.put_ethPause (s : State) (f : Fld) (v : Nat) : (s.put f v).ethPause = s.ethPause := rfl
@[simp] theorem State.put_ethHeld (s : State) (f : Fld) (v : Nat) : (s.put f v).ethHeld = s.ethHeld := rfl
@[simp] theorem State.put_spn (s : State) (f : Fld) (v : Nat) : (s.put f v).spn = s.spn := rfl
@[simp] theorem State.put_spnBurst (s : State) (f : Fld) (v : Nat) : (s.put f v).spnBurst = s.spnBurst := rfl
@[simp] theorem State.put_spnTx (s : State) (f : Fld) (v : Nat) : (s.put f v).spnTx = s.spnTx := rfl
@[simp] theorem State.put_parts (s : State) (f : Fld) (v : Nat) : (s.put f v).parts = s.parts := rfl
@[simp] theorem State.put_sample (s : State) (f : Fld) (v : Nat) : (s.put f v).sample = s.sample := rfl
@[simp] theorem State.put_hbmHot (s : State) (f : Fld) (v : Nat) : (s.put f v).hbmHot = s.hbmHot := rfl
@[simp] theorem State.put_srings (s : State) (f : Fld) (v : Nat) : (s.put f v).srings = s.srings := rfl
@[simp] theorem State.put_crings (s : State) (f : Fld) (v : Nat) : (s.put f v).crings = s.crings := rfl
@[simp] theorem State.put_fetched (s : State) (f : Fld) (v : Nat) : (s.put f v).fetched = s.fetched := rfl
@[simp] theorem State.put_fns (s : State) (f : Fld) (v : Nat) : (s.put f v).fns = s.fns := rfl
@[simp] theorem State.put_vfOn (s : State) (f : Fld) (v : Nat) : (s.put f v).vfOn = s.vfOn := rfl
@[simp] theorem State.put_vfs (s : State) (f : Fld) (v : Nat) : (s.put f v).vfs = s.vfs := rfl
@[simp] theorem State.put_b4size (s : State) (f : Fld) (v : Nat) : (s.put f v).b4size = s.b4size := rfl
@[simp] theorem State.put_msixTab (s : State) (f : Fld) (v : Nat) : (s.put f v).msixTab = s.msixTab := rfl
@[simp] theorem State.put_unmask (s : State) (f : Fld) (v : Nat) : (s.put f v).unmask = s.unmask := rfl
@[simp] theorem State.put_pba (s : State) (f : Fld) (v : Nat) : (s.put f v).pba = s.pba := rfl
@[simp] theorem State.put_linkUp (s : State) (f : Fld) (v : Nat) : (s.put f v).linkUp = s.linkUp := rfl
@[simp] theorem State.put_boot (s : State) (f : Fld) (v : Nat) : (s.put f v).boot = s.boot := rfl
@[simp] theorem State.put_hostOrd (s : State) (f : Fld) (v : Nat) : (s.put f v).hostOrd = s.hostOrd := rfl
@[simp] theorem State.put_mgmtOrd (s : State) (f : Fld) (v : Nat) : (s.put f v).mgmtOrd = s.mgmtOrd := rfl
@[simp] theorem State.put_mgmtRes (s : State) (f : Fld) (v : Nat) : (s.put f v).mgmtRes = s.mgmtRes := rfl
@[simp] theorem State.put_won (s : State) (f : Fld) (v : Nat) : (s.put f v).won = s.won := rfl
@[simp] theorem State.put_ownHid (s : State) (f : Fld) (v : Nat) : (s.put f v).ownHid = s.ownHid := rfl
@[simp] theorem State.put_refclk (s : State) (f : Fld) (v : Nat) : (s.put f v).refclk = s.refclk := rfl
@[simp] theorem State.put_offBy (s : State) (f : Fld) (v : Nat) : (s.put f v).offBy = s.offBy := rfl
@[simp] theorem State.put_bootEvt (s : State) (f : Fld) (v : Nat) : (s.put f v).bootEvt = s.bootEvt := rfl
@[simp] theorem State.put_wasRun (s : State) (f : Fld) (v : Nat) : (s.put f v).wasRun = s.wasRun := rfl
@[simp] theorem State.put_rerun (s : State) (f : Fld) (v : Nat) : (s.put f v).rerun = s.rerun := rfl
@[simp] theorem State.put_halfBack (s : State) (f : Fld) (v : Nat) : (s.put f v).halfBack = s.halfBack := rfl
@[simp] theorem State.put_inHold (s : State) (f : Fld) (v : Nat) : (s.put f v).inHold = s.inHold := rfl
@[simp] theorem State.put_coolHold (s : State) (f : Fld) (v : Nat) : (s.put f v).coolHold = s.coolHold := rfl
@[simp] theorem State.put_leakHold (s : State) (f : Fld) (v : Nat) : (s.put f v).leakHold = s.leakHold := rfl
@[simp] theorem State.put_tripped (s : State) (f : Fld) (v : Nat) : (s.put f v).tripped = s.tripped := rfl
@[simp] theorem State.put_slotId (s : State) (f : Fld) (v : Nat) : (s.put f v).slotId = s.slotId := rfl
@[simp] theorem State.put_tid (s : State) (f : Fld) (v : Nat) : (s.put f v).tid = s.tid := rfl
@[simp] theorem State.put_eid (s : State) (f : Fld) (v : Nat) : (s.put f v).eid = s.eid := rfl
@[simp] theorem State.put_i3c (s : State) (f : Fld) (v : Nat) : (s.put f v).i3c = s.i3c := rfl
@[simp] theorem State.put_fw (s : State) (f : Fld) (v : Nat) : (s.put f v).fw = s.fw := rfl
@[simp] theorem State.put_picture (s : State) (f : Fld) (v : Nat) : (s.put f v).picture = s.picture := rfl
@[simp] theorem State.put_spdm (s : State) (f : Fld) (v : Nat) : (s.put f v).spdm = s.spdm := rfl
@[simp] theorem State.put_tokens (s : State) (f : Fld) (v : Nat) : (s.put f v).tokens = s.tokens := rfl
@[simp] theorem State.put_scaler (s : State) (f : Fld) (v : Nat) : (s.put f v).scaler = s.scaler := rfl
@[simp] theorem State.put_wire (s : State) (f : Fld) (v : Nat) : (s.put f v).wire = s.wire := rfl
@[simp] theorem State.put_meter (s : State) (f : Fld) (v : Nat) : (s.put f v).meter = s.meter := rfl
@[simp] theorem State.put_mtrRec (s : State) (f : Fld) (v : Nat) : (s.put f v).mtrRec = s.mtrRec := rfl
@[simp] theorem State.put_mtrLog (s : State) (f : Fld) (v : Nat) : (s.put f v).mtrLog = s.mtrLog := rfl
@[simp] theorem State.put_stmts (s : State) (f : Fld) (v : Nat) : (s.put f v).stmts = s.stmts := rfl

/-! ## sput -/

@[simp] theorem State.sput_pending (s : State) (f : Fld) (v : Nat) : (s.sput f v).pending = s.pending := rfl
@[simp] theorem State.sput_out (s : State) (f : Fld) (v : Nat) : (s.sput f v).out = s.out := rfl
@[simp] theorem State.sput_now (s : State) (f : Fld) (v : Nat) : (s.sput f v).now = s.now := rfl
@[simp] theorem State.sput_tick0 (s : State) (f : Fld) (v : Nat) : (s.sput f v).tick0 = s.tick0 := rfl
@[simp] theorem State.sput_free (s : State) (f : Fld) (v : Nat) : (s.sput f v).free = s.free := rfl
@[simp] theorem State.sput_regs (s : State) (f : Fld) (v : Nat) : (s.sput f v).regs = s.regs := rfl
@[simp] theorem State.sput_mem (s : State) (f : Fld) (v : Nat) : (s.sput f v).mem = s.mem := rfl
@[simp] theorem State.sput_bad (s : State) (f : Fld) (v : Nat) : (s.sput f v).bad = s.bad := rfl
@[simp] theorem State.sput_soft (s : State) (f : Fld) (v : Nat) : (s.sput f v).soft = s.soft := rfl
@[simp] theorem State.sput_plist (s : State) (f : Fld) (v : Nat) : (s.sput f v).plist = s.plist := rfl
@[simp] theorem State.sput_linkErr (s : State) (f : Fld) (v : Nat) : (s.sput f v).linkErr = s.linkErr := rfl
@[simp] theorem State.sput_tiles (s : State) (f : Fld) (v : Nat) : (s.sput f v).tiles = s.tiles := rfl
@[simp] theorem State.sput_tileBad (s : State) (f : Fld) (v : Nat) : (s.sput f v).tileBad = s.tileBad := rfl
@[simp] theorem State.sput_tileSoft (s : State) (f : Fld) (v : Nat) : (s.sput f v).tileSoft = s.tileSoft := rfl
@[simp] theorem State.sput_pkts (s : State) (f : Fld) (v : Nat) : (s.sput f v).pkts = s.pkts := rfl
@[simp] theorem State.sput_pktNext (s : State) (f : Fld) (v : Nat) : (s.sput f v).pktNext = s.pktNext := rfl
@[simp] theorem State.sput_seqs (s : State) (f : Fld) (v : Nat) : (s.sput f v).seqs = s.seqs := rfl
@[simp] theorem State.sput_arrs (s : State) (f : Fld) (v : Nat) : (s.sput f v).arrs = s.arrs := rfl
@[simp] theorem State.sput_raft (s : State) (f : Fld) (v : Nat) : (s.sput f v).raft = s.raft := rfl
@[simp] theorem State.sput_saps (s : State) (f : Fld) (v : Nat) : (s.sput f v).saps = s.saps := rfl
@[simp] theorem State.sput_glzs (s : State) (f : Fld) (v : Nat) : (s.sput f v).glzs = s.glzs := rfl
@[simp] theorem State.sput_flumes (s : State) (f : Fld) (v : Nat) : (s.sput f v).flumes = s.flumes := rfl
@[simp] theorem State.sput_log (s : State) (f : Fld) (v : Nat) : (s.sput f v).log = s.log := rfl
@[simp] theorem State.sput_mfg (s : State) (f : Fld) (v : Nat) : (s.sput f v).mfg = s.mfg := rfl
@[simp] theorem State.sput_mfg1 (s : State) (f : Fld) (v : Nat) : (s.sput f v).mfg1 = s.mfg1 := rfl
@[simp] theorem State.sput_oldWin (s : State) (f : Fld) (v : Nat) : (s.sput f v).oldWin = s.oldWin := rfl
@[simp] theorem State.sput_halfRst (s : State) (f : Fld) (v : Nat) : (s.sput f v).halfRst = s.halfRst := rfl
@[simp] theorem State.sput_recov (s : State) (f : Fld) (v : Nat) : (s.sput f v).recov = s.recov := rfl
@[simp] theorem State.sput_dieRst (s : State) (f : Fld) (v : Nat) : (s.sput f v).dieRst = s.dieRst := rfl
@[simp] theorem State.sput_phaseIn (s : State) (f : Fld) (v : Nat) : (s.sput f v).phaseIn = s.phaseIn := rfl
@[simp] theorem State.sput_phaseOut (s : State) (f : Fld) (v : Nat) : (s.sput f v).phaseOut = s.phaseOut := rfl
@[simp] theorem State.sput_cutForce (s : State) (f : Fld) (v : Nat) : (s.sput f v).cutForce = s.cutForce := rfl
@[simp] theorem State.sput_cutPend (s : State) (f : Fld) (v : Nat) : (s.sput f v).cutPend = s.cutPend := rfl
@[simp] theorem State.sput_jobs (s : State) (f : Fld) (v : Nat) : (s.sput f v).jobs = s.jobs := rfl
@[simp] theorem State.sput_owed (s : State) (f : Fld) (v : Nat) : (s.sput f v).owed = s.owed := rfl
@[simp] theorem State.sput_redTx (s : State) (f : Fld) (v : Nat) : (s.sput f v).redTx = s.redTx := rfl
@[simp] theorem State.sput_redRx (s : State) (f : Fld) (v : Nat) : (s.sput f v).redRx = s.redRx := rfl
@[simp] theorem State.sput_sctlPend (s : State) (f : Fld) (v : Nat) : (s.sput f v).sctlPend = s.sctlPend := rfl
@[simp] theorem State.sput_scaleDue (s : State) (f : Fld) (v : Nat) : (s.sput f v).scaleDue = s.scaleDue := rfl
@[simp] theorem State.sput_pinEnd (s : State) (f : Fld) (v : Nat) : (s.sput f v).pinEnd = s.pinEnd := rfl
@[simp] theorem State.sput_refill (s : State) (f : Fld) (v : Nat) : (s.sput f v).refill = s.refill := rfl
@[simp] theorem State.sput_limitAt (s : State) (f : Fld) (v : Nat) : (s.sput f v).limitAt = s.limitAt := rfl
@[simp] theorem State.sput_unitAdm (s : State) (f : Fld) (v : Nat) : (s.sput f v).unitAdm = s.unitAdm := rfl
@[simp] theorem State.sput_hauls (s : State) (f : Fld) (v : Nat) : (s.sput f v).hauls = s.hauls := rfl
@[simp] theorem State.sput_haulTurn (s : State) (f : Fld) (v : Nat) : (s.sput f v).haulTurn = s.haulTurn := rfl
@[simp] theorem State.sput_ckpts (s : State) (f : Fld) (v : Nat) : (s.sput f v).ckpts = s.ckpts := rfl
@[simp] theorem State.sput_hrecs (s : State) (f : Fld) (v : Nat) : (s.sput f v).hrecs = s.hrecs := rfl
@[simp] theorem State.sput_quarLen (s : State) (f : Fld) (v : Nat) : (s.sput f v).quarLen = s.quarLen := rfl
@[simp] theorem State.sput_srcConn (s : State) (f : Fld) (v : Nat) : (s.sput f v).srcConn = s.srcConn := rfl
@[simp] theorem State.sput_idKeys (s : State) (f : Fld) (v : Nat) : (s.sput f v).idKeys = s.idKeys := rfl
@[simp] theorem State.sput_farKey (s : State) (f : Fld) (v : Nat) : (s.sput f v).farKey = s.farKey := rfl
@[simp] theorem State.sput_links (s : State) (f : Fld) (v : Nat) : (s.sput f v).links = s.links := rfl
@[simp] theorem State.sput_ethRate (s : State) (f : Fld) (v : Nat) : (s.sput f v).ethRate = s.ethRate := rfl
@[simp] theorem State.sput_ethPause (s : State) (f : Fld) (v : Nat) : (s.sput f v).ethPause = s.ethPause := rfl
@[simp] theorem State.sput_ethHeld (s : State) (f : Fld) (v : Nat) : (s.sput f v).ethHeld = s.ethHeld := rfl
@[simp] theorem State.sput_spn (s : State) (f : Fld) (v : Nat) : (s.sput f v).spn = s.spn := rfl
@[simp] theorem State.sput_spnBurst (s : State) (f : Fld) (v : Nat) : (s.sput f v).spnBurst = s.spnBurst := rfl
@[simp] theorem State.sput_spnTx (s : State) (f : Fld) (v : Nat) : (s.sput f v).spnTx = s.spnTx := rfl
@[simp] theorem State.sput_parts (s : State) (f : Fld) (v : Nat) : (s.sput f v).parts = s.parts := rfl
@[simp] theorem State.sput_sample (s : State) (f : Fld) (v : Nat) : (s.sput f v).sample = s.sample := rfl
@[simp] theorem State.sput_hbmHot (s : State) (f : Fld) (v : Nat) : (s.sput f v).hbmHot = s.hbmHot := rfl
@[simp] theorem State.sput_srings (s : State) (f : Fld) (v : Nat) : (s.sput f v).srings = s.srings := rfl
@[simp] theorem State.sput_crings (s : State) (f : Fld) (v : Nat) : (s.sput f v).crings = s.crings := rfl
@[simp] theorem State.sput_fetched (s : State) (f : Fld) (v : Nat) : (s.sput f v).fetched = s.fetched := rfl
@[simp] theorem State.sput_fns (s : State) (f : Fld) (v : Nat) : (s.sput f v).fns = s.fns := rfl
@[simp] theorem State.sput_vfOn (s : State) (f : Fld) (v : Nat) : (s.sput f v).vfOn = s.vfOn := rfl
@[simp] theorem State.sput_vfs (s : State) (f : Fld) (v : Nat) : (s.sput f v).vfs = s.vfs := rfl
@[simp] theorem State.sput_b4size (s : State) (f : Fld) (v : Nat) : (s.sput f v).b4size = s.b4size := rfl
@[simp] theorem State.sput_msixTab (s : State) (f : Fld) (v : Nat) : (s.sput f v).msixTab = s.msixTab := rfl
@[simp] theorem State.sput_unmask (s : State) (f : Fld) (v : Nat) : (s.sput f v).unmask = s.unmask := rfl
@[simp] theorem State.sput_pba (s : State) (f : Fld) (v : Nat) : (s.sput f v).pba = s.pba := rfl
@[simp] theorem State.sput_linkUp (s : State) (f : Fld) (v : Nat) : (s.sput f v).linkUp = s.linkUp := rfl
@[simp] theorem State.sput_boot (s : State) (f : Fld) (v : Nat) : (s.sput f v).boot = s.boot := rfl
@[simp] theorem State.sput_hostOrd (s : State) (f : Fld) (v : Nat) : (s.sput f v).hostOrd = s.hostOrd := rfl
@[simp] theorem State.sput_mgmtOrd (s : State) (f : Fld) (v : Nat) : (s.sput f v).mgmtOrd = s.mgmtOrd := rfl
@[simp] theorem State.sput_mgmtRes (s : State) (f : Fld) (v : Nat) : (s.sput f v).mgmtRes = s.mgmtRes := rfl
@[simp] theorem State.sput_won (s : State) (f : Fld) (v : Nat) : (s.sput f v).won = s.won := rfl
@[simp] theorem State.sput_ownHid (s : State) (f : Fld) (v : Nat) : (s.sput f v).ownHid = s.ownHid := rfl
@[simp] theorem State.sput_refclk (s : State) (f : Fld) (v : Nat) : (s.sput f v).refclk = s.refclk := rfl
@[simp] theorem State.sput_offBy (s : State) (f : Fld) (v : Nat) : (s.sput f v).offBy = s.offBy := rfl
@[simp] theorem State.sput_bootEvt (s : State) (f : Fld) (v : Nat) : (s.sput f v).bootEvt = s.bootEvt := rfl
@[simp] theorem State.sput_wasRun (s : State) (f : Fld) (v : Nat) : (s.sput f v).wasRun = s.wasRun := rfl
@[simp] theorem State.sput_rerun (s : State) (f : Fld) (v : Nat) : (s.sput f v).rerun = s.rerun := rfl
@[simp] theorem State.sput_halfBack (s : State) (f : Fld) (v : Nat) : (s.sput f v).halfBack = s.halfBack := rfl
@[simp] theorem State.sput_inHold (s : State) (f : Fld) (v : Nat) : (s.sput f v).inHold = s.inHold := rfl
@[simp] theorem State.sput_coolHold (s : State) (f : Fld) (v : Nat) : (s.sput f v).coolHold = s.coolHold := rfl
@[simp] theorem State.sput_leakHold (s : State) (f : Fld) (v : Nat) : (s.sput f v).leakHold = s.leakHold := rfl
@[simp] theorem State.sput_tripped (s : State) (f : Fld) (v : Nat) : (s.sput f v).tripped = s.tripped := rfl
@[simp] theorem State.sput_slotId (s : State) (f : Fld) (v : Nat) : (s.sput f v).slotId = s.slotId := rfl
@[simp] theorem State.sput_tid (s : State) (f : Fld) (v : Nat) : (s.sput f v).tid = s.tid := rfl
@[simp] theorem State.sput_eid (s : State) (f : Fld) (v : Nat) : (s.sput f v).eid = s.eid := rfl
@[simp] theorem State.sput_i3c (s : State) (f : Fld) (v : Nat) : (s.sput f v).i3c = s.i3c := rfl
@[simp] theorem State.sput_fw (s : State) (f : Fld) (v : Nat) : (s.sput f v).fw = s.fw := rfl
@[simp] theorem State.sput_picture (s : State) (f : Fld) (v : Nat) : (s.sput f v).picture = s.picture := rfl
@[simp] theorem State.sput_spdm (s : State) (f : Fld) (v : Nat) : (s.sput f v).spdm = s.spdm := rfl
@[simp] theorem State.sput_tokens (s : State) (f : Fld) (v : Nat) : (s.sput f v).tokens = s.tokens := rfl
@[simp] theorem State.sput_scaler (s : State) (f : Fld) (v : Nat) : (s.sput f v).scaler = s.scaler := rfl
@[simp] theorem State.sput_wire (s : State) (f : Fld) (v : Nat) : (s.sput f v).wire = s.wire := rfl
@[simp] theorem State.sput_meter (s : State) (f : Fld) (v : Nat) : (s.sput f v).meter = s.meter := rfl
@[simp] theorem State.sput_mtrRec (s : State) (f : Fld) (v : Nat) : (s.sput f v).mtrRec = s.mtrRec := rfl
@[simp] theorem State.sput_mtrLog (s : State) (f : Fld) (v : Nat) : (s.sput f v).mtrLog = s.mtrLog := rfl
@[simp] theorem State.sput_stmts (s : State) (f : Fld) (v : Nat) : (s.sput f v).stmts = s.stmts := rfl

/-! ## emit -/

@[simp] theorem State.emit_pending (s : State) (o : Out) : (s.emit o).pending = s.pending := rfl
@[simp] theorem State.emit_now (s : State) (o : Out) : (s.emit o).now = s.now := rfl
@[simp] theorem State.emit_tick0 (s : State) (o : Out) : (s.emit o).tick0 = s.tick0 := rfl
@[simp] theorem State.emit_free (s : State) (o : Out) : (s.emit o).free = s.free := rfl
@[simp] theorem State.emit_regs (s : State) (o : Out) : (s.emit o).regs = s.regs := rfl
@[simp] theorem State.emit_shadow (s : State) (o : Out) : (s.emit o).shadow = s.shadow := rfl
@[simp] theorem State.emit_mem (s : State) (o : Out) : (s.emit o).mem = s.mem := rfl
@[simp] theorem State.emit_bad (s : State) (o : Out) : (s.emit o).bad = s.bad := rfl
@[simp] theorem State.emit_soft (s : State) (o : Out) : (s.emit o).soft = s.soft := rfl
@[simp] theorem State.emit_plist (s : State) (o : Out) : (s.emit o).plist = s.plist := rfl
@[simp] theorem State.emit_linkErr (s : State) (o : Out) : (s.emit o).linkErr = s.linkErr := rfl
@[simp] theorem State.emit_tiles (s : State) (o : Out) : (s.emit o).tiles = s.tiles := rfl
@[simp] theorem State.emit_tileBad (s : State) (o : Out) : (s.emit o).tileBad = s.tileBad := rfl
@[simp] theorem State.emit_tileSoft (s : State) (o : Out) : (s.emit o).tileSoft = s.tileSoft := rfl
@[simp] theorem State.emit_pkts (s : State) (o : Out) : (s.emit o).pkts = s.pkts := rfl
@[simp] theorem State.emit_pktNext (s : State) (o : Out) : (s.emit o).pktNext = s.pktNext := rfl
@[simp] theorem State.emit_seqs (s : State) (o : Out) : (s.emit o).seqs = s.seqs := rfl
@[simp] theorem State.emit_arrs (s : State) (o : Out) : (s.emit o).arrs = s.arrs := rfl
@[simp] theorem State.emit_raft (s : State) (o : Out) : (s.emit o).raft = s.raft := rfl
@[simp] theorem State.emit_saps (s : State) (o : Out) : (s.emit o).saps = s.saps := rfl
@[simp] theorem State.emit_glzs (s : State) (o : Out) : (s.emit o).glzs = s.glzs := rfl
@[simp] theorem State.emit_flumes (s : State) (o : Out) : (s.emit o).flumes = s.flumes := rfl
@[simp] theorem State.emit_log (s : State) (o : Out) : (s.emit o).log = s.log := rfl
@[simp] theorem State.emit_mfg (s : State) (o : Out) : (s.emit o).mfg = s.mfg := rfl
@[simp] theorem State.emit_mfg1 (s : State) (o : Out) : (s.emit o).mfg1 = s.mfg1 := rfl
@[simp] theorem State.emit_oldWin (s : State) (o : Out) : (s.emit o).oldWin = s.oldWin := rfl
@[simp] theorem State.emit_halfRst (s : State) (o : Out) : (s.emit o).halfRst = s.halfRst := rfl
@[simp] theorem State.emit_recov (s : State) (o : Out) : (s.emit o).recov = s.recov := rfl
@[simp] theorem State.emit_dieRst (s : State) (o : Out) : (s.emit o).dieRst = s.dieRst := rfl
@[simp] theorem State.emit_phaseIn (s : State) (o : Out) : (s.emit o).phaseIn = s.phaseIn := rfl
@[simp] theorem State.emit_phaseOut (s : State) (o : Out) : (s.emit o).phaseOut = s.phaseOut := rfl
@[simp] theorem State.emit_cutForce (s : State) (o : Out) : (s.emit o).cutForce = s.cutForce := rfl
@[simp] theorem State.emit_cutPend (s : State) (o : Out) : (s.emit o).cutPend = s.cutPend := rfl
@[simp] theorem State.emit_jobs (s : State) (o : Out) : (s.emit o).jobs = s.jobs := rfl
@[simp] theorem State.emit_owed (s : State) (o : Out) : (s.emit o).owed = s.owed := rfl
@[simp] theorem State.emit_redTx (s : State) (o : Out) : (s.emit o).redTx = s.redTx := rfl
@[simp] theorem State.emit_redRx (s : State) (o : Out) : (s.emit o).redRx = s.redRx := rfl
@[simp] theorem State.emit_sctlPend (s : State) (o : Out) : (s.emit o).sctlPend = s.sctlPend := rfl
@[simp] theorem State.emit_scaleDue (s : State) (o : Out) : (s.emit o).scaleDue = s.scaleDue := rfl
@[simp] theorem State.emit_pinEnd (s : State) (o : Out) : (s.emit o).pinEnd = s.pinEnd := rfl
@[simp] theorem State.emit_refill (s : State) (o : Out) : (s.emit o).refill = s.refill := rfl
@[simp] theorem State.emit_limitAt (s : State) (o : Out) : (s.emit o).limitAt = s.limitAt := rfl
@[simp] theorem State.emit_unitAdm (s : State) (o : Out) : (s.emit o).unitAdm = s.unitAdm := rfl
@[simp] theorem State.emit_hauls (s : State) (o : Out) : (s.emit o).hauls = s.hauls := rfl
@[simp] theorem State.emit_haulTurn (s : State) (o : Out) : (s.emit o).haulTurn = s.haulTurn := rfl
@[simp] theorem State.emit_ckpts (s : State) (o : Out) : (s.emit o).ckpts = s.ckpts := rfl
@[simp] theorem State.emit_hrecs (s : State) (o : Out) : (s.emit o).hrecs = s.hrecs := rfl
@[simp] theorem State.emit_quarLen (s : State) (o : Out) : (s.emit o).quarLen = s.quarLen := rfl
@[simp] theorem State.emit_srcConn (s : State) (o : Out) : (s.emit o).srcConn = s.srcConn := rfl
@[simp] theorem State.emit_idKeys (s : State) (o : Out) : (s.emit o).idKeys = s.idKeys := rfl
@[simp] theorem State.emit_farKey (s : State) (o : Out) : (s.emit o).farKey = s.farKey := rfl
@[simp] theorem State.emit_links (s : State) (o : Out) : (s.emit o).links = s.links := rfl
@[simp] theorem State.emit_ethRate (s : State) (o : Out) : (s.emit o).ethRate = s.ethRate := rfl
@[simp] theorem State.emit_ethPause (s : State) (o : Out) : (s.emit o).ethPause = s.ethPause := rfl
@[simp] theorem State.emit_ethHeld (s : State) (o : Out) : (s.emit o).ethHeld = s.ethHeld := rfl
@[simp] theorem State.emit_spn (s : State) (o : Out) : (s.emit o).spn = s.spn := rfl
@[simp] theorem State.emit_spnBurst (s : State) (o : Out) : (s.emit o).spnBurst = s.spnBurst := rfl
@[simp] theorem State.emit_spnTx (s : State) (o : Out) : (s.emit o).spnTx = s.spnTx := rfl
@[simp] theorem State.emit_parts (s : State) (o : Out) : (s.emit o).parts = s.parts := rfl
@[simp] theorem State.emit_sample (s : State) (o : Out) : (s.emit o).sample = s.sample := rfl
@[simp] theorem State.emit_hbmHot (s : State) (o : Out) : (s.emit o).hbmHot = s.hbmHot := rfl
@[simp] theorem State.emit_srings (s : State) (o : Out) : (s.emit o).srings = s.srings := rfl
@[simp] theorem State.emit_crings (s : State) (o : Out) : (s.emit o).crings = s.crings := rfl
@[simp] theorem State.emit_fetched (s : State) (o : Out) : (s.emit o).fetched = s.fetched := rfl
@[simp] theorem State.emit_fns (s : State) (o : Out) : (s.emit o).fns = s.fns := rfl
@[simp] theorem State.emit_vfOn (s : State) (o : Out) : (s.emit o).vfOn = s.vfOn := rfl
@[simp] theorem State.emit_vfs (s : State) (o : Out) : (s.emit o).vfs = s.vfs := rfl
@[simp] theorem State.emit_b4size (s : State) (o : Out) : (s.emit o).b4size = s.b4size := rfl
@[simp] theorem State.emit_msixTab (s : State) (o : Out) : (s.emit o).msixTab = s.msixTab := rfl
@[simp] theorem State.emit_unmask (s : State) (o : Out) : (s.emit o).unmask = s.unmask := rfl
@[simp] theorem State.emit_pba (s : State) (o : Out) : (s.emit o).pba = s.pba := rfl
@[simp] theorem State.emit_linkUp (s : State) (o : Out) : (s.emit o).linkUp = s.linkUp := rfl
@[simp] theorem State.emit_boot (s : State) (o : Out) : (s.emit o).boot = s.boot := rfl
@[simp] theorem State.emit_hostOrd (s : State) (o : Out) : (s.emit o).hostOrd = s.hostOrd := rfl
@[simp] theorem State.emit_mgmtOrd (s : State) (o : Out) : (s.emit o).mgmtOrd = s.mgmtOrd := rfl
@[simp] theorem State.emit_mgmtRes (s : State) (o : Out) : (s.emit o).mgmtRes = s.mgmtRes := rfl
@[simp] theorem State.emit_won (s : State) (o : Out) : (s.emit o).won = s.won := rfl
@[simp] theorem State.emit_ownHid (s : State) (o : Out) : (s.emit o).ownHid = s.ownHid := rfl
@[simp] theorem State.emit_refclk (s : State) (o : Out) : (s.emit o).refclk = s.refclk := rfl
@[simp] theorem State.emit_offBy (s : State) (o : Out) : (s.emit o).offBy = s.offBy := rfl
@[simp] theorem State.emit_bootEvt (s : State) (o : Out) : (s.emit o).bootEvt = s.bootEvt := rfl
@[simp] theorem State.emit_wasRun (s : State) (o : Out) : (s.emit o).wasRun = s.wasRun := rfl
@[simp] theorem State.emit_rerun (s : State) (o : Out) : (s.emit o).rerun = s.rerun := rfl
@[simp] theorem State.emit_halfBack (s : State) (o : Out) : (s.emit o).halfBack = s.halfBack := rfl
@[simp] theorem State.emit_inHold (s : State) (o : Out) : (s.emit o).inHold = s.inHold := rfl
@[simp] theorem State.emit_coolHold (s : State) (o : Out) : (s.emit o).coolHold = s.coolHold := rfl
@[simp] theorem State.emit_leakHold (s : State) (o : Out) : (s.emit o).leakHold = s.leakHold := rfl
@[simp] theorem State.emit_tripped (s : State) (o : Out) : (s.emit o).tripped = s.tripped := rfl
@[simp] theorem State.emit_slotId (s : State) (o : Out) : (s.emit o).slotId = s.slotId := rfl
@[simp] theorem State.emit_tid (s : State) (o : Out) : (s.emit o).tid = s.tid := rfl
@[simp] theorem State.emit_eid (s : State) (o : Out) : (s.emit o).eid = s.eid := rfl
@[simp] theorem State.emit_i3c (s : State) (o : Out) : (s.emit o).i3c = s.i3c := rfl
@[simp] theorem State.emit_fw (s : State) (o : Out) : (s.emit o).fw = s.fw := rfl
@[simp] theorem State.emit_picture (s : State) (o : Out) : (s.emit o).picture = s.picture := rfl
@[simp] theorem State.emit_spdm (s : State) (o : Out) : (s.emit o).spdm = s.spdm := rfl
@[simp] theorem State.emit_tokens (s : State) (o : Out) : (s.emit o).tokens = s.tokens := rfl
@[simp] theorem State.emit_scaler (s : State) (o : Out) : (s.emit o).scaler = s.scaler := rfl
@[simp] theorem State.emit_wire (s : State) (o : Out) : (s.emit o).wire = s.wire := rfl
@[simp] theorem State.emit_meter (s : State) (o : Out) : (s.emit o).meter = s.meter := rfl
@[simp] theorem State.emit_mtrRec (s : State) (o : Out) : (s.emit o).mtrRec = s.mtrRec := rfl
@[simp] theorem State.emit_mtrLog (s : State) (o : Out) : (s.emit o).mtrLog = s.mtrLog := rfl
@[simp] theorem State.emit_stmts (s : State) (o : Out) : (s.emit o).stmts = s.stmts := rfl

/-! ## regReset -/

@[simp] theorem State.regReset_pending (s : State) (lo hi : Nat) : (s.regReset lo hi).pending = s.pending := rfl
@[simp] theorem State.regReset_out (s : State) (lo hi : Nat) : (s.regReset lo hi).out = s.out := rfl
@[simp] theorem State.regReset_now (s : State) (lo hi : Nat) : (s.regReset lo hi).now = s.now := rfl
@[simp] theorem State.regReset_tick0 (s : State) (lo hi : Nat) : (s.regReset lo hi).tick0 = s.tick0 := rfl
@[simp] theorem State.regReset_free (s : State) (lo hi : Nat) : (s.regReset lo hi).free = s.free := rfl
@[simp] theorem State.regReset_mem (s : State) (lo hi : Nat) : (s.regReset lo hi).mem = s.mem := rfl
@[simp] theorem State.regReset_bad (s : State) (lo hi : Nat) : (s.regReset lo hi).bad = s.bad := rfl
@[simp] theorem State.regReset_soft (s : State) (lo hi : Nat) : (s.regReset lo hi).soft = s.soft := rfl
@[simp] theorem State.regReset_plist (s : State) (lo hi : Nat) : (s.regReset lo hi).plist = s.plist := rfl
@[simp] theorem State.regReset_linkErr (s : State) (lo hi : Nat) : (s.regReset lo hi).linkErr = s.linkErr := rfl
@[simp] theorem State.regReset_tiles (s : State) (lo hi : Nat) : (s.regReset lo hi).tiles = s.tiles := rfl
@[simp] theorem State.regReset_tileBad (s : State) (lo hi : Nat) : (s.regReset lo hi).tileBad = s.tileBad := rfl
@[simp] theorem State.regReset_tileSoft (s : State) (lo hi : Nat) : (s.regReset lo hi).tileSoft = s.tileSoft := rfl
@[simp] theorem State.regReset_pkts (s : State) (lo hi : Nat) : (s.regReset lo hi).pkts = s.pkts := rfl
@[simp] theorem State.regReset_pktNext (s : State) (lo hi : Nat) : (s.regReset lo hi).pktNext = s.pktNext := rfl
@[simp] theorem State.regReset_seqs (s : State) (lo hi : Nat) : (s.regReset lo hi).seqs = s.seqs := rfl
@[simp] theorem State.regReset_arrs (s : State) (lo hi : Nat) : (s.regReset lo hi).arrs = s.arrs := rfl
@[simp] theorem State.regReset_raft (s : State) (lo hi : Nat) : (s.regReset lo hi).raft = s.raft := rfl
@[simp] theorem State.regReset_saps (s : State) (lo hi : Nat) : (s.regReset lo hi).saps = s.saps := rfl
@[simp] theorem State.regReset_glzs (s : State) (lo hi : Nat) : (s.regReset lo hi).glzs = s.glzs := rfl
@[simp] theorem State.regReset_flumes (s : State) (lo hi : Nat) : (s.regReset lo hi).flumes = s.flumes := rfl
@[simp] theorem State.regReset_log (s : State) (lo hi : Nat) : (s.regReset lo hi).log = s.log := rfl
@[simp] theorem State.regReset_mfg (s : State) (lo hi : Nat) : (s.regReset lo hi).mfg = s.mfg := rfl
@[simp] theorem State.regReset_mfg1 (s : State) (lo hi : Nat) : (s.regReset lo hi).mfg1 = s.mfg1 := rfl
@[simp] theorem State.regReset_oldWin (s : State) (lo hi : Nat) : (s.regReset lo hi).oldWin = s.oldWin := rfl
@[simp] theorem State.regReset_halfRst (s : State) (lo hi : Nat) : (s.regReset lo hi).halfRst = s.halfRst := rfl
@[simp] theorem State.regReset_recov (s : State) (lo hi : Nat) : (s.regReset lo hi).recov = s.recov := rfl
@[simp] theorem State.regReset_dieRst (s : State) (lo hi : Nat) : (s.regReset lo hi).dieRst = s.dieRst := rfl
@[simp] theorem State.regReset_phaseIn (s : State) (lo hi : Nat) : (s.regReset lo hi).phaseIn = s.phaseIn := rfl
@[simp] theorem State.regReset_phaseOut (s : State) (lo hi : Nat) : (s.regReset lo hi).phaseOut = s.phaseOut := rfl
@[simp] theorem State.regReset_cutForce (s : State) (lo hi : Nat) : (s.regReset lo hi).cutForce = s.cutForce := rfl
@[simp] theorem State.regReset_cutPend (s : State) (lo hi : Nat) : (s.regReset lo hi).cutPend = s.cutPend := rfl
@[simp] theorem State.regReset_jobs (s : State) (lo hi : Nat) : (s.regReset lo hi).jobs = s.jobs := rfl
@[simp] theorem State.regReset_owed (s : State) (lo hi : Nat) : (s.regReset lo hi).owed = s.owed := rfl
@[simp] theorem State.regReset_redTx (s : State) (lo hi : Nat) : (s.regReset lo hi).redTx = s.redTx := rfl
@[simp] theorem State.regReset_redRx (s : State) (lo hi : Nat) : (s.regReset lo hi).redRx = s.redRx := rfl
@[simp] theorem State.regReset_sctlPend (s : State) (lo hi : Nat) : (s.regReset lo hi).sctlPend = s.sctlPend := rfl
@[simp] theorem State.regReset_scaleDue (s : State) (lo hi : Nat) : (s.regReset lo hi).scaleDue = s.scaleDue := rfl
@[simp] theorem State.regReset_pinEnd (s : State) (lo hi : Nat) : (s.regReset lo hi).pinEnd = s.pinEnd := rfl
@[simp] theorem State.regReset_refill (s : State) (lo hi : Nat) : (s.regReset lo hi).refill = s.refill := rfl
@[simp] theorem State.regReset_limitAt (s : State) (lo hi : Nat) : (s.regReset lo hi).limitAt = s.limitAt := rfl
@[simp] theorem State.regReset_unitAdm (s : State) (lo hi : Nat) : (s.regReset lo hi).unitAdm = s.unitAdm := rfl
@[simp] theorem State.regReset_hauls (s : State) (lo hi : Nat) : (s.regReset lo hi).hauls = s.hauls := rfl
@[simp] theorem State.regReset_haulTurn (s : State) (lo hi : Nat) : (s.regReset lo hi).haulTurn = s.haulTurn := rfl
@[simp] theorem State.regReset_ckpts (s : State) (lo hi : Nat) : (s.regReset lo hi).ckpts = s.ckpts := rfl
@[simp] theorem State.regReset_hrecs (s : State) (lo hi : Nat) : (s.regReset lo hi).hrecs = s.hrecs := rfl
@[simp] theorem State.regReset_quarLen (s : State) (lo hi : Nat) : (s.regReset lo hi).quarLen = s.quarLen := rfl
@[simp] theorem State.regReset_srcConn (s : State) (lo hi : Nat) : (s.regReset lo hi).srcConn = s.srcConn := rfl
@[simp] theorem State.regReset_idKeys (s : State) (lo hi : Nat) : (s.regReset lo hi).idKeys = s.idKeys := rfl
@[simp] theorem State.regReset_farKey (s : State) (lo hi : Nat) : (s.regReset lo hi).farKey = s.farKey := rfl
@[simp] theorem State.regReset_links (s : State) (lo hi : Nat) : (s.regReset lo hi).links = s.links := rfl
@[simp] theorem State.regReset_ethRate (s : State) (lo hi : Nat) : (s.regReset lo hi).ethRate = s.ethRate := rfl
@[simp] theorem State.regReset_ethPause (s : State) (lo hi : Nat) : (s.regReset lo hi).ethPause = s.ethPause := rfl
@[simp] theorem State.regReset_ethHeld (s : State) (lo hi : Nat) : (s.regReset lo hi).ethHeld = s.ethHeld := rfl
@[simp] theorem State.regReset_spn (s : State) (lo hi : Nat) : (s.regReset lo hi).spn = s.spn := rfl
@[simp] theorem State.regReset_spnBurst (s : State) (lo hi : Nat) : (s.regReset lo hi).spnBurst = s.spnBurst := rfl
@[simp] theorem State.regReset_spnTx (s : State) (lo hi : Nat) : (s.regReset lo hi).spnTx = s.spnTx := rfl
@[simp] theorem State.regReset_parts (s : State) (lo hi : Nat) : (s.regReset lo hi).parts = s.parts := rfl
@[simp] theorem State.regReset_sample (s : State) (lo hi : Nat) : (s.regReset lo hi).sample = s.sample := rfl
@[simp] theorem State.regReset_hbmHot (s : State) (lo hi : Nat) : (s.regReset lo hi).hbmHot = s.hbmHot := rfl
@[simp] theorem State.regReset_srings (s : State) (lo hi : Nat) : (s.regReset lo hi).srings = s.srings := rfl
@[simp] theorem State.regReset_crings (s : State) (lo hi : Nat) : (s.regReset lo hi).crings = s.crings := rfl
@[simp] theorem State.regReset_fetched (s : State) (lo hi : Nat) : (s.regReset lo hi).fetched = s.fetched := rfl
@[simp] theorem State.regReset_fns (s : State) (lo hi : Nat) : (s.regReset lo hi).fns = s.fns := rfl
@[simp] theorem State.regReset_vfOn (s : State) (lo hi : Nat) : (s.regReset lo hi).vfOn = s.vfOn := rfl
@[simp] theorem State.regReset_vfs (s : State) (lo hi : Nat) : (s.regReset lo hi).vfs = s.vfs := rfl
@[simp] theorem State.regReset_b4size (s : State) (lo hi : Nat) : (s.regReset lo hi).b4size = s.b4size := rfl
@[simp] theorem State.regReset_msixTab (s : State) (lo hi : Nat) : (s.regReset lo hi).msixTab = s.msixTab := rfl
@[simp] theorem State.regReset_unmask (s : State) (lo hi : Nat) : (s.regReset lo hi).unmask = s.unmask := rfl
@[simp] theorem State.regReset_pba (s : State) (lo hi : Nat) : (s.regReset lo hi).pba = s.pba := rfl
@[simp] theorem State.regReset_linkUp (s : State) (lo hi : Nat) : (s.regReset lo hi).linkUp = s.linkUp := rfl
@[simp] theorem State.regReset_boot (s : State) (lo hi : Nat) : (s.regReset lo hi).boot = s.boot := rfl
@[simp] theorem State.regReset_hostOrd (s : State) (lo hi : Nat) : (s.regReset lo hi).hostOrd = s.hostOrd := rfl
@[simp] theorem State.regReset_mgmtOrd (s : State) (lo hi : Nat) : (s.regReset lo hi).mgmtOrd = s.mgmtOrd := rfl
@[simp] theorem State.regReset_mgmtRes (s : State) (lo hi : Nat) : (s.regReset lo hi).mgmtRes = s.mgmtRes := rfl
@[simp] theorem State.regReset_won (s : State) (lo hi : Nat) : (s.regReset lo hi).won = s.won := rfl
@[simp] theorem State.regReset_ownHid (s : State) (lo hi : Nat) : (s.regReset lo hi).ownHid = s.ownHid := rfl
@[simp] theorem State.regReset_refclk (s : State) (lo hi : Nat) : (s.regReset lo hi).refclk = s.refclk := rfl
@[simp] theorem State.regReset_offBy (s : State) (lo hi : Nat) : (s.regReset lo hi).offBy = s.offBy := rfl
@[simp] theorem State.regReset_bootEvt (s : State) (lo hi : Nat) : (s.regReset lo hi).bootEvt = s.bootEvt := rfl
@[simp] theorem State.regReset_wasRun (s : State) (lo hi : Nat) : (s.regReset lo hi).wasRun = s.wasRun := rfl
@[simp] theorem State.regReset_rerun (s : State) (lo hi : Nat) : (s.regReset lo hi).rerun = s.rerun := rfl
@[simp] theorem State.regReset_halfBack (s : State) (lo hi : Nat) : (s.regReset lo hi).halfBack = s.halfBack := rfl
@[simp] theorem State.regReset_inHold (s : State) (lo hi : Nat) : (s.regReset lo hi).inHold = s.inHold := rfl
@[simp] theorem State.regReset_coolHold (s : State) (lo hi : Nat) : (s.regReset lo hi).coolHold = s.coolHold := rfl
@[simp] theorem State.regReset_leakHold (s : State) (lo hi : Nat) : (s.regReset lo hi).leakHold = s.leakHold := rfl
@[simp] theorem State.regReset_tripped (s : State) (lo hi : Nat) : (s.regReset lo hi).tripped = s.tripped := rfl
@[simp] theorem State.regReset_slotId (s : State) (lo hi : Nat) : (s.regReset lo hi).slotId = s.slotId := rfl
@[simp] theorem State.regReset_tid (s : State) (lo hi : Nat) : (s.regReset lo hi).tid = s.tid := rfl
@[simp] theorem State.regReset_eid (s : State) (lo hi : Nat) : (s.regReset lo hi).eid = s.eid := rfl
@[simp] theorem State.regReset_i3c (s : State) (lo hi : Nat) : (s.regReset lo hi).i3c = s.i3c := rfl
@[simp] theorem State.regReset_fw (s : State) (lo hi : Nat) : (s.regReset lo hi).fw = s.fw := rfl
@[simp] theorem State.regReset_picture (s : State) (lo hi : Nat) : (s.regReset lo hi).picture = s.picture := rfl
@[simp] theorem State.regReset_spdm (s : State) (lo hi : Nat) : (s.regReset lo hi).spdm = s.spdm := rfl
@[simp] theorem State.regReset_tokens (s : State) (lo hi : Nat) : (s.regReset lo hi).tokens = s.tokens := rfl
@[simp] theorem State.regReset_scaler (s : State) (lo hi : Nat) : (s.regReset lo hi).scaler = s.scaler := rfl
@[simp] theorem State.regReset_wire (s : State) (lo hi : Nat) : (s.regReset lo hi).wire = s.wire := rfl
@[simp] theorem State.regReset_meter (s : State) (lo hi : Nat) : (s.regReset lo hi).meter = s.meter := rfl
@[simp] theorem State.regReset_mtrRec (s : State) (lo hi : Nat) : (s.regReset lo hi).mtrRec = s.mtrRec := rfl
@[simp] theorem State.regReset_mtrLog (s : State) (lo hi : Nat) : (s.regReset lo hi).mtrLog = s.mtrLog := rfl
@[simp] theorem State.regReset_stmts (s : State) (lo hi : Nat) : (s.regReset lo hi).stmts = s.stmts := rfl

/-! ## write -/

@[simp] theorem State.write_pending (s : State) (a : Nat) (bs : List Byte) : (s.write a bs).pending = s.pending := rfl
@[simp] theorem State.write_out (s : State) (a : Nat) (bs : List Byte) : (s.write a bs).out = s.out := rfl
@[simp] theorem State.write_now (s : State) (a : Nat) (bs : List Byte) : (s.write a bs).now = s.now := rfl
@[simp] theorem State.write_tick0 (s : State) (a : Nat) (bs : List Byte) : (s.write a bs).tick0 = s.tick0 := rfl
@[simp] theorem State.write_free (s : State) (a : Nat) (bs : List Byte) : (s.write a bs).free = s.free := rfl
@[simp] theorem State.write_regs (s : State) (a : Nat) (bs : List Byte) : (s.write a bs).regs = s.regs := rfl
@[simp] theorem State.write_shadow (s : State) (a : Nat) (bs : List Byte) : (s.write a bs).shadow = s.shadow := rfl
@[simp] theorem State.write_tiles (s : State) (a : Nat) (bs : List Byte) : (s.write a bs).tiles = s.tiles := rfl
@[simp] theorem State.write_tileBad (s : State) (a : Nat) (bs : List Byte) : (s.write a bs).tileBad = s.tileBad := rfl
@[simp] theorem State.write_tileSoft (s : State) (a : Nat) (bs : List Byte) : (s.write a bs).tileSoft = s.tileSoft := rfl
@[simp] theorem State.write_pkts (s : State) (a : Nat) (bs : List Byte) : (s.write a bs).pkts = s.pkts := rfl
@[simp] theorem State.write_pktNext (s : State) (a : Nat) (bs : List Byte) : (s.write a bs).pktNext = s.pktNext := rfl
@[simp] theorem State.write_seqs (s : State) (a : Nat) (bs : List Byte) : (s.write a bs).seqs = s.seqs := rfl
@[simp] theorem State.write_arrs (s : State) (a : Nat) (bs : List Byte) : (s.write a bs).arrs = s.arrs := rfl
@[simp] theorem State.write_raft (s : State) (a : Nat) (bs : List Byte) : (s.write a bs).raft = s.raft := rfl
@[simp] theorem State.write_saps (s : State) (a : Nat) (bs : List Byte) : (s.write a bs).saps = s.saps := rfl
@[simp] theorem State.write_glzs (s : State) (a : Nat) (bs : List Byte) : (s.write a bs).glzs = s.glzs := rfl
@[simp] theorem State.write_flumes (s : State) (a : Nat) (bs : List Byte) : (s.write a bs).flumes = s.flumes := rfl
@[simp] theorem State.write_log (s : State) (a : Nat) (bs : List Byte) : (s.write a bs).log = s.log := rfl
@[simp] theorem State.write_mfg (s : State) (a : Nat) (bs : List Byte) : (s.write a bs).mfg = s.mfg := rfl
@[simp] theorem State.write_mfg1 (s : State) (a : Nat) (bs : List Byte) : (s.write a bs).mfg1 = s.mfg1 := rfl
@[simp] theorem State.write_oldWin (s : State) (a : Nat) (bs : List Byte) : (s.write a bs).oldWin = s.oldWin := rfl
@[simp] theorem State.write_halfRst (s : State) (a : Nat) (bs : List Byte) : (s.write a bs).halfRst = s.halfRst := rfl
@[simp] theorem State.write_recov (s : State) (a : Nat) (bs : List Byte) : (s.write a bs).recov = s.recov := rfl
@[simp] theorem State.write_dieRst (s : State) (a : Nat) (bs : List Byte) : (s.write a bs).dieRst = s.dieRst := rfl
@[simp] theorem State.write_phaseIn (s : State) (a : Nat) (bs : List Byte) : (s.write a bs).phaseIn = s.phaseIn := rfl
@[simp] theorem State.write_phaseOut (s : State) (a : Nat) (bs : List Byte) : (s.write a bs).phaseOut = s.phaseOut := rfl
@[simp] theorem State.write_cutForce (s : State) (a : Nat) (bs : List Byte) : (s.write a bs).cutForce = s.cutForce := rfl
@[simp] theorem State.write_cutPend (s : State) (a : Nat) (bs : List Byte) : (s.write a bs).cutPend = s.cutPend := rfl
@[simp] theorem State.write_jobs (s : State) (a : Nat) (bs : List Byte) : (s.write a bs).jobs = s.jobs := rfl
@[simp] theorem State.write_owed (s : State) (a : Nat) (bs : List Byte) : (s.write a bs).owed = s.owed := rfl
@[simp] theorem State.write_redTx (s : State) (a : Nat) (bs : List Byte) : (s.write a bs).redTx = s.redTx := rfl
@[simp] theorem State.write_redRx (s : State) (a : Nat) (bs : List Byte) : (s.write a bs).redRx = s.redRx := rfl
@[simp] theorem State.write_sctlPend (s : State) (a : Nat) (bs : List Byte) : (s.write a bs).sctlPend = s.sctlPend := rfl
@[simp] theorem State.write_scaleDue (s : State) (a : Nat) (bs : List Byte) : (s.write a bs).scaleDue = s.scaleDue := rfl
@[simp] theorem State.write_pinEnd (s : State) (a : Nat) (bs : List Byte) : (s.write a bs).pinEnd = s.pinEnd := rfl
@[simp] theorem State.write_refill (s : State) (a : Nat) (bs : List Byte) : (s.write a bs).refill = s.refill := rfl
@[simp] theorem State.write_limitAt (s : State) (a : Nat) (bs : List Byte) : (s.write a bs).limitAt = s.limitAt := rfl
@[simp] theorem State.write_unitAdm (s : State) (a : Nat) (bs : List Byte) : (s.write a bs).unitAdm = s.unitAdm := rfl
@[simp] theorem State.write_hauls (s : State) (a : Nat) (bs : List Byte) : (s.write a bs).hauls = s.hauls := rfl
@[simp] theorem State.write_haulTurn (s : State) (a : Nat) (bs : List Byte) : (s.write a bs).haulTurn = s.haulTurn := rfl
@[simp] theorem State.write_ckpts (s : State) (a : Nat) (bs : List Byte) : (s.write a bs).ckpts = s.ckpts := rfl
@[simp] theorem State.write_hrecs (s : State) (a : Nat) (bs : List Byte) : (s.write a bs).hrecs = s.hrecs := rfl
@[simp] theorem State.write_quarLen (s : State) (a : Nat) (bs : List Byte) : (s.write a bs).quarLen = s.quarLen := rfl
@[simp] theorem State.write_srcConn (s : State) (a : Nat) (bs : List Byte) : (s.write a bs).srcConn = s.srcConn := rfl
@[simp] theorem State.write_idKeys (s : State) (a : Nat) (bs : List Byte) : (s.write a bs).idKeys = s.idKeys := rfl
@[simp] theorem State.write_farKey (s : State) (a : Nat) (bs : List Byte) : (s.write a bs).farKey = s.farKey := rfl
@[simp] theorem State.write_links (s : State) (a : Nat) (bs : List Byte) : (s.write a bs).links = s.links := rfl
@[simp] theorem State.write_ethRate (s : State) (a : Nat) (bs : List Byte) : (s.write a bs).ethRate = s.ethRate := rfl
@[simp] theorem State.write_ethPause (s : State) (a : Nat) (bs : List Byte) : (s.write a bs).ethPause = s.ethPause := rfl
@[simp] theorem State.write_ethHeld (s : State) (a : Nat) (bs : List Byte) : (s.write a bs).ethHeld = s.ethHeld := rfl
@[simp] theorem State.write_spn (s : State) (a : Nat) (bs : List Byte) : (s.write a bs).spn = s.spn := rfl
@[simp] theorem State.write_spnBurst (s : State) (a : Nat) (bs : List Byte) : (s.write a bs).spnBurst = s.spnBurst := rfl
@[simp] theorem State.write_spnTx (s : State) (a : Nat) (bs : List Byte) : (s.write a bs).spnTx = s.spnTx := rfl
@[simp] theorem State.write_parts (s : State) (a : Nat) (bs : List Byte) : (s.write a bs).parts = s.parts := rfl
@[simp] theorem State.write_sample (s : State) (a : Nat) (bs : List Byte) : (s.write a bs).sample = s.sample := rfl
@[simp] theorem State.write_hbmHot (s : State) (a : Nat) (bs : List Byte) : (s.write a bs).hbmHot = s.hbmHot := rfl
@[simp] theorem State.write_srings (s : State) (a : Nat) (bs : List Byte) : (s.write a bs).srings = s.srings := rfl
@[simp] theorem State.write_crings (s : State) (a : Nat) (bs : List Byte) : (s.write a bs).crings = s.crings := rfl
@[simp] theorem State.write_fetched (s : State) (a : Nat) (bs : List Byte) : (s.write a bs).fetched = s.fetched := rfl
@[simp] theorem State.write_fns (s : State) (a : Nat) (bs : List Byte) : (s.write a bs).fns = s.fns := rfl
@[simp] theorem State.write_vfOn (s : State) (a : Nat) (bs : List Byte) : (s.write a bs).vfOn = s.vfOn := rfl
@[simp] theorem State.write_vfs (s : State) (a : Nat) (bs : List Byte) : (s.write a bs).vfs = s.vfs := rfl
@[simp] theorem State.write_b4size (s : State) (a : Nat) (bs : List Byte) : (s.write a bs).b4size = s.b4size := rfl
@[simp] theorem State.write_msixTab (s : State) (a : Nat) (bs : List Byte) : (s.write a bs).msixTab = s.msixTab := rfl
@[simp] theorem State.write_unmask (s : State) (a : Nat) (bs : List Byte) : (s.write a bs).unmask = s.unmask := rfl
@[simp] theorem State.write_pba (s : State) (a : Nat) (bs : List Byte) : (s.write a bs).pba = s.pba := rfl
@[simp] theorem State.write_linkUp (s : State) (a : Nat) (bs : List Byte) : (s.write a bs).linkUp = s.linkUp := rfl
@[simp] theorem State.write_boot (s : State) (a : Nat) (bs : List Byte) : (s.write a bs).boot = s.boot := rfl
@[simp] theorem State.write_hostOrd (s : State) (a : Nat) (bs : List Byte) : (s.write a bs).hostOrd = s.hostOrd := rfl
@[simp] theorem State.write_mgmtOrd (s : State) (a : Nat) (bs : List Byte) : (s.write a bs).mgmtOrd = s.mgmtOrd := rfl
@[simp] theorem State.write_mgmtRes (s : State) (a : Nat) (bs : List Byte) : (s.write a bs).mgmtRes = s.mgmtRes := rfl
@[simp] theorem State.write_won (s : State) (a : Nat) (bs : List Byte) : (s.write a bs).won = s.won := rfl
@[simp] theorem State.write_ownHid (s : State) (a : Nat) (bs : List Byte) : (s.write a bs).ownHid = s.ownHid := rfl
@[simp] theorem State.write_refclk (s : State) (a : Nat) (bs : List Byte) : (s.write a bs).refclk = s.refclk := rfl
@[simp] theorem State.write_offBy (s : State) (a : Nat) (bs : List Byte) : (s.write a bs).offBy = s.offBy := rfl
@[simp] theorem State.write_bootEvt (s : State) (a : Nat) (bs : List Byte) : (s.write a bs).bootEvt = s.bootEvt := rfl
@[simp] theorem State.write_wasRun (s : State) (a : Nat) (bs : List Byte) : (s.write a bs).wasRun = s.wasRun := rfl
@[simp] theorem State.write_rerun (s : State) (a : Nat) (bs : List Byte) : (s.write a bs).rerun = s.rerun := rfl
@[simp] theorem State.write_halfBack (s : State) (a : Nat) (bs : List Byte) : (s.write a bs).halfBack = s.halfBack := rfl
@[simp] theorem State.write_inHold (s : State) (a : Nat) (bs : List Byte) : (s.write a bs).inHold = s.inHold := rfl
@[simp] theorem State.write_coolHold (s : State) (a : Nat) (bs : List Byte) : (s.write a bs).coolHold = s.coolHold := rfl
@[simp] theorem State.write_leakHold (s : State) (a : Nat) (bs : List Byte) : (s.write a bs).leakHold = s.leakHold := rfl
@[simp] theorem State.write_tripped (s : State) (a : Nat) (bs : List Byte) : (s.write a bs).tripped = s.tripped := rfl
@[simp] theorem State.write_slotId (s : State) (a : Nat) (bs : List Byte) : (s.write a bs).slotId = s.slotId := rfl
@[simp] theorem State.write_tid (s : State) (a : Nat) (bs : List Byte) : (s.write a bs).tid = s.tid := rfl
@[simp] theorem State.write_eid (s : State) (a : Nat) (bs : List Byte) : (s.write a bs).eid = s.eid := rfl
@[simp] theorem State.write_i3c (s : State) (a : Nat) (bs : List Byte) : (s.write a bs).i3c = s.i3c := rfl
@[simp] theorem State.write_fw (s : State) (a : Nat) (bs : List Byte) : (s.write a bs).fw = s.fw := rfl
@[simp] theorem State.write_picture (s : State) (a : Nat) (bs : List Byte) : (s.write a bs).picture = s.picture := rfl
@[simp] theorem State.write_spdm (s : State) (a : Nat) (bs : List Byte) : (s.write a bs).spdm = s.spdm := rfl
@[simp] theorem State.write_tokens (s : State) (a : Nat) (bs : List Byte) : (s.write a bs).tokens = s.tokens := rfl
@[simp] theorem State.write_scaler (s : State) (a : Nat) (bs : List Byte) : (s.write a bs).scaler = s.scaler := rfl
@[simp] theorem State.write_wire (s : State) (a : Nat) (bs : List Byte) : (s.write a bs).wire = s.wire := rfl
@[simp] theorem State.write_meter (s : State) (a : Nat) (bs : List Byte) : (s.write a bs).meter = s.meter := rfl
@[simp] theorem State.write_mtrRec (s : State) (a : Nat) (bs : List Byte) : (s.write a bs).mtrRec = s.mtrRec := rfl
@[simp] theorem State.write_mtrLog (s : State) (a : Nat) (bs : List Byte) : (s.write a bs).mtrLog = s.mtrLog := rfl
@[simp] theorem State.write_stmts (s : State) (a : Nat) (bs : List Byte) : (s.write a bs).stmts = s.stmts := rfl

/-! ## setSeq -/

@[simp] theorem State.setSeq_pending (s : State) (k : Nat) (x : Seq) : (s.setSeq k x).pending = s.pending := rfl
@[simp] theorem State.setSeq_out (s : State) (k : Nat) (x : Seq) : (s.setSeq k x).out = s.out := rfl
@[simp] theorem State.setSeq_now (s : State) (k : Nat) (x : Seq) : (s.setSeq k x).now = s.now := rfl
@[simp] theorem State.setSeq_tick0 (s : State) (k : Nat) (x : Seq) : (s.setSeq k x).tick0 = s.tick0 := rfl
@[simp] theorem State.setSeq_free (s : State) (k : Nat) (x : Seq) : (s.setSeq k x).free = s.free := rfl
@[simp] theorem State.setSeq_regs (s : State) (k : Nat) (x : Seq) : (s.setSeq k x).regs = s.regs := rfl
@[simp] theorem State.setSeq_shadow (s : State) (k : Nat) (x : Seq) : (s.setSeq k x).shadow = s.shadow := rfl
@[simp] theorem State.setSeq_mem (s : State) (k : Nat) (x : Seq) : (s.setSeq k x).mem = s.mem := rfl
@[simp] theorem State.setSeq_bad (s : State) (k : Nat) (x : Seq) : (s.setSeq k x).bad = s.bad := rfl
@[simp] theorem State.setSeq_soft (s : State) (k : Nat) (x : Seq) : (s.setSeq k x).soft = s.soft := rfl
@[simp] theorem State.setSeq_plist (s : State) (k : Nat) (x : Seq) : (s.setSeq k x).plist = s.plist := rfl
@[simp] theorem State.setSeq_linkErr (s : State) (k : Nat) (x : Seq) : (s.setSeq k x).linkErr = s.linkErr := rfl
@[simp] theorem State.setSeq_tiles (s : State) (k : Nat) (x : Seq) : (s.setSeq k x).tiles = s.tiles := rfl
@[simp] theorem State.setSeq_tileBad (s : State) (k : Nat) (x : Seq) : (s.setSeq k x).tileBad = s.tileBad := rfl
@[simp] theorem State.setSeq_tileSoft (s : State) (k : Nat) (x : Seq) : (s.setSeq k x).tileSoft = s.tileSoft := rfl
@[simp] theorem State.setSeq_pkts (s : State) (k : Nat) (x : Seq) : (s.setSeq k x).pkts = s.pkts := rfl
@[simp] theorem State.setSeq_pktNext (s : State) (k : Nat) (x : Seq) : (s.setSeq k x).pktNext = s.pktNext := rfl
@[simp] theorem State.setSeq_arrs (s : State) (k : Nat) (x : Seq) : (s.setSeq k x).arrs = s.arrs := rfl
@[simp] theorem State.setSeq_raft (s : State) (k : Nat) (x : Seq) : (s.setSeq k x).raft = s.raft := rfl
@[simp] theorem State.setSeq_saps (s : State) (k : Nat) (x : Seq) : (s.setSeq k x).saps = s.saps := rfl
@[simp] theorem State.setSeq_glzs (s : State) (k : Nat) (x : Seq) : (s.setSeq k x).glzs = s.glzs := rfl
@[simp] theorem State.setSeq_flumes (s : State) (k : Nat) (x : Seq) : (s.setSeq k x).flumes = s.flumes := rfl
@[simp] theorem State.setSeq_log (s : State) (k : Nat) (x : Seq) : (s.setSeq k x).log = s.log := rfl
@[simp] theorem State.setSeq_mfg (s : State) (k : Nat) (x : Seq) : (s.setSeq k x).mfg = s.mfg := rfl
@[simp] theorem State.setSeq_mfg1 (s : State) (k : Nat) (x : Seq) : (s.setSeq k x).mfg1 = s.mfg1 := rfl
@[simp] theorem State.setSeq_oldWin (s : State) (k : Nat) (x : Seq) : (s.setSeq k x).oldWin = s.oldWin := rfl
@[simp] theorem State.setSeq_halfRst (s : State) (k : Nat) (x : Seq) : (s.setSeq k x).halfRst = s.halfRst := rfl
@[simp] theorem State.setSeq_recov (s : State) (k : Nat) (x : Seq) : (s.setSeq k x).recov = s.recov := rfl
@[simp] theorem State.setSeq_dieRst (s : State) (k : Nat) (x : Seq) : (s.setSeq k x).dieRst = s.dieRst := rfl
@[simp] theorem State.setSeq_phaseIn (s : State) (k : Nat) (x : Seq) : (s.setSeq k x).phaseIn = s.phaseIn := rfl
@[simp] theorem State.setSeq_phaseOut (s : State) (k : Nat) (x : Seq) : (s.setSeq k x).phaseOut = s.phaseOut := rfl
@[simp] theorem State.setSeq_cutForce (s : State) (k : Nat) (x : Seq) : (s.setSeq k x).cutForce = s.cutForce := rfl
@[simp] theorem State.setSeq_cutPend (s : State) (k : Nat) (x : Seq) : (s.setSeq k x).cutPend = s.cutPend := rfl
@[simp] theorem State.setSeq_jobs (s : State) (k : Nat) (x : Seq) : (s.setSeq k x).jobs = s.jobs := rfl
@[simp] theorem State.setSeq_owed (s : State) (k : Nat) (x : Seq) : (s.setSeq k x).owed = s.owed := rfl
@[simp] theorem State.setSeq_redTx (s : State) (k : Nat) (x : Seq) : (s.setSeq k x).redTx = s.redTx := rfl
@[simp] theorem State.setSeq_redRx (s : State) (k : Nat) (x : Seq) : (s.setSeq k x).redRx = s.redRx := rfl
@[simp] theorem State.setSeq_sctlPend (s : State) (k : Nat) (x : Seq) : (s.setSeq k x).sctlPend = s.sctlPend := rfl
@[simp] theorem State.setSeq_scaleDue (s : State) (k : Nat) (x : Seq) : (s.setSeq k x).scaleDue = s.scaleDue := rfl
@[simp] theorem State.setSeq_pinEnd (s : State) (k : Nat) (x : Seq) : (s.setSeq k x).pinEnd = s.pinEnd := rfl
@[simp] theorem State.setSeq_refill (s : State) (k : Nat) (x : Seq) : (s.setSeq k x).refill = s.refill := rfl
@[simp] theorem State.setSeq_limitAt (s : State) (k : Nat) (x : Seq) : (s.setSeq k x).limitAt = s.limitAt := rfl
@[simp] theorem State.setSeq_unitAdm (s : State) (k : Nat) (x : Seq) : (s.setSeq k x).unitAdm = s.unitAdm := rfl
@[simp] theorem State.setSeq_hauls (s : State) (k : Nat) (x : Seq) : (s.setSeq k x).hauls = s.hauls := rfl
@[simp] theorem State.setSeq_haulTurn (s : State) (k : Nat) (x : Seq) : (s.setSeq k x).haulTurn = s.haulTurn := rfl
@[simp] theorem State.setSeq_ckpts (s : State) (k : Nat) (x : Seq) : (s.setSeq k x).ckpts = s.ckpts := rfl
@[simp] theorem State.setSeq_hrecs (s : State) (k : Nat) (x : Seq) : (s.setSeq k x).hrecs = s.hrecs := rfl
@[simp] theorem State.setSeq_quarLen (s : State) (k : Nat) (x : Seq) : (s.setSeq k x).quarLen = s.quarLen := rfl
@[simp] theorem State.setSeq_srcConn (s : State) (k : Nat) (x : Seq) : (s.setSeq k x).srcConn = s.srcConn := rfl
@[simp] theorem State.setSeq_idKeys (s : State) (k : Nat) (x : Seq) : (s.setSeq k x).idKeys = s.idKeys := rfl
@[simp] theorem State.setSeq_farKey (s : State) (k : Nat) (x : Seq) : (s.setSeq k x).farKey = s.farKey := rfl
@[simp] theorem State.setSeq_links (s : State) (k : Nat) (x : Seq) : (s.setSeq k x).links = s.links := rfl
@[simp] theorem State.setSeq_ethRate (s : State) (k : Nat) (x : Seq) : (s.setSeq k x).ethRate = s.ethRate := rfl
@[simp] theorem State.setSeq_ethPause (s : State) (k : Nat) (x : Seq) : (s.setSeq k x).ethPause = s.ethPause := rfl
@[simp] theorem State.setSeq_ethHeld (s : State) (k : Nat) (x : Seq) : (s.setSeq k x).ethHeld = s.ethHeld := rfl
@[simp] theorem State.setSeq_spn (s : State) (k : Nat) (x : Seq) : (s.setSeq k x).spn = s.spn := rfl
@[simp] theorem State.setSeq_spnBurst (s : State) (k : Nat) (x : Seq) : (s.setSeq k x).spnBurst = s.spnBurst := rfl
@[simp] theorem State.setSeq_spnTx (s : State) (k : Nat) (x : Seq) : (s.setSeq k x).spnTx = s.spnTx := rfl
@[simp] theorem State.setSeq_parts (s : State) (k : Nat) (x : Seq) : (s.setSeq k x).parts = s.parts := rfl
@[simp] theorem State.setSeq_sample (s : State) (k : Nat) (x : Seq) : (s.setSeq k x).sample = s.sample := rfl
@[simp] theorem State.setSeq_hbmHot (s : State) (k : Nat) (x : Seq) : (s.setSeq k x).hbmHot = s.hbmHot := rfl
@[simp] theorem State.setSeq_srings (s : State) (k : Nat) (x : Seq) : (s.setSeq k x).srings = s.srings := rfl
@[simp] theorem State.setSeq_crings (s : State) (k : Nat) (x : Seq) : (s.setSeq k x).crings = s.crings := rfl
@[simp] theorem State.setSeq_fetched (s : State) (k : Nat) (x : Seq) : (s.setSeq k x).fetched = s.fetched := rfl
@[simp] theorem State.setSeq_fns (s : State) (k : Nat) (x : Seq) : (s.setSeq k x).fns = s.fns := rfl
@[simp] theorem State.setSeq_vfOn (s : State) (k : Nat) (x : Seq) : (s.setSeq k x).vfOn = s.vfOn := rfl
@[simp] theorem State.setSeq_vfs (s : State) (k : Nat) (x : Seq) : (s.setSeq k x).vfs = s.vfs := rfl
@[simp] theorem State.setSeq_b4size (s : State) (k : Nat) (x : Seq) : (s.setSeq k x).b4size = s.b4size := rfl
@[simp] theorem State.setSeq_msixTab (s : State) (k : Nat) (x : Seq) : (s.setSeq k x).msixTab = s.msixTab := rfl
@[simp] theorem State.setSeq_unmask (s : State) (k : Nat) (x : Seq) : (s.setSeq k x).unmask = s.unmask := rfl
@[simp] theorem State.setSeq_pba (s : State) (k : Nat) (x : Seq) : (s.setSeq k x).pba = s.pba := rfl
@[simp] theorem State.setSeq_linkUp (s : State) (k : Nat) (x : Seq) : (s.setSeq k x).linkUp = s.linkUp := rfl
@[simp] theorem State.setSeq_boot (s : State) (k : Nat) (x : Seq) : (s.setSeq k x).boot = s.boot := rfl
@[simp] theorem State.setSeq_hostOrd (s : State) (k : Nat) (x : Seq) : (s.setSeq k x).hostOrd = s.hostOrd := rfl
@[simp] theorem State.setSeq_mgmtOrd (s : State) (k : Nat) (x : Seq) : (s.setSeq k x).mgmtOrd = s.mgmtOrd := rfl
@[simp] theorem State.setSeq_mgmtRes (s : State) (k : Nat) (x : Seq) : (s.setSeq k x).mgmtRes = s.mgmtRes := rfl
@[simp] theorem State.setSeq_won (s : State) (k : Nat) (x : Seq) : (s.setSeq k x).won = s.won := rfl
@[simp] theorem State.setSeq_ownHid (s : State) (k : Nat) (x : Seq) : (s.setSeq k x).ownHid = s.ownHid := rfl
@[simp] theorem State.setSeq_refclk (s : State) (k : Nat) (x : Seq) : (s.setSeq k x).refclk = s.refclk := rfl
@[simp] theorem State.setSeq_offBy (s : State) (k : Nat) (x : Seq) : (s.setSeq k x).offBy = s.offBy := rfl
@[simp] theorem State.setSeq_bootEvt (s : State) (k : Nat) (x : Seq) : (s.setSeq k x).bootEvt = s.bootEvt := rfl
@[simp] theorem State.setSeq_wasRun (s : State) (k : Nat) (x : Seq) : (s.setSeq k x).wasRun = s.wasRun := rfl
@[simp] theorem State.setSeq_rerun (s : State) (k : Nat) (x : Seq) : (s.setSeq k x).rerun = s.rerun := rfl
@[simp] theorem State.setSeq_halfBack (s : State) (k : Nat) (x : Seq) : (s.setSeq k x).halfBack = s.halfBack := rfl
@[simp] theorem State.setSeq_inHold (s : State) (k : Nat) (x : Seq) : (s.setSeq k x).inHold = s.inHold := rfl
@[simp] theorem State.setSeq_coolHold (s : State) (k : Nat) (x : Seq) : (s.setSeq k x).coolHold = s.coolHold := rfl
@[simp] theorem State.setSeq_leakHold (s : State) (k : Nat) (x : Seq) : (s.setSeq k x).leakHold = s.leakHold := rfl
@[simp] theorem State.setSeq_tripped (s : State) (k : Nat) (x : Seq) : (s.setSeq k x).tripped = s.tripped := rfl
@[simp] theorem State.setSeq_slotId (s : State) (k : Nat) (x : Seq) : (s.setSeq k x).slotId = s.slotId := rfl
@[simp] theorem State.setSeq_tid (s : State) (k : Nat) (x : Seq) : (s.setSeq k x).tid = s.tid := rfl
@[simp] theorem State.setSeq_eid (s : State) (k : Nat) (x : Seq) : (s.setSeq k x).eid = s.eid := rfl
@[simp] theorem State.setSeq_i3c (s : State) (k : Nat) (x : Seq) : (s.setSeq k x).i3c = s.i3c := rfl
@[simp] theorem State.setSeq_fw (s : State) (k : Nat) (x : Seq) : (s.setSeq k x).fw = s.fw := rfl
@[simp] theorem State.setSeq_picture (s : State) (k : Nat) (x : Seq) : (s.setSeq k x).picture = s.picture := rfl
@[simp] theorem State.setSeq_spdm (s : State) (k : Nat) (x : Seq) : (s.setSeq k x).spdm = s.spdm := rfl
@[simp] theorem State.setSeq_tokens (s : State) (k : Nat) (x : Seq) : (s.setSeq k x).tokens = s.tokens := rfl
@[simp] theorem State.setSeq_scaler (s : State) (k : Nat) (x : Seq) : (s.setSeq k x).scaler = s.scaler := rfl
@[simp] theorem State.setSeq_wire (s : State) (k : Nat) (x : Seq) : (s.setSeq k x).wire = s.wire := rfl
@[simp] theorem State.setSeq_meter (s : State) (k : Nat) (x : Seq) : (s.setSeq k x).meter = s.meter := rfl
@[simp] theorem State.setSeq_mtrRec (s : State) (k : Nat) (x : Seq) : (s.setSeq k x).mtrRec = s.mtrRec := rfl
@[simp] theorem State.setSeq_mtrLog (s : State) (k : Nat) (x : Seq) : (s.setSeq k x).mtrLog = s.mtrLog := rfl
@[simp] theorem State.setSeq_stmts (s : State) (k : Nat) (x : Seq) : (s.setSeq k x).stmts = s.stmts := rfl

/-! ## modSeq -/

@[simp] theorem State.modSeq_pending (s : State) (k : Nat) (g : Seq → Seq) : (s.modSeq k g).pending = s.pending := rfl
@[simp] theorem State.modSeq_out (s : State) (k : Nat) (g : Seq → Seq) : (s.modSeq k g).out = s.out := rfl
@[simp] theorem State.modSeq_now (s : State) (k : Nat) (g : Seq → Seq) : (s.modSeq k g).now = s.now := rfl
@[simp] theorem State.modSeq_tick0 (s : State) (k : Nat) (g : Seq → Seq) : (s.modSeq k g).tick0 = s.tick0 := rfl
@[simp] theorem State.modSeq_free (s : State) (k : Nat) (g : Seq → Seq) : (s.modSeq k g).free = s.free := rfl
@[simp] theorem State.modSeq_regs (s : State) (k : Nat) (g : Seq → Seq) : (s.modSeq k g).regs = s.regs := rfl
@[simp] theorem State.modSeq_shadow (s : State) (k : Nat) (g : Seq → Seq) : (s.modSeq k g).shadow = s.shadow := rfl
@[simp] theorem State.modSeq_mem (s : State) (k : Nat) (g : Seq → Seq) : (s.modSeq k g).mem = s.mem := rfl
@[simp] theorem State.modSeq_bad (s : State) (k : Nat) (g : Seq → Seq) : (s.modSeq k g).bad = s.bad := rfl
@[simp] theorem State.modSeq_soft (s : State) (k : Nat) (g : Seq → Seq) : (s.modSeq k g).soft = s.soft := rfl
@[simp] theorem State.modSeq_plist (s : State) (k : Nat) (g : Seq → Seq) : (s.modSeq k g).plist = s.plist := rfl
@[simp] theorem State.modSeq_linkErr (s : State) (k : Nat) (g : Seq → Seq) : (s.modSeq k g).linkErr = s.linkErr := rfl
@[simp] theorem State.modSeq_tiles (s : State) (k : Nat) (g : Seq → Seq) : (s.modSeq k g).tiles = s.tiles := rfl
@[simp] theorem State.modSeq_tileBad (s : State) (k : Nat) (g : Seq → Seq) : (s.modSeq k g).tileBad = s.tileBad := rfl
@[simp] theorem State.modSeq_tileSoft (s : State) (k : Nat) (g : Seq → Seq) : (s.modSeq k g).tileSoft = s.tileSoft := rfl
@[simp] theorem State.modSeq_pkts (s : State) (k : Nat) (g : Seq → Seq) : (s.modSeq k g).pkts = s.pkts := rfl
@[simp] theorem State.modSeq_pktNext (s : State) (k : Nat) (g : Seq → Seq) : (s.modSeq k g).pktNext = s.pktNext := rfl
@[simp] theorem State.modSeq_arrs (s : State) (k : Nat) (g : Seq → Seq) : (s.modSeq k g).arrs = s.arrs := rfl
@[simp] theorem State.modSeq_raft (s : State) (k : Nat) (g : Seq → Seq) : (s.modSeq k g).raft = s.raft := rfl
@[simp] theorem State.modSeq_saps (s : State) (k : Nat) (g : Seq → Seq) : (s.modSeq k g).saps = s.saps := rfl
@[simp] theorem State.modSeq_glzs (s : State) (k : Nat) (g : Seq → Seq) : (s.modSeq k g).glzs = s.glzs := rfl
@[simp] theorem State.modSeq_flumes (s : State) (k : Nat) (g : Seq → Seq) : (s.modSeq k g).flumes = s.flumes := rfl
@[simp] theorem State.modSeq_log (s : State) (k : Nat) (g : Seq → Seq) : (s.modSeq k g).log = s.log := rfl
@[simp] theorem State.modSeq_mfg (s : State) (k : Nat) (g : Seq → Seq) : (s.modSeq k g).mfg = s.mfg := rfl
@[simp] theorem State.modSeq_mfg1 (s : State) (k : Nat) (g : Seq → Seq) : (s.modSeq k g).mfg1 = s.mfg1 := rfl
@[simp] theorem State.modSeq_oldWin (s : State) (k : Nat) (g : Seq → Seq) : (s.modSeq k g).oldWin = s.oldWin := rfl
@[simp] theorem State.modSeq_halfRst (s : State) (k : Nat) (g : Seq → Seq) : (s.modSeq k g).halfRst = s.halfRst := rfl
@[simp] theorem State.modSeq_recov (s : State) (k : Nat) (g : Seq → Seq) : (s.modSeq k g).recov = s.recov := rfl
@[simp] theorem State.modSeq_dieRst (s : State) (k : Nat) (g : Seq → Seq) : (s.modSeq k g).dieRst = s.dieRst := rfl
@[simp] theorem State.modSeq_phaseIn (s : State) (k : Nat) (g : Seq → Seq) : (s.modSeq k g).phaseIn = s.phaseIn := rfl
@[simp] theorem State.modSeq_phaseOut (s : State) (k : Nat) (g : Seq → Seq) : (s.modSeq k g).phaseOut = s.phaseOut := rfl
@[simp] theorem State.modSeq_cutForce (s : State) (k : Nat) (g : Seq → Seq) : (s.modSeq k g).cutForce = s.cutForce := rfl
@[simp] theorem State.modSeq_cutPend (s : State) (k : Nat) (g : Seq → Seq) : (s.modSeq k g).cutPend = s.cutPend := rfl
@[simp] theorem State.modSeq_jobs (s : State) (k : Nat) (g : Seq → Seq) : (s.modSeq k g).jobs = s.jobs := rfl
@[simp] theorem State.modSeq_owed (s : State) (k : Nat) (g : Seq → Seq) : (s.modSeq k g).owed = s.owed := rfl
@[simp] theorem State.modSeq_redTx (s : State) (k : Nat) (g : Seq → Seq) : (s.modSeq k g).redTx = s.redTx := rfl
@[simp] theorem State.modSeq_redRx (s : State) (k : Nat) (g : Seq → Seq) : (s.modSeq k g).redRx = s.redRx := rfl
@[simp] theorem State.modSeq_sctlPend (s : State) (k : Nat) (g : Seq → Seq) : (s.modSeq k g).sctlPend = s.sctlPend := rfl
@[simp] theorem State.modSeq_scaleDue (s : State) (k : Nat) (g : Seq → Seq) : (s.modSeq k g).scaleDue = s.scaleDue := rfl
@[simp] theorem State.modSeq_pinEnd (s : State) (k : Nat) (g : Seq → Seq) : (s.modSeq k g).pinEnd = s.pinEnd := rfl
@[simp] theorem State.modSeq_refill (s : State) (k : Nat) (g : Seq → Seq) : (s.modSeq k g).refill = s.refill := rfl
@[simp] theorem State.modSeq_limitAt (s : State) (k : Nat) (g : Seq → Seq) : (s.modSeq k g).limitAt = s.limitAt := rfl
@[simp] theorem State.modSeq_unitAdm (s : State) (k : Nat) (g : Seq → Seq) : (s.modSeq k g).unitAdm = s.unitAdm := rfl
@[simp] theorem State.modSeq_hauls (s : State) (k : Nat) (g : Seq → Seq) : (s.modSeq k g).hauls = s.hauls := rfl
@[simp] theorem State.modSeq_haulTurn (s : State) (k : Nat) (g : Seq → Seq) : (s.modSeq k g).haulTurn = s.haulTurn := rfl
@[simp] theorem State.modSeq_ckpts (s : State) (k : Nat) (g : Seq → Seq) : (s.modSeq k g).ckpts = s.ckpts := rfl
@[simp] theorem State.modSeq_hrecs (s : State) (k : Nat) (g : Seq → Seq) : (s.modSeq k g).hrecs = s.hrecs := rfl
@[simp] theorem State.modSeq_quarLen (s : State) (k : Nat) (g : Seq → Seq) : (s.modSeq k g).quarLen = s.quarLen := rfl
@[simp] theorem State.modSeq_srcConn (s : State) (k : Nat) (g : Seq → Seq) : (s.modSeq k g).srcConn = s.srcConn := rfl
@[simp] theorem State.modSeq_idKeys (s : State) (k : Nat) (g : Seq → Seq) : (s.modSeq k g).idKeys = s.idKeys := rfl
@[simp] theorem State.modSeq_farKey (s : State) (k : Nat) (g : Seq → Seq) : (s.modSeq k g).farKey = s.farKey := rfl
@[simp] theorem State.modSeq_links (s : State) (k : Nat) (g : Seq → Seq) : (s.modSeq k g).links = s.links := rfl
@[simp] theorem State.modSeq_ethRate (s : State) (k : Nat) (g : Seq → Seq) : (s.modSeq k g).ethRate = s.ethRate := rfl
@[simp] theorem State.modSeq_ethPause (s : State) (k : Nat) (g : Seq → Seq) : (s.modSeq k g).ethPause = s.ethPause := rfl
@[simp] theorem State.modSeq_ethHeld (s : State) (k : Nat) (g : Seq → Seq) : (s.modSeq k g).ethHeld = s.ethHeld := rfl
@[simp] theorem State.modSeq_spn (s : State) (k : Nat) (g : Seq → Seq) : (s.modSeq k g).spn = s.spn := rfl
@[simp] theorem State.modSeq_spnBurst (s : State) (k : Nat) (g : Seq → Seq) : (s.modSeq k g).spnBurst = s.spnBurst := rfl
@[simp] theorem State.modSeq_spnTx (s : State) (k : Nat) (g : Seq → Seq) : (s.modSeq k g).spnTx = s.spnTx := rfl
@[simp] theorem State.modSeq_parts (s : State) (k : Nat) (g : Seq → Seq) : (s.modSeq k g).parts = s.parts := rfl
@[simp] theorem State.modSeq_sample (s : State) (k : Nat) (g : Seq → Seq) : (s.modSeq k g).sample = s.sample := rfl
@[simp] theorem State.modSeq_hbmHot (s : State) (k : Nat) (g : Seq → Seq) : (s.modSeq k g).hbmHot = s.hbmHot := rfl
@[simp] theorem State.modSeq_srings (s : State) (k : Nat) (g : Seq → Seq) : (s.modSeq k g).srings = s.srings := rfl
@[simp] theorem State.modSeq_crings (s : State) (k : Nat) (g : Seq → Seq) : (s.modSeq k g).crings = s.crings := rfl
@[simp] theorem State.modSeq_fetched (s : State) (k : Nat) (g : Seq → Seq) : (s.modSeq k g).fetched = s.fetched := rfl
@[simp] theorem State.modSeq_fns (s : State) (k : Nat) (g : Seq → Seq) : (s.modSeq k g).fns = s.fns := rfl
@[simp] theorem State.modSeq_vfOn (s : State) (k : Nat) (g : Seq → Seq) : (s.modSeq k g).vfOn = s.vfOn := rfl
@[simp] theorem State.modSeq_vfs (s : State) (k : Nat) (g : Seq → Seq) : (s.modSeq k g).vfs = s.vfs := rfl
@[simp] theorem State.modSeq_b4size (s : State) (k : Nat) (g : Seq → Seq) : (s.modSeq k g).b4size = s.b4size := rfl
@[simp] theorem State.modSeq_msixTab (s : State) (k : Nat) (g : Seq → Seq) : (s.modSeq k g).msixTab = s.msixTab := rfl
@[simp] theorem State.modSeq_unmask (s : State) (k : Nat) (g : Seq → Seq) : (s.modSeq k g).unmask = s.unmask := rfl
@[simp] theorem State.modSeq_pba (s : State) (k : Nat) (g : Seq → Seq) : (s.modSeq k g).pba = s.pba := rfl
@[simp] theorem State.modSeq_linkUp (s : State) (k : Nat) (g : Seq → Seq) : (s.modSeq k g).linkUp = s.linkUp := rfl
@[simp] theorem State.modSeq_boot (s : State) (k : Nat) (g : Seq → Seq) : (s.modSeq k g).boot = s.boot := rfl
@[simp] theorem State.modSeq_hostOrd (s : State) (k : Nat) (g : Seq → Seq) : (s.modSeq k g).hostOrd = s.hostOrd := rfl
@[simp] theorem State.modSeq_mgmtOrd (s : State) (k : Nat) (g : Seq → Seq) : (s.modSeq k g).mgmtOrd = s.mgmtOrd := rfl
@[simp] theorem State.modSeq_mgmtRes (s : State) (k : Nat) (g : Seq → Seq) : (s.modSeq k g).mgmtRes = s.mgmtRes := rfl
@[simp] theorem State.modSeq_won (s : State) (k : Nat) (g : Seq → Seq) : (s.modSeq k g).won = s.won := rfl
@[simp] theorem State.modSeq_ownHid (s : State) (k : Nat) (g : Seq → Seq) : (s.modSeq k g).ownHid = s.ownHid := rfl
@[simp] theorem State.modSeq_refclk (s : State) (k : Nat) (g : Seq → Seq) : (s.modSeq k g).refclk = s.refclk := rfl
@[simp] theorem State.modSeq_offBy (s : State) (k : Nat) (g : Seq → Seq) : (s.modSeq k g).offBy = s.offBy := rfl
@[simp] theorem State.modSeq_bootEvt (s : State) (k : Nat) (g : Seq → Seq) : (s.modSeq k g).bootEvt = s.bootEvt := rfl
@[simp] theorem State.modSeq_wasRun (s : State) (k : Nat) (g : Seq → Seq) : (s.modSeq k g).wasRun = s.wasRun := rfl
@[simp] theorem State.modSeq_rerun (s : State) (k : Nat) (g : Seq → Seq) : (s.modSeq k g).rerun = s.rerun := rfl
@[simp] theorem State.modSeq_halfBack (s : State) (k : Nat) (g : Seq → Seq) : (s.modSeq k g).halfBack = s.halfBack := rfl
@[simp] theorem State.modSeq_inHold (s : State) (k : Nat) (g : Seq → Seq) : (s.modSeq k g).inHold = s.inHold := rfl
@[simp] theorem State.modSeq_coolHold (s : State) (k : Nat) (g : Seq → Seq) : (s.modSeq k g).coolHold = s.coolHold := rfl
@[simp] theorem State.modSeq_leakHold (s : State) (k : Nat) (g : Seq → Seq) : (s.modSeq k g).leakHold = s.leakHold := rfl
@[simp] theorem State.modSeq_tripped (s : State) (k : Nat) (g : Seq → Seq) : (s.modSeq k g).tripped = s.tripped := rfl
@[simp] theorem State.modSeq_slotId (s : State) (k : Nat) (g : Seq → Seq) : (s.modSeq k g).slotId = s.slotId := rfl
@[simp] theorem State.modSeq_tid (s : State) (k : Nat) (g : Seq → Seq) : (s.modSeq k g).tid = s.tid := rfl
@[simp] theorem State.modSeq_eid (s : State) (k : Nat) (g : Seq → Seq) : (s.modSeq k g).eid = s.eid := rfl
@[simp] theorem State.modSeq_i3c (s : State) (k : Nat) (g : Seq → Seq) : (s.modSeq k g).i3c = s.i3c := rfl
@[simp] theorem State.modSeq_fw (s : State) (k : Nat) (g : Seq → Seq) : (s.modSeq k g).fw = s.fw := rfl
@[simp] theorem State.modSeq_picture (s : State) (k : Nat) (g : Seq → Seq) : (s.modSeq k g).picture = s.picture := rfl
@[simp] theorem State.modSeq_spdm (s : State) (k : Nat) (g : Seq → Seq) : (s.modSeq k g).spdm = s.spdm := rfl
@[simp] theorem State.modSeq_tokens (s : State) (k : Nat) (g : Seq → Seq) : (s.modSeq k g).tokens = s.tokens := rfl
@[simp] theorem State.modSeq_scaler (s : State) (k : Nat) (g : Seq → Seq) : (s.modSeq k g).scaler = s.scaler := rfl
@[simp] theorem State.modSeq_wire (s : State) (k : Nat) (g : Seq → Seq) : (s.modSeq k g).wire = s.wire := rfl
@[simp] theorem State.modSeq_meter (s : State) (k : Nat) (g : Seq → Seq) : (s.modSeq k g).meter = s.meter := rfl
@[simp] theorem State.modSeq_mtrRec (s : State) (k : Nat) (g : Seq → Seq) : (s.modSeq k g).mtrRec = s.mtrRec := rfl
@[simp] theorem State.modSeq_mtrLog (s : State) (k : Nat) (g : Seq → Seq) : (s.modSeq k g).mtrLog = s.mtrLog := rfl
@[simp] theorem State.modSeq_stmts (s : State) (k : Nat) (g : Seq → Seq) : (s.modSeq k g).stmts = s.stmts := rfl

/-! ## setArr -/

@[simp] theorem State.setArr_pending (s : State) (n a : Nat) (x : Arr) : (s.setArr n a x).pending = s.pending := rfl
@[simp] theorem State.setArr_out (s : State) (n a : Nat) (x : Arr) : (s.setArr n a x).out = s.out := rfl
@[simp] theorem State.setArr_now (s : State) (n a : Nat) (x : Arr) : (s.setArr n a x).now = s.now := rfl
@[simp] theorem State.setArr_tick0 (s : State) (n a : Nat) (x : Arr) : (s.setArr n a x).tick0 = s.tick0 := rfl
@[simp] theorem State.setArr_free (s : State) (n a : Nat) (x : Arr) : (s.setArr n a x).free = s.free := rfl
@[simp] theorem State.setArr_regs (s : State) (n a : Nat) (x : Arr) : (s.setArr n a x).regs = s.regs := rfl
@[simp] theorem State.setArr_shadow (s : State) (n a : Nat) (x : Arr) : (s.setArr n a x).shadow = s.shadow := rfl
@[simp] theorem State.setArr_mem (s : State) (n a : Nat) (x : Arr) : (s.setArr n a x).mem = s.mem := rfl
@[simp] theorem State.setArr_bad (s : State) (n a : Nat) (x : Arr) : (s.setArr n a x).bad = s.bad := rfl
@[simp] theorem State.setArr_soft (s : State) (n a : Nat) (x : Arr) : (s.setArr n a x).soft = s.soft := rfl
@[simp] theorem State.setArr_plist (s : State) (n a : Nat) (x : Arr) : (s.setArr n a x).plist = s.plist := rfl
@[simp] theorem State.setArr_linkErr (s : State) (n a : Nat) (x : Arr) : (s.setArr n a x).linkErr = s.linkErr := rfl
@[simp] theorem State.setArr_tiles (s : State) (n a : Nat) (x : Arr) : (s.setArr n a x).tiles = s.tiles := rfl
@[simp] theorem State.setArr_tileBad (s : State) (n a : Nat) (x : Arr) : (s.setArr n a x).tileBad = s.tileBad := rfl
@[simp] theorem State.setArr_tileSoft (s : State) (n a : Nat) (x : Arr) : (s.setArr n a x).tileSoft = s.tileSoft := rfl
@[simp] theorem State.setArr_pkts (s : State) (n a : Nat) (x : Arr) : (s.setArr n a x).pkts = s.pkts := rfl
@[simp] theorem State.setArr_pktNext (s : State) (n a : Nat) (x : Arr) : (s.setArr n a x).pktNext = s.pktNext := rfl
@[simp] theorem State.setArr_seqs (s : State) (n a : Nat) (x : Arr) : (s.setArr n a x).seqs = s.seqs := rfl
@[simp] theorem State.setArr_raft (s : State) (n a : Nat) (x : Arr) : (s.setArr n a x).raft = s.raft := rfl
@[simp] theorem State.setArr_saps (s : State) (n a : Nat) (x : Arr) : (s.setArr n a x).saps = s.saps := rfl
@[simp] theorem State.setArr_glzs (s : State) (n a : Nat) (x : Arr) : (s.setArr n a x).glzs = s.glzs := rfl
@[simp] theorem State.setArr_flumes (s : State) (n a : Nat) (x : Arr) : (s.setArr n a x).flumes = s.flumes := rfl
@[simp] theorem State.setArr_log (s : State) (n a : Nat) (x : Arr) : (s.setArr n a x).log = s.log := rfl
@[simp] theorem State.setArr_mfg (s : State) (n a : Nat) (x : Arr) : (s.setArr n a x).mfg = s.mfg := rfl
@[simp] theorem State.setArr_mfg1 (s : State) (n a : Nat) (x : Arr) : (s.setArr n a x).mfg1 = s.mfg1 := rfl
@[simp] theorem State.setArr_oldWin (s : State) (n a : Nat) (x : Arr) : (s.setArr n a x).oldWin = s.oldWin := rfl
@[simp] theorem State.setArr_halfRst (s : State) (n a : Nat) (x : Arr) : (s.setArr n a x).halfRst = s.halfRst := rfl
@[simp] theorem State.setArr_recov (s : State) (n a : Nat) (x : Arr) : (s.setArr n a x).recov = s.recov := rfl
@[simp] theorem State.setArr_dieRst (s : State) (n a : Nat) (x : Arr) : (s.setArr n a x).dieRst = s.dieRst := rfl
@[simp] theorem State.setArr_phaseIn (s : State) (n a : Nat) (x : Arr) : (s.setArr n a x).phaseIn = s.phaseIn := rfl
@[simp] theorem State.setArr_phaseOut (s : State) (n a : Nat) (x : Arr) : (s.setArr n a x).phaseOut = s.phaseOut := rfl
@[simp] theorem State.setArr_cutForce (s : State) (n a : Nat) (x : Arr) : (s.setArr n a x).cutForce = s.cutForce := rfl
@[simp] theorem State.setArr_cutPend (s : State) (n a : Nat) (x : Arr) : (s.setArr n a x).cutPend = s.cutPend := rfl
@[simp] theorem State.setArr_jobs (s : State) (n a : Nat) (x : Arr) : (s.setArr n a x).jobs = s.jobs := rfl
@[simp] theorem State.setArr_owed (s : State) (n a : Nat) (x : Arr) : (s.setArr n a x).owed = s.owed := rfl
@[simp] theorem State.setArr_redTx (s : State) (n a : Nat) (x : Arr) : (s.setArr n a x).redTx = s.redTx := rfl
@[simp] theorem State.setArr_redRx (s : State) (n a : Nat) (x : Arr) : (s.setArr n a x).redRx = s.redRx := rfl
@[simp] theorem State.setArr_sctlPend (s : State) (n a : Nat) (x : Arr) : (s.setArr n a x).sctlPend = s.sctlPend := rfl
@[simp] theorem State.setArr_scaleDue (s : State) (n a : Nat) (x : Arr) : (s.setArr n a x).scaleDue = s.scaleDue := rfl
@[simp] theorem State.setArr_pinEnd (s : State) (n a : Nat) (x : Arr) : (s.setArr n a x).pinEnd = s.pinEnd := rfl
@[simp] theorem State.setArr_refill (s : State) (n a : Nat) (x : Arr) : (s.setArr n a x).refill = s.refill := rfl
@[simp] theorem State.setArr_limitAt (s : State) (n a : Nat) (x : Arr) : (s.setArr n a x).limitAt = s.limitAt := rfl
@[simp] theorem State.setArr_unitAdm (s : State) (n a : Nat) (x : Arr) : (s.setArr n a x).unitAdm = s.unitAdm := rfl
@[simp] theorem State.setArr_hauls (s : State) (n a : Nat) (x : Arr) : (s.setArr n a x).hauls = s.hauls := rfl
@[simp] theorem State.setArr_haulTurn (s : State) (n a : Nat) (x : Arr) : (s.setArr n a x).haulTurn = s.haulTurn := rfl
@[simp] theorem State.setArr_ckpts (s : State) (n a : Nat) (x : Arr) : (s.setArr n a x).ckpts = s.ckpts := rfl
@[simp] theorem State.setArr_hrecs (s : State) (n a : Nat) (x : Arr) : (s.setArr n a x).hrecs = s.hrecs := rfl
@[simp] theorem State.setArr_quarLen (s : State) (n a : Nat) (x : Arr) : (s.setArr n a x).quarLen = s.quarLen := rfl
@[simp] theorem State.setArr_srcConn (s : State) (n a : Nat) (x : Arr) : (s.setArr n a x).srcConn = s.srcConn := rfl
@[simp] theorem State.setArr_idKeys (s : State) (n a : Nat) (x : Arr) : (s.setArr n a x).idKeys = s.idKeys := rfl
@[simp] theorem State.setArr_farKey (s : State) (n a : Nat) (x : Arr) : (s.setArr n a x).farKey = s.farKey := rfl
@[simp] theorem State.setArr_links (s : State) (n a : Nat) (x : Arr) : (s.setArr n a x).links = s.links := rfl
@[simp] theorem State.setArr_ethRate (s : State) (n a : Nat) (x : Arr) : (s.setArr n a x).ethRate = s.ethRate := rfl
@[simp] theorem State.setArr_ethPause (s : State) (n a : Nat) (x : Arr) : (s.setArr n a x).ethPause = s.ethPause := rfl
@[simp] theorem State.setArr_ethHeld (s : State) (n a : Nat) (x : Arr) : (s.setArr n a x).ethHeld = s.ethHeld := rfl
@[simp] theorem State.setArr_spn (s : State) (n a : Nat) (x : Arr) : (s.setArr n a x).spn = s.spn := rfl
@[simp] theorem State.setArr_spnBurst (s : State) (n a : Nat) (x : Arr) : (s.setArr n a x).spnBurst = s.spnBurst := rfl
@[simp] theorem State.setArr_spnTx (s : State) (n a : Nat) (x : Arr) : (s.setArr n a x).spnTx = s.spnTx := rfl
@[simp] theorem State.setArr_parts (s : State) (n a : Nat) (x : Arr) : (s.setArr n a x).parts = s.parts := rfl
@[simp] theorem State.setArr_sample (s : State) (n a : Nat) (x : Arr) : (s.setArr n a x).sample = s.sample := rfl
@[simp] theorem State.setArr_hbmHot (s : State) (n a : Nat) (x : Arr) : (s.setArr n a x).hbmHot = s.hbmHot := rfl
@[simp] theorem State.setArr_srings (s : State) (n a : Nat) (x : Arr) : (s.setArr n a x).srings = s.srings := rfl
@[simp] theorem State.setArr_crings (s : State) (n a : Nat) (x : Arr) : (s.setArr n a x).crings = s.crings := rfl
@[simp] theorem State.setArr_fetched (s : State) (n a : Nat) (x : Arr) : (s.setArr n a x).fetched = s.fetched := rfl
@[simp] theorem State.setArr_fns (s : State) (n a : Nat) (x : Arr) : (s.setArr n a x).fns = s.fns := rfl
@[simp] theorem State.setArr_vfOn (s : State) (n a : Nat) (x : Arr) : (s.setArr n a x).vfOn = s.vfOn := rfl
@[simp] theorem State.setArr_vfs (s : State) (n a : Nat) (x : Arr) : (s.setArr n a x).vfs = s.vfs := rfl
@[simp] theorem State.setArr_b4size (s : State) (n a : Nat) (x : Arr) : (s.setArr n a x).b4size = s.b4size := rfl
@[simp] theorem State.setArr_msixTab (s : State) (n a : Nat) (x : Arr) : (s.setArr n a x).msixTab = s.msixTab := rfl
@[simp] theorem State.setArr_unmask (s : State) (n a : Nat) (x : Arr) : (s.setArr n a x).unmask = s.unmask := rfl
@[simp] theorem State.setArr_pba (s : State) (n a : Nat) (x : Arr) : (s.setArr n a x).pba = s.pba := rfl
@[simp] theorem State.setArr_linkUp (s : State) (n a : Nat) (x : Arr) : (s.setArr n a x).linkUp = s.linkUp := rfl
@[simp] theorem State.setArr_boot (s : State) (n a : Nat) (x : Arr) : (s.setArr n a x).boot = s.boot := rfl
@[simp] theorem State.setArr_hostOrd (s : State) (n a : Nat) (x : Arr) : (s.setArr n a x).hostOrd = s.hostOrd := rfl
@[simp] theorem State.setArr_mgmtOrd (s : State) (n a : Nat) (x : Arr) : (s.setArr n a x).mgmtOrd = s.mgmtOrd := rfl
@[simp] theorem State.setArr_mgmtRes (s : State) (n a : Nat) (x : Arr) : (s.setArr n a x).mgmtRes = s.mgmtRes := rfl
@[simp] theorem State.setArr_won (s : State) (n a : Nat) (x : Arr) : (s.setArr n a x).won = s.won := rfl
@[simp] theorem State.setArr_ownHid (s : State) (n a : Nat) (x : Arr) : (s.setArr n a x).ownHid = s.ownHid := rfl
@[simp] theorem State.setArr_refclk (s : State) (n a : Nat) (x : Arr) : (s.setArr n a x).refclk = s.refclk := rfl
@[simp] theorem State.setArr_offBy (s : State) (n a : Nat) (x : Arr) : (s.setArr n a x).offBy = s.offBy := rfl
@[simp] theorem State.setArr_bootEvt (s : State) (n a : Nat) (x : Arr) : (s.setArr n a x).bootEvt = s.bootEvt := rfl
@[simp] theorem State.setArr_wasRun (s : State) (n a : Nat) (x : Arr) : (s.setArr n a x).wasRun = s.wasRun := rfl
@[simp] theorem State.setArr_rerun (s : State) (n a : Nat) (x : Arr) : (s.setArr n a x).rerun = s.rerun := rfl
@[simp] theorem State.setArr_halfBack (s : State) (n a : Nat) (x : Arr) : (s.setArr n a x).halfBack = s.halfBack := rfl
@[simp] theorem State.setArr_inHold (s : State) (n a : Nat) (x : Arr) : (s.setArr n a x).inHold = s.inHold := rfl
@[simp] theorem State.setArr_coolHold (s : State) (n a : Nat) (x : Arr) : (s.setArr n a x).coolHold = s.coolHold := rfl
@[simp] theorem State.setArr_leakHold (s : State) (n a : Nat) (x : Arr) : (s.setArr n a x).leakHold = s.leakHold := rfl
@[simp] theorem State.setArr_tripped (s : State) (n a : Nat) (x : Arr) : (s.setArr n a x).tripped = s.tripped := rfl
@[simp] theorem State.setArr_slotId (s : State) (n a : Nat) (x : Arr) : (s.setArr n a x).slotId = s.slotId := rfl
@[simp] theorem State.setArr_tid (s : State) (n a : Nat) (x : Arr) : (s.setArr n a x).tid = s.tid := rfl
@[simp] theorem State.setArr_eid (s : State) (n a : Nat) (x : Arr) : (s.setArr n a x).eid = s.eid := rfl
@[simp] theorem State.setArr_i3c (s : State) (n a : Nat) (x : Arr) : (s.setArr n a x).i3c = s.i3c := rfl
@[simp] theorem State.setArr_fw (s : State) (n a : Nat) (x : Arr) : (s.setArr n a x).fw = s.fw := rfl
@[simp] theorem State.setArr_picture (s : State) (n a : Nat) (x : Arr) : (s.setArr n a x).picture = s.picture := rfl
@[simp] theorem State.setArr_spdm (s : State) (n a : Nat) (x : Arr) : (s.setArr n a x).spdm = s.spdm := rfl
@[simp] theorem State.setArr_tokens (s : State) (n a : Nat) (x : Arr) : (s.setArr n a x).tokens = s.tokens := rfl
@[simp] theorem State.setArr_scaler (s : State) (n a : Nat) (x : Arr) : (s.setArr n a x).scaler = s.scaler := rfl
@[simp] theorem State.setArr_wire (s : State) (n a : Nat) (x : Arr) : (s.setArr n a x).wire = s.wire := rfl
@[simp] theorem State.setArr_meter (s : State) (n a : Nat) (x : Arr) : (s.setArr n a x).meter = s.meter := rfl
@[simp] theorem State.setArr_mtrRec (s : State) (n a : Nat) (x : Arr) : (s.setArr n a x).mtrRec = s.mtrRec := rfl
@[simp] theorem State.setArr_mtrLog (s : State) (n a : Nat) (x : Arr) : (s.setArr n a x).mtrLog = s.mtrLog := rfl
@[simp] theorem State.setArr_stmts (s : State) (n a : Nat) (x : Arr) : (s.setArr n a x).stmts = s.stmts := rfl

/-! ## setSap -/

@[simp] theorem State.setSap_pending (s : State) (n : Nat) (x : Sap) : (s.setSap n x).pending = s.pending := rfl
@[simp] theorem State.setSap_out (s : State) (n : Nat) (x : Sap) : (s.setSap n x).out = s.out := rfl
@[simp] theorem State.setSap_now (s : State) (n : Nat) (x : Sap) : (s.setSap n x).now = s.now := rfl
@[simp] theorem State.setSap_tick0 (s : State) (n : Nat) (x : Sap) : (s.setSap n x).tick0 = s.tick0 := rfl
@[simp] theorem State.setSap_free (s : State) (n : Nat) (x : Sap) : (s.setSap n x).free = s.free := rfl
@[simp] theorem State.setSap_regs (s : State) (n : Nat) (x : Sap) : (s.setSap n x).regs = s.regs := rfl
@[simp] theorem State.setSap_shadow (s : State) (n : Nat) (x : Sap) : (s.setSap n x).shadow = s.shadow := rfl
@[simp] theorem State.setSap_mem (s : State) (n : Nat) (x : Sap) : (s.setSap n x).mem = s.mem := rfl
@[simp] theorem State.setSap_bad (s : State) (n : Nat) (x : Sap) : (s.setSap n x).bad = s.bad := rfl
@[simp] theorem State.setSap_soft (s : State) (n : Nat) (x : Sap) : (s.setSap n x).soft = s.soft := rfl
@[simp] theorem State.setSap_plist (s : State) (n : Nat) (x : Sap) : (s.setSap n x).plist = s.plist := rfl
@[simp] theorem State.setSap_linkErr (s : State) (n : Nat) (x : Sap) : (s.setSap n x).linkErr = s.linkErr := rfl
@[simp] theorem State.setSap_tiles (s : State) (n : Nat) (x : Sap) : (s.setSap n x).tiles = s.tiles := rfl
@[simp] theorem State.setSap_tileBad (s : State) (n : Nat) (x : Sap) : (s.setSap n x).tileBad = s.tileBad := rfl
@[simp] theorem State.setSap_tileSoft (s : State) (n : Nat) (x : Sap) : (s.setSap n x).tileSoft = s.tileSoft := rfl
@[simp] theorem State.setSap_pkts (s : State) (n : Nat) (x : Sap) : (s.setSap n x).pkts = s.pkts := rfl
@[simp] theorem State.setSap_pktNext (s : State) (n : Nat) (x : Sap) : (s.setSap n x).pktNext = s.pktNext := rfl
@[simp] theorem State.setSap_seqs (s : State) (n : Nat) (x : Sap) : (s.setSap n x).seqs = s.seqs := rfl
@[simp] theorem State.setSap_arrs (s : State) (n : Nat) (x : Sap) : (s.setSap n x).arrs = s.arrs := rfl
@[simp] theorem State.setSap_raft (s : State) (n : Nat) (x : Sap) : (s.setSap n x).raft = s.raft := rfl
@[simp] theorem State.setSap_glzs (s : State) (n : Nat) (x : Sap) : (s.setSap n x).glzs = s.glzs := rfl
@[simp] theorem State.setSap_flumes (s : State) (n : Nat) (x : Sap) : (s.setSap n x).flumes = s.flumes := rfl
@[simp] theorem State.setSap_log (s : State) (n : Nat) (x : Sap) : (s.setSap n x).log = s.log := rfl
@[simp] theorem State.setSap_mfg (s : State) (n : Nat) (x : Sap) : (s.setSap n x).mfg = s.mfg := rfl
@[simp] theorem State.setSap_mfg1 (s : State) (n : Nat) (x : Sap) : (s.setSap n x).mfg1 = s.mfg1 := rfl
@[simp] theorem State.setSap_oldWin (s : State) (n : Nat) (x : Sap) : (s.setSap n x).oldWin = s.oldWin := rfl
@[simp] theorem State.setSap_halfRst (s : State) (n : Nat) (x : Sap) : (s.setSap n x).halfRst = s.halfRst := rfl
@[simp] theorem State.setSap_recov (s : State) (n : Nat) (x : Sap) : (s.setSap n x).recov = s.recov := rfl
@[simp] theorem State.setSap_dieRst (s : State) (n : Nat) (x : Sap) : (s.setSap n x).dieRst = s.dieRst := rfl
@[simp] theorem State.setSap_phaseIn (s : State) (n : Nat) (x : Sap) : (s.setSap n x).phaseIn = s.phaseIn := rfl
@[simp] theorem State.setSap_phaseOut (s : State) (n : Nat) (x : Sap) : (s.setSap n x).phaseOut = s.phaseOut := rfl
@[simp] theorem State.setSap_cutForce (s : State) (n : Nat) (x : Sap) : (s.setSap n x).cutForce = s.cutForce := rfl
@[simp] theorem State.setSap_cutPend (s : State) (n : Nat) (x : Sap) : (s.setSap n x).cutPend = s.cutPend := rfl
@[simp] theorem State.setSap_jobs (s : State) (n : Nat) (x : Sap) : (s.setSap n x).jobs = s.jobs := rfl
@[simp] theorem State.setSap_owed (s : State) (n : Nat) (x : Sap) : (s.setSap n x).owed = s.owed := rfl
@[simp] theorem State.setSap_redTx (s : State) (n : Nat) (x : Sap) : (s.setSap n x).redTx = s.redTx := rfl
@[simp] theorem State.setSap_redRx (s : State) (n : Nat) (x : Sap) : (s.setSap n x).redRx = s.redRx := rfl
@[simp] theorem State.setSap_sctlPend (s : State) (n : Nat) (x : Sap) : (s.setSap n x).sctlPend = s.sctlPend := rfl
@[simp] theorem State.setSap_scaleDue (s : State) (n : Nat) (x : Sap) : (s.setSap n x).scaleDue = s.scaleDue := rfl
@[simp] theorem State.setSap_pinEnd (s : State) (n : Nat) (x : Sap) : (s.setSap n x).pinEnd = s.pinEnd := rfl
@[simp] theorem State.setSap_refill (s : State) (n : Nat) (x : Sap) : (s.setSap n x).refill = s.refill := rfl
@[simp] theorem State.setSap_limitAt (s : State) (n : Nat) (x : Sap) : (s.setSap n x).limitAt = s.limitAt := rfl
@[simp] theorem State.setSap_unitAdm (s : State) (n : Nat) (x : Sap) : (s.setSap n x).unitAdm = s.unitAdm := rfl
@[simp] theorem State.setSap_hauls (s : State) (n : Nat) (x : Sap) : (s.setSap n x).hauls = s.hauls := rfl
@[simp] theorem State.setSap_haulTurn (s : State) (n : Nat) (x : Sap) : (s.setSap n x).haulTurn = s.haulTurn := rfl
@[simp] theorem State.setSap_ckpts (s : State) (n : Nat) (x : Sap) : (s.setSap n x).ckpts = s.ckpts := rfl
@[simp] theorem State.setSap_hrecs (s : State) (n : Nat) (x : Sap) : (s.setSap n x).hrecs = s.hrecs := rfl
@[simp] theorem State.setSap_quarLen (s : State) (n : Nat) (x : Sap) : (s.setSap n x).quarLen = s.quarLen := rfl
@[simp] theorem State.setSap_srcConn (s : State) (n : Nat) (x : Sap) : (s.setSap n x).srcConn = s.srcConn := rfl
@[simp] theorem State.setSap_idKeys (s : State) (n : Nat) (x : Sap) : (s.setSap n x).idKeys = s.idKeys := rfl
@[simp] theorem State.setSap_farKey (s : State) (n : Nat) (x : Sap) : (s.setSap n x).farKey = s.farKey := rfl
@[simp] theorem State.setSap_links (s : State) (n : Nat) (x : Sap) : (s.setSap n x).links = s.links := rfl
@[simp] theorem State.setSap_ethRate (s : State) (n : Nat) (x : Sap) : (s.setSap n x).ethRate = s.ethRate := rfl
@[simp] theorem State.setSap_ethPause (s : State) (n : Nat) (x : Sap) : (s.setSap n x).ethPause = s.ethPause := rfl
@[simp] theorem State.setSap_ethHeld (s : State) (n : Nat) (x : Sap) : (s.setSap n x).ethHeld = s.ethHeld := rfl
@[simp] theorem State.setSap_spn (s : State) (n : Nat) (x : Sap) : (s.setSap n x).spn = s.spn := rfl
@[simp] theorem State.setSap_spnBurst (s : State) (n : Nat) (x : Sap) : (s.setSap n x).spnBurst = s.spnBurst := rfl
@[simp] theorem State.setSap_spnTx (s : State) (n : Nat) (x : Sap) : (s.setSap n x).spnTx = s.spnTx := rfl
@[simp] theorem State.setSap_parts (s : State) (n : Nat) (x : Sap) : (s.setSap n x).parts = s.parts := rfl
@[simp] theorem State.setSap_sample (s : State) (n : Nat) (x : Sap) : (s.setSap n x).sample = s.sample := rfl
@[simp] theorem State.setSap_hbmHot (s : State) (n : Nat) (x : Sap) : (s.setSap n x).hbmHot = s.hbmHot := rfl
@[simp] theorem State.setSap_srings (s : State) (n : Nat) (x : Sap) : (s.setSap n x).srings = s.srings := rfl
@[simp] theorem State.setSap_crings (s : State) (n : Nat) (x : Sap) : (s.setSap n x).crings = s.crings := rfl
@[simp] theorem State.setSap_fetched (s : State) (n : Nat) (x : Sap) : (s.setSap n x).fetched = s.fetched := rfl
@[simp] theorem State.setSap_fns (s : State) (n : Nat) (x : Sap) : (s.setSap n x).fns = s.fns := rfl
@[simp] theorem State.setSap_vfOn (s : State) (n : Nat) (x : Sap) : (s.setSap n x).vfOn = s.vfOn := rfl
@[simp] theorem State.setSap_vfs (s : State) (n : Nat) (x : Sap) : (s.setSap n x).vfs = s.vfs := rfl
@[simp] theorem State.setSap_b4size (s : State) (n : Nat) (x : Sap) : (s.setSap n x).b4size = s.b4size := rfl
@[simp] theorem State.setSap_msixTab (s : State) (n : Nat) (x : Sap) : (s.setSap n x).msixTab = s.msixTab := rfl
@[simp] theorem State.setSap_unmask (s : State) (n : Nat) (x : Sap) : (s.setSap n x).unmask = s.unmask := rfl
@[simp] theorem State.setSap_pba (s : State) (n : Nat) (x : Sap) : (s.setSap n x).pba = s.pba := rfl
@[simp] theorem State.setSap_linkUp (s : State) (n : Nat) (x : Sap) : (s.setSap n x).linkUp = s.linkUp := rfl
@[simp] theorem State.setSap_boot (s : State) (n : Nat) (x : Sap) : (s.setSap n x).boot = s.boot := rfl
@[simp] theorem State.setSap_hostOrd (s : State) (n : Nat) (x : Sap) : (s.setSap n x).hostOrd = s.hostOrd := rfl
@[simp] theorem State.setSap_mgmtOrd (s : State) (n : Nat) (x : Sap) : (s.setSap n x).mgmtOrd = s.mgmtOrd := rfl
@[simp] theorem State.setSap_mgmtRes (s : State) (n : Nat) (x : Sap) : (s.setSap n x).mgmtRes = s.mgmtRes := rfl
@[simp] theorem State.setSap_won (s : State) (n : Nat) (x : Sap) : (s.setSap n x).won = s.won := rfl
@[simp] theorem State.setSap_ownHid (s : State) (n : Nat) (x : Sap) : (s.setSap n x).ownHid = s.ownHid := rfl
@[simp] theorem State.setSap_refclk (s : State) (n : Nat) (x : Sap) : (s.setSap n x).refclk = s.refclk := rfl
@[simp] theorem State.setSap_offBy (s : State) (n : Nat) (x : Sap) : (s.setSap n x).offBy = s.offBy := rfl
@[simp] theorem State.setSap_bootEvt (s : State) (n : Nat) (x : Sap) : (s.setSap n x).bootEvt = s.bootEvt := rfl
@[simp] theorem State.setSap_wasRun (s : State) (n : Nat) (x : Sap) : (s.setSap n x).wasRun = s.wasRun := rfl
@[simp] theorem State.setSap_rerun (s : State) (n : Nat) (x : Sap) : (s.setSap n x).rerun = s.rerun := rfl
@[simp] theorem State.setSap_halfBack (s : State) (n : Nat) (x : Sap) : (s.setSap n x).halfBack = s.halfBack := rfl
@[simp] theorem State.setSap_inHold (s : State) (n : Nat) (x : Sap) : (s.setSap n x).inHold = s.inHold := rfl
@[simp] theorem State.setSap_coolHold (s : State) (n : Nat) (x : Sap) : (s.setSap n x).coolHold = s.coolHold := rfl
@[simp] theorem State.setSap_leakHold (s : State) (n : Nat) (x : Sap) : (s.setSap n x).leakHold = s.leakHold := rfl
@[simp] theorem State.setSap_tripped (s : State) (n : Nat) (x : Sap) : (s.setSap n x).tripped = s.tripped := rfl
@[simp] theorem State.setSap_slotId (s : State) (n : Nat) (x : Sap) : (s.setSap n x).slotId = s.slotId := rfl
@[simp] theorem State.setSap_tid (s : State) (n : Nat) (x : Sap) : (s.setSap n x).tid = s.tid := rfl
@[simp] theorem State.setSap_eid (s : State) (n : Nat) (x : Sap) : (s.setSap n x).eid = s.eid := rfl
@[simp] theorem State.setSap_i3c (s : State) (n : Nat) (x : Sap) : (s.setSap n x).i3c = s.i3c := rfl
@[simp] theorem State.setSap_fw (s : State) (n : Nat) (x : Sap) : (s.setSap n x).fw = s.fw := rfl
@[simp] theorem State.setSap_picture (s : State) (n : Nat) (x : Sap) : (s.setSap n x).picture = s.picture := rfl
@[simp] theorem State.setSap_spdm (s : State) (n : Nat) (x : Sap) : (s.setSap n x).spdm = s.spdm := rfl
@[simp] theorem State.setSap_tokens (s : State) (n : Nat) (x : Sap) : (s.setSap n x).tokens = s.tokens := rfl
@[simp] theorem State.setSap_scaler (s : State) (n : Nat) (x : Sap) : (s.setSap n x).scaler = s.scaler := rfl
@[simp] theorem State.setSap_wire (s : State) (n : Nat) (x : Sap) : (s.setSap n x).wire = s.wire := rfl
@[simp] theorem State.setSap_meter (s : State) (n : Nat) (x : Sap) : (s.setSap n x).meter = s.meter := rfl
@[simp] theorem State.setSap_mtrRec (s : State) (n : Nat) (x : Sap) : (s.setSap n x).mtrRec = s.mtrRec := rfl
@[simp] theorem State.setSap_mtrLog (s : State) (n : Nat) (x : Sap) : (s.setSap n x).mtrLog = s.mtrLog := rfl
@[simp] theorem State.setSap_stmts (s : State) (n : Nat) (x : Sap) : (s.setSap n x).stmts = s.stmts := rfl

/-! ## setGlz -/

@[simp] theorem State.setGlz_pending (s : State) (n v : Nat) (x : Glz) : (s.setGlz n v x).pending = s.pending := rfl
@[simp] theorem State.setGlz_out (s : State) (n v : Nat) (x : Glz) : (s.setGlz n v x).out = s.out := rfl
@[simp] theorem State.setGlz_now (s : State) (n v : Nat) (x : Glz) : (s.setGlz n v x).now = s.now := rfl
@[simp] theorem State.setGlz_tick0 (s : State) (n v : Nat) (x : Glz) : (s.setGlz n v x).tick0 = s.tick0 := rfl
@[simp] theorem State.setGlz_free (s : State) (n v : Nat) (x : Glz) : (s.setGlz n v x).free = s.free := rfl
@[simp] theorem State.setGlz_regs (s : State) (n v : Nat) (x : Glz) : (s.setGlz n v x).regs = s.regs := rfl
@[simp] theorem State.setGlz_shadow (s : State) (n v : Nat) (x : Glz) : (s.setGlz n v x).shadow = s.shadow := rfl
@[simp] theorem State.setGlz_mem (s : State) (n v : Nat) (x : Glz) : (s.setGlz n v x).mem = s.mem := rfl
@[simp] theorem State.setGlz_bad (s : State) (n v : Nat) (x : Glz) : (s.setGlz n v x).bad = s.bad := rfl
@[simp] theorem State.setGlz_soft (s : State) (n v : Nat) (x : Glz) : (s.setGlz n v x).soft = s.soft := rfl
@[simp] theorem State.setGlz_plist (s : State) (n v : Nat) (x : Glz) : (s.setGlz n v x).plist = s.plist := rfl
@[simp] theorem State.setGlz_linkErr (s : State) (n v : Nat) (x : Glz) : (s.setGlz n v x).linkErr = s.linkErr := rfl
@[simp] theorem State.setGlz_tiles (s : State) (n v : Nat) (x : Glz) : (s.setGlz n v x).tiles = s.tiles := rfl
@[simp] theorem State.setGlz_tileBad (s : State) (n v : Nat) (x : Glz) : (s.setGlz n v x).tileBad = s.tileBad := rfl
@[simp] theorem State.setGlz_tileSoft (s : State) (n v : Nat) (x : Glz) : (s.setGlz n v x).tileSoft = s.tileSoft := rfl
@[simp] theorem State.setGlz_pkts (s : State) (n v : Nat) (x : Glz) : (s.setGlz n v x).pkts = s.pkts := rfl
@[simp] theorem State.setGlz_pktNext (s : State) (n v : Nat) (x : Glz) : (s.setGlz n v x).pktNext = s.pktNext := rfl
@[simp] theorem State.setGlz_seqs (s : State) (n v : Nat) (x : Glz) : (s.setGlz n v x).seqs = s.seqs := rfl
@[simp] theorem State.setGlz_arrs (s : State) (n v : Nat) (x : Glz) : (s.setGlz n v x).arrs = s.arrs := rfl
@[simp] theorem State.setGlz_raft (s : State) (n v : Nat) (x : Glz) : (s.setGlz n v x).raft = s.raft := rfl
@[simp] theorem State.setGlz_saps (s : State) (n v : Nat) (x : Glz) : (s.setGlz n v x).saps = s.saps := rfl
@[simp] theorem State.setGlz_flumes (s : State) (n v : Nat) (x : Glz) : (s.setGlz n v x).flumes = s.flumes := rfl
@[simp] theorem State.setGlz_log (s : State) (n v : Nat) (x : Glz) : (s.setGlz n v x).log = s.log := rfl
@[simp] theorem State.setGlz_mfg (s : State) (n v : Nat) (x : Glz) : (s.setGlz n v x).mfg = s.mfg := rfl
@[simp] theorem State.setGlz_mfg1 (s : State) (n v : Nat) (x : Glz) : (s.setGlz n v x).mfg1 = s.mfg1 := rfl
@[simp] theorem State.setGlz_oldWin (s : State) (n v : Nat) (x : Glz) : (s.setGlz n v x).oldWin = s.oldWin := rfl
@[simp] theorem State.setGlz_halfRst (s : State) (n v : Nat) (x : Glz) : (s.setGlz n v x).halfRst = s.halfRst := rfl
@[simp] theorem State.setGlz_recov (s : State) (n v : Nat) (x : Glz) : (s.setGlz n v x).recov = s.recov := rfl
@[simp] theorem State.setGlz_dieRst (s : State) (n v : Nat) (x : Glz) : (s.setGlz n v x).dieRst = s.dieRst := rfl
@[simp] theorem State.setGlz_phaseIn (s : State) (n v : Nat) (x : Glz) : (s.setGlz n v x).phaseIn = s.phaseIn := rfl
@[simp] theorem State.setGlz_phaseOut (s : State) (n v : Nat) (x : Glz) : (s.setGlz n v x).phaseOut = s.phaseOut := rfl
@[simp] theorem State.setGlz_cutForce (s : State) (n v : Nat) (x : Glz) : (s.setGlz n v x).cutForce = s.cutForce := rfl
@[simp] theorem State.setGlz_cutPend (s : State) (n v : Nat) (x : Glz) : (s.setGlz n v x).cutPend = s.cutPend := rfl
@[simp] theorem State.setGlz_jobs (s : State) (n v : Nat) (x : Glz) : (s.setGlz n v x).jobs = s.jobs := rfl
@[simp] theorem State.setGlz_owed (s : State) (n v : Nat) (x : Glz) : (s.setGlz n v x).owed = s.owed := rfl
@[simp] theorem State.setGlz_redTx (s : State) (n v : Nat) (x : Glz) : (s.setGlz n v x).redTx = s.redTx := rfl
@[simp] theorem State.setGlz_redRx (s : State) (n v : Nat) (x : Glz) : (s.setGlz n v x).redRx = s.redRx := rfl
@[simp] theorem State.setGlz_sctlPend (s : State) (n v : Nat) (x : Glz) : (s.setGlz n v x).sctlPend = s.sctlPend := rfl
@[simp] theorem State.setGlz_scaleDue (s : State) (n v : Nat) (x : Glz) : (s.setGlz n v x).scaleDue = s.scaleDue := rfl
@[simp] theorem State.setGlz_pinEnd (s : State) (n v : Nat) (x : Glz) : (s.setGlz n v x).pinEnd = s.pinEnd := rfl
@[simp] theorem State.setGlz_refill (s : State) (n v : Nat) (x : Glz) : (s.setGlz n v x).refill = s.refill := rfl
@[simp] theorem State.setGlz_limitAt (s : State) (n v : Nat) (x : Glz) : (s.setGlz n v x).limitAt = s.limitAt := rfl
@[simp] theorem State.setGlz_unitAdm (s : State) (n v : Nat) (x : Glz) : (s.setGlz n v x).unitAdm = s.unitAdm := rfl
@[simp] theorem State.setGlz_hauls (s : State) (n v : Nat) (x : Glz) : (s.setGlz n v x).hauls = s.hauls := rfl
@[simp] theorem State.setGlz_haulTurn (s : State) (n v : Nat) (x : Glz) : (s.setGlz n v x).haulTurn = s.haulTurn := rfl
@[simp] theorem State.setGlz_ckpts (s : State) (n v : Nat) (x : Glz) : (s.setGlz n v x).ckpts = s.ckpts := rfl
@[simp] theorem State.setGlz_hrecs (s : State) (n v : Nat) (x : Glz) : (s.setGlz n v x).hrecs = s.hrecs := rfl
@[simp] theorem State.setGlz_quarLen (s : State) (n v : Nat) (x : Glz) : (s.setGlz n v x).quarLen = s.quarLen := rfl
@[simp] theorem State.setGlz_srcConn (s : State) (n v : Nat) (x : Glz) : (s.setGlz n v x).srcConn = s.srcConn := rfl
@[simp] theorem State.setGlz_idKeys (s : State) (n v : Nat) (x : Glz) : (s.setGlz n v x).idKeys = s.idKeys := rfl
@[simp] theorem State.setGlz_farKey (s : State) (n v : Nat) (x : Glz) : (s.setGlz n v x).farKey = s.farKey := rfl
@[simp] theorem State.setGlz_links (s : State) (n v : Nat) (x : Glz) : (s.setGlz n v x).links = s.links := rfl
@[simp] theorem State.setGlz_ethRate (s : State) (n v : Nat) (x : Glz) : (s.setGlz n v x).ethRate = s.ethRate := rfl
@[simp] theorem State.setGlz_ethPause (s : State) (n v : Nat) (x : Glz) : (s.setGlz n v x).ethPause = s.ethPause := rfl
@[simp] theorem State.setGlz_ethHeld (s : State) (n v : Nat) (x : Glz) : (s.setGlz n v x).ethHeld = s.ethHeld := rfl
@[simp] theorem State.setGlz_spn (s : State) (n v : Nat) (x : Glz) : (s.setGlz n v x).spn = s.spn := rfl
@[simp] theorem State.setGlz_spnBurst (s : State) (n v : Nat) (x : Glz) : (s.setGlz n v x).spnBurst = s.spnBurst := rfl
@[simp] theorem State.setGlz_spnTx (s : State) (n v : Nat) (x : Glz) : (s.setGlz n v x).spnTx = s.spnTx := rfl
@[simp] theorem State.setGlz_parts (s : State) (n v : Nat) (x : Glz) : (s.setGlz n v x).parts = s.parts := rfl
@[simp] theorem State.setGlz_sample (s : State) (n v : Nat) (x : Glz) : (s.setGlz n v x).sample = s.sample := rfl
@[simp] theorem State.setGlz_hbmHot (s : State) (n v : Nat) (x : Glz) : (s.setGlz n v x).hbmHot = s.hbmHot := rfl
@[simp] theorem State.setGlz_srings (s : State) (n v : Nat) (x : Glz) : (s.setGlz n v x).srings = s.srings := rfl
@[simp] theorem State.setGlz_crings (s : State) (n v : Nat) (x : Glz) : (s.setGlz n v x).crings = s.crings := rfl
@[simp] theorem State.setGlz_fetched (s : State) (n v : Nat) (x : Glz) : (s.setGlz n v x).fetched = s.fetched := rfl
@[simp] theorem State.setGlz_fns (s : State) (n v : Nat) (x : Glz) : (s.setGlz n v x).fns = s.fns := rfl
@[simp] theorem State.setGlz_vfOn (s : State) (n v : Nat) (x : Glz) : (s.setGlz n v x).vfOn = s.vfOn := rfl
@[simp] theorem State.setGlz_vfs (s : State) (n v : Nat) (x : Glz) : (s.setGlz n v x).vfs = s.vfs := rfl
@[simp] theorem State.setGlz_b4size (s : State) (n v : Nat) (x : Glz) : (s.setGlz n v x).b4size = s.b4size := rfl
@[simp] theorem State.setGlz_msixTab (s : State) (n v : Nat) (x : Glz) : (s.setGlz n v x).msixTab = s.msixTab := rfl
@[simp] theorem State.setGlz_unmask (s : State) (n v : Nat) (x : Glz) : (s.setGlz n v x).unmask = s.unmask := rfl
@[simp] theorem State.setGlz_pba (s : State) (n v : Nat) (x : Glz) : (s.setGlz n v x).pba = s.pba := rfl
@[simp] theorem State.setGlz_linkUp (s : State) (n v : Nat) (x : Glz) : (s.setGlz n v x).linkUp = s.linkUp := rfl
@[simp] theorem State.setGlz_boot (s : State) (n v : Nat) (x : Glz) : (s.setGlz n v x).boot = s.boot := rfl
@[simp] theorem State.setGlz_hostOrd (s : State) (n v : Nat) (x : Glz) : (s.setGlz n v x).hostOrd = s.hostOrd := rfl
@[simp] theorem State.setGlz_mgmtOrd (s : State) (n v : Nat) (x : Glz) : (s.setGlz n v x).mgmtOrd = s.mgmtOrd := rfl
@[simp] theorem State.setGlz_mgmtRes (s : State) (n v : Nat) (x : Glz) : (s.setGlz n v x).mgmtRes = s.mgmtRes := rfl
@[simp] theorem State.setGlz_won (s : State) (n v : Nat) (x : Glz) : (s.setGlz n v x).won = s.won := rfl
@[simp] theorem State.setGlz_ownHid (s : State) (n v : Nat) (x : Glz) : (s.setGlz n v x).ownHid = s.ownHid := rfl
@[simp] theorem State.setGlz_refclk (s : State) (n v : Nat) (x : Glz) : (s.setGlz n v x).refclk = s.refclk := rfl
@[simp] theorem State.setGlz_offBy (s : State) (n v : Nat) (x : Glz) : (s.setGlz n v x).offBy = s.offBy := rfl
@[simp] theorem State.setGlz_bootEvt (s : State) (n v : Nat) (x : Glz) : (s.setGlz n v x).bootEvt = s.bootEvt := rfl
@[simp] theorem State.setGlz_wasRun (s : State) (n v : Nat) (x : Glz) : (s.setGlz n v x).wasRun = s.wasRun := rfl
@[simp] theorem State.setGlz_rerun (s : State) (n v : Nat) (x : Glz) : (s.setGlz n v x).rerun = s.rerun := rfl
@[simp] theorem State.setGlz_halfBack (s : State) (n v : Nat) (x : Glz) : (s.setGlz n v x).halfBack = s.halfBack := rfl
@[simp] theorem State.setGlz_inHold (s : State) (n v : Nat) (x : Glz) : (s.setGlz n v x).inHold = s.inHold := rfl
@[simp] theorem State.setGlz_coolHold (s : State) (n v : Nat) (x : Glz) : (s.setGlz n v x).coolHold = s.coolHold := rfl
@[simp] theorem State.setGlz_leakHold (s : State) (n v : Nat) (x : Glz) : (s.setGlz n v x).leakHold = s.leakHold := rfl
@[simp] theorem State.setGlz_tripped (s : State) (n v : Nat) (x : Glz) : (s.setGlz n v x).tripped = s.tripped := rfl
@[simp] theorem State.setGlz_slotId (s : State) (n v : Nat) (x : Glz) : (s.setGlz n v x).slotId = s.slotId := rfl
@[simp] theorem State.setGlz_tid (s : State) (n v : Nat) (x : Glz) : (s.setGlz n v x).tid = s.tid := rfl
@[simp] theorem State.setGlz_eid (s : State) (n v : Nat) (x : Glz) : (s.setGlz n v x).eid = s.eid := rfl
@[simp] theorem State.setGlz_i3c (s : State) (n v : Nat) (x : Glz) : (s.setGlz n v x).i3c = s.i3c := rfl
@[simp] theorem State.setGlz_fw (s : State) (n v : Nat) (x : Glz) : (s.setGlz n v x).fw = s.fw := rfl
@[simp] theorem State.setGlz_picture (s : State) (n v : Nat) (x : Glz) : (s.setGlz n v x).picture = s.picture := rfl
@[simp] theorem State.setGlz_spdm (s : State) (n v : Nat) (x : Glz) : (s.setGlz n v x).spdm = s.spdm := rfl
@[simp] theorem State.setGlz_tokens (s : State) (n v : Nat) (x : Glz) : (s.setGlz n v x).tokens = s.tokens := rfl
@[simp] theorem State.setGlz_scaler (s : State) (n v : Nat) (x : Glz) : (s.setGlz n v x).scaler = s.scaler := rfl
@[simp] theorem State.setGlz_wire (s : State) (n v : Nat) (x : Glz) : (s.setGlz n v x).wire = s.wire := rfl
@[simp] theorem State.setGlz_meter (s : State) (n v : Nat) (x : Glz) : (s.setGlz n v x).meter = s.meter := rfl
@[simp] theorem State.setGlz_mtrRec (s : State) (n v : Nat) (x : Glz) : (s.setGlz n v x).mtrRec = s.mtrRec := rfl
@[simp] theorem State.setGlz_mtrLog (s : State) (n v : Nat) (x : Glz) : (s.setGlz n v x).mtrLog = s.mtrLog := rfl
@[simp] theorem State.setGlz_stmts (s : State) (n v : Nat) (x : Glz) : (s.setGlz n v x).stmts = s.stmts := rfl

/-! ## setFlume -/

@[simp] theorem State.setFlume_pending (s : State) (f : Nat) (x : Flume) : (s.setFlume f x).pending = s.pending := rfl
@[simp] theorem State.setFlume_out (s : State) (f : Nat) (x : Flume) : (s.setFlume f x).out = s.out := rfl
@[simp] theorem State.setFlume_now (s : State) (f : Nat) (x : Flume) : (s.setFlume f x).now = s.now := rfl
@[simp] theorem State.setFlume_tick0 (s : State) (f : Nat) (x : Flume) : (s.setFlume f x).tick0 = s.tick0 := rfl
@[simp] theorem State.setFlume_free (s : State) (f : Nat) (x : Flume) : (s.setFlume f x).free = s.free := rfl
@[simp] theorem State.setFlume_regs (s : State) (f : Nat) (x : Flume) : (s.setFlume f x).regs = s.regs := rfl
@[simp] theorem State.setFlume_shadow (s : State) (f : Nat) (x : Flume) : (s.setFlume f x).shadow = s.shadow := rfl
@[simp] theorem State.setFlume_mem (s : State) (f : Nat) (x : Flume) : (s.setFlume f x).mem = s.mem := rfl
@[simp] theorem State.setFlume_bad (s : State) (f : Nat) (x : Flume) : (s.setFlume f x).bad = s.bad := rfl
@[simp] theorem State.setFlume_soft (s : State) (f : Nat) (x : Flume) : (s.setFlume f x).soft = s.soft := rfl
@[simp] theorem State.setFlume_plist (s : State) (f : Nat) (x : Flume) : (s.setFlume f x).plist = s.plist := rfl
@[simp] theorem State.setFlume_linkErr (s : State) (f : Nat) (x : Flume) : (s.setFlume f x).linkErr = s.linkErr := rfl
@[simp] theorem State.setFlume_tiles (s : State) (f : Nat) (x : Flume) : (s.setFlume f x).tiles = s.tiles := rfl
@[simp] theorem State.setFlume_tileBad (s : State) (f : Nat) (x : Flume) : (s.setFlume f x).tileBad = s.tileBad := rfl
@[simp] theorem State.setFlume_tileSoft (s : State) (f : Nat) (x : Flume) : (s.setFlume f x).tileSoft = s.tileSoft := rfl
@[simp] theorem State.setFlume_pkts (s : State) (f : Nat) (x : Flume) : (s.setFlume f x).pkts = s.pkts := rfl
@[simp] theorem State.setFlume_pktNext (s : State) (f : Nat) (x : Flume) : (s.setFlume f x).pktNext = s.pktNext := rfl
@[simp] theorem State.setFlume_seqs (s : State) (f : Nat) (x : Flume) : (s.setFlume f x).seqs = s.seqs := rfl
@[simp] theorem State.setFlume_arrs (s : State) (f : Nat) (x : Flume) : (s.setFlume f x).arrs = s.arrs := rfl
@[simp] theorem State.setFlume_raft (s : State) (f : Nat) (x : Flume) : (s.setFlume f x).raft = s.raft := rfl
@[simp] theorem State.setFlume_saps (s : State) (f : Nat) (x : Flume) : (s.setFlume f x).saps = s.saps := rfl
@[simp] theorem State.setFlume_glzs (s : State) (f : Nat) (x : Flume) : (s.setFlume f x).glzs = s.glzs := rfl
@[simp] theorem State.setFlume_log (s : State) (f : Nat) (x : Flume) : (s.setFlume f x).log = s.log := rfl
@[simp] theorem State.setFlume_mfg (s : State) (f : Nat) (x : Flume) : (s.setFlume f x).mfg = s.mfg := rfl
@[simp] theorem State.setFlume_mfg1 (s : State) (f : Nat) (x : Flume) : (s.setFlume f x).mfg1 = s.mfg1 := rfl
@[simp] theorem State.setFlume_oldWin (s : State) (f : Nat) (x : Flume) : (s.setFlume f x).oldWin = s.oldWin := rfl
@[simp] theorem State.setFlume_halfRst (s : State) (f : Nat) (x : Flume) : (s.setFlume f x).halfRst = s.halfRst := rfl
@[simp] theorem State.setFlume_recov (s : State) (f : Nat) (x : Flume) : (s.setFlume f x).recov = s.recov := rfl
@[simp] theorem State.setFlume_dieRst (s : State) (f : Nat) (x : Flume) : (s.setFlume f x).dieRst = s.dieRst := rfl
@[simp] theorem State.setFlume_phaseIn (s : State) (f : Nat) (x : Flume) : (s.setFlume f x).phaseIn = s.phaseIn := rfl
@[simp] theorem State.setFlume_phaseOut (s : State) (f : Nat) (x : Flume) : (s.setFlume f x).phaseOut = s.phaseOut := rfl
@[simp] theorem State.setFlume_cutForce (s : State) (f : Nat) (x : Flume) : (s.setFlume f x).cutForce = s.cutForce := rfl
@[simp] theorem State.setFlume_cutPend (s : State) (f : Nat) (x : Flume) : (s.setFlume f x).cutPend = s.cutPend := rfl
@[simp] theorem State.setFlume_jobs (s : State) (f : Nat) (x : Flume) : (s.setFlume f x).jobs = s.jobs := rfl
@[simp] theorem State.setFlume_owed (s : State) (f : Nat) (x : Flume) : (s.setFlume f x).owed = s.owed := rfl
@[simp] theorem State.setFlume_redTx (s : State) (f : Nat) (x : Flume) : (s.setFlume f x).redTx = s.redTx := rfl
@[simp] theorem State.setFlume_redRx (s : State) (f : Nat) (x : Flume) : (s.setFlume f x).redRx = s.redRx := rfl
@[simp] theorem State.setFlume_sctlPend (s : State) (f : Nat) (x : Flume) : (s.setFlume f x).sctlPend = s.sctlPend := rfl
@[simp] theorem State.setFlume_scaleDue (s : State) (f : Nat) (x : Flume) : (s.setFlume f x).scaleDue = s.scaleDue := rfl
@[simp] theorem State.setFlume_pinEnd (s : State) (f : Nat) (x : Flume) : (s.setFlume f x).pinEnd = s.pinEnd := rfl
@[simp] theorem State.setFlume_refill (s : State) (f : Nat) (x : Flume) : (s.setFlume f x).refill = s.refill := rfl
@[simp] theorem State.setFlume_limitAt (s : State) (f : Nat) (x : Flume) : (s.setFlume f x).limitAt = s.limitAt := rfl
@[simp] theorem State.setFlume_unitAdm (s : State) (f : Nat) (x : Flume) : (s.setFlume f x).unitAdm = s.unitAdm := rfl
@[simp] theorem State.setFlume_hauls (s : State) (f : Nat) (x : Flume) : (s.setFlume f x).hauls = s.hauls := rfl
@[simp] theorem State.setFlume_haulTurn (s : State) (f : Nat) (x : Flume) : (s.setFlume f x).haulTurn = s.haulTurn := rfl
@[simp] theorem State.setFlume_ckpts (s : State) (f : Nat) (x : Flume) : (s.setFlume f x).ckpts = s.ckpts := rfl
@[simp] theorem State.setFlume_hrecs (s : State) (f : Nat) (x : Flume) : (s.setFlume f x).hrecs = s.hrecs := rfl
@[simp] theorem State.setFlume_quarLen (s : State) (f : Nat) (x : Flume) : (s.setFlume f x).quarLen = s.quarLen := rfl
@[simp] theorem State.setFlume_srcConn (s : State) (f : Nat) (x : Flume) : (s.setFlume f x).srcConn = s.srcConn := rfl
@[simp] theorem State.setFlume_idKeys (s : State) (f : Nat) (x : Flume) : (s.setFlume f x).idKeys = s.idKeys := rfl
@[simp] theorem State.setFlume_farKey (s : State) (f : Nat) (x : Flume) : (s.setFlume f x).farKey = s.farKey := rfl
@[simp] theorem State.setFlume_links (s : State) (f : Nat) (x : Flume) : (s.setFlume f x).links = s.links := rfl
@[simp] theorem State.setFlume_ethRate (s : State) (f : Nat) (x : Flume) : (s.setFlume f x).ethRate = s.ethRate := rfl
@[simp] theorem State.setFlume_ethPause (s : State) (f : Nat) (x : Flume) : (s.setFlume f x).ethPause = s.ethPause := rfl
@[simp] theorem State.setFlume_ethHeld (s : State) (f : Nat) (x : Flume) : (s.setFlume f x).ethHeld = s.ethHeld := rfl
@[simp] theorem State.setFlume_spn (s : State) (f : Nat) (x : Flume) : (s.setFlume f x).spn = s.spn := rfl
@[simp] theorem State.setFlume_spnBurst (s : State) (f : Nat) (x : Flume) : (s.setFlume f x).spnBurst = s.spnBurst := rfl
@[simp] theorem State.setFlume_spnTx (s : State) (f : Nat) (x : Flume) : (s.setFlume f x).spnTx = s.spnTx := rfl
@[simp] theorem State.setFlume_parts (s : State) (f : Nat) (x : Flume) : (s.setFlume f x).parts = s.parts := rfl
@[simp] theorem State.setFlume_sample (s : State) (f : Nat) (x : Flume) : (s.setFlume f x).sample = s.sample := rfl
@[simp] theorem State.setFlume_hbmHot (s : State) (f : Nat) (x : Flume) : (s.setFlume f x).hbmHot = s.hbmHot := rfl
@[simp] theorem State.setFlume_srings (s : State) (f : Nat) (x : Flume) : (s.setFlume f x).srings = s.srings := rfl
@[simp] theorem State.setFlume_crings (s : State) (f : Nat) (x : Flume) : (s.setFlume f x).crings = s.crings := rfl
@[simp] theorem State.setFlume_fetched (s : State) (f : Nat) (x : Flume) : (s.setFlume f x).fetched = s.fetched := rfl
@[simp] theorem State.setFlume_fns (s : State) (f : Nat) (x : Flume) : (s.setFlume f x).fns = s.fns := rfl
@[simp] theorem State.setFlume_vfOn (s : State) (f : Nat) (x : Flume) : (s.setFlume f x).vfOn = s.vfOn := rfl
@[simp] theorem State.setFlume_vfs (s : State) (f : Nat) (x : Flume) : (s.setFlume f x).vfs = s.vfs := rfl
@[simp] theorem State.setFlume_b4size (s : State) (f : Nat) (x : Flume) : (s.setFlume f x).b4size = s.b4size := rfl
@[simp] theorem State.setFlume_msixTab (s : State) (f : Nat) (x : Flume) : (s.setFlume f x).msixTab = s.msixTab := rfl
@[simp] theorem State.setFlume_unmask (s : State) (f : Nat) (x : Flume) : (s.setFlume f x).unmask = s.unmask := rfl
@[simp] theorem State.setFlume_pba (s : State) (f : Nat) (x : Flume) : (s.setFlume f x).pba = s.pba := rfl
@[simp] theorem State.setFlume_linkUp (s : State) (f : Nat) (x : Flume) : (s.setFlume f x).linkUp = s.linkUp := rfl
@[simp] theorem State.setFlume_boot (s : State) (f : Nat) (x : Flume) : (s.setFlume f x).boot = s.boot := rfl
@[simp] theorem State.setFlume_hostOrd (s : State) (f : Nat) (x : Flume) : (s.setFlume f x).hostOrd = s.hostOrd := rfl
@[simp] theorem State.setFlume_mgmtOrd (s : State) (f : Nat) (x : Flume) : (s.setFlume f x).mgmtOrd = s.mgmtOrd := rfl
@[simp] theorem State.setFlume_mgmtRes (s : State) (f : Nat) (x : Flume) : (s.setFlume f x).mgmtRes = s.mgmtRes := rfl
@[simp] theorem State.setFlume_won (s : State) (f : Nat) (x : Flume) : (s.setFlume f x).won = s.won := rfl
@[simp] theorem State.setFlume_ownHid (s : State) (f : Nat) (x : Flume) : (s.setFlume f x).ownHid = s.ownHid := rfl
@[simp] theorem State.setFlume_refclk (s : State) (f : Nat) (x : Flume) : (s.setFlume f x).refclk = s.refclk := rfl
@[simp] theorem State.setFlume_offBy (s : State) (f : Nat) (x : Flume) : (s.setFlume f x).offBy = s.offBy := rfl
@[simp] theorem State.setFlume_bootEvt (s : State) (f : Nat) (x : Flume) : (s.setFlume f x).bootEvt = s.bootEvt := rfl
@[simp] theorem State.setFlume_wasRun (s : State) (f : Nat) (x : Flume) : (s.setFlume f x).wasRun = s.wasRun := rfl
@[simp] theorem State.setFlume_rerun (s : State) (f : Nat) (x : Flume) : (s.setFlume f x).rerun = s.rerun := rfl
@[simp] theorem State.setFlume_halfBack (s : State) (f : Nat) (x : Flume) : (s.setFlume f x).halfBack = s.halfBack := rfl
@[simp] theorem State.setFlume_inHold (s : State) (f : Nat) (x : Flume) : (s.setFlume f x).inHold = s.inHold := rfl
@[simp] theorem State.setFlume_coolHold (s : State) (f : Nat) (x : Flume) : (s.setFlume f x).coolHold = s.coolHold := rfl
@[simp] theorem State.setFlume_leakHold (s : State) (f : Nat) (x : Flume) : (s.setFlume f x).leakHold = s.leakHold := rfl
@[simp] theorem State.setFlume_tripped (s : State) (f : Nat) (x : Flume) : (s.setFlume f x).tripped = s.tripped := rfl
@[simp] theorem State.setFlume_slotId (s : State) (f : Nat) (x : Flume) : (s.setFlume f x).slotId = s.slotId := rfl
@[simp] theorem State.setFlume_tid (s : State) (f : Nat) (x : Flume) : (s.setFlume f x).tid = s.tid := rfl
@[simp] theorem State.setFlume_eid (s : State) (f : Nat) (x : Flume) : (s.setFlume f x).eid = s.eid := rfl
@[simp] theorem State.setFlume_i3c (s : State) (f : Nat) (x : Flume) : (s.setFlume f x).i3c = s.i3c := rfl
@[simp] theorem State.setFlume_fw (s : State) (f : Nat) (x : Flume) : (s.setFlume f x).fw = s.fw := rfl
@[simp] theorem State.setFlume_picture (s : State) (f : Nat) (x : Flume) : (s.setFlume f x).picture = s.picture := rfl
@[simp] theorem State.setFlume_spdm (s : State) (f : Nat) (x : Flume) : (s.setFlume f x).spdm = s.spdm := rfl
@[simp] theorem State.setFlume_tokens (s : State) (f : Nat) (x : Flume) : (s.setFlume f x).tokens = s.tokens := rfl
@[simp] theorem State.setFlume_scaler (s : State) (f : Nat) (x : Flume) : (s.setFlume f x).scaler = s.scaler := rfl
@[simp] theorem State.setFlume_wire (s : State) (f : Nat) (x : Flume) : (s.setFlume f x).wire = s.wire := rfl
@[simp] theorem State.setFlume_meter (s : State) (f : Nat) (x : Flume) : (s.setFlume f x).meter = s.meter := rfl
@[simp] theorem State.setFlume_mtrRec (s : State) (f : Nat) (x : Flume) : (s.setFlume f x).mtrRec = s.mtrRec := rfl
@[simp] theorem State.setFlume_mtrLog (s : State) (f : Nat) (x : Flume) : (s.setFlume f x).mtrLog = s.mtrLog := rfl
@[simp] theorem State.setFlume_stmts (s : State) (f : Nat) (x : Flume) : (s.setFlume f x).stmts = s.stmts := rfl

/-! ## Reads after an update of something else -/

@[simp] theorem State.put_byte (s : State) (f : Fld) (v : Nat) (x : Nat) : (s.put f v).byte x = s.byte x := rfl
@[simp] theorem State.put_bytes (s : State) (f : Fld) (v : Nat) (x n : Nat) : (s.put f v).bytes x n = s.bytes x n := rfl
@[simp] theorem State.put_le (s : State) (f : Fld) (v : Nat) (x n : Nat) : (s.put f v).le x n = s.le x n := rfl
@[simp] theorem State.put_isBad (s : State) (f : Fld) (v : Nat) (x : Nat) : (s.put f v).isBad x = s.isBad x := rfl
@[simp] theorem State.put_tile (s : State) (f : Fld) (v : Nat) (n a j m c : Nat) : (s.put f v).tile n a j m c = s.tile n a j m c := rfl
@[simp] theorem State.put_seq (s : State) (f : Fld) (v : Nat) (i : Nat) : (s.put f v).seq i = s.seq i := rfl
@[simp] theorem State.put_arr (s : State) (f : Fld) (v : Nat) (n a : Nat) : (s.put f v).arr n a = s.arr n a := rfl
@[simp] theorem State.put_sap (s : State) (f : Fld) (v : Nat) (n : Nat) : (s.put f v).sap n = s.sap n := rfl
@[simp] theorem State.put_glz (s : State) (f : Fld) (v : Nat) (n v' : Nat) : (s.put f v).glz n v' = s.glz n v' := rfl
@[simp] theorem State.put_flume (s : State) (f : Fld) (v : Nat) (i : Nat) : (s.put f v).flume i = s.flume i := rfl
@[simp] theorem State.put_works (s : State) (f : Fld) (v : Nat) (n a : Nat) : (s.put f v).works n a = s.works n a := rfl
@[simp] theorem State.put_raftOf (s : State) (f : Fld) (v : Nat) (n q : Nat) : (s.put f v).raftOf n q = s.raftOf n q := rfl

@[simp] theorem State.sput_get (s : State) (f : Fld) (v : Nat) (g : Fld) : (s.sput f v).get g = s.get g := rfl
@[simp] theorem State.sput_flag (s : State) (f : Fld) (v : Nat) (g : Fld) : (s.sput f v).flag g = s.flag g := rfl
@[simp] theorem State.sput_byte (s : State) (f : Fld) (v : Nat) (x : Nat) : (s.sput f v).byte x = s.byte x := rfl
@[simp] theorem State.sput_bytes (s : State) (f : Fld) (v : Nat) (x n : Nat) : (s.sput f v).bytes x n = s.bytes x n := rfl
@[simp] theorem State.sput_le (s : State) (f : Fld) (v : Nat) (x n : Nat) : (s.sput f v).le x n = s.le x n := rfl
@[simp] theorem State.sput_isBad (s : State) (f : Fld) (v : Nat) (x : Nat) : (s.sput f v).isBad x = s.isBad x := rfl
@[simp] theorem State.sput_tile (s : State) (f : Fld) (v : Nat) (n a j m c : Nat) : (s.sput f v).tile n a j m c = s.tile n a j m c := rfl
@[simp] theorem State.sput_seq (s : State) (f : Fld) (v : Nat) (i : Nat) : (s.sput f v).seq i = s.seq i := rfl
@[simp] theorem State.sput_arr (s : State) (f : Fld) (v : Nat) (n a : Nat) : (s.sput f v).arr n a = s.arr n a := rfl
@[simp] theorem State.sput_sap (s : State) (f : Fld) (v : Nat) (n : Nat) : (s.sput f v).sap n = s.sap n := rfl
@[simp] theorem State.sput_glz (s : State) (f : Fld) (v : Nat) (n v' : Nat) : (s.sput f v).glz n v' = s.glz n v' := rfl
@[simp] theorem State.sput_flume (s : State) (f : Fld) (v : Nat) (i : Nat) : (s.sput f v).flume i = s.flume i := rfl
@[simp] theorem State.sput_works (s : State) (f : Fld) (v : Nat) (n a : Nat) : (s.sput f v).works n a = s.works n a := rfl
@[simp] theorem State.sput_raftOf (s : State) (f : Fld) (v : Nat) (n q : Nat) : (s.sput f v).raftOf n q = s.raftOf n q := rfl
@[simp] theorem State.sput_seqState (s : State) (f : Fld) (v : Nat) (i : Nat) : (s.sput f v).seqState i = s.seqState i := rfl
@[simp] theorem State.sput_seqCtx (s : State) (f : Fld) (v : Nat) (i : Nat) : (s.sput f v).seqCtx i = s.seqCtx i := rfl
@[simp] theorem State.sput_seqStage (s : State) (f : Fld) (v : Nat) (i : Nat) : (s.sput f v).seqStage i = s.seqStage i := rfl
@[simp] theorem State.sput_pc (s : State) (f : Fld) (v : Nat) (i : Nat) : (s.sput f v).pc i = s.pc i := rfl

@[simp] theorem State.emit_get (s : State) (o : Out) (g : Fld) : (s.emit o).get g = s.get g := rfl
@[simp] theorem State.emit_flag (s : State) (o : Out) (g : Fld) : (s.emit o).flag g = s.flag g := rfl
@[simp] theorem State.emit_sget (s : State) (o : Out) (g : Fld) : (s.emit o).sget g = s.sget g := rfl
@[simp] theorem State.emit_byte (s : State) (o : Out) (x : Nat) : (s.emit o).byte x = s.byte x := rfl
@[simp] theorem State.emit_bytes (s : State) (o : Out) (x n : Nat) : (s.emit o).bytes x n = s.bytes x n := rfl
@[simp] theorem State.emit_le (s : State) (o : Out) (x n : Nat) : (s.emit o).le x n = s.le x n := rfl
@[simp] theorem State.emit_isBad (s : State) (o : Out) (x : Nat) : (s.emit o).isBad x = s.isBad x := rfl
@[simp] theorem State.emit_tile (s : State) (o : Out) (n a j m c : Nat) : (s.emit o).tile n a j m c = s.tile n a j m c := rfl
@[simp] theorem State.emit_seq (s : State) (o : Out) (i : Nat) : (s.emit o).seq i = s.seq i := rfl
@[simp] theorem State.emit_arr (s : State) (o : Out) (n a : Nat) : (s.emit o).arr n a = s.arr n a := rfl
@[simp] theorem State.emit_sap (s : State) (o : Out) (n : Nat) : (s.emit o).sap n = s.sap n := rfl
@[simp] theorem State.emit_glz (s : State) (o : Out) (n v : Nat) : (s.emit o).glz n v = s.glz n v := rfl
@[simp] theorem State.emit_flume (s : State) (o : Out) (i : Nat) : (s.emit o).flume i = s.flume i := rfl
@[simp] theorem State.emit_works (s : State) (o : Out) (n a : Nat) : (s.emit o).works n a = s.works n a := rfl
@[simp] theorem State.emit_raftOf (s : State) (o : Out) (n q : Nat) : (s.emit o).raftOf n q = s.raftOf n q := rfl
@[simp] theorem State.emit_seqState (s : State) (o : Out) (i : Nat) : (s.emit o).seqState i = s.seqState i := rfl
@[simp] theorem State.emit_seqCtx (s : State) (o : Out) (i : Nat) : (s.emit o).seqCtx i = s.seqCtx i := rfl
@[simp] theorem State.emit_seqStage (s : State) (o : Out) (i : Nat) : (s.emit o).seqStage i = s.seqStage i := rfl
@[simp] theorem State.emit_pc (s : State) (o : Out) (i : Nat) : (s.emit o).pc i = s.pc i := rfl

@[simp] theorem State.regReset_byte (s : State) (lo hi : Nat) (x : Nat) : (s.regReset lo hi).byte x = s.byte x := rfl
@[simp] theorem State.regReset_bytes (s : State) (lo hi : Nat) (x n : Nat) : (s.regReset lo hi).bytes x n = s.bytes x n := rfl
@[simp] theorem State.regReset_le (s : State) (lo hi : Nat) (x n : Nat) : (s.regReset lo hi).le x n = s.le x n := rfl
@[simp] theorem State.regReset_isBad (s : State) (lo hi : Nat) (x : Nat) : (s.regReset lo hi).isBad x = s.isBad x := rfl
@[simp] theorem State.regReset_tile (s : State) (lo hi : Nat) (n a j m c : Nat) : (s.regReset lo hi).tile n a j m c = s.tile n a j m c := rfl
@[simp] theorem State.regReset_seq (s : State) (lo hi : Nat) (i : Nat) : (s.regReset lo hi).seq i = s.seq i := rfl
@[simp] theorem State.regReset_arr (s : State) (lo hi : Nat) (n a : Nat) : (s.regReset lo hi).arr n a = s.arr n a := rfl
@[simp] theorem State.regReset_sap (s : State) (lo hi : Nat) (n : Nat) : (s.regReset lo hi).sap n = s.sap n := rfl
@[simp] theorem State.regReset_glz (s : State) (lo hi : Nat) (n v : Nat) : (s.regReset lo hi).glz n v = s.glz n v := rfl
@[simp] theorem State.regReset_flume (s : State) (lo hi : Nat) (i : Nat) : (s.regReset lo hi).flume i = s.flume i := rfl
@[simp] theorem State.regReset_works (s : State) (lo hi : Nat) (n a : Nat) : (s.regReset lo hi).works n a = s.works n a := rfl
@[simp] theorem State.regReset_raftOf (s : State) (lo hi : Nat) (n q : Nat) : (s.regReset lo hi).raftOf n q = s.raftOf n q := rfl

@[simp] theorem State.write_get (s : State) (a : Nat) (bs : List Byte) (g : Fld) : (s.write a bs).get g = s.get g := rfl
@[simp] theorem State.write_flag (s : State) (a : Nat) (bs : List Byte) (g : Fld) : (s.write a bs).flag g = s.flag g := rfl
@[simp] theorem State.write_sget (s : State) (a : Nat) (bs : List Byte) (g : Fld) : (s.write a bs).sget g = s.sget g := rfl
@[simp] theorem State.write_tile (s : State) (a : Nat) (bs : List Byte) (n a' j m c : Nat) : (s.write a bs).tile n a' j m c = s.tile n a' j m c := rfl
@[simp] theorem State.write_seq (s : State) (a : Nat) (bs : List Byte) (i : Nat) : (s.write a bs).seq i = s.seq i := rfl
@[simp] theorem State.write_arr (s : State) (a : Nat) (bs : List Byte) (n a' : Nat) : (s.write a bs).arr n a' = s.arr n a' := rfl
@[simp] theorem State.write_sap (s : State) (a : Nat) (bs : List Byte) (n : Nat) : (s.write a bs).sap n = s.sap n := rfl
@[simp] theorem State.write_glz (s : State) (a : Nat) (bs : List Byte) (n v : Nat) : (s.write a bs).glz n v = s.glz n v := rfl
@[simp] theorem State.write_flume (s : State) (a : Nat) (bs : List Byte) (i : Nat) : (s.write a bs).flume i = s.flume i := rfl
@[simp] theorem State.write_works (s : State) (a : Nat) (bs : List Byte) (n a' : Nat) : (s.write a bs).works n a' = s.works n a' := rfl
@[simp] theorem State.write_raftOf (s : State) (a : Nat) (bs : List Byte) (n q : Nat) : (s.write a bs).raftOf n q = s.raftOf n q := rfl
@[simp] theorem State.write_seqState (s : State) (a : Nat) (bs : List Byte) (i : Nat) : (s.write a bs).seqState i = s.seqState i := rfl
@[simp] theorem State.write_seqCtx (s : State) (a : Nat) (bs : List Byte) (i : Nat) : (s.write a bs).seqCtx i = s.seqCtx i := rfl
@[simp] theorem State.write_seqStage (s : State) (a : Nat) (bs : List Byte) (i : Nat) : (s.write a bs).seqStage i = s.seqStage i := rfl
@[simp] theorem State.write_pc (s : State) (a : Nat) (bs : List Byte) (i : Nat) : (s.write a bs).pc i = s.pc i := rfl

@[simp] theorem State.setSeq_get (s : State) (k : Nat) (x : Seq) (g : Fld) : (s.setSeq k x).get g = s.get g := rfl
@[simp] theorem State.setSeq_flag (s : State) (k : Nat) (x : Seq) (g : Fld) : (s.setSeq k x).flag g = s.flag g := rfl
@[simp] theorem State.setSeq_sget (s : State) (k : Nat) (x : Seq) (g : Fld) : (s.setSeq k x).sget g = s.sget g := rfl
@[simp] theorem State.setSeq_byte (s : State) (k : Nat) (x : Seq) (x' : Nat) : (s.setSeq k x).byte x' = s.byte x' := rfl
@[simp] theorem State.setSeq_bytes (s : State) (k : Nat) (x : Seq) (x' n : Nat) : (s.setSeq k x).bytes x' n = s.bytes x' n := rfl
@[simp] theorem State.setSeq_le (s : State) (k : Nat) (x : Seq) (x' n : Nat) : (s.setSeq k x).le x' n = s.le x' n := rfl
@[simp] theorem State.setSeq_isBad (s : State) (k : Nat) (x : Seq) (x' : Nat) : (s.setSeq k x).isBad x' = s.isBad x' := rfl
@[simp] theorem State.setSeq_tile (s : State) (k : Nat) (x : Seq) (n a j m c : Nat) : (s.setSeq k x).tile n a j m c = s.tile n a j m c := rfl
@[simp] theorem State.setSeq_arr (s : State) (k : Nat) (x : Seq) (n a : Nat) : (s.setSeq k x).arr n a = s.arr n a := rfl
@[simp] theorem State.setSeq_sap (s : State) (k : Nat) (x : Seq) (n : Nat) : (s.setSeq k x).sap n = s.sap n := rfl
@[simp] theorem State.setSeq_glz (s : State) (k : Nat) (x : Seq) (n v : Nat) : (s.setSeq k x).glz n v = s.glz n v := rfl
@[simp] theorem State.setSeq_flume (s : State) (k : Nat) (x : Seq) (i : Nat) : (s.setSeq k x).flume i = s.flume i := rfl
@[simp] theorem State.setSeq_works (s : State) (k : Nat) (x : Seq) (n a : Nat) : (s.setSeq k x).works n a = s.works n a := rfl
@[simp] theorem State.setSeq_raftOf (s : State) (k : Nat) (x : Seq) (n q : Nat) : (s.setSeq k x).raftOf n q = s.raftOf n q := rfl
@[simp] theorem State.setSeq_seqState (s : State) (k : Nat) (x : Seq) (i : Nat) : (s.setSeq k x).seqState i = s.seqState i := rfl
@[simp] theorem State.setSeq_seqCtx (s : State) (k : Nat) (x : Seq) (i : Nat) : (s.setSeq k x).seqCtx i = s.seqCtx i := rfl
@[simp] theorem State.setSeq_seqStage (s : State) (k : Nat) (x : Seq) (i : Nat) : (s.setSeq k x).seqStage i = s.seqStage i := rfl

@[simp] theorem State.modSeq_get (s : State) (k : Nat) (g : Seq → Seq) (g' : Fld) : (s.modSeq k g).get g' = s.get g' := rfl
@[simp] theorem State.modSeq_flag (s : State) (k : Nat) (g : Seq → Seq) (g' : Fld) : (s.modSeq k g).flag g' = s.flag g' := rfl
@[simp] theorem State.modSeq_sget (s : State) (k : Nat) (g : Seq → Seq) (g' : Fld) : (s.modSeq k g).sget g' = s.sget g' := rfl
@[simp] theorem State.modSeq_byte (s : State) (k : Nat) (g : Seq → Seq) (x : Nat) : (s.modSeq k g).byte x = s.byte x := rfl
@[simp] theorem State.modSeq_bytes (s : State) (k : Nat) (g : Seq → Seq) (x n : Nat) : (s.modSeq k g).bytes x n = s.bytes x n := rfl
@[simp] theorem State.modSeq_le (s : State) (k : Nat) (g : Seq → Seq) (x n : Nat) : (s.modSeq k g).le x n = s.le x n := rfl
@[simp] theorem State.modSeq_isBad (s : State) (k : Nat) (g : Seq → Seq) (x : Nat) : (s.modSeq k g).isBad x = s.isBad x := rfl
@[simp] theorem State.modSeq_tile (s : State) (k : Nat) (g : Seq → Seq) (n a j m c : Nat) : (s.modSeq k g).tile n a j m c = s.tile n a j m c := rfl
@[simp] theorem State.modSeq_arr (s : State) (k : Nat) (g : Seq → Seq) (n a : Nat) : (s.modSeq k g).arr n a = s.arr n a := rfl
@[simp] theorem State.modSeq_sap (s : State) (k : Nat) (g : Seq → Seq) (n : Nat) : (s.modSeq k g).sap n = s.sap n := rfl
@[simp] theorem State.modSeq_glz (s : State) (k : Nat) (g : Seq → Seq) (n v : Nat) : (s.modSeq k g).glz n v = s.glz n v := rfl
@[simp] theorem State.modSeq_flume (s : State) (k : Nat) (g : Seq → Seq) (i : Nat) : (s.modSeq k g).flume i = s.flume i := rfl
@[simp] theorem State.modSeq_works (s : State) (k : Nat) (g : Seq → Seq) (n a : Nat) : (s.modSeq k g).works n a = s.works n a := rfl
@[simp] theorem State.modSeq_raftOf (s : State) (k : Nat) (g : Seq → Seq) (n q : Nat) : (s.modSeq k g).raftOf n q = s.raftOf n q := rfl
@[simp] theorem State.modSeq_seqState (s : State) (k : Nat) (g : Seq → Seq) (i : Nat) : (s.modSeq k g).seqState i = s.seqState i := rfl
@[simp] theorem State.modSeq_seqCtx (s : State) (k : Nat) (g : Seq → Seq) (i : Nat) : (s.modSeq k g).seqCtx i = s.seqCtx i := rfl
@[simp] theorem State.modSeq_seqStage (s : State) (k : Nat) (g : Seq → Seq) (i : Nat) : (s.modSeq k g).seqStage i = s.seqStage i := rfl

@[simp] theorem State.setArr_get (s : State) (n a : Nat) (x : Arr) (g : Fld) : (s.setArr n a x).get g = s.get g := rfl
@[simp] theorem State.setArr_flag (s : State) (n a : Nat) (x : Arr) (g : Fld) : (s.setArr n a x).flag g = s.flag g := rfl
@[simp] theorem State.setArr_sget (s : State) (n a : Nat) (x : Arr) (g : Fld) : (s.setArr n a x).sget g = s.sget g := rfl
@[simp] theorem State.setArr_byte (s : State) (n a : Nat) (x : Arr) (x' : Nat) : (s.setArr n a x).byte x' = s.byte x' := rfl
@[simp] theorem State.setArr_bytes (s : State) (n a : Nat) (x : Arr) (x' n' : Nat) : (s.setArr n a x).bytes x' n' = s.bytes x' n' := rfl
@[simp] theorem State.setArr_le (s : State) (n a : Nat) (x : Arr) (x' n' : Nat) : (s.setArr n a x).le x' n' = s.le x' n' := rfl
@[simp] theorem State.setArr_isBad (s : State) (n a : Nat) (x : Arr) (x' : Nat) : (s.setArr n a x).isBad x' = s.isBad x' := rfl
@[simp] theorem State.setArr_tile (s : State) (n a : Nat) (x : Arr) (n' a' j m c : Nat) : (s.setArr n a x).tile n' a' j m c = s.tile n' a' j m c := rfl
@[simp] theorem State.setArr_seq (s : State) (n a : Nat) (x : Arr) (i : Nat) : (s.setArr n a x).seq i = s.seq i := rfl
@[simp] theorem State.setArr_sap (s : State) (n a : Nat) (x : Arr) (n' : Nat) : (s.setArr n a x).sap n' = s.sap n' := rfl
@[simp] theorem State.setArr_glz (s : State) (n a : Nat) (x : Arr) (n' v : Nat) : (s.setArr n a x).glz n' v = s.glz n' v := rfl
@[simp] theorem State.setArr_flume (s : State) (n a : Nat) (x : Arr) (i : Nat) : (s.setArr n a x).flume i = s.flume i := rfl
@[simp] theorem State.setArr_works (s : State) (n a : Nat) (x : Arr) (n' a' : Nat) : (s.setArr n a x).works n' a' = s.works n' a' := rfl
@[simp] theorem State.setArr_raftOf (s : State) (n a : Nat) (x : Arr) (n' q : Nat) : (s.setArr n a x).raftOf n' q = s.raftOf n' q := rfl
@[simp] theorem State.setArr_seqState (s : State) (n a : Nat) (x : Arr) (i : Nat) : (s.setArr n a x).seqState i = s.seqState i := rfl
@[simp] theorem State.setArr_seqCtx (s : State) (n a : Nat) (x : Arr) (i : Nat) : (s.setArr n a x).seqCtx i = s.seqCtx i := rfl
@[simp] theorem State.setArr_seqStage (s : State) (n a : Nat) (x : Arr) (i : Nat) : (s.setArr n a x).seqStage i = s.seqStage i := rfl
@[simp] theorem State.setArr_pc (s : State) (n a : Nat) (x : Arr) (i : Nat) : (s.setArr n a x).pc i = s.pc i := rfl

@[simp] theorem State.setSap_get (s : State) (n : Nat) (x : Sap) (g : Fld) : (s.setSap n x).get g = s.get g := rfl
@[simp] theorem State.setSap_flag (s : State) (n : Nat) (x : Sap) (g : Fld) : (s.setSap n x).flag g = s.flag g := rfl
@[simp] theorem State.setSap_sget (s : State) (n : Nat) (x : Sap) (g : Fld) : (s.setSap n x).sget g = s.sget g := rfl
@[simp] theorem State.setSap_byte (s : State) (n : Nat) (x : Sap) (x' : Nat) : (s.setSap n x).byte x' = s.byte x' := rfl
@[simp] theorem State.setSap_bytes (s : State) (n : Nat) (x : Sap) (x' n' : Nat) : (s.setSap n x).bytes x' n' = s.bytes x' n' := rfl
@[simp] theorem State.setSap_le (s : State) (n : Nat) (x : Sap) (x' n' : Nat) : (s.setSap n x).le x' n' = s.le x' n' := rfl
@[simp] theorem State.setSap_isBad (s : State) (n : Nat) (x : Sap) (x' : Nat) : (s.setSap n x).isBad x' = s.isBad x' := rfl
@[simp] theorem State.setSap_tile (s : State) (n : Nat) (x : Sap) (n' a j m c : Nat) : (s.setSap n x).tile n' a j m c = s.tile n' a j m c := rfl
@[simp] theorem State.setSap_seq (s : State) (n : Nat) (x : Sap) (i : Nat) : (s.setSap n x).seq i = s.seq i := rfl
@[simp] theorem State.setSap_arr (s : State) (n : Nat) (x : Sap) (n' a : Nat) : (s.setSap n x).arr n' a = s.arr n' a := rfl
@[simp] theorem State.setSap_glz (s : State) (n : Nat) (x : Sap) (n' v : Nat) : (s.setSap n x).glz n' v = s.glz n' v := rfl
@[simp] theorem State.setSap_flume (s : State) (n : Nat) (x : Sap) (i : Nat) : (s.setSap n x).flume i = s.flume i := rfl
@[simp] theorem State.setSap_works (s : State) (n : Nat) (x : Sap) (n' a : Nat) : (s.setSap n x).works n' a = s.works n' a := rfl
@[simp] theorem State.setSap_raftOf (s : State) (n : Nat) (x : Sap) (n' q : Nat) : (s.setSap n x).raftOf n' q = s.raftOf n' q := rfl
@[simp] theorem State.setSap_seqState (s : State) (n : Nat) (x : Sap) (i : Nat) : (s.setSap n x).seqState i = s.seqState i := rfl
@[simp] theorem State.setSap_seqCtx (s : State) (n : Nat) (x : Sap) (i : Nat) : (s.setSap n x).seqCtx i = s.seqCtx i := rfl
@[simp] theorem State.setSap_seqStage (s : State) (n : Nat) (x : Sap) (i : Nat) : (s.setSap n x).seqStage i = s.seqStage i := rfl
@[simp] theorem State.setSap_pc (s : State) (n : Nat) (x : Sap) (i : Nat) : (s.setSap n x).pc i = s.pc i := rfl

@[simp] theorem State.setGlz_get (s : State) (n v : Nat) (x : Glz) (g : Fld) : (s.setGlz n v x).get g = s.get g := rfl
@[simp] theorem State.setGlz_flag (s : State) (n v : Nat) (x : Glz) (g : Fld) : (s.setGlz n v x).flag g = s.flag g := rfl
@[simp] theorem State.setGlz_sget (s : State) (n v : Nat) (x : Glz) (g : Fld) : (s.setGlz n v x).sget g = s.sget g := rfl
@[simp] theorem State.setGlz_byte (s : State) (n v : Nat) (x : Glz) (x' : Nat) : (s.setGlz n v x).byte x' = s.byte x' := rfl
@[simp] theorem State.setGlz_bytes (s : State) (n v : Nat) (x : Glz) (x' n' : Nat) : (s.setGlz n v x).bytes x' n' = s.bytes x' n' := rfl
@[simp] theorem State.setGlz_le (s : State) (n v : Nat) (x : Glz) (x' n' : Nat) : (s.setGlz n v x).le x' n' = s.le x' n' := rfl
@[simp] theorem State.setGlz_isBad (s : State) (n v : Nat) (x : Glz) (x' : Nat) : (s.setGlz n v x).isBad x' = s.isBad x' := rfl
@[simp] theorem State.setGlz_tile (s : State) (n v : Nat) (x : Glz) (n' a j m c : Nat) : (s.setGlz n v x).tile n' a j m c = s.tile n' a j m c := rfl
@[simp] theorem State.setGlz_seq (s : State) (n v : Nat) (x : Glz) (i : Nat) : (s.setGlz n v x).seq i = s.seq i := rfl
@[simp] theorem State.setGlz_arr (s : State) (n v : Nat) (x : Glz) (n' a : Nat) : (s.setGlz n v x).arr n' a = s.arr n' a := rfl
@[simp] theorem State.setGlz_sap (s : State) (n v : Nat) (x : Glz) (n' : Nat) : (s.setGlz n v x).sap n' = s.sap n' := rfl
@[simp] theorem State.setGlz_flume (s : State) (n v : Nat) (x : Glz) (i : Nat) : (s.setGlz n v x).flume i = s.flume i := rfl
@[simp] theorem State.setGlz_works (s : State) (n v : Nat) (x : Glz) (n' a : Nat) : (s.setGlz n v x).works n' a = s.works n' a := rfl
@[simp] theorem State.setGlz_raftOf (s : State) (n v : Nat) (x : Glz) (n' q : Nat) : (s.setGlz n v x).raftOf n' q = s.raftOf n' q := rfl
@[simp] theorem State.setGlz_seqState (s : State) (n v : Nat) (x : Glz) (i : Nat) : (s.setGlz n v x).seqState i = s.seqState i := rfl
@[simp] theorem State.setGlz_seqCtx (s : State) (n v : Nat) (x : Glz) (i : Nat) : (s.setGlz n v x).seqCtx i = s.seqCtx i := rfl
@[simp] theorem State.setGlz_seqStage (s : State) (n v : Nat) (x : Glz) (i : Nat) : (s.setGlz n v x).seqStage i = s.seqStage i := rfl
@[simp] theorem State.setGlz_pc (s : State) (n v : Nat) (x : Glz) (i : Nat) : (s.setGlz n v x).pc i = s.pc i := rfl

@[simp] theorem State.setFlume_get (s : State) (f : Nat) (x : Flume) (g : Fld) : (s.setFlume f x).get g = s.get g := rfl
@[simp] theorem State.setFlume_flag (s : State) (f : Nat) (x : Flume) (g : Fld) : (s.setFlume f x).flag g = s.flag g := rfl
@[simp] theorem State.setFlume_sget (s : State) (f : Nat) (x : Flume) (g : Fld) : (s.setFlume f x).sget g = s.sget g := rfl
@[simp] theorem State.setFlume_byte (s : State) (f : Nat) (x : Flume) (x' : Nat) : (s.setFlume f x).byte x' = s.byte x' := rfl
@[simp] theorem State.setFlume_bytes (s : State) (f : Nat) (x : Flume) (x' n : Nat) : (s.setFlume f x).bytes x' n = s.bytes x' n := rfl
@[simp] theorem State.setFlume_le (s : State) (f : Nat) (x : Flume) (x' n : Nat) : (s.setFlume f x).le x' n = s.le x' n := rfl
@[simp] theorem State.setFlume_isBad (s : State) (f : Nat) (x : Flume) (x' : Nat) : (s.setFlume f x).isBad x' = s.isBad x' := rfl
@[simp] theorem State.setFlume_tile (s : State) (f : Nat) (x : Flume) (n a j m c : Nat) : (s.setFlume f x).tile n a j m c = s.tile n a j m c := rfl
@[simp] theorem State.setFlume_seq (s : State) (f : Nat) (x : Flume) (i : Nat) : (s.setFlume f x).seq i = s.seq i := rfl
@[simp] theorem State.setFlume_arr (s : State) (f : Nat) (x : Flume) (n a : Nat) : (s.setFlume f x).arr n a = s.arr n a := rfl
@[simp] theorem State.setFlume_sap (s : State) (f : Nat) (x : Flume) (n : Nat) : (s.setFlume f x).sap n = s.sap n := rfl
@[simp] theorem State.setFlume_glz (s : State) (f : Nat) (x : Flume) (n v : Nat) : (s.setFlume f x).glz n v = s.glz n v := rfl
@[simp] theorem State.setFlume_works (s : State) (f : Nat) (x : Flume) (n a : Nat) : (s.setFlume f x).works n a = s.works n a := rfl
@[simp] theorem State.setFlume_raftOf (s : State) (f : Nat) (x : Flume) (n q : Nat) : (s.setFlume f x).raftOf n q = s.raftOf n q := rfl
@[simp] theorem State.setFlume_seqState (s : State) (f : Nat) (x : Flume) (i : Nat) : (s.setFlume f x).seqState i = s.seqState i := rfl
@[simp] theorem State.setFlume_seqCtx (s : State) (f : Nat) (x : Flume) (i : Nat) : (s.setFlume f x).seqCtx i = s.seqCtx i := rfl
@[simp] theorem State.setFlume_seqStage (s : State) (f : Nat) (x : Flume) (i : Nat) : (s.setFlume f x).seqStage i = s.seqStage i := rfl
@[simp] theorem State.setFlume_pc (s : State) (f : Nat) (x : Flume) (i : Nat) : (s.setFlume f x).pc i = s.pc i := rfl

/-! ## Reads after an update of the thing read -/

/-- A field's value fits its width. -/
theorem State.get_lt (s : State) (f : Fld) : s.get f < 2 ^ f.w := Nat.mod_lt _ (Nat.two_pow_pos _)

/-- A register field after a field is put (R6). -/
theorem State.get_put (s : State) (f g : Fld) (v : Nat) :
    (s.put f v).get g = if g.a = f.a then v % 2 ^ f.w % 2 ^ g.w else s.get g := by
  show KMap.find resetVal (KMap.put resetVal s.regs f.a (v % 2 ^ f.w)) g.a % 2 ^ g.w = _
  rw [KMap.find_put]
  split <;> rfl

theorem State.get_put_same (s : State) (f : Fld) (v : Nat) : (s.put f v).get f = v % 2 ^ f.w := by
  rw [State.get_put, if_pos rfl, Nat.mod_mod]

theorem State.get_put_other (s : State) (f g : Fld) (v : Nat) (h : g.a ≠ f.a) : (s.put f v).get g = s.get g := by
  rw [State.get_put, if_neg h]

/-- A shadow after a shadow is put (R8). -/
theorem State.sget_sput (s : State) (f g : Fld) (v : Nat) :
    (s.sput f v).sget g = if g.a = f.a then v % 2 ^ f.w % 2 ^ g.w else s.sget g := by
  have h := KMap.find_put (fun a => KMap.find resetVal s.regs a) s.shadow f.a g.a (v % 2 ^ f.w)
  show KMap.find (fun a => KMap.find resetVal s.regs a) (KMap.put (fun a => KMap.find resetVal s.regs a) s.shadow f.a (v % 2 ^ f.w)) g.a
    % 2 ^ g.w = _
  rw [h]
  split <;> rfl

/-- A counter after it counts, and another field. -/
theorem State.get_count_same (s : State) (f : Fld) (k : Nat) : (s.count f k).get f = min (s.get f + k) (2 ^ f.w - 1) := by
  unfold State.count
  rw [State.get_put_same]
  have : 0 < 2 ^ f.w := Nat.two_pow_pos _
  exact Nat.mod_eq_of_lt (by omega)

theorem State.get_count_other (s : State) (f g : Fld) (k : Nat) (h : g.a ≠ f.a) : (s.count f k).get g = s.get g :=
  State.get_put_other _ _ _ _ h

@[simp] theorem State.seq_setSeq (s : State) (k i : Nat) (x : Seq) : (s.setSeq k x).seq i = if i = k then x else s.seq i :=
  KMap.find_put _ _ _ _ _

@[simp] theorem State.seq_modSeq (s : State) (k i : Nat) (g : Seq → Seq) : (s.modSeq k g).seq i = if i = k then g (s.seq k) else s.seq i :=
  KMap.find_put _ _ _ _ _

@[simp] theorem State.flume_setFlume (s : State) (f i : Nat) (x : Flume) : (s.setFlume f x).flume i = if i = f then x else s.flume i :=
  KMap.find_put _ _ _ _ _

@[simp] theorem State.sap_setSap (s : State) (n i : Nat) (x : Sap) : (s.setSap n x).sap i = if i = n then x else s.sap i :=
  KMap.find_put _ _ _ _ _

theorem State.arr_setArr (s : State) (n a m b : Nat) (x : Arr) :
    (s.setArr n a x).arr m b = if 8 * m + b = 8 * n + a then x else s.arr m b := KMap.find_put _ _ _ _ _

theorem State.glz_setGlz (s : State) (n v m u : Nat) (x : Glz) :
    (s.setGlz n v x).glz m u = if 2 * m + u = 2 * n + v then x else s.glz m u := KMap.find_put _ _ _ _ _

/-- A field outside the range of a block reset keeps its value; one inside is back at its reset value. -/
theorem State.get_regReset (s : State) (lo hi : Nat) (g : Fld) :
    (s.regReset lo hi).get g = if 8 * lo ≤ g.a ∧ g.a < 8 * hi then resetVal g.a % 2 ^ g.w else s.get g := by
  show KMap.find resetVal (KMap.dropRange s.regs (8 * lo) (8 * hi)) g.a % 2 ^ g.w = _
  rw [KMap.find_dropRange]
  split <;> rfl

end Sys2Proof.Machine
end

