-- ==== Sys2Proof/Laws/Issue.lean ====
section
/-! SUPPORT. Laws/Issue.lean: what the issue of a bundle of one slot does, and where the program counter goes. -/

namespace Sys2Proof.Machine

/-- A slot that waits for no register awaits no source. -/
theorem srcWait_of_regWait (s : State) (k : Nat) (o : SlotOp) (h : s.regWait k o = false) : s.srcWait k o = false := by
  simp only [State.regWait, State.srcWait, List.any_eq_false] at *
  intro r hr
  have := h r hr
  simp_all

/-- A bundle of one slot that passes its checks and waits for nothing may issue (R206 to R215, R221, R238, R242). -/
theorem judge_alone (s : State) (k : Nat) (x : SlotIn) (b : List Instr) (hx : slotsOf b = [x]) (hon : s.enabled k x.c = true)
    (hpc : s.pc k < s.nbundles k) (hf : (s.seq k).fetchErr = none) (hd : x.decodeExc = none) (hr : s.regWait k x.op = false)
    (hk : x.op.chk s = none) (hw : x.op.wait s = 0) (hh : x.op.hold s = 0) (hl : x.op.late s = 0) (ht : ∀ r ∈ x.op.tW s, r ∉ x.op.tG s) :
    s.judge k b = .go := by
  have hnb : ¬ s.nbundles k ≤ s.pc k := by omega
  have htc : tileClash s [x] x = false := by
    simp only [tileClash, hk, Option.isNone_none, Bool.true_and, List.any_cons, List.any_nil, Bool.or_false, List.any_eq_false]
    intro r hr'; simpa using ht r hr'
  have hexc : s.slotExc k [x] x = none := by
    simp [State.slotExc, hd, hon, clashSlot, hk, htc, srcWait_of_regWait s k x.op hr]
  have hraise : s.firstRaise k [x] [x] = none := by
    simp [State.firstRaise, hexc, hf]
  have hhold : s.firstHold k [x] = none := by
    simp [State.firstHold, firstWait, hr, hw, hh]
  unfold State.judge
  simp only [hx, hon, List.filter_cons, if_true, List.filter_nil, hnb, if_false, hraise, hhold, firstWait, hl]
  by_cases hq : x.op.desc = true <;> simp [hq]

/-- A slot instruction that stands alone, passes its checks and waits for nothing issues at once (R206 to R215). -/
theorem issue_alone (s : State) (c : SlotCtl) (i : Instr) (o : SlotOp) (h : s.Alone c) (hc : slotCtlOf i = some c) (ho : semOf i = some o)
    (hb : ¬(bits (encSlot i) 56 8 = 0 ∧ encSlot i ≠ 0)) (hs : o.slots.contains c.slot.val = true) (hr : s.regWait (seqKey c) o = false)
    (hk : o.chk s = none) (hw : o.wait s = 0) (hh : o.hold s = 0) (hl : o.late s = 0) (ht : ∀ r ∈ o.tW s, r ∉ o.tG s) :
    issue c i s = .next (((((o.eff s s).flow (seqKey c) (o.ctl s)).count (R.SEQ_CNT.issued (seqKey c / 4) (seqKey c % 4)) 1).put
      (R.SEQ_STAT.wait (seqKey c / 4) (seqKey c % 4)) 0).put (R.VER_HDR.gate_hold (seqKey c)) 0) := by
  obtain ⟨h1, h2, h3, h4, h5, h6, h7, h8, h9, h10⟩ := h
  have hslots : slotsOf [i] = [⟨i, c, o, encSlot i⟩] := by simp [slotsOf, hc, ho]
  have hdec : SlotIn.decodeExc ⟨i, c, o, encSlot i⟩ = none := by
    unfold SlotIn.decodeExc
    rw [if_neg hb]; simp only [hs, if_true]
  have hj : (s.judge (seqKey c) [i]) = .go := judge_alone s _ _ _ hslots h7 h8 h10 hdec hr hk hw hh hl ht
  have hctl : ((([o.ctl s].find? (fun d => decide (d ≠ Ctl.seq)))).getD .seq) = o.ctl s := by
    by_cases hq : o.ctl s = .seq <;> simp [List.find?, hq]
  unfold issue
  simp only [h1, h3, h4, h6, h2, List.getLast?_nil, Option.bind_none, List.isEmpty_nil, if_true, List.nil_append, Bool.and_self,
    ne_eq, not_true_eq_false, false_or, Bool.true_eq_false, if_false, Bool.false_eq_true]
  unfold State.tryBundle
  rw [hj]
  simp only [if_true, State.issueBundle, hslots, h7, List.filter_cons, List.filter_nil, List.map_cons, List.map_nil, List.foldl_cons,
    List.foldl_nil, h5, if_false, Bool.false_eq_true, hctl]

/-! ## The program counter -/

/-- Two fields of SEQ_STAT and SEQ_PC lie at different places. -/
theorem seqStat_pc_ne (n q m r : Nat) : (R.SEQ_STAT.pc n q).a ≠ (R.SEQ_PC.pc m r).a := by
  simp only [R.SEQ_STAT.pc, R.SEQ_PC.pc]; omega

/-- The program counter after it is set (R227). -/
theorem pc_setPc (s : State) (k v : Nat) (hv : v < 2 ^ 15) : (s.setPc k v).pc k = v := by
  unfold State.pc State.setPc
  rw [State.get_put_other _ _ _ _ (seqStat_pc_ne _ _ _ _), State.get_put_same]
  simp only [State.put_seq, State.seq_modSeq, if_true]
  simp only [R.SEQ_STAT.pc]
  simp only [decide_eq_true_eq]
  split <;> omega

/-- The program counter is a matter of one field and one sequencer. -/
theorem pc_congr (s t : State) (k : Nat) (h : t.get (R.SEQ_STAT.pc (k / 4) (k % 4)) = s.get (R.SEQ_STAT.pc (k / 4) (k % 4)))
    (hq : t.seq k = s.seq k) : t.pc k = s.pc k := by
  unfold State.pc; rw [h, hq]

/-- What a change of the program counter leaves of a sequencer. -/
theorem seq_setPc (s : State) (k v i : Nat) :
    (s.setPc k v).seq i = if i = k then { s.seq k with past := decide (2 ^ 14 ≤ v) } else s.seq i := by
  simp [State.setPc]

/-- Scalar, address and predicate registers after a change of the program counter. -/
@[simp] theorem s_setPc (s : State) (k v i : Nat) (r : BitVec 5) : (s.setPc k v).s i r = s.s i r := by
  unfold State.s; rw [seq_setPc]; split <;> simp_all [Seq.sreg]

@[simp] theorem a_setPc (s : State) (k v i : Nat) (r : Nat) : (s.setPc k v).a i r = s.a i r := by
  unfold State.a; rw [seq_setPc]; split <;> simp_all [Seq.areg]

@[simp] theorem p_setPc (s : State) (k v i : Nat) (r : BitVec 3) : (s.setPc k v).p i r = s.p i r := by
  unfold State.p; rw [seq_setPc]; split <;> simp_all [Seq.preg]

/-- Where no level ends at the bundle, the next one follows and the levels stay (R232). -/
theorem loopEnd_none (pc : Nat) (ls : List LoopLvl) (nx : Nat) (h : ∀ l ∈ ls, l.last ≠ pc) : loopEnd pc ls nx = (ls, nx) := by
  induction ls with
  | nil => rfl
  | cons l ls ih =>
    have h1 : l.last ≠ pc := h l (by simp)
    have h2 := ih (fun x hx => h x (by simp [hx]))
    simp [loopEnd, h1, h2]

/-- Control flow after a bundle that is no branch, where no loop level ends at it (R232). -/
theorem flow_seq (x : State) (k : Nat) (h : ∀ l ∈ (x.seq k).loops, l.last ≠ x.pc k) :
    x.flow k .seq = (x.modSeq k (fun y => { y with loops := (x.seq k).loops })).setPc k (x.pc k + 1) := by
  simp only [State.flow, loopEnd_none _ _ _ h]

/-- The fields that an issue writes lie at five different places. -/
theorem issue_places (n q m r : Nat) :
    (R.SEQ_CNT.issued n q).a ≠ (R.SEQ_STAT.pc m r).a ∧ (R.SEQ_CNT.issued n q).a ≠ (R.SEQ_PC.pc m r).a ∧
    (R.SEQ_CNT.issued n q).a ≠ (R.SEQ_STAT.wait m r).a ∧ (R.SEQ_STAT.wait n q).a ≠ (R.SEQ_STAT.pc m r).a ∧
    (R.SEQ_STAT.wait n q).a ≠ (R.SEQ_PC.pc m r).a := by
  simp only [R.SEQ_STAT.pc, R.SEQ_PC.pc, R.SEQ_CNT.issued, R.SEQ_STAT.wait]; omega

/-- The gate hold of the table of sequencer `k`'s stage lies at none of those places. -/
theorem gate_places (k n q : Nat) :
    (R.SEQ_CNT.issued n q).a ≠ (R.VER_HDR.gate_hold k).a ∧ (R.SEQ_STAT.pc n q).a ≠ (R.VER_HDR.gate_hold k).a ∧
    (R.SEQ_PC.pc n q).a ≠ (R.VER_HDR.gate_hold k).a ∧ (R.SEQ_STAT.wait n q).a ≠ (R.VER_HDR.gate_hold k).a := by
  simp only [R.SEQ_STAT.pc, R.SEQ_PC.pc, R.SEQ_CNT.issued, R.SEQ_STAT.wait, R.VER_HDR.gate_hold]; omega

/-- What follows the effect of a bundle that changes nothing but its sequencer and is no branch (R210, R214, R227). -/
theorem straight (s : State) (k : Nat) (g : Seq → Seq) (hl : s.NoLoopEnd k) (hg : (g (s.seq k)).loops = (s.seq k).loops)
    (hp : (g (s.seq k)).past = (s.seq k).past) (hpc : s.pc k < 16384) :
    ∃ t, (((((s.modSeq k g).flow k .seq).count (R.SEQ_CNT.issued (k / 4) (k % 4)) 1).put (R.SEQ_STAT.wait (k / 4) (k % 4)) 0).put
      (R.VER_HDR.gate_hold k) 0) = t ∧
      s.Issued t k (s.pc k + 1) ∧ IssueFrame s t k ∧ t.seq k = { g (s.seq k) with past := decide (2 ^ 14 ≤ s.pc k + 1) } := by
  have hpc' : (s.modSeq k g).pc k = s.pc k := by
    simp only [State.pc, State.modSeq_get, State.seq_modSeq, if_true, hp]
  have hflow : (s.modSeq k g).flow k .seq =
      ((s.modSeq k g).modSeq k (fun y => { y with loops := ((s.modSeq k g).seq k).loops })).setPc k (s.pc k + 1) := by
    rw [flow_seq, hpc']
    intro l hl'
    rw [hpc']
    apply hl l
    simpa [hg] using hl'
  rw [hflow]
  generalize hw : (s.modSeq k g).modSeq k (fun y => { y with loops := ((s.modSeq k g).seq k).loops }) = w
  have hwq : ∀ j, w.seq j = if j = k then g (s.seq k) else s.seq j := by
    intro j; subst hw
    by_cases h : j = k
    · subst h; simp only [State.seq_modSeq, if_true]
    · simp only [State.seq_modSeq, if_neg h]
  have hwg : ∀ f, w.get f = s.get f := by intro f; subst hw; rfl
  have hwb : ∀ a, w.byte a = s.byte a := by intro a; subst hw; rfl
  have hws : { w with regs := s.regs, seqs := s.seqs } = s := by subst hw; rfl
  obtain ⟨n1, n2, n3, n4, n5⟩ := issue_places (k / 4) (k % 4) (k / 4) (k % 4)
  obtain ⟨m1, m2, m3, m4⟩ := gate_places k (k / 4) (k % 4)
  refine ⟨_, rfl, ⟨?_, ?_, ?_, ?_⟩, ⟨fun a => ?_, fun j hj => ?_, fun f h1 h2 h3 h4 h5 => ?_, ?_⟩, ?_⟩
  · refine (pc_congr (w.setPc k (s.pc k + 1)) _ k ?_ ?_).trans (pc_setPc w k (s.pc k + 1) (by omega))
    · rw [State.get_put_other _ _ _ _ m2, State.get_put_other _ _ _ _ n4.symm, State.get_count_other _ _ _ _ n1.symm]
    · simp only [State.put_seq, State.count]
  · rw [State.get_put_other _ _ _ _ m1, State.get_put_other _ _ _ _ n3, State.get_count_same]
    simp only [State.setPc]
    rw [State.get_put_other _ _ _ _ n2, State.get_put_other _ _ _ _ n1, State.modSeq_get, hwg]
    rfl
  · rw [State.get_put_other _ _ _ _ m4, State.get_put_same]; simp
  · rw [State.get_put_same]; simp
  · simp only [State.put_byte, State.count, State.setPc, State.modSeq_byte, hwb]
  · simp only [State.put_seq, State.count, State.setPc, State.seq_modSeq, if_neg hj, hwq]
  · rw [State.get_put_other _ _ _ _ h5, State.get_put_other _ _ _ _ h4, State.get_count_other _ _ _ _ h3]
    simp only [State.setPc]
    rw [State.get_put_other _ _ _ _ h2, State.get_put_other _ _ _ _ h1, State.modSeq_get, hwg]
  · refine Eq.trans ?_ hws
    simp only [State.count, State.setPc, State.put, State.modSeq, State.setSeq]
  · simp only [State.put_seq, State.count, State.setPc, State.seq_modSeq, if_true, hwq]

/-! ## Registers of a sequencer -/

/-- A scalar register after a write: s0 discards it (R197). -/
theorem s_wS (s : State) (k i : Nat) (r x : BitVec 5) (v : Word) :
    (s.wS k r v).s i x = if i = k ∧ x = r then (if r = 0 then 0 else v) else s.s i x := by
  unfold State.s State.wS
  by_cases hi : i = k
  · subst hi
    rw [State.seq_modSeq, if_pos rfl]
    by_cases hx : x = r
    · subst hx
      by_cases h0 : x = 0
      · subst h0; simp [Seq.sreg]
      · have : x.toNat ≠ 0 := by intro h; apply h0; apply BitVec.eq_of_toNat_eq; simpa using h
        simp only [Seq.sreg, Seq.setS, this, if_false, KMap.find_put, if_true, true_and, h0]
    · have hne : x.toNat ≠ r.toNat := by intro h; exact hx (BitVec.eq_of_toNat_eq h)
      by_cases h0 : r.toNat = 0
      · simp [Seq.setS, h0, hx]
      · simp [Seq.sreg, Seq.setS, h0, hx, hne]
  · rw [State.seq_modSeq, if_neg hi]; simp [hi]

/-- A predicate after a write: p0 discards it (R197). -/
theorem p_wP (s : State) (k i : Nat) (r x : BitVec 3) (v : Bool) :
    (s.wP k r v).p i x = if i = k ∧ x = r then (if r = 0 then true else v) else s.p i x := by
  unfold State.p State.wP
  by_cases hi : i = k
  · subst hi
    rw [State.seq_modSeq, if_pos rfl]
    by_cases hx : x = r
    · subst hx
      by_cases h0 : x = 0
      · subst h0; simp [Seq.preg]
      · have : x.toNat ≠ 0 := by intro h; apply h0; apply BitVec.eq_of_toNat_eq; simpa using h
        simp only [Seq.preg, Seq.setP, this, if_false, KMap.find_put, if_true, true_and, h0]
    · have hne : x.toNat ≠ r.toNat := by intro h; exact hx (BitVec.eq_of_toNat_eq h)
      by_cases h0 : r.toNat = 0
      · simp [Seq.setP, h0, hx]
      · simp [Seq.preg, Seq.setP, h0, hx, hne]
  · rw [State.seq_modSeq, if_neg hi]; simp [hi]

/-- An address register after a write. -/
theorem a_wA (s : State) (k i : Nat) (r x : BitVec 4) (v : Addr) :
    (s.wA k r v).a i x.toNat = if i = k ∧ x = r then v else s.a i x.toNat := by
  unfold State.a State.wA
  by_cases hi : i = k
  · subst hi
    rw [State.seq_modSeq, if_pos rfl]
    by_cases hx : x = r
    · subst hx; simp [Seq.areg, Seq.setA]
    · have hne : x.toNat ≠ r.toNat := by intro h; exact hx (BitVec.eq_of_toNat_eq h)
      simp [Seq.areg, Seq.setA, hx, hne]
  · rw [State.seq_modSeq, if_neg hi]; simp [hi]

end Sys2Proof.Machine
end

