-- ==== Sys2Proof/Laws/SlotCode.lean ====
section
/-! SUPPORT. Laws/SlotCode.lean: the opcode of a slot instruction's bits, the slots it is legal in, and issue of a well-formed slot. -/
namespace Sys2Proof.Machine

/-- A flag is one bit. -/
theorem b2n_lt (b : Bool) : b2n b < 2 := by cases b <;> decide

/-- A flume operand fits its field. -/
theorem encFlume_le (o : FlumeOp) (src imm fs : Nat) (h : imm + 13 ≤ src) : encFlume o src imm fs ≤ 2 ^ src + 31 * 2 ^ fs := by
  cases o with
  | imm f =>
    have h1 : f.toNat * 2 ^ imm ≤ 2 ^ 13 * 2 ^ imm := Nat.mul_le_mul_right _ f.isLt.le
    have h2 : 2 ^ 13 * 2 ^ imm ≤ 2 ^ src := by
      rw [← Nat.pow_add]
      exact Nat.pow_le_pow_right Nat.two_pos (by omega)
    exact (h1.trans h2).trans (Nat.le_add_right _ _)
  | reg r =>
    exact Nat.add_le_add_left (Nat.mul_le_mul_right _ (by have := r.isLt; omega)) _

/-- A compare operand fits its field. -/
theorem encCmp_lt (o : CmpOp) : encCmp o < 2 ^ 47 + 2 ^ 41 := by
  cases o with
  | reg r => show r.toNat * 2 ^ 36 < 2 ^ 47 + 2 ^ 41; omega
  | imm v => show 2 ^ 47 + v.toNat * 2 ^ 9 < 2 ^ 47 + 2 ^ 41; omega

/-- The value of the operand fields of a slot, field by field. -/
def fieldSum (l : List (Nat × Nat)) : Nat := (l.map (fun f => f.1 * 2 ^ f.2)).sum

theorem fieldSum_nil : fieldSum [] = 0 := rfl

theorem fieldSum_cons (a p : Nat) (l : List (Nat × Nat)) : fieldSum ((a, p) :: l) = a * 2 ^ p + fieldSum l := by simp [fieldSum]

/-- The opcode of a slot's bits. -/
theorem bits_op (op : Nat) (c : SlotCtl) (l : List (Nat × Nat)) (ho : op < 256) (hl : fieldSum l < 2 ^ 51) :
    bits (slotBits op c l) 56 8 = op := by
  have h1 := b2n_lt c.pe
  have h2 := b2n_lt c.psense
  have h3 := c.pidx.isLt
  unfold fieldSum at hl
  unfold bits slotBits slotHead
  omega


theorem fields_nop : fieldSum [] < 2 ^ 51 := by decide

theorem fields_br (target : BitVec 14) :
    fieldSum [(target.toNat, 37)] < 2 ^ 51 := by
  simp only [fieldSum_cons, fieldSum_nil]
  omega

theorem fields_brS (rs : BitVec 5) :
    fieldSum [(rs.toNat, 46)] < 2 ^ 51 := by
  simp only [fieldSum_cons, fieldSum_nil]
  omega

theorem fields_call (target : BitVec 14) :
    fieldSum [(target.toNat, 37)] < 2 ^ 51 := by
  simp only [fieldSum_cons, fieldSum_nil]
  omega

theorem fields_ret : fieldSum [] < 2 ^ 51 := by decide

theorem fields_loop (rs : BitVec 5) (last : BitVec 14) :
    fieldSum [(rs.toNat, 46), (last.toNat, 32)] < 2 ^ 51 := by
  simp only [fieldSum_cons, fieldSum_nil]
  omega

theorem fields_halt : fieldSum [] < 2 ^ 51 := by decide

theorem fields_trapRet (mode : Bool) :
    fieldSum [(b2n mode, 50)] < 2 ^ 51 := by
  have := b2n_lt mode
  simp only [fieldSum_cons, fieldSum_nil]
  omega

theorem fields_evtSig (tq : BitVec 2) (e : BitVec 3) (k : BitVec 16) :
    fieldSum [(tq.toNat, 49), (e.toNat, 46), (k.toNat, 30)] < 2 ^ 51 := by
  simp only [fieldSum_cons, fieldSum_nil]
  omega

theorem fields_evtWait (e : BitVec 3) (k : BitVec 16) :
    fieldSum [(e.toNat, 48), (k.toNat, 32)] < 2 ^ 51 := by
  simp only [fieldSum_cons, fieldSum_nil]
  omega

theorem fields_wchSet (idx : BitVec 3) (kind : BitVec 2) (f : FlumeOp) (e : BitVec 3) :
    fieldSum [(idx.toNat, 48), (kind.toNat, 46), (encFlume f 45 32 27, 0), (e.toNat, 24)] < 2 ^ 51 := by
  have := encFlume_le f 45 32 27 (by decide)
  simp only [fieldSum_cons, fieldSum_nil]
  omega

theorem fields_waitAny (sd : BitVec 5) :
    fieldSum [(sd.toNat, 46)] < 2 ^ 51 := by
  simp only [fieldSum_cons, fieldSum_nil]
  omega

theorem fields_waitIdle (arrays : Bool) (glaze : Bool) (sap : Bool) (dma : Bool) :
    fieldSum [(b2n arrays, 50), (b2n glaze, 49), (b2n sap, 48), (b2n dma, 47)] < 2 ^ 51 := by
  have := b2n_lt arrays
  have := b2n_lt glaze
  have := b2n_lt sap
  have := b2n_lt dma
  simp only [fieldSum_cons, fieldSum_nil]
  omega

theorem fields_add (rd : BitVec 5) (ra : BitVec 5) (rb : BitVec 5) :
    fieldSum [(rd.toNat, 46), (ra.toNat, 41), (rb.toNat, 36)] < 2 ^ 51 := by
  simp only [fieldSum_cons, fieldSum_nil]
  omega

theorem fields_sub (rd : BitVec 5) (ra : BitVec 5) (rb : BitVec 5) :
    fieldSum [(rd.toNat, 46), (ra.toNat, 41), (rb.toNat, 36)] < 2 ^ 51 := by
  simp only [fieldSum_cons, fieldSum_nil]
  omega

theorem fields_and (rd : BitVec 5) (ra : BitVec 5) (rb : BitVec 5) :
    fieldSum [(rd.toNat, 46), (ra.toNat, 41), (rb.toNat, 36)] < 2 ^ 51 := by
  simp only [fieldSum_cons, fieldSum_nil]
  omega

theorem fields_or (rd : BitVec 5) (ra : BitVec 5) (rb : BitVec 5) :
    fieldSum [(rd.toNat, 46), (ra.toNat, 41), (rb.toNat, 36)] < 2 ^ 51 := by
  simp only [fieldSum_cons, fieldSum_nil]
  omega

theorem fields_xor (rd : BitVec 5) (ra : BitVec 5) (rb : BitVec 5) :
    fieldSum [(rd.toNat, 46), (ra.toNat, 41), (rb.toNat, 36)] < 2 ^ 51 := by
  simp only [fieldSum_cons, fieldSum_nil]
  omega

theorem fields_shl (rd : BitVec 5) (ra : BitVec 5) (rb : BitVec 5) :
    fieldSum [(rd.toNat, 46), (ra.toNat, 41), (rb.toNat, 36)] < 2 ^ 51 := by
  simp only [fieldSum_cons, fieldSum_nil]
  omega

theorem fields_shr (rd : BitVec 5) (ra : BitVec 5) (rb : BitVec 5) :
    fieldSum [(rd.toNat, 46), (ra.toNat, 41), (rb.toNat, 36)] < 2 ^ 51 := by
  simp only [fieldSum_cons, fieldSum_nil]
  omega

theorem fields_sra (rd : BitVec 5) (ra : BitVec 5) (rb : BitVec 5) :
    fieldSum [(rd.toNat, 46), (ra.toNat, 41), (rb.toNat, 36)] < 2 ^ 51 := by
  simp only [fieldSum_cons, fieldSum_nil]
  omega

theorem fields_mul (rd : BitVec 5) (ra : BitVec 5) (rb : BitVec 5) :
    fieldSum [(rd.toNat, 46), (ra.toNat, 41), (rb.toNat, 36)] < 2 ^ 51 := by
  simp only [fieldSum_cons, fieldSum_nil]
  omega

theorem fields_min (rd : BitVec 5) (ra : BitVec 5) (rb : BitVec 5) :
    fieldSum [(rd.toNat, 46), (ra.toNat, 41), (rb.toNat, 36)] < 2 ^ 51 := by
  simp only [fieldSum_cons, fieldSum_nil]
  omega

theorem fields_max (rd : BitVec 5) (ra : BitVec 5) (rb : BitVec 5) :
    fieldSum [(rd.toNat, 46), (ra.toNat, 41), (rb.toNat, 36)] < 2 ^ 51 := by
  simp only [fieldSum_cons, fieldSum_nil]
  omega

theorem fields_addi (rd : BitVec 5) (ra : BitVec 5) (imm : BitVec 32) :
    fieldSum [(rd.toNat, 46), (ra.toNat, 41), (imm.toNat, 9)] < 2 ^ 51 := by
  simp only [fieldSum_cons, fieldSum_nil]
  omega

theorem fields_movi (rd : BitVec 5) (imm : BitVec 32) :
    fieldSum [(rd.toNat, 46), (imm.toNat, 9)] < 2 ^ 51 := by
  simp only [fieldSum_cons, fieldSum_nil]
  omega

theorem fields_movhi (rd : BitVec 5) (imm : BitVec 32) :
    fieldSum [(rd.toNat, 46), (imm.toNat, 9)] < 2 ^ 51 := by
  simp only [fieldSum_cons, fieldSum_nil]
  omega

theorem fields_andi (rd : BitVec 5) (ra : BitVec 5) (imm : BitVec 32) :
    fieldSum [(rd.toNat, 46), (ra.toNat, 41), (imm.toNat, 9)] < 2 ^ 51 := by
  simp only [fieldSum_cons, fieldSum_nil]
  omega

theorem fields_cmpEq (pd : BitVec 3) (ra : BitVec 5) (o : CmpOp) :
    fieldSum [(pd.toNat, 48), (ra.toNat, 41), (encCmp o, 0)] < 2 ^ 51 := by
  have := encCmp_lt o
  simp only [fieldSum_cons, fieldSum_nil]
  omega

theorem fields_cmpNe (pd : BitVec 3) (ra : BitVec 5) (o : CmpOp) :
    fieldSum [(pd.toNat, 48), (ra.toNat, 41), (encCmp o, 0)] < 2 ^ 51 := by
  have := encCmp_lt o
  simp only [fieldSum_cons, fieldSum_nil]
  omega

theorem fields_cmpLt (pd : BitVec 3) (ra : BitVec 5) (o : CmpOp) :
    fieldSum [(pd.toNat, 48), (ra.toNat, 41), (encCmp o, 0)] < 2 ^ 51 := by
  have := encCmp_lt o
  simp only [fieldSum_cons, fieldSum_nil]
  omega

theorem fields_cmpLtu (pd : BitVec 3) (ra : BitVec 5) (o : CmpOp) :
    fieldSum [(pd.toNat, 48), (ra.toNat, 41), (encCmp o, 0)] < 2 ^ 51 := by
  have := encCmp_lt o
  simp only [fieldSum_cons, fieldSum_nil]
  omega

theorem fields_cmpLe (pd : BitVec 3) (ra : BitVec 5) (o : CmpOp) :
    fieldSum [(pd.toNat, 48), (ra.toNat, 41), (encCmp o, 0)] < 2 ^ 51 := by
  have := encCmp_lt o
  simp only [fieldSum_cons, fieldSum_nil]
  omega

theorem fields_cmpLeu (pd : BitVec 3) (ra : BitVec 5) (o : CmpOp) :
    fieldSum [(pd.toNat, 48), (ra.toNat, 41), (encCmp o, 0)] < 2 ^ 51 := by
  have := encCmp_lt o
  simp only [fieldSum_cons, fieldSum_nil]
  omega

theorem fields_tst (pd : BitVec 3) (ra : BitVec 5) (b : BitVec 6) :
    fieldSum [(pd.toNat, 48), (ra.toNat, 41), (b.toNat, 35)] < 2 ^ 51 := by
  simp only [fieldSum_cons, fieldSum_nil]
  omega

theorem fields_plog (pd : BitVec 3) (pa : BitVec 3) (pb : BitVec 3) (na : Bool) (nb : Bool) (op : BitVec 2) :
    fieldSum [(pd.toNat, 48), (pa.toNat, 45), (pb.toNat, 42), (b2n na, 41), (b2n nb, 40), (op.toNat, 38)] < 2 ^ 51 := by
  have := b2n_lt na
  have := b2n_lt nb
  simp only [fieldSum_cons, fieldSum_nil]
  omega

theorem fields_movA (ad : BitVec 4) (rs : BitVec 5) :
    fieldSum [(ad.toNat, 47), (rs.toNat, 41)] < 2 ^ 51 := by
  simp only [fieldSum_cons, fieldSum_nil]
  omega

theorem fields_movS (rd : BitVec 5) (ab : BitVec 4) :
    fieldSum [(rd.toNat, 46), (ab.toNat, 42)] < 2 ^ 51 := by
  simp only [fieldSum_cons, fieldSum_nil]
  omega

theorem fields_addA (ad : BitVec 4) (ab : BitVec 4) (rs : BitVec 5) :
    fieldSum [(ad.toNat, 47), (ab.toNat, 43), (rs.toNat, 38)] < 2 ^ 51 := by
  simp only [fieldSum_cons, fieldSum_nil]
  omega

theorem fields_addiA (ad : BitVec 4) (ab : BitVec 4) (imm : BitVec 32) :
    fieldSum [(ad.toNat, 47), (ab.toNat, 43), (imm.toNat, 11)] < 2 ^ 51 := by
  simp only [fieldSum_cons, fieldSum_nil]
  omega

theorem fields_mma (fa : BitVec 4) (fb : BitVec 4) (t : BitVec 5) (init : Bool) (sd : BitVec 5) :
    fieldSum [(fa.toNat, 47), (fb.toNat, 43), (t.toNat, 38), (b2n init, 37), (sd.toNat, 32)] < 2 ^ 51 := by
  have := b2n_lt init
  simp only [fieldSum_cons, fieldSum_nil]
  omega

theorem fields_mmaQ (fa : BitVec 4) (fb : BitVec 4) (t : BitVec 5) (init : Bool) (sd : BitVec 5) (quad : BitVec 2) :
    fieldSum [(fa.toNat, 47), (fb.toNat, 43), (t.toNat, 38), (b2n init, 37), (sd.toNat, 32), (quad.toNat, 30)] < 2 ^ 51 := by
  have := b2n_lt init
  simp only [fieldSum_cons, fieldSum_nil]
  omega

theorem fields_raftSet (size : BitVec 4) :
    fieldSum [(size.toNat, 47)] < 2 ^ 51 := by
  simp only [fieldSum_cons, fieldSum_nil]
  omega

theorem fields_qtrSet (arr : Bool) (on : Bool) :
    fieldSum [(b2n arr, 50), (b2n on, 49)] < 2 ^ 51 := by
  have := b2n_lt arr
  have := b2n_lt on
  simp only [fieldSum_cons, fieldSum_nil]
  omega

theorem fields_sapMv (fw : BitVec 4) (fx : BitVec 4) (init : Bool) (sd : BitVec 5) (cen : Bool) (e : BitVec 3) :
    fieldSum [(fw.toNat, 47), (fx.toNat, 43), (b2n init, 42), (sd.toNat, 37), (b2n cen, 36), (e.toNat, 33)] < 2 ^ 51 := by
  have := b2n_lt init
  have := b2n_lt cen
  simp only [fieldSum_cons, fieldSum_nil]
  omega

theorem fields_glzRun (sd : BitVec 5) (cen : Bool) (e : BitVec 3) :
    fieldSum [(sd.toNat, 46), (b2n cen, 45), (e.toNat, 42)] < 2 ^ 51 := by
  have := b2n_lt cen
  simp only [fieldSum_cons, fieldSum_nil]
  omega

theorem fields_glzTbl (tbl : BitVec 2) (sd : BitVec 5) (cen : Bool) (e : BitVec 3) :
    fieldSum [(tbl.toNat, 49), (sd.toNat, 44), (b2n cen, 43), (e.toNat, 40)] < 2 ^ 51 := by
  have := b2n_lt cen
  simp only [fieldSum_cons, fieldSum_nil]
  omega

theorem fields_ldTs (rd : BitVec 5) (mode : Bool) (rb : BitVec 5) (size : BitVec 2) (sx : Bool) (imm : BitVec 24) :
    fieldSum [(rd.toNat, 46), (b2n mode, 45), (rb.toNat, 40), (size.toNat, 38), (b2n sx, 37), (imm.toNat, 13)] < 2 ^ 51 := by
  have := b2n_lt mode
  have := b2n_lt sx
  simp only [fieldSum_cons, fieldSum_nil]
  omega

theorem fields_stTs (rs : BitVec 5) (mode : Bool) (rb : BitVec 5) (size : BitVec 2) (imm : BitVec 24) :
    fieldSum [(rs.toNat, 46), (b2n mode, 45), (rb.toNat, 40), (size.toNat, 38), (imm.toNat, 13)] < 2 ^ 51 := by
  have := b2n_lt mode
  simp only [fieldSum_cons, fieldSum_nil]
  omega

theorem fields_movSr (rd : BitVec 5) (idx : BitVec 6) :
    fieldSum [(rd.toNat, 46), (idx.toNat, 40)] < 2 ^ 51 := by
  simp only [fieldSum_cons, fieldSum_nil]
  omega

theorem fields_movHb (rd : BitVec 5) (sel : BitVec 6) :
    fieldSum [(rd.toNat, 46), (sel.toNat, 40)] < 2 ^ 51 := by
  simp only [fieldSum_cons, fieldSum_nil]
  omega

theorem fields_movOb (sel : BitVec 6) (rs : BitVec 5) :
    fieldSum [(sel.toNat, 45), (rs.toNat, 40)] < 2 ^ 51 := by
  simp only [fieldSum_cons, fieldSum_nil]
  omega

theorem fields_hbCp : fieldSum [] < 2 ^ 51 := by decide

theorem fields_obClr : fieldSum [] < 2 ^ 51 := by decide

theorem fields_dma (dk : Bool) (sk : Bool) (dr : BitVec 5) (sr : BitVec 5) (lr : BitVec 5) (cen : Bool) (e : BitVec 3) :
    fieldSum [(b2n dk, 50), (b2n sk, 49), (dr.toNat, 44), (sr.toNat, 39), (lr.toNat, 34), (b2n cen, 33), (e.toNat, 30)] < 2 ^ 51 := by
  have := b2n_lt dk
  have := b2n_lt sk
  have := b2n_lt cen
  simp only [fieldSum_cons, fieldSum_nil]
  omega

theorem fields_schW (sel : BitVec 3) (rs : BitVec 5) (idx : BitVec 8) :
    fieldSum [(sel.toNat, 48), (rs.toNat, 43), (idx.toNat, 35)] < 2 ^ 51 := by
  simp only [fieldSum_cons, fieldSum_nil]
  omega

theorem fields_flmPush (ad : BitVec 4) (f : FlumeOp) :
    fieldSum [(ad.toNat, 47), (encFlume f 46 33 28, 0)] < 2 ^ 51 := by
  have := encFlume_le f 46 33 28 (by decide)
  simp only [fieldSum_cons, fieldSum_nil]
  omega

theorem fields_flmTry (ad : BitVec 4) (f : FlumeOp) (pd : BitVec 3) :
    fieldSum [(ad.toNat, 47), (encFlume f 46 33 28, 0), (pd.toNat, 25)] < 2 ^ 51 := by
  have := encFlume_le f 46 33 28 (by decide)
  simp only [fieldSum_cons, fieldSum_nil]
  omega

theorem fields_flmCmt (f : FlumeOp) :
    fieldSum [(encFlume f 46 33 28, 0)] < 2 ^ 51 := by
  have := encFlume_le f 46 33 28 (by decide)
  simp only [fieldSum_cons, fieldSum_nil]
  omega

theorem fields_flmPop (ad : BitVec 4) (f : FlumeOp) :
    fieldSum [(ad.toNat, 47), (encFlume f 46 33 28, 0)] < 2 ^ 51 := by
  have := encFlume_le f 46 33 28 (by decide)
  simp only [fieldSum_cons, fieldSum_nil]
  omega

theorem fields_flmTpop (ad : BitVec 4) (f : FlumeOp) (pd : BitVec 3) :
    fieldSum [(ad.toNat, 47), (encFlume f 46 33 28, 0), (pd.toNat, 25)] < 2 ^ 51 := by
  have := encFlume_le f 46 33 28 (by decide)
  simp only [fieldSum_cons, fieldSum_nil]
  omega

theorem fields_flmNext (ad : BitVec 4) (pd : BitVec 3) :
    fieldSum [(ad.toNat, 47), (pd.toNat, 25)] < 2 ^ 51 := by
  simp only [fieldSum_cons, fieldSum_nil]
  omega

theorem fields_flmRel (f : FlumeOp) :
    fieldSum [(encFlume f 46 33 28, 0)] < 2 ^ 51 := by
  have := encFlume_le f 46 33 28 (by decide)
  simp only [fieldSum_cons, fieldSum_nil]
  omega

theorem fields_verAdmit (sd : BitVec 5) (close : Bool) :
    fieldSum [(sd.toNat, 46), (b2n close, 45)] < 2 ^ 51 := by
  have := b2n_lt close
  simp only [fieldSum_cons, fieldSum_nil]
  omega

theorem fields_verPin (pd : BitVec 3) (sd : BitVec 5) (f : FlumeOp) :
    fieldSum [(pd.toNat, 48), (sd.toNat, 43), (encFlume f 42 29 24, 0)] < 2 ^ 51 := by
  have := encFlume_le f 42 29 24 (by decide)
  simp only [fieldSum_cons, fieldSum_nil]
  omega

theorem fields_verLook (pd : BitVec 3) (sd : BitVec 5) (gs : BitVec 5) :
    fieldSum [(pd.toNat, 48), (sd.toNat, 43), (gs.toNat, 38)] < 2 ^ 51 := by
  simp only [fieldSum_cons, fieldSum_nil]
  omega

theorem fields_verUnpin (gs : BitVec 5) :
    fieldSum [(gs.toNat, 46)] < 2 ^ 51 := by
  simp only [fieldSum_cons, fieldSum_nil]
  omega

theorem fields_verBase (ad : BitVec 4) (ss : BitVec 5) (is : BitVec 5) :
    fieldSum [(ad.toNat, 47), (ss.toNat, 42), (is.toNat, 37)] < 2 ^ 51 := by
  simp only [fieldSum_cons, fieldSum_nil]
  omega

theorem fields_verBuild (sd : BitVec 5) (gs : BitVec 5) :
    fieldSum [(sd.toNat, 46), (gs.toNat, 41)] < 2 ^ 51 := by
  simp only [fieldSum_cons, fieldSum_nil]
  omega

theorem fields_verTbuild (sd : BitVec 5) (gs : BitVec 5) (pd : BitVec 3) :
    fieldSum [(sd.toNat, 46), (gs.toNat, 41), (pd.toNat, 38)] < 2 ^ 51 := by
  simp only [fieldSum_cons, fieldSum_nil]
  omega

theorem fields_verLive (ss : BitVec 5) :
    fieldSum [(ss.toNat, 46)] < 2 ^ 51 := by
  simp only [fieldSum_cons, fieldSum_nil]
  omega

theorem fields_verDrop (ss : BitVec 5) :
    fieldSum [(ss.toNat, 46)] < 2 ^ 51 := by
  simp only [fieldSum_cons, fieldSum_nil]
  omega

theorem fields_verSw (gs : BitVec 5) :
    fieldSum [(gs.toNat, 46)] < 2 ^ 51 := by
  simp only [fieldSum_cons, fieldSum_nil]
  omega

theorem fields_verAdm (gs : BitVec 5) (barrier : Bool) :
    fieldSum [(gs.toNat, 46), (b2n barrier, 45)] < 2 ^ 51 := by
  have := b2n_lt barrier
  simp only [fieldSum_cons, fieldSum_nil]
  omega

theorem fields_verLb (ss : BitVec 5) (is : BitVec 5) (ab : BitVec 4) :
    fieldSum [(ss.toNat, 46), (is.toNat, 41), (ab.toNat, 37)] < 2 ^ 51 := by
  simp only [fieldSum_cons, fieldSum_nil]
  omega

theorem fields_verNl (ss : BitVec 5) (ns : BitVec 5) :
    fieldSum [(ss.toNat, 46), (ns.toNat, 41)] < 2 ^ 51 := by
  simp only [fieldSum_cons, fieldSum_nil]
  omega

theorem fields_varLook (ad : BitVec 4) (sd : BitVec 5) (pd : BitVec 3) (vs : BitVec 5) :
    fieldSum [(ad.toNat, 47), (sd.toNat, 42), (pd.toNat, 39), (vs.toNat, 34)] < 2 ^ 51 := by
  simp only [fieldSum_cons, fieldSum_nil]
  omega

theorem fields_varCnt (vs : BitVec 5) :
    fieldSum [(vs.toNat, 46)] < 2 ^ 51 := by
  simp only [fieldSum_cons, fieldSum_nil]
  omega

/-- The operand fields of a slot instruction lie below bit 51 (R206). -/
theorem slot_fields (i : Instr) (o : SlotOp) (h : semOf i = some o) :
    ∃ op c l, encSlot i = slotBits op c l ∧ slotCtlOf i = some c ∧ op < 256 ∧ o.slots = opcodeSlots op ∧ (op = 0 → ∃ c, i = .nop c) ∧
      fieldSum l < 2 ^ 51 := by
  cases i <;> simp only [semOf, reduceCtorEq, Option.some.injEq] at h <;> subst h
  case nop c =>
    refine ⟨_, _, _, rfl, rfl, by decide, rfl, by simp, ?_⟩
    exact fields_nop 
  case br c target =>
    refine ⟨_, _, _, rfl, rfl, by decide, rfl, by simp, ?_⟩
    exact fields_br target
  case brS c rs =>
    refine ⟨_, _, _, rfl, rfl, by decide, rfl, by simp, ?_⟩
    exact fields_brS rs
  case call c target =>
    refine ⟨_, _, _, rfl, rfl, by decide, rfl, by simp, ?_⟩
    exact fields_call target
  case ret c =>
    refine ⟨_, _, _, rfl, rfl, by decide, rfl, by simp, ?_⟩
    exact fields_ret 
  case loop c rs last =>
    refine ⟨_, _, _, rfl, rfl, by decide, rfl, by simp, ?_⟩
    exact fields_loop rs last
  case halt c =>
    refine ⟨_, _, _, rfl, rfl, by decide, rfl, by simp, ?_⟩
    exact fields_halt 
  case trapRet c mode =>
    refine ⟨_, _, _, rfl, rfl, by decide, rfl, by simp, ?_⟩
    exact fields_trapRet mode
  case evtSig c tq e k =>
    refine ⟨_, _, _, rfl, rfl, by decide, rfl, by simp, ?_⟩
    exact fields_evtSig tq e k
  case evtWait c e k =>
    refine ⟨_, _, _, rfl, rfl, by decide, rfl, by simp, ?_⟩
    exact fields_evtWait e k
  case wchSet c idx kind f e =>
    refine ⟨_, _, _, rfl, rfl, by decide, rfl, by simp, ?_⟩
    exact fields_wchSet idx kind f e
  case waitAny c sd =>
    refine ⟨_, _, _, rfl, rfl, by decide, rfl, by simp, ?_⟩
    exact fields_waitAny sd
  case waitIdle c arrays glaze sap dma =>
    refine ⟨_, _, _, rfl, rfl, by decide, rfl, by simp, ?_⟩
    exact fields_waitIdle arrays glaze sap dma
  case add c rd ra rb =>
    refine ⟨_, _, _, rfl, rfl, by decide, rfl, by simp, ?_⟩
    exact fields_add rd ra rb
  case sub c rd ra rb =>
    refine ⟨_, _, _, rfl, rfl, by decide, rfl, by simp, ?_⟩
    exact fields_sub rd ra rb
  case and c rd ra rb =>
    refine ⟨_, _, _, rfl, rfl, by decide, rfl, by simp, ?_⟩
    exact fields_and rd ra rb
  case or c rd ra rb =>
    refine ⟨_, _, _, rfl, rfl, by decide, rfl, by simp, ?_⟩
    exact fields_or rd ra rb
  case xor c rd ra rb =>
    refine ⟨_, _, _, rfl, rfl, by decide, rfl, by simp, ?_⟩
    exact fields_xor rd ra rb
  case shl c rd ra rb =>
    refine ⟨_, _, _, rfl, rfl, by decide, rfl, by simp, ?_⟩
    exact fields_shl rd ra rb
  case shr c rd ra rb =>
    refine ⟨_, _, _, rfl, rfl, by decide, rfl, by simp, ?_⟩
    exact fields_shr rd ra rb
  case sra c rd ra rb =>
    refine ⟨_, _, _, rfl, rfl, by decide, rfl, by simp, ?_⟩
    exact fields_sra rd ra rb
  case mul c rd ra rb =>
    refine ⟨_, _, _, rfl, rfl, by decide, rfl, by simp, ?_⟩
    exact fields_mul rd ra rb
  case min c rd ra rb =>
    refine ⟨_, _, _, rfl, rfl, by decide, rfl, by simp, ?_⟩
    exact fields_min rd ra rb
  case max c rd ra rb =>
    refine ⟨_, _, _, rfl, rfl, by decide, rfl, by simp, ?_⟩
    exact fields_max rd ra rb
  case addi c rd ra imm =>
    refine ⟨_, _, _, rfl, rfl, by decide, rfl, by simp, ?_⟩
    exact fields_addi rd ra imm
  case movi c rd imm =>
    refine ⟨_, _, _, rfl, rfl, by decide, rfl, by simp, ?_⟩
    exact fields_movi rd imm
  case movhi c rd imm =>
    refine ⟨_, _, _, rfl, rfl, by decide, rfl, by simp, ?_⟩
    exact fields_movhi rd imm
  case andi c rd ra imm =>
    refine ⟨_, _, _, rfl, rfl, by decide, rfl, by simp, ?_⟩
    exact fields_andi rd ra imm
  case cmpEq c pd ra o =>
    refine ⟨_, _, _, rfl, rfl, by decide, rfl, by simp, ?_⟩
    exact fields_cmpEq pd ra o
  case cmpNe c pd ra o =>
    refine ⟨_, _, _, rfl, rfl, by decide, rfl, by simp, ?_⟩
    exact fields_cmpNe pd ra o
  case cmpLt c pd ra o =>
    refine ⟨_, _, _, rfl, rfl, by decide, rfl, by simp, ?_⟩
    exact fields_cmpLt pd ra o
  case cmpLtu c pd ra o =>
    refine ⟨_, _, _, rfl, rfl, by decide, rfl, by simp, ?_⟩
    exact fields_cmpLtu pd ra o
  case cmpLe c pd ra o =>
    refine ⟨_, _, _, rfl, rfl, by decide, rfl, by simp, ?_⟩
    exact fields_cmpLe pd ra o
  case cmpLeu c pd ra o =>
    refine ⟨_, _, _, rfl, rfl, by decide, rfl, by simp, ?_⟩
    exact fields_cmpLeu pd ra o
  case tst c pd ra b =>
    refine ⟨_, _, _, rfl, rfl, by decide, rfl, by simp, ?_⟩
    exact fields_tst pd ra b
  case plog c pd pa pb na nb op =>
    refine ⟨_, _, _, rfl, rfl, by decide, rfl, by simp, ?_⟩
    exact fields_plog pd pa pb na nb op
  case movA c ad rs =>
    refine ⟨_, _, _, rfl, rfl, by decide, rfl, by simp, ?_⟩
    exact fields_movA ad rs
  case movS c rd ab =>
    refine ⟨_, _, _, rfl, rfl, by decide, rfl, by simp, ?_⟩
    exact fields_movS rd ab
  case addA c ad ab rs =>
    refine ⟨_, _, _, rfl, rfl, by decide, rfl, by simp, ?_⟩
    exact fields_addA ad ab rs
  case addiA c ad ab imm =>
    refine ⟨_, _, _, rfl, rfl, by decide, rfl, by simp, ?_⟩
    exact fields_addiA ad ab imm
  case mma c fa fb t init sd =>
    refine ⟨_, _, _, rfl, rfl, by decide, rfl, by simp, ?_⟩
    exact fields_mma fa fb t init sd
  case mmaQ c fa fb t init sd quad =>
    refine ⟨_, _, _, rfl, rfl, by decide, rfl, by simp, ?_⟩
    exact fields_mmaQ fa fb t init sd quad
  case raftSet c size =>
    refine ⟨_, _, _, rfl, rfl, by decide, rfl, by simp, ?_⟩
    exact fields_raftSet size
  case qtrSet c arr on =>
    refine ⟨_, _, _, rfl, rfl, by decide, rfl, by simp, ?_⟩
    exact fields_qtrSet arr on
  case sapMv c fw fx init sd cen e =>
    refine ⟨_, _, _, rfl, rfl, by decide, rfl, by simp, ?_⟩
    exact fields_sapMv fw fx init sd cen e
  case glzRun c sd cen e =>
    refine ⟨_, _, _, rfl, rfl, by decide, rfl, by simp, ?_⟩
    exact fields_glzRun sd cen e
  case glzTbl c tbl sd cen e =>
    refine ⟨_, _, _, rfl, rfl, by decide, rfl, by simp, ?_⟩
    exact fields_glzTbl tbl sd cen e
  case ldTs c rd mode rb size sx imm =>
    refine ⟨_, _, _, rfl, rfl, by decide, rfl, by simp, ?_⟩
    exact fields_ldTs rd mode rb size sx imm
  case stTs c rs mode rb size imm =>
    refine ⟨_, _, _, rfl, rfl, by decide, rfl, by simp, ?_⟩
    exact fields_stTs rs mode rb size imm
  case movSr c rd idx =>
    refine ⟨_, _, _, rfl, rfl, by decide, rfl, by simp, ?_⟩
    exact fields_movSr rd idx
  case movHb c rd sel =>
    refine ⟨_, _, _, rfl, rfl, by decide, rfl, by simp, ?_⟩
    exact fields_movHb rd sel
  case movOb c sel rs =>
    refine ⟨_, _, _, rfl, rfl, by decide, rfl, by simp, ?_⟩
    exact fields_movOb sel rs
  case hbCp c =>
    refine ⟨_, _, _, rfl, rfl, by decide, rfl, by simp, ?_⟩
    exact fields_hbCp 
  case obClr c =>
    refine ⟨_, _, _, rfl, rfl, by decide, rfl, by simp, ?_⟩
    exact fields_obClr 
  case dma c dk sk dr sr lr cen e =>
    refine ⟨_, _, _, rfl, rfl, by decide, rfl, by simp, ?_⟩
    exact fields_dma dk sk dr sr lr cen e
  case schW c sel rs idx =>
    refine ⟨_, _, _, rfl, rfl, by decide, rfl, by simp, ?_⟩
    exact fields_schW sel rs idx
  case flmPush c ad f =>
    refine ⟨_, _, _, rfl, rfl, by decide, rfl, by simp, ?_⟩
    exact fields_flmPush ad f
  case flmTry c ad f pd =>
    refine ⟨_, _, _, rfl, rfl, by decide, rfl, by simp, ?_⟩
    exact fields_flmTry ad f pd
  case flmCmt c f =>
    refine ⟨_, _, _, rfl, rfl, by decide, rfl, by simp, ?_⟩
    exact fields_flmCmt f
  case flmPop c ad f =>
    refine ⟨_, _, _, rfl, rfl, by decide, rfl, by simp, ?_⟩
    exact fields_flmPop ad f
  case flmTpop c ad f pd =>
    refine ⟨_, _, _, rfl, rfl, by decide, rfl, by simp, ?_⟩
    exact fields_flmTpop ad f pd
  case flmNext c ad pd =>
    refine ⟨_, _, _, rfl, rfl, by decide, rfl, by simp, ?_⟩
    exact fields_flmNext ad pd
  case flmRel c f =>
    refine ⟨_, _, _, rfl, rfl, by decide, rfl, by simp, ?_⟩
    exact fields_flmRel f
  case verAdmit c sd close =>
    refine ⟨_, _, _, rfl, rfl, by decide, rfl, by simp, ?_⟩
    exact fields_verAdmit sd close
  case verPin c pd sd f =>
    refine ⟨_, _, _, rfl, rfl, by decide, rfl, by simp, ?_⟩
    exact fields_verPin pd sd f
  case verLook c pd sd gs =>
    refine ⟨_, _, _, rfl, rfl, by decide, rfl, by simp, ?_⟩
    exact fields_verLook pd sd gs
  case verUnpin c gs =>
    refine ⟨_, _, _, rfl, rfl, by decide, rfl, by simp, ?_⟩
    exact fields_verUnpin gs
  case verBase c ad ss is =>
    refine ⟨_, _, _, rfl, rfl, by decide, rfl, by simp, ?_⟩
    exact fields_verBase ad ss is
  case verBuild c sd gs =>
    refine ⟨_, _, _, rfl, rfl, by decide, rfl, by simp, ?_⟩
    exact fields_verBuild sd gs
  case verTbuild c sd gs pd =>
    refine ⟨_, _, _, rfl, rfl, by decide, rfl, by simp, ?_⟩
    exact fields_verTbuild sd gs pd
  case verLive c ss =>
    refine ⟨_, _, _, rfl, rfl, by decide, rfl, by simp, ?_⟩
    exact fields_verLive ss
  case verDrop c ss =>
    refine ⟨_, _, _, rfl, rfl, by decide, rfl, by simp, ?_⟩
    exact fields_verDrop ss
  case verSw c gs =>
    refine ⟨_, _, _, rfl, rfl, by decide, rfl, by simp, ?_⟩
    exact fields_verSw gs
  case verAdm c gs barrier =>
    refine ⟨_, _, _, rfl, rfl, by decide, rfl, by simp, ?_⟩
    exact fields_verAdm gs barrier
  case verLb c ss is ab =>
    refine ⟨_, _, _, rfl, rfl, by decide, rfl, by simp, ?_⟩
    exact fields_verLb ss is ab
  case verNl c ss ns =>
    refine ⟨_, _, _, rfl, rfl, by decide, rfl, by simp, ?_⟩
    exact fields_verNl ss ns
  case varLook c ad sd pd vs =>
    refine ⟨_, _, _, rfl, rfl, by decide, rfl, by simp, ?_⟩
    exact fields_varLook ad sd pd vs
  case varCnt c vs =>
    refine ⟨_, _, _, rfl, rfl, by decide, rfl, by simp, ?_⟩
    exact fields_varCnt vs

/-- A well-formed slot instruction stands in a slot that R207 allows and is no NOP with other bits set (R207, R208). -/
theorem slotFormed_ok (i : Instr) (c : SlotCtl) (o : SlotOp) (hc : slotCtlOf i = some c) (ho : semOf i = some o) (hf : slotFormed i = true) :
    o.slots.contains c.slot.val = true ∧ ¬(bits (encSlot i) 56 8 = 0 ∧ encSlot i ≠ 0) := by
  obtain ⟨op, c', l, h1, h2, h3, h4, h5, h6⟩ := slot_fields i o ho
  have hcc : c' = c := by rw [h2] at hc; exact Option.some.inj hc
  subst hcc
  have hop : bits (encSlot i) 56 8 = op := by rw [h1]; exact bits_op op c' l h3 h6
  unfold slotFormed at hf
  rw [hc] at hf
  simp only [hop, Bool.and_eq_true, Bool.or_eq_true, decide_eq_true_eq] at hf
  refine ⟨by rw [h4]; exact hf.1, ?_⟩
  rintro ⟨ha, hb⟩
  rcases hf.2 with hz | hz
  · rw [hop] at ha; exact hz ha
  · exact hb hz

/-- A well-formed slot instruction that stands alone, passes its checks and waits for nothing issues at once (R206 to R215). -/
theorem issue_formed (s : State) (c : SlotCtl) (i : Instr) (o : SlotOp) (h : s.Alone c) (hc : slotCtlOf i = some c) (ho : semOf i = some o)
    (hf : slotFormed i = true) (hr : s.regWait (seqKey c) o = false) (hk : o.chk s = none) (hw : o.wait s = 0) (hh : o.hold s = 0) (hl : o.late s = 0)
    (ht : ∀ r ∈ o.tW s, r ∉ o.tG s) :
    issue c i s = .next (((((o.eff s s).flow (seqKey c) (o.ctl s)).count (R.SEQ_CNT.issued (seqKey c / 4) (seqKey c % 4)) 1).put
      (R.SEQ_STAT.wait (seqKey c / 4) (seqKey c % 4)) 0).put (R.VER_HDR.gate_hold (seqKey c)) 0) :=
  issue_alone s c i o h hc ho (slotFormed_ok i c o hc ho hf).2 (slotFormed_ok i c o hc ho hf).1 hr hk hw hh hl ht

end Sys2Proof.Machine
end

