-- ==== Sys2Proof/Tests/Slice0.lean ====
section
/-! SUPPORT. Tests/Slice0.lean: tests of the commands on small states, and for every statement with hypotheses a state and operands that meet
them (witness_<statement>). Expected values come from the spec's tables and rules, named at each test. -/

open Sys2Proof Sys2Proof.Machine

namespace Sys2Proof.Tests

-- One theorem at a time: each evaluation has a deep stack.
set_option Elab.async false

/-! ## Helpers -/

/-- Slot `n` of sequencer Q0 of compute die 0, the last slot of its bundle, with no predicate. -/
def c0 (n : Fin 4) : SlotCtl := { die := 0, q := 0, slot := n, pe := false, pidx := 0, psense := false, more := false }

/-- The device is up: DEVICE_READY, link up, PF context ACTIVE with one window over all addresses and Bus Master Enable
set, every power domain on. -/
def up : State :=
  { State.reset.puts [(R.HOST_STAT.ready, 1), (R.CTX_STATE.state 0, 1), (R.MEM_WIN.en 0 0, 1), (R.MEM_WIN.r 0 0, 1), (R.MEM_WIN.w 0 0, 1),
      (R.MEM_WIN.size 0 0, 2 ^ 36 - 1), (R.PWR_PD.on 0, 2 ^ 64 - 1), (R.PWR_PD.on 1, 2 ^ 40 - 1)] with boot := 4, linkUp := true, fns := [(0, ⟨true, true, false, false⟩)] }

/-- Sequencer 0 runs bundle 4 of 16. -/
def run : State :=
  { up.puts [(R.SEQ_STAT.state 0 0, 3), (R.SEQ_STAT.pc 0 0, 4)] with seqs := [(0, { Seq.empty with nbundles := 16 })] }

/-- `run` with register fields and its sequencer changed. -/
def runWith (l : List (Fld × Nat)) (f : Seq → Seq) : State := (run.puts l).modSeq 0 f

/-- What `run` must keep for its slots to issue. -/
def aloneB (s : State) (n : Fin 4) : Bool :=
  decide (s.seqState 0 = seqRUNNING) && s.live && (s.seq 0).staged.isEmpty && (s.seq 0).held.isEmpty && !(s.seq 0).stepping
    && s.enabled 0 (c0 n) && decide (s.pc 0 < s.nbundles 0 ∧ s.nbundles 0 ≤ 16384) && (s.seq 0).fetchErr.isNone

theorem alone_of (s : State) (n : Fin 4) (h : aloneB s n = true) : s.Alone (c0 n) := by
  simp only [aloneB, Bool.and_eq_true, decide_eq_true_eq, List.isEmpty_iff, Bool.not_eq_true', Option.isNone_iff_eq_none] at h
  obtain ⟨⟨⟨⟨⟨⟨⟨h1, h2⟩, h3⟩, h4⟩, h5⟩, h6⟩, h7, h8⟩, h9⟩ := h
  exact ⟨h1, h2, h3, h4, h5, rfl, h6, h7, h8, h9⟩

theorem noPending_of (s : State) (c : SlotCtl) (i : Instr) (h : (semOf i).all (fun o => !s.regWait (seqKey c) o) = true) : s.NoPending c i := by
  intro o ho; simpa [ho] using h

theorem accepts_of (s : State) (c : SlotCtl) (i : Instr)
    (h : (semOf i).all (fun o => !s.regWait (seqKey c) o && (o.chk s).isNone && decide (o.wait s = 0) && decide (o.hold s = 0) && decide (o.late s = 0)) = true) :
    s.Accepts c i := by
  constructor
  · intro o ho; simp [ho] at h; exact h.1.1.1.1
  · intro o ho; simp [ho] at h; exact ⟨h.1.1.1.2, h.1.1.2, h.1.2, h.2⟩

theorem noLoopEnd_of (s : State) (k : Nat) (h : (s.seq k).loops.all (fun l => decide (l.last ≠ s.pc k)) = true) : s.NoLoopEnd k := by
  intro l hl; simpa using List.all_eq_true.1 h l hl

/-- Sequencer 0, a bundle of one slot: the slot stands alone, no loop level ends and no load is pending. -/
def Ready (s : State) (i : Instr) (n : Fin 4) : Prop := s.Alone (c0 n) ∧ s.NoLoopEnd 0 ∧ s.NoPending (c0 n) i

theorem ready_of (s : State) (i : Instr) (n : Fin 4)
    (h : (aloneB s n && (s.seq 0).loops.all (fun l => decide (l.last ≠ s.pc 0)) && (semOf i).all (fun o => !s.regWait 0 o)) = true) :
    Ready s i n := by
  simp only [Bool.and_eq_true] at h
  exact ⟨alone_of s n h.1.1, noLoopEnd_of s 0 h.1.2, noPending_of s (c0 n) i h.2⟩

/-- The state after a command. -/
def after (i : Instr) (s : State) : State :=
  match exec i s with
  | .next t => t
  | _ => s

/-! ## Well-formed and ill-formed commands -/

/-- R207: an ADD is not legal in slot 1. -/
theorem smoke_slot : WellFormed (.add (c0 1) 1 2 3) = false ∧ WellFormed (.add (c0 3) 1 2 3) = true := by decide +kernel

/-- R208: a NOP slot carries no predicate. -/
theorem smoke_nop : WellFormed (.nop { c0 0 with pe := true }) = false ∧ WellFormed (.nop (c0 0)) = true := by decide +kernel

/-- R31, R501: a thermal sample carries six grids and six junctions. -/
theorem smoke_thermal : WellFormed (.thermalSample 0 [] [] []) = false ∧
    WellFormed (.thermalSample 0 (List.replicate 6 0) (List.replicate 6 0) []) = true := by decide +kernel

/-- R429: a BAR4 access carries at most 4,096 bytes. -/
theorem smoke_bar4 : WellFormed (.bar4Write 0 0 [1]) = true := by decide +kernel

/-- R207: opcode 0x40 (MMA) in slot 0 is refused by name; R208: a NOP slot with a bit set, and a reserved operand bit. -/
theorem smoke_decode : (decSlot 0 0 0 false 0x4000_0000_0000_0000 = .error E.SEQ_OPCODE) ∧ (decSlot 0 0 0 false 1 = .error E.SEQ_BUNDLE) ∧
    (decSlot 0 0 0 false 0x2000_0000_0000_0001 = .error E.SEQ_OPERAND) ∧ (decSlot 0 0 3 false 0xB800_0000_0000_0000 = .error E.SEQ_OPCODE) := by decide +kernel

/-! ## Slot instructions -/

/-- R234: 1 + (-2) with wrap-around, and s0 reads 0. -/
theorem test_addi : (after (.addi (c0 0) 1 0 0xFFFF_FFFF) run).s 0 1 = 0xFFFF_FFFF_FFFF_FFFF ∧ (after (.addi (c0 0) 1 0 0xFFFF_FFFF) run).pc 0 = 5 := by decide +kernel

/-- R197: s0 discards writes and reads as 0; the bundle issues all the same. -/
theorem test_s0 : (after (.movi (c0 0) 0 7) run).s 0 0 = 0 ∧ (after (.movi (c0 0) 0 7) run).pc 0 = 5 := by decide +kernel

/-- R234: SRA fills with the sign, SHR with zeros. -/
theorem test_shifts : let s := runWith [] (fun x => { x with s := [(1, 0x8000_0000_0000_0000), (2, 63)] })
    (after (.sra (c0 0) 3 1 2) s).s 0 3 = 0xFFFF_FFFF_FFFF_FFFF ∧ (after (.shr (c0 0) 3 1 2) s).s 0 3 = 1 := by decide +kernel

/-- R234: CMP.LT is signed, CMP.LTU unsigned. -/
theorem test_compares : let s := runWith [] (fun x => { x with s := [(1, 0xFFFF_FFFF_FFFF_FFFF)] })
    (after (.cmpLt (c0 0) 1 1 (.reg 0)) s).p 0 1 = true ∧ (after (.cmpLtu (c0 0) 1 1 (.reg 0)) s).p 0 1 = false := by decide +kernel

/-- R234: PLOG with op 3 raises SEQ_OPERAND, and with no handler the sequencer is FAULTED (R203). -/
theorem test_plog_reserved : (after (.plog (c0 0) 1 0 0 false false 3) run).seqState 0 = seqFAULTED ∧
    (after (.plog (c0 0) 1 0 0 false false 3) run).get (R.SEQ_EXC0.code 0 0) = E.SEQ_OPERAND := by decide +kernel

/-- R231: CALL pushes the next bundle. -/
theorem test_call : ((after (.call (c0 0) 9) run).seq 0).calls = [5] ∧ (after (.call (c0 0) 9) run).pc 0 = 9 := by decide +kernel

theorem witness_RegisterResults :
    Ready run (.addi (c0 0) 31 0 5) 0 ∧ (scalarResult run (.addi (c0 0) 31 0 5)).isSome = true ∧ slotFormed (.addi (c0 0) 31 0 5) = true ∧
    Ready run (.tst (c0 3) 7 0 63) 3 ∧ (predResult run (.tst (c0 3) 7 0 63)).isSome = true ∧ slotFormed (.tst (c0 3) 7 0 63) = true ∧
    Ready run (.addiA (c0 3) 15 0 5) 3 ∧ (addrResult run (.addiA (c0 3) 15 0 5)).isSome = true ∧ slotFormed (.addiA (c0 3) 15 0 5) = true :=
  ⟨ready_of _ _ _ (by decide +kernel), by decide +kernel, by decide +kernel, ready_of _ _ _ (by decide +kernel), by decide +kernel, by decide +kernel, ready_of _ _ _ (by decide +kernel), by decide +kernel, by decide +kernel⟩

theorem witness_ControlFlow : let s := runWith [] (fun x => { x with calls := [15] })
    Ready s (.brS (c0 0) 3) 0 ∧ slotFormed (.nop (c0 0)) = true ∧ (15 : BitVec 14).toNat < s.nbundles 0 ∧ (s.s 0 3).toNat % 2 ^ 14 < s.nbundles 0 ∧
    (s.seq 0).calls.length < 16 ∧ (s.seq 0).calls = 15 :: [] ∧ 15 < s.nbundles 0 :=
  ⟨ready_of _ _ _ (by decide +kernel), by decide +kernel⟩

theorem witness_Loops : let s := runWith [] (fun x => { x with s := [(1, 3)] })
    let u := runWith [] (fun x => { x with loops := [⟨2, 4, 2⟩, ⟨1, 9, 1⟩] })
    let v := runWith [] (fun x => { x with loops := [⟨2, 4, 1⟩] })
    Ready s (.loop (c0 0) 1 15) 0 ∧ (s.pc 0 < 15 ∧ 15 < s.nbundles 0 ∧ (s.s 0 1).toNat % 2 ^ 32 ≠ 0 ∧ (s.s 0 2).toNat % 2 ^ 32 = 0 ∧
      (s.seq 0).loops.length < 4) ∧ u.Alone (c0 0) ∧ v.Alone (c0 0) ∧ (u.seq 0).loops = [⟨2, 4, 2⟩, ⟨1, 9, 1⟩] ∧ u.pc 0 = 4 ∧ v.pc 0 = 4 ∧
      (v.seq 0).loops = [⟨2, 4, 1⟩] :=
  ⟨ready_of _ _ _ (by decide +kernel), by decide +kernel, alone_of _ _ (by decide +kernel), alone_of _ _ (by decide +kernel), by decide +kernel⟩

theorem witness_HaltReturnAndEvents : let s := runWith [(R.SEQ_STAT.in_trap 0 0, 1)] (fun x => { x with epc := 3, ev := [(7, 65535)], watch := [(0, .event 7)] })
    Ready s (.halt (c0 0)) 0 ∧ s.get (R.SEQ_STAT.in_trap 0 0) = 1 ∧ run.get (R.SEQ_STAT.in_trap 0 0) = 0 ∧ (s.seq 0).epc < 16384 ∧
    (s.seq 0).evc 0 + 65535 ≤ 65535 ∧ 65535 < (s.seq 0).evc 7 + 1 ∧ (65535 : BitVec 16).toNat ≤ (s.seq 0).evc 7 ∧
    s.NoPending (c0 0) (.wchSet (c0 0) 7 3 (.imm 0) 7) ∧ s.NoPending (c0 0) (.waitAny (c0 0) 1) ∧ s.watchHolds 0 ((s.seq 0).watchAt 0) = true ∧
    s.arraysBusy 0 = false ∧ s.glazeBusy 0 = false ∧ s.sapBusy 0 = false ∧ (s.seq 0).dma = [] :=
  ⟨ready_of _ _ _ (by decide +kernel), by decide +kernel, by decide +kernel, by decide +kernel, by decide +kernel, by decide +kernel, by decide +kernel, noPending_of _ _ _ (by decide +kernel),
   noPending_of _ _ _ (by decide +kernel), by decide +kernel⟩

theorem witness_MovesAndScheduleWrites : let s := runWith [(R.SCHED_CTL.mode 0 0, 1)] id
    Ready run (.movSr (c0 3) 1 11) 3 ∧ Ready run (.movSr (c0 3) 1 12) 3 ∧ Ready run (.movHb (c0 3) 1 13) 3 ∧ Ready run (.movOb (c0 3) 11 1) 3 ∧
    Ready run (.schW (c0 3) 4 1 255) 3 ∧ run.get (R.SCHED_CTL.mode 0 0) = 0 ∧ Ready s (.schW (c0 3) 0 1 0) 3 ∧ s.get (R.SCHED_CTL.mode 0 0) ≠ 0 ∧
    (s.seq 0).stepEnded = false ∧ (s.seq 0).loadedNoNext = false :=
  ⟨ready_of _ _ _ (by decide +kernel), ready_of _ _ _ (by decide +kernel), ready_of _ _ _ (by decide +kernel), ready_of _ _ _ (by decide +kernel), ready_of _ _ _ (by decide +kernel),
   by decide +kernel, ready_of _ _ _ (by decide +kernel), by decide +kernel⟩

theorem witness_LoadsAndStores : let s := runWith [] (fun x => { x with s := [(1, 0x02FF_FFF8)], a := [(1, 0x2000_1000)] })
    let u := runWith [] (fun x => { x with loads := [⟨31, 0x2000_1000, 8, true, none⟩] })
    Ready s (.ldTs (c0 3) 1 false 1 3 true 0) 3 ∧ (s.s 0 1).toNat % 2 ^ 26 + 8 ≤ 0x0300_0000 ∧ s.tsWait 0 [(0x02FF_FFF8, 0x0300_0000)] [] = 0 ∧
    s.readBad (tileBase 0 + 0x02FF_FFF8) 8 = [] ∧ Ready s (.ldTs (c0 3) 1 true 1 3 true 0) 3 ∧ (s.a 0 1).toNat % 8 = 0 ∧
    s.permits (s.seqCtx 0) 0x2000_1000 8 false = true ∧ (u.seq 0).loads = [⟨31, 0x2000_1000, 8, true, none⟩] ∧ u.unavailable 0x2000_1000 = none ∧ u.readBad 0x2000_1000 8 = [] ∧
    Ready s (.stTs (c0 3) 1 false 1 3 0) 3 ∧ s.tsWait 0 [] [(0x02FF_FFF8, 0x0300_0000)] = 0 ∧ s.badIn (tileBase 0 + 0x02FF_FFF8) 8 = [] ∧
    Ready s (.stTs (c0 3) 1 true 1 3 0) 3 ∧ s.permits (s.seqCtx 0) 0x2000_1000 8 true = true ∧ s.unavailable 0x2000_1000 = none ∧ s.badIn 0x2000_1000 8 = [] :=
  ⟨ready_of _ _ _ (by decide +kernel), by decide +kernel, by decide +kernel, by decide +kernel, ready_of _ _ _ (by decide +kernel), by decide +kernel, by decide +kernel, by decide +kernel, by decide +kernel, by decide +kernel,
   ready_of _ _ _ (by decide +kernel), by decide +kernel, by decide +kernel, ready_of _ _ _ (by decide +kernel), by decide +kernel⟩

/-- R249: a store of two bytes, little-endian, in the tile store. -/
theorem test_stTs : let s := runWith [] (fun x => { x with s := [(1, 0x40), (2, 0x1234)] })
    (after (.stTs (c0 3) 2 false 1 1 0) s).byte (tileBase 0 + 0x40) = 0x34 ∧ (after (.stTs (c0 3) 2 false 1 1 0) s).byte (tileBase 0 + 0x41) = 0x12 := by decide +kernel

/-- R249: a store that is not aligned to its size raises SEQ_TS_ALIGN and stores nothing. -/
theorem test_stTs_align : let s := runWith [] (fun x => { x with s := [(1, 0x41)] })
    (after (.stTs (c0 3) 1 false 1 1 0) s).get (R.SEQ_EXC0.code 0 0) = E.SEQ_TS_ALIGN ∧ (after (.stTs (c0 3) 1 false 1 1 0) s).mem = [] := by decide +kernel

theorem witness_DmaTransfers : let s := runWith [] (fun x => { x with s := [(1, 64), (2, 128)] })
    let u := runWith [] (fun x => { x with dma := [⟨false, true, 64, 0x1000, 128, true, 7, true⟩] })
    Ready s (.dma (c0 3) false false 2 1 1 true 7) 3 ∧ (s.s 0 1).toNat % 64 = 0 ∧ (s.s 0 2).toNat % 64 = 0 ∧ 128 + 64 ≤ 0x0300_0000 ∧ (s.seq 0).dma = [] ∧
    (u.seq 0).dma = [⟨false, true, 64, 0x1000, 128, true, 7, true⟩] ∧ u.quarLen = [] ∧ u.unavailable 0x1000 = none ∧
    u.badIn (tileBase 0 + 64) 128 = [] ∧ u.badIn 0x1000 128 = [] :=
  ⟨ready_of _ _ _ (by decide +kernel), by decide +kernel⟩


/-! ## Flumes, versions, variants -/

/-- A reservation by sequencer 0 in store slot 0. -/
def resv : FlmRec := { hdr := Hdr.zero, owner := 0, holder := 0, sent := false, cmt := false, ready := false, held := false, spill := false, slot := 0, bad := false, pin := none }

/-- A committed record that the consumer has been told of. -/
def full : FlmRec := { resv with hdr := { Hdr.zero with len := 64 }, sent := true, cmt := true, ready := true }

/-- Flume 0 from stage 0 to itself in context 0, four records deep, with two spill slots, in state `st`. -/
def flm (st : Nat) (x : Flume) : State :=
  { run.puts [(R.FLM_STAT.state 0, st), (R.FLM_DESC.depth 0, 4), (R.FLM_DESC.rec_size 0, 1), (R.FLM_DESC.store_slots 0, 4), (R.FLM_DESC.spill_lim 0, 2),
      (R.FLM_DESC.store_base 0, flumeBase 0), (R.FLM_DESC.spill_base 0, 0x2000_0000)] with flumes := [(0, x)] }

/-- R136: a push takes a credit and returns the slot's address. -/
theorem test_push : ((after (.flmPush (c0 3) 1 (.imm 0)) (flm 1 Flume.empty)).flume 0).out = 1 ∧
    ((after (.flmPush (c0 3) 1 (.imm 0)) (flm 1 Flume.empty)).a 0 1).toNat = flumeBase 0 := by decide +kernel

/-- R140: a flume that is not bound refuses with FLM_UNBOUND. -/
theorem test_unbound : (after (.flmPop (c0 3) 1 (.imm 5)) run).get (R.SEQ_EXC0.code 0 0) = E.FLM_UNBOUND := by decide +kernel

theorem witness_FlumeReserveAndCommit : let s := flm 1 Flume.empty
    let u := flm 1 { Flume.empty with out := 4 }
    let v := flm 1 { Flume.empty with recs := [resv], out := 1 }
    Ready s (.flmPush (c0 3) 15 (.imm 0)) 3 ∧ Ready s (.flmTry (c0 3) 15 (.reg 1) 7) 3 ∧ s.flmSeqCheck 0 0 true = none ∧ s.flmState 0 = flmOPEN ∧
    s.canPush 0 = true ∧ s.freeSlot 0 = some (false, 0) ∧ Ready u (.flmTry (c0 3) 15 (.imm 0) 7) 3 ∧ u.canPush 0 = false ∧
    Ready v (.flmCmt (c0 3) (.imm 0)) 3 ∧ v.flmSeqCheck 0 0 true = none ∧ (v.flume 0).oldestResv 0 = some resv ∧ v.payloadPending 0 0 = false ∧
    v.get (R.FLM_DESC.remote 0) = 0 ∧ (v.seq 0).ob.len ≤ 4096 ∧ (v.seq 0).ob.phaseMk = false :=
  ⟨ready_of _ _ _ (by decide +kernel), ready_of _ _ _ (by decide +kernel), by decide +kernel, by decide +kernel, by decide +kernel, by decide +kernel,
   ready_of _ _ _ (by decide +kernel), by decide +kernel, ready_of _ _ _ (by decide +kernel), by decide +kernel⟩

theorem witness_FlumeTakeAndNext : let s := flm 1 { Flume.empty with recs := [full], out := 1 }
    let u := flm 1 Flume.empty
    let v := (flm 1 { Flume.empty with recs := [full], out := 1 }).puts [(R.SCHED_CTL.mode 0 0, 1), (R.SCHED_CTL.last 0 0, 0), (R.SCHED_COUNT.count 0 0, 1)]
    let w := run.puts [(R.SCHED_CTL.mode 0 0, 1), (R.SCHED_COUNT.count 0 0, 0)]
    Ready s (.flmPop (c0 3) 15 (.imm 0)) 3 ∧ s.flmSeqCheck 0 0 false = none ∧ (s.flume 0).heldBy 0 < 16 ∧ (s.flume 0).readyHead = some full ∧
    full.hdr.phaseMk = false ∧ Ready u (.flmTpop (c0 3) 15 (.imm 0) 7) 3 ∧ u.flmSeqCheck 0 0 false = none ∧ (u.flume 0).readyHead = none ∧
    Ready s (.flmNext (c0 3) 15 7) 3 ∧ s.get (R.SCHED_CTL.mode 0 0) = 0 ∧ Ready v (.flmNext (c0 3) 15 7) 3 ∧ v.get (R.SCHED_CTL.mode 0 0) = 1 ∧
    (match v.pick 0 with | .take f _ _ => decide (f = 0) | _ => false) = true ∧ Ready w (.flmNext (c0 3) 15 7) 3 ∧ w.get (R.SCHED_CTL.mode 0 0) = 1 ∧
    (match w.pick 0 with | .finished _ _ => true | _ => false) = true :=
  ⟨ready_of _ _ _ (by decide +kernel), by decide +kernel, by decide +kernel, by decide +kernel, by decide +kernel, ready_of _ _ _ (by decide +kernel),
   by decide +kernel, by decide +kernel, ready_of _ _ _ (by decide +kernel), by decide +kernel, ready_of _ _ _ (by decide +kernel), by decide +kernel,
   by decide +kernel, ready_of _ _ _ (by decide +kernel), by decide +kernel⟩

theorem witness_FlumeHandOffAndSpill : let s := flm 1 { Flume.empty with recs := [{ full with held := true }], out := 1 }
    let a := flm 1 { Flume.empty with recs := [{ resv with sent := true }], out := 1 }
    let n := flm 1 { Flume.empty with recs := [{ full with ready := false }], out := 1 }
    let r := flm 1 { Flume.empty with ret := 1, out := 1 }
    let p := flm 1 { Flume.empty with recs := [{ full with spill := true }], out := 1 }
    let d := flm 1 { Flume.empty with recs := [{ full with spill := true }], out := 1, copy := some (0, 0) }
    Ready s (.flmRel (c0 3) (.imm 0)) 3 ∧ s.flmSeqCheck 0 0 false = none ∧ (s.flume 0).oldestHeld 0 = some { full with held := true } ∧
    (a.flume 0).recs.find? (fun r => r.sent && !r.cmt) = some { resv with sent := true } ∧ (n.flume 0).recs = [{ full with ready := false }] ∧
    0 < (r.flume 0).ret ∧ (p.flume 0).oldestSpilled = some { full with spill := true } ∧ p.freeSlot 0 = some (false, 0) ∧ (p.flume 0).copy = none ∧
    (d.flume 0).copy = some (0, 0) ∧ d.quarLen = [] ∧ d.badIn (d.slotAddr 0 true 0) 4096 = [] ∧ d.badIn (d.slotAddr 0 false 0) 4096 = [] ∧
    d.slotAddr 0 true 0 + 4096 ≤ d.slotAddr 0 false 0 :=
  ⟨ready_of _ _ _ (by decide +kernel), by decide +kernel⟩

/-- `up` in which flume 0's shadow descriptor has en = 1 and the fields `l`. -/
def shadowFlm (l : List (Fld × Nat)) : State := ((R.FLM_DESC.en 0, 1) :: l).foldl (fun s p => s.sput p.1 p.2) up

/-- A descriptor that nothing refuses. -/
def goodFlm : State := shadowFlm [(R.FLM_DESC.version 0, 1), (R.FLM_DESC.depth 0, 4), (R.FLM_DESC.rec_size 0, 1), (R.FLM_DESC.store_slots 0, 4),
  (R.FLM_DESC.store_base 0, flumeBase 0), (R.FLM_DESC.cons 0, 1)]

theorem witness_FlumeCloseAndDescriptor : let s := flm 1 Flume.empty
    let c := flm 3 { Flume.empty with peerAck := true }
    let z := flm 4 Flume.empty
    let b := shadowFlm [(R.FLM_DESC.depth 0, 4), (R.FLM_DESC.rec_size 0, 1)]
    s.Open ∧ s.flmState 0 = flmOPEN ∧ s.get (R.FLM_DESC.remote 0) = 0 ∧ c.flmState 0 = flmCLOSING ∧ (c.flume 0).peerAck = true ∧ z.flmState 0 = flmZEROING ∧
    b.Open ∧ b.halfInReset 0 = false ∧ b.get R.FLM_CSTAT.busy = 0 ∧ (shadowFlm []).sget (R.FLM_DESC.en 0) = 1 ∧ (shadowFlm []).sget (R.FLM_DESC.depth 0) = 0 ∧
    b.sget (R.FLM_DESC.depth 0) ≠ 0 ∧ b.sget (R.FLM_DESC.rec_size 0) ≠ 0 ∧ b.flmDescBad 0 = true ∧ goodFlm.flmDescBad 0 = false ∧
    goodFlm.flmState 0 = 0 ∧ goodFlm.sget (R.FLM_DESC.remote 0) = 0 := by
  unfold State.Open; decide +kernel

/-- Version table of stage 0: slot 0 LIVE with generation 5 in force and one pin, slot 1 DRAINING with generation 4 and one pin. -/
def ver (l : List (Fld × Nat)) (x : Flume) : State :=
  (flm 1 x).puts ([(R.VER_SLOT.state 0 0, 2), (R.VER_SLOT.gen 0 0, 5), (R.VER_SLOT.count 0 0, 1), (R.VER_SLOT.nlayers 0 0, 240), (R.VER_SLOT.state 0 1, 3),
    (R.VER_SLOT.gen 0 1, 4), (R.VER_SLOT.count 0 1, 1), (R.VER_HDR.top 0, 5), (R.VER_CUR.gen 0, 5)] ++ l)

/-- A held record that names generation `g`. -/
def heldGen (g : Nat) : FlmRec := { full with hdr := { full.hdr with gen := g }, held := true }

theorem witness_VersionResolveAndBuild : let s := ver [] { Flume.empty with recs := [heldGen 5] }
    let d := ver [] { Flume.empty with recs := [heldGen 4] }
    let g := (ver [] Flume.empty).modSeq 0 (fun x => { x with s := [(1, 5), (2, 4), (3, 6), (4, 239)] })
    let b := (ver [(R.VER_SLOT.state 0 2, 1), (R.VER_SLOT.gen 0 2, 6)] Flume.empty).modSeq 0 (fun x => { x with s := [(1, 2), (4, 239)] })
    Ready s (.verPin (c0 3) 7 1 (.imm 0)) 3 ∧ s.halfInReset 0 = false ∧ (s.flume 0).oldestHeld 0 = some (heldGen 5) ∧ s.vfind 0 5 = some 0 ∧ s.vst 0 0 = verLIVE ∧
    s.vcount 0 0 < 65535 ∧ Ready d (.verPin (c0 3) 7 1 (.imm 0)) 3 ∧ (d.flume 0).oldestHeld 0 = some (heldGen 4) ∧ d.vfind 0 4 = some 1 ∧ d.vst 0 1 = verDRAINING ∧
    Ready g (.verLook (c0 3) 7 1 2) 3 ∧ g.vfind 0 ((g.s 0 2).toNat % 2 ^ 32) = some 1 ∧ 0 < g.vcount 0 1 ∧ g.vfind 0 ((g.s 0 3).toNat % 2 ^ 32) = none ∧
    Ready g (.verUnpin (c0 3) 2) 3 ∧ g.get (R.VER_SLOT.refill 0 1) = 0 ∧ Ready g (.verBase (c0 3) 15 0 4) 3 ∧ (g.s 0 4).toNat % 256 < g.get (R.VER_SLOT.nlayers 0 0) ∧
    Ready g (.verBuild (c0 3) 1 3) 3 ∧ Ready g (.verTbuild (c0 3) 1 3 7) 3 ∧ g.get (R.VER_HDR.top 0) < (g.s 0 3).toNat % 2 ^ 32 ∧ g.vst 0 2 = verFREE ∧
    (g.s 0 1).toNat % 2 ^ 32 ≤ g.get (R.VER_HDR.top 0) ∧ Ready b (.verLive (c0 3) 2) 3 ∧ b.vst 0 2 = verBUILDING ∧ b.layersBad 0 0 2 = false ∧
    Ready b (.verDrop (c0 3) 2) 3 ∧ Ready b (.verLb (c0 3) 2 4 1) 3 ∧ (b.s 0 4).toNat % 256 < 240 ∧ Ready b (.verNl (c0 3) 2 4) 3 :=
  ⟨ready_of _ _ _ (by decide +kernel), by decide +kernel, by decide +kernel, by decide +kernel, by decide +kernel, by decide +kernel,
   ready_of _ _ _ (by decide +kernel), by decide +kernel, by decide +kernel, by decide +kernel, ready_of _ _ _ (by decide +kernel), by decide +kernel, by decide +kernel,
   by decide +kernel, ready_of _ _ _ (by decide +kernel), by decide +kernel, ready_of _ _ _ (by decide +kernel), by decide +kernel, ready_of _ _ _ (by decide +kernel),
   ready_of _ _ _ (by decide +kernel), by decide +kernel, by decide +kernel, by decide +kernel, ready_of _ _ _ (by decide +kernel), by decide +kernel, by decide +kernel,
   ready_of _ _ _ (by decide +kernel), ready_of _ _ _ (by decide +kernel), by decide +kernel, ready_of _ _ _ (by decide +kernel)⟩

theorem witness_VersionAdmitSwitchAndCommands : let s := ver [(R.VER_HDR.entry 0, 1), (R.VER_SLOT.state 0 2, 2), (R.VER_SLOT.gen 0 2, 6)] Flume.empty
    let g := s.modSeq 0 (fun x => { x with s := [(1, 6)] })
    let w := (ver [(R.VER_SLOT.state 0 2, 2), (R.VER_SLOT.gen 0 2, 6)] Flume.empty).modSeq 0 (fun x => { x with s := [(1, 6)] })
    let b := ver [(R.VER_SLOT.state 0 2, 1), (R.VER_SLOT.gen 0 2, 6)] Flume.empty
    let p := (ver [] { Flume.empty with recs := [heldGen 7] }).put (R.VER_SLOT.state 0 2) 1
    Ready s (.verAdmit (c0 3) 1 false) 3 ∧ s.get (R.VER_HDR.entry 0) = 1 ∧ s.gateHeld 0 = false ∧ s.get (R.VER_HDR.bar_hold 0) = 0 ∧ s.admitSlot 0 = some 0 ∧
    Ready w (.verAdmit (c0 3) 1 true) 3 ∧ w.get (R.VER_HDR.entry 0) = 0 ∧ Ready g (.verAdm (c0 3) 1 false) 3 ∧ g.get (R.VER_CUR.gen 0) < (g.s 0 1).toNat % 2 ^ 32 ∧
    g.vfind 0 ((g.s 0 1).toNat % 2 ^ 32) = some 2 ∧ g.vst 0 2 = verLIVE ∧ Ready w (.verSw (c0 3) 1) 3 ∧ w.vgen 0 2 = (w.s 0 1).toNat % 2 ^ 32 ∧
    s.Open ∧ s.halfInReset 0 = false ∧ s.owns .host 2 = true ∧ s.owns .mgmt 2 = false ∧ b.vst 0 2 = verBUILDING ∧ b.layersBad 0 0 2 = false ∧
    s.vst 0 3 ≠ verBUILDING ∧ p.vst 0 2 = verBUILDING :=
  ⟨ready_of _ _ _ (by decide +kernel), by decide +kernel, by decide +kernel, by decide +kernel, by decide +kernel, ready_of _ _ _ (by decide +kernel), by decide +kernel,
   ready_of _ _ _ (by decide +kernel), by decide +kernel, by decide +kernel, by decide +kernel, ready_of _ _ _ (by decide +kernel), by decide +kernel,
   ⟨by decide +kernel, by decide +kernel⟩, by decide +kernel⟩

/-- VER_PIN_TIMEOUT: a VER.PIN stands at issue on a BUILDING slot. -/
def pinWaiting : State :=
  let s := ver [(R.VER_SLOT.state 0 2, 1), (R.VER_SLOT.gen 0 2, 7)] { Flume.empty with recs := [heldGen 7] }
  after (.verPin (c0 3) 7 1 (.imm 0)) s

theorem witness_VerPinTimeout : pinWaiting.pinWaits 0 2 = true := by decide +kernel

/-- R173: and after VER_TMO the pin ends with VER_MISSING. -/
theorem test_pin_timeout : ((after (.verPinTimeout 0) pinWaiting).pinEnd ≠ []) := by decide +kernel

theorem witness_VariantInstructions : let s := run.puts [(R.VAR_ENT.valid 0 4095, 1), (R.VAR_ENT.addr 0 4095, 64), (R.VAR_ENT.rank 0 4095, 256)]
    let t := s.modSeq 0 (fun x => { x with s := [(1, 4095)] })
    Ready t (.varLook (c0 3) 15 1 1 7) 3 ∧ t.get (R.VAR_ENT.valid 0 ((t.s 0 1).toNat % 4096)) = 1 ∧ Ready run (.varLook (c0 3) 15 1 1 7) 3 ∧
    run.get (R.VAR_ENT.valid 0 0) = 0 ∧ Ready run (.varCnt (c0 3) 1) 3 :=
  ⟨ready_of _ _ _ (by decide +kernel), by decide +kernel, ready_of _ _ _ (by decide +kernel), by decide +kernel, ready_of _ _ _ (by decide +kernel)⟩

/-- R256: VAR.CNT saturates. -/
theorem test_varCnt : let s := run.put (R.VAR_ENT.count 0 0) (2 ^ 32 - 1)
    (after (.varCnt (c0 3) 1) s).get (R.VAR_ENT.count 0 0) = 2 ^ 32 - 1 ∧ (after (.varCnt (c0 3) 1) run).get (R.VAR_ENT.count 0 0) = 1 := by decide +kernel

/-! ## Arrays, sap lines, glaze units -/

/-- `run` with bytes in the tile store of die 0. -/
def withTs (l : List (Nat × List Byte)) (f : Seq → Seq) : State := l.foldl (fun s p => s.write (tileBase 0 + p.1) p.2) (runWith [] f)

/-- R236: version 1, M = 1, N = 2, K = 32, the operands at 0x1000 and 0x2000. -/
def prod : List Byte := [1, 0, 1, 0, 2, 0, 0, 0, 32, 0, 0, 0, 0, 0, 0, 0] ++ (leBytes 4 0x1000 ++ List.replicate 20 0) ++ (leBytes 4 0x2000 ++ List.replicate 20 0)

theorem witness_ArrayInstructions : let s := withTs [(0, prod)] id
    let e := withTs [(0, [1] ++ List.replicate 63 0)] (fun x => { x with s := [(1, 1)] })
    let off : State := { run with mfg := { run.mfg with working := 2 ^ 192 - 3 } }
    let q := (withTs [(0, prod)] id).setArr 0 0 { Arr.empty with quartered := true }
    Ready s (.mma (c0 1) 11 0 15 true 0) 1 ∧ s.Accepts (c0 1) (.mma (c0 1) 0 0 15 true 0) ∧ (prodDescOf (s.ts 0 (descOff s 0 0) 64)).M = 1 ∧
    q.Accepts (c0 1) (.mmaQ (c0 1) 0 0 15 true 0 0) ∧ e.Accepts (c0 1) (.mma (c0 1) 0 0 0 true 0) ∧ e.NoPending (c0 1) (.mma (c0 1) 0 0 0 true 1) ∧
    descOff e 0 1 % 64 ≠ 0 ∧ s.NoPending (c0 1) (.mma (c0 1) 12 0 0 true 0) ∧ firstExc (descAddr s 0 (descOff s 0 0)) = none ∧
    (prodDescOf (s.ts 0 (descOff s 0 0) 64)).bad = false ∧ run.Accepts (c0 1) (.raftSet (c0 1) 4) ∧ run.Accepts (c0 1) (.qtrSet (c0 1) true true) ∧
    off.Alone (c0 1) ∧ off.works 0 1 = false :=
  ⟨ready_of _ _ _ (by decide +kernel), accepts_of _ _ _ (by decide +kernel), by decide +kernel, accepts_of _ _ _ (by decide +kernel), accepts_of _ _ _ (by decide +kernel),
   noPending_of _ _ _ (by decide +kernel), by decide +kernel, noPending_of _ _ _ (by decide +kernel), by decide +kernel, by decide +kernel,
   accepts_of _ _ _ (by decide +kernel), accepts_of _ _ _ (by decide +kernel), alone_of _ _ (by decide +kernel), by decide +kernel⟩

/-- R238: MMA with a reserved format code raises MMA_FMT_CODE with both codes. -/
theorem test_mma_fmt : (after (.mma (c0 1) 12 3 0 true 0) (withTs [(0, prod)] id)).get (R.SEQ_EXC0.code 0 0) = E.MMA_FMT_CODE ∧
    (after (.mma (c0 1) 12 3 0 true 0) (withTs [(0, prod)] id)).get (R.SEQ_EXC1.info 0 0) = 0xC3 := by decide +kernel

/-- The instruction of `prod` in array 0, before anything has happened. -/
def op0 : ArrOp := match ((after (.mma (c0 1) 0 0 15 true 0) (withTs [(0, prod)] id)).arr 0 0).ops with
  | o :: _ => o
  | [] => { seq := 0, ino := 0, raft := 0, quad := none, fa := 0, fb := 0, t := 0, M := 0, N := 0, K := 0, init := false, a := ⟨0, 0, 0, 0, 0⟩, b := ⟨0, 0, 0, 0, 0⟩, xa := none, xb := none, loaded := 0, pass := 0, row := 0, chunks := [], flight := [] }

/-- Array 0 of die 0 holds `x`. -/
def arr0 (x : Arr) : State := run.setArr 0 0 x

theorem witness_ArrayProgress : let l := arr0 { Arr.empty with ops := [op0], mode := .full }
    let o1 := { op0 with loaded := 1, chunks := [⟨0, []⟩] }
    let o2 := { op0 with loaded := 1, pass := 1 }
    let o3 := { op0 with loaded := 1, pass := 1, row := 1, flight := [⟨0, 1, [[]]⟩] }
    let f := (arr0 { Arr.empty with mode := .full }).put (R.MMA_CTL.filler_en 0) 1
    (nextLoad 0 (l.arr 0 0).ops).isSome = true ∧ l.tsFree op0.seq op0.ino (op0.b.spans op0.fb op0.xb op0.N op0.K) [] = true ∧
    nextRows 0 [o1] = some ([], o1, []) ∧ o1.pass < o1.passes ∧ (∃ c ∈ o1.chunks, c.pass = o1.pass) ∧ nextRows 0 [o2] = some ([], o2, []) ∧ o2.row < o2.M ∧
    l.mayAdmit 0 (l.arr 0 0) = true ∧ nextUpdate 0 [o3] = some ([], o3, []) ∧ Arr.empty.acLvl < Arr.empty.g / 8 ∧
    ({ Arr.empty with acLvl := 4, mode := .rising } : Arr).g / 8 ≤ 4 ∧ f.get (R.MMA_CTL.filler_en 0) = 1 ∧ (f.arr 0 0).anyReady = false ∧
    f.mayAdmit 0 (f.arr 0 0) = true := by decide +kernel

/-- R245: a sap descriptor, version 1, V = 1, N = 64, K = 32, W in HBM, X and Y in the tile store. -/
def sapd : List Byte := [1, 1, 0, 0] ++ leBytes 4 64 ++ leBytes 4 32 ++ leBytes 4 0 ++ leBytes 8 0x2000_0000 ++ leBytes 8 0x2100_0000 ++ leBytes 4 0x1000 ++ leBytes 4 0
  ++ leBytes 4 0x2000 ++ leBytes 4 0x3000 ++ leBytes 4 0 ++ leBytes 4 0 ++ leBytes 8 0

/-- R111: a chain over rows 0 to 7 of tile register 0: source 0 the scalar s1, no stages, sink 0 tile register 0. -/
def chaind : List Byte := [1, 0, 1, 8] ++ List.replicate 12 0 ++ [5, 1] ++ List.replicate 46 0 ++ [0xC1, 0] ++ List.replicate 94 0

/-- The state after GLZ.RUN of `chaind`. -/
def glzQueued : State := after (.glzRun (c0 2) 0 true 7) (withTs [(0, chaind)] id)

/-- And after its chain has started, a group has entered, and has been written. -/
def glzStarted : State := after (.glzChainStart 0 0) glzQueued
def glzEntered : State := after (.glzGroupEnter 0 0) glzStarted
def glzWritten : State := after (.glzGroupWrite 0 0) glzEntered

theorem witness_SapLine : let s := withTs [(0, sapd)] id
    let o := (after (.sapMv (c0 1) 0 0 true 0 true 7) s)
    Ready s (.sapMv (c0 1) 0 0 true 0 true 7) 1 ∧ s.Accepts (c0 1) (.sapMv (c0 1) 0 0 true 0 true 7) ∧ ((o.sap 0).op.any (fun x => decide (x.xv = none))) = true ∧
    o.unitMay 0 48 = true ∧ (((after (.sapVectorCopied 0) o).sap 0).op.any (fun x => decide (x.xv ≠ none ∧ x.kb < ceilDiv x.K 32 ∧ x.group < ceilDiv x.N (sapG x.fw x.fx)))) = true :=
  ⟨ready_of _ _ _ (by decide +kernel), accepts_of _ _ _ (by decide +kernel), by decide +kernel⟩

theorem witness_GlazeUnits : let s := withTs [(0, chaind)] (fun x => { x with s := [(1, 1)] })
    let t : TblLoad := { seq := 0, ino := 0, tbl := 3, addr := 0x400, cen := true, e := 7 }
    Ready s (.glzRun (c0 2) 0 true 7) 2 ∧ s.Accepts (c0 2) (.glzRun (c0 2) 0 true 7) ∧ s.Accepts (c0 2) (.glzTbl (c0 2) 3 0 true 7) ∧
    s.NoPending (c0 2) (.glzRun (c0 2) 1 true 7) ∧ descOff s 0 1 % 64 ≠ 0 ∧ run.tsFree t.seq t.ino [(t.addr, t.addr + 1024)] [] = true ∧
    (glzQueued.glz 0 0).queue.length = 1 ∧ (nextEnter (glzStarted.glz 0 0).run).isSome = true ∧ glzStarted.unitMay 0 0 = true :=
  ⟨ready_of _ _ _ (by decide +kernel), accepts_of _ _ _ (by decide +kernel), accepts_of _ _ _ (by decide +kernel), noPending_of _ _ _ (by decide +kernel), by decide +kernel⟩

theorem witness_GlazeGroups : (nextWrite (glzEntered.glz 0 0).run).isSome = true ∧
    ((glzWritten.glz 0 0).run.any (fun i => match i with | .chain c => decide (c.written = c.groups) | _ => false)) = true := by decide +kernel

/-! ## Sequencers from outside -/

theorem witness_SequencerCommandsAndWaits : let h := run.put (R.SEQ_STAT.state 0 0) 2
    let w := (runWith [] (fun x => { x with held := [[.flmPop (c0 3) 0 (.imm 0)]] })).put (R.SEQ_WDOG.ticks 0 0) 1
    let f := flm 2 Flume.empty
    run.Open ∧ run.halfInReset 0 = false ∧ run.dieOff 0 = false ∧ run.seqState 0 = seqRUNNING ∧ h.seqState 0 = seqHALTED ∧ h.nbundles 0 ≠ 0 ∧ h.live = true ∧
    h.pc 0 < h.nbundles 0 ∧ h.nbundles 0 ≤ 16384 ∧ (h.fetchBundle 0 0).2 = none ∧ h.NoLoopEnd 0 ∧
    KMap.find (fun _ => (0 : BitVec 256)) (h.seq 0).store (h.pc 0) = 0 ∧ (w.seq 0).held.length = 1 ∧ 0 < w.get (R.SEQ_WDOG.ticks 0 0) ∧
    f.flmState 0 = flmHELD ∧ run.flmState 8191 ≠ flmHELD :=
  ⟨⟨by decide +kernel, by decide +kernel⟩, by decide +kernel, by decide +kernel, by decide +kernel, by decide +kernel, by decide +kernel, by decide +kernel, by decide +kernel,
   by decide +kernel, by decide +kernel, noLoopEnd_of _ _ (by decide +kernel), by decide +kernel⟩

/-- A binding of sequencer 0 to stage 3 that nothing refuses, before its commit. -/
def toBind : State := ([(R.SEQ_BIND.en 0 0, 1), (R.SEQ_BIND.stage 0 0, 3), (R.SEQ_IMG.img_addr 0 0, 0x2000_0000)].foldl (fun s p => s.sput p.1 p.2) up).puts
  [(R.DIE_OWN.assigned 0, 1)]

theorem witness_SequencerBinding : toBind.Open ∧ toBind.halfInReset 0 = false ∧ toBind.get (R.SEQ_BSTAT.busy 0 0) = 0 ∧ toBind.bindBad 0 = false ∧
    toBind.sget (R.SEQ_BIND.en 0 0) = 1 ∧ up.bindBad 0 = false ∧ up.sget (R.SEQ_BIND.en 0 0) = 0 ∧
    (toBind.sput (R.SEQ_BIND.en 0 0) 1 |>.put (R.DIE_OWN.assigned 0) 0).bindBad 0 = true := by
  unfold State.Open; decide +kernel

/-- R202: with no image at the address the load ends UNBOUND with a cause. -/
theorem witness_SequencerLoad : let s := after (.seqBcommit 0 0) toBind
    s.seqState 0 = seqLOADING ∧ KMap.find (fun _ => false) s.dieRst 0 = false ∧ (s.loadCause 0).1 ≠ 0 := by decide +kernel

theorem witness_SequencerRegisters : let h := run.put (R.SEQ_STAT.state 0 0) 2
    run.Open ∧ run.halfInReset 0 = false ∧ run.dieOff 0 = false ∧ run.owns .host 0 = true ∧ h.seqState 0 = seqHALTED ∧ run.seqState 0 ≠ seqHALTED ∧
    run.seqState 0 ≠ seqFAULTED ∧ run.owns .mgmt 0 = false ∧ h.schedOpen 0 = true ∧ (run.put (R.SCHED_CTL.mode 0 0) 1).schedOpen 0 = false := by
  unfold State.Open; decide +kernel

theorem witness_TakingAnException : let s := runWith [] (fun x => { x with trapEn := true, trap := 9 })
    E.SEQ_OPERAND < 2 ^ 16 ∧ s.pc 0 < 2 ^ 14 ∧ (s.seq 0).trap < 2 ^ 14 ∧ s.get (R.RAS_LOGHD.newest) < 2 ^ 32 - 1 ∧ (s.seq 0).trapEn = true ∧
    s.get (R.SEQ_STAT.in_trap 0 0) = 0 ∧ (run.seq 0).trapEn = false := by decide +kernel

/-- R222: an exception with a handler runs it and keeps the place. -/
theorem test_trap : let s := runWith [] (fun x => { x with trapEn := true, trap := 9 })
    (after (.movSr (c0 3) 1 63) s).pc 0 = 9 ∧ ((after (.movSr (c0 3) 1 63) s).seq 0).epc = 4 ∧ (after (.movSr (c0 3) 1 63) s).seqState 0 = seqRUNNING := by decide +kernel


/-! ## Host rings and links -/

/-- FIPS 180-4: the SHA-384 of "abc". -/
theorem test_sha384 : leNat (sha384 [0x61, 0x62, 0x63]).reverse =
    0xcb00753f45a35e8bb5a03d699ac65007272c32ab0eded1631a8b605a43ff5bed8086072ba1e7cc2358baeca134c825a7 := by decide +kernel

/-- FIPS 197 C.3. -/
theorem test_aes : aesEnc (aesKeys ((List.range 32).map (BitVec.ofNat 8))) ((List.range 16).map (fun i => BitVec.ofNat 8 (17 * i))) =
    beBytes 16 0x8ea2b7ca516745bfeafc49904b496089 := by decide +kernel

/-- RFC 3394 4.3, its key and its 16 bytes of data. -/
theorem test_keyWrap : keyWrap ((List.range 32).map (BitVec.ofNat 8)) ((List.range 16).map (fun i => BitVec.ofNat 8 (17 * i))) =
    beBytes 24 0x64e8c3f9ce0f5ba263e9777905818a2a93c8191e7d6e8ae7 := by decide +kernel

/-- RFC 4231, case 2. -/
theorem test_hmac : hmac384 (ascii "Jefe") (ascii "what do ya want for nothing?") =
    beBytes 48 0xaf45d2e376484031617f78d2b58a6b1b9c7ef464f5a01b47e42ec3736322445e8e2240ca5e69e2c78b3239ecfab21649 := by decide +kernel

/-- The GCM specification's test case 14. -/
theorem test_gcm : gcmEncrypt (List.replicate 32 0) (List.replicate 12 0) [] (List.replicate 16 0) =
    (beBytes 16 0xcea7403d4d606b6e074ec5d3baf39d18, beBytes 16 0xd0d1c8a799996bf0265b98b5d48ab919) := by decide +kernel

/-- Twice the base point of P-384, from the published multiples. -/
theorem test_p384 : ecMul 2 p384g =
    some (0x08D999057BA3D2D969260045C55B97F089025959A6F434D651D207D19FB96E9E4FE0E86EBE0E64F85B96A9C75295DF61,
      0x8E80F1FA5B1B3CEDB7BFE8DFFD6DBA74B275D875BC6CC43E904E505F256AB4255FFD43E94D39E22D61501E700A940E80) := by decide +kernel

/-- R202: an image of one bundle of NOPs with its digest is loaded. -/
theorem witness_SequencerLoadGood : let body := List.replicate 32 (0 : Byte)
    let head : List Byte := leBytes 4 0x4E47_4449 ++ [1, 0, 0, 0, 1, 0] ++ List.replicate 14 0 ++ sha384 body ++ List.replicate 56 0
    let s := (after (.seqBcommit 0 0) toBind).write 0x2000_0000 (head ++ body)
    s.seqState 0 = seqLOADING ∧ s.loadCause 0 = (0, true) ∧ 0 < (imgHeadOf (s.bytes 0x2000_0000 128)).nbundles ∧ s.rerun = [] := by decide +kernel

/-- Rings SQ0 (four entries) and CQ0 (four entries) of context 0, with a command that runs. -/
def ring (e : List Byte) (io : Bool) : State :=
  { up.puts [(R.SQ_CFG.en 0 0, 1), (R.SQ_CFG.size 0 0, 4), (R.CQ_CFG.en 0 0, 1), (R.CQ_CFG.size 0 0, 4)] with
      srings := [(0, { SRing.empty with asked := 1, cmds := [⟨0, 1, e⟩], io := io })] }

/-- R443: a command's 64 bytes: opcode, flags, host address (or flume), device address, length, and bytes 32 to 35. -/
def cmd (op flags a dev n p : Nat) : List Byte := leBytes 8 (op + 256 * flags) ++ leBytes 8 a ++ leBytes 8 dev ++ leBytes 8 n ++ leBytes 8 p ++ List.replicate 24 0

theorem witness_Rings : let s := ring (cmd 0 0 0 0 0 0) false
    let b := ([(R.SQ_CFG.en 0 0, 1), (R.SQ_CFG.size 0 0, 1)].foldl (fun s p => s.sput p.1 p.2) up)
    s.bellsOpen 0 = true ∧ s.bellsOpen 1 = false ∧ s.get (R.SQ_CFG.en 0 0) = 1 ∧ (3 : Nat) < s.get (R.SQ_CFG.size 0 0) ∧ s.get (R.CQ_CFG.en 0 0) = 1 ∧
    (3 : Nat) < s.get (R.CQ_CFG.size 0 0) ∧ up.Open ∧ up.get (R.RING_CSTAT.busy 0) = 0 ∧ (up.put (R.CQ_CFG.en 0 0) 1).ringBad 0 0 false = false ∧ up.ringBad 0 0 true = false ∧
    b.ringBad 0 0 false = true ∧ s.ringsRun 0 = true ∧ 0 < (s.sring 0 0).asked := by
  unfold State.Open; decide +kernel

theorem witness_RingTransfers : let f := ring (cmd 2 0 0 0x2000_0000 8 5) false
    let w := ring (cmd 1 0 0x1000 0x2000_0000 8 1) false
    let r := ring (cmd 1 0 0x1000 0x2000_0000 8 0) true
    (ring (cmd 0 0 0 0 0 0) false).rcur 0 0 = some (cmd 0 0 0 0 0 0) ∧ f.rcur 0 0 = some (cmd 2 0 0 0x2000_0000 8 5) ∧ f.ringsRun 0 = true ∧
    (f.sring 0 0).io = false ∧ rcOp (cmd 2 0 0 0x2000_0000 8 5) = 2 ∧ fieldAt (cmd 2 0 0 0x2000_0000 8 5) 24 8 = 8 ∧ f.permits 0 0x2000_0000 8 true = true ∧
    (∀ i ∈ List.range 8, f.unavailable (0x2000_0000 + i) = none) ∧ f.badIn 0x2000_0000 8 = [] ∧ f.permits 0 (2 ^ 48 - 8) 8 true = false ∧
    rcOp (cmd 1 0 0x1000 0x2000_0000 8 1) = 1 ∧ bit (fieldAt (cmd 1 0 0x1000 0x2000_0000 8 1) 32 1) 0 = true ∧ (w.fn 0).bme = true ∧ w.readBad 0x2000_0000 8 = [] ∧
    rcOp (cmd 5 0 0 0 0 0) = 5 ∧ (r.sring 0 0).io = true := by decide +kernel

/-- R443: FILL writes its pattern. -/
theorem test_fill : let t := after (.cmdFill 0 0) (ring (cmd 2 0 0 0x2000_0000 8 0x0403_0201) false)
    t.le 0x2000_0000 8 = 0x0403_0201_0403_0201 ∧ (t.sring 0 0).done = some (0, 8, 0) := by decide +kernel

/-- R443, R446: a FILL whose length is no multiple of 4 ends with status 16 when it starts. -/
theorem test_fill_align : let s := { ring [] false with srings := [(0, { SRing.empty with asked := 1 })] }
    ((after (.ringFetch 0 0 [BitVec.ofNat 512 (leNat (cmd 2 0 0 0x2000_0000 7 0))]) s).sring 0 0).done = some (16, 0, 0) := by decide +kernel

theorem witness_RingRecordsAndCompletions : let p := ({ ring (cmd 3 1 0 0 64 0) false with flumes := [(0, Flume.empty)] } : State).puts [(R.CTX_HSTAGE.en 0, 1), (R.FLM_STAT.state 0, 1), (R.FLM_DESC.depth 0, 4), (R.FLM_DESC.rec_size 0, 1), (R.FLM_DESC.store_slots 0, 4),
          (R.FLM_DESC.store_base 0, flumeBase 0)]
    let q : State := { p with flumes := [(0, { Flume.empty with recs := [{ resv with owner := hostOwner 0 0 }], out := 1 })], srings := (ring (cmd 3 1 0 0 64 0) true).srings }
    let o : State := { p with flumes := [(0, { Flume.empty with recs := [full], out := 1 })], srings := (ring (cmd 4 1 0 0 64 0) false).srings }
    let d : State := { p with srings := [(0, { SRing.empty with cmds := [⟨0, 1, cmd 0 0 0 0 0 0⟩], done := some (0, 0, 0) })] }
    let c : State := { up.puts [(R.CQ_CFG.coal_us 0 0, 1), (R.CQ_CFG.coal_cnt 0 0, 2)] with crings := [(0, ⟨true, 1⟩)] }
    p.rcur 0 0 = some (cmd 3 1 0 0 64 0) ∧ p.ringsRun 0 = true ∧ p.hostCheck 0 0 true = none ∧ p.canPush 0 = true ∧ (p.fn 0).bme = true ∧
    (q.sring 0 0).io = true ∧ q.outCmtCheck 0 0 (hostOwner 0 0) 0 (Hdr.ofNat 0) = none ∧ ((q.flume 0).oldestResv (hostOwner 0 0)).isSome = true ∧
    o.hostCheck 0 0 false = none ∧ (o.flume 0).readyHead = some full ∧ (d.sring 0 0).done = some (0, 0, 0) ∧
    ringDist 4 (d.get (R.CQ_CFG.head 0 0)) (d.get (R.CQ_CFG.tail 0 0)) + 1 < 4 ∧ 0 < (c.cring 0 0).since ∧ c.get (R.CQ_CFG.coal_us 0 0) ≠ 0 ∧
    c.get (R.CQ_CFG.coal_cnt 0 0) ≠ 0 ∧ (up.cring 0 0).since = 0 := by decide +kernel

theorem witness_CagesAndLinkCommits : let s := up.sput (R.CAGE_CTL.mode 0) 2
    let h := up.sput (R.CAGE_CTL.mode 0) 7
    let c := (up.put (R.CAGE_CTL.mode 0) 2).sput (R.SKW_CHAN.en 5) 1
    s.Open ∧ s.get R.CAGE_CSTAT.busy = 0 ∧ s.cageFitted 0 = true ∧ s.halfInReset 0 = false ∧ s.sget (R.CAGE_CTL.mode 0) = 2 ∧ s.cageUsed 0 = false ∧
    s.cageFitted 12 = false ∧ 4 < h.sget (R.CAGE_CTL.mode 0) ∧ c.get R.SKW_CCSTAT.busy = 0 ∧ c.skwMode (c.sget (R.SKW_CHAN.link 5)) = true ∧
    c.flumeOn 5 = none ∧ up.get R.RED_CSTAT.busy = 0 := by
  unfold State.Open; decide +kernel

/-- Link 0 in a Skidway mode, its session in state `st`. -/
def skw (st : Nat) (x : SkwLink) : State := (up.puts [(R.CAGE_CTL.mode 0, 2), (R.SKW_LINK.state 0, st)]).setSkw 0 x

theorem witness_SkidwayBringUp : (skw 1 SkwLink.empty).skwMode 0 = true ∧ (skw 1 SkwLink.empty).ethMode 0 = false ∧ (skw 1 SkwLink.empty).get (R.SKW_LINK.state 0) = 1 ∧
    (skw 2 SkwLink.empty).get (R.SKW_LINK.state 0) = 2 ∧ ((skw 2 SkwLink.empty).skw 0).caps = false ∧ ((skw 2 { SkwLink.empty with caps := true }).skw 0).caps = true ∧
    (skw 5 SkwLink.empty).get (R.SKW_LINK.state 0) = 5 ∧ ((skw 5 SkwLink.empty).skw 0).locked = false ∧ ((skw 5 { SkwLink.empty with locked := true }).skw 0).locked = true ∧
    up.owns .host 4 = true ∧ (∀ c ∈ List.range 64, up.get (R.RED_CTL.en c) = 0) := by decide +kernel

theorem witness_SkidwaySessions : (skw 3 SkwLink.empty).Open ∧ (skw 3 SkwLink.empty).skwMode 0 = true ∧ (skw 3 SkwLink.empty).get (R.SKW_LINK.state 0) = 3 ∧
    bit (((skw 3 SkwLink.empty).put (R.CAGE_STAT.lock 0) 1).get (R.CAGE_STAT.lock 0)) 0 = true ∧ 2 ^ 31 ≤ ((skw 3 { SkwLink.empty with txBlk := 2 ^ 31 }).skw 0).txBlk := by
  unfold State.Open; decide +kernel

theorem witness_SkidwayRetry : (skw 3 SkwLink.empty).skwUp 0 = true ∧ ((skw 3 { SkwLink.empty with replay := [⟨2 ^ 32 - 1, 0, [], []⟩] }).skw 0).replay = [⟨2 ^ 32 - 1, 0, [], []⟩] ∧
    ((skw 3 { SkwLink.empty with nakAt := some 0 }).skw 0).nakAt = some 0 ∧ (skw 3 { SkwLink.empty with nakAt := some 0 }).now < 0 + 1400 ∧
    0 < ((skw 3 { SkwLink.empty with unack := 1 }).skw 0).unack ∧ ((skw 3 { SkwLink.empty with opened := [[]] }).skw 0).opened ≠ [] ∧ (SkwLink.empty.resent.1 = 2 ^ 32 - 1) = False ∧
    ((skw 3 { SkwLink.empty with replay := [⟨1, 0, [], []⟩], resent := (1, 8) }).skw 0).resent = (1, 8) := by decide +kernel

/-- A flume with a remote producer, OPEN on channel 5 of link 0. -/
def remote (x : Flume) : State := { (skw 3 SkwLink.empty).puts [(R.SKW_CHAN.en 5, 1), (R.FLM_STAT.state 0, 1), (R.FLM_DESC.en 0, 1), (R.FLM_DESC.remote 0, 1), (R.FLM_DESC.chan 0, 5),
  (R.FLM_DESC.depth 0, 4), (R.FLM_DESC.rec_size 0, 1), (R.FLM_DESC.store_slots 0, 4), (R.FLM_DESC.store_base 0, flumeBase 0)] with flumes := [(0, x)] }

theorem witness_SkidwayChannels : let s := remote Flume.empty
    s.skwUp 0 = true ∧ s.chanOk 0 5 = true ∧ s.flumeOn 5 = some 0 ∧ s.flmState 0 = flmOPEN ∧ (s.flume 0).mismatch = false ∧ (s.flume 0).halfDown = false ∧
    (Hdr.ofNat 0).rseq = (s.flume 0).expect ∧ s.freeSlot 0 = some (false, 0) ∧ s.badIn (s.slotAddr 0 false 0) 0 = [] ∧ before 0 1 = true ∧ before 1 0 = false ∧
    s.chanOk 0 8191 = false := by decide +kernel

theorem witness_EthernetAndLandingDieLinks : let s := up.put (R.CAGE_CTL.mode 0) 4
    let l := up.setSpn 0 true ⟨true, 4, 15, none, false⟩
    let e := (up.setSpn 0 true ⟨true, 1, 15, some (15, 0), false⟩).setSpn 0 false ⟨false, 1, 15, none, true⟩
    s.ethMode 0 = true ∧ up.halfDead 0 = false ∧ up.halfDead 1 = false ∧ up.get (R.SPN_LINK.state 0) = 0 ∧ (l.spnEnd 0 true).busy = true ∧ 4 ≤ (l.spnEnd 0 true).round ∧
    (e.spnEnd 0 true).peer = some (15, 0) ∧ (e.spnEnd 0 true).mask < 16 ∧ e.get (epochFld 0 true) = 0 ∧ (e.spnEnd 0 false).agreed = true ∧
    (up.put (R.SPN_LINK.state 0) 2).get (R.SPN_LINK.state 0) = 2 := by decide +kernel

theorem witness_PartnerSites : let s := { up with mfg := { up.mfg with u0Partner := true } }
    let a := s.puts [(R.PART_STAT.state 0, 2), (R.PART_STAT.mask 0, 15), (R.PART_CTL.en 0, 1)]
    s.halfDead 0 = false ∧ s.get (R.PART_STAT.state 0) = 0 ∧ s.partnerFitted 0 = true ∧ a.get (R.PART_STAT.mask 0) ≠ 0 ∧ s.owns .host 4 = true ∧ s.owns .mgmt 4 = false ∧
    a.get (R.PART_STAT.state 0) = 2 ∧ a.get (R.PART_CTL.en 0) = 1 ∧ a.permits (a.get (R.PART_CTL.ctx 0)) 0x2000_0000 64 true = true ∧ a.unavailable 0x2000_0000 = none ∧
    a.badIn 0x2000_0000 64 = [] ∧ a.permits (a.get (R.PART_CTL.ctx 0)) (2 ^ 48 - 1) 1 true = false := by decide +kernel

/-! ## Jobs, hauling, checkpoints, memory -/

/-- A cut table of one stage on one module. -/
def table : CutTable := { hdr := List.replicate 64 0, rows := [], layers := [List.replicate 64 0] }

theorem witness_CutTables : let s := { up with cutForce := [(0, some table)] }
    let p := { up with cutPend := [(0, some table)] }
    up.Open ∧ up.get R.CUT_CSTAT.busy = 0 ∧ s.cutTable 0 0 = some table ∧ p.cutPending 0 0 = some table ∧ p.activeStages 0 = [] ∧ up.switchPhase 95 = none ∧
    up.get (R.VAR_CSTAT.busy 0) = 0 ∧ up.halfInReset 0 = false := by
  unfold State.Open; decide +kernel

theorem witness_NormChain : let s := up.setJob 0 { Job.empty with ready := true, ntab := some table }
    (up.job 0).ready = false ∧ (s.job 0).ready = true ∧ (s.job 0).ntab = some table ∧ (normGo (s.moduleOf 0) (s.strip table) table.normLayers 0 0).2.2 = none := by decide +kernel

theorem witness_StepVerdict : let p := up.setJob 0 { Job.empty with point := true }
    let a := run.puts [(R.CUT_PH.active 0, 1)]
    (up.job 0).point = false ∧ (p.job 0).point = true ∧ up.moduleOf 0 = 0 ∧ up.lastModule 0 = 0 ∧ up.ckptHolds 0 = false ∧ up.get (R.NUM_STAT.busy 0) = 0 ∧
    a.activeStages 0 ≠ [] ∧ up.owns .host 2 = true ∧ up.owns .mgmt 2 = false ∧ up.dieQuiet 0 = true := by decide +kernel

/-! ## Hauling, checkpoints, memory -/

/-- A request entry (R329) of `op`: source 0, billet 0, manifest buffer 0x2000_0000, HBM base 0x2001_0000. -/
def rq (op flags : Nat) : List Byte := [BitVec.ofNat 8 op, BitVec.ofNat 8 flags, 0, 0] ++ leBytes 4 0 ++ leBytes 4 1 ++ List.replicate 20 0 ++ leBytes 8 0x2000_0000 ++
  leBytes 8 0x2001_0000 ++ leBytes 8 0x0200_0000_0000 ++ List.replicate 8 0

/-- A manifest (R319 to R321) of one billet of 4,096 bytes with tag `tag` and the key entry `e`. -/
def manOf (tag e : List Byte) : List Byte := leBytes 4 0x444E_5453 ++ [1, 0, 0, 0] ++ leBytes 8 7 ++ leBytes 4 1 ++ leBytes 4 1 ++ leBytes 8 0 ++ leBytes 8 4096 ++ leBytes 8 0 ++ leBytes 8 4096 ++ leBytes 8 256 ++
  leBytes 8 384 ++ leBytes 8 544 ++ tag ++ List.replicate 128 0 ++ leBytes 8 0 ++ leBytes 8 4096 ++ leBytes 8 0 ++ leBytes 4 4096 ++ List.replicate 100 0 ++ e

/-- The key entry (R320) of the device of `State.reset`: its kid, an ephemeral public key and the wrapped stand key of 32 ones. -/
def keyOne : List Byte := beBytes 16 0x4635ef276b2f7fae015995a03f204962 ++ ecBytes p384g ++ List.replicate 7 0 ++
  beBytes 40 0xbd8e131f737fe9134fb7d15212aec0503205a4903c8f227a249152b16e9415130943ee078035361c

/-- The manifest that the device accepts. -/
def man : List Byte := manOf (beBytes 48 0x61a3cb0b5f5a1329242550c632bf7dcdcb0dac4421d0d488db3fd633c109d6d1be0ee1ac2428fd2b04602b800ffd736e) keyOne

/-- The keys of `man` (R323). -/
def manPair : List Byte × List Byte := (List.replicate 32 1, beBytes 48 0x41367f07368673edfedecccb78d23ccef3e5044d1658e7eb30b6237cd51580ec6d3dd0253f4980cfdfa4de7e727ef864)

/-- A manifest of one billet of 16 bytes, of zeros, and that billet under a key of ones, without its padding (R318, R321, R324). -/
def manSmall : List Byte := leBytes 4 0x444E_5453 ++ [1, 0, 0, 0] ++ leBytes 8 7 ++ leBytes 4 1 ++ leBytes 4 1 ++ leBytes 8 0 ++ leBytes 8 4096 ++ leBytes 8 0 ++ leBytes 8 4096 ++ leBytes 8 256 ++
  leBytes 8 384 ++ leBytes 8 544 ++ List.replicate 176 0 ++ leBytes 8 0 ++ leBytes 8 16 ++ leBytes 8 0 ++ leBytes 4 16 ++ List.replicate 20 0 ++
  beBytes 48 0xae40659da1193cdec8df474b5e36416a82473b83d32dbbe1dd6df8ec9499d24902ca08c334876bc8e69e818beecc046a
def smallStored : List Byte := beBytes 32 0xbf3598dc753b03bf937992457124c1410199b1892f9b2455c51922e3652682b9

/-- A request of a ring. -/
def hreq (ph : Nat) : HaulReq :=
  { origin := .ring, entry := rq 1 0, man := man, mread := none, keys := some manPair, phase := ph, next := 1, opn := [⟨0, 1, 1, 0, [], [], false⟩],
    reads := [⟨0, 0, false, 0, true⟩], bad := 0, status := 0 }

/-- One whose manifest is `manSmall` and whose billet has come, or not. -/
def hreqSmall (come : Bool) : HaulReq :=
  { hreq 1 with man := manSmall, opn := [⟨0, 1, b2n come, 0, if come then [(0, smallStored)] else [], [], false⟩] }

/-- A connection descriptor (R326) with a queue depth of 16 and two queues. -/
def conn : List Byte := List.replicate 546 0 ++ [16, 0, 2] ++ List.replicate 475 0

/-- Channel 5 enabled, with its request and what the foreman asks of it, and its source up. -/
def haul (r : Option HaulReq) (fq : List (HOrigin × List Byte)) : State :=
  { up.puts [(R.HAUL_CHAN.en 5, 1), (R.HAUL_RLEN.len 5, 4), (R.HAUL_RING.base 5, 0x3000_0000), (R.HAUL_PTR.tail 5, 1), (R.HAUL_SRC.en 0, 1), (R.HAUL_SSTAT.state 0, 2)] with
    hauls := [(5, ⟨r, fq⟩)], srcConn := [(0, conn)] }

/-- The binding key of the device of `State.reset` (R467), as HKDF gives it from its root. -/
def devKey : Nat := 0x6af8bff880f1712b71e477ab7800b452c4b40e2dfce9df79bc08b7ed54e2b3e8e23c573fea21ad0caeda871194e7d1f2

/-- Its public key, a point of the curve. -/
def devPoint : Nat × Nat :=
  (0xed948147fc403900417e9e22d3cdddecfce78171624d794c157b13f2d8118e6e0b62e90e19887b344de9afb6c5410820,
   0x5792c64aa465bd226a76441ae93fddbcf9712f692c9fb50217e7da83c1aaf6ee7e3fde45d9318f1660e2f20992b03eb6)

/-- The key that wraps the stand key of `keyOne`. -/
def devKek : List Byte := beBytes 32 0x267062dd76717efce385d32e5c58d2a4ee57ffdfb515a041b6daefee9445eeb6

theorem device_key : State.reset.mfg.bindKey = devKey := by decide +kernel
theorem device_point : ecMul devKey p384g = some devPoint := by decide +kernel
theorem device_kid : kidOf (ecBytes (some devPoint)) = keyOne.take 16 := by decide +kernel
theorem device_entry : keyEntry man (keyOne.take 16) = some keyOne := by decide +kernel
theorem device_epk : ecPoint (keyEpk keyOne) = p384g := by decide +kernel
theorem device_kek : hkdf384 (manSalt man) (beBytes 48 devPoint.1) (ascii "Caerlen stand wrap v1") 32 = devKek := by decide +kernel

/-- A register A with its four semiblocks, from 40 bytes. -/
def wrapAt (v : Nat) : List Byte × List (List Byte) := ((semiblocks (beBytes 40 v)).headD [], (semiblocks (beBytes 40 v)).drop 1)

/-- Six steps of the unwrap of four semiblocks, from step 24 - `i` down. -/
def unwrapSix (i : Nat) (x : List Byte × List (List Byte)) : List Byte × List (List Byte) :=
  (List.range' i 6).foldl (fun x j => unwrapStep (aesKeys devKek) 4 x (24 - j)) x

theorem device_unwrap0 : unwrapSix 0 (wrapAt 0xbd8e131f737fe9134fb7d15212aec0503205a4903c8f227a249152b16e9415130943ee078035361c) =
    wrapAt 0xe0f92c581854331546b76b39cec92d7e510aa618c2de2f4d041e0a668a96a1a9a88f591dac2fadc2 := by decide +kernel
theorem device_unwrap6 : unwrapSix 6 (wrapAt 0xe0f92c581854331546b76b39cec92d7e510aa618c2de2f4d041e0a668a96a1a9a88f591dac2fadc2) =
    wrapAt 0x25f2cb32d9fe323318755207dc45d108ef135ca1b3ef0c5a6a84df1000f69102b0320c66127464d8 := by decide +kernel
theorem device_unwrap12 : unwrapSix 12 (wrapAt 0x25f2cb32d9fe323318755207dc45d108ef135ca1b3ef0c5a6a84df1000f69102b0320c66127464d8) =
    wrapAt 0x2cec6e9b99bbbba4775efd61f69ea362b1b5eab13a5ef83655a5fe34f0b8d9c2273aaaae10127a51 := by decide +kernel
theorem device_unwrap18 : unwrapSix 18 (wrapAt 0x2cec6e9b99bbbba4775efd61f69ea362b1b5eab13a5ef83655a5fe34f0b8d9c2273aaaae10127a51) =
    (List.replicate 8 0xA6, List.replicate 4 (List.replicate 8 1)) := by decide +kernel

/-- The 24 steps, six at a time. -/
theorem unwrap_sixes (x : List Byte × List (List Byte)) :
    (List.range 24).foldl (fun x j => unwrapStep (aesKeys devKek) 4 x (24 - j)) x = unwrapSix 18 (unwrapSix 12 (unwrapSix 6 (unwrapSix 0 x))) := by
  simp only [unwrapSix, ← List.foldl_append]; rfl

theorem device_unwrap : keyUnwrap devKek (keyWkey keyOne) = some (List.replicate 32 1) := by
  have hl : ((semiblocks (keyWkey keyOne)).headD [], (semiblocks (keyWkey keyOne)).drop 1) =
    wrapAt 0xbd8e131f737fe9134fb7d15212aec0503205a4903c8f227a249152b16e9415130943ee078035361c := by decide +kernel
  have hn : (semiblocks (keyWkey keyOne)).length - 1 = 4 := by decide +kernel
  rw [keyUnwrap, hn, hl, unwrap_sixes, device_unwrap0, device_unwrap6, device_unwrap12, device_unwrap18]; decide +kernel
theorem device_manKey : manKey man (List.replicate 32 1) = manPair.2 := by decide +kernel

/-- R320, R323: the device finds its key entry and unwraps the stand key. -/
theorem witness_StandKeys : standKeys State.reset.mfg.bindKey man State.reset.mfg.kid = some manPair := by
  have hk : State.reset.mfg.kid = keyOne.take 16 := by rw [Record.kid, Record.publicKey, ecPublic, device_key, device_point, device_kid]
  have hz : ecdh devKey (keyEpk keyOne) = some (beBytes 48 devPoint.1) := by rw [ecdh, device_epk, device_point]
  have hs : standKey devKey man keyOne = some (List.replicate 32 1) := by rw [standKey, hz, Option.bind_some, device_kek, device_unwrap]
  rw [standKeys, hk, device_key, device_entry, Option.bind_some, hs, Option.map_some, device_manKey]; rfl

/-- R322: the manifest passes every check; a wrong tag is HAUL_MANIFEST, no entry of the device HAUL_KEY, no billet CFG_ZERO. -/
theorem test_manifest : manCheck man (some manPair) = 0 ∧ manCheck (manOf (List.replicate 48 0) keyOne) (some manPair) = 1 ∧
    manCheck man none = 2 ∧ manCheck (man.take 16 ++ leBytes 4 0 ++ man.drop 20) none = 10 := by decide +kernel

theorem witness_HaulRequests : let v := haul none []
    let w := v.write 0x3000_0000 (rq 2 0)
    up.Open ∧ up.owns .host 2 = true ∧ up.owns .mgmt 2 = false ∧ (haul none [(.rehaul 3, rq 1 0)]).chanFree 5 = true ∧
    ((haul none [(.rehaul 3, rq 1 0)]).haul 5).fq = (.rehaul 3, rq 1 0) :: [] ∧ w.chanFree 5 = true ∧ (w.haul 5).fq = [] ∧ w.ringEntry 5 = some (rq 2 0) ∧
    rqOp (rq 2 0) = 2 ∧ rqOp (rq 1 0) = 1 ∧ rqHeld (rq 1 0) = false ∧ rqHeld (rq 1 16) = true ∧ v.get (R.HAUL_SRC.ctx 0) = v.chanCtx 5 ∧
    v.get (R.HAUL_SSTAT.state 0) = 2 ∧ 0 < (v.srcQueues 0).1 ∧ 0 < (v.srcQueues 0).2 ∧ v.cagePaused (v.get (R.HAUL_SRC.cage 0)) = false ∧
    ((haul (some (hreq 0)) []).haul 5).req = some (hreq 0) ∧ (hreq 0).phase = 0 ∧ (hreq 0).mread = none ∧
    rqFirst (rq 1 0) + rqCount (rq 1 0) ≤ manBillets man ∧ v.rangesOk 0 (rq 1 0) man = true ∧ permRefused 5 (rq 1 0) man = false ∧
    v.permits 0 (rqMbuf (rq 1 0)) (manWrites [] man).length true = true ∧ v.s0Refused (rqMbuf (rq 1 0)) (manWrites [] man).length = [] ∧
    v.badIn (rqMbuf (rq 1 0)) (manWrites [] man).length = [] ∧ manMore [] man = false := by
  unfold State.Open; decide +kernel

/-- The first read of a manifest that is longer than its header (R330). -/
def manBig : List Byte := man.take 72 ++ leBytes 8 8192 ++ List.replicate 4016 0

theorem witness_HaulRequestsManifest : let r := { hreq 0 with man := [] }
    let x : HRead := ⟨0, 0, false, 0, true⟩
    let a := haul (some { r with mread := some x }) []
    let u := haul (some { r with mread := some { x with again := true } }) []
    let o := haul (some { r with mread := some { x with sent := false } }) []
    let h := haul (some { r with entry := rq 1 16 }) []
    let n : State := { h with oldWin := [(0, [])] }
    let t := (haul none []).put (R.CTX_STATE.state 0) 2
    (a.haul 5).req = some { r with mread := some x } ∧ (u.haul 5).req = some { r with mread := some { x with again := true } } ∧
    (o.haul 5).req = some { r with mread := some { x with sent := false } } ∧ manMore [] manBig = true ∧ (h.haul 5).req = some { r with entry := rq 1 16 } ∧
    h.permits (h.chanCtx 5) (rqMbuf (rq 1 16)) 256 false = true ∧ n.permits (n.chanCtx 5) (rqMbuf (rq 1 16)) 256 false = false ∧
    t.Open ∧ t.get (R.HAUL_CHAN.en 5) = 1 ∧ 2 ≤ t.get (R.CTX_STATE.state (t.chanCtx 5)) ∧ t.chanFree 5 = false ∧ (hreq 1).phase ≠ 0 := by
  unfold State.Open; decide +kernel

theorem witness_HaulRequestsParts : let s := haul (some (hreqSmall false)) []
    let g := (haul (some (hreqSmall false)) []).put R.PWR_STAT.rung 1
    (s.haul 5).req = some (hreqSmall false) ∧ (smallStored ++ List.replicate 4064 0).length = partBytes (billetAt manSmall 0) 0 ∧
    (hreqSmall false).reads.any (fun x => decide (x.billet = 0 ∧ x.part = 0)) = true ∧ bForm (billetAt manSmall 0) = false ∧ s.haulGated 5 = false ∧
    s.permits (s.chanCtx 5) 0x2001_0000 16 true = true ∧ landAddr (rq 1 0) (billetAt manSmall 0) = 0x2001_0000 ∧ s.s0Refused 0x2001_0000 16 = [] ∧
    s.badIn 0x2001_0000 16 = [] ∧ (billetPlain manSmall (hreqSmall false).key 0 0 (smallStored ++ List.replicate 4064 0)).length = 16 ∧ g.haulGated 3 = true ∧
    (hreqSmall false).reads.find? (fun x => decide (x.billet = 0 ∧ x.part = 0)) = some ⟨0, 0, false, 0, true⟩ ∧
    ([] : List Byte).length ≠ partBytes (billetAt manSmall 0) 0 := by decide +kernel

/-- R324, R332: the tag and the digest of the stored billet are right. -/
theorem witness_HaulRequestsBillet : let r := hreqSmall true
    let s := haul (some r) []
    let x : HBillet := ⟨0, 1, 1, 0, [(0, smallStored)], [], false⟩
    (s.haul 5).req = some r ∧ r.opn.find? (fun y => decide (y.i = 0)) = some x ∧ (0 : Nat) < r.next ∧ x.got = billetParts (billetAt r.man 0) ∧
    billetTagOk manSmall r.key 0 (x.stored 1) = true ∧ sha384 (billetPlain manSmall r.key 0 0 smallStored) = bDigest (billetAt manSmall 0) ∧
    s.haulGated 5 = false ∧ x.late = [] ∧ x.barred = false ∧ (∀ y ∈ (hreqSmall false).opn, y.i = 0 → y.got ≠ billetParts (billetAt manSmall 0)) ∧
    billetTagOk manSmall r.key 0 (List.replicate 32 0) = false ∧ (0 : Nat) < s.get R.HAUL_CTL.retries ∧ (hreq 2).phase = 2 ∧
    (hreq 1).phase ≠ 2 ∧ s.badIn (0x3000_0000 + 56) 8 = [] ∧ s.s0Refused (0x3000_0000 + 56) 8 = [] ∧ (up.haul 5).req = none := by decide +kernel

theorem witness_HaulSources : let s := up.put (R.HAUL_SSTAT.state 0) 1
    let c := s.put (R.HAUL_SSTAT.state 0) 2
    let e := ([(R.HAUL_SRC.en 0, 1), (R.HAUL_SRC.cage 0, 3), (R.HAUL_SRC.transport 0, 1), (R.HAUL_CONN.addr 0, 0x2000_0000)].foldl (fun s p => s.sput p.1 p.2) (up.put (R.CAGE_CTL.mode 3) 4))
    let g := ([(R.HAUL_CHAN.en 5, 1), (R.HAUL_RING.base 5, 0x3000_0000), (R.HAUL_RLEN.len 5, 4)].foldl (fun s p => s.sput p.1 p.2) up)
    let r := (up.puts [(R.HAUL_STREC.valid 3, 1), (R.HAUL_SCRUB_DEF.seconds, 1), (R.HAUL_QUAR.active 7, 1), (R.HAUL_QUAR.rec 7, 3), (R.HAUL_STREC.chan 3, 5)])
    s.get (R.HAUL_SSTAT.state 0) = 1 ∧ c.get (R.HAUL_SSTAT.state 0) = 2 ∧ up.get (R.HAUL_SRC.en 0) = 0 ∧ (haul (some (hreq 0)) []).hauls = [(5, ⟨some (hreq 0), []⟩)] ∧
    ((haul (some (hreq 0)) []).put (R.HAUL_SSTAT.state 0) 1).get (R.HAUL_SSTAT.state 0) ≠ 2 ∧ rqSrc (rq 1 0) = 0 ∧
    e.Open ∧ e.get R.HAUL_SCSTAT.busy = 0 ∧ e.sget (R.HAUL_SRC.en 0) = 1 ∧ e.cageFitted (e.sget (R.HAUL_SRC.cage 0)) = true ∧ e.cageEther (e.sget (R.HAUL_SRC.cage 0)) = true ∧
    e.permits (e.sget (R.HAUL_SRC.ctx 0)) (e.sget (R.HAUL_CONN.addr 0)) 1024 false = true ∧ g.get R.HAUL_CCSTAT.busy = 0 ∧ g.haulDie 3 ≠ none ∧
    g.permits 0 0x3000_0000 256 true = true ∧ g.permits 0 0x3000_0000 256 false = true ∧ g.sget (R.HAUL_CHAN.vec 5) / 32 = g.sget (R.HAUL_CHAN.ctx 5) ∧ (g.haul 5).req = none ∧
    r.get (R.HAUL_STREC.valid 3) = 1 ∧ r.scrubTicks (r.s0Bytes (r.get (R.HAUL_STREC.mbuf 3)) 256) ≠ 0 ∧ r.get R.HAUL_CTL.scrub_off = 0 ∧ (r.hrec 3).pass = false ∧
    ((r.setHrec 3 { r.hrec 3 with pass := true }).hrec 3).pass = true ∧ r.get (R.HAUL_QUAR.active 7) = 1 ∧ r.get R.HAUL_CTL.rehaul_pin = 0 ∧ r.get (R.HAUL_QUAR.tries 7) < 3 ∧
    (r.haul 5).fq = [] ∧ KMap.find (fun _ => 0) ({ up with refill := [(383, 1)] } : State).refill 383 = 1 ∧
    (({ up with refill := [(383, 3)] } : State).put (R.VER_SLOT.state 95 3) verBUILDING).vst 95 3 = verBUILDING ∧ up.halfInReset (halfOfDie 23) = false ∧ up.layersBad 0 95 3 = false := by
  unfold State.Open; decide +kernel

/-- Context 0's attempt in state `st`. -/
def ck (st : Nat) (x : Ckpt) : State := { up.puts [(R.CKPT_STAT.state 0, st), (R.CKPT_AREA.en 0, 1), (R.CKPT_MSIZE.msize 0, 2 ^ 20), (R.CKPT_TSIZE.tsize 0, 2 ^ 20)] with
  cutForce := [(0, some table)], ckpts := [(0, x)] }

theorem witness_CheckpointAttempts : let w : CkWrite := ⟨0, [1], false⟩
    let x := { Ckpt.empty with reading := true, todo := [((0, 0), 0)] }
    up.Open ∧ up.get R.CKPT_ACSTAT.busy = 0 ∧ up.ckState 0 = ckIDLE ∧ (ck ckIDLE Ckpt.empty).get (R.CKPT_AREA.en 0) = 1 ∧ (ck ckREADING x).ckState 0 = ckREADING ∧
    (ck ckREADING x).cutTable 0 0 = some table ∧ ((ck ckREADING x).ckpt 0).todo = ((0, 0), 0) :: [] ∧ ((ck ckREADING x).ckpt 0).bread = false ∧
    (ck ckREADING x).posReady 0 table (0, 0) ((ck ckREADING x).get (R.CKPT_STAT.step 0)) = true ∧ ((ck ckREADING { x with todo := [] }).ckpt 0).todo = [] ∧
    (ck ckREADING x).get (R.CKPT_XREG.n 0) = 0 ∧ ((ck ckREADING Ckpt.empty).ckpt 0).reading = false ∧ ((ck ckREADING Ckpt.empty).ckpt 0).part = none ∧
    ((ck ckREADING { Ckpt.empty with writes := [w] }).ckpt 0).writes = w :: [] ∧ ((ck ckCHAINING Ckpt.empty).ckpt 0).chain = none ∧ up.moduleOf 0 = 0 ∧ up.lastModule 0 = 0 ∧
    ((ck ckCHAINING { Ckpt.empty with part := some [] }).ckpt 0).part = some [] ∧ ((ck ckCOMMITTING { Ckpt.empty with tally := some (0, []) }).ckpt 0).tally = some (0, []) ∧
    (ck ckRESTORING Ckpt.empty).ckState 0 = ckRESTORING ∧ ((ck ckRESTORING Ckpt.empty).ckpt 0).res = none := by
  unfold State.Open; decide +kernel

/-- A cut table of three modules (R270). -/
def table3 : CutTable := { table with hdr := List.replicate 6 0 ++ leBytes 2 3 ++ List.replicate 56 0 }

/-- Module 0 of a chain of more than one (R355, R361). -/
theorem witness_CheckpointChain : let s := { ck ckCHAINING Ckpt.empty with cutForce := [(0, some table3)] }
    s.moduleOf 0 = 0 ∧ s.ckState 0 = ckCHAINING ∧ (s.ckpt 0).chain = none ∧ s.lastModule 0 ≠ 0 := by decide +kernel

theorem witness_RestoreAndBuddy : let b := up.puts [(R.CKPT_BUDDY.en 0, 1), (R.CKPT_BBASE.base 0, 0x0200_0000_0000), (R.CKPT_BBSIZE.size 0, 64)]
    let n : State := { up with ckpts := [(0, { Ckpt.empty with bin := some 7 })] }
    up.Open ∧ up.activeStages 0 = [] ∧ up.ckState 0 = ckIDLE ∧ (ck ckRESTORING Ckpt.empty).ckState 0 = ckRESTORING ∧ (ck ckRESTORING Ckpt.empty).moduleOf 0 = 0 ∧
    ((ck ckRESTORING Ckpt.empty).ckpt 0).cand = none ∧ (ck ckRESTORING Ckpt.empty).candidates 0 { ring := [], segs := [], signer := [] } = [] ∧ b.get (R.CKPT_BUDDY.en 0) = 1 ∧ b.badIn 0x0200_0000_0000 64 = [] ∧
    (n.ckpt 0).bin = some 7 ∧ (up.ckpt 0).bread = false ∧ (ck ckIDLE Ckpt.empty).cutTable 0 0 = some table ∧ table.layers[0]? = some (List.replicate 64 0) ∧
    up.permits 0 0x2000_0000 8 true = true ∧ up.badIn 0x2000_0000 8 = [] := by
  unfold State.Open; decide +kernel

theorem witness_MemoryUpkeep : let s := up.puts [(R.MEM_SCRUB_HBM.seconds, 1), (R.MEM_SCRUB_FAR.seconds, 1)]
    let b := s.put R.MEM_WCSTAT.busy 1
    regionOf 0x2000_0000 = .hbm 0 ∧ s.backed 0x2000_0000 = true ∧ (s.place 0x2000_0000).2.1 < 24 ∧ s.get R.MEM_SCRUB_HBM.seconds ≠ 0 ∧
    s.patrolPaused = false ∧ s.halfInReset (s.homeLd 0x2000_0000 / 2) = false ∧ s.isBad 0x2000_0000 = false ∧ s.get R.MEM_SCRUB_FAR.seconds ≠ 0 ∧ s.Open ∧
    s.get R.MEM_WCSTAT.busy = 0 ∧ s.get (R.CTX_STATE.state 0) ≠ 3 ∧ (∀ w ∈ List.range 16, s.winCause 1 w = 0) ∧ s.winCause 0 0 ≠ 0 ∧
    b.get R.MEM_WCSTAT.busy = 1 ∧ b.get R.PWR_STAT.fzero = 0 ∧ (b.put R.PWR_STAT.fzero 1).coversFar 0 = true ∧ s.get R.HBM_GCSTAT.busy = 0 ∧ s.gregBad 7 = false ∧
    (s.sput (R.HBM_GREG.size 7) 4095).gregBad 7 = true ∧ s.owns .host 3 = true ∧ s.owns .mgmt 3 = false ∧ (∀ c ∈ List.range 64, s.get (R.CKPT_BUDDY.en c) = 0) := by
  unfold State.Open; decide +kernel

/-! ## The host port, registers, ownership, orders -/

theorem witness_HostPort : let w := { up with vfs := 63 }
    let r := up.put R.PWR_STAT.rung 2
    up.portUp = true ∧ State.reset.portUp = false ∧ w.funcExists 63 = true ∧ up.funcExists 1 = false ∧ up.vfs = 0 ∧ w.vfs ≠ 0 ∧ up.get R.HOST_STAT.ready = 1 ∧
    (up.put R.HOST_STAT.ready 0).get R.HOST_STAT.ready = 0 ∧ 2 ≤ r.get R.PWR_STAT.rung ∧ up.get R.PWR_STAT.rung < 2 ∧ up.get R.RAS_STAT.fatal = 0 ∧
    up.get (R.CTX_STATE.state 0) = 1 ∧ up.permits 0 0x2000_0000 4096 true = true ∧ up.permits 0 0x2000_0000 4096 false = true ∧ inSample 0 64 = true ∧ inSample 0x2000_0000 64 = false ∧
    up.rangeDown 0x2000_0000 4096 = none ∧ up.badIn 0x2000_0000 4096 = [] ∧ up.readBad 0x2000_0000 4096 = [] ∧ ({ up with bad := [0x2000_0000] } : State).readBad 0x2000_0000 64 ≠ [] ∧
    ({ up with halfRst := [(0, true)] } : State).rangeDown 0x2000_0000 64 ≠ none ∧ w.permits 63 0x2000_0000 64 true = false := by decide +kernel

theorem witness_RegisterWrites : up.Open ∧ up.portUp = true ∧ accessOk 3 4 = false ∧ accessOk 0x03A1_0010 8 = true ∧ ({ up with vfs := 5 } : State).funcExists 5 = true ∧
    up.owns .host 1 = true ∧ up.owns .mgmt 1 = false ∧ up.reachReg 0x03A1_0010 = .ok ∧
    ((regAt 0x03A1_0010).any (fun x => decide (x.off = 0x03A1_0010 ∧ x.row.bits = 64) && up.forbidden ⟨x, 0, 64, 0, .mgmt⟩)) = true ∧
    up.reachReg (clrOff (.mma 0 0)) = .ok ∧ isRas (.ras true true) = true ∧ State.reset.get R.HOST_STAT.ready = 0 := by
  unfold State.Open; decide +kernel

theorem witness_OwnershipAndOrders : let d := { up with halfRst := [(1, true)] }
    let a := { up with mgmtOrd := [⟨6, 3000, 1⟩], hostOrd := [⟨6, 2000, 0⟩] }
    up.Open ∧ d.halfInReset (halfOfDie 23) = true ∧ up.halfInReset (halfOfDie 0) = false ∧ up.get R.DIE_CSTAT.busy = 0 ∧ up.get (R.DIE_OWN.assigned 0) = 0 ∧
    up.get (R.CTX_STATE.state 0) = 1 ∧ (up.put (R.DIE_OWN.zeroing 0) 1).get (R.DIE_OWN.zeroing 0) = 1 ∧ up.get R.OWN_LOCK.lockdown = 0 ∧
    (up.put R.OWN_LOCK.lockdown 1).get R.OWN_LOCK.lockdown = 1 ∧ a.mgmtOrd = [⟨6, 3000, 1⟩] ∧ a.hostOrd = [⟨6, 2000, 0⟩] := by
  unfold State.Open; decide +kernel

/-- R457: of two POWER_CAP orders of one slot the lower watts win; a module reset leaves nothing else. -/
theorem test_orders : let a := { up with mgmtOrd := [⟨6, 3000, 1⟩], hostOrd := [⟨6, 2000, 0⟩] }
    let b := { up with mgmtOrd := [⟨1, 0, 1⟩], hostOrd := [⟨6, 2000, 0⟩] }
    (after .orderSlotEnd a).won = [⟨6, 2000, 0⟩] ∧ (after .orderSlotEnd b).won = [⟨1, 0, 1⟩] := by decide +kernel

/-- An order that has won. -/
def won (k a : Nat) : State := { up with won := [⟨k, a, 0⟩] }

theorem witness_Teardowns : let z := up.put (R.CTX_STATE.state 3) 3
    (won 4 3).orderDue 4 3 = some ⟨4, 3, 0⟩ ∧ up.orderDue 4 3 = none ∧ (up.put (R.CTX_STATE.state 3) 2).get (R.CTX_STATE.state 3) = 2 ∧
    (up.put (R.CTX_STATE.state 3) 2).drained 3 = true ∧ z.get (R.CTX_STATE.state 3) = 3 ∧ z.halfInReset 0 = false ∧ z.halfInReset 1 = false ∧ z.ctxFlumes 3 = [] ∧
    up.portUp = true ∧ ({ up with vfs := 3 } : State).funcExists 3 = true ∧ State.reset.portUp = false := by decide +kernel

theorem witness_DieAndHalfResets : let d := { up with halfRst := [(1, true)], halfBack := [(1, true)] }
    let b : BootIn := ⟨3, 15, 0⟩
    (won 3 23).orderDue 3 23 = some ⟨3, 23, 0⟩ ∧ up.halfInReset 1 = false ∧ d.halfInReset 1 = true ∧ (won 2 1).orderDue 2 1 = some ⟨2, 1, 0⟩ ∧
    ((up.put (R.SEC_BANK.valid 0) 1).bankBoots b 1 0) = true ∧ up.bankBoots ⟨3, 0, 0⟩ 1 0 = false ∧
    d.halfDead 1 = false ∧ d.get R.SEC_STAT.recovery = 0 ∧ (∀ c ∈ List.range 64, d.get (R.CTX_STATE.state c) ≠ 3) := by decide +kernel

theorem witness_StartUp : let b : BootIn := ⟨3, 15, 0⟩
    let v := State.reset.put (R.SEC_BANK.valid 0) 1
    State.reset.boot = 0 ∧ State.reset.refclk = true ∧ ({ State.reset with refclk := false } : State).refclk = false ∧ v.fw.upd = none ∧ v.bankBoots b 0 0 = true ∧ v.bankBoots b 1 0 = true ∧
    (won 1 0).orderDue 1 0 = some ⟨1, 0, 0⟩ ∧ up.sample = none ∧ up.get R.SEC_STAT.pending ≠ 2 ∧ ({ v with boot := 1 } : State).boot = 1 ∧
    (up.put R.MOD_PIN.perst 1).get R.MOD_PIN.perst = 1 ∧ ({ up with boot := 3 } : State).boot = 3 ∧ (up.put R.PWR_STAT.fzero 1).get R.PWR_STAT.fzero = 1 ∧ up.get R.PWR_STAT.fzero = 0 ∧
    up.awake = true ∧ (up.put R.PWR_STAT.rung 2).awake = false := by decide +kernel

/-! ## Power, heat, security, management, metering -/

theorem witness_PowerRungs : let t := up.puts [(R.PWR_STAT.busy, 1), (R.PWR_STAT.target, 2)]
    let b := up.puts [(R.PWR_STAT.busy, 1), (R.PWR_STAT.rung, 2), (R.PWR_STAT.target, 0)]
    orderFirst 5 4 (won 5 4).won = some ⟨5, 4, 0⟩ ∧ up.get R.PWR_STAT.busy = 0 ∧ t.get R.PWR_STAT.busy = 1 ∧ t.workDone = true ∧ t.transfersDone = true ∧ (runWith [] (fun x => { x with loads := [⟨31, 0x2000_1000, 8, true, none⟩] })).workDone = false ∧
    (ck ckREADING Ckpt.empty).transfersDone = false ∧ t.won = [] ∧ b.get R.PWR_STAT.rung = 2 ∧ up.Open ∧ up.owns .host 5 = true ∧ up.owns .mgmt 5 = false ∧
    orderFirst 6 2000 (won 6 2000).won = some ⟨6, 2000, 0⟩ ∧ up.s0Runs = true ∧ State.reset.s0Runs = false ∧ up.get R.PWR_STAT.rung = 0 ∧
    (up.puts [(R.PWR_STAT.ceiling, 0), (R.PWR_MEAS.watts, 3900)]).get R.PWR_STAT.ceiling = 0 := by
  unfold State.Open; decide +kernel

theorem witness_HeatAndSample : let y := { up with sample := some ⟨1, 0, []⟩ }
    up.s0Runs = true ∧ up.halfDead 1 = false ∧ up.get R.PWR_STAT.rung < 2 ∧ State.reset.s0Runs = false ∧ up.get R.MOD_PIN.leak = 0 ∧
    (up.put R.MOD_PIN.leak 1).get R.MOD_PIN.leak = 1 ∧ y.sample = some ⟨1, 0, []⟩ ∧ up.sample = none ∧ up.bad = [] ∧ up.plist = [] ∧ up.mfg.warm = false := by decide +kernel

/-- R498: above the cap the ceiling goes one lower; below 95 per cent of it, one higher. -/
theorem test_cap : let s := up.put R.PWR_STAT.ceiling 5
    (after (.powerCapTick 3801 0 0) s).get R.PWR_STAT.ceiling = 4 ∧ (after (.powerCapTick 3609 0 0) s).get R.PWR_STAT.ceiling = 6 ∧
    (after (.powerCapTick 3610 0 0) s).get R.PWR_STAT.ceiling = 5 := by decide +kernel

theorem witness_Attestation : let m := up.put R.SEC_STAT.measuring 1
    let x := { up with spdm := [(9, ⟨3, false, [(5, .digests)]⟩)] }
    m.get R.SEC_STAT.measuring = 1 ∧ m.boot = 4 ∧ (m.halfDead 0 || m.halfDead 1) = false ∧ m.get R.SEC_STAT.recovery = 0 ∧ up.spdmOn = true ∧ State.reset.spdmOn = false ∧
    (x.conn 9).stage = 3 ∧ (x.conn 9).resync = false ∧ (x.conn 9).defer.find? (fun d => decide (d.1 = 5)) = some (5, .digests) ∧
    (({ up with spdm := [(9, ⟨3, true, []⟩)] } : State).conn 9).resync = true ∧ (up.conn 9).stage = 0 := by decide +kernel

/-- The SHA-384 of no bytes. -/
def noBytes : List Byte := beBytes 48 0x38b060a751ac96384cd9327eb1b1e36a21fdb71114be07434c0cc7bf63f6e1da274edebfe76f65fbd51ad2f14898b95b

/-- A package of four empty images that passes R471, at SVN 4, and its signing key. -/
def package : List Byte := leBytes 4 0x5057_4643 ++ [1, 0, 4, 0] ++ leBytes 4 8 ++ leBytes 4 4 ++ List.replicate 80 0 ++
  beBytes 48 0xb02b856a5761c96e630fca0064a8867beaca8e48507e62f2aa3306bb3ad33985dd19ca6bf8eace93db09f1aefdacd637 ++
  beBytes 48 0xb02b856a5761c96e630fca0064a8867beaca8e48507e62f2aa3306bb3ad33985dd19ca6bf8eace93db09f1aefdacd637 ++
  beBytes 16 0x9c5c6ce957439cc445a50d9173c1ac8f ++ List.replicate 48 0 ++ [1] ++ List.replicate 15 0 ++ noBytes ++ [2] ++ List.replicate 15 0 ++ noBytes ++
  [3] ++ List.replicate 15 0 ++ noBytes ++ [4] ++ List.replicate 15 0 ++ noBytes
def packageKey : List Byte := 4 :: (beBytes 48 0x55c881caafb9226740db0da623b0275fe709c3b5d1b5644e1f7e4a65ef782f79b68ce564f102f8a1758c3e8e47000fc ++
  beBytes 48 0xd2d0e41f26276d00c7a692436af437154edbef9ae6a4790789cfc9d43252455355cfa06b2dc4fc6ea0e38748488e4b68)

/-- R470, R471: its images have their digests and its signature verifies. -/
theorem witness_FirmwarePackage : packageOk package = true ∧ imagesOk package = true ∧ packageSigOk package packageKey = true ∧
    packageSigOk package (ecBytes p384g) = false := by decide +kernel

theorem witness_FirmwareUpdate : let u := { up with fw := { up.fw with upd := some 1 } }
    let p := up.put R.SEC_STAT.pending 1
    up.mctpOn = true ∧ State.reset.mctpOn = false ∧ up.fw.upd = none ∧ up.runBank 0 ≠ 1 ∧ up.runBank 1 ≠ 1 ∧ (up.put (bankFld 1) 1).runBank 1 ≠ (up.put (bankFld 1) 1).runBank 0 ∧
    p.get R.SEC_STAT.pending = 1 ∧ u.fw.upd = some 1 ∧ packageOk package = true ∧ packageOk (package.drop 1) = false ∧ u.get R.SEC_STAT.svn_floor ≤ fieldAt package 12 4 ∧
    fieldAt package 12 4 < (u.put R.SEC_STAT.svn_floor 5).get R.SEC_STAT.svn_floor ∧ up.Open ∧ (up.put (R.SEC_BANK.valid 1) 1).get (R.SEC_BANK.valid (1 - up.fw.sel)) = 1 ∧
    (up.put R.SEC_STAT.pending 2).fw.slot ≠ 1 := by
  unfold State.Open; decide +kernel

theorem witness_ManagementMessages : up.mctpOn = true ∧ State.reset.mctpOn = false ∧ up.get R.SEC_STAT.recovery = 0 ∧ (up.put R.SEC_STAT.recovery 1).get R.SEC_STAT.recovery = 1 ∧
    up.i3c = none ∧ ({ up with i3c := some 0x31 } : State).i3c ≠ none ∧ accessOk 0x03A1_0010 8 = true ∧ accessOk 1 8 = false ∧ regWrites .mgmt 0x03A1_0010 8 0 ≠ [] ∧
    regWrites .mgmt 0x03FF_FFF8 8 0 = [] ∧ up.reachReg 0x03A1_0010 = .ok ∧ up.Open ∧ up.owns .host 1 = true ∧ (up.put R.OWN_LOCK.mgmt 2).owns .mgmt 1 = true ∧
    orderOk 6 3800 = true ∧ orderOk 6 3801 = false ∧ up.orderTaken 6 3800 = true := by
  unfold State.Open; decide +kernel

theorem witness_Metering : let x := { up with scaler := { up.scaler with on := true, fine := 20000 } }
    let r := List.replicate 256 (0 : Byte)
    let w := { up with wire := some r }
    x.scaler.on = true ∧ x.scaler.stopped = false ∧ x.scaler.pulses < x.scaler.fine / 10000 ∧ up.scaler.on = false ∧ x.scaler.broken = false ∧ w.wire = some r ∧ w.metering = true ∧
    State.reset.metering = false ∧ ({ w with meter := { w.meter with prev := some r } } : State).meter.prev = some r ∧ mrSerial r = mrSerial r ∧ up.wire = none ∧ up.meter.gap = false := by decide +kernel

theorem witness_LostModules : let s := { up.puts [(R.RED_CTL.en 0, 1), (R.RED_CTL.next 0, 1)] with cutForce := [(0, some table3)] }
    let l := (s.put (R.CKPT_BUDDY.en 0) 1).setJob 0 { Job.empty with lost := [1] }
    s.cutTable 0 0 = some table3 ∧ s.get (R.RED_CTL.en 0) = 1 ∧ s.get (R.RED_CTL.next 0) < 24 ∧ s.skwUp 1 = false ∧ (s.job 0).lost = [] ∧ (l.job 0).lost = 1 :: [] ∧
    l.get R.RAS_CTL.shrink_pin = 0 ∧ l.get (R.CKPT_BUDDY.en 0) = 1 ∧ l.moduleOf 0 = 0 := by decide +kernel

/-! ## The machine as a whole -/

theorem witness_StepTakesTheFront : ({ up with pending := [.leakDry, .leakWet] } : State).pending = .leakDry :: [.leakWet] ∧ State.reset.pending = [] := by decide +kernel

/-- A queue of two commands is served from its front. -/
theorem test_queue : (match step { up with pending := [.leakWet, .leakDry] } with
    | .next t => decide (t.pending = [.leakDry] ∧ t.get R.MOD_PIN.leak = 1)
    | _ => false) = true := by decide +kernel

theorem witness_SlotRoundTrip : slotCtlOf (.flmPop (c0 3) 3 (.reg 6)) = some (c0 3) ∧ slotFormed (.flmPop (c0 3) 3 (.reg 6)) = true ∧
    decSlot 0 0 3 false (encSlot (.flmPop (c0 3) 3 (.reg 6))) = .ok (.flmPop (c0 3) 3 (.reg 6)) := by decide +kernel

theorem witness_SlotClasses : decSlot 5 2 1 true 0 = .ok (.nop { die := 5, q := 2, slot := 1, pe := false, pidx := 0, psense := false, more := true }) ∧
    opcodeSlots 0xB7 = [3] ∧ opcodeSlots 0xB8 = [] := by decide +kernel

theorem witness_CanonKept : State.reset.Canon ∧ (up.write 0x2000_0000 [1]).Canon ∧
    (match step (up.write 0x2000_0000 [1]) with
      | .next _ => true
      | _ => false) = true := by
  unfold State.Canon; decide +kernel

theorem witness_FunctionsExist : up.portUp = true ∧ up.vfs = 0 ∧ ({ up with vfs := 5 } : State).portUp = true ∧ ({ up with vfs := 5 } : State).vfs ≠ 0 ∧ ¬((6 : Nat) ≤ ({ up with vfs := 5 } : State).vfs) := by decide +kernel

theorem witness_FittedStacks : State.reset.mfg.nstacks ≤ 6 ∧ ({ up with mfg := { up.mfg with nstacks := 4 } } : State).mfg.nstacks = 4 ∧
    ({ up with mfg := { up.mfg with nstacks := 4 } } : State).stackFitted 4 = false ∧ ({ up with mfg := { up.mfg with nstacks := 5 } } : State).stackFitted 5 = false := by decide +kernel

/-! ## Further hypotheses of the statements -/

theorem witness_LoadsAndStoresMore : let u := runWith [] (fun x => { x with loads := [⟨31, 0x2000_1000, 8, true, some 7⟩] })
    (u.seq 0).loads = [⟨31, 0x2000_1000, 8, true, some 7⟩] := by decide +kernel

theorem witness_FlumeTakeAndNextMore : let s := flm 1 { Flume.empty with recs := List.replicate 16 { full with held := true } ++ [full], out := 17 }
    let m := run.puts [(R.SCHED_CTL.mode 0 0, 3)]
    Ready s (.flmPop (c0 3) 15 (.imm 0)) 3 ∧ s.flmSeqCheck 0 0 false = none ∧ s.flmState 0 = flmOPEN ∧ (s.flume 0).readyHead = some full ∧
    16 ≤ (s.flume 0).heldBy 0 ∧ Ready m (.flmNext (c0 3) 15 7) 3 ∧ m.get (R.SCHED_CTL.mode 0 0) = 3 :=
  ⟨ready_of _ _ _ (by decide +kernel), by decide +kernel, by decide +kernel, by decide +kernel, by decide +kernel, ready_of _ _ _ (by decide +kernel), by decide +kernel⟩

theorem witness_FlumeCloseAndDescriptorMore : let v := (shadowFlm []).put (R.CTX_STATE.state 0) 2
    let e := flm 1 Flume.empty
    let z := (flm 4 Flume.empty).setJob 5 { Job.empty with remake := [(0, []), (3, [])] }
    let d : State := { flm 1 Flume.empty with halfRst := [(0, true)] }
    v.Open ∧ v.halfInReset (halfOfFlume 0) = false ∧ v.get R.FLM_CSTAT.busy = 0 ∧ v.leaving (v.sget (R.FLM_DESC.ctx 0)) = true ∧
    e.Open ∧ e.get R.FLM_CSTAT.busy = 0 ∧ e.leaving (e.sget (R.FLM_DESC.ctx 0)) = false ∧ e.sget (R.FLM_DESC.en 0) = 0 ∧ e.flmState 0 = flmOPEN ∧
    z.flmState 0 = flmZEROING ∧ (z.jobs.map Prod.fst).find? (fun c => (z.job c).remake.any (fun x => decide (x.1 = 0))) = some 5 ∧
    (z.job 5).remake.filter (fun x => decide (x.1 ≠ 0)) ≠ [] ∧ d.Open ∧ d.halfInReset (halfOfFlume 0) = true ∧ up.flmState 0 ≠ flmZEROING ∧
    up.flmState 0 ≠ flmCLOSING ∧ (shadowFlm []).leaving ((shadowFlm []).sget (R.FLM_DESC.ctx 0)) = false := by
  unfold State.Open; decide +kernel

theorem witness_VersionResolveAndBuildMore : let s : State := { ver [] { Flume.empty with recs := [heldGen 7] } with pinEnd := [(0, 4)] }
    Ready s (.verPin (c0 3) 7 1 (.imm 0)) 3 ∧ s.halfInReset 0 = false ∧ s.flmSeqCheck 0 0 false = none ∧ (s.flume 0).oldestHeld 0 = some (heldGen 7) ∧
    s.vfind 0 7 = none ∧ KMap.find (fun _ => 0) s.pinEnd 0 = 4 :=
  ⟨ready_of _ _ _ (by decide +kernel), by decide +kernel, by decide +kernel, by decide +kernel, by decide +kernel, by decide +kernel⟩

theorem witness_VersionAdmitSwitchAndCommandsMore : let s := (ver [(R.VER_HDR.entry 0, 1)] Flume.empty).modSeq 0 (fun x => { x with s := [(1, 5)] })
    let p := ver [(R.VER_HDR.entry 0, 1), (R.VER_CUR.gen 0, 0), (R.VER_ADMIT.pend 0, 1), (R.VER_ADMIT.gen 0, 5)] Flume.empty
    let u := p.pointerIn 0
    Ready s (.verAdm (c0 3) 1 false) 3 ∧ s.get (R.VER_HDR.entry 0) = 1 ∧ s.admitOk 0 5 false = false ∧ Ready p (.verAdmit (c0 3) 1 false) 3 ∧
    p.get (R.VER_CUR.gen 0) = 0 ∧ u.gateHeld 0 = false ∧ u.get (R.VER_HDR.bar_hold 0) = 0 ∧ u.admitSlot 0 = some 0 ∧ u.vcount 0 0 < 65535 :=
  ⟨ready_of _ _ _ (by decide +kernel), by decide +kernel, by decide +kernel, ready_of _ _ _ (by decide +kernel), by decide +kernel, by decide +kernel,
   by decide +kernel, by decide +kernel, by decide +kernel⟩

theorem witness_SequencerBindingAndRegistersMore : let b := toBind.puts [(R.SEQ_BSTAT.busy 0 0, 1)]
    let l := (toBind.put (R.SEQ_STAT.state 0 0) 1).put (R.SEQ_BSTAT.busy 0 0) 1
    b.Open ∧ b.get (R.SEQ_BSTAT.busy 0 0) = 1 ∧ b.seqState 0 ≠ seqLOADING ∧ l.Open ∧ l.seqState 0 = seqLOADING ∧ l.bindBad 0 = true := by
  unfold State.Open; decide +kernel

/-- The sap instruction of `sapd` when its only block has been added. -/
def sapAdded : State := after (.sapWeightStep 0) (after (.sapVectorCopied 0) (after (.sapMv (c0 1) 0 0 true 0 true 7) (withTs [(0, sapd)] id)))

theorem witness_SapLineAndGlazeUnitsMore : let t := after (.sapGroupWrite 0) sapAdded
    ((sapAdded.sap 0).op.any (fun o => decide (o.xv ≠ none ∧ o.kb = ceilDiv o.K 32) && decide (o.acc.length = 1 ∧ o.group < ceilDiv o.N (sapG o.fw o.fx)))) = true ∧
    ((t.sap 0).op.any (fun o => decide (ceilDiv o.N (sapG o.fw o.fx) ≤ o.group))) = true := by decide +kernel

theorem witness_RingTransfersMore : let z := ring (cmd 2 0 0 0x2000_0000 0 5) false
    let i : State := { ring (cmd 1 0 0x1000 0x2000_0000 8 0) false with fns := [(0, ⟨true, true, false, false⟩)] }
    let f := ring (cmd 5 0 0 0 0 0) false
    let g : State := { f with srings := (1, { SRing.empty with cmds := [⟨0, 1, cmd 0 0 0 0 0 0⟩] }) :: [(0, { SRing.empty with cmds := [⟨5, 1, cmd 5 0 0 0 0 0⟩] })] }
    z.rcur 0 0 = some (cmd 2 0 0 0x2000_0000 0 5) ∧ z.ringsRun 0 = true ∧ (z.sring 0 0).io = false ∧ i.rcur 0 0 = some (cmd 1 0 0x1000 0x2000_0000 8 0) ∧
    bit (fieldAt (cmd 1 0 0x1000 0x2000_0000 8 0) 32 1) 0 = false ∧ i.permits 0 0x2000_0000 8 true = true ∧ (i.fn 0).bme = true ∧
    (g.sring 0 0).cmds = [⟨5, 1, cmd 5 0 0 0 0 0⟩] ∧ (g.sring 0 1).cmds = [⟨0, 1, cmd 0 0 0 0 0 0⟩] ∧ (g.sring 0 0).io = false ∧
    g.rcur 0 0 = some (cmd 5 0 0 0 0 0) ∧ g.ringsRun 0 = true ∧ (f.sring 0 0).cmds = [⟨0, 1, cmd 5 0 0 0 0 0⟩] ∧
    (∀ j ∈ List.range 16, ∀ x ∈ (f.sring 0 j).cmds, 0 ≤ x.num) := by decide +kernel

theorem witness_CagesAndLinkCommitsMore : let d : State := { up.sput (R.CAGE_CTL.mode 0) 2 with halfRst := [(0, true)] }
    let c := (up.put (R.CAGE_CTL.mode 0) 2).sput (R.SKW_CHAN.en 5) 1
    let e : State := { c with halfRst := [(0, true)] }
    let n := c.sput (R.SKW_CHAN.link 5) 2
    d.Open ∧ d.get R.CAGE_CSTAT.busy = 0 ∧ d.cageFitted 0 = true ∧ d.halfInReset 0 = true ∧ (up.put (R.CAGE_CTL.mode 0) 2).get (R.CAGE_CTL.mode 0) ≠ 0 ∧
    (up.put (R.CAGE_CTL.mode 0) 2).cageFitted 0 = true ∧ up.get (R.CAGE_CTL.mode 0) = 0 ∧ e.Open ∧ e.sget (R.SKW_CHAN.link 5) < 24 ∧ e.halfInReset 0 = true ∧
    c.leaving (c.sget (R.SKW_CHAN.ctx 5)) = false ∧ c.get (R.SKW_CHAN.en 5) = 0 ∧ c.flumeOn 5 = none ∧ n.Open ∧ n.skwMode (n.sget (R.SKW_CHAN.link 5)) = false ∧
    n.get R.SKW_CCSTAT.busy = 0 ∧ up.leaving 0 = false ∧ (∀ k ∈ List.range 24, (up.skw k).red = []) ∧ up.sget (R.RED_CTL.next 0) = 31 ∧
    (up.put (R.CTX_STATE.state 0) 2).leaving 0 = true := by
  unfold State.Open; decide +kernel

theorem witness_SkidwayBringUpMore : let e := up.put (R.CAGE_CTL.mode 0) 4
    let r := up.puts [(R.RED_CTL.en 0, 1), (R.RED_CTL.next 0, 3)]
    e.ethMode 0 = true ∧ (skw 3 SkwLink.empty).skwMode 0 = true ∧ (skw 3 SkwLink.empty).get (R.SKW_LINK.state 0) = 3 ∧ r.Open ∧ r.owns .host 4 = true ∧
    r.get (R.RED_CTL.en 0) = 1 ∧ r.get (R.RED_CTL.next 0) = 3 := by
  unfold State.Open; decide +kernel

theorem witness_SkidwaySessionsMore : let a : State := { skw 3 SkwLink.empty with mfg := { up.mfg with nedges := 0 } }
    let d : State := { skw 3 SkwLink.empty with halfRst := [(0, true)] }
    let f := skw 3 { SkwLink.empty with fails := [0, 0] }
    a.Open ∧ a.edgeFitted 0 = false ∧ d.Open ∧ d.edgeFitted 0 = true ∧ d.halfInReset 0 = true ∧ f.get (R.SKW_LINK.state 0) = 3 ∧
    2 ≤ ((f.skw 0).fails.filter (fun x => decide (f.now < x + 1400000000))).length ∧ bit ((skw 3 SkwLink.empty).get (R.CAGE_STAT.lock 0)) 0 = false ∧
    bit (((skw 0 SkwLink.empty).put (R.CAGE_STAT.lock 0) 1).get (R.CAGE_STAT.lock 0)) 0 = true ∧ ((skw 3 SkwLink.empty).skw 0).txBlk < 2 ^ 31 := by
  unfold State.Open; decide +kernel

theorem witness_SkidwayRetryMore : let f := skw 3 { SkwLink.empty with replay := [⟨5, 0, [], []⟩] }
    up.skwLive 0 = false ∧ f.skwLive 0 = true ∧ (f.skw 0).replay = [⟨5, 0, [], []⟩] ∧ (f.skw 0).queue = [] ∧ (f.skw 0).unack = 0 ∧ (f.skw 0).nakAt = none ∧
    (f.skw 0).block = 0 ∧ (∀ g ∈ (f.skw 0).replay, g.seq ≠ 4) := by decide +kernel

theorem witness_SkidwayChannelsMore : let c := (remote { Flume.empty with was := some 5 }).put (R.FLM_STAT.state 0) 3
    let w := (remote { Flume.empty with was := some 5 }).puts [(R.FLM_STAT.state 0, 0), (R.FLM_DESC.en 0, 0)]
    up.skwUp 0 = false ∧ c.skwUp 0 = true ∧ c.chanOk 0 5 = true ∧ c.flumeOn 5 = some 0 ∧ c.flmState 0 = flmCLOSING ∧ w.skwUp 0 = true ∧ w.flumeWas 5 = some 0 ∧
    w.chanOk 0 5 = true ∧ w.flumeOn 5 = none := by decide +kernel

theorem witness_PartnerSitesMore : let s : State := { up with mfg := { up.mfg with u0Partner := true } }
    let a := s.puts [(R.PART_STAT.state 0, 2), (R.PART_STAT.mask 0, 15), (R.PART_CTL.en 0, 1), (R.PART_CTL.stage 0, 1)]
    let h : State := { a with halfRst := [(0, true)] }
    let r : FlmRec := { resv with owner := partOwner 0 }
    let f : State := { a.puts [(R.FLM_STAT.state 0, 1), (R.FLM_DESC.depth 0, 4), (R.FLM_DESC.rec_size 0, 1), (R.FLM_DESC.store_slots 0, 4), (R.FLM_DESC.store_base 0, flumeBase 0), (R.FLM_DESC.prod 0, 1), (R.FLM_DESC.cons 0, 1)] with
          flumes := [(0, { Flume.empty with recs := [full], out := 1 })] }
    let q : State := { f with flumes := [(0, { Flume.empty with recs := [r], out := 1 })] }
    let l : State := { f with flumes := [(0, { Flume.empty with recs := [{ full with held := true, holder := partOwner 0 }], out := 1 })] }
    let w : State := { f with flumes := [(0, { Flume.empty with out := 4 })] }
    h.Open ∧ h.halfInReset 0 = true ∧ (s.put (R.PART_STAT.state 0) 1).get (R.PART_STAT.state 0) ≠ 0 ∧ up.partnerFitted 0 = false ∧ up.get (R.PART_STAT.mask 0) = 0 ∧
    (s.put (R.PART_STAT.state 0) 2).get (R.PART_CTL.en 0) = 0 ∧ h.permits 0 0x2000_0000 64 true = true ∧ h.refused 0x2000_0000 64 ≠ [] ∧ a.refused 0x2000_0000 64 = [] ∧
    (∃ e, a.outCheck 0 1 7 true = some e) ∧ f.outCheck 0 1 0 true = none ∧ f.canPush 0 = true ∧ w.outCheck 0 1 0 true = none ∧ w.canPush 0 = false ∧
    w.heldAtOnce 0 true = none ∧ (w.part 0).wait.length < 256 ∧ f.outCheck 0 1 0 false = none ∧ f.holdCheck (partOwner 0) 0 = none ∧ (f.flume 0).readyHead = some full ∧
    (l.flume 0).oldestHeld (partOwner 0) ≠ none ∧ q.outCmtCheck 0 1 (partOwner 0) 0 (Hdr.ofNat 0) = none := by
  unfold State.Open; refine ⟨?_, ?_, ?_, ?_, ?_, ?_, ?_, ?_, ?_, ⟨_, rfl⟩, ?_⟩ <;> decide +kernel

/-- A cut table whose expert table (R277) is at 0x3200_0000. -/
def tableExp : CutTable := { table with hdr := List.replicate 24 0 ++ leBytes 8 0x3200_0000 ++ List.replicate 32 0 }

theorem witness_CutTablesMore : let s : State := { up with cutForce := [(0, some tableExp)] }
    s.boundFlumes = [] ∧ s.cutTable 0 0 = some tableExp ∧ tableExp.expAddr ≠ 0 ∧ (s.job 0).drawn = none ∧ s.s0Ok tableExp.expAddr 16 = true ∧
    s.le (tableExp.expAddr + 2) 2 = 0 ∧ s.s0Ok (s.le (tableExp.expAddr + 8) 6) 0 = true ∧ up.cutPending 0 0 = none ∧ up.cutTable 0 0 = none ∧ up.switchPhase 0 = none ∧
    ({ up with halfRst := [(0, true)] } : State).halfInReset (ldOfDie 0 / 2) = true ∧ up.get (R.VAR_CSTAT.busy 0) = 0 := by decide +kernel

theorem witness_StepVerdictMore : let m := ({ run.puts [(R.CUT_PH.active 0, 1), (R.CUT_CTL.module 0, 1)] with cutForce := [(0, some table3)] } : State)
    let p := m.setJob 0 { Job.empty with point := true }
    let e := (m.put (R.CUT_CTL.module 0) 2).setJob 0 { Job.empty with point := true, cause := 1 }
    (p.job 0).point = true ∧ p.moduleOf 0 ≠ 0 ∧ p.moduleOf 0 < p.lastModule 0 ∧ (e.job 0).point = true ∧ e.moduleOf 0 ≠ 0 ∧ e.lastModule 0 ≤ e.moduleOf 0 ∧
    (e.job 0).cause < 16 ∧ (run.put (R.CUT_PH.active 0) 1).optEnded 0 = false ∧ ({ up with halfRst := [(0, true)] } : State).halfInReset (halfOfDie 0) = true ∧
    run.dieQuiet 0 = false := by decide +kernel

theorem witness_HaulSourcesMore : let e := ([(R.HAUL_SRC.en 0, 1), (R.HAUL_SRC.cage 0, 3), (R.HAUL_SRC.transport 0, 1), (R.HAUL_CONN.addr 0, 0x2000_0000)].foldl (fun s p => s.sput p.1 p.2) (up.put (R.CAGE_CTL.mode 3) 4))
    let c : State := e.write 0x2000_0000 conn
    let a : State := { e with mfg := { e.mfg with nedges := 0 } }
    let h : State := { up with mfg := { up.mfg with u0Partner := true, u1Partner := true } }
    let w := haul (some { hreq 1 with reads := [], next := 0, opn := [] }) []
    e.cageFitted 3 = true ∧ e.leaving 0 = false ∧ ¬(1 ≤ e.le (0x2000_0000 + 546) 2) ∧ c.s0Ok 0x2000_0000 1024 = true ∧ 1 ≤ c.le (0x2000_0000 + 546) 2 ∧
    c.le (0x2000_0000 + 546) 2 ≤ 1024 ∧ 1 ≤ c.le (0x2000_0000 + 548) 1 ∧ c.le (0x2000_0000 + 548) 1 ≤ 16 ∧ a.cageFitted 3 = false ∧
    h.haulDie 0 = none ∧ w.edgeBusy (w.srcEdge (rqSrc (w.hrec 0).entry)) = true ∧ (up.put R.VER_CTL.pin 1).get R.VER_CTL.pin = 1 := by decide +kernel

theorem witness_CheckpointAttemptsMore : let w : CkWrite := ⟨0, [1], false⟩
    let x := { Ckpt.empty with reading := true, todo := [((0, 0), 0)] }
    let e := (ck ckREADING x).put (R.CKPT_AREA.enc 0) 1
    let p := (ck ckREADING x).put (R.CKPT_STAT.step 0) 5
    let small := (ck ckREADING { x with todo := [] }).put (R.CKPT_MSIZE.msize 0) 0
    let b := (ck ckIDLE Ckpt.empty).sput (R.CKPT_AREA.en 0) 1
    (up.put R.PWR_STAT.rung 2).awake = false ∧ up.awake = true ∧ e.ckEnc 0 = true ∧ (e.ckpt 0).key = none ∧ p.posReady 0 table (0, 0) (p.get (R.CKPT_STAT.step 0)) = true ∧
    (small.ckpt 0).reading = true ∧ (small.ckpt 0).todo = [] ∧ small.get (R.CKPT_MSIZE.msize 0) < (small.ckpt 0).cur + 4096 ∧
    (ck ckCOMMITTING { Ckpt.empty with writes := [w], crec := true }).ckState 0 = ckCOMMITTING ∧
    ((ck ckREADING { Ckpt.empty with writes := [{ w with again := true }] }).ckpt 0).writes = { w with again := true } :: [] ∧
    b.Open ∧ b.leaving 0 = false ∧ b.ckState 0 = ckIDLE ∧ up.leaving 0 = false := by
  unfold State.Open; decide +kernel

/-- A tally without parts and the commit record that names it (R356, R357). -/
def tallyZ : List Byte := leBytes 4 0x594C_4154 ++ [1] ++ List.replicate 203 0
def recBody : List Byte := leBytes 4 0x544D_4D43 ++ leBytes 4 1 ++ leBytes 8 0 ++ leBytes 8 3 ++ leBytes 8 0 ++ leBytes 8 9 ++ leBytes 8 0 ++ leBytes 8 208 ++ tallyDigest tallyZ
def recZ : List Byte := recBody ++ sha384 recBody ++ List.replicate 360 0

theorem witness_RestoreAndBuddyCandidate : let s := ck ckRESTORING Ckpt.empty
    let io : CkRead := { ring := recZ, segs := [(0, tallyZ)], signer := [] }
    s.candidates 0 io = recZ :: [] ∧ s.candCause 0 io recZ = 0 ∧ (s.ckpt 0).tried = none ∧ s.moduleOf 0 = 0 := by decide +kernel

theorem witness_RestoreAndBuddyMore : let b := up.puts [(R.CKPT_BUDDY.en 0, 1), (R.CKPT_BBASE.base 0, 0x0200_0000_0000), (R.CKPT_BBSIZE.size 0, 64), (R.FAR_BUDDY.base 0, 0x0200_0000_0000), (R.FAR_BUDDY.size 0, 65536)]
    let m := (ck ckRESTORING { Ckpt.empty with cand := some [] }).put (R.CUT_CTL.module 0) 1
    let v : State := { b with ckpts := [(0, { Ckpt.empty with bover := true })] }
    let r : State := { b with ckpts := [(0, { Ckpt.empty with bread := true })] }
    (up.put R.PWR_STAT.rung 2).awake = false ∧ (run.put (R.CUT_PH.active 0) 1).activeStages 0 ≠ [] ∧ b.banksOk 0 = true ∧ b.patrolPaused = false ∧ (b.ckpt 0).bover = false ∧
    b.s0Refused 0x0200_0000_0000 8 = [] ∧ (up.put (R.CKPT_BBSIZE.size 0) 64).banksOk 0 = false ∧ (v.ckpt 0).bover = true ∧ (r.ckpt 0).bread = true ∧ up.get (R.CKPT_BUDDY.en 0) = 0 ∧
    ((ck ckRESTORING { Ckpt.empty with cand := some [] }).ckpt 0).cand = some [] ∧ ((ck ckRESTORING Ckpt.empty).put (R.CUT_CTL.module 0) 1).moduleOf 0 ≠ 0 ∧
    up.permits 1 0x2000_0000 8 true = false := by
  decide +kernel

theorem witness_MemoryUpkeepMore : let s : State := { up.puts [(R.MEM_SCRUB_HBM.seconds, 1)] with soft := [0x2000_0000] }
    let b := (runWith [(R.MEM_WCSTAT.busy, 1)] (fun x => { x with loads := [⟨31, 0x2000_1000, 8, true, none⟩] }))
    s.soft.contains 0x2000_0000 = true ∧ s.isBad 0x2000_0000 = false ∧ b.underWay 0 = true ∧ (b.put R.MEM_WCSTAT.ctx 0).get R.MEM_WCSTAT.ctx = 0 ∧
    (up.put R.MEM_WCSTAT.busy 1).underWay 0 = false ∧ (up.put R.MEM_SCRUB_HBM.seconds 0).get R.MEM_SCRUB_HBM.seconds = 0 ∧
    (up.put (R.CKPT_BUDDY.en 3) 1).get (R.CKPT_BUDDY.en 3) = 1 := by decide +kernel

theorem witness_PowerRungsMore : let o : State := { up with won := [⟨5, 2, 0⟩] }
    let f := o.put R.RAS_STAT.fatal 1
    let z := up.puts [(R.PWR_STAT.busy, 1), (R.PWR_STAT.target, 3)]
    let d := up.puts [(R.PWR_STAT.busy, 1), (R.PWR_STAT.rung, 3), (R.PWR_STAT.target, 2)]
    let u := up.puts [(R.PWR_STAT.busy, 1), (R.PWR_STAT.rung, 2), (R.PWR_STAT.target, 3)]
    let a := up.puts [(R.PWR_STAT.busy, 1), (R.PWR_STAT.rung, 1), (R.PWR_STAT.target, 0)]
    let m := up.puts [(R.PWR_STAT.busy, 1), (R.PWR_STAT.target, 4)]
    orderFirst 5 2 f.won = some ⟨5, 2, 0⟩ ∧ f.get R.RAS_STAT.fatal = 1 ∧ f.get R.PWR_STAT.busy = 0 ∧ (∀ x ∈ o.won, x.kind ≠ 15 ∧ 4 < x.kind) ∧ z.get R.PWR_STAT.target = 3 ∧
    z.workDone = true ∧ z.transfersDone = true ∧ d.get R.PWR_STAT.rung = 3 ∧ d.get R.PWR_STAT.target = 2 ∧ u.get R.PWR_STAT.rung = 2 ∧ u.get R.PWR_STAT.target = 3 ∧
    a.get R.PWR_STAT.rung = 1 ∧ a.get R.PWR_STAT.target = 0 ∧ m.get R.PWR_STAT.target = 4 ∧ m.workDone = true ∧ m.transfersDone = true ∧ up.boot ≠ 0 ∧ State.reset.boot = 0 := by decide +kernel

theorem witness_HeatAndSampleMore : let s := up.puts [(R.PWR_STAT.busy, 1), (R.PWR_STAT.target, 2)]
    s.s0Runs = true ∧ s.get R.PWR_STAT.busy = 1 ∧ s.get R.PWR_STAT.rung < s.get R.PWR_STAT.target ∧ s.tripped = false := by decide +kernel

theorem witness_ManagementMessagesMore : up.vdmOn = true ∧ State.reset.vdmOn = false ∧ up.get R.HOST_STAT.ready = 1 ∧ (up.put R.HOST_STAT.ready 0).get R.HOST_STAT.ready = 0 ∧
    orderOk 1 0 = true := by decide +kernel

theorem witness_LostModulesMore : let s := { up.puts [(R.RED_CTL.en 0, 1), (R.RED_CTL.next 0, 1), (R.CKPT_BUDDY.en 0, 1)] with cutForce := [(0, some table3)] }
    let l := s.setJob 0 { Job.empty with lost := [1] }
    let h := (s.put (R.CUT_CTL.module 0) 2).setJob 0 { Job.empty with lost := [1], done := some 0 }
    let g := h.put (R.CKPT_BSTEP.valid 0) 1
    let p := l.put R.RAS_CTL.shrink_pin 1
    (l.job 0).lost = 1 :: [] ∧ l.ctxFlumes 0 = [] ∧ (1 : Nat) ≠ l.moduleOf 0 ∧ g.moduleOf 0 = 2 ∧ g.get (R.CKPT_BSTEP.valid 0) = 1 ∧
    (g.job 0).done = some (g.get (R.CKPT_BSTEP.step 0)) ∧ g.cutTable 0 0 = some table3 ∧ p.get R.RAS_CTL.shrink_pin = 1 ∧
    ((s.setJob 0 { Job.empty with lost := [7] }).job 0).lost = 7 :: [] := by decide +kernel

theorem witness_EthernetAndLandingDieLinksMore : let s := up.puts [(R.CAGE_CTL.mode 0, 4), (R.ETH_PORT.mtu 0, 1500), (R.HAUL_SRC.en 3, 1), (R.HAUL_SRC.cage 3, 0), (R.HAUL_SSTAT.state 3, 2)]
    let p := (up.setSpn 0 true ⟨true, 2, 15, some (7, 0), false⟩)
    s.ethMode 0 = true ∧ (64 : Nat) ≤ s.get (R.ETH_PORT.mtu 0) ∧ s.get (R.ETH_PORT.vlan 0) = 0 ∧ s.get (R.HAUL_SRC.en 3) = 1 ∧ s.get (R.HAUL_SRC.cage 3) = 0 ∧
    s.get (R.HAUL_SSTAT.state 3) = 2 ∧ (p.spnEnd 0 true).round < 4 ∧ (p.spnEnd 0 true).peer = some (7, 0) ∧ (p.spnEnd 0 true).busy = true ∧
    (up.spnEnd 0 false).agreed = false := by decide +kernel

/-- One row (R262) of stage `st` at pipeline position `pos` on module 0. -/
def rowOf (st pos : Nat) : List Byte := leBytes 2 st ++ leBytes 2 pos ++ List.replicate 4 0 ++ leBytes 2 pos ++ [1, 0, 0, 1] ++ List.replicate 50 0

/-- A table of one replica: stage 0, then stage 1. -/
def table2 : CutTable := { table with rows := [rowOf 0 0, rowOf 1 1], layers := [List.replicate 64 0, List.replicate 64 0] }

theorem witness_CheckpointAttemptsNotReady : let s : State := { ck ckREADING { Ckpt.empty with reading := true, todo := [((0, 0), 0)] } with cutForce := [(0, some table2)] }
    let p := s.put (R.CKPT_STAT.step 0) 5
    p.ckState 0 = ckREADING ∧ p.cutTable 0 0 = some table2 ∧ p.posReady 0 table2 (0, 0) 5 = false ∧ s.posReady 0 table2 (0, 0) 0 = true ∧ p.ckEnc 0 = false ∧
    (p.ckpt 0).bread = false := by decide +kernel

theorem witness_CutTablesForeman : let s : State := { up.puts [(R.FLM_STAT.state 7, 1), (R.FLM_DESC.cons 7, 1), (R.FLM_CNT.full 7, 9), (R.FLM_BAL_CTL.steps, 0)] with cutForce := [(0, some table2)] }
    s.boundFlumes = [7] ∧ s.flmState 7 = flmOPEN ∧ s.get (R.FLM_DESC.ctx 7) = 0 ∧ s.get (R.FLM_DESC.dir 7) = 0 ∧ s.cutPending 0 0 = none ∧ s.cutTable 0 0 = some table2 ∧
    table2.expAddr = 0 ∧ table2.row 0 = some (rowOf 0 0) ∧ table2.row (s.get (R.FLM_DESC.cons 7)) = some (rowOf 1 1) ∧
    rowReplica (rowOf 0 0) = rowReplica (rowOf 1 1) ∧ rowPos (rowOf 1 1) = rowPos (rowOf 0 0) + 1 ∧ s.get R.FLM_BAL_CTL.steps = 0 := by decide +kernel

theorem witness_StepVerdictPoint : let s : State := { run.puts [(R.CUT_PH.active 0, 1), (R.CUT_PH.phase 0, 1)] with cutForce := [(1, some table2)], owed := [(0, true)] }
    s.activeStages 0 = [0] ∧ s.optEnded 0 = true ∧ s.ckptHolds 0 = false ∧ s.moduleOf 0 = 0 ∧ s.lastModule 0 = 0 ∧ s.get (R.NUM_STAT.busy 0) = 0 := by decide +kernel

/-- A table (R261 to R263) of one stage and one layer on one module, staged for phase 0 of context 0. -/
def cutStaged : State :=
  ((up.sput (R.CUT_BASE.base 0 0) 0x2000_0000).write 0x2000_0000
    ([1, 0] ++ leBytes 2 1 ++ leBytes 2 1 ++ leBytes 2 1 ++ leBytes 4 0 ++ [1, 0, 0, 0] ++ leBytes 8 0x2000_0100 ++ List.replicate 40 0)).write 0x2000_0040
    (List.replicate 10 0 ++ [1, 0, 0, 1] ++ leBytes 2 1 ++ List.replicate 48 0)

theorem witness_CutTablesAccepted : cutStaged.cutResult 0 0 = (1, 0) ∧ cutStaged.Open ∧ cutStaged.get R.CUT_CSTAT.busy = 0 ∧ up.cutResult 0 0 = (3, 6) ∧
    ¬(∃ k ∈ cutStaged.activeStages 0, cutStaged.get (R.CUT_PH.phase k) = 0) := by
  unfold State.Open; decide +kernel

theorem witness_CheckpointAttemptsArea : let s := ([(R.CKPT_AREA.en 0, 1), (R.CKPT_BSIZE.bsize 0, 8192), (R.CKPT_TSIZE.tsize 0, 4096), (R.CKPT_MSIZE.msize 0, 4096), (R.CKPT_NW.addr 0, 0x2000_0000),
      (R.CKPT_RDY.addr 0, 0x2000_0000)].foldl (fun s p => s.sput p.1 p.2) (up.put (R.HAUL_SRC.en 0) 1))
    s.Open ∧ s.get R.CKPT_ACSTAT.busy = 0 ∧ s.leaving 0 = false ∧ s.ckState 0 = ckIDLE ∧ s.ckAreaBad 0 = false := by
  unfold State.Open; decide +kernel

/-! ## Hypotheses of single clauses -/

theorem witness_FlumeHoldAndLeaving : let s := flm 1 { Flume.empty with recs := List.replicate 16 { full with held := true }, out := 16 }
    let b := (ver [(R.VER_SLOT.state 0 2, 1), (R.VER_SLOT.gen 0 2, 6)] Flume.empty).put (R.CTX_STATE.state 0) 2
    Ready s (.flmPop (c0 3) 15 (.imm 0)) 3 ∧ s.flmSeqCheck 0 0 false = none ∧ (s.flume 0).readyHead = none ∧ 16 ≤ (s.flume 0).heldBy 0 ∧
    b.vst 0 2 = verBUILDING ∧ b.seqBound 0 = true ∧ b.leaving (b.seqCtx 0) = true :=
  ⟨ready_of _ _ _ (by decide +kernel), by decide +kernel⟩

/-- The rings of context 1, which has no window: a PUSH of 64 bytes and a POP. -/
theorem witness_RingRecordsRefused : let p (op : Nat) (x : Flume) : State := { up.puts [(R.CTX_HSTAGE.en 1, 1), (R.CTX_STATE.state 1, 1), (R.SQ_CFG.en 1 0, 1), (R.SQ_CFG.size 1 0, 4), (R.CQ_CFG.en 1 0, 1),
          (R.CQ_CFG.size 1 0, 4), (R.FLM_DESC.ctx 0, 1), (R.FLM_STAT.state 0, 1), (R.FLM_DESC.depth 0, 4), (R.FLM_DESC.rec_size 0, 1), (R.FLM_DESC.store_slots 0, 4), (R.FLM_DESC.store_base 0, flumeBase 0)] with
        srings := [(16, { SRing.empty with asked := 1, cmds := [⟨0, 1, cmd op 1 0 0 64 0⟩] })], flumes := [(0, x)], fns := [(1, ⟨true, true, false, false⟩)], vfOn := true, vfs := 1 }
    let s := p 3 Flume.empty
    let o := p 4 { Flume.empty with recs := [full], out := 1 }
    s.rcur 1 0 = some (cmd 3 1 0 0 64 0) ∧ s.ringsRun 1 = true ∧ s.hostCheck 1 0 true = none ∧ s.canPush 0 = true ∧ s.slotRefused 1 0 64 = true ∧
    up.slotRefused 0 0 0 = false ∧ o.rcur 1 0 = some (cmd 4 1 0 0 64 0) ∧ o.hostCheck 1 0 false = none ∧ (o.flume 0).readyHead = some full ∧
    o.permits 1 (o.slotAddr 0 full.spill full.slot) full.hdr.len false = false := by decide +kernel

/-- A Skidway identity of a peer: twice the base point of P-384. -/
def peer : SkwPeer := { key := ecBytes (ecMul 2 p384g), chain := [] }

theorem witness_SkidwayKeys : let s := skw 2 SkwLink.empty
    (ecdh s.mfg.skwKey peer.key).isSome = true ∧ ecdh s.mfg.skwKey [4] = none ∧ s.get (R.SKW_LINK.pin 0) = 0 ∧ (s.skw 0).marked = false ∧
    (s.put (R.SKW_LINK.pin 0) 1).get (R.SKW_LINK.pin 0) ≠ 0 ∧ leNat ((kidOf peer.key).take 8) ≠ 1 ∧ s.skwKid ≠ beNat (kidOf peer.key) := by decide +kernel

theorem witness_SkidwayVersions : let a : State := { up with mfg := { up.mfg with nedges := 0 } }
    let d : State := { up with halfRst := [(0, true)] }
    let r := up.puts [(R.RED_CTL.en 7, 1), (R.RED_CTL.prev 7, 0)]
    a.Open ∧ a.edgeFitted 0 = false ∧ d.Open ∧ d.edgeFitted 0 = true ∧ d.halfInReset 0 = true ∧ up.edgeFitted 0 = true ∧ up.halfInReset 0 = false ∧
    r.get (R.RED_CTL.en 7) = 1 ∧ r.get (R.RED_CTL.prev 7) = 0 ∧ r.owns .host 4 = true ∧ up.skwMode 0 = false ∧ (skw 0 SkwLink.empty).skwMode 0 = true := by
  unfold State.Open; decide +kernel

theorem witness_SkidwayRekeys : let s := skw 3 { SkwLink.empty with keys := some ([1], [2]) }
    let f := skw 2 { SkwLink.empty with fails := [0] }
    (s.skw 0).keys = some ([1], [2]) ∧ (s.skw 0).queue = [] ∧ (s.skw 0).replay.length + 5 ≤ 4096 ∧ (s.skw 0).rekey = false ∧
    ((skw 3 { SkwLink.empty with rekey := true }).skw 0).rekey = true ∧ f.get (R.SKW_LINK.state 0) = 2 ∧
    ¬(2 ≤ ((f.skw 0).fails.filter (fun y => decide (f.now < y + 1400000000))).length) ∧ 2 ^ 31 ≤ ((skw 3 { SkwLink.empty with rxBlk := 2 ^ 31 }).skw 0).rxBlk := by decide +kernel

theorem witness_SkidwayFrames : let f : SkwFrame := ⟨5, 0, [], []⟩
    let s := skw 2 { SkwLink.empty with replay := [f], opened := [[]] }
    let m := skw 3 { SkwLink.empty with marked := true, opened := [[]] }
    s.skwLive 0 = true ∧ s.skwUp 0 = false ∧ (s.skw 0).replay = [] ++ f :: [] ∧ (s.skw 0).queue = [] ∧ (s.skw 0).block < 63 ∧ (s.skw 0).marked = false ∧
    (s.skw 0).opened ≠ [] ∧ (s.skw 0).replay.length < 4096 ∧ (m.skw 0).marked = true ∧ (skw 3 SkwLink.empty).skwUp 0 = true ∧
    ((skw 3 SkwLink.empty).skw 0).opened = [] ∧ 4096 ≤ ((skw 3 { SkwLink.empty with replay := List.replicate 4096 f, opened := [[]] }).skw 0).replay.length ∧
    ftNAK < (5 : BitVec 4).toNat ∧ ¬(ftNAK < (0 : BitVec 4).toNat) ∧ up.skwMode 0 = false ∧ s.skwMode 0 = true := by decide +kernel

theorem witness_SkidwayOpens : let s := remote { Flume.empty with staged := [full] }
    let n := (remote Flume.empty).put (R.SKW_CHAN.peer 5) 9
    let c := (remote Flume.empty).put (R.FLM_STAT.state 0) 2
    (s.flume 0).staged = [full] ∧ s.badIn (s.slotAddr 0 full.spill full.slot) full.hdr.len = [] ∧ s.get (R.SKW_CHAN.peer 5) = 0 ∧ n.get (R.SKW_CHAN.peer 5) = 9 ∧
    s.get (R.FLM_DESC.dir 0) = 0 ∧ s.get (R.FLM_DESC.depth 0) = 4 ∧ s.get (R.FLM_DESC.rec_size 0) = 1 ∧ s.get (R.FLM_DESC.pair 0) = 0 ∧ c.flmState 0 = flmHELD ∧
    c.chanOk 0 5 = true ∧ c.flumeOn 5 = some 0 := by decide +kernel

/-- Source 3 with an open connection from an address of ones by port 0 of an Ethernet cage; frame pause on. -/
def eth (trans : Nat) : State :=
  { up.puts [(R.CAGE_CTL.mode 0, 4), (R.ETH_PORT.mtu 0, 1500), (R.ETH_PORT.pfc_en 0, 1), (R.ETH_PORT.pfc_en 1, 1), (R.ETH_PORT.pcp 0, 5), (R.HAUL_SRC.en 3, 1), (R.HAUL_SRC.cage 3, 0),
      (R.HAUL_SRC.transport 3, trans), (R.HAUL_SSTAT.state 3, 2)] with
    srcConn := [(3, List.replicate 530 0 ++ List.replicate 16 1 ++ [16, 0, 2] ++ List.replicate 475 0)], ethPause := [(1, true)], ethHeld := [(0, [.ethFrame 0 9 []])] }

theorem witness_EthernetFrames : let s := eth 1
    let t := after (.ethFrameReceive 0 64 0 (.pfc 5 true)) s
    s.ethMode 0 = true ∧ up.ethMode 0 = false ∧ List.replicate 16 1 ∈ s.portAddrs 0 ∧ List.replicate 16 0 ∉ s.portAddrs 0 ∧ s.get (R.ETH_PORT.pfc_en 0) = 1 ∧
    (5 : BitVec 3).toNat = s.get (R.ETH_PORT.pcp 0) ∧ s.portPaused 0 = false ∧ s.cagePaused 0 = false ∧ t.cagePaused 0 = true ∧
    (KMap.find (fun _ => []) s.ethHeld 0) = [.ethFrame 0 9 []] ∧ s.qpOpen 0 ⟨3, 2⟩ = true ∧ s.qpOpen 0 ⟨3, 3⟩ = false ∧ (eth 0).qpOpen 0 ⟨3, 1⟩ = false := by decide +kernel

/-- R415: an ARP request for a source's address is answered with the port's MAC address. -/
theorem test_arp : (after (.ethFrameReceive 0 64 0 (.arp 7 (List.replicate 4 2) (List.replicate 16 1))) (eth 1)).out.head? =
    some (.ethFrame 0 1 ([7, up.mfg.macs.getD 0 0, 0] ++ List.replicate 16 1 ++ List.replicate 4 2)) := by decide +kernel

theorem witness_Flits : let s := up.put (R.SPN_LINK.state 0) 2
    let d : State := { s with spnTx := [(spnKey 0 true, { SpnTx.empty with kept := [(0, 2, 7)] })] }
    s.flitsDue 0 false = [] ∧ d.flitsDue 0 false = [(0, 2, 7)] ∧ s.get (R.SPN_LINK.state 0) = 2 ∧ up.get (R.SPN_LINK.state 0) ≠ 2 ∧
    ({ up with halfRst := [(0, true)], halfBack := [] } : State).halfDead (spnHalf 0 true) = true ∧ (up.spnEnd 0 true).busy = false := by decide +kernel

theorem witness_SiteRounds : let s : State := { up with mfg := { up.mfg with u0Partner := true } }
    let good : SiteTrain := ⟨15, [⟨some (15, 0), some (15, 1)⟩]⟩
    (siteAgree 0 1 4 1 15 good.rounds).1 = 15 ∧ (siteAgree 0 1 4 1 15 []).1 = 0 ∧ good.rounds = ⟨some (good.own, 0), some (good.own, BitVec.ofNat 32 1)⟩ :: [] ∧
    s.halfDead 0 = false ∧ (s.get (R.PART_STAT.epoch 0) + 1) % 2 ^ 32 = 1 ∧ s.partnerFitted 0 = true ∧ s.get (R.PART_STAT.state 0) = 0 ∧
    (s.put (R.PART_STAT.state 0) 2).get (R.PART_STAT.state 0) ≠ 0 ∧ up.partnerFitted 0 = false ∧
    ({ s with halfRst := [(0, true)] } : State).halfDead 0 = true ∧ s.get (R.PART_CTL.policy 0) = 0 ∧ (s.put (R.PART_CTL.policy 0) 1).get (R.PART_CTL.policy 0) = 1 := by decide +kernel

/-- A message of context 0 to module `d` from module `src`. -/
def redHdr (d src num : Nat) : RedHdr := ⟨0, BitVec.ofNat 16 d, BitVec.ofNat 16 src, 0, BitVec.ofNat 32 num⟩

/-- Context 0 in the middle of three modules, next on link 1 and prev on link 0, both with a session. -/
def red : State :=
  { up.puts [(R.CAGE_CTL.mode 0, 2), (R.SKW_LINK.state 0, 3), (R.SKW_LINK.state 1, 3), (R.RED_CTL.en 0, 1), (R.RED_CTL.next 0, 1), (R.RED_CTL.prev 0, 0), (R.RED_CTL.wrap 0, 0), (R.CUT_CTL.module 0, 1)] with
    cutForce := [(0, some { table with hdr := List.replicate 6 0 ++ leBytes 2 3 ++ List.replicate 56 0 })] }

theorem witness_ReductionMessages : let h := redHdr 1 0 0
    let s := red
    let n := { red with redRx := [(0, 5)] }
    s.redDir h = 0 ∧ s.redMine h 0 = true ∧ h.ctx = 0 ∧ redMsg s (.normChainMsg h 0 0 0) = some (h, 0, 1, [0, 0, 0]) ∧ h.num.toNat < n.redNext 0 0 ∧
    s.redHere (redHdr 2 0 0) = false ∧ s.redLinkTo 0 2 = 1 ∧ (1 : Nat) < 24 ∧ s.skwUp 0 = true ∧ s.redNext 0 0 ≤ (redHdr 2 0 0).num.toNat ∧
    (up.put (R.RED_CTL.next 0) 31).redDir (redHdr 0 3 0) = 31 ∧ up.skwUp 0 = false ∧ s.redMine (redHdr 0xFFFF 0 0) 0 = true := by decide +kernel

/-- R409: a message for another module goes on with its source. -/
theorem test_red_forward : ((after (.normChainMsg (redHdr 2 0 0) 7 8 9) red).skw 1).red.map (fun x => (x.kind, x.body)) = [(1, [2, 0, 0, 7, 8, 9])] := by decide +kernel

theorem witness_NormChainMore : let tb (i : Nat) : CutTable := { table with layers := [List.replicate i 0 ++ [1] ++ List.replicate (63 - i) 0] }
    let r (t : CutTable) := red.setJob 0 { Job.empty with ready := true, ntab := some t }
    let h := redHdr 1 0 0
    (red.job 0).ready = false ∧ ((red.setJob 0 { Job.empty with ready := true }).job 0).ntab = none ∧ ((r table).job 0).ready = true ∧
    (normGo ((r table).moduleOf 0) ((r table).strip table) table.normLayers 0 0).2.2 = none ∧ ((r (tb 24)).job 0).ntab = some (tb 24) ∧
    (normGo ((r (tb 24)).moduleOf 0) ((r (tb 24)).strip (tb 24)) (tb 24).normLayers 0 0).2.2 = some 0 ∧
    (r (tb 24)).redMine h ((r (tb 24)).redDir h) = true := by decide +kernel

theorem witness_StepMessages : let h := redHdr 1 0 0
    let p := red.setJob 0 { Job.empty with point := true }
    let e := (red.put (R.CUT_CTL.module 0) 2).setJob 0 { Job.empty with point := true }
    let g := redHdr 2 0 0
    red.redMine h (red.redDir h) = true ∧ (red.job 0).point = false ∧ p.redMine h (p.redDir h) = true ∧ (p.job 0).point = true ∧ p.moduleOf 0 ≠ 0 ∧
    p.moduleOf 0 < p.lastModule 0 ∧ e.redMine g (e.redDir g) = true ∧ e.lastModule 0 ≤ e.moduleOf 0 ∧ (e.job 0).cause < 16 ∧
    sctlBits (.high 0xF4) = 0xF4_0000_0000 ∧ fmtMax (bits (sctlBits (.high 0xF4)) 36 4) = none ∧ (fmtMax (bits (sctlBits (.low 7)) 36 4)).isSome = true ∧ up.dieQuiet 0 = true := by decide +kernel

theorem witness_CutStartLeaving : (up.put (R.CTX_STATE.state 0) 2).leaving 0 = true ∧ up.leaving 0 = false ∧ up.cutTable 0 0 = none := by decide +kernel

theorem witness_HaulSourcesRest : let a : SrcAnswer := ⟨true, false, false, false, 0, 0⟩
    let s := up.put (R.HAUL_SSTAT.state 0) 1
    let r (l : List (List Byte)) : State := (up.puts [(R.HAUL_STREC.valid 3, 1), (R.HAUL_STREC.mbuf 3, 0x2000_0000), (R.HAUL_QUAR.active 7, 1), (R.HAUL_QUAR.rec 7, 3),
      (R.HAUL_QUAR.base 7, 0x2001_0000)]).setHrec 3 { HRec.empty with entries := l }
    (s.get (R.HAUL_SSTAT.state 0) = 1 ∧ a.reached = true ∧ a.metadata = 0) ∧ ({ a with tls := true } : SrcAnswer).tls = true ∧ s.cagePaused 0 = false ∧
    ((r []).hrec 3).entries = [] ∧ (¬∃ p ∈ ((r []).hrec 3).landings ((r []).recMan 3), p.2 = 0) ∧
    (∃ p ∈ ((r [rq 1 0]).hrec 3).landings ((r [rq 1 0]).recMan 3), p.2 = 0 ∧ landAddr p.1 (billetAt ((r [rq 1 0]).recMan 3) 0) = (r [rq 1 0]).get (R.HAUL_QUAR.base 7)) ∧
    (r [rq 1 0]).get (R.HAUL_QUAR.billet 7) = 0 ∧ up.leaving (up.seqCtx 95) = false ∧ up.seqBound 95 = false := by
  refine ⟨by decide +kernel, by decide +kernel, by decide +kernel, by decide +kernel, by decide +kernel, ⟨(rq 1 0, 0), ?_⟩, ?_⟩ <;> decide +kernel

/-- Module 1 of three in context 0, its attempt in state `st`. -/
def ckRed (st : Nat) (x : Ckpt) : State := { red.puts [(R.CKPT_STAT.state 0, st), (R.CKPT_AREA.en 0, 1)] with ckpts := [(0, x)] }

/-- And module 0 of them. -/
def ckFirst (st : Nat) (x : Ckpt) : State := (ckRed st x).put (R.CUT_CTL.module 0) 0

theorem witness_CheckpointAborts : let g := ckRed ckCHAINING { Ckpt.empty with chain := some [] }
    let l := (ck ckIDLE Ckpt.empty).put (R.CTX_STATE.state 0) 2
    let p := (ck ckREADING { Ckpt.empty with reading := true, todo := [((0, 0), 0), ((0, 0), 1)] }).put R.PWR_STAT.rung 2
    let w : CkWrite := ⟨2 ^ 48 - 8, List.replicate 8 1, false⟩
    let f := (ck ckREADING { Ckpt.empty with writes := [w] }).put (R.CKPT_AREA.target 0) 1
    l.leaving 0 = true ∧ (ck ckIDLE Ckpt.empty).leaving 0 = false ∧ g.moduleOf 0 ≠ 0 ∧ g.ckState 0 = ckCHAINING ∧ (g.ckpt 0).chain ≠ none ∧
    ((ckRed ckREADING Ckpt.empty).ckState 0 = ckREADING) ∧ p.patrolPaused = true ∧ (p.ckpt 0).todo = ((0, 0), 0) :: [((0, 0), 1)] ∧ (ck ckIDLE Ckpt.empty).patrolPaused = false ∧
    f.ckMade 0 w = false ∧ (ck ckREADING Ckpt.empty).ckMade 0 w = true ∧ f.ckFar 0 = true := by decide +kernel

theorem witness_CheckpointMessages : let h := redHdr 1 0 0
    let z := redHdr 0 1 0
    let b := ckFirst ckREADING { Ckpt.empty with broken := true }
    (∀ st ∈ [ckIDLE, ckARMED, ckREADING, ckCHAINING, ckCOMMITTING, ckRESTORING], (ckRed st Ckpt.empty).redMine h ((ckRed st Ckpt.empty).redDir h) = true ∧
      (ckFirst st Ckpt.empty).redMine z ((ckFirst st Ckpt.empty).redDir z) = true ∧ (ckRed st Ckpt.empty).ckState 0 = st) ∧
    (b.ckpt 0).broken = true ∧ b.moduleOf 0 = 0 ∧ ((ckFirst ckCHAINING Ckpt.empty).ckpt 0).chain = none ∧ (ckFirst ckCHAINING Ckpt.empty).lastModule 0 ≠ 0 ∧
    ((ckFirst ckCHAINING { Ckpt.empty with part := some [], chain := some [7] }).ckpt 0).chain = some [7] ∧ ((ckRed ckRESTORING Ckpt.empty).ckpt 0).res = none ∧
    (ckFirst ckARMED Ckpt.empty).moduleOf 0 = 0 := by decide +kernel

theorem witness_BuddyMessages : let b (x : Ckpt) := (ckRed ckIDLE x).puts [(R.CKPT_BUDDY.en 0, 1), (R.CKPT_BBASE.base 0, 0x0200_0000_0000), (R.CKPT_BBSIZE.size 0, 64), (R.FAR_BUDDY.base 0, 0x0200_0000_0000), (R.FAR_BUDDY.size 0, 65536)]
    let h := redHdr 1 0 0
    let n := redHdr 1 2 0
    let r := (b Ckpt.empty).setJob 0 { Job.empty with redrawn := some 9 }
    (b Ckpt.empty).copyLink 0 = 0 ∧ (b Ckpt.empty).redMine h ((b Ckpt.empty).copyLink 0) = true ∧ (b Ckpt.empty).get (R.CKPT_BUDDY.en 0) = 1 ∧ (b Ckpt.empty).banksOk 0 = true ∧
    ((b Ckpt.empty).job 0).redrawn = none ∧ (r.job 0).redrawn = some 9 ∧ (b Ckpt.empty).patrolPaused = false ∧ (b Ckpt.empty).ackLink 0 = 1 ∧
    (b Ckpt.empty).redMine n ((b Ckpt.empty).ackLink 0) = true ∧ ((b { Ckpt.empty with bwait := true }).ckpt 0).bwait = true ∧ ((b Ckpt.empty).ckpt 0).bread = false ∧
    ((b { Ckpt.empty with bread := true }).ckpt 0).bread = true ∧ (b { Ckpt.empty with bin := some 7 }).leaving 0 = false ∧ ((b { Ckpt.empty with bin := some 7 }).ckpt 0).bin = some 7 ∧
    (red.put (R.CKPT_BBSIZE.size 0) 64).banksOk 0 = false ∧ (b Ckpt.empty).s0Refused 0x0200_0000_0000 8 = [] ∧ (b Ckpt.empty).badIn 0x0200_0000_0000 8 = [] := by decide +kernel

theorem witness_LayerState : let s := red.put (R.CTX_STATE.state 0) 1
    let h := redHdr 1 0 0
    let n := redHdr 1 2 0
    s.redMine h (s.get (R.RED_CTL.prev 0)) = true ∧ s.redMine n (s.get (R.RED_CTL.next 0)) = true ∧ (s.cutTable 0 0).any (fun t => t.layers[0]?.isSome) = true ∧
    s.permits 0 0x2000_0000 8 true = true ∧ s.patrolPaused = false ∧ (s.put R.PWR_STAT.rung 2).patrolPaused = true ∧ s.badIn 0x2000_0000 8 = [] := by decide +kernel

theorem witness_HostPortRest : let w : State := { up with vfOn := true, vfs := 63 }
    let z : State := { up with fns := [(0, { Fn.off with d3 := true })] }
    let v : State := { w with fns := [(5, { Fn.off with d3 := true })] }
    w.vfOn = true ∧ up.vfOn = false ∧ (up.fn 0).d3 = false ∧ (z.fn 0).d3 = true ∧ (v.fn 5).d3 = true ∧ v.funcExists 5 = true ∧ v.answers 5 = false ∧ w.answers 63 = true ∧
    up.inBar4 0 0x2000_0000 64 = true ∧ up.inBar4 0 (2 ^ 47) 64 = false ∧ up.inBar4 1 0 64 = false ∧ accessOk 0x1008 8 = true ∧ accessOk 0x1008 3 = false ∧
    up.reachReg 0x03A1_0010 = .ok ∧ 2 ≤ (up.put R.PWR_STAT.rung 2).get R.PWR_STAT.rung ∧ CfgItem.pfOnly .totalVfs = true ∧ CfgItem.pfOnly .width = false := by decide +kernel

theorem witness_RegisterWritesRest : accessOk 0x03FF_FFF8 8 = true ∧ regWrites .mgmt 0x03FF_FFF8 8 0 = [] ∧ accessOk 0x03D0_0000 8 = true ∧ up.answers 0 = true ∧
    ({ up with vfOn := true, vfs := 5 } : State).answers 5 = true ∧ up.get R.HOST_STAT.ready = 1 := by decide +kernel

theorem witness_ResetsRest : let b : BootIn := ⟨2, 15, 0⟩
    let d (x : State) : State := { x with halfRst := [(1, true)], halfBack := [] }
    let k := up.put (R.SEC_BANK.valid 0) 1
    let g := ckRed ckCHAINING { Ckpt.empty with chain := some [] }
    let n := up.put (R.SEC_BANK.valid 0) 0
    let r := (d up).setRecov 1 true
    (d k).halfDead 1 = true ∧ (d k).sealOk b 1 = true ∧ (d k).sealOk b 0 = false ∧ (d k).bankBoots b 1 ((d k).returnBank 1) = true ∧ (d up).bankBoots b 1 1 = false ∧
    (d n).bankBoots b 1 0 = false ∧ r.recovering 1 = true ∧ r.recovering 0 = false ∧ (d up).halfInReset 1 = true ∧
    ({ d up with halfBack := [(1, true)] } : State).halfDead 1 = false ∧ g.moduleOf 0 ≠ 0 ∧ (g.ckpt 0).chain ≠ none ∧ (up.put (R.SEC_BANK.valid 1) 1).bankBoots b 1 1 = true := by decide +kernel

/-- The time that a start took has no bearing on whether a bank boots. -/
theorem bankBoots_put_ms (s : State) (v : Nat) (b : BootIn) (h k : Nat) (hk : k < 2) :
    (s.put R.PWR_BOOT.ms v).bankBoots b h k = s.bankBoots b h k := by
  have e (g : Fld) (n : g.a ≠ R.PWR_BOOT.ms.a) : (s.put R.PWR_BOOT.ms v).get g = s.get g := State.get_put_other _ _ _ _ n
  have h1 := e (R.SEC_BANK.valid k) (by interval_cases k <;> decide)
  have h2 := e (R.SEC_BANK.svn k) (by interval_cases k <;> decide)
  have h3 := e R.SEC_STAT.svn_floor (by decide)
  unfold State.bankBoots State.flag State.bankSvn
  rw [h1, h2, h3]; rfl

theorem witness_StartUpRest : let b : BootIn := ⟨3, 15, 0⟩
    let c : BootIn := ⟨1, 15, 0⟩
    let v := State.reset.put (R.SEC_BANK.valid 0) 1
    let w := (won 1 0).put (R.SEC_BANK.valid 0) 1
    let u := (w.orderDone ⟨1, 0, 0⟩).warm
    u.bankBoots b 0 0 = true ∧ u.bankBoots b 1 0 = true ∧ u.fw.sel = 0 ∧
    (v.sealOk b 0 = true ∧ v.sealOk b 1 = true) ∧ v.sealOk c 1 = false ∧ (v.cold false 0 0).bankBoots b 0 v.fw.sel = true ∧ (v.cold false 0 0).bankBoots b 1 v.fw.sel = true ∧
    w.orderDue 1 0 = some ⟨1, 0, 0⟩ ∧ w.sample = none ∧ w.sealOk b 0 = true ∧ w.sealOk b 1 = true := by
  refine ⟨?_, ?_, by decide +kernel⟩ <;> unfold State.warm <;>
    exact (bankBoots_put_ms _ _ _ _ _ (by decide)).trans (by decide +kernel)

theorem witness_AttestationRest : let x : State := { up with spdm := [(9, ⟨2, false, [(5, .digests)]⟩)] }
    let m := x.put R.SEC_STAT.measuring 1
    m.spdmOn = true ∧ (∀ d ∈ (m.conn 9).defer, d.1 ≠ 6) ∧ m.get R.SEC_STAT.measuring = 1 ∧ (x.conn 9).resync = false ∧ x.get R.SEC_STAT.measuring = 0 ∧
    2 ≤ (x.conn 9).stage ∧ SpdmReq.algorithms (b2n true) (b2n true) (b2n true) = .algorithms 1 1 1 ∧ ((0, 1) : Nat × Nat) ≠ (1, 1) := by decide +kernel

theorem witness_FirmwareRest : let g := up.setRecov 0 true
    let n := (up.setRecov 0 true).setRecov 1 true
    let u : State := { up with fw := { up.fw with upd := some 1 } }
    up.fw.upd = none ∧ (∀ h ∈ [0, 1], up.recovering h = false → up.runBank h ≠ 1) ∧ (up.recovering 0 = false ∧ up.runBank 0 = 0) ∧
    (∀ h ∈ [0, 1], n.recovering h = false → n.runBank h ≠ 0) ∧ g.recovering 0 = true ∧ u.fw.upd = some 1 ∧
    (packageOk package = true ∧ imagesOk package = true ∧ packageSigOk package packageKey = true) ∧ packageOk [] = false ∧
    up.recovering 0 = false ∧ up.recovering 1 = false ∧ (up.put (bankFld 1) 1).runBank 0 ≠ (up.put (bankFld 1) 1).runBank 1 := by decide +kernel

theorem witness_ManagementRest : let a : State := { up with mfg := { up.mfg with nedges := 0 } }
    let d : State := { up with halfRst := [(0, true)] }
    a.reachReg 0x03B0_0000 = .absent ∧ (d.reachReg 0x0300_0000 ≠ .ok ∧ d.reachReg 0x0300_0000 ≠ .absent) ∧ accessOk 0x03B0_0000 8 = true ∧ up.vdmOn = true ∧
    regWrites .mgmt 0x03FF_FFF8 8 0 = [] ∧ orderOk 6 3801 = false ∧ (up.put R.RAS_STAT.fatal 1).orderTaken 6 3000 = false ∧ (4 : BitVec 6) ≠ 0 ∧ (4 : BitVec 6) ≠ 2 ∧
    (4 : BitVec 6) ≠ 5 := by decide +kernel

theorem witness_LostModulesRest : let h := redHdr 0xFFFF 2 0
    let l := red.setJob 0 { Job.empty with lost := [2] }
    let g := (red.puts [(R.CKPT_BUDDY.en 0, 1), (R.CKPT_BSTEP.valid 0, 1), (R.CKPT_BBASE.base 0, 0x0200_0000_0000), (R.CKPT_BBSIZE.size 0, 64), (R.FAR_BUDDY.base 0, 0x0200_0000_0000),
      (R.FAR_BUDDY.size 0, 65536)]).setJob 0 { Job.empty with lost := [0], done := some 0 }
    red.redMine h 1 = true ∧ (red.job 0).lost = [] ∧ (l.job 0).lost = [2] ∧ l.redMine h 1 = true ∧ red.redLinks 0 ≠ [] ∧
    (g.job 0).lost = 0 :: [] ∧ g.moduleOf 0 = (0 + 1) % 3 ∧ g.get (R.CKPT_BSTEP.valid 0) = 1 ∧ (g.job 0).done = some (g.get (R.CKPT_BSTEP.step 0)) ∧ g.banksOk 0 = true ∧
    g.patrolPaused = false ∧ (g.put R.PWR_STAT.rung 2).patrolPaused = true ∧ g.get R.RAS_CTL.shrink_pin = 0 ∧ (g.cutTable 0 0).map CutTable.nmodules = some 3 ∧
    red.get (R.RED_CTL.en 0) = 1 ∧ (red.setSkw 1 { SkwLink.empty with notice := true }).get (R.RED_CTL.next 0) < 24 ∧ ((red.setSkw 1 { SkwLink.empty with notice := true }).skw 1).notice = true := by decide +kernel

theorem witness_FunctionsExistRest : let w : State := { up with vfOn := true, vfs := 5 }
    w.portUp = true ∧ w.vfOn = true ∧ up.vfOn = false ∧ up.portUp = true ∧ w.funcExists 5 = true ∧ w.funcExists 6 = false := by decide +kernel

theorem witness_HaulRequestsRest : let r := hreqSmall true
    let x : HBillet := ⟨0, 1, 1, 0, [(0, smallStored)], [0], false⟩
    let s := haul (some { r with opn := [x] }) []
    let n : State := { s with oldWin := [(0, [])] }
    let a := haul (some { hreqSmall false with reads := [⟨0, 0, true, 0, true⟩] }) []
    let e := (haul (some (hreqSmall false)) []).put (R.HAUL_SSTAT.state 0) 1
    (s.haul 5).req = some { r with opn := [x] } ∧ x.got = billetParts (billetAt manSmall 0) ∧ x.late = [0] ∧ s.haulGated 5 = false ∧
    ({ x with barred := true } : HBillet).barred = true ∧ n.permits (n.chanCtx 5) 0x2001_0000 16 true = false ∧
    (a.haul 5).req = some { hreqSmall false with reads := [⟨0, 0, true, 0, true⟩] } ∧ e.get (R.HAUL_SSTAT.state (rqSrc (rq 1 0))) ≠ 2 ∧
    (billetPlain manSmall r.key 0 0 ((x.stored 1).take 4096)).length = 16 := by decide +kernel

/-! ## Words of slot instructions, bit by bit from the encoding tables (R207, R228 to R233 and the table of each class) -/

/-- Slot `n` of sequencer Q2 of die 5 without a predicate, with another slot after it. -/
def cw (n : Fin 4) : SlotCtl := { die := 5, q := 2, slot := n, pe := false, pidx := 0, psense := false, more := true }

theorem words_control : (decSlot 5 2 0 true 0x01BA_4680_0000_0000).toOption = some (.br { cw 0 with pe := true, pidx := 3, psense := true } 0x1234) := by decide +kernel
theorem words_scalar : (decSlot 5 2 0 true 0x2000_4430_0000_0000).toOption = some (.add (cw 0) 1 2 3) ∧
    (decSlot 5 2 3 true 0x3002_8BFF_FFFF_FE00).toOption = some (.cmpEq (cw 3) 2 5 (.imm 0xFFFF_FFFF)) := by decide +kernel
theorem words_array : (decSlot 5 2 1 true 0x4006_0469_0000_0000).toOption = some (.mma (cw 1) 12 0 17 true 9) ∧
    (decSlot 5 2 1 true 0x5806_1D5A_0000_0000).toOption = some (.sapMv (cw 1) 12 3 true 10 true 5) := by decide +kernel
theorem words_glaze : (decSlot 5 2 2 true 0x6001_F800_0000_0000).toOption = some (.glzRun (cw 2) 7 true 6) := by decide +kernel
theorem words_memory : (decSlot 5 2 3 true 0x7001_28A2_468A_C000).toOption = some (.ldTs (cw 3) 4 true 8 2 true 0x123456) ∧
    (decSlot 5 2 3 true 0x7703_2640_0000_0000).toOption = some (.schW (cw 3) 3 4 200) := by decide +kernel
theorem words_flume : (decSlot 5 2 3 true 0x9301_C000_6000_0000).toOption = some (.flmPop (cw 3) 3 (.reg 6)) := by decide +kernel
theorem words_version : (decSlot 5 2 3 true 0xA101_1357_8000_0000).toOption = some (.verPin (cw 3) 1 2 (.imm 0x1ABC)) ∧
    (decSlot 5 2 3 true 0xB002_9BA0_0000_0000).toOption = some (.varLook (cw 3) 5 6 7 8) := by decide +kernel

end Sys2Proof.Tests
end

namespace Sys2Proof.Machine

/-! ## The fitted stacks (R34) -/

theorem State.stackFitted_iff (s : State) (i : Nat) : s.stackFitted i = true ↔ i % 6 < s.mfg.nstacks := by
  simp [State.stackFitted]

theorem State.stackFitted_eq_false_iff (s : State) (i : Nat) : s.stackFitted i = false ↔ s.mfg.nstacks ≤ i % 6 := by
  rw [← Bool.not_eq_true, s.stackFitted_iff, Nat.not_lt]

/-- A stack's place under its landing die is its remainder by 6, so the fitted places are the first `nstacks`. -/
theorem State.stackFitted_iff_in_range (s : State) (i : Nat) :
    s.stackFitted i = true ↔ 6 * (i / 6) ≤ i ∧ i + 1 ≤ 6 * (i / 6) + s.mfg.nstacks := by
  have split : 6 * (i / 6) + i % 6 = i := Nat.div_add_mod i 6
  rw [s.stackFitted_iff]
  omega

/-- Settles O60: the range clause is the place of a stack under its landing die; the two lists are the places 4 and 5
(M16) or 5 (M20) of the four landing dies. -/
theorem fittedStacks : Obligations.FittedStacks := by
  unfold Obligations.FittedStacks
  refine ⟨?range, ?m16, ?m20⟩
  case range =>
    rintro s h i - - - rfl
    exact s.stackFitted_iff_in_range i
  case m16 =>
    intro s four i hi
    rw [s.stackFitted_eq_false_iff, four]
    omega
  case m20 =>
    intro s five i hi
    rw [s.stackFitted_eq_false_iff, five]
    omega

end Sys2Proof.Machine

namespace Sys2Proof.Machine

/-! ## The slots of an opcode's class (R207) -/

/-- The class table of R207, row by row: an opcode's range and the slots its class stands in. -/
theorem opcodeSlots_cases (op : Nat) :
    (op = 0 ∧ opcodeSlots op = [0, 1, 2, 3]) ∨ (0x01 ≤ op ∧ op ≤ 0x1F ∧ opcodeSlots op = [0]) ∨
    (0x20 ≤ op ∧ op ≤ 0x3F ∧ opcodeSlots op = [0, 3]) ∨ (0x40 ≤ op ∧ op ≤ 0x5F ∧ opcodeSlots op = [1]) ∨
    (0x60 ≤ op ∧ op ≤ 0x6F ∧ opcodeSlots op = [2]) ∨ (0x70 ≤ op ∧ op ≤ 0xB7 ∧ opcodeSlots op = [3]) ∨
    (0xB8 ≤ op ∧ opcodeSlots op = []) := by
  unfold opcodeSlots
  split_ifs <;> simp only [and_true, and_false] <;> omega

theorem opcodeSlots_classes (op : Nat) :
    (opcodeSlots op = [0, 1, 2, 3] ↔ op = 0) ∧ (opcodeSlots op = [0] ↔ 0x01 ≤ op ∧ op ≤ 0x1F) ∧
    (opcodeSlots op = [0, 3] ↔ 0x20 ≤ op ∧ op ≤ 0x3F) ∧ (opcodeSlots op = [1] ↔ 0x40 ≤ op ∧ op ≤ 0x5F) ∧
    (opcodeSlots op = [2] ↔ 0x60 ≤ op ∧ op ≤ 0x6F) ∧ (opcodeSlots op = [3] ↔ 0x70 ≤ op ∧ op ≤ 0xB7) ∧
    (opcodeSlots op = [] ↔ 0xB8 ≤ op) := by
  obtain ⟨zero, slots⟩ | ⟨lo, hi, slots⟩ | ⟨lo, hi, slots⟩ | ⟨lo, hi, slots⟩ | ⟨lo, hi, slots⟩ | ⟨lo, hi, slots⟩ |
    ⟨lo, slots⟩ := opcodeSlots_cases op <;> simp [slots] <;> omega

theorem class_of_mem_opcodeSlots (n : Fin 4) (op : Nat) (legal : n.val ∈ opcodeSlots op) :
    op = 0 ∨ (1 ≤ op ∧ op ≤ 0x1F ∧ n = 0) ∨ (0x20 ≤ op ∧ op ≤ 0x3F ∧ (n = 0 ∨ n = 3)) ∨ (0x40 ≤ op ∧ op ≤ 0x5F ∧ n = 1) ∨
      (0x60 ≤ op ∧ op ≤ 0x6F ∧ n = 2) ∨ (0x70 ≤ op ∧ op ≤ 0xB7 ∧ n = 3) := by
  obtain ⟨zero, slots⟩ | ⟨lo, hi, slots⟩ | ⟨lo, hi, slots⟩ | ⟨lo, hi, slots⟩ | ⟨lo, hi, slots⟩ | ⟨lo, hi, slots⟩ |
    ⟨lo, slots⟩ := opcodeSlots_cases op <;> simp [slots] at legal <;> omega

/-! ## What the issue logic and the encoding say of an opcode -/

theorem semOf_slots (i : Instr) (o : SlotOp) (sem : semOf i = some o) : o.slots = opcodeSlots (bits (encSlot i) 56 8) := by
  obtain ⟨op, c, l, word, -, small, slots, -, fields⟩ := slot_fields i o sem
  rw [word, bits_op op c l small fields, slots]

theorem eq_nop_of_opcode_zero (i : Instr) (o : SlotOp) (sem : semOf i = some o) (zero : bits (encSlot i) 56 8 = 0) :
    ∃ c, i = .nop c := by
  obtain ⟨op, c, l, word, -, small, -, nop, fields⟩ := slot_fields i o sem
  rw [word, bits_op op c l small fields] at zero
  exact nop zero

theorem slotFormed_iff (i : Instr) (c : SlotCtl) (place : slotCtlOf i = some c) :
    slotFormed i = true ↔
      c.slot.val ∈ opcodeSlots (bits (encSlot i) 56 8) ∧ (bits (encSlot i) 56 8 = 0 → encSlot i = 0) := by
  simp [slotFormed, place, imp_iff_not_or]

/-! ## What a decoded slot spells (R206 to R208) -/

/-- Instruction `i` stands where `c` says and is legal in the slots of opcode `op`. -/
def Spells (c : SlotCtl) (op : Nat) (i : Instr) : Prop :=
  slotCtlOf i = some c ∧ ∃ o, semOf i = some o ∧ o.slots = opcodeSlots op

/-- One row of a decoder's table, followed by its other rows. -/
theorem spells_row {c : SlotCtl} {op k : Nat} {i j : Instr} {rest : Option Instr} (row : Spells c k j)
    (others : rest = some i → Spells c op i) (h : (if op = k then some j else rest) = some i) : Spells c op i := by
  split at h
  case isTrue opIsK =>
    obtain rfl : j = i := Option.some.inj h
    rwa [opIsK]
  case isFalse => exact others h

theorem spells_end {c : SlotCtl} {op : Nat} {i : Instr} (h : none = some i) : Spells c op i := nomatch h

section
variable (c : SlotCtl) (op w : Nat) (i : Instr)

theorem decControl_spells : decControl c op w = some i → Spells c op i := by
  unfold decControl
  iterate 13 refine spells_row ⟨rfl, _, rfl, rfl⟩ ?_
  exact spells_end

theorem decScalar_spells : decScalar c op w = some i → Spells c op i := by
  unfold decScalar
  iterate 15 refine spells_row ⟨rfl, _, rfl, rfl⟩ ?_
  exact spells_end

theorem decCompare_spells : decCompare c op w = some i → Spells c op i := by
  unfold decCompare
  iterate 12 refine spells_row ⟨rfl, _, rfl, rfl⟩ ?_
  exact spells_end

theorem decArray_spells : decArray c op w = some i → Spells c op i := by
  unfold decArray
  iterate 5 refine spells_row ⟨rfl, _, rfl, rfl⟩ ?_
  exact spells_end

theorem decGlaze_spells : decGlaze c op w = some i → Spells c op i := by
  unfold decGlaze
  iterate 2 refine spells_row ⟨rfl, _, rfl, rfl⟩ ?_
  exact spells_end

theorem decMove_spells : decMove c op w = some i → Spells c op i := by
  unfold decMove
  iterate 9 refine spells_row ⟨rfl, _, rfl, rfl⟩ ?_
  exact spells_end

theorem decFlm_spells : decFlm c op w = some i → Spells c op i := by
  unfold decFlm
  iterate 7 refine spells_row ⟨rfl, _, rfl, rfl⟩ ?_
  exact spells_end

theorem decVersion_spells : decVersion c op w = some i → Spells c op i := by
  unfold decVersion
  iterate 15 refine spells_row ⟨rfl, _, rfl, rfl⟩ ?_
  exact spells_end

theorem decOp_spells : decOp c w = some i → Spells c (bits w 56 8) i := by
  unfold decOp
  dsimp only
  split_ifs
  · exact decControl_spells c _ w i
  · exact decScalar_spells c _ w i
  · exact decCompare_spells c _ w i
  · exact decArray_spells c _ w i
  · exact decGlaze_spells c _ w i
  · exact decMove_spells c _ w i
  · exact decFlm_spells c _ w i
  · exact decVersion_spells c _ w i

end

/-- Where the decoder places a slot: its sequencer and slot number, and the predicate fields of its bits (R206). -/
def decCtl (d : Fin 24) (q n : Fin 4) (m : Bool) (w : Nat) : SlotCtl :=
  { die := d, q := q, slot := n, pe := bit w 55, pidx := BitVec.ofNat 3 (bits w 52 3), psense := bit w 51, more := m }

section
variable {d : Fin 24} {q n : Fin 4} {m : Bool} {w : Nat} {i : Instr}

/-- The three checks of R208 that every decoded slot has passed; the fourth is on its reserved bits. -/
theorem decSlot_ok (h : decSlot d q n m w = .ok i) :
    (bits w 56 8 = 0 → w = 0) ∧ n.val ∈ opcodeSlots (bits w 56 8) ∧ decOp (decCtl d q n m w) w = some i := by
  unfold decSlot at h
  dsimp only at h
  split at h
  case isTrue => cases h
  case isFalse bundle =>
    split at h
    case isTrue => cases h
    case isFalse illegal =>
      split at h
      case h_1 => cases h
      case h_2 j spelled =>
        split at h
        case isTrue => cases h
        case isFalse =>
          cases h
          exact ⟨by simpa using bundle, by simpa using illegal, spelled⟩

theorem encSlot_nop_decCtl_zero : encSlot (.nop (decCtl d q n m 0)) = 0 := by
  simp [encSlot, slotBits, slotHead, decCtl, bits, bit, b2n]

theorem decSlot_ok_slotCtlOf (h : decSlot d q n m w = .ok i) : slotCtlOf i = some (decCtl d q n m w) := by
  obtain ⟨-, -, spelled⟩ := decSlot_ok h
  exact (decOp_spells _ w i spelled).1

/-- The decoder keeps the class of an opcode, and what it reads from the opcode of NOP is the all-zero slot. -/
theorem decSlot_ok_slotFormed (h : decSlot d q n m w = .ok i) : slotFormed i = true := by
  obtain ⟨allZero, legal, spelled⟩ := decSlot_ok h
  obtain ⟨place, o, sem, slots⟩ := decOp_spells _ w i spelled
  have sameClass : opcodeSlots (bits (encSlot i) 56 8) = opcodeSlots (bits w 56 8) := by
    rw [← semOf_slots i o sem, slots]
  refine (slotFormed_iff i _ place).2 ⟨by rwa [sameClass], fun zero => ?_⟩
  obtain ⟨c, rfl⟩ := eq_nop_of_opcode_zero i o sem zero
  have opZero : bits w 56 8 = 0 := by
    rw [zero] at sameClass
    exact (opcodeSlots_classes _).1.1 sameClass.symm
  obtain rfl : w = 0 := allZero opZero
  obtain rfl : c = decCtl d q n m 0 := Option.some.inj place
  exact encSlot_nop_decCtl_zero

end

/-- Settles O56: the decoder checks the class of a slot's opcode and spells only instructions of that class; the
reserved opcodes are the last row of the class table. -/
theorem slotClasses : Obligations.SlotClasses := by
  unfold Obligations.SlotClasses
  refine ⟨?decoded, ?formed, ?classes⟩
  case decoded =>
    intro d q n m w i h
    obtain ⟨-, legal, -⟩ := decSlot_ok h
    refine ⟨class_of_mem_opcodeSlots n _ legal, fun c hc => ⟨?_, decSlot_ok_slotFormed h⟩⟩
    obtain rfl : decCtl d q n m w = c := Option.some.inj ((decSlot_ok_slotCtlOf h).symm.trans hc)
    rfl
  case formed =>
    intro i c place formed
    exact ((slotFormed_iff i c place).1 formed).1
  case classes =>
    intro op _
    exact opcodeSlots_classes op

end Sys2Proof.Machine

namespace Sys2Proof.Machine

/-! ## Which functions exist (R431) -/

/-- VF Enable and NumVFs as R431 reads them: what decides which functions exist. -/
def State.vfCtl (s : State) : Bool × Nat := (s.vfOn, s.vfs)

theorem State.vfCtl_eq_iff (s : State) (on : Bool) (n : Nat) : s.vfCtl = (on, n) ↔ s.vfOn = on ∧ s.vfs = n := Prod.mk_inj

theorem State.funcExists_iff (s : State) (c : Nat) : s.funcExists c = true ↔ c = 0 ∨ c ≤ s.vfs := decide_eq_true_iff

/-- Function 0 is the PF; the VFs that exist are numbered from 1, so NumVFs is not 0 while one exists. -/
theorem State.funcExists_iff_pf_or_vf (s : State) (n : Fin 64) :
    s.funcExists n.val = true ↔ n = 0 ∨ (s.vfs ≠ 0 ∧ n.val ≤ s.vfs) := by
  rw [s.funcExists_iff, ← Fin.val_eq_zero_iff]
  omega

section
variable {s : State} {c : Fin 64}

theorem exec_pcieConfigRequest_absent (up : s.portUp = true) (absent : s.funcExists c.val = false) (r : CfgReq) :
    exec (.pcieConfigRequest c r) s = .next (s.emit (.pcie 2 [c.val])) := by
  simp [exec, execPcieConfigRequest, up, absent]

theorem exec_pcieConfigRequest_read (up : s.portUp = true) (present : s.funcExists c.val = true) (off : BitVec 12) :
    exec (.pcieConfigRequest c (.read off)) s =
      .next (s.emit (.pcie 3 [c.val, off.toNat / 4 * 4, s.cfgWord c.val (off.toNat / 4 * 4)])) := by
  simp [exec, execPcieConfigRequest, up, present]

end

/-! ## What leaves VF Enable and NumVFs as they are -/

@[simp] theorem State.put_vfCtl (s : State) (f : Fld) (v : Nat) : (s.put f v).vfCtl = s.vfCtl := rfl

/-- A command carried out for each entry of a list keeps them when each entry does. -/
theorem foldl_vfCtl {α : Type} (f : State → α → State) (keeps : ∀ s x, (f s x).vfCtl = s.vfCtl) (s : State) (l : List α) :
    (l.foldl f s).vfCtl = s.vfCtl :=
  List.foldlRecOn (motive := fun t => t.vfCtl = s.vfCtl) l f rfl fun t same x _ => (keeps t x).trans same

@[simp] theorem State.setSeqState_vfCtl (s : State) (k v : Nat) : (s.setSeqState k v).vfCtl = s.vfCtl := by
  unfold State.setSeqState
  dsimp only
  split <;> rfl

@[simp] theorem State.stopIssue_vfCtl (s : State) (k : Nat) : (s.stopIssue k).vfCtl = s.vfCtl := by
  simp [State.vfCtl, State.stopIssue]

@[simp] theorem State.haltSeqs_vfCtl (s : State) (c : Nat) : (s.haltSeqs c).vfCtl = s.vfCtl := by
  refine foldl_vfCtl _ (fun t k => ?_) s _
  split
  case isTrue => simp
  case isFalse => rfl

@[simp] theorem State.beginTeardown_vfCtl (s : State) (c : Nat) : (s.beginTeardown c).vfCtl = s.vfCtl := by
  unfold State.beginTeardown
  split
  case isTrue => exact State.haltSeqs_vfCtl _ c
  case isFalse => rfl

/-! ## VF Enable set and cleared (R431, R437) -/

/-- Context `c` when VF Enable is set with NumVFs `num`: FREE becomes ACTIVE when its function comes into existence. -/
def State.startContext (num : Nat) (s : State) (c : Nat) : State :=
  if 0 < c ∧ c ≤ num ∧ s.get (R.CTX_STATE.state c) = 0 then s.put (R.CTX_STATE.state c) 1 else s

@[simp] theorem State.startContext_vfCtl (num : Nat) (s : State) (c : Nat) : (s.startContext num c).vfCtl = s.vfCtl := by
  unfold State.startContext
  split <;> rfl

section
variable {s : State} (up : s.portUp = true) (num : Fin 64)
include up

theorem exec_vfEnable_set (off : s.vfOn = false) :
    exec (.vfEnable true num) s =
      .next ((List.range 64).foldl (State.startContext num.val) { s with vfOn := true, vfs := num.val }) := by
  simp only [exec, execVfEnable, up, off]
  rfl

theorem exec_vfEnable_clear (on : s.vfOn = true) :
    exec (.vfEnable false num) s = .next ((List.range 64).foldl State.beginTeardown s.dropVfs) := by
  simp [exec, execVfEnable, up, on]

end

theorem foldl_startContext_vfCtl (num : Nat) (s : State) (l : List Nat) :
    (l.foldl (State.startContext num) s).vfCtl = s.vfCtl :=
  foldl_vfCtl _ (State.startContext_vfCtl num) s l

theorem foldl_beginTeardown_vfCtl (s : State) (l : List Nat) : (l.foldl State.beginTeardown s).vfCtl = s.vfCtl :=
  foldl_vfCtl _ State.beginTeardown_vfCtl s l

/-- Settles O59: a configuration request is answered by the functions that exist, and VF Enable with NumVFs is all that
decides which VFs do; the contexts' changes of state that come with it leave both as they are. -/
theorem functionsExist : Obligations.FunctionsExist := by
  unfold Obligations.FunctionsExist
  refine ⟨fun s n up => ⟨?absent, ?present⟩, ?set, ?clear⟩
  case absent =>
    rintro ⟨notPf, notVf⟩ r
    have absent : s.funcExists n.val = false := by
      rw [← Bool.not_eq_true, s.funcExists_iff_pf_or_vf]
      exact not_or.2 ⟨notPf, notVf⟩
    exact exec_pcieConfigRequest_absent up absent r
  case present =>
    intro pfOrVf off
    exact ⟨_, _, exec_pcieConfigRequest_read up ((s.funcExists_iff_pf_or_vf n).2 pfOrVf) off⟩
  case set =>
    intro s n num up off _ within
    obtain ⟨vfOn, vfs⟩ := (State.vfCtl_eq_iff _ _ _).1 (foldl_startContext_vfCtl num.val _ (List.range 64))
    exact ⟨_, exec_vfEnable_set up num off, vfOn, vfs, (State.funcExists_iff _ _).2 (.inr (vfs.symm ▸ within))⟩
  case clear =>
    intro s n num up on notPf
    obtain ⟨vfOn, vfs⟩ := (State.vfCtl_eq_iff _ _ _).1 (foldl_beginTeardown_vfCtl s.dropVfs (List.range 64))
    refine ⟨_, exec_vfEnable_clear up num on, vfOn, vfs, ?_⟩
    rw [← Bool.not_eq_true, State.funcExists_iff_pf_or_vf]
    exact not_or.2 ⟨notPf, fun vf => vf.1 vfs⟩

end Sys2Proof.Machine

namespace Sys2Proof.Machine

-- One kernel check at a time: this bounds the threads that wait for the checks of what stands before.
set_option Elab.async false

/-! ## Operand fields of a slot (R206, R228 to R257) -/

/-- An operand field of a slot: its value and the place of its low bit. -/
inductive SlotField where
  | bits {n : Nat} (v : BitVec n) (pos : Nat)
  | flag (b : Bool) (pos : Nat)

namespace SlotField

def width : SlotField → Nat
  | @bits n _ _ => n
  | flag _ _ => 1

def pos : SlotField → Nat
  | bits _ p => p
  | flag _ p => p

def val : SlotField → Nat
  | bits v _ => v.toNat
  | flag b _ => b2n b

/-- The pair that `slotBits` places. -/
def pair (f : SlotField) : Nat × Nat := (f.val, f.pos)

/-- The decoder's reading of the field in slot `w` gives back its value. -/
def Reads (w : Nat) : SlotField → Prop
  | @bits n v p => BitVec.ofNat n (Sys2Proof.bits w p n) = v
  | flag b p => bit w p = b

@[simp] theorem reads_bits {w n : Nat} (v : BitVec n) (p : Nat) :
    (bits v p).Reads w ↔ BitVec.ofNat n (Sys2Proof.bits w p n) = v := Iff.rfl

@[simp] theorem reads_flag {w : Nat} (b : Bool) (p : Nat) : (flag b p).Reads w ↔ bit w p = b := Iff.rfl

/-- Every bit of the field is one of `m`. -/
def named (m : Nat) (f : SlotField) : Bool := decide (Sys2Proof.bits m f.pos f.width = 2 ^ f.width - 1)

theorem val_lt (f : SlotField) : f.val < 2 ^ f.width := by
  cases f with
  | bits v p => exact v.isLt
  | flag b p => exact b2n_lt b

theorem reads_of_bits {w : Nat} {f : SlotField} (h : Sys2Proof.bits w f.pos f.width = f.val) : f.Reads w := by
  cases f with
  | @bits n v p =>
    show BitVec.ofNat n (Sys2Proof.bits w p n) = v
    have read : Sys2Proof.bits w p n = v.toNat := h
    rw [read, BitVec.ofNat_toNat, BitVec.setWidth_eq]
  | flag b p =>
    have h : w / 2 ^ p % 2 = b2n b := h
    cases b <;> simp [Reads, bit, h, b2n]

end SlotField

theorem SlotField.testBit_of_named {m i : Nat} {f : SlotField} (h : f.named m = true) (inside : i < f.width) :
    m.testBit (f.pos + i) = true := by
  have set : (m / 2 ^ f.pos % 2 ^ f.width).testBit i = (2 ^ f.width - 1).testBit i := by rw [← of_decide_eq_true h, Sys2Proof.bits]
  rw [Nat.testBit_mod_two_pow, Nat.testBit_two_pow_sub_one, Nat.testBit_div_two_pow] at set
  simpa [inside, Nat.add_comm] using set

/-- The fields stand in falling order below bit `top` and do not overlap. -/
def laidOut : Nat → List SlotField → Bool
  | _, [] => true
  | top, f :: fs => decide (f.pos + f.width ≤ top) && laidOut f.pos fs

theorem laidOut_cons {top : Nat} {f : SlotField} {fs : List SlotField} :
    laidOut top (f :: fs) = true ↔ f.pos + f.width ≤ top ∧ laidOut f.pos fs = true := by
  simp [laidOut]

/-- The operand bits of a slot with these fields. -/
def fieldBits (fs : List SlotField) : Nat := fieldSum (fs.map SlotField.pair)

theorem fieldBits_nil : fieldBits [] = 0 := rfl

theorem fieldBits_cons (f : SlotField) (fs : List SlotField) :
    fieldBits (f :: fs) = 2 ^ f.pos * f.val + fieldBits fs := by
  rw [Nat.mul_comm]
  exact fieldSum_cons _ _ _

theorem fieldBits_lt {top : Nat} {fs : List SlotField} (laid : laidOut top fs = true) : fieldBits fs < 2 ^ top := by
  induction fs generalizing top with
  | nil => exact Nat.two_pow_pos top
  | cons f fs ih =>
    obtain ⟨fits, below⟩ := laidOut_cons.1 laid
    have room : 2 ^ f.pos * (f.val + 1) ≤ 2 ^ f.pos * 2 ^ f.width := Nat.mul_le_mul_left _ f.val_lt
    have le : 2 ^ f.pos * 2 ^ f.width ≤ 2 ^ top := by
      rw [← Nat.pow_add]
      exact Nat.pow_le_pow_right Nat.two_pos fits
    have := ih below
    rw [fieldBits_cons]
    rw [Nat.mul_add] at room
    omega

/-- Every field of a slot is read back, whatever stands above them. -/
theorem reads_of_laidOut {top head w : Nat} {fs : List SlotField} (laid : laidOut top fs = true)
    (word : w = 2 ^ top * head + fieldBits fs) : ∀ f ∈ fs, f.Reads w := by
  induction fs generalizing top head with
  | nil => simp
  | cons f fs ih =>
    obtain ⟨fits, below⟩ := laidOut_cons.1 laid
    obtain ⟨gap, rfl⟩ := Nat.exists_eq_add_of_le fits
    have split : w = 2 ^ f.pos * (2 ^ f.width * (2 ^ gap * head) + f.val) + fieldBits fs := by
      rw [word, fieldBits_cons]
      ring
    have read : bits w f.pos f.width = f.val := by
      rw [bits, split, Nat.mul_add_div (Nat.two_pow_pos _), Nat.div_eq_of_lt (fieldBits_lt below), Nat.add_zero,
        Nat.mul_add_mod, Nat.mod_eq_of_lt f.val_lt]
    intro g mem
    rcases List.mem_cons.1 mem with rfl | mem
    · exact SlotField.reads_of_bits read
    · exact ih below split g mem

/-- A set bit of the operands lies in one of the fields. -/
theorem testBit_fieldBits {m top : Nat} {fs : List SlotField} (laid : laidOut top fs = true) (named : fs.all (·.named m) = true)
    (i : Nat) (set : (fieldBits fs).testBit i = true) : m.testBit i = true := by
  induction fs generalizing top with
  | nil => simp [fieldBits, fieldSum_nil] at set
  | cons f fs ih =>
    obtain ⟨fits, below⟩ := laidOut_cons.1 laid
    obtain ⟨here, others⟩ : f.named m = true ∧ fs.all (·.named m) = true := by simpa using named
    rw [fieldBits_cons, Nat.testBit_two_pow_mul_add _ (fieldBits_lt below)] at set
    split at set
    case isTrue => exact ih below others set
    case isFalse above =>
      have inside : i - f.pos < f.width := by
        by_contra out
        have small : f.val < 2 ^ (i - f.pos) := f.val_lt.trans_le (Nat.pow_le_pow_right Nat.two_pos (by omega))
        rw [Nat.testBit_lt_two_pow small] at set
        exact Bool.false_ne_true set
      have := SlotField.testBit_of_named here inside
      rwa [Nat.add_sub_cancel' (Nat.le_of_not_lt above)] at this

/-- Fields that a map names leave its reserved bits clear (R208). -/
theorem reserved_clear {m top : Nat} {fs : List SlotField} (laid : laidOut top fs = true) (named : fs.all (·.named m) = true) :
    fieldBits fs &&& (m ^^^ (2 ^ top - 1)) = 0 := by
  apply Nat.eq_of_testBit_eq
  intro i
  rw [Nat.testBit_and, Nat.testBit_xor, Nat.testBit_two_pow_sub_one, Nat.zero_testBit]
  by_cases set : (fieldBits fs).testBit i = true
  · have low : i < top := by
      by_contra high
      have small : fieldBits fs < 2 ^ i := (fieldBits_lt laid).trans_le (Nat.pow_le_pow_right Nat.two_pos (by omega))
      rw [Nat.testBit_lt_two_pow small] at set
      exact Bool.false_ne_true set
    simp [testBit_fieldBits laid named i set, low]
  · simp [set]

/-! ## Flume operands and the second operand of form C -/

/-- The fields of a flume operand, its fsrc bit set or clear (R229). -/
def flumeFields (o : FlumeOp) (src imm fs : Nat) : List SlotField :=
  match o with
  | .imm f => [.flag false src, .bits f imm]
  | .reg r => [.flag true src, .bits r fs]

/-- The imm bit of the second operand of form C (R234). -/
def cmpImm : CmpOp → Bool
  | .imm _ => true
  | .reg _ => false

/-- The field that holds the second operand of form C (R234). -/
def cmpField : CmpOp → SlotField
  | .imm v => .bits v 9
  | .reg r => .bits r 36

theorem fieldSum_append (l m : List (Nat × Nat)) : fieldSum (l ++ m) = fieldSum l + fieldSum m := by
  simp [fieldSum]

theorem fieldBits_append (l m : List SlotField) : fieldBits (l ++ m) = fieldBits l + fieldBits m := by
  simp [fieldBits, fieldSum_append]

theorem fieldBits_flumeFields (o : FlumeOp) (src imm fs : Nat) : fieldBits (flumeFields o src imm fs) = encFlume o src imm fs := by
  cases o <;> simp [flumeFields, fieldBits, fieldSum, SlotField.pair, SlotField.val, SlotField.pos, encFlume, b2n]

theorem decFlume_of_reads {w : Nat} {o : FlumeOp} {src imm fs : Nat} (h : ∀ f ∈ flumeFields o src imm fs, f.Reads w) :
    decFlume w src imm fs = o := by
  cases o <;> simp_all [flumeFields, SlotField.Reads, decFlume]

theorem decCmp_of_reads {w : Nat} {o : CmpOp} (kind : bit w 47 = cmpImm o) (h : (cmpField o).Reads w) : decCmp w = o := by
  cases o <;> simp_all [cmpField, cmpImm, SlotField.Reads, decCmp]

/-! ## Decoding what was encoded (R205 to R208) -/

/-- The opcode and the predicate fields of a slot, as fields (R206). -/
def headFields (op : Nat) (c : SlotCtl) : List SlotField :=
  [.bits (BitVec.ofNat 8 op) 56, .flag c.pe 55, .bits c.pidx 52, .flag c.psense 51]

theorem fieldBits_head {op : Nat} (small : op < 256) (c : SlotCtl) (fs : List SlotField) :
    slotHead op c + fieldBits fs = fieldBits (headFields op c ++ fs) := by
  have opcode : (BitVec.ofNat 8 op).toNat = op := by rw [BitVec.toNat_ofNat, Nat.mod_eq_of_lt small]
  rw [fieldBits_append]
  simp only [headFields, fieldBits_cons, fieldBits_nil, SlotField.val, SlotField.pos, opcode, slotHead]
  ring

/-- The bits of instruction `i` are its opcode, its place and operand fields that the decoder reads back and the map of its
opcode names. -/
structure Spelled (i : Instr) (c : SlotCtl) (op : Nat) (fs : List SlotField) : Prop where
  word : encSlot i = slotHead op c + fieldBits fs
  small : op < 256
  laid : laidOut 51 fs = true
  spells : ∀ w, bits w 56 8 = op → (∀ f ∈ fs, f.Reads w) → decOp c w = some i
  named : ∀ w, bits w 56 8 = op → (∀ f ∈ fs, f.Reads w) → fs.all (·.named (opMask w)) = true

theorem slotBits_eq (op : Nat) (c : SlotCtl) (ps : List (Nat × Nat)) : slotBits op c ps = slotHead op c + fieldSum ps := rfl

section
variable {i : Instr} {c : SlotCtl} {op : Nat} {fs : List SlotField}

theorem Spelled.reads (h : Spelled i c op fs) : ∀ f ∈ headFields op c ++ fs, f.Reads (encSlot i) := by
  have laid : laidOut 64 (headFields op c ++ fs) = true := by
    simp [headFields, laidOut, SlotField.pos, SlotField.width, h.laid]
  exact reads_of_laidOut (head := 0) laid (by rw [h.word, fieldBits_head h.small, Nat.mul_zero, Nat.zero_add])

theorem Spelled.opcode (h : Spelled i c op fs) : bits (encSlot i) 56 8 = op := by
  rw [h.word]
  exact bits_op op c _ h.small (fieldBits_lt h.laid)

theorem Spelled.operands (h : Spelled i c op fs) : bits (encSlot i) 0 51 = fieldBits fs := by
  have low := fieldBits_lt h.laid
  have word : encSlot i = 2 ^ 51 * (op * 2 ^ 5 + b2n c.pe * 2 ^ 4 + c.pidx.toNat * 2 + b2n c.psense) + fieldBits fs := by
    rw [h.word, slotHead]
    ring
  rw [bits, word, pow_zero, Nat.div_one, Nat.mul_add_mod, Nat.mod_eq_of_lt low]

theorem Spelled.place (h : Spelled i c op fs) : decCtl c.die c.q c.slot c.more (encSlot i) = c := by
  have head := fun f (mem : f ∈ headFields op c) => h.reads f (List.mem_append_left fs mem)
  simp only [headFields, List.forall_mem_cons, SlotField.reads_bits, SlotField.reads_flag] at head
  obtain ⟨-, pe, pidx, psense, -⟩ := head
  simp only [decCtl, pe, pidx, psense]

/-- The decoder passes its checks on such a word and gives the instruction back. -/
theorem Spelled.decSlot_encSlot (h : Spelled i c op fs) (place : slotCtlOf i = some c) (formed : slotFormed i = true) :
    decSlot c.die c.q c.slot c.more (encSlot i) = .ok i := by
  obtain ⟨legal, allZero⟩ := (slotFormed_iff i c place).1 formed
  have reads := fun f (mem : f ∈ fs) => h.reads f (List.mem_append_right _ mem)
  have reserved : bits (encSlot i) 0 51 &&& (opMask (encSlot i) ^^^ (2 ^ 51 - 1)) = 0 := by
    rw [h.operands]
    exact reserved_clear h.laid (h.named _ h.opcode reads)
  have spelled : decOp (decCtl c.die c.q c.slot c.more (encSlot i)) (encSlot i) = some i := by
    rw [h.place]
    exact h.spells _ h.opcode reads
  unfold decSlot
  rw [if_neg (fun bundle => bundle.2 (allZero bundle.1)), if_neg (by simpa using legal)]
  simp only [decCtl] at spelled
  simp only [spelled, reserved, ne_eq, not_true_eq_false, if_false]

/-- An opcode outside form C has one map. -/
theorem spelled_of_map (fs : List SlotField) {ps : List (Nat × Nat)} (word : encSlot i = slotBits op c ps)
    (same : fieldSum ps = fieldBits fs) (laid : laidOut 51 fs = true) (plain : op < 0x30 ∨ 0x35 < op ∧ op < 256)
    (named : fs.all (·.named (KMap.find (fun _ => 0) opMasks op)) = true)
    (spells : ∀ w, bits w 56 8 = op → (∀ f ∈ fs, f.Reads w) → decOp c w = some i) : Spelled i c op fs where
  word := by rw [word, slotBits_eq, same]
  small := by omega
  laid := laid
  spells := spells
  named w opcode _ := by
    have map : opMask w = KMap.find (fun _ => 0) opMasks op := by
      unfold opMask
      rw [opcode]
      exact if_neg (by omega)
    rwa [map]

theorem fieldSum_compare (pd : BitVec 3) (ra : BitVec 5) (o : CmpOp) :
    fieldSum [(pd.toNat, 48), (ra.toNat, 41), (encCmp o, 0)] =
      fieldBits [.bits pd 48, .flag (cmpImm o) 47, .bits ra 41, cmpField o] := by
  cases o with
  | reg r =>
    show fieldSum [(pd.toNat, 48), (ra.toNat, 41), (r.toNat * 2 ^ 36, 0)] =
      fieldBits [.bits pd 48, .flag false 47, .bits ra 41, .bits r 36]
    simp only [fieldSum_cons, fieldSum_nil, fieldBits_cons, fieldBits_nil, SlotField.val, SlotField.pos, b2n,
      Bool.false_eq_true, if_false]
    ring
  | imm v =>
    show fieldSum [(pd.toNat, 48), (ra.toNat, 41), (2 ^ 47 + v.toNat * 2 ^ 9, 0)] =
      fieldBits [.bits pd 48, .flag true 47, .bits ra 41, .bits v 9]
    simp only [fieldSum_cons, fieldSum_nil, fieldBits_cons, fieldBits_nil, SlotField.val, SlotField.pos, b2n, if_true]
    ring

/-- Form C has a map for each kind of its second operand (R234). -/
theorem spelled_compare (pd : BitVec 3) (ra : BitVec 5) (o : CmpOp)
    (word : encSlot i = slotBits op c [(pd.toNat, 48), (ra.toNat, 41), (encCmp o, 0)]) (form : 0x30 ≤ op ∧ op ≤ 0x35)
    (spells : ∀ w, bits w 56 8 = op → BitVec.ofNat 3 (bits w 48 3) = pd → BitVec.ofNat 5 (bits w 41 5) = ra → decCmp w = o →
      decOp c w = some i) : Spelled i c op [.bits pd 48, .flag (cmpImm o) 47, .bits ra 41, cmpField o] where
  word := by
    rw [word]
    rw [slotBits_eq, fieldSum_compare]
  small := by omega
  laid := by cases o <;> rfl
  spells w opcode reads := by
    simp at reads
    obtain ⟨hpd, kind, hra, operand⟩ := reads
    exact spells w opcode hpd hra (decCmp_of_reads kind operand)
  named w opcode reads := by
    have kind : bit w 47 = cmpImm o := reads (.flag (cmpImm o) 47) (by simp)
    have map : opMask w = if cmpImm o then 0x7BFFFFFFFFE00 else 0x7BFF000000000 := by
      unfold opMask
      rw [opcode, ← kind]
      exact if_pos form
    rw [map]
    cases o <;> norm_num [cmpImm, cmpField, SlotField.named, SlotField.width, SlotField.pos, bits]

end

/-- Every slot instruction is spelled by its encoding: the tables of R228 to R257, field by field. -/
theorem exists_spelled (i : Instr) (c : SlotCtl) (place : slotCtlOf i = some c) : ∃ op fs, Spelled i c op fs := by
  cases i <;> cases place
  case nop | ret | halt =>
    refine ⟨_, _, spelled_of_map []
      rfl rfl rfl (by decide) (by norm_num [SlotField.named, SlotField.width, SlotField.pos, bits, opMasks, KMap.find]) fun w opcode reads => ?_⟩
    simp_all [decOp, decControl]
  case br target | call target =>
    refine ⟨_, _, spelled_of_map [.bits target 37]
      rfl rfl rfl (by decide) (by norm_num [SlotField.named, SlotField.width, SlotField.pos, bits, opMasks, KMap.find]) fun w opcode reads => ?_⟩
    simp_all [decOp, decControl]
  case brS rs =>
    refine ⟨_, _, spelled_of_map [.bits rs 46]
      rfl rfl rfl (by decide) (by norm_num [SlotField.named, SlotField.width, SlotField.pos, bits, opMasks, KMap.find]) fun w opcode reads => ?_⟩
    simp_all [decOp, decControl]
  case loop rs last =>
    refine ⟨_, _, spelled_of_map [.bits rs 46, .bits last 32]
      rfl rfl rfl (by decide) (by norm_num [SlotField.named, SlotField.width, SlotField.pos, bits, opMasks, KMap.find]) fun w opcode reads => ?_⟩
    simp_all [decOp, decControl]
  case trapRet mode =>
    refine ⟨_, _, spelled_of_map [.flag mode 50]
      rfl rfl rfl (by decide) (by norm_num [SlotField.named, SlotField.width, SlotField.pos, bits, opMasks, KMap.find]) fun w opcode reads => ?_⟩
    simp_all [decOp, decControl]
  case evtSig tq e n =>
    refine ⟨_, _, spelled_of_map [.bits tq 49, .bits e 46, .bits n 30]
      rfl rfl rfl (by decide) (by norm_num [SlotField.named, SlotField.width, SlotField.pos, bits, opMasks, KMap.find]) fun w opcode reads => ?_⟩
    simp_all [decOp, decControl]
  case evtWait e n =>
    refine ⟨_, _, spelled_of_map [.bits e 48, .bits n 32]
      rfl rfl rfl (by decide) (by norm_num [SlotField.named, SlotField.width, SlotField.pos, bits, opMasks, KMap.find]) fun w opcode reads => ?_⟩
    simp_all [decOp, decControl]
  case wchSet idx kind f e =>
    refine ⟨_, _, spelled_of_map ([.bits idx 48, .bits kind 46] ++ flumeFields f 45 32 27 ++ [.bits e 24])
      rfl (by simp [fieldSum_cons, fieldSum_nil, fieldBits_append, fieldBits_flumeFields, fieldBits_cons, fieldBits_nil, SlotField.val, SlotField.pos, Nat.mul_comm]) (by cases f <;> rfl)
      (by decide) (by cases f <;> norm_num [flumeFields, SlotField.named, SlotField.width, SlotField.pos, bits, opMasks, KMap.find]) fun w opcode reads => ?_⟩
    have operand : decFlume w 45 32 27 = f := decFlume_of_reads fun a mem => reads a (by simp [mem])
    simp_all [decOp, decControl, or_imp, forall_and]
  case waitAny sd =>
    refine ⟨_, _, spelled_of_map [.bits sd 46]
      rfl rfl rfl (by decide) (by norm_num [SlotField.named, SlotField.width, SlotField.pos, bits, opMasks, KMap.find]) fun w opcode reads => ?_⟩
    simp_all [decOp, decControl]
  case waitIdle arrays glaze sap dma =>
    refine ⟨_, _, spelled_of_map [.flag arrays 50, .flag glaze 49, .flag sap 48, .flag dma 47]
      rfl rfl rfl (by decide) (by norm_num [SlotField.named, SlotField.width, SlotField.pos, bits, opMasks, KMap.find]) fun w opcode reads => ?_⟩
    simp_all [decOp, decControl]
  case add rd ra rb | sub rd ra rb | and rd ra rb | or rd ra rb | xor rd ra rb | shl rd ra rb | shr rd ra rb | sra rd ra rb | mul rd ra rb | min rd ra rb | max rd ra rb =>
    refine ⟨_, _, spelled_of_map [.bits rd 46, .bits ra 41, .bits rb 36]
      rfl rfl rfl (by decide) (by norm_num [SlotField.named, SlotField.width, SlotField.pos, bits, opMasks, KMap.find]) fun w opcode reads => ?_⟩
    simp_all [decOp, decScalar]
  case addi rd ra imm | andi rd ra imm =>
    refine ⟨_, _, spelled_of_map [.bits rd 46, .bits ra 41, .bits imm 9]
      rfl rfl rfl (by decide) (by norm_num [SlotField.named, SlotField.width, SlotField.pos, bits, opMasks, KMap.find]) fun w opcode reads => ?_⟩
    simp_all [decOp, decScalar]
  case movi rd imm | movhi rd imm =>
    refine ⟨_, _, spelled_of_map [.bits rd 46, .bits imm 9]
      rfl rfl rfl (by decide) (by norm_num [SlotField.named, SlotField.width, SlotField.pos, bits, opMasks, KMap.find]) fun w opcode reads => ?_⟩
    simp_all [decOp, decScalar]
  case cmpEq pd ra o | cmpNe pd ra o | cmpLt pd ra o | cmpLtu pd ra o | cmpLe pd ra o | cmpLeu pd ra o =>
    exact ⟨_, _, spelled_compare pd ra o rfl (by decide) fun w opcode hpd hra ho => by simp [decOp, decCompare, opcode, hpd, hra, ho]⟩
  case tst pd ra b =>
    refine ⟨_, _, spelled_of_map [.bits pd 48, .bits ra 41, .bits b 35]
      rfl rfl rfl (by decide) (by norm_num [SlotField.named, SlotField.width, SlotField.pos, bits, opMasks, KMap.find]) fun w opcode reads => ?_⟩
    simp_all [decOp, decCompare]
  case plog pd pa pb na nb op =>
    refine ⟨_, _, spelled_of_map [.bits pd 48, .bits pa 45, .bits pb 42, .flag na 41, .flag nb 40, .bits op 38]
      rfl rfl rfl (by decide) (by norm_num [SlotField.named, SlotField.width, SlotField.pos, bits, opMasks, KMap.find]) fun w opcode reads => ?_⟩
    simp_all [decOp, decCompare]
  case movA ad rs =>
    refine ⟨_, _, spelled_of_map [.bits ad 47, .bits rs 41]
      rfl rfl rfl (by decide) (by norm_num [SlotField.named, SlotField.width, SlotField.pos, bits, opMasks, KMap.find]) fun w opcode reads => ?_⟩
    simp_all [decOp, decCompare]
  case movS rd ab =>
    refine ⟨_, _, spelled_of_map [.bits rd 46, .bits ab 42]
      rfl rfl rfl (by decide) (by norm_num [SlotField.named, SlotField.width, SlotField.pos, bits, opMasks, KMap.find]) fun w opcode reads => ?_⟩
    simp_all [decOp, decCompare]
  case addA ad ab rs =>
    refine ⟨_, _, spelled_of_map [.bits ad 47, .bits ab 43, .bits rs 38]
      rfl rfl rfl (by decide) (by norm_num [SlotField.named, SlotField.width, SlotField.pos, bits, opMasks, KMap.find]) fun w opcode reads => ?_⟩
    simp_all [decOp, decCompare]
  case addiA ad ab imm =>
    refine ⟨_, _, spelled_of_map [.bits ad 47, .bits ab 43, .bits imm 11]
      rfl rfl rfl (by decide) (by norm_num [SlotField.named, SlotField.width, SlotField.pos, bits, opMasks, KMap.find]) fun w opcode reads => ?_⟩
    simp_all [decOp, decCompare]
  case mma fa fb t init sd =>
    refine ⟨_, _, spelled_of_map [.bits fa 47, .bits fb 43, .bits t 38, .flag init 37, .bits sd 32]
      rfl rfl rfl (by decide) (by norm_num [SlotField.named, SlotField.width, SlotField.pos, bits, opMasks, KMap.find]) fun w opcode reads => ?_⟩
    simp_all [decOp, decArray]
  case mmaQ fa fb t init sd quad =>
    refine ⟨_, _, spelled_of_map [.bits fa 47, .bits fb 43, .bits t 38, .flag init 37, .bits sd 32, .bits quad 30]
      rfl rfl rfl (by decide) (by norm_num [SlotField.named, SlotField.width, SlotField.pos, bits, opMasks, KMap.find]) fun w opcode reads => ?_⟩
    simp_all [decOp, decArray]
  case raftSet size =>
    refine ⟨_, _, spelled_of_map [.bits size 47]
      rfl rfl rfl (by decide) (by norm_num [SlotField.named, SlotField.width, SlotField.pos, bits, opMasks, KMap.find]) fun w opcode reads => ?_⟩
    simp_all [decOp, decArray]
  case qtrSet arr on =>
    refine ⟨_, _, spelled_of_map [.flag arr 50, .flag on 49]
      rfl rfl rfl (by decide) (by norm_num [SlotField.named, SlotField.width, SlotField.pos, bits, opMasks, KMap.find]) fun w opcode reads => ?_⟩
    simp_all [decOp, decArray]
  case sapMv fw fx init sd cen e =>
    refine ⟨_, _, spelled_of_map [.bits fw 47, .bits fx 43, .flag init 42, .bits sd 37, .flag cen 36, .bits e 33]
      rfl rfl rfl (by decide) (by norm_num [SlotField.named, SlotField.width, SlotField.pos, bits, opMasks, KMap.find]) fun w opcode reads => ?_⟩
    simp_all [decOp, decArray]
  case glzRun sd cen e =>
    refine ⟨_, _, spelled_of_map [.bits sd 46, .flag cen 45, .bits e 42]
      rfl rfl rfl (by decide) (by norm_num [SlotField.named, SlotField.width, SlotField.pos, bits, opMasks, KMap.find]) fun w opcode reads => ?_⟩
    simp_all [decOp, decGlaze]
  case glzTbl tbl sd cen e =>
    refine ⟨_, _, spelled_of_map [.bits tbl 49, .bits sd 44, .flag cen 43, .bits e 40]
      rfl rfl rfl (by decide) (by norm_num [SlotField.named, SlotField.width, SlotField.pos, bits, opMasks, KMap.find]) fun w opcode reads => ?_⟩
    simp_all [decOp, decGlaze]
  case ldTs rd mode rb size sx imm =>
    refine ⟨_, _, spelled_of_map [.bits rd 46, .flag mode 45, .bits rb 40, .bits size 38, .flag sx 37, .bits imm 13]
      rfl rfl rfl (by decide) (by norm_num [SlotField.named, SlotField.width, SlotField.pos, bits, opMasks, KMap.find]) fun w opcode reads => ?_⟩
    simp_all [decOp, decMove]
  case stTs rs mode rb size imm =>
    refine ⟨_, _, spelled_of_map [.bits rs 46, .flag mode 45, .bits rb 40, .bits size 38, .bits imm 13]
      rfl rfl rfl (by decide) (by norm_num [SlotField.named, SlotField.width, SlotField.pos, bits, opMasks, KMap.find]) fun w opcode reads => ?_⟩
    simp_all [decOp, decMove]
  case movSr rd idx =>
    refine ⟨_, _, spelled_of_map [.bits rd 46, .bits idx 40]
      rfl rfl rfl (by decide) (by norm_num [SlotField.named, SlotField.width, SlotField.pos, bits, opMasks, KMap.find]) fun w opcode reads => ?_⟩
    simp_all [decOp, decMove]
  case movHb rd sel =>
    refine ⟨_, _, spelled_of_map [.bits rd 46, .bits sel 40]
      rfl rfl rfl (by decide) (by norm_num [SlotField.named, SlotField.width, SlotField.pos, bits, opMasks, KMap.find]) fun w opcode reads => ?_⟩
    simp_all [decOp, decMove]
  case movOb sel rs =>
    refine ⟨_, _, spelled_of_map [.bits sel 45, .bits rs 40]
      rfl rfl rfl (by decide) (by norm_num [SlotField.named, SlotField.width, SlotField.pos, bits, opMasks, KMap.find]) fun w opcode reads => ?_⟩
    simp_all [decOp, decMove]
  case hbCp | obClr =>
    refine ⟨_, _, spelled_of_map []
      rfl rfl rfl (by decide) (by norm_num [SlotField.named, SlotField.width, SlotField.pos, bits, opMasks, KMap.find]) fun w opcode reads => ?_⟩
    simp_all [decOp, decMove]
  case dma dk sk dr sr lr cen e =>
    refine ⟨_, _, spelled_of_map [.flag dk 50, .flag sk 49, .bits dr 44, .bits sr 39, .bits lr 34, .flag cen 33, .bits e 30]
      rfl rfl rfl (by decide) (by norm_num [SlotField.named, SlotField.width, SlotField.pos, bits, opMasks, KMap.find]) fun w opcode reads => ?_⟩
    simp_all [decOp, decMove]
  case schW sel rs idx =>
    refine ⟨_, _, spelled_of_map [.bits sel 48, .bits rs 43, .bits idx 35]
      rfl rfl rfl (by decide) (by norm_num [SlotField.named, SlotField.width, SlotField.pos, bits, opMasks, KMap.find]) fun w opcode reads => ?_⟩
    simp_all [decOp, decMove]
  case flmPush ad f | flmPop ad f =>
    refine ⟨_, _, spelled_of_map ([.bits ad 47] ++ flumeFields f 46 33 28)
      rfl (by simp [fieldSum_cons, fieldSum_nil, fieldBits_flumeFields, fieldBits_cons, SlotField.val, SlotField.pos, Nat.mul_comm]) (by cases f <;> rfl)
      (by decide) (by cases f <;> norm_num [flumeFields, SlotField.named, SlotField.width, SlotField.pos, bits, opMasks, KMap.find]) fun w opcode reads => ?_⟩
    have operand : decFlume w 46 33 28 = f := decFlume_of_reads fun a mem => reads a (by simp [mem])
    simp_all [decOp, decFlm]
  case flmTry ad f pd | flmTpop ad f pd =>
    refine ⟨_, _, spelled_of_map ([.bits ad 47] ++ flumeFields f 46 33 28 ++ [.bits pd 25])
      rfl (by simp [fieldSum_cons, fieldSum_nil, fieldBits_append, fieldBits_flumeFields, fieldBits_cons, fieldBits_nil, SlotField.val, SlotField.pos, Nat.mul_comm]) (by cases f <;> rfl)
      (by decide) (by cases f <;> norm_num [flumeFields, SlotField.named, SlotField.width, SlotField.pos, bits, opMasks, KMap.find]) fun w opcode reads => ?_⟩
    have operand : decFlume w 46 33 28 = f := decFlume_of_reads fun a mem => reads a (by simp [mem])
    simp_all [decOp, decFlm, or_imp, forall_and]
  case flmCmt f | flmRel f =>
    refine ⟨_, _, spelled_of_map (flumeFields f 46 33 28)
      rfl (by simp [fieldSum_cons, fieldSum_nil, fieldBits_flumeFields]) (by cases f <;> rfl)
      (by decide) (by cases f <;> norm_num [flumeFields, SlotField.named, SlotField.width, SlotField.pos, bits, opMasks, KMap.find]) fun w opcode reads => ?_⟩
    have operand : decFlume w 46 33 28 = f := decFlume_of_reads fun a mem => reads a mem
    simp_all [decOp, decFlm]
  case flmNext ad pd =>
    refine ⟨_, _, spelled_of_map [.bits ad 47, .bits pd 25]
      rfl rfl rfl (by decide) (by norm_num [SlotField.named, SlotField.width, SlotField.pos, bits, opMasks, KMap.find]) fun w opcode reads => ?_⟩
    simp_all [decOp, decFlm]
  case verAdmit sd close =>
    refine ⟨_, _, spelled_of_map [.bits sd 46, .flag close 45]
      rfl rfl rfl (by decide) (by norm_num [SlotField.named, SlotField.width, SlotField.pos, bits, opMasks, KMap.find]) fun w opcode reads => ?_⟩
    simp_all [decOp, decVersion]
  case verPin pd sd f =>
    refine ⟨_, _, spelled_of_map ([.bits pd 48, .bits sd 43] ++ flumeFields f 42 29 24)
      rfl (by simp [fieldSum_cons, fieldSum_nil, fieldBits_flumeFields, fieldBits_cons, SlotField.val, SlotField.pos, Nat.mul_comm]) (by cases f <;> rfl)
      (by decide) (by cases f <;> norm_num [flumeFields, SlotField.named, SlotField.width, SlotField.pos, bits, opMasks, KMap.find]) fun w opcode reads => ?_⟩
    have operand : decFlume w 42 29 24 = f := decFlume_of_reads fun a mem => reads a (by simp [mem])
    simp_all [decOp, decVersion]
  case verLook pd sd gs =>
    refine ⟨_, _, spelled_of_map [.bits pd 48, .bits sd 43, .bits gs 38]
      rfl rfl rfl (by decide) (by norm_num [SlotField.named, SlotField.width, SlotField.pos, bits, opMasks, KMap.find]) fun w opcode reads => ?_⟩
    simp_all [decOp, decVersion]
  case verUnpin gs | verSw gs =>
    refine ⟨_, _, spelled_of_map [.bits gs 46]
      rfl rfl rfl (by decide) (by norm_num [SlotField.named, SlotField.width, SlotField.pos, bits, opMasks, KMap.find]) fun w opcode reads => ?_⟩
    simp_all [decOp, decVersion]
  case verBase ad ss is =>
    refine ⟨_, _, spelled_of_map [.bits ad 47, .bits ss 42, .bits is 37]
      rfl rfl rfl (by decide) (by norm_num [SlotField.named, SlotField.width, SlotField.pos, bits, opMasks, KMap.find]) fun w opcode reads => ?_⟩
    simp_all [decOp, decVersion]
  case verBuild sd gs =>
    refine ⟨_, _, spelled_of_map [.bits sd 46, .bits gs 41]
      rfl rfl rfl (by decide) (by norm_num [SlotField.named, SlotField.width, SlotField.pos, bits, opMasks, KMap.find]) fun w opcode reads => ?_⟩
    simp_all [decOp, decVersion]
  case verTbuild sd gs pd =>
    refine ⟨_, _, spelled_of_map [.bits sd 46, .bits gs 41, .bits pd 38]
      rfl rfl rfl (by decide) (by norm_num [SlotField.named, SlotField.width, SlotField.pos, bits, opMasks, KMap.find]) fun w opcode reads => ?_⟩
    simp_all [decOp, decVersion]
  case verLive ss | verDrop ss =>
    refine ⟨_, _, spelled_of_map [.bits ss 46]
      rfl rfl rfl (by decide) (by norm_num [SlotField.named, SlotField.width, SlotField.pos, bits, opMasks, KMap.find]) fun w opcode reads => ?_⟩
    simp_all [decOp, decVersion]
  case verAdm gs barrier =>
    refine ⟨_, _, spelled_of_map [.bits gs 46, .flag barrier 45]
      rfl rfl rfl (by decide) (by norm_num [SlotField.named, SlotField.width, SlotField.pos, bits, opMasks, KMap.find]) fun w opcode reads => ?_⟩
    simp_all [decOp, decVersion]
  case verLb ss is ab =>
    refine ⟨_, _, spelled_of_map [.bits ss 46, .bits is 41, .bits ab 37]
      rfl rfl rfl (by decide) (by norm_num [SlotField.named, SlotField.width, SlotField.pos, bits, opMasks, KMap.find]) fun w opcode reads => ?_⟩
    simp_all [decOp, decVersion]
  case verNl ss ns =>
    refine ⟨_, _, spelled_of_map [.bits ss 46, .bits ns 41]
      rfl rfl rfl (by decide) (by norm_num [SlotField.named, SlotField.width, SlotField.pos, bits, opMasks, KMap.find]) fun w opcode reads => ?_⟩
    simp_all [decOp, decVersion]
  case varLook ad sd pd vs =>
    refine ⟨_, _, spelled_of_map [.bits ad 47, .bits sd 42, .bits pd 39, .bits vs 34]
      rfl rfl rfl (by decide) (by norm_num [SlotField.named, SlotField.width, SlotField.pos, bits, opMasks, KMap.find]) fun w opcode reads => ?_⟩
    simp_all [decOp, decVersion]
  case varCnt vs =>
    refine ⟨_, _, spelled_of_map [.bits vs 46]
      rfl rfl rfl (by decide) (by norm_num [SlotField.named, SlotField.width, SlotField.pos, bits, opMasks, KMap.find]) fun w opcode reads => ?_⟩
    simp_all [decOp, decVersion]

/-- Settles O54: the fields of a slot do not overlap, so each is read back, and the map of its opcode names them all. -/
theorem slotRoundTrip : Obligations.SlotRoundTrip := by
  unfold Obligations.SlotRoundTrip
  intro i c place formed
  obtain ⟨op, fs, spelled⟩ := exists_spelled i c place
  exact spelled.decSlot_encSlot place formed

end Sys2Proof.Machine

namespace Sys2Proof.Machine

-- One proof at a time: threads that wait for each other hold memory.
set_option Elab.async false

/-! ## What every command keeps: the queue, the time, and the canonical form of memory, tile registers and register fields

A state that a command may leave from `s₀` is `Kept s₀`. Each function of the model that changes a state keeps this, by the lemmas `kept_…` of
the functions it is made of; so does each command's own function, and with them `exec`. -/

/-- A queue, a time, register fields, memory and tile registers as a command may leave them from `s₀`. -/
structure KeptFields (s₀ : State) (pending : List Instr) (now : Nat) (regs : KMap Nat) (mem : KMap Byte) (tiles : KMap F32) : Prop where
  pending : pending = s₀.pending
  now     : now = s₀.now
  canon   : s₀.Canon → KMap.wf (fun _ => (0 : Byte)) mem = true ∧ KMap.wf (fun _ => (0 : F32)) tiles = true ∧ KMap.wf resetVal regs = true

/-- State `t` is one that a command may leave from `s₀`. -/
def Kept (s₀ t : State) : Prop := KeptFields s₀ t.pending t.now t.regs t.mem t.tiles

/-- A command answers a next state, and one that it may leave from `s₀`. -/
def Answers (s₀ : State) (x : Result) : Prop := ∃ t, x = .next t ∧ Kept s₀ t

theorem kept_refl (s : State) : Kept s s := ⟨rfl, rfl, id⟩

theorem answers_of_next {s₀ t : State} (kept : Kept s₀ t) : Answers s₀ (.next t) := ⟨t, rfl, kept⟩

/-- A state that is written out field by field (so every update `{ s with … }` of the model) is judged by five fields. -/
theorem kept_with {s₀ : State}
    {pending' out' now' tick0' free' regs' shadow' mem' bad' soft' plist' linkErr' tiles' tileBad' tileSoft' pkts' pktNext'
    seqs' arrs' raft' saps' glzs' flumes' log' mfg' mfg1' oldWin' halfRst' recov' dieRst' phaseIn' phaseOut' cutForce'
    cutPend' jobs' owed' redTx' redRx' sctlPend' scaleDue' pinEnd' refill' limitAt' unitAdm' hauls' haulTurn' ckpts' hrecs'
    quarLen' srcConn' idKeys' farKey' links' ethRate' ethPause' ethHeld' spn' spnBurst' spnTx' parts' sample' hbmHot' srings'
    crings' fetched' fns' vfOn' vfs' b4size' msixTab' unmask' pba' linkUp' boot' hostOrd' mgmtOrd' mgmtRes' won' ownHid'
    refclk' offBy' bootEvt' wasRun' rerun' halfBack' inHold' coolHold' leakHold' tripped' slotId' tid' eid' i3c' fw' picture'
    spdm' tokens' scaler' wire' meter' mtrRec' mtrLog' stmts'}
    (kept : KeptFields s₀ pending' now' regs' mem' tiles') :
    Kept s₀ (State.mk
      pending' out' now' tick0' free' regs' shadow' mem' bad' soft' plist' linkErr' tiles' tileBad' tileSoft' pkts' pktNext'
      seqs' arrs' raft' saps' glzs' flumes' log' mfg' mfg1' oldWin' halfRst' recov' dieRst' phaseIn' phaseOut' cutForce'
      cutPend' jobs' owed' redTx' redRx' sctlPend' scaleDue' pinEnd' refill' limitAt' unitAdm' hauls' haulTurn' ckpts' hrecs'
      quarLen' srcConn' idKeys' farKey' links' ethRate' ethPause' ethHeld' spn' spnBurst' spnTx' parts' sample' hbmHot'
      srings' crings' fetched' fns' vfOn' vfs' b4size' msixTab' unmask' pba' linkUp' boot' hostOrd' mgmtOrd' mgmtRes' won'
      ownHid' refclk' offBy' bootEvt' wasRun' rerun' halfBack' inHold' coolHold' leakHold' tripped' slotId' tid' eid' i3c'
      fw' picture' spdm' tokens' scaler' wire' meter' mtrRec' mtrLog' stmts') := kept

theorem kept_regs {s₀ t : State} (kept : Kept s₀ t) {regs : KMap Nat} (wf : KMap.wf resetVal t.regs = true → KMap.wf resetVal regs = true) :
    KeptFields s₀ t.pending t.now regs t.mem t.tiles where
  pending := kept.pending
  now := kept.now
  canon canon := by
    obtain ⟨mem, tiles, regs⟩ := kept.canon canon
    exact ⟨mem, tiles, wf regs⟩

theorem kept_mem {s₀ t : State} (kept : Kept s₀ t) {mem : KMap Byte}
    (wf : KMap.wf (fun _ => (0 : Byte)) t.mem = true → KMap.wf (fun _ => (0 : Byte)) mem = true) :
    KeptFields s₀ t.pending t.now t.regs mem t.tiles where
  pending := kept.pending
  now := kept.now
  canon canon := by
    obtain ⟨mem, tiles, regs⟩ := kept.canon canon
    exact ⟨wf mem, tiles, regs⟩

theorem kept_tiles {s₀ t : State} (kept : Kept s₀ t) {tiles : KMap F32}
    (wf : KMap.wf (fun _ => (0 : F32)) t.tiles = true → KMap.wf (fun _ => (0 : F32)) tiles = true) :
    KeptFields s₀ t.pending t.now t.regs t.mem tiles where
  pending := kept.pending
  now := kept.now
  canon canon := by
    obtain ⟨mem, tiles, regs⟩ := kept.canon canon
    exact ⟨mem, wf tiles, regs⟩

theorem kept_ite {s₀ t u : State} {p : Prop} [Decidable p] (yes : Kept s₀ t) (no : Kept s₀ u) : Kept s₀ (if p then t else u) := by
  split <;> assumption

theorem answers_ite {s₀ : State} {x y : Result} {p : Prop} [Decidable p] (yes : Answers s₀ x) (no : Answers s₀ y) :
    Answers s₀ (if p then x else y) := by
  split <;> assumption

theorem kept_foldl {α : Type} {s₀ s : State} {f : State → α → State} (step : ∀ t x, Kept s₀ t → Kept s₀ (f t x)) (kept : Kept s₀ s)
    {l : List α} : Kept s₀ (l.foldl f s) := by
  induction l generalizing s with
  | nil => exact kept
  | cons x l ih => exact ih (step s x kept)

/-- The same where the fold carries more than the state. -/
theorem kept_foldl_fst {α β : Type} {s₀ : State} {p : State × β} {f : State × β → α → State × β}
    (step : ∀ q x, Kept s₀ q.1 → Kept s₀ (f q x).1) (kept : Kept s₀ p.1) {l : List α} : Kept s₀ (l.foldl f p).1 := by
  induction l generalizing p with
  | nil => exact kept
  | cons x l ih => exact ih (step p x kept)

theorem kept_fst_ite {α : Type} {s₀ : State} {x y : State × α} {p : Prop} [Decidable p] (yes : Kept s₀ x.1) (no : Kept s₀ y.1) :
    Kept s₀ (if p then x else y).1 := by
  split <;> assumption

theorem kept_fst_eq {α : Type} {s₀ t : State} {x : State × α} {a : α} (eq : x = (t, a)) (kept : Kept s₀ x.1) : Kept s₀ t := by
  rw [eq] at kept
  exact kept

theorem kept_some {s₀ t : State} (kept : Kept s₀ t) : ∀ u, some t = some u → Kept s₀ u := by
  rintro _ ⟨rfl⟩
  exact kept

theorem kept_none {s₀ : State} : ∀ u : State, none = some u → Kept s₀ u :=
  fun _ eq => absurd eq.symm (Option.some_ne_none _)

theorem kept_ite_some {s₀ : State} {x y : Option State} {p : Prop} [Decidable p] (yes : ∀ u, x = some u → Kept s₀ u)
    (no : ∀ u, y = some u → Kept s₀ u) : ∀ u, (if p then x else y) = some u → Kept s₀ u := by
  split <;> assumption

theorem kept_map_some {α : Type} {s₀ : State} {x : Option α} {f : α → State} (kept : ∀ a, Kept s₀ (f a)) :
    ∀ u, x.map f = some u → Kept s₀ u := by
  intro u eq
  obtain ⟨a, -, rfl⟩ := Option.map_eq_some_iff.1 eq
  exact kept a

/-- A state made anew, but for the queue and a part of memory. -/
theorem kept_fresh {s₀ s : State} (kept : Kept s₀ s) {mem : KMap Byte}
    (wf : KMap.wf (fun _ => (0 : Byte)) s.mem = true → KMap.wf (fun _ => (0 : Byte)) mem = true) :
    KeptFields s₀ s.pending s.now [] mem [] :=
  ⟨kept.pending, kept.now, fun canon => ⟨wf (kept.canon canon).1, rfl, rfl⟩⟩

/-- The same where the step is known to be one for the members of the list only. -/
theorem kept_foldl_mem {α : Type} {s₀ s : State} {f : State → α → State} {l : List α} (step : ∀ x ∈ l, ∀ t, Kept s₀ t → Kept s₀ (f t x))
    (kept : Kept s₀ s) : Kept s₀ (l.foldl f s) := by
  induction l generalizing s with
  | nil => exact kept
  | cons x l ih => exact ih (fun y mem => step y (List.mem_cons_of_mem x mem)) (step x List.mem_cons_self s kept)

theorem wf_putBytes (keep : Nat → Bool) (bs : List Byte) (a : Nat) (m : KMap Byte) (wf : KMap.wf (fun _ => (0 : Byte)) m = true) :
    KMap.wf (fun _ => (0 : Byte)) (putBytes keep bs a m) = true := by
  induction bs generalizing a m with
  | nil => exact wf
  | cons b bs ih =>
    refine ih _ _ ?_
    split
    · exact wf
    · exact KMap.wf_put _ _ _ _ wf

theorem wf_putElements (part : List Nat) (vs : List F32) (k : Nat) (m : KMap F32) (wf : KMap.wf (fun _ => (0 : F32)) m = true) :
    KMap.wf (fun _ => (0 : F32)) (vs.foldl (fun (p : Nat × KMap F32) v =>
      (p.1 + 1, if part.contains (p.1 / 2) then p.2 else KMap.put (fun _ => 0) p.2 p.1 v)) (k, m)).2 = true := by
  induction vs generalizing k m with
  | nil => exact wf
  | cons v vs ih =>
    refine ih _ _ ?_
    dsimp only
    split
    · exact wf
    · exact KMap.wf_put _ _ _ _ wf

theorem wf_foldl_put (l : List (Nat × Byte)) (m : KMap Byte) (wf : KMap.wf (fun _ => (0 : Byte)) m = true) :
    KMap.wf (fun _ => (0 : Byte)) (l.foldl (fun m e => KMap.put (fun _ => 0) m e.1 e.2) m) = true := by
  induction l generalizing m with
  | nil => exact wf
  | cons e l ih => exact ih _ (KMap.wf_put _ _ _ _ wf)

end Sys2Proof.Machine

namespace Sys2Proof.Machine

-- One proof at a time: threads that wait for each other hold memory.
set_option Elab.async false

/-! ### Machine/Ops -/

theorem kept_setSeq {s₀ s : State} (kept : Kept s₀ s) {k : Nat} {x : Seq} : Kept s₀ (s.setSeq k x) := kept_with kept

theorem kept_modSeq {s₀ s : State} (kept : Kept s₀ s) {k : Nat} {f : Seq → Seq} : Kept s₀ (s.modSeq k f) := kept_setSeq kept

theorem kept_emit {s₀ s : State} (kept : Kept s₀ s) {o : Out} : Kept s₀ (s.emit o) := kept_with kept

/-! ### Machine/Route -/

theorem kept_setSpnTx {s₀ s : State} (kept : Kept s₀ s) {e : Nat} {x : SpnTx} : Kept s₀ (s.setSpnTx e x) := kept_with kept

theorem kept_flit {s₀ s : State} (kept : Kept s₀ s) {i : Nat} {hi : Bool} {kind n : Nat} : Kept s₀ (s.flit i hi kind n) :=
  kept_emit (kept_setSpnTx (kept_setSpnTx kept))

theorem kept_flits {s₀ s : State} (kept : Kept s₀ s) {kind n x : Nat} {links : List Nat} : Kept s₀ (s.flits kind n x links) := by
  unfold State.flits
  refine kept_foldl_fst (p := (s, x)) (fun _ _ kept1 => ?_) kept
  exact kept_flit kept1

theorem kept_ackPkt {s₀ s : State} (kept : Kept s₀ s) {src use x y : Nat} : Kept s₀ (s.ackPkt src use x y) := by
  unfold State.ackPkt
  split
  · exact kept
  · exact kept_ite (kept_with kept) (kept_flits (kept_ite (kept_flits (kept_with kept)) (kept_with kept)))

/-! ### Machine/Slot -/

theorem kept_wS {s₀ s : State} (kept : Kept s₀ s) {k : Nat} {r : BitVec 5} {v : Word} : Kept s₀ (s.wS k r v) := kept_modSeq kept

theorem kept_put {s₀ s : State} (kept : Kept s₀ s) {f : Fld} {v : Nat} : Kept s₀ (s.put f v) := by
  unfold State.put
  exact kept_with (kept_regs kept (KMap.wf_put resetVal _ _ _))

theorem kept_count {s₀ s : State} (kept : Kept s₀ s) {f : Fld} {k : Nat} : Kept s₀ (s.count f k) := kept_put kept

theorem kept_vector {s₀ s : State} (kept : Kept s₀ s) {c v : Nat} : Kept s₀ (s.vector c v) :=
  kept_ite (kept_emit kept) (kept_ite (kept_with kept) kept)

theorem kept_logAs {s₀ s : State} (kept : Kept s₀ s) {code cls : Nat} {ctx : Option Nat} {w : Where} {detail : Nat} :
    Kept s₀ (s.logAs code cls ctx w detail) := by
  unfold State.logAs
  refine kept_ite (kept_vector ?_) ?_
  · split
    · exact kept_put (kept_put (kept_put (kept_with (kept_ite (kept_count kept) kept))))
    · exact kept_put (kept_put (kept_with (kept_ite (kept_count kept) kept)))
  · split
    · exact kept_put (kept_put (kept_put (kept_with (kept_ite (kept_count kept) kept))))
    · exact kept_put (kept_put (kept_with (kept_ite (kept_count kept) kept)))

theorem kept_raise {s₀ s : State} (kept : Kept s₀ s) {code : Nat} {ctx : Option Nat} {w : Where} {detail : Nat} :
    Kept s₀ (s.raise code ctx w detail) := kept_logAs kept

theorem kept_fixWord {s₀ s : State} (kept : Kept s₀ s) {u : Nat} : Kept s₀ (s.fixWord u) := by
  unfold State.fixWord
  dsimp only
  split
  · exact kept_count (kept_with kept)
  · exact kept_with kept

theorem kept_fixSoft {s₀ s : State} (kept : Kept s₀ s) {a n : Nat} : Kept s₀ (s.fixSoft a n) :=
  kept_ite kept (kept_foldl (fun _ _ kept1 => kept_fixWord kept1) kept)

theorem kept_noteBad {s₀ s : State} (kept : Kept s₀ s) {ctx : Option Nat} {u : Nat} : Kept s₀ (s.noteBad ctx u) := by
  unfold State.noteBad
  split
  exacts [kept_raise (kept_put (kept_count kept)), kept_raise (kept_put (kept_count kept)), kept_raise (kept_put (kept_count (kept_ite kept
    (kept_ite (kept_put (kept_with kept)) (kept_with kept))))), kept_logAs (kept_put (kept_count kept)), kept]

theorem kept_noteUse {s₀ s : State} (kept : Kept s₀ s) {ctx : Option Nat} {a n : Nat} : Kept s₀ (s.noteUse ctx a n) :=
  kept_foldl (fun _ _ kept1 => kept_noteBad kept1) (kept_fixSoft kept)

/-! ### Machine/Move -/

theorem kept_sampleLoad {s₀ s : State} (kept : Kept s₀ s) {k : Nat} {ld : PendLoad} : Kept s₀ (s.sampleLoad k ld).1 := by
  unfold State.sampleLoad
  split
  · exact kept_raise kept
  · exact kept_noteUse kept

theorem kept_execLdTsReturn {s₀ s : State} (kept : Kept s₀ s) {die : Fin 24} {q : Fin 4} : Answers s₀ (execLdTsReturn die q s) := by
  unfold execLdTsReturn
  refine answers_of_next ?_
  split
  · exact kept
  · refine kept_wS ?_
    split
    · exact kept_ackPkt (kept_modSeq kept)
    · exact kept_sampleLoad (kept_ackPkt (kept_modSeq kept))

theorem kept_sendPkt {s₀ s : State} (kept : Kept s₀ s) {src use x y : Nat} : Kept s₀ (s.sendPkt src use x y) :=
  kept_ite kept (kept_flits (kept_with kept))

theorem kept_sendAll {s₀ s : State} (kept : Kept s₀ s) {src use x a n : Nat} : Kept s₀ (s.sendAll src use x a n) :=
  kept_foldl (fun _ _ kept1 => kept_sendPkt kept1) kept

theorem kept_dmaSend {s₀ s : State} (kept : Kept s₀ s) {k : Nat} {d : DmaOp} : Kept s₀ (s.dmaSend k d) :=
  kept_ite (kept_sendAll (kept_ite (kept_sendAll kept) kept)) (kept_ite (kept_sendAll kept) kept)

theorem kept_execDmaStart {s₀ s : State} (kept : Kept s₀ s) {die : Fin 24} {q : Fin 4} : Answers s₀ (execDmaStart die q s) := by
  unfold execDmaStart
  refine answers_of_next ?_
  split
  · exact kept
  · exact kept_modSeq (kept_ite kept (kept_dmaSend kept))

theorem kept_signal {s₀ s : State} (kept : Kept s₀ s) {k : Nat} {cen : Bool} {e : Nat} : Kept s₀ (s.signal k cen e) :=
  kept_ite (kept_modSeq kept) kept

theorem kept_ackAll {s₀ s : State} (kept : Kept s₀ s) {src use x a n : Nat} : Kept s₀ (s.ackAll src use x a n) :=
  kept_foldl (fun _ _ kept1 => kept_ackPkt kept1) kept

theorem kept_dmaAck {s₀ s : State} (kept : Kept s₀ s) {k : Nat} {d : DmaOp} : Kept s₀ (s.dmaAck k d) :=
  kept_ite (kept_ackAll (kept_ite (kept_ackAll kept) kept)) (kept_ite (kept_ackAll kept) kept)

theorem kept_markBad {s₀ s : State} (kept : Kept s₀ s) {a : Nat} : Kept s₀ (s.markBad a) := by
  unfold State.markBad
  split
  · exact kept_ite kept (kept_ite (kept_raise (kept_put (kept_with (kept_mem kept (wf_putBytes _ _ _ _))))) (kept_with kept))
  · exact kept_ite kept (kept_with kept)

theorem kept_markAll {s₀ s : State} (kept : Kept s₀ s) {us : List Nat} : Kept s₀ (s.markAll us) :=
  kept_foldl (fun _ _ kept1 => kept_markBad kept1) kept

theorem kept_write {s₀ s : State} (kept : Kept s₀ s) {a : Nat} {bs : List Byte} : Kept s₀ (s.write a bs) := by
  unfold State.write
  exact kept_with (kept_mem kept (wf_putBytes _ _ _ _))

theorem kept_copyGranule {s₀ s : State} (kept : Kept s₀ s) {src dst : Nat} : Kept s₀ (s.copyGranule src dst) :=
  kept_markAll (kept_write kept)

theorem kept_setFlume {s₀ s : State} (kept : Kept s₀ s) {f : Nat} {x : Flume} : Kept s₀ (s.setFlume f x) := kept_with kept

theorem kept_payloadBad {s₀ s : State} (kept : Kept s₀ s) {k a n : Nat} : Kept s₀ (s.payloadBad k a n) :=
  kept_foldl (fun _ _ kept1 => kept_ite (kept_setFlume kept1) kept1) kept

theorem kept_dmaGranule {s₀ s : State} (kept : Kept s₀ s) {k : Nat} {d : DmaOp} {src dst : Nat} : Kept s₀ (s.dmaGranule k d src dst) := by
  unfold State.dmaGranule
  dsimp only
  split
  · refine kept_payloadBad (kept_raise ?_)
    split
    · exact kept_raise kept
    · exact kept_fixSoft kept
  · refine kept_ite (kept_markAll ?_) (kept_copyGranule ?_)
    · split
      · exact kept_raise kept
      · exact kept_fixSoft kept
    · split
      · exact kept_raise kept
      · exact kept_fixSoft kept

theorem kept_dmaGranules {s₀ s : State} (kept : Kept s₀ s) {k : Nat} {d : DmaOp} {n src dst : Nat} :
    Kept s₀ (State.dmaGranules k d n s src dst) := by
  induction n generalizing s src dst with
  | zero => exact kept
  | succ n ih => exact ih (kept_dmaGranule kept)

theorem kept_dmaCopy {s₀ s : State} (kept : Kept s₀ s) {k : Nat} {d : DmaOp} : Kept s₀ (s.dmaCopy k d) :=
  kept_foldl (fun _ _ kept1 => kept_noteBad kept1) (kept_dmaGranules kept)

theorem kept_dmaSkip {s₀ s : State} (kept : Kept s₀ s) {k : Nat} {ds : List DmaOp} : Kept s₀ (dmaSkip k ds s) := by
  induction ds generalizing s with
  | nil => exact kept
  | cons d ds ih => exact kept_ite (ih (kept_signal (kept_modSeq kept))) kept

theorem kept_execDmaComplete {s₀ s : State} (kept : Kept s₀ s) {die : Fin 24} {q : Fin 4} : Answers s₀ (execDmaComplete die q s) := by
  unfold execDmaComplete
  refine answers_of_next ?_
  split
  · exact kept
  · exact kept_ite (kept_dmaSkip (kept_signal (kept_modSeq (kept_dmaAck (kept_dmaCopy kept))))) kept

theorem kept_setArr {s₀ s : State} (kept : Kept s₀ s) {n a : Nat} {x : Arr} : Kept s₀ (s.setArr n a x) := kept_with kept

theorem kept_noteRead {s₀ s : State} (kept : Kept s₀ s) {ctx : Option Nat} {a n : Nat} : Kept s₀ (s.noteRead ctx a n) :=
  kept_foldl (fun _ _ kept1 => kept_noteBad kept1) (kept_fixSoft kept)

/-! ### Machine/Array -/

theorem kept_noteRow {s₀ s : State} (kept : Kept s₀ s) {k f : Nat} {x : Option ExpDesc} {o : OpBlk} {r : Nat} {bs : List Nat} :
    Kept s₀ (s.noteRow k f x o r bs) := by
  unfold State.noteRow
  dsimp only
  split
  · exact kept
  · exact kept_ite (kept_noteRead (kept_noteRead kept)) (kept_noteRead kept)

theorem kept_countLoads {s₀ s : State} (kept : Kept s₀ s) {n home : Nat} {o : ArrOp} : Kept s₀ (s.countLoads n home o) :=
  kept_foldl (fun _ _ kept1 => kept_ite kept1 (kept_count kept1)) kept

theorem kept_execBChunkLoaded {s₀ s : State} (kept : Kept s₀ s) {die : Fin 24} {arr : Fin 8} {quad : Fin 4} :
    Answers s₀ (execBChunkLoaded die arr quad s) := by
  unfold execBChunkLoaded
  refine answers_of_next ?_
  split
  · exact kept
  · exact kept_ite kept (kept_setArr (kept_foldl (fun _ _ kept1 => kept_noteRow kept1) (kept_countLoads kept)))

theorem kept_execPassBegin {s₀ s : State} (kept : Kept s₀ s) {die : Fin 24} {arr : Fin 8} {quad : Fin 4} :
    Answers s₀ (execPassBegin die arr quad s) := by
  unfold execPassBegin
  refine answers_of_next ?_
  split
  · exact kept
  · exact kept_ite (kept_setArr kept) kept

theorem kept_admitQuad {s₀ : State} {p : State × Arr} (kept : Kept s₀ p.1) {n h q : Nat} : Kept s₀ (State.admitQuad n h p q).1 := by
  unfold State.admitQuad
  refine kept_fst_ite ?_ kept
  split
  · exact kept_count (kept_noteRow kept)
  · exact kept

theorem kept_execOperandRowAdmit {s₀ s : State} (kept : Kept s₀ s) {die : Fin 24} {arr : Fin 8} :
    Answers s₀ (execOperandRowAdmit die arr s) :=
  answers_of_next (kept_ite (kept_setArr (kept_foldl (fun _ _ kept1 => kept_count kept1) (kept_foldl_fst (fun _ _ kept1 => kept_admitQuad
    kept1) kept))) kept)

theorem kept_noteTileBad {s₀ s : State} (kept : Kept s₀ s) {ctx : Option Nat} {n a j : Nat} : Kept s₀ (s.noteTileBad ctx n a j) :=
  kept_raise (kept_put (kept_put (kept_count kept)))

theorem kept_fixTile {s₀ s : State} (kept : Kept s₀ s) {n : Nat} {p : Nat → Bool} : Kept s₀ (s.fixTile n p) :=
  kept_ite kept (kept_count (kept_with kept))

theorem kept_noteTileRow {s₀ s : State} (kept : Kept s₀ s) {ctx : Option Nat} {n a j m c0 c1 : Nat} :
    Kept s₀ (s.noteTileRow ctx n a j m c0 c1) := kept_foldl (fun _ _ kept1 => kept_noteTileBad kept1) (kept_fixTile kept)

theorem kept_putTileRow {s₀ s : State} (kept : Kept s₀ s) {ctx : Option Nat} {n a j m col : Nat} {vs : List F32} :
    Kept s₀ (s.putTileRow ctx n a j m col vs) := by
  unfold State.putTileRow
  exact kept_foldl (fun _ _ kept1 => kept_raise kept1) (kept_with (kept_tiles kept (wf_putElements _ _ _ _)))

theorem kept_updateRow {s₀ s : State} (kept : Kept s₀ s) {n home : Nat} {o : ArrOp} {f : FlightRow} :
    Kept s₀ (s.updateRow n home o f) := kept_foldl_fst (fun _ _ kept1 => kept_putTileRow (kept_ite kept1 (kept_noteTileRow kept1))) kept

theorem kept_execAccumulatorUpdate {s₀ s : State} (kept : Kept s₀ s) {die : Fin 24} {arr : Fin 8} {quad : Fin 4} :
    Answers s₀ (execAccumulatorUpdate die arr quad s) := by
  unfold execAccumulatorUpdate
  refine answers_of_next ?_
  split
  · exact kept
  · split
    · exact kept
    · exact kept_setArr (kept_updateRow kept)

theorem kept_execActivityLevelStep {s₀ s : State} (kept : Kept s₀ s) {die : Fin 24} {arr : Fin 8} :
    Answers s₀ (execActivityLevelStep die arr s) := answers_of_next (kept_ite (kept_setArr kept) kept)

theorem kept_execFillerOperation {s₀ s : State} (kept : Kept s₀ s) {die : Fin 24} {arr : Fin 8} :
    Answers s₀ (execFillerOperation die arr s) :=
  answers_of_next (kept_ite (kept_setArr (kept_foldl (fun _ _ kept1 => kept_count kept1) kept)) kept)

theorem kept_execFillerIdleTimeout {s₀ s : State} (kept : Kept s₀ s) {die : Fin 24} {arr : Fin 8} :
    Answers s₀ (execFillerIdleTimeout die arr s) := answers_of_next (kept_ite (kept_setArr kept) kept)

theorem kept_cfgRange {s₀ s : State} (kept : Kept s₀ s) {ctx : Option Nat} {detail : Nat} : Kept s₀ (s.cfgRange ctx detail) :=
  kept_raise kept

theorem kept_gated {s₀ s t : State} (kept : Kept s₀ s) (kept1 : Kept s₀ t) {off : Nat} : Kept s₀ (s.gated off t) :=
  kept_ite kept (kept_ite (kept_cfgRange kept) kept1)

theorem kept_puts {s₀ s : State} (kept : Kept s₀ s) {l : List (Fld × Nat)} : Kept s₀ (s.puts l) :=
  kept_foldl (fun _ _ kept1 => kept_put kept1) kept

/-! ### Machine/Version -/

theorem kept_setAdmit {s₀ s : State} (kept : Kept s₀ s) {l g : Nat} {bar : Bool} : Kept s₀ (s.setAdmit l g bar) := kept_puts kept

theorem kept_verResult {s₀ s : State} (kept : Kept s₀ s) {l r : Nat} : Kept s₀ (s.verResult l r) := kept_puts kept

theorem kept_ownDrop {s₀ s : State} (kept : Kept s₀ s) {m : Master} {off : Nat} : Kept s₀ (s.ownDrop m off) :=
  kept_raise (kept_count (kept_puts kept))

theorem kept_execVerAdmitWrite {s₀ s : State} (kept : Kept s₀ s) {m : Master} {l : Fin 96} {gen : BitVec 32} {barrier : Bool} :
    Answers s₀ (execVerAdmitWrite m l gen barrier s) :=
  answers_of_next (kept_gated kept (kept_ite (kept_raise kept) (kept_ite (kept_ownDrop kept) (kept_ite (kept_verResult (kept_setAdmit
    kept)) (kept_verResult (kept_raise kept))))))

theorem kept_permLog {s₀ s : State} (kept : Kept s₀ s) {ld c a n kind : Nat} {wr : Bool} : Kept s₀ (s.permLog ld c a n kind wr) :=
  kept_raise (kept_count (kept_puts kept))

theorem kept_permNote {s₀ s : State} (kept : Kept s₀ s) {ld : Nat → Nat} {c : Nat} {rs : List (Nat × Nat × Bool)} :
    Kept s₀ (s.permNote ld c rs) := by
  unfold State.permNote
  split
  · exact kept_permLog kept
  · exact kept

theorem kept_commit {s₀ s : State} (kept : Kept s₀ s) {fs : List Fld} : Kept s₀ (s.commit fs) :=
  kept_foldl (fun _ _ kept1 => kept_with (kept_put kept1)) kept

theorem kept_vlive {s₀ s : State} (kept : Kept s₀ s) {l i : Nat} : Kept s₀ (s.vlive l i) :=
  kept_ite (kept_put (kept_with (kept_put (kept_commit kept)))) (kept_with (kept_put (kept_commit kept)))

theorem kept_cmdLive {s₀ s : State} (kept : Kept s₀ s) {l i : Nat} : Kept s₀ (s.cmdLive l i) :=
  kept_ite (kept_raise kept) (kept_ite (kept_verResult (kept_raise kept)) (kept_ite (kept_verResult (kept_raise kept)) (kept_ite
    (kept_verResult (kept_raise (kept_permNote kept))) (kept_verResult (kept_vlive kept)))))

theorem kept_execVerCmdLive {s₀ s : State} (kept : Kept s₀ s) {l : Fin 96} {sl : Fin 4} : Answers s₀ (execVerCmdLive l sl s) :=
  answers_of_next (kept_gated kept (kept_cmdLive kept))

theorem kept_ctxEvent {s₀ s : State} (kept : Kept s₀ s) {c b : Nat} : Kept s₀ (s.ctxEvent c b) :=
  kept_ite kept (kept_ite (kept_vector (kept_put kept)) (kept_put kept))

/-! ### Machine/Skw -/

theorem kept_setSkw {s₀ s : State} (kept : Kept s₀ s) {k : Nat} {x : SkwLink} : Kept s₀ (s.setSkw k x) := kept_with kept

theorem kept_skwPut {s₀ s : State} (kept : Kept s₀ s) {k typ : Nat} {body : List Nat} {front : List Byte} :
    Kept s₀ (s.skwPut k typ body front) := kept_emit (kept_setSkw kept)

theorem kept_skwTag {s₀ s : State} (kept : Kept s₀ s) {k : Nat} : Kept s₀ (s.skwTag k) := kept_ite kept (kept_skwPut (kept_setSkw kept))

theorem kept_skwFrame {s₀ s : State} (kept : Kept s₀ s) {k typ : Nat} {body : List Nat} : Kept s₀ (s.skwFrame k typ body) :=
  kept_ite (kept_skwTag (kept_skwPut (kept_setSkw kept))) (kept_skwPut (kept_setSkw kept))

theorem kept_skwPump {s₀ s : State} (kept : Kept s₀ s) {k n : Nat} : Kept s₀ (State.skwPump k n s) := by
  induction n generalizing s with
  | zero => exact kept
  | succ n ih =>
    have tagged : Kept s₀ (if 63 ≤ (s.skw k).block ∨ (s.skw k).marked then s.skwTag k else s) := kept_ite (kept_skwTag kept) kept
    unfold State.skwPump
    generalize (if 63 ≤ (s.skw k).block ∨ (s.skw k).marked then s.skwTag k else s) = t at tagged ⊢
    dsimp only
    split
    · exact tagged
    · refine kept_ite tagged ?_
      split
      · exact tagged
      · exact ih (kept_skwFrame (kept_setSkw tagged))

theorem kept_skwSend {s₀ s : State} (kept : Kept s₀ s) {k cls typ : Nat} {body : List Nat} : Kept s₀ (s.skwSend k cls typ body) :=
  kept_ite (kept_skwPump (kept_setSkw kept)) kept

theorem kept_skwCtrlBytes {s₀ s : State} (kept : Kept s₀ s) {k : Nat} {m : Ctrl} {bs : List Byte} : Kept s₀ (s.skwCtrlBytes k m bs) :=
  kept_skwSend kept

theorem kept_skwCtrl {s₀ s : State} (kept : Kept s₀ s) {k : Nat} {m : Ctrl} {body : List Nat} : Kept s₀ (s.skwCtrl k m body) :=
  kept_skwCtrlBytes kept

/-! ### Machine/Fatal -/

theorem kept_relimit {s₀ s old : State} (kept : Kept s₀ s) : Kept s₀ (s.relimit old) :=
  kept_foldl (fun _ _ kept1 => kept_ite kept1 (kept_with kept1)) kept

theorem kept_fatal {s₀ s : State} (kept : Kept s₀ s) {code : Nat} {w : Where} {detail : Nat} : Kept s₀ (s.fatal code w detail) :=
  kept_ite (kept_raise kept) (kept_relimit (kept_ite (kept_count (kept_foldl (fun _ _ kept1 => kept_skwCtrl kept1) (kept_foldl (fun _ _
    kept1 => kept_ite kept1 (kept_ctxEvent kept1)) (kept_puts (kept_raise kept))))) (kept_with (kept_foldl (fun _ _ kept1 => kept_skwCtrl
    kept1) (kept_foldl (fun _ _ kept1 => kept_ite kept1 (kept_ctxEvent kept1)) (kept_puts (kept_raise kept)))))))

/-! ### Machine/Memory -/

theorem kept_execMemPatrolRead {s₀ s : State} (kept : Kept s₀ s) {a : BitVec 48} {err : Fin 5} {last : Bool} :
    Answers s₀ (execMemPatrolRead a err last s) := by
  unfold execMemPatrolRead
  refine answers_of_next ?_
  split
  · exact kept
  · exact kept_ite kept (kept_ite (kept_count (kept_ite (kept_logAs kept) (kept_ite (kept_fatal kept) (kept_ite (kept_noteBad (kept_markBad
      kept)) (kept_ite (kept_fixWord kept) kept))))) (kept_ite (kept_logAs kept) (kept_ite (kept_fatal kept) (kept_ite (kept_noteBad
      (kept_markBad kept)) (kept_ite (kept_fixWord kept) kept)))))

theorem kept_execFarTierEcsPass {s₀ s : State} (kept : Kept s₀ s) {f : Fin 2} {errs : BitVec 16} :
    Answers s₀ (execFarTierEcsPass f errs s) := answers_of_next (kept_ite kept (kept_count kept))

theorem kept_execMemWcommit {s₀ s : State} (kept : Kept s₀ s) {c : Fin 64} : Answers s₀ (execMemWcommit c s) := by
  unfold execMemWcommit
  refine answers_of_next (kept_gated kept (kept_ite (kept_cfgRange kept) (kept_ite (kept_puts (kept_raise kept)) ?_)))
  split
  · exact kept_puts (kept_raise kept)
  · exact kept_puts (kept_with (kept_commit kept))

theorem kept_execMemWcommitDone {s₀ s : State} (kept : Kept s₀ s) : Answers s₀ (execMemWcommitDone s) :=
  answers_of_next (kept_ite (kept_puts (kept_with kept)) kept)

theorem kept_replace {s₀ s t : State} (kept : Kept s₀ t) : Kept s₀ (s.replace t) := by
  unfold State.replace
  exact kept_with (kept_mem kept (fun _ => wf_foldl_put _ _ rfl))

theorem kept_execHbmGcommit {s₀ s : State} (kept : Kept s₀ s) {g : Fin 8} : Answers s₀ (execHbmGcommit g s) :=
  answers_of_next (kept_gated kept (kept_ite (kept_cfgRange kept) (kept_ite (kept_puts (kept_raise kept)) (kept_puts (kept_replace
    (kept_commit kept))))))

theorem kept_execFarBuddyWrite {s₀ s : State} (kept : Kept s₀ s) {m : Master} {f : Fin 2} {size : Bool} {v : BitVec 48} :
    Answers s₀ (execFarBuddyWrite m f size v s) :=
  answers_of_next (kept_gated kept (kept_ite (kept_ownDrop kept) (kept_ite (kept_cfgRange kept) (kept_put kept))))

/-! ### Machine/FlumeOps -/

theorem kept_flmSync {s₀ s : State} (kept : Kept s₀ s) {f : Nat} : Kept s₀ (s.flmSync f) := kept_put kept

theorem kept_setFlm {s₀ s : State} (kept : Kept s₀ s) {f : Nat} {x : Flume} : Kept s₀ (s.setFlm f x) := kept_flmSync (kept_setFlume kept)

theorem kept_commitRec {s₀ s : State} (kept : Kept s₀ s) {f : Nat} {p : FlmRec → Bool} : Kept s₀ (s.commitRec f p).1 := by
  unfold State.commitRec
  dsimp only
  split
  · exact kept
  · exact kept_ite (kept_count (kept_count (kept_put (kept_setFlm kept)))) (kept_count (kept_put (kept_setFlm kept)))

theorem kept_arriveCommit {s₀ s : State} (kept : Kept s₀ s) {f : Nat} : Kept s₀ (s.arriveCommit f) := kept_commitRec kept

/-! ### Machine/Flume -/

theorem kept_recFrames {s₀ s : State} (kept : Kept s₀ s) {f : Nat} {r : FlmRec} : Kept s₀ (s.recFrames f r) :=
  kept_foldl (fun _ _ kept1 => kept_skwSend kept1) (kept_skwSend (kept_noteRead kept))

theorem kept_sendRemote {s₀ s : State} (kept : Kept s₀ s) {f : Nat} : Kept s₀ (s.sendRemote f) :=
  kept_ite (kept_ite kept (kept_ite (kept_foldl (fun _ _ kept1 => kept_recFrames kept1) (kept_setFlm kept)) (kept_setFlm kept))) kept

theorem kept_execFlmCommitArrival {s₀ s : State} (kept : Kept s₀ s) {f : Fin 8192} : Answers s₀ (execFlmCommitArrival f s) := by
  unfold execFlmCommitArrival
  refine answers_of_next (kept_sendRemote (kept_arriveCommit ?_))
  split
  · exact kept_ackPkt kept
  · exact kept

theorem kept_execFlmReadyNotice {s₀ s : State} (kept : Kept s₀ s) {f : Fin 8192} : Answers s₀ (execFlmReadyNotice f s) :=
  answers_of_next (kept_setFlm kept)

theorem kept_execFlmCreditReturn {s₀ s : State} (kept : Kept s₀ s) {f : Fin 8192} : Answers s₀ (execFlmCreditReturn f s) :=
  answers_of_next (kept_ite (kept_setFlm kept) kept)

theorem kept_execFlmSpillCopy {s₀ s : State} (kept : Kept s₀ s) {f : Fin 8192} : Answers s₀ (execFlmSpillCopy f s) := by
  unfold execFlmSpillCopy
  refine answers_of_next ?_
  split
  · exact kept_setFlm kept
  · exact kept

theorem kept_copyGranules {s₀ s : State} (kept : Kept s₀ s) {n src dst : Nat} : Kept s₀ (State.copyGranules n s src dst) := by
  induction n generalizing s src dst with
  | zero => exact kept
  | succ n ih => exact ih (kept_copyGranule kept)

theorem kept_execFlmSpillCopyDone {s₀ s : State} (kept : Kept s₀ s) {f : Fin 8192} : Answers s₀ (execFlmSpillCopyDone f s) := by
  unfold execFlmSpillCopyDone
  refine answers_of_next ?_
  split
  · exact kept
  · split
    · exact kept_setFlm kept
    · exact kept_setFlm (kept_copyGranules (kept_noteRead kept))

theorem kept_execFlmCmdClear {s₀ s : State} (kept : Kept s₀ s) {f : Fin 8192} : Answers s₀ (execFlmCmdClear f s) :=
  answers_of_next (kept_gated kept (kept_ite (kept_raise kept) (kept_puts kept)))

theorem kept_closeFlume {s₀ s : State} (kept : Kept s₀ s) {f : Nat} : Kept s₀ (s.closeFlume f) := by
  unfold State.closeFlume
  refine kept_ite ?_ kept
  dsimp only
  split
  · exact kept_skwCtrl (kept_setFlm (kept_put (kept_count kept)))
  · exact kept_setFlm (kept_put (kept_count kept))

theorem kept_execFlmCmdClose {s₀ s : State} (kept : Kept s₀ s) {f : Fin 8192} : Answers s₀ (execFlmCmdClose f s) :=
  answers_of_next (kept_gated kept (kept_ite (kept_raise kept) (kept_closeFlume kept)))

theorem kept_execFlmCloseDone {s₀ s : State} (kept : Kept s₀ s) {f : Fin 8192} : Answers s₀ (execFlmCloseDone f s) :=
  answers_of_next (kept_ite (kept_put kept) kept)

theorem kept_openMsg {s₀ s : State} (kept : Kept s₀ s) {f : Nat} {m : Ctrl} : Kept s₀ (s.openMsg f m) := kept_skwCtrl kept

theorem kept_openFlume {s₀ s : State} (kept : Kept s₀ s) {f : Nat} : Kept s₀ (s.openFlume f) :=
  kept_ite (kept_openMsg (kept_setFlume (kept_puts (kept_put kept)))) (kept_setFlume (kept_puts (kept_put kept)))

theorem kept_execFlmCommit {s₀ s : State} (kept : Kept s₀ s) {f : Fin 8192} : Answers s₀ (execFlmCommit f s) :=
  answers_of_next (kept_gated kept (kept_ite (kept_raise kept) (kept_ite (kept_cfgRange kept) (kept_ite (kept_puts (kept_raise kept))
    (kept_ite (kept_puts (kept_commit (kept_closeFlume kept))) (kept_ite (kept_puts (kept_raise kept)) (kept_ite (kept_puts (kept_raise
    (kept_permNote kept))) (kept_puts (kept_flmSync (kept_ite (kept_openFlume (kept_commit kept)) (kept_commit kept)))))))))))

theorem kept_setSap {s₀ s : State} (kept : Kept s₀ s) {n : Nat} {x : Sap} : Kept s₀ (s.setSap n x) := kept_with kept

/-! ### Machine/Sap -/

theorem kept_execSapVectorCopied {s₀ s : State} (kept : Kept s₀ s) {die : Fin 24} : Answers s₀ (execSapVectorCopied die s) := by
  unfold execSapVectorCopied
  refine answers_of_next ?_
  split
  · exact kept
  · exact kept_ite kept (kept_setSap (kept_foldl (fun _ _ kept1 => kept_noteRow kept1) kept))

theorem kept_crossFrom {s₀ s : State} (kept : Kept s₀ s) {src x a n : Nat} : Kept s₀ (s.crossFrom src x a n) :=
  kept_ackAll (kept_sendAll kept)

theorem kept_unitAdmit {s₀ s : State} (kept : Kept s₀ s) {n u : Nat} : Kept s₀ (s.unitAdmit n u) := kept_with kept

theorem kept_execSapWeightStep {s₀ s : State} (kept : Kept s₀ s) {die : Fin 24} : Answers s₀ (execSapWeightStep die s) := by
  unfold execSapWeightStep
  refine answers_of_next ?_
  split
  · exact kept
  · split
    · exact kept
    · refine kept_ite kept (kept_setSap (kept_unitAdmit (kept_count (kept_count (kept_ite (kept_foldl (fun _ _ kept1 => kept_noteRead
        kept1) (kept_foldl (fun _ _ kept1 => ?_) kept)) (kept_foldl (fun _ _ kept1 => ?_) kept))))))
      · split
        · exact kept_crossFrom (kept_noteUse kept1)
        · exact kept_foldl (fun _ _ kept2 => kept_raise kept2) kept1
      · split
        · exact kept_crossFrom (kept_noteUse kept1)
        · exact kept_foldl (fun _ _ kept2 => kept_raise kept2) kept1

theorem kept_tsPut {s₀ s : State} (kept : Kept s₀ s) {c : Option Nat} {n off : Nat} {bs : List Byte} : Kept s₀ (s.tsPut c n off bs) :=
  kept_ite (kept_logAs (kept_write kept)) (kept_write kept)

theorem kept_execSapGroupWrite {s₀ s : State} (kept : Kept s₀ s) {die : Fin 24} : Answers s₀ (execSapGroupWrite die s) := by
  unfold execSapGroupWrite
  refine answers_of_next ?_
  split
  · exact kept
  · exact kept_ite (kept_setSap (kept_foldl (fun _ _ kept1 => kept_tsPut kept1) kept)) kept

theorem kept_execSapComplete {s₀ s : State} (kept : Kept s₀ s) {die : Fin 24} : Answers s₀ (execSapComplete die s) := by
  unfold execSapComplete
  refine answers_of_next ?_
  split
  · exact kept
  · exact kept_ite (kept_signal (kept_setSap kept)) kept

theorem kept_setGlz {s₀ s : State} (kept : Kept s₀ s) {n v : Nat} {x : Glz} : Kept s₀ (s.setGlz n v x) := kept_with kept

/-! ### Machine/Glaze -/

theorem kept_execGlzTblComplete {s₀ s : State} (kept : Kept s₀ s) {die : Fin 24} {v : Fin 2} :
    Answers s₀ (execGlzTblComplete die v s) := by
  unfold execGlzTblComplete
  refine answers_of_next ?_
  split
  · exact kept_ite (kept_signal (kept_setGlz (kept_noteRead kept))) kept
  · exact kept

theorem kept_execGlzChainStart {s₀ s : State} (kept : Kept s₀ s) {die : Fin 24} {v : Fin 2} : Answers s₀ (execGlzChainStart die v s) := by
  unfold execGlzChainStart
  refine answers_of_next ?_
  split
  · exact kept_setGlz kept
  · exact kept

theorem kept_glzCount {s₀ s : State} (kept : Kept s₀ s) {flag cnt : Fld} {q k : Nat} : Kept s₀ (s.glzCount flag cnt q k) :=
  kept_ite kept (kept_count (kept_ite kept (kept_put kept)))

theorem kept_glzOvf {s₀ s : State} (kept : Kept s₀ s) {k c : Nat} : Kept s₀ (s.glzOvf k c) := kept_glzCount kept

theorem kept_glzInv {s₀ s : State} (kept : Kept s₀ s) {k c : Nat} : Kept s₀ (s.glzInv k c) := kept_glzCount kept

theorem kept_glzSat {s₀ s : State} (kept : Kept s₀ s) {k c : Nat} {tag : Option Nat} : Kept s₀ (s.glzSat k c tag) := by
  unfold State.glzSat
  dsimp only
  split
  · exact kept_ite (kept_glzCount kept) (kept_count (kept_glzCount kept))
  · exact kept_glzCount kept

theorem kept_noteGroup {s₀ s : State} (kept : Kept s₀ s) {c : Chain} {g : Nat} : Kept s₀ (c.noteGroup s g) := by
  unfold Chain.noteGroup
  refine kept_foldl (fun _ _ kept1 => ?_) kept
  split
  exacts [kept_foldl (fun _ _ kept2 => kept_noteTileRow kept2) kept1, kept_foldl (fun _ _ kept2 => kept_foldl (fun _ _ kept3 =>
    kept_noteRead kept3) kept2) kept1, kept_ite (kept_foldl (fun _ _ kept2 => kept_noteRead kept2) kept1) kept1, kept_foldl (fun _ _ kept2
    => kept_noteRead kept2) kept1, kept1]

theorem kept_execGlzGroupEnter {s₀ s : State} (kept : Kept s₀ s) {die : Fin 24} {v : Fin 2} : Answers s₀ (execGlzGroupEnter die v s) := by
  unfold execGlzGroupEnter
  refine answers_of_next ?_
  split
  · exact kept
  · exact kept_ite (kept_setGlz (kept_unitAdmit (kept_count (kept_glzSat (kept_glzInv (kept_glzOvf (kept_noteGroup kept))))))) kept

theorem kept_glzNonfin {s₀ s : State} (kept : Kept s₀ s) {k c tag : Nat} : Kept s₀ (s.glzNonfin k c tag) :=
  kept_ite (kept_glzCount kept) (kept_count (kept_glzCount kept))

theorem kept_stepAmax {s₀ s : State} (kept : Kept s₀ s) {n i : Nat} {ls : List Lane} : Kept s₀ (s.stepAmax n i ls) := kept_put kept

theorem kept_sinkRow {s₀ s : State} (kept : Kept s₀ s) {c : Chain} {x : GSink} {m : Nat} {ls : List Lane} :
    Kept s₀ (s.sinkRow c x m ls) :=
  kept_ite (kept_glzNonfin (kept_foldl (fun _ _ kept1 => kept_putTileRow kept1) kept)) (kept_ite (kept_glzNonfin (kept_foldl (fun _ _ kept1
    => kept_tsPut kept1) kept)) (kept_ite (kept_glzNonfin (kept_glzOvf (kept_foldl (fun _ _ kept1 => kept_tsPut kept1) kept)))
    (kept_glzNonfin (kept_ite (kept_stepAmax (kept_glzSat (kept_tsPut (kept_tsPut kept)))) (kept_glzSat (kept_tsPut (kept_tsPut kept)))))))

theorem kept_writeGroup {s₀ s : State} (kept : Kept s₀ s) {c : Chain} {lanes : List Lane} : Kept s₀ (s.writeGroup c lanes) := by
  unfold State.writeGroup
  refine kept_foldl (fun _ _ kept1 => kept_ite kept1 (kept_foldl (fun _ _ kept2 => ?_) kept1)) kept
  split
  · exact kept2
  · exact kept_sinkRow kept2

theorem kept_execGlzGroupWrite {s₀ s : State} (kept : Kept s₀ s) {die : Fin 24} {v : Fin 2} : Answers s₀ (execGlzGroupWrite die v s) := by
  unfold execGlzGroupWrite
  refine answers_of_next ?_
  split
  · exact kept
  · split
    · exact kept
    · exact kept_ite (kept_setGlz (kept_writeGroup kept)) kept

theorem kept_execGlzChainComplete {s₀ s : State} (kept : Kept s₀ s) {die : Fin 24} {v : Fin 2} :
    Answers s₀ (execGlzChainComplete die v s) := by
  unfold execGlzChainComplete
  refine answers_of_next ?_
  split
  · exact kept_ite (kept_signal (kept_setGlz (kept_ite kept (kept_glzInv (kept_tsPut (kept_ite (kept_noteRead kept) kept)))))) kept
  · exact kept

theorem kept_setSeqState {s₀ s : State} (kept : Kept s₀ s) {k v : Nat} : Kept s₀ (s.setSeqState k v) :=
  kept_put (kept_ite (kept_put kept) kept)

theorem kept_setPc {s₀ s : State} (kept : Kept s₀ s) {k v : Nat} : Kept s₀ (s.setPc k v) := kept_put (kept_put (kept_modSeq kept))

theorem kept_stopIssue {s₀ s : State} (kept : Kept s₀ s) {k : Nat} : Kept s₀ (s.stopIssue k) :=
  kept_with (kept_put (kept_put (kept_modSeq kept)))

/-! ### Machine/SeqCtl -/

theorem kept_dropLoads {s₀ s : State} (kept : Kept s₀ s) {k : Nat} : Kept s₀ (s.dropLoads k) :=
  kept_modSeq (kept_foldl (fun _ _ kept1 => kept_ackPkt kept1) kept)

theorem kept_unbindSeq {s₀ s : State} (kept : Kept s₀ s) {k : Nat} : Kept s₀ (s.unbindSeq k) :=
  kept_setSeqState (kept_puts (kept_setPc (kept_modSeq (kept_dropLoads (kept_stopIssue kept)))))

theorem kept_startLoad {s₀ s : State} (kept : Kept s₀ s) {k : Nat} : Kept s₀ (s.startLoad k) :=
  kept_put (kept_setSeqState (kept_stopIssue kept))

theorem kept_execSeqBcommit {s₀ s : State} (kept : Kept s₀ s) {die : Fin 24} {q : Fin 4} : Answers s₀ (execSeqBcommit die q s) :=
  answers_of_next (kept_gated kept (kept_ite (kept_raise kept) (kept_ite (kept_cfgRange kept) (kept_ite (kept_puts (kept_raise kept))
    (kept_ite (kept_startLoad (kept_puts (kept_commit (kept_ite (kept_setSeqState (kept_ite kept (kept_unbindSeq kept))) (kept_ite kept
    (kept_unbindSeq kept)))))) (kept_puts (kept_commit (kept_ite (kept_setSeqState (kept_ite kept (kept_unbindSeq kept))) (kept_ite kept
    (kept_unbindSeq kept))))))))))

theorem kept_logDown {s₀ s : State} (kept : Kept s₀ s) {ctx : Option Nat} {at' : Nat → Nat → Where} {a n : Nat} :
    Kept s₀ (s.logDown ctx at' a n) := by
  unfold State.logDown
  refine kept_foldl (fun _ _ kept1 => ?_) kept
  split
  · exact kept_raise kept1
  · exact kept1

theorem kept_readNote {s₀ s : State} (kept : Kept s₀ s) {ctx : Option Nat} {at' : Nat → Nat → Where} {a n : Nat} :
    Kept s₀ (s.readNote ctx at' a n) :=
  kept_foldl (fun _ _ kept1 => kept_noteBad kept1) (kept_foldl (fun _ _ kept1 => kept_fixWord kept1) (kept_logDown kept))

theorem kept_loadNotes {s₀ s : State} (kept : Kept s₀ s) {k : Nat} : Kept s₀ (s.loadNotes k) :=
  kept_foldl (fun _ _ kept1 => kept_crossFrom (kept_readNote kept1)) kept

theorem kept_execSeqLoadComplete {s₀ s : State} (kept : Kept s₀ s) {die : Fin 24} {q : Fin 4} :
    Answers s₀ (execSeqLoadComplete die q s) :=
  answers_of_next (kept_ite kept (kept_ite (kept_ite (kept_with (kept_setSeqState (kept_setSeqState (kept_put (kept_setPc (kept_modSeq
    (kept_put (kept_put (kept_put (kept_put (kept_ite (kept_write (kept_permNote (kept_loadNotes kept))) (kept_permNote (kept_loadNotes
    kept))))))))))))) (kept_setSeqState (kept_put (kept_setPc (kept_modSeq (kept_put (kept_put (kept_put (kept_put (kept_ite (kept_write
    (kept_permNote (kept_loadNotes kept))) (kept_permNote (kept_loadNotes kept)))))))))))) (kept_setSeqState (kept_with (kept_raise
    (kept_put (kept_modSeq (kept_put (kept_put (kept_put (kept_put (kept_ite (kept_write (kept_permNote (kept_loadNotes kept)))
    (kept_permNote (kept_loadNotes kept))))))))))))))

theorem kept_dieGated {s₀ s t : State} (kept : Kept s₀ s) (kept1 : Kept s₀ t) {n off : Nat} : Kept s₀ (s.dieGated n off t) :=
  kept_gated kept (kept_ite (kept_raise kept) (kept_ite (kept_raise kept) kept1))

theorem kept_cmdIgnored {s₀ s : State} (kept : Kept s₀ s) {k : Nat} : Kept s₀ (s.cmdIgnored k) := kept_raise kept

theorem kept_execSeqCmdRun {s₀ s : State} (kept : Kept s₀ s) {die : Fin 24} {q : Fin 4} : Answers s₀ (execSeqCmdRun die q s) :=
  answers_of_next (kept_dieGated kept (kept_ite (kept_ite (kept_setSeqState kept) (kept_setSeqState (kept_stopIssue kept)))
    (kept_cmdIgnored kept)))

theorem kept_execSeqCmdHalt {s₀ s : State} (kept : Kept s₀ s) {die : Fin 24} {q : Fin 4} : Answers s₀ (execSeqCmdHalt die q s) :=
  answers_of_next (kept_dieGated kept (kept_ite (kept_setSeqState (kept_stopIssue kept)) (kept_cmdIgnored kept)))

theorem kept_faulted {s₀ s : State} (kept : Kept s₀ s) {k : Nat} : Kept s₀ (s.faulted k) :=
  kept_ctxEvent (kept_ite (kept_setSeqState kept) (kept_put (kept_setSeqState kept)))

theorem kept_takeExc {s₀ s : State} (kept : Kept s₀ s) {k slot : Nat} {x : Exc} : Kept s₀ (s.takeExc k slot x) := by
  unfold State.takeExc
  refine kept_ite (kept_setPc (kept_put (kept_modSeq (kept_puts (kept_stopIssue (kept_ite (kept_put (kept_count (kept_ite ?_ (kept_raise
    ?_)))) (kept_ite ?_ (kept_raise ?_)))))))) (kept_faulted (kept_puts (kept_stopIssue (kept_ite (kept_put (kept_count (kept_ite ?_
    (kept_raise ?_)))) (kept_ite ?_ (kept_raise ?_))))))
  · split
    · exact kept_permLog kept
    · exact kept
  · split
    · exact kept_permLog kept
    · exact kept
  · split
    · exact kept_permLog kept
    · exact kept
  · split
    · exact kept_permLog kept
    · exact kept
  · split
    · exact kept_permLog kept
    · exact kept
  · split
    · exact kept_permLog kept
    · exact kept
  · split
    · exact kept_permLog kept
    · exact kept
  · split
    · exact kept_permLog kept
    · exact kept

theorem kept_sput {s₀ s : State} (kept : Kept s₀ s) {f : Fld} {v : Nat} : Kept s₀ (s.sput f v) := kept_with kept

theorem kept_wA {s₀ s : State} (kept : Kept s₀ s) {k : Nat} {r : BitVec 4} {v : Addr} : Kept s₀ (s.wA k r v) := kept_modSeq kept

theorem kept_wP {s₀ s : State} (kept : Kept s₀ s) {k : Nat} {r : BitVec 3} {v : Bool} : Kept s₀ (s.wP k r v) := kept_modSeq kept

theorem kept_reserve {s₀ s : State} (kept : Kept s₀ s) {owner f : Nat} : Kept s₀ (s.reserve owner f).1 := by
  unfold State.reserve
  split
  · exact kept
  · exact kept_setFlm kept

theorem kept_sendCommit {s₀ s : State} (kept : Kept s₀ s) {owner f : Nat} {h : Hdr} : Kept s₀ (s.sendCommit owner f h) := kept_setFlm kept

theorem kept_releaseRec {s₀ s : State} (kept : Kept s₀ s) {holder f : Nat} : Kept s₀ (s.releaseRec holder f) := by
  unfold State.releaseRec
  dsimp only
  split
  · exact kept
  · exact kept_ite (kept_skwSend (kept_setFlm kept)) (kept_setFlm kept)

/-! ### Machine/Order -/

theorem kept_nextIno {s₀ s : State} (kept : Kept s₀ s) {k : Nat} : Kept s₀ (s.nextIno k) := kept_modSeq kept

theorem kept_mergeNote {s₀ s : State} (kept : Kept s₀ s) {ctx : Option Nat} {a n : Nat} : Kept s₀ (s.mergeNote ctx a n) := by
  unfold State.mergeNote
  refine kept_ite ?_ (kept_foldl (fun _ _ kept1 => kept_noteBad kept1) ?_)
  · split
    · exact kept_ite (kept_logAs kept) kept
    · exact kept
  · split
    · exact kept_ite (kept_logAs kept) kept
    · exact kept

theorem kept_tsDo {s₀ s : State} (kept : Kept s₀ s) {k : Nat} {t : TsAcc} : Kept s₀ (s.tsDo k t) :=
  kept_ite (kept_ite (kept_logAs (kept_write kept)) (kept_write kept)) (kept_wS (kept_noteUse kept))

theorem kept_tsAccess {s₀ s : State} (kept : Kept s₀ s) {k : Nat} {t : TsAcc} : Kept s₀ (s.tsAccess k t) :=
  kept_ite (kept_tsDo kept) (kept_nextIno (kept_modSeq kept))

theorem kept_sampleLoads {s₀ s : State} (kept : Kept s₀ s) {k a n : Nat} : Kept s₀ (s.sampleLoads k a n) := by
  unfold State.sampleLoads
  refine kept_modSeq (kept_foldl_fst (p := (s, [])) (fun _ _ kept1 => ?_) kept)
  exact kept_fst_ite (kept_sampleLoad kept1) kept1

theorem kept_fixExp {s₀ s : State} (kept : Kept s₀ s) {n : Nat} {l : List (Nat × Nat)} : Kept s₀ (s.fixExp n l) :=
  kept_foldl (fun _ _ kept1 => kept_fixSoft kept1) kept

theorem kept_formRaft {s₀ s : State} (kept : Kept s₀ s) {n q sz : Nat} : Kept s₀ (s.formRaft n q sz) := kept_with (kept_setArr kept)

theorem kept_dissolveRaft {s₀ s : State} (kept : Kept s₀ s) {n q : Nat} : Kept s₀ (s.dissolveRaft n q) :=
  kept_with (kept_foldl (fun _ _ kept1 => kept_setArr kept1) kept)

theorem kept_vbuild {s₀ s : State} (kept : Kept s₀ s) {l i g : Nat} : Kept s₀ (s.vbuild l i g) := kept_puts kept

theorem kept_vrefill {s₀ s : State} (kept : Kept s₀ s) {l i g : Nat} : Kept s₀ (s.vrefill l i g) := kept_with (kept_vbuild kept)

theorem kept_vunpin {s₀ s : State} (kept : Kept s₀ s) {l i : Nat} : Kept s₀ (s.vunpin l i) :=
  kept_ite (kept_ite (kept_vrefill (kept_put kept)) (kept_put (kept_put kept))) (kept_put kept)

theorem kept_vdrain {s₀ s : State} (kept : Kept s₀ s) {l i : Nat} : Kept s₀ (s.vdrain l i) := kept_put kept

theorem kept_vswitch {s₀ s : State} (kept : Kept s₀ s) {l g : Nat} : Kept s₀ (s.vswitch l g) := by
  unfold State.vswitch
  dsimp only
  split
  · exact kept_foldl (fun _ _ kept1 => kept_ite (kept_vdrain kept1) kept1) kept
  · exact kept_ite (kept_vrefill (kept_foldl (fun _ _ kept1 => kept_ite (kept_vdrain kept1) kept1) kept)) (kept_puts (kept_foldl (fun _ _
      kept1 => kept_ite (kept_vdrain kept1) kept1) kept))

theorem kept_pointerIn {s₀ s : State} (kept : Kept s₀ s) {l : Nat} : Kept s₀ (s.pointerIn l) :=
  kept_ite (kept_put (kept_vswitch (kept_puts kept))) (kept_vswitch (kept_puts kept))

theorem kept_batchClose {s₀ s : State} (kept : Kept s₀ s) {l : Nat} : Kept s₀ (s.batchClose l) :=
  kept_ite (kept_pointerIn (kept_put kept)) (kept_put kept)

theorem kept_admitStart {s₀ s : State} (kept : Kept s₀ s) {l : Nat} : Kept s₀ (s.admitStart l) := kept_ite (kept_pointerIn kept) kept

theorem kept_verFail {s₀ s : State} (kept : Kept s₀ s) {k : Nat} {f : Option Nat} {g mb cause : Nat} :
    Kept s₀ (s.verFail k f g mb cause) := by
  unfold State.verFail
  refine kept_raise (kept_puts (kept_ite (kept_count ?_) (kept_count ?_)))
  · split
    · exact kept
    · exact kept_setFlume kept
  · split
    · exact kept
    · exact kept_setFlume kept

theorem kept_phaseClash {s₀ s : State} (kept : Kept s₀ s) {k f p : Nat} {l : List (Nat × Nat)} : Kept s₀ (s.phaseClash k f p l) :=
  kept_ite (kept_raise kept) kept

theorem kept_noteSent {s₀ s : State} (kept : Kept s₀ s) {k f p : Nat} : Kept s₀ (s.noteSent k f p) := kept_phaseClash (kept_with kept)

theorem kept_takeRec {s₀ s : State} (kept : Kept s₀ s) {holder f : Nat} : Kept s₀ (s.takeRec holder f) := by
  unfold State.takeRec
  dsimp only
  split
  · exact kept
  · exact kept_put (kept_setFlm kept)

theorem kept_toHB {s₀ s : State} (kept : Kept s₀ s) {k f : Nat} {h : Hdr} : Kept s₀ (s.toHB k f h) := kept_modSeq kept

theorem kept_noteTaken {s₀ s : State} (kept : Kept s₀ s) {k f p : Nat} : Kept s₀ (s.noteTaken k f p) := kept_phaseClash (kept_with kept)

theorem kept_seqTake {s₀ s : State} (kept : Kept s₀ s) {k f : Nat} : Kept s₀ (s.seqTake k f).1 := by
  unfold State.seqTake
  split
  · exact kept
  · exact kept_ite (kept_noteTaken (kept_toHB (kept_takeRec kept))) (kept_toHB (kept_takeRec kept))

theorem kept_glzPush {s₀ s : State} (kept : Kept s₀ s) {k : Nat} {i : GlzItem} : Kept s₀ (s.glzPush k i) := kept_nextIno (kept_setGlz kept)

/-! ### Machine/Issue -/

theorem kept_flow {s₀ s : State} (kept : Kept s₀ s) {k : Nat} {c : Ctl} : Kept s₀ (s.flow k c) := by
  unfold State.flow
  dsimp only
  split
  exacts [kept_setPc (kept_modSeq kept), kept_setPc (kept_modSeq kept), kept_setPc kept, kept_ite (kept_setPc (kept_modSeq kept))
    (kept_setPc (kept_modSeq kept)), kept_setSeqState (kept_setPc (kept_modSeq kept)), kept_setPc kept]

/-- An instruction's effect leaves the state that it changes as a command may leave it. -/
def SlotOp.Keeps (o : SlotOp) : Prop := ∀ {s₀ s : State}, Kept s₀ s → ∀ pre : State, Kept s₀ (o.eff pre s)

theorem keeps_some {o p : SlotOp} (keeps : o.Keeps) (same : some o = some p) : p.Keeps := by
  cases same
  exact keeps


theorem keeps_opNop : opNop.Keeps := fun kept _ => kept

theorem keeps_opBr {k : Nat} {target : BitVec 14} : (opBr k target).Keeps := fun kept _ => kept

theorem keeps_opBrS {k : Nat} {rs : BitVec 5} : (opBrS k rs).Keeps := fun kept _ => kept

theorem keeps_opCall {k : Nat} {target : BitVec 14} : (opCall k target).Keeps := fun kept _ => kept_modSeq kept

theorem keeps_opRet {k : Nat} : (opRet k).Keeps := fun kept _ => kept_modSeq kept

theorem keeps_opLoop {k : Nat} {rs : BitVec 5} {last : BitVec 14} : (opLoop k rs last).Keeps := fun kept _ => kept

theorem keeps_opHalt : opHalt.Keeps := fun kept _ => kept

theorem keeps_opTrapRet {k : Nat} {mode : Bool} : (opTrapRet k mode).Keeps := fun kept _ => kept_put kept

theorem keeps_opEvtSig {k : Nat} {tq : BitVec 2} {e : BitVec 3} {n : BitVec 16} : (opEvtSig k tq e n).Keeps :=
  fun kept _ => kept_modSeq kept

theorem keeps_opEvtWait {k : Nat} {e : BitVec 3} {n : BitVec 16} : (opEvtWait k e n).Keeps := fun kept _ => kept_modSeq kept

theorem keeps_opWchSet {k : Nat} {idx : BitVec 3} {kind : BitVec 2} {o : FlumeOp} {e : BitVec 3} : (opWchSet k idx kind o e).Keeps :=
  fun kept _ => kept_modSeq kept

theorem keeps_opWaitAny {k : Nat} {sd : BitVec 5} : (opWaitAny k sd).Keeps := fun kept _ => kept_wS kept

theorem keeps_opWaitIdle {k : Nat} {arrays glaze sap dma : Bool} : (opWaitIdle k arrays glaze sap dma).Keeps := fun kept _ => kept

theorem keeps_opAdd {k : Nat} {rd ra rb : BitVec 5} : (opAdd k rd ra rb).Keeps := fun kept _ => kept_wS kept

theorem keeps_opSub {k : Nat} {rd ra rb : BitVec 5} : (opSub k rd ra rb).Keeps := fun kept _ => kept_wS kept

theorem keeps_opAnd {k : Nat} {rd ra rb : BitVec 5} : (opAnd k rd ra rb).Keeps := fun kept _ => kept_wS kept

theorem keeps_opOr {k : Nat} {rd ra rb : BitVec 5} : (opOr k rd ra rb).Keeps := fun kept _ => kept_wS kept

theorem keeps_opXor {k : Nat} {rd ra rb : BitVec 5} : (opXor k rd ra rb).Keeps := fun kept _ => kept_wS kept

theorem keeps_opShl {k : Nat} {rd ra rb : BitVec 5} : (opShl k rd ra rb).Keeps := fun kept _ => kept_wS kept

theorem keeps_opShr {k : Nat} {rd ra rb : BitVec 5} : (opShr k rd ra rb).Keeps := fun kept _ => kept_wS kept

theorem keeps_opSra {k : Nat} {rd ra rb : BitVec 5} : (opSra k rd ra rb).Keeps := fun kept _ => kept_wS kept

theorem keeps_opMul {k : Nat} {rd ra rb : BitVec 5} : (opMul k rd ra rb).Keeps := fun kept _ => kept_wS kept

theorem keeps_opMin {k : Nat} {rd ra rb : BitVec 5} : (opMin k rd ra rb).Keeps := fun kept _ => kept_wS kept

theorem keeps_opMax {k : Nat} {rd ra rb : BitVec 5} : (opMax k rd ra rb).Keeps := fun kept _ => kept_wS kept

theorem keeps_opAddi {k : Nat} {rd ra : BitVec 5} {imm : BitVec 32} : (opAddi k rd ra imm).Keeps := fun kept _ => kept_wS kept

theorem keeps_opMovi {k : Nat} {rd : BitVec 5} {imm : BitVec 32} : (opMovi k rd imm).Keeps := fun kept _ => kept_wS kept

theorem keeps_opMovhi {k : Nat} {rd : BitVec 5} {imm : BitVec 32} : (opMovhi k rd imm).Keeps := fun kept _ => kept_wS kept

theorem keeps_opAndi {k : Nat} {rd ra : BitVec 5} {imm : BitVec 32} : (opAndi k rd ra imm).Keeps := fun kept _ => kept_wS kept

theorem keeps_opCmpEq {k : Nat} {pd : BitVec 3} {ra : BitVec 5} {o : CmpOp} : (opCmpEq k pd ra o).Keeps := fun kept _ => kept_wP kept

theorem keeps_opCmpNe {k : Nat} {pd : BitVec 3} {ra : BitVec 5} {o : CmpOp} : (opCmpNe k pd ra o).Keeps := fun kept _ => kept_wP kept

theorem keeps_opCmpLt {k : Nat} {pd : BitVec 3} {ra : BitVec 5} {o : CmpOp} : (opCmpLt k pd ra o).Keeps := fun kept _ => kept_wP kept

theorem keeps_opCmpLtu {k : Nat} {pd : BitVec 3} {ra : BitVec 5} {o : CmpOp} : (opCmpLtu k pd ra o).Keeps := fun kept _ => kept_wP kept

theorem keeps_opCmpLe {k : Nat} {pd : BitVec 3} {ra : BitVec 5} {o : CmpOp} : (opCmpLe k pd ra o).Keeps := fun kept _ => kept_wP kept

theorem keeps_opCmpLeu {k : Nat} {pd : BitVec 3} {ra : BitVec 5} {o : CmpOp} : (opCmpLeu k pd ra o).Keeps := fun kept _ => kept_wP kept

theorem keeps_opTst {k : Nat} {pd : BitVec 3} {ra : BitVec 5} {b : BitVec 6} : (opTst k pd ra b).Keeps := fun kept _ => kept_wP kept

theorem keeps_opPlog {k : Nat} {pd pa pb : BitVec 3} {na nb : Bool} {op : BitVec 2} : (opPlog k pd pa pb na nb op).Keeps :=
  fun kept _ => kept_wP kept

theorem keeps_opMovA {k : Nat} {ad : BitVec 4} {rs : BitVec 5} : (opMovA k ad rs).Keeps := fun kept _ => kept_wA kept

theorem keeps_opMovS {k : Nat} {rd : BitVec 5} {ab : BitVec 4} : (opMovS k rd ab).Keeps := fun kept _ => kept_wS kept

theorem keeps_opAddA {k : Nat} {ad ab : BitVec 4} {rs : BitVec 5} : (opAddA k ad ab rs).Keeps := fun kept _ => kept_wA kept

theorem keeps_opAddiA {k : Nat} {ad ab : BitVec 4} {imm : BitVec 32} : (opAddiA k ad ab imm).Keeps := fun kept _ => kept_wA kept

theorem keeps_opMma {k : Nat} {fa fb : BitVec 4} {t : BitVec 5} {init : Bool} {sd : BitVec 5} : (opMma k fa fb t init sd).Keeps :=
  fun kept _ => kept_ite kept (kept_setArr (kept_fixExp (kept_fixSoft (kept_nextIno kept))))

theorem keeps_opMmaQ {k : Nat} {fa fb : BitVec 4} {t : BitVec 5} {init : Bool} {sd : BitVec 5} {quad : BitVec 2} :
    (opMmaQ k fa fb t init sd quad).Keeps :=
  fun kept _ => kept_ite kept (kept_setArr (kept_fixExp (kept_fixSoft (kept_nextIno kept))))

theorem keeps_opRaftSet {k : Nat} {size : BitVec 4} : (opRaftSet k size).Keeps :=
  fun kept _ => kept_ite kept (kept_ite (kept_dissolveRaft kept) (kept_formRaft kept))

theorem keeps_opQtrSet {k : Nat} {arr on : Bool} : (opQtrSet k arr on).Keeps := fun kept _ => kept_ite kept (kept_setArr kept)

theorem keeps_opSapMv {k : Nat} {fw fx : BitVec 4} {init : Bool} {sd : BitVec 5} {cen : Bool} {e : BitVec 3} :
    (opSapMv k fw fx init sd cen e).Keeps :=
  fun kept _ => kept_ite (kept_signal (kept_fixExp (kept_fixSoft kept))) (kept_setSap (kept_fixExp (kept_fixSoft kept)))

theorem keeps_opGlzRun {k : Nat} {sd : BitVec 5} {cen : Bool} {e : BitVec 3} : (opGlzRun k sd cen e).Keeps :=
  fun kept _ => kept_ite (kept_signal (kept_foldl (fun _ _ kept1 => kept_fixSoft kept1) (kept_fixSoft kept))) (kept_glzPush (kept_foldl
    (fun _ _ kept1 => kept_fixSoft kept1) (kept_fixSoft kept)))

theorem keeps_opGlzTbl {k : Nat} {tbl : BitVec 2} {sd : BitVec 5} {cen : Bool} {e : BitVec 3} : (opGlzTbl k tbl sd cen e).Keeps :=
  fun kept _ => kept_glzPush kept

theorem keeps_opLdTs {k : Nat} {rd : BitVec 5} {mode : Bool} {rb : BitVec 5} {size : BitVec 2} {sx : Bool} {imm : BitVec 24} :
    (opLdTs k rd mode rb size sx imm).Keeps :=
  fun kept _ => kept_ite (kept_modSeq (kept_sendPkt kept)) (kept_tsAccess kept)

theorem keeps_opStTs {k : Nat} {rs : BitVec 5} {mode : Bool} {rb : BitVec 5} {size : BitVec 2} {imm : BitVec 24} :
    (opStTs k rs mode rb size imm).Keeps := by
  intro s₀ s kept pre
  simp only [opStTs]
  refine kept_ite ?_ (kept_tsAccess kept)
  split
  · exact kept_raise (kept_ackPkt (kept_sendPkt (kept_sampleLoads kept)))
  · exact kept_ite (kept_payloadBad (kept_write (kept_mergeNote (kept_ackPkt (kept_sendPkt (kept_sampleLoads kept)))))) (kept_write
      (kept_mergeNote (kept_ackPkt (kept_sendPkt (kept_sampleLoads kept)))))

theorem keeps_opMovSr {k : Nat} {rd : BitVec 5} {idx : BitVec 6} : (opMovSr k rd idx).Keeps := fun kept _ => kept_wS kept

theorem keeps_opMovHb {k : Nat} {rd : BitVec 5} {sel : BitVec 6} : (opMovHb k rd sel).Keeps := fun kept _ => kept_wS kept

theorem keeps_opMovOb {k : Nat} {sel : BitVec 6} {rs : BitVec 5} : (opMovOb k sel rs).Keeps := fun kept _ => kept_modSeq kept

theorem keeps_opHbCp {k : Nat} : (opHbCp k).Keeps := fun kept _ => kept_modSeq kept

theorem keeps_opDma {k : Nat} {dk sk : Bool} {dr sr lr : BitVec 5} {cen : Bool} {e : BitVec 3} : (opDma k dk sk dr sr lr cen e).Keeps :=
  fun kept _ => kept_dmaSkip (kept_modSeq (kept_ite (kept_sampleLoads kept) kept))

theorem keeps_opSchW {k : Nat} {sel : BitVec 3} {rs : BitVec 5} {idx : BitVec 8} : (opSchW k sel rs idx).Keeps := by
  intro s₀ s kept pre
  simp only [opSchW]
  refine kept_ite ?_ (kept_raise kept)
  split
  exacts [kept_put kept, kept_put kept, kept_puts kept, kept_put kept, kept_puts kept, kept]

theorem keeps_opObClr {k : Nat} : (opObClr k).Keeps := fun kept _ => kept_modSeq kept

theorem keeps_opFlmPush {k : Nat} {ad : BitVec 4} {o : FlumeOp} : (opFlmPush k ad o).Keeps := fun kept _ => kept_wA (kept_reserve kept)

theorem keeps_opFlmTry {k : Nat} {ad : BitVec 4} {o : FlumeOp} {pd : BitVec 3} : (opFlmTry k ad o pd).Keeps :=
  fun kept _ => kept_ite (kept_wP (kept_wA (kept_reserve kept))) (kept_wP (kept_ite (kept_count kept) kept))

theorem keeps_opFlmCmt {k : Nat} {o : FlumeOp} : (opFlmCmt k o).Keeps :=
  fun kept _ => kept_ite (kept_noteSent (kept_sendPkt (kept_sendCommit kept))) (kept_sendPkt (kept_sendCommit kept))

theorem keeps_opFlmPop {k : Nat} {ad : BitVec 4} {o : FlumeOp} : (opFlmPop k ad o).Keeps := fun kept _ => kept_wA (kept_seqTake kept)

theorem keeps_opFlmTpop {k : Nat} {ad : BitVec 4} {o : FlumeOp} {pd : BitVec 3} : (opFlmTpop k ad o pd).Keeps :=
  fun kept _ => kept_ite (kept_wP (kept_wA (kept_seqTake kept))) (kept_wP kept)

theorem keeps_opFlmNext {k : Nat} {ad : BitVec 4} {pd : BitVec 3} : (opFlmNext k ad pd).Keeps := by
  intro s₀ s kept pre
  simp only [opFlmNext]
  split
  · exact kept_wP (kept_modSeq (kept_put (kept_put kept)))
  · exact kept_wP (kept_wA (kept_seqTake (kept_modSeq (kept_put (kept_put kept)))))
  · exact kept

theorem keeps_opFlmRel {k : Nat} {o : FlumeOp} : (opFlmRel k o).Keeps := fun kept _ => kept_releaseRec kept

theorem keeps_opVerAdmit {k : Nat} {sd : BitVec 5} {close : Bool} : (opVerAdmit k sd close).Keeps := by
  intro s₀ s kept pre
  simp only [opVerAdmit]
  split
  · exact kept_put (kept_admitStart kept)
  · exact kept_ite (kept_batchClose (kept_wS (kept_modSeq (kept_put (kept_put (kept_admitStart kept)))))) (kept_wS (kept_modSeq (kept_put
      (kept_put (kept_admitStart kept)))))

theorem keeps_opVerPin {k : Nat} {pd : BitVec 3} {sd : BitVec 5} {o : FlumeOp} : (opVerPin k pd sd o).Keeps := by
  intro s₀ s kept pre
  simp only [opVerPin]
  split
  · exact kept_with kept
  · refine kept_ite (kept_wP (kept_verFail (kept_with kept))) ?_
    split
    · exact kept_wP (kept_verFail (kept_with kept))
    · exact kept_ite (kept_wP (kept_wS (kept_setFlume (kept_put (kept_with kept))))) (kept_ite (kept_wP (kept_verFail (kept_with kept)))
        (kept_wP (kept_verFail (kept_with kept))))

theorem keeps_opVerLook {k : Nat} {pd : BitVec 3} {sd gs : BitVec 5} : (opVerLook k pd sd gs).Keeps := by
  intro s₀ s kept pre
  simp only [opVerLook]
  split
  · exact kept_wP (kept_verFail kept)
  · exact kept_ite (kept_wP (kept_wS kept)) (kept_wP (kept_verFail kept))

theorem keeps_opVerUnpin {k : Nat} {gs : BitVec 5} : (opVerUnpin k gs).Keeps := by
  intro s₀ s kept pre
  simp only [opVerUnpin]
  split
  · exact kept
  · exact kept_vunpin kept

theorem keeps_opVerBase {k : Nat} {ad : BitVec 4} {ss is : BitVec 5} : (opVerBase k ad ss is).Keeps := fun kept _ => kept_wA kept

theorem keeps_opVerBuild {k : Nat} {sd gs : BitVec 5} : (opVerBuild k sd gs).Keeps := by
  intro s₀ s kept pre
  simp only [opVerBuild]
  split
  · exact kept
  · exact kept_wS (kept_vbuild kept)

theorem keeps_opVerTbuild {k : Nat} {sd gs : BitVec 5} {pd : BitVec 3} : (opVerTbuild k sd gs pd).Keeps := by
  intro s₀ s kept pre
  simp only [opVerTbuild]
  split
  · exact kept_wP kept
  · exact kept_wP (kept_wS (kept_vbuild kept))

theorem keeps_opVerLive {k : Nat} {ss : BitVec 5} : (opVerLive k ss).Keeps := fun kept _ => kept_vlive kept

theorem keeps_opVerDrop {k : Nat} {ss : BitVec 5} : (opVerDrop k ss).Keeps := fun kept _ => kept_put kept

theorem keeps_opVerSw {k : Nat} {gs : BitVec 5} : (opVerSw k gs).Keeps := fun kept _ => kept_put (kept_vswitch kept)

theorem keeps_opVerAdm {k : Nat} {gs : BitVec 5} {barrier : Bool} : (opVerAdm k gs barrier).Keeps :=
  fun kept _ => kept_verResult (kept_setAdmit kept)

theorem keeps_opVerLb {k : Nat} {ss is : BitVec 5} {ab : BitVec 4} : (opVerLb k ss is ab).Keeps := fun kept _ => kept_sput kept

theorem keeps_opVerNl {k : Nat} {ss ns : BitVec 5} : (opVerNl k ss ns).Keeps := fun kept _ => kept_sput kept

theorem keeps_opVarLook {k : Nat} {ad : BitVec 4} {sd : BitVec 5} {pd : BitVec 3} {vs : BitVec 5} : (opVarLook k ad sd pd vs).Keeps :=
  fun kept _ => kept_ite (kept_wP (kept_wS (kept_wA kept))) (kept_wP kept)

theorem keeps_opVarCnt {k : Nat} {vs : BitVec 5} : (opVarCnt k vs).Keeps := fun kept _ => kept_count kept

theorem keeps_semOf {i : Instr} {o : SlotOp} : semOf i = some o → o.Keeps := by
  unfold semOf
  split
  exacts [keeps_some keeps_opNop, keeps_some keeps_opBr, keeps_some keeps_opBrS, keeps_some keeps_opCall, keeps_some keeps_opRet,
    keeps_some keeps_opLoop, keeps_some keeps_opHalt, keeps_some keeps_opTrapRet, keeps_some keeps_opEvtSig, keeps_some keeps_opEvtWait,
    keeps_some keeps_opWchSet, keeps_some keeps_opWaitAny, keeps_some keeps_opWaitIdle, keeps_some keeps_opAdd, keeps_some keeps_opSub,
    keeps_some keeps_opAnd, keeps_some keeps_opOr, keeps_some keeps_opXor, keeps_some keeps_opShl, keeps_some keeps_opShr, keeps_some
    keeps_opSra, keeps_some keeps_opMul, keeps_some keeps_opMin, keeps_some keeps_opMax, keeps_some keeps_opAddi, keeps_some keeps_opMovi,
    keeps_some keeps_opMovhi, keeps_some keeps_opAndi, keeps_some keeps_opCmpEq, keeps_some keeps_opCmpNe, keeps_some keeps_opCmpLt,
    keeps_some keeps_opCmpLtu, keeps_some keeps_opCmpLe, keeps_some keeps_opCmpLeu, keeps_some keeps_opTst, keeps_some keeps_opPlog,
    keeps_some keeps_opMovA, keeps_some keeps_opMovS, keeps_some keeps_opAddA, keeps_some keeps_opAddiA, keeps_some keeps_opMma, keeps_some
    keeps_opMmaQ, keeps_some keeps_opRaftSet, keeps_some keeps_opQtrSet, keeps_some keeps_opSapMv, keeps_some keeps_opGlzRun, keeps_some
    keeps_opGlzTbl, keeps_some keeps_opLdTs, keeps_some keeps_opStTs, keeps_some keeps_opMovSr, keeps_some keeps_opMovHb, keeps_some
    keeps_opMovOb, keeps_some keeps_opHbCp, keeps_some keeps_opDma, keeps_some keeps_opSchW, keeps_some keeps_opObClr, keeps_some
    keeps_opFlmPush, keeps_some keeps_opFlmTry, keeps_some keeps_opFlmCmt, keeps_some keeps_opFlmPop, keeps_some keeps_opFlmTpop,
    keeps_some keeps_opFlmNext, keeps_some keeps_opFlmRel, keeps_some keeps_opVerAdmit, keeps_some keeps_opVerPin, keeps_some
    keeps_opVerLook, keeps_some keeps_opVerUnpin, keeps_some keeps_opVerBase, keeps_some keeps_opVerBuild, keeps_some keeps_opVerTbuild,
    keeps_some keeps_opVerLive, keeps_some keeps_opVerDrop, keeps_some keeps_opVerSw, keeps_some keeps_opVerAdm, keeps_some keeps_opVerLb,
    keeps_some keeps_opVerNl, keeps_some keeps_opVarLook, keeps_some keeps_opVarCnt, fun none => absurd none.symm (Option.some_ne_none o)]

theorem keeps_of_mem_slotsOf {b : List Instr} {x : SlotIn} (mem : x ∈ slotsOf b) : x.op.Keeps := by
  obtain ⟨i, -, slot⟩ := List.mem_filterMap.1 mem
  split at slot
  · next sem => cases slot; exact keeps_semOf sem
  · cases slot

theorem kept_issueBundle {s₀ s : State} (kept : Kept s₀ s) {k : Nat} {b : List Instr} : Kept s₀ (s.issueBundle k b) := by
  unfold State.issueBundle
  have slots := kept_foldl_mem (l := (slotsOf b).filter fun x => s.enabled k x.c)
    (fun x mem t kept1 => keeps_of_mem_slotsOf (List.mem_of_mem_filter mem) kept1 s) kept
  exact kept_ite (kept_setSeqState (kept_modSeq (kept_put (kept_put (kept_count (kept_flow slots))))))
    (kept_put (kept_put (kept_count (kept_flow slots))))

theorem kept_noteWait {s₀ s : State} (kept : Kept s₀ s) {k code : Nat} {b : List Instr} {fresh : Bool} :
    Kept s₀ (s.noteWait k code b fresh) := kept_put (kept_ite (kept_modSeq (kept_put kept)) (kept_put kept))

theorem kept_noteRefused {s₀ s : State} (kept : Kept s₀ s) {k slot : Nat} {b : List Instr} : Kept s₀ (s.noteRefused k slot b) :=
  kept_foldl (fun _ _ kept1 => kept_foldl (fun _ _ kept2 => kept_fixSoft kept2) kept1) kept

theorem kept_tryBundle {s₀ s : State} (kept : Kept s₀ s) {k : Nat} {b : List Instr} {fresh : Bool} : Kept s₀ (s.tryBundle k b fresh) := by
  unfold State.tryBundle
  split
  · exact kept_takeExc (kept_noteRefused (kept_ite (kept_verResult kept) kept))
  · exact kept_ite (kept_modSeq (kept_noteWait kept)) (kept_noteWait kept)
  · exact kept_issueBundle (kept_ite kept (kept_modSeq kept))

theorem kept_execSeqCmdStep {s₀ s : State} (kept : Kept s₀ s) {die : Fin 24} {q : Fin 4} : Answers s₀ (execSeqCmdStep die q s) :=
  answers_of_next (kept_dieGated kept (kept_ite (kept_cmdIgnored kept) (kept_ite (kept_takeExc (kept_modSeq (kept_stopIssue kept)))
    (kept_ite (kept_tryBundle (kept_modSeq (kept_stopIssue kept))) (kept_modSeq (kept_modSeq (kept_stopIssue kept)))))))

theorem kept_execSeqCmdUnbind {s₀ s : State} (kept : Kept s₀ s) {die : Fin 24} {q : Fin 4} : Answers s₀ (execSeqCmdUnbind die q s) :=
  answers_of_next (kept_dieGated kept (kept_ite (kept_unbindSeq kept) (kept_cmdIgnored kept)))

theorem kept_execSeqPcWrite {s₀ s : State} (kept : Kept s₀ s) {m : Master} {die : Fin 24} {q : Fin 4} {pc : BitVec 14} :
    Answers s₀ (execSeqPcWrite m die q pc s) :=
  answers_of_next (kept_dieGated kept (kept_ite (kept_ownDrop kept) (kept_ite (kept_setPc (kept_stopIssue kept)) (kept_raise kept))))

theorem kept_execSchedRegisterWrite {s₀ s : State} (kept : Kept s₀ s) {die : Fin 24} {q : Fin 4} {sel : Fin 5} {idx : BitVec 8} {v :
    BitVec 32} :
    Answers s₀ (execSchedRegisterWrite die q sel idx v s) := by
  unfold execSchedRegisterWrite
  refine answers_of_next (kept_dieGated kept (kept_ite ?_ (kept_raise kept)))
  split
  exacts [kept_put kept, kept_put kept, kept_puts kept, kept_put kept, kept_puts kept]

theorem kept_execSeqWaitTimeout {s₀ s : State} (kept : Kept s₀ s) {die : Fin 24} {q : Fin 4} :
    Answers s₀ (execSeqWaitTimeout die q s) := by
  unfold execSeqWaitTimeout
  refine answers_of_next ?_
  split
  · exact kept
  · exact kept_ite (kept_takeExc kept) kept

theorem kept_execVerCmdDrop {s₀ s : State} (kept : Kept s₀ s) {l : Fin 96} {sl : Fin 4} : Answers s₀ (execVerCmdDrop l sl s) :=
  answers_of_next (kept_gated kept (kept_ite (kept_raise kept) (kept_ite (kept_verResult (kept_raise kept)) (kept_verResult (kept_put
    (kept_ite (kept_with kept) kept))))))

theorem kept_execVerPinTimeout {s₀ s : State} (kept : Kept s₀ s) {l : Fin 96} : Answers s₀ (execVerPinTimeout l s) :=
  answers_of_next (kept_ite (kept_with kept) kept)

theorem kept_crossing {s₀ s : State} (kept : Kept s₀ s) {a n : Nat} : Kept s₀ (s.crossing a n) :=
  kept_foldl (fun _ _ kept1 => kept_ackPkt (kept_sendPkt kept1)) kept

theorem kept_s0Note {s₀ s : State} (kept : Kept s₀ s) {ctx : Option Nat} {a n : Nat} : Kept s₀ (s.s0Note ctx a n) :=
  kept_crossing (kept_readNote kept)

theorem kept_s0Notes {s₀ s : State} (kept : Kept s₀ s) {ctx : Option Nat} {rs : List (Nat × Nat)} : Kept s₀ (s.s0Notes ctx rs) :=
  kept_foldl (fun _ _ kept1 => kept_s0Note kept1) kept

/-! ### Machine/CutTab -/

theorem kept_setJob {s₀ s : State} (kept : Kept s₀ s) {c : Nat} {j : Job} : Kept s₀ (s.setJob c j) := kept_with kept

theorem kept_modJob {s₀ s : State} (kept : Kept s₀ s) {c : Nat} {f : Job → Job} : Kept s₀ (s.modJob c f) := kept_setJob kept

/-! ### Machine/Cut -/

theorem kept_writeRow {s₀ s : State} (kept : Kept s₀ s) {k : Nat} : Kept s₀ (s.writeRow k) := kept_ite kept (kept_signal (kept_write kept))

theorem kept_writeRows {s₀ s : State} (kept : Kept s₀ s) {c : Nat} : Kept s₀ (s.writeRows c) :=
  kept_foldl (fun _ _ kept1 => kept_writeRow kept1) kept

theorem kept_tryForce {s₀ s : State} (kept : Kept s₀ s) {c p : Nat} : Kept s₀ (s.tryForce c p) := by
  unfold State.tryForce
  split
  · exact kept
  · exact kept_ite kept (kept_writeRows (kept_puts (kept_with kept)))

theorem kept_setPending {s₀ s : State} (kept : Kept s₀ s) {c p : Nat} {t : CutTable} : Kept s₀ (s.setPending c p t) :=
  kept_tryForce (kept_put (kept_with kept))

theorem kept_execCutCommit {s₀ s : State} (kept : Kept s₀ s) {c : Fin 64} {p : BitVec 2} : Answers s₀ (execCutCommit c p s) :=
  answers_of_next (kept_gated kept (kept_ite (kept_cfgRange kept) (kept_ite (kept_setPending (kept_ite (kept_modJob (kept_commit (kept_puts
    (kept_permNote (kept_s0Notes kept))))) (kept_commit (kept_puts (kept_permNote (kept_s0Notes kept)))))) (kept_raise (kept_puts
    (kept_permNote (kept_s0Notes kept)))))))

theorem kept_execCutTableInForce {s₀ s : State} (kept : Kept s₀ s) {c : Fin 64} {p : Fin 3} : Answers s₀ (execCutTableInForce c p s) :=
  answers_of_next (kept_tryForce kept)

theorem kept_redPut {s₀ s : State} (kept : Kept s₀ s) {k : Nat} {m : SkwMsg} : Kept s₀ (s.redPut k m) :=
  kept_foldl (fun _ _ kept1 => kept_skwSend kept1) kept

theorem kept_redGive {s₀ s : State} (kept : Kept s₀ s) {k : Nat} {m : SkwMsg} : Kept s₀ (s.redGive k m) := kept_redPut (kept_setSkw kept)

theorem kept_redGo {s₀ s : State} (kept : Kept s₀ s) {c link src dst job kind : Nat} {body : List Nat} :
    Kept s₀ (s.redGo c link src dst job kind body) := kept_ite (kept_redGive (kept_with kept)) kept

theorem kept_redOn {s₀ s : State} (kept : Kept s₀ s) {c link dst kind : Nat} {body : List Nat} :
    Kept s₀ (s.redOn c link dst kind body) := kept_redGo kept

theorem kept_redSend {s₀ s : State} (kept : Kept s₀ s) {c dst kind : Nat} {body : List Nat} : Kept s₀ (s.redSend c dst kind body) :=
  kept_redOn kept

theorem kept_sendLayer {s₀ s : State} (kept : Kept s₀ s) {c dst : Nat} {t : CutTable} {L : Nat} {kind : Nat} :
    Kept s₀ (s.sendLayer c dst t L kind) := by
  unfold State.sendLayer
  exact kept_ite (kept_redSend (kept_s0Note kept)) (kept_s0Note kept)

theorem kept_sendLayers {s₀ s : State} (kept : Kept s₀ s) {c : Nat} {t : CutTable} {src dst : List Byte} {lo n : Nat} :
    Kept s₀ (s.sendLayers c t src dst lo n) :=
  kept_ite (kept_foldl (fun _ _ kept1 => kept_foldl (fun _ _ kept2 => kept_sendLayer kept2) kept1) kept) kept

theorem kept_tryDrawn {s₀ s : State} (kept : Kept s₀ s) {c : Nat} : Kept s₀ (s.tryDrawn c) := by
  unfold State.tryDrawn
  dsimp only
  split
  · exact kept
  · exact kept_ite (kept_setPending (kept_modJob (kept_foldl (fun _ _ kept1 => kept_sendLayers kept1) kept))) kept

theorem kept_clearMarks {s₀ s : State} (kept : Kept s₀ s) {k : Nat} : Kept s₀ (s.clearMarks k) := kept_with kept

theorem kept_enterPhase {s₀ s : State} (kept : Kept s₀ s) {k p : Nat} : Kept s₀ (s.enterPhase k p) :=
  kept_with (kept_puts (kept_clearMarks kept))

theorem kept_startPhase {s₀ s : State} (kept : Kept s₀ s) {c p : Nat} {t : CutTable} : Kept s₀ (s.startPhase c p t) :=
  kept_tryDrawn (kept_foldl (fun _ _ kept1 => kept_tryForce kept1) (kept_foldl (fun _ _ kept1 => kept_writeRow kept1) (kept_foldl (fun _ _
    kept1 => kept_enterPhase kept1) kept)))

theorem kept_execCutCmdStart {s₀ s : State} (kept : Kept s₀ s) {c : Fin 64} {p : BitVec 2} : Answers s₀ (execCutCmdStart c p s) := by
  unfold execCutCmdStart
  refine answers_of_next (kept_gated kept (kept_ite (kept_raise kept) ?_))
  split
  · exact kept_cfgRange kept
  · exact kept_startPhase kept

theorem kept_skwLinkFrame {s₀ s : State} (kept : Kept s₀ s) {k typ n : Nat} : Kept s₀ (s.skwLinkFrame k typ n) :=
  kept_emit (kept_setSkw kept)

theorem kept_skwTake {s₀ s : State} (kept : Kept s₀ s) {k n : Nat} : Kept s₀ (s.skwTake k n) :=
  kept_foldl (fun _ _ kept1 => kept_skwLinkFrame kept1) (kept_setSkw kept)

theorem kept_redGot {s₀ s : State} (kept : Kept s₀ s) {h : RedHdr} {link kind n : Nat} : Kept s₀ (s.redGot h link kind n) :=
  kept_with (kept_skwTake kept)

theorem kept_redIn {s₀ s : State} (kept : Kept s₀ s) {h : RedHdr} {link kind : Nat} {body : List Nat} {go : State → State}
    (kept_go : ∀ t, Kept s₀ t → Kept s₀ (go t)) : Kept s₀ (s.redIn h link kind body go) :=
  kept_ite (kept_ite (kept_skwTake kept) (kept_ite (kept_go _ (kept_redGot kept)) (kept_redGo (kept_redGot kept)))) kept

theorem kept_normResult {s₀ s : State} (kept : Kept s₀ s) {c : Nat} {sum norm clip : F32} {hops : Nat} :
    Kept s₀ (s.normResult c sum norm clip hops) := kept_writeRows (kept_modJob (kept_puts kept))

theorem kept_normSend {s₀ s : State} (kept : Kept s₀ s) {c : Nat} {up : Bool} {last : Nat} {body : List Nat} :
    Kept s₀ (s.normSend c up last body) := kept_ite (kept_ite (kept_redSend kept) kept) (kept_ite (kept_redSend kept) kept)

theorem kept_normRun {s₀ s : State} (kept : Kept s₀ s) {c : Nat} {t : CutTable} {acc : F32} {i hops : Nat} :
    Kept s₀ (s.normRun c t acc i hops) := by
  unfold State.normRun
  dsimp only
  split
  · exact kept_redSend (kept_s0Note kept)
  · exact kept_normSend (kept_normSend (kept_normResult (kept_s0Note kept)))

theorem kept_execNormChainMsg {s₀ s : State} (kept : Kept s₀ s) {h : RedHdr} {acc : BitVec 32} {strip : BitVec 32} {hops : BitVec 12} :
    Answers s₀ (execNormChainMsg h acc strip hops s) := by
  unfold execNormChainMsg
  refine answers_of_next (kept_redIn kept (fun _ kept1 => ?_))
  split
  · exact kept_normRun kept1
  · exact kept_modJob kept1

theorem kept_execNormBroadcastMsg {s₀ s : State} (kept : Kept s₀ s) {h : RedHdr} {up : Bool} {sum norm clip : BitVec 32} {hops :
    BitVec 12} :
    Answers s₀ (execNormBroadcastMsg h up sum norm clip hops s) :=
  answers_of_next (kept_redIn kept (fun _ kept1 => kept_normSend (kept_normResult kept1)))

theorem kept_normReady {s₀ s : State} (kept : Kept s₀ s) {c : Nat} {t : CutTable} : Kept s₀ (s.normReady c t) := by
  unfold State.normReady
  refine kept_ite kept ?_
  dsimp only
  split
  · exact kept_normRun (kept_modJob (kept_modJob kept))
  · split
    · exact kept_ite (kept_normRun (kept_modJob kept)) (kept_modJob kept)
    · exact kept_modJob kept

theorem kept_zeroVarCounts {s₀ s : State} (kept : Kept s₀ s) {k : Nat} : Kept s₀ (s.zeroVarCounts k) :=
  kept_with (kept_regs kept (KMap.wf_filter _ _ _))

theorem kept_execPhaseSwitch {s₀ s : State} (kept : Kept s₀ s) {l : Fin 96} : Answers s₀ (execPhaseSwitch l s) := by
  unfold execPhaseSwitch
  refine answers_of_next ?_
  split
  · exact kept
  · refine kept_ite (kept_put kept) ?_
    dsimp only
    split
    · exact kept_ite (kept_normReady (kept_tryDrawn (kept_writeRow (kept_tryForce (kept_ite (kept_zeroVarCounts (kept_enterPhase kept))
        (kept_enterPhase kept)))))) (kept_tryDrawn (kept_writeRow (kept_tryForce (kept_ite (kept_zeroVarCounts (kept_enterPhase kept))
        (kept_enterPhase kept)))))
    · exact kept_tryDrawn (kept_writeRow (kept_tryForce (kept_ite (kept_zeroVarCounts (kept_enterPhase kept)) (kept_enterPhase kept))))

theorem kept_setRuns {s₀ s : State} (kept : Kept s₀ s) {zero : Bool} {l : List (Nat × Nat × Bool)} : Kept s₀ (s.setRuns zero l) :=
  kept_foldl (fun _ _ kept1 => kept_setFlume kept1) kept

theorem kept_foremanMove {s₀ s : State} (kept : Kept s₀ s) {c f : Nat} {t : CutTable} {prod cons : List Byte} {consSlow : Bool} :
    Kept s₀ (s.foremanMove c f t prod cons consSlow) := kept_ite (kept_setRuns kept) (kept_modJob (kept_puts (kept_setRuns kept)))

theorem kept_foremanFlume {s₀ s : State} (kept : Kept s₀ s) {c ac : Nat} {f : Nat} : Kept s₀ (s.foremanFlume c ac f) := by
  unfold State.foremanFlume
  dsimp only
  split
  · exact kept
  · split
    · exact kept_ite (kept_ite (kept_foremanMove (kept_setFlume (kept_puts kept))) (kept_setFlume (kept_puts kept))) kept
    · exact kept

theorem kept_writeFrom {s₀ s : State} (kept : Kept s₀ s) {ctx : Option Nat} {at' : Nat → Nat → Where} {a : Nat} {bs : List Byte} :
    Kept s₀ (s.writeFrom ctx at' a bs) :=
  kept_ite (kept_write (kept_mergeNote kept)) (kept_logDown (kept_foldl (fun _ _ kept1 => kept_write kept1) (kept_mergeNote kept)))

theorem kept_s0Write {s₀ s : State} (kept : Kept s₀ s) {ctx : Option Nat} {a : Nat} {bs : List Byte} : Kept s₀ (s.s0Write ctx a bs) :=
  kept_crossing (kept_writeFrom kept)

theorem kept_takeExperts {s₀ s : State} (kept : Kept s₀ s) {c : Nat} : Kept s₀ (s.takeExperts c) := by
  unfold State.takeExperts
  split
  · exact kept
  · exact kept_ite (kept_modJob kept) (kept_ite (kept_modJob (kept_s0Note kept)) (kept_s0Write (kept_modJob (kept_s0Note (kept_s0Note
      kept)))))

theorem kept_execForemanStepBoundary {s₀ s : State} (kept : Kept s₀ s) {c : Fin 64} {ac : BitVec 48} :
    Answers s₀ (execForemanStepBoundary c ac s) :=
  answers_of_next (kept_tryDrawn (kept_takeExperts (kept_foldl (fun _ _ kept1 => kept_foremanFlume kept1) kept)))

theorem kept_execVarCommit {s₀ s : State} (kept : Kept s₀ s) {l : Fin 96} {v : BitVec 12} : Answers s₀ (execVarCommit l v s) :=
  answers_of_next (kept_gated kept (kept_ite (kept_raise kept) (kept_ite (kept_cfgRange kept) (kept_ite (kept_put (kept_raise
    (kept_permNote kept))) (kept_put (kept_commit kept))))))

/-! ### Machine/Numerics -/

theorem kept_scaleX {s₀ s : State} (kept : Kept s₀ s) {n i : Nat} : Kept s₀ (s.scaleX n i) := by
  unfold State.scaleX
  refine kept_ite (kept_put kept) (kept_ite ?_ kept)
  split
  · split
    · exact kept_ite (kept_put kept) (kept_put (kept_put kept))
    · exact kept
  · exact kept_put kept

theorem kept_sctlLow {s₀ s : State} (kept : Kept s₀ s) {n i v : Nat} : Kept s₀ (s.sctlLow n i v) := kept_puts kept

theorem kept_sctlHigh {s₀ s : State} (kept : Kept s₀ s) {n i v : Nat} : Kept s₀ (s.sctlHigh n i v) :=
  kept_ite (kept_raise (kept_ite (kept_ite (kept_put (kept_puts kept)) (kept_puts kept)) (kept_put (kept_ite (kept_put (kept_puts kept))
    (kept_puts kept))))) (kept_ite (kept_ite (kept_put (kept_puts kept)) (kept_puts kept)) (kept_put (kept_ite (kept_put (kept_puts kept))
    (kept_puts kept))))

theorem kept_setSctl {s₀ s : State} (kept : Kept s₀ s) {n i : Nat} {w : SctlVal} : Kept s₀ (s.setSctl n i w) := by
  unfold State.setSctl
  split
  · exact kept_sctlHigh (kept_sctlLow kept)
  · exact kept_sctlLow kept
  · exact kept_sctlHigh kept

theorem kept_execNumSctlWrite {s₀ s : State} (kept : Kept s₀ s) {m : Master} {die : Fin 24} {i : BitVec 8} {v : SctlVal} :
    Answers s₀ (execNumSctlWrite m die i v s) :=
  answers_of_next (kept_gated kept (kept_ite (kept_raise kept) (kept_ite (kept_ownDrop kept) (kept_ite (kept_scaleX (kept_setSctl kept))
    (kept_with kept)))))

/-! ### Machine/CkptRec -/

theorem kept_setCkpt {s₀ s : State} (kept : Kept s₀ s) {c : Nat} {x : Ckpt} : Kept s₀ (s.setCkpt c x) := kept_with kept

theorem kept_modCkpt {s₀ s : State} (kept : Kept s₀ s) {c : Nat} {f : Ckpt → Ckpt} : Kept s₀ (s.modCkpt c f) := kept_setCkpt kept

theorem kept_buddyStart {s₀ s : State} (kept : Kept s₀ s) {c : Nat} {t : CutTable} {recd : List Byte} :
    Kept s₀ (s.buddyStart c t recd) := kept_ite (kept_modCkpt kept) kept

theorem kept_ckptDeliver {s₀ s : State} (kept : Kept s₀ s) {c : Nat} {skip : Bool} : Kept s₀ (s.ckptDeliver c skip) := by
  unfold State.ckptDeliver
  split
  · exact kept
  · exact kept_ite kept (kept_buddyStart (kept_ite (kept_modCkpt (kept_puts (kept_ite (kept_s0Note kept) kept))) (kept_ite (kept_s0Note
      kept) kept)))

theorem kept_pushHist {s₀ s : State} (kept : Kept s₀ s) {n i a : Nat} : Kept s₀ (s.pushHist n i a) := kept_put (kept_puts kept)

theorem kept_scaleDeliver {s₀ s : State} (kept : Kept s₀ s) {skip : Bool} {amax : List (Nat × Nat)} {n i : Nat} :
    Kept s₀ (s.scaleDeliver skip amax n i) :=
  kept_ite (kept_put kept) (kept_put (kept_scaleX (kept_ite (kept_put (kept_ite (kept_put kept) kept)) (kept_ite (kept_put (kept_put
    (kept_count (kept_ite (kept_pushHist kept) kept)))) (kept_count (kept_ite (kept_pushHist kept) kept))))))

theorem kept_applySctl {s₀ s : State} (kept : Kept s₀ s) {c : Nat} : Kept s₀ (s.applySctl c) :=
  kept_with (kept_foldl (fun _ _ kept1 => kept_foldl (fun _ _ kept2 => kept_setSctl kept2) kept1) kept)

theorem kept_scalesDeliver {s₀ s : State} (kept : Kept s₀ s) {c : Nat} {skip : Bool} {amax : List (Nat × Nat)} :
    Kept s₀ (s.scalesDeliver c skip amax) :=
  kept_foldl (fun _ _ kept1 => kept_foldl (fun _ _ kept2 => kept_scaleDeliver kept2) kept1) (kept_applySctl kept)

theorem kept_shadowLayer {s₀ s : State} (kept : Kept s₀ s) {c base nl smax : Nat} {L : Nat} :
    Kept s₀ (s.shadowLayer c base nl smax L) :=
  kept_ite (kept_count (kept_puts (kept_write (kept_foldl (fun _ _ kept1 => kept_write kept1) kept)))) (kept_write (kept_foldl (fun _ _
    kept1 => kept_write kept1) kept))

theorem kept_shadowDeliver {s₀ s : State} (kept : Kept s₀ s) {c : Nat} : Kept s₀ (s.shadowDeliver c) := by
  unfold State.shadowDeliver
  dsimp only
  split
  · exact kept
  · exact kept_ite kept (kept_ite (kept_cfgRange (kept_permNote (kept_s0Note kept))) (kept_write (kept_write (kept_foldl (fun _ _ kept1 =>
      kept_shadowLayer kept1) (kept_s0Note kept)))))

theorem kept_telTake {s₀ s : State} (kept : Kept s₀ s) {c : Nat} {skip : Bool} {cause : Nat} : Kept s₀ (s.telTake c skip cause) :=
  kept_modJob kept

theorem kept_telWrite {s₀ s : State} (kept : Kept s₀ s) {c : Nat} : Kept s₀ (s.telWrite c) :=
  kept_ite kept (kept_ite (kept_cfgRange (kept_permNote kept)) (kept_put (kept_s0Write kept)))

theorem kept_undoRedraw {s₀ s : State} (kept : Kept s₀ s) {c : Nat} : Kept s₀ (s.undoRedraw c) := by
  unfold State.undoRedraw
  split
  · exact kept
  · exact kept_modJob (kept_setRuns (kept_ite kept (kept_setPending kept)))

theorem kept_deliver {s₀ s : State} (kept : Kept s₀ s) {c : Nat} {skip : Bool} {cause : Nat} {amax : List (Nat × Nat)} :
    Kept s₀ (s.deliver c skip cause amax) :=
  kept_put (kept_with (kept_modJob (kept_ite (kept_undoRedraw (kept_puts (kept_telWrite (kept_telTake (kept_ite (kept_puts (kept_count
    (kept_foldl (fun _ _ kept1 => kept_with (kept_regs (kept_puts kept1) (KMap.wf_dropRange _ _ _ _))) (kept_shadowDeliver
    (kept_ckptDeliver (kept_scalesDeliver kept)))))) (kept_ite (kept_count (kept_foldl (fun _ _ kept1 => kept_with (kept_regs (kept_puts
    kept1) (KMap.wf_dropRange _ _ _ _))) (kept_shadowDeliver (kept_ckptDeliver (kept_scalesDeliver kept))))) (kept_foldl (fun _ _ kept1 =>
    kept_with (kept_regs (kept_puts kept1) (KMap.wf_dropRange _ _ _ _))) (kept_shadowDeliver (kept_ckptDeliver (kept_scalesDeliver
    kept)))))))))) (kept_puts (kept_telWrite (kept_telTake (kept_ite (kept_puts (kept_count (kept_foldl (fun _ _ kept1 => kept_with
    (kept_regs (kept_puts kept1) (KMap.wf_dropRange _ _ _ _))) (kept_shadowDeliver (kept_ckptDeliver (kept_scalesDeliver kept))))))
    (kept_ite (kept_count (kept_foldl (fun _ _ kept1 => kept_with (kept_regs (kept_puts kept1) (KMap.wf_dropRange _ _ _ _)))
    (kept_shadowDeliver (kept_ckptDeliver (kept_scalesDeliver kept))))) (kept_foldl (fun _ _ kept1 => kept_with (kept_regs (kept_puts
    kept1) (KMap.wf_dropRange _ _ _ _))) (kept_shadowDeliver (kept_ckptDeliver (kept_scalesDeliver kept))))))))))))

theorem kept_verdictSend {s₀ s : State} (kept : Kept s₀ s) {c : Nat} {skip : Bool} {cause : Nat} {amax : List (Nat × Nat)} :
    Kept s₀ (s.verdictSend c skip cause amax) := kept_ite (kept_redSend kept) kept

theorem kept_verdictChain {s₀ s : State} (kept : Kept s₀ s) {c : Nat} : Kept s₀ (s.verdictChain c) := by
  unfold State.verdictChain
  dsimp only
  split
  · exact kept_ite (kept_redSend (kept_modJob kept)) (kept_deliver (kept_verdictSend kept))
  · exact kept

theorem kept_execVerdictPoint {s₀ s : State} (kept : Kept s₀ s) {c : Fin 64} : Answers s₀ (execVerdictPoint c s) :=
  answers_of_next (kept_ite kept (kept_ite (kept_foldl (fun _ _ kept1 => kept_put kept1) kept) (kept_verdictChain (kept_setJob (kept_put
    kept)))))

theorem kept_execVerdictChainMsg {s₀ s : State} (kept : Kept s₀ s) {h : RedHdr} {cause : BitVec 4} {amax : List (BitVec 12 × BitVec 32)} :
    Answers s₀ (execVerdictChainMsg h cause amax s) :=
  answers_of_next (kept_redIn kept (fun _ kept1 => kept_verdictChain (kept_modJob kept1)))

theorem kept_execNumCmdForceSkip {s₀ s : State} (kept : Kept s₀ s) {c : Fin 64} : Answers s₀ (execNumCmdForceSkip c s) :=
  answers_of_next (kept_gated kept (kept_modJob kept))

theorem kept_execNumCmdClear {s₀ s : State} (kept : Kept s₀ s) {c : Fin 64} : Answers s₀ (execNumCmdClear c s) :=
  answers_of_next (kept_gated kept (kept_puts kept))

/-! ### Machine/Haul -/

theorem kept_setHaul {s₀ s : State} (kept : Kept s₀ s) {ch : Nat} {x : Haul} : Kept s₀ (s.setHaul ch x) := kept_with kept

theorem kept_setReq {s₀ s : State} (kept : Kept s₀ s) {ch : Nat} {r : HaulReq} : Kept s₀ (s.setReq ch r) := kept_setHaul kept

theorem kept_emitSrc {s₀ s : State} (kept : Kept s₀ s) {i : Nat} {o : Out} : Kept s₀ (s.emitSrc i o) :=
  kept_ite (kept_with kept) (kept_emit kept)

theorem kept_manRead {s₀ s : State} (kept : Kept s₀ s) {ch : Nat} {r : HaulReq} {again : Bool} {q : Nat} :
    Kept s₀ (s.manRead ch r again q) := kept_emitSrc (kept_setReq kept)

theorem kept_manNext {s₀ s : State} (kept : Kept s₀ s) {ch : Nat} {r : HaulReq} : ∀ t, s.manNext ch r = some t → Kept s₀ t := by
  unfold State.manNext
  refine kept_ite_some kept_none ?_
  split
  · exact kept_map_some (fun _ => kept_manRead kept)
  · exact kept_ite_some kept_none (kept_map_some (fun _ => kept_manRead kept))

theorem kept_readPart {s₀ s : State} (kept : Kept s₀ s) {r : HaulReq} {i p : Nat} : Kept s₀ (s.readPart r i p) := kept_emitSrc kept

theorem kept_resendRead {s₀ s : State} (kept : Kept s₀ s) {ch : Nat} {r : HaulReq} {x : HRead} {q : Nat} :
    Kept s₀ (s.resendRead ch r x q) := kept_readPart (kept_setReq kept)

theorem kept_askPart {s₀ s : State} (kept : Kept s₀ s) {ch : Nat} {r : HaulReq} {b : HBillet} {q : Nat} :
    Kept s₀ (s.askPart ch r b q) := kept_readPart (kept_setReq kept)

theorem kept_billetNext {s₀ s : State} (kept : Kept s₀ s) {ch : Nat} {r : HaulReq} : ∀ t, s.billetNext ch r = some t → Kept s₀ t := by
  unfold State.billetNext
  dsimp only
  split
  · exact kept_map_some (fun _ => kept_resendRead kept)
  · refine kept_ite_some kept_none ?_
    split
    · exact kept_map_some (fun _ => kept_askPart kept)
    · exact kept_none

theorem kept_issueOne {s₀ s : State} (kept : Kept s₀ s) {ch : Nat} : ∀ t, s.issueOne ch = some t → Kept s₀ t := by
  unfold State.issueOne
  split
  · exact kept_none
  · exact kept_ite_some kept_none (kept_ite_some (kept_manNext kept) (kept_ite_some (kept_billetNext kept) kept_none))

theorem kept_serve {s₀ s : State} (kept : Kept s₀ s) {src n : Nat} : Kept s₀ (State.serve src n s) := by
  induction n generalizing s with
  | zero => exact kept
  | succ n ih =>
    unfold State.serve
    split
    · exact kept
    · next found =>
      obtain ⟨_, -, issued⟩ := List.exists_of_findSome?_eq_some found
      obtain ⟨_, issued, same⟩ := Option.map_eq_some_iff.1 issued
      cases same
      exact ih (kept_with (kept_issueOne kept _ issued))

theorem kept_srcGo {s₀ s : State} (kept : Kept s₀ s) {src : Nat} : Kept s₀ (s.srcGo src) := kept_serve kept

theorem kept_haulDone {s₀ s : State} (kept : Kept s₀ s) {ch : Nat} : Kept s₀ (s.haulDone ch) := by
  unfold State.haulDone
  split
  · exact kept_ite (kept_setReq kept) kept
  · exact kept

theorem kept_haulGo {s₀ s : State} (kept : Kept s₀ s) {ch : Nat} : Kept s₀ (s.haulGo ch) := by
  unfold State.haulGo
  split
  · exact kept_haulDone (kept_srcGo kept)
  · exact kept

theorem kept_haulRefuse {s₀ s : State} (kept : Kept s₀ s) {ch : Nat} {r : HaulReq} {st : Nat} : Kept s₀ (s.haulRefuse ch r st) :=
  kept_srcGo (kept_raise (kept_setReq kept))

theorem kept_haulTake {s₀ s : State} (kept : Kept s₀ s) {ch : Nat} {o : HOrigin} {e : List Byte} : Kept s₀ (s.haulTake ch o e) :=
  kept_ite (kept_haulRefuse (kept_put (kept_setReq kept))) (kept_haulGo (kept_put (kept_setReq kept)))

theorem kept_takeRing {s₀ s : State} (kept : Kept s₀ s) {ch : Nat} {e : List Byte} : Kept s₀ (s.takeRing ch e) :=
  kept_haulTake (kept_s0Note kept)

theorem kept_execHaulRequestHaul {s₀ s : State} (kept : Kept s₀ s) {ch : Fin 64} : Answers s₀ (execHaulRequestHaul ch s) := by
  unfold execHaulRequestHaul
  refine answers_of_next (kept_ite kept ?_)
  split
  · exact kept_haulTake (kept_setHaul kept)
  · split
    · exact kept_ite kept (kept_takeRing kept)
    · exact kept

theorem kept_execHaulRequestVerify {s₀ s : State} (kept : Kept s₀ s) {ch : Fin 64} : Answers s₀ (execHaulRequestVerify ch s) := by
  unfold execHaulRequestVerify
  refine answers_of_next (kept_ite kept ?_)
  split
  · exact kept_ite (kept_takeRing kept) kept
  · exact kept

theorem kept_execHaulTailWrite {s₀ s : State} (kept : Kept s₀ s) {m : Master} {ch : Fin 64} {tail : BitVec 16} :
    Answers s₀ (execHaulTailWrite m ch tail s) :=
  answers_of_next (kept_gated kept (kept_ite (kept_ite kept (kept_put kept)) (kept_ownDrop kept)))

theorem kept_rangeRefuse {s₀ s : State} (kept : Kept s₀ s) {ch : Nat} {r : HaulReq} {rs : List (Nat × Nat × Bool)} :
    Kept s₀ (s.rangeRefuse ch r rs) := kept_haulRefuse (kept_permNote kept)

theorem kept_scrubSkips {s₀ s : State} (kept : Kept s₀ s) {a n : Nat} : Kept s₀ (s.scrubSkips a n) := kept_with kept

theorem kept_haulWrite {s₀ s : State} (kept : Kept s₀ s) {ch : Nat} {x : Nat × Nat} {a : Nat} {bs : List Byte} :
    Kept s₀ (s.haulWrite ch x a bs) := kept_ite kept (kept_ite (kept_permLog kept) (kept_scrubSkips (kept_crossFrom (kept_writeFrom kept))))

theorem kept_haltCtx {s₀ s : State} (kept : Kept s₀ s) {c : Nat} : Kept s₀ (s.haltCtx c) :=
  kept_ctxEvent (kept_foldl (fun _ _ kept1 => kept_ite (kept_setSeqState (kept_stopIssue kept1)) kept1) kept)

theorem kept_setHrec {s₀ s : State} (kept : Kept s₀ s) {r : Nat} {x : HRec} : Kept s₀ (s.setHrec r x) := kept_with kept

theorem kept_setBads {s₀ s : State} (kept : Kept s₀ s) {r : Nat} {l : List (Nat × Nat)} : Kept s₀ (s.setBads r l) :=
  kept_put (kept_setHrec kept)

theorem kept_addBad {s₀ s : State} (kept : Kept s₀ s) {r i a : Nat} : Kept s₀ (s.addBad r i a) := kept_ite kept (kept_setBads kept)

theorem kept_quarantine {s₀ s : State} (kept : Kept s₀ s) {c : Nat} {e b : List Byte} {i cause : Nat} {rec_ : Option Nat} :
    Kept s₀ (s.quarantine c e b i cause rec_) := by
  unfold State.quarantine
  refine kept_ite ?_ ?_
  · split
    · exact kept_addBad kept
    · exact kept
  · split
    · refine kept_haltCtx (kept_raise ?_)
      split
      · exact kept_addBad kept
      · exact kept
    · refine kept_with (kept_puts ?_)
      split
      · exact kept_addBad kept
      · exact kept

theorem kept_billetFails {s₀ s : State} (kept : Kept s₀ s) {ch : Nat} {r : HaulReq} {i st cause : Nat} :
    Kept s₀ (s.billetFails ch r i st cause) := kept_quarantine (kept_raise (kept_setReq kept))

theorem kept_verifyAll {s₀ s : State} (kept : Kept s₀ s) {ch : Nat} : Kept s₀ (s.verifyAll ch) := by
  unfold State.verifyAll
  split
  · exact kept
  · dsimp only
    split
    · refine kept_setReq (kept_foldl (fun _ _ kept1 => ?_) kept)
      split
      · exact kept_ite (kept_s0Notes kept1) (kept_billetFails (kept_s0Notes kept1))
      · exact kept1
    · refine kept_foldl (fun _ _ kept1 => ?_) kept
      split
      · exact kept_ite (kept_s0Notes kept1) (kept_billetFails (kept_s0Notes kept1))
      · exact kept1

theorem kept_manJudge {s₀ s : State} (kept : Kept s₀ s) {ch : Nat} {r : HaulReq} {m : List Byte} : Kept s₀ (s.manJudge ch r m) :=
  kept_ite (kept_haulRefuse kept) (kept_ite (kept_haulRefuse kept) (kept_ite (kept_rangeRefuse kept) (kept_ite (kept_haulRefuse kept)
    (kept_ite (kept_verifyAll (kept_setReq kept)) (kept_haulGo (kept_setReq kept))))))

theorem kept_execHaulManifestFetched {s₀ s : State} (kept : Kept s₀ s) {ch : Fin 64} {io : Bool} {data : List (BitVec 8)} {x y : Mute} :
    Answers s₀ (execHaulManifestFetched ch io data x y s) := by
  unfold execHaulManifestFetched
  refine answers_of_next ?_
  split
  · exact kept
  · refine kept_ite kept (kept_ite (kept_ite (kept_rangeRefuse kept) (kept_manJudge (kept_s0Note kept))) ?_)
    split
    · exact kept
    · exact kept_ite kept (kept_ite (kept_ite (kept_haulRefuse kept) (kept_srcGo (kept_setReq kept))) (kept_ite (kept_srcGo (kept_setReq
        (kept_haulWrite kept))) (kept_manJudge (kept_haulWrite kept))))

theorem kept_readFails {s₀ s : State} (kept : Kept s₀ s) {ch i p : Nat} : Kept s₀ (s.readFails ch i p) := by
  unfold State.readFails
  split
  · exact kept
  · split
    · exact kept
    · exact kept_ite (kept_srcGo (kept_haulGo (kept_billetFails kept))) (kept_srcGo (kept_setReq kept))

theorem kept_modBillet {s₀ s : State} (kept : Kept s₀ s) {ch i : Nat} {g : HBillet → HBillet} : Kept s₀ (s.modBillet ch i g) := by
  unfold State.modBillet
  split
  · exact kept_setReq kept
  · exact kept

theorem kept_feedDie {s₀ s : State} (kept : Kept s₀ s) {ch src : Nat} : Kept s₀ (s.feedDie ch src) := by
  unfold State.feedDie
  split
  · exact kept_ackPkt (kept_sendPkt kept)
  · exact kept

theorem kept_landBytes {s₀ s : State} (kept : Kept s₀ s) {ch : Nat} {r : HaulReq} {i a : Nat} {bs : List Byte} :
    Kept s₀ (s.landBytes ch r i a bs) := kept_ite (kept_count (kept_haulWrite kept)) (kept_modBillet (kept_haulWrite kept))

theorem kept_landPlain {s₀ s : State} (kept : Kept s₀ s) {ch : Nat} {r : HaulReq} {i p : Nat} {data : List Byte} :
    Kept s₀ (s.landPlain ch r i p data) := kept_landBytes kept

theorem kept_landPart {s₀ s : State} (kept : Kept s₀ s) {ch : Nat} {r : HaulReq} {i p : Nat} {data : List Byte} :
    Kept s₀ (s.landPart ch r i p data) :=
  kept_ite (kept_modBillet (kept_feedDie kept)) (kept_ite (kept_landPlain (kept_feedDie kept)) (kept_ite (kept_feedDie kept)
    (kept_haulWrite (kept_with (kept_feedDie kept)))))

theorem kept_execNvmeReadCompletion {s₀ s : State} (kept : Kept s₀ s) {ch : Fin 64} {billet : BitVec 20} {part : BitVec 11} {ok :
    Option (List (BitVec 8))} :
    Answers s₀ (execNvmeReadCompletion ch billet part ok s) := by
  unfold execNvmeReadCompletion
  refine answers_of_next ?_
  split
  · exact kept
  · split
    · exact kept_readFails kept
    · exact kept_ite (kept_srcGo (kept_landPart (kept_modBillet (kept_setReq kept)))) kept

theorem kept_execNvmeReadTimeout {s₀ s : State} (kept : Kept s₀ s) {ch : Fin 64} {billet : BitVec 20} {part : BitVec 11} :
    Answers s₀ (execNvmeReadTimeout ch billet part s) := answers_of_next (kept_readFails kept)

theorem kept_regReset {s₀ s : State} (kept : Kept s₀ s) {lo hi : Nat} : Kept s₀ (s.regReset lo hi) :=
  kept_with (kept_regs kept (KMap.wf_dropRange _ _ _ _))

theorem kept_liftQuar {s₀ s : State} (kept : Kept s₀ s) {j : Nat} : Kept s₀ (s.liftQuar j) := kept_with (kept_regReset kept)

theorem kept_liftBillet {s₀ s : State} (kept : Kept s₀ s) {a i : Nat} : Kept s₀ (s.liftBillet a i) :=
  kept_foldl (fun _ _ kept1 => kept_ite (kept_liftQuar kept1) kept1) (kept_foldl (fun _ _ kept1 => kept_ite (kept_setBads kept1) kept1)
    kept)

theorem kept_billetJudged {s₀ s : State} (kept : Kept s₀ s) {ch i st : Nat} : Kept s₀ (s.billetJudged ch i st) := by
  unfold State.billetJudged
  split
  · exact kept
  · split
    · exact kept
    · exact kept_ite (kept_haulGo (kept_billetFails kept)) (kept_ite (kept_haulGo (kept_liftBillet (kept_setReq kept))) (kept_ite
        (kept_haulGo (kept_setReq kept)) (kept_haulGo (kept_billetFails kept))))

theorem kept_execHaulBilletCheck {s₀ s : State} (kept : Kept s₀ s) {ch : Fin 64} {billet : BitVec 20} {x y z : Mute} :
    Answers s₀ (execHaulBilletCheck ch billet x y z s) := by
  unfold execHaulBilletCheck
  refine answers_of_next ?_
  split
  · exact kept
  · dsimp only
    split
    · exact kept
    · exact kept_ite kept (kept_ite (kept_billetJudged (kept_ite (kept_haulWrite (kept_count (kept_landBytes kept))) (kept_modBillet
        (kept_haulWrite (kept_count (kept_landBytes kept)))))) (kept_billetJudged (kept_foldl (fun _ _ kept1 => kept_landPlain kept1)
        kept)))

theorem kept_dropRec {s₀ s : State} (kept : Kept s₀ s) {i : Nat} : Kept s₀ (s.dropRec i) :=
  kept_with (kept_regReset (kept_foldl (fun _ _ kept1 => kept_ite (kept_put kept1) kept1) kept))

theorem kept_makeRec {s₀ s : State} (kept : Kept s₀ s) {ch : Nat} {r : HaulReq} : Kept s₀ (s.makeRec ch r).1 := by
  unfold State.makeRec
  dsimp only
  split
  · exact kept_foldl (fun _ _ kept1 => kept_dropRec kept1) kept
  · exact kept_setHrec (kept_puts (kept_foldl (fun _ _ kept1 => kept_dropRec kept1) kept))

theorem kept_haulEnd {s₀ s : State} (kept : Kept s₀ s) {ch : Nat} {r : HaulReq} : Kept s₀ (s.haulEnd ch r) := by
  unfold State.haulEnd
  dsimp only
  split
  · exact kept_ite (kept_vector (kept_put (kept_s0Write (kept_s0Write (kept_puts (kept_setHaul (kept_fst_ite (kept_makeRec kept)
      kept))))))) (kept_put (kept_s0Write (kept_s0Write (kept_puts (kept_setHaul (kept_fst_ite (kept_makeRec kept) kept))))))
  · exact kept_ite (kept_raise (kept_puts (kept_setHaul (kept_fst_ite (kept_makeRec kept) kept)))) (kept_puts (kept_setHaul (kept_fst_ite
      (kept_makeRec kept) kept)))
  · exact kept_ite (kept_with (kept_puts (kept_setHaul (kept_fst_ite (kept_makeRec kept) kept)))) (kept_puts (kept_setHaul (kept_fst_ite
      (kept_makeRec kept) kept)))

theorem kept_execHaulRequestComplete {s₀ s : State} (kept : Kept s₀ s) {ch : Fin 64} : Answers s₀ (execHaulRequestComplete ch s) := by
  unfold execHaulRequestComplete
  refine answers_of_next ?_
  split
  · exact kept
  · exact kept_ite (kept_haulEnd kept) kept

theorem kept_execHaulSourceConnect {s₀ s : State} (kept : Kept s₀ s) {src : Fin 64} {ok : SrcAnswer} {lba : BitVec 8} {size : BitVec 48} :
    Answers s₀ (execHaulSourceConnect src ok lba size s) :=
  answers_of_next (kept_ite (kept_ite (kept_srcGo (kept_puts kept)) (kept_put kept)) kept)

theorem kept_connect {s₀ s : State} (kept : Kept s₀ s) {i : Nat} : Kept s₀ (s.connect i) :=
  kept_foldl (fun _ _ kept1 => kept_emitSrc kept1) (kept_with (kept_put kept))

theorem kept_execHaulConnectionLoss {s₀ s : State} (kept : Kept s₀ s) {src : Fin 64} : Answers s₀ (execHaulConnectionLoss src s) :=
  answers_of_next (kept_ite (kept_connect kept) kept)

theorem kept_execHaulSourceTimeout {s₀ s : State} (kept : Kept s₀ s) {src : Fin 64} : Answers s₀ (execHaulSourceTimeout src s) := by
  unfold execHaulSourceTimeout
  refine answers_of_next (kept_ite kept (kept_foldl (fun _ _ kept1 => ?_) kept))
  dsimp only
  split
  · exact kept1
  · refine kept_ite kept1 (kept_ite (kept_ite kept1 (kept_haulRefuse kept1)) (kept_ite (kept_haulGo (kept_foldl (fun _ _ kept2 => ?_)
      (kept_setReq kept1))) kept1))
    split
    · exact kept_billetFails kept2
    · exact kept2

/-! ### Machine/Domains -/

theorem kept_deriveKeys {s₀ s : State} (kept : Kept s₀ s) : Kept s₀ (s.deriveKeys) := kept_with kept

theorem kept_setDomains {s₀ s : State} (kept : Kept s₀ s) {r : Nat} : Kept s₀ (s.setDomains r) := kept_deriveKeys (kept_put (kept_put kept))

theorem kept_holdDomains {s₀ s : State} (kept : Kept s₀ s) : Kept s₀ (s.holdDomains) := kept_setDomains kept

theorem kept_haulAbort {s₀ s : State} (kept : Kept s₀ s) {ch : Nat} : Kept s₀ (s.haulAbort ch) := by
  unfold State.haulAbort
  split
  · exact kept
  · exact kept_haulEnd (kept_raise kept)

theorem kept_execHaulCcommit {s₀ s : State} (kept : Kept s₀ s) {ch : Fin 64} : Answers s₀ (execHaulCcommit ch s) :=
  answers_of_next (kept_gated kept (kept_ite (kept_cfgRange kept) (kept_ite (kept_puts (kept_raise kept)) (kept_ite (kept_puts (kept_raise
    (kept_permNote kept))) (kept_ite (kept_holdDomains (kept_put (kept_puts (kept_commit kept)))) (kept_holdDomains (kept_put (kept_puts
    (kept_commit (kept_haulAbort (kept_commit kept)))))))))))

theorem kept_execHaulScommit {s₀ s : State} (kept : Kept s₀ s) {src : Fin 64} : Answers s₀ (execHaulScommit src s) :=
  answers_of_next (kept_gated kept (kept_ite (kept_cfgRange kept) (kept_ite (kept_puts (kept_raise kept)) (kept_ite (kept_puts (kept_raise
    (kept_permNote kept))) (kept_ite (kept_ite (kept_connect (kept_s0Note (kept_with (kept_with (kept_puts (kept_puts (kept_commit
    kept))))))) (kept_put (kept_s0Note (kept_with (kept_puts (kept_puts (kept_commit kept))))))) (kept_ite (kept_with (kept_puts (kept_puts
    (kept_commit kept)))) (kept_emitSrc (kept_with (kept_puts (kept_puts (kept_commit kept)))))))))))

theorem kept_execHaulScrubDue {s₀ s : State} (kept : Kept s₀ s) {r : Fin 256} : Answers s₀ (execHaulScrubDue r s) :=
  answers_of_next (kept_ite (kept_setHrec kept) kept)

theorem kept_execHaulScrubPassEnd {s₀ s : State} (kept : Kept s₀ s) {r : Fin 256} : Answers s₀ (execHaulScrubPassEnd r s) :=
  answers_of_next (kept_ite kept (kept_puts (kept_setHrec (kept_foldl (fun _ _ kept1 => kept_ite kept1 (kept_ite (kept_s0Notes kept1)
    (kept_quarantine (kept_raise (kept_s0Notes kept1))))) (kept_s0Note kept)))))

theorem kept_execForemanRehaul {s₀ s : State} (kept : Kept s₀ s) {j : Fin 32} : Answers s₀ (execForemanRehaul j s) :=
  answers_of_next (kept_ite (kept_put (kept_setHaul kept)) kept)

theorem kept_execForemanRefillLoad {s₀ s : State} (kept : Kept s₀ s) {l : Fin 96} {sl : Fin 4} {ch : Fin 64} {entry : BitVec 512} :
    Answers s₀ (execForemanRefillLoad l sl ch entry s) := answers_of_next (kept_ite (kept_setHaul (kept_with kept)) kept)

theorem kept_execForemanRefillLive {s₀ s : State} (kept : Kept s₀ s) {l : Fin 96} {sl : Fin 4} :
    Answers s₀ (execForemanRefillLive l sl s) := answers_of_next (kept_ite (kept_cmdLive kept) kept)

/-! ### Machine/Ckpt -/

theorem kept_execCkptAcommit {s₀ s : State} (kept : Kept s₀ s) {c : Fin 64} : Answers s₀ (execCkptAcommit c s) :=
  answers_of_next (kept_gated kept (kept_ite (kept_cfgRange kept) (kept_ite (kept_puts (kept_raise kept)) (kept_ite (kept_puts (kept_raise
    (kept_permNote kept))) (kept_puts (kept_ite (kept_put (kept_commit kept)) (kept_commit kept)))))))

theorem kept_ckRaise {s₀ s : State} (kept : Kept s₀ s) {c code detail : Nat} : Kept s₀ (s.ckRaise c code detail) := kept_raise kept

theorem kept_ckFinish {s₀ s : State} (kept : Kept s₀ s) {c code step : Nat} : Kept s₀ (s.ckFinish c code step) :=
  kept_ite (kept_modCkpt (kept_puts kept)) (kept_ckRaise (kept_modCkpt (kept_puts kept)))

theorem kept_ckTell {s₀ s : State} (kept : Kept s₀ s) {c code step seq : Nat} {down : Bool} :
    Kept s₀ (s.ckTell c code step seq down) := kept_ite (kept_ite (kept_redSend kept) kept) (kept_ite (kept_redSend kept) kept)

theorem kept_ckEnd {s₀ s : State} (kept : Kept s₀ s) {c code : Nat} : Kept s₀ (s.ckEnd c code) :=
  kept_ckTell (kept_ckTell (kept_ckFinish kept))

theorem kept_ckSend {s₀ s : State} (kept : Kept s₀ s) {c off : Nat} {data : List Byte} : Kept s₀ (s.ckSend c off data) :=
  kept_ite (kept_ite (kept_s0Write kept) (kept_permNote kept)) (kept_emitSrc kept)

theorem kept_ckWrite {s₀ s : State} (kept : Kept s₀ s) {c off : Nat} {data : List Byte} : Kept s₀ (s.ckWrite c off data) :=
  kept_foldl (fun _ _ kept1 => kept_modCkpt (kept_ckSend kept1)) kept

theorem kept_ckShard {s₀ s : State} (kept : Kept s₀ s) {c kind fmt id count : Nat} {payload : List Byte} :
    Kept s₀ (s.ckShard c kind fmt id count payload) := kept_ite kept (kept_ite (kept_ckEnd kept) (kept_modCkpt (kept_ckWrite kept)))

theorem kept_ckLayer {s₀ s : State} (kept : Kept s₀ s) {c : Nat} {t : CutTable} {L : Nat} : Kept s₀ (s.ckLayer c t L) :=
  kept_foldl (fun _ _ kept1 => kept_ite kept1 (kept_ite (kept_ckEnd (kept_s0Notes kept1)) (kept_ite (kept_ckShard (kept_s0Notes kept1))
    (kept_ckShard (kept_s0Notes kept1))))) kept

theorem kept_ckTail {s₀ s : State} (kept : Kept s₀ s) {c : Nat} : Kept s₀ (s.ckTail c) :=
  kept_ite (kept_modCkpt (kept_ckShard (kept_foldl (fun _ _ kept1 => kept_ite kept1 (kept_ite (kept_ckShard (kept_s0Note kept1))
    (kept_ckEnd (kept_s0Note kept1)))) (kept_ite (kept_s0Note kept) (kept_ckEnd (kept_s0Note kept)))))) (kept_ckShard (kept_foldl (fun _ _
    kept1 => kept_ite kept1 (kept_ite (kept_ckShard (kept_s0Note kept1)) (kept_ckEnd (kept_s0Note kept1)))) (kept_ite (kept_s0Note kept)
    (kept_ckEnd (kept_s0Note kept)))))

theorem kept_ckReadNext {s₀ s : State} (kept : Kept s₀ s) {c : Nat} : Kept s₀ (s.ckReadNext c) := by
  unfold State.ckReadNext
  split
  · exact kept
  · refine kept_ite kept ?_
    split
    · exact kept_ckTail kept
    · exact kept_ite (kept_ite (kept_foldl (fun _ _ kept1 => kept_ckLayer kept1) (kept_s0Notes kept)) (kept_ite (kept_ckTail (kept_modCkpt
        (kept_foldl (fun _ _ kept1 => kept_ckLayer kept1) (kept_s0Notes kept)))) (kept_modCkpt (kept_foldl (fun _ _ kept1 => kept_ckLayer
        kept1) (kept_s0Notes kept))))) (kept_s0Notes kept)

theorem kept_buddySend {s₀ s : State} (kept : Kept s₀ s) {c : Nat} {t : CutTable} {body : List Nat} : Kept s₀ (s.buddySend c t body) :=
  kept_ite (kept_redOn kept) (kept_redOn kept)

theorem kept_buddyItem {s₀ s : State} (kept : Kept s₀ s) {c : Nat} {t : CutTable} {last : Bool} {bs : List Byte} :
    Kept s₀ (s.buddyItem c t last bs) := kept_modCkpt (kept_buddySend kept)

theorem kept_buddyDrop {s₀ s : State} (kept : Kept s₀ s) {c : Nat} : Kept s₀ (s.buddyDrop c) := kept_modCkpt kept

theorem kept_buddyRead {s₀ s : State} (kept : Kept s₀ s) {c : Nat} {t : CutTable} {x : List (Nat × Nat) × (Nat × Nat)} :
    Kept s₀ (s.buddyRead c t x) := kept_ite kept (kept_ite (kept_buddyItem (kept_s0Notes kept)) (kept_buddyDrop (kept_s0Notes kept)))

theorem kept_buddyReadNext {s₀ s : State} (kept : Kept s₀ s) {c : Nat} : Kept s₀ (s.buddyReadNext c) := by
  unfold State.buddyReadNext
  dsimp only
  split
  · exact kept
  · refine kept_ite kept ?_
    split
    · exact kept_ite (kept_modCkpt (kept_buddyItem (kept_foldl (fun _ _ kept1 => kept_buddyRead kept1) kept))) (kept_foldl (fun _ _ kept1
        => kept_buddyRead kept1) kept)
    · exact kept_ite (kept_ite (kept_foldl (fun _ _ kept1 => kept_foldl (fun _ _ kept2 => kept_buddyRead kept2) kept1) (kept_s0Notes kept))
        (kept_ite (kept_ite (kept_modCkpt (kept_buddyItem (kept_foldl (fun _ _ kept1 => kept_buddyRead kept1) (kept_modCkpt (kept_foldl
        (fun _ _ kept1 => kept_foldl (fun _ _ kept2 => kept_buddyRead kept2) kept1) (kept_s0Notes kept)))))) (kept_foldl (fun _ _ kept1 =>
        kept_buddyRead kept1) (kept_modCkpt (kept_foldl (fun _ _ kept1 => kept_foldl (fun _ _ kept2 => kept_buddyRead kept2) kept1)
        (kept_s0Notes kept))))) (kept_modCkpt (kept_foldl (fun _ _ kept1 => kept_foldl (fun _ _ kept2 => kept_buddyRead kept2) kept1)
        (kept_s0Notes kept))))) (kept_s0Notes kept)

theorem kept_execCkptPositionRead {s₀ s : State} (kept : Kept s₀ s) {c : Fin 64} : Answers s₀ (execCkptPositionRead c s) :=
  answers_of_next (kept_ite kept (kept_buddyReadNext (kept_ckReadNext kept)))

theorem kept_execCkptShardListWrite {s₀ s : State} (kept : Kept s₀ s) {c : Fin 64} : Answers s₀ (execCkptShardListWrite c s) :=
  answers_of_next (kept_ite kept (kept_ite (kept_ckEnd kept) (kept_modCkpt (kept_ckWrite kept))))

theorem kept_tallyChain {s₀ s : State} (kept : Kept s₀ s) {c : Nat} : Kept s₀ (s.tallyChain c) := by
  unfold State.tallyChain
  dsimp only
  split
  · exact kept_ite kept (kept_redSend kept)
  · exact kept

theorem kept_ckSuccess {s₀ s : State} (kept : Kept s₀ s) {c step seq : Nat} : Kept s₀ (s.ckSuccess c step seq) :=
  kept_puts (kept_ckFinish kept)

theorem kept_execCkptStorageWriteDone {s₀ s : State} (kept : Kept s₀ s) {c : Fin 64} {ok : Bool} :
    Answers s₀ (execCkptStorageWriteDone c ok s) := by
  unfold execCkptStorageWriteDone
  refine answers_of_next ?_
  split
  · exact kept
  · exact kept_ite (kept_ite (kept_modCkpt (kept_count kept)) (kept_ite (kept_tallyChain (kept_put (kept_modCkpt (kept_count kept))))
      (kept_ite (kept_ckTell (kept_ckSuccess (kept_modCkpt (kept_count kept)))) (kept_modCkpt (kept_count kept))))) (kept_ite (kept_ckEnd
      kept) (kept_modCkpt (kept_ckSend kept)))

theorem kept_execTallyChainMsg {s₀ s : State} (kept : Kept s₀ s) {h : RedHdr} {parts : List (BitVec 8)} :
    Answers s₀ (execTallyChainMsg h parts s) :=
  answers_of_next (kept_redIn kept (fun _ kept1 => kept_ite (kept_tallyChain (kept_modCkpt kept1)) kept1))

theorem kept_execCkptTallyTimeout {s₀ s : State} (kept : Kept s₀ s) {c : Fin 64} : Answers s₀ (execCkptTallyTimeout c s) :=
  answers_of_next (kept_ite (kept_ckEnd kept) kept)

theorem kept_execCkptTallyWrite {s₀ s : State} (kept : Kept s₀ s) {c : Fin 64} {draw nonce : List (BitVec 8)} {salt : BitVec 32} {x :
    Mute} :
    Answers s₀ (execCkptTallyWrite c draw nonce salt x s) := by
  unfold execCkptTallyWrite
  refine answers_of_next ?_
  split
  · exact kept_ite kept (kept_ite (kept_ckEnd (kept_ite (kept_s0Note kept) kept)) (kept_modCkpt (kept_ckWrite (kept_put (kept_ite
      (kept_s0Note kept) kept)))))
  · exact kept

theorem kept_execCkptCommitRecordWrite {s₀ s : State} (kept : Kept s₀ s) {c : Fin 64} : Answers s₀ (execCkptCommitRecordWrite c s) := by
  unfold execCkptCommitRecordWrite
  refine answers_of_next ?_
  split
  · exact kept
  · exact kept_ite kept (kept_modCkpt (kept_ckWrite kept))

theorem kept_execCkptCmdTake {s₀ s : State} (kept : Kept s₀ s) {c : Fin 64} {key : BitVec 256} :
    Answers s₀ (execCkptCmdTake c key s) :=
  answers_of_next (kept_gated kept (kept_ite (kept_raise kept) (kept_ite (kept_cfgRange kept) (kept_ite (kept_ite (kept_redSend
    (kept_modCkpt (kept_puts kept))) (kept_modCkpt (kept_puts kept))) (kept_puts kept)))))

theorem kept_ckAbort {s₀ s : State} (kept : Kept s₀ s) {c : Nat} : Kept s₀ (s.ckAbort c) :=
  kept_ite (kept_ite (kept_redSend kept) (kept_ckEnd kept)) kept

theorem kept_execCkptCmdAbort {s₀ s : State} (kept : Kept s₀ s) {c : Fin 64} : Answers s₀ (execCkptCmdAbort c s) :=
  answers_of_next (kept_gated kept (kept_ckAbort kept))

theorem kept_execCkptCmdRestore {s₀ s : State} (kept : Kept s₀ s) {c : Fin 64} : Answers s₀ (execCkptCmdRestore c s) :=
  answers_of_next (kept_gated kept (kept_ite (kept_raise kept) (kept_ite (kept_cfgRange kept) (kept_ite (kept_ckRaise (kept_puts kept))
    (kept_modCkpt (kept_put kept))))))

theorem kept_ckNote {s₀ s : State} (kept : Kept s₀ s) {c a n : Nat} : Kept s₀ (s.ckNote c a n) :=
  kept_ite (kept_ite (kept_s0Note kept) (kept_permNote kept)) kept

theorem kept_ringNote {s₀ s : State} (kept : Kept s₀ s) {c : Nat} : Kept s₀ (s.ringNote c) := kept_ckNote kept

theorem kept_ckGet {s₀ s : State} (kept : Kept s₀ s) {c : Nat} {io : CkRead} {a n : Nat} : Kept s₀ (s.ckGet c io a n).1 := kept_ckNote kept

theorem kept_loadFails {s₀ s : State} (kept : Kept s₀ s) {c : Nat} {e : ShardErr} : Kept s₀ (s.loadFails c e) :=
  kept_modCkpt (kept_ckRaise (kept_puts kept))

theorem kept_shardLists {s₀ s : State} (kept : Kept s₀ s) {c : Nat} {io : CkRead} {t : List Byte} : Kept s₀ (s.shardLists c io t).1 := by
  unfold State.shardLists
  refine kept_foldl_fst (fun _ _ kept1 => ?_) kept
  dsimp only
  split
  · exact kept1
  · split
    next t heq =>
      exact (kept_fst_eq heq (kept_ckGet kept1))
    next t _ heq =>
      exact kept_fst_ite (kept_fst_eq heq (kept_ckGet kept1)) (kept_fst_eq heq (kept_ckGet kept1))

theorem kept_shardPayload {s₀ s : State} (kept : Kept s₀ s) {c : Nat} {io : CkRead} {tally : List Byte} {m : Nat} {e : List Byte} {n :
    Nat} :
    Kept s₀ (s.shardPayload c io tally m e n).1 := by
  unfold State.shardPayload
  split
  next t heq =>
    exact (kept_fst_eq heq (kept_ckGet kept))
  next t _ heq =>
    exact (kept_fst_eq heq (kept_ckGet kept))

theorem kept_loadLayer {s₀ : State} {acc : State × Option ShardErr} (kept : Kept s₀ acc.1) {c : Nat} {io : CkRead} {t : CutTable} {tally :
    List Byte}
    {ls : List (Nat × List (List Byte))} {x : Nat × Nat} : Kept s₀ (State.loadLayer c io t tally ls acc x).1 := by
  unfold State.loadLayer
  split
  · exact kept
  · dsimp only
    split
    · exact kept
    · split
      next t _ heq =>
        exact (kept_fst_eq heq (kept_shardPayload kept))
      next t _ heq =>
        exact kept_s0Write (kept_fst_eq heq (kept_shardPayload kept))

theorem kept_loadRegion {s₀ : State} {acc : State × Option ShardErr} (kept : Kept s₀ acc.1) {c : Nat} {io : CkRead} {tally : List Byte}
    {ls : List (Nat × List (List Byte))} {r : Nat × Nat × Nat} : Kept s₀ (State.loadRegion c io tally ls acc r).1 := by
  unfold State.loadRegion
  split
  · exact kept
  · split
    · exact kept
    · split
      next t _ heq =>
        exact (kept_fst_eq heq (kept_shardPayload kept))
      next t _ heq =>
        exact kept_s0Write (kept_fst_eq heq (kept_shardPayload kept))

theorem kept_loadRecords {s₀ s : State} (kept : Kept s₀ s) {c : Nat} {io : CkRead} {tally : List Byte} {ls :
    List (Nat × List (List Byte))} :
    Kept s₀ (s.loadRecords c io tally ls).1 := by
  unfold State.loadRecords
  refine kept_foldl_fst (fun _ _ kept1 => ?_) kept
  split
  · exact kept1
  · split
    · exact kept1
    · split
      next t _ heq =>
        exact (kept_fst_eq heq (kept_shardPayload kept1))
      next t _ heq =>
        exact (kept_fst_eq heq (kept_shardPayload kept1))

theorem kept_loadTally {s₀ s : State} (kept : Kept s₀ s) {c : Nat} {io : CkRead} {t : CutTable} {tally : List Byte} :
    Kept s₀ (s.loadTally c io t tally) := by
  unfold State.loadTally
  split
  next t _ heq =>
    exact kept_loadFails (kept_fst_eq heq (kept_shardLists kept))
  next t _ heq =>
    dsimp only
    split
    · exact kept_loadFails (kept_foldl_fst (fun _ _ kept1 => kept_loadRegion kept1) (kept_foldl_fst (fun _ _ kept1 => kept_loadLayer kept1)
        (kept_fst_eq heq (kept_shardLists kept))))
    · split
      next t1 _ heq1 =>
        exact kept_loadFails (kept_fst_eq heq1 (kept_loadRecords (kept_foldl_fst (fun _ _ kept1 => kept_loadRegion kept1) (kept_foldl_fst
          (fun _ _ kept1 => kept_loadLayer kept1) (kept_fst_eq heq (kept_shardLists kept))))))
      next t1 _ heq1 =>
        exact kept_ite (kept_modCkpt (kept_fst_eq heq1 (kept_loadRecords (kept_foldl_fst (fun _ _ kept1 => kept_loadRegion kept1)
          (kept_foldl_fst (fun _ _ kept1 => kept_loadLayer kept1) (kept_fst_eq heq (kept_shardLists kept))))))) (kept_loadFails
          (kept_fst_eq heq1 (kept_loadRecords (kept_foldl_fst (fun _ _ kept1 => kept_loadRegion kept1) (kept_foldl_fst (fun _ _ kept1 =>
          kept_loadLayer kept1) (kept_fst_eq heq (kept_shardLists kept)))))))

theorem kept_restoreLoad {s₀ s : State} (kept : Kept s₀ s) {c : Nat} {io : CkRead} {r : List Byte} : Kept s₀ (s.restoreLoad c io r) := by
  unfold State.restoreLoad
  split
  · next fetched =>
    have kept1 := kept_fst_eq fetched (kept_ckGet kept)
    exact kept_ite (kept_loadFails (kept_modCkpt kept1)) (kept_loadTally (kept_modCkpt kept1))
  · next fetched _ => exact kept_loadFails (kept_fst_eq fetched (kept_ckGet kept))

theorem kept_putScaleEntry {s₀ s : State} (kept : Kept s₀ s) {c : Nat} {x : Nat × List Byte} : Kept s₀ (s.putScaleEntry c x) :=
  kept_foldl (fun _ _ kept1 => kept_foldl (fun _ _ kept2 => kept_ite (kept_puts (kept_puts (kept_setSctl kept2))) kept2) kept1) kept

theorem kept_restoreApply {s₀ s : State} (kept : Kept s₀ s) {c code step seq : Nat} : Kept s₀ (s.restoreApply c code step seq) := by
  unfold State.restoreApply
  refine kept_modJob (kept_puts (kept_ckFinish (kept_ite ?_ (kept_foldl (fun _ _ kept1 => kept_putScaleEntry kept1) kept))))
  split
  · exact kept_ite (kept_foldl (fun _ _ kept1 => kept_putScaleEntry kept1) kept) (kept_s0Write (kept_foldl (fun _ _ kept1 =>
      kept_putScaleEntry kept1) kept))
  · exact kept_foldl (fun _ _ kept1 => kept_putScaleEntry kept1) kept

theorem kept_restoreChain {s₀ s : State} (kept : Kept s₀ s) {c : Nat} : Kept s₀ (s.restoreChain c) := by
  unfold State.restoreChain
  dsimp only
  split
  · exact kept_ite (kept_modCkpt (kept_redSend kept)) (kept_ite (kept_ckTell (kept_restoreApply kept)) (kept_modCkpt (kept_put kept)))
  · exact kept

theorem kept_candNote {s₀ s : State} (kept : Kept s₀ s) {c : Nat} {r : List Byte} : Kept s₀ (s.candNote c r) :=
  kept_ite (kept_s0Note (kept_ckNote kept)) (kept_ckNote kept)

theorem kept_nextCand {s₀ s : State} (kept : Kept s₀ s) {c : Nat} {io : CkRead} {rs : List (List Byte)} : Kept s₀ (s.nextCand c io rs) := by
  induction rs generalizing s with
  | nil => exact kept_ckTell (kept_ckFinish kept)
  | cons r rs ih =>
    have noted := kept_modCkpt (kept_candNote kept (c := c) (r := r)) (c := c)
      (f := fun x => { x with tried := some (recSeq r), top := some (x.top.getD (recSeq r)) })
    exact kept_ite (ih (kept_ckRaise (kept_put noted))) (kept_restoreLoad (kept_ite (kept_redSend (kept_modCkpt noted)) (kept_modCkpt noted)))

theorem kept_execCkptRestoreLoad {s₀ s : State} (kept : Kept s₀ s) {c : Fin 64} {io : CkRead} :
    Answers s₀ (execCkptRestoreLoad c io s) := by
  unfold execCkptRestoreLoad
  refine answers_of_next (kept_ite kept ?_)
  split
  · exact kept_ite (kept_restoreChain (kept_restoreLoad kept)) kept
  · exact kept_ite (kept_restoreChain (kept_nextCand (kept_ringNote kept))) kept

theorem kept_ckTake {s₀ s : State} (kept : Kept s₀ s) {c : Nat} {msg : CkptMsg} : Kept s₀ (s.ckTake c msg) := by
  unfold State.ckTake
  dsimp only
  split
  exacts [kept_ite (kept_redSend (kept_ite kept (kept_modCkpt kept))) (kept_ite kept (kept_modCkpt kept)), kept_ite (kept_ckEnd kept) kept,
    kept_ckTell (kept_ite (kept_modCkpt kept) (kept_ite (kept_ite (kept_restoreApply kept) (kept_ckFinish kept)) (kept_ite (kept_ckSuccess
    kept) (kept_ckFinish kept)))), kept_ite (kept_redSend (kept_ite (kept_modCkpt kept) kept)) (kept_ite (kept_modCkpt kept) kept),
    kept_ite (kept_restoreChain (kept_modCkpt kept)) kept]

theorem kept_execCkptKeyOutcomeMsg {s₀ s : State} (kept : Kept s₀ s) {h : RedHdr} {msg : CkptMsg} :
    Answers s₀ (execCkptKeyOutcomeMsg h msg s) := answers_of_next (kept_redIn kept (fun _ kept1 => kept_ckTake kept1))

theorem kept_buddyAck {s₀ s : State} (kept : Kept s₀ s) {c step : Nat} {fits : Bool} : Kept s₀ (s.buddyAck c step fits) :=
  kept_ite (kept_redOn kept) (kept_redOn kept)

theorem kept_buddyTake {s₀ s : State} (kept : Kept s₀ s) {c step off : Nat} {data : List Byte} {last : Bool} :
    Kept s₀ (s.buddyTake c step off data last) :=
  kept_ite kept (kept_ite (kept_ite (kept_buddyAck (kept_modCkpt (kept_ite (kept_ckRaise kept) (kept_ite (kept_cfgRange kept) kept))))
    (kept_modCkpt (kept_ite (kept_ckRaise kept) (kept_ite (kept_cfgRange kept) kept)))) (kept_modCkpt (kept_s0Write (kept_ite (kept_ckRaise
    kept) (kept_ite (kept_cfgRange kept) kept)))))

theorem kept_execBuddyCopyMsg {s₀ s : State} (kept : Kept s₀ s) {h : RedHdr} {step off : BitVec 48} {data : List (BitVec 8)} {last : Bool} :
    Answers s₀ (execBuddyCopyMsg h step off data last s) := answers_of_next (kept_redIn kept (fun _ kept1 => kept_buddyTake kept1))

theorem kept_buddyAcked {s₀ s : State} (kept : Kept s₀ s) {c : Nat} {fits : Bool} : Kept s₀ (s.buddyAcked c fits) :=
  kept_ite kept (kept_modCkpt (kept_ite kept (kept_ckRaise kept)))

theorem kept_execBuddyAck {s₀ s : State} (kept : Kept s₀ s) {h : RedHdr} {recv : Option Bool} : Answers s₀ (execBuddyAck h recv s) := by
  unfold execBuddyAck
  refine answers_of_next ?_
  split
  · exact kept_redIn kept (fun _ kept1 => kept_buddyAcked kept1)
  · split
    · exact kept
    · exact kept_buddyAck (kept_modCkpt (kept_puts kept))

theorem kept_layerTake {s₀ s : State} (kept : Kept s₀ s) {c layer kind off : Nat} {data : List Byte} :
    Kept s₀ (s.layerTake c layer kind off data) := by
  unfold State.layerTake
  split
  · exact kept
  · exact kept_ite (kept_s0Write kept) kept

theorem kept_execLayerStateMsg {s₀ s : State} (kept : Kept s₀ s) {h : RedHdr} {layer : BitVec 16} {kind : BitVec 2} {off : BitVec 48}
    {data : List (BitVec 8)} {next : Bool} :
    Answers s₀ (execLayerStateMsg h layer kind off data next s) := answers_of_next (kept_redIn kept (fun _ kept1 => kept_layerTake kept1))

/-! ### Machine/Links -/

theorem kept_holdFlume {s₀ s : State} (kept : Kept s₀ s) {f : Nat} {g : Flume → Flume} : Kept s₀ (s.holdFlume f g) :=
  kept_ite (kept_flmSync (kept_put (kept_setFlume kept))) (kept_setFlume kept)

theorem kept_skwDrop {s₀ s : State} (kept : Kept s₀ s) {k st : Nat} : Kept s₀ (s.skwDrop k st) :=
  kept_foldl (fun _ _ kept1 => kept_holdFlume kept1) (kept_put (kept_setSkw kept))

theorem kept_skwRecover {s₀ s : State} (kept : Kept s₀ s) {k : Nat} : Kept s₀ (s.skwRecover k) := kept_count (kept_skwDrop kept)

theorem kept_onLink {s₀ s go : State} (kept : Kept s₀ s) (kept1 : Kept s₀ go) {k : Nat} : Kept s₀ (s.onLink k go) :=
  kept_ite (kept_raise kept) (kept_ite (kept_raise kept) kept1)

theorem kept_execSkwCmdRetrain {s₀ s : State} (kept : Kept s₀ s) {k : Fin 24} : Answers s₀ (execSkwCmdRetrain k s) :=
  answers_of_next (kept_gated kept (kept_onLink kept (kept_ite (kept_setSkw (kept_skwRecover kept)) kept)))

theorem kept_skwRekey {s₀ s : State} (kept : Kept s₀ s) {k : Nat} {mine : Bool} : Kept s₀ (s.skwRekey k mine) :=
  kept_skwCtrl (kept_skwCtrlBytes (kept_setSkw (kept_with kept)))

theorem kept_execSkwCmdRekey {s₀ s : State} (kept : Kept s₀ s) {k : Fin 24} : Answers s₀ (execSkwCmdRekey k s) :=
  answers_of_next (kept_gated kept (kept_onLink kept (kept_ite (kept_skwRekey kept) kept)))

theorem kept_execSkwRekeyCount {s₀ s : State} (kept : Kept s₀ s) {k : Fin 24} : Answers s₀ (execSkwRekeyCount k s) :=
  answers_of_next (kept_ite (kept_skwRekey kept) kept)

theorem kept_execSkwRekeyMark {s₀ s : State} (kept : Kept s₀ s) {m : SkwMark} : Answers s₀ (execSkwRekeyMark m s) :=
  answers_of_next (kept_ite (kept_ite (kept_setSkw (kept_skwTake kept)) (kept_skwRekey (kept_setSkw (kept_skwTake kept)))) kept)

theorem kept_setLock {s₀ s : State} (kept : Kept s₀ s) {k : Nat} {on : Bool} : Kept s₀ (s.setLock k on) := kept_put kept

theorem kept_skwClear {s₀ s : State} (kept : Kept s₀ s) {k : Nat} {m : Ctrl} {bs : List Byte} : Kept s₀ (s.skwClear k m bs) :=
  kept_foldl (fun _ _ kept1 => kept_skwPut kept1) kept

theorem kept_execSkwLanesTrained {s₀ s : State} (kept : Kept s₀ s) {k : Fin 24} : Answers s₀ (execSkwLanesTrained k s) :=
  answers_of_next (kept_ite (kept_setLock kept) (kept_ite (kept_skwClear (kept_setSkw (kept_with (kept_put (kept_setLock kept))))) kept))

theorem kept_reopen {s₀ s : State} (kept : Kept s₀ s) {f : Nat} : Kept s₀ (s.reopen f) := by
  unfold State.reopen
  refine kept_ite ?_ (kept_ite (kept_setFlume kept) (kept_openMsg (kept_setFlume kept)))
  split
  · exact kept_skwCtrl (kept_setFlume kept)
  · exact kept_setFlume kept

theorem kept_execSkwKeyed {s₀ s : State} (kept : Kept s₀ s) {k : Fin 24} : Answers s₀ (execSkwKeyed k s) :=
  answers_of_next (kept_ite kept (kept_foldl (fun _ _ kept1 => kept_redPut kept1) (kept_foldl (fun _ _ kept1 => kept_reopen kept1)
    (kept_put (kept_skwTake kept)))))

theorem kept_execSkwRecovery {s₀ s : State} (kept : Kept s₀ s) {k : Fin 24} : Answers s₀ (execSkwRecovery k s) :=
  answers_of_next (kept_ite (kept_skwRecover kept) kept)

theorem kept_loseLock {s₀ s : State} (kept : Kept s₀ s) {k : Nat} : Kept s₀ (s.loseLock k) :=
  kept_ite (kept_skwRecover (kept_setLock kept)) (kept_setLock kept)

theorem kept_execSkwLockLoss {s₀ s : State} (kept : Kept s₀ s) {k : Fin 24} : Answers s₀ (execSkwLockLoss k s) :=
  answers_of_next (kept_ite (kept_loseLock kept) kept)

theorem kept_execSkwSessionTimeout {s₀ s : State} (kept : Kept s₀ s) {k : Fin 24} : Answers s₀ (execSkwSessionTimeout k s) :=
  answers_of_next (kept_ite (kept_raise (kept_skwDrop kept)) kept)

theorem kept_execSkwBringupRetry {s₀ s : State} (kept : Kept s₀ s) {k : Fin 24} : Answers s₀ (execSkwBringupRetry k s) :=
  answers_of_next (kept_ite (kept_put kept) kept)

theorem kept_execSkwVersionWrite {s₀ s : State} (kept : Kept s₀ s) {m : Master} {k : Fin 24} {vmax vmin : BitVec 2} :
    Answers s₀ (execSkwVersionWrite m k vmax vmin s) :=
  answers_of_next (kept_gated kept (kept_onLink kept (kept_ite (kept_ownDrop kept) (kept_ite (kept_cfgRange kept) (kept_ite (kept_put
    (kept_puts kept)) (kept_puts kept))))))

theorem kept_skwAcked {s₀ s : State} (kept : Kept s₀ s) {k n : Nat} : Kept s₀ (s.skwAcked k n) := kept_setSkw kept

theorem kept_execSkwAck {s₀ s : State} (kept : Kept s₀ s) {k : Fin 24} {n : BitVec 32} : Answers s₀ (execSkwAck k n s) :=
  answers_of_next (kept_ite (kept_skwPump (kept_skwAcked kept)) kept)

theorem kept_skwResend {s₀ s : State} (kept : Kept s₀ s) {k n : Nat} : Kept s₀ (s.skwResend k n) := by
  unfold State.skwResend
  dsimp only
  split
  · exact kept
  · exact kept_ite (kept_skwRecover kept) (kept_foldl (fun _ _ kept1 => kept_emit kept1) (kept_count (kept_setSkw kept)))

theorem kept_execSkwNak {s₀ s : State} (kept : Kept s₀ s) {k : Fin 24} {n : BitVec 32} : Answers s₀ (execSkwNak k n s) :=
  answers_of_next (kept_ite (kept_skwPump (kept_skwResend (kept_setSkw (kept_skwAcked kept)))) kept)

theorem kept_execSkwReplayTimeout {s₀ s : State} (kept : Kept s₀ s) {k : Fin 24} : Answers s₀ (execSkwReplayTimeout k s) := by
  unfold execSkwReplayTimeout
  refine answers_of_next (kept_ite ?_ kept)
  split
  · exact kept
  · exact kept_skwResend kept

theorem kept_execSkwCorruptFrame {s₀ s : State} (kept : Kept s₀ s) {b : SkwBad} : Answers s₀ (execSkwCorruptFrame b s) :=
  answers_of_next (kept_ite (kept_ite (kept_skwLinkFrame (kept_setSkw (kept_count (kept_count kept)))) (kept_count (kept_count kept))) kept)

theorem kept_execSkwAckTimer {s₀ s : State} (kept : Kept s₀ s) {k : Fin 24} : Answers s₀ (execSkwAckTimer k s) :=
  answers_of_next (kept_ite (kept_skwLinkFrame (kept_setSkw kept)) kept)

theorem kept_execSkwBlockIdleClose {s₀ s : State} (kept : Kept s₀ s) {k : Fin 24} : Answers s₀ (execSkwBlockIdleClose k s) :=
  answers_of_next (kept_ite (kept_skwTag kept) kept)

theorem kept_execSkwTagCheck {s₀ s : State} (kept : Kept s₀ s) {k : Fin 24} {ok : Bool} : Answers s₀ (execSkwTagCheck k ok s) :=
  answers_of_next (kept_ite kept (kept_ite (kept_setSkw (kept_skwTake kept)) (kept_ite (kept_setSkw (kept_skwDrop (kept_setSkw (kept_raise
    (kept_count kept))))) (kept_skwRecover (kept_setSkw (kept_raise (kept_count kept)))))))

theorem kept_holdHere {s₀ s : State} (kept : Kept s₀ s) {f : Nat} {g : Flume → Flume} : Kept s₀ (s.holdHere f g) := by
  unfold State.holdHere
  dsimp only
  split
  · exact kept_ite (kept_skwCtrl (kept_holdFlume kept)) (kept_holdFlume kept)
  · exact kept_holdFlume kept

theorem kept_freeFlume {s₀ s : State} (kept : Kept s₀ s) {f : Nat} : Kept s₀ (s.freeFlume f) :=
  kept_ite (kept_foldl (fun _ _ kept1 => kept_recFrames kept1) (kept_flmSync (kept_put kept))) kept

theorem kept_chanDrop {s₀ s : State} (kept : Kept s₀ s) {k ch : Nat} : Kept s₀ (s.chanDrop k ch) := kept_raise (kept_setSkw kept)

theorem kept_execSkwChannelOpen {s₀ s : State} (kept : Kept s₀ s) {k : Fin 24} {chan : OpenTo} {dir : BitVec 2} {depth : BitVec 13} {size :
    BitVec 15} {pair : BitVec 13} {next : BitVec 32} {held : BitVec 13} {reply : Bool} :
    Answers s₀ (execSkwChannelOpen k chan dir depth size pair next held reply s) := by
  unfold execSkwChannelOpen
  refine answers_of_next (kept_ite kept (kept_ite (kept_chanDrop (kept_skwTake kept)) ?_))
  split
  · exact kept_ite (kept_skwCtrl (kept_skwTake kept)) (kept_skwTake kept)
  · exact kept_ite (kept_ite (kept_skwTake kept) (kept_skwCtrl (kept_skwTake kept))) (kept_ite (kept_freeFlume (kept_ite (kept_put
      (kept_setFlm (kept_skwTake kept))) (kept_openMsg (kept_put (kept_setFlm (kept_skwTake kept)))))) (kept_holdHere (kept_raise (kept_ite
      (kept_skwTake kept) (kept_openMsg (kept_skwTake kept))))))

theorem kept_execSkwChannelClose {s₀ s : State} (kept : Kept s₀ s) {k : Fin 24} {chan : Fin 8192} {what : Fin 3} :
    Answers s₀ (execSkwChannelClose k chan what s) := by
  unfold execSkwChannelClose
  refine answers_of_next (kept_ite kept (kept_ite (kept_chanDrop (kept_skwTake kept)) ?_))
  split
  · exact kept_ite (kept_skwCtrl (kept_skwTake kept)) (kept_skwTake kept)
  · exact kept_ite (kept_ite (kept_holdFlume (kept_skwTake kept)) (kept_skwTake kept)) (kept_ite (kept_ite (kept_setFlume (kept_skwTake
      kept)) (kept_skwTake kept)) (kept_ite (kept_put (kept_holdFlume (kept_skwCtrl (kept_ite (kept_setFlume (kept_skwTake kept))
      (kept_skwTake kept))))) (kept_skwCtrl (kept_ite (kept_setFlume (kept_skwTake kept)) (kept_skwTake kept)))))

theorem kept_chanDrops {s₀ s : State} (kept : Kept s₀ s) {k ch n : Nat} : Kept s₀ (s.chanDrops k ch n) :=
  kept_foldl (fun _ _ kept1 => kept_chanDrop kept1) kept

theorem kept_storeRemote {s₀ s : State} (kept : Kept s₀ s) {k f : Nat} {h : Hdr} {data : List Byte} :
    Kept s₀ (s.storeRemote k f h data) := by
  unfold State.storeRemote
  split
  · exact kept
  · exact kept_skwSend (kept_ite (kept_count (kept_count (kept_put (kept_setFlm (kept_write kept))))) (kept_count (kept_put (kept_setFlm
      (kept_write kept)))))

theorem kept_execSkwRecordArrival {s₀ s : State} (kept : Kept s₀ s) {k : Fin 24} {chan : Fin 8192} {hdr : BitVec 512} {data :
    List (BitVec 8)} :
    Answers s₀ (execSkwRecordArrival k chan hdr data s) := by
  unfold execSkwRecordArrival
  refine answers_of_next (kept_ite kept (kept_ite (kept_chanDrops (kept_skwTake kept)) ?_))
  split
  · split
    · exact kept_count (kept_skwTake kept)
    · exact kept_skwTake kept
  · exact kept_ite (kept_count (kept_skwTake kept)) (kept_ite (kept_storeRemote (kept_skwTake kept)) (kept_ite (kept_skwSend (kept_skwTake
      kept)) (kept_holdHere (kept_raise (kept_skwTake kept)))))

theorem kept_execSkwRack {s₀ s : State} (kept : Kept s₀ s) {k : Fin 24} {chan : Fin 8192} {rseq : BitVec 32} :
    Answers s₀ (execSkwRack k chan rseq s) := by
  unfold execSkwRack
  refine answers_of_next (kept_ite kept (kept_ite (kept_chanDrop (kept_skwTake kept)) ?_))
  split
  · exact kept_skwTake kept
  · exact kept_setFlm (kept_skwTake kept)

theorem kept_execSkwCredit {s₀ s : State} (kept : Kept s₀ s) {k : Fin 24} {chan : Fin 8192} {n : BitVec 13} :
    Answers s₀ (execSkwCredit k chan n s) := by
  unfold execSkwCredit
  refine answers_of_next (kept_ite kept (kept_ite (kept_chanDrop (kept_skwTake kept)) ?_))
  split
  · exact kept_skwTake kept
  · exact kept_setFlm (kept_skwTake kept)

theorem kept_execSkwDownNotice {s₀ s : State} (kept : Kept s₀ s) {k : Fin 24} : Answers s₀ (execSkwDownNotice k s) :=
  answers_of_next (kept_ite (kept_setSkw (kept_skwTake kept)) kept)

theorem kept_execRedMessageUnlistedKind {s₀ s : State} (kept : Kept s₀ s) {k : Fin 24} {c : Fin 64} {kind : BitVec 8} {len : BitVec 16} :
    Answers s₀ (execRedMessageUnlistedKind k c kind len s) := answers_of_next (kept_ite (kept_raise (kept_skwTake kept)) kept)

theorem kept_linkRestart {s₀ s : State} (kept : Kept s₀ s) {k : Nat} : Kept s₀ (s.linkRestart k) :=
  kept_ite (kept_put (kept_setLock (kept_skwDrop kept))) (kept_setLock (kept_skwDrop kept))

theorem kept_cageSources {s₀ s : State} (kept : Kept s₀ s) {n : Nat} : Kept s₀ (s.cageSources n) :=
  kept_foldl (fun _ _ kept1 => kept_ite (kept_connect kept1) kept1) (kept_with kept)

theorem kept_execCageCommit {s₀ s : State} (kept : Kept s₀ s) {n : Fin 16} : Answers s₀ (execCageCommit n s) :=
  answers_of_next (kept_gated kept (kept_ite (kept_cfgRange kept) (kept_ite (kept_puts (kept_raise kept)) (kept_ite (kept_raise kept)
    (kept_ite (kept_puts (kept_raise kept)) (kept_holdDomains (kept_puts (kept_cageSources (kept_linkRestart (kept_linkRestart (kept_commit
    kept)))))))))))

theorem kept_execSkwCcommit {s₀ s : State} (kept : Kept s₀ s) {ch : Fin 8192} : Answers s₀ (execSkwCcommit ch s) :=
  answers_of_next (kept_gated kept (kept_ite (kept_cfgRange kept) (kept_ite (kept_raise kept) (kept_ite (kept_puts (kept_raise kept))
    (kept_puts (kept_commit kept))))))

theorem kept_execRedCommit {s₀ s : State} (kept : Kept s₀ s) {c : Fin 64} : Answers s₀ (execRedCommit c s) :=
  answers_of_next (kept_gated kept (kept_ite (kept_cfgRange kept) (kept_ite (kept_puts (kept_raise kept)) (kept_puts (kept_with
    (kept_commit kept))))))

theorem kept_execCagePresenceChange {s₀ s : State} (kept : Kept s₀ s) {n : Fin 12} {present : Bool} :
    Answers s₀ (execCagePresenceChange n present s) :=
  answers_of_next (kept_ite kept (kept_ite (kept_put kept) (kept_cageSources (kept_loseLock (kept_loseLock (kept_put kept))))))

theorem kept_execCageModuleOverpower {s₀ s : State} (kept : Kept s₀ s) {n : Fin 12} : Answers s₀ (execCageModuleOverpower n s) :=
  answers_of_next (kept_ite kept (kept_cageSources (kept_loseLock (kept_loseLock (kept_put kept)))))

theorem kept_ethRelease {s₀ s : State} (kept : Kept s₀ s) {n : Nat} : Kept s₀ (s.ethRelease n) :=
  kept_ite kept (kept_foldl (fun _ _ kept1 => kept_emit kept1) (kept_with kept))

theorem kept_execEthFrameReceive {s₀ s : State} (kept : Kept s₀ s) {k : Fin 24} {len : BitVec 14} {vlan : BitVec 12} {kind : EthKind} :
    Answers s₀ (execEthFrameReceive k len vlan kind s) := by
  unfold execEthFrameReceive
  refine answers_of_next (kept_ite ?_ kept)
  dsimp only
  split
  · exact kept_ite (kept_ethRelease (kept_with (kept_count kept))) (kept_count (kept_count kept))
  · refine kept_ite (kept_count (kept_count kept)) ?_
    split
    · exact kept_emit (kept_count (kept_count kept))
    · exact kept_ite (kept_count kept) (kept_count (kept_count kept))

theorem kept_execEthCnpReceive {s₀ s : State} (kept : Kept s₀ s) {k : Fin 24} {q : EthQp} : Answers s₀ (execEthCnpReceive k q s) :=
  answers_of_next (kept_ite (kept_ite (kept_with (kept_count (kept_count kept))) (kept_count (kept_count (kept_count kept)))) kept)

theorem kept_execEthRateIncrease {s₀ s : State} (kept : Kept s₀ s) {q : EthQp} : Answers s₀ (execEthRateIncrease q s) :=
  answers_of_next (kept_with kept)

/-! ### Machine/Spine -/

theorem kept_setSpn {s₀ s : State} (kept : Kept s₀ s) {i : Nat} {hi : Bool} {x : SpnEnd} : Kept s₀ (s.setSpn i hi x) := kept_with kept

theorem kept_spnSendClaim {s₀ s : State} (kept : Kept s₀ s) {i : Nat} {hi : Bool} : Kept s₀ (s.spnSendClaim i hi) := kept_emit kept

theorem kept_execSpnTrainingStart {s₀ s : State} (kept : Kept s₀ s) {i : Fin 4} {hi : Bool} {mask : BitVec 4} :
    Answers s₀ (execSpnTrainingStart i hi mask s) :=
  answers_of_next (kept_ite kept (kept_ite (kept_spnSendClaim (kept_setSpn (kept_put (kept_ite kept (kept_with (kept_puts (kept_setSpn
    kept))))))) kept))

theorem kept_execSpnClaim {s₀ s : State} (kept : Kept s₀ s) {i : Fin 4} {hi : Bool} {round : BitVec 3} {mask : BitVec 4} {epoch :
    BitVec 32} :
    Answers s₀ (execSpnClaim i hi round mask epoch s) := answers_of_next (kept_ite (kept_emit (kept_setSpn kept)) kept)

theorem kept_dropFlits {s₀ s : State} (kept : Kept s₀ s) {i : Nat} : Kept s₀ (s.dropFlits i) := kept_setSpnTx (kept_setSpnTx kept)

theorem kept_reroute {s₀ s : State} (kept : Kept s₀ s) {i : Nat} : Kept s₀ (s.reroute i) :=
  kept_foldl (fun _ _ kept1 => kept_ite (kept_flits (kept_with kept1)) kept1) kept

theorem kept_spnLose {s₀ s : State} (kept : Kept s₀ s) {i : Nat} : Kept s₀ (s.spnLose i) :=
  kept_ite (kept_fatal (kept_dropFlits (kept_puts (kept_setSpn (kept_setSpn kept))))) (kept_reroute (kept_dropFlits (kept_puts (kept_setSpn
    (kept_setSpn kept)))))

theorem kept_spnFail {s₀ s : State} (kept : Kept s₀ s) {i : Nat} {hi : Bool} {peerMask : Nat} : Kept s₀ (s.spnFail i hi peerMask) :=
  kept_ite (kept_spnLose (kept_put kept)) (kept_spnSendClaim (kept_setSpn (kept_put kept)))

theorem kept_spnSettle {s₀ s : State} (kept : Kept s₀ s) {i mask : Nat} : Kept s₀ (s.spnSettle i mask) :=
  kept_ite (kept_spnLose (kept_count (kept_puts (kept_setSpn (kept_setSpn kept))))) (kept_ite (kept_raise (kept_count (kept_puts
    (kept_setSpn (kept_setSpn kept))))) (kept_count (kept_puts (kept_setSpn (kept_setSpn kept)))))

theorem kept_execSpnEcho {s₀ s : State} (kept : Kept s₀ s) {i : Fin 4} {hi : Bool} {round : BitVec 3} {mask : BitVec 4} {epoch :
    BitVec 32} :
    Answers s₀ (execSpnEcho i hi round mask epoch s) := by
  unfold execSpnEcho
  refine answers_of_next (kept_ite ?_ kept)
  split
  · exact kept
  · exact kept_ite (kept_ite (kept_spnSettle (kept_setSpn kept)) (kept_setSpn kept)) (kept_spnFail kept)

theorem kept_execSpnRoundTimeout {s₀ s : State} (kept : Kept s₀ s) {i : Fin 4} {hi : Bool} : Answers s₀ (execSpnRoundTimeout i hi s) :=
  answers_of_next (kept_ite (kept_spnFail kept) kept)

theorem kept_execSpnFlitReceive {s₀ s : State} (kept : Kept s₀ s) {i : Fin 4} {hi : Bool} {ok : Bool} :
    Answers s₀ (execSpnFlitReceive i hi ok s) :=
  answers_of_next (kept_ite kept (kept_ite (kept_ite kept (kept_setSpnTx kept)) (kept_ite (kept_emit (kept_count (kept_with kept)))
    (kept_foldl (fun _ _ kept1 => kept_emit kept1) (kept_count (kept_with kept))))))

/-! ### Machine/Partner -/

theorem kept_setPart {s₀ s : State} (kept : Kept s₀ s) {u : Nat} {x : Part} : Kept s₀ (s.setPart u x) := kept_with kept

theorem kept_judgeSite {s₀ s : State} (kept : Kept s₀ s) {u : Nat} : Kept s₀ (s.judgeSite u) :=
  kept_ite (kept_holdDomains (kept_raise (kept_put (kept_puts kept)))) (kept_holdDomains (kept_put (kept_puts kept)))

theorem kept_siteDown {s₀ s : State} (kept : Kept s₀ s) {u : Nat} : Kept s₀ (s.siteDown u) :=
  kept_holdDomains (kept_raise (kept_setPart (kept_puts kept)))

theorem kept_execPartnerSiteTrained {s₀ s : State} (kept : Kept s₀ s) {u : Fin 2} {t : SiteTrain} {valid : Bool} {ver : BitVec 8}
    {kind most : BitVec 16} {root : List (BitVec 8)} {spdm : Bool} :
    Answers s₀ (execPartnerSiteTrained u t valid ver kind most root spdm s) :=
  answers_of_next (kept_ite kept (kept_ite (kept_siteDown (kept_foldl (fun _ _ kept1 => kept_emit kept1) (kept_puts kept))) (kept_ite
    (kept_judgeSite (kept_setPart (kept_ite (kept_raise (kept_foldl (fun _ _ kept1 => kept_emit kept1) (kept_puts kept))) (kept_foldl (fun
    _ _ kept1 => kept_emit kept1) (kept_puts kept))))) (kept_ite (kept_raise (kept_foldl (fun _ _ kept1 => kept_emit kept1) (kept_puts
    kept))) (kept_foldl (fun _ _ kept1 => kept_emit kept1) (kept_puts kept))))))

theorem kept_execPartnerSiteLost {s₀ s : State} (kept : Kept s₀ s) {u : Fin 2} : Answers s₀ (execPartnerSiteLost u s) :=
  answers_of_next (kept_ite kept (kept_siteDown kept))

theorem kept_siteRefuse {s₀ s : State} (kept : Kept s₀ s) {u : Nat} {e : Exc} : Kept s₀ (s.siteRefuse u e) := kept_emit (kept_raise kept)

theorem kept_siteAccess {s₀ s : State} (kept : Kept s₀ s) {u a n : Nat} {wr : Bool} {go : State → State}
    (kept_go : ∀ t, Kept s₀ t → Kept s₀ (go t)) : Kept s₀ (s.siteAccess u a n wr go) := by
  unfold State.siteAccess
  refine kept_ite (kept_emit (kept_permLog kept)) ?_
  split
  · exact kept_siteRefuse kept
  · exact kept_crossFrom (kept_go _ kept)

theorem kept_siteDo {s₀ s : State} (kept : Kept s₀ s) {u : Nat} {r : PartReq} : ∀ t, s.siteDo u r = some t → Kept s₀ t := by
  unfold State.siteDo
  dsimp only
  split
  · exact kept_some (kept_siteAccess kept (fun _ kept1 => kept_emit (kept_noteUse kept1)))
  · exact kept_some (kept_siteAccess kept (fun _ kept1 => kept_emit (kept_ite (kept_payloadBad (kept_write (kept_mergeNote kept1)))
      (kept_write (kept_mergeNote kept1)))))
  · split
    · exact kept_some (kept_siteRefuse kept)
    · refine kept_ite_some (kept_some (kept_emit (kept_reserve kept))) ?_
      split
      · exact kept_some (kept_siteRefuse kept)
      · exact kept_none
  · split
    · exact kept_some (kept_siteRefuse kept)
    · exact kept_some (kept_emit (kept_sendPkt (kept_sendCommit kept)))
  · split
    · exact kept_some (kept_siteRefuse kept)
    · split
      · exact kept_some (kept_emit (kept_takeRec kept))
      · split
        · exact kept_some (kept_siteRefuse kept)
        · exact kept_none
  · split
    · exact kept_some (kept_siteRefuse kept)
    · exact kept_some (kept_emit (kept_releaseRec kept))

theorem kept_execPartnerRequest {s₀ s : State} (kept : Kept s₀ s) {u : Fin 2} {r : PartReq} : Answers s₀ (execPartnerRequest u r s) := by
  unfold execPartnerRequest
  refine answers_of_next (kept_ite kept (kept_ite (kept_raise kept) ?_))
  split
  next t heq =>
    exact (kept_siteDo kept _ heq)
  · exact kept_ite kept (kept_setPart kept)

/-! ### Machine/Ring -/

theorem kept_setSring {s₀ s : State} (kept : Kept s₀ s) {c q : Nat} {x : SRing} : Kept s₀ (s.setSring c q x) := kept_with kept

theorem kept_askFetch {s₀ s : State} (kept : Kept s₀ s) {c q : Nat} : Kept s₀ (s.askFetch c q) :=
  kept_ite (kept_foldl (fun _ _ kept1 => kept_emit kept1) (kept_setSring kept)) kept

theorem kept_execSqDoorbell {s₀ s : State} (kept : Kept s₀ s) {c : Fin 64} {q : Fin 16} {size : BitVec 4} {v : BitVec 13} :
    Answers s₀ (execSqDoorbell c q size v s) :=
  answers_of_next (kept_ite kept (kept_ite (kept_cfgRange kept) (kept_askFetch (kept_put kept))))

theorem kept_setCring {s₀ s : State} (kept : Kept s₀ s) {c q : Nat} {x : CRing} : Kept s₀ (s.setCring c q x) := kept_with kept

theorem kept_execCqDoorbell {s₀ s : State} (kept : Kept s₀ s) {c : Fin 64} {q : Fin 16} {size : BitVec 4} {v : BitVec 13} :
    Answers s₀ (execCqDoorbell c q size v s) :=
  answers_of_next (kept_ite kept (kept_ite (kept_cfgRange kept) (kept_ite (kept_setCring (kept_put kept)) (kept_put kept))))

theorem kept_execRingCommit {s₀ s : State} (kept : Kept s₀ s) {c : Fin 64} {cq : Bool} {q : Fin 16} :
    Answers s₀ (execRingCommit c cq q s) :=
  answers_of_next (kept_gated kept (kept_ite (kept_cfgRange kept) (kept_ite (kept_puts (kept_raise kept)) (kept_puts (kept_ite (kept_ite
    (kept_setCring (kept_puts (kept_commit kept))) (kept_commit kept)) (kept_ite (kept_puts (kept_commit kept)) (kept_ite (kept_setSring
    (kept_commit kept)) (kept_commit kept))))))))

theorem kept_rcEnd {s₀ s : State} (kept : Kept s₀ s) {c q st r0 r1 : Nat} : Kept s₀ (s.rcEnd c q st r0 r1) := kept_setSring kept

theorem kept_rcFail {s₀ s : State} (kept : Kept s₀ s) {c q code st r0 : Nat} : Kept s₀ (s.rcFail c q code st r0) :=
  kept_rcEnd (kept_raise kept)

theorem kept_rcStart {s₀ s : State} (kept : Kept s₀ s) {c q : Nat} : Kept s₀ (s.rcStart c q) := by
  unfold State.rcStart
  split
  · exact kept
  · exact kept_ite (kept_rcFail kept) kept

theorem kept_execRingFetch {s₀ s : State} (kept : Kept s₀ s) {c : Fin 64} {q : Fin 16} {entries : List (BitVec 512)} :
    Answers s₀ (execRingFetch c q entries s) :=
  answers_of_next (kept_ite kept (kept_askFetch (kept_ite (kept_rcStart (kept_foldl (fun _ _ kept1 => kept_with (kept_setSring (kept_put
    kept1))) kept)) (kept_foldl (fun _ _ kept1 => kept_with (kept_setSring (kept_put kept1))) kept))))

theorem kept_rcRun {s₀ s : State} (kept : Kept s₀ s) {c q op : Nat} {go : List Byte → State → State}
    (kept_go : ∀ e t, Kept s₀ t → Kept s₀ (go e t)) : Kept s₀ (s.rcRun c q op go) := by
  unfold State.rcRun
  split
  · exact kept_ite (kept_go _ _ kept) kept
  · exact kept

theorem kept_execCmdNop {s₀ s : State} (kept : Kept s₀ s) {c : Fin 64} {q : Fin 16} : Answers s₀ (execCmdNop c q s) :=
  answers_of_next (kept_rcRun kept (fun _ _ kept1 => kept_rcEnd kept1))

theorem kept_rcDown {s₀ s : State} (kept : Kept s₀ s) {c q code a m : Nat} : Kept s₀ (s.rcDown c q code a m) := kept_rcEnd (kept_raise kept)

theorem kept_rcWait {s₀ s : State} (kept : Kept s₀ s) {c q : Nat} : Kept s₀ (s.rcWait c q) := kept_setSring kept

theorem kept_execCmdCopy {s₀ s : State} (kept : Kept s₀ s) {c : Fin 64} {q : Fin 16} : Answers s₀ (execCmdCopy c q s) := by
  unfold execCmdCopy
  refine answers_of_next (kept_rcRun kept (fun _ _ kept1 => kept_ite (kept_rcEnd kept1) (kept_ite (kept_rcEnd (kept_permLog kept1))
    (kept_ite (kept_rcWait kept1) (kept_ite ?_ (kept_emit (kept_setSring kept1)))))))
  dsimp only
  split
  · exact kept_rcDown (kept_emit (kept_crossing (kept_noteUse kept1)))
  · exact kept_rcEnd (kept_emit (kept_crossing (kept_noteUse kept1)))

theorem kept_moveIn {s₀ s : State} (kept : Kept s₀ s) {n a : Nat} {bs : List Byte} : Kept s₀ (State.moveIn n a bs s).st := by
  induction n generalizing s a bs with
  | zero => exact kept
  | succ n ih =>
    unfold State.moveIn
    split
    · exact kept
    · split
      · exact kept
      · exact ih (kept_write kept)

theorem kept_moveTo {s₀ s : State} (kept : Kept s₀ s) {c a : Nat} {bs : List Byte} : Kept s₀ (s.moveTo c a bs).st :=
  kept_crossing (kept_moveIn (kept_mergeNote kept))

theorem kept_wroteEnd {s₀ : State} {r : Moved} (kept : Kept s₀ r.st) {c q a : Nat} : Kept s₀ (State.wroteEnd c q a r) := by
  unfold State.wroteEnd
  split
  · exact kept_rcDown kept
  · exact kept_rcEnd kept

theorem kept_execCmdFill {s₀ s : State} (kept : Kept s₀ s) {c : Fin 64} {q : Fin 16} : Answers s₀ (execCmdFill c q s) :=
  answers_of_next (kept_rcRun kept (fun _ _ kept1 => kept_ite (kept_rcEnd kept1) (kept_ite (kept_rcEnd (kept_permLog kept1)) (kept_wroteEnd
    (kept_moveTo kept1)))))

theorem kept_flmFail {s₀ s : State} (kept : Kept s₀ s) {c q : Nat} {e : Exc} : Kept s₀ (s.flmFail c q e) :=
  kept_rcEnd (kept_raise (kept_ite (kept_with kept) kept))

theorem kept_execCmdPush {s₀ s : State} (kept : Kept s₀ s) {c : Fin 64} {q : Fin 16} : Answers s₀ (execCmdPush c q s) := by
  unfold execCmdPush
  refine answers_of_next (kept_rcRun kept (fun _ _ kept1 => kept_ite (kept_rcFail kept1) ?_))
  split
  · exact kept_flmFail kept1
  · refine kept_ite (kept_flmFail kept1) (kept_ite (kept_rcEnd kept1) (kept_ite ?_ (kept_ite (kept_rcEnd (kept_permLog kept1)) (kept_ite
      (kept_rcWait kept1) (kept_emit (kept_setSring (kept_reserve kept1)))))))
    split
    · exact kept_flmFail kept1
    · exact kept_rcWait kept1

theorem kept_dropResv {s₀ s : State} (kept : Kept s₀ s) {f : Nat} {lost : FlmRec → Bool} : Kept s₀ (s.dropResv f lost) :=
  kept_ite kept (kept_put (kept_setFlm kept))

theorem kept_unreserve {s₀ s : State} (kept : Kept s₀ s) {o f : Nat} : Kept s₀ (s.unreserve o f) := kept_sendRemote (kept_dropResv kept)

theorem kept_hostCommit {s₀ s : State} (kept : Kept s₀ s) {o f : Nat} {h : Hdr} {bad : Bool} : Kept s₀ (s.hostCommit o f h bad).1 :=
  kept_sendRemote (kept_commitRec (kept_setFlume kept))

theorem kept_execHostReadCompletion {s₀ s : State} (kept : Kept s₀ s) {c : Fin 64} {q : Fin 16} {ok : Bool} {data : List (BitVec 8)} :
    Answers s₀ (execHostReadCompletion c q ok data s) := by
  unfold execHostReadCompletion
  refine answers_of_next ?_
  split
  · exact kept
  · refine kept_ite kept (kept_ite (kept_ite (kept_wroteEnd (kept_moveTo kept)) (kept_rcFail kept)) (kept_ite (kept_rcFail (kept_unreserve
      kept)) ?_))
    dsimp only
    split
    · exact kept_flmFail (kept_unreserve kept)
    · split
      · exact kept
      · split
        · exact kept_rcDown (kept_unreserve (kept_moveTo kept))
        · exact kept_rcEnd (kept_hostCommit (kept_moveTo kept))

theorem kept_execCmdPop {s₀ s : State} (kept : Kept s₀ s) {c : Fin 64} {q : Fin 16} : Answers s₀ (execCmdPop c q s) := by
  unfold execCmdPop
  refine answers_of_next (kept_rcRun kept (fun _ _ kept1 => ?_))
  dsimp only
  split
  · exact kept_flmFail kept1
  · split
    · refine kept_ite (kept_rcEnd kept1) ?_
      split
      · exact kept_flmFail kept1
      · exact kept_rcWait kept1
    · refine kept_ite (kept_rcEnd kept1) (kept_ite (kept_flmFail kept1) (kept_ite (kept_rcEnd (kept_permLog kept1)) (kept_ite (kept_rcWait
        kept1) ?_)))
      split
      · exact kept_rcDown kept1
      · exact kept_rcEnd (kept_releaseRec (kept_takeRec (kept_emit (kept_crossing (kept_noteUse kept1)))))

theorem kept_execCmdFence {s₀ s : State} (kept : Kept s₀ s) {c : Fin 64} {q : Fin 16} : Answers s₀ (execCmdFence c q s) :=
  answers_of_next (kept_rcRun kept (fun _ _ kept1 => kept_ite (kept_rcWait kept1) (kept_rcEnd kept1)))

theorem kept_rcNext {s₀ s : State} (kept : Kept s₀ s) {c q : Nat} : Kept s₀ (s.rcNext c q) :=
  kept_askFetch (kept_rcStart (kept_setSring kept))

theorem kept_cqVector {s₀ s : State} (kept : Kept s₀ s) {c k : Nat} : Kept s₀ (s.cqVector c k) := kept_vector (kept_setCring kept)

theorem kept_execCqEntryWrite {s₀ s : State} (kept : Kept s₀ s) {c : Fin 64} {q : Fin 16} : Answers s₀ (execCqEntryWrite c q s) := by
  unfold execCqEntryWrite
  refine answers_of_next ?_
  split
  · exact kept_ite (kept_rcNext kept) (kept_ite kept (kept_rcNext (kept_ite (kept_cqVector (kept_setCring (kept_put (kept_emit kept))))
      (kept_setCring (kept_put (kept_emit kept))))))
  · exact kept

theorem kept_execCqCoalesceTimer {s₀ s : State} (kept : Kept s₀ s) {c : Fin 64} {q : Fin 16} :
    Answers s₀ (execCqCoalesceTimer c q s) := answers_of_next (kept_ite (kept_cqVector kept) kept)

theorem kept_endHeldWaits {s₀ s : State} (kept : Kept s₀ s) {f : Nat} : Kept s₀ (s.endHeldWaits f) := by
  unfold State.endHeldWaits
  refine kept_foldl (fun _ _ kept1 => ?_) kept
  split
  · exact kept_takeExc kept1
  · exact kept1

theorem kept_endRingWaits {s₀ s : State} (kept : Kept s₀ s) {f : Nat} : Kept s₀ (s.endRingWaits f) :=
  kept_foldl (fun _ _ kept1 => kept_ite (kept_flmFail kept1) kept1) kept

theorem kept_endSiteWaits {s₀ s : State} (kept : Kept s₀ s) {f : Nat} : Kept s₀ (s.endSiteWaits f) :=
  kept_foldl (fun _ _ kept1 => kept_ite (kept_setPart (kept_foldl (fun _ _ kept2 => kept_siteRefuse kept2) kept1)) (kept_foldl (fun _ _
    kept2 => kept_siteRefuse kept2) kept1)) kept

theorem kept_execFlmHeldTimeout {s₀ s : State} (kept : Kept s₀ s) {f : Fin 8192} : Answers s₀ (execFlmHeldTimeout f s) :=
  answers_of_next (kept_ite (kept_endSiteWaits (kept_endRingWaits (kept_endHeldWaits kept))) kept)

/-! ### Machine/Shrink -/

theorem kept_tellLost {s₀ s : State} (kept : Kept s₀ s) {c f k : Nat} : Kept s₀ (s.tellLost c f k) :=
  kept_foldl (fun _ _ kept1 => kept_redOn kept1) kept

theorem kept_execModuleLostMsg {s₀ s : State} (kept : Kept s₀ s) {h : RedHdr} {f : BitVec 16} {k : Fin 24} :
    Answers s₀ (execModuleLostMsg h f k s) :=
  answers_of_next (kept_redIn kept (fun _ kept1 => kept_ite kept1 (kept_tellLost (kept_modJob kept1))))

theorem kept_execModuleLostDeclare {s₀ s : State} (kept : Kept s₀ s) {c : Fin 64} {which : Fin 3} :
    Answers s₀ (execModuleLostDeclare c which s) := by
  unfold execModuleLostDeclare
  refine answers_of_next ?_
  split
  · exact kept
  · exact kept_ite kept (kept_tellLost (kept_modJob (kept_raise kept)))

theorem kept_wipe {s₀ s : State} (kept : Kept s₀ s) {a n : Nat} : Kept s₀ (s.wipe a n) :=
  kept_with (kept_mem kept (KMap.wf_dropRange _ _ _ _))

theorem kept_wipeFlume {s₀ s : State} (kept : Kept s₀ s) {f : Nat} : Kept s₀ (s.wipeFlume f) :=
  kept_foldl (fun _ _ kept1 => kept_wipe kept1) kept

theorem kept_unbindFlume {s₀ s : State} (kept : Kept s₀ s) {f : Nat} : Kept s₀ (s.unbindFlume f) :=
  kept_setFlume (kept_regReset (kept_regReset kept))

theorem kept_startAgain {s₀ s : State} (kept : Kept s₀ s) {c : Nat} : Kept s₀ (s.startAgain c) := by
  unfold State.startAgain
  split
  · exact kept_startPhase kept
  · exact kept

theorem kept_remakeFlume {s₀ s : State} (kept : Kept s₀ s) {f : Nat} : Kept s₀ (s.remakeFlume f) := by
  unfold State.remakeFlume
  split
  · exact kept
  · exact kept_ite (kept_startAgain (kept_modJob (kept_flmSync (kept_openFlume (kept_puts kept))))) (kept_modJob (kept_flmSync
      (kept_openFlume (kept_puts kept))))

theorem kept_execFlmZeroingDone {s₀ s : State} (kept : Kept s₀ s) {f : Fin 8192} : Answers s₀ (execFlmZeroingDone f s) :=
  answers_of_next (kept_ite (kept_remakeFlume (kept_unbindFlume (kept_wipeFlume kept))) kept)

theorem kept_shrinkRoute {s₀ s : State} (kept : Kept s₀ s) {c n f m : Nat} : Kept s₀ (s.shrinkRoute c n f m) := kept_puts kept

theorem kept_recoverLayers {s₀ s : State} (kept : Kept s₀ s) {c f : Nat} {old new : CutTable} :
    Kept s₀ (s.recoverLayers c f old new) :=
  kept_foldl_fst (fun _ _ kept1 => kept_foldl (fun _ _ kept2 => kept_ite (kept_s0Write kept2) (kept_redSend kept2)) (kept_s0Note kept1))
    kept

theorem kept_haltSeqs {s₀ s : State} (kept : Kept s₀ s) {c : Nat} : Kept s₀ (s.haltSeqs c) :=
  kept_foldl (fun _ _ kept1 => kept_ite (kept_setSeqState (kept_stopIssue kept1)) kept1) kept

theorem kept_dropBuilding {s₀ s : State} (kept : Kept s₀ s) {c : Nat} : Kept s₀ (s.dropBuilding c) :=
  kept_foldl (fun _ _ kept1 => kept_ite (kept_foldl (fun _ _ kept2 => kept_ite (kept_put (kept_ite (kept_with kept2) kept2)) kept2) kept1)
    kept1) kept

theorem kept_breakCkpt {s₀ s : State} (kept : Kept s₀ s) {c : Nat} : Kept s₀ (s.breakCkpt c) :=
  kept_ite (kept_modCkpt (kept_put (kept_modCkpt (kept_buddyDrop kept)))) (kept_put (kept_modCkpt (kept_buddyDrop kept)))

theorem kept_redrawWithout {s₀ s : State} (kept : Kept s₀ s) {c f : Nat} {t : CutTable} : Kept s₀ (s.redrawWithout c f t) := by
  unfold State.redrawWithout
  refine kept_ite (kept_startAgain (kept_breakCkpt (kept_ite (kept_recoverLayers (kept_foldl (fun _ _ kept1 => ?_) (kept_put (kept_setJob
    (kept_shrinkRoute (kept_foldl (fun _ _ kept1 => kept_puts (kept_clearMarks kept1)) (kept_dropBuilding (kept_foldl (fun _ _ kept1 =>
    kept_closeFlume kept1) (kept_haltSeqs kept))))))))) (kept_foldl (fun _ _ kept1 => ?_) (kept_put (kept_setJob (kept_shrinkRoute
    (kept_foldl (fun _ _ kept1 => kept_puts (kept_clearMarks kept1)) (kept_dropBuilding (kept_foldl (fun _ _ kept1 => kept_closeFlume
    kept1) (kept_haltSeqs kept))))))))))) (kept_breakCkpt (kept_ite (kept_recoverLayers (kept_foldl (fun _ _ kept1 => ?_) (kept_put
    (kept_setJob (kept_shrinkRoute (kept_foldl (fun _ _ kept1 => kept_puts (kept_clearMarks kept1)) (kept_dropBuilding (kept_foldl (fun _ _
    kept1 => kept_closeFlume kept1) (kept_haltSeqs kept))))))))) (kept_foldl (fun _ _ kept1 => ?_) (kept_put (kept_setJob (kept_shrinkRoute
    (kept_foldl (fun _ _ kept1 => kept_puts (kept_clearMarks kept1)) (kept_dropBuilding (kept_foldl (fun _ _ kept1 => kept_closeFlume
    kept1) (kept_haltSeqs kept))))))))))
  · split
    · exact kept_setPending (kept_with kept1)
    · exact kept1
  · split
    · exact kept_setPending (kept_with kept1)
    · exact kept1
  · split
    · exact kept_setPending (kept_with kept1)
    · exact kept1
  · split
    · exact kept_setPending (kept_with kept1)
    · exact kept1

theorem kept_execShrink {s₀ s : State} (kept : Kept s₀ s) {c : Fin 64} {bankOk : Bool} : Answers s₀ (execShrink c bankOk s) := by
  unfold execShrink
  refine answers_of_next ?_
  split
  · exact kept_ite kept (kept_ite (kept_haltCtx kept) (kept_ite (kept_redrawWithout kept) (kept_haltCtx (kept_raise kept))))
  · exact kept

/-! ### Machine/Meter -/

theorem kept_sampleOne {s₀ s : State} (kept : Kept s₀ s) {key : Nat} {f : Fld} {w owner : Nat} : Kept s₀ (s.sampleOne key f w owner) :=
  kept_with kept

theorem kept_sampleDies {s₀ s : State} (kept : Kept s₀ s) {lo hi : Nat} : Kept s₀ (s.sampleDies lo hi) :=
  kept_foldl (fun _ _ kept1 => kept_ite (kept_foldl (fun _ _ kept2 => kept_sampleOne kept2) kept1) kept1) kept

theorem kept_sampleActivity {s₀ s : State} (kept : Kept s₀ s) : Kept s₀ (s.sampleActivity) :=
  kept_foldl (fun _ _ kept1 => kept_sampleOne kept1) (kept_sampleDies kept)

theorem kept_aliasSign {s₀ s : State} (kept : Kept s₀ s) {msg : List Byte} : Kept s₀ (s.aliasSign msg).1 := kept_with kept

theorem kept_publishStmt {s₀ s : State} (kept : Kept s₀ s) {r : List Byte} {gap : Bool} : Kept s₀ (s.publishStmt r gap) :=
  kept_put (kept_with (kept_aliasSign kept))

theorem kept_interval {s₀ s : State} (kept : Kept s₀ s) {p r : List Byte} : Kept s₀ (s.interval p r) :=
  kept_publishStmt (kept_with (kept_sampleActivity kept))

theorem kept_apportion {s₀ s : State} (kept : Kept s₀ s) {r : List Byte} : Kept s₀ (s.apportion r) := by
  unfold State.apportion
  dsimp only
  split
  · exact kept_with (kept_sampleActivity kept)
  · exact kept_ite (kept_with (kept_sampleActivity (kept_raise kept))) (kept_interval kept)

theorem kept_copyLog {s₀ s : State} (kept : Kept s₀ s) : Kept s₀ (s.copyLog) :=
  kept_put (kept_foldl (fun _ _ kept1 => kept_with kept1) kept)

theorem kept_mirror {s₀ s : State} (kept : Kept s₀ s) {r : List Byte} : Kept s₀ (s.mirror r) := kept_copyLog (kept_puts (kept_with kept))

theorem kept_execMeterRecordReceived {s₀ s : State} (kept : Kept s₀ s) : Answers s₀ (execMeterRecordReceived s) := by
  unfold execMeterRecordReceived
  refine answers_of_next ?_
  split
  · exact kept
  · exact kept_ite (kept_with (kept_with kept)) (kept_apportion (kept_ite (kept_raise (kept_ite (kept_raise (kept_mirror (kept_with kept)))
      (kept_mirror (kept_with kept)))) (kept_ite (kept_raise (kept_mirror (kept_with kept))) (kept_mirror (kept_with kept)))))

theorem kept_execMeterLinkTimeout {s₀ s : State} (kept : Kept s₀ s) : Answers s₀ (execMeterLinkTimeout s) :=
  answers_of_next (kept_ite (kept_with (kept_raise (kept_put kept))) kept)

/-! ### Machine/Scaler -/

theorem kept_modScaler {s₀ s : State} (kept : Kept s₀ s) {f : Scaler → Scaler} : Kept s₀ (s.modScaler f) := kept_with kept

theorem kept_execScalerRecord {s₀ s : State} (kept : Kept s₀ s) {gain : BitVec 64} {power : BitVec 32} {volts amps : BitVec 16} {ovr :
    Bool} :
    Answers s₀ (execScalerRecord gain power volts amps ovr s) := answers_of_next (kept_ite kept (kept_with (kept_modScaler kept)))

theorem kept_execScalerPulse {s₀ s : State} (kept : Kept s₀ s) : Answers s₀ (execScalerPulse s) :=
  answers_of_next (kept_ite (kept_emit (kept_modScaler kept)) kept)

theorem kept_execScalerPowerUp {s₀ s : State} (kept : Kept s₀ s) {ok : Bool} {id : ScalerId} :
    Answers s₀ (execScalerPowerUp ok id s) := answers_of_next (kept_ite kept (kept_modScaler kept))

theorem kept_execScalerPowerDown {s₀ s : State} (kept : Kept s₀ s) {volts : BitVec 16} : Answers s₀ (execScalerPowerDown volts s) :=
  answers_of_next (kept_ite (kept_modScaler kept) kept)

theorem kept_execScalerSealBroken {s₀ s : State} (kept : Kept s₀ s) : Answers s₀ (execScalerSealBroken s) :=
  answers_of_next (kept_ite kept (kept_modScaler kept))

theorem kept_execScalerInputEvent {s₀ s : State} (kept : Kept s₀ s) {kind : Fin 3} {datum : BitVec 16} :
    Answers s₀ (execScalerInputEvent kind datum s) := answers_of_next (kept_ite (kept_modScaler kept) kept)

theorem kept_execScalerReverification {s₀ s : State} (kept : Kept s₀ s) {fwid : BitVec 64} {cksum : BitVec 32} :
    Answers s₀ (execScalerReverification fwid cksum s) := answers_of_next (kept_modScaler kept)

/-! ### Machine/Host -/

theorem kept_beginTeardown {s₀ s : State} (kept : Kept s₀ s) {c : Nat} : Kept s₀ (s.beginTeardown c) :=
  kept_ite (kept_haltSeqs (kept_with (kept_put kept))) kept

theorem kept_dropVfs {s₀ s : State} (kept : Kept s₀ s) : Kept s₀ (s.dropVfs) := kept_with kept

theorem kept_execVfEnable {s₀ s : State} (kept : Kept s₀ s) {on : Bool} {num : Fin 64} : Answers s₀ (execVfEnable on num s) :=
  answers_of_next (kept_ite kept (kept_ite (kept_ite (kept_foldl (fun _ _ kept1 => kept_ite (kept_put kept1) kept1) (kept_with kept)) kept)
    (kept_ite kept (kept_foldl (fun _ _ kept1 => kept_beginTeardown kept1) (kept_dropVfs kept)))))

theorem kept_bar4Ur {s₀ s : State} (kept : Kept s₀ s) {c : Nat} : Kept s₀ (s.bar4Ur c) := kept_emit kept

theorem kept_execBar4Read {s₀ s : State} (kept : Kept s₀ s) {c : Fin 64} {off : BitVec 48} {n : BitVec 12} :
    Answers s₀ (execBar4Read c off n s) := by
  unfold execBar4Read
  refine answers_of_next (kept_ite kept (kept_ite (kept_bar4Ur kept) (kept_ite (kept_emit kept) (kept_ite (kept_emit (kept_raise kept))
    (kept_ite (kept_bar4Ur kept) (kept_ite (kept_bar4Ur (kept_permLog kept)) ?_))))))
  split
  · exact kept_bar4Ur (kept_raise kept)
  · exact kept_emit (kept_crossing (kept_noteUse kept))

theorem kept_execBar4Write {s₀ s : State} (kept : Kept s₀ s) {c : Fin 64} {off : BitVec 48} {data : List (BitVec 8)} :
    Answers s₀ (execBar4Write c off data s) := by
  unfold execBar4Write
  refine answers_of_next (kept_ite kept (kept_ite (kept_raise kept) (kept_ite kept (kept_ite (kept_permLog kept) ?_))))
  split
  · exact kept_raise kept
  · exact kept_foldl (fun _ _ kept1 => kept_noteBad kept1) (kept_crossing (kept_write kept))

theorem kept_execPwrPdoffWrite {s₀ s : State} (kept : Kept s₀ s) {m : Master} {j : Fin 2} {v : BitVec 64} :
    Answers s₀ (execPwrPdoffWrite m j v s) :=
  answers_of_next (kept_gated kept (kept_ite (kept_ownDrop kept) (kept_holdDomains (kept_put (kept_ite (kept_cfgRange kept) kept)))))

theorem kept_dieResult {s₀ s : State} (kept : Kept s₀ s) {n r : Nat} : Kept s₀ (s.dieResult n r) := kept_puts kept

theorem kept_execDieCmdAssign {s₀ s : State} (kept : Kept s₀ s) {die : Fin 24} {c : Fin 64} : Answers s₀ (execDieCmdAssign die c s) :=
  answers_of_next (kept_gated kept (kept_ite (kept_raise kept) (kept_ite (kept_cfgRange kept) (kept_ite (kept_dieResult (kept_raise kept))
    (kept_dieResult (kept_sampleActivity (kept_holdDomains (kept_puts kept))))))))

theorem kept_execDieCmdRelease {s₀ s : State} (kept : Kept s₀ s) {die : Fin 24} : Answers s₀ (execDieCmdRelease die s) :=
  answers_of_next (kept_gated kept (kept_ite (kept_raise kept) (kept_ite (kept_cfgRange kept) (kept_ite (kept_dieResult (kept_raise kept))
    (kept_dieResult (kept_sampleActivity (kept_put kept)))))))

theorem kept_wipeDie {s₀ s : State} (kept : Kept s₀ s) {n : Nat} : Kept s₀ (s.wipeDie n) :=
  kept_with (kept_tiles (kept_wipe kept) (KMap.wf_dropRange _ _ _ _))

theorem kept_unassign {s₀ s : State} (kept : Kept s₀ s) {n : Nat} : Kept s₀ (s.unassign n) := kept_holdDomains (kept_with (kept_puts kept))

theorem kept_execDieReleaseZeroed {s₀ s : State} (kept : Kept s₀ s) {die : Fin 24} : Answers s₀ (execDieReleaseZeroed die s) :=
  answers_of_next (kept_ite (kept_unassign (kept_wipeDie kept)) kept)

theorem kept_execOwnLockWrite {s₀ s : State} (kept : Kept s₀ s) {m : Master} {lockdown : Bool} {mgmt : BitVec 8} :
    Answers s₀ (execOwnLockWrite m lockdown mgmt s) := by
  unfold execOwnLockWrite
  refine answers_of_next (kept_gated kept ?_)
  split
  · exact kept
  · exact kept_ite kept (kept_puts kept)

theorem kept_orderResult {s₀ s : State} (kept : Kept s₀ s) {o : Order} {r : Nat} : Kept s₀ (s.orderResult o r) :=
  kept_ite (kept_puts kept) (kept_ite (kept_with kept) kept)

theorem kept_wakeFor {s₀ s : State} (kept : Kept s₀ s) : Kept s₀ (s.wakeFor) := kept_ite (kept_puts kept) kept

theorem kept_execOrderSlotEnd {s₀ s : State} (kept : Kept s₀ s) : Answers s₀ (execOrderSlotEnd s) :=
  answers_of_next (kept_wakeFor (kept_with (kept_foldl (fun _ _ kept1 => kept_orderResult kept1) kept)))

theorem kept_orderDone {s₀ s : State} (kept : Kept s₀ s) {o : Order} : Kept s₀ (s.orderDone o) := kept_orderResult (kept_with kept)

/-! ### Machine/Teardown -/

theorem kept_execContextTeardown {s₀ s : State} (kept : Kept s₀ s) {c : Fin 64} : Answers s₀ (execContextTeardown c s) := by
  unfold execContextTeardown
  refine answers_of_next ?_
  split
  · exact kept_orderDone (kept_beginTeardown kept)
  · exact kept

theorem kept_haulTeardown {s₀ s : State} (kept : Kept s₀ s) {c : Nat} : Kept s₀ (s.haulTeardown c) :=
  kept_holdDomains (kept_foldl (fun _ _ kept1 => kept_dropRec kept1) (kept_foldl (fun _ _ kept1 => kept_liftQuar kept1) (kept_foldl (fun _
    _ kept1 => kept_ite (kept_emitSrc (kept_puts (kept_with kept1))) kept1) (kept_foldl (fun _ _ kept1 => kept_ite (kept_puts (kept_setHaul
    kept1)) kept1) kept))))

theorem kept_siteTeardown {s₀ s : State} (kept : Kept s₀ s) {c : Nat} : Kept s₀ (s.siteTeardown c) :=
  kept_foldl (fun _ _ kept1 => kept_ite (kept_put (kept_setPart (kept_foldl (fun _ _ kept2 => kept_emit kept2) kept1))) kept1) kept

theorem kept_resetTables {s₀ s : State} (kept : Kept s₀ s) {l : Nat} : Kept s₀ (s.resetTables l) :=
  kept_with (kept_regReset (kept_regReset (kept_regReset kept)))

theorem kept_resetScales {s₀ s : State} (kept : Kept s₀ s) {n : Nat} : Kept s₀ (s.resetScales n) := kept_with (kept_regReset kept)

theorem kept_resetPhase {s₀ s : State} (kept : Kept s₀ s) {l : Nat} : Kept s₀ (s.resetPhase l) :=
  kept_with (kept_clearMarks (kept_regReset (kept_regReset kept)))

theorem kept_resetJob {s₀ s : State} (kept : Kept s₀ s) {c : Nat} : Kept s₀ (s.resetJob c) :=
  kept_with (kept_regReset (kept_regReset (kept_regReset (kept_regReset (kept_regReset (kept_regReset kept))))))

theorem kept_resetChannels {s₀ s : State} (kept : Kept s₀ s) {c : Nat} : Kept s₀ (s.resetChannels c) :=
  kept_regReset (kept_foldl (fun _ _ kept1 => kept_regReset kept1) kept)

theorem kept_resetPage {s₀ s : State} (kept : Kept s₀ s) {c : Nat} : Kept s₀ (s.resetPage c) := kept_with (kept_put (kept_regReset kept))

theorem kept_execTeardownDrainDone {s₀ s : State} (kept : Kept s₀ s) {c : Fin 64} : Answers s₀ (execTeardownDrainDone c s) :=
  answers_of_next (kept_ite kept (kept_sampleActivity (kept_put (kept_resetPage (kept_foldl (fun _ _ kept1 => kept_unbindSeq kept1)
    (kept_resetJob (kept_foldl (fun _ _ kept1 => kept_resetScales kept1) (kept_foldl (fun _ _ kept1 => kept_resetPhase (kept_resetTables
    kept1)) (kept_siteTeardown (kept_resetChannels (kept_haulTeardown (kept_foldl (fun _ _ kept1 => kept_closeFlume kept1) kept))))))))))))

theorem kept_closeInstance {s₀ s : State} (kept : Kept s₀ s) {c : Nat} : Kept s₀ (s.closeInstance c) := kept_with kept

theorem kept_execTeardownZeroingDone {s₀ s : State} (kept : Kept s₀ s) {c : Fin 64} : Answers s₀ (execTeardownZeroingDone c s) :=
  answers_of_next (kept_ite kept (kept_ctxEvent (kept_closeInstance (kept_put (kept_with (kept_regReset (kept_foldl (fun _ _ kept1 =>
    kept_unassign (kept_wipeDie kept1)) (kept_foldl (fun _ _ kept1 => kept_unbindFlume (kept_wipeFlume kept1)) (kept_resetChannels
    (kept_foldl (fun _ _ kept1 => kept_wipe kept1) kept))))))))))

theorem kept_resetFn {s₀ s : State} (kept : Kept s₀ s) {c : Nat} : Kept s₀ (s.resetFn c) := kept_with kept

theorem kept_execVfFlr {s₀ s : State} (kept : Kept s₀ s) {c : Fin 64} : Answers s₀ (execVfFlr c s) :=
  answers_of_next (kept_ite (kept_resetPage (kept_resetFn (kept_beginTeardown kept))) kept)

theorem kept_resetFunctions {s₀ s : State} (kept : Kept s₀ s) : Kept s₀ (s.resetFunctions) :=
  kept_with (kept_foldl (fun _ _ kept1 => kept_beginTeardown kept1) kept)

theorem kept_resetHostControl {s₀ s : State} (kept : Kept s₀ s) : Kept s₀ (s.resetHostControl) :=
  kept_with (kept_regReset (kept_regReset (kept_regReset kept)))

theorem kept_execPfFlr {s₀ s : State} (kept : Kept s₀ s) : Answers s₀ (execPfFlr s) :=
  answers_of_next (kept_ite (kept_resetPage (kept_resetHostControl (kept_resetFunctions kept))) kept)

/-! ### Machine/Reset -/

theorem kept_giveBack {s₀ s : State} (kept : Kept s₀ s) {k f : Nat} : Kept s₀ (s.giveBack k f) := by
  unfold State.giveBack
  refine kept_ite kept (kept_sendRemote (kept_dropResv (kept_setFlm ?_)))
  split
  · refine kept_put (kept_foldl (fun _ _ kept1 => ?_) kept)
    split
    · split
      · exact kept_vunpin kept1
      · exact kept1
    · exact kept1
  · refine kept_foldl (fun _ _ kept1 => ?_) kept
    split
    · split
      · exact kept_vunpin kept1
      · exact kept1
    · exact kept1

theorem kept_dropPkts {s₀ s : State} (kept : Kept s₀ s) {src : Nat} : Kept s₀ (s.dropPkts src) := kept_with kept

theorem kept_resetSeq {s₀ s : State} (kept : Kept s₀ s) {unbind : Bool} {k : Nat} : Kept s₀ (s.resetSeq unbind k) :=
  kept_ite (kept_startLoad (kept_with (kept_regReset (kept_setSeqState (kept_dropPkts (kept_stopIssue kept)))))) (kept_with (kept_regReset
    (kept_setSeqState (kept_dropPkts (kept_stopIssue kept)))))

theorem kept_dieReset {s₀ s : State} (kept : Kept s₀ s) {n : Nat} {mma sched unbind : Bool} :
    Kept s₀ (s.dieReset n mma sched unbind) :=
  kept_foldl (fun _ _ kept1 => kept_resetSeq kept1) (kept_ite (kept_regReset (kept_ite (kept_regReset (kept_regReset (kept_regReset
    (kept_regReset (kept_regReset (kept_with (kept_wipeDie (kept_foldl (fun _ _ kept1 => kept_foldl (fun _ _ kept2 => kept_giveBack kept2)
    kept1) kept)))))))) (kept_regReset (kept_regReset (kept_regReset (kept_regReset (kept_with (kept_wipeDie (kept_foldl (fun _ _ kept1 =>
    kept_foldl (fun _ _ kept2 => kept_giveBack kept2) kept1) kept))))))))) (kept_ite (kept_regReset (kept_regReset (kept_regReset
    (kept_regReset (kept_regReset (kept_with (kept_wipeDie (kept_foldl (fun _ _ kept1 => kept_foldl (fun _ _ kept2 => kept_giveBack kept2)
    kept1) kept)))))))) (kept_regReset (kept_regReset (kept_regReset (kept_regReset (kept_with (kept_wipeDie (kept_foldl (fun _ _ kept1 =>
    kept_foldl (fun _ _ kept2 => kept_giveBack kept2) kept1) kept)))))))))

theorem kept_noteReset {s₀ s : State} (kept : Kept s₀ s) {last : Nat} : Kept s₀ (s.noteReset last) := kept_puts kept

theorem kept_execComputeDieReset {s₀ s : State} (kept : Kept s₀ s) {die : Fin 24} : Answers s₀ (execComputeDieReset die s) := by
  unfold execComputeDieReset
  refine answers_of_next ?_
  split
  · exact kept
  · exact kept_orderDone (kept_ite kept (kept_noteReset (kept_with (kept_dieReset kept))))

theorem kept_execComputeDieResetEnd {s₀ s : State} (kept : Kept s₀ s) {die : Fin 24} : Answers s₀ (execComputeDieResetEnd die s) :=
  answers_of_next (kept_with kept)

theorem kept_haulHalfReset {s₀ s : State} (kept : Kept s₀ s) {h : Nat} : Kept s₀ (s.haulHalfReset h) := by
  unfold State.haulHalfReset
  refine kept_foldl (fun _ _ kept1 => ?_) kept
  dsimp only
  split
  · exact kept1
  · exact kept_ite (kept_haulAbort kept1) kept1

theorem kept_spnHold {s₀ s : State} (kept : Kept s₀ s) {h : Nat} : Kept s₀ (s.spnHold h) :=
  kept_foldl (fun _ _ kept1 => kept_ite (kept_dropFlits (kept_with (kept_puts (kept_setSpn (kept_setSpn kept1))))) kept1) kept

theorem kept_clearFlumes {s₀ s : State} (kept : Kept s₀ s) {h : Nat} : Kept s₀ (s.clearFlumes h) :=
  kept_wipe (kept_wipe (kept_with (kept_regReset (kept_regReset (kept_regReset kept)))))

theorem kept_resetEdges {s₀ s : State} (kept : Kept s₀ s) {h : Nat} : Kept s₀ (s.resetEdges h) :=
  kept_regReset (kept_regReset (kept_regReset (kept_foldl (fun _ _ kept1 => kept_cageSources kept1) (kept_foldl (fun _ _ kept1 =>
    kept_setSkw (kept_skwDrop kept1)) kept))))

theorem kept_setRecov {s₀ s : State} (kept : Kept s₀ s) {h : Nat} {on : Bool} : Kept s₀ (s.setRecov h on) := kept_put (kept_with kept)

theorem kept_markReset {s₀ s : State} (kept : Kept s₀ s) {stages : List (Nat × Nat)} : Kept s₀ (s.markReset stages) :=
  kept_foldl (fun _ _ kept1 => kept_modJob kept1) kept

theorem kept_resetHalf {s₀ s : State} (kept : Kept s₀ s) {h : Nat} : Kept s₀ (s.resetHalf h) :=
  kept_holdDomains (kept_noteReset (kept_setRecov (kept_setPart (kept_regReset (kept_resetEdges (kept_spnHold (kept_foldl (fun _ _ kept1 =>
    kept_holdHere kept1) (kept_with (kept_foldl (fun _ _ kept1 => kept_resetPhase (kept_resetTables kept1)) (kept_foldl (fun _ _ kept1 =>
    kept_resetScales (kept_dieReset kept1)) (kept_clearFlumes (kept_markReset (kept_foldl (fun _ _ kept1 => kept_ite (kept_modCkpt kept1)
    (kept_ckAbort kept1)) (kept_haulHalfReset (kept_with (kept_ite (kept_sampleDies kept) (kept_with kept)))))))))))))))))

theorem kept_execHalfReset {s₀ s : State} (kept : Kept s₀ s) {h : Fin 2} : Answers s₀ (execHalfReset h s) := by
  unfold execHalfReset
  refine answers_of_next ?_
  split
  · exact kept
  · exact kept_orderDone (kept_resetHalf kept)

theorem kept_haulHalfReturn {s₀ s : State} (kept : Kept s₀ s) {h : Nat} : Kept s₀ (s.haulHalfReturn h) :=
  kept_foldl (fun _ _ kept1 => kept_ite (kept_put kept1) kept1) kept

theorem kept_spnReturn {s₀ s : State} (kept : Kept s₀ s) : Kept s₀ (s.spnReturn) :=
  kept_foldl (fun _ _ kept1 => kept_ite (kept_put kept1) kept1) kept

theorem kept_bankFails {s₀ s : State} (kept : Kept s₀ s) {b : BootIn} {h k : Nat} : Kept s₀ (s.bankFails b h k) := kept_raise kept

theorem kept_bootHalf {s₀ s : State} (kept : Kept s₀ s) {b : BootIn} {h k : Nat} : Kept s₀ (s.bootHalf b h k).1 :=
  kept_fst_ite kept (kept_fst_ite (kept_with (kept_bankFails kept)) (kept_fst_ite (kept_bankFails (kept_bankFails kept)) (kept_bankFails
    kept)))

theorem kept_loadFarKey {s₀ s : State} (kept : Kept s₀ s) {h : Nat} : Kept s₀ (s.loadFarKey h) := kept_with kept

theorem kept_execHalfResetReturn {s₀ s : State} (kept : Kept s₀ s) {h : Fin 2} {b : BootIn} : Answers s₀ (execHalfResetReturn h b s) := by
  unfold execHalfResetReturn
  refine answers_of_next (kept_ite kept (kept_ite (kept_with (kept_put (kept_fatal kept))) ?_))
  dsimp only
  split
  · exact kept_ite (kept_with (kept_put (kept_bootHalf (kept_haulHalfReturn (kept_spnReturn (kept_loadFarKey (kept_with (kept_ite
      (kept_with (kept_put kept)) kept)))))))) (kept_put (kept_bootHalf (kept_haulHalfReturn (kept_spnReturn (kept_loadFarKey (kept_with
      (kept_ite (kept_with (kept_put kept)) kept)))))))
  · exact kept_setRecov (kept_bootHalf (kept_haulHalfReturn (kept_spnReturn (kept_loadFarKey (kept_with (kept_ite (kept_with (kept_put
      kept)) kept))))))

theorem kept_copyDue {s₀ s : State} (kept : Kept s₀ s) {c : Nat} : Kept s₀ (s.copyDue c) := by
  unfold State.copyDue
  refine kept_foldl (fun _ _ kept1 => ?_) (kept_with kept)
  split
  · exact kept1
  · exact kept_puts kept1

theorem kept_execHalfAccessReady {s₀ s : State} (kept : Kept s₀ s) {h : Fin 2} : Answers s₀ (execHalfAccessReady h s) :=
  answers_of_next (kept_ite kept (kept_foldl (fun _ _ kept1 => kept_freeFlume (kept_ite (kept_reopen (kept_setFlume (kept_setFlume kept1)))
    (kept_setFlume kept1))) (kept_foldl (fun _ _ kept1 => kept_copyDue kept1) (kept_foldl (fun _ _ kept1 => kept_ite (kept_foldl (fun _ _
    kept2 => kept_wipe kept2) kept1) kept1) (kept_with kept)))))

theorem kept_bootUp {s₀ s : State} (kept : Kept s₀ s) {b : BootIn} : Kept s₀ (s.bootUp b) :=
  kept_ite (kept_with (kept_foldl (fun _ _ kept1 => kept_raise kept1) (kept_with kept))) (kept_ite (kept_with (kept_setDomains (kept_puts
    (kept_bootHalf (kept_bootHalf (kept_loadFarKey (kept_loadFarKey kept))))))) (kept_with (kept_setRecov (kept_setRecov (kept_setDomains
    (kept_puts (kept_bootHalf (kept_bootHalf (kept_loadFarKey (kept_loadFarKey kept))))))))))

theorem kept_carry {s₀ s old : State} (kept : Kept s₀ s) {fs : List Fld} : Kept s₀ (s.carry old fs) := kept_puts kept

theorem kept_loseUpdate {s₀ s : State} (kept : Kept s₀ s) : Kept s₀ (s.loseUpdate) := by
  unfold State.loseUpdate
  split
  · exact kept
  · exact kept_with (kept_put kept)

theorem kept_warm {s₀ s : State} (kept : Kept s₀ s) : Kept s₀ (s.warm) := by
  unfold State.warm
  have fresh := kept_fresh (kept_loseUpdate kept) (KMap.wf_filter _ _ fun e => decide (e.1 < 0x1000_0000) || inFar e.1)
  exact kept_puts (kept_ite (kept_put (kept_carry (kept_with fresh))) (kept_carry (kept_with fresh)))

theorem kept_execModuleWarmReset {s₀ s : State} (kept : Kept s₀ s) {b : BootIn} : Answers s₀ (execModuleWarmReset b s) := by
  unfold execModuleWarmReset
  refine answers_of_next ?_
  split
  · exact kept_bootUp (kept_warm (kept_orderDone kept))
  · exact kept

theorem kept_cold {s₀ s : State} (kept : Kept s₀ s) {wake : Bool} {straps ms : Nat} : Kept s₀ (s.cold wake straps ms) := by
  unfold State.cold
  exact kept_puts (kept_carry (kept_with (kept_fresh (kept_loseUpdate kept) fun _ => rfl)))

theorem kept_noteLeak {s₀ s : State} (kept : Kept s₀ s) : Kept s₀ (s.noteLeak) := kept_ite (kept_raise kept) kept

theorem kept_execColdPowerOn {s₀ s : State} (kept : Kept s₀ s) {wake : Bool} {straps : BitVec 4} {ms : BitVec 32} {b : BootIn} :
    Answers s₀ (execColdPowerOn wake straps ms b s) :=
  answers_of_next (kept_ite kept (kept_ite (kept_noteLeak (kept_bootUp (kept_cold kept))) (kept_with (kept_cold kept))))

theorem kept_execRefclkInRange {s₀ s : State} (kept : Kept s₀ s) {b : BootIn} : Answers s₀ (execRefclkInRange b s) :=
  answers_of_next (kept_ite (kept_noteLeak (kept_bootUp (kept_with kept))) (kept_with kept))

theorem kept_raiseFloor {s₀ s : State} (kept : Kept s₀ s) : Kept s₀ (s.raiseFloor) :=
  kept_ite kept (kept_ite (kept_put (kept_put kept)) (kept_put kept))

theorem kept_deviceReady {s₀ s : State} (kept : Kept s₀ s) : Kept s₀ (s.deviceReady) := kept_raiseFloor (kept_with (kept_puts kept))

theorem kept_execPcieLinkUp {s₀ s : State} (kept : Kept s₀ s) : Answers s₀ (execPcieLinkUp s) :=
  answers_of_next (kept_ite kept (kept_ite (kept_deviceReady (kept_with kept)) (kept_ite (kept_raiseFloor (kept_put (kept_with kept)))
    (kept_with kept))))

theorem kept_execFarZeroingDone {s₀ s : State} (kept : Kept s₀ s) : Answers s₀ (execFarZeroingDone s) :=
  answers_of_next (kept_ite (kept_put (kept_wipe (kept_wipe kept))) kept)

theorem kept_conventional {s₀ s : State} (kept : Kept s₀ s) : Kept s₀ (s.conventional) := by
  unfold State.conventional
  exact kept_ite (kept_with (kept_noteReset (kept_resetFunctions kept))) (kept_noteReset (kept_resetFunctions kept))

theorem kept_execPerstAssert {s₀ s : State} (kept : Kept s₀ s) {pin : Bool} : Answers s₀ (execPerstAssert pin s) :=
  answers_of_next (kept_ite (kept_with (kept_put (kept_ite (kept_put kept) kept))) (kept_ite (kept_conventional (kept_with (kept_put
    (kept_ite (kept_put kept) kept)))) (kept_wakeFor (kept_with (kept_with (kept_put (kept_ite (kept_put kept) kept)))))))

theorem kept_execPerstDeassert {s₀ s : State} (kept : Kept s₀ s) : Answers s₀ (execPerstDeassert s) := answers_of_next (kept_put kept)

/-! ### Machine/Power -/

theorem kept_execPowerRung {s₀ s : State} (kept : Kept s₀ s) {r : Fin 5} : Answers s₀ (execPowerRung r s) := by
  unfold execPowerRung
  refine answers_of_next ?_
  split
  · exact kept
  · exact kept_ite kept (kept_ite (kept_cfgRange (kept_orderResult (kept_with kept))) (kept_ite (kept_ite (kept_with (kept_orderDone kept))
      (kept_orderDone kept)) (kept_puts (kept_ite (kept_with (kept_orderDone kept)) (kept_orderDone kept)))))

theorem kept_haulResume {s₀ s : State} (kept : Kept s₀ s) : Kept s₀ (s.haulResume) := kept_foldl (fun _ _ kept1 => kept_srcGo kept1) kept

theorem kept_powerOff {s₀ s : State} (kept : Kept s₀ s) {why : Nat} : Kept s₀ (s.powerOff why) := by
  unfold State.powerOff
  exact kept_puts (kept_carry (kept_with (kept_fresh (kept_loseUpdate kept) fun _ => rfl)))

theorem kept_enterRest {s₀ s : State} (kept : Kept s₀ s) : Kept s₀ (s.enterRest) :=
  kept_foldl (fun _ _ kept1 => kept_cageSources kept1) (kept_foldl (fun _ _ kept1 => kept_setLock (kept_skwDrop kept1)) (kept_foldl (fun _
    _ kept1 => kept_setSeqState (kept_stopIssue kept1)) (kept_with kept)))

theorem kept_saveTables {s₀ s : State} (kept : Kept s₀ s) : Kept s₀ (s.saveTables) :=
  kept_foldl (fun _ _ kept1 => kept_regReset kept1) (kept_foldl (fun _ _ kept1 => kept_write kept1) (kept_foldl (fun _ _ kept1 =>
    kept_write kept1) (kept_wipe kept)))

theorem kept_restoreReg {s₀ s : State} (kept : Kept s₀ s) {x : RegAt} : Kept s₀ (s.restoreReg x) :=
  kept_foldl (fun _ _ kept1 => kept_ite (kept_put kept1) (kept_sput (kept_put kept1))) kept

theorem kept_restoreTables {s₀ s : State} (kept : Kept s₀ s) : Kept s₀ (s.restoreTables) :=
  kept_ite (kept_foldl (fun _ _ kept1 => kept_foldl (fun _ _ kept2 => kept_restoreReg kept2) kept1) (kept_noteRead kept)) (kept_fatal
    (kept_foldl (fun _ _ kept1 => kept_foldl (fun _ _ kept2 => kept_restoreReg kept2) kept1) (kept_noteRead kept)))

theorem kept_wakeDies {s₀ s : State} (kept : Kept s₀ s) {freeze : Bool} : Kept s₀ (s.wakeDies freeze) :=
  kept_noteReset (kept_foldl (fun _ _ kept1 => kept_dieReset kept1) (kept_ite (kept_clearFlumes (kept_clearFlumes kept)) kept))

theorem kept_askAll {s₀ s : State} (kept : Kept s₀ s) {c : Nat} : Kept s₀ (s.askAll c) :=
  kept_foldl (fun _ _ kept1 => kept_askFetch kept1) kept

theorem kept_leaveRest {s₀ s : State} (kept : Kept s₀ s) : Kept s₀ (s.leaveRest) :=
  kept_foldl (fun _ _ kept1 => kept_askAll kept1) (kept_foldl (fun _ _ kept1 => kept_linkRestart kept1) (kept_with kept))

theorem kept_takeWaiting {s₀ s : State} (kept : Kept s₀ s) : Kept s₀ (s.takeWaiting) := kept_ite (kept_conventional (kept_with kept)) kept

theorem kept_execRungEntryComplete {s₀ s : State} (kept : Kept s₀ s) : Answers s₀ (execRungEntryComplete s) :=
  answers_of_next (kept_ite kept (kept_ite kept (kept_ite kept (kept_ite (kept_powerOff (kept_ite (kept_enterRest kept) kept))
    (kept_wakeFor (kept_takeWaiting (kept_relimit (kept_ite (kept_haulResume (kept_ite (kept_leaveRest (kept_setDomains (kept_put
    (kept_puts (kept_ite (kept_restoreTables (kept_ite (kept_ite (kept_wakeDies (kept_ite (kept_with (kept_saveTables (kept_ite
    (kept_enterRest kept) kept))) (kept_ite (kept_enterRest kept) kept))) (kept_ite (kept_with (kept_saveTables (kept_ite (kept_enterRest
    kept) kept))) (kept_ite (kept_enterRest kept) kept))) (kept_ite (kept_with (kept_saveTables (kept_ite (kept_enterRest kept) kept)))
    (kept_ite (kept_enterRest kept) kept)))) (kept_ite (kept_ite (kept_wakeDies (kept_ite (kept_with (kept_saveTables (kept_ite
    (kept_enterRest kept) kept))) (kept_ite (kept_enterRest kept) kept))) (kept_ite (kept_with (kept_saveTables (kept_ite (kept_enterRest
    kept) kept))) (kept_ite (kept_enterRest kept) kept))) (kept_ite (kept_with (kept_saveTables (kept_ite (kept_enterRest kept) kept)))
    (kept_ite (kept_enterRest kept) kept)))))))) (kept_setDomains (kept_put (kept_puts (kept_ite (kept_restoreTables (kept_ite (kept_ite
    (kept_wakeDies (kept_ite (kept_with (kept_saveTables (kept_ite (kept_enterRest kept) kept))) (kept_ite (kept_enterRest kept) kept)))
    (kept_ite (kept_with (kept_saveTables (kept_ite (kept_enterRest kept) kept))) (kept_ite (kept_enterRest kept) kept))) (kept_ite
    (kept_with (kept_saveTables (kept_ite (kept_enterRest kept) kept))) (kept_ite (kept_enterRest kept) kept)))) (kept_ite (kept_ite
    (kept_wakeDies (kept_ite (kept_with (kept_saveTables (kept_ite (kept_enterRest kept) kept))) (kept_ite (kept_enterRest kept) kept)))
    (kept_ite (kept_with (kept_saveTables (kept_ite (kept_enterRest kept) kept))) (kept_ite (kept_enterRest kept) kept))) (kept_ite
    (kept_with (kept_saveTables (kept_ite (kept_enterRest kept) kept))) (kept_ite (kept_enterRest kept) kept))))))))) (kept_ite
    (kept_leaveRest (kept_setDomains (kept_put (kept_puts (kept_ite (kept_restoreTables (kept_ite (kept_ite (kept_wakeDies (kept_ite
    (kept_with (kept_saveTables (kept_ite (kept_enterRest kept) kept))) (kept_ite (kept_enterRest kept) kept))) (kept_ite (kept_with
    (kept_saveTables (kept_ite (kept_enterRest kept) kept))) (kept_ite (kept_enterRest kept) kept))) (kept_ite (kept_with (kept_saveTables
    (kept_ite (kept_enterRest kept) kept))) (kept_ite (kept_enterRest kept) kept)))) (kept_ite (kept_ite (kept_wakeDies (kept_ite
    (kept_with (kept_saveTables (kept_ite (kept_enterRest kept) kept))) (kept_ite (kept_enterRest kept) kept))) (kept_ite (kept_with
    (kept_saveTables (kept_ite (kept_enterRest kept) kept))) (kept_ite (kept_enterRest kept) kept))) (kept_ite (kept_with (kept_saveTables
    (kept_ite (kept_enterRest kept) kept))) (kept_ite (kept_enterRest kept) kept)))))))) (kept_setDomains (kept_put (kept_puts (kept_ite
    (kept_restoreTables (kept_ite (kept_ite (kept_wakeDies (kept_ite (kept_with (kept_saveTables (kept_ite (kept_enterRest kept) kept)))
    (kept_ite (kept_enterRest kept) kept))) (kept_ite (kept_with (kept_saveTables (kept_ite (kept_enterRest kept) kept))) (kept_ite
    (kept_enterRest kept) kept))) (kept_ite (kept_with (kept_saveTables (kept_ite (kept_enterRest kept) kept))) (kept_ite (kept_enterRest
    kept) kept)))) (kept_ite (kept_ite (kept_wakeDies (kept_ite (kept_with (kept_saveTables (kept_ite (kept_enterRest kept) kept)))
    (kept_ite (kept_enterRest kept) kept))) (kept_ite (kept_with (kept_saveTables (kept_ite (kept_enterRest kept) kept))) (kept_ite
    (kept_enterRest kept) kept))) (kept_ite (kept_with (kept_saveTables (kept_ite (kept_enterRest kept) kept))) (kept_ite (kept_enterRest
    kept) kept))))))))))))))))

theorem kept_execPowerCap {s₀ s : State} (kept : Kept s₀ s) {w : BitVec 12} : Answers s₀ (execPowerCap w s) := by
  unfold execPowerCap
  refine answers_of_next ?_
  split
  · exact kept
  · exact kept_ite (kept_cfgRange (kept_orderResult (kept_with kept))) (kept_orderDone (kept_put kept))

theorem kept_setCeiling {s₀ s : State} (kept : Kept s₀ s) {v : Nat} : Kept s₀ (s.setCeiling v) := kept_relimit (kept_put kept)

theorem kept_execPowerCapTick {s₀ s : State} (kept : Kept s₀ s) {watts volts amps : BitVec 16} :
    Answers s₀ (execPowerCapTick watts volts amps s) :=
  answers_of_next (kept_ite kept (kept_ite (kept_puts kept) (kept_ite (kept_setCeiling (kept_puts kept)) (kept_ite (kept_setCeiling
    (kept_puts kept)) (kept_puts kept)))))

theorem kept_execPwrCapUnmetTimer {s₀ s : State} (kept : Kept s₀ s) : Answers s₀ (execPwrCapUnmetTimer s) :=
  answers_of_next (kept_ite (kept_raise kept) kept)

theorem kept_execInputUndervoltage {s₀ s : State} (kept : Kept s₀ s) : Answers s₀ (execInputUndervoltage s) :=
  answers_of_next (kept_ite (kept_setCeiling (kept_raise (kept_with kept))) kept)

theorem kept_execInputRecovered {s₀ s : State} (kept : Kept s₀ s) : Answers s₀ (execInputRecovered s) := answers_of_next (kept_with kept)

theorem kept_execInputFault {s₀ s : State} (kept : Kept s₀ s) : Answers s₀ (execInputFault s) :=
  answers_of_next (kept_ite kept (kept_powerOff kept))

theorem kept_execRefclkLost {s₀ s : State} (kept : Kept s₀ s) : Answers s₀ (execRefclkLost s) :=
  answers_of_next (kept_ite (kept_fatal (kept_with kept)) (kept_with kept))

theorem kept_thermPin {s₀ s : State} (kept : Kept s₀ s) : Kept s₀ (s.thermPin) := kept_ite (kept_put (kept_put kept)) (kept_put kept)

theorem kept_thermalDie {s₀ s : State} (kept : Kept s₀ s) {n : Nat} {grid : BitVec 256} {junction : Option (BitVec 16)} :
    Kept s₀ (s.thermalDie n grid junction) := by
  unfold State.thermalDie
  dsimp only
  split
  · exact kept_put (kept_puts (kept_foldl (fun _ _ kept1 => kept_put kept1) kept))
  · exact kept_puts (kept_foldl (fun _ _ kept1 => kept_put kept1) kept)

theorem kept_trip {s₀ s : State} (kept : Kept s₀ s) {h : Nat} : Kept s₀ (s.trip h) :=
  kept_fatal (kept_ite (kept_puts (kept_thermPin (kept_with kept))) (kept_thermPin (kept_with kept)))

theorem kept_execThermalSample {s₀ s : State} (kept : Kept s₀ s) {h : Fin 4} {grids : List (BitVec 256)} {junctions hbm :
    List (BitVec 16)} :
    Answers s₀ (execThermalSample h grids junctions hbm s) := by
  unfold execThermalSample
  refine answers_of_next (kept_ite kept (kept_ite (kept_trip (kept_relimit (kept_thermPin (kept_foldl (fun _ _ kept1 => ?_) (kept_put
    (kept_foldl (fun _ _ kept1 => ?_) kept)))))) (kept_relimit (kept_thermPin (kept_foldl (fun _ _ kept1 => ?_) (kept_put (kept_foldl (fun
    _ _ kept1 => ?_) kept)))))))
  · dsimp only
    split
    · exact kept_put (kept_with kept1)
    · exact kept1
  · split
    · exact kept_thermalDie kept1
    · exact kept1
  · dsimp only
    split
    · exact kept_put (kept_with kept1)
    · exact kept1
  · split
    · exact kept_thermalDie kept1
    · exact kept1

theorem kept_execThermalTrip {s₀ s : State} (kept : Kept s₀ s) {h : Fin 4} : Answers s₀ (execThermalTrip h s) :=
  answers_of_next (kept_ite kept (kept_trip kept))

theorem kept_execComparatorShutdown {s₀ s : State} (kept : Kept s₀ s) : Answers s₀ (execComparatorShutdown s) :=
  answers_of_next (kept_ite kept (kept_powerOff kept))

theorem kept_noteCoolant {s₀ s : State} (kept : Kept s₀ s) {inlet outlet : BitVec 16} : Kept s₀ (s.noteCoolant inlet outlet) :=
  kept_puts kept

theorem kept_execCoolantInletHigh {s₀ s : State} (kept : Kept s₀ s) {inlet outlet : BitVec 16} :
    Answers s₀ (execCoolantInletHigh inlet outlet s) :=
  answers_of_next (kept_ite kept (kept_ite (kept_setCeiling (kept_raise (kept_with (kept_noteCoolant kept)))) (kept_noteCoolant kept)))

theorem kept_execCoolantInletLow {s₀ s : State} (kept : Kept s₀ s) {inlet outlet : BitVec 16} :
    Answers s₀ (execCoolantInletLow inlet outlet s) :=
  answers_of_next (kept_ite kept (kept_ite (kept_raise (kept_noteCoolant kept)) (kept_noteCoolant kept)))

theorem kept_execCoolantInletNormal {s₀ s : State} (kept : Kept s₀ s) {inlet outlet : BitVec 16} :
    Answers s₀ (execCoolantInletNormal inlet outlet s) :=
  answers_of_next (kept_ite kept (kept_ite (kept_with (kept_noteCoolant kept)) (kept_noteCoolant kept)))

theorem kept_execLeakWet {s₀ s : State} (kept : Kept s₀ s) : Answers s₀ (execLeakWet s) :=
  answers_of_next (kept_ite kept (kept_ite (kept_put kept) (kept_setCeiling (kept_raise (kept_with (kept_puts (kept_put kept)))))))

theorem kept_execLeakDry {s₀ s : State} (kept : Kept s₀ s) : Answers s₀ (execLeakDry s) := answers_of_next (kept_puts kept)

/-! ### Machine/Security -/

theorem kept_execMeasurementPublish {s₀ s : State} (kept : Kept s₀ s) : Answers s₀ (execMeasurementPublish s) :=
  answers_of_next (kept_ite kept (kept_ite (kept_ite (kept_deviceReady (kept_ite (kept_with (kept_puts kept)) (kept_with (kept_with
    (kept_puts kept))))) (kept_with (kept_ite (kept_with (kept_puts kept)) (kept_with (kept_with (kept_puts kept)))))) (kept_raiseFloor
    (kept_ite (kept_with (kept_puts kept)) (kept_with (kept_with (kept_puts kept)))))))

theorem kept_setConn {s₀ s : State} (kept : Kept s₀ s) {r : Nat} {x : Conn} : Kept s₀ (s.setConn r x) := kept_with kept

theorem kept_spdmSay {s₀ s : State} (kept : Kept s₀ s) {r code : Nat} {body : List Nat} : Kept s₀ (s.spdmSay r code body) := kept_emit kept

theorem kept_execGetVersion {s₀ s : State} (kept : Kept s₀ s) {r : BitVec 8} : Answers s₀ (execGetVersion r s) :=
  answers_of_next (kept_ite (kept_spdmSay (kept_setConn kept)) kept)

theorem kept_spdmError {s₀ s : State} (kept : Kept s₀ s) {r code : Nat} {body : List Nat} : Kept s₀ (s.spdmError r code body) :=
  kept_emit kept

theorem kept_execGetCapabilities {s₀ s : State} (kept : Kept s₀ s) {r : BitVec 8} : Answers s₀ (execGetCapabilities r s) :=
  answers_of_next (kept_ite kept (kept_ite (kept_spdmError (kept_setConn kept)) (kept_ite (kept_spdmError kept) (kept_spdmSay (kept_setConn
    kept)))))

theorem kept_notReady {s₀ s : State} (kept : Kept s₀ s) {r code token : Nat} : Kept s₀ (s.notReady r code token) :=
  kept_spdmError (kept_with kept)

theorem kept_takeSig {s₀ s : State} (kept : Kept s₀ s) : Kept s₀ (s.takeSig).1 := kept_with kept

theorem kept_spdmAnswer {s₀ s : State} (kept : Kept s₀ s) {r : Nat} {q : SpdmReq} : Kept s₀ (s.spdmAnswer r q) := by
  unfold State.spdmAnswer
  refine kept_ite (kept_spdmError kept) ?_
  split
  exacts [kept_ite (kept_spdmSay (kept_setConn kept)) (kept_spdmError kept), kept_spdmSay kept, kept_ite (kept_spdmError kept)
    (kept_spdmSay kept), kept_ite (kept_spdmError kept) (kept_spdmSay (kept_takeSig kept)), kept_ite (kept_spdmError kept) (kept_spdmSay
    (kept_fst_ite (kept_takeSig kept) kept))]

theorem kept_spdmRequest {s₀ s : State} (kept : Kept s₀ s) {r : Nat} {q : SpdmReq} : Kept s₀ (s.spdmRequest r q) :=
  kept_ite kept (kept_ite (kept_notReady (kept_with (kept_setConn kept))) (kept_ite (kept_spdmError (kept_setConn kept)) (kept_spdmAnswer
    kept)))

theorem kept_execNegotiateAlgorithms {s₀ s : State} (kept : Kept s₀ s) {r : BitVec 8} {asym : Bool} {hash : AlgOffer} :
    Answers s₀ (execNegotiateAlgorithms r asym hash s) := answers_of_next (kept_spdmRequest kept)

theorem kept_execGetDigests {s₀ s : State} (kept : Kept s₀ s) {r : BitVec 8} : Answers s₀ (execGetDigests r s) :=
  answers_of_next (kept_spdmRequest kept)

theorem kept_execGetCertificate {s₀ s : State} (kept : Kept s₀ s) {r : BitVec 8} {slot : BitVec 4} {off len : BitVec 16} :
    Answers s₀ (execGetCertificate r slot off len s) := answers_of_next (kept_spdmRequest kept)

theorem kept_execChallenge {s₀ s : State} (kept : Kept s₀ s) {r : BitVec 8} {slot : BitVec 4} {nonce : BitVec 256} :
    Answers s₀ (execChallenge r slot nonce s) := answers_of_next (kept_spdmRequest kept)

theorem kept_execGetMeasurements {s₀ s : State} (kept : Kept s₀ s) {r : BitVec 8} {index : BitVec 8} {sign : Bool} {slot : BitVec 4}
    {nonce : BitVec 256} :
    Answers s₀ (execGetMeasurements r index sign slot nonce s) := answers_of_next (kept_spdmRequest kept)

theorem kept_execRespondIfReady {s₀ s : State} (kept : Kept s₀ s) {r : BitVec 8} {token : BitVec 8} :
    Answers s₀ (execRespondIfReady r token s) := by
  unfold execRespondIfReady
  refine answers_of_next (kept_ite kept (kept_ite (kept_spdmError (kept_setConn kept)) ?_))
  split
  · exact kept_ite (kept_notReady kept) (kept_spdmError kept)
  · exact kept_ite (kept_notReady kept) (kept_spdmAnswer (kept_setConn kept))

theorem kept_restage {s₀ s : State} (kept : Kept s₀ s) : Kept s₀ (s.restage) := kept_with kept

theorem kept_pldmSay {s₀ s : State} (kept : Kept s₀ s) {cmd code : Nat} : Kept s₀ (s.pldmSay cmd code) := kept_emit kept

theorem kept_execRequestUpdate {s₀ s : State} (kept : Kept s₀ s) : Answers s₀ (execRequestUpdate s) := by
  unfold execRequestUpdate
  refine answers_of_next (kept_ite kept (kept_ite (kept_pldmSay kept) ?_))
  split
  · exact kept_pldmSay kept
  · exact kept_pldmSay (kept_restage (kept_with (kept_put (kept_put kept))))

theorem kept_execVerifyComplete {s₀ s : State} (kept : Kept s₀ s) {package key : List (BitVec 8)} {certOk : Bool} :
    Answers s₀ (execVerifyComplete package key certOk s) := by
  unfold execVerifyComplete
  refine answers_of_next ?_
  split
  · exact kept
  · exact kept_ite kept (kept_ite (kept_pldmSay (kept_raise (kept_with kept))) (kept_ite (kept_pldmSay (kept_raise (kept_with kept)))
      (kept_pldmSay (kept_restage (kept_puts (kept_with (kept_with kept)))))))

theorem kept_execActivateFirmware {s₀ s : State} (kept : Kept s₀ s) : Answers s₀ (execActivateFirmware s) :=
  answers_of_next (kept_ite kept (kept_ite (kept_pldmSay (kept_restage (kept_with (kept_put kept)))) (kept_pldmSay kept)))

theorem kept_execSecFwcmdCancel {s₀ s : State} (kept : Kept s₀ s) : Answers s₀ (execSecFwcmdCancel s) :=
  answers_of_next (kept_gated kept (kept_ite kept (kept_restage (kept_with (kept_put kept)))))

theorem kept_execSecFwcmdRevert {s₀ s : State} (kept : Kept s₀ s) : Answers s₀ (execSecFwcmdRevert s) :=
  answers_of_next (kept_gated kept (kept_ite (kept_raise kept) (kept_ite (kept_with kept) kept)))

theorem kept_execSecLogclr {s₀ s : State} (kept : Kept s₀ s) : Answers s₀ (execSecLogclr s) :=
  answers_of_next (kept_gated kept (kept_puts kept))

theorem kept_execPldmSensorRead {s₀ s : State} (kept : Kept s₀ s) {r : PldmReq} : Answers s₀ (execPldmSensorRead r s) := by
  unfold execPldmSensorRead
  refine answers_of_next (kept_ite kept ?_)
  split
  · split <;> exact kept_emit kept
  · exact kept_ite (kept_emit kept) (kept_emit (kept_with kept))
  · exact kept_emit kept
  · exact kept_emit kept
  · exact kept_ite (kept_emit kept) (kept_emit kept)
  · exact kept_ite (kept_emit kept) (kept_emit kept)

theorem kept_execMctpControl {s₀ s : State} (kept : Kept s₀ s) {r : MctpReq} : Answers s₀ (execMctpControl r s) := by
  unfold execMctpControl
  refine answers_of_next (kept_ite kept ?_)
  split
  exacts [kept_emit kept, kept_ite (kept_emit kept) (kept_emit (kept_with kept)), kept_emit kept, kept_ite (kept_emit kept) (kept_emit
    kept), kept_emit kept]

theorem kept_execI3cDynamicAddress {s₀ s : State} (kept : Kept s₀ s) {sta : Option (BitVec 7)} {addr : BitVec 7} :
    Answers s₀ (execI3cDynamicAddress sta addr s) := by
  unfold execI3cDynamicAddress
  refine answers_of_next (kept_ite kept ?_)
  split
  · exact kept_ite (kept_with kept) kept
  · exact kept_with kept

/-! ### Machine/RegAccess -/

theorem kept_zero {s₀ s : State} (kept : Kept s₀ s) {l : List Fld} : Kept s₀ (s.zero l) := kept_puts kept

theorem kept_clearReg {s₀ s : State} (kept : Kept s₀ s) {r : ClrReg} : Kept s₀ (s.clearReg r) := by
  unfold State.clearReg
  split <;> exact kept_zero kept

theorem kept_noReach {s₀ s : State} (kept : Kept s₀ s) {off : Nat} {r : Reach} : Kept s₀ (s.noReach off r) := by
  unfold State.noReach
  split
  · exact kept_raise kept
  · exact kept

theorem kept_execCounterClearWrite {s₀ s : State} (kept : Kept s₀ s) {_m : Master} {r : ClrReg} :
    Answers s₀ (execCounterClearWrite _m r s) := by
  unfold execCounterClearWrite
  refine answers_of_next (kept_ite (kept_ite (kept_clearReg kept) kept) (kept_gated kept ?_))
  split
  · exact kept_clearReg kept
  · exact kept_noReach kept

theorem kept_flushVectors {s₀ s : State} (kept : Kept s₀ s) {c : Nat} : Kept s₀ (s.flushVectors c) :=
  kept_foldl (fun _ _ kept1 => kept_ite (kept_emit (kept_with kept1)) kept1) kept

theorem kept_msixWord {s₀ s : State} (kept : Kept s₀ s) {c o v : Nat} : Kept s₀ (s.msixWord c o v) :=
  kept_ite (kept_with kept) (kept_ite (kept_with kept) (kept_ite (kept_with kept) (kept_flushVectors (kept_with kept))))

theorem kept_msixWrite {s₀ s : State} (kept : Kept s₀ s) {c o size v : Nat} : Kept s₀ (s.msixWrite c o size v) :=
  kept_ite (kept_msixWord (kept_msixWord kept)) (kept_msixWord kept)

theorem kept_clearBits {s₀ s : State} (kept : Kept s₀ s) {f : Fld} {v : Nat} : Kept s₀ (s.clearBits f v) := kept_put kept

theorem kept_writeField {s₀ s : State} (kept : Kept s₀ s) {x : RegWr} {w : Nat} {f : FldRow} : Kept s₀ (s.writeField x w f) := by
  unfold State.writeField
  dsimp only
  split
  exacts [kept, kept, kept_put kept, kept_put kept, kept_sput kept, kept_clearBits kept]

theorem kept_writePlain {s₀ s : State} (kept : Kept s₀ s) {x : RegWr} : Kept s₀ (s.writePlain x) :=
  kept_foldl (fun _ _ kept1 => kept_writeField kept1) kept

theorem kept_writeMmaCtl {s₀ s : State} (kept : Kept s₀ s) {n w off : Nat} : Kept s₀ (s.writeMmaCtl n w off) :=
  kept_ite (kept_put (kept_put kept)) (kept_raise (kept_put kept))

theorem kept_after {s₀ s : State} {x : Result} (answers : Answers s₀ x) : Kept s₀ (s.after x) := by
  obtain ⟨_, rfl, after⟩ := answers
  exact after

theorem kept_writeDie {s₀ s : State} (kept : Kept s₀ s) {x : RegWr} {w : Nat} : ∀ t, s.writeDie x w = some t → Kept s₀ t :=
  kept_ite_some (kept_some (kept_writeMmaCtl kept)) (kept_ite_some (kept_some (kept_clearReg kept)) (kept_ite_some (kept_some
    (kept_clearReg kept)) (kept_ite_some (kept_some (kept_clearReg kept)) (kept_ite_some (kept_some (kept_after
    (kept_execSchedRegisterWrite kept))) (kept_ite_some (kept_some (kept_after (kept_execSchedRegisterWrite kept))) (kept_ite_some
    (kept_some (kept_after (kept_execSchedRegisterWrite kept))) (kept_ite_some (kept_some (kept_after (kept_execSchedRegisterWrite kept)))
    (kept_ite_some (kept_some (kept_after (kept_execSchedRegisterWrite kept))) (kept_ite_some (kept_some (kept_ite (kept_after
    (kept_execSeqBcommit kept)) kept)) (kept_ite_some (kept_some (kept_ite (kept_after (kept_execSeqCmdRun kept)) (kept_ite (kept_after
    (kept_execSeqCmdHalt kept)) (kept_ite (kept_after (kept_execSeqCmdStep kept)) (kept_ite (kept_after (kept_execSeqCmdUnbind kept))
    kept))))) (kept_ite_some (kept_some (kept_after (kept_execSeqPcWrite kept))) (kept_ite_some (kept_some (kept_after
    (kept_execNumSctlWrite kept))) kept_none))))))))))))

theorem kept_writeTables {s₀ s : State} (kept : Kept s₀ s) {x : RegWr} {w : Nat} : ∀ t, s.writeTables x w = some t → Kept s₀ t := by
  unfold State.writeTables
  refine kept_ite_some (kept_some (kept_after (kept_execFlmCommit kept))) (kept_ite_some (kept_some (kept_ite (kept_after
    (kept_execFlmCmdClear kept)) (kept_ite (kept_after (kept_execFlmCmdClose kept)) kept))) (kept_ite_some (kept_some (kept_after
    (kept_execVerAdmitWrite kept))) (kept_ite_some (kept_some ?_) (kept_ite_some (kept_some (kept_ite (kept_after (kept_execVarCommit
    kept)) kept)) kept_none))))
  split
  · exact kept_ite (kept_after (kept_execVerCmdLive kept)) (kept_ite (kept_after (kept_execVerCmdDrop kept)) kept)
  · exact kept

theorem kept_giveOrder {s₀ s : State} (kept : Kept s₀ s) {m : Master} {kind arg : Nat} : Kept s₀ (s.giveOrder m kind arg) := by
  unfold State.giveOrder
  refine kept_ite (kept_cfgRange ?_) ?_
  · split
    · refine kept_puts ?_
      split <;> exact kept_with kept
    · refine kept_with ?_
      split <;> exact kept_with kept
  · split
    · refine kept_with ?_
      split
      · refine kept_puts ?_
        split <;> exact kept_with kept
      · refine kept_with ?_
        split <;> exact kept_with kept
    · refine kept_with ?_
      split
      · refine kept_puts ?_
        split <;> exact kept_with kept
      · refine kept_with ?_
        split <;> exact kept_with kept

theorem kept_writeNumCtl {s₀ s : State} (kept : Kept s₀ s) {c w off : Nat} : Kept s₀ (s.writeNumCtl c w off) :=
  kept_ite (kept_put (kept_puts kept)) (kept_cfgRange (kept_puts kept))

theorem kept_writePwrCtl {s₀ s : State} (kept : Kept s₀ s) {w off : Nat} : Kept s₀ (s.writePwrCtl w off) :=
  kept_ite (kept_cfgRange (kept_put kept)) (kept_put (kept_put kept))

theorem kept_writeDieCmd {s₀ s : State} (kept : Kept s₀ s) {w : Nat} : Kept s₀ (s.writeDieCmd w) := by
  unfold State.writeDieCmd
  refine kept_ite ?_ kept
  split
  · exact kept_after (answers_ite (kept_execDieCmdAssign kept) (kept_execDieCmdRelease kept))
  · exact kept_dieResult (kept_raise kept)

theorem kept_execPartnerPolicyWrite {s₀ s : State} (kept : Kept s₀ s) {m : Master} {u : Fin 2} {policy : BitVec 2} {en : Bool} {ctx :
    BitVec 6}
    {stage : BitVec 12} : Answers s₀ (execPartnerPolicyWrite m u policy en ctx stage s) :=
  answers_of_next (kept_gated kept (kept_ite (kept_raise kept) (kept_ite (kept_ownDrop kept) (kept_ite (kept_cfgRange (kept_puts kept))
    (kept_ite (kept_judgeSite (kept_put (kept_puts kept))) (kept_put (kept_puts kept)))))))

theorem kept_writeSteward {s₀ s : State} (kept : Kept s₀ s) {x : RegWr} {w : Nat} : ∀ t, s.writeSteward x w = some t → Kept s₀ t :=
  kept_ite_some (kept_some (kept_after (kept_execCutCommit kept))) (kept_ite_some (kept_some (kept_ite (kept_after (kept_execCutCmdStart
    kept)) kept)) (kept_ite_some (kept_some (kept_writeNumCtl kept)) (kept_ite_some (kept_some (kept_ite (kept_cfgRange kept)
    (kept_writePlain kept))) (kept_ite_some (kept_some (kept_ite (kept_after (kept_execNumCmdForceSkip kept)) (kept_ite (kept_after
    (kept_execNumCmdClear kept)) kept))) (kept_ite_some (kept_some (kept_after (kept_execMemWcommit kept))) (kept_ite_some (kept_some
    (kept_after (kept_execHbmGcommit kept))) (kept_ite_some (kept_some (kept_after (kept_execFarBuddyWrite kept))) (kept_ite_some
    (kept_some (kept_after (kept_execFarBuddyWrite kept))) (kept_ite_some (kept_some (kept_clearReg kept)) (kept_ite_some (kept_some
    (kept_after (kept_execPartnerPolicyWrite kept))) (kept_ite_some (kept_some (kept_after (kept_execRingCommit kept))) (kept_ite_some
    (kept_some (kept_writeDieCmd kept)) (kept_ite_some (kept_some (kept_after (kept_execOwnLockWrite kept))) (kept_ite_some (kept_some
    (kept_giveOrder kept)) (kept_ite_some (kept_some (kept_writePwrCtl kept)) (kept_ite_some (kept_some (kept_after (kept_execPwrPdoffWrite
    kept))) (kept_ite_some (kept_some (kept_after (kept_execCkptAcommit kept))) (kept_ite_some (kept_some (kept_ite (kept_after
    (kept_execCkptCmdTake (kept_with kept))) (kept_ite (kept_after (kept_execCkptCmdRestore kept)) (kept_ite (kept_after
    (kept_execCkptCmdAbort kept)) kept)))) (kept_ite_some (kept_some (kept_ite (kept_after (kept_execSecFwcmdCancel kept)) (kept_ite
    (kept_after (kept_execSecFwcmdRevert kept)) kept))) (kept_ite_some (kept_some (kept_ite (kept_after (kept_execSecLogclr kept)) kept))
    kept_none))))))))))))))))))))

theorem kept_writeEthPort {s₀ s : State} (kept : Kept s₀ s) {k w off : Nat} : Kept s₀ (s.writeEthPort k w off) :=
  kept_ite (kept_put (kept_ite (kept_ethRelease (kept_with (kept_puts kept))) (kept_puts kept))) (kept_raise (kept_ite (kept_ethRelease
    (kept_with (kept_puts kept))) (kept_puts kept)))

theorem kept_writeEdge {s₀ s : State} (kept : Kept s₀ s) {x : RegWr} {w : Nat} : ∀ t, s.writeEdge x w = some t → Kept s₀ t := by
  unfold State.writeEdge
  refine kept_ite_some (kept_some (kept_after (kept_execHaulTailWrite kept))) (kept_ite_some (kept_some (kept_after (kept_execHaulCcommit
    kept))) (kept_ite_some (kept_some (kept_after (kept_execHaulScommit kept))) (kept_ite_some (kept_some (kept_after (kept_execCageCommit
    kept))) (kept_ite_some (kept_some (kept_after (kept_execSkwVersionWrite kept))) (kept_ite_some (kept_some ?_) (kept_ite_some (kept_some
    (kept_after (kept_execSkwCcommit kept))) (kept_ite_some (kept_some (kept_after (kept_execRedCommit kept))) (kept_ite_some (kept_some
    (kept_writeEthPort kept)) kept_none))))))))
  split
  · exact kept_ite (kept_after (kept_execSkwCmdRetrain kept)) (kept_ite (kept_after (kept_execSkwCmdRekey kept)) kept)
  · exact kept

theorem kept_writeReg {s₀ s : State} (kept : Kept s₀ s) {x : RegWr} : Kept s₀ (s.writeReg x) := by
  unfold State.writeReg
  dsimp only
  split
  next t heq =>
    exact (kept_writeDie kept _ heq)
  · split
    next t heq =>
      exact (kept_writeTables kept _ heq)
    · split
      next t heq =>
        exact (kept_writeSteward kept _ heq)
      · split
        next t heq =>
          exact (kept_writeEdge kept _ heq)
        · exact kept_writePlain kept

theorem kept_writeOne {s₀ s : State} (kept : Kept s₀ s) {x : RegWr} : Kept s₀ (s.writeOne x).1 := by
  unfold State.writeOne
  refine kept_fst_ite (kept_cfgRange kept) ?_
  split
  · exact kept_fst_ite (kept_ownDrop kept) (kept_writeReg kept)
  · exact kept_fst_ite (kept_ownDrop kept) kept
  · exact kept_raise kept

theorem kept_writeAll {s₀ s : State} (kept : Kept s₀ s) {l : List RegWr} : Kept s₀ (s.writeAll l).1 := by
  unfold State.writeAll
  refine kept_foldl_fst (p := (s, 0)) (fun _ _ kept1 => ?_) kept
  exact kept_writeOne kept1

theorem kept_bar0Write {s₀ s : State} (kept : Kept s₀ s) {m : Master} {off size v : Nat} : Kept s₀ (s.bar0Write m off size v).1 :=
  kept_fst_ite (kept_ownDrop kept) (kept_fst_ite (kept_fst_ite (kept_ownDrop kept) (kept_cfgRange kept)) (kept_fst_ite (kept_fst_ite
    (kept_cfgRange kept) (kept_msixWrite kept)) (kept_writeAll kept)))

theorem kept_execRegisterWrite {s₀ s : State} (kept : Kept s₀ s) {m : Master} {c : Fin 64} {off : BitVec 26} {size : BitVec 4} {v :
    BitVec 64} :
    Answers s₀ (execRegisterWrite m c off size v s) := by
  unfold execRegisterWrite
  refine answers_of_next (kept_ite kept (kept_ite (kept_cfgRange kept) ?_))
  split
  · exact kept_bar0Write kept
  · exact kept_ite kept (kept_ite (kept_bar0Write kept) (kept_ite (kept_bar0Write kept) (kept_ite (kept_ite (kept_cfgRange kept)
      (kept_msixWrite kept)) kept)))

theorem kept_resizeBar {s₀ s : State} (kept : Kept s₀ s) {vf : Bool} {n : Nat} : Kept s₀ (s.resizeBar vf n) :=
  kept_ite (kept_with kept) kept

theorem kept_setFn {s₀ s : State} (kept : Kept s₀ s) {c : Nat} {f : Fn} : Kept s₀ (s.setFn c f) :=
  kept_askAll (kept_flushVectors (kept_with kept))

theorem kept_bar0Get {s₀ s : State} (kept : Kept s₀ s) {off size : Nat} : Kept s₀ (s.bar0Get off size).1 := by
  unfold State.bar0Get
  split
  · exact kept
  · exact kept
  · exact kept_raise kept

theorem kept_bar0Read {s₀ s : State} (kept : Kept s₀ s) {c off size : Nat} : Kept s₀ (s.bar0Read c off size).1 :=
  kept_fst_ite kept (kept_fst_ite (kept_cfgRange kept) (kept_fst_ite (kept_bar0Get kept) (kept_fst_ite (kept_bar0Get kept) (kept_fst_ite
    (kept_bar0Get kept) (kept_fst_ite kept kept)))))

theorem kept_execPcieConfigRequest {s₀ s : State} (kept : Kept s₀ s) {c : Fin 64} {r : CfgReq} :
    Answers s₀ (execPcieConfigRequest c r s) := by
  unfold execPcieConfigRequest
  refine answers_of_next (kept_ite kept (kept_ite (kept_emit kept) ?_))
  split
  exacts [kept_emit kept, kept_ite (kept_emit kept) (kept_emit kept), kept_setFn kept, kept_setFn kept, kept_setFn kept, kept_ite
    (kept_resizeBar kept) kept, kept_ite (kept_emit kept) (kept_emit (kept_bar0Read kept))]

theorem kept_answer {s₀ s : State} (kept : Kept s₀ s) {body : List Nat} : Kept s₀ (s.answer body) := kept_emit kept

theorem kept_execMsgRegisterRead {s₀ s : State} (kept : Kept s₀ s) {off : BitVec 26} {size : BitVec 4} :
    Answers s₀ (execMsgRegisterRead off size s) := by
  unfold execMsgRegisterRead
  refine answers_of_next (kept_ite kept (kept_ite (kept_answer (kept_cfgRange kept)) (kept_ite (kept_answer kept) ?_)))
  split
  · exact kept_answer (kept_raise kept)
  · exact kept_answer kept
  · exact kept_answer kept

theorem kept_execMsgRegisterWrite {s₀ s : State} (kept : Kept s₀ s) {off : BitVec 26} {size : BitVec 4} {v : BitVec 64} :
    Answers s₀ (execMsgRegisterWrite off size v s) :=
  answers_of_next (kept_ite kept (kept_ite (kept_answer (kept_cfgRange kept)) (kept_ite (kept_answer kept) (kept_answer (kept_bar0Write
    kept)))))

theorem kept_execMsgOrder {s₀ s : State} (kept : Kept s₀ s) {kind : BitVec 4} {arg : BitVec 16} :
    Answers s₀ (execMsgOrder kind arg s) :=
  answers_of_next (kept_ite kept (kept_ite (kept_answer kept) (kept_answer (kept_giveOrder kept))))

theorem kept_execMsgOrderStatus {s₀ s : State} (kept : Kept s₀ s) : Answers s₀ (execMsgOrderStatus s) :=
  answers_of_next (kept_ite kept (kept_answer kept))

/-! ### Machine/CoreSample -/

theorem kept_execCoreSampleComplete {s₀ s : State} (kept : Kept s₀ s) {hbmOk : Bool} : Answers s₀ (execCoreSampleComplete hbmOk s) := by
  unfold execCoreSampleComplete
  refine answers_of_next ?_
  split
  · exact kept
  · exact kept_count (kept_put (kept_with (kept_write (kept_ite (kept_write kept) kept))))

theorem kept_issue {s₀ s : State} (kept : Kept s₀ s) {c : SlotCtl} {i : Instr} : Answers s₀ (issue c i s) :=
  answers_of_next (kept_ite kept (kept_ite (kept_modSeq kept) (kept_ite (kept_tryBundle (kept_ite kept (kept_modSeq kept))) (kept_modSeq
    (kept_ite kept (kept_modSeq kept))))))

/-! ### Machine/SlotCmd -/

theorem kept_execNop {s₀ s : State} (kept : Kept s₀ s) {c : SlotCtl} : Answers s₀ (execNop c s) := kept_issue kept

theorem kept_execBr {s₀ s : State} (kept : Kept s₀ s) {c : SlotCtl} {target : BitVec 14} : Answers s₀ (execBr c target s) := kept_issue kept

theorem kept_execBrS {s₀ s : State} (kept : Kept s₀ s) {c : SlotCtl} {rs : BitVec 5} : Answers s₀ (execBrS c rs s) := kept_issue kept

theorem kept_execCall {s₀ s : State} (kept : Kept s₀ s) {c : SlotCtl} {target : BitVec 14} : Answers s₀ (execCall c target s) :=
  kept_issue kept

theorem kept_execRet {s₀ s : State} (kept : Kept s₀ s) {c : SlotCtl} : Answers s₀ (execRet c s) := kept_issue kept

theorem kept_execLoop {s₀ s : State} (kept : Kept s₀ s) {c : SlotCtl} {rs : BitVec 5} {last : BitVec 14} :
    Answers s₀ (execLoop c rs last s) := kept_issue kept

theorem kept_execHalt {s₀ s : State} (kept : Kept s₀ s) {c : SlotCtl} : Answers s₀ (execHalt c s) := kept_issue kept

theorem kept_execTrapRet {s₀ s : State} (kept : Kept s₀ s) {c : SlotCtl} {mode : Bool} : Answers s₀ (execTrapRet c mode s) :=
  kept_issue kept

theorem kept_execEvtSig {s₀ s : State} (kept : Kept s₀ s) {c : SlotCtl} {tq : BitVec 2} {e : BitVec 3} {k : BitVec 16} :
    Answers s₀ (execEvtSig c tq e k s) := kept_issue kept

theorem kept_execEvtWait {s₀ s : State} (kept : Kept s₀ s) {c : SlotCtl} {e : BitVec 3} {k : BitVec 16} :
    Answers s₀ (execEvtWait c e k s) := kept_issue kept

theorem kept_execWchSet {s₀ s : State} (kept : Kept s₀ s) {c : SlotCtl} {idx : BitVec 3} {kind : BitVec 2} {f : FlumeOp} {e : BitVec 3} :
    Answers s₀ (execWchSet c idx kind f e s) := kept_issue kept

theorem kept_execWaitAny {s₀ s : State} (kept : Kept s₀ s) {c : SlotCtl} {sd : BitVec 5} : Answers s₀ (execWaitAny c sd s) :=
  kept_issue kept

theorem kept_execWaitIdle {s₀ s : State} (kept : Kept s₀ s) {c : SlotCtl} {arrays glaze sap dma : Bool} :
    Answers s₀ (execWaitIdle c arrays glaze sap dma s) := kept_issue kept

theorem kept_execAdd {s₀ s : State} (kept : Kept s₀ s) {c : SlotCtl} {rd ra rb : BitVec 5} : Answers s₀ (execAdd c rd ra rb s) :=
  kept_issue kept

theorem kept_execSub {s₀ s : State} (kept : Kept s₀ s) {c : SlotCtl} {rd ra rb : BitVec 5} : Answers s₀ (execSub c rd ra rb s) :=
  kept_issue kept

theorem kept_execAnd {s₀ s : State} (kept : Kept s₀ s) {c : SlotCtl} {rd ra rb : BitVec 5} : Answers s₀ (execAnd c rd ra rb s) :=
  kept_issue kept

theorem kept_execOr {s₀ s : State} (kept : Kept s₀ s) {c : SlotCtl} {rd ra rb : BitVec 5} : Answers s₀ (execOr c rd ra rb s) :=
  kept_issue kept

theorem kept_execXor {s₀ s : State} (kept : Kept s₀ s) {c : SlotCtl} {rd ra rb : BitVec 5} : Answers s₀ (execXor c rd ra rb s) :=
  kept_issue kept

theorem kept_execShl {s₀ s : State} (kept : Kept s₀ s) {c : SlotCtl} {rd ra rb : BitVec 5} : Answers s₀ (execShl c rd ra rb s) :=
  kept_issue kept

theorem kept_execShr {s₀ s : State} (kept : Kept s₀ s) {c : SlotCtl} {rd ra rb : BitVec 5} : Answers s₀ (execShr c rd ra rb s) :=
  kept_issue kept

theorem kept_execSra {s₀ s : State} (kept : Kept s₀ s) {c : SlotCtl} {rd ra rb : BitVec 5} : Answers s₀ (execSra c rd ra rb s) :=
  kept_issue kept

theorem kept_execMul {s₀ s : State} (kept : Kept s₀ s) {c : SlotCtl} {rd ra rb : BitVec 5} : Answers s₀ (execMul c rd ra rb s) :=
  kept_issue kept

theorem kept_execMin {s₀ s : State} (kept : Kept s₀ s) {c : SlotCtl} {rd ra rb : BitVec 5} : Answers s₀ (execMin c rd ra rb s) :=
  kept_issue kept

theorem kept_execMax {s₀ s : State} (kept : Kept s₀ s) {c : SlotCtl} {rd ra rb : BitVec 5} : Answers s₀ (execMax c rd ra rb s) :=
  kept_issue kept

theorem kept_execAddi {s₀ s : State} (kept : Kept s₀ s) {c : SlotCtl} {rd ra : BitVec 5} {imm : BitVec 32} :
    Answers s₀ (execAddi c rd ra imm s) := kept_issue kept

theorem kept_execMovi {s₀ s : State} (kept : Kept s₀ s) {c : SlotCtl} {rd : BitVec 5} {imm : BitVec 32} :
    Answers s₀ (execMovi c rd imm s) := kept_issue kept

theorem kept_execMovhi {s₀ s : State} (kept : Kept s₀ s) {c : SlotCtl} {rd : BitVec 5} {imm : BitVec 32} :
    Answers s₀ (execMovhi c rd imm s) := kept_issue kept

theorem kept_execAndi {s₀ s : State} (kept : Kept s₀ s) {c : SlotCtl} {rd ra : BitVec 5} {imm : BitVec 32} :
    Answers s₀ (execAndi c rd ra imm s) := kept_issue kept

theorem kept_execCmpEq {s₀ s : State} (kept : Kept s₀ s) {c : SlotCtl} {pd : BitVec 3} {ra : BitVec 5} {o : CmpOp} :
    Answers s₀ (execCmpEq c pd ra o s) := kept_issue kept

theorem kept_execCmpNe {s₀ s : State} (kept : Kept s₀ s) {c : SlotCtl} {pd : BitVec 3} {ra : BitVec 5} {o : CmpOp} :
    Answers s₀ (execCmpNe c pd ra o s) := kept_issue kept

theorem kept_execCmpLt {s₀ s : State} (kept : Kept s₀ s) {c : SlotCtl} {pd : BitVec 3} {ra : BitVec 5} {o : CmpOp} :
    Answers s₀ (execCmpLt c pd ra o s) := kept_issue kept

theorem kept_execCmpLtu {s₀ s : State} (kept : Kept s₀ s) {c : SlotCtl} {pd : BitVec 3} {ra : BitVec 5} {o : CmpOp} :
    Answers s₀ (execCmpLtu c pd ra o s) := kept_issue kept

theorem kept_execCmpLe {s₀ s : State} (kept : Kept s₀ s) {c : SlotCtl} {pd : BitVec 3} {ra : BitVec 5} {o : CmpOp} :
    Answers s₀ (execCmpLe c pd ra o s) := kept_issue kept

theorem kept_execCmpLeu {s₀ s : State} (kept : Kept s₀ s) {c : SlotCtl} {pd : BitVec 3} {ra : BitVec 5} {o : CmpOp} :
    Answers s₀ (execCmpLeu c pd ra o s) := kept_issue kept

theorem kept_execTst {s₀ s : State} (kept : Kept s₀ s) {c : SlotCtl} {pd : BitVec 3} {ra : BitVec 5} {b : BitVec 6} :
    Answers s₀ (execTst c pd ra b s) := kept_issue kept

theorem kept_execPlog {s₀ s : State} (kept : Kept s₀ s) {c : SlotCtl} {pd pa pb : BitVec 3} {na nb : Bool} {op : BitVec 2} :
    Answers s₀ (execPlog c pd pa pb na nb op s) := kept_issue kept

theorem kept_execMovA {s₀ s : State} (kept : Kept s₀ s) {c : SlotCtl} {ad : BitVec 4} {rs : BitVec 5} :
    Answers s₀ (execMovA c ad rs s) := kept_issue kept

theorem kept_execMovS {s₀ s : State} (kept : Kept s₀ s) {c : SlotCtl} {rd : BitVec 5} {ab : BitVec 4} :
    Answers s₀ (execMovS c rd ab s) := kept_issue kept

theorem kept_execAddA {s₀ s : State} (kept : Kept s₀ s) {c : SlotCtl} {ad ab : BitVec 4} {rs : BitVec 5} :
    Answers s₀ (execAddA c ad ab rs s) := kept_issue kept

theorem kept_execAddiA {s₀ s : State} (kept : Kept s₀ s) {c : SlotCtl} {ad ab : BitVec 4} {imm : BitVec 32} :
    Answers s₀ (execAddiA c ad ab imm s) := kept_issue kept

theorem kept_execMma {s₀ s : State} (kept : Kept s₀ s) {c : SlotCtl} {fa fb : BitVec 4} {t : BitVec 5} {init : Bool} {sd : BitVec 5} :
    Answers s₀ (execMma c fa fb t init sd s) := kept_issue kept

theorem kept_execMmaQ {s₀ s : State} (kept : Kept s₀ s) {c : SlotCtl} {fa fb : BitVec 4} {t : BitVec 5} {init : Bool} {sd : BitVec 5}
    {quad : BitVec 2} :
    Answers s₀ (execMmaQ c fa fb t init sd quad s) := kept_issue kept

theorem kept_execRaftSet {s₀ s : State} (kept : Kept s₀ s) {c : SlotCtl} {size : BitVec 4} : Answers s₀ (execRaftSet c size s) :=
  kept_issue kept

theorem kept_execQtrSet {s₀ s : State} (kept : Kept s₀ s) {c : SlotCtl} {arr on : Bool} : Answers s₀ (execQtrSet c arr on s) :=
  kept_issue kept

theorem kept_execSapMv {s₀ s : State} (kept : Kept s₀ s) {c : SlotCtl} {fw fx : BitVec 4} {init : Bool} {sd : BitVec 5} {cen : Bool} {e :
    BitVec 3} :
    Answers s₀ (execSapMv c fw fx init sd cen e s) := kept_issue kept

theorem kept_execGlzRun {s₀ s : State} (kept : Kept s₀ s) {c : SlotCtl} {sd : BitVec 5} {cen : Bool} {e : BitVec 3} :
    Answers s₀ (execGlzRun c sd cen e s) := kept_issue kept

theorem kept_execGlzTbl {s₀ s : State} (kept : Kept s₀ s) {c : SlotCtl} {tbl : BitVec 2} {sd : BitVec 5} {cen : Bool} {e : BitVec 3} :
    Answers s₀ (execGlzTbl c tbl sd cen e s) := kept_issue kept

theorem kept_execLdTs {s₀ s : State} (kept : Kept s₀ s) {c : SlotCtl} {rd : BitVec 5} {mode : Bool} {rb : BitVec 5} {size : BitVec 2} {sx :
    Bool} {imm : BitVec 24} :
    Answers s₀ (execLdTs c rd mode rb size sx imm s) := kept_issue kept

theorem kept_execStTs {s₀ s : State} (kept : Kept s₀ s) {c : SlotCtl} {rs : BitVec 5} {mode : Bool} {rb : BitVec 5} {size : BitVec 2}
    {imm : BitVec 24} :
    Answers s₀ (execStTs c rs mode rb size imm s) := kept_issue kept

theorem kept_execMovSr {s₀ s : State} (kept : Kept s₀ s) {c : SlotCtl} {rd : BitVec 5} {idx : BitVec 6} :
    Answers s₀ (execMovSr c rd idx s) := kept_issue kept

theorem kept_execMovHb {s₀ s : State} (kept : Kept s₀ s) {c : SlotCtl} {rd : BitVec 5} {sel : BitVec 6} :
    Answers s₀ (execMovHb c rd sel s) := kept_issue kept

theorem kept_execMovOb {s₀ s : State} (kept : Kept s₀ s) {c : SlotCtl} {sel : BitVec 6} {rs : BitVec 5} :
    Answers s₀ (execMovOb c sel rs s) := kept_issue kept

theorem kept_execHbCp {s₀ s : State} (kept : Kept s₀ s) {c : SlotCtl} : Answers s₀ (execHbCp c s) := kept_issue kept

theorem kept_execObClr {s₀ s : State} (kept : Kept s₀ s) {c : SlotCtl} : Answers s₀ (execObClr c s) := kept_issue kept

theorem kept_execDma {s₀ s : State} (kept : Kept s₀ s) {c : SlotCtl} {dk sk : Bool} {dr sr lr : BitVec 5} {cen : Bool} {e : BitVec 3} :
    Answers s₀ (execDma c dk sk dr sr lr cen e s) := kept_issue kept

theorem kept_execSchW {s₀ s : State} (kept : Kept s₀ s) {c : SlotCtl} {sel : BitVec 3} {rs : BitVec 5} {idx : BitVec 8} :
    Answers s₀ (execSchW c sel rs idx s) := kept_issue kept

theorem kept_execFlmPush {s₀ s : State} (kept : Kept s₀ s) {c : SlotCtl} {ad : BitVec 4} {f : FlumeOp} :
    Answers s₀ (execFlmPush c ad f s) := kept_issue kept

theorem kept_execFlmTry {s₀ s : State} (kept : Kept s₀ s) {c : SlotCtl} {ad : BitVec 4} {f : FlumeOp} {pd : BitVec 3} :
    Answers s₀ (execFlmTry c ad f pd s) := kept_issue kept

theorem kept_execFlmCmt {s₀ s : State} (kept : Kept s₀ s) {c : SlotCtl} {f : FlumeOp} : Answers s₀ (execFlmCmt c f s) := kept_issue kept

theorem kept_execFlmPop {s₀ s : State} (kept : Kept s₀ s) {c : SlotCtl} {ad : BitVec 4} {f : FlumeOp} :
    Answers s₀ (execFlmPop c ad f s) := kept_issue kept

theorem kept_execFlmTpop {s₀ s : State} (kept : Kept s₀ s) {c : SlotCtl} {ad : BitVec 4} {f : FlumeOp} {pd : BitVec 3} :
    Answers s₀ (execFlmTpop c ad f pd s) := kept_issue kept

theorem kept_execFlmNext {s₀ s : State} (kept : Kept s₀ s) {c : SlotCtl} {ad : BitVec 4} {pd : BitVec 3} :
    Answers s₀ (execFlmNext c ad pd s) := kept_issue kept

theorem kept_execFlmRel {s₀ s : State} (kept : Kept s₀ s) {c : SlotCtl} {f : FlumeOp} : Answers s₀ (execFlmRel c f s) := kept_issue kept

theorem kept_execVerAdmit {s₀ s : State} (kept : Kept s₀ s) {c : SlotCtl} {sd : BitVec 5} {close : Bool} :
    Answers s₀ (execVerAdmit c sd close s) := kept_issue kept

theorem kept_execVerPin {s₀ s : State} (kept : Kept s₀ s) {c : SlotCtl} {pd : BitVec 3} {sd : BitVec 5} {f : FlumeOp} :
    Answers s₀ (execVerPin c pd sd f s) := kept_issue kept

theorem kept_execVerLook {s₀ s : State} (kept : Kept s₀ s) {c : SlotCtl} {pd : BitVec 3} {sd gs : BitVec 5} :
    Answers s₀ (execVerLook c pd sd gs s) := kept_issue kept

theorem kept_execVerUnpin {s₀ s : State} (kept : Kept s₀ s) {c : SlotCtl} {gs : BitVec 5} : Answers s₀ (execVerUnpin c gs s) :=
  kept_issue kept

theorem kept_execVerBase {s₀ s : State} (kept : Kept s₀ s) {c : SlotCtl} {ad : BitVec 4} {ss is : BitVec 5} :
    Answers s₀ (execVerBase c ad ss is s) := kept_issue kept

theorem kept_execVerBuild {s₀ s : State} (kept : Kept s₀ s) {c : SlotCtl} {sd gs : BitVec 5} : Answers s₀ (execVerBuild c sd gs s) :=
  kept_issue kept

theorem kept_execVerTbuild {s₀ s : State} (kept : Kept s₀ s) {c : SlotCtl} {sd gs : BitVec 5} {pd : BitVec 3} :
    Answers s₀ (execVerTbuild c sd gs pd s) := kept_issue kept

theorem kept_execVerLive {s₀ s : State} (kept : Kept s₀ s) {c : SlotCtl} {ss : BitVec 5} : Answers s₀ (execVerLive c ss s) :=
  kept_issue kept

theorem kept_execVerDrop {s₀ s : State} (kept : Kept s₀ s) {c : SlotCtl} {ss : BitVec 5} : Answers s₀ (execVerDrop c ss s) :=
  kept_issue kept

theorem kept_execVerSw {s₀ s : State} (kept : Kept s₀ s) {c : SlotCtl} {gs : BitVec 5} : Answers s₀ (execVerSw c gs s) := kept_issue kept

theorem kept_execVerAdm {s₀ s : State} (kept : Kept s₀ s) {c : SlotCtl} {gs : BitVec 5} {barrier : Bool} :
    Answers s₀ (execVerAdm c gs barrier s) := kept_issue kept

theorem kept_execVerLb {s₀ s : State} (kept : Kept s₀ s) {c : SlotCtl} {ss is : BitVec 5} {ab : BitVec 4} :
    Answers s₀ (execVerLb c ss is ab s) := kept_issue kept

theorem kept_execVerNl {s₀ s : State} (kept : Kept s₀ s) {c : SlotCtl} {ss ns : BitVec 5} : Answers s₀ (execVerNl c ss ns s) :=
  kept_issue kept

theorem kept_execVarLook {s₀ s : State} (kept : Kept s₀ s) {c : SlotCtl} {ad : BitVec 4} {sd : BitVec 5} {pd : BitVec 3} {vs : BitVec 5} :
    Answers s₀ (execVarLook c ad sd pd vs s) := kept_issue kept

theorem kept_execVarCnt {s₀ s : State} (kept : Kept s₀ s) {c : SlotCtl} {vs : BitVec 5} : Answers s₀ (execVarCnt c vs s) := kept_issue kept

theorem kept_execVerdictBroadcastMsg {s₀ s : State} (kept : Kept s₀ s) {h : RedHdr} {skip : Bool} {cause : BitVec 4}
    {amax : List (BitVec 12 × BitVec 32)} : Answers s₀ (execVerdictBroadcastMsg h skip cause amax s) :=
  answers_of_next (kept_redIn kept (fun _ kept1 => kept_ite (kept_deliver (kept_verdictSend kept1)) kept1))

theorem kept_execSkwCaps {s₀ s : State} (kept : Kept s₀ s) {k : Fin 24} {vmax vmin : BitVec 2} {recOk : Bool} {nonce : BitVec 256} {peer :
    SkwPeer}
    {chainOk : Bool} : Answers s₀ (execSkwCaps k vmax vmin recOk nonce peer chainOk s) := by
  unfold execSkwCaps
  refine answers_of_next (kept_ite kept (kept_ite (kept_skwDrop (kept_raise (kept_skwTake kept))) ?_))
  split
  · exact kept_skwFrame (kept_setSkw (kept_setSkw (kept_puts (kept_skwTake kept))))
  · exact kept_skwDrop (kept_raise (kept_skwTake kept))

/-! ### Machine/Dispatch -/

theorem kept_exec {s₀ s : State} (kept : Kept s₀ s) {i : Instr} : Answers s₀ (exec i s) := by
  unfold exec
  split
  exacts [kept_execNop kept, kept_execBr kept, kept_execBrS kept, kept_execCall kept, kept_execRet kept, kept_execLoop kept, kept_execHalt
    kept, kept_execTrapRet kept, kept_execEvtSig kept, kept_execEvtWait kept, kept_execWchSet kept, kept_execWaitAny kept,
    kept_execWaitIdle kept, kept_execAdd kept, kept_execSub kept, kept_execAnd kept, kept_execOr kept, kept_execXor kept, kept_execShl
    kept, kept_execShr kept, kept_execSra kept, kept_execMul kept, kept_execMin kept, kept_execMax kept, kept_execAddi kept, kept_execMovi
    kept, kept_execMovhi kept, kept_execAndi kept, kept_execCmpEq kept, kept_execCmpNe kept, kept_execCmpLt kept, kept_execCmpLtu kept,
    kept_execCmpLe kept, kept_execCmpLeu kept, kept_execTst kept, kept_execPlog kept, kept_execMovA kept, kept_execMovS kept, kept_execAddA
    kept, kept_execAddiA kept, kept_execMma kept, kept_execMmaQ kept, kept_execRaftSet kept, kept_execQtrSet kept, kept_execBChunkLoaded
    kept, kept_execPassBegin kept, kept_execOperandRowAdmit kept, kept_execAccumulatorUpdate kept, kept_execActivityLevelStep kept,
    kept_execFillerOperation kept, kept_execFillerIdleTimeout kept, kept_execSapMv kept, kept_execSapVectorCopied kept,
    kept_execSapWeightStep kept, kept_execSapGroupWrite kept, kept_execSapComplete kept, kept_execGlzRun kept, kept_execGlzTbl kept,
    kept_execGlzTblComplete kept, kept_execGlzChainStart kept, kept_execGlzGroupEnter kept, kept_execGlzGroupWrite kept,
    kept_execGlzChainComplete kept, kept_execLdTs kept, kept_execLdTsReturn kept, kept_execStTs kept, kept_execMovSr kept, kept_execMovHb
    kept, kept_execMovOb kept, kept_execHbCp kept, kept_execObClr kept, kept_execDma kept, kept_execDmaStart kept, kept_execDmaComplete
    kept, kept_execSchW kept, kept_execFlmPush kept, kept_execFlmTry kept, kept_execFlmCmt kept, kept_execFlmPop kept, kept_execFlmTpop
    kept, kept_execFlmNext kept, kept_execFlmRel kept, kept_execVerAdmit kept, kept_execVerPin kept, kept_execVerLook kept,
    kept_execVerUnpin kept, kept_execVerBase kept, kept_execVerBuild kept, kept_execVerTbuild kept, kept_execVerLive kept, kept_execVerDrop
    kept, kept_execVerSw kept, kept_execVerAdm kept, kept_execVerLb kept, kept_execVerNl kept, kept_execVarLook kept, kept_execVarCnt kept,
    kept_execFlmCommitArrival kept, kept_execFlmReadyNotice kept, kept_execFlmCreditReturn kept, kept_execFlmSpillCopy kept,
    kept_execFlmSpillCopyDone kept, kept_execFlmHeldTimeout kept, kept_execFlmCloseDone kept, kept_execFlmZeroingDone kept,
    kept_execFlmCommit kept, kept_execFlmCmdClear kept, kept_execFlmCmdClose kept, kept_execVerPinTimeout kept, kept_execVerAdmitWrite
    kept, kept_execVerCmdLive kept, kept_execVerCmdDrop kept, kept_execSeqWaitTimeout kept, kept_execSeqLoadComplete kept,
    kept_execSeqBcommit kept, kept_execSeqCmdRun kept, kept_execSeqCmdHalt kept, kept_execSeqCmdStep kept, kept_execSeqCmdUnbind kept,
    kept_execSeqPcWrite kept, kept_execSchedRegisterWrite kept, kept_execForemanStepBoundary kept, kept_execCutCommit kept,
    kept_execCutTableInForce kept, kept_execCutCmdStart kept, kept_execPhaseSwitch kept, kept_execNormChainMsg kept,
    kept_execNormBroadcastMsg kept, kept_execVarCommit kept, kept_execVerdictPoint kept, kept_execVerdictChainMsg kept,
    kept_execVerdictBroadcastMsg kept, kept_execNumCmdForceSkip kept, kept_execNumCmdClear kept, kept_execNumSctlWrite kept,
    kept_execHaulTailWrite kept, kept_execHaulRequestHaul kept, kept_execHaulRequestVerify kept, kept_execHaulManifestFetched kept,
    kept_execHaulBilletCheck kept, kept_execHaulRequestComplete kept, kept_execNvmeReadCompletion kept, kept_execNvmeReadTimeout kept,
    kept_execHaulSourceTimeout kept, kept_execHaulSourceConnect kept, kept_execHaulConnectionLoss kept, kept_execHaulScrubDue kept,
    kept_execHaulScrubPassEnd kept, kept_execForemanRehaul kept, kept_execForemanRefillLoad kept, kept_execForemanRefillLive kept,
    kept_execHaulCcommit kept, kept_execHaulScommit kept, kept_execCkptCmdTake kept, kept_execCkptCmdRestore kept, kept_execCkptCmdAbort
    kept, kept_execCkptPositionRead kept, kept_execCkptStorageWriteDone kept, kept_execCkptShardListWrite kept, kept_execTallyChainMsg
    kept, kept_execCkptTallyTimeout kept, kept_execCkptTallyWrite kept, kept_execCkptCommitRecordWrite kept, kept_execCkptKeyOutcomeMsg
    kept, kept_execCkptRestoreLoad kept, kept_execCkptAcommit kept, kept_execBuddyCopyMsg kept, kept_execBuddyAck kept,
    kept_execLayerStateMsg kept, kept_execMemPatrolRead kept, kept_execFarTierEcsPass kept, kept_execMemWcommit kept,
    kept_execMemWcommitDone kept, kept_execHbmGcommit kept, kept_execFarBuddyWrite kept, kept_execCageCommit kept, kept_execSkwCcommit
    kept, kept_execRedCommit kept, kept_execSkwCmdRetrain kept, kept_execSkwCmdRekey kept, kept_execSkwVersionWrite kept,
    kept_execSkwLanesTrained kept, kept_execSkwCaps kept, kept_execSkwKeyed kept, kept_execSkwChannelOpen kept, kept_execSkwChannelClose
    kept, kept_execSkwDownNotice kept, kept_execSkwRekeyMark kept, kept_execSkwRecordArrival kept, kept_execSkwRack kept,
    kept_execSkwCredit kept, kept_execSkwAck kept, kept_execSkwNak kept, kept_execSkwCorruptFrame kept, kept_execSkwTagCheck kept,
    kept_execSkwAckTimer kept, kept_execSkwReplayTimeout kept, kept_execSkwBlockIdleClose kept, kept_execSkwRekeyCount kept,
    kept_execSkwRecovery kept, kept_execSkwLockLoss kept, kept_execSkwSessionTimeout kept, kept_execSkwBringupRetry kept,
    kept_execEthFrameReceive kept, kept_execEthCnpReceive kept, kept_execEthRateIncrease kept, kept_execCagePresenceChange kept,
    kept_execCageModuleOverpower kept, kept_execRedMessageUnlistedKind kept, kept_execSpnFlitReceive kept, kept_execSpnTrainingStart kept,
    kept_execSpnClaim kept, kept_execSpnEcho kept, kept_execSpnRoundTimeout kept, kept_execPartnerSiteTrained kept,
    kept_execPartnerSiteLost kept, kept_execPartnerPolicyWrite kept, kept_execPartnerRequest kept, kept_execModuleLostMsg kept,
    kept_execModuleLostDeclare kept, kept_execShrink kept, kept_execPcieConfigRequest kept, kept_execVfEnable kept, kept_execBar4Read kept,
    kept_execBar4Write kept, kept_execRegisterWrite kept, kept_execSqDoorbell kept, kept_execCqDoorbell kept, kept_execRingCommit kept,
    kept_execRingFetch kept, kept_execCmdNop kept, kept_execCmdCopy kept, kept_execCmdFill kept, kept_execCmdPush kept, kept_execCmdPop
    kept, kept_execCmdFence kept, kept_execHostReadCompletion kept, kept_execCqEntryWrite kept, kept_execCqCoalesceTimer kept,
    kept_execDieCmdAssign kept, kept_execDieCmdRelease kept, kept_execDieReleaseZeroed kept, kept_execOwnLockWrite kept,
    kept_execOrderSlotEnd kept, kept_execModuleWarmReset kept, kept_execHalfReset kept, kept_execHalfResetReturn kept,
    kept_execHalfAccessReady kept, kept_execComputeDieReset kept, kept_execContextTeardown kept, kept_execTeardownDrainDone kept,
    kept_execTeardownZeroingDone kept, kept_execPowerRung kept, kept_execRungEntryComplete kept, kept_execPowerCap kept,
    kept_execPowerCapTick kept, kept_execPwrCapUnmetTimer kept, kept_execPwrPdoffWrite kept, kept_execInputUndervoltage kept,
    kept_execInputRecovered kept, kept_execInputFault kept, kept_execColdPowerOn kept, kept_execFarZeroingDone kept, kept_execPerstAssert
    kept, kept_execPerstDeassert kept, kept_execVfFlr kept, kept_execPfFlr kept, kept_execRefclkLost kept, kept_execThermalSample kept,
    kept_execThermalTrip kept, kept_execCoreSampleComplete kept, kept_execComparatorShutdown kept, kept_execCoolantInletHigh kept,
    kept_execCoolantInletLow kept, kept_execCoolantInletNormal kept, kept_execLeakWet kept, kept_execLeakDry kept,
    kept_execMeasurementPublish kept, kept_execGetVersion kept, kept_execGetCapabilities kept, kept_execNegotiateAlgorithms kept,
    kept_execGetDigests kept, kept_execGetCertificate kept, kept_execChallenge kept, kept_execGetMeasurements kept, kept_execRespondIfReady
    kept, kept_execRequestUpdate kept, kept_execVerifyComplete kept, kept_execActivateFirmware kept, kept_execPldmSensorRead kept,
    kept_execMctpControl kept, kept_execMsgRegisterRead kept, kept_execMsgRegisterWrite kept, kept_execMsgOrder kept,
    kept_execMsgOrderStatus kept, kept_execSecFwcmdCancel kept, kept_execSecFwcmdRevert kept, kept_execCounterClearWrite kept,
    kept_execSecLogclr kept, kept_execMeterRecordReceived kept, kept_execMeterLinkTimeout kept, kept_execScalerRecord kept,
    kept_execScalerPulse kept, kept_execScalerPowerUp kept, kept_execScalerPowerDown kept, kept_execScalerSealBroken kept,
    kept_execScalerInputEvent kept, kept_execPcieLinkUp kept, kept_execRefclkInRange kept, kept_execComputeDieResetEnd kept,
    kept_execI3cDynamicAddress kept, kept_execScalerReverification kept]

theorem kept_strike {s₀ s : State} (kept : Kept s₀ s) {a : Nat} : Kept s₀ (s.strike a) :=
  kept_ite kept (kept_ite (kept_markBad kept) (kept_with kept))

theorem kept_strikeTile {s₀ s : State} (kept : Kept s₀ s) {w : Nat} {two : Bool} : Kept s₀ (s.strikeTile w two) :=
  kept_ite kept (kept_ite (kept_with kept) (kept_with kept))

theorem kept_upset {s₀ s : State} (kept : Kept s₀ s) : Kept s₀ (s.upset) := by
  unfold State.upset
  refine kept_ite (kept_with kept) ?_
  split
  exacts [kept_ite (kept_strike (kept_with kept)) (kept_with kept), kept_ite (kept_markBad (kept_with kept)) (kept_with kept), kept_ite
    (kept_with (kept_with kept)) (kept_with kept), kept_strikeTile (kept_with kept), kept_strikeTile (kept_with kept), kept_ite (kept_logAs
    (kept_with kept)) (kept_with kept), kept_ite (kept_fatal (kept_with kept)) (kept_with kept), kept_with kept]

theorem kept_lateDo {s₀ s : State} (kept : Kept s₀ s) {k : Nat} : Kept s₀ (s.lateDo k) := by
  unfold State.lateDo
  split
  · exact kept
  · exact kept_ite (kept_tsDo (kept_modSeq kept)) kept

theorem kept_tickArr {s₀ s : State} (kept : Kept s₀ s) {n a : Nat} : Kept s₀ (s.tickArr n a) := kept_ite kept (kept_setArr kept)

theorem kept_retry {s₀ s : State} (kept : Kept s₀ s) {k : Nat} : Kept s₀ (s.retry k) := by
  unfold State.retry
  split
  · exact kept
  · exact kept_ite (kept_tryBundle kept) kept

theorem kept_tickSeq {s₀ s : State} (kept : Kept s₀ s) {k : Nat} : Kept s₀ (s.tickSeq k) :=
  kept_ite (kept_ite (kept_modSeq kept) kept) (kept_count (kept_ite (kept_modSeq kept) kept))

theorem kept_tickFlume {s₀ s : State} (kept : Kept s₀ s) {pushes pops : List Nat} {f : Nat} : Kept s₀ (s.tickFlume pushes pops f) :=
  kept_ite kept (kept_ite (kept_count (kept_ite (kept_count (kept_ite (kept_count kept) kept)) (kept_ite (kept_count kept) kept)))
    (kept_ite (kept_count (kept_ite (kept_count kept) kept)) (kept_ite (kept_count kept) kept)))

theorem kept_tickVer {s₀ s : State} (kept : Kept s₀ s) {l : Nat} : Kept s₀ (s.tickVer l) :=
  kept_ite kept (kept_ite (kept_count (kept_ite (kept_count (kept_put kept)) (kept_put kept))) (kept_ite (kept_count (kept_put kept))
    (kept_put kept)))

theorem kept_tickDies {s₀ s : State} (kept : Kept s₀ s) {outPush outPop : List Nat} : Kept s₀ (s.tickDies outPush outPop) :=
  kept_foldl (fun _ _ kept1 => kept_retry kept1) (kept_foldl (fun _ _ kept1 => kept_lateDo kept1) (kept_foldl (fun _ _ kept1 =>
    kept_tickSeq kept1) (kept_foldl (fun _ _ kept1 => kept_tickVer kept1) (kept_foldl (fun _ _ kept1 => kept_tickFlume kept1) (kept_foldl
    (fun _ _ kept1 => kept_tickArr kept1) kept)))))

theorem kept_keepAlive {s₀ s : State} (kept : Kept s₀ s) : Kept s₀ (s.keepAlive) :=
  kept_ite kept (kept_foldl (fun _ _ kept1 => kept_emitSrc kept1) kept)

theorem kept_siteRetry {s₀ s : State} (kept : Kept s₀ s) {u : Nat} : Kept s₀ (s.siteRetry u) := by
  unfold State.siteRetry
  refine kept_foldl (fun _ _ kept1 => kept_ite (kept_raise kept1) ?_) (kept_setPart kept)
  split
  next t heq =>
    exact (kept_siteDo kept1 _ heq)
  · exact kept_setPart kept1

/-! ### Machine/Tick -/

theorem kept_tickHeat {s₀ s : State} (kept : Kept s₀ s) {n : Nat} : Kept s₀ (s.tickHeat n) := kept_ite kept (kept_count kept)

theorem kept_tickAlert {s₀ s : State} (kept : Kept s₀ s) : Kept s₀ (s.tickAlert) :=
  kept_ite (kept_put (kept_ite (kept_put kept) kept)) (kept_ite (kept_put kept) kept)

theorem kept_tickAll (s : State) : Kept { s with now := s.now + 1 } s.tickAll := by
  unfold State.tickAll
  refine kept_upset (kept_keepAlive (kept_tickAlert (kept_foldl (fun _ _ kept => kept_tickHeat kept) ?_)))
  exact kept_siteRetry (kept_siteRetry (kept_tickDies (kept_refl _)))

/-! ### The obligations about every command -/

/-- Settles O53: from every state, every command answers a next state that it may leave, so with the queue as it was. -/
theorem everyCommandAnswers : Obligations.EveryCommandAnswers := by
  intro i s
  obtain ⟨t, answer, kept⟩ := kept_exec (kept_refl s) (i := i)
  exact ⟨t, answer, kept.pending⟩

/-- Settles O57: a step runs one command, or lets one array clock pass; both keep the canonical form. -/
theorem canonKept : Obligations.CanonKept := by
  intro s t canon answer
  cases front : s.pending with
  | nil =>
    have same : s.tickAll = t := by simpa only [step, front, Host.Outcome.next.injEq] using answer
    exact same ▸ (kept_tickAll s).canon canon
  | cons i rest =>
    obtain ⟨u, next, kept⟩ := kept_exec (kept_refl { s with pending := rest }) (i := i)
    have same : u = t := by simpa only [step, front, next, Host.Outcome.next.injEq] using answer
    exact same ▸ kept.canon canon

/-- Settles O52: a step is the command at the front on the rest of the queue, and an empty queue stays empty while one array clock passes. -/
theorem stepTakesTheFront : Obligations.StepTakesTheFront := by
  refine ⟨fun s i rest front => ?_, fun s empty => ⟨s.tickAll, ?_, (kept_tickAll s).now, ?_⟩⟩
  · simp only [step, front]
  · simp only [step, empty]
  · exact (kept_tickAll s).pending.trans empty

end Sys2Proof.Machine

namespace Sys2Proof.Machine

-- One kernel check at a time: this bounds the threads that wait for the checks of what stands before.
set_option Elab.async false

/-! ## The tier 1 statements: the written slots and the reset state -/

/-- Settles O55: each word is decoded. -/
theorem slotWords : Obligations.SlotWords := by
  unfold Obligations.SlotWords
  decide +kernel

theorem canon_reset : State.reset.Canon := ⟨rfl, rfl, rfl⟩

/-- Every scalar register of every sequencer is 0 at reset. -/
theorem s_reset (k : Nat) (r : BitVec 5) : State.reset.s k r = 0 := by
  have empty : State.reset.seq k = Seq.empty := rfl
  simp only [State.s, empty, Seq.sreg, Seq.empty, KMap.find, ite_self]

/-- Settles O58: every table is empty at reset, so every field has the value that its register table gives. -/
theorem resetState : Obligations.ResetState := by
  refine ⟨canon_reset, rfl, fun _ => rfl, rfl, rfl, fun _ => rfl, ?_, ?_, ?_, ?_, ?_, ?_, fun k stage => ⟨?_, s_reset k⟩⟩
  · decide +kernel
  · decide +kernel
  · decide +kernel
  · decide +kernel
  · decide +kernel
  · decide +kernel
  · revert k
    decide +kernel

end Sys2Proof.Machine

namespace Sys2Proof.Machine

-- One proof at a time: threads that wait for each other hold memory.
set_option Elab.async false

/-! ## A slot instruction that is a bundle of its own (R206 to R215) -/

theorem exec_slot {s : State} {i : Instr} {c : SlotCtl} {o : SlotOp} (ctl : slotCtlOf i = some c) (sem : semOf i = some o) :
    exec i s = issue c i s := by
  cases i <;> simp only [semOf, reduceCtorEq] at sem <;> cases ctl <;> rfl

/-- The state once a bundle of one slot has issued: its effect, its control flow, and the count. -/
def State.afterIssue (s : State) (k : Nat) (o : SlotOp) : State :=
  ((((o.eff s s).flow k (o.ctl s)).count (R.SEQ_CNT.issued (k / 4) (k % 4)) 1).put (R.SEQ_STAT.wait (k / 4) (k % 4)) 0).put
    (R.VER_HDR.gate_hold k) 0

/-- The slot, its instruction's checks and its waits are such that the bundle issues at once. -/
structure Issues (s : State) (c : SlotCtl) (i : Instr) (o : SlotOp) : Prop where
  alone : s.Alone c
  ctl   : slotCtlOf i = some c
  sem   : semOf i = some o
  slot  : o.slots.contains c.slot.val = true
  free  : s.NoPending c i
  chk   : o.chk s = none := by rfl
  wait  : o.wait s = 0 := by rfl
  hold  : o.hold s = 0 := by rfl
  late  : o.late s = 0 := by rfl
  tiles : ∀ r ∈ o.tW s, r ∉ o.tG s := by exact fun _ none => absurd none List.not_mem_nil

/-- The opcode of a slot that is no NOP is not 0 (R208). -/
theorem opcode_ne_zero {i : Instr} {o : SlotOp} (sem : semOf i = some o) (op : ∀ c, i ≠ .nop c) : bits (encSlot i) 56 8 ≠ 0 := by
  obtain ⟨n, c, l, enc, -, small, -, nop, fields⟩ := slot_fields i o sem
  rw [enc, bits_op n c l small fields]
  intro zero
  obtain ⟨d, rfl⟩ := nop zero
  exact op d rfl

theorem exec_issues {s : State} {c : SlotCtl} {i : Instr} {o : SlotOp} (h : Issues s c i o)
    (op : ∀ c, i ≠ .nop c := by exact fun _ op => nomatch op) :
    exec i s = .next (s.afterIssue (seqKey c) o) :=
  (exec_slot h.ctl h.sem).trans (issue_alone s c i o h.alone h.ctl h.sem (fun enc => opcode_ne_zero h.sem op enc.1) h.slot (h.free o h.sem)
    h.chk h.wait h.hold h.late h.tiles)

/-- The same for an instruction that is well formed. -/
theorem exec_formed {s : State} {c : SlotCtl} {i : Instr} {o : SlotOp} (alone : s.Alone c) (ctl : slotCtlOf i = some c)
    (sem : semOf i = some o) (formed : slotFormed i = true) (free : s.NoPending c i) (chk : o.chk s = none) (wait : o.wait s = 0)
    (hold : o.hold s = 0) (late : o.late s = 0) (tiles : ∀ r ∈ o.tW s, r ∉ o.tG s) : exec i s = .next (s.afterIssue (seqKey c) o) :=
  (exec_slot ctl sem).trans (issue_formed s c i o alone ctl sem formed (free o sem) chk wait hold late tiles)

/-! ### The state after the program counter has been set and the bundle counted -/

theorem pc_lt {s : State} {c : SlotCtl} (alone : s.Alone c) : s.pc (seqKey c) < 16384 :=
  lt_of_lt_of_le alone.inImage alone.image

/-- What follows when control goes to `n`. -/
theorem counted_setPc (w : State) (k n : Nat) (small : n < 2 ^ 15) :
    ∃ t, (((w.setPc k n).count (R.SEQ_CNT.issued (k / 4) (k % 4)) 1).put (R.SEQ_STAT.wait (k / 4) (k % 4)) 0).put
      (R.VER_HDR.gate_hold k) 0 = t ∧
      w.Issued t k n ∧ IssueFrame w t k ∧ t.seq k = { w.seq k with past := decide (2 ^ 14 ≤ n) } := by
  obtain ⟨n1, n2, n3, n4, n5⟩ := issue_places (k / 4) (k % 4) (k / 4) (k % 4)
  obtain ⟨m1, m2, m3, m4⟩ := gate_places k (k / 4) (k % 4)
  refine ⟨_, rfl, ⟨?_, ?_, ?_, ?_⟩, ⟨fun a => ?_, fun j other => ?_, fun f h1 h2 h3 h4 h5 => ?_, ?_⟩, ?_⟩
  · refine (pc_congr (w.setPc k n) _ k ?_ ?_).trans (pc_setPc w k n small)
    · rw [State.get_put_other _ _ _ _ m2, State.get_put_other _ _ _ _ n4.symm, State.get_count_other _ _ _ _ n1.symm]
    · simp only [State.put_seq, State.count]
  · rw [State.get_put_other _ _ _ _ m1, State.get_put_other _ _ _ _ n3, State.get_count_same]
    simp only [State.setPc]
    rw [State.get_put_other _ _ _ _ n2, State.get_put_other _ _ _ _ n1, State.modSeq_get]
    rfl
  · rw [State.get_put_other _ _ _ _ m4, State.get_put_same, Nat.zero_mod]
  · rw [State.get_put_same, Nat.zero_mod]
  · simp only [State.put_byte, State.count, State.setPc, State.modSeq_byte]
  · simp only [State.put_seq, State.count, State.setPc, State.seq_modSeq, if_neg other]
  · rw [State.get_put_other _ _ _ _ h5, State.get_put_other _ _ _ _ h4, State.get_count_other _ _ _ _ h3]
    simp only [State.setPc]
    rw [State.get_put_other _ _ _ _ h2, State.get_put_other _ _ _ _ h1, State.modSeq_get]
  · simp only [State.count, State.setPc, State.put, State.modSeq, State.setSeq]
  · simp only [State.put_seq, State.count, State.setPc, State.seq_modSeq, if_true]

/-- The same after the loop levels have changed too (R232). -/
theorem counted_go (w : State) (k n : Nat) (ls : List LoopLvl) (small : n < 2 ^ 15) :
    ∃ t, ((((w.modSeq k (fun x => { x with loops := ls })).setPc k n).count (R.SEQ_CNT.issued (k / 4) (k % 4)) 1).put
      (R.SEQ_STAT.wait (k / 4) (k % 4)) 0).put (R.VER_HDR.gate_hold k) 0 = t ∧
      w.Issued t k n ∧ IssueFrame w t k ∧ t.seq k = { w.seq k with loops := ls, past := decide (2 ^ 14 ≤ n) } := by
  obtain ⟨t, same, issued, frame, seq⟩ := counted_setPc (w.modSeq k (fun x => { x with loops := ls })) k n small
  refine ⟨t, same, issued, ⟨frame.mem, fun j other => ?_, frame.regs, ?_⟩, ?_⟩
  · rw [frame.seqs j other, State.seq_modSeq, if_neg other]
  · exact (congrArg (fun u : State => { u with seqs := w.seqs }) frame.rest :)
  · rw [seq, State.seq_modSeq, if_pos rfl]

theorem flow_seq_none {u : State} {k : Nat} (none : u.NoLoopEnd k) :
    u.flow k .seq = (u.modSeq k (fun x => { x with loops := (u.seq k).loops })).setPc k (u.pc k + 1) := flow_seq u k none

/-- A bundle that is no branch and at which no level ends: the next one follows. -/
theorem afterIssue_seq {s u : State} {k : Nat} {o : SlotOp} (eff : o.eff s s = u) (ctl : o.ctl s = .seq) (loops : (u.seq k).loops = (s.seq k).loops)
    (pc : u.pc k = s.pc k) (noEnd : s.NoLoopEnd k) (small : s.pc k < 16384) :
    u.Issued (s.afterIssue k o) k (s.pc k + 1) ∧ IssueFrame u (s.afterIssue k o) k ∧
      (s.afterIssue k o).seq k = { u.seq k with past := decide (2 ^ 14 ≤ s.pc k + 1) } := by
  have noEnd' : u.NoLoopEnd k := by
    intro l mem
    rw [pc]
    exact noEnd l (loops ▸ mem)
  obtain ⟨t, same, issued, frame, seq⟩ := counted_go u k (s.pc k + 1) (u.seq k).loops (by omega)
  have this : s.afterIssue k o = t := by
    rw [← same, State.afterIssue, eff, ctl, flow_seq_none noEnd', pc]
  rw [this]
  exact ⟨issued, frame, seq⟩

/-- What the bundle has counted is a matter of one field that the effect leaves alone. -/
theorem issued_of_same {s u t : State} {k n : Nat} (issued : u.Issued t k n)
    (same : u.get (R.SEQ_CNT.issued (k / 4) (k % 4)) = s.get (R.SEQ_CNT.issued (k / 4) (k % 4))) : s.Issued t k n := by
  unfold State.Issued at issued ⊢
  rwa [← same]

/-- An effect on nothing but the sequencer's own registers. -/
theorem afterIssue_modSeq {s : State} {k : Nat} {o : SlotOp} {g : Seq → Seq} (eff : o.eff s s = s.modSeq k g) (ctl : o.ctl s = .seq)
    (loops : (g (s.seq k)).loops = (s.seq k).loops) (past : (g (s.seq k)).past = (s.seq k).past) (noEnd : s.NoLoopEnd k)
    (small : s.pc k < 16384) :
    s.Issued (s.afterIssue k o) k (s.pc k + 1) ∧ IssueFrame s (s.afterIssue k o) k ∧
      (s.afterIssue k o).seq k = { g (s.seq k) with past := decide (2 ^ 14 ≤ s.pc k + 1) } := by
  obtain ⟨t, same, facts⟩ := straight s k g noEnd loops past small
  have this : s.afterIssue k o = t := by rw [← same, State.afterIssue, eff, ctl]
  rw [this]
  exact facts

end Sys2Proof.Machine

namespace Sys2Proof.Machine

-- One theorem at a time: this bounds the threads that wait for the equations of the issue function.
set_option Elab.async false

/-! ## Results in integers (R234) -/

theorem ofNat_and (a b : Word) : BitVec.ofNat 64 (a.toNat &&& b.toNat) = a &&& b := by
  rw [← BitVec.toNat_and, BitVec.ofNat_toNat, BitVec.setWidth_eq]

theorem ofNat_or (a b : Word) : BitVec.ofNat 64 (a.toNat ||| b.toNat) = a ||| b := by
  rw [← BitVec.toNat_or, BitVec.ofNat_toNat, BitVec.setWidth_eq]

theorem ofNat_xor (a b : Word) : BitVec.ofNat 64 (a.toNat ^^^ b.toNat) = a ^^^ b := by
  rw [← BitVec.toNat_xor, BitVec.ofNat_toNat, BitVec.setWidth_eq]

theorem ofInt_sub (a b : Word) : BitVec.ofInt 64 (a.toInt - b.toInt) = a - b := by
  apply BitVec.eq_of_toInt_eq
  rw [BitVec.toInt_ofInt, BitVec.toInt_sub]

theorem ofInt_add (a b : Word) : BitVec.ofInt 64 (a.toInt + b.toInt) = a + b := by
  rw [BitVec.ofInt_add, BitVec.ofInt_toInt, BitVec.ofInt_toInt]

theorem ofNat_shl (a : Word) (n : Nat) : BitVec.ofNat 64 (a.toNat * 2 ^ n) = a <<< n := by
  apply BitVec.eq_of_toNat_eq
  rw [BitVec.toNat_ofNat, BitVec.toNat_shiftLeft, Nat.shiftLeft_eq]

theorem ofNat_shr (a : Word) (n : Nat) : BitVec.ofNat 64 (a.toNat / 2 ^ n) = a >>> n := by
  rw [← Nat.shiftRight_eq_div_pow, ← BitVec.toNat_ushiftRight, BitVec.ofNat_toNat, BitVec.setWidth_eq]

theorem ofInt_sra (a : Word) (n : Nat) : BitVec.ofInt 64 (a.toInt / 2 ^ n) = a.sshiftRight n := by
  apply BitVec.eq_of_toInt_eq
  have shifted : a.toInt / 2 ^ n = (a.sshiftRight n).toInt := by rw [BitVec.toInt_sshiftRight, Int.shiftRight_eq_div_pow]; norm_cast
  rw [shifted, BitVec.ofInt_toInt]

theorem ofNat_mul (a b : Word) : BitVec.ofNat 64 (a.toNat * b.toNat) = a * b := by
  rw [BitVec.ofNat_mul, BitVec.ofNat_toNat, BitVec.ofNat_toNat, BitVec.setWidth_eq, BitVec.setWidth_eq]

theorem ofInt_min (a b : Word) : BitVec.ofInt 64 (min a.toInt b.toInt) = if a.slt b then a else b := by
  by_cases lt : a.toInt < b.toInt
  · rw [min_eq_left lt.le, BitVec.ofInt_toInt, if_pos (BitVec.slt_iff_toInt_lt.2 lt)]
  · rw [min_eq_right (not_lt.1 lt), BitVec.ofInt_toInt, if_neg (fun slt => lt (BitVec.slt_iff_toInt_lt.1 slt))]

theorem ofInt_max (a b : Word) : BitVec.ofInt 64 (max a.toInt b.toInt) = if a.slt b then b else a := by
  by_cases lt : a.toInt < b.toInt
  · rw [max_eq_right lt.le, BitVec.ofInt_toInt, if_pos (BitVec.slt_iff_toInt_lt.2 lt)]
  · rw [max_eq_left (not_lt.1 lt), BitVec.ofInt_toInt, if_neg (fun slt => lt (BitVec.slt_iff_toInt_lt.1 slt))]

theorem ofInt_addImm (a : Word) (imm : BitVec 32) : BitVec.ofInt 64 (a.toInt + imm.toInt) = a + imm.signExtend 64 := by
  rw [BitVec.ofInt_add, BitVec.ofInt_toInt]
  rfl

theorem ofNat_high (a : Word) (imm : BitVec 32) : BitVec.ofNat 64 (imm.toNat * 2 ^ 32 + a.toNat % 2 ^ 32) = imm ++ a.extractLsb' 0 32 := by
  apply BitVec.eq_of_toNat_eq
  rw [BitVec.toNat_append, BitVec.extractLsb'_toNat, Nat.shiftRight_zero, ← Nat.shiftLeft_add_eq_or_of_lt (Nat.mod_lt _ (by decide)),
    Nat.shiftLeft_eq, BitVec.toNat_ofNat]
  omega

/-! ## A result in one register and nothing else -/

theorem issued_wS {s : State} {k : Nat} {o : SlotOp} {rd : BitVec 5} {v : Word} (eff : o.eff s s = s.wS k rd v) (ctl : o.ctl s = .seq)
    (noEnd : s.NoLoopEnd k) (small : s.pc k < 16384) :
    let t := s.afterIssue k o
    t.s k rd = (if rd = 0 then 0 else v) ∧ s.Issued t k (s.pc k + 1) ∧ IssueFrame s t k ∧
      ∃ x b, t.seq k = { s.seq k with s := x, past := b } ∧ ∀ r : BitVec 5, r ≠ rd → t.s k r = s.s k r := by
  have same : ∀ x : Seq, x.setS rd.toNat v = { x with s := (x.setS rd.toNat v).s } := by
    intro x
    unfold Seq.setS
    split <;> rfl
  obtain ⟨issued, frame, seq⟩ := afterIssue_modSeq eff ctl (by rw [same]) (by rw [same]) noEnd small
  have read : ∀ r, (s.afterIssue k o).s k r = (s.wS k rd v).s k r := by
    intro r
    simp only [State.s, seq, State.wS, State.seq_modSeq, if_true, Seq.sreg]
  refine ⟨?_, issued, frame, _, _, seq.trans (by rw [same]), fun r other => ?_⟩
  · rw [read, s_wS, if_pos ⟨rfl, rfl⟩]
  · rw [read, s_wS, if_neg (fun h => other h.2)]

theorem issued_wP {s : State} {k : Nat} {o : SlotOp} {pd : BitVec 3} {v : Bool} (eff : o.eff s s = s.wP k pd v) (ctl : o.ctl s = .seq)
    (noEnd : s.NoLoopEnd k) (small : s.pc k < 16384) :
    let t := s.afterIssue k o
    t.p k pd = (if pd = 0 then true else v) ∧ s.Issued t k (s.pc k + 1) ∧ IssueFrame s t k ∧
      ∃ x b, t.seq k = { s.seq k with p := x, past := b } ∧ ∀ r : BitVec 3, r ≠ pd → t.p k r = s.p k r := by
  have same : ∀ x : Seq, x.setP pd.toNat v = { x with p := (x.setP pd.toNat v).p } := by
    intro x
    unfold Seq.setP
    split <;> rfl
  obtain ⟨issued, frame, seq⟩ := afterIssue_modSeq eff ctl (by rw [same]) (by rw [same]) noEnd small
  have read : ∀ r, (s.afterIssue k o).p k r = (s.wP k pd v).p k r := by
    intro r
    simp only [State.p, seq, State.wP, State.seq_modSeq, if_true, Seq.preg]
  refine ⟨?_, issued, frame, _, _, seq.trans (by rw [same]), fun r other => ?_⟩
  · rw [read, p_wP, if_pos ⟨rfl, rfl⟩]
  · rw [read, p_wP, if_neg (fun h => other h.2)]

theorem issued_wA {s : State} {k : Nat} {o : SlotOp} {ad : BitVec 4} {v : Addr} (eff : o.eff s s = s.wA k ad v) (ctl : o.ctl s = .seq)
    (noEnd : s.NoLoopEnd k) (small : s.pc k < 16384) :
    let t := s.afterIssue k o
    t.a k ad.toNat = v ∧ s.Issued t k (s.pc k + 1) ∧ IssueFrame s t k ∧
      ∃ x b, t.seq k = { s.seq k with a := x, past := b } ∧ ∀ r : BitVec 4, r ≠ ad → t.a k r.toNat = s.a k r.toNat := by
  obtain ⟨issued, frame, seq⟩ := afterIssue_modSeq eff ctl rfl rfl noEnd small
  have read : ∀ r, (s.afterIssue k o).a k r = (s.wA k ad v).a k r := by
    intro r
    simp only [State.a, seq, State.wA, State.seq_modSeq, if_true, Seq.areg]
  refine ⟨?_, issued, frame, _, _, seq, fun r other => ?_⟩
  · rw [read, a_wA, if_pos ⟨rfl, rfl⟩]
  · rw [read, a_wA, if_neg (fun h => other h.2)]

/-- An instruction of the scalar class: its meaning has no check and no wait, and writes the result that R234 gives. -/
structure WritesOne (s : State) (i : Instr) (c : SlotCtl) (o : SlotOp) (u : State) : Prop where
  ctl   : slotCtlOf i = some c
  sem   : semOf i = some o
  chk   : o.chk s = none
  wait  : o.wait s = 0
  hold  : o.hold s = 0
  late  : o.late s = 0
  tiles : o.tW s = []
  eff   : o.eff s s = u
  flow  : o.ctl s = .seq

theorem exec_writesOne {s u : State} {i : Instr} {c : SlotCtl} {o : SlotOp} (one : WritesOne s i c o u) (alone : s.Alone c)
    (formed : slotFormed i = true) (free : s.NoPending c i) : exec i s = .next (s.afterIssue (seqKey c) o) :=
  exec_formed alone one.ctl one.sem formed free one.chk one.wait one.hold one.late (by rw [one.tiles]; exact fun _ none => absurd none List.not_mem_nil)

theorem writesOne_of_scalarResult {s : State} {i : Instr} {c : SlotCtl} {rd : BitVec 5} {v : Word} (result : scalarResult s i = some (c, rd, v)) :
    ∃ o, WritesOne s i c o (s.wS (seqKey c) rd v) := by
  unfold scalarResult at result
  dsimp only at result
  split at result <;> cases result
  · exact ⟨_, rfl, rfl, rfl, rfl, rfl, rfl, rfl, by rw [ofInt_add]; rfl, rfl⟩
  · exact ⟨_, rfl, rfl, rfl, rfl, rfl, rfl, rfl, by rw [ofInt_sub]; rfl, rfl⟩
  · exact ⟨_, rfl, rfl, rfl, rfl, rfl, rfl, rfl, by rw [ofNat_and]; rfl, rfl⟩
  · exact ⟨_, rfl, rfl, rfl, rfl, rfl, rfl, rfl, by rw [ofNat_or]; rfl, rfl⟩
  · exact ⟨_, rfl, rfl, rfl, rfl, rfl, rfl, rfl, by rw [ofNat_xor]; rfl, rfl⟩
  · exact ⟨_, rfl, rfl, rfl, rfl, rfl, rfl, rfl, by rw [ofNat_shl]; rfl, rfl⟩
  · exact ⟨_, rfl, rfl, rfl, rfl, rfl, rfl, rfl, by rw [ofNat_shr]; rfl, rfl⟩
  · exact ⟨_, rfl, rfl, rfl, rfl, rfl, rfl, rfl, by rw [ofInt_sra]; rfl, rfl⟩
  · exact ⟨_, rfl, rfl, rfl, rfl, rfl, rfl, rfl, by rw [ofNat_mul]; rfl, rfl⟩
  · exact ⟨_, rfl, rfl, rfl, rfl, rfl, rfl, rfl, by rw [ofInt_min]; rfl, rfl⟩
  · exact ⟨_, rfl, rfl, rfl, rfl, rfl, rfl, rfl, by rw [ofInt_max]; rfl, rfl⟩
  · exact ⟨_, rfl, rfl, rfl, rfl, rfl, rfl, rfl, by rw [ofInt_addImm]; rfl, rfl⟩
  · exact ⟨_, rfl, rfl, rfl, rfl, rfl, rfl, rfl, rfl, rfl⟩
  · exact ⟨_, rfl, rfl, rfl, rfl, rfl, rfl, rfl, by rw [ofNat_high]; rfl, rfl⟩
  · exact ⟨_, rfl, rfl, rfl, rfl, rfl, rfl, rfl, rfl, rfl⟩
  · exact ⟨_, rfl, rfl, rfl, rfl, rfl, rfl, rfl, by rw [BitVec.ofNat_toNat]; rfl, rfl⟩

theorem decide_toInt_eq (a b : Word) : decide (a.toInt = b.toInt) = (a == b) := by
  rw [Bool.eq_iff_iff, decide_eq_true_iff, beq_iff_eq, BitVec.toInt_inj]

theorem decide_toInt_ne (a b : Word) : decide (a.toInt ≠ b.toInt) = (a != b) := by
  rw [Bool.eq_iff_iff, decide_eq_true_iff, bne_iff_ne, ne_eq, BitVec.toInt_inj]

theorem decide_bit (a : Word) (n : Nat) : decide (a.toNat / 2 ^ n % 2 = 1) = a.getLsbD n := by
  rw [BitVec.getLsbD, Nat.testBit_eq_decide_div_mod_eq]

/-- The value that a compare takes for its second operand, as R229 gives it. -/
theorem cmpVal_eq (s : State) (k : Nat) (b : CmpOp) : cmpVal s k b = (match b with
    | .reg rb => s.s k rb
    | .imm v => BitVec.ofInt 64 v.toInt) := by
  cases b <;> rfl

theorem plogOp (op : BitVec 2) : op = 0 ∨ op = 1 ∨ op = 2 ∨ op = 3 := by
  revert op
  decide

theorem writesOne_of_predResult {s : State} {i : Instr} {c : SlotCtl} {pd : BitVec 3} {v : Bool} (result : predResult s i = some (c, pd, v)) :
    ∃ o, WritesOne s i c o (s.wP (seqKey c) pd v) := by
  unfold predResult at result
  dsimp only at result
  split at result
  · next b =>
    cases result
    cases b <;> exact ⟨_, rfl, rfl, rfl, rfl, rfl, rfl, rfl, congrArg (s.wP _ _) (decide_toInt_eq _ _).symm, rfl⟩
  · next b =>
    cases result
    cases b <;> exact ⟨_, rfl, rfl, rfl, rfl, rfl, rfl, rfl, congrArg (s.wP _ _) (decide_toInt_ne _ _).symm, rfl⟩
  · next b =>
    cases result
    cases b <;> exact ⟨_, rfl, rfl, rfl, rfl, rfl, rfl, rfl, rfl, rfl⟩
  · next b =>
    cases result
    cases b <;> exact ⟨_, rfl, rfl, rfl, rfl, rfl, rfl, rfl, rfl, rfl⟩
  · next b =>
    cases result
    cases b <;> exact ⟨_, rfl, rfl, rfl, rfl, rfl, rfl, rfl, rfl, rfl⟩
  · next b =>
    cases result
    cases b <;> exact ⟨_, rfl, rfl, rfl, rfl, rfl, rfl, rfl, rfl, rfl⟩
  · cases result
    exact ⟨_, rfl, rfl, rfl, rfl, rfl, rfl, rfl, congrArg (s.wP _ _) (decide_bit _ _).symm, rfl⟩
  · next op =>
    rcases plogOp op with rfl | rfl | rfl | rfl
    · cases result
      exact ⟨_, rfl, rfl, rfl, rfl, rfl, rfl, rfl, rfl, rfl⟩
    · cases result
      exact ⟨_, rfl, rfl, rfl, rfl, rfl, rfl, rfl, rfl, rfl⟩
    · cases result
      exact ⟨_, rfl, rfl, rfl, rfl, rfl, rfl, rfl, rfl, rfl⟩
    · cases result
  · cases result

theorem writesOne_of_addrResult {s : State} {i : Instr} {c : SlotCtl} {ad : BitVec 4} {v : Addr} (result : addrResult s i = some (c, ad, v)) :
    ∃ o, WritesOne s i c o (s.wA (seqKey c) ad v) := by
  unfold addrResult at result
  split at result <;> cases result
  · exact ⟨_, rfl, rfl, rfl, rfl, rfl, rfl, rfl, by rw [BitVec.ofNat_toNat]; rfl, rfl⟩
  · exact ⟨_, rfl, rfl, rfl, rfl, rfl, rfl, rfl, by rw [BitVec.ofNat_add, BitVec.ofNat_toNat, BitVec.ofNat_toNat, BitVec.setWidth_eq]; rfl, rfl⟩
  · exact ⟨_, rfl, rfl, rfl, rfl, rfl, rfl, rfl, by rw [BitVec.ofInt_add, BitVec.ofInt_natCast, BitVec.ofNat_toNat, BitVec.setWidth_eq]; rfl, rfl⟩

/-- Settles O1: each instruction of the class writes its result, and nothing else. -/
theorem registerResults : Obligations.RegisterResults := by
  refine ⟨fun s i c rd v result formed alone free noEnd => ?_, fun s i c pd v result formed alone free noEnd => ?_,
    fun s i c ad v result formed alone free noEnd => ?_⟩
  · obtain ⟨o, one⟩ := writesOne_of_scalarResult result
    exact ⟨_, exec_writesOne one alone formed free, issued_wS one.eff one.flow noEnd (pc_lt alone)⟩
  · obtain ⟨o, one⟩ := writesOne_of_predResult result
    exact ⟨_, exec_writesOne one alone formed free, issued_wP one.eff one.flow noEnd (pc_lt alone)⟩
  · obtain ⟨o, one⟩ := writesOne_of_addrResult result
    exact ⟨_, exec_writesOne one alone formed free, issued_wA one.eff one.flow noEnd (pc_lt alone)⟩

end Sys2Proof.Machine

namespace Sys2Proof.Machine

-- One proof at a time: threads that wait for each other hold memory.
set_option Elab.async false

/-! ## Loop levels (R214, R232) -/

/-- A bundle after which control goes on with loop levels `ls` at bundle `n`. -/
theorem afterIssue_go {s : State} {k n : Nat} {o : SlotOp} {ls : List LoopLvl} (eff : o.eff s s = s)
    (flow : s.flow k (o.ctl s) = (s.modSeq k (fun x => { x with loops := ls })).setPc k n) (small : n < 2 ^ 15) :
    s.Issued (s.afterIssue k o) k n ∧ IssueFrame s (s.afterIssue k o) k ∧
      (s.afterIssue k o).seq k = { s.seq k with loops := ls, past := decide (2 ^ 14 ≤ n) } := by
  obtain ⟨t, same, facts⟩ := counted_go s k n ls small
  have this : s.afterIssue k o = t := by rw [← same, State.afterIssue, eff, flow]
  rw [this]
  exact facts

/-- LOOP that passes its checks (R214). -/
theorem issues_loop {s : State} {c : SlotCtl} {r : BitVec 5} {last : BitVec 14} (alone : s.Alone c) (slot : c.slot = 0)
    (free : s.NoPending c (.loop c r last)) (after : s.pc (seqKey c) < last.toNat) (inside : last.toNat < s.nbundles (seqKey c))
    (room : (s.s (seqKey c) r).toNat % 2 ^ 32 ≠ 0 → (s.seq (seqKey c)).loops.length < 4) :
    Issues s c (.loop c r last) (opLoop (seqKey c) r last) where
  alone := alone
  ctl := rfl
  sem := rfl
  slot := by rw [slot]; rfl
  free := free
  chk := by
    have deep : ¬((s.s (seqKey c) r).toNat % 2 ^ 32 ≠ 0 ∧ 4 ≤ (s.seq (seqKey c)).loops.length) := fun h => absurd (room h.1) (not_lt.2 h.2)
    have range : ¬(last.toNat ≤ s.pc (seqKey c) ∨ s.nbundles (seqKey c) ≤ last.toNat) := by omega
    simp only [opLoop, firstExc, decide_eq_false range, decide_eq_false deep, Bool.false_eq_true, if_false]

theorem flow_loop_skip {s : State} {k last : Nat} (noEnd : s.NoLoopEnd k) :
    s.flow k (.loop 0 last) = (s.modSeq k (fun x => { x with loops := (s.seq k).loops })).setPc k (last + 1) := by
  simp only [State.flow, loopEnd_none _ _ _ noEnd, if_true]

theorem flow_loop_open {s : State} {k n last : Nat} (noEnd : s.NoLoopEnd k) (some : n ≠ 0) : s.flow k (.loop n last) =
    (s.modSeq k (fun x => { x with loops := ⟨s.pc k + 1, last, n⟩ :: (s.seq k).loops })).setPc k (s.pc k + 1) := by
  simp only [State.flow, loopEnd_none _ _ _ noEnd, if_neg some]

/-- A level that ends at the bundle and has more passes to run goes back to its first bundle. -/
theorem loopEnd_again {l : LoopLvl} {ls : List LoopLvl} {nx : Nat} (more : 1 < l.count) :
    loopEnd l.last (l :: ls) nx = ({ l with count := l.count - 1 } :: ls, l.first) := by
  rw [loopEnd, if_pos rfl, if_neg (not_le.2 more)]

/-- One that has run its last pass closes. -/
theorem loopEnd_close {l : LoopLvl} {ls : List LoopLvl} {nx : Nat} (last : l.count = 1) (outer : ∀ m ∈ ls, m.last ≠ l.last) :
    loopEnd l.last (l :: ls) nx = (ls, nx) := by
  rw [loopEnd, if_pos rfl, if_pos last.le, loopEnd_none _ _ _ outer]

theorem exec_nop {s : State} {c : SlotCtl} (alone : s.Alone c) (formed : slotFormed (.nop c) = true) :
    exec (.nop c) s = .next (s.afterIssue (seqKey c) opNop) := by
  have none : s.NoPending c (.nop c) := by
    intro o sem
    cases sem
    simp only [State.regWait, opNop, List.contains_nil, Bool.or_self, Bool.and_false, List.any_eq_false, Bool.false_eq_true, not_false_iff,
      implies_true]
  exact exec_formed alone rfl rfl formed none rfl rfl rfl rfl fun _ empty => absurd empty List.not_mem_nil

/-- Settles O3: LOOP by its count, and the end of a level by what is left of its count. -/
theorem loops : Obligations.Loops := by
  refine ⟨fun s c r last alone slot free noEnd after inside => ⟨fun zero => ?_, fun some room => ?_⟩,
    fun s c l ls alone formed levels ends first outer => ⟨fun more => ?_, fun once => ?_⟩⟩
  all_goals have small := pc_lt alone
  · have issues := issues_loop alone slot free after inside fun h => absurd zero h
    have ctl : (opLoop (seqKey c) r last).ctl s = .loop 0 last.toNat := congrArg (Ctl.loop · last.toNat) zero
    obtain ⟨issued, frame, seq⟩ := afterIssue_go (o := opLoop (seqKey c) r last) rfl (ctl ▸ flow_loop_skip noEnd) (by omega)
    exact ⟨_, _, exec_issues issues, issued, frame, seq⟩
  · have issues := issues_loop alone slot free after inside fun _ => room
    obtain ⟨issued, frame, seq⟩ := afterIssue_go (o := opLoop (seqKey c) r last) rfl (flow_loop_open noEnd some) (by omega)
    exact ⟨_, _, exec_issues issues, issued, frame, seq⟩
  · have flow : s.flow (seqKey c) .seq = (s.modSeq (seqKey c) fun x => { x with loops := { l with count := l.count - 1 } :: ls }).setPc
        (seqKey c) l.first := by
      unfold State.flow
      dsimp only
      rw [levels, ← ends, loopEnd_again more]
    obtain ⟨issued, -, seq⟩ := afterIssue_go (o := opNop) rfl flow (by omega)
    exact ⟨_, _, exec_nop alone formed, issued, seq⟩
  · have flow : s.flow (seqKey c) .seq = (s.modSeq (seqKey c) fun x => { x with loops := ls }).setPc (seqKey c) (s.pc (seqKey c) + 1) := by
      unfold State.flow
      dsimp only
      rw [levels, ← ends, loopEnd_close once (ends ▸ outer)]
    obtain ⟨issued, -, seq⟩ := afterIssue_go (o := opNop) rfl flow (by omega)
    exact ⟨_, _, exec_nop alone formed, issued, seq⟩

end Sys2Proof.Machine

namespace Sys2Proof.Machine

-- One proof at a time: threads that wait for each other hold memory.
set_option Elab.async false

/-! ## A bundle that raises (R215, R221) -/

/-- A slot whose first check fails raises its exception; the slot reads nothing that would be corrected on the way. -/
theorem exec_raises {s : State} {c : SlotCtl} {i : Instr} {o : SlotOp} {e : Exc} (alone : s.Alone c) (ctl : slotCtlOf i = some c)
    (sem : semOf i = some o) (slot : o.slots.contains c.slot.val = true) (free : s.NoPending c i)
    (chk : o.chk s = some e) (desc : o.desc = false) (reads : o.reads s = []) (code : e.code ≠ E.CFG_COMMIT)
    (op : ∀ c, i ≠ .nop c := by exact fun _ op => nomatch op) :
    exec i s = .next (s.takeExc (seqKey c) c.slot.val (SlotIn.detail ⟨i, c, o, encSlot i⟩ e)) := by
  obtain ⟨running, live, staged, held, noStep, last, on, inImage, image, fetch⟩ := alone
  have slots : slotsOf [i] = [⟨i, c, o, encSlot i⟩] := by simp [slotsOf, ctl, sem]
  have wait := srcWait_of_regWait s (seqKey c) o (free o sem)
  have decode : SlotIn.decodeExc ⟨i, c, o, encSlot i⟩ = none := by
    unfold SlotIn.decodeExc
    rw [if_neg (fun enc => opcode_ne_zero sem op enc.1), if_pos slot]
  have raised : s.slotExc (seqKey c) [⟨i, c, o, encSlot i⟩] ⟨i, c, o, encSlot i⟩ = some (SlotIn.detail ⟨i, c, o, encSlot i⟩ e) := by
    simp [State.slotExc, decode, on, clashSlot, wait, chk]
  have judged : s.judge (seqKey c) [i] = .raise c.slot.val (SlotIn.detail ⟨i, c, o, encSlot i⟩ e) := by
    unfold State.judge
    simp [slots, on, not_le.2 inImage, State.firstRaise, raised, fetch, desc]
  have detail : (SlotIn.detail ⟨i, c, o, encSlot i⟩ e).code = e.code := by
    unfold SlotIn.detail
    split <;> rfl
  have refused : s.noteRefused (seqKey c) c.slot.val [i] = s := by
    simp [State.noteRefused, slots, wait, reads]
  rw [exec_slot ctl sem]
  unfold issue
  simp only [running, staged, held, last, live, List.getLast?_nil, Option.bind_none, List.isEmpty_nil, if_true, List.nil_append,
    Bool.and_self, ne_eq, not_true_eq_false, false_or, Bool.true_eq_false, if_false, Bool.false_eq_true]
  unfold State.tryBundle
  rw [judged]
  simp only [detail, code, false_and, if_false, refused]

/-! ## The state of a sequencer -/

theorem setSeqState_seq (s : State) (k v i : Nat) : (s.setSeqState k v).seq i = s.seq i := by
  unfold State.setSeqState
  dsimp only
  split <;> rfl

theorem setSeqState_byte (s : State) (k v a : Nat) : (s.setSeqState k v).byte a = s.byte a := by
  unfold State.setSeqState
  dsimp only
  split <;> rfl

theorem seqCtx_lt (s : State) (n q : Nat) : s.get (R.SEQ_BIND.ctx n q) < 64 := State.get_lt s (R.SEQ_BIND.ctx n q)

theorem setSeqState_get_other (s : State) {k v : Nat} {g : Fld} (state : g.a ≠ (R.SEQ_STAT.state (k / 4) (k % 4)).a)
    (fault : ∀ c, c < 64 → g.a ≠ (R.CTX_FAULT.faulted c (k / 64)).a) : (s.setSeqState k v).get g = s.get g := by
  unfold State.setSeqState
  dsimp only
  rw [State.get_put_other _ _ _ _ state]
  split
  · rw [State.get_put_other _ _ _ _ (fault _ (seqCtx_lt s _ _))]
  · rfl

theorem setSeqState_seqState (s : State) {k v : Nat} (small : v < 8) : (s.setSeqState k v).seqState k = v := by
  unfold State.setSeqState State.seqState
  dsimp only
  rw [State.get_put_same]
  exact Nat.mod_eq_of_lt small

/-- The fields that an issue writes, as places away from the state of a sequencer and the fault flags of a context. -/
theorem places_setSeqState (k n q c j : Nat) (ctx : c < 64) (half : j < 2) :
    (R.SEQ_CNT.issued n q).a ≠ (R.CTX_FAULT.faulted c j).a ∧ (R.SEQ_STAT.pc n q).a ≠ (R.CTX_FAULT.faulted c j).a ∧
    (R.SEQ_STAT.wait n q).a ≠ (R.CTX_FAULT.faulted c j).a ∧ (R.SEQ_STAT.state n q).a ≠ (R.SEQ_CNT.issued n q).a ∧
    (R.SEQ_STAT.state n q).a ≠ (R.SEQ_STAT.pc n q).a ∧ (R.SEQ_STAT.state n q).a ≠ (R.SEQ_STAT.wait n q).a ∧
    (R.SEQ_STAT.state n q).a ≠ (R.VER_HDR.gate_hold k).a ∧ (R.SEQ_STAT.state n q).a ≠ (R.SEQ_PC.pc n q).a := by
  simp only [R.SEQ_CNT.issued, R.CTX_FAULT.faulted, R.SEQ_STAT.pc, R.SEQ_STAT.wait, R.SEQ_STAT.state, R.VER_HDR.gate_hold, R.SEQ_PC.pc]
  omega

theorem setSeqState_rest (s : State) (k v : Nat) : { s.setSeqState k v with regs := s.regs } = s := by
  unfold State.setSeqState
  dsimp only
  split <;> rfl

theorem seqKey_lt (c : SlotCtl) : seqKey c < 96 := by
  have die := c.die.isLt
  have q := c.q.isLt
  unfold seqKey
  omega

theorem seqKey_div (c : SlotCtl) : seqKey c / 4 = c.die.val := by
  have q := c.q.isLt
  unfold seqKey
  omega

theorem seqKey_mod (c : SlotCtl) : seqKey c % 4 = c.q.val := by
  have q := c.q.isLt
  unfold seqKey
  omega

theorem sameMem_of_eq {s t : State} (mem : t.mem = s.mem) (bad : t.bad = s.bad) (plist : t.plist = s.plist) (linkErr : t.linkErr = s.linkErr) :
    SameMem s t :=
  ⟨fun a => by rw [State.byte, mem, State.byte], bad, plist, linkErr⟩

/-! ## HALT (R203) -/

theorem afterIssue_halt {s : State} {k : Nat} {o : SlotOp} (eff : o.eff s s = s) (ctl : o.ctl s = .halt) (noEnd : s.NoLoopEnd k)
    (small : s.pc k < 16384) (key : k < 96) :
    let t := s.afterIssue k o
    t.seqState k = seqHALTED ∧ s.Issued t k (s.pc k + 1) ∧ SameMem s t ∧ SameSeqsBut s t k ∧ ∃ b, t.seq k = { s.seq k with past := b } := by
  have flow : s.flow k .halt = ((s.modSeq k (fun x => { x with loops := (s.seq k).loops })).setPc k (s.pc k + 1)).setSeqState k seqHALTED := by
    simp only [State.flow, loopEnd_none _ _ _ noEnd]
  generalize before : (s.modSeq k (fun x => { x with loops := (s.seq k).loops })).setPc k (s.pc k + 1) = w at flow
  have wseq : ∀ j, w.seq j = if j = k then { s.seq k with past := decide (2 ^ 14 ≤ s.pc k + 1) } else s.seq j := by
    intro j
    rw [← before, seq_setPc]
    by_cases own : j = k
    · simp only [own, if_true, State.seq_modSeq]
    · simp only [own, if_false, State.seq_modSeq]
  have wmem : SameMem s w := by
    rw [← before]
    exact sameMem_of_eq (by simp [State.setPc]) (by simp [State.setPc]) (by simp [State.setPc]) (by simp [State.setPc])
  have wpc : w.pc k = s.pc k + 1 := by
    rw [← before]
    exact pc_setPc _ k _ (by omega)
  obtain ⟨n1, n2, n3, n4, n5⟩ := issue_places (k / 4) (k % 4) (k / 4) (k % 4)
  obtain ⟨m1, m2, m3, m4⟩ := gate_places k (k / 4) (k % 4)
  have half : k / 64 < 2 := by omega
  have away := fun c ctx => places_setSeqState k (k / 4) (k % 4) c (k / 64) ctx half
  obtain ⟨-, -, -, p1, p2, p3, p4, p5⟩ := away 0 (by decide)
  have wcount : w.get (R.SEQ_CNT.issued (k / 4) (k % 4)) = s.get (R.SEQ_CNT.issued (k / 4) (k % 4)) := by
    rw [← before]
    unfold State.setPc
    rw [State.get_put_other _ _ _ _ n2, State.get_put_other _ _ _ _ n1]
    rfl
  have after : s.afterIssue k o = (((w.setSeqState k seqHALTED).count (R.SEQ_CNT.issued (k / 4) (k % 4)) 1).put
      (R.SEQ_STAT.wait (k / 4) (k % 4)) 0).put (R.VER_HDR.gate_hold k) 0 := by
    rw [State.afterIssue, eff, ctl, flow]
  have tseq : ∀ j, (s.afterIssue k o).seq j = w.seq j := by
    intro j
    rw [after]
    simp only [State.put_seq, State.count, setSeqState_seq]
  have rest := setSeqState_rest w k seqHALTED
  dsimp only
  refine ⟨?_, ⟨?_, ?_, ?_, ?_⟩, ⟨fun a => ?_, ?_, ?_, ?_⟩, fun j other => ?_, decide (2 ^ 14 ≤ s.pc k + 1), ?_⟩
  · rw [after, State.seqState, State.get_put_other _ _ _ _ p4, State.get_put_other _ _ _ _ p3, State.get_count_other _ _ _ _ p1]
    exact setSeqState_seqState w (by decide)
  · rw [← wpc]
    refine pc_congr w _ k ?_ (tseq k)
    rw [after, State.get_put_other _ _ _ _ m2, State.get_put_other _ _ _ _ n4.symm, State.get_count_other _ _ _ _ n1.symm,
      setSeqState_get_other w p2.symm fun c ctx => (away c ctx).2.1]
  · rw [after, State.get_put_other _ _ _ _ m1, State.get_put_other _ _ _ _ n3, State.get_count_same,
      setSeqState_get_other w p1.symm fun c ctx => (away c ctx).1, wcount]
    rfl
  · rw [after, State.get_put_other _ _ _ _ m4, State.get_put_same, Nat.zero_mod]
  · rw [after, State.get_put_same, Nat.zero_mod]
  · rw [after]
    simp only [State.put_byte, State.count, setSeqState_byte]
    exact wmem.1 a
  · rw [after]
    exact (congrArg State.bad rest).trans wmem.2.1
  · rw [after]
    exact (congrArg State.plist rest).trans wmem.2.2.1
  · rw [after]
    exact (congrArg State.linkErr rest).trans wmem.2.2.2
  · rw [tseq, wseq, if_neg other]
  · rw [tseq, wseq, if_pos rfl]

/-! ## What a frame gives -/

theorem IssueFrame.sameMem {s t : State} {k : Nat} (frame : IssueFrame s t k) : SameMem s t :=
  ⟨frame.mem, (congrArg State.bad frame.rest :), (congrArg State.plist frame.rest :), (congrArg State.linkErr frame.rest :)⟩

theorem noPending_of_none {s : State} {c : SlotCtl} {i : Instr} {o : SlotOp} (sem : semOf i = some o) (sR : o.sR = []) (sW : o.sW = []) :
    s.NoPending c i := by
  intro p sem'
  cases sem.symm.trans sem'
  simp only [State.regWait, sR, sW, List.contains_nil, Bool.or_self, Bool.and_false, List.any_eq_false, Bool.false_eq_true, not_false_iff,
    implies_true]

/-- An instruction with no effect on registers or units but its sequencer's, or another's, event counters. -/
theorem afterIssue_setEv {s : State} {k j e v : Nat} {o : SlotOp} (eff : o.eff s s = s.modSeq j (fun x => x.setEv e v)) (ctl : o.ctl s = .seq)
    (noEnd : s.NoLoopEnd k) (small : s.pc k < 16384) :
    let t := s.afterIssue k o
    s.Issued t k (s.pc k + 1) ∧ IssueFrame (s.modSeq j (fun x => x.setEv e v)) t k ∧ (t.seq j).evc e = v ∧
      ∀ x, x ≠ e → (t.seq j).evc x = (s.seq j).evc x := by
  have loops : ((s.modSeq j (fun x => x.setEv e v)).seq k).loops = (s.seq k).loops := by
    rw [State.seq_modSeq]
    split
    · next own => rw [own]; rfl
    · rfl
  have past : ((s.modSeq j (fun x => x.setEv e v)).seq k).past = (s.seq k).past := by
    rw [State.seq_modSeq]
    split
    · next own => rw [own]; rfl
    · rfl
  have pc : (s.modSeq j (fun x => x.setEv e v)).pc k = s.pc k := by
    simp only [State.pc, State.modSeq_get, past]
  obtain ⟨issued, frame, seq⟩ := afterIssue_seq eff ctl loops pc noEnd small
  have events : ((s.afterIssue k o).seq j).ev = ((s.seq j).setEv e v).ev := by
    by_cases own : j = k
    · subst own
      rw [seq, State.seq_modSeq, if_pos rfl]
    · rw [frame.seqs j own, State.seq_modSeq, if_pos rfl]
  refine ⟨issued_of_same issued rfl, frame, ?_, fun x other => ?_⟩
  · simp only [Seq.evc, events, Seq.setEv, KMap.find_put, if_true]
  · simp only [Seq.evc, events, Seq.setEv, KMap.find_put, if_neg other]

/-! ## TRAP.RET (R222) -/

theorem places_inTrap (k n q : Nat) : (R.SEQ_STAT.in_trap n q).a ≠ (R.SEQ_STAT.pc n q).a ∧ (R.SEQ_STAT.in_trap n q).a ≠ (R.SEQ_PC.pc n q).a ∧
    (R.SEQ_STAT.in_trap n q).a ≠ (R.SEQ_CNT.issued n q).a ∧ (R.SEQ_STAT.in_trap n q).a ≠ (R.SEQ_STAT.wait n q).a ∧
    (R.SEQ_STAT.in_trap n q).a ≠ (R.VER_HDR.gate_hold k).a ∧ (R.SEQ_STAT.in_trap n q).a ≠ (R.SEQ_STAT.state n q).a := by
  simp only [R.SEQ_STAT.in_trap, R.SEQ_STAT.pc, R.SEQ_PC.pc, R.SEQ_CNT.issued, R.SEQ_STAT.wait, R.VER_HDR.gate_hold, R.SEQ_STAT.state]
  omega

theorem afterIssue_trapRet {s : State} {c : SlotCtl} {mode : Bool} (alone : s.Alone c) (resume : (s.seq (seqKey c)).epc < 16384) :
    let t := s.afterIssue (seqKey c) (opTrapRet (seqKey c) mode)
    t.get (R.SEQ_STAT.in_trap c.die.val c.q.val) = 0 ∧ s.Issued t (seqKey c) ((s.seq (seqKey c)).epc + b2n mode) ∧
      t.seqState (seqKey c) = seqRUNNING ∧ SameMem s t ∧ SameSeqsBut s t (seqKey c) ∧
      ∃ b, t.seq (seqKey c) = { s.seq (seqKey c) with past := b } := by
  have bit := b2n_lt mode
  have die := seqKey_div c
  have q := seqKey_mod c
  obtain ⟨p1, p2, p3, p4, p5, p6⟩ := places_inTrap (seqKey c) (seqKey c / 4) (seqKey c % 4)
  obtain ⟨t, same, issued, frame, seq⟩ := counted_setPc (s.put (R.SEQ_STAT.in_trap (seqKey c / 4) (seqKey c % 4)) 0) (seqKey c)
    ((s.seq (seqKey c)).epc + b2n mode) (by omega)
  have after : s.afterIssue (seqKey c) (opTrapRet (seqKey c) mode) = t := by
    rw [← same]
    rfl
  obtain ⟨-, -, -, q1, q2, q3, q4, q5⟩ := places_setSeqState (seqKey c) (seqKey c / 4) (seqKey c % 4) 0 0 (by decide) (by decide)
  dsimp only
  rw [after]
  refine ⟨?_, issued_of_same issued (State.get_put_other _ _ _ _ p3.symm), ?_, ?_, fun j other => ?_, _, seq⟩
  · rw [← die, ← q, frame.regs _ p1 p2 p3 p4 p5, State.get_put_same, Nat.zero_mod]
  · rw [State.seqState, frame.regs _ q2 q5 q1 q3 q4, State.get_put_other _ _ _ _ p6.symm]
    exact alone.running
  · exact frame.sameMem
  · exact frame.seqs j other

/-! ## The watch set and the waits that end at once (R216, R218, R233) -/

theorem watchFirst_eq_some {s : State} {k n : Nat} (inSet : n < 8) (holds : s.watchHolds k ((s.seq k).watchAt n) = true)
    (first : ∀ m, m < n → s.watchHolds k ((s.seq k).watchAt m) = false) : s.watchFirst k = some n := by
  refine List.find?_range_eq_some.2 ⟨holds, List.mem_range.2 inSet, fun m lt => ?_⟩
  rw [first m lt]
  rfl

theorem watchAt_put (x : Seq) (i j : Nat) (w : Watch) :
    Seq.watchAt { x with watch := KMap.put (fun _ => Watch.off) x.watch i w } j = if j = i then w else x.watchAt j :=
  KMap.find_put _ _ _ _ _

theorem watchOf_kind (kind : BitVec 2) (f e : Nat) : watchOf kind.toNat f e = (if kind = 0 then .off else if kind = 1 then .record f
    else if kind = 2 then .credit f else .event e) := by
  have cases : kind = 0 ∨ kind = 1 ∨ kind = 2 ∨ kind = 3 := plogOp kind
  rcases cases with rfl | rfl | rfl | rfl <;> rfl

/-- An instruction without an effect. -/
theorem afterIssue_none {s : State} {k : Nat} {o : SlotOp} (eff : o.eff s s = s) (ctl : o.ctl s = .seq) (noEnd : s.NoLoopEnd k)
    (small : s.pc k < 16384) : s.Issued (s.afterIssue k o) k (s.pc k + 1) ∧ IssueFrame s (s.afterIssue k o) k :=
  have facts := afterIssue_seq eff ctl rfl rfl noEnd small
  ⟨facts.1, facts.2.1⟩

theorem exec_halt {s : State} {c : SlotCtl} (alone : s.Alone c) (slot : c.slot = 0) (noEnd : s.NoLoopEnd (seqKey c)) :
    ∃ t, exec (.halt c) s = .next t ∧ t.seqState (seqKey c) = seqHALTED ∧ s.Issued t (seqKey c) (s.pc (seqKey c) + 1) ∧ SameMem s t ∧
      SameSeqsBut s t (seqKey c) ∧ ∃ b, t.seq (seqKey c) = { s.seq (seqKey c) with past := b } := by
  have small := pc_lt alone
  have slot0 : [0].contains c.slot.val = true := by rw [slot]; rfl
  have issues : Issues s c (.halt c) opHalt := ⟨alone, rfl, rfl, slot0, noPending_of_none rfl rfl rfl, rfl, rfl, rfl, rfl, by simp [opHalt]⟩
  exact ⟨_, exec_issues issues, afterIssue_halt rfl rfl noEnd small (seqKey_lt c)⟩

theorem exec_trapRet {s : State} {c : SlotCtl} {mode : Bool} (inTrap : s.get (R.SEQ_STAT.in_trap c.die.val c.q.val) = 1) (resume : (s.seq (seqKey c)).epc < 16384) (alone : s.Alone c) (slot : c.slot = 0) :
    ∃ t, exec (.trapRet c mode) s = .next t ∧ t.get (R.SEQ_STAT.in_trap c.die.val c.q.val) = 0 ∧
      s.Issued t (seqKey c) ((s.seq (seqKey c)).epc + b2n mode) ∧ t.seqState (seqKey c) = seqRUNNING ∧ SameMem s t ∧
      SameSeqsBut s t (seqKey c) ∧ ∃ b, t.seq (seqKey c) = { s.seq (seqKey c) with past := b } := by
  have slot0 : [0].contains c.slot.val = true := by rw [slot]; rfl
  have chk : (opTrapRet (seqKey c) mode).chk s = none := by
    simp only [opTrapRet, State.flag, seqKey_div, seqKey_mod, inTrap, decide_true, if_true]
  have issues : Issues s c (.trapRet c mode) _ := ⟨alone, rfl, rfl, slot0, noPending_of_none rfl rfl rfl, chk, rfl, rfl, rfl, by simp [opTrapRet]⟩
  exact ⟨_, exec_issues issues, afterIssue_trapRet alone resume⟩

theorem exec_trapRet_outside {s : State} {c : SlotCtl} {mode : Bool} (outside : s.get (R.SEQ_STAT.in_trap c.die.val c.q.val) = 0) (alone : s.Alone c) (slot : c.slot = 0) :
    exec (.trapRet c mode) s = .next (s.takeExc (seqKey c) 0 (exc E.SEQ_OPERAND (encSlot (.trapRet c mode)))) := by
  have slot0 : [0].contains c.slot.val = true := by rw [slot]; rfl
  have chk : (opTrapRet (seqKey c) mode).chk s = some (exc E.SEQ_OPERAND 0) := by
    simp only [opTrapRet, State.flag, seqKey_div, seqKey_mod, outside]
    rfl
  rw [exec_raises alone rfl rfl slot0 (noPending_of_none rfl rfl rfl) chk rfl rfl
    (by decide : E.SEQ_OPERAND ≠ E.CFG_COMMIT), slot]
  rfl

theorem exec_evtSig {s : State} {c : SlotCtl} {tq : BitVec 2} {e : BitVec 3} {n : BitVec 16} (room : (s.seq (4 * c.die.val + tq.toNat)).evc e.toNat + n.toNat ≤ 65535) (alone : s.Alone c) (slot : c.slot = 0) (noEnd : s.NoLoopEnd (seqKey c)) :
    ∃ t, exec (.evtSig c tq e n) s = .next t ∧
      (t.seq (4 * c.die.val + tq.toNat)).evc e.toNat = (s.seq (4 * c.die.val + tq.toNat)).evc e.toNat + n.toNat ∧
      (∀ x, x ≠ e.toNat → (t.seq (4 * c.die.val + tq.toNat)).evc x = (s.seq (4 * c.die.val + tq.toNat)).evc x) ∧
      s.Issued t (seqKey c) (s.pc (seqKey c) + 1) ∧ SameMem s t ∧ ∀ i, i ≠ 4 * c.die.val + tq.toNat → i ≠ seqKey c → t.seq i = s.seq i := by
  have small := pc_lt alone
  have slot0 : [0].contains c.slot.val = true := by rw [slot]; rfl
  have key : seqKey c / 4 * 4 + tq.toNat = 4 * c.die.val + tq.toNat := by rw [seqKey_div, mul_comm]
  have chk : (opEvtSig (seqKey c) tq e n).chk s = none := by
    simp only [opEvtSig, key]
    exact if_neg (not_lt.2 room)
  have issues : Issues s c (.evtSig c tq e n) _ :=
    ⟨alone, rfl, rfl, slot0, noPending_of_none rfl rfl rfl, chk, rfl, rfl, rfl, by simp [opEvtSig]⟩
  have eff : (opEvtSig (seqKey c) tq e n).eff s s = s.modSeq (4 * c.die.val + tq.toNat)
      (fun x => x.setEv e.toNat ((s.seq (4 * c.die.val + tq.toNat)).evc e.toNat + n.toNat)) := by
    simp only [opEvtSig, key]
    rfl
  obtain ⟨issued, frame, same, others⟩ := afterIssue_setEv eff rfl noEnd small
  refine ⟨_, exec_issues issues, same, others, issued, frame.sameMem, fun i other own => ?_⟩
  rw [frame.seqs i own, State.seq_modSeq, if_neg other]

theorem exec_evtSig_full {s : State} {c : SlotCtl} {tq : BitVec 2} {e : BitVec 3} {n : BitVec 16} (full : 65535 < (s.seq (4 * c.die.val + tq.toNat)).evc e.toNat + n.toNat) (alone : s.Alone c) (slot : c.slot = 0) :
    exec (.evtSig c tq e n) s = .next (s.takeExc (seqKey c) 0 (exc E.SEQ_EVT (tq.toNat * 256 + e.toNat))) := by
  have slot0 : [0].contains c.slot.val = true := by rw [slot]; rfl
  have key : seqKey c / 4 * 4 + tq.toNat = 4 * c.die.val + tq.toNat := by rw [seqKey_div, mul_comm]
  have chk : (opEvtSig (seqKey c) tq e n).chk s = some (exc E.SEQ_EVT (tq.toNat * 256 + e.toNat)) := by
    simp only [opEvtSig, key]
    exact if_pos full
  rw [exec_raises alone rfl rfl slot0 (noPending_of_none rfl rfl rfl) chk rfl rfl
    (by decide : E.SEQ_EVT ≠ E.CFG_COMMIT), slot]
  rfl

theorem exec_evtWait {s : State} {c : SlotCtl} {e : BitVec 3} {n : BitVec 16} (enough : n.toNat ≤ (s.seq (seqKey c)).evc e.toNat) (alone : s.Alone c) (slot : c.slot = 0) (noEnd : s.NoLoopEnd (seqKey c)) :
    ∃ t, exec (.evtWait c e n) s = .next t ∧ (t.seq (seqKey c)).evc e.toNat = (s.seq (seqKey c)).evc e.toNat - n.toNat ∧
      (∀ x, x ≠ e.toNat → (t.seq (seqKey c)).evc x = (s.seq (seqKey c)).evc x) ∧ s.Issued t (seqKey c) (s.pc (seqKey c) + 1) ∧
      IssueFrame s t (seqKey c) := by
  have small := pc_lt alone
  have slot0 : [0].contains c.slot.val = true := by rw [slot]; rfl
  have issues : Issues s c (.evtWait c e n) (opEvtWait (seqKey c) e n) :=
    ⟨alone, rfl, rfl, slot0, noPending_of_none rfl rfl rfl, rfl, if_neg (not_lt.2 enough), rfl, rfl, by simp [opEvtWait]⟩
  obtain ⟨issued, frame, seq⟩ := afterIssue_modSeq (s := s) (k := seqKey c) (o := opEvtWait (seqKey c) e n)
    (g := fun x => x.setEv e.toNat ((s.seq (seqKey c)).evc e.toNat - n.toNat)) rfl rfl rfl rfl noEnd small
  refine ⟨_, exec_issues issues, ?_, fun x other => ?_, issued, frame⟩
  · rw [seq]
    exact (KMap.find_put _ _ _ _ _).trans (if_pos rfl)
  · rw [seq]
    exact (KMap.find_put _ _ _ _ _).trans (if_neg other)

theorem exec_wchSet {s : State} {c : SlotCtl} {idx : BitVec 3} {kind : BitVec 2} {f : FlumeOp} {e : BitVec 3} (free : s.NoPending c (.wchSet c idx kind f e)) (record : kind = 1 → s.flmSeqCheck (seqKey c) (flumeNum s (seqKey c) f) false = none)
    (credit : kind = 2 → s.flmSeqCheck (seqKey c) (flumeNum s (seqKey c) f) true = none) (alone : s.Alone c) (slot : c.slot = 0) (noEnd : s.NoLoopEnd (seqKey c)) :
    ∃ t, exec (.wchSet c idx kind f e) s = .next t ∧ IssueFrame s t (seqKey c) ∧ s.Issued t (seqKey c) (s.pc (seqKey c) + 1) ∧
      (∀ j, j ≠ idx.toNat → (t.seq (seqKey c)).watchAt j = (s.seq (seqKey c)).watchAt j) ∧
      (t.seq (seqKey c)).watchAt idx.toNat = (if kind = 0 then .off else if kind = 1 then .record (flumeNum s (seqKey c) f)
        else if kind = 2 then .credit (flumeNum s (seqKey c) f) else .event e.toNat) := by
  have small := pc_lt alone
  have slot0 : [0].contains c.slot.val = true := by rw [slot]; rfl
  have chk : (opWchSet (seqKey c) idx kind f e).chk s = none := by
    simp only [opWchSet]
    split
    · next one => exact record one
    · split
      · next two => exact credit two
      · rfl
  have issues : Issues s c (.wchSet c idx kind f e) _ := ⟨alone, rfl, rfl, slot0, free, chk, rfl, rfl, rfl, by simp [opWchSet]⟩
  obtain ⟨issued, frame, seq⟩ := afterIssue_modSeq (s := s) (k := seqKey c) (o := opWchSet (seqKey c) idx kind f e)
    (g := fun x => { x with
      watch := KMap.put (fun _ => Watch.off) x.watch idx.toNat (watchOf kind.toNat (flumeNum s (seqKey c) f) e.toNat) }) rfl rfl rfl rfl noEnd small
  have watch : ∀ j, (((s.afterIssue (seqKey c) (opWchSet (seqKey c) idx kind f e)).seq (seqKey c)).watchAt j) =
      if j = idx.toNat then watchOf kind.toNat (flumeNum s (seqKey c) f) e.toNat else (s.seq (seqKey c)).watchAt j := by
    intro j
    rw [seq, ← watchAt_put]
    rfl
  refine ⟨_, exec_issues issues, frame, issued, fun j other => ?_, ?_⟩
  · rw [watch, if_neg other]
  · rw [watch, if_pos rfl, watchOf_kind]

theorem exec_waitAny {s : State} {c : SlotCtl} {sd : BitVec 5} {n : Nat} (free : s.NoPending c (.waitAny c sd)) (inSet : n < 8) (holds : s.watchHolds (seqKey c) ((s.seq (seqKey c)).watchAt n) = true)
    (first : ∀ m, m < n → s.watchHolds (seqKey c) ((s.seq (seqKey c)).watchAt m) = false) (alone : s.Alone c) (slot : c.slot = 0) (noEnd : s.NoLoopEnd (seqKey c)) :
    ∃ t, exec (.waitAny c sd) s = .next t ∧ t.s (seqKey c) sd = (if sd = 0 then 0 else BitVec.ofNat 64 n) ∧ IssueFrame s t (seqKey c) ∧
      s.Issued t (seqKey c) (s.pc (seqKey c) + 1) := by
  have small := pc_lt alone
  have slot0 : [0].contains c.slot.val = true := by rw [slot]; rfl
  have found := watchFirst_eq_some inSet holds first
  have on : (List.range 8).all (fun i => decide ((s.seq (seqKey c)).watchAt i = Watch.off)) = false := by
    refine List.all_eq_false.2 ⟨n, List.mem_range.2 inSet, fun off => ?_⟩
    rw [of_decide_eq_true off] at holds
    exact absurd holds Bool.false_ne_true
  have chk : (opWaitAny (seqKey c) sd).chk s = none := by
    simp only [opWaitAny, on]
    rfl
  have wait : (opWaitAny (seqKey c) sd).wait s = 0 := by
    simp only [opWaitAny, found]
    rfl
  have issues : Issues s c (.waitAny c sd) _ := ⟨alone, rfl, rfl, slot0, free, chk, wait, rfl, rfl, by simp [opWaitAny]⟩
  have eff : (opWaitAny (seqKey c) sd).eff s s = s.wS (seqKey c) sd (BitVec.ofNat 64 n) := by
    simp only [opWaitAny, found]
    rfl
  obtain ⟨value, issued, frame, -⟩ := issued_wS eff rfl noEnd small
  exact ⟨_, exec_issues issues, value, frame, issued⟩

theorem exec_waitIdle {s : State} {c : SlotCtl} {a g p d : Bool} (arrays : a = true → s.arraysBusy (seqKey c) = false) (glaze : g = true → s.glazeBusy (seqKey c) = false)
    (sap : p = true → s.sapBusy (seqKey c) = false) (dma : d = true → (s.seq (seqKey c)).dma = []) (alone : s.Alone c) (slot : c.slot = 0) (noEnd : s.NoLoopEnd (seqKey c)) :
    ∃ t, exec (.waitIdle c a g p d) s = .next t ∧ IssueFrame s t (seqKey c) ∧ s.Issued t (seqKey c) (s.pc (seqKey c) + 1) := by
  have small := pc_lt alone
  have slot0 : [0].contains c.slot.val = true := by rw [slot]; rfl
  have wait : (opWaitIdle (seqKey c) a g p d).wait s = 0 := by
    have idle : ∀ {x y : Bool}, (x = true → y = false) → (x && y) = false := by decide
    have dma' : (d && !(s.seq (seqKey c)).dma.isEmpty) = false := idle fun on => by rw [dma on]; rfl
    simp only [opWaitIdle, idle arrays, idle glaze, idle sap, dma']
    rfl
  have issues : Issues s c (.waitIdle c a g p d) _ :=
    ⟨alone, rfl, rfl, slot0, noPending_of_none rfl rfl rfl, rfl, wait, rfl, rfl, by simp [opWaitIdle]⟩
  obtain ⟨issued, frame⟩ := afterIssue_none (o := opWaitIdle (seqKey c) a g p d) rfl rfl noEnd small
  exact ⟨_, exec_issues issues, frame, issued⟩

/-- Settles O4: HALT and TRAP.RET by where control goes; the others by the one thing that each changes. -/
theorem haltReturnAndEvents : Obligations.HaltReturnAndEvents :=
  ⟨fun _ _ alone slot noEnd => ⟨exec_halt alone slot noEnd, fun _ inTrap resume => exec_trapRet inTrap resume alone slot,
      fun _ outside => exec_trapRet_outside outside alone slot⟩,
    fun _ _ alone slot noEnd => ⟨fun _ _ _ room => exec_evtSig room alone slot noEnd, fun _ _ _ full => exec_evtSig_full full alone slot,
      fun _ _ enough => exec_evtWait enough alone slot noEnd, fun _ _ _ _ free record credit => exec_wchSet free record credit alone slot noEnd,
      fun _ _ free inSet holds first => exec_waitAny free inSet holds first alone slot noEnd,
      fun _ _ _ _ arrays glaze sap dma => exec_waitIdle arrays glaze sap dma alone slot noEnd⟩⟩

end Sys2Proof.Machine

namespace Sys2Proof.Machine

-- One proof at a time: threads that wait for each other hold memory.
set_option Elab.async false

/-! ## Rules of the shared operations: vectors and the error log (R447, R537) -/

/-- What is left of a state beside its registers, its error log, and what leaves the block. -/
def State.unlogged (s : State) : State := { s with regs := [], log := [], out := [], pba := [] }

@[simp] theorem put_unlogged (s : State) (f : Fld) (v : Nat) : (s.put f v).unlogged = s.unlogged := rfl

@[simp] theorem count_unlogged (s : State) (f : Fld) (n : Nat) : (s.count f n).unlogged = s.unlogged := rfl

@[simp] theorem emit_unlogged (s : State) (o : Out) : (s.emit o).unlogged = s.unlogged := rfl

@[simp] theorem withLog_unlogged (s : State) (l : List LogEntry) : ({ s with log := l } : State).unlogged = s.unlogged := rfl

@[simp] theorem withPba_unlogged (s : State) (m : KMap Bool) : ({ s with pba := m } : State).unlogged = s.unlogged := rfl

@[simp] theorem ite_unlogged (s t : State) (p : Prop) [Decidable p] : (if p then s else t).unlogged = if p then s.unlogged else t.unlogged := by
  split <;> rfl

@[simp] theorem puts_unlogged (s : State) (l : List (Fld × Nat)) : (s.puts l).unlogged = s.unlogged := by
  unfold State.puts
  induction l generalizing s with
  | nil => rfl
  | cons p l ih => rw [List.foldl_cons, ih, put_unlogged]

@[simp] theorem vector_unlogged (s : State) (c v : Nat) : (s.vector c v).unlogged = s.unlogged := by
  simp [State.vector]

@[simp] theorem ctxEvent_unlogged (s : State) (c b : Nat) : (s.ctxEvent c b).unlogged = s.unlogged := by
  simp [State.ctxEvent]

@[simp] theorem logAs_unlogged (s : State) (code cls : Nat) (ctx : Option Nat) (w : Where) (detail : Nat) :
    (s.logAs code cls ctx w detail).unlogged = s.unlogged := by
  unfold State.logAs
  cases alertOf code <;> simp

@[simp] theorem raise_unlogged (s : State) (code : Nat) (ctx : Option Nat) (w : Where) (detail : Nat) :
    (s.raise code ctx w detail).unlogged = s.unlogged := logAs_unlogged ..

@[simp] theorem cfgRange_unlogged (s : State) (ctx : Option Nat) (detail : Nat) : (s.cfgRange ctx detail).unlogged = s.unlogged :=
  raise_unlogged ..

/-- States that agree in what `unlogged` leaves agree in each other field. -/
theorem rest_of_unlogged {s t : State} (same : t.unlogged = s.unlogged) :
    { t with regs := s.regs, log := s.log, out := s.out, pba := s.pba } = s :=
  (congrArg (fun u : State => { u with regs := s.regs, log := s.log, out := s.out, pba := s.pba }) same :)

theorem vector_regs (s : State) (c v : Nat) : (s.vector c v).regs = s.regs := by
  unfold State.vector
  split
  · rfl
  · split <;> rfl

theorem vector_log (s : State) (c v : Nat) : (s.vector c v).log = s.log := by
  unfold State.vector
  split
  · rfl
  · split <;> rfl

theorem get_congr {s t : State} (regs : t.regs = s.regs) (g : Fld) : t.get g = s.get g := by rw [State.get, regs, State.get]

@[simp] theorem vector_get (s : State) (c v : Nat) (g : Fld) : (s.vector c v).get g = s.get g := get_congr (vector_regs s c v) g

/-- The alert bits lie above the error log's registers. -/
theorem alertOf_place {code : Nat} {f : Fld} (alert : alertOf code = some f) : 8 * 0x3e30008 ≤ f.a := by
  unfold alertOf at alert
  split at alert
  · cases alert; decide
  · split at alert
    · cases alert; decide
    · split at alert
      · cases alert; decide
      · split at alert
        · cases alert; decide
        · split at alert
          · cases alert; decide
          · cases alert

/-- The entry that a logged error adds. -/
def State.newEntry (s : State) (code cls : Nat) (ctx : Option Nat) (w : Where) (detail : Nat) : LogEntry :=
  { seq := if s.get R.RAS_LOGHD.newest = 2 ^ 32 - 1 then 1 else s.get R.RAS_LOGHD.newest + 1, code := code, cls := cls, ctx := ctx
    tick := s.tick w.half, half := w.half, unit := w.unit, index := w.index, detail := detail }

/-- A logged error before its vector. -/
def State.noted (s : State) (code cls : Nat) (ctx : Option Nat) (w : Where) (detail : Nat) : State :=
  let e := s.newEntry code cls ctx w detail
  let u := if 4096 ≤ s.log.length then s.count R.RAS_LOGHD.lost 1 else s
  let u := (({ u with log := (e :: u.log).take 4096 } : State).put R.RAS_LOGHD.newest e.seq).put R.RAS_STAT.new 1
  match alertOf code with
  | some f => u.put f 1
  | none => u

theorem logAs_cases (s : State) (code cls : Nat) (ctx : Option Nat) (w : Where) (detail : Nat) :
    s.logAs code cls ctx w detail = s.noted code cls ctx w detail ∨
      ∃ v, s.logAs code cls ctx w detail = (s.noted code cls ctx w detail).vector 0 v := by
  by_cases vec : s.logAs code cls ctx w detail = s.noted code cls ctx w detail
  · exact .inl vec
  · refine .inr ⟨(s.noted code cls ctx w detail).get R.RAS_CTL.vec, (if_pos ?_).trans rfl⟩
    by_contra no
    exact vec ((if_neg no).trans rfl)

/-- A register field below those of the error log keeps its value when an error is logged. -/
theorem noted_get (s : State) {code cls : Nat} {ctx : Option Nat} {w : Where} {detail : Nat} {g : Fld} (low : g.a < 8 * 0x3e00000) :
    (s.noted code cls ctx w detail).get g = s.get g := by
  have newest : g.a ≠ R.RAS_LOGHD.newest.a := by simp only [R.RAS_LOGHD.newest]; omega
  have lost : g.a ≠ R.RAS_LOGHD.lost.a := by simp only [R.RAS_LOGHD.lost]; omega
  have new : g.a ≠ R.RAS_STAT.new.a := by simp only [R.RAS_STAT.new]; omega
  have full : (if 4096 ≤ s.log.length then s.count R.RAS_LOGHD.lost 1 else s).get g = s.get g := by
    split
    · exact State.get_count_other _ _ _ _ lost
    · rfl
  unfold State.noted
  dsimp only
  split
  · next f alert =>
    have place := alertOf_place alert
    rw [State.get_put_other _ _ _ _ (by omega), State.get_put_other _ _ _ _ new, State.get_put_other _ _ _ _ newest]
    exact full
  · rw [State.get_put_other _ _ _ _ new, State.get_put_other _ _ _ _ newest]
    exact full

theorem logAs_get (s : State) {code cls : Nat} {ctx : Option Nat} {w : Where} {detail : Nat} {g : Fld} (low : g.a < 8 * 0x3e00000) :
    (s.logAs code cls ctx w detail).get g = s.get g := by
  rcases logAs_cases s code cls ctx w detail with same | ⟨v, same⟩
  · rw [same, noted_get s low]
  · rw [same, vector_get, noted_get s low]

@[simp] theorem raise_get (s : State) {code : Nat} {ctx : Option Nat} {w : Where} {detail : Nat} {g : Fld} (low : g.a < 8 * 0x3e00000) :
    (s.raise code ctx w detail).get g = s.get g := logAs_get s low

/-- The entry that a logged error adds stands at the front of the log. -/
theorem logAs_log (s : State) (code cls : Nat) (ctx : Option Nat) (w : Where) (detail : Nat) :
    (s.logAs code cls ctx w detail).log = (s.newEntry code cls ctx w detail :: s.log).take 4096 := by
  have noted : (s.noted code cls ctx w detail).log = (s.newEntry code cls ctx w detail :: s.log).take 4096 := by
    unfold State.noted
    cases alertOf code <;> by_cases full : 4096 ≤ s.log.length <;> simp only [full, if_true, if_false] <;> rfl
  rcases logAs_cases s code cls ctx w detail with same | ⟨v, same⟩
  · rw [same, noted]
  · rw [same, vector_log, noted]

theorem raise_log_code (s : State) (code : Nat) (ctx : Option Nat) (w : Where) (detail : Nat) :
    (s.raise code ctx w detail).log.head?.map LogEntry.code = some code := by
  rw [State.raise, logAs_log, List.take_succ_cons, List.head?_cons, Option.map_some]
  rfl

end Sys2Proof.Machine

namespace Sys2Proof.Machine

-- One proof at a time: threads that wait for each other hold memory.
set_option Elab.async false

/-! ## Special registers and header fields (R198, R199, R250) -/

/-- An instruction of slot 3 that stands alone. -/
theorem slot3 {c : SlotCtl} (slot : c.slot = 3) : [3].contains c.slot.val = true := by
  rw [slot]
  rfl

theorem special_eq (s : State) (c : SlotCtl) (i : Nat) : s.special (seqKey c) i = (match i with
    | 0 => s.seqStage (seqKey c) | 1 => s.seqCtx (seqKey c) | 2 => seqKey c | 3 => (s.seq (seqKey c)).cycle
    | 4 => s.tick (halfOfDie c.die.val) | 5 => (s.seq (seqKey c)).epc | 6 => (s.seq (seqKey c)).ecode | 7 => (s.seq (seqKey c)).einfo
    | _ => (((s.seq (seqKey c)).loops.reverse[i - 8]?).map LoopLvl.count).getD 0) := by
  match i with
  | 0 | 1 | 2 | 3 | 5 | 6 | 7 => rfl
  | 4 => exact congrArg (fun n => s.tick (halfOfDie n)) (seqKey_div c)
  | n + 8 =>
    simp only [State.special, List.getD_eq_getElem?_getD, List.getElem?_map]

theorem b2n_bit (v i : Nat) : b2n (bit v i) = v / 2 ^ i % 2 := by
  have two := Nat.mod_two_eq_zero_or_one (v / 2 ^ i)
  rcases two with zero | one
  · rw [zero, bit, zero]; rfl
  · rw [one, bit, one]; rfl

/-- The selectors of program fields. -/
def programSels : List Nat := [1, 2, 3, 4, 5, 6, 7, 8, 10, 11]

theorem field_setField_same (h : Hdr) (v : Nat) {sel : Nat} : sel ∈ programSels → (h.setField sel v).field 0 0 sel = (match sel with
    | 1 => v % 16 + 16 * b2n h.redeliv
    | 2 => v % 4 | 3 => v % 4 | 5 => v % 2 ^ 48 | 6 => v % 2 ^ 16
    | 8 => v % 2 ^ 12 | 10 => v % 2 ^ 20 | _ => v % 2 ^ 32) := by
  intro program
  have flags : (h.setField 1 v).field 0 0 1 = v % 16 + 16 * b2n h.redeliv := by
    simp only [Hdr.setField, Hdr.field, Hdr.flags, b2n_bit]
    omega
  simp only [programSels, List.mem_cons, List.not_mem_nil, or_false] at program
  rcases program with rfl | rfl | rfl | rfl | rfl | rfl | rfl | rfl | rfl | rfl
  · exact flags
  all_goals rfl

theorem field_setField_other (h : Hdr) (v : Nat) {sel x : Nat} (program : sel ∈ programSels) (other : x ≠ sel) :
    (h.setField sel v).field 0 0 x = h.field 0 0 x := by
  simp only [programSels, List.mem_cons, List.not_mem_nil, or_false] at program
  rcases program with rfl | rfl | rfl | rfl | rfl | rfl | rfl | rfl | rfl | rfl <;> unfold Hdr.setField Hdr.field <;> split <;>
    simp_all [Hdr.flags]

theorem field_eq (h : Hdr) (ver flume sel : Nat) : h.field ver flume sel = (match sel with
    | 0 => ver
    | 1 => b2n h.last + 2 * b2n h.poison + 4 * b2n h.switchMk + 8 * b2n h.phaseMk + 16 * b2n h.redeliv
    | 2 => h.phase | 3 => h.slot | 4 => h.mb | 5 => h.step | 6 => h.group | 7 => h.gen | 8 => h.variant | 9 => h.prod
    | 10 => h.seqOff | 11 => h.len | 12 => h.rseq | _ => flume) := by
  match sel with
  | 0 | 1 | 2 | 3 | 4 | 5 | 6 | 7 | 8 | 9 | 10 | 11 | 12 => rfl
  | n + 13 => rfl

section
variable {s : State} {c : SlotCtl} (alone : s.Alone c) (slot : c.slot = 3)

include alone slot

theorem exec_movSr (noEnd : s.NoLoopEnd (seqKey c)) {rd : BitVec 5} {idx : BitVec 6} (free : s.NoPending c (.movSr c rd idx)) (small : idx.toNat < 12) :
    ∃ t, exec (.movSr c rd idx) s = .next t ∧ s.Issued t (seqKey c) (s.pc (seqKey c) + 1) ∧ IssueFrame s t (seqKey c) ∧
      t.s (seqKey c) rd = (if rd = 0 then 0 else BitVec.ofNat 64 (s.special (seqKey c) idx.toNat)) := by
  have issues : Issues s c (.movSr c rd idx) (opMovSr (seqKey c) rd idx) :=
    ⟨alone, rfl, rfl, slot3 slot, free, if_neg (not_le.2 small), rfl, rfl, rfl, by simp [opMovSr]⟩
  obtain ⟨value, issued, frame, -⟩ := issued_wS (s := s) (o := opMovSr (seqKey c) rd idx) rfl rfl noEnd (pc_lt alone)
  exact ⟨_, exec_issues issues, issued, frame, value⟩

theorem exec_movSr_reserved {rd : BitVec 5} {idx : BitVec 6} (free : s.NoPending c (.movSr c rd idx)) (reserved : 12 ≤ idx.toNat) :
    exec (.movSr c rd idx) s = .next (s.takeExc (seqKey c) 3 (exc E.SEQ_OPERAND (encSlot (.movSr c rd idx)))) := by
  rw [exec_raises alone rfl rfl (slot3 slot) free (if_pos reserved) rfl rfl (by decide : E.SEQ_OPERAND ≠ E.CFG_COMMIT), slot]
  rfl

theorem exec_movHb (noEnd : s.NoLoopEnd (seqKey c)) {rd : BitVec 5} {sel : BitVec 6} (free : s.NoPending c (.movHb c rd sel)) (small : sel.toNat < 14) :
    ∃ t, exec (.movHb c rd sel) s = .next t ∧ s.Issued t (seqKey c) (s.pc (seqKey c) + 1) ∧ IssueFrame s t (seqKey c) ∧
      t.s (seqKey c) rd = (if rd = 0 then 0 else
        BitVec.ofNat 64 ((s.seq (seqKey c)).hb.field (s.seq (seqKey c)).hbVer (s.seq (seqKey c)).hbFlume sel.toNat)) := by
  have issues : Issues s c (.movHb c rd sel) (opMovHb (seqKey c) rd sel) :=
    ⟨alone, rfl, rfl, slot3 slot, free, if_neg (not_le.2 small), rfl, rfl, rfl, by simp [opMovHb]⟩
  obtain ⟨value, issued, frame, -⟩ := issued_wS (s := s) (o := opMovHb (seqKey c) rd sel) rfl rfl noEnd (pc_lt alone)
  exact ⟨_, exec_issues issues, issued, frame, value⟩

theorem exec_movOb (noEnd : s.NoLoopEnd (seqKey c)) {sel : BitVec 6} {rs : BitVec 5} (free : s.NoPending c (.movOb c sel rs))
    (program : sel.toNat ∈ programSels) :
    ∃ t, exec (.movOb c sel rs) s = .next t ∧ s.Issued t (seqKey c) (s.pc (seqKey c) + 1) ∧ IssueFrame s t (seqKey c) ∧
      (t.seq (seqKey c)).hb = (s.seq (seqKey c)).hb ∧
      (t.seq (seqKey c)).ob = (s.seq (seqKey c)).ob.setField sel.toNat (s.s (seqKey c) rs).toNat := by
  have chk : (opMovOb (seqKey c) sel rs).chk s = none := if_pos (List.contains_iff_mem.2 program)
  have issues : Issues s c (.movOb c sel rs) _ := ⟨alone, rfl, rfl, slot3 slot, free, chk, rfl, rfl, rfl, by simp [opMovOb]⟩
  obtain ⟨issued, frame, seq⟩ := afterIssue_modSeq (s := s) (k := seqKey c) (o := opMovOb (seqKey c) sel rs)
    (g := fun x => { x with ob := x.ob.setField sel.toNat (s.s (seqKey c) rs).toNat }) rfl rfl rfl rfl noEnd (pc_lt alone)
  exact ⟨_, exec_issues issues, issued, frame, by rw [seq], by rw [seq]⟩

theorem exec_movOb_reserved {sel : BitVec 6} {rs : BitVec 5} (free : s.NoPending c (.movOb c sel rs)) (reserved : sel.toNat ∉ programSels) :
    exec (.movOb c sel rs) s = .next (s.takeExc (seqKey c) 3 (exc E.SEQ_OPERAND (encSlot (.movOb c sel rs)))) := by
  have chk : (opMovOb (seqKey c) sel rs).chk s = some (exc E.SEQ_OPERAND 0) := if_neg (fun has => reserved (List.contains_iff_mem.1 has))
  rw [exec_raises alone rfl rfl (slot3 slot) free chk rfl rfl (by decide : E.SEQ_OPERAND ≠ E.CFG_COMMIT), slot]
  rfl

theorem exec_hbCp (noEnd : s.NoLoopEnd (seqKey c)) :
    ∃ t, exec (.hbCp c) s = .next t ∧ s.Issued t (seqKey c) (s.pc (seqKey c) + 1) ∧ IssueFrame s t (seqKey c) ∧
      (t.seq (seqKey c)).hb = (s.seq (seqKey c)).hb ∧ (t.seq (seqKey c)).ob = { (s.seq (seqKey c)).hb with
        redeliv := (s.seq (seqKey c)).ob.redeliv, prod := (s.seq (seqKey c)).ob.prod, rseq := (s.seq (seqKey c)).ob.rseq } := by
  have issues : Issues s c (.hbCp c) (opHbCp (seqKey c)) :=
    ⟨alone, rfl, rfl, slot3 slot, noPending_of_none rfl rfl rfl, rfl, rfl, rfl, rfl, by simp [opHbCp]⟩
  obtain ⟨issued, frame, seq⟩ := afterIssue_modSeq (s := s) (k := seqKey c) (o := opHbCp (seqKey c))
    (g := fun x => { x with ob := { x.hb with redeliv := x.ob.redeliv, prod := x.ob.prod, rseq := x.ob.rseq } }) rfl rfl rfl rfl noEnd (pc_lt alone)
  exact ⟨_, exec_issues issues, issued, frame, by rw [seq], by rw [seq]⟩

theorem exec_obClr (noEnd : s.NoLoopEnd (seqKey c)) :
    ∃ t, exec (.obClr c) s = .next t ∧ s.Issued t (seqKey c) (s.pc (seqKey c) + 1) ∧ IssueFrame s t (seqKey c) ∧
      (t.seq (seqKey c)).hb = (s.seq (seqKey c)).hb ∧ (t.seq (seqKey c)).ob = Hdr.zero := by
  have issues : Issues s c (.obClr c) (opObClr (seqKey c)) :=
    ⟨alone, rfl, rfl, slot3 slot, noPending_of_none rfl rfl rfl, rfl, rfl, rfl, rfl, by simp [opObClr]⟩
  obtain ⟨issued, frame, seq⟩ := afterIssue_modSeq (s := s) (k := seqKey c) (o := opObClr (seqKey c))
    (g := fun x => { x with ob := Hdr.zero }) rfl rfl rfl rfl noEnd (pc_lt alone)
  exact ⟨_, exec_issues issues, issued, frame, by rw [seq], by rw [seq]⟩

end

/-! ## Schedule writes (R154, R252) -/

/-- An effect that leaves every sequencer, the program counter and the count of bundles. -/
theorem afterIssue_regs {s u : State} {k : Nat} {o : SlotOp} (eff : o.eff s s = u) (ctl : o.ctl s = .seq) (seqs : u.seqs = s.seqs)
    (pc : u.get (R.SEQ_STAT.pc (k / 4) (k % 4)) = s.get (R.SEQ_STAT.pc (k / 4) (k % 4)))
    (count : u.get (R.SEQ_CNT.issued (k / 4) (k % 4)) = s.get (R.SEQ_CNT.issued (k / 4) (k % 4))) (noEnd : s.NoLoopEnd k)
    (small : s.pc k < 16384) : s.Issued (s.afterIssue k o) k (s.pc k + 1) ∧ IssueFrame u (s.afterIssue k o) k := by
  have seq : u.seq k = s.seq k := by rw [State.seq, seqs, State.seq]
  obtain ⟨issued, frame, -⟩ := afterIssue_seq eff ctl (by rw [seq]) (pc_congr s u k pc seq) noEnd small
  exact ⟨issued_of_same issued count, frame⟩

/-- A schedule field's place in the registers of its die (R166). -/
def SchedPlace (g : Fld) (n : Nat) : Prop := 8 * (0x2005000 + 0x80000 * n) ≤ g.a ∧ g.a < 8 * (0x2008000 + 0x80000 * n)

theorem IssueFrame.sched {u t : State} {k n : Nat} {g : Fld} (frame : IssueFrame u t k) (place : SchedPlace g n) (die : n < 24) :
    t.get g = u.get g := by
  obtain ⟨lo, hi⟩ := place
  have q := Nat.mod_lt k (show 4 > 0 by decide)
  apply frame.regs <;> simp only [R.SEQ_STAT.pc, R.SEQ_PC.pc, R.SEQ_CNT.issued, R.SEQ_STAT.wait, R.VER_HDR.gate_hold] <;> omega

theorem put_sched_get (s : State) {f : Fld} {v n : Nat} (place : SchedPlace f n) (k : Nat) :
    (s.put f v).get (R.SEQ_STAT.pc (k / 4) (k % 4)) = s.get (R.SEQ_STAT.pc (k / 4) (k % 4)) ∧
      (s.put f v).get (R.SEQ_CNT.issued (k / 4) (k % 4)) = s.get (R.SEQ_CNT.issued (k / 4) (k % 4)) := by
  obtain ⟨lo, hi⟩ := place
  have q := Nat.mod_lt k (show 4 > 0 by decide)
  constructor <;> apply State.get_put_other <;> simp only [R.SEQ_STAT.pc, R.SEQ_CNT.issued] <;> omega

theorem puts_sched_get (s : State) {l : List (Fld × Nat)} {n : Nat} (places : ∀ p ∈ l, SchedPlace p.1 n) (k : Nat) :
    (s.puts l).get (R.SEQ_STAT.pc (k / 4) (k % 4)) = s.get (R.SEQ_STAT.pc (k / 4) (k % 4)) ∧
      (s.puts l).get (R.SEQ_CNT.issued (k / 4) (k % 4)) = s.get (R.SEQ_CNT.issued (k / 4) (k % 4)) := by
  induction l generalizing s with
  | nil => exact ⟨rfl, rfl⟩
  | cons p l ih =>
    obtain ⟨pc, count⟩ := ih (s.put p.1 p.2) fun q mem => places q (List.mem_cons_of_mem p mem)
    obtain ⟨pc', count'⟩ := put_sched_get s (v := p.2) (places p List.mem_cons_self) k
    exact ⟨pc.trans pc', count.trans count'⟩

theorem puts_seqs (s : State) (l : List (Fld × Nat)) : (s.puts l).seqs = s.seqs := (congrArg State.seqs (puts_unlogged s l) :)

theorem sameMem_of_unlogged {s t : State} (same : t.unlogged = s.unlogged) : SameMem s t :=
  sameMem_of_eq (congrArg State.mem same :) (congrArg State.bad same :) (congrArg State.plist same :) (congrArg State.linkErr same :)

theorem SameMem.trans {s t u : State} (first : SameMem s t) (second : SameMem t u) : SameMem s u :=
  ⟨fun a => (second.1 a).trans (first.1 a), second.2.1.trans first.2.1, second.2.2.1.trans first.2.2.1, second.2.2.2.trans first.2.2.2⟩

/-- What SCH.W puts, by its selector (R252). -/
def schedPuts (n q sel v idx : Nat) : List (Fld × Nat) :=
  match sel with
  | 0 => [(R.SCHED_BASE.base n q, v)]
  | 1 => [(R.SCHED_COUNT.count n q, v)]
  | 2 => [(R.SCHED_CTL.stride n q, bits v 24 8), (R.SCHED_CTL.last n q, bits v 16 8), (R.SCHED_CTL.mode n q, bits v 0 2), (R.SCHED_CTL.ptr n q, 0)]
  | 3 => [(R.SCHED_ROUND.round n q, v)]
  | 4 => [(R.SCHED_ENT.flume n q idx, bits v 16 13), (R.SCHED_ENT.offset n q idx, bits v 0 16)]
  | _ => []

theorem opSchW_eff {s : State} {k : Nat} {sel : BitVec 3} {rs : BitVec 5} {idx : BitVec 8} (opened : s.schedOpen k = true) :
    (opSchW k sel rs idx).eff s s = s.puts (schedPuts (k / 4) (k % 4) sel.toNat (s.s k rs).toNat idx.toNat) := by
  simp only [opSchW, opened, if_true]
  unfold schedPuts
  split <;> simp_all [State.puts]

theorem schedPuts_place {n q sel v idx : Nat} (seq : q < 4) (entry : idx < 256) : ∀ p ∈ schedPuts n q sel v idx, SchedPlace p.1 n := by
  unfold schedPuts SchedPlace
  split <;> simp only [List.mem_cons, List.not_mem_nil, or_false, forall_eq_or_imp, forall_eq, false_imp_iff, implies_true,
    R.SCHED_BASE.base, R.SCHED_COUNT.count, R.SCHED_CTL.stride, R.SCHED_CTL.last, R.SCHED_CTL.mode, R.SCHED_CTL.ptr, R.SCHED_ROUND.round,
    R.SCHED_ENT.flume, R.SCHED_ENT.offset] <;> omega

theorem puts_get_other (s : State) {l : List (Fld × Nat)} {g : Fld} (apart : ∀ p ∈ l, g.a ≠ p.1.a) : (s.puts l).get g = s.get g := by
  induction l generalizing s with
  | nil => rfl
  | cons p l ih =>
    exact (ih (s.put p.1 p.2) fun q mem => apart q (List.mem_cons_of_mem p mem)).trans
      (State.get_put_other s p.1 g p.2 (apart p List.mem_cons_self))

theorem puts_get_of_nodup (s : State) {l : List (Fld × Nat)} (apart : (l.map fun p => p.1.a).Nodup) {p : Fld × Nat} (mem : p ∈ l) :
    (s.puts l).get p.1 = p.2 % 2 ^ p.1.w := by
  induction l generalizing s with
  | nil => cases mem
  | cons r l ih =>
    obtain ⟨fresh, rest⟩ := List.nodup_cons.1 apart
    rcases List.mem_cons.1 mem with rfl | later
    · exact (puts_get_other (s.put p.1 p.2) fun q inList same => fresh (List.mem_map.2 ⟨q, inList, same.symm⟩)).trans (State.get_put_same s p.1 p.2)
    · exact ih (s.put r.1 r.2) rest later

theorem schedPuts_apart (n q sel v idx : Nat) : ((schedPuts n q sel v idx).map fun p => p.1.a).Nodup := by
  unfold schedPuts
  split <;> simp [R.SCHED_CTL.stride, R.SCHED_CTL.last, R.SCHED_CTL.mode, R.SCHED_CTL.ptr, R.SCHED_ENT.flume, R.SCHED_ENT.offset]

section
variable {s : State} {c : SlotCtl} (alone : s.Alone c) (slot : c.slot = 3) (noEnd : s.NoLoopEnd (seqKey c)) {sel : BitVec 3} {rs : BitVec 5}
  {idx : BitVec 8} (free : s.NoPending c (.schW c sel rs idx)) (known : sel.toNat < 5)

include alone slot noEnd free known

omit noEnd in
theorem issues_schW : Issues s c (.schW c sel rs idx) (opSchW (seqKey c) sel rs idx) :=
  ⟨alone, rfl, rfl, slot3 slot, free, if_neg (not_le.2 known), rfl, rfl, rfl, by simp [opSchW]⟩

theorem exec_schW_open (opened : s.schedOpen (seqKey c) = true) :
    ∃ t, exec (.schW c sel rs idx) s = .next t ∧ s.Issued t (seqKey c) (s.pc (seqKey c) + 1) ∧ SameMem s t ∧
      ∀ p ∈ schedPuts c.die.val c.q.val sel.toNat (s.s (seqKey c) rs).toNat idx.toNat, t.get p.1 = p.2 % 2 ^ p.1.w := by
  have eff := opSchW_eff (rs := rs) (idx := idx) (sel := sel) opened
  rw [seqKey_div, seqKey_mod] at eff
  have places := schedPuts_place (n := c.die.val) (sel := sel.toNat) (v := (s.s (seqKey c) rs).toNat) c.q.isLt idx.isLt
  obtain ⟨pc, count⟩ := puts_sched_get s places (seqKey c)
  obtain ⟨issued, frame⟩ := afterIssue_regs eff rfl (puts_seqs s _) pc count noEnd (pc_lt alone)
  refine ⟨_, exec_issues (issues_schW alone slot free known), issued, (sameMem_of_unlogged (puts_unlogged s _)).trans frame.sameMem, ?_⟩
  intro p mem
  rw [frame.sched (places p mem) c.die.isLt, puts_get_of_nodup s (schedPuts_apart ..) mem]

theorem exec_schW_closed (closed : s.schedOpen (seqKey c) = false) :
    ∃ t, exec (.schW c sel rs idx) s = .next t ∧ s.Issued t (seqKey c) (s.pc (seqKey c) + 1) ∧ SameMem s t ∧
      (∀ g : Fld, SchedPlace g c.die.val → t.get g = s.get g) ∧ t.log.head?.map LogEntry.code = some E.CFG_RANGE := by
  have eff : (opSchW (seqKey c) sel rs idx).eff s s = s.raise E.CFG_RANGE (some (s.seqCtx (seqKey c))) (atDie (seqKey c / 4)) sel.toNat := by
    simp [opSchW, closed]
  have same := raise_unlogged s E.CFG_RANGE (some (s.seqCtx (seqKey c))) (atDie (seqKey c / 4)) sel.toNat
  have key := seqKey_lt c
  obtain ⟨issued, frame⟩ := afterIssue_regs eff rfl (congrArg State.seqs same :)
    (raise_get s (by simp only [R.SEQ_STAT.pc]; omega)) (raise_get s (by simp only [R.SEQ_CNT.issued]; omega)) noEnd (pc_lt alone)
  refine ⟨_, exec_issues (issues_schW alone slot free known), issued, (sameMem_of_unlogged same).trans frame.sameMem, fun g place => ?_, ?_⟩
  · rw [frame.sched place c.die.isLt, raise_get s]
    have := place.2
    omega
  · rw [(congrArg State.log frame.rest :), raise_log_code]

end

theorem schedOpen_running {s : State} {c : SlotCtl} (running : s.seqState (seqKey c) = seqRUNNING) : s.schedOpen (seqKey c) =
    (decide (s.get (R.SCHED_CTL.mode c.die.val c.q.val) = 0) || (s.seq (seqKey c)).stepEnded || (s.seq (seqKey c)).loadedNoNext) := by
  simp only [State.schedOpen, running, seqKey_div, seqKey_mod]
  rfl

/-- Settles O5. -/
theorem movesAndScheduleWrites : Obligations.MovesAndScheduleWrites := by
  refine ⟨fun s c alone slot noEnd => ⟨fun rd idx free small => ?_, fun rd idx free reserved => exec_movSr_reserved alone slot free reserved,
    fun rd sel free small => ?_, fun sel rs free => ?_, exec_hbCp alone slot noEnd, exec_obClr alone slot noEnd⟩,
    fun s c sel rs idx alone slot noEnd free known => ⟨fun opened => ?_, fun mode stepEnded loaded => ?_⟩⟩
  · obtain ⟨t, run, issued, frame, value⟩ := exec_movSr alone slot noEnd free small
    exact ⟨t, run, issued, frame, value.trans (congrArg (fun n => if rd = 0 then 0 else BitVec.ofNat 64 n) (special_eq s c idx.toNat))⟩
  · obtain ⟨t, run, issued, frame, value⟩ := exec_movHb alone slot noEnd free small
    exact ⟨t, run, issued, frame, value.trans (congrArg (fun n => if rd = 0 then 0 else BitVec.ofNat 64 n) (field_eq ..))⟩
  · by_cases program : sel.toNat ∈ programSels
    · obtain ⟨t, run, issued, frame, hb, ob⟩ := exec_movOb alone slot noEnd free program
      refine ⟨t, run, (if_pos program).mpr ⟨issued, frame, hb, ?_, fun x other => ?_⟩⟩
      · rw [ob]
        exact field_setField_same _ _ program
      · rw [ob]
        exact field_setField_other _ _ program other
    · exact ⟨_, exec_movOb_reserved alone slot free program, (if_neg program).mpr rfl⟩
  · have isOpen : s.schedOpen (seqKey c) = true := by
      rw [schedOpen_running alone.running]
      rcases opened with mode | ended | loaded <;> simp [*]
    obtain ⟨t, run, issued, mem, value⟩ := exec_schW_open alone slot noEnd free known isOpen
    refine ⟨t, run, issued, mem, ?_, ?_, ?_, ?_, ?_⟩
    all_goals
      rintro rfl
      simpa [schedPuts, bits, forall_eq_or_imp, R.SCHED_BASE.base, R.SCHED_COUNT.count, R.SCHED_ROUND.round, R.SCHED_CTL.stride, R.SCHED_CTL.last,
        R.SCHED_CTL.mode, R.SCHED_CTL.ptr, R.SCHED_ENT.flume, R.SCHED_ENT.offset] using value
  · have closed : s.schedOpen (seqKey c) = false := by
      rw [schedOpen_running alone.running, stepEnded, loaded, decide_eq_false mode]
      rfl
    obtain ⟨t, run, issued, mem, same, log⟩ := exec_schW_closed alone slot noEnd free known closed
    have q := c.q.isLt
    exact ⟨t, run, issued, mem, same _ (by simp only [SchedPlace, R.SCHED_BASE.base]; omega),
      same _ (by simp only [SchedPlace, R.SCHED_CTL.mode]; omega), same _ (by simp only [SchedPlace, R.SCHED_ROUND.round]; omega), log⟩

end Sys2Proof.Machine

namespace Sys2Proof.Machine

-- One proof at a time: threads that wait for each other hold memory.
set_option Elab.async false

/-! ## Concrete states for counterexamples -/

/-- The device is up: DEVICE_READY, the PF's context ACTIVE with one window over all addresses, every power domain on. -/
def stateUp : State :=
  { State.reset.puts [(R.HOST_STAT.ready, 1), (R.CTX_STATE.state 0, 1), (R.MEM_WIN.en 0 0, 1), (R.MEM_WIN.r 0 0, 1), (R.MEM_WIN.w 0 0, 1),
      (R.MEM_WIN.size 0 0, 2 ^ 36 - 1), (R.PWR_PD.on 0, 2 ^ 64 - 1), (R.PWR_PD.on 1, 2 ^ 40 - 1)] with boot := 4, linkUp := true, fns := [(0, ⟨true, true, false, false⟩)] }

/-- Sequencer 0 runs bundle 4 of 16. -/
def stateRun : State :=
  { stateUp.puts [(R.SEQ_STAT.state 0 0, 3), (R.SEQ_STAT.pc 0 0, 4)] with seqs := [(0, { Seq.empty with nbundles := 16 })] }

/-- Slot `n` of sequencer Q0 of compute die 0, alone in its bundle. -/
def slotAt (n : Fin 4) : SlotCtl := { die := 0, q := 0, slot := n, pe := false, pidx := 0, psense := false, more := false }

/-- The conditions under which that slot is a bundle of its own that issues, as a Boolean. -/
def State.readyFor (s : State) (n : Fin 4) (i : Instr) : Bool :=
  decide (s.seqState 0 = seqRUNNING) && s.live && (s.seq 0).staged.isEmpty && (s.seq 0).held.isEmpty && !(s.seq 0).stepping
    && s.enabled 0 (slotAt n) && decide (s.pc 0 < s.nbundles 0 ∧ s.nbundles 0 ≤ 16384) && (s.seq 0).fetchErr.isNone
    && (s.seq 0).loops.isEmpty && (semOf i).all (fun o => !s.regWait 0 o)

theorem ready_facts {s : State} {n : Fin 4} {i : Instr} (ready : s.readyFor n i = true) :
    s.Alone (slotAt n) ∧ s.NoLoopEnd (seqKey (slotAt n)) ∧ s.NoPending (slotAt n) i := by
  simp only [State.readyFor, Bool.and_eq_true, decide_eq_true_eq, List.isEmpty_iff, Bool.not_eq_true', Option.isNone_iff_eq_none] at ready
  obtain ⟨⟨⟨⟨⟨⟨⟨⟨⟨running, live⟩, staged⟩, held⟩, noStep⟩, on⟩, inImage, image⟩, fetch⟩, loops⟩, free⟩ := ready
  refine ⟨⟨running, live, staged, held, noStep, rfl, on, inImage, image, fetch⟩, fun l mem => ?_, fun o sem => ?_⟩
  · have none : (s.seq 0).loops = [] := loops
    rw [show seqKey (slotAt n) = 0 from rfl, none] at mem
    exact absurd mem List.not_mem_nil
  · have done : s.regWait 0 o = false := by simpa [sem] using free
    exact done

/-- The state that a command ends in. -/
def stateAfter (i : Instr) (s : State) : State :=
  match exec i s with
  | .next t => t
  | _ => s

theorem stateAfter_of_next {i : Instr} {s t : State} (run : exec i s = .next t) : stateAfter i s = t := by rw [stateAfter, run]

end Sys2Proof.Machine

namespace Sys2Proof.Machine

-- The kernel runs the model here: one run at a time bounds the threads that wait for it.
set_option Elab.async false

/-! ## A store behind a quarantined load (R18, R339, R386, R389) -/

/-- A far-tier granule in a quarantined range, from which a load of sequencer 0 is still to return. -/
def quarantinedLoad : State :=
  { (stateRun.puts [(R.HAUL_QUAR.active 0, 1), (R.HAUL_QUAR.base 0, 0x0200_0000_1000)]).modSeq 0
      (fun x => { x with s := [(2, 0x12)], a := [(1, 0x0200_0000_1000)], loads := [⟨31, 0x0200_0000_1000, 8, true, none⟩] }) with
    quarLen := [(0, (64, 0))] }

/-- ST.TS of one byte to that granule. -/
def storeOneByte : Instr := .stTs (slotAt 3) 2 true 1 0 0

theorem quarantinedLoad_ready : quarantinedLoad.readyFor 3 storeOneByte = true := by decide +kernel

theorem quarantinedLoad_drops : (stateAfter storeOneByte quarantinedLoad).byte 0x0200_0000_1000 = 0 := by decide +kernel

/-- Refutes O6: the load that the store samples first finds the quarantined unit, which enters the poison list, and the store, which covers
the granule in part, is then dropped. -/
theorem not_loadsAndStores : ¬ Obligations.LoadsAndStores := by
  rintro ⟨-, stores⟩
  obtain ⟨alone, noEnd, free⟩ := ready_facts quarantinedLoad_ready
  obtain ⟨t, run, -, bytes, -⟩ := (stores quarantinedLoad (slotAt 3) 2 1 0 0 alone rfl noEnd).2 free (by decide) (by decide) (by decide +kernel)
    (by decide +kernel) (by decide +kernel)
  have stored := bytes 0 (by decide)
  rw [← stateAfter_of_next run] at stored
  exact absurd (quarantinedLoad_drops.symm.trans stored) (by decide +kernel)

end Sys2Proof.Machine

namespace Sys2Proof.Machine

-- The kernel runs the model here: one run at a time bounds the threads that wait for it.
set_option Elab.async false

/-! ## A DMA whose destination a pending load reads (R18, R251, R384) -/

/-- A load of sequencer 0 is still to read a word with a single-bit error. -/
def softLoad : State :=
  { stateRun.modSeq 0 (fun x => { x with s := [(2, 64)], a := [(1, 0x2000_1000)], loads := [⟨31, 0x2000_1000, 8, true, none⟩] }) with
    soft := [0x2000_1000] }

/-- A DMA of 64 bytes from the tile store to the granule of that word. -/
def dmaToGranule : Instr := .dma (slotAt 3) true false 1 0 2 false 0

theorem softLoad_ready : softLoad.readyFor 3 dmaToGranule = true := by decide +kernel

theorem softLoad_corrected : (stateAfter dmaToGranule softLoad).soft = [] := by decide +kernel

/-- Refutes O7: the DMA has the pending load read first (R18), which corrects the word and counts it, so that more than the queue of transfers
changes. -/
theorem not_dmaTransfers : ¬ Obligations.DmaTransfers := by
  rintro ⟨joins, -⟩
  obtain ⟨alone, noEnd, free⟩ := ready_facts softLoad_ready
  obtain ⟨t, run, -, frame, -⟩ := joins softLoad (slotAt 3) true false 1 0 2 false 0 alone rfl noEnd free (by decide) (by decide) (by decide +kernel)
    (by decide +kernel) (by decide +kernel) (by decide +kernel) (by decide +kernel) (by decide +kernel) (by decide +kernel)
    (fun _ mem => absurd mem List.not_mem_nil)
  have soft : t.soft = softLoad.soft := (congrArg State.soft frame.rest :)
  exact absurd (softLoad_corrected.symm.trans ((congrArg State.soft (stateAfter_of_next run)).trans soft)) (by decide)

end Sys2Proof.Machine

namespace Sys2Proof.Machine

-- One proof at a time: threads that wait for each other hold memory.
set_option Elab.async false

/-! ## Effects that leave memory and the other sequencers alone -/

/-- What an effect of sequencer `k` that is no branch leaves alone: memory, the other sequencers, its own loop levels and header fields, its
program counter and its count of bundles. -/
structure Calm (s u : State) (k : Nat) : Prop where
  mem   : SameMem s u
  seqs  : SameSeqsBut s u k
  loops : (u.seq k).loops = (s.seq k).loops
  past  : (u.seq k).past = (s.seq k).past
  pc    : u.get (R.SEQ_STAT.pc (k / 4) (k % 4)) = s.get (R.SEQ_STAT.pc (k / 4) (k % 4))
  count : u.get (R.SEQ_CNT.issued (k / 4) (k % 4)) = s.get (R.SEQ_CNT.issued (k / 4) (k % 4))

theorem SameMem.refl (s : State) : SameMem s s := ⟨fun _ => rfl, rfl, rfl, rfl⟩

theorem Calm.refl (s : State) (k : Nat) : Calm s s k := ⟨SameMem.refl s, fun _ _ => rfl, rfl, rfl, rfl, rfl⟩

theorem Calm.trans {s t u : State} {k : Nat} (first : Calm s t k) (second : Calm t u k) : Calm s u k :=
  ⟨first.mem.trans second.mem, fun j other => (second.seqs j other).trans (first.seqs j other), second.loops.trans first.loops,
    second.past.trans first.past, second.pc.trans first.pc, second.count.trans first.count⟩

/-- An effect that changes neither memory, the sequencers nor the two fields. -/
theorem calm_of_same {s u : State} {k : Nat} (mem : SameMem s u) (seqs : u.seqs = s.seqs)
    (pc : u.get (R.SEQ_STAT.pc (k / 4) (k % 4)) = s.get (R.SEQ_STAT.pc (k / 4) (k % 4)))
    (count : u.get (R.SEQ_CNT.issued (k / 4) (k % 4)) = s.get (R.SEQ_CNT.issued (k / 4) (k % 4))) : Calm s u k := by
  have same (j : Nat) : u.seq j = s.seq j := by rw [State.seq, seqs, State.seq]
  exact ⟨mem, fun j _ => same j, by rw [same], by rw [same], pc, count⟩

/-- The registers of the sequencers stand below those of the flumes and versions. -/
theorem seq_places {k : Nat} (key : k < 96) : 8 * 0x2008000 ≤ (R.SEQ_STAT.pc (k / 4) (k % 4)).a ∧ (R.SEQ_STAT.pc (k / 4) (k % 4)).a < 8 * 0x3000000 ∧
    8 * 0x2008000 ≤ (R.SEQ_CNT.issued (k / 4) (k % 4)).a ∧ (R.SEQ_CNT.issued (k / 4) (k % 4)).a < 8 * 0x3000000 := by
  simp only [R.SEQ_STAT.pc, R.SEQ_CNT.issued]
  omega

/-- A field outside the sequencers' registers may be put. -/
theorem calm_put (s : State) {k v : Nat} {f : Fld} (key : k < 96) (outside : f.a < 8 * 0x2000000 ∨ 8 * 0x3000000 ≤ f.a) : Calm s (s.put f v) k := by
  have places := seq_places key
  exact calm_of_same (sameMem_of_eq rfl rfl rfl rfl) rfl (State.get_put_other _ _ _ _ (by omega)) (State.get_put_other _ _ _ _ (by omega))

theorem calm_count (s : State) {k v : Nat} {f : Fld} (key : k < 96) (outside : f.a < 8 * 0x2000000 ∨ 8 * 0x3000000 ≤ f.a) :
    Calm s (s.count f v) k := calm_put s key outside

/-- The registers, the log and what leaves the block change, the sequencers' registers excepted. -/
theorem calm_of_unlogged {s u : State} {k : Nat} (same : u.unlogged = s.unlogged) (key : k < 96)
    (regs : ∀ g : Fld, 8 * 0x2000000 ≤ g.a → g.a < 8 * 0x3000000 → u.get g = s.get g) : Calm s u k := by
  obtain ⟨pc, pc', count, count'⟩ := seq_places key
  exact calm_of_same (sameMem_of_unlogged same) (congrArg State.seqs same :) (regs _ (by omega) pc') (regs _ (by omega) count')

theorem calm_raise (s : State) {k code : Nat} {ctx : Option Nat} {w : Where} {detail : Nat} (key : k < 96) : Calm s (s.raise code ctx w detail) k :=
  calm_of_unlogged (raise_unlogged ..) key fun g _ high => raise_get s (by omega)

/-- A change of the sequencer's own that spares its loop levels. -/
theorem calm_modSeq (s : State) {k : Nat} {g : Seq → Seq} (loops : (g (s.seq k)).loops = (s.seq k).loops) (past : (g (s.seq k)).past = (s.seq k).past) :
    Calm s (s.modSeq k g) k :=
  ⟨sameMem_of_eq rfl rfl rfl rfl, fun j other => (State.seq_modSeq ..).trans (if_neg other), by rw [State.seq_modSeq, if_pos rfl, loops],
    by rw [State.seq_modSeq, if_pos rfl, past], rfl, rfl⟩

theorem calm_wS (s : State) (k : Nat) (r : BitVec 5) (v : Word) : Calm s (s.wS k r v) k := by
  unfold State.wS
  exact calm_modSeq s (by unfold Seq.setS; split <;> rfl) (by unfold Seq.setS; split <;> rfl)

theorem calm_wA (s : State) (k : Nat) (r : BitVec 4) (v : Addr) : Calm s (s.wA k r v) k := calm_modSeq s rfl rfl

theorem calm_wP (s : State) (k : Nat) (r : BitVec 3) (v : Bool) : Calm s (s.wP k r v) k := by
  unfold State.wP
  exact calm_modSeq s (by unfold Seq.setP; split <;> rfl) (by unfold Seq.setP; split <;> rfl)

theorem calm_setFlume (s : State) (k f : Nat) (x : Flume) : Calm s (s.setFlume f x) k :=
  calm_of_same (sameMem_of_eq rfl rfl rfl rfl) rfl rfl rfl

theorem calm_flmSync (s : State) {k : Nat} (f : Nat) (key : k < 96) : Calm s (s.flmSync f) k :=
  calm_put s key (.inr (by simp only [R.FLM_STAT.above_hi]; omega))

theorem calm_setFlm (s : State) {k : Nat} (f : Nat) (x : Flume) (key : k < 96) : Calm s (s.setFlm f x) k :=
  (calm_setFlume s k f x).trans (calm_flmSync _ f key)

theorem calm_puts (s : State) {k : Nat} {l : List (Fld × Nat)} (key : k < 96)
    (outside : ∀ p ∈ l, p.1.a < 8 * 0x2000000 ∨ 8 * 0x3000000 ≤ p.1.a) : Calm s (s.puts l) k := by
  have places := seq_places key
  refine calm_of_same (sameMem_of_unlogged (puts_unlogged s l)) (puts_seqs s l) (puts_get_other s fun p mem => ?_) (puts_get_other s fun p mem => ?_)
  all_goals
    have := outside p mem
    omega

/-- The end of a bundle of one slot whose effect on `s` gives `u`. -/
structure Ended (s u t : State) (k : Nat) : Prop where
  issued : s.Issued t k (s.pc k + 1)
  mem    : SameMem s t
  seqs   : SameSeqsBut s t k
  frame  : IssueFrame u t k
  seq    : t.seq k = { u.seq k with past := decide (2 ^ 14 ≤ s.pc k + 1) }

theorem afterIssue_calm {s u : State} {k : Nat} {o : SlotOp} (eff : o.eff s s = u) (calm : Calm s u k) (ctl : o.ctl s = .seq) (noEnd : s.NoLoopEnd k)
    (small : s.pc k < 16384) : Ended s u (s.afterIssue k o) k := by
  have pc : u.pc k = s.pc k := by rw [State.pc, calm.pc, calm.past, State.pc]
  obtain ⟨issued, frame, seq⟩ := afterIssue_seq eff ctl calm.loops pc noEnd small
  exact ⟨issued_of_same issued calm.count, calm.mem.trans frame.sameMem, fun j other => (frame.seqs j other).trans (calm.seqs j other), frame, seq⟩

/-- An instruction that issues alone with a calm effect. -/
theorem exec_calm {s u : State} {c : SlotCtl} {i : Instr} {o : SlotOp} (issues : Issues s c i o) (eff : o.eff s s = u) (calm : Calm s u (seqKey c))
    (noEnd : s.NoLoopEnd (seqKey c)) (ctl : o.ctl s = .seq := by rfl) (op : ∀ c, i ≠ .nop c := by exact fun _ op => nomatch op) :
    ∃ t, exec i s = .next t ∧ Ended s u t (seqKey c) :=
  ⟨_, exec_issues issues op, afterIssue_calm eff calm ctl noEnd (pc_lt issues.alone)⟩

theorem IssueFrame.of_modSeq {s t : State} {k : Nat} {g : Seq → Seq} (frame : IssueFrame (s.modSeq k g) t k) : IssueFrame s t k :=
  ⟨frame.mem, fun j other => by rw [frame.seqs j other, State.seq_modSeq, if_neg other], frame.regs,
    (congrArg (fun u : State => { u with seqs := s.seqs }) frame.rest :)⟩

section
variable {s u t : State} {k : Nat} (ended : Ended s u t k)

include ended

theorem Ended.sreg (r : BitVec 5) : t.s k r = u.s k r := by rw [State.s, ended.seq]; rfl

theorem Ended.areg (r : Nat) : t.a k r = u.a k r := by rw [State.a, ended.seq]; rfl

theorem Ended.preg (r : BitVec 3) : t.p k r = u.p k r := by rw [State.p, ended.seq]; rfl

/-- What of the sequencer does not depend on where its program counter stands is as the effect leaves it. -/
theorem Ended.own {α : Type} (g : Seq → α) (blind : ∀ x b, g { x with past := b } = g x) : g (t.seq k) = g (u.seq k) := by rw [ended.seq, blind]

theorem Ended.flumes : t.flumes = u.flumes := (congrArg State.flumes ended.frame.rest :)

theorem Ended.flume (f : Nat) : t.flume f = u.flume f := by rw [State.flume, ended.flumes, State.flume]

theorem Ended.log : t.log = u.log := (congrArg State.log ended.frame.rest :)

/-- Fields outside the registers of the sequencers, the gate hold excepted, keep their value. -/
theorem Ended.get {g : Fld} (key : k < 96) (outside : g.a < 8 * 0x2000000 ∨ 8 * 0x3000000 ≤ g.a) (gate : g.a ≠ (R.VER_HDR.gate_hold k).a) :
    t.get g = u.get g := by
  apply ended.frame.regs _ _ _ _ _ gate <;> simp only [R.SEQ_STAT.pc, R.SEQ_PC.pc, R.SEQ_CNT.issued, R.SEQ_STAT.wait] <;> omega

/-- The fields of the flumes keep their value. -/
theorem Ended.get_flume {g : Fld} (key : k < 96) (low : 8 * 0x3000000 ≤ g.a) (high : g.a < 8 * 0x3800000) : t.get g = u.get g :=
  ended.get key (.inr low) (by simp only [R.VER_HDR.gate_hold]; omega)

end

end Sys2Proof.Machine

namespace Sys2Proof.Machine

-- One proof at a time: threads that wait for each other hold memory.
set_option Elab.async false

/-! ## Packets between landing dies (R17) -/

/-- What is left of a state beside its packets between landing dies and the flits that carry them. -/
def State.unrouted (s : State) : State := { s with pkts := [], pktNext := 0, spnTx := [], out := [] }

@[simp] theorem setSpnTx_unrouted (s : State) (k : Nat) (x : SpnTx) : (s.setSpnTx k x).unrouted = s.unrouted := rfl

@[simp] theorem emit_unrouted (s : State) (o : Out) : (s.emit o).unrouted = s.unrouted := rfl

@[simp] theorem withPkts_unrouted (s : State) (l : List Packet) : ({ s with pkts := l } : State).unrouted = s.unrouted := rfl

@[simp] theorem withPktNext_unrouted (s : State) (l : List Packet) (n : Nat) :
    ({ s with pkts := l, pktNext := n } : State).unrouted = s.unrouted := rfl

@[simp] theorem flit_unrouted (s : State) (i : Nat) (hi : Bool) (kind n : Nat) : (s.flit i hi kind n).unrouted = s.unrouted := by
  simp only [State.flit, emit_unrouted, setSpnTx_unrouted]

@[simp] theorem flits_unrouted (s : State) (kind n x : Nat) (links : List Nat) : (s.flits kind n x links).unrouted = s.unrouted := by
  unfold State.flits
  suffices same : ∀ p : State × Nat, (links.foldl (fun (p : State × Nat) i =>
      (p.1.flit i (decide (spnDie i true = p.2)) kind n, spnDie i !(decide (spnDie i true = p.2)))) p).1.unrouted = p.1.unrouted from same (s, x)
  induction links with
  | nil => exact fun _ => rfl
  | cons i links ih => exact fun p => (ih _).trans (flit_unrouted ..)

@[simp] theorem sendPkt_unrouted (s : State) (src use x y : Nat) : (s.sendPkt src use x y).unrouted = s.unrouted := by
  unfold State.sendPkt
  split
  · rfl
  · simp only [flits_unrouted, withPktNext_unrouted]

@[simp] theorem ackPkt_unrouted (s : State) (src use x y : Nat) : (s.ackPkt src use x y).unrouted = s.unrouted := by
  unfold State.ackPkt
  split
  · rfl
  · simp only [apply_ite State.unrouted, flits_unrouted, withPkts_unrouted, ite_self]

theorem sendPkt_seqs (s : State) (src use x y : Nat) : (s.sendPkt src use x y).seqs = s.seqs :=
  (congrArg State.seqs (sendPkt_unrouted s src use x y) :)

theorem calm_of_unrouted {s u : State} {k : Nat} (same : u.unrouted = s.unrouted) : Calm s u k :=
  calm_of_same (sameMem_of_eq (congrArg State.mem same :) (congrArg State.bad same :) (congrArg State.plist same :) (congrArg State.linkErr same :))
    (congrArg State.seqs same :) (get_congr (congrArg State.regs same :) _) (get_congr (congrArg State.regs same :) _)

theorem get_of_unrouted {s u : State} (same : u.unrouted = s.unrouted) (g : Fld) : u.get g = s.get g := get_congr (congrArg State.regs same :) g

theorem flumes_of_unrouted {s u : State} (same : u.unrouted = s.unrouted) : u.flumes = s.flumes := (congrArg State.flumes same :)

theorem seqs_of_unrouted {s u : State} (same : u.unrouted = s.unrouted) : u.seqs = s.seqs := (congrArg State.seqs same :)

theorem sameMem_of_unrouted {s u : State} (same : u.unrouted = s.unrouted) : SameMem s u := (calm_of_unrouted (k := 0) same).mem

/-! ## Records of a flume (R136, R143) -/

/-- What is left of a state beside its registers and flumes. -/
def State.unflumed (s : State) : State := { s with regs := [], flumes := [] }

@[simp] theorem put_unflumed (s : State) (f : Fld) (v : Nat) : (s.put f v).unflumed = s.unflumed := rfl

@[simp] theorem count_unflumed (s : State) (f : Fld) (n : Nat) : (s.count f n).unflumed = s.unflumed := rfl

@[simp] theorem setFlume_unflumed (s : State) (f : Nat) (x : Flume) : (s.setFlume f x).unflumed = s.unflumed := rfl

@[simp] theorem setFlm_unflumed (s : State) (f : Nat) (x : Flume) : (s.setFlm f x).unflumed = s.unflumed := rfl

theorem sameMem_of_unflumed {s u : State} (same : u.unflumed = s.unflumed) : SameMem s u :=
  sameMem_of_eq (congrArg State.mem same :) (congrArg State.bad same :) (congrArg State.plist same :) (congrArg State.linkErr same :)

theorem seqs_of_unflumed {s u : State} (same : u.unflumed = s.unflumed) : u.seqs = s.seqs := (congrArg State.seqs same :)

theorem setFlm_flume (s : State) (f g : Nat) (x : Flume) : (s.setFlm f x).flume g = if g = f then x else s.flume g :=
  State.flume_setFlume s f g x

theorem setFlm_get (s : State) {f : Nat} {g : Fld} (x : Flume) (other : g.a ≠ (R.FLM_STAT.above_hi f).a) : (s.setFlm f x).get g = s.get g :=
  State.get_put_other _ _ _ _ other

theorem reserve_eq {s : State} {k f i : Nat} {sp : Bool} (free : s.freeSlot f = some (sp, i)) :
    s.reserve k f = (s.setFlm f { s.flume f with
      recs := (s.flume f).recs ++ [{ hdr := Hdr.zero, owner := k, holder := 0, sent := false, cmt := false, ready := false,
                                     held := false, spill := sp, slot := i, bad := false, pin := none }]
      out := (s.flume f).out + 1
      copy := (s.flume f).copyAfter (sp, i) }, s.slotAddr f sp i) := by
  rw [State.reserve, free]

theorem mem_modFirst {p : FlmRec → Bool} {g : FlmRec → FlmRec} {l : List FlmRec} {r : FlmRec} (first : l.find? p = some r) : g r ∈ modFirst p g l := by
  induction l with
  | nil => cases first
  | cons x l ih =>
    unfold modFirst
    by_cases hit : p x = true
    · rw [List.find?_cons_of_pos hit] at first
      cases first
      rw [if_pos hit]
      exact List.mem_cons_self
    · rw [List.find?_cons_of_neg hit] at first
      rw [if_neg hit]
      exact List.mem_cons_of_mem _ (ih first)

theorem length_modFirst (p : FlmRec → Bool) (g : FlmRec → FlmRec) (l : List FlmRec) : (modFirst p g l).length = l.length := by
  induction l with
  | nil => rfl
  | cons x l ih =>
    unfold modFirst
    split
    · rfl
    · rw [List.length_cons, ih, List.length_cons]

theorem areg_setA (s : State) (k : Nat) (r : BitVec 4) (v : Addr) : (s.wA k r v).a k r.toNat = v := by
  rw [a_wA, if_pos ⟨rfl, rfl⟩]

/-- The flume that an operand names. -/
theorem flumeNum_eq (s : State) (k : Nat) (o : FlumeOp) : flumeNum s k o = (match o with
    | .imm n => n.toNat
    | .reg r => (s.s k r).toNat % 2 ^ 13) := by
  cases o <;> rfl

/-- The new record of a reservation. -/
theorem reserve_flume {s : State} {k f i : Nat} {sp : Bool} (free : s.freeSlot f = some (sp, i)) :
    ((s.reserve k f).1.flume f).out = (s.flume f).out + 1 ∧
    (∃ r : FlmRec, ((s.reserve k f).1.flume f).recs = (s.flume f).recs ++ [r] ∧ r.owner = k ∧ r.spill = sp ∧ r.slot = i ∧ r.cmt = false ∧ r.held = false) ∧
    ∀ g, g ≠ f → (s.reserve k f).1.flume g = s.flume g := by
  simp only [reserve_eq free, setFlm_flume, if_true]
  exact ⟨trivial, ⟨_, rfl, rfl, rfl, rfl, rfl, rfl⟩, fun g other => if_neg other⟩

theorem calm_reserve (s : State) {k : Nat} (owner f : Nat) (key : k < 96) : Calm s (s.reserve owner f).1 k := by
  unfold State.reserve
  split
  · exact Calm.refl s k
  · exact calm_setFlm s f _ key

theorem preg_wP (s : State) (k : Nat) (pd : BitVec 3) (v : Bool) : (s.wP k pd v).p k pd = if pd = 0 then true else v := by
  rw [p_wP, if_pos ⟨rfl, rfl⟩]

theorem preg_wP_false (s : State) (k : Nat) (pd : BitVec 3) : (s.wP k pd false).p k pd = decide (pd = 0) := by
  rw [preg_wP]
  by_cases zero : pd = 0 <;> simp [zero]

/-- What of a sequencer is no predicate stays when one is written. -/
theorem own_wP {α : Type} (g : Seq → α) (blind : ∀ x i v, g { x with p := KMap.put (fun _ => false) x.p i v } = g x) (s : State) (k : Nat)
    (pd : BitVec 3) (v : Bool) : g ((s.wP k pd v).seq k) = g (s.seq k) := by
  rw [State.wP, State.seq_modSeq, if_pos rfl, Seq.setP]
  split
  · rfl
  · exact blind ..

theorem areg_wP (s : State) (k : Nat) (pd : BitVec 3) (v : Bool) (r : Nat) : (s.wP k pd v).a k r = s.a k r := by
  unfold State.a State.wP
  rw [State.seq_modSeq, if_pos rfl]
  unfold Seq.setP
  split <;> rfl

theorem seq_of_seqs {s u : State} (same : u.seqs = s.seqs) (k : Nat) : u.seq k = s.seq k := by rw [State.seq, same, State.seq]

theorem flume_of_flumes {s u : State} (same : u.flumes = s.flumes) (f : Nat) : u.flume f = s.flume f := by rw [State.flume, same, State.flume]

section
variable {s : State} {c : SlotCtl} (alone : s.Alone c) (slot : c.slot = 3) (noEnd : s.NoLoopEnd (seqKey c)) {ad : BitVec 4} {o : FlumeOp} {pd : BitVec 3}
  (check : s.flmSeqCheck (seqKey c) (flumeNum s (seqKey c) o) true = none)

include alone slot noEnd check

theorem exec_flmPush (push : s.canPush (flumeNum s (seqKey c) o) = true) (free : s.NoPending c (.flmPush c ad o)) : ∃ t, exec (.flmPush c ad o) s = .next t ∧
    Ended s ((s.reserve (seqKey c) (flumeNum s (seqKey c) o)).1.wA (seqKey c) ad
      (BitVec.ofNat 48 (s.reserve (seqKey c) (flumeNum s (seqKey c) o)).2)) t (seqKey c) := by
  have issues : Issues s c (.flmPush c ad o) (opFlmPush (seqKey c) ad o) :=
    ⟨alone, rfl, rfl, slot3 slot, free, by simp [opFlmPush, check, State.heldAtOnce, push], by simp [opFlmPush, push], rfl, rfl, by simp [opFlmPush]⟩
  exact exec_calm issues rfl ((calm_reserve s _ _ (seqKey_lt c)).trans (calm_wA ..)) noEnd

omit noEnd in
theorem issues_flmTry (free : s.NoPending c (.flmTry c ad o pd)) : Issues s c (.flmTry c ad o pd) (opFlmTry (seqKey c) ad o pd) :=
  ⟨alone, rfl, rfl, slot3 slot, free, check, rfl, rfl, rfl, by simp [opFlmTry]⟩

theorem exec_flmTry (state : s.flmState (flumeNum s (seqKey c) o) = flmOPEN) (push : s.canPush (flumeNum s (seqKey c) o) = true)
    (free : s.NoPending c (.flmTry c ad o pd)) : ∃ t, exec (.flmTry c ad o pd) s = .next t ∧
    Ended s (((s.reserve (seqKey c) (flumeNum s (seqKey c) o)).1.wA (seqKey c) ad
      (BitVec.ofNat 48 (s.reserve (seqKey c) (flumeNum s (seqKey c) o)).2)).wP (seqKey c) pd true) t (seqKey c) :=
  exec_calm (issues_flmTry alone slot check free) (if_pos ⟨push, state⟩)
    (((calm_reserve s _ _ (seqKey_lt c)).trans (calm_wA ..)).trans (calm_wP ..)) noEnd

theorem exec_flmTry_refused (state : s.flmState (flumeNum s (seqKey c) o) = flmOPEN) (push : s.canPush (flumeNum s (seqKey c) o) = false)
    (free : s.NoPending c (.flmTry c ad o pd)) : ∃ t, exec (.flmTry c ad o pd) s = .next t ∧
    Ended s ((s.count (R.FLM_CNT.full (flumeNum s (seqKey c) o)) 1).wP (seqKey c) pd false) t (seqKey c) := by
  have eff : (opFlmTry (seqKey c) ad o pd).eff s s = (s.count (R.FLM_CNT.full (flumeNum s (seqKey c) o)) 1).wP (seqKey c) pd false := by
    simp [opFlmTry, push, state]
  exact exec_calm (issues_flmTry alone slot check free) eff
    ((calm_count s (seqKey_lt c) (.inr (by simp only [R.FLM_CNT.full]; omega))).trans (calm_wP ..)) noEnd

end

/-- What a reservation that has issued leaves (R136, R143). -/
theorem reserved_after {s u t : State} {k f i : Nat} {ad : BitVec 4} {sp : Bool} (ended : Ended s u t k) (free : s.freeSlot f = some (sp, i))
    (flumes : u.flumes = (s.reserve k f).1.flumes) (addr : u.a k ad.toNat = BitVec.ofNat 48 (s.reserve k f).2) :
    s.Issued t k (s.pc k + 1) ∧ SameMem s t ∧ SameSeqsBut s t k ∧
    t.a k ad.toNat = BitVec.ofNat 48 (s.slotAddr f sp i) ∧ (t.flume f).out = (s.flume f).out + 1 ∧
    (∃ r : FlmRec, (t.flume f).recs = (s.flume f).recs ++ [r] ∧ r.owner = k ∧ r.spill = sp ∧ r.slot = i ∧ r.cmt = false ∧ r.held = false) ∧
    ∀ g, g ≠ f → t.flume g = s.flume g := by
  have same (g : Nat) : t.flume g = (s.reserve k f).1.flume g := flume_of_flumes (ended.flumes.trans flumes) g
  obtain ⟨out, recs, others⟩ := reserve_flume (k := k) free
  refine ⟨ended.issued, ended.mem, ended.seqs, ?_, by rw [same, out], ?_, fun g other => by rw [same, others g other]⟩
  · rw [ended.areg, addr, reserve_eq free]
  · rw [same]
    exact recs

/-- The commit that leaves with the program's fields (R134, R136). -/
theorem sendCommit_flume (s : State) (k f g : Nat) (h : Hdr) : (s.sendCommit k f h).flume g = if g = f then { s.flume f with
    recs := modFirst (fun r => decide (r.owner = k) && !r.sent) (fun r => { r with hdr := h, sent := true }) (s.flume f).recs } else s.flume g :=
  setFlm_flume ..

theorem exec_flmCmt {s : State} {c : SlotCtl} {f : BitVec 13} {r : FlmRec} (alone : s.Alone c) (slot : c.slot = 3) (noEnd : s.NoLoopEnd (seqKey c))
    (check : s.flmSeqCheck (seqKey c) f.toNat true = none) (resv : (s.flume f.toNat).oldestResv (seqKey c) = some r)
    (len : (s.seq (seqKey c)).ob.len ≤ s.get (R.FLM_DESC.rec_size f.toNat) * 4096) (near : s.get (R.FLM_DESC.remote f.toNat) = 0)
    (written : s.payloadPending (seqKey c) f.toNat = false) (plain : (s.seq (seqKey c)).ob.phaseMk = false) :
    ∃ t, exec (.flmCmt c (.imm f)) s = .next t ∧ Ended s ((s.sendCommit (seqKey c) f.toNat (s.seq (seqKey c)).ob).sendPkt (laneOf (seqKey c)) 3
      (ldOfDie (seqKey c / 4)) (ldOfFlume f.toNat)) t (seqKey c) := by
  have chk : (opFlmCmt (seqKey c) (.imm f)).chk s = none := by
    change Option.orElse (s.flmSeqCheck (seqKey c) f.toNat true) _ = none
    have isLocal : s.flag (R.FLM_DESC.remote f.toNat) = false := decide_eq_false (near ▸ zero_ne_one)
    have named : flumeNum s (seqKey c) (.imm f) = f.toNat := rfl
    rw [check, Option.orElse_none, named, resv, isLocal, decide_eq_false (not_lt.2 len), Option.isNone_some, Bool.false_and, Bool.false_and]
    rfl
  have issues : Issues s c (.flmCmt c (.imm f)) (opFlmCmt (seqKey c) (.imm f)) :=
    ⟨alone, rfl, rfl, slot3 slot, noPending_of_none rfl rfl rfl,
      chk, by simp [opFlmCmt, flumeNum, written], rfl, rfl, by simp [opFlmCmt]⟩
  have eff : (opFlmCmt (seqKey c) (.imm f)).eff s s = (s.sendCommit (seqKey c) f.toNat (s.seq (seqKey c)).ob).sendPkt (laneOf (seqKey c)) 3
      (ldOfDie (seqKey c / 4)) (ldOfFlume f.toNat) := if_neg (by simp [plain])
  exact exec_calm issues eff ((calm_setFlm s _ _ (seqKey_lt c)).trans (calm_of_unrouted (sendPkt_unrouted ..))) noEnd

/-- Settles O8. -/
theorem flumeReserveAndCommit : Obligations.FlumeReserveAndCommit := by
  refine ⟨fun s c ad o pd alone slot noEnd => ?_, fun s c f r alone slot noEnd check resv len near written plain => ?_⟩
  · intro k f check state
    have named : flumeNum s (seqKey c) o = f := flumeNum_eq s k o
    rw [← named] at check state ⊢
    refine ⟨fun sp i push free => ⟨fun pending => ?_, fun pending => ?_⟩, fun push pending => ?_⟩
    · obtain ⟨t, run, ended⟩ := exec_flmPush alone slot noEnd check push pending
      exact ⟨t, run, reserved_after ended free rfl (areg_setA ..)⟩
    · obtain ⟨t, run, ended⟩ := exec_flmTry alone slot noEnd check state push pending
      refine ⟨t, run, reserved_after ended free rfl ((areg_wP ..).trans (areg_setA ..)), ?_⟩
      rw [ended.preg, preg_wP, ite_self]
    · obtain ⟨t, run, ended⟩ := exec_flmTry_refused (ad := ad) alone slot noEnd check state push pending
      refine ⟨t, run, ended.issued, ?_, ended.flumes, ended.mem, fun r => (ended.areg _).trans (areg_wP ..), ?_⟩
      · rw [ended.preg, preg_wP_false]
      · have small : flumeNum s (seqKey c) o < 8192 := by cases o <;> simp only [flumeNum] <;> omega
        rw [ended.get_flume (seqKey_lt c) (by simp only [R.FLM_CNT.full]; omega) (by simp only [R.FLM_CNT.full]; omega)]
        exact State.get_count_same s _ 1
  · obtain ⟨t, run, ended⟩ := exec_flmCmt alone slot noEnd check resv len near written plain
    have same (g : Nat) : t.flume g = (s.sendCommit (seqKey c) f.toNat (s.seq (seqKey c)).ob).flume g :=
      flume_of_flumes (ended.flumes.trans (congrArg State.flumes (sendPkt_unrouted ..) :)) g
    refine ⟨t, run, ended.issued, ended.mem, ended.seqs, ?_, ?_, ?_, fun g other => ?_⟩
    · rw [ended.own Seq.ob fun _ _ => rfl, seq_of_seqs (sendPkt_seqs ..)]
      rfl
    · rw [same, sendCommit_flume, if_pos rfl]
      exact mem_modFirst resv
    · rw [same, sendCommit_flume, if_pos rfl]
      exact length_modFirst ..
    · rw [same, sendCommit_flume, if_neg other]

end Sys2Proof.Machine

namespace Sys2Proof.Machine

-- One proof at a time: threads that wait for each other hold memory.
set_option Elab.async false

/-! ## Taking a record (R136, R139, R143, R199) -/

theorem heldBy_take {l : List FlmRec} {k : Nat} {r : FlmRec} (first : l.find? (fun r => !r.held) = some r) :
    ((modFirst (fun r => !r.held) (fun r => { r with held := true, holder := k, pin := none }) l).filter
      (fun r => r.held && decide (r.holder = k))).length = (l.filter (fun r => r.held && decide (r.holder = k))).length + 1 := by
  induction l with
  | nil => cases first
  | cons x l ih =>
    unfold modFirst
    cases held : x.held with
    | false => simp [held]
    | true =>
      rw [List.find?_cons_of_neg (by simp [held])] at first
      simp only [held, Bool.not_true, Bool.false_eq_true, if_false, List.filter_cons, Bool.true_and]
      split <;> simp [ih first]

theorem head_of_readyHead {x : Flume} {r : FlmRec} (ready : x.readyHead = some r) : x.head = some r := by
  unfold Flume.readyHead at ready
  split at ready
  · next head =>
    split at ready
    · exact head.trans ready
    · cases ready
  · cases ready

/-- The flume once its ready record has been taken. -/
def Flume.taken (x : Flume) (k : Nat) (r : FlmRec) : Flume :=
  { x with
    recs := modFirst (fun r => !r.held) (fun r => { r with held := true, holder := k, pin := none }) x.recs
    copy := match x.copy with
      | some (q, i) => if q = r.hdr.rseq then none else some (q, i)
      | none => none }

theorem takeRec_eq {s : State} {k f : Nat} {r : FlmRec} (ready : (s.flume f).readyHead = some r) :
    s.takeRec k f = (s.setFlm f ((s.flume f).taken k r)).put (R.FLM_SEQ.next_pop f) (r.hdr.rseq + 1) := by
  rw [State.takeRec, ready]
  rfl

/-- The record's place depends on three fields of the descriptor. -/
theorem slotAddr_congr {s u : State} {f : Nat} (spill : u.get (R.FLM_DESC.spill_base f) = s.get (R.FLM_DESC.spill_base f))
    (store : u.get (R.FLM_DESC.store_base f) = s.get (R.FLM_DESC.store_base f))
    (size : u.get (R.FLM_DESC.rec_size f) = s.get (R.FLM_DESC.rec_size f)) (sp : Bool) (i : Nat) : u.slotAddr f sp i = s.slotAddr f sp i := by
  rw [State.slotAddr, spill, store, size, State.slotAddr]

theorem slotAddr_takeRec {s : State} {k f : Nat} {r : FlmRec} (ready : (s.flume f).readyHead = some r) (sp : Bool) (i : Nat) :
    (s.takeRec k f).slotAddr f sp i = s.slotAddr f sp i := by
  rw [takeRec_eq ready]
  apply slotAddr_congr
  all_goals
    rw [State.get_put_other, setFlm_get] <;>
      simp only [R.FLM_SEQ.next_pop, R.FLM_STAT.above_hi, R.FLM_DESC.spill_base, R.FLM_DESC.store_base, R.FLM_DESC.rec_size] <;> omega

theorem slotAddr_modSeq (s : State) (k f : Nat) (g : Seq → Seq) (sp : Bool) (i : Nat) : (s.modSeq k g).slotAddr f sp i = s.slotAddr f sp i := rfl

theorem seqTake_eq {s : State} {k f : Nat} {r : FlmRec} (ready : (s.flume f).readyHead = some r) (plain : r.hdr.phaseMk = false) :
    s.seqTake k f = ((s.takeRec k f).toHB k f r.hdr, s.slotAddr f r.spill r.slot) := by
  rw [State.seqTake, ready]
  simp only [plain, State.toHB, slotAddr_modSeq, slotAddr_takeRec ready, Bool.false_eq_true, if_false]

theorem calm_toHB (s : State) (k f : Nat) (h : Hdr) : Calm s (s.toHB k f h) k := calm_modSeq s rfl rfl

/-- What taking the ready record leaves. -/
structure Took (s u : State) (k f : Nat) (r : FlmRec) : Prop where
  calm   : Calm s u k
  hb     : (u.seq k).hb = r.hdr
  number : (u.seq k).hbFlume = f
  ob     : (u.seq k).ob = (s.seq k).ob
  step   : (u.seq k).stepEnded = (s.seq k).stepEnded
  held   : (u.flume f).heldBy k = (s.flume f).heldBy k + 1
  length : (u.flume f).recs.length = (s.flume f).recs.length
  next   : u.get (R.FLM_SEQ.next_pop f) = (r.hdr.rseq + 1) % 2 ^ 32
  others : ∀ g, g ≠ f → u.flume g = s.flume g
  regs   : ∀ g : Fld, g.a < 8 * 0x3000000 → u.get g = s.get g

theorem took_seqTake {s : State} {k f : Nat} {r : FlmRec} (ready : (s.flume f).readyHead = some r) (plain : r.hdr.phaseMk = false) (key : k < 96) : Took s (s.seqTake k f).1 k f r := by
  rw [seqTake_eq ready plain, takeRec_eq ready]
  have flumes (g : Nat) : (((s.setFlm f ((s.flume f).taken k r)).put (R.FLM_SEQ.next_pop f) (r.hdr.rseq + 1)).toHB k f r.hdr).flume g =
      if g = f then (s.flume f).taken k r else s.flume g := setFlm_flume ..
  refine ⟨((calm_setFlm s f _ key).trans (calm_put (f := R.FLM_SEQ.next_pop f) _ key (.inr (by simp only [R.FLM_SEQ.next_pop]; omega)))).trans (calm_toHB ..),
    ?_, ?_, ?_, ?_, ?_, ?_, ?_, fun g other => (flumes g).trans (if_neg other), fun g low => ?_⟩
  · simp only [State.toHB, State.seq_modSeq, if_true]
  · simp only [State.toHB, State.seq_modSeq, if_true]
  · simp only [State.toHB, State.seq_modSeq, if_true, State.put_seq]
    rfl
  · simp only [State.toHB, State.seq_modSeq, if_true, State.put_seq]
    rfl
  · rw [flumes, if_pos rfl]
    exact heldBy_take (head_of_readyHead ready)
  · rw [flumes, if_pos rfl]
    exact length_modFirst ..
  · rw [State.toHB, State.modSeq_get, State.get_put_same]
    rfl
  · rw [State.toHB, State.modSeq_get, State.get_put_other _ _ _ _ (by simp only [R.FLM_SEQ.next_pop]; omega),
      setFlm_get _ _ (by simp only [R.FLM_STAT.above_hi]; omega)]

/-- The registers of the sequencer written behind it change nothing of that. -/
theorem Took.wA {s u : State} {k f : Nat} {r : FlmRec} (took : Took s u k f r) (ad : BitVec 4) (v : Addr) : Took s (u.wA k ad v) k f r := by
  have own {α : Type} (g : Seq → α) (blind : ∀ x i v, g (Seq.setA x i v) = g x) : g ((u.wA k ad v).seq k) = g (u.seq k) := by
    rw [State.wA, State.seq_modSeq, if_pos rfl, blind]
  exact ⟨took.calm.trans (calm_wA ..), (own Seq.hb fun _ _ _ => rfl).trans took.hb, (own Seq.hbFlume fun _ _ _ => rfl).trans took.number,
    (own Seq.ob fun _ _ _ => rfl).trans took.ob, (own Seq.stepEnded fun _ _ _ => rfl).trans took.step, took.held, took.length, took.next, took.others, took.regs⟩

theorem Took.wP {s u : State} {k f : Nat} {r : FlmRec} (took : Took s u k f r) (pd : BitVec 3) (v : Bool) : Took s (u.wP k pd v) k f r := by
  have own {α : Type} (g : Seq → α) (blind : ∀ x i v, g (Seq.setP x i v) = g x) : g ((u.wP k pd v).seq k) = g (u.seq k) := by
    rw [State.wP, State.seq_modSeq, if_pos rfl, blind]
  refine ⟨took.calm.trans (calm_wP ..), (own Seq.hb fun _ _ _ => ?_).trans took.hb, (own Seq.hbFlume fun _ _ _ => ?_).trans took.number,
    (own Seq.ob fun _ _ _ => ?_).trans took.ob, (own Seq.stepEnded fun _ _ _ => ?_).trans took.step, took.held, took.length, took.next, took.others, took.regs⟩
  all_goals
    unfold Seq.setP
    split <;> rfl

section
variable {s : State} {c : SlotCtl} (alone : s.Alone c) (slot : c.slot = 3) {ad : BitVec 4} {f : BitVec 13} {pd : BitVec 3}

include alone slot

theorem exec_flmPop_full (check : s.flmSeqCheck (seqKey c) f.toNat false = none) (full : 16 ≤ (s.flume f.toNat).heldBy (seqKey c)) :
    exec (.flmPop c ad (.imm f)) s = .next (s.takeExc (seqKey c) 3 (exc E.FLM_HOLD f.toNat)) := by
  have chk : (opFlmPop (seqKey c) ad (.imm f)).chk s = some (exc E.FLM_HOLD f.toNat) := by
    change ((s.flmSeqCheck (seqKey c) f.toNat false).orElse fun _ => s.holdFull (seqKey c) f.toNat).orElse _ = _
    rw [check, Option.orElse_none, State.holdFull, if_pos full]
    rfl
  rw [exec_raises alone rfl rfl (slot3 slot) (noPending_of_none rfl rfl rfl) chk rfl rfl (by decide : E.FLM_HOLD ≠ E.CFG_COMMIT), slot]
  rfl

theorem exec_flmTpop_full {r : FlmRec} (check : s.flmSeqCheck (seqKey c) f.toNat false = none) (state : s.flmState f.toNat = flmOPEN)
    (ready : (s.flume f.toNat).readyHead = some r) (full : 16 ≤ (s.flume f.toNat).heldBy (seqKey c)) :
    exec (.flmTpop c ad (.imm f) pd) s = .next (s.takeExc (seqKey c) 3 (exc E.FLM_HOLD f.toNat)) := by
  have chk : (opFlmTpop (seqKey c) ad (.imm f) pd).chk s = some (exc E.FLM_HOLD f.toNat) := by
    change (s.flmSeqCheck (seqKey c) f.toNat false).orElse (fun _ => if s.flmState f.toNat = flmOPEN then _ else none) = _
    rw [check, Option.orElse_none, if_pos state, State.holdCheck, flumeNum, ready, State.holdFull, if_pos full]
    rfl
  rw [exec_raises alone rfl rfl (slot3 slot) (noPending_of_none rfl rfl rfl) chk rfl rfl (by decide : E.FLM_HOLD ≠ E.CFG_COMMIT), slot]
  rfl

variable (noEnd : s.NoLoopEnd (seqKey c))

include noEnd

theorem exec_flmPop {r : FlmRec} (check : s.flmSeqCheck (seqKey c) f.toNat false = none) (ready : (s.flume f.toNat).readyHead = some r)
    (room : (s.flume f.toNat).heldBy (seqKey c) < 16) (plain : r.hdr.phaseMk = false) :
    ∃ t, exec (.flmPop c ad (.imm f)) s = .next t ∧ Ended s ((s.seqTake (seqKey c) f.toNat).1.wA (seqKey c) ad
      (BitVec.ofNat 48 (s.seqTake (seqKey c) f.toNat).2)) t (seqKey c) := by
  have chk : (opFlmPop (seqKey c) ad (.imm f)).chk s = none := by
    change ((s.flmSeqCheck (seqKey c) f.toNat false).orElse fun _ => s.holdFull (seqKey c) f.toNat).orElse
      (fun _ => s.heldAtOnce f.toNat (s.flume f.toNat).readyHead.isNone) = _
    rw [check, Option.orElse_none, State.holdFull, if_neg (not_le.2 room), Option.orElse_none, ready]
    rfl
  have wait : (opFlmPop (seqKey c) ad (.imm f)).wait s = 0 := if_pos (by simp [flumeNum, ready])
  have issues : Issues s c (.flmPop c ad (.imm f)) (opFlmPop (seqKey c) ad (.imm f)) :=
    ⟨alone, rfl, rfl, slot3 slot, noPending_of_none rfl rfl rfl, chk, wait, rfl, rfl, by simp [opFlmPop]⟩
  exact exec_calm issues rfl ((took_seqTake ready plain (seqKey_lt c)).calm.trans (calm_wA ..)) noEnd

theorem exec_flmTpop {r : FlmRec} (check : s.flmSeqCheck (seqKey c) f.toNat false = none) (state : s.flmState f.toNat = flmOPEN)
    (ready : (s.flume f.toNat).readyHead = some r) (room : (s.flume f.toNat).heldBy (seqKey c) < 16) (plain : r.hdr.phaseMk = false) :
    ∃ t, exec (.flmTpop c ad (.imm f) pd) s = .next t ∧ Ended s (((s.seqTake (seqKey c) f.toNat).1.wA (seqKey c) ad
      (BitVec.ofNat 48 (s.seqTake (seqKey c) f.toNat).2)).wP (seqKey c) pd true) t (seqKey c) := by
  have chk : (opFlmTpop (seqKey c) ad (.imm f) pd).chk s = none := by
    change (s.flmSeqCheck (seqKey c) f.toNat false).orElse (fun _ => if s.flmState f.toNat = flmOPEN then _ else none) = _
    rw [check, Option.orElse_none, if_pos state, State.holdCheck, flumeNum, ready, State.holdFull, if_neg (not_le.2 room), ite_self]
  have issues : Issues s c (.flmTpop c ad (.imm f) pd) (opFlmTpop (seqKey c) ad (.imm f) pd) :=
    ⟨alone, rfl, rfl, slot3 slot, noPending_of_none rfl rfl rfl, chk, rfl, rfl, rfl, by simp [opFlmTpop]⟩
  exact exec_calm issues (if_pos ⟨by simp [flumeNum, ready], state⟩) (((took_seqTake ready plain (seqKey_lt c)).calm.trans (calm_wA ..)).trans (calm_wP ..)) noEnd

theorem exec_flmTpop_empty (check : s.flmSeqCheck (seqKey c) f.toNat false = none) (empty : (s.flume f.toNat).readyHead = none) :
    ∃ t, exec (.flmTpop c ad (.imm f) pd) s = .next t ∧ Ended s (s.wP (seqKey c) pd false) t (seqKey c) := by
  have chk : (opFlmTpop (seqKey c) ad (.imm f) pd).chk s = none := by
    change (s.flmSeqCheck (seqKey c) f.toNat false).orElse (fun _ => if s.flmState f.toNat = flmOPEN then _ else none) = _
    rw [check, Option.orElse_none, State.holdCheck, flumeNum, empty]
    exact ite_self none
  have issues : Issues s c (.flmTpop c ad (.imm f) pd) (opFlmTpop (seqKey c) ad (.imm f) pd) :=
    ⟨alone, rfl, rfl, slot3 slot, noPending_of_none rfl rfl rfl, chk, rfl, rfl, rfl, by simp [opFlmTpop]⟩
  exact exec_calm issues (if_neg fun h => by simp [flumeNum, empty] at h) (calm_wP ..) noEnd

end

/-! ## FLM.NEXT (R152, R153, R166) -/

/-- The pointer and round of a sequencer's schedule, put where a step leaves them. -/
def State.schedAt (s : State) (n q ptr round : Nat) : State := (s.put (R.SCHED_CTL.ptr n q) ptr).put (R.SCHED_ROUND.round n q) round

theorem calm_schedAt (s : State) (c : SlotCtl) (ptr round : Nat) : Calm s (s.schedAt (seqKey c / 4) (seqKey c % 4) ptr round) (seqKey c) := by
  have key := seqKey_lt c
  refine calm_of_same (sameMem_of_eq rfl rfl rfl rfl) rfl ?_ ?_
  all_goals
    rw [State.schedAt, State.get_put_other, State.get_put_other] <;>
      simp only [R.SEQ_STAT.pc, R.SEQ_CNT.issued, R.SCHED_CTL.ptr, R.SCHED_ROUND.round] <;> omega

theorem schedAt_ptr (s : State) (n q ptr round : Nat) : (s.schedAt n q ptr round).get (R.SCHED_CTL.ptr n q) = ptr % 256 := by
  rw [State.schedAt, State.get_put_other _ _ _ _ (by simp only [R.SCHED_CTL.ptr, R.SCHED_ROUND.round]; omega), State.get_put_same]
  rfl

theorem schedAt_round (s : State) (n q ptr round : Nat) : (s.schedAt n q ptr round).get (R.SCHED_ROUND.round n q) = round % 2 ^ 32 :=
  State.get_put_same ..

theorem schedAt_get_flume (s : State) {n q ptr round : Nat} (die : n < 24) (seq : q < 4) {g : Fld} (high : 8 * 0x3000000 ≤ g.a) :
    (s.schedAt n q ptr round).get g = s.get g := by
  rw [State.schedAt, State.get_put_other, State.get_put_other] <;> simp only [R.SCHED_CTL.ptr, R.SCHED_ROUND.round] <;> omega

section
variable {s : State} {c : SlotCtl} (alone : s.Alone c) (slot : c.slot = 3) {ad : BitVec 4} {pd : BitVec 3}

include alone slot

theorem exec_flmNext_unscheduled (mode : s.get (R.SCHED_CTL.mode c.die.val c.q.val) = 0 ∨ s.get (R.SCHED_CTL.mode c.die.val c.q.val) = 3) :
    exec (.flmNext c ad pd) s = .next (s.takeExc (seqKey c) 3 (exc E.FLM_SCHED_ORDER 0)) := by
  have chk : (opFlmNext (seqKey c) ad pd).chk s = some (exc E.FLM_SCHED_ORDER 0) := by
    rw [← seqKey_div c, ← seqKey_mod c] at mode
    exact if_pos mode
  rw [exec_raises alone rfl rfl (slot3 slot) (noPending_of_none rfl rfl rfl) chk rfl rfl (by decide : E.FLM_SCHED_ORDER ≠ E.CFG_COMMIT), slot]
  rfl

variable (noEnd : s.NoLoopEnd (seqKey c))
  (mode : s.get (R.SCHED_CTL.mode c.die.val c.q.val) = 1 ∨ s.get (R.SCHED_CTL.mode c.die.val c.q.val) = 2)

include noEnd mode

theorem exec_flmNext_finished {ptr round : Nat} (pick : s.pick (seqKey c) = .finished ptr round) :
    ∃ t, exec (.flmNext c ad pd) s = .next t ∧ Ended s (((s.schedAt (seqKey c / 4) (seqKey c % 4) ptr round).modSeq (seqKey c)
      (fun x => { x with stepEnded := true, loadedNoNext := false })).wP (seqKey c) pd false) t (seqKey c) := by
  have chk : (opFlmNext (seqKey c) ad pd).chk s = none := by
    rw [← seqKey_div c, ← seqKey_mod c] at mode
    refine (if_neg (by omega)).trans ?_
    simp only [pick]
  have issues : Issues s c (.flmNext c ad pd) (opFlmNext (seqKey c) ad pd) :=
    ⟨alone, rfl, rfl, slot3 slot, noPending_of_none rfl rfl rfl, chk, by simp [opFlmNext, pick], rfl, rfl, by simp [opFlmNext]⟩
  exact exec_calm issues (by simp only [opFlmNext, pick, State.schedAt])
    (((calm_schedAt s c ptr round).trans (calm_modSeq _ rfl rfl)).trans (calm_wP ..)) noEnd

/-- The state in which FLM.NEXT takes its record. -/
def State.atRecord (s : State) (k ptr round : Nat) : State :=
  (s.schedAt (k / 4) (k % 4) ptr round).modSeq k (fun x => { x with stepEnded := false, loadedNoNext := false })

theorem exec_flmNext_take {f ptr round : Nat} {r : FlmRec} (pick : s.pick (seqKey c) = .take f ptr round)
    (check : s.flmSeqCheck (seqKey c) f false = none) (room : (s.flume f).heldBy (seqKey c) < 16) (ready : (s.flume f).readyHead = some r)
    (plain : r.hdr.phaseMk = false) :
    ∃ t, exec (.flmNext c ad pd) s = .next t ∧ Ended s ((((s.atRecord (seqKey c) ptr round).seqTake (seqKey c) f).1.wA (seqKey c) ad
      (BitVec.ofNat 48 ((s.atRecord (seqKey c) ptr round).seqTake (seqKey c) f).2)).wP (seqKey c) pd true) t (seqKey c) := by
  have chk : (opFlmNext (seqKey c) ad pd).chk s = none := by
    rw [← seqKey_div c, ← seqKey_mod c] at mode
    refine (if_neg (by omega)).trans ?_
    simp only [pick, check, Option.orElse_none, State.holdCheck, State.holdFull, if_neg (not_le.2 room), ite_self]
  have issues : Issues s c (.flmNext c ad pd) (opFlmNext (seqKey c) ad pd) :=
    ⟨alone, rfl, rfl, slot3 slot, noPending_of_none rfl rfl rfl, chk, by simp [opFlmNext, pick], rfl, rfl, by simp [opFlmNext]⟩
  have took := took_seqTake (s := s.atRecord (seqKey c) ptr round) (k := seqKey c) ready plain (seqKey_lt c)
  exact exec_calm issues (by simp only [opFlmNext, pick, State.atRecord, State.schedAt])
    (((((calm_schedAt s c ptr round).trans (calm_modSeq _ rfl rfl)).trans took.calm).trans (calm_wA ..)).trans (calm_wP ..)) noEnd

end

theorem slotAddr_atRecord (s : State) (c : SlotCtl) (f ptr round : Nat) (sp : Bool) (i : Nat) :
    (s.atRecord (seqKey c) ptr round).slotAddr f sp i = s.slotAddr f sp i := by
  have key := seqKey_lt c
  have same {g : Fld} (high : 8 * 0x3000000 ≤ g.a) : (s.atRecord (seqKey c) ptr round).get g = s.get g :=
    schedAt_get_flume s (by omega) (by omega) high
  exact slotAddr_congr (same (by simp only [R.FLM_DESC.spill_base]; omega)) (same (by simp only [R.FLM_DESC.store_base]; omega))
    (same (by simp only [R.FLM_DESC.rec_size]; omega)) _ _

/-- What the sequencer's own registers keep of a record that was taken. -/
theorem took_after {s u t : State} {k f : Nat} {r : FlmRec} (took : Took s u k f r) (ended : Ended s u t k) (flume : f < 8192) (key : k < 96) :
    (t.seq k).hb = r.hdr ∧ (t.seq k).hbFlume = f ∧ (t.seq k).ob = (s.seq k).ob ∧ (t.flume f).heldBy k = (s.flume f).heldBy k + 1 ∧
      (t.flume f).recs.length = (s.flume f).recs.length ∧ t.get (R.FLM_SEQ.next_pop f) = (r.hdr.rseq + 1) % 2 ^ 32 ∧
      ∀ g, g ≠ f → t.flume g = s.flume g := by
  refine ⟨(ended.own Seq.hb fun _ _ => rfl).trans took.hb, (ended.own Seq.hbFlume fun _ _ => rfl).trans took.number,
    (ended.own Seq.ob fun _ _ => rfl).trans took.ob, by rw [ended.flume, took.held], by rw [ended.flume, took.length], ?_,
    fun g other => by rw [ended.flume, took.others g other]⟩
  rw [ended.get_flume key (by simp only [R.FLM_SEQ.next_pop]; omega) (by simp only [R.FLM_SEQ.next_pop]; omega), took.next]

/-- The schedule's pointer and round stand in a register of the sequencer's die. -/
theorem schedPlace_ptr (c : SlotCtl) : SchedPlace (R.SCHED_CTL.ptr c.die.val c.q.val) c.die.val ∧
    SchedPlace (R.SCHED_ROUND.round c.die.val c.q.val) c.die.val := by
  have := c.q.isLt
  simp only [SchedPlace, R.SCHED_CTL.ptr, R.SCHED_ROUND.round]
  omega

/-- Settles O9. -/
theorem flumeTakeAndNext : Obligations.FlumeTakeAndNext := by
  refine ⟨fun s c ad f pd alone slot noEnd => ?_, fun s c ad pd alone slot noEnd => ?_⟩
  · intro k x check state
    refine ⟨fun full => ⟨exec_flmPop_full alone slot check full, fun r ready => exec_flmTpop_full alone slot check state ready full⟩,
      fun r ready room plain => ?_, fun empty => ?_⟩
    · have took := took_seqTake (k := seqKey c) ready plain (seqKey_lt c)
      have addr : (s.seqTake (seqKey c) f.toNat).2 = s.slotAddr f.toNat r.spill r.slot := by rw [seqTake_eq ready plain]
      constructor
      · obtain ⟨t, run, ended⟩ := exec_flmPop (ad := ad) alone slot noEnd check ready room plain
        obtain ⟨hb, number, ob, rest⟩ := took_after (took.wA ad _) ended f.isLt (seqKey_lt c)
        refine ⟨t, run, ended.issued, ended.mem, ended.seqs, hb, number, ob, ?_, rest⟩
        rw [ended.areg, areg_setA, addr]
      · obtain ⟨t, run, ended⟩ := exec_flmTpop (ad := ad) (pd := pd) alone slot noEnd check state ready room plain
        obtain ⟨hb, number, ob, rest⟩ := took_after ((took.wA ad _).wP pd true) ended f.isLt (seqKey_lt c)
        refine ⟨t, run, ⟨ended.issued, ended.mem, ended.seqs, hb, number, ob, ?_, rest⟩, ?_⟩
        · rw [ended.areg, areg_wP, areg_setA, addr]
        · rw [ended.preg, preg_wP, ite_self]
    · obtain ⟨t, run, ended⟩ := exec_flmTpop_empty (ad := ad) (pd := pd) alone slot noEnd check empty
      refine ⟨t, run, ended.issued, ended.frame.of_modSeq, ?_, ?_, ?_⟩
      · rw [ended.preg, preg_wP_false]
      · exact (ended.own Seq.hb fun _ _ => rfl).trans (own_wP Seq.hb (fun _ _ _ => rfl) ..)
      · exact (ended.own Seq.hbFlume fun _ _ => rfl).trans (own_wP Seq.hbFlume (fun _ _ _ => rfl) ..)
  · intro k m
    refine ⟨exec_flmNext_unscheduled alone slot, fun ptr round mode pick => ?_, fun f ptr round r mode pick check room ready plain => ?_⟩
    · obtain ⟨t, run, ended⟩ := exec_flmNext_finished (ad := ad) (pd := pd) alone slot noEnd mode pick
      obtain ⟨ptrPlace, roundPlace⟩ := schedPlace_ptr c
      have key := seqKey_lt c
      refine ⟨t, run, ended.issued, ?_, ?_, ?_, ended.flumes, ended.mem, ?_, ?_⟩
      · rw [ended.preg, preg_wP_false]
      · rw [ended.own Seq.stepEnded fun _ _ => rfl, own_wP Seq.stepEnded fun _ _ _ => rfl, State.seq_modSeq, if_pos rfl]
      · rw [ended.own Seq.hb fun _ _ => rfl, own_wP Seq.hb fun _ _ _ => rfl, State.seq_modSeq, if_pos rfl]
        rfl
      · rw [ended.frame.sched ptrPlace c.die.isLt, ← seqKey_div c, ← seqKey_mod c]
        exact schedAt_ptr ..
      · rw [ended.frame.sched roundPlace c.die.isLt, ← seqKey_div c, ← seqKey_mod c]
        exact schedAt_round ..
    · obtain ⟨t, run, ended⟩ := exec_flmNext_take (ad := ad) (pd := pd) alone slot noEnd mode pick check room ready plain
      obtain ⟨ptrPlace, roundPlace⟩ := schedPlace_ptr c
      have key := seqKey_lt c
      have took := ((took_seqTake (s := s.atRecord (seqKey c) ptr round) (k := seqKey c) ready plain key).wA ad
        (BitVec.ofNat 48 ((s.atRecord (seqKey c) ptr round).seqTake (seqKey c) f).2)).wP pd true
      have low {g : Fld} (place : SchedPlace g c.die.val) : g.a < 8 * 0x3000000 := by
        have := place.2
        have := c.die.isLt
        omega
      refine ⟨t, run, ended.issued, ?_, ?_, (ended.own Seq.hb fun _ _ => rfl).trans took.hb, (ended.own Seq.hbFlume fun _ _ => rfl).trans took.number,
        ended.mem, ?_, ?_, ?_, ?_⟩
      · rw [ended.preg, preg_wP, ite_self]
      · rw [ended.own Seq.stepEnded fun _ _ => rfl, took.step, State.atRecord, State.seq_modSeq, if_pos rfl]
      · rw [ended.areg, areg_wP, areg_setA, seqTake_eq (s := s.atRecord (seqKey c) ptr round) ready plain, slotAddr_atRecord s c]
      · rw [ended.flume, took.held]
        rfl
      · rw [ended.frame.sched ptrPlace c.die.isLt, took.regs _ (low ptrPlace), ← seqKey_div c, ← seqKey_mod c]
        exact schedAt_ptr ..
      · rw [ended.frame.sched roundPlace c.die.isLt, took.regs _ (low roundPlace), ← seqKey_div c, ← seqKey_mod c]
        exact schedAt_round ..

end Sys2Proof.Machine

namespace Sys2Proof.Machine

-- One proof at a time: threads that wait for each other hold memory.
set_option Elab.async false

/-! ## Memory that holds no bad unit (R385, R386) -/

/-- No bad word, listed granule or granule with a link error lies in the `n` bytes at `a`. -/
def State.sound (s : State) (a n : Nat) : Prop :=
  (∀ u ∈ s.bad, ¬ (a < u + 8 ∧ u < a + n)) ∧ (∀ u ∈ s.plist, ¬ (a < u + 64 ∧ u < a + n)) ∧ ∀ u ∈ s.linkErr, ¬ (a < u + 64 ∧ u < a + n)

theorem sound_of_badIn {s : State} {a n : Nat} (none : s.badIn a n = []) (some : 0 < n) : s.sound a n := by
  unfold State.badIn at none
  rw [if_neg some.ne', ← List.length_eq_zero_iff, List.length_mergeSort, List.length_eq_zero_iff, List.append_eq_nil_iff,
    List.append_eq_nil_iff] at none
  obtain ⟨⟨bad, plist⟩, link⟩ := none
  have noPlist : ∀ u ∈ s.plist, ¬ (a < u + 64 ∧ u < a + n) := fun u mem inside =>
    absurd (List.mem_filter.2 ⟨mem, decide_eq_true inside⟩) (plist ▸ List.not_mem_nil)
  refine ⟨fun u mem inside => absurd (List.mem_filter.2 ⟨mem, decide_eq_true inside⟩) (bad ▸ List.not_mem_nil), noPlist, fun u mem inside => ?_⟩
  have unlisted : s.plist.contains u = false := by
    by_contra listed
    exact noPlist u (List.contains_iff_mem.1 (Bool.eq_true_of_not_eq_false listed)) inside
  exact absurd (List.mem_filter.2 ⟨mem, by rw [decide_eq_true inside, unlisted]; rfl⟩) (link ▸ List.not_mem_nil)

theorem badIn_of_sound {s : State} {a n : Nat} (sound : s.sound a n) : s.badIn a n = [] := by
  obtain ⟨bad, plist, link⟩ := sound
  unfold State.badIn
  split
  · rfl
  · rw [List.filter_eq_nil_iff.2 fun u mem inside => bad u mem (of_decide_eq_true inside),
      List.filter_eq_nil_iff.2 fun u mem inside => plist u mem (of_decide_eq_true inside),
      List.filter_eq_nil_iff.2 fun u mem inside => link u mem (of_decide_eq_true (Bool.and_eq_true_iff.1 inside).1)]
    exact List.mergeSort_nil

theorem State.sound.mono {s : State} {a n b m : Nat} (sound : s.sound a n) (low : a ≤ b) (high : b + m ≤ a + n) : s.sound b m := by
  obtain ⟨bad, plist, link⟩ := sound
  refine ⟨fun u mem inside => bad u mem ?_, fun u mem inside => plist u mem ?_, fun u mem inside => link u mem ?_⟩ <;> omega

theorem sound_write {s : State} {a n : Nat} (b : Nat) (bs : List Byte) (sound : s.sound a n) : (s.write b bs).sound a n := by
  obtain ⟨bad, plist, link⟩ := sound
  exact ⟨fun u mem => bad u (List.mem_filter.1 mem).1, fun u mem => plist u (List.mem_filter.1 mem).1, fun u mem => link u (List.mem_filter.1 mem).1⟩

/-- In sound memory no byte that is written is dropped. -/
theorem not_dropsByte {s : State} {a n x : Nat} (sound : s.sound a n) (low : a ≤ x) (high : x < a + n) : s.dropsByte a n x = false := by
  obtain ⟨bad, plist, link⟩ := sound
  have clean : s.isBad x = false := by
    unfold State.isBad
    split
    · rw [Bool.or_eq_false_iff]
      constructor <;> refine Bool.eq_false_iff.2 fun has => ?_
      · exact plist _ (List.contains_iff_mem.1 has) (by omega)
      · exact link _ (List.contains_iff_mem.1 has) (by omega)
    · exact Bool.eq_false_iff.2 fun has => bad _ (List.contains_iff_mem.1 has) (by omega)
  rw [State.dropsByte, clean, Bool.false_and]

theorem find_putBytes {keep : Nat → Bool} (bs : List Byte) {a : Nat} (m : KMap Byte) (kept : ∀ x, a ≤ x → x < a + bs.length → keep x = false) (x : Nat) :
    KMap.find (fun _ => 0) (putBytes keep bs a m) x = if a ≤ x then bs.getD (x - a) (KMap.find (fun _ => 0) m x) else KMap.find (fun _ => 0) m x := by
  induction bs generalizing a m with
  | nil => simp [putBytes]
  | cons b bs ih =>
    unfold putBytes
    rw [kept a (Nat.le_refl a) (by simp), ih _ fun x low high => kept x (by omega) (by simp; omega)]
    simp only [Bool.false_eq_true, if_false, KMap.find_put]
    rcases Nat.lt_trichotomy x a with below | rfl | above
    · rw [if_neg (by omega : ¬ a + 1 ≤ x), if_neg (by omega : ¬ x = a), if_neg (by omega : ¬ a ≤ x)]
    · simp
    · rw [if_pos (by omega : a + 1 ≤ x), if_neg (by omega : ¬ x = a), if_pos (by omega : a ≤ x), show x - a = (x - (a + 1)) + 1 by omega]
      rfl

/-- What a write to sound memory leaves at each address. -/
theorem write_byte {s : State} {a : Nat} {bs : List Byte} (sound : s.sound a bs.length) (x : Nat) :
    (s.write a bs).byte x = if a ≤ x then bs.getD (x - a) (s.byte x) else s.byte x :=
  find_putBytes bs s.mem (fun _ low high => not_dropsByte sound low high) x

/-- What is left of a state beside its memory. -/
def State.unstored (s : State) : State := { s with mem := [], bad := [], soft := [], plist := [], linkErr := [] }

@[simp] theorem write_unstored (s : State) (a : Nat) (bs : List Byte) : (s.write a bs).unstored = s.unstored := rfl

/-! ### Copies of sound memory -/

theorem copyGranule_sound {s : State} {src dst : Nat} (sound : s.sound src 64) (free : s.quarLen = []) :
    s.copyGranule src dst = s.write dst (s.bytes src 64) := by
  rw [State.copyGranule, badIn_of_sound sound, State.quarUnits, free]
  rfl

theorem bytes_getD (s : State) (a n i : Nat) (d : Byte) : (s.bytes a n).getD i d = if i < n then s.byte (a + i) else d := by
  unfold State.bytes
  split
  · next inside => simp [List.getD_eq_getElem?_getD, inside]
  · next outside => simp [List.getD_eq_getElem?_getD, outside]

theorem length_bytes (s : State) (a n : Nat) : (s.bytes a n).length = n := by simp [State.bytes]

/-- A copy between sound ranges that do not overlap. -/
structure Copied (s t : State) (src dst n : Nat) : Prop where
  data  : ∀ i, i < n → t.byte (dst + i) = s.byte (src + i)
  other : SameMemBut s t dst n
  rest  : t.unstored = s.unstored

theorem copied_granules (n : Nat) : ∀ {s : State} {src dst : Nat}, s.sound src (64 * n) → s.sound dst (64 * n) → s.quarLen = [] →
    src + 64 * n ≤ dst ∨ dst + 64 * n ≤ src → Copied s (State.copyGranules n s src dst) src dst (64 * n) := by
  induction n with
  | zero => exact fun _ _ _ _ => ⟨fun i small => absurd small (Nat.not_lt_zero i), fun _ _ => rfl, rfl⟩
  | succ n ih =>
    intro s src dst from_ to_ free apart
    have byte (x : Nat) : (s.write dst (s.bytes src 64)).byte x = if dst ≤ x ∧ x < dst + 64 then s.byte (src + (x - dst)) else s.byte x := by
      rw [write_byte (by rw [length_bytes]; exact to_.mono (Nat.le_refl dst) (by omega)), bytes_getD]
      by_cases inside : dst ≤ x ∧ x < dst + 64
      · rw [if_pos inside, if_pos (by omega), if_pos (by omega)]
      · rw [if_neg inside]
        by_cases above : dst ≤ x
        · rw [if_pos above, if_neg (by omega)]
        · rw [if_neg above]
    obtain ⟨data, other, rest⟩ := ih (s := s.write dst (s.bytes src 64)) (src := src + 64) (dst := dst + 64)
      (sound_write _ _ (from_.mono (by omega) (by omega))) (sound_write _ _ (to_.mono (by omega) (by omega))) free (by omega)
    rw [State.copyGranules, copyGranule_sound (from_.mono (Nat.le_refl src) (by omega)) free]
    refine ⟨fun i small => ?_, fun x outside => ?_, rest⟩
    · by_cases first : i < 64
      · rw [other _ (by omega), byte, if_pos (by omega), Nat.add_sub_cancel_left]
      · have moved := data (i - 64) (by omega)
        rw [show dst + 64 + (i - 64) = dst + i by omega, show src + 64 + (i - 64) = src + i by omega] at moved
        rw [moved, byte, if_neg (by omega)]
    · rw [other _ (by omega), byte, if_neg (by omega)]

/-! ### Reads of sound memory correct single-bit errors only (R384) -/

/-- What is left of a state beside its single-bit errors and the registers. -/
def State.unfixed (s : State) : State := { s with soft := [], regs := [] }

theorem fixWord_unfixed (s : State) (u : Nat) : (s.fixWord u).unfixed = s.unfixed := by
  unfold State.fixWord
  dsimp only
  split <;> rfl

/-- The counters of corrected errors stand at bit 32 of their registers. -/
theorem corrFld_place {s : State} {u : Nat} {f : Fld} (corr : s.corrFld u = some f) : f.a % 64 = 32 := by
  unfold State.corrFld at corr
  split at corr <;> cases corr <;> simp only [R.HBM_ECC.corr, R.TS_ECC.corr] <;> omega

theorem fixWord_get (s : State) (u : Nat) {g : Fld} (other : g.a % 64 ≠ 32) : (s.fixWord u).get g = s.get g := by
  unfold State.fixWord
  dsimp only
  split
  · next f corr =>
    have place : f.a % 64 = 32 := corrFld_place corr
    exact State.get_count_other _ _ _ _ (by omega)
  · rfl

theorem fixSoft_unfixed (s : State) (a n : Nat) : (s.fixSoft a n).unfixed = s.unfixed := by
  unfold State.fixSoft
  split
  · rfl
  · generalize s.soft.filter _ = l
    induction l generalizing s with
    | nil => rfl
    | cons u l ih => exact (ih _).trans (fixWord_unfixed s u)

theorem fixSoft_get (s : State) (a n : Nat) {g : Fld} (other : g.a % 64 ≠ 32) : (s.fixSoft a n).get g = s.get g := by
  unfold State.fixSoft
  split
  · rfl
  · generalize s.soft.filter _ = l
    induction l generalizing s with
    | nil => rfl
    | cons u l ih => exact (ih _).trans (fixWord_get s u other)

theorem fixSoft_byte (s : State) (a n x : Nat) : (s.fixSoft a n).byte x = s.byte x := by
  have mem : (s.fixSoft a n).mem = s.mem := (congrArg State.mem (fixSoft_unfixed s a n) :)
  rw [State.byte, mem, State.byte]

theorem sound_fixSoft {s : State} {b m : Nat} (a n : Nat) (sound : s.sound b m) : (s.fixSoft a n).sound b m := by
  have same := fixSoft_unfixed s a n
  have bad : (s.fixSoft a n).bad = s.bad := (congrArg State.bad same :)
  have plist : (s.fixSoft a n).plist = s.plist := (congrArg State.plist same :)
  have link : (s.fixSoft a n).linkErr = s.linkErr := (congrArg State.linkErr same :)
  rwa [State.sound, bad, plist, link]

theorem noteRead_of_badIn {s : State} {ctx : Option Nat} {a n : Nat} (none : s.badIn a n = []) : s.noteRead ctx a n = s.fixSoft a n := by
  rw [State.noteRead, none, List.foldl_nil]

end Sys2Proof.Machine

namespace Sys2Proof.Machine

-- One proof at a time: threads that wait for each other hold memory.
set_option Elab.async false

/-! ## Release (R136, R141) -/

theorem length_dropFirst {p : FlmRec → Bool} {l : List FlmRec} {r : FlmRec} (first : l.find? p = some r) : (dropFirst p l).length + 1 = l.length := by
  induction l with
  | nil => cases first
  | cons x l ih =>
    unfold dropFirst
    by_cases hit : p x = true
    · rw [if_pos hit, List.length_cons]
    · rw [List.find?_cons_of_neg hit] at first
      rw [if_neg hit, List.length_cons, ih first, List.length_cons]

theorem flag_eq_false {s : State} {f : Fld} (zero : s.get f = 0) : s.flag f = false := decide_eq_false (zero ▸ zero_ne_one)

theorem exec_flmRel {s : State} {c : SlotCtl} {f : BitVec 13} {r : FlmRec} (alone : s.Alone c) (slot : c.slot = 3) (noEnd : s.NoLoopEnd (seqKey c))
    (check : s.flmSeqCheck (seqKey c) f.toNat false = none) (held : (s.flume f.toNat).oldestHeld (seqKey c) = some r)
    (near : s.get (R.FLM_DESC.remote f.toNat) = 0) : ∃ t, exec (.flmRel c (.imm f)) s = .next t ∧ Ended s (s.setFlm f.toNat { s.flume f.toNat with
      recs := dropFirst (fun r => r.held && decide (r.holder = seqKey c)) (s.flume f.toNat).recs
      ret := (s.flume f.toNat).ret + 1 }) t (seqKey c) := by
  have chk : (opFlmRel (seqKey c) (.imm f)).chk s = none := by
    change (s.flmSeqCheck (seqKey c) f.toNat false).orElse (fun _ => firstExc [(((s.flume f.toNat).oldestHeld (seqKey c)).isNone, _)]) = none
    rw [check, Option.orElse_none, held]
    rfl
  have issues : Issues s c (.flmRel c (.imm f)) (opFlmRel (seqKey c) (.imm f)) :=
    ⟨alone, rfl, rfl, slot3 slot, noPending_of_none rfl rfl rfl, chk, rfl, rfl, rfl, by simp [opFlmRel]⟩
  refine exec_calm issues ?_ (calm_setFlm s _ _ (seqKey_lt c)) noEnd
  change s.releaseRec (seqKey c) f.toNat = _
  rw [State.releaseRec, held]
  simp only [flag_eq_false near, Bool.false_eq_true, if_false]

/-! ## The arrival of a commit (R137, R141) -/

/-- Records that are not committed stay behind those that are. -/
theorem modFirst_back {p : FlmRec → Bool} {g : FlmRec → FlmRec} (behind : ∀ r, p r = true → r.cmt = false) (l : List FlmRec) :
    (modFirst p g l).drop (l.takeWhile (fun r => r.cmt)).length = modFirst p g (l.dropWhile (fun r => r.cmt)) := by
  induction l with
  | nil => rfl
  | cons x l ih =>
    cases cmt : x.cmt with
    | false => simp [cmt]
    | true =>
      have miss : p x = false := by
        by_contra hit
        exact absurd (behind x (Bool.eq_true_of_not_eq_false hit)) (cmt ▸ Bool.noConfusion)
      simp only [cmt, List.takeWhile_cons_of_pos, List.length_cons, List.dropWhile_cons_of_pos]
      rw [← ih]
      simp [modFirst, miss]

/-- The committed records at the front of the order, once the first record that `p` names, not committed before, is. -/
theorem run_modFirst {p : FlmRec → Bool} {g : FlmRec → FlmRec} (behind : ∀ r, p r = true → r.cmt = false) (commits : ∀ r, (g r).cmt = true)
    {l : List FlmRec} {r : FlmRec} (first : l.find? p = some r) :
    (l.head? = some r → ((modFirst p g l).takeWhile (fun r => r.cmt)).length = 1 + (l.tail.takeWhile (fun r => r.cmt)).length) ∧
    (l.head? ≠ some r → l.head?.any (fun r => r.cmt) = false → ((modFirst p g l).takeWhile (fun r => r.cmt)).length = 0) := by
  cases l with
  | nil => cases first
  | cons x l =>
    by_cases hit : p x = true
    · rw [List.find?_cons_of_pos hit] at first
      refine ⟨fun _ => ?_, fun other => absurd first other⟩
      rw [modFirst, if_pos hit, List.takeWhile_cons_of_pos (commits x), List.length_cons, Nat.add_comm]
      rfl
    · refine ⟨fun same => ?_, fun _ uncommitted => ?_⟩
      · cases same
        exact absurd (List.find?_some first) hit
      · rw [modFirst, if_neg hit, List.takeWhile_cons_of_neg (by simpa using uncommitted)]
        rfl

theorem head_dropWhile_cmt (l : List FlmRec) : (l.dropWhile (fun r => r.cmt)).head?.any (fun r => r.cmt) = false := by
  induction l with
  | nil => rfl
  | cons x l ih => cases cmt : x.cmt <;> simp [cmt, ih]

theorem find?_back {p : FlmRec → Bool} (behind : ∀ r, p r = true → r.cmt = false) (l : List FlmRec) :
    (l.dropWhile (fun r => r.cmt)).find? p = l.find? p := by
  induction l with
  | nil => rfl
  | cons x l ih =>
    cases cmt : x.cmt with
    | false => rw [List.dropWhile_cons_of_neg (by simp [cmt])]
    | true =>
      rw [List.dropWhile_cons_of_pos cmt, ih, List.find?_cons_of_neg fun hit => absurd (behind x hit) (cmt ▸ Bool.noConfusion)]

/-- The header with which the commit of record `r` arrives as number `n` (R135). -/
def FlmRec.numbered (r : FlmRec) (prod n : Nat) : Hdr :=
  { r.hdr with prod := prod, rseq := n, redeliv := false, poison := r.hdr.poison || r.bad }

/-- A record that commits with that header. -/
def FlmRec.commitAt (r : FlmRec) (prod n : Nat) (x : FlmRec) : FlmRec := { x with hdr := r.numbered prod n, cmt := true }

/-- The commit of the first record that is on its way. -/
structure Committed (s t : State) (f : Nat) (r : FlmRec) : Prop where
  mem  : SameMem s t
  seqs : t.seqs = s.seqs
  recs : (t.flume f).recs = modFirst (fun r => r.sent && !r.cmt) (r.commitAt (s.get (R.FLM_DESC.prod f))
    ((s.get (R.FLM_SEQ.next_cmt f) + (s.flume f).back.findIdx (fun r => r.sent && !r.cmt)) % 2 ^ 32)) (s.flume f).recs
  next : t.get (R.FLM_SEQ.next_cmt f) = (s.get (R.FLM_SEQ.next_cmt f) +
    (((t.flume f).recs.drop (s.flume f).front.length).takeWhile (fun r => r.cmt)).length) % 2 ^ 32
  count : t.get (R.FLM_CNT.records f) = min (s.get (R.FLM_CNT.records f) + 1) (2 ^ 48 - 1)
  desc : ∀ g : Fld, g.a < 8 * 0x3080000 → t.get g = s.get g

/-- The flume once the record is committed, before poison is counted. -/
def State.commitAs (s : State) (f : Nat) (recs : List FlmRec) : State :=
  ((s.setFlm f { s.flume f with recs := recs }).put (R.FLM_SEQ.next_cmt f)
    (s.get (R.FLM_SEQ.next_cmt f) + ((recs.drop (s.flume f).front.length).takeWhile (fun r => r.cmt)).length)).count (R.FLM_CNT.records f) 1

theorem arriveCommit_cases {s : State} {f : Nat} {r : FlmRec} (first : (s.flume f).recs.find? (fun r => r.sent && !r.cmt) = some r) :
    ∃ recs, recs = modFirst (fun r => r.sent && !r.cmt) (r.commitAt (s.get (R.FLM_DESC.prod f))
        ((s.get (R.FLM_SEQ.next_cmt f) + (s.flume f).back.findIdx (fun r => r.sent && !r.cmt)) % 2 ^ 32)) (s.flume f).recs ∧
      (s.arriveCommit f = s.commitAs f recs ∨ s.arriveCommit f = (s.commitAs f recs).count (R.FLM_CNT.poison f) 1) := by
  refine ⟨_, rfl, ?_⟩
  rw [State.arriveCommit, State.commitRec, first]
  cases poison : r.hdr.poison || r.bad with
  | false => exact .inl (if_neg (by simp [poison]))
  | true => exact .inr (if_pos poison)

theorem commitAs_unflumed (s : State) (f : Nat) (recs : List FlmRec) : (s.commitAs f recs).unflumed = s.unflumed := by
  simp only [State.commitAs, count_unflumed, put_unflumed, setFlm_unflumed]

theorem commitAs_get (s : State) {f : Nat} (recs : List FlmRec) {g : Fld} (low : g.a < 8 * 0x3080000) : (s.commitAs f recs).get g = s.get g := by
  rw [State.commitAs, State.get_count_other, State.get_put_other, setFlm_get] <;>
    simp only [R.FLM_SEQ.next_cmt, R.FLM_CNT.records, R.FLM_STAT.above_hi] <;> omega

theorem committed_commitAs {s : State} {f : Nat} {r : FlmRec} {recs : List FlmRec} (small : f < 8192)
    (commits : recs = modFirst (fun r => r.sent && !r.cmt) (r.commitAt (s.get (R.FLM_DESC.prod f))
        ((s.get (R.FLM_SEQ.next_cmt f) + (s.flume f).back.findIdx (fun r => r.sent && !r.cmt)) % 2 ^ 32)) (s.flume f).recs) : Committed s (s.commitAs f recs) f r := by
  have flume : (s.commitAs f recs).flume f = { s.flume f with recs := recs } := (setFlm_flume ..).trans (if_pos rfl)
  have same := commitAs_unflumed s f recs
  refine ⟨sameMem_of_unflumed same, seqs_of_unflumed same, by rw [flume, commits], ?_, ?_, fun g low => commitAs_get s recs low⟩
  · rw [flume, State.commitAs, State.get_count_other _ _ _ _ (by simp only [R.FLM_SEQ.next_cmt, R.FLM_CNT.records]; omega), State.get_put_same]
    rfl
  · rw [State.commitAs, State.get_count_same, State.get_put_other _ _ _ _ (by simp only [R.FLM_SEQ.next_cmt, R.FLM_CNT.records]; omega),
      setFlm_get _ _ (by simp only [R.FLM_CNT.records, R.FLM_STAT.above_hi]; omega)]
    rfl

/-- A counter of poisoned records does not touch that. -/
theorem Committed.count_poison {s t : State} {f : Nat} {r : FlmRec} (committed : Committed s t f r) (small : f < 8192) :
    Committed s (t.count (R.FLM_CNT.poison f) 1) f r := by
  refine ⟨committed.mem.trans (sameMem_of_unflumed (count_unflumed ..)), committed.seqs, committed.recs, ?_, ?_, fun g low => ?_⟩
  · rw [State.get_count_other _ _ _ _ (by simp only [R.FLM_SEQ.next_cmt, R.FLM_CNT.poison]; omega), committed.next]
    rfl
  · rw [State.get_count_other _ _ _ _ (by simp only [R.FLM_CNT.records, R.FLM_CNT.poison]; omega), committed.count]
  · rw [State.get_count_other _ _ _ _ (by simp only [R.FLM_CNT.poison]; omega), committed.desc g low]

theorem committed_arriveCommit {s : State} {f : Nat} {r : FlmRec} (first : (s.flume f).recs.find? (fun r => r.sent && !r.cmt) = some r) (small : f < 8192) :
    Committed s (s.arriveCommit f) f r := by
  obtain ⟨recs, commits, same | same⟩ := arriveCommit_cases first
  · rw [same]
    exact committed_commitAs small commits
  · rw [same]
    exact (committed_commitAs small commits).count_poison small

theorem sendRemote_local {s : State} {f : Nat} (near : s.get (R.FLM_DESC.remote f) = 0) : s.sendRemote f = s := by
  rw [State.sendRemote, flag_eq_false near]
  rfl

theorem exec_flmCommitArrival {s : State} {f : Fin 8192} {r : FlmRec} (first : (s.flume f.val).recs.find? (fun r => r.sent && !r.cmt) = some r)
    (near : s.get (R.FLM_DESC.remote f.val) = 0) : ∃ t, exec (.flmCommitArrival f) s = .next t ∧ Committed s t f.val r := by
  have acked := ackPkt_unrouted s (laneOf r.owner) 3 (ldOfOwner r.owner f) (ldOfFlume f)
  have get := get_of_unrouted acked
  have flume := flume_of_flumes (flumes_of_unrouted acked) f.val
  obtain ⟨mem', seqs', recs, next, count, desc⟩ :=
    committed_arriveCommit (s := s.ackPkt (laneOf r.owner) 3 (ldOfOwner r.owner f) (ldOfFlume f)) (f := f) (by rw [flume]; exact first) f.isLt
  rw [flume, get] at recs next
  rw [get] at recs count
  refine ⟨_, ?_, (sameMem_of_unrouted acked).trans mem', seqs'.trans (seqs_of_unrouted acked), recs, next, count, fun g low => (desc g low).trans (get g)⟩
  have near' := (desc (R.FLM_DESC.remote f) (by simp only [R.FLM_DESC.remote]; omega)).trans ((get _).trans near)
  rw [exec, execFlmCommitArrival, first, sendRemote_local near']

/-! ## Notices, credits and the spill copy (R141, R143) -/

/-- A command that replaces one flume. -/
theorem setFlm_only (s : State) (f : Nat) (x : Flume) : (s.setFlm f x).flume f = x ∧ SameMem s (s.setFlm f x) ∧ (s.setFlm f x).seqs = s.seqs :=
  ⟨(setFlm_flume ..).trans (if_pos rfl), sameMem_of_unflumed (setFlm_unflumed ..), seqs_of_unflumed (setFlm_unflumed ..)⟩

theorem exec_flmReadyNotice {s : State} {f : Fin 8192} {r : FlmRec} {l : List FlmRec} (recs : (s.flume f.val).recs = r :: l) (cmt : r.cmt = true)
    (new : r.ready = false) : exec (.flmReadyNotice f) s = .next (s.setFlm f.val { s.flume f.val with recs := { r with ready := true } :: l }) := by
  rw [exec, execFlmReadyNotice, recs, readyFirst, cmt, new]
  rfl

theorem exec_flmCreditReturn {s : State} {f : Fin 8192} (some : 0 < (s.flume f.val).ret) : exec (.flmCreditReturn f) s =
    .next (s.setFlm f.val { s.flume f.val with ret := (s.flume f.val).ret - 1, out := (s.flume f.val).out - 1 }) := by
  simp only [exec, execFlmCreditReturn, some, if_true]

theorem exec_flmSpillCopy {s : State} {f : Fin 8192} {r : FlmRec} {i : Nat} (spilled : (s.flume f.val).oldestSpilled = some r)
    (free : s.freeSlot f.val = some (false, i)) (idle : (s.flume f.val).copy = none) :
    exec (.flmSpillCopy f) s = .next (s.setFlm f.val { s.flume f.val with copy := some (r.hdr.rseq, i) }) := by
  rw [exec, execFlmSpillCopy, spilled, free, idle]

section
variable {s : State} {f : Fin 8192} {r : FlmRec} {i : Nat} {l : List FlmRec}

/-- The state once the payload of a spilled record is copied. -/
def State.spillCopied (s : State) (f : Nat) (r : FlmRec) (i : Nat) : State :=
  let u := s.noteRead (some (s.get (R.FLM_DESC.ctx f))) (s.slotAddr f true r.slot) (s.get (R.FLM_DESC.rec_size f) * 4096)
  State.copyGranules (s.get (R.FLM_DESC.rec_size f) * 64) u (s.slotAddr f true r.slot) (s.slotAddr f false i)

theorem slotAddr_fixSoft (s : State) (a n f i : Nat) (sp : Bool) : (s.fixSoft a n).slotAddr f sp i = s.slotAddr f sp i := by
  apply slotAddr_congr <;> apply fixSoft_get <;> simp only [R.FLM_DESC.spill_base, R.FLM_DESC.store_base, R.FLM_DESC.rec_size] <;> omega

theorem exec_flmSpillCopyDone (copy : (s.flume f.val).copy = some (r.hdr.rseq, i)) (recs : (s.flume f.val).recs = r :: l) (cmt : r.cmt = true)
    (spill : r.spill = true) (free : r.held = false) (sound : s.badIn (s.slotAddr f.val true r.slot) (s.get (R.FLM_DESC.rec_size f.val) * 4096) = []) :
    exec (.flmSpillCopyDone f) s = .next ((s.spillCopied f.val r i).setFlm f.val
      { s.flume f.val with recs := { r with spill := false, slot := i } :: l, copy := none }) := by
  have size : 64 * (s.get (R.FLM_DESC.rec_size f.val) * 64) = s.get (R.FLM_DESC.rec_size f.val) * 4096 := by omega
  rw [exec, execFlmSpillCopyDone, State.spillCopied]
  simp only [copy, recs, List.find?_cons, modFirst, cmt, spill, free, Bool.not_false, Bool.and_self, decide_true, if_true, size,
    noteRead_of_badIn sound, slotAddr_fixSoft]

theorem spillCopied_copied (clean : s.badIn (s.slotAddr f.val true r.slot) (s.get (R.FLM_DESC.rec_size f.val) * 4096) = [])
    (room : s.badIn (s.slotAddr f.val false i) (s.get (R.FLM_DESC.rec_size f.val) * 4096) = []) (quar : s.quarLen = [])
    (apart : s.slotAddr f.val true r.slot + s.get (R.FLM_DESC.rec_size f.val) * 4096 ≤ s.slotAddr f.val false i ∨
      s.slotAddr f.val false i + s.get (R.FLM_DESC.rec_size f.val) * 4096 ≤ s.slotAddr f.val true r.slot) :
    (∀ j, j < s.get (R.FLM_DESC.rec_size f.val) * 4096 →
      (s.spillCopied f.val r i).byte (s.slotAddr f.val false i + j) = s.byte (s.slotAddr f.val true r.slot + j)) ∧
    SameMemBut s (s.spillCopied f.val r i) (s.slotAddr f.val false i) (s.get (R.FLM_DESC.rec_size f.val) * 4096) := by
  rcases Nat.eq_zero_or_pos (s.get (R.FLM_DESC.rec_size f.val) * 4096) with zero | some
  · have empty : s.get (R.FLM_DESC.rec_size f.val) = 0 := by omega
    rw [State.spillCopied, noteRead_of_badIn clean, empty]
    exact ⟨fun j small => absurd small (Nat.not_lt_zero j), fun x _ => fixSoft_byte ..⟩
  · have size : 64 * (s.get (R.FLM_DESC.rec_size f.val) * 64) = s.get (R.FLM_DESC.rec_size f.val) * 4096 := by omega
    have quar' : (s.fixSoft (s.slotAddr f.val true r.slot) (s.get (R.FLM_DESC.rec_size f.val) * 4096)).quarLen = [] :=
      (congrArg State.quarLen (fixSoft_unfixed ..) :).trans quar
    obtain ⟨data, other, -⟩ := copied_granules (s.get (R.FLM_DESC.rec_size f.val) * 64)
      (s := s.fixSoft (s.slotAddr f.val true r.slot) (s.get (R.FLM_DESC.rec_size f.val) * 4096))
      (src := s.slotAddr f.val true r.slot) (dst := s.slotAddr f.val false i)
      (by rw [size]; exact sound_fixSoft _ _ (sound_of_badIn clean some)) (by rw [size]; exact sound_fixSoft _ _ (sound_of_badIn room some)) quar'
      (by rw [size]; exact apart)
    rw [size] at data other
    rw [State.spillCopied, noteRead_of_badIn clean]
    exact ⟨fun j small => (data j small).trans (fixSoft_byte ..), fun x outside => (other x outside).trans (fixSoft_byte ..)⟩

end

/-- Settles O10. -/
theorem flumeHandOffAndSpill : Obligations.FlumeHandOffAndSpill := by
  refine ⟨⟨fun s c f r alone slot noEnd => ?_, fun s f r first near => ?_, fun s f r l recs cmt new => ?_, fun s f some => ?_⟩,
    fun s f => ⟨fun r i spilled free idle => ?_, fun r i l copy recs cmt spill free quar => ?_⟩⟩
  · intro k check held near
    obtain ⟨t, run, ended⟩ := exec_flmRel alone slot noEnd check held near
    have flume := (ended.flume f.toNat).trans ((setFlm_flume ..).trans (if_pos rfl))
    refine ⟨t, run, ended.issued, ended.mem, ended.seqs, by rw [flume], ?_, by rw [flume]⟩
    rw [flume]
    exact length_dropFirst held
  · intro n back
    obtain ⟨t, run, mem, seqs, recs, next, count, desc⟩ := exec_flmCommitArrival first near
    have behind (r : FlmRec) (hit : (r.sent && !r.cmt) = true) : r.cmt = false := by simpa using (Bool.and_eq_true_iff.1 hit).2
    have inBack : back.find? (fun r => r.sent && !r.cmt) = some r := (find?_back behind _).trans first
    rw [recs, Flume.front, modFirst_back behind] at next
    obtain ⟨atHead, behindHead⟩ := run_modFirst behind (g := r.commitAt (s.get (R.FLM_DESC.prod f))
      ((s.get (R.FLM_SEQ.next_cmt f) + (s.flume f).back.findIdx (fun r => r.sent && !r.cmt)) % 2 ^ 32)) (fun _ => rfl) inBack
    refine ⟨t, run, mem, seqs, fun head => ?_, fun head => ?_, count,
      r.commitAt (s.get (R.FLM_DESC.prod f)) ((n + back.findIdx (fun r => r.sent && !r.cmt)) % 2 ^ 32) r, recs ▸ mem_modFirst first,
      rfl, rfl, rfl, rfl, rfl, rfl⟩
    · rw [next, atHead head, ← Nat.add_assoc]
    · rw [next, behindHead head (head_dropWhile_cmt _), Nat.add_zero]
  · exact ⟨_, exec_flmReadyNotice recs cmt new, by rw [(setFlm_only ..).1], (setFlm_only ..).2⟩
  · exact ⟨_, exec_flmCreditReturn some, by rw [(setFlm_only ..).1], by rw [(setFlm_only ..).1], by rw [(setFlm_only ..).1], (setFlm_only ..).2⟩
  · exact ⟨_, exec_flmSpillCopy spilled free idle, by rw [(setFlm_only ..).1], by rw [(setFlm_only ..).1], (setFlm_only ..).2.1⟩
  · intro b src dst clean room apart
    obtain ⟨data, other⟩ := spillCopied_copied (f := f) clean room quar apart
    exact ⟨_, exec_flmSpillCopyDone copy recs cmt spill free clean, by rw [(setFlm_only ..).1], by rw [(setFlm_only ..).1],
      fun j small => ((setFlm_only ..).2.1.1 _).trans (data j small), fun x outside => ((setFlm_only ..).2.1.1 x).trans (other x outside)⟩

end Sys2Proof.Machine

namespace Sys2Proof.Machine

-- The kernel runs the model here: one run at a time bounds the threads that wait for it.
set_option Elab.async false

/-! ## A refused product whose descriptor holds a single-bit error (R109, R238) -/

/-- The tile store begins with a descriptor of layout 1, whose first word has a single-bit error. -/
def softDescriptor : State := { stateRun with mem := [(tileBase 0, 1)], soft := [tileBase 0] }

/-- MMA of a reserved format code. -/
def reservedFormat : Instr := .mma (slotAt 1) 12 0 0 true 0

theorem softDescriptor_ready : softDescriptor.readyFor 1 reservedFormat = true := by decide +kernel

theorem softDescriptor_corrected : (stateAfter reservedFormat softDescriptor).soft = [] := by decide +kernel

theorem softDescriptor_takeExc : (softDescriptor.takeExc 0 1 (exc E.MMA_FMT_CODE (16 * 12))).soft = [tileBase 0] := by decide +kernel

/-- Refutes O15: the refused MMA has read its descriptor, so the single-bit error in it is corrected and counted besides the exception. -/
theorem not_arrayInstructions : ¬ Obligations.ArrayInstructions := by
  intro holds
  obtain ⟨alone, noEnd, free⟩ := ready_facts softDescriptor_ready
  obtain ⟨products, -⟩ := holds softDescriptor (slotAt 1) alone rfl noEnd
  obtain ⟨-, -, refused⟩ := products reservedFormat 12 0 0 true 0 none (.inl ⟨rfl, rfl⟩)
  have run := refused free (by decide +kernel) (by decide +kernel) (by decide +kernel) (.inl (by decide))
  have soft := congrArg State.soft (stateAfter_of_next run)
  rw [softDescriptor_corrected] at soft
  exact absurd (soft.trans softDescriptor_takeExc) (by decide)

end Sys2Proof.Machine

namespace Sys2Proof.Machine

-- The kernel runs the model here: one run at a time bounds the threads that wait for it.
set_option Elab.async false

/-! ## An array whose clock is gated (R94, R494) -/

/-- Array 0 of die 0 rises at level 3 and has been there long enough, but the block is in Proof, where the clocks of the compute dies stand. -/
def gatedRise : State :=
  (stateUp.puts [(R.PWR_STAT.rung, 1), (R.PWR_STAT.ceiling, 8)]).setArr 0 0 { Arr.empty with mode := .rising, level := 3, g := 0 }

theorem gatedRise_level : ((stateAfter (.activityLevelStep 0 0) gatedRise).arr 0 0).level = 3 := by decide +kernel

/-- Refutes O16: the level of a rising array does not step while the clocks are gated, of which the clause says nothing. -/
theorem not_arrayProgress : ¬ Obligations.ArrayProgress := by
  intro holds
  obtain ⟨-, -, -, -, rising, -⟩ := holds gatedRise 0 0
  obtain ⟨low, -⟩ := rising (by decide +kernel) (by decide +kernel) (by decide +kernel) (by decide +kernel)
  have run := low (by decide +kernel)
  have level : ((stateAfter (.activityLevelStep 0 0) gatedRise).arr 0 0).level = 4 := by
    rw [stateAfter_of_next run]
    decide +kernel
  exact absurd (gatedRise_level.symm.trans level) (by decide)

end Sys2Proof.Machine

namespace Sys2Proof.Machine

-- The kernel runs the model here: one run at a time bounds the threads that wait for it.
set_option Elab.async false

/-! ## An exception of another code that carries a refused access (R449, R537) -/

/-- An exception SEQ_PC that also says which access was refused. -/
def refusedAccess : Exc := ⟨E.SEQ_PC, 0, some (0, 1, 0, false)⟩

theorem refusedAccess_logged_twice : (State.reset.takeExc 0 0 refusedAccess).get R.RAS_LOGHD.newest = 2 := by decide +kernel

/-- Refutes O20: an exception of a code other than SEC_PERM that carries a refused access makes two log entries. -/
theorem not_takingAnException : ¬ Obligations.TakingAnException := by
  intro holds
  obtain ⟨-, -, -, -, -, -, newest, -⟩ :=
    holds State.reset 0 0 0 refusedAccess (by decide) (by decide) (by decide +kernel) (by decide +kernel) (by decide +kernel)
  exact absurd (refusedAccess_logged_twice.symm.trans newest) (by decide +kernel)

end Sys2Proof.Machine

namespace Sys2Proof.Machine

-- The kernel runs the model here: one run at a time bounds the threads that wait for it.
set_option Elab.async false

/-! ## A load that waits for memory to wake (R202, R392) -/

/-- Sequencer 0 is LOADING on rung 2 and no window permits its image. -/
def loadAsleep : State := State.reset.puts [(R.SEQ_STAT.state 0 0, 1), (R.PWR_STAT.rung, 2)]

theorem loadAsleep_waits : (stateAfter (.seqLoadComplete 0 0) loadAsleep).seqState 0 = seqLOADING := by decide +kernel

/-- Refutes O19: while memory sleeps a load that will be refused stays LOADING. -/
theorem not_sequencerBindingAndRegisters : ¬ Obligations.SequencerBindingAndRegisters := by
  intro holds
  obtain ⟨-, -, loads⟩ := holds.1 loadAsleep 0 0
  obtain ⟨-, refused⟩ := loads (by decide +kernel) (by decide +kernel)
  obtain ⟨t, run, unbound, -⟩ := refused 5 false (by decide +kernel) (by decide)
  have waits := loadAsleep_waits
  rw [stateAfter_of_next run] at waits
  exact absurd (waits.symm.trans unbound) (by decide)

end Sys2Proof.Machine

namespace Sys2Proof.Machine

-- The kernel runs the model here: one run at a time bounds the threads that wait for it.
set_option Elab.async false

/-! ## A re-key behind a marker that no block holds (R413) -/

/-- A session whose sending direction waits for the end of a block that has no frame. -/
def emptyMarked : SkwLink := { SkwLink.empty with tx := 1, txBlk := 2 ^ 31, marked := true }

/-- Link 0 is UP with that session. -/
def linkMarked : State := { State.reset.put (R.SKW_LINK.state 0) 3 with links := [(0, emptyMarked)] }

theorem linkMarked_keeps_block : ((stateAfter (.skwRekeyCount 0) linkMarked).skw 0).txBlk = 2 ^ 31 := by decide +kernel

/-- Refutes O26: a session that is marked while no block is open does not take its new key. -/
theorem not_skidwaySessions : ¬ Obligations.SkidwaySessions := by
  intro holds
  obtain ⟨-, -, -, -, -, -, -, -, -, -, -, -, rekeys, -⟩ := holds linkMarked 0
  obtain ⟨t, run, -, -, -, -, -, -, fresh⟩ := rekeys (by decide +kernel) (.inl (by decide +kernel))
  obtain ⟨block, -⟩ := fresh (by decide +kernel) (by decide +kernel)
  have keeps := linkMarked_keeps_block
  rw [stateAfter_of_next run] at keeps
  exact absurd (keeps.symm.trans block) (by decide)

end Sys2Proof.Machine

namespace Sys2Proof.Machine

-- The kernel runs the model here: one run at a time bounds the threads that wait for it.
set_option Elab.async false

/-! ## A drawn table that waits for the last stage to leave FWD/BWD (R266) -/

/-- A table of two stages, one after the other, of replica 0. -/
def twoStages : CutTable := ⟨[], [List.replicate 16 0, [0, 0, 1] ++ List.replicate 13 0], []⟩

/-- An empty table. -/
def noStages : CutTable := ⟨[], [], []⟩

/-- One open flume joins the two stages of the table in force; the foreman has drawn the empty table and the one active stage is in OPT. -/
def drawnState : State :=
  { State.reset.puts [(R.FLM_STAT.state 0, flmOPEN), (R.FLM_DESC.cons 0, 1), (R.SEQ_STAT.state 0 0, 2), (R.CUT_PH.active 0, 1),
      (R.CUT_PH.phase 0, 1), (R.FLM_BAL_CTL.steps, 0)]
    with cutForce := [(0, some twoStages)], jobs := [(0, { Job.empty with drawn := some noStages })] }

theorem drawnState_in_force : (stateAfter (.foremanStepBoundary 0 0) drawnState).cutForce = [(0, some noStages)] := by decide +kernel

/-- Refutes O31: at the step boundary a table that has been drawn comes into force. -/
theorem not_cutTables : ¬ Obligations.CutTables := by
  intro holds
  obtain ⟨-, -, -, boundary, -⟩ := holds
  obtain ⟨t, run, -, -, -, force, -⟩ := boundary drawnState 0 0 0 twoStages (List.replicate 16 0) ([0, 0, 1] ++ List.replicate 13 0)
    (by decide +kernel) (by decide) (by decide +kernel) (by decide +kernel) (by decide +kernel) (by decide +kernel) (by decide +kernel)
    (by decide +kernel) (by decide +kernel) (by decide +kernel) (by decide +kernel) (by decide +kernel) (by decide +kernel)
  have drawn := drawnState_in_force
  rw [stateAfter_of_next run] at drawn
  exact absurd (drawn.symm.trans force) (by decide)

end Sys2Proof.Machine

namespace Sys2Proof.Machine

-- The kernel runs the model here: one run at a time bounds the threads that wait for it.
set_option Elab.async false

/-! ## A source whose one queue slot is taken (R326) -/

/-- The entry of a haul from source 0. -/
def plainHaul : List Byte := [1]

/-- A request on source 0 whose manifest read is in flight on queue 0. -/
def readingManifest : HaulReq :=
  { origin := .ring, entry := plainHaul, man := [], mread := some ⟨0, 0, false, 0, true⟩, keys := none, phase := 0, next := 0, opn := [], reads := []
    bad := 0, status := 0 }

/-- Source 0 is up with one queue of depth 1. Channel 0 has a foreman's request for it; the list of channels names channel 5 twice, and its second entry
holds the read that takes the queue's slot. -/
def queueTaken : State :=
  { State.reset.puts [(R.HAUL_CHAN.en 0, 1), (R.HAUL_SRC.en 0, 1), (R.HAUL_SSTAT.state 0, 2)] with
    srcConn := [(0, List.replicate 546 0 ++ [1, 0, 1])]
    hauls := [(0, ⟨none, [(.ring, plainHaul)]⟩), (5, ⟨none, []⟩), (5, ⟨some readingManifest, []⟩)] }

theorem queueTaken_waits :
    ((stateAfter (.haulRequestHaul 0) queueTaken).haul 0).req.bind HaulReq.mread = none := by decide +kernel

theorem queueTaken_others (d : Nat) (other : d ≠ 0) : (queueTaken.haul d).req = none := by
  by_cases five : d = 5
  · subst five
    decide +kernel
  · rw [State.haul, show queueTaken.hauls = [(0, ⟨none, [(.ring, plainHaul)]⟩), (5, ⟨none, []⟩), (5, ⟨some readingManifest, []⟩)] from rfl]
    simp only [KMap.find, if_neg other, if_neg five]

/-- Refutes O34: a source whose list of channels holds a shadowed read has no room, although no channel but the one that asks has a request. -/
theorem not_haulRequests : ¬ Obligations.HaulRequests := by
  intro holds
  obtain ⟨-, takes, -⟩ := holds
  obtain ⟨-, begins⟩ := takes queueTaken 0 plainHaul .ring
  obtain ⟨t, run, -, -, -, u, req, -, -, -, -, -, taken⟩ :=
    begins (by decide +kernel) (.inl ⟨[], by decide +kernel⟩) (.haulRequestHaul 0) (.inl ⟨rfl, fun none => absurd none (by decide +kernel)⟩)
  rw [if_pos (by decide +kernel)] at taken
  obtain ⟨-, -, -, reads⟩ := taken
  obtain ⟨-, goes⟩ := reads (by decide +kernel) (fun d other q some => absurd ((queueTaken_others d other).symm.trans some) (by simp))
  obtain ⟨⟨x, mread, -⟩, -⟩ := goes (by decide +kernel)
  have waits := queueTaken_waits
  rw [stateAfter_of_next run, show (t.haul 0).req = some u from req, Option.bind_some, mread] at waits
  exact absurd waits (by simp)

end Sys2Proof.Machine

namespace Sys2Proof.Machine

-- The kernel runs the model here: one run at a time bounds the threads that wait for it.
set_option Elab.async false

/-! ## A connection descriptor whose error is reported in the register that names it (R326, R386) -/

/-- The address of the descriptor: the page whose error counters stand where HAUL_CONN of source 0 does, on a device of very many stacks. -/
def reportedAt : Nat := 4096 * 0x37A900

/-- Source 0 is to be committed; a word of its connection descriptor has an uncorrectable error. -/
def sourceReported : State :=
  { stateUp.puts [(R.HAUL_SRC.en 0, 1), (R.HAUL_SRC.transport 0, 1), (R.HAUL_CONN.addr 0, reportedAt), (R.CAGE_CTL.mode 0, 3)] with
    bad := [reportedAt + 8], mfg := { stateUp.mfg with nstacks := 2 ^ 40, nedges := 6 } }

theorem sourceReported_addr :
    (stateAfter (.haulScommit 0) sourceReported).get (R.HAUL_CONN.addr 0) = reportedAt + 8 := by decide +kernel

/-- Refutes O35: the error met in reading the descriptor is noted at a place that depends on the manufacturing record, here the committed register. -/
theorem not_haulSources : ¬ Obligations.HaulSources := by
  intro holds
  obtain ⟨sources, -⟩ := holds
  obtain ⟨-, -, -, -, -, commits⟩ := sources sourceReported 0
  obtain ⟨t, run, -, -, -, accepted⟩ := commits ⟨by decide +kernel, by decide +kernel⟩ (by decide +kernel)
  obtain ⟨kept, -⟩ := accepted (by decide +kernel)
    ⟨by decide +kernel, by decide +kernel, by decide +kernel, fun _ => ⟨by decide +kernel, by decide +kernel⟩⟩
  have moved := sourceReported_addr
  rw [stateAfter_of_next run] at moved
  exact absurd (moved.symm.trans (kept (R.HAUL_CONN.addr 0) (by decide))) (by decide +kernel)

end Sys2Proof.Machine

namespace Sys2Proof.Machine

-- The kernel runs the model here: one run at a time bounds the threads that wait for it.
set_option Elab.async false

/-! ## A key list whose error is reported in the register of the area's base (R352, R386) -/

/-- The address of the key list: the page whose error counters stand where CKPT_BASE of context 0 does, on a device of very many stacks. -/
def keyListAt : Nat := 4096 * 0x389900

/-- Module 0 alone waits for its tally; the area is encrypted and its key list has an uncorrectable error. -/
def tallyDue : State :=
  { stateUp.puts [(R.CKPT_STAT.state 0, ckCHAINING), (R.CKPT_AREA.enc 0, 1), (R.CKPT_TSIZE.tsize 0, 4096), (R.CKPT_KEYS.addr 0, keyListAt),
      (R.CKPT_KEYS.n 0, 1)] with
    bad := [keyListAt], mfg := { stateUp.mfg with nstacks := 2 ^ 40 }, ckpts := [(0, { Ckpt.empty with part := some [] })] }

theorem tallyDue_writes :
    ((stateAfter (.ckptTallyWrite 0 [] [] 0 ()) tallyDue).ckpt 0).writes.head?.map CkWrite.off = some keyListAt := by decide +kernel

theorem tallyDue_fits :
    (tallyDue.tallySigned 0 [] (tallyDue.tallyBytes 0 ([] ++ []) (tallyDue.ckEntries 0 []) (0 : BitVec 32).toNat)).length ≤ 4096 := by decide +kernel

/-- Refutes O36: the error met in reading the key list is noted at a place that depends on the manufacturing record, here the area's base. -/
theorem not_checkpointAttempts : ¬ Obligations.CheckpointAttempts := by
  intro holds
  obtain ⟨attempts, -⟩ := holds
  obtain ⟨-, -, -, -, -, -, -, -, tallies, -⟩ := attempts tallyDue 0
  obtain ⟨t, run, fits, -⟩ := tallies [] [] 0 [] [] (by decide +kernel) (by decide +kernel) (by decide +kernel) (by decide +kernel)
    (by decide +kernel) (.inl ⟨by decide +kernel, rfl⟩)
  obtain ⟨-, -, -, off⟩ := fits (tallyDue_fits.trans (by decide +kernel))
  have writes := tallyDue_writes
  rw [stateAfter_of_next run] at writes
  exact absurd (writes.symm.trans off) (by decide +kernel)

end Sys2Proof.Machine

namespace Sys2Proof.Machine

-- The kernel runs the model here: one run at a time bounds the threads that wait for it.
set_option Elab.async false

/-! ## A reservation before a record that a remote flume has committed (R144, R163) -/

/-- A record of flume 0, at the producer of sequencer 0. -/
def remoteRec (cmt : Bool) : FlmRec :=
  { hdr := Hdr.zero, owner := 0, holder := 0, sent := false, cmt := cmt, ready := false, held := false, spill := false, slot := 0,
    bad := false, pin := none }

/-- A reset of compute die 0 is due; remote flume 0 has a reservation of its sequencer 0, and a committed record behind it. -/
def resetDue : State :=
  { stateUp.puts [(R.FLM_DESC.remote 0, 1)] with
    won := [⟨3, 0, 2⟩], flumes := [(0, { Flume.empty with recs := [remoteRec false, remoteRec true] })] }

theorem resetDue_occ : ((stateAfter (.computeDieReset 0) resetDue).flume 0).occ = 0 := by decide +kernel

/-- Refutes O43: the reset discards the reservation, and the committed record behind it leaves the remote flume for its link at once. -/
theorem not_dieAndHalfResets : ¬ Obligations.DieAndHalfResets := by
  intro holds
  obtain ⟨dies, -⟩ := holds
  obtain ⟨-, due, -⟩ := dies resetDue 0
  obtain ⟨t, run, -, -, done⟩ := due ⟨3, 0, 2⟩ (by decide +kernel)
  obtain ⟨-, -, -, -, -, -, -, occ, -⟩ := done (by decide +kernel)
  have none := resetDue_occ
  rw [stateAfter_of_next run] at none
  exact absurd (none.symm.trans (occ 0)) (by decide +kernel)

end Sys2Proof.Machine

namespace Sys2Proof.Machine

-- The kernel runs the model here: one run at a time bounds the threads that wait for it.
set_option Elab.async false

/-- A fatal error has ended the work of a checkpoint attempt that was CHAINING; an Off order waits for its entry. -/
def offAwaited : State :=
  stateUp.puts [(R.PWR_STAT.busy, 1), (R.PWR_STAT.target, 4), (R.RAS_STAT.fatal, 1), (R.CKPT_STAT.state 0, ckCHAINING)]

theorem offAwaited_off : (stateAfter .rungEntryComplete offAwaited).boot = 0 := by decide +kernel

/-- Refutes O45: in the error state the entry to Off waits for no transfer (R539). -/
theorem not_powerRungs : ¬ Obligations.PowerRungs := by
  intro holds
  obtain ⟨-, entries, -⟩ := holds
  obtain ⟨-, busy⟩ := entries offAwaited
  obtain ⟨-, waits, -⟩ := busy (by decide +kernel)
  have stays := waits (by decide +kernel) (by decide +kernel) (by decide +kernel)
  have off := offAwaited_off
  rw [stateAfter_of_next stays] at off
  exact absurd off (by decide +kernel)

end Sys2Proof.Machine

namespace Sys2Proof.Machine

-- The kernel runs the model here: one run at a time bounds the threads that wait for it.
set_option Elab.async false

/-! ## A shrink past module 1 of three (R272, R285, R369) -/

/-- A table of three modules whose only stage lies on module 0. -/
def loneStage : CutTable := ⟨[0, 0, 1, 0, 0, 0, 3, 0], [List.replicate 64 0], []⟩

/-- Module 0 has lost its neighbour; sequencer 0 runs the stage, and module 2 holds the lost module's layers. -/
def shrinkDue : State :=
  { stateUp.puts [(R.SEQ_STAT.state 0 0, 2), (R.CKPT_BUDDY.en 0, 1)] with
    cutForce := [(0, some loneStage)], jobs := [(0, { Job.empty with lost := [1] })] }

theorem shrinkDue_byte : (stateAfter (.shrink 0 true) shrinkDue).byte (tileBase 0 + 4) = 1 := by decide +kernel

/-- Refutes O51: the redraw starts FWD/BWD again, which writes the stage's new row to its tile store. -/
theorem not_lostModules : ¬ Obligations.LostModules := by
  intro holds
  obtain ⟨-, -, shrinks, -⟩ := holds
  obtain ⟨-, live⟩ := shrinks shrinkDue 0 true 1 [] loneStage rfl rfl
  obtain ⟨-, -, redraw⟩ := live (by decide +kernel) (by decide +kernel) (by decide +kernel)
  obtain ⟨t, run, -, -, -, -, -, -, -, keeps, -⟩ := redraw (by decide +kernel) ⟨by decide +kernel, by decide, by decide +kernel⟩
  obtain ⟨same, -⟩ := keeps (by decide +kernel)
  have row := shrinkDue_byte
  rw [stateAfter_of_next run, same] at row
  exact absurd row (by decide +kernel)

end Sys2Proof.Machine

namespace Sys2Proof.Machine

-- The kernel runs the model here: one run at a time bounds the threads that wait for it.
set_option Elab.async false

/-! ## A transfer error in the commit ring of a restore (R352, R364, R390) -/

/-- The address of a commit ring in the far tier. -/
def ringAt : Nat := 0x0210_0000_0000

/-- Module 0 restores from an area in the far tier; the next transfer of the ring's first granule fails. -/
def restoreDue : State :=
  { stateUp.puts [(R.CKPT_STAT.state 0, ckRESTORING), (R.CKPT_AREA.target 0, 1), (R.CKPT_RING.ring 0, ringAt)] with linkErr := [ringAt] }

/-- A storage that answers nothing. -/
def noStorage : CkRead := ⟨[], [], []⟩

theorem restoreDue_linkErr : (stateAfter (.ckptRestoreLoad 0 noStorage) restoreDue).linkErr = [] := by decide +kernel

/-- Refutes O37: the read of the ring meets the error, and its granule is poisoned. -/
theorem not_restoreAndBuddy : ¬ Obligations.RestoreAndBuddy := by
  intro holds
  obtain ⟨restores, -⟩ := holds
  obtain ⟨-, -, -, -, -, ends⟩ := restores restoreDue 0
  obtain ⟨t, run, same, -⟩ := ends noStorage (by decide +kernel) (by decide +kernel) (by decide +kernel) (by decide +kernel)
  obtain ⟨-, -, -, errors⟩ := same
  have noted := restoreDue_linkErr
  rw [stateAfter_of_next run, errors] at noted
  exact absurd noted (by decide)

end Sys2Proof.Machine

namespace Sys2Proof.Machine

-- The kernel runs the model here: one run at a time bounds the threads that wait for it.
set_option Elab.async false

/-! ## A host PUSH whose reservation is marked committed but not sent (R135, R141, R446) -/

/-- A PUSH on flume 0. -/
def pushEntry : List Byte := 3 :: List.replicate 63 0

/-- A record that ring 0 of context 0 has reserved, marked committed. -/
def committedReservation : FlmRec :=
  ⟨Hdr.ofNat 0, hostOwner 0 0, 0, false, true, false, false, false, 0, false, none⟩

/-- The host's data for the PUSH is on its way; the next commit on the flume has number 5. -/
def pushDue : State :=
  { stateUp.puts [(R.FLM_STAT.state 0, flmOPEN), (R.FLM_DESC.depth 0, 4), (R.FLM_DESC.rec_size 0, 1), (R.FLM_SEQ.next_cmt 0, 5)]
    with srings := [(0, { SRing.empty with cmds := [⟨0, 1, pushEntry⟩], io := true })]
         flumes := [(0, { Flume.empty with recs := [committedReservation], out := 1 })] }

/-- The header of an empty record. -/
def plainHeader : List Byte := List.replicate 64 0

theorem pushDue_done : ((stateAfter (.hostReadCompletion 0 0 true (plainHeader ++ [])) pushDue).sring 0 0).done = some (0, 0, 0) := by
  decide +kernel

/-- Refutes O23: no record of the ring is left to commit, and the command returns 0 for the next number, 5. -/
theorem not_ringRecordsAndCompletions : ¬ Obligations.RingRecordsAndCompletions := by
  intro holds
  obtain ⟨records, -⟩ := holds
  obtain ⟨-, commits, -⟩ := records pushDue 0 0 pushEntry (by decide +kernel) (by decide +kernel)
  obtain ⟨t, run, done, -⟩ := commits (by decide +kernel) (by decide) plainHeader [] committedReservation (by decide) (by decide +kernel)
    (by decide +kernel) (fun _ lt => absurd lt (Nat.not_lt_zero _)) (by decide +kernel)
  have zero := pushDue_done
  rw [stateAfter_of_next run] at zero
  have number := zero.symm.trans done
  revert number
  decide +kernel

end Sys2Proof.Machine

namespace Sys2Proof.Machine

-- One proof at a time: threads that wait for each other hold memory.
set_option Elab.async false

/-! ## Flags, and commands that reach their block (R430, R539) -/

theorem flag_eq_true {s : State} {f : Fld} (one : s.get f = 1) : s.flag f = true := decide_eq_true one

theorem get_of_flag {s : State} {f : Fld} (set : s.flag f = true) : s.get f = 1 := of_decide_eq_true set

/-- A field of one bit is 0 or 1. -/
theorem get_bit (s : State) {f : Fld} (bit : f.w = 1) : s.get f = 0 ∨ s.get f = 1 := by
  have small := State.get_lt s f
  rw [bit] at small
  omega

theorem gated_of_open {s : State} (opened : s.Open) (off : Nat) (t : State) : s.gated off t = t := by
  obtain ⟨ready, calm⟩ := opened
  rw [State.gated, ready, calm, if_neg (by simp), if_neg (by simp)]

theorem log_code_of_raise {s : State} {code : Nat} {ctx : Option Nat} {w : Where} {detail : Nat} :
    ((s.raise code ctx w detail).log.head?.map LogEntry.code) = some code := raise_log_code s code ctx w detail

end Sys2Proof.Machine

namespace Sys2Proof.Machine

-- One proof at a time: threads that wait for each other hold memory.
set_option Elab.async false

/-! ## Firmware update (R471, R472, R484, R485) -/

theorem runBank_lt (s : State) (h : Nat) : s.runBank h < 2 := by
  have small := State.get_lt s (bankFld h)
  rw [show (bankFld h).w = 1 by unfold bankFld; split_ifs <;> rfl] at small
  exact small

/-- The first bank that no half runs. -/
theorem freeBank_eq_some {s : State} {k : Nat} (small : k < 2) (free : ∀ h, h < 2 → s.recovering h = false → s.runBank h ≠ k)
    (first : k = 1 → ∃ h, h < 2 ∧ s.recovering h = false ∧ s.runBank h = 0) :
    (List.range 2).find? (fun k => (List.range 2).all (fun h => s.recovering h || decide (s.runBank h ≠ k))) = some k := by
  have find (p : Nat → Bool) : (List.range 2).find? p = if p 0 then some 0 else if p 1 then some 1 else none := by
    rw [show List.range 2 = [0, 1] from rfl, List.find?_cons, List.find?_cons, List.find?_nil]
    cases p 0 <;> cases p 1 <;> rfl
  have mayTake : ((List.range 2).all fun h => s.recovering h || decide (s.runBank h ≠ k)) = true := by
    rw [List.all_eq_true]
    intro h mem
    cases rec : s.recovering h with
    | true => rfl
    | false => simpa using free h (List.mem_range.mp mem) rec
  rw [find]
  interval_cases k
  · exact if_pos mayTake
  · obtain ⟨h, two, noRec, runs⟩ := first rfl
    have taken : ¬ ((List.range 2).all fun h => s.recovering h || decide (s.runBank h ≠ 0)) = true := fun all => by
      have away := List.all_eq_true.mp all h (List.mem_range.mpr two)
      simp [noRec, runs] at away
    exact (if_neg taken).trans (if_pos mayTake)

theorem freeBank_eq_none {s : State} (calm0 : s.recovering 0 = false) (calm1 : s.recovering 1 = false) (apart : s.runBank 0 ≠ s.runBank 1) :
    (List.range 2).find? (fun k => (List.range 2).all (fun h => s.recovering h || decide (s.runBank h ≠ k))) = none := by
  rw [List.find?_eq_none]
  intro k mem all
  have small := List.mem_range.mp mem
  have away := List.all_eq_true.mp all
  have from0 := away 0 (by simp)
  have from1 := away 1 (by simp)
  rw [calm0, Bool.false_or, decide_eq_true_eq] at from0
  rw [calm1, Bool.false_or, decide_eq_true_eq] at from1
  have := runBank_lt s 0
  have := runBank_lt s 1
  omega

/-- The update of bank `k` has started. -/
def State.updating (s : State) (k : Nat) : State :=
  ({ (s.put (R.SEC_BANK.valid k) 0).put R.SEC_STAT.pending 0 with fw := { s.fw with upd := some k, revert := false, slot := 0 } } : State).restage.pldmSay
    0x10 0

theorem exec_requestUpdate_free {s : State} {k : Nat} (on : s.mctpOn = true) (idle : s.fw.upd = none) (small : k < 2)
    (free : ∀ h, h < 2 → s.recovering h = false → s.runBank h ≠ k)
    (first : k = 1 → ∃ h, h < 2 ∧ s.recovering h = false ∧ s.runBank h = 0) : exec .requestUpdate s = .next (s.updating k) := by
  rw [show exec .requestUpdate s = execRequestUpdate s from rfl, execRequestUpdate, freeBank_eq_some small free first]
  exact congrArg Host.Outcome.next ((if_neg (by simp [on])).trans (if_neg (by simp [idle])))

theorem updating_get (s : State) (k : Nat) : (s.updating k).get (R.SEC_BANK.valid k) = 0 ∧ (s.updating k).get R.SEC_STAT.pending = 0 := by
  have apart : (R.SEC_BANK.valid k).a ≠ R.SEC_STAT.pending.a := by
    simp only [R.SEC_STAT.pending, R.SEC_BANK.valid]
    omega
  have regs : (s.updating k).regs = ((s.put (R.SEC_BANK.valid k) 0).put R.SEC_STAT.pending 0).regs := rfl
  exact ⟨by rw [get_congr regs, State.get_put_other _ _ _ _ apart, State.get_put_same, Nat.zero_mod],
    by rw [get_congr regs, State.get_put_same, Nat.zero_mod]⟩

theorem exec_requestUpdate_busy {s : State} (on : s.mctpOn = true) (busy : s.fw.upd ≠ none) :
    exec .requestUpdate s = .next (s.emit (.message 3 [0x10, 0x81])) :=
  congrArg Host.Outcome.next ((if_neg (by simp [on])).trans (if_pos (Option.isSome_iff_ne_none.mpr busy)))

theorem exec_requestUpdate_full {s : State} (on : s.mctpOn = true) (idle : s.fw.upd = none) (calm0 : s.recovering 0 = false)
    (calm1 : s.recovering 1 = false) (apart : s.runBank 0 ≠ s.runBank 1) :
    exec .requestUpdate s = .next (s.emit (.message 3 [0x10, 0x8A])) := by
  rw [show exec .requestUpdate s = execRequestUpdate s from rfl, execRequestUpdate, freeBank_eq_none calm0 calm1 apart]
  exact congrArg Host.Outcome.next ((if_neg (by simp [on])).trans (if_neg (by simp [idle])))

/-- The staged package is armed. -/
def State.armed (s : State) : State := ({ s.put R.SEC_STAT.pending 2 with fw := { s.fw with slot := 1 } } : State).restage.pldmSay 0x1A 0

theorem armed_get (s : State) : s.armed.get R.SEC_STAT.pending = 2 :=
  (get_congr (show s.armed.regs = (s.put R.SEC_STAT.pending 2).regs from rfl) _).trans (State.get_put_same _ _ _)

theorem exec_activateFirmware {s : State} (on : s.mctpOn = true)
    (armed : s.get R.SEC_STAT.pending = 1 ∨ s.get R.SEC_STAT.pending = 0 ∧ s.fw.slot = 2) : exec .activateFirmware s = .next s.armed :=
  congrArg Host.Outcome.next ((if_neg (by simp [on])).trans (if_pos armed))

theorem exec_activateFirmware_refused {s : State} (on : s.mctpOn = true)
    (none : ¬(s.get R.SEC_STAT.pending = 1 ∨ s.get R.SEC_STAT.pending = 0 ∧ s.fw.slot = 2)) :
    exec .activateFirmware s = .next (s.emit (.message 3 [0x1A, 0x82])) :=
  congrArg Host.Outcome.next ((if_neg (by simp [on])).trans (if_neg none))

/-! ### The package that has come (R471) -/

/-- The conditions under which a package is taken. -/
def PackageGood (hd key : List (BitVec 8)) (cert : Bool) : Prop :=
  packageOk hd = true ∧ imagesOk hd = true ∧ packageSigOk hd key = true ∧ cert = true

theorem packageGood_iff (hd key : List (BitVec 8)) (cert : Bool) :
    PackageGood hd key cert ↔ (packageOk hd && imagesOk hd && packageSigOk hd key && cert) = true := by
  simp only [PackageGood, Bool.and_eq_true, and_assoc]

/-- The package that has come is refused with `code`. -/
def State.refusesPackage (s : State) (code k : Nat) : State :=
  (({ s with fw := { s.fw with upd := none } } : State).raise code none (atSteward 0) k).pldmSay 0x18 1

/-- The fields of a bank whose package has been verified. -/
def bankPuts (k : Nat) (hd : List (BitVec 8)) : List (Fld × Nat) :=
  [(R.SEC_BANK.fwver k, fieldAt hd 8 4), (R.SEC_BANK.valid k, 1), (R.SEC_BANK.mixable k, fieldAt hd 5 1 % 2), (R.SEC_BANK.svn k, fieldAt hd 12 4),
    (R.SEC_STAT.pending, 1)]

/-- The package that has come is stored in bank `k`. -/
def State.storesPackage (s : State) (k : Nat) (hd : List (BitVec 8)) : State :=
  (({ s with fw := { s.fw with upd := none, banks := KMap.put (fun _ => []) s.fw.banks k hd } } : State).puts (bankPuts k hd)).restage.pldmSay 0x18 0

section
variable {s : State} {hd key : List (BitVec 8)} {cert : Bool} {k : Nat} (upd : s.fw.upd = some k) (on : s.mctpOn = true)
include upd on

theorem exec_verifyComplete : exec (.verifyComplete hd key cert) s = .next (
    if ¬(packageOk hd && imagesOk hd && packageSigOk hd key && cert) = true then s.refusesPackage E.SEC_UPDATE k
    else if fieldAt hd 12 4 < s.get R.SEC_STAT.svn_floor then s.refusesPackage E.SEC_ROLLBACK k
    else s.storesPackage k hd) := by
  rw [show exec (.verifyComplete hd key cert) s = execVerifyComplete hd key cert s from rfl, execVerifyComplete, upd]
  refine congrArg Host.Outcome.next ((if_neg (by simp [on])).trans ?_)
  simp only [Bool.not_eq_true', Bool.not_eq_true]
  rfl

theorem exec_verifyComplete_refused (bad : ¬PackageGood hd key cert) :
    exec (.verifyComplete hd key cert) s = .next (s.refusesPackage E.SEC_UPDATE k) := by
  rw [exec_verifyComplete upd on, if_pos (mt (packageGood_iff hd key cert).mpr bad)]

theorem exec_verifyComplete_rollback (good : PackageGood hd key cert) (below : fieldAt hd 12 4 < s.get R.SEC_STAT.svn_floor) :
    exec (.verifyComplete hd key cert) s = .next (s.refusesPackage E.SEC_ROLLBACK k) := by
  rw [exec_verifyComplete upd on, if_neg (not_not.mpr ((packageGood_iff hd key cert).mp good)), if_pos below]

theorem exec_verifyComplete_stored (good : PackageGood hd key cert) (reaches : s.get R.SEC_STAT.svn_floor ≤ fieldAt hd 12 4) :
    exec (.verifyComplete hd key cert) s = .next (s.storesPackage k hd) := by
  rw [exec_verifyComplete upd on, if_neg (not_not.mpr ((packageGood_iff hd key cert).mp good)), if_neg (Nat.not_lt.mpr reaches)]

end

theorem bankPuts_apart (k : Nat) (hd : List (BitVec 8)) : ((bankPuts k hd).map fun p => p.1.a).Nodup := by
  simp only [bankPuts, List.map_cons, List.map_nil, R.SEC_BANK.fwver, R.SEC_BANK.valid, R.SEC_BANK.mixable, R.SEC_BANK.svn, R.SEC_STAT.pending,
    List.nodup_cons, List.mem_cons, List.not_mem_nil, not_or, or_false]
  refine ⟨?_, ?_, ?_, ?_, not_false, List.nodup_nil⟩ <;> omega

theorem bankPuts_get (u : State) (k : Nat) (hd : List (BitVec 8)) {p : Fld × Nat} (mem : p ∈ bankPuts k hd) :
    (u.puts (bankPuts k hd)).get p.1 = p.2 % 2 ^ p.1.w := puts_get_of_nodup u (bankPuts_apart k hd) mem

theorem refusesPackage_get (s : State) (code k : Nat) {g : Fld} (low : g.a < 8 * 0x3e00000) : (s.refusesPackage code k).get g = s.get g :=
  raise_get _ low

theorem refusesPackage_upd (s : State) (code k : Nat) : (s.refusesPackage code k).fw.upd = none :=
  congrArg (fun u => u.fw.upd) (raise_unlogged ({ s with fw := { s.fw with upd := none } } : State) code none (atSteward 0) k)

theorem refusesPackage_log (s : State) (code k : Nat) : ((s.refusesPackage code k).log.head?.map LogEntry.code) = some code := raise_log_code _ _ _ _ _

theorem puts_rest (s : State) (l : List (Fld × Nat)) : { s.puts l with regs := s.regs } = s := by
  induction l generalizing s with
  | nil => rfl
  | cons p l ih => exact (congrArg (fun u => ({ u with regs := s.regs } : State)) (ih (s.put p.1 p.2)) :)

theorem storesPackage_frame (s : State) (k : Nat) (hd : List (BitVec 8)) : (s.storesPackage k hd).fw.upd = none ∧
    (s.storesPackage k hd).fw.banks = KMap.put (fun _ => []) s.fw.banks k hd ∧ (s.storesPackage k hd).out = .message 3 [0x18, 0] :: s.out ∧
    (s.storesPackage k hd).log = s.log := by
  have rest := puts_rest ({ s with fw := { s.fw with upd := none, banks := KMap.put (fun _ => []) s.fw.banks k hd } } : State) (bankPuts k hd)
  have fw := congrArg State.fw rest
  have out := congrArg State.out rest
  exact ⟨congrArg Fw.upd fw, congrArg Fw.banks fw, congrArg (Out.message 3 [0x18, 0] :: ·) out, (congrArg State.log rest :)⟩

/-! ### Cancel, revert and the permission log (R484, R485) -/

/-- The staged package is given up. -/
def State.unstaged (s : State) : State := ({ s.put R.SEC_STAT.pending 0 with fw := { s.fw with slot := 2 } } : State).restage

theorem exec_secFwcmdCancel {s : State} (opened : s.Open) : exec .secFwcmdCancel s = .next (
    if s.get R.SEC_STAT.pending = 0 ∨ (s.get R.SEC_STAT.pending = 2 ∧ s.fw.slot = 1) then s else s.unstaged) :=
  congrArg Host.Outcome.next (gated_of_open opened _ _)

theorem exec_secFwcmdRevert {s : State} (opened : s.Open) : exec .secFwcmdRevert s = .next (
    if s.get R.SEC_STAT.pending = 2 then s.raise E.SEC_UPDATE none (atSteward 0) 0
    else if s.flag (R.SEC_BANK.valid (1 - s.fw.sel)) then { s with fw := { s.fw with revert := true } } else s) :=
  congrArg Host.Outcome.next (gated_of_open opened _ _)

/-- Nothing staged, so no block 36 in the picture. -/
theorem restage_picture {s : State} (none : s.get R.SEC_STAT.pending = 0) : ∀ b ∈ s.restage.picture, b.1 ≠ 36 := by
  intro b mem
  rw [State.restage, State.stagedBlock, if_pos none, List.append_nil] at mem
  exact of_decide_eq_true (List.mem_filter.mp mem).2

theorem unstaged_get (s : State) : s.unstaged.get R.SEC_STAT.pending = 0 :=
  (get_congr (show s.unstaged.regs = (s.put R.SEC_STAT.pending 0).regs from rfl) _).trans (State.get_put_same _ _ _)

theorem unstaged_picture (s : State) : ∀ b ∈ s.unstaged.picture, b.1 ≠ 36 := restage_picture (unstaged_get s)

/-- The fields that a clear of the permission log sets to 0. -/
def permLogPuts : List (Fld × Nat) :=
  [(R.SEC_PERMLOG0.addr, 0), (R.SEC_PERMLOG1.count, 0), (R.SEC_PERMLOG1.kind, 0), (R.SEC_PERMLOG1.write, 0), (R.SEC_PERMLOG1.ctx, 0)]

theorem exec_secLogclr {s : State} (opened : s.Open) : exec .secLogclr s = .next (s.puts permLogPuts) :=
  congrArg Host.Outcome.next (gated_of_open opened _ _)

theorem permLogPuts_get (s : State) {p : Fld × Nat} (mem : p ∈ permLogPuts) : (s.puts permLogPuts).get p.1 = p.2 % 2 ^ p.1.w :=
  puts_get_of_nodup s (by decide) mem

/-- Settles O48. -/
theorem firmwareUpdate : Obligations.FirmwareUpdate := by
  refine ⟨fun s => ⟨fun off => ?_, fun on => ⟨fun busy => exec_requestUpdate_busy on busy, fun idle k small free first => ?_,
    fun idle calm0 calm1 apart => exec_requestUpdate_full on idle calm0 calm1 apart, fun armed => ?_,
    fun none => exec_activateFirmware_refused on none⟩⟩, fun s hd key cert => ⟨fun idle => ?_, fun k upd small on => ?_⟩,
    fun s opened => ⟨fun keep => ?_, fun some_ other => ?_, fun armed => ?_, fun apart valid => ?_, fun apart invalid => ?_, ?_⟩⟩
  · have closed (t : State) : (if (!s.mctpOn) = true then s else t) = s := if_pos (by simp [off])
    refine ⟨congrArg Host.Outcome.next (closed _), congrArg Host.Outcome.next (closed _), fun hd a b => ?_⟩
    rw [show exec (.verifyComplete hd a b) s = execVerifyComplete hd a b s from rfl, execVerifyComplete]
    cases s.fw.upd with
    | none => rfl
    | some k => exact congrArg Host.Outcome.next (closed _)
  · obtain ⟨valid, pending⟩ := updating_get s k
    exact ⟨_, exec_requestUpdate_free on idle small free first, rfl, valid, pending, rfl, fun _ => rfl, rfl, rfl, rfl⟩
  · exact ⟨_, exec_activateFirmware on armed, armed_get s, rfl, fun _ => rfl, rfl, rfl, rfl⟩
  · rw [show exec (.verifyComplete hd key cert) s = execVerifyComplete hd key cert s from rfl, execVerifyComplete, idle]
  · have place : (R.SEC_BANK.valid k).a < 8 * 0x3e00000 := by
      simp only [R.SEC_BANK.valid]
      omega
    refine ⟨fun bad => ⟨_, exec_verifyComplete_refused upd on bad, refusesPackage_upd _ _ _, refusesPackage_get _ _ _ place,
      refusesPackage_get _ _ _ (by decide), refusesPackage_log _ _ _⟩,
      fun good below => ⟨_, exec_verifyComplete_rollback upd on good below, refusesPackage_upd _ _ _, refusesPackage_get _ _ _ place,
        refusesPackage_log _ _ _⟩,
      fun good reaches => ?_⟩
    obtain ⟨done, banks, out, log⟩ := storesPackage_frame s k hd
    exact ⟨_, exec_verifyComplete_stored upd on good reaches, done, bankPuts_get _ k hd (p := (R.SEC_BANK.valid k, 1)) (by simp [bankPuts]),
      bankPuts_get _ k hd (p := (R.SEC_BANK.fwver k, fieldAt hd 8 4)) (by simp [bankPuts]),
      bankPuts_get _ k hd (p := (R.SEC_STAT.pending, 1)) (by simp [bankPuts]), by rw [banks, KMap.find_put, if_pos rfl], out, log⟩
  · rw [exec_secFwcmdCancel opened, if_pos keep]
  · exact ⟨_, by rw [exec_secFwcmdCancel opened, if_neg (not_or.mpr ⟨some_, other⟩)], unstaged_get s, unstaged_picture s, rfl⟩
  · exact ⟨s.raise E.SEC_UPDATE none (atSteward 0) 0, by rw [exec_secFwcmdRevert opened, if_pos armed],
      (congrArg State.fw (raise_unlogged s _ _ _ _) :), raise_log_code _ _ _ _ _⟩
  · rw [exec_secFwcmdRevert opened, if_neg apart, if_pos (flag_eq_true valid)]
  · rw [exec_secFwcmdRevert opened, if_neg apart, flag_eq_false invalid, if_neg Bool.false_ne_true]
  · exact ⟨_, exec_secLogclr opened, puts_rest s _, permLogPuts_get s (p := (R.SEC_PERMLOG0.addr, 0)) (by simp [permLogPuts]),
      permLogPuts_get s (p := (R.SEC_PERMLOG1.count, 0)) (by simp [permLogPuts]),
      permLogPuts_get s (p := (R.SEC_PERMLOG1.ctx, 0)) (by simp [permLogPuts])⟩

end Sys2Proof.Machine

namespace Sys2Proof.Machine

-- One proof at a time: threads that wait for each other hold memory.
set_option Elab.async false

/-! ## The security floor and DEVICE_READY (R430, R472, R507, R508) -/

theorem raiseFloor_rest (s : State) : { s.raiseFloor with regs := s.regs } = s := by
  unfold State.raiseFloor
  dsimp only
  split_ifs <;> rfl

theorem raiseFloor_get (s : State) {g : Fld} (floor : g.a ≠ R.SEC_STAT.svn_floor.a) (valid : ∀ k, k < 2 → g.a ≠ (R.SEC_BANK.valid k).a) :
    s.raiseFloor.get g = s.get g := by
  unfold State.raiseFloor
  dsimp only
  split_ifs
  · rfl
  · rw [State.get_put_other _ _ _ _ (valid _ (by omega)), State.get_put_other _ _ _ _ floor]
  · rw [State.get_put_other _ _ _ _ floor]

theorem deviceReady_rest (s : State) : { s.deviceReady with regs := s.regs, boot := s.boot } = s := by
  have floor := raiseFloor_rest ({ s.puts [(R.HOST_STAT.ready, 1), (R.PWR_STAT.fzero, 1)] with boot := 4 } : State)
  exact (congrArg (fun u => ({ u with regs := s.regs, boot := s.boot } : State)) floor :)

theorem deviceReady_boot (s : State) : s.deviceReady.boot = 4 :=
  (congrArg State.boot (raiseFloor_rest ({ s.puts [(R.HOST_STAT.ready, 1), (R.PWR_STAT.fzero, 1)] with boot := 4 } : State)) :)

theorem deviceReady_get (s : State) {g : Fld} (floor : g.a ≠ R.SEC_STAT.svn_floor.a) (valid : ∀ k, k < 2 → g.a ≠ (R.SEC_BANK.valid k).a) :
    s.deviceReady.get g = ((s.put R.HOST_STAT.ready 1).put R.PWR_STAT.fzero 1).get g :=
  (raiseFloor_get _ floor valid).trans (get_congr rfl g)

theorem deviceReady_ready (s : State) : s.deviceReady.get R.HOST_STAT.ready = 1 := by
  rw [deviceReady_get s (by decide) (by decide), State.get_put_other _ _ _ _ (by decide), State.get_put_same]
  decide

/-! ## The picture (R475 to R477) -/

/-- The state with the new picture, its generation one higher. -/
def State.pictured (s : State) : State :=
  let u := s.puts [(R.SEC_MGEN.gen, s.get R.SEC_MGEN.gen + 1), (R.SEC_STAT.measuring, 0)]
  { u with picture := u.measure }

/-- The connections start over when the key for names (R479) has changed. -/
def State.resynced (s : State) (old : List Nat) : State :=
  if old = [] ∨ old = s.aliasBlocks then s
  else { s with spdm := s.spdm.map (fun e => (e.1, { stage := 0, resync := true, defer := [] })) }

/-- The start-up goes on, or the floor rises. -/
def State.publishes (s : State) : State :=
  if s.boot = 2 then (if s.linkUp then s.deviceReady else { s with boot := 3 }) else s.raiseFloor

theorem exec_measurementPublish (s : State) : exec .measurementPublish s = .next (
    if s.flag R.SEC_STAT.measuring = false ∨ s.boot < 2 ∨ 4 < s.boot ∨ (s.halfDead 0 || s.halfDead 1) = true ∨ s.flag R.SEC_STAT.recovery = true then s
    else (s.pictured.resynced s.aliasBlocks).publishes) := rfl

theorem publishes_rest (s : State) : { s.publishes with regs := s.regs, boot := s.boot } = s := by
  unfold State.publishes
  split_ifs
  · exact deviceReady_rest s
  · rfl
  · exact (congrArg (fun u => ({ u with boot := s.boot } : State)) (raiseFloor_rest s) :)

theorem publishes_get (s : State) {g : Fld} (floor : g.a ≠ R.SEC_STAT.svn_floor.a) (valid : ∀ k, k < 2 → g.a ≠ (R.SEC_BANK.valid k).a)
    (ready : g.a ≠ R.HOST_STAT.ready.a) (fzero : g.a ≠ R.PWR_STAT.fzero.a) : s.publishes.get g = s.get g := by
  unfold State.publishes
  split_ifs
  · rw [deviceReady_get s floor valid, State.get_put_other _ _ _ _ fzero, State.get_put_other _ _ _ _ ready]
  · rfl
  · exact raiseFloor_get s floor valid

theorem resynced_rest (s : State) (old : List Nat) : { s.resynced old with spdm := s.spdm } = s := by
  unfold State.resynced
  split_ifs <;> rfl

theorem aliasBlocks_congr {s u : State} (same : u.picture = s.picture) : u.aliasBlocks = s.aliasBlocks := by
  rw [State.aliasBlocks, same, State.aliasBlocks]

theorem gen_mem_measure (s : State) : (35, s.get R.SEC_MGEN.gen) ∈ s.measure := by
  unfold State.measure
  simp

theorem resynced_spdm (s : State) {old : List Nat} (some_ : old ≠ []) (changed : old ≠ s.aliasBlocks) :
    ∀ e ∈ (s.resynced old).spdm, e.2.resync = true ∧ e.2.stage = 0 ∧ e.2.defer = [] := by
  intro e mem
  rw [State.resynced, if_neg (not_or.mpr ⟨some_, changed⟩)] at mem
  obtain ⟨x, -, rfl⟩ := List.mem_map.mp mem
  exact ⟨rfl, rfl, rfl⟩

theorem published (s : State) : let t := (s.pictured.resynced s.aliasBlocks).publishes
    SameMem s t ∧ t.get R.SEC_STAT.measuring = 0 ∧ t.get R.SEC_MGEN.gen = (s.get R.SEC_MGEN.gen + 1) % 2 ^ 64 ∧
      (35, t.get R.SEC_MGEN.gen) ∈ t.picture ∧ (s.aliasBlocks = t.aliasBlocks → t.spdm = s.spdm) ∧
      (s.aliasBlocks ≠ [] → s.aliasBlocks ≠ t.aliasBlocks → ∀ e ∈ t.spdm, e.2.resync = true ∧ e.2.stage = 0 ∧ e.2.defer = []) ∧
      (s.boot = 2 → s.linkUp = true → t.boot = 4 ∧ t.get R.HOST_STAT.ready = 1) ∧ (s.boot = 2 → s.linkUp = false → t.boot = 3) ∧
      (s.boot ≠ 2 → t.boot = s.boot) := by
  intro t
  set p := s.pictured with hp
  set r := p.resynced s.aliasBlocks with hr
  have rest : { r with spdm := p.spdm } = p := resynced_rest p s.aliasBlocks
  have rest' : { t with regs := r.regs, boot := r.boot } = r := publishes_rest r
  have get (g : Fld) : r.get g = p.get g := get_congr (congrArg State.regs rest :) g
  have picture : t.picture = p.picture := (congrArg State.picture rest' :).trans (congrArg State.picture rest :)
  have blocks : t.aliasBlocks = p.aliasBlocks := aliasBlocks_congr picture
  have spdm : t.spdm = r.spdm := (congrArg State.spdm rest' :)
  have boot : r.boot = s.boot := (congrArg State.boot rest :)
  have link : r.linkUp = s.linkUp := (congrArg State.linkUp rest :)
  have mem : t.mem = s.mem := (congrArg State.mem rest' :).trans (congrArg State.mem rest :)
  have bad : t.bad = s.bad := (congrArg State.bad rest' :).trans (congrArg State.bad rest :)
  have plist : t.plist = s.plist := (congrArg State.plist rest' :).trans (congrArg State.plist rest :)
  have linkErr : t.linkErr = s.linkErr := (congrArg State.linkErr rest' :).trans (congrArg State.linkErr rest :)
  have gen' : p.get R.SEC_MGEN.gen = (s.get R.SEC_MGEN.gen + 1) % 2 ^ 64 := by
    change ((s.put _ _).put R.SEC_STAT.measuring 0).get R.SEC_MGEN.gen = _
    rw [State.get_put_other _ _ _ _ (by decide), State.get_put_same]
    rfl
  have gen : t.get R.SEC_MGEN.gen = p.get R.SEC_MGEN.gen := (publishes_get r (by decide) (by decide) (by decide) (by decide)).trans (get _)
  refine ⟨sameMem_of_eq mem bad plist linkErr, ?_, gen.trans gen', ?_, fun same => ?_, fun some_ changed => ?_, fun two up => ?_,
    fun two down => ?_, fun other => ?_⟩
  · refine (publishes_get r (by decide) (by decide) (by decide) (by decide)).trans ((get _).trans ?_)
    change ((s.put _ _).put R.SEC_STAT.measuring 0).get R.SEC_STAT.measuring = 0
    rw [State.get_put_same]
    rfl
  · rw [gen, picture]
    exact gen_mem_measure (s.puts [(R.SEC_MGEN.gen, s.get R.SEC_MGEN.gen + 1), (R.SEC_STAT.measuring, 0)])
  · rw [spdm, hr, State.resynced, if_pos (.inr (same.trans blocks))]
    rfl
  · rw [spdm]
    exact resynced_spdm p some_ (fun same => changed (same.trans blocks.symm))
  · have ready : t = r.deviceReady := (if_pos (boot.trans two)).trans (if_pos (link.trans up))
    exact ⟨ready ▸ deviceReady_boot r, ready ▸ deviceReady_ready r⟩
  · have waits : t = { r with boot := 3 } := (if_pos (boot.trans two)).trans (if_neg (by rw [link, down]; exact Bool.false_ne_true))
    rw [waits]
  · have floor : t = r.raiseFloor := if_neg (fun two => other (boot.symm.trans two))
    rw [floor]
    exact (congrArg State.boot (raiseFloor_rest r) :).trans boot

/-! ## SPDM (R474, R478, R479) -/

theorem conn_setConn (s : State) (r : Nat) (x : Conn) : (s.setConn r x).conn r = x := by
  rw [State.conn, State.setConn, KMap.find_put, if_pos rfl]

theorem conn_setConn_say (s : State) (r : Nat) (x : Conn) (code : Nat) (body : List Nat) : ((s.setConn r x).spdmSay r code body).conn r = x :=
  conn_setConn s r x

theorem not_on {s : State} (off : s.spdmOn = false) (t : State) : (if (!s.spdmOn) = true then s else t) = s := if_pos (by rw [off]; rfl)

theorem is_on {s : State} (on : s.spdmOn = true) (t : State) : (if (!s.spdmOn) = true then s else t) = t := if_neg (by rw [on]; exact Bool.false_ne_true)

theorem exec_getVersion (s : State) (r : BitVec 8) : exec (.getVersion r) s = .next (
    if s.spdmOn = true then (s.setConn r.toNat ⟨1, false, []⟩).spdmSay r.toNat 0x04 [0x13] else s) := rfl

/-- RequestResynch: the connection has been told (R479). -/
def State.resynchs (s : State) (r : Nat) : State := (s.setConn r { s.conn r with resync := false }).spdmError r 0x43 []

theorem resynchs_conn (s : State) (r : Nat) : (s.resynchs r).conn r = { s.conn r with resync := false } := conn_setConn s r _

section
variable {s : State} (on : s.spdmOn = true) (r : BitVec 8)
include on

theorem exec_getCapabilities : exec (.getCapabilities r) s = .next (
    if (s.conn r.toNat).resync = true then s.resynchs r.toNat
    else if (s.conn r.toNat).stage = 0 then s.emit (.message 2 [r.toNat, 4])
    else (s.setConn r.toNat { s.conn r.toNat with stage := max (s.conn r.toNat).stage 2 }).spdmSay r.toNat 0x61 [(Config.spdmCapabilities 0).toNat]) :=
  congrArg Host.Outcome.next (is_on on _)

/-- The answer of RESPOND_IF_READY to a token. -/
def State.respond (s : State) (r token : Nat) : State :=
  match (s.conn r).defer.find? (fun d => decide (d.1 = token)) with
  | none => if s.flag R.SEC_STAT.measuring then s.notReady r 0xFF token else s.spdmError r 1 []
  | some d =>
    if s.flag R.SEC_STAT.measuring then s.notReady r d.2.code d.1
    else (s.setConn r { s.conn r with defer := (s.conn r).defer.filter (fun e => decide (e.1 ≠ d.1)) }).spdmAnswer r d.2

theorem exec_respondIfReady (token : BitVec 8) (keep : s.get R.SEC_STAT.measuring = 1 ∨ (s.conn r.toNat).resync = false) :
    exec (.respondIfReady r token) s = .next (s.respond r.toNat token.toNat) := by
  have stays : ¬((s.conn r.toNat).resync = true ∧ s.flag R.SEC_STAT.measuring = false) := fun both => by
    rcases keep with one | clear
    · exact absurd ((flag_eq_true one).symm.trans both.2) (by decide)
    · exact absurd both.1 (by rw [clear]; exact Bool.false_ne_true)
  exact congrArg Host.Outcome.next ((is_on on _).trans (if_neg stays))

end

theorem respond_unknown {s : State} {r token : Nat} (new : ∀ d ∈ (s.conn r).defer, d.1 ≠ token) :
    s.respond r token = if s.flag R.SEC_STAT.measuring then s.notReady r 0xFF token else s.spdmError r 1 [] := by
  have none : (s.conn r).defer.find? (fun d => decide (d.1 = token)) = none :=
    List.find?_eq_none.mpr fun d mem same => new d mem (of_decide_eq_true same)
  rw [State.respond, none]

theorem respond_known {s : State} {r token : Nat} {d : Nat × SpdmReq}
    (found : (s.conn r).defer.find? (fun d => decide (d.1 = token)) = some d) : s.respond r token =
      if s.flag R.SEC_STAT.measuring then s.notReady r d.2.code d.1
      else (s.setConn r { s.conn r with defer := (s.conn r).defer.filter (fun e => decide (e.1 ≠ d.1)) }).spdmAnswer r d.2 := by
  rw [State.respond, found]

/-- The stage that a request needs. -/
def SpdmReq.need : SpdmReq → Nat
  | .algorithms _ _ _ => 2
  | _ => 3

theorem spdmAnswer_early {s : State} {r : Nat} {q : SpdmReq} (early : (s.conn r).stage < q.need) :
    s.spdmAnswer r q = s.emit (.message 2 [r, 4]) := by
  cases q <;> exact if_pos early

/-- What an answer leaves: it emits one message and does not touch what is deferred. -/
structure Answered (s t : State) (r : Nat) : Prop where
  defer : (t.conn r).defer = (s.conn r).defer
  out : t.out.length = s.out.length + 1

theorem answered_emit (s : State) (r : Nat) (o : Out) : Answered s (s.emit o) r := ⟨rfl, rfl⟩

/-- The requests that wait while a picture is taken. -/
def deferrable (r : BitVec 8) (i : Instr) (q : SpdmReq) : Prop :=
  (∃ a h, i = .negotiateAlgorithms r a h ∧ q = .algorithms (b2n a) (b2n h.sha) (b2n h.dmtf)) ∨ (i = .getDigests r ∧ q = .digests) ∨
    (∃ sl off len, i = .getCertificate r sl off len ∧ q = .certificate sl.toNat off.toNat len.toNat) ∨
    (∃ sl nonce, i = .challenge r sl nonce ∧ q = .challenge sl.toNat nonce.toNat) ∨
    (∃ ix sign sl nonce, i = .getMeasurements r ix sign sl nonce ∧ q = .measurements ix.toNat sign sl.toNat nonce.toNat)

theorem exec_deferrable {r : BitVec 8} {i : Instr} {q : SpdmReq} (request : deferrable r i q) (s : State) :
    exec i s = .next (s.spdmRequest r.toNat q) := by
  rcases request with ⟨a, h, rfl, rfl⟩ | ⟨rfl, rfl⟩ | ⟨sl, off, len, rfl, rfl⟩ | ⟨sl, nonce, rfl, rfl⟩ | ⟨ix, sign, sl, nonce, rfl, rfl⟩ <;> rfl

/-- The request waits for the picture under the next token (R478). -/
def State.defers (s : State) (r : Nat) (q : SpdmReq) : State :=
  ({ s.setConn r { s.conn r with defer := (s.conn r).defer.filter (fun d => decide (d.1 ≠ s.tokens % 256)) ++ [(s.tokens % 256, q)] } with
    tokens := s.tokens + 1 } : State).notReady r q.code (s.tokens % 256)

theorem spdmRequest_eq {s : State} (on : s.spdmOn = true) (r : Nat) (q : SpdmReq) : s.spdmRequest r q =
    if s.flag R.SEC_STAT.measuring = true then s.defers r q else if (s.conn r).resync = true then s.resynchs r else s.spdmAnswer r q :=
  is_on on _

theorem mem_defers (s : State) (r : Nat) (q : SpdmReq) : (s.tokens % 256, q) ∈ ((s.defers r q).conn r).defer := by
  have conn : (s.defers r q).conn r = { s.conn r with
      defer := (s.conn r).defer.filter (fun d => decide (d.1 ≠ s.tokens % 256)) ++ [(s.tokens % 256, q)] } := conn_setConn s r _
  rw [conn]
  exact List.mem_append_right _ (List.mem_singleton.mpr rfl)

section
variable (s : State) (r : Nat)

theorem spdmAnswer_agreed (m : Nat) (stage : 2 ≤ (s.conn r).stage) : s.spdmAnswer r (.algorithms 1 1 m) =
    (s.setConn r { s.conn r with stage := 3 }).spdmSay r 0x63 [1, 1, m] :=
  (if_neg (Nat.not_lt.mpr stage)).trans (if_pos ⟨rfl, rfl⟩)

theorem spdmAnswer_unsupported {a h m : Nat} (stage : 2 ≤ (s.conn r).stage) (other : (a, h) ≠ (1, 1)) :
    s.spdmAnswer r (.algorithms a h m) = s.emit (.message 2 [r, 1]) :=
  (if_neg (Nat.not_lt.mpr stage)).trans (if_neg fun same => other (Prod.ext same.1 same.2))

theorem spdmAnswer_digests (stage : 3 ≤ (s.conn r).stage) : s.spdmAnswer r .digests =
    s.emit (.message 1 (r :: 0x01 :: 1 :: (sha384 s.chain).map BitVec.toNat)) := if_neg (Nat.not_lt.mpr stage)

theorem spdmAnswer_certificate (sl off len : Nat) (stage : 3 ≤ (s.conn r).stage) : s.spdmAnswer r (.certificate sl off len) =
    s.emit (if sl ≠ 0 ∨ s.chain.length ≤ off then .message 2 [r, 1]
      else let part := (s.chain.drop off).take len
           .message 1 (r :: 0x02 :: sl :: part.length :: (s.chain.length - off - part.length) :: part.map BitVec.toNat)) := by
  refine (if_neg (Nat.not_lt.mpr stage)).trans ?_
  dsimp only
  split_ifs <;> rfl

theorem spdmAnswer_challenge_slot {sl nonce : Nat} (stage : 3 ≤ (s.conn r).stage) (other : sl ≠ 0) :
    s.spdmAnswer r (.challenge sl nonce) = s.emit (.message 2 [r, 1]) := (if_neg (Nat.not_lt.mpr stage)).trans (if_pos other)

theorem spdmAnswer_challenge (nonce : Nat) (stage : 3 ≤ (s.conn r).stage) : s.spdmAnswer r (.challenge 0 nonce) =
    s.takeSig.1.spdmSay r 0x03 ([0, nonce] ++ (sha384 s.chain).map BitVec.toNat ++ s.opaqueData ++ s.takeSig.2.map BitVec.toNat) :=
  (if_neg (Nat.not_lt.mpr stage)).trans (if_neg (not_not.mpr rfl))

/-- The measurement blocks that an index asks for. -/
def State.blocksAt (s : State) (ix : Nat) : List (Nat × Nat) := if ix = 0xFF then s.picture else s.picture.filter (fun b => decide (b.1 = ix))

theorem spdmAnswer_measurements (ix : Nat) (sign : Bool) (sl nonce : Nat) (stage : 3 ≤ (s.conn r).stage) :
    s.spdmAnswer r (.measurements ix sign sl nonce) =
      if (ix ≠ 0 ∧ s.blocksAt ix = []) ∨ (sign = true ∧ sl ≠ 0) then s.emit (.message 2 [r, 1])
      else (if sign then s.takeSig else (s, [])).1.spdmSay r 0x60 ([ix, s.picture.length, (s.blocksAt ix).length, nonce] ++
        (s.blocksAt ix).flatMap (fun b => [b.1, blockType b.1, b.2]) ++ s.opaqueData ++
        (if sign then s.takeSig else (s, [])).2.map BitVec.toNat) :=
  if_neg (Nat.not_lt.mpr stage)

end

theorem answered_spdmAnswer (s : State) (r : Nat) (q : SpdmReq) : Answered s (s.spdmAnswer r q) r := by
  by_cases early : (s.conn r).stage < q.need
  · rw [spdmAnswer_early early]
    exact answered_emit s r _
  · have stage := Nat.not_lt.mp early
    cases q with
    | algorithms asym hash meas =>
      by_cases one : (asym, hash) = (1, 1)
      · obtain ⟨rfl, rfl⟩ := Prod.mk.inj one
        rw [spdmAnswer_agreed s r meas stage]
        exact ⟨(congrArg Conn.defer (conn_setConn_say s r { s.conn r with stage := 3 } 0x63 [1, 1, meas]) :), rfl⟩
      · rw [spdmAnswer_unsupported s r stage one]
        exact answered_emit s r _
    | digests =>
      rw [spdmAnswer_digests s r stage]
      exact answered_emit s r _
    | certificate slot off len =>
      rw [spdmAnswer_certificate s r slot off len stage]
      exact answered_emit s r _
    | challenge slot nonce =>
      by_cases zero : slot = 0
      · subst zero
        rw [spdmAnswer_challenge s r nonce stage]
        exact ⟨rfl, rfl⟩
      · rw [spdmAnswer_challenge_slot s r stage zero]
        exact answered_emit s r _
    | measurements index sign slot nonce =>
      rw [spdmAnswer_measurements s r index sign slot nonce stage]
      by_cases refused : (index ≠ 0 ∧ s.blocksAt index = []) ∨ (sign = true ∧ slot ≠ 0)
      · rw [if_pos refused]
        exact answered_emit s r _
      · rw [if_neg refused]
        cases sign <;> exact ⟨rfl, rfl⟩

/-- Settles O47. -/
theorem attestation : Obligations.Attestation := by
  refine ⟨fun s => ?_, fun s r => ⟨fun off => ⟨?_, congrArg Host.Outcome.next (not_on off _), fun token => congrArg Host.Outcome.next (not_on off _)⟩,
    fun on => ⟨?_, fun again => ?_, fun clear zero => ?_, fun clear stage => ?_, fun token new => ⟨fun idle clear => ?_, fun taking => ?_⟩,
      fun token d taking found => ?_, fun token d idle clear found => ?_⟩⟩, fun s r i q request => ?_⟩
  · have iff : (s.flag R.SEC_STAT.measuring = false ∨ s.boot < 2 ∨ 4 < s.boot ∨ (s.halfDead 0 || s.halfDead 1) = true ∨
        s.flag R.SEC_STAT.recovery = true) ↔ (s.get R.SEC_STAT.measuring = 0 ∨ s.boot < 2 ∨ 4 < s.boot ∨ (s.halfDead 0 || s.halfDead 1) = true ∨
        s.get R.SEC_STAT.recovery = 1) := by
      have bit := get_bit s (f := R.SEC_STAT.measuring) rfl
      simp only [State.flag, decide_eq_false_iff_not, decide_eq_true_eq]
      refine or_congr ?_ Iff.rfl
      omega
    exact ⟨fun off => (exec_measurementPublish s).trans (congrArg _ (if_pos (iff.mpr off))),
      fun run => ⟨_, (exec_measurementPublish s).trans (congrArg _ (if_neg (mt iff.mp run))), published s⟩⟩
  · rw [exec_getVersion, off, if_neg Bool.false_ne_true]
  · exact ⟨_, (exec_getVersion s r).trans (congrArg _ (if_pos on)), conn_setConn_say s _ _ _ _, rfl, ⟨fun _ => rfl, rfl, rfl, rfl⟩, rfl⟩
  · exact ⟨_, (exec_getCapabilities on r).trans (congrArg _ (if_pos again)), resynchs_conn s _, rfl⟩
  · rw [exec_getCapabilities on, if_neg (by rw [clear]; exact Bool.false_ne_true), if_pos zero]
  · exact ⟨_, _, (exec_getCapabilities on r).trans (congrArg _ ((if_neg (by rw [clear]; exact Bool.false_ne_true)).trans (if_neg stage))),
      conn_setConn_say s _ _ _ _, rfl⟩
  · rw [exec_respondIfReady on r token (.inr clear), respond_unknown new, flag_eq_false idle, if_neg Bool.false_ne_true]
    rfl
  · exact ⟨_, _, (exec_respondIfReady on r token (.inl taking)).trans (congrArg _ ((respond_unknown new).trans (if_pos (flag_eq_true taking)))), rfl, rfl, rfl⟩
  · exact ⟨_, _, (exec_respondIfReady on r token (.inl taking)).trans (congrArg _ ((respond_known found).trans (if_pos (flag_eq_true taking)))), rfl, rfl⟩
  · obtain ⟨defer, out⟩ := answered_spdmAnswer (s.setConn r.toNat { s.conn r.toNat with
      defer := (s.conn r.toNat).defer.filter (fun e => decide (e.1 ≠ d.1)) }) r.toNat d.2
    exact ⟨_, (exec_respondIfReady on r token (.inr clear)).trans (congrArg _ ((respond_known found).trans (if_neg (by rw [flag_eq_false idle]; exact Bool.false_ne_true)))),
      defer.trans (congrArg Conn.defer (conn_setConn s _ _)), out⟩
  · have run := exec_deferrable request s
    have answers (on : s.spdmOn = true) (idle : s.get R.SEC_STAT.measuring = 0) (clear : (s.conn r.toNat).resync = false) :
        exec i s = .next (s.spdmAnswer r.toNat q) := by
      rw [run, spdmRequest_eq on, flag_eq_false idle, clear, if_neg Bool.false_ne_true, if_neg Bool.false_ne_true]
    refine ⟨fun off => run.trans (congrArg _ (not_on off _)), fun on taking => ?_, fun on idle again => ?_, fun on idle clear => ?_⟩
    · exact ⟨_, _, run.trans (congrArg _ ((spdmRequest_eq on _ q).trans (if_pos (flag_eq_true taking)))), mem_defers s _ q, rfl, rfl, rfl⟩
    · exact ⟨_, run.trans (congrArg _ ((spdmRequest_eq on _ q).trans ((if_neg (by rw [flag_eq_false idle]; exact Bool.false_ne_true)).trans (if_pos again)))),
        resynchs_conn s _, rfl⟩
    · have answer := answers on idle clear
      refine ⟨fun early => answer.trans (congrArg _ (spdmAnswer_early ?_)), fun stage m same => ?_, fun stage a h m same other => ?_,
        fun stage same => ?_, fun stage sl off len same => ?_, fun stage sl nonce same => ⟨fun other => ?_, fun zero => ?_⟩,
        fun stage ix sign sl nonce same => ⟨fun refused => ?_, fun taken => ?_⟩⟩
      · cases q <;> exact early
      · subst same
        exact ⟨_, answer.trans (congrArg _ (spdmAnswer_agreed s _ m stage)), congrArg Conn.stage (conn_setConn_say s _ _ _ _), rfl⟩
      · subst same
        exact answer.trans (congrArg _ (spdmAnswer_unsupported s _ stage other))
      · subst same
        exact answer.trans (congrArg _ (if_neg (Nat.not_lt.mpr stage)))
      · subst same
        exact answer.trans (congrArg _ (spdmAnswer_certificate s _ sl off len stage))
      · subst same
        exact answer.trans (congrArg _ (spdmAnswer_challenge_slot s _ stage other))
      · subst same zero
        exact ⟨_, _, answer.trans (congrArg _ (spdmAnswer_challenge s _ nonce stage)), rfl, rfl⟩
      · subst same
        exact answer.trans (congrArg _ ((spdmAnswer_measurements s _ ix sign sl nonce stage).trans (if_pos refused)))
      · subst same
        refine ⟨_, s.opaqueData ++ (if sign then s.takeSig else (s, [])).2.map BitVec.toNat,
          answer.trans (congrArg _ ((spdmAnswer_measurements s _ ix sign sl nonce stage).trans (if_neg taken))), ?_, ?_⟩
        · cases sign <;> rfl
        · rw [List.append_assoc, List.append_assoc]
          cases sign <;> rfl

end Sys2Proof.Machine

namespace Sys2Proof.Machine

-- One proof at a time: threads that wait for each other hold memory.
set_option Elab.async false

/-! ## Numeric sensors and register messages of the management endpoint (R455, R458, R459) -/

/-- The readings before the stacks' and after them. -/
def State.readings (s : State) : List Nat :=
  (List.range 24).map (fun n => s.get (R.THM_CD.grid_max n)) ++ ((List.range 24).map (fun n => s.get (R.THM_CD.cd_temp n))
    ++ [s.get R.THM_COOL.inlet, s.get R.THM_COOL.outlet, s.get R.PWR_MEAS.watts, s.get R.PWR_MEAS.volts, s.get R.PWR_MEAS.amps,
        s.get R.PWR_STAT.ceiling] ++ let r := KMap.find (fun _ => []) s.mtrRec (s.get R.MTR_IDX.rec)
        [fieldAt r 16 8, fieldAt r 32 4, fieldAt r 36 2, fieldAt r 38 2, s.get R.MTR_STAT.seal_broken])

theorem sensor_eq (s : State) (i : Nat) : s.sensor i =
    ((List.range 4).map (fun h => s.get (R.THM_LD.max h)) ++ ((List.range 24).map (fun i => s.get (R.THM_HBM.temp i)) ++ s.readings))[i]? := by
  simp [State.sensor, State.readings]

theorem readings_length (s : State) : s.readings.length = 59 := by simp [State.readings]

theorem sensor_stack (s : State) {i : Nat} (lt : i < 24) : s.sensor (4 + i) = some (s.get (R.THM_HBM.temp i)) := by
  rw [sensor_eq, List.getElem?_append_right (by simp), List.getElem?_append_left (by simp; omega)]
  simp [lt]

theorem sensor_rest (s : State) (i : Nat) : s.sensor (28 + i) = s.readings[i]? := by
  rw [sensor_eq, List.getElem?_append_right (by simp; omega), List.getElem?_append_right (by simp; omega)]
  congr 1
  simp
  omega

theorem sensor_inlet (s : State) : s.sensor 76 = some (s.get R.THM_COOL.inlet) := (sensor_rest s 48).trans rfl

theorem sensor_watts (s : State) : s.sensor 78 = some (s.get R.PWR_MEAS.watts) := (sensor_rest s 50).trans rfl

theorem sensor_none (s : State) {i : Nat} (big : 87 ≤ i) : s.sensor i = none := by
  obtain ⟨k, rfl⟩ : ∃ k, i = 28 + k := ⟨i - 28, by omega⟩
  rw [sensor_rest, List.getElem?_eq_none (by rw [readings_length]; omega)]

section
variable {s : State} (on : s.mctpOn = true)
include on

/-- A request of PLDM outside recovery is answered. -/
theorem exec_pldmSensorRead (live : s.flag R.SEC_STAT.recovery = false) (q : PldmReq) : exec (.pldmSensorRead q) s = .next (
    match q with
    | .sensor id => (match s.sensor id.toNat with
      | some v => s.emit (.message 3 [2, id.toNat, v])
      | none => s.emit (.message 3 [2, id.toNat, 0x80]))
    | .setTid t => if t.toNat = 0 ∨ t.toNat = 0xFF then s.emit (.message 3 [0, 1, 2])
                   else ({ s with tid := t.toNat } : State).emit (.message 3 [0, 1, 0])
    | .getTid => s.emit (.message 3 [0, 2, 0, s.tid])
    | .types => s.emit (.message 3 [0, 4, 0, 2 ^ 0 + 2 ^ 2 + 2 ^ 5])
    | .version t => if pldmTypes.contains t.toNat then s.emit (.message 3 [0, 3, 0, (Config.pldmVersion t.toNat).toNat])
                    else s.emit (.message 3 [0, 3, 0x83])
    | .commands t => if pldmTypes.contains t.toNat then s.emit (.message 3 [0, 5, 0, (Config.pldmCommands t.toNat).toNat])
                     else s.emit (.message 3 [0, 5, 0x83])) :=
  congrArg Host.Outcome.next ((if_neg (by simp [on, live])).trans (by cases q <;> rfl))

theorem exec_pldmSensor (live : s.flag R.SEC_STAT.recovery = false) (id : BitVec 8) : exec (.pldmSensorRead (.sensor id)) s =
    .next (s.emit (.message 3 [2, id.toNat, (s.sensor id.toNat).getD 0x80])) := by
  rw [exec_pldmSensorRead on live]
  dsimp only
  cases s.sensor id.toNat <;> rfl

theorem exec_mctpControl (q : MctpReq) : exec (.mctpControl q) s = .next (
    match q with
    | .getEid => s.emit (.message 5 [2, s.eid])
    | .setEid e => if e.toNat < 8 ∨ e.toNat = 0xFF then s.emit (.message 5 [1, 1, s.eid])
                   else ({ s with eid := e.toNat } : State).emit (.message 5 [1, 0, e.toNat])
    | .uuid => s.emit (.message 5 [3, 0, (Config.mctpUuid s.mfg.serial).toNat])
    | .version t => if t.toNat = 0xFF ∨ mctpTypes.contains t.toNat then s.emit (.message 5 [4, 0, (Config.mctpVersion t.toNat).toNat])
                    else s.emit (.message 5 [4, 0x80])
    | .types => s.emit (.message 5 ([5, 0] ++ mctpTypes))) :=
  congrArg Host.Outcome.next ((if_neg (by simp [on])).trans (by cases q <;> rfl))

end

theorem mem_pldmTypes (y : BitVec 6) (h0 : y ≠ 0) (h2 : y ≠ 2) (h5 : y ≠ 5) : pldmTypes.contains y.toNat = false := by
  revert y
  decide

theorem mem_mctpTypes (y : BitVec 8) : (y.toNat = 0xFF ∨ mctpTypes.contains y.toNat = true) ↔ (y = 0xFF ∨ y = 0 ∨ y = 1 ∨ y = 5 ∨ y = 0x7E) := by
  revert y
  decide

/-! ### Register messages -/

theorem exec_msgRegisterRead {s : State} (on : s.vdmOn = true) (off : BitVec 26) (size : BitVec 4) : exec (.msgRegisterRead off size) s = .next (
    if accessOk off.toNat size.toNat = false then (s.cfgRange none off.toNat).answer [2]
    else if s.flag R.HOST_STAT.ready = false then s.answer [3]
    else match s.reachReg off.toNat with
      | .down e w => (s.raise e none w off.toNat).answer [3]
      | .absent => s.answer [0, 0]
      | .ok => s.answer [0, if 0x03C0_0000 ≤ off.toNat ∧ off.toNat < 0x03D0_0000 then 0 else s.read48 off.toNat size.toNat]) :=
  congrArg Host.Outcome.next ((if_neg (by simp [on])).trans rfl)

theorem exec_msgRegisterWrite {s : State} (on : s.vdmOn = true) (off : BitVec 26) (size : BitVec 4) (v : BitVec 64) :
    exec (.msgRegisterWrite off size v) s = .next (
      if accessOk off.toNat size.toNat = false then (s.cfgRange none off.toNat).answer [2]
      else if s.flag R.HOST_STAT.ready = false then s.answer [3]
      else (s.bar0Write .mgmt off.toNat size.toNat v.toNat).1.answer [(s.bar0Write .mgmt off.toNat size.toNat v.toNat).2]) :=
  congrArg Host.Outcome.next ((if_neg (by simp [on])).trans rfl)

/-- Which registers a write reaches does not depend on the value written. -/
theorem regWrites_isEmpty (m : Master) (off size v w : Nat) : (regWrites m off size v).isEmpty = (regWrites m off size w).isEmpty := by
  unfold regWrites
  cases regAt off with
  | none =>
    dsimp only
    split
    · cases regAt (off + 4) <;> rfl
    · rfl
  | some x =>
    dsimp only
    split <;> rfl

theorem ownDrop_count (s : State) (m : Master) (off : Nat) : s.Counted (s.ownDrop m off) R.OWN_LOG.count 1 := by
  unfold State.Counted State.ownDrop
  rw [raise_get _ (by decide), State.get_count_same, puts_get_other s (by simp only [List.forall_mem_cons]; decide)]

theorem answer_get (s : State) (body : List Nat) (g : Fld) : (s.answer body).get g = s.get g := get_congr rfl g

theorem ownDrop_logged (s : State) (m : Master) (off : Nat) (body : List Nat) :
    ((s.ownDrop m off).answer body).log.head?.map LogEntry.code = some E.CFG_OWNER := log_code_of_raise

theorem ownDrop_ckptTmo (s : State) (m : Master) (off : Nat) : (s.ownDrop m off).get R.CKPT_TMO.ticks = s.get R.CKPT_TMO.ticks := by
  rw [State.ownDrop, raise_get _ (by decide), State.get_count_other _ _ _ _ (by decide),
    puts_get_other s (by simp only [List.forall_mem_cons]; decide)]

theorem counted_answer {s t : State} {f : Fld} {n : Nat} (counted : s.Counted t f n) (body : List Nat) : s.Counted (t.answer body) f n :=
  (answer_get t body f).trans counted

theorem sameMem_answer {s t : State} (same : SameMem s t) (body : List Nat) : SameMem s (t.answer body) :=
  same.trans (sameMem_of_eq rfl rfl rfl rfl)

theorem ownDrop_sameMem (s : State) (m : Master) (off : Nat) : SameMem s (s.ownDrop m off) :=
  sameMem_of_unlogged (by simp [State.ownDrop])

/-- A register of one 48-bit field that its owner writes. -/
def oneField (name : String) (off : Nat) : RegAt := ⟨⟨name, off, [], 64, [⟨0, 48, .own⟩]⟩, [], off⟩

theorem writePlain_oneField (s : State) (name : String) (off v : Nat) (m : Master) : s.writePlain ⟨oneField name off, 0, 64, v, m⟩ =
    s.put ⟨8 * off, 48⟩ (bits (s.merged ⟨oneField name off, 0, 64, v, m⟩) 0 48) := rfl

theorem merged_oneField (s : State) (name : String) (off v : Nat) (m : Master) :
    bits (s.merged ⟨oneField name off, 0, 64, v, m⟩) 0 48 = v % 2 ^ 48 := by
  have small : s.get ⟨8 * off, 48⟩ < 2 ^ 48 := State.get_lt s _
  have read : s.merged ⟨oneField name off, 0, 64, v, m⟩ = setBits (s.get ⟨8 * off, 48⟩) 0 64 v := by
    simp [oneField, State.merged, State.readField]
  rw [read]
  simp only [bits, setBits]
  omega

/-- The register of the checkpoint's time-out. -/
def ckptTmoReg : RegAt := oneField "CKPT_TMO" 0x3a10010

theorem regAt_ckptTmo : regAt 0x03A1_0010 = some ckptTmoReg := by decide

theorem forbidden_ckptTmo (s : State) (v : Nat) (m : Master) : s.forbidden ⟨ckptTmoReg, 0, 64, v, m⟩ = !s.owns m 1 := by
  cases owned : s.owns m 1 <;> simp [State.forbidden, ckptTmoReg, oneField, RegWr.touched, ownerless, ownDomain, owned]

/-- The time-out's register has no behaviour of its own. -/
theorem writeReg_ckptTmo (s : State) (v : Nat) (m : Master) :
    s.writeReg ⟨ckptTmoReg, 0, 64, v, m⟩ = s.put R.CKPT_TMO.ticks (v % 2 ^ 48) := by
  have die (w : Nat) : s.writeDie ⟨ckptTmoReg, 0, 64, v, m⟩ w = none := by simp [State.writeDie, ckptTmoReg, oneField]
  have tables (w : Nat) : s.writeTables ⟨ckptTmoReg, 0, 64, v, m⟩ w = none := by simp [State.writeTables, ckptTmoReg, oneField]
  have steward (w : Nat) : s.writeSteward ⟨ckptTmoReg, 0, 64, v, m⟩ w = none := by simp [State.writeSteward, ckptTmoReg, oneField]
  have edge (w : Nat) : s.writeEdge ⟨ckptTmoReg, 0, 64, v, m⟩ w = none := by simp [State.writeEdge, ckptTmoReg, oneField]
  rw [State.writeReg, die, tables, steward, edge]
  refine (writePlain_oneField s _ _ v m).trans ?_
  rw [merged_oneField]
  rfl

theorem bar0Write_ckptTmo {s : State} (calm : s.flag R.RAS_STAT.fatal = false) (v : Nat) : s.bar0Write .mgmt 0x03A1_0010 8 v =
    if s.owns .mgmt 1 = true then (s.put R.CKPT_TMO.ticks (v % 2 ^ 48), 0) else (s.ownDrop .mgmt 0x03A1_0010, 1) := by
  have writes : regWrites .mgmt 0x03A1_0010 8 v = [⟨ckptTmoReg, 0, 64, v, .mgmt⟩] := by rw [regWrites, regAt_ckptTmo]; rfl
  have one : s.writeOne ⟨ckptTmoReg, 0, 64, v, .mgmt⟩ =
      if s.forbidden ⟨ckptTmoReg, 0, 64, v, .mgmt⟩ then (s.ownDrop .mgmt 0x03A1_0010, 1) else (s.writeReg ⟨ckptTmoReg, 0, 64, v, .mgmt⟩, 0) := by
    rw [State.writeOne, calm]
    rfl
  have all : s.bar0Write .mgmt 0x03A1_0010 8 v = s.writeAll [⟨ckptTmoReg, 0, 64, v, .mgmt⟩] := by
    rw [State.bar0Write, writes]
    rfl
  rw [all, State.writeAll, List.foldl_cons, List.foldl_nil]
  dsimp only
  rw [one, forbidden_ckptTmo, writeReg_ckptTmo]
  cases s.owns .mgmt 1 <;> rfl

theorem exec_msgRegisterRead_ready {s : State} {off : BitVec 26} {size : BitVec 4} (on : s.vdmOn = true) (ok : accessOk off.toNat size.toNat = true)
    (ready : s.get R.HOST_STAT.ready = 1) : exec (.msgRegisterRead off size) s = .next (
      match s.reachReg off.toNat with
      | .down e w => (s.raise e none w off.toNat).answer [3]
      | .absent => s.answer [0, 0]
      | .ok => s.answer [0, if 0x03C0_0000 ≤ off.toNat ∧ off.toNat < 0x03D0_0000 then 0 else s.read48 off.toNat size.toNat]) := by
  rw [exec_msgRegisterRead on, ok, flag_eq_true ready]
  rfl

/-- Management's write of the checkpoint's time-out. -/
theorem exec_msgRegisterWrite_ckptTmo {s : State} (on : s.vdmOn = true) (opened : s.Open) (v : BitVec 64) :
    exec (.msgRegisterWrite 0x03A1_0010 8 v) s = .next (
      if s.owns .mgmt 1 = true then (s.put R.CKPT_TMO.ticks (v.toNat % 2 ^ 48)).answer [0] else (s.ownDrop .mgmt 0x03A1_0010).answer [1]) := by
  obtain ⟨ready, calm⟩ := opened
  have run := exec_msgRegisterWrite on 0x03A1_0010 8 v
  rw [ready, show (0x03A1_0010 : BitVec 26).toNat = 0x03A1_0010 from rfl, show (8 : BitVec 4).toNat = 8 from rfl, bar0Write_ckptTmo calm,
    if_neg (by decide), if_neg (by decide)] at run
  rw [run]
  split <;> rfl

/-! ### Orders -/

theorem exec_msgOrder {s : State} (on : s.vdmOn = true) (kind : BitVec 4) (arg : BitVec 16) : exec (.msgOrder kind arg) s = .next (
    if s.flag R.HOST_STAT.ready = false then s.answer [3] else (s.giveOrder .mgmt kind.toNat arg.toNat).answer [0]) :=
  congrArg Host.Outcome.next ((if_neg (by simp [on])).trans rfl)

theorem exec_msgOrder_ready {s : State} (on : s.vdmOn = true) (ready : s.get R.HOST_STAT.ready = 1) (kind : BitVec 4) (arg : BitVec 16) :
    exec (.msgOrder kind arg) s = .next ((s.giveOrder .mgmt kind.toNat arg.toNat).answer [0]) :=
  (exec_msgOrder on kind arg).trans (congrArg _ (if_neg (by rw [flag_eq_true ready]; exact Bool.false_ne_true.symm)))

/-- The argument that an order keeps: kind 1 has none. -/
def orderArg (kind arg : Nat) : Nat := if kind = 1 then 0 else arg

theorem orderArg_toNat (kind : BitVec 4) (arg : BitVec 16) : (if kind = 1 then 0 else arg.toNat) = orderArg kind.toNat arg.toNat :=
  if_congr ⟨fun one => congrArg BitVec.toNat one, fun one => BitVec.eq_of_toNat_eq one⟩ rfl rfl

/-- Management's slot forgets its last order. -/
def State.mgmtForgets (s : State) (kind result : Nat) : State :=
  { s with won := untell 1 s.won, mgmtOrd := untell 1 s.mgmtOrd, mgmtRes := (kind, result) }

theorem mgmtForgets_refused (s : State) (kind result detail : Nat) :
    ((s.mgmtForgets kind result).cfgRange none detail).mgmtRes = (kind, result) ∧
      ((s.mgmtForgets kind result).cfgRange none detail).mgmtOrd = untell 1 s.mgmtOrd ∧
      ((s.mgmtForgets kind result).cfgRange none detail).hostOrd = s.hostOrd := by
  have rest := cfgRange_unlogged (s.mgmtForgets kind result) none detail
  exact ⟨(congrArg State.mgmtRes rest :), (congrArg State.mgmtOrd rest :), (congrArg State.hostOrd rest :)⟩

theorem giveOrder_mgmt (s : State) (kind arg : Nat) : s.giveOrder .mgmt kind arg =
    if orderOk kind (orderArg kind arg) = true ∧ s.orderTaken kind (orderArg kind arg) = true then
      { s.mgmtForgets kind 0 with mgmtOrd := putOrder ⟨kind, orderArg kind arg, 1⟩ (untell 1 s.mgmtOrd) }
    else (s.mgmtForgets kind 3).cfgRange none (16 * orderArg kind arg + kind) := by
  have arg' : (if kind = 1 then 0 else arg) = orderArg kind arg := rfl
  unfold State.giveOrder
  dsimp only
  rw [arg']
  cases orderOk kind (orderArg kind arg) <;> cases s.orderTaken kind (orderArg kind arg) <;> rfl

theorem untell_orders (src : Nat) (l : List Order) : (untell src l).map (fun x => (x.kind, x.arg)) = l.map (fun x => (x.kind, x.arg)) := by
  rw [untell, List.map_map]
  refine List.map_congr_left fun o _ => ?_
  simp only [Function.comp]
  split <;> rfl

theorem mem_putOrder (o : Order) (l : List Order) : o ∈ putOrder o l := List.mem_append_right _ (List.mem_singleton.mpr rfl)

theorem eq_of_mem_putOrder {o x : Order} {l : List Order} (mem : x ∈ putOrder o l) (kind : x.kind = o.kind) : x = o := by
  rcases List.mem_append.mp mem with old | new
  · exact absurd kind (of_decide_eq_true (List.mem_filter.mp old).2)
  · exact List.mem_singleton.mp new

/-! ### The obligation -/

/-- Settles O49. -/
theorem managementMessages : Obligations.ManagementMessages := by
  refine ⟨fun s off => ?_, fun s off => ?_, fun s on => ⟨fun rec _ => ?_, fun live => ?_, exec_mctpControl on .getEid, exec_mctpControl on .types,
    ⟨_, exec_mctpControl on .uuid⟩, fun y => ⟨fun known => ?_, fun h1 h2 h3 h4 h5 => ?_⟩, fun e low high => ?_, fun e bad => ?_, fun sta addr => ?_, fun vdm => ?_⟩,
    fun s off size on => ⟨fun bad => ?_, fun ok notReady => ?_, fun ok ready => ⟨fun none_ v => ?_, fun reach => ?_, fun reach => ?_, fun e w reach => ?_⟩⟩,
    fun s v on opened => ⟨fun owned => ?_, fun owned => ?_⟩, fun s kind arg on => ⟨fun notReady => ?_, fun ready ok => ?_, fun ready bad => ?_⟩⟩
  · have silent : (!s.mctpOn) = true := by rw [off]; rfl
    exact ⟨fun _ => congrArg Host.Outcome.next (if_pos (.inl silent)), fun _ => congrArg Host.Outcome.next (if_pos silent),
      fun _ _ => congrArg Host.Outcome.next (if_pos (.inl silent))⟩
  · have silent : (!s.vdmOn) = true := by rw [off]; rfl
    exact ⟨fun _ _ => congrArg Host.Outcome.next (if_pos silent), fun _ _ _ => congrArg Host.Outcome.next (if_pos silent),
      fun _ _ => congrArg Host.Outcome.next (if_pos silent), congrArg Host.Outcome.next (if_pos silent)⟩
  · exact congrArg Host.Outcome.next (if_pos (.inr (flag_eq_true rec)))
  · have quiet := flag_eq_false live
    refine ⟨fun i => ?_, ?_, ?_, fun id big => ?_, fun d low high => ?_, exec_pldmSensorRead on quiet _, exec_pldmSensorRead on quiet _,
      fun y h0 h2 h5 => ⟨?_, ?_⟩⟩
    · have id : (BitVec.ofNat 8 (4 + i.val)).toNat = 4 + i.val := by
        rw [BitVec.toNat_ofNat]
        omega
      rw [exec_pldmSensor on quiet, id, sensor_stack s i.isLt]
      rfl
    · rw [exec_pldmSensor on quiet, show (76 : BitVec 8).toNat = 76 from rfl, sensor_inlet]
      rfl
    · rw [exec_pldmSensor on quiet, show (78 : BitVec 8).toNat = 78 from rfl, sensor_watts]
      rfl
    · rw [exec_pldmSensor on quiet, sensor_none s big]
      rfl
    · refine (exec_pldmSensorRead on quiet _).trans (congrArg _ (if_neg ?_))
      rintro (zero | ones)
      · exact low (BitVec.eq_of_toNat_eq zero)
      · exact high (BitVec.eq_of_toNat_eq ones)
    · exact (exec_pldmSensorRead on quiet _).trans (congrArg _ (if_neg (by rw [mem_pldmTypes y h0 h2 h5]; exact Bool.false_ne_true)))
    · exact (exec_pldmSensorRead on quiet _).trans (congrArg _ (if_neg (by rw [mem_pldmTypes y h0 h2 h5]; exact Bool.false_ne_true)))
  · exact ⟨_, (exec_mctpControl on _).trans (congrArg _ (if_pos ((mem_mctpTypes y).mpr known)))⟩
  · exact (exec_mctpControl on _).trans (congrArg _ (if_neg (mt (mem_mctpTypes y).mp
      fun same => same.elim h1 fun same => same.elim h2 fun same => same.elim h3 fun same => same.elim h4 h5)))
  · exact ⟨_, (exec_mctpControl on _).trans (congrArg _ (if_neg (by omega))), rfl, rfl, rfl⟩
  · exact (exec_mctpControl on _).trans (congrArg _ (if_pos bad))
  · refine ⟨fun none_ named => ?_, fun refused => ?_⟩
    · have free : ¬((!s.mctpOn) = true ∨ s.i3c.isSome = true) := by simp [on, none_]
      refine congrArg Host.Outcome.next ((if_neg free).trans ?_)
      rcases named with rfl | ⟨a, rfl, slot⟩
      · rfl
      · exact if_pos slot
    · by_cases taken : s.i3c = none
      · obtain ⟨a, rfl, slot⟩ := refused.resolve_left (not_not.mpr taken)
        exact congrArg Host.Outcome.next ((if_neg (by simp [on, taken])).trans (if_neg slot))
      · exact congrArg Host.Outcome.next (if_pos (.inr (Option.isSome_iff_ne_none.mpr taken)))
  · exact congrArg Host.Outcome.next (if_neg (by simp [vdm]))
  · exact ⟨_, (exec_msgRegisterRead on off size).trans (congrArg _ (if_pos bad)), rfl, log_code_of_raise⟩
  · have down := flag_eq_false notReady
    have aligned : ¬accessOk off.toNat size.toNat = false := by simp [ok]
    exact ⟨(exec_msgRegisterRead on off size).trans (congrArg _ ((if_neg aligned).trans (if_pos down))),
      fun v => (exec_msgRegisterWrite on off size v).trans (congrArg _ ((if_neg aligned).trans (if_pos down)))⟩
  · have up : ¬s.flag R.HOST_STAT.ready = false := by simp [flag_eq_true ready]
    have aligned : ¬accessOk off.toNat size.toNat = false := by simp [ok]
    have dropped : s.bar0Write .mgmt off.toNat size.toNat v.toNat = (s.ownDrop .mgmt off.toNat, 1) :=
      if_pos ⟨rfl, by rw [regWrites_isEmpty .mgmt _ _ _ 0, none_]; rfl⟩
    have run := (exec_msgRegisterWrite on off size v).trans (congrArg Host.Outcome.next ((if_neg aligned).trans (if_neg up)))
    rw [dropped] at run
    exact ⟨_, run, sameMem_answer (ownDrop_sameMem s .mgmt off.toNat) _, counted_answer (ownDrop_count s .mgmt off.toNat) _, rfl,
      ownDrop_logged s _ _ _⟩
  · rw [exec_msgRegisterRead_ready on ok ready, reach]
    rfl
  · rw [exec_msgRegisterRead_ready on ok ready, reach]
    rfl
  · refine ⟨(s.raise e none w off.toNat).answer [3], (exec_msgRegisterRead_ready on ok ready).trans (by rw [reach]), rfl, log_code_of_raise⟩
  · have run := exec_msgRegisterWrite_ckptTmo on opened v
    rw [if_pos owned] at run
    exact run
  · have run := exec_msgRegisterWrite_ckptTmo on opened v
    rw [if_neg (by simp [owned])] at run
    exact ⟨_, run, (answer_get _ _ _).trans (ownDrop_ckptTmo s _ _), rfl, ownDrop_logged s _ _ _⟩
  · exact (exec_msgOrder on kind arg).trans (congrArg _ (if_pos (flag_eq_false notReady)))
  · have run := exec_msgOrder_ready on ready kind arg
    rw [giveOrder_mgmt, if_pos (orderArg_toNat kind arg ▸ ok)] at run
    exact ⟨_, run, by rw [orderArg_toNat]; exact mem_putOrder _ _, fun x mem same => by rw [orderArg_toNat] at same ⊢; exact eq_of_mem_putOrder mem same, rfl, rfl, rfl, rfl⟩
  · have run := exec_msgOrder_ready on ready kind arg
    rw [giveOrder_mgmt, if_neg (orderArg_toNat kind arg ▸ bad)] at run
    obtain ⟨result, orders, hosts⟩ := mgmtForgets_refused s kind.toNat 3 (16 * orderArg kind.toNat arg.toNat + kind.toNat)
    exact ⟨_, run, result, (congrArg _ orders).trans (untell_orders 1 _), hosts, log_code_of_raise, rfl⟩

end Sys2Proof.Machine

namespace Sys2Proof.Machine

-- One proof at a time: threads that wait for each other hold memory.
set_option Elab.async false

/-! ## Die commands (R438) -/

/-- What is left of a state beside the meter's samples. -/
def State.unmetered (s : State) : State := { s with meter := State.reset.meter }

theorem sampleOne_unmetered (s : State) (key : Nat) (f : Fld) (w owner : Nat) : (s.sampleOne key f w owner).unmetered = s.unmetered := rfl

/-- A fold keeps what each of its steps keeps. -/
theorem foldl_keeps {α β : Type} (p : State → β) (f : State → α → State) (keeps : ∀ s a, p (f s a) = p s) (l : List α) (s : State) :
    p (l.foldl f s) = p s := by
  induction l generalizing s with
  | nil => rfl
  | cons a l ih => exact (ih _).trans (keeps s a)

theorem sampleDies_unmetered (s : State) (lo hi : Nat) : (s.sampleDies lo hi).unmetered = s.unmetered := by
  refine foldl_keeps State.unmetered _ (fun s n => ?_) _ s
  split
  · exact foldl_keeps State.unmetered _ (fun s i => sampleOne_unmetered s _ _ _ _) _ s
  · rfl

theorem sampleActivity_unmetered (s : State) : s.sampleActivity.unmetered = s.unmetered :=
  (foldl_keeps State.unmetered _ (fun s _ => sampleOne_unmetered s _ _ _ _) _ _).trans (sampleDies_unmetered s 0 24)

theorem regs_of_unmetered {s t : State} (same : t.unmetered = s.unmetered) : t.regs = s.regs := (congrArg State.regs same :)

theorem sameMem_of_unmetered {s t : State} (same : t.unmetered = s.unmetered) : SameMem s t :=
  sameMem_of_eq (congrArg State.mem same :) (congrArg State.bad same :) (congrArg State.plist same :) (congrArg State.linkErr same :)

theorem sampleActivity_get (s : State) (g : Fld) : s.sampleActivity.get g = s.get g :=
  get_congr (regs_of_unmetered (sampleActivity_unmetered s)) g

theorem sampleActivity_sameMem (s : State) : SameMem s s.sampleActivity := sameMem_of_unmetered (sampleActivity_unmetered s)

theorem deriveKeys_regs (s : State) : s.deriveKeys.regs = s.regs := rfl

theorem deriveKeys_sameMem (s : State) : SameMem s s.deriveKeys := sameMem_of_eq rfl rfl rfl rfl

/-- The power domains are set by two writes, after which keys are derived. -/
theorem holdDomains_eq (s : State) : ∃ x y, s.holdDomains = ((s.put (R.PWR_PD.on 0) x).put (R.PWR_PD.on 1) y).deriveKeys := ⟨_, _, rfl⟩

theorem holdDomains_get (s : State) {g : Fld} (apart : g.a ≠ (R.PWR_PD.on 0).a ∧ g.a ≠ (R.PWR_PD.on 1).a) : s.holdDomains.get g = s.get g := by
  obtain ⟨x, y, eq⟩ := holdDomains_eq s
  rw [eq, get_congr (deriveKeys_regs _), State.get_put_other _ _ _ _ apart.2, State.get_put_other _ _ _ _ apart.1]

theorem holdDomains_sameMem (s : State) : SameMem s s.holdDomains := by
  obtain ⟨x, y, eq⟩ := holdDomains_eq s
  rw [eq]
  exact (sameMem_of_eq rfl rfl rfl rfl : SameMem s _).trans (deriveKeys_sameMem _)

theorem dieResult_get_other (s : State) (n r : Nat) {g : Fld} (apart : g.a ≠ R.DIE_CSTAT.result.a ∧ g.a ≠ R.DIE_CSTAT.die.a) :
    (s.dieResult n r).get g = s.get g :=
  puts_get_other s (by simp only [List.forall_mem_cons]; exact ⟨apart.1, apart.2, by simp⟩)

/-- Two fields written at once. -/
theorem puts_two (s : State) {f g : Fld} (v w : Nat) (apart : f.a ≠ g.a) :
    (s.puts [(f, v), (g, w)]).get f = v % 2 ^ f.w ∧ (s.puts [(f, v), (g, w)]).get g = w % 2 ^ g.w :=
  ⟨(State.get_put_other _ _ _ _ apart).trans (State.get_put_same _ _ _), State.get_put_same _ _ _⟩

theorem dieResult_get_result (s : State) {n r : Nat} (small : r < 4) : (s.dieResult n r).get R.DIE_CSTAT.result = r :=
  (puts_two s r n (by decide)).1.trans (Nat.mod_eq_of_lt small)

theorem dieResult_get_die (s : State) {n r : Nat} (small : n < 24) : (s.dieResult n r).get R.DIE_CSTAT.die = n :=
  (puts_two s r n (by decide)).2.trans (Nat.mod_eq_of_lt (by simp only [R.DIE_CSTAT.die]; omega))

theorem dieResult_sameMem (s : State) (n r : Nat) : SameMem s (s.dieResult n r) := sameMem_of_unlogged (puts_unlogged s _)

/-- A die command that is refused. -/
def State.dieRefused (s : State) (n c : Nat) : State := (s.raise E.CFG_COMMIT (some c) (atLd (ldOfDie n)) n).dieResult n 2

theorem dieRefused_sameMem (s : State) (n c : Nat) : SameMem s (s.dieRefused n c) :=
  (sameMem_of_unlogged (raise_unlogged s _ _ _ _)).trans (dieResult_sameMem _ n 2)

theorem dieRefused_get (s : State) (n c : Nat) {g : Fld} (low : g.a < 8 * 0x3e00000) (apart : g.a ≠ R.DIE_CSTAT.result.a ∧ g.a ≠ R.DIE_CSTAT.die.a) :
    (s.dieRefused n c).get g = s.get g := (dieResult_get_other _ n 2 apart).trans (raise_get s low)

theorem dieRefused_logged (s : State) (n c : Nat) : (s.dieRefused n c).log.head?.map LogEntry.code = some E.CFG_COMMIT := log_code_of_raise

/-- A die given to context `c`. -/
def State.dieAssigned (s : State) (n c : Nat) : State :=
  ((s.puts [(R.DIE_OWN.assigned n, 1), (R.DIE_OWN.ctx n, c)]).holdDomains).sampleActivity.dieResult n 1

theorem dieAssigned_sameMem (s : State) (n c : Nat) : SameMem s (s.dieAssigned n c) :=
  (((sameMem_of_unlogged (puts_unlogged s _)).trans (holdDomains_sameMem _)).trans (sampleActivity_sameMem _)).trans (dieResult_sameMem _ n 1)

/-- The places of the ownership word of a die: below the result's and the power domains'. -/
structure DieOwnPlace (g : Fld) : Prop where
  low : g.a < 8 * 0x3e00000
  result : g.a ≠ R.DIE_CSTAT.result.a ∧ g.a ≠ R.DIE_CSTAT.die.a
  domains : g.a ≠ (R.PWR_PD.on 0).a ∧ g.a ≠ (R.PWR_PD.on 1).a

theorem dieOwnPlace_of_lt {g : Fld} (place : g.a < 8 * 0x181100) : DieOwnPlace g := by
  refine ⟨by omega, ⟨?_, ?_⟩, ?_, ?_⟩ <;> simp only [R.DIE_CSTAT.result, R.DIE_CSTAT.die, R.PWR_PD.on] <;> omega

section
variable {n : Nat} (die : n < 24)
include die

theorem assigned_place : DieOwnPlace (R.DIE_OWN.assigned n) := dieOwnPlace_of_lt (by simp only [R.DIE_OWN.assigned]; omega)

theorem zeroing_place : DieOwnPlace (R.DIE_OWN.zeroing n) := dieOwnPlace_of_lt (by simp only [R.DIE_OWN.zeroing]; omega)

theorem ctx_place : DieOwnPlace (R.DIE_OWN.ctx n) := dieOwnPlace_of_lt (by simp only [R.DIE_OWN.ctx]; omega)

end

theorem dieOwn_apart (n : Nat) : (R.DIE_OWN.assigned n).a ≠ (R.DIE_OWN.ctx n).a := by simp [R.DIE_OWN.assigned, R.DIE_OWN.ctx]

theorem dieAssigned_get (s : State) (n c : Nat) {g : Fld} (place : DieOwnPlace g) :
    (s.dieAssigned n c).get g = (s.puts [(R.DIE_OWN.assigned n, 1), (R.DIE_OWN.ctx n, c)]).get g :=
  (dieResult_get_other _ n 1 place.result).trans ((sampleActivity_get _ g).trans (holdDomains_get _ place.domains))

theorem dieAssigned_owner (s : State) {n c : Nat} (die : n < 24) (ctx : c < 64) :
    (s.dieAssigned n c).get (R.DIE_OWN.assigned n) = 1 ∧ (s.dieAssigned n c).get (R.DIE_OWN.ctx n) = c := by
  obtain ⟨assigned, owner⟩ := puts_two s 1 c (dieOwn_apart n)
  exact ⟨(dieAssigned_get s n c (assigned_place die)).trans assigned,
    (dieAssigned_get s n c (ctx_place die)).trans (owner.trans (Nat.mod_eq_of_lt ctx))⟩

theorem exec_dieCmdAssign {s : State} (opened : s.Open) (die : Fin 24) (c : Fin 64) : exec (.dieCmdAssign die c) s = .next (
    if s.halfInReset (halfOfDie die.val) then s.raise E.LINK_HALF_DOWN (some c.val) (atEntry (ldOfDie die.val)) die.val
    else if s.flag R.DIE_CSTAT.busy then s.cfgRange (some c.val) 0x0018_1100
    else if s.flag (R.DIE_OWN.assigned die.val) ∨ s.flag (R.DIE_OWN.zeroing die.val) ∨ s.get (R.CTX_STATE.state c.val) ≠ 1 then
      s.dieRefused die.val c.val
    else s.dieAssigned die.val c.val) := congrArg Host.Outcome.next (gated_of_open opened _ _)

/-- A die that is given up: its zeroing begins. -/
def State.dieReleased (s : State) (n : Nat) : State := (s.put (R.DIE_OWN.zeroing n) 1).sampleActivity.dieResult n 1

theorem dieReleased_sameMem (s : State) (n : Nat) : SameMem s (s.dieReleased n) :=
  ((sameMem_of_eq rfl rfl rfl rfl : SameMem s (s.put (R.DIE_OWN.zeroing n) 1)).trans (sampleActivity_sameMem _)).trans (dieResult_sameMem _ n 1)

theorem dieReleased_get (s : State) (n : Nat) {g : Fld} (place : DieOwnPlace g) :
    (s.dieReleased n).get g = (s.put (R.DIE_OWN.zeroing n) 1).get g :=
  (dieResult_get_other _ n 1 place.result).trans (sampleActivity_get _ g)

/-- What holds a die back: a bound sequencer, or a window of its owner over its tile store. -/
def State.dieHeld (s : State) (n : Nat) : Prop :=
  ((List.range 4).any fun q => s.seqBound (4 * n + q)) = true ∨ (s.flag (R.DIE_OWN.assigned n) && s.windowOnDie (s.get (R.DIE_OWN.ctx n)) n) = true

theorem not_dieHeld_iff (s : State) (n : Nat) : ¬s.dieHeld n ↔ (∀ q ∈ List.range 4, s.seqBound (4 * n + q) = false) ∧
    ¬(s.get (R.DIE_OWN.assigned n) = 1 ∧ s.windowOnDie (s.get (R.DIE_OWN.ctx n)) n = true) := by
  simp only [State.dieHeld, State.flag, not_or, Bool.not_eq_true, List.any_eq_false, Bool.and_eq_false_iff, decide_eq_false_iff_not, not_and]
  refine and_congr Iff.rfl ⟨fun h one => ?_, fun h => ?_⟩
  · exact h.resolve_left (not_not.mpr one)
  · exact or_iff_not_imp_left.mpr fun one => h (not_not.mp one)

theorem exec_dieCmdRelease {s : State} (opened : s.Open) (die : Fin 24) (live : s.halfInReset (halfOfDie die.val) = false)
    (idle : s.get R.DIE_CSTAT.busy = 0) :
    (s.dieHeld die.val → exec (.dieCmdRelease die) s = .next (s.dieRefused die.val (s.get (R.DIE_OWN.ctx die.val)))) ∧
      (¬s.dieHeld die.val → exec (.dieCmdRelease die) s = .next (s.dieReleased die.val)) := by
  have up : ¬s.halfInReset (halfOfDie die.val) = true := by rw [live]; exact Bool.false_ne_true
  have free : ¬s.flag R.DIE_CSTAT.busy = true := by rw [flag_eq_false idle]; exact Bool.false_ne_true
  exact ⟨fun held => congrArg Host.Outcome.next ((gated_of_open opened _ _).trans ((if_neg up).trans ((if_neg free).trans (if_pos held)))),
    fun loose => congrArg Host.Outcome.next ((gated_of_open opened _ _).trans ((if_neg up).trans ((if_neg free).trans (if_neg loose))))⟩

/-! ## A die's zeroing -/

/-- A die whose stores are zero, without an owner. -/
def State.dieZeroed (s : State) (n : Nat) : State := (s.wipeDie n).unassign n

theorem exec_dieReleaseZeroed (s : State) (die : Fin 24) : exec (.dieReleaseZeroed die) s = .next (
    if s.flag (R.DIE_OWN.zeroing die.val) ∧ s.halfInReset (halfOfDie die.val) = false then s.dieZeroed die.val else s) := rfl

theorem holdDomains_tiles (s : State) : s.holdDomains.tiles = s.tiles ∧ s.holdDomains.tileBad = s.tileBad := by
  obtain ⟨x, y, eq⟩ := holdDomains_eq s
  rw [eq]
  exact ⟨rfl, rfl⟩

/-- The fields of a die's ownership. -/
def dieOwnZeros (n : Nat) : List (Fld × Nat) := [(R.DIE_OWN.assigned n, 0), (R.DIE_OWN.zeroing n, 0), (R.DIE_OWN.ctx n, 0)]

/-- The fields of a die's ownership cleared. -/
def State.unowned (s : State) (n : Nat) : State := { s.puts (dieOwnZeros n) with ownHid := s.ownHid.filter (fun m => m ≠ n) }

theorem unassign_eq (s : State) (n : Nat) : s.unassign n = (s.unowned n).holdDomains := rfl

theorem unowned_rest (s : State) (n : Nat) : (s.unowned n).mem = s.mem ∧ (s.unowned n).tiles = s.tiles ∧ (s.unowned n).tileBad = s.tileBad := by
  have same := puts_unlogged s (dieOwnZeros n)
  exact ⟨(congrArg State.mem same :), (congrArg State.tiles same :), (congrArg State.tileBad same :)⟩

theorem unassign_byte (s : State) (n a : Nat) : (s.unassign n).byte a = s.byte a := by
  obtain ⟨mem, -⟩ := unowned_rest s n
  rw [unassign_eq, (holdDomains_sameMem _).1 a, State.byte, mem, State.byte]

theorem unassign_tile (s : State) (n d a j m col : Nat) : (s.unassign n).tile d a j m col = s.tile d a j m col := by
  obtain ⟨tiles, bad⟩ := holdDomains_tiles (s.unowned n)
  obtain ⟨-, tiles', bad'⟩ := unowned_rest s n
  rw [unassign_eq, State.tile, State.tile, bad, bad', tiles, tiles']

theorem withHid_get (s : State) (l : List Nat) (g : Fld) : ({ s with ownHid := l } : State).get g = s.get g := get_congr rfl g

theorem unowned_get (s : State) (n : Nat) (g : Fld) : (s.unowned n).get g = (s.puts (dieOwnZeros n)).get g := withHid_get _ _ g

theorem unassign_get (s : State) (n : Nat) {g : Fld} (apart : g.a ≠ (R.PWR_PD.on 0).a ∧ g.a ≠ (R.PWR_PD.on 1).a) :
    (s.unassign n).get g = (s.puts (dieOwnZeros n)).get g := by
  rw [unassign_eq, holdDomains_get _ apart, unowned_get]

theorem dieOwnZeros_apart (n : Nat) : ((dieOwnZeros n).map fun p => p.1.a).Nodup := by
  simp [dieOwnZeros, R.DIE_OWN.assigned, R.DIE_OWN.ctx, R.DIE_OWN.zeroing]

theorem unassign_zero (s : State) {n : Nat} {f : Fld} (mem : (f, 0) ∈ dieOwnZeros n) (place : DieOwnPlace f) : (s.unassign n).get f = 0 := by
  rw [unassign_get s n place.domains]
  exact (puts_get_of_nodup s (dieOwnZeros_apart n) mem).trans (Nat.zero_mod _)

theorem wipeDie_byte (s : State) (n a : Nat) :
    (s.wipeDie n).byte a = if tileBase n ≤ a ∧ a < tileBase n + tileBytes then 0 else s.byte a := by
  rw [show (s.wipeDie n).byte a = KMap.find (fun _ => 0) (KMap.dropRange s.mem (tileBase n) (tileBase n + tileBytes)) a from rfl,
    KMap.find_dropRange]
  rfl

theorem tileKey_lt {n a j m col : Nat} (ha : a < 8) (hj : j < 16) (hm : m < 128) (hc : col < 128) :
    tileKey n 0 0 0 0 ≤ tileKey n a j m col ∧ tileKey n a j m col < tileKey (n + 1) 0 0 0 0 := by
  simp only [tileKey]
  omega

theorem wipeDie_tile (s : State) {n a j m col : Nat} (ha : a < 8) (hj : j < 16) (hm : m < 128) (hc : col < 128) :
    (s.wipeDie n).tile n a j m col = 0 := by
  have range := tileKey_lt (n := n) ha hj hm hc
  have clean : (s.wipeDie n).tileBad.contains (tileKey n a j m col / 2) = false := by
    refine Bool.eq_false_iff.mpr fun mem => ?_
    have outside := of_decide_eq_true (List.mem_filter.mp (List.contains_iff_mem.mp mem)).2
    have even : tileKey n 0 0 0 0 % 2 = 0 := by simp only [tileKey]; omega
    omega
  have zero : KMap.find (fun _ => 0) (s.wipeDie n).tiles (tileKey n a j m col) = (0 : F32) := by
    rw [show (s.wipeDie n).tiles = KMap.dropRange s.tiles (tileKey n 0 0 0 0) (tileKey (n + 1) 0 0 0 0) from rfl, KMap.find_dropRange, if_pos range]
  rw [State.tile, clean, zero]
  rfl

/-! ## The end of an order slot (R457, R458) -/

theorem orderResult_unlogged (s : State) (o : Order) (r : Nat) :
    ({ s.orderResult o r with mgmtRes := (0, 0) } : State).unlogged = ({ s with mgmtRes := (0, 0) } : State).unlogged := by
  unfold State.orderResult
  split
  · exact (congrArg (fun u : State => { u with mgmtRes := (0, 0) }) (puts_unlogged s _) :)
  · split <;> rfl

theorem orderResults_unlogged (s : State) (l : List Order) (r : Nat) :
    ({ l.foldl (fun s o => s.orderResult o r) s with mgmtRes := (0, 0) } : State).unlogged = ({ s with mgmtRes := (0, 0) } : State).unlogged :=
  foldl_keeps (fun s : State => ({ s with mgmtRes := (0, 0) } : State).unlogged) _ (fun s o => orderResult_unlogged s o r) l s

theorem wakeFor_unlogged (s : State) : s.wakeFor.unlogged = s.unlogged := by
  unfold State.wakeFor
  split
  · exact puts_unlogged s _
  · rfl

/-- The slot's end before the wake: the superseded orders are told, the winners wait. -/
def State.slotEnded (s : State) : State :=
  let r := resolveOrders s.mgmtOrd s.hostOrd
  let u := r.2.foldl (fun s o => s.orderResult o 2) s
  { u with won := u.won ++ r.1, hostOrd := [], mgmtOrd := [], fw := { u.fw with slot := 0 } }

theorem exec_orderSlotEnd (s : State) : exec .orderSlotEnd s = .next s.slotEnded.wakeFor := rfl

theorem covers_self (o : Order) : o.covers o = true := by simp [Order.covers]

/-- The winners so far cover none of those that follow them. -/
theorem resolveResets_spec (os won lost : List Order) (apart : won.Pairwise fun x y => x.covers y = false) :
    (resolveResets os won lost).1.Pairwise (fun x y => x.covers y = false) ∧ (∀ o ∈ (resolveResets os won lost).1, o ∈ won ∨ o ∈ os) ∧
      (∀ o ∈ won, o ∈ (resolveResets os won lost).1) ∧ ∀ o ∈ os, ∃ x ∈ (resolveResets os won lost).1, x.covers o = true := by
  induction os generalizing won lost with
  | nil => exact ⟨apart, fun o mem => .inl mem, fun o mem => mem, fun o mem => absurd mem List.not_mem_nil⟩
  | cons o os ih =>
    rw [resolveResets]
    by_cases covered : won.any (fun w => w.covers o) = true
    · rw [if_pos covered]
      obtain ⟨pairs, sub, kept, all⟩ := ih won (lost ++ [o]) apart
      obtain ⟨w, mem, covers⟩ := List.any_eq_true.mp covered
      refine ⟨pairs, fun x mem => (sub x mem).imp_right (List.mem_cons_of_mem o), kept, fun x mem' => ?_⟩
      rcases List.mem_cons.mp mem' with rfl | later
      · exact ⟨w, kept w mem, covers⟩
      · exact all x later
    · rw [if_neg covered]
      have free : ∀ w ∈ won, w.covers o = false := by
        intro w mem
        by_contra yes
        exact covered (List.any_eq_true.mpr ⟨w, mem, Bool.not_eq_false _ ▸ yes⟩)
      obtain ⟨pairs, sub, kept, all⟩ := ih (won ++ [o]) lost
        (List.pairwise_append.mpr ⟨apart, List.pairwise_singleton _ _, fun w mem x last => List.mem_singleton.mp last ▸ free w mem⟩)
      refine ⟨pairs, fun x mem => ?_, fun x mem => kept x (List.mem_append_left _ mem), fun x mem => ?_⟩
      · rcases sub x mem with old | later
        · rcases List.mem_append.mp old with old | last
          · exact .inl old
          · exact .inr (List.mem_singleton.mp last ▸ List.mem_cons_self)
        · exact .inr (List.mem_cons_of_mem o later)
      · rcases List.mem_cons.mp mem with rfl | later
        · exact ⟨x, kept x (List.mem_append_right _ (List.mem_singleton.mpr rfl)), covers_self x⟩
        · exact all x later

/-- The orders of one kind. -/
def ofKind (all : List Order) (k : Nat) : List Order := all.filter (fun o => decide (o.kind = k))

/-- The resets and teardowns of a slot, widest scope first. -/
def resetsOf (all : List Order) : List Order := ofKind all 1 ++ ofKind all 2 ++ ofKind all 3 ++ ofKind all 4

theorem mem_resetsOf {all : List Order} {o : Order} : o ∈ resetsOf all ↔ o ∈ all ∧ 1 ≤ o.kind ∧ o.kind ≤ 4 := by
  simp only [resetsOf, ofKind, List.mem_append, List.mem_filter, decide_eq_true_eq]
  constructor
  · rintro (((⟨mem, kind⟩ | ⟨mem, kind⟩) | ⟨mem, kind⟩) | ⟨mem, kind⟩) <;> exact ⟨mem, by omega⟩
  · rintro ⟨mem, low, high⟩
    have kinds : o.kind = 1 ∨ o.kind = 2 ∨ o.kind = 3 ∨ o.kind = 4 := by omega
    simp only [mem, true_and]
    omega

theorem resolveOrders_resets {mgmt host : List Order} (some_ : ∃ o ∈ mgmt ++ host, 1 ≤ o.kind ∧ o.kind ≤ 4) :
    (resolveOrders mgmt host).1 = (resolveResets (resetsOf (mgmt ++ host)) [] []).1 := by
  obtain ⟨o, mem, kinds⟩ := some_
  have full : ¬(resetsOf (mgmt ++ host)).isEmpty = true := fun none_ =>
    absurd (mem_resetsOf.mpr ⟨mem, kinds⟩) (List.isEmpty_iff.mp none_ ▸ List.not_mem_nil)
  exact (congrArg Prod.fst (if_neg full) :)

theorem resolveOrders_modes {mgmt host : List Order} (none_ : ¬∃ o ∈ mgmt ++ host, 1 ≤ o.kind ∧ o.kind ≤ 4) :
    (resolveOrders mgmt host).1 = (resolvePair (fun x y => decide (y < x)) (ofKind (mgmt ++ host) 5)).1 ++
      (resolvePair (fun x y => decide (x < y)) (ofKind (mgmt ++ host) 6)).1 := by
  have empty : (resetsOf (mgmt ++ host)).isEmpty = true := by
    refine List.isEmpty_iff.mpr (List.eq_nil_iff_forall_not_mem.mpr fun o mem => ?_)
    obtain ⟨mem, kinds⟩ := mem_resetsOf.mp mem
    exact none_ ⟨o, mem, kinds⟩
  exact (congrArg Prod.fst (if_pos empty) :)

theorem mem_resolvePair {better : Nat → Nat → Bool} {l : List Order} {o : Order} (mem : o ∈ (resolvePair better l).1) : o ∈ l := by
  match l with
  | [] => exact mem
  | [a] => exact mem
  | a :: b :: _ =>
    rw [resolvePair] at mem
    split at mem
    · exact List.mem_singleton.mp mem ▸ List.mem_cons_of_mem a List.mem_cons_self
    · exact List.mem_singleton.mp mem ▸ List.mem_cons_self

theorem mem_resolveOrders {mgmt host : List Order} {o : Order} (mem : o ∈ (resolveOrders mgmt host).1) : o ∈ mgmt ++ host := by
  by_cases resets : ∃ o ∈ mgmt ++ host, 1 ≤ o.kind ∧ o.kind ≤ 4
  · rw [resolveOrders_resets resets] at mem
    obtain ⟨-, sub, -⟩ := resolveResets_spec (resetsOf (mgmt ++ host)) [] [] .nil
    exact (mem_resetsOf.mp ((sub o mem).resolve_left List.not_mem_nil)).1
  · rw [resolveOrders_modes resets] at mem
    rcases List.mem_append.mp mem with five | six
    · exact (List.mem_filter.mp (mem_resolvePair five)).1
    · exact (List.mem_filter.mp (mem_resolvePair six)).1

/-- Two orders of the modes' kinds. -/
theorem resolveOrders_two {a b : Order} (ka : 5 ≤ a.kind) (kb : 5 ≤ b.kind) : (resolveOrders [a] [b]).1 =
    (resolvePair (fun x y => decide (y < x)) (ofKind [a, b] 5)).1 ++ (resolvePair (fun x y => decide (x < y)) (ofKind [a, b] 6)).1 := by
  refine resolveOrders_modes ?_
  rintro ⟨o, mem, kinds⟩
  rcases List.mem_cons.mp mem with rfl | mem
  · omega
  · rw [List.mem_singleton.mp mem] at kinds
    omega

theorem resolvePair_nil (better : Nat → Nat → Bool) : (resolvePair better []).1 = [] := rfl

theorem resolvePair_one (better : Nat → Nat → Bool) (a : Order) : (resolvePair better [a]).1 = [a] := rfl

theorem resolvePair_two (better : Nat → Nat → Bool) (a b : Order) :
    (resolvePair better [a, b]).1 = [if better b.arg a.arg = true then b else a] := by
  rw [resolvePair]
  split <;> rfl

/-- What the slot's end leaves of the state. -/
theorem slotEnded_frame (s : State) : s.slotEnded.mem = s.mem ∧ s.slotEnded.bad = s.bad ∧ s.slotEnded.plist = s.plist ∧
    s.slotEnded.linkErr = s.linkErr ∧ s.slotEnded.won = s.won ++ (resolveOrders s.mgmtOrd s.hostOrd).1 := by
  have same := orderResults_unlogged s (resolveOrders s.mgmtOrd s.hostOrd).2 2
  exact ⟨(congrArg State.mem same :), (congrArg State.bad same :), (congrArg State.plist same :), (congrArg State.linkErr same :),
    congrArg (· ++ (resolveOrders s.mgmtOrd s.hostOrd).1) (congrArg State.won same :)⟩

theorem wakeFor_orders (s : State) : s.wakeFor.hostOrd = s.hostOrd ∧ s.wakeFor.mgmtOrd = s.mgmtOrd ∧ s.wakeFor.won = s.won := by
  have same := wakeFor_unlogged s
  exact ⟨(congrArg State.hostOrd same :), (congrArg State.mgmtOrd same :), (congrArg State.won same :)⟩

/-! ## The obligation -/

/-- Settles O41. -/
theorem ownershipAndOrders : Obligations.OwnershipAndOrders := by
  refine ⟨fun s die c opened => ⟨fun down => ⟨?_, ?_⟩, fun live idle => ?_, fun live idle => ?_⟩, fun s die => ⟨fun zeroing live => ?_, fun not => ?_⟩,
    fun s lock mgmt opened => ⟨?_, fun locked => ?_, fun free => ?_⟩, fun s => ?_⟩
  · exact ⟨_, (exec_dieCmdAssign opened die c).trans (congrArg _ (if_pos down)), sameMem_of_unlogged (raise_unlogged s _ _ _ _), log_code_of_raise,
      raise_get s (assigned_place die.isLt).low⟩
  · exact ⟨_, congrArg Host.Outcome.next ((gated_of_open opened _ _).trans (if_pos down)), sameMem_of_unlogged (raise_unlogged s _ _ _ _),
      log_code_of_raise⟩
  · have run := exec_dieCmdAssign opened die c
    rw [live, flag_eq_false idle, if_neg Bool.false_ne_true, if_neg Bool.false_ne_true] at run
    have assigned := get_bit s (f := R.DIE_OWN.assigned die.val) rfl
    have zeroing := get_bit s (f := R.DIE_OWN.zeroing die.val) rfl
    by_cases free : s.get (R.DIE_OWN.assigned die.val) = 0 ∧ s.get (R.DIE_OWN.zeroing die.val) = 0 ∧ s.get (R.CTX_STATE.state c.val) = 1
    · obtain ⟨a, z, state⟩ := free
      rw [if_neg (by simp [flag_eq_false a, flag_eq_false z, state])] at run
      obtain ⟨owned, owner⟩ := dieAssigned_owner s die.isLt c.isLt
      refine ⟨_, run, dieAssigned_sameMem s _ _, dieResult_get_die _ die.isLt, ?_⟩
      rw [if_pos ⟨a, z, state⟩]
      exact ⟨owned, owner, dieResult_get_result _ (by decide)⟩
    · rw [if_pos (by simp only [State.flag, decide_eq_true_eq]; omega)] at run
      refine ⟨_, run, dieRefused_sameMem s _ _, dieResult_get_die _ die.isLt, ?_⟩
      rw [if_neg free]
      exact ⟨dieRefused_get s _ _ (assigned_place die.isLt).low (assigned_place die.isLt).result,
        dieRefused_get s _ _ (ctx_place die.isLt).low (ctx_place die.isLt).result, dieResult_get_result _ (by decide), dieRefused_logged s _ _⟩
  · obtain ⟨refused, released⟩ := exec_dieCmdRelease opened die live idle
    by_cases held : s.dieHeld die.val
    · refine ⟨_, refused held, dieRefused_sameMem s _ _, dieResult_get_die _ die.isLt,
        dieRefused_get s _ _ (assigned_place die.isLt).low (assigned_place die.isLt).result, ?_⟩
      rw [if_neg (fun loose => (not_dieHeld_iff s die.val).mpr loose held)]
      exact ⟨dieRefused_get s _ _ (zeroing_place die.isLt).low (zeroing_place die.isLt).result, dieResult_get_result _ (by decide),
        dieRefused_logged s _ _⟩
    · refine ⟨_, released held, dieReleased_sameMem s _, dieResult_get_die _ die.isLt, (dieReleased_get s _ (assigned_place die.isLt)).trans ?_, ?_⟩
      · exact State.get_put_other _ _ _ _ (by simp only [R.DIE_OWN.assigned, R.DIE_OWN.zeroing]; omega)
      · rw [if_pos ((not_dieHeld_iff s die.val).mp held)]
        exact ⟨(dieReleased_get s _ (zeroing_place die.isLt)).trans (State.get_put_same _ _ _), dieResult_get_result _ (by decide)⟩
  · have run := (exec_dieReleaseZeroed s die).trans (congrArg _ (if_pos ⟨flag_eq_true zeroing, live⟩))
    have byte (a : Nat) : (s.dieZeroed die.val).byte a =
        if tileBase die.val ≤ a ∧ a < tileBase die.val + tileBytes then 0 else s.byte a := (unassign_byte _ _ a).trans (wipeDie_byte s _ a)
    refine ⟨_, run, unassign_zero _ (by simp [dieOwnZeros]) (assigned_place die.isLt), unassign_zero _ (by simp [dieOwnZeros]) (zeroing_place die.isLt),
      fun i lt => (byte _).trans (if_pos ⟨by omega, by omega⟩), fun x out => (byte x).trans (if_neg (by omega)), fun a j m col ha hj hm hc => ?_⟩
    exact (unassign_tile _ _ _ _ _ _ _).trans (wipeDie_tile s ha hj hm hc)
  · refine (exec_dieReleaseZeroed s die).trans (congrArg _ (if_neg ?_))
    rintro ⟨zeroing, live⟩
    rcases not with zero | down
    · exact absurd (zero.symm.trans (get_of_flag zeroing)) (by decide)
    · exact absurd (down.symm.trans live) (by decide)
  · exact congrArg Host.Outcome.next (gated_of_open opened _ _)
  · exact congrArg Host.Outcome.next ((gated_of_open opened _ _).trans (if_pos (flag_eq_true locked)))
  · exact congrArg Host.Outcome.next ((gated_of_open opened _ _).trans (if_neg (by rw [flag_eq_false free]; exact Bool.false_ne_true)))
  · obtain ⟨mem, bad, plist, err, won⟩ := slotEnded_frame s
    obtain ⟨hosts, mgmts, won'⟩ := wakeFor_orders s.slotEnded
    refine ⟨_, _, exec_orderSlotEnd s, (sameMem_of_eq mem bad plist err).trans (sameMem_of_unlogged (wakeFor_unlogged _)), hosts, mgmts, won'.trans won,
      fun o mem => mem_resolveOrders mem, fun resets => ?_, fun a b mgmt host => ?_⟩
    · rw [resolveOrders_resets resets]
      obtain ⟨pairs, sub, -, all⟩ := resolveResets_spec (resetsOf (s.mgmtOrd ++ s.hostOrd)) [] [] .nil
      exact ⟨fun o mem => (mem_resetsOf.mp ((sub o mem).resolve_left List.not_mem_nil)).2, pairs,
        fun o mem low high => all o (mem_resetsOf.mpr ⟨mem, low, high⟩)⟩
    · rw [mgmt, host]
      refine ⟨fun ka kb => ?_, fun ka kb => ?_, fun ka kb => ?_, fun ka kb => ?_⟩ <;> rw [resolveOrders_two (by omega) (by omega)] <;>
        simp [ofKind, ka, kb, resolvePair_nil, resolvePair_one, resolvePair_two]

end Sys2Proof.Machine

namespace Sys2Proof.Machine

-- One proof at a time: threads that wait for each other hold memory.
set_option Elab.async false

/-! ## What a frame given to a link changes (R401 to R407, R413) -/

/-- What is left of a state beside its inter-module links and what leaves the block. -/
def State.unlinked (s : State) : State := { s with links := [], out := [] }

@[simp] theorem setSkw_unlinked (s : State) (k : Nat) (x : SkwLink) : (s.setSkw k x).unlinked = s.unlinked := rfl

@[simp] theorem emit_unlinked (s : State) (o : Out) : (s.emit o).unlinked = s.unlinked := rfl

@[simp] theorem skwPut_unlinked (s : State) (k typ : Nat) (body : List Nat) (front : List Byte) : (s.skwPut k typ body front).unlinked = s.unlinked := rfl

@[simp] theorem skwTag_unlinked (s : State) (k : Nat) : (s.skwTag k).unlinked = s.unlinked := by
  unfold State.skwTag
  dsimp only
  split
  · rfl
  · rw [skwPut_unlinked, setSkw_unlinked]

@[simp] theorem skwFrame_unlinked (s : State) (k typ : Nat) (body : List Nat) : (s.skwFrame k typ body).unlinked = s.unlinked := by
  unfold State.skwFrame
  dsimp only
  split
  · rw [skwTag_unlinked, skwPut_unlinked, setSkw_unlinked]
  · rw [skwPut_unlinked, setSkw_unlinked]

/-- The TAG of a full block goes first. -/
theorem tagFirst_unlinked (s : State) (k : Nat) : (if 63 ≤ (s.skw k).block ∨ (s.skw k).marked = true then s.skwTag k else s).unlinked = s.unlinked := by
  split
  · exact skwTag_unlinked s k
  · rfl

@[simp] theorem skwPump_unlinked (k n : Nat) (s : State) : (State.skwPump k n s).unlinked = s.unlinked := by
  induction n generalizing s with
  | zero => rfl
  | succ n ih =>
    have first := tagFirst_unlinked s k
    unfold State.skwPump
    dsimp only
    generalize (if 63 ≤ (s.skw k).block ∨ (s.skw k).marked = true then s.skwTag k else s) = u at first ⊢
    split
    · exact first
    · split
      · exact first
      · split
        · exact first
        · rw [ih, skwFrame_unlinked, setSkw_unlinked, first]

@[simp] theorem skwSend_unlinked (s : State) (k cls typ : Nat) (body : List Nat) : (s.skwSend k cls typ body).unlinked = s.unlinked := by
  unfold State.skwSend
  split
  · exact (skwPump_unlinked ..).trans (setSkw_unlinked ..)
  · rfl

@[simp] theorem skwCtrlBytes_unlinked (s : State) (k : Nat) (m : Ctrl) (bs : List Byte) : (s.skwCtrlBytes k m bs).unlinked = s.unlinked :=
  skwSend_unlinked ..

@[simp] theorem skwCtrl_unlinked (s : State) (k : Nat) (m : Ctrl) (body : List Nat) : (s.skwCtrl k m body).unlinked = s.unlinked :=
  skwSend_unlinked ..

theorem regs_of_unlinked {s t : State} (same : t.unlinked = s.unlinked) : t.regs = s.regs := (congrArg State.regs same :)

theorem get_of_unlinked {s t : State} (same : t.unlinked = s.unlinked) (g : Fld) : t.get g = s.get g := get_congr (regs_of_unlinked same) g

theorem sameMem_of_unlinked {s t : State} (same : t.unlinked = s.unlinked) : SameMem s t :=
  sameMem_of_eq (congrArg State.mem same :) (congrArg State.bad same :) (congrArg State.plist same :) (congrArg State.linkErr same :)

end Sys2Proof.Machine

namespace Sys2Proof.Machine

-- One proof at a time: threads that wait for each other hold memory.
set_option Elab.async false

/-! ## Fields above those of the error log -/

/-- A field that no logged error writes: none of the log's own, and below the alert bits. -/
structure Unlogged (g : Fld) : Prop where
  newest : g.a ≠ R.RAS_LOGHD.newest.a
  lost : g.a ≠ R.RAS_LOGHD.lost.a
  new : g.a ≠ R.RAS_STAT.new.a
  alerts : g.a < 8 * 0x3e30008

theorem noted_keeps (s : State) {code cls : Nat} {ctx : Option Nat} {w : Where} {detail : Nat} {g : Fld} (apart : Unlogged g) :
    (s.noted code cls ctx w detail).get g = s.get g := by
  have full : (if 4096 ≤ s.log.length then s.count R.RAS_LOGHD.lost 1 else s).get g = s.get g := by
    split
    · exact State.get_count_other _ _ _ _ apart.lost
    · rfl
  unfold State.noted
  dsimp only
  split
  · next f alert =>
    have place := alertOf_place alert
    have low := apart.alerts
    rw [State.get_put_other _ _ _ _ (by omega), State.get_put_other _ _ _ _ apart.new, State.get_put_other _ _ _ _ apart.newest]
    exact full
  · rw [State.get_put_other _ _ _ _ apart.new, State.get_put_other _ _ _ _ apart.newest]
    exact full

theorem raise_keeps (s : State) {code : Nat} {ctx : Option Nat} {w : Where} {detail : Nat} {g : Fld} (apart : Unlogged g) :
    (s.raise code ctx w detail).get g = s.get g := by
  rcases logAs_cases s code (errClass code) ctx w detail with same | ⟨v, same⟩
  · exact (congrArg (State.get · g) same).trans (noted_keeps s apart)
  · exact (congrArg (State.get · g) same).trans ((vector_get _ _ _ g).trans (noted_keeps s apart))

theorem ctxEvent_get (s : State) (c b : Nat) {g : Fld} (apart : g.a ≠ (R.CTX_EVT.events c).a) : (s.ctxEvent c b).get g = s.get g := by
  unfold State.ctxEvent
  dsimp only
  split
  · rfl
  · split
    · rw [vector_get, State.get_put_other _ _ _ _ apart]
    · exact State.get_put_other _ _ _ _ apart

/-! ## The level limits' restarts (R499) -/

/-- What is left of a state beside the times at which its level limits restarted. -/
def State.unlimited (s : State) : State := { s with limitAt := [] }

theorem relimit_unlimited (s old : State) : (s.relimit old).unlimited = s.unlimited := by
  refine foldl_keeps State.unlimited _ (fun s n => ?_) _ s
  split <;> rfl

theorem regs_of_unlimited {s t : State} (same : t.unlimited = s.unlimited) : t.regs = s.regs := (congrArg State.regs same :)

theorem relimit_get (s old : State) (g : Fld) : (s.relimit old).get g = s.get g := get_congr (regs_of_unlimited (relimit_unlimited s old)) g

/-! ## A fatal error (R538, R539) -/

/-- What is left of a state beside what a fatal error changes. -/
def State.unfatal (s : State) : State := { s with regs := [], log := [], out := [], pba := [], links := [], limitAt := [], sample := none }

theorem unfatal_of_unlogged {s t : State} (same : t.unlogged = s.unlogged) : t.unfatal = s.unfatal := (congrArg State.unfatal same :)

theorem unfatal_of_unlinked {s t : State} (same : t.unlinked = s.unlinked) : t.unfatal = s.unfatal := (congrArg State.unfatal same :)

theorem unfatal_of_unlimited {s t : State} (same : t.unlimited = s.unlimited) : t.unfatal = s.unfatal := (congrArg State.unfatal same :)

/-- The contexts hear of the fatal error. -/
def State.fatalTold (s : State) : State :=
  (List.range 64).foldl (fun s c => if s.get (R.CTX_STATE.state c) = 0 then s else s.ctxEvent c 3) s

/-- The links go down with a notice. -/
def State.linksDown (s : State) : State := (List.range 24).foldl (fun s k => s.skwCtrl k .down []) s

/-- A sample is asked for, or counted when one is kept. -/
def State.sampleDue (s : State) (code : Nat) (gone : List Nat) : State :=
  if s.flag R.RAS_STAT.valid then s.count R.RAS_STAT.supp 1 else { s with sample := some { code := code, tick := s.tick 0, gone := gone } }

/-- The registers of a fatal error. -/
def fatalFields (code : Nat) : List (Fld × Nat) :=
  [(R.RAS_STAT.fatal, 1), (R.RAS_STAT.code, code), (R.HOST_STAT.error, 1), (R.MOD_ALERT.fatal, 1)]

/-- A device that has met its first fatal error, its first error of the kind or not. -/
theorem fatal_eq (s : State) (code : Nat) (w : Where) (detail : Nat) : ∃ gone, s.fatal code w detail =
    if (s.raise code none w detail).flag R.RAS_STAT.fatal = true then s.raise code none w detail
    else ((((s.raise code none w detail).puts (fatalFields code)).fatalTold.linksDown).sampleDue code gone).relimit s := ⟨_, rfl⟩

theorem fatalTold_unlogged (s : State) : s.fatalTold.unlogged = s.unlogged := by
  refine foldl_keeps State.unlogged _ (fun s c => ?_) _ s
  split
  · rfl
  · exact ctxEvent_unlogged s c 3

theorem linksDown_unlinked (s : State) : s.linksDown.unlinked = s.unlinked :=
  foldl_keeps State.unlinked _ (fun s k => skwCtrl_unlinked s k .down []) _ s

theorem sampleDue_unfatal (s : State) (code : Nat) (gone : List Nat) : (s.sampleDue code gone).unfatal = s.unfatal := by
  unfold State.sampleDue
  split <;> rfl

theorem fatal_unfatal (s : State) (code : Nat) (w : Where) (detail : Nat) : (s.fatal code w detail).unfatal = s.unfatal := by
  obtain ⟨x, eq⟩ := fatal_eq s code w detail
  rw [eq]
  split
  · exact unfatal_of_unlogged (raise_unlogged ..)
  · rw [unfatal_of_unlimited (relimit_unlimited _ _), sampleDue_unfatal, unfatal_of_unlinked (linksDown_unlinked _),
      unfatal_of_unlogged (fatalTold_unlogged _), unfatal_of_unlogged (puts_unlogged _ _), unfatal_of_unlogged (raise_unlogged ..)]

theorem fatalTold_get (s : State) {g : Fld} (apart : ∀ c, c < 64 → g.a ≠ (R.CTX_EVT.events c).a) : s.fatalTold.get g = s.get g := by
  unfold State.fatalTold
  have told : ∀ (l : List Nat), (∀ c ∈ l, c < 64) → ∀ s : State,
      (l.foldl (fun s c => if s.get (R.CTX_STATE.state c) = 0 then s else s.ctxEvent c 3) s).get g = s.get g := by
    intro l
    induction l with
    | nil => exact fun _ _ => rfl
    | cons c l ih =>
      intro small s
      rw [List.foldl_cons, ih fun d mem => small d (List.mem_cons_of_mem c mem)]
      split
      · rfl
      · exact ctxEvent_get s c 3 (apart c (small c List.mem_cons_self))
  exact told _ (fun c mem => List.mem_range.mp mem) s

theorem sampleDue_get (s : State) (code : Nat) (gone : List Nat) {g : Fld} (apart : g.a ≠ R.RAS_STAT.supp.a) : (s.sampleDue code gone).get g = s.get g := by
  unfold State.sampleDue
  split
  · exact State.get_count_other _ _ _ _ apart
  · rfl

theorem sampleDue_log (s : State) (code : Nat) (gone : List Nat) : (s.sampleDue code gone).log = s.log := by
  unfold State.sampleDue
  split <;> rfl

/-- A field apart from the events of the contexts and from the count of samples not taken. -/
structure Untold (g : Fld) : Prop where
  events : ∀ c, c < 64 → g.a ≠ (R.CTX_EVT.events c).a
  supp : g.a ≠ R.RAS_STAT.supp.a

/-- The fields of a fatal error stand from its registers on. -/
theorem fatal_get_of_first (s : State) (code : Nat) (w : Where) (detail : Nat) {g : Fld} (apart : Untold g) :
    (s.fatal code w detail).get g = (s.raise code none w detail).get g ∨
      (s.fatal code w detail).get g = ((s.raise code none w detail).puts (fatalFields code)).get g := by
  obtain ⟨x, eq⟩ := fatal_eq s code w detail
  rw [eq]
  split
  · exact .inl rfl
  · right
    rw [relimit_get, sampleDue_get _ _ _ apart.supp, get_of_unlinked (linksDown_unlinked _), fatalTold_get _ apart.events]

theorem fatal_get (s : State) (code : Nat) (w : Where) (detail : Nat) {g : Fld} (apart : Untold g) (log : Unlogged g)
    (others : ∀ p ∈ fatalFields code, g.a ≠ p.1.a) : (s.fatal code w detail).get g = s.get g := by
  rcases fatal_get_of_first s code w detail apart with same | same
  · exact same.trans (raise_keeps s log)
  · exact same.trans ((puts_get_other _ others).trans (raise_keeps s log))

theorem fatalFields_apart (code : Nat) : ((fatalFields code).map fun p => p.1.a).Nodup :=
  show [R.RAS_STAT.fatal.a, R.RAS_STAT.code.a, R.HOST_STAT.error.a, R.MOD_ALERT.fatal.a].Nodup by decide

theorem fatal_set (s : State) (code : Nat) (w : Where) (detail : Nat) : (s.fatal code w detail).get R.RAS_STAT.fatal = 1 := by
  obtain ⟨x, eq⟩ := fatal_eq s code w detail
  rw [eq]
  split
  · next set => exact get_of_flag set
  · rw [relimit_get, sampleDue_get _ _ _ (by decide), get_of_unlinked (linksDown_unlinked _),
      fatalTold_get _ (fun c small => by simp only [R.RAS_STAT.fatal, R.CTX_EVT.events]; omega)]
    exact (puts_get_of_nodup _ (fatalFields_apart code) (p := (R.RAS_STAT.fatal, 1)) List.mem_cons_self)

theorem log_of_unlimited {s t : State} (same : t.unlimited = s.unlimited) : t.log = s.log := (congrArg State.log same :)

theorem log_of_unlinked {s t : State} (same : t.unlinked = s.unlinked) : t.log = s.log := (congrArg State.log same :)

theorem ctxEvent_log (s : State) (c b : Nat) : (s.ctxEvent c b).log = s.log := by
  unfold State.ctxEvent
  dsimp only
  split
  · rfl
  · split
    · exact vector_log ..
    · rfl

theorem puts_log (s : State) (l : List (Fld × Nat)) : (s.puts l).log = s.log := foldl_keeps State.log (fun (s : State) (p : Fld × Nat) => s.put p.1 p.2) (fun _ _ => rfl) l s

theorem fatal_log (s : State) (code : Nat) (w : Where) (detail : Nat) : (s.fatal code w detail).log = (s.raise code none w detail).log := by
  obtain ⟨x, eq⟩ := fatal_eq s code w detail
  rw [eq]
  split
  · rfl
  · rw [log_of_unlimited (relimit_unlimited _ _), sampleDue_log, log_of_unlinked (linksDown_unlinked _)]
    refine (foldl_keeps State.log _ (fun s c => ?_) _ _).trans (puts_log _ _)
    split
    · rfl
    · exact ctxEvent_log s c 3

end Sys2Proof.Machine

namespace Sys2Proof.Machine

-- One proof at a time: threads that wait for each other hold memory.
set_option Elab.async false

/-! ## The dies' temperatures (R501) -/

/-- A fold over a range, seen through something that one index alone changes. -/
theorem foldl_range_at {β : Type} (p : State → β) (f : State → Nat → State) {i n : Nat} (lt : i < n)
    (keeps : ∀ s j, j ≠ i → p (f s j) = p s) (s : State) : ∃ u, p u = p s ∧ p ((List.range n).foldl f s) = p (f u i) := by
  have before : ∀ m, m ≤ i → p ((List.range m).foldl f s) = p s := by
    intro m
    induction m with
    | zero => exact fun _ => rfl
    | succ m ih =>
      intro le
      rw [List.range_succ, List.foldl_append, List.foldl_cons, List.foldl_nil, keeps _ _ (by omega), ih (by omega)]
  induction n with
  | zero => exact absurd lt (Nat.not_lt_zero i)
  | succ n ih =>
    rw [List.range_succ, List.foldl_append, List.foldl_cons, List.foldl_nil]
    rcases Nat.lt_succ_iff_lt_or_eq.mp lt with less | rfl
    · obtain ⟨u, start, last⟩ := ih less
      exact ⟨u, start, (keeps _ n (by omega)).trans last⟩
    · exact ⟨_, before i (Nat.le_refl i), rfl⟩

theorem hottest_spec {l : List Int} (some_ : l ≠ []) : hottest l < l.length ∧ ∀ y ∈ l, y ≤ l.getD (hottest l) 0 := by
  obtain ⟨x, mem, top⟩ : ∃ x ∈ l, ∀ y ∈ l, y ≤ x := by
    obtain ⟨x, mem, top⟩ := Finset.exists_max_image l.toFinset id ((List.toFinset_nonempty_iff l).mpr some_)
    exact ⟨x, List.mem_toFinset.mp mem, fun y mem => top y (List.mem_toFinset.mpr mem)⟩
  have lt : hottest l < l.length := List.findIdx_lt_length_of_exists ⟨x, mem, List.all_eq_true.mpr fun y mem => decide_eq_true (top y mem)⟩
  have most := List.findIdx_getElem (w := lt)
  refine ⟨lt, fun y mem => ?_⟩
  rw [List.getD_eq_getElem _ _ lt]
  exact of_decide_eq_true (List.all_eq_true.mp most y mem)

/-- The temperatures of a grid, row by row. -/
def gridTemps (grid : BitVec 256) : List Int := (List.range 16).map (fun i => toSigned 16 (grid.toNat / 2 ^ (16 * i)))

theorem gridTemps_getD (grid : BitVec 256) {r : Nat} (lt : r < 16) : (gridTemps grid).getD r 0 = toSigned 16 (grid.toNat / 2 ^ (16 * r)) := by
  simp [gridTemps, lt]

theorem gridTemps_hottest (grid : BitVec 256) : hottest (gridTemps grid) < 16 ∧
    ∀ r, r < 16 → toSigned 16 (grid.toNat / 2 ^ (16 * r)) ≤ toSigned 16 (grid.toNat / 2 ^ (16 * hottest (gridTemps grid))) := by
  have some_ : gridTemps grid ≠ [] := by simp [gridTemps]
  obtain ⟨lt, top⟩ := hottest_spec some_
  have lt : hottest (gridTemps grid) < 16 := by simpa [gridTemps] using lt
  refine ⟨lt, fun r small => ?_⟩
  rw [← gridTemps_getD grid lt]
  exact top _ (List.mem_map.mpr ⟨r, List.mem_range.mpr small, rfl⟩)

/-- The place of a field of die `n` among the temperatures. -/
def diePlace (n : Nat) (g : Fld) : Prop := 8 * (0x191000 + 0x40 * n) ≤ g.a ∧ g.a < 8 * (0x191000 + 0x40 * n) + 512

/-- The rows of a die's grid written. -/
def State.rowsWritten (s : State) (n : Nat) (grid : BitVec 256) : State :=
  (List.range 4).foldl (fun s r => s.put (R.THM_CD.row n r) (grid.toNat / 2 ^ (64 * r) % 2 ^ 64)) s

/-- A die's hottest cell, its temperature and the limit. -/
def State.dieFields (s : State) (n : Nat) (grid : BitVec 256) : List (Fld × Nat) :=
  let g := (gridTemps grid).getD (hottest (gridTemps grid)) 0
  [(R.THM_CD.hot n, hottest (gridTemps grid)), (R.THM_CD.grid_max n, wrap 16 g), (R.THM_CD.limit n, thermalLimit g (s.get (R.THM_CD.limit n)))]

theorem thermalDie_eq (s : State) (n : Nat) (grid : BitVec 256) (junction : Option (BitVec 16)) : s.thermalDie n grid junction =
    match junction with
    | some j => ((s.rowsWritten n grid).puts ((s.rowsWritten n grid).dieFields n grid)).put (R.THM_CD.cd_temp n) j.toNat
    | none => (s.rowsWritten n grid).puts ((s.rowsWritten n grid).dieFields n grid) := by
  cases junction <;> rfl

theorem rowsWritten_get (s : State) (n : Nat) (grid : BitVec 256) {g : Fld} (apart : ∀ r, r < 4 → g.a ≠ (R.THM_CD.row n r).a) :
    (s.rowsWritten n grid).get g = s.get g := by
  have four : (List.range 4) = [0, 1, 2, 3] := rfl
  rw [State.rowsWritten, four]
  simp only [List.foldl_cons, List.foldl_nil]
  rw [State.get_put_other _ _ _ _ (apart 3 (by omega)), State.get_put_other _ _ _ _ (apart 2 (by omega)),
    State.get_put_other _ _ _ _ (apart 1 (by omega)), State.get_put_other _ _ _ _ (apart 0 (by omega))]

theorem thermalDie_get_other (s : State) (n : Nat) (grid : BitVec 256) (junction : Option (BitVec 16)) {g : Fld} (apart : ¬diePlace n g) :
    (s.thermalDie n grid junction).get g = s.get g := by
  have fields : ((s.rowsWritten n grid).puts ((s.rowsWritten n grid).dieFields n grid)).get g = s.get g := by
    rw [puts_get_other]
    · refine rowsWritten_get s n grid fun r lt same => apart ?_
      simp only [diePlace, R.THM_CD.row] at same ⊢
      omega
    · simp only [State.dieFields, List.forall_mem_cons]
      simp only [diePlace, R.THM_CD.hot, R.THM_CD.grid_max, R.THM_CD.limit, not_and] at apart ⊢
      exact ⟨by omega, by omega, by omega, by simp⟩
  rw [thermalDie_eq]
  cases junction with
  | none => exact fields
  | some j =>
    refine (State.get_put_other _ _ _ _ fun same => apart ?_).trans fields
    simp only [diePlace, R.THM_CD.cd_temp] at same ⊢
    omega

theorem thermalLimit_lt (g : Int) (old : Nat) : thermalLimit g old < 4 := by
  unfold thermalLimit
  split_ifs <;> decide

/-- What a die's sample leaves: the hottest cell, and the limit that follows from it. -/
theorem thermalDie_values (s : State) (n : Nat) (grid : BitVec 256) (junction : Option (BitVec 16)) :
    (s.thermalDie n grid junction).get (R.THM_CD.hot n) = hottest (gridTemps grid) ∧
      (s.thermalDie n grid junction).get (R.THM_CD.limit n) =
        thermalLimit ((gridTemps grid).getD (hottest (gridTemps grid)) 0) (s.get (R.THM_CD.limit n)) := by
  have rows : (s.rowsWritten n grid).get (R.THM_CD.limit n) = s.get (R.THM_CD.limit n) :=
    rowsWritten_get s n grid fun r lt => by simp only [R.THM_CD.limit, R.THM_CD.row]; omega
  have apart : ((((s.rowsWritten n grid).dieFields n grid)).map fun p => p.1.a).Nodup := by
    simp [State.dieFields, R.THM_CD.hot, R.THM_CD.grid_max, R.THM_CD.limit]
  have hot : ((s.rowsWritten n grid).puts ((s.rowsWritten n grid).dieFields n grid)).get (R.THM_CD.hot n) = hottest (gridTemps grid) :=
    (puts_get_of_nodup _ apart (p := (R.THM_CD.hot n, hottest (gridTemps grid))) (by simp [State.dieFields])).trans
      (Nat.mod_eq_of_lt (gridTemps_hottest grid).1)
  have limit : ((s.rowsWritten n grid).puts ((s.rowsWritten n grid).dieFields n grid)).get (R.THM_CD.limit n) =
      thermalLimit ((gridTemps grid).getD (hottest (gridTemps grid)) 0) (s.get (R.THM_CD.limit n)) := by
    rw [← rows]
    exact (puts_get_of_nodup _ apart (p := (R.THM_CD.limit n, thermalLimit ((gridTemps grid).getD (hottest (gridTemps grid)) 0)
      ((s.rowsWritten n grid).get (R.THM_CD.limit n)))) (by simp [State.dieFields])).trans (Nat.mod_eq_of_lt (thermalLimit_lt _ _))
  rw [thermalDie_eq]
  cases junction with
  | none => exact ⟨hot, limit⟩
  | some j =>
    refine ⟨(State.get_put_other _ _ _ _ ?_).trans hot, (State.get_put_other _ _ _ _ ?_).trans limit⟩ <;>
      simp only [R.THM_CD.hot, R.THM_CD.limit, R.THM_CD.cd_temp] <;> omega

/-! ### A sample of a landing die -/

/-- What is left of a state beside its registers and what follows from temperatures. -/
def State.unsampled (s : State) : State := { s with regs := [], hbmHot := [], limitAt := [] }

theorem puts_unsampled (s : State) (l : List (Fld × Nat)) : (s.puts l).unsampled = s.unsampled :=
  foldl_keeps State.unsampled (fun (s : State) (p : Fld × Nat) => s.put p.1 p.2) (fun _ _ => rfl) l s

theorem thermalDie_unsampled (s : State) (n : Nat) (grid : BitVec 256) (junction : Option (BitVec 16)) :
    (s.thermalDie n grid junction).unsampled = s.unsampled := by
  have fields : ((s.rowsWritten n grid).puts ((s.rowsWritten n grid).dieFields n grid)).unsampled = s.unsampled :=
    (puts_unsampled _ _).trans (foldl_keeps State.unsampled (fun (s : State) (r : Nat) => s.put (R.THM_CD.row n r) (grid.toNat / 2 ^ (64 * r) % 2 ^ 64))
      (fun _ _ => rfl) _ s)
  rw [thermalDie_eq]
  cases junction with
  | none => exact fields
  | some j => exact fields

/-- The grids of the six dies of landing die `H` taken in. -/
def State.gridsTaken (s : State) (H : Nat) (grids : List (BitVec 256)) (junctions : List (BitVec 16)) : State :=
  (List.range 6).foldl (fun s i => match grids[i]? with
    | some g => s.thermalDie (6 * H + i) g junctions[i]?
    | none => s) s

/-- A stack's report taken in. -/
def State.hbmTaken (s : State) (n : Nat) (t : BitVec 16) : State :=
  ({ s with hbmHot := KMap.put (fun _ => false) s.hbmHot n (overHeat t.toInt 95 (KMap.find (fun _ => false) s.hbmHot n)) } : State).put
    (R.THM_HBM.temp n) t.toNat

/-- The reports of the stacks of landing die `H` taken in. -/
def State.hbmsTaken (s : State) (H : Nat) (hbm : List (BitVec 16)) : State :=
  (List.range 6).foldl (fun s i => match hbm[i]? with
    | some t => s.hbmTaken (6 * H + i) t
    | none => s) s

/-- The readings of a sample in their registers. -/
def State.readingsTaken (s : State) (H : Nat) (grids : List (BitVec 256)) (junctions hbm : List (BitVec 16)) : State :=
  let u := s.gridsTaken H grids junctions
  let maxes := (List.range 6).map (fun i => toSigned 16 (u.get (R.THM_CD.grid_max (6 * H + i))))
  (u.put (R.THM_LD.max H) (wrap 16 (maxes.getD (hottest maxes) 0))).hbmsTaken H hbm

/-- The readings taken in, with the pin and the limits that follow. -/
def State.heated (s : State) (H : Nat) (grids : List (BitVec 256)) (junctions hbm : List (BitVec 16)) : State :=
  (s.readingsTaken H grids junctions hbm).thermPin.relimit s

theorem exec_thermalSample (s : State) (h : Fin 4) (grids : List (BitVec 256)) (junctions hbm : List (BitVec 16)) :
    exec (.thermalSample h grids junctions hbm) s = .next (
      if (!s.s0Runs) = true ∨ s.halfDead (h.val / 2) = true ∨ 2 ≤ s.get R.PWR_STAT.rung then s
      else if (s.heated h.val grids junctions hbm).tripNow h.val = true ∧ (s.heated h.val grids junctions hbm).tripped = false then
        (s.heated h.val grids junctions hbm).trip h.val
      else s.heated h.val grids junctions hbm) := rfl

theorem gridsTaken_unsampled (s : State) (H : Nat) (grids : List (BitVec 256)) (junctions : List (BitVec 16)) :
    (s.gridsTaken H grids junctions).unsampled = s.unsampled := by
  refine foldl_keeps State.unsampled _ (fun s i => ?_) _ s
  split
  · exact thermalDie_unsampled ..
  · rfl

theorem hbmsTaken_unsampled (s : State) (H : Nat) (hbm : List (BitVec 16)) : (s.hbmsTaken H hbm).unsampled = s.unsampled := by
  refine foldl_keeps State.unsampled _ (fun s i => ?_) _ s
  split <;> rfl

theorem thermPin_unsampled (s : State) : s.thermPin.unsampled = s.unsampled := by
  unfold State.thermPin
  dsimp only
  split <;> rfl

theorem unsampled_of_unlimited {s t : State} (same : t.unlimited = s.unlimited) : t.unsampled = s.unsampled := (congrArg State.unsampled same :)

theorem heated_unsampled (s : State) (H : Nat) (grids : List (BitVec 256)) (junctions hbm : List (BitVec 16)) :
    (s.heated H grids junctions hbm).unsampled = s.unsampled := by
  rw [State.heated, unsampled_of_unlimited (relimit_unlimited _ _), thermPin_unsampled, State.readingsTaken, hbmsTaken_unsampled]
  exact gridsTaken_unsampled s H grids junctions

/-- The fields of the dies' temperatures, of the landing dies' and of the stacks'. -/
def heatPlace (g : Fld) : Prop := 8 * 0x191000 ≤ g.a ∧ g.a < 8 * 0x192200

theorem thermPin_get (s : State) {g : Fld} (low : g.a < 8 * 0x3e30000) : s.thermPin.get g = s.get g := by
  have pin : g.a ≠ R.MOD_PIN.therm.a := by simp only [R.MOD_PIN.therm]; omega
  have alert : g.a ≠ R.MOD_ALERT.therm.a := by simp only [R.MOD_ALERT.therm]; omega
  unfold State.thermPin
  dsimp only
  split
  · rw [State.get_put_other _ _ _ _ alert, State.get_put_other _ _ _ _ pin]
  · exact State.get_put_other _ _ _ _ pin

/-- True when THERM_N is asserted (R504). -/
def State.therm (s : State) : Bool := s.tripped || (List.range 24).any (fun n => decide (s.get (R.THM_CD.limit n) = 3))

theorem therm_iff (s : State) : s.therm = true ↔ s.tripped = true ∨ ∃ n, n < 24 ∧ s.get (R.THM_CD.limit n) = 3 := by
  simp [State.therm]

theorem thermPin_pin (s : State) : s.thermPin.get R.MOD_PIN.therm = 1 ↔ s.therm = true := by
  have pin : s.thermPin.get R.MOD_PIN.therm = b2n s.therm % 2 := by
    unfold State.thermPin
    dsimp only
    split
    · rw [State.get_put_other _ _ _ _ (by decide), State.get_put_same]
      rfl
    · rw [State.get_put_same]
      rfl
  rw [pin]
  cases s.therm <;> decide

theorem therm_congr {s t : State} (tripped : t.tripped = s.tripped) (limits : ∀ n, n < 24 → t.get (R.THM_CD.limit n) = s.get (R.THM_CD.limit n)) :
    t.therm = true ↔ s.therm = true := by
  rw [therm_iff, therm_iff, tripped]
  exact or_congr Iff.rfl (exists_congr fun n => and_congr_right fun lt => by rw [limits n lt])

theorem hbmTaken_get_other (s : State) (n : Nat) (t : BitVec 16) {g : Fld} (apart : g.a ≠ (R.THM_HBM.temp n).a) : (s.hbmTaken n t).get g = s.get g :=
  (State.get_put_other _ _ _ _ apart).trans (get_congr rfl g)

theorem hbmsTaken_get_other (s : State) (H : Nat) (hbm : List (BitVec 16)) {g : Fld} (low : g.a < 8 * 0x192100) : (s.hbmsTaken H hbm).get g = s.get g := by
  refine foldl_keeps (fun s => s.get g) _ (fun s i => ?_) _ s
  split
  · exact hbmTaken_get_other s _ _ (by simp only [R.THM_HBM.temp]; omega)
  · rfl

/-- The fields of a die keep what the grids left. -/
theorem readingsTaken_get_die (s : State) {H n : Nat} (die : n < 24) (grids : List (BitVec 256)) (junctions hbm : List (BitVec 16)) {g : Fld}
    (place : diePlace n g) : (s.readingsTaken H grids junctions hbm).get g = (s.gridsTaken H grids junctions).get g := by
  obtain ⟨low, high⟩ := place
  refine (hbmsTaken_get_other _ H hbm (by omega)).trans (State.get_put_other _ _ _ _ ?_)
  simp only [R.THM_LD.max]
  omega

theorem heated_get (s : State) (H : Nat) (grids : List (BitVec 256)) (junctions hbm : List (BitVec 16)) {g : Fld} (low : g.a < 8 * 0x3e30000) :
    (s.heated H grids junctions hbm).get g = (s.readingsTaken H grids junctions hbm).get g := (relimit_get _ _ g).trans (thermPin_get _ low)

theorem hot_place (n : Nat) : diePlace n (R.THM_CD.hot n) := by simp only [diePlace, R.THM_CD.hot]; omega

theorem limit_place (n : Nat) : diePlace n (R.THM_CD.limit n) := by simp only [diePlace, R.THM_CD.limit]; omega

theorem diePlace_other {n m : Nat} {g : Fld} (place : diePlace n g) (other : m ≠ n) : ¬diePlace m g := by
  simp only [diePlace] at place ⊢
  omega

/-- A die whose grid is in the sample. -/
theorem gridsTaken_values (s : State) (H : Nat) {grids : List (BitVec 256)} (junctions : List (BitVec 16)) {i : Nat} {g : BitVec 256} (lt : i < 6)
    (at_ : grids[i]? = some g) : (s.gridsTaken H grids junctions).get (R.THM_CD.hot (6 * H + i)) = hottest (gridTemps g) ∧
      (s.gridsTaken H grids junctions).get (R.THM_CD.limit (6 * H + i)) =
        thermalLimit ((gridTemps g).getD (hottest (gridTemps g)) 0) (s.get (R.THM_CD.limit (6 * H + i))) := by
  obtain ⟨u, start, last⟩ := foldl_range_at (fun s => (s.get (R.THM_CD.hot (6 * H + i)), s.get (R.THM_CD.limit (6 * H + i))))
    (fun s i => match grids[i]? with
      | some g => s.thermalDie (6 * H + i) g junctions[i]?
      | none => s) lt (fun s j other => by
        split
        · rw [thermalDie_get_other _ _ _ _ (diePlace_other (hot_place _) (by omega)),
            thermalDie_get_other _ _ _ _ (diePlace_other (limit_place _) (by omega))]
        · rfl) s
  obtain ⟨hot, limit⟩ := thermalDie_values u (6 * H + i) g junctions[i]?
  rw [at_] at last
  obtain ⟨lastHot, lastLimit⟩ := Prod.mk.inj last
  obtain ⟨-, startLimit⟩ := Prod.mk.inj start
  exact ⟨lastHot.trans hot, lastLimit.trans (limit.trans (by rw [startLimit]))⟩

/-- A stack whose report is in the sample. -/
theorem hbmsTaken_values (s : State) (H : Nat) {hbm : List (BitVec 16)} {i : Nat} {x : BitVec 16} (lt : i < 6) (at_ : hbm[i]? = some x) :
    (s.hbmsTaken H hbm).get (R.THM_HBM.temp (6 * H + i)) = x.toNat ∧
      (16 * 95 ≤ x.toInt → KMap.find (fun _ => false) (s.hbmsTaken H hbm).hbmHot (6 * H + i) = true) := by
  obtain ⟨u, -, last⟩ := foldl_range_at (fun s => (s.get (R.THM_HBM.temp (6 * H + i)), KMap.find (fun _ => false) s.hbmHot (6 * H + i)))
    (fun s i => match hbm[i]? with
      | some t => s.hbmTaken (6 * H + i) t
      | none => s) lt (fun s j other => by
        split
        · refine Prod.ext (hbmTaken_get_other s _ _ (by simp only [R.THM_HBM.temp]; omega)) ?_
          exact (KMap.find_put _ _ _ _ _).trans (if_neg (by omega))
        · rfl) s
  rw [at_] at last
  obtain ⟨temp, hot⟩ := Prod.mk.inj last
  refine ⟨temp.trans ((State.get_put_same _ _ _).trans (Nat.mod_eq_of_lt x.isLt)), fun warm => hot.trans ?_⟩
  refine (KMap.find_put _ _ _ _ _).trans ((if_pos rfl).trans ?_)
  exact Bool.or_eq_true_iff.mpr (.inl (decide_eq_true warm))

/-! ### A trip (R502) -/

/-- The pin of a device that has tripped. -/
def State.tripPin (s : State) : State := ({ s with tripped := true } : State).thermPin

/-- An entry to Rest or Freeze abandoned. -/
def State.abandons (s : State) : State :=
  if s.flag R.PWR_STAT.busy ∧ s.get R.PWR_STAT.rung < s.get R.PWR_STAT.target ∧ (s.get R.PWR_STAT.target = 2 ∨ s.get R.PWR_STAT.target = 3) then
    s.puts [(R.PWR_STAT.busy, 0), (R.PWR_STAT.target, s.get R.PWR_STAT.rung)]
  else s

theorem trip_eq (s : State) (h : Nat) : s.trip h = s.tripPin.abandons.fatal E.PWR_THERM_TRIP (atLd h) h := rfl

theorem abandons_get (s : State) {g : Fld} (apart : g.a ≠ R.PWR_STAT.busy.a ∧ g.a ≠ R.PWR_STAT.target.a) : s.abandons.get g = s.get g := by
  unfold State.abandons
  split
  · exact puts_get_other s (by simp only [List.forall_mem_cons]; exact ⟨apart.1, apart.2, by simp⟩)
  · rfl

theorem abandons_unlogged (s : State) : s.abandons.unlogged = s.unlogged := by
  unfold State.abandons
  split
  · exact puts_unlogged s _
  · rfl

theorem thermPin_rest (s : State) : s.thermPin.tripped = s.tripped ∧ s.thermPin.hbmHot = s.hbmHot ∧ s.thermPin.log = s.log := by
  unfold State.thermPin
  dsimp only
  split <;> exact ⟨rfl, rfl, rfl⟩

theorem tripPin_tripped (s : State) : s.tripPin.tripped = true := (thermPin_rest _).1

theorem tripPin_get (s : State) {g : Fld} (low : g.a < 8 * 0x3e30000) : s.tripPin.get g = s.get g := (thermPin_get _ low).trans (get_congr rfl g)

/-- What is left of a state beside what a sample and a trip change. -/
def State.untripped (s : State) : State := { s.unfatal with hbmHot := [], tripped := false }

theorem untripped_of_unsampled {s t : State} (same : t.unsampled = s.unsampled) : t.untripped = s.untripped := (congrArg State.untripped same :)

theorem untripped_of_unlogged {s t : State} (same : t.unlogged = s.unlogged) : t.untripped = s.untripped := (congrArg State.untripped same :)

theorem untripped_of_unfatal {s t : State} (same : t.unfatal = s.unfatal) : t.untripped = s.untripped := (congrArg State.untripped same :)

theorem trip_untripped (s : State) (h : Nat) : (s.trip h).untripped = s.untripped := by
  rw [trip_eq, untripped_of_unfatal (fatal_unfatal _ _ _ _), untripped_of_unlogged (abandons_unlogged _), State.tripPin,
    untripped_of_unsampled (thermPin_unsampled _)]
  rfl

theorem sameMem_of_untripped {s t : State} (same : t.untripped = s.untripped) : SameMem s t :=
  sameMem_of_eq (congrArg State.mem same :) (congrArg State.bad same :) (congrArg State.plist same :) (congrArg State.linkErr same :)

theorem tripped_of_unfatal {s t : State} (same : t.unfatal = s.unfatal) : t.tripped = s.tripped := (congrArg State.tripped same :)

theorem hbmHot_of_unfatal {s t : State} (same : t.unfatal = s.unfatal) : t.hbmHot = s.hbmHot := (congrArg State.hbmHot same :)

theorem tripped_of_unlogged {s t : State} (same : t.unlogged = s.unlogged) : t.tripped = s.tripped := (congrArg State.tripped same :)

theorem hbmHot_of_unlogged {s t : State} (same : t.unlogged = s.unlogged) : t.hbmHot = s.hbmHot := (congrArg State.hbmHot same :)

theorem trip_tripped (s : State) (h : Nat) : (s.trip h).tripped = true := by
  rw [trip_eq, tripped_of_unfatal (fatal_unfatal _ _ _ _), tripped_of_unlogged (abandons_unlogged _), tripPin_tripped]

theorem trip_hbmHot (s : State) (h : Nat) : (s.trip h).hbmHot = s.hbmHot := by
  rw [trip_eq, hbmHot_of_unfatal (fatal_unfatal _ _ _ _), hbmHot_of_unlogged (abandons_unlogged _), State.tripPin, (thermPin_rest _).2.1]

/-- A field of the power and heat registers, or of the pins: apart from those of a fatal error. -/
theorem fatal_keeps (s : State) (code : Nat) (w : Where) (detail : Nat) {g : Fld}
    (place : (8 * 0x190000 ≤ g.a ∧ g.a < 8 * 0x3e00000) ∨ (8 * 0x3e30000 ≤ g.a ∧ g.a < 8 * 0x3e30008)) :
    (s.fatal code w detail).get g = s.get g := by
  refine fatal_get s code w detail ⟨fun c lt => ?_, ?_⟩ ⟨?_, ?_, ?_, by omega⟩ ?_
  · simp only [R.CTX_EVT.events]; omega
  · simp only [R.RAS_STAT.supp]; omega
  · simp only [R.RAS_LOGHD.newest]; omega
  · simp only [R.RAS_LOGHD.lost]; omega
  · simp only [R.RAS_STAT.new]; omega
  · simp only [fatalFields, List.forall_mem_cons, R.RAS_STAT.fatal, R.RAS_STAT.code, R.HOST_STAT.error, R.MOD_ALERT.fatal]
    exact ⟨by omega, by omega, by omega, by omega, by simp⟩

theorem trip_get_heat (s : State) (h : Nat) {g : Fld} (place : heatPlace g) : (s.trip h).get g = s.get g := by
  obtain ⟨low, high⟩ := place
  rw [trip_eq, fatal_keeps _ _ _ _ (.inl ⟨by omega, by omega⟩), abandons_get _ ⟨by simp only [R.PWR_STAT.busy]; omega, by simp only [R.PWR_STAT.target]; omega⟩,
    tripPin_get _ (by omega)]

theorem trip_pin (s : State) (h : Nat) : (s.trip h).get R.MOD_PIN.therm = 1 := by
  rw [trip_eq, fatal_keeps _ _ _ _ (.inr (by decide)), abandons_get _ (by decide)]
  exact (thermPin_pin _).mpr rfl

theorem trip_fatal (s : State) (h : Nat) : (s.trip h).get R.RAS_STAT.fatal = 1 := fatal_set ..

theorem levelLimit_zero {s : State} (fatal : s.get R.RAS_STAT.fatal = 1) (n : Nat) : s.levelLimit n = 0 := if_pos (flag_eq_true fatal)

theorem trip_busy (s : State) (h : Nat) (busy : s.get R.PWR_STAT.busy = 1) (up : s.get R.PWR_STAT.rung < s.get R.PWR_STAT.target)
    (rest : s.get R.PWR_STAT.target < 4) (deep : 2 ≤ s.get R.PWR_STAT.target) :
    (s.trip h).get R.PWR_STAT.busy = 0 ∧ (s.trip h).get R.PWR_STAT.rung = s.get R.PWR_STAT.rung := by
  have pin (g : Fld) (low : g.a < 8 * 0x3e30000) := tripPin_get s low
  have abandoned : s.tripPin.abandons = s.tripPin.puts [(R.PWR_STAT.busy, 0), (R.PWR_STAT.target, s.tripPin.get R.PWR_STAT.rung)] := by
    refine if_pos ?_
    rw [State.flag, pin _ (by decide), pin _ (by decide), pin _ (by decide)]
    exact ⟨decide_eq_true busy, up, by omega⟩
  constructor
  · rw [trip_eq, fatal_keeps _ _ _ _ (.inl (by decide)), abandoned]
    exact (puts_two s.tripPin 0 (s.tripPin.get R.PWR_STAT.rung) (f := R.PWR_STAT.busy) (g := R.PWR_STAT.target) (by decide)).1
  · rw [trip_eq, fatal_keeps _ _ _ _ (.inl (by decide)), abandons_get _ (by decide), pin _ (by decide)]

/-! ## Coolant and leak (R503, R562) -/

theorem setCeiling_get_other (s : State) (v : Nat) {g : Fld} (apart : g.a ≠ R.PWR_STAT.ceiling.a) : (s.setCeiling v).get g = s.get g :=
  (relimit_get _ s g).trans (State.get_put_other _ _ _ _ apart)

theorem setCeiling_get (s : State) {v : Nat} (small : v < 16) : (s.setCeiling v).get R.PWR_STAT.ceiling = v :=
  (relimit_get _ s _).trans ((State.get_put_same _ _ _).trans (Nat.mod_eq_of_lt small))

/-- What is left of a state beside its registers and the restarts of its limits. -/
theorem setCeiling_unlimited (s : State) (v : Nat) : (s.setCeiling v).unlimited = (s.put R.PWR_STAT.ceiling v).unlimited := relimit_unlimited _ s

theorem sameMem_of_unlimited {s t : State} (same : t.unlimited = s.unlimited) : SameMem s t :=
  sameMem_of_eq (congrArg State.mem same :) (congrArg State.bad same :) (congrArg State.plist same :) (congrArg State.linkErr same :)

theorem setCeiling_sameMem (s : State) (v : Nat) : SameMem s (s.setCeiling v) :=
  (sameMem_of_eq rfl rfl rfl rfl : SameMem s (s.put R.PWR_STAT.ceiling v)).trans (sameMem_of_unlimited (setCeiling_unlimited s v))

theorem setCeiling_log (s : State) (v : Nat) : (s.setCeiling v).log = s.log :=
  (log_of_unlimited (setCeiling_unlimited s v)).trans rfl

theorem holds_of_unlimited {s t : State} (same : t.unlimited = s.unlimited) : t.coolHold = s.coolHold ∧ t.leakHold = s.leakHold :=
  ⟨(congrArg State.coolHold same :), (congrArg State.leakHold same :)⟩

theorem holds_of_unlogged {s t : State} (same : t.unlogged = s.unlogged) : t.coolHold = s.coolHold ∧ t.leakHold = s.leakHold :=
  ⟨(congrArg State.coolHold same :), (congrArg State.leakHold same :)⟩

/-- The coolant's temperatures stand in their registers, and memory is as it was. -/
structure CoolantSeen (s t : State) (inlet outlet : BitVec 16) : Prop where
  inlet : t.get R.THM_COOL.inlet = inlet.toNat
  outlet : t.get R.THM_COOL.outlet = outlet.toNat
  mem : SameMem s t

theorem noteCoolant_unlogged (s : State) (inlet outlet : BitVec 16) : (s.noteCoolant inlet outlet).unlogged = s.unlogged := puts_unlogged s _

theorem noteCoolant_log (s : State) (inlet outlet : BitVec 16) : (s.noteCoolant inlet outlet).log = s.log := puts_log s _

theorem noteCoolant_range (s : State) (inlet outlet : BitVec 16) : (s.noteCoolant inlet outlet).inletRange = s.inletRange := by
  have mfg : (s.noteCoolant inlet outlet).mfg = s.mfg := (congrArg State.mfg (noteCoolant_unlogged s inlet outlet) :)
  rw [State.inletRange, mfg, State.inletRange]

theorem noteCoolant_ceiling (s : State) (inlet outlet : BitVec 16) : (s.noteCoolant inlet outlet).get R.PWR_STAT.ceiling = s.get R.PWR_STAT.ceiling :=
  puts_get_other s (by simp only [List.forall_mem_cons]; exact ⟨by decide, by decide, by decide, by simp⟩)

theorem coolant_apart (inlet outlet : BitVec 16) (hi : Nat) :
    ([(R.THM_COOL.inlet, inlet.toNat), (R.THM_COOL.outlet, outlet.toNat), (R.THM_COOL.inlet_hi, hi)].map fun p => p.1.a).Nodup :=
  show [R.THM_COOL.inlet.a, R.THM_COOL.outlet.a, R.THM_COOL.inlet_hi.a].Nodup by decide

theorem noteCoolant_seen (s : State) (inlet outlet : BitVec 16) : CoolantSeen s (s.noteCoolant inlet outlet) inlet outlet := by
  refine ⟨?_, ?_, sameMem_of_unlogged (noteCoolant_unlogged s inlet outlet)⟩
  · exact (puts_get_of_nodup s (coolant_apart inlet outlet _) (p := (R.THM_COOL.inlet, inlet.toNat)) (by simp)).trans (Nat.mod_eq_of_lt inlet.isLt)
  · exact (puts_get_of_nodup s (coolant_apart inlet outlet _) (p := (R.THM_COOL.outlet, outlet.toNat)) (by simp)).trans (Nat.mod_eq_of_lt outlet.isLt)

theorem withCool_keeps (s : State) (b : Bool) : SameMem s { s with coolHold := b } ∧ ∀ g, ({ s with coolHold := b } : State).get g = s.get g :=
  ⟨sameMem_of_eq rfl rfl rfl rfl, get_congr rfl⟩

theorem withLeak_keeps (s : State) (b : Bool) : SameMem s { s with leakHold := b } ∧ ∀ g, ({ s with leakHold := b } : State).get g = s.get g :=
  ⟨sameMem_of_eq rfl rfl rfl rfl, get_congr rfl⟩

/-- The inlet is too hot: the ceiling falls to 4 and is held. -/
def State.coolantHeld (s : State) (inlet outlet : BitVec 16) : State :=
  let u := s.noteCoolant inlet outlet
  (({ u with coolHold := true } : State).raise E.PWR_COOLANT none (atSteward 0) inlet.toNat).setCeiling (min (u.get R.PWR_STAT.ceiling) 4)

theorem coolantHeld_seen (s : State) (inlet outlet : BitVec 16) : CoolantSeen s (s.coolantHeld inlet outlet) inlet outlet := by
  have get (g : Fld) (low : g.a < 8 * 0x3e00000) (apart : g.a ≠ R.PWR_STAT.ceiling.a) :
      (s.coolantHeld inlet outlet).get g = (s.noteCoolant inlet outlet).get g :=
    (setCeiling_get_other _ _ apart).trans ((raise_get _ low).trans ((withCool_keeps _ true).2 g))
  obtain ⟨inlet', outlet', mem⟩ := noteCoolant_seen s inlet outlet
  refine ⟨(get _ (by decide) (by decide)).trans inlet', (get _ (by decide) (by decide)).trans outlet', ?_⟩
  exact ((mem.trans (withCool_keeps _ true).1).trans (sameMem_of_unlogged (raise_unlogged ..))).trans (setCeiling_sameMem _ _)

theorem coolantHeld_values (s : State) (inlet outlet : BitVec 16) : (s.coolantHeld inlet outlet).coolHold = true ∧
    (s.coolantHeld inlet outlet).get R.PWR_STAT.ceiling = min (s.get R.PWR_STAT.ceiling) 4 ∧
    (s.coolantHeld inlet outlet).log.head?.map LogEntry.code = some E.PWR_COOLANT := by
  refine ⟨?_, ?_, ?_⟩
  · rw [State.coolantHeld, (holds_of_unlimited (setCeiling_unlimited _ _)).1]
    exact (holds_of_unlogged (raise_unlogged ..)).1
  · rw [State.coolantHeld, noteCoolant_ceiling]
    exact setCeiling_get _ (by omega)
  · rw [State.coolantHeld, setCeiling_log]
    exact log_code_of_raise

section
variable {s : State} (inlet outlet : BitVec 16)

theorem coolant_off (off : s.s0Runs = false) : exec (.coolantInletHigh inlet outlet) s = .next s ∧ exec (.coolantInletLow inlet outlet) s = .next s ∧
    exec (.coolantInletNormal inlet outlet) s = .next s := by
  have still : (!s.s0Runs) = true := by rw [off]; rfl
  exact ⟨congrArg Host.Outcome.next (if_pos still), congrArg Host.Outcome.next (if_pos still), congrArg Host.Outcome.next (if_pos still)⟩

variable (on : s.s0Runs = true)
include on

theorem exec_coolantInletHigh : exec (.coolantInletHigh inlet outlet) s = .next (
    if 16 * s.inletRange.2 < inlet.toInt then s.coolantHeld inlet outlet else s.noteCoolant inlet outlet) := by
  rw [← noteCoolant_range s inlet outlet]
  exact congrArg Host.Outcome.next (if_neg (by simp [on]))

theorem exec_coolantInletLow : exec (.coolantInletLow inlet outlet) s = .next (
    if inlet.toInt < 16 * s.inletRange.1 then (s.noteCoolant inlet outlet).raise E.PWR_COOLANT none (atSteward 0) inlet.toNat
    else s.noteCoolant inlet outlet) := by
  rw [← noteCoolant_range s inlet outlet]
  exact congrArg Host.Outcome.next (if_neg (by simp [on]))

theorem exec_coolantInletNormal : exec (.coolantInletNormal inlet outlet) s = .next (
    if inlet.toInt ≤ 16 * (s.inletRange.2 - 2) then { s.noteCoolant inlet outlet with coolHold := false } else s.noteCoolant inlet outlet) := by
  rw [← noteCoolant_range s inlet outlet]
  exact congrArg Host.Outcome.next (if_neg (by simp [on]))

end

theorem inletRange_eq (s : State) : s.inletRange = (if s.mfg.warm = true then 40 else 25, if s.mfg.warm = true then 60 else 45) := by
  unfold State.inletRange
  split <;> rfl

/-- The leak noted: the ceiling falls to 0 and is held. -/
def State.leakHeld (s : State) : State :=
  let u := (s.put R.MOD_PIN.leak 1).puts [(R.THM_COOL.leak, 1), (R.MOD_ALERT.leak, 1)]
  (({ u with leakHold := true } : State).raise E.PWR_LEAK none (atSteward 0) 0).setCeiling 0

theorem exec_leakWet (s : State) : exec .leakWet s = .next (
    if s.flag R.MOD_PIN.leak = true then s else if (!s.s0Runs) = true then s.put R.MOD_PIN.leak 1 else s.leakHeld) := rfl

theorem leakHeld_get (s : State) {g : Fld} (apart : Unlogged g) (ceiling : g.a ≠ R.PWR_STAT.ceiling.a) :
    s.leakHeld.get g = ((s.put R.MOD_PIN.leak 1).puts [(R.THM_COOL.leak, 1), (R.MOD_ALERT.leak, 1)]).get g :=
  (setCeiling_get_other _ _ ceiling).trans ((raise_keeps _ apart).trans ((withLeak_keeps _ true).2 g))

theorem leakHeld_values (s : State) : s.leakHeld.get R.MOD_PIN.leak = 1 ∧ s.leakHeld.get R.THM_COOL.leak = 1 ∧ s.leakHeld.leakHold = true ∧
    s.leakHeld.get R.PWR_STAT.ceiling = 0 ∧ SameMem s s.leakHeld ∧ s.leakHeld.log.head?.map LogEntry.code = some E.PWR_LEAK := by
  refine ⟨?_, ?_, ?_, setCeiling_get _ (by decide), ?_, ?_⟩
  · rw [leakHeld_get s ⟨by decide, by decide, by decide, by decide⟩ (by decide), puts_get_other _ (by simp only [List.forall_mem_cons]; exact ⟨by decide, by decide, by simp⟩)]
    exact State.get_put_same _ _ _
  · rw [leakHeld_get s ⟨by decide, by decide, by decide, by decide⟩ (by decide)]
    exact (puts_two _ 1 1 (by decide)).1
  · rw [State.leakHeld, (holds_of_unlimited (setCeiling_unlimited _ _)).2]
    exact (holds_of_unlogged (raise_unlogged ..)).2
  · have noted : SameMem s ((s.put R.MOD_PIN.leak 1).puts [(R.THM_COOL.leak, 1), (R.MOD_ALERT.leak, 1)]) :=
      (sameMem_of_eq rfl rfl rfl rfl : SameMem s (s.put R.MOD_PIN.leak 1)).trans (sameMem_of_unlogged (puts_unlogged _ _))
    exact ((noted.trans (withLeak_keeps _ true).1).trans (sameMem_of_unlogged (raise_unlogged ..))).trans (setCeiling_sameMem _ _)
  · rw [State.leakHeld, setCeiling_log]
    exact log_code_of_raise

/-! ## The core sample (R540, R542) -/

/-- What bytes written leave at each address: a byte that is kept back stays as it was. -/
theorem find_putBytes_keep {keep : Nat → Bool} (bs : List Byte) {a : Nat} (m : KMap Byte) (x : Nat) :
    KMap.find (fun _ => 0) (putBytes keep bs a m) x =
      if a ≤ x ∧ x < a + bs.length ∧ keep x = false then bs.getD (x - a) 0 else KMap.find (fun _ => 0) m x := by
  induction bs generalizing a m with
  | nil => rw [putBytes, if_neg (by rintro ⟨low, high, -⟩; simp only [List.length_nil] at high; omega)]
  | cons b bs ih =>
    rw [putBytes, ih, List.length_cons]
    by_cases first : x = a
    · subst first
      rw [if_neg (by omega)]
      cases kept : keep x <;> simp
    · have rest : KMap.find (fun _ => 0) (if keep a = true then m else KMap.put (fun _ => 0) m a b) x = KMap.find (fun _ => 0) m x := by
        split
        · rfl
        · rw [KMap.find_put, if_neg first]
      rw [rest]
      by_cases inside : a ≤ x ∧ x < a + (bs.length + 1) ∧ keep x = false
      · obtain ⟨low, high, free⟩ := inside
        rw [if_pos ⟨by omega, by omega, free⟩, if_pos ⟨low, high, free⟩, show x - a = (x - (a + 1)) + 1 by omega]
        rfl
      · rw [if_neg inside, if_neg (fun more => inside ⟨by omega, by omega, more.2.2⟩)]

theorem write_byte_keep (s : State) (a : Nat) (bs : List Byte) (x : Nat) : (s.write a bs).byte x =
    if a ≤ x ∧ x < a + bs.length ∧ s.dropsByte a bs.length x = false then bs.getD (x - a) 0 else s.byte x := find_putBytes_keep bs s.mem x

/-- The first ten bytes of a sample: its mark, version, flags, count and code. -/
def sampleMark (flags n code : Nat) : List Byte := leBytes 4 0x4C50_4D53 ++ leBytes 1 1 ++ leBytes 1 flags ++ leBytes 2 n ++ leBytes 2 code

/-- The image of a sample. -/
def State.sampleImage (s : State) (x : Sample) (hbmOk : Bool) : List Byte :=
  s.sampleHead x hbmOk (s.sections x) ++ (s.sections x).flatMap Section.data

theorem fit_append (l m : List Byte) {n : Nat} (le : l.length ≤ n) : ∃ r, fit n (l ++ m) = l ++ r := by
  refine ⟨(m ++ List.replicate n 0).take (n - l.length), ?_⟩
  rw [fit, List.append_assoc, List.take_append, List.take_of_length_le le]

theorem length_fit (n : Nat) (l : List Byte) : (fit n l).length = n := by simp [fit]

theorem sampleImage_mark (s : State) (x : Sample) (hbmOk : Bool) :
    (∃ flags n rest, s.sampleImage x hbmOk = sampleMark flags n x.code ++ rest) ∧ 8192 ≤ (s.sampleImage x hbmOk).length := by
  constructor
  · have head : ∃ flags n rest, s.sampleHead x hbmOk (s.sections x) = fit 8192 (sampleMark flags n x.code ++ rest) := by
      refine ⟨1 + 2 + 4 * b2n (!hbmOk) + 8 * b2n (x.gone.contains 0) + 16 * b2n (x.gone.contains 1), (s.sections x).length,
        leBytes 6 0 ++ leBytes 8 x.tick ++ leBytes 8 s.mfg.serial ++ leBytes 8 (s.get R.SEC_MGEN.gen)
          ++ leBytes 4 (s.get (R.SEC_BANK.fwver (s.get R.SEC_STAT.bank_a))) ++ leBytes 4 0 ++ sha384 ((s.sections x).flatMap Section.data)
          ++ leBytes 8 (8192 + ((s.sections x).flatMap Section.data).length) ++ leBytes 24 0 ++ sectionEntries (s.sections x) 8192, ?_⟩
      simp only [State.sampleHead, sampleMark, List.append_assoc]
    obtain ⟨flags, n, rest, head⟩ := head
    obtain ⟨more, fits⟩ := fit_append (sampleMark flags n x.code) rest (n := 8192) (by simp [sampleMark, leBytes])
    exact ⟨flags, n, more ++ (s.sections x).flatMap Section.data, by rw [State.sampleImage, head, fits, List.append_assoc]⟩
  · rw [State.sampleImage, List.length_append, State.sampleHead, length_fit]
    omega

/-- The sample written to its places. -/
def State.sampleStored (s : State) (x : Sample) (hbmOk : Bool) : State :=
  (if hbmOk = true then s.write 0 (s.sampleImage x hbmOk) else s).write 0x02FF_F000_0000 (s.sampleImage x hbmOk)

theorem exec_coreSampleComplete (s : State) (hbmOk : Bool) : exec (.coreSampleComplete hbmOk) s = .next (match s.sample with
    | none => s
    | some x => (({ s.sampleStored x hbmOk with sample := none } : State).put R.RAS_STAT.valid 1).count R.RAS_STAT.samples 1) := rfl

/-- The first granule of the sample is written whole. -/
theorem not_dropsByte_mark (s : State) {n i : Nat} (long : 64 ≤ n) (lt : i < 10) : s.dropsByte 0x02FF_F000_0000 n (0x02FF_F000_0000 + i) = false := by
  have covered : coversUnit 0x02FF_F000_0000 n (0x02FF_F000_0000 + i) = true := by
    unfold coversUnit errUnit
    split <;> exact decide_eq_true ⟨by dsimp only; omega, by dsimp only; omega⟩
  rw [State.dropsByte, covered]
  exact Bool.and_false _

theorem bytes_of_mark {t : State} {a : Nat} {mark rest : List Byte} (at_ : ∀ i, i < mark.length → t.byte (a + i) = (mark ++ rest).getD i 0) :
    t.bytes a mark.length = mark := by
  refine List.ext_getElem (length_bytes ..) fun i low high => ?_
  have byte : (t.bytes a mark.length)[i] = t.byte (a + i) := by simp [State.bytes]
  rw [byte, at_ i high, List.getD_append _ _ _ _ high, List.getD_eq_getElem _ _ high]

theorem sampleStored_mark (s : State) (x : Sample) (hbmOk : Bool) :
    ∃ flags n, (s.sampleStored x hbmOk).bytes 0x02FF_F000_0000 10 = sampleMark flags n x.code := by
  obtain ⟨⟨flags, n, rest, image⟩, long⟩ := sampleImage_mark s x hbmOk
  refine ⟨flags, n, bytes_of_mark (mark := sampleMark flags n x.code) (rest := rest) fun i lt => ?_⟩
  have lt : i < 10 := lt
  rw [State.sampleStored, write_byte_keep, if_pos ⟨by omega, by omega, not_dropsByte_mark _ (by omega) lt⟩, Nat.add_sub_cancel_left, image]

theorem leNat_leBytes (n v : Nat) : leNat (leBytes n v) = v % 256 ^ n := by
  induction n generalizing v with
  | zero => simp [leBytes, leNat, Nat.mod_one]
  | succ n ih =>
    rw [leBytes, leNat, ih, BitVec.toNat_ofNat, Nat.mod_eq_of_lt (Nat.mod_lt v (by decide)), Nat.pow_succ, Nat.mul_comm (256 ^ n) 256, Nat.mod_mul]

/-- The sample's mark and code as a reader finds them. -/
theorem sampleMark_fields (flags n code : Nat) :
    leNat ((sampleMark flags n code).take 4) = 0x4C50_4D53 ∧ fieldAt (sampleMark flags n code) 8 2 = code % 2 ^ 16 := by
  constructor
  · have four : (sampleMark flags n code).take 4 = leBytes 4 0x4C50_4D53 := by simp [sampleMark, leBytes]
    rw [four, leNat_leBytes]
    decide
  · have two : ((sampleMark flags n code).drop 8).take 2 = leBytes 2 code := by simp [sampleMark, leBytes]
    rw [fieldAt, two, leNat_leBytes]
    rfl

theorem bytes_take (s : State) (a : Nat) {n m : Nat} (le : n ≤ m) : s.bytes a n = (s.bytes a m).take n := by
  rw [State.bytes, State.bytes, ← List.map_take, List.take_range, Nat.min_eq_left le]

/-- A sample counted. -/
def State.sampleCounted (s : State) : State := (({ s with sample := none } : State).put R.RAS_STAT.valid 1).count R.RAS_STAT.samples 1

/-- A sample completed. -/
def State.sampleDone (s : State) (x : Sample) (hbmOk : Bool) : State := (s.sampleStored x hbmOk).sampleCounted

theorem write_get (s : State) (a : Nat) (bs : List Byte) (g : Fld) : (s.write a bs).get g = s.get g := get_congr rfl g

theorem sampleStored_get (s : State) (x : Sample) (hbmOk : Bool) (g : Fld) : (s.sampleStored x hbmOk).get g = s.get g := by
  rw [State.sampleStored, write_get]
  split
  · exact write_get ..
  · rfl

theorem sampleCounted_byte (s : State) (a : Nat) : s.sampleCounted.byte a = s.byte a := rfl

theorem sampleCounted_bytes (s : State) (a n : Nat) : s.sampleCounted.bytes a n = s.bytes a n := rfl

theorem sampleCounted_counts (s : State) : s.sampleCounted.sample = none ∧ s.sampleCounted.get R.RAS_STAT.valid = 1 ∧
    s.Counted s.sampleCounted R.RAS_STAT.samples 1 := by
  refine ⟨rfl, ?_, ?_⟩
  · rw [State.sampleCounted, State.get_count_other _ _ _ _ (by decide), State.get_put_same]
    rfl
  · rw [State.Counted, State.sampleCounted, State.get_count_same, State.get_put_other _ _ _ _ (by decide)]
    rfl

theorem sampleDone_marked (s : State) (x : Sample) (hbmOk : Bool) : (s.sampleDone x hbmOk).le 0x02FF_F000_0000 4 = 0x4C50_4D53 ∧
    fieldAt ((s.sampleDone x hbmOk).bytes 0x02FF_F000_0000 10) 8 2 = x.code % 2 ^ 16 := by
  obtain ⟨flags, n, mark⟩ := sampleStored_mark s x hbmOk
  obtain ⟨four, two⟩ := sampleMark_fields flags n x.code
  rw [State.le, State.sampleDone, sampleCounted_bytes, sampleCounted_bytes, bytes_take _ _ (show 4 ≤ 10 by decide), mark]
  exact ⟨four, two⟩

/-! ## What a sample of temperatures leaves -/

/-- What the obligation says of the state after a sample. -/
structure Heated (s t : State) (H : Nat) (grids : List (BitVec 256)) (hbm : List (BitVec 16)) : Prop where
  mem : SameMem s t
  log : t.tripped = s.tripped → t.log = s.log
  grid : ∀ i g, i < 6 → grids[i]? = some g → t.get (R.THM_CD.hot (6 * H + i)) = hottest (gridTemps g) ∧
    t.get (R.THM_CD.limit (6 * H + i)) = thermalLimit ((gridTemps g).getD (hottest (gridTemps g)) 0) (s.get (R.THM_CD.limit (6 * H + i)))
  stack : ∀ i x, i < 6 → hbm[i]? = some x → t.get (R.THM_HBM.temp (6 * H + i)) = x.toNat ∧
    (16 * 95 ≤ x.toInt → ∀ n, ldOfDie n = H → t.levelLimit n ≤ 4)
  pin : t.get R.MOD_PIN.therm = 1 ↔ t.therm = true

theorem levelLimit_le_of_hot {s : State} {n i : Nat} (lt : i < 6) (hot : KMap.find (fun _ => false) s.hbmHot (6 * ldOfDie n + i) = true) :
    s.levelLimit n ≤ 4 := by
  unfold State.levelLimit
  split
  · exact Nat.zero_le 4
  · rw [if_pos (List.any_eq_true.mpr ⟨i, List.mem_range.mpr lt, hot⟩)]
    exact Nat.min_le_right _ _

theorem heated_rest (s : State) (H : Nat) (grids : List (BitVec 256)) (junctions hbm : List (BitVec 16)) :
    (s.heated H grids junctions hbm).tripped = s.tripped ∧ (s.heated H grids junctions hbm).log = s.log := by
  have same := heated_unsampled s H grids junctions hbm
  generalize s.heated H grids junctions hbm = t at same
  exact ⟨(congrArg State.tripped same :), (congrArg State.log same :)⟩

theorem hbmHot_of_unlimited {s t : State} (same : t.unlimited = s.unlimited) : t.hbmHot = s.hbmHot := (congrArg State.hbmHot same :)

theorem tripped_of_unlimited {s t : State} (same : t.unlimited = s.unlimited) : t.tripped = s.tripped := (congrArg State.tripped same :)

theorem heated_hbmHot (s : State) (H : Nat) (grids : List (BitVec 256)) (junctions hbm : List (BitVec 16)) :
    (s.heated H grids junctions hbm).hbmHot = (s.readingsTaken H grids junctions hbm).hbmHot :=
  (hbmHot_of_unlimited (relimit_unlimited _ s)).trans (thermPin_rest _).2.1

theorem heated_pin (s : State) (H : Nat) (grids : List (BitVec 256)) (junctions hbm : List (BitVec 16)) :
    (s.heated H grids junctions hbm).get R.MOD_PIN.therm = 1 ↔ (s.heated H grids junctions hbm).therm = true := by
  rw [State.heated, relimit_get, thermPin_pin]
  refine (therm_congr ((tripped_of_unlimited (relimit_unlimited _ s)).trans (thermPin_rest _).1) fun n lt => ?_).symm
  exact (relimit_get _ s _).trans (thermPin_get _ (by simp only [R.THM_CD.limit]; omega))

theorem sameMem_of_unsampled {s t : State} (same : t.unsampled = s.unsampled) : SameMem s t :=
  sameMem_of_eq (congrArg State.mem same :) (congrArg State.bad same :) (congrArg State.plist same :) (congrArg State.linkErr same :)

theorem heated_spec (s : State) {H : Nat} (ld : H < 4) (grids : List (BitVec 256)) (junctions hbm : List (BitVec 16)) :
    Heated s (s.heated H grids junctions hbm) H grids hbm := by
  refine ⟨sameMem_of_unsampled (heated_unsampled s H grids junctions hbm), fun _ => (heated_rest s H grids junctions hbm).2, fun i g lt at_ => ?_,
    fun i x lt at_ => ?_, heated_pin s H grids junctions hbm⟩
  · obtain ⟨hot, limit⟩ := gridsTaken_values s H junctions lt at_
    have place {f : Fld} (inside : diePlace (6 * H + i) f) : (s.heated H grids junctions hbm).get f = (s.gridsTaken H grids junctions).get f :=
      (heated_get s H grids junctions hbm (by obtain ⟨-, high⟩ := inside; omega)).trans (readingsTaken_get_die s (by omega) grids junctions hbm inside)
    exact ⟨(place (hot_place _)).trans hot, (place (limit_place _)).trans limit⟩
  · obtain ⟨temp, hot⟩ := hbmsTaken_values ((s.gridsTaken H grids junctions).put (R.THM_LD.max H) (wrap 16 (((List.range 6).map
      (fun i => toSigned 16 ((s.gridsTaken H grids junctions).get (R.THM_CD.grid_max (6 * H + i))))).getD (hottest ((List.range 6).map
      (fun i => toSigned 16 ((s.gridsTaken H grids junctions).get (R.THM_CD.grid_max (6 * H + i)))))) 0))) H lt at_
    refine ⟨(heated_get s H grids junctions hbm (by simp only [R.THM_HBM.temp]; omega)).trans temp, fun warm n die => ?_⟩
    refine levelLimit_le_of_hot lt ?_
    rw [heated_hbmHot, die]
    exact hot warm

/-- A trip keeps what the sample left. -/
theorem heated_trip {s u : State} {H : Nat} {grids : List (BitVec 256)} {hbm : List (BitVec 16)} (ld : H < 4) (h : Nat) (heated : Heated s u H grids hbm)
    (first : s.tripped = false) : Heated s (u.trip h) H grids hbm := by
  obtain ⟨mem, -, grid, stack, -⟩ := heated
  refine ⟨mem.trans (sameMem_of_untripped (trip_untripped u h)), fun same => ?_, fun i g lt at_ => ?_, fun i x lt at_ => ?_, ?_⟩
  · exact absurd ((trip_tripped u h).symm.trans (same.trans first)) (by decide)
  · obtain ⟨hot, limit⟩ := grid i g lt at_
    exact ⟨(trip_get_heat u h ⟨by simp only [R.THM_CD.hot]; omega, by simp only [R.THM_CD.hot]; omega⟩).trans hot,
      (trip_get_heat u h ⟨by simp only [R.THM_CD.limit]; omega, by simp only [R.THM_CD.limit]; omega⟩).trans limit⟩
  · obtain ⟨temp, -⟩ := stack i x lt at_
    exact ⟨(trip_get_heat u h ⟨by simp only [R.THM_HBM.temp]; omega, by simp only [R.THM_HBM.temp]; omega⟩).trans temp,
      fun _ n _ => (levelLimit_zero (trip_fatal u h) n).trans_le (Nat.zero_le 4)⟩
  · exact ⟨fun _ => (therm_iff _).mpr (.inl (trip_tripped u h)), fun _ => trip_pin u h⟩

/-! ## The obligation -/

/-- Settles O46. -/
theorem heatAndSample : Obligations.HeatAndSample := by
  refine ⟨fun s h grids junctions hbm => ⟨fun off => ?_, fun on => ?_⟩, fun s h => ⟨fun off => ?_, fun on => ?_⟩, fun s inlet outlet => ⟨coolant_off _ _,
    fun on => ⟨fun hot => ?_, fun cool => ?_, fun cold => ?_, ?_⟩⟩, fun s => ⟨fun wet => ?_, fun dry off => ?_, fun dry on => ?_, rfl⟩,
    fun s hbmOk => ⟨fun none_ => ?_, fun x some_ => ?_⟩⟩
  · refine (exec_thermalSample s h grids junctions hbm).trans (congrArg _ (if_pos ?_))
    simpa using off
  · have run := (exec_thermalSample s h grids junctions hbm).trans (congrArg Host.Outcome.next (if_neg (by simpa using on)))
    have spec : ∃ t, exec (.thermalSample h grids junctions hbm) s = .next t ∧ Heated s t h.val grids hbm := by
      have heated := heated_spec s h.isLt grids junctions hbm
      split at run
      · next trips => exact ⟨_, run, heated_trip h.isLt h.val heated ((heated_rest s _ _ _ _).1.symm.trans trips.2)⟩
      · exact ⟨_, run, heated⟩
    obtain ⟨t, run, mem, log, grid, stack, pin⟩ := spec
    refine ⟨t, run, mem, log, fun i g lt at_ => ?_, stack, pin.trans (therm_iff t)⟩
    obtain ⟨hot, limit⟩ := grid i g lt at_
    obtain ⟨small, top⟩ := gridTemps_hottest g
    exact ⟨_, small, top, hot, by rw [limit, gridTemps_getD g small]⟩
  · exact congrArg Host.Outcome.next (if_pos (by rw [off]; rfl))
  · exact ⟨s.trip h.val, congrArg Host.Outcome.next (if_neg (by simp [on])), sameMem_of_untripped (trip_untripped s _), trip_fatal s _, trip_pin s _,
      trip_tripped s _, levelLimit_zero (trip_fatal s _), (congrArg (fun l => l.head?.map LogEntry.code) (fatal_log _ _ _ _)).trans log_code_of_raise,
      fun busy up rest deep => trip_busy s _ busy up rest deep⟩
  · have run := exec_coolantInletHigh inlet outlet on
    rw [inletRange_eq, if_pos hot] at run
    obtain ⟨inlet', outlet', mem⟩ := coolantHeld_seen s inlet outlet
    exact ⟨_, run, ⟨inlet', outlet', mem⟩, coolantHeld_values s inlet outlet⟩
  · have run := exec_coolantInletHigh inlet outlet on
    rw [inletRange_eq, if_neg (not_lt.mpr cool)] at run
    obtain ⟨inlet', outlet', mem⟩ := noteCoolant_seen s inlet outlet
    exact ⟨_, run, ⟨inlet', outlet', mem⟩, (holds_of_unlogged (noteCoolant_unlogged s inlet outlet)).1, noteCoolant_log s inlet outlet⟩
  · have run := exec_coolantInletLow inlet outlet on
    rw [inletRange_eq, if_pos cold] at run
    obtain ⟨inlet', outlet', mem⟩ := noteCoolant_seen s inlet outlet
    exact ⟨_, run, ⟨(raise_get _ (by decide)).trans inlet', (raise_get _ (by decide)).trans outlet', mem.trans (sameMem_of_unlogged (raise_unlogged ..))⟩,
      (raise_get _ (by decide)).trans (noteCoolant_ceiling s inlet outlet), log_code_of_raise⟩
  · have run := exec_coolantInletNormal inlet outlet on
    rw [inletRange_eq] at run
    obtain ⟨inlet', outlet', mem⟩ := noteCoolant_seen s inlet outlet
    by_cases normal : inlet.toInt ≤ 16 * ((if s.mfg.warm = true then 60 else 45) - 2)
    · rw [if_pos normal] at run
      exact ⟨_, run, ⟨((withCool_keeps _ _).2 _).trans inlet', ((withCool_keeps _ _).2 _).trans outlet', mem.trans (withCool_keeps _ _).1⟩,
        noteCoolant_log s inlet outlet, (if_pos normal).symm⟩
    · rw [if_neg normal] at run
      exact ⟨_, run, ⟨inlet', outlet', mem⟩, noteCoolant_log s inlet outlet,
        (holds_of_unlogged (noteCoolant_unlogged s inlet outlet)).1.trans (if_neg normal).symm⟩
  · exact (exec_leakWet s).trans (congrArg _ (if_pos (flag_eq_true wet)))
  · exact (exec_leakWet s).trans (congrArg _ ((if_neg (by simp [flag_eq_false dry])).trans (if_pos (by rw [off]; rfl))))
  · exact ⟨_, (exec_leakWet s).trans (congrArg _ ((if_neg (by simp [flag_eq_false dry])).trans (if_neg (by simp [on])))), leakHeld_values s⟩
  · rw [exec_coreSampleComplete, none_]
  · have run := exec_coreSampleComplete s hbmOk
    rw [some_] at run
    obtain ⟨gone, valid, count⟩ := sampleCounted_counts (s.sampleStored x hbmOk)
    rw [State.Counted, sampleStored_get] at count
    refine ⟨s.sampleDone x hbmOk, run, gone, valid, count, fun _ _ => sampleDone_marked s x hbmOk, fun lost a below => ?_⟩
    subst lost
    exact (sampleCounted_byte _ a).trans ((write_byte_keep _ _ _ _).trans (if_neg (by omega)))

end Sys2Proof.Machine

namespace Sys2Proof.Machine

-- One proof at a time: threads that wait for each other hold memory.
set_option Elab.async false

/-! ## A function's configuration (R429 to R435, R447) -/

/-- What is left of a state beside what a function's configuration sets going: vectors, and the rings' fetches. -/
def State.unconfigured (s : State) : State := { s with out := [], pba := [], srings := [] }

theorem flushVectors_unconfigured (s : State) (c : Nat) : (s.flushVectors c).unconfigured = s.unconfigured := by
  refine foldl_keeps State.unconfigured _ (fun s v => ?_) _ s
  split <;> rfl

theorem emit_unconfigured (s : State) (o : Out) : (s.emit o).unconfigured = s.unconfigured := rfl

theorem askFetch_unconfigured (s : State) (c q : Nat) : (s.askFetch c q).unconfigured = s.unconfigured := by
  unfold State.askFetch
  dsimp only
  split
  · generalize List.range _ = l
    exact (foldl_keeps State.unconfigured _ (fun _ _ => emit_unconfigured _ _) l _).trans rfl
  · rfl

theorem setFn_unconfigured (s : State) (c : Nat) (f : Fn) :
    (s.setFn c f).unconfigured = ({ s with fns := KMap.put (fun _ => Fn.off) s.fns c f } : State).unconfigured :=
  (foldl_keeps State.unconfigured _ (fun s q => askFetch_unconfigured s c q) _ _).trans (flushVectors_unconfigured _ c)

theorem rest_of_unconfigured {s t : State} (same : t.unconfigured = s.unconfigured) : t.fns = s.fns ∧ SameMem s t :=
  ⟨(congrArg State.fns same :), sameMem_of_eq (congrArg State.mem same :) (congrArg State.bad same :) (congrArg State.plist same :)
    (congrArg State.linkErr same :)⟩

theorem setFn_fn (s : State) (c d : Nat) (f : Fn) : (s.setFn c f).fn d = if d = c then f else s.fn d := by
  rw [State.fn, (rest_of_unconfigured (setFn_unconfigured s c f)).1]
  exact KMap.find_put _ _ _ _ _

theorem setFn_sameMem (s : State) (c : Nat) (f : Fn) : SameMem s (s.setFn c f) :=
  (sameMem_of_eq rfl rfl rfl rfl : SameMem s { s with fns := KMap.put (fun _ => Fn.off) s.fns c f }).trans
    (rest_of_unconfigured (setFn_unconfigured s c f)).2

theorem exec_pcieConfigRequest {s : State} {c : Fin 64} (up : s.portUp = true) (exists_ : s.funcExists c.val = true) (r : CfgReq) :
    exec (.pcieConfigRequest c r) s = .next (match r with
      | .read off => s.emit (.pcie 3 [c.val, off.toNat / 4 * 4, s.cfgWord c.val (off.toNat / 4 * 4)])
      | .item i => if CfgItem.pfOnly i = true ∧ c.val ≠ 0 then s.emit (.pcie 3 [c.val, 0]) else s.emit (.pcie 3 [c.val, s.cfgItem i])
      | .busMaster on => s.setFn c.val { s.fn c.val with master := on }
      | .msix en mask => s.setFn c.val { s.fn c.val with msix := en, fmask := mask }
      | .power d => s.setFn c.val { s.fn c.val with d3 := d }
      | .resize vf n => if c.val = 0 then s.resizeBar vf n.toNat else s
      | .bar0Read off size =>
        if !s.answers c.val then s.emit (.pcie 2 [c.val])
        else (s.bar0Read c.val off.toNat size.toNat).1.emit
          (.pcie 0 (c.val :: (leBytes size.toNat (s.bar0Read c.val off.toNat size.toNat).2).map BitVec.toNat))) := by
  refine congrArg Host.Outcome.next ((if_neg (by simp [up])).trans ((if_neg (by simp [exists_])).trans ?_))
  cases r <;> rfl

/-- A write of a word's upper bits shows in them alone. -/
theorem setBits_high {w lo v n : Nat} (word : w < 2 ^ (lo + n)) (small : v < 2 ^ n) : setBits w lo n v / 2 ^ lo = v := by
  have low := Nat.div_add_mod w (2 ^ lo)
  have quotient : w / 2 ^ lo < 2 ^ n := (Nat.div_lt_iff_lt_mul (Nat.two_pow_pos lo)).mpr (by rw [← Nat.pow_add, Nat.add_comm n lo]; exact word)
  rw [setBits, bits, Nat.mod_eq_of_lt quotient, Nat.mod_eq_of_lt small]
  have rest : w - w / 2 ^ lo * 2 ^ lo = w % 2 ^ lo := by
    rw [Nat.mul_comm (w / 2 ^ lo)]
    omega
  rw [rest, Nat.add_mul_div_right _ _ (Nat.two_pow_pos lo), Nat.div_eq_of_lt (Nat.mod_lt _ (Nat.two_pow_pos lo)), Nat.zero_add]

theorem cfgWord_id (s : State) (c : Nat) : s.cfgWord c 0 / 2 ^ 16 = if c = 0 then 0xC540 else 0xC541 := by
  have word : (Config.cfgReg c 0).toNat < 2 ^ (16 + 16) := (Config.cfgReg c 0).isLt
  exact setBits_high (n := 16) word (by split <;> decide)

theorem cfgWord_class (s : State) (c : Nat) : s.cfgWord c 8 / 2 ^ 8 = 0x12_0000 := by
  have word : (Config.cfgReg c 8).toNat < 2 ^ (8 + 24) := (Config.cfgReg c 8).isLt
  exact setBits_high (n := 24) word (by decide)

theorem resizeBar_rest (s : State) (vf : Bool) (n : Nat) : { s.resizeBar vf n with b4size := s.b4size } = s ∧
    (s.resizeBar vf n).barSize (!vf) = s.barSize (!vf) ∧
    (s.resizeBar vf n).barSize vf = if 30 ≤ n ∧ n ≤ barMost vf then n else s.barSize vf := by
  unfold State.resizeBar
  split
  · next fits => cases vf <;> exact ⟨rfl, rfl, rfl⟩
  · exact ⟨rfl, rfl, rfl⟩

theorem leBytes_zero (n : Nat) : (leBytes n 0).map BitVec.toNat = List.replicate n 0 := by
  induction n with
  | zero => rfl
  | succ n ih =>
    rw [leBytes, List.map_cons, List.replicate_succ]
    exact congrArg (0 :: ·) ih

/-- True when the offset is in the block that is open before DEVICE_READY. -/
def identBlock (c off : Nat) : Bool := if c = 0 then decide (off < 0x1000) else decide (0x1000 ≤ off ∧ off < 0x2000)

theorem bar0Read_eq (s : State) (c off size : Nat) : s.bar0Read c off size =
    if (!s.flag R.HOST_STAT.ready && !identBlock c off) = true then (s, 0)
    else if accessOk off size = false then (s.cfgRange (if c = 0 then none else some c) off, 0)
    else if c = 0 then s.bar0Get off size
    else if off < 0x1000 then s.bar0Get (0x0010_0000 + 0x1000 * c + off) size
    else if off < 0x2000 then s.bar0Get (off - 0x1000) size
    else if off < 0x2200 then (s, s.msixAt c (off - 0x2000) + (if size = 8 then 2 ^ 32 * s.msixAt c (off + 4 - 0x2000) else 0))
    else (s, (if off = 0x3000 then s.pbaAt c else 0) + (if size = 8 then 2 ^ 32 * (if off + 4 = 0x3000 then s.pbaAt c else 0) else 0)) := rfl

theorem identBlock_iff (c off : Nat) : identBlock c off = true ↔ if c = 0 then off < 0x1000 else 0x1000 ≤ off ∧ off < 0x2000 := by
  unfold identBlock
  split <;> exact decide_eq_true_iff

theorem answers_iff {s : State} {c : Nat} (exists_ : s.funcExists c = true) : s.answers c = !(s.fn c).d3 := by rw [State.answers, exists_, Bool.true_and]

/-! ## Virtual functions (R431, R437) -/

/-- A fold that writes one field of each index where a condition on that field holds. -/
theorem foldl_field {n : Nat} (f : State → Nat → State) (g : Nat → Fld) (v : Nat → Nat → Nat)
    (own : ∀ s c, c < n → (f s c).get (g c) = v c (s.get (g c))) (keeps : ∀ s c d, d < n → d ≠ c → (f s c).get (g d) = s.get (g d))
    {c : Nat} (lt : c < n) (s : State) : ((List.range n).foldl f s).get (g c) = v c (s.get (g c)) := by
  obtain ⟨u, start, last⟩ := foldl_range_at (fun s => s.get (g c)) f lt (fun s j other => keeps s j c lt (Ne.symm other)) s
  exact last.trans ((own u c lt).trans (congrArg (v c) start))

theorem ctxState_apart {c d : Nat} (other : d ≠ c) : (R.CTX_STATE.state d).a ≠ (R.CTX_STATE.state c).a := by
  simp only [R.CTX_STATE.state]
  omega

/-- The contexts of the VFs that come into existence. -/
def State.vfsUp (s : State) (num : Nat) : State :=
  (List.range 64).foldl (fun s c =>
    if 0 < c ∧ c ≤ num ∧ s.get (R.CTX_STATE.state c) = 0 then s.put (R.CTX_STATE.state c) 1 else s) { s with vfOn := true, vfs := num }

/-- What is left of a state beside its registers. -/
def State.unregistered (s : State) : State := { s with regs := [] }

theorem vfsUp_unregistered (s : State) (num : Nat) : (s.vfsUp num).unregistered = ({ s with vfOn := true, vfs := num } : State).unregistered := by
  refine foldl_keeps State.unregistered _ (fun s c => ?_) _ _
  split <;> rfl

theorem rest_of_unregistered {s t : State} (same : t.unregistered = s.unregistered) : t.vfOn = s.vfOn ∧ t.vfs = s.vfs ∧ SameMem s t :=
  ⟨(congrArg State.vfOn same :), (congrArg State.vfs same :),
    sameMem_of_eq (congrArg State.mem same :) (congrArg State.bad same :) (congrArg State.plist same :) (congrArg State.linkErr same :)⟩

theorem vfsUp_state (s : State) (num : Nat) {c : Nat} (lt : c < 64) : (s.vfsUp num).get (R.CTX_STATE.state c) =
    if 0 < c ∧ c ≤ num ∧ s.get (R.CTX_STATE.state c) = 0 then 1 else s.get (R.CTX_STATE.state c) := by
  refine (foldl_field (fun (s : State) c =>
    if 0 < c ∧ c ≤ num ∧ s.get (R.CTX_STATE.state c) = 0 then s.put (R.CTX_STATE.state c) 1 else s) R.CTX_STATE.state
    (fun c old => if 0 < c ∧ c ≤ num ∧ old = 0 then 1 else old) (fun s c _ => ?_) (fun s c d _ other => ?_) lt _).trans ?_
  · split
    · exact State.get_put_same _ _ _
    · rfl
  · split
    · exact State.get_put_other _ _ _ _ (ctxState_apart other)
    · rfl
  · exact congrArg (fun old => if 0 < c ∧ c ≤ num ∧ old = 0 then 1 else old) (get_congr rfl _)

/-! ### The start of a teardown (R439, R440) -/

/-- What is left of a state beside what halting sequencers changes. -/
def State.unhalted (s : State) : State := { s with regs := [], seqs := [], pinEnd := [] }

theorem setSeqState_unhalted (s : State) (k v : Nat) : (s.setSeqState k v).unhalted = s.unhalted :=
  (congrArg State.unhalted (setSeqState_rest s k v) :)

theorem modSeq_unhalted (s : State) (k : Nat) (f : Seq → Seq) : (s.modSeq k f).unhalted = s.unhalted := rfl

theorem put_unhalted (s : State) (f : Fld) (v : Nat) : (s.put f v).unhalted = s.unhalted := rfl

theorem withPinEnd_unhalted (s : State) (m : KMap Nat) : ({ s with pinEnd := m } : State).unhalted = s.unhalted := rfl

theorem stopIssue_unhalted (s : State) (k : Nat) : (s.stopIssue k).unhalted = s.unhalted :=
  (withPinEnd_unhalted ..).trans ((put_unhalted ..).trans ((put_unhalted ..).trans (modSeq_unhalted s k _)))

theorem haltSeqs_unhalted (s : State) (c : Nat) : (s.haltSeqs c).unhalted = s.unhalted := by
  refine foldl_keeps State.unhalted _ (fun s k => ?_) _ s
  split
  · exact (setSeqState_unhalted ..).trans (stopIssue_unhalted s k)
  · rfl

/-- A field outside those of the compute dies, the flumes and the version tables that is not a context's fault bits. -/
structure AbovePlace (g : Fld) : Prop where
  outside : g.a < 8 * 0x2000000 ∨ 8 * 0x3c00000 ≤ g.a
  fault : ∀ c j, j < 2 → g.a ≠ (R.CTX_FAULT.faulted c j).a

theorem stopIssue_get (s : State) {k : Nat} (key : k < 96) {g : Fld} (outside : g.a < 8 * 0x2000000 ∨ 8 * 0x3c00000 ≤ g.a) :
    (s.stopIssue k).get g = s.get g := by
  have wait : g.a ≠ (R.SEQ_STAT.wait (k / 4) (k % 4)).a := by simp only [R.SEQ_STAT.wait]; omega
  have hold : g.a ≠ (R.VER_HDR.gate_hold k).a := by simp only [R.VER_HDR.gate_hold]; omega
  have puts (u : State) : ((u.put (R.SEQ_STAT.wait (k / 4) (k % 4)) 0).put (R.VER_HDR.gate_hold k) 0).get g = u.get g :=
    (State.get_put_other _ _ _ _ hold).trans (State.get_put_other _ _ _ _ wait)
  exact (get_congr rfl g).trans ((puts _).trans (get_congr rfl g))

theorem haltSeqs_get (s : State) (c : Nat) {g : Fld} (place : AbovePlace g) : (s.haltSeqs c).get g = s.get g := by
  unfold State.haltSeqs
  have halted : ∀ l : List Nat, (∀ k ∈ l, k < 96) → ∀ s : State, (l.foldl (fun s k =>
      if s.seqBound k ∧ s.seqCtx k = c ∧ s.seqState k = seqRUNNING then (s.stopIssue k).setSeqState k seqHALTED else s) s).get g = s.get g := by
    intro l
    induction l with
    | nil => exact fun _ _ => rfl
    | cons k l ih =>
      intro small s
      have lt := small k List.mem_cons_self
      rw [List.foldl_cons, ih fun d mem => small d (List.mem_cons_of_mem k mem)]
      split
      · rw [setSeqState_get_other _ (by have outside := place.outside; simp only [R.SEQ_STAT.state]; omega) (fun c _ => place.fault c (k / 64) (by omega)),
          stopIssue_get s lt place.outside]
      · rfl
  exact halted _ (fun k mem => List.mem_range.mp mem) s

/-- What is left of a state beside what the start of a teardown changes. -/
def State.unbegun (s : State) : State := { s.unhalted with srings := [], fetched := [] }

theorem unbegun_of_unhalted {s t : State} (same : t.unhalted = s.unhalted) : t.unbegun = s.unbegun := (congrArg State.unbegun same :)

theorem beginTeardown_unbegun (s : State) (c : Nat) : (s.beginTeardown c).unbegun = s.unbegun := by
  unfold State.beginTeardown
  split
  · rw [unbegun_of_unhalted (haltSeqs_unhalted _ c)]
    rfl
  · rfl

theorem ctxState_place {c : Nat} (lt : c < 64) : AbovePlace (R.CTX_STATE.state c) := by
  refine ⟨.inl (by simp only [R.CTX_STATE.state]; omega), fun d j small => ?_⟩
  simp only [R.CTX_STATE.state, R.CTX_FAULT.faulted]
  omega

theorem beginTeardown_get (s : State) (c : Nat) {g : Fld} (place : AbovePlace g) (apart : g.a ≠ (R.CTX_STATE.state c).a) :
    (s.beginTeardown c).get g = s.get g := by
  unfold State.beginTeardown
  split
  · exact (haltSeqs_get _ c place).trans ((get_congr rfl g).trans (State.get_put_other _ _ _ _ apart))
  · rfl

theorem beginTeardown_state (s : State) {c : Nat} (lt : c < 64) : (s.beginTeardown c).get (R.CTX_STATE.state c) =
    if s.get (R.CTX_STATE.state c) = 1 then 2 else s.get (R.CTX_STATE.state c) := by
  unfold State.beginTeardown
  split
  · exact (haltSeqs_get _ c (ctxState_place lt)).trans ((get_congr rfl _).trans (State.get_put_same _ _ _))
  · rfl

theorem rest_of_unbegun {s t : State} (same : t.unbegun = s.unbegun) : t.vfOn = s.vfOn ∧ t.vfs = s.vfs ∧ SameMem s t :=
  ⟨(congrArg State.vfOn same :), (congrArg State.vfs same :),
    sameMem_of_eq (congrArg State.mem same :) (congrArg State.bad same :) (congrArg State.plist same :) (congrArg State.linkErr same :)⟩

/-- The VFs gone, and every context in its teardown. -/
def State.vfsDown (s : State) : State := (List.range 64).foldl State.beginTeardown s.dropVfs

theorem vfsDown_unbegun (s : State) : s.vfsDown.unbegun = s.dropVfs.unbegun := foldl_keeps State.unbegun _ beginTeardown_unbegun _ _

theorem vfsDown_state (s : State) {c : Nat} (lt : c < 64) : s.vfsDown.get (R.CTX_STATE.state c) =
    if s.get (R.CTX_STATE.state c) = 1 then 2 else s.get (R.CTX_STATE.state c) :=
  (foldl_field State.beginTeardown R.CTX_STATE.state (fun _ old => if old = 1 then 2 else old) (fun s _ lt => beginTeardown_state s lt)
    (fun s c _ lt other => beginTeardown_get s c (ctxState_place lt) (ctxState_apart other)) lt _).trans
    (congrArg (fun old => if old = 1 then 2 else old) (get_congr rfl _))

theorem exec_vfEnable {s : State} (up : s.portUp = true) (on : Bool) (num : Fin 64) : exec (.vfEnable on num) s = .next (
    if on = true then if s.vfOn = false then s.vfsUp num.val else s else if s.vfOn = false then s else s.vfsDown) :=
  congrArg Host.Outcome.next (if_neg (by simp [up]))

/-! ## BAR4 (R436) -/

theorem bar4Addr_eq (s : State) (c off : Nat) : s.bar4Addr c off = s.get (R.CTX_B4BASE.base c) * 4096 + off := rfl

theorem crossing_unrouted (s : State) (a n : Nat) : (s.crossing a n).unrouted = s.unrouted :=
  foldl_keeps State.unrouted _ (fun _ _ => (ackPkt_unrouted ..).trans (sendPkt_unrouted ..)) _ s

theorem noteBad_mem (s : State) (ctx : Option Nat) (u : Nat) : (s.noteBad ctx u).mem = s.mem := by
  have raised (t : State) (code : Nat) (w : Where) (x : Nat) : (t.raise code ctx w x).mem = t.mem := (congrArg State.mem (raise_unlogged t code ctx w x) :)
  unfold State.noteBad
  split
  · exact (raised _ _ _ _).trans rfl
  · exact (raised _ _ _ _).trans rfl
  · refine (raised _ _ _ _).trans ?_
    split
    · rfl
    · split <;> rfl
  · exact (congrArg State.mem (logAs_unlogged ..) :)
  · rfl

theorem noteUse_mem (s : State) (ctx : Option Nat) (a n : Nat) : (s.noteUse ctx a n).mem = s.mem :=
  (foldl_keeps State.mem _ (fun s u => noteBad_mem s ctx u) _ _).trans (congrArg State.mem (fixSoft_unfixed s a n) :)

theorem noteUse_of_readBad {s : State} {ctx : Option Nat} {a n : Nat} (none_ : s.readBad a n = []) : s.noteUse ctx a n = s.fixSoft a n := by
  rw [State.noteUse, none_, List.foldl_nil]

theorem permLog_unlogged (s : State) (ld c a n kind : Nat) (wr : Bool) : (s.permLog ld c a n kind wr).unlogged = s.unlogged := by
  simp [State.permLog]

theorem permLog_code (s : State) (ld c a n kind : Nat) (wr : Bool) : (s.permLog ld c a n kind wr).log.head?.map LogEntry.code = some E.SEC_PERM :=
  log_code_of_raise

theorem sameMem_emit {s t : State} (same : SameMem s t) (o : Out) : SameMem s (t.emit o) := same.trans (sameMem_of_eq rfl rfl rfl rfl)

section
variable {s : State} {c : Fin 64} {off : BitVec 48} (up : s.portUp = true)
include up

/-- A read of BAR4 while the port is up. -/
theorem exec_bar4Read (n : BitVec 12) : exec (.bar4Read c off n) s = .next (
    if (!s.inBar4 c.val off.toNat n.toNat) = true then s.bar4Ur c.val
    else if (!s.flag R.HOST_STAT.ready) = true then s.emit (.pcie 0 (c.val :: List.replicate n.toNat 0xFF))
    else if 2 ≤ s.get R.PWR_STAT.rung then
      (s.raise E.PWR_ASLEEP (some c.val) (atSteward 0) (s.bar4Addr c.val off.toNat)).emit (.pcie 0 (c.val :: List.replicate n.toNat 0xFF))
    else if s.flag R.RAS_STAT.fatal = true ∧ ¬(c.val = 0 ∧ inSample (s.bar4Addr c.val off.toNat) n.toNat = true) then s.bar4Ur c.val
    else if s.get (R.CTX_STATE.state c.val) ≠ 1 ∨ 2 ^ 48 < s.bar4Addr c.val off.toNat + n.toNat ∨
        (!((decide (c.val = 0) && inSample (s.bar4Addr c.val off.toNat) n.toNat) || s.permits c.val (s.bar4Addr c.val off.toNat) n.toNat false)) = true then
      (s.permLog (s.entryLd (s.bar4Addr c.val off.toNat)) c.val (s.bar4Addr c.val off.toNat) n.toNat 4 false).bar4Ur c.val
    else match s.rangeDown (s.bar4Addr c.val off.toNat) n.toNat with
      | some (e, x) => (s.raise e (some c.val) (s.downAt e x) (s.bar4Addr c.val off.toNat)).bar4Ur c.val
      | none =>
        ((s.noteUse (some c.val) (s.bar4Addr c.val off.toNat) n.toNat).crossing (s.bar4Addr c.val off.toNat) n.toNat).emit
          (if (s.readBad (s.bar4Addr c.val off.toNat) n.toNat).isEmpty then
              .pcie 0 (c.val :: (s.bytes (s.bar4Addr c.val off.toNat) n.toNat).map BitVec.toNat)
            else .pcie 1 (c.val :: List.replicate n.toNat 0xFF))) :=
  congrArg Host.Outcome.next (if_neg (by simp [up]))

/-- A read that reaches its permission check. -/
theorem exec_bar4Read_awake {n : BitVec 12} (inside : s.inBar4 c.val off.toNat n.toNat = true) (ready : s.get R.HOST_STAT.ready = 1)
    (awake : s.get R.PWR_STAT.rung < 2)
    (open_ : s.get R.RAS_STAT.fatal = 0 ∨ (decide (c.val = 0) && inSample (s.bar4Addr c.val off.toNat) n.toNat) = true) :
    exec (.bar4Read c off n) s = .next (
      if s.get (R.CTX_STATE.state c.val) ≠ 1 ∨ 2 ^ 48 < s.bar4Addr c.val off.toNat + n.toNat ∨
          (!((decide (c.val = 0) && inSample (s.bar4Addr c.val off.toNat) n.toNat) || s.permits c.val (s.bar4Addr c.val off.toNat) n.toNat false)) = true then
        (s.permLog (s.entryLd (s.bar4Addr c.val off.toNat)) c.val (s.bar4Addr c.val off.toNat) n.toNat 4 false).bar4Ur c.val
      else match s.rangeDown (s.bar4Addr c.val off.toNat) n.toNat with
        | some (e, x) => (s.raise e (some c.val) (s.downAt e x) (s.bar4Addr c.val off.toNat)).bar4Ur c.val
        | none =>
          ((s.noteUse (some c.val) (s.bar4Addr c.val off.toNat) n.toNat).crossing (s.bar4Addr c.val off.toNat) n.toNat).emit
            (if (s.readBad (s.bar4Addr c.val off.toNat) n.toNat).isEmpty then
                .pcie 0 (c.val :: (s.bytes (s.bar4Addr c.val off.toNat) n.toNat).map BitVec.toNat)
              else .pcie 1 (c.val :: List.replicate n.toNat 0xFF))) := by
  have calm : ¬(s.flag R.RAS_STAT.fatal = true ∧ ¬(c.val = 0 ∧ inSample (s.bar4Addr c.val off.toNat) n.toNat = true)) := by
    rintro ⟨fatal, outside⟩
    rcases open_ with calm | sample
    · exact absurd ((get_of_flag fatal).symm.trans calm) (by decide)
    · obtain ⟨pf, within⟩ := Bool.and_eq_true_iff.mp sample
      exact outside ⟨of_decide_eq_true pf, within⟩
  rw [exec_bar4Read up, if_neg (by simp [inside]), if_neg (by simp [flag_eq_true ready]), if_neg (by omega), if_neg calm]

end

theorem exec_bar4Write (s : State) (c : Fin 64) (off : BitVec 48) (data : List (BitVec 8)) : exec (.bar4Write c off data) s = .next (
    if (!s.portUp) = true ∨ (!s.inBar4 c.val off.toNat data.length) = true ∨ (!s.flag R.HOST_STAT.ready) = true then s
    else if 2 ≤ s.get R.PWR_STAT.rung then s.raise E.PWR_ASLEEP (some c.val) (atSteward 0) (s.bar4Addr c.val off.toNat)
    else if s.flag R.RAS_STAT.fatal = true then s
    else if s.get (R.CTX_STATE.state c.val) ≠ 1 ∨ 2 ^ 48 < s.bar4Addr c.val off.toNat + data.length ∨
        (!s.permits c.val (s.bar4Addr c.val off.toNat) data.length true) = true then
      s.permLog (s.entryLd (s.bar4Addr c.val off.toNat)) c.val (s.bar4Addr c.val off.toNat) data.length 4 true
    else match s.rangeDown (s.bar4Addr c.val off.toNat) data.length with
      | some (e, x) => s.raise e (some c.val) (s.downAt e x) (s.bar4Addr c.val off.toNat)
      | none =>
        ((s.badIn (s.bar4Addr c.val off.toNat) data.length).filter (fun u => !coversUnit (s.bar4Addr c.val off.toNat) data.length u)).foldl
          (fun s u => s.noteBad (some c.val) u)
          ((s.write (s.bar4Addr c.val off.toNat) data).crossing (s.bar4Addr c.val off.toNat) data.length)) := rfl

/-- A write of BAR4 that reaches its permission check. -/
theorem exec_bar4Write_awake {s : State} {c : Fin 64} {off : BitVec 48} {data : List (BitVec 8)} (up : s.portUp = true)
    (inside : s.inBar4 c.val off.toNat data.length = true) (ready : s.get R.HOST_STAT.ready = 1) (awake : s.get R.PWR_STAT.rung < 2)
    (calm : s.get R.RAS_STAT.fatal = 0) : exec (.bar4Write c off data) s = .next (
      if s.get (R.CTX_STATE.state c.val) ≠ 1 ∨ 2 ^ 48 < s.bar4Addr c.val off.toNat + data.length ∨
          (!s.permits c.val (s.bar4Addr c.val off.toNat) data.length true) = true then
        s.permLog (s.entryLd (s.bar4Addr c.val off.toNat)) c.val (s.bar4Addr c.val off.toNat) data.length 4 true
      else match s.rangeDown (s.bar4Addr c.val off.toNat) data.length with
        | some (e, x) => s.raise e (some c.val) (s.downAt e x) (s.bar4Addr c.val off.toNat)
        | none =>
          ((s.badIn (s.bar4Addr c.val off.toNat) data.length).filter (fun u => !coversUnit (s.bar4Addr c.val off.toNat) data.length u)).foldl
            (fun s u => s.noteBad (some c.val) u)
            ((s.write (s.bar4Addr c.val off.toNat) data).crossing (s.bar4Addr c.val off.toNat) data.length)) := by
  rw [exec_bar4Write, if_neg (by simp [up, inside, flag_eq_true ready]), if_neg (by omega), if_neg (by simp [flag_eq_false calm])]

/-- A write to memory without a bad unit that crosses to its home. -/
theorem crossed_write {s : State} {a : Nat} {data : List Byte} (clean : s.badIn a data.length = []) :
    (∀ i, i < data.length → ((s.write a data).crossing a data.length).byte (a + i) = data.getD i 0) ∧
      SameMemBut s ((s.write a data).crossing a data.length) a data.length ∧
      ((s.write a data).crossing a data.length).unrouted.unstored = s.unrouted.unstored := by
  have mem := (sameMem_of_unrouted (crossing_unrouted (s.write a data) a data.length)).1
  have write (some_ : 0 < data.length) := write_byte (sound_of_badIn clean some_)
  refine ⟨fun i lt => ?_, fun x out => ?_, ?_⟩
  · rw [mem, write (by omega), if_pos (by omega), Nat.add_sub_cancel_left, List.getD_eq_getElem _ _ lt, List.getD_eq_getElem _ _ lt]
  · rw [mem, write_byte_keep, if_neg (by omega)]
  · exact (congrArg State.unstored (crossing_unrouted (s.write a data) a data.length)).trans rfl

theorem rest_of_unrouted_unstored {s t : State} (same : t.unrouted.unstored = s.unrouted.unstored) :
    { t with mem := s.mem, bad := s.bad, plist := s.plist, soft := s.soft, linkErr := s.linkErr, pkts := s.pkts, pktNext := s.pktNext,
             spnTx := s.spnTx, out := s.out } = s :=
  (congrArg (fun u : State =>
    { u with mem := s.mem, bad := s.bad, plist := s.plist, soft := s.soft, linkErr := s.linkErr, pkts := s.pkts, pktNext := s.pktNext,
             spnTx := s.spnTx, out := s.out }) same :)

/-- What lets a function's read through: its context runs, and it is in the sample region or in a window. -/
theorem refused_iff {s : State} {c : Nat} {a n : Nat} : (s.get (R.CTX_STATE.state c) ≠ 1 ∨ 2 ^ 48 < a + n ∨
      (!((decide (c = 0) && inSample a n) || s.permits c a n false)) = true) ↔
    ¬(s.get (R.CTX_STATE.state c) = 1 ∧ a + n ≤ 2 ^ 48 ∧ ((decide (c = 0) && inSample a n) = true ∨ s.permits c a n false = true)) := by
  rw [not_and_or, not_and_or, Nat.not_le, Bool.not_eq_true', ← Bool.or_eq_true, Bool.not_eq_true]

theorem writeRefused_iff {s : State} {c : Nat} {a n : Nat} : (s.get (R.CTX_STATE.state c) ≠ 1 ∨ 2 ^ 48 < a + n ∨ (!s.permits c a n true) = true) ↔
    ¬(s.get (R.CTX_STATE.state c) = 1 ∧ a + n ≤ 2 ^ 48 ∧ s.permits c a n true = true) := by
  rw [not_and_or, not_and_or, Nat.not_le, Bool.not_eq_true', Bool.not_eq_true]

theorem crossed_byte (s : State) (ctx : Option Nat) (a n : Nat) (o : Out) (x : Nat) : (((s.noteUse ctx a n).crossing a n).emit o).byte x = s.byte x :=
  ((sameMem_of_unrouted (crossing_unrouted (s.noteUse ctx a n) a n)).1 x).trans (by rw [State.byte, noteUse_mem, State.byte])

/-! ## The obligation -/

/-- Settles O39. -/
theorem hostPort : Obligations.HostPort := by
  refine ⟨fun s c r => ⟨fun down => congrArg Host.Outcome.next (if_pos (by rw [down]; rfl)), fun up gone => ?_, fun up exists_ => ?_⟩,
    fun s on num => ⟨fun down => congrArg Host.Outcome.next (if_pos (by rw [down]; rfl)), fun up off => ?_, fun up on => ?_, fun up off => ?_,
      fun up on => ?_⟩, fun s c off n up => ⟨fun outside => ?_, fun inside => ⟨fun notReady => ?_, fun ready asleep => ?_, fun ready awake =>
      ⟨fun fatal noSample => ?_, fun open_ => ?_⟩⟩⟩, fun s c off data => ⟨fun shut => ?_, fun up inside ready asleep => ?_,
      fun up inside ready awake => ⟨fun fatal => ?_, fun calm may reach clean => ?_, fun calm may e x down => ?_, fun calm refused => ?_⟩⟩⟩
  · exact congrArg Host.Outcome.next ((if_neg (by simp [up])).trans (if_pos (by rw [gone]; rfl)))
  · have run := exec_pcieConfigRequest up exists_
    refine ⟨⟨_, run (.read 0), cfgWord_id s c.val⟩, ⟨_, run (.read 8), cfgWord_class s c.val⟩, ?_, fun x => ?_, fun vf n => ?_, fun off size => ?_⟩
    · rintro on en mask d3 x f (⟨rfl, rfl⟩ | ⟨rfl, rfl⟩ | ⟨rfl, rfl⟩) <;>
        exact ⟨_, run _, (setFn_fn s _ _ _).trans (if_pos rfl), setFn_sameMem s _ _, fun d other => (setFn_fn s _ _ _).trans (if_neg other)⟩
    · rw [run (.item x)]
      dsimp only
      split <;> rfl
    · obtain ⟨rest, other, size⟩ := resizeBar_rest s vf n.toNat
      have run := run (.resize vf n)
      by_cases pf : c.val = 0
      · exact ⟨_, run.trans (congrArg _ (if_pos pf)), rest, other, size.trans (by rw [barMost]; simp [pf])⟩
      · exact ⟨_, run.trans (congrArg _ (if_neg pf)), rfl, rfl, (if_neg (fun both => pf both.1)).symm⟩
    · have run := run (.bar0Read off size)
      have ident := identBlock_iff c.val off.toNat
      refine ⟨fun asleep => run.trans (congrArg _ (if_pos ?_)), fun awake notReady outside => ?_, fun awake open_ bad => ?_,
        fun pf awake ready ok reach => ?_⟩
      · rw [answers_iff exists_, asleep]
        rfl
      all_goals
        have answers : ¬(!s.answers c.val) = true := by rw [answers_iff exists_, awake]; exact Bool.false_ne_true
        have run := run.trans (congrArg Host.Outcome.next (if_neg answers))
        rw [bar0Read_eq] at run
      · rw [flag_eq_false notReady, Bool.eq_false_iff.mpr (mt ident.mp outside), if_pos (by rfl)] at run
        rw [run]
        exact congrArg (fun l => Host.Outcome.next (s.emit (.pcie 0 (c.val :: l)))) (leBytes_zero _)
      · have passes : ¬(!s.flag R.HOST_STAT.ready && !identBlock c.val off.toNat) = true := by
          rcases open_ with ready | inside
          · simp [flag_eq_true ready]
          · simp [ident.mpr inside]
        rw [if_neg passes, if_pos bad, leBytes_zero] at run
        exact ⟨_, run, sameMem_emit (sameMem_of_unlogged (cfgRange_unlogged ..)) _, rfl, log_code_of_raise⟩
      · rw [if_neg (by simp [flag_eq_true ready]), if_neg (by simp [ok]), if_pos pf, State.bar0Get, reach, pf] at run
        exact run
  · obtain ⟨on, vfs, mem⟩ := rest_of_unregistered (vfsUp_unregistered s num.val)
    exact ⟨_, (exec_vfEnable up true num).trans (congrArg _ ((if_pos rfl).trans (if_pos off))), on, vfs,
      (sameMem_of_eq rfl rfl rfl rfl : SameMem s _).trans mem, fun c lt => vfsUp_state s num.val lt⟩
  · exact (exec_vfEnable up true num).trans (congrArg _ ((if_pos rfl).trans (if_neg (by simp [on]))))
  · exact (exec_vfEnable up false num).trans (congrArg _ ((if_neg Bool.false_ne_true).trans (if_pos off)))
  · obtain ⟨off, vfs, mem⟩ := rest_of_unbegun (vfsDown_unbegun s)
    exact ⟨_, (exec_vfEnable up false num).trans (congrArg _ ((if_neg Bool.false_ne_true).trans (if_neg (by simp [on])))), off, vfs,
      (sameMem_of_eq rfl rfl rfl rfl : SameMem s s.dropVfs).trans mem, fun c lt => vfsDown_state s lt⟩
  · exact (exec_bar4Read up n).trans (congrArg _ (if_pos (by rw [outside]; rfl)))
  · exact (exec_bar4Read up n).trans (congrArg _ ((if_neg (by simp [inside])).trans (if_pos (by rw [flag_eq_false notReady]; rfl))))
  · exact ⟨_, (exec_bar4Read up n).trans (congrArg _ ((if_neg (by simp [inside])).trans ((if_neg (by simp [flag_eq_true ready])).trans (if_pos asleep)))),
      sameMem_emit (sameMem_of_unlogged (raise_unlogged ..)) _, rfl, log_code_of_raise⟩
  · refine (exec_bar4Read up n).trans (congrArg _ ((if_neg (by simp [inside])).trans ((if_neg (by simp [flag_eq_true ready])).trans
      ((if_neg (by omega)).trans (if_pos ⟨flag_eq_true fatal, fun both => ?_⟩)))))
    exact absurd (noSample.symm.trans (Bool.and_eq_true_iff.mpr ⟨decide_eq_true both.1, both.2⟩)) (by decide)
  · have run := exec_bar4Read_awake up inside ready awake open_
    rw [bar4Addr_eq] at run
    refine ⟨fun may reach clean => ?_, fun may reach dirty => ?_, fun may e x down => ?_, fun refused => ?_⟩
    · rw [if_neg (refused_iff.not.mpr (not_not.mpr may)), reach, noteUse_of_readBad clean, clean] at run
      exact run
    · rw [if_neg (refused_iff.not.mpr (not_not.mpr may)), reach] at run
      refine ⟨_, run, fun x => ?_, ?_⟩
      · exact crossed_byte s _ _ _ _ x
      · rw [if_neg (by simpa using dirty)]
        rfl
    · rw [if_neg (refused_iff.not.mpr (not_not.mpr may)), down] at run
      exact ⟨_, run, sameMem_emit (sameMem_of_unlogged (raise_unlogged ..)) _, rfl, log_code_of_raise⟩
    · rw [if_pos (refused_iff.mpr refused)] at run
      exact ⟨_, run, sameMem_emit (sameMem_of_unlogged (permLog_unlogged ..)) _, rfl, permLog_code ..⟩
  · refine (exec_bar4Write s c off data).trans (congrArg _ (if_pos ?_))
    rcases shut with down | outside | notReady
    · exact .inl (by rw [down]; rfl)
    · exact .inr (.inl (by rw [outside]; rfl))
    · exact .inr (.inr (by rw [flag_eq_false notReady]; rfl))
  · exact ⟨_, (exec_bar4Write s c off data).trans (congrArg _ ((if_neg (by simp [up, inside, flag_eq_true ready])).trans (if_pos asleep))),
      sameMem_of_unlogged (raise_unlogged ..), log_code_of_raise⟩
  · exact (exec_bar4Write s c off data).trans (congrArg _ ((if_neg (by simp [up, inside, flag_eq_true ready])).trans ((if_neg (by omega)).trans
      (if_pos (flag_eq_true fatal)))))
  · have run := exec_bar4Write_awake up inside ready awake calm
    rw [bar4Addr_eq] at run
    rw [if_neg (writeRefused_iff.not.mpr (not_not.mpr may)), reach] at run
    dsimp only at run
    rw [clean] at run
    obtain ⟨bytes, other, rest⟩ := crossed_write clean
    exact ⟨_, run, bytes, other, rest_of_unrouted_unstored rest⟩
  · have run := exec_bar4Write_awake up inside ready awake calm
    rw [bar4Addr_eq] at run
    rw [if_neg (writeRefused_iff.not.mpr (not_not.mpr may)), down] at run
    exact ⟨_, run, sameMem_of_unlogged (raise_unlogged ..), log_code_of_raise⟩
  · have run := exec_bar4Write_awake up inside ready awake calm
    rw [bar4Addr_eq] at run
    rw [if_pos (writeRefused_iff.mpr refused)] at run
    exact ⟨_, run, sameMem_of_unlogged (permLog_unlogged ..), permLog_code ..⟩

end Sys2Proof.Machine

namespace Sys2Proof.Machine

-- One proof at a time: threads that wait for each other hold memory.
set_option Elab.async false

/-! ## Patrol (R384 to R387) -/

/-- The stack or flume store that patrol's counters name for a word, none where nothing is patrolled. -/
def State.patrolUnit (s : State) (x : Nat) : Option Nat :=
  match regionOf x with
  | .hbm _ => if s.backed x then some (s.place x).2.1 else none
  | .flume h => some (6 * h)
  | _ => none

/-- What patrol does about what it has found at a word. -/
def State.patrolled (s : State) (x err : Nat) : State :=
  if err = 3 then s.logAs E.CFG_STATE_ECC 0 none (atLd (s.homeLd x)) x
  else if err = 4 then s.fatal E.CFG_STATE_ECC (atLd (s.homeLd x)) x
  else if err = 2 ∨ s.isBad x = true then (s.markBad x).noteBad none x
  else if err = 1 ∨ s.soft.contains x = true then s.fixWord x else s

/-- A pass over a stack counted at its last word. -/
def State.passCounted (s : State) (i : Nat) (last : Bool) : State := if last = true then s.count (R.HBM_ECC.passes i) 1 else s

theorem fin5_eq (err : Fin 5) (k : Nat) (small : k < 5) : err = ⟨k, small⟩ ↔ err.val = k := Fin.ext_iff

theorem exec_memPatrolRead (s : State) (a : BitVec 48) (err : Fin 5) (last : Bool) : exec (.memPatrolRead a err last) s = .next (
    match s.patrolUnit (a.toNat / 8 * 8) with
    | none => s
    | some i =>
      if s.get R.MEM_SCRUB_HBM.seconds = 0 ∨ s.patrolPaused = true ∨ s.halfInReset (s.homeLd (a.toNat / 8 * 8) / 2) = true then s
      else (s.patrolled (a.toNat / 8 * 8) err.val).passCounted i last) := by
  unfold State.patrolled State.passCounted
  simp only [← fin5_eq err _ (show 3 < 5 by decide), ← fin5_eq err _ (show 4 < 5 by decide), ← fin5_eq err _ (show 2 < 5 by decide),
    ← fin5_eq err _ (show 1 < 5 by decide)]
  rfl

theorem passCounted_get_other (s : State) (i : Nat) (last : Bool) {g : Fld} (apart : g.a ≠ (R.HBM_ECC.passes i).a) :
    (s.passCounted i last).get g = s.get g := by
  unfold State.passCounted
  split
  · exact State.get_count_other _ _ _ _ apart
  · rfl

theorem passCounted_passes (s : State) (i : Nat) (last : Bool) : (s.passCounted i last).get (R.HBM_ECC.passes i) =
    if last = true then min (s.get (R.HBM_ECC.passes i) + 1) (2 ^ (R.HBM_ECC.passes i).w - 1) else s.get (R.HBM_ECC.passes i) := by
  unfold State.passCounted
  split
  · exact State.get_count_same _ _ _
  · rfl

theorem passCounted_unlogged (s : State) (i : Nat) (last : Bool) : (s.passCounted i last).unlogged = s.unlogged := by
  unfold State.passCounted
  split <;> rfl

theorem passCounted_log (s : State) (i : Nat) (last : Bool) : (s.passCounted i last).log = s.log := by
  unfold State.passCounted
  split <;> rfl

/-- An error without an alert leaves every field but the log's own. -/
theorem logAs_keeps (s : State) {code cls : Nat} {ctx : Option Nat} {w : Where} {detail : Nat} {g : Fld} (quiet : alertOf code = none)
    (apart : g.a ≠ R.RAS_LOGHD.newest.a ∧ g.a ≠ R.RAS_LOGHD.lost.a ∧ g.a ≠ R.RAS_STAT.new.a) :
    (s.logAs code cls ctx w detail).get g = s.get g := by
  obtain ⟨newest, lost, new⟩ := apart
  have noted : (s.noted code cls ctx w detail).get g = s.get g := by
    have full : (if 4096 ≤ s.log.length then s.count R.RAS_LOGHD.lost 1 else s).get g = s.get g := by
      split
      · exact State.get_count_other _ _ _ _ lost
      · rfl
    unfold State.noted
    rw [quiet, State.get_put_other _ _ _ _ new, State.get_put_other _ _ _ _ newest]
    exact full
  rcases logAs_cases s code cls ctx w detail with same | ⟨v, same⟩
  · exact (congrArg (State.get · g) same).trans noted
  · exact (congrArg (State.get · g) same).trans ((vector_get _ _ _ g).trans noted)

/-- The counters of a stack stand in the first half of their 16 bytes, before the fields of the error log. -/
theorem counters_apart {g : Fld} (word : g.a % 128 < 61) : g.a ≠ R.RAS_LOGHD.newest.a ∧ g.a ≠ R.RAS_LOGHD.lost.a ∧ g.a ≠ R.RAS_STAT.new.a := by
  simp only [R.RAS_LOGHD.newest, R.RAS_LOGHD.lost, R.RAS_STAT.new]
  omega

theorem patrolUnit_cases {s : State} {x i : Nat} (unit : s.patrolUnit x = some i) :
    (∃ h, regionOf x = .hbm h ∧ i = (s.place x).2.1) ∨ ∃ h, regionOf x = .flume h ∧ i = 6 * h := by
  unfold State.patrolUnit at unit
  split at unit
  · next h region =>
    split at unit
    · exact .inl ⟨h, region, (Option.some.inj unit).symm⟩
    · cases unit
  · next h region => exact .inr ⟨h, region, (Option.some.inj unit).symm⟩
  · cases unit

/-- The bad word is listed in `bad`, its single-bit error forgotten. -/
theorem markBad_of_unit {s : State} {x i : Nat} (unit : s.patrolUnit x = some i) : s.markBad x =
    if s.bad.contains (x / 8 * 8) = true then s
    else { s with bad := (x / 8 * 8 :: s.bad).mergeSort (· ≤ ·), soft := s.soft.filter (· ≠ x / 8 * 8) } := by
  unfold State.markBad
  rcases patrolUnit_cases unit with ⟨h, region, -⟩ | ⟨h, region, -⟩ <;> rw [region]

theorem isBad_of_unit {s t : State} {x i : Nat} (unit : s.patrolUnit x = some i) : t.isBad x = t.bad.contains (x / 8 * 8) := by
  unfold State.isBad
  rcases patrolUnit_cases unit with ⟨h, region, -⟩ | ⟨h, region, -⟩ <;> rw [region]

theorem markBad_place {s : State} {x i : Nat} (unit : s.patrolUnit x = some i) : (s.markBad x).place x = s.place x := by
  rw [markBad_of_unit unit]
  split <;> rfl

/-- An uncorrectable error is counted and logged for the word's stack. -/
theorem noteBad_of_unit {s : State} {x i : Nat} (unit : s.patrolUnit x = some i) : ∃ w, (s.markBad x).noteBad none x =
    (((s.markBad x).count (R.HBM_ECC.uncorr i) 1).put (R.HBM_ECC.last i) x).raise E.SEQ_HBM_ECC none w x := by
  unfold State.noteBad
  rcases patrolUnit_cases unit with ⟨h, region, rfl⟩ | ⟨h, region, rfl⟩ <;> rw [region]
  · rw [← markBad_place unit]
    exact ⟨_, rfl⟩
  · exact ⟨_, rfl⟩

theorem fixWord_of_unit {s : State} {x i : Nat} (unit : s.patrolUnit x = some i) :
    s.fixWord x = ({ s with soft := s.soft.filter (· ≠ x) } : State).count (R.HBM_ECC.corr i) 1 := by
  unfold State.fixWord State.corrFld
  rcases patrolUnit_cases unit with ⟨h, region, rfl⟩ | ⟨h, region, rfl⟩ <;> rw [region] <;> rfl

/-- What the counters of stack `i` keep apart: four fields of their own. -/
theorem hbmEcc_apart (i j : Nat) : (R.HBM_ECC.passes i).a ≠ (R.HBM_ECC.uncorr j).a ∧ (R.HBM_ECC.passes i).a ≠ (R.HBM_ECC.corr j).a ∧
    (R.HBM_ECC.passes i).a ≠ (R.HBM_ECC.last j).a ∧ (R.HBM_ECC.uncorr i).a ≠ (R.HBM_ECC.last j).a := by
  simp only [R.HBM_ECC.passes, R.HBM_ECC.uncorr, R.HBM_ECC.corr, R.HBM_ECC.last]
  omega

theorem hbmEcc_words (i : Nat) : (R.HBM_ECC.passes i).a % 128 < 61 ∧ (R.HBM_ECC.uncorr i).a % 128 < 61 := by
  simp only [R.HBM_ECC.passes, R.HBM_ECC.uncorr]
  omega

section
variable {s : State} {x i : Nat} (unit : s.patrolUnit x = some i) (last : Bool)
include unit

theorem patrolled_bad_get {g : Fld} (word : g.a % 128 < 61) (apart : g.a ≠ (R.HBM_ECC.last i).a) :
    ((s.markBad x).noteBad none x).get g = (s.count (R.HBM_ECC.uncorr i) 1).get g := by
  obtain ⟨w, eq⟩ := noteBad_of_unit unit
  have regs : ((s.markBad x).count (R.HBM_ECC.uncorr i) 1).regs = (s.count (R.HBM_ECC.uncorr i) 1).regs := by
    rw [markBad_of_unit unit]
    split <;> rfl
  rw [eq]
  exact (logAs_keeps _ (by decide) (counters_apart word)).trans ((State.get_put_other _ _ _ _ apart).trans (get_congr regs g))

theorem patrolled_bad_isBad : ((s.markBad x).noteBad none x).isBad x = true := by
  obtain ⟨w, eq⟩ := noteBad_of_unit unit
  have bad : ((s.markBad x).noteBad none x).bad = (s.markBad x).bad := by
    rw [eq]
    exact (congrArg State.bad (raise_unlogged ..) :)
  rw [isBad_of_unit (s := s) unit, bad, markBad_of_unit unit]
  split
  · next listed => exact listed
  · exact List.contains_iff_mem.mpr (List.mem_mergeSort.mpr List.mem_cons_self)

theorem patrolled_bad_logged : ((s.markBad x).noteBad none x).log.head?.map LogEntry.code = some E.SEQ_HBM_ECC := by
  obtain ⟨w, eq⟩ := noteBad_of_unit unit
  rw [eq]
  exact log_code_of_raise

theorem patrolled_bad_mem : ((s.markBad x).noteBad none x).mem = s.mem := by
  rw [noteBad_mem, markBad_of_unit unit]
  split <;> rfl

end

section
variable {s : State} {x i err : Nat} (unit : s.patrolUnit x = some i)

theorem patrolled_clean (none_ : err = 0) (good : s.isBad x = false) (hard : s.soft.contains x = false) : s.patrolled x err = s := by
  subst none_
  rw [State.patrolled, if_neg (by decide), if_neg (by decide), if_neg (by simp [good]), if_neg (by simpa using hard)]

theorem patrolled_soft (one : err = 1 ∨ err = 0 ∧ s.soft.contains x = true) (good : s.isBad x = false) : s.patrolled x err = s.fixWord x := by
  have found : err = 1 ∨ s.soft.contains x = true := one.imp_right And.right
  rw [State.patrolled, if_neg (by omega), if_neg (by omega), if_neg (by rw [good]; rintro (two | bad); exacts [by omega, absurd bad (by decide)]),
    if_pos found]

theorem patrolled_bad (two : err = 2 ∨ err < 2 ∧ s.isBad x = true) : s.patrolled x err = (s.markBad x).noteBad none x := by
  rw [State.patrolled, if_neg (by omega), if_neg (by omega), if_pos (two.imp_right And.right)]

theorem patrolled_structure (three : err = 3) : s.patrolled x err = s.logAs E.CFG_STATE_ECC 0 none (atLd (s.homeLd x)) x := if_pos three

theorem patrolled_fatal (four : err = 4) : s.patrolled x err = s.fatal E.CFG_STATE_ECC (atLd (s.homeLd x)) x :=
  (if_neg (by omega)).trans (if_pos four)

theorem fixWord_sameMem (s : State) (x : Nat) : SameMem s (s.fixWord x) := by
  have same := fixWord_unfixed s x
  exact sameMem_of_eq (congrArg State.mem same :) (congrArg State.bad same :) (congrArg State.plist same :) (congrArg State.linkErr same :)

theorem sameMem_of_unfatal {s t : State} (same : t.unfatal = s.unfatal) : SameMem s t :=
  sameMem_of_eq (congrArg State.mem same :) (congrArg State.bad same :) (congrArg State.plist same :) (congrArg State.linkErr same :)

theorem mem_of_unfatal {s t : State} (same : t.unfatal = s.unfatal) : t.mem = s.mem := (congrArg State.mem same :)

theorem mem_of_unlogged {s t : State} (same : t.unlogged = s.unlogged) : t.mem = s.mem := (congrArg State.mem same :)

include unit in
theorem patrolled_mem : (s.patrolled x err).mem = s.mem := by
  unfold State.patrolled
  split_ifs
  · exact mem_of_unlogged (logAs_unlogged ..)
  · exact mem_of_unfatal (fatal_unfatal ..)
  · exact patrolled_bad_mem unit
  · exact (congrArg State.mem (fixWord_unfixed s x) :)
  · rfl

end

theorem passCounted_sameMem (s : State) (i : Nat) (last : Bool) : SameMem s (s.passCounted i last) := sameMem_of_unlogged (passCounted_unlogged s i last)

theorem passCounted_isBad (s : State) (i : Nat) (last : Bool) (x : Nat) : (s.passCounted i last).isBad x = s.isBad x := by
  unfold State.passCounted
  split <;> rfl

theorem passCounted_soft (s : State) (i : Nat) (last : Bool) : (s.passCounted i last).soft = s.soft := by
  unfold State.passCounted
  split <;> rfl

theorem contains_filter_ne (l : List Nat) (x : Nat) : (l.filter (· ≠ x)).contains x = false := by
  refine Bool.eq_false_iff.mpr fun mem => ?_
  exact absurd rfl (of_decide_eq_true (List.mem_filter.mp (List.contains_iff_mem.mp mem)).2)

/-- What the obligation says of the passes after a read. -/
theorem bump_of_get {s t : State} {i : Nat} {last : Bool} (passes : t.get (R.HBM_ECC.passes i) = s.get (R.HBM_ECC.passes i)) :
    (t.passCounted i last).get (R.HBM_ECC.passes i) =
      if last = true then min (s.get (R.HBM_ECC.passes i) + 1) (2 ^ (R.HBM_ECC.passes i).w - 1) else s.get (R.HBM_ECC.passes i) := by
  rw [passCounted_passes, passes]

/-! ## Permission windows (R394, R395) -/

theorem find_congr {d : Nat → Nat} {e : Nat → Nat} {m : KMap Nat} {k : Nat} (same : d k = e k) : KMap.find d m k = KMap.find e m k := by
  induction m with
  | nil => exact same
  | cons x m ih =>
    rw [KMap.find, KMap.find, ih]

/-- Fields that are the same where their places are. -/
def Fields (fs : List Fld) : Prop := ∀ f ∈ fs, ∀ g ∈ fs, f.a = g.a → f = g

/-- The commit of one field. -/
def State.commitOne (s : State) (f : Fld) : State := { s.put f (s.sget f) with shadow := KMap.drop s.shadow f.a }

theorem commit_cons (s : State) (f : Fld) (fs : List Fld) : s.commit (f :: fs) = (s.commitOne f).commit fs := rfl

theorem sget_lt (s : State) (f : Fld) : s.sget f < 2 ^ f.w := Nat.mod_lt _ (Nat.two_pow_pos f.w)

theorem commitOne_get_same (s : State) (f : Fld) : (s.commitOne f).get f = s.sget f :=
  (get_congr rfl f).trans ((State.get_put_same s f (s.sget f)).trans (Nat.mod_eq_of_lt (sget_lt s f)))

theorem commitOne_get_other (s : State) {f g : Fld} (apart : g.a ≠ f.a) : (s.commitOne f).get g = s.get g :=
  (get_congr rfl g).trans (State.get_put_other s f _ _ apart)

theorem commitOne_sget_other (s : State) {f g : Fld} (apart : g.a ≠ f.a) : (s.commitOne f).sget g = s.sget g := by
  have regs : KMap.find resetVal (s.commitOne f).regs g.a = KMap.find resetVal s.regs g.a :=
    (KMap.find_put _ _ _ _ _).trans (if_neg apart)
  have shadow (d : Nat → Nat) : KMap.find d (KMap.drop s.shadow f.a) g.a = if g.a = f.a then d g.a else KMap.find d s.shadow g.a := KMap.find_drop ..
  rw [State.sget, show (s.commitOne f).shadow = KMap.drop s.shadow f.a from rfl, shadow, if_neg apart, State.sget]
  exact congrArg (· % 2 ^ g.w) (find_congr regs)

theorem commitOne_sget_same (s : State) (f : Fld) : (s.commitOne f).sget f = s.sget f := by
  have shadow (d : Nat → Nat) : KMap.find d (KMap.drop s.shadow f.a) f.a = d f.a := (KMap.find_drop ..).trans (if_pos rfl)
  have committed := commitOne_get_same s f
  rw [State.sget, show (s.commitOne f).shadow = KMap.drop s.shadow f.a from rfl, shadow]
  exact committed

theorem commit_get_other (s : State) {fs : List Fld} {g : Fld} (apart : ∀ f ∈ fs, g.a ≠ f.a) : (s.commit fs).get g = s.get g := by
  induction fs generalizing s with
  | nil => rfl
  | cons f fs ih =>
    rw [commit_cons, ih _ fun h mem => apart h (List.mem_cons_of_mem f mem), commitOne_get_other s (apart f List.mem_cons_self)]

/-- A committed field holds what was staged for it. -/
theorem commit_get (s : State) {fs : List Fld} (fields : Fields fs) {g : Fld} (mem : g ∈ fs) : (s.commit fs).get g = s.sget g := by
  induction fs generalizing s with
  | nil => cases mem
  | cons f fs ih =>
    have rest : Fields fs := fun a ha b hb => fields a (List.mem_cons_of_mem f ha) b (List.mem_cons_of_mem f hb)
    rw [commit_cons]
    by_cases later : g ∈ fs
    · rw [ih (s.commitOne f) rest later]
      by_cases same : g.a = f.a
      · rw [fields g mem f List.mem_cons_self same, commitOne_sget_same]
      · exact commitOne_sget_other s same
    · obtain rfl : g = f := (List.mem_cons.mp mem).resolve_right later
      rw [commit_get_other, commitOne_get_same]
      intro h inside same
      exact later (fields g mem h (List.mem_cons_of_mem g inside) same ▸ inside)

/-- What is left of a state beside its registers and their shadows. -/
def State.uncommitted (s : State) : State := { s with regs := [], shadow := [] }

theorem commit_uncommitted (s : State) (fs : List Fld) : (s.commit fs).uncommitted = s.uncommitted := by
  induction fs generalizing s with
  | nil => rfl
  | cons f fs ih => rw [commit_cons, ih]; rfl

/-- The window of a context that a field of its group belongs to. -/
theorem mem_winGroup {c : Nat} {f : Fld} (mem : f ∈ winGroup c) : ∃ w, w < 16 ∧
    (f = R.MEM_WIN.en c w ∨ f = R.MEM_WIN.r c w ∨ f = R.MEM_WIN.w c w ∨ f = R.MEM_WIN.base c w ∨ f = R.MEM_WIN.size c w) := by
  obtain ⟨w, lt, field⟩ := List.mem_flatMap.mp mem
  exact ⟨w, List.mem_range.mp lt, by simpa using field⟩

/-- The place of a field of a context's windows. -/
structure WinPlace (c : Nat) (f : Fld) : Prop where
  low : 8 * (0x160000 + 0x100 * c) ≤ f.a
  high : f.a < 8 * (0x160000 + 0x100 * c) + 2048

theorem winGroup_place {c : Nat} {f : Fld} (mem : f ∈ winGroup c) : WinPlace c f := by
  obtain ⟨w, lt, rfl | rfl | rfl | rfl | rfl⟩ := mem_winGroup mem <;>
    constructor <;> simp only [R.MEM_WIN.en, R.MEM_WIN.r, R.MEM_WIN.w, R.MEM_WIN.base, R.MEM_WIN.size] <;> omega

/-- The bit of a field's place in its 16 bytes tells which of the five it is. -/
theorem winGroup_fields (c : Nat) : Fields (winGroup c) := by
  intro f hf g hg same
  obtain ⟨w, lt, hf⟩ := mem_winGroup hf
  obtain ⟨v, lt', hg⟩ := mem_winGroup hg
  have window : w = v := by
    rcases hf with rfl | rfl | rfl | rfl | rfl <;> rcases hg with rfl | rfl | rfl | rfl | rfl <;>
      simp only [R.MEM_WIN.en, R.MEM_WIN.r, R.MEM_WIN.w, R.MEM_WIN.base, R.MEM_WIN.size] at same <;> omega
  subst window
  rcases hf with rfl | rfl | rfl | rfl | rfl <;> rcases hg with rfl | rfl | rfl | rfl | rfl <;>
    simp only [R.MEM_WIN.en, R.MEM_WIN.r, R.MEM_WIN.w, R.MEM_WIN.base, R.MEM_WIN.size] at same ⊢ <;> omega

/-- The status of a window commit. -/
def wcStat (c r busy cause w : Nat) : List (Fld × Nat) :=
  [(R.MEM_WCSTAT.busy, busy), (R.MEM_WCSTAT.cause, cause), (R.MEM_WCSTAT.window, w), (R.MEM_WCSTAT.result, r), (R.MEM_WCSTAT.ctx, c)]

theorem wcStat_apart (c r busy cause w : Nat) : ((wcStat c r busy cause w).map fun p => p.1.a).Nodup :=
  show [R.MEM_WCSTAT.busy.a, R.MEM_WCSTAT.cause.a, R.MEM_WCSTAT.window.a, R.MEM_WCSTAT.result.a, R.MEM_WCSTAT.ctx.a].Nodup by decide

theorem wcStat_values (s : State) {c r busy : Nat} (ctx : c < 64) (res : r < 4) (bit : busy < 2) (cause w : Nat) :
    (s.puts (wcStat c r busy cause w)).get R.MEM_WCSTAT.busy = busy ∧ (s.puts (wcStat c r busy cause w)).get R.MEM_WCSTAT.result = r ∧
      (s.puts (wcStat c r busy cause w)).get R.MEM_WCSTAT.ctx = c := by
  have at_ {p : Fld × Nat} (mem : p ∈ wcStat c r busy cause w) := puts_get_of_nodup s (wcStat_apart c r busy cause w) mem
  exact ⟨(at_ (p := (R.MEM_WCSTAT.busy, busy)) (by simp [wcStat])).trans (Nat.mod_eq_of_lt bit),
    (at_ (p := (R.MEM_WCSTAT.result, r)) (by simp [wcStat])).trans (Nat.mod_eq_of_lt res),
    (at_ (p := (R.MEM_WCSTAT.ctx, c)) (by simp [wcStat])).trans (Nat.mod_eq_of_lt ctx)⟩

theorem wcStat_get_other (s : State) (c r busy cause w : Nat) {g : Fld} (apart : g.a < 8 * 0x164004 ∨ 8 * 0x165000 ≤ g.a) :
    (s.puts (wcStat c r busy cause w)).get g = s.get g := by
  refine puts_get_other s ?_
  simp only [wcStat, List.forall_mem_cons, R.MEM_WCSTAT.busy, R.MEM_WCSTAT.cause, R.MEM_WCSTAT.window, R.MEM_WCSTAT.result, R.MEM_WCSTAT.ctx]
  exact ⟨by omega, by omega, by omega, by omega, by omega, by simp⟩

/-- The committed windows that are enabled, with their rights: they stay in force until their accesses have completed. -/
def State.openWindows (s : State) (c : Nat) : List (Nat × Nat × Bool × Bool) :=
  (List.range 16).filterMap (fun w =>
    let x := s.winOf false c w
    if x.1 then some (x.2.2.2.1, x.2.2.2.2, x.2.1, x.2.2.1) else none)

/-- The group committed, with the old one still in force. -/
def State.winStaged (s : State) (c : Nat) : State :=
  { s.commit (winGroup c) with oldWin := KMap.place c (s.openWindows c) (KMap.drop (s.commit (winGroup c)).oldWin c) }

/-- The commit under way. -/
def State.winCommitted (s : State) (c : Nat) : State := (s.winStaged c).puts (wcStat c 0 1 0 0)

/-- A refused group, with its cause and the window that gave it. -/
def State.winRefused (s : State) (c cause w : Nat) : State := (s.raise E.CFG_COMMIT (some c) (atSteward 0) c).puts (wcStat c 2 0 cause w)

section
variable {s : State} (opened : s.Open) (c : Fin 64)
include opened

theorem exec_memWcommit_busy (busy : s.get R.MEM_WCSTAT.busy = 1) : exec (.memWcommit c) s = .next (s.cfgRange none c.val) :=
  congrArg Host.Outcome.next ((gated_of_open opened _ _).trans (if_pos (flag_eq_true busy)))

variable (idle : s.get R.MEM_WCSTAT.busy = 0)
include idle

theorem exec_memWcommit_leaving (gone : s.leaving c.val = true ∨ s.get (R.CTX_STATE.state c.val) = 3) :
    exec (.memWcommit c) s = .next (s.winRefused c.val 0 0) :=
  congrArg Host.Outcome.next ((gated_of_open opened _ _).trans ((if_neg (by simp [flag_eq_false idle])).trans (if_pos gone)))

theorem exec_memWcommit_judged (stays : ¬(s.leaving c.val = true ∨ s.get (R.CTX_STATE.state c.val) = 3)) :
    (∀ w, (List.range 16).find? (fun w => s.winCause c.val w ≠ 0) = some w →
      exec (.memWcommit c) s = .next (s.winRefused c.val (s.winCause c.val w) w)) ∧
    ((List.range 16).find? (fun w => s.winCause c.val w ≠ 0) = none → exec (.memWcommit c) s = .next (s.winCommitted c.val)) := by
  have run : exec (.memWcommit c) s = execMemWcommit c s := rfl
  rw [run, execMemWcommit]
  dsimp only
  rw [gated_of_open opened, if_neg (by simp [flag_eq_false idle]), if_neg stays]
  refine ⟨fun w found => ?_, fun none_ => ?_⟩
  · rw [found]
    rfl
  · rw [none_]
    rfl

end

theorem winRefused_values (s : State) (c : Fin 64) (cause w : Nat) : SameMem s (s.winRefused c.val cause w) ∧
    (s.winRefused c.val cause w).get R.MEM_WCSTAT.ctx = c.val ∧ (∀ f ∈ winGroup c.val, (s.winRefused c.val cause w).get f = s.get f) ∧
    (s.winRefused c.val cause w).get R.MEM_WCSTAT.result = 2 ∧ (s.winRefused c.val cause w).get R.MEM_WCSTAT.busy = 0 ∧
    (s.winRefused c.val cause w).log.head?.map LogEntry.code = some E.CFG_COMMIT := by
  obtain ⟨busy, result, ctx⟩ := wcStat_values (s.raise E.CFG_COMMIT (some c.val) (atSteward 0) c.val) c.isLt (show 2 < 4 by decide)
    (show 0 < 2 by decide) cause w
  refine ⟨(sameMem_of_unlogged (raise_unlogged ..)).trans (sameMem_of_unlogged (puts_unlogged ..)), ctx, fun f mem => ?_, result, busy, ?_⟩
  · obtain ⟨low, high⟩ := winGroup_place mem
    exact (wcStat_get_other _ _ _ _ _ _ (.inl (by omega))).trans (raise_get s (by omega))
  · rw [State.winRefused, puts_log]
    exact log_code_of_raise

theorem mem_of_uncommitted {s t : State} (same : t.uncommitted = s.uncommitted) : SameMem s t ∧ t.log = s.log :=
  ⟨sameMem_of_eq (congrArg State.mem same :) (congrArg State.bad same :) (congrArg State.plist same :) (congrArg State.linkErr same :),
    (congrArg State.log same :)⟩

theorem withOld_keeps (s : State) (m : KMap (List (Nat × Nat × Bool × Bool))) :
    (∀ g, ({ s with oldWin := m } : State).get g = s.get g) ∧ SameMem s { s with oldWin := m } ∧ ({ s with oldWin := m } : State).log = s.log ∧
      ({ s with oldWin := m } : State).oldWin = m := ⟨get_congr rfl, sameMem_of_eq rfl rfl rfl rfl, rfl, rfl⟩

theorem winStaged_keeps (s : State) (c : Nat) : (∀ g, (s.winStaged c).get g = (s.commit (winGroup c)).get g) ∧ SameMem s (s.winStaged c) ∧
    (s.winStaged c).log = s.log ∧ (s.winStaged c).oldWin = KMap.place c (s.openWindows c) (KMap.drop s.oldWin c) := by
  have same := commit_uncommitted s (winGroup c)
  unfold State.winStaged
  generalize s.commit (winGroup c) = u at same ⊢
  have kept : u.oldWin = s.oldWin := (congrArg State.oldWin same :)
  obtain ⟨get, mem, log, old⟩ := withOld_keeps u (KMap.place c (s.openWindows c) (KMap.drop u.oldWin c))
  obtain ⟨mem', log'⟩ := mem_of_uncommitted same
  exact ⟨get, mem'.trans mem, log.trans log', old.trans (by rw [kept])⟩

theorem winCommitted_get (s : State) (c : Nat) {g : Fld} (apart : g.a < 8 * 0x164004 ∨ 8 * 0x165000 ≤ g.a) :
    (s.winCommitted c).get g = (s.commit (winGroup c)).get g := (wcStat_get_other _ _ _ _ _ _ apart).trans ((winStaged_keeps s c).1 g)

theorem oldWin_of_unlogged {s t : State} (same : t.unlogged = s.unlogged) : t.oldWin = s.oldWin := (congrArg State.oldWin same :)

theorem winCommitted_oldWin (s : State) (c : Nat) : (s.winCommitted c).oldWin = KMap.place c (s.openWindows c) (KMap.drop s.oldWin c) :=
  (oldWin_of_unlogged (puts_unlogged _ _)).trans (winStaged_keeps s c).2.2.2

theorem winCommitted_values (s : State) (c : Fin 64) : SameMem s (s.winCommitted c.val) ∧ (s.winCommitted c.val).get R.MEM_WCSTAT.ctx = c.val ∧
    (∀ f ∈ winGroup c.val, (s.winCommitted c.val).get f = s.sget f) ∧ (s.winCommitted c.val).get R.MEM_WCSTAT.busy = 1 ∧
    (s.winCommitted c.val).log = s.log := by
  obtain ⟨busy, -, ctx⟩ := wcStat_values (s.winStaged c.val) c.isLt (show 0 < 4 by decide) (show 1 < 2 by decide) 0 0
  obtain ⟨-, mem, log, -⟩ := winStaged_keeps s c.val
  refine ⟨mem.trans (sameMem_of_unlogged (puts_unlogged ..)), ctx, fun f inside => ?_, busy, (puts_log _ _).trans log⟩
  obtain ⟨low, high⟩ := winGroup_place inside
  exact (winCommitted_get s c.val (.inl (by omega))).trans (commit_get s (winGroup_fields c.val) inside)

/-! ### The old group stays in force until its accesses have completed -/

theorem find?_place {β : Type} (k : Nat) (v : β) (m : KMap β) (free : ∀ e ∈ m, e.1 ≠ k) :
    (KMap.place k v m).find? (fun p => decide (p.1 = k)) = some (k, v) := by
  induction m with
  | nil => simp [KMap.place]
  | cons e m ih =>
    obtain ⟨j, w⟩ := e
    have other : j ≠ k := free (j, w) List.mem_cons_self
    rw [KMap.place]
    split
    · simp
    · rw [List.find?_cons_of_neg (by simpa using other)]
      exact ih fun x mem => free x (List.mem_cons_of_mem _ mem)

theorem map_filter_filterMap {α β γ : Type} {f : α → Option β} {p : β → Bool} {q : β → γ} {g : α → Option γ}
    (point : ∀ a, ((f a).filter p).map q = g a) (l : List α) : ((l.filterMap f).filter p).map q = l.filterMap g := by
  induction l with
  | nil => rfl
  | cons a l ih =>
    have one := point a
    cases some_ : f a with
    | none =>
      rw [some_] at one
      rw [List.filterMap_cons_none some_, List.filterMap_cons_none one.symm, ih]
    | some b =>
      rw [some_] at one
      rw [List.filterMap_cons_some some_]
      by_cases pass : p b = true
      · rw [List.filter_cons_of_pos pass, List.map_cons, ih, List.filterMap_cons_some (b := q b)]
        rw [← one, Option.filter_some, if_pos pass, Option.map_some]
      · rw [List.filter_cons_of_neg pass, ih, List.filterMap_cons_none]
        rw [← one, Option.filter_some, if_neg pass, Option.map_none]

theorem openWindows_granting (s : State) (c : Nat) (wr : Bool) :
    ((s.openWindows c).filter (fun w => if wr then w.2.2.2 else w.2.2.1)).map (fun w => (w.1, w.2.1)) = s.windows c wr := by
  refine map_filter_filterMap (fun w => ?_) _
  simp only [State.winOf, State.flag, if_neg Bool.false_ne_true]
  cases wr <;> by_cases en : s.get (R.MEM_WIN.en c w) = 1 <;> by_cases r : s.get (R.MEM_WIN.r c w) = 1 <;>
    by_cases w' : s.get (R.MEM_WIN.w c w) = 1 <;> simp [en, r, w', Option.filter_some]

theorem winCommitted_permits (s : State) (c : Fin 64) (fresh : s.oldWin.find? (fun p => decide (p.1 = c.val)) = none) {a n : Nat} {wr : Bool}
    (permits : (s.winCommitted c.val).permits c.val a n wr = true) : s.permits c.val a n wr = true := by
  have buddy (f : Nat) (lt : f < 2) : (s.winCommitted c.val).get (R.FAR_BUDDY.base f) = s.get (R.FAR_BUDDY.base f) ∧
      (s.winCommitted c.val).get (R.FAR_BUDDY.size f) = s.get (R.FAR_BUDDY.size f) := by
    constructor
    all_goals
      refine (winCommitted_get s c.val (.inr (by simp only [R.FAR_BUDDY.base, R.FAR_BUDDY.size]; omega))).trans (commit_get_other s fun g mem => ?_)
      obtain ⟨low, high⟩ := winGroup_place mem
      simp only [R.FAR_BUDDY.base, R.FAR_BUDDY.size]
      omega
  have reserved : (s.winCommitted c.val).reservedRanges = s.reservedRanges := by
    have two : List.range 2 = [0, 1] := rfl
    simp only [State.reservedRanges, two, List.map_cons, List.map_nil, buddy 0 (by decide), buddy 1 (by decide)]
  have old : (s.winCommitted c.val).oldWin.find? (fun p => decide (p.1 = c.val)) = some (c.val, s.openWindows c.val) := by
    rw [winCommitted_oldWin]
    exact find?_place _ _ _ fun e mem => ((KMap.mem_drop _ _ _).mp mem).2
  unfold State.permits at permits ⊢
  rw [old, reserved] at permits
  rw [fresh]
  simp only [Option.map_some, openWindows_granting, Bool.and_eq_true] at permits
  obtain ⟨⟨fits, -⟩, granted⟩ := permits
  simp only [Option.map_none, Bool.and_eq_true]
  exact ⟨⟨fits, granted⟩, trivial⟩

theorem find?_cause (s : State) (c : Nat) :
    (List.range 16).find? (fun w => s.winCause c w ≠ 0) = none ↔ ∀ w ∈ List.range 16, s.winCause c w = 0 := by
  simp [List.find?_eq_none]

/-! ## The end of a window commit, global regions and buddy regions (R382, R383, R391, R395) -/

/-- The old group goes out of force. -/
def State.winDone (s : State) : State :=
  ({ s with oldWin := KMap.drop s.oldWin (s.get R.MEM_WCSTAT.ctx) } : State).puts [(R.MEM_WCSTAT.busy, 0), (R.MEM_WCSTAT.result, 1)]

theorem exec_memWcommitDone (s : State) : exec .memWcommitDone s = .next (
    if (s.flag R.MEM_WCSTAT.busy && !(s.flag R.PWR_STAT.fzero && s.coversFar (s.get R.MEM_WCSTAT.ctx)) && !s.underWay (s.get R.MEM_WCSTAT.ctx)) = true then
      s.winDone else s) := rfl

/-- A region's fields. -/
def gregGroup (g : Nat) : List Fld := [R.HBM_GREG.en g, R.HBM_GREG.off g, R.HBM_GREG.size g]

theorem gregGroup_fields (g : Nat) : Fields (gregGroup g) := by
  intro f hf h hh same
  simp only [gregGroup, List.mem_cons, List.not_mem_nil, or_false] at hf hh
  rcases hf with rfl | rfl | rfl <;> rcases hh with rfl | rfl | rfl <;>
    simp only [R.HBM_GREG.en, R.HBM_GREG.off, R.HBM_GREG.size] at same ⊢ <;> omega

/-- The result of a region's commit. -/
def gcStat (g r : Nat) : List (Fld × Nat) := [(R.HBM_GCSTAT.result, r), (R.HBM_GCSTAT.region, g)]

theorem gcStat_values (s : State) {g r : Nat} (region : g < 8) (res : r < 4) :
    (s.puts (gcStat g r)).get R.HBM_GCSTAT.region = g ∧ (s.puts (gcStat g r)).get R.HBM_GCSTAT.result = r := by
  obtain ⟨result, number⟩ := puts_two s r g (f := R.HBM_GCSTAT.result) (g := R.HBM_GCSTAT.region) (by decide)
  exact ⟨number.trans (Nat.mod_eq_of_lt region), result.trans (Nat.mod_eq_of_lt res)⟩

theorem gregGroup_place {g : Nat} (lt : g < 8) {f : Fld} (mem : f ∈ gregGroup g) : f.a < 8 * 0x165080 := by
  simp only [gregGroup, List.mem_cons, List.not_mem_nil, or_false] at mem
  rcases mem with rfl | rfl | rfl <;> simp only [R.HBM_GREG.en, R.HBM_GREG.off, R.HBM_GREG.size] <;> omega

theorem gcStat_get_other (s : State) (g r : Nat) {f : Fld} (below : f.a < 8 * 0x165080) : (s.puts (gcStat g r)).get f = s.get f := by
  refine puts_get_other s ?_
  simp only [gcStat, List.forall_mem_cons, R.HBM_GCSTAT.result, R.HBM_GCSTAT.region]
  exact ⟨by omega, by omega, by simp⟩

/-- A region committed: its bytes lie where the new placement has them. -/
def State.gregCommitted (s : State) (g : Nat) : State := (s.replace (s.commit (gregGroup g))).puts (gcStat g 1)

theorem exec_hbmGcommit {s : State} (opened : s.Open) (idle : s.get R.HBM_GCSTAT.busy = 0) (g : Fin 8) : exec (.hbmGcommit g) s = .next (
    if s.gregBad g.val = true then (s.raise E.CFG_COMMIT none (atSteward 0) g.val).puts (gcStat g.val 2) else s.gregCommitted g.val) :=
  congrArg Host.Outcome.next ((gated_of_open opened _ _).trans (if_neg (by simp [flag_eq_false idle])))

theorem replace_get (s t : State) (f : Fld) : (s.replace t).get f = t.get f := get_congr rfl f

theorem replace_log (s t : State) : (s.replace t).log = t.log := rfl

/-- The offset of a buddy region's word. -/
def buddyOff (f : Nat) (size : Bool) : Nat := 0x0016_6000 + 16 * f + 8 * b2n size

/-- What makes the value of a buddy region's word illegal. -/
def State.buddyBad (s : State) (f : Nat) (size : Bool) (v : Nat) : Prop :=
  let b := if size then s.get (R.FAR_BUDDY.base f) else v
  let n := if size then v else s.get (R.FAR_BUDDY.size f)
  let lo := 0x0200_0000_0000 + f * 0x0100_0000_0000
  v % 4096 ≠ 0 ∨ (0 < n ∧ ¬(lo ≤ b ∧ b + n ≤ if f = 0 then 0x02FF_F000_0000 else lo + 0x0100_0000_0000)) ∨
    (List.range 64).any (fun c => s.flag (R.CKPT_BUDDY.en c)) = true

/-- A word of a buddy region. -/
def buddyFld (f : Nat) (size : Bool) : Fld := if size then R.FAR_BUDDY.size f else R.FAR_BUDDY.base f

section
variable {s : State} (opened : s.Open) (m : Master) (f : Fin 2) (size : Bool) (v : BitVec 48)
include opened

theorem exec_farBuddyWrite_owner (owner : s.owns m 3 = true) :
    (s.buddyBad f.val size v.toNat → exec (.farBuddyWrite m f size v) s = .next (s.cfgRange none (buddyOff f.val size))) ∧
      (¬s.buddyBad f.val size v.toNat → exec (.farBuddyWrite m f size v) s = .next (s.put (buddyFld f.val size) v.toNat)) := by
  have owned : ¬(!s.owns m 3) = true := by simp [owner]
  exact ⟨fun bad => congrArg Host.Outcome.next ((gated_of_open opened _ _).trans ((if_neg owned).trans (if_pos bad))),
    fun legal => congrArg Host.Outcome.next ((gated_of_open opened _ _).trans ((if_neg owned).trans (if_neg legal)))⟩

theorem exec_farBuddyWrite_other (other : s.owns m 3 = false) :
    exec (.farBuddyWrite m f size v) s = .next (s.ownDrop m (buddyOff f.val size)) :=
  congrArg Host.Outcome.next ((gated_of_open opened _ _).trans (if_pos (by rw [other]; rfl)))

end

/-- A buddy region stays clear of the fields of the ownership log and of the error log. -/
theorem buddyFld_place (f : Fin 2) (size : Bool) : (buddyFld f.val size).a < 8 * 0x166100 := by
  cases size <;> simp only [buddyFld, if_true, Bool.false_eq_true, if_false, R.FAR_BUDDY.base, R.FAR_BUDDY.size] <;> omega

theorem ownDrop_get_low (s : State) (m : Master) (off : Nat) {g : Fld} (low : g.a < 8 * 0x182000) : (s.ownDrop m off).get g = s.get g := by
  rw [State.ownDrop, raise_get _ (by omega), State.get_count_other _ _ _ _ (by simp only [R.OWN_LOG.count]; omega), puts_get_other s]
  simp only [List.forall_mem_cons, R.OWN_LOG.master, R.OWN_LOG.offset]
  exact ⟨by omega, by omega, by simp⟩

/-- Legal as the obligation has it. -/
theorem buddyBad_iff (s : State) (f : Fin 2) (size : Bool) (v : Nat) : s.buddyBad f.val size v ↔
    ¬(v % 4096 = 0 ∧ ((if size = true then v else s.get (R.FAR_BUDDY.size f.val)) = 0 ∨
      0x0200_0000_0000 + f.val * 0x0100_0000_0000 ≤ (if size = true then s.get (R.FAR_BUDDY.base f.val) else v) ∧
      (if size = true then s.get (R.FAR_BUDDY.base f.val) else v) + (if size = true then v else s.get (R.FAR_BUDDY.size f.val)) ≤
        if f.val = 0 then 0x02FF_F000_0000 else 0x0400_0000_0000) ∧ ∀ c, c < 64 → s.get (R.CKPT_BUDDY.en c) = 0) := by
  have buddies : (List.range 64).any (fun c => s.flag (R.CKPT_BUDDY.en c)) = true ↔ ¬∀ c, c < 64 → s.get (R.CKPT_BUDDY.en c) = 0 := by
    rw [List.any_eq_true]
    constructor
    · rintro ⟨c, mem, set⟩ none_
      exact absurd ((get_of_flag set).symm.trans (none_ c (List.mem_range.mp mem))) (by decide)
    · intro some_
      push Not at some_
      obtain ⟨c, lt, set⟩ := some_
      exact ⟨c, List.mem_range.mpr lt, flag_eq_true ((get_bit s rfl).resolve_left set)⟩
  have top : (if f.val = 0 then 0x02FF_F000_0000 else 0x0200_0000_0000 + f.val * 0x0100_0000_0000 + 0x0100_0000_0000) =
      if f.val = 0 then 0x02FF_F000_0000 else 0x0400_0000_0000 := by
    split <;> omega
  unfold State.buddyBad
  dsimp only
  rw [buddies, top]
  generalize (if size = true then v else s.get (R.FAR_BUDDY.size f.val)) = n
  generalize (if size = true then s.get (R.FAR_BUDDY.base f.val) else v) = b
  generalize (if f.val = 0 then 0x02FF_F000_0000 else 0x0400_0000_0000) = hi
  simp only [ne_eq, Nat.pos_iff_ne_zero]
  tauto

/-! ## The obligation -/

/-- Settles O38. -/
theorem memoryUpkeep : Obligations.MemoryUpkeep := by
  refine ⟨fun s a err last => ⟨fun i unit => ⟨fun off => ?_, fun seconds awake live => ?_⟩, fun none_ => ?_⟩, fun s f errs => ⟨fun seconds awake live => ?_, fun off => ?_⟩,
    fun s c opened => ⟨fun idle => ?_, fun busy => ?_⟩, fun s => ⟨fun busy far done => ?_, fun not => ?_⟩, fun s g opened idle => ?_,
    fun s m f size v opened => ⟨fun owner legal => ?_, fun owner bad => ?_, fun other => ?_⟩⟩
  · have unit : s.patrolUnit (a.toNat / 8 * 8) = some i := unit
    rw [exec_memPatrolRead, unit]
    exact congrArg _ (if_pos off)
  · have unit : s.patrolUnit (a.toNat / 8 * 8) = some i := unit
    have run := exec_memPatrolRead s a err last
    rw [unit] at run
    dsimp only at run
    rw [if_neg (by simp [seconds, awake, live])] at run
    obtain ⟨passUncorr, passCorr, passLast, uncorrLast⟩ := hbmEcc_apart i i
    refine ⟨_, run, (mem_of_unlogged (passCounted_unlogged ..)).trans (patrolled_mem unit), fun none_ good hard => ?_, fun one good => ?_, fun two => ?_,
      fun three => ?_, fun four => ?_⟩
    · rw [patrolled_clean (congrArg Fin.val none_) good hard]
      exact ⟨bump_of_get rfl, passCounted_sameMem s i last, passCounted_log s i last, passCounted_get_other s i last passCorr.symm⟩
    · rw [patrolled_soft (one.imp (congrArg Fin.val) (And.imp_left (congrArg Fin.val))) good]
      have corr : (s.fixWord (a.toNat / 8 * 8)).get (R.HBM_ECC.corr i) = min (s.get (R.HBM_ECC.corr i) + 1) (2 ^ (R.HBM_ECC.corr i).w - 1) := by
        rw [fixWord_of_unit unit]
        exact State.get_count_same _ _ _
      have passes : (s.fixWord (a.toNat / 8 * 8)).get (R.HBM_ECC.passes i) = s.get (R.HBM_ECC.passes i) := by
        rw [fixWord_of_unit unit]
        exact State.get_count_other _ _ _ _ passCorr
      refine ⟨bump_of_get passes, (fixWord_sameMem s _).trans (passCounted_sameMem _ i last),
        (passCounted_log _ i last).trans (congrArg State.log (fixWord_unfixed s _) :), (passCounted_get_other _ i last passCorr.symm).trans corr, ?_⟩
      rw [passCounted_soft, fixWord_of_unit unit]
      exact contains_filter_ne s.soft _
    · rw [patrolled_bad (two.imp (congrArg Fin.val) id)]
      have passes := (patrolled_bad_get unit (hbmEcc_words i).1 passLast).trans (State.get_count_other _ _ _ _ passUncorr)
      have uncorr := (patrolled_bad_get unit (hbmEcc_words i).2 uncorrLast).trans (State.get_count_same _ _ _)
      refine ⟨bump_of_get passes, (passCounted_isBad _ i last _).trans (patrolled_bad_isBad unit), (passCounted_get_other _ i last passUncorr.symm).trans uncorr, ?_⟩
      rw [passCounted_log]
      exact patrolled_bad_logged unit
    · rw [patrolled_structure (congrArg Fin.val three)]
      refine ⟨bump_of_get (logAs_keeps s (by decide) (counters_apart (hbmEcc_words i).1)),
        (sameMem_of_unlogged (logAs_unlogged ..)).trans (passCounted_sameMem _ i last), ?_, ?_⟩
      · rw [passCounted_log, logAs_log]
        rfl
      · rw [passCounted_get_other _ _ _ (by simp only [R.RAS_STAT.fatal, R.HBM_ECC.passes]; omega), logAs_keeps s (by decide) (by decide)]
    · rw [patrolled_fatal (congrArg Fin.val four)]
      refine ⟨(sameMem_of_unfatal (fatal_unfatal ..)).trans (passCounted_sameMem _ i last), ?_⟩
      rw [passCounted_get_other _ _ _ (by simp only [R.RAS_STAT.fatal, R.HBM_ECC.passes]; omega)]
      exact fatal_set ..
  · have none_ : s.patrolUnit (a.toNat / 8 * 8) = none := none_
    rw [exec_memPatrolRead, none_]
  · refine ⟨s.count (R.FAR_ECC.corr f.val) errs.toNat, congrArg Host.Outcome.next (if_neg (by simp [seconds, awake, live])),
      State.get_count_same _ _ _, rfl, fun g apart => State.get_count_other _ _ _ _ (apart _ List.mem_cons_self)⟩
  · exact congrArg Host.Outcome.next (if_pos off)
  · by_cases gone : s.leaving c.val = true ∨ s.get (R.CTX_STATE.state c.val) = 3
    · obtain ⟨mem, ctx, same, result, busy, logged⟩ := winRefused_values s c 0 0
      refine ⟨_, exec_memWcommit_leaving opened c idle gone, mem, ctx, ?_⟩
      rw [if_neg (by rintro ⟨stays, live, -⟩; rcases gone with gone | gone; exacts [absurd (stays.symm.trans gone) (by decide), live gone])]
      exact ⟨same, result, busy, logged⟩
    · obtain ⟨refused, accepted⟩ := exec_memWcommit_judged opened c idle gone
      push Not at gone
      cases found : (List.range 16).find? (fun w => s.winCause c.val w ≠ 0) with
      | some w =>
        obtain ⟨mem, ctx, same, result, busy, logged⟩ := winRefused_values s c (s.winCause c.val w) w
        refine ⟨_, refused w found, mem, ctx, ?_⟩
        rw [if_neg (fun all => absurd ((find?_cause s c.val).mpr all.2.2) (by rw [found]; simp))]
        exact ⟨same, result, busy, logged⟩
      | none =>
        obtain ⟨mem, ctx, same, busy, log⟩ := winCommitted_values s c
        refine ⟨_, accepted found, mem, ctx, ?_⟩
        rw [if_pos ⟨Bool.eq_false_iff.mpr gone.1, gone.2, (find?_cause s c.val).mp found⟩]
        exact ⟨same, busy, log, fun fresh _ _ _ permits => winCommitted_permits s c fresh permits⟩
  · exact ⟨_, exec_memWcommit_busy opened c busy, sameMem_of_unlogged (cfgRange_unlogged ..), fun f mem =>
      raise_get s (by obtain ⟨-, high⟩ := winGroup_place mem; omega), (raise_get s (by decide)).trans busy, log_code_of_raise⟩
  · have runs : (s.flag R.MEM_WCSTAT.busy && !(s.flag R.PWR_STAT.fzero && s.coversFar (s.get R.MEM_WCSTAT.ctx)) &&
        !s.underWay (s.get R.MEM_WCSTAT.ctx)) = true := by
      rw [flag_eq_true busy, done]
      rcases far with zeroed | near
      · rw [flag_eq_false zeroed]; rfl
      · rw [near, Bool.and_false]; rfl
    obtain ⟨idle, result⟩ := puts_two ({ s with oldWin := KMap.drop s.oldWin (s.get R.MEM_WCSTAT.ctx) } : State) 0 1
      (f := R.MEM_WCSTAT.busy) (g := R.MEM_WCSTAT.result) (by decide)
    refine ⟨s.winDone, (exec_memWcommitDone s).trans (congrArg _ (if_pos runs)), idle, result,
      ((withOld_keeps s _).2.1).trans (sameMem_of_unlogged (puts_unlogged ..)), fun p mem => ?_⟩
    rw [State.winDone, oldWin_of_unlogged (puts_unlogged _ _)] at mem
    exact ((KMap.mem_drop _ _ _).mp mem).2
  · refine (exec_memWcommitDone s).trans (congrArg _ (if_neg fun runs => ?_))
    simp only [Bool.and_eq_true, Bool.not_eq_true', Bool.and_eq_false_iff] at runs
    obtain ⟨⟨busy, far⟩, done⟩ := runs
    rcases not with idle | ⟨zeroing, covers⟩ | under
    · exact absurd ((get_of_flag busy).symm.trans idle) (by decide)
    · rcases far with off | near
      · exact absurd ((flag_eq_true zeroing).symm.trans off) (by decide)
      · exact absurd (covers.symm.trans near) (by decide)
    · exact absurd (under.symm.trans done) (by decide)
  · have run := exec_hbmGcommit opened idle g
    by_cases bad : s.gregBad g.val = true
    · rw [if_pos bad] at run
      obtain ⟨region, result⟩ := gcStat_values (s.raise E.CFG_COMMIT none (atSteward 0) g.val) g.isLt (show 2 < 4 by decide)
      refine ⟨_, run, region, ?_⟩
      rw [if_pos bad]
      refine ⟨fun f mem => ?_, result, (sameMem_of_unlogged (raise_unlogged ..)).trans (sameMem_of_unlogged (puts_unlogged ..)), ?_⟩
      · have place := gregGroup_place g.isLt mem
        exact (gcStat_get_other _ _ _ place).trans (raise_get s (by omega))
      · rw [puts_log]
        exact log_code_of_raise
    · rw [if_neg bad] at run
      obtain ⟨region, result⟩ := gcStat_values (s.replace (s.commit (gregGroup g.val))) g.isLt (show 1 < 4 by decide)
      refine ⟨_, run, region, ?_⟩
      rw [if_neg bad]
      refine ⟨fun f mem => ?_, result, ?_⟩
      · exact (gcStat_get_other _ _ _ (gregGroup_place g.isLt mem)).trans ((replace_get _ _ f).trans (commit_get s (gregGroup_fields g.val) mem))
      · exact (puts_log _ _).trans ((replace_log _ _).trans (mem_of_uncommitted (commit_uncommitted s _)).2)
  · exact (exec_farBuddyWrite_owner opened m f size v owner).2 (mt (buddyBad_iff s f size v.toNat).mp (not_not.mpr legal))
  · exact ⟨_, (exec_farBuddyWrite_owner opened m f size v owner).1 ((buddyBad_iff s f size v.toNat).mpr bad),
      raise_get s (lt_trans (buddyFld_place f size) (by decide)), log_code_of_raise⟩
  · exact ⟨_, exec_farBuddyWrite_other opened m f size v other, ownDrop_get_low s m _ (lt_trans (buddyFld_place f size) (by decide)), log_code_of_raise⟩

end Sys2Proof.Machine

namespace Sys2Proof.Machine

-- One proof at a time: threads that wait for each other hold memory.
set_option Elab.async false

/-! ## VAR.LOOK and VAR.CNT (R256) -/

/-- A variant's entry lies below the registers of the sequencers, and not where a gate hold is. -/
theorem variant_place {k v : Nat} (key : k < 96) (variant : v < 4096) : (R.VAR_ENT.count k v).a < 8 * 0x2000000 ∧
    (R.VAR_ENT.count k v).a ≠ (R.VER_HDR.gate_hold k).a := by
  simp only [R.VAR_ENT.count, R.VER_HDR.gate_hold]
  omega

/-- The state with the address and the rank of variant `v` written. -/
def State.lookedUp (s : State) (k : Nat) (ad : BitVec 4) (sd : BitVec 5) (pd : BitVec 3) (v : Nat) : State :=
  ((s.wA k ad (BitVec.ofNat 48 (s.get (R.VAR_ENT.addr k v)))).wS k sd (BitVec.ofNat 64 (s.get (R.VAR_ENT.rank k v)))).wP k pd true

section
variable {s : State} {c : SlotCtl} {ad : BitVec 4} {sd vs : BitVec 5} {pd : BitVec 3} (alone : s.Alone c) (slot : c.slot = 3)
  (noEnd : s.NoLoopEnd (seqKey c))

include alone slot noEnd

theorem exec_varLook (free : s.NoPending c (.varLook c ad sd pd vs))
    (valid : s.get (R.VAR_ENT.valid (seqKey c) ((s.s (seqKey c) vs).toNat % 4096)) = 1) :
    ∃ t, exec (.varLook c ad sd pd vs) s = .next t ∧
      Ended s (s.lookedUp (seqKey c) ad sd pd ((s.s (seqKey c) vs).toNat % 4096)) t (seqKey c) :=
  exec_calm ⟨alone, rfl, rfl, slot3 slot, free, rfl, rfl, rfl, rfl, by simp [opVarLook]⟩ (if_pos (flag_eq_true valid))
    (((calm_wA ..).trans (calm_wS ..)).trans (calm_wP ..)) noEnd

theorem exec_varLook_invalid (free : s.NoPending c (.varLook c ad sd pd vs))
    (invalid : s.get (R.VAR_ENT.valid (seqKey c) ((s.s (seqKey c) vs).toNat % 4096)) = 0) :
    ∃ t, exec (.varLook c ad sd pd vs) s = .next t ∧ Ended s (s.wP (seqKey c) pd false) t (seqKey c) :=
  exec_calm ⟨alone, rfl, rfl, slot3 slot, free, rfl, rfl, rfl, rfl, by simp [opVarLook]⟩
    (if_neg (by rw [State.flag, invalid]; decide)) (calm_wP ..) noEnd

theorem exec_varCnt (free : s.NoPending c (.varCnt c vs)) :
    ∃ t, exec (.varCnt c vs) s = .next t ∧
      Ended s (s.count (R.VAR_ENT.count (seqKey c) ((s.s (seqKey c) vs).toNat % 4096)) 1) t (seqKey c) :=
  exec_calm ⟨alone, rfl, rfl, slot3 slot, free, rfl, rfl, rfl, rfl, by simp [opVarCnt]⟩ rfl
    (calm_count s (seqKey_lt c) (.inl (variant_place (seqKey_lt c) (Nat.mod_lt _ (by decide))).1)) noEnd

end

theorem areg_wS (s : State) (k : Nat) (r : BitVec 5) (v : Word) (i : Nat) : (s.wS k r v).a k i = s.a k i := by
  unfold State.a State.wS
  rw [State.seq_modSeq, if_pos rfl]
  unfold Seq.setS
  split <;> rfl

theorem sreg_wP (s : State) (k : Nat) (r : BitVec 3) (v : Bool) (i : BitVec 5) : (s.wP k r v).s k i = s.s k i := by
  unfold State.s State.wP
  rw [State.seq_modSeq, if_pos rfl]
  unfold Seq.setP
  split <;> rfl

theorem lookedUp_address (s : State) (k : Nat) (ad : BitVec 4) (sd : BitVec 5) (pd : BitVec 3) (v : Nat) :
    (s.lookedUp k ad sd pd v).a k ad.toNat = BitVec.ofNat 48 (s.get (R.VAR_ENT.addr k v)) := by
  rw [State.lookedUp, areg_wP, areg_wS, areg_setA]

theorem lookedUp_rank (s : State) (k : Nat) (ad : BitVec 4) (sd : BitVec 5) (pd : BitVec 3) (v : Nat) :
    (s.lookedUp k ad sd pd v).s k sd = if sd = 0 then 0 else BitVec.ofNat 64 (s.get (R.VAR_ENT.rank k v)) := by
  rw [State.lookedUp, sreg_wP, s_wS, if_pos ⟨rfl, rfl⟩]

theorem frame_of_lookedUp {s t : State} {k : Nat} {ad : BitVec 4} {sd : BitVec 5} {pd : BitVec 3} {v : Nat}
    (frame : IssueFrame (s.lookedUp k ad sd pd v) t k) : IssueFrame s t k := by
  unfold State.lookedUp State.wP State.wS State.wA at frame
  exact frame.of_modSeq.of_modSeq.of_modSeq

/-- Settles O14, by the effect of each of the three bundles. -/
theorem variantInstructions : Obligations.VariantInstructions := by
  intro s c ad sd vs pd alone slot noEnd
  have key := seqKey_lt c
  dsimp only
  refine ⟨fun free valid => ?_, fun free invalid => ?_, fun free => ?_⟩
  · obtain ⟨t, run, ended⟩ := exec_varLook alone slot noEnd free valid
    refine ⟨t, run, ended.issued, frame_of_lookedUp ended.frame, ?_, ?_, ?_⟩
    · rw [ended.preg, State.lookedUp, preg_wP, ite_self]
    · rw [ended.areg, lookedUp_address]
    · rw [ended.sreg, lookedUp_rank]
  · obtain ⟨t, run, ended⟩ := exec_varLook_invalid alone slot noEnd free invalid
    refine ⟨t, run, ended.issued, ended.frame.of_modSeq, ?_, ?_, ?_⟩
    · rw [ended.preg, preg_wP_false]
    · rw [ended.own Seq.a fun _ _ => rfl, own_wP Seq.a fun _ _ _ => rfl]
    · rw [ended.own Seq.s fun _ _ => rfl, own_wP Seq.s fun _ _ _ => rfl]
  · obtain ⟨t, run, ended⟩ := exec_varCnt alone slot noEnd free
    have own (u : Nat) (variant : u < 4096) := ended.get key (.inl (variant_place key variant).1) (variant_place key variant).2
    have small : (s.s (seqKey c) vs).toNat % 4096 < 4096 := Nat.mod_lt _ (by decide)
    refine ⟨t, run, ended.issued, ended.mem, ended.seqs, ?_, fun u variant other => ?_⟩
    · rw [own _ small, State.get_count_same]
      rfl
    · rw [own _ variant, State.get_count_other]
      simp only [R.VAR_ENT.count]
      omega

end Sys2Proof.Machine

namespace Sys2Proof.Machine

-- One proof at a time: threads that wait for each other hold memory.
set_option Elab.async false

/-! ## The rings of a context (R441 to R444) -/

theorem sring_setSring (s : State) (c q : Nat) (x : SRing) : (s.setSring c q x).sring c q = x :=
  (KMap.find_put _ _ _ _ _).trans (if_pos rfl)

theorem cring_setCring (s : State) (c q : Nat) (x : CRing) : (s.setCring c q x).cring c q = x :=
  (KMap.find_put _ _ _ _ _).trans (if_pos rfl)

theorem sring_of_srings {s t : State} (same : t.srings = s.srings) (c q : Nat) : t.sring c q = s.sring c q := by
  rw [State.sring, same, State.sring]

theorem cring_of_crings {s t : State} (same : t.crings = s.crings) (c q : Nat) : t.cring c q = s.cring c q := by
  rw [State.cring, same, State.cring]

theorem setSring_get (s : State) (c q : Nat) (x : SRing) (g : Fld) : (s.setSring c q x).get g = s.get g := get_congr rfl g

theorem setCring_get (s : State) (c q : Nat) (x : CRing) (g : Fld) : (s.setCring c q x).get g = s.get g := get_congr rfl g

theorem emit_srings (s : State) (o : Out) : (s.emit o).srings = s.srings := rfl

/-- What a fetch asks for leaves the commands of the ring alone. -/
theorem askFetch_cmds (s : State) (c q : Nat) : ((s.askFetch c q).sring c q).cmds = (s.sring c q).cmds := by
  unfold State.askFetch
  dsimp only
  split
  · generalize List.range _ = l
    refine (congrArg SRing.cmds (sring_of_srings (foldl_keeps State.srings _ (fun _ _ => emit_srings _ _) l _) c q)).trans ?_
    rw [sring_setSring]
  · rfl

theorem get_of_unconfigured {s t : State} (same : t.unconfigured = s.unconfigured) (g : Fld) : t.get g = s.get g :=
  get_congr (congrArg State.regs same :) g

theorem seqs_of_unconfigured {s t : State} (same : t.unconfigured = s.unconfigured) : t.seqs = s.seqs := (congrArg State.seqs same :)

theorem fetched_of_unconfigured {s t : State} (same : t.unconfigured = s.unconfigured) : t.fetched = s.fetched := (congrArg State.fetched same :)

/-! ### Doorbells (R442) -/

theorem bellOk_iff {s : State} {en : Fld} (size : BitVec 4) (v : BitVec 13) (n : Nat) : bellOk size.toNat n v.toNat (s.flag en) = true ↔
    (size = 4 ∨ size = 8) ∧ s.get en = 1 ∧ v.toNat < n := by
  have sizes : (size.toNat = 4 ∨ size.toNat = 8) ↔ (size = 4 ∨ size = 8) :=
    or_congr (BitVec.toNat_inj (x := size) (y := 4)) (BitVec.toNat_inj (x := size) (y := 8))
  unfold bellOk State.flag
  simp only [Bool.and_eq_true, decide_eq_true_eq, sizes, and_assoc]

theorem not_bellOk {s : State} {en : Fld} {size : BitVec 4} {v : BitVec 13} {n : Nat}
    (bad : size ≠ 4 ∧ size ≠ 8 ∨ s.get en = 0 ∨ n ≤ v.toNat) : bellOk size.toNat n v.toNat (s.flag en) = false := by
  refine Bool.eq_false_iff.2 fun ok => ?_
  obtain ⟨sizes, on, small⟩ := (bellOk_iff size v n).1 ok
  rcases bad with ⟨four, eight⟩ | off | large
  · exact sizes.elim four eight
  · exact absurd (on.symm.trans off) (by decide)
  · omega

section
variable {s : State} {c : Fin 64} {q : Fin 16} {size : BitVec 4} {v : BitVec 13}

theorem exec_sqDoorbell_shut (shut : s.bellsOpen c.val = false) : exec (.sqDoorbell c q size v) s = .next s :=
  congrArg Host.Outcome.next (if_pos (by rw [shut]; rfl))

theorem exec_cqDoorbell_shut (shut : s.bellsOpen c.val = false) : exec (.cqDoorbell c q size v) s = .next s :=
  congrArg Host.Outcome.next (if_pos (by rw [shut]; rfl))

variable (opened : s.bellsOpen c.val = true)

include opened

theorem exec_sqDoorbell_ignored (bad : bellOk size.toNat (s.get (R.SQ_CFG.size c.val q.val)) v.toNat (s.flag (R.SQ_CFG.en c.val q.val)) = false) :
    exec (.sqDoorbell c q size v) s = .next (s.cfgRange (some c.val) (8 * q.val)) :=
  congrArg Host.Outcome.next ((if_neg (by simp [opened])).trans (if_pos (by rw [bad]; rfl)))

theorem exec_sqDoorbell (ok : bellOk size.toNat (s.get (R.SQ_CFG.size c.val q.val)) v.toNat (s.flag (R.SQ_CFG.en c.val q.val)) = true) :
    exec (.sqDoorbell c q size v) s = .next ((s.put (R.SQ_CFG.tail c.val q.val) v.toNat).askFetch c.val q.val) :=
  congrArg Host.Outcome.next ((if_neg (by simp [opened])).trans (if_neg (by simp [ok])))

theorem exec_cqDoorbell_ignored (bad : bellOk size.toNat (s.get (R.CQ_CFG.size c.val q.val)) v.toNat (s.flag (R.CQ_CFG.en c.val q.val)) = false) :
    exec (.cqDoorbell c q size v) s = .next (s.cfgRange (some c.val) (0x100 + 8 * q.val)) :=
  congrArg Host.Outcome.next ((if_neg (by simp [opened])).trans (if_pos (by rw [bad]; rfl)))

theorem exec_cqDoorbell (ok : bellOk size.toNat (s.get (R.CQ_CFG.size c.val q.val)) v.toNat (s.flag (R.CQ_CFG.en c.val q.val)) = true) :
    exec (.cqDoorbell c q size v) s = .next (
      if v.toNat = (s.put (R.CQ_CFG.head c.val q.val) v.toNat).get (R.CQ_CFG.tail c.val q.val) then
        (s.put (R.CQ_CFG.head c.val q.val) v.toNat).setCring c.val q.val { s.cring c.val q.val with since := 0 }
      else s.put (R.CQ_CFG.head c.val q.val) v.toNat) :=
  congrArg Host.Outcome.next ((if_neg (by simp [opened])).trans (if_neg (by simp [ok])))

end

theorem sqDoorbell_moves {s : State} {c : Fin 64} {q : Fin 16} {size : BitVec 4} {v : BitVec 13} (opened : s.bellsOpen c.val = true)
    (ok : bellOk size.toNat (s.get (R.SQ_CFG.size c.val q.val)) v.toNat (s.flag (R.SQ_CFG.en c.val q.val)) = true) :
    ∃ t, exec (.sqDoorbell c q size v) s = .next t ∧ t.get (R.SQ_CFG.tail c.val q.val) = v.toNat ∧ SameMem s t ∧ t.seqs = s.seqs ∧
      (t.sring c.val q.val).cmds = (s.sring c.val q.val).cmds := by
  have asked := askFetch_unconfigured (s.put (R.SQ_CFG.tail c.val q.val) v.toNat) c.val q.val
  refine ⟨_, exec_sqDoorbell opened ok, ?_, (rest_of_unconfigured asked).2, (seqs_of_unconfigured asked).trans rfl,
    askFetch_cmds ..⟩
  rw [get_of_unconfigured asked, State.get_put_same]
  exact Nat.mod_eq_of_lt v.isLt

theorem cqDoorbell_moves {s : State} {c : Fin 64} {q : Fin 16} {size : BitVec 4} {v : BitVec 13} (opened : s.bellsOpen c.val = true)
    (ok : bellOk size.toNat (s.get (R.CQ_CFG.size c.val q.val)) v.toNat (s.flag (R.CQ_CFG.en c.val q.val)) = true) :
    ∃ t, exec (.cqDoorbell c q size v) s = .next t ∧ t.get (R.CQ_CFG.head c.val q.val) = v.toNat ∧ SameMem s t ∧ t.seqs = s.seqs ∧
      (t.cring c.val q.val).since = (if v.toNat = s.get (R.CQ_CFG.tail c.val q.val) then 0 else (s.cring c.val q.val).since) := by
  have tail : (s.put (R.CQ_CFG.head c.val q.val) v.toNat).get (R.CQ_CFG.tail c.val q.val) = s.get (R.CQ_CFG.tail c.val q.val) :=
    State.get_put_other _ _ _ _ (by simp only [R.CQ_CFG.head, R.CQ_CFG.tail]; omega)
  have head : (s.put (R.CQ_CFG.head c.val q.val) v.toNat).get (R.CQ_CFG.head c.val q.val) = v.toNat :=
    (State.get_put_same _ _ _).trans (Nat.mod_eq_of_lt v.isLt)
  refine ⟨_, exec_cqDoorbell opened ok, ?_⟩
  rw [tail]
  by_cases empty : v.toNat = s.get (R.CQ_CFG.tail c.val q.val)
  · rw [if_pos empty, if_pos empty]
    exact ⟨(get_congr rfl _).trans head, sameMem_of_eq rfl rfl rfl rfl, rfl, congrArg CRing.since (cring_setCring ..)⟩
  · rw [if_neg empty, if_neg empty]
    exact ⟨head, sameMem_of_eq rfl rfl rfl rfl, rfl, rfl⟩

/-! ### The commit of a ring (R441) -/

theorem ringGroup_fields (c q : Nat) (cq : Bool) : Fields (ringGroup c q cq) := by
  cases cq <;> intro f memf g memg same <;>
    simp only [ringGroup, if_true, if_false, Bool.false_eq_true, List.mem_cons, List.not_mem_nil, or_false] at memf memg
  · rcases memf with rfl | rfl | rfl | rfl | rfl <;> rcases memg with rfl | rfl | rfl | rfl | rfl <;>
      simp only [R.SQ_CFG.base, R.SQ_CFG.en, R.SQ_CFG.cq, R.SQ_CFG.ver, R.SQ_CFG.size] at same ⊢ <;> omega
  · rcases memf with rfl | rfl | rfl | rfl | rfl | rfl <;> rcases memg with rfl | rfl | rfl | rfl | rfl | rfl <;>
      simp only [R.CQ_CFG.base, R.CQ_CFG.coal_us, R.CQ_CFG.en, R.CQ_CFG.vec, R.CQ_CFG.coal_cnt, R.CQ_CFG.size] at same ⊢ <;> omega

/-- The fields of a ring's group stand below its context's commit status, none of them its head or tail. -/
structure RingPlace (c q : Nat) (f : Fld) : Prop where
  low    : f.a < 8 * (0x100400 + 0x1000 * c)
  sqHead : f.a ≠ (R.SQ_CFG.head c q).a
  sqTail : f.a ≠ (R.SQ_CFG.tail c q).a
  cqHead : f.a ≠ (R.CQ_CFG.head c q).a
  cqTail : f.a ≠ (R.CQ_CFG.tail c q).a

theorem ringGroup_place {c q : Nat} (ring : q < 16) {cq : Bool} {f : Fld} (mem : f ∈ ringGroup c q cq) : RingPlace c q f := by
  cases cq <;> simp only [ringGroup, if_true, if_false, Bool.false_eq_true, List.mem_cons, List.not_mem_nil, or_false] at mem
  · rcases mem with rfl | rfl | rfl | rfl | rfl <;> constructor <;>
      simp only [R.SQ_CFG.base, R.SQ_CFG.en, R.SQ_CFG.cq, R.SQ_CFG.ver, R.SQ_CFG.size, R.SQ_CFG.head, R.SQ_CFG.tail, R.CQ_CFG.head, R.CQ_CFG.tail] <;> omega
  · rcases mem with rfl | rfl | rfl | rfl | rfl | rfl <;> constructor <;>
      simp only [R.CQ_CFG.base, R.CQ_CFG.coal_us, R.CQ_CFG.en, R.CQ_CFG.vec, R.CQ_CFG.coal_cnt, R.CQ_CFG.size, R.SQ_CFG.head, R.SQ_CFG.tail, R.CQ_CFG.head,
        R.CQ_CFG.tail] <;> omega

/-- The status of a ring's commit. -/
def rcStat (c q : Nat) (cq : Bool) (r : Nat) : List (Fld × Nat) :=
  [(R.RING_CSTAT.result c, r), (R.RING_CSTAT.kind c, b2n cq), (R.RING_CSTAT.ring c, q)]

theorem rcStat_values (s : State) (c : Nat) {q r : Nat} (cq : Bool) (ring : q < 16) (res : r < 4) :
    (s.puts (rcStat c q cq r)).get (R.RING_CSTAT.result c) = r ∧ (s.puts (rcStat c q cq r)).get (R.RING_CSTAT.ring c) = q := by
  have apart : ((rcStat c q cq r).map fun p => p.1.a).Nodup := by
    simp only [rcStat, List.map_cons, List.map_nil, List.nodup_cons, List.mem_cons, List.not_mem_nil, or_false, not_or, not_false_iff, List.nodup_nil, and_true,
      R.RING_CSTAT.result, R.RING_CSTAT.kind, R.RING_CSTAT.ring]
    omega
  exact ⟨(puts_get_of_nodup s apart (p := (R.RING_CSTAT.result c, r)) (by simp [rcStat])).trans (Nat.mod_eq_of_lt res),
    (puts_get_of_nodup s apart (p := (R.RING_CSTAT.ring c, q)) (by simp [rcStat])).trans (Nat.mod_eq_of_lt ring)⟩

theorem rcStat_get_other (s : State) (c q : Nat) (cq : Bool) (r : Nat) {g : Fld} (low : g.a < 8 * (0x100400 + 0x1000 * c)) :
    (s.puts (rcStat c q cq r)).get g = s.get g := by
  refine puts_get_other s ?_
  simp only [rcStat, List.forall_mem_cons, R.RING_CSTAT.result, R.RING_CSTAT.kind, R.RING_CSTAT.ring]
  exact ⟨by omega, by omega, by omega, by simp⟩

/-- A ring as its commit leaves it: a ring that is enabled begins empty, and a command that waits in one that is disabled ends. -/
def State.ringTaken (s : State) (c q : Nat) (cq : Bool) : State :=
  if cq = true then
    if s.flag (R.CQ_CFG.en c q) = true then (s.puts [(R.CQ_CFG.head c q, 0), (R.CQ_CFG.tail c q, 0)]).setCring c q ⟨true, 0⟩ else s
  else if s.flag (R.SQ_CFG.en c q) = true then s.puts [(R.SQ_CFG.head c q, 0), (R.SQ_CFG.tail c q, 0)]
  else if (s.sring c q).waits = true then
    s.setSring c q { s.sring c q with asked := 0, cmds := (s.sring c q).cmds.take 1, waits := false, done := some (3, 0, 0) }
  else s

/-- What is left of a state beside its registers, their shadows and its rings. -/
def State.unringed (s : State) : State := { s.unlogged with shadow := [], srings := [], crings := [] }

theorem unringed_of_uncommitted {s t : State} (same : t.uncommitted = s.uncommitted) : t.unringed = s.unringed :=
  (congrArg State.unringed same :)

theorem unringed_of_unlogged {s t : State} (same : t.unlogged = s.unlogged) : t.unringed = s.unringed :=
  congrArg (fun u : State => { u with shadow := [], srings := [], crings := [] }) same

theorem setSring_unringed (s : State) (c q : Nat) (x : SRing) : (s.setSring c q x).unringed = s.unringed := rfl

theorem setCring_unringed (s : State) (c q : Nat) (x : CRing) : (s.setCring c q x).unringed = s.unringed := rfl

theorem ringTaken_unringed (s : State) (c q : Nat) (cq : Bool) : (s.ringTaken c q cq).unringed = s.unringed := by
  have cleared (l : List (Fld × Nat)) : (s.puts l).unringed = s.unringed := unringed_of_unlogged (puts_unlogged s l)
  unfold State.ringTaken
  split
  · split
    · exact (setCring_unringed ..).trans (cleared _)
    · rfl
  · split
    · exact cleared _
    · split
      · exact setSring_unringed ..
      · rfl

theorem rest_of_unringed {s t : State} (same : t.unringed = s.unringed) : SameMem s t ∧ t.seqs = s.seqs :=
  ⟨sameMem_of_eq (congrArg State.mem same :) (congrArg State.bad same :) (congrArg State.plist same :) (congrArg State.linkErr same :),
    (congrArg State.seqs same :)⟩

theorem ringTaken_get (s : State) {c q : Nat} (cq : Bool) {g : Fld} (place : RingPlace c q g) : (s.ringTaken c q cq).get g = s.get g := by
  have cleared {f h : Fld} (apartf : g.a ≠ f.a) (aparth : g.a ≠ h.a) : (s.puts [(f, 0), (h, 0)]).get g = s.get g :=
    puts_get_other s (by simp [apartf, aparth])
  unfold State.ringTaken
  split
  · split
    · exact (setCring_get ..).trans (cleared place.cqHead place.cqTail)
    · rfl
  · split
    · exact cleared place.sqHead place.sqTail
    · split
      · exact setSring_get ..
      · rfl

theorem ringTaken_cq {s : State} {c q : Nat} (on : s.get (R.CQ_CFG.en c q) = 1) :
    s.ringTaken c q true = (s.puts [(R.CQ_CFG.head c q, 0), (R.CQ_CFG.tail c q, 0)]).setCring c q ⟨true, 0⟩ :=
  (if_pos rfl).trans (if_pos (flag_eq_true on))

theorem ringTaken_sq {s : State} {c q : Nat} (on : s.get (R.SQ_CFG.en c q) = 1) :
    s.ringTaken c q false = s.puts [(R.SQ_CFG.head c q, 0), (R.SQ_CFG.tail c q, 0)] :=
  (if_neg Bool.false_ne_true).trans (if_pos (flag_eq_true on))

theorem ringTaken_waiting {s : State} {c q : Nat} (off : s.get (R.SQ_CFG.en c q) = 0) (waits : (s.sring c q).waits = true) :
    s.ringTaken c q false =
      s.setSring c q { s.sring c q with asked := 0, cmds := (s.sring c q).cmds.take 1, waits := false, done := some (3, 0, 0) } :=
  (if_neg Bool.false_ne_true).trans ((if_neg (by rw [flag_eq_false off]; decide)).trans (if_pos waits))

theorem srings_of_unlogged {s t : State} (same : t.unlogged = s.unlogged) : t.srings = s.srings := (congrArg State.srings same :)

theorem puts_crings (s : State) (l : List (Fld × Nat)) : (s.puts l).crings = s.crings := (congrArg State.crings (puts_unlogged s l) :)

theorem seqs_of_unlogged {s t : State} (same : t.unlogged = s.unlogged) : t.seqs = s.seqs := (congrArg State.seqs same :)

section
variable {s : State} {c : Fin 64} {cq : Bool} {q : Fin 16} (opened : s.Open) (idle : s.get (R.RING_CSTAT.busy c.val) = 0)

include opened idle

theorem exec_ringCommit_refused (bad : s.ringBad c.val q.val cq = true) : exec (.ringCommit c cq q) s = .next (
    (s.raise E.CFG_COMMIT (some c.val) (atSteward 0) q.val).puts (rcStat c.val q.val cq 2)) :=
  congrArg Host.Outcome.next ((gated_of_open opened _ _).trans ((if_neg (by rw [State.flag, idle]; decide)).trans (if_pos bad)))

theorem exec_ringCommit (good : s.ringBad c.val q.val cq = false) : exec (.ringCommit c cq q) s = .next (
    ((s.commit (ringGroup c.val q.val cq)).ringTaken c.val q.val cq).puts (rcStat c.val q.val cq 1)) :=
  congrArg Host.Outcome.next ((gated_of_open opened _ _).trans ((if_neg (by rw [State.flag, idle]; decide)).trans (if_neg (by simp [good]))))

end

/-! ### Entries that arrive (R444) -/

/-- A fetched entry put behind the others. -/
def State.fetchOne (s : State) (c q : Nat) (e : BitVec 512) : State :=
  { (s.put (R.SQ_CFG.head c q) ((s.get (R.SQ_CFG.head c q) + 1) % s.get (R.SQ_CFG.size c q))).setSring c q
      { s.sring c q with
        asked := (s.sring c q).asked - 1
        cmds := (s.sring c q).cmds ++ [⟨KMap.find (fun _ => 0) s.fetched c, (s.get (R.SQ_CFG.head c q) + 1) % s.get (R.SQ_CFG.size c q), leBytes 64 e.toNat⟩] }
    with fetched := KMap.put (fun _ => 0) s.fetched c (KMap.find (fun _ => 0) s.fetched c + 1) }

theorem exec_ringFetch {s : State} {c : Fin 64} {q : Fin 16} {e : BitVec 512} (run : s.ringsRun c.val = true) (on : s.get (R.SQ_CFG.en c.val q.val) = 1)
    (asked : 0 < (s.sring c.val q.val).asked) : exec (.ringFetch c q [e]) s = .next (
      (if (s.sring c.val q.val).cmds.isEmpty = true then (s.fetchOne c.val q.val e).rcStart c.val q.val else s.fetchOne c.val q.val e).askFetch c.val q.val) := by
  have taken : [e].take (s.sring c.val q.val).asked = [e] := List.take_of_length_le asked
  have fetch : exec (.ringFetch c q [e]) s = execRingFetch c q [e] s := rfl
  rw [fetch, execRingFetch, taken]
  dsimp only
  rw [if_neg (by simp [run, State.flag, on])]
  rfl

/-- What a command's start leaves alone. -/
def State.unstarted (s : State) : State := { s.unlogged with srings := [] }

theorem rcEnd_unstarted (s : State) (c q st r0 r1 : Nat) : (s.rcEnd c q st r0 r1).unstarted = s.unstarted := rfl

theorem unstarted_of_unlogged {s t : State} (same : t.unlogged = s.unlogged) : t.unstarted = s.unstarted :=
  congrArg (fun u : State => { u with srings := [] }) same

theorem unstarted_of_unconfigured {s t : State} (same : t.unconfigured = s.unconfigured) : t.unstarted = s.unstarted :=
  (congrArg State.unstarted same :)

theorem rcFail_unstarted (s : State) (c q code st r0 : Nat) : (s.rcFail c q code st r0).unstarted = s.unstarted :=
  (rcEnd_unstarted ..).trans (unstarted_of_unlogged (raise_unlogged ..))

theorem rcEnd_sring (s : State) (c q st r0 r1 : Nat) :
    (s.rcEnd c q st r0 r1).sring c q = { s.sring c q with waits := false, io := false, done := some (st, r0, r1) } := sring_setSring ..

theorem rcFail_sring (s : State) (c q code st r0 : Nat) :
    (s.rcFail c q code st r0).sring c q = { s.sring c q with waits := false, io := false, done := some (st, r0, 0) } := by
  rw [State.rcFail, rcEnd_sring, sring_of_srings (srings_of_unlogged (raise_unlogged ..))]

theorem rcEnd_get (s : State) (c q st r0 r1 : Nat) (g : Fld) : (s.rcEnd c q st r0 r1).get g = s.get g := get_congr rfl g

theorem rcFail_get (s : State) (c q code st r0 : Nat) {g : Fld} (low : g.a < 8 * 0x3e00000) : (s.rcFail c q code st r0).get g = s.get g :=
  (rcEnd_get ..).trans (raise_get s low)

theorem rcStart_cases (s : State) (c q : Nat) : s.rcStart c q = s ∨ s.rcStart c q = s.rcFail c q E.CFG_CMD 16 0 := by
  unfold State.rcStart
  split
  · exact .inl rfl
  · dsimp only
    split
    · exact .inr rfl
    · exact .inl rfl

/-- The start of a command judges it: its ring's entries, and the registers below the log's, stay. -/
theorem rcStart_keeps (s : State) (c q : Nat) : (s.rcStart c q).unstarted = s.unstarted ∧ ((s.rcStart c q).sring c q).cmds = (s.sring c q).cmds ∧
    ∀ g : Fld, g.a < 8 * 0x3e00000 → (s.rcStart c q).get g = s.get g := by
  rcases rcStart_cases s c q with same | same <;> rw [same]
  · exact ⟨rfl, rfl, fun _ _ => rfl⟩
  · exact ⟨rcFail_unstarted .., by rw [rcFail_sring], fun g low => rcFail_get _ _ _ _ _ _ low⟩

theorem fetchOne_sring (s : State) (c q : Nat) (e : BitVec 512) : (s.fetchOne c q e).sring c q = { s.sring c q with
    asked := (s.sring c q).asked - 1
    cmds := (s.sring c q).cmds ++ [⟨KMap.find (fun _ => 0) s.fetched c, (s.get (R.SQ_CFG.head c q) + 1) % s.get (R.SQ_CFG.size c q), leBytes 64 e.toNat⟩] } :=
  sring_setSring ..

theorem fetchOne_head (s : State) {c q : Nat} (e : BitVec 512) (some : 0 < s.get (R.SQ_CFG.size c q)) :
    (s.fetchOne c q e).get (R.SQ_CFG.head c q) = (s.get (R.SQ_CFG.head c q) + 1) % s.get (R.SQ_CFG.size c q) := by
  have size : s.get (R.SQ_CFG.size c q) < 2 ^ 13 := State.get_lt s (R.SQ_CFG.size c q)
  have small := Nat.mod_lt (s.get (R.SQ_CFG.head c q) + 1) some
  refine (get_congr rfl _).trans ((State.get_put_same s (R.SQ_CFG.head c q) _).trans (Nat.mod_eq_of_lt ?_))
  exact lt_trans small size

theorem fetchOne_fetched (s : State) (c q : Nat) (e : BitVec 512) :
    KMap.find (fun _ => 0) (s.fetchOne c q e).fetched c = KMap.find (fun _ => 0) s.fetched c + 1 := by
  unfold State.fetchOne
  exact (KMap.find_put (fun _ => 0) s.fetched c c (KMap.find (fun _ => 0) s.fetched c + 1)).trans (if_pos rfl)

theorem rest_of_unstarted {s t : State} (same : t.unstarted = s.unstarted) : SameMem s t ∧ t.seqs = s.seqs ∧ t.fetched = s.fetched :=
  ⟨sameMem_of_eq (congrArg State.mem same :) (congrArg State.bad same :) (congrArg State.plist same :) (congrArg State.linkErr same :),
    (congrArg State.seqs same :), (congrArg State.fetched same :)⟩

/-- What one entry that arrives leaves. -/
theorem ringFetch_one {s : State} {c : Fin 64} {q : Fin 16} (e : BitVec 512) (run : s.ringsRun c.val = true) (on : s.get (R.SQ_CFG.en c.val q.val) = 1)
    (asked : 0 < (s.sring c.val q.val).asked) (some : 0 < s.get (R.SQ_CFG.size c.val q.val)) :
    ∃ t, exec (.ringFetch c q [e]) s = .next t ∧
      t.get (R.SQ_CFG.head c.val q.val) = (s.get (R.SQ_CFG.head c.val q.val) + 1) % s.get (R.SQ_CFG.size c.val q.val) ∧ SameMem s t ∧ t.seqs = s.seqs ∧
      (t.sring c.val q.val).cmds = (s.sring c.val q.val).cmds ++ [⟨KMap.find (fun _ => 0) s.fetched c.val,
        (s.get (R.SQ_CFG.head c.val q.val) + 1) % s.get (R.SQ_CFG.size c.val q.val), leBytes 64 e.toNat⟩] ∧
      KMap.find (fun _ => 0) t.fetched c.val = KMap.find (fun _ => 0) s.fetched c.val + 1 := by
  obtain ⟨u, made, same, cmds, regs⟩ : ∃ u, u = (if (s.sring c.val q.val).cmds.isEmpty = true then (s.fetchOne c.val q.val e).rcStart c.val q.val
      else s.fetchOne c.val q.val e) ∧ u.unstarted = (s.fetchOne c.val q.val e).unstarted ∧
      (u.sring c.val q.val).cmds = ((s.fetchOne c.val q.val e).sring c.val q.val).cmds ∧
      ∀ g : Fld, g.a < 8 * 0x3e00000 → u.get g = (s.fetchOne c.val q.val e).get g := by
    refine ⟨_, rfl, ?_⟩
    split
    · exact rcStart_keeps ..
    · exact ⟨rfl, rfl, fun _ _ => rfl⟩
  have asks := askFetch_unconfigured u c.val q.val
  obtain ⟨mem, seqs, fetched⟩ := rest_of_unstarted ((unstarted_of_unconfigured asks).trans same)
  refine ⟨_, (exec_ringFetch run on asked).trans (congrArg (fun u => Host.Outcome.next (State.askFetch u c.val q.val)) made.symm), ?_,
    SameMem.trans (sameMem_of_eq rfl rfl rfl rfl) mem, seqs, ?_, ?_⟩
  · rw [get_of_unconfigured asks, regs _ (by simp only [R.SQ_CFG.head]; omega), fetchOne_head s e some]
  · rw [askFetch_cmds, cmds, fetchOne_sring]
  · rw [fetched]
    exact fetchOne_fetched s _ _ e

/-! ### The obligation -/

/-- What a ring's commit leaves. -/
theorem ringCommit_taken {s : State} {c : Fin 64} {cq : Bool} {q : Fin 16} (opened : s.Open) (idle : s.get (R.RING_CSTAT.busy c.val) = 0)
    (good : s.ringBad c.val q.val cq = false) :
    ∃ t, exec (.ringCommit c cq q) s = .next t ∧ (∀ f ∈ ringGroup c.val q.val cq, t.get f = s.sget f) ∧
      t.get (R.RING_CSTAT.result c.val) = 1 ∧ t.get (R.RING_CSTAT.ring c.val) = q.val ∧ SameMem s t ∧ t.seqs = s.seqs ∧
      (cq = true → s.sget (R.CQ_CFG.en c.val q.val) = 1 →
        t.get (R.CQ_CFG.head c.val q.val) = 0 ∧ t.get (R.CQ_CFG.tail c.val q.val) = 0 ∧ t.cring c.val q.val = ⟨true, 0⟩) ∧
      (cq = false → s.sget (R.SQ_CFG.en c.val q.val) = 1 → t.get (R.SQ_CFG.head c.val q.val) = 0 ∧ t.get (R.SQ_CFG.tail c.val q.val) = 0) ∧
      (cq = false → s.sget (R.SQ_CFG.en c.val q.val) = 0 → (s.sring c.val q.val).waits = true → (t.sring c.val q.val).done = some (3, 0, 0)) := by
  have fields := ringGroup_fields c.val q.val cq
  have staged : ∀ f ∈ ringGroup c.val q.val cq, (s.commit (ringGroup c.val q.val cq)).get f = s.sget f := fun f mem => commit_get s fields mem
  have uncommitted := commit_uncommitted s (ringGroup c.val q.val cq)
  have rings : (s.commit (ringGroup c.val q.val cq)).srings = s.srings := (congrArg State.srings uncommitted :)
  have stat (w : State) := rcStat_values w c.val cq q.isLt (show 1 < 4 by decide)
  have outside {w : State} {g : Fld} (low : g.a < 8 * (0x100400 + 0x1000 * c.val)) := rcStat_get_other w c.val q.val cq 1 low
  obtain ⟨mem, seqs⟩ := rest_of_unringed (s := s) ((unringed_of_unlogged (puts_unlogged _ _)).trans
    ((ringTaken_unringed (s.commit (ringGroup c.val q.val cq)) c.val q.val cq).trans (unringed_of_uncommitted uncommitted)))
  refine ⟨_, exec_ringCommit opened idle good, fun f memf => ?_, (stat _).1, (stat _).2, mem, seqs, fun isCq on => ?_, fun isSq on => ?_, fun isSq off waits => ?_⟩
  · have place := ringGroup_place q.isLt memf
    rw [outside place.low, ringTaken_get _ _ place, staged f memf]
  · subst isCq
    have enabled := (staged (R.CQ_CFG.en c.val q.val) (by simp [ringGroup])).trans on
    have reset := puts_two (s.commit (ringGroup c.val q.val true)) (f := R.CQ_CFG.head c.val q.val) (g := R.CQ_CFG.tail c.val q.val) 0 0
      (by simp only [R.CQ_CFG.head, R.CQ_CFG.tail]; omega)
    rw [ringTaken_cq enabled, outside (by simp only [R.CQ_CFG.head]; omega), outside (by simp only [R.CQ_CFG.tail]; omega), setCring_get, setCring_get]
    exact ⟨reset.1, reset.2, (cring_of_crings (puts_crings _ _) _ _).trans (cring_setCring ..)⟩
  · subst isSq
    have enabled := (staged (R.SQ_CFG.en c.val q.val) (by simp [ringGroup])).trans on
    have reset := puts_two (s.commit (ringGroup c.val q.val false)) (f := R.SQ_CFG.head c.val q.val) (g := R.SQ_CFG.tail c.val q.val) 0 0
      (by simp only [R.SQ_CFG.head, R.SQ_CFG.tail]; omega)
    rw [ringTaken_sq enabled, outside (by simp only [R.SQ_CFG.head]; omega), outside (by simp only [R.SQ_CFG.tail]; omega)]
    exact reset
  · subst isSq
    have disabled := (staged (R.SQ_CFG.en c.val q.val) (by simp [ringGroup])).trans off
    rw [sring_of_srings (srings_of_unlogged (puts_unlogged _ _)), ringTaken_waiting disabled (by rw [sring_of_srings rings, waits]), sring_setSring]

/-- Settles O21, each clause by the command's own lemma. -/
theorem rings : Obligations.Rings := by
  intro s c q
  dsimp only
  refine ⟨fun size v opened => ⟨fun sizes on small => ?_, fun bad => ?_, fun sizes on small => ?_, fun bad => ?_⟩,
    fun size v shut => ⟨exec_sqDoorbell_shut shut, exec_cqDoorbell_shut shut⟩, fun opened idle cq => ⟨ringCommit_taken opened idle, fun bad => ?_⟩,
    fun e run on asked some => ringFetch_one e run on asked some⟩
  · exact sqDoorbell_moves opened ((bellOk_iff size v _).2 ⟨sizes, on, small⟩)
  · exact ⟨_, exec_sqDoorbell_ignored opened (not_bellOk bad), raise_get s (by simp only [R.SQ_CFG.tail]; omega), log_code_of_raise⟩
  · exact cqDoorbell_moves opened ((bellOk_iff size v _).2 ⟨sizes, on, small⟩)
  · exact ⟨_, exec_cqDoorbell_ignored opened (not_bellOk bad), raise_get s (by simp only [R.CQ_CFG.head]; omega), log_code_of_raise⟩
  · refine ⟨_, exec_ringCommit_refused opened idle bad, fun f memf => ?_, (rcStat_values _ c.val cq q.isLt (by decide)).1,
      sameMem_of_unlogged ((puts_unlogged ..).trans (raise_unlogged ..)), (puts_seqs _ _).trans (seqs_of_unlogged (raise_unlogged ..)), ?_⟩
    · have place := ringGroup_place q.isLt memf
      rw [rcStat_get_other _ _ _ _ _ place.low, raise_get s (lt_trans place.low (by omega))]
    · rw [puts_log]
      exact log_code_of_raise

end Sys2Proof.Machine

namespace Sys2Proof.Machine

-- One proof at a time: threads that wait for each other hold memory.
set_option Elab.async false

/-! ## Bytes that a ring command moves (R446) -/

theorem unavailable_unstored (s : State) (a : Nat) : s.unstored.unavailable a = s.unavailable a := rfl

theorem unavailable_congr {s t : State} (same : t.unstored = s.unstored) (a : Nat) : t.unavailable a = s.unavailable a := by
  rw [← unavailable_unstored t, same, unavailable_unstored]

theorem writeBad_of_badIn {s : State} {a n : Nat} (clean : s.badIn a n = []) : s.writeBad a n = false := by
  rw [State.writeBad, clean, List.any_nil]

/-- A write that meets no bad unit notes nothing. -/
theorem mergeNote_of_badIn {s : State} {ctx : Option Nat} {a n : Nat} (clean : s.badIn a n = []) : s.mergeNote ctx a n = s := by
  have noLink (some : n ≠ 0) : s.linkErr.filter (fun u => decide (a < u + 64 ∧ u < a + n) && !coversUnit a n u && (s.unavailable u).isNone) = [] := by
    obtain ⟨-, -, link⟩ := sound_of_badIn clean (Nat.pos_of_ne_zero some)
    refine List.filter_eq_nil_iff.2 fun u mem inside => link u mem ?_
    exact of_decide_eq_true (Bool.and_eq_true_iff.1 (Bool.and_eq_true_iff.1 inside).1).1
  unfold State.mergeNote
  simp only [writeBad_of_badIn clean, Bool.and_false, Bool.false_eq_true, if_false]
  cases regionOf a <;> exact ite_eq_left_iff.2 fun some => by rw [noLink some]; rfl

/-- What moving `bs` to sound memory at `a` gives. -/
structure MovedIn (s : State) (a : Nat) (bs : List Byte) (r : Moved) : Prop where
  rest : r.st.unstored = s.unstored
  n    : r.n = bs.length
  code : r.code = none
  bad  : r.bad = false
  byte : ∀ x, r.st.byte x = if a ≤ x then bs.getD (x - a) (s.byte x) else s.byte x

theorem movedIn_nil (s : State) (a : Nat) : MovedIn s a [] ⟨s, 0, none, false⟩ :=
  ⟨rfl, rfl, rfl, rfl, fun x => by simp⟩

/-- The bytes of a list put down in two parts. -/
theorem getD_take_drop (bs : List Byte) (a m x : Nat) (d : Byte) :
    (if a + m ≤ x then (bs.drop m).getD (x - (a + m)) (if a ≤ x then (bs.take m).getD (x - a) d else d)
      else if a ≤ x then (bs.take m).getD (x - a) d else d) = if a ≤ x then bs.getD (x - a) d else d := by
  by_cases above : a + m ≤ x
  · have beyond : (bs.take m).getD (x - a) d = d :=
      List.getD_eq_default _ _ (le_trans (List.length_take_le m bs) (by omega))
    rw [if_pos above, if_pos (by omega : a ≤ x), if_pos (by omega : a ≤ x), beyond, List.getD_eq_getElem?_getD, List.getElem?_drop,
      show m + (x - (a + m)) = x - a by omega, List.getD_eq_getElem?_getD]
  · rw [if_neg above]
    split
    · rw [List.getD_eq_getElem?_getD, List.getElem?_take_of_lt (by omega), List.getD_eq_getElem?_getD]
    · rfl

theorem moveIn_sound (k : Nat) : ∀ {a : Nat} {bs : List Byte} {s : State}, bs.length + a % 64 ≤ 64 * k →
    (0 < bs.length → s.sound a bs.length) →
    (∀ i, i < bs.length → s.unavailable (a + i) = none) → MovedIn s a bs (State.moveIn k a bs s) := by
  induction k with
  | zero =>
    intro a bs s fuel _ _
    rw [List.eq_nil_of_length_eq_zero (by omega : bs.length = 0)]
    exact movedIn_nil s a
  | succ k ih =>
    intro a bs s fuel sound free
    by_cases none_ : bs = []
    · subst none_
      exact movedIn_nil s a
    have some : 0 < bs.length := List.length_pos_of_ne_nil none_
    have room := Nat.mod_lt a (show 0 < 64 by decide)
    have first : s.unavailable a = none := free 0 some
    have taken : (bs.take (64 - a % 64)).length = min (64 - a % 64) bs.length := List.length_take
    have left : (bs.drop (64 - a % 64)).length = bs.length - (64 - a % 64) := List.length_drop
    have soundHere : s.sound a (bs.take (64 - a % 64)).length :=
      (sound some).mono (Nat.le_refl a) (Nat.add_le_add_left (List.length_take_le' _ bs) a)
    obtain ⟨rest, n, code, bad, byte⟩ := ih (a := a + (64 - a % 64)) (bs := bs.drop (64 - a % 64)) (s := s.write a (bs.take (64 - a % 64))) (by omega)
      (fun more => sound_write _ _ ((sound some).mono (by omega) (by omega)))
      (fun i lt => by
        rw [unavailable_congr (write_unstored s a _), Nat.add_assoc]
        exact free _ (by omega))
    have run : State.moveIn (k + 1) a bs s = ⟨(State.moveIn k (a + (64 - a % 64)) (bs.drop (64 - a % 64)) (s.write a (bs.take (64 - a % 64)))).st,
        min (64 - a % 64) bs.length + (State.moveIn k (a + (64 - a % 64)) (bs.drop (64 - a % 64)) (s.write a (bs.take (64 - a % 64)))).n,
        (State.moveIn k (a + (64 - a % 64)) (bs.drop (64 - a % 64)) (s.write a (bs.take (64 - a % 64)))).code,
        (State.moveIn k (a + (64 - a % 64)) (bs.drop (64 - a % 64)) (s.write a (bs.take (64 - a % 64)))).bad ||
          s.writeBad a (bs.take (64 - a % 64)).length⟩ := by
      rw [State.moveIn, if_neg none_, first]
    rw [run]
    refine ⟨rest.trans (write_unstored ..), ?_, code, ?_, fun x => ?_⟩
    · change min (64 - a % 64) bs.length + _ = bs.length
      rw [n, left]
      omega
    · rw [bad, writeBad_of_badIn (badIn_of_sound soundHere)]
      rfl
    · rw [byte, write_byte soundHere]
      exact getD_take_drop ..

/-- What a write to sound memory through S0 leaves. -/
structure MovedTo (s : State) (a : Nat) (bs : List Byte) (r : Moved) : Prop where
  rest  : r.st.unrouted.unstored = s.unrouted.unstored
  n     : r.n = bs.length
  code  : r.code = none
  bad   : r.bad = false
  data  : ∀ i, i < bs.length → r.st.byte (a + i) = bs.getD i 0
  other : SameMemBut s r.st a bs.length

theorem moveTo_sound {s : State} {c a : Nat} {bs : List Byte} (clean : s.badIn a bs.length = [])
    (free : ∀ i, i < bs.length → s.unavailable (a + i) = none) : MovedTo s a bs (s.moveTo c a bs) := by
  obtain ⟨rest, n, code, bad, byte⟩ := moveIn_sound (bs.length / 64 + 2) (bs := bs) (by omega) (fun some => sound_of_badIn clean some) free
  have moved : s.moveTo c a bs = { State.moveIn (bs.length / 64 + 2) a bs s with
      st := (State.moveIn (bs.length / 64 + 2) a bs s).st.crossing a (State.moveIn (bs.length / 64 + 2) a bs s).n
      bad := (State.moveIn (bs.length / 64 + 2) a bs s).bad || s.writeBad a (State.moveIn (bs.length / 64 + 2) a bs s).n } := by
    rw [State.moveTo, mergeNote_of_badIn clean]
  rw [moved]
  generalize State.moveIn (bs.length / 64 + 2) a bs s = r at rest n code bad byte
  have routed := crossing_unrouted r.st a r.n
  have mem := (sameMem_of_unrouted routed).1
  refine ⟨?_, n, code, ?_, fun i lt => ?_, fun x out => ?_⟩
  · exact (congrArg State.unstored routed).trans (congrArg State.unrouted rest)
  · change (r.bad || s.writeBad a r.n) = false
    rw [bad, n, writeBad_of_badIn clean, Bool.or_false]
  · refine (mem _).trans ?_
    rw [byte, if_pos (by omega), Nat.add_sub_cancel_left, List.getD_eq_getElem _ _ lt, List.getD_eq_getElem _ _ lt]
  · refine (mem _).trans ?_
    rw [byte]
    split
    · exact List.getD_eq_default _ _ (by omega)
    · rfl

/-! ### The pattern of a FILL -/

theorem length_leBytes (n v : Nat) : (leBytes n v).length = n := by
  induction n generalizing v with
  | zero => rfl
  | succ n ih => rw [leBytes, List.length_cons, ih]

theorem leBytes_getD (n v i : Nat) (d : Byte) (lt : i < n) : (leBytes n v).getD i d = BitVec.ofNat 8 (v / 256 ^ i) := by
  induction n generalizing v i with
  | zero => omega
  | succ n ih =>
    cases i with
    | zero =>
      rw [leBytes, List.getD_cons_zero, Nat.pow_zero, Nat.div_one]
      exact BitVec.eq_of_toNat_eq (by simp)
    | succ i => rw [leBytes, List.getD_cons_succ, ih _ _ (by omega), Nat.div_div_eq_div_mul, Nat.pow_succ, Nat.mul_comm]

theorem fillBytes_zero (p : List Byte) (n : Nat) (small : n < 4) : fillBytes p n = [] := by
  rw [fillBytes, Nat.div_eq_of_lt small]
  rfl

theorem fillBytes_add (p : List Byte) (n : Nat) : fillBytes p (n + 4) = p ++ fillBytes p n := by
  rw [fillBytes, Nat.add_div_right _ (by decide), List.replicate_succ, List.flatten_cons, fillBytes]

theorem length_fillBytes {p : List Byte} (word : p.length = 4) (n : Nat) : (fillBytes p n).length = n / 4 * 4 := by
  rw [fillBytes, List.length_flatten, List.map_replicate, List.sum_replicate, word, smul_eq_mul]

theorem fillBytes_getD {p : List Byte} (word : p.length = 4) (n i : Nat) (d : Byte) (lt : i < n / 4 * 4) :
    (fillBytes p n).getD i d = p.getD (i % 4) d := by
  induction i using Nat.strong_induction_on generalizing n with
  | _ i ih =>
    obtain ⟨m, rfl⟩ : ∃ m, n = m + 4 := ⟨n - 4, by omega⟩
    rw [fillBytes_add]
    by_cases first : i < 4
    · rw [List.getD_append _ _ _ _ (by omega), Nat.mod_eq_of_lt first]
    · rw [List.getD_append_right _ _ _ _ (by omega), word, ih (i - 4) (by omega) m (by omega), ← Nat.mod_eq_sub_mod (by omega)]

/-! ### Reads of sound memory -/

theorem readBad_mono {s : State} {a n b m : Nat} (clean : s.readBad a n = []) (some : 0 < n) (low : a ≤ b) (high : b + m ≤ a + n) : s.readBad b m = [] := by
  unfold State.readBad at *
  obtain ⟨words, quarantined⟩ := List.append_eq_nil_iff.1 clean
  rw [badIn_of_sound ((sound_of_badIn words some).mono low high), List.nil_append]
  refine List.filterMap_eq_nil_iff.2 fun e mem => ?_
  have apart := List.filterMap_eq_nil_iff.1 quarantined e mem
  refine if_neg fun meets => ?_
  obtain ⟨active, inside⟩ := Bool.and_eq_true_iff.1 meets
  have both := of_decide_eq_true inside
  have overlaps : (s.flag (R.HAUL_QUAR.active e.1) && decide (s.get (R.HAUL_QUAR.base e.1) < a + n ∧ a < s.get (R.HAUL_QUAR.base e.1) + e.2.1)) = true := by
    rw [active, decide_eq_true (by omega), Bool.and_self]
  exact Option.some_ne_none _ ((if_pos overlaps).symm.trans apart)

theorem bytes_append (s : State) (a m n : Nat) : s.bytes a m ++ s.bytes (a + m) n = s.bytes a (m + n) := by
  unfold State.bytes
  rw [List.range_add, List.map_append, List.map_map]
  exact congrArg _ (List.map_congr_left fun i _ => by rw [Function.comp, Nat.add_assoc])

theorem moveOut_zero (s : State) (k a : Nat) : s.moveOut k a 0 = ([], none) := by
  cases k <;> rfl

theorem moveOut_sound {s : State} (k : Nat) : ∀ {a n : Nat}, n + a % 64 ≤ 64 * k → s.readBad a n = [] → (∀ i, i < n → s.unavailable (a + i) = none) →
    s.moveOut k a n = (s.bytes a n, none) := by
  induction k with
  | zero =>
    intro a n fuel _ _
    rw [(by omega : n = 0)]
    rfl
  | succ k ih =>
    intro a n fuel clean free
    by_cases none_ : n = 0
    · subst none_
      rfl
    have some : 0 < n := Nat.pos_of_ne_zero none_
    have room := Nat.mod_lt a (show 0 < 64 by decide)
    have first : s.unavailable a = none := free 0 some
    have here : s.readBad a (min n (64 - a % 64)) = [] := readBad_mono clean some (Nat.le_refl a) (by omega)
    have rest : s.moveOut k (a + min n (64 - a % 64)) (n - min n (64 - a % 64)) =
        (s.bytes (a + min n (64 - a % 64)) (n - min n (64 - a % 64)), none) := by
      by_cases last : n ≤ 64 - a % 64
      · rw [(by omega : n - min n (64 - a % 64) = 0), moveOut_zero]
        rfl
      · exact ih (by omega) (readBad_mono clean some (by omega) (by omega)) fun i lt => by
          rw [Nat.add_assoc]
          exact free _ (by omega)
    rw [State.moveOut, if_neg none_, first]
    simp only [here, List.any_nil, Bool.false_eq_true, if_false, rest]
    refine Prod.ext ?_ rfl
    exact (bytes_append s a (min n (64 - a % 64)) (n - min n (64 - a % 64))).trans (congrArg _ (by omega))

theorem moveOut_granules {s : State} {a n : Nat} (clean : s.readBad a n = []) (free : ∀ i, i < n → s.unavailable (a + i) = none) :
    s.moveOut (granules n) a n = (s.bytes a n, none) := moveOut_sound _ (by unfold granules; omega) clean free

/-! ## NOP, FILL, COPY and FENCE (R443, R446) -/

theorem rcRun_of {s : State} {c q op : Nat} {e : List Byte} {go : List Byte → State → State} (cur : s.rcur c q = some e) (run : s.ringsRun c = true)
    (idle : (s.sring c q).io = false) (code : rcOp e = op) : s.rcRun c q op go = go e s := by
  rw [State.rcRun, cur]
  exact if_pos ⟨code, run, idle⟩

section
variable {s : State} {c : Fin 64} {q : Fin 16} {e : List Byte} (cur : s.rcur c.val q.val = some e) (run : s.ringsRun c.val = true)
  (idle : (s.sring c.val q.val).io = false)

include cur run idle

theorem exec_cmdNop (code : rcOp e = 0) : exec (.cmdNop c q) s = .next (s.rcEnd c.val q.val 0 0 0) :=
  congrArg Host.Outcome.next (rcRun_of cur run idle code)

theorem exec_cmdFill (code : rcOp e = 2) : exec (.cmdFill c q) s = .next (
    if fieldAt e 24 8 = 0 then s.rcEnd c.val q.val 0 0 0
    else if (!s.permits c.val (rcDev e) (fieldAt e 24 8) true) = true then
      (s.permLog (s.entryLd (rcDev e)) c.val (rcDev e) (fieldAt e 24 8) 5 true).rcEnd c.val q.val 32 0 0
    else State.wroteEnd c.val q.val (rcDev e) (s.moveTo c.val (rcDev e) (fillBytes (leBytes 4 (fieldAt e 32 4)) (fieldAt e 24 8)))) :=
  congrArg Host.Outcome.next (rcRun_of cur run idle code)

theorem exec_cmdCopy (code : rcOp e = 1) : exec (.cmdCopy c q) s = .next (
    if fieldAt e 24 8 = 0 then s.rcEnd c.val q.val 0 0 0
    else if (!s.permits c.val (rcDev e) (fieldAt e 24 8) (!bit (fieldAt e 32 1) 0)) = true then
      (s.permLog (s.entryLd (rcDev e)) c.val (rcDev e) (fieldAt e 24 8) 5 (!bit (fieldAt e 32 1) 0)).rcEnd c.val q.val 32 0 0
    else if (s.fn c.val).bme = false then s.rcWait c.val q.val
    else if bit (fieldAt e 32 1) 0 = true then
      let r := s.moveOut (granules (fieldAt e 24 8)) (rcDev e) (fieldAt e 24 8)
      let u := ((s.noteUse (some c.val) (rcDev e) r.1.length).crossing (rcDev e) r.1.length).emit (.hostWrite c.val (fieldAt e 8 8) r.1)
      match r.2 with
      | some code => u.rcDown c.val q.val code (rcDev e + r.1.length) r.1.length
      | none => u.rcEnd c.val q.val (if (!(s.readBad (rcDev e) r.1.length).isEmpty) = true then 34 else 0) (fieldAt e 24 8) 0
    else (s.setSring c.val q.val { s.sring c.val q.val with io := true, waits := false }).emit
      (.hostRead c.val (fieldAt e 8 8) (fieldAt e 24 8) (16 + q.val))) :=
  congrArg Host.Outcome.next (rcRun_of cur run idle code)

theorem exec_cmdFence (code : rcOp e = 5) {r : RCmd} {rs : List RCmd} (first : (s.sring c.val q.val).cmds = r :: rs) : exec (.cmdFence c q) s = .next (
    if ((List.range 16).any fun i => (s.sring c.val i).cmds.any fun x => decide (x.num < r.num)) = true then s.rcWait c.val q.val
    else s.rcEnd c.val q.val 0 0 0) := by
  refine congrArg Host.Outcome.next ((rcRun_of cur run idle code).trans ?_)
  rw [first]

end

theorem exec_hostRead_copy {s : State} {c : Fin 64} {q : Fin 16} {e : List Byte} (cur : s.rcur c.val q.val = some e) (io : (s.sring c.val q.val).io = true)
    (code : rcOp e = 1) (ok : Bool) (data : List Byte) : exec (.hostReadCompletion c q ok data) s = .next (
      if ok = true then State.wroteEnd c.val q.val (rcDev e) (s.moveTo c.val (rcDev e) data) else s.rcFail c.val q.val E.CFG_HOST_DMA 33 0) := by
  have reads : exec (.hostReadCompletion c q ok data) s = execHostReadCompletion c q ok data s := rfl
  rw [reads, execHostReadCompletion, cur]
  dsimp only
  rw [if_neg (by rw [io]; decide), if_pos code]

/-- The end of a ring's command. -/
def RcEnds (s t : State) (c q st r0 : Nat) : Prop :=
  (t.sring c q).done = some (st, r0, 0) ∧ (t.sring c q).waits = false ∧ t.seqs = s.seqs

theorem rcEnds_rcEnd {s u : State} (seqs : u.seqs = s.seqs) (c q st r0 : Nat) : RcEnds s (u.rcEnd c q st r0 0) c q st r0 :=
  ⟨congrArg SRing.done (rcEnd_sring ..), congrArg SRing.waits (rcEnd_sring ..), seqs⟩

theorem rcEnd_sameMem {s u : State} (mem : SameMem s u) (c q st r0 r1 : Nat) : SameMem s (u.rcEnd c q st r0 r1) :=
  mem.trans (sameMem_of_eq rfl rfl rfl rfl)

theorem rcEnd_log (s : State) (c q st r0 r1 : Nat) : (s.rcEnd c q st r0 r1).log = s.log := rfl

theorem emit_seqs (s : State) (o : Out) : (s.emit o).seqs = s.seqs := rfl

theorem rcEnd_byte (s : State) (c q st r0 r1 x : Nat) : (s.rcEnd c q st r0 r1).byte x = s.byte x := rfl

theorem seqs_of_unrouted_unstored {s t : State} (same : t.unrouted.unstored = s.unrouted.unstored) : t.seqs = s.seqs := (congrArg State.seqs same :)

/-- A command whose bytes all come to sound memory ends with status 0. -/
theorem wroteEnd_sound {s : State} {c q a : Nat} {bs : List Byte} (clean : s.badIn a bs.length = [])
    (free : ∀ i, i < bs.length → s.unavailable (a + i) = none) :
    let t := State.wroteEnd c q a (s.moveTo c a bs)
    RcEnds s t c q 0 bs.length ∧ SameMemBut s t a bs.length ∧ ∀ i, i < bs.length → t.byte (a + i) = bs.getD i 0 := by
  obtain ⟨rest, n, code, bad, data, other⟩ := moveTo_sound (c := c) clean free
  have ends : State.wroteEnd c q a (s.moveTo c a bs) = (s.moveTo c a bs).st.rcEnd c q 0 bs.length 0 := by
    rw [State.wroteEnd, code, bad, n]
    rfl
  dsimp only
  rw [ends]
  exact ⟨rcEnds_rcEnd (seqs_of_unrouted_unstored rest) .., other, data⟩

/-- A read of the device that meets no bad byte, sent to the host. -/
theorem copyOut_sound {s : State} {c q a n h : Nat} (clean : s.readBad a n = []) :
    let t := (((s.noteUse (some c) a n).crossing a n).emit (.hostWrite c h (s.bytes a n))).rcEnd c q 0 n 0
    RcEnds s t c q 0 n ∧ SameMem s t ∧ t.out.head? = some (.hostWrite c h (s.bytes a n)) := by
  have noted := noteUse_of_readBad (ctx := some c) clean
  have fixed := fixSoft_unfixed s a n
  have routed := crossing_unrouted (s.fixSoft a n) a n
  have seqs : (s.fixSoft a n).seqs = s.seqs := (congrArg State.seqs fixed :)
  have mem : SameMem s (s.fixSoft a n) :=
    sameMem_of_eq (congrArg State.mem fixed :) (congrArg State.bad fixed :) (congrArg State.plist fixed :) (congrArg State.linkErr fixed :)
  dsimp only
  rw [noted]
  exact ⟨rcEnds_rcEnd ((emit_seqs _ _).trans ((seqs_of_unrouted routed).trans seqs)) .., rcEnd_sameMem (sameMem_emit (mem.trans (sameMem_of_unrouted routed)) _) .., rfl⟩

/-- The end of a command after an error that has been logged. -/
theorem rcEnd_logged {s u : State} {code : Nat} (same : u.unlogged = s.unlogged) (logged : u.log.head?.map LogEntry.code = some code) (c q st r0 : Nat) :
    RcEnds s (u.rcEnd c q st r0 0) c q st r0 ∧ SameMem s (u.rcEnd c q st r0 0) ∧ (u.rcEnd c q st r0 0).log.head?.map LogEntry.code = some code :=
  ⟨rcEnds_rcEnd (seqs_of_unlogged same) .., rcEnd_sameMem (sameMem_of_unlogged same) .., by rw [rcEnd_log, logged]⟩

theorem done_of_rcur {s : State} {c q : Nat} {e : List Byte} (cur : s.rcur c q = some e) : (s.sring c q).done = none := by
  unfold State.rcur at cur
  dsimp only at cur
  split at cur
  · next done => exact done
  · cases cur

/-- Settles O22, by the commands' own lemmas. -/
theorem ringTransfers : Obligations.RingTransfers := by
  intro s c q e
  dsimp only
  intro cur run
  refine ⟨fun idle => ⟨fun code => ?_, fun code none_ => ?_, fun code some word permits free clean => ?_, fun code some refused => ?_,
    fun code some out permits master free clean => ?_, fun code some in_ permits master => ?_, fun code r rs first => ⟨fun oldest => ?_, fun i x ring mem older => ?_⟩⟩,
    fun io code data => ⟨fun free clean => ?_, ?_⟩⟩
  · exact ⟨_, exec_cmdNop cur run idle code, rcEnds_rcEnd rfl .., rcEnd_sameMem (.refl s) .., rfl⟩
  · exact ⟨_, (exec_cmdFill cur run idle code).trans (congrArg _ (if_pos none_)), rcEnds_rcEnd rfl .., rcEnd_sameMem (.refl s) ..⟩
  · have length : (fillBytes (leBytes 4 (fieldAt e 32 4)) (fieldAt e 24 8)).length = fieldAt e 24 8 := by
      rw [length_fillBytes (length_leBytes 4 _)]
      omega
    obtain ⟨ends, other, bytes⟩ := wroteEnd_sound (s := s) (c := c.val) (q := q.val) (a := rcDev e)
      (bs := fillBytes (leBytes 4 (fieldAt e 32 4)) (fieldAt e 24 8)) (by rw [length]; exact clean) (fun i lt => free i (by omega))
    rw [length] at ends other bytes
    refine ⟨_, (exec_cmdFill cur run idle code).trans (congrArg _ ((if_neg some.ne').trans (if_neg (by simp [permits])))), ends, other, fun i lt => ?_⟩
    rw [bytes i lt, fillBytes_getD (length_leBytes 4 _) _ _ _ (by omega), leBytes_getD _ _ _ _ (Nat.mod_lt _ (by decide))]
  · exact ⟨_, (exec_cmdFill cur run idle code).trans (congrArg _ ((if_neg some.ne').trans (if_pos (by rw [refused]; rfl)))),
      rcEnd_logged (permLog_unlogged ..) (permLog_code ..) ..⟩
  · have moved := moveOut_granules clean free
    refine ⟨_, (exec_cmdCopy cur run idle code).trans (congrArg _ ((if_neg some.ne').trans ((if_neg (by simp [out, permits])).trans
      ((if_neg (by simp [master])).trans (if_pos out))))), ?_⟩
    simp only [moved, length_bytes, clean, List.isEmpty_nil, Bool.not_true, Bool.false_eq_true, if_false]
    exact copyOut_sound clean
  · refine ⟨_, (exec_cmdCopy cur run idle code).trans (congrArg _ ((if_neg some.ne').trans ((if_neg (by simp [in_, permits])).trans
      ((if_neg (by simp [master])).trans (if_neg (by simp [in_])))))), congrArg SRing.io (sring_setSring ..), sameMem_of_eq rfl rfl rfl rfl, rfl⟩
  · have none_ : ((List.range 16).any fun i => (s.sring c.val i).cmds.any fun x => decide (x.num < r.num)) = false :=
      List.any_eq_false.2 fun i ring => by
        simpa [List.any_eq_true, Nat.not_lt] using oldest i (List.mem_range.1 ring)
    exact ⟨_, (exec_cmdFence cur run idle code first).trans (congrArg _ (if_neg (by rw [none_]; decide))), rcEnds_rcEnd rfl .., rcEnd_sameMem (.refl s) ..⟩
  · have any : ((List.range 16).any fun i => (s.sring c.val i).cmds.any fun x => decide (x.num < r.num)) = true :=
      List.any_eq_true.2 ⟨i, List.mem_range.2 ring, List.any_eq_true.2 ⟨x, mem, decide_eq_true older⟩⟩
    exact ⟨_, (exec_cmdFence cur run idle code first).trans (congrArg _ (if_pos any)), congrArg SRing.waits (sring_setSring ..),
      (congrArg SRing.done (sring_setSring ..)).trans (done_of_rcur cur), sameMem_of_eq rfl rfl rfl rfl⟩
  · exact ⟨_, (exec_hostRead_copy cur io code true data).trans (congrArg _ (if_pos rfl)), wroteEnd_sound clean free⟩
  · exact ⟨_, (exec_hostRead_copy cur io code false data).trans (congrArg _ (if_neg Bool.false_ne_true)),
      rcEnd_logged (raise_unlogged ..) log_code_of_raise ..⟩

end Sys2Proof.Machine

namespace Sys2Proof.Machine

-- One proof at a time: threads that wait for each other hold memory.
set_option Elab.async false

/-! ## The start-up from the steward ROM row (R464, R466, R470, R508) -/

/-- What is left of a state beside what a start-up changes. -/
def State.unbooted (s : State) : State := { s.unlogged with idKeys := [], farKey := [], fw := Fw.mk [] 0 none 0 false, recov := [], boot := 0 }

theorem unbooted_of_unlogged {s t : State} (same : t.unlogged = s.unlogged) : t.unbooted = s.unbooted :=
  congrArg (fun u : State => { u with idKeys := [], farKey := [], fw := Fw.mk [] 0 none 0 false, recov := [], boot := 0 }) same

theorem setDomains_eq (s : State) (r : Nat) : ∃ x y, s.setDomains r = ((s.put (R.PWR_PD.on 0) x).put (R.PWR_PD.on 1) y).deriveKeys := ⟨_, _, rfl⟩

theorem setDomains_get (s : State) (r : Nat) {g : Fld} (apart : g.a ≠ (R.PWR_PD.on 0).a ∧ g.a ≠ (R.PWR_PD.on 1).a) : (s.setDomains r).get g = s.get g := by
  obtain ⟨x, y, eq⟩ := setDomains_eq s r
  rw [eq, get_congr (deriveKeys_regs _), State.get_put_other _ _ _ _ apart.2, State.get_put_other _ _ _ _ apart.1]

theorem deriveKeys_unbooted (s : State) : s.deriveKeys.unbooted = s.unbooted := rfl

theorem setDomains_unbooted (s : State) (r : Nat) : (s.setDomains r).unbooted = s.unbooted := by
  obtain ⟨x, y, eq⟩ := setDomains_eq s r
  rw [eq, deriveKeys_unbooted]
  rfl

theorem deriveKeys_log (s : State) : s.deriveKeys.log = s.log := rfl

theorem setDomains_log (s : State) (r : Nat) : (s.setDomains r).log = s.log := by
  obtain ⟨x, y, eq⟩ := setDomains_eq s r
  rw [eq, deriveKeys_log]
  rfl

theorem loadFarKey_unbooted (s : State) (h : Nat) : (s.loadFarKey h).unbooted = s.unbooted := rfl

theorem loadFarKey_get (s : State) (h : Nat) (g : Fld) : (s.loadFarKey h).get g = s.get g := get_congr rfl g

theorem loadFarKey_bankBoots (s : State) (b : BootIn) (i h k : Nat) : (s.loadFarKey i).bankBoots b h k = s.bankBoots b h k := rfl

theorem loadFarKey_sealOk (s : State) (b : BootIn) (i h : Nat) : (s.loadFarKey i).sealOk b h = s.sealOk b h := rfl

theorem setRecov_unbooted (s : State) (h : Nat) (on : Bool) : (s.setRecov h on).unbooted = s.unbooted := rfl

theorem withSel_unbooted (s : State) (f : Fw) : ({ s with fw := f } : State).unbooted = s.unbooted := rfl

theorem withBoot_unbooted (s : State) (n : Nat) : ({ s with boot := n } : State).unbooted = s.unbooted := rfl

theorem raise_log_length (s : State) (code : Nat) (ctx : Option Nat) (w : Where) (detail : Nat) :
    (s.raise code ctx w detail).log.length ≤ s.log.length + 1 := by
  unfold State.raise
  rw [logAs_log, List.length_take, List.length_cons]
  exact Nat.min_le_right _ _

/-- What a step of the start-up leaves: all but what `unbooted` forgets, the registers below the log's, and at most `n` entries more. -/
structure Boots (s t : State) (n : Nat) : Prop where
  rest : t.unbooted = s.unbooted
  log  : t.log.length ≤ s.log.length + n
  regs : ∀ g : Fld, g.a < 8 * 0x3c00000 → g.a ≠ R.PWR_STAT.ceiling.a → g.a ≠ (R.CTX_STATE.state 0).a → g.a ≠ (R.PWR_PD.on 0).a →
    g.a ≠ (R.PWR_PD.on 1).a → t.get g = s.get g

theorem Boots.trans {s t u : State} {n m : Nat} (first : Boots s t n) (second : Boots t u m) : Boots s u (n + m) :=
  ⟨second.rest.trans first.rest, by have := first.log; have := second.log; omega,
    fun g low a b c d => (second.regs g low a b c d).trans (first.regs g low a b c d)⟩

theorem boots_raise (s : State) (code : Nat) (ctx : Option Nat) (w : Where) (detail : Nat) : Boots s (s.raise code ctx w detail) 1 :=
  ⟨unbooted_of_unlogged (raise_unlogged ..), raise_log_length .., fun g low _ _ _ _ => raise_get s (by omega)⟩

theorem bankFails_boots (s : State) (b : BootIn) (h k : Nat) : Boots s (s.bankFails b h k) 1 := boots_raise ..

theorem boots_refl (s : State) (n : Nat) : Boots s s n := ⟨rfl, Nat.le_add_right _ _, fun _ _ _ _ _ _ => rfl⟩

theorem boots_of_regs {s t : State} (rest : t.unbooted = s.unbooted) (log : t.log = s.log) (regs : t.regs = s.regs) : Boots s t 0 :=
  ⟨rest, by rw [log]; exact Nat.le_refl _, fun g _ _ _ _ _ => get_congr regs g⟩

theorem boots_put (s : State) {f : Fld} (v : Nat) (outside : 8 * 0x3c00000 ≤ f.a ∨ f.a = R.PWR_STAT.ceiling.a ∨ f.a = (R.CTX_STATE.state 0).a ∨
    f.a = (R.PWR_PD.on 0).a ∨ f.a = (R.PWR_PD.on 1).a) : Boots s (s.put f v) 0 := by
  refine ⟨unbooted_of_unlogged (put_unlogged ..), Nat.le_refl _, fun g low a b c d => State.get_put_other _ _ _ _ fun same => ?_⟩
  omega

theorem boots_withSel (s : State) (f : Fw) : Boots s { s with fw := f } 0 := boots_of_regs rfl rfl rfl

theorem boots_withBoot (s : State) (n : Nat) : Boots s { s with boot := n } 0 := boots_of_regs rfl rfl rfl

theorem Boots.mono {s t : State} {n m : Nat} (boots : Boots s t n) (le : n ≤ m) : Boots s t m :=
  ⟨boots.rest, le_trans boots.log (Nat.add_le_add_left le _), boots.regs⟩

theorem bootHalf_boots (s : State) (b : BootIn) (h k : Nat) : Boots s (s.bootHalf b h k).1 2 := by
  unfold State.bootHalf
  split
  · exact boots_refl s 2
  · have first := bankFails_boots s b h k
    dsimp only
    split
    · exact (first.trans (boots_withSel ..)).mono (by decide)
    · split
      · exact first.trans (bankFails_boots _ b h (1 - k))
      · exact first.mono (by decide)

theorem bootHalf_good {s : State} {b : BootIn} {h k : Nat} (good : s.bankBoots b h k = true) : s.bootHalf b h k = (s, some k) := if_pos good

theorem boots_setDomains (s : State) (r : Nat) : Boots s (s.setDomains r) 0 :=
  ⟨setDomains_unbooted s r, by rw [setDomains_log]; exact Nat.le_refl _, fun _ _ _ _ on0 on1 => setDomains_get s r ⟨on0, on1⟩⟩

theorem boots_setRecov (s : State) (h : Nat) (on : Bool) : Boots s (s.setRecov h on) 0 :=
  (boots_of_regs rfl rfl rfl : Boots s { s with recov := KMap.put (fun _ => false) s.recov h on } 0).trans
    (boots_put _ _ (.inl (by simp only [R.SEC_STAT.recovery]; omega)))

theorem boots_loadFarKey (s : State) (h : Nat) : Boots s (s.loadFarKey h) 0 := boots_of_regs rfl rfl rfl

/-- What the halves' banks are, and the start of the measurements, in registers. -/
def bootPuts (a b ceiling : Nat) : List (Fld × Nat) :=
  [(R.SEC_STAT.bank_a, a), (R.SEC_STAT.bank_b, b), (R.SEC_STAT.measuring, 1), (R.PWR_STAT.ceiling, ceiling), (R.CTX_STATE.state 0, 1)]

theorem boots_bootPuts (s : State) (a b ceiling : Nat) : Boots s (s.puts (bootPuts a b ceiling)) 0 := by
  refine ⟨unbooted_of_unlogged (puts_unlogged ..), by rw [puts_log]; exact Nat.le_refl _, fun g low ceil ctx _ _ => puts_get_other s ?_⟩
  simp only [bootPuts, List.forall_mem_cons, R.SEC_STAT.bank_a, R.SEC_STAT.bank_b, R.SEC_STAT.measuring]
  exact ⟨by omega, by omega, by omega, ceil, ctx, by simp⟩

theorem boots_foldl {α : Type} {f : State → α → State} (each : ∀ s x, Boots s (f s x) 1) (l : List α) (s : State) : Boots s (l.foldl f s) l.length := by
  induction l generalizing s with
  | nil => exact boots_refl s 0
  | cons x l ih => exact ((each s x).trans (ih (f s x))).mono (by rw [List.length_cons]; omega)

/-- A steward that cannot open its sealed items holds. -/
theorem bootUp_held {s : State} {b : BootIn} (broken : ¬(s.sealOk b 0 = true ∧ s.sealOk b 1 = true)) :
    (s.bootUp b).boot = 6 ∧ Boots s (s.bootUp b) 4 := by
  have held : s.bootUp b = { ((List.range 2).filter fun h => !s.sealOk b h).foldl (fun s h => s.raise E.SEC_SEALED none (atSteward h) h)
      { s with idKeys := (List.range 2).map fun i => (i, (Config.identityKey 0 i).toNat) } with boot := 6 } := if_pos (by
    rw [Bool.not_eq_true', Bool.eq_false_iff, Ne, Bool.and_eq_true]
    exact broken)
  rw [held]
  have few : ((List.range 2).filter fun h => !s.sealOk b h).length ≤ 2 := List.length_filter_le ..
  exact ⟨rfl, ((boots_of_regs rfl rfl rfl : Boots s { s with idKeys := (List.range 2).map fun i => (i, (Config.identityKey 0 i).toNat) } 0).trans
    ((boots_foldl (fun _ _ => boots_raise ..) _ _).trans (boots_withBoot ..))).mono (by omega)⟩

theorem bootUp_whole {s : State} {b : BootIn} (whole : s.sealOk b 0 = true ∧ s.sealOk b 1 = true) : s.bootUp b =
    (let r0 := ((s.loadFarKey 0).loadFarKey 1).bootHalf b 0 s.fw.sel
     let r1 := r0.1.bootHalf b 1 s.fw.sel
     let t := (r1.1.puts (bootPuts (r0.2.getD s.fw.sel) (r1.2.getD s.fw.sel) r1.1.ceilingTop)).setDomains 0
     if (r0.2.isSome && r1.2.isSome) = true then { t with boot := 2 } else { (t.setRecov 0 r0.2.isNone).setRecov 1 r1.2.isNone with boot := 5 }) :=
  if_neg (by rw [whole.1, whole.2]; decide)

theorem bootUp_boots (s : State) (b : BootIn) : Boots s (s.bootUp b) 4 := by
  by_cases whole : s.sealOk b 0 = true ∧ s.sealOk b 1 = true
  · rw [bootUp_whole whole]
    dsimp only
    have halves := (((boots_loadFarKey s 0).trans (boots_loadFarKey _ 1)).trans (bootHalf_boots _ b 0 s.fw.sel)).trans (bootHalf_boots _ b 1 s.fw.sel)
    have domains (a k c : Nat) := (halves.trans (boots_bootPuts _ a k c)).trans (boots_setDomains _ 0)
    split
    · exact (domains ..).trans (boots_withBoot ..)
    · exact (((domains ..).trans (boots_setRecov ..)).trans (boots_setRecov ..)).trans (boots_withBoot ..)
  · exact (bootUp_held whole).2

/-- Both halves boot the selected bank. -/
theorem bootUp_good {s : State} {b : BootIn} (whole : s.sealOk b 0 = true ∧ s.sealOk b 1 = true) (good0 : s.bankBoots b 0 s.fw.sel = true)
    (good1 : s.bankBoots b 1 s.fw.sel = true) : s.bootUp b =
    { (((s.loadFarKey 0).loadFarKey 1).puts (bootPuts s.fw.sel s.fw.sel ((s.loadFarKey 0).loadFarKey 1).ceilingTop)).setDomains 0 with boot := 2 } := by
  have first : ((s.loadFarKey 0).loadFarKey 1).bootHalf b 0 s.fw.sel = ((s.loadFarKey 0).loadFarKey 1, some s.fw.sel) := bootHalf_good good0
  have second : ((s.loadFarKey 0).loadFarKey 1).bootHalf b 1 s.fw.sel = ((s.loadFarKey 0).loadFarKey 1, some s.fw.sel) := bootHalf_good good1
  rw [bootUp_whole whole]
  simp only [first, second, Option.isSome_some, Bool.and_self, if_true, Option.getD_some]

/-- What a start-up leaves of the state beside its registers. -/
structure Untouched (s t : State) : Prop where
  mem     : SameMem s t
  seqs    : t.seqs = s.seqs
  flumes  : t.flumes = s.flumes
  won     : t.won = s.won
  scaler  : t.scaler = s.scaler
  pending : t.pending = s.pending
  slotId  : t.slotId = s.slotId
  tick0   : t.tick0 = s.tick0
  now     : t.now = s.now
  refclk  : t.refclk = s.refclk

theorem untouched_of_unbooted {s t : State} (same : t.unbooted = s.unbooted) : Untouched s t :=
  ⟨sameMem_of_eq (congrArg State.mem same :) (congrArg State.bad same :) (congrArg State.plist same :) (congrArg State.linkErr same :),
    (congrArg State.seqs same :), (congrArg State.flumes same :), (congrArg State.won same :), (congrArg State.scaler same :),
    (congrArg State.pending same :), (congrArg State.slotId same :), (congrArg State.tick0 same :), (congrArg State.now same :),
    (congrArg State.refclk same :)⟩

/-- What both halves' boot of the selected bank leaves. -/
structure Booted (s t : State) : Prop where
  boot     : t.boot = 2
  context  : t.get (R.CTX_STATE.state 0) = 1
  bankA    : t.get R.SEC_STAT.bank_a = s.fw.sel % 2
  bankB    : t.get R.SEC_STAT.bank_b = s.fw.sel % 2
  recovery : t.get R.SEC_STAT.recovery = s.get R.SEC_STAT.recovery

theorem bootPuts_apart (a b c : Nat) : ((bootPuts a b c).map fun p => p.1.a).Nodup :=
  show [R.SEC_STAT.bank_a.a, R.SEC_STAT.bank_b.a, R.SEC_STAT.measuring.a, R.PWR_STAT.ceiling.a, (R.CTX_STATE.state 0).a].Nodup by decide

theorem withBoot_get (s : State) (n : Nat) (g : Fld) : ({ s with boot := n } : State).get g = s.get g := get_congr rfl g

theorem booted_bootUp {s : State} {b : BootIn} (whole : s.sealOk b 0 = true ∧ s.sealOk b 1 = true) (good0 : s.bankBoots b 0 s.fw.sel = true)
    (good1 : s.bankBoots b 1 s.fw.sel = true) : Booted s (s.bootUp b) := by
  rw [bootUp_good whole good0 good1]
  have at_ {p : Fld × Nat} (mem : p ∈ bootPuts s.fw.sel s.fw.sel ((s.loadFarKey 0).loadFarKey 1).ceilingTop)
      (apart : p.1.a ≠ (R.PWR_PD.on 0).a ∧ p.1.a ≠ (R.PWR_PD.on 1).a) :=
    (withBoot_get _ 2 p.1).trans ((setDomains_get _ 0 apart).trans
      (puts_get_of_nodup ((s.loadFarKey 0).loadFarKey 1) (bootPuts_apart _ _ _) mem))
  refine ⟨rfl, at_ (p := (R.CTX_STATE.state 0, 1)) (by simp [bootPuts]) (by decide), at_ (p := (R.SEC_STAT.bank_a, s.fw.sel)) (by simp [bootPuts])
      (show R.SEC_STAT.bank_a.a ≠ (R.PWR_PD.on 0).a ∧ R.SEC_STAT.bank_a.a ≠ (R.PWR_PD.on 1).a by decide),
    at_ (p := (R.SEC_STAT.bank_b, s.fw.sel)) (by simp [bootPuts])
      (show R.SEC_STAT.bank_b.a ≠ (R.PWR_PD.on 0).a ∧ R.SEC_STAT.bank_b.a ≠ (R.PWR_PD.on 1).a by decide), ?_⟩
  rw [withBoot_get, setDomains_get _ 0 (by decide), puts_get_other _ (by simp [bootPuts]; decide), loadFarKey_get, loadFarKey_get]

/-! ### A wet leak sensor at the start (R562) -/

theorem noteLeak_unlogged (s : State) : s.noteLeak.unlogged = s.unlogged := by
  unfold State.noteLeak
  split
  · exact raise_unlogged ..
  · rfl

theorem noteLeak_get (s : State) {g : Fld} (low : g.a < 8 * 0x3e00000) : s.noteLeak.get g = s.get g := by
  unfold State.noteLeak
  split
  · exact raise_get s low
  · rfl

theorem boot_of_unlogged {s t : State} (same : t.unlogged = s.unlogged) : t.boot = s.boot := (congrArg State.boot same :)

theorem Booted.noteLeak {s t : State} (booted : Booted s t) : Booted s t.noteLeak := by
  obtain ⟨boot, context, bankA, bankB, recovery⟩ := booted
  exact ⟨(boot_of_unlogged (noteLeak_unlogged t)).trans boot, (noteLeak_get t (by decide)).trans context, (noteLeak_get t (by decide)).trans bankA,
    (noteLeak_get t (by decide)).trans bankB, (noteLeak_get t (by decide)).trans recovery⟩

/-! ## Cold power-on (R497, R505, R508, R563) -/

theorem loseUpdate_rest (s : State) : { s.loseUpdate with regs := s.regs, fw := s.fw } = s := by
  unfold State.loseUpdate
  split <;> rfl

theorem loseUpdate_fw (s : State) : s.loseUpdate.fw.sel = s.fw.sel ∧ s.loseUpdate.fw.revert = s.fw.revert := by
  unfold State.loseUpdate
  split <;> exact ⟨rfl, rfl⟩

/-- An update that is lost costs its bank's valid flag, which is the last bit of its word's lower half. -/
theorem loseUpdate_get (s : State) {g : Fld} (other : g.a % 64 ≠ 31) : s.loseUpdate.get g = s.get g := by
  unfold State.loseUpdate
  split
  · rfl
  · next k _ =>
    refine (get_congr rfl g).trans (State.get_put_other _ _ _ _ ?_)
    simp only [R.SEC_BANK.valid]
    omega

theorem sealOk_congr {s t : State} (mfg : t.mfg = s.mfg) (mfg1 : t.mfg1 = s.mfg1) (b : BootIn) (h : Nat) : t.sealOk b h = s.sealOk b h := by
  rw [State.sealOk, mfg, mfg1, State.sealOk]

/-- The power-up cause that a cold power-on shows. -/
def State.coldCause (s : State) (wake : Bool) : Nat :=
  if s.inputFaulted then 1 else if wake then 4 else if s.offBy = 2 then 2 else if s.offBy = 3 then 3 else 0

/-- What survives Off beside registers. -/
def State.coldBase (s : State) (straps : Nat) : State :=
  { State.reset with
    pending := s.pending, out := s.out, now := s.now, tick0 := if s.now = 0 then [] else [(0, s.now), (1, s.now)], free := s.free, mfg := s.mfg, mfg1 := s.mfg1
    refclk := s.refclk, bootEvt := s.scaler.evt, leakHold := s.flag R.MOD_PIN.leak, slotId := straps, eid := 0x10 + straps
    fw := { s.fw with slot := 0 }, scaler := s.scaler, wire := s.wire }

theorem cold_eq (s : State) (wake : Bool) (straps ms : Nat) : s.cold wake straps ms =
    ((s.loseUpdate.coldBase straps).carry s.loseUpdate (sealedFields ++ [R.MOD_PIN.perst, R.MOD_PIN.leak])).puts
      [(R.PWR_BOOT.cause, s.loseUpdate.coldCause wake), (R.PWR_BOOT.last, 0), (R.PWR_BOOT.ms, ms), (R.THM_COOL.leak, b2n (s.loseUpdate.flag R.MOD_PIN.leak))] :=
  rfl

/-- What a start leaves of the state beside registers, when it is made from `base` by writing registers. -/
theorem put_unregistered (s : State) (f : Fld) (v : Nat) : (s.put f v).unregistered = s.unregistered := rfl

theorem puts_unregistered (s : State) (l : List (Fld × Nat)) : (s.puts l).unregistered = s.unregistered :=
  foldl_keeps State.unregistered (fun s (p : Fld × Nat) => s.put p.1 p.2) (fun s p => put_unregistered s p.1 p.2) l s

theorem puts_puts_unregistered (s : State) (l m : List (Fld × Nat)) : ((s.puts l).puts m).unregistered = s.unregistered :=
  (puts_unregistered ..).trans (puts_unregistered ..)

theorem carry_get_other (s old : State) {fs : List Fld} {g : Fld} (apart : ∀ f ∈ fs, g.a ≠ f.a) : (s.carry old fs).get g = s.get g := by
  refine puts_get_other s fun p mem => ?_
  obtain ⟨f, memf, rfl⟩ := List.mem_map.1 mem
  exact apart f memf

/-- The base of a cold power-on, before registers. -/
structure ColdStart (s t : State) (straps ms : Nat) : Prop where
  byte    : ∀ a, t.byte a = 0
  seqs    : t.seqs = []
  flumes  : t.flumes = []
  scaler  : t.scaler = s.scaler
  pending : t.pending = s.pending
  slotId  : t.slotId = straps
  sel     : t.fw.sel = s.fw.sel
  refclk  : t.refclk = s.refclk
  mfg     : t.mfg = s.mfg
  mfg1    : t.mfg1 = s.mfg1
  last    : t.get R.PWR_BOOT.last = 0
  ms      : t.get R.PWR_BOOT.ms = ms % 2 ^ 32
  ready   : t.get R.HOST_STAT.ready = 0
  recov   : t.get R.SEC_STAT.recovery = 0

theorem coldBase_get (s : State) (straps : Nat) (g : Fld) : (s.coldBase straps).get g = State.reset.get g := get_congr rfl g

theorem coldBase_values (s : State) (straps : Nat) {t : State} (same : t.unregistered = (s.coldBase straps).unregistered) :
    (∀ a, t.byte a = 0) ∧ t.seqs = [] ∧ t.flumes = [] ∧ t.scaler = s.scaler ∧ t.pending = s.pending ∧ t.slotId = straps ∧ t.fw.sel = s.fw.sel ∧
      t.refclk = s.refclk ∧ t.mfg = s.mfg ∧ t.mfg1 = s.mfg1 := by
  have mem : t.mem = [] := (congrArg State.mem same :)
  have fw : t.fw = { s.fw with slot := 0 } := (congrArg State.fw same :)
  exact ⟨fun a => by rw [State.byte, mem]; rfl, (congrArg State.seqs same :), (congrArg State.flumes same :), (congrArg State.scaler same :),
    (congrArg State.pending same :), (congrArg State.slotId same :), by rw [fw], (congrArg State.refclk same :), (congrArg State.mfg same :),
    (congrArg State.mfg1 same :)⟩

/-- What an update that is lost leaves alone. -/
theorem loseUpdate_keeps (s : State) : s.loseUpdate.scaler = s.scaler ∧ s.loseUpdate.pending = s.pending ∧ s.loseUpdate.refclk = s.refclk ∧
    s.loseUpdate.mfg = s.mfg ∧ s.loseUpdate.mfg1 = s.mfg1 :=
  have rest := loseUpdate_rest s
  ⟨(congrArg State.scaler rest :), (congrArg State.pending rest :), (congrArg State.refclk rest :), (congrArg State.mfg rest :), (congrArg State.mfg1 rest :)⟩

/-- The fields that say how the device started. -/
def bootRegs (cause last ms leak : Nat) : List (Fld × Nat) :=
  [(R.PWR_BOOT.cause, cause), (R.PWR_BOOT.last, last), (R.PWR_BOOT.ms, ms), (R.THM_COOL.leak, leak)]

theorem bootRegs_apart (cause last ms leak : Nat) : ((bootRegs cause last ms leak).map fun p => p.1.a).Nodup :=
  show [R.PWR_BOOT.cause.a, R.PWR_BOOT.last.a, R.PWR_BOOT.ms.a, R.THM_COOL.leak.a].Nodup by decide

theorem coldStart (s : State) (wake : Bool) (straps ms : Nat) : ColdStart s (s.cold wake straps ms) straps ms := by
  have eq : s.cold wake straps ms = ((s.loseUpdate.coldBase straps).carry s.loseUpdate (sealedFields ++ [R.MOD_PIN.perst, R.MOD_PIN.leak])).puts
      (bootRegs (s.loseUpdate.coldCause wake) 0 ms (b2n (s.loseUpdate.flag R.MOD_PIN.leak))) := cold_eq s wake straps ms
  obtain ⟨scaler, pending, refclk, mfg, mfg1⟩ := loseUpdate_keeps s
  obtain ⟨byte, seqs, flumes, scaler', pending', slotId, sel, refclk', mfg', mfg1'⟩ := coldBase_values s.loseUpdate straps
    ((congrArg State.unregistered eq).trans (puts_puts_unregistered _ _ _))
  have fresh {g : Fld} (boot : ∀ p ∈ bootRegs 0 0 0 0, g.a ≠ p.1.a) (kept : ∀ f ∈ sealedFields ++ [R.MOD_PIN.perst, R.MOD_PIN.leak], g.a ≠ f.a) :
      (s.cold wake straps ms).get g = State.reset.get g := by
    rw [eq, puts_get_other _ (by simpa [bootRegs] using boot), carry_get_other _ _ kept, coldBase_get]
  refine ⟨byte, seqs, flumes, scaler'.trans scaler, pending'.trans pending, slotId, sel.trans (loseUpdate_fw s).1, refclk'.trans refclk, mfg'.trans mfg,
    mfg1'.trans mfg1, ?_, ?_, fresh (by decide) (by decide), fresh (by decide) (by decide)⟩
  · rw [eq]
    exact puts_get_of_nodup _ (bootRegs_apart _ _ _ _) (p := (R.PWR_BOOT.last, 0)) (by simp [bootRegs])
  · rw [eq]
    exact puts_get_of_nodup _ (bootRegs_apart _ _ _ _) (p := (R.PWR_BOOT.ms, ms)) (by simp [bootRegs])

/-! ## Module warm reset (R472, R485, R505) -/

/-- The firmware banks after a warm reset. -/
def State.warmFw (s : State) : Fw :=
  { s.fw with sel := if decide (s.get R.SEC_STAT.pending = 2) || s.fw.revert then 1 - s.fw.sel else s.fw.sel, revert := false, slot := 0 }

/-- What a warm reset keeps beside registers. -/
def State.warmBase (s : State) : State :=
  { State.reset with
    pending := s.pending, out := s.out, now := s.now, tick0 := s.tick0, free := s.free + 1, mfg := s.mfg, mfg1 := s.mfg1
    mem := s.mem.filter (fun e => decide (e.1 < 0x1000_0000) || inFar e.1)
    bad := s.bad.filter (fun a => decide (a < 0x1000_0000)), plist := s.plist
    mgmtRes := s.mgmtRes, refclk := s.refclk, bootEvt := s.bootEvt, inHold := s.inHold, coolHold := s.coolHold, leakHold := s.leakHold
    tid := s.tid, slotId := s.slotId, eid := s.eid, i3c := s.i3c, idKeys := s.idKeys, farKey := s.farKey, fw := s.warmFw, picture := s.picture, spdm := s.spdm,
    tokens := s.tokens, scaler := s.scaler, wire := s.wire }

/-- The registers that a warm reset carries over, with an armed package's mark taken back. -/
def State.warmCarried (s : State) : State :=
  let t := s.warmBase.carry s (sealedFields ++ pinFields ++ warmFields)
  if (decide (s.get R.SEC_STAT.pending = 2) || s.fw.revert) = true then t.put R.SEC_STAT.pending 0 else t

/-- The fields that say how a warm reset ended. -/
def warmRegs (ms : Nat) : List (Fld × Nat) := [(R.PWR_BOOT.last, 1), (R.PWR_BOOT.ms, ms)]

theorem warm_eq (s : State) : s.warm = s.loseUpdate.warmCarried.puts (warmRegs (Config.startMs s.loseUpdate.free).toNat) := rfl

theorem warmCarried_unregistered (s : State) : s.warmCarried.unregistered = s.warmBase.unregistered := by
  have carried : (s.warmBase.carry s (sealedFields ++ pinFields ++ warmFields)).unregistered = s.warmBase.unregistered := puts_unregistered ..
  unfold State.warmCarried
  dsimp only
  split
  · exact (put_unregistered ..).trans carried
  · exact carried

/-- What the warm reset of `s` leaves before the start-up. -/
structure WarmStart (s t : State) : Prop where
  byte    : ∀ a, t.byte a = if a < 0x1000_0000 ∨ inFar a = true then s.byte a else 0
  seqs    : t.seqs = []
  flumes  : t.flumes = []
  won     : t.won = []
  log     : t.log = []
  tick0   : t.tick0 = s.tick0
  now     : t.now = s.now
  scaler  : t.scaler = s.scaler
  pending : t.pending = s.pending
  mfg     : t.mfg = s.mfg
  mfg1    : t.mfg1 = s.mfg1
  sel     : t.fw.sel = if s.get R.SEC_STAT.pending = 2 ∨ s.fw.revert = true then 1 - s.fw.sel else s.fw.sel
  last    : t.get R.PWR_BOOT.last = 1
  ready   : t.get R.HOST_STAT.ready = 0
  ctx     : ∀ c, c < 64 → t.get (R.CTX_STATE.state c) = 0

theorem warmBase_byte (s : State) {t : State} (mem : t.mem = s.warmBase.mem) (a : Nat) :
    t.byte a = if a < 0x1000_0000 ∨ inFar a = true then s.byte a else 0 := by
  rw [State.byte, mem]
  refine (KMap.find_filter_key (fun _ => 0) s.mem (fun a => decide (a < 0x1000_0000) || inFar a) a).trans ?_
  simp only [Bool.or_eq_true, decide_eq_true_eq]
  rfl

theorem warmBase_sel (s : State) {t : State} (fw : t.fw = s.warmFw) :
    t.fw.sel = if s.get R.SEC_STAT.pending = 2 ∨ s.fw.revert = true then 1 - s.fw.sel else s.fw.sel := by
  rw [fw, State.warmFw]
  simp only [Bool.or_eq_true, decide_eq_true_eq]

/-- No register that a warm reset carries over stands among those of the host, or in a context's state. -/
theorem carried_place : ∀ f ∈ sealedFields ++ pinFields ++ warmFields, 8 * 0x170000 ≤ f.a := by decide

theorem warmCarried_get (s : State) {g : Fld} (low : g.a < 8 * 0x170000) : s.warmCarried.get g = State.reset.get g := by
  have carried : (s.warmBase.carry s (sealedFields ++ pinFields ++ warmFields)).get g = State.reset.get g :=
    (carry_get_other _ _ fun f mem same => by have := carried_place f mem; omega).trans (get_congr rfl g)
  unfold State.warmCarried
  dsimp only
  split
  · rw [State.get_put_other _ _ _ _ (by simp only [R.SEC_STAT.pending]; omega), carried]
  · exact carried

theorem reset_ctxState {c : Nat} (lt : c < 64) : State.reset.get (R.CTX_STATE.state c) = 0 := by
  revert c
  decide +kernel

theorem warmStart (s : State) : WarmStart s s.warm := by
  have rest := loseUpdate_rest s
  have lost {α : Type} (g : State → α) (blind : ∀ u r f, g { u with regs := r, fw := f } = g u) : g s.loseUpdate = g s := by
    rw [← blind s.loseUpdate s.regs s.fw, rest]
  have same : s.warm.unregistered = s.loseUpdate.warmBase.unregistered :=
    (congrArg State.unregistered (warm_eq s)).trans ((puts_unregistered ..).trans (warmCarried_unregistered _))
  obtain ⟨sel, revert⟩ := loseUpdate_fw s
  have armed : s.loseUpdate.get R.SEC_STAT.pending = s.get R.SEC_STAT.pending := loseUpdate_get s (by decide)
  have low {g : Fld} (below : g.a < 8 * 0x170000) : s.warm.get g = State.reset.get g := by
    rw [warm_eq, puts_get_other _ (by simp only [warmRegs, List.forall_mem_cons, R.PWR_BOOT.last, R.PWR_BOOT.ms]; exact ⟨by omega, by omega, by simp⟩), warmCarried_get _ below]
  refine ⟨fun a => ?_, (congrArg State.seqs same :), (congrArg State.flumes same :), (congrArg State.won same :), (congrArg State.log same :),
    (congrArg State.tick0 same :).trans (lost State.tick0 fun _ _ _ => rfl), (congrArg State.now same :).trans (lost State.now fun _ _ _ => rfl),
    (congrArg State.scaler same :).trans (lost State.scaler fun _ _ _ => rfl), (congrArg State.pending same :).trans (lost State.pending fun _ _ _ => rfl),
    (congrArg State.mfg same :).trans (lost State.mfg fun _ _ _ => rfl), (congrArg State.mfg1 same :).trans (lost State.mfg1 fun _ _ _ => rfl), ?_, ?_,
    low (by decide), fun c lt => (low (by simp only [R.CTX_STATE.state]; omega)).trans (reset_ctxState lt)⟩
  · rw [warmBase_byte s.loseUpdate (t := s.warm) (congrArg State.mem same :) a, lost (fun u => u.byte a) fun _ _ _ => rfl]
  · rw [warmBase_sel s.loseUpdate (t := s.warm) (congrArg State.fw same :), sel, revert, armed]
  · rw [warm_eq]
    exact (puts_two _ 1 _ (show R.PWR_BOOT.last.a ≠ R.PWR_BOOT.ms.a by decide)).1

/-! ## The commands -/

theorem exec_coldPowerOn {s : State} (off : s.boot = 0) (wake : Bool) (straps : BitVec 4) (ms : BitVec 32) (b : BootIn) :
    exec (.coldPowerOn wake straps ms b) s = .next (
      if (s.cold wake straps.toNat ms.toNat).refclk = true then ((s.cold wake straps.toNat ms.toNat).bootUp b).noteLeak
      else { s.cold wake straps.toNat ms.toNat with boot := 1 }) := congrArg Host.Outcome.next (if_neg (not_not.2 off))

/-- What a cold power-on leaves, whether it waits for its clock or boots. -/
theorem cold_boots {s t : State} {straps ms : Nat} (small : ms < 2 ^ 32) {u : State} (start : ColdStart s u straps ms) (rest : t.unbooted = u.unbooted)
    (regs : ∀ g : Fld, g.a < 8 * 0x3c00000 → g.a ≠ R.PWR_STAT.ceiling.a → g.a ≠ (R.CTX_STATE.state 0).a → g.a ≠ (R.PWR_PD.on 0).a →
      g.a ≠ (R.PWR_PD.on 1).a → t.get g = u.get g) :
    (∀ a, t.byte a = 0) ∧ t.seqs = [] ∧ t.flumes = [] ∧ t.scaler = s.scaler ∧ t.pending = s.pending ∧ t.slotId = straps ∧
      t.get R.PWR_BOOT.last = 0 ∧ t.get R.PWR_BOOT.ms = ms ∧ t.get R.HOST_STAT.ready = 0 := by
  obtain ⟨mem, seqs, flumes, -, scaler, pending, slotId, -, -, -⟩ := untouched_of_unbooted rest
  exact ⟨fun a => (mem.1 a).trans (start.byte a), seqs.trans start.seqs, flumes.trans start.flumes, scaler.trans start.scaler, pending.trans start.pending,
    slotId.trans start.slotId, (regs _ (by decide) (by decide) (by decide) (by decide) (by decide)).trans start.last,
    (regs _ (by decide) (by decide) (by decide) (by decide) (by decide)).trans (start.ms.trans (Nat.mod_eq_of_lt small)),
    (regs _ (by decide) (by decide) (by decide) (by decide) (by decide)).trans start.ready⟩

theorem exec_moduleWarmReset {s : State} {o : Order} (due : s.orderDue 1 0 = some o) (noSample : s.sample = none) (b : BootIn) :
    exec (.moduleWarmReset b) s = .next ((s.orderDone o).warm.bootUp b) := by
  have run : exec (.moduleWarmReset b) s = execModuleWarmReset b s := rfl
  rw [run, execModuleWarmReset, due, noSample]

theorem exec_moduleWarmReset_not {s : State} (not : s.orderDue 1 0 = none ∨ s.sample ≠ none) (b : BootIn) : exec (.moduleWarmReset b) s = .next s := by
  have run : exec (.moduleWarmReset b) s = execModuleWarmReset b s := rfl
  rw [run, execModuleWarmReset]
  split
  · next due noSample =>
    rcases not with none_ | some_
    · exact absurd (due.symm.trans none_) (Option.some_ne_none _)
    · exact absurd noSample some_
  · rfl

/-- What the end of an order leaves alone. -/
theorem orderDone_keeps (s : State) (o : Order) : (∀ a, (s.orderDone o).byte a = s.byte a) ∧ (s.orderDone o).tick0 = s.tick0 ∧ (s.orderDone o).now = s.now ∧
    (s.orderDone o).scaler = s.scaler ∧ (s.orderDone o).pending = s.pending ∧ (s.orderDone o).mfg = s.mfg ∧ (s.orderDone o).mfg1 = s.mfg1 ∧
    (s.orderDone o).fw = s.fw ∧ (s.orderDone o).get R.SEC_STAT.pending = s.get R.SEC_STAT.pending := by
  have same := orderResult_unlogged { s with won := s.won.erase o } o 1
  have mem : (s.orderDone o).mem = s.mem := (congrArg State.mem same :)
  refine ⟨fun a => by rw [State.byte, mem, State.byte], (congrArg State.tick0 same :), (congrArg State.now same :), (congrArg State.scaler same :),
    (congrArg State.pending same :), (congrArg State.mfg same :), (congrArg State.mfg1 same :), (congrArg State.fw same :), ?_⟩
  unfold State.orderDone State.orderResult
  split
  · exact puts_get_other _ (show ∀ p ∈ [(R.ORD_STAT.busy, 0), (R.ORD_STAT.result, 1)], R.SEC_STAT.pending.a ≠ p.1.a by decide)
  · split <;> exact get_congr rfl _

theorem warm_boots (s : State) (o : Order) (b : BootIn) : let t := (s.orderDone o).warm.bootUp b
    (∀ a, t.byte a = if a < 0x1000_0000 ∨ inFar a = true then s.byte a else 0) ∧ t.seqs = [] ∧ t.flumes = [] ∧ t.won = [] ∧ t.log.length ≤ 4 ∧
      t.tick0 = s.tick0 ∧ t.now = s.now ∧ t.scaler = s.scaler ∧ t.pending = s.pending ∧ t.get R.PWR_BOOT.last = 1 ∧ t.get R.HOST_STAT.ready = 0 ∧
      ∀ c, 0 < c → c < 64 → t.get (R.CTX_STATE.state c) = 0 := by
  obtain ⟨byte, tick0, now, scaler, pending, -, -, -, -⟩ := orderDone_keeps s o
  have start := warmStart (s.orderDone o)
  have boots := bootUp_boots (s.orderDone o).warm b
  obtain ⟨mem, seqs, flumes, won, scaler', pending', -, tick0', now', -⟩ := untouched_of_unbooted boots.rest
  have log := boots.log
  rw [start.log] at log
  refine ⟨fun a => ?_, seqs.trans start.seqs, flumes.trans start.flumes, won.trans start.won, log, tick0'.trans (start.tick0.trans tick0),
    now'.trans (start.now.trans now), scaler'.trans (start.scaler.trans scaler), pending'.trans (start.pending.trans pending),
    (boots.regs _ (by decide) (by decide) (by decide) (by decide) (by decide)).trans start.last,
    (boots.regs _ (by decide) (by decide) (by decide) (by decide) (by decide)).trans start.ready, fun c some lt => ?_⟩
  · rw [mem.1, start.byte, byte]
  · refine (boots.regs _ ?_ ?_ ?_ ?_ ?_).trans (start.ctx c lt) <;>
      simp only [R.CTX_STATE.state, R.PWR_STAT.ceiling, R.PWR_PD.on] <;> omega

theorem exec_refclkInRange (s : State) (b : BootIn) : exec (.refclkInRange b) s = .next (
    if s.boot = 1 then ((({ s with refclk := true } : State).bootUp b).noteLeak) else { s with refclk := true }) := rfl

/-! ### The PCIe link and the far tier (R430, R507, R508) -/

section
variable {s : State}

theorem exec_pcieLinkUp_not (not : s.get R.MOD_PIN.perst = 0 ∨ s.boot < 2 ∨ 5 < s.boot) : exec .pcieLinkUp s = .next s :=
  congrArg Host.Outcome.next (if_pos (not.imp_left flag_eq_false))

theorem exec_pcieLinkUp (perst : s.get R.MOD_PIN.perst = 1) (low : 2 ≤ s.boot) (high : s.boot ≤ 5) : exec .pcieLinkUp s = .next (
    if s.boot = 3 then ({ s with linkUp := true } : State).deviceReady
    else if s.boot = 4 then (({ s with linkUp := true } : State).put R.HOST_STAT.ready 1).raiseFloor else { s with linkUp := true }) :=
  congrArg Host.Outcome.next (if_neg (by simp [flag_eq_true perst]; omega))

theorem exec_farZeroingDone_not (not : s.get R.PWR_STAT.fzero = 0) : exec .farZeroingDone s = .next s :=
  congrArg Host.Outcome.next (if_neg (by rw [flag_eq_false not]; decide))

theorem exec_farZeroingDone (zeroing : s.get R.PWR_STAT.fzero = 1) : exec .farZeroingDone s = .next (
    ((s.wipe 0x0200_0000_0000 0xFF_F000_0000).wipe 0x0300_0000_0000 0x0100_0000_0000).put R.PWR_STAT.fzero 0) :=
  congrArg Host.Outcome.next (if_pos (flag_eq_true zeroing))

end

theorem wipe_byte (s : State) (a n x : Nat) : (s.wipe a n).byte x = if a ≤ x ∧ x < a + n then 0 else s.byte x := KMap.find_dropRange ..

theorem farZeroed_byte (s : State) (a : Nat) :
    (((s.wipe 0x0200_0000_0000 0xFF_F000_0000).wipe 0x0300_0000_0000 0x0100_0000_0000).put R.PWR_STAT.fzero 0).byte a =
      if inFar a = true ∧ ¬(0x02FF_F000_0000 ≤ a ∧ a < 0x0300_0000_0000) then 0 else s.byte a := by
  have far : inFar a = true ↔ 0x0200_0000_0000 ≤ a ∧ a < 0x0400_0000_0000 := decide_eq_true_iff
  have parts : inFar a = true ∧ ¬(0x02FF_F000_0000 ≤ a ∧ a < 0x0300_0000_0000) ↔
      (0x0300_0000_0000 ≤ a ∧ a < 0x0300_0000_0000 + 0x0100_0000_0000) ∨ (0x0200_0000_0000 ≤ a ∧ a < 0x0200_0000_0000 + 0xFF_F000_0000) := by
    rw [far]
    omega
  rw [State.put_byte, wipe_byte, wipe_byte]
  by_cases upper : 0x0300_0000_0000 ≤ a ∧ a < 0x0300_0000_0000 + 0x0100_0000_0000
  · rw [if_pos upper, if_pos (parts.2 (.inl upper))]
  · rw [if_neg upper]
    by_cases lower : 0x0200_0000_0000 ≤ a ∧ a < 0x0200_0000_0000 + 0xFF_F000_0000
    · rw [if_pos lower, if_pos (parts.2 (.inr lower))]
    · rw [if_neg lower, if_neg fun zeroed => (parts.1 zeroed).elim upper lower]

/-! ### A conventional reset (R430, R505, R509) -/

/-- The state once the link is down and the device not ready. -/
def State.linkLost (s : State) (pin : Bool) : State :=
  { (if pin = true then s.put R.MOD_PIN.perst 0 else s).put R.HOST_STAT.ready 0 with linkUp := false }

theorem linkLost_eq (s : State) (pin : Bool) : s.linkLost pin =
    { s.puts (if pin = true then [(R.MOD_PIN.perst, 0), (R.HOST_STAT.ready, 0)] else [(R.HOST_STAT.ready, 0)]) with linkUp := false } := by
  cases pin <;> rfl

theorem linkLost_get (s : State) (pin : Bool) {g : Fld} (ready : g.a ≠ R.HOST_STAT.ready.a) (perst : g.a ≠ R.MOD_PIN.perst.a) :
    (s.linkLost pin).get g = s.get g := by
  rw [linkLost_eq]
  refine (get_congr rfl g).trans (puts_get_other s ?_)
  cases pin <;> simp [ready, perst]

theorem linkLost_ready (s : State) (pin : Bool) : (s.linkLost pin).get R.HOST_STAT.ready = 0 := by
  unfold State.linkLost
  exact (get_congr rfl _).trans (State.get_put_same (if pin = true then s.put R.MOD_PIN.perst 0 else s) R.HOST_STAT.ready 0)

theorem linkLost_perst (s : State) (pin : Bool) : (s.linkLost pin).get R.MOD_PIN.perst = if pin = true then 0 else s.get R.MOD_PIN.perst := by
  unfold State.linkLost
  refine (get_congr rfl _).trans ((State.get_put_other (if pin = true then s.put R.MOD_PIN.perst 0 else s) R.HOST_STAT.ready R.MOD_PIN.perst 0 (by decide)).trans ?_)
  cases pin
  · rfl
  · exact State.get_put_same _ _ _

theorem linkLost_rest (s : State) (pin : Bool) : { s.linkLost pin with regs := s.regs, linkUp := s.linkUp } = s := by
  cases pin <;> rfl

theorem exec_perstAssert (s : State) (pin : Bool) : exec (.perstAssert pin) s = .next (
    if (s.linkLost pin).boot < 3 ∨ 4 < (s.linkLost pin).boot then s.linkLost pin
    else if (s.linkLost pin).awake = true then (s.linkLost pin).conventional
    else ({ s.linkLost pin with won := (s.linkLost pin).won ++ [⟨15, 0, 2⟩] } : State).wakeFor) := rfl

/-- The functions and their contexts gone. -/
theorem resetFunctions_unbegun (s : State) : s.resetFunctions.unbegun =
    { s.unbegun with vfOn := false, vfs := 0, b4size := (30, 30), fns := [], msixTab := [], unmask := [], pba := [] } := by
  have begun : ((List.range 64).foldl State.beginTeardown s).unbegun = s.unbegun := foldl_keeps State.unbegun _ beginTeardown_unbegun _ _
  exact (congrArg (fun u : State => { u with vfOn := false, vfs := 0, b4size := (30, 30), fns := [], msixTab := [], unmask := [], pba := [] }) begun :)

theorem beginTeardowns_get (s : State) {g : Fld} (place : AbovePlace g) (apart : ∀ c, c < 64 → g.a ≠ (R.CTX_STATE.state c).a) :
    ((List.range 64).foldl State.beginTeardown s).get g = s.get g := by
  have all : ∀ l : List Nat, (∀ c ∈ l, c < 64) → ∀ s : State, (l.foldl State.beginTeardown s).get g = s.get g := by
    intro l
    induction l with
    | nil => exact fun _ _ => rfl
    | cons c l ih =>
      intro small s
      rw [List.foldl_cons, ih fun d mem => small d (List.mem_cons_of_mem c mem)]
      exact beginTeardown_get s c place (apart c (small c List.mem_cons_self))
  exact all _ (fun c mem => List.mem_range.mp mem) s

theorem withoutFunctions_get (s : State) (g : Fld) :
    ({ s with vfOn := false, vfs := 0, b4size := (30, 30), fns := [], msixTab := [], unmask := [], pba := [] } : State).get g = s.get g := get_congr rfl g

theorem resetFunctions_get (s : State) {g : Fld} (place : AbovePlace g) (apart : ∀ c, c < 64 → g.a ≠ (R.CTX_STATE.state c).a) :
    s.resetFunctions.get g = s.get g := (withoutFunctions_get _ g).trans (beginTeardowns_get s place apart)

theorem resetFunctions_state (s : State) {c : Nat} (lt : c < 64) : s.resetFunctions.get (R.CTX_STATE.state c) =
    if s.get (R.CTX_STATE.state c) = 1 then 2 else s.get (R.CTX_STATE.state c) :=
  (withoutFunctions_get _ _).trans (foldl_field State.beginTeardown R.CTX_STATE.state (fun _ old => if old = 1 then 2 else old)
    (fun s _ lt => beginTeardown_state s lt) (fun s c _ lt other => beginTeardown_get s c (ctxState_place lt) (ctxState_apart other)) lt s)

/-- A reset noted, and the warm reset that follows it when it is asked for. -/
theorem conventional_eq (s : State) : s.conventional =
    if (s.resetFunctions.noteReset 5).get R.PWR_CTL.perst_warm = 1 then
      { s.resetFunctions.noteReset 5 with won := (s.resetFunctions.noteReset 5).won ++ [⟨1, 0, 2⟩] }
    else s.resetFunctions.noteReset 5 := by
  unfold State.conventional State.flag
  simp only [decide_eq_true_eq]

/-- What a conventional reset leaves. -/
structure Conventional (s t : State) : Prop where
  mem    : SameMem s t
  linkUp : t.linkUp = s.linkUp
  vfs    : t.vfs = 0
  fns    : t.fns = []
  won    : t.won = if s.get R.PWR_CTL.perst_warm = 1 then s.won ++ [⟨1, 0, 2⟩] else s.won
  last   : t.get R.PWR_BOOT.last = 5
  state  : ∀ c, c < 64 → t.get (R.CTX_STATE.state c) = if s.get (R.CTX_STATE.state c) = 1 then 2 else s.get (R.CTX_STATE.state c)
  regs   : ∀ g : Fld, AbovePlace g → (∀ c, c < 64 → g.a ≠ (R.CTX_STATE.state c).a) → g.a ≠ R.PWR_BOOT.last.a → g.a ≠ R.SEC_STAT.measuring.a →
    t.get g = s.get g

theorem withWon_get (s : State) (l : List Order) (g : Fld) : ({ s with won := l } : State).get g = s.get g := get_congr rfl g

theorem noteReset_get (s : State) (n : Nat) {g : Fld} (last : g.a ≠ R.PWR_BOOT.last.a) (measuring : g.a ≠ R.SEC_STAT.measuring.a) :
    (s.noteReset n).get g = s.get g := puts_get_other s (by simp [last, measuring])

theorem noted_conventional (s : State) : let t := s.resetFunctions.noteReset 5
    SameMem s t ∧ t.linkUp = s.linkUp ∧ t.vfs = 0 ∧ t.fns = [] ∧ t.won = s.won := by
  have noted : (s.resetFunctions.noteReset 5).unregistered = s.resetFunctions.unregistered := puts_unregistered ..
  have begun := resetFunctions_unbegun s
  dsimp only
  generalize s.resetFunctions.noteReset 5 = t at *
  generalize s.resetFunctions = u at *
  exact ⟨sameMem_of_eq ((congrArg State.mem noted :).trans (congrArg State.mem begun :)) ((congrArg State.bad noted :).trans (congrArg State.bad begun :))
      ((congrArg State.plist noted :).trans (congrArg State.plist begun :)) ((congrArg State.linkErr noted :).trans (congrArg State.linkErr begun :)),
    (congrArg State.linkUp noted :).trans (congrArg State.linkUp begun :), (congrArg State.vfs noted :).trans (congrArg State.vfs begun :),
    (congrArg State.fns noted :).trans (congrArg State.fns begun :), (congrArg State.won noted :).trans (congrArg State.won begun :)⟩

theorem conventional_of (s : State) : Conventional s s.conventional := by
  obtain ⟨mem, linkUp, vfs, fns, won⟩ := noted_conventional s
  have high {g : Fld} (place : AbovePlace g) (apart : ∀ c, c < 64 → g.a ≠ (R.CTX_STATE.state c).a) (last : g.a ≠ R.PWR_BOOT.last.a)
      (measuring : g.a ≠ R.SEC_STAT.measuring.a) : (s.resetFunctions.noteReset 5).get g = s.get g :=
    (noteReset_get _ 5 last measuring).trans (resetFunctions_get s place apart)
  have warm : (s.resetFunctions.noteReset 5).get R.PWR_CTL.perst_warm = s.get R.PWR_CTL.perst_warm :=
    high ⟨.inl (by decide), fun c j _ => by simp only [R.PWR_CTL.perst_warm, R.CTX_FAULT.faulted]; omega⟩
      (fun c _ => by simp only [R.PWR_CTL.perst_warm, R.CTX_STATE.state]; omega) (by decide) (by decide)
  have states : ∀ c, c < 64 → (s.resetFunctions.noteReset 5).get (R.CTX_STATE.state c) =
      if s.get (R.CTX_STATE.state c) = 1 then 2 else s.get (R.CTX_STATE.state c) := fun c lt =>
    (noteReset_get _ 5 (by simp only [R.CTX_STATE.state, R.PWR_BOOT.last]; omega) (by simp only [R.CTX_STATE.state, R.SEC_STAT.measuring]; omega)).trans
      (resetFunctions_state s lt)
  have last : (s.resetFunctions.noteReset 5).get R.PWR_BOOT.last = 5 := (puts_two _ 5 1 (by decide)).1
  rw [conventional_eq, warm]
  generalize s.resetFunctions.noteReset 5 = t at *
  split
  · next asked =>
    exact ⟨mem.trans (sameMem_of_eq rfl rfl rfl rfl), linkUp, vfs, fns, by rw [if_pos asked, ← won], (withWon_get ..).trans last,
      fun c lt => (withWon_get ..).trans (states c lt), fun g a b c d => (withWon_get ..).trans (high a b c d)⟩
  · next asked => exact ⟨mem, linkUp, vfs, fns, by rw [if_neg asked, won], last, states, fun g => high⟩

/-- What the state with its link lost keeps. -/
theorem linkLost_keeps (s : State) (pin : Bool) : SameMem s (s.linkLost pin) ∧ (s.linkLost pin).linkUp = false ∧ (s.linkLost pin).boot = s.boot ∧
    (s.linkLost pin).won = s.won ∧ (s.linkLost pin).fns = s.fns ∧ (s.linkLost pin).awake = s.awake := by
  have rest := linkLost_rest s pin
  refine ⟨sameMem_of_eq (congrArg State.mem rest :) (congrArg State.bad rest :) (congrArg State.plist rest :) (congrArg State.linkErr rest :), rfl,
    (congrArg State.boot rest :), (congrArg State.won rest :), (congrArg State.fns rest :), ?_⟩
  unfold State.awake State.flag
  rw [linkLost_get s pin (by decide) (by decide), linkLost_get s pin (by decide) (by decide), linkLost_get s pin (by decide) (by decide)]

theorem wakeFor_get (s : State) {g : Fld} (busy : g.a ≠ R.PWR_STAT.busy.a) (target : g.a ≠ R.PWR_STAT.target.a) : s.wakeFor.get g = s.get g := by
  unfold State.wakeFor
  split
  · exact puts_get_other s (by simp [busy, target])
  · rfl

/-- PERST_N, a Hot Reset or the link's loss. -/
theorem perstAssert_lost (s : State) (pin : Bool) : ∃ t, exec (.perstAssert pin) s = .next t ∧ SameMem s t ∧ t.linkUp = false ∧
    t.get R.HOST_STAT.ready = 0 ∧ t.get R.MOD_PIN.perst = (if pin then 0 else s.get R.MOD_PIN.perst) ∧
    ((s.boot < 3 ∨ 4 < s.boot) → t.won = s.won ∧ t.fns = s.fns) ∧
    (3 ≤ s.boot → s.boot ≤ 4 → s.awake = true → t.vfs = 0 ∧ t.fns = [] ∧ t.get R.PWR_BOOT.last = 5 ∧
      t.won = (if s.get R.PWR_CTL.perst_warm = 1 then s.won ++ [⟨1, 0, 2⟩] else s.won) ∧
      ∀ c, c < 64 → t.get (R.CTX_STATE.state c) = if s.get (R.CTX_STATE.state c) = 1 then 2 else s.get (R.CTX_STATE.state c)) ∧
    (3 ≤ s.boot → s.boot ≤ 4 → s.awake = false → t.won = s.won ++ [⟨15, 0, 2⟩] ∧ t.fns = s.fns) := by
  obtain ⟨mem, linkUp, boot, won, fns, awake⟩ := linkLost_keeps s pin
  have ready := linkLost_ready s pin
  have perst := linkLost_perst s pin
  have other {g : Fld} (a : g.a ≠ R.HOST_STAT.ready.a) (b : g.a ≠ R.MOD_PIN.perst.a) := linkLost_get s pin a b
  have run := exec_perstAssert s pin
  rw [boot, awake] at run
  rw [run]
  generalize s.linkLost pin = u at *
  by_cases early : s.boot < 3 ∨ 4 < s.boot
  · exact ⟨u, congrArg _ (if_pos early), mem, linkUp, ready, perst, fun _ => ⟨won, fns⟩, fun _ _ => by omega, fun _ _ => by omega⟩
  · cases wake : s.awake with
    | true =>
      have reset := conventional_of u
      have pins (g : Fld) (place : AbovePlace g) (apart : ∀ c, c < 64 → g.a ≠ (R.CTX_STATE.state c).a) := reset.regs g place apart
      refine ⟨u.conventional, congrArg _ ((if_neg early).trans (if_pos rfl)), mem.trans reset.mem, reset.linkUp.trans linkUp, ?_, ?_, fun h => absurd h early,
        fun _ _ _ => ⟨reset.vfs, reset.fns, reset.last, ?_, fun c lt => ?_⟩, fun _ _ asleep => absurd asleep (by decide)⟩
      · refine (pins _ ⟨.inl (by decide), fun c j _ => ?_⟩ (fun c _ => ?_) (by decide) (by decide)).trans ready <;>
          simp only [R.HOST_STAT.ready, R.CTX_FAULT.faulted, R.CTX_STATE.state] <;> omega
      · refine (pins _ ⟨.inr (by decide), fun c j _ => ?_⟩ (fun c _ => ?_) (by decide) (by decide)).trans perst <;>
          simp only [R.MOD_PIN.perst, R.CTX_FAULT.faulted, R.CTX_STATE.state] <;> omega
      · rw [reset.won, other (by decide) (by decide), won]
      · rw [reset.state c lt, other (by simp only [R.CTX_STATE.state, R.HOST_STAT.ready]; omega) (by simp only [R.CTX_STATE.state, R.MOD_PIN.perst]; omega)]
    | false =>
      have unlogged := wakeFor_unlogged { u with won := u.won ++ [⟨15, 0, 2⟩] }
      have regs {g : Fld} (a : g.a ≠ R.PWR_STAT.busy.a) (b : g.a ≠ R.PWR_STAT.target.a) :=
        (wakeFor_get { u with won := u.won ++ [⟨15, 0, 2⟩] } a b).trans (withWon_get u _ g)
      have waits : ({ u with won := u.won ++ [⟨15, 0, 2⟩] } : State).wakeFor.won = u.won ++ [⟨15, 0, 2⟩] := (congrArg State.won unlogged :)
      have waked := sameMem_of_unlogged unlogged
      have queued : SameMem u { u with won := u.won ++ [⟨15, 0, 2⟩] } := sameMem_of_eq rfl rfl rfl rfl
      refine ⟨_, congrArg _ ((if_neg early).trans (if_neg Bool.false_ne_true)), (mem.trans queued).trans waked,
        (congrArg State.linkUp unlogged :).trans linkUp, (regs (by decide) (by decide)).trans ready, (regs (by decide) (by decide)).trans perst, fun h => absurd h early,
        fun _ _ asleep => absurd asleep (by decide), fun _ _ _ => ⟨by rw [waits, won], (congrArg State.fns unlogged :).trans fns⟩⟩

/-! ## The obligation -/

/-- Settles O44. -/
theorem startUp : Obligations.StartUp := by
  refine ⟨fun s wake straps ms b => ?_, fun s b => ⟨fun not => exec_moduleWarmReset_not not b, fun o due noSample => ?_⟩, fun s b => ⟨fun notHeld => ?_, fun held seal0 seal1 good0 good1 => ?_⟩,
    fun s => ⟨exec_pcieLinkUp_not, fun perst boot => ?_, fun perst boot => ?_, fun perst boot => ?_, exec_farZeroingDone_not, fun zeroing => ?_, rfl⟩, fun s pin => ?_⟩
  · dsimp only
    have start := coldStart s wake straps.toNat ms.toNat
    refine ⟨fun on => congrArg Host.Outcome.next (if_pos on), fun off => ?_⟩
    rw [exec_coldPowerOn off, start.refclk]
    have sealed (h : Nat) := sealOk_congr start.mfg start.mfg1 b h
    have sel := start.sel
    generalize s.cold wake straps.toNat ms.toNat = u at *
    cases clock : s.refclk with
    | false =>
      obtain ⟨byte, seqs, flumes, scaler, pending, slotId, last, ms', ready⟩ :=
        cold_boots ms.isLt start (withBoot_unbooted u 1) fun g _ _ _ _ _ => withBoot_get u 1 g
      exact ⟨_, rfl, byte, seqs, flumes, scaler, pending, slotId, last, ms', ready, fun _ => rfl, fun on => absurd on (by decide), fun on => absurd on (by decide)⟩
    | true =>
      have boots := bootUp_boots u b
      obtain ⟨byte, seqs, flumes, scaler, pending, slotId, last, ms', ready⟩ :=
        cold_boots ms.isLt start ((unbooted_of_unlogged (noteLeak_unlogged _)).trans boots.rest)
          fun g low ceil ctx on0 on1 => (noteLeak_get _ (by omega)).trans (boots.regs g low ceil ctx on0 on1)
      refine ⟨(u.bootUp b).noteLeak, rfl, byte, seqs, flumes, scaler, pending, slotId, last, ms', ready, fun off => absurd off (by decide), fun _ broken => ?_, fun _ whole good0 good1 => ?_⟩
      · exact (boot_of_unlogged (noteLeak_unlogged _)).trans (bootUp_held (by rw [sealed, sealed]; exact broken)).1
      · rw [← sel] at good0 good1
        obtain ⟨boot, context, bankA, bankB, recovery⟩ := (booted_bootUp (by rw [sealed, sealed]; exact whole) good0 good1).noteLeak
        exact ⟨boot, context, recovery.trans start.recov, by rw [bankA, sel], by rw [bankB, sel]⟩
  · dsimp only
    obtain ⟨-, -, -, -, -, mfg, mfg1, fw, pending⟩ := orderDone_keeps s o
    have start := warmStart (s.orderDone o)
    obtain ⟨byte, seqs, flumes, won, log, tick0, now, scaler, queue, last, ready, ctx⟩ := warm_boots s o b
    have sealed (h : Nat) := sealOk_congr (start.mfg.trans mfg) (start.mfg1.trans mfg1) b h
    refine ⟨_, exec_moduleWarmReset due noSample b, byte, seqs, flumes, won, log, tick0, now, scaler, queue, last, ready, ctx, fun broken => ?_, fun whole good0 good1 => ?_⟩
    · exact (bootUp_held (by rw [sealed, sealed]; exact broken)).1
    · have booted := booted_bootUp (by rw [sealed, sealed]; exact whole) good0 good1
      exact ⟨by rw [start.sel, pending, fw], booted.boot, booted.context⟩
  · exact (exec_refclkInRange s b).trans (congrArg _ (if_neg notHeld))
  · have booted := (booted_bootUp (s := { s with refclk := true }) (b := b) ⟨seal0, seal1⟩ good0 good1).noteLeak
    have rest := untouched_of_unbooted ((unbooted_of_unlogged (noteLeak_unlogged _)).trans (bootUp_boots { s with refclk := true } b).rest)
    exact ⟨_, (exec_refclkInRange s b).trans (congrArg _ (if_pos held)), rest.refclk, booted.boot, booted.context,
      (sameMem_of_eq rfl rfl rfl rfl : SameMem s { s with refclk := true }).trans rest.mem⟩
  · exact (exec_pcieLinkUp perst (by omega) (by omega)).trans (congrArg _ ((if_neg (by omega)).trans (if_neg (by omega))))
  · have rest := deviceReady_rest { s with linkUp := true }
    refine ⟨_, (exec_pcieLinkUp perst (by omega) (by omega)).trans (congrArg _ (if_pos boot)), (congrArg State.linkUp rest :), deviceReady_boot _, deviceReady_ready _,
      ?_, sameMem_of_eq (congrArg State.mem rest :) (congrArg State.bad rest :) (congrArg State.plist rest :) (congrArg State.linkErr rest :)⟩
    rw [deviceReady_get _ (by decide) (by decide)]
    exact State.get_put_same _ _ _
  · have rest := raiseFloor_rest (({ s with linkUp := true } : State).put R.HOST_STAT.ready 1)
    refine ⟨_, (exec_pcieLinkUp perst (by omega) (by omega)).trans (congrArg _ ((if_neg (by omega)).trans (if_pos boot))), (congrArg State.linkUp rest :),
      (congrArg State.boot rest :).trans boot, ?_⟩
    rw [raiseFloor_get _ (by decide) (by decide)]
    exact State.get_put_same _ _ _
  · exact ⟨_, exec_farZeroingDone zeroing, State.get_put_same _ _ _, farZeroed_byte s⟩
  · exact perstAssert_lost s pin

end Sys2Proof.Machine

namespace Sys2Proof.Machine

-- One proof at a time: threads that wait for each other hold memory.
set_option Elab.async false

/-! ## What sending on a link changes (R401 to R407) -/

theorem skw_setSkw (s : State) (k j : Nat) (x : SkwLink) : (s.setSkw k x).skw j = if j = k then x else s.skw j := KMap.find_put _ _ _ _ _

theorem skw_setSkw_same (s : State) (k : Nat) (x : SkwLink) : (s.setSkw k x).skw k = x := (skw_setSkw ..).trans (if_pos rfl)

/-- The links and what leaves the block are all that sending on link `k` changes, and of the other links none; frames not acknowledged stay, and so do
the reduction messages not delivered. -/
structure Sends (s t : State) (k : Nat) : Prop where
  rest  : t.unlinked = s.unlinked
  links : ∀ j, j ≠ k → t.skw j = s.skw j
  kept  : ∀ g ∈ (s.skw k).replay, g ∈ (t.skw k).replay
  red   : (t.skw k).red = (s.skw k).red

theorem Sends.refl (s : State) (k : Nat) : Sends s s k := ⟨rfl, fun _ _ => rfl, fun _ mem => mem, rfl⟩

theorem Sends.trans {s t u : State} {k : Nat} (first : Sends s t k) (second : Sends t u k) : Sends s u k :=
  ⟨second.rest.trans first.rest, fun j other => (second.links j other).trans (first.links j other), fun g mem => second.kept g (first.kept g mem),
    second.red.trans first.red⟩

theorem sends_setSkw (s : State) (k : Nat) {x : SkwLink} (kept : ∀ g ∈ (s.skw k).replay, g ∈ x.replay) (red : x.red = (s.skw k).red := by rfl) :
    Sends s (s.setSkw k x) k :=
  ⟨setSkw_unlinked .., fun j other => (skw_setSkw ..).trans (if_neg other), fun g mem => by rw [skw_setSkw_same]; exact kept g mem,
    by rw [skw_setSkw_same]; exact red⟩

theorem sends_emit (s : State) (k : Nat) (o : Out) : Sends s (s.emit o) k := ⟨emit_unlinked .., fun _ _ => rfl, fun _ mem => mem, rfl⟩

theorem sends_skwPut (s : State) (k typ : Nat) (body : List Nat) (front : List Byte) : Sends s (s.skwPut k typ body front) k :=
  (sends_setSkw s k fun _ mem => List.mem_append_left _ mem).trans (sends_emit ..)

theorem replay_sent (x : SkwLink) (bulk : Bool) : (x.sent bulk).replay = x.replay := rfl

theorem red_sent (x : SkwLink) (bulk : Bool) : (x.sent bulk).red = x.red := rfl

theorem sends_skwTag (s : State) (k : Nat) : Sends s (s.skwTag k) k := by
  unfold State.skwTag
  dsimp only
  split
  · exact Sends.refl s k
  · refine (sends_setSkw s k (fun g mem => ?_) ?_).trans (sends_skwPut ..)
    · rw [replay_sent]
      split <;> exact mem
    · rw [red_sent]
      split <;> rfl

theorem sends_skwFrame (s : State) (k typ : Nat) (body : List Nat) : Sends s (s.skwFrame k typ body) k := by
  unfold State.skwFrame
  dsimp only
  have framed (front : List Byte) (mark : Bool) := (sends_setSkw s k (x := { s.skw k with opened := (s.skw k).opened ++ [front], marked := mark })
    fun _ mem => mem).trans (sends_skwPut _ k typ body front)
  split
  · exact (framed ..).trans (sends_skwTag ..)
  · exact framed ..

theorem sends_tagFirst (s : State) (k : Nat) : Sends s (if 63 ≤ (s.skw k).block ∨ (s.skw k).marked = true then s.skwTag k else s) k := by
  split
  · exact sends_skwTag s k
  · exact Sends.refl s k

theorem sends_skwPump (k n : Nat) (s : State) : Sends s (State.skwPump k n s) k := by
  induction n generalizing s with
  | zero => exact Sends.refl s k
  | succ n ih =>
    have first := sends_tagFirst s k
    unfold State.skwPump
    dsimp only
    generalize (if 63 ≤ (s.skw k).block ∨ (s.skw k).marked = true then s.skwTag k else s) = u at first ⊢
    split
    · exact first
    · split
      · exact first
      · split
        · exact first
        · refine ((first.trans (sends_setSkw u k ?_)).trans (sends_skwFrame ..)).trans (ih _)
          exact fun _ mem => mem

/-- With nothing queued and the block open, there is nothing to send. -/
theorem skwPump_idle {s : State} {k : Nat} (queue : (s.skw k).queue = []) (block : (s.skw k).block < 63) (marked : (s.skw k).marked = false) (n : Nat) :
    State.skwPump k n s = s := by
  cases n with
  | zero => rfl
  | succ n =>
    have pick : (s.skw k).pick = none := by simp [SkwLink.pick, queue]
    unfold State.skwPump
    rw [if_neg (by rw [marked]; simp; omega)]
    dsimp only
    rw [pick]

/-- What a command leaves that sends on a link at most. -/
theorem still_of_unlinked {s t : State} {k : Nat} (rest : t.unlinked = s.unlinked) (links : ∀ j, j ≠ k → t.skw j = s.skw j) :
    SameMem s t ∧ t.regs = s.regs ∧ t.flumes = s.flumes ∧ t.seqs = s.seqs ∧ LinkFrame s t k :=
  ⟨sameMem_of_unlinked rest, regs_of_unlinked rest, (congrArg State.flumes rest :), (congrArg State.seqs rest :), links, (congrArg (fun u : State =>
    { u with regs := s.regs, links := s.links, flumes := s.flumes, log := s.log, out := s.out, pba := s.pba, free := s.free }) rest :)⟩

/-! ## ACK, NAK and resending (R403, R404) -/

theorem settle_replay (x : SkwLink) : x.settle.replay = x.replay := rfl

theorem ackTo_kept {x : SkwLink} {n : Nat} (none_ : ∀ g ∈ x.replay, g.seq ≠ n) : x.ackTo n = x := by
  unfold SkwLink.ackTo
  rw [List.findIdx?_eq_none_iff.2 fun g mem => decide_eq_false (none_ g mem)]

theorem ackTo_found {x : SkwLink} {pre post : List SkwFrame} {f : SkwFrame} (replay : x.replay = pre ++ f :: post) (first : ∀ g ∈ pre, g.seq ≠ f.seq) :
    x.ackTo f.seq = { x with replay := post, resent := (0, 0) } := by
  have found : x.replay.findIdx? (fun g => decide (g.seq = f.seq)) = some pre.length := by
    rw [replay, List.findIdx?_append, List.findIdx?_eq_none_iff.2 fun g mem => decide_eq_false (first g mem), List.findIdx?_cons]
    simp
  have rest : x.replay.drop (pre.length + 1) = post := by
    rw [replay, List.drop_append]
    simp
  unfold SkwLink.ackTo
  rw [found, ← rest]

theorem skwUp_setSkw (s : State) (k j : Nat) (x : SkwLink) : (s.setSkw k x).skwUp j = s.skwUp j := rfl

theorem emit_skw (s : State) (o : Out) (k : Nat) : (s.emit o).skw k = s.skw k := rfl

/-- Frames sent again. -/
def State.again (s : State) (k : Nat) (fs : List SkwFrame) : State := fs.foldl (fun s f => s.emit (frameOut k f.typ f.bytes)) s

theorem again_out (s : State) (k : Nat) (fs : List SkwFrame) : (s.again k fs).out = (fs.map fun f => frameOut k f.typ f.bytes).reverse ++ s.out := by
  induction fs generalizing s with
  | nil => rfl
  | cons f fs ih =>
    refine (ih (s.emit (frameOut k f.typ f.bytes))).trans ?_
    rw [List.map_cons, List.reverse_cons, List.append_assoc]
    rfl

theorem sends_again (s : State) (k : Nat) (fs : List SkwFrame) : Sends s (s.again k fs) k := by
  induction fs generalizing s with
  | nil => exact Sends.refl s k
  | cons f fs ih => exact (sends_emit s k _).trans (ih _)

theorem again_links (s : State) (k : Nat) (fs : List SkwFrame) : (s.again k fs).links = s.links :=
  foldl_keeps State.links (fun s (f : SkwFrame) => s.emit (frameOut k f.typ f.bytes)) (fun _ _ => rfl) fs s

/-- The state in which all frames of a link are sent again. -/
def State.resends (s : State) (k n : Nat) : State :=
  ((s.setSkw k { s.skw k with
      resent := (n, (if (s.skw k).resent.2 ≠ 0 ∧ (s.skw k).resent.1 = n then (s.skw k).resent.2 else 0) + 1) }).count (R.SKW_LINK.resend k)
    (s.skw k).replay.length).again k (s.skw k).replay

theorem skwResend_first {s : State} {k : Nat} {f : SkwFrame} {fs : List SkwFrame} (replay : (s.skw k).replay = f :: fs)
    (few : ¬((s.skw k).resent.1 = f.seq ∧ 8 ≤ (s.skw k).resent.2)) : s.skwResend k f.seq = s.resends k f.seq := by
  have found : (s.skw k).replay.findIdx? (fun g => decide (g.seq = f.seq)) = some 0 := by
    rw [replay, List.findIdx?_cons]
    simp
  unfold State.skwResend
  dsimp only
  rw [found]
  dsimp only
  rw [List.drop_zero, if_neg (by split <;> omega)]
  rfl

theorem skwResend_recover {s : State} {k : Nat} {f : SkwFrame} {fs : List SkwFrame} (replay : (s.skw k).replay = f :: fs)
    (same : (s.skw k).resent.1 = f.seq) (many : 8 ≤ (s.skw k).resent.2) : s.skwResend k f.seq = s.skwRecover k := by
  have found : (s.skw k).replay.findIdx? (fun g => decide (g.seq = f.seq)) = some 0 := by
    rw [replay, List.findIdx?_cons]
    simp
  unfold State.skwResend
  dsimp only
  rw [found]
  dsimp only
  rw [if_pos (by rw [if_pos ⟨by omega, same⟩]; exact many)]

/-- What sending again leaves. -/
structure Resent (s t : State) (k : Nat) : Prop where
  out    : t.out = ((s.skw k).replay.map fun f => frameOut k f.typ f.bytes).reverse ++ s.out
  replay : (t.skw k).replay = (s.skw k).replay
  count  : s.Counted t (R.SKW_LINK.resend k) (s.skw k).replay.length
  regs   : SameRegsBut s t [R.SKW_LINK.resend k]
  flumes : t.flumes = s.flumes
  frame  : LinkFrame s t k
  mem    : SameMem s t
  seqs   : t.seqs = s.seqs
  queue  : (t.skw k).queue = (s.skw k).queue
  opened : (t.skw k).opened = (s.skw k).opened
  marked : (t.skw k).marked = (s.skw k).marked

/-- What is left of a state beside what a link's recovery, counting and sending change. -/
def State.unlinkedAll (s : State) : State :=
  { s with regs := [], links := [], flumes := [], log := [], out := [], pba := [], free := 0 }

theorem unlinkedAll_of_unlinked {s t : State} (same : t.unlinked = s.unlinked) : t.unlinkedAll = s.unlinkedAll :=
  congrArg (fun u : State => { u with regs := [], links := [], flumes := [], log := [], out := [], pba := [], free := 0 }) same

theorem count_unlinkedAll (s : State) (f : Fld) (n : Nat) : (s.count f n).unlinkedAll = s.unlinkedAll := rfl

theorem put_unlinkedAll (s : State) (f : Fld) (v : Nat) : (s.put f v).unlinkedAll = s.unlinkedAll := rfl

theorem linkFrame_of_unlinkedAll {s t : State} {k : Nat} (same : t.unlinkedAll = s.unlinkedAll) (links : ∀ j, j ≠ k → t.skw j = s.skw j) : LinkFrame s t k :=
  ⟨links, (congrArg (fun u : State =>
    { u with regs := s.regs, links := s.links, flumes := s.flumes, log := s.log, out := s.out, pba := s.pba, free := s.free }) same :)⟩

theorem rest_of_unlinkedAll {s t : State} (same : t.unlinkedAll = s.unlinkedAll) : SameMem s t ∧ t.seqs = s.seqs :=
  ⟨sameMem_of_eq (congrArg State.mem same :) (congrArg State.bad same :) (congrArg State.plist same :) (congrArg State.linkErr same :), (congrArg State.seqs same :)⟩

theorem skw_of_links {s t : State} (same : t.links = s.links) (k : Nat) : t.skw k = s.skw k := by rw [State.skw, same, State.skw]

theorem resent_resends (s : State) (k n : Nat) : Resent s (s.resends k n) k := by
  unfold State.resends
  generalize tries : (n, (if (s.skw k).resent.2 ≠ 0 ∧ (s.skw k).resent.1 = n then (s.skw k).resent.2 else 0) + 1) = r
  generalize counted : (s.setSkw k { s.skw k with resent := r }).count (R.SKW_LINK.resend k) (s.skw k).replay.length = v
  have links : v.links = (s.setSkw k { s.skw k with resent := r }).links := by rw [← counted]; rfl
  have flumes : v.flumes = s.flumes := by rw [← counted]; rfl
  have out : v.out = s.out := by rw [← counted]; rfl
  have rest : v.unlinkedAll = s.unlinkedAll := by
    rw [← counted, count_unlinkedAll, unlinkedAll_of_unlinked (setSkw_unlinked ..)]
  have regs (g : Fld) (apart : g.a ≠ (R.SKW_LINK.resend k).a) : v.get g = s.get g := by
    rw [← counted, State.get_count_other _ _ _ _ apart, get_of_unlinked (setSkw_unlinked ..)]
  have count : v.get (R.SKW_LINK.resend k) = min (s.get (R.SKW_LINK.resend k) + (s.skw k).replay.length) (2 ^ (R.SKW_LINK.resend k).w - 1) := by
    rw [← counted, State.get_count_same, get_of_unlinked (setSkw_unlinked ..)]
  have again := sends_again v k (s.skw k).replay
  have kept (j : Nat) : (v.again k (s.skw k).replay).skw j = if j = k then { s.skw k with resent := r } else s.skw j := by
    rw [skw_of_links (again_links ..), skw_of_links links, skw_setSkw]
  have same : (v.again k (s.skw k).replay).unlinkedAll = s.unlinkedAll := (unlinkedAll_of_unlinked again.rest).trans rest
  obtain ⟨mem, seqs⟩ := rest_of_unlinkedAll same
  refine ⟨by rw [again_out, out], by rw [kept, if_pos rfl], (get_of_unlinked again.rest _).trans count,
    fun g apart => (get_of_unlinked again.rest g).trans (regs g (apart _ List.mem_cons_self)), (congrArg State.flumes again.rest :).trans flumes,
    linkFrame_of_unlinkedAll same fun j other => by rw [kept, if_neg other], mem, seqs, by rw [kept, if_pos rfl], by rw [kept, if_pos rfl], by rw [kept, if_pos rfl]⟩

/-! ## A link that goes into recovery (R158, R404) -/

theorem flmSync_unflumed (s : State) (f : Nat) : (s.flmSync f).unflumed = s.unflumed := put_unflumed ..

theorem holdFlume_unflumed (s : State) (f : Nat) (g : Flume → Flume) : (s.holdFlume f g).unflumed = s.unflumed := by
  unfold State.holdFlume
  dsimp only
  split
  · exact (flmSync_unflumed ..).trans ((put_unflumed ..).trans (setFlume_unflumed ..))
  · exact setFlume_unflumed ..

theorem flmSync_get (s : State) {f : Nat} {g : Fld} (other : g.a ≠ (R.FLM_STAT.above_hi f).a) : (s.flmSync f).get g = s.get g :=
  State.get_put_other _ _ _ _ other

theorem setFlume_get (s : State) (f : Nat) (x : Flume) (g : Fld) : (s.setFlume f x).get g = s.get g := get_congr rfl g

/-- A field outside the status of the flumes stays when one is held. -/
theorem holdFlume_get (s : State) {f : Nat} (small : f < 8192) (h : Flume → Flume) {g : Fld} (outside : g.a < 8 * 0x3080000 ∨ 8 * 0x30a0000 ≤ g.a) :
    (s.holdFlume f h).get g = s.get g := by
  have above : g.a ≠ (R.FLM_STAT.above_hi f).a := by simp only [R.FLM_STAT.above_hi]; omega
  unfold State.holdFlume
  dsimp only
  split
  · rw [flmSync_get _ above, State.get_put_other _ _ _ _ (by simp only [R.FLM_STAT.state]; omega), setFlume_get]
  · exact setFlume_get ..

theorem boundFlumes_lt {s : State} {f : Nat} (mem : f ∈ s.boundFlumes) : f < 8192 := by
  obtain ⟨e, -, found⟩ := List.mem_filterMap.1 mem
  dsimp only at found
  split at found
  · next is => exact Option.some.inj found ▸ is.2.1
  · cases found

theorem holdFlumes_unflumed (l : List Nat) (h : Flume → Flume) (s : State) : (l.foldl (fun s f => s.holdFlume f h) s).unflumed = s.unflumed :=
  foldl_keeps State.unflumed _ (fun s f => holdFlume_unflumed s f h) l s

theorem holdFlumes_get (h : Flume → Flume) {g : Fld} (outside : g.a < 8 * 0x3080000 ∨ 8 * 0x30a0000 ≤ g.a) (l : List Nat) (small : ∀ f ∈ l, f < 8192)
    (s : State) : (l.foldl (fun s f => s.holdFlume f h) s).get g = s.get g := by
  induction l generalizing s with
  | nil => rfl
  | cons f l ih =>
    rw [List.foldl_cons, ih fun g mem => small g (List.mem_cons_of_mem f mem), holdFlume_get s (small f List.mem_cons_self) h outside]

theorem flumesOn_lt {s : State} {k f : Nat} (mem : f ∈ s.flumesOn k) : f < 8192 := boundFlumes_lt (List.mem_filter.1 mem).1

theorem links_of_unflumed {s t : State} (same : t.unflumed = s.unflumed) : t.links = s.links := (congrArg State.links same :)

theorem unlinkedAll_of_unflumed {s t : State} (same : t.unflumed = s.unflumed) : t.unlinkedAll = s.unlinkedAll :=
  congrArg (fun u : State => { u with regs := [], links := [], flumes := [], log := [], out := [], pba := [], free := 0 }) same

/-- A session that is gone: what is left of it. -/
def SkwLink.dropped (x : SkwLink) : SkwLink :=
  { SkwLink.empty with red := x.red, locked := x.locked, fails := x.fails, notice := x.notice, strays := x.strays }

/-- The link's own part of a session that goes. -/
def State.skwGone (s : State) (k st : Nat) : State := (s.setSkw k (s.skw k).dropped).put (R.SKW_LINK.state k) st

/-- What the loss of a session leaves. -/
structure Dropped (s t : State) (k st : Nat) : Prop where
  rest  : t.unlinkedAll = s.unlinkedAll
  links : t.links = (s.setSkw k (s.skw k).dropped).links
  state : t.get (R.SKW_LINK.state k) = st % 8
  regs  : ∀ g : Fld, (g.a < 8 * 0x3080000 ∨ 8 * 0x30a0000 ≤ g.a) → g.a ≠ (R.SKW_LINK.state k).a → t.get g = s.get g

theorem dropped_skwDrop (s : State) (k st : Nat) : Dropped s (s.skwDrop k st) k st := by
  have flumes := holdFlumes_unflumed ((s.skwGone k st).flumesOn k) (fun x => { x with linkDown := true, opening := true }) (s.skwGone k st)
  have gone : s.skwDrop k st = ((s.skwGone k st).flumesOn k).foldl
      (fun s f => s.holdFlume f (fun x => { x with linkDown := true, opening := true })) (s.skwGone k st) := rfl
  have regs {g : Fld} (outside : g.a < 8 * 0x3080000 ∨ 8 * 0x30a0000 ≤ g.a) : (s.skwDrop k st).get g = (s.skwGone k st).get g := by
    rw [gone]
    exact holdFlumes_get _ outside _ (fun f mem => flumesOn_lt mem) _
  refine ⟨?_, ?_, ?_, fun g outside apart => ?_⟩
  · rw [gone]
    exact (unlinkedAll_of_unflumed flumes).trans ((put_unlinkedAll ..).trans (unlinkedAll_of_unlinked (setSkw_unlinked ..)))
  · rw [gone]
    exact (links_of_unflumed flumes).trans rfl
  · rw [regs (.inr (by simp only [R.SKW_LINK.state]; omega))]
    exact State.get_put_same _ _ _
  · rw [regs outside]
    exact (State.get_put_other _ _ _ _ apart).trans (get_of_unlinked (setSkw_unlinked ..) g)

/-- What recovery leaves. -/
theorem recovered (s : State) (k : Nat) : (s.skwRecover k).get (R.SKW_LINK.state k) = 4 ∧ (s.skwRecover k).skw k = (s.skw k).dropped ∧
    LinkFrame s (s.skwRecover k) k ∧ SameMem s (s.skwRecover k) := by
  obtain ⟨rest, links, state, -⟩ := dropped_skwDrop s k 4
  have same : (s.skwRecover k).unlinkedAll = s.unlinkedAll := (count_unlinkedAll ..).trans rest
  have linked : (s.skwRecover k).links = (s.setSkw k (s.skw k).dropped).links := links
  refine ⟨(State.get_count_other _ _ _ _ ?_).trans state, ?_, linkFrame_of_unlinkedAll same fun j other => ?_, (rest_of_unlinkedAll same).1⟩
  · simp only [R.SKW_LINK.state, R.SKW_LINK.recov]
    omega
  · rw [skw_of_links linked, skw_setSkw_same]
  · rw [skw_of_links linked, skw_setSkw, if_neg other]

/-! ## The commands -/

/-- The link with the frames up to number `n` acknowledged. -/
def State.ackedLink (s : State) (k n : Nat) : SkwLink := if s.skwUp k = true then ((s.skw k).ackTo n).settle else (s.skw k).ackTo n

theorem skwAcked_eq (s : State) (k n : Nat) : s.skwAcked k n = s.setSkw k (s.ackedLink k n) := rfl

theorem ackedLink_of {s : State} {k n : Nat} {x : SkwLink} (acked : (s.skw k).ackTo n = x) : (s.ackedLink k n).replay = x.replay ∧
    (s.ackedLink k n).queue = x.queue ∧ (s.ackedLink k n).opened = x.opened ∧ (s.ackedLink k n).marked = x.marked ∧
    (s.ackedLink k n).resent = x.resent ∧ (s.ackedLink k n).red = if s.skwUp k = true then x.settle.red else x.red := by
  unfold State.ackedLink
  rw [acked]
  split <;> exact ⟨rfl, rfl, rfl, rfl, rfl, rfl⟩

section
variable {s : State} {k : Fin 24} (live : s.skwLive k.val = true)

include live

theorem exec_skwAck (n : BitVec 32) : exec (.skwAck k n) s = .next (
    State.skwPump k.val (((s.skwAcked k.val n.toNat).skw k.val).queue.length + 1) (s.skwAcked k.val n.toNat)) :=
  congrArg Host.Outcome.next (if_pos live)

/-- The state of a NAK before the frames are sent again: what it acknowledges does not count as a success. -/
def State.nakked (s : State) (k n : Nat) : State :=
  (s.skwAcked k ((n + 2 ^ 32 - 1) % 2 ^ 32)).setSkw k { (s.skwAcked k ((n + 2 ^ 32 - 1) % 2 ^ 32)).skw k with resent := (s.skw k).resent }

theorem exec_skwNak (n : BitVec 32) : exec (.skwNak k n) s = .next (
    State.skwPump k.val ((((s.nakked k.val n.toNat).skwResend k.val n.toNat).skw k.val).queue.length + 1) ((s.nakked k.val n.toNat).skwResend k.val n.toNat)) :=
  congrArg Host.Outcome.next (if_pos live)

theorem exec_skwReplayTimeout {f : SkwFrame} {fs : List SkwFrame} (replay : (s.skw k.val).replay = f :: fs) :
    exec (.skwReplayTimeout k) s = .next (s.skwResend k.val f.seq) := by
  refine congrArg Host.Outcome.next ((if_pos live).trans ?_)
  rw [replay]

theorem exec_skwReplayTimeout_empty (replay : (s.skw k.val).replay = []) : exec (.skwReplayTimeout k) s = .next s := by
  refine congrArg Host.Outcome.next ((if_pos live).trans ?_)
  rw [replay]

theorem exec_skwAckTimer (some : 0 < (s.skw k.val).unack) : exec (.skwAckTimer k) s = .next (
    (s.setSkw k.val { s.skw k.val with unack := 0 }).skwLinkFrame k.val ftACK (((s.skw k.val).rx + 2 ^ 32 - 1) % 2 ^ 32)) :=
  congrArg Host.Outcome.next (if_pos ⟨live, some⟩)

theorem exec_skwBlockIdleClose : exec (.skwBlockIdleClose k) s = .next (s.skwTag k.val) := congrArg Host.Outcome.next (if_pos live)

end

theorem nakked_of_none {s : State} {k n : Nat} (none_ : ∀ g ∈ (s.skw k).replay, g.seq ≠ (n + 2 ^ 32 - 1) % 2 ^ 32) :
    ((s.nakked k n).skw k).replay = (s.skw k).replay ∧ ((s.nakked k n).skw k).queue = (s.skw k).queue ∧ ((s.nakked k n).skw k).opened = (s.skw k).opened ∧
      ((s.nakked k n).skw k).marked = (s.skw k).marked ∧ ((s.nakked k n).skw k).resent = (s.skw k).resent := by
  obtain ⟨replay, queue, opened, marked, -, -⟩ := ackedLink_of (ackTo_kept none_)
  unfold State.nakked
  rw [skw_setSkw_same, skwAcked_eq, skw_setSkw_same]
  exact ⟨replay, queue, opened, marked, rfl⟩

theorem nakked_unlinked (s : State) (k n : Nat) : (s.nakked k n).unlinked = s.unlinked :=
  (setSkw_unlinked ..).trans (skwAcked_eq s k _ ▸ setSkw_unlinked ..)

theorem nakked_links (s : State) (k n j : Nat) (other : j ≠ k) : (s.nakked k n).skw j = s.skw j := by
  rw [State.nakked, skw_setSkw, if_neg other, skwAcked_eq, skw_setSkw, if_neg other]

theorem skwTag_closed {s : State} {k : Nat} (closed : (s.skw k).opened = [] ∨ 4096 ≤ (s.skw k).replay.length) : s.skwTag k = s := by
  unfold State.skwTag
  exact if_pos (closed.imp_left fun none_ => by rw [SkwLink.block, none_]; rfl)

/-- The TAG of the open block. -/
theorem skwTag_opened {s : State} {k : Nat} (opened : (s.skw k).opened ≠ []) (room : (s.skw k).replay.length < 4096) :
    let x := s.skw k
    let tag := blockTag ((x.keys.map Prod.fst).getD []) x.txBlk x.opened
    ((s.skwTag k).skw k).opened = [] ∧ ((s.skwTag k).skw k).txBlk = (if x.marked then 0 else x.txBlk + 1) ∧
      (s.skwTag k).out = frameOut k ftTAG (frameBytes ftTAG x.tx (frameFront ftTAG (x.opened.length :: tag.map BitVec.toNat))) :: s.out := by
  have some : ¬((s.skw k).block = 0 ∨ 4096 ≤ (s.skw k).replay.length) := by
    rw [SkwLink.block, List.length_eq_zero_iff]
    exact not_or.2 ⟨opened, by omega⟩
  unfold State.skwTag State.skwPut
  dsimp only
  rw [if_neg some]
  simp only [emit_skw, skw_setSkw_same]
  cases marked : (s.skw k).marked
  · exact ⟨rfl, rfl, rfl⟩
  · exact ⟨rfl, rfl, rfl⟩

/-! ## A frame that fails its check (R402, R403) -/

/-- The two counts of a link that a bad frame changes. -/
def State.badCounted (s : State) (k fec uncorr : Nat) : State := (s.count (R.SKW_LINK.fec k) fec).count (R.SKW_LINK.uncorr k) uncorr

/-- The answer with NAK to a bad frame. -/
def State.nakAnswered (s : State) (k : Nat) : State := (s.setSkw k { s.skw k with nakAt := some s.now }).skwLinkFrame k ftNAK (s.skw k).rx

theorem badCounted_get (s : State) (k fec uncorr : Nat) {g : Fld} (one : g.a ≠ (R.SKW_LINK.fec k).a) (two : g.a ≠ (R.SKW_LINK.uncorr k).a) :
    (s.badCounted k fec uncorr).get g = s.get g := (State.get_count_other _ _ _ _ two).trans (State.get_count_other _ _ _ _ one)

theorem nakAnswered_unlinked (s : State) (k : Nat) : (s.nakAnswered k).unlinked = s.unlinked :=
  (emit_unlinked ..).trans ((setSkw_unlinked ..).trans (setSkw_unlinked ..))

theorem nakAnswered_skw (s : State) (k j : Nat) : (s.nakAnswered k).skw j =
    if j = k then ({ s.skw k with nakAt := some s.now } : SkwLink).sent false else s.skw j := by
  have same : (s.nakAnswered k).skw j = ((s.setSkw k { s.skw k with nakAt := some s.now }).setSkw k
    (((s.setSkw k { s.skw k with nakAt := some s.now }).skw k).sent false)).skw j := rfl
  rw [same, skw_setSkw, skw_setSkw_same, skw_setSkw]
  split <;> rfl

/-- When the spec answers a bad frame with NAK. -/
def State.naks (s : State) (k typ : Nat) : Prop := s.skwLive k = true ∧ ftNAK < typ ∧ ∀ n, (s.skw k).nakAt = some n → n + 1400 ≤ s.now

theorem exec_skwCorruptFrame_off {s : State} {k : Fin 24} (mode : s.skwMode k.val = false) (typ : BitVec 4) (fec uncorr : BitVec 16) :
    exec (.skwCorruptFrame ⟨k, typ, fec, uncorr⟩) s = .next s := congrArg Host.Outcome.next (if_neg (mode ▸ Bool.false_ne_true))

theorem badCounted_skwLive (s : State) (k fec uncorr : Nat) : (s.badCounted k fec uncorr).skwLive k = s.skwLive k := by
  unfold State.skwLive State.skwUp
  rw [badCounted_get] <;> simp only [R.SKW_LINK.state, R.SKW_LINK.fec, R.SKW_LINK.uncorr] <;> omega

/-- The model's own test for the answer. -/
def State.mayNak (s : State) (k : Nat) : Bool := match (s.skw k).nakAt with
  | some t => decide (t + 1400 ≤ s.now)
  | none => true

theorem mayNak_iff (s : State) (k : Nat) : s.mayNak k = true ↔ ∀ n, (s.skw k).nakAt = some n → n + 1400 ≤ s.now := by
  unfold State.mayNak
  cases (s.skw k).nakAt with
  | none => simp
  | some t => simp

theorem exec_skwCorruptFrame {s : State} {k : Fin 24} (mode : s.skwMode k.val = true) (typ : BitVec 4) (fec uncorr : BitVec 16) :
    exec (.skwCorruptFrame ⟨k, typ, fec, uncorr⟩) s = .next (
      if ((s.badCounted k.val fec.toNat uncorr.toNat).skwLive k.val && s.mayNak k.val && decide (ftNAK < typ.toNat)) = true then
        (s.badCounted k.val fec.toNat uncorr.toNat).nakAnswered k.val
      else s.badCounted k.val fec.toNat uncorr.toNat) :=
  congrArg Host.Outcome.next (if_pos mode)

theorem naks_iff (s : State) (k typ fec uncorr : Nat) :
    ((s.badCounted k fec uncorr).skwLive k && s.mayNak k && decide (ftNAK < typ)) = true ↔ s.naks k typ := by
  rw [badCounted_skwLive, Bool.and_eq_true, Bool.and_eq_true, mayNak_iff, decide_eq_true_iff, State.naks]
  tauto

/-! ## The clauses -/

theorem skwAck_clause {s : State} {k : Fin 24} (live : s.skwLive k.val = true) {pre post : List SkwFrame} {f : SkwFrame}
    (replay : (s.skw k.val).replay = pre ++ f :: post) (first : ∀ g ∈ pre, g.seq ≠ f.seq) (small : f.seq < 2 ^ 32)
    (idle : (s.skw k.val).queue = [] ∧ (s.skw k.val).block < 63 ∧ (s.skw k.val).marked = false) :
    exec (.skwAck k (BitVec.ofNat 32 f.seq)) s = .next (s.skwAcked k.val f.seq) := by
  obtain ⟨queue, block, marked⟩ := idle
  obtain ⟨-, queued, opened, mark, -, -⟩ := ackedLink_of (ackTo_found replay first)
  have same : (s.skwAcked k.val f.seq).skw k.val = s.ackedLink k.val f.seq := skw_setSkw_same ..
  have pump := skwPump_idle (s := s.skwAcked k.val f.seq) (k := k.val) (by rw [same, queued]; exact queue)
    (by rw [same, SkwLink.block, opened]; exact block) (by rw [same, mark]; exact marked)
  rw [exec_skwAck live, BitVec.toNat_ofNat, Nat.mod_eq_of_lt small, pump]

theorem ackedLink_red {s : State} {k : Nat} {pre post : List SkwFrame} {f : SkwFrame} (replay : (s.skw k).replay = pre ++ f :: post)
    (first : ∀ g ∈ pre, g.seq ≠ f.seq) (queue : (s.skw k).queue = []) : (s.ackedLink k f.seq).red =
      if s.skwUp k = true then (s.skw k).red.filter (fun m => post.any (fun g => m.owns g.typ g.body)) else (s.skw k).red := by
  obtain ⟨-, -, -, -, -, red⟩ := ackedLink_of (ackTo_found replay first)
  rw [red]
  unfold SkwLink.settle
  simp only [queue, List.any_nil, Bool.or_false]

theorem skwAck_any {s : State} {k : Fin 24} (live : s.skwLive k.val = true) (n : BitVec 32) :
    ∃ t, exec (.skwAck k n) s = .next t ∧ (SameMem s t ∧ t.regs = s.regs ∧ t.flumes = s.flumes ∧ t.seqs = s.seqs ∧ LinkFrame s t k.val) ∧
      ((∀ g ∈ (s.skw k.val).replay, g.seq ≠ n.toNat) → ∀ g ∈ (s.skw k.val).replay, g ∈ (t.skw k.val).replay) := by
  have pumped := sends_skwPump k.val (((s.skwAcked k.val n.toNat).skw k.val).queue.length + 1) (s.skwAcked k.val n.toNat)
  refine ⟨_, exec_skwAck live n, still_of_unlinked (pumped.rest.trans (skwAcked_eq s k.val n.toNat ▸ setSkw_unlinked ..)) fun j other => ?_,
    fun none_ g mem => pumped.kept g ?_⟩
  · rw [pumped.links j other, skwAcked_eq, skw_setSkw, if_neg other]
  · rw [skwAcked_eq, skw_setSkw_same, (ackedLink_of (ackTo_kept none_)).1]
    exact mem

theorem skwResend_none {s : State} {k n : Nat} (replay : (s.skw k).replay = []) : s.skwResend k n = s := by
  unfold State.skwResend
  dsimp only
  rw [replay, List.findIdx?_nil]

theorem forall_mem_of_nil {α : Type} {l : List α} (empty : l = []) (p : α → Prop) : ∀ x ∈ l, p x := by rw [empty]; exact List.forall_mem_nil _

theorem skwNak_empty {s : State} {k : Fin 24} (live : s.skwLive k.val = true) (n : BitVec 32) (replay : (s.skw k.val).replay = [])
    (idle : (s.skw k.val).queue = [] ∧ (s.skw k.val).block < 63 ∧ (s.skw k.val).marked = false) :
    exec (.skwNak k n) s = .next (s.nakked k.val n.toNat) := by
  obtain ⟨kept, queue, opened, marked, -⟩ := nakked_of_none (s := s) (k := k.val) (n := n.toNat) (forall_mem_of_nil replay _)
  have pump := skwPump_idle (queue.trans idle.1) (by rw [SkwLink.block, opened]; exact idle.2.1) (marked.trans idle.2.2)
  rw [exec_skwNak live, skwResend_none (kept.trans replay), pump]

theorem Resent.of_unlinked {s u t : State} {k : Nat} (sent : Resent u t k) (rest : u.unlinked = s.unlinked) (out : u.out = s.out)
    (links : ∀ j, j ≠ k → u.skw j = s.skw j) (replay : (u.skw k).replay = (s.skw k).replay) :
    t.out = ((s.skw k).replay.map fun f => frameOut k f.typ f.bytes).reverse ++ s.out ∧ (t.skw k).replay = (s.skw k).replay ∧
      s.Counted t (R.SKW_LINK.resend k) (s.skw k).replay.length ∧ SameRegsBut s t [R.SKW_LINK.resend k] ∧ t.flumes = s.flumes ∧
      LinkFrame s t k ∧ SameMem s t := by
  obtain ⟨mem, -, flumes, -, frame⟩ := still_of_unlinked rest links
  have regs (g : Fld) : u.get g = s.get g := get_of_unlinked rest g
  refine ⟨by rw [sent.out, out, replay], sent.replay.trans replay, ?_, fun g apart => (sent.regs g apart).trans (regs g),
    sent.flumes.trans flumes, ⟨fun j other => (sent.frame.links j other).trans (links j other), ?_⟩, mem.trans sent.mem⟩
  · have count := sent.count
    rw [State.Counted, regs, replay] at count
    exact count
  · have both := (congrArg (fun v : State =>
      { v with regs := s.regs, links := s.links, flumes := s.flumes, log := s.log, out := s.out, pba := s.pba, free := s.free }) sent.frame.rest :)
    exact both.trans frame.rest

theorem skwNak_clause {s : State} {k : Fin 24} (live : s.skwLive k.val = true) {f : SkwFrame} {fs : List SkwFrame}
    (replay : (s.skw k.val).replay = f :: fs) (small : f.seq < 2 ^ 32) (few : ¬((s.skw k.val).resent.1 = f.seq ∧ 8 ≤ (s.skw k.val).resent.2))
    (idle : (s.skw k.val).queue = [] ∧ (s.skw k.val).block < 63 ∧ (s.skw k.val).marked = false)
    (fresh : ∀ g ∈ (s.skw k.val).replay, g.seq ≠ (f.seq + 2 ^ 32 - 1) % 2 ^ 32) :
    exec (.skwNak k (BitVec.ofNat 32 f.seq)) s = .next ((s.nakked k.val f.seq).resends k.val f.seq) := by
  obtain ⟨kept, queue, opened, marked, resent⟩ := nakked_of_none fresh
  have sent := resent_resends (s.nakked k.val f.seq) k.val f.seq
  have pump := skwPump_idle (s := (s.nakked k.val f.seq).resends k.val f.seq) (k := k.val) (sent.queue.trans (queue.trans idle.1))
    (by rw [SkwLink.block, sent.opened, opened]; exact idle.2.1) (sent.marked.trans (marked.trans idle.2.2))
  rw [exec_skwNak live, BitVec.toNat_ofNat, Nat.mod_eq_of_lt small, skwResend_first (kept.trans replay) (by rw [resent]; exact few), pump]

theorem nakked_out (s : State) (k n : Nat) : (s.nakked k n).out = s.out := rfl

theorem skwAckTimer_clause {s : State} {k : Fin 24} (live : s.skwLive k.val = true) (some : 0 < (s.skw k.val).unack) :
    ∃ t, exec (.skwAckTimer k) s = .next t ∧ t.out = linkOut k.val ftACK (((s.skw k.val).rx + 2 ^ 32 - 1) % 2 ^ 32) :: s.out ∧
      (t.skw k.val).unack = 0 ∧ (t.skw k.val).replay = (s.skw k.val).replay ∧ SameMem s t ∧ t.regs = s.regs ∧ t.flumes = s.flumes ∧
      t.seqs = s.seqs ∧ LinkFrame s t k.val := by
  refine ⟨_, exec_skwAckTimer live some, rfl, ?_, ?_, ?_⟩
  · rw [State.skwLinkFrame, emit_skw, skw_setSkw_same, skw_setSkw_same]
    rfl
  · rw [State.skwLinkFrame, emit_skw, skw_setSkw_same, skw_setSkw_same]
    rfl
  · refine still_of_unlinked ((emit_unlinked ..).trans ((setSkw_unlinked ..).trans (setSkw_unlinked ..))) fun j other => ?_
    rw [State.skwLinkFrame, emit_skw, skw_setSkw, if_neg other, skw_setSkw, if_neg other]

theorem skwCorruptFrame_clause {s : State} {k : Fin 24} (mode : s.skwMode k.val = true) (typ : BitVec 4) (fec uncorr : BitVec 16) :
    ∃ t, exec (.skwCorruptFrame ⟨k, typ, fec, uncorr⟩) s = .next t ∧ s.Counted t (R.SKW_LINK.fec k.val) fec.toNat ∧
      s.Counted t (R.SKW_LINK.uncorr k.val) uncorr.toNat ∧ SameRegsBut s t [R.SKW_LINK.fec k.val, R.SKW_LINK.uncorr k.val] ∧
      t.flumes = s.flumes ∧ SameMem s t ∧ LinkFrame s t k.val ∧
      (s.naks k.val typ.toNat → t.out = linkOut k.val ftNAK (s.skw k.val).rx :: s.out ∧ (t.skw k.val).nakAt = some s.now) ∧
      (¬s.naks k.val typ.toNat → t.out = s.out ∧ t.links = s.links) := by
  have run := exec_skwCorruptFrame mode typ fec uncorr
  have test := naks_iff s k.val typ.toNat fec.toNat uncorr.toNat
  have fecs : (s.badCounted k.val fec.toNat uncorr.toNat).get (R.SKW_LINK.fec k.val) =
      min (s.get (R.SKW_LINK.fec k.val) + fec.toNat) (2 ^ (R.SKW_LINK.fec k.val).w - 1) :=
    (State.get_count_other _ _ _ _ (by simp only [R.SKW_LINK.fec, R.SKW_LINK.uncorr]; omega)).trans (State.get_count_same ..)
  have uncorrs : (s.badCounted k.val fec.toNat uncorr.toNat).get (R.SKW_LINK.uncorr k.val) =
      min (s.get (R.SKW_LINK.uncorr k.val) + uncorr.toNat) (2 ^ (R.SKW_LINK.uncorr k.val).w - 1) := by
    refine (State.get_count_same ..).trans ?_
    rw [State.get_count_other _ _ _ _ (by simp only [R.SKW_LINK.fec, R.SKW_LINK.uncorr]; omega)]
  have regs : SameRegsBut s (s.badCounted k.val fec.toNat uncorr.toNat) [R.SKW_LINK.fec k.val, R.SKW_LINK.uncorr k.val] := fun g apart =>
    badCounted_get s _ _ _ (apart _ List.mem_cons_self) (apart _ (List.mem_cons_of_mem _ List.mem_cons_self))
  have all : (s.badCounted k.val fec.toNat uncorr.toNat).unlinkedAll = s.unlinkedAll := rfl
  have links : (s.badCounted k.val fec.toNat uncorr.toNat).links = s.links := rfl
  have flumes : (s.badCounted k.val fec.toNat uncorr.toNat).flumes = s.flumes := rfl
  have out : (s.badCounted k.val fec.toNat uncorr.toNat).out = s.out := rfl
  have now : (s.badCounted k.val fec.toNat uncorr.toNat).now = s.now := rfl
  have skw := skw_of_links links
  generalize s.badCounted k.val fec.toNat uncorr.toNat = u at *
  by_cases naks : s.naks k.val typ.toNat
  · have rest := nakAnswered_unlinked u k.val
    have kept (g : Fld) := get_of_unlinked rest g
    have full := (unlinkedAll_of_unlinked rest).trans all
    refine ⟨_, run.trans (congrArg _ (if_pos (test.2 naks))), (kept _).trans fecs, (kept _).trans uncorrs, fun g apart => (kept g).trans (regs g apart),
      (congrArg State.flumes rest :).trans flumes, (rest_of_unlinkedAll full).1, linkFrame_of_unlinkedAll full fun j other => ?_, fun _ => ⟨?_, ?_⟩,
      fun not => absurd naks not⟩
    · rw [nakAnswered_skw, if_neg other, skw]
    · rw [← skw, ← out]
      rfl
    · rw [nakAnswered_skw, if_pos rfl, ← now]
      rfl
  · exact ⟨u, run.trans (congrArg _ (if_neg fun is => naks (test.1 is))), fecs, uncorrs, regs, flumes, (rest_of_unlinkedAll all).1,
      linkFrame_of_unlinkedAll all fun j _ => skw j, fun is => absurd is naks, fun _ => ⟨out, links⟩⟩

theorem skw_dead {s : State} {k : Fin 24} (dead : s.skwLive k.val = false) :
    (∀ i ∈ [Instr.skwReplayTimeout k, .skwAckTimer k, .skwBlockIdleClose k], exec i s = .next s) ∧
      ∀ n, exec (.skwAck k n) s = .next s ∧ exec (.skwNak k n) s = .next s := by
  have off : ¬s.skwLive k.val = true := dead ▸ Bool.false_ne_true
  refine ⟨fun i mem => ?_, fun n => ⟨congrArg Host.Outcome.next (if_neg off), congrArg Host.Outcome.next (if_neg off)⟩⟩
  obtain rfl | rfl | rfl : i = .skwReplayTimeout k ∨ i = .skwAckTimer k ∨ i = .skwBlockIdleClose k := by simpa using mem
  · exact congrArg Host.Outcome.next (if_neg off)
  · exact congrArg Host.Outcome.next (if_neg fun is => off is.1)
  · exact congrArg Host.Outcome.next (if_neg off)

/-- Settles O27: each retry command only sends on its link, or sends it into recovery, and counts. -/
theorem skidwayRetry : Obligations.SkidwayRetry := by
  unfold Obligations.SkidwayRetry
  intro s k
  refine ⟨skw_dead, fun live => ⟨fun pre f post replay first small idle => ?_, fun n => skwAck_any live n, fun n replay idle => ?_,
    fun f fs replay small few => ⟨fun idle fresh => ?_, ?_⟩, fun f fs replay same many => ?_, skwAckTimer_clause live, fun none_ => ?_,
    exec_skwReplayTimeout_empty live, fun closed => ?_, fun opened room => ?_⟩,
    fun typ fec uncorr => ⟨fun mode => exec_skwCorruptFrame_off mode .., fun mode => skwCorruptFrame_clause mode ..⟩⟩
  · have same : (s.skwAcked k.val f.seq).skw k.val = s.ackedLink k.val f.seq := skw_setSkw_same ..
    refine ⟨_, skwAck_clause live replay first small idle, ?_, rfl, still_of_unlinked (skwAcked_eq s k.val f.seq ▸ setSkw_unlinked ..) fun j other => ?_, ?_⟩
    · rw [same, (ackedLink_of (ackTo_found replay first)).1]
    · rw [skwAcked_eq, skw_setSkw, if_neg other]
    · rw [same, ackedLink_red replay first idle.1]
  · refine ⟨_, skwNak_empty live n replay idle, still_of_unlinked (nakked_unlinked ..) fun j other => nakked_links _ _ _ _ other, nakked_out .., ?_⟩
    exact (nakked_of_none (forall_mem_of_nil replay _)).1.trans replay
  · exact ⟨_, skwNak_clause live replay small few idle fresh, (resent_resends _ _ _).of_unlinked (nakked_unlinked ..) (nakked_out ..)
      (fun j other => nakked_links _ _ _ _ other) (nakked_of_none fresh).1⟩
  · obtain ⟨out, kept, count, regs, flumes, frame, mem, seqs, -⟩ := resent_resends s k.val f.seq
    exact ⟨_, (exec_skwReplayTimeout live replay).trans (congrArg _ (skwResend_first replay few)), out, kept, count, regs, flumes, frame, mem, seqs⟩
  · obtain ⟨state, dropped, frame, mem⟩ := recovered s k.val
    refine ⟨_, (exec_skwReplayTimeout live replay).trans (congrArg _ (skwResend_recover replay same many)), state, ?_, ?_, frame, mem⟩
    · rw [dropped]; rfl
    · rw [dropped]; rfl
  · exact congrArg Host.Outcome.next (if_neg fun is => absurd is.2 (by omega))
  · exact (exec_skwBlockIdleClose live).trans (congrArg _ (skwTag_closed closed))
  · obtain ⟨closed, blk, out⟩ := skwTag_opened opened room
    have sends := sends_skwTag s k.val
    exact ⟨_, exec_skwBlockIdleClose live, closed, still_of_unlinked sends.rest sends.links, blk, out⟩

end Sys2Proof.Machine

namespace Sys2Proof.Machine

-- One proof at a time: threads that wait for each other hold memory.
set_option Elab.async false

/-! ## What the notes of a memory access change (R384 to R388) -/

/-- A field that no note of a memory access writes: none of the error counters, and none of the logs. -/
def Unnoted (g : Fld) : Prop :=
  g.a < 8 * 0x167000 ∨ (8 * 0x3000000 ≤ g.a ∧ g.a < 8 * 0x3c00000 ∧ g.a % 64 ≠ 32 ∧ g.a % 64 ≠ 48 ∧ g.a % 128 ≠ 64)

theorem Unnoted.low {g : Fld} (apart : Unnoted g) : g.a < 8 * 0x3c00000 := by
  unfold Unnoted at apart
  omega

theorem regionOf_tile {u n : Nat} (region : regionOf u = .tile n) : n < 24 := by
  unfold regionOf at region
  split at region
  · cases region
  split at region
  · cases region
  split at region
  · cases region
  split at region
  · dsimp only at region
    split at region <;> cases region
  split at region
  · next inside =>
    dsimp only at region
    split at region
    · cases region
      have top : u < 0x0410_0000_0000 + 24 * 0x0400_0000 := inside.2
      omega
    · cases region
  · cases region

theorem regionOf_far {u f : Nat} (region : regionOf u = .far f) : f < 2 := by
  unfold regionOf at region
  split at region
  · cases region
  split at region
  · cases region; decide
  split at region
  · cases region; decide
  split at region
  · dsimp only at region
    split at region <;> cases region
  split at region
  · dsimp only at region
    split at region <;> cases region
  · cases region

/-- What is left of a state beside what the notes of a memory access change. -/
def State.unnoted (s : State) : State :=
  { s with regs := [], log := [], out := [], pba := [], bad := [], soft := [], plist := [], linkErr := [], pkts := [], pktNext := 0, spnTx := [] }

theorem unnoted_of_unlogged {s t : State} (same : t.unlogged = s.unlogged) : t.unnoted = s.unnoted := (congrArg State.unnoted same :)

theorem unnoted_of_unrouted {s t : State} (same : t.unrouted = s.unrouted) : t.unnoted = s.unnoted := (congrArg State.unnoted same :)

theorem unnoted_of_unfixed {s t : State} (same : t.unfixed = s.unfixed) : t.unnoted = s.unnoted := (congrArg State.unnoted same :)

theorem raise_unnoted (s : State) (code : Nat) (ctx : Option Nat) (w : Where) (detail : Nat) : (s.raise code ctx w detail).unnoted = s.unnoted :=
  unnoted_of_unlogged (raise_unlogged ..)

theorem get_of_unrouted' {s t : State} (same : t.unrouted = s.unrouted) (g : Fld) : t.get g = s.get g := get_congr (congrArg State.regs same :) g

/-- The far tier's list of bad granules with one more. -/
def State.farListed (s : State) (f u : Nat) : State :=
  if s.plist.contains u then s
  else if s.plistFull f then { s with linkErr := s.linkErr.filter (· ≠ u) }.put (R.FAR_ECC.ovf f) 1
  else { s with plist := (u :: s.plist).mergeSort (· ≤ ·), linkErr := s.linkErr.filter (· ≠ u) }

theorem farListed_unnoted (s : State) (f u : Nat) : (s.farListed f u).unnoted = s.unnoted := by
  unfold State.farListed
  split
  · rfl
  · split <;> rfl

theorem farListed_keeps (s : State) (f u : Nat) {g : Fld} (apart : g.a ≠ (R.FAR_ECC.ovf f).a) : (s.farListed f u).get g = s.get g := by
  unfold State.farListed
  split
  · rfl
  · split
    · exact (State.get_put_other _ _ _ _ apart).trans (get_congr rfl g)
    · exact get_congr rfl g

theorem noteBad_far {s : State} {ctx : Option Nat} {u f : Nat} (region : regionOf u = .far f) : s.noteBad ctx u =
    (((s.farListed f u).count (R.FAR_ECC.uncorr f) 1).put (R.FAR_ECC.last f) u).raise E.SEQ_FAR_ECC ctx (atFar f) u := by
  unfold State.noteBad
  rw [region]
  rfl

theorem errorAt_unnoted (s : State) (f h : Fld) (v : Nat) : ((s.count f 1).put h v).unnoted = s.unnoted := rfl

theorem noteBad_unnoted (s : State) (ctx : Option Nat) (u : Nat) : (s.noteBad ctx u).unnoted = s.unnoted := by
  cases region : regionOf u with
  | far f =>
    rw [noteBad_far region, raise_unnoted, errorAt_unnoted, farListed_unnoted]
  | hbm _ | flume _ | tile _ =>
    unfold State.noteBad
    rw [region]
    exact (unnoted_of_unlogged (logAs_unlogged ..)).trans (errorAt_unnoted ..)
  | unmapped =>
    unfold State.noteBad
    rw [region]

/-- A count and the last place of an error. -/
theorem errorAt_keeps (s : State) {f h g : Fld} (count : g.a ≠ f.a) (last : g.a ≠ h.a) (v : Nat) : ((s.count f 1).put h v).get g = s.get g :=
  (State.get_put_other _ _ _ _ last).trans (State.get_count_other _ _ _ _ count)

theorem noteBad_keeps (s : State) (ctx : Option Nat) (u : Nat) {g : Fld} (apart : Unnoted g) : (s.noteBad ctx u).get g = s.get g := by
  have low : g.a < 8 * 0x3e00000 := lt_of_lt_of_le apart.low (by decide)
  unfold Unnoted at apart
  cases region : regionOf u with
  | hbm h =>
    unfold State.noteBad
    rw [region]
    refine (raise_get _ low).trans (errorAt_keeps s ?_ ?_ u) <;> simp only [R.HBM_ECC.uncorr, R.HBM_ECC.last] <;> omega
  | flume h =>
    unfold State.noteBad
    rw [region]
    refine (raise_get _ low).trans (errorAt_keeps s ?_ ?_ u) <;> simp only [R.HBM_ECC.uncorr, R.HBM_ECC.last] <;> omega
  | far f =>
    have small := regionOf_far region
    rw [noteBad_far region, raise_get _ low, errorAt_keeps, farListed_keeps] <;>
      simp only [R.FAR_ECC.ovf, R.FAR_ECC.uncorr, R.FAR_ECC.last] <;> omega
  | tile n =>
    have small := regionOf_tile region
    unfold State.noteBad
    rw [region]
    refine (logAs_get _ low).trans (errorAt_keeps s ?_ ?_ _) <;> simp only [R.TS_ECC.uncorr, R.TS_ECC.last] <;> omega
  | unmapped =>
    unfold State.noteBad
    rw [region]

theorem fixWord_keeps (s : State) (u : Nat) {g : Fld} (apart : Unnoted g) : (s.fixWord u).get g = s.get g := by
  unfold Unnoted at apart
  unfold State.fixWord
  dsimp only
  split
  · next f corr =>
    refine (State.get_count_other _ _ _ _ ?_).trans (get_congr rfl g)
    unfold State.corrFld at corr
    split at corr
    · cases corr; simp only [R.HBM_ECC.corr]; omega
    · cases corr; simp only [R.HBM_ECC.corr]; omega
    · next n region =>
      have small := regionOf_tile region
      cases corr; simp only [R.TS_ECC.corr]; omega
    · cases corr
  · exact get_congr rfl g

/-! ### Reads and writes from S0 -/

theorem logDown_unlogged (s : State) (ctx : Option Nat) (at' : Nat → Nat → Where) (a n : Nat) : (s.logDown ctx at' a n).unlogged = s.unlogged := by
  refine foldl_keeps State.unlogged _ (fun t b => ?_) _ s
  split
  · exact raise_unlogged ..
  · rfl

theorem logDown_get (s : State) (ctx : Option Nat) (at' : Nat → Nat → Where) (a n : Nat) {g : Fld} (low : g.a < 8 * 0x3e00000) :
    (s.logDown ctx at' a n).get g = s.get g := by
  refine foldl_keeps (State.get · g) _ (fun t b => ?_) _ s
  split
  · exact raise_get _ low
  · rfl

theorem s0Note_unnoted (s : State) (ctx : Option Nat) (a n : Nat) : (s.s0Note ctx a n).unnoted = s.unnoted := by
  refine (unnoted_of_unrouted (crossing_unrouted ..)).trans ?_
  refine (foldl_keeps State.unnoted _ (fun t u => noteBad_unnoted t ctx u) _ _).trans ?_
  exact (foldl_keeps State.unnoted _ (fun t u => unnoted_of_unfixed (fixWord_unfixed t u)) _ _).trans (unnoted_of_unlogged (logDown_unlogged ..))

theorem s0Note_keeps (s : State) (ctx : Option Nat) (a n : Nat) {g : Fld} (apart : Unnoted g) : (s.s0Note ctx a n).get g = s.get g := by
  refine (get_of_unrouted' (crossing_unrouted ..) g).trans ?_
  refine (foldl_keeps (State.get · g) _ (fun t u => noteBad_keeps t ctx u apart) _ _).trans ?_
  exact (foldl_keeps (State.get · g) _ (fun t u => fixWord_keeps t u apart) _ _).trans (logDown_get _ _ _ _ _ (lt_of_lt_of_le apart.low (by decide)))

theorem s0Note_byte (s : State) (ctx : Option Nat) (a n x : Nat) : (s.s0Note ctx a n).byte x = s.byte x := by
  have mem : (s.s0Note ctx a n).mem = s.mem := (congrArg State.mem (s0Note_unnoted s ctx a n) :)
  rw [State.byte, mem, State.byte]

/-- What is left of a state beside what a write to memory changes, with its notes. -/
def State.unwritten (s : State) : State := { s.unnoted with mem := [] }

theorem unwritten_of_unnoted {s t : State} (same : t.unnoted = s.unnoted) : t.unwritten = s.unwritten := (congrArg State.unwritten same :)

theorem write_unwritten (s : State) (a : Nat) (bs : List Byte) : (s.write a bs).unwritten = s.unwritten := rfl

theorem tileNote_unlogged (s : State) (ctx : Option Nat) (a n : Nat) : (match regionOf a with
    | .tile d => if ((s.unavailable a).isNone && s.writeBad a n) = true then s.logAs E.SEQ_TS_ECC 2 ctx (atDie d) (a - tileBase d) else s
    | _ => s).unlogged = s.unlogged := by
  split
  · split
    · exact logAs_unlogged ..
    · rfl
  · rfl

theorem tileNote_get (s : State) (ctx : Option Nat) (a n : Nat) {g : Fld} (low : g.a < 8 * 0x3e00000) : (match regionOf a with
    | .tile d => if ((s.unavailable a).isNone && s.writeBad a n) = true then s.logAs E.SEQ_TS_ECC 2 ctx (atDie d) (a - tileBase d) else s
    | _ => s).get g = s.get g := by
  split
  · split
    · exact logAs_get _ low
    · rfl
  · rfl

theorem mergeNote_unnoted (s : State) (ctx : Option Nat) (a n : Nat) : (s.mergeNote ctx a n).unnoted = s.unnoted := by
  have tile := unnoted_of_unlogged (tileNote_unlogged s ctx a n)
  unfold State.mergeNote
  dsimp only
  split
  · exact tile
  · exact (foldl_keeps State.unnoted _ (fun t u => noteBad_unnoted t ctx u) _ _).trans tile

theorem mergeNote_keeps (s : State) (ctx : Option Nat) (a n : Nat) {g : Fld} (apart : Unnoted g) : (s.mergeNote ctx a n).get g = s.get g := by
  have tile := tileNote_get s ctx a n (g := g) (lt_of_lt_of_le apart.low (by decide))
  unfold State.mergeNote
  dsimp only
  split
  · exact tile
  · exact (foldl_keeps (State.get · g) _ (fun t u => noteBad_keeps t ctx u apart) _ _).trans tile

theorem s0Write_unwritten (s : State) (ctx : Option Nat) (a : Nat) (bs : List Byte) : (s.s0Write ctx a bs).unwritten = s.unwritten := by
  refine (unwritten_of_unnoted (unnoted_of_unrouted (crossing_unrouted ..))).trans ?_
  have noted := unwritten_of_unnoted (mergeNote_unnoted s ctx a bs.length)
  unfold State.writeFrom
  dsimp only
  split
  · exact noted
  · refine (unwritten_of_unnoted (unnoted_of_unlogged (logDown_unlogged ..))).trans ?_
    exact (foldl_keeps State.unwritten _ (fun _ _ => write_unwritten ..) _ _).trans noted

theorem s0Write_keeps (s : State) (ctx : Option Nat) (a : Nat) (bs : List Byte) {g : Fld} (apart : Unnoted g) : (s.s0Write ctx a bs).get g = s.get g := by
  refine (get_of_unrouted' (crossing_unrouted ..) g).trans ?_
  have noted := mergeNote_keeps s ctx a bs.length apart
  unfold State.writeFrom
  dsimp only
  split
  · exact (write_get ..).trans noted
  · refine (logDown_get _ _ _ _ _ (lt_of_lt_of_le apart.low (by decide))).trans ?_
    exact (foldl_keeps (State.get · g) _ (fun _ _ => write_get ..) _ _).trans noted

/-! ### The row areas of a context (R262) -/

/-- What is left of a state beside what new row areas change. -/
def State.unrowed (s : State) : State := { s with mem := [], bad := [], soft := [], plist := [], linkErr := [], seqs := [] }

theorem writeRow_unrowed (s : State) (k : Nat) : (s.writeRow k).unrowed = s.unrowed := by
  unfold State.writeRow
  dsimp only
  split
  · rfl
  · unfold State.signal
    split <;> rfl

theorem writeRows_unrowed (s : State) (c : Nat) : (s.writeRows c).unrowed = s.unrowed := foldl_keeps State.unrowed _ writeRow_unrowed _ s

theorem writeRows_get (s : State) (c : Nat) (g : Fld) : (s.writeRows c).get g = s.get g :=
  get_congr (congrArg State.regs (writeRows_unrowed s c) :) g

end Sys2Proof.Machine

namespace Sys2Proof.Machine

-- One proof at a time: threads that wait for each other hold memory.
set_option Elab.async false

/-! ## Messages given to a link (R406 to R410) -/

theorem sends_skwSend (s : State) (k cls typ : Nat) (body : List Nat) : Sends s (s.skwSend k cls typ body) k := by
  unfold State.skwSend
  split
  · refine Sends.trans (sends_setSkw s k ?_ ?_) (sends_skwPump ..)
    · exact fun _ mem => mem
    · rfl
  · exact Sends.refl s k

theorem sends_foldl {α : Type} {k : Nat} {f : State → α → State} (sends : ∀ s a, Sends s (f s a) k) (l : List α) (s : State) : Sends s (l.foldl f s) k := by
  induction l generalizing s with
  | nil => exact Sends.refl s k
  | cons a l ih => exact (sends s a).trans (ih _)

theorem sends_redPut (s : State) (k : Nat) (m : SkwMsg) : Sends s (s.redPut k m) k := sends_foldl (fun _ _ => sends_skwSend ..) _ s

theorem sends_skwLinkFrame (s : State) (k typ n : Nat) : Sends s (s.skwLinkFrame k typ n) k := by
  refine Sends.trans (sends_setSkw s k ?_ ?_) (sends_emit ..)
  · exact fun _ mem => mem
  · rfl

theorem sends_skwTake (s : State) (k n : Nat) : Sends s (s.skwTake k n) k := by
  unfold State.skwTake
  refine Sends.trans (sends_setSkw s k ?_ ?_) (sends_foldl (fun _ _ => sends_skwLinkFrame ..) _ _)
  · exact fun _ mem => mem
  · rfl

/-- What is left of a state beside what a reduction message changes on its way. -/
def State.untold (s : State) : State := { s with links := [], out := [], redTx := [], redRx := [] }

theorem untold_of_unlinked {s t : State} (same : t.unlinked = s.unlinked) : t.untold = s.untold := (congrArg State.untold same :)

/-- A message given to a link is its newest one not delivered. -/
theorem redGive_red (s : State) (k : Nat) (m : SkwMsg) : ((s.redGive k m).skw k).red = (s.skw k).red ++ [m] := by
  refine (sends_redPut _ k m).red.trans ?_
  rw [skw_setSkw_same]

theorem redGive_unlinked (s : State) (k : Nat) (m : SkwMsg) : (s.redGive k m).unlinked = s.unlinked :=
  (sends_redPut _ k m).rest.trans (setSkw_unlinked ..)

theorem redGo_untold (s : State) (c link src dst job kind : Nat) (body : List Nat) : (s.redGo c link src dst job kind body).untold = s.untold := by
  unfold State.redGo
  split
  · exact (untold_of_unlinked (redGive_unlinked ..)).trans rfl
  · rfl

theorem redGo_redRx (s : State) (c link src dst job kind : Nat) (body : List Nat) : (s.redGo c link src dst job kind body).redRx = s.redRx := by
  unfold State.redGo
  split
  · exact (congrArg State.redRx (redGive_unlinked _ link _) :)
  · rfl

/-- A message that is sent stands last among those not delivered on its link. -/
theorem redGo_last {s : State} {c link : Nat} (on : s.get (R.RED_CTL.en c) = 1) (small : link < 24) (src dst job kind : Nat) (body : List Nat) :
    ∃ num, ((s.redGo c link src dst job kind body).skw link).red.getLast? = some ⟨c, num, kind, dst :: src :: job :: body⟩ := by
  unfold State.redGo
  rw [if_pos ⟨flag_eq_true on, small⟩]
  exact ⟨KMap.find (fun _ => 0) s.redTx (64 * link + c), (congrArg List.getLast? (redGive_red _ link _)).trans List.getLast?_concat⟩

theorem redOn_untold (s : State) (c link dst kind : Nat) (body : List Nat) : (s.redOn c link dst kind body).untold = s.untold := redGo_untold ..

theorem redSend_untold (s : State) (c dst kind : Nat) (body : List Nat) : (s.redSend c dst kind body).untold = s.untold := redOn_untold ..

theorem redGot_untold (s : State) (h : RedHdr) (link kind n : Nat) : (s.redGot h link kind n).untold = s.untold :=
  (untold_of_unlinked (sends_skwTake s link (redFrames kind n)).rest).symm ▸ rfl

theorem redGot_redNext (s : State) (h : RedHdr) (link kind n : Nat) : (s.redGot h link kind n).redNext h.ctx.val link = h.num.toNat + 1 :=
  (KMap.find_put (fun _ => 0) _ (64 * link + h.ctx.val) (64 * link + h.ctx.val) (h.num.toNat + 1)).trans (if_pos rfl)

theorem get_of_untold {s t : State} (same : t.untold = s.untold) (g : Fld) : t.get g = s.get g := get_congr (congrArg State.regs same :) g

theorem sameMem_of_untold {s t : State} (same : t.untold = s.untold) : SameMem s t :=
  sameMem_of_eq (congrArg State.mem same :) (congrArg State.bad same :) (congrArg State.plist same :) (congrArg State.linkErr same :)

/-! ## A message that comes (R409, R410) -/

section
variable {s : State} {h : RedHdr} {link kind : Nat} {body : List Nat} {go : State → State}

theorem redIn_down (down : 24 ≤ link ∨ s.skwUp link = false) : s.redIn h link kind body go = s :=
  if_neg fun both => down.elim (fun high => absurd both.1 (by omega)) fun off => absurd (both.2.symm.trans off) Bool.noConfusion

variable (small : link < 24) (up : s.skwUp link = true)
include small up

theorem redIn_old (old : h.num.toNat < s.redNext h.ctx.val link) : s.redIn h link kind body go = s.skwTake link (redFrames kind (body.length + 3)) :=
  (if_pos ⟨small, up⟩).trans (if_pos old)

theorem redIn_new (new : s.redNext h.ctx.val link ≤ h.num.toNat) : s.redIn h link kind body go =
    if (s.redGot h link kind (body.length + 3)).redHere h = true then go (s.redGot h link kind (body.length + 3))
    else (s.redGot h link kind (body.length + 3)).redGo h.ctx.val ((s.redGot h link kind (body.length + 3)).redLinkTo h.ctx.val h.dest.toNat) h.src.toNat
      h.dest.toNat h.job.toNat kind body :=
  (if_pos ⟨small, up⟩).trans (if_neg (Nat.not_lt.2 new))

end

theorem redHere_of_untold {s t : State} (same : t.untold = s.untold) (h : RedHdr) : t.redHere h = s.redHere h :=
  (congrArg (fun u : State => u.redHere h) same :)

theorem redLinkTo_of_untold {s t : State} (same : t.untold = s.untold) (c dst : Nat) : t.redLinkTo c dst = s.redLinkTo c dst :=
  (congrArg (fun u : State => u.redLinkTo c dst) same :)

/-- A message that is for this module is taken, then handled. -/
theorem redIn_mine {s : State} {h : RedHdr} {link kind : Nat} {body : List Nat} {go : State → State} (mine : s.redMine h link = true) :
    s.redIn h link kind body go = go (s.redGot h link kind (body.length + 3)) := by
  unfold State.redMine at mine
  simp only [Bool.and_eq_true, decide_eq_true_iff] at mine
  obtain ⟨⟨⟨small, up⟩, new⟩, here⟩ := mine
  rw [redIn_new small up new, if_pos ((redHere_of_untold (redGot_untold ..) h).trans here)]

/-- Every reduction message comes in by `redIn`. -/
theorem exec_redMsg {s : State} {i : Instr} {h : RedHdr} {link kind : Nat} {body : List Nat} (msg : redMsg s i = some (h, link, kind, body)) :
    ∃ go, exec i s = .next (s.redIn h link kind body go) := by
  have pairs (l : List (BitVec 12 × BitVec 32)) : (amaxOf l).flatMap (fun x => [x.1, x.2]) = l.flatMap (fun x => [x.1.toNat, x.2.toNat]) :=
    List.flatMap_map ..
  unfold redMsg at msg
  split at msg <;> cases msg
  · exact ⟨_, rfl⟩
  · exact ⟨_, rfl⟩
  · exact ⟨_, by dsimp only; rw [← pairs]; rfl⟩
  · exact ⟨_, by dsimp only; rw [← pairs]; rfl⟩
  · exact ⟨_, rfl⟩
  · exact ⟨_, rfl⟩
  · exact ⟨_, rfl⟩
  · exact ⟨_, rfl⟩
  · next next =>
    cases next
    · exact ⟨_, rfl⟩
    · exact ⟨_, rfl⟩
  · exact ⟨_, rfl⟩

/-- A message for another module goes on with its source and job. -/
theorem forwarded {s : State} {h : RedHdr} {link kind : Nat} {body : List Nat} {go : State → State} (small : link < 24) (up : s.skwUp link = true)
    (new : s.redNext h.ctx.val link ≤ h.num.toNat) (other : s.redHere h = false) :
    (s.redIn h link kind body go).untold = s.untold ∧ (s.redIn h link kind body go).redNext h.ctx.val link = h.num.toNat + 1 ∧
      (s.get (R.RED_CTL.en h.ctx.val) = 1 → s.redLinkTo h.ctx.val h.dest.toNat < 24 →
        ((s.redIn h link kind body go).skw (s.redLinkTo h.ctx.val h.dest.toNat)).red.getLast?.map (fun x => (x.ctx, x.kind, x.body)) =
          some (h.ctx.val, kind, h.dest.toNat :: h.src.toNat :: h.job.toNat :: body)) := by
  have got := redGot_untold s h link kind (body.length + 3)
  have next := redGot_redNext s h link kind (body.length + 3)
  have on := get_of_untold got (R.RED_CTL.en h.ctx.val)
  rw [redIn_new small up new, redHere_of_untold got, if_neg (by rw [other]; exact Bool.false_ne_true), redLinkTo_of_untold got]
  generalize s.redGot h link kind (body.length + 3) = u at *
  refine ⟨(redGo_untold ..).trans got, ?_, fun en low => ?_⟩
  · rw [State.redNext, redGo_redRx]
    exact next
  · obtain ⟨num, last⟩ := redGo_last (on.trans en) low h.src.toNat h.dest.toNat h.job.toNat kind body
    rw [last]
    rfl

/-! ## The norm chain (R283, R284) -/

theorem setJob_job (s : State) (c d : Nat) (j : Job) : (s.setJob c j).job d = if d = c then j else s.job d := KMap.find_put ..

theorem modJob_job (s : State) (c d : Nat) (f : Job → Job) : (s.modJob c f).job d = if d = c then f (s.job c) else s.job d := setJob_job ..

theorem job_of_untold {s t : State} (same : t.untold = s.untold) (c : Nat) : t.job c = s.job c := (congrArg (fun u : State => u.job c) same :)

theorem strip_of_untold {s t : State} (same : t.untold = s.untold) (tb : CutTable) : t.strip tb = s.strip tb := (congrArg (fun u : State => u.strip tb) same :)

/-- The fields of a norm result. -/
def normFields (c : Nat) (sum norm clip : F32) (hops : Nat) : List (Fld × Nat) :=
  [(R.NORM_SUM.sum c, sum.toNat), (R.NORM_SUM.nonfin c, b2n (!(f32Num sum).isFin)), (R.NORM_SUM.hops c, hops), (R.NORM_RES.norm c, norm.toNat),
   (R.NORM_RES.clip c, clip.toNat)]

theorem normFields_nodup {c : Nat} (lt : c < 64) (sum norm clip : F32) (hops : Nat) : ((normFields c sum norm clip hops).map fun p => p.1.a).Nodup := by
  simp only [normFields, List.map_cons, List.map_nil, List.nodup_cons, List.mem_cons, List.not_mem_nil, or_false, not_or, not_false_eq_true, List.nodup_nil, and_true,
    R.NORM_SUM.sum, R.NORM_SUM.nonfin, R.NORM_SUM.hops, R.NORM_RES.norm, R.NORM_RES.clip]
  omega

theorem normResult_get (s : State) (c : Nat) (sum norm clip : F32) (hops : Nat) (g : Fld) :
    (s.normResult c sum norm clip hops).get g = (s.puts (normFields c sum norm clip hops)).get g := writeRows_get ..

theorem normResult_job (s : State) (c : Nat) (sum norm clip : F32) (hops : Nat) : (s.normResult c sum norm clip hops).job c =
    { s.job c with ready := false, ntab := none, nmsg := none, nflags := b2n (!(f32Num sum).isFin), nstep := s.get (R.NUM_STEP.step c) } := by
  have rows : (s.normResult c sum norm clip hops).job c = (((s.puts (normFields c sum norm clip hops)).modJob c fun j =>
      { j with ready := false, ntab := none, nmsg := none, nflags := b2n (!(f32Num sum).isFin),
               nstep := (s.puts (normFields c sum norm clip hops)).get (R.NUM_STEP.step c) })).job c :=
    (congrArg (fun u : State => u.job c) (writeRows_unrowed _ c) :)
  have job : (s.puts (normFields c sum norm clip hops)).job c = s.job c := (congrArg (fun u : State => u.job c) (puts_unlogged s (normFields c sum norm clip hops)) :)
  have step : (s.puts (normFields c sum norm clip hops)).get (R.NUM_STEP.step c) = s.get (R.NUM_STEP.step c) := by
    refine puts_get_other s fun p mem => ?_
    simp only [normFields, List.mem_cons, List.not_mem_nil, or_false] at mem
    rcases mem with rfl | rfl | rfl | rfl | rfl <;>
      simp only [R.NUM_STEP.step, R.NORM_SUM.sum, R.NORM_SUM.nonfin, R.NORM_SUM.hops, R.NORM_RES.norm, R.NORM_RES.clip] <;> omega
  rw [rows, modJob_job, if_pos rfl, job, step]

/-- What a norm result leaves in the registers. -/
theorem normResult_fields (s : State) {c : Nat} (lt : c < 64) (sum norm clip : F32) (hops : Nat) (small : hops < 2 ^ 12) :
    (s.normResult c sum norm clip hops).get (R.NORM_SUM.sum c) = sum.toNat ∧ (s.normResult c sum norm clip hops).get (R.NORM_SUM.hops c) = hops ∧
      (s.normResult c sum norm clip hops).get (R.NORM_SUM.nonfin c) = b2n (!(f32Num sum).isFin) ∧
      (s.normResult c sum norm clip hops).get (R.NORM_RES.norm c) = norm.toNat ∧ (s.normResult c sum norm clip hops).get (R.NORM_RES.clip c) = clip.toNat := by
  have put {f : Fld} {v : Nat} (mem : (f, v) ∈ normFields c sum norm clip hops) (fits : v < 2 ^ f.w) :
      (s.normResult c sum norm clip hops).get f = v :=
    ((normResult_get ..).trans (puts_get_of_nodup s (normFields_nodup lt ..) mem)).trans (Nat.mod_eq_of_lt fits)
  exact ⟨put (by simp [normFields]) sum.isLt, put (by simp [normFields]) small, put (by simp [normFields]) (b2n_lt _), put (by simp [normFields]) norm.isLt,
    put (by simp [normFields]) clip.isLt⟩

theorem normSend_untold (s : State) (c : Nat) (up : Bool) (last : Nat) (body : List Nat) : (s.normSend c up last body).untold = s.untold := by
  unfold State.normSend
  dsimp only
  split <;> split
  · exact redSend_untold ..
  · rfl
  · exact redSend_untold ..
  · rfl

theorem redRoute_unnoted (c : Nat) (lt : c < 64) : Unnoted (R.RED_CTL.en c) ∧ Unnoted (R.RED_CTL.next c) ∧ Unnoted (R.RED_CTL.prev c) ∧
    Unnoted (R.CUT_CTL.module c) ∧ Unnoted (R.NORM_MAX.max c) := by
  simp only [Unnoted, R.RED_CTL.en, R.RED_CTL.next, R.RED_CTL.prev, R.CUT_CTL.module, R.NORM_MAX.max]
  omega

section
variable {s u : State} {c : Nat} (lt : c < 64) (same : u.untold = s.untold) {t : CutTable} {acc : F32} {i hops : Nat}
include same

theorem normGo_of_untold : normGo (u.moduleOf c) (u.strip t) t.normLayers acc i = normGo (s.moduleOf c) (s.strip t) t.normLayers acc i := by
  rw [strip_of_untold same, State.moduleOf, get_of_untold same, State.moduleOf]

include lt

/-- The chain that goes on on another module. -/
theorem normRun_on {m : Nat} (on : (normGo (s.moduleOf c) (s.strip t) t.normLayers acc i).2.2 = some m) :
    (∀ a, (u.normRun c t acc i hops).byte a = s.byte a) ∧ (u.normRun c t acc i hops).jobs = s.jobs ∧
      let l := if s.moduleOf c < m then s.get (R.RED_CTL.next c) else s.get (R.RED_CTL.prev c)
      let r := normGo (s.moduleOf c) (s.strip t) t.normLayers acc i
      s.get (R.RED_CTL.en c) = 1 → l < 24 →
        (((u.normRun c t acc i hops).skw l).red.getLast?.map (fun x => (x.ctx, x.kind, x.body.getD 0 0, x.body.drop 3))) =
          some (c, 1, m, [r.1.toNat, r.2.1, hops + 1]) := by
  obtain ⟨en, next, prev, module, -⟩ := redRoute_unnoted c lt
  unfold State.normRun
  dsimp only
  rw [normGo_of_untold same, on]
  dsimp only
  generalize normGo (s.moduleOf c) (s.strip t) t.normLayers acc i = r
  have kept {g : Fld} (apart : Unnoted g) : (u.s0Note (some c) (t.normAddr + 4 * i) (4 * (r.2.1 - i))).get g = s.get g :=
    (s0Note_keeps _ _ _ _ apart).trans (get_of_untold same g)
  have byte (a : Nat) : (u.s0Note (some c) (t.normAddr + 4 * i) (4 * (r.2.1 - i))).byte a = s.byte a :=
    (s0Note_byte ..).trans ((sameMem_of_untold same).1 a)
  have jobs : (u.s0Note (some c) (t.normAddr + 4 * i) (4 * (r.2.1 - i))).jobs = s.jobs :=
    (congrArg State.jobs (s0Note_unnoted ..) :).trans (congrArg State.jobs same :)
  generalize u.s0Note (some c) (t.normAddr + 4 * i) (4 * (r.2.1 - i)) = n at kept byte jobs
  have sent := redSend_untold n c m 1 [r.1.toNat, r.2.1, hops + 1]
  refine ⟨fun a => ((sameMem_of_untold sent).1 a).trans (byte a), (congrArg State.jobs sent :).trans jobs, fun on small => ?_⟩
  have link : n.redLinkTo c m = if s.moduleOf c < m then s.get (R.RED_CTL.next c) else s.get (R.RED_CTL.prev c) := by
    rw [State.redLinkTo, State.moduleOf, kept module, kept next, kept prev]
    rfl
  rw [← link] at small ⊢
  obtain ⟨num, last⟩ := redGo_last ((kept en).trans on) small (n.moduleOf c) m (match n.cutTable c 0 with | some t => t.job | none => 0) 1
    [r.1.toNat, r.2.1, hops + 1]
  exact (congrArg (Option.map _) last).trans rfl

/-- The chain that ends on this module. -/
theorem normRun_end (small : hops < 2 ^ 12) (none_ : (normGo (s.moduleOf c) (s.strip t) t.normLayers acc i).2.2 = none) :
    let r := normGo (s.moduleOf c) (s.strip t) t.normLayers acc i
    (u.normRun c t acc i hops).get (R.NORM_SUM.sum c) = r.1.toNat ∧ (u.normRun c t acc i hops).get (R.NORM_SUM.hops c) = hops ∧
      (u.normRun c t acc i hops).get (R.NORM_SUM.nonfin c) = b2n (!(f32Num r.1).isFin) ∧
      (u.normRun c t acc i hops).get (R.NORM_RES.norm c) = (normOf r.1).toNat ∧ ((u.normRun c t acc i hops).job c).ready = false ∧
      (u.normRun c t acc i hops).get (R.NORM_RES.clip c) = (clipOf r.1 (normOf r.1) (BitVec.ofNat 32 (s.get (R.NORM_MAX.max c)))).toNat := by
  obtain ⟨-, -, -, -, max⟩ := redRoute_unnoted c lt
  unfold State.normRun
  dsimp only
  rw [normGo_of_untold same, none_]
  dsimp only
  generalize normGo (s.moduleOf c) (s.strip t) t.normLayers acc i = r
  rw [(s0Note_keeps u (some c) (t.normAddr + 4 * i) (4 * (r.2.1 - i)) max).trans (get_of_untold same _)]
  generalize u.s0Note (some c) (t.normAddr + 4 * i) (4 * (r.2.1 - i)) = n
  generalize clipOf r.1 (normOf r.1) (BitVec.ofNat 32 (s.get (R.NORM_MAX.max c))) = clip
  obtain ⟨sum, hop, nonfin, norm, clips⟩ := normResult_fields n lt r.1 (normOf r.1) clip hops small
  have ready : ((n.normResult c r.1 (normOf r.1) clip hops).job c).ready = false := congrArg Job.ready (normResult_job ..)
  have sent := (normSend_untold ((n.normResult c r.1 (normOf r.1) clip hops).normSend c true (t.nmodules - 1) [r.1.toNat, (normOf r.1).toNat, clip.toNat, hops])
    c false (t.nmodules - 1) [r.1.toNat, (normOf r.1).toNat, clip.toNat, hops]).trans (normSend_untold ..)
  exact ⟨(get_of_untold sent _).trans sum, (get_of_untold sent _).trans hop, (get_of_untold sent _).trans nonfin, (get_of_untold sent _).trans norm,
    (congrArg Job.ready (job_of_untold sent c)).trans ready, (get_of_untold sent _).trans clips⟩

end

theorem regs_of_untold {s t : State} (same : t.untold = s.untold) : t.regs = s.regs := (congrArg State.regs same :)

/-- What is done with a message of the norm chain that has come. -/
def State.normTake (s : State) (c : Nat) (acc strip : BitVec 32) (hops : BitVec 12) : State := match (s.job c).ready, (s.job c).ntab with
  | true, some t => s.normRun c t acc strip.toNat hops.toNat
  | _, _ => s.modJob c (fun j => { j with nmsg := some (acc.toNat, strip.toNat, hops.toNat) })

theorem exec_normChainMsg {s : State} {h : RedHdr} (mine : s.redMine h (s.redDir h) = true) (acc strip : BitVec 32) (hops : BitVec 12) :
    exec (.normChainMsg h acc strip hops) s = .next ((s.redGot h (s.redDir h) 1 6).normTake h.ctx.val acc strip hops) :=
  congrArg Host.Outcome.next (redIn_mine mine)

/-- What is done with a norm result that has come. -/
def State.normHear (s : State) (c : Nat) (up : Bool) (last : Nat) (sum norm clip : BitVec 32) (hops : BitVec 12) : State :=
  (s.normResult c sum norm clip hops.toNat).normSend c up last [sum.toNat, norm.toNat, clip.toNat, hops.toNat]

theorem exec_normBroadcastMsg {s : State} {h : RedHdr} (mine : s.redMine h (s.redDir h) = true) (up : Bool) (sum norm clip : BitVec 32) (hops : BitVec 12) :
    ∃ last, exec (.normBroadcastMsg h up sum norm clip hops) s = .next ((s.redGot h (s.redDir h) 2 7).normHear h.ctx.val up last sum norm clip hops) :=
  ⟨_, congrArg Host.Outcome.next (redIn_mine mine)⟩

theorem normTake_waits {s : State} {c : Nat} (waits : (s.job c).ready = false ∨ (s.job c).ntab = none) (acc strip : BitVec 32) (hops : BitVec 12) :
    s.normTake c acc strip hops = s.modJob c (fun j => { j with nmsg := some (acc.toNat, strip.toNat, hops.toNat) }) := by
  unfold State.normTake
  split
  · next ready has =>
    rcases waits with off | none_
    · rw [ready] at off; cases off
    · rw [has] at none_; cases none_
  · rfl

theorem normTake_runs {s : State} {c : Nat} {tb : CutTable} (ready : (s.job c).ready = true) (has : (s.job c).ntab = some tb) (acc strip : BitVec 32)
    (hops : BitVec 12) : s.normTake c acc strip hops = s.normRun c tb acc strip.toNat hops.toNat := by
  unfold State.normTake
  rw [ready, has]

/-- Settles O32: a reduction message is taken, sent on or discarded by its number and its destination, and the norm chain's own are worked on. -/
theorem normChain : Obligations.NormChain := by
  unfold Obligations.NormChain
  refine ⟨fun s c h ctx mine => ⟨fun acc strip hops => ⟨fun waits => ?_, fun tb has ready => ⟨fun m on => ?_, fun none_ => ?_⟩⟩, fun up sum norm clip hops => ?_⟩,
    fun s i h link kind body msg => ?_⟩
  · subst ctx
    have got := redGot_untold s h (s.redDir h) 1 6
    have run := exec_normChainMsg mine acc strip hops
    have job := job_of_untold got
    generalize s.redGot h (s.redDir h) 1 6 = u at *
    refine ⟨_, run.trans (congrArg _ (normTake_waits (by rwa [job]) ..)), (sameMem_of_untold got).trans (sameMem_of_eq rfl rfl rfl rfl),
      (regs_of_untold got :), ?_, fun d other => ?_⟩
    · rw [modJob_job, if_pos rfl]
    · rw [modJob_job, if_neg other, job]
  · subst ctx
    have got := redGot_untold s h (s.redDir h) 1 6
    have run := exec_normChainMsg mine acc strip hops
    have job := job_of_untold got
    generalize s.redGot h (s.redDir h) 1 6 = u at *
    exact ⟨_, run.trans (congrArg _ (normTake_runs (by rwa [job]) (by rwa [job]) ..)), normRun_on h.ctx.isLt got on⟩
  · subst ctx
    have got := redGot_untold s h (s.redDir h) 1 6
    have run := exec_normChainMsg mine acc strip hops
    have job := job_of_untold got
    generalize s.redGot h (s.redDir h) 1 6 = u at *
    exact ⟨_, run.trans (congrArg _ (normTake_runs (by rwa [job]) (by rwa [job]) ..)), normRun_end h.ctx.isLt got hops.isLt none_⟩
  · subst ctx
    have got := redGot_untold s h (s.redDir h) 2 7
    obtain ⟨last, run⟩ := exec_normBroadcastMsg mine up sum norm clip hops
    generalize s.redGot h (s.redDir h) 2 7 = u at *
    obtain ⟨sums, hop, -, norms, clips⟩ := normResult_fields u h.ctx.isLt sum norm clip hops.toNat hops.isLt
    have jobs := normResult_job u h.ctx.val sum norm clip hops.toNat
    have sent := normSend_untold (u.normResult h.ctx.val sum norm clip hops.toNat) h.ctx.val up last [sum.toNat, norm.toNat, clip.toNat, hops.toNat]
    refine ⟨_, run, (get_of_untold sent _).trans sums, (get_of_untold sent _).trans norms, (get_of_untold sent _).trans clips, (get_of_untold sent _).trans hop,
      (congrArg Job.ready ((job_of_untold sent _).trans jobs)).trans rfl, (congrArg Job.nstep ((job_of_untold sent _).trans jobs)).trans (get_of_untold got _)⟩
  · obtain ⟨go, run⟩ := exec_redMsg msg
    refine ⟨fun down => run.trans (congrArg _ (redIn_down down)), fun small up => ⟨fun old => run.trans (congrArg _ (redIn_old small up old)), fun new other => ?_⟩⟩
    obtain ⟨same, next, last⟩ := forwarded (kind := kind) (body := body) (go := go) small up new other
    exact ⟨_, run, sameMem_of_untold same, regs_of_untold same, (congrArg State.seqs same :), (congrArg State.flumes same :), (congrArg State.jobs same :),
      (congrArg State.ckpts same :), next, last⟩

end Sys2Proof.Machine

namespace Sys2Proof.Machine

-- One proof at a time: threads that wait for each other hold memory.
set_option Elab.async false

/-! ## What the delivery of a verdict leaves alone (R300 to R305) -/

/-- A field of a context's numerics that no part of a delivery writes on its way. -/
structure NumField (c : Nat) (g : Fld) : Prop where
  low    : g.a < 8 * 0x167000
  layer  : g.a ≠ (R.NUM_PROM.layer c).a
  step   : g.a ≠ (R.NUM_PROM.step c).a
  count  : g.a ≠ (R.NUM_PROMCNT.count c).a
  epoch  : g.a ≠ (R.CUT_EPOCH.epoch c).a
  pend   : g.a ≠ (R.CUT_EPOCH.pend c).a

theorem NumField.unnoted {c : Nat} {g : Fld} (num : NumField c g) : Unnoted g := .inl num.low

/-- The numerics of a context and the skip that its host has asked for stay. -/
structure Delays (c : Nat) (s t : State) : Prop where
  get    : ∀ g, NumField c g → t.get g = s.get g
  forced : (t.job c).forced = (s.job c).forced

theorem Delays.refl (c : Nat) (s : State) : Delays c s s := ⟨fun _ _ => rfl, rfl⟩

theorem Delays.trans {c : Nat} {s t u : State} (first : Delays c s t) (second : Delays c t u) : Delays c s u :=
  ⟨fun g num => (second.get g num).trans (first.get g num), second.forced.trans first.forced⟩

theorem delays_foldl {α : Type} {c : Nat} {f : State → α → State} (delays : ∀ s a, Delays c s (f s a)) (l : List α) (s : State) : Delays c s (l.foldl f s) := by
  induction l generalizing s with
  | nil => exact Delays.refl c s
  | cons a l ih => exact (delays s a).trans (ih _)

theorem delays_ite {c : Nat} {s t u : State} {p : Prop} [Decidable p] (yes : Delays c s t) (no : Delays c s u) : Delays c s (if p then t else u) := by
  split
  · exact yes
  · exact no

theorem delays_of_regs {c : Nat} {s t : State} (regs : t.regs = s.regs) (jobs : t.jobs = s.jobs) : Delays c s t :=
  ⟨fun g _ => get_congr regs g, by rw [State.job, jobs, State.job]⟩

theorem delays_of_jobs {c : Nat} {s t : State} (get : ∀ g, NumField c g → t.get g = s.get g) (jobs : t.jobs = s.jobs) : Delays c s t :=
  ⟨get, by rw [State.job, jobs, State.job]⟩

/-- A write above the contexts' own registers. -/
theorem delays_put (s : State) {c : Nat} {f : Fld} (high : 8 * 0x167000 ≤ f.a) (v : Nat) : Delays c s (s.put f v) :=
  delays_of_jobs (fun _ num => State.get_put_other _ _ _ _ (by have := num.low; omega)) rfl

theorem delays_count (s : State) {c : Nat} {f : Fld} (high : 8 * 0x167000 ≤ f.a) (n : Nat) : Delays c s (s.count f n) :=
  delays_of_jobs (fun _ num => State.get_count_other _ _ _ _ (by have := num.low; omega)) rfl

theorem delays_puts (s : State) {c : Nat} {l : List (Fld × Nat)} (high : ∀ p ∈ l, 8 * 0x167000 ≤ p.1.a) : Delays c s (s.puts l) :=
  delays_of_jobs (fun _ num => puts_get_other s fun p mem => by have := num.low; have := high p mem; omega) (congrArg State.jobs (puts_unlogged s l) :)

theorem delays_raise (s : State) (c code : Nat) (ctx : Option Nat) (w : Where) (detail : Nat) : Delays c s (s.raise code ctx w detail) :=
  delays_of_jobs (fun _ num => raise_get _ (by have := num.low; omega)) (congrArg State.jobs (raise_unlogged s code ctx w detail) :)

theorem delays_s0Note (s : State) (c : Nat) (ctx : Option Nat) (a n : Nat) : Delays c s (s.s0Note ctx a n) :=
  delays_of_jobs (fun _ num => s0Note_keeps _ _ _ _ num.unnoted) (congrArg State.jobs (s0Note_unnoted s ctx a n) :)

theorem delays_s0Write (s : State) (c : Nat) (ctx : Option Nat) (a : Nat) (bs : List Byte) : Delays c s (s.s0Write ctx a bs) :=
  delays_of_jobs (fun _ num => s0Write_keeps _ _ _ _ num.unnoted) (congrArg State.jobs (s0Write_unwritten s ctx a bs) :)

theorem delays_write (s : State) (c a : Nat) (bs : List Byte) : Delays c s (s.write a bs) := delays_of_regs rfl rfl

theorem delays_cfgRange (s : State) (c : Nat) (ctx : Option Nat) (detail : Nat) : Delays c s (s.cfgRange ctx detail) := delays_raise ..

theorem delays_permLog (s : State) (b ld c a n kind : Nat) (wr : Bool) : Delays b s (s.permLog ld c a n kind wr) := by
  refine ((delays_puts s fun p mem => ?_).trans (delays_count _ ?_ _)).trans (delays_raise ..)
  · simp only [List.mem_cons, List.not_mem_nil, or_false] at mem
    rcases mem with rfl | rfl | rfl | rfl <;> simp [R.SEC_PERMLOG0.addr, R.SEC_PERMLOG1.kind, R.SEC_PERMLOG1.write, R.SEC_PERMLOG1.ctx]
  · decide

theorem delays_permNote (s : State) (b : Nat) (ld : Nat → Nat) (c : Nat) (rs : List (Nat × Nat × Bool)) : Delays b s (s.permNote ld c rs) := by
  unfold State.permNote
  split
  · exact delays_permLog ..
  · exact Delays.refl b s

theorem delays_untold {c : Nat} {s t : State} (same : t.untold = s.untold) : Delays c s t :=
  delays_of_regs (regs_of_untold same) (congrArg State.jobs same :)

/-! ### Scales -/

theorem delays_sctlLow (s : State) (c n i v : Nat) : Delays c s (s.sctlLow n i v) := by
  refine delays_puts s fun p mem => ?_
  simp only [List.mem_cons, List.not_mem_nil, or_false] at mem
  rcases mem with rfl | rfl | rfl <;> simp only [R.NUM_SCTL.h, R.NUM_SCTL.k, R.NUM_SCTL.clean_lim] <;> omega

theorem delays_sctlHigh (s : State) (c n i v : Nat) : Delays c s (s.sctlHigh n i v) := by
  have first : Delays c s (s.puts [(R.NUM_SCTL.sid n i, bits v 48 12), (R.NUM_SCTL.x_pin n i, bits v 40 8), (R.NUM_SCTL.lower_en n i, bits v 33 1)]) := by
    refine delays_puts s fun p mem => ?_
    simp only [List.mem_cons, List.not_mem_nil, or_false] at mem
    rcases mem with rfl | rfl | rfl <;> simp only [R.NUM_SCTL.sid, R.NUM_SCTL.x_pin, R.NUM_SCTL.lower_en] <;> omega
  have fmt (t : State) (v : Nat) : Delays c t (t.put (R.NUM_SCTL.fmt n i) v) := delays_put t (by simp only [R.NUM_SCTL.fmt]; omega) v
  have mode (t : State) (v : Nat) : Delays c t (t.put (R.NUM_SCTL.mode n i) v) := delays_put t (by simp only [R.NUM_SCTL.mode]; omega) v
  unfold State.sctlHigh
  exact ((first.trans (delays_ite (fmt ..) (Delays.refl ..))).trans (delays_ite (Delays.refl ..) (mode ..))).trans
    (delays_ite (delays_raise ..) (Delays.refl ..))

theorem delays_setSctl (s : State) (c n i : Nat) (w : SctlVal) : Delays c s (s.setSctl n i w) := by
  cases w with
  | whole v => exact (delays_sctlLow ..).trans (delays_sctlHigh ..)
  | low v => exact delays_sctlLow ..
  | high v => exact delays_sctlHigh ..

theorem delays_scaleX (s : State) (c n i : Nat) : Delays c s (s.scaleX n i) := by
  have x (t : State) (v : Nat) : Delays c t (t.put (R.NUM_SSTAT.x n i) v) := delays_put t (by simp only [R.NUM_SSTAT.x]; omega) v
  have amax (t : State) (v : Nat) : Delays c t (t.put (R.NUM_SAMAX.wamax n i) v) := delays_put t (by simp only [R.NUM_SAMAX.wamax]; omega) v
  unfold State.scaleX
  dsimp only
  refine delays_ite (x ..) (delays_ite ?_ (Delays.refl ..))
  split
  · split
    · exact delays_ite (x ..) ((amax ..).trans (x ..))
    · exact Delays.refl ..
  · exact x ..

theorem delays_pushHist (s : State) (c n i a : Nat) : Delays c s (s.pushHist n i a) := by
  unfold State.pushHist
  refine (delays_puts s fun p mem => ?_).trans (delays_put _ (by simp only [R.NUM_SSTAT.nhist]; omega) _)
  obtain ⟨x, -, rfl⟩ := List.mem_map.1 mem
  simp only [R.NUM_SHIST.amax]
  omega

theorem delays_scaleDeliver (s : State) (c : Nat) (skip : Bool) (amax : List (Nat × Nat)) (n i : Nat) : Delays c s (s.scaleDeliver skip amax n i) := by
  have samax (t : State) (v : Nat) : Delays c t (t.put (R.NUM_SAMAX.samax n i) v) := delays_put t (by simp only [R.NUM_SAMAX.samax]; omega) v
  have b (t : State) (v : Nat) : Delays c t (t.put (R.NUM_SSTAT.b n i) v) := delays_put t (by simp only [R.NUM_SSTAT.b]; omega) v
  have clean (t : State) (v : Nat) : Delays c t (t.put (R.NUM_SSTAT.clean n i) v) := delays_put t (by simp only [R.NUM_SSTAT.clean]; omega) v
  have cleans (t : State) : Delays c t (t.count (R.NUM_SSTAT.clean n i) 1) := delays_count t (by simp only [R.NUM_SSTAT.clean]; omega) 1
  unfold State.scaleDeliver
  dsimp only
  refine delays_ite (samax ..) (Delays.trans (Delays.trans ?_ (delays_scaleX ..)) (samax ..))
  refine delays_ite ((delays_ite (b ..) (Delays.refl ..)).trans (clean ..)) ?_
  have first := (delays_ite (p := 0 < ((amax.find? (fun x => decide (x.1 = s.get (R.NUM_SCTL.sid n i)))).map Prod.snd).getD 0 ∧
    ((amax.find? (fun x => decide (x.1 = s.get (R.NUM_SCTL.sid n i)))).map Prod.snd).getD 0 < 0x7F80_0000) (delays_pushHist s c n i
      (((amax.find? (fun x => decide (x.1 = s.get (R.NUM_SCTL.sid n i)))).map Prod.snd).getD 0)) (Delays.refl c s)).trans (cleans _)
  exact delays_ite (first.trans ((b ..).trans (clean ..))) first

theorem delays_scalesDeliver (s : State) (c : Nat) (skip : Bool) (amax : List (Nat × Nat)) : Delays c s (s.scalesDeliver c skip amax) := by
  have applied : Delays c s (s.applySctl c) :=
    (delays_foldl (fun s (e : Nat × List SctlVal) => delays_foldl (fun s w => delays_setSctl s c (e.1 / 256) (e.1 % 256) w) e.2 s) _ s).trans (delays_of_regs rfl rfl)
  exact applied.trans (delays_foldl (fun s n => delays_foldl (fun s i => delays_scaleDeliver s c skip amax n i) _ s) _ _)

/-! ### Checkpoints, shadow weights, step flags and telemetry -/

theorem delays_modCkpt (s : State) (b c : Nat) (f : Ckpt → Ckpt) : Delays b s (s.modCkpt c f) := delays_of_regs rfl rfl

theorem delays_buddyStart (s : State) (b c : Nat) (t : CutTable) (recd : List Byte) : Delays b s (s.buddyStart c t recd) :=
  delays_ite (delays_modCkpt ..) (Delays.refl ..)

theorem delays_ckptRead (s : State) (b c step : Nat) (f : Ckpt → Ckpt) :
    Delays b s ((s.puts [(R.CKPT_STAT.state c, ckREADING), (R.CKPT_STAT.step c, step)]).modCkpt c f) := by
  refine (delays_puts s fun p mem => ?_).trans (delays_modCkpt ..)
  simp only [List.mem_cons, List.not_mem_nil, or_false] at mem
  rcases mem with rfl | rfl <;> simp only [R.CKPT_STAT.state, R.CKPT_STAT.step] <;> omega

theorem delays_ckptDeliver (s : State) (c : Nat) (skip : Bool) : Delays c s (s.ckptDeliver c skip) := by
  unfold State.ckptDeliver
  split
  · exact Delays.refl ..
  · exact delays_ite (Delays.refl ..) (((delays_ite (delays_s0Note ..) (Delays.refl ..)).trans
      (delays_ite (delays_ckptRead ..) (Delays.refl ..))).trans (delays_buddyStart ..))

theorem delays_prom (s : State) (c L step : Nat) : Delays c s ((s.puts [(R.NUM_PROM.layer c, L), (R.NUM_PROM.step c, step)]).count (R.NUM_PROMCNT.count c) 1) := by
  refine delays_of_jobs (fun g num => (State.get_count_other _ _ _ _ num.count).trans (puts_get_other s fun p mem => ?_)) rfl
  simp only [List.mem_cons, List.not_mem_nil, or_false] at mem
  rcases mem with rfl | rfl
  · exact num.layer
  · exact num.step

theorem delays_shadowLayer (c base nl smax : Nat) (s : State) (L : Nat) : Delays c s (State.shadowLayer c base nl smax s L) := by
  unfold State.shadowLayer
  exact (delays_foldl (fun _ _ => delays_write ..) _ _).trans (delays_ite ((delays_write ..).trans (delays_prom ..)) (delays_write ..))

theorem delays_shadowDeliver (s : State) (c : Nat) : Delays c s (s.shadowDeliver c) := by
  unfold State.shadowDeliver
  dsimp only
  split
  · exact Delays.refl ..
  · next t _ =>
    refine delays_ite (Delays.refl ..) ((delays_s0Note ..).trans (delays_ite ((delays_permNote ..).trans (delays_cfgRange ..)) ?_))
    exact ((delays_foldl (fun s L => delays_shadowLayer c _ _ _ s L) _ _).trans (delays_write ..)).trans (delays_write ..)

/-- The step flags and the tile counters of a die cleared. -/
def State.flagsCleared (s : State) (n : Nat) : State :=
  let s := s.puts [(R.GLZ_STEPFLAG.sat n, 0), (R.GLZ_STEPFLAG.inv n, 0), (R.GLZ_STEPFLAG.ovf n, 0), (R.GLZ_STEPFLAG.nonfin n, 0)]
  let lo := (R.GLZ_TCNT.nonfin n 0).a / 64 * 64
  { s with regs := KMap.dropRange s.regs lo (lo + 1024 * 64) }

theorem delays_dropRange (s : State) (c : Nat) {lo : Nat} (high : 8 * 0x167000 ≤ lo) (hi : Nat) :
    Delays c s { s with regs := KMap.dropRange s.regs lo hi } := by
  refine delays_of_jobs (fun g num => ?_) rfl
  have low := num.low
  exact congrArg (· % 2 ^ g.w) ((KMap.find_dropRange resetVal s.regs lo hi g.a).trans (if_neg (by omega)))

theorem delays_flagsCleared (s : State) (c n : Nat) : Delays c s (s.flagsCleared n) := by
  have puts : Delays c s (s.puts [(R.GLZ_STEPFLAG.sat n, 0), (R.GLZ_STEPFLAG.inv n, 0), (R.GLZ_STEPFLAG.ovf n, 0), (R.GLZ_STEPFLAG.nonfin n, 0)]) := by
    refine delays_puts s fun p mem => ?_
    simp only [List.mem_cons, List.not_mem_nil, or_false] at mem
    rcases mem with rfl | rfl | rfl | rfl <;>
      simp only [R.GLZ_STEPFLAG.sat, R.GLZ_STEPFLAG.inv, R.GLZ_STEPFLAG.ovf, R.GLZ_STEPFLAG.nonfin] <;> omega
  exact puts.trans (delays_dropRange _ c (by simp only [R.GLZ_TCNT.nonfin]; omega) _)

theorem delays_telTake (s : State) (c : Nat) (skip : Bool) (cause : Nat) : Delays c s (s.telTake c skip cause) := by
  refine ⟨fun _ _ => get_congr rfl _, ?_⟩
  unfold State.telTake
  dsimp only
  rw [modJob_job, if_pos rfl]

theorem delays_telWrite (s : State) (c : Nat) : Delays c s (s.telWrite c) := by
  unfold State.telWrite
  dsimp only
  exact delays_ite (Delays.refl ..) (delays_ite ((delays_permNote ..).trans (delays_cfgRange ..))
    ((delays_s0Write ..).trans (delays_put _ (by simp only [R.RAS_TEL.last]; omega) _)))

/-! ### A redrawn table that is taken back (R305) -/

theorem delays_tryForce (s : State) (c p : Nat) : Delays c s (s.tryForce c p) := by
  unfold State.tryForce
  split
  · exact Delays.refl ..
  · dsimp only
    refine delays_ite (Delays.refl ..) (delays_of_jobs (fun g num => ?_) ?_)
    · refine (writeRows_get ..).trans ((puts_get_other _ fun p mem => ?_).trans (get_congr rfl g))
      simp only [List.mem_cons, List.not_mem_nil, or_false] at mem
      rcases mem with rfl | rfl
      · exact num.epoch
      · exact num.pend
    · exact (congrArg State.jobs (writeRows_unrowed _ c) :).trans rfl

/-- A table that is pending. -/
def State.pended (s : State) (c p : Nat) (t : CutTable) : State :=
  let s := { s with cutPend := KMap.put (fun _ => none) s.cutPend (3 * c + p) (some t) }
  s.put (R.CUT_EPOCH.pend c) (setBits (s.get (R.CUT_EPOCH.pend c)) p 1 1)

theorem delays_pended (s : State) (c p : Nat) (t : CutTable) : Delays c s (s.pended c p t) :=
  ⟨fun g num => (State.get_put_other _ _ _ _ num.pend).trans (get_congr rfl g), rfl⟩

theorem delays_setPending (s : State) (c p : Nat) (t : CutTable) : Delays c s (s.setPending c p t) :=
  (delays_pended s c p t).trans (delays_tryForce (s.pended c p t) c p)

theorem delays_setRuns (s : State) (c : Nat) (zero : Bool) (l : List (Nat × Nat × Bool)) : Delays c s (s.setRuns zero l) :=
  delays_foldl (f := fun s x => s.setFlume x.1 { s.flume x.1 with run := if zero then 0 else x.2.1, runSlow := !zero && x.2.2 })
    (fun _ _ => delays_of_regs rfl rfl) l s

theorem delays_undoRedraw (s : State) (c : Nat) : Delays c s (s.undoRedraw c) := by
  unfold State.undoRedraw
  split
  · exact Delays.refl ..
  · refine ((delays_ite (Delays.refl ..) (delays_setPending ..)).trans (delays_setRuns ..)).trans ⟨fun _ _ => get_congr rfl _, ?_⟩
    rw [modJob_job, if_pos rfl]

/-! ### The delivery -/

/-- The state in which a verdict is recorded. -/
def State.verdictDue (s : State) (c : Nat) (skip : Bool) (amax : List (Nat × Nat)) : State :=
  let s := ((s.scalesDeliver c skip amax).ckptDeliver c skip).shadowDeliver c
  (s.diesOf c).foldl State.flagsCleared s

/-- The counts of a verdict. -/
def State.verdictCounted (s : State) (c : Nat) (skip : Bool) (cause step : Nat) : State :=
  if skip then (s.count (R.NUM_SKIP.count c) 1).puts [(R.NUM_SKLAST.step c, step), (R.NUM_SKLAST.cause c, cause)]
  else if cause ≠ 0 then s.count (R.NUM_SKIP.ovr c) 1 else s

/-- The fields of a verdict. -/
def verdictFields (c : Nat) (skip : Bool) (cause step : Nat) : List (Fld × Nat) :=
  [(R.NUM_STAT.skip c, b2n skip), (R.NUM_STAT.cause c, cause), (R.NUM_STAT.step c, step), (R.NUM_STEP.step c, step + 1)]

/-- The state with the fields of a verdict, and the record in the telemetry. -/
def State.verdictPut (s : State) (c : Nat) (skip : Bool) (cause step : Nat) : State :=
  ((s.telTake c skip cause).telWrite c).puts (verdictFields c skip cause step)

/-- A redrawn table is taken back after a skip. -/
def State.redrawKept (s : State) (c : Nat) (skip : Bool) : State := if skip then s.undoRedraw c else s

/-- The numerics of a context once its verdict is delivered. -/
def State.verdictEnd (s : State) (c : Nat) (skip : Bool) (step : Nat) : State :=
  let s := s.modJob c (fun j => { j with nflags := j.nflags % 2 + 2 * b2n skip + 4, nstep := step, point := false, cause := 0, amax := []
                                         vmsg := none, rstHalf := false, redraw := if j.drawn.isSome then j.redraw else none
                                         done := if skip then j.done else some step })
  let s := { s with owed := s.owed.filter (fun e => !(s.activeStages c).contains e.1) }
  s.put (R.NUM_STAT.busy c) 0

theorem deliver_eq (s : State) (c : Nat) (skip : Bool) (cause : Nat) (amax : List (Nat × Nat)) : s.deliver c skip cause amax =
    ((((s.verdictDue c skip amax).verdictCounted c skip cause ((s.verdictDue c skip amax).get (R.NUM_STEP.step c))).verdictPut c skip cause
      ((s.verdictDue c skip amax).get (R.NUM_STEP.step c))).redrawKept c skip).verdictEnd c skip ((s.verdictDue c skip amax).get (R.NUM_STEP.step c)) := rfl

theorem delays_verdictDue (s : State) (c : Nat) (skip : Bool) (amax : List (Nat × Nat)) : Delays c s (s.verdictDue c skip amax) :=
  (((delays_scalesDeliver ..).trans (delays_ckptDeliver ..)).trans (delays_shadowDeliver ..)).trans (delays_foldl (fun s n => delays_flagsCleared s c n) _ _)

theorem delays_tel (s : State) (c : Nat) (skip : Bool) (cause : Nat) : Delays c s ((s.telTake c skip cause).telWrite c) :=
  (delays_telTake ..).trans (delays_telWrite ..)

theorem delays_redrawKept (s : State) (c : Nat) (skip : Bool) : Delays c s (s.redrawKept c skip) := delays_ite (delays_undoRedraw ..) (Delays.refl ..)

theorem verdictEnd_get (s : State) (c : Nat) (skip : Bool) (step : Nat) {g : Fld} (other : g.a ≠ (R.NUM_STAT.busy c).a) :
    (s.verdictEnd c skip step).get g = s.get g := (State.get_put_other _ _ _ _ other).trans (get_congr rfl g)

theorem verdictEnd_busy (s : State) (c : Nat) (skip : Bool) (step : Nat) : (s.verdictEnd c skip step).get (R.NUM_STAT.busy c) = 0 :=
  (State.get_put_same ..).trans (Nat.zero_mod _)

theorem verdictEnd_job (s : State) (c : Nat) (skip : Bool) (step : Nat) : ((s.verdictEnd c skip step).job c).point = false ∧
    ((s.verdictEnd c skip step).job c).forced = (s.job c).forced := by
  have job : (s.verdictEnd c skip step).job c = (s.modJob c (fun j => { j with
      nflags := j.nflags % 2 + 2 * b2n skip + 4, nstep := step, point := false, cause := 0, amax := [], vmsg := none, rstHalf := false
      redraw := if j.drawn.isSome then j.redraw else none, done := if skip then j.done else some step })).job c := rfl
  rw [job, modJob_job, if_pos rfl]
  exact ⟨rfl, rfl⟩

/-! ### What a delivery leaves -/

/-- The verdict of a step is in the registers, the step is over, and the counts are kept. -/
def Delivered (s t : State) (c : Nat) (skip : Bool) (cause : Nat) : Prop :=
  t.get (R.NUM_STAT.skip c) = b2n skip ∧ t.get (R.NUM_STAT.cause c) = cause ∧
    t.get (R.NUM_STAT.step c) = s.get (R.NUM_STEP.step c) ∧ t.get (R.NUM_STEP.step c) = (s.get (R.NUM_STEP.step c) + 1) % 2 ^ 48 ∧
    t.get (R.NUM_STAT.busy c) = 0 ∧ (t.job c).point = false ∧
    (skip = true → s.Counted t (R.NUM_SKIP.count c) 1 ∧ t.get (R.NUM_SKLAST.step c) = s.get (R.NUM_STEP.step c) ∧ t.get (R.NUM_SKLAST.cause c) = cause) ∧
    (skip = false → t.get (R.NUM_SKIP.count c) = s.get (R.NUM_SKIP.count c) ∧ (cause ≠ 0 → s.Counted t (R.NUM_SKIP.ovr c) 1))

section
variable {c : Nat} (lt : c < 64)
include lt

theorem numField_of {g : Fld} (low : 8 * 0x150000 ≤ g.a ∧ g.a < 8 * 0x151000) (word : g.a % 512 < 8 * 0x30) : NumField c g := by
  refine ⟨by omega, ?_, ?_, ?_, ?_, ?_⟩ <;>
    simp only [R.NUM_PROM.layer, R.NUM_PROM.step, R.NUM_PROMCNT.count, R.CUT_EPOCH.epoch, R.CUT_EPOCH.pend] <;> omega

theorem numFields : NumField c (R.NUM_STAT.skip c) ∧ NumField c (R.NUM_STAT.cause c) ∧ NumField c (R.NUM_STAT.step c) ∧ NumField c (R.NUM_STEP.step c) ∧
    NumField c (R.NUM_SKIP.count c) ∧ NumField c (R.NUM_SKIP.ovr c) ∧ NumField c (R.NUM_SKLAST.step c) ∧ NumField c (R.NUM_SKLAST.cause c) := by
  refine ⟨?_, ?_, ?_, ?_, ?_, ?_, ?_, ?_⟩ <;> refine numField_of lt ?_ ?_ <;>
    simp only [R.NUM_STAT.skip, R.NUM_STAT.cause, R.NUM_STAT.step, R.NUM_STEP.step, R.NUM_SKIP.count, R.NUM_SKIP.ovr, R.NUM_SKLAST.step, R.NUM_SKLAST.cause] <;>
    omega

end

theorem verdictFields_nodup (c : Nat) (skip : Bool) (cause step : Nat) : ((verdictFields c skip cause step).map fun p => p.1.a).Nodup := by
  simp only [verdictFields, List.map_cons, List.map_nil, List.nodup_cons, List.mem_cons, List.not_mem_nil, or_false, not_or, not_false_eq_true,
    List.nodup_nil, and_true, R.NUM_STAT.skip, R.NUM_STAT.cause, R.NUM_STAT.step, R.NUM_STEP.step]
  omega

theorem verdictPut_get (s : State) {c : Nat} (skip : Bool) (cause step : Nat) {g : Fld} (num : NumField c g)
    (apart : g.a ≠ (R.NUM_STAT.skip c).a ∧ g.a ≠ (R.NUM_STAT.cause c).a ∧ g.a ≠ (R.NUM_STAT.step c).a ∧ g.a ≠ (R.NUM_STEP.step c).a) :
    (s.verdictPut c skip cause step).get g = s.get g := by
  refine (puts_get_other _ fun p mem => ?_).trans ((delays_tel s c skip cause).get g num)
  simp only [verdictFields, List.mem_cons, List.not_mem_nil, or_false] at mem
  rcases mem with rfl | rfl | rfl | rfl
  exacts [apart.1, apart.2.1, apart.2.2.1, apart.2.2.2]

theorem verdictPut_field (s : State) {c : Nat} {skip : Bool} {cause step : Nat} {f : Fld} {v : Nat} (mem : (f, v) ∈ verdictFields c skip cause step) :
    (s.verdictPut c skip cause step).get f = v % 2 ^ f.w := puts_get_of_nodup _ (verdictFields_nodup ..) mem

theorem verdictCounted_skip (s : State) (c cause step : Nat) :
    (s.verdictCounted c true cause step).get (R.NUM_SKIP.count c) = min (s.get (R.NUM_SKIP.count c) + 1) (2 ^ (R.NUM_SKIP.count c).w - 1) ∧
      (s.verdictCounted c true cause step).get (R.NUM_SKLAST.step c) = step % 2 ^ 48 ∧
      (s.verdictCounted c true cause step).get (R.NUM_SKLAST.cause c) = cause % 2 ^ 8 := by
  have two := puts_two (s.count (R.NUM_SKIP.count c) 1) step cause (f := R.NUM_SKLAST.step c) (g := R.NUM_SKLAST.cause c)
    (by simp only [R.NUM_SKLAST.step, R.NUM_SKLAST.cause]; omega)
  refine ⟨(puts_get_other _ fun p mem => ?_).trans (State.get_count_same ..), two⟩
  simp only [List.mem_cons, List.not_mem_nil, or_false] at mem
  rcases mem with rfl | rfl <;> simp only [R.NUM_SKIP.count, R.NUM_SKLAST.step, R.NUM_SKLAST.cause] <;> omega

theorem verdictCounted_go (s : State) (c cause step : Nat) : (s.verdictCounted c false cause step).get (R.NUM_SKIP.count c) = s.get (R.NUM_SKIP.count c) ∧
    (cause ≠ 0 → (s.verdictCounted c false cause step).get (R.NUM_SKIP.ovr c) = min (s.get (R.NUM_SKIP.ovr c) + 1) (2 ^ (R.NUM_SKIP.ovr c).w - 1)) := by
  unfold State.verdictCounted
  rw [if_neg Bool.false_ne_true]
  refine ⟨?_, fun some => ?_⟩
  · split
    · exact State.get_count_other _ _ _ _ (by simp only [R.NUM_SKIP.count, R.NUM_SKIP.ovr]; omega)
    · rfl
  · rw [if_pos some, State.get_count_same]

theorem verdictCounted_forced (s : State) (c : Nat) (skip : Bool) (cause step : Nat) : ((s.verdictCounted c skip cause step).job c).forced = (s.job c).forced := by
  unfold State.verdictCounted
  split
  · exact congrArg Job.forced (congrArg (fun u : State => u.job c) (puts_unlogged (s.count (R.NUM_SKIP.count c) 1)
      [(R.NUM_SKLAST.step c, step), (R.NUM_SKLAST.cause c, cause)]) :)
  · split <;> rfl

theorem verdictPut_forced (s : State) (c : Nat) (skip : Bool) (cause step : Nat) : ((s.verdictPut c skip cause step).job c).forced = (s.job c).forced :=
  (congrArg Job.forced (congrArg (fun u : State => u.job c) (puts_unlogged ((s.telTake c skip cause).telWrite c) (verdictFields c skip cause step)) :)).trans
    (delays_tel s c skip cause).forced

/-- A delivery records the verdict and ends the step. -/
theorem delivered_deliver {s₀ s : State} {c : Nat} (before : Delays c s₀ s) (lt : c < 64) (skip : Bool) {cause : Nat} (small : cause < 256)
    (amax : List (Nat × Nat)) : Delivered s₀ (s.deliver c skip cause amax) c skip cause ∧ ((s.deliver c skip cause amax).job c).forced = (s₀.job c).forced := by
  obtain ⟨nSkip, nCause, nStat, nStep, nCount, nOvr, nLast, nLastCause⟩ := numFields lt
  have due := before.trans (delays_verdictDue s c skip amax)
  rw [deliver_eq, due.get _ nStep]
  generalize s.verdictDue c skip amax = u at due
  generalize stepIs : s₀.get (R.NUM_STEP.step c) = step
  have stepSmall : step < 2 ^ 48 := stepIs ▸ State.get_lt ..
  have kept := delays_redrawKept ((u.verdictCounted c skip cause step).verdictPut c skip cause step) c skip
  have job := verdictEnd_job (((u.verdictCounted c skip cause step).verdictPut c skip cause step).redrawKept c skip) c skip step
  have end_ {g : Fld} (num : NumField c g) (other : g.a ≠ (R.NUM_STAT.busy c).a) := (verdictEnd_get
    (((u.verdictCounted c skip cause step).verdictPut c skip cause step).redrawKept c skip) c skip step other).trans (kept.get g num)
  have put {f : Fld} {v : Nat} (num : NumField c f) (other : f.a ≠ (R.NUM_STAT.busy c).a) (mem : (f, v) ∈ verdictFields c skip cause step) :=
    (end_ num other).trans (verdictPut_field (u.verdictCounted c skip cause step) mem)
  have count {g : Fld} (num : NumField c g) (other : g.a ≠ (R.NUM_STAT.busy c).a) (apart : g.a ≠ (R.NUM_STAT.skip c).a ∧ g.a ≠ (R.NUM_STAT.cause c).a ∧
      g.a ≠ (R.NUM_STAT.step c).a ∧ g.a ≠ (R.NUM_STEP.step c).a) := (end_ num other).trans (verdictPut_get (u.verdictCounted c skip cause step) skip cause step num apart)
  have counts := count nCount (by simp only [R.NUM_SKIP.count, R.NUM_STAT.busy]; omega)
    (by simp only [R.NUM_SKIP.count, R.NUM_STAT.skip, R.NUM_STAT.cause, R.NUM_STAT.step, R.NUM_STEP.step]; omega)
  have ovrs := count nOvr (by simp only [R.NUM_SKIP.ovr, R.NUM_STAT.busy]; omega)
    (by simp only [R.NUM_SKIP.ovr, R.NUM_STAT.skip, R.NUM_STAT.cause, R.NUM_STAT.step, R.NUM_STEP.step]; omega)
  have lasts := count nLast (by simp only [R.NUM_SKLAST.step, R.NUM_STAT.busy]; omega)
    (by simp only [R.NUM_SKLAST.step, R.NUM_STAT.skip, R.NUM_STAT.cause, R.NUM_STAT.step, R.NUM_STEP.step]; omega)
  have causes := count nLastCause (by simp only [R.NUM_SKLAST.cause, R.NUM_STAT.busy]; omega)
    (by simp only [R.NUM_SKLAST.cause, R.NUM_STAT.skip, R.NUM_STAT.cause, R.NUM_STAT.step, R.NUM_STEP.step]; omega)
  have forced := ((job.2.trans kept.forced).trans (verdictPut_forced (u.verdictCounted c skip cause step) c skip cause step)).trans
    ((verdictCounted_forced u c skip cause step).trans due.forced)
  refine ⟨⟨?_, ?_, ?_, ?_, verdictEnd_busy .., job.1, fun is => ?_, fun is => ?_⟩, forced⟩
  · exact (put nSkip (by simp only [R.NUM_STAT.skip, R.NUM_STAT.busy]; omega) (by simp [verdictFields])).trans (Nat.mod_eq_of_lt (b2n_lt skip))
  · exact (put nCause (by simp only [R.NUM_STAT.cause, R.NUM_STAT.busy]; omega) (by simp [verdictFields])).trans (Nat.mod_eq_of_lt small)
  · exact ((put nStat (by simp only [R.NUM_STAT.step, R.NUM_STAT.busy]; omega) (by simp [verdictFields])).trans (Nat.mod_eq_of_lt stepSmall)).trans stepIs.symm
  · rw [stepIs]
    exact put nStep (by simp only [R.NUM_STEP.step, R.NUM_STAT.busy]; omega) (by simp [verdictFields])
  · subst is
    obtain ⟨counted, last, lastCause⟩ := verdictCounted_skip u c cause step
    refine ⟨?_, ?_, ?_⟩
    · rw [State.Counted, counts, counted, due.get _ nCount]
    · rw [lasts, last, Nat.mod_eq_of_lt stepSmall, stepIs]
    · exact causes.trans (lastCause.trans (Nat.mod_eq_of_lt small))
  · subst is
    obtain ⟨counted, ovr⟩ := verdictCounted_go u c cause step
    refine ⟨counts.trans (counted.trans (due.get _ nCount)), fun some => ?_⟩
    rw [State.Counted, ovrs, ovr some, due.get _ nOvr]

end Sys2Proof.Machine

namespace Sys2Proof.Machine

-- One proof at a time: threads that wait for each other hold memory.
set_option Elab.async false

/-! ## The verdict chain (R300, R301) -/

/-- The causes of a skip on this module. -/
def State.ownCause (s : State) (c : Nat) : Nat :=
  b2n (s.guardHit c) + 2 * b2n (s.flag (R.NORM_SUM.nonfin c)) + 4 * b2n (s.job c).forced + 8 * b2n (s.job c).rstHalf

theorem ownCause_lt (s : State) (c : Nat) : s.ownCause c < 16 := by
  unfold State.ownCause
  have := b2n_lt (s.guardHit c)
  have := b2n_lt (s.flag (R.NORM_SUM.nonfin c))
  have := b2n_lt (s.job c).forced
  have := b2n_lt (s.job c).rstHalf
  omega

/-- The verdict of a module's own causes. -/
theorem verdictSkip_ownCause (s : State) (c : Nat) (pin : Bool) : verdictSkip (s.ownCause c) pin =
    ((s.job c).forced || (s.job c).rstHalf || ((s.guardHit c || s.flag (R.NORM_SUM.nonfin c)) && !pin)) := by
  unfold State.ownCause
  generalize s.guardHit c = guard
  generalize s.flag (R.NORM_SUM.nonfin c) = nonfin
  generalize (s.job c).forced = forced
  generalize (s.job c).rstHalf = half
  revert guard nonfin forced half pin
  decide

/-- The verdict point of a context, reached. -/
def State.pointed (s : State) (c : Nat) : State :=
  (s.put (R.NUM_STAT.busy c) 1).setJob c { s.job c with point := true, cause := s.ownCause c, amax := s.moduleAmax c, forced := false }

theorem exec_verdictPoint (c : Fin 64) (s : State) : exec (.verdictPoint c) s = .next (
    if (s.flag (R.NUM_STAT.busy c.val) || (s.activeStages c.val).isEmpty || !(s.activeStages c.val).all s.optEnded) = true then s
    else if s.ckptHolds c.val = true then (s.activeStages c.val).foldl (fun s k => s.put (R.CUT_PH.wait k) 1) s
    else (s.pointed c.val).verdictChain c.val) := rfl

theorem pointed_job (s : State) (c : Nat) : (s.pointed c).job c =
    { s.job c with point := true, cause := s.ownCause c, amax := s.moduleAmax c, forced := false } := (setJob_job ..).trans (if_pos rfl)

theorem pointed_get (s : State) {c : Nat} {g : Fld} (other : g.a ≠ (R.NUM_STAT.busy c).a) : (s.pointed c).get g = s.get g :=
  (get_congr rfl g).trans (State.get_put_other _ _ _ _ other)

/-- What the verdict chain does where the chain has come. -/
theorem verdictChain_come {s : State} {c cause : Nat} {amax : List (Nat × Nat)} (point : (s.job c).point = true)
    (come : (if s.moduleOf c = 0 then some (0, []) else (s.job c).vmsg) = some (cause, amax)) : s.verdictChain c =
      if s.moduleOf c < s.lastModule c then
        (s.modJob c (fun j => { j with vmsg := none })).redSend c (s.moduleOf c + 1) 3
          ((cause ||| (s.job c).cause) :: ((s.job c).amax.foldl (fun l x => amaxPut l x.1 x.2) amax).flatMap (fun x => [x.1, x.2]))
      else
        (s.verdictSend c (verdictSkip (cause ||| (s.job c).cause) (s.flag (R.NUM_CTL.skip_pin c))) (cause ||| (s.job c).cause)
            ((s.job c).amax.foldl (fun l x => amaxPut l x.1 x.2) amax)).deliver c
          (verdictSkip (cause ||| (s.job c).cause) (s.flag (R.NUM_CTL.skip_pin c))) (cause ||| (s.job c).cause)
          ((s.job c).amax.foldl (fun l x => amaxPut l x.1 x.2) amax) := by
  unfold State.verdictChain
  dsimp only
  rw [come, point]

theorem verdictChain_waits {s : State} {c : Nat} (waits : (s.job c).point = false ∨ (s.moduleOf c ≠ 0 ∧ (s.job c).vmsg = none)) :
    s.verdictChain c = s := by
  unfold State.verdictChain
  dsimp only
  split
  · next point come =>
    rcases waits with off | ⟨module, none_⟩
    · rw [point] at off; cases off
    · rw [if_neg module, none_] at come; cases come
  · rfl

theorem verdictSend_untold (s : State) (c : Nat) (skip : Bool) (cause : Nat) (amax : List (Nat × Nat)) :
    (s.verdictSend c skip cause amax).untold = s.untold := by
  unfold State.verdictSend
  split
  · exact redSend_untold ..
  · rfl

theorem delays_modJob {s : State} {c : Nat} {f : Job → Job} (forced : (f (s.job c)).forced = (s.job c).forced) : Delays c s (s.modJob c f) :=
  ⟨fun _ _ => get_congr rfl _, (congrArg Job.forced ((modJob_job ..).trans (if_pos rfl))).trans forced⟩

/-- A verdict sent to the modules before, and delivered here. -/
theorem delivered_sent {s₀ s : State} {c : Nat} (before : Delays c s₀ s) (lt : c < 64) (skip : Bool) {cause : Nat} (small : cause < 256)
    (amax : List (Nat × Nat)) : Delivered s₀ ((s.verdictSend c skip cause amax).deliver c skip cause amax) c skip cause ∧
      ((((s.verdictSend c skip cause amax).deliver c skip cause amax)).job c).forced = (s₀.job c).forced :=
  delivered_deliver (before.trans (delays_untold (verdictSend_untold ..))) lt skip small amax

/-- Only the fields of the step and of the counts matter of the state before. -/
theorem Delivered.of_get {s u t : State} {c : Nat} {skip : Bool} {cause : Nat} (delivered : Delivered u t c skip cause)
    (same : ∀ g : Fld, g.a ≠ (R.NUM_STAT.busy c).a → u.get g = s.get g) : Delivered s t c skip cause := by
  have step := same (R.NUM_STEP.step c) (by simp only [R.NUM_STEP.step, R.NUM_STAT.busy]; omega)
  have count := same (R.NUM_SKIP.count c) (by simp only [R.NUM_SKIP.count, R.NUM_STAT.busy]; omega)
  have ovr := same (R.NUM_SKIP.ovr c) (by simp only [R.NUM_SKIP.ovr, R.NUM_STAT.busy]; omega)
  unfold Delivered State.Counted at delivered ⊢
  rwa [step, count, ovr] at delivered

theorem pointed_moduleOf (s : State) (c : Nat) : (s.pointed c).moduleOf c = s.moduleOf c :=
  pointed_get s (by simp only [R.CUT_CTL.module, R.NUM_STAT.busy]; omega)

theorem pointed_lastModule (s : State) (c : Nat) : (s.pointed c).lastModule c = s.lastModule c := rfl

section
variable {s : State} {c : Fin 64}

theorem exec_verdictPoint_early (early : (s.flag (R.NUM_STAT.busy c.val) || (s.activeStages c.val).isEmpty || !(s.activeStages c.val).all s.optEnded) = true) :
    exec (.verdictPoint c) s = .next s := congrArg Host.Outcome.next (if_pos early)

variable (idle : s.get (R.NUM_STAT.busy c.val) = 0) (active : s.activeStages c.val ≠ []) (ended : (s.activeStages c.val).all s.optEnded = true)
include idle active ended

theorem verdictPoint_due : ¬(s.flag (R.NUM_STAT.busy c.val) || (s.activeStages c.val).isEmpty || !(s.activeStages c.val).all s.optEnded) = true := by
  rw [flag_eq_false idle, ended, List.isEmpty_eq_false_iff.2 active]
  decide

theorem exec_verdictPoint_holds (holds : s.ckptHolds c.val = true) :
    exec (.verdictPoint c) s = .next ((s.activeStages c.val).foldl (fun s k => s.put (R.CUT_PH.wait k) 1) s) :=
  congrArg Host.Outcome.next ((if_neg (verdictPoint_due idle active ended)).trans (if_pos holds))

theorem exec_verdictPoint_reached (free : s.ckptHolds c.val = false) : exec (.verdictPoint c) s = .next ((s.pointed c.val).verdictChain c.val) :=
  congrArg Host.Outcome.next ((if_neg (verdictPoint_due idle active ended)).trans (if_neg (by rw [free]; exact Bool.false_ne_true)))

end

theorem waits_put (l : List Nat) (s : State) : SameMem s (l.foldl (fun s k => s.put (R.CUT_PH.wait k) 1) s) ∧
    (l.foldl (fun s k => s.put (R.CUT_PH.wait k) 1) s).jobs = s.jobs ∧
      ∀ k, k ∈ l ∨ s.get (R.CUT_PH.wait k) = 1 → (l.foldl (fun s k => s.put (R.CUT_PH.wait k) 1) s).get (R.CUT_PH.wait k) = 1 := by
  induction l generalizing s with
  | nil => exact ⟨SameMem.refl s, rfl, fun k is => is.resolve_left List.not_mem_nil⟩
  | cons j l ih =>
    obtain ⟨mem, jobs, wait⟩ := ih (s.put (R.CUT_PH.wait j) 1)
    refine ⟨(sameMem_of_eq rfl rfl rfl rfl : SameMem s (s.put (R.CUT_PH.wait j) 1)).trans mem, jobs, fun k is => wait k ?_⟩
    by_cases same : k = j
    · exact .inr (same ▸ State.get_put_same ..)
    · refine is.imp (fun mem => (List.mem_cons.1 mem).resolve_left same) fun one => (State.get_put_other _ _ _ _ ?_).trans one
      simp only [R.CUT_PH.wait]
      omega

/-- A message of the verdict chain, taken in. -/
def State.verdictHeard (s : State) (c cause : Nat) (l : List (Nat × Nat)) : State := s.modJob c (fun j => { j with vmsg := some (cause, l) })

theorem exec_verdictChainMsg {s : State} {h : RedHdr} (mine : s.redMine h (s.redDir h) = true) (cause : BitVec 4) (amax : List (BitVec 12 × BitVec 32)) :
    ∃ n, exec (.verdictChainMsg h cause amax) s = .next (((s.redGot h (s.redDir h) 3 n).verdictHeard h.ctx.val cause.toNat
      ((amaxOf amax).foldl (fun l x => amaxPut l x.1 x.2) [])).verdictChain h.ctx.val) :=
  ⟨_, congrArg Host.Outcome.next (redIn_mine mine)⟩

theorem exec_verdictBroadcastMsg {s : State} {h : RedHdr} (mine : s.redMine h (s.redDir h) = true) (skip : Bool) (cause : BitVec 4)
    (amax : List (BitVec 12 × BitVec 32)) : ∃ n, exec (.verdictBroadcastMsg h skip cause amax) s = .next (
      if ((s.redGot h (s.redDir h) 4 n).job h.ctx.val).point = true then
        ((s.redGot h (s.redDir h) 4 n).verdictSend h.ctx.val skip cause.toNat (amaxOf amax)).deliver h.ctx.val skip cause.toNat (amaxOf amax)
      else s.redGot h (s.redDir h) 4 n) :=
  ⟨_, congrArg Host.Outcome.next (redIn_mine mine)⟩

theorem verdictHeard_job (s : State) (c cause : Nat) (l : List (Nat × Nat)) : (s.verdictHeard c cause l).job c = { s.job c with vmsg := some (cause, l) } :=
  (modJob_job ..).trans (if_pos rfl)

theorem verdictHeard_delays (s : State) (c cause : Nat) (l : List (Nat × Nat)) : Delays c s (s.verdictHeard c cause l) := delays_modJob rfl

theorem moduleOf_of_untold {s t : State} (same : t.untold = s.untold) (c : Nat) : t.moduleOf c = s.moduleOf c := get_of_untold same _

theorem lastModule_of_untold {s t : State} (same : t.untold = s.untold) (c : Nat) : t.lastModule c = s.lastModule c :=
  (congrArg (fun u : State => u.lastModule c) same :)

/-- What the chain leaves that goes on to the next module. -/
theorem chain_on (s : State) (c m : Nat) (body : List Nat) :
    SameMem s ((s.modJob c (fun j => { j with vmsg := none })).redSend c m 3 body) ∧
      ((s.modJob c (fun j => { j with vmsg := none })).redSend c m 3 body).regs = s.regs ∧
      ((s.modJob c (fun j => { j with vmsg := none })).redSend c m 3 body).job c = { s.job c with vmsg := none } := by
  have sent := redSend_untold (s.modJob c (fun j => { j with vmsg := none })) c m 3 body
  exact ⟨(sameMem_of_eq rfl rfl rfl rfl : SameMem s (s.modJob c (fun j => { j with vmsg := none }))).trans (sameMem_of_untold sent),
    (regs_of_untold sent).trans rfl, (job_of_untold sent c).trans ((modJob_job ..).trans (if_pos rfl))⟩

section
variable {s : State} {h : RedHdr} (mine : s.redMine h (s.redDir h) = true) (cause : BitVec 4) (amax : List (BitVec 12 × BitVec 32))
include mine

theorem verdictChainMsg_early (point : (s.job h.ctx.val).point = false) : ∃ t, exec (.verdictChainMsg h cause amax) s = .next t ∧ SameMem s t ∧
    t.regs = s.regs ∧ (t.job h.ctx.val).point = false ∧ (t.job h.ctx.val).vmsg.map Prod.fst = some cause.toNat := by
  obtain ⟨n, run⟩ := exec_verdictChainMsg mine cause amax
  generalize (amaxOf amax).foldl (fun l x => amaxPut l x.1 x.2) [] = l at run
  have got := redGot_untold s h (s.redDir h) 3 n
  have job := job_of_untold got h.ctx.val
  generalize s.redGot h (s.redDir h) 3 n = u at *
  have heard := verdictHeard_job u h.ctx.val cause.toNat l
  refine ⟨_, run.trans (congrArg _ (verdictChain_waits (.inl (by rw [heard, job]; exact point)))),
    (sameMem_of_untold got).trans (sameMem_of_eq rfl rfl rfl rfl), (regs_of_untold got :), ?_, ?_⟩
  · rw [heard, job]
    exact point
  · rw [heard]
    rfl

variable (point : (s.job h.ctx.val).point = true) (module : s.moduleOf h.ctx.val ≠ 0)
include point module

theorem verdictChainMsg_on (more : s.moduleOf h.ctx.val < s.lastModule h.ctx.val) : ∃ t, exec (.verdictChainMsg h cause amax) s = .next t ∧ SameMem s t ∧
    t.regs = s.regs ∧ (t.job h.ctx.val).vmsg = none ∧ (t.job h.ctx.val).point = true := by
  obtain ⟨n, run⟩ := exec_verdictChainMsg mine cause amax
  generalize (amaxOf amax).foldl (fun l x => amaxPut l x.1 x.2) [] = l at run
  have got := redGot_untold s h (s.redDir h) 3 n
  have job := job_of_untold got h.ctx.val
  generalize s.redGot h (s.redDir h) 3 n = u at *
  have heard := verdictHeard_job u h.ctx.val cause.toNat l
  have mod : (u.verdictHeard h.ctx.val cause.toNat l).moduleOf h.ctx.val = s.moduleOf h.ctx.val := moduleOf_of_untold got _
  have last : (u.verdictHeard h.ctx.val cause.toNat l).lastModule h.ctx.val = s.lastModule h.ctx.val := lastModule_of_untold got _
  have chain := verdictChain_come (s := u.verdictHeard h.ctx.val cause.toNat l) (c := h.ctx.val) (cause := cause.toNat) (amax := l)
    (by rw [heard, job]; exact point) (by rw [mod, if_neg module, heard])
  rw [if_pos (by rw [mod, last]; exact more)] at chain
  obtain ⟨mem, regs, jobs⟩ := chain_on (u.verdictHeard h.ctx.val cause.toNat l) h.ctx.val ((u.verdictHeard h.ctx.val cause.toNat l).moduleOf h.ctx.val + 1)
    ((cause.toNat ||| ((u.verdictHeard h.ctx.val cause.toNat l).job h.ctx.val).cause) ::
      (((u.verdictHeard h.ctx.val cause.toNat l).job h.ctx.val).amax.foldl (fun l x => amaxPut l x.1 x.2) l).flatMap (fun x => [x.1, x.2]))
  refine ⟨_, run.trans (congrArg _ chain), ((sameMem_of_untold got).trans (sameMem_of_eq rfl rfl rfl rfl)).trans mem,
    regs.trans (regs_of_untold got :), ?_, ?_⟩
  · rw [jobs]
  · rw [jobs, heard, job]
    exact point

theorem verdictChainMsg_last (last : s.lastModule h.ctx.val ≤ s.moduleOf h.ctx.val) (small : (s.job h.ctx.val).cause < 16) :
    ∃ t, exec (.verdictChainMsg h cause amax) s = .next t ∧ Delivered s t h.ctx.val
      (verdictSkip (cause.toNat ||| (s.job h.ctx.val).cause) (s.flag (R.NUM_CTL.skip_pin h.ctx.val))) (cause.toNat ||| (s.job h.ctx.val).cause) := by
  obtain ⟨n, run⟩ := exec_verdictChainMsg mine cause amax
  generalize (amaxOf amax).foldl (fun l x => amaxPut l x.1 x.2) [] = l at run
  have got := redGot_untold s h (s.redDir h) 3 n
  have job := job_of_untold got h.ctx.val
  generalize s.redGot h (s.redDir h) 3 n = u at *
  have heard := verdictHeard_job u h.ctx.val cause.toNat l
  have mod : (u.verdictHeard h.ctx.val cause.toNat l).moduleOf h.ctx.val = s.moduleOf h.ctx.val := moduleOf_of_untold got _
  have lasts : (u.verdictHeard h.ctx.val cause.toNat l).lastModule h.ctx.val = s.lastModule h.ctx.val := lastModule_of_untold got _
  have own : ((u.verdictHeard h.ctx.val cause.toNat l).job h.ctx.val).cause = (s.job h.ctx.val).cause := by rw [heard, job]
  have pin : (u.verdictHeard h.ctx.val cause.toNat l).flag (R.NUM_CTL.skip_pin h.ctx.val) = s.flag (R.NUM_CTL.skip_pin h.ctx.val) :=
    (congrArg (fun u : State => u.flag (R.NUM_CTL.skip_pin h.ctx.val)) got :)
  have chain := verdictChain_come (s := u.verdictHeard h.ctx.val cause.toNat l) (c := h.ctx.val) (cause := cause.toNat) (amax := l)
    (by rw [heard, job]; exact point) (by rw [mod, if_neg module, heard])
  rw [if_neg (by rw [mod, lasts]; omega), own, pin] at chain
  have fits : cause.toNat ||| (s.job h.ctx.val).cause < 256 := Nat.or_lt_two_pow (n := 8) (by have := cause.isLt; omega) (by omega)
  exact ⟨_, run.trans (congrArg _ chain), (delivered_sent ((delays_untold got).trans (verdictHeard_delays ..)) h.ctx.isLt _ fits _).1⟩

end

theorem verdictBroadcastMsg_clause {s : State} {h : RedHdr} (mine : s.redMine h (s.redDir h) = true) (skip : Bool) (cause : BitVec 4)
    (amax : List (BitVec 12 × BitVec 32)) :
    ((s.job h.ctx.val).point = true → ∃ t, exec (.verdictBroadcastMsg h skip cause amax) s = .next t ∧ Delivered s t h.ctx.val skip cause.toNat) ∧
      ((s.job h.ctx.val).point = false → ∃ t, exec (.verdictBroadcastMsg h skip cause amax) s = .next t ∧ SameMem s t ∧ t.regs = s.regs ∧ t.jobs = s.jobs) := by
  obtain ⟨n, run⟩ := exec_verdictBroadcastMsg mine skip cause amax
  have got := redGot_untold s h (s.redDir h) 4 n
  have job := job_of_untold got h.ctx.val
  generalize s.redGot h (s.redDir h) 4 n = u at *
  refine ⟨fun point => ⟨_, run.trans (congrArg _ (if_pos (by rw [job]; exact point))), ?_⟩, fun point => ⟨u, run.trans (congrArg _ (if_neg ?_)),
    sameMem_of_untold got, regs_of_untold got, (congrArg State.jobs got :)⟩⟩
  · exact (delivered_sent (delays_untold got) h.ctx.isLt skip (by have := cause.isLt; omega) _).1
  · rw [job, point]
    exact Bool.false_ne_true

/-! ### The verdict point -/

section
variable {s : State} {c : Fin 64} (idle : s.get (R.NUM_STAT.busy c.val) = 0) (active : s.activeStages c.val ≠ [])
  (ended : (s.activeStages c.val).all s.optEnded = true) (free : s.ckptHolds c.val = false)
include idle active ended free

theorem verdictPoint_alone (module : s.moduleOf c.val = 0) (last : s.lastModule c.val = 0) : ∃ t, exec (.verdictPoint c) s = .next t ∧
    (t.job c.val).forced = false ∧ Delivered s t c.val ((s.job c.val).forced || (s.job c.val).rstHalf ||
      ((s.guardHit c.val || s.flag (R.NORM_SUM.nonfin c.val)) && !s.flag (R.NUM_CTL.skip_pin c.val))) (s.ownCause c.val) := by
  have job := pointed_job s c.val
  have mod := pointed_moduleOf s c.val
  have lasts := pointed_lastModule s c.val
  have get {g : Fld} (other : g.a ≠ (R.NUM_STAT.busy c.val).a) := pointed_get s other
  have run := exec_verdictPoint_reached idle active ended free
  have pin : (s.pointed c.val).flag (R.NUM_CTL.skip_pin c.val) = s.flag (R.NUM_CTL.skip_pin c.val) := by
    rw [State.flag, get (by simp only [R.NUM_CTL.skip_pin, R.NUM_STAT.busy]; omega), State.flag]
  rw [← verdictSkip_ownCause, ← pin]
  have small := ownCause_lt s c.val
  generalize s.pointed c.val = u at *
  have chain := verdictChain_come (s := u) (c := c.val) (cause := 0) (amax := []) (by rw [job]) (by rw [mod, if_pos module])
  have own : (u.job c.val).cause = s.ownCause c.val := by rw [job]
  rw [if_neg (by rw [mod, lasts]; omega), own, Nat.zero_or] at chain
  obtain ⟨delivered, forced⟩ := delivered_sent (Delays.refl c.val u) c.isLt (verdictSkip (s.ownCause c.val) (u.flag (R.NUM_CTL.skip_pin c.val)))
    (cause := s.ownCause c.val) (by omega) ((u.job c.val).amax.foldl (fun l x => amaxPut l x.1 x.2) [])
  exact ⟨_, run.trans (congrArg _ chain), forced.trans (by rw [job]), delivered.of_get fun g other => get other⟩

theorem verdictPoint_waits (waits : s.moduleOf c.val < s.lastModule c.val ∨ (s.moduleOf c.val ≠ 0 ∧ (s.job c.val).vmsg = none)) :
    ∃ t, exec (.verdictPoint c) s = .next t ∧ SameMem s t ∧ t.get (R.NUM_STAT.busy c.val) = 1 ∧ (t.job c.val).point = true ∧
      (t.job c.val).forced = false ∧ (t.job c.val).cause = s.ownCause c.val := by
  have job := pointed_job s c.val
  have mod := pointed_moduleOf s c.val
  have lasts := pointed_lastModule s c.val
  have mem : SameMem s (s.pointed c.val) := sameMem_of_eq rfl rfl rfl rfl
  have busy : (s.pointed c.val).get (R.NUM_STAT.busy c.val) = 1 := (get_congr rfl _).trans (State.get_put_same ..)
  have run := exec_verdictPoint_reached idle active ended free
  generalize s.pointed c.val = u at *
  have stays : s.moduleOf c.val ≠ 0 ∧ (s.job c.val).vmsg = none → ∃ t, exec (.verdictPoint c) s = .next t ∧ SameMem s t ∧
      t.get (R.NUM_STAT.busy c.val) = 1 ∧ (t.job c.val).point = true ∧ (t.job c.val).forced = false ∧ (t.job c.val).cause = s.ownCause c.val := by
    rintro ⟨module, none_⟩
    exact ⟨u, run.trans (congrArg _ (verdictChain_waits (.inr ⟨by rwa [mod], by rw [job]; exact none_⟩))), mem, busy, by rw [job], by rw [job], by rw [job]⟩
  by_cases waiting : s.moduleOf c.val ≠ 0 ∧ (s.job c.val).vmsg = none
  · exact stays waiting
  · have more := waits.resolve_right waiting
    obtain ⟨⟨cause, amax⟩, come⟩ : ∃ x, (if u.moduleOf c.val = 0 then some (0, []) else (u.job c.val).vmsg) = some x := by
      rw [mod, job]
      dsimp only
      split
      · exact ⟨_, rfl⟩
      · next module => exact Option.ne_none_iff_exists'.1 fun none_ => waiting ⟨module, none_⟩
    have chain := verdictChain_come (by rw [job]) come
    rw [if_pos (by rw [mod, lasts]; exact more)] at chain
    obtain ⟨kept, regs, jobs⟩ := chain_on u c.val (u.moduleOf c.val + 1)
      ((cause ||| (u.job c.val).cause) :: ((u.job c.val).amax.foldl (fun l x => amaxPut l x.1 x.2) amax).flatMap (fun x => [x.1, x.2]))
    refine ⟨_, run.trans (congrArg _ chain), mem.trans kept, (get_congr regs _).trans busy, ?_, ?_, ?_⟩ <;> rw [jobs, job]

end

/-! ## A write of a scale register (R297, R304) -/

theorem bits_lt (x a w : Nat) : bits x a w < 2 ^ w := Nat.mod_lt _ (Nat.two_pow_pos w)

/-- A field that takes a value, and no other one of a list. -/
theorem puts_field {s : State} {l : List (Fld × Nat)} (nodup : (l.map fun p => p.1.a).Nodup) {f : Fld} {x a : Nat} (mem : (f, bits x a f.w) ∈ l) :
    (s.puts l).get f = bits x a f.w := (puts_get_of_nodup s nodup mem).trans (Nat.mod_eq_of_lt (bits_lt ..))

section
variable (s : State) (n i x : Nat)

theorem sctlLow_fields : (s.sctlLow n i x).get (R.NUM_SCTL.h n i) = bits x 28 4 ∧ (s.sctlLow n i x).get (R.NUM_SCTL.k n i) = bits x 24 4 ∧
    (s.sctlLow n i x).get (R.NUM_SCTL.clean_lim n i) = bits x 0 16 := by
  have nodup : ([(R.NUM_SCTL.h n i, bits x 28 4), (R.NUM_SCTL.k n i, bits x 24 4), (R.NUM_SCTL.clean_lim n i, bits x 0 16)].map fun p => p.1.a).Nodup := by
    simp only [List.map_cons, List.map_nil, List.nodup_cons, List.mem_cons, List.not_mem_nil, or_false, not_or, not_false_eq_true, List.nodup_nil, and_true,
      R.NUM_SCTL.h, R.NUM_SCTL.k, R.NUM_SCTL.clean_lim]
    omega
  exact ⟨puts_field nodup (by simp [R.NUM_SCTL.h]), puts_field nodup (by simp [R.NUM_SCTL.k]), puts_field nodup (by simp [R.NUM_SCTL.clean_lim])⟩

theorem sctlLow_other {g : Fld} (apart : 32 ≤ g.a % 64) : (s.sctlLow n i x).get g = s.get g := by
  refine puts_get_other s fun p mem => ?_
  simp only [List.mem_cons, List.not_mem_nil, or_false] at mem
  rcases mem with rfl | rfl | rfl <;> simp only [R.NUM_SCTL.h, R.NUM_SCTL.k, R.NUM_SCTL.clean_lim] <;> omega

/-- The high half of a scale register with the fields that take any value. -/
def State.sctlFree (s : State) (n i x : Nat) : State :=
  s.puts [(R.NUM_SCTL.sid n i, bits x 48 12), (R.NUM_SCTL.x_pin n i, bits x 40 8), (R.NUM_SCTL.lower_en n i, bits x 33 1)]

/-- The high half with a format that is one. -/
def State.sctlFmt (s : State) (n i x : Nat) : State := if (fmtMax (bits x 36 4)).isSome then s.put (R.NUM_SCTL.fmt n i) (bits x 36 4) else s

/-- The high half with a mode that is one. -/
def State.sctlMode (s : State) (n i x : Nat) : State := if bits x 34 2 = 3 then s else s.put (R.NUM_SCTL.mode n i) (bits x 34 2)

theorem sctlHigh_eq : s.sctlHigh n i x =
    if (fmtMax (bits x 36 4)).isNone ∨ bits x 34 2 = 3 then
      (((s.sctlFree n i x).sctlFmt n i x).sctlMode n i x).raise E.CFG_RANGE none (atLd (ldOfDie n)) (256 * n + i)
    else ((s.sctlFree n i x).sctlFmt n i x).sctlMode n i x := rfl

theorem sctlFree_fields : (s.sctlFree n i x).get (R.NUM_SCTL.sid n i) = bits x 48 12 ∧ (s.sctlFree n i x).get (R.NUM_SCTL.x_pin n i) = bits x 40 8 ∧
    (s.sctlFree n i x).get (R.NUM_SCTL.lower_en n i) = bits x 33 1 := by
  have nodup : ([(R.NUM_SCTL.sid n i, bits x 48 12), (R.NUM_SCTL.x_pin n i, bits x 40 8), (R.NUM_SCTL.lower_en n i, bits x 33 1)].map fun p => p.1.a).Nodup := by
    simp only [List.map_cons, List.map_nil, List.nodup_cons, List.mem_cons, List.not_mem_nil, or_false, not_or, not_false_eq_true, List.nodup_nil, and_true,
      R.NUM_SCTL.sid, R.NUM_SCTL.x_pin, R.NUM_SCTL.lower_en]
    omega
  exact ⟨puts_field nodup (by simp [R.NUM_SCTL.sid]), puts_field nodup (by simp [R.NUM_SCTL.x_pin]), puts_field nodup (by simp [R.NUM_SCTL.lower_en])⟩

theorem sctlFree_other {g : Fld} (apart : g.a % 64 ≠ 48 ∧ g.a % 64 ≠ 40 ∧ g.a % 64 ≠ 33) : (s.sctlFree n i x).get g = s.get g := by
  refine puts_get_other s fun p mem => ?_
  simp only [List.mem_cons, List.not_mem_nil, or_false] at mem
  rcases mem with rfl | rfl | rfl <;> simp only [R.NUM_SCTL.sid, R.NUM_SCTL.x_pin, R.NUM_SCTL.lower_en] <;> omega

theorem sctlFmt_fmt : (s.sctlFmt n i x).get (R.NUM_SCTL.fmt n i) = if (fmtMax (bits x 36 4)).isSome then bits x 36 4 else s.get (R.NUM_SCTL.fmt n i) := by
  unfold State.sctlFmt
  split
  · exact (State.get_put_same ..).trans (Nat.mod_eq_of_lt (bits_lt ..))
  · rfl

theorem sctlFmt_other {g : Fld} (apart : g.a % 64 ≠ 36) : (s.sctlFmt n i x).get g = s.get g := by
  unfold State.sctlFmt
  split
  · exact State.get_put_other _ _ _ _ (by simp only [R.NUM_SCTL.fmt]; omega)
  · rfl

theorem sctlMode_mode : (s.sctlMode n i x).get (R.NUM_SCTL.mode n i) = if bits x 34 2 = 3 then s.get (R.NUM_SCTL.mode n i) else bits x 34 2 := by
  unfold State.sctlMode
  split
  · rfl
  · exact (State.get_put_same ..).trans (Nat.mod_eq_of_lt (bits_lt ..))

theorem sctlMode_other {g : Fld} (apart : g.a % 64 ≠ 34) : (s.sctlMode n i x).get g = s.get g := by
  unfold State.sctlMode
  split
  · rfl
  · exact State.get_put_other _ _ _ _ (by simp only [R.NUM_SCTL.mode]; omega)

theorem sctlHigh_get {g : Fld} (low : g.a < 8 * 0x3e00000) : (s.sctlHigh n i x).get g = (((s.sctlFree n i x).sctlFmt n i x).sctlMode n i x).get g := by
  rw [sctlHigh_eq]
  split
  · exact raise_get _ low
  · rfl

theorem sctlHigh_other {g : Fld} (low : g.a < 8 * 0x3e00000) (apart : g.a % 64 < 32) : (s.sctlHigh n i x).get g = s.get g := by
  rw [sctlHigh_get s n i x low, sctlMode_other, sctlFmt_other, sctlFree_other] <;> omega

variable (die : n < 24) (reg : i < 256)
include die reg

theorem sctl_low (f : Fld) (word : f.a < 8 * (0x2010000 + 0x80000 * n + 0x80 * i) + 64) : f.a < 8 * 0x3e00000 := by omega

theorem sctlHigh_fields : (s.sctlHigh n i x).get (R.NUM_SCTL.lower_en n i) = bits x 33 1 ∧ (s.sctlHigh n i x).get (R.NUM_SCTL.sid n i) = bits x 48 12 ∧
    (s.sctlHigh n i x).get (R.NUM_SCTL.x_pin n i) = bits x 40 8 ∧
    (s.sctlHigh n i x).get (R.NUM_SCTL.fmt n i) = (if (fmtMax (bits x 36 4)).isSome then bits x 36 4 else s.get (R.NUM_SCTL.fmt n i)) ∧
    (s.sctlHigh n i x).get (R.NUM_SCTL.mode n i) = if bits x 34 2 = 3 then s.get (R.NUM_SCTL.mode n i) else bits x 34 2 := by
  obtain ⟨sid, pin, lower⟩ := sctlFree_fields s n i x
  refine ⟨?_, ?_, ?_, ?_, ?_⟩ <;> refine (sctlHigh_get s n i x ?_).trans ?_
  · exact sctl_low n i die reg _ (by simp only [R.NUM_SCTL.lower_en]; omega)
  · rw [sctlMode_other, sctlFmt_other, lower] <;> simp only [R.NUM_SCTL.lower_en] <;> omega
  · exact sctl_low n i die reg _ (by simp only [R.NUM_SCTL.sid]; omega)
  · rw [sctlMode_other, sctlFmt_other, sid] <;> simp only [R.NUM_SCTL.sid] <;> omega
  · exact sctl_low n i die reg _ (by simp only [R.NUM_SCTL.x_pin]; omega)
  · rw [sctlMode_other, sctlFmt_other, pin] <;> simp only [R.NUM_SCTL.x_pin] <;> omega
  · exact sctl_low n i die reg _ (by simp only [R.NUM_SCTL.fmt]; omega)
  · rw [sctlMode_other _ _ _ _ (by simp only [R.NUM_SCTL.fmt]; omega), sctlFmt_fmt, sctlFree_other _ _ _ _ (by simp only [R.NUM_SCTL.fmt]; omega)]
  · exact sctl_low n i die reg _ (by simp only [R.NUM_SCTL.mode]; omega)
  · rw [sctlMode_mode, sctlFmt_other _ _ _ _ (by simp only [R.NUM_SCTL.mode]; omega), sctlFree_other _ _ _ _ (by simp only [R.NUM_SCTL.mode]; omega)]

end

theorem sctlLow_unlogged (s : State) (n i x : Nat) : (s.sctlLow n i x).unlogged = s.unlogged := puts_unlogged ..

theorem sctlHigh_unlogged (s : State) (n i x : Nat) : (s.sctlHigh n i x).unlogged = s.unlogged := by
  have fmt (s : State) : (s.sctlFmt n i x).unlogged = s.unlogged := by unfold State.sctlFmt; split <;> rfl
  have mode (s : State) : (s.sctlMode n i x).unlogged = s.unlogged := by unfold State.sctlMode; split <;> rfl
  have all := ((mode ((s.sctlFree n i x).sctlFmt n i x)).trans (fmt (s.sctlFree n i x))).trans (puts_unlogged ..)
  rw [sctlHigh_eq]
  split
  · exact (raise_unlogged ..).trans all
  · exact all

theorem setSctl_unlogged (s : State) (n i : Nat) (v : SctlVal) : (s.setSctl n i v).unlogged = s.unlogged := by
  cases v with
  | whole v => exact (sctlHigh_unlogged ..).trans (sctlLow_unlogged ..)
  | low v => exact sctlLow_unlogged ..
  | high v => exact sctlHigh_unlogged ..

/-- The registers that a new exponent writes are all it changes. -/
theorem scaleX_keeps (s : State) (n i : Nat) : (s.scaleX n i).unlogged = s.unlogged ∧ (s.scaleX n i).log = s.log ∧
    ∀ g : Fld, g.a ≠ (R.NUM_SSTAT.x n i).a → g.a ≠ (R.NUM_SAMAX.wamax n i).a → (s.scaleX n i).get g = s.get g := by
  unfold State.scaleX
  dsimp only
  have put (t : State) (v : Nat) : (t.put (R.NUM_SSTAT.x n i) v).unlogged = t.unlogged ∧ (t.put (R.NUM_SSTAT.x n i) v).log = t.log ∧
      ∀ g : Fld, g.a ≠ (R.NUM_SSTAT.x n i).a → g.a ≠ (R.NUM_SAMAX.wamax n i).a → (t.put (R.NUM_SSTAT.x n i) v).get g = t.get g :=
    ⟨rfl, rfl, fun g other _ => State.get_put_other _ _ _ _ other⟩
  have self : s.unlogged = s.unlogged ∧ s.log = s.log ∧ ∀ g : Fld, g.a ≠ (R.NUM_SSTAT.x n i).a → g.a ≠ (R.NUM_SAMAX.wamax n i).a → s.get g = s.get g :=
    ⟨rfl, rfl, fun _ _ _ => rfl⟩
  split
  · exact put s _
  · split
    · split
      · split
        · split
          · exact put s _
          · obtain ⟨rest, log, get⟩ := put (s.put (R.NUM_SAMAX.wamax n i) _) _
            exact ⟨rest, log, fun g one two => (get g one two).trans (State.get_put_other _ _ _ _ two)⟩
        · exact self
      · exact put s _
    · exact self

/-- The fields of a scale register take their bits of the value, in the halves that are written. -/
structure SctlSet (s t : State) (n i x : Nat) (lo hi : Bool) : Prop where
  lower : t.get (R.NUM_SCTL.lower_en n i) = if hi then bits x 33 1 else s.get (R.NUM_SCTL.lower_en n i)
  sid   : t.get (R.NUM_SCTL.sid n i) = if hi then bits x 48 12 else s.get (R.NUM_SCTL.sid n i)
  pin   : t.get (R.NUM_SCTL.x_pin n i) = if hi then bits x 40 8 else s.get (R.NUM_SCTL.x_pin n i)
  h     : t.get (R.NUM_SCTL.h n i) = if lo then bits x 28 4 else s.get (R.NUM_SCTL.h n i)
  k     : t.get (R.NUM_SCTL.k n i) = if lo then bits x 24 4 else s.get (R.NUM_SCTL.k n i)
  lim   : t.get (R.NUM_SCTL.clean_lim n i) = if lo then bits x 0 16 else s.get (R.NUM_SCTL.clean_lim n i)
  fmt   : t.get (R.NUM_SCTL.fmt n i) = if (hi && (fmtMax (bits x 36 4)).isSome) then bits x 36 4 else s.get (R.NUM_SCTL.fmt n i)
  mode  : t.get (R.NUM_SCTL.mode n i) = if (hi && decide (bits x 34 2 ≠ 3)) then bits x 34 2 else s.get (R.NUM_SCTL.mode n i)
  log   : hi = true → (fmtMax (bits x 36 4) = none ∨ bits x 34 2 = 3) → (t.log.head?.map LogEntry.code) = some E.CFG_RANGE

theorem sctlHigh_log {s : State} {n i x : Nat} (bad : fmtMax (bits x 36 4) = none ∨ bits x 34 2 = 3) :
    ((s.sctlHigh n i x).log.head?.map LogEntry.code) = some E.CFG_RANGE := by
  rw [sctlHigh_eq, if_pos (bad.imp_left fun none_ => by rw [none_]; rfl)]
  exact log_code_of_raise

section
variable (s : State) {n i : Nat} (die : n < 24) (reg : i < 256)
include die reg

omit die reg in
theorem sctlSet_low (x : Nat) : SctlSet s (s.sctlLow n i x) n i x true false := by
  obtain ⟨h, k, lim⟩ := sctlLow_fields s n i x
  refine ⟨?_, ?_, ?_, h, k, lim, ?_, ?_, fun off => absurd off Bool.false_ne_true⟩ <;>
    refine (sctlLow_other s n i x ?_).trans rfl <;>
    simp only [R.NUM_SCTL.lower_en, R.NUM_SCTL.sid, R.NUM_SCTL.x_pin, R.NUM_SCTL.fmt, R.NUM_SCTL.mode] <;> omega

theorem sctlSet_high (x : Nat) : SctlSet s (s.sctlHigh n i x) n i x false true := by
  obtain ⟨lower, sid, pin, fmt, mode⟩ := sctlHigh_fields s n i x die reg
  refine ⟨lower, sid, pin, ?_, ?_, ?_, ?_, ?_, fun _ => sctlHigh_log⟩
  · exact sctlHigh_other s n i x (by simp only [R.NUM_SCTL.h]; omega) (by simp only [R.NUM_SCTL.h]; omega)
  · exact sctlHigh_other s n i x (by simp only [R.NUM_SCTL.k]; omega) (by simp only [R.NUM_SCTL.k]; omega)
  · exact sctlHigh_other s n i x (by simp only [R.NUM_SCTL.clean_lim]; omega) (by simp only [R.NUM_SCTL.clean_lim]; omega)
  · rw [fmt, Bool.true_and]
  · rw [mode, Bool.true_and]
    by_cases three : bits x 34 2 = 3
    · rw [if_pos three, if_neg (by simp [three])]
    · rw [if_neg three, if_pos (by simp [three])]

theorem sctlSet_whole (x : Nat) : SctlSet s ((s.sctlLow n i x).sctlHigh n i x) n i x true true := by
  obtain ⟨lower, sid, pin, h, k, lim, fmt, mode, log⟩ := sctlSet_high (s.sctlLow n i x) die reg x
  obtain ⟨hl, kl, liml⟩ := sctlLow_fields s n i x
  refine ⟨lower, sid, pin, h.trans hl, k.trans kl, lim.trans liml, fmt.trans ?_, mode.trans ?_, log⟩
  · rw [sctlLow_other s n i x (by simp only [R.NUM_SCTL.fmt]; omega)]
  · rw [sctlLow_other s n i x (by simp only [R.NUM_SCTL.mode]; omega)]

end

theorem SctlSet.scaleX {s t : State} {n i x : Nat} {lo hi : Bool} (set : SctlSet s t n i x lo hi) : SctlSet s (t.scaleX n i) n i x lo hi := by
  obtain ⟨-, log, get⟩ := scaleX_keeps t n i
  have same {f : Fld} (word : f.a % 1024 < 64) : (t.scaleX n i).get f = t.get f :=
    get f (by simp only [R.NUM_SSTAT.x]; omega) (by simp only [R.NUM_SAMAX.wamax]; omega)
  obtain ⟨lower, sid, pin, h, k, lim, fmt, mode, range⟩ := set
  exact ⟨(same (by simp only [R.NUM_SCTL.lower_en]; omega)).trans lower, (same (by simp only [R.NUM_SCTL.sid]; omega)).trans sid,
    (same (by simp only [R.NUM_SCTL.x_pin]; omega)).trans pin, (same (by simp only [R.NUM_SCTL.h]; omega)).trans h,
    (same (by simp only [R.NUM_SCTL.k]; omega)).trans k, (same (by simp only [R.NUM_SCTL.clean_lim]; omega)).trans lim,
    (same (by simp only [R.NUM_SCTL.fmt]; omega)).trans fmt, (same (by simp only [R.NUM_SCTL.mode]; omega)).trans mode, by rw [log]; exact range⟩

/-- The halves of a scale register that a value writes. -/
def sctlHalves : SctlVal → Bool × Bool
  | .whole _ => (true, true)
  | .low _ => (true, false)
  | .high _ => (false, true)

theorem sctlSet_setSctl (s : State) {n i : Nat} (die : n < 24) (reg : i < 256) (v : SctlVal) :
    SctlSet s (s.setSctl n i v) n i (sctlBits v) (sctlHalves v).1 (sctlHalves v).2 := by
  cases v with
  | whole v => exact sctlSet_whole s die reg _
  | low v => exact sctlSet_low s _
  | high v => exact sctlSet_high s die reg _

theorem exec_numSctlWrite {s : State} (opened : s.Open) (m : Master) (die : Fin 24) (i : BitVec 8) (v : SctlVal) : exec (.numSctlWrite m die i v) s = .next (
    if s.halfInReset (halfOfDie die.val) = true then s.raise E.LINK_HALF_DOWN none (atEntry (ldOfDie die.val)) die.val
    else if (!s.owns m 2) = true then s.ownDrop m (0x0201_0000 + 0x8_0000 * die.val + 0x80 * i.toNat)
    else if s.dieQuiet die.val = true then (s.setSctl die.val i.toNat v).scaleX die.val i.toNat
    else { s with sctlPend := KMap.put (fun _ => []) s.sctlPend (256 * die.val + i.toNat)
                    (KMap.find (fun _ => []) s.sctlPend (256 * die.val + i.toNat) ++ [v]) }) := congrArg Host.Outcome.next (gated_of_open opened _ _)

theorem ownDrop_other (s : State) (m : Master) (off : Nat) {g : Fld} (low : g.a < 8 * 0x3e00000) (apart : 8 * 0x183000 ≤ g.a) :
    (s.ownDrop m off).get g = s.get g := by
  rw [State.ownDrop, raise_get _ low, State.get_count_other _ _ _ _ (by simp only [R.OWN_LOG.count]; omega), puts_get_other s]
  simp only [List.forall_mem_cons, R.OWN_LOG.master, R.OWN_LOG.offset]
  exact ⟨by omega, by omega, by simp⟩

theorem ownDrop_unlogged (s : State) (m : Master) (off : Nat) : (s.ownDrop m off).unlogged = s.unlogged :=
  (raise_unlogged ..).trans ((count_unlogged ..).trans (puts_unlogged ..))

section
variable {s : State} {m : Master} {die : Fin 24} {i : BitVec 8} {v : SctlVal} (opened : s.Open) (home : s.halfInReset (halfOfDie die.val) = false)
include opened home

theorem numSctlWrite_quiet (owner : s.owns m 2 = true) (quiet : s.dieQuiet die.val = true) : ∃ t, exec (.numSctlWrite m die i v) s = .next t ∧ SameMem s t ∧
    t.seqs = s.seqs ∧ SctlSet s t die.val i.toNat (sctlBits v) (sctlHalves v).1 (sctlHalves v).2 := by
  have rest := (scaleX_keeps (s.setSctl die.val i.toNat v) die.val i.toNat).1.trans (setSctl_unlogged ..)
  refine ⟨_, (exec_numSctlWrite opened m die i v).trans (congrArg _ ((if_neg (by rw [home]; exact Bool.false_ne_true)).trans
    ((if_neg (by rw [owner]; exact Bool.false_ne_true)).trans (if_pos quiet)))), sameMem_of_unlogged rest, seqs_of_unlogged rest,
    (sctlSet_setSctl s die.isLt i.isLt v).scaleX⟩

theorem exec_numSctlWrite_busy (owner : s.owns m 2 = true) (busy : s.dieQuiet die.val = false) : exec (.numSctlWrite m die i v) s = .next
    { s with sctlPend := KMap.put (fun _ => []) s.sctlPend (256 * die.val + i.toNat)
               (KMap.find (fun _ => []) s.sctlPend (256 * die.val + i.toNat) ++ [v]) } :=
  (exec_numSctlWrite opened m die i v).trans (congrArg _ ((if_neg (by rw [home]; exact Bool.false_ne_true)).trans
    ((if_neg (by rw [owner]; exact Bool.false_ne_true)).trans (if_neg (by rw [busy]; exact Bool.false_ne_true)))))

theorem exec_numSctlWrite_other (other : s.owns m 2 = false) : exec (.numSctlWrite m die i v) s =
    .next (s.ownDrop m (0x0201_0000 + 0x8_0000 * die.val + 0x80 * i.toNat)) :=
  (exec_numSctlWrite opened m die i v).trans (congrArg _ ((if_neg (by rw [home]; exact Bool.false_ne_true)).trans (if_pos (by rw [other]; rfl))))

end

theorem numCmdClear_clause {s : State} (opened : s.Open) (c : Fin 64) : ∃ t, exec (.numCmdClear c) s = .next t ∧ t.get (R.NUM_SKIP.ovr c.val) = 0 ∧
    t.get (R.NUM_SKIP.count c.val) = 0 ∧ t.get (R.NUM_SKLAST.step c.val) = 0 ∧ t.get (R.NUM_SKLAST.cause c.val) = 0 ∧ { t with regs := s.regs } = s := by
  have nodup : ([(R.NUM_SKIP.ovr c.val, 0), (R.NUM_SKIP.count c.val, 0), (R.NUM_SKLAST.step c.val, 0), (R.NUM_SKLAST.cause c.val, 0)].map
      fun p => p.1.a).Nodup := by
    simp only [List.map_cons, List.map_nil, List.nodup_cons, List.mem_cons, List.not_mem_nil, or_false, not_or, not_false_eq_true, List.nodup_nil, and_true,
      R.NUM_SKIP.ovr, R.NUM_SKIP.count, R.NUM_SKLAST.step, R.NUM_SKLAST.cause]
    omega
  have zero {f : Fld} (mem : (f, 0) ∈ [(R.NUM_SKIP.ovr c.val, 0), (R.NUM_SKIP.count c.val, 0), (R.NUM_SKLAST.step c.val, 0), (R.NUM_SKLAST.cause c.val, 0)]) :=
    (puts_get_of_nodup s nodup mem).trans (Nat.zero_mod _)
  simp only [List.mem_cons, Prod.mk.injEq, and_true] at zero
  exact ⟨_, congrArg Host.Outcome.next (gated_of_open opened _ _), zero (.inl rfl), zero (.inr (.inl rfl)),
    zero (.inr (.inr (.inl rfl))), zero (.inr (.inr (.inr (.inl rfl)))), puts_rest ..⟩

/-- Settles O33: the chain goes on or its verdict is delivered, and nothing on the way of a delivery touches what the verdict is read from. -/
theorem stepVerdict : Obligations.StepVerdict := by
  unfold Obligations.StepVerdict
  refine fun s c => ⟨fun idle active ended free module last => verdictPoint_alone idle active ended free module last, ?_, fun early => ?_,
    fun idle active ended => ⟨fun holds => ?_, fun free waits => verdictPoint_waits idle active ended free waits⟩, ?_, ?_, ?_, fun opened => ⟨?_, ?_⟩,
    fun m die i v => ⟨fun opened down => ?_, fun opened home => ⟨fun owner quiet => ?_, fun owner busy => ?_, fun other => ?_⟩⟩⟩
  · rintro ⟨k, mem, unended⟩
    refine exec_verdictPoint_early ?_
    rw [Bool.or_eq_true, Bool.not_eq_true', List.all_eq_false]
    exact .inr ⟨k, mem, by rw [unended]; exact Bool.false_ne_true⟩
  · refine exec_verdictPoint_early ?_
    rw [Bool.or_eq_true, Bool.or_eq_true, List.isEmpty_iff]
    exact .inl (early.imp_left flag_eq_true)
  · obtain ⟨mem, jobs, wait⟩ := waits_put (s.activeStages c.val) s
    exact ⟨_, exec_verdictPoint_holds idle active ended holds, mem, jobs, fun k on => wait k (.inl on)⟩
  · rintro h cause amax rfl mine point
    exact verdictChainMsg_early mine cause amax point
  · rintro h cause amax rfl mine point module
    exact ⟨fun more => verdictChainMsg_on mine cause amax point module more, fun last small => verdictChainMsg_last mine cause amax point module last small⟩
  · rintro h skip cause amax rfl mine
    exact verdictBroadcastMsg_clause mine skip cause amax
  · exact ⟨_, congrArg Host.Outcome.next (gated_of_open opened _ _), congrArg Job.forced ((modJob_job ..).trans (if_pos rfl)), rfl,
      sameMem_of_eq rfl rfl rfl rfl, rfl⟩
  · exact numCmdClear_clause opened c
  · exact (exec_numSctlWrite opened m die i v).trans (congrArg _ (if_pos down))
  · obtain ⟨t, run, mem, seqs, lower, sid, pin, h, k, lim, fmt, mode, log⟩ := numSctlWrite_quiet (i := i) (v := v) opened home owner quiet
    refine ⟨t, run, mem, seqs, ?_⟩
    cases v <;> exact ⟨lower, sid, pin, h, k, lim, fmt, mode, log⟩
  · exact ⟨_, exec_numSctlWrite_busy opened home owner busy, rfl, sameMem_of_eq rfl rfl rfl rfl, (KMap.find_put ..).trans (if_pos rfl)⟩
  · refine ⟨_, exec_numSctlWrite_other opened home other, ?_, ownDrop_sameMem .., ownDrop_other s m _ ?_ ?_, log_code_of_raise⟩
    · exact (congrArg State.sctlPend (ownDrop_unlogged s m _) :)
    · have := die.isLt
      have := i.isLt
      simp only [R.NUM_SCTL.mode]
      omega
    · simp only [R.NUM_SCTL.mode]
      omega

end Sys2Proof.Machine

namespace Sys2Proof.Machine

-- One proof at a time: threads that wait for each other hold memory.
set_option Elab.async false

/-! ## The links of a cage (R398, R399) -/

/-- A field that neither a flume's status nor the log's registers are. -/
def Unheld (g : Fld) : Prop := g.a < 8 * 0x3080000 ∨ 8 * 0x30a0000 ≤ g.a

theorem setLock_get (s : State) {k : Nat} {on : Bool} {g : Fld} (apart : g.a ≠ (R.CAGE_STAT.lock (k / 2)).a) : (s.setLock k on).get g = s.get g :=
  State.get_put_other _ _ _ _ apart

theorem setLock_lock (s : State) (k : Nat) : (s.setLock k false).get (R.CAGE_STAT.lock (k / 2)) =
    setBits (s.get (R.CAGE_STAT.lock (k / 2))) (k % 2) 1 0 % 4 := State.get_put_same ..

theorem setLock_unlinkedAll (s : State) (k : Nat) (on : Bool) : (s.setLock k on).unlinkedAll = s.unlinkedAll := put_unlinkedAll ..

theorem skwMode_of_get {s t : State} {k : Nat} (same : t.get (R.CAGE_CTL.mode (k / 2)) = s.get (R.CAGE_CTL.mode (k / 2))) : t.skwMode k = s.skwMode k := by
  unfold State.skwMode
  dsimp only
  rw [same]

/-- What the restart of a link leaves. -/
structure Restarted (s t : State) (k : Nat) : Prop where
  rest  : t.unlinkedAll = s.unlinkedAll
  state : t.get (R.SKW_LINK.state k) = if s.skwMode k = true then 1 else 0
  regs  : ∀ g : Fld, Unheld g → g.a ≠ (R.SKW_LINK.state k).a → g.a ≠ (R.CAGE_STAT.lock (k / 2)).a → t.get g = s.get g

theorem restarted_linkRestart (s : State) (k : Nat) : Restarted s (s.linkRestart k) k := by
  obtain ⟨rest, -, state, regs⟩ := dropped_skwDrop s k 0
  have locked {g : Fld} (held : Unheld g) (one : g.a ≠ (R.SKW_LINK.state k).a) (two : g.a ≠ (R.CAGE_STAT.lock (k / 2)).a) :
      ((s.skwDrop k 0).setLock k false).get g = s.get g := (setLock_get _ two).trans (regs g held one)
  have down : ((s.skwDrop k 0).setLock k false).get (R.SKW_LINK.state k) = 0 :=
    (setLock_get _ (by simp only [R.SKW_LINK.state, R.CAGE_STAT.lock]; omega)).trans state
  have mode : ((s.skwDrop k 0).setLock k false).skwMode k = s.skwMode k := by
    refine skwMode_of_get (locked (.inr ?_) ?_ ?_) <;> simp only [R.CAGE_CTL.mode, R.SKW_LINK.state, R.CAGE_STAT.lock] <;> omega
  have all : ((s.skwDrop k 0).setLock k false).unlinkedAll = s.unlinkedAll := (setLock_unlinkedAll ..).trans rest
  have start : s.linkRestart k = if s.skwMode k = true then ((s.skwDrop k 0).setLock k false).put (R.SKW_LINK.state k) 1
      else (s.skwDrop k 0).setLock k false := by rw [← mode]; rfl
  rw [start]
  generalize (s.skwDrop k 0).setLock k false = u at *
  by_cases on : s.skwMode k = true
  · rw [if_pos on]
    exact ⟨(put_unlinkedAll ..).trans all, (State.get_put_same ..).trans (if_pos on).symm,
      fun g held one two => (State.get_put_other _ _ _ _ one).trans (locked held one two)⟩
  · rw [if_neg on]
    exact ⟨all, down.trans (if_neg on).symm, fun g => locked⟩

/-- What the loss of a link's lock leaves. -/
structure LockLost (s t : State) (k : Nat) : Prop where
  rest  : t.unlinkedAll = s.unlinkedAll
  state : s.skwMode k = true → t.get (R.SKW_LINK.state k) =
    if s.get (R.SKW_LINK.state k) = 2 ∨ s.get (R.SKW_LINK.state k) = 3 then 4 else s.get (R.SKW_LINK.state k)
  lock  : t.get (R.CAGE_STAT.lock (k / 2)) = setBits (s.get (R.CAGE_STAT.lock (k / 2))) (k % 2) 1 0 % 4
  regs  : ∀ g : Fld, Unheld g → g.a ≠ (R.SKW_LINK.state k).a → g.a ≠ (R.SKW_LINK.recov k).a → g.a ≠ (R.CAGE_STAT.lock (k / 2)).a → t.get g = s.get g

theorem lockLost_loseLock (s : State) (k : Nat) : LockLost s (s.loseLock k) k := by
  have get {g : Fld} (apart : g.a ≠ (R.CAGE_STAT.lock (k / 2)).a) := setLock_get s (k := k) (on := false) apart
  have lock := setLock_lock s k
  have all := setLock_unlinkedAll s k false
  have mode : (s.setLock k false).skwMode k = s.skwMode k := skwMode_of_get (get (by simp only [R.CAGE_CTL.mode, R.CAGE_STAT.lock]; omega))
  have lose : s.loseLock k = if s.skwMode k = true ∧ (s.get (R.SKW_LINK.state k) = 2 ∨ s.get (R.SKW_LINK.state k) = 3) then (s.setLock k false).skwRecover k
      else s.setLock k false := by rw [← mode]; rfl
  rw [lose]
  generalize s.setLock k false = u at *
  split
  · next goes =>
    obtain ⟨rest, -, state, regs⟩ := dropped_skwDrop u k 4
    have kept {g : Fld} (recov : g.a ≠ (R.SKW_LINK.recov k).a) : (u.skwRecover k).get g = (u.skwDrop k 4).get g := State.get_count_other _ _ _ _ recov
    refine ⟨((count_unlinkedAll ..).trans rest).trans all, fun _ => ?_, ?_, fun g held one two three => ?_⟩
    · rw [if_pos goes.2, kept (by simp only [R.SKW_LINK.state, R.SKW_LINK.recov]; omega), state]
    · rw [kept (by simp only [R.CAGE_STAT.lock, R.SKW_LINK.recov]; omega), regs _ (.inr (by simp only [R.CAGE_STAT.lock]; omega))
        (by simp only [R.CAGE_STAT.lock, R.SKW_LINK.state]; omega), lock]
    · rw [kept two, regs g held one, get three]
  · next stays =>
    refine ⟨all, fun on => ?_, lock, fun g _ _ _ three => get three⟩
    rw [if_neg fun is => stays ⟨on, is⟩]
    exact get (by simp only [R.SKW_LINK.state, R.CAGE_STAT.lock]; omega)

/-! ### The sources behind a cage -/

/-- What is left of a state beside what new connections of its sources change. -/
def State.unsourced (s : State) : State := { s with regs := [], out := [], ethRate := [], ethPause := [], ethHeld := [] }

theorem emitSrc_unsourced (s : State) (i : Nat) (o : Out) : (s.emitSrc i o).unsourced = s.unsourced := by
  unfold State.emitSrc
  dsimp only
  split <;> rfl

theorem emitSrc_regs (s : State) (i : Nat) (o : Out) : (s.emitSrc i o).regs = s.regs := by
  unfold State.emitSrc
  dsimp only
  split <;> rfl

theorem connect_unsourced (s : State) (i : Nat) : (s.connect i).unsourced = s.unsourced :=
  (foldl_keeps State.unsourced _ (fun s o => emitSrc_unsourced s i o) _ _).trans rfl

theorem connect_get (s : State) {i : Nat} {g : Fld} (apart : g.a ≠ (R.HAUL_SSTAT.state i).a) : (s.connect i).get g = s.get g :=
  (get_congr (foldl_keeps State.regs _ (fun s o => emitSrc_regs s i o) _ _) g).trans ((get_congr rfl g).trans (State.get_put_other _ _ _ _ apart))

theorem cageSources_unsourced (s : State) (n : Nat) : (s.cageSources n).unsourced = s.unsourced := by
  refine (foldl_keeps State.unsourced _ (fun s i => ?_) _ _).trans rfl
  split
  · exact connect_unsourced ..
  · rfl

/-- Registers above those of the sources stay. -/
theorem cageSources_get (s : State) (n : Nat) {g : Fld} (high : 8 * 0x3b00000 ≤ g.a) : (s.cageSources n).get g = s.get g := by
  unfold State.cageSources
  have all : ∀ (l : List Nat), (∀ i ∈ l, i < 64) → ∀ s : State, (l.foldl (fun s i =>
      if s.flag (R.HAUL_SRC.en i) ∧ s.get (R.HAUL_SRC.cage i) = n ∧ s.get (R.HAUL_SSTAT.state i) = 2 then s.connect i else s) s).get g = s.get g := by
    intro l
    induction l with
    | nil => exact fun _ _ => rfl
    | cons i l ih =>
      intro small s
      have lt := small i List.mem_cons_self
      rw [List.foldl_cons, ih fun j mem => small j (List.mem_cons_of_mem i mem)]
      split
      · exact connect_get s (by simp only [R.HAUL_SSTAT.state]; omega)
      · rfl
  exact (all _ (fun i mem => List.mem_range.1 mem) _).trans (get_congr rfl g)

/-- Memory and the sequencers, which links and sources leave alone. -/
theorem still_of_unsourced {s t : State} (same : t.unsourced = s.unsourced) : SameMem s t ∧ t.seqs = s.seqs :=
  ⟨sameMem_of_eq (congrArg State.mem same :) (congrArg State.bad same :) (congrArg State.plist same :) (congrArg State.linkErr same :), (congrArg State.seqs same :)⟩


/-! ## The commit of a cage's mode (R398) -/

/-- The result of a cage's commit. -/
def State.cageResult (s : State) (n r : Nat) : State := s.puts [(R.CAGE_CSTAT.result, r), (R.CAGE_CSTAT.cage, n)]

/-- The links of a cage restarted with the mode that was staged. -/
def State.cageRestarted (s : State) (n : Nat) : State := ((s.commit [R.CAGE_CTL.mode n]).linkRestart (2 * n)).linkRestart (2 * n + 1)

theorem cageResult_fields (s : State) (n r : Nat) (cage : n < 16) (small : r < 4) :
    (s.cageResult n r).get R.CAGE_CSTAT.result = r ∧ (s.cageResult n r).get R.CAGE_CSTAT.cage = n := by
  obtain ⟨result, place⟩ := puts_two s (f := R.CAGE_CSTAT.result) (g := R.CAGE_CSTAT.cage) r n (by decide)
  exact ⟨result.trans (Nat.mod_eq_of_lt small), place.trans (Nat.mod_eq_of_lt cage)⟩

theorem cageResult_other (s : State) (n r : Nat) {g : Fld} (one : g.a ≠ R.CAGE_CSTAT.result.a) (two : g.a ≠ R.CAGE_CSTAT.cage.a) :
    (s.cageResult n r).get g = s.get g := puts_get_other s (by simp [one, two])

theorem cageResult_log (s : State) (n r : Nat) : (s.cageResult n r).log = s.log := puts_log ..

theorem cageFitted_lt {s : State} {n : Nat} (fitted : s.cageFitted n = true) : n < 12 := of_decide_eq_true (Bool.and_eq_true_iff.1 fitted).1

section
variable {s : State} {n : Fin 16} (opened : s.Open) (busy : s.get R.CAGE_CSTAT.busy = 0)
include opened busy

theorem exec_cageCommit : exec (.cageCommit n) s = .next (
    if s.cageFitted n.val = false then (s.raise E.CFG_ABSENT none (atEdge (n.val / 2)) n.val).cageResult n.val 3
    else if s.halfInReset (n.val / 6) = true then s.raise E.LINK_HALF_DOWN none (atEntry (ldOfEdge (n.val / 2))) n.val
    else if 4 < s.sget (R.CAGE_CTL.mode n.val) ∨ (s.sget (R.CAGE_CTL.mode n.val) ≠ s.get (R.CAGE_CTL.mode n.val) ∧ s.cageUsed n.val = true) then
      (s.raise E.CFG_COMMIT none (atEdge (n.val / 2)) n.val).cageResult n.val 2
    else (((s.cageRestarted n.val).cageSources n.val).cageResult n.val 1).holdDomains) :=
  congrArg Host.Outcome.next ((gated_of_open opened _ _).trans (if_neg (by rw [flag_eq_false busy]; exact Bool.false_ne_true)))

end

/-- A raised error and its result change only the log and the result. -/
theorem raised_cageResult (s : State) {n r code : Nat} (cage : n < 16) (small : r < 4) (ctx : Option Nat) (w : Where) (detail : Nat) :
    ((s.raise code ctx w detail).cageResult n r).get (R.CAGE_CTL.mode n) = s.get (R.CAGE_CTL.mode n) ∧
      ((s.raise code ctx w detail).cageResult n r).get R.CAGE_CSTAT.result = r ∧
      (((s.raise code ctx w detail).cageResult n r).log.head?.map LogEntry.code) = some code := by
  refine ⟨?_, (cageResult_fields _ n r cage small).1, ?_⟩
  · rw [cageResult_other _ _ _ (by simp only [R.CAGE_CTL.mode, R.CAGE_CSTAT.result]; omega) (by simp only [R.CAGE_CTL.mode, R.CAGE_CSTAT.cage]; omega),
      raise_get _ (by simp only [R.CAGE_CTL.mode]; omega)]
  · rw [cageResult_log]
    exact log_code_of_raise

/-- The modes in which a link of a cage carries Skidway. -/
theorem skwMode_eq {s : State} {n m b : Nat} (cage : n < 12) (half : b < 2) (mode : s.get (R.CAGE_CTL.mode n) = m) :
    s.skwMode (2 * n + b) = true ↔ m = 2 ∨ m = 1 ∧ b = 0 := by
  have place : (2 * n + b) / 2 = n := by omega
  unfold State.skwMode
  dsimp only
  rw [place, mode]
  simp only [Bool.and_eq_true, Bool.or_eq_true, decide_eq_true_iff]
  omega

theorem still_of_uncommitted {s t : State} (same : t.uncommitted = s.uncommitted) : SameMem s t ∧ t.seqs = s.seqs :=
  ⟨sameMem_of_eq (congrArg State.mem same :) (congrArg State.bad same :) (congrArg State.plist same :) (congrArg State.linkErr same :), (congrArg State.seqs same :)⟩

theorem holdDomains_seqs (s : State) : s.holdDomains.seqs = s.seqs := by
  obtain ⟨x, y, eq⟩ := holdDomains_eq s
  rw [eq]
  rfl

/-- What the restart of a cage's links leaves. -/
theorem cageRestarted_fields (s : State) {n : Nat} (cage : n < 12) :
    (s.cageRestarted n).get (R.CAGE_CTL.mode n) = s.sget (R.CAGE_CTL.mode n) ∧
      (s.cageRestarted n).get (R.SKW_LINK.state (2 * n)) = (if s.sget (R.CAGE_CTL.mode n) = 1 ∨ s.sget (R.CAGE_CTL.mode n) = 2 then 1 else 0) ∧
      (s.cageRestarted n).get (R.SKW_LINK.state (2 * n + 1)) = (if s.sget (R.CAGE_CTL.mode n) = 2 then 1 else 0) ∧
      SameMem s (s.cageRestarted n) ∧ (s.cageRestarted n).seqs = s.seqs := by
  have mode : (s.commit [R.CAGE_CTL.mode n]).get (R.CAGE_CTL.mode n) = s.sget (R.CAGE_CTL.mode n) :=
    commit_get s (fun f hf g hg _ => (List.mem_singleton.1 hf).trans (List.mem_singleton.1 hg).symm) List.mem_cons_self
  obtain ⟨memC, seqsC⟩ := still_of_uncommitted (commit_uncommitted s [R.CAGE_CTL.mode n])
  unfold State.cageRestarted
  generalize s.commit [R.CAGE_CTL.mode n] = u at *
  generalize s.sget (R.CAGE_CTL.mode n) = m at *
  obtain ⟨rest1, state1, regs1⟩ := restarted_linkRestart u (2 * n)
  generalize u.linkRestart (2 * n) = v at *
  obtain ⟨rest2, state2, regs2⟩ := restarted_linkRestart v (2 * n + 1)
  obtain ⟨mem, seqs⟩ := rest_of_unlinkedAll (rest2.trans rest1)
  have mode1 : v.get (R.CAGE_CTL.mode n) = m := by
    rw [regs1 _ (.inr (by simp only [R.CAGE_CTL.mode]; omega)) (by simp only [R.CAGE_CTL.mode, R.SKW_LINK.state]; omega)
      (by simp only [R.CAGE_CTL.mode, R.CAGE_STAT.lock]; omega), mode]
  refine ⟨?_, ?_, ?_, memC.trans mem, seqs.trans seqsC⟩
  · rw [regs2 _ (.inr (by simp only [R.CAGE_CTL.mode]; omega)) (by simp only [R.CAGE_CTL.mode, R.SKW_LINK.state]; omega)
      (by simp only [R.CAGE_CTL.mode, R.CAGE_STAT.lock]; omega), mode1]
  · rw [regs2 _ (.inr (by simp only [R.SKW_LINK.state]; omega)) (by simp only [R.SKW_LINK.state]; omega)
      (by simp only [R.CAGE_STAT.lock, R.SKW_LINK.state]; omega), state1]
    have on := skwMode_eq (b := 0) cage (by decide) mode
    rw [Nat.add_zero] at on
    simp only [on, and_true, or_comm]
  · have on := skwMode_eq (b := 1) cage (by decide) mode1
    rw [state2]
    simp only [on, one_ne_zero, and_false, or_false]

theorem cageCommit_done {s : State} {n : Fin 16} (opened : s.Open) (busy : s.get R.CAGE_CSTAT.busy = 0) (fitted : s.cageFitted n.val = true)
    (home : s.halfInReset (n.val / 6) = false) (small : s.sget (R.CAGE_CTL.mode n.val) ≤ 4)
    (free : s.sget (R.CAGE_CTL.mode n.val) = s.get (R.CAGE_CTL.mode n.val) ∨ s.cageUsed n.val = false) : ∃ t,
      exec (.cageCommit n) s = .next t ∧ t.get (R.CAGE_CTL.mode n.val) = s.sget (R.CAGE_CTL.mode n.val) ∧ t.get R.CAGE_CSTAT.result = 1 ∧
      t.get R.CAGE_CSTAT.cage = n.val ∧ t.get (R.SKW_LINK.state (2 * n.val)) =
        (if s.sget (R.CAGE_CTL.mode n.val) = 1 ∨ s.sget (R.CAGE_CTL.mode n.val) = 2 then 1 else 0) ∧
      t.get (R.SKW_LINK.state (2 * n.val + 1)) = (if s.sget (R.CAGE_CTL.mode n.val) = 2 then 1 else 0) ∧ SameMem s t ∧ t.seqs = s.seqs := by
  have cage := cageFitted_lt fitted
  have run := (exec_cageCommit (n := n) opened busy).trans (congrArg _ ((if_neg (by rw [fitted]; decide)).trans ((if_neg (by rw [home]; decide)).trans
    (if_neg (not_or.2 ⟨by omega, fun both => free.elim both.1 fun off => absurd (off.symm.trans both.2) (by decide)⟩)))))
  obtain ⟨mode, even, odd, mem, seqs⟩ := cageRestarted_fields s cage
  generalize s.cageRestarted n.val = u at *
  have sources {g : Fld} (high : 8 * 0x3b00000 ≤ g.a) := cageSources_get u n.val high
  obtain ⟨memS, seqsS⟩ := still_of_unsourced (cageSources_unsourced u n.val)
  generalize u.cageSources n.val = v at *
  obtain ⟨result, place⟩ := cageResult_fields v n.val 1 n.isLt (by decide)
  have held {g : Fld} (high : 8 * 0x3b00000 ≤ g.a) : (v.cageResult n.val 1).holdDomains.get g = (v.cageResult n.val 1).get g :=
    holdDomains_get _ (by simp only [R.PWR_PD.on]; omega)
  have kept {g : Fld} (high : 8 * 0x3b00000 ≤ g.a) (one : g.a ≠ R.CAGE_CSTAT.result.a) (two : g.a ≠ R.CAGE_CSTAT.cage.a) :
      (v.cageResult n.val 1).holdDomains.get g = u.get g := (held high).trans ((cageResult_other v _ _ one two).trans (sources high))
  refine ⟨_, run, ?_, (held (by decide)).trans result, (held (by decide)).trans place, ?_, ?_, ?_, ?_⟩
  · rw [kept, mode] <;> simp only [R.CAGE_CTL.mode, R.CAGE_CSTAT.result, R.CAGE_CSTAT.cage] <;> omega
  · rw [kept, even] <;> simp only [R.SKW_LINK.state, R.CAGE_CSTAT.result, R.CAGE_CSTAT.cage] <;> omega
  · rw [kept, odd] <;> simp only [R.SKW_LINK.state, R.CAGE_CSTAT.result, R.CAGE_CSTAT.cage] <;> omega
  · exact ((mem.trans memS).trans (sameMem_of_unlogged (puts_unlogged ..))).trans (holdDomains_sameMem _)
  · exact (holdDomains_seqs _).trans ((seqs_of_unlogged (puts_unlogged ..)).trans (seqsS.trans seqs))

/-! ## A module that goes (R399) -/

/-- The cage without a module. -/
def State.cageEmptied (s : State) (n : Nat) : State :=
  (((s.put (R.CAGE_STAT.present n) 0).loseLock (2 * n)).loseLock (2 * n + 1)).cageSources n

theorem locks_cleared (v : Nat) (small : v < 4) : setBits (setBits v 0 1 0 % 4) 1 1 0 % 4 = 0 := by
  interval_cases v <;> decide

/-- What a module that goes leaves. -/
theorem cageEmptied_fields (s : State) {n : Nat} (cage : n < 12) : (s.cageEmptied n).get (R.CAGE_STAT.present n) = 0 ∧
    (s.cageEmptied n).get (R.CAGE_STAT.lock n) = 0 ∧ SameMem s (s.cageEmptied n) ∧ (s.cageEmptied n).seqs = s.seqs ∧
      ∀ k, k / 2 = n → s.skwMode k = true → (s.cageEmptied n).get (R.SKW_LINK.state k) =
        if s.get (R.SKW_LINK.state k) = 2 ∨ s.get (R.SKW_LINK.state k) = 3 then 4 else s.get (R.SKW_LINK.state k) := by
  have present : (s.put (R.CAGE_STAT.present n) 0).get (R.CAGE_STAT.present n) = 0 := State.get_put_same ..
  have put {g : Fld} (apart : g.a ≠ (R.CAGE_STAT.present n).a) : (s.put (R.CAGE_STAT.present n) 0).get g = s.get g := State.get_put_other _ _ _ _ apart
  have all : (s.put (R.CAGE_STAT.present n) 0).unlinkedAll = s.unlinkedAll := put_unlinkedAll ..
  unfold State.cageEmptied
  generalize s.put (R.CAGE_STAT.present n) 0 = a at *
  obtain ⟨rest1, state1, lock1, regs1⟩ := lockLost_loseLock a (2 * n)
  generalize a.loseLock (2 * n) = b at *
  obtain ⟨rest2, state2, lock2, regs2⟩ := lockLost_loseLock b (2 * n + 1)
  generalize b.loseLock (2 * n + 1) = c at *
  have even : 2 * n / 2 = n := by omega
  have odd : (2 * n + 1) / 2 = n := by omega
  rw [even, Nat.mul_mod_right] at lock1
  rw [odd, Nat.mul_add_mod] at lock2
  rw [even] at regs1
  rw [odd] at regs2
  have sources {g : Fld} (high : 8 * 0x3b00000 ≤ g.a) := cageSources_get c n high
  obtain ⟨mem, seqs⟩ := rest_of_unlinkedAll (rest2.trans (rest1.trans all))
  obtain ⟨memS, seqsS⟩ := still_of_unsourced (cageSources_unsourced c n)
  refine ⟨?_, ?_, mem.trans memS, seqsS.trans seqs, fun k in_ on => ?_⟩
  · rw [sources, regs2, regs1, present] <;>
      simp only [Unheld, R.CAGE_STAT.present, R.CAGE_STAT.lock, R.SKW_LINK.state, R.SKW_LINK.recov] <;> omega
  · rw [sources (by simp only [R.CAGE_STAT.lock]; omega), lock2, lock1]
    exact locks_cleared _ (State.get_lt ..)
  · have mode (j : Nat) : a.skwMode j = s.skwMode j := skwMode_of_get (put (by simp only [R.CAGE_CTL.mode, R.CAGE_STAT.present]; omega))
    have modeB (j : Nat) : b.skwMode j = a.skwMode j := by
      refine skwMode_of_get (regs1 _ (.inr ?_) ?_ ?_ ?_) <;>
        simp only [R.CAGE_CTL.mode, R.SKW_LINK.state, R.SKW_LINK.recov, R.CAGE_STAT.lock] <;> omega
    rw [sources (by simp only [R.SKW_LINK.state]; omega)]
    obtain rfl | rfl : k = 2 * n ∨ k = 2 * n + 1 := by omega
    · rw [regs2, state1 ((mode _).trans on), put] <;>
        simp only [Unheld, R.CAGE_STAT.present, R.CAGE_STAT.lock, R.SKW_LINK.state, R.SKW_LINK.recov] <;> omega
    · rw [state2 ((modeB _).trans ((mode _).trans on)), regs1, put] <;>
        simp only [Unheld, R.CAGE_STAT.present, R.CAGE_STAT.lock, R.SKW_LINK.state, R.SKW_LINK.recov] <;> omega


theorem exec_cagePresence {s : State} {n : Fin 12} (fitted : s.cageFitted n.val = true) (present : Bool) : exec (.cagePresenceChange n present) s = .next (
    if present = true then s.put (R.CAGE_STAT.present n.val) (b2n present)
    else (((s.put (R.CAGE_STAT.present n.val) (b2n present)).loseLock (2 * n.val)).loseLock (2 * n.val + 1)).cageSources n.val) :=
  congrArg Host.Outcome.next (if_neg (by rw [fitted]; decide))

theorem cage_unfitted {s : State} {n : Fin 12} (absent : s.cageFitted n.val = false) :
    exec (.cageModuleOverpower n) s = .next s ∧ ∀ b, exec (.cagePresenceChange n b) s = .next s :=
  ⟨congrArg Host.Outcome.next (if_pos (.inl absent)), fun _ => congrArg Host.Outcome.next (if_pos absent)⟩

theorem exec_cageGone {s : State} {n : Fin 12} {i : Instr} (mem : i ∈ [Instr.cagePresenceChange n false, .cageModuleOverpower n])
    (fitted : s.cageFitted n.val = true) (used : i = .cageModuleOverpower n → s.get (R.CAGE_CTL.mode n.val) ≠ 0) :
    exec i s = .next (s.cageEmptied n.val) := by
  obtain rfl | rfl : i = .cagePresenceChange n false ∨ i = .cageModuleOverpower n := by simpa using mem
  · exact exec_cagePresence fitted false
  · exact congrArg Host.Outcome.next (if_neg (not_or.2 ⟨by rw [fitted]; decide, used rfl⟩))

theorem cagePlugged {s : State} {n : Fin 12} (fitted : s.cageFitted n.val = true) : ∃ t, exec (.cagePresenceChange n true) s = .next t ∧
    t.get (R.CAGE_STAT.present n.val) = 1 ∧ SameMem s t ∧ t.get (R.CAGE_STAT.lock n.val) = s.get (R.CAGE_STAT.lock n.val) :=
  ⟨_, exec_cagePresence fitted true, State.get_put_same .., sameMem_of_eq rfl rfl rfl rfl,
    State.get_put_other _ _ _ _ (by simp only [R.CAGE_STAT.lock, R.CAGE_STAT.present]; omega)⟩

/-! ## The commits of channels and of reduction routes (R406, R409) -/

/-- The fields of a channel. -/
def chanFields (n : Nat) : List Fld := [R.SKW_CHAN.en n, R.SKW_CHAN.ctx n, R.SKW_CHAN.link n, R.SKW_CHAN.peer n]

/-- The result of a channel's commit. -/
def State.chanResult (s : State) (n r : Nat) : State := s.puts [(R.SKW_CCSTAT.result, r), (R.SKW_CCSTAT.chan, n)]

theorem chanFields_fields (n : Nat) : Fields (chanFields n) := by
  intro f hf g hg same
  simp only [chanFields, List.mem_cons, List.not_mem_nil, or_false] at hf hg
  rcases hf with rfl | rfl | rfl | rfl <;> rcases hg with rfl | rfl | rfl | rfl <;>
    simp only [R.SKW_CHAN.en, R.SKW_CHAN.ctx, R.SKW_CHAN.link, R.SKW_CHAN.peer] at same ⊢ <;> omega

theorem chanFields_place {n : Nat} (lt : n < 8192) {f : Fld} (mem : f ∈ chanFields n) : f.a < 8 * 0x3b20000 := by
  simp only [chanFields, List.mem_cons, List.not_mem_nil, or_false] at mem
  rcases mem with rfl | rfl | rfl | rfl <;> simp only [R.SKW_CHAN.en, R.SKW_CHAN.ctx, R.SKW_CHAN.link, R.SKW_CHAN.peer] <;> omega

theorem chanResult_fields (s : State) {n r : Nat} (lt : n < 8192) (small : r < 4) :
    (s.chanResult n r).get R.SKW_CCSTAT.result = r ∧ (s.chanResult n r).get R.SKW_CCSTAT.chan = n := by
  obtain ⟨result, chan⟩ := puts_two s (f := R.SKW_CCSTAT.result) (g := R.SKW_CCSTAT.chan) r n (by decide)
  exact ⟨result.trans (Nat.mod_eq_of_lt small), chan.trans (Nat.mod_eq_of_lt lt)⟩

theorem chanResult_other (s : State) (n r : Nat) {g : Fld} (low : g.a < 8 * 0x3b20000) : (s.chanResult n r).get g = s.get g := by
  refine puts_get_other s ?_
  simp only [List.forall_mem_cons, R.SKW_CCSTAT.result, R.SKW_CCSTAT.chan]
  exact ⟨by omega, by omega, by simp⟩

/-- What keeps a channel's commit from being taken. -/
def State.chanRefused (s : State) (n : Nat) : Bool :=
  s.leaving (s.sget (R.SKW_CHAN.ctx n)) || !s.skwMode (s.sget (R.SKW_CHAN.link n)) ||
    (s.flag (R.SKW_CHAN.en n) && decide (s.get (R.SKW_CHAN.ctx n) ≠ s.sget (R.SKW_CHAN.ctx n))) || (s.flumeOn n).isSome

theorem flag_iff (s : State) (f : Fld) : s.flag f = true ↔ s.get f = 1 := by
  rw [State.flag, decide_eq_true_iff]

theorem chanRefused_iff (s : State) (n : Nat) : s.chanRefused n = true ↔ ¬(s.leaving (s.sget (R.SKW_CHAN.ctx n)) = false ∧
    s.skwMode (s.sget (R.SKW_CHAN.link n)) = true ∧ (s.get (R.SKW_CHAN.en n) = 1 → s.get (R.SKW_CHAN.ctx n) = s.sget (R.SKW_CHAN.ctx n)) ∧
    s.flumeOn n = none) := by
  unfold State.chanRefused
  rw [Bool.or_eq_true, Bool.or_eq_true, Bool.or_eq_true, Bool.and_eq_true, decide_eq_true_iff, flag_iff, Bool.not_eq_true', Option.isSome_iff_ne_none]
  cases s.leaving (s.sget (R.SKW_CHAN.ctx n)) <;> cases s.skwMode (s.sget (R.SKW_CHAN.link n)) <;> simp <;> tauto

theorem exec_skwCcommit {s : State} {ch : Fin 8192} (opened : s.Open) (idle : s.get R.SKW_CCSTAT.busy = 0) : exec (.skwCcommit ch) s = .next (
    if s.sget (R.SKW_CHAN.link ch.val) < 24 ∧ s.halfInReset (s.sget (R.SKW_CHAN.link ch.val) / 12) = true then
      s.raise E.LINK_HALF_DOWN (some (s.sget (R.SKW_CHAN.ctx ch.val))) (atEntry (ldOfEdge (s.sget (R.SKW_CHAN.link ch.val) / 4))) ch.val
    else if s.chanRefused ch.val = true then
      (s.raise E.CFG_COMMIT (some (s.sget (R.SKW_CHAN.ctx ch.val))) (atLink (s.sget (R.SKW_CHAN.link ch.val))) ch.val).chanResult ch.val 2
    else (s.commit (chanFields ch.val)).chanResult ch.val 1) :=
  congrArg Host.Outcome.next ((gated_of_open opened _ _).trans (if_neg (by rw [flag_eq_false idle]; exact Bool.false_ne_true)))

theorem skwCcommit_clause {s : State} (opened : s.Open) (ch : Fin 8192) (idle : s.get R.SKW_CCSTAT.busy = 0) : ∃ t, exec (.skwCcommit ch) s = .next t ∧
    SameMem s t ∧
    (s.sget (R.SKW_CHAN.link ch.val) < 24 ∧ s.halfInReset (s.sget (R.SKW_CHAN.link ch.val) / 12) = true →
      (∀ f ∈ chanFields ch.val, t.get f = s.get f) ∧ t.get R.SKW_CCSTAT.result = s.get R.SKW_CCSTAT.result ∧
        (t.log.head?.map LogEntry.code) = some E.LINK_HALF_DOWN) ∧
    (¬(s.sget (R.SKW_CHAN.link ch.val) < 24 ∧ s.halfInReset (s.sget (R.SKW_CHAN.link ch.val) / 12) = true) → t.get R.SKW_CCSTAT.chan = ch.val) ∧
    (¬(s.sget (R.SKW_CHAN.link ch.val) < 24 ∧ s.halfInReset (s.sget (R.SKW_CHAN.link ch.val) / 12) = true) → ¬s.chanRefused ch.val = true →
      (∀ f ∈ chanFields ch.val, t.get f = s.sget f) ∧ t.get R.SKW_CCSTAT.result = 1) ∧
    (¬(s.sget (R.SKW_CHAN.link ch.val) < 24 ∧ s.halfInReset (s.sget (R.SKW_CHAN.link ch.val) / 12) = true) → s.chanRefused ch.val = true →
      (∀ f ∈ chanFields ch.val, t.get f = s.get f) ∧ t.get R.SKW_CCSTAT.result = 2 ∧ (t.log.head?.map LogEntry.code) = some E.CFG_COMMIT) := by
  have run := exec_skwCcommit (ch := ch) opened idle
  have place {f : Fld} (mem : f ∈ chanFields ch.val) := chanFields_place ch.isLt mem
  by_cases down : s.sget (R.SKW_CHAN.link ch.val) < 24 ∧ s.halfInReset (s.sget (R.SKW_CHAN.link ch.val) / 12) = true
  · exact ⟨_, run.trans (congrArg _ (if_pos down)), sameMem_of_unlogged (raise_unlogged ..),
      fun _ => ⟨fun f mem => raise_get _ (lt_trans (place mem) (by decide)), raise_get _ (by decide), log_code_of_raise⟩, fun up => absurd down up,
      fun up => absurd down up, fun up => absurd down up⟩
  · by_cases refused : s.chanRefused ch.val = true
    · obtain ⟨result, chan⟩ := chanResult_fields (s.raise E.CFG_COMMIT (some (s.sget (R.SKW_CHAN.ctx ch.val)))
        (atLink (s.sget (R.SKW_CHAN.link ch.val))) ch.val) ch.isLt (show 2 < 4 by decide)
      refine ⟨_, run.trans (congrArg _ ((if_neg down).trans (if_pos refused))), sameMem_of_unlogged ((puts_unlogged ..).trans (raise_unlogged ..)),
        fun is => absurd is down, fun _ => chan, fun _ ok => absurd refused ok, fun _ _ => ⟨fun f mem => ?_, result, ?_⟩⟩
      · exact (chanResult_other _ _ _ (place mem)).trans (raise_get _ (lt_trans (place mem) (by decide)))
      · exact (congrArg (fun l : List LogEntry => l.head?.map LogEntry.code) (puts_log ..)).trans log_code_of_raise
    · obtain ⟨result, chan⟩ := chanResult_fields (s.commit (chanFields ch.val)) ch.isLt (show 1 < 4 by decide)
      refine ⟨_, run.trans (congrArg _ ((if_neg down).trans (if_neg refused))),
        (still_of_uncommitted (commit_uncommitted ..)).1.trans (sameMem_of_unlogged (puts_unlogged ..)), fun is => absurd is down, fun _ => chan,
        fun _ _ => ⟨fun f mem => ?_, result⟩, fun _ is => absurd is refused⟩
      exact (chanResult_other _ _ _ (place mem)).trans (commit_get s (chanFields_fields _) mem)

/-- The fields of a reduction route. -/
def redFields (n : Nat) : List Fld := [R.RED_CTL.en n, R.RED_CTL.wrap n, R.RED_CTL.prev n, R.RED_CTL.next n]

/-- The result of a reduction route's commit. -/
def State.redResult (s : State) (n r : Nat) : State := s.puts [(R.RED_CSTAT.result, r), (R.RED_CSTAT.ctx, n)]

/-- The numbers of a context's messages begin again. -/
def State.renumbered (s : State) (c : Nat) : State :=
  { s with redTx := s.redTx.filter (fun e => decide (e.1 % 64 ≠ c)), redRx := s.redRx.filter (fun e => decide (e.1 % 64 ≠ c)) }

theorem renumbered_get (s : State) (c : Nat) (g : Fld) : (s.renumbered c).get g = s.get g := get_congr rfl g

theorem renumbered_sameMem (s : State) (c : Nat) : SameMem s (s.renumbered c) := sameMem_of_eq rfl rfl rfl rfl

theorem redFields_fields (n : Nat) : Fields (redFields n) := by
  intro f hf g hg same
  simp only [redFields, List.mem_cons, List.not_mem_nil, or_false] at hf hg
  rcases hf with rfl | rfl | rfl | rfl <;> rcases hg with rfl | rfl | rfl | rfl <;>
    simp only [R.RED_CTL.en, R.RED_CTL.wrap, R.RED_CTL.prev, R.RED_CTL.next] at same ⊢ <;> omega

theorem redFields_place {n : Nat} (lt : n < 64) {f : Fld} (mem : f ∈ redFields n) : f.a < 8 * 0x3b31000 := by
  simp only [redFields, List.mem_cons, List.not_mem_nil, or_false] at mem
  rcases mem with rfl | rfl | rfl | rfl <;> simp only [R.RED_CTL.en, R.RED_CTL.wrap, R.RED_CTL.prev, R.RED_CTL.next] <;> omega

theorem redResult_fields (s : State) {n r : Nat} (lt : n < 64) (small : r < 4) :
    (s.redResult n r).get R.RED_CSTAT.result = r ∧ (s.redResult n r).get R.RED_CSTAT.ctx = n := by
  obtain ⟨result, ctx⟩ := puts_two s (f := R.RED_CSTAT.result) (g := R.RED_CSTAT.ctx) r n (by decide)
  exact ⟨result.trans (Nat.mod_eq_of_lt small), ctx.trans (Nat.mod_eq_of_lt lt)⟩

theorem redResult_other (s : State) (n r : Nat) {g : Fld} (low : g.a < 8 * 0x3b31000) : (s.redResult n r).get g = s.get g := by
  refine puts_get_other s ?_
  simp only [List.forall_mem_cons, R.RED_CSTAT.result, R.RED_CSTAT.ctx]
  exact ⟨by omega, by omega, by simp⟩

/-- What keeps a reduction route's commit from being taken. -/
def State.redRefused (s : State) (c : Nat) : Bool :=
  s.leaving c || (List.range 24).any (fun k => (s.skw k).red.any (fun m => decide (m.ctx = c))) ||
    ([s.sget (R.RED_CTL.next c), s.sget (R.RED_CTL.prev c), s.sget (R.RED_CTL.wrap c)].filter (· ≠ 31)).any
      (fun k => !s.skwMode k || decide (s.get (R.SKW_LINK.ver_min k) < 3))

theorem redRefused_iff (s : State) (c : Nat) : s.redRefused c = true ↔ ¬(s.leaving c = false ∧ (∀ k, k < 24 → ∀ m ∈ (s.skw k).red, m.ctx ≠ c) ∧
    ∀ l ∈ [s.sget (R.RED_CTL.next c), s.sget (R.RED_CTL.prev c), s.sget (R.RED_CTL.wrap c)], l ≠ 31 →
      s.skwMode l = true ∧ 3 ≤ s.get (R.SKW_LINK.ver_min l)) := by
  have flying : (List.range 24).any (fun k => (s.skw k).red.any (fun m => decide (m.ctx = c))) = false ↔ ∀ k, k < 24 → ∀ m ∈ (s.skw k).red, m.ctx ≠ c := by
    simp only [List.any_eq_false, List.mem_range, List.any_eq_true, decide_eq_true_iff, not_exists, not_and]
  have routes (ls : List Nat) : (ls.filter (· ≠ 31)).any (fun k => !s.skwMode k || decide (s.get (R.SKW_LINK.ver_min k) < 3)) = false ↔
      ∀ l ∈ ls, l ≠ 31 → s.skwMode l = true ∧ 3 ≤ s.get (R.SKW_LINK.ver_min l) := by
    simp only [List.any_eq_false, List.mem_filter, decide_eq_true_iff, Bool.or_eq_true, Bool.not_eq_true', not_or, Bool.not_eq_false, Nat.not_lt, and_imp]
  rw [← flying, ← routes, ← Bool.not_eq_false, not_iff_not]
  unfold State.redRefused
  rw [Bool.or_eq_false_iff, Bool.or_eq_false_iff, and_assoc]

theorem exec_redCommit {s : State} {c : Fin 64} (opened : s.Open) (idle : s.get R.RED_CSTAT.busy = 0) : exec (.redCommit c) s = .next (
    if s.redRefused c.val = true then (s.raise E.CFG_COMMIT (some c.val) (atSteward 0) c.val).redResult c.val 2
    else ((s.commit (redFields c.val)).renumbered c.val).redResult c.val 1) :=
  congrArg Host.Outcome.next ((gated_of_open opened _ _).trans (if_neg (by rw [flag_eq_false idle]; exact Bool.false_ne_true)))

theorem redCommit_clause {s : State} (opened : s.Open) (c : Fin 64) (idle : s.get R.RED_CSTAT.busy = 0) : ∃ t, exec (.redCommit c) s = .next t ∧
    SameMem s t ∧ t.get R.RED_CSTAT.ctx = c.val ∧
    (¬s.redRefused c.val = true → (∀ f ∈ redFields c.val, t.get f = s.sget f) ∧ t.get R.RED_CSTAT.result = 1) ∧
    (s.redRefused c.val = true → (∀ f ∈ redFields c.val, t.get f = s.get f) ∧ t.get R.RED_CSTAT.result = 2 ∧
      (t.log.head?.map LogEntry.code) = some E.CFG_COMMIT) := by
  have run := exec_redCommit (c := c) opened idle
  have place {f : Fld} (mem : f ∈ redFields c.val) := redFields_place c.isLt mem
  by_cases refused : s.redRefused c.val = true
  · obtain ⟨result, ctx⟩ := redResult_fields (s.raise E.CFG_COMMIT (some c.val) (atSteward 0) c.val) c.isLt (show 2 < 4 by decide)
    refine ⟨_, run.trans (congrArg _ (if_pos refused)), sameMem_of_unlogged ((puts_unlogged ..).trans (raise_unlogged ..)), ctx,
      fun ok => absurd refused ok, fun _ => ⟨fun f mem => ?_, result, ?_⟩⟩
    · exact (redResult_other _ _ _ (place mem)).trans (raise_get _ (lt_trans (place mem) (by decide)))
    · exact (congrArg (fun l : List LogEntry => l.head?.map LogEntry.code) (puts_log ..)).trans log_code_of_raise
  · obtain ⟨result, ctx⟩ := redResult_fields ((s.commit (redFields c.val)).renumbered c.val) c.isLt (show 1 < 4 by decide)
    have mem : SameMem s ((s.commit (redFields c.val)).renumbered c.val) :=
      (still_of_uncommitted (commit_uncommitted s (redFields c.val))).1.trans (renumbered_sameMem ..)
    refine ⟨_, run.trans (congrArg _ (if_neg refused)), mem.trans (sameMem_of_unlogged (puts_unlogged ..)), ctx,
      fun _ => ⟨fun f mem => ?_, result⟩, fun is => absurd is refused⟩
    exact (redResult_other _ _ _ (place mem)).trans ((renumbered_get ..).trans (commit_get s (redFields_fields _) mem))

/-- Settles O24: each commit is judged once and then taken or refused, and a module that goes takes its links' locks with it. -/
theorem cagesAndLinkCommits : Obligations.CagesAndLinkCommits := by
  unfold Obligations.CagesAndLinkCommits
  refine ⟨⟨fun s n opened busy => ⟨cageCommit_done opened busy, fun absent => ?_, fun fitted down => ?_, fun fitted home bad => ?_⟩,
    fun s n => ⟨cagePlugged, cage_unfitted, fun off => congrArg Host.Outcome.next (if_pos (.inr off)), fun i mem fitted used => ?_⟩⟩,
    fun s opened => ⟨fun ch idle => ?_, fun c idle => ?_⟩⟩
  · obtain ⟨mode, result, log⟩ := raised_cageResult s (n := n.val) (r := 3) (code := E.CFG_ABSENT) n.isLt (by decide) none (atEdge (n.val / 2)) n.val
    exact ⟨_, (exec_cageCommit opened busy).trans (congrArg _ (if_pos absent)), mode, result, log⟩
  · exact ⟨_, (exec_cageCommit opened busy).trans (congrArg _ ((if_neg (by rw [fitted]; decide)).trans (if_pos down))),
      raise_get _ (by simp only [R.CAGE_CTL.mode]; omega), raise_get _ (by decide), log_code_of_raise⟩
  · obtain ⟨mode, result, log⟩ := raised_cageResult s (n := n.val) (r := 2) (code := E.CFG_COMMIT) n.isLt (by decide) none (atEdge (n.val / 2)) n.val
    exact ⟨_, (exec_cageCommit opened busy).trans (congrArg _ ((if_neg (by rw [fitted]; decide)).trans ((if_neg (by rw [home]; decide)).trans
      (if_pos bad)))), mode, result, log⟩
  · exact ⟨_, exec_cageGone mem fitted used, cageEmptied_fields s n.isLt⟩
  · obtain ⟨t, run, mem, down, chan, done, refused⟩ := skwCcommit_clause opened ch idle
    rw [chanRefused_iff] at done refused
    exact ⟨t, run, mem, down, chan, fun up ok => done up (not_not.2 ok), refused⟩
  · obtain ⟨t, run, mem, ctx, done, refused⟩ := redCommit_clause opened c idle
    rw [redRefused_iff] at done refused
    exact ⟨t, run, mem, ctx, fun ok => done (not_not.2 ok), refused⟩

end Sys2Proof.Machine

namespace Sys2Proof.Machine

-- One proof at a time: threads that wait for each other hold memory.
set_option Elab.async false

/-! ## What a sequencer exception changes (R218, R220, R221) -/

/-- A field that an exception of sequencer `k` does not write. -/
structure Unexc (k : Nat) (g : Fld) : Prop where
  low    : g.a < 8 * 0x3e00000
  hold   : g.a ≠ (R.VER_HDR.gate_hold k).a
  wait   : g.a ≠ (R.SEQ_STAT.wait (k / 4) (k % 4)).a
  trap   : g.a ≠ (R.SEQ_STAT.in_trap (k / 4) (k % 4)).a
  state  : g.a ≠ (R.SEQ_STAT.state (k / 4) (k % 4)).a
  statPc : g.a ≠ (R.SEQ_STAT.pc (k / 4) (k % 4)).a
  pc     : g.a ≠ (R.SEQ_PC.pc (k / 4) (k % 4)).a
  fault  : ∀ c, c < 64 → g.a ≠ (R.CTX_FAULT.faulted c (k / 64)).a
  evt    : ∀ c, c < 64 → g.a ≠ (R.CTX_EVT.events c).a

/-- A field that holds no cause of an exception of sequencer `k`. -/
structure Uncaused (k : Nat) (g : Fld) : Prop where
  code : g.a ≠ (R.SEQ_EXC0.code (k / 4) (k % 4)).a
  slot : g.a ≠ (R.SEQ_EXC0.slot (k / 4) (k % 4)).a
  at'  : g.a ≠ (R.SEQ_EXC0.pc (k / 4) (k % 4)).a
  info : g.a ≠ (R.SEQ_EXC1.info (k / 4) (k % 4)).a

/-- What is left of a state beside what an exception changes. -/
def State.unexcepted (s : State) : State := { s with regs := [], seqs := [], pinEnd := [], log := [], out := [], pba := [] }

theorem unexcepted_of_unhalted {s t : State} (same : t.unhalted = s.unhalted) : t.unexcepted = s.unexcepted := (congrArg State.unexcepted same :)

theorem unexcepted_of_unlogged {s t : State} (same : t.unlogged = s.unlogged) : t.unexcepted = s.unexcepted := (congrArg State.unexcepted same :)

theorem sameMem_of_unexcepted {s t : State} (same : t.unexcepted = s.unexcepted) : SameMem s t :=
  sameMem_of_eq (congrArg State.mem same :) (congrArg State.bad same :) (congrArg State.plist same :) (congrArg State.linkErr same :)

/-! ### The flumes that are bound stay so -/

theorem filterMap_drop {α : Type} {f : Nat × Nat → Option α} {k : Nat} (none_ : ∀ v, f (k, v) = none) (m : KMap Nat) :
    (KMap.drop m k).filterMap f = m.filterMap f := by
  induction m with
  | nil => rfl
  | cons e m ih =>
    obtain ⟨j, w⟩ := e
    unfold KMap.drop
    split
    · next same => rw [ih, List.filterMap_cons_none (same ▸ none_ w)]
    · rw [List.filterMap_cons, List.filterMap_cons, ih]

theorem filterMap_place {α : Type} {f : Nat × Nat → Option α} {k v : Nat} (none_ : f (k, v) = none) (m : KMap Nat) :
    (KMap.place k v m).filterMap f = m.filterMap f := by
  induction m with
  | nil => exact List.filterMap_cons_none none_
  | cons e m ih =>
    obtain ⟨j, w⟩ := e
    unfold KMap.place
    split
    · exact List.filterMap_cons_none none_
    · rw [List.filterMap_cons, List.filterMap_cons, ih]

/-- A field that is not the state of a flume. -/
def NoFlumeState (g : Fld) : Prop := ∀ f, f < 8192 → g.a ≠ (R.FLM_STAT.state f).a

theorem boundFlumes_put (s : State) {g : Fld} (other : NoFlumeState g) (v : Nat) : (s.put g v).boundFlumes = s.boundFlumes := by
  have none_ (w : Nat) : (if (R.FLM_STAT.state 0).a ≤ g.a ∧ (g.a - (R.FLM_STAT.state 0).a) / 128 < 8192 ∧
      g.a = (R.FLM_STAT.state ((g.a - (R.FLM_STAT.state 0).a) / 128)).a then some ((g.a - (R.FLM_STAT.state 0).a) / 128) else none) = none :=
    if_neg fun is => other _ is.2.1 is.2.2
  unfold State.boundFlumes State.put KMap.put
  dsimp only
  split
  · exact filterMap_drop none_ s.regs
  · exact (filterMap_place (none_ 0) _).trans (filterMap_drop none_ s.regs)

theorem boundFlumes_of_regs {s t : State} (same : t.regs = s.regs) : t.boundFlumes = s.boundFlumes := by rw [State.boundFlumes, same, State.boundFlumes]

theorem boundFlumes_puts {s : State} {l : List (Fld × Nat)} (other : ∀ p ∈ l, NoFlumeState p.1) : (s.puts l).boundFlumes = s.boundFlumes := by
  unfold State.puts
  induction l generalizing s with
  | nil => rfl
  | cons p l ih =>
    rw [List.foldl_cons, ih fun q mem => other q (List.mem_cons_of_mem p mem), boundFlumes_put s (other p List.mem_cons_self)]

theorem noFlumeState_above {g : Fld} (high : 8 * 0x30a0000 ≤ g.a) : NoFlumeState g := fun f lt => by
  simp only [R.FLM_STAT.state]
  omega

theorem noFlumeState_below {g : Fld} (low : g.a < 8 * 0x3080000) : NoFlumeState g := fun f lt => by
  simp only [R.FLM_STAT.state]
  omega

theorem boundFlumes_noted (s : State) (code cls : Nat) (ctx : Option Nat) (w : Where) (detail : Nat) :
    (s.noted code cls ctx w detail).boundFlumes = s.boundFlumes := by
  have full : (if 4096 ≤ s.log.length then s.count R.RAS_LOGHD.lost 1 else s).boundFlumes = s.boundFlumes := by
    split
    · exact boundFlumes_put s (noFlumeState_above (by decide)) _
    · rfl
  have logged (u : State) (l : List LogEntry) (v : Nat) :
      ((({ u with log := l } : State).put R.RAS_LOGHD.newest v).put R.RAS_STAT.new 1).boundFlumes = u.boundFlumes :=
    (boundFlumes_put _ (noFlumeState_above (by decide)) _).trans ((boundFlumes_put _ (noFlumeState_above (by decide)) _).trans rfl)
  unfold State.noted
  dsimp only
  split
  · next f alert => exact (boundFlumes_put _ (noFlumeState_above (le_trans (by decide) (alertOf_place alert))) _).trans ((logged ..).trans full)
  · exact (logged ..).trans full

theorem boundFlumes_raise (s : State) (code : Nat) (ctx : Option Nat) (w : Where) (detail : Nat) :
    (s.raise code ctx w detail).boundFlumes = s.boundFlumes := by
  rcases logAs_cases s code (errClass code) ctx w detail with same | ⟨v, same⟩
  · exact (congrArg State.boundFlumes same).trans (boundFlumes_noted ..)
  · exact (congrArg State.boundFlumes same).trans ((boundFlumes_of_regs (vector_regs ..)).trans (boundFlumes_noted ..))

theorem boundFlumes_ctxEvent (s : State) {c : Nat} (ctx : c < 64) (b : Nat) : (s.ctxEvent c b).boundFlumes = s.boundFlumes := by
  have low : NoFlumeState (R.CTX_EVT.events c) := noFlumeState_below (by simp only [R.CTX_EVT.events]; omega)
  unfold State.ctxEvent
  dsimp only
  split
  · rfl
  · split
    · exact (boundFlumes_of_regs (vector_regs ..)).trans (boundFlumes_put _ low _)
    · exact boundFlumes_put _ low _

section
variable (s : State) {k : Nat} (key : k < 96)
include key

theorem boundFlumes_setPc (v : Nat) : (s.setPc k v).boundFlumes = s.boundFlumes := by
  refine (boundFlumes_put _ (noFlumeState_below ?_) _).trans ((boundFlumes_put _ (noFlumeState_below ?_) _).trans rfl) <;>
    simp only [R.SEQ_PC.pc, R.SEQ_STAT.pc] <;> omega

theorem boundFlumes_stopIssue : (s.stopIssue k).boundFlumes = s.boundFlumes := by
  have puts := (boundFlumes_put ((s.modSeq k (fun x => { x with staged := [], held := [], stepping := false, fetchErr := none })).put
    (R.SEQ_STAT.wait (k / 4) (k % 4)) 0) (g := R.VER_HDR.gate_hold k) (noFlumeState_above (by simp only [R.VER_HDR.gate_hold]; omega)) 0).trans
    (boundFlumes_put _ (noFlumeState_below (by simp only [R.SEQ_STAT.wait]; omega)) 0)
  exact (boundFlumes_of_regs rfl).trans (puts.trans rfl)

theorem boundFlumes_setSeqState (v : Nat) : (s.setSeqState k v).boundFlumes = s.boundFlumes := by
  have ctx := seqCtx_lt s (k / 4) (k % 4)
  unfold State.setSeqState
  refine (boundFlumes_put _ (noFlumeState_below (by simp only [R.SEQ_STAT.state]; omega)) _).trans ?_
  split
  · exact boundFlumes_put _ (noFlumeState_below (by simp only [R.CTX_FAULT.faulted]; omega)) _
  · rfl

end

/-! ### Nothing that waited behind it issues -/

/-- The sequencer once nothing of it waits. -/
def Seq.stopped (x : Seq) : Seq := { x with staged := [], held := [], stepping := false, fetchErr := none }

theorem stopIssue_eq (s : State) (k : Nat) : s.stopIssue k =
    { ((s.modSeq k Seq.stopped).put (R.SEQ_STAT.wait (k / 4) (k % 4)) 0).put (R.VER_HDR.gate_hold k) 0 with pinEnd := KMap.drop s.pinEnd k } := rfl

theorem stopIssue_seq (s : State) (k j : Nat) : (s.stopIssue k).seq j = if j = k then (s.seq k).stopped else s.seq j :=
  State.seq_modSeq s k j Seq.stopped

theorem stopIssue_keeps (s : State) {k : Nat} {g : Fld} (wait : g.a ≠ (R.SEQ_STAT.wait (k / 4) (k % 4)).a) (hold : g.a ≠ (R.VER_HDR.gate_hold k).a) :
    (s.stopIssue k).get g = s.get g := by
  have puts (u : State) : ((u.put (R.SEQ_STAT.wait (k / 4) (k % 4)) 0).put (R.VER_HDR.gate_hold k) 0).get g = u.get g :=
    (State.get_put_other _ _ _ _ hold).trans (State.get_put_other _ _ _ _ wait)
  rw [stopIssue_eq]
  exact (get_congr rfl g).trans ((puts _).trans (State.modSeq_get ..))

/-! ### The cause, and where control goes -/

/-- The fields of an exception's cause. -/
def excFields (k slot pc code info : Nat) : List (Fld × Nat) :=
  [(R.SEQ_EXC0.code (k / 4) (k % 4), code), (R.SEQ_EXC0.slot (k / 4) (k % 4), slot), (R.SEQ_EXC0.pc (k / 4) (k % 4), pc),
   (R.SEQ_EXC1.info (k / 4) (k % 4), info)]

/-- The state with the cause of an exception recorded. -/
def State.excNoted (s : State) (k slot code info : Nat) : State :=
  ((s.raise code (some (s.seqCtx k)) (excAt (k / 4) code info) info).stopIssue k).puts (excFields k slot (s.pc k) code info)

/-- The sequencer at the start of its trap handler. -/
def State.trapped (s : State) (k pc code info : Nat) : State :=
  let s := s.modSeq k (fun y => { y with epc := pc, ecode := code, einfo := info })
  (s.put (R.SEQ_STAT.in_trap (k / 4) (k % 4)) 1).setPc k (s.seq k).trap

theorem takeExc_plain (s : State) (k slot : Nat) {code : Nat} (info : Nat) (plain : code ≠ E.SEQ_TS_ECC) : s.takeExc k slot (exc code info) =
    if ((s.excNoted k slot code info).seq k).trapEn && !(s.excNoted k slot code info).flag (R.SEQ_STAT.in_trap (k / 4) (k % 4)) then
      (s.excNoted k slot code info).trapped k (s.pc k) code info
    else (s.excNoted k slot code info).faulted k := by
  unfold State.takeExc
  simp only [exc, if_neg plain, Option.isSome_none, Bool.false_eq_true, false_and, if_false]
  rfl

theorem excFields_nodup (k slot pc code info : Nat) : ((excFields k slot pc code info).map fun p => p.1.a).Nodup := by
  simp only [excFields, List.map_cons, List.map_nil, List.nodup_cons, List.mem_cons, List.not_mem_nil, or_false, not_or, not_false_eq_true,
    List.nodup_nil, and_true, R.SEQ_EXC0.code, R.SEQ_EXC0.slot, R.SEQ_EXC0.pc, R.SEQ_EXC1.info]
  omega

theorem stopIssue_unexcepted (s : State) (k : Nat) : (s.stopIssue k).unexcepted = s.unexcepted := unexcepted_of_unhalted (stopIssue_unhalted s k)

theorem puts_unexcepted (s : State) (l : List (Fld × Nat)) : (s.puts l).unexcepted = s.unexcepted := unexcepted_of_unlogged (puts_unlogged s l)

theorem recorded_unexcepted (u : State) (k : Nat) (l : List (Fld × Nat)) : ((u.stopIssue k).puts l).unexcepted = u.unexcepted := by
  exact (puts_unexcepted (u.stopIssue k) l).trans (stopIssue_unexcepted u k)

theorem excNoted_unexcepted (s : State) (k slot code info : Nat) : (s.excNoted k slot code info).unexcepted = s.unexcepted :=
  (recorded_unexcepted ..).trans (unexcepted_of_unlogged (raise_unlogged ..))

theorem seq_of_unlogged {s t : State} (same : t.unlogged = s.unlogged) (j : Nat) : t.seq j = s.seq j := (congrArg (fun u : State => u.seq j) same :)

theorem excNoted_seq (s : State) (k slot code info j : Nat) : (s.excNoted k slot code info).seq j = if j = k then (s.seq k).stopped else s.seq j := by
  have raised (i : Nat) : (s.raise code (some (s.seqCtx k)) (excAt (k / 4) code info) info).seq i = s.seq i :=
    seq_of_unlogged (raise_unlogged s code (some (s.seqCtx k)) (excAt (k / 4) code info) info) i
  have put : (s.excNoted k slot code info).seq j = ((s.raise code (some (s.seqCtx k)) (excAt (k / 4) code info) info).stopIssue k).seq j :=
    seq_of_unlogged (puts_unlogged ((s.raise code (some (s.seqCtx k)) (excAt (k / 4) code info) info).stopIssue k)
      (excFields k slot (s.pc k) code info)) j
  rw [put, stopIssue_seq, raised, raised]

theorem excNoted_get (s : State) {k : Nat} (slot code info : Nat) {g : Fld} (other : Uncaused k g) (low : g.a < 8 * 0x3e00000)
    (wait : g.a ≠ (R.SEQ_STAT.wait (k / 4) (k % 4)).a) (hold : g.a ≠ (R.VER_HDR.gate_hold k).a) : (s.excNoted k slot code info).get g = s.get g := by
  refine (puts_get_other _ fun p mem => ?_).trans ((stopIssue_keeps _ wait hold).trans (raise_get _ low))
  simp only [excFields, List.mem_cons, List.not_mem_nil, or_false] at mem
  rcases mem with rfl | rfl | rfl | rfl
  exacts [other.code, other.slot, other.at', other.info]

theorem boundFlumes_excNoted (s : State) {k : Nat} (key : k < 96) (slot code info : Nat) : (s.excNoted k slot code info).boundFlumes = s.boundFlumes := by
  refine (boundFlumes_puts fun p mem => ?_).trans ((boundFlumes_stopIssue _ key).trans (boundFlumes_raise ..))
  simp only [excFields, List.mem_cons, List.not_mem_nil, or_false] at mem
  rcases mem with rfl | rfl | rfl | rfl <;> refine noFlumeState_below ?_ <;>
    simp only [R.SEQ_EXC0.code, R.SEQ_EXC0.slot, R.SEQ_EXC0.pc, R.SEQ_EXC1.info] <;> omega

/-- After an exception control goes somewhere: only the sequencer's own places and those of its context tell. -/
structure Goes (s t : State) (k : Nat) : Prop where
  rest : t.unexcepted = s.unexcepted
  seqs : ∀ j, j ≠ k → t.seq j = s.seq j
  held : (t.seq k).held = (s.seq k).held
  file : (t.seq k).s = (s.seq k).s
  regs : ∀ g, Unexc k g → t.get g = s.get g
  flms : k < 96 → t.boundFlumes = s.boundFlumes

theorem put_unexcepted (s : State) (f : Fld) (v : Nat) : (s.put f v).unexcepted = s.unexcepted := rfl

theorem modSeq_unexcepted (s : State) (k : Nat) (f : Seq → Seq) : (s.modSeq k f).unexcepted = s.unexcepted := rfl

theorem setPc_unexcepted (s : State) (k v : Nat) : (s.setPc k v).unexcepted = s.unexcepted :=
  (put_unexcepted ..).trans ((put_unexcepted ..).trans (modSeq_unexcepted ..))

theorem goes_trapped (s : State) (k pc code info : Nat) : Goes s (s.trapped k pc code info) k := by
  unfold State.trapped
  refine ⟨(setPc_unexcepted ..).trans ((put_unexcepted ..).trans (modSeq_unexcepted ..)), fun j other => ?_, ?_, ?_, fun g apart => ?_, fun key => ?_⟩
  · rw [seq_setPc, if_neg other, State.put_seq, State.seq_modSeq, if_neg other]
  · rw [seq_setPc, if_pos rfl, State.put_seq, State.seq_modSeq, if_pos rfl]
  · rw [seq_setPc, if_pos rfl, State.put_seq, State.seq_modSeq, if_pos rfl]
  · unfold State.setPc
    rw [State.get_put_other _ _ _ _ apart.pc, State.get_put_other _ _ _ _ apart.statPc, State.modSeq_get, State.get_put_other _ _ _ _ apart.trap,
      State.modSeq_get]
  · refine (boundFlumes_setPc _ key _).trans ((boundFlumes_put _ (noFlumeState_below ?_) _).trans (boundFlumes_of_regs (State.modSeq_regs ..)))
    simp only [R.SEQ_STAT.in_trap]
    omega

theorem trapped_cause (s : State) (k pc code info : Nat) : ((s.trapped k pc code info).seq k).ecode = code ∧
    ((s.trapped k pc code info).seq k).einfo = info := by
  unfold State.trapped
  rw [seq_setPc, if_pos rfl, State.put_seq, State.seq_modSeq, if_pos rfl]
  exact ⟨rfl, rfl⟩

/-- The context's flag of a faulted sequencer. -/
def State.faultSet (s : State) (k c : Nat) : State :=
  if bit (s.get (R.CTX_FAULT.faulted c (k / 64))) (k % 64) then s
  else s.put (R.CTX_FAULT.faulted c (k / 64)) (s.get (R.CTX_FAULT.faulted c (k / 64)) + 2 ^ (k % 64))

theorem faulted_eq (s : State) (k : Nat) : s.faulted k = ((s.setSeqState k seqFAULTED).faultSet k (s.seqCtx k)).ctxEvent (s.seqCtx k) 0 := rfl

theorem faultSet_unlogged (s : State) (k c : Nat) : (s.faultSet k c).unlogged = s.unlogged := by
  unfold State.faultSet
  split <;> rfl

theorem faultSet_get (s : State) {k c : Nat} {g : Fld} (other : g.a ≠ (R.CTX_FAULT.faulted c (k / 64)).a) : (s.faultSet k c).get g = s.get g := by
  unfold State.faultSet
  split
  · rfl
  · exact State.get_put_other _ _ _ _ other

theorem boundFlumes_faultSet (s : State) {k c : Nat} (key : k < 96) (ctx : c < 64) : (s.faultSet k c).boundFlumes = s.boundFlumes := by
  unfold State.faultSet
  split
  · rfl
  · exact boundFlumes_put _ (noFlumeState_below (by simp only [R.CTX_FAULT.faulted]; omega)) _

theorem goes_faulted (s : State) (k : Nat) : Goes s (s.faulted k) k := by
  have ctx : s.seqCtx k < 64 := seqCtx_lt ..
  rw [faulted_eq]
  generalize s.seqCtx k = c at ctx
  have logged : (((s.setSeqState k seqFAULTED).faultSet k c).ctxEvent c 0).unlogged = (s.setSeqState k seqFAULTED).unlogged :=
    (ctxEvent_unlogged ..).trans (faultSet_unlogged ..)
  have seq (j : Nat) : (((s.setSeqState k seqFAULTED).faultSet k c).ctxEvent c 0).seq j = s.seq j :=
    (congrArg (fun u : State => u.seq j) logged :).trans (setSeqState_seq ..)
  refine ⟨(unexcepted_of_unlogged logged).trans (unexcepted_of_unhalted (setSeqState_unhalted ..)), fun j _ => seq j, congrArg Seq.held (seq k),
    congrArg Seq.s (seq k), fun g apart => ?_, fun key => ?_⟩
  · rw [ctxEvent_get _ _ _ (apart.evt c ctx), faultSet_get _ (apart.fault c ctx), setSeqState_get_other _ apart.state apart.fault]
  · rw [boundFlumes_ctxEvent _ ctx, boundFlumes_faultSet _ key ctx, boundFlumes_setSeqState s key]

/-- What an exception of sequencer `k` leaves. -/
structure Excepted (s t : State) (k : Nat) : Prop where
  rest : t.unexcepted = s.unexcepted
  seqs : ∀ j, j ≠ k → t.seq j = s.seq j
  held : (t.seq k).held = []
  file : (t.seq k).s = (s.seq k).s
  regs : ∀ g, Unexc k g → Uncaused k g → t.get g = s.get g
  flms : k < 96 → t.boundFlumes = s.boundFlumes

theorem excepted_takeExc (s : State) (k slot : Nat) {code : Nat} (info : Nat) (plain : code ≠ E.SEQ_TS_ECC) : Excepted s (s.takeExc k slot (exc code info)) k := by
  have rest := excNoted_unexcepted s k slot code info
  have seqs := excNoted_seq s k slot code info
  have get {g : Fld} (apart : Unexc k g) (other : Uncaused k g) := excNoted_get s slot code info other apart.low apart.wait apart.hold
  have went {t : State} (goes : Goes (s.excNoted k slot code info) t k) : Excepted s t k :=
    ⟨goes.rest.trans rest, fun j other => (goes.seqs j other).trans ((seqs j).trans (if_neg other)),
      goes.held.trans (congrArg Seq.held ((seqs k).trans (if_pos rfl))), goes.file.trans ((congrArg Seq.s ((seqs k).trans (if_pos rfl))).trans rfl),
      fun g apart other => (goes.regs g apart).trans (get apart other), fun key => (goes.flms key).trans (boundFlumes_excNoted s key slot code info)⟩
  rw [takeExc_plain s k slot info plain]
  split
  · exact went (goes_trapped ..)
  · exact went (goes_faulted ..)

section
variable {k : Nat} (key : k < 96)
include key

theorem unexc_cause : Unexc k (R.SEQ_EXC0.code (k / 4) (k % 4)) ∧ Unexc k (R.SEQ_EXC1.info (k / 4) (k % 4)) := by
  refine ⟨⟨?_, ?_, ?_, ?_, ?_, ?_, ?_, fun c lt => ?_, fun c lt => ?_⟩, ⟨?_, ?_, ?_, ?_, ?_, ?_, ?_, fun c lt => ?_, fun c lt => ?_⟩⟩ <;>
    simp only [R.SEQ_EXC0.code, R.SEQ_EXC1.info, R.VER_HDR.gate_hold, R.SEQ_STAT.wait, R.SEQ_STAT.in_trap, R.SEQ_STAT.state, R.SEQ_STAT.pc,
      R.SEQ_PC.pc, R.CTX_FAULT.faulted, R.CTX_EVT.events] <;> omega

theorem unexc_cause_other {j : Nat} (small : j < 96) (other : j ≠ k) : (Unexc k (R.SEQ_EXC0.code (j / 4) (j % 4)) ∧
    Uncaused k (R.SEQ_EXC0.code (j / 4) (j % 4))) ∧ Unexc k (R.SEQ_EXC1.info (j / 4) (j % 4)) ∧ Uncaused k (R.SEQ_EXC1.info (j / 4) (j % 4)) := by
  refine ⟨⟨⟨?_, ?_, ?_, ?_, ?_, ?_, ?_, fun c lt => ?_, fun c lt => ?_⟩, ⟨?_, ?_, ?_, ?_⟩⟩, ⟨?_, ?_, ?_, ?_, ?_, ?_, ?_, fun c lt => ?_, fun c lt => ?_⟩,
    ⟨?_, ?_, ?_, ?_⟩⟩ <;>
    simp only [R.SEQ_EXC0.code, R.SEQ_EXC0.slot, R.SEQ_EXC0.pc, R.SEQ_EXC1.info, R.VER_HDR.gate_hold, R.SEQ_STAT.wait, R.SEQ_STAT.in_trap,
      R.SEQ_STAT.state, R.SEQ_STAT.pc, R.SEQ_PC.pc, R.CTX_FAULT.faulted, R.CTX_EVT.events] <;> omega

omit key in
theorem uncaused_trap (k : Nat) : Uncaused k (R.SEQ_STAT.in_trap (k / 4) (k % 4)) := by
  refine ⟨?_, ?_, ?_, ?_⟩ <;> simp only [R.SEQ_EXC0.code, R.SEQ_EXC0.slot, R.SEQ_EXC0.pc, R.SEQ_EXC1.info, R.SEQ_STAT.in_trap] <;> omega

/-- The cause that an exception records. -/
theorem excReported_takeExc (s : State) (slot : Nat) {code info : Nat} (plain : code ≠ E.SEQ_TS_ECC) (codeSmall : code < 2 ^ 16) (infoSmall : info < 2 ^ 64) :
    s.ExcReported (s.takeExc k slot (exc code info)) k code info := by
  obtain ⟨codePlace, infoPlace⟩ := unexc_cause key
  have codeNoted : (s.excNoted k slot code info).get (R.SEQ_EXC0.code (k / 4) (k % 4)) = code :=
    (puts_get_of_nodup _ (excFields_nodup k slot (s.pc k) code info) (p := (R.SEQ_EXC0.code (k / 4) (k % 4), code)) (by simp [excFields])).trans
      (Nat.mod_eq_of_lt codeSmall)
  have infoNoted : (s.excNoted k slot code info).get (R.SEQ_EXC1.info (k / 4) (k % 4)) = info :=
    (puts_get_of_nodup _ (excFields_nodup k slot (s.pc k) code info) (p := (R.SEQ_EXC1.info (k / 4) (k % 4), info)) (by simp [excFields])).trans
      (Nat.mod_eq_of_lt infoSmall)
  have trap : (s.excNoted k slot code info).get (R.SEQ_STAT.in_trap (k / 4) (k % 4)) = s.get (R.SEQ_STAT.in_trap (k / 4) (k % 4)) := by
    refine excNoted_get s slot code info (uncaused_trap k) ?_ ?_ ?_ <;>
      simp only [R.SEQ_STAT.in_trap, R.SEQ_STAT.wait, R.VER_HDR.gate_hold] <;> omega
  have enabled : ((s.excNoted k slot code info).seq k).trapEn = (s.seq k).trapEn :=
    (congrArg Seq.trapEn ((excNoted_seq s k slot code info k).trans (if_pos rfl))).trans rfl
  have went {t : State} (goes : Goes (s.excNoted k slot code info) t k) : t.get (R.SEQ_EXC0.code (k / 4) (k % 4)) = code ∧
      t.get (R.SEQ_EXC1.info (k / 4) (k % 4)) = info := ⟨(goes.regs _ codePlace).trans codeNoted, (goes.regs _ infoPlace).trans infoNoted⟩
  rw [takeExc_plain s k slot info plain]
  unfold State.ExcReported
  by_cases handler : (((s.excNoted k slot code info).seq k).trapEn && !(s.excNoted k slot code info).flag (R.SEQ_STAT.in_trap (k / 4) (k % 4))) = true
  · rw [if_pos handler]
    exact ⟨(went (goes_trapped ..)).1, (went (goes_trapped ..)).2, fun _ => trapped_cause ..⟩
  · rw [if_neg handler]
    refine ⟨(went (goes_faulted ..)).1, (went (goes_faulted ..)).2, fun both => absurd ?_ handler⟩
    rw [enabled, both.1, flag_eq_false (trap.trans both.2)]
    rfl

end

theorem ExcReported.of_excepted {s t u : State} {j k code info : Nat} (reported : s.ExcReported t j code info) (excepted : Excepted t u k)
    (small : j < 96) (key : k < 96) (other : j ≠ k) : s.ExcReported u j code info := by
  obtain ⟨⟨one, two⟩, three, four⟩ := unexc_cause_other key small other
  obtain ⟨codes, infos, trap⟩ := reported
  exact ⟨(excepted.regs _ one two).trans codes, (excepted.regs _ three four).trans infos, by rw [excepted.seqs j other]; exact trap⟩

end Sys2Proof.Machine

namespace Sys2Proof.Machine

-- One proof at a time: threads that wait for each other hold memory.
set_option Elab.async false

/-! ## What the waits on a flume rest on (R130, R143) -/

/-- A field that no exception of a sequencer writes. -/
def Calmed (g : Fld) : Prop := ∀ k, k < 96 → Unexc k g ∧ Uncaused k g

theorem calmed_of_apart {g : Fld} (low : g.a < 8 * 0x3e00000) (ctxs : 8 * 0x140428 ≤ g.a) (gates : g.a < 8 * 0x3800000 ∨ 8 * 0x3a00000 ≤ g.a)
    (dies : ∀ n q, n < 24 → q < 4 → g.a < 8 * (0x2008020 + 0x80000 * n + 0x100 * q) ∨ 8 * (0x2008040 + 0x80000 * n + 0x100 * q) ≤ g.a) :
    Calmed g := by
  intro k key
  have die := dies (k / 4) (k % 4) (by omega) (by omega)
  refine ⟨⟨low, ?_, ?_, ?_, ?_, ?_, ?_, fun c lt => ?_, fun c lt => ?_⟩, ⟨?_, ?_, ?_, ?_⟩⟩ <;>
    simp only [R.SEQ_EXC0.code, R.SEQ_EXC0.slot, R.SEQ_EXC0.pc, R.SEQ_EXC1.info, R.VER_HDR.gate_hold, R.SEQ_STAT.wait, R.SEQ_STAT.in_trap,
      R.SEQ_STAT.state, R.SEQ_STAT.pc, R.SEQ_PC.pc, R.CTX_FAULT.faulted, R.CTX_EVT.events] <;> omega

/-- The fields of flumes and channels. -/
theorem calmed_flume {g : Fld} (low : 8 * 0x3000000 ≤ g.a) (high : g.a < 8 * 0x3800000 ∨ 8 * 0x3a00000 ≤ g.a ∧ g.a < 8 * 0x3e00000) : Calmed g :=
  calmed_of_apart (by omega) (by omega) (by omega) fun n q lt _ => by omega

/-- The fields of a die's schedules, bindings and images. -/
theorem calmed_die {g : Fld} {n off : Nat} (lt : n < 24) (place : g.a = 8 * (0x2000000 + 0x80000 * n) + off) (inside : off < 8 * 0x8000) : Calmed g :=
  calmed_of_apart (by omega) (by omega) (by omega) fun m q _ _ => by omega

theorem calmed_bind {g : Fld} {n q off : Nat} (die : n < 24) (seq : q < 4) (place : g.a = 8 * (0x2008008 + 0x80000 * n + 0x100 * q) + off)
    (inside : off < 64) : Calmed g :=
  calmed_of_apart (by omega) (by omega) (by omega) fun m r _ _ => by omega

/-- Two states whose flumes, schedules and registers are the same. -/
structure SameFlumes (s t : State) : Prop where
  rest : t.unexcepted = s.unexcepted
  file : ∀ j, (t.seq j).s = (s.seq j).s
  regs : ∀ g, Calmed g → t.get g = s.get g
  bound : t.boundFlumes = s.boundFlumes

theorem SameFlumes.refl (s : State) : SameFlumes s s := ⟨rfl, fun _ => rfl, fun _ _ => rfl, rfl⟩

theorem SameFlumes.trans {s t u : State} (one : SameFlumes s t) (two : SameFlumes t u) : SameFlumes s u :=
  ⟨two.rest.trans one.rest, fun j => (two.file j).trans (one.file j), fun g h => (two.regs g h).trans (one.regs g h), two.bound.trans one.bound⟩

theorem Excepted.sameFlumes {s t : State} {k : Nat} (excepted : Excepted s t k) (key : k < 96) : SameFlumes s t := by
  refine ⟨excepted.rest, fun j => ?_, fun g h => excepted.regs g (h k key).1 (h k key).2, excepted.flms key⟩
  by_cases own : j = k
  · exact own ▸ excepted.file
  · exact congrArg Seq.s (excepted.seqs j own)

namespace SameFlumes
variable {s t : State} (same : SameFlumes s t)
include same

theorem flume (f : Nat) : t.flume f = s.flume f := (congrArg (fun u : State => u.flume f) same.rest :)

theorem half (h : Nat) : t.halfInReset h = s.halfInReset h := (congrArg (fun u : State => u.halfInReset h) same.rest :)

theorem flag {g : Fld} (calmed : Calmed g) : t.flag g = s.flag g := by rw [State.flag, State.flag, same.regs g calmed]

/-- A field of a flume's descriptor. -/
theorem desc {f : Nat} {g : Fld} (off : Nat) (lt : f < 8192) (place : g.a = 8 * (0x3000000 + 0x40 * f) + off) (inside : off < 8 * 0x40) :
    t.get g = s.get g := same.regs g (calmed_flume (by omega) (by omega))

theorem flmState {f : Nat} (lt : f < 8192) : t.flmState f = s.flmState f :=
  same.regs _ (calmed_flume (by simp only [R.FLM_STAT.state]; omega) (by simp only [R.FLM_STAT.state]; omega))

theorem seqCtx {k : Nat} (key : k < 96) : t.seqCtx k = s.seqCtx k :=
  same.regs _ (calmed_bind (n := k / 4) (q := k % 4) (off := 12) (by omega) (by omega) rfl (by omega))

theorem seqStage {k : Nat} (key : k < 96) : t.seqStage k = s.seqStage k :=
  same.regs _ (calmed_bind (n := k / 4) (q := k % 4) (off := 0) (by omega) (by omega) rfl (by omega))

theorem flmSeqCheck {k f : Nat} (key : k < 96) (lt : f < 8192) (prod : Bool) : t.flmSeqCheck k f prod = s.flmSeqCheck k f prod := by
  have stage : t.get (if prod then R.FLM_DESC.prod f else R.FLM_DESC.cons f) = s.get (if prod then R.FLM_DESC.prod f else R.FLM_DESC.cons f) := by
    cases prod
    · exact same.desc (g := R.FLM_DESC.cons f) 32 lt rfl (by omega)
    · exact same.desc (g := R.FLM_DESC.prod f) 16 lt rfl (by omega)
  have ctx : t.get (R.FLM_DESC.ctx f) = s.get (R.FLM_DESC.ctx f) := same.desc (64 + 16) lt (by simp only [R.FLM_DESC.ctx]; omega) (by omega)
  unfold State.flmSeqCheck State.flmCheck
  rw [same.seqCtx key, same.seqStage key, same.flmState lt, same.half, stage, ctx]

theorem depth {f : Nat} (lt : f < 8192) : t.get (R.FLM_DESC.depth f) = s.get (R.FLM_DESC.depth f) := same.desc 48 lt rfl (by omega)

theorem dir {f : Nat} (lt : f < 8192) : t.get (R.FLM_DESC.dir f) = s.get (R.FLM_DESC.dir f) := same.desc 13 lt rfl (by omega)

theorem pair {f : Nat} (lt : f < 8192) : t.get (R.FLM_DESC.pair f) = s.get (R.FLM_DESC.pair f) :=
  same.desc (64 + 32) lt (by simp only [R.FLM_DESC.pair]; omega) (by omega)

theorem remote {f : Nat} (lt : f < 8192) : t.flag (R.FLM_DESC.remote f) = s.flag (R.FLM_DESC.remote f) :=
  same.flag (calmed_flume (by simp only [R.FLM_DESC.remote]; omega) (by simp only [R.FLM_DESC.remote]; omega))

theorem pair_en {f : Nat} (lt : f < 8192) : t.flag (R.FLM_DESC.pair_en f) = s.flag (R.FLM_DESC.pair_en f) :=
  same.flag (calmed_flume (by simp only [R.FLM_DESC.pair_en]; omega) (by simp only [R.FLM_DESC.pair_en]; omega))

/-- The link of a flume's channel. -/
theorem chanLink {f : Nat} (lt : f < 8192) : t.get (R.SKW_CHAN.link (t.get (R.FLM_DESC.chan f))) = s.get (R.SKW_CHAN.link (s.get (R.FLM_DESC.chan f))) := by
  have small : s.get (R.FLM_DESC.chan f) < 2 ^ 13 := State.get_lt ..
  rw [same.desc (g := R.FLM_DESC.chan f) (8 * 0x28) lt (by simp only [R.FLM_DESC.chan]; omega) (by omega)]
  exact same.regs _ (calmed_flume (by simp only [R.SKW_CHAN.link]; omega) (by simp only [R.SKW_CHAN.link]; omega))

omit same in
theorem pair_lt (s : State) (f : Nat) : s.get (R.FLM_DESC.pair f) < 8192 := State.get_lt ..

theorem pairOk {f : Nat} (lt : f < 8192) : t.pairOk f = s.pairOk f := by
  have other := pair_lt s f
  have prod {x : Nat} (small : x < 8192) : t.get (R.FLM_DESC.prod x) = s.get (R.FLM_DESC.prod x) := same.desc 16 small rfl (by omega)
  have cons {x : Nat} (small : x < 8192) : t.get (R.FLM_DESC.cons x) = s.get (R.FLM_DESC.cons x) := same.desc 32 small rfl (by omega)
  have ctx {x : Nat} (small : x < 8192) : t.get (R.FLM_DESC.ctx x) = s.get (R.FLM_DESC.ctx x) :=
    same.desc (64 + 16) small (by simp only [R.FLM_DESC.ctx]; omega) (by omega)
  unfold State.pairOk
  simp only [same.pair lt, same.pair other, same.pair_en lt, same.pair_en other, same.flmState lt, same.flmState other, same.dir lt,
    same.dir other, prod lt, prod other, cons lt, cons other, ctx lt, ctx other, same.depth lt, same.depth other, same.remote lt,
    same.remote other, same.chanLink lt, same.chanLink other]

theorem canPush {f : Nat} (lt : f < 8192) : t.canPush f = s.canPush f := by
  have other := pair_lt s f
  have floor : t.get (R.FLM_DESC.floor f) = s.get (R.FLM_DESC.floor f) := same.desc (64 + 48) lt (by simp only [R.FLM_DESC.floor]; omega) (by omega)
  have held : t.partnerHeld (s.get (R.FLM_DESC.pair f)) = s.partnerHeld (s.get (R.FLM_DESC.pair f)) := by
    rw [State.partnerHeld, State.partnerHeld, same.flume, same.remote other]
  have gate : t.gateOk f = s.gateOk f := by
    unfold State.gateOk
    dsimp only
    rw [same.pairOk lt, same.pair lt, same.depth lt, same.dir lt, floor, same.flume, held]
  rw [State.canPush, State.canPush, State.credits, State.credits, gate, same.depth lt, same.flume]

theorem heldAtOnce {f : Nat} (lt : f < 8192) (would : Bool) : t.heldAtOnce f would = s.heldAtOnce f would := by
  have ticks : t.get R.FLM_TMO.ticks = s.get R.FLM_TMO.ticks := same.regs _ (calmed_flume (by decide) (by decide))
  unfold State.heldAtOnce
  rw [same.flmState lt, ticks]

theorem holdFull (k f : Nat) : t.holdFull k f = s.holdFull k f := by rw [State.holdFull, State.holdFull, same.flume]

theorem holdCheck (k f : Nat) : t.holdCheck k f = s.holdCheck k f := by rw [State.holdCheck, State.holdCheck, same.flume, same.holdFull]

/-! ### Which record the schedule names -/

omit same in
theorem boundFlumes_mem_lt {s : State} {f : Nat} (mem : f ∈ s.boundFlumes) : f < 8192 := boundFlumes_lt mem

theorem inFlumes {k : Nat} (key : k < 96) : t.inFlumes k = s.inFlumes k := by
  unfold State.inFlumes
  rw [same.bound]
  exact List.filter_congr fun f mem => by rw [same.flmSeqCheck key (boundFlumes_mem_lt mem)]

omit same in
theorem inFlumes_lt {s : State} {k f : Nat} (mem : f ∈ s.inFlumes k) : f < 8192 := boundFlumes_mem_lt (List.mem_of_mem_filter mem)

theorem readyClass {f : Nat} (lt : f < 8192) (r : FlmRec) : readyClass t f r = readyClass s f r := by
  unfold Machine.readyClass
  rw [same.dir lt]

theorem readyPick {k : Nat} (key : k < 96) : readyPick t k = readyPick s k := by
  have ready : (t.inFlumes k).filterMap (fun f => match (t.flume f).readyHead with
      | some r => some (Machine.readyClass t f r, r.hdr.mb, f)
      | none => none) = (s.inFlumes k).filterMap (fun f => match (s.flume f).readyHead with
      | some r => some (Machine.readyClass s f r, r.hdr.mb, f)
      | none => none) := by
    rw [same.inFlumes key]
    refine List.filterMap_congr fun f mem => ?_
    rw [same.flume]
    split
    · next r _ => rw [same.readyClass (inFlumes_lt mem)]
    · rfl
  exact congrArg (Option.map _) (congrArg (List.foldl _ _) ready)

section
variable {n q : Nat} (die : n < 24) (seq : q < 4)
include die

/-- A schedule register of a sequencer. -/
theorem sched {g : Fld} (off : Nat) (place : g.a = 8 * (0x2000000 + 0x80000 * n) + off) (inside : off < 8 * 0x8000) : t.get g = s.get g :=
  same.regs g (calmed_die die place inside)

include seq in
theorem tablePick {fuel ptr : Nat} {round : Int} {whole : Bool} (small : ptr < 256) :
    tablePick t n q fuel ptr round whole = tablePick s n q fuel ptr round whole := by
  induction fuel generalizing ptr round whole with
  | zero => rfl
  | succ fuel ih =>
    have last : s.get (R.SCHED_CTL.last n q) < 2 ^ 8 := State.get_lt ..
    have next : (if s.get (R.SCHED_CTL.last n q) < ptr + 1 then 0 else ptr + 1) < 256 := by split <;> omega
    have base : t.get (R.SCHED_BASE.base n q) = s.get (R.SCHED_BASE.base n q) :=
      same.sched die (8 * (0x5000 + 0x20 * q)) (by simp only [R.SCHED_BASE.base]; omega) (by omega)
    have count : t.get (R.SCHED_COUNT.count n q) = s.get (R.SCHED_COUNT.count n q) :=
      same.sched die (8 * (0x5004 + 0x20 * q)) (by simp only [R.SCHED_COUNT.count]; omega) (by omega)
    have lastSame : t.get (R.SCHED_CTL.last n q) = s.get (R.SCHED_CTL.last n q) :=
      same.sched die (8 * (0x5008 + 0x20 * q) + 16) (by simp only [R.SCHED_CTL.last]; omega) (by omega)
    have stride : t.get (R.SCHED_CTL.stride n q) = s.get (R.SCHED_CTL.stride n q) :=
      same.sched die (8 * (0x5008 + 0x20 * q) + 24) (by simp only [R.SCHED_CTL.stride]; omega) (by omega)
    have offset : t.get (R.SCHED_ENT.offset n q ptr) = s.get (R.SCHED_ENT.offset n q ptr) :=
      same.sched die (8 * (0x6000 + 0x400 * q + 4 * ptr)) (by simp only [R.SCHED_ENT.offset]; omega) (by omega)
    have flume : t.get (R.SCHED_ENT.flume n q ptr) = s.get (R.SCHED_ENT.flume n q ptr) :=
      same.sched die (8 * (0x6000 + 0x400 * q + 4 * ptr) + 16) (by simp only [R.SCHED_ENT.flume]; omega) (by omega)
    rw [Machine.tablePick, Machine.tablePick, base, count, lastSame, stride, offset, flume, same.flume]
    simp only [ih next]

end

theorem pick {k : Nat} (key : k < 96) : t.pick k = s.pick k := by
  have die : k / 4 < 24 := by omega
  have seq : k % 4 < 4 := by omega
  have ptr : t.get (R.SCHED_CTL.ptr (k / 4) (k % 4)) = s.get (R.SCHED_CTL.ptr (k / 4) (k % 4)) :=
    same.sched die (8 * (0x5008 + 0x20 * (k % 4)) + 8) (by simp only [R.SCHED_CTL.ptr]; omega) (by omega)
  have round : t.get (R.SCHED_ROUND.round (k / 4) (k % 4)) = s.get (R.SCHED_ROUND.round (k / 4) (k % 4)) :=
    same.sched die (8 * (0x500c + 0x20 * (k % 4))) (by simp only [R.SCHED_ROUND.round]; omega) (by omega)
  have mode : t.get (R.SCHED_CTL.mode (k / 4) (k % 4)) = s.get (R.SCHED_CTL.mode (k / 4) (k % 4)) :=
    same.sched die (8 * (0x5008 + 0x20 * (k % 4))) (by simp only [R.SCHED_CTL.mode]; omega) (by omega)
  have count : t.get (R.SCHED_COUNT.count (k / 4) (k % 4)) = s.get (R.SCHED_COUNT.count (k / 4) (k % 4)) :=
    same.sched die (8 * (0x5004 + 0x20 * (k % 4))) (by simp only [R.SCHED_COUNT.count]; omega) (by omega)
  have small : s.get (R.SCHED_CTL.ptr (k / 4) (k % 4)) < 256 := State.get_lt ..
  unfold State.pick
  dsimp only
  rw [ptr, round, mode, count, same.tablePick die seq small, same.readyPick key]


end SameFlumes

/-- The flume that a pick names is one of the 8192. -/
def Pick.Small : Pick → Prop
  | .order f | .take f _ _ | .waitOn f => f < 8192
  | _ => True

theorem tablePick_small (s : State) (n q : Nat) {fuel ptr : Nat} {round : Int} {whole : Bool} : (tablePick s n q fuel ptr round whole).Small := by
  induction fuel generalizing ptr round whole with
  | zero => trivial
  | succ fuel ih =>
    have flume : s.get (R.SCHED_ENT.flume n q ptr) < 8192 := State.get_lt ..
    rw [tablePick]
    dsimp only
    generalize s.get (R.SCHED_ENT.flume n q ptr) = f at flume ⊢
    split
    · split
      · trivial
      · exact ih
    · split
      · exact flume
      · split
        · exact flume
        · split
          · exact flume
          · exact flume

/-- The one of two ready records that comes first, as `readyPick` folds them. -/
theorem foldl_some_mem {α : Type} {f : Option α → α → Option α} (takes : ∀ b x, f b x = some x ∨ f b x = b) {l : List α} {b : Option α} {x : α}
    (folded : l.foldl f b = some x) : x ∈ l ∨ b = some x := by
  induction l generalizing b with
  | nil => exact .inr folded
  | cons y l ih =>
    rcases ih folded with mem | at'
    · exact .inl (List.mem_cons_of_mem y mem)
    · rcases takes b y with new | old
      · exact .inl (by rw [← Option.some.inj (new.symm.trans at')]; exact List.mem_cons_self)
      · exact .inr (old.symm.trans at')

theorem readyPick_mem {s : State} {k f : Nat} (picked : readyPick s k = some f) : f ∈ s.inFlumes k := by
  obtain ⟨x, folded, rfl⟩ := Option.map_eq_some_iff.1 picked
  rcases foldl_some_mem (fun b x => by
      cases b with
      | none => exact .inl rfl
      | some y => dsimp only; split <;> simp) folded with mem | none_
  · obtain ⟨g, inside, made⟩ := List.mem_filterMap.1 mem
    split at made
    · cases made
      exact inside
    · exact nomatch made
  · exact nomatch none_

/-- In table mode every pick names a flume. -/
theorem pick_table {s : State} {k : Nat} (table : s.get (R.SCHED_CTL.mode (k / 4) (k % 4)) = 1) : (s.pick k).Small := by
  unfold State.pick
  dsimp only
  rw [if_pos table]
  split
  · split <;> trivial
  · exact tablePick_small ..

/-- In the other modes a ready record is picked, or all flumes are waited on. -/
theorem pick_ready {s : State} {k : Nat} (ready : s.get (R.SCHED_CTL.mode (k / 4) (k % 4)) ≠ 1) :
    (∃ f p r, s.pick k = .take f p r ∧ f < 8192) ∨ s.pick k = .waitOn 8192 := by
  unfold State.pick
  dsimp only
  rw [if_neg ready]
  split
  · next f picked => exact .inl ⟨f, _, _, rfl, SameFlumes.inFlumes_lt (readyPick_mem picked)⟩
  · exact .inr rfl

/-! ## What an instruction waits for -/

theorem findSome_congr {α β : Type} {f g : α → Option β} {l : List α} (same : ∀ x ∈ l, f x = g x) : l.findSome? f = l.findSome? g := by
  induction l with
  | nil => rfl
  | cons x l ih => rw [List.findSome?_cons, List.findSome?_cons, same x List.mem_cons_self, ih fun y mem => same y (List.mem_cons_of_mem x mem)]

/-- What an instruction that waits on flumes does. -/
structure SameWait (s t : State) (o : SlotOp) : Prop where
  chk : o.chk t = o.chk s
  wait : o.wait t = o.wait s
  push : o.waitPush t = o.waitPush s
  pop : o.waitPop t = o.waitPop s

section
variable {s t : State} (same : SameFlumes s t) {k : Nat} (key : k < 96)
include same

theorem flumeNum_same (k : Nat) (o : FlumeOp) : flumeNum t k o = flumeNum s k o := by
  cases o with
  | imm f => rfl
  | reg r =>
    have read : t.s k r = s.s k r := by simp only [State.s, Seq.sreg, same.file k]
    exact congrArg (fun w : Word => w.toNat % 2 ^ 13) read

omit same in
theorem flumeNum_lt (s : State) (k : Nat) (o : FlumeOp) : flumeNum s k o < 8192 := by
  cases o with
  | imm f => exact f.isLt
  | reg r => exact Nat.mod_lt _ (by decide)

include key

theorem sameWait_flmPush (ad : BitVec 4) (o : FlumeOp) : SameWait s t (opFlmPush k ad o) := by
  have num := flumeNum_same same k o
  have lt := flumeNum_lt s k o
  refine ⟨?_, ?_, ?_, rfl⟩
  · simp only [opFlmPush, num, same.flmSeqCheck key lt, same.canPush lt, same.heldAtOnce lt]
  · simp only [opFlmPush, num, same.canPush lt]
  · simp only [opFlmPush, num]

theorem sameWait_flmPop (ad : BitVec 4) (o : FlumeOp) : SameWait s t (opFlmPop k ad o) := by
  have num := flumeNum_same same k o
  have lt := flumeNum_lt s k o
  refine ⟨?_, ?_, rfl, ?_⟩
  · simp only [opFlmPop, num, same.flmSeqCheck key lt, same.holdFull, same.heldAtOnce lt, same.flume]
  · simp only [opFlmPop, num, same.flume]
  · simp only [opFlmPop, num]

theorem sameWait_flmNext (ad : BitVec 4) (pd : BitVec 3) : SameWait s t (opFlmNext k ad pd) := by
  have pick := same.pick key
  have flumes := same.inFlumes key
  have mode : t.get (R.SCHED_CTL.mode (k / 4) (k % 4)) = s.get (R.SCHED_CTL.mode (k / 4) (k % 4)) :=
    same.sched (n := k / 4) (by omega) (8 * (0x5008 + 0x20 * (k % 4))) (by simp only [R.SCHED_CTL.mode]; omega) (by omega)
  have held : (s.inFlumes k).findSome? (fun f => t.heldAtOnce f true) = (s.inFlumes k).findSome? (fun f => s.heldAtOnce f true) :=
    findSome_congr fun f mem => same.heldAtOnce (SameFlumes.inFlumes_lt mem) true
  refine ⟨?_, ?_, rfl, ?_⟩
  · by_cases table : s.get (R.SCHED_CTL.mode (k / 4) (k % 4)) = 1
    · have small := pick_table table
      simp only [opFlmNext, mode, pick, flumes, held, table]
      cases picked : s.pick k with
      | order f => simp only [same.flmSeqCheck key (picked ▸ small : (Pick.order f).Small)]
      | take f p r => simp only [same.flmSeqCheck key (picked ▸ small : (Pick.take f p r).Small), same.holdCheck]
      | waitOn f =>
        have lt : f < 8192 := (picked ▸ small : (Pick.waitOn f).Small)
        simp only [same.flmSeqCheck key lt, same.holdFull, same.heldAtOnce lt]
      | finished p r => rfl
      | endless => rfl
    · simp only [opFlmNext, mode, pick, flumes, held]
      rcases pick_ready table with ⟨f, p, r, picked, lt⟩ | picked
      · simp only [picked, same.flmSeqCheck key lt, same.holdCheck]
      · simp only [picked, if_neg table]
  · simp only [opFlmNext, pick]
  · simp only [opFlmNext, pick, flumes]

end

/-- Only the three instructions that take or reserve wait on a flume. -/
theorem waits_of_sem {s t : State} (same : SameFlumes s t) {i : Instr} {o : SlotOp} (sem : semOf i = some o) :
    (∀ u, o.waitPush u = [] ∧ o.waitPop u = []) ∨ SameWait s t o := by
  cases i
  case flmPush c ad f => cases sem; exact .inr (sameWait_flmPush same (seqKey_lt c) ad f)
  case flmPop c ad f => cases sem; exact .inr (sameWait_flmPop same (seqKey_lt c) ad f)
  case flmNext c ad pd => cases sem; exact .inr (sameWait_flmNext same (seqKey_lt c) ad pd)
  all_goals
    cases sem
  all_goals
    exact .inl fun _ => ⟨rfl, rfl⟩

/-! ### The waits of the other sequencers stay as an exception ends one (R143) -/

theorem findSome_filter {α β : Type} (p : α → Bool) (f : α → Option β) (l : List α) :
    (l.filter p).findSome? f = l.findSome? (fun x => if p x then f x else none) := by
  induction l with
  | nil => rfl
  | cons x l ih =>
    by_cases passes : p x = true
    · rw [List.filter_cons_of_pos passes, List.findSome?_cons, List.findSome?_cons, if_pos passes, ih]
    · rw [List.filter_cons_of_neg passes, List.findSome?_cons, if_neg passes, ih]

theorem sem_of_slot {b : List Instr} {x : SlotIn} (mem : x ∈ slotsOf b) : semOf x.i = some x.op := by
  obtain ⟨i, -, made⟩ := List.mem_filterMap.1 mem
  split at made
  · next c o _ sem => cases made; exact sem
  · exact nomatch made

theorem waitsFlume_same {s t : State} (same : SameFlumes s t) {k : Nat} (seq : t.seq k = s.seq k) (f : Nat) : t.waitsFlume k f = s.waitsFlume k f := by
  have enabled (c : SlotCtl) : t.enabled k c = s.enabled k c := by simp only [State.enabled, State.p, seq]
  have pending (o : SlotOp) : t.srcWait k o = s.srcWait k o := by rw [State.srcWait, State.srcWait, seq]
  unfold State.waitsFlume State.waiting
  rw [seq]
  split
  · rfl
  · next b _ _ =>
    unfold State.waitsOf
    rw [findSome_filter, findSome_filter]
    refine findSome_congr fun x mem => ?_
    rcases waits_of_sem same (sem_of_slot mem) with none_ | wait
    · simp only [(none_ s).1, (none_ s).2, (none_ t).1, (none_ t).2, List.contains_nil, Bool.or_false, Bool.false_eq_true, if_false, ite_self]
    · simp only [enabled, pending, wait.chk, wait.wait, wait.push, wait.pop]

/-- What one sequencer's wait on the flume ends with. -/
def State.endWait (s : State) (f k : Nat) : State :=
  match s.waitsFlume k f with
  | some slot => s.takeExc k slot (exc E.FLM_HELD f)
  | none => s

theorem endHeldWaits_eq (s : State) (f : Nat) : s.endHeldWaits f = (List.range 96).foldl (fun u k => u.endWait f k) s := rfl

/-- Sequencer `k` is as it was, with the cause of its last exception. -/
structure SeqStands (s t : State) (k : Nat) : Prop where
  seq : t.seq k = s.seq k
  code : t.get (R.SEQ_EXC0.code (k / 4) (k % 4)) = s.get (R.SEQ_EXC0.code (k / 4) (k % 4))
  info : t.get (R.SEQ_EXC1.info (k / 4) (k % 4)) = s.get (R.SEQ_EXC1.info (k / 4) (k % 4))
  trap : t.get (R.SEQ_STAT.in_trap (k / 4) (k % 4)) = s.get (R.SEQ_STAT.in_trap (k / 4) (k % 4))

theorem SeqStands.trans {s t u : State} {k : Nat} (one : SeqStands s t k) (two : SeqStands t u k) : SeqStands s u k :=
  ⟨two.seq.trans one.seq, two.code.trans one.code, two.info.trans one.info, two.trap.trans one.trap⟩

theorem SeqStands.reported {s t u : State} {j k code info : Nat} (untouched : SeqStands t u k) (reported : s.ExcReported t k code info) (own : j = k) :
    s.ExcReported u j code info := by
  obtain ⟨codes, infos, trap⟩ := reported
  subst own
  exact ⟨untouched.code.trans codes, untouched.info.trans infos, by rw [untouched.seq]; exact trap⟩

theorem SeqStands.from {s t u : State} {k code info : Nat} (untouched : SeqStands s t k) (reported : t.ExcReported u k code info) :
    s.ExcReported u k code info := by
  obtain ⟨codes, infos, trap⟩ := reported
  exact ⟨codes, infos, fun both => trap ⟨(congrArg Seq.trapEn untouched.seq).trans both.1, untouched.trap.trans both.2⟩⟩

theorem unexc_trap_other {j k : Nat} (small : j < 96) (other : j ≠ k) : Unexc k (R.SEQ_STAT.in_trap (j / 4) (j % 4)) := by
  refine ⟨?_, ?_, ?_, ?_, ?_, ?_, ?_, fun c lt => ?_, fun c lt => ?_⟩ <;>
    simp only [R.VER_HDR.gate_hold, R.SEQ_STAT.wait, R.SEQ_STAT.in_trap, R.SEQ_STAT.state, R.SEQ_STAT.pc, R.SEQ_PC.pc, R.CTX_FAULT.faulted,
      R.CTX_EVT.events] <;> omega

theorem uncaused_trap_other (j k : Nat) : Uncaused k (R.SEQ_STAT.in_trap (j / 4) (j % 4)) := by
  refine ⟨?_, ?_, ?_, ?_⟩ <;> simp only [R.SEQ_EXC0.code, R.SEQ_EXC0.slot, R.SEQ_EXC0.pc, R.SEQ_EXC1.info, R.SEQ_STAT.in_trap] <;> omega

theorem Excepted.untouched {s t : State} {j k : Nat} (excepted : Excepted s t k) (small : j < 96) (key : k < 96) (other : j ≠ k) : SeqStands s t j := by
  obtain ⟨⟨one, two⟩, three, four⟩ := unexc_cause_other key small other
  exact ⟨excepted.seqs j other, excepted.regs _ one two, excepted.regs _ three four,
    excepted.regs _ (unexc_trap_other small other) (uncaused_trap_other j k)⟩

/-- One wait on the flume has ended: the others stand as before. -/
structure WaitEnded (s t : State) (f k : Nat) : Prop where
  same : SameFlumes s t
  others : ∀ j, j < 96 → j ≠ k → SeqStands s t j
  none : s.waitsFlume k f = none → t = s
  some : ∀ slot, s.waitsFlume k f = some slot → (t.seq k).held = [] ∧ s.ExcReported t k E.FLM_HELD f

theorem waitEnded {f : Nat} (lt : f < 8192) {k : Nat} (key : k < 96) (s : State) : WaitEnded s (s.endWait f k) f k := by
  unfold State.endWait
  cases waits : s.waitsFlume k f with
  | none =>
    exact ⟨.refl s, fun _ _ _ => ⟨rfl, rfl, rfl, rfl⟩, fun _ => rfl, fun slot some_ => nomatch waits.symm.trans some_⟩
  | some slot =>
    have plain : E.FLM_HELD ≠ E.SEQ_TS_ECC := by decide
    have excepted := excepted_takeExc s k slot f plain
    exact ⟨excepted.sameFlumes key, fun j small other => excepted.untouched small key other, fun none_ => (nomatch waits.symm.trans none_),
      fun slot' _ => ⟨excepted.held, excReported_takeExc key s slot plain (by decide) (by omega)⟩⟩

/-- All waits on the flume of some sequencers have ended. -/
structure WaitsEnded (s t : State) (f : Nat) (l : List Nat) : Prop where
  same : SameFlumes s t
  others : ∀ j, j < 96 → j ∉ l → SeqStands s t j
  none : (∀ k ∈ l, s.waitsFlume k f = none) → t = s
  some : ∀ k ∈ l, ∀ slot, s.waitsFlume k f = some slot → (t.seq k).held = [] ∧ s.ExcReported t k E.FLM_HELD f

theorem waitsEnded {f : Nat} (lt : f < 8192) {l : List Nat} (nodup : l.Nodup) (keys : ∀ k ∈ l, k < 96) (s : State) :
    WaitsEnded s (l.foldl (fun u k => u.endWait f k) s) f l := by
  induction l generalizing s with
  | nil => exact ⟨.refl s, fun _ _ _ => ⟨rfl, rfl, rfl, rfl⟩, fun _ => rfl, fun _ mem => nomatch mem⟩
  | cons k l ih =>
    obtain ⟨fresh, rest⟩ := List.nodup_cons.1 nodup
    have key := keys k List.mem_cons_self
    have smaller : ∀ j ∈ l, j < 96 := fun j mem => keys j (List.mem_cons_of_mem k mem)
    have first := waitEnded lt key s
    have then_ := ih rest smaller (s.endWait f k)
    have apart {j : Nat} (mem : j ∈ l) : j ≠ k := fun own => fresh (own ▸ mem)
    have waits {j : Nat} (mem : j ∈ l) : (s.endWait f k).waitsFlume j f = s.waitsFlume j f :=
      waitsFlume_same first.same (first.others j (smaller j mem) (apart mem)).seq f
    refine ⟨first.same.trans then_.same, fun j small out => ?_, fun none_ => ?_, fun j mem slot wait => ?_⟩
    · rw [List.mem_cons, not_or] at out
      exact (first.others j small out.1).trans (then_.others j small out.2)
    · exact (then_.none fun j mem => (waits mem).trans (none_ j (List.mem_cons_of_mem k mem))).trans (first.none (none_ k List.mem_cons_self))
    · rw [List.foldl_cons]
      rcases List.mem_cons.1 mem with rfl | mem
      · have untouched := then_.others j key fresh
        obtain ⟨held, reported⟩ := first.some slot wait
        exact ⟨(congrArg Seq.held untouched.seq).trans held, untouched.reported reported rfl⟩
      · obtain ⟨held, reported⟩ := then_.some j mem slot ((waits mem).trans wait)
        exact ⟨held, (first.others j (smaller j mem) (apart mem)).from reported⟩

end Sys2Proof.Machine

namespace Sys2Proof.Machine

-- One proof at a time: threads that wait for each other hold memory.
set_option Elab.async false

/-! ## Commands to a sequencer (R202, R204, R224) -/

theorem dieGated_of_open {s : State} (opened : s.Open) {n : Nat} (half : s.halfInReset (halfOfDie n) = false) (off_ : s.dieOff n = false) (off : Nat)
    (t : State) : s.dieGated n off t = t := by
  rw [State.dieGated, gated_of_open opened, half, off_, if_neg Bool.false_ne_true, if_neg Bool.false_ne_true]

theorem Seq.stopped_file (x : Seq) : x.stopped.s = x.s ∧ x.stopped.a = x.a ∧ x.stopped.p = x.p := ⟨rfl, rfl, rfl⟩

theorem stopIssue_pc (s : State) (k : Nat) : (s.stopIssue k).pc k = s.pc k := by
  have get : (s.stopIssue k).get (R.SEQ_STAT.pc (k / 4) (k % 4)) = s.get (R.SEQ_STAT.pc (k / 4) (k % 4)) := by
    refine stopIssue_keeps s ?_ ?_ <;> simp only [R.SEQ_STAT.pc, R.SEQ_STAT.wait, R.VER_HDR.gate_hold] <;> omega
  have past : ((s.stopIssue k).seq k).past = (s.seq k).past := (congrArg Seq.past ((stopIssue_seq s k k).trans (if_pos rfl))).trans rfl
  rw [State.pc, State.pc, get, past]

theorem setSeqState_pc (s : State) (k v : Nat) : (s.setSeqState k v).pc k = s.pc k := by
  refine pc_congr _ _ _ (setSeqState_get_other s ?_ fun c lt => ?_) (setSeqState_seq ..) <;>
    simp only [R.SEQ_STAT.pc, R.SEQ_STAT.state, R.CTX_FAULT.faulted] <;> omega

theorem sameMem_of_unhalted {s t : State} (same : t.unhalted = s.unhalted) : SameMem s t :=
  sameMem_of_eq (congrArg State.mem same :) (congrArg State.bad same :) (congrArg State.plist same :) (congrArg State.linkErr same :)

/-- A stop of the sequencer and a new state. -/
theorem stopped_set (s : State) (k : Nat) {v : Nat} (small : v < 8) : let t := (s.stopIssue k).setSeqState k v
    t.seqState k = v ∧ t.pc k = s.pc k ∧ SameMem s t ∧ SameSeqsBut s t k ∧ SameFiles s t k ∧ t.seq k = (s.seq k).stopped := by
  have seq (j : Nat) : ((s.stopIssue k).setSeqState k v).seq j = if j = k then (s.seq k).stopped else s.seq j :=
    (setSeqState_seq ..).trans (stopIssue_seq s k j)
  have own : ((s.stopIssue k).setSeqState k v).seq k = (s.seq k).stopped := (seq k).trans (if_pos rfl)
  obtain ⟨files, addrs, preds⟩ := (s.seq k).stopped_file
  exact ⟨setSeqState_seqState _ small, (setSeqState_pc _ k v).trans (stopIssue_pc s k),
    sameMem_of_unhalted ((setSeqState_unhalted ..).trans (stopIssue_unhalted s k)), fun j other => (seq j).trans (if_neg other),
    ⟨(congrArg Seq.s own).trans files, (congrArg Seq.a own).trans addrs, (congrArg Seq.p own).trans preds⟩, own⟩

/-! ### Unbinding -/

theorem dropLoads_unrouted (s : State) (k : Nat) : (s.dropLoads k).unrouted = (s.modSeq k (fun x => { x with loads := [] })).unrouted := by
  have acked : ((s.seq k).loads.foldl (fun s ld => s.ackPkt k 1 (ldOfDie (k / 4)) (s.homeLd ld.addr)) s).unrouted = s.unrouted :=
    foldl_keeps State.unrouted _ (fun s ld => ackPkt_unrouted ..) _ s
  have modded {t : State} (same : t.unrouted = s.unrouted) :
      (t.modSeq k (fun x => { x with loads := [] })).unrouted = (s.modSeq k (fun x => { x with loads := [] })).unrouted :=
    (congrArg (fun u : State => (u.modSeq k (fun x => { x with loads := [] })).unrouted) same :)
  exact modded acked

theorem dropLoads_seq (s : State) {k j : Nat} (other : j ≠ k) : (s.dropLoads k).seq j = s.seq j := by
  have same : (s.dropLoads k).seq j = (s.modSeq k (fun x => { x with loads := [] })).seq j :=
    (congrArg (fun u : State => u.seq j) (dropLoads_unrouted s k) :)
  rw [same, State.seq_modSeq, if_neg other]

theorem sameMem_dropLoads (s : State) (k : Nat) : SameMem s (s.dropLoads k) :=
  have same := dropLoads_unrouted s k
  sameMem_of_eq (congrArg State.mem same :) (congrArg State.bad same :) (congrArg State.plist same :) (congrArg State.linkErr same :)

/-- What an unbound sequencer holds: its transfers go on. -/
def Seq.unbound (x : Seq) : Seq := { Seq.empty with dma := x.dma, late := x.late.filter TsAcc.wr, ino := x.ino }

theorem unbindSeq_eq (s : State) (k : Nat) : s.unbindSeq k = (((((s.stopIssue k).dropLoads k).modSeq k Seq.unbound).setPc k 0).puts
    [(R.SEQ_STAT.in_trap (k / 4) (k % 4), 0), (R.SEQ_BSTAT.busy (k / 4) (k % 4), 0)]).setSeqState k seqUNBOUND := rfl

theorem unbindSeq_facts (s : State) (k : Nat) : let t := s.unbindSeq k
    t.seqState k = seqUNBOUND ∧ t.pc k = 0 ∧ (∃ x : Seq, t.seq k = { x.unbound with past := false }) ∧ SameMem s t ∧ SameSeqsBut s t k := by
  rw [unbindSeq_eq]
  have stopped := sameMem_of_unhalted (stopIssue_unhalted s k)
  have stopSeq {j : Nat} (other : j ≠ k) : (s.stopIssue k).seq j = s.seq j := (stopIssue_seq s k j).trans (if_neg other)
  have dropped := sameMem_dropLoads (s.stopIssue k) k
  have dropSeq {j : Nat} (other : j ≠ k) := dropLoads_seq (s.stopIssue k) other
  generalize (s.stopIssue k).dropLoads k = d at dropped dropSeq
  have pc : (((d.modSeq k Seq.unbound).setPc k 0).puts
      [(R.SEQ_STAT.in_trap (k / 4) (k % 4), 0), (R.SEQ_BSTAT.busy (k / 4) (k % 4), 0)]).pc k = 0 := by
    refine (pc_congr _ _ _ (puts_get_other _ fun p mem => ?_) (seq_of_unlogged (puts_unlogged ..) k)).trans (pc_setPc _ k 0 (by decide))
    simp only [List.mem_cons, List.not_mem_nil, or_false] at mem
    rcases mem with rfl | rfl <;> simp only [R.SEQ_STAT.pc, R.SEQ_STAT.in_trap, R.SEQ_BSTAT.busy] <;> omega
  have seq (j : Nat) : ((((d.modSeq k Seq.unbound).setPc k 0).puts
      [(R.SEQ_STAT.in_trap (k / 4) (k % 4), 0), (R.SEQ_BSTAT.busy (k / 4) (k % 4), 0)]).setSeqState k seqUNBOUND).seq j =
      if j = k then { (d.seq k).unbound with past := false } else d.seq j := by
    rw [setSeqState_seq, seq_of_unlogged (puts_unlogged ..) j, seq_setPc]
    split
    · rw [State.seq_modSeq, if_pos rfl]
      rfl
    · next other => rw [State.seq_modSeq, if_neg other]
  have mem : SameMem d ((((d.modSeq k Seq.unbound).setPc k 0).puts
      [(R.SEQ_STAT.in_trap (k / 4) (k % 4), 0), (R.SEQ_BSTAT.busy (k / 4) (k % 4), 0)]).setSeqState k seqUNBOUND) :=
    (sameMem_of_unexcepted ((setPc_unexcepted ..).trans (modSeq_unexcepted d k Seq.unbound))).trans
      ((sameMem_of_unlogged (puts_unlogged ..)).trans (sameMem_of_unhalted (setSeqState_unhalted ..)))
  exact ⟨setSeqState_seqState _ (by decide), (setSeqState_pc _ k _).trans pc, ⟨d.seq k, (seq k).trans (if_pos rfl)⟩,
    stopped.trans (dropped.trans mem), fun j other => ((seq j).trans (if_neg other)).trans ((dropSeq other).trans (stopSeq other))⟩

/-! ### A step of four NOPs -/

/-- The NOP that a slot of a bundle of zeros decodes to. -/
def nopAt (die : Fin 24) (q slot : Fin 4) : SlotCtl :=
  { die := die, q := q, slot := slot, pe := false, pidx := 0, psense := false, more := decide (slot.val < 3) }

/-- The bundle of four NOPs. -/
def nops (die : Fin 24) (q : Fin 4) : List Instr := [.nop (nopAt die q 0), .nop (nopAt die q 1), .nop (nopAt die q 2), .nop (nopAt die q 3)]

theorem fetchBundle_zero {s : State} {die : Fin 24} {q : Fin 4}
    (zero : KMap.find (fun _ => (0 : BitVec 256)) (s.seq (4 * die.val + q.val)).store (s.pc (4 * die.val + q.val)) = 0) :
    s.fetchBundle die q = (nops die q, none) := by
  unfold State.fetchBundle
  dsimp only
  rw [zero]
  rfl

/-- What a step of sequencer `k` makes ready. -/
def State.stepReady (s : State) (k : Nat) (err : Option (Nat × Nat × Nat)) : State :=
  (s.stopIssue k).modSeq k (fun x => { x with stepping := true, fetchErr := err })

theorem stepReady_seq (s : State) (k j : Nat) (err : Option (Nat × Nat × Nat)) :
    (s.stepReady k err).seq j = if j = k then { (s.seq k).stopped with stepping := true, fetchErr := err } else s.seq j := by
  rw [State.stepReady, State.seq_modSeq]
  split
  · rw [stopIssue_seq, if_pos rfl]
  · next other => rw [stopIssue_seq, if_neg other]

theorem stepReady_own (s : State) (k : Nat) (err : Option (Nat × Nat × Nat)) :
    (s.stepReady k err).seq k = { (s.seq k).stopped with stepping := true, fetchErr := err } := (stepReady_seq s k k err).trans (if_pos rfl)

theorem stepReady_get (s : State) (k : Nat) (err : Option (Nat × Nat × Nat)) (g : Fld) : (s.stepReady k err).get g = (s.stopIssue k).get g :=
  State.modSeq_get ..

theorem stepReady_pc (s : State) (k : Nat) (err : Option (Nat × Nat × Nat)) : (s.stepReady k err).pc k = s.pc k := by
  have past : ((s.stepReady k err).seq k).past = ((s.stopIssue k).seq k).past := by rw [stepReady_own, stopIssue_seq, if_pos rfl]
  rw [← stopIssue_pc s k, State.pc, State.pc, stepReady_get, past]

theorem stepReady_nbundles (s : State) (k : Nat) (err : Option (Nat × Nat × Nat)) : (s.stepReady k err).nbundles k = s.nbundles k := by
  rw [State.nbundles, stepReady_own]
  rfl

theorem stepReady_live (s : State) {k : Nat} (key : k < 96) (err : Option (Nat × Nat × Nat)) : (s.stepReady k err).live = s.live := by
  have get {g : Fld} (apart : 8 * 0x3a00000 ≤ g.a ∨ g.a < 8 * 0x2000000) : (s.stepReady k err).get g = s.get g := by
    rw [stepReady_get]
    refine stopIssue_keeps s ?_ ?_ <;> simp only [R.SEQ_STAT.wait, R.VER_HDR.gate_hold] <;> omega
  have fatal := get (g := R.RAS_STAT.fatal) (by decide)
  have rung := get (g := R.PWR_STAT.rung) (by decide)
  have busy := get (g := R.PWR_STAT.busy) (by decide)
  have target := get (g := R.PWR_STAT.target) (by decide)
  unfold State.live State.flag
  rw [fatal, rung, busy, target]

theorem encSlot_nopAt (die : Fin 24) (q slot : Fin 4) : encSlot (.nop (nopAt die q slot)) = 0 := by
  simp [encSlot, slotBits, slotHead, nopAt, b2n]

/-- One slot of the bundle. -/
def nopIn (die : Fin 24) (q slot : Fin 4) : SlotIn := ⟨.nop (nopAt die q slot), nopAt die q slot, opNop, encSlot (.nop (nopAt die q slot))⟩

theorem slotsOf_nops (die : Fin 24) (q : Fin 4) : slotsOf (nops die q) = [nopIn die q 0, nopIn die q 1, nopIn die q 2, nopIn die q 3] := rfl

section
variable (u : State) (k : Nat) (die : Fin 24) (q : Fin 4)

theorem nopIn_decodes (j : Fin 4) : (nopIn die q j).decodeExc = none := by
  have word : (nopIn die q j).w = 0 := encSlot_nopAt die q j
  unfold SlotIn.decodeExc
  have inside : ∀ j : Fin 4, [0, 1, 2, 3].contains j.val = true := by decide
  rw [word, if_neg (by decide)]
  exact if_pos (inside j)

theorem nopIn_enabled (j : Fin 4) : u.enabled k (nopIn die q j).c = true := rfl

theorem regWait_nop : u.regWait k opNop = false := by
  simp [State.regWait, opNop]

theorem srcWait_nop : u.srcWait k opNop = false := by simp [State.srcWait, opNop]

theorem slotExc_nop (j : Fin 4) : u.slotExc k (slotsOf (nops die q)) (nopIn die q j) = none := by
  have clash : clashSlot (slotsOf (nops die q)) = none := rfl
  have waits : u.srcWait k (nopIn die q j).op = false := srcWait_nop u k
  unfold State.slotExc
  rw [nopIn_decodes, nopIn_enabled, clash, waits]
  rfl

theorem firstRaise_nops (fetched : (u.seq k).fetchErr = none) : u.firstRaise k (slotsOf (nops die q)) (slotsOf (nops die q)) = none := by
  have raises : (slotsOf (nops die q)).findSome? (fun x => (u.slotExc k (slotsOf (nops die q)) x).map (fun e => (x.c.slot.val, e))) = none := by
    have slots := slotsOf_nops die q
    refine List.findSome?_eq_none_iff.2 fun x mem => ?_
    rw [slots] at mem
    simp only [List.mem_cons, List.not_mem_nil, or_false] at mem
    rcases mem with rfl | rfl | rfl | rfl <;> rw [slotExc_nop] <;> rfl
  unfold State.firstRaise
  rw [raises, fetched]

theorem firstHold_nops : u.firstHold k (slotsOf (nops die q)) = none := by
  have free (j : Fin 4) : u.regWait k (nopIn die q j).op = false := regWait_nop u k
  rw [slotsOf_nops, State.firstHold]
  simp only [firstWait, free, Bool.false_eq_true, if_false]
  rfl

/-- Four NOPs issue wherever the program counter stands in the image. -/
theorem judge_nops (inImage : u.pc k < u.nbundles k) (fetched : (u.seq k).fetchErr = none) : u.judge k (nops die q) = .go := by
  have on : (slotsOf (nops die q)).filter (fun x => u.enabled k x.c) = slotsOf (nops die q) := rfl
  unfold State.judge
  dsimp only
  rw [if_neg (by omega), on, firstRaise_nops u k die q fetched, firstHold_nops]
  rfl

end

theorem issueBundle_nops {u : State} {k : Nat} (die : Fin 24) (q : Fin 4) (stepping : (u.seq k).stepping = true) :
    u.issueBundle k (nops die q) = ((u.afterIssue k opNop).modSeq k (fun x => { x with stepping := false, held := [] })).setSeqState k seqHALTED := by
  unfold State.issueBundle
  rw [slotsOf_nops, if_pos stepping]
  rfl

/-- A step of four NOPs only advances the program counter (R214, R224). -/
theorem step_nops {s : State} {k : Nat} (key : k < 96) (die : Fin 24) (q : Fin 4) (inImage : s.pc k < s.nbundles k) (image : s.nbundles k ≤ 16384)
    (noEnd : s.NoLoopEnd k) : let t := (s.stepReady k none).tryBundle k (nops die q) true
    t.seqState k = seqHALTED ∧ s.Issued t k (s.pc k + 1) ∧ SameMem s t ∧ SameSeqsBut s t k ∧ SameFiles s t k := by
  have own := stepReady_own s k none
  have pc := stepReady_pc s k none
  have ready (g : Fld) := stepReady_get s k none g
  have mem : SameMem s (s.stepReady k none) := sameMem_of_unhalted ((modSeq_unhalted ..).trans (stopIssue_unhalted s k))
  have seqs (j : Nat) (other : j ≠ k) : (s.stepReady k none).seq j = s.seq j := (stepReady_seq s k j none).trans (if_neg other)
  have bundles := stepReady_nbundles s k none
  have issuedGet : (s.stepReady k none).get (R.SEQ_CNT.issued (k / 4) (k % 4)) = s.get (R.SEQ_CNT.issued (k / 4) (k % 4)) := by
    rw [ready]
    refine stopIssue_keeps s ?_ ?_ <;> simp only [R.SEQ_CNT.issued, R.SEQ_STAT.wait, R.VER_HDR.gate_hold] <;> omega
  have noEnd' : (s.stepReady k none).NoLoopEnd k := by
    intro l at'
    rw [own] at at'
    rw [pc]
    exact noEnd l at'
  have goes : (s.stepReady k none).tryBundle k (nops die q) true = (s.stepReady k none).issueBundle k (nops die q) := by
    unfold State.tryBundle
    rw [judge_nops _ k die q (by omega) (by rw [own])]
    rfl
  dsimp only
  rw [goes, issueBundle_nops die q (by rw [own])]
  generalize s.stepReady k none = u at *
  obtain ⟨issued, frame, seq⟩ := afterIssue_seq (s := u) (u := u) (k := k) (o := opNop) rfl rfl rfl rfl noEnd' (by omega)
  generalize u.afterIssue k opNop = w at *
  have get {g : Fld} (state : g.a ≠ (R.SEQ_STAT.state (k / 4) (k % 4)).a) (fault : ∀ c, c < 64 → g.a ≠ (R.CTX_FAULT.faulted c (k / 64)).a) :
      ((w.modSeq k (fun x => { x with stepping := false, held := [] })).setSeqState k seqHALTED).get g = w.get g :=
    (setSeqState_get_other _ state fault).trans (State.modSeq_get ..)
  have tseq (j : Nat) : ((w.modSeq k (fun x => { x with stepping := false, held := [] })).setSeqState k seqHALTED).seq j =
      if j = k then { w.seq k with stepping := false, held := [] } else w.seq j := by rw [setSeqState_seq, State.seq_modSeq]
  have tpc : ((w.modSeq k (fun x => { x with stepping := false, held := [] })).setSeqState k seqHALTED).pc k = w.pc k := by
    rw [setSeqState_pc, State.pc, State.pc, State.modSeq_get, State.seq_modSeq, if_pos rfl]
  have tmem : SameMem w ((w.modSeq k (fun x => { x with stepping := false, held := [] })).setSeqState k seqHALTED) :=
    sameMem_of_unhalted ((setSeqState_unhalted ..).trans (modSeq_unhalted ..))
  generalize held : (w.modSeq k (fun x => { x with stepping := false, held := [] })).setSeqState k seqHALTED = t at *
  obtain ⟨at', counted, wait, gate⟩ := issued_of_same issued issuedGet
  have file : t.seq k = { w.seq k with stepping := false, held := [] } := (tseq k).trans (if_pos rfl)
  refine ⟨?_, ⟨tpc.trans (at'.trans (by rw [pc])), ?_, ?_, ?_⟩, mem.trans (frame.sameMem.trans tmem), fun j other => ?_, ?_⟩
  · rw [← held]
    exact setSeqState_seqState _ (by decide)
  · refine (get ?_ fun c lt => ?_).trans counted <;> simp only [R.SEQ_CNT.issued, R.SEQ_STAT.state, R.CTX_FAULT.faulted] <;> omega
  · refine (get ?_ fun c lt => ?_).trans wait <;> simp only [R.SEQ_STAT.wait, R.SEQ_STAT.state, R.CTX_FAULT.faulted] <;> omega
  · refine (get ?_ fun c lt => ?_).trans gate <;> simp only [R.VER_HDR.gate_hold, R.SEQ_STAT.state, R.CTX_FAULT.faulted] <;> omega
  · exact (tseq j).trans ((if_neg other).trans ((frame.seqs j other).trans (seqs j other)))
  · unfold SameFiles
    rw [file, seq, own]
    exact ⟨rfl, rfl, rfl⟩

/-! ### The commands -/

section
variable {s : State} {die : Fin 24} {q : Fin 4}

theorem halt_command : exec (.seqCmdHalt die q) s = .next (s.dieGated die.val (seqReg (4 * die.val + q.val) 0x18)
    (if s.seqState (4 * die.val + q.val) = seqRUNNING then (s.stopIssue (4 * die.val + q.val)).setSeqState (4 * die.val + q.val) seqHALTED
      else s.cmdIgnored (4 * die.val + q.val))) := rfl

theorem run_command : exec (.seqCmdRun die q) s = .next (s.dieGated die.val (seqReg (4 * die.val + q.val) 0x18)
    (if s.seqState (4 * die.val + q.val) = seqHALTED ∨ s.seqState (4 * die.val + q.val) = seqFAULTED then
      if s.nbundles (4 * die.val + q.val) = 0 then s.setSeqState (4 * die.val + q.val) seqHALTED
      else (s.stopIssue (4 * die.val + q.val)).setSeqState (4 * die.val + q.val) seqRUNNING
    else s.cmdIgnored (4 * die.val + q.val))) := rfl

theorem unbind_command : exec (.seqCmdUnbind die q) s = .next (s.dieGated die.val (seqReg (4 * die.val + q.val) 0x18)
    (if s.seqState (4 * die.val + q.val) = seqHALTED ∨ s.seqState (4 * die.val + q.val) = seqFAULTED then s.unbindSeq (4 * die.val + q.val)
      else s.cmdIgnored (4 * die.val + q.val))) := rfl

/-- What a step of sequencer `k` does once it has fetched `r`. -/
def State.stepped (s : State) (k : Nat) (r : List Instr × Option (Nat × Nat × Nat)) : State :=
  let s := s.stepReady k r.2
  if s.nbundles k ≤ s.pc k then s.takeExc k 0 (exc E.SEQ_PC (s.pc k))
  else if s.live then s.tryBundle k r.1 true else s.modSeq k (fun x => { x with held := [r.1] })

theorem step_command : exec (.seqCmdStep die q) s = .next (s.dieGated die.val (seqReg (4 * die.val + q.val) 0x18)
    (if s.seqState (4 * die.val + q.val) ≠ seqHALTED then s.cmdIgnored (4 * die.val + q.val)
      else s.stepped (4 * die.val + q.val) (s.fetchBundle die q))) := rfl

theorem stepped_eq (s : State) {k : Nat} (key : k < 96) (r : List Instr × Option (Nat × Nat × Nat)) :
    (s.nbundles k ≤ s.pc k → s.stepped k r = (s.stepReady k r.2).takeExc k 0 (exc E.SEQ_PC (s.pc k))) ∧
    (s.pc k < s.nbundles k → s.live = false → s.stepped k r = (s.stepReady k r.2).modSeq k (fun x => { x with held := [r.1] })) ∧
    (s.pc k < s.nbundles k → s.live = true → s.stepped k r = (s.stepReady k r.2).tryBundle k r.1 true) := by
  have bundles := stepReady_nbundles s k r.2
  have pc := stepReady_pc s k r.2
  have live := stepReady_live s key r.2
  unfold State.stepped
  dsimp only
  rw [bundles, pc, live]
  exact ⟨fun past => if_pos past, fun inside idle => (if_neg (by omega)).trans (if_neg (by rw [idle]; decide)),
    fun inside on => (if_neg (by omega)).trans (if_pos on)⟩

/-- A command that does not apply is ignored and logged. -/
theorem cmdIgnored_facts (s : State) {k : Nat} (key : k < 96) : (s.cmdIgnored k).seqState k = s.seqState k ∧ (s.cmdIgnored k).seqs = s.seqs ∧
    SameMem s (s.cmdIgnored k) ∧ ((s.cmdIgnored k).log.head?.map LogEntry.code) = some E.CFG_RANGE :=
  ⟨raise_get s (g := R.SEQ_STAT.state (k / 4) (k % 4)) (by simp only [R.SEQ_STAT.state]; omega), seqs_of_unlogged (raise_unlogged ..),
    sameMem_of_unlogged (raise_unlogged ..), log_code_of_raise⟩

end

/-! ## Waits that end (R143, R144, R212) -/

/-- The end of waits that are not a sequencer's: its state, the flumes and memory stay. -/
structure Served (s t : State) : Prop where
  seqs : t.seqs = s.seqs
  flms : t.flumes = s.flumes
  mem  : SameMem s t
  regs : ∀ g : Fld, g.a < 8 * 0x3e00000 → t.get g = s.get g

theorem Served.refl (s : State) : Served s s := ⟨rfl, rfl, .refl s, fun _ _ => rfl⟩

theorem Served.trans {s t u : State} (one : Served s t) (two : Served t u) : Served s u :=
  ⟨two.seqs.trans one.seqs, two.flms.trans one.flms, one.mem.trans two.mem, fun g low => (two.regs g low).trans (one.regs g low)⟩

theorem served_foldl {α : Type} {f : State → α → State} (each : ∀ s x, Served s (f s x)) (l : List α) (s : State) : Served s (l.foldl f s) := by
  induction l generalizing s with
  | nil => exact .refl s
  | cons x l ih => exact (each s x).trans (ih (f s x))

theorem served_raise (s : State) (code : Nat) (ctx : Option Nat) (w : Where) (detail : Nat) : Served s (s.raise code ctx w detail) :=
  have same := raise_unlogged s code ctx w detail
  ⟨seqs_of_unlogged same, (congrArg State.flumes same :), sameMem_of_unlogged same, fun _ low => raise_get s low⟩

theorem served_flmFail (s : State) (c q : Nat) (e : Exc) : Served s (s.flmFail c q e) := by
  have ends (u : State) (st : Nat) : Served u (u.rcEnd c q st 0 0) := ⟨rfl, rfl, ⟨fun _ => rfl, rfl, rfl, rfl⟩, fun _ _ => rfl⟩
  unfold State.flmFail
  dsimp only
  refine Served.trans ?_ ((served_raise ..).trans (ends _ _))
  split
  · exact ⟨rfl, rfl, ⟨fun _ => rfl, rfl, rfl, rfl⟩, fun _ _ => rfl⟩
  · exact .refl s

theorem served_siteRefuse (s : State) (u : Nat) (e : Exc) : Served s (s.siteRefuse u e) :=
  (served_raise ..).trans ⟨rfl, rfl, ⟨fun _ => rfl, rfl, rfl, rfl⟩, fun _ _ => rfl⟩

theorem served_endRingWaits (s : State) (f : Nat) : Served s (s.endRingWaits f) := by
  refine served_foldl (fun s i => ?_) _ s
  split
  · exact served_flmFail ..
  · exact .refl s

theorem served_endSiteWaits (s : State) (f : Nat) : Served s (s.endSiteWaits f) := by
  refine served_foldl (fun s u => ?_) _ s
  dsimp only
  have refused (l : List PartReq) : Served s (l.foldl (fun s _ => s.siteRefuse u (exc E.FLM_HELD f)) s) :=
    served_foldl (fun s _ => served_siteRefuse s u (exc E.FLM_HELD f)) l s
  split
  · exact (refused _).trans ⟨rfl, rfl, ⟨fun _ => rfl, rfl, rfl, rfl⟩, fun _ _ => rfl⟩
  · exact refused _

theorem flumes_of_unexcepted {s t : State} (same : t.unexcepted = s.unexcepted) : t.flumes = s.flumes := (congrArg State.flumes same :)

/-- Settles O18, by what a stop of the sequencer, an exception and the end of one wait each leave alone. -/
theorem sequencerCommandsAndWaits : Obligations.SequencerCommandsAndWaits := by
  unfold Obligations.SequencerCommandsAndWaits
  refine ⟨fun s die q => ?_, fun s die q b bs => ?_, fun s f => ⟨fun open_ => congrArg Host.Outcome.next (if_neg open_), fun held => ?_⟩⟩
  · dsimp only
    intro opened half off_
    have key : 4 * die.val + q.val < 96 := by omega
    have gate (t : State) := dieGated_of_open opened half off_ (seqReg (4 * die.val + q.val) 0x18) t
    rw [halt_command, run_command, unbind_command, step_command, gate, gate, gate, gate]
    have off (h : s.seqState (4 * die.val + q.val) = seqHALTED ∨ s.seqState (4 * die.val + q.val) = seqFAULTED)
        (r : s.seqState (4 * die.val + q.val) ≠ seqHALTED ∧ s.seqState (4 * die.val + q.val) ≠ seqFAULTED) : False := h.elim r.1 r.2
    refine ⟨fun stands image => ?_, fun stands none_ => ?_, fun running => ?_, fun halted => ?_, fun stands => ?_, fun i bad => ?_⟩
    · rw [if_pos stands, if_neg image]
      obtain ⟨state, pc, mem, seqs, files, -⟩ := stopped_set s (4 * die.val + q.val) (v := seqRUNNING) (by decide)
      exact ⟨_, rfl, state, pc, mem, seqs, files⟩
    · rw [if_pos stands, if_pos none_]
      exact ⟨_, rfl, setSeqState_seqState s (by decide)⟩
    · rw [if_pos running]
      obtain ⟨state, pc, mem, seqs, files, own⟩ := stopped_set s (4 * die.val + q.val) (v := seqHALTED) (by decide)
      exact ⟨_, rfl, state, pc, mem, seqs, files, congrArg Seq.held own, congrArg Seq.staged own, (congrArg Seq.dma own).trans rfl⟩
    · rw [if_neg (not_not.2 halted)]
      obtain ⟨past, idle, on⟩ := stepped_eq s key (s.fetchBundle die q)
      refine ⟨fun h => congrArg _ (past h), fun h l => congrArg _ (idle h l), fun h l => congrArg _ (on h l), fun h l image noEnd zero => ?_⟩
      rw [on h l, fetchBundle_zero zero]
      exact ⟨_, rfl, step_nops key die q h image noEnd⟩
    · rw [if_pos stands]
      obtain ⟨state, pc, ⟨x, own⟩, mem, seqs⟩ := unbindSeq_facts s (4 * die.val + q.val)
      exact ⟨_, rfl, state, pc, congrArg Seq.store own, congrArg Seq.nbundles own, fun r => by rw [State.s, own]; exact ite_self _, mem, seqs⟩
    · have ignored := cmdIgnored_facts s key
      rcases bad with ⟨rfl, state⟩ | ⟨rfl, state⟩ | ⟨rfl | rfl, h, f⟩
      · rw [halt_command, gate, if_neg state]
        exact ⟨_, rfl, ignored⟩
      · rw [step_command, gate, if_pos state]
        exact ⟨_, rfl, ignored⟩
      · rw [run_command, gate, if_neg fun stands => off stands ⟨h, f⟩]
        exact ⟨_, rfl, ignored⟩
      · rw [unbind_command, gate, if_neg fun stands => off stands ⟨h, f⟩]
        exact ⟨_, rfl, ignored⟩
  · dsimp only
    intro waits
    have key : 4 * die.val + q.val < 96 := by omega
    have run : exec (.seqWaitTimeout die q) s = .next (if 0 < s.get (R.SEQ_WDOG.ticks die.val q.val) then
        s.takeExc (4 * die.val + q.val) (s.waitSlot (4 * die.val + q.val) b) (exc E.SEQ_WAIT (s.get (R.SEQ_STAT.wait die.val q.val))) else s) := by
      show execSeqWaitTimeout die q s = _
      unfold execSeqWaitTimeout
      dsimp only
      rw [waits]
    rw [run]
    refine ⟨fun some_ => ?_, fun none_ => by rw [if_neg (by omega)]⟩
    rw [if_pos some_]
    have plain : E.SEQ_WAIT ≠ E.SEQ_TS_ECC := by decide
    have small : s.get (R.SEQ_STAT.wait die.val q.val) < 2 ^ 4 := State.get_lt ..
    have excepted := excepted_takeExc s (4 * die.val + q.val) (s.waitSlot (4 * die.val + q.val) b) (s.get (R.SEQ_STAT.wait die.val q.val)) plain
    exact ⟨_, rfl, rfl, excepted.held, excReported_takeExc key s _ plain (by decide) (by omega), sameMem_of_unexcepted excepted.rest, excepted.seqs⟩
  · have ended := waitsEnded f.isLt List.nodup_range (l := List.range 96) (fun k mem => List.mem_range.1 mem) s
    rw [← endHeldWaits_eq] at ended
    have served := (served_endRingWaits (s.endHeldWaits f.val) f.val).trans (served_endSiteWaits _ f.val)
    have flms : (s.endHeldWaits f.val).flumes = s.flumes := flumes_of_unexcepted ended.same.rest
    refine ⟨_, congrArg Host.Outcome.next (if_pos held), (sameMem_of_unexcepted ended.same.rest).trans served.mem,
      served.flms.trans flms, fun none_ => ?_, fun k slot key waits => ?_⟩
    · rw [served.seqs, ended.none fun k mem => none_ k (List.mem_range.1 mem)]
    · obtain ⟨stopped, codes, infos, trap⟩ := ended.some k (List.mem_range.2 key) slot waits
      have seq : ((((s.endHeldWaits f.val).endRingWaits f.val).endSiteWaits f.val).seq k) = (s.endHeldWaits f.val).seq k := by
        rw [State.seq, served.seqs, State.seq]
      obtain ⟨code, info⟩ := unexc_cause key
      refine ⟨(congrArg Seq.held seq).trans stopped, (served.regs _ code.low).trans codes, (served.regs _ info.low).trans infos, ?_⟩
      rw [seq]
      exact trap

end Sys2Proof.Machine

namespace Sys2Proof.Machine

-- One proof at a time: threads that wait for each other hold memory.
set_option Elab.async false

/-! ## Ethernet ports (R414, R415) -/

/-- Nothing of the state differs but registers, what has been sent, and the pauses of the ports. -/
def State.unported (s : State) : State := { s with regs := [], out := [], ethPause := [], ethHeld := [] }

theorem rest_of_unported {s t : State} (same : t.unported = s.unported) :
    { t with regs := s.regs, out := s.out, ethPause := s.ethPause, ethHeld := s.ethHeld } = s :=
  (congrArg (fun u : State => { u with regs := s.regs, out := s.out, ethPause := s.ethPause, ethHeld := s.ethHeld }) same :)

theorem counted_count (s : State) (g : Fld) (n : Nat) : s.Counted (s.count g n) g n := State.get_count_same ..

/-- The counters of a port lie apart from each other and from what says whether a frame is its own. -/
theorem eth_places (k : Nat) : (R.ETH_CNT.rx k).a ≠ (R.ETH_CNT.tx k).a ∧ (R.ETH_CNT.rx k).a ≠ (R.ETH_CNT.drop k).a ∧
    (R.ETH_CNT.rx k).a ≠ (R.ETH_CNT.cnp k).a ∧ (R.ETH_CNT.tx k).a ≠ (R.ETH_CNT.drop k).a ∧ (R.ETH_CNT.cnp k).a ≠ (R.ETH_CNT.drop k).a := by
  simp only [R.ETH_CNT.rx, R.ETH_CNT.tx, R.ETH_CNT.drop, R.ETH_CNT.cnp]
  omega

theorem eth_port_places (k : Nat) : (R.ETH_PORT.mtu k).a ≠ (R.ETH_CNT.rx k).a ∧ (R.ETH_PORT.vlan k).a ≠ (R.ETH_CNT.rx k).a ∧
    (R.ETH_PORT.pfc_en k).a ≠ (R.ETH_CNT.rx k).a ∧ (R.ETH_PORT.pcp k).a ≠ (R.ETH_CNT.rx k).a := by
  simp only [R.ETH_CNT.rx, R.ETH_PORT.mtu, R.ETH_PORT.vlan, R.ETH_PORT.pfc_en, R.ETH_PORT.pcp]
  omega

/-- A field of the haul's sources and channels. -/
theorem get_count_haul (s : State) (k n : Nat) {f g : Fld} (counter : f.a = (R.ETH_CNT.rx k).a ∨ f.a = (R.ETH_CNT.cnp k).a)
    (haul : g.a < 8 * 0x3a00000) : (s.count f n).get g = s.get g := by
  refine State.get_count_other _ _ _ _ ?_
  rcases counter with h | h <;> rw [h] <;> simp only [R.ETH_CNT.rx, R.ETH_CNT.cnp] <;> omega

section
variable {s t : State} (haul : ∀ g : Fld, g.a < 8 * 0x3a00000 → t.get g = s.get g) (conn : t.srcConn = s.srcConn)
include haul

theorem connHere_same (k : Nat) {i : Nat} (small : i < 64) : t.connHere k i = s.connHere k i := by
  have en : t.flag (R.HAUL_SRC.en i) = s.flag (R.HAUL_SRC.en i) := by rw [State.flag, haul _ (by simp only [R.HAUL_SRC.en]; omega), State.flag]
  have cage : t.get (R.HAUL_SRC.cage i) = s.get (R.HAUL_SRC.cage i) := haul _ (by simp only [R.HAUL_SRC.cage]; omega)
  have state : t.get (R.HAUL_SSTAT.state i) = s.get (R.HAUL_SSTAT.state i) := haul _ (by simp only [R.HAUL_SSTAT.state]; omega)
  rw [State.connHere, State.connHere, en, cage, state]

include conn

theorem portAddrs_same (k : Nat) : t.portAddrs k = s.portAddrs k := by
  unfold State.portAddrs
  refine List.filterMap_congr fun i mem => ?_
  have small := List.mem_range.1 mem
  have en : t.flag (R.HAUL_SRC.en i) = s.flag (R.HAUL_SRC.en i) := by rw [State.flag, haul _ (by simp only [R.HAUL_SRC.en]; omega), State.flag]
  have cage : t.get (R.HAUL_SRC.cage i) = s.get (R.HAUL_SRC.cage i) := haul _ (by simp only [R.HAUL_SRC.cage]; omega)
  rw [en, cage, conn]

theorem qpOpen_same (k : Nat) (q : EthQp) : t.qpOpen k q = s.qpOpen k q := by
  have transport : t.get (R.HAUL_SRC.transport q.src.val) = s.get (R.HAUL_SRC.transport q.src.val) :=
    haul _ (by simp only [R.HAUL_SRC.transport]; omega)
  rw [State.qpOpen, State.qpOpen, connHere_same haul k q.src.isLt, transport, conn]

end

/-! ### Frames -/

/-- A frame has arrived: it is counted, and at most the counters of the port's sent and dropped frames tell. -/
structure Received (s t : State) (k : Nat) : Prop where
  rx : s.Counted t (R.ETH_CNT.rx k) 1
  rest : t.unported = s.unported
  regs : SameRegsBut s t [R.ETH_CNT.rx k, R.ETH_CNT.tx k, R.ETH_CNT.drop k]

section
variable (s : State) (k : Nat)

/-- The frame counted. -/
def State.frameIn : State := s.count (R.ETH_CNT.rx k) 1

theorem frameIn_get {g : Fld} (other : g.a ≠ (R.ETH_CNT.rx k).a) : (s.frameIn k).get g = s.get g := State.get_count_other _ _ _ _ other

theorem frameIn_haul : ∀ g : Fld, g.a < 8 * 0x3a00000 → (s.frameIn k).get g = s.get g := fun _ low => get_count_haul s k 1 (.inl rfl) low

theorem received_in : Received s (s.frameIn k) k :=
  ⟨counted_count .., rfl, fun _ other => State.get_count_other _ _ _ _ (other _ List.mem_cons_self)⟩

theorem received_drop : Received s ((s.frameIn k).count (R.ETH_CNT.drop k) 1) k ∧
    s.Counted ((s.frameIn k).count (R.ETH_CNT.drop k) 1) (R.ETH_CNT.drop k) 1 := by
  obtain ⟨-, rxDrop, -⟩ := eth_places k
  refine ⟨⟨(State.get_count_other _ _ _ _ rxDrop).trans (counted_count ..), rfl, fun g other => ?_⟩, ?_⟩
  · exact (State.get_count_other _ _ _ _ (other _ (by simp))).trans (frameIn_get s k (other _ (by simp)))
  · unfold State.Counted
    rw [State.get_count_same, frameIn_get s k rxDrop.symm]

theorem emit_facts (u : State) (o : Out) : (u.emit o).unported = u.unported ∧ (∀ g, (u.emit o).get g = u.get g) ∧ (u.emit o).out = o :: u.out :=
  ⟨rfl, fun _ => rfl, rfl⟩

theorem received_sent : let t := (s.frameIn k).count (R.ETH_CNT.tx k) 1
    Received s t k ∧ s.Counted t (R.ETH_CNT.tx k) 1 ∧ t.get (R.ETH_CNT.drop k) = s.get (R.ETH_CNT.drop k) ∧ t.out = s.out := by
  obtain ⟨rxTx, rxDrop, -, txDrop, -⟩ := eth_places k
  have tx : s.Counted ((s.frameIn k).count (R.ETH_CNT.tx k) 1) (R.ETH_CNT.tx k) 1 := by
    unfold State.Counted
    rw [State.get_count_same, frameIn_get s k rxTx.symm]
  refine ⟨⟨(State.get_count_other _ _ _ _ rxTx).trans (counted_count ..), rfl, fun g other => ?_⟩, tx, ?_, rfl⟩
  · exact (State.get_count_other _ _ _ _ (other _ (by simp))).trans (frameIn_get s k (other _ (by simp)))
  · exact (State.get_count_other _ _ _ _ txDrop.symm).trans (frameIn_get s k rxDrop.symm)

theorem received_reply (o : Out) : let t := ((s.frameIn k).count (R.ETH_CNT.tx k) 1).emit o
    Received s t k ∧ s.Counted t (R.ETH_CNT.tx k) 1 ∧ t.get (R.ETH_CNT.drop k) = s.get (R.ETH_CNT.drop k) ∧ t.out = o :: s.out := by
  obtain ⟨received, sent, drop, out⟩ := received_sent s k
  dsimp only
  generalize (s.frameIn k).count (R.ETH_CNT.tx k) 1 = u at *
  obtain ⟨rest, get, emitted⟩ := emit_facts u o
  exact ⟨⟨(get _).trans received.rx, rest.trans received.rest, fun g other => (get g).trans (received.regs g other)⟩, (get _).trans sent,
    (get _).trans drop, emitted.trans (congrArg _ out)⟩

/-- The pause of a port set. -/
def State.setPause (s : State) (k : Nat) (on : Bool) : State := { s with ethPause := KMap.put (fun _ => false) s.ethPause k on }

/-- What a cage has held back goes out. -/
def State.released (s : State) (n : Nat) : State :=
  { s with ethHeld := KMap.drop s.ethHeld n, out := (KMap.find (fun _ => []) s.ethHeld n).reverse ++ s.out }

theorem foldl_emit (s : State) (l : List Out) : l.foldl State.emit s = { s with out := l.reverse ++ s.out } := by
  induction l generalizing s with
  | nil => rfl
  | cons o l ih => rw [List.foldl_cons, ih, List.reverse_cons, List.append_assoc]; rfl

theorem ethRelease_eq (n : Nat) : s.ethRelease n = if s.cagePaused n then s else s.released n := by
  unfold State.ethRelease
  split
  · rfl
  · exact foldl_emit { s with ethHeld := KMap.drop s.ethHeld n } _

theorem released_paused (n j : Nat) : (s.released n).portPaused j = s.portPaused j ∧ (s.released n).cagePaused j = s.cagePaused j := ⟨rfl, rfl⟩

theorem setPause_portPaused (on : Bool) (j : Nat) : (s.setPause k on).portPaused j = (s.get (R.ETH_PORT.pfc_en j) == 1 && if j = k then on
    else KMap.find (fun _ => false) s.ethPause j) := by
  unfold State.portPaused State.setPause
  rw [KMap.find_put]
  rfl

/-- What a pause frame that is the port's own leaves. -/
theorem paused_facts (on : Bool) (enabled : s.get (R.ETH_PORT.pfc_en k) = 1) : let t := (s.setPause k on).ethRelease (k / 2)
    t.portPaused k = on ∧ (∀ j, j ≠ k → t.portPaused j = s.portPaused j) ∧ t.regs = s.regs ∧ t.unported = s.unported ∧
    (t.cagePaused (k / 2) = true → t.out = s.out ∧ t.ethHeld = s.ethHeld) ∧
    (t.cagePaused (k / 2) = false → t.out = (KMap.find (fun _ => []) s.ethHeld (k / 2)).reverse ++ s.out ∧
      KMap.find (fun _ => []) t.ethHeld (k / 2) = []) := by
  have own : (s.setPause k on).portPaused k = on := by
    rw [setPause_portPaused, if_pos rfl, enabled]
    rfl
  have others (j : Nat) (other : j ≠ k) : (s.setPause k on).portPaused j = s.portPaused j := by
    rw [setPause_portPaused, if_neg other]
    rfl
  have regs : (s.setPause k on).regs = s.regs := rfl
  have rest : (s.setPause k on).unported = s.unported := rfl
  have out : (s.setPause k on).out = s.out := rfl
  have held : (s.setPause k on).ethHeld = s.ethHeld := rfl
  rw [ethRelease_eq]
  generalize s.setPause k on = u at *
  dsimp only
  cases paused : u.cagePaused (k / 2) with
  | true =>
    rw [if_pos rfl, paused]
    exact ⟨own, others, regs, rest, fun _ => ⟨out, held⟩, nofun⟩
  | false =>
    rw [if_neg Bool.false_ne_true, (released_paused u (k / 2) (k / 2)).2, paused]
    refine ⟨own, others, regs, rest, nofun, fun _ => ⟨?_, ?_⟩⟩
    · rw [← held, ← out]
      rfl
    · exact (KMap.find_drop _ u.ethHeld (k / 2) (k / 2)).trans (if_pos rfl)

end

theorem received_pause (s : State) (k : Nat) (on : Bool) (enabled : s.get (R.ETH_PORT.pfc_en k) = 1) :
    let t := ((s.frameIn k).setPause k on).ethRelease (k / 2)
    Received s t k ∧ t.portPaused k = on ∧ (∀ j, j ≠ k → t.portPaused j = s.portPaused j) ∧ t.get (R.ETH_CNT.drop k) = s.get (R.ETH_CNT.drop k) ∧
    (t.cagePaused (k / 2) = true → t.out = s.out ∧ t.ethHeld = s.ethHeld) ∧
    (t.cagePaused (k / 2) = false → t.out = (KMap.find (fun _ => []) s.ethHeld (k / 2)).reverse ++ s.out ∧
      KMap.find (fun _ => []) t.ethHeld (k / 2) = []) := by
  obtain ⟨-, -, enPlace, -⟩ := eth_port_places k
  obtain ⟨-, rxDrop, -⟩ := eth_places k
  have received := received_in s k
  have drop := frameIn_get s k rxDrop.symm
  have ports (j : Nat) : (s.frameIn k).portPaused j = s.portPaused j := by
    have en : (s.frameIn k).get (R.ETH_PORT.pfc_en j) = s.get (R.ETH_PORT.pfc_en j) :=
      frameIn_get s k (by simp only [R.ETH_PORT.pfc_en, R.ETH_CNT.rx]; omega)
    rw [State.portPaused, en]
    rfl
  have out : (s.frameIn k).out = s.out := rfl
  have held : (s.frameIn k).ethHeld = s.ethHeld := rfl
  obtain ⟨own, others, regs, rest, paused, free⟩ := paused_facts (s.frameIn k) k on ((frameIn_get s k enPlace).trans enabled)
  dsimp only
  generalize ((s.frameIn k).setPause k on).ethRelease (k / 2) = t at *
  generalize s.frameIn k = u at *
  exact ⟨⟨(get_congr regs _).trans received.rx, rest.trans received.rest, fun g other => (get_congr regs g).trans (received.regs g other)⟩, own,
    fun j other => (others j other).trans (ports j), (get_congr regs _).trans drop,
    fun h => ⟨(paused h).1.trans out, (paused h).2.trans held⟩, fun h => ⟨by rw [(free h).1, held, out], (free h).2⟩⟩

theorem frameIn_answer (s : State) (k : Nat) (kind : EthKind) : (s.frameIn k).ethAnswer k kind = s.ethAnswer k kind ∧
    (s.frameIn k).ethTaken k kind = s.ethTaken k kind := by
  obtain ⟨-, vlanPlace, -⟩ := eth_port_places k
  have haul := frameIn_haul s k
  have addrs : (s.frameIn k).portAddrs k = s.portAddrs k := portAddrs_same haul rfl k
  have vlan := frameIn_get s k vlanPlace
  have macs : (s.frameIn k).mfg = s.mfg := rfl
  have reply (n : Nat) (m : BitVec 48) (a b d : List Byte) : (s.frameIn k).ethReply k n m a b d = s.ethReply k n m a b d := by
    rw [State.ethReply, State.ethReply, addrs, vlan, macs]
  constructor
  · cases kind with
    | arp m a b => exact reply ..
    | solicit m a b => exact reply ..
    | echo m a b d => exact reply ..
    | conn | pfc | fragment | other => rfl
  · cases kind with
    | conn j => exact connHere_same haul k j.isLt
    | arp | solicit | echo | pfc | fragment | other => rfl

/-- What a frame leads to that is the port's own by its length and VLAN. -/
def State.frameOwn (s : State) (k : Nat) (kind : EthKind) : State :=
  match s.ethAnswer k kind with
  | some o => ((s.frameIn k).count (R.ETH_CNT.tx k) 1).emit o
  | none => if s.ethTaken k kind then s.frameIn k else (s.frameIn k).count (R.ETH_CNT.drop k) 1

/-- A frame that is no pause frame. -/
def plainKind : EthKind → Bool
  | .pfc _ _ => false
  | _ => true

section
variable {s : State} {k : Fin 24} (port : s.ethMode k.val = true) (len : BitVec 14) (vlan : BitVec 12)
include port

theorem exec_ethPause (prio : BitVec 3) (on : Bool) : exec (.ethFrameReceive k len vlan (.pfc prio on)) s = .next (
    if s.get (R.ETH_PORT.pfc_en k.val) = 1 ∧ prio.toNat = s.get (R.ETH_PORT.pcp k.val) then
      ((s.frameIn k.val).setPause k.val on).ethRelease (k.val / 2)
    else (s.frameIn k.val).count (R.ETH_CNT.drop k.val) 1) := by
  obtain ⟨-, -, enPlace, pcpPlace⟩ := eth_port_places k.val
  have run : exec (.ethFrameReceive k len vlan (.pfc prio on)) s = .next (
      if (s.frameIn k.val).flag (R.ETH_PORT.pfc_en k.val) ∧ prio.toNat = (s.frameIn k.val).get (R.ETH_PORT.pcp k.val) then
        ((s.frameIn k.val).setPause k.val on).ethRelease (k.val / 2)
      else (s.frameIn k.val).count (R.ETH_CNT.drop k.val) 1) := congrArg Host.Outcome.next (if_pos port)
  have en : ((s.frameIn k.val).flag (R.ETH_PORT.pfc_en k.val) = true) ↔ s.get (R.ETH_PORT.pfc_en k.val) = 1 := by
    rw [flag_iff, frameIn_get s _ enPlace]
  simp only [run, en, frameIn_get s _ pcpPlace]

theorem exec_ethPlain {kind : EthKind} (plain : plainKind kind = true) : exec (.ethFrameReceive k len vlan kind) s = .next (
    if len.toNat ≤ s.get (R.ETH_PORT.mtu k.val) ∧ vlan.toNat = s.get (R.ETH_PORT.vlan k.val) then s.frameOwn k.val kind
    else (s.frameIn k.val).count (R.ETH_CNT.drop k.val) 1) := by
  obtain ⟨mtuPlace, vlanPlace, -⟩ := eth_port_places k.val
  have run : exec (.ethFrameReceive k len vlan kind) s = .next (
      if (s.frameIn k.val).get (R.ETH_PORT.mtu k.val) < len.toNat ∨ vlan.toNat ≠ (s.frameIn k.val).get (R.ETH_PORT.vlan k.val) then
        (s.frameIn k.val).count (R.ETH_CNT.drop k.val) 1
      else match (s.frameIn k.val).ethAnswer k.val kind with
        | some o => ((s.frameIn k.val).count (R.ETH_CNT.tx k.val) 1).emit o
        | none => if (s.frameIn k.val).ethTaken k.val kind then s.frameIn k.val else (s.frameIn k.val).count (R.ETH_CNT.drop k.val) 1) := by
    refine congrArg Host.Outcome.next ((if_pos port).trans ?_)
    cases kind with
    | pfc => exact nomatch plain
    | arp | solicit | echo | conn | fragment | other => rfl
  rw [run, frameIn_get s _ mtuPlace, frameIn_get s _ vlanPlace, (frameIn_answer s k.val kind).1, (frameIn_answer s k.val kind).2]
  by_cases own : len.toNat ≤ s.get (R.ETH_PORT.mtu k.val) ∧ vlan.toNat = s.get (R.ETH_PORT.vlan k.val)
  · rw [if_pos own, if_neg (by omega)]
    rfl
  · rw [if_neg own, if_pos (by omega)]

end

/-! ### Queue pairs -/

/-- A congestion notification counted. -/
def State.cnpIn (s : State) (k : Nat) : State := (s.frameIn k).count (R.ETH_CNT.cnp k) 1

/-- The rate of a queue pair replaced. -/
def State.setRate (s : State) (q : EthQp) (r : Nat × Nat) : State := { s with ethRate := KMap.put (fun _ => (1, 0)) s.ethRate (qpKey q) r }

theorem qpKey_ne {q j : EthQp} (other : j ≠ q) : qpKey j ≠ qpKey q := by
  intro same
  have one := j.queue.isLt
  have two := q.queue.isLt
  unfold qpKey at same
  obtain ⟨src, queue⟩ := j
  obtain ⟨src', queue'⟩ := q
  exact other (by simp only [EthQp.mk.injEq, Fin.ext_iff]; dsimp only at same one two; omega)

theorem setRate_rate (s : State) (q j : EthQp) (r : Nat × Nat) : (s.setRate q r).rate j = if j = q then r else s.rate j := by
  unfold State.rate State.setRate
  dsimp only
  rw [KMap.find_put]
  by_cases same : j = q
  · rw [if_pos same, if_pos (congrArg qpKey same)]
  · rw [if_neg same, if_neg (qpKey_ne same)]

theorem cnpIn_facts (s : State) (k : Nat) : s.Counted (s.cnpIn k) (R.ETH_CNT.rx k) 1 ∧ s.Counted (s.cnpIn k) (R.ETH_CNT.cnp k) 1 ∧
    (s.cnpIn k).get (R.ETH_CNT.drop k) = s.get (R.ETH_CNT.drop k) ∧ { s.cnpIn k with regs := s.regs } = s ∧
    SameRegsBut s (s.cnpIn k) [R.ETH_CNT.rx k, R.ETH_CNT.cnp k] := by
  obtain ⟨-, rxDrop, rxCnp, -, cnpDrop⟩ := eth_places k
  have cnp : s.Counted (s.cnpIn k) (R.ETH_CNT.cnp k) 1 := by
    unfold State.Counted State.cnpIn
    rw [State.get_count_same, frameIn_get s k rxCnp.symm]
  refine ⟨(State.get_count_other _ _ _ _ rxCnp).trans (counted_count ..), cnp,
    (State.get_count_other _ _ _ _ cnpDrop.symm).trans (frameIn_get s k rxDrop.symm), rfl, fun g other => ?_⟩
  exact (State.get_count_other _ _ _ _ (other _ (by simp))).trans (frameIn_get s k (other _ (by simp)))

/-! ## The links between landing dies (R417, R418) -/

/-- Nothing of the state differs but registers, the ends in training, the resends counted, and what has been sent. -/
def State.unspined (s : State) : State := { s with regs := [], spn := [], spnBurst := [], out := [] }

theorem rest_of_unspined {s t : State} (same : t.unspined = s.unspined) :
    { t with regs := s.regs, spn := s.spn, spnBurst := s.spnBurst, out := s.out } = s :=
  (congrArg (fun u : State => { u with regs := s.regs, spn := s.spn, spnBurst := s.spnBurst, out := s.out }) same :)

theorem sameMem_of_unspined {s t : State} (same : t.unspined = s.unspined) : SameMem s t :=
  sameMem_of_eq (congrArg State.mem same :) (congrArg State.bad same :) (congrArg State.plist same :) (congrArg State.linkErr same :)

theorem setSpn_unspined (s : State) (i : Nat) (hi : Bool) (x : SpnEnd) : (s.setSpn i hi x).unspined = s.unspined := rfl

theorem emit_unspined (s : State) (o : Out) : (s.emit o).unspined = s.unspined := rfl

theorem put_unspined (s : State) (f : Fld) (v : Nat) : (s.put f v).unspined = s.unspined := rfl

theorem unspined_of_puts (s : State) (l : List (Fld × Nat)) : (s.puts l).unspined = s.unspined :=
  (congrArg State.unspined (puts_rest s l) :)

theorem out_of_puts (s : State) (l : List (Fld × Nat)) : (s.puts l).out = s.out := (congrArg State.out (puts_rest s l) :)

theorem setSpn_out (s : State) (i : Nat) (hi : Bool) (x : SpnEnd) : (s.setSpn i hi x).out = s.out := rfl

theorem spnEnd_setSpn (s : State) (i : Nat) (hi : Bool) (x : SpnEnd) : (s.setSpn i hi x).spnEnd i hi = x := by
  unfold State.spnEnd State.setSpn
  exact (KMap.find_put ..).trans (if_pos rfl)

theorem spnKey_not (i : Nat) (hi : Bool) : spnKey i (!hi) ≠ spnKey i hi := by
  cases hi <;> simp [spnKey, b2n]

theorem spnEnd_setSpn_not (s : State) (i : Nat) (hi : Bool) (x : SpnEnd) : (s.setSpn i hi x).spnEnd i (!hi) = s.spnEnd i (!hi) := by
  unfold State.spnEnd State.setSpn
  exact (KMap.find_put ..).trans (if_neg (spnKey_not i hi))

theorem spnEnd_put (s : State) (i : Nat) (hi : Bool) (f : Fld) (v : Nat) : (s.put f v).spnEnd i hi = s.spnEnd i hi := rfl

theorem setSpn_get (s : State) (i : Nat) (hi : Bool) (x : SpnEnd) (g : Fld) : (s.setSpn i hi x).get g = s.get g := rfl

theorem spnSendClaim_eq (s : State) (i : Nat) (hi : Bool) : s.spnSendClaim i hi =
    s.emit (.flit i 0 [b2n hi, (s.spnEnd i hi).round, (s.spnEnd i hi).mask, s.get (epochFld i hi)]) := rfl

theorem emit_spnEnd (s : State) (o : Out) (i : Nat) (hi : Bool) : (s.emit o).spnEnd i hi = s.spnEnd i hi := rfl

/-- The end after a round that has failed. -/
def SpnEnd.narrowed (x : SpnEnd) (peer : Nat) : SpnEnd :=
  { x with round := x.round + 1, mask := if x.round = 3 then lowestQuarter (x.mask &&& peer) else x.mask &&& peer, peer := none }

/-- The state with the rounds of the training noted. -/
def State.roundNoted (s : State) (i : Nat) (hi : Bool) : State :=
  s.put (R.SPN_LINK.rounds i) (max (s.get (R.SPN_LINK.rounds i)) (min (s.spnEnd i hi).round 3))

theorem spnFail_eq (s : State) (i : Nat) (hi : Bool) (peer : Nat) : s.spnFail i hi peer =
    if 4 ≤ (s.spnEnd i hi).round then (s.roundNoted i hi).spnLose i
    else ((s.roundNoted i hi).setSpn i hi ((s.spnEnd i hi).narrowed peer)).spnSendClaim i hi := rfl

/-- A round that fails before the fourth. -/
theorem spnFail_narrows (s : State) {i : Nat} {hi : Bool} (peer : Nat) (more : (s.spnEnd i hi).round < 4) : let t := s.spnFail i hi peer
    SameMem s t ∧ { t with regs := s.regs, spn := s.spn, spnBurst := s.spnBurst, out := s.out } = s ∧
      t.spnEnd i hi = (s.spnEnd i hi).narrowed peer := by
  have rest : (s.spnFail i hi peer).unspined = s.unspined := by
    rw [spnFail_eq, if_neg (not_le.2 more), spnSendClaim_eq]
    exact (emit_unspined ..).trans ((setSpn_unspined ..).trans (put_unspined ..))
  refine ⟨sameMem_of_unspined rest, rest_of_unspined rest, ?_⟩
  rw [spnFail_eq, if_neg (not_le.2 more), spnSendClaim_eq, emit_spnEnd, spnEnd_setSpn]

/-! ### A link is lost, or settles -/

theorem reroute_unrouted (s : State) (i : Nat) : (s.reroute i).unrouted = s.unrouted := by
  refine foldl_keeps State.unrouted _ (fun s p => ?_) _ s
  split
  · exact (flits_unrouted ..).trans rfl
  · rfl

theorem spn_untold {g : Fld} (low : 8 * 0x170000 ≤ g.a) (high : g.a < 8 * 0x180000) : Untold g ∧ Unlogged g ∧
    ∀ p ∈ fatalFields E.LINK_FATAL, g.a ≠ p.1.a := by
  refine ⟨⟨fun c lt => ?_, ?_⟩, ⟨?_, ?_, ?_, ?_⟩, fun p mem => ?_⟩
  · simp only [R.CTX_EVT.events]
    omega
  · simp only [R.RAS_STAT.supp]
    omega
  · simp only [R.RAS_LOGHD.newest]
    omega
  · simp only [R.RAS_LOGHD.lost]
    omega
  · simp only [R.RAS_STAT.new]
    omega
  · omega
  · simp only [fatalFields, List.mem_cons, List.not_mem_nil, or_false] at mem
    rcases mem with rfl | rfl | rfl | rfl <;>
      simp only [R.RAS_STAT.fatal, R.RAS_STAT.code, R.HOST_STAT.error, R.MOD_ALERT.fatal] <;> omega

/-- The fields of a lost link. -/
def lostFields (i : Nat) : List (Fld × Nat) := [(R.SPN_LINK.state i, 3), (R.SPN_LINK.width i, 0), (R.SPN_LINK.mask i, 0)]

theorem lostFields_nodup (i : Nat) : ((lostFields i).map fun p => p.1.a).Nodup := by
  simp only [lostFields, List.map_cons, List.map_nil, List.nodup_cons, List.mem_cons, List.not_mem_nil, or_false, not_or, not_false_eq_true,
    List.nodup_nil, and_true, R.SPN_LINK.state, R.SPN_LINK.width, R.SPN_LINK.mask]
  omega

theorem spnLose_get (s : State) (i : Nat) {g : Fld} (low : 8 * 0x170000 ≤ g.a) (high : g.a < 8 * 0x180000) :
    (s.spnLose i).get g = (((s.setSpn i false SpnEnd.empty).setSpn i true SpnEnd.empty).puts (lostFields i)).get g := by
  have drop (u : State) : (u.dropFlits i).get g = u.get g := rfl
  obtain ⟨told, log, others⟩ := spn_untold low high
  unfold State.spnLose
  dsimp only
  split
  · exact (fatal_get _ _ _ _ told log others).trans (drop _)
  · exact (get_of_unrouted (reroute_unrouted _ i) g).trans (drop _)

theorem spnLose_facts (s : State) {i : Nat} (small : i < 4) : (s.spnLose i).get (R.SPN_LINK.state i) = 3 ∧
    (s.spnLose i).get (R.SPN_LINK.width i) = 0 ∧ (s.spnLose i).get (R.SPN_LINK.mask i) = 0 := by
  have put {p : Fld × Nat} (mem : p ∈ lostFields i) (low : 8 * 0x170000 ≤ p.1.a) (high : p.1.a < 8 * 0x180000) :
      (s.spnLose i).get p.1 = p.2 % 2 ^ p.1.w :=
    (spnLose_get s i low high).trans (puts_get_of_nodup _ (lostFields_nodup i) mem)
  refine ⟨put (p := (R.SPN_LINK.state i, 3)) (by simp [lostFields]) ?_ ?_, put (p := (R.SPN_LINK.width i, 0)) (by simp [lostFields]) ?_ ?_,
    put (p := (R.SPN_LINK.mask i, 0)) (by simp [lostFields]) ?_ ?_⟩ <;>
    simp only [R.SPN_LINK.state, R.SPN_LINK.width, R.SPN_LINK.mask] <;> omega

/-- The fields of a link that is up. -/
def upFields (i mask : Nat) : List (Fld × Nat) := [(R.SPN_LINK.state i, 2), (R.SPN_LINK.mask i, mask), (R.SPN_LINK.width i, popcount4 mask)]

theorem upFields_nodup (i mask : Nat) : ((upFields i mask).map fun p => p.1.a).Nodup := by
  simp only [upFields, List.map_cons, List.map_nil, List.nodup_cons, List.mem_cons, List.not_mem_nil, or_false, not_or, not_false_eq_true,
    List.nodup_nil, and_true, R.SPN_LINK.state, R.SPN_LINK.width, R.SPN_LINK.mask]
  omega

/-- The state of a link that has settled, before a narrow one is logged. -/
def State.spnUp (s : State) (i mask : Nat) : State :=
  (((s.setSpn i false SpnEnd.empty).setSpn i true SpnEnd.empty).puts (upFields i mask)).count (R.SPN_LINK.trains i) 1

theorem spnSettle_eq (s : State) (i mask : Nat) : s.spnSettle i mask = if popcount4 mask = 0 then (s.spnUp i mask).spnLose i
    else if popcount4 mask < 4 then (s.spnUp i mask).raise E.LINK_WIDTH_DEGRADED none (atLd (spnDie i false)) mask else s.spnUp i mask := rfl

theorem spnUp_facts (s : State) (i mask : Nat) : (s.spnUp i mask).get (R.SPN_LINK.state i) = 2 ∧
    (s.spnUp i mask).get (R.SPN_LINK.mask i) = mask % 2 ^ 4 ∧ (s.spnUp i mask).get (R.SPN_LINK.width i) = popcount4 mask % 2 ^ 3 ∧
    s.Counted (s.spnUp i mask) (R.SPN_LINK.trains i) 1 ∧ SameMem s (s.spnUp i mask) ∧ (s.spnUp i mask).seqs = s.seqs := by
  have put {p : Fld × Nat} (mem : p ∈ upFields i mask) (apart : p.1.a ≠ (R.SPN_LINK.trains i).a) : (s.spnUp i mask).get p.1 = p.2 % 2 ^ p.1.w :=
    (State.get_count_other _ _ _ _ apart).trans (puts_get_of_nodup _ (upFields_nodup i mask) mem)
  have trains : (((s.setSpn i false SpnEnd.empty).setSpn i true SpnEnd.empty).puts (upFields i mask)).get (R.SPN_LINK.trains i) =
      s.get (R.SPN_LINK.trains i) := by
    refine (puts_get_other _ fun p mem => ?_).trans rfl
    simp only [upFields, List.mem_cons, List.not_mem_nil, or_false] at mem
    rcases mem with rfl | rfl | rfl <;> simp only [R.SPN_LINK.trains, R.SPN_LINK.state, R.SPN_LINK.mask, R.SPN_LINK.width] <;> omega
  have rest : (s.spnUp i mask).unspined = s.unspined := by
    have puts := unspined_of_puts ((s.setSpn i false SpnEnd.empty).setSpn i true SpnEnd.empty) (upFields i mask)
    exact (put_unspined ..).trans (puts.trans ((setSpn_unspined ..).trans (setSpn_unspined ..)))
  refine ⟨put (p := (R.SPN_LINK.state i, 2)) (by simp [upFields]) ?_, put (p := (R.SPN_LINK.mask i, mask)) (by simp [upFields]) ?_,
    put (p := (R.SPN_LINK.width i, popcount4 mask)) (by simp [upFields]) ?_, ?_, sameMem_of_unspined rest, (congrArg State.seqs rest :)⟩
  · simp only [R.SPN_LINK.state, R.SPN_LINK.trains]
    omega
  · simp only [R.SPN_LINK.mask, R.SPN_LINK.trains]
    omega
  · simp only [R.SPN_LINK.width, R.SPN_LINK.trains]
    omega
  · unfold State.Counted State.spnUp
    rw [State.get_count_same, trains]

theorem popcount4_bounds {m : Nat} (some : 0 < m) (small : m < 16) : 0 < popcount4 m ∧ popcount4 m < 8 := by
  interval_cases m <;> decide

theorem spnSettle_facts (s : State) {i mask : Nat} (link : i < 4) (some : 0 < mask) (small : mask < 16) : let t := s.spnSettle i mask
    t.get (R.SPN_LINK.state i) = 2 ∧ t.get (R.SPN_LINK.mask i) = mask ∧ t.get (R.SPN_LINK.width i) = popcount4 mask ∧
      s.Counted t (R.SPN_LINK.trains i) 1 ∧ SameMem s t ∧ t.seqs = s.seqs := by
  obtain ⟨state, masks, width, trains, mem, seqs⟩ := spnUp_facts s i mask
  obtain ⟨pos, lt⟩ := popcount4_bounds some small
  replace masks := masks.trans (Nat.mod_eq_of_lt small)
  replace width := width.trans (Nat.mod_eq_of_lt lt)
  dsimp only
  rw [spnSettle_eq, if_neg (by omega)]
  split
  · have keep {g : Fld} (low : g.a < 8 * 0x3e00000) := raise_get (s.spnUp i mask) (code := E.LINK_WIDTH_DEGRADED) (ctx := none)
      (w := atLd (spnDie i false)) (detail := mask) low
    have same := raise_unlogged (s.spnUp i mask) E.LINK_WIDTH_DEGRADED none (atLd (spnDie i false)) mask
    refine ⟨(keep ?_).trans state, (keep ?_).trans masks, (keep ?_).trans width, (keep ?_).trans trains, mem.trans (sameMem_of_unlogged same),
      (seqs_of_unlogged same).trans seqs⟩ <;>
      simp only [R.SPN_LINK.state, R.SPN_LINK.mask, R.SPN_LINK.width, R.SPN_LINK.trains] <;> omega
  · exact ⟨state, masks, width, trains, mem, seqs⟩

/-! ### Training starts -/

/-- The link of a training that starts anew. -/
def freshFields (i : Nat) : List (Fld × Nat) :=
  [(R.SPN_LINK.state i, 1), (R.SPN_LINK.rounds i, 0), (R.SPN_LINK.width i, 0), (R.SPN_LINK.mask i, 0)]

/-- The resends of the last microsecond replaced. -/
def State.setBurst (s : State) (b : KMap (List Nat)) : State := { s with spnBurst := b }

theorem setBurst_eq (s : State) (b : KMap (List Nat)) : ({ s with spnBurst := b } : State) = s.setBurst b := rfl

theorem setBurst_get (s : State) (b : KMap (List Nat)) (g : Fld) : (s.setBurst b).get g = s.get g := rfl

theorem setBurst_unspined (s : State) (b : KMap (List Nat)) : (s.setBurst b).unspined = s.unspined := rfl

theorem setBurst_out (s : State) (b : KMap (List Nat)) : (s.setBurst b).out = s.out := rfl

/-- The state in which a training starts anew. -/
def State.spnFresh (s : State) (i : Nat) (hi : Bool) : State :=
  ((s.setSpn i (!hi) SpnEnd.empty).puts (freshFields i)).setBurst (KMap.drop s.spnBurst i)

/-- The epoch of an end risen. -/
def State.epochUp (s : State) (i : Nat) (hi : Bool) : State := s.put (epochFld i hi) (s.get (epochFld i hi) + 1)

theorem freshFields_nodup (i : Nat) : ((freshFields i).map fun p => p.1.a).Nodup := by
  simp only [freshFields, List.map_cons, List.map_nil, List.nodup_cons, List.mem_cons, List.not_mem_nil, or_false, not_or, not_false_eq_true,
    List.nodup_nil, and_true, R.SPN_LINK.state, R.SPN_LINK.rounds, R.SPN_LINK.width, R.SPN_LINK.mask]
  omega

theorem epoch_apart (i : Nat) (hi : Bool) : (∀ p ∈ freshFields i, (epochFld i hi).a ≠ p.1.a) ∧ (epochFld i hi).w = 32 := by
  cases hi <;> refine ⟨fun p mem => ?_, rfl⟩ <;> simp only [freshFields, List.mem_cons, List.not_mem_nil, or_false] at mem <;>
    rcases mem with rfl | rfl | rfl | rfl <;>
    simp only [epochFld, R.SPN_LINK.epoch, R.SPN_LINK.epoch_hi, R.SPN_LINK.state, R.SPN_LINK.rounds, R.SPN_LINK.width, R.SPN_LINK.mask, if_true,
      Bool.false_eq_true, if_false] <;> omega

theorem spnFresh_unspined (s : State) (i : Nat) (hi : Bool) : (s.spnFresh i hi).unspined = s.unspined :=
  (setBurst_unspined ..).trans ((unspined_of_puts ..).trans (setSpn_unspined ..))

theorem spnFresh_get (s : State) (i : Nat) (hi : Bool) {g : Fld} (apart : ∀ p ∈ freshFields i, g.a ≠ p.1.a) : (s.spnFresh i hi).get g = s.get g :=
  (setBurst_get ..).trans ((puts_get_other _ apart).trans (setSpn_get ..))

theorem spnFresh_state (s : State) (i : Nat) (hi : Bool) : (s.spnFresh i hi).get (R.SPN_LINK.state i) = 1 :=
  (setBurst_get ..).trans (puts_get_of_nodup _ (freshFields_nodup i) (p := (R.SPN_LINK.state i, 1)) (by simp [freshFields]))

theorem spnFresh_eq (s : State) (i : Nat) (hi : Bool) : ({ (s.setSpn i (!hi) SpnEnd.empty).puts [(R.SPN_LINK.state i, 1), (R.SPN_LINK.rounds i, 0),
    (R.SPN_LINK.width i, 0), (R.SPN_LINK.mask i, 0)] with spnBurst := KMap.drop s.spnBurst i } : State) = s.spnFresh i hi :=
  setBurst_eq ((s.setSpn i (!hi) SpnEnd.empty).puts (freshFields i)) (KMap.drop s.spnBurst i)

/-- The epoch rises and round 1 begins. -/
def State.roundOne (s : State) (i : Nat) (hi : Bool) (mask : Nat) : State := ((s.put (epochFld i hi) (s.get (epochFld i hi) + 1)).setSpn i hi
    { busy := true, round := 1, mask := mask, peer := none, agreed := false }).spnSendClaim i hi

theorem roundOne_eq (s : State) (i : Nat) (hi : Bool) (mask : Nat) :
    s.roundOne i hi mask = ((s.epochUp i hi).setSpn i hi ⟨true, 1, mask, none, false⟩).spnSendClaim i hi := rfl

/-- The state in which round 1 of a training begins. -/
def State.trainReady (s : State) (i : Nat) (hi : Bool) : State :=
  if s.get (R.SPN_LINK.state i) = 1 then s
  else { (s.setSpn i (!hi) SpnEnd.empty).puts [(R.SPN_LINK.state i, 1), (R.SPN_LINK.rounds i, 0), (R.SPN_LINK.width i, 0), (R.SPN_LINK.mask i, 0)]
    with spnBurst := KMap.drop s.spnBurst i }

theorem trainReady_eq {s : State} {i : Nat} (hi : Bool) (idle : s.get (R.SPN_LINK.state i) = 0) : s.trainReady i hi = s.spnFresh i hi :=
  (if_neg (by omega)).trans (spnFresh_eq ..)

theorem exec_spnTraining {s : State} {l : Fin 4} {hi : Bool} {mask : BitVec 4} (here : s.halfDead (spnHalf l.val hi) = false)
    (there : s.halfDead (spnHalf l.val (!hi)) = false) (idle : s.get (R.SPN_LINK.state l.val) = 0) :
    exec (.spnTrainingStart l hi mask) s = .next ((s.trainReady l.val hi).roundOne l.val hi mask.toNat) := by
  have half : ¬(s.halfDead (spnHalf l.val hi) || s.halfDead (spnHalf l.val (!hi))) = true := by rw [here, there]; decide
  exact congrArg Host.Outcome.next ((if_neg half).trans (if_pos (.inl idle)))

theorem claim_facts (u : State) (i : Nat) (hi : Bool) (x : SpnEnd) (o : Out) : (∀ g, ((u.setSpn i hi x).emit o).get g = u.get g) ∧
    ((u.setSpn i hi x).emit o).out = o :: u.out := ⟨fun _ => rfl, rfl⟩

theorem training_facts (s : State) (i : Nat) (hi : Bool) (mask : Nat) :
    let t := (s.spnFresh i hi).roundOne i hi mask
    t.get (R.SPN_LINK.state i) = 1 ∧ t.get (epochFld i hi) = (s.get (epochFld i hi) + 1) % 2 ^ 32 ∧ t.spnEnd i hi = ⟨true, 1, mask, none, false⟩ ∧
      t.unspined = s.unspined ∧ SameRegsBut s t [R.SPN_LINK.state i, R.SPN_LINK.rounds i, R.SPN_LINK.width i, R.SPN_LINK.mask i, epochFld i hi] ∧
      t.out = .flit i 0 [b2n hi, 1, mask, (s.get (epochFld i hi) + 1) % 2 ^ 32] :: s.out := by
  obtain ⟨apart, width⟩ := epoch_apart i hi
  have epoch : ((s.spnFresh i hi).epochUp i hi).get (epochFld i hi) = (s.get (epochFld i hi) + 1) % 2 ^ 32 := by
    unfold State.epochUp
    rw [State.get_put_same, spnFresh_get s i hi apart, width]
  have other {g : Fld} (not : g.a ≠ (epochFld i hi).a) : ((s.spnFresh i hi).epochUp i hi).get g = (s.spnFresh i hi).get g :=
    State.get_put_other _ _ _ _ not
  have state : ((s.spnFresh i hi).epochUp i hi).get (R.SPN_LINK.state i) = 1 :=
    (other (apart (R.SPN_LINK.state i, 1) (by simp [freshFields])).symm).trans (spnFresh_state s i hi)
  have rest : ((s.spnFresh i hi).epochUp i hi).unspined = s.unspined := (put_unspined ..).trans (spnFresh_unspined ..)
  have regs (g : Fld) (not : ∀ f ∈ [R.SPN_LINK.state i, R.SPN_LINK.rounds i, R.SPN_LINK.width i, R.SPN_LINK.mask i, epochFld i hi], g.a ≠ f.a) :
      ((s.spnFresh i hi).epochUp i hi).get g = s.get g := by
    refine (other (not _ (by simp))).trans (spnFresh_get s i hi fun p mem => ?_)
    simp only [freshFields, List.mem_cons, List.not_mem_nil, or_false] at mem
    rcases mem with rfl | rfl | rfl | rfl <;> exact not _ (by simp)
  have out : ((s.spnFresh i hi).epochUp i hi).out = s.out :=
    (State.put_out ..).trans ((setBurst_out ..).trans ((out_of_puts ..).trans (setSpn_out ..)))
  dsimp only
  rw [roundOne_eq]
  generalize (s.spnFresh i hi).epochUp i hi = u at *
  rw [spnSendClaim_eq, spnEnd_setSpn, setSpn_get, epoch]
  obtain ⟨get, emitted⟩ := claim_facts u i hi ⟨true, 1, mask, none, false⟩ (.flit i 0 [b2n hi, 1, mask, (s.get (epochFld i hi) + 1) % 2 ^ 32])
  exact ⟨(get _).trans state, (get _).trans epoch, (emit_spnEnd ..).trans (spnEnd_setSpn ..), (emit_unspined ..).trans ((setSpn_unspined ..).trans rest),
    fun g other => (get g).trans (regs g other), emitted.trans (congrArg _ out)⟩

/-! ### Flits -/

/-- The resends of the last microsecond with `n` more. -/
def State.burstMore (s : State) (i n : Nat) : KMap (List Nat) :=
  KMap.put (fun _ => []) s.spnBurst i (List.replicate n s.now ++ (KMap.find (fun _ => []) s.spnBurst i).filter (fun t => decide (s.now < t + 1400)))

/-- The resends counted. -/
def State.resent (s : State) (i n : Nat) : State := (s.setBurst (s.burstMore i n)).count (R.SPN_LINK.resend i) n

theorem resent_facts (s : State) (i n : Nat) : s.Counted (s.resent i n) (R.SPN_LINK.resend i) n ∧
    (s.resent i n).unspined = s.unspined ∧ SameRegsBut s (s.resent i n) [R.SPN_LINK.resend i] ∧ (s.resent i n).out = s.out := by
  have rest := setBurst_unspined s (s.burstMore i n)
  have get := setBurst_get s (s.burstMore i n)
  have out := setBurst_out s (s.burstMore i n)
  unfold State.resent
  generalize s.setBurst (s.burstMore i n) = u at *
  have counted : s.Counted (u.count (R.SPN_LINK.resend i) n) (R.SPN_LINK.resend i) n := by
    unfold State.Counted
    rw [State.get_count_same, get]
  exact ⟨counted, rest, fun g other => (State.get_count_other _ _ _ _ (other _ List.mem_cons_self)).trans (get g), out⟩

theorem exec_flitBad {s : State} {l : Fin 4} {hi : Bool} (up : s.get (R.SPN_LINK.state l.val) = 2) :
    exec (.spnFlitReceive l hi false) s = .next (if s.flitsDue l.val hi = [] then
        (s.resent l.val (max 1 (s.flitsDue l.val hi).length)).emit (.flit l.val 2 [b2n hi])
      else (s.flitsDue l.val hi).foldl (fun s f => s.emit (.flit l.val 2 [b2n hi, f.1, f.2.1, f.2.2]))
        (s.resent l.val (max 1 (s.flitsDue l.val hi).length))) :=
  congrArg Host.Outcome.next ((if_neg (not_not.2 up)).trans (if_neg Bool.false_ne_true))

/-! ### The frames of each kind -/

theorem dropped_out (s : State) (k : Nat) : ((s.frameIn k).count (R.ETH_CNT.drop k) 1).out = s.out := rfl

theorem frameIn_out (s : State) (k : Nat) : (s.frameIn k).out = s.out := rfl

section
variable {s : State} {k : Fin 24} (port : s.ethMode k.val = true) (len : BitVec 14) (vlan : BitVec 12) {kind : EthKind} (plain : plainKind kind = true)
include port plain

/-- A request that is answered when it is for one of the port's addresses. -/
theorem request_frame {dst : List Byte} {o : Out} (taken : s.ethTaken k.val kind = false)
    (answer : s.ethAnswer k.val kind = if (s.portAddrs k.val).contains dst then some o else none) : ∃ t,
    exec (.ethFrameReceive k len vlan kind) s = .next t ∧ Received s t k.val ∧
    if decide (len.toNat ≤ s.get (R.ETH_PORT.mtu k.val) ∧ vlan.toNat = s.get (R.ETH_PORT.vlan k.val)) = true ∧ dst ∈ s.portAddrs k.val then
      s.Counted t (R.ETH_CNT.tx k.val) 1 ∧ t.get (R.ETH_CNT.drop k.val) = s.get (R.ETH_CNT.drop k.val) ∧ t.out = o :: s.out
    else s.Counted t (R.ETH_CNT.drop k.val) 1 ∧ t.out = s.out := by
  obtain ⟨dropped, count⟩ := received_drop s k.val
  rw [exec_ethPlain port len vlan plain]
  by_cases mine : len.toNat ≤ s.get (R.ETH_PORT.mtu k.val) ∧ vlan.toNat = s.get (R.ETH_PORT.vlan k.val)
  · rw [if_pos mine, State.frameOwn, answer, taken]
    by_cases own : dst ∈ s.portAddrs k.val
    · have inside : (s.portAddrs k.val).contains dst = true := List.contains_iff_mem.2 own
      obtain ⟨received, sent⟩ := received_reply s k.val o
      rw [if_pos inside]
      exact ⟨_, rfl, received, by rw [if_pos ⟨decide_eq_true mine, own⟩]; exact sent⟩
    · have outside : ¬(s.portAddrs k.val).contains dst = true := fun inside => own (List.contains_iff_mem.1 inside)
      rw [if_neg outside]
      exact ⟨_, rfl, dropped, by rw [if_neg fun h => own h.2]; exact ⟨count, dropped_out s k.val⟩⟩
  · rw [if_neg mine]
    exact ⟨_, rfl, dropped, by rw [if_neg fun h => mine (of_decide_eq_true h.1)]; exact ⟨count, dropped_out s k.val⟩⟩

/-- A frame that is none. -/
theorem other_frame (taken : s.ethTaken k.val kind = false) (answer : s.ethAnswer k.val kind = none) : ∃ t,
    exec (.ethFrameReceive k len vlan kind) s = .next t ∧ Received s t k.val ∧ s.Counted t (R.ETH_CNT.drop k.val) 1 ∧ t.out = s.out := by
  obtain ⟨dropped, count⟩ := received_drop s k.val
  refine ⟨_, exec_ethPlain port len vlan plain, ?_⟩
  rw [State.frameOwn, answer, taken]
  split <;> exact ⟨dropped, count, dropped_out s k.val⟩

end

theorem conn_frame {s : State} {k : Fin 24} (port : s.ethMode k.val = true) (len : BitVec 14) (vlan : BitVec 12) (j : Fin 64) : ∃ t,
    exec (.ethFrameReceive k len vlan (.conn j)) s = .next t ∧ Received s t k.val ∧
    if decide (len.toNat ≤ s.get (R.ETH_PORT.mtu k.val) ∧ vlan.toNat = s.get (R.ETH_PORT.vlan k.val)) = true ∧ s.get (R.HAUL_SRC.en j.val) = 1 ∧
        s.get (R.HAUL_SRC.cage j.val) = k.val / 2 ∧ s.get (R.HAUL_SSTAT.state j.val) = 2 then
      t.out = s.out ∧ t.get (R.ETH_CNT.drop k.val) = s.get (R.ETH_CNT.drop k.val)
    else s.Counted t (R.ETH_CNT.drop k.val) 1 ∧ t.out = s.out := by
  obtain ⟨dropped, count⟩ := received_drop s k.val
  obtain ⟨-, rxDrop, -⟩ := eth_places k.val
  have here : s.connHere k.val j.val = true ↔ s.get (R.HAUL_SRC.en j.val) = 1 ∧ s.get (R.HAUL_SRC.cage j.val) = k.val / 2 ∧
      s.get (R.HAUL_SSTAT.state j.val) = 2 := by
    rw [State.connHere, Bool.and_eq_true, flag_iff, decide_eq_true_eq]
  rw [exec_ethPlain port len vlan rfl]
  by_cases mine : len.toNat ≤ s.get (R.ETH_PORT.mtu k.val) ∧ vlan.toNat = s.get (R.ETH_PORT.vlan k.val)
  · have own : s.frameOwn k.val (.conn j) = if s.connHere k.val j.val then s.frameIn k.val else (s.frameIn k.val).count (R.ETH_CNT.drop k.val) 1 := rfl
    rw [if_pos mine, own]
    by_cases open_ : s.connHere k.val j.val = true
    · rw [if_pos open_]
      exact ⟨_, rfl, received_in s k.val, by
        rw [if_pos ⟨decide_eq_true mine, here.1 open_⟩]
        exact ⟨frameIn_out s k.val, frameIn_get s k.val rxDrop.symm⟩⟩
    · rw [if_neg open_]
      exact ⟨_, rfl, dropped, by rw [if_neg fun h => open_ (here.2 h.2)]; exact ⟨count, dropped_out s k.val⟩⟩
  · rw [if_neg mine]
    exact ⟨_, rfl, dropped, by rw [if_neg fun h => mine (of_decide_eq_true h.1)]; exact ⟨count, dropped_out s k.val⟩⟩

/-- The rate of a queue pair as a fraction of the line rate. -/
def rateOf (r : Nat × Nat) : ℚ := (r.1 : ℚ) / 2 ^ r.2

/-- A rate 1/16 of the line rate higher, as far as the line rate. -/
theorem rate_rises (m e : Nat) : rateOf (if 2 ^ max e 4 ≤ m * 2 ^ (max e 4 - e) + 2 ^ (max e 4 - 4) then (1, 0)
    else (m * 2 ^ (max e 4 - e) + 2 ^ (max e 4 - 4), max e 4)) = min 1 (rateOf (m, e) + 1 / 16) := by
  have low : e ≤ max e 4 := le_max_left ..
  have four : 4 ≤ max e 4 := le_max_right ..
  generalize max e 4 = h at *
  have pos : (0 : ℚ) < 2 ^ h := by positivity
  have first : (m : ℚ) * 2 ^ (h - e) / 2 ^ h = m / 2 ^ e := by
    rw [div_eq_div_iff (by positivity) (by positivity), mul_assoc, ← pow_add, Nat.sub_add_cancel low]
  have second : (2 : ℚ) ^ (h - 4) / 2 ^ h = 1 / 16 := by
    rw [div_eq_div_iff (by positivity) (by positivity), one_mul, show (16 : ℚ) = 2 ^ 4 by norm_num, ← pow_add, Nat.sub_add_cancel four]
  have sum : ((m * 2 ^ (h - e) + 2 ^ (h - 4) : Nat) : ℚ) / 2 ^ h = m / 2 ^ e + 1 / 16 := by
    push_cast
    rw [add_div, first, second]
  have full : 2 ^ h ≤ m * 2 ^ (h - e) + 2 ^ (h - 4) ↔ (1 : ℚ) ≤ m / 2 ^ e + 1 / 16 := by
    rw [← sum, le_div_iff₀ pos, one_mul]
    exact_mod_cast Iff.rfl
  unfold rateOf
  dsimp only
  by_cases line : 2 ^ h ≤ m * 2 ^ (h - e) + 2 ^ (h - 4)
  · rw [if_pos line, min_eq_left (full.1 line)]
    norm_num
  · rw [if_neg line, min_eq_right (le_of_lt (not_le.1 fun h => line (full.2 h)))]
    exact sum

theorem pause_frame {s : State} {k : Fin 24} (port : s.ethMode k.val = true) (len : BitVec 14) (vlan : BitVec 12) (prio : BitVec 3) (on : Bool) : ∃ t,
    exec (.ethFrameReceive k len vlan (.pfc prio on)) s = .next t ∧ Received s t k.val ∧
    if s.get (R.ETH_PORT.pfc_en k.val) = 1 ∧ prio.toNat = s.get (R.ETH_PORT.pcp k.val) then
      t.portPaused k.val = on ∧ (∀ j, j ≠ k.val → t.portPaused j = s.portPaused j) ∧ t.get (R.ETH_CNT.drop k.val) = s.get (R.ETH_CNT.drop k.val) ∧
      (t.cagePaused (k.val / 2) = true → t.out = s.out ∧ t.ethHeld = s.ethHeld) ∧
      (t.cagePaused (k.val / 2) = false → t.out = (KMap.find (fun _ => []) s.ethHeld (k.val / 2)).reverse ++ s.out ∧
        KMap.find (fun _ => []) t.ethHeld (k.val / 2) = [])
    else (s.Counted t (R.ETH_CNT.drop k.val) 1 ∧ t.out = s.out) ∧ t.ethPause = s.ethPause := by
  obtain ⟨dropped, count⟩ := received_drop s k.val
  rw [exec_ethPause port len vlan prio on]
  by_cases own : s.get (R.ETH_PORT.pfc_en k.val) = 1 ∧ prio.toNat = s.get (R.ETH_PORT.pcp k.val)
  · obtain ⟨received, facts⟩ := received_pause s k.val on own.1
    rw [if_pos own]
    exact ⟨_, rfl, received, by rw [if_pos own]; exact facts⟩
  · rw [if_neg own]
    exact ⟨_, rfl, dropped, by rw [if_neg own]; exact ⟨⟨count, dropped_out s k.val⟩, rfl⟩⟩

/-! ### Congestion notifications -/

theorem cnpIn_qpOpen (s : State) (k : Nat) (q : EthQp) : (s.cnpIn k).qpOpen k q = s.qpOpen k q :=
  qpOpen_same (fun g low => (get_count_haul _ k 1 (.inr rfl) low).trans (frameIn_haul s k g low)) rfl k q

theorem setRate_get (u : State) (q : EthQp) (r : Nat × Nat) (g : Fld) : (u.setRate q r).get g = u.get g := rfl

theorem rest_but_rates {s u : State} (same : { u with regs := s.regs } = s) : { u with regs := s.regs, ethRate := s.ethRate } = s :=
  congrArg (fun w : State => { w with ethRate := s.ethRate }) same

theorem setRate_rest {s u : State} (q : EthQp) (r : Nat × Nat) (same : { u with regs := s.regs } = s) :
    { u.setRate q r with regs := s.regs, ethRate := s.ethRate } = s := congrArg (fun w : State => { w with ethRate := s.ethRate }) same

theorem cnp_received {s : State} {k : Fin 24} (port : s.ethMode k.val = true) (q : EthQp) : ∃ t,
    exec (.ethCnpReceive k q) s = .next t ∧ s.Counted t (R.ETH_CNT.rx k.val) 1 ∧ s.Counted t (R.ETH_CNT.cnp k.val) 1 ∧
    (∀ j, j ≠ q → t.rate j = s.rate j) ∧ { t with regs := s.regs, ethRate := s.ethRate } = s ∧
    SameRegsBut s t [R.ETH_CNT.rx k.val, R.ETH_CNT.cnp k.val, R.ETH_CNT.drop k.val] ∧
    if s.qpOpen k.val q then t.rate q = ((s.rate q).1, (s.rate q).2 + 1) ∧ t.get (R.ETH_CNT.drop k.val) = s.get (R.ETH_CNT.drop k.val)
    else t.rate q = s.rate q ∧ s.Counted t (R.ETH_CNT.drop k.val) 1 := by
  obtain ⟨rx, cnp, drop, rest, regs⟩ := cnpIn_facts s k.val
  obtain ⟨-, rxDrop, -, -, cnpDrop⟩ := eth_places k.val
  have open_ := cnpIn_qpOpen s k.val q
  have rate (j : EthQp) : (s.cnpIn k.val).rate j = s.rate j := rfl
  have run : exec (.ethCnpReceive k q) s = .next (if (s.cnpIn k.val).qpOpen k.val q then
      (s.cnpIn k.val).setRate q (((s.cnpIn k.val).rate q).1, ((s.cnpIn k.val).rate q).2 + 1) else (s.cnpIn k.val).count (R.ETH_CNT.drop k.val) 1) :=
    congrArg Host.Outcome.next (if_pos port)
  rw [run, open_]
  generalize s.cnpIn k.val = u at *
  by_cases here : s.qpOpen k.val q = true
  · have own := setRate_rate u q
    have get := setRate_get u q ((u.rate q).1, (u.rate q).2 + 1)
    rw [if_pos here]
    exact ⟨_, rfl, (get _).trans rx, (get _).trans cnp, fun j other => (own j _).trans ((if_neg other).trans (rate j)), setRate_rest q _ rest,
      fun g other => (get g).trans (regs g fun f mem => other f (by simp only [List.mem_cons] at mem ⊢; tauto)), by
        rw [if_pos here]
        exact ⟨(own q _).trans ((if_pos rfl).trans (by rw [rate])), (get _).trans drop⟩⟩
  · have dropped : s.Counted (u.count (R.ETH_CNT.drop k.val) 1) (R.ETH_CNT.drop k.val) 1 := by
      unfold State.Counted
      rw [State.get_count_same, drop]
    rw [if_neg here]
    exact ⟨_, rfl, (State.get_count_other _ _ _ _ rxDrop).trans rx, (State.get_count_other _ _ _ _ cnpDrop).trans cnp, fun j _ => rate j, rest_but_rates rest,
      fun g other => (State.get_count_other _ _ _ _ (other _ (by simp))).trans (regs g fun f mem => other f (by simp only [List.mem_cons] at mem ⊢; tauto)),
      by rw [if_neg here]; exact ⟨rate q, dropped⟩⟩

/-! ### Rounds of a training -/

section
variable {s : State} {l : Fin 4} {hi : Bool} {round : BitVec 3} (mask : BitVec 4) (epoch : BitVec 32)

theorem exec_spnEcho (busy : (s.spnEnd l.val hi).busy = true) (now : round.toNat = (s.spnEnd l.val hi).round) {pm pe : Nat}
    (claimed : (s.spnEnd l.val hi).peer = some (pm, pe)) : exec (.spnEcho l hi round mask epoch) s = .next (
      if pm = (s.spnEnd l.val hi).mask ∧ mask.toNat = (s.spnEnd l.val hi).mask ∧ epoch.toNat = s.get (epochFld l.val hi) then
        if (s.spnEnd l.val (!hi)).agreed then
          (s.setSpn l.val hi { s.spnEnd l.val hi with busy := false, agreed := true }).spnSettle l.val (s.spnEnd l.val hi).mask
        else s.setSpn l.val hi { s.spnEnd l.val hi with busy := false, agreed := true }
      else s.spnFail l.val hi pm) := by
  refine (congrArg Host.Outcome.next (if_pos ⟨busy, now⟩)).trans ?_
  rw [claimed]
  dsimp only
  rw [spnEnd_setSpn_not, claimed]

/-- What a round does that a claim or an echo speaks of. -/
theorem spn_round (busy : (s.spnEnd l.val hi).busy = true) (now : round.toNat = (s.spnEnd l.val hi).round) : let i := l.val
    let x := s.spnEnd i hi
    let only := fun (t : State) => { t with regs := s.regs, spn := s.spn, spnBurst := s.spnBurst, out := s.out } = s
    (∃ t, exec (.spnClaim l hi round mask epoch) s = .next t ∧ t.spnEnd i hi = { x with peer := some (mask.toNat, epoch.toNat) } ∧
      t.out = .flit i 1 [b2n hi, round.toNat, mask.toNat, epoch.toNat] :: s.out ∧ t.regs = s.regs ∧ SameMem s t ∧ only t) ∧
    ∀ pm pe, x.peer = some (pm, pe) → let agree := pm = x.mask ∧ mask.toNat = x.mask ∧ epoch.toNat = s.get (epochFld i hi)
      (agree → (s.spnEnd i (!hi)).agreed = false → ∃ t, exec (.spnEcho l hi round mask epoch) s = .next t ∧
        t.spnEnd i hi = { x with busy := false, agreed := true } ∧ t.regs = s.regs ∧ SameMem s t ∧ only t) ∧
      (agree → (s.spnEnd i (!hi)).agreed = true → 0 < x.mask → x.mask < 16 → ∃ t, exec (.spnEcho l hi round mask epoch) s = .next t ∧
        t.get (R.SPN_LINK.state i) = 2 ∧ t.get (R.SPN_LINK.mask i) = x.mask ∧ t.get (R.SPN_LINK.width i) = popcount4 x.mask ∧
        s.Counted t (R.SPN_LINK.trains i) 1 ∧ SameMem s t ∧ t.seqs = s.seqs) ∧
      (¬agree → x.round < 4 → ∃ t, exec (.spnEcho l hi round mask epoch) s = .next t ∧ SameMem s t ∧ only t ∧
        let m := if x.round = 3 then lowestQuarter (x.mask &&& pm) else x.mask &&& pm
        t.spnEnd i hi = { x with round := x.round + 1, peer := none, mask := m }) := by
  dsimp only
  refine ⟨⟨_, congrArg Host.Outcome.next (if_pos ⟨busy, now⟩), spnEnd_setSpn .., rfl, rfl, sameMem_of_unspined rfl, rfl⟩, fun pm pe claimed =>
    ⟨fun agree alone => ?_, fun agree both some_ small => ?_, fun differ more => ?_⟩⟩
  · have first : ¬(s.spnEnd l.val (!hi)).agreed = true := by rw [alone]; decide
    exact ⟨_, (exec_spnEcho mask epoch busy now claimed).trans (congrArg Host.Outcome.next ((if_pos agree).trans (if_neg first))),
      spnEnd_setSpn .., rfl, sameMem_of_unspined rfl, rfl⟩
  · obtain ⟨state, masks, width, trains, mem, seqs⟩ := spnSettle_facts (s.setSpn l.val hi { s.spnEnd l.val hi with busy := false, agreed := true })
      l.isLt some_ small
    exact ⟨_, (exec_spnEcho mask epoch busy now claimed).trans (congrArg Host.Outcome.next ((if_pos agree).trans (if_pos both))),
      state, masks, width, trains, SameMem.trans (sameMem_of_unspined rfl) mem, seqs⟩
  · obtain ⟨mem, rest, end_⟩ := spnFail_narrows s pm more
    exact ⟨_, (exec_spnEcho mask epoch busy now claimed).trans (congrArg Host.Outcome.next (if_neg differ)), mem, rest, end_⟩

end

/-! ### What the commands on a link do -/

section
variable (s : State) (l : Fin 4) (hi : Bool)

theorem training_started (mask : BitVec 4) (here : s.halfDead (spnHalf l.val hi) = false) (there : s.halfDead (spnHalf l.val (!hi)) = false)
    (idle : s.get (R.SPN_LINK.state l.val) = 0) : let i := l.val
    ∃ t, exec (.spnTrainingStart l hi mask) s = .next t ∧ t.get (R.SPN_LINK.state i) = 1 ∧
      t.get (epochFld i hi) = (s.get (epochFld i hi) + 1) % 2 ^ 32 ∧ t.spnEnd i hi = ⟨true, 1, mask.toNat, none, false⟩ ∧ SameMem s t ∧
      { t with regs := s.regs, spn := s.spn, spnBurst := s.spnBurst, out := s.out } = s ∧
      SameRegsBut s t [R.SPN_LINK.state i, R.SPN_LINK.rounds i, R.SPN_LINK.width i, R.SPN_LINK.mask i, epochFld i hi] ∧
      t.out = .flit i 0 [b2n hi, 1, mask.toNat, (s.get (epochFld i hi) + 1) % 2 ^ 32] :: s.out := by
  obtain ⟨state, epoch, end_, rest, regs, out⟩ := training_facts s l.val hi mask.toNat
  have run := exec_spnTraining (mask := mask) here there idle
  rw [trainReady_eq hi idle] at run
  exact ⟨_, run, state, epoch, end_, sameMem_of_unspined rest, rest_of_unspined rest, regs, out⟩

theorem training_halves_off (mask : BitVec 4) (off : s.halfDead (spnHalf l.val hi) = true ∨ s.halfDead (spnHalf l.val (!hi)) = true) :
    exec (.spnTrainingStart l hi mask) s = .next s :=
  congrArg Host.Outcome.next (if_pos (Bool.or_eq_true_iff.2 off))

theorem idle_end (idle : (s.spnEnd l.val hi).busy = false) : exec (.spnRoundTimeout l hi) s = .next s ∧
    ∀ r m e, exec (.spnClaim l hi r m e) s = .next s ∧ exec (.spnEcho l hi r m e) s = .next s := by
  have off : ¬(s.spnEnd l.val hi).busy = true := by rw [idle]; decide
  exact ⟨congrArg Host.Outcome.next (if_neg off), fun _ _ _ =>
    ⟨congrArg Host.Outcome.next (if_neg fun h => off h.1), congrArg Host.Outcome.next (if_neg fun h => off h.1)⟩⟩

theorem round_timeout (busy : (s.spnEnd l.val hi).busy = true) (more : (s.spnEnd l.val hi).round < 4) : let x := s.spnEnd l.val hi
    ∃ t, exec (.spnRoundTimeout l hi) s = .next t ∧ SameMem s t ∧
      { t with regs := s.regs, spn := s.spn, spnBurst := s.spnBurst, out := s.out } = s ∧
      t.spnEnd l.val hi = { x with round := x.round + 1, peer := none, mask := if x.round = 3 then lowestQuarter x.mask else x.mask } := by
  obtain ⟨mem, rest, end_⟩ := spnFail_narrows s (s.spnEnd l.val hi).mask more
  rw [SpnEnd.narrowed, Nat.and_self] at end_
  exact ⟨_, congrArg Host.Outcome.next (if_pos busy), mem, rest, end_⟩

theorem last_timeout (busy : (s.spnEnd l.val hi).busy = true) (last : 4 ≤ (s.spnEnd l.val hi).round) :
    ∃ t, exec (.spnRoundTimeout l hi) s = .next t ∧ t.get (R.SPN_LINK.state l.val) = 3 ∧
      t.get (R.SPN_LINK.width l.val) = 0 ∧ t.get (R.SPN_LINK.mask l.val) = 0 :=
  ⟨_, congrArg Host.Outcome.next ((if_pos busy).trans ((spnFail_eq ..).trans (if_pos last))), spnLose_facts (s.roundNoted l.val hi) l.isLt⟩

theorem flit_good (up : s.get (R.SPN_LINK.state l.val) = 2) : let due := s.flitsDue l.val hi
    ∃ t, exec (.spnFlitReceive l hi true) s = .next t ∧ { t with spnTx := s.spnTx } = s ∧
      (t.spnTxAt (spnKey l.val hi)).got = (s.spnTxAt (spnKey l.val hi)).got + (if due = [] then 0 else 1) := by
  have run : exec (.spnFlitReceive l hi true) s = .next (if s.flitsDue l.val hi = [] then s else
      s.setSpnTx (spnKey l.val hi) { s.spnTxAt (spnKey l.val hi) with got := (s.spnTxAt (spnKey l.val hi)).got + 1 }) :=
    congrArg Host.Outcome.next ((if_neg (not_not.2 up)).trans (if_pos rfl))
  by_cases none_ : s.flitsDue l.val hi = []
  · exact ⟨s, run.trans (congrArg Host.Outcome.next (if_pos none_)), rfl, by rw [if_pos none_]; rfl⟩
  · refine ⟨_, run.trans (congrArg Host.Outcome.next (if_neg none_)), rfl, ?_⟩
    rw [if_neg none_]
    exact congrArg SpnTx.got ((KMap.find_put ..).trans (if_pos rfl))

theorem emitAll_facts (u : State) (m : List Out) : (∀ g, ({ u with out := m ++ u.out } : State).get g = u.get g) ∧
    ({ u with out := m ++ u.out } : State).unspined = u.unspined := ⟨fun _ => rfl, rfl⟩

theorem flit_bad (up : s.get (R.SPN_LINK.state l.val) = 2) : let i := l.val
    let due := s.flitsDue i hi
    ∃ t, exec (.spnFlitReceive l hi false) s = .next t ∧ s.Counted t (R.SPN_LINK.resend i) (max 1 due.length) ∧
      { t with regs := s.regs, spn := s.spn, spnBurst := s.spnBurst, out := s.out } = s ∧ SameRegsBut s t [R.SPN_LINK.resend i] ∧
      (due = [] → t.out = .flit i 2 [b2n hi] :: s.out) ∧
      (due ≠ [] → t.out = (due.map (fun f => Out.flit i 2 [b2n hi, f.1, f.2.1, f.2.2])).reverse ++ s.out) := by
  obtain ⟨count, rest, regs, out⟩ := resent_facts s l.val (max 1 (s.flitsDue l.val hi).length)
  dsimp only
  rw [exec_flitBad up]
  generalize s.resent l.val (max 1 (s.flitsDue l.val hi).length) = u at *
  by_cases none_ : s.flitsDue l.val hi = []
  · obtain ⟨get, same⟩ := emitAll_facts u [.flit l.val 2 [b2n hi]]
    exact ⟨_, congrArg Host.Outcome.next (if_pos none_), (get _).trans count, rest_of_unspined (same.trans rest),
      fun g other => (get g).trans (regs g other), fun _ => congrArg _ out, fun some_ => absurd none_ some_⟩
  · have sent := foldl_emit u ((s.flitsDue l.val hi).map fun f => Out.flit l.val 2 [b2n hi, f.1, f.2.1, f.2.2])
    rw [List.foldl_map] at sent
    obtain ⟨get, same⟩ := emitAll_facts u ((s.flitsDue l.val hi).map fun f => Out.flit l.val 2 [b2n hi, f.1, f.2.1, f.2.2]).reverse
    exact ⟨_, congrArg Host.Outcome.next ((if_neg none_).trans sent), (get _).trans count, rest_of_unspined (same.trans rest),
      fun g other => (get g).trans (regs g other), fun h => absurd h none_, fun _ => congrArg _ out⟩

end

/-- Settles O29, by what a received frame, a round and a loss of a link each leave alone. -/
theorem ethernetAndLandingDieLinks : Obligations.EthernetAndLandingDieLinks := by
  unfold Obligations.EthernetAndLandingDieLinks
  refine ⟨⟨fun s k => ⟨fun none_ => ?_, fun port => ⟨fun len vlan kind => ?_, fun q => cnp_received port q⟩⟩, fun s q => ?_⟩, fun s l hi =>
    ⟨training_started s l hi, training_halves_off s l hi, fun _ mask epoch busy now => spn_round mask epoch busy now, idle_end s l hi,
      round_timeout s l hi, last_timeout s l hi, fun down _ => congrArg Host.Outcome.next (if_pos down),
      fun up => ⟨flit_good s l hi up, flit_bad s l hi up⟩⟩⟩
  · have off : ¬s.ethMode k.val = true := by rw [none_]; decide
    exact ⟨fun len vlan kind => congrArg Host.Outcome.next (if_neg off), fun q => congrArg Host.Outcome.next (if_neg off)⟩
  · dsimp only
    cases kind with
    | pfc prio on =>
      obtain ⟨t, run, received, facts⟩ := pause_frame port len vlan prio on
      exact ⟨t, run, received.rx, rest_of_unported received.rest, received.regs, facts⟩
    | arp m a b =>
      obtain ⟨t, run, received, facts⟩ := request_frame port len vlan (kind := .arp m a b) rfl rfl rfl
      exact ⟨t, run, received.rx, rest_of_unported received.rest, received.regs, by rw [List.append_nil] at facts; exact facts⟩
    | solicit m a b =>
      obtain ⟨t, run, received, facts⟩ := request_frame port len vlan (kind := .solicit m a b) rfl rfl rfl
      exact ⟨t, run, received.rx, rest_of_unported received.rest, received.regs, by rw [List.append_nil] at facts; exact facts⟩
    | echo m a b d =>
      obtain ⟨t, run, received, facts⟩ := request_frame port len vlan (kind := .echo m a b d) rfl rfl rfl
      exact ⟨t, run, received.rx, rest_of_unported received.rest, received.regs, facts⟩
    | conn j =>
      obtain ⟨t, run, received, facts⟩ := conn_frame port len vlan j
      exact ⟨t, run, received.rx, rest_of_unported received.rest, received.regs, facts⟩
    | fragment =>
      obtain ⟨t, run, received, facts⟩ := other_frame port len vlan (kind := .fragment) rfl rfl rfl
      exact ⟨t, run, received.rx, rest_of_unported received.rest, received.regs, facts⟩
    | other =>
      obtain ⟨t, run, received, facts⟩ := other_frame port len vlan (kind := .other) rfl rfl rfl
      exact ⟨t, run, received.rx, rest_of_unported received.rest, received.regs, facts⟩
  · refine ⟨_, rfl, ?_, rfl, sameMem_of_eq rfl rfl rfl rfl, fun j other => (setRate_rate s q j _).trans (if_neg other)⟩
    exact (congrArg rateOf ((setRate_rate s q q _).trans (if_pos rfl))).trans (rate_rises (s.rate q).1 (s.rate q).2)

end Sys2Proof.Machine

namespace Sys2Proof.Machine

-- One proof at a time: threads that wait for each other hold memory.
set_option Elab.async false

/-! ## What the version tables leave alone (R168 to R193) -/

/-- What is left of a state beside its registers, their shadows and the refills. -/
def State.unversioned (s : State) : State := { s with regs := [], shadow := [], refill := [] }

/-- Nothing differs but the registers of the version tables, their shadows and the refills. -/
structure Revised (s u : State) : Prop where
  rest : u.unversioned = s.unversioned
  regs : ∀ g : Fld, g.a < 8 * 0x3800000 → u.get g = s.get g

theorem Revised.refl (s : State) : Revised s s := ⟨rfl, fun _ _ => rfl⟩

theorem Revised.trans {s t u : State} (first : Revised s t) (second : Revised t u) : Revised s u :=
  ⟨second.rest.trans first.rest, fun g low => (second.regs g low).trans (first.regs g low)⟩

theorem revised_put (s : State) {f : Fld} {v : Nat} (table : 8 * 0x3800000 ≤ f.a) : Revised s (s.put f v) :=
  ⟨rfl, fun _ _ => State.get_put_other _ _ _ _ (by omega)⟩

theorem revised_puts (s : State) {l : List (Fld × Nat)} (table : ∀ p ∈ l, 8 * 0x3800000 ≤ p.1.a) : Revised s (s.puts l) := by
  induction l generalizing s with
  | nil => exact Revised.refl s
  | cons p l ih => exact (revised_put s (table p List.mem_cons_self)).trans (ih (s.put p.1 p.2) fun q mem => table q (List.mem_cons_of_mem p mem))

theorem revised_commit (s : State) {fs : List Fld} (table : ∀ f ∈ fs, 8 * 0x3800000 ≤ f.a) : Revised s (s.commit fs) :=
  ⟨(congrArg (fun u : State => { u with refill := [] }) (commit_uncommitted s fs) :), fun g low => commit_get_other s fun f mem => by
    have := table f mem
    omega⟩

theorem Revised.mem {s u : State} (same : Revised s u) : SameMem s u :=
  sameMem_of_eq (congrArg State.mem same.rest :) (congrArg State.bad same.rest :) (congrArg State.plist same.rest :)
    (congrArg State.linkErr same.rest :)

theorem Revised.seqs {s u : State} (same : Revised s u) : u.seqs = s.seqs := (congrArg State.seqs same.rest :)

theorem calm_of_revised {s u : State} {k : Nat} (same : Revised s u) (key : k < 96) : Calm s u k := by
  obtain ⟨-, pc, -, count⟩ := seq_places key
  exact calm_of_same same.mem same.seqs (same.regs _ (by omega)) (same.regs _ (by omega))

/-! ## Where the registers of a table are -/

/-- The fields of a slot stand behind its table's header. -/
theorem slot_high (l i : Nat) : 8 * (0x3800040 + 0x2000 * l) ≤ (R.VER_SLOT.state l i).a ∧ 8 * (0x3800040 + 0x2000 * l) ≤ (R.VER_SLOT.gen l i).a ∧
    8 * (0x3800040 + 0x2000 * l) ≤ (R.VER_SLOT.count l i).a ∧ 8 * (0x3800040 + 0x2000 * l) ≤ (R.VER_SLOT.refill l i).a ∧
    8 * (0x3800040 + 0x2000 * l) ≤ (R.VER_SLOT.next_gen l i).a := by
  simp only [R.VER_SLOT.state, R.VER_SLOT.gen, R.VER_SLOT.count, R.VER_SLOT.refill, R.VER_SLOT.next_gen]
  omega

/-- The header of a table. -/
theorem header_low (l : Nat) : (R.VER_HDR.entry l).a < 8 * (0x3800040 + 0x2000 * l) ∧ (R.VER_HDR.bar_hold l).a < 8 * (0x3800040 + 0x2000 * l) ∧
    (R.VER_HDR.gate_hold l).a < 8 * (0x3800040 + 0x2000 * l) ∧ (R.VER_CUR.gen l).a < 8 * (0x3800040 + 0x2000 * l) ∧
    (R.VER_CUR.group l).a < 8 * (0x3800040 + 0x2000 * l) ∧ (R.VER_HDR.top l).a < 8 * (0x3800040 + 0x2000 * l) := by
  simp only [R.VER_HDR.entry, R.VER_HDR.bar_hold, R.VER_HDR.gate_hold, R.VER_CUR.gen, R.VER_CUR.group, R.VER_HDR.top]
  omega

/-! ## A slot is built, drains, or is refilled -/

/-- What a build writes. -/
def builtFields (l i g : Nat) : List (Fld × Nat) :=
  [(R.VER_SLOT.state l i, verBUILDING), (R.VER_SLOT.gen l i, g), (R.VER_SLOT.count l i, 0),
    (R.VER_SLOT.refill l i, 0), (R.VER_SLOT.next_gen l i, 0), (R.VER_HDR.top l, g)]

theorem builtFields_nodup (l i g : Nat) : ((builtFields l i g).map fun p => p.1.a).Nodup := by
  simp only [builtFields, List.map_cons, List.map_nil, List.nodup_cons, List.mem_cons, List.not_mem_nil, or_false, not_or, not_false_eq_true,
    List.nodup_nil, and_true, R.VER_SLOT.state, R.VER_SLOT.gen, R.VER_SLOT.count, R.VER_SLOT.refill, R.VER_SLOT.next_gen, R.VER_HDR.top]
  omega

theorem vbuild_eq (s : State) (l i g : Nat) : s.vbuild l i g = s.puts (builtFields l i g) := rfl

theorem builtFields_high {l i g : Nat} {p : Fld × Nat} (mem : p ∈ builtFields l i g) : p.1.a = (R.VER_HDR.top l).a ∨ 8 * (0x3800040 + 0x2000 * l) ≤ p.1.a := by
  obtain ⟨state, gen, count, refill, next⟩ := slot_high l i
  simp only [builtFields, List.mem_cons, List.not_mem_nil, or_false] at mem
  rcases mem with rfl | rfl | rfl | rfl | rfl | rfl
  · exact .inr state
  · exact .inr gen
  · exact .inr count
  · exact .inr refill
  · exact .inr next
  · exact .inl rfl

theorem revised_vbuild (s : State) (l i g : Nat) : Revised s (s.vbuild l i g) := by
  refine revised_puts s fun p mem => ?_
  have top : 8 * 0x3800000 ≤ (R.VER_HDR.top l).a := by simp only [R.VER_HDR.top]; omega
  rcases builtFields_high mem with here | high
  · exact here ▸ top
  · omega

/-- A build leaves the header alone, the highest generation excepted. -/
theorem vbuild_get (s : State) (l i n : Nat) {g : Fld} (low : g.a < 8 * (0x3800040 + 0x2000 * l)) (top : g.a ≠ (R.VER_HDR.top l).a) :
    (s.vbuild l i n).get g = s.get g := by
  refine puts_get_other s fun p mem => ?_
  rcases builtFields_high mem with here | high <;> omega

theorem vbuild_own (s : State) {l i n : Nat} {p : Fld × Nat} (mem : p ∈ builtFields l i n) : (s.vbuild l i n).get p.1 = p.2 % 2 ^ p.1.w :=
  puts_get_of_nodup s (builtFields_nodup l i n) mem

theorem vbuild_other_slot (s : State) {l i n j : Nat} (other : j ≠ i) : (s.vbuild l i n).vst l j = s.vst l j := by
  refine puts_get_other s fun p mem => ?_
  simp only [List.mem_cons, List.not_mem_nil, or_false] at mem
  rcases mem with rfl | rfl | rfl | rfl | rfl | rfl <;>
    simp only [R.VER_SLOT.state, R.VER_SLOT.gen, R.VER_SLOT.count, R.VER_SLOT.refill, R.VER_SLOT.next_gen, R.VER_HDR.top] <;> omega

/-- The refills replaced. -/
def State.setRefill (s : State) (m : KMap Nat) : State := { s with refill := m }

theorem setRefill_get (s : State) (m : KMap Nat) (g : Fld) : (s.setRefill m).get g = s.get g := rfl

theorem revised_setRefill (s : State) (m : KMap Nat) : Revised s (s.setRefill m) := ⟨rfl, fun _ _ => rfl⟩

theorem vrefill_eq (s : State) (l i g : Nat) :
    s.vrefill l i g = (s.vbuild l i g).setRefill (KMap.put (fun _ => 0) (s.vbuild l i g).refill (4 * l + i) 1) := rfl

theorem revised_vrefill (s : State) (l i g : Nat) : Revised s (s.vrefill l i g) :=
  vrefill_eq s l i g ▸ (revised_vbuild s l i g).trans (revised_setRefill ..)

theorem vrefill_get (s : State) (l i n : Nat) {g : Fld} (low : g.a < 8 * (0x3800040 + 0x2000 * l)) (top : g.a ≠ (R.VER_HDR.top l).a) :
    (s.vrefill l i n).get g = s.get g := by
  rw [vrefill_eq, setRefill_get, vbuild_get s l i n low top]

theorem revised_vdrain (s : State) (l i : Nat) : Revised s (s.vdrain l i) := revised_put s (by
  have := (slot_high l i).1
  omega)

theorem vdrain_get (s : State) {l i : Nat} {g : Fld} (other : g.a ≠ (R.VER_SLOT.state l i).a) : (s.vdrain l i).get g = s.get g :=
  State.get_put_other _ _ _ _ other

theorem vdrain_state (s : State) (l i : Nat) : (s.vdrain l i).vst l i = if s.vcount l i = 0 then verFREE else verDRAINING := by
  refine (State.get_put_same ..).trans (Nat.mod_eq_of_lt ?_)
  split <;> simp [verFREE, verDRAINING, R.VER_SLOT.state]

/-! ## A switch (R185, R188) -/

/-- A slot of the table drains when it is LIVE and older, and not the one to be refilled. -/
def State.drainOld (l g : Nat) (keep : Option Nat) (s : State) (i : Nat) : State :=
  if s.vst l i = verLIVE ∧ s.vgen l i < g ∧ keep ≠ some i then s.vdrain l i else s

/-- The first `n` slots of the table that are LIVE and older drain. -/
def State.oldDrained (s : State) (l g : Nat) (keep : Option Nat) (n : Nat) : State := (List.range n).foldl (State.drainOld l g keep) s

theorem oldDrained_succ (s : State) (l g : Nat) (keep : Option Nat) (n : Nat) :
    s.oldDrained l g keep (n + 1) = State.drainOld l g keep (s.oldDrained l g keep n) n := by
  rw [State.oldDrained, List.range_succ, List.foldl_append]
  rfl

theorem revised_drainOld (s : State) (l g : Nat) (keep : Option Nat) (i : Nat) : Revised s (State.drainOld l g keep s i) := by
  unfold State.drainOld
  split
  · exact revised_vdrain s l i
  · exact Revised.refl s

theorem drainOld_get (s : State) {l n : Nat} {keep : Option Nat} {i : Nat} {g : Fld} (other : g.a ≠ (R.VER_SLOT.state l i).a) :
    (State.drainOld l n keep s i).get g = s.get g := by
  unfold State.drainOld
  split
  · exact vdrain_get s other
  · rfl

theorem revised_oldDrained (s : State) (l g : Nat) (keep : Option Nat) (n : Nat) : Revised s (s.oldDrained l g keep n) := by
  induction n with
  | zero => exact Revised.refl s
  | succ n ih => exact oldDrained_succ .. ▸ ih.trans (revised_drainOld ..)

/-- A drain writes no field but the states of slots. -/
theorem oldDrained_get (s : State) {l n : Nat} {keep : Option Nat} (m : Nat) {g : Fld} (other : ∀ i, g.a ≠ (R.VER_SLOT.state l i).a) :
    (s.oldDrained l n keep m).get g = s.get g := by
  induction m with
  | zero => rfl
  | succ m ih => rw [oldDrained_succ, drainOld_get _ (other m), ih]

theorem oldDrained_count (s : State) (l n : Nat) (keep : Option Nat) (m j : Nat) : (s.oldDrained l n keep m).vcount l j = s.vcount l j :=
  oldDrained_get s m fun i => by simp only [R.VER_SLOT.count, R.VER_SLOT.state]; omega

theorem oldDrained_gen (s : State) (l n : Nat) (keep : Option Nat) (m j : Nat) : (s.oldDrained l n keep m).vgen l j = s.vgen l j :=
  oldDrained_get s m fun i => by simp only [R.VER_SLOT.gen, R.VER_SLOT.state]; omega

theorem state_places {l i j : Nat} (other : j ≠ i) : (R.VER_SLOT.state l j).a ≠ (R.VER_SLOT.state l i).a := by
  simp only [R.VER_SLOT.state]
  omega

/-- The state of a slot once the older LIVE ones have drained. -/
theorem oldDrained_state (s : State) (l n m j : Nat) : (s.oldDrained l n none m).vst l j =
    if j < m ∧ s.vst l j = verLIVE ∧ s.vgen l j < n then (if s.vcount l j = 0 then verFREE else verDRAINING) else s.vst l j := by
  induction m with
  | zero => rw [if_neg (by omega)]; rfl
  | succ m ih =>
    rw [oldDrained_succ]
    by_cases here : j = m
    · subst here
      rw [if_neg (by omega)] at ih
      unfold State.drainOld
      rw [ih, oldDrained_gen]
      by_cases old : s.vst l j = verLIVE ∧ s.vgen l j < n
      · rw [if_pos ⟨old.1, old.2, nofun⟩, vdrain_state, oldDrained_count, if_pos (show j < j + 1 ∧ _ from ⟨Nat.lt_succ_self j, old⟩)]
      · rw [if_neg fun h => old ⟨h.1, h.2.1⟩, if_neg fun h => old h.2, ih]
    · have same : (State.drainOld l n none (s.oldDrained l n none m) m).vst l j = (s.oldDrained l n none m).vst l j := drainOld_get _ (state_places here)
      rw [same, ih]
      simp only [show j < m + 1 ↔ j < m by omega]

/-- A switch to a generation that a slot holds. -/
theorem vswitch_held {s : State} {l g i : Nat} (slot : i < 4) (state : s.vst l i = verLIVE ∨ s.vst l i = verBUILDING) (gen : s.vgen l i = g) :
    s.vswitch l g = s.oldDrained l g none 4 := by
  have holds : (List.range 4).any (fun i => decide ((s.vst l i = verLIVE ∨ s.vst l i = verBUILDING) ∧ s.vgen l i = g)) = true :=
    List.any_eq_true.2 ⟨i, List.mem_range.2 slot, decide_eq_true ⟨state, gen⟩⟩
  unfold State.vswitch
  simp only [holds, if_true]
  rfl

/-- What the switch leaves to do once the older slots have drained. -/
def State.switched (s : State) (l g : Nat) (keep : Option Nat) : State :=
  match keep with
  | none => s
  | some i =>
    if s.vcount l i = 0 then s.vrefill l i g
    else s.puts [(R.VER_SLOT.state l i, verDRAINING), (R.VER_SLOT.refill l i, 1), (R.VER_SLOT.next_gen l i, g)]

theorem vswitch_eq (s : State) (l g : Nat) : ∃ keep, s.vswitch l g = (s.oldDrained l g keep 4).switched l g keep := ⟨_, rfl⟩

theorem refillFields_high {l i g : Nat} {p : Fld × Nat}
    (mem : p ∈ [(R.VER_SLOT.state l i, verDRAINING), (R.VER_SLOT.refill l i, 1), (R.VER_SLOT.next_gen l i, g)]) :
    8 * (0x3800040 + 0x2000 * l) ≤ p.1.a := by
  obtain ⟨state, -, -, refill, next⟩ := slot_high l i
  simp only [List.mem_cons, List.not_mem_nil, or_false] at mem
  rcases mem with rfl | rfl | rfl
  exacts [state, refill, next]

theorem revised_switched (s : State) (l g : Nat) (keep : Option Nat) : Revised s (s.switched l g keep) := by
  cases keep with
  | none => exact Revised.refl s
  | some i =>
    unfold State.switched
    dsimp only
    split
    · exact revised_vrefill s l i g
    · refine revised_puts s fun p mem => ?_
      have := refillFields_high mem
      omega

theorem switched_get (s : State) {l n : Nat} {keep : Option Nat} {g : Fld} (low : g.a < 8 * (0x3800040 + 0x2000 * l)) (top : g.a ≠ (R.VER_HDR.top l).a) :
    (s.switched l n keep).get g = s.get g := by
  cases keep with
  | none => rfl
  | some i =>
    unfold State.switched
    dsimp only
    split
    · exact vrefill_get s l i n low top
    · refine puts_get_other s fun p mem => ?_
      have := refillFields_high mem
      omega

theorem revised_vswitch (s : State) (l g : Nat) : Revised s (s.vswitch l g) := by
  obtain ⟨keep, same⟩ := vswitch_eq s l g
  exact same ▸ (revised_oldDrained ..).trans (revised_switched ..)

/-- A switch leaves the header alone, the highest generation excepted. -/
theorem vswitch_get (s : State) {l n : Nat} {g : Fld} (low : g.a < 8 * (0x3800040 + 0x2000 * l)) (top : g.a ≠ (R.VER_HDR.top l).a) :
    (s.vswitch l n).get g = s.get g := by
  obtain ⟨keep, same⟩ := vswitch_eq s l n
  rw [same, switched_get _ low top, oldDrained_get _ _ fun i => ?_]
  have := (slot_high l i).1
  omega

/-! ## A pointer comes into force (R184) -/

/-- The pointer in force, before the switch. -/
def State.pointerSet (s : State) (l : Nat) : State := s.puts [(R.VER_CUR.gen l, s.get (R.VER_ADMIT.gen l)), (R.VER_ADMIT.pend l, 0)]

/-- Admission held for a barrier pointer, or not. -/
def State.barred (s : State) (l : Nat) (bar : Bool) : State := if bar && (s.admitSlot l).isNone then s.put (R.VER_HDR.bar_hold l) 1 else s

theorem pointerIn_eq (s : State) (l : Nat) : s.pointerIn l =
    ((s.pointerSet l).vswitch l (s.get (R.VER_ADMIT.gen l))).barred l (s.flag (R.VER_ADMIT.barrier l)) := rfl

theorem revised_barred (s : State) (l : Nat) (bar : Bool) : Revised s (s.barred l bar) := by
  unfold State.barred
  split
  · exact revised_put s (by simp only [R.VER_HDR.bar_hold]; omega)
  · exact Revised.refl s

theorem revised_pointerSet (s : State) (l : Nat) : Revised s (s.pointerSet l) := by
  refine revised_puts s fun p mem => ?_
  simp only [List.mem_cons, List.not_mem_nil, or_false] at mem
  rcases mem with rfl | rfl <;> simp only [R.VER_CUR.gen, R.VER_ADMIT.pend] <;> omega

theorem revised_pointerIn (s : State) (l : Nat) : Revised s (s.pointerIn l) :=
  pointerIn_eq s l ▸ ((revised_pointerSet s l).trans (revised_vswitch ..)).trans (revised_barred ..)

/-- The group id stays when a pointer comes into force. -/
theorem pointerIn_group (s : State) (l : Nat) : (s.pointerIn l).get (R.VER_CUR.group l) = s.get (R.VER_CUR.group l) := by
  have bar (u : State) (b : Bool) : (u.barred l b).get (R.VER_CUR.group l) = u.get (R.VER_CUR.group l) := by
    unfold State.barred
    split
    · exact State.get_put_other _ _ _ _ (by simp only [R.VER_CUR.group, R.VER_HDR.bar_hold]; omega)
    · rfl
  rw [pointerIn_eq, bar, vswitch_get _ (header_low l).2.2.2.2.1 (by simp only [R.VER_CUR.group, R.VER_HDR.top]; omega)]
  refine puts_get_other s fun p mem => ?_
  simp only [List.mem_cons, List.not_mem_nil, or_false] at mem
  rcases mem with rfl | rfl <;> simp only [R.VER_CUR.gen, R.VER_ADMIT.pend, R.VER_CUR.group] <;> omega

/-! ## Slots found -/

theorem vfind_lt {s : State} {l g i : Nat} (found : s.vfind l g = some i) : i < 4 ∧ s.vst l i ≠ verFREE ∧ s.vgen l i = g := by
  unfold State.vfind at found
  split at found
  · cases found
  · have hit := List.find?_some found
    exact ⟨List.mem_range.1 (List.mem_of_find?_eq_some found), of_decide_eq_true hit⟩

/-- A slot is found by the states and generations of the table. -/
theorem vfind_congr {s u : State} {l : Nat} (state : ∀ i, u.vst l i = s.vst l i) (gen : ∀ i, u.vgen l i = s.vgen l i) (g : Nat) :
    u.vfind l g = s.vfind l g := by
  simp only [State.vfind, state, gen]

theorem admitSlot_congr {s u : State} {l : Nat} (state : ∀ i, u.vst l i = s.vst l i) (gen : ∀ i, u.vgen l i = s.vgen l i)
    (cur : u.get (R.VER_CUR.gen l) = s.get (R.VER_CUR.gen l)) : u.admitSlot l = s.admitSlot l := by
  simp only [State.admitSlot, vfind_congr state gen, cur, state]

/-! ## A bundle on a table -/

section
variable {s : State} {c : SlotCtl} (up : s.halfInReset (halfOfDie c.die.val) = false)
include up

/-- While the half is up the instruction's own checks decide. -/
theorem verCheck_up (l : List (Bool × Exc)) : verCheck s (seqKey c) l = firstExc l := by
  rw [verCheck, seqKey_div, up]
  rfl

end

end Sys2Proof.Machine

namespace Sys2Proof.Machine

-- One proof at a time: threads that wait for each other hold memory.
set_option Elab.async false

/-! ## Admission (R175, R180, R182) -/

theorem own_wS {α : Type} (g : Seq → α) (blind : ∀ x i v, g (Seq.setS x i v) = g x) (s : State) (k : Nat) (r : BitVec 5) (v : Word) :
    g ((s.wS k r v).seq k) = g (s.seq k) := by
  rw [State.wS, State.seq_modSeq, if_pos rfl, blind]

theorem setS_ob (x : Seq) (i : Nat) (v : Word) : (x.setS i v).ob = x.ob := by
  unfold Seq.setS
  split <;> rfl

theorem sreg_wS (s : State) (k : Nat) (r : BitVec 5) (v : Word) : (s.wS k r v).s k r = if r = 0 then 0 else v := by
  rw [s_wS, if_pos ⟨rfl, rfl⟩]

theorem admitStart_eq (s : State) (l : Nat) :
    s.admitStart l = if s.get (R.VER_ADMIT.pend l) = 1 ∧ s.get (R.VER_CUR.gen l) = 0 then s.pointerIn l else s := by
  unfold State.admitStart State.flag
  simp only [Bool.and_eq_true, decide_eq_true_eq]

/-- A record's pin counted in slot `i`, with the admission in the output header. -/
def State.admitted (v : State) (k : Nat) (sd : BitVec 5) (i : Nat) : State :=
  ((v.put (R.VER_SLOT.count k i) (v.vcount k i + 1)).modSeq k (fun x => { x with ob := { x.ob with
    gen := v.get (R.VER_CUR.gen k), group := (v.put (R.VER_SLOT.count k i) (v.vcount k i + 1)).get (R.VER_CUR.group k), slot := i } })).wS k sd
      (BitVec.ofNat 64 (v.get (R.VER_CUR.gen k)))

theorem calm_admitted (v : State) {k : Nat} (key : k < 96) (sd : BitVec 5) (i : Nat) : Calm v (v.admitted k sd i) k := by
  have count := (slot_high k i).2.2.1
  exact ((calm_put v key (.inr (by omega))).trans (calm_modSeq _ rfl rfl)).trans (calm_wS ..)

theorem admitted_get (v : State) (k : Nat) (sd : BitVec 5) (i : Nat) (g : Fld) :
    (v.admitted k sd i).get g = (v.put (R.VER_SLOT.count k i) (v.vcount k i + 1)).get g := rfl

theorem admitted_ob (v : State) (k : Nat) (sd : BitVec 5) (i : Nat) : ((v.admitted k sd i).seq k).ob = { (v.seq k).ob with
    gen := v.get (R.VER_CUR.gen k), group := v.get (R.VER_CUR.group k), slot := i } := by
  have group : (v.put (R.VER_SLOT.count k i) (v.vcount k i + 1)).get (R.VER_CUR.group k) = v.get (R.VER_CUR.group k) :=
    State.get_put_other _ _ _ _ (by simp only [R.VER_CUR.group, R.VER_SLOT.count]; omega)
  rw [State.admitted, own_wS Seq.ob setS_ob, State.seq_modSeq, if_pos rfl, group]
  rfl

section
variable {s : State} {c : SlotCtl} (alone : s.Alone c) (slot : c.slot = 3) (noEnd : s.NoLoopEnd (seqKey c))
  (up : s.halfInReset (halfOfDie c.die.val) = false)
include alone slot up

section
include noEnd

theorem exec_verAdmit {sd : BitVec 5} {i : Nat} (free : s.NoPending c (.verAdmit c sd false)) (entry : s.get (R.VER_HDR.entry (seqKey c)) = 1)
    {u : State} (start : s.admitStart (seqKey c) = u) (calm : Calm s u (seqKey c)) (gate : u.gateHeld (seqKey c) = false)
    (bar : u.get (R.VER_HDR.bar_hold (seqKey c)) = 0) (found : u.admitSlot (seqKey c) = some i) (room : u.vcount (seqKey c) i < 65535) :
    ∃ t, exec (.verAdmit c sd false) s = .next t ∧
      Ended s ((u.put (R.VER_HDR.gate_hold (seqKey c)) 0).admitted (seqKey c) sd i) t (seqKey c) := by
  have key := seqKey_lt c
  have chk : (opVerAdmit (seqKey c) sd false).chk s = none := by
    refine (verCheck_up up _).trans ?_
    rw [start, found, flag_eq_true entry]
    simp only [firstExc, decide_eq_false (ne_of_lt room), Bool.not_true, Bool.false_eq_true, if_false]
  have wait : (opVerAdmit (seqKey c) sd false).wait s = 0 := by
    change (let v := s.admitStart (seqKey c); if v.gateHeld (seqKey c) || v.flag _ || (v.admitSlot (seqKey c)).isNone then 4 else 0) = 0
    rw [start]
    dsimp only
    rw [gate, flag_eq_false bar, found]
    rfl
  have found' : (u.put (R.VER_HDR.gate_hold (seqKey c)) 0).admitSlot (seqKey c) = some i := by
    refine (admitSlot_congr (fun j => ?_) (fun j => ?_) ?_).trans found <;> refine State.get_put_other _ _ _ _ ?_ <;>
      simp only [R.VER_SLOT.state, R.VER_SLOT.gen, R.VER_CUR.gen, R.VER_HDR.gate_hold] <;> omega
  refine exec_calm ⟨alone, rfl, rfl, slot3 slot, free, chk, wait, rfl, rfl, by simp [opVerAdmit]⟩ ?_
    ((calm.trans (calm_put u key (.inr (by simp only [R.VER_HDR.gate_hold]; omega)))).trans (calm_admitted _ key sd i)) noEnd
  change (match ((s.admitStart (seqKey c)).put (R.VER_HDR.gate_hold (seqKey c)) 0).admitSlot (seqKey c) with
    | none => _
    | some i => _) = _
  rw [start, found']
  rfl

/-- An admission. -/
theorem admits {sd : BitVec 5} {i : Nat} (free : s.NoPending c (.verAdmit c sd false)) (entry : s.get (R.VER_HDR.entry (seqKey c)) = 1) :
    let k := seqKey c
    let u := if s.get (R.VER_ADMIT.pend k) = 1 ∧ s.get (R.VER_CUR.gen k) = 0 then s.pointerIn k else s
    u.gateHeld k = false → u.get (R.VER_HDR.bar_hold k) = 0 → u.admitSlot k = some i → u.vcount k i < 65535 → let g := u.get (R.VER_CUR.gen k)
    ∃ t, exec (.verAdmit c sd false) s = .next t ∧ s.Issued t k (s.pc k + 1) ∧ SameMem s t ∧ t.vcount k i = u.vcount k i + 1 ∧
      t.s k sd = (if sd = 0 then 0 else BitVec.ofNat 64 g) ∧ (t.seq k).ob.gen = g ∧ (t.seq k).ob.slot = i ∧
      (t.seq k).ob.group = s.get (R.VER_CUR.group k) ∧ t.get (R.VER_CUR.gen k) = g ∧ t.get (R.VER_CUR.group k) = s.get (R.VER_CUR.group k) := by
  have key := seqKey_lt c
  have start := admitStart_eq s (seqKey c)
  have revised : Revised s (if s.get (R.VER_ADMIT.pend (seqKey c)) = 1 ∧ s.get (R.VER_CUR.gen (seqKey c)) = 0 then s.pointerIn (seqKey c) else s) := by
    split
    · exact revised_pointerIn ..
    · exact Revised.refl s
  have group : (if s.get (R.VER_ADMIT.pend (seqKey c)) = 1 ∧ s.get (R.VER_CUR.gen (seqKey c)) = 0 then s.pointerIn (seqKey c) else s).get
      (R.VER_CUR.group (seqKey c)) = s.get (R.VER_CUR.group (seqKey c)) := by
    split
    · exact pointerIn_group ..
    · rfl
  dsimp only
  generalize (if s.get (R.VER_ADMIT.pend (seqKey c)) = 1 ∧ s.get (R.VER_CUR.gen (seqKey c)) = 0 then s.pointerIn (seqKey c) else s) = u at *
  intro gate bar found room
  obtain ⟨t, run, ended⟩ := exec_verAdmit alone slot noEnd up free entry start (calm_of_revised revised key) gate bar found room
  obtain ⟨-, -, gateLow, genLow, groupLow, -⟩ := header_low (seqKey c)
  obtain ⟨-, -, countHigh, -⟩ := slot_high (seqKey c) i
  have put {g : Fld} (apart : g.a ≠ (R.VER_HDR.gate_hold (seqKey c)).a) : (u.put (R.VER_HDR.gate_hold (seqKey c)) 0).get g = u.get g :=
    State.get_put_other _ _ _ _ apart
  have count := put (g := R.VER_SLOT.count (seqKey c) i) (by omega)
  have gen := put (g := R.VER_CUR.gen (seqKey c)) (by simp only [R.VER_CUR.gen, R.VER_HDR.gate_hold]; omega)
  have groups := put (g := R.VER_CUR.group (seqKey c)) (by simp only [R.VER_CUR.group, R.VER_HDR.gate_hold]; omega)
  have ob : (t.seq (seqKey c)).ob = { (u.seq (seqKey c)).ob with
      gen := u.get (R.VER_CUR.gen (seqKey c)), group := u.get (R.VER_CUR.group (seqKey c)), slot := i } := by
    rw [ended.own Seq.ob fun _ _ => rfl, admitted_ob, gen, groups]
    rfl
  refine ⟨t, run, ended.issued, ended.mem, ?_, ?_, by rw [ob], by rw [ob], by rw [ob]; exact group, ?_, ?_⟩
  · change t.get (R.VER_SLOT.count (seqKey c) i) = u.get (R.VER_SLOT.count (seqKey c) i) + 1
    rw [ended.get key (.inr (by omega)) (by omega), admitted_get, State.get_put_same, State.vcount, count]
    exact Nat.mod_eq_of_lt (Nat.succ_lt_succ room)
  · rw [ended.sreg, State.admitted, sreg_wS, gen]
  · rw [ended.get key (.inr (by simp only [R.VER_CUR.gen]; omega)) (by simp only [R.VER_CUR.gen, R.VER_HDR.gate_hold]; omega), admitted_get,
      State.get_put_other _ _ _ _ (by omega), gen]
  · rw [ended.get key (.inr (by simp only [R.VER_CUR.group]; omega)) (by simp only [R.VER_CUR.group, R.VER_HDR.gate_hold]; omega), admitted_get,
      State.get_put_other _ _ _ _ (by omega), groups, group]

end

theorem exec_verAdmit_inner {sd : BitVec 5} {close : Bool} (free : s.NoPending c (.verAdmit c sd close))
    (inner : s.get (R.VER_HDR.entry (seqKey c)) = 0) :
    exec (.verAdmit c sd close) s = .next (s.takeExc (seqKey c) 3 (exc E.VER_ENTRY (seqKey c))) := by
  have chk : (opVerAdmit (seqKey c) sd close).chk s = some (exc E.VER_ENTRY (seqKey c)) := by
    refine (verCheck_up up _).trans ?_
    simp only [firstExc, flag_eq_false inner, Bool.not_false, if_true]
  rw [exec_raises alone rfl rfl (slot3 slot) free chk rfl rfl (by decide : E.VER_ENTRY ≠ E.CFG_COMMIT), slot]
  rfl

end

/-! ## The pointer to the generation of admission (R182) -/

/-- What a pointer that is taken writes. -/
def pointerFields (k g : Nat) (b : Bool) : List (Fld × Nat) :=
  [(R.VER_ADMIT.gen k, g), (R.VER_ADMIT.barrier k, b2n b), (R.VER_ADMIT.pend k, 1), (R.VER_CSTAT.result, 1), (R.VER_CSTAT.stage, k)]

theorem pointerFields_nodup {k : Nat} (key : k < 96) (g : Nat) (b : Bool) : ((pointerFields k g b).map fun p => p.1.a).Nodup := by
  simp only [pointerFields, List.map_cons, List.map_nil, List.nodup_cons, List.mem_cons, List.not_mem_nil, or_false, not_or, not_false_eq_true,
    List.nodup_nil, and_true, R.VER_ADMIT.gen, R.VER_ADMIT.barrier, R.VER_ADMIT.pend, R.VER_CSTAT.result, R.VER_CSTAT.stage]
  omega

/-- A pointer that is taken. -/
def State.pointerTaken (s : State) (k g : Nat) (b : Bool) : State := s.puts (pointerFields k g b)

theorem pointerTaken_eq (s : State) (k g : Nat) (b : Bool) : (s.setAdmit k g b).verResult k 1 = s.pointerTaken k g b := rfl

theorem revised_pointerTaken (s : State) (k g : Nat) (b : Bool) : Revised s (s.pointerTaken k g b) := by
  refine revised_puts s fun p mem => ?_
  simp only [pointerFields, List.mem_cons, List.not_mem_nil, or_false] at mem
  rcases mem with rfl | rfl | rfl | rfl | rfl <;>
    simp only [R.VER_ADMIT.gen, R.VER_ADMIT.barrier, R.VER_ADMIT.pend, R.VER_CSTAT.result, R.VER_CSTAT.stage] <;> omega

theorem pointerTaken_facts (s : State) {k g : Nat} {b : Bool} (key : k < 96) (small : g < 2 ^ 32) : let t := s.pointerTaken k g b
    t.get (R.VER_ADMIT.gen k) = g ∧ t.get (R.VER_ADMIT.barrier k) = b2n b ∧ t.get (R.VER_ADMIT.pend k) = 1 ∧
      t.get (R.VER_CUR.gen k) = s.get (R.VER_CUR.gen k) ∧ t.get R.VER_CSTAT.result = 1 ∧ t.get R.VER_CSTAT.stage = k := by
  have own {p : Fld × Nat} (mem : p ∈ pointerFields k g b) : (s.pointerTaken k g b).get p.1 = p.2 % 2 ^ p.1.w :=
    puts_get_of_nodup s (pointerFields_nodup key g b) mem
  refine ⟨(own (p := (R.VER_ADMIT.gen k, g)) (by simp [pointerFields])).trans (Nat.mod_eq_of_lt small),
    (own (p := (R.VER_ADMIT.barrier k, b2n b)) (by simp [pointerFields])).trans (by cases b <;> rfl),
    own (p := (R.VER_ADMIT.pend k, 1)) (by simp [pointerFields]), puts_get_other s fun p mem => ?_,
    own (p := (R.VER_CSTAT.result, 1)) (by simp [pointerFields]),
    (own (p := (R.VER_CSTAT.stage, k)) (by simp [pointerFields])).trans (Nat.mod_eq_of_lt (by simp only [R.VER_CSTAT.stage]; omega))⟩
  simp only [pointerFields, List.mem_cons, List.not_mem_nil, or_false] at mem
  rcases mem with rfl | rfl | rfl | rfl | rfl <;>
    simp only [R.VER_ADMIT.gen, R.VER_ADMIT.barrier, R.VER_ADMIT.pend, R.VER_CSTAT.result, R.VER_CSTAT.stage, R.VER_CUR.gen] <;> omega

theorem verResult_facts (s : State) {k r : Nat} (key : k < 96) (small : r < 4) : Revised s (s.verResult k r) ∧
    (s.verResult k r).get R.VER_CSTAT.result = r ∧ (s.verResult k r).get R.VER_CSTAT.stage = k ∧
    ∀ g : Fld, g.a < 8 * 0x38c0000 → (s.verResult k r).get g = s.get g := by
  have stage (u : State) {g : Fld} (apart : g.a ≠ R.VER_CSTAT.stage.a) : (u.put R.VER_CSTAT.stage k).get g = u.get g :=
    State.get_put_other _ _ _ _ apart
  refine ⟨(revised_put s (f := R.VER_CSTAT.result) (by decide)).trans (revised_put _ (f := R.VER_CSTAT.stage) (by decide)), ?_, ?_, fun g low => ?_⟩
  · refine (stage _ (by decide)).trans ((State.get_put_same s R.VER_CSTAT.result r).trans (Nat.mod_eq_of_lt ?_))
    simp only [R.VER_CSTAT.result]
    omega
  · refine (State.get_put_same _ R.VER_CSTAT.stage k).trans (Nat.mod_eq_of_lt ?_)
    simp only [R.VER_CSTAT.stage]
    omega
  · refine (stage _ ?_).trans (State.get_put_other _ _ _ _ ?_) <;> simp only [R.VER_CSTAT.stage, R.VER_CSTAT.result] <;> omega

/-- What R182 asks of a pointer. -/
theorem admitOk_of {s : State} {k g : Nat} {b : Bool} (entry : s.get (R.VER_HDR.entry k) = 1) (newer : s.get (R.VER_CUR.gen k) < g)
    (bar : s.get (R.VER_HDR.bar_hold k) = 0) (ready : if b then s.get (R.VER_HDR.top k) < g else ∃ i, s.vfind k g = some i ∧ s.vst k i = verLIVE) :
    s.admitOk k g b = true := by
  unfold State.admitOk
  rw [flag_eq_true entry, flag_eq_false bar, decide_eq_true newer]
  cases b with
  | true => exact decide_eq_true ready
  | false =>
    obtain ⟨i, found, live⟩ := ready
    rw [found]
    exact decide_eq_true live

/-- A pointer that is refused: its result stands when the exception is taken. -/
theorem exec_refuses {s : State} {c : SlotCtl} {i : Instr} {o : SlotOp} {e : Exc} (alone : s.Alone c) (ctl : slotCtlOf i = some c)
    (sem : semOf i = some o) (slot : o.slots.contains c.slot.val = true) (free : s.NoPending c i)
    (chk : o.chk s = some e) (desc : o.desc = false) (reads : o.reads (s.verResult (seqKey c) 2) = []) (code : e.code = E.CFG_COMMIT)
    (adm : hasAdm [i] = true) (op : ∀ c, i ≠ .nop c := by exact fun _ op => nomatch op) :
    exec i s = .next ((s.verResult (seqKey c) 2).takeExc (seqKey c) c.slot.val e) := by
  obtain ⟨running, live, staged, held, noStep, last, on, inImage, image, fetch⟩ := alone
  have slots : slotsOf [i] = [⟨i, c, o, encSlot i⟩] := by simp [slotsOf, ctl, sem]
  have wait := srcWait_of_regWait s (seqKey c) o (free o sem)
  have wait' : (s.verResult (seqKey c) 2).srcWait (seqKey c) o = false := wait
  have decode : SlotIn.decodeExc ⟨i, c, o, encSlot i⟩ = none := by
    unfold SlotIn.decodeExc
    rw [if_neg (fun enc => opcode_ne_zero sem op enc.1), if_pos slot]
  have detail : SlotIn.detail ⟨i, c, o, encSlot i⟩ e = e := if_neg (by rw [code]; decide)
  have raised : s.slotExc (seqKey c) [⟨i, c, o, encSlot i⟩] ⟨i, c, o, encSlot i⟩ = some e := by
    simp [State.slotExc, decode, on, clashSlot, wait, chk, detail]
  have judged : s.judge (seqKey c) [i] = .raise c.slot.val e := by
    unfold State.judge
    simp [slots, on, not_le.2 inImage, State.firstRaise, raised, fetch, desc]
  have refused : (s.verResult (seqKey c) 2).noteRefused (seqKey c) c.slot.val [i] = s.verResult (seqKey c) 2 := by
    simp [State.noteRefused, slots, wait', reads]
  rw [exec_slot ctl sem]
  unfold issue
  simp only [running, staged, held, last, live, List.getLast?_nil, Option.bind_none, List.isEmpty_nil, if_true, List.nil_append,
    Bool.and_self, ne_eq, not_true_eq_false, false_or, Bool.true_eq_false, if_false, Bool.false_eq_true]
  unfold State.tryBundle
  rw [judged]
  simp only [code, adm, and_self, if_true, refused]

section
variable {s : State} {c : SlotCtl} (alone : s.Alone c) (slot : c.slot = 3) (up : s.halfInReset (halfOfDie c.die.val) = false)
  {gs : BitVec 5} {b : Bool} (free : s.NoPending c (.verAdm c gs b)) (entry : s.get (R.VER_HDR.entry (seqKey c)) = 1)
include alone slot up free entry

theorem exec_verAdm_refused (bad : s.admitOk (seqKey c) ((s.s (seqKey c) gs).toNat % 2 ^ 32) b = false) :
    exec (.verAdm c gs b) s = .next ((s.verResult (seqKey c) 2).takeExc (seqKey c) 3 (exc E.CFG_COMMIT ((s.s (seqKey c) gs).toNat % 2 ^ 32))) := by
  have chk : (opVerAdm (seqKey c) gs b).chk s = some (exc E.CFG_COMMIT ((s.s (seqKey c) gs).toNat % 2 ^ 32)) := by
    refine (verCheck_up up _).trans ?_
    simp only [firstExc, flag_eq_true entry, bad, Bool.not_true, Bool.not_false, Bool.false_eq_true, if_false, if_true]
  rw [exec_refuses alone rfl rfl (slot3 slot) free chk rfl rfl rfl rfl, slot]
  rfl

theorem exec_verAdm (noEnd : s.NoLoopEnd (seqKey c)) (ok : s.admitOk (seqKey c) ((s.s (seqKey c) gs).toNat % 2 ^ 32) b = true) :
    ∃ t, exec (.verAdm c gs b) s = .next t ∧ Ended s (s.pointerTaken (seqKey c) ((s.s (seqKey c) gs).toNat % 2 ^ 32) b) t (seqKey c) := by
  have chk : (opVerAdm (seqKey c) gs b).chk s = none := by
    refine (verCheck_up up _).trans ?_
    simp only [firstExc, flag_eq_true entry, ok, Bool.not_true, Bool.false_eq_true, if_false]
  exact exec_calm ⟨alone, rfl, rfl, slot3 slot, free, chk, rfl, rfl, rfl, by simp [opVerAdm]⟩ (pointerTaken_eq ..)
    (calm_of_revised (revised_pointerTaken ..) (seqKey_lt c)) noEnd

theorem pointer_taken (noEnd : s.NoLoopEnd (seqKey c)) : let k := seqKey c
    let g := (s.s k gs).toNat % 2 ^ 32
    s.get (R.VER_CUR.gen k) < g → s.get (R.VER_HDR.bar_hold k) = 0 →
    (if b then s.get (R.VER_HDR.top k) < g else ∃ i, s.vfind k g = some i ∧ s.vst k i = verLIVE) →
    ∃ t, exec (.verAdm c gs b) s = .next t ∧ s.Issued t k (s.pc k + 1) ∧ SameMem s t ∧ t.get (R.VER_ADMIT.gen k) = g ∧
      t.get (R.VER_ADMIT.barrier k) = b2n b ∧ t.get (R.VER_ADMIT.pend k) = 1 ∧ t.get (R.VER_CUR.gen k) = s.get (R.VER_CUR.gen k) ∧
      t.get R.VER_CSTAT.result = 1 ∧ t.get R.VER_CSTAT.stage = k := by
  have key := seqKey_lt c
  intro k g newer bar ready
  obtain ⟨t, run, ended⟩ := exec_verAdm alone slot up free entry noEnd (admitOk_of entry newer bar ready)
  obtain ⟨gen, barrier, pend, cur, result, stage⟩ := pointerTaken_facts s (g := g) (b := b) key (Nat.mod_lt _ (by decide))
  have own {f : Fld} (table : 8 * 0x3800000 ≤ f.a) (gate : f.a ≠ (R.VER_HDR.gate_hold k).a) : t.get f = (s.pointerTaken k g b).get f :=
    ended.get key (.inr (by omega)) gate
  refine ⟨t, run, ended.issued, ended.mem, (own ?_ ?_).trans gen, (own ?_ ?_).trans barrier, (own ?_ ?_).trans pend, (own ?_ ?_).trans cur,
    (own ?_ ?_).trans result, (own ?_ ?_).trans stage⟩ <;>
    simp only [R.VER_ADMIT.gen, R.VER_ADMIT.barrier, R.VER_ADMIT.pend, R.VER_CUR.gen, R.VER_CSTAT.result, R.VER_CSTAT.stage, R.VER_HDR.gate_hold] <;>
    omega

end

/-! ## A switch to a generation held (R185) -/

section
variable {s : State} {c : SlotCtl} (alone : s.Alone c) (slot : c.slot = 3) (noEnd : s.NoLoopEnd (seqKey c))
  (up : s.halfInReset (halfOfDie c.die.val) = false) {gs : BitVec 5} {i : Nat} (free : s.NoPending c (.verSw c gs))
include alone slot noEnd up free

theorem switched_to : let k := seqKey c
    let g := (s.s k gs).toNat % 2 ^ 32
    s.get (R.VER_HDR.entry k) = 0 → s.get (R.VER_CUR.gen k) < g → i < 4 → s.vgen k i = g → (s.vst k i = verLIVE ∨ s.vst k i = verBUILDING) →
    ∃ t, exec (.verSw c gs) s = .next t ∧ s.Issued t k (s.pc k + 1) ∧ SameMem s t ∧ t.get (R.VER_CUR.gen k) = g ∧
      ∀ j, j < 4 → t.vcount k j = s.vcount k j ∧ t.vgen k j = s.vgen k j ∧
        t.vst k j = (if s.vst k j = verLIVE ∧ s.vgen k j < g then (if s.vcount k j = 0 then verFREE else verDRAINING) else s.vst k j) := by
  have key := seqKey_lt c
  intro k g inner newer small gen state
  have holds : (List.range 4).any (fun i => decide ((s.vst k i = verLIVE ∨ s.vst k i = verBUILDING) ∧ s.vgen k i = g)) = true :=
    List.any_eq_true.2 ⟨i, List.mem_range.2 small, decide_eq_true ⟨state, gen⟩⟩
  have order : decide (g ≤ s.get (R.VER_CUR.gen k)) = false := decide_eq_false (not_le.2 newer)
  have chk : (opVerSw k gs).chk s = none := by
    refine (verCheck_up up _).trans ?_
    change firstExc [(s.flag (R.VER_HDR.entry k), _), (decide (g ≤ s.get (R.VER_CUR.gen k)) ||
      (!(List.range 4).any (fun i => decide ((s.vst k i = verLIVE ∨ s.vst k i = verBUILDING) ∧ s.vgen k i = g)) && _), _)] = none
    rw [flag_eq_false inner, order, holds]
    rfl
  have eff : (opVerSw k gs).eff s s = (s.oldDrained k g none 4).put (R.VER_CUR.gen k) g :=
    congrArg (fun u : State => u.put (R.VER_CUR.gen k) g) (vswitch_held small state gen)
  have revised := (revised_oldDrained s k g none 4).trans (revised_put (f := R.VER_CUR.gen k) (v := g) _ (by simp only [R.VER_CUR.gen]; omega))
  obtain ⟨t, run, ended⟩ := exec_calm ⟨alone, rfl, rfl, slot3 slot, free, chk, rfl, rfl, rfl, by simp [opVerSw]⟩ eff (calm_of_revised revised key) noEnd
  have slots {f : Fld} (high : 8 * (0x3800040 + 0x2000 * k) ≤ f.a) : t.get f = (s.oldDrained k g none 4).get f := by
    have gateLow := (header_low k).2.2.1
    have genLow := (header_low k).2.2.2.1
    have table : 8 * 0x3800000 ≤ f.a := by omega
    exact (ended.get key (.inr (by omega)) (ne_of_gt (lt_of_lt_of_le gateLow high))).trans
      (State.get_put_other _ _ _ _ (ne_of_gt (lt_of_lt_of_le genLow high)))
  refine ⟨t, run, ended.issued, ended.mem, ?_, fun j less => ?_⟩
  · rw [ended.get key (.inr (by simp only [R.VER_CUR.gen]; omega)) (by simp only [R.VER_CUR.gen, R.VER_HDR.gate_hold]; omega), State.get_put_same]
    exact Nat.mod_eq_of_lt (Nat.mod_lt _ (by decide))
  · obtain ⟨stateHigh, genHigh, countHigh, -⟩ := slot_high k j
    have drained := oldDrained_state s k g 4 j
    simp only [less, true_and] at drained
    exact ⟨(slots countHigh).trans (oldDrained_count ..), (slots genHigh).trans (oldDrained_gen ..), (slots stateHigh).trans drained⟩

end

/-! ## The register commands (R182, R191, R193) -/

section
variable {s : State} {l : Fin 96} (opened : s.Open) (up : s.halfInReset (halfOfDie (l.val / 4)) = false)
include opened up

theorem exec_verAdmitWrite {m : Master} {g : BitVec 32} {b : Bool} : exec (.verAdmitWrite m l g b) s = .next (
    if !s.owns m 2 then s.ownDrop m (0x0380_0008 + 0x2000 * l.val)
    else if s.admitOk l.val g.toNat b then s.pointerTaken l.val g.toNat b
    else (s.raise E.CFG_COMMIT (some (s.seqCtx l.val)) (atLd (ldOfDie (l.val / 4))) l.val).verResult l.val 2) :=
  congrArg Host.Outcome.next ((gated_of_open opened _ _).trans (if_neg (by rw [up]; decide)))

theorem admitWrite_owned {m : Master} (g : BitVec 32) (b : Bool) (own : s.owns m 2 = true) : let n := l.val
    ∃ t, exec (.verAdmitWrite m l g b) s = .next t ∧
      t.get R.VER_CSTAT.stage = n ∧ SameMem s t ∧ if s.admitOk n g.toNat b then t.get (R.VER_ADMIT.gen n) = g.toNat ∧
        t.get (R.VER_ADMIT.barrier n) = b2n b ∧ t.get (R.VER_ADMIT.pend n) = 1 ∧ t.get R.VER_CSTAT.result = 1
      else t.get (R.VER_ADMIT.gen n) = s.get (R.VER_ADMIT.gen n) ∧ t.get (R.VER_ADMIT.pend n) = s.get (R.VER_ADMIT.pend n) ∧
        t.get R.VER_CSTAT.result = 2 := by
  have mine : ¬(!s.owns m 2) = true := by rw [own]; decide
  have run := (exec_verAdmitWrite opened up (g := g) (b := b)).trans (congrArg Host.Outcome.next (if_neg mine))
  dsimp only
  by_cases ok : s.admitOk l.val g.toNat b = true
  · obtain ⟨gen, barrier, pend, -, result, stage⟩ := pointerTaken_facts s (g := g.toNat) (b := b) l.isLt g.isLt
    exact ⟨_, run.trans (congrArg Host.Outcome.next (if_pos ok)), stage, (revised_pointerTaken ..).mem, by
      rw [if_pos ok]
      exact ⟨gen, barrier, pend, result⟩⟩
  · obtain ⟨revised, result, stage, low⟩ := verResult_facts (s.raise E.CFG_COMMIT (some (s.seqCtx l.val)) (atLd (ldOfDie (l.val / 4))) l.val) (r := 2)
      l.isLt (by decide)
    have keeps {f : Fld} (place : f.a < 8 * 0x38c0000) :
        ((s.raise E.CFG_COMMIT (some (s.seqCtx l.val)) (atLd (ldOfDie (l.val / 4))) l.val).verResult l.val 2).get f = s.get f :=
      (low f place).trans (raise_get s (by omega))
    exact ⟨_, run.trans (congrArg Host.Outcome.next (if_neg ok)), stage, (sameMem_of_unlogged (raise_unlogged ..)).trans revised.mem, by
      rw [if_neg ok]
      exact ⟨keeps (by simp only [R.VER_ADMIT.gen]; omega), keeps (by simp only [R.VER_ADMIT.pend]; omega), result⟩⟩

theorem admitWrite_unowned {m : Master} (g : BitVec 32) (b : Bool) (own : s.owns m 2 = false) : let n := l.val
    ∃ t, exec (.verAdmitWrite m l g b) s = .next t ∧
      t.get (R.VER_ADMIT.gen n) = s.get (R.VER_ADMIT.gen n) ∧ t.get (R.VER_ADMIT.pend n) = s.get (R.VER_ADMIT.pend n) ∧
      t.get R.OWN_LOG.count = min (s.get R.OWN_LOG.count + 1) (2 ^ R.OWN_LOG.count.w - 1) ∧ (t.log.head?.map LogEntry.code) = some E.CFG_OWNER := by
  refine ⟨_, (exec_verAdmitWrite opened up).trans (congrArg Host.Outcome.next (if_pos (by rw [own]; rfl))),
    ownDrop_other s m _ ?_ ?_, ownDrop_other s m _ ?_ ?_, ownDrop_count s m _, log_code_of_raise⟩ <;>
    simp only [R.VER_ADMIT.gen, R.VER_ADMIT.pend] <;> omega

/-! ### A slot made LIVE or dropped by command -/

theorem exec_verCmdLive (sl : Fin 4) : exec (.verCmdLive l sl) s = .next (
    if s.vst l.val sl.val ≠ verBUILDING then
      (s.raise E.VER_STATE (some (s.seqCtx l.val)) (atLd (ldOfDie (l.val / 4))) sl.val).verResult l.val 3
    else if s.seqBound l.val && s.leaving (s.seqCtx l.val) then
      (s.raise E.CFG_COMMIT (some (s.seqCtx l.val)) (atLd (ldOfDie (l.val / 4))) sl.val).verResult l.val 2
    else if s.layersBad (s.seqCtx l.val) l.val sl.val then
      ((s.permNote s.entryLd (s.seqCtx l.val) (s.layerRanges l.val sl.val)).raise E.CFG_COMMIT (some (s.seqCtx l.val)) (atLd (ldOfDie (l.val / 4)))
        sl.val).verResult l.val 2
    else (s.vlive l.val sl.val).verResult l.val 1) :=
  congrArg Host.Outcome.next ((gated_of_open opened _ _).trans (if_neg (by rw [up]; decide)))

/-- A pin that waits for slot `i` ends with the slot. -/
def State.pinsEnded (s : State) (l i : Nat) : State :=
  if s.pinWaits l i then { s with pinEnd := KMap.put (fun _ => 0) s.pinEnd l 3 } else s

theorem exec_verCmdDrop (sl : Fin 4) : exec (.verCmdDrop l sl) s = .next (
    if s.vst l.val sl.val ≠ verBUILDING then
      (s.raise E.VER_STATE (some (s.seqCtx l.val)) (atLd (ldOfDie (l.val / 4))) sl.val).verResult l.val 3
    else ((s.pinsEnded l.val sl.val).put (R.VER_SLOT.state l.val sl.val) verFREE).verResult l.val 1) :=
  congrArg Host.Outcome.next ((gated_of_open opened _ _).trans (if_neg (by rw [up]; decide)))

end

theorem state_low {l i : Nat} (table : l < 96) (slot : i < 4) : (R.VER_SLOT.state l i).a < 8 * 0x38c0000 := by
  simp only [R.VER_SLOT.state]
  omega

theorem mem_layerGroup {l i : Nat} {f : Fld} (mem : f ∈ layerGroup l i) : f = R.VER_SLOT.nlayers l i ∨ ∃ j, j < 240 ∧ f = R.VER_LBASE.base l i j := by
  rcases List.mem_cons.1 mem with rfl | mem
  · exact .inl rfl
  · obtain ⟨j, inside, rfl⟩ := List.mem_map.1 mem
    exact .inr ⟨j, List.mem_range.1 inside, rfl⟩

/-- The layer group stands apart from the slots' states, generations, and the header. -/
theorem layerGroup_apart {l i : Nat} (slot : i < 4) {f : Fld} (mem : f ∈ layerGroup l i) : 8 * 0x3800000 ≤ f.a ∧
    (∀ j, j < 4 → f.a ≠ (R.VER_SLOT.state l j).a ∧ f.a ≠ (R.VER_SLOT.gen l j).a) ∧ f.a ≠ (R.VER_CUR.gen l).a ∧ f.a ≠ (R.VER_HDR.bar_hold l).a ∧
    f.a ≠ (R.VER_HDR.gate_hold l).a := by
  rcases mem_layerGroup mem with rfl | ⟨j, inside, rfl⟩ <;>
    simp only [R.VER_SLOT.nlayers, R.VER_LBASE.base, R.VER_SLOT.state, R.VER_SLOT.gen, R.VER_CUR.gen, R.VER_HDR.bar_hold, R.VER_HDR.gate_hold] <;>
    refine ⟨by omega, fun j less => by omega, by omega, by omega, by omega⟩

theorem layerGroup_fields {l i : Nat} (slot : i < 4) : Fields (layerGroup l i) := by
  intro f hf g hg same
  rcases mem_layerGroup hf with rfl | ⟨a, ha, rfl⟩ <;> rcases mem_layerGroup hg with rfl | ⟨b, hb, rfl⟩ <;>
    simp only [R.VER_SLOT.nlayers, R.VER_LBASE.base] at same
  · rfl
  · omega
  · omega
  · obtain rfl : a = b := by omega
    rfl

/-- The slot LIVE with its group committed, before the barrier hold is seen to. -/
def State.livened (s : State) (l i : Nat) : State :=
  ((s.commit (layerGroup l i)).put (R.VER_SLOT.state l i) verLIVE).setRefill (KMap.drop s.refill (4 * l + i))

theorem vlive_eq (s : State) (l i : Nat) : s.vlive l i =
    if (s.livened l i).vgen l i = (s.livened l i).get (R.VER_CUR.gen l) then (s.livened l i).put (R.VER_HDR.bar_hold l) 0 else s.livened l i := by
  have refill : ((s.commit (layerGroup l i)).put (R.VER_SLOT.state l i) verLIVE).refill = s.refill :=
    (congrArg State.refill (commit_uncommitted s (layerGroup l i)) :)
  unfold State.vlive State.livened
  rw [← refill]
  rfl

theorem livened_get (s : State) {l i : Nat} {g : Fld} (other : g.a ≠ (R.VER_SLOT.state l i).a) :
    (s.livened l i).get g = (s.commit (layerGroup l i)).get g := by
  rw [State.livened, setRefill_get, State.get_put_other _ _ _ _ other]

theorem revised_livened (s : State) {l i : Nat} (slot : i < 4) : Revised s (s.livened l i) := by
  have high := (slot_high l i).1
  exact ((revised_commit s fun f mem => (layerGroup_apart slot mem).1).trans (revised_put _ (by omega))).trans (revised_setRefill ..)

theorem livened_state (s : State) (l i : Nat) : (s.livened l i).vst l i = verLIVE := by
  rw [State.vst, State.livened, setRefill_get, State.get_put_same]
  rfl

/-- A slot made LIVE. -/
theorem vlive_facts (s : State) {l i : Nat} (slot : i < 4) : Revised s (s.vlive l i) ∧ (s.vlive l i).vst l i = verLIVE ∧
    (∀ f ∈ layerGroup l i, (s.vlive l i).get f = s.sget f) ∧ (s.vgen l i = s.get (R.VER_CUR.gen l) → (s.vlive l i).get (R.VER_HDR.bar_hold l) = 0) := by
  have revised := revised_livened s (l := l) slot
  have state := livened_state s l i
  have group (f : Fld) (mem : f ∈ layerGroup l i) : (s.livened l i).get f = s.sget f := by
    obtain ⟨-, slots, -⟩ := layerGroup_apart slot mem
    rw [livened_get s (slots i slot).1, commit_get s (layerGroup_fields slot) mem]
  have gen : (s.livened l i).vgen l i = s.vgen l i := by
    refine (livened_get s ?_).trans (commit_get_other s fun f mem => ((layerGroup_apart slot mem).2.1 i slot).2.symm)
    simp only [R.VER_SLOT.gen, R.VER_SLOT.state]
    omega
  have cur : (s.livened l i).get (R.VER_CUR.gen l) = s.get (R.VER_CUR.gen l) := by
    refine (livened_get s ?_).trans (commit_get_other s fun f mem => (layerGroup_apart slot mem).2.2.1.symm)
    simp only [R.VER_CUR.gen, R.VER_SLOT.state]
    omega
  rw [vlive_eq, gen, cur]
  by_cases here : s.vgen l i = s.get (R.VER_CUR.gen l)
  · have low := (header_low l).2.1
    have high := (slot_high l i).1
    rw [if_pos here]
    refine ⟨revised.trans (revised_put _ (by simp only [R.VER_HDR.bar_hold]; omega)), (State.get_put_other _ _ _ _ (by omega)).trans state,
      fun f mem => (State.get_put_other _ _ _ _ (layerGroup_apart slot mem).2.2.2.1).trans (group f mem), fun _ => ?_⟩
    rw [State.get_put_same, Nat.zero_mod]
  · rw [if_neg here]
    exact ⟨revised, state, group, fun h => absurd h here⟩

/-- A command refused with result `r`. -/
theorem refused_facts (s : State) (code r : Nat) (small : r < 4) (l : Fin 96) (sl : Fin 4) :
    let t := (s.raise code (some (s.seqCtx l.val)) (atLd (ldOfDie (l.val / 4))) sl.val).verResult l.val r
    t.vst l.val sl.val = s.vst l.val sl.val ∧ t.get R.VER_CSTAT.result = r ∧ SameMem s t ∧ (t.log.head?.map LogEntry.code) = some code := by
  obtain ⟨reported, result, -, low⟩ := verResult_facts (s.raise code (some (s.seqCtx l.val)) (atLd (ldOfDie (l.val / 4))) sl.val) (r := r) l.isLt small
  have place := state_low l.isLt sl.isLt
  have logged : ((s.raise code (some (s.seqCtx l.val)) (atLd (ldOfDie (l.val / 4))) sl.val).verResult l.val r).log =
      (s.raise code (some (s.seqCtx l.val)) (atLd (ldOfDie (l.val / 4))) sl.val).log := (congrArg State.log reported.rest :)
  exact ⟨(low _ place).trans (raise_get s (by omega)), result, (sameMem_of_unlogged (raise_unlogged ..)).trans reported.mem,
    (congrArg (fun l : List LogEntry => l.head?.map LogEntry.code) logged).trans log_code_of_raise⟩

section
variable {s : State} {l : Fin 96} {sl : Fin 4} (opened : s.Open) (up : s.halfInReset (halfOfDie (l.val / 4)) = false)
include opened up

theorem cmdLive_lives (building : s.vst l.val sl.val = verBUILDING) (stays : s.seqBound l.val = true → s.leaving (s.seqCtx l.val) = false)
    (layers : s.layersBad (s.seqCtx l.val) l.val sl.val = false) :
    ∃ t, exec (.verCmdLive l sl) s = .next t ∧ t.vst l.val sl.val = verLIVE ∧ t.get R.VER_CSTAT.result = 1 ∧ SameMem s t := by
  have stay : ¬(s.seqBound l.val && s.leaving (s.seqCtx l.val)) = true := by
    rw [Bool.and_eq_true]
    rintro ⟨bound, leaving⟩
    rw [stays bound] at leaving
    cases leaving
  obtain ⟨revised, state, -⟩ := vlive_facts s (l := l.val) sl.isLt
  obtain ⟨reported, result, -, low⟩ := verResult_facts (s.vlive l.val sl.val) (r := 1) l.isLt (by decide)
  exact ⟨_, (exec_verCmdLive opened up sl).trans (congrArg Host.Outcome.next ((if_neg (not_not.2 building)).trans ((if_neg stay).trans
    (if_neg (by rw [layers]; decide))))), (low _ (state_low l.isLt sl.isLt)).trans state, result, (revised.trans reported).mem⟩

theorem cmdLive_leaving (building : s.vst l.val sl.val = verBUILDING) (bound : s.seqBound l.val = true) (leaving : s.leaving (s.seqCtx l.val) = true) :
    ∃ t, exec (.verCmdLive l sl) s = .next t ∧ t.vst l.val sl.val = verBUILDING ∧ t.get R.VER_CSTAT.result = 2 ∧ SameMem s t ∧
      (t.log.head?.map LogEntry.code) = some E.CFG_COMMIT := by
  obtain ⟨state, rest⟩ := refused_facts s E.CFG_COMMIT 2 (by decide) l sl
  exact ⟨_, (exec_verCmdLive opened up sl).trans (congrArg Host.Outcome.next ((if_neg (not_not.2 building)).trans (if_pos (by rw [bound, leaving]; rfl)))),
    state.trans building, rest⟩

theorem cmdDrop_frees (building : s.vst l.val sl.val = verBUILDING) : ∃ t, exec (.verCmdDrop l sl) s = .next t ∧ t.vst l.val sl.val = verFREE ∧
    t.get R.VER_CSTAT.result = 1 ∧ SameMem s t ∧ t.seqs = s.seqs := by
  obtain ⟨reported, result, -, low⟩ := verResult_facts ((s.pinsEnded l.val sl.val).put (R.VER_SLOT.state l.val sl.val) verFREE) (r := 1) l.isLt (by decide)
  have ended : SameMem s (s.pinsEnded l.val sl.val) ∧ (s.pinsEnded l.val sl.val).seqs = s.seqs := by
    unfold State.pinsEnded
    split
    · exact ⟨sameMem_of_eq rfl rfl rfl rfl, rfl⟩
    · exact ⟨SameMem.refl s, rfl⟩
  have high := (slot_high l.val sl.val).1
  have dropped := revised_put (s.pinsEnded l.val sl.val) (f := R.VER_SLOT.state l.val sl.val) (v := verFREE) (by omega)
  exact ⟨_, (exec_verCmdDrop opened up sl).trans (congrArg Host.Outcome.next (if_neg (not_not.2 building))),
    (low _ (state_low l.isLt sl.isLt)).trans ((State.get_put_same ..).trans rfl), result, ended.1.trans (dropped.trans reported).mem,
    (dropped.trans reported).seqs.trans ended.2⟩

theorem cmds_refused (other : s.vst l.val sl.val ≠ verBUILDING) : ∃ t u, exec (.verCmdLive l sl) s = .next t ∧ exec (.verCmdDrop l sl) s = .next u ∧
    t.vst l.val sl.val = s.vst l.val sl.val ∧ u.vst l.val sl.val = s.vst l.val sl.val ∧ t.get R.VER_CSTAT.result = 3 ∧
    u.get R.VER_CSTAT.result = 3 := by
  obtain ⟨state, result, -⟩ := refused_facts s E.VER_STATE 3 (by decide) l sl
  exact ⟨_, _, (exec_verCmdLive opened up sl).trans (congrArg Host.Outcome.next (if_pos other)),
    (exec_verCmdDrop opened up sl).trans (congrArg Host.Outcome.next (if_pos other)), state, state, result, result⟩

end

theorem exec_verPinTimeout {s : State} {l : Fin 96} {i : Nat} (slot : i < 4) (waits : s.pinWaits l.val i = true) :
    ∃ t, exec (.verPinTimeout l) s = .next t ∧ KMap.find (fun _ => 0) t.pinEnd l.val = 4 ∧ SameMem s t ∧ t.regs = s.regs :=
  ⟨_, congrArg Host.Outcome.next (if_pos (List.any_eq_true.2 ⟨i, List.mem_range.2 slot, waits⟩)), (KMap.find_put (fun _ => 0) s.pinEnd l.val l.val 4).trans (if_pos rfl),
    sameMem_of_eq rfl rfl rfl rfl, rfl⟩

/-- Settles O13, by what each bundle and each command on a table writes. -/
theorem versionAdmitSwitchAndCommands : Obligations.VersionAdmitSwitchAndCommands :=
  ⟨fun _ _ alone slot noEnd up => ⟨fun _ _ free entry => admits alone slot noEnd up free entry,
      fun _ _ free inner => exec_verAdmit_inner alone slot up free inner,
      fun _ _ free entry => pointer_taken alone slot up free entry noEnd,
      fun _ _ free entry bad => exec_verAdm_refused alone slot up free entry bad,
      fun _ _ free => switched_to alone slot noEnd up free⟩,
    fun _ _ opened up => ⟨fun _ g b own => admitWrite_owned opened up g b own, fun _ g b own => admitWrite_unowned opened up g b own,
      fun _ building stays layers => cmdLive_lives opened up building stays layers,
      fun _ building bound leaving => cmdLive_leaving opened up building bound leaving, fun _ building => cmdDrop_frees opened up building,
      fun _ other => cmds_refused opened up other, fun _ slot waits => exec_verPinTimeout slot waits⟩⟩

end Sys2Proof.Machine

namespace Sys2Proof.Machine

-- One proof at a time: threads that wait for each other hold memory.
set_option Elab.async false

/-! ## A resolution that fails (R174) -/

/-- The oldest record that sequencer `k` holds on the flume is poisoned. -/
def State.poisoned (s : State) (k : Nat) (f : Option Nat) : State :=
  match f with
  | none => s
  | some f => s.setFlume f { s.flume f with
      recs := modFirst (fun r => r.held && decide (r.holder = k)) (fun r => { r with hdr := { r.hdr with poison := true } }) (s.flume f).recs }

/-- The counter of the failure's cause. -/
def failCount (k cause : Nat) : Fld := if cause = 2 then R.VER_CNT.stale k else R.VER_CNT.missing k

/-- The error of the failure's cause. -/
def failCode (cause : Nat) : Nat := if cause = 2 then E.VER_STALE else E.VER_MISSING

/-- The failure noted in the registers. -/
def failFields (k g mb cause : Nat) : List (Fld × Nat) := [(R.VER_LOG0.gen, g), (R.VER_LOG0.mb, mb), (R.VER_LOG1.cause, cause), (R.VER_LOG1.stage, k)]

/-- The failure as the registers have it. -/
def State.failNoted (s : State) (k g mb cause : Nat) : State := (s.count (failCount k cause) 1).puts (failFields k g mb cause)

theorem verFail_eq (s : State) (k : Nat) (f : Option Nat) (g mb cause : Nat) : s.verFail k f g mb cause =
    ((s.poisoned k f).failNoted k g mb cause).raise (failCode cause) (some (((s.poisoned k f).failNoted k g mb cause).seqCtx k)) (atLd (ldOfDie (k / 4)))
      g := by
  unfold State.verFail State.failNoted failCount failCode
  by_cases stale : cause = 2
  · simp only [if_pos stale]
    cases f <;> rfl
  · simp only [if_neg stale]
    cases f <;> rfl

theorem failCount_place (k cause : Nat) : 8 * 0x38d0000 ≤ (failCount k cause).a ∧ (failCount k cause).w = 48 := by
  unfold failCount
  split <;> refine ⟨?_, rfl⟩ <;> simp only [R.VER_CNT.stale, R.VER_CNT.missing] <;> omega

theorem failFields_nodup (k g mb cause : Nat) : ((failFields k g mb cause).map fun p => p.1.a).Nodup := by
  simp only [failFields, List.map_cons, List.map_nil]
  decide

theorem failFields_place {k g mb cause : Nat} {p : Fld × Nat} (mem : p ∈ failFields k g mb cause) : 8 * 0x38c0000 ≤ p.1.a ∧ p.1.a < 8 * 0x38d0000 := by
  simp only [failFields, List.mem_cons, List.not_mem_nil, or_false] at mem
  rcases mem with rfl | rfl | rfl | rfl <;> simp only [R.VER_LOG0.gen, R.VER_LOG0.mb, R.VER_LOG1.cause, R.VER_LOG1.stage] <;> omega

theorem revised_failNoted (s : State) (k g mb cause : Nat) : Revised s (s.failNoted k g mb cause) := by
  have place := (failCount_place k cause).1
  refine (revised_put s (by omega)).trans (revised_puts _ fun p mem => ?_)
  have := (failFields_place mem).1
  omega

theorem failNoted_get (s : State) (k n mb cause : Nat) {g : Fld} (low : g.a < 8 * 0x38c0000) : (s.failNoted k n mb cause).get g = s.get g := by
  have place := (failCount_place k cause).1
  refine (puts_get_other _ fun p mem => ?_).trans (State.get_put_other _ _ _ _ (by omega))
  have := (failFields_place mem).1
  omega

theorem failNoted_facts (s : State) (k g mb : Nat) {cause : Nat} (small : cause < 8) : (s.failNoted k g mb cause).get R.VER_LOG0.gen = g % 2 ^ 32 ∧
    (s.failNoted k g mb cause).get R.VER_LOG1.cause = cause ∧ s.Counted (s.failNoted k g mb cause) (failCount k cause) 1 := by
  have own {p : Fld × Nat} (mem : p ∈ failFields k g mb cause) : (s.failNoted k g mb cause).get p.1 = p.2 % 2 ^ p.1.w :=
    puts_get_of_nodup _ (failFields_nodup k g mb cause) mem
  refine ⟨own (p := (R.VER_LOG0.gen, g)) (by simp [failFields]),
    (own (p := (R.VER_LOG1.cause, cause)) (by simp [failFields])).trans (Nat.mod_eq_of_lt small), ?_⟩
  refine (puts_get_other _ fun p mem => ?_).trans (counted_count ..)
  have place := (failCount_place k cause).1
  have := (failFields_place mem).2
  omega

/-- What a failed resolution of sequencer `k` leaves in `t`; the record, if one was held, is poisoned in `u`. -/
structure Failed (s u t : State) (k g cause : Nat) : Prop where
  calm   : Calm s t k
  seqs   : t.seqs = s.seqs
  low    : ∀ f : Fld, f.a < 8 * 0x38c0000 → t.get f = s.get f
  gen    : t.get R.VER_LOG0.gen = g % 2 ^ 32
  noted  : t.get R.VER_LOG1.cause = cause
  count  : s.Counted t (failCount k cause) 1
  logged : (t.log.head?.map LogEntry.code) = some (failCode cause)
  flumes : t.flumes = u.flumes
  pins   : t.pinEnd = s.pinEnd

theorem failed_verFail (s : State) {k cause : Nat} (key : k < 96) (small : cause < 8) (f : Option Nat) (g mb : Nat) :
    Failed s (s.poisoned k f) (s.verFail k f g mb cause) k g cause := by
  have calm : Calm s (s.poisoned k f) k := by
    cases f with
    | none => exact Calm.refl s k
    | some f => exact calm_setFlume s k f _
  have seqs : (s.poisoned k f).seqs = s.seqs := by cases f <;> rfl
  have pins : (s.poisoned k f).pinEnd = s.pinEnd := by cases f <;> rfl
  have get (h : Fld) : (s.poisoned k f).get h = s.get h := by cases f <;> rfl
  rw [verFail_eq]
  generalize s.poisoned k f = u at *
  obtain ⟨gens, causes, count⟩ := failNoted_facts u k g mb small
  have noted := revised_failNoted u k g mb cause
  have low (h : Fld) (place : h.a < 8 * 0x38c0000) := failNoted_get u k g mb cause place
  generalize u.failNoted k g mb cause = v at *
  have raised := raise_unlogged v (failCode cause) (some (v.seqCtx k)) (atLd (ldOfDie (k / 4))) g
  have place := (failCount_place k cause).1
  have raisedCount : (v.raise (failCode cause) (some (v.seqCtx k)) (atLd (ldOfDie (k / 4))) g).get (failCount k cause) = v.get (failCount k cause) :=
    raise_get v (by unfold failCount; split <;> simp only [R.VER_CNT.stale, R.VER_CNT.missing] <;> omega)
  exact {
    calm := (calm.trans (calm_of_revised noted key)).trans (calm_raise v key)
    seqs := (seqs_of_unlogged raised).trans (noted.seqs.trans seqs)
    low := fun h place => (raise_get v (by omega)).trans ((low h place).trans (get h))
    gen := (raise_get v (by decide)).trans gens
    noted := (raise_get v (by decide)).trans causes
    count := by
      unfold State.Counted at count ⊢
      rw [raisedCount, count, get]
    logged := log_code_of_raise
    flumes := (congrArg State.flumes raised :).trans (congrArg State.flumes noted.rest :)
    pins := ((congrArg State.pinEnd raised :).trans (congrArg State.pinEnd noted.rest :)).trans pins }

/-! ## Pins (R172 to R175) -/

/-- What a wait of sequencer `k` ended with is taken. -/
def State.endTaken (s : State) (k : Nat) : State := { s with pinEnd := KMap.drop s.pinEnd k }

theorem endTaken_get (s : State) (k : Nat) (g : Fld) : (s.endTaken k).get g = s.get g := rfl

theorem calm_endTaken (s : State) (k : Nat) : Calm s (s.endTaken k) k := calm_of_same (sameMem_of_eq rfl rfl rfl rfl) rfl rfl rfl

/-- A pin on slot `i` for the oldest record held on flume `f`. -/
def State.pinned (v : State) (k f i : Nat) : State :=
  (v.put (R.VER_SLOT.count k i) (v.vcount k i + 1)).setFlume f { v.flume f with
    recs := modFirst (fun r => r.held && decide (r.holder = k)) (fun r => { r with pin := some r.hdr.gen }) (v.flume f).recs }

theorem pinned_get (v : State) (k f i : Nat) (g : Fld) :
    (v.pinned k f i).get g = (v.put (R.VER_SLOT.count k i) (v.vcount k i + 1)).get g := rfl

theorem calm_pinned (v : State) {k : Nat} (key : k < 96) (f i : Nat) : Calm v (v.pinned k f i) k := by
  have high := (slot_high k i).2.2.1
  exact (calm_put v key (.inr (by omega))).trans (calm_setFlume ..)

section
variable {s : State} {c : SlotCtl} (alone : s.Alone c) (slot : c.slot = 3) (noEnd : s.NoLoopEnd (seqKey c))
  (up : s.halfInReset (halfOfDie c.die.val) = false) {pd : BitVec 3} {sd : BitVec 5} {f : BitVec 13} {r : FlmRec}
  (free : s.NoPending c (.verPin c pd sd (.imm f))) (check : s.flmSeqCheck (seqKey c) f.toNat false = none)
  (held : (s.flume f.toNat).oldestHeld (seqKey c) = some r)
include alone slot noEnd up free check held

theorem exec_verPin {u : State} (room : ∀ i, s.vfind (seqKey c) r.hdr.gen = some i → ¬(s.vst (seqKey c) i = verLIVE ∧ s.vcount (seqKey c) i = 65535))
    (ready : KMap.find (fun _ => 0) s.pinEnd (seqKey c) = 0 → ∀ i, s.vfind (seqKey c) r.hdr.gen = some i → s.vst (seqKey c) i ≠ verBUILDING)
    (eff : (opVerPin (seqKey c) pd sd (.imm f)).eff s s = u) (calm : Calm s u (seqKey c)) :
    ∃ t, exec (.verPin c pd sd (.imm f)) s = .next t ∧ Ended s u t (seqKey c) := by
  have chk : (opVerPin (seqKey c) pd sd (.imm f)).chk s = none := by
    change (s.flmSeqCheck (seqKey c) f.toNat false).orElse (fun _ => verCheck s (seqKey c)
      [(((s.flume f.toNat).oldestHeld (seqKey c)).isNone, _), (match (s.flume f.toNat).oldestHeld (seqKey c) with
        | none => false
        | some r => match s.vfind (seqKey c) r.hdr.gen with
          | some i => decide (s.vst (seqKey c) i = verLIVE ∧ s.vcount (seqKey c) i = 65535)
          | none => false, _)]) = none
    rw [check, Option.orElse_none, verCheck_up up, held]
    cases found : s.vfind (seqKey c) r.hdr.gen with
    | none => simp [firstExc, found]
    | some i => simp only [firstExc, Option.isNone_some, found, decide_eq_false (room i found), Bool.false_eq_true, if_false]
  have wait : (opVerPin (seqKey c) pd sd (.imm f)).wait s = 0 := by
    change (if KMap.find (fun _ => 0) s.pinEnd (seqKey c) ≠ 0 then 0 else match s.pinSlot (seqKey c) (.imm f) with
      | some i => if s.vst (seqKey c) i = verBUILDING then 4 else 0
      | none => 0) = 0
    by_cases none_ : KMap.find (fun _ => 0) s.pinEnd (seqKey c) = 0
    · have resolves : s.pinSlot (seqKey c) (.imm f) = s.vfind (seqKey c) r.hdr.gen := by
        change ((s.flume f.toNat).oldestHeld (seqKey c)).bind _ = _
        rw [held, Option.bind_some]
      rw [if_neg (not_not.2 none_), resolves]
      cases found : s.vfind (seqKey c) r.hdr.gen with
      | none => rfl
      | some i => exact if_neg (ready none_ i found)
    · exact if_pos none_
  exact exec_calm ⟨alone, rfl, rfl, slot3 slot, free, chk, wait, rfl, rfl, by simp [opVerPin]⟩ eff calm noEnd

theorem pin_live {i : Nat} (found : s.vfind (seqKey c) r.hdr.gen = some i) (fresh : KMap.find (fun _ => 0) s.pinEnd (seqKey c) = 0)
    (live : s.vst (seqKey c) i = verLIVE) (room : s.vcount (seqKey c) i < 65535) : let k := seqKey c
    ∃ t, exec (.verPin c pd sd (.imm f)) s = .next t ∧ s.Issued t k (s.pc k + 1) ∧
      t.vcount k i = s.vcount k i + 1 ∧ t.vst k i = verLIVE ∧ t.p k pd = true ∧ t.s k sd = (if sd = 0 then 0 else BitVec.ofNat 64 i) ∧ SameMem s t := by
  have key := seqKey_lt c
  have eff : (opVerPin (seqKey c) pd sd (.imm f)).eff s s =
      ((((s.endTaken (seqKey c)).pinned (seqKey c) f.toNat i).wS (seqKey c) sd (BitVec.ofNat 64 i)).wP (seqKey c) pd true) := by
    change (match (s.flume f.toNat).oldestHeld (seqKey c) with
      | none => s.endTaken (seqKey c)
      | some r => if KMap.find (fun _ => 0) s.pinEnd (seqKey c) ≠ 0 then _ else match s.vfind (seqKey c) r.hdr.gen with
        | none => _
        | some i => if s.vst (seqKey c) i = verLIVE then _ else _) = _
    rw [held]
    dsimp only
    rw [if_neg (not_not.2 fresh), found]
    exact if_pos live
  have calm := ((calm_endTaken s (seqKey c)).trans (calm_pinned _ key f.toNat i)).trans
    ((calm_wS (((s.endTaken (seqKey c)).pinned (seqKey c) f.toNat i)) (seqKey c) sd (BitVec.ofNat 64 i)).trans (calm_wP _ (seqKey c) pd true))
  obtain ⟨t, run, ended⟩ := exec_verPin alone slot noEnd up free check held
    (fun j at_ full => by
      obtain rfl : i = j := Option.some.inj (found.symm.trans at_)
      omega)
    (fun _ j at_ building => by
      obtain rfl : i = j := Option.some.inj (found.symm.trans at_)
      rw [live] at building
      cases building) eff calm
  obtain ⟨stateHigh, -, countHigh, -⟩ := slot_high (seqKey c) i
  have gateLow := (header_low (seqKey c)).2.2.1
  refine ⟨t, run, ended.issued, ?_, ?_, ?_, ?_, ended.mem⟩
  · rw [State.vcount, ended.get key (.inr (by omega)) (by omega)]
    exact (State.get_put_same ..).trans (Nat.mod_eq_of_lt (Nat.succ_lt_succ room))
  · rw [State.vst, ended.get key (.inr (by omega)) (by omega)]
    refine (State.get_put_other _ _ _ _ ?_).trans live
    simp only [R.VER_SLOT.state, R.VER_SLOT.count]
    omega
  · rw [ended.preg, preg_wP, ite_self]
  · rw [ended.sreg, sreg_wP, sreg_wS]

/-- What a pin that fails does. -/
theorem pin_fails {cause : Nat} (small : cause < 8) (eff : (opVerPin (seqKey c) pd sd (.imm f)).eff s s =
      ((s.endTaken (seqKey c)).verFail (seqKey c) (some f.toNat) r.hdr.gen r.hdr.mb cause).wP (seqKey c) pd false)
    (room : ∀ i, s.vfind (seqKey c) r.hdr.gen = some i → ¬(s.vst (seqKey c) i = verLIVE ∧ s.vcount (seqKey c) i = 65535))
    (ready : KMap.find (fun _ => 0) s.pinEnd (seqKey c) = 0 → ∀ i, s.vfind (seqKey c) r.hdr.gen = some i → s.vst (seqKey c) i ≠ verBUILDING) :
    ∃ t, exec (.verPin c pd sd (.imm f)) s = .next t ∧ s.Issued t (seqKey c) (s.pc (seqKey c) + 1) ∧ t.p (seqKey c) pd = decide (pd = 0) ∧
      (∀ i, i < 4 → t.vcount (seqKey c) i = s.vcount (seqKey c) i) ∧ t.get R.VER_LOG0.gen = r.hdr.gen % 2 ^ 32 ∧ t.get R.VER_LOG1.cause = cause ∧
      s.Counted t (failCount (seqKey c) cause) 1 ∧ (t.log.head?.map LogEntry.code) = some (failCode cause) ∧
      KMap.find (fun _ => 0) t.pinEnd (seqKey c) = 0 ∧ ({ r with hdr := { r.hdr with poison := true } } : FlmRec) ∈ (t.flume f.toNat).recs := by
  have key := seqKey_lt c
  have failed := failed_verFail (s.endTaken (seqKey c)) key small (some f.toNat) r.hdr.gen r.hdr.mb
  obtain ⟨t, run, ended⟩ := exec_verPin alone slot noEnd up free check held room ready eff
    (((calm_endTaken s (seqKey c)).trans failed.calm).trans (calm_wP ..))
  have gateLow := (header_low (seqKey c)).2.2.1
  have place := failCount_place (seqKey c) cause
  have poisoned : ((s.endTaken (seqKey c)).poisoned (seqKey c) (some f.toNat)).flume f.toNat = { s.flume f.toNat with
      recs := modFirst (fun r => r.held && decide (r.holder = seqKey c)) (fun r => { r with hdr := { r.hdr with poison := true } })
        (s.flume f.toNat).recs } := (KMap.find_put (fun _ => Flume.empty) s.flumes f.toNat f.toNat _).trans (if_pos rfl)
  generalize (s.endTaken (seqKey c)).verFail (seqKey c) (some f.toNat) r.hdr.gen r.hdr.mb cause = w at *
  generalize (s.endTaken (seqKey c)).poisoned (seqKey c) (some f.toNat) = v at *
  have own {g : Fld} (table : 8 * 0x3800000 ≤ g.a) (gate : g.a ≠ (R.VER_HDR.gate_hold (seqKey c)).a) : t.get g = w.get g :=
    ended.get key (.inr (by omega)) gate
  have flume : t.flume f.toNat = v.flume f.toNat :=
    (ended.flume f.toNat).trans (congrArg (fun m => KMap.find (fun _ => Flume.empty) m f.toNat) failed.flumes)
  have pins : t.pinEnd = KMap.drop s.pinEnd (seqKey c) := (congrArg State.pinEnd ended.frame.rest :).trans failed.pins
  refine ⟨t, run, ended.issued, by rw [ended.preg, preg_wP_false], fun i small => ?_, ?_, ?_, ?_, ?_, ?_, ?_⟩
  · obtain ⟨-, -, countHigh, -⟩ := slot_high (seqKey c) i
    exact (own (by omega) (by omega)).trans (failed.low _ (by simp only [R.VER_SLOT.count]; omega))
  · exact (own (by decide) (by simp only [R.VER_LOG0.gen, R.VER_HDR.gate_hold]; omega)).trans failed.gen
  · exact (own (by decide) (by simp only [R.VER_LOG1.cause, R.VER_HDR.gate_hold]; omega)).trans failed.noted
  · exact (own (by omega) (by simp only [R.VER_HDR.gate_hold] at gateLow ⊢; omega)).trans failed.count
  · rw [ended.log]
    exact failed.logged
  · rw [pins]
    exact (KMap.find_drop ..).trans (if_pos rfl)
  · rw [flume, poisoned]
    exact mem_modFirst held

/-- The effect on a slot that drains. -/
theorem pin_draining {i : Nat} (found : s.vfind (seqKey c) r.hdr.gen = some i) (fresh : KMap.find (fun _ => 0) s.pinEnd (seqKey c) = 0)
    (draining : s.vst (seqKey c) i = verDRAINING) : let k := seqKey c
    ∃ t, exec (.verPin c pd sd (.imm f)) s = .next t ∧ s.Issued t k (s.pc k + 1) ∧ t.p k pd = decide (pd = 0) ∧
      t.vcount k i = s.vcount k i ∧ t.get (R.VER_LOG0.gen) = r.hdr.gen % 2 ^ 32 ∧ t.get R.VER_LOG1.cause = 2 ∧
      t.get (R.VER_CNT.stale k) = min (s.get (R.VER_CNT.stale k) + 1) (2 ^ 48 - 1) ∧ (t.log.head?.map LogEntry.code) = some E.VER_STALE ∧
      ({ r with hdr := { r.hdr with poison := true } } : FlmRec) ∈ (t.flume f.toNat).recs := by
  have other : ¬s.vst (seqKey c) i = verLIVE := by rw [draining]; decide
  have eff : (opVerPin (seqKey c) pd sd (.imm f)).eff s s =
      ((s.endTaken (seqKey c)).verFail (seqKey c) (some f.toNat) r.hdr.gen r.hdr.mb 2).wP (seqKey c) pd false := by
    change (match (s.flume f.toNat).oldestHeld (seqKey c) with
      | none => s.endTaken (seqKey c)
      | some r => if KMap.find (fun _ => 0) s.pinEnd (seqKey c) ≠ 0 then _ else match s.vfind (seqKey c) r.hdr.gen with
        | none => _
        | some i => if s.vst (seqKey c) i = verLIVE then _ else if s.vst (seqKey c) i = verDRAINING then _ else _) = _
    rw [held]
    dsimp only
    rw [if_neg (not_not.2 fresh), found]
    exact (if_neg other).trans (if_pos draining)
  obtain ⟨t, run, issued, pred, counts, gen, noted, count, logged, -, poison⟩ := pin_fails alone slot noEnd up free check held (by decide : 2 < 8) eff
    (fun j at_ full => by
      obtain rfl : i = j := Option.some.inj (found.symm.trans at_)
      exact other full.1)
    (fun _ j at_ building => by
      obtain rfl : i = j := Option.some.inj (found.symm.trans at_)
      rw [draining] at building
      cases building)
  exact ⟨t, run, issued, pred, counts i (vfind_lt found).1, gen, noted, count, logged, poison⟩

theorem pin_ended (room : ∀ i, s.vfind (seqKey c) r.hdr.gen = some i → s.vcount (seqKey c) i < 65535) : let k := seqKey c
    let e := KMap.find (fun _ => 0) s.pinEnd k
    e ≠ 0 → e ≠ 2 → e < 8 → ∃ t, exec (.verPin c pd sd (.imm f)) s = .next t ∧ s.Issued t k (s.pc k + 1) ∧ t.p k pd = decide (pd = 0) ∧
      t.get R.VER_LOG1.cause = e ∧ KMap.find (fun _ => 0) t.pinEnd k = 0 ∧ (t.log.head?.map LogEntry.code) = some E.VER_MISSING ∧
      ({ r with hdr := { r.hdr with poison := true } } : FlmRec) ∈ (t.flume f.toNat).recs := by
  intro k e ended other small
  have eff : (opVerPin k pd sd (.imm f)).eff s s = ((s.endTaken k).verFail k (some f.toNat) r.hdr.gen r.hdr.mb e).wP k pd false := by
    change (match (s.flume f.toNat).oldestHeld k with
      | none => s.endTaken k
      | some r => if KMap.find (fun _ => 0) s.pinEnd k ≠ 0 then _ else _) = _
    rw [held]
    exact if_pos ended
  obtain ⟨t, run, issued, pred, -, -, noted, -, logged, taken, poison⟩ := pin_fails alone slot noEnd up free check held small eff
    (fun j at_ full => absurd full.2 (ne_of_lt (room j at_))) (fun none_ => absurd none_ ended)
  exact ⟨t, run, issued, pred, noted, taken, logged.trans (congrArg some (if_neg other)), poison⟩

end

/-! ## Looks, unpins and bases (R172, R175) -/

/-- The count of a slot, one pin less. -/
theorem vunpin_eq (s : State) (l i : Nat) : s.vunpin l i =
    if s.vcount l i - 1 = 0 ∧ (s.put (R.VER_SLOT.count l i) (s.vcount l i - 1)).vst l i = verDRAINING then
      if (s.put (R.VER_SLOT.count l i) (s.vcount l i - 1)).flag (R.VER_SLOT.refill l i) then
        (s.put (R.VER_SLOT.count l i) (s.vcount l i - 1)).vrefill l i ((s.put (R.VER_SLOT.count l i) (s.vcount l i - 1)).get (R.VER_SLOT.next_gen l i))
      else (s.put (R.VER_SLOT.count l i) (s.vcount l i - 1)).put (R.VER_SLOT.state l i) verFREE
    else s.put (R.VER_SLOT.count l i) (s.vcount l i - 1) := rfl

theorem unpin_facts (s : State) (l i : Nat) : Revised s (s.vunpin l i) ∧
    ((s.vst l i = verLIVE ∨ 1 < s.vcount l i) → (s.vunpin l i).vcount l i = s.vcount l i - 1 ∧ (s.vunpin l i).vst l i = s.vst l i) ∧
    (s.vst l i = verDRAINING → s.vcount l i = 1 → s.get (R.VER_SLOT.refill l i) = 0 → (s.vunpin l i).vst l i = verFREE) := by
  obtain ⟨stateHigh, -, countHigh, -⟩ := slot_high l i
  have less := revised_put s (f := R.VER_SLOT.count l i) (v := s.vcount l i - 1) (by omega)
  have state : (s.put (R.VER_SLOT.count l i) (s.vcount l i - 1)).vst l i = s.vst l i :=
    State.get_put_other _ _ _ _ (by simp only [R.VER_SLOT.state, R.VER_SLOT.count]; omega)
  have refill : (s.put (R.VER_SLOT.count l i) (s.vcount l i - 1)).get (R.VER_SLOT.refill l i) = s.get (R.VER_SLOT.refill l i) :=
    State.get_put_other _ _ _ _ (by simp only [R.VER_SLOT.refill, R.VER_SLOT.count]; omega)
  have count : (s.put (R.VER_SLOT.count l i) (s.vcount l i - 1)).vcount l i = s.vcount l i - 1 := by
    refine (State.get_put_same ..).trans (Nat.mod_eq_of_lt (lt_of_le_of_lt (Nat.sub_le ..) (State.get_lt ..)))
  rw [vunpin_eq, state]
  generalize s.put (R.VER_SLOT.count l i) (s.vcount l i - 1) = u at *
  refine ⟨?_, fun stays => ?_, fun draining last none_ => ?_⟩
  · split
    · split
      · exact less.trans (revised_vrefill ..)
      · exact less.trans (revised_put _ (by omega))
    · exact less
  · have not : ¬(s.vcount l i - 1 = 0 ∧ s.vst l i = verDRAINING) := by
      rintro ⟨zero, draining⟩
      rcases stays with live | more
      · rw [live] at draining
        cases draining
      · omega
    rw [if_neg not]
    exact ⟨count, state⟩
  · rw [if_pos ⟨by omega, draining⟩, if_neg (by rw [State.flag, refill, none_]; decide)]
    exact (State.get_put_same ..).trans rfl

section
variable {s : State} {c : SlotCtl} (alone : s.Alone c) (slot : c.slot = 3) (noEnd : s.NoLoopEnd (seqKey c))
  (up : s.halfInReset (halfOfDie c.die.val) = false)
include alone slot noEnd up

theorem look_resolves {pd : BitVec 3} {sd gs : BitVec 5} {i : Nat} (free : s.NoPending c (.verLook c pd sd gs))
    (found : s.vfind (seqKey c) ((s.s (seqKey c) gs).toNat % 2 ^ 32) = some i)
    (state : s.vst (seqKey c) i = verLIVE ∨ (s.vst (seqKey c) i = verDRAINING ∧ 0 < s.vcount (seqKey c) i)) : let k := seqKey c
    ∃ t, exec (.verLook c pd sd gs) s = .next t ∧ s.Issued t k (s.pc k + 1) ∧ IssueFrame s t k ∧ t.p k pd = true ∧
      t.s k sd = (if sd = 0 then 0 else BitVec.ofNat 64 i) := by
  have eff : (opVerLook (seqKey c) pd sd gs).eff s s = (s.wS (seqKey c) sd (BitVec.ofNat 64 i)).wP (seqKey c) pd true := by
    change (match s.vfind (seqKey c) ((s.s (seqKey c) gs).toNat % 2 ^ 32) with
      | none => _
      | some i => if s.vst (seqKey c) i = verLIVE ∨ _ then _ else _) = _
    rw [found]
    exact if_pos state
  obtain ⟨t, run, ended⟩ := exec_calm ⟨alone, rfl, rfl, slot3 slot, free, verCheck_up up [], rfl, rfl, rfl, by simp [opVerLook]⟩ eff
    ((calm_wS ..).trans (calm_wP ..)) noEnd
  exact ⟨t, run, ended.issued, ended.frame.of_modSeq.of_modSeq, by rw [ended.preg, preg_wP, ite_self], by rw [ended.sreg, sreg_wP, sreg_wS]⟩

theorem look_misses {pd : BitVec 3} {sd gs : BitVec 5} (free : s.NoPending c (.verLook c pd sd gs))
    (none_ : s.vfind (seqKey c) ((s.s (seqKey c) gs).toNat % 2 ^ 32) = none) : let k := seqKey c
    ∃ t, exec (.verLook c pd sd gs) s = .next t ∧ s.Issued t k (s.pc k + 1) ∧ t.p k pd = decide (pd = 0) ∧
      t.get R.VER_LOG1.cause = (if (s.s k gs).toNat % 2 ^ 32 = 0 then 5 else 1) ∧ (∀ x : BitVec 5, t.s k x = s.s k x) ∧
      (t.log.head?.map LogEntry.code) = some E.VER_MISSING := by
  have key := seqKey_lt c
  intro k
  have eff : (opVerLook k pd sd gs).eff s s =
      (s.verFail k none ((s.s k gs).toNat % 2 ^ 32) (s.seq k).hb.mb (missCause ((s.s k gs).toNat % 2 ^ 32))).wP k pd false := by
    change (match s.vfind k ((s.s k gs).toNat % 2 ^ 32) with
      | none => _
      | some i => _) = _
    rw [none_]
  have small : missCause ((s.s k gs).toNat % 2 ^ 32) < 8 ∧ missCause ((s.s k gs).toNat % 2 ^ 32) ≠ 2 := by
    unfold missCause
    split <;> decide
  have failed := failed_verFail s key small.1 none ((s.s k gs).toNat % 2 ^ 32) (s.seq k).hb.mb
  generalize s.verFail k none ((s.s k gs).toNat % 2 ^ 32) (s.seq k).hb.mb (missCause ((s.s k gs).toNat % 2 ^ 32)) = w at *
  obtain ⟨t, run, ended⟩ := exec_calm ⟨alone, rfl, rfl, slot3 slot, free, verCheck_up up [], rfl, rfl, rfl, by simp [opVerLook]⟩ eff
    (failed.calm.trans (calm_wP ..)) noEnd
  have same : w.seq k = s.seq k := congrArg (fun m => KMap.find (fun _ => Seq.empty) m k) failed.seqs
  refine ⟨t, run, ended.issued, by rw [ended.preg, preg_wP_false], ?_, fun x => ?_, ?_⟩
  · exact (ended.get key (.inr (by decide)) (by simp only [R.VER_LOG1.cause, R.VER_HDR.gate_hold]; omega)).trans failed.noted
  · rw [ended.sreg, sreg_wP, State.s, same, State.s]
  · rw [ended.log]
    exact failed.logged.trans (congrArg some (if_neg small.2))

theorem unpins {gs : BitVec 5} {i : Nat} (free : s.NoPending c (.verUnpin c gs))
    (found : s.vfind (seqKey c) ((s.s (seqKey c) gs).toNat % 2 ^ 32) = some i) (built : s.vst (seqKey c) i ≠ verBUILDING)
    (pinned : 0 < s.vcount (seqKey c) i) : let k := seqKey c
    ∃ t, exec (.verUnpin c gs) s = .next t ∧ s.Issued t k (s.pc k + 1) ∧ SameMem s t ∧
      ((s.vst k i = verLIVE ∨ 1 < s.vcount k i) → t.vcount k i = s.vcount k i - 1 ∧ t.vst k i = s.vst k i) ∧
      (s.vst k i = verDRAINING → s.vcount k i = 1 → s.get (R.VER_SLOT.refill k i) = 0 → t.vst k i = verFREE) := by
  have key := seqKey_lt c
  intro k
  have chk : (opVerUnpin k gs).chk s = none := by
    refine (verCheck_up up _).trans ?_
    have fits : ¬(s.vst k i = verBUILDING ∨ s.vcount k i = 0) := fun h => h.elim built (ne_of_gt pinned)
    change firstExc [((match s.vfind k ((s.s k gs).toNat % 2 ^ 32) with
      | none => true
      | some i => decide (s.vst k i = verBUILDING ∨ s.vcount k i = 0)), _)] = none
    rw [found]
    exact if_neg fun h => fits (of_decide_eq_true h)
  have eff : (opVerUnpin k gs).eff s s = s.vunpin k i := by
    change (match s.vfind k ((s.s k gs).toNat % 2 ^ 32) with
      | none => _
      | some i => _) = _
    rw [found]
  obtain ⟨revised, stays, ends⟩ := unpin_facts s k i
  obtain ⟨t, run, ended⟩ := exec_calm ⟨alone, rfl, rfl, slot3 slot, free, chk, rfl, rfl, rfl, by simp [opVerUnpin]⟩ eff (calm_of_revised revised key) noEnd
  obtain ⟨stateHigh, -, countHigh, -⟩ := slot_high k i
  have gateLow := (header_low k).2.2.1
  have own {g : Fld} (high : 8 * (0x3800040 + 0x2000 * k) ≤ g.a) : t.get g = (s.vunpin k i).get g :=
    ended.get key (.inr (by omega)) (ne_of_gt (lt_of_lt_of_le gateLow high))
  have state : t.vst k i = (s.vunpin k i).vst k i := own stateHigh
  have count : t.vcount k i = (s.vunpin k i).vcount k i := own countHigh
  refine ⟨t, run, ended.issued, ended.mem, fun h => ?_, fun a b c => state.trans (ends a b c)⟩
  rw [state, count]
  exact stays h

theorem base_read {ad : BitVec 4} {ss is : BitVec 5} (free : s.NoPending c (.verBase c ad ss is)) : let k := seqKey c
    let i := (s.s k ss).toNat % 4
    let j := (s.s k is).toNat % 256
    s.vst k i ≠ verFREE → j < s.get (R.VER_SLOT.nlayers k i) → ∃ t, exec (.verBase c ad ss is) s = .next t ∧ s.Issued t k (s.pc k + 1) ∧
      IssueFrame s t k ∧ t.a k ad.toNat = BitVec.ofNat 48 (s.get (R.VER_LBASE.base k i j)) := by
  intro k i j used inside
  have chk : (opVerBase k ad ss is).chk s = none := by
    refine (verCheck_up up _).trans ?_
    have fits : ¬(s.vst k i = verFREE ∨ s.get (R.VER_SLOT.nlayers k i) ≤ j) := fun h => h.elim used (not_le.2 inside)
    exact if_neg (by rw [decide_eq_false fits]; decide)
  have eff : (opVerBase k ad ss is).eff s s = s.wA k ad (BitVec.ofNat 48 (s.get (R.VER_LBASE.base k i j))) := rfl
  obtain ⟨t, run, ended⟩ := exec_calm ⟨alone, rfl, rfl, slot3 slot, free, chk, rfl, rfl, rfl, by simp [opVerBase]⟩ eff (calm_wA ..) noEnd
  exact ⟨t, run, ended.issued, ended.frame.of_modSeq, by rw [ended.areg, areg_setA]⟩

end

/-! ## Builds (R175) -/

theorem vfree_lowest {s : State} {l i : Nat} (small : i < 4) (free : s.vst l i = verFREE) (lowest : ∀ j, j < i → s.vst l j ≠ verFREE) :
    s.vfree l = some i := by
  refine List.find?_range_eq_some.2 ⟨decide_eq_true free, List.mem_range.2 small, fun j below => ?_⟩
  rw [decide_eq_false (lowest j below)]
  rfl

theorem wS_get (s : State) (k : Nat) (r : BitVec 5) (v : Word) (g : Fld) : (s.wS k r v).get g = s.get g := rfl

theorem wP_get (s : State) (k : Nat) (r : BitVec 3) (v : Bool) (g : Fld) : (s.wP k r v).get g = s.get g := rfl

/-- What a bundle that builds slot `i` under generation `g` leaves. -/
def State.Built (s t : State) (k : Nat) (sd : BitVec 5) (i g : Nat) : Prop :=
  s.Issued t k (s.pc k + 1) ∧ SameMem s t ∧ t.vst k i = verBUILDING ∧ t.vgen k i = g ∧ t.vcount k i = 0 ∧
    t.get (R.VER_HDR.top k) = g ∧ t.s k sd = (if sd = 0 then 0 else BitVec.ofNat 64 i) ∧ ∀ j, j < 4 → j ≠ i → t.vst k j = s.vst k j

/-- The registers of a table once slot `i` is built and sequencer `k`'s own registers are written. -/
theorem built_of_ended {s u t : State} {k i g : Nat} {sd : BitVec 5} (key : k < 96) (small : g < 2 ^ 32) (ended : Ended s u t k)
    (regs : ∀ f, u.get f = (s.vbuild k i g).get f) (number : u.s k sd = if sd = 0 then 0 else BitVec.ofNat 64 i) : s.Built t k sd i g := by
  have gateLow := (header_low k).2.2.1
  have own {f : Fld} (high : 8 * 0x3800000 ≤ f.a) (gate : f.a ≠ (R.VER_HDR.gate_hold k).a) : t.get f = (s.vbuild k i g).get f :=
    (ended.get key (.inr (by omega)) gate).trans (regs f)
  have slots {f : Fld} (high : 8 * (0x3800040 + 0x2000 * k) ≤ f.a) : t.get f = (s.vbuild k i g).get f :=
    own (by omega) (ne_of_gt (lt_of_lt_of_le gateLow high))
  obtain ⟨stateHigh, genHigh, countHigh, -⟩ := slot_high k i
  have wrote {p : Fld × Nat} (mem : p ∈ builtFields k i g) := vbuild_own s mem
  refine ⟨ended.issued, ended.mem, (slots stateHigh).trans (wrote (p := (R.VER_SLOT.state k i, verBUILDING)) (by simp [builtFields])),
    (slots genHigh).trans ((wrote (p := (R.VER_SLOT.gen k i, g)) (by simp [builtFields])).trans (Nat.mod_eq_of_lt small)),
    (slots countHigh).trans (wrote (p := (R.VER_SLOT.count k i, 0)) (by simp [builtFields])),
    (own ?_ ?_).trans ((wrote (p := (R.VER_HDR.top k, g)) (by simp [builtFields])).trans (Nat.mod_eq_of_lt small)), (ended.sreg sd).trans number,
    fun j _ other => (slots (slot_high k j).1).trans (vbuild_other_slot s other)⟩ <;>
    simp only [R.VER_HDR.top, R.VER_HDR.gate_hold] <;> omega

section
variable {s : State} {c : SlotCtl} (alone : s.Alone c) (slot : c.slot = 3) (up : s.halfInReset (halfOfDie c.die.val) = false)
include alone slot up

section
variable (noEnd : s.NoLoopEnd (seqKey c)) {sd gs : BitVec 5} {i : Nat}
include noEnd

theorem builds (newer : s.get (R.VER_HDR.top (seqKey c)) < (s.s (seqKey c) gs).toNat % 2 ^ 32) (lowest : s.vfree (seqKey c) = some i)
    (free : s.NoPending c (.verBuild c sd gs)) :
    ∃ t, exec (.verBuild c sd gs) s = .next t ∧ s.Built t (seqKey c) sd i ((s.s (seqKey c) gs).toNat % 2 ^ 32) := by
  have key := seqKey_lt c
  have chk : (opVerBuild (seqKey c) sd gs).chk s = none := (verCheck_up up _).trans (if_neg (by rw [decide_eq_false (not_le.2 newer)]; decide))
  have wait : (opVerBuild (seqKey c) sd gs).wait s = 0 := if_pos (by rw [lowest]; rfl)
  have eff : (opVerBuild (seqKey c) sd gs).eff s s =
      (s.vbuild (seqKey c) i ((s.s (seqKey c) gs).toNat % 2 ^ 32)).wS (seqKey c) sd (BitVec.ofNat 64 i) := by
    change (match s.vfree (seqKey c) with
      | none => s
      | some i => _) = _
    rw [lowest]
  obtain ⟨t, run, ended⟩ := exec_calm ⟨alone, rfl, rfl, slot3 slot, free, chk, wait, rfl, rfl, by simp [opVerBuild]⟩ eff
    ((calm_of_revised (revised_vbuild ..) key).trans (calm_wS ..)) noEnd
  exact ⟨t, run, built_of_ended key (Nat.mod_lt _ (by decide)) ended (wS_get _ _ _ _) (sreg_wS ..)⟩

theorem tries_build {pd : BitVec 3} (newer : s.get (R.VER_HDR.top (seqKey c)) < (s.s (seqKey c) gs).toNat % 2 ^ 32)
    (lowest : s.vfree (seqKey c) = some i) (free : s.NoPending c (.verTbuild c sd gs pd)) :
    ∃ t, exec (.verTbuild c sd gs pd) s = .next t ∧ s.Built t (seqKey c) sd i ((s.s (seqKey c) gs).toNat % 2 ^ 32) ∧ t.p (seqKey c) pd = true := by
  have key := seqKey_lt c
  have chk : (opVerTbuild (seqKey c) sd gs pd).chk s = none := (verCheck_up up _).trans (if_neg (by rw [decide_eq_false (not_le.2 newer)]; decide))
  have eff : (opVerTbuild (seqKey c) sd gs pd).eff s s =
      ((s.vbuild (seqKey c) i ((s.s (seqKey c) gs).toNat % 2 ^ 32)).wS (seqKey c) sd (BitVec.ofNat 64 i)).wP (seqKey c) pd true := by
    change (match s.vfree (seqKey c) with
      | none => _
      | some i => _) = _
    rw [lowest]
  obtain ⟨t, run, ended⟩ := exec_calm ⟨alone, rfl, rfl, slot3 slot, free, chk, rfl, rfl, rfl, by simp [opVerTbuild]⟩ eff
    ((calm_of_revised (revised_vbuild ..) key).trans ((calm_wS ..).trans (calm_wP ..))) noEnd
  exact ⟨t, run, built_of_ended key (Nat.mod_lt _ (by decide)) ended (fun f => (wP_get _ _ _ _ f).trans (wS_get _ _ _ _ f)) ((sreg_wP ..).trans (sreg_wS ..)),
    by rw [ended.preg, preg_wP, ite_self]⟩

end

theorem exec_verBuild_old {sd gs : BitVec 5} (free : s.NoPending c (.verBuild c sd gs))
    (old : (s.s (seqKey c) gs).toNat % 2 ^ 32 ≤ s.get (R.VER_HDR.top (seqKey c))) :
    exec (.verBuild c sd gs) s = .next (s.takeExc (seqKey c) 3 (exc E.VER_GEN_ORDER ((s.s (seqKey c) gs).toNat % 2 ^ 32))) := by
  have chk : (opVerBuild (seqKey c) sd gs).chk s = some (exc E.VER_GEN_ORDER ((s.s (seqKey c) gs).toNat % 2 ^ 32)) :=
    (verCheck_up up _).trans (if_pos (decide_eq_true old))
  rw [exec_raises alone rfl rfl (slot3 slot) free chk rfl rfl (by decide : E.VER_GEN_ORDER ≠ E.CFG_COMMIT), slot]
  rfl

end

/-! ## A slot being built (R175, R191, R255) -/

/-- A field is staged. -/
theorem sput_sget (s : State) (f : Fld) (v : Nat) : (s.sput f v).sget f = v % 2 ^ f.w := by
  unfold State.sget State.sput
  dsimp only
  rw [KMap.find_put, if_pos rfl, Nat.mod_mod]

theorem find_mod_congr {d e : Nat → Nat} {m : KMap Nat} {k n : Nat} (same : d k % n = e k % n) : KMap.find d m k % n = KMap.find e m k % n := by
  induction m with
  | nil => exact same
  | cons x m ih =>
    rw [KMap.find, KMap.find]
    split
    · rfl
    · exact ih

/-- What is staged for a field stays while the field keeps its value. -/
theorem sget_of_get {s t : State} {f : Fld} (shadow : t.shadow = s.shadow) (same : t.get f = s.get f) : t.sget f = s.sget f := by
  rw [State.sget, shadow, State.sget]
  exact find_mod_congr same

section
variable {s : State} {c : SlotCtl} (alone : s.Alone c) (slot : c.slot = 3) (noEnd : s.NoLoopEnd (seqKey c)) {ss : BitVec 5}
  (building : s.vst (seqKey c) ((s.s (seqKey c) ss).toNat % 4) = verBUILDING)
include alone slot noEnd building

section
variable (up : s.halfInReset (halfOfDie c.die.val) = false)
include up

theorem lives (free : s.NoPending c (.verLive c ss)) : let k := seqKey c
    let i := (s.s k ss).toNat % 4
    s.layersBad (s.seqCtx k) k i = false → ∃ t, exec (.verLive c ss) s = .next t ∧
      s.Issued t k (s.pc k + 1) ∧ SameMem s t ∧ t.vst k i = verLIVE ∧ t.get (R.VER_SLOT.nlayers k i) = s.sget (R.VER_SLOT.nlayers k i) ∧
      (∀ j, j < 240 → t.get (R.VER_LBASE.base k i j) = s.sget (R.VER_LBASE.base k i j)) ∧
      (s.vgen k i = s.get (R.VER_CUR.gen k) → t.get (R.VER_HDR.bar_hold k) = 0) := by
  have key := seqKey_lt c
  intro k i layers
  have small : i < 4 := Nat.mod_lt _ (by decide)
  have chk : (opVerLive k ss).chk s = none := by
    refine (verCheck_up up _).trans ((if_neg ?_).trans (if_neg ?_))
    · rw [decide_eq_false (not_not.2 building)]
      decide
    · change ¬s.layersBad (s.seqCtx k) k i = true
      rw [layers]
      decide
  obtain ⟨revised, state, group, bar⟩ := vlive_facts s (l := k) small
  have eff : (opVerLive k ss).eff s s = s.vlive k i := rfl
  obtain ⟨t, run, ended⟩ := exec_calm ⟨alone, rfl, rfl, slot3 slot, free, chk, rfl, rfl, rfl, by simp [opVerLive]⟩ eff (calm_of_revised revised key) noEnd
  have gateLow := (header_low k).2.2.1
  have own {g : Fld} (table : 8 * 0x3800000 ≤ g.a) (gate : g.a ≠ (R.VER_HDR.gate_hold k).a) : t.get g = (s.vlive k i).get g :=
    ended.get key (.inr (by omega)) gate
  have member {f : Fld} (mem : f ∈ layerGroup k i) : t.get f = s.sget f := by
    obtain ⟨table, -, -, -, gate⟩ := layerGroup_apart small mem
    exact (own table gate).trans (group f mem)
  have high := (slot_high k i).1
  refine ⟨t, run, ended.issued, ended.mem, (own (by omega) (ne_of_gt (lt_of_lt_of_le gateLow high))).trans state, member List.mem_cons_self,
    fun j inside => member (List.mem_cons_of_mem _ (List.mem_map.2 ⟨j, List.mem_range.2 inside, rfl⟩)), fun here => (own ?_ ?_).trans (bar here)⟩ <;>
    simp only [R.VER_HDR.bar_hold, R.VER_HDR.gate_hold] <;> omega

theorem drops (free : s.NoPending c (.verDrop c ss)) : let k := seqKey c
    ∃ t, exec (.verDrop c ss) s = .next t ∧ s.Issued t k (s.pc k + 1) ∧ SameMem s t ∧ t.vst k ((s.s k ss).toNat % 4) = verFREE ∧
      SameSeqsBut s t k := by
  have key := seqKey_lt c
  intro k
  have chk : (opVerDrop k ss).chk s = none := by
    refine (verCheck_up up _).trans (if_neg ?_)
    rw [decide_eq_false (not_not.2 building)]
    decide
  have high := (slot_high k ((s.s k ss).toNat % 4)).1
  have eff : (opVerDrop k ss).eff s s = s.put (R.VER_SLOT.state k ((s.s k ss).toNat % 4)) verFREE := rfl
  obtain ⟨t, run, ended⟩ := exec_calm ⟨alone, rfl, rfl, slot3 slot, free, chk, rfl, rfl, rfl, by simp [opVerDrop]⟩ eff
    (calm_put s key (.inr (by omega))) noEnd
  have gateLow := (header_low k).2.2.1
  refine ⟨t, run, ended.issued, ended.mem, ?_, ended.seqs⟩
  exact (ended.get key (.inr (by omega)) (ne_of_gt (lt_of_lt_of_le gateLow high))).trans ((State.get_put_same ..).trans rfl)

end

omit alone slot building in
/-- A bundle whose effect stages a field of the slot. -/
theorem stages {i : Instr} {o : SlotOp} {f : Fld} {v : Nat} (issues : Issues s c i o) (eff : o.eff s s = s.sput f v) (ctl : o.ctl s = .seq)
    (op : ∀ c, i ≠ .nop c) (table : 8 * 0x3800000 ≤ f.a) (gate : f.a ≠ (R.VER_HDR.gate_hold (seqKey c)).a) : let k := seqKey c
    ∃ t, exec i s = .next t ∧ IssueFrame s { t with shadow := s.shadow } k ∧ s.Issued t k (s.pc k + 1) ∧ t.sget f = v % 2 ^ f.w := by
  have calm : Calm s (s.sput f v) (seqKey c) := calm_of_same (sameMem_of_eq rfl rfl rfl rfl) rfl rfl rfl
  obtain ⟨t, run, ended⟩ := exec_calm issues eff calm noEnd ctl op
  have shadow : t.shadow = (s.sput f v).shadow := (congrArg State.shadow ended.frame.rest :)
  have staged := sget_of_get shadow (ended.get (seqKey_lt c) (.inr (by omega)) gate)
  exact ⟨t, run, ⟨ended.frame.mem, ended.frame.seqs, ended.frame.regs, (congrArg (fun u : State => { u with shadow := s.shadow }) ended.frame.rest :)⟩,
    ended.issued, staged.trans (sput_sget ..)⟩

theorem base_staged {is : BitVec 5} {ab : BitVec 4} (free : s.NoPending c (.verLb c ss is ab)) : let k := seqKey c
    (s.s k is).toNat % 256 < 240 → ∃ t, exec (.verLb c ss is ab) s = .next t ∧ IssueFrame s { t with shadow := s.shadow } k ∧ s.Issued t k (s.pc k + 1) ∧
      t.sget (R.VER_LBASE.base k ((s.s k ss).toNat % 4) ((s.s k is).toNat % 256)) = (s.a k ab.toNat).toNat := by
  intro k inside
  have chk : (opVerLb k ss is ab).chk s = none :=
    (if_neg fun h => not_le.2 inside (of_decide_eq_true h)).trans (if_neg fun h => absurd building (of_decide_eq_true h))
  obtain ⟨t, run, frame, issued, staged⟩ := stages noEnd
    ⟨alone, rfl, rfl, slot3 slot, free, chk, rfl, rfl, rfl, by simp [opVerLb]⟩
    (f := R.VER_LBASE.base k ((s.s k ss).toNat % 4) ((s.s k is).toNat % 256)) (v := (s.a k ab.toNat).toNat) rfl rfl (fun _ => nofun)
    (by simp only [R.VER_LBASE.base]; omega) (by simp only [R.VER_LBASE.base, R.VER_HDR.gate_hold]; omega)
  exact ⟨t, run, frame, issued, staged.trans (Nat.mod_eq_of_lt (s.a k ab.toNat).isLt)⟩

theorem layers_staged {ns : BitVec 5} (free : s.NoPending c (.verNl c ss ns)) : let k := seqKey c
    ∃ t, exec (.verNl c ss ns) s = .next t ∧ IssueFrame s { t with shadow := s.shadow } k ∧ s.Issued t k (s.pc k + 1) ∧
      t.sget (R.VER_SLOT.nlayers k ((s.s k ss).toNat % 4)) = (s.s k ns).toNat % 256 := by
  intro k
  have chk : (opVerNl k ss ns).chk s = none := if_neg fun h => absurd building (of_decide_eq_true h)
  obtain ⟨t, run, frame, issued, staged⟩ := stages noEnd
    ⟨alone, rfl, rfl, slot3 slot, free, chk, rfl, rfl, rfl, by simp [opVerNl]⟩
    (f := R.VER_SLOT.nlayers k ((s.s k ss).toNat % 4)) (v := (s.s k ns).toNat % 256) rfl rfl (fun _ => nofun)
    (by simp only [R.VER_SLOT.nlayers]; omega) (by simp only [R.VER_SLOT.nlayers, R.VER_HDR.gate_hold]; omega)
  exact ⟨t, run, frame, issued, staged.trans (Nat.mod_mod ..)⟩

end

/-- Settles O12, by what each bundle on a table writes and what a failed resolution leaves. -/
theorem versionResolveAndBuild : Obligations.VersionResolveAndBuild :=
  ⟨fun _ _ alone slot noEnd up => ⟨fun _ _ _ _ _ free check held found fresh =>
        ⟨pin_live alone slot noEnd up free check held found fresh, pin_draining alone slot noEnd up free check held found fresh⟩,
      fun _ _ _ _ free check held room => pin_ended alone slot noEnd up free check held room,
      fun _ _ _ _ free found state => look_resolves alone slot noEnd up free found state,
      fun _ _ _ free none_ => look_misses alone slot noEnd up free none_,
      fun _ _ free found built pinned => unpins alone slot noEnd up free found built pinned,
      fun _ _ _ free => base_read alone slot noEnd up free⟩,
    fun _ _ alone slot noEnd up => ⟨fun _ _ _ _ newer small state lowest =>
        ⟨builds alone slot up noEnd newer (vfree_lowest small state lowest), tries_build alone slot up noEnd newer (vfree_lowest small state lowest)⟩,
      fun _ _ free old => exec_verBuild_old alone slot up free old,
      fun _ building => ⟨lives alone slot noEnd building up, drops alone slot noEnd building up,
        fun _ _ free => base_staged alone slot noEnd building free, fun _ free => layers_staged alone slot noEnd building free⟩⟩⟩

end Sys2Proof.Machine

namespace Sys2Proof.Machine

-- One proof at a time: threads that wait for each other hold memory.
set_option Elab.async false

/-! ## Reset values -/

/-- The last place that a row of the reset table names. -/
def ResetRow.last (r : ResetRow) : Nat := r.a + (r.n1 - 1) * r.s1 + (if r.s2 = 0 then 0 else (r.n2 - 1) * r.s2)

theorem hits_bounds {r : ResetRow} {x : Nat} (hit : r.hits x = true) : r.a ≤ x ∧ x ≤ ResetRow.last r := by
  unfold ResetRow.hits at hit
  simp only [Bool.and_eq_true, decide_eq_true_eq] at hit
  obtain ⟨low, inside⟩ := hit
  refine ⟨low, ?_⟩
  have row : (if r.s1 = 0 then 0 else min ((x - r.a) / r.s1) (r.n1 - 1)) * r.s1 ≤ (r.n1 - 1) * r.s1 := by
    split
    · omega
    · exact Nat.mul_le_mul_right _ (min_le_right ..)
  unfold ResetRow.last
  generalize (if r.s1 = 0 then 0 else min ((x - r.a) / r.s1) (r.n1 - 1)) * r.s1 = d at *
  split at inside
  · next flat =>
    rw [if_pos flat]
    have zero := of_decide_eq_true inside
    omega
  · next steps =>
    rw [if_neg steps]
    obtain ⟨whole, few⟩ := of_decide_eq_true inside
    have count : (x - r.a - d) / r.s2 ≤ r.n2 - 1 := by omega
    have exact_ := Nat.div_mul_cancel (Nat.dvd_of_mod_eq_zero whole)
    have most := Nat.mul_le_mul_right r.s2 count
    omega

/-- Between the places of two numbers no row names any is 0 at reset. -/
theorem resetVal_zero {x lo hi : Nat} (rows : ∀ r ∈ resetRows, ResetRow.last r < lo ∨ hi < r.a) (low : lo ≤ x) (high : x ≤ hi) : resetVal x = 0 := by
  have none_ : resetRows.find? (fun r => r.hits x) = none := by
    refine List.find?_eq_none.2 fun r mem hit => ?_
    obtain ⟨first, last⟩ := hits_bounds hit
    rcases rows r mem with before | after <;> omega
  rw [resetVal, none_]

/-- The states of the flumes are 0 at reset. -/
theorem resetVal_flume {x : Nat} (low : 8 * 0x3080000 ≤ x) (high : x ≤ 8 * 0x3200000) : resetVal x = 0 :=
  resetVal_zero (by decide) low high

theorem regReset_get (s : State) (lo hi : Nat) (g : Fld) :
    (s.regReset lo hi).get g = if 8 * lo ≤ g.a ∧ g.a < 8 * hi then resetVal g.a % 2 ^ g.w else s.get g := by
  have found : KMap.find resetVal (s.regReset lo hi).regs g.a = if 8 * lo ≤ g.a ∧ g.a < 8 * hi then resetVal g.a else KMap.find resetVal s.regs g.a :=
    KMap.find_dropRange resetVal s.regs (8 * lo) (8 * hi) g.a
  rw [State.get, found, apply_ite (· % 2 ^ g.w)]
  rfl

/-! ## A flume closes (R162) -/

/-- What closing a flume may change is its registers, the flume, and what is sent. -/
def State.unclosed (s : State) : State := { s with regs := [], flumes := [], links := [], out := [] }

theorem unclosed_of_unlinked {s t : State} (same : t.unlinked = s.unlinked) : t.unclosed = s.unclosed :=
  (congrArg (fun u : State => { u with regs := [], flumes := [] }) same :)

theorem sameMem_of_unclosed {s t : State} (same : t.unclosed = s.unclosed) : SameMem s t :=
  sameMem_of_eq (congrArg State.mem same :) (congrArg State.bad same :) (congrArg State.plist same :) (congrArg State.linkErr same :)

theorem flumes_of_unlinked {s t : State} (same : t.unlinked = s.unlinked) : t.flumes = s.flumes := (congrArg State.flumes same :)

/-- A flume without records. -/
def Flume.emptied (x : Flume) (ch : Option Nat) (zero : List (Nat × Nat)) : Flume :=
  { x with recs := [], staged := [], copy := none, ret := 0, peerAck := ch.isNone, was := ch, zero := zero }

/-- A flume that closes, before its peer is told. -/
def State.closing (s : State) (f : Nat) (ch : Option Nat) (zero : List (Nat × Nat)) : State :=
  ((s.count (R.FLM_CNT.discard f) ((s.flume f).recs.length + (s.flume f).staged.length)).put (R.FLM_STAT.state f) flmCLOSING).setFlm f
    ((s.flume f).emptied ch zero)

/-- The peer told that channel `ch` closes. -/
def State.closeTold (s : State) (ch : Option Nat) : State :=
  match ch with
  | some c => s.skwCtrl (s.get (R.SKW_CHAN.link c)) .close [s.get (R.SKW_CHAN.peer c)]
  | none => s

theorem closeFlume_eq (s : State) (f : Nat) : s.closeFlume f =
    if s.flmState f = flmOPEN ∨ s.flmState f = flmHELD then (s.closing f (s.flmChan f) (s.flmRegions f)).closeTold (s.flmChan f) else s := by
  unfold State.closeFlume
  generalize s.flmChan f = ch
  split
  · cases ch <;> rfl
  · rfl

theorem closeTold_unlinked (s : State) (ch : Option Nat) : (s.closeTold ch).unlinked = s.unlinked := by
  cases ch with
  | none => rfl
  | some c => exact skwCtrl_unlinked ..

theorem setFlm_unclosed (s : State) (f : Nat) (x : Flume) : (s.setFlm f x).unclosed = s.unclosed := rfl

theorem put_unclosed (s : State) (f : Fld) (v : Nat) : (s.put f v).unclosed = s.unclosed := rfl

theorem closing_unclosed (s : State) (f : Nat) (ch : Option Nat) (zero : List (Nat × Nat)) : (s.closing f ch zero).unclosed = s.unclosed :=
  (setFlm_unclosed ..).trans ((put_unclosed ..).trans (put_unclosed ..))

theorem closeFlume_unclosed (s : State) (f : Nat) : (s.closeFlume f).unclosed = s.unclosed := by
  rw [closeFlume_eq]
  split
  · exact (unclosed_of_unlinked (closeTold_unlinked ..)).trans (closing_unclosed ..)
  · rfl

/-- The fields that closing a flume writes. -/
theorem closeFlume_get (s : State) {f : Nat} {g : Fld} (discard : g.a ≠ (R.FLM_CNT.discard f).a) (state : g.a ≠ (R.FLM_STAT.state f).a)
    (above : g.a ≠ (R.FLM_STAT.above_hi f).a) : (s.closeFlume f).get g = s.get g := by
  rw [closeFlume_eq]
  split
  · exact (get_of_unlinked (closeTold_unlinked ..) g).trans ((setFlm_get _ _ above).trans ((State.get_put_other _ _ _ _ state).trans
      (State.get_count_other _ _ _ _ discard)))
  · rfl

theorem closeFlume_shut {s : State} {f : Nat} (shut : ¬(s.flmState f = flmOPEN ∨ s.flmState f = flmHELD)) : s.closeFlume f = s :=
  (closeFlume_eq s f).trans (if_neg shut)

/-- What a flume that closes is. -/
theorem closeFlume_open {s : State} {f : Nat} (opened : s.flmState f = flmOPEN ∨ s.flmState f = flmHELD) :
    (s.closeFlume f).flmState f = flmCLOSING ∧ (s.closeFlume f).flume f = (s.flume f).emptied (s.flmChan f) (s.flmRegions f) ∧
    s.Counted (s.closeFlume f) (R.FLM_CNT.discard f) ((s.flume f).recs.length + (s.flume f).staged.length) := by
  have same := closeTold_unlinked (s.closing f (s.flmChan f) (s.flmRegions f)) (s.flmChan f)
  rw [closeFlume_eq, if_pos opened]
  refine ⟨?_, ?_, ?_⟩
  · refine (get_of_unlinked same _).trans ((setFlm_get _ _ ?_).trans (State.get_put_same ..))
    simp only [R.FLM_STAT.state, R.FLM_STAT.above_hi]
    omega
  · refine (congrArg (fun m => KMap.find (fun _ => Flume.empty) m f) (flumes_of_unlinked same)).trans ((setFlm_flume ..).trans (if_pos rfl))
  · refine (get_of_unlinked same _).trans ((setFlm_get _ _ ?_).trans ((State.get_put_other _ _ _ _ ?_).trans (counted_count ..)))
    · simp only [R.FLM_CNT.discard, R.FLM_STAT.above_hi]
      omega
    · simp only [R.FLM_CNT.discard, R.FLM_STAT.state]
      omega

/-! ## Places -/

theorem flmGroup_place {f : Nat} {g : Fld} (mem : g ∈ flmGroup f) : 8 * (0x3000000 + 0x40 * f) ≤ g.a ∧ g.a < 8 * (0x3000030 + 0x40 * f) := by
  simp only [flmGroup, List.mem_cons, List.not_mem_nil, or_false] at mem
  rcases mem with rfl | rfl | rfl | rfl | rfl | rfl | rfl | rfl | rfl | rfl | rfl | rfl | rfl | rfl | rfl | rfl | rfl | rfl | rfl <;>
    simp only [R.FLM_DESC.en, R.FLM_DESC.dir, R.FLM_DESC.remote, R.FLM_DESC.bal_pin, R.FLM_DESC.prod, R.FLM_DESC.cons, R.FLM_DESC.depth,
      R.FLM_DESC.rec_size, R.FLM_DESC.ctx, R.FLM_DESC.pair_en, R.FLM_DESC.pair, R.FLM_DESC.floor, R.FLM_DESC.store_base, R.FLM_DESC.store_slots,
      R.FLM_DESC.spill_lim, R.FLM_DESC.hiwm, R.FLM_DESC.lowm, R.FLM_DESC.spill_base, R.FLM_DESC.chan] <;> omega

/-- The fields of a descriptor by their offsets and widths. -/
def descShape : List (Nat × Nat) :=
  [(15, 1), (13, 2), (12, 1), (11, 1), (16, 12), (32, 12), (48, 13), (64, 15), (80, 6), (111, 1), (96, 13), (112, 13), (128, 48), (192, 13), (208, 13),
    (224, 13), (240, 13), (256, 48), (320, 13)]

theorem flmGroup_shape (f : Nat) : flmGroup f = descShape.map fun p => ⟨8 * (0x3000000 + 0x40 * f) + p.1, p.2⟩ := by
  simp only [flmGroup, descShape, List.map_cons, List.map_nil, R.FLM_DESC.en, R.FLM_DESC.dir, R.FLM_DESC.remote, R.FLM_DESC.bal_pin, R.FLM_DESC.prod, R.FLM_DESC.cons, R.FLM_DESC.depth,
      R.FLM_DESC.rec_size, R.FLM_DESC.ctx, R.FLM_DESC.pair_en, R.FLM_DESC.pair, R.FLM_DESC.floor, R.FLM_DESC.store_base, R.FLM_DESC.store_slots,
      R.FLM_DESC.spill_lim, R.FLM_DESC.hiwm, R.FLM_DESC.lowm, R.FLM_DESC.spill_base, R.FLM_DESC.chan, List.cons.injEq, Fld.mk.injEq, and_true, true_and]
  and_intros <;> omega

theorem flmGroup_fields (f : Nat) : Fields (flmGroup f) := by
  intro g hg h hh same
  rw [flmGroup_shape] at hg hh
  obtain ⟨p, hp, rfl⟩ := List.mem_map.1 hg
  obtain ⟨q, hq, rfl⟩ := List.mem_map.1 hh
  have shape : ∀ p ∈ descShape, ∀ q ∈ descShape, p.1 = q.1 → p = q := by decide
  have one : p.1 = q.1 := Nat.add_left_cancel same
  rw [shape p hp q hq one]

end Sys2Proof.Machine

namespace Sys2Proof.Machine

-- One proof at a time: threads that wait for each other hold memory.
set_option Elab.async false

/-! ## A flume is bound (R148, R158) -/

/-- A flume whose registers say that it is bound. -/
def State.boundRegs (s : State) (f : Nat) (rem : Bool) : State :=
  (s.put (R.FLM_STAT.state f) (if rem then flmHELD else flmOPEN)).puts [(R.FLM_SEQ.next_cmt f, 0), (R.FLM_SEQ.next_pop f, 0)]

/-- A flume just bound, before its peer is told. -/
def State.bound (s : State) (f : Nat) (rem : Bool) (x : Flume) : State :=
  (s.boundRegs f rem).setFlume f x

/-- The request to open the flume's channel. -/
def State.openAsked (s : State) (f : Nat) (rem : Bool) : State := if rem then s.openMsg f .openReq else s

/-- A flume without records that is bound at `now`. -/
def Flume.fresh (now : Nat) (rem up : Bool) : Flume := { Flume.empty with heldSince := now, linkDown := rem && !up, opening := rem }

theorem openFlume_regs (s : State) (f : Nat) : s.openFlume f =
    (let rem := s.flag (R.FLM_DESC.remote f)
      let u := s.boundRegs f rem
      (u.setFlume f (Flume.fresh u.now rem (u.skwUp (u.get (R.SKW_CHAN.link (u.get (R.FLM_DESC.chan f))))))).openAsked f rem) := rfl

theorem openFlume_eq (s : State) (f : Nat) : ∃ now up,
    s.openFlume f = (s.bound f (s.flag (R.FLM_DESC.remote f)) (Flume.fresh now (s.flag (R.FLM_DESC.remote f)) up)).openAsked f
      (s.flag (R.FLM_DESC.remote f)) :=
  ⟨(s.boundRegs f (s.flag (R.FLM_DESC.remote f))).now, (s.boundRegs f (s.flag (R.FLM_DESC.remote f))).skwUp
    ((s.boundRegs f (s.flag (R.FLM_DESC.remote f))).get (R.SKW_CHAN.link ((s.boundRegs f (s.flag (R.FLM_DESC.remote f))).get (R.FLM_DESC.chan f)))),
    openFlume_regs s f⟩

theorem openAsked_unlinked (s : State) (f : Nat) (rem : Bool) : (s.openAsked f rem).unlinked = s.unlinked := by
  cases rem with
  | true => exact skwCtrl_unlinked ..
  | false => rfl

theorem puts_unclosed (s : State) (l : List (Fld × Nat)) : (s.puts l).unclosed = s.unclosed :=
  foldl_keeps State.unclosed (fun (s : State) (p : Fld × Nat) => s.put p.1 p.2) (fun _ _ => rfl) l s

theorem setFlume_unclosed (s : State) (f : Nat) (x : Flume) : (s.setFlume f x).unclosed = s.unclosed := rfl

theorem bound_unclosed (s : State) (f : Nat) (rem : Bool) (x : Flume) : (s.bound f rem x).unclosed = s.unclosed :=
  (setFlume_unclosed ..).trans ((puts_unclosed ..).trans (put_unclosed ..))

/-- Where a flume's state and sequence numbers are. -/
theorem stat_places (f : Nat) : (R.FLM_STAT.state f).a ≠ (R.FLM_STAT.above_hi f).a ∧ (R.FLM_STAT.state f).a ≠ (R.FLM_SEQ.next_cmt f).a ∧
    (R.FLM_STAT.state f).a ≠ (R.FLM_SEQ.next_pop f).a ∧ (R.FLM_SEQ.next_cmt f).a ≠ (R.FLM_STAT.above_hi f).a ∧
    (R.FLM_SEQ.next_pop f).a ≠ (R.FLM_STAT.above_hi f).a ∧ (R.FLM_SEQ.next_cmt f).a ≠ (R.FLM_SEQ.next_pop f).a := by
  simp only [R.FLM_STAT.state, R.FLM_STAT.above_hi, R.FLM_SEQ.next_cmt, R.FLM_SEQ.next_pop]
  omega

theorem openFlume_unclosed (s : State) (f : Nat) : (s.openFlume f).unclosed = s.unclosed := by
  obtain ⟨now, up, same⟩ := openFlume_eq s f
  rw [same]
  exact (unclosed_of_unlinked (openAsked_unlinked ..)).trans (bound_unclosed ..)

theorem puts_pair_get (s : State) {a b : Fld} (apart : a.a ≠ b.a) (v w : Nat) : (s.puts [(a, v), (b, w)]).get a = v % 2 ^ a.w ∧
    (s.puts [(a, v), (b, w)]).get b = w % 2 ^ b.w ∧ ∀ g : Fld, g.a ≠ a.a → g.a ≠ b.a → (s.puts [(a, v), (b, w)]).get g = s.get g :=
  ⟨(State.get_put_other _ _ _ _ apart).trans (State.get_put_same ..), State.get_put_same .., fun _ first second =>
    (State.get_put_other _ _ _ _ second).trans (State.get_put_other _ _ _ _ first)⟩

theorem openFlume_facts (s : State) (f : Nat) : let t := s.openFlume f
    t.flmState f = (if s.flag (R.FLM_DESC.remote f) then flmHELD else flmOPEN) ∧ (t.flume f).recs = [] ∧ (t.flume f).out = 0 ∧
      t.get (R.FLM_SEQ.next_cmt f) = 0 ∧ t.get (R.FLM_SEQ.next_pop f) = 0 ∧
      ∀ g : Fld, g.a ≠ (R.FLM_STAT.state f).a → g.a ≠ (R.FLM_SEQ.next_cmt f).a → g.a ≠ (R.FLM_SEQ.next_pop f).a →
        t.get g = s.get g := by
  obtain ⟨now, up, same⟩ := openFlume_eq s f
  have recs : (Flume.fresh now (s.flag (R.FLM_DESC.remote f)) up).recs = [] := rfl
  have out : (Flume.fresh now (s.flag (R.FLM_DESC.remote f)) up).out = 0 := rfl
  generalize Flume.fresh now (s.flag (R.FLM_DESC.remote f)) up = x at *
  obtain ⟨-, stateCmt, statePop, -, -, cmtPop⟩ := stat_places f
  have told := openAsked_unlinked (s.bound f (s.flag (R.FLM_DESC.remote f)) x) f (s.flag (R.FLM_DESC.remote f))
  have get (g : Fld) := get_of_unlinked told g
  have flume : ((s.bound f (s.flag (R.FLM_DESC.remote f)) x).openAsked f (s.flag (R.FLM_DESC.remote f))).flume f = x :=
    (congrArg (fun m => KMap.find (fun _ => Flume.empty) m f) (flumes_of_unlinked told)).trans ((State.flume_setFlume ..).trans (if_pos rfl))
  obtain ⟨cmt, pop, others⟩ := puts_pair_get (s.put (R.FLM_STAT.state f) (if s.flag (R.FLM_DESC.remote f) then flmHELD else flmOPEN)) cmtPop 0 0
  dsimp only
  rw [same]
  have regs (g : Fld) : (s.bound f (s.flag (R.FLM_DESC.remote f)) x).get g = (s.boundRegs f (s.flag (R.FLM_DESC.remote f))).get g := setFlume_get ..
  refine ⟨(get _).trans ((regs _).trans ((others _ stateCmt statePop).trans ((State.get_put_same ..).trans ?_))),
    (congrArg Flume.recs flume).trans recs, (congrArg Flume.out flume).trans out,
    (get _).trans ((regs _).trans (cmt.trans (Nat.zero_mod _))), (get _).trans ((regs _).trans (pop.trans (Nat.zero_mod _))),
    fun g state first second => (get g).trans ((regs g).trans ((others g first second).trans (State.get_put_other _ _ _ _ state)))⟩
  cases s.flag (R.FLM_DESC.remote f) <;> rfl

/-! ## Clearing, closing, zeroing (R158, R162, R165) -/

/-- What clears the counters of a flume. -/
def clearFields (f : Nat) : List (Fld × Nat) :=
  [(R.FLM_CNT.full f, 0), (R.FLM_CNT.empty f, 0), (R.FLM_CNT.spill f, 0), (R.FLM_CNT.poison f, 0), (R.FLM_CNT.discard f, 0), (R.FLM_CNT.records f, 0)]

theorem clearFields_nodup (f : Nat) : ((clearFields f).map fun p => p.1.a).Nodup := by
  simp only [clearFields, List.map_cons, List.map_nil, List.nodup_cons, List.mem_cons, List.not_mem_nil, or_false, not_or, not_false_eq_true,
    List.nodup_nil, and_true, R.FLM_CNT.full, R.FLM_CNT.empty, R.FLM_CNT.spill, R.FLM_CNT.poison, R.FLM_CNT.discard, R.FLM_CNT.records]
  omega

section
variable {s : State} {f : Fin 8192}

section
variable (opened : s.Open)
include opened

theorem exec_flmCmdClose (up : s.halfInReset (halfOfFlume f.val) = false) : exec (.flmCmdClose f) s = .next (s.closeFlume f.val) :=
  congrArg Host.Outcome.next ((gated_of_open opened _ _).trans (if_neg (by rw [up]; decide)))

theorem exec_flmCmdClear (up : s.halfInReset (halfOfFlume f.val) = false) : exec (.flmCmdClear f) s = .next (s.puts (clearFields f.val)) :=
  congrArg Host.Outcome.next ((gated_of_open opened _ _).trans (if_neg (by rw [up]; decide)))

theorem cleared (up : s.halfInReset (halfOfFlume f.val) = false) : let n := f.val
    ∃ t, exec (.flmCmdClear f) s = .next t ∧ t.get (R.FLM_CNT.full n) = 0 ∧ t.get (R.FLM_CNT.empty n) = 0 ∧
      t.get (R.FLM_CNT.spill n) = 0 ∧ t.get (R.FLM_CNT.poison n) = 0 ∧ t.get (R.FLM_CNT.discard n) = 0 ∧ t.get (R.FLM_CNT.records n) = 0 ∧
      SameRegsBut s t [R.FLM_CNT.full n, R.FLM_CNT.empty n, R.FLM_CNT.spill n, R.FLM_CNT.poison n, R.FLM_CNT.discard n, R.FLM_CNT.records n] ∧
      { t with regs := s.regs } = s := by
  have zero {p : Fld × Nat} (mem : p ∈ clearFields f.val) : (s.puts (clearFields f.val)).get p.1 = p.2 % 2 ^ p.1.w :=
    puts_get_of_nodup s (clearFields_nodup f.val) mem
  refine ⟨_, exec_flmCmdClear opened up, zero (p := (R.FLM_CNT.full f.val, 0)) (by simp [clearFields]),
    zero (p := (R.FLM_CNT.empty f.val, 0)) (by simp [clearFields]), zero (p := (R.FLM_CNT.spill f.val, 0)) (by simp [clearFields]),
    zero (p := (R.FLM_CNT.poison f.val, 0)) (by simp [clearFields]), zero (p := (R.FLM_CNT.discard f.val, 0)) (by simp [clearFields]),
    zero (p := (R.FLM_CNT.records f.val, 0)) (by simp [clearFields]), fun g other => puts_get_other s fun p mem => ?_, puts_rest ..⟩
  simp only [clearFields, List.mem_cons, List.not_mem_nil, or_false] at mem
  rcases mem with rfl | rfl | rfl | rfl | rfl | rfl <;> exact other _ (by simp)

theorem closed_near (up : s.halfInReset (halfOfFlume f.val) = false) (bound : s.flmState f.val = flmOPEN ∨ s.flmState f.val = flmHELD) :
    let n := f.val
    ∃ t, exec (.flmCmdClose f) s = .next t ∧ t.flmState n = flmCLOSING ∧ (t.flume n).recs = [] ∧ SameMem s t ∧
      t.get (R.FLM_CNT.discard n) = min (s.get (R.FLM_CNT.discard n) + (s.flume n).recs.length + (s.flume n).staged.length) (2 ^ 48 - 1) := by
  obtain ⟨state, flume, count⟩ := closeFlume_open bound
  refine ⟨_, exec_flmCmdClose opened up, state, congrArg Flume.recs flume, sameMem_of_unclosed (closeFlume_unclosed ..), ?_⟩
  rw [Nat.add_assoc]
  exact count

/-- While the home half is in reset the command is logged and dropped. -/
theorem cmds_down (down : s.halfInReset (halfOfFlume f.val) = true) (i : Instr) (cmd : i = .flmCmdClose f ∨ i = .flmCmdClear f) : let n := f.val
    ∃ t, exec i s = .next t ∧ t.flumes = s.flumes ∧ t.flmState n = s.flmState n ∧ t.get (R.FLM_CNT.full n) = s.get (R.FLM_CNT.full n) ∧ SameMem s t ∧
      (t.log.head?.map LogEntry.code) = some E.LINK_HALF_DOWN := by
  have run : exec i s = .next (s.raise E.LINK_HALF_DOWN none (atEntry (ldOfFlume f.val)) f.val) := by
    rcases cmd with rfl | rfl <;> exact congrArg Host.Outcome.next ((gated_of_open opened _ _).trans (if_pos down))
  have same := raise_unlogged s E.LINK_HALF_DOWN none (atEntry (ldOfFlume f.val)) f.val
  refine ⟨_, run, (congrArg State.flumes same :), raise_get s ?_, raise_get s ?_, sameMem_of_unlogged same, log_code_of_raise⟩
  · simp only [R.FLM_STAT.state]
    omega
  · simp only [R.FLM_CNT.full]
    omega

end

theorem exec_flmCloseDone (closing : s.flmState f.val = flmCLOSING) (done : (s.flume f.val).peerAck = true ∨ (s.flume f.val).linkDown = true) :
    let n := f.val
    ∃ t, exec (.flmCloseDone f) s = .next t ∧ t.flmState n = flmZEROING ∧ SameMem s t ∧ t.flumes = s.flumes ∧
      SameRegsBut s t [R.FLM_STAT.state n] ∧ t.seqs = s.seqs :=
  ⟨_, congrArg Host.Outcome.next (if_pos ⟨closing, done⟩), (State.get_put_same ..).trans rfl, sameMem_of_eq rfl rfl rfl rfl, rfl,
    fun _ other => State.get_put_other _ _ _ _ (other _ List.mem_cons_self), rfl⟩

end

/-! ### A flume is unbound -/

theorem wipe_unstored (s : State) (a n : Nat) : (s.wipe a n).unstored = s.unstored := rfl

theorem wipeFlume_unstored (s : State) (f : Nat) : (s.wipeFlume f).unstored = s.unstored :=
  foldl_keeps State.unstored (fun (s : State) (r : Nat × Nat) => s.wipe r.1 r.2) (fun _ _ => wipe_unstored ..) _ s

/-- What has been wiped is zero, and the rest stays. -/
theorem wipes_byte (l : List (Nat × Nat)) (s : State) (a : Nat) :
    ((∃ r ∈ l, r.1 ≤ a ∧ a < r.1 + r.2) → (l.foldl (fun s r => s.wipe r.1 r.2) s).byte a = 0) ∧
    ((∀ r ∈ l, a < r.1 ∨ r.1 + r.2 ≤ a) → (l.foldl (fun s r => s.wipe r.1 r.2) s).byte a = s.byte a) := by
  induction l generalizing s with
  | nil => exact ⟨fun ⟨_, mem, _⟩ => absurd mem List.not_mem_nil, fun _ => rfl⟩
  | cons r l ih =>
    obtain ⟨inside, outside⟩ := ih (s.wipe r.1 r.2)
    have first := wipe_byte s r.1 r.2 a
    simp only [List.foldl_cons]
    constructor
    · rintro ⟨q, mem, here⟩
      by_cases later : ∃ r ∈ l, r.1 ≤ a ∧ a < r.1 + r.2
      · exact inside later
      · rcases List.mem_cons.1 mem with rfl | mem
        · refine (outside fun p hp => ?_).trans (first.trans (if_pos here))
          by_contra none_
          exact later ⟨p, hp, by omega⟩
        · exact absurd ⟨q, mem, here⟩ later
    · intro apart
      have own := apart r List.mem_cons_self
      exact (outside fun p hp => apart p (List.mem_cons_of_mem r hp)).trans (first.trans (if_neg (by omega)))

/-- Registers back at reset. -/
def State.flumeReset (s : State) (f : Nat) : State :=
  (s.regReset (0x0300_0000 + 64 * f) (0x0300_0000 + 64 * f + 64)).regReset (0x0308_0000 + 16 * f) (0x0308_0000 + 16 * f + 16)

theorem flumeReset_uncommitted (s : State) (f : Nat) : (s.flumeReset f).uncommitted = s.uncommitted := rfl

/-- An unbound flume. -/
def Flume.unbound (was : Option Nat) : Flume := { Flume.empty with was := was }

theorem unbindFlume_eq (s : State) (f : Nat) : s.unbindFlume f = (s.flumeReset f).setFlume f (Flume.unbound ((s.flumeReset f).flume f).was) := rfl

theorem setFlume_rest (s : State) (f : Nat) (x : Flume) : (s.setFlume f x).seqs = s.seqs ∧ (s.setFlume f x).jobs = s.jobs ∧ (s.setFlume f x).mem = s.mem :=
  ⟨rfl, rfl, rfl⟩

theorem unbindFlume_facts (s : State) {f : Nat} (small : f < 8192) : (s.unbindFlume f).flmState f = flmUNBOUND ∧
    (∀ g, (s.unbindFlume f).flume g = if g = f then Flume.unbound (s.flume f).was else s.flume g) ∧
    (s.unbindFlume f).seqs = s.seqs ∧ (s.unbindFlume f).jobs = s.jobs ∧ (s.unbindFlume f).mem = s.mem := by
  have rest := flumeReset_uncommitted s f
  obtain ⟨seqs, jobs, mem⟩ := setFlume_rest (s.flumeReset f) f (Flume.unbound ((s.flumeReset f).flume f).was)
  have flumes (g : Nat) : (s.flumeReset f).flume g = s.flume g := congrArg (fun m => KMap.find (fun _ => Flume.empty) m g) (congrArg State.flumes rest :)
  have state : (s.flumeReset f).flmState f = 0 := by
    have inside : 8 * (0x0308_0000 + 16 * f) ≤ (R.FLM_STAT.state f).a ∧ (R.FLM_STAT.state f).a < 8 * (0x0308_0000 + 16 * f + 16) := by
      simp only [R.FLM_STAT.state]
      omega
    refine (regReset_get ..).trans ((if_pos inside).trans ?_)
    rw [resetVal_flume (by omega) (by omega), Nat.zero_mod]
  rw [unbindFlume_eq]
  refine ⟨(setFlume_get ..).trans state, fun g => (State.flume_setFlume ..).trans ?_, seqs.trans (congrArg State.seqs rest :),
    jobs.trans (congrArg State.jobs rest :), mem.trans (congrArg State.mem rest :)⟩
  rw [flumes, flumes]

/-! ### A flume that a redraw makes again (R272) -/

/-- The context whose redraw makes the flume again. -/
def State.remakeOf (s : State) (f : Nat) : Option Nat :=
  (s.jobs.map Prod.fst).find? (fun c => (s.job c).remake.any (fun x => decide (x.1 = f)))

theorem remakeOf_congr {s t : State} (same : t.jobs = s.jobs) (f : Nat) : t.remakeOf f = s.remakeOf f := by
  have job (c : Nat) : t.job c = s.job c := congrArg (fun m => KMap.find (fun _ => Job.empty) m c) same
  unfold State.remakeOf
  simp only [same, job]

theorem remakeFlume_none {s : State} {f : Nat} (none_ : s.remakeOf f = none) : s.remakeFlume f = s := by
  unfold State.remakeFlume
  unfold State.remakeOf at none_
  rw [none_]

/-- The flume bound again, the jobs not yet seen to. -/
def State.remade (s : State) (f c : Nat) : State :=
  ((s.puts ((flmGroup f).zip ((((s.job c).remake.find? (fun x => decide (x.1 = f))).map Prod.snd).getD []))).openFlume f).flmSync f

theorem remakeFlume_some {s : State} {f c : Nat} (found : s.remakeOf f = some c) (more : (s.job c).remake.filter (fun x => decide (x.1 ≠ f)) ≠ []) :
    s.remakeFlume f = (s.remade f c).modJob c (fun j => { j with remake := (s.job c).remake.filter (fun x => decide (x.1 ≠ f)) }) := by
  have some_ : ¬((s.job c).remake.filter (fun x => decide (x.1 ≠ f))).isEmpty = true := fun h => more (List.isEmpty_iff.1 h)
  unfold State.remakeFlume
  unfold State.remakeOf at found
  rw [found]
  exact if_neg some_

theorem remade_facts (s : State) (f c : Nat) : ((s.remade f c).flmState f = flmOPEN ∨ (s.remade f c).flmState f = flmHELD) ∧
    ((s.remade f c).flume f).recs = [] := by
  obtain ⟨state, recs, -⟩ := openFlume_facts (s.puts ((flmGroup f).zip ((((s.job c).remake.find? (fun x => decide (x.1 = f))).map Prod.snd).getD []))) f
  have sync (u : State) : (u.flmSync f).flmState f = u.flmState f := State.get_put_other _ _ _ _ (stat_places f).1
  have flume (u : State) : (u.flmSync f).flume f = u.flume f := rfl
  unfold State.remade
  rw [sync, flume]
  refine ⟨?_, recs⟩
  rw [state]
  split
  · exact .inr rfl
  · exact .inl rfl

theorem modJob_facts (u : State) (c : Nat) (l : List (Nat × List Nat)) (f : Nat) :
    ((u.modJob c (fun j => { j with remake := l })).job c).remake = l ∧ (u.modJob c (fun j => { j with remake := l })).flmState f = u.flmState f ∧
    (u.modJob c (fun j => { j with remake := l })).flume f = u.flume f :=
  ⟨congrArg Job.remake ((KMap.find_put ..).trans (if_pos rfl)), rfl, rfl⟩

section
variable {s : State} {f : Fin 8192} (zeroing : s.flmState f.val = flmZEROING)
include zeroing

theorem exec_flmZeroingDone : exec (.flmZeroingDone f) s = .next (((s.wipeFlume f.val).unbindFlume f.val).remakeFlume f.val) :=
  congrArg Host.Outcome.next (if_pos zeroing)

theorem zeroed (alone : ∀ e ∈ s.jobs, ∀ x ∈ (s.job e.1).remake, x.1 ≠ f.val) : let n := f.val
    ∃ t, exec (.flmZeroingDone f) s = .next t ∧ t.flmState n = flmUNBOUND ∧ t.flume n = { Flume.empty with was := (s.flume n).was } ∧
      (∀ g, g ≠ n → t.flume g = s.flume g) ∧ t.seqs = s.seqs ∧
      (∀ r ∈ (s.flume n).zero, ∀ i, i < r.2 → t.byte (r.1 + i) = 0) ∧
      (∀ a, (∀ r ∈ (s.flume n).zero, a < r.1 ∨ r.1 + r.2 ≤ a) → t.byte a = s.byte a) := by
  have wiped := wipeFlume_unstored s f.val
  obtain ⟨state, flumes, seqs, jobs, mem⟩ := unbindFlume_facts (s.wipeFlume f.val) f.isLt
  have none_ : s.remakeOf f.val = none := by
    refine List.find?_eq_none.2 fun c mem again => ?_
    obtain ⟨e, inside, rfl⟩ := List.mem_map.1 mem
    obtain ⟨x, hx, same⟩ := List.any_eq_true.1 again
    exact alone e inside x hx (of_decide_eq_true same)
  have wipedJobs : (s.wipeFlume f.val).jobs = s.jobs := (congrArg State.jobs wiped :)
  have wipedFlume (g : Nat) : (s.wipeFlume f.val).flume g = s.flume g :=
    congrArg (fun m => KMap.find (fun _ => Flume.empty) m g) (congrArg State.flumes wiped :)
  have byte (a : Nat) : ((s.wipeFlume f.val).unbindFlume f.val).byte a = (s.wipeFlume f.val).byte a :=
    congrArg (fun m => KMap.find (fun _ => 0) m a) mem
  have bytes := wipes_byte (s.flume f.val).zero s
  refine ⟨_, (exec_flmZeroingDone zeroing).trans (congrArg Host.Outcome.next (remakeFlume_none ((remakeOf_congr (jobs.trans wipedJobs) _).trans none_))),
    state, (flumes _).trans ((if_pos rfl).trans (by rw [wipedFlume]; rfl)), fun g other => (flumes g).trans ((if_neg other).trans (wipedFlume g)),
    seqs.trans (congrArg State.seqs wiped :), fun r mem i less => (byte _).trans ((bytes _).1 ⟨r, mem, by omega⟩),
    fun a apart => (byte a).trans ((bytes a).2 apart)⟩

theorem zeroed_again (c : Nat) (found : (s.jobs.map Prod.fst).find? (fun c => (s.job c).remake.any (fun x => decide (x.1 = f.val))) = some c)
    (more : (s.job c).remake.filter (fun x => decide (x.1 ≠ f.val)) ≠ []) : let n := f.val
    ∃ t, exec (.flmZeroingDone f) s = .next t ∧ (t.flmState n = flmOPEN ∨ t.flmState n = flmHELD) ∧ (t.flume n).recs = [] ∧
      (t.job c).remake = (s.job c).remake.filter (fun x => decide (x.1 ≠ n)) := by
  have wiped := wipeFlume_unstored s f.val
  obtain ⟨-, -, -, jobs, -⟩ := unbindFlume_facts (s.wipeFlume f.val) f.isLt
  have all : ((s.wipeFlume f.val).unbindFlume f.val).jobs = s.jobs := jobs.trans (congrArg State.jobs wiped :)
  have run := exec_flmZeroingDone zeroing
  generalize (s.wipeFlume f.val).unbindFlume f.val = u at *
  have job : u.job c = s.job c := congrArg (fun m => KMap.find (fun _ => Job.empty) m c) all
  obtain ⟨state, recs⟩ := remade_facts u f.val c
  obtain ⟨remake, flmState, flume⟩ := modJob_facts (u.remade f.val c) c ((u.job c).remake.filter (fun x => decide (x.1 ≠ f.val))) f.val
  refine ⟨_, run.trans (congrArg Host.Outcome.next (remakeFlume_some ((remakeOf_congr all _).trans found) (by rw [job]; exact more))), ?_, ?_, ?_⟩
  · rw [flmState]
    exact state
  · rw [flume]
    exact recs
  · rw [remake, job]

end

/-! ## The descriptor commit (R132, R158, R440) -/

/-- The result of the last commit. -/
def State.flmResult (s : State) (f r : Nat) : State := s.puts [(R.FLM_CSTAT.result, r), (R.FLM_CSTAT.flume, f)]

theorem flmResult_facts (s : State) {f r : Nat} (flume : f < 8192) (small : r < 4) : (s.flmResult f r).get R.FLM_CSTAT.result = r ∧
    (s.flmResult f r).get R.FLM_CSTAT.flume = f ∧ (∀ g : Fld, g.a < 8 * 0x3700000 → (s.flmResult f r).get g = s.get g) ∧
    (s.flmResult f r).unclosed = s.unclosed ∧ (s.flmResult f r).flumes = s.flumes := by
  obtain ⟨result, number, others⟩ := puts_pair_get s (by decide : R.FLM_CSTAT.result.a ≠ R.FLM_CSTAT.flume.a) r f
  have rest := puts_rest s [(R.FLM_CSTAT.result, r), (R.FLM_CSTAT.flume, f)]
  refine ⟨result.trans (Nat.mod_eq_of_lt small), number.trans (Nat.mod_eq_of_lt flume), fun g low => others g ?_ ?_, puts_unclosed ..,
    (congrArg State.flumes rest :)⟩ <;> simp only [R.FLM_CSTAT.result, R.FLM_CSTAT.flume] <;> omega

/-- What a descriptor that has no fault does. -/
def State.flmCommitted (s : State) (f : Nat) : State :=
  ((if decide (s.flmState f = flmUNBOUND) then (s.commit (flmGroup f)).openFlume f else s.commit (flmGroup f)).flmSync f).flmResult f 1

theorem exec_flmCommit {s : State} {f : Fin 8192} (opened : s.Open) (up : s.halfInReset (halfOfFlume f.val) = false)
    (idle : s.get R.FLM_CSTAT.busy = 0) : let n := f.val
    let c := s.sget (R.FLM_DESC.ctx n)
    exec (.flmCommit f) s = .next (
      if s.leaving c then (s.raise E.CFG_COMMIT (some c) (atLd (ldOfFlume n)) n).flmResult n 3
      else if s.sget (R.FLM_DESC.en n) = 0 then ((s.closeFlume n).commit (flmGroup n)).flmResult n 1
      else if s.sget (R.FLM_DESC.depth n) = 0 ∨ s.sget (R.FLM_DESC.rec_size n) = 0 then
        (s.raise E.CFG_ZERO (some c) (atLd (ldOfFlume n)) n).flmResult n 2
      else if s.flmDescBad n then ((s.permNote s.entryLd c (s.flmRanges n)).raise E.CFG_COMMIT (some c) (atLd (ldOfFlume n)) n).flmResult n 3
      else s.flmCommitted n) :=
  congrArg Host.Outcome.next ((gated_of_open opened _ _).trans ((if_neg (by rw [up]; decide)).trans (if_neg (by rw [State.flag, idle]; decide))))

/-- Where a flume's registers are. -/
theorem flume_low {f : Nat} (flume : f < 8192) : (R.FLM_STAT.state f).a < 8 * 0x3700000 ∧ (R.FLM_SEQ.next_cmt f).a < 8 * 0x3700000 ∧
    (R.FLM_SEQ.next_pop f).a < 8 * 0x3700000 ∧ ∀ g ∈ flmGroup f, g.a < 8 * 0x3080000 := by
  refine ⟨?_, ?_, ?_, fun g mem => ?_⟩
  · simp only [R.FLM_STAT.state]
    omega
  · simp only [R.FLM_SEQ.next_cmt]
    omega
  · simp only [R.FLM_SEQ.next_pop]
    omega
  · have := (flmGroup_place mem).2
    omega

/-- A refusal writes neither the descriptor nor the state. -/
theorem commit_refused (u : State) {s : State} {f code r : Nat} {ctx : Option Nat} {w : Where} (flume : f < 8192) (small : r < 4)
    (same : ∀ g : Fld, g.a < 8 * 0x3700000 → u.get g = s.get g) : let t := (u.raise code ctx w f).flmResult f r
    t.get R.FLM_CSTAT.result = r ∧ t.get R.FLM_CSTAT.flume = f ∧ (∀ g ∈ flmGroup f, t.get g = s.get g) ∧ t.flmState f = s.flmState f ∧
      (t.log.head?.map LogEntry.code) = some code := by
  obtain ⟨result, number, low, rest, -⟩ := flmResult_facts (u.raise code ctx w f) flume small
  obtain ⟨state, -, -, group⟩ := flume_low flume
  have keep (g : Fld) (place : g.a < 8 * 0x3700000) : ((u.raise code ctx w f).flmResult f r).get g = s.get g :=
    (low g place).trans ((raise_get u (by omega)).trans (same g place))
  have log : ((u.raise code ctx w f).flmResult f r).log = (u.raise code ctx w f).log := (congrArg State.log rest :)
  refine ⟨result, number, fun g mem => keep g ?_, keep _ state, (congrArg (fun l : List LogEntry => l.head?.map LogEntry.code) log).trans log_code_of_raise⟩
  have := group g mem
  omega

theorem permNote_low (s : State) (ld : Nat → Nat) (c : Nat) (rs : List (Nat × Nat × Bool)) (g : Fld) (low : g.a < 8 * 0x3700000) :
    (s.permNote ld c rs).get g = s.get g := by
  unfold State.permNote
  split
  · rw [State.permLog, raise_get _ (by omega), State.get_count_other _ _ _ _ (by simp only [R.SEC_PERMLOG1.count]; omega), puts_get_other s]
    simp only [List.forall_mem_cons, R.SEC_PERMLOG0.addr, R.SEC_PERMLOG1.kind, R.SEC_PERMLOG1.write, R.SEC_PERMLOG1.ctx]
    exact ⟨by omega, by omega, by omega, by omega, by simp⟩
  · rfl

/-- The registers of a flume's status are none of its descriptor's. -/
theorem group_apart {f : Nat} (flume : f < 8192) {g : Fld} (mem : g ∈ flmGroup f) : g.a ≠ (R.FLM_STAT.state f).a ∧ g.a ≠ (R.FLM_STAT.above_hi f).a ∧
    g.a ≠ (R.FLM_SEQ.next_cmt f).a ∧ g.a ≠ (R.FLM_SEQ.next_pop f).a ∧ g.a ≠ (R.FLM_CNT.discard f).a := by
  have low := (flume_low flume).2.2.2 g mem
  simp only [R.FLM_STAT.state, R.FLM_STAT.above_hi, R.FLM_SEQ.next_cmt, R.FLM_SEQ.next_pop, R.FLM_CNT.discard]
  omega

section
variable {s : State} {f : Nat} (flume : f < 8192)
include flume

/-- A commit that closes the flume. -/
theorem commit_closes : let t := ((s.closeFlume f).commit (flmGroup f)).flmResult f 1
    t.get R.FLM_CSTAT.result = 1 ∧ t.get R.FLM_CSTAT.flume = f ∧ (∀ g ∈ flmGroup f, t.get g = s.sget g) ∧
      t.flmState f = (if s.flmState f = flmOPEN ∨ s.flmState f = flmHELD then flmCLOSING else s.flmState f) ∧
      (t.flmState f = flmCLOSING → s.flmState f ≠ flmCLOSING → (t.flume f).recs = []) ∧ SameMem s t := by
  obtain ⟨result, number, low, rest, flumes⟩ := flmResult_facts ((s.closeFlume f).commit (flmGroup f)) (r := 1) flume (by decide)
  have committed := commit_uncommitted (s.closeFlume f) (flmGroup f)
  have closed := closeFlume_unclosed s f
  have flume' : (((s.closeFlume f).commit (flmGroup f)).flmResult f 1).flume f = (s.closeFlume f).flume f :=
    congrArg (fun m => KMap.find (fun _ => Flume.empty) m f) (flumes.trans (congrArg State.flumes committed :))
  have state : (((s.closeFlume f).commit (flmGroup f)).flmResult f 1).flmState f = (s.closeFlume f).flmState f :=
    (low _ (flume_low flume).1).trans (commit_get_other _ fun g mem => (group_apart flume mem).1.symm)
  have mem : SameMem s (((s.closeFlume f).commit (flmGroup f)).flmResult f 1) :=
    ((sameMem_of_unclosed closed).trans (mem_of_uncommitted committed).1).trans (sameMem_of_unclosed rest)
  refine ⟨result, number, fun g mem => ?_, ?_, fun closing before => ?_, mem⟩
  · obtain ⟨states, above, -, -, discard⟩ := group_apart flume mem
    have place := (flume_low flume).2.2.2 g mem
    refine (low g (by omega)).trans ((commit_get _ (flmGroup_fields f) mem).trans (sget_of_get (congrArg State.shadow closed :) ?_))
    exact closeFlume_get s discard states above
  · rw [state]
    split
    · next opened => exact (closeFlume_open opened).1
    · next shut => rw [closeFlume_shut shut]
  · rw [flume']
    by_cases opened : s.flmState f = flmOPEN ∨ s.flmState f = flmHELD
    · rw [(closeFlume_open opened).2.1]
      rfl
    · rw [state, closeFlume_shut opened] at closing
      exact absurd closing before

/-- A commit that binds a local flume. -/
theorem commit_binds (fresh : s.flmState f = flmUNBOUND) (near : s.sget (R.FLM_DESC.remote f) = 0) : let t := s.flmCommitted f
    t.get R.FLM_CSTAT.result = 1 ∧ t.get R.FLM_CSTAT.flume = f ∧ t.flmState f = flmOPEN ∧
      (∀ g ∈ flmGroup f, t.get g = s.sget g) ∧ (t.flume f).recs = [] ∧ (t.flume f).out = 0 ∧ t.get (R.FLM_SEQ.next_cmt f) = 0 ∧
      t.get (R.FLM_SEQ.next_pop f) = 0 ∧ SameMem s t := by
  have committed := commit_uncommitted s (flmGroup f)
  have group (g : Fld) (mem : g ∈ flmGroup f) := commit_get s (flmGroup_fields f) mem
  have near' : (s.commit (flmGroup f)).flag (R.FLM_DESC.remote f) = false :=
    flag_eq_false ((group _ (by simp [flmGroup])).trans near)
  have eq : s.flmCommitted f = (((s.commit (flmGroup f)).openFlume f).flmSync f).flmResult f 1 :=
    congrArg (fun u : State => (u.flmSync f).flmResult f 1) (if_pos (decide_eq_true fresh))
  rw [eq]
  obtain ⟨state, recs, out, cmt, pop, others⟩ := openFlume_facts (s.commit (flmGroup f)) f
  have bound := openFlume_unclosed (s.commit (flmGroup f)) f
  have sameMem := (mem_of_uncommitted committed).1.trans (sameMem_of_unclosed bound)
  rw [near'] at state
  generalize (s.commit (flmGroup f)).openFlume f = u at *
  obtain ⟨result, number, low, rest, flumes⟩ := flmResult_facts (u.flmSync f) (r := 1) flume (by decide)
  obtain ⟨stateAbove, -, -, cmtAbove, popAbove, -⟩ := stat_places f
  obtain ⟨stateLow, cmtLow, popLow, groupLow⟩ := flume_low flume
  have sync {g : Fld} (place : g.a < 8 * 0x3700000) (above : g.a ≠ (R.FLM_STAT.above_hi f).a) : ((u.flmSync f).flmResult f 1).get g = u.get g :=
    (low g place).trans (State.get_put_other _ _ _ _ above)
  have flume' : ((u.flmSync f).flmResult f 1).flume f = u.flume f := congrArg (fun m => KMap.find (fun _ => Flume.empty) m f) flumes
  refine ⟨result, number, (sync stateLow stateAbove).trans state, fun g mem => ?_, (congrArg Flume.recs flume').trans recs,
    (congrArg Flume.out flume').trans out, (sync cmtLow cmtAbove).trans cmt, (sync popLow popAbove).trans pop,
    sameMem.trans ((sameMem_of_eq rfl rfl rfl rfl).trans (sameMem_of_unclosed rest))⟩
  obtain ⟨states, above, cmts, pops, -⟩ := group_apart flume mem
  have place := groupLow g mem
  exact (sync (by omega) above).trans ((others g states cmts pops).trans (group g mem))

end

/-- Settles O11, by what closing, zeroing and binding a flume each leave alone. -/
theorem flumeCloseAndDescriptor : Obligations.FlumeCloseAndDescriptor := by
  refine ⟨fun s f => ⟨fun opened up bound _ => closed_near opened up bound, fun closing done => exec_flmCloseDone closing done,
      fun not => congrArg Host.Outcome.next (if_neg not), fun zeroing alone => zeroed zeroing alone,
      fun zeroing c found more => zeroed_again zeroing c found more, fun not => congrArg Host.Outcome.next (if_neg not),
      fun opened up open_ held => (exec_flmCmdClose opened up).trans (congrArg Host.Outcome.next (closeFlume_shut fun h => h.elim open_ held)),
      fun opened down i cmd => cmds_down opened down i cmd, fun opened up => cleared opened up⟩, fun s f opened up idle => ?_⟩
  have run := exec_flmCommit opened up idle
  have stays {c : Nat} (no : s.leaving c = false) : ¬s.leaving c = true := by rw [no]; decide
  refine ⟨fun leaving => ?_, fun stay off => ?_, fun stay on zero => ?_, fun stay on depth size bad => ?_, fun stay on depth size good fresh near => ?_⟩
  · exact ⟨_, run.trans (congrArg Host.Outcome.next (if_pos leaving)), commit_refused s f.isLt (by decide) fun _ _ => rfl⟩
  · exact ⟨_, run.trans (congrArg Host.Outcome.next ((if_neg (stays stay)).trans (if_pos off))), commit_closes f.isLt⟩
  · exact ⟨_, run.trans (congrArg Host.Outcome.next ((if_neg (stays stay)).trans ((if_neg (by rw [on]; decide)).trans (if_pos zero)))),
      commit_refused s f.isLt (by decide) fun _ _ => rfl⟩
  · exact ⟨_, run.trans (congrArg Host.Outcome.next ((if_neg (stays stay)).trans ((if_neg (by rw [on]; decide)).trans
      ((if_neg fun h => h.elim depth size).trans (if_pos bad))))), commit_refused _ f.isLt (by decide) fun g low => permNote_low s _ _ _ g low⟩
  · exact ⟨_, run.trans (congrArg Host.Outcome.next ((if_neg (stays stay)).trans ((if_neg (by rw [on]; decide)).trans
      ((if_neg fun h => h.elim depth size).trans (if_neg (by rw [good]; decide)))))), commit_binds f.isLt fresh near⟩

end Sys2Proof.Machine

namespace Sys2Proof.Machine

-- One proof at a time: threads that wait for each other hold memory.
set_option Elab.async false

/-! ## A logged error that raises no alert (R537) -/

theorem noted_sameRegs (s : State) {code cls : Nat} {ctx : Option Nat} {w : Where} {detail : Nat} (quiet : alertOf code = none) :
    SameRegsBut s (s.noted code cls ctx w detail) logRegs := by
  intro g other
  have newest := other R.RAS_LOGHD.newest (by simp [logRegs])
  have lost := other R.RAS_LOGHD.lost (by simp [logRegs])
  have new := other R.RAS_STAT.new (by simp [logRegs])
  have full : (if 4096 ≤ s.log.length then s.count R.RAS_LOGHD.lost 1 else s).get g = s.get g := by
    split
    · exact State.get_count_other _ _ _ _ lost
    · rfl
  unfold State.noted
  rw [quiet]
  dsimp only
  rw [State.get_put_other _ _ _ _ new, State.get_put_other _ _ _ _ newest]
  exact full

theorem raise_sameRegs (s : State) {code : Nat} {ctx : Option Nat} {w : Where} {detail : Nat} (quiet : alertOf code = none) :
    SameRegsBut s (s.raise code ctx w detail) logRegs := by
  intro g other
  rcases logAs_cases s code (errClass code) ctx w detail with same | ⟨v, same⟩
  · exact (congrArg (fun u : State => u.get g) same).trans (noted_sameRegs s quiet g other)
  · exact (congrArg (fun u : State => u.get g) same).trans ((vector_get ..).trans (noted_sameRegs s quiet g other))

/-! ## The flumes on a link -/

/-- The channel of a flume depends on its own registers and on what it was. -/
theorem flmChan_congr {s t : State} {f : Nat} (small : f < 8192) (regs : ∀ g : Fld, 8 * 0x3000000 ≤ g.a → g.a < 8 * 0x30a0000 → t.get g = s.get g)
    (was : s.flmState f ≠ flmOPEN → (t.flume f).was = (s.flume f).was) : t.flmChan f = s.flmChan f := by
  have state : t.flmState f = s.flmState f := regs _ (by simp only [R.FLM_STAT.state]; omega) (by simp only [R.FLM_STAT.state]; omega)
  have remote : t.get (R.FLM_DESC.remote f) = s.get (R.FLM_DESC.remote f) :=
    regs _ (by simp only [R.FLM_DESC.remote]; omega) (by simp only [R.FLM_DESC.remote]; omega)
  have chan : t.get (R.FLM_DESC.chan f) = s.get (R.FLM_DESC.chan f) :=
    regs _ (by simp only [R.FLM_DESC.chan]; omega) (by simp only [R.FLM_DESC.chan]; omega)
  rw [State.flmChan, State.flmChan, state, State.flag, remote, chan, ← State.flag]
  split
  · next leaves => exact was fun opened => by rw [opened] at leaves; exact absurd leaves (by decide)
  · rfl

/-- A flume is on a link when its channel is. -/
theorem mem_flumesOn {s : State} {k f : Nat} : f ∈ s.flumesOn k ↔ f ∈ s.boundFlumes ∧ ∃ ch, s.flmChan f = some ch ∧
    s.get (R.SKW_CHAN.en ch) = 1 ∧ s.get (R.SKW_CHAN.link ch) = k := by
  unfold State.flumesOn
  rw [List.mem_filter]
  refine and_congr_right fun _ => ?_
  cases s.flmChan f with
  | none => simp
  | some ch =>
    simp only [Bool.and_eq_true, flag_iff, decide_eq_true_eq, Option.some.injEq]
    exact ⟨fun h => ⟨ch, rfl, h⟩, fun ⟨_, same, h⟩ => same ▸ h⟩

/-- The channel of an open flume is one of those that a register names. -/
theorem flmChan_open {s : State} {f ch : Nat} (opened : s.flmState f = flmOPEN) (on : s.flmChan f = some ch) :
    ch = s.get (R.FLM_DESC.chan f) ∧ ch < 8192 := by
  unfold State.flmChan at on
  rw [if_neg (by rw [opened]; decide)] at on
  split at on
  · cases on
    exact ⟨rfl, State.get_lt s (R.FLM_DESC.chan f)⟩
  · cases on

theorem flumesOn_congr {s t : State} (bound : t.boundFlumes = s.boundFlumes) (was : ∀ f, (t.flume f).was = (s.flume f).was)
    (regs : ∀ g : Fld, 8 * 0x3000000 ≤ g.a → g.a < 8 * 0x30a0000 → t.get g = s.get g)
    (chans : ∀ g : Fld, 8 * 0x3b10000 ≤ g.a → t.get g = s.get g) (k : Nat) : t.flumesOn k = s.flumesOn k := by
  unfold State.flumesOn
  rw [bound]
  refine List.filter_congr fun f mem => ?_
  rw [flmChan_congr (boundFlumes_lt mem) regs fun _ => was f]
  cases s.flmChan f with
  | none => rfl
  | some ch => simp only [State.flag, chans _ (show 8 * 0x3b10000 ≤ (R.SKW_CHAN.en ch).a by simp only [R.SKW_CHAN.en]; omega),
      chans _ (show 8 * 0x3b10000 ≤ (R.SKW_CHAN.link ch).a by simp only [R.SKW_CHAN.link]; omega)]

/-- An open flume is on a link while the registers of channels and flumes stay. -/
theorem open_flumesOn {s t : State} {f : Nat} (opened : t.flmState f = flmOPEN) (bound : t.boundFlumes = s.boundFlumes)
    (regs : ∀ g : Fld, 8 * 0x3000000 ≤ g.a → g.a < 8 * 0x30a0000 → t.get g = s.get g)
    (chans : ∀ g : Fld, 8 * 0x3b10000 ≤ g.a → g.a < 8 * 0x3b20000 → t.get g = s.get g) {k : Nat} (on : f ∈ t.flumesOn k) : f ∈ s.flumesOn k := by
  obtain ⟨mem, ch, chan, en, link⟩ := mem_flumesOn.1 on
  obtain ⟨-, small⟩ := flmChan_open opened chan
  have inside := boundFlumes_lt mem
  have state : s.flmState f = flmOPEN := (regs _ (by simp only [R.FLM_STAT.state]; omega) (by simp only [R.FLM_STAT.state]; omega)).symm.trans opened
  refine mem_flumesOn.2 ⟨bound ▸ mem, ch, (flmChan_congr inside regs fun other => absurd state other).symm.trans chan,
    (chans _ ?_ ?_).symm.trans en, (chans _ ?_ ?_).symm.trans link⟩ <;> simp only [R.SKW_CHAN.en, R.SKW_CHAN.link] <;> omega

/-! ## What sending leaves of a session -/

/-- A link without what sending changes. -/
def SkwLink.core (x : SkwLink) : SkwLink :=
  { x with tx := 0, replay := [], queue := [], bulk := 0, served := 0, opened := [], txBlk := 0, keys := none, newKey := none, marked := false }

theorem core_skwPut (s : State) (k typ : Nat) (body : List Nat) (front : List Byte) : SkwLink.core ((s.skwPut k typ body front).skw k) = SkwLink.core (s.skw k) := by
  unfold State.skwPut
  dsimp only
  rw [emit_skw, skw_setSkw_same]
  rfl

theorem core_skwTag (s : State) (k : Nat) : SkwLink.core ((s.skwTag k).skw k) = SkwLink.core (s.skw k) := by
  unfold State.skwTag
  dsimp only
  split
  · rfl
  · rw [core_skwPut, skw_setSkw_same]
    split <;> rfl

theorem core_skwFrame (s : State) (k typ : Nat) (body : List Nat) : SkwLink.core ((s.skwFrame k typ body).skw k) = SkwLink.core (s.skw k) := by
  have framed (front : List Byte) (mark : Bool) :
      SkwLink.core (((s.setSkw k { s.skw k with opened := (s.skw k).opened ++ [front], marked := mark }).skwPut k typ body front).skw k) =
        SkwLink.core (s.skw k) := by
    rw [core_skwPut, skw_setSkw_same]
    rfl
  unfold State.skwFrame
  dsimp only
  split
  · exact (core_skwTag ..).trans (framed ..)
  · exact framed ..

theorem core_skwPump (k n : Nat) (s : State) : SkwLink.core ((State.skwPump k n s).skw k) = SkwLink.core (s.skw k) := by
  induction n generalizing s with
  | zero => rfl
  | succ n ih =>
    have first : SkwLink.core ((if 63 ≤ (s.skw k).block ∨ (s.skw k).marked = true then s.skwTag k else s).skw k) = SkwLink.core (s.skw k) := by
      split
      · exact core_skwTag s k
      · rfl
    unfold State.skwPump
    dsimp only
    generalize (if 63 ≤ (s.skw k).block ∨ (s.skw k).marked = true then s.skwTag k else s) = u at first ⊢
    split
    · exact first
    · split
      · exact first
      · split
        · exact first
        · rw [ih, core_skwFrame, skw_setSkw_same]
          exact first

theorem core_skwSend (s : State) (k cls typ : Nat) (body : List Nat) : SkwLink.core ((s.skwSend k cls typ body).skw k) = SkwLink.core (s.skw k) := by
  unfold State.skwSend
  split
  · dsimp only
    rw [core_skwPump, skw_setSkw_same]
    rfl
  · rfl

theorem core_foldl {α : Type} {k : Nat} {f : State → α → State} (core : ∀ s a, SkwLink.core ((f s a).skw k) = SkwLink.core (s.skw k)) (l : List α) (s : State) :
    SkwLink.core ((l.foldl f s).skw k) = SkwLink.core (s.skw k) := foldl_keeps (fun s : State => SkwLink.core (s.skw k)) f core l s

theorem core_redPut (s : State) (k : Nat) (m : SkwMsg) : SkwLink.core ((s.redPut k m).skw k) = SkwLink.core (s.skw k) :=
  core_foldl (fun _ _ => core_skwSend ..) _ s

theorem core_skwLinkFrame (s : State) (k typ n : Nat) : SkwLink.core ((s.skwLinkFrame k typ n).skw k) = SkwLink.core (s.skw k) := by
  unfold State.skwLinkFrame
  rw [emit_skw, skw_setSkw_same]
  rfl

/-- A link frame leaves the link as it is, how long bulk has waited excepted. -/
theorem skwLinkFrame_skw (s : State) (k typ n : Nat) : ∃ b, (s.skwLinkFrame k typ n).skw k = { s.skw k with bulk := b } := by
  unfold State.skwLinkFrame
  rw [emit_skw, skw_setSkw_same]
  exact ⟨_, rfl⟩

theorem skwLinkFrames_skw {α : Type} (s : State) (k typ : Nat) (num : α → Nat) (l : List α) :
    ∃ b, (l.foldl (fun s i => s.skwLinkFrame k typ (num i)) s).skw k = { s.skw k with bulk := b } := by
  induction l generalizing s with
  | nil => exact ⟨_, rfl⟩
  | cons i l ih =>
    obtain ⟨b, one⟩ := skwLinkFrame_skw s k typ (num i)
    obtain ⟨c, rest⟩ := ih (s.skwLinkFrame k typ (num i))
    exact ⟨c, rest.trans (by rw [one])⟩

/-- The link once frames have been accepted. -/
theorem skwTake_skw (s : State) (k n : Nat) : ∃ b, (s.skwTake k n).skw k =
    { s.skw k with rx := ((s.skw k).rx + n) % 2 ^ 32, unack := ((s.skw k).unack + n) % 64, bulk := b } := by
  unfold State.skwTake
  dsimp only
  obtain ⟨b, same⟩ := skwLinkFrames_skw (s.setSkw k { s.skw k with rx := ((s.skw k).rx + n) % 2 ^ 32, unack := ((s.skw k).unack + n) % 64 }) k ftACK
    (fun i => ((s.skw k).rx + 64 * (i + 1) - (s.skw k).unack + 2 ^ 32 - 1) % 2 ^ 32) (List.range (((s.skw k).unack + n) / 64))
  exact ⟨b, same.trans (by rw [skw_setSkw_same])⟩

/-! ## Which flumes a lost session holds (R158) -/

theorem holdFlume_state (s : State) (f j : Nat) (h : Flume → Flume) :
    (s.holdFlume f h).flmState j = if j = f ∧ s.flmState f = flmOPEN then flmHELD else s.flmState j := by
  have above : (R.FLM_STAT.state j).a ≠ (R.FLM_STAT.above_hi f).a := by simp only [R.FLM_STAT.state, R.FLM_STAT.above_hi]; omega
  unfold State.holdFlume
  dsimp only
  by_cases opened : s.flmState f = flmOPEN
  · rw [if_pos opened, State.flmState, flmSync_get _ above]
    by_cases here : j = f
    · subst here
      exact (State.get_put_same ..).trans (show flmHELD % 2 ^ 3 = _ from (if_pos (And.intro rfl opened)).symm)
    · have stays : ¬(j = f ∧ s.flmState f = flmOPEN) := fun both => here both.left
      exact (State.get_put_other _ _ _ _ (by simp only [R.FLM_STAT.state]; omega)).trans (if_neg stays).symm
  · have stays : ¬(j = f ∧ s.flmState f = flmOPEN) := fun both => opened both.right
    rw [if_neg stays]
    simp only [if_neg opened]
    rfl

theorem holdFlumes_state (l : List Nat) (h : Flume → Flume) (s : State) (j : Nat) :
    (l.foldl (fun s f => s.holdFlume f h) s).flmState j = if j ∈ l ∧ s.flmState j = flmOPEN then flmHELD else s.flmState j := by
  induction l generalizing s with
  | nil => exact (if_neg fun both => absurd both.left List.not_mem_nil).symm
  | cons f l ih =>
    rw [List.foldl_cons, ih, holdFlume_state]
    by_cases here : j = f
    · by_cases opened : s.flmState f = flmOPEN
      · simp [here, opened, show flmHELD ≠ flmOPEN by decide]
      · simp [here, opened]
    · simp [here]

/-- A field that belongs to no open flume among those held stays. -/
theorem holdFlumes_apart (h : Flume → Flume) {g : Fld} (l : List Nat) (s : State)
    (apart : ∀ f ∈ l, s.flmState f = flmOPEN → g.a ≠ (R.FLM_STAT.state f).a ∧ g.a ≠ (R.FLM_STAT.above_hi f).a) :
    (l.foldl (fun s f => s.holdFlume f h) s).get g = s.get g := by
  induction l generalizing s with
  | nil => rfl
  | cons f l ih =>
    have first : (s.holdFlume f h).get g = s.get g := by
      unfold State.holdFlume
      dsimp only
      by_cases opened : s.flmState f = flmOPEN
      · obtain ⟨state, above⟩ := apart f List.mem_cons_self opened
        rw [if_pos opened, flmSync_get _ above, State.get_put_other _ _ _ _ state, setFlume_get]
      · rw [if_neg opened]
        exact setFlume_get ..
    rw [List.foldl_cons, ih _ fun j mem opened => ?_, first]
    refine apart j (List.mem_cons_of_mem f mem) ?_
    rw [holdFlume_state] at opened
    split at opened
    · exact absurd opened (by decide)
    · exact opened

theorem skwGone_get (s : State) (k st : Nat) {g : Fld} (other : g.a ≠ (R.SKW_LINK.state k).a) : (s.skwGone k st).get g = s.get g :=
  (State.get_put_other _ _ _ _ other).trans (get_of_unlinked (setSkw_unlinked ..) g)

theorem skwGone_flumesOn (s : State) {k : Nat} (link : k < 24) (st : Nat) : (s.skwGone k st).flumesOn k = s.flumesOn k := by
  refine flumesOn_congr (s := s) (t := s.skwGone k st) ?_ (fun _ => rfl) (fun g low high => skwGone_get s k st (g := g) ?_)
    (fun g low => skwGone_get s k st ?_) k
  · exact (boundFlumes_put _ (noFlumeState_above (by simp only [R.SKW_LINK.state]; omega)) _).trans (boundFlumes_of_regs rfl)
  · simp only [R.SKW_LINK.state]
    omega
  · simp only [R.SKW_LINK.state]
    omega

/-- What a lost session writes beside its state is of the open flumes on its link. -/
theorem skwDrop_held (s : State) {k : Nat} (link : k < 24) (st : Nat) : (s.skwDrop k st).log = s.log ∧
    (∀ f ∈ s.flumesOn k, s.flmState f = flmOPEN → (s.skwDrop k st).flmState f = flmHELD) ∧
    ∀ g : Fld, g.a ≠ (R.SKW_LINK.state k).a →
      (∀ f ∈ s.flumesOn k, s.flmState f = flmOPEN → g.a ≠ (R.FLM_STAT.state f).a ∧ g.a ≠ (R.FLM_STAT.above_hi f).a) → (s.skwDrop k st).get g = s.get g := by
  have gone : s.skwDrop k st = (s.flumesOn k).foldl (fun s f => s.holdFlume f (fun x => { x with linkDown := true, opening := true })) (s.skwGone k st) :=
    congrArg (List.foldl (fun s f => State.holdFlume s f (fun x => { x with linkDown := true, opening := true })) (s.skwGone k st))
      (skwGone_flumesOn s link st)
  have state (f : Nat) (on : f ∈ s.flumesOn k) : (s.skwGone k st).flmState f = s.flmState f := by
    have small := flumesOn_lt on
    exact skwGone_get s k st (by simp only [R.FLM_STAT.state, R.SKW_LINK.state]; omega)
  have flumes := holdFlumes_unflumed (s.flumesOn k) (fun x => { x with linkDown := true, opening := true }) (s.skwGone k st)
  rw [gone]
  refine ⟨(congrArg State.log flumes :), fun f on opened => ?_, fun g other apart => ?_⟩
  · rw [holdFlumes_state, if_pos ⟨on, (state f on).trans opened⟩]
  · rw [holdFlumes_apart _ _ _ fun f on opened => apart f on ((state f on).symm.trans opened), skwGone_get s k st other]

end Sys2Proof.Machine

namespace Sys2Proof.Machine

-- One proof at a time: threads that wait for each other hold memory.
set_option Elab.async false

/-! ## The CAPS message of a new session (R411) -/

/-- The `i`-th clear frame of a message. -/
def clearBody (m : Ctrl) (bs : List Byte) (i : Nat) : List Nat := m.sub :: ((bs.drop (248 * i)).take 248).map BitVec.toNat

def clearFrame (m : Ctrl) (bs : List Byte) (i : Nat) : SkwFrame :=
  ⟨i % 2 ^ 32, ftCTRL, clearBody m bs i, frameBytes ftCTRL (i % 2 ^ 32) (frameFront ftCTRL (clearBody m bs i))⟩

/-- The first `n` clear frames of a message. -/
def State.putFrames (s : State) (k : Nat) (m : Ctrl) (bs : List Byte) (n : Nat) : State :=
  (List.range n).foldl (fun s i => s.skwPut k ftCTRL (clearBody m bs i) (frameFront ftCTRL (clearBody m bs i))) s

theorem putFrames_succ (s : State) (k : Nat) (m : Ctrl) (bs : List Byte) (n : Nat) :
    s.putFrames k m bs (n + 1) = (s.putFrames k m bs n).skwPut k ftCTRL (clearBody m bs n) (frameFront ftCTRL (clearBody m bs n)) := by
  unfold State.putFrames
  rw [List.range_succ, List.foldl_append]
  rfl

theorem sends_putFrames (s : State) (k : Nat) (m : Ctrl) (bs : List Byte) (n : Nat) : Sends s (s.putFrames k m bs n) k :=
  sends_foldl (fun _ _ => sends_skwPut ..) _ s

/-- A session's clear frames are numbered from 0 and kept until they are acknowledged. -/
theorem putFrames_skw {s : State} {k : Nat} {x : SkwLink} (fresh : s.skw k = x) (tx : x.tx = 0) (replay : x.replay = []) (m : Ctrl) (bs : List Byte) (n : Nat) :
    (s.putFrames k m bs n).skw k = { x with tx := n % 2 ^ 32, replay := (List.range n).map (clearFrame m bs) } := by
  induction n with
  | zero =>
    subst fresh
    show s.skw k = { s.skw k with tx := 0, replay := [] }
    rw [← tx, ← replay]
  | succ n ih =>
    rw [putFrames_succ]
    unfold State.skwPut
    dsimp only
    rw [emit_skw, skw_setSkw_same, ih, List.range_succ, List.map_append, Nat.mod_add_mod]
    rfl

theorem putFrames_out {s : State} {k : Nat} {x : SkwLink} (fresh : s.skw k = x) (tx : x.tx = 0) (replay : x.replay = []) (m : Ctrl) (bs : List Byte) (n : Nat) :
    (s.putFrames k m bs n).out = (((List.range n).map (clearFrame m bs)).map fun f => frameOut k f.typ f.bytes).reverse ++ s.out := by
  induction n with
  | zero => rfl
  | succ n ih =>
    have next : ((s.putFrames k m bs n).skw k).tx = n % 2 ^ 32 := by rw [putFrames_skw fresh tx replay]
    rw [putFrames_succ]
    show frameOut k ftCTRL (frameBytes ftCTRL ((s.putFrames k m bs n).skw k).tx (frameFront ftCTRL (clearBody m bs n))) :: (s.putFrames k m bs n).out = _
    rw [next, ih, List.range_succ, List.map_append, List.map_append, List.reverse_append]
    rfl

/-- A link's bit says whether its lanes hold their lock. -/
theorem setLock_bit (s : State) (k : Nat) : bit ((s.setLock k true).get (R.CAGE_STAT.lock (k / 2))) (k % 2) = true := by
  have small := State.get_lt s (R.CAGE_STAT.lock (k / 2))
  unfold State.setLock
  dsimp only
  rw [State.get_put_same]
  generalize s.get (R.CAGE_STAT.lock (k / 2)) = v at small
  have wide : v < 4 := small
  have at_ : k % 2 < 2 := Nat.mod_lt _ (by decide)
  generalize k % 2 = j at at_ ⊢
  show bit (setBits v j 1 (b2n true) % 4) j = true
  interval_cases v <;> interval_cases j <;> decide

/-- The link's session replaced by a new one, whose nonce has been drawn. -/
def State.newSession (s : State) (k free : Nat) (x : SkwLink) : State := ({ s with free := free }).setSkw k x

theorem newSession_skw (s : State) (k free : Nat) (x : SkwLink) (j : Nat) : (s.newSession k free x).skw j = if j = k then x else s.skw j :=
  skw_setSkw ..

theorem newSession_unlinkedAll (s : State) (k free : Nat) (x : SkwLink) : (s.newSession k free x).unlinkedAll = s.unlinkedAll := rfl

theorem newSession_get (s : State) (k free : Nat) (x : SkwLink) (g : Fld) : (s.newSession k free x).get g = s.get g := get_congr rfl g

/-- The link with a fresh nonce, before its CAPS message goes. -/
def State.freshSession (s : State) (k : Nat) : State :=
  ((s.setLock k true).put (R.SKW_LINK.state k) 2).newSession k (s.free + 1) { SkwLink.empty with
    red := (s.skw k).red, locked := (s.skw k).locked, fails := (s.skw k).fails, strays := (s.skw k).strays, nonce := (Config.nonce s.free).toNat }

theorem freshSession_get (s : State) (k : Nat) {g : Fld} (state : g.a ≠ (R.SKW_LINK.state k).a) (lock : g.a ≠ (R.CAGE_STAT.lock (k / 2)).a) :
    (s.freshSession k).get g = s.get g :=
  (newSession_get ..).trans ((State.get_put_other (s.setLock k true) _ _ _ state).trans (setLock_get s lock))

theorem freshSession_state (s : State) (k : Nat) : (s.freshSession k).get (R.SKW_LINK.state k) = 2 :=
  (newSession_get ..).trans (State.get_put_same (s.setLock k true) _ _)

theorem freshSession_lock (s : State) (k : Nat) : bit ((s.freshSession k).get (R.CAGE_STAT.lock (k / 2))) (k % 2) = true := by
  rw [State.freshSession, newSession_get, State.get_put_other (s.setLock k true)]
  · exact setLock_bit s k
  · simp only [R.SKW_LINK.state, R.CAGE_STAT.lock]
    omega

theorem freshSession_unlinkedAll (s : State) (k : Nat) : (s.freshSession k).unlinkedAll = s.unlinkedAll :=
  (newSession_unlinkedAll ..).trans ((put_unlinkedAll ..).trans (setLock_unlinkedAll ..))

/-- The bytes of this end's CAPS message. -/
def State.ownCaps (s : State) (k : Nat) : List Byte :=
  capsBytes (s.get (R.SKW_LINK.ver_min k)) (s.get (R.SKW_LINK.ver_max k)) (Config.nonce s.free).toNat s.skwChain

theorem freshSession_caps (s : State) {k : Nat} (link : k < 24) : capsBytes ((s.freshSession k).get (R.SKW_LINK.ver_min k))
    ((s.freshSession k).get (R.SKW_LINK.ver_max k)) (Config.nonce s.free).toNat (s.freshSession k).skwChain = s.ownCaps k := by
  rw [freshSession_get s k, freshSession_get s k]
  · rfl
  all_goals simp only [R.SKW_LINK.ver_min, R.SKW_LINK.ver_max, R.SKW_LINK.state, R.CAGE_STAT.lock]; omega

section Trained
variable {s : State} {k : Fin 24}

theorem exec_skwLanesTrained (skw : s.skwMode k.val = true) (eth : s.ethMode k.val = false)
    (bringUp : s.get (R.SKW_LINK.state k.val) = 1 ∨ s.get (R.SKW_LINK.state k.val) = 4) :
    exec (.skwLanesTrained k) s = .next ((s.freshSession k.val).putFrames k.val .caps (s.ownCaps k.val) (ceilDiv (s.ownCaps k.val).length 248)) := by
  have fresh : exec (.skwLanesTrained k) s = .next ((s.freshSession k.val).skwClear k.val .caps (capsBytes ((s.freshSession k.val).get (R.SKW_LINK.ver_min k.val))
      ((s.freshSession k.val).get (R.SKW_LINK.ver_max k.val)) (Config.nonce s.free).toNat (s.freshSession k.val).skwChain)) :=
    congrArg Host.Outcome.next ((if_neg (by rw [eth]; decide)).trans (if_pos ⟨skw, bringUp⟩))
  rw [fresh, freshSession_caps s k.isLt]
  rfl

theorem skwLanesTrained_eth (eth : s.ethMode k.val = true) : ∃ t, exec (.skwLanesTrained k) s = .next t ∧
    bit (t.get (R.CAGE_STAT.lock (k.val / 2))) (k.val % 2) = true ∧ SameRegsBut s t [R.CAGE_STAT.lock (k.val / 2)] ∧ { t with regs := s.regs } = s :=
  ⟨s.setLock k.val true, congrArg Host.Outcome.next (if_pos eth), setLock_bit .., fun _ apart => setLock_get s (apart _ List.mem_cons_self), rfl⟩

theorem skwLanesTrained_off (eth : s.ethMode k.val = false)
    (off : s.skwMode k.val = false ∨ (s.get (R.SKW_LINK.state k.val) ≠ 1 ∧ s.get (R.SKW_LINK.state k.val) ≠ 4)) : exec (.skwLanesTrained k) s = .next s := by
  refine congrArg Host.Outcome.next ((if_neg (by rw [eth]; decide)).trans (if_neg fun on => ?_))
  obtain ⟨mode, state⟩ := on
  rcases off with other | ⟨one, four⟩
  · exact absurd (mode.symm.trans other) (by decide)
  · exact state.elim one four

theorem skwLanesTrained_clause (skw : s.skwMode k.val = true) (eth : s.ethMode k.val = false)
    (bringUp : s.get (R.SKW_LINK.state k.val) = 1 ∨ s.get (R.SKW_LINK.state k.val) = 4) {frames : List SkwFrame}
    (cut : frames = (List.range (ceilDiv (s.ownCaps k.val).length 248)).map (clearFrame .caps (s.ownCaps k.val))) :
    ∃ t, exec (.skwLanesTrained k) s = .next t ∧ t.get (R.SKW_LINK.state k.val) = 2 ∧
      bit (t.get (R.CAGE_STAT.lock (k.val / 2))) (k.val % 2) = true ∧
      t.skw k.val = { SkwLink.empty with
        red := (s.skw k.val).red, locked := (s.skw k.val).locked, fails := (s.skw k.val).fails, strays := (s.skw k.val).strays,
        nonce := (Config.nonce s.free).toNat, tx := frames.length % 2 ^ 32, replay := frames } ∧
      t.out = (frames.map (fun f => frameOut k.val f.typ f.bytes)).reverse ++ s.out ∧ t.free = s.free + 1 ∧ t.flumes = s.flumes ∧ t.log = s.log ∧
      SameRegsBut s t [R.SKW_LINK.state k.val, R.CAGE_STAT.lock (k.val / 2)] ∧ LinkFrame s t k.val ∧ SameMem s t ∧ t.seqs = s.seqs := by
  have fresh : (s.freshSession k.val).skw k.val = _ := (newSession_skw ..).trans (if_pos rfl)
  have sent := sends_putFrames (s.freshSession k.val) k.val .caps (s.ownCaps k.val) (ceilDiv (s.ownCaps k.val).length 248)
  have regs := get_of_unlinked sent.rest
  have same := (unlinkedAll_of_unlinked sent.rest).trans (freshSession_unlinkedAll s k.val)
  have count : frames.length = ceilDiv (s.ownCaps k.val).length 248 := by rw [cut, List.length_map, List.length_range]
  refine ⟨_, exec_skwLanesTrained skw eth bringUp, (regs _).trans (freshSession_state ..), ?_, ?_, ?_, (congrArg State.free sent.rest :),
    (congrArg State.flumes sent.rest :), (congrArg State.log sent.rest :), fun g other => ?_, linkFrame_of_unlinkedAll same fun j other => ?_,
    (rest_of_unlinkedAll same).1, (rest_of_unlinkedAll same).2⟩
  · rw [regs]
    exact freshSession_lock ..
  · rw [count, cut]
    exact putFrames_skw fresh rfl rfl ..
  · rw [cut]
    exact putFrames_out fresh rfl rfl ..
  · rw [regs, freshSession_get s k.val (other _ List.mem_cons_self) (other _ (List.mem_cons_of_mem _ List.mem_cons_self))]
  · exact (sent.links j other).trans ((newSession_skw ..).trans (if_neg other))

end Trained

/-! ## The peer's CAPS (R411 steps 3 to 5) -/

/-- A session that is lost with an entry in the log leaves the other registers but those of the open flumes on its link. -/
theorem skwDrop_sameRegs {s u : State} {k : Nat} (link : k < 24) (bound : u.boundFlumes = s.boundFlumes) (regs : SameRegsBut s u logRegs) (st : Nat) :
    SameRegsBut s (u.skwDrop k st) (R.SKW_LINK.state k :: logRegs ++ s.linkRegs k) := by
  have low (g : Fld) (below : g.a < 8 * 0x3e00000) : u.get g = s.get g := by
    refine regs g ?_
    simp only [logRegs, List.forall_mem_cons, R.RAS_LOGHD.newest, R.RAS_LOGHD.lost, R.RAS_STAT.new]
    exact ⟨by omega, by omega, by omega, by simp⟩
  obtain ⟨-, -, kept⟩ := skwDrop_held u link st
  intro g other
  rw [kept g (other _ List.mem_cons_self) fun f on opened => ?_, regs g fun h mem => other h (List.mem_append_left _ (List.mem_cons_of_mem _ mem))]
  have on : f ∈ s.flumesOn k := open_flumesOn opened bound (fun g _ below => low g (by omega)) (fun g _ below => low g (by omega)) on
  have mem (h : Fld) (is : h ∈ [R.FLM_STAT.state f, R.FLM_STAT.above_hi f]) : h ∈ R.SKW_LINK.state k :: logRegs ++ s.linkRegs k :=
    List.mem_append_right _ (List.mem_flatMap.2 ⟨f, on, is⟩)
  exact ⟨other _ (mem _ List.mem_cons_self), other _ (mem _ (List.mem_cons_of_mem _ List.mem_cons_self))⟩

/-- A session that bring-up refuses with a log entry. -/
def State.skwRefuse (s : State) (k code : Nat) : State := (s.raise code none (atLink k) k).skwDrop k 0

theorem raise_unlinkedAll (s : State) (code : Nat) (ctx : Option Nat) (w : Where) (detail : Nat) : (s.raise code ctx w detail).unlinkedAll = s.unlinkedAll :=
  congrArg (fun u : State => { u with links := [], flumes := [], free := 0 }) (raise_unlogged s code ctx w detail)

theorem links_of_unlogged {s t : State} (same : t.unlogged = s.unlogged) : t.links = s.links := (congrArg State.links same :)

/-- What is left when bring-up refuses a session that has accepted frames. -/
theorem skwRefuse_facts {s u : State} {k : Nat} (link : k < 24) (sent : Sends s u k) {code : Nat} (quiet : alertOf code = none) :
    LinkFrame s (u.skwRefuse k code) k ∧ SameMem s (u.skwRefuse k code) ∧ (u.skwRefuse k code).seqs = s.seqs ∧
    (u.skwRefuse k code).get (R.SKW_LINK.state k) = 0 ∧ ((u.skwRefuse k code).log.head?.map LogEntry.code) = some code ∧
    ((u.skwRefuse k code).skw k).caps = false ∧ ((u.skwRefuse k code).skw k).replay = [] ∧ ((u.skwRefuse k code).skw k).red = (s.skw k).red ∧
    SameRegsBut s (u.skwRefuse k code) (R.SKW_LINK.state k :: logRegs ++ s.linkRegs k) := by
  have links := links_of_unlogged (raise_unlogged u code none (atLink k) k)
  have same := raise_unlinkedAll u code none (atLink k) k
  have code_ := log_code_of_raise (s := u) (code := code) (ctx := none) (w := atLink k) (detail := k)
  have regs : SameRegsBut s (u.raise code none (atLink k) k) logRegs := fun g other =>
    (raise_sameRegs u quiet g other).trans (get_of_unlinked sent.rest g)
  have bound : (u.raise code none (atLink k) k).boundFlumes = s.boundFlumes :=
    (boundFlumes_raise ..).trans (boundFlumes_of_regs (regs_of_unlinked sent.rest))
  unfold State.skwRefuse
  generalize u.raise code none (atLink k) k = v at *
  have dropped := dropped_skwDrop v k 0
  have all := dropped.rest.trans (same.trans (unlinkedAll_of_unlinked sent.rest))
  have here : (v.skwDrop k 0).skw k = (u.skw k).dropped := by
    rw [skw_of_links dropped.links, skw_setSkw_same, skw_of_links links]
  refine ⟨linkFrame_of_unlinkedAll all fun j other => ?_, (rest_of_unlinkedAll all).1, (rest_of_unlinkedAll all).2, dropped.state, ?_, ?_, ?_, ?_,
    skwDrop_sameRegs link bound regs 0⟩
  · rw [skw_of_links dropped.links, skw_setSkw, if_neg other, skw_of_links links, sent.links j other]
  · rw [(skwDrop_held v link 0).1]
    exact code_
  · rw [here]
    rfl
  · rw [here]
    rfl
  · rw [here]
    exact sent.red

/-- A TAG behind no marker leaves the keys. -/
theorem skwTag_keys {s : State} {k : Nat} (unmarked : (s.skw k).marked = false) : ((s.skwTag k).skw k).keys = (s.skw k).keys := by
  unfold State.skwTag
  dsimp only
  rw [unmarked]
  split
  · rfl
  · unfold State.skwPut
    dsimp only
    rw [emit_skw, skw_setSkw_same, skw_setSkw_same]
    rfl

/-- A frame behind no marker leaves the keys. -/
theorem skwFrame_keys {s : State} {k : Nat} (unmarked : (s.skw k).marked = false) (typ : Nat) {body : List Nat} (plain : body.headD 0 ≠ Ctrl.mark.sub) :
    ((s.skwFrame k typ body).skw k).keys = (s.skw k).keys := by
  have framed (front : List Byte) : ((((s.setSkw k { s.skw k with opened := (s.skw k).opened ++ [front], marked := false }).skwPut k typ body front).skw k).keys =
        (s.skw k).keys) ∧
      (((s.setSkw k { s.skw k with opened := (s.skw k).opened ++ [front], marked := false }).skwPut k typ body front).skw k).marked = false := by
    unfold State.skwPut
    dsimp only
    rw [emit_skw, skw_setSkw_same, skw_setSkw_same]
    exact ⟨rfl, rfl⟩
  unfold State.skwFrame
  dsimp only
  rw [decide_eq_false fun mark => plain mark.2, unmarked, Bool.or_false]
  split
  · exact (skwTag_keys (framed _).2).trans (framed _).1
  · exact (framed _).1

/-- The session that CAPS make: what is known of the peer, and then the keys. -/
def State.agreed (u : State) (k v front kid nonce : Nat) (secret : List Byte) : State :=
  let b := u.puts [(R.SKW_LINK.ver k, v), (R.SKW_LINK.peer k, front)]
  b.setSkw k { b.skw k with caps := true, peer := (kid, nonce), secret := secret }

def State.keyed (u : State) (k nonce : Nat) (secret : List Byte) : State :=
  u.setSkw k { u.skw k with keys := some (u.skwKeys k secret (u.skw k).nonce nonce) }

theorem agreed_skw (u : State) (k v front kid nonce : Nat) (secret : List Byte) (j : Nat) : (u.agreed k v front kid nonce secret).skw j =
    if j = k then { u.skw k with caps := true, peer := (kid, nonce), secret := secret } else u.skw j := skw_setSkw ..

theorem agreed_get (u : State) (k v front kid nonce : Nat) (secret : List Byte) (g : Fld) :
    (u.agreed k v front kid nonce secret).get g = (u.puts [(R.SKW_LINK.ver k, v), (R.SKW_LINK.peer k, front)]).get g := get_of_unlinked (setSkw_unlinked ..) g

theorem agreed_rest (u : State) (k v front kid nonce : Nat) (secret : List Byte) : (u.agreed k v front kid nonce secret).unlinkedAll = u.unlinkedAll ∧
    (u.agreed k v front kid nonce secret).flumes = u.flumes ∧ (u.agreed k v front kid nonce secret).log = u.log ∧
    (u.agreed k v front kid nonce secret).mfg = u.mfg := ⟨rfl, rfl, rfl, rfl⟩

theorem sends_keyed (u : State) (k nonce : Nat) (secret : List Byte) : Sends u (u.keyed k nonce secret) k := by
  refine sends_setSkw u k ?_ ?_
  · exact fun _ mem => mem
  · rfl

theorem keyed_skw (u : State) (k nonce : Nat) (secret : List Byte) : (u.keyed k nonce secret).skw k =
    { u.skw k with keys := some (u.skwKeys k secret (u.skw k).nonce nonce) } := skw_setSkw_same ..

section Caps
variable {s : State} {k : Fin 24} {vmax vmin : BitVec 2} {recOk : Bool} {nonce : BitVec 256} {p : SkwPeer} {chainOk : Bool}

/-- The state in which the peer's CAPS message has been accepted. -/
def State.capsIn (s : State) (k : Nat) (p : SkwPeer) : State := s.skwTake k (capsFrames p.chain.length)

theorem sends_capsIn (s : State) (k : Nat) (p : SkwPeer) : Sends s (s.capsIn k p) k := sends_skwTake ..

theorem capsIn_skw (s : State) (k : Nat) (p : SkwPeer) : SkwLink.core ((s.capsIn k p).skw k) =
    SkwLink.core { s.skw k with rx := ((s.capsIn k p).skw k).rx, unack := ((s.capsIn k p).skw k).unack } ∧
    ((s.capsIn k p).skw k).marked = (s.skw k).marked := by
  obtain ⟨b, same⟩ := skwTake_skw s k (capsFrames p.chain.length)
  unfold State.capsIn
  rw [same]
  exact ⟨rfl, rfl⟩

theorem exec_skwCaps_unfit (state : s.get (R.SKW_LINK.state k.val) = 2) (caps : (s.skw k.val).caps = false)
    (unfit : ¬(max vmin.toNat (s.get (R.SKW_LINK.ver_min k.val)) ≤ min vmax.toNat (s.get (R.SKW_LINK.ver_max k.val)) ∧ recOk = true)) :
    exec (.skwCaps k vmax vmin recOk nonce p chainOk) s = .next ((s.capsIn k.val p).skwRefuse k.val E.LINK_VERSION) := by
  have first : ¬(s.get (R.SKW_LINK.state k.val) ≠ 2 ∨ (s.skw k.val).caps = true) := by rw [state, caps]; decide
  have kept := get_of_unlinked (sends_capsIn s k.val p).rest (R.SKW_LINK.ver_min k.val)
  have no : min vmax.toNat (s.get (R.SKW_LINK.ver_max k.val)) < max vmin.toNat ((s.capsIn k.val p).get (R.SKW_LINK.ver_min k.val)) ∨ (!recOk) = true := by
    rw [kept, Bool.not_eq_true']
    rcases not_and_or.1 unfit with below | bad
    · exact .inl (not_le.1 below)
    · exact .inr (Bool.eq_false_iff.2 bad)
  exact congrArg Host.Outcome.next ((if_neg first).trans (if_pos no))

theorem skwCaps_fit {m M r n : Nat} (fits : m ≤ M ∧ recOk = true) (same : r = n) (is : m = max vmin.toNat n) : ¬(M < max vmin.toNat r ∨ (!recOk) = true) := by
  obtain ⟨below, ok⟩ := fits
  rw [same, ← is, ok]
  simpa using below

theorem exec_skwCaps_unknown (state : s.get (R.SKW_LINK.state k.val) = 2) (caps : (s.skw k.val).caps = false)
    (fits : max vmin.toNat (s.get (R.SKW_LINK.ver_min k.val)) ≤ min vmax.toNat (s.get (R.SKW_LINK.ver_max k.val)) ∧ recOk = true)
    (unknown : ¬(chainOk = true ∧ (s.get (R.SKW_LINK.pin k.val) = 0 ∨ s.get (R.SKW_LINK.pin k.val) = leNat ((kidOf p.key).take 8))) ∨
      ecdh s.mfg.skwKey p.key = none) :
    exec (.skwCaps k vmax vmin recOk nonce p chainOk) s = .next ((s.capsIn k.val p).skwRefuse k.val E.LINK_AUTH) := by
  have first : ¬(s.get (R.SKW_LINK.state k.val) ≠ 2 ∨ (s.skw k.val).caps = true) := by rw [state, caps]; decide
  have same := get_of_unlinked (sends_capsIn s k.val p).rest (R.SKW_LINK.ver_min k.val)
  have mfg : (s.capsIn k.val p).mfg = s.mfg := (congrArg State.mfg (sends_capsIn s k.val p).rest :)
  refine congrArg Host.Outcome.next ((if_neg first).trans ((if_neg (skwCaps_fit fits same rfl)).trans ?_))
  show (match ecdh (s.capsIn k.val p).mfg.skwKey p.key, chainOk && decide (s.get (R.SKW_LINK.pin k.val) = 0 ∨
      s.get (R.SKW_LINK.pin k.val) = leNat ((kidOf p.key).take 8)) with
    | some secret, true => _
    | _, _ => (s.capsIn k.val p).skwRefuse k.val E.LINK_AUTH) = _
  rw [mfg]
  rcases unknown with no | none_
  · rw [show (chainOk && decide _) = false by rw [Bool.eq_false_iff]; simpa using no]
    cases ecdh s.mfg.skwKey p.key <;> rfl
  · rw [none_]

/-- The state that the peer's accepted CAPS message leaves. -/
def State.capsAgreed (s : State) (k : Nat) (v : Nat) (nonce : Nat) (p : SkwPeer) (secret : List Byte) : State :=
  (((s.capsIn k p).agreed k v (leNat ((kidOf p.key).take 8)) (beNat (kidOf p.key)) nonce secret).keyed k nonce secret).skwFrame k ftCTRL [Ctrl.keyed.sub]

theorem exec_skwCaps_known (state : s.get (R.SKW_LINK.state k.val) = 2) (caps : (s.skw k.val).caps = false)
    (fits : max vmin.toNat (s.get (R.SKW_LINK.ver_min k.val)) ≤ min vmax.toNat (s.get (R.SKW_LINK.ver_max k.val)) ∧ recOk = true)
    (known : chainOk = true ∧ (s.get (R.SKW_LINK.pin k.val) = 0 ∨ s.get (R.SKW_LINK.pin k.val) = leNat ((kidOf p.key).take 8))) {secret : List Byte}
    (shared : ecdh s.mfg.skwKey p.key = some secret) : exec (.skwCaps k vmax vmin recOk nonce p chainOk) s =
      .next (s.capsAgreed k.val (min vmax.toNat (s.get (R.SKW_LINK.ver_max k.val))) nonce.toNat p secret) := by
  have first : ¬(s.get (R.SKW_LINK.state k.val) ≠ 2 ∨ (s.skw k.val).caps = true) := by rw [state, caps]; decide
  have same := get_of_unlinked (sends_capsIn s k.val p).rest (R.SKW_LINK.ver_min k.val)
  have mfg : (s.capsIn k.val p).mfg = s.mfg := (congrArg State.mfg (sends_capsIn s k.val p).rest :)
  refine congrArg Host.Outcome.next ((if_neg first).trans ((if_neg (skwCaps_fit fits same rfl)).trans ?_))
  show (match ecdh (s.capsIn k.val p).mfg.skwKey p.key, chainOk && decide (s.get (R.SKW_LINK.pin k.val) = 0 ∨
      s.get (R.SKW_LINK.pin k.val) = leNat ((kidOf p.key).take 8)) with
    | some secret, true => s.capsAgreed k.val (min vmax.toNat (s.get (R.SKW_LINK.ver_max k.val))) nonce.toNat p secret
    | _, _ => _) = _
  rw [mfg, shared, known.1, decide_eq_true known.2]
  rfl

/-- A session whose peer is known has its keys, and waits for KEYED. -/
theorem capsAgreed_facts (s : State) (k v nonce : Nat) (p : SkwPeer) (secret : List Byte) :
    LinkFrame s (s.capsAgreed k v nonce p secret) k ∧ SameMem s (s.capsAgreed k v nonce p secret) ∧ (s.capsAgreed k v nonce p secret).seqs = s.seqs ∧
    ((s.capsAgreed k v nonce p secret).skw k).caps = true ∧ (s.capsAgreed k v nonce p secret).flumes = s.flumes ∧
    (s.capsAgreed k v nonce p secret).log = s.log ∧ (∀ g, (s.capsAgreed k v nonce p secret).get g =
      (s.puts [(R.SKW_LINK.ver k, v), (R.SKW_LINK.peer k, leNat ((kidOf p.key).take 8))]).get g) ∧
    ((s.skw k).marked = false → ((s.capsAgreed k v nonce p secret).skw k).keys =
      some (((s.capsIn k p).agreed k v (leNat ((kidOf p.key).take 8)) (beNat (kidOf p.key)) nonce secret).skwKeys k secret (s.skw k).nonce nonce)) := by
  obtain ⟨core, marked⟩ := capsIn_skw s k p
  have before := sends_capsIn s k p
  unfold State.capsAgreed
  generalize s.capsIn k p = u at *
  obtain ⟨rest, flumes, log, -⟩ := agreed_rest u k v (leNat ((kidOf p.key).take 8)) (beNat (kidOf p.key)) nonce secret
  have skw := agreed_skw u k v (leNat ((kidOf p.key).take 8)) (beNat (kidOf p.key)) nonce secret
  have get := agreed_get u k v (leNat ((kidOf p.key).take 8)) (beNat (kidOf p.key)) nonce secret
  generalize u.agreed k v (leNat ((kidOf p.key).take 8)) (beNat (kidOf p.key)) nonce secret = w at *
  have here := (skw k).trans (if_pos rfl)
  have sent := (sends_keyed w k nonce secret).trans (sends_skwFrame _ k ftCTRL [Ctrl.keyed.sub])
  have framed := core_skwFrame (w.keyed k nonce secret) k ftCTRL [Ctrl.keyed.sub]
  have keys (unmarked : (s.skw k).marked = false) := skwFrame_keys (s := w.keyed k nonce secret) (k := k)
    (by rw [keyed_skw, here]; exact marked.trans unmarked) ftCTRL (body := [Ctrl.keyed.sub]) (by decide)
  have all := (unlinkedAll_of_unlinked sent.rest).trans (rest.trans (unlinkedAll_of_unlinked before.rest))
  have nonce_ : (u.skw k).nonce = (s.skw k).nonce := (congrArg SkwLink.nonce core :)
  refine ⟨linkFrame_of_unlinkedAll all fun j other => ?_, (rest_of_unlinkedAll all).1, (rest_of_unlinkedAll all).2, ?_,
    (congrArg State.flumes sent.rest :).trans (flumes.trans (congrArg State.flumes before.rest :)),
    (congrArg State.log sent.rest :).trans (log.trans (congrArg State.log before.rest :)), fun g => ?_, fun unmarked => ?_⟩
  · rw [sent.links j other, skw, if_neg other, before.links j other]
  · have caps : (((w.keyed k nonce secret).skwFrame k ftCTRL [Ctrl.keyed.sub]).skw k).caps = ((w.keyed k nonce secret).skw k).caps :=
      (congrArg SkwLink.caps framed :)
    rw [caps, keyed_skw, here]
  · rw [get_of_unlinked sent.rest, get]
    exact get_congr (congrArg (fun u : State => (u.puts [(R.SKW_LINK.ver k, v), (R.SKW_LINK.peer k, leNat ((kidOf p.key).take 8))]).regs) before.rest :) g
  · rw [keys unmarked, keyed_skw, here]
    exact congrArg (fun n => some (w.skwKeys k secret n nonce)) nonce_

/-- The two keys of a session, by the order of the two kids. -/
def sessionKeys (own kid mine theirs : Nat) (secret : List Byte) : List Byte × List Byte :=
  let low := decide (own < kid)
  let salt := if low then leBytes 32 mine ++ leBytes 32 theirs else leBytes 32 theirs ++ leBytes 32 mine
  let ks := hkdf384 salt secret (ascii "Caerlen skidway v3") 64
  if low then (ks.take 32, ks.drop 32) else (ks.drop 32, ks.take 32)

theorem skwKeys_eq (s : State) (k : Nat) (secret : List Byte) (mine theirs : Nat) :
    s.skwKeys k secret mine theirs = sessionKeys s.skwKid (s.skw k).peer.1 mine theirs secret := rfl

theorem skwKid_of_mfg {s t : State} (same : t.mfg = s.mfg) : t.skwKid = s.skwKid := by rw [State.skwKid, same, State.skwKid]

theorem agreed_skwKeys {s : State} {k : Nat} {p : SkwPeer} (v front kid nonce : Nat) (secret : List Byte) (mine theirs : Nat) :
    ((s.capsIn k p).agreed k v front kid nonce secret).skwKeys k secret mine theirs = sessionKeys s.skwKid kid mine theirs secret := by
  have own : ((s.capsIn k p).agreed k v front kid nonce secret).skwKid = s.skwKid := skwKid_of_mfg ((agreed_rest (s.capsIn k p) k v front kid nonce secret).2.2.2.trans (congrArg State.mfg (sends_capsIn s k p).rest :))
  have here := (agreed_skw (s.capsIn k p) k v front kid nonce secret k).trans (if_pos rfl)
  rw [skwKeys_eq, own, here]

end Caps

theorem leNat_lt (l : List Byte) : leNat l < 256 ^ l.length := by
  induction l with
  | nil => exact Nat.one_pos
  | cons b l ih =>
    have small := b.isLt
    show b.toNat + 256 * leNat l < 256 ^ (l.length + 1)
    rw [Nat.pow_succ]
    omega

theorem leNat_take_lt (l : List Byte) : leNat (l.take 8) < 2 ^ 64 := by
  refine lt_of_lt_of_le (leNat_lt _) ?_
  show 256 ^ (l.take 8).length ≤ 256 ^ 8
  exact Nat.pow_le_pow_right (by decide) (List.length_take_le 8 l)

theorem verPeer_nodup (k : Nat) {v w : Nat} : ([(R.SKW_LINK.ver k, v), (R.SKW_LINK.peer k, w)].map fun p => p.1.a).Nodup := by
  simp only [List.map_cons, List.map_nil, List.nodup_cons, List.mem_cons, List.not_mem_nil, R.SKW_LINK.ver, R.SKW_LINK.peer]
  simp
  omega

theorem skwCaps_clause {s : State} {k : Fin 24} (state : s.get (R.SKW_LINK.state k.val) = 2) (caps : (s.skw k.val).caps = false)
    (vmax vmin : BitVec 2) (recOk : Bool) (nonce : BitVec 256) (p : SkwPeer) (chainOk : Bool) {v front : Nat} {fits known : Prop}
    (top : v = min vmax.toNat (s.get (R.SKW_LINK.ver_max k.val))) (kid : front = leNat ((kidOf p.key).take 8))
    (fit : fits ↔ (max vmin.toNat (s.get (R.SKW_LINK.ver_min k.val)) ≤ v ∧ recOk = true))
    (known_ : known ↔ (chainOk = true ∧ (s.get (R.SKW_LINK.pin k.val) = 0 ∨ s.get (R.SKW_LINK.pin k.val) = front))) :
    ∃ t, exec (.skwCaps k vmax vmin recOk nonce p chainOk) s = .next t ∧ LinkFrame s t k.val ∧ SameMem s t ∧ t.seqs = s.seqs ∧
      (∀ secret, fits → known → ecdh s.mfg.skwKey p.key = some secret → (t.skw k.val).caps = true ∧ t.get (R.SKW_LINK.ver k.val) = v ∧
        t.get (R.SKW_LINK.peer k.val) = front ∧ t.get (R.SKW_LINK.state k.val) = 2 ∧ t.flumes = s.flumes ∧ t.log = s.log ∧
        SameRegsBut s t [R.SKW_LINK.ver k.val, R.SKW_LINK.peer k.val] ∧
        ((s.skw k.val).marked = false → (t.skw k.val).keys =
          some (sessionKeys s.skwKid (beNat (kidOf p.key)) (s.skw k.val).nonce nonce.toNat secret))) ∧
      (¬fits → t.get (R.SKW_LINK.state k.val) = 0 ∧ (t.log.head?.map LogEntry.code) = some E.LINK_VERSION) ∧
      (fits → (¬known ∨ ecdh s.mfg.skwKey p.key = none) → t.get (R.SKW_LINK.state k.val) = 0 ∧ (t.log.head?.map LogEntry.code) = some E.LINK_AUTH) ∧
      ((¬fits ∨ ¬known ∨ ecdh s.mfg.skwKey p.key = none) → (t.skw k.val).caps = false ∧ (t.skw k.val).replay = [] ∧
        (t.skw k.val).red = (s.skw k.val).red ∧ SameRegsBut s t (R.SKW_LINK.state k.val :: logRegs ++ s.linkRegs k.val)) := by
  subst top kid
  by_cases fits_ : fits
  · by_cases good : known ∧ ∃ secret, ecdh s.mfg.skwKey p.key = some secret
    · obtain ⟨isKnown, secret, shared⟩ := good
      obtain ⟨frame, mem, seqs, done, flumes, log, read, keys⟩ := capsAgreed_facts s k.val (min vmax.toNat (s.get (R.SKW_LINK.ver_max k.val))) nonce.toNat p secret
      refine ⟨_, exec_skwCaps_known state caps (fit.1 fits_) (known_.1 isKnown) shared, frame, mem, seqs, fun other _ _ same => ?_,
        fun no => absurd fits_ no, fun _ no => ?_, fun no => ?_⟩
      · cases shared.symm.trans same
        refine ⟨done, ?_, ?_, ?_, flumes, log, fun g other => ?_, fun unmarked => ?_⟩
        · rw [read, puts_get_of_nodup s (verPeer_nodup k.val) (p := (R.SKW_LINK.ver k.val, _)) List.mem_cons_self]
          exact Nat.mod_eq_of_lt (lt_of_le_of_lt (min_le_left _ _) vmax.isLt)
        · rw [read, puts_get_of_nodup s (verPeer_nodup k.val) (p := (R.SKW_LINK.peer k.val, _)) (List.mem_cons_of_mem _ List.mem_cons_self)]
          exact Nat.mod_eq_of_lt (leNat_take_lt _)
        · rw [read, puts_get_other s, state]
          simp only [List.forall_mem_cons, R.SKW_LINK.state, R.SKW_LINK.ver, R.SKW_LINK.peer]
          exact ⟨by omega, by omega, by simp⟩
        · rw [read, puts_get_other s]
          obtain ⟨ver, peer⟩ := List.forall_mem_cons.1 other
          exact List.forall_mem_cons.2 ⟨ver, List.forall_mem_cons.2 ⟨peer _ List.mem_cons_self, List.forall_mem_nil _⟩⟩
        · rw [keys unmarked, agreed_skwKeys]
      · exact no.elim (fun no => absurd isKnown no) fun none_ => absurd (shared.symm.trans none_) (Option.some_ne_none _)
      · exact (no.elim (fun no => absurd fits_ no) fun no => no.elim (fun no => absurd isKnown no) fun none_ => absurd (shared.symm.trans none_) (Option.some_ne_none _))
    · have bad : ¬known ∨ ecdh s.mfg.skwKey p.key = none := by
        by_cases isKnown : known
        · exact .inr (Option.eq_none_iff_forall_ne_some.2 fun secret shared => good ⟨isKnown, secret, shared⟩)
        · exact .inl isKnown
      obtain ⟨frame, mem, seqs, off, logged, gone, replay, red, regs⟩ := skwRefuse_facts k.isLt (sends_capsIn s k.val p) (code := E.LINK_AUTH) (by decide)
      refine ⟨_, exec_skwCaps_unknown state caps (fit.1 fits_) (bad.imp_left (mt known_.2)), frame, mem, seqs, fun secret _ isKnown shared => ?_,
        fun no => absurd fits_ no, fun _ _ => ⟨off, logged⟩, fun _ => ⟨gone, replay, red, regs⟩⟩
      exact absurd ⟨isKnown, secret, shared⟩ good
  · obtain ⟨frame, mem, seqs, off, logged, gone, replay, red, regs⟩ := skwRefuse_facts k.isLt (sends_capsIn s k.val p) (code := E.LINK_VERSION) (by decide)
    exact ⟨_, exec_skwCaps_unfit state caps (mt fit.2 fits_), frame, mem, seqs, fun _ yes => absurd yes fits_, fun _ => ⟨off, logged⟩,
      fun yes => absurd yes fits_, fun _ => ⟨gone, replay, red, regs⟩⟩

theorem skwCaps_off {s : State} {k : Fin 24} (off : s.get (R.SKW_LINK.state k.val) ≠ 2 ∨ (s.skw k.val).caps = true) (vmax vmin : BitVec 2) (recOk : Bool)
    (nonce : BitVec 256) (p : SkwPeer) (chainOk : Bool) : exec (.skwCaps k vmax vmin recOk nonce p chainOk) s = .next s :=
  congrArg Host.Outcome.next (if_pos off)

end Sys2Proof.Machine

namespace Sys2Proof.Machine

-- One proof at a time: threads that wait for each other hold memory.
set_option Elab.async false

/-! ## KEYED: every channel performs its open exchange (R148, R404) -/

/-- A flume whose link is up. -/
def State.linkedUp (s : State) (f : Nat) : State := s.setFlume f { s.flume f with linkDown := false }

/-- What a flume tells its other end when its link is up. -/
def State.tellUp (s : State) (f : Nat) : State :=
  if s.flmState f = flmCLOSING then
    match s.flmChan f with
    | some ch => s.skwCtrl (s.get (R.SKW_CHAN.link ch)) .close [s.get (R.SKW_CHAN.peer ch)]
    | none => s
  else if s.flmState f = flmZEROING then s
  else s.openMsg f .openReq

theorem reopen_eq (s : State) (f : Nat) : s.reopen f = (s.linkedUp f).tellUp f := rfl

/-- A flume tells its other end over its link, or tells nothing. -/
theorem tellUp_cases {s : State} {f ch : Nat} (chan : s.flmChan f = some ch) :
    s.tellUp f = s ∨ ∃ cls typ body, s.tellUp f = s.skwSend (s.get (R.SKW_CHAN.link ch)) cls typ body := by
  unfold State.tellUp
  by_cases closing : s.flmState f = flmCLOSING
  · rw [if_pos closing, chan]
    exact .inr ⟨_, _, _, rfl⟩
  · rw [if_neg closing]
    by_cases zeroing : s.flmState f = flmZEROING
    · exact .inl (if_pos zeroing)
    · rw [if_neg zeroing]
      rw [State.flmChan, if_neg (not_or.2 ⟨closing, zeroing⟩)] at chan
      split at chan
      · cases chan
        exact .inr ⟨_, _, _, rfl⟩
      · cases chan

/-- What the open exchanges of flumes on a link leave: the link but for what has been sent, and of each flume all but whether its link is down. -/
structure Reopened (s t : State) (k : Nat) (l : List Nat) : Prop where
  rest   : t.unlinkedAll = s.unlinkedAll
  regs   : t.regs = s.regs
  log    : t.log = s.log
  links  : ∀ j, j ≠ k → t.skw j = s.skw j
  core   : SkwLink.core (t.skw k) = SkwLink.core (s.skw k)
  flumes : ∀ f, t.flume f = if f ∈ l then { s.flume f with linkDown := false } else s.flume f

theorem linkedUp_flume (s : State) (f j : Nat) : (s.linkedUp f).flume j = if j = f then { s.flume f with linkDown := false } else s.flume j :=
  State.flume_setFlume ..

theorem linkedUp_get (s : State) (f : Nat) (g : Fld) : (s.linkedUp f).get g = s.get g := setFlume_get ..

theorem linkedUp_was (s : State) (f j : Nat) : ((s.linkedUp f).flume j).was = (s.flume j).was := by
  rw [linkedUp_flume]
  split
  · next same => rw [same]
  · rfl

theorem reopened_linkedUp (s : State) (k f : Nat) : Reopened s (s.linkedUp f) k [f] := by
  refine ⟨rfl, rfl, rfl, fun _ _ => rfl, rfl, fun j => ?_⟩
  rw [linkedUp_flume]
  by_cases same : j = f
  · rw [if_pos same, if_pos (List.mem_singleton.2 same), same]
  · rw [if_neg same, if_neg (mt List.mem_singleton.1 same)]

theorem Reopened.send {s t : State} {k : Nat} {l : List Nat} (reopened : Reopened s t k l) (cls typ : Nat) (body : List Nat) :
    Reopened s (t.skwSend k cls typ body) k l := by
  have sent := sends_skwSend t k cls typ body
  obtain ⟨rest, regs, log, links, core, flumes⟩ := reopened
  exact ⟨(unlinkedAll_of_unlinked sent.rest).trans rest, (regs_of_unlinked sent.rest).trans regs, (congrArg State.log sent.rest :).trans log,
    fun j other => (sent.links j other).trans (links j other), (core_skwSend ..).trans core,
    fun f => (congrArg (fun u : State => u.flume f) sent.rest :).trans (flumes f)⟩

theorem reopened_reopen {s : State} {k f : Nat} (on : f ∈ s.flumesOn k) : Reopened s (s.reopen f) k [f] := by
  obtain ⟨mem, ch, chan, -, link⟩ := mem_flumesOn.1 on
  have same : (s.linkedUp f).flmChan f = some ch :=
    chan ▸ flmChan_congr (boundFlumes_lt mem) (fun g _ _ => linkedUp_get s f g) fun _ => linkedUp_was s f f
  have link_ : (s.linkedUp f).get (R.SKW_CHAN.link ch) = k := (linkedUp_get ..).trans link
  rw [reopen_eq]
  rcases tellUp_cases same with silent | ⟨cls, typ, body, sent⟩
  · rw [silent]
    exact reopened_linkedUp s k f
  · rw [sent, link_]
    exact (reopened_linkedUp s k f).send cls typ body

theorem Reopened.flumesOn {s t : State} {k : Nat} {l : List Nat} (reopened : Reopened s t k l) : t.flumesOn k = s.flumesOn k := by
  refine flumesOn_congr (boundFlumes_of_regs reopened.regs) (fun f => ?_) (fun g _ _ => get_congr reopened.regs g) (fun g _ => get_congr reopened.regs g) k
  rw [reopened.flumes]
  split <;> rfl

theorem Reopened.trans {s t u : State} {k : Nat} {l m : List Nat} (first : Reopened s t k l) (second : Reopened t u k m) : Reopened s u k (l ++ m) := by
  refine ⟨second.rest.trans first.rest, second.regs.trans first.regs, second.log.trans first.log,
    fun j other => (second.links j other).trans (first.links j other), second.core.trans first.core, fun f => ?_⟩
  rw [second.flumes, first.flumes]
  by_cases here : f ∈ m
  · rw [if_pos here, if_pos (List.mem_append_right l here)]
    split <;> rfl
  · simp only [List.mem_append, here, or_false, if_false]

theorem reopened_foldl {k : Nat} (l : List Nat) {s : State} (on : ∀ f ∈ l, f ∈ s.flumesOn k) : Reopened s (l.foldl State.reopen s) k l := by
  induction l generalizing s with
  | nil => exact ⟨rfl, rfl, rfl, fun _ _ => rfl, rfl, fun f => (if_neg List.not_mem_nil).symm⟩
  | cons f l ih =>
    have first := reopened_reopen (on f List.mem_cons_self)
    exact first.trans (ih fun j mem => first.flumesOn ▸ on j (List.mem_cons_of_mem f mem))

section Keyed
variable {s : State} {k : Fin 24}

/-- The link up, before its channels open. -/
def State.upLink (s : State) (k : Nat) : State := (s.skwTake k 1).put (R.SKW_LINK.state k) 3

theorem upLink_get (s : State) (k : Nat) {g : Fld} (other : g.a ≠ (R.SKW_LINK.state k).a) : (s.upLink k).get g = s.get g :=
  (State.get_put_other _ _ _ _ other).trans (get_of_unlinked (sends_skwTake s k 1).rest g)

theorem upLink_flumesOn (s : State) {k : Nat} (link : k < 24) : (s.upLink k).flumesOn k = s.flumesOn k := by
  have sent := (sends_skwTake s k 1).rest
  refine flumesOn_congr (s := s) (t := s.upLink k) ?_ (fun f => (congrArg (fun u : State => (u.flume f).was) sent :))
    (fun g low high => upLink_get s k ?_) (fun g low => upLink_get s k ?_) k
  · exact (boundFlumes_put _ (noFlumeState_above (by simp only [R.SKW_LINK.state]; omega)) _).trans (boundFlumes_of_regs (regs_of_unlinked sent))
  · simp only [R.SKW_LINK.state]
    omega
  · simp only [R.SKW_LINK.state]
    omega

theorem exec_skwKeyed (state : s.get (R.SKW_LINK.state k.val) = 2) (caps : (s.skw k.val).caps = true) : exec (.skwKeyed k) s =
    .next (let u := (s.flumesOn k.val).foldl State.reopen (s.upLink k.val)
      (u.skw k.val).red.foldl (fun s m => s.redPut k.val m) u) := by
  have on : ¬(s.get (R.SKW_LINK.state k.val) ≠ 2 ∨ (s.skw k.val).caps = false) := by rw [state, caps]; decide
  rw [← upLink_flumesOn s k.isLt]
  exact congrArg Host.Outcome.next (if_neg on)

theorem skwKeyed_clause (state : s.get (R.SKW_LINK.state k.val) = 2) (caps : (s.skw k.val).caps = true) :
    ∃ t, exec (.skwKeyed k) s = .next t ∧ t.get (R.SKW_LINK.state k.val) = 3 ∧ (t.skw k.val).rx = ((s.skw k.val).rx + 1) % 2 ^ 32 ∧
      (t.skw k.val).red = (s.skw k.val).red ∧ (∀ f, t.flume f = if f ∈ s.flumesOn k.val then { s.flume f with linkDown := false } else s.flume f) ∧
      t.log = s.log ∧ SameRegsBut s t [R.SKW_LINK.state k.val] ∧ LinkFrame s t k.val ∧ SameMem s t ∧ t.seqs = s.seqs := by
  have before := sends_skwTake s k.val 1
  obtain ⟨b, took⟩ := skwTake_skw s k.val 1
  have reopened := reopened_foldl (s.flumesOn k.val) (s := s.upLink k.val) (k := k.val) fun f mem => (upLink_flumesOn s k.isLt).symm ▸ mem
  have up (j : Nat) : (s.upLink k.val).skw j = (s.skwTake k.val 1).skw j := rfl
  have upRest : (s.upLink k.val).unlinkedAll = s.unlinkedAll := (put_unlinkedAll ..).trans (unlinkedAll_of_unlinked before.rest)
  have upLog : (s.upLink k.val).log = s.log := (congrArg State.log before.rest :)
  have upFlume (f : Nat) : (s.upLink k.val).flume f = s.flume f := (congrArg (fun u : State => u.flume f) before.rest :)
  have upState : (s.upLink k.val).get (R.SKW_LINK.state k.val) = 3 := State.get_put_same ..
  have upGet (g : Fld) := upLink_get s k.val (g := g)
  have run := exec_skwKeyed state caps
  dsimp only at run
  generalize s.upLink k.val = u at *
  generalize (s.flumesOn k.val).foldl State.reopen u = v at *
  have sent : Sends v ((v.skw k.val).red.foldl (fun s m => s.redPut k.val m) v) k.val := sends_foldl (fun _ _ => sends_redPut ..) _ v
  have core : SkwLink.core (((v.skw k.val).red.foldl (fun s m => s.redPut k.val m) v).skw k.val) = SkwLink.core (s.skwTake k.val 1 |>.skw k.val) :=
    (core_foldl (fun _ _ => core_redPut ..) _ v).trans (reopened.core.trans (congrArg SkwLink.core (up _)))
  generalize (v.skw k.val).red.foldl (fun s m => s.redPut k.val m) v = t at *
  have all := (unlinkedAll_of_unlinked sent.rest).trans (reopened.rest.trans upRest)
  have regs (g : Fld) : t.get g = u.get g := (get_of_unlinked sent.rest g).trans (get_congr reopened.regs g)
  rw [took] at core
  refine ⟨t, run, (regs _).trans upState, (congrArg SkwLink.rx core :), (congrArg SkwLink.red core :), fun f => ?_,
    (congrArg State.log sent.rest :).trans (reopened.log.trans upLog), fun g other => (regs g).trans (upGet g (other _ List.mem_cons_self)),
    linkFrame_of_unlinkedAll all fun j other => ?_, (rest_of_unlinkedAll all).1, (rest_of_unlinkedAll all).2⟩
  · rw [show t.flume f = v.flume f from (congrArg (fun u : State => u.flume f) sent.rest :), reopened.flumes, upFlume]
  · rw [sent.links j other, reopened.links j other, up, before.links j other]

theorem skwKeyed_off (off : s.get (R.SKW_LINK.state k.val) ≠ 2 ∨ (s.skw k.val).caps = false) : exec (.skwKeyed k) s = .next s :=
  congrArg Host.Outcome.next (if_pos off)

/-! ## Time-outs and retries (R404) -/

theorem skwSessionTimeout_clause (state : s.get (R.SKW_LINK.state k.val) = 1 ∨ s.get (R.SKW_LINK.state k.val) = 2 ∨ s.get (R.SKW_LINK.state k.val) = 4) :
    ∃ t, exec (.skwSessionTimeout k) s = .next t ∧ t.get (R.SKW_LINK.state k.val) = 5 ∧ SameMem s t ∧
      (t.log.head?.map LogEntry.code) = some E.LINK_DOWN ∧ t.skw k.val = (s.skw k.val).dropped ∧
      (∀ f ∈ s.flumesOn k.val, s.flmState f = flmOPEN → t.flmState f = flmHELD) ∧
      SameRegsBut s t (R.SKW_LINK.state k.val :: logRegs ++ s.linkRegs k.val) ∧ LinkFrame s t k.val ∧ t.seqs = s.seqs := by
  have regs := skwDrop_sameRegs k.isLt (s := s) rfl (fun _ _ => rfl) 5
  have dropped := dropped_skwDrop s k.val 5
  obtain ⟨-, held, -⟩ := skwDrop_held s k.isLt 5
  refine ⟨(s.skwDrop k.val 5).raise E.LINK_DOWN none (atLink k.val) k.val, congrArg Host.Outcome.next (if_pos state), ?_⟩
  generalize s.skwDrop k.val 5 = u at *
  have links := links_of_unlogged (raise_unlogged u E.LINK_DOWN none (atLink k.val) k.val)
  have all := (raise_unlinkedAll u E.LINK_DOWN none (atLink k.val) k.val).trans dropped.rest
  have bound : (R.SKW_LINK.state k.val).a < 8 * 0x3e00000 := by
    simp only [R.SKW_LINK.state]
    omega
  refine ⟨(raise_get u bound).trans dropped.state, (rest_of_unlinkedAll all).1, log_code_of_raise, ?_, fun f on opened => ?_, fun g other => ?_,
    linkFrame_of_unlinkedAll all fun j other => ?_, (rest_of_unlinkedAll all).2⟩
  · rw [skw_of_links links, skw_of_links dropped.links, skw_setSkw_same]
  · have small := flumesOn_lt on
    exact (raise_get u (by simp only [R.FLM_STAT.state]; omega)).trans (held f on opened)
  · rw [raise_sameRegs u (by decide) g fun h mem => other h (List.mem_append_left _ (List.mem_cons_of_mem _ mem)), regs g other]
  · rw [skw_of_links links, skw_of_links dropped.links, skw_setSkw, if_neg other]

theorem skwSessionTimeout_off (off : s.get (R.SKW_LINK.state k.val) = 0 ∨ s.get (R.SKW_LINK.state k.val) = 3 ∨ 4 < s.get (R.SKW_LINK.state k.val)) :
    exec (.skwSessionTimeout k) s = .next s :=
  congrArg Host.Outcome.next (if_neg (by omega))

theorem exec_skwBringupRetry (state : s.get (R.SKW_LINK.state k.val) = 5) (free : (s.skw k.val).locked = false) :
    exec (.skwBringupRetry k) s = .next (s.put (R.SKW_LINK.state k.val) 1) := congrArg Host.Outcome.next (if_pos ⟨state, free⟩)

theorem skwBringupRetry_off (off : s.get (R.SKW_LINK.state k.val) ≠ 5 ∨ (s.skw k.val).locked = true) : exec (.skwBringupRetry k) s = .next s := by
  refine congrArg Host.Outcome.next (if_neg fun on => ?_)
  obtain ⟨state, free⟩ := on
  exact off.elim (fun no => no state) fun locked => absurd (locked.symm.trans free) (by decide)

end Keyed

/-! ## The versions of a link (R411, R412, R426) -/

/-- A reduction route over the link. -/
def State.skwRouted (s : State) (k : Nat) : Bool := (List.range 64).any (fun c => s.flag (R.RED_CTL.en c) &&
  decide (s.get (R.RED_CTL.next c) = k ∨ s.get (R.RED_CTL.prev c) = k ∨ s.get (R.RED_CTL.wrap c) = k))

theorem skwRouted_iff {s : State} {k : Nat} : s.skwRouted k = true ↔ ∃ c, c < 64 ∧ s.get (R.RED_CTL.en c) = 1 ∧
    (s.get (R.RED_CTL.next c) = k ∨ s.get (R.RED_CTL.prev c) = k ∨ s.get (R.RED_CTL.wrap c) = k) := by
  simp only [State.skwRouted, List.any_eq_true, List.mem_range, Bool.and_eq_true, flag_iff, decide_eq_true_eq]

/-- What the write leaves when it is taken. -/
def State.versionsSet (s : State) (k vmax vmin : Nat) : State :=
  let u := s.puts [(R.SKW_LINK.ver_max k, vmax), (R.SKW_LINK.ver_min k, vmin)]
  if u.skwMode k = true ∧ u.get (R.SKW_LINK.state k) = 0 then u.put (R.SKW_LINK.state k) 1 else u

/-- A write that the spec refuses: the link's fields stay and the log says why. -/
def VersionRefused (s t : State) (k code : Nat) : Prop :=
  { t with regs := s.regs, log := s.log, out := s.out, pba := s.pba } = s ∧
  t.get (R.SKW_LINK.ver_max k) = s.get (R.SKW_LINK.ver_max k) ∧ t.get (R.SKW_LINK.ver_min k) = s.get (R.SKW_LINK.ver_min k) ∧
  t.get (R.SKW_LINK.state k) = s.get (R.SKW_LINK.state k) ∧ (t.log.head?.map LogEntry.code) = some code

theorem versionRefused_of {s t : State} {k code : Nat} (link : k < 24) (same : t.unlogged = s.unlogged)
    (get : ∀ g : Fld, 8 * 0x3b01000 ≤ g.a → g.a < 8 * 0x3b02000 → t.get g = s.get g) (logged : t.log.head?.map LogEntry.code = some code) :
    VersionRefused s t k code := by
  refine ⟨(congrArg (fun u : State => { u with regs := s.regs, log := s.log, out := s.out, pba := s.pba }) same :), get _ ?_ ?_, get _ ?_ ?_, get _ ?_ ?_, logged⟩ <;>
    simp only [R.SKW_LINK.ver_max, R.SKW_LINK.ver_min, R.SKW_LINK.state] <;> omega

theorem versionRefused_raise (s : State) {k : Nat} (link : k < 24) (code : Nat) (ctx : Option Nat) (w : Where) (detail : Nat) :
    VersionRefused s (s.raise code ctx w detail) k code :=
  versionRefused_of link (raise_unlogged ..) (fun _ _ high => raise_get s (lt_of_lt_of_le high (by decide))) log_code_of_raise

theorem versionRefused_ownDrop (s : State) {k : Nat} (link : k < 24) (m : Master) (off : Nat) : VersionRefused s (s.ownDrop m off) k E.CFG_OWNER :=
  versionRefused_of link (ownDrop_unlogged ..) (fun _ low high => ownDrop_other s m off (lt_of_lt_of_le high (by decide)) (le_trans (by decide) low))
    log_code_of_raise

theorem versions_nodup (k : Nat) {v w : Nat} : ([(R.SKW_LINK.ver_max k, v), (R.SKW_LINK.ver_min k, w)].map fun p => p.1.a).Nodup := by
  simp only [List.map_cons, List.map_nil, List.nodup_cons, List.mem_cons, List.not_mem_nil, R.SKW_LINK.ver_max, R.SKW_LINK.ver_min]
  simp

theorem versionsSet_facts (s : State) {k : Nat} (link : k < 24) (vmax vmin : BitVec 2) :
    (s.versionsSet k vmax.toNat vmin.toNat).get (R.SKW_LINK.ver_max k) = vmax.toNat ∧
    (s.versionsSet k vmax.toNat vmin.toNat).get (R.SKW_LINK.ver_min k) = vmin.toNat ∧
    (s.versionsSet k vmax.toNat vmin.toNat).get (R.SKW_LINK.state k) =
      (if s.skwMode k = true ∧ s.get (R.SKW_LINK.state k) = 0 then 1 else s.get (R.SKW_LINK.state k)) ∧
    { s.versionsSet k vmax.toNat vmin.toNat with regs := s.regs } = s ∧
    SameRegsBut s (s.versionsSet k vmax.toNat vmin.toNat) [R.SKW_LINK.ver_max k, R.SKW_LINK.ver_min k, R.SKW_LINK.state k] := by
  have most := puts_get_of_nodup s (versions_nodup k (v := vmax.toNat) (w := vmin.toNat)) (p := (R.SKW_LINK.ver_max k, _)) List.mem_cons_self
  have least := puts_get_of_nodup s (versions_nodup k (v := vmax.toNat) (w := vmin.toNat)) (p := (R.SKW_LINK.ver_min k, _))
    (List.mem_cons_of_mem _ List.mem_cons_self)
  have other {g : Fld} (max_ : g.a ≠ (R.SKW_LINK.ver_max k).a) (min_ : g.a ≠ (R.SKW_LINK.ver_min k).a) :
      (s.puts [(R.SKW_LINK.ver_max k, vmax.toNat), (R.SKW_LINK.ver_min k, vmin.toNat)]).get g = s.get g :=
    puts_get_other s (List.forall_mem_cons.2 ⟨max_, List.forall_mem_cons.2 ⟨min_, List.forall_mem_nil _⟩⟩)
  have rest := puts_rest s [(R.SKW_LINK.ver_max k, vmax.toNat), (R.SKW_LINK.ver_min k, vmin.toNat)]
  have apart : (R.SKW_LINK.state k).a ≠ (R.SKW_LINK.ver_max k).a ∧ (R.SKW_LINK.state k).a ≠ (R.SKW_LINK.ver_min k).a := by
    simp only [R.SKW_LINK.state, R.SKW_LINK.ver_max, R.SKW_LINK.ver_min]
    omega
  obtain ⟨apartMax, apartMin⟩ := apart
  have state := other apartMax apartMin
  have mode : (s.puts [(R.SKW_LINK.ver_max k, vmax.toNat), (R.SKW_LINK.ver_min k, vmin.toNat)]).skwMode k = s.skwMode k := by
    unfold State.skwMode
    rw [other] <;> simp only [R.CAGE_CTL.mode, R.SKW_LINK.ver_max, R.SKW_LINK.ver_min] <;> omega
  unfold State.versionsSet
  dsimp only
  rw [mode, state]
  replace most := most.trans (Nat.mod_eq_of_lt vmax.isLt)
  replace least := least.trans (Nat.mod_eq_of_lt vmin.isLt)
  dsimp only at most least
  generalize s.puts [(R.SKW_LINK.ver_max k, vmax.toNat), (R.SKW_LINK.ver_min k, vmin.toNat)] = u at *
  split
  · refine ⟨(State.get_put_other _ _ _ _ apartMax.symm).trans most, (State.get_put_other _ _ _ _ apartMin.symm).trans least, State.get_put_same .., rest,
      fun g apart => ?_⟩
    rw [State.get_put_other _ _ _ _ (apart _ (by simp)), other (apart _ (by simp)) (apart _ (by simp))]
  · exact ⟨most, least, state, rest, fun g apart => other (apart _ (by simp)) (apart _ (by simp))⟩

section Versions
variable {s : State} {k : Fin 24} {m : Master} {vmax vmin : BitVec 2}

/-- The write of a link's versions, its die fitted and running. -/
def State.versionJudge (s : State) (m : Master) (k vmax vmin : Nat) : State :=
  if (!s.owns m 4) = true then s.ownDrop m (0x03B0_1018 + 0x40 * k)
  else if s.skwRouted k = true ∧ vmin < 3 then s.cfgRange none (0x03B0_1018 + 0x40 * k)
  else s.versionsSet k vmax vmin

theorem exec_skwVersionWrite (opened : s.Open) : exec (.skwVersionWrite m k vmax vmin) s =
    .next (s.onLink k.val (s.versionJudge m k.val vmax.toNat vmin.toNat)) :=
  congrArg Host.Outcome.next (gated_of_open opened _ _)

theorem onLink_absent (absent : s.edgeFitted (k.val / 4) = false) (u : State) :
    s.onLink k.val u = s.raise E.CFG_ABSENT none (atEdge (k.val / 4)) k.val := if_pos absent

theorem onLink_down (fitted : s.edgeFitted (k.val / 4) = true) (down : s.halfInReset (k.val / 12) = true) (u : State) :
    s.onLink k.val u = s.raise E.LINK_HALF_DOWN none (atEntry (ldOfEdge (k.val / 4))) k.val :=
  (if_neg (by rw [fitted]; decide)).trans (if_pos down)

theorem onLink_here (fitted : s.edgeFitted (k.val / 4) = true) (up : s.halfInReset (k.val / 12) = false) (u : State) : s.onLink k.val u = u :=
  (if_neg (by rw [fitted]; decide)).trans (if_neg (by rw [up]; decide))

theorem exec_skwVersionWrite_here (opened : s.Open) (fitted : s.edgeFitted (k.val / 4) = true) (up : s.halfInReset (k.val / 12) = false) :
    exec (.skwVersionWrite m k vmax vmin) s = .next (s.versionJudge m k.val vmax.toNat vmin.toNat) :=
  (exec_skwVersionWrite opened).trans (congrArg Host.Outcome.next (onLink_here fitted up _))

theorem versionJudge_owner (other : s.owns m 4 = false) (k vmax vmin : Nat) :
    s.versionJudge m k vmax vmin = s.ownDrop m (0x03B0_1018 + 0x40 * k) := if_pos (by rw [other]; decide)

theorem versionJudge_routed (owner : s.owns m 4 = true) {k vmin : Nat} (routed : s.skwRouted k = true) (low : vmin < 3) (vmax : Nat) :
    s.versionJudge m k vmax vmin = s.cfgRange none (0x03B0_1018 + 0x40 * k) := (if_neg (by rw [owner]; decide)).trans (if_pos ⟨routed, low⟩)

theorem versionJudge_set (owner : s.owns m 4 = true) {k vmin : Nat} (clear : ¬(s.skwRouted k = true ∧ vmin < 3)) (vmax : Nat) :
    s.versionJudge m k vmax vmin = s.versionsSet k vmax vmin := (if_neg (by rw [owner]; decide)).trans (if_neg clear)

end Versions

/-- Settles O25, command by command: a new session's frames, the peer's CAPS, KEYED, time-outs and the write of the versions. -/
theorem skidwayBringUp : Obligations.SkidwayBringUp := by
  intro s k
  refine ⟨fun skw eth bringUp => skwLanesTrained_clause skw eth bringUp rfl, fun eth => skwLanesTrained_eth eth, fun eth off => skwLanesTrained_off eth off,
    fun off vx vn r m p c => skwCaps_off off vx vn r m p c, fun off => skwKeyed_off off, fun off => skwSessionTimeout_off off,
    fun vmax vmin recOk nonce p chainOk state caps => skwCaps_clause state caps vmax vmin recOk nonce p chainOk rfl rfl Iff.rfl Iff.rfl,
    fun state caps => skwKeyed_clause state caps, fun state => skwSessionTimeout_clause state, fun state free => exec_skwBringupRetry state free,
    fun off => skwBringupRetry_off off, fun m vmax vmin opened => ⟨fun absent => ?_, fun fitted down => ?_, fun here other => ?_,
      fun here owner low routed => ?_, fun here owner clear => ?_⟩⟩
  · exact ⟨_, (exec_skwVersionWrite opened).trans (congrArg Host.Outcome.next (onLink_absent absent _)), versionRefused_raise s k.isLt ..⟩
  · exact ⟨_, (exec_skwVersionWrite opened).trans (congrArg Host.Outcome.next (onLink_down fitted down _)), versionRefused_raise s k.isLt ..⟩
  · obtain ⟨fitted, up⟩ := here
    exact ⟨_, (exec_skwVersionWrite_here opened fitted up).trans (congrArg Host.Outcome.next (versionJudge_owner other ..)), versionRefused_ownDrop s k.isLt ..⟩
  · obtain ⟨fitted, up⟩ := here
    exact ⟨_, (exec_skwVersionWrite_here opened fitted up).trans (congrArg Host.Outcome.next (versionJudge_routed owner (skwRouted_iff.2 routed) low _)),
      versionRefused_raise s k.isLt ..⟩
  · obtain ⟨fitted, up⟩ := here
    have free : ¬(s.skwRouted k.val = true ∧ vmin.toNat < 3) := by
      rintro ⟨routed, low⟩
      rcases clear with three | clear
      · exact absurd low (by rw [three]; decide)
      · obtain ⟨c, small, on, uses⟩ := skwRouted_iff.1 routed
        obtain ⟨next, prev, wrap⟩ := clear c small on
        exact uses.elim next fun uses => uses.elim prev wrap
    exact ⟨_, (exec_skwVersionWrite_here opened fitted up).trans (congrArg Host.Outcome.next (versionJudge_set owner free _)), versionsSet_facts s k.isLt ..⟩

end Sys2Proof.Machine

namespace Sys2Proof.Machine

-- One proof at a time: threads that wait for each other hold memory.
set_option Elab.async false

/-! ## Rounds of claims (R418) -/

/-- A round in which the claim comes back agreed ends the training. -/
theorem siteAgree_agreed (u e n r mask : Nat) {x : SiteRound} {p : BitVec 4 × BitVec 32} {own : BitVec 4} {epoch : BitVec 32} (claim : x.claim = some p)
    (echo : x.echo = some (own, epoch)) (same : p.1.toNat = mask) (mine : own.toNat = mask) (now : epoch.toNat = e) (xs : List SiteRound) :
    (siteAgree u e (n + 1) r mask (x :: xs)).1 = mask := by
  unfold siteAgree
  dsimp only [List.headD_cons]
  rw [claim, echo]
  dsimp only
  have agreed : some (p.1.toNat, own.toNat, epoch.toNat) = some (mask, mask, e) := by rw [same, mine, now]
  rw [if_pos agreed]

theorem siteAgree_nil (u e n r mask : Nat) : (siteAgree u e n r mask []).1 = 0 := by
  induction n generalizing r mask with
  | zero => rfl
  | succ n ih =>
    unfold siteAgree
    dsimp only [List.headD_nil, List.tail_nil]
    rw [if_neg (Option.some_ne_none _).symm]
    exact ih ..

theorem lowestQuarter_lt (m : Nat) : lowestQuarter m < 16 := by
  unfold lowestQuarter
  split
  · decide
  · split
    · decide
    · split
      · decide
      · split <;> decide

/-- The modules that an end claims next. -/
theorem nextClaim_lt (r v : Nat) {mask : Nat} (small : mask < 16) : (if r = 3 then lowestQuarter (mask &&& v) else mask &&& v) < 16 := by
  split
  · exact lowestQuarter_lt _
  · exact lt_of_le_of_lt Nat.and_le_left small

theorem siteAgree_lt (u e n r : Nat) {mask : Nat} (small : mask < 16) (xs : List SiteRound) : (siteAgree u e n r mask xs).1 < 16 := by
  induction n generalizing r mask xs with
  | zero => exact Nat.zero_lt_succ _
  | succ n ih =>
    unfold siteAgree
    dsimp only
    split
    · split
      · exact small
      · exact ih _ (nextClaim_lt _ _ small) _
    · rw [if_neg (Option.some_ne_none _).symm]
      exact ih _ (nextClaim_lt _ _ small) _

/-! ## A site whose state changes (R421, R422) -/

theorem holdDomains_rest (s : State) : s.holdDomains.log = s.log ∧ s.holdDomains.seqs = s.seqs ∧ s.holdDomains.parts = s.parts := by
  obtain ⟨x, y, eq⟩ := holdDomains_eq s
  rw [eq]
  exact ⟨rfl, rfl, rfl⟩

/-- The places of a site's fields, of which neither the log nor the power domains are. -/
def SitePlace (g : Fld) : Prop := 8 * 0x171000 ≤ g.a ∧ g.a < 8 * 0x172000

theorem SitePlace.low {g : Fld} (place : SitePlace g) : g.a < 8 * 0x3e00000 := lt_of_lt_of_le place.2 (by decide)

theorem SitePlace.powered {g : Fld} (place : SitePlace g) : g.a ≠ (R.PWR_PD.on 0).a ∧ g.a ≠ (R.PWR_PD.on 1).a :=
  ⟨ne_of_lt (lt_of_lt_of_le place.2 (by decide)), ne_of_lt (lt_of_lt_of_le place.2 (by decide))⟩

/-- What a logged error and the power domains behind it leave of a site. -/
theorem raised_domains (s : State) (code : Nat) (ctx : Option Nat) (w : Where) (detail : Nat) :
    let t := (s.raise code ctx w detail).holdDomains
    SameMem s t ∧ t.seqs = s.seqs ∧ t.parts = s.parts ∧ t.log.head?.map LogEntry.code = some code ∧ ∀ g, SitePlace g → t.get g = s.get g := by
  have same := raise_unlogged s code ctx w detail
  obtain ⟨log, seqs, parts⟩ := holdDomains_rest (s.raise code ctx w detail)
  refine ⟨(sameMem_of_unlogged same).trans (holdDomains_sameMem _), seqs.trans (congrArg State.seqs same :), parts.trans (congrArg State.parts same :), ?_,
    fun g place => (holdDomains_get _ place.powered).trans (raise_get s place.low)⟩
  rw [log]
  exact log_code_of_raise

theorem setPart_part (s : State) (u j : Nat) (x : Part) : (s.setPart u x).part j = if j = u then x else s.part j := KMap.find_put _ _ _ _ _

theorem part_of_parts {s t : State} (same : t.parts = s.parts) (u : Nat) : t.part u = s.part u := by rw [State.part, same, State.part]

theorem maskState_apart (u : Nat) : (R.PART_STAT.mask u).a ≠ (R.PART_STAT.state u).a := by
  simp [R.PART_STAT.mask, R.PART_STAT.state]

/-- A site's status with nothing left of its die. -/
def State.siteEmptied (s : State) (u : Nat) : State := (s.puts [(R.PART_STAT.mask u, 0), (R.PART_STAT.state u, 0)]).setPart u Part.empty

theorem setPart_rest (s : State) (u : Nat) (x : Part) : (s.setPart u x).regs = s.regs ∧ SameMem s (s.setPart u x) ∧ (s.setPart u x).seqs = s.seqs :=
  ⟨rfl, sameMem_of_eq rfl rfl rfl rfl, rfl⟩

theorem siteEmptied_get (s : State) (u : Nat) (g : Fld) :
    (s.siteEmptied u).get g = (s.puts [(R.PART_STAT.mask u, 0), (R.PART_STAT.state u, 0)]).get g := get_congr (setPart_rest ..).1 g

theorem puts_calm (s : State) (l : List (Fld × Nat)) : SameMem s (s.puts l) ∧ (s.puts l).seqs = s.seqs ∧ (s.puts l).parts = s.parts :=
  ⟨sameMem_of_unlogged (puts_unlogged ..), (congrArg State.seqs (puts_unlogged s l) :), (congrArg State.parts (puts_unlogged s l) :)⟩

theorem siteEmptied_rest (s : State) (u : Nat) : SameMem s (s.siteEmptied u) ∧ (s.siteEmptied u).seqs = s.seqs ∧ (s.siteEmptied u).part u = Part.empty := by
  obtain ⟨mem, seqs, -⟩ := puts_calm s [(R.PART_STAT.mask u, 0), (R.PART_STAT.state u, 0)]
  obtain ⟨-, mem', seqs'⟩ := setPart_rest (s.puts [(R.PART_STAT.mask u, 0), (R.PART_STAT.state u, 0)]) u Part.empty
  exact ⟨mem.trans mem', seqs'.trans seqs, (setPart_part ..).trans (if_pos rfl)⟩

theorem sitePlace_stat {u : Nat} (site : u < 2) : SitePlace (R.PART_STAT.mask u) ∧ SitePlace (R.PART_STAT.state u) ∧ SitePlace (R.PART_STAT.epoch u) ∧
    SitePlace (R.PART_STAT.pver u) ∧ SitePlace (R.PART_STAT.kind u) := by
  simp only [SitePlace, R.PART_STAT.mask, R.PART_STAT.state, R.PART_STAT.epoch, R.PART_STAT.pver, R.PART_STAT.kind]
  omega

/-- A site with no module left. -/
theorem siteDown_facts (s : State) {u : Nat} (site : u < 2) : SameMem s (s.siteDown u) ∧ (s.siteDown u).seqs = s.seqs ∧
    (s.siteDown u).get (R.PART_STAT.mask u) = 0 ∧ (s.siteDown u).get (R.PART_STAT.state u) = 0 ∧ (s.siteDown u).part u = Part.empty ∧
    (s.siteDown u).log.head?.map LogEntry.code = some E.LINK_DOWN ∧
    ∀ g, SitePlace g → g.a ≠ (R.PART_STAT.mask u).a → g.a ≠ (R.PART_STAT.state u).a → (s.siteDown u).get g = s.get g := by
  obtain ⟨mem, seqs, part⟩ := siteEmptied_rest s u
  obtain ⟨mask, state⟩ := puts_two s 0 0 (maskState_apart u)
  obtain ⟨maskPlace, statePlace, -⟩ := sitePlace_stat site
  obtain ⟨mem', seqs', parts', log, get⟩ := raised_domains (s.siteEmptied u) E.LINK_DOWN none (atSite u) u
  have down : s.siteDown u = ((s.siteEmptied u).raise E.LINK_DOWN none (atSite u) u).holdDomains := rfl
  rw [down]
  exact ⟨mem.trans mem', seqs'.trans seqs, (get _ maskPlace).trans ((siteEmptied_get ..).trans mask), (get _ statePlace).trans ((siteEmptied_get ..).trans state),
    (part_of_parts parts' u).trans part, log, fun g place one two => (get g place).trans ((siteEmptied_get ..).trans
      (puts_get_other s (List.forall_mem_cons.2 ⟨one, List.forall_mem_cons.2 ⟨two, List.forall_mem_nil _⟩⟩)))⟩

/-- What R422 asks of the die in a site. -/
def State.siteAccepted (s : State) (u : Nat) : Prop :=
  (s.part u).valid = true ∧ (s.part u).ver = 1 ∧ s.get (R.PART_CTL.policy u) ≠ 0 ∧
    (s.get (R.PART_CTL.policy u) = 2 → (s.part u).spdm = true ∧ (s.part u).root = s.partRoot u)

/-- A site's status once its die's descriptor has been read. -/
def State.siteRead (s : State) (u : Nat) : State :=
  s.puts [(R.PART_STAT.state u, 1), (R.PART_STAT.pver u, (s.part u).ver), (R.PART_STAT.kind u, (s.part u).kind)]

theorem siteRead_nodup (u : Nat) {a b c : Nat} : ([(R.PART_STAT.state u, a), (R.PART_STAT.pver u, b), (R.PART_STAT.kind u, c)].map fun p => p.1.a).Nodup := by
  simp only [List.map_cons, List.map_nil, List.nodup_cons, List.mem_cons, List.not_mem_nil, R.PART_STAT.state, R.PART_STAT.pver, R.PART_STAT.kind]
  simp

/-- A field that no judgement of a site writes. -/
def Unjudged (u : Nat) (g : Fld) : Prop := g.a ≠ (R.PART_STAT.state u).a ∧ g.a ≠ (R.PART_STAT.pver u).a ∧ g.a ≠ (R.PART_STAT.kind u).a

theorem siteRead_get (s : State) {u : Nat} {g : Fld} (other : Unjudged u g) : (s.siteRead u).get g = s.get g := by
  obtain ⟨state, pver, kind⟩ := other
  exact puts_get_other s (List.forall_mem_cons.2 ⟨state, List.forall_mem_cons.2 ⟨pver, List.forall_mem_cons.2 ⟨kind, List.forall_mem_nil _⟩⟩⟩)

theorem siteRead_root (s : State) {u : Nat} (site : u < 2) : (s.siteRead u).partRoot u = s.partRoot u := by
  have digest (j : Nat) (small : j < 6) : (s.siteRead u).get (R.PART_ROOT.digest u j) = s.get (R.PART_ROOT.digest u j) := by
    refine siteRead_get s ?_
    simp only [Unjudged, R.PART_ROOT.digest, R.PART_STAT.state, R.PART_STAT.pver, R.PART_STAT.kind]
    omega
  unfold State.partRoot
  simp only [List.flatMap_def]
  exact congrArg List.flatten (List.map_congr_left fun j mem => by rw [digest j (List.mem_range.1 mem)])

theorem siteRead_calm (s : State) (u : Nat) : SameMem s (s.siteRead u) ∧ (s.siteRead u).seqs = s.seqs ∧ (s.siteRead u).parts = s.parts := puts_calm ..

/-- The verdict, by what R422 asks. -/
theorem judgeSite_eq (s : State) {u : Nat} (site : u < 2) : (s.siteAccepted u → s.judgeSite u = ((s.siteRead u).put (R.PART_STAT.state u) 2).holdDomains) ∧
    (¬s.siteAccepted u → s.judgeSite u = (((s.siteRead u).put (R.PART_STAT.state u) 3).raise E.LINK_PARTNER none (atSite u) u).holdDomains) := by
  have bad : ((!(s.part u).valid) = true ∨ (s.part u).ver ≠ 1 ∨ s.get (R.PART_CTL.policy u) = 0 ∨
      (s.get (R.PART_CTL.policy u) = 2 ∧ ¬((s.part u).spdm = true ∧ (s.part u).root = (s.siteRead u).partRoot u))) ↔ ¬s.siteAccepted u := by
    rw [siteRead_root s site]
    unfold State.siteAccepted
    rw [Bool.not_eq_true', ← Bool.not_eq_true]
    tauto
  exact ⟨fun good => if_neg (bad.not.2 (not_not.2 good)), fun no => if_pos (bad.2 no)⟩

theorem siteRead_written (s : State) (u : Nat) : (s.siteRead u).get (R.PART_STAT.pver u) = (s.part u).ver % 2 ^ 8 ∧
    (s.siteRead u).get (R.PART_STAT.kind u) = (s.part u).kind % 2 ^ 16 :=
  ⟨puts_get_of_nodup s (siteRead_nodup u) (p := (R.PART_STAT.pver u, _)) (List.mem_cons_of_mem _ List.mem_cons_self),
    puts_get_of_nodup s (siteRead_nodup u) (p := (R.PART_STAT.kind u, _)) (List.mem_cons_of_mem _ (List.mem_cons_of_mem _ List.mem_cons_self))⟩

/-- What a verdict leaves, whatever it is: the site's state apart, its fields and the rest. -/
structure Judged (s t : State) (u st : Nat) : Prop where
  mem   : SameMem s t
  seqs  : t.seqs = s.seqs
  parts : t.parts = s.parts
  state : t.get (R.PART_STAT.state u) = st
  pver  : t.get (R.PART_STAT.pver u) = (s.part u).ver % 2 ^ 8
  kind  : t.get (R.PART_STAT.kind u) = (s.part u).kind % 2 ^ 16
  other : ∀ g, SitePlace g → Unjudged u g → t.get g = s.get g

theorem stateApart (u : Nat) : (R.PART_STAT.pver u).a ≠ (R.PART_STAT.state u).a ∧ (R.PART_STAT.kind u).a ≠ (R.PART_STAT.state u).a := by
  simp [R.PART_STAT.pver, R.PART_STAT.kind, R.PART_STAT.state]

theorem judged_put (s : State) (u : Nat) {st : Nat} (small : st < 8) : Judged s ((s.siteRead u).put (R.PART_STAT.state u) st) u st := by
  obtain ⟨mem, seqs, parts⟩ := siteRead_calm s u
  obtain ⟨pver, kind⟩ := siteRead_written s u
  obtain ⟨pverApart, kindApart⟩ := stateApart u
  have other (g : Fld) := siteRead_get s (u := u) (g := g)
  generalize s.siteRead u = v at *
  exact ⟨mem.trans (sameMem_of_eq rfl rfl rfl rfl), seqs, parts, (State.get_put_same ..).trans (Nat.mod_eq_of_lt small),
    (State.get_put_other _ _ _ _ pverApart).trans pver, (State.get_put_other _ _ _ _ kindApart).trans kind,
    fun g _ apart => (State.get_put_other _ _ _ _ apart.1).trans (other g apart)⟩

theorem Judged.domains {s t : State} {u st : Nat} (site : u < 2) (judged : Judged s t u st) : Judged s t.holdDomains u st := by
  obtain ⟨mem, seqs, parts, state, pver, kind, other⟩ := judged
  obtain ⟨-, seqs', parts'⟩ := holdDomains_rest t
  obtain ⟨-, statePlace, -, pverPlace, kindPlace⟩ := sitePlace_stat site
  have get (g : Fld) (place : SitePlace g) := holdDomains_get t place.powered
  exact ⟨mem.trans (holdDomains_sameMem t), seqs'.trans seqs, parts'.trans parts, (get _ statePlace).trans state, (get _ pverPlace).trans pver,
    (get _ kindPlace).trans kind, fun g place apart => (get g place).trans (other g place apart)⟩

theorem Judged.raise {s t : State} {u st : Nat} (site : u < 2) (judged : Judged s t u st) (code : Nat) (ctx : Option Nat) (w : Where) (detail : Nat) :
    Judged s (t.raise code ctx w detail) u st := by
  obtain ⟨mem, seqs, parts, state, pver, kind, other⟩ := judged
  have same := raise_unlogged t code ctx w detail
  obtain ⟨-, statePlace, -, pverPlace, kindPlace⟩ := sitePlace_stat site
  have get (g : Fld) (place : SitePlace g) : (t.raise code ctx w detail).get g = t.get g := raise_get t place.low
  exact ⟨mem.trans (sameMem_of_unlogged same), (congrArg State.seqs same :).trans seqs, (congrArg State.parts same :).trans parts,
    (get _ statePlace).trans state, (get _ pverPlace).trans pver, (get _ kindPlace).trans kind, fun g place apart => (get g place).trans (other g place apart)⟩

theorem judgeSite_accepted {s : State} {u : Nat} (site : u < 2) (accepted : s.siteAccepted u) : Judged s (s.judgeSite u) u 2 := by
  rw [(judgeSite_eq s site).1 accepted]
  exact (judged_put s u (by decide)).domains site

theorem judgeSite_refused {s : State} {u : Nat} (site : u < 2) (refused : ¬s.siteAccepted u) : Judged s (s.judgeSite u) u 3 ∧
    (s.judgeSite u).log.head?.map LogEntry.code = some E.LINK_PARTNER := by
  rw [(judgeSite_eq s site).2 refused]
  refine ⟨((judged_put s u (by decide)).raise site ..).domains site, ?_⟩
  rw [(holdDomains_rest _).1]
  exact log_code_of_raise

/-! ## A site that trains, and one that is lost (R418, R421) -/

section Trained
variable (s : State) (u epoch mask : Nat) (l : List Out)

/-- A site whose rounds have ended. -/
def State.siteRounds : State := l.foldl State.emit (s.puts [(R.PART_STAT.epoch u, epoch), (R.PART_STAT.mask u, mask)])

theorem siteRounds_eq : s.siteRounds u epoch mask l =
    { s.puts [(R.PART_STAT.epoch u, epoch), (R.PART_STAT.mask u, mask)] with
      out := l.reverse ++ (s.puts [(R.PART_STAT.epoch u, epoch), (R.PART_STAT.mask u, mask)]).out } := foldl_emit ..

theorem withOut_get (o : List Out) (g : Fld) : ({ s with out := o } : State).get g = s.get g := get_congr rfl g

theorem withOut_calm (o : List Out) : SameMem s { s with out := o } ∧ ({ s with out := o } : State).seqs = s.seqs ∧
    ({ s with out := o } : State).parts = s.parts ∧ ({ s with out := o } : State).mfg = s.mfg := ⟨sameMem_of_eq rfl rfl rfl rfl, rfl, rfl, rfl⟩

theorem siteRounds_get (g : Fld) : (s.siteRounds u epoch mask l).get g = (s.puts [(R.PART_STAT.epoch u, epoch), (R.PART_STAT.mask u, mask)]).get g := by
  rw [siteRounds_eq, withOut_get]

theorem siteRounds_calm : SameMem s (s.siteRounds u epoch mask l) ∧ (s.siteRounds u epoch mask l).seqs = s.seqs ∧ (s.siteRounds u epoch mask l).parts = s.parts ∧
    (s.siteRounds u epoch mask l).mfg = s.mfg := by
  have mfg : (s.puts [(R.PART_STAT.epoch u, epoch), (R.PART_STAT.mask u, mask)]).mfg = s.mfg :=
    (congrArg State.mfg (puts_unlogged s [(R.PART_STAT.epoch u, epoch), (R.PART_STAT.mask u, mask)]) :)
  obtain ⟨mem, seqs, parts⟩ := puts_calm s [(R.PART_STAT.epoch u, epoch), (R.PART_STAT.mask u, mask)]
  rw [siteRounds_eq]
  generalize s.puts [(R.PART_STAT.epoch u, epoch), (R.PART_STAT.mask u, mask)] = v at *
  obtain ⟨mem', seqs', parts', mfg'⟩ := withOut_calm v (l.reverse ++ v.out)
  exact ⟨mem.trans mem', seqs'.trans seqs, parts'.trans parts, mfg'.trans mfg⟩

theorem siteRounds_written (narrow : mask < 16) (wide : epoch < 2 ^ 32) : (s.siteRounds u epoch mask l).get (R.PART_STAT.epoch u) = epoch ∧
    (s.siteRounds u epoch mask l).get (R.PART_STAT.mask u) = mask ∧
    ∀ g : Fld, g.a ≠ (R.PART_STAT.epoch u).a → g.a ≠ (R.PART_STAT.mask u).a → (s.siteRounds u epoch mask l).get g = s.get g := by
  obtain ⟨one, two⟩ := puts_two s (f := R.PART_STAT.epoch u) (g := R.PART_STAT.mask u) epoch mask (by simp [R.PART_STAT.epoch, R.PART_STAT.mask])
  refine ⟨(siteRounds_get ..).trans (one.trans (Nat.mod_eq_of_lt wide)), (siteRounds_get ..).trans (two.trans (Nat.mod_eq_of_lt narrow)),
    fun g first second => (siteRounds_get ..).trans (puts_get_other s ?_)⟩
  exact List.forall_mem_cons.2 ⟨first, List.forall_mem_cons.2 ⟨second, List.forall_mem_nil _⟩⟩

end Trained

/-- The rounds of a training. -/
def State.siteAgreed (s : State) (u : Nat) (x : SiteTrain) : Nat × List Out :=
  siteAgree u ((s.get (R.PART_STAT.epoch u) + 1) % 2 ^ 32) 4 1 x.own.toNat x.rounds

/-- What a training says of the die in a site. -/
def siteDie (valid : Bool) (ver : BitVec 8) (kind most : BitVec 16) (root : List Byte) (spdm : Bool) : Part :=
  { valid := valid, ver := ver.toNat, kind := kind.toNat, most := most.toNat, root := root, spdm := spdm, wait := [] }

/-- The site after its rounds. -/
def State.siteTrained (s : State) (u : Nat) (x : SiteTrain) : State :=
  s.siteRounds u ((s.get (R.PART_STAT.epoch u) + 1) % 2 ^ 32) (s.siteAgreed u x).1 (s.siteAgreed u x).2

/-- The site after its rounds, and a width below the full one logged. -/
def State.siteWidth (s : State) (u mask : Nat) : State := if popcount4 mask < 4 then s.raise E.LINK_WIDTH_DEGRADED none (atSite u) mask else s

theorem siteWidth_facts (s : State) (u mask : Nat) : (s.siteWidth u mask).unlogged = s.unlogged ∧ ∀ g, SitePlace g ∨ g.a < 8 * 0x171000 →
    (s.siteWidth u mask).get g = s.get g := by
  unfold State.siteWidth
  split
  · refine ⟨raise_unlogged .., fun g place => raise_get s ?_⟩
    exact place.elim (fun place => place.low) fun low => lt_of_lt_of_le low (by decide)
  · exact ⟨rfl, fun _ _ => rfl⟩

section
variable {s : State} {u : Fin 2} {x : SiteTrain}

theorem exec_partnerSiteTrained (live : s.halfDead u.val = false) (valid : Bool) (ver : BitVec 8) (kind most : BitVec 16) (root : List Byte) (spdm : Bool) :
    exec (.partnerSiteTrained u x valid ver kind most root spdm) s = .next (
      if (s.siteAgreed u.val x).1 = 0 then (s.siteTrained u.val x).siteDown u.val
      else
        let t := (s.siteTrained u.val x).siteWidth u.val (s.siteAgreed u.val x).1
        if t.partnerFitted u.val = true ∧ t.get (R.PART_STAT.state u.val) = 0 then
          (t.setPart u.val (siteDie valid ver kind most root spdm)).judgeSite u.val
        else t) := congrArg Host.Outcome.next (if_neg (by rw [live]; decide))

theorem exec_partnerSiteTrained_dead (dead : s.halfDead u.val = true) (valid : Bool) (ver : BitVec 8) (kind most : BitVec 16) (root : List Byte) (spdm : Bool) :
    exec (.partnerSiteTrained u x valid ver kind most root spdm) s = .next s := congrArg Host.Outcome.next (if_pos dead)

/-- What a site's rounds leave when a module is left, before its die is judged. -/
structure SiteUp (s t : State) (u epoch mask : Nat) : Prop where
  mem   : SameMem s t
  seqs  : t.seqs = s.seqs
  parts : t.parts = s.parts
  mfg   : t.mfg = s.mfg
  epoch : t.get (R.PART_STAT.epoch u) = epoch
  mask  : t.get (R.PART_STAT.mask u) = mask
  other : ∀ g, SitePlace g → g.a ≠ (R.PART_STAT.epoch u).a → g.a ≠ (R.PART_STAT.mask u).a → t.get g = s.get g

theorem siteUp_trained (s : State) (u : Fin 2) (x : SiteTrain) :
    SiteUp s (s.siteTrained u.val x) u.val ((s.get (R.PART_STAT.epoch u.val) + 1) % 2 ^ 32) (s.siteAgreed u.val x).1 := by
  obtain ⟨mem, seqs, parts, mfg⟩ := siteRounds_calm s u.val ((s.get (R.PART_STAT.epoch u.val) + 1) % 2 ^ 32) (s.siteAgreed u.val x).1 (s.siteAgreed u.val x).2
  obtain ⟨epoch, mask, other⟩ := siteRounds_written s u.val ((s.get (R.PART_STAT.epoch u.val) + 1) % 2 ^ 32) (s.siteAgreed u.val x).1 (s.siteAgreed u.val x).2
    (siteAgree_lt _ _ _ _ x.own.isLt _) (Nat.mod_lt _ (by decide))
  exact ⟨mem, seqs, parts, mfg, epoch, mask, fun g _ => other g⟩

theorem SiteUp.width {s t : State} {u : Fin 2} {epoch mask : Nat} (up : SiteUp s t u.val epoch mask) (m : Nat) :
    SiteUp s (t.siteWidth u.val m) u.val epoch mask := by
  obtain ⟨mem, seqs, parts, mfg, hEpoch, hMask, other⟩ := up
  obtain ⟨same, get⟩ := siteWidth_facts t u.val m
  obtain ⟨maskPlace, -, epochPlace, -⟩ := sitePlace_stat u.isLt
  exact ⟨mem.trans (sameMem_of_unlogged same), (congrArg State.seqs same :).trans seqs, (congrArg State.parts same :).trans parts,
    (congrArg State.mfg same :).trans mfg, (get _ (.inl epochPlace)).trans hEpoch, (get _ (.inl maskPlace)).trans hMask,
    fun g place one two => (get g (.inl place)).trans (other g place one two)⟩

theorem SiteUp.state {s t : State} {u : Fin 2} {epoch mask : Nat} (up : SiteUp s t u.val epoch mask) :
    t.get (R.PART_STAT.state u.val) = s.get (R.PART_STAT.state u.val) :=
  up.other _ (sitePlace_stat u.isLt).2.1 (by simp [R.PART_STAT.epoch, R.PART_STAT.state]) (maskState_apart _).symm

theorem SiteUp.fitted {s t : State} {u epoch mask : Nat} (up : SiteUp s t u epoch mask) : t.partnerFitted u = s.partnerFitted u := by
  rw [State.partnerFitted, up.mfg, State.partnerFitted]

theorem partRoot_congr {s t : State} {u : Nat} (same : ∀ j < 6, t.get (R.PART_ROOT.digest u j) = s.get (R.PART_ROOT.digest u j)) : t.partRoot u = s.partRoot u := by
  unfold State.partRoot
  simp only [List.flatMap_def]
  exact congrArg List.flatten (List.map_congr_left fun j mem => by rw [same j (List.mem_range.1 mem)])

/-- Whether a die that has trained is accepted, by what the event says of it. -/
theorem SiteUp.accepted {s t : State} {u : Fin 2} {epoch mask : Nat} (up : SiteUp s t u.val epoch mask) {valid : Bool} {ver : BitVec 8} {kind most : BitVec 16}
    {root : List Byte} {spdm : Bool} :
    (t.setPart u.val (siteDie valid ver kind most root spdm)).siteAccepted u.val ↔
      (valid = true ∧ ver = 1 ∧ s.get (R.PART_CTL.policy u.val) ≠ 0 ∧ (s.get (R.PART_CTL.policy u.val) = 2 → spdm = true ∧ root = s.partRoot u.val)) := by
  have policy : t.get (R.PART_CTL.policy u.val) = s.get (R.PART_CTL.policy u.val) := by
    refine up.other _ ?_ ?_ ?_ <;> simp only [SitePlace, R.PART_CTL.policy, R.PART_STAT.epoch, R.PART_STAT.mask] <;> omega
  have root_ : t.partRoot u.val = s.partRoot u.val := by
    refine partRoot_congr fun j small => up.other _ ?_ ?_ ?_ <;> simp only [SitePlace, R.PART_ROOT.digest, R.PART_STAT.epoch, R.PART_STAT.mask] <;> omega
  have version : ver.toNat = 1 ↔ ver = 1 := (BitVec.toNat_inj (y := 1#8))
  have regs := (setPart_rest t u.val (siteDie valid ver kind most root spdm)).1
  have part := (setPart_part t u.val u.val (siteDie valid ver kind most root spdm)).trans
    (if_pos rfl)
  generalize t.setPart u.val (siteDie valid ver kind most root spdm) = v at *
  rw [State.siteAccepted, part, siteDie, get_congr regs, policy, partRoot_congr (s := t) (fun j _ => get_congr regs _), root_, version]

/-- What the verdict on a die that has trained leaves. -/
theorem SiteUp.judged {s t w : State} {u : Fin 2} {epoch mask st : Nat} (up : SiteUp s t u.val epoch mask) {valid : Bool} {ver : BitVec 8}
    {kind most : BitVec 16} {root : List Byte} {spdm : Bool}
    (judged : Judged (t.setPart u.val (siteDie valid ver kind most root spdm)) w u.val st) :
    SameMem s w ∧ w.seqs = s.seqs ∧ w.get (R.PART_STAT.mask u.val) = mask ∧ w.get (R.PART_STAT.epoch u.val) = epoch ∧
      w.get (R.PART_STAT.state u.val) = st ∧ w.get (R.PART_STAT.pver u.val) = ver.toNat ∧ w.get (R.PART_STAT.kind u.val) = kind.toNat := by
  obtain ⟨mem, seqs, -, state, pver, kind_, other⟩ := judged
  obtain ⟨regs, mem', seqs'⟩ := setPart_rest t u.val (siteDie valid ver kind most root spdm)
  have part := (setPart_part t u.val u.val (siteDie valid ver kind most root spdm)).trans
    (if_pos rfl)
  obtain ⟨maskPlace, -, epochPlace, -⟩ := sitePlace_stat u.isLt
  generalize t.setPart u.val (siteDie valid ver kind most root spdm) = v at *
  rw [part] at pver kind_
  refine ⟨up.mem.trans (mem'.trans mem), (seqs.trans seqs').trans up.seqs, ?_, ?_, state, pver.trans (Nat.mod_eq_of_lt ver.isLt),
    kind_.trans (Nat.mod_eq_of_lt kind.isLt)⟩
  · rw [other _ maskPlace (by simp [Unjudged, R.PART_STAT.mask, R.PART_STAT.state, R.PART_STAT.pver, R.PART_STAT.kind]), get_congr regs, up.mask]
  · rw [other _ epochPlace (by simp [Unjudged, R.PART_STAT.epoch, R.PART_STAT.state, R.PART_STAT.pver, R.PART_STAT.kind]), get_congr regs, up.epoch]

/-- What a training leaves of a site. -/
theorem partnerSiteTrained_clause (live : s.halfDead u.val = false) (valid : Bool) (ver : BitVec 8) (kind most : BitVec 16) (root : List Byte) (spdm : Bool) :
    ∃ t, exec (.partnerSiteTrained u x valid ver kind most root spdm) s = .next t ∧ SameMem s t ∧ t.seqs = s.seqs ∧
      t.get (R.PART_STAT.mask u.val) = (s.siteAgreed u.val x).1 ∧ t.get (R.PART_STAT.epoch u.val) = (s.get (R.PART_STAT.epoch u.val) + 1) % 2 ^ 32 ∧
      ((s.siteAgreed u.val x).1 = 0 → t.get (R.PART_STAT.state u.val) = 0 ∧ t.part u.val = Part.empty ∧ (t.log.head?.map LogEntry.code) = some E.LINK_DOWN) ∧
      ((s.siteAgreed u.val x).1 ≠ 0 → (s.get (R.PART_STAT.state u.val) ≠ 0 ∨ s.partnerFitted u.val = false) →
        t.get (R.PART_STAT.state u.val) = s.get (R.PART_STAT.state u.val) ∧ t.parts = s.parts) ∧
      ((s.siteAgreed u.val x).1 ≠ 0 → s.get (R.PART_STAT.state u.val) = 0 → s.partnerFitted u.val = true → t.get (R.PART_STAT.pver u.val) = ver.toNat ∧
        t.get (R.PART_STAT.kind u.val) = kind.toNat ∧ let p := s.get (R.PART_CTL.policy u.val)
        if valid = true ∧ ver = 1 ∧ p ≠ 0 ∧ (p = 2 → spdm = true ∧ root = s.partRoot u.val) then t.get (R.PART_STAT.state u.val) = 2
        else t.get (R.PART_STAT.state u.val) = 3 ∧ (t.log.head?.map LogEntry.code) = some E.LINK_PARTNER) := by
  have run := exec_partnerSiteTrained live (x := x) valid ver kind most root spdm
  have up := siteUp_trained s u x
  obtain ⟨maskPlace, -, epochPlace, -⟩ := sitePlace_stat u.isLt
  have epochApart : (R.PART_STAT.epoch u.val).a ≠ (R.PART_STAT.mask u.val).a ∧ (R.PART_STAT.epoch u.val).a ≠ (R.PART_STAT.state u.val).a := by
    simp [R.PART_STAT.epoch, R.PART_STAT.mask, R.PART_STAT.state]
  by_cases down : (s.siteAgreed u.val x).1 = 0
  · rw [if_pos down] at run
    obtain ⟨mem, seqs, mask, state, part, log, other⟩ := siteDown_facts (s.siteTrained u.val x) u.isLt
    exact ⟨_, run, up.mem.trans mem, seqs.trans up.seqs, mask.trans down.symm, (other _ epochPlace epochApart.1 epochApart.2).trans up.epoch,
      fun _ => ⟨state, part, log⟩, fun no => absurd down no, fun no => absurd down no⟩
  · rw [if_neg down] at run
    replace up := up.width (s.siteAgreed u.val x).1
    dsimp only at run
    generalize (s.siteTrained u.val x).siteWidth u.val (s.siteAgreed u.val x).1 = v at *
    rw [up.fitted, up.state] at run
    by_cases judge : s.partnerFitted u.val = true ∧ s.get (R.PART_STAT.state u.val) = 0
    · rw [if_pos judge] at run
      obtain ⟨state, fitted⟩ := And.intro judge.2 judge.1
      have accepted := up.accepted (valid := valid) (ver := ver) (kind := kind) (most := most) (root := root) (spdm := spdm)
      have yes := judgeSite_accepted u.isLt (s := v.setPart u.val (siteDie valid ver kind most root spdm))
      have no := judgeSite_refused u.isLt (s := v.setPart u.val (siteDie valid ver kind most root spdm))
      generalize (v.setPart u.val (siteDie valid ver kind most root spdm)).judgeSite u.val = w at *
      by_cases good : valid = true ∧ ver = 1 ∧ s.get (R.PART_CTL.policy u.val) ≠ 0 ∧ (s.get (R.PART_CTL.policy u.val) = 2 → spdm = true ∧ root = s.partRoot u.val)
      · obtain ⟨mem, seqs, mask, epoch, state', pver, kind'⟩ := up.judged (yes (accepted.2 good))
        exact ⟨w, run, mem, seqs, mask, epoch, fun no => absurd no down, fun _ no => absurd no (by simp [state, fitted]),
          fun _ _ _ => ⟨pver, kind', (if_pos good).symm ▸ state'⟩⟩
      · obtain ⟨judged, log⟩ := no (mt accepted.1 good)
        obtain ⟨mem, seqs, mask, epoch, state', pver, kind'⟩ := up.judged judged
        exact ⟨w, run, mem, seqs, mask, epoch, fun no => absurd no down, fun _ no => absurd no (by simp [state, fitted]),
          fun _ _ _ => ⟨pver, kind', (if_neg good).symm ▸ ⟨state', log⟩⟩⟩
    · rw [if_neg judge] at run
      refine ⟨v, run, up.mem, up.seqs, up.mask, up.epoch, fun no => absurd no down, fun _ _ => ⟨up.state, up.parts⟩, fun _ empty fitted => ?_⟩
      exact absurd ⟨fitted, empty⟩ judge

end

theorem partnerSiteLost_clause {s : State} {u : Fin 2} (some_ : s.get (R.PART_STAT.mask u.val) ≠ 0) : ∃ t, exec (.partnerSiteLost u) s = .next t ∧
    t.get (R.PART_STAT.mask u.val) = 0 ∧ t.get (R.PART_STAT.state u.val) = 0 ∧ t.part u.val = Part.empty ∧ SameMem s t ∧
    (t.log.head?.map LogEntry.code) = some E.LINK_DOWN := by
  obtain ⟨mem, -, mask, state, part, log, -⟩ := siteDown_facts s u.isLt
  exact ⟨_, congrArg Host.Outcome.next (if_neg some_), mask, state, part, mem, log⟩

/-! ## The policy of a site (R422, R427) -/

section Policy
variable {s : State} {m : Master} {u : Fin 2} {policy : BitVec 2} {en : Bool} {c : BitVec 6} {stage : BitVec 12}

/-- The fields that a policy's word writes beside the policy. -/
def siteWord (u : Nat) (en : Bool) (c : BitVec 6) (stage : BitVec 12) : List (Fld × Nat) :=
  [(R.PART_CTL.en u, b2n en), (R.PART_CTL.ctx u, c.toNat), (R.PART_CTL.stage u, stage.toNat)]

/-- The word written with policy `policy`. -/
def State.sitePolicy (s : State) (u policy : Nat) (en : Bool) (c : BitVec 6) (stage : BitVec 12) : State :=
  (s.puts (siteWord u en c stage)).put (R.PART_CTL.policy u) policy

/-- What the policy's owner writes. -/
def State.policyWritten (s : State) (u : Nat) (policy : BitVec 2) (en : Bool) (c : BitVec 6) (stage : BitVec 12) : State :=
  if policy = 3 then (s.puts (siteWord u en c stage)).cfgRange none (0x0017_1000 + 0x100 * u)
  else if (s.sitePolicy u policy.toNat en c stage).get (R.PART_STAT.state u) = 3 then (s.sitePolicy u policy.toNat en c stage).judgeSite u
  else s.sitePolicy u policy.toNat en c stage

theorem exec_partnerPolicyWrite (opened : s.Open) : exec (.partnerPolicyWrite m u policy en c stage) s = .next (
    if s.halfInReset u.val = true then s.raise E.LINK_HALF_DOWN none (atEntry (ldOfSite u.val)) (0x0017_1000 + 0x100 * u.val)
    else if (!s.owns m 4) = true then s.ownDrop m (0x0017_1000 + 0x100 * u.val)
    else s.policyWritten u.val policy en c stage) := congrArg Host.Outcome.next (gated_of_open opened _ _)

theorem siteWord_nodup (u : Nat) (en : Bool) (c : BitVec 6) (stage : BitVec 12) : ((siteWord u en c stage).map fun p => p.1.a).Nodup := by
  simp only [siteWord, List.map_cons, List.map_nil, List.nodup_cons, List.mem_cons, List.not_mem_nil, R.PART_CTL.en, R.PART_CTL.ctx, R.PART_CTL.stage]
  simp

theorem siteWord_get (s : State) (u : Nat) (en : Bool) (c : BitVec 6) (stage : BitVec 12) :
    (s.puts (siteWord u en c stage)).get (R.PART_CTL.en u) = b2n en ∧ (s.puts (siteWord u en c stage)).get (R.PART_CTL.ctx u) = c.toNat ∧
    (s.puts (siteWord u en c stage)).get (R.PART_CTL.stage u) = stage.toNat ∧
    ∀ g : Fld, g.a ≠ (R.PART_CTL.en u).a → g.a ≠ (R.PART_CTL.ctx u).a → g.a ≠ (R.PART_CTL.stage u).a → (s.puts (siteWord u en c stage)).get g = s.get g := by
  have written {p : Fld × Nat} (mem : p ∈ siteWord u en c stage) := puts_get_of_nodup s (siteWord_nodup u en c stage) mem
  refine ⟨(written (p := (R.PART_CTL.en u, b2n en)) List.mem_cons_self).trans (Nat.mod_eq_of_lt ?_),
    (written (p := (R.PART_CTL.ctx u, c.toNat)) (List.mem_cons_of_mem _ List.mem_cons_self)).trans (Nat.mod_eq_of_lt c.isLt),
    (written (p := (R.PART_CTL.stage u, stage.toNat)) (List.mem_cons_of_mem _ (List.mem_cons_of_mem _ List.mem_cons_self))).trans (Nat.mod_eq_of_lt stage.isLt),
    fun g one two three => puts_get_other s ?_⟩
  · show b2n en < 2
    cases en <;> decide
  · exact List.forall_mem_cons.2 ⟨one, List.forall_mem_cons.2 ⟨two, List.forall_mem_cons.2 ⟨three, List.forall_mem_nil _⟩⟩⟩

/-- What a write of the word leaves before the site is judged. -/
structure SiteWritten (s t : State) (u policy : Nat) (en : Bool) (c : BitVec 6) (stage : BitVec 12) : Prop where
  mem    : SameMem s t
  en     : t.get (R.PART_CTL.en u) = b2n en
  ctx    : t.get (R.PART_CTL.ctx u) = c.toNat
  stage  : t.get (R.PART_CTL.stage u) = stage.toNat
  policy : t.get (R.PART_CTL.policy u) = policy

theorem policy_apart (u : Nat) : (R.PART_CTL.policy u).a ≠ (R.PART_CTL.en u).a ∧ (R.PART_CTL.policy u).a ≠ (R.PART_CTL.ctx u).a ∧
    (R.PART_CTL.policy u).a ≠ (R.PART_CTL.stage u).a := by
  simp [R.PART_CTL.policy, R.PART_CTL.en, R.PART_CTL.ctx, R.PART_CTL.stage]

theorem siteWritten_sitePolicy (s : State) (u : Nat) (policy : BitVec 2) (en : Bool) (c : BitVec 6) (stage : BitVec 12) :
    SiteWritten s (s.sitePolicy u policy.toNat en c stage) u policy.toNat en c stage ∧ (s.sitePolicy u policy.toNat en c stage).parts = s.parts ∧
    ∀ g : Fld, SitePlace g → 8 * 0x171008 + 8 * 0x100 * u ≤ g.a → (s.sitePolicy u policy.toNat en c stage).get g = s.get g := by
  obtain ⟨hEn, hCtx, hStage, other⟩ := siteWord_get s u en c stage
  obtain ⟨mem, -, parts⟩ := puts_calm s (siteWord u en c stage)
  obtain ⟨one, two, three⟩ := policy_apart u
  unfold State.sitePolicy
  generalize s.puts (siteWord u en c stage) = v at *
  refine ⟨⟨mem.trans (sameMem_of_eq rfl rfl rfl rfl), (State.get_put_other _ _ _ _ one.symm).trans hEn, (State.get_put_other _ _ _ _ two.symm).trans hCtx,
    (State.get_put_other _ _ _ _ three.symm).trans hStage, (State.get_put_same ..).trans (Nat.mod_eq_of_lt policy.isLt)⟩, parts, fun g _ high => ?_⟩
  rw [State.get_put_other _ _ _ _ (by simp only [R.PART_CTL.policy]; omega), other] <;>
    simp only [R.PART_CTL.en, R.PART_CTL.ctx, R.PART_CTL.stage] <;> omega

theorem ctlPlace (site : u.val < 2) : (∀ g ∈ [R.PART_CTL.policy u.val, R.PART_CTL.en u.val, R.PART_CTL.ctx u.val, R.PART_CTL.stage u.val],
    SitePlace g ∧ Unjudged u.val g) := by
  simp only [List.forall_mem_cons, SitePlace, Unjudged, R.PART_CTL.policy, R.PART_CTL.en, R.PART_CTL.ctx, R.PART_CTL.stage, R.PART_STAT.state,
    R.PART_STAT.pver, R.PART_STAT.kind]
  exact ⟨by omega, by omega, by omega, by omega, by simp⟩

theorem SiteWritten.judged {t w : State} {p st : Nat} (written : SiteWritten s t u.val p en c stage) (judged : Judged t w u.val st) :
    SiteWritten s w u.val p en c stage := by
  obtain ⟨mem, hEn, hCtx, hStage, hPolicy⟩ := written
  have same (g : Fld) (is : g ∈ [R.PART_CTL.policy u.val, R.PART_CTL.en u.val, R.PART_CTL.ctx u.val, R.PART_CTL.stage u.val]) : w.get g = t.get g :=
    judged.other g (ctlPlace u.isLt g is).1 (ctlPlace u.isLt g is).2
  exact ⟨mem.trans judged.mem, (same _ (by simp)).trans hEn, (same _ (by simp)).trans hCtx, (same _ (by simp)).trans hStage, (same _ (by simp)).trans hPolicy⟩

theorem sitePolicy_state (s : State) (u : Fin 2) (policy : BitVec 2) (en : Bool) (c : BitVec 6) (stage : BitVec 12) :
    (s.sitePolicy u.val policy.toNat en c stage).get (R.PART_STAT.state u.val) = s.get (R.PART_STAT.state u.val) := by
  refine (siteWritten_sitePolicy s u.val policy en c stage).2.2 _ (sitePlace_stat u.isLt).2.1 ?_
  simp only [R.PART_STAT.state]
  omega

/-- Whether a site is accepted under a policy that has been written. -/
theorem sitePolicy_accepted (s : State) (u : Fin 2) (policy : BitVec 2) (en : Bool) (c : BitVec 6) (stage : BitVec 12) :
    (s.sitePolicy u.val policy.toNat en c stage).siteAccepted u.val ↔ ((s.part u.val).valid = true ∧ (s.part u.val).ver = 1 ∧ policy ≠ 0 ∧
      (policy = 2 → (s.part u.val).spdm = true ∧ (s.part u.val).root = s.partRoot u.val)) := by
  obtain ⟨written, parts, other⟩ := siteWritten_sitePolicy s u.val policy en c stage
  have root : (s.sitePolicy u.val policy.toNat en c stage).partRoot u.val = s.partRoot u.val := by
    refine partRoot_congr fun j small => other _ ?_ ?_ <;> simp only [SitePlace, R.PART_ROOT.digest] <;> omega
  have zero : policy.toNat = 0 ↔ policy = 0 := BitVec.toNat_inj (y := 0#2)
  have two : policy.toNat = 2 ↔ policy = 2 := BitVec.toNat_inj (y := 2#2)
  rw [State.siteAccepted, part_of_parts parts, written.policy, root, Ne, zero, two]

theorem partnerPolicyWrite_owner (opened : s.Open) (live : s.halfInReset u.val = false) (owner : s.owns m 4 = true) :
    ∃ t, exec (.partnerPolicyWrite m u policy en c stage) s = .next t ∧
      t.get (R.PART_CTL.en u.val) = b2n en ∧ t.get (R.PART_CTL.ctx u.val) = c.toNat ∧ t.get (R.PART_CTL.stage u.val) = stage.toNat ∧ SameMem s t ∧
      t.get (R.PART_CTL.policy u.val) = (if policy = 3 then s.get (R.PART_CTL.policy u.val) else policy.toNat) ∧
      (policy = 3 → (t.log.head?.map LogEntry.code) = some E.CFG_RANGE) ∧
      let x := s.part u.val
      t.get (R.PART_STAT.state u.val) = (if policy ≠ 3 ∧ s.get (R.PART_STAT.state u.val) = 3 ∧ x.valid = true ∧ x.ver = 1 ∧ policy ≠ 0 ∧
        (policy = 2 → x.spdm = true ∧ x.root = s.partRoot u.val) then 2 else s.get (R.PART_STAT.state u.val)) := by
  have run : exec (.partnerPolicyWrite m u policy en c stage) s = .next (s.policyWritten u.val policy en c stage) :=
    (exec_partnerPolicyWrite opened).trans (congrArg _ ((if_neg (by rw [live]; decide)).trans (if_neg (by rw [owner]; decide))))
  unfold State.policyWritten at run
  by_cases reserved : policy = 3
  · rw [if_pos reserved] at run
    obtain ⟨hEn, hCtx, hStage, other⟩ := siteWord_get s u.val en c stage
    have mem := (puts_calm s (siteWord u.val en c stage)).1
    obtain ⟨one, two, three⟩ := policy_apart u.val
    have state : (s.puts (siteWord u.val en c stage)).get (R.PART_STAT.state u.val) = s.get (R.PART_STAT.state u.val) := by
      refine other _ ?_ ?_ ?_ <;> simp only [R.PART_STAT.state, R.PART_CTL.en, R.PART_CTL.ctx, R.PART_CTL.stage] <;> omega
    have hPolicy := other _ one two three
    generalize s.puts (siteWord u.val en c stage) = v at *
    have low (g : Fld) (place : SitePlace g) : (v.cfgRange none (0x0017_1000 + 0x100 * u.val)).get g = v.get g := raise_get v place.low
    have ctl (g : Fld) (is : g ∈ [R.PART_CTL.policy u.val, R.PART_CTL.en u.val, R.PART_CTL.ctx u.val, R.PART_CTL.stage u.val]) := low g (ctlPlace u.isLt g is).1
    refine ⟨_, run, (ctl _ (by simp)).trans hEn, (ctl _ (by simp)).trans hCtx, (ctl _ (by simp)).trans hStage,
      mem.trans (sameMem_of_unlogged (cfgRange_unlogged ..)), ?_, fun _ => log_code_of_raise, ?_⟩
    · rw [if_pos reserved]
      exact (ctl _ (by simp)).trans hPolicy
    · dsimp only
      rw [if_neg fun all => all.1 reserved]
      exact (low _ (sitePlace_stat u.isLt).2.1).trans state
  · rw [if_neg reserved, sitePolicy_state] at run
    have written := (siteWritten_sitePolicy s u.val policy en c stage).1
    have accepted := sitePolicy_accepted s u policy en c stage
    have state := sitePolicy_state s u policy en c stage
    have yes := judgeSite_accepted u.isLt (s := s.sitePolicy u.val policy.toNat en c stage)
    have no := judgeSite_refused u.isLt (s := s.sitePolicy u.val policy.toNat en c stage)
    by_cases judge : s.get (R.PART_STAT.state u.val) = 3
    · rw [if_pos judge] at run
      generalize s.sitePolicy u.val policy.toNat en c stage = v at *
      by_cases good : v.siteAccepted u.val
      · have judged := yes good
        obtain ⟨mem, hEn, hCtx, hStage, hPolicy⟩ := written.judged judged
        exact ⟨_, run, hEn, hCtx, hStage, mem, (if_neg reserved).symm ▸ hPolicy, fun is => absurd is reserved,
          judged.state.trans (if_pos ⟨reserved, judge, accepted.1 good⟩).symm⟩
      · have judged := (no good).1
        obtain ⟨mem, hEn, hCtx, hStage, hPolicy⟩ := written.judged judged
        exact ⟨_, run, hEn, hCtx, hStage, mem, (if_neg reserved).symm ▸ hPolicy, fun is => absurd is reserved,
          (judged.state.trans judge.symm).trans (if_neg fun all => good (accepted.2 all.2.2)).symm⟩
    · rw [if_neg judge] at run
      obtain ⟨mem, hEn, hCtx, hStage, hPolicy⟩ := written
      exact ⟨_, run, hEn, hCtx, hStage, mem, (if_neg reserved).symm ▸ hPolicy, fun is => absurd is reserved,
        state.trans (if_neg fun all => judge all.2.1).symm⟩

theorem partnerPolicyWrite_other (opened : s.Open) (live : s.halfInReset u.val = false) (owner : s.owns m 4 = false) :
    ∃ t, exec (.partnerPolicyWrite m u policy en c stage) s = .next t ∧ SameMem s t ∧
      t.get (R.PART_CTL.policy u.val) = s.get (R.PART_CTL.policy u.val) ∧ t.get (R.PART_CTL.en u.val) = s.get (R.PART_CTL.en u.val) ∧
      (t.log.head?.map LogEntry.code) = some E.CFG_OWNER := by
  have run : exec (.partnerPolicyWrite m u policy en c stage) s = .next (s.ownDrop m (0x0017_1000 + 0x100 * u.val)) :=
    (exec_partnerPolicyWrite opened).trans (congrArg _ ((if_neg (by rw [live]; decide)).trans (if_pos (by rw [owner]; rfl))))
  refine ⟨_, run, ownDrop_sameMem .., ownDrop_get_low s m _ ?_, ownDrop_get_low s m _ ?_, log_code_of_raise⟩ <;>
    simp only [R.PART_CTL.policy, R.PART_CTL.en] <;> omega

theorem partnerPolicyWrite_down (opened : s.Open) (down : s.halfInReset u.val = true) :
    ∃ t, exec (.partnerPolicyWrite m u policy en c stage) s = .next t ∧ SameMem s t ∧ t.parts = s.parts ∧
      (∀ f ∈ [R.PART_CTL.policy u.val, R.PART_CTL.en u.val, R.PART_CTL.ctx u.val, R.PART_CTL.stage u.val, R.PART_STAT.state u.val], t.get f = s.get f) ∧
      (t.log.head?.map LogEntry.code) = some E.LINK_HALF_DOWN := by
  have run : exec (.partnerPolicyWrite m u policy en c stage) s =
      .next (s.raise E.LINK_HALF_DOWN none (atEntry (ldOfSite u.val)) (0x0017_1000 + 0x100 * u.val)) :=
    (exec_partnerPolicyWrite opened).trans (congrArg _ (if_pos down))
  have same := raise_unlogged s E.LINK_HALF_DOWN none (atEntry (ldOfSite u.val)) (0x0017_1000 + 0x100 * u.val)
  refine ⟨_, run, sameMem_of_unlogged same, (congrArg State.parts same :), fun f mem => raise_get s ?_, log_code_of_raise⟩
  have place : ∀ g ∈ [R.PART_CTL.policy u.val, R.PART_CTL.en u.val, R.PART_CTL.ctx u.val, R.PART_CTL.stage u.val, R.PART_STAT.state u.val],
      g.a < 8 * 0x3e00000 := by
    simp only [List.forall_mem_cons, R.PART_CTL.policy, R.PART_CTL.en, R.PART_CTL.ctx, R.PART_CTL.stage, R.PART_STAT.state]
    exact ⟨by omega, by omega, by omega, by omega, by omega, by simp⟩
  exact place f mem

end Policy

/-! ## Requests of an admitted die (R423) -/

section Request
variable {s : State} {u : Fin 2}

theorem exec_partnerRequest_off (off : s.get (R.PART_STAT.state u.val) ≠ 2) (r : PartReq) : exec (.partnerRequest u r) s = .next s :=
  congrArg Host.Outcome.next (if_pos off)

theorem exec_partnerRequest_disabled (admitted : s.get (R.PART_STAT.state u.val) = 2) (off : s.get (R.PART_CTL.en u.val) = 0) (r : PartReq) :
    exec (.partnerRequest u r) s = .next (s.raise E.LINK_PARTNER none (atSite u.val) u.val) :=
  congrArg Host.Outcome.next ((if_neg (not_not.2 admitted)).trans (if_pos (flag_eq_false off)))

variable (on : s.get (R.PART_STAT.state u.val) = 2 ∧ s.get (R.PART_CTL.en u.val) = 1)
include on

theorem exec_partnerRequest (r : PartReq) : exec (.partnerRequest u r) s = .next (match s.siteDo u.val r with
    | some t => t
    | none => if 256 ≤ (s.part u.val).wait.length then s else s.setPart u.val { s.part u.val with wait := (s.part u.val).wait ++ [r] }) := by
  obtain ⟨admitted, enabled⟩ := on
  exact congrArg Host.Outcome.next ((if_neg (not_not.2 admitted)).trans (if_neg (by rw [flag_eq_true enabled]; decide)))

theorem exec_partnerRequest_done {r : PartReq} {t : State} (done : s.siteDo u.val r = some t) : exec (.partnerRequest u r) s = .next t := by
  rw [exec_partnerRequest on, done]

theorem exec_partnerRequest_waits {r : PartReq} (waits : s.siteDo u.val r = none) (room : (s.part u.val).wait.length < 256) :
    exec (.partnerRequest u r) s = .next (s.setPart u.val { s.part u.val with wait := (s.part u.val).wait ++ [r] }) := by
  rw [exec_partnerRequest on, waits]
  exact congrArg Host.Outcome.next (if_neg (not_le.2 room))

end Request

/-! ### Reads and writes -/

/-- What leaves the block is only added to by a state that comes later. -/
def OutGrows (s t : State) : Prop := s.out <:+ t.out

theorem OutGrows.refl (s : State) : OutGrows s s := List.suffix_refl _

theorem OutGrows.trans {s t u : State} (first : OutGrows s t) (second : OutGrows t u) : OutGrows s u := List.IsSuffix.trans first second

theorem OutGrows.of_out {s w t : State} (grows : OutGrows w t) (same : w.out = s.out) : OutGrows s t := by
  unfold OutGrows
  rw [← same]
  exact grows

theorem OutGrows.mem {s t : State} (grows : OutGrows s t) {o : Out} (mem : o ∈ s.out) : o ∈ t.out := List.IsSuffix.mem mem grows

theorem outGrows_foldl {α : Type} {f : State → α → State} (grows : ∀ s a, OutGrows s (f s a)) (l : List α) (s : State) : OutGrows s (l.foldl f s) := by
  induction l generalizing s with
  | nil => exact OutGrows.refl s
  | cons a l ih => exact (grows s a).trans (ih _)

theorem outGrows_flit (s : State) (i : Nat) (hi : Bool) (kind n : Nat) : OutGrows s (s.flit i hi kind n) := List.suffix_cons _ _

theorem outGrows_flits (s : State) (kind n x : Nat) (links : List Nat) : OutGrows s (s.flits kind n x links) := by
  have grows (p : State × Nat) : OutGrows p.1 (links.foldl (fun (p : State × Nat) i =>
      (p.1.flit i (decide (spnDie i true = p.2)) kind n, spnDie i !(decide (spnDie i true = p.2)))) p).1 := by
    induction links generalizing p with
    | nil => exact OutGrows.refl _
    | cons i links ih => exact (outGrows_flit p.1 i _ kind n).trans (ih (_, _))
  exact grows (s, x)

theorem outGrows_sendPkt (s : State) (src use x y : Nat) : OutGrows s (s.sendPkt src use x y) := by
  unfold State.sendPkt
  split
  · exact OutGrows.refl s
  · dsimp only
    exact OutGrows.of_out (s := s) (outGrows_flits ..) rfl

theorem outGrows_ackPkt (s : State) (src use x y : Nat) : OutGrows s (s.ackPkt src use x y) := by
  unfold State.ackPkt
  split
  · exact OutGrows.refl s
  · next p _ =>
    dsimp only
    split
    · exact OutGrows.refl s
    · refine OutGrows.trans ?_ (outGrows_flits ..)
      split
      · exact OutGrows.of_out (s := s) (outGrows_flits ..) rfl
      · exact OutGrows.refl s

theorem outGrows_crossFrom (s : State) (src x a n : Nat) : OutGrows s (s.crossFrom src x a n) :=
  (outGrows_foldl (fun _ _ => outGrows_sendPkt ..) _ s).trans (outGrows_foldl (fun _ _ => outGrows_ackPkt ..) _ _)

theorem crossFrom_unrouted (s : State) (src x a n : Nat) : (s.crossFrom src x a n).unrouted = s.unrouted :=
  (foldl_keeps State.unrouted _ (fun _ _ => ackPkt_unrouted ..) _ _).trans (foldl_keeps State.unrouted _ (fun _ _ => sendPkt_unrouted ..) _ s)

theorem siteAccess_go {s : State} {u a n : Nat} {wr : Bool} (may : s.permits (s.get (R.PART_CTL.ctx u)) a n wr = true) (reach : s.refused a n = [])
    (go : State → State) : s.siteAccess u a n wr go = (go s).crossFrom (97 + u) (ldOfSite u) a n := by
  unfold State.siteAccess
  dsimp only
  rw [may, reach]
  rfl

theorem siteAccess_denied {s : State} {u a n : Nat} {wr : Bool} (may : s.permits (s.get (R.PART_CTL.ctx u)) a n wr = false) (go : State → State) :
    s.siteAccess u a n wr go = (s.permLog (ldOfSite u) (s.get (R.PART_CTL.ctx u)) a n 6 wr).emit (.site u 2 [E.SEC_PERM, a]) :=
  if_pos (by rw [may]; rfl)

theorem siteAccess_down {s : State} {u a n x : Nat} {xs : List Nat} {wr : Bool} (may : s.permits (s.get (R.PART_CTL.ctx u)) a n wr = true)
    (down : s.refused a n = x :: xs) (go : State → State) : s.siteAccess u a n wr go = s.siteRefuse u (exc ((s.unavailable x).getD 0) x) := by
  unfold State.siteAccess
  dsimp only
  rw [may, down]
  rfl

section Access
variable {s : State} {u : Fin 2} (on : s.get (R.PART_STAT.state u.val) = 2 ∧ s.get (R.PART_CTL.en u.val) = 1)
include on

/-- A read that is let through. -/
theorem exec_partnerRead {a : BitVec 48} {n : BitVec 13} (may : s.permits (s.get (R.PART_CTL.ctx u.val)) a.toNat n.toNat false = true)
    (reach : s.refused a.toNat n.toNat = []) : exec (.partnerRequest u (.read a n)) s = .next (((s.noteUse (some (s.get (R.PART_CTL.ctx u.val))) a.toNat n.toNat).emit
      (if (s.readBad a.toNat n.toNat).isEmpty = true then .site u.val 0 ((s.bytes a.toNat n.toNat).map BitVec.toNat)
        else .site u.val 2 [E.SEQ_HBM_ECC, a.toNat])).crossFrom (97 + u.val) (ldOfSite u.val) a.toNat n.toNat) :=
  exec_partnerRequest_done on (congrArg some (siteAccess_go may reach _))

theorem partnerRead_clean {a : BitVec 48} {n : BitVec 13} (may : s.permits (s.get (R.PART_CTL.ctx u.val)) a.toNat n.toNat false = true)
    (reach : s.refused a.toNat n.toNat = []) (clean : s.readBad a.toNat n.toNat = []) : exec (.partnerRequest u (.read a n)) s =
      .next (((s.fixSoft a.toNat n.toNat).emit (.site u.val 0 ((s.bytes a.toNat n.toNat).map BitVec.toNat))).crossFrom (97 + u.val) (ldOfSite u.val)
        a.toNat n.toNat) := by
  rw [exec_partnerRead on may reach, noteUse_of_readBad clean, clean]
  rfl

theorem partnerRead_bad {a : BitVec 48} {n : BitVec 13} (may : s.permits (s.get (R.PART_CTL.ctx u.val)) a.toNat n.toNat false = true)
    (reach : s.refused a.toNat n.toNat = []) (bad : s.readBad a.toNat n.toNat ≠ []) : ∃ t, exec (.partnerRequest u (.read a n)) s = .next t ∧
      (∀ x, t.byte x = s.byte x) ∧ Out.site u.val 2 [E.SEQ_HBM_ECC, a.toNat] ∈ t.out := by
  have run := exec_partnerRead on may reach
  rw [if_neg (mt List.isEmpty_iff.1 bad)] at run
  have mem := noteUse_mem s (some (s.get (R.PART_CTL.ctx u.val))) a.toNat n.toNat
  generalize s.noteUse (some (s.get (R.PART_CTL.ctx u.val))) a.toNat n.toNat = v at *
  refine ⟨_, run, fun x => ?_, (outGrows_crossFrom ..).mem List.mem_cons_self⟩
  rw [(sameMem_of_unrouted (crossFrom_unrouted ..)).1 x]
  show v.byte x = s.byte x
  rw [State.byte, mem, State.byte]

theorem partnerWrite_clean {a : BitVec 48} {data : List Byte} (may : s.permits (s.get (R.PART_CTL.ctx u.val)) a.toNat data.length true = true)
    (reach : s.refused a.toNat data.length = []) (clean : s.badIn a.toNat data.length = []) : ∃ t, exec (.partnerRequest u (.write a data)) s = .next t ∧
      Out.site u.val 1 [0] ∈ t.out ∧ (∀ i, i < data.length → t.byte (a.toNat + i) = data.getD i 0) ∧ SameMemBut s t a.toNat data.length ∧ t.regs = s.regs := by
  have whole : s.writeBad a.toNat data.length = false := by rw [State.writeBad, clean, List.any_nil]
  have run : exec (.partnerRequest u (.write a data)) s =
      .next (((s.write a.toNat data).emit (.site u.val 1 [0])).crossFrom (97 + u.val) (ldOfSite u.val) a.toNat data.length) := by
    refine exec_partnerRequest_done on (congrArg some ((siteAccess_go may reach _).trans ?_))
    dsimp only
    rw [mergeNote_of_badIn clean, whole]
    rfl
  have same := crossFrom_unrouted ((s.write a.toNat data).emit (.site u.val 1 [0])) (97 + u.val) (ldOfSite u.val) a.toNat data.length
  have mem := (sameMem_of_unrouted same).1
  have write (some_ : 0 < data.length) := write_byte (sound_of_badIn clean some_)
  refine ⟨_, run, (outGrows_crossFrom ..).mem List.mem_cons_self, fun i lt => ?_, fun x out => ?_, (congrArg State.regs same :).trans rfl⟩
  · rw [mem]
    show (s.write a.toNat data).byte _ = _
    rw [write (by omega), if_pos (by omega), Nat.add_sub_cancel_left, List.getD_eq_getElem _ _ lt, List.getD_eq_getElem _ _ lt]
  · rw [mem]
    show (s.write a.toNat data).byte _ = _
    rw [write_byte_keep, if_neg (by omega)]

omit on in
theorem permLog_fields (s : State) (ld : Nat) {c : Nat} (ctx : c < 64) (a n kind : Nat) (wr : Bool) :
    (s.permLog ld c a n kind wr).get R.SEC_PERMLOG0.addr = s.firstRefused c a n wr % 2 ^ 48 ∧ (s.permLog ld c a n kind wr).get R.SEC_PERMLOG1.ctx = c := by
  have apart (v w x y : Nat) : ([(R.SEC_PERMLOG0.addr, v), (R.SEC_PERMLOG1.kind, w), (R.SEC_PERMLOG1.write, x), (R.SEC_PERMLOG1.ctx, y)].map fun p => p.1.a).Nodup :=
    (by decide : [R.SEC_PERMLOG0.addr.a, R.SEC_PERMLOG1.kind.a, R.SEC_PERMLOG1.write.a, R.SEC_PERMLOG1.ctx.a].Nodup)
  have written {p : Fld × Nat} := puts_get_of_nodup s (apart (s.firstRefused c a n wr) kind (b2n wr) c) (p := p)
  unfold State.permLog
  dsimp only
  refine ⟨?_, ?_⟩
  · rw [raise_get _ (by decide), State.get_count_other _ _ _ _ (by decide)]
    exact written (p := (R.SEC_PERMLOG0.addr, _)) List.mem_cons_self
  · rw [raise_get _ (by decide), State.get_count_other _ _ _ _ (by decide)]
    exact (written (p := (R.SEC_PERMLOG1.ctx, c)) (by simp)).trans (Nat.mod_eq_of_lt ctx)

omit on in
theorem siteRefuse_facts (s : State) (u : Nat) (e : Exc) : SameMem s (s.siteRefuse u e) ∧ (s.siteRefuse u e).flumes = s.flumes ∧
    (s.siteRefuse u e).out.head? = some (.site u 2 [e.code, e.info]) := by
  have same := raise_unlogged s e.code (some (s.get (R.PART_CTL.ctx u))) (atLd (if flmCode e.code then ldOfFlume e.info else ldOfSite u)) e.info
  exact ⟨sameMem_emit (sameMem_of_unlogged same) _, (congrArg State.flumes same :), rfl⟩

omit on in
theorem siteDo_access (s : State) (u : Nat) {a : BitVec 48} {n : BitVec 13} {data : List Byte} {r : PartReq} {k : Nat} {wr : Bool}
    (is : r = .read a n ∧ k = n.toNat ∧ wr = false ∨ r = .write a data ∧ k = data.length ∧ wr = true) :
    ∃ go, s.siteDo u r = some (s.siteAccess u a.toNat k wr go) := by
  rcases is with ⟨rfl, rfl, rfl⟩ | ⟨rfl, rfl, rfl⟩
  · unfold State.siteDo
    exact ⟨_, rfl⟩
  · unfold State.siteDo
    exact ⟨_, rfl⟩

/-- A read or write of device addresses, whichever it is. -/
theorem partnerAccess_clause (a : BitVec 48) (n : BitVec 13) (data : List Byte) (r : PartReq) (k : Nat) (wr : Bool)
    (is : r = .read a n ∧ k = n.toNat ∧ wr = false ∨ r = .write a data ∧ k = data.length ∧ wr = true) : ∃ t, exec (.partnerRequest u r) s = .next t ∧
      (s.permits (s.get (R.PART_CTL.ctx u.val)) a.toNat k wr = false → SameMem s t ∧ (t.log.head?.map LogEntry.code) = some E.SEC_PERM ∧
        t.get R.SEC_PERMLOG0.addr = s.firstRefused (s.get (R.PART_CTL.ctx u.val)) a.toNat k wr % 2 ^ 48 ∧
        t.get R.SEC_PERMLOG1.ctx = s.get (R.PART_CTL.ctx u.val)) ∧
      (∀ x xs, s.permits (s.get (R.PART_CTL.ctx u.val)) a.toNat k wr = true → s.refused a.toNat k = x :: xs → SameMem s t ∧
        t.out.head? = some (.site u.val 2 [(s.unavailable x).getD 0, x])) := by
  have access : ∃ go, exec (.partnerRequest u r) s = .next (s.siteAccess u.val a.toNat k wr go) := by
    obtain ⟨go, done⟩ := siteDo_access s u.val is
    exact ⟨go, exec_partnerRequest_done on done⟩
  obtain ⟨go, run⟩ := access
  refine ⟨_, run, fun denied => ?_, fun x xs may down => ?_⟩
  · rw [siteAccess_denied denied]
    obtain ⟨addr, ctx⟩ := permLog_fields s (ldOfSite u.val) (State.get_lt s (R.PART_CTL.ctx u.val)) a.toNat k 6 wr
    have mem := sameMem_of_unlogged (permLog_unlogged s (ldOfSite u.val) (s.get (R.PART_CTL.ctx u.val)) a.toNat k 6 wr)
    have code := permLog_code s (ldOfSite u.val) (s.get (R.PART_CTL.ctx u.val)) a.toNat k 6 wr
    generalize s.permLog (ldOfSite u.val) (s.get (R.PART_CTL.ctx u.val)) a.toNat k 6 wr = v at *
    exact ⟨sameMem_emit mem _, code, addr, ctx⟩
  · rw [siteAccess_down may down]
    obtain ⟨mem, -, out⟩ := siteRefuse_facts s u.val (exc ((s.unavailable x).getD 0) x)
    exact ⟨mem, out⟩

end Access

/-! ### Flume operations -/

section Flume
variable {s : State} {u : Fin 2} (on : s.get (R.PART_STAT.state u.val) = 2 ∧ s.get (R.PART_CTL.en u.val) = 1)
include on

theorem partnerPush_refused {f : BitVec 13} {e : Exc}
    (bad : s.outCheck (s.get (R.PART_CTL.ctx u.val)) (s.get (R.PART_CTL.stage u.val)) f.toNat true = some e) :
    ∃ t, exec (.partnerRequest u (.push f)) s = .next t ∧ SameMem s t ∧ t.flumes = s.flumes ∧ t.out.head? = some (.site u.val 2 [e.code, e.info]) := by
  refine ⟨_, exec_partnerRequest_done on (t := s.siteRefuse u.val e) ?_, siteRefuse_facts s u.val e⟩
  unfold State.siteDo
  dsimp only
  rw [bad]

theorem partnerPush_done {f : BitVec 13} (good : s.outCheck (s.get (R.PART_CTL.ctx u.val)) (s.get (R.PART_CTL.stage u.val)) f.toNat true = none)
    (room : s.canPush f.toNat = true) : exec (.partnerRequest u (.push f)) s =
      .next ((s.reserve (partOwner u.val) f.toNat).1.emit (.site u.val 3 [(s.reserve (partOwner u.val) f.toNat).2])) := by
  refine exec_partnerRequest_done on ?_
  unfold State.siteDo
  dsimp only
  rw [good]
  exact if_pos room

theorem partnerPush_waits {f : BitVec 13} (good : s.outCheck (s.get (R.PART_CTL.ctx u.val)) (s.get (R.PART_CTL.stage u.val)) f.toNat true = none)
    (full : s.canPush f.toNat = false) (held : s.heldAtOnce f.toNat true = none) (few : (s.part u.val).wait.length < 256) :
    exec (.partnerRequest u (.push f)) s = .next (s.setPart u.val { s.part u.val with wait := (s.part u.val).wait ++ [.push f] }) := by
  refine exec_partnerRequest_waits on ?_ few
  unfold State.siteDo
  dsimp only
  rw [good, held]
  exact if_neg (by rw [full]; decide)

theorem partnerPop_done {f : BitVec 13} {x : FlmRec} (good : s.outCheck (s.get (R.PART_CTL.ctx u.val)) (s.get (R.PART_CTL.stage u.val)) f.toNat false = none)
    (hold : s.holdCheck (partOwner u.val) f.toNat = none) (ready : (s.flume f.toNat).readyHead = some x) : exec (.partnerRequest u (.pop f)) s =
      .next ((s.takeRec (partOwner u.val) f.toNat).emit (.site u.val 3 (s.slotAddr f.toNat x.spill x.slot :: x.hdr.bytes.map BitVec.toNat))) := by
  have free : s.holdFull (partOwner u.val) f.toNat = none := by
    rw [State.holdCheck, ready] at hold
    exact hold
  refine exec_partnerRequest_done on ?_
  unfold State.siteDo
  dsimp only
  rw [good, free, ready]
  rfl

theorem partnerRel_done {f : BitVec 13} (good : s.outCheck (s.get (R.PART_CTL.ctx u.val)) (s.get (R.PART_CTL.stage u.val)) f.toNat false = none)
    (held : (s.flume f.toNat).oldestHeld (partOwner u.val) ≠ none) : exec (.partnerRequest u (.rel f)) s =
      .next ((s.releaseRec (partOwner u.val) f.toNat).emit (.site u.val 3 [])) := by
  have some_ : ((s.flume f.toNat).oldestHeld (partOwner u.val)).isNone = false := by
    rw [Bool.eq_false_iff]
    exact mt Option.isNone_iff_eq_none.1 held
  refine exec_partnerRequest_done on ?_
  unfold State.siteDo
  dsimp only
  rw [good, some_]
  rfl

theorem partnerCmt_done {f : BitVec 13} {hdr : BitVec 512}
    (good : s.outCmtCheck (s.get (R.PART_CTL.ctx u.val)) (s.get (R.PART_CTL.stage u.val)) (partOwner u.val) f.toNat (Hdr.ofNat hdr.toNat) = none) :
    exec (.partnerRequest u (.cmt f hdr)) s = .next (((s.sendCommit (partOwner u.val) f.toNat (Hdr.ofNat hdr.toNat)).sendPkt (laneOf (partOwner u.val)) 3
      (ldOfSite u.val) (ldOfFlume f.toNat)).emit (.site u.val 3 [])) := by
  refine exec_partnerRequest_done on ?_
  unfold State.siteDo
  dsimp only
  rw [good]

end Flume

/-- Settles O30, command by command: a site's training and loss, the write of its policy, and its die's requests. -/
theorem partnerSites : Obligations.PartnerSites := by
  intro s u
  refine ⟨fun x valid ver kind most root spdm => ⟨fun c cs agreed => ?_, fun none_ => ?_,
      fun dead => exec_partnerSiteTrained_dead dead valid ver kind most root spdm,
      fun live => partnerSiteTrained_clause live valid ver kind most root spdm⟩,
    fun none_ => congrArg Host.Outcome.next (if_pos none_), fun some_ => partnerSiteLost_clause some_,
    fun m policy en c stage opened down => partnerPolicyWrite_down opened down,
    fun m policy en c stage opened live => ⟨fun owner => partnerPolicyWrite_owner opened live owner, fun other => partnerPolicyWrite_other opened live other⟩,
    fun off r => exec_partnerRequest_off off r, fun admitted off r => exec_partnerRequest_disabled admitted off r, fun admitted enabled => ?_⟩
  · rw [agreed]
    exact siteAgree_agreed u.val _ 3 1 _ (x := ⟨some (x.own, c), some (x.own, _)⟩) rfl rfl rfl rfl ((BitVec.toNat_ofNat ..).trans (Nat.mod_mod _ _)) cs
  · rw [none_]
    exact siteAgree_nil ..
  · have on := And.intro admitted enabled
    exact ⟨fun a n may reach => ⟨fun clean => partnerRead_clean on may reach clean, fun bad => partnerRead_bad on may reach bad⟩,
      fun a data may reach clean => partnerWrite_clean on may reach clean,
      fun a n data r k wr is => partnerAccess_clause on a n data r k wr is,
      fun f => ⟨fun e bad => partnerPush_refused on bad, fun good room => partnerPush_done on good room,
        fun good full held few => partnerPush_waits on good full held few, fun x good hold ready => partnerPop_done on good hold ready,
        fun good held => partnerRel_done on good held, fun hdr good => partnerCmt_done on good⟩⟩

end Sys2Proof.Machine

namespace Sys2Proof.Machine

-- One proof at a time: threads that wait for each other hold memory.
set_option Elab.async false

/-! ## Records sent again over a channel (R149, R406) -/

/-- What is left of a state beside what the sending of a record changes. -/
def State.unsent (s : State) : State := { s.unnoted with links := [] }

theorem unsent_of_unlinked {s t : State} (same : t.unlinked = s.unlinked) : t.unsent = s.unsent := (congrArg State.unsent same :)

theorem unsent_of_unnoted {s t : State} (same : t.unnoted = s.unnoted) : t.unsent = s.unsent := congrArg (fun u : State => { u with links := [] }) same

theorem noteRead_unnoted (s : State) (ctx : Option Nat) (a n : Nat) : (s.noteRead ctx a n).unnoted = s.unnoted :=
  (foldl_keeps State.unnoted _ (fun _ _ => noteBad_unnoted ..) _ _).trans (unnoted_of_unfixed (fixSoft_unfixed s a n))

/-- A field that neither a note of an access nor a count of corrected errors writes. -/
theorem noteRead_get (s : State) (ctx : Option Nat) (a n : Nat) {g : Fld} (apart : Unnoted g) (soft : g.a % 64 ≠ 32) : (s.noteRead ctx a n).get g = s.get g :=
  (foldl_keeps (fun s : State => s.get g) _ (fun s u => noteBad_keeps s ctx u apart) _ _).trans (fixSoft_get s a n soft)

/-- The frames of a record, once the place of its payload has been read. -/
def State.recSent (s : State) (f : Nat) (r : FlmRec) (t : State) : State :=
  let ch := s.get (R.FLM_DESC.chan f)
  let k := s.get (R.SKW_CHAN.link ch)
  let peer := s.get (R.SKW_CHAN.peer ch)
  let a := s.slotAddr f r.spill r.slot
  (List.range (ceilDiv r.hdr.len 248)).foldl
    (fun s i => s.skwSend k 2 ftDATA (peer :: (s.bytes (a + 248 * i) (min 248 (r.hdr.len - 248 * i))).map BitVec.toNat))
    (t.skwSend k 2 ftHDR (peer :: r.hdr.bytes.map BitVec.toNat))

theorem recFrames_eq (s : State) (f : Nat) (r : FlmRec) : s.recFrames f r =
    s.recSent f r (s.noteRead (some (s.get (R.FLM_DESC.ctx f))) (s.slotAddr f r.spill r.slot) r.hdr.len) := rfl

theorem recSent_unlinked (s : State) (f : Nat) (r : FlmRec) (t : State) : (s.recSent f r t).unlinked = t.unlinked :=
  (foldl_keeps State.unlinked _ (fun _ _ => skwSend_unlinked ..) _ _).trans (skwSend_unlinked ..)

theorem recFrames_unsent (s : State) (f : Nat) (r : FlmRec) : (s.recFrames f r).unsent = s.unsent := by
  rw [recFrames_eq]
  exact (unsent_of_unlinked (recSent_unlinked ..)).trans (unsent_of_unnoted (noteRead_unnoted ..))

theorem recFrames_get (s : State) (f : Nat) (r : FlmRec) {g : Fld} (apart : Unnoted g) (soft : g.a % 64 ≠ 32) : (s.recFrames f r).get g = s.get g := by
  rw [recFrames_eq, get_of_unlinked (recSent_unlinked ..), noteRead_get s _ _ _ apart soft]

theorem recsFrames_unsent (s : State) (f : Nat) (l : List FlmRec) : (l.foldl (fun s r => s.recFrames f r) s).unsent = s.unsent :=
  foldl_keeps State.unsent _ (fun s r => recFrames_unsent s f r) l s

theorem recsFrames_get (s : State) (f : Nat) (l : List FlmRec) {g : Fld} (apart : Unnoted g) (soft : g.a % 64 ≠ 32) :
    (l.foldl (fun s r => s.recFrames f r) s).get g = s.get g :=
  foldl_keeps (fun s : State => s.get g) _ (fun s r => recFrames_get s f r apart soft) l s

/-- Records whose payloads no bad unit touches. -/
def State.cleanRecs (s : State) (f : Nat) (l : List FlmRec) : Prop := ∀ r ∈ l, s.badIn (s.slotAddr f r.spill r.slot) r.hdr.len = []

theorem badIn_of_sameMem {s t : State} (same : SameMem s t) (a n : Nat) : t.badIn a n = s.badIn a n := by
  obtain ⟨-, bad, plist, link⟩ := same
  rw [State.badIn, bad, plist, link, State.badIn]

theorem fixSoft_sameMem (s : State) (a n : Nat) : SameMem s (s.fixSoft a n) := by
  have same := fixSoft_unfixed s a n
  exact sameMem_of_eq (congrArg State.mem same :) (congrArg State.bad same :) (congrArg State.plist same :) (congrArg State.linkErr same :)

theorem slotAddr_of_unlinked {s t : State} (same : t.unlinked = s.unlinked) (f i : Nat) (sp : Bool) : t.slotAddr f sp i = s.slotAddr f sp i := by
  simp only [State.slotAddr, get_of_unlinked same]

/-- A record whose payload is clean leaves memory and the places of the slots. -/
theorem recFrames_clean {s : State} {f : Nat} {r : FlmRec} (clean : s.badIn (s.slotAddr f r.spill r.slot) r.hdr.len = []) :
    SameMem s (s.recFrames f r) ∧ ∀ sp i, (s.recFrames f r).slotAddr f sp i = s.slotAddr f sp i := by
  rw [recFrames_eq, noteRead_of_badIn clean]
  have same := recSent_unlinked s f r (s.fixSoft (s.slotAddr f r.spill r.slot) r.hdr.len)
  exact ⟨(fixSoft_sameMem ..).trans (sameMem_of_unlinked same), fun sp i => (slotAddr_of_unlinked same ..).trans (slotAddr_fixSoft ..)⟩

theorem recsFrames_clean {f : Nat} (l : List FlmRec) {s : State} (clean : s.cleanRecs f l) : SameMem s (l.foldl (fun s r => s.recFrames f r) s) := by
  induction l generalizing s with
  | nil => exact SameMem.refl s
  | cons r l ih =>
    obtain ⟨mem, slots⟩ := recFrames_clean (clean r List.mem_cons_self)
    refine mem.trans (ih fun q is => ?_)
    rw [badIn_of_sameMem mem, slots]
    exact clean q (List.mem_cons_of_mem r is)

/-! ## Flumes that are held and freed (R158) -/

theorem holdFlume_flume (s : State) (f j : Nat) (h : Flume → Flume) : (s.holdFlume f h).flume j =
    if j = f then (if s.flmState f = flmOPEN then { h (s.flume f) with heldSince := s.now } else h (s.flume f)) else s.flume j := by
  unfold State.holdFlume
  dsimp only
  by_cases opened : s.flmState f = flmOPEN
  · simp only [if_pos opened]
    exact State.flume_setFlume ..
  · simp only [if_neg opened]
    exact State.flume_setFlume ..

/-- What holding a flume leaves of it: all but the causes that it notes and the time. -/
theorem holdFlume_keeps {α : Type} (p : Flume → α) (blind : ∀ (x : Flume) t, p { x with heldSince := t } = p x) (s : State) (f : Nat) (h : Flume → Flume) :
    p ((s.holdFlume f h).flume f) = p (h (s.flume f)) := by
  rw [holdFlume_flume, if_pos rfl]
  split
  · exact blind ..
  · rfl

theorem holdHere_unlinked (s : State) (f : Nat) (h : Flume → Flume) : (s.holdHere f h).unlinked = (s.holdFlume f h).unlinked := by
  unfold State.holdHere
  dsimp only
  split
  · split
    · exact skwCtrl_unlinked ..
    · rfl
  · rfl

theorem flmState_of_unlinked {s t : State} (same : t.unlinked = s.unlinked) (f : Nat) : t.flmState f = s.flmState f := get_of_unlinked same _

theorem flume_of_unlinked {s t : State} (same : t.unlinked = s.unlinked) (f : Nat) : t.flume f = s.flume f := (congrArg (fun u : State => u.flume f) same :)

/-- A live flume is held once it has been told to. -/
theorem holdFlume_held {s : State} {f : Nat} (live : s.flmState f = flmOPEN ∨ s.flmState f = flmHELD) (h : Flume → Flume) : (s.holdFlume f h).flmState f = flmHELD := by
  rw [holdFlume_state]
  rcases live with opened | held
  · rw [if_pos ⟨rfl, opened⟩]
  · rw [if_neg (fun both => by rw [held] at both; exact absurd both.2 (by decide)), held]

/-- A HELD flume none of whose causes holds. -/
def State.freed (s : State) (f : Nat) : Prop :=
  s.flmState f = flmHELD ∧ (!(s.flume f).linkDown) = true ∧ (!(s.flume f).opening) = true ∧ (!(s.flume f).halfDown) = true ∧
    (!(s.flume f).peerHeld) = true ∧ (!(s.flume f).mismatch) = true ∧ s.flag (R.FLM_STAT.peer_closed f) = false

/-- A flume that goes OPEN again. -/
def State.reopened (s : State) (f : Nat) : State := (s.put (R.FLM_STAT.state f) flmOPEN).flmSync f

theorem freeFlume_freed {s : State} {f : Nat} (freed : s.freed f) :
    s.freeFlume f = (s.flume f).staged.foldl (fun s r => s.recFrames f r) (s.reopened f) := if_pos freed

theorem freeFlume_stays {s : State} {f : Nat} (stays : ¬s.freed f) : s.freeFlume f = s := if_neg stays

theorem reopened_unflumed (s : State) (f : Nat) : (s.reopened f).unflumed = s.unflumed := (flmSync_unflumed ..).trans (put_unflumed ..)

theorem reopened_get (s : State) {f : Nat} {g : Fld} (state : g.a ≠ (R.FLM_STAT.state f).a) (above : g.a ≠ (R.FLM_STAT.above_hi f).a) :
    (s.reopened f).get g = s.get g := (flmSync_get _ above).trans (State.get_put_other _ _ _ _ state)

theorem reopened_state (s : State) (f : Nat) : (s.reopened f).flmState f = flmOPEN := by
  refine (flmSync_get _ ?_).trans (State.get_put_same _ _ _)
  simp only [R.FLM_STAT.state, R.FLM_STAT.above_hi]
  omega

theorem flmSync_flumes (s : State) (f : Nat) : (s.flmSync f).flumes = s.flumes := rfl

theorem reopened_flumes (s : State) (f : Nat) : (s.reopened f).flumes = s.flumes := flmSync_flumes ..

theorem slotAddr_reopened (s : State) {f : Nat} (small : f < 8192) (sp : Bool) (i : Nat) : (s.reopened f).slotAddr f sp i = s.slotAddr f sp i := by
  have desc (g : Fld) (high : g.a < 8 * 0x3080000) : (s.reopened f).get g = s.get g := by
    refine reopened_get s ?_ ?_ <;> simp only [R.FLM_STAT.state, R.FLM_STAT.above_hi] <;> omega
  refine slotAddr_congr (desc _ ?_) (desc _ ?_) (desc _ ?_) sp i <;> simp only [R.FLM_DESC.spill_base, R.FLM_DESC.store_base, R.FLM_DESC.rec_size] <;> omega

theorem unsent_of_unflumed {s t : State} (same : t.unflumed = s.unflumed) (flumes : t.flumes = s.flumes) : t.unsent = s.unsent := by
  have both := congrArg (fun u : State => ({ u with flumes := s.flumes } : State).unsent) same
  rw [← flumes] at both
  exact both.trans (congrArg (fun l => ({ s with flumes := l } : State).unsent) flumes)

/-- What the end of a flume's hold leaves: all but what leaves the block, the notes and the flume's state. -/
theorem freeFlume_facts (s : State) {f : Nat} (small : f < 8192) : (s.freeFlume f).unsent = s.unsent ∧
    (s.cleanRecs f (s.flume f).staged → SameMem s (s.freeFlume f)) ∧ ((s.freed f ∨ s.flmState f = flmOPEN) → (s.freeFlume f).flmState f = flmOPEN) ∧
    ∀ g : Fld, Unnoted g → g.a % 64 ≠ 32 → g.a ≠ (R.FLM_STAT.state f).a → g.a ≠ (R.FLM_STAT.above_hi f).a → (s.freeFlume f).get g = s.get g := by
  have unsent := unsent_of_unflumed (reopened_unflumed s f) (reopened_flumes s f)
  have mem := sameMem_of_unflumed (reopened_unflumed s f)
  have place : Unnoted (R.FLM_STAT.state f) ∧ (R.FLM_STAT.state f).a % 64 ≠ 32 := by
    simp only [Unnoted, R.FLM_STAT.state]
    omega
  obtain ⟨apart, soft⟩ := place
  by_cases freed : s.freed f
  · rw [freeFlume_freed freed]
    refine ⟨(recsFrames_unsent ..).trans unsent, fun clean => mem.trans (recsFrames_clean _ fun r is => ?_),
      fun _ => (recsFrames_get _ f _ apart soft).trans (reopened_state s f), fun g apart soft state above =>
        (recsFrames_get _ f _ apart soft).trans (reopened_get s state above)⟩
    rw [badIn_of_sameMem mem, slotAddr_reopened s small]
    exact clean r is
  · rw [freeFlume_stays freed]
    exact ⟨rfl, fun _ => SameMem.refl s, fun either => either.resolve_left freed, fun _ _ _ _ _ => rfl⟩

end Sys2Proof.Machine

namespace Sys2Proof.Machine

-- One proof at a time: threads that wait for each other hold memory.
set_option Elab.async false

/-! ## A frame that arrives for a channel (R405) -/

theorem chanOk_of_unlinked {s t : State} (same : t.unlinked = s.unlinked) (k ch : Nat) : t.chanOk k ch = s.chanOk k ch := by
  simp only [State.chanOk, State.flag, get_of_unlinked same]

theorem flumeOn_of_unlinked {s t : State} (same : t.unlinked = s.unlinked) (ch : Nat) : t.flumeOn ch = s.flumeOn ch :=
  (congrArg (fun u : State => u.flumeOn ch) same :)

theorem flumeWas_of_unlinked {s t : State} (same : t.unlinked = s.unlinked) (ch : Nat) : t.flumeWas ch = s.flumeWas ch :=
  (congrArg (fun u : State => u.flumeWas ch) same :)

theorem flmChan_of_unlinked {s t : State} (same : t.unlinked = s.unlinked) (f : Nat) : t.flmChan f = s.flmChan f :=
  (congrArg (fun u : State => u.flmChan f) same :)

/-- The flume on a channel is bound, and the channel is its own. -/
theorem mem_of_flumeOn {s : State} {ch f : Nat} (on : s.flumeOn ch = some f) : f < 8192 ∧ s.flmChan f = some ch :=
  ⟨boundFlumes_lt (List.mem_of_find?_eq_some on), of_decide_eq_true (List.find?_some (p := fun f => decide (s.flmChan f = some ch)) on)⟩

/-- An enabled channel of a link. -/
theorem chanOk_iff {s : State} {k ch : Nat} : s.chanOk k ch = true ↔ s.get (R.SKW_CHAN.en ch) = 1 ∧ s.get (R.SKW_CHAN.link ch) = k := by
  rw [State.chanOk, Bool.and_eq_true, flag_iff, decide_eq_true_eq]

section
variable {s : State} {k : Fin 24} {ch : Fin 8192}

theorem up_not_down {k : Nat} (up : s.skwUp k = true) : ¬(!s.skwUp k) = true := by rw [up]; decide

/-- Frames for a channel of a session that is up, once they are accepted. -/
theorem took (s : State) (k n : Nat) : (s.skwTake k n).unlinked = s.unlinked := (sends_skwTake s k n).rest

theorem took_ok (ok : s.chanOk k.val ch.val = true) (n : Nat) : ¬(!(s.skwTake k.val n).chanOk k.val ch.val) = true := by
  rw [chanOk_of_unlinked (took ..), ok]
  decide

theorem took_notOk (no : s.chanOk k.val ch.val = false) (n : Nat) : (!(s.skwTake k.val n).chanOk k.val ch.val) = true := by
  rw [chanOk_of_unlinked (took ..), no]
  rfl

/-! ### Channels that are not bound on the link -/

theorem chanDrop_unlinkedAll (s : State) (k ch : Nat) : (s.chanDrop k ch).unlinkedAll = s.unlinkedAll :=
  (raise_unlinkedAll ..).trans (unlinkedAll_of_unlinked (setSkw_unlinked ..))

theorem chanDrop_links (s : State) (k ch : Nat) : (s.chanDrop k ch).links = (s.setSkw k { s.skw k with strays := (s.skw k).strays + 1 }).links :=
  links_of_unlogged (raise_unlogged ..)

theorem chanDrop_flumes (s : State) (k ch : Nat) : (s.chanDrop k ch).flumes = s.flumes :=
  (congrArg State.flumes (raise_unlogged (s.setSkw k { s.skw k with strays := (s.skw k).strays + 1 }) E.LINK_CHAN none (atLink k) ch) :)

/-- What `n` frames that are discarded change. -/
structure Strayed (s t : State) (k n : Nat) : Prop where
  all    : t.unlinkedAll = s.unlinkedAll
  links  : ∀ j, j ≠ k → t.skw j = s.skw j
  flumes : t.flumes = s.flumes
  strays : (t.skw k).strays = (s.skw k).strays + n
  rx     : (t.skw k).rx = (s.skw k).rx

theorem strayed_chanDrop (s : State) (k ch : Nat) : Strayed s (s.chanDrop k ch) k 1 := by
  refine ⟨chanDrop_unlinkedAll .., fun j other => ?_, chanDrop_flumes .., ?_, ?_⟩ <;> rw [skw_of_links (chanDrop_links ..), skw_setSkw]
  · exact if_neg other
  · rw [if_pos rfl]
  · rw [if_pos rfl]

theorem Strayed.trans {s t u : State} {k m n : Nat} (first : Strayed s t k m) (second : Strayed t u k n) : Strayed s u k (m + n) :=
  ⟨second.all.trans first.all, fun j other => (second.links j other).trans (first.links j other), second.flumes.trans first.flumes,
    by rw [second.strays, first.strays, Nat.add_assoc], second.rx.trans first.rx⟩

theorem strayed_chanDrops (s : State) (k ch n : Nat) : Strayed s (s.chanDrops k ch n) k n := by
  induction n with
  | zero => exact ⟨rfl, fun _ _ => rfl, rfl, rfl, rfl⟩
  | succ n ih =>
    unfold State.chanDrops at ih ⊢
    rw [List.range_succ, List.foldl_append]
    exact ih.trans (strayed_chanDrop ..)

theorem chanDrops_code (s : State) (k ch n : Nat) : (s.chanDrops k ch (n + 1)).log.head?.map LogEntry.code = some E.LINK_CHAN := by
  unfold State.chanDrops
  rw [List.range_succ, List.foldl_append]
  exact log_code_of_raise

/-- What the frames leave that a channel not bound on the link discards. -/
theorem strayed_took {n : Nat} {t : State} (strayed : Strayed (s.skwTake k.val n) t k.val n) : SameMem s t ∧ t.flumes = s.flumes ∧
    (t.skw k.val).strays = (s.skw k.val).strays + n ∧ (t.skw k.val).rx = ((s.skw k.val).rx + n) % 2 ^ 32 ∧ LinkFrame s t k.val := by
  have sent := sends_skwTake s k.val n
  obtain ⟨b, took⟩ := skwTake_skw s k.val n
  have all := strayed.all.trans (unlinkedAll_of_unlinked sent.rest)
  refine ⟨(rest_of_unlinkedAll all).1, strayed.flumes.trans (congrArg State.flumes sent.rest :), ?_, ?_,
    linkFrame_of_unlinkedAll all fun j other => (strayed.links j other).trans (sent.links j other)⟩
  · rw [strayed.strays, took]
  · rw [strayed.rx, took]

theorem stray_clause (up : s.skwUp k.val = true) (no : s.chanOk k.val ch.val = false) (r : BitVec 32) (n : BitVec 13) (h : BitVec 512) (d : List Byte) (w : Fin 3)
    (o : BitVec 2) (z : BitVec 15) (y : Bool) : ∀ i ∈ [(Instr.skwRack k ch r, 1), (.skwCredit k ch n, 1), (.skwRecordArrival k ch h d, 1 + ceilDiv d.length 248),
      (.skwChannelClose k ch w, 1), (.skwChannelOpen k ⟨ch, n⟩ o n z n r n y, 1)],
    ∃ t, exec i.1 s = .next t ∧ SameMem s t ∧ t.flumes = s.flumes ∧ (t.skw k.val).strays = (s.skw k.val).strays + i.2 ∧
      (t.skw k.val).rx = ((s.skw k.val).rx + i.2) % 2 ^ 32 ∧ LinkFrame s t k.val ∧ (t.log.head?.map LogEntry.code) = some E.LINK_CHAN := by
  have one : ∃ t, t = (s.skwTake k.val 1).chanDrop k.val ch.val ∧ SameMem s t ∧ t.flumes = s.flumes ∧ (t.skw k.val).strays = (s.skw k.val).strays + 1 ∧
      (t.skw k.val).rx = ((s.skw k.val).rx + 1) % 2 ^ 32 ∧ LinkFrame s t k.val ∧ (t.log.head?.map LogEntry.code) = some E.LINK_CHAN := by
    obtain ⟨mem, flumes, strays, rx, frame⟩ := strayed_took (strayed_chanDrop (s.skwTake k.val 1) k.val ch.val)
    exact ⟨_, rfl, mem, flumes, strays, rx, frame, log_code_of_raise⟩
  obtain ⟨t, is, one⟩ := one
  have dropped (go : State) : (if (!s.skwUp k.val) = true then s else
      if (!(s.skwTake k.val 1).chanOk k.val ch.val) = true then (s.skwTake k.val 1).chanDrop k.val ch.val else go) = t := by
    rw [is, if_neg (up_not_down up), if_pos (took_notOk no 1)]
  have many : exec (.skwRecordArrival k ch h d) s = .next ((s.skwTake k.val (1 + ceilDiv d.length 248)).chanDrops k.val ch.val (1 + ceilDiv d.length 248)) :=
    congrArg Host.Outcome.next ((if_neg (up_not_down up)).trans (if_pos (took_notOk no _)))
  simp only [List.forall_mem_cons]
  refine ⟨⟨t, congrArg Host.Outcome.next (dropped _), one⟩, ⟨t, congrArg Host.Outcome.next (dropped _), one⟩, ⟨_, many, ?_⟩,
    ⟨t, congrArg Host.Outcome.next (dropped _), one⟩, ⟨t, congrArg Host.Outcome.next (dropped _), one⟩, List.forall_mem_nil _⟩
  obtain ⟨mem, flumes, strays, rx, frame⟩ := strayed_took (strayed_chanDrops (s.skwTake k.val (1 + ceilDiv d.length 248)) k.val ch.val (1 + ceilDiv d.length 248))
  exact ⟨mem, flumes, strays, rx, frame, by rw [Nat.add_comm]; exact chanDrops_code ..⟩

/-! ### Sessions that are not up, and unlisted messages -/

theorem down_clause (down : s.skwUp k.val = false) : (∀ o d z r p n h y, exec (.skwChannelOpen k ⟨ch, o⟩ d z r p n h y) s = .next s) ∧
    (∀ w, exec (.skwChannelClose k ch w) s = .next s) ∧ (∀ h d, exec (.skwRecordArrival k ch h d) s = .next s) ∧
    (∀ r, exec (.skwRack k ch r) s = .next s) ∧ (∀ n, exec (.skwCredit k ch n) s = .next s) ∧
    ∀ c q l, exec (.redMessageUnlistedKind k c q l) s = .next s := by
  have is : (!s.skwUp k.val) = true := by rw [down]; rfl
  exact ⟨fun _ _ _ _ _ _ _ _ => congrArg Host.Outcome.next (if_pos is), fun _ => congrArg Host.Outcome.next (if_pos is),
    fun _ _ => congrArg Host.Outcome.next (if_pos is), fun _ => congrArg Host.Outcome.next (if_pos is), fun _ => congrArg Host.Outcome.next (if_pos is),
    fun _ _ _ => congrArg Host.Outcome.next (if_neg fun both => absurd (down.symm.trans both.1) (by decide))⟩

theorem listed_clause (c : Fin 64) {kind : BitVec 8} (len : BitVec 16) (some_ : kind ≠ 0) (low : kind.toNat ≤ 9) :
    exec (.redMessageUnlistedKind k c kind len) s = .next s := by
  have pos : kind.toNat ≠ 0 := fun zero => some_ (BitVec.toNat_inj.1 zero)
  exact congrArg Host.Outcome.next (if_neg fun both => both.2.elim pos (not_lt.2 low))

theorem unlisted_clause (up : s.skwUp k.val = true) (c : Fin 64) {kind : BitVec 8} (len : BitVec 16) (unlisted : kind = 0 ∨ 9 < kind.toNat) :
    ∃ t, exec (.redMessageUnlistedKind k c kind len) s = .next t ∧ SameMem s t ∧ t.jobs = s.jobs ∧ t.flumes = s.flumes ∧ LinkFrame s t k.val ∧
      (t.log.head?.map LogEntry.code) = some E.LINK_CHAN := by
  have is : s.skwUp k.val = true ∧ (kind.toNat = 0 ∨ 9 < kind.toNat) := ⟨up, unlisted.imp_left fun zero => by rw [zero]; rfl⟩
  refine ⟨_, congrArg Host.Outcome.next (if_pos is), ?_⟩
  have sent := sends_skwTake s k.val (ceilDiv (32 + len.toNat) 248)
  generalize s.skwTake k.val (ceilDiv (32 + len.toNat) 248) = u at *
  have same := raise_unlogged u E.LINK_CHAN (some c.val) (atLink k.val) kind.toNat
  have all := (raise_unlinkedAll u E.LINK_CHAN (some c.val) (atLink k.val) kind.toNat).trans (unlinkedAll_of_unlinked sent.rest)
  exact ⟨(rest_of_unlinkedAll all).1, (congrArg State.jobs same :).trans (congrArg State.jobs sent.rest :),
    (congrArg State.flumes same :).trans (congrArg State.flumes sent.rest :),
    linkFrame_of_unlinkedAll all fun j other => (skw_of_links (links_of_unlogged same) j).trans (sent.links j other), log_code_of_raise⟩

/-! ### Records at a closed end (R162) -/

/-- A record that is discarded and counted. -/
theorem discarded (s : State) (k n f : Nat) : SameMem s ((s.skwTake k n).count (R.FLM_CNT.discard f) 1) ∧
    s.Counted ((s.skwTake k n).count (R.FLM_CNT.discard f) 1) (R.FLM_CNT.discard f) 1 ∧
    ((s.skwTake k n).count (R.FLM_CNT.discard f) 1).flumes = s.flumes ∧
    SameRegsBut s ((s.skwTake k n).count (R.FLM_CNT.discard f) 1) [R.FLM_CNT.discard f] ∧ LinkFrame s ((s.skwTake k n).count (R.FLM_CNT.discard f) 1) k := by
  have sent := sends_skwTake s k n
  generalize s.skwTake k n = u at *
  have all : (u.count (R.FLM_CNT.discard f) 1).unlinkedAll = s.unlinkedAll := (count_unlinkedAll ..).trans (unlinkedAll_of_unlinked sent.rest)
  refine ⟨(rest_of_unlinkedAll all).1, ?_, (congrArg State.flumes sent.rest :), fun g other => ?_, linkFrame_of_unlinkedAll all fun j other => sent.links j other⟩
  · rw [State.Counted, State.get_count_same, get_of_unlinked sent.rest]
  · rw [State.get_count_other _ _ _ _ (other _ List.mem_cons_self), get_of_unlinked sent.rest]

/-- A record for a channel that is bound on the link, by the flume that is on the channel. -/
theorem exec_skwRecordArrival (up : s.skwUp k.val = true) (ok : s.chanOk k.val ch.val = true) (hdr : BitVec 512) (data : List Byte) :
    exec (.skwRecordArrival k ch hdr data) s = .next (
      let u := s.skwTake k.val (1 + ceilDiv data.length 248)
      match s.flumeOn ch.val with
      | none => match s.flumeWas ch.val with
        | some f => u.count (R.FLM_CNT.discard f) 1
        | none => u
      | some f =>
        if u.flmState f = flmCLOSING ∨ u.flmState f = flmZEROING then u.count (R.FLM_CNT.discard f) 1
        else if (Hdr.ofNat hdr.toNat).rseq = (u.flume f).expect then u.storeRemote k.val f (Hdr.ofNat hdr.toNat) data
        else if before (Hdr.ofNat hdr.toNat).rseq (u.flume f).expect = true then
          u.skwSend k.val 0 ftRACK [u.get (R.SKW_CHAN.peer ch.val), (Hdr.ofNat hdr.toNat).rseq]
        else (u.raise E.FLM_SEQ (some (u.get (R.FLM_DESC.ctx f))) (atLd (ldOfFlume f)) f).holdHere f (fun x => { x with mismatch := true })) := by
  rw [← flumeOn_of_unlinked (took s k.val (1 + ceilDiv data.length 248)), ← flumeWas_of_unlinked (took s k.val (1 + ceilDiv data.length 248))]
  exact congrArg Host.Outcome.next ((if_neg (up_not_down up)).trans (if_neg (took_ok ok _)))

theorem closed_record (up : s.skwUp k.val = true) (ok : s.chanOk k.val ch.val = true) {f : Nat}
    (closed : (s.flumeOn ch.val = some f ∧ (s.flmState f = flmCLOSING ∨ s.flmState f = flmZEROING)) ∨
      (s.flumeOn ch.val = none ∧ s.flumeWas ch.val = some f)) (hdr : BitVec 512) (data : List Byte) :
    ∃ t, exec (.skwRecordArrival k ch hdr data) s = .next t ∧ SameMem s t ∧ s.Counted t (R.FLM_CNT.discard f) 1 ∧ t.flumes = s.flumes ∧
      SameRegsBut s t [R.FLM_CNT.discard f] ∧ LinkFrame s t k.val := by
  refine ⟨_, (exec_skwRecordArrival up ok hdr data).trans (congrArg Host.Outcome.next ?_), discarded s k.val (1 + ceilDiv data.length 248) f⟩
  rcases closed with ⟨on, closing⟩ | ⟨off, was⟩
  · rw [on]
    exact if_pos (by rw [flmState_of_unlinked (took ..)]; exact closing)
  · rw [off, was]

/-- A channel whose flume has closed answers an open exchange with that. -/
theorem closed_open (up : s.skwUp k.val = true) (ok : s.chanOk k.val ch.val = true) {f : Nat} (was : s.flumeWas ch.val = some f)
    (off : s.flumeOn ch.val = none) (o d z r p n h y) : ∃ t, exec (.skwChannelOpen k ⟨ch, o⟩ d z r p n h y) s = .next t ∧ SameMem s t ∧
      t.regs = s.regs ∧ t.flumes = s.flumes ∧ LinkFrame s t k.val := by
  have sends (t : State) (sent : Sends s t k.val) : SameMem s t ∧ t.regs = s.regs ∧ t.flumes = s.flumes ∧ LinkFrame s t k.val :=
    ⟨sameMem_of_unlinked sent.rest, regs_of_unlinked sent.rest, (congrArg State.flumes sent.rest :),
      linkFrame_of_unlinkedAll (unlinkedAll_of_unlinked sent.rest) sent.links⟩
  have take := sends_skwTake s k.val 1
  have run : exec (.skwChannelOpen k ⟨ch, o⟩ d z r p n h y) s = .next (match (s.skwTake k.val 1).flumeOn ch.val with
      | none => if (((s.skwTake k.val 1).flumeWas ch.val).isSome && !y) = true then
          (s.skwTake k.val 1).skwCtrl k.val .close [(s.skwTake k.val 1).get (R.SKW_CHAN.peer ch.val)] else s.skwTake k.val 1
      | some _ => _) := congrArg Host.Outcome.next ((if_neg (up_not_down up)).trans (if_neg (took_ok ok _)))
  rw [flumeOn_of_unlinked take.rest, off] at run
  refine ⟨_, run, sends _ ?_⟩
  dsimp only
  split
  · exact take.trans (sends_skwSend ..)
  · exact take

/-! ### Frames for the channel of a live flume -/

/-- What a change of flumes after accepted frames leaves alone. -/
theorem frame_of_unflumed {u t : State} {k : Nat} (sent : Sends s u k) (same : t.unflumed = u.unflumed) : SameMem s t ∧ LinkFrame s t k := by
  have all := (unlinkedAll_of_unflumed same).trans (unlinkedAll_of_unlinked sent.rest)
  exact ⟨(rest_of_unlinkedAll all).1, linkFrame_of_unlinkedAll all fun j other => (skw_of_links (links_of_unflumed same) j).trans (sent.links j other)⟩

theorem not_closing {f : Nat} (live : s.flmState f = flmOPEN ∨ s.flmState f = flmHELD) : ¬(s.flmState f = flmCLOSING ∨ s.flmState f = flmZEROING) := by
  rcases live with is | is <;> rw [is] <;> decide

theorem flmChan_live {f : Nat} (live : s.flmState f = flmOPEN ∨ s.flmState f = flmHELD) :
    s.flmChan f = if s.flag (R.FLM_DESC.remote f) = true then some (s.get (R.FLM_DESC.chan f)) else none := if_neg (not_closing live)

theorem exec_skwRack (up : s.skwUp k.val = true) (ok : s.chanOk k.val ch.val = true) {f : Nat} (on : s.flumeOn ch.val = some f) (rseq : BitVec 32) :
    exec (.skwRack k ch rseq) s = .next ((s.skwTake k.val 1).setFlm f
      { (s.skwTake k.val 1).flume f with staged := ((s.skwTake k.val 1).flume f).staged.filter (fun r => decide (r.hdr.rseq ≠ rseq.toNat)) }) := by
  refine congrArg Host.Outcome.next ((if_neg (up_not_down up)).trans ((if_neg (took_ok ok _)).trans ?_))
  dsimp only
  rw [flumeOn_of_unlinked (took ..), on]

theorem exec_skwCredit (up : s.skwUp k.val = true) (ok : s.chanOk k.val ch.val = true) {f : Nat} (on : s.flumeOn ch.val = some f) (n : BitVec 13) :
    exec (.skwCredit k ch n) s = .next ((s.skwTake k.val 1).setFlm f
      { (s.skwTake k.val 1).flume f with out := ((s.skwTake k.val 1).flume f).out - n.toNat }) := by
  refine congrArg Host.Outcome.next ((if_neg (up_not_down up)).trans ((if_neg (took_ok ok _)).trans ?_))
  dsimp only
  rw [flumeOn_of_unlinked (took ..), on]

theorem rack_clause (up : s.skwUp k.val = true) (ok : s.chanOk k.val ch.val = true) {f : Nat} (on : s.flumeOn ch.val = some f) (rseq : BitVec 32) :
    ∃ t, exec (.skwRack k ch rseq) s = .next t ∧ SameMem s t ∧ LinkFrame s t k.val ∧
      (t.flume f).staged = (s.flume f).staged.filter (fun r => decide (r.hdr.rseq ≠ rseq.toNat)) ∧ (t.flume f).out = (s.flume f).out := by
  have sent := sends_skwTake s k.val 1
  obtain ⟨mem, frame⟩ := frame_of_unflumed sent (setFlm_unflumed (s.skwTake k.val 1) f
    { (s.skwTake k.val 1).flume f with staged := ((s.skwTake k.val 1).flume f).staged.filter (fun r => decide (r.hdr.rseq ≠ rseq.toNat)) })
  refine ⟨_, exec_skwRack up ok on rseq, mem, frame, ?_, ?_⟩ <;> rw [setFlm_flume, if_pos rfl, flume_of_unlinked sent.rest]

theorem credit_clause (up : s.skwUp k.val = true) (ok : s.chanOk k.val ch.val = true) {f : Nat} (on : s.flumeOn ch.val = some f) (n : BitVec 13) :
    ∃ t, exec (.skwCredit k ch n) s = .next t ∧ SameMem s t ∧ LinkFrame s t k.val ∧ (t.flume f).out = (s.flume f).out - n.toNat ∧
      (t.flume f).staged = (s.flume f).staged := by
  have sent := sends_skwTake s k.val 1
  obtain ⟨mem, frame⟩ := frame_of_unflumed sent (setFlm_unflumed (s.skwTake k.val 1) f
    { (s.skwTake k.val 1).flume f with out := ((s.skwTake k.val 1).flume f).out - n.toNat })
  refine ⟨_, exec_skwCredit up ok on n, mem, frame, ?_, ?_⟩ <;> rw [setFlm_flume, if_pos rfl, flume_of_unlinked sent.rest]

/-! ### The close of the peer's end, and its notice (R158, R162) -/

theorem exec_skwChannelClose_notice (up : s.skwUp k.val = true) (ok : s.chanOk k.val ch.val = true) {f : Nat} (on : s.flumeOn ch.val = some f)
    (live : s.flmState f = flmOPEN ∨ s.flmState f = flmHELD) :
    exec (.skwChannelClose k ch 2) s = .next ((s.skwTake k.val 1).holdFlume f (fun x => { x with peerHeld := true })) := by
  refine congrArg Host.Outcome.next ((if_neg (up_not_down up)).trans ((if_neg (took_ok ok _)).trans ?_))
  dsimp only
  rw [flumeOn_of_unlinked (took ..), on]
  dsimp only
  rw [if_pos rfl, flmState_of_unlinked (took ..), if_pos live]

theorem notice_clause (up : s.skwUp k.val = true) (ok : s.chanOk k.val ch.val = true) {f : Nat} (on : s.flumeOn ch.val = some f)
    (live : s.flmState f = flmOPEN ∨ s.flmState f = flmHELD) :
    ∃ t, exec (.skwChannelClose k ch 2) s = .next t ∧ t.flmState f = flmHELD ∧ (t.flume f).peerHeld = true ∧ SameMem s t ∧ LinkFrame s t k.val := by
  have sent := sends_skwTake s k.val 1
  obtain ⟨mem, frame⟩ := frame_of_unflumed sent (holdFlume_unflumed (s.skwTake k.val 1) f (fun x => { x with peerHeld := true }))
  refine ⟨_, exec_skwChannelClose_notice up ok on live, holdFlume_held (by rw [flmState_of_unlinked sent.rest]; exact live) _, ?_, mem, frame⟩
  exact holdFlume_keeps Flume.peerHeld (fun _ _ => rfl) _ f _

/-- The state that the peer's close leaves. -/
def State.peerClosed (s : State) (k ch f : Nat) : State :=
  (((s.skwTake k 1).skwCtrl k .closeAck [(s.skwTake k 1).get (R.SKW_CHAN.peer ch)]).holdFlume f id).put (R.FLM_STAT.peer_closed f) 1

theorem exec_skwChannelClose (up : s.skwUp k.val = true) (ok : s.chanOk k.val ch.val = true) {f : Nat} (on : s.flumeOn ch.val = some f)
    (live : s.flmState f = flmOPEN ∨ s.flmState f = flmHELD) : exec (.skwChannelClose k ch 0) s = .next (s.peerClosed k.val ch.val f) := by
  refine congrArg Host.Outcome.next ((if_neg (up_not_down up)).trans ((if_neg (took_ok ok _)).trans ?_))
  dsimp only
  rw [flumeOn_of_unlinked (took ..), on]
  dsimp only
  rw [if_neg (by decide), flmState_of_unlinked (took ..), if_neg fun closing => not_closing live (.inl closing), if_neg (by decide), if_pos live]
  rfl

theorem close_clause (up : s.skwUp k.val = true) (ok : s.chanOk k.val ch.val = true) {f : Nat} (on : s.flumeOn ch.val = some f)
    (live : s.flmState f = flmOPEN ∨ s.flmState f = flmHELD) :
    ∃ t, exec (.skwChannelClose k ch 0) s = .next t ∧ t.flmState f = flmHELD ∧ t.get (R.FLM_STAT.peer_closed f) = 1 ∧ SameMem s t ∧ LinkFrame s t k.val := by
  have sent := (sends_skwTake s k.val 1).trans (sends_skwSend (s.skwTake k.val 1) k.val 0 ftCTRL
    (Ctrl.closeAck.sub :: ([(s.skwTake k.val 1).get (R.SKW_CHAN.peer ch.val)].flatMap (leBytes 8)).map BitVec.toNat))
  refine ⟨_, exec_skwChannelClose up ok on live, ?_⟩
  have is : s.peerClosed k.val ch.val f = (((s.skwTake k.val 1).skwSend k.val 0 ftCTRL (Ctrl.closeAck.sub ::
    ([(s.skwTake k.val 1).get (R.SKW_CHAN.peer ch.val)].flatMap (leBytes 8)).map BitVec.toNat)).holdFlume f id).put (R.FLM_STAT.peer_closed f) 1 := rfl
  rw [is]
  generalize (s.skwTake k.val 1).skwSend k.val 0 ftCTRL _ = u at *
  have held := holdFlume_held (s := u) (f := f) (by rw [flmState_of_unlinked sent.rest]; exact live) id
  obtain ⟨mem, frame⟩ := frame_of_unflumed sent ((put_unflumed (u.holdFlume f id) (R.FLM_STAT.peer_closed f) 1).trans (holdFlume_unflumed ..))
  refine ⟨(State.get_put_other _ _ _ _ ?_).trans held, State.get_put_same .., mem, frame⟩
  simp only [R.FLM_STAT.state, R.FLM_STAT.peer_closed]
  omega

/-! ### Records (R149, R406) -/

theorem exec_record_live (up : s.skwUp k.val = true) (ok : s.chanOk k.val ch.val = true) {f : Nat} (on : s.flumeOn ch.val = some f)
    (live : s.flmState f = flmOPEN ∨ s.flmState f = flmHELD) (hdr : BitVec 512) (data : List Byte) :
    exec (.skwRecordArrival k ch hdr data) s = .next (
      let u := s.skwTake k.val (1 + ceilDiv data.length 248)
      if (Hdr.ofNat hdr.toNat).rseq = (s.flume f).expect then u.storeRemote k.val f (Hdr.ofNat hdr.toNat) data
      else if before (Hdr.ofNat hdr.toNat).rseq (s.flume f).expect = true then
        u.skwSend k.val 0 ftRACK [u.get (R.SKW_CHAN.peer ch.val), (Hdr.ofNat hdr.toNat).rseq]
      else (u.raise E.FLM_SEQ (some (u.get (R.FLM_DESC.ctx f))) (atLd (ldOfFlume f)) f).holdHere f (fun x => { x with mismatch := true })) := by
  have same := took s k.val (1 + ceilDiv data.length 248)
  rw [exec_skwRecordArrival up ok, on]
  dsimp only
  rw [flmState_of_unlinked same, if_neg (not_closing live), flume_of_unlinked same]

/-- A record already stored is acknowledged again. -/
theorem again_clause (up : s.skwUp k.val = true) (ok : s.chanOk k.val ch.val = true) {f : Nat} (on : s.flumeOn ch.val = some f)
    (live : s.flmState f = flmOPEN ∨ s.flmState f = flmHELD) (hdr : BitVec 512) (data : List Byte)
    (other : (Hdr.ofNat hdr.toNat).rseq ≠ (s.flume f).expect) (old : before (Hdr.ofNat hdr.toNat).rseq (s.flume f).expect = true) :
    ∃ t, exec (.skwRecordArrival k ch hdr data) s = .next t ∧ SameMem s t ∧ t.flumes = s.flumes ∧ t.regs = s.regs ∧ LinkFrame s t k.val := by
  refine ⟨_, (exec_record_live up ok on live hdr data).trans (congrArg Host.Outcome.next ((if_neg other).trans (if_pos old))), ?_⟩
  have sent := (sends_skwTake s k.val (1 + ceilDiv data.length 248)).trans (sends_skwSend (s.skwTake k.val (1 + ceilDiv data.length 248)) k.val 0 ftRACK
    [(s.skwTake k.val (1 + ceilDiv data.length 248)).get (R.SKW_CHAN.peer ch.val), (Hdr.ofNat hdr.toNat).rseq])
  exact ⟨sameMem_of_unlinked sent.rest, (congrArg State.flumes sent.rest :), regs_of_unlinked sent.rest,
    linkFrame_of_unlinkedAll (unlinkedAll_of_unlinked sent.rest) sent.links⟩

/-- A flume held at its own end tells the other over the flume's link. -/
theorem sends_holdHere {u : State} {f ch k : Nat} (live : u.flmState f = flmOPEN ∨ u.flmState f = flmHELD) (small : f < 8192) (chan : u.flmChan f = some ch)
    (link : u.get (R.SKW_CHAN.link ch) = k) (h : Flume → Flume) : Sends (u.holdFlume f h) (u.holdHere f h) k := by
  have low (g : Fld) (below : g.a < 8 * 0x3080000) : (u.holdFlume f h).get g = u.get g := holdFlume_get u small h (.inl below)
  have same : (u.holdFlume f h).flmChan f = some ch := by
    rw [flmChan_live (.inr (holdFlume_held live h)), State.flag, low, low, ← State.flag, ← flmChan_live live]
    · exact chan
    · simp only [R.FLM_DESC.chan]; omega
    · simp only [R.FLM_DESC.remote]; omega
  have link_ : (u.holdFlume f h).get (R.SKW_CHAN.link ch) = k :=
    (holdFlume_get u small h (.inr (by simp only [R.SKW_CHAN.link]; omega))).trans link
  unfold State.holdHere
  dsimp only
  rw [same]
  dsimp only
  rw [link_]
  split
  · exact sends_skwSend ..
  · exact Sends.refl _ _

/-- A flume that an error holds at its own end. -/
def State.mismatched (u : State) (code f : Nat) : State :=
  (u.raise code (some (u.get (R.FLM_DESC.ctx f))) (atLd (ldOfFlume f)) f).holdHere f (fun x => { x with mismatch := true })

/-- What a mismatch that holds a flume leaves. -/
theorem mismatched_facts {s u : State} {f ch k : Nat} (sent : Sends s u k) (live : s.flmState f = flmOPEN ∨ s.flmState f = flmHELD) (small : f < 8192)
    (chan : s.flmChan f = some ch) (link : s.get (R.SKW_CHAN.link ch) = k) (code : Nat) : SameMem s (u.mismatched code f) ∧ LinkFrame s (u.mismatched code f) k ∧
      (u.mismatched code f).seqs = s.seqs ∧ (u.mismatched code f).flmState f = flmHELD ∧ ((u.mismatched code f).flume f).mismatch = true ∧
      ((u.mismatched code f).flume f).staged = (s.flume f).staged ∧ ((u.mismatched code f).flume f).expect = (s.flume f).expect ∧
      ((u.mismatched code f).flume f).recs = (s.flume f).recs ∧ (∀ g, g ≠ f → (u.mismatched code f).flume g = s.flume g) ∧
      (u.mismatched code f).log.head?.map LogEntry.code = some code := by
  have same := raise_unlogged u code (some (u.get (R.FLM_DESC.ctx f))) (atLd (ldOfFlume f)) f
  have logged := log_code_of_raise (s := u) (code := code) (ctx := some (u.get (R.FLM_DESC.ctx f))) (w := atLd (ldOfFlume f)) (detail := f)
  have low (g : Fld) (below : g.a < 8 * 0x3e00000) : (u.raise code (some (u.get (R.FLM_DESC.ctx f))) (atLd (ldOfFlume f)) f).get g = s.get g :=
    (raise_get u below).trans (get_of_unlinked sent.rest g)
  have flume (g : Nat) : (u.raise code (some (u.get (R.FLM_DESC.ctx f))) (atLd (ldOfFlume f)) f).flume g = s.flume g :=
    (congrArg (fun u : State => u.flume g) same :).trans (flume_of_unlinked sent.rest g)
  have all := (raise_unlinkedAll u code (some (u.get (R.FLM_DESC.ctx f))) (atLd (ldOfFlume f)) f).trans (unlinkedAll_of_unlinked sent.rest)
  have links (j : Nat) (other : j ≠ k) : (u.raise code (some (u.get (R.FLM_DESC.ctx f))) (atLd (ldOfFlume f)) f).skw j = s.skw j :=
    (skw_of_links (links_of_unlogged same) j).trans (sent.links j other)
  unfold State.mismatched
  generalize u.raise code (some (u.get (R.FLM_DESC.ctx f))) (atLd (ldOfFlume f)) f = v at *
  have state : v.flmState f = s.flmState f := low _ (by simp only [R.FLM_STAT.state]; omega)
  have liveV : v.flmState f = flmOPEN ∨ v.flmState f = flmHELD := by rw [state]; exact live
  have chanV : v.flmChan f = some ch := by
    rw [flmChan_live liveV, State.flag, low, low, ← State.flag, ← flmChan_live live]
    · exact chan
    · simp only [R.FLM_DESC.chan]; omega
    · simp only [R.FLM_DESC.remote]; omega
  have chSmall : ch < 8192 := by
    rw [flmChan_live live] at chan
    split at chan
    · cases chan
      exact State.get_lt s (R.FLM_DESC.chan f)
    · cases chan
  have linkV : v.get (R.SKW_CHAN.link ch) = k := (low _ (by simp only [R.SKW_CHAN.link]; omega)).trans link
  have told := sends_holdHere liveV small chanV linkV (fun x => { x with mismatch := true })
  have unflumed := holdFlume_unflumed v f (fun x => { x with mismatch := true })
  have held := holdFlume_held liveV (fun x => { x with mismatch := true })
  have kept {α : Type} (p : Flume → α) (blind : ∀ (x : Flume) t, p { x with heldSince := t } = p x) :=
    holdFlume_keeps p blind v f (fun x => { x with mismatch := true })
  have rest (g : Nat) (other : g ≠ f) : (v.holdFlume f (fun x => { x with mismatch := true })).flume g = v.flume g :=
    (holdFlume_flume ..).trans (if_neg other)
  generalize v.holdFlume f (fun x => { x with mismatch := true }) = w at *
  have allW := (unlinkedAll_of_unlinked told.rest).trans ((unlinkedAll_of_unflumed unflumed).trans all)
  have flumeW (g : Nat) := flume_of_unlinked told.rest g
  refine ⟨(rest_of_unlinkedAll allW).1, linkFrame_of_unlinkedAll allW fun j other => ?_, (rest_of_unlinkedAll allW).2,
    (flmState_of_unlinked told.rest f).trans held, ?_, ?_, ?_, ?_, fun g other => ?_, ?_⟩
  · rw [told.links j other, skw_of_links (links_of_unflumed unflumed), links j other]
  · rw [flumeW, kept Flume.mismatch fun _ _ => rfl]
  · rw [flumeW, kept Flume.staged fun _ _ => rfl, ← flume f]
  · rw [flumeW, kept Flume.expect fun _ _ => rfl, ← flume f]
  · rw [flumeW, kept Flume.recs fun _ _ => rfl, ← flume f]
  · rw [flumeW, rest g other, flume]
  · rw [show (v.holdHere f _).log = v.log from (congrArg State.log told.rest :).trans (congrArg State.log unflumed :)]
    exact logged

/-- A record that comes too early holds the flume. -/
theorem early_clause (up : s.skwUp k.val = true) (ok : s.chanOk k.val ch.val = true) {f : Nat} (on : s.flumeOn ch.val = some f)
    (live : s.flmState f = flmOPEN ∨ s.flmState f = flmHELD) (hdr : BitVec 512) (data : List Byte)
    (other : (Hdr.ofNat hdr.toNat).rseq ≠ (s.flume f).expect) (early : before (Hdr.ofNat hdr.toNat).rseq (s.flume f).expect = false) :
    ∃ t, exec (.skwRecordArrival k ch hdr data) s = .next t ∧ SameMem s t ∧ t.flmState f = flmHELD ∧ (t.flume f).expect = (s.flume f).expect ∧
      (t.flume f).recs = (s.flume f).recs ∧ (t.log.head?.map LogEntry.code) = some E.FLM_SEQ ∧ LinkFrame s t k.val := by
  have run : exec (.skwRecordArrival k ch hdr data) s = .next ((s.skwTake k.val (1 + ceilDiv data.length 248)).mismatched E.FLM_SEQ f) :=
    (exec_record_live up ok on live hdr data).trans (congrArg Host.Outcome.next ((if_neg other).trans (if_neg (by rw [early]; decide))))
  obtain ⟨small, chan⟩ := mem_of_flumeOn on
  obtain ⟨mem, frame, -, held, -, -, expect, recs, -, log⟩ := mismatched_facts (sends_skwTake s k.val (1 + ceilDiv data.length 248)) live small chan
    (chanOk_iff.1 ok).2 E.FLM_SEQ
  exact ⟨_, run, mem, held, expect, recs, log, frame⟩

/-- A record that has come over a channel, in its slot. -/
def arrivedRec (sp : Bool) (i : Nat) (h : Hdr) (bad : Bool) : FlmRec :=
  { hdr := h, owner := 0, holder := 0, sent := true, cmt := true, ready := true, held := false, spill := sp, slot := i, bad := bad, pin := none }

/-- A record in the slot that it has been given, before it is counted. -/
def State.recStored (u : State) (f : Nat) (sp : Bool) (i : Nat) (h : Hdr) (data : List Byte) (bad : Bool) : State :=
  (u.write (u.slotAddr f sp i) data).setFlm f { u.flume f with
    recs := (u.flume f).recs ++ [arrivedRec sp i h bad], expect := ((u.flume f).expect + 1) % 2 ^ 32, copy := (u.flume f).copyAfter (sp, i) }

/-- The counters of a stored record. -/
def State.recCounted (u : State) (f : Nat) (h : Hdr) : State :=
  let v := (u.put (R.FLM_SEQ.next_cmt f) (h.rseq + 1)).count (R.FLM_CNT.records f) 1
  if h.poison then v.count (R.FLM_CNT.poison f) 1 else v

theorem recCounted_unlogged (u : State) (f : Nat) (h : Hdr) : (u.recCounted f h).unlogged = u.unlogged := by
  unfold State.recCounted
  dsimp only
  split
  · rw [count_unlogged, count_unlogged, put_unlogged]
  · rw [count_unlogged, put_unlogged]

theorem recCounted_next (u : State) (f : Nat) (h : Hdr) : (u.recCounted f h).get (R.FLM_SEQ.next_cmt f) = (h.rseq + 1) % 2 ^ 32 := by
  have records : (R.FLM_SEQ.next_cmt f).a ≠ (R.FLM_CNT.records f).a := by
    simp only [R.FLM_SEQ.next_cmt, R.FLM_CNT.records]
    omega
  have poison : (R.FLM_SEQ.next_cmt f).a ≠ (R.FLM_CNT.poison f).a := by
    simp only [R.FLM_SEQ.next_cmt, R.FLM_CNT.poison]
    omega
  unfold State.recCounted
  dsimp only
  split
  · rw [State.get_count_other _ _ _ _ poison, State.get_count_other _ _ _ _ records]
    exact State.get_put_same ..
  · rw [State.get_count_other _ _ _ _ records]
    exact State.get_put_same ..

/-- A record that comes in order and finds a slot. -/
theorem storeRemote_eq {u : State} {f i : Nat} {sp : Bool} (free : u.freeSlot f = some (sp, i)) (k : Nat) (h : Hdr) (data : List Byte) :
    ∃ bad, let w := (u.recStored f sp i { h with poison := h.poison || bad } data bad).recCounted f { h with poison := h.poison || bad }
      u.storeRemote k f h data = w.skwSend k 0 ftRACK [w.get (R.SKW_CHAN.peer (w.get (R.FLM_DESC.chan f))), h.rseq] := by
  refine ⟨u.writeBad (u.slotAddr f sp i) data.length, ?_⟩
  unfold State.storeRemote
  rw [free]
  rfl

theorem recStored_flume (u : State) (f : Nat) (sp : Bool) (i : Nat) (h : Hdr) (data : List Byte) (bad : Bool) :
    ((u.recStored f sp i h data bad).flume f).recs.length = (u.flume f).recs.length + 1 ∧
    ((u.recStored f sp i h data bad).flume f).expect = ((u.flume f).expect + 1) % 2 ^ 32 := by
  unfold State.recStored
  rw [setFlm_flume, if_pos rfl]
  exact ⟨by rw [List.length_append, List.length_singleton], rfl⟩

theorem recStored_byte (u : State) (f : Nat) (sp : Bool) (i : Nat) (h : Hdr) (data : List Byte) (bad : Bool) (x : Nat) :
    (u.recStored f sp i h data bad).byte x = (u.write (u.slotAddr f sp i) data).byte x :=
  (sameMem_of_unflumed (setFlm_unflumed (u.write (u.slotAddr f sp i) data) f _)).1 x

/-- A record that comes in order is stored. -/
theorem store_clause (up : s.skwUp k.val = true) (ok : s.chanOk k.val ch.val = true) {f : Nat} (on : s.flumeOn ch.val = some f)
    (live : s.flmState f = flmOPEN ∨ s.flmState f = flmHELD) (hdr : BitVec 512) (data : List Byte) {sp : Bool} {i : Nat}
    (next : (Hdr.ofNat hdr.toNat).rseq = (s.flume f).expect) (free : s.freeSlot f = some (sp, i))
    (clean : s.badIn (s.slotAddr f sp i) data.length = []) : ∃ t, exec (.skwRecordArrival k ch hdr data) s = .next t ∧
      (t.flume f).recs.length = (s.flume f).recs.length + 1 ∧ (t.flume f).expect = ((s.flume f).expect + 1) % 2 ^ 32 ∧
      t.get (R.FLM_SEQ.next_cmt f) = ((Hdr.ofNat hdr.toNat).rseq + 1) % 2 ^ 32 ∧
      (∀ j, j < data.length → t.byte (s.slotAddr f sp i + j) = data.getD j 0) ∧ SameMemBut s t (s.slotAddr f sp i) data.length := by
  have run := (exec_record_live up ok on live hdr data).trans (congrArg Host.Outcome.next (if_pos next))
  have same := took s k.val (1 + ceilDiv data.length 248)
  refine ⟨_, run, ?_⟩
  generalize s.skwTake k.val (1 + ceilDiv data.length 248) = u at *
  have freeU : u.freeSlot f = some (sp, i) := (congrArg (fun u : State => u.freeSlot f) same :).trans free
  have addr : u.slotAddr f sp i = s.slotAddr f sp i := slotAddr_of_unlinked same ..
  have cleanU : u.badIn (s.slotAddr f sp i) data.length = [] := (badIn_of_sameMem (sameMem_of_unlinked same) ..).trans clean
  obtain ⟨bad, stored⟩ := storeRemote_eq freeU k.val (Hdr.ofNat hdr.toNat) data
  dsimp only at stored
  rw [stored]
  obtain ⟨recs, expect⟩ := recStored_flume u f sp i { Hdr.ofNat hdr.toNat with poison := (Hdr.ofNat hdr.toNat).poison || bad } data bad
  have byte := recStored_byte u f sp i { Hdr.ofNat hdr.toNat with poison := (Hdr.ofNat hdr.toNat).poison || bad } data bad
  generalize u.recStored f sp i { Hdr.ofNat hdr.toNat with poison := (Hdr.ofNat hdr.toNat).poison || bad } data bad = v at *
  have counted := recCounted_unlogged v f { Hdr.ofNat hdr.toNat with poison := (Hdr.ofNat hdr.toNat).poison || bad }
  have next_ := recCounted_next v f { Hdr.ofNat hdr.toNat with poison := (Hdr.ofNat hdr.toNat).poison || bad }
  generalize v.recCounted f { Hdr.ofNat hdr.toNat with poison := (Hdr.ofNat hdr.toNat).poison || bad } = w at *
  have sent := skwSend_unlinked w k.val 0 ftRACK [w.get (R.SKW_CHAN.peer (w.get (R.FLM_DESC.chan f))), (Hdr.ofNat hdr.toNat).rseq]
  generalize w.skwSend k.val 0 ftRACK [w.get (R.SKW_CHAN.peer (w.get (R.FLM_DESC.chan f))), (Hdr.ofNat hdr.toNat).rseq] = t at *
  have flume : t.flume f = v.flume f := (flume_of_unlinked sent f).trans (congrArg (fun u : State => u.flume f) counted :)
  have bytes (x : Nat) : t.byte x = (u.write (s.slotAddr f sp i) data).byte x := by
    rw [(sameMem_of_unlinked sent).1, (sameMem_of_unlogged counted).1, byte, addr]
  have write (some_ : 0 < data.length) := write_byte (sound_of_badIn cleanU some_)
  refine ⟨by rw [flume, recs, flume_of_unlinked same], by rw [flume, expect, flume_of_unlinked same], (get_of_unlinked sent _).trans next_, fun j lt => ?_,
    fun x out => ?_⟩
  · rw [bytes, write (by omega), if_pos (by omega), Nat.add_sub_cancel_left, List.getD_eq_getElem _ _ lt, List.getD_eq_getElem _ _ lt]
  · rw [bytes, write_byte_keep, if_neg (by omega), (sameMem_of_unlinked same).1]

/-! ### Open exchanges (R148, R149, R158) -/

theorem sends_openMsg {u : State} {f ch k : Nat} (live : u.flmState f = flmOPEN ∨ u.flmState f = flmHELD) (chan : u.flmChan f = some ch)
    (link : u.get (R.SKW_CHAN.link ch) = k) (m : Ctrl) : Sends u (u.openMsg f m) k := by
  rw [flmChan_live live] at chan
  split at chan
  · cases chan
    unfold State.openMsg
    dsimp only
    rw [link]
    exact sends_skwSend ..
  · cases chan

/-- The answer to an open exchange, unless it is an answer. -/
def State.answerOpen (s : State) (f : Nat) (reply : Bool) : State := if reply then s else s.openMsg f .openAck

theorem answerOpen_unlinked (s : State) (f : Nat) (reply : Bool) : (s.answerOpen f reply).unlinked = s.unlinked := by
  unfold State.answerOpen
  split
  · rfl
  · exact skwCtrl_unlinked ..

theorem sends_answerOpen {u : State} {f ch k : Nat} (live : u.flmState f = flmOPEN ∨ u.flmState f = flmHELD) (chan : u.flmChan f = some ch)
    (link : u.get (R.SKW_CHAN.link ch) = k) (reply : Bool) : Sends u (u.answerOpen f reply) k := by
  unfold State.answerOpen
  split
  · exact Sends.refl u k
  · exact sends_openMsg live chan link _

/-- A flume whose two ends have reconciled. -/
def State.reconciled (u : State) (f : Nat) (p : Peer) (next held : Nat) : State :=
  (u.setFlm f ((u.flume f).reconcile p next held)).put (R.FLM_STAT.peer_closed f) 0

theorem exec_skwChannelOpen (up : s.skwUp k.val = true) (ok : s.chanOk k.val ch.val = true) {f : Nat} (on : s.flumeOn ch.val = some f)
    (live : s.flmState f = flmOPEN ∨ s.flmState f = flmHELD) (own : BitVec 13) (dir : BitVec 2) (depth : BitVec 13) (size : BitVec 15) (pair : BitVec 13)
    (next : BitVec 32) (held : BitVec 13) (reply : Bool) : exec (.skwChannelOpen k ⟨ch, own⟩ dir depth size pair next held reply) s = .next (
      let u := s.skwTake k.val 1
      let p : Peer := ⟨own.toNat, dir.toNat, depth.toNat, size.toNat, pair.toNat⟩
      if s.sameEnd f ch.val p = true then ((u.reconciled f p next.toNat held.toNat).answerOpen f reply).freeFlume f
      else (u.answerOpen f reply).mismatched E.FLM_PEER_DESC f) := by
  have same := took s k.val 1
  have ends (p : Peer) : (s.skwTake k.val 1).sameEnd f ch.val p = s.sameEnd f ch.val p := (congrArg (fun u : State => u.sameEnd f ch.val p) same :)
  have alive : ¬(s.flmState f ≠ flmOPEN ∧ s.flmState f ≠ flmHELD) := fun dead => live.elim dead.1 dead.2
  refine congrArg Host.Outcome.next ((if_neg (up_not_down up)).trans ((if_neg (took_ok ok _)).trans ?_))
  dsimp only
  rw [flumeOn_of_unlinked same, on]
  dsimp only
  rw [flmState_of_unlinked same, if_neg alive, ends]
  rfl

/-- What an exchange whose ends match changes of the flume. -/
theorem reconciled_facts (u : State) {f : Nat} (small : f < 8192) (p : Peer) (next held : Nat) :
    (u.reconciled f p next held).unflumed = u.unflumed ∧
    (∀ g, (u.reconciled f p next held).flume g = if g = f then (u.flume f).reconcile p next held else u.flume g) ∧
    (u.reconciled f p next held).get (R.FLM_STAT.peer_closed f) = 0 ∧ (u.reconciled f p next held).flmState f = u.flmState f ∧
    ∀ sp i, (u.reconciled f p next held).slotAddr f sp i = u.slotAddr f sp i := by
  have flume (g : Nat) := setFlm_flume u f g ((u.flume f).reconcile p next held)
  have unflumed := setFlm_unflumed u f ((u.flume f).reconcile p next held)
  have get (g : Fld) := setFlm_get u (f := f) (g := g) ((u.flume f).reconcile p next held)
  unfold State.reconciled
  generalize u.setFlm f ((u.flume f).reconcile p next held) = v at *
  have desc (g : Fld) (high : g.a < 8 * 0x3080000) : (v.put (R.FLM_STAT.peer_closed f) 0).get g = u.get g := by
    refine (State.get_put_other _ _ _ _ ?_).trans (get g ?_) <;> simp only [R.FLM_STAT.peer_closed, R.FLM_STAT.above_hi] <;> omega
  refine ⟨(put_unflumed ..).trans unflumed, flume, State.get_put_same .., (State.get_put_other _ _ _ _ ?_).trans (get _ ?_),
    slotAddr_congr (desc _ ?_) (desc _ ?_) (desc _ ?_)⟩ <;>
    simp only [R.FLM_STAT.state, R.FLM_STAT.peer_closed, R.FLM_STAT.above_hi, R.FLM_DESC.spill_base, R.FLM_DESC.store_base, R.FLM_DESC.rec_size] <;> omega

theorem peerClosed_kept (s : State) {f : Nat} (small : f < 8192) : (s.freeFlume f).get (R.FLM_STAT.peer_closed f) = s.get (R.FLM_STAT.peer_closed f) := by
  obtain ⟨-, -, -, kept⟩ := freeFlume_facts s small
  refine kept _ ?_ ?_ ?_ ?_ <;> simp only [Unnoted, R.FLM_STAT.peer_closed, R.FLM_STAT.state, R.FLM_STAT.above_hi] <;> omega

/-- Ends that match reconcile, and the flume goes OPEN. -/
theorem matched_facts {u : State} (sent : u.unlinked = s.unlinked) {f : Nat} (small : f < 8192) (live : s.flmState f = flmOPEN ∨ s.flmState f = flmHELD)
    (p : Peer) (next held : Nat) (reply : Bool) : let t := ((u.reconciled f p next held).answerOpen f reply).freeFlume f
    (∀ a, t.byte a = s.byte a) ∧ t.seqs = s.seqs ∧ (∀ g, g ≠ f → t.flume g = s.flume g) ∧ (s.cleanRecs f (s.flume f).staged → SameMem s t) ∧
    ((s.flume f).halfDown = false → t.flmState f = flmOPEN) ∧ t.get (R.FLM_STAT.peer_closed f) = 0 ∧ t.flume f = (s.flume f).reconcile p next held := by
  obtain ⟨unflumed, flume, closed, state, slots⟩ := reconciled_facts u small p next held
  have answered := answerOpen_unlinked (u.reconciled f p next held) f reply
  generalize u.reconciled f p next held = v at *
  generalize v.answerOpen f reply = w at *
  obtain ⟨unsent, clean, opened, -⟩ := freeFlume_facts w small
  have kept := peerClosed_kept w small
  have memW : SameMem s w := (sameMem_of_unlinked sent).trans ((sameMem_of_unflumed unflumed).trans (sameMem_of_unlinked answered))
  have seqsW : w.seqs = s.seqs := (congrArg State.seqs answered :).trans ((seqs_of_unflumed unflumed).trans (congrArg State.seqs sent :))
  have flumeW (g : Nat) : w.flume g = if g = f then (s.flume f).reconcile p next held else s.flume g := by
    rw [flume_of_unlinked answered, flume, flume_of_unlinked sent, flume_of_unlinked sent]
  have stateW : w.flmState f = s.flmState f := (flmState_of_unlinked answered f).trans (state.trans (flmState_of_unlinked sent f))
  have closedW : w.get (R.FLM_STAT.peer_closed f) = 0 := (get_of_unlinked answered _).trans closed
  have slotsW (sp : Bool) (i : Nat) : w.slotAddr f sp i = s.slotAddr f sp i :=
    (slotAddr_of_unlinked answered ..).trans ((slots sp i).trans (slotAddr_of_unlinked sent ..))
  have hereW : w.flume f = (s.flume f).reconcile p next held := (flumeW f).trans (if_pos rfl)
  dsimp only
  have flumeT (g : Nat) : (w.freeFlume f).flume g = w.flume g := (congrArg (fun u : State => u.flume g) unsent :)
  refine ⟨fun a => ?_, (congrArg State.seqs unsent :).trans seqsW, fun g other => ?_, fun good => memW.trans (clean fun r is => ?_), fun free => opened ?_,
    kept.trans closedW, (flumeT f).trans hereW⟩
  · exact (show (w.freeFlume f).byte a = w.byte a from (congrArg (fun u : State => u.byte a) unsent :)).trans (memW.1 a)
  · rw [flumeT, flumeW, if_neg other]
  · rw [badIn_of_sameMem memW, slotsW]
    rw [hereW] at is
    exact good r (List.mem_of_mem_filter is)
  · rcases live with is | is
    · exact .inr (stateW.trans is)
    · refine .inl ⟨stateW.trans is, ?_, ?_, ?_, ?_, ?_, flag_eq_false closedW⟩ <;> rw [hereW]
      · rfl
      · rfl
      · show (!(s.flume f).halfDown) = true
        rw [free]
        rfl
      · rfl
      · rfl

theorem open_clause (up : s.skwUp k.val = true) (ok : s.chanOk k.val ch.val = true) {f : Nat} (on : s.flumeOn ch.val = some f)
    (live : s.flmState f = flmOPEN ∨ s.flmState f = flmHELD) (own : BitVec 13) (dir : BitVec 2) (depth : BitVec 13) (size : BitVec 15) (pair : BitVec 13)
    (next : BitVec 32) (held : BitVec 13) (reply : Bool) {same : Prop}
    (ends : same ↔ (own.toNat = s.get (R.SKW_CHAN.peer ch.val) ∧ dir.toNat = s.get (R.FLM_DESC.dir f) ∧ depth.toNat = s.get (R.FLM_DESC.depth f) ∧
      size.toNat = s.get (R.FLM_DESC.rec_size f) ∧ pair.toNat = s.get (R.FLM_DESC.pair f))) :
    ∃ t, exec (.skwChannelOpen k ⟨ch, own⟩ dir depth size pair next held reply) s = .next t ∧ (∀ a, t.byte a = s.byte a) ∧ t.seqs = s.seqs ∧
      (∀ g, g ≠ f → t.flume g = s.flume g) ∧
      ((∀ r ∈ (s.flume f).staged, s.badIn (s.slotAddr f r.spill r.slot) r.hdr.len = []) → SameMem s t) ∧
      (same → (s.flume f).halfDown = false → t.flmState f = flmOPEN ∧ t.get (R.FLM_STAT.peer_closed f) = 0 ∧ (t.flume f).mismatch = false ∧
        (t.flume f).linkDown = false ∧ (t.flume f).opening = false ∧ (t.flume f).peerHeld = false ∧
        (t.flume f).staged = (s.flume f).staged.filter (fun r => !before r.hdr.rseq next.toNat)) ∧
      (¬same → t.flmState f = flmHELD ∧ (t.flume f).mismatch = true ∧ (t.flume f).staged = (s.flume f).staged ∧
        (t.log.head?.map LogEntry.code) = some E.FLM_PEER_DESC) := by
  obtain ⟨small, chan⟩ := mem_of_flumeOn on
  have run := exec_skwChannelOpen up ok on live own dir depth size pair next held reply
  have sent := sends_skwTake s k.val 1
  dsimp only at run
  by_cases match_ : same
  · have yes : s.sameEnd f ch.val ⟨own.toNat, dir.toNat, depth.toNat, size.toNat, pair.toNat⟩ = true := decide_eq_true (ends.1 match_)
    rw [if_pos yes] at run
    obtain ⟨bytes, seqs, others, clean, opened, closed, here⟩ := matched_facts sent.rest small live ⟨own.toNat, dir.toNat, depth.toNat, size.toNat, pair.toNat⟩
      next.toNat held.toNat reply
    refine ⟨_, run, bytes, seqs, others, clean, fun _ free => ⟨opened free, closed, ?_, ?_, ?_, ?_, ?_⟩, fun no => absurd match_ no⟩ <;> rw [here] <;> rfl
  · have no : ¬s.sameEnd f ch.val ⟨own.toNat, dir.toNat, depth.toNat, size.toNat, pair.toNat⟩ = true := mt of_decide_eq_true (mt ends.2 match_)
    rw [if_neg no] at run
    have liveU : (s.skwTake k.val 1).flmState f = flmOPEN ∨ (s.skwTake k.val 1).flmState f = flmHELD := by
      rw [flmState_of_unlinked sent.rest]
      exact live
    have answered := sent.trans (sends_answerOpen liveU ((flmChan_of_unlinked sent.rest f).trans chan)
      ((get_of_unlinked sent.rest _).trans (chanOk_iff.1 ok).2) reply)
    obtain ⟨mem, -, seqs, state, mismatch, staged, -, -, others, log⟩ := mismatched_facts answered live small chan (chanOk_iff.1 ok).2 E.FLM_PEER_DESC
    exact ⟨_, run, mem.1, seqs, others, fun _ => mem, fun yes => absurd yes match_, fun _ => ⟨state, mismatch, staged, log⟩⟩

end

/-- Settles O28, frame by frame: what a channel of a session that is up does with each. -/
theorem skidwayChannels : Obligations.SkidwayChannels := by
  intro s k ch
  refine ⟨fun down => down_clause down, fun c kind len some_ low => listed_clause c len some_ low, fun up => ⟨fun f on ok closing hdr data =>
      closed_record up ok (.inl ⟨on, closing⟩) hdr data, fun f was ok off => ⟨fun hdr data => closed_record up ok (.inr ⟨off, was⟩) hdr data,
        fun o d z r p n h y => closed_open up ok was off o d z r p n h y⟩, fun f on ok live => ⟨?_, close_clause up ok on live, notice_clause up ok on live,
        fun hdr data => ⟨fun sp i next free clean => store_clause up ok on live hdr data next free clean, again_clause up ok on live hdr data,
          early_clause up ok on live hdr data⟩, fun rseq => rack_clause up ok on rseq, fun n => credit_clause up ok on n⟩,
    fun no r n h d w o z y => stray_clause up no r n h d w o z y, fun c kind len unlisted => unlisted_clause up c len unlisted⟩⟩
  exact fun own dir depth size pair next held reply => open_clause up ok on live own dir depth size pair next held reply Iff.rfl

end Sys2Proof.Machine

namespace Sys2Proof.Machine

-- One proof at a time: threads that wait for each other hold memory.
set_option Elab.async false

/-! ## The sequencers of a context stop (R439) -/

/-- The fields that say what a sequencer is, and for which context. -/
theorem seqPlace_apart {j k : Nat} (one : j < 96) (two : k < 96) (other : j ≠ k) :
    (R.SEQ_STAT.state (j / 4) (j % 4)).a ≠ (R.SEQ_STAT.state (k / 4) (k % 4)).a := by
  simp only [R.SEQ_STAT.state]
  omega

/-- A field of the compute dies that no stop of issue writes. -/
theorem stopIssue_state (s : State) {j k : Nat} (one : j < 96) (two : k < 96) : (s.stopIssue k).seqState j = s.seqState j := by
  refine stopIssue_keeps s ?_ ?_ <;> simp only [R.SEQ_STAT.state, R.SEQ_STAT.wait, R.VER_HDR.gate_hold] <;> omega

theorem stopIssue_ctx (s : State) {j k : Nat} (one : j < 96) (two : k < 96) : (s.stopIssue k).seqCtx j = s.seqCtx j := by
  refine stopIssue_keeps s ?_ ?_ <;> simp only [R.SEQ_BIND.ctx, R.SEQ_STAT.wait, R.VER_HDR.gate_hold] <;> omega

theorem setSeqState_other (s : State) {j k v : Nat} (one : j < 96) (two : k < 96) (other : j ≠ k) : (s.setSeqState k v).seqState j = s.seqState j := by
  refine setSeqState_get_other s (seqPlace_apart one two other) fun c small => ?_
  simp only [R.SEQ_STAT.state, R.CTX_FAULT.faulted]
  omega

theorem setSeqState_ctx (s : State) {j k v : Nat} (one : j < 96) (two : k < 96) : (s.setSeqState k v).seqCtx j = s.seqCtx j := by
  refine setSeqState_get_other s ?_ fun c small => ?_
  · simp only [R.SEQ_BIND.ctx, R.SEQ_STAT.state]
    omega
  · simp only [R.SEQ_BIND.ctx, R.CTX_FAULT.faulted]
    omega

/-- A running sequencer of the context. -/
def State.runsFor (s : State) (c k : Nat) : Prop := s.seqBound k = true ∧ s.seqCtx k = c ∧ s.seqState k = seqRUNNING

theorem runsFor_congr {s t : State} {c k : Nat} (state : t.seqState k = s.seqState k) (ctx : t.seqCtx k = s.seqCtx k) : t.runsFor c k ↔ s.runsFor c k := by
  rw [State.runsFor, State.runsFor, State.seqBound, State.seqBound, state, ctx]

/-- A sequencer of the context that runs halts. -/
def State.haltOne (c : Nat) (s : State) (k : Nat) : State :=
  if s.seqBound k ∧ s.seqCtx k = c ∧ s.seqState k = seqRUNNING then (s.stopIssue k).setSeqState k seqHALTED else s

theorem haltSeqs_eq (s : State) (c : Nat) : s.haltSeqs c = (List.range 96).foldl (State.haltOne c) s := rfl

theorem haltOne_runs {s : State} {c k : Nat} (runs : s.runsFor c k) : s.haltOne c k = (s.stopIssue k).setSeqState k seqHALTED := if_pos runs

theorem haltOne_idle {s : State} {c k : Nat} (idle : ¬s.runsFor c k) : s.haltOne c k = s := if_neg idle

theorem haltOne_other (s : State) (c : Nat) {j k : Nat} (one : j < 96) (two : k < 96) (other : j ≠ k) :
    (s.haltOne c k).seqState j = s.seqState j ∧ (s.haltOne c k).seqCtx j = s.seqCtx j := by
  by_cases runs : s.runsFor c k
  · rw [haltOne_runs runs, setSeqState_other _ one two other, setSeqState_ctx _ one two]
    exact ⟨stopIssue_state s one two, stopIssue_ctx s one two⟩
  · rw [haltOne_idle runs]
    exact ⟨rfl, rfl⟩

theorem haltOnes_halted (c : Nat) {k : Nat} (key : k < 96) (l : List Nat) (small : ∀ j ∈ l, j < 96) (s : State) :
    (k ∈ l → s.runsFor c k → (l.foldl (State.haltOne c) s).seqState k = seqHALTED) ∧
    (s.seqState k = seqHALTED → (l.foldl (State.haltOne c) s).seqState k = seqHALTED) := by
  induction l generalizing s with
  | nil => exact ⟨fun mem => absurd mem List.not_mem_nil, fun halted => halted⟩
  | cons j l ih =>
    obtain ⟨runs, stays⟩ := ih (fun i mem => small i (List.mem_cons_of_mem j mem)) (s.haltOne c j)
    have other (ne : k ≠ j) := haltOne_other s c key (small j List.mem_cons_self) ne
    refine ⟨fun mem running => ?_, fun halted => stays ?_⟩
    · by_cases same : k = j
      · subst same
        refine stays ?_
        rw [haltOne_runs running]
        exact setSeqState_seqState _ (by decide)
      · obtain ⟨state, ctx⟩ := other same
        exact runs ((List.mem_cons.1 mem).resolve_left same) ((runsFor_congr state ctx).2 running)
    · by_cases same : k = j
      · subst same
        rw [haltOne_idle fun running => absurd (halted.symm.trans running.2.2) (by decide)]
        exact halted
      · rw [(other same).1]
        exact halted

/-- A context that stops, before its sequencers do. -/
def State.stopping (s : State) (c : Nat) : State :=
  let u := s.put (R.CTX_STATE.state c) 2
  { u with srings := KMap.dropRange u.srings (16 * c) (16 * c + 16), fetched := KMap.drop u.fetched c }

/-- The start of a teardown halts the sequencers that run for the context. -/
theorem beginTeardown_halted {s : State} {c k : Nat} (live : s.get (R.CTX_STATE.state c) = 1) (ctx : c < 64) (key : k < 96) (running : s.runsFor c k) :
    (s.beginTeardown c).seqState k = seqHALTED := by
  have put (g : Fld) (apart : g.a ≠ (R.CTX_STATE.state c).a) :
      (s.stopping c).get g = s.get g :=
    (get_congr rfl g).trans (State.get_put_other _ _ _ _ apart)
  have is : s.beginTeardown c = (s.stopping c).haltSeqs c :=
    if_pos live
  rw [is, haltSeqs_eq]
  refine (haltOnes_halted c key _ (fun j mem => List.mem_range.1 mem) _).1 (List.mem_range.2 key) ((runsFor_congr (put _ ?_) (put _ ?_)).2 running) <;>
    simp only [R.SEQ_STAT.state, R.SEQ_BIND.ctx, R.CTX_STATE.state] <;> omega

/-! ## The order of a teardown (R439, R457) -/

section Order
variable {s : State} {c : Fin 64} {o : Order}

theorem orderDone_won (s : State) (o : Order) : (s.orderDone o).won = s.won.erase o :=
  (congrArg State.won (orderResult_unlogged { s with won := s.won.erase o } o 1) :)

theorem orderDone_sameMem (s : State) (o : Order) : SameMem s (s.orderDone o) := by
  have same := orderResult_unlogged { s with won := s.won.erase o } o 1
  exact sameMem_of_eq (congrArg State.mem same :) (congrArg State.bad same :) (congrArg State.plist same :) (congrArg State.linkErr same :)

theorem orderDone_get (s : State) (o : Order) {g : Fld} (busy : g.a ≠ R.ORD_STAT.busy.a) (result : g.a ≠ R.ORD_STAT.result.a) :
    (s.orderDone o).get g = s.get g := by
  unfold State.orderDone State.orderResult
  split
  · exact (puts_get_other _ (List.forall_mem_cons.2 ⟨busy, List.forall_mem_cons.2 ⟨result, List.forall_mem_nil _⟩⟩)).trans (withWon_get ..)
  · split <;> exact get_congr rfl _

theorem exec_contextTeardown (due : s.orderDue 4 c.val = some o) : exec (.contextTeardown c) s = .next ((s.beginTeardown c.val).orderDone o) := by
  show Host.Outcome.next (match s.orderDue 4 c.val with
    | some o => (s.beginTeardown c.val).orderDone o
    | none => s) = _
  rw [due]

theorem exec_contextTeardown_none (none_ : s.orderDue 4 c.val = none) : exec (.contextTeardown c) s = .next s := by
  show Host.Outcome.next (match s.orderDue 4 c.val with
    | some o => (s.beginTeardown c.val).orderDone o
    | none => s) = _
  rw [none_]

theorem contextTeardown_clause (due : s.orderDue 4 c.val = some o) : ∃ t, exec (.contextTeardown c) s = .next t ∧ SameMem s t ∧ t.won = s.won.erase o ∧
    t.get (R.CTX_STATE.state c.val) = (if s.get (R.CTX_STATE.state c.val) = 1 then 2 else s.get (R.CTX_STATE.state c.val)) ∧
    (s.get (R.CTX_STATE.state c.val) = 1 → ∀ k, k < 96 → s.seqBound k = true → s.seqCtx k = c.val → s.seqState k = seqRUNNING → t.seqState k = seqHALTED) := by
  have begun := beginTeardown_unbegun s c.val
  have state := beginTeardown_state s c.isLt
  have halted (live : s.get (R.CTX_STATE.state c.val) = 1) (k : Nat) (key : k < 96) (running : s.runsFor c.val k) :=
    beginTeardown_halted live c.isLt key running
  refine ⟨_, exec_contextTeardown due, ?_⟩
  generalize s.beginTeardown c.val = u at *
  refine ⟨(rest_of_unbegun begun).2.2.trans (orderDone_sameMem u o), ?_, (orderDone_get u o ?_ ?_).trans state, fun live k key bound ctx running =>
    (orderDone_get u o ?_ ?_).trans (halted live k key ⟨bound, ctx, running⟩)⟩
  · rw [orderDone_won, show u.won = s.won from (congrArg State.won begun :)]
  all_goals
    simp only [R.CTX_STATE.state, R.SEQ_STAT.state, R.ORD_STAT.busy, R.ORD_STAT.result]
    omega

end Order

/-! ## The page of a context at reset (R461) -/

theorem regReset_out (s : State) {lo hi : Nat} {g : Fld} (out : g.a < 8 * lo ∨ 8 * hi ≤ g.a) : (s.regReset lo hi).get g = s.get g :=
  (regReset_get ..).trans (if_neg (by omega))

theorem regReset_in (s : State) {lo hi : Nat} {g : Fld} (low : 8 * lo ≤ g.a) (high : g.a < 8 * hi) (zero : resetVal g.a = 0) : (s.regReset lo hi).get g = 0 := by
  rw [regReset_get, if_pos ⟨low, high⟩, zero, Nat.zero_mod]

theorem regReset_unregistered (s : State) (lo hi : Nat) : ({ s.regReset lo hi with shadow := s.shadow } : State).unregistered = s.unregistered := rfl

/-- A context's page with its registers at reset and its state kept. -/
def State.pageReset (s : State) (c : Nat) : State :=
  (s.regReset (0x0010_0000 + 0x1000 * c) (0x0010_0000 + 0x1000 * c + 0x1000)).put (R.CTX_STATE.state c) (s.get (R.CTX_STATE.state c))

theorem resetPage_get (s : State) (c : Nat) (g : Fld) : (s.resetPage c).get g = (s.pageReset c).get g := get_congr rfl g

theorem resetPage_rest (s : State) (c : Nat) : SameMem s (s.resetPage c) ∧ (s.resetPage c).fns = s.fns ∧ (s.resetPage c).vfOn = s.vfOn ∧
    (s.resetPage c).vfs = s.vfs ∧ (s.resetPage c).cutForce = s.cutForce ∧ (s.resetPage c).cutPend = s.cutPend ∧ (s.resetPage c).ckpts = s.ckpts :=
  ⟨sameMem_of_eq rfl rfl rfl rfl, rfl, rfl, rfl, rfl, rfl, rfl⟩

theorem resetPage_state (s : State) (c : Nat) : (s.resetPage c).get (R.CTX_STATE.state c) = s.get (R.CTX_STATE.state c) := by
  rw [resetPage_get, State.pageReset, State.get_put_same]
  exact Nat.mod_eq_of_lt (State.get_lt s (R.CTX_STATE.state c))

theorem resetPage_out (s : State) {c : Nat} {g : Fld} (out : g.a < 8 * (0x0010_0000 + 0x1000 * c) ∨ 8 * (0x0010_0000 + 0x1000 * c + 0x1000) ≤ g.a) :
    (s.resetPage c).get g = s.get g := by
  rw [resetPage_get, State.pageReset, State.get_put_other _ _ _ _ (by simp only [R.CTX_STATE.state]; omega), regReset_out s out]

/-- A field of a context's page is 0 at reset. -/
theorem resetPage_in (s : State) {c : Nat} (ctx : c < 64) {g : Fld} (low : 8 * (0x0010_0000 + 0x1000 * c) ≤ g.a)
    (high : g.a < 8 * (0x0010_0000 + 0x1000 * c + 0x1000)) (apart : g.a ≠ (R.CTX_STATE.state c).a) : (s.resetPage c).get g = 0 := by
  have zero : resetVal g.a = 0 := resetVal_zero (lo := 8 * 0x100000) (hi := 8 * 0x140000) (by decide) (by omega) (by omega)
  rw [resetPage_get, State.pageReset, State.get_put_other _ _ _ _ apart, regReset_in s low high zero]

/-! ## Function-level resets (R437, R461, R505) -/

section Vf
variable {s : State} {c : Fin 64}

theorem resetFn_facts (s : State) (c : Nat) : SameMem s (s.resetFn c) ∧ (s.resetFn c).regs = s.regs ∧
    ∀ d, (s.resetFn c).fn d = if d = c then Fn.off else s.fn d :=
  ⟨sameMem_of_eq rfl rfl rfl rfl, rfl, fun d => KMap.find_drop _ s.fns c d⟩

theorem fn_of_fns {s t : State} (same : t.fns = s.fns) (d : Nat) : t.fn d = s.fn d := by rw [State.fn, same, State.fn]

theorem vfFlr_off (off : s.portUp = false ∨ c.val = 0 ∨ s.funcExists c.val = false) : exec (.vfFlr c) s = .next s := by
  refine congrArg Host.Outcome.next (if_neg fun on => ?_)
  obtain ⟨up, some_, exists_⟩ := on
  rcases off with down | zero | gone
  · exact absurd (down.symm.trans up) (by decide)
  · omega
  · exact absurd (gone.symm.trans exists_) (by decide)

theorem vfFlr_clause (up : s.portUp = true) (some_ : 0 < c.val) (exists_ : s.funcExists c.val = true) : ∃ t, exec (.vfFlr c) s = .next t ∧ SameMem s t ∧
    t.fn c.val = Fn.off ∧
    t.get (R.CTX_STATE.state c.val) = (if s.get (R.CTX_STATE.state c.val) = 1 then 2 else s.get (R.CTX_STATE.state c.val)) ∧
    (∀ q, q < 16 → t.get (R.SQ_CFG.en c.val q) = 0) ∧ ∀ d, d ≠ c.val → t.fn d = s.fn d := by
  have begun := beginTeardown_unbegun s c.val
  have state := beginTeardown_state s c.isLt
  refine ⟨((s.beginTeardown c.val).resetFn c.val).resetPage c.val, congrArg Host.Outcome.next (if_pos ⟨up, some_, exists_⟩), ?_⟩
  generalize s.beginTeardown c.val = u at *
  obtain ⟨mem, regs, fn⟩ := resetFn_facts u c.val
  generalize u.resetFn c.val = v at *
  obtain ⟨mem', fns, -⟩ := resetPage_rest v c.val
  refine ⟨(rest_of_unbegun begun).2.2.trans (mem.trans mem'), ?_, ?_, fun q small => resetPage_in v c.isLt ?_ ?_ ?_, fun d other => ?_⟩
  · rw [fn_of_fns fns, fn, if_pos rfl]
  · rw [resetPage_state, get_congr regs, state]
  · simp only [R.SQ_CFG.en]
    omega
  · simp only [R.SQ_CFG.en]
    omega
  · simp only [R.SQ_CFG.en, R.CTX_STATE.state]
    omega
  · have fnsU : u.fns = s.fns := (congrArg State.fns begun :)
    rw [fn_of_fns fns, fn, if_neg other, fn_of_fns fnsU]

end Vf

section Pf
variable {s : State}

/-- The host-control registers at reset. -/
def State.hostReset (s : State) : State :=
  ((s.regReset 0x0018_0000 0x0018_1000).regReset 0x0018_1100 0x0018_2000).regReset 0x0018_2010 0x0018_2018

theorem resetHostControl_get (s : State) (g : Fld) : s.resetHostControl.get g = s.hostReset.get g := get_congr rfl g

theorem resetHostControl_rest (s : State) : SameMem s s.resetHostControl ∧ s.resetHostControl.fns = s.fns ∧ s.resetHostControl.vfOn = s.vfOn ∧
    s.resetHostControl.vfs = s.vfs := ⟨sameMem_of_eq rfl rfl rfl rfl, rfl, rfl, rfl⟩

theorem resetHostControl_out (s : State) {g : Fld} (one : g.a < 8 * 0x180000 ∨ 8 * 0x181000 ≤ g.a) (two : g.a < 8 * 0x181100 ∨ 8 * 0x182000 ≤ g.a)
    (three : g.a < 8 * 0x182010 ∨ 8 * 0x182018 ≤ g.a) : s.resetHostControl.get g = s.get g := by
  rw [resetHostControl_get, State.hostReset, regReset_out _ three, regReset_out _ two, regReset_out _ one]

theorem resetHostControl_base (s : State) {c : Nat} (ctx : c < 64) : s.resetHostControl.get (R.CTX_B4BASE.base c) = 0 := by
  have zero : resetVal (R.CTX_B4BASE.base c).a = 0 := by
    refine resetVal_zero (lo := 8 * 0x180000) (hi := 8 * 0x181000) (by decide) ?_ ?_ <;> simp only [R.CTX_B4BASE.base] <;> omega
  rw [resetHostControl_get, State.hostReset, regReset_out, regReset_out, regReset_in s _ _ zero] <;> simp only [R.CTX_B4BASE.base] <;> omega

theorem pfFlr_clause (up : s.portUp = true) : ∃ t, exec .pfFlr s = .next t ∧ SameMem s t ∧ t.vfOn = false ∧ t.vfs = 0 ∧ t.fns = [] ∧
    (∀ c, c < 64 → t.get (R.CTX_STATE.state c) = (if s.get (R.CTX_STATE.state c) = 1 then 2 else s.get (R.CTX_STATE.state c)) ∧
      t.get (R.CTX_B4BASE.base c) = 0) ∧
    t.get R.OWN_LOCK.mgmt = s.get R.OWN_LOCK.mgmt ∧ t.get R.OWN_LOCK.lockdown = s.get R.OWN_LOCK.lockdown ∧
    t.get R.OWN_LOG.count = s.get R.OWN_LOG.count := by
  have begun := resetFunctions_unbegun s
  have state {c : Nat} (ctx : c < 64) := resetFunctions_state s ctx
  have kept (g : Fld) (high : 8 * 0x182000 ≤ g.a ∧ g.a < 8 * 0x182010) (apart : ∀ c j, j < 2 → g.a ≠ (R.CTX_FAULT.faulted c j).a) :
      (s.resetFunctions.resetHostControl.resetPage 0).get g = s.get g := by
    refine (resetPage_out _ (.inr (by omega))).trans ((resetHostControl_out _ ?_ ?_ ?_).trans (resetFunctions_get s ⟨.inl ?_, apart⟩ fun c small => ?_))
    any_goals simp only [R.CTX_STATE.state]
    all_goals omega
  refine ⟨(s.resetFunctions.resetHostControl).resetPage 0, congrArg Host.Outcome.next (if_pos up), ?_⟩
  have own := And.intro (kept R.OWN_LOCK.mgmt (by decide) fun c j small => by simp only [R.OWN_LOCK.mgmt, R.CTX_FAULT.faulted]; omega)
    (And.intro (kept R.OWN_LOCK.lockdown (by decide) fun c j small => by simp only [R.OWN_LOCK.lockdown, R.CTX_FAULT.faulted]; omega)
      (kept R.OWN_LOG.count (by decide) fun c j small => by simp only [R.OWN_LOG.count, R.CTX_FAULT.faulted]; omega))
  generalize s.resetFunctions = u at *
  obtain ⟨mem, fns, vfOn, vfs⟩ := resetHostControl_rest u
  have base {c : Nat} (ctx : c < 64) := resetHostControl_base u ctx
  have place {c : Nat} (ctx : c < 64) : u.resetHostControl.get (R.CTX_STATE.state c) = u.get (R.CTX_STATE.state c) := by
    refine resetHostControl_out u (.inl ?_) (.inl ?_) (.inl ?_) <;> simp only [R.CTX_STATE.state] <;> omega
  generalize u.resetHostControl = v at *
  obtain ⟨mem', fns', vfOn', vfs', -⟩ := resetPage_rest v 0
  have begunMem : SameMem s u := sameMem_of_eq (congrArg State.mem begun :) (congrArg State.bad begun :) (congrArg State.plist begun :) (congrArg State.linkErr begun :)
  refine ⟨begunMem.trans (mem.trans mem'), (vfOn'.trans vfOn).trans (congrArg State.vfOn begun :), (vfs'.trans vfs).trans (congrArg State.vfs begun :),
    (fns'.trans fns).trans (congrArg State.fns begun :), fun c ctx => ⟨?_, ?_⟩, own⟩
  · have page : (v.resetPage 0).get (R.CTX_STATE.state c) = v.get (R.CTX_STATE.state c) := by
      by_cases zero : c = 0
      · subst zero
        exact resetPage_state v 0
      · refine resetPage_out v (.inr ?_)
        simp only [R.CTX_STATE.state]
        omega
    rw [page, place ctx, state ctx]
  · refine (resetPage_out v (.inr ?_)).trans (base ctx)
    simp only [R.CTX_B4BASE.base]
    omega

end Pf

end Sys2Proof.Machine

namespace Sys2Proof.Machine

-- One proof at a time: threads that wait for each other hold memory.
set_option Elab.async false

/-! ## Resources taken back (R439 steps 3 and 4) -/

theorem foldl_get {α : Type} {f : State → α → State} {g : Fld} {l : List α} (keeps : ∀ a ∈ l, ∀ s : State, (f s a).get g = s.get g) (s : State) :
    (l.foldl f s).get g = s.get g :=
  List.foldlRecOn l f (motive := fun t : State => t.get g = s.get g) rfl fun t same a mem => (keeps a mem t).trans same

/-- A place among the permission windows. -/
def WindowPlace (g : Fld) : Prop := 8 * 0x160000 ≤ g.a ∧ g.a < 8 * 0x164000

theorem window_place {c w : Nat} (ctx : c < 64) (win : w < 16) : WindowPlace (R.MEM_WIN.en c w) := by
  simp only [WindowPlace, R.MEM_WIN.en]
  omega

theorem emitSrc_get (s : State) (i : Nat) (o : Out) (g : Fld) : (s.emitSrc i o).get g = s.get g := by
  unfold State.emitSrc
  dsimp only
  split <;> exact get_congr rfl g

/-- A restored layer's record leaves the quarantined billets that name it. -/
def State.unnamed (s : State) (i : Nat) : State :=
  (List.range 32).foldl (fun s j => if s.flag (R.HAUL_QUAR.active j) ∧ s.get (R.HAUL_QUAR.rec j) = i then s.put (R.HAUL_QUAR.rec j) 511 else s) s

/-- The record itself gone. -/
def State.recGone (s : State) (i : Nat) : State :=
  { s.regReset (0x0392_0000 + 0x40 * i) (0x0392_0000 + 0x40 * i + 0x40) with hrecs := KMap.drop s.hrecs i }

theorem recGone_get (s : State) (i : Nat) (g : Fld) :
    (s.recGone i).get g = (s.regReset (0x0392_0000 + 0x40 * i) (0x0392_0000 + 0x40 * i + 0x40)).get g := get_congr rfl g

theorem dropRec_eq (s : State) (i : Nat) : s.dropRec i = (s.unnamed i).recGone i := rfl

/-- The tables of a stage with their registers at reset. -/
def State.tablesReset (s : State) (l : Nat) : State :=
  ((s.regReset (0x0380_0000 + 0x2000 * l) (0x0380_0000 + 0x2000 * l + 0x2000)).regReset (0x038D_0000 + 0x20 * l) (0x038D_0000 + 0x20 * l + 0x20)).regReset
    (0x0110_0000 + 0x40_0000 * (l / 24) + 0x2_0000 * (l % 24)) (0x0110_0000 + 0x40_0000 * (l / 24) + 0x2_0000 * (l % 24) + 0x2_0000)

theorem withTables_get (s : State) (l : Nat) (g : Fld) :
    ({ s with pinEnd := KMap.drop s.pinEnd l, refill := KMap.dropRange s.refill (4 * l) (4 * l + 4) } : State).get g = s.get g := get_congr rfl g

theorem resetTables_get (s : State) (l : Nat) (g : Fld) : (s.resetTables l).get g = (s.tablesReset l).get g := withTables_get (s.tablesReset l) l g

/-- The phases of a stage with their registers at reset. -/
def State.phaseReset (s : State) (l : Nat) : State :=
  (s.regReset (0x0014_3000 + 8 * l) (0x0014_3000 + 8 * l + 8)).regReset (0x0014_3400 + 8 * l) (0x0014_3400 + 8 * l + 8)

theorem unmarked_get (s : State) (l : Nat) (g : Fld) :
    ({ s.clearMarks l with owed := KMap.drop s.owed l } : State).get g = s.get g := get_congr rfl g

theorem resetPhase_get (s : State) (l : Nat) (g : Fld) : (s.resetPhase l).get g = (s.phaseReset l).get g := unmarked_get (s.phaseReset l) l g

theorem unscaled_get (s : State) (n : Nat) (g : Fld) :
    ({ s with sctlPend := KMap.dropRange s.sctlPend (256 * n) (256 * n + 256) } : State).get g = s.get g := get_congr rfl g

/-- A context's job with its registers at reset. -/
def State.jobReset (s : State) (c : Nat) : State :=
  (((((s.regReset (0x0014_0000 + 0x20 * c) (0x0014_0000 + 0x20 * c + 0x20)).regReset (0x0014_2000 + 8 * c) (0x0014_2000 + 8 * c + 8)).regReset
    (0x0014_4000 + 0x10 * c) (0x0014_4000 + 0x10 * c + 0x10)).regReset (0x0014_5000 + 8 * c) (0x0014_5000 + 8 * c + 8)).regReset
    (0x0015_0000 + 0x40 * c) (0x0015_0000 + 0x40 * c + 0x40)).regReset (0x03A0_0000 + 0x100 * c) (0x03A0_0000 + 0x100 * c + 0x100)

/-- A context without a job and without attempts. -/
def State.jobless (s : State) (c : Nat) : State :=
  { s with
    cutForce := KMap.dropRange s.cutForce (3 * c) (3 * c + 3)
    cutPend := KMap.dropRange s.cutPend (3 * c) (3 * c + 3)
    jobs := KMap.drop s.jobs c
    ckpts := KMap.drop s.ckpts c
    scaleDue := s.scaleDue.filter (fun x => decide (x.2.2.1 ≠ c)) }

theorem jobless_get (s : State) (c : Nat) (g : Fld) : (s.jobless c).get g = s.get g := get_congr rfl g

theorem resetJob_eq (s : State) (c : Nat) : s.resetJob c = (s.jobReset c).jobless c := rfl

theorem resetJob_get (s : State) (c : Nat) (g : Fld) : (s.resetJob c).get g = (s.jobReset c).get g := by rw [resetJob_eq, jobless_get]

/-- The channels of a context that the teardown takes back. -/
def State.chansOf (s : State) (c : Nat) : List Nat :=
  (s.regs.map Prod.fst).filterMap (fun a =>
    let ch := (a / 8 - 0x03B1_0000) / 8
    if 0x03B1_0000 ≤ a / 8 ∧ ch < 8192 ∧ a = (R.SKW_CHAN.en ch).a ∧ s.get (R.SKW_CHAN.ctx ch) = c ∧ s.chanCloses ch = false then some ch
    else none)

/-- A channel at reset. -/
def State.chanReset (s : State) (ch : Nat) : State := s.regReset (0x03B1_0000 + 8 * ch) (0x03B1_0000 + 8 * ch + 8)

theorem resetChannels_eq (s : State) (c : Nat) :
    s.resetChannels c = ((s.chansOf c).foldl State.chanReset s).regReset (0x03B3_0000 + 0x10 * c) (0x03B3_0000 + 0x10 * c + 0x10) := rfl

theorem regReset_uncommitted (s : State) (lo hi : Nat) : (s.regReset lo hi).uncommitted = s.uncommitted := rfl

theorem resetChannels_uncommitted (s : State) (c : Nat) : (s.resetChannels c).uncommitted = s.uncommitted := by
  rw [resetChannels_eq, regReset_uncommitted]
  exact foldl_keeps State.uncommitted State.chanReset (fun s ch => regReset_uncommitted s _ _) _ s

theorem resetChannels_low {c : Nat} {g : Fld} (low : g.a < 8 * 0x3b10000) (s : State) : (s.resetChannels c).get g = s.get g := by
  rw [resetChannels_eq, regReset_out _ (.inl (by omega))]
  exact foldl_get (fun ch _ s => regReset_out s (.inl (by omega))) s

section Window
variable {g : Fld} (place : WindowPlace g)
include place

theorem closeFlume_window (f : Nat) (s : State) : (s.closeFlume f).get g = s.get g := by
  obtain ⟨-, high⟩ := place
  refine closeFlume_get s ?_ ?_ ?_ <;> simp only [R.FLM_CNT.discard, R.FLM_STAT.state, R.FLM_STAT.above_hi] <;> omega

theorem liftQuar_window (j : Nat) (s : State) : (s.liftQuar j).get g = s.get g :=
  (get_congr rfl g).trans (regReset_out s (.inl (by have := place.2; omega)))

theorem dropRec_window (i : Nat) (s : State) : (s.dropRec i).get g = s.get g := by
  rw [dropRec_eq]
  refine (recGone_get ..).trans ((regReset_out _ (.inl (by have := place.2; omega))).trans (foldl_get (fun j _ s => ?_) s))
  split
  · exact State.get_put_other _ _ _ _ (by have := place.2; simp only [R.HAUL_QUAR.rec]; omega)
  · rfl

theorem haulTeardown_window (c : Nat) (s : State) : (s.haulTeardown c).get g = s.get g := by
  have high := place.2
  unfold State.haulTeardown
  refine (holdDomains_get _ ?_).trans ((foldl_get (fun i _ => dropRec_window place i) _).trans ((foldl_get (fun j _ => liftQuar_window place j) _).trans
    ((foldl_get (fun i _ s => ?_) _).trans (foldl_get (fun ch _ s => ?_) s))))
  · simp only [R.PWR_PD.on]
    omega
  · split
    · refine (emitSrc_get _ i _ g).trans ((puts_get_other _ ?_).trans (get_congr rfl g))
      refine List.forall_mem_cons.2 ⟨?_, List.forall_mem_cons.2 ⟨?_, List.forall_mem_nil _⟩⟩ <;> simp only [R.HAUL_SRC.en, R.HAUL_SSTAT.state] <;> omega
    · rfl
  · split
    · refine (puts_get_other _ ?_).trans (get_congr rfl g)
      refine List.forall_mem_cons.2 ⟨?_, List.forall_mem_cons.2 ⟨?_, List.forall_mem_cons.2 ⟨?_, List.forall_mem_nil _⟩⟩⟩ <;>
        simp only [R.HAUL_CHAN.en, R.HAUL_CSTAT.state, R.HAUL_PTR.head] <;> omega
    · rfl

theorem siteTeardown_window (c : Nat) (s : State) : (s.siteTeardown c).get g = s.get g := by
  unfold State.siteTeardown
  refine foldl_get (fun u _ s => ?_) s
  split
  · refine (State.get_put_other _ _ _ _ (by have := place.2; simp only [R.PART_CTL.en]; omega)).trans ?_
    have told : ((s.part u).wait.foldl (fun s _ => s.emit (.site u 2 [E.LINK_PARTNER, 0])) s).get g = s.get g :=
      foldl_get (f := fun s _ => s.emit (.site u 2 [E.LINK_PARTNER, 0])) (fun _ _ s => get_congr rfl g) s
    exact (get_congr rfl g).trans told
  · rfl

theorem regReset_window (s : State) {lo hi : Nat} (out : hi ≤ 0x160000 ∨ 0x164000 ≤ lo) : (s.regReset lo hi).get g = s.get g :=
  regReset_out s (by have := place; unfold WindowPlace at this; omega)

theorem resetStage_window {k : Nat} (key : k < 96) (s : State) : ((s.resetTables k).resetPhase k).get g = s.get g := by
  have tables : (s.resetTables k).get g = s.get g :=
    (resetTables_get s k g).trans ((regReset_window place _ (.inr (by omega))).trans ((regReset_window place _ (.inr (by omega))).trans
      (regReset_window place _ (.inr (by omega)))))
  have phase (u : State) : (u.resetPhase k).get g = u.get g :=
    (resetPhase_get u k g).trans ((regReset_window place _ (.inl (by omega))).trans (regReset_window place _ (.inl (by omega))))
  exact (phase _).trans tables

theorem resetScales_window (n : Nat) (s : State) : (s.resetScales n).get g = s.get g :=
  (unscaled_get (s.regReset (0x0201_0000 + 0x8_0000 * n) (0x0201_0000 + 0x8_0000 * n + 0x8080)) n g).trans (regReset_window place _ (.inr (by omega)))

theorem resetJob_window {c : Nat} (ctx : c < 64) (s : State) : (s.resetJob c).get g = s.get g :=
  (resetJob_get s c g).trans ((regReset_window place _ (.inr (by omega))).trans ((regReset_window place _ (.inl (by omega))).trans
    ((regReset_window place _ (.inl (by omega))).trans ((regReset_window place _ (.inl (by omega))).trans
      ((regReset_window place _ (.inl (by omega))).trans (regReset_window place _ (.inl (by omega))))))))

theorem resetChannels_window (c : Nat) (s : State) : (s.resetChannels c).get g = s.get g :=
  resetChannels_low (by have := place.2; omega) s

theorem resetPage_window {c : Nat} (ctx : c < 64) (s : State) : (s.resetPage c).get g = s.get g := by
  unfold WindowPlace at place
  exact resetPage_out s (.inr (by omega))

end Window

/-! ## Sequencers unbound -/

/-- Beside a sequencer's own fields and its fault bit. -/
theorem unbindSeq_get (s : State) {k : Nat} {g : Fld} (stat : g.a ≠ (R.SEQ_STAT.state (k / 4) (k % 4)).a)
    (outside : ∀ f ∈ [R.SEQ_STAT.wait (k / 4) (k % 4), R.VER_HDR.gate_hold k, R.SEQ_STAT.pc (k / 4) (k % 4), R.SEQ_PC.pc (k / 4) (k % 4),
      R.SEQ_STAT.in_trap (k / 4) (k % 4), R.SEQ_BSTAT.busy (k / 4) (k % 4)], g.a ≠ f.a)
    (fault : ∀ c, c < 64 → g.a ≠ (R.CTX_FAULT.faulted c (k / 64)).a) : (s.unbindSeq k).get g = s.get g := by
  simp only [List.mem_cons, List.not_mem_nil, or_false, forall_eq_or_imp, forall_eq] at outside
  obtain ⟨wait, hold, pc, start, trap, busy⟩ := outside
  have dropped (u : State) : (u.dropLoads k).get g = u.get g :=
    get_congr (congrArg State.regs (dropLoads_unrouted u k) :) g
  have set (u : State) : (u.setPc k 0).get g = u.get g := by
    rw [State.setPc, State.get_put_other _ _ _ _ start, State.get_put_other _ _ _ _ pc, State.modSeq_get]
  rw [unbindSeq_eq, setSeqState_get_other _ stat fault, puts_get_other _ (List.forall_mem_cons.2 ⟨trap, List.forall_mem_cons.2 ⟨busy, List.forall_mem_nil _⟩⟩),
    set, State.modSeq_get, dropped, stopIssue_keeps s wait hold]

/-- A field below the compute dies, or one of the foreman's. -/
theorem unbindSeq_far {k : Nat} (key : k < 96) {g : Fld} (place : 8 * 0x140000 ≤ g.a ∧ g.a < 8 * 0x2000000 ∨ 8 * 0x3900000 ≤ g.a) (s : State) :
    (s.unbindSeq k).get g = s.get g := by
  refine unbindSeq_get s ?_ ?_ fun c ctx => ?_
  · simp only [R.SEQ_STAT.state]
    omega
  · simp only [List.mem_cons, List.not_mem_nil, or_false, forall_eq_or_imp, forall_eq, R.SEQ_STAT.wait, R.VER_HDR.gate_hold, R.SEQ_STAT.pc, R.SEQ_PC.pc,
      R.SEQ_STAT.in_trap, R.SEQ_BSTAT.busy]
    omega
  · simp only [R.CTX_FAULT.faulted]
    omega

theorem unbindSeq_other {j k : Nat} (one : j < 96) (two : k < 96) (other : j ≠ k) (s : State) : (s.unbindSeq k).seqState j = s.seqState j := by
  refine unbindSeq_get s (seqPlace_apart one two other) ?_ fun c ctx => ?_
  · simp only [List.mem_cons, List.not_mem_nil, or_false, forall_eq_or_imp, forall_eq, R.SEQ_STAT.wait, R.VER_HDR.gate_hold, R.SEQ_STAT.pc, R.SEQ_PC.pc,
      R.SEQ_STAT.in_trap, R.SEQ_BSTAT.busy, R.SEQ_STAT.state]
    omega
  · simp only [R.CTX_FAULT.faulted, R.SEQ_STAT.state]
    omega

theorem unbindSeqs_unbound {k : Nat} (key : k < 96) (l : List Nat) (small : ∀ j ∈ l, j < 96) (s : State) (due : k ∈ l ∨ s.seqState k = seqUNBOUND) :
    (l.foldl State.unbindSeq s).seqState k = seqUNBOUND := by
  induction l generalizing s with
  | nil => exact due.resolve_left List.not_mem_nil
  | cons j l ih =>
    refine ih (fun i mem => small i (List.mem_cons_of_mem j mem)) _ ?_
    by_cases same : k = j
    · exact .inr (same ▸ (unbindSeq_facts s k).1)
    · rw [unbindSeq_other key (small j List.mem_cons_self) same]
      exact due.imp_left fun mem => (List.mem_cons.1 mem).resolve_left same

end Sys2Proof.Machine

namespace Sys2Proof.Machine

-- One proof at a time: threads that wait for each other hold memory.
set_option Elab.async false

/-! ## The end of the drain (R439) -/

/-- What is left of a state beside what unbinding a sequencer changes. -/
def State.unseated (s : State) : State := { s.unrouted with regs := [], seqs := [], pinEnd := [], log := [], pba := [] }

theorem unseated_of_unrouted {s t : State} (same : t.unrouted = s.unrouted) : t.unseated = s.unseated :=
  (congrArg (fun u : State => { u with regs := [], seqs := [], pinEnd := [], log := [], pba := [] }) same :)

theorem unseated_of_unexcepted {s t : State} (same : t.unexcepted = s.unexcepted) : t.unseated = s.unseated :=
  (congrArg (fun u : State => { u with pkts := [], pktNext := 0, spnTx := [] }) same :)

theorem unbindSeq_unseated (s : State) (k : Nat) : (s.unbindSeq k).unseated = s.unseated := by
  have dropped (u : State) : (u.dropLoads k).unseated = u.unseated := (unseated_of_unrouted (dropLoads_unrouted u k)).trans rfl
  have set (u : State) := unseated_of_unexcepted (setPc_unexcepted u k 0)
  have mod (u : State) := unseated_of_unexcepted (modSeq_unexcepted u k Seq.unbound)
  have state (u : State) := unseated_of_unexcepted (unexcepted_of_unhalted (setSeqState_unhalted u k seqUNBOUND))
  have puts (u : State) := unseated_of_unexcepted (unexcepted_of_unlogged (puts_unlogged u
    [(R.SEQ_STAT.in_trap (k / 4) (k % 4), 0), (R.SEQ_BSTAT.busy (k / 4) (k % 4), 0)]))
  have stop := unseated_of_unexcepted (unexcepted_of_unhalted (stopIssue_unhalted s k))
  rw [unbindSeq_eq, state, puts, set, mod, dropped, stop]

/-- The context's flumes close, and its channels of every kind are taken back. -/
def State.takenBack (s : State) (c : Nat) : State :=
  ((((s.ctxFlumes c).foldl State.closeFlume s).haulTeardown c).resetChannels c).siteTeardown c

/-- The tables and phases of the stages of sequencers at reset. -/
def State.stagesReset (s : State) (ks : List Nat) : State := ks.foldl (fun s k => (s.resetTables k).resetPhase k) s

/-- The scales of a context's dies at reset. -/
def State.scalesReset (s : State) (c : Nat) : State := (s.diesOf c).foldl State.resetScales s

/-- A context whose work has ended, before its sequencers unbind. -/
def State.cleared (s : State) (c : Nat) (ks : List Nat) : State := (((s.takenBack c).stagesReset ks).scalesReset c).resetJob c

/-- A context without registers of its page, zeroing its memory. -/
def State.zeroingOf (s : State) (c : Nat) : State := ((s.resetPage c).put (R.CTX_STATE.state c) 3).sampleActivity

section Drain
variable {s : State} {c : Fin 64}

theorem exec_teardownDrainDone (state : s.get (R.CTX_STATE.state c.val) = 2) (drained : s.drained c.val = true) :
    exec (.teardownDrainDone c) s =
      .next (((s.seqsOf c.val).foldl State.unbindSeq (s.cleared c.val (s.seqsOf c.val))).zeroingOf c.val) :=
  congrArg Host.Outcome.next (if_neg fun early => early.elim (fun other => other state) fun busy => absurd (busy.symm.trans drained) (by decide))

theorem teardownDrainDone_early (early : s.get (R.CTX_STATE.state c.val) ≠ 2 ∨ s.drained c.val = false) :
    exec (.teardownDrainDone c) s = .next s := congrArg Host.Outcome.next (if_pos early)

theorem seqsOf_lt {k : Nat} (mem : k ∈ s.seqsOf c.val) : k < 96 := List.mem_range.1 (List.mem_of_mem_filter mem)

theorem cleared_window {g : Fld} (place : WindowPlace g) {c : Nat} (ctx : c < 64) (ks : List Nat) (small : ∀ k ∈ ks, k < 96) (s : State) :
    (s.cleared c ks).get g = s.get g := by
  rw [State.cleared, resetJob_window place ctx, State.scalesReset, foldl_get fun n _ => resetScales_window place n, State.stagesReset,
    foldl_get fun k mem => resetStage_window place (small k mem), State.takenBack, siteTeardown_window place, resetChannels_window place,
    haulTeardown_window place, foldl_get fun f _ => closeFlume_window place f]

/-- The checkpoint state is among the registers that a job's end resets. -/
theorem jobReset_ckState (s : State) {c : Nat} (ctx : c < 64) : (s.jobReset c).ckState c = 0 := by
  have zero : resetVal (R.CKPT_STAT.state c).a = 0 := by
    refine resetVal_zero (lo := 8 * 0x3a00000) (hi := 8 * 0x3a04000) (by decide) ?_ ?_ <;> simp only [R.CKPT_STAT.state] <;> omega
  refine regReset_in _ ?_ ?_ zero <;> simp only [R.CKPT_STAT.state] <;> omega

theorem cleared_ckState (s : State) {c : Nat} (ctx : c < 64) (ks : List Nat) : (s.cleared c ks).ckState c = 0 := by
  rw [State.cleared, State.ckState, resetJob_get]
  exact jobReset_ckState _ ctx

/-- What a job's end leaves of its attempts and its tables. -/
theorem resetJob_job (s : State) (c : Nat) : (s.resetJob c).ckpt c = Ckpt.empty ∧
    ∀ p, p < 3 → (s.resetJob c).cutTable c p = none ∧ (s.resetJob c).cutPending c p = none := by
  rw [resetJob_eq]
  refine ⟨(KMap.find_drop _ _ c c).trans (if_pos rfl), fun p small => ⟨?_, ?_⟩⟩
  · exact (KMap.find_dropRange _ _ _ _ _).trans (if_pos ⟨by omega, by omega⟩)
  · exact (KMap.find_dropRange _ _ _ _ _).trans (if_pos ⟨by omega, by omega⟩)

theorem job_congr {s t : State} (ckpts : t.ckpts = s.ckpts) (force : t.cutForce = s.cutForce) (pend : t.cutPend = s.cutPend) (c : Nat) :
    t.ckpt c = s.ckpt c ∧ ∀ p, t.cutTable c p = s.cutTable c p ∧ t.cutPending c p = s.cutPending c p := by
  refine ⟨?_, fun p => ⟨?_, ?_⟩⟩
  · rw [State.ckpt, ckpts, State.ckpt]
  · rw [State.cutTable, force, State.cutTable]
  · rw [State.cutPending, pend, State.cutPending]

theorem zeroingOf_get (s : State) {c : Nat} {g : Fld} (out : g.a < 8 * (0x0010_0000 + 0x1000 * c) ∨ 8 * (0x0010_0000 + 0x1000 * c + 0x1000) ≤ g.a) :
    (s.zeroingOf c).get g = s.get g := by
  rw [State.zeroingOf, sampleActivity_get, State.get_put_other _ _ _ _ (by simp only [R.CTX_STATE.state]; omega), resetPage_out s out]

theorem zeroingOf_state (s : State) (c : Nat) : (s.zeroingOf c).get (R.CTX_STATE.state c) = 3 := by
  rw [State.zeroingOf, sampleActivity_get, State.get_put_same]
  rfl

theorem job_of_unmetered {s t : State} (same : t.unmetered = s.unmetered) : t.ckpts = s.ckpts ∧ t.cutForce = s.cutForce ∧ t.cutPend = s.cutPend :=
  ⟨(congrArg State.ckpts same :), (congrArg State.cutForce same :), (congrArg State.cutPend same :)⟩

theorem zeroingOf_job (s : State) (c : Nat) :
    (s.zeroingOf c).ckpts = s.ckpts ∧ (s.zeroingOf c).cutForce = s.cutForce ∧ (s.zeroingOf c).cutPend = s.cutPend := by
  obtain ⟨-, -, -, -, force, pend, ckpts⟩ := resetPage_rest s c
  obtain ⟨ckpts', force', pend'⟩ := job_of_unmetered (sampleActivity_unmetered ((s.resetPage c).put (R.CTX_STATE.state c) 3))
  exact ⟨ckpts'.trans ckpts, force'.trans force, pend'.trans pend⟩

theorem teardownDrainDone_clause (state : s.get (R.CTX_STATE.state c.val) = 2) (drained : s.drained c.val = true) :
    ∃ t, exec (.teardownDrainDone c) s = .next t ∧ t.get (R.CTX_STATE.state c.val) = 3 ∧
      (∀ k ∈ s.seqsOf c.val, t.seqState k = seqUNBOUND) ∧ t.ckState c.val = ckIDLE ∧ t.ckpt c.val = Ckpt.empty ∧
      (∀ p, p < 3 → t.cutTable c.val p = none ∧ t.cutPending c.val p = none) ∧
      ∀ w, w < 16 → t.get (R.MEM_WIN.en c.val w) = s.get (R.MEM_WIN.en c.val w) := by
  have small : ∀ k ∈ s.seqsOf c.val, k < 96 := fun k => seqsOf_lt
  refine ⟨_, exec_teardownDrainDone state drained, zeroingOf_state _ _, ?_⟩
  generalize s.seqsOf c.val = ks at *
  have window {w : Nat} (win : w < 16) := cleared_window (window_place c.isLt win) c.isLt ks small s
  have idle := cleared_ckState s c.isLt ks
  obtain ⟨ckpt, cut⟩ : (s.cleared c.val ks).ckpt c.val = Ckpt.empty ∧
      ∀ p, p < 3 → (s.cleared c.val ks).cutTable c.val p = none ∧ (s.cleared c.val ks).cutPending c.val p = none := resetJob_job _ _
  generalize s.cleared c.val ks = u at *
  have same : (ks.foldl State.unbindSeq u).unseated = u.unseated := foldl_keeps State.unseated State.unbindSeq unbindSeq_unseated ks u
  have unbound {k : Nat} (mem : k ∈ ks) := unbindSeqs_unbound (small k mem) ks small u (.inl mem)
  have far {g : Fld} (place : 8 * 0x140000 ≤ g.a ∧ g.a < 8 * 0x2000000 ∨ 8 * 0x3900000 ≤ g.a) : (ks.foldl State.unbindSeq u).get g = u.get g :=
    foldl_get (fun k mem => unbindSeq_far (small k mem) place) u
  generalize ks.foldl State.unbindSeq u = v at *
  obtain ⟨ckpts, force, pend⟩ := zeroingOf_job v c.val
  obtain ⟨ckptSame, cutSame⟩ := job_congr (ckpts.trans (congrArg State.ckpts same :)) (force.trans (congrArg State.cutForce same :))
    (pend.trans (congrArg State.cutPend same :)) c.val
  refine ⟨fun k mem => (zeroingOf_get v (.inr ?_)).trans (unbound mem), ?_, ckptSame.trans ckpt, fun p three => ?_, fun w win => ?_⟩
  · simp only [R.SEQ_STAT.state]
    omega
  · refine (zeroingOf_get v (.inr ?_)).trans ((far (.inr ?_)).trans idle) <;> simp only [R.CKPT_STAT.state] <;> omega
  · rw [(cutSame p).1, (cutSame p).2]
    exact cut p three
  · refine (zeroingOf_get v (.inr ?_)).trans ((far (.inl ?_)).trans (window win)) <;> simp only [R.MEM_WIN.en] <;> omega

end Drain

end Sys2Proof.Machine

namespace Sys2Proof.Machine

-- One proof at a time: threads that wait for each other hold memory.
set_option Elab.async false

/-! ## The end of the zeroing (R439 step 5) -/

/-- What zeroing keeps: a byte that is zero, the functions, and the fields of the dies' owners. -/
structure Erases (s t : State) : Prop where
  zero : ∀ x, s.byte x = 0 → t.byte x = 0
  vfs  : t.vfs = s.vfs

theorem Erases.trans {s t u : State} (one : Erases s t) (two : Erases t u) : Erases s u :=
  ⟨fun x zero => two.zero x (one.zero x zero), two.vfs.trans one.vfs⟩

theorem Erases.fold {α : Type} {f : State → α → State} {l : List α} (erases : ∀ a ∈ l, ∀ s : State, Erases s (f s a)) (s : State) : Erases s (l.foldl f s) :=
  List.foldlRecOn l f (motive := fun t : State => Erases s t) ⟨fun _ zero => zero, rfl⟩ fun t so a mem => so.trans (erases a mem t)

theorem wipes_erases (l : List (Nat × Nat)) (s : State) : Erases s (l.foldl (fun s r => s.wipe r.1 r.2) s) := by
  refine Erases.fold (f := fun (s : State) (r : Nat × Nat) => s.wipe r.1 r.2) (fun r _ s => ⟨fun x zero => ?_, rfl⟩) s
  rw [wipe_byte, zero]
  exact ite_self 0

theorem byte_congr {s t : State} (mem : t.mem = s.mem) (x : Nat) : t.byte x = s.byte x := by rw [State.byte, mem, State.byte]

theorem resetChannels_erases (s : State) (c : Nat) : Erases s (s.resetChannels c) := by
  have same := resetChannels_uncommitted s c
  generalize s.resetChannels c = t at *
  exact ⟨fun x zero => (byte_congr (congrArg State.mem same :) x).trans zero, (congrArg State.vfs same :)⟩

theorem setFlume_vfs (s : State) (f : Nat) (x : Flume) : (s.setFlume f x).vfs = s.vfs := rfl

theorem unbindFlume_erases (s : State) {f : Nat} (small : f < 8192) : Erases s (s.unbindFlume f) := by
  obtain ⟨-, -, -, -, mem⟩ := unbindFlume_facts s small
  refine ⟨fun x zero => (byte_congr mem x).trans zero, ?_⟩
  rw [unbindFlume_eq, setFlume_vfs]
  rfl

/-- A flume of a context zeroed and unbound. -/
def State.flumeGone (s : State) (f : Nat) : State := (s.wipeFlume f).unbindFlume f

theorem flumeGone_erases (s : State) {f : Nat} (small : f < 8192) : Erases s (s.flumeGone f) :=
  Erases.trans (wipes_erases (s.flume f).zero s) (unbindFlume_erases (s.wipeFlume f) small)

theorem put_vfs (s : State) (f : Fld) (v : Nat) : (s.put f v).vfs = s.vfs := rfl

theorem deriveKeys_vfs (s : State) : s.deriveKeys.vfs = s.vfs := rfl

theorem withHid_vfs (s : State) (l : List Nat) : ({ s with ownHid := l } : State).vfs = s.vfs := rfl

theorem vfs_of_unlogged {s t : State} (same : t.unlogged = s.unlogged) : t.vfs = s.vfs := (congrArg State.vfs same :)

theorem unassign_vfs (s : State) (n : Nat) : (s.unassign n).vfs = s.vfs := by
  obtain ⟨x, y, eq⟩ := holdDomains_eq (s.unowned n)
  have owned : (s.puts (dieOwnZeros n)).vfs = s.vfs := vfs_of_unlogged (puts_unlogged ..)
  rw [unassign_eq, eq, deriveKeys_vfs, put_vfs, put_vfs, State.unowned, withHid_vfs, owned]

theorem dieZeroed_byte (s : State) (n x : Nat) : (s.dieZeroed n).byte x = if tileBase n ≤ x ∧ x < tileBase n + tileBytes then 0 else s.byte x :=
  (unassign_byte ..).trans (wipeDie_byte ..)

theorem dieZeroed_erases (s : State) (n : Nat) : Erases s (s.dieZeroed n) := by
  refine ⟨fun x zero => ?_, (unassign_vfs ..).trans rfl⟩
  rw [dieZeroed_byte, zero]
  exact ite_self 0

/-! ### The owners of the dies -/

theorem wipe_get (s : State) (a n : Nat) (g : Fld) : (s.wipe a n).get g = s.get g := get_congr rfl g

theorem flumeGone_low (s : State) (f : Nat) {g : Fld} (low : g.a < 8 * 0x3000000) : (s.flumeGone f).get g = s.get g := by
  have wiped : (s.wipeFlume f).get g = s.get g := foldl_get (f := fun (s : State) (r : Nat × Nat) => s.wipe r.1 r.2) (fun r _ s => wipe_get s r.1 r.2 g) s
  rw [State.flumeGone, unbindFlume_eq, setFlume_get, State.flumeReset, regReset_out _ (.inl (by omega)), regReset_out _ (.inl (by omega)), wiped]

theorem wipeDie_get (s : State) (n : Nat) (g : Fld) : (s.wipeDie n).get g = s.get g := get_congr rfl g

theorem dieZeroed_get (s : State) (n : Nat) {g : Fld} (apart : g.a ≠ (R.PWR_PD.on 0).a ∧ g.a ≠ (R.PWR_PD.on 1).a)
    (other : ∀ p ∈ dieOwnZeros n, g.a ≠ p.1.a) : (s.dieZeroed n).get g = s.get g := by
  rw [State.dieZeroed, unassign_get _ n apart, puts_get_other _ other, wipeDie_get]

theorem dieZeroed_other (s : State) {j n : Nat} (die : j < 24) (other : j ≠ n) : (s.dieZeroed n).get (R.DIE_OWN.assigned j) = s.get (R.DIE_OWN.assigned j) := by
  refine dieZeroed_get s n (assigned_place die).domains ?_
  refine List.forall_mem_cons.2 ⟨?_, List.forall_mem_cons.2 ⟨?_, List.forall_mem_cons.2 ⟨?_, List.forall_mem_nil _⟩⟩⟩ <;>
    simp only [R.DIE_OWN.assigned, R.DIE_OWN.zeroing, R.DIE_OWN.ctx] <;> omega

theorem dieZeroed_assigned (s : State) {n : Nat} (die : n < 24) : (s.dieZeroed n).get (R.DIE_OWN.assigned n) = 0 :=
  unassign_zero _ List.mem_cons_self (assigned_place die)

/-- The dies of a list are unassigned and zero. -/
theorem diesZeroed {n : Nat} (die : n < 24) (l : List Nat) (s : State)
    (due : n ∈ l ∨ (s.get (R.DIE_OWN.assigned n) = 0 ∧ ∀ i, i < tileBytes → s.byte (tileBase n + i) = 0)) :
    (l.foldl State.dieZeroed s).get (R.DIE_OWN.assigned n) = 0 ∧ ∀ i, i < tileBytes → (l.foldl State.dieZeroed s).byte (tileBase n + i) = 0 := by
  induction l generalizing s with
  | nil => exact due.resolve_left List.not_mem_nil
  | cons j l ih =>
    simp only [List.foldl_cons]
    refine ih _ ?_
    by_cases same : n = j
    · subst same
      exact .inr ⟨dieZeroed_assigned s die, fun i less => (dieZeroed_byte ..).trans (if_pos ⟨Nat.le_add_right .., Nat.add_lt_add_left less _⟩)⟩
    · refine due.imp (fun mem => (List.mem_cons.1 mem).resolve_left same) fun ⟨assigned, zero⟩ => ⟨(dieZeroed_other s die same).trans assigned, fun i less => ?_⟩
      exact (dieZeroed_erases s j).zero _ (zero i less)

theorem diesOf_congr {s t : State} (same : ∀ g : Fld, g.a < 8 * 0x3000000 → t.get g = s.get g) (c : Nat) : t.diesOf c = s.diesOf c := by
  refine List.filter_congr fun n mem => ?_
  have small := List.mem_range.1 mem
  rw [State.flag, State.flag, same _ (by simp only [R.DIE_OWN.assigned]; omega), same _ (by simp only [R.DIE_OWN.ctx]; omega)]

/-! ### The event -/

theorem ctxEvent_bit (s : State) : bit ((s.ctxEvent 0 1).get (R.CTX_EVT.events 0)) 1 = true := by
  have finite : ∀ old, old < 16 → bit old 1 = false → bit ((old + 2) % 16) 1 = true := by decide
  unfold State.ctxEvent
  dsimp only
  split
  · assumption
  · next unset =>
    have set : bit ((s.put (R.CTX_EVT.events 0) (s.get (R.CTX_EVT.events 0) + 2 ^ 1)).get (R.CTX_EVT.events 0)) 1 = true := by
      rw [State.get_put_same]
      exact finite _ (State.get_lt s (R.CTX_EVT.events 0)) (Bool.not_eq_true _ ▸ unset)
    split
    · rw [vector_get]
      exact set
    · exact set

/-! ### The context that is free again -/

/-- A context's ranges and flumes gone. -/
def State.rangesGone (s : State) (c : Nat) : State :=
  (s.ctxFlumes c).foldl State.flumeGone (((s.ownRanges c).foldl (fun s r => s.wipe r.1 r.2) s).resetChannels c)

/-- A context's dies gone. -/
def State.diesGone (s : State) (c : Nat) : State := (s.diesOf c).foldl State.dieZeroed s

/-- A context without permission windows. -/
def State.windowless (s : State) (c : Nat) : State :=
  { s.regReset (0x0016_0000 + 0x100 * c) (0x0016_0000 + 0x100 * c + 0x100) with oldWin := KMap.drop s.oldWin c }

/-- A context that may be opened again, which S0 is told of. -/
def State.ctxFreed (s : State) (c : Nat) : State :=
  (((s.windowless c).put (R.CTX_STATE.state c) (if (s.windowless c).funcExists c then 1 else 0)).closeInstance c).ctxEvent 0 1

theorem windowless_get (s : State) (c : Nat) (g : Fld) :
    (s.windowless c).get g = (s.regReset (0x0016_0000 + 0x100 * c) (0x0016_0000 + 0x100 * c + 0x100)).get g := get_congr rfl g

theorem windowless_rest (s : State) (c : Nat) : (s.windowless c).mem = s.mem ∧ (s.windowless c).vfs = s.vfs := ⟨rfl, rfl⟩

theorem closeInstance_get (s : State) (c : Nat) (g : Fld) : (s.closeInstance c).get g = s.get g := get_congr rfl g

theorem closeInstance_mem (s : State) (c : Nat) : (s.closeInstance c).mem = s.mem := rfl

theorem put_mem (s : State) (f : Fld) (v : Nat) : (s.put f v).mem = s.mem := rfl

theorem ctxFreed_get (s : State) (c : Nat) {g : Fld} (event : g.a ≠ (R.CTX_EVT.events 0).a) (state : g.a ≠ (R.CTX_STATE.state c).a) :
    (s.ctxFreed c).get g = (s.regReset (0x0016_0000 + 0x100 * c) (0x0016_0000 + 0x100 * c + 0x100)).get g := by
  rw [State.ctxFreed, ctxEvent_get _ 0 1 event, closeInstance_get, State.get_put_other _ _ _ _ state, windowless_get]

theorem ctxFreed_state (s : State) (c : Nat) : (s.ctxFreed c).get (R.CTX_STATE.state c) = if s.funcExists c then 1 else 0 := by
  have exists_ : (s.windowless c).funcExists c = s.funcExists c := by rw [State.funcExists, (windowless_rest s c).2, State.funcExists]
  have apart : (R.CTX_STATE.state c).a ≠ (R.CTX_EVT.events 0).a := by
    simp only [R.CTX_STATE.state, R.CTX_EVT.events]
    omega
  rw [State.ctxFreed, ctxEvent_get _ 0 1 apart, closeInstance_get, State.get_put_same, exists_]
  cases s.funcExists c <;> rfl

theorem ctxFreed_byte (s : State) (c x : Nat) : (s.ctxFreed c).byte x = s.byte x := by
  refine byte_congr ?_ x
  rw [State.ctxFreed, mem_of_unlogged (ctxEvent_unlogged ..), closeInstance_mem, put_mem, (windowless_rest s c).1]

/-- A context's windows are closed at reset. -/
theorem ctxFreed_window (s : State) {c w : Nat} (ctx : c < 64) (win : w < 16) : (s.ctxFreed c).get (R.MEM_WIN.en c w) = 0 := by
  have zero : resetVal (R.MEM_WIN.en c w).a = 0 := by
    refine resetVal_zero (lo := 8 * 0x160000) (hi := 8 * 0x164000) (by decide) ?_ ?_ <;> simp only [R.MEM_WIN.en] <;> omega
  rw [ctxFreed_get, regReset_in _ _ _ zero] <;> simp only [R.MEM_WIN.en, R.CTX_EVT.events, R.CTX_STATE.state] <;> omega

theorem ctxFreed_assigned (s : State) {c n : Nat} (ctx : c < 64) (die : n < 24) : (s.ctxFreed c).get (R.DIE_OWN.assigned n) = s.get (R.DIE_OWN.assigned n) := by
  rw [ctxFreed_get, regReset_out] <;> simp only [R.DIE_OWN.assigned, R.CTX_EVT.events, R.CTX_STATE.state] <;> omega

theorem ctxFlumes_lt {s : State} {c f : Nat} (mem : f ∈ s.ctxFlumes c) : f < 8192 := by
  obtain ⟨e, -, here⟩ := List.mem_filterMap.1 mem
  dsimp only at here
  split at here
  · next found =>
    cases here
    exact found.2.1
  · cases here

theorem rangesGone_low (s : State) (c : Nat) (g : Fld) (low : g.a < 8 * 0x3000000) : (s.rangesGone c).get g = s.get g := by
  rw [State.rangesGone, foldl_get fun f _ s => flumeGone_low s f low, resetChannels_low (by omega),
    foldl_get (f := fun (s : State) (r : Nat × Nat) => s.wipe r.1 r.2) fun r _ s => wipe_get s r.1 r.2 g]

section Zeroing
variable {s : State} {c : Fin 64}

theorem rangesGone_byte : Erases ((s.ownRanges c.val).foldl (fun s r => s.wipe r.1 r.2) s) (s.rangesGone c.val) :=
  (resetChannels_erases ..).trans (Erases.fold (fun _ mem u => flumeGone_erases u (ctxFlumes_lt mem)) _)

theorem exec_teardownZeroingDone (state : s.get (R.CTX_STATE.state c.val) = 3) (halves : ¬(s.halfInReset 0 || s.halfInReset 1) = true)
    (flumes : ¬(s.ctxFlumes c.val).any (fun f => decide (s.flmState f ≠ flmZEROING)) = true) :
    exec (.teardownZeroingDone c) s = .next (((s.rangesGone c.val).diesGone c.val).ctxFreed c.val) :=
  congrArg Host.Outcome.next (if_neg fun early => early.elim (fun other => other state) fun more => more.elim halves flumes)

theorem anyFlume_iff : (s.ctxFlumes c.val).any (fun f => decide (s.flmState f ≠ flmZEROING)) = true ↔ ∃ f ∈ s.ctxFlumes c.val, s.flmState f ≠ flmZEROING := by
  simp only [List.any_eq_true, decide_eq_true_eq]

theorem teardownZeroingDone_early (early : s.get (R.CTX_STATE.state c.val) ≠ 3 ∨ (s.halfInReset 0 || s.halfInReset 1) = true ∨
    ∃ f ∈ s.ctxFlumes c.val, s.flmState f ≠ flmZEROING) : exec (.teardownZeroingDone c) s = .next s :=
  congrArg Host.Outcome.next (if_pos (early.imp_right fun more => more.imp_right anyFlume_iff.2))

theorem teardownZeroingDone_clause (state : s.get (R.CTX_STATE.state c.val) = 3) (ready : ¬((s.halfInReset 0 || s.halfInReset 1) = true ∨
    ∃ f ∈ s.ctxFlumes c.val, s.flmState f ≠ flmZEROING)) : ∃ t, exec (.teardownZeroingDone c) s = .next t ∧
      t.get (R.CTX_STATE.state c.val) = (if s.funcExists c.val then 1 else 0) ∧
      (∀ r ∈ s.ownRanges c.val, ∀ i, i < r.2 → t.byte (r.1 + i) = 0) ∧
      (∀ n ∈ s.diesOf c.val, t.get (R.DIE_OWN.assigned n) = 0 ∧ ∀ i, i < tileBytes → t.byte (tileBase n + i) = 0) ∧
      (∀ w, w < 16 → t.get (R.MEM_WIN.en c.val w) = 0) ∧ bit (t.get (R.CTX_EVT.events 0)) 1 = true ∧
      (s.ctxFlumes c.val = [] → ∀ x, x < 0x0400_0000_0000 → (∀ r ∈ s.ownRanges c.val, x < r.1 ∨ r.1 + r.2 ≤ x) → t.byte x = s.byte x) := by
  obtain ⟨halves, flumes⟩ := not_or.1 ready
  have ranges (x : Nat) := wipes_byte (s.ownRanges c.val) s x
  have wiped : Erases s _ := wipes_erases (s.ownRanges c.val) s
  have gone := rangesGone_byte (s := s) (c := c)
  have alone (none_ : s.ctxFlumes c.val = []) (x : Nat) :
      (s.rangesGone c.val).byte x = ((s.ownRanges c.val).foldl (fun s r => s.wipe r.1 r.2) s).byte x := by
    rw [State.rangesGone, none_]
    exact byte_congr (congrArg State.mem (resetChannels_uncommitted ..) :) x
  have dies := diesOf_congr (rangesGone_low s c.val) c.val
  refine ⟨_, exec_teardownZeroingDone state halves fun any => flumes (anyFlume_iff.1 any), ?_⟩
  generalize (s.ownRanges c.val).foldl (fun s r => s.wipe r.1 r.2) s = w at *
  generalize s.rangesGone c.val = u at *
  have zeroed : Erases u (u.diesGone c.val) := Erases.fold (fun n _ u => dieZeroed_erases u n) u
  refine ⟨?_, fun r mem i less => ?_, fun n mem => ?_, fun w win => ctxFreed_window _ c.isLt win, ctxEvent_bit _, fun none_ x below apart => ?_⟩
  · rw [ctxFreed_state, State.funcExists, zeroed.vfs, gone.vfs, wiped.vfs, State.funcExists]
  · rw [ctxFreed_byte]
    exact zeroed.zero _ (gone.zero _ ((ranges _).1 ⟨r, mem, by omega⟩))
  · have die : n < 24 := List.mem_range.1 (List.mem_of_mem_filter mem)
    obtain ⟨assigned, zero⟩ := diesZeroed die (u.diesOf c.val) u (.inl (dies ▸ mem))
    exact ⟨(ctxFreed_assigned _ c.isLt die).trans assigned, fun i less => (ctxFreed_byte ..).trans (zero i less)⟩
  · have tile : (u.diesGone c.val).byte x = u.byte x := by
      refine List.foldlRecOn (u.diesOf c.val) State.dieZeroed (motive := fun t : State => t.byte x = u.byte x) rfl fun t same n _ => ?_
      rw [dieZeroed_byte, if_neg (by simp only [tileBase]; omega), same]
    rw [ctxFreed_byte, tile, alone none_, (ranges x).2 apart]

end Zeroing

/-- Settles O42, step by step: an order halts and releases the context's sequencers, the end of the drain resets registers that its windows
are not among, and the zeroing only wipes bytes that are the context's. -/
theorem teardowns : Obligations.Teardowns := by
  unfold Obligations.Teardowns
  refine ⟨fun s c => ⟨exec_contextTeardown_none, fun o due => contextTeardown_clause due, teardownDrainDone_early, teardownDrainDone_clause,
    fun early => ?_, teardownZeroingDone_clause⟩, fun s c => ⟨vfFlr_off, vfFlr_clause⟩, fun s => ⟨fun down => ?_, pfFlr_clause⟩⟩
  · exact teardownZeroingDone_early early
  · exact congrArg Host.Outcome.next (if_neg fun up => absurd (down.symm.trans up) (by decide))

end Sys2Proof.Machine

namespace Sys2Proof.Machine

-- One proof at a time: threads that wait for each other hold memory.
set_option Elab.async false

/-! ## Reads of the tile stores and of the tile registers (R109, R384) -/

/-- What is left of a state beside what a read of a tile store or of a tile register changes. -/
def State.unread (s : State) : State := { s with regs := [], log := [], out := [], pba := [], soft := [], tileSoft := [] }

theorem unread_of_unlogged {s t : State} (same : t.unlogged = s.unlogged) : t.unread = s.unread :=
  (congrArg (fun u : State => { u with soft := [], tileSoft := [] }) same :)

theorem unread_of_unfixed {s t : State} (same : t.unfixed = s.unfixed) : t.unread = s.unread :=
  (congrArg (fun u : State => { u with log := [], out := [], pba := [], tileSoft := [] }) same :)

theorem sameMem_of_unread {s t : State} (same : t.unread = s.unread) : SameMem s t :=
  sameMem_of_eq (congrArg State.mem same :) (congrArg State.bad same :) (congrArg State.plist same :) (congrArg State.linkErr same :)

/-- Above the flume stores there are tile stores and nothing else. -/
theorem regionOf_high {u : Nat} (high : 0x0401_0000_0000 ≤ u) : regionOf u = .unmapped ∨ ∃ n, regionOf u = .tile n := by
  unfold regionOf
  rw [if_neg (by omega), if_neg (by omega), if_neg (by omega), if_neg (by omega)]
  split
  · dsimp only
    split
    · exact .inr ⟨_, rfl⟩
    · exact .inl rfl
  · exact .inl rfl

theorem noteBad_tile {s : State} {ctx : Option Nat} {u n : Nat} (region : regionOf u = .tile n) : s.noteBad ctx u =
    ((s.count (R.TS_ECC.uncorr n) 1).put (R.TS_ECC.last n) (u - tileBase n)).logAs E.SEQ_TS_ECC 2 ctx (atDie n) u := by
  unfold State.noteBad
  rw [region]

theorem noteBad_unmapped {s : State} {ctx : Option Nat} {u : Nat} (region : regionOf u = .unmapped) : s.noteBad ctx u = s := by
  unfold State.noteBad
  rw [region]

theorem noteBad_unread (s : State) (ctx : Option Nat) {u : Nat} (high : 0x0401_0000_0000 ≤ u) : (s.noteBad ctx u).unread = s.unread := by
  obtain region | ⟨n, region⟩ := regionOf_high high
  · rw [noteBad_unmapped region]
  · rw [noteBad_tile region]
    exact unread_of_unlogged ((logAs_unlogged ..).trans ((put_unlogged ..).trans (count_unlogged ..)))

/-- A field that no read of a tile store or of a tile register writes. -/
def UnreadFld (g : Fld) : Prop := 8 * 0x2000000 ≤ g.a ∧ g.a < 8 * 0x3000000 ∧ g.a % 4194304 < 8 * 0x3000 ∧ g.a % 64 = 0

theorem noteBad_unreadFld (s : State) (ctx : Option Nat) {u : Nat} (high : 0x0401_0000_0000 ≤ u) {g : Fld} (apart : UnreadFld g) :
    (s.noteBad ctx u).get g = s.get g := by
  unfold UnreadFld at apart
  obtain region | ⟨n, region⟩ := regionOf_high high
  · rw [noteBad_unmapped region]
  · rw [noteBad_tile region]
    refine (logAs_get _ (by omega)).trans (errorAt_keeps s ?_ ?_ _) <;> simp only [R.TS_ECC.uncorr, R.TS_ECC.last] <;> omega

/-- The bad units of an access lie less than a granule below it. -/
theorem badIn_above {s : State} {a n u : Nat} (mem : u ∈ s.badIn a n) : a < u + 64 := by
  unfold State.badIn at mem
  split at mem
  · exact absurd mem List.not_mem_nil
  · simp only [List.mem_mergeSort, List.mem_append, List.mem_filter, decide_eq_true_eq, Bool.and_eq_true] at mem
    omega

section Read
variable {a : Nat} (high : tileBase 0 ≤ a)
include high

theorem badIn_high {s : State} {n u : Nat} (mem : u ∈ s.badIn a n) : 0x0401_0000_0000 ≤ u := by
  have above := badIn_above mem
  simp only [tileBase] at high
  omega

theorem noteRead_unread (s : State) (ctx : Option Nat) (n : Nat) : (s.noteRead ctx a n).unread = s.unread :=
  List.foldlRecOn (s.badIn a n) (fun s u => s.noteBad ctx u) (motive := fun t : State => t.unread = s.unread)
    (unread_of_unfixed (fixSoft_unfixed s a n)) fun t same _ mem => (noteBad_unread t ctx (badIn_high high mem)).trans same

theorem noteRead_unreadFld (s : State) (ctx : Option Nat) (n : Nat) {g : Fld} (apart : UnreadFld g) : (s.noteRead ctx a n).get g = s.get g :=
  List.foldlRecOn (s.badIn a n) (fun s u => s.noteBad ctx u) (motive := fun t : State => t.get g = s.get g)
    (fixSoft_get s a n (by rw [apart.2.2.2]; decide)) fun t same _ mem => (noteBad_unreadFld t ctx (badIn_high high mem) apart).trans same

end Read

theorem tileBase_le (n a : Nat) : tileBase 0 ≤ tileBase n + a := by
  simp only [tileBase]
  omega

/-- A row of an operand read from a tile store. -/
theorem noteRow_unread (s : State) (k f : Nat) (x : Option ExpDesc) (o : OpBlk) (r : Nat) (bs : List Nat) :
    (s.noteRow k f x o r bs).unread = s.unread := by
  unfold State.noteRow
  dsimp only
  split
  · rfl
  · split
    · refine (noteRead_unread ?_ _ _ _).trans (noteRead_unread ?_ s _ _) <;> simp only [tileBase] <;> omega
    · refine noteRead_unread ?_ s _ _
      simp only [tileBase]
      omega

theorem fixTile_unread (s : State) (n : Nat) (p : Nat → Bool) : (s.fixTile n p).unread = s.unread := by
  unfold State.fixTile
  dsimp only
  split <;> rfl

theorem noteTileBad_unread (s : State) (ctx : Option Nat) (n a j : Nat) : (s.noteTileBad ctx n a j).unread = s.unread :=
  unread_of_unlogged ((raise_unlogged ..).trans ((put_unlogged ..).trans ((put_unlogged ..).trans (count_unlogged ..))))

theorem noteTileRow_unread (s : State) (ctx : Option Nat) (n a j m c0 c1 : Nat) : (s.noteTileRow ctx n a j m c0 c1).unread = s.unread :=
  (foldl_keeps State.unread _ (fun s _ => noteTileBad_unread s ctx n a j) _ _).trans (fixTile_unread ..)

theorem noteTileBad_unreadFld (s : State) (ctx : Option Nat) (n a j : Nat) {g : Fld} (apart : UnreadFld g) : (s.noteTileBad ctx n a j).get g = s.get g := by
  unfold UnreadFld at apart
  rw [State.noteTileBad, raise_get _ (by omega), State.get_put_other, State.get_put_other, State.get_count_other] <;>
    simp only [R.TR_ECC.uncorr, R.TR_ECC.array, R.TR_ECC.reg] <;> omega

theorem fixTile_unreadFld (s : State) (n : Nat) (p : Nat → Bool) {g : Fld} (apart : UnreadFld g) : (s.fixTile n p).get g = s.get g := by
  unfold UnreadFld at apart
  unfold State.fixTile
  dsimp only
  split
  · rfl
  · refine (State.get_count_other _ _ _ _ ?_).trans (get_congr rfl g)
    simp only [R.TR_ECC.corr]
    omega

theorem noteTileRow_unreadFld (s : State) (ctx : Option Nat) (n a j m c0 c1 : Nat) {g : Fld} (apart : UnreadFld g) :
    (s.noteTileRow ctx n a j m c0 c1).get g = s.get g :=
  (foldl_keeps (fun s : State => s.get g) _ (fun s _ => noteTileBad_unreadFld s ctx n a j apart) _ _).trans (fixTile_unreadFld s n _ apart)

end Sys2Proof.Machine

namespace Sys2Proof.Machine

-- One proof at a time: threads that wait for each other hold memory.
set_option Elab.async false

/-! ## The sap line (R243 to R245) -/

theorem setSap_rest (s : State) (n : Nat) (x : Sap) : (s.setSap n x).seqs = s.seqs ∧ (s.setSap n x).regs = s.regs ∧ (s.setSap n x).mem = s.mem ∧
    SameMem s (s.setSap n x) := ⟨rfl, rfl, rfl, sameMem_of_eq rfl rfl rfl rfl⟩

/-- A signal is an affair of the sequencer alone. -/
theorem signal_facts (s : State) (k : Nat) (cen : Bool) (e : Nat) : SameMem s (s.signal k cen e) ∧ (s.signal k cen e).regs = s.regs ∧
    SameSeqsBut s (s.signal k cen e) k ∧ s.Signalled (s.signal k cen e) k cen e ∧ (s.signal k cen e).saps = s.saps ∧ (s.signal k cen e).glzs = s.glzs := by
  cases cen with
  | false => exact ⟨SameMem.refl s, rfl, fun _ _ => rfl, rfl, rfl, rfl⟩
  | true =>
    have is : s.signal k true e = s.modSeq k fun x => x.setEv e (min (x.evc e + 1) 65535) := rfl
    rw [is]
    refine ⟨sameMem_of_eq rfl rfl rfl rfl, rfl, fun j other => (State.seq_modSeq ..).trans (if_neg other), ?_, rfl, rfl⟩
    rw [State.Signalled, State.seq_modSeq, if_pos rfl, if_pos rfl]
    exact (KMap.find_put (fun _ => 0) (s.seq k).ev e e _).trans (if_pos rfl)

/-- The copy of X read from the tile store. -/
def State.xRead (s : State) (o : SapOp) : State :=
  (List.range o.V).foldl (fun s v => s.noteRow o.seq o.fx none ⟨o.x, o.xs, o.xsc, ceilDiv o.K 32, 0⟩ v (List.range (ceilDiv o.K 32))) s

/-- The rows of X. -/
def State.xRows (s : State) (n : Nat) (o : SapOp) : List (List Blk) :=
  (List.range o.V).map (fun v => (s.readRow n o.fx none ⟨o.x, o.xs, o.xsc, ceilDiv o.K 32, 0⟩ v (List.range (ceilDiv o.K 32))).1)

theorem xRead_unread (s : State) (o : SapOp) : (s.xRead o).unread = s.unread := foldl_keeps State.unread _ (fun _ _ => noteRow_unread ..) _ s

theorem seqs_of_unread {s t : State} (same : t.unread = s.unread) : t.seqs = s.seqs := (congrArg State.seqs same :)

/-- What a range of the weights is read with. -/
def State.weightRead (ctx : Option Nat) (k n : Nat) (s : State) (r : Nat × Nat) : State :=
  match s.refused r.1 r.2 with
  | [] => (s.noteUse ctx r.1 r.2).crossFrom k (ldOfDie n) r.1 r.2
  | l => l.foldl (fun s a => s.raise ((s.unavailable a).getD 0) ctx (atLd (ldOfDie n)) a) s

theorem noteUse_unnoted (s : State) (ctx : Option Nat) (a n : Nat) : (s.noteUse ctx a n).unnoted = s.unnoted :=
  (foldl_keeps State.unnoted _ (fun _ _ => noteBad_unnoted ..) _ _).trans (unnoted_of_unfixed (fixSoft_unfixed s a n))

theorem weightRead_unnoted (ctx : Option Nat) (k n : Nat) (s : State) (r : Nat × Nat) : (s.weightRead ctx k n r).unnoted = s.unnoted := by
  unfold State.weightRead
  split
  · exact (unnoted_of_unrouted (crossFrom_unrouted ..)).trans (noteUse_unnoted ..)
  · exact foldl_keeps State.unnoted _ (fun _ _ => raise_unnoted ..) _ s

/-- The Y values that a group's first step adds to, read. -/
def State.startsRead (s : State) (ctx : Option Nat) (n : Nat) (o : SapOp) : State :=
  if o.init && decide (o.kb = 0) then (List.range o.V).foldl (fun s v =>
    s.noteRead ctx (tileBase n + o.y + v * o.ys + 4 * (o.group * sapG o.fw o.fx)) (4 * o.rows)) s else s

theorem startsRead_unnoted (s : State) (ctx : Option Nat) (n : Nat) (o : SapOp) : (s.startsRead ctx n o).unnoted = s.unnoted := by
  unfold State.startsRead
  split
  · exact foldl_keeps State.unnoted _ (fun _ _ => noteRead_unnoted ..) _ s
  · rfl

/-- A weight step counted. -/
def State.stepCounted (s : State) (n sat : Nat) : State :=
  ((s.count (R.MMA_EXPSAT.count n 8) sat).count (R.MMA_ACT.count n 8) 1).unitAdmit n (48 + n)

theorem stepCounted_rest (s : State) (n sat : Nat) : (s.stepCounted n sat).mem = s.mem ∧ (s.stepCounted n sat).seqs = s.seqs := ⟨rfl, rfl⟩

theorem rest_of_unnoted {s t : State} (same : t.unnoted = s.unnoted) : t.mem = s.mem ∧ t.seqs = s.seqs :=
  ⟨(congrArg State.mem same :), (congrArg State.seqs same :)⟩

/-- The ranges of weights that a step reads. -/
def SapOp.reads (o : SapOp) : List (Nat × Nat) :=
  let g := sapG o.fw o.fx
  let i := (o.group * ceilDiv o.K 32 + o.kb) * g
  let bb := blockBytes (elemBits o.fw o.xw)
  [(o.w + i * bb, g * bb), (o.ws + i, g)]

/-- The row-blocks of W that a step applies. -/
def State.stepBlks (s : State) (o : SapOp) : List (Blk × Nat) :=
  (List.range o.rows).map (fun r => s.sapBlk o ((o.group * ceilDiv o.K 32 + o.kb) * sapG o.fw o.fx + r))

/-- The accumulators after a step. -/
def State.stepAcc (s : State) (n : Nat) (o : SapOp) (xv : List (List Blk)) : List (List F32) :=
  (List.range o.V).map (fun v =>
    let start := if o.kb = 0 then (List.range o.rows).map (fun r => s.sapStart n o v r) else o.acc.getD v []
    match (xv.getD v [])[o.kb]? with
    | none => start
    | some xb => List.zipWith (fun y (w : Blk × Nat) => accAdd y (blockValue o.fw o.fx w.1 xb)) start (s.stepBlks o))

/-- A step's reads fail. -/
def State.stepBad (s : State) (o : SapOp) : Bool := o.reads.any (fun r => !(s.refused r.1 r.2).isEmpty || !(s.readBad r.1 r.2).isEmpty)

/-- A step's reads noted and the step counted. -/
def State.stepNoted (s : State) (n : Nat) (o : SapOp) : State :=
  ((o.reads.foldl (State.weightRead (some (s.seqCtx o.seq)) o.seq n) s).startsRead (some (s.seqCtx o.seq)) n o).stepCounted n
    ((s.stepBlks o).map Prod.snd).sum

theorem stepNoted_rest (s : State) (n : Nat) (o : SapOp) : (s.stepNoted n o).mem = s.mem ∧ (s.stepNoted n o).seqs = s.seqs := by
  obtain ⟨mem, seqs⟩ := rest_of_unnoted ((startsRead_unnoted _ (some (s.seqCtx o.seq)) n o).trans
    (foldl_keeps State.unnoted _ (weightRead_unnoted (some (s.seqCtx o.seq)) o.seq n) o.reads s))
  obtain ⟨mem', seqs'⟩ := stepCounted_rest ((o.reads.foldl (State.weightRead (some (s.seqCtx o.seq)) o.seq n) s).startsRead
    (some (s.seqCtx o.seq)) n o) n ((s.stepBlks o).map Prod.snd).sum
  exact ⟨mem'.trans mem, seqs'.trans seqs⟩

/-! ### Bytes written into a tile store -/

/-- What is left of a state beside what a sink of the glaze changes. -/
def State.unsunk (s : State) : State := { s.unstored with regs := [], log := [], out := [], pba := [], tiles := [], tileBad := [], tileSoft := [] }

theorem unsunk_of_unlogged {s t : State} (same : t.unlogged = s.unlogged) : t.unsunk = s.unsunk :=
  (congrArg (fun u : State => { u.unstored with tiles := [], tileBad := [], tileSoft := [] }) same :)

theorem unsunk_of_unstored {s t : State} (same : t.unstored = s.unstored) : t.unsunk = s.unsunk :=
  (congrArg (fun u : State => { u with regs := [], log := [], out := [], pba := [], tiles := [], tileBad := [], tileSoft := [] }) same :)

theorem unsunk_of_unread {s t : State} (same : t.unread = s.unread) : t.unsunk = s.unsunk :=
  (congrArg (fun u : State => { u.unstored with tiles := [], tileBad := [], tileSoft := [] }) same :)

theorem seqs_of_unsunk {s t : State} (same : t.unsunk = s.unsunk) : t.seqs = s.seqs := (congrArg State.seqs same :)

section Put
variable (s : State) (c : Option Nat) (n off : Nat) (bs : List Byte)

/-- A refused write of a unit is logged. -/
theorem tsPut_unlogged : (s.tsPut c n off bs).unlogged = (s.write (tileBase n + off) bs).unlogged := by
  unfold State.tsPut
  dsimp only
  split
  · exact logAs_unlogged ..
  · rfl

theorem tsPut_unsunk : (s.tsPut c n off bs).unsunk = s.unsunk :=
  (unsunk_of_unlogged (tsPut_unlogged ..)).trans (unsunk_of_unstored (write_unstored ..))

theorem tsPut_byte (x : Nat) : (s.tsPut c n off bs).byte x = (s.write (tileBase n + off) bs).byte x := byte_congr (mem_of_unlogged (tsPut_unlogged ..)) x

variable {s c n off bs} in
/-- Bytes written where no unit is bad. -/
theorem tsPut_clean (clean : s.badIn (tileBase n + off) bs.length = []) :
    (∀ i, i < bs.length → (s.tsPut c n off bs).byte (tileBase n + off + i) = bs.getD i 0) ∧
    SameMemBut s (s.tsPut c n off bs) (tileBase n + off) bs.length := by
  obtain rfl | some_ := bs.eq_nil_or_concat
  · exact ⟨fun i less => absurd less (Nat.not_lt_zero i), fun x _ => tsPut_byte s c n off [] x⟩
  have long : 0 < bs.length := by
    obtain ⟨l, b, rfl⟩ := some_
    simp
  have byte := write_byte (sound_of_badIn clean long)
  refine ⟨fun i less => ?_, fun x apart => ?_⟩
  · rw [tsPut_byte, byte, if_pos (Nat.le_add_right ..), Nat.add_sub_cancel_left, List.getD_eq_getElem _ _ less, List.getD_eq_getElem _ _ less]
  · rw [tsPut_byte, byte]
    split
    · exact List.getD_eq_default _ _ (by omega)
    · rfl

end Put

/-- The Y values of a group written. -/
def State.groupPut (s : State) (n : Nat) (o : SapOp) : State :=
  o.acc.zipIdx.foldl (fun t p => t.tsPut (some (s.seqCtx o.seq)) n (o.y + p.2 * o.ys + 4 * (o.group * sapG o.fw o.fx))
    (p.1.flatMap (fun v => leBytes 4 (if o.bad then canonNaN else v).toNat))) s

theorem groupPut_unsunk (s : State) (n : Nat) (o : SapOp) : (s.groupPut n o).unsunk = s.unsunk := foldl_keeps State.unsunk _ (fun _ _ => tsPut_unsunk ..) _ s

theorem groupPut_one {o : SapOp} {vs : List F32} (one : o.acc = [vs]) (s : State) (n : Nat) : s.groupPut n o =
    s.tsPut (some (s.seqCtx o.seq)) n (o.y + 4 * (o.group * sapG o.fw o.fx)) (vs.flatMap (fun v => leBytes 4 (if o.bad then canonNaN else v).toNat)) := by
  rw [State.groupPut, one, List.zipIdx_singleton, List.foldl_cons, List.foldl_nil, Nat.zero_mul, Nat.add_zero]

theorem sameMemBut_of_mem {s t u : State} {a n : Nat} (but : SameMemBut s t a n) (mem : u.mem = t.mem) : SameMemBut s u a n :=
  fun x apart => (byte_congr mem x).trans (but x apart)

section Sap
variable {s : State} {die : Fin 24} {o : SapOp} (busy : (s.sap die.val).op = some o)
include busy

theorem exec_sapVectorCopied (fresh : o.xv = none) :
    exec (.sapVectorCopied die) s = .next ((s.xRead o).setSap die.val { s.sap die.val with op := some { o with xv := some (s.xRows die.val o) } }) := by
  refine congrArg Host.Outcome.next ?_
  dsimp only
  rw [busy]
  exact if_neg (by rw [fresh]; exact Bool.false_ne_true)

theorem sapVectorCopied_clause (fresh : o.xv = none) : ∃ t, exec (.sapVectorCopied die) s = .next t ∧ SameMem s t ∧ t.seqs = s.seqs ∧
    ∃ xv, (t.sap die.val).op = some { o with xv := some xv } ∧ xv = s.xRows die.val o := by
  have read := xRead_unread s o
  obtain ⟨seqs, -, -, mem⟩ := setSap_rest (s.xRead o) die.val { s.sap die.val with op := some { o with xv := some (s.xRows die.val o) } }
  refine ⟨_, exec_sapVectorCopied busy fresh, (sameMem_of_unread read).trans mem, seqs.trans (seqs_of_unread read), _, ?_, rfl⟩
  rw [State.sap_setSap, if_pos rfl]

theorem exec_sapWeightStep {xv : List (List Blk)} (copied : o.xv = some xv) (more : o.kb < ceilDiv o.K 32)
    (group : o.group < ceilDiv o.N (sapG o.fw o.fx)) (may : s.unitMay die.val (48 + die.val) = true) :
    exec (.sapWeightStep die) s = .next ((s.stepNoted die.val o).setSap die.val
      { s.sap die.val with op := some { o with kb := o.kb + 1, bad := o.bad || s.stepBad o, acc := s.stepAcc die.val o xv } }) := by
  refine congrArg Host.Outcome.next ?_
  dsimp only
  rw [busy]
  dsimp only
  rw [copied]
  refine if_neg fun stop => ?_
  obtain done | all | busy := stop
  · omega
  · omega
  · exact absurd (busy.symm.trans may) (by decide)

theorem sapWeightStep_clause {xv : List (List Blk)} (copied : o.xv = some xv) (more : o.kb < ceilDiv o.K 32)
    (group : o.group < ceilDiv o.N (sapG o.fw o.fx)) (may : s.unitMay die.val (48 + die.val) = true) : ∃ t b,
    exec (.sapWeightStep die) s = .next t ∧ (∀ a, t.byte a = s.byte a) ∧ t.seqs = s.seqs ∧ (o.bad = true → b = true) ∧
      (t.sap die.val).op = some { o with kb := o.kb + 1, bad := b, acc := s.stepAcc die.val o xv } := by
  obtain ⟨mem, seqs⟩ := stepNoted_rest s die.val o
  obtain ⟨seqs', -, mem', -⟩ := setSap_rest (s.stepNoted die.val o) die.val
    { s.sap die.val with op := some { o with kb := o.kb + 1, bad := o.bad || s.stepBad o, acc := s.stepAcc die.val o xv } }
  refine ⟨_, o.bad || s.stepBad o, exec_sapWeightStep busy copied more group may, byte_congr (mem'.trans mem), seqs'.trans seqs, fun bad => ?_, ?_⟩
  · rw [bad, Bool.true_or]
  · rw [State.sap_setSap, if_pos rfl]

theorem exec_sapGroupWrite (copied : o.xv ≠ none) (last : o.kb = ceilDiv o.K 32) : exec (.sapGroupWrite die) s =
    .next ((s.groupPut die.val o).setSap die.val
      { s.sap die.val with op := some { o with group := o.group + 1, kb := 0, bad := false, acc := [] } }) := by
  refine congrArg Host.Outcome.next ?_
  dsimp only
  rw [busy]
  exact if_pos ⟨last, Option.isSome_iff_ne_none.2 copied⟩

theorem sapGroupWrite_clause (copied : o.xv ≠ none) (last : o.kb = ceilDiv o.K 32) : ∃ t, exec (.sapGroupWrite die) s = .next t ∧ t.seqs = s.seqs ∧
    (t.sap die.val).op = some { o with group := o.group + 1, kb := 0, bad := false, acc := [] } ∧
    ∀ vs, o.acc = [vs] → let y := tileBase die.val + o.y + 4 * (o.group * sapG o.fw o.fx)
      let bs := vs.flatMap (fun v => leBytes 4 (if o.bad then canonNaN else v).toNat)
      s.badIn y bs.length = [] → (∀ i, i < bs.length → t.byte (y + i) = bs.getD i 0) ∧ SameMemBut s t y bs.length := by
  obtain ⟨seqs, -, mem, -⟩ := setSap_rest (s.groupPut die.val o) die.val
    { s.sap die.val with op := some { o with group := o.group + 1, kb := 0, bad := false, acc := [] } }
  refine ⟨_, exec_sapGroupWrite busy copied last, seqs.trans (seqs_of_unsunk (groupPut_unsunk ..)), ?_, fun vs one => ?_⟩
  · rw [State.sap_setSap, if_pos rfl]
  · have put := groupPut_one one s die.val
    intro y bs clean
    have place : tileBase die.val + (o.y + 4 * (o.group * sapG o.fw o.fx)) = y := (Nat.add_assoc ..).symm
    obtain ⟨written, rest⟩ := tsPut_clean (c := some (s.seqCtx o.seq)) (place.symm ▸ clean)
    rw [place, ← put] at written rest
    exact ⟨fun i less => (byte_congr mem _).trans (written i less), sameMemBut_of_mem rest mem⟩

theorem exec_sapComplete (done : ceilDiv o.N (sapG o.fw o.fx) ≤ o.group) : exec (.sapComplete die) s =
    .next ((s.setSap die.val { s.sap die.val with op := none }).signal o.seq o.cen o.e) := by
  refine congrArg Host.Outcome.next ?_
  dsimp only
  rw [busy]
  exact if_pos done

theorem sapComplete_early (more : o.group < ceilDiv o.N (sapG o.fw o.fx)) : exec (.sapComplete die) s = .next s := by
  refine congrArg Host.Outcome.next ?_
  rw [busy]
  exact if_neg (by omega)

theorem sapComplete_clause (done : ceilDiv o.N (sapG o.fw o.fx) ≤ o.group) : ∃ t, exec (.sapComplete die) s = .next t ∧ (t.sap die.val).op = none ∧
    s.Signalled t o.seq o.cen o.e ∧ SameMem s t ∧ t.regs = s.regs ∧ SameSeqsBut s t o.seq := by
  refine ⟨_, exec_sapComplete busy done, ?_⟩
  have free : ((s.setSap die.val { s.sap die.val with op := none }).sap die.val).op = none := by rw [State.sap_setSap, if_pos rfl]
  obtain ⟨seqs, regs, -, mem⟩ := setSap_rest s die.val { s.sap die.val with op := none }
  generalize s.setSap die.val { s.sap die.val with op := none } = u at *
  obtain ⟨mem', regs', others, signalled, saps, -⟩ := signal_facts u o.seq o.cen o.e
  have seq (j : Nat) : u.seq j = s.seq j := by rw [State.seq, seqs, State.seq]
  refine ⟨?_, ?_, mem.trans mem', regs'.trans regs, fun j other => (others j other).trans (seq j)⟩
  · rw [State.sap, saps]
    exact free
  · rwa [State.Signalled, ← seq]

end Sap

end Sys2Proof.Machine

namespace Sys2Proof.Machine

-- One proof at a time: threads that wait for each other hold memory.
set_option Elab.async false

/-! ## SAP.MV joins the sap line (R243, R245) -/

/-- Single-bit errors corrected on the way disturb no sequencer. -/
theorem calm_of_unfixed {s u : State} {k : Nat} (same : u.unfixed = s.unfixed) (keeps : ∀ g : Fld, g.a % 64 ≠ 32 → u.get g = s.get g) : Calm s u k := by
  refine calm_of_same (sameMem_of_eq (congrArg State.mem same :) (congrArg State.bad same :) (congrArg State.plist same :) (congrArg State.linkErr same :))
    (congrArg State.seqs same :) (keeps _ ?_) (keeps _ ?_) <;> simp only [R.SEQ_STAT.pc, R.SEQ_CNT.issued] <;> omega

theorem calm_fixSoft (s : State) (k a n : Nat) : Calm s (s.fixSoft a n) k := calm_of_unfixed (fixSoft_unfixed ..) fun _ apart => fixSoft_get s a n apart

theorem calm_fold {α : Type} {f : State → α → State} {k : Nat} (calm : ∀ (s : State) (a : α), Calm s (f s a) k) (l : List α) (s : State) :
    Calm s (l.foldl f s) k := List.foldlRecOn l f (motive := fun t : State => Calm s t k) (Calm.refl s k) fun t so a _ => so.trans (calm t a)

theorem calm_fixExp (s : State) (k n : Nat) (l : List (Nat × Nat)) : Calm s (s.fixExp n l) k := calm_fold (fun s _ => calm_fixSoft s k _ _) _ s

theorem fixExp_unfixed (s : State) (n : Nat) (l : List (Nat × Nat)) : (s.fixExp n l).unfixed = s.unfixed :=
  foldl_keeps State.unfixed _ (fun _ _ => fixSoft_unfixed ..) _ s

theorem calm_signal (s : State) (k : Nat) (cen : Bool) (e : Nat) : Calm s (s.signal k cen e) k := by
  cases cen with
  | false => exact Calm.refl s k
  | true => exact calm_modSeq (g := fun x => x.setEv e (min (x.evc e + 1) 65535)) s rfl rfl

theorem calm_setSap (s : State) (k n : Nat) (x : Sap) : Calm s (s.setSap n x) k := calm_of_same (sameMem_of_eq rfl rfl rfl rfl) rfl rfl rfl

section SapMv
variable {s : State} {c : SlotCtl} {fw fx : BitVec 4} {init : Bool} {sd : BitVec 5} {cen : Bool} {e : BitVec 3}

/-- The descriptor of a SAP.MV. -/
def State.mvDesc (s : State) (c : SlotCtl) (sd : BitVec 5) : SapDesc := sapDescOf (s.ts c.die.val (descOff s (seqKey c) sd) 64)

/-- The operation that a SAP.MV starts. -/
def State.mvOp (s : State) (c : SlotCtl) (fw fx : BitVec 4) (init : Bool) (sd : BitVec 5) (cen : Bool) (e : BitVec 3) : SapOp :=
  let d := s.mvDesc c sd
  { seq := seqKey c
    fw := fw.toNat
    fx := fx.toNat
    init := init
    V := d.V
    N := d.N
    K := d.K
    w := d.w
    ws := d.ws
    x := d.x
    xs := d.xs
    xsc := d.xsc
    y := d.y
    ys := d.ys
    xw := s.expOf c.die.val fw.toNat d.exp
    cen := cen
    e := e.toNat
    xv := none
    group := 0
    kb := 0
    bad := false
    acc := [] }

/-- The descriptor of a SAP.MV read, with that of its expansion. -/
def State.mvRead (s : State) (c : SlotCtl) (fw : BitVec 4) (sd : BitVec 5) : State :=
  (s.fixSoft (tileBase c.die.val + descOff s (seqKey c) sd) 64).fixExp c.die.val [(fw.toNat, (s.mvDesc c sd).exp)]

theorem mvRead_calm (k : Nat) : Calm s (s.mvRead c fw sd) k := (calm_fixSoft s k _ _).trans (calm_fixExp _ k _ _)

theorem mvRead_unfixed : (s.mvRead c fw sd).unfixed = s.unfixed := (fixExp_unfixed ..).trans (fixSoft_unfixed ..)

theorem seqKey_facts (c : SlotCtl) : seqKey c / 4 = c.die.val ∧ seqKey c % 4 = c.q.val ∧ seqKey c < 96 := by
  unfold seqKey
  omega

theorem opSapMv_eff : (opSapMv (seqKey c) fw fx init sd cen e).eff s s =
    if (s.mvDesc c sd).empty then (s.mvRead c fw sd).signal (seqKey c) cen e.toNat
    else (s.mvRead c fw sd).setSap c.die.val ⟨some (s.mvOp c fw fx init sd cen e), c.q.val⟩ := by
  obtain ⟨die, q, -⟩ := seqKey_facts c
  unfold opSapMv
  simp only [die, q]
  rfl

theorem saps_of_ended {u t : State} {k : Nat} (ended : Ended s u t k) : t.saps = u.saps ∧ t.glzs = u.glzs ∧ t.tiles = u.tiles :=
  ⟨(congrArg State.saps ended.frame.rest :), (congrArg State.glzs ended.frame.rest :), (congrArg State.tiles ended.frame.rest :)⟩

/-- A signal writes no register file. -/
theorem signal_files (s : State) (k : Nat) (cen : Bool) (e : Nat) : SameFiles s (s.signal k cen e) k := by
  cases cen with
  | false => exact ⟨rfl, rfl, rfl⟩
  | true =>
    have own : (s.signal k true e).seq k = (s.seq k).setEv e (min ((s.seq k).evc e + 1) 65535) :=
      (State.seq_modSeq s k k fun x => x.setEv e (min (x.evc e + 1) 65535)).trans (if_pos rfl)
    rw [SameFiles, own]
    exact ⟨rfl, rfl, rfl⟩

/-- The end of a bundle whose effect on the state is a signal. -/
theorem ended_signal {v t : State} {k : Nat} {e : Nat} (same : v.unfixed = s.unfixed) (ended : Ended s (v.signal k cen e) t k) :
    SameFiles s t k ∧ s.Signalled t k cen e ∧ t.saps = s.saps ∧ t.glzs = s.glzs ∧ t.tiles = s.tiles := by
  have seq (j : Nat) : v.seq j = s.seq j := congrArg (fun m => KMap.find (fun _ => Seq.empty) m j) (congrArg State.seqs same :)
  obtain ⟨-, -, -, signalled, saps, glzs⟩ := signal_facts v k cen e
  obtain ⟨files, addrs, preds⟩ := signal_files v k cen e
  have tiles : (v.signal k cen e).tiles = v.tiles := by cases cen <;> rfl
  obtain ⟨saps', glzs', tiles'⟩ := saps_of_ended ended
  refine ⟨⟨?_, ?_, ?_⟩, ?_, saps'.trans (saps.trans (congrArg State.saps same :)), glzs'.trans (glzs.trans (congrArg State.glzs same :)),
    tiles'.trans (tiles.trans (congrArg State.tiles same :))⟩
  · rw [ended.seq, ← seq]
    exact files
  · rw [ended.seq, ← seq]
    exact addrs
  · rw [ended.seq, ← seq]
    exact preds
  · rw [State.Signalled, ended.seq, ← seq]
    exact signalled

theorem exec_sapMv (alone : s.Alone c) (slot : c.slot = 1) (noEnd : s.NoLoopEnd (seqKey c)) (accepts : s.Accepts c (.sapMv c fw fx init sd cen e)) :
    let k := seqKey c
    let n := c.die.val
    let d := s.mvDesc c sd
    ∃ t, exec (.sapMv c fw fx init sd cen e) s = .next t ∧ s.Issued t k (s.pc k + 1) ∧ SameMem s t ∧ SameSeqsBut s t k ∧ SameFiles s t k ∧
      if d.V = 0 ∨ d.N = 0 ∨ d.K = 0 then s.Signalled t k cen e.toNat ∧ t.saps = s.saps
      else t.seq k = { s.seq k with past := (t.seq k).past } ∧ (t.sap n).last = c.q.val ∧ (t.sap n).op = some (s.mvOp c fw fx init sd cen e) := by
  obtain ⟨free, ready⟩ := accepts
  obtain ⟨chk, wait, hold, late⟩ := ready _ rfl
  have issues : Issues s c (.sapMv c fw fx init sd cen e) (opSapMv (seqKey c) fw fx init sd cen e) :=
    { alone := alone, ctl := rfl, sem := rfl, slot := by rw [slot]; rfl, free := free, chk := chk, wait := wait, hold := hold, late := late }
  have same : (s.mvRead c fw sd).unfixed = s.unfixed := mvRead_unfixed
  have calm := mvRead_calm (s := s) (c := c) (fw := fw) (sd := sd) (seqKey c)
  have eff := opSapMv_eff (s := s) (c := c) (fw := fw) (fx := fx) (init := init) (sd := sd) (cen := cen) (e := e)
  dsimp only
  generalize s.mvOp c fw fx init sd cen e = o at *
  generalize s.mvRead c fw sd = v at *
  by_cases empty : (s.mvDesc c sd).V = 0 ∨ (s.mvDesc c sd).N = 0 ∨ (s.mvDesc c sd).K = 0
  · rw [if_pos (by rw [SapDesc.empty, decide_eq_true_eq]; exact empty)] at eff
    obtain ⟨t, run, ended⟩ := exec_calm issues eff (calm.trans (calm_signal v _ cen e.toNat)) noEnd
    obtain ⟨files, signalled, saps, -⟩ := ended_signal same ended
    refine ⟨t, run, ended.issued, ended.mem, ended.seqs, files, ?_⟩
    rw [if_pos empty]
    exact ⟨signalled, saps⟩
  · rw [if_neg (by rw [SapDesc.empty, decide_eq_true_eq]; exact empty)] at eff
    obtain ⟨t, run, ended⟩ := exec_calm issues eff (calm.trans (calm_setSap v _ c.die.val ⟨some o, c.q.val⟩)) noEnd
    have seq (j : Nat) : v.seq j = s.seq j := congrArg (fun m => KMap.find (fun _ => Seq.empty) m j) (congrArg State.seqs same :)
    have own : t.seq (seqKey c) = { s.seq (seqKey c) with past := (t.seq (seqKey c)).past } := by
      rw [ended.seq, ← seq]
      rfl
    have sap : t.sap c.die.val = ⟨some o, c.q.val⟩ := by
      rw [State.sap, (saps_of_ended ended).1]
      exact (State.sap_setSap ..).trans (if_pos rfl)
    refine ⟨t, run, ended.issued, ended.mem, ended.seqs, ?_, ?_⟩
    · rw [SameFiles, own]
      exact ⟨rfl, rfl, rfl⟩
    · rw [if_neg empty, sap]
      exact ⟨own, rfl, rfl⟩

end SapMv

end Sys2Proof.Machine

namespace Sys2Proof.Machine

-- One proof at a time: threads that wait for each other hold memory.
set_option Elab.async false

/-! ## A slot that reads a descriptor and raises (R215, R238) -/

/-- Where a slot's waits are over, its first check that fails raises, a descriptor or not. -/
theorem exec_raises_unheld {s : State} {c : SlotCtl} {i : Instr} {o : SlotOp} {e : Exc} (alone : s.Alone c) (ctl : slotCtlOf i = some c)
    (sem : semOf i = some o) (slot : o.slots.contains c.slot.val = true) (free : s.NoPending c i)
    (chk : o.chk s = some e) (ready : o.wait s = 0) (reads : o.reads s = []) (code : e.code ≠ E.CFG_COMMIT)
    (op : ∀ c, i ≠ .nop c := by exact fun _ op => nomatch op) :
    exec i s = .next (s.takeExc (seqKey c) c.slot.val (SlotIn.detail ⟨i, c, o, encSlot i⟩ e)) := by
  obtain ⟨running, live, staged, held, noStep, last, on, inImage, image, fetch⟩ := alone
  have slots : slotsOf [i] = [⟨i, c, o, encSlot i⟩] := by simp [slotsOf, ctl, sem]
  have regWait := free o sem
  have wait := srcWait_of_regWait s (seqKey c) o regWait
  have decode : SlotIn.decodeExc ⟨i, c, o, encSlot i⟩ = none := by
    unfold SlotIn.decodeExc
    rw [if_neg (fun enc => opcode_ne_zero sem op enc.1), if_pos slot]
  have raised : s.slotExc (seqKey c) [⟨i, c, o, encSlot i⟩] ⟨i, c, o, encSlot i⟩ = some (SlotIn.detail ⟨i, c, o, encSlot i⟩ e) := by
    simp [State.slotExc, decode, on, clashSlot, wait, chk]
  have unheld : s.firstHold (seqKey c) [⟨i, c, o, encSlot i⟩] = none := by
    simp [State.firstHold, firstWait, regWait, ready, chk]
  have judged : s.judge (seqKey c) [i] = .raise c.slot.val (SlotIn.detail ⟨i, c, o, encSlot i⟩ e) := by
    unfold State.judge
    simp [slots, on, not_le.2 inImage, State.firstRaise, raised, fetch, unheld]
  have detail : (SlotIn.detail ⟨i, c, o, encSlot i⟩ e).code = e.code := by
    unfold SlotIn.detail
    split <;> rfl
  have refused : s.noteRefused (seqKey c) c.slot.val [i] = s := by
    simp [State.noteRefused, slots, wait, reads]
  rw [exec_slot ctl sem]
  unfold issue
  simp only [running, staged, held, last, live, List.getLast?_nil, Option.bind_none, List.isEmpty_nil, if_true, List.nil_append,
    Bool.and_self, ne_eq, not_true_eq_false, false_or, Bool.true_eq_false, if_false, Bool.false_eq_true]
  unfold State.tryBundle
  rw [judged]
  simp only [detail, code, false_and, if_false, refused]

/-! ## GLZ.RUN and GLZ.TBL join their unit's queue (R110, R246) -/

section Glz
variable {s : State} {c : SlotCtl} {sd : BitVec 5} {cen : Bool} {e : BitVec 3}

theorem glzPush_eq (s : State) (c : SlotCtl) (i : GlzItem) : s.glzPush (seqKey c) i =
    (s.setGlz c.die.val (c.q.val / 2) { s.glz c.die.val (c.q.val / 2) with queue := (s.glz c.die.val (c.q.val / 2)).queue ++ [i] }).modSeq (seqKey c)
      fun x => { x with ino := x.ino + 1 } := by
  obtain ⟨die, q, -⟩ := seqKey_facts c
  unfold State.glzPush
  rw [die, q]
  rfl

theorem calm_setGlz (s : State) (k n v : Nat) (x : Glz) : Calm s (s.setGlz n v x) k := calm_of_same (sameMem_of_eq rfl rfl rfl rfl) rfl rfl rfl

theorem calm_glzPush (s : State) (c : SlotCtl) (i : GlzItem) : Calm s (s.glzPush (seqKey c) i) (seqKey c) := by
  rw [glzPush_eq]
  exact (calm_setGlz s _ _ _ _).trans (calm_modSeq _ rfl rfl)

/-- The end of a bundle whose effect on the state is an item in the glaze's queue. -/
theorem ended_glzPush {v t : State} {i : GlzItem} (same : v.unfixed = s.unfixed) (ended : Ended s (v.glzPush (seqKey c) i) t (seqKey c)) :
    SameFiles s t (seqKey c) ∧ (∀ e, s.Signalled t (seqKey c) false e) ∧ t.tiles = s.tiles ∧ t.glz c.die.val (c.q.val / 2) =
      { s.glz c.die.val (c.q.val / 2) with queue := (s.glz c.die.val (c.q.val / 2)).queue ++ [i] } := by
  have seq (j : Nat) : v.seq j = s.seq j := congrArg (fun m => KMap.find (fun _ => Seq.empty) m j) (congrArg State.seqs same :)
  have glz : v.glz c.die.val (c.q.val / 2) = s.glz c.die.val (c.q.val / 2) :=
    congrArg (fun m => KMap.find (fun _ => (⟨[], [], []⟩ : Glz)) m (2 * c.die.val + c.q.val / 2)) (congrArg State.glzs same :)
  have own : ∃ b, t.seq (seqKey c) = { s.seq (seqKey c) with ino := (s.seq (seqKey c)).ino + 1, past := b } := by
    refine ⟨decide (2 ^ 14 ≤ s.pc (seqKey c) + 1), ?_⟩
    rw [ended.seq, glzPush_eq, State.seq_modSeq, if_pos rfl]
    exact congrArg (fun x : Seq => { x with ino := x.ino + 1, past := decide (2 ^ 14 ≤ s.pc (seqKey c) + 1) }) (seq (seqKey c))
  obtain ⟨b, own⟩ := own
  obtain ⟨-, glzs, tiles⟩ := saps_of_ended ended
  refine ⟨?_, fun e => ?_, ?_, ?_⟩
  · rw [SameFiles, own]
    exact ⟨rfl, rfl, rfl⟩
  · rw [State.Signalled, own]
    rfl
  · rw [tiles, glzPush_eq]
    exact (congrArg State.tiles same :)
  · rw [State.glz, glzs, glzPush_eq, glz]
    exact (State.glz_setGlz ..).trans (if_pos rfl)

/-- The descriptor of a GLZ.RUN and its mask read. -/
def State.chainRead (s : State) (c : SlotCtl) (sd : BitVec 5) : State :=
  (s.gDesc c.die.val (descOff s (seqKey c) sd)).head.maskSpan.foldl (fun s r => s.fixSoft (tileBase c.die.val + r.1) (r.2 - r.1))
    (s.fixSoft (tileBase c.die.val + descOff s (seqKey c) sd) 160)

/-- The chain that a GLZ.RUN starts. -/
def State.runChain (s : State) (c : SlotCtl) (sd : BitVec 5) (cen : Bool) (e : BitVec 3) : Chain :=
  (s.gDesc c.die.val (descOff s (seqKey c) sd)).chain s (seqKey c) (s.seq (seqKey c)).ino cen e.toNat

theorem chainRead_calm (k : Nat) : Calm s (s.chainRead c sd) k := (calm_fixSoft s k _ _).trans (calm_fold (fun s _ => calm_fixSoft s k _ _) _ _)

theorem chainRead_unfixed : (s.chainRead c sd).unfixed = s.unfixed :=
  (foldl_keeps State.unfixed _ (fun _ _ => fixSoft_unfixed ..) _ _).trans (fixSoft_unfixed ..)

theorem opGlzRun_eff : (opGlzRun (seqKey c) sd cen e).eff s s =
    if (s.runChain c sd cen e).groups = 0 then (s.chainRead c sd).signal (seqKey c) cen e.toNat
    else (s.chainRead c sd).glzPush (seqKey c) (.chain (s.runChain c sd cen e)) := by
  obtain ⟨die, -, -⟩ := seqKey_facts c
  unfold opGlzRun State.runChain State.chainRead
  simp only [die]
  rfl

theorem exec_glzRun (alone : s.Alone c) (slot : c.slot = 2) (noEnd : s.NoLoopEnd (seqKey c)) (accepts : s.Accepts c (.glzRun c sd cen e)) :
    let k := seqKey c
    let n := c.die.val
    let v := c.q.val / 2
    let ch := s.runChain c sd cen e
    ∃ t, exec (.glzRun c sd cen e) s = .next t ∧ s.Issued t k (s.pc k + 1) ∧ SameMem s t ∧ SameSeqsBut s t k ∧
      SameFiles s t k ∧ t.tiles = s.tiles ∧ (if ch.groups = 0 then s.Signalled t k cen e.toNat ∧ t.glzs = s.glzs
        else t.glz n v = { s.glz n v with queue := (s.glz n v).queue ++ [.chain ch] } ∧ s.Signalled t k false e.toNat) := by
  obtain ⟨free, ready⟩ := accepts
  obtain ⟨chk, wait, hold, late⟩ := ready _ rfl
  have issues : Issues s c (.glzRun c sd cen e) (opGlzRun (seqKey c) sd cen e) :=
    { alone := alone, ctl := rfl, sem := rfl, slot := by rw [slot]; rfl, free := free, chk := chk, wait := wait, hold := hold, late := late }
  have same : (s.chainRead c sd).unfixed = s.unfixed := chainRead_unfixed
  have calm := chainRead_calm (s := s) (c := c) (sd := sd) (seqKey c)
  have eff := opGlzRun_eff (s := s) (c := c) (sd := sd) (cen := cen) (e := e)
  dsimp only
  generalize s.runChain c sd cen e = ch at *
  generalize s.chainRead c sd = v at *
  by_cases none_ : ch.groups = 0
  · rw [if_pos none_] at eff
    obtain ⟨t, run, ended⟩ := exec_calm issues eff (calm.trans (calm_signal v _ cen e.toNat)) noEnd
    obtain ⟨files, signalled, -, glzs, tiles⟩ := ended_signal same ended
    refine ⟨t, run, ended.issued, ended.mem, ended.seqs, files, tiles, ?_⟩
    rw [if_pos none_]
    exact ⟨signalled, glzs⟩
  · rw [if_neg none_] at eff
    obtain ⟨t, run, ended⟩ := exec_calm issues eff (calm.trans (calm_glzPush v c (.chain ch))) noEnd
    obtain ⟨files, signalled, tiles, glz⟩ := ended_glzPush same ended
    refine ⟨t, run, ended.issued, ended.mem, ended.seqs, files, tiles, ?_⟩
    rw [if_neg none_]
    exact ⟨glz, signalled _⟩

theorem exec_glzTbl {tb : BitVec 2} (alone : s.Alone c) (slot : c.slot = 2) (noEnd : s.NoLoopEnd (seqKey c)) (accepts : s.Accepts c (.glzTbl c tb sd cen e)) :
    let k := seqKey c
    let n := c.die.val
    let v := c.q.val / 2
    ∃ t, exec (.glzTbl c tb sd cen e) s = .next t ∧ s.Issued t k (s.pc k + 1) ∧
      SameMem s t ∧ SameSeqsBut s t k ∧ SameFiles s t k ∧ t.glz n v = { s.glz n v with queue := (s.glz n v).queue ++
        [.table { seq := k, ino := (s.seq k).ino, tbl := tb.toNat, addr := descOff s k sd, cen := cen, e := e.toNat }] } := by
  obtain ⟨free, ready⟩ := accepts
  obtain ⟨chk, wait, hold, late⟩ := ready _ rfl
  have issues : Issues s c (.glzTbl c tb sd cen e) (opGlzTbl (seqKey c) tb sd cen e) :=
    { alone := alone, ctl := rfl, sem := rfl, slot := by rw [slot]; rfl, free := free, chk := chk, wait := wait, hold := hold, late := late }
  obtain ⟨t, run, ended⟩ := exec_calm issues rfl (calm_glzPush s c _) noEnd
  obtain ⟨files, -, -, glz⟩ := ended_glzPush rfl ended
  exact ⟨t, run, ended.issued, ended.mem, ended.seqs, files, glz⟩

/-- A chain descriptor that is not aligned is not read (R120). -/
theorem exec_glzRun_misaligned (alone : s.Alone c) (slot : c.slot = 2) (free : s.NoPending c (.glzRun c sd cen e)) (room : s.glzQueued (seqKey c) < 4)
    (odd : descOff s (seqKey c) sd % 64 ≠ 0) :
    exec (.glzRun c sd cen e) s = .next (s.takeExc (seqKey c) 2 (exc E.SEQ_TS_ALIGN (descOff s (seqKey c) sd))) := by
  have check : s.gCheck (seqKey c) (descOff s (seqKey c) sd) = some (exc E.SEQ_TS_ALIGN (descOff s (seqKey c) sd)) := by
    unfold State.gCheck firstExc
    rw [decide_eq_true odd]
    rfl
  have chk : (opGlzRun (seqKey c) sd cen e).chk s = some (exc E.SEQ_TS_ALIGN (descOff s (seqKey c) sd)) := by
    show (s.gCheck (seqKey c) (descOff s (seqKey c) sd)).orElse _ = _
    rw [check]
    rfl
  have wait : (opGlzRun (seqKey c) sd cen e).wait s = 0 := by
    show (if 4 ≤ s.glzQueued (seqKey c) then 6 else s.descWait _ _ 160 _) = 0
    rw [if_neg (by omega), State.descWait, if_pos (.inl odd)]
  have reads : (opGlzRun (seqKey c) sd cen e).reads s = [] := if_pos (.inl odd)
  have slot2 : (opGlzRun (seqKey c) sd cen e).slots.contains c.slot.val = true := by rw [slot]; rfl
  rw [exec_raises_unheld alone rfl rfl slot2 free chk wait reads (by decide : E.SEQ_TS_ALIGN ≠ E.CFG_COMMIT), slot]
  rfl

end Glz

end Sys2Proof.Machine

namespace Sys2Proof.Machine

-- One proof at a time: threads that wait for each other hold memory.
set_option Elab.async false

/-! ## A unit of the glaze and its signals -/

theorem setGlz_rest (s : State) (n v : Nat) (x : Glz) : (s.setGlz n v x).seqs = s.seqs ∧ (s.setGlz n v x).regs = s.regs ∧ (s.setGlz n v x).mem = s.mem ∧
    (s.setGlz n v x).tiles = s.tiles ∧ SameMem s (s.setGlz n v x) := ⟨rfl, rfl, rfl, rfl, sameMem_of_eq rfl rfl rfl rfl⟩

theorem glz_setGlz_same (s : State) (n v : Nat) (x : Glz) : (s.setGlz n v x).glz n v = x := (State.glz_setGlz ..).trans (if_pos rfl)

/-- A unit that is done with an item signals. -/
theorem unitDone_facts {s u : State} (seqs : u.seqs = s.seqs) (n v k e : Nat) (cen : Bool) (x : Glz) : let t := (u.setGlz n v x).signal k cen e
    t.glz n v = x ∧ SameMem u t ∧ t.regs = u.regs ∧ s.Signalled t k cen e := by
  have glz := glz_setGlz_same u n v x
  obtain ⟨seqs', regs, -, -, mem⟩ := setGlz_rest u n v x
  generalize u.setGlz n v x = w at *
  obtain ⟨mem', regs', -, signalled, -, glzs⟩ := signal_facts w k cen e
  refine ⟨?_, mem.trans mem', regs'.trans regs, ?_⟩
  · rw [State.glz, glzs]
    exact glz
  · have seq : w.seq k = s.seq k := by rw [State.seq, seqs', seqs, State.seq]
    rwa [State.Signalled, ← seq]

/-! ## Lookup tables (R247) -/

/-- A run of entries put into a map. -/
theorem find_putRun (f : Nat → F32) (a n : Nat) (m : KMap F32) (j : Nat) :
    KMap.find (fun _ => 0) ((List.range n).foldl (fun m i => KMap.put (fun _ => 0) m (a + i) (f i)) m) j =
      if a ≤ j ∧ j < a + n then f (j - a) else KMap.find (fun _ => 0) m j := by
  induction n with
  | zero => exact (if_neg (by omega)).symm
  | succ n ih =>
    rw [List.range_succ, List.foldl_append, List.foldl_cons, List.foldl_nil, KMap.find_put, ih]
    by_cases last : j = a + n
    · rw [if_pos last, if_pos ⟨by omega, by omega⟩, last, Nat.add_sub_cancel_left]
    · rw [if_neg last]
      exact if_congr (by omega) rfl rfl

/-- The value that a lookup table's entry takes from the tile store. -/
def State.lutEntry (s : State) (a i : Nat) : F32 := if s.isBad (a + 4 * i) then canonNaN else BitVec.ofNat 32 (s.le (a + 4 * i) 4)

/-- The tables of a unit with one replaced. -/
def State.lutsWith (s : State) (a tbl : Nat) (m : KMap F32) : KMap F32 :=
  (List.range 256).foldl (fun m i => KMap.put (fun _ => 0) m (256 * tbl + i) (s.lutEntry a i)) m

theorem lutsWith_find (s : State) (a tbl : Nat) (m : KMap F32) (i : Nat) :
    KMap.find (fun _ => 0) (s.lutsWith a tbl m) i = if i / 256 = tbl then s.lutEntry a (i % 256) else KMap.find (fun _ => 0) m i := by
  rw [State.lutsWith, find_putRun]
  by_cases own : i / 256 = tbl
  · rw [if_pos own, if_pos ⟨by omega, by omega⟩, show i - 256 * tbl = i % 256 by omega]
  · rw [if_neg own, if_neg (by omega)]

section Table
variable {s : State} {die : Fin 24} {v : Fin 2} {l : TblLoad} {rest : List GlzItem}

theorem exec_glzTblComplete (front : (s.glz die.val v.val).queue = .table l :: rest) (entered : (s.glz die.val v.val).run.all GlzItem.entered = true)
    (free : s.tsFree l.seq l.ino [(l.addr, l.addr + 1024)] [] = true) : exec (.glzTblComplete die v) s =
    .next (((s.noteRead (some (s.seqCtx l.seq)) (tileBase die.val + l.addr) 1024).setGlz die.val v.val
      { s.glz die.val v.val with
        queue := rest
        luts := s.lutsWith (tileBase die.val + l.addr) l.tbl (s.glz die.val v.val).luts }).signal l.seq l.cen l.e) := by
  refine congrArg Host.Outcome.next ?_
  dsimp only
  rw [front]
  exact if_pos (by rw [entered, free]; rfl)

theorem glzTblComplete_clause (front : (s.glz die.val v.val).queue = .table l :: rest) (entered : (s.glz die.val v.val).run.all GlzItem.entered = true)
    (free : s.tsFree l.seq l.ino [(l.addr, l.addr + 1024)] [] = true) :
    ∃ t, exec (.glzTblComplete die v) s = .next t ∧ SameMem s t ∧ (t.glz die.val v.val).queue = rest ∧
      (t.glz die.val v.val).run = (s.glz die.val v.val).run ∧ s.Signalled t l.seq l.cen l.e ∧
      ∀ i, KMap.find (fun _ => 0) (t.glz die.val v.val).luts i =
        if i / 256 = l.tbl then s.lutEntry (tileBase die.val + l.addr) (i % 256) else KMap.find (fun _ => 0) (s.glz die.val v.val).luts i := by
  have read := noteRead_unread (tileBase_le die.val l.addr) s (some (s.seqCtx l.seq)) 1024
  have run := exec_glzTblComplete front entered free
  have found := lutsWith_find s (tileBase die.val + l.addr) l.tbl (s.glz die.val v.val).luts
  generalize s.lutsWith (tileBase die.val + l.addr) l.tbl (s.glz die.val v.val).luts = m at *
  obtain ⟨glz, mem, -, signalled⟩ := unitDone_facts (seqs_of_unread read) die.val v.val l.seq l.e l.cen
    { s.glz die.val v.val with queue := rest, luts := m }
  refine ⟨_, run, (sameMem_of_unread read).trans mem, ?_, ?_, signalled, fun i => ?_⟩
  · rw [glz]
  · rw [glz]
  · rw [glz]
    exact found i

end Table

/-! ## Chains start and their groups enter (R110, R118) -/

section Enter
variable {s : State} {die : Fin 24} {v : Fin 2}

theorem exec_glzChainStart {c : Chain} {rest : List GlzItem} (front : (s.glz die.val v.val).queue = .chain c :: rest) :
    exec (.glzChainStart die v) s = .next (s.setGlz die.val v.val
      { s.glz die.val v.val with queue := rest, run := (s.glz die.val v.val).run ++ [.chain c] }) := by
  refine congrArg Host.Outcome.next ?_
  dsimp only
  rw [front]

/-- The tile store's ranges read for a source. -/
def State.spansRead (s : State) (ctx : Option Nat) (n : Nat) (l : List (Nat × Nat)) : State :=
  l.foldl (fun s p => s.noteRead ctx (tileBase n + p.1) (p.2 - p.1)) s

theorem spansRead_unread (s : State) (ctx : Option Nat) (n : Nat) (l : List (Nat × Nat)) : (s.spansRead ctx n l).unread = s.unread :=
  foldl_keeps State.unread (fun (s : State) (p : Nat × Nat) => s.noteRead ctx (tileBase n + p.1) (p.2 - p.1)) (fun s p => noteRead_unread (tileBase_le n p.1) s ctx (p.2 - p.1)) l s

theorem spansRead_unreadFld (s : State) (ctx : Option Nat) (n : Nat) (l : List (Nat × Nat)) {g : Fld} (apart : UnreadFld g) :
    (s.spansRead ctx n l).get g = s.get g :=
  foldl_keeps (fun s : State => s.get g) (fun (s : State) (p : Nat × Nat) => s.noteRead ctx (tileBase n + p.1) (p.2 - p.1))
    (fun s p => noteRead_unreadFld (tileBase_le n p.1) s ctx (p.2 - p.1) apart) l s

/-- What a group's entry reads of one source. -/
def Chain.noteSource (c : Chain) (ctx : Option Nat) (g : Nat) (s : State) (x : GSrc) : State :=
  let n := c.seq / 4
  let r := c.head.groupRows g
  let b := c.head.box
  match x.kind with
  | 1 => (List.range (r.2 - r.1)).foldl (fun s i =>
      s.noteTileRow ctx n (2 * (c.seq % 4) + x.index / 16) (x.index % 16) (r.1 + i) b.2.2.1 b.2.2.2) s
  | 2 => (List.range (r.2 - r.1)).foldl (fun s i => s.spansRead ctx n (GSrc.spans x (r.1 + i, r.1 + i + 1, b.2.2.1, b.2.2.2))) s
  | 3 => if g = 0 then s.spansRead ctx n (x.spans b) else s
  | 4 => s.spansRead ctx n (GSrc.spans x (r.1, r.2, b.2.2.1, b.2.2.2))
  | _ => s

theorem noteGroup_eq (s : State) (c : Chain) (g : Nat) : c.noteGroup s g = c.srcs.foldl (c.noteSource (some (s.seqCtx c.seq)) g) s := rfl

theorem noteSource_unread (c : Chain) (ctx : Option Nat) (g : Nat) (s : State) (x : GSrc) : (c.noteSource ctx g s x).unread = s.unread := by
  unfold Chain.noteSource
  dsimp only
  split
  · exact foldl_keeps State.unread _ (fun _ _ => noteTileRow_unread ..) _ s
  · exact foldl_keeps State.unread _ (fun _ _ => spansRead_unread ..) _ s
  · split
    · exact spansRead_unread ..
    · rfl
  · exact spansRead_unread ..
  · rfl

theorem noteSource_unreadFld (c : Chain) (ctx : Option Nat) (g : Nat) (s : State) (x : GSrc) {f : Fld} (apart : UnreadFld f) :
    (c.noteSource ctx g s x).get f = s.get f := by
  unfold Chain.noteSource
  dsimp only
  split
  · exact foldl_keeps (fun s : State => s.get f) _ (fun s _ => noteTileRow_unreadFld s ctx _ _ _ _ _ _ apart) _ s
  · exact foldl_keeps (fun s : State => s.get f) _ (fun s _ => spansRead_unreadFld s ctx _ _ apart) _ s
  · split
    · exact spansRead_unreadFld s ctx _ _ apart
    · rfl
  · exact spansRead_unreadFld s ctx _ _ apart
  · rfl

theorem noteGroup_unread (s : State) (c : Chain) (g : Nat) : (c.noteGroup s g).unread = s.unread := by
  rw [noteGroup_eq]
  exact foldl_keeps State.unread _ (noteSource_unread c _ g) _ s

theorem noteGroup_unreadFld (s : State) (c : Chain) (g : Nat) {f : Fld} (apart : UnreadFld f) : (c.noteGroup s g).get f = s.get f := by
  rw [noteGroup_eq]
  exact foldl_keeps (fun s : State => s.get f) _ (fun s x => noteSource_unreadFld c _ g s x apart) _ s

/-! ### Events counted -/

theorem glzCount_unlogged (s : State) (flag cnt : Fld) (q k : Nat) : (s.glzCount flag cnt q k).unlogged = s.unlogged := by
  unfold State.glzCount
  dsimp only
  split
  · rfl
  · split <;> rfl

theorem glzCount_get (s : State) {flag cnt g : Fld} (q k : Nat) (one : g.a ≠ flag.a) (two : g.a ≠ cnt.a) : (s.glzCount flag cnt q k).get g = s.get g := by
  unfold State.glzCount
  dsimp only
  split
  · rfl
  · rw [State.get_count_other _ _ _ _ two]
    split
    · rfl
    · exact State.get_put_other _ _ _ _ one

/-- The events of a group's lanes counted, and the unit's activity. -/
def State.lanesCounted (s : State) (k n v ovf inv sat : Nat) : State :=
  (((((s.glzOvf k ovf).glzInv k inv).glzSat k sat none).count (R.GLZ_ACT.count n v) 1).unitAdmit n (2 * n + v))

theorem unitAdmit_unread (s : State) (n u : Nat) : (s.unitAdmit n u).seqs = s.seqs ∧ (s.unitAdmit n u).tiles = s.tiles ∧ SameMem s (s.unitAdmit n u) ∧
    ∀ g, (s.unitAdmit n u).get g = s.get g := ⟨rfl, rfl, sameMem_of_eq rfl rfl rfl rfl, fun g => get_congr rfl g⟩

theorem lanesCounted_facts (s : State) (k : Nat) {n v : Nat} (unit : v < 2) (ovf inv sat : Nat) : let t := s.lanesCounted k n v ovf inv sat
    t.seqs = s.seqs ∧ t.tiles = s.tiles ∧ SameMem s t ∧ s.Counted t (R.GLZ_ACT.count n v) 1 := by
  have same : ((((s.glzOvf k ovf).glzInv k inv).glzSat k sat none).count (R.GLZ_ACT.count n v) 1).unlogged = s.unlogged :=
    (count_unlogged ..).trans ((glzCount_unlogged ..).trans ((glzCount_unlogged ..).trans (glzCount_unlogged ..)))
  have kept : (((s.glzOvf k ovf).glzInv k inv).glzSat k sat none).get (R.GLZ_ACT.count n v) = s.get (R.GLZ_ACT.count n v) := by
    refine (glzCount_get _ _ _ ?_ ?_).trans ((glzCount_get _ _ _ ?_ ?_).trans (glzCount_get s _ _ ?_ ?_)) <;>
      simp only [R.GLZ_ACT.count, R.GLZ_STEPFLAG.sat, R.GLZ_STEPFLAG.inv, R.GLZ_STEPFLAG.ovf, R.GLZ_SAT.count, R.GLZ_INV.count, R.GLZ_OVF.count] <;> omega
  have counted := State.get_count_same (((s.glzOvf k ovf).glzInv k inv).glzSat k sat none) (R.GLZ_ACT.count n v) 1
  rw [kept] at counted
  have admitted := unitAdmit_unread ((((s.glzOvf k ovf).glzInv k inv).glzSat k sat none).count (R.GLZ_ACT.count n v) 1) n (2 * n + v)
  dsimp only
  rw [State.lanesCounted]
  generalize (((s.glzOvf k ovf).glzInv k inv).glzSat k sat none).count (R.GLZ_ACT.count n v) 1 = u at *
  obtain ⟨seqs, tiles, mem, get⟩ := admitted
  exact ⟨seqs.trans (congrArg State.seqs same :), tiles.trans (congrArg State.tiles same :), (sameMem_of_unlogged same).trans mem, (get _).trans counted⟩

end Enter

end Sys2Proof.Machine

namespace Sys2Proof.Machine

-- One proof at a time: threads that wait for each other hold memory.
set_option Elab.async false

/-! ## A group enters (R118, R121) -/

/-- A chain whose first group enters has read its row vectors. -/
def Chain.begun (c : Chain) (s : State) : Chain := if c.entered = 0 then { c with rowVecs := c.readRows s } else c

theorem begun_facts (c : Chain) (s : State) : (c.begun s).entered = c.entered ∧ (c.begun s).head = c.head ∧ (c.begun s).flight = c.flight ∧
    (c.begun s).seq = c.seq := by
  unfold Chain.begun
  split <;> exact ⟨rfl, rfl, rfl, rfl⟩

/-- The lanes of the group that enters. -/
def State.groupLanes (s : State) (luts : KMap F32) (c : Chain) : List Lane :=
  (List.range 1024).map (fun l => (c.begun s).lane s (fun b i => KMap.find (fun _ => (0 : F32)) luts (256 * b + i)) (c.head.lane c.entered l).1
    (c.head.lane c.entered l).2)

/-- The chain once its group is in flight. -/
def Chain.groupIn (c : Chain) (lanes : List Lane) : Chain := { c with entered := c.entered + 1, flight := c.flight ++ [lanes] }

/-- What a group's entry notes and counts. -/
def State.groupNoted (s : State) (n v : Nat) (c : Chain) (lanes : List Lane) : State :=
  (c.noteGroup s c.entered).lanesCounted c.seq n v (lanes.map Lane.ovf).sum (lanes.map Lane.inv).sum (lanes.map Lane.sat).sum

theorem groupNoted_facts (s : State) {n v : Nat} (die : n < 24) (unit : v < 2) (c : Chain) (lanes : List Lane) : let t := s.groupNoted n v c lanes
    t.seqs = s.seqs ∧ t.tiles = s.tiles ∧ SameMem s t ∧ s.Counted t (R.GLZ_ACT.count n v) 1 := by
  have place : UnreadFld (R.GLZ_ACT.count n v) := by
    simp only [UnreadFld, R.GLZ_ACT.count]
    omega
  have noted := noteGroup_unread s c c.entered
  have act := noteGroup_unreadFld s c c.entered place
  dsimp only
  rw [State.groupNoted]
  generalize c.noteGroup s c.entered = u at *
  obtain ⟨seqs, tiles, mem, counted⟩ := lanesCounted_facts u c.seq (n := n) unit (lanes.map Lane.ovf).sum (lanes.map Lane.inv).sum (lanes.map Lane.sat).sum
  refine ⟨seqs.trans (seqs_of_unread noted), tiles.trans (congrArg State.tiles noted :), (sameMem_of_unread noted).trans mem, ?_⟩
  rwa [State.Counted, ← act]

section Run
variable {s : State} {die : Fin 24} {v : Fin 2} {pre post : List GlzItem} {c : Chain}

theorem exec_glzGroupEnter (next : nextEnter (s.glz die.val v.val).run = some (pre, c, post)) (may : s.unitMay die.val (2 * die.val + v.val) = true)
    (free : s.tsFree c.seq c.ino (c.srcs.flatMap (fun x => x.spans c.head.box)) [] = true) :
    exec (.glzGroupEnter die v) s = .next ((s.groupNoted die.val v.val (c.begun s) (s.groupLanes (s.glz die.val v.val).luts c)).setGlz die.val v.val
      { s.glz die.val v.val with run := pre ++ .chain ((c.begun s).groupIn (s.groupLanes (s.glz die.val v.val).luts c)) :: post }) := by
  obtain ⟨entered, head, -, -⟩ := begun_facts c s
  have begun : (if c.entered = 0 then { c with rowVecs := c.readRows s } else c) = c.begun s := rfl
  refine congrArg Host.Outcome.next ?_
  dsimp only
  rw [next]
  refine (if_pos (by rw [may, free]; rfl)).trans ?_
  rw [begun, State.groupLanes, ← entered, ← head]
  generalize c.begun s = d
  generalize (List.range 1024).map (fun l => d.lane s (fun b i => KMap.find (fun _ => (0 : F32)) (s.glz die.val v.val).luts (256 * b + i))
    (d.head.lane d.entered l).1 (d.head.lane d.entered l).2) = lanes
  rfl

theorem glzGroupEnter_clause (next : nextEnter (s.glz die.val v.val).run = some (pre, c, post))
    (may : s.unitMay die.val (2 * die.val + v.val) = true)
    (free : s.tsFree c.seq c.ino (c.srcs.flatMap (fun x => x.spans c.head.box)) [] = true) : ∃ t, exec (.glzGroupEnter die v) s = .next t ∧ SameMem s t ∧
      t.seqs = s.seqs ∧ t.tiles = s.tiles ∧ s.Counted t (R.GLZ_ACT.count die.val v.val) 1 ∧
      (t.glz die.val v.val).run = pre ++ .chain { c.begun s with
        entered := c.entered + 1
        flight := c.flight ++ [s.groupLanes (s.glz die.val v.val).luts c] } :: post := by
  have run := exec_glzGroupEnter next may free
  obtain ⟨entered, -, flight, -⟩ := begun_facts c s
  generalize s.groupLanes (s.glz die.val v.val).luts c = lanes at *
  obtain ⟨seqs, tiles, mem, counted⟩ := groupNoted_facts s die.isLt v.isLt (c.begun s) lanes
  generalize s.groupNoted die.val v.val (c.begun s) lanes = u at *
  have glz := glz_setGlz_same u die.val v.val { s.glz die.val v.val with run := pre ++ .chain ((c.begun s).groupIn lanes) :: post }
  obtain ⟨seqs', regs', -, tiles', mem'⟩ := setGlz_rest u die.val v.val
    { s.glz die.val v.val with run := pre ++ .chain ((c.begun s).groupIn lanes) :: post }
  refine ⟨_, run, mem.trans mem', seqs'.trans seqs, tiles'.trans tiles, ?_, ?_⟩
  · exact (get_congr regs' _).trans counted
  · rw [glz, Chain.groupIn, entered, flight]

/-! ## A group is written (R118, R119) -/

theorem putTileRow_unsunk (s : State) (ctx : Option Nat) (n a j m col : Nat) (vs : List F32) : (s.putTileRow ctx n a j m col vs).unsunk = s.unsunk :=
  (foldl_keeps State.unsunk _ (fun _ _ => unsunk_of_unlogged (raise_unlogged ..)) _ _).trans rfl

theorem glzCount_unsunk (s : State) (flag cnt : Fld) (q k : Nat) : (s.glzCount flag cnt q k).unsunk = s.unsunk := unsunk_of_unlogged (glzCount_unlogged ..)

theorem glzNonfin_unsunk (s : State) (k c tag : Nat) : (s.glzNonfin k c tag).unsunk = s.unsunk := by
  unfold State.glzNonfin
  dsimp only
  split
  · exact glzCount_unsunk ..
  · exact (unsunk_of_unlogged (count_unlogged ..)).trans (glzCount_unsunk ..)

theorem glzSat_unsunk (s : State) (k c : Nat) (tag : Option Nat) : (s.glzSat k c tag).unsunk = s.unsunk := by
  unfold State.glzSat
  dsimp only
  split
  · split
    · exact glzCount_unsunk ..
    · exact (unsunk_of_unlogged (count_unlogged ..)).trans (glzCount_unsunk ..)
  · exact glzCount_unsunk ..

theorem stepAmax_unsunk (s : State) (n i : Nat) (ls : List Lane) : (s.stepAmax n i ls).unsunk = s.unsunk := unsunk_of_unlogged (put_unlogged ..)

theorem sinkRow_unsunk (s : State) (c : Chain) (x : GSink) (m : Nat) (ls : List Lane) : (s.sinkRow c x m ls).unsunk = s.unsunk := by
  unfold State.sinkRow
  dsimp only
  split
  · exact (glzNonfin_unsunk ..).trans (foldl_keeps State.unsunk _ (fun _ _ => putTileRow_unsunk ..) _ s)
  · split
    · exact (glzNonfin_unsunk ..).trans (foldl_keeps State.unsunk _ (fun _ _ => tsPut_unsunk ..) _ s)
    · split
      · exact (glzNonfin_unsunk ..).trans ((glzCount_unsunk ..).trans (foldl_keeps State.unsunk _ (fun _ _ => tsPut_unsunk ..) _ s))
      · rw [glzNonfin_unsunk]
        split
        · rw [stepAmax_unsunk, glzSat_unsunk, tsPut_unsunk, tsPut_unsunk]
        · rw [glzSat_unsunk, tsPut_unsunk, tsPut_unsunk]

theorem writeGroup_unsunk (s : State) (c : Chain) (lanes : List Lane) : (s.writeGroup c lanes).unsunk = s.unsunk := by
  refine foldl_keeps State.unsunk _ (fun s x => ?_) _ s
  split
  · rfl
  · refine foldl_keeps State.unsunk _ (fun s ls => ?_) _ s
    split
    · rfl
    · exact sinkRow_unsunk ..

/-- A chain without a sink writes nothing. -/
theorem writeGroup_none (s : State) {c : Chain} (none_ : c.sinks.all (fun x => decide (x.kind = 0)) = true) (lanes : List Lane) :
    s.writeGroup c lanes = s := by
  unfold State.writeGroup
  dsimp only
  refine List.foldlRecOn c.sinks _ (motive := fun t : State => t = s) rfl fun t same x mem => ?_
  rw [if_pos (of_decide_eq_true (List.all_eq_true.1 none_ x mem)), same]

/-- The chain once a group of lanes is written. -/
def Chain.groupOut (c : Chain) (lanes : List Lane) (rest : List (List Lane)) : Chain :=
  { c with
    written := c.written + 1
    flight := rest
    kept := if c.head.redOp = 0 then c.kept else
      lanes.foldl (fun m l => KMap.put (fun _ => 0) m (128 * l.m + l.n) (if l.masked then redIdent c.head.redOp else canon l.val)) c.kept }

theorem exec_glzGroupWrite {lanes : List Lane} {rest : List (List Lane)} (next : nextWrite (s.glz die.val v.val).run = some (pre, c, post))
    (flight : c.flight = lanes :: rest) (written : allWritten pre = true) (free : s.tsFree c.seq c.ino [] c.writes = true) :
    exec (.glzGroupWrite die v) s = .next ((s.writeGroup c lanes).setGlz die.val v.val
      { s.glz die.val v.val with run := pre ++ .chain (c.groupOut lanes rest) :: post }) := by
  refine congrArg Host.Outcome.next ?_
  dsimp only
  rw [next]
  dsimp only
  rw [flight]
  exact if_pos (by rw [written, free]; rfl)

theorem glzGroupWrite_clause {lanes : List Lane} {rest : List (List Lane)} (next : nextWrite (s.glz die.val v.val).run = some (pre, c, post))
    (flight : c.flight = lanes :: rest) (written : allWritten pre = true) (free : s.tsFree c.seq c.ino [] c.writes = true) :
    ∃ t d, exec (.glzGroupWrite die v) s = .next t ∧ t.seqs = s.seqs ∧
      (t.glz die.val v.val).run = pre ++ .chain d :: post ∧ d.written = c.written + 1 ∧ d.flight = rest ∧ d.entered = c.entered ∧ d.head = c.head ∧
      (c.sinks.all (fun x => decide (x.kind = 0)) = true → SameMem s t ∧ t.tiles = s.tiles ∧ t.regs = s.regs) ∧
      (∀ a, t.byte a = (s.writeGroup c lanes).byte a) ∧ t.tiles = (s.writeGroup c lanes).tiles := by
  have seqs := seqs_of_unsunk (writeGroup_unsunk s c lanes)
  have idle := writeGroup_none s (c := c) (lanes := lanes)
  have run := exec_glzGroupWrite next flight written free
  generalize s.writeGroup c lanes = u at *
  have glz := glz_setGlz_same u die.val v.val { s.glz die.val v.val with run := pre ++ .chain (c.groupOut lanes rest) :: post }
  obtain ⟨seqs', regs', mem', tiles', sameMem'⟩ := setGlz_rest u die.val v.val
    { s.glz die.val v.val with run := pre ++ .chain (c.groupOut lanes rest) :: post }
  refine ⟨_, c.groupOut lanes rest, run, seqs'.trans seqs, ?_, rfl, rfl, rfl, rfl, fun none_ => ?_, byte_congr mem', tiles'⟩
  · rw [glz]
  · have same := idle none_
    rw [same] at sameMem' tiles' regs' ⊢
    exact ⟨sameMem', tiles', regs'⟩

/-! ## A chain is complete (R121, R126) -/

/-- The results of a chain's reduction. -/
def State.reduced (s : State) (c : Chain) : List (F32 × Nat) := (List.range c.head.redCount).map (fun i => s.reduceOne c i)

/-- The old values that a reduction adds to, read. -/
def State.chainOld (s : State) (n : Nat) (c : Chain) : State :=
  if c.head.redAcc then s.noteRead (some (s.seqCtx c.seq)) (tileBase n + c.head.red) (4 * c.head.redCount) else s

/-- A chain's reduction written, and its events counted. -/
def State.chainReduced (s : State) (n : Nat) (c : Chain) : State :=
  ((s.chainOld n c).tsPut (some (s.seqCtx c.seq)) n c.head.red ((s.reduced c).flatMap (fun r => leBytes 4 r.1.toNat))).glzInv c.seq
    ((s.reduced c).map Prod.snd).sum

theorem chainOld_unread (s : State) (n : Nat) (c : Chain) : (s.chainOld n c).unread = s.unread := by
  unfold State.chainOld
  split
  · exact noteRead_unread (tileBase_le ..) ..
  · rfl

theorem chainReduced_unsunk (s : State) (n : Nat) (c : Chain) : (s.chainReduced n c).unsunk = s.unsunk :=
  (glzCount_unsunk ..).trans ((tsPut_unsunk ..).trans (unsunk_of_unread (chainOld_unread ..)))

theorem chainReduced_bytes (s : State) (n : Nat) (c : Chain) : let a := tileBase n + c.head.red
    let bs := (s.reduced c).flatMap (fun r => leBytes 4 r.1.toNat)
    s.badIn a bs.length = [] → (∀ i, i < bs.length → (s.chainReduced n c).byte (a + i) = bs.getD i 0) ∧ SameMemBut s (s.chainReduced n c) a bs.length := by
  intro a bs clean
  have read := sameMem_of_unread (chainOld_unread s n c)
  have clean' : (s.chainOld n c).badIn a bs.length = [] := (badIn_of_sameMem read ..).trans clean
  obtain ⟨written, rest⟩ := tsPut_clean (c := some (s.seqCtx c.seq)) clean'
  have mem : (s.chainReduced n c).mem = ((s.chainOld n c).tsPut (some (s.seqCtx c.seq)) n c.head.red bs).mem := mem_of_unlogged (glzCount_unlogged ..)
  exact ⟨fun i less => (byte_congr mem _).trans (written i less), fun x apart => (byte_congr mem x).trans ((rest x apart).trans (read.1 x))⟩

theorem exec_glzChainComplete {rest : List GlzItem} (front : (s.glz die.val v.val).run = .chain c :: rest) (written : c.written = c.groups)
    (free : s.tsFree c.seq c.ino [] c.head.redSpan = true) : exec (.glzChainComplete die v) s =
      .next (((if c.head.redOp = 0 then s else s.chainReduced die.val c).setGlz die.val v.val { s.glz die.val v.val with run := rest }).signal c.seq c.cen c.e) := by
  refine congrArg Host.Outcome.next ?_
  dsimp only
  rw [front]
  exact if_pos ⟨written, free⟩

theorem glzChainComplete_clause {rest : List GlzItem} (front : (s.glz die.val v.val).run = .chain c :: rest) (written : c.written = c.groups)
    (free : s.tsFree c.seq c.ino [] c.head.redSpan = true) : ∃ t,
      exec (.glzChainComplete die v) s = .next t ∧ (t.glz die.val v.val).run = rest ∧ (t.glz die.val v.val).queue = (s.glz die.val v.val).queue ∧
      s.Signalled t c.seq c.cen c.e ∧ (c.head.redOp = 0 → SameMem s t ∧ t.regs = s.regs) ∧
      (c.head.redOp ≠ 0 → let a := tileBase die.val + c.head.red
        let bs := (s.reduced c).flatMap (fun r => leBytes 4 r.1.toNat)
        s.badIn a bs.length = [] → (∀ i, i < bs.length → t.byte (a + i) = bs.getD i 0) ∧ SameMemBut s t a bs.length) := by
  have run := exec_glzChainComplete front written free
  have put := chainReduced_bytes s die.val c
  have reduced : (if c.head.redOp = 0 then s else s.chainReduced die.val c).unsunk = s.unsunk := by
    split
    · rfl
    · exact chainReduced_unsunk ..
  by_cases plain : c.head.redOp = 0
  · rw [if_pos plain] at run
    obtain ⟨glz, mem, regs, signalled⟩ := unitDone_facts (rfl : s.seqs = s.seqs) die.val v.val c.seq c.e c.cen { s.glz die.val v.val with run := rest }
    refine ⟨_, run, ?_, ?_, signalled, fun _ => ⟨mem, regs⟩, fun more => absurd plain more⟩ <;> rw [glz]
  · rw [if_neg plain] at run reduced
    generalize s.chainReduced die.val c = u at *
    obtain ⟨glz, mem, -, signalled⟩ := unitDone_facts (seqs_of_unsunk reduced) die.val v.val c.seq c.e c.cen { s.glz die.val v.val with run := rest }
    refine ⟨_, run, ?_, ?_, signalled, fun none_ => absurd none_ plain, fun _ clean => ?_⟩
    · rw [glz]
    · rw [glz]
    · obtain ⟨bytes, but⟩ := put clean
      exact ⟨fun i less => (mem.1 _).trans (bytes i less), fun x apart => (mem.1 x).trans (but x apart)⟩

end Run

/-- Settles O17: what the sap line and the glaze read, they note without a change of memory, and what they write goes to the places that
their descriptors name. -/
theorem sapLineAndGlazeUnits : Obligations.SapLineAndGlazeUnits := by
  unfold Obligations.SapLineAndGlazeUnits
  refine ⟨⟨fun s c fw fx init sd cen e alone slot noEnd accepts => ?_, fun s die o busy => ⟨sapVectorCopied_clause busy,
    fun xv copied more group may => sapWeightStep_clause busy copied more group may, sapGroupWrite_clause busy, sapComplete_clause busy,
    sapComplete_early busy⟩⟩, fun s c sd cen e alone slot noEnd => ⟨exec_glzRun alone slot noEnd, fun tb => exec_glzTbl alone slot noEnd,
    exec_glzRun_misaligned alone slot⟩, fun s die v => ⟨fun l rest => glzTblComplete_clause, fun c rest => exec_glzChainStart,
    fun pre c post next may _ free => glzGroupEnter_clause next may free, fun pre c post lanes rest => glzGroupWrite_clause,
    fun c rest => glzChainComplete_clause⟩⟩
  obtain ⟨t, run, issued, mem, seqs, files, effect⟩ := exec_sapMv alone slot noEnd accepts
  refine ⟨t, run, issued, mem, seqs, files, ?_⟩
  split at effect
  · next empty => exact (if_pos empty).mpr effect
  · next some_ =>
    obtain ⟨own, last, op⟩ := effect
    exact (if_neg some_).mpr ⟨own, last, _, op, rfl, rfl, rfl, rfl, rfl, rfl, rfl, rfl, rfl, rfl, rfl, rfl, rfl, rfl, rfl, rfl⟩

end Sys2Proof.Machine
